-- ==== Sys2Proof/Word.lean ====
section
/-!
DEFINITION. The word types of the CFB1280 and the index types of its repeated units.

Bit vectors hold what the manual treats as bits (register contents, addresses, counters that wrap); a unit's
number is an index below the number of units the manual gives (R4, R401).
-/
namespace Sys2Proof

/-- One 32-bit register word (R320). -/
abbrev Word := BitVec 32

/-- One byte of memory. -/
abbrev Byte := BitVec 8

/-- A 64-bit value: a timebase value, a device address, a wide counter. -/
abbrev Quad := BitVec 64

/-- A BAR0 byte offset: BAR0 is 32 MiB (R400). -/
abbrev Offset := BitVec 25

/-- Functions 0 (the PF) to 63 (R305). -/
abbrev Fn := Fin 64
/-- Register pages of 16 KiB (R311). -/
abbrev PageNo := Fin 2048
/-- Canvases (R4). -/
abbrev CanvasNo := Fin 128
/-- Ports (R4). -/
abbrev PortNo := Fin 128
/-- Compose pipes (R4). -/
abbrev PipeNo := Fin 14
/-- Gather units (R86). -/
abbrev UnitNo := Fin 112
/-- Command queues (R188). -/
abbrev QueueNo := Fin 256
/-- DMA channels. -/
abbrev ChanNo := Fin 64
/-- DMA timers (R222). -/
abbrev TimerNo := Fin 16
/-- Check-value scan engines. -/
abbrev EngineNo := Fin 16
/-- Witness regions (R253). -/
abbrev RegionNo := Fin 4096
/-- GDDR7 sites (R4). -/
abbrev SiteNo := Fin 18
/-- Ganged channels GC0 to GC3 (R260). -/
abbrev GangNo := Fin 4
/-- Banks of a ganged channel (R267). -/
abbrev BankNo := Fin 16
/-- Byte lanes (R281). -/
abbrev LaneNo := Fin 72
/-- Reference PLLs (R150). -/
abbrev PllNo := Fin 8

/-- A finite table keyed by a number, listing only the entries that differ from their default: a list of
(key, value) pairs with rising keys. -/
abbrev FMap (α : Type) := List (Nat × α)

end Sys2Proof
end

