-- ==== Sys2Proof/Syntax.lean ====
section
/-!
DEFINITION. The commands of the CFB1280: one constructor of `Instr` for each row of spec/opcode_table.json.

A command is a write that software makes, a queue entry that arrives at validation, or an event that comes about in
the device or at its pins. A command carries as operands what the outside world decides about it (who writes, which
unit, what a sink answers, what a physical fault disturbs); everything else is read from the state.
-/
namespace Sys2Proof

/-- How a read of memory, by any master, came back (R218, R239, R249, R194). -/
inductive Resp where
  /-- The response arrived with the data as memory holds it. -/
  | ok
  /-- The request completed with error status, or its atom was marked uncorrectable. -/
  | error
  deriving DecidableEq, Repr

/-- What a check of a Crucible group found (R300). -/
inductive EccFinding where
  | clean
  | single
  | uncorrectable
  deriving DecidableEq, Repr

/-- A word of a pipe's local table memories: a CLUT entry, a coefficient, an input colour slot word or an output LUT entry. -/
inductive LocalWord where
  | clut (i : Nat)
  | coef (i : Nat)
  | ics (i : Nat)
  | lut (k : Nat)
  deriving DecidableEq, Repr

/-- Who read a Crucible group (the consumers of R300). -/
inductive CruConsumer where
  /-- A port reading scan-buffer line `line` of a canvas. -/
  | scanLine (c : CanvasNo) (line : Nat)
  /-- The composer reading a window entry. -/
  | windowEntry (i : Fin 32768)
  /-- The composer reading a surface entry. -/
  | surfaceEntry (j : Fin 16384)
  /-- The staging of the transaction at the head of admission. -/
  | staging
  /-- The staging of an admitted transaction, found at its latch point on a canvas. -/
  | stagingAtLatch (c : CanvasNo)
  /-- A witness region's entry. -/
  | witness (r : RegionNo)
  /-- A master reading through the Crucible window. -/
  | window
  /-- A local memory of a compose pipe: a word of its tables, or none for its line stores and fetch queues. -/
  | localMem (word : Option LocalWord)
  deriving DecidableEq, Repr

/-- One 64-bit group of the Crucible: its macro, row and the group within the row (R294). -/
structure CruGroup where
  mac : Fin 1536
  row : Fin 512
  grp : Fin 16
  deriving DecidableEq, Repr

/-- The monitored condition of a serializer quad (R184). -/
inductive QuadFault where
  | pllUnlock
  | laneCurrent (lane : Fin 4)
  | fifoSlip
  /-- The PLL locks again. -/
  | pllLock
  /-- The driver current of a lane is within its limits again. -/
  | laneRight (lane : Fin 4)
  deriving DecidableEq, Repr

/-- What a sink and its LTTPRs report over AUX (R171): bit *r* of a set of rates stands for rate code *r* of R169. -/
structure SinkCaps where
  rates : BitVec 7
  /-- log2 of the lane count offered: 0, 1 or 2. -/
  maxLanes : Fin 3
  lttprs : Fin 9
  /-- The rates that every LTTPR offers. -/
  lttprRates : BitVec 7
  lttprLanes : Fin 3
  vscSdp : Bool
  dsc : Bool
  deriving DecidableEq, Repr

/-- An AUX reply (R176). -/
inductive AuxAnswer where
  | ack (bytes : List Byte)
  | nack
  | defer
  deriving DecidableEq, Repr

/-- The settings of one byte lane (R281). -/
structure LaneSet where
  rdDly : BitVec 7
  wrDly : BitVec 7
  thrLo : BitVec 6
  thrHi : BitVec 6
  deriving DecidableEq, Repr

/-- The trial values at which a lane passed in the sweeps of start-up training, in their order: both thresholds at mid
delay, the read delay, both thresholds again, and the write delay. Bit *v* says that 256 pattern bursts were received at
value *v* with no bit error (R282). -/
structure LanePasses where
  lo1 : BitVec 64
  hi1 : BitVec 64
  rd : BitVec 128
  lo2 : BitVec 64
  hi2 : BitVec 64
  wr : BitVec 128
  deriving DecidableEq, Repr

/-- The memory timing that training arrives at, as `MCT_REF` holds it (R273): the per-bank refresh time and the refresh slot
interval in ns. -/
structure MemTiming where
  rfc : BitVec 10
  int : BitVec 10
  deriving DecidableEq, Repr

/-- The header of a firmware image that authenticates: its version, length in bytes and boot configuration (R356). -/
structure ImageHeader where
  version : Word
  length : Nat
  pinRate : Nat
  cclk : Nat
  hash : List (BitVec 40)
  deriving DecidableEq, Repr

/-- An image slot of the flash: the generation of its header, and its image where that authenticates (R356). -/
structure Slot where
  generation : Word := 0
  image : Option ImageHeader := none
  deriving DecidableEq, Repr

/-- What the world shows Faruo at one tick (R353, R359): the core time that its tiers take in µs, the temperature of
each of the sixteen sensors in Q12.4 °C, the voltage of each of the eight rails in mV, how many log entries tier 2 has
time to export, and whether the flash reports a program error. -/
structure TickInput where
  tier0Us : Nat
  tier1Us : Nat
  tier2Us : Nat
  temps : List Int
  rails : List Nat
  exports : Nat
  flashError : Bool
  deriving DecidableEq, Repr

/-- A request on the internal fabric to GDDR7 (R265, R271): its master, its class 1 to 4, its byte address, its length,
and, for a write, the bytes. -/
structure MemReq where
  mid : Fin 128
  cls : Fin 5
  addr : Quad
  len : Nat
  data : Option (List Byte)
  tag : Nat
  deriving DecidableEq, Repr

/-- What a site's shadow sampler received from a burst at one delay and pair of thresholds: its byte in each of the sixteen
beats (R285). -/
structure ShadowSample where
  site : Nat
  dly : Nat
  lo : Nat
  hi : Nat
  bytes : List Byte
  deriving DecidableEq, Repr

/-- How a burst arrives: the positions and beats whose link check failed, the bits by which the symbol of a position in a
beat differs from the one stored, and what the shadow samplers received. A sampler with no sample at its setting received
what the main sampler did (R262, R269, R285). -/
structure BurstInput where
  linkFail : List (Nat × Nat) := []
  flips : List (Nat × Nat × Byte) := []
  shadow : List ShadowSample := []
  deriving DecidableEq, Repr

/-- What a write probe meets: how its save arrives, whether a class 1 request came before its write, and by site the bits
of the read-back that differ from the pattern; `spare` is that number for the shadow sampler of an idle spare (R287). -/
structure ProbeInput where
  save : BurstInput := {}
  cut : Bool := false
  diffs : List (Nat × Nat) := []
  spare : Nat := 0
  deriving DecidableEq, Repr

/-- A piece of a Gather unit's fetch (R101, R104): for window `win`, the atom at an address or a Frit tile with its header. -/
inductive GatherPiece where
  | atom (win addr : Nat)
  | tile (win tx ty : Nat)
  deriving DecidableEq, Repr

/-- The commands, one constructor for each row of the opcode table, in the table's order. -/
inductive Instr where
  -- register pages
  | registerWrite (m : Fn) (off : Offset) (size : Nat) (data : Quad)
  | aliasWrite (m : Fn) (off : Offset) (data : Word)
  | pageKey (m : Fn) (page : PageNo) (key : Word)
  | pageStageHold (m : Fn) (page : PageNo) (hold : Bool)
  | stagedApplyIdle (page : PageNo)
  | snapReq (m : Fn) (page : PageNo) (group : BitVec 8)
  | blockReset (m : Fn) (page : PageNo)
  -- queue entries arriving at validation
  | sceneBegin (q : QueueNo)
  | windowSet (q : QueueNo)
  | windowClear (q : QueueNo)
  | surfaceSet (q : QueueNo)
  | canvasSet (q : QueueNo)
  | commit (q : QueueNo)
  | note (q : QueueNo)
  | nop (q : QueueNo)
  | reservedOpcode (q : QueueNo)
  | dmaKick (q : QueueNo)
  | crcScan (q : QueueNo)
  | waitEvent (q : QueueNo)
  | waitTimeout (q : QueueNo)
  -- queue mechanics
  | doorbell (m : Fn) (q : QueueNo)
  | ringFetchComplete (q : QueueNo) (slots : Nat) (r : Resp)
  | ringReadTimeout (q : QueueNo)
  | arbitrationRound
  | queueEnable (m : Fn) (q : QueueNo)
  | queueDisable (m : Fn) (q : QueueNo)
  | queueDrainComplete (q : QueueNo)
  | noticeRingEnable (m : Fn) (f : Fn)
  | cqeNhead (m : Fn) (f : Fn) (head : Word)
  | interruptModerationEnd (f : Fn)
  -- ledger
  | commitPoint
  | reevaluation
  | ldgReeval (m : Fn)
  | ldgDerateWrite (m : Fn) (frCyc : BitVec 16)
  -- frames and bands
  | frameStart (c : CanvasNo)
  | bandRelease (c : CanvasNo)
  | gatherEscalation (p : PipeNo)
  | bandFetchStart (p : PipeNo)
  | bandDeal (p : PipeNo)
  | lineWrite (p : PipeNo) (err : Word)
  | bandComplete (p : PipeNo)
  | understudyBandCompare (u : PipeNo) (err : Word)
  | rerunComplete (p : PipeNo) (err : Word)
  | rotationStep
  | pipeWatchdog (p : PipeNo)
  | takeoverRestart (p : PipeNo)
  | cmpRoleRequest (m : Fn) (p : PipeNo) (req : BitVec 2)
  | parisonFrameComplete (c : CanvasNo)
  | lineDue (c : CanvasNo)
  | activeVideoEnd (c : CanvasNo)
  -- canvases
  | canvasEnable (m : Fn) (c : CanvasNo)
  | canvasDisable (m : Fn) (c : CanvasNo)
  | canvasDrainComplete (c : CanvasNo)
  | relinkSettled (c : CanvasNo)
  | generatorStart (c : CanvasNo)
  | genlockEdge (rising : Bool)
  | fsyncInEdge (rising : Bool)
  | lockReferenceMissing (c : CanvasNo)
  | fsyncOutEnd
  -- ports
  | portEnable (m : Fn) (n : PortNo)
  | portDisable (m : Fn) (n : PortNo)
  | portDrainComplete (n : PortNo)
  | retrain (m : Fn) (n : PortNo)
  | portFrel (m : Fn) (n : PortNo)
  | swap (m : Fn) (n : PortNo)
  | hpdRise (n : PortNo)
  | hpdFall (n : PortNo)
  | hpdLoss (n : PortNo)
  | hpdDebounced (n : PortNo)
  | linkStatusRead (n : PortNo) (loss : Bool)
  | standbyStatusPoll (n : PortNo)
  | trainingCandidateDone (n : PortNo) (ok : Bool)
  | trainingRetry (n : PortNo)
  | portQuadFault (n : PortNo) (k : QuadFault)
  | dptAuxGo (m : Fn) (n : PortNo) (cmd : Word)
  | auxReply (n : PortNo) (a : AuxAnswer)
  | auxTimeout (n : PortNo)
  -- table loads
  | gthClutDataWrite (m : Fn) (data : Word)
  | gthCoefDataWrite (m : Fn) (data : Word)
  | cspIcsDataWrite (m : Fn) (data : Word)
  | cspLutDataWrite (m : Fn) (c : CanvasNo) (data : Word)
  | cspLutDataRead (m : Fn) (c : CanvasNo) (byte : Fin 4) (size : Nat)
  | gatherResponse (g : UnitNo) (piece : GatherPiece) (lost : List Nat)
  -- DMA
  | channelEnable (m : Fn) (ch : ChanNo)
  | channelDisable (m : Fn) (ch : ChanNo)
  | dmaDrainComplete (ch : ChanNo)
  | kick (m : Fn) (ch : ChanNo)
  | dmaFrel (m : Fn) (ch : ChanNo)
  | descriptorFetch (ch : ChanNo) (r : Resp)
  | encoderAcquire (ch : ChanNo)
  | dmaResponse (ch : ChanNo) (r : Resp)
  | dmaTimeout (ch : ChanNo) (write : Bool)
  | descriptorComplete (ch : ChanNo)
  | jobEnd (ch : ChanNo)
  | dmaFlip (ch : ChanNo)
  | timerTick (t : TimerNo)
  | timerEnable (m : Fn) (t : TimerNo) (ctl : Word)
  | timerPeriodWrite (m : Fn) (t : TimerNo) (ns : Word)
  -- Marver
  | mrvStart (m : Fn)
  | mrvAbort (m : Fn)
  | mrvRowComplete
  | gateRelease
  | mrvStarved
  | mrvResponse (r : Resp)
  | mrvTimeout
  -- check-value units and witness regions
  | cvuEnable (m : Fn) (e : EngineNo)
  | cvuDisable (m : Fn) (e : EngineNo)
  | cvuDrainComplete (e : EngineNo)
  | cvuStart (m : Fn) (e : EngineNo)
  | cvuStop (m : Fn) (e : EngineNo)
  | cvuFrel (m : Fn) (e : EngineNo)
  | scanResponse (e : EngineNo) (r : Resp)
  | scanTimeout (e : EngineNo)
  | scanEnd (e : EngineNo)
  | cvuEngineParity (e : EngineNo)
  | witnessWrite (m : Fn) (r : RegionNo) (word : Fin 16) (data : Word)
  -- memory
  | memoryRequest (req : MemReq)
  | atomReadReturn (g : GangNo) (burst : BurstInput)
  | refreshSlot (g : GangNo)
  | extraRefresh (g : GangNo) (b : BankNo)
  | writeProbe (g : GangNo) (probe : ProbeInput)
  | readWindowEnd (l : LaneNo) (right : Bool)
  | mctSiteFence (m : Fn) (s : SiteNo)
  | rebuildStart
  | rebuildCopy (burst : BurstInput)
  | laneRetrain (m : Fn) (l : LaneNo)
  | retrainReadDone (l : LaneNo)
  | retrainWriteDone (l : LaneNo)
  -- Crucible
  | crucibleRead (g : CruGroup) (f : EccFinding) (who : CruConsumer)
  | scrubRead (f : EccFinding)
  | rowSpare (mac : Fin 1536) (row : Fin 512)
  -- access control
  | accSelWrite (m : Fn) (data : Word)
  | accData3Commit (m : Fn) (data : Word)
  | lock (m : Fn)
  -- faults
  | faultArrival
  | logEntryWrite
  | coalWindowEnd
  | stickyClear (m : Fn) (word : Fin 32) (bits : Word)
  | logRdSeq (m : Fn) (seq : Word)
  -- Faruo
  | faruoTick (i : TickInput)
  | serviceWatchdog
  | activationWatchdog
  | getVersion (flashError : Bool)
  | getSensor
  | setThresh
  | fwStage (image : Option ImageHeader) (flashError : Bool)
  | fwActivate (flashError : Bool)
  | logExport
  | getStatus
  -- clocks and timebase
  | cclkChange (m : Fn) (mhz : BitVec 11)
  | cclkStep
  | pllLocked (k : PllNo)
  | ppsEdge (rising : Bool)
  | ppsLost
  | tmbLoad (m : Fn)
  -- resets and start-up
  | coldReset
  | resetNRise (clocksStable : Bool) (straps : BitVec 2)
  | bootAuthentication (slot0 slot1 : Option Slot)
  | bistComplete (failing : List (Fin 1536 × Fin 512))
  | memoryTrainingComplete (lanes : List LanePasses) (timing : MemTiming)
  | deviceReady
  | hotReset
  | warm (m : Fn)
  | pfFunctionLevelReset
  | warmResetComplete
  | functionLevelReset (v : Fn)
  | flrWindowClear (v : Fn)
  | msixUnmask (m : Fn) (vec : Fin 64)
  -- SMBus and the test access port
  | smbusReadByte (code : Byte)
  | smbusWrite (code : Byte) (data : Byte)
  | tapReset
  | bypass
  | idcode
  | samplePreload (preload : List Bool)
  | extest
  | extestPulse
  | extestTrain
  | clamp
  | highz
  -- the rows at the table's end
  | waitTimebaseReached (q : QueueNo)
  | commandSlot (g : GangNo)
  | pllUnlock (k : PllNo)
  | hostLinkChange (gen : Fin 7) (width : Fin 17)
  | configurationRequest (f : Fn) (reg : BitVec 12)
  | sinkCapabilitiesRead (n : PortNo) (caps : SinkCaps)
  deriving DecidableEq, Repr

end Sys2Proof
end

