-- ==== Sys2Proof/WellFormed.lean ====
section
/-!
DEFINITION. Which commands are well formed: sizes, list lengths and ranges that the types of the operands leave open.

`exec` does not depend on these checks; they say which commands the outside world can send.
-/
namespace Sys2Proof

/-- A register access of 1, 2, 4 or 8 bytes, aligned to its size, with data of that size (R320). -/
def accessWf (off : Offset) (size : Nat) (data : Quad) : Bool :=
  (size = 1 || size = 2 || size = 4 || size = 8) && off.toNat % size = 0 && decide (data.toNat < 2 ^ (8 * size))

/-- An alias write addresses the set, clear or toggle copy of a register of its page (R319, R323). -/
def aliasWf (off : Offset) : Bool := off.toNat % 4 = 0 && decide (0x1000 ≤ off.toNat % 0x4000)

/-- The boot configuration of an image: a pin rate that the controller runs (R386), a compose clock that `CKR_CCLK` can
hold (R367), and the six hash masks; and an image of 1 byte to 8 MiB (R356). -/
def ImageHeader.wf (h : ImageHeader) : Bool :=
  h.hash.length = 6 && [28, 32, 36, 40].contains h.pinRate && decide (800 ≤ h.cclk) && decide (h.cclk ≤ 1600) &&
  h.cclk % 50 = 0 && decide (1 ≤ h.length) && decide (h.length ≤ 0x800000)

/-- The image of a slot, where it authenticates, is well formed. -/
def Slot.wf (x : Slot) : Bool := x.image.all ImageHeader.wf

/-- The class of a request follows from its master: 4 for Marver, 1 or 2 for the composer's fetches, 2 for the controller's
own traffic, and 3 for functions, Faruo, the Parison writer and Lehr; no request carries another ID (R271, R291, R305). -/
def MemReq.classWf (r : MemReq) : Bool :=
  if r.mid.val = 65 then r.cls.val = 4
  else if r.mid.val = 68 then r.cls.val = 1 || r.cls.val = 2
  else if r.mid.val = 69 then r.cls.val = 2
  else decide (r.mid.val < 70) && r.cls.val = 3

/-- A memory request: the class of its master, at least one byte, within one atom, with the data of a write (R265). -/
def MemReq.wf (r : MemReq) : Bool :=
  r.classWf && decide (1 ≤ r.len) && decide (r.addr.toNat % 256 + r.len ≤ 256) &&
  (match r.data with | some bs => bs.length = r.len | none => true)

/-- A timing that `MCT_REF` can hold (R273). -/
def MemTiming.wf (t : MemTiming) : Bool :=
  decide (100 ≤ t.rfc.toNat) && decide (t.rfc.toNat ≤ 1000) && decide (50 ≤ t.int.toNat) && decide (t.int.toNat ≤ 1000)

/-- A read of a register from one of its bytes on: of 1, 2, 4 or 8 bytes, aligned to its size within the word (R320). -/
def readWf (byte : Fin 4) (size : Nat) : Bool :=
  size = 1 || size = 2 && byte.val % 2 = 0 || (size = 4 || size = 8) && byte.val = 0

/-- A request of Faruo's tick measures sixteen sensors and eight rails (R359). -/
def TickInput.wf (i : TickInput) : Bool := i.temps.length = 16 && i.rails.length = 8

/-- Failed link checks name one of the seventeen positions and a beat of the burst (R262, R269). -/
def linkFailWf (l : List (Nat × Nat)) : Bool := l.all fun e => decide (e.1 < 17) && decide (e.2 < 16)

/-- A burst that arrives names positions, beats and sites that exist, and a sample has a byte for each beat (R262, R285). -/
def BurstInput.wf (b : BurstInput) : Bool :=
  linkFailWf b.linkFail && (b.flips.all fun e => decide (e.1 < 17) && decide (e.2.1 < 16)) &&
    b.shadow.all fun e => decide (e.site < 18) && e.bytes.length = 16

/-- The differences of a probe name a site and at most the 128 bits that its lane carries (R287). -/
def diffsWf (l : List (Nat × Nat)) : Bool := l.all fun e => decide (e.1 < 18) && decide (e.2 ≤ 128)

/-- Whether a command is well formed. -/
def Instr.wf : Instr → Bool
  | .registerWrite _ off size data => accessWf off size data
  | .aliasWrite _ off _ => aliasWf off
  | .ringFetchComplete _ slots _ => decide (1 ≤ slots) && decide (slots ≤ 64)
  | .auxReply _ (.ack bytes) => decide (bytes.length ≤ 16)
  | .memoryRequest req => req.wf
  | .atomReadReturn _ burst => burst.wf
  | .rebuildCopy burst => burst.wf
  | .writeProbe _ probe => probe.save.wf && diffsWf probe.diffs && decide (probe.spare ≤ 128)
  | .faruoTick i => i.wf
  | .fwStage (some h) _ => h.wf
  | .bootAuthentication s0 s1 => s0.all Slot.wf && s1.all Slot.wf
  | .bistComplete failing => decide failing.Nodup
  | .memoryTrainingComplete lanes timing => lanes.length = 72 && timing.wf
  | .cspLutDataRead _ _ byte size => readWf byte size
  | .configurationRequest _ reg => reg.toNat % 4 = 0
  | _ => true

end Sys2Proof
end

