-- ==== Sys2Proof/Decode.lean ====
section
/-!
DEFINITION. Reading a command from a table word.

The opcode table gives no bits to any row: the device's commands are register writes, queue entries and events, which
no single word spells. So no word spells a command.
-/
namespace Sys2Proof

/-- The command that a word of `nbits` bits spells by the opcode table's bits: none, since no row has bits. -/
def decodeTableWord (nbits w : Nat) : Option Instr :=
  match nbits, w with
  | _, _ => none

end Sys2Proof
end

