-- ==== Sys2Proof/Config.lean ====
section
/-!
DEFINITION. What an implementation fixes and what the specification leaves open.

A value the specification leaves open is an opaque constant with no body: nothing can be proved of it beyond its type.
-/
namespace Sys2Proof.Config

/-- How far a transmitted code lies from exact arithmetic: 0, 1 or 2 stands for −1, 0 or +1 (R123 bounds it by 1), for a
`DPT_FMT` encoding, a component and a scan-buffer word (DESIGN CHOICE, notes/assumptions/15.md). -/
opaque codeSlip (fmt : Word) (comp : Nat) (w : Word) : Fin 3

/-- What `DPT_LCRC` takes when `DPT_LCRC_SEL.LINE` names no active line, which R183 leaves open, for that line number and
the CRC of the frame (DESIGN CHOICE, notes/assumptions/15.md). -/
opaque lineCrcBeyond (line : Nat) (frame : Word) : Word

/-- The compose pipe that owns a local macro of the Crucible: its line stores, fetch queues, LUTs or coefficient stores. R301
fences the owner of a macro beyond repair, and no rule says which unit owns which macro (DESIGN CHOICE,
notes/assumptions/19.md). -/
opaque macroOwner (mac : Nat) : Fin 14

/-- A response word of the mailbox that an answer does not name: R361 gives it no value. It depends on the opcode, the word
and the time of the answer (DESIGN CHOICE, notes/assumptions/15.md). -/
opaque openResponse (op word now : Nat) : Word

/-- The bytes of a double word of a function's PCIe configuration space that the specification gives no value: it states the
Revision ID alone (R2; DESIGN CHOICE, notes/assumptions/15.md). -/
opaque cfgSpace (fn reg : Nat) : Word

/-- What the boundary-scan register captures at the pins at a time: the specification names no boundary cells (R391; DESIGN
CHOICE, notes/assumptions/15.md). -/
opaque boundarySample (now : Nat) : List Bool

/-- How many staging blocks above the minimum are lent to the transaction that a queue opens with an ID at a time: this plus one.
R299 lends staging a transaction at a time and does not say how much; 97 blocks hold any transaction (R296; DESIGN CHOICE,
notes/assumptions/10.md). -/
opaque stagingLoan (q id now : Nat) : Fin 97

end Sys2Proof.Config
end

