-- ==== Sys2Proof/Machine/Bits.lean ====
section
/-!
DEFINITION. Finite tables, bit fields, byte order and whole-number helpers that the device's rules use.
-/
namespace Sys2Proof.Machine

/-! ## Finite tables -/

/-- The value of key `k`, the default of that key where the table does not list it. -/
def FMap.get {α : Type} (d : Nat → α) (m : FMap α) (k : Nat) : α :=
  match m.find? (fun e => e.1 == k) with
  | some e => e.2
  | none => d k

/-- Put an entry into a list sorted by key, before the first larger key. -/
def FMap.insert {α : Type} (k : Nat) (v : α) : FMap α → FMap α
  | [] => [(k, v)]
  | e :: es => if k < e.1 then (k, v) :: e :: es else e :: FMap.insert k v es

/-- The table without key `k`. -/
def FMap.erase {α : Type} (m : FMap α) (k : Nat) : FMap α :=
  m.filter (fun e => e.1 != k)

/-- The table with `v` at key `k`; a value equal to the key's default is not listed. -/
def FMap.put {α : Type} [DecidableEq α] (d : Nat → α) (m : FMap α) (k : Nat) (v : α) : FMap α :=
  if v = d k then FMap.erase m k else FMap.insert k v (FMap.erase m k)

/-- The canonical form: keys strictly rise and no entry equals its key's default. -/
def FMap.wf {α : Type} [DecidableEq α] (d : Nat → α) : FMap α → Bool
  | [] => true
  | e :: es => (es.all fun x => decide (e.1 < x.1)) && decide (e.2 ≠ d e.1) && FMap.wf d es

/-! ## Bit fields -/

/-- Bits [hi:lo] of a word, as a number. -/
def bits (w : Word) (hi lo : Nat) : Nat :=
  (w.toNat >>> lo) % 2 ^ (hi + 1 - lo)

/-- Bit n of a word. -/
def bit (w : Word) (n : Nat) : Bool :=
  w.getLsbD n

/-- The word whose bits [hi:lo] hold `v` and whose other bits are 0. -/
def place (hi lo v : Nat) : Word :=
  BitVec.ofNat 32 ((v % 2 ^ (hi + 1 - lo)) <<< lo)

/-- A single bit in place. -/
def flag (n : Nat) (b : Bool) : Word :=
  if b then BitVec.ofNat 32 (1 <<< n) else 0

/-- The mask of bits [hi:lo]. -/
def maskOf (hi lo : Nat) : Word :=
  BitVec.ofNat 32 ((2 ^ (hi + 1 - lo) - 1) <<< lo)

/-- The low and the high word of a 64-bit value. -/
def lo32 (q : Quad) : Word := q.setWidth 32
/-- The high word of a 64-bit value. -/
def hi32 (q : Quad) : Word := (q >>> 32).setWidth 32

/-- A 64-bit value from its low and its high word. -/
def quad (lo hi : Word) : Quad := (hi.setWidth 64 <<< 32) ||| lo.setWidth 64

/-- A signed number in `n` bits, two's complement. -/
def ofInt (n : Nat) (i : Int) : BitVec n := BitVec.ofInt n i

/-! ## Whole numbers -/

/-- ⌈a / b⌉. -/
def ceilDiv (a b : Nat) : Nat := (a + b - 1) / b

/-- `n` rounded up to a multiple of `m`. -/
def roundUp (n m : Nat) : Nat := ceilDiv n m * m

/-- A signed number kept within ±`lim`. -/
def clampAbs (lim i : Int) : Int := max (-lim) (min lim i)

/-- The rotation of a list that starts after position `n`. -/
def rotated {α : Type} (n : Nat) (l : List α) : List α := l.drop n ++ l.take n

/-! ## Byte order -/

/-- The little-endian value of a list of bytes. -/
def leNat : List Byte → Nat
  | [] => 0
  | b :: bs => b.toNat + 256 * leNat bs

/-- The `n` low bytes of a value, least significant first. -/
def leBytes : Nat → Nat → List Byte
  | 0, _ => []
  | n + 1, v => BitVec.ofNat 8 v :: leBytes n (v / 256)

/-- The little-endian bytes of words. -/
def wordsBytes (ws : List Word) : List Byte := ws.flatMap fun w => leBytes 4 w.toNat

/-- Word `i` of a list, 0 beyond its end. -/
def wordAt (ws : List Word) (i : Nat) : Word := ws.getD i 0

/-- Words from the first `n` little-endian groups of four bytes. -/
def bytesWords : Nat → List Byte → List Word
  | 0, _ => []
  | n + 1, bs => BitVec.ofNat 32 (leNat (bs.take 4)) :: bytesWords n (bs.drop 4)

/-- Reverse the low `w` bits of a number. -/
def reflect : Nat → Nat → Nat
  | 0, _ => 0
  | w + 1, v => (v % 2) * 2 ^ w + reflect w (v / 2)

end Sys2Proof.Machine
end

