-- ==== Sys2Proof/Machine/State.lean ====
section
/-!
DEFINITION. The state of the CFB1280 as plain data, and the state after a cold reset.

Every repeated unit is a finite table that lists only the units that differ from their reset state, so `State.reset` is
small and equal states are equal data. Configuration registers live in one register file keyed by BAR0 offset; status
registers are computed from the units' own fields when they are read.
-/
namespace Sys2Proof.Machine

/-- Why the machine stops with a fault. -/
inductive Fault where
  /-- Raised by RESET_N_RISE when `RESET_N` rises before the reference clocks have run within specification for 1 ms:
  R377 says that start-up is then not defined. Safe: the model stops where the manual gives no behaviour. -/
  | startUpUndefined
  deriving DecidableEq, Repr

/-- Why a command has no meaning. -/
inductive Refusal where
  /-- Raised only by an arm of `exec` whose command has no meaning yet. Safe: nothing is proved of such a command. -/
  | notModelled (mnemonic : String)
  deriving DecidableEq, Repr

/-! ## Scene tables and transactions -/

/-- A window image: the fields of R41 that software writes. -/
structure WinImg where
  vcoef : BitVec 5 := 0
  hcoef : BitVec 5 := 0
  cscEn : Bool := false
  csc : BitVec 6 := 0
  miry : Bool := false
  mirx : Bool := false
  rot : BitVec 2 := 0
  latch : Bool := false
  blend : BitVec 3 := 0
  wall : BitVec 3 := 0
  valid : Bool := false
  galpha : BitVec 16 := 0
  z : BitVec 16 := 0
  surf : BitVec 14 := 0
  dstX : Word := 0
  dstY : Word := 0
  dstH : BitVec 16 := 0
  dstW : BitVec 16 := 0
  srcX : BitVec 18 := 0
  srcY : BitVec 18 := 0
  srcW : BitVec 19 := 0
  srcH : BitVec 19 := 0
  key : BitVec 30 := 0
  keyMask : BitVec 30 := 0
  deriving DecidableEq, Repr

/-- A surface image: the fields of R43 that software writes. -/
structure SurfImg where
  clut : BitVec 6 := 0
  layout : BitVec 2 := 0
  fmt : BitVec 4 := 0
  valid : Bool := false
  height : BitVec 16 := 0
  width : BitVec 16 := 0
  addr0 : Quad := 0
  pitch0 : BitVec 24 := 0
  addr1 : Quad := 0
  pitch1 : BitVec 24 := 0
  deriving DecidableEq, Repr

/-- A scene-table entry: its image and the device-written `SEQ` and `TXN` (R40, R41). -/
structure WinEnt where
  img : WinImg := {}
  seq : BitVec 16 := 0
  txn : BitVec 16 := 0
  deriving DecidableEq, Repr

/-- A surface-table entry (R40, R43). -/
structure SurfEnt where
  img : SurfImg := {}
  seq : BitVec 16 := 0
  txn : BitVec 16 := 0
  deriving DecidableEq, Repr

/-- The values a `CANVAS_SET` entry gives a canvas (R48, R191). -/
structure CanvasVals where
  wall : BitVec 3 := 0
  x0 : Word := 0
  y0 : Word := 0
  bg : BitVec 30 := 0
  deriving DecidableEq, Repr

/-- What one entry of a transaction changes (R48). -/
inductive TxnOp where
  | window (i : Nat) (img : WinImg)
  | surface (j : Nat) (img : SurfImg)
  | canvas (c : Nat) (v : CanvasVals)
  deriving DecidableEq, Repr

/-- One staged entry of a transaction and its slot offset from `SCENE_BEGIN` (R62). -/
structure TxnEntry where
  slot : Nat
  op : TxnOp
  deriving DecidableEq, Repr

/-- An open or committed transaction: the queue it came from (none when register-originated), its owner, epoch and
ID, its staged entries oldest first, the ring offset its entries have reached, and the staging blocks lent to it. -/
structure Txn where
  queue : Option Nat := none
  grp : Nat := 0
  owner : Nat := 0
  epoch : BitVec 8 := 0
  id : BitVec 16 := 0
  entries : List TxnEntry := []
  slots : Nat := 0
  lent : Nat := 0
  ecc : Bool := false
  deriving DecidableEq, Repr

/-- A request waiting for its commit point (R54, R63, R80, R226, R375). -/
inductive AdmReq where
  /-- A queued transaction whose `COMMIT` has arrived. -/
  | txn (t : Txn)
  /-- A register-originated change: the staged set of canvas page `c`, as (page offset, word) pairs. -/
  | regs (c : Nat) (set : List (Nat × Word))
  /-- A canvas enable. -/
  | enable (c : Nat)
  /-- A re-evaluation and its cause (R79). -/
  | reeval (cause : Nat)
  /-- A flip that a DMA pulse asks for (R226). -/
  | flip (fn win a b : Nat)
  /-- A `WINDOW_CLEAR` transaction of a function-level reset and the staging blocks lent to it (R375). -/
  | clear (v : Nat) (wins : List Nat) (lent : Nat)
  deriving DecidableEq, Repr

/-- An admitted change that has not yet applied on every affected canvas (R56 to R59). `pend` names the canvases it
still waits on, of the canvases `aff` that it affects; `skip` the canvases on which it lets one more latch point pass first
(R57, R160); `done` says that it has completed. -/
structure Admitted where
  no : Nat := 0
  queue : Option Nat := none
  grp : Nat := 0
  owner : Nat := 0
  epoch : BitVec 8 := 0
  id : BitVec 16 := 0
  reg : Bool := false
  flip : Bool := false
  quiet : Bool := false
  enable : Bool := false
  wins : List (Nat × WinImg) := []
  surfs : List (Nat × SurfImg) := []
  canv : List (Nat × CanvasVals) := []
  regs : List (Nat × Word) := []
  aff : List Nat := []
  pend : List Nat := []
  skip : List (Nat × Nat) := []
  applied : Nat := 0
  first : Option Quad := none
  last : Option Quad := none
  commitTb : Quad := 0
  lent : Nat := 0
  slots : Nat := 0
  flrOf : Option Nat := none
  done : Bool := false
  deriving DecidableEq, Repr

/-! ## Queues and notice rings -/

/-- `CQE_STAT.STATE` (R203). -/
inductive QState where
  | off | running | halted | draining
  deriving DecidableEq, Repr

/-- A waiting `WAIT_EVENT` (R200): `count` edges are still to come, `since` is when it began. -/
structure Wait where
  event : Nat := 0
  index : Nat := 0
  count : Nat := 1
  time : Quad := 0
  timeoutUs : Nat := 0
  since : Nat := 0
  grp : Nat := 0
  deriving DecidableEq, Repr

/-- Why a queue is paused (R198). -/
inductive Pause where
  | txn | stage | unit
  | wait (w : Wait)
  deriving DecidableEq, Repr

/-- A consumed entry that the head has not passed: its slots, whether it has started (R204) and whether it is
complete, and the messages, by function and vector, that follow the head write-back that passes it (R224). Entries of one
transaction share `grp`. -/
structure QEntry where
  grp : Nat
  slots : Nat
  started : Bool := false
  done : Bool := false
  msgs : List (Nat × Nat) := []
  deriving DecidableEq, Repr

/-- One command queue. `buf` holds the ring words fetched from the consumer index onward, `heldWords` the words of the
entry that a pause holds, `arrived` the timebase at which its latest entry arrived at validation, `reading` the time at which
the ring read under way was issued, and `fail` the address and cause of a failed read of the slot after those in `buf`. -/
structure Queue where
  state : QState := .off
  en : Bool := false
  epoch : BitVec 8 := 0
  enPending : Bool := false
  cfgErr : Bool := false
  head : Nat := 0
  cidx : Nat := 0
  limit : Nat := 0
  dbPend : Bool := false
  reading : Option Nat := none
  fail : Option (Quad × Nat) := none
  buf : List Word := []
  txn : Option Txn := none
  discard : Bool := false
  outst : Nat := 0
  entries : List QEntry := []
  pause : Option Pause := none
  heldWords : List Word := []
  arrived : Quad := 0
  note : BitVec 16 := 0
  credit : Nat := 0
  hadTurn : Bool := false
  flr : Bool := false
  deriving DecidableEq, Repr

/-- The vsync request of one canvas in a ring (R210): frame starts counted, and the notice still unread. -/
structure VsReq where
  count : Nat := 0
  unread : Option Nat := none
  deriving DecidableEq, Repr

/-- One function's notice ring (R206 to R211). -/
structure NRing where
  en : Bool := false
  tail : Nat := 0
  head : Nat := 0
  lost : Word := 0
  nseq : BitVec 8 := 0
  nheadErr : Bool := false
  cfgErr : Bool := false
  lastMsg : Option Nat := none
  msgDue : Bool := false
  vsync : FMap VsReq := []
  deriving DecidableEq, Repr

/-- What the device sends to the host in PCIe order: a memory write, or an MSI-X message (R202, R211, R224). -/
inductive HostMsg where
  | write (addr : Quad) (words : List Word)
  | msix (fn vec : Nat)
  deriving DecidableEq, Repr

/-! ## Canvases, bands and pipes -/

/-- `CNV_LDG_STAT.MODE`. -/
inductive Mode where
  | direct | demoted | forced | disabled
  deriving DecidableEq, Repr

/-- `CNV_STAT.STATE` (R163). -/
inductive CState where
  | off | starting | running | relink | draining
  deriving DecidableEq, Repr

/-- `CNV_LOCK_STAT.LSTATE` (R157). -/
inductive LState where
  | none | acquiring | locked | holdover
  deriving DecidableEq, Repr

/-- The frame-lock state of a canvas (R155 to R157). `ref` is the latest reference event, `period` the last interval
between reference events; `trim` is the trim in thousandths of a ppm. -/
structure LockSt where
  lstate : LState := .none
  phase : Int := 0
  ok : Nat := 0
  bad : Nat := 0
  good : Nat := 0
  ref : Option Quad := none
  period : Option Nat := none
  trim : Int := 0
  acqDone : Bool := false
  stretch : Nat := 0
  deriving DecidableEq, Repr

/-- What the composer composes a canvas from: its viewport, background, output chain, dither phase and the windows that
show on it, each with its surface. -/
structure SceneSnap where
  wall : BitVec 3 := 0
  x0 : Word := 0
  y0 : Word := 0
  bg : BitVec 30 := 0
  ctl : Word := 0
  mat : List Word := []
  wins : List (Nat × WinImg × SurfImg) := []
  deriving DecidableEq, Repr

/-- The Parison buffers of a canvas (R74 to R76). `writing` is the buffer the writer fills and `left` the bands it has
still to complete; `ready` is a complete buffer not yet shown, `shown` the buffer last shown. `copied` says that the canvas
has copied the addresses and pitches of its two surfaces, on entering Parison mode (R74). -/
structure Parison where
  copied : Bool := false
  addr0 : Quad := 0
  pitch0 : Nat := 0
  addr1 : Quad := 0
  pitch1 : Nat := 0
  writing : Option Nat := none
  left : Nat := 0
  ready : Option Nat := none
  shown : Option Nat := none
  frame : Nat := 0
  /-- The band height and the scene of the frame being written, as its latch point left them. -/
  height : Nat := 0
  scene : SceneSnap := {}
  deriving DecidableEq, Repr

/-- Where the scan fill of a frame takes its lines (R75). -/
inductive FrameSrc where
  | direct
  | buffer (b : Nat)
  /-- A canvas enabled in Parison mode shows its background until its first Parison frame. -/
  | background
  deriving DecidableEq, Repr

/-- The raster that the frame being scanned out keeps: *W*, *H*, *H*ₜ, *V*ₜ and *D*, its nominal line period as `num` / `den`
nanoseconds, and the trim of *f*ₚ in parts per 10⁹ (R156). -/
structure Raster where
  w : Nat := 0
  h : Nat := 0
  ht : Nat := 0
  vt : Nat := 0
  d : Nat := 0
  num : Nat := 0
  den : Nat := 1
  trim : Int := 0
  deriving DecidableEq, Repr

/-- A mode change decided and not yet in effect (R75, R79): the mode, the cause and what its notice carries, and the
admitted change it applies with, if any. `reg` marks a change that a register-originated admission decided (R207). -/
structure ModeChange where
  mode : Mode
  cause : Nat
  reg : Bool := false
  queue : Nat := 0
  epoch : BitVec 8 := 0
  txn : BitVec 16 := 0
  withNo : Option Nat := none
  latched : Bool := false
  deriving DecidableEq, Repr

/-- The ledger's record of a canvas (R84). -/
structure LdgRec where
  seq : BitVec 16 := 0
  prio : BitVec 8 := 0x80
  mode : Mode := .disabled
  needMem : Nat := 0
  needPipe : Nat := 0
  res : Nat := 0
  fMax : Nat := 0
  cMax : Nat := 0
  bandF : Nat := 0
  bandC : Nat := 0
  dl : Nat := 0
  tbMode : Quad := 0
  txn : BitVec 16 := 0
  repeats : Word := 0
  deriving DecidableEq, Repr

/-- One canvas. `scanFrame` is the number of the frame being scanned out; `nextDue` is the next active line to fall
due, `started` whether the frame it belongs to has started; `scan` is the scan buffer, a line in each slot as (frame, line,
words), and `blocks` the blocks allocated for it.
`compFrame` and `nextBand` say which band is released next. `lines` are the words sent this frame, none for an absent
line. -/
structure Canvas where
  state : CState := .off
  en : Bool := false
  enPending : Bool := false
  timErr : Bool := false
  lockErr : Bool := false
  viewErr : Bool := false
  fsNow : Nat := 0
  fsTb : Quad := 0
  period : Nat := 0
  gen : Bool := false
  started : Bool := false
  scanFrame : Nat := 0
  nextDue : Nat := 0
  absentNow : Bool := false
  absentPrev : Bool := false
  compFrame : Nat := 0
  nextBand : Nat := 0
  relinkAt : Bool := false
  blocks : Nat := 0
  allocated : Bool := false
  scan : FMap (Option (Nat × Nat × List Word)) := []
  lines : List (Option (List Word)) := []
  lastWord : Word := 0
  mode : Mode := .disabled
  change : Option ModeChange := none
  src : FrameSrc := .direct
  nextSrc : FrameSrc := .direct
  par : Parison := {}
  /-- The scene that direct frames go on showing while the first Parison frame is composed (R75). -/
  old : Option SceneSnap := none
  raster : Raster := {}
  /-- The frames shown between the enable and the last end of STARTING: frame *f* is dithered as number `kBase` + *f*
  (R120). -/
  kBase : Nat := 0
  lock : LockSt := {}
  ldg : LdgRec := {}
  deriving DecidableEq, Repr

/-- A released band in the dealing queue (R128). `due` is its deadline in nanoseconds of device time. -/
structure Released where
  canvas : Nat
  frame : Nat
  band : Nat
  par : Bool := false
  due : Nat := 0
  /-- The latch point of the frame came before the band was dealt: at its release. -/
  latched : Bool := false
  deriving DecidableEq, Repr

/-- A band in a pipe's hand: what it composes, from which inputs, how far it has come. `wait` is set while the lines of
an interrupted band wait for their re-fetch (R142); `alive` is the time from which its watchdog counts (R140); `lost` lists the
atoms that its fetch could not use (R104). -/
structure Held where
  canvas : Nat := 0
  frame : Nat := 0
  band : Nat := 0
  par : Bool := false
  buf : Nat := 0
  width : Nat := 0
  firstLine : Nat := 0
  lineCount : Nat := 0
  nextLine : Nat := 0
  fetched : Bool := false
  urgent : Bool := false
  wait : Bool := false
  alive : Quad := 0
  scene : SceneSnap := {}
  /-- The canvas frame number that keys the dither (R118). -/
  dither : Nat := 0
  crcs : List (Nat × Word) := []
  lost : List Nat := []
  dead : Bool := false
  deriving DecidableEq, Repr

/-- A pipe's role (R126). -/
inductive Role where
  | active | spare | fenced
  deriving DecidableEq, Repr

/-- A band that an understudy shadows: the band, the lines that the inputs of the active pipe give (R134), and, once the
active pipe has finished it, that pipe's line CRCs. -/
structure Shadow where
  pipe : Nat
  held : Held
  lines : List (Nat × List Word) := []
  actCrcs : Option (List (Nat × Word)) := none
  deriving DecidableEq, Repr

/-- One compose pipe. `claimed` marks a spare that a takeover has claimed and that has not yet restarted its band, and
`reqHeld` a request that was written then and is still to be judged (R127). `fencedAt` is when the pipe was last fenced and
`idle` since when its watchdog counted then, with the detail of its firing (R139, R352). -/
structure Pipe where
  role : Role := .active
  cause : BitVec 2 := 0
  held : Option Held := none
  request : Option Role := none
  reqHeld : Bool := false
  reqErr : Bool := false
  claimed : Bool := false
  shadows : List Shadow := []
  fencedAt : Quad := 0
  idle : Option (Quad × BitVec 128) := none
  bands : Word := 0
  checks : Word := 0
  mismatch : Word := 0
  skip : Word := 0
  deriving DecidableEq, Repr

/-- A disagreement waiting for its re-run (R136): the shadow that did not match, its own line CRCs and lines, the
understudy, and the pipe that re-runs it. -/
structure Dispute where
  shadow : Shadow
  und : Nat
  undLines : List (Nat × List Word) := []
  undCrcs : List (Nat × Word) := []
  rerun : Option Nat := none
  /-- When the mismatch became known, and the finished shadow that the re-running spare dropped for it (R139). -/
  since : Quad := 0
  dropped : Option Shadow := none
  /-- From when the watchdog of the re-running spare counts, and the atoms that its fetch could not use (R104, R140). -/
  alive : Quad := 0
  lost : List Nat := []
  deriving DecidableEq, Repr

/-- The disagreement record of `CMP[0]` (R136). -/
structure MmRecord where
  valid : Bool := false
  outcome : BitVec 3 := 0
  act : BitVec 4 := 0
  und : BitVec 4 := 0
  rer : BitVec 4 := 0
  canvas : BitVec 7 := 0
  shown : BitVec 6 := 0
  fixed : BitVec 6 := 0
  line : BitVec 14 := 0
  crcA : Word := 0
  crcU : Word := 0
  crcR : Word := 0
  deriving DecidableEq, Repr

/-- One Gather unit (R86). `todo` lists the pieces of its fetch that have not arrived, in order. -/
structure Gather where
  busy : Bool := false
  win : Nat := 0
  todo : List GatherPiece := []
  fritErr : Word := 0
  poison : Word := 0
  urgent : Word := 0
  deriving DecidableEq, Repr

/-- The composer: the dealing queue, the pipes' rotation and the disagreements in hand. -/
structure Composer where
  pipes : FMap Pipe := []
  gather : FMap Gather := []
  deal : List Released := []
  /-- Interrupted bands returned to the head of the dealing queue (R145). -/
  resumed : List Held := []
  step : Nat := 0
  stepAt : Quad := 0
  disputes : List Dispute := []
  mm : MmRecord := {}
  /-- The last re-run that a takeover abandoned: the disagreement, when, and the record as it stood before (R139). -/
  abandoned : Option (Dispute × Quad × MmRecord) := none
  deriving DecidableEq, Repr

/-! ## Ports -/

/-- `DPT_STAT.STATE` (R185). -/
inductive PState where
  | off | noSink | training | idle | active | linkLost | fenced | draining
  deriving DecidableEq, Repr

/-- Where link training stands (R171 to R173). -/
inductive TrainStep where
  | none
  /-- The AUX read of the sink's and LTTPRs' capabilities is under way. -/
  | caps
  /-- A candidate (log2 of the lanes, rate code) is being tried; those behind it follow. -/
  | candidate (lanes rate : Nat) (rest : List (Nat × Nat))
  /-- The 10 ms wait before the next attempt, since `at`. -/
  | retryWait (since : Nat)
  deriving DecidableEq, Repr

/-- A software AUX transaction (R176). `since` is when the attempt under way began. -/
structure AuxSt where
  busy : Bool := false
  done : Bool := false
  reply : BitVec 2 := 0
  count : Nat := 0
  defers : Nat := 0
  since : Nat := 0
  /-- `DPT_AUX_CMD` as it was at `GO`. -/
  cmd : Word := 0
  deriving DecidableEq, Repr

/-- One port. `edgeAt` is the time of the last edge of the `HPD` pin, and `lossDone` says that the low interval in
progress is already declared a loss, or is none. -/
structure Port where
  state : PState := .off
  en : Bool := false
  enPending : Bool := false
  fenced : Bool := false
  capErr : Bool := false
  laneErr : Bool := false
  fmtErr : Bool := false
  dscErr : Bool := false
  hpdPin : Bool := false
  hpd : Bool := false
  edgeAt : Nat := 0
  lossDone : Bool := true
  lossCnt : BitVec 16 := 0
  irqCnt : BitVec 16 := 0
  step : TrainStep := .none
  attempts : Nat := 0
  fails : Nat := 0
  caps : Option SinkCaps := none
  rate : Nat := 0
  lanes : Nat := 0
  fec : Bool := false
  /-- The sink's link status is to be read, after an IRQ_HPD or at a poll (R175). -/
  statusDue : Bool := false
  pollAt : Nat := 0
  aux : AuxSt := {}
  /-- Video ends at the end of active line H − 1 and the port then retrains (R162, R185). -/
  relinkAt : Bool := false
  /-- The canvas whose frame in progress the port still sends after a change of `DPT_SRC` (R29). -/
  finishing : Option Nat := none
  /-- The encoding that takes effect at the next frame start or training (R125). -/
  fmtNext : Option Word := none
  /-- The standby of a cold pair (R32). -/
  standby : Bool := false
  /-- The trigger after which this port of a pair is not live or not ready: 1 quad, 2 HPD, 3 link (R33). -/
  failed : Nat := 0
  wasPaired : Bool := false
  swapAt : Bool := false
  /-- When the line that was in progress as the port left ACTIVE for DRAINING ends, in device time (R186). -/
  lineEnd : Nat := 0
  pllBad : Bool := false
  laneBad : BitVec 4 := 0
  slipAt : Option Nat := none
  undr : Word := 0
  lcrc : Word := 0
  fcrc : Word := 0
  frm : BitVec 8 := 0
  /-- The last active pixel sent since the canvas last left STARTING (R153). -/
  sent : Option Word := none
  deriving DecidableEq, Repr

/-! ## DMA, Marver and check-value units -/

/-- `DMA_CH_STAT.STATE` (R213). -/
inductive DState where
  | off | idle | running | halted | fenced | draining
  deriving DecidableEq, Repr

/-- A DMA descriptor (R214). -/
structure Desc where
  words : List Word := []
  deriving DecidableEq, Repr

/-- What a running channel does next: fetch a descriptor, wait for an encoder, move bytes, finish the descriptor, or
end the job. -/
inductive DmaStep where
  | fetch | encWait | move | descDone | jobDone
  deriving DecidableEq, Repr

/-- A start of a job (R220): an entry of a queue, with its group, its owner and its first descriptor; a register kick
with the function whose write it was; or a trigger. -/
inductive DmaStart where
  | queued (q grp mid : Nat) (desc : Quad)
  | kick (mid : Nat)
  | trigger
  deriving DecidableEq, Repr

/-- A job in hand: its master and the queue entry it completes, if any. -/
structure DmaJob where
  mid : Nat := 0
  entry : Option (Nat × Nat) := none
  deriving DecidableEq, Repr

/-- One DMA channel. `moved` counts the bytes, or with `ENC` the tiles, of the descriptor in progress; `cont` is `NEXT` of
the previous job's `LAST` descriptor, and `chained` says that a job of a register kick or trigger has run since the enable
(R221); `flips` holds the pulses whose flip is still to be asked for (R226); `kept` holds source bytes that an encoding
descriptor has overwritten before it reads them (R217); `due` says that the drain waits for a response (R227). -/
structure Chan where
  state : DState := .off
  en : Bool := false
  enPending : Bool := false
  pend : Option DmaStart := none
  job : Option DmaJob := none
  step : DmaStep := .fetch
  addr : Quad := 0
  desc : Desc := {}
  moved : Nat := 0
  hops : Nat := 0
  tag : BitVec 8 := 0
  encoder : Bool := false
  cont : Option Quad := none
  chained : Bool := false
  kept : List (Nat × Byte) := []
  due : Bool := false
  bytes : Quad := 0
  err : BitVec 8 := 0
  errHop : Nat := 0
  failAddr : Quad := 0
  issued : Nat := 0
  evt : BitVec 3 := 0
  jobs : Word := 0
  ovr : Word := 0
  flips : List (Nat × Nat × Nat × Nat) := []
  flr : Bool := false
  deriving DecidableEq, Repr

/-- One DMA timer (R222, R223). `base` is T₀ or the last tick of free mode. `series` holds the frames of the lock canvas
`canvas` whose ticks are still to come, oldest first: *E*_f and the `PER` in effect for it; `k` counts the ticks issued
of the first. -/
structure Timer where
  base : Quad := 0
  canvas : Nat := 0
  series : List (Quad × Word) := []
  k : Nat := 0
  cnt : Word := 0
  deriving DecidableEq, Repr

/-- `MRV_STAT.STATE`. -/
inductive MState where
  | idle | running | gated | aborting
  deriving DecidableEq, Repr

/-- The beam gate of an operation (R237). `wait` counts the frame starts of the gate canvas before the reference frame,
none while the canvas is to reach RUNNING; `past` says that the reference frame is over; `kept` holds, for each reference
frame that the canvas left when it left RUNNING, the active lines that had ended and *H*. -/
structure Gate where
  wait : Option Nat := none
  past : Bool := false
  kept : List (Nat × Nat) := []
  deriving DecidableEq, Repr

/-- Marver (R229 to R241). `op` holds the operation registers latched at START, by page offset; `wrote` says that the row
in progress is written, `waitSince` is when its requests began to wait, and `issued` the time and the address of the last
one issued. -/
structure Marver where
  state : MState := .idle
  err : BitVec 8 := 0
  startErr : Bool := false
  starved : Bool := false
  op : FMap Word := []
  rows : Nat := 0
  wrote : Bool := false
  wmarked : Bool := false
  evt : BitVec 3 := 0
  ops : Word := 0
  failAddr : Quad := 0
  gate : Gate := {}
  waitSince : Nat := 0
  issued : Option (Nat × Nat) := none
  deriving DecidableEq, Repr

/-- `CVU_STAT.STATE` (R244). -/
inductive VState where
  | off | idle | running | fenced | draining
  deriving DecidableEq, Repr

/-- A scan in progress (R245 to R250). -/
structure Scan where
  addr : Quad := 0
  left : Nat := 0
  seq : Word := 0
  exp : Quad := 0
  compare : Bool := false
  mid : Nat := 0
  width : Nat := 1
  poly : Quad := 0
  xor : Quad := 0
  refin : Bool := false
  refout : Bool := false
  v : Quad := 0
  entry : Option (Nat × Nat) := none
  /-- `CVU_SEQ` counts one when the scan ends. -/
  inc : Bool := false
  issued : Nat := 0
  deriving DecidableEq, Repr

/-- One scan engine. -/
structure Engine where
  state : VState := .off
  en : Bool := false
  enPending : Bool := false
  err : BitVec 8 := 0
  hit : Bool := false
  /-- A scan is in hand, running or draining. -/
  busy : Bool := false
  scan : Scan := {}
  val : Quad := 0
  result : Quad := 0
  expUsed : Quad := 0
  seqUsed : Word := 0
  failAddr : Option Quad := none
  scans : Word := 0
  ovr : Word := 0
  parity : Bool := false
  /-- The drain waits for a response (R251). -/
  due : Bool := false
  flr : Bool := false
  deriving DecidableEq, Repr

/-- One witness region (R253 to R258): the words in effect at offsets 0x00 to 0x24, the words that wait for the
canvas's next frame start, the committed `EXPECT` and the device-written fields. -/
structure Region where
  words : FMap Word := []
  next : FMap (Option Word) := []
  expect : Quad := 0
  heldLo : Option Word := none
  last : Quad := 0
  frm : BitVec 16 := 0
  skip : Bool := false
  invalid : Bool := false
  run : Nat := 0
  seq : BitVec 16 := 0
  /-- The conditions of R255 have held since the frame start. -/
  armed : Bool := false
  /-- Words written since an error was found that their 64-bit group still awaits (R258). -/
  fresh : List Nat := []
  deriving DecidableEq, Repr

/-! ## Memory -/

/-- One GDDR7 site (R260, R270). `erased` counts the erasures by a failed link check in the 1 ms window `window`. -/
structure Site where
  fenced : Bool := false
  cause : BitVec 2 := 0
  errs : Word := 0
  window : Nat := 0
  erased : Nat := 0
  deriving DecidableEq, Repr

/-- The spare site's use (R276). -/
inductive Spare where
  | idle
  /-- A rebuild of a position waits to start. -/
  | pending (p : Nat)
  | rebuilding (p : Nat)
  /-- The rebuild of a position stopped when a second position failed: the atoms below the copy pointer are complete. -/
  | stopped (p : Nat)
  | substituted (p : Nat)
  | none
  deriving DecidableEq, Repr

/-- A request in a bank queue, with the generation that its tag had as it entered (R279). -/
structure BankReq where
  req : MemReq
  gen : BitVec 8
  deriving DecidableEq, Repr

/-- A read under way: the request with its generation, the atom's bytes and whether they were uncorrectable as it was issued,
whether the burst has been read again (R269), and whether a write has since covered the atom. A write that does not cover
its atom is one such read with its merge (R264). -/
structure InFlight where
  req : MemReq
  gen : BitVec 8 := 0
  bytes : List Byte := []
  bad : Bool := false
  again : Bool := false
  covered : Bool := false
  deriving DecidableEq, Repr

/-- One ganged channel: its bank queues oldest first, its pointer, its next refresh slot, the end of each bank's refresh,
the debts, the banks that have had their extra refresh in this slot interval, the reads in flight, the banks whose probe
is due in the order of their refreshes, the probes made on each side, whether the spare serves here, and `MCT_REF` as applied here (R271 to R276). -/
structure Gang where
  queues : FMap (List BankReq) := []
  ptr : Nat := 0
  slot : Nat := 0
  refreshing : FMap Nat := []
  debt : FMap Nat := []
  extra : FMap Bool := []
  inflight : List InFlight := []
  probeDue : List Nat := []
  probeRight : Bool := false
  probeL : Nat := 0
  probeR : Nat := 0
  switched : Bool := false
  ref : Word := 0x812C0076
  deriving DecidableEq, Repr

/-- The answer to a request on the fabric: its master and tag, whether it completed without error or denial, and the
bytes that a read returned. -/
structure FabricReply where
  mid : Nat
  tag : Nat
  ok : Bool
  data : List Byte := []
  deriving DecidableEq, Repr

/-- A freed request whose response may still come: its master and, of a write, the bytes that it may still write (R279). -/
structure Stale where
  mid : Nat
  writes : List (Nat × List Byte) := []
  deriving DecidableEq, Repr

/-- The tag of one requester: its generation, and the freed requests whose responses may still come (R279). -/
structure Tag where
  gen : BitVec 8 := 0
  stale : List Stale := []
  deriving DecidableEq, Repr

/-- `MCT_LANE_STAT.STATE` (R292). -/
inductive LnState where
  | off | tracking | waiting | retraining | dead
  deriving DecidableEq, Repr

/-- What a retrain has chosen: settings, and the widest passing runs of the two delays (R291). -/
structure LaneResult where
  set : LaneSet
  rdRun : Nat
  wrRun : Nat
  deriving DecidableEq, Repr

/-- The sweeps of a retrain (R291): for the read delay, the two thresholds and the write delay the outcome at each trial
value from 0 on; at the present value, the reference bursts or probes taken, and whether all were free of errors. -/
structure Sweep where
  rd : List Bool := []
  lo : List Bool := []
  hi : List Bool := []
  wr : List Bool := []
  n : Nat := 0
  clean : Bool := true
  deriving DecidableEq, Repr

/-- One byte lane (R281 to R291). The read probe samples the right side next where `rdRight` says so; `rdCntL` to `rdMisR`
count each side's reference bursts and mismatches. -/
structure Lane where
  cur : LaneSet := { rdDly := 0, wrDly := 0, thrLo := 0, thrHi := 0 }
  trn : LaneSet := { rdDly := 0, wrDly := 0, thrLo := 0, thrHi := 0 }
  rdL : Nat := 0
  rdR : Nat := 0
  wrL : Nat := 0
  wrR : Nat := 0
  rdRight : Bool := false
  rdCntL : Nat := 0
  rdCntR : Nat := 0
  rdMisL : Nat := 0
  rdMisR : Nat := 0
  wrMisL : Nat := 0
  wrMisR : Nat := 0
  state : LnState := .off
  cause : BitVec 2 := 0
  grantRd : Int := 0
  grantWr : Int := 0
  sweep : Sweep := {}
  found : Option LaneResult := none
  foundWr : Bool := false
  deriving DecidableEq, Repr

/-- The memory controller (R260 to R280). -/
structure Mct where
  state : Nat := 0
  rate : Nat := 0
  dens4 : Bool := true
  sites : FMap Site := []
  gangs : FMap Gang := []
  lanes : FMap Lane := []
  spare : Spare := .idle
  tags : FMap Tag := []
  /-- Requests whose bank queue is full, in the order in which they came (R271). -/
  waiting : List MemReq := []
  returned : List FabricReply := []
  /-- Positions that have become unavailable with no rebuild (R275). -/
  gone : List Nat := []
  /-- The spare was fenced while no position depended on it, or failed alone at start-up: spare-lost is live (R280). -/
  spareLost : Bool := false
  ptr : Nat := 0
  grant : Nat := 0
  poison : List Nat := []
  corrected : Quad := 0
  uncorr : Quad := 0
  copied : Quad := 0
  forced : Quad := 0
  postponed : Quad := 0
  late : Quad := 0
  moves : Word := 0
  /-- The timing that training arrived at (R273). -/
  timing : MemTiming := { rfc := 300, int := 118 }
  deriving DecidableEq, Repr

/-- The Crucible's sound state (R294 to R302). -/
structure Crucible where
  withheld : List Nat := []
  brokenLocal : List Nat := []
  spares : FMap Nat := []
  fixed : FMap Nat := []
  due : List Nat := []
  stuck : List Nat := []
  scrubPtr : Nat := 0
  scrubGrant : Nat := 0
  corrected : Quad := 0
  uncorr : Quad := 0
  lastOff : Word := 0
  passes : Word := 0
  badWins : List Nat := []
  badSurfs : List Nat := []
  /-- Window offsets of the 64-bit groups left uncorrectable, until a write covers them (R300, R302). -/
  badGroups : List Nat := []
  /-- Words of the pipes' local table memories left uncorrectable, until they are written (R300). -/
  badLocal : List (Nat × LocalWord) := []
  deriving DecidableEq, Repr

/-! ## Access control and faults -/

/-- The access tables (R306 to R311): memory windows by slot × 16 + window, as the four data words of R317; ranges by
function × 2 + range; page rights by function × 32 + group. -/
structure Acc where
  windows : FMap (Word × Word × Word × Word) := []
  scene : FMap Word := []
  surface : FMap Word := []
  rights : FMap (Word × Word × Word × Word) := []
  lock : Bool := false
  selErr : Bool := false
  deny : Word := 0
  denyAddr : Quad := 0
  denyInfo : Word := 0
  denyTb : Quad := 0
  deriving DecidableEq, Repr

/-- A firing of a fault source: the source number, the unit instance, its detail (R345) and its timestamp. -/
structure Firing where
  src : Nat
  inst : Nat := 0
  detail : BitVec 128 := 0
  ts : Quad := 0
  coal : Bool := false
  deriving DecidableEq, Repr

/-- `FLT_SRC_CFG` as written, for one source: reaction, notice bit, entries per window. -/
structure SrcCfg where
  react : Nat := 1
  notice : Bool := true
  coal : Nat := 4
  deriving DecidableEq, Repr

/-- The coalescing count of one source in the current window (R348). -/
structure Coal where
  written : Nat := 0
  suppressed : Nat := 0
  last : Option Firing := none
  deriving DecidableEq, Repr

/-- The fault collector and the Cullet log (R337 to R351). `arrivals` are firings on their way to the collector, `queue`
the firings that await their entries. -/
structure Collector where
  sticky : FMap Bool := []
  count : FMap Word := []
  cfg : FMap (Option SrcCfg) := []
  arrivals : List Firing := []
  queue : List Firing := []
  overflow : Option (Firing × Nat) := none
  coal : FMap Coal := []
  /-- The window of 1,000,000 ns that is being counted. -/
  window : Nat := 0
  log : FMap (Option (Word × Firing)) := []
  wseq : Word := 1
  rdDone : Bool := false
  rdMatch : Bool := false
  rdMid : Nat := 0
  rdWords : List Word := []
  deriving DecidableEq, Repr

/-! ## Management, clocks, pins -/

/-- `SVC_STAT.MODE`. -/
inductive SvcMode where
  | normal | recovery | restarting
  deriving DecidableEq, Repr

/-- The stage of a firmware update (R358): the image, the KiB programmed, and how it has ended. -/
structure Stage where
  image : Option ImageHeader := none
  done : Nat := 0
  verified : Bool := false
  failed : Bool := false
  deriving DecidableEq, Repr

/-- The supply monitor of one rail: consecutive ticks outside and within its limits, and whether it is out of range
(R359). -/
structure RailMon where
  bad : Nat := 0
  good : Nat := 0
  live : Bool := false
  deriving DecidableEq, Repr

/-- A sampled quantity: its present, least and greatest value since cold reset (R361). -/
structure Sample where
  now : Int := 0
  least : Int := 0
  most : Int := 0
  deriving DecidableEq, Repr

/-- Faruo (R353 to R362). `mb` is `SVC_MB_STAT.STATE`; `taken` marks the mailbox command `op` that tier 1 of the last tick
took up. `tickNo` is the number of the last tick begun or let pass, `lastKick` the time of the last tier 0 kick. `trial` is
set from an activation until the first kick of the new image: its time and the slot that ran before. `fellBack` says that
a slot runs because the other failed (R355, R358). `frFor` is the memory timing and compose clock for which Faruo last
wrote `FR_CYC`. -/
structure Svc where
  mode : SvcMode := .normal
  slot : Nat := 0
  slots : FMap Slot := []
  mb : Nat := 0
  op : Nat := 0
  taken : Bool := false
  /-- The arguments as Faruo read them when it took the command up (R360). -/
  args : List Word := []
  drop : Bool := false
  mid : Nat := 0
  result : BitVec 8 := 0
  rsp : List Word := []
  lastKick : Nat := 0
  tickNo : Nat := 0
  restarts : Word := 0
  restartTimes : List Nat := []
  stage : Stage := {}
  activated : Bool := false
  trial : Option (Nat × Nat) := none
  fellBack : Bool := false
  temps : List Sample := []
  rails : List Sample := []
  warm : List Nat := []
  crit : List Nat := []
  supply : FMap RailMon := []
  warnT : Int := 1600
  critT : Int := 1680
  tol : Nat := 5
  exportOn : Bool := false
  exportAddr : Quad := 0
  exportLog2 : Nat := 0
  exportNext : Word := 1
  exportSkip : Word := 0
  load : Nat := 0
  peak : Nat := 0
  overruns : BitVec 16 := 0
  frFor : Nat × Nat := (0, 0)
  deriving DecidableEq, Repr

/-- The timebase (R368 to R371). `err` is the error still to remove; `rate` the counts to withhold (positive) or add
(negative) in this second, spread over `phase`; `since` the time from which PPS-lost counts and `accepted` that of the last
accepted edge, none before the first (R371). -/
structure Timebase where
  count : Quad := 0
  run : Bool := false
  err : Int := 0
  rate : Int := 0
  phase : Nat := 0
  edge : Quad := 0
  edgeErr : Int := 0
  since : Nat := 0
  accepted : Option Nat := none
  lost : Bool := false
  loadPend : Bool := false
  loadErr : Bool := false
  deriving DecidableEq, Repr

/-- The clocks (R151, R367). `cclk` is the present frequency in MHz, `ledger` the one the ledger uses. -/
structure Clocks where
  locked : FMap Bool := []
  cclk : Nat := 1600
  ledger : Nat := 1600
  /-- A change of CCLK in hand: 0 none, 1 lowering before its re-evaluation is done, 2 lowering, 3 raising, 4 raised and
  waiting for its re-evaluation. -/
  change : Nat := 0
  deriving DecidableEq, Repr

/-- How far start-up has come (R378). -/
inductive Phase where
  /-- `RESET_N` or `PWR_OK` is low. -/
  | reset
  /-- The boot ROM runs (event 2). -/
  | rom
  /-- Faruo and the collector run (event 5). -/
  | booted
  /-- BIST and row repair are done (event 6). -/
  | tested
  /-- GDDR7 is trained (events 7 and 8). -/
  | trained
  /-- Ready (event 9). -/
  | ready
  deriving DecidableEq, Repr

/-- The function-level reset of a VF (R375): whether one is under way, whether its drains are over, and the windows still
to be cleared. -/
structure Flr where
  active : Bool := false
  clearing : Bool := false
  todo : List Nat := []
  deriving DecidableEq, Repr

/-- Resets in progress (R372 to R375). -/
structure Resets where
  phase : Phase := .reset
  /-- The trigger of the warm reset in progress, 0 for none (R352, source 0). -/
  warm : Nat := 0
  flr : FMap Flr := []
  deriving DecidableEq, Repr

/-- The host interface: link, messages sent, MSI-X tables, the last read and configuration answers. -/
structure Hif where
  gen : Nat := 0
  width : Nat := 0
  out : List HostMsg := []
  msix : FMap Word := []
  msixPend : FMap Bool := []
  readData : Quad := 0
  cfgRetry : Bool := false
  cfgData : Word := 0
  deriving DecidableEq, Repr

/-- The test access port's instruction (R391). -/
inductive TapInstr where
  | bypass | idcode | samplePreload | extest | extestPulse | extestTrain | clamp | highz
  deriving DecidableEq, Repr

/-- Pins: `FSYNC_OUT`, the SMBus straps, copy and answer, and the test access port: held in reset, its instruction, the
boundary values that outputs take, and what the last instruction's data register shifts out. -/
structure Pins where
  fsyncOut : Bool := false
  fsyncAt : Nat := 0
  straps : BitVec 2 := 0
  smbCopy : Word := 0
  smbData : Byte := 0
  smbAck : Bool := false
  tapReset : Bool := true
  tap : TapInstr := .idcode
  boundary : List Bool := []
  tdo : List Bool := []
  deriving DecidableEq, Repr

/-- A page's snapshot mailbox (R333). -/
structure Snap where
  valid : Bool := false
  /-- When the request that is under way arrived, and the copy once it has been taken: its words, none for an undefined
  group (R335). -/
  asked : Option Nat := none
  taken : Option (Option (List Word)) := none
  grpErr : Bool := false
  mid : Nat := 0
  group : BitVec 8 := 0
  words : List Word := []
  deriving DecidableEq, Repr

/-- The register file: words in effect, staged words, admitted words that wait for their latch point, and the page
headers. All tables are keyed by BAR0 offset or page number; an unlisted word reads its reset value. -/
structure Regs where
  eff : FMap Word := []
  staged : FMap (Option Word) := []
  admitted : FMap (Option Word) := []
  arms : FMap Bool := []
  hold : FMap Bool := []
  discarded : FMap Bool := []
  snaps : FMap Snap := []
  deriving DecidableEq, Repr

/-- The table memories that warm and block resets keep (R374): CLUT entries, scaler coefficients, input colour slot
words and output LUT entries. -/
structure Luts where
  clut : FMap Word := []
  coef : FMap (BitVec 16) := []
  ics : FMap Word := []
  /-- Keyed by ((canvas × 2 + bank) × 3 + LUT) × 8192 + index; a 3D node packs BLU, GRN and RED. -/
  lut : FMap (BitVec 48) := []
  deriving DecidableEq, Repr

/-- The scene side: the tables as completed, the changes between commit and completion, and the images that stood before the
first of those changes. -/
structure Scene where
  wins : FMap WinEnt := []
  surfs : FMap SurfEnt := []
  baseWins : FMap WinImg := []
  baseSurfs : FMap SurfImg := []
  admQ : List AdmReq := []
  flight : List Admitted := []
  nextNo : Nat := 1
  nextGrp : Nat := 1
  deriving DecidableEq, Repr

/-- The ledger's device-wide state (R80 to R84). -/
structure Ledger where
  seq : Word := 0
  busy : Bool := false
  overBud : Bool := false
  memUsed : Nat := 0
  pipeUsed : Nat := 0
  memBud : Nat := 2048000
  pipeBud : Nat := 18000
  deriving DecidableEq, Repr

/-- Everything but the queue of waiting commands. `now` counts TBCLK cycles since power-up; unlike the timebase it is
never slewed or loaded, and durations are measured with it. -/
structure Dev where
  now : Nat := 0
  regs : Regs := {}
  luts : Luts := {}
  mem : FMap Byte := []
  scene : Scene := {}
  ledger : Ledger := {}
  queues : FMap Queue := []
  turn : Option (Nat × Nat) := none
  lastTurn : Nat := 255
  rings : FMap NRing := []
  canvases : FMap Canvas := []
  comp : Composer := {}
  ports : FMap Port := []
  chans : FMap Chan := []
  timers : FMap Timer := []
  mrv : Marver := {}
  engines : FMap Engine := []
  regions : FMap Region := []
  mct : Mct := {}
  cru : Crucible := {}
  acc : Acc := {}
  flt : Collector := {}
  svc : Svc := {}
  tb : Timebase := {}
  clk : Clocks := {}
  rst : Resets := {}
  hif : Hif := {}
  pins : Pins := {}
  deriving DecidableEq, Repr

/-- The machine: the device and the commands that wait, first in first out. -/
structure State where
  dev : Dev := {}
  pending : List Instr := []
  deriving DecidableEq, Repr

/-- The machine right after a cold reset, `RESET_N` still low: every register at its Reset column value, memory with
nothing listed, no command waiting. -/
def State.reset : State := {}

end Sys2Proof.Machine
end

