-- ==== Sys2Proof/Machine/Images.lean ====
section
/-!
DEFINITION. How table entries and log entries lie in words: window images (R41), surface images (R43), witness regions
(R253) and Cullet entries (R345).
-/
namespace Sys2Proof.Machine

/-- The window image that the 32 words of a `WINDOW_SET` spell; device-written and reserved bits are ignored (R41). -/
def WinImg.ofWords (ws : List Word) : WinImg :=
  let w := wordAt ws
  { vcoef := (w 0).extractLsb' 24 5, hcoef := (w 0).extractLsb' 19 5, cscEn := bit (w 0) 18,
    csc := (w 0).extractLsb' 12 6, miry := bit (w 0) 11, mirx := bit (w 0) 10, rot := (w 0).extractLsb' 8 2,
    latch := bit (w 0) 7, blend := (w 0).extractLsb' 4 3, wall := (w 0).extractLsb' 1 3, valid := bit (w 0) 0,
    galpha := (w 1).extractLsb' 16 16, z := (w 1).extractLsb' 0 16, surf := (w 2).extractLsb' 0 14,
    dstX := w 4, dstY := w 5, dstH := (w 6).extractLsb' 16 16, dstW := (w 6).extractLsb' 0 16,
    srcX := (w 7).extractLsb' 0 18, srcY := (w 8).extractLsb' 0 18, srcW := (w 9).extractLsb' 0 19,
    srcH := (w 10).extractLsb' 0 19, key := (w 11).extractLsb' 0 30, keyMask := (w 12).extractLsb' 0 30 }

/-- Word 0 of a window entry (R41). -/
def WinImg.word0 (i : WinImg) : Word :=
  place 28 24 i.vcoef.toNat ||| place 23 19 i.hcoef.toNat ||| flag 18 i.cscEn ||| place 17 12 i.csc.toNat |||
  flag 11 i.miry ||| flag 10 i.mirx ||| place 9 8 i.rot.toNat ||| flag 7 i.latch ||| place 6 4 i.blend.toNat |||
  place 3 1 i.wall.toNat ||| flag 0 i.valid

/-- The 32 words of a window entry, device-written fields included (R41). -/
def WinEnt.words (e : WinEnt) : List Word :=
  [e.img.word0, place 31 16 e.img.galpha.toNat ||| place 15 0 e.img.z.toNat, place 13 0 e.img.surf.toNat, 0,
   e.img.dstX, e.img.dstY, place 31 16 e.img.dstH.toNat ||| place 15 0 e.img.dstW.toNat, place 17 0 e.img.srcX.toNat,
   place 17 0 e.img.srcY.toNat, place 18 0 e.img.srcW.toNat, place 18 0 e.img.srcH.toNat,
   place 29 0 e.img.key.toNat, place 29 0 e.img.keyMask.toNat,
   place 31 16 e.seq.toNat ||| place 15 0 e.txn.toNat] ++ List.replicate 18 0

/-- The surface image that the 16 words of a `SURFACE_SET` spell (R43). -/
def SurfImg.ofWords (ws : List Word) : SurfImg :=
  let w := wordAt ws
  { clut := (w 0).extractLsb' 7 6, layout := (w 0).extractLsb' 5 2, fmt := (w 0).extractLsb' 1 4, valid := bit (w 0) 0,
    height := (w 1).extractLsb' 16 16, width := (w 1).extractLsb' 0 16, addr0 := quad (w 2) (w 3),
    pitch0 := (w 4).extractLsb' 0 24, addr1 := quad (w 5) (w 6), pitch1 := (w 7).extractLsb' 0 24 }

/-- The 16 words of a surface entry, device-written fields included (R43). -/
def SurfEnt.words (e : SurfEnt) : List Word :=
  [place 12 7 e.img.clut.toNat ||| place 6 5 e.img.layout.toNat ||| place 4 1 e.img.fmt.toNat ||| flag 0 e.img.valid,
   place 31 16 e.img.height.toNat ||| place 15 0 e.img.width.toNat, lo32 e.img.addr0, hi32 e.img.addr0,
   place 23 0 e.img.pitch0.toNat, lo32 e.img.addr1, hi32 e.img.addr1, place 23 0 e.img.pitch1.toNat,
   place 31 16 e.seq.toNat ||| place 15 0 e.txn.toNat] ++ List.replicate 7 0

/-! ## Witness regions (R253) -/

/-- The word in effect at offset 4 × `i` of a region. -/
def Region.at (r : Region) (i : Nat) : Word := FMap.get (fun _ => 0) r.words i

/-- Word 0 of the region names its canvas. -/
def Region.canvas (r : Region) : Nat := bits (r.at 0) 14 8
/-- The region is checked. -/
def Region.valid (r : Region) : Bool := bit (r.at 0) 0
/-- The next compared frame is learnt (R257). -/
def Region.learn (r : Region) : Bool := bit (r.at 0) 1
/-- `FOLD` (R243). -/
def Region.fold (r : Region) : Nat := bits (r.at 0) 3 2
/-- `THRESH`. -/
def Region.thresh (r : Region) : Nat := bits (r.at 0) 7 4
/-- The check-value width. -/
def Region.width (r : Region) : Nat := bits (r.at 0) 22 16

/-- `CFG`: a field holds a reserved encoding: `THRESH` 0, `FOLD` 0b11, a width outside 1–64, or a size outside
1–8,192. An entry that is all zeros names none: every entry reads 0 after cold reset (R253). -/
def Region.cfg (r : Region) : Bool :=
  !r.words.isEmpty && (r.thresh = 0 || r.fold = 3 || r.width = 0 || decide (64 < r.width) ||
  bits (r.at 2) 15 0 = 0 || decide (8192 < bits (r.at 2) 15 0) ||
  bits (r.at 2) 31 16 = 0 || decide (8192 < bits (r.at 2) 31 16))

/-- `FAIL`: `RUN` has reached `THRESH`. -/
def Region.fail (r : Region) : Bool := r.thresh != 0 && decide (r.thresh ≤ r.run)

/-- The sixteen words of a region as the aperture reads them. `geom` is the level of `GEOM`; a write to offsets 0x00 to
0x24 that waits for the canvas's frame start shows at once, since the aperture returns what was written. -/
def Region.read (r : Region) (geom : Bool) : List Word :=
  ((List.range 10).map fun i => ((FMap.get (fun _ => none) r.next i)).getD (r.at i)) ++
  [lo32 r.expect, hi32 r.expect, lo32 r.last, hi32 r.last,
   place 31 16 r.frm.toNat ||| flag 12 r.cfg ||| flag 11 r.skip ||| flag 10 geom ||| flag 9 r.invalid |||
     flag 8 r.fail ||| place 7 0 r.run,
   place 31 16 r.seq.toNat]

/-! ## Cullet entries (R345) -/

/-- The eight words of a log entry; a slot never written reads 0 in every byte (R346). -/
def logWords (sev : Nat → Nat) : Option (Word × Firing) → List Word
  | none => List.replicate 8 0
  | some (seq, f) =>
    [lo32 f.ts, hi32 f.ts, seq,
     place 31 16 f.inst ||| flag 15 true ||| flag 12 f.coal ||| place 11 10 (sev f.src) ||| place 9 0 f.src] ++
    (List.range 4).map fun i => f.detail.extractLsb' (32 * i) 32

end Sys2Proof.Machine
end

