-- ==== Sys2Proof/Machine/Regs.lean ====
section
/-!
DEFINITION. The register map: page types and where their pages lie (R321, R401 to R404), and the field map of every
register as the block chapters give it: access code, legal values, reset value and staging class (R5 to R9).
-/
namespace Sys2Proof.Machine

/-- The access code of a writable field (R8). `wok` is WO and RK together. The `dev` codes mark RW, RK and RL fields
whose value a unit of the device holds, so that a write reaches the unit and a read comes from it. -/
inductive AccCode where
  | rw | rs | rk | rl | w1c | wo | wok | dev | devk | devl
  deriving DecidableEq, Repr

/-- Whether the device stores the field as written. -/
def AccCode.stored : AccCode → Bool
  | .rw | .rs | .rk | .rl => true
  | .w1c | .wo | .wok | .dev | .devk | .devl => false

/-- Whether the field needs an arm (R325). -/
def AccCode.keyed : AccCode → Bool
  | .rk | .wok | .devk => true
  | .rw | .rs | .rl | .w1c | .wo | .dev | .devl => false

/-- Whether `ACC_CTL.LOCK` guards the field (R314). -/
def AccCode.locked : AccCode → Bool
  | .rl | .devl => true
  | .rw | .rs | .rk | .w1c | .wo | .wok | .dev | .devk => false

/-- Whether an alias write carries the field (R323): W1C and WO fields take no part. -/
def AccCode.aliased : AccCode → Bool
  | .rw | .rs | .rk | .rl | .dev | .devk | .devl => true
  | .w1c | .wo | .wok => false

/-- The values of a field that its map does not mark reserved (R7). -/
inductive Legal where
  | any
  | le (n : Nat)
  | range (a b : Nat)
  | step (a b m : Nat)
  | zeroOr (m : Nat)
  deriving DecidableEq, Repr

/-- Whether a value is not reserved. -/
def Legal.ok (v : Nat) : Legal → Bool
  | .any => true
  | .le n => decide (v ≤ n)
  | .range a b => decide (a ≤ v) && decide (v ≤ b)
  | .step a b m => decide (a ≤ v) && decide (v ≤ b) && decide ((v - a) % m = 0)
  | .zeroOr m => decide (v = 0) || decide (m ≤ v)

/-- One writable field of a register. -/
structure FieldDesc where
  hi : Nat
  lo : Nat
  acc : AccCode
  legal : Legal
  deriving DecidableEq, Repr

/-- One register of a page type: its page offset, reset word, staging class and writable fields. -/
structure RegDesc where
  off : Nat
  reset : Word
  staged : Bool
  fields : List FieldDesc
  deriving DecidableEq, Repr

/-- The page types of R321. -/
inductive PType where
  | hif | ckr | tmb | svc | acc | flt | log | cru | ldg | scn | mrv | cqe | mct | site | lhr | cmp | gth | csp | cnv
  | dpt | dma | chan | cvu | queue
  deriving DecidableEq, Repr

/-- `PAGE_ID.TYPE` (R321). -/
def PType.code : PType → Nat
  | .hif => 0x01 | .ckr => 0x02 | .tmb => 0x03 | .svc => 0x04 | .acc => 0x05 | .flt => 0x06 | .log => 0x07
  | .cru => 0x08 | .ldg => 0x09 | .scn => 0x0A | .mrv => 0x0B | .cqe => 0x0C | .queue => 0x0D | .mct => 0x0E
  | .site => 0x0F | .lhr => 0x10 | .cmp => 0x11 | .gth => 0x12 | .csp => 0x13 | .cnv => 0x14 | .dpt => 0x15
  | .dma => 0x16 | .chan => 0x17 | .cvu => 0x18

/-- The first page of the type (R401). -/
def PType.page : PType → Nat
  | .hif => 0 | .ckr => 1 | .tmb => 2 | .svc => 3 | .acc => 4 | .flt => 5 | .log => 6 | .cru => 7 | .ldg => 8
  | .scn => 9 | .mrv => 10 | .cqe => 12 | .mct => 16 | .site => 17 | .lhr => 36 | .cmp => 40 | .gth => 64 | .csp => 192
  | .cnv => 320 | .dpt => 448 | .dma => 576 | .chan => 640 | .cvu => 704 | .queue => 768

/-- How many pages the type has (R401). -/
def PType.count : PType → Nat
  | .site => 18 | .cmp => 14 | .gth => 112 | .csp => 128 | .cnv => 128 | .dpt => 128 | .chan => 64 | .cvu => 16
  | .queue => 256
  | .hif | .ckr | .tmb | .svc | .acc | .flt | .log | .cru | .ldg | .scn | .mrv | .cqe | .mct | .lhr | .dma => 1

/-- `PAGE_CAP.NSNAP` (R401). -/
def PType.snaps : PType → Nat
  | .tmb | .acc | .ldg | .mrv | .dpt | .chan => 1
  | .cru | .mct | .cvu => 2
  | .hif | .ckr | .svc | .flt | .log | .scn | .cqe | .site | .lhr | .cmp | .gth | .csp | .cnv | .dma | .queue => 0

/-- Every page type. -/
def PType.all : List PType :=
  [.hif, .ckr, .tmb, .svc, .acc, .flt, .log, .cru, .ldg, .scn, .mrv, .cqe, .mct, .site, .lhr, .cmp, .gth, .csp, .cnv,
   .dpt, .dma, .chan, .cvu, .queue]

/-- The type and instance of a page number, none for a page that is not a register page (R401, R403). -/
def pageOf (n : Nat) : Option (PType × Nat) :=
  (PType.all.find? fun t => decide (t.page ≤ n) && decide (n < t.page + t.count)).map fun t => (t, n - t.page)


/-- The field maps of the HIF pages from page offset 0x040 on. -/
def hifMap : List RegDesc :=
  [⟨0x040, 0, false, []⟩,
   ⟨0x044, 0, false, [⟨0, 0, .wok, .any⟩]⟩]

/-- The field maps of the CKR page from page offset 0x040 on: eight PLLs (R151) and CCLK (R367). -/
def ckrMap : List RegDesc :=
  ⟨0x040, 0x80000018, false, [⟨31, 31, .rk, .any⟩, ⟨5, 0, .rk, .range 24 48⟩]⟩ ::
  ((List.range 7).map (fun k => ⟨0x044 + 4 * k, 0x00000018, false, [⟨31, 31, .rk, .any⟩,
     ⟨5, 0, .rk, .range 24 48⟩]⟩) ++
   [⟨0x060, 0x00000640, false, [⟨10, 0, .rk, .step 800 1600 50⟩]⟩])

/-- The field maps of the TMB pages from page offset 0x040 on. -/
def tmbMap : List RegDesc :=
  [⟨0x040, 0x00000064, false, [⟨31, 31, .rw, .any⟩, ⟨30, 30, .rw, .any⟩, ⟨29, 29, .wok, .any⟩,
     ⟨9, 0, .rw, .range 1 1000⟩]⟩,
   ⟨0x044, 0, false, []⟩,
   ⟨0x048, 0, false, [⟨31, 0, .rw, .any⟩]⟩,
   ⟨0x04C, 0, false, [⟨31, 0, .rw, .any⟩]⟩]

/-- The field maps of the SVC pages from page offset 0x040 on. -/
def svcMap : List RegDesc :=
  [⟨0x040, 0, false, []⟩,
   ⟨0x044, 0, false, []⟩,
   ⟨0x048, 0x0000000A, false, [⟨6, 0, .rk, .range 2 100⟩]⟩,
   ⟨0x04C, 0, false, [⟨31, 31, .wo, .any⟩, ⟨7, 0, .rw, .any⟩]⟩,
   ⟨0x050, 0, false, []⟩,
   ⟨0x054, 0, false, [⟨31, 0, .rw, .any⟩]⟩,
   ⟨0x058, 0, false, [⟨31, 0, .rw, .any⟩]⟩,
   ⟨0x05C, 0, false, [⟨31, 0, .rw, .any⟩]⟩,
   ⟨0x060, 0, false, [⟨31, 0, .rw, .any⟩]⟩,
   ⟨0x064, 0, false, []⟩,
   ⟨0x068, 0, false, []⟩,
   ⟨0x06C, 0, false, []⟩,
   ⟨0x070, 0, false, []⟩]

/-- The field maps of the ACC pages from page offset 0x040 on. -/
def accMap : List RegDesc :=
  [⟨0x040, 0, false, [⟨0, 0, .devl, .any⟩]⟩,
   ⟨0x044, 0, false, []⟩,
   ⟨0x048, 0, false, [⟨31, 31, .rw, .any⟩, ⟨29, 28, .rw, .any⟩, ⟨10, 0, .rw, .any⟩]⟩,
   ⟨0x04C, 0, false, [⟨31, 0, .rl, .any⟩]⟩,
   ⟨0x050, 0, false, [⟨31, 0, .rl, .any⟩]⟩,
   ⟨0x054, 0, false, [⟨31, 0, .rl, .any⟩]⟩,
   ⟨0x058, 0, false, [⟨31, 0, .rl, .any⟩]⟩,
   ⟨0x05C, 0, false, []⟩]

/-- How many fault sources each word of 32 numbers has, from its bit 0 on; the words from 18 on have none (R337, R352). -/
def sourcesIn (k : Nat) : Nat := [3, 1, 1, 1, 5, 1, 4, 1, 3, 5, 1, 3, 4, 3, 1, 5, 7, 2].getD k 0

/-- The field maps of the FLT pages from page offset 0x040 on: 32 sticky, live and mask words, then the rest. -/
def fltMap : List RegDesc :=
  (List.range 32).map (fun k => ⟨0x040 + 4 * k, 0, false, [⟨31, 0, .w1c, .any⟩]⟩) ++
  (List.range 32).map (fun k => ⟨0x0C0 + 4 * k, 0, false, []⟩) ++
  (List.range 32).map (fun k => ⟨0x140 + 4 * k, 0, false, if sourcesIn k = 0 then [] else [⟨sourcesIn k - 1, 0, .rw, .any⟩]⟩) ++
  [⟨0x1C0, 0x00000002, false, [⟨1, 0, .rk, .any⟩]⟩,
   ⟨0x1C4, 0, false, []⟩,
   ⟨0x1C8, 0, false, [⟨9, 0, .rw, .any⟩]⟩,
   ⟨0x1CC, 0, false, [⟨13, 12, .devk, .le 2⟩, ⟨8, 8, .dev, .any⟩, ⟨3, 0, .dev, .range 1 15⟩]⟩,
   ⟨0x1D0, 0, false, []⟩]

/-- The field maps of the LOG pages from page offset 0x040 on. -/
def logMap : List RegDesc :=
  [⟨0x040, 0, false, []⟩,
   ⟨0x044, 0, false, [⟨31, 0, .rw, .any⟩]⟩,
   ⟨0x048, 0, false, []⟩,
   ⟨0x050, 0, false, []⟩,
   ⟨0x054, 0, false, []⟩,
   ⟨0x058, 0, false, []⟩,
   ⟨0x05C, 0, false, []⟩,
   ⟨0x060, 0, false, []⟩,
   ⟨0x064, 0, false, []⟩,
   ⟨0x068, 0, false, []⟩,
   ⟨0x06C, 0, false, []⟩]

/-- The field maps of the CRU pages from page offset 0x040 on. -/
def cruMap : List RegDesc :=
  [⟨0x040, 0, false, []⟩,
   ⟨0x044, 0, false, []⟩,
   ⟨0x048, 0, false, [⟨14, 0, .rl, .le 18943⟩]⟩,
   ⟨0x04C, 0x00040040, false, [⟨23, 16, .rk, .range 1 255⟩, ⟨15, 0, .rk, .any⟩]⟩,
   ⟨0x050, 0, false, []⟩]

/-- The field maps of the LDG pages from page offset 0x040 on. -/
def ldgMap : List RegDesc :=
  [⟨0x040, 0, false, [⟨0, 0, .wo, .any⟩]⟩,
   ⟨0x044, 0, false, []⟩,
   ⟨0x048, 0x000003C0, false, [⟨15, 0, .rk, .any⟩]⟩,
   ⟨0x04C, 0, false, []⟩,
   ⟨0x050, 0, false, []⟩,
   ⟨0x054, 0, false, []⟩,
   ⟨0x058, 0, false, []⟩,
   ⟨0x05C, 0, false, []⟩,
   ⟨0x060, 0, false, [⟨6, 0, .rw, .any⟩]⟩]

/-- The field maps of the SCN pages from page offset 0x040 on. -/
def scnMap : List RegDesc :=
  [⟨0x040, 0, false, []⟩]

/-- The field maps of the MRV pages from page offset 0x040 on. -/
def mrvMap : List RegDesc :=
  [⟨0x040, 0, false, [⟨1, 1, .wo, .any⟩, ⟨0, 0, .wo, .any⟩]⟩,
   ⟨0x044, 0, false, []⟩,
   ⟨0x048, 0, false, [⟨31, 16, .rw, .any⟩, ⟨15, 12, .rw, .any⟩, ⟨11, 8, .rw, .any⟩, ⟨6, 6, .rw, .any⟩,
     ⟨5, 5, .rw, .any⟩, ⟨4, 4, .rw, .any⟩, ⟨3, 3, .rw, .any⟩, ⟨2, 2, .rw, .any⟩, ⟨1, 0, .rw, .any⟩]⟩,
   ⟨0x04C, 0, false, [⟨31, 16, .rw, .any⟩, ⟨15, 0, .rw, .any⟩]⟩,
   ⟨0x050, 0, false, [⟨31, 0, .rw, .any⟩]⟩,
   ⟨0x054, 0, false, [⟨31, 0, .rw, .any⟩]⟩,
   ⟨0x058, 0, false, [⟨31, 0, .rw, .any⟩]⟩,
   ⟨0x05C, 0, false, [⟨31, 0, .rw, .any⟩]⟩,
   ⟨0x060, 0, false, [⟨31, 0, .rw, .any⟩]⟩,
   ⟨0x064, 0, false, [⟨31, 0, .rw, .any⟩]⟩,
   ⟨0x068, 0, false, [⟨23, 0, .rw, .any⟩]⟩,
   ⟨0x06C, 0, false, [⟨23, 0, .rw, .any⟩]⟩,
   ⟨0x070, 0, false, [⟨23, 0, .rw, .any⟩]⟩,
   ⟨0x074, 0, false, [⟨31, 0, .rw, .any⟩]⟩,
   ⟨0x078, 0, false, [⟨31, 16, .rw, .any⟩, ⟨15, 0, .rw, .any⟩]⟩,
   ⟨0x07C, 0, false, [⟨31, 16, .rw, .any⟩, ⟨15, 8, .rw, .any⟩, ⟨6, 0, .rw, .any⟩]⟩,
   ⟨0x080, 0, false, []⟩,
   ⟨0x084, 0, false, [⟨14, 0, .rw, .any⟩]⟩,
   ⟨0x088, 0, false, [⟨31, 26, .rl, .any⟩, ⟨14, 14, .rw, .any⟩, ⟨13, 8, .rw, .any⟩, ⟨6, 6, .rw, .any⟩,
     ⟨5, 0, .rw, .any⟩]⟩,
   ⟨0x08C, 0, false, [⟨2, 0, .w1c, .any⟩]⟩,
   ⟨0x090, 0, false, []⟩]

/-- The field maps of the CQE pages from page offset 0x040 on. -/
def cqeMap : List RegDesc :=
  [⟨0x040, 0, false, []⟩]

/-- The field maps of the MCT pages from page offset 0x040 on. -/
def mctMap : List RegDesc :=
  [⟨0x040, 0, false, []⟩,
   ⟨0x044, 0x812C0076, true, [⟨31, 28, .rk, .range 1 8⟩, ⟨25, 16, .rk, .range 100 1000⟩,
     ⟨9, 0, .rk, .range 50 1000⟩]⟩,
   ⟨0x048, 0x000000B7, false, [⟨11, 0, .rk, .any⟩]⟩,
   ⟨0x060, 0x08208100, false, [⟨31, 0, .rl, .any⟩]⟩,
   ⟨0x064, 0, false, [⟨7, 0, .rl, .any⟩]⟩,
   ⟨0x068, 0x10410200, false, [⟨31, 0, .rl, .any⟩]⟩,
   ⟨0x06C, 0, false, [⟨7, 0, .rl, .any⟩]⟩,
   ⟨0x070, 0x20820000, false, [⟨31, 0, .rl, .any⟩]⟩,
   ⟨0x074, 0, false, [⟨7, 0, .rl, .any⟩]⟩,
   ⟨0x078, 0x41040000, false, [⟨31, 0, .rl, .any⟩]⟩,
   ⟨0x07C, 0, false, [⟨7, 0, .rl, .any⟩]⟩,
   ⟨0x080, 0x82080000, false, [⟨31, 0, .rl, .any⟩]⟩,
   ⟨0x084, 0, false, [⟨7, 0, .rl, .any⟩]⟩,
   ⟨0x088, 0x04100000, false, [⟨31, 0, .rl, .any⟩]⟩,
   ⟨0x08C, 0x00000001, false, [⟨7, 0, .rl, .any⟩]⟩]

/-- The field maps of one byte lane's block, at `b` within its site's page. -/
def laneMap (b : Nat) : List RegDesc :=
  [⟨b, 0, false, []⟩, ⟨b + 0x04, 0, false, []⟩,
   ⟨b + 0x08, 0, true, [⟨29, 24, .rk, .any⟩, ⟨21, 16, .rk, .any⟩, ⟨14, 8, .rk, .any⟩, ⟨6, 0, .rk, .any⟩]⟩,
   ⟨b + 0x0C, 0, false, []⟩, ⟨b + 0x10, 0, false, []⟩, ⟨b + 0x14, 0, false, []⟩,
   ⟨b + 0x18, 0, false, [⟨1, 1, .wok, .any⟩, ⟨0, 0, .rw, .any⟩]⟩]

/-- The field maps of the MCT site pages from page offset 0x040 on: the site's registers and its four lanes' blocks. -/
def siteMap : List RegDesc :=
  [⟨0x040, 0, false, [⟨0, 0, .wok, .any⟩]⟩,
   ⟨0x044, 0, false, []⟩,
   ⟨0x048, 0, false, []⟩,
   ⟨0x04C, 0x00000040, false, [⟨15, 0, .rk, .range 1 65535⟩]⟩] ++
  laneMap 0x080 ++ laneMap 0x0A0 ++ laneMap 0x0C0 ++ laneMap 0x0E0

/-- The field maps of the LHR pages from page offset 0x040 on. -/
def lhrMap : List RegDesc :=
  [⟨0x040, 0x00000007, false, [⟨2, 2, .rk, .any⟩, ⟨1, 1, .rk, .any⟩, ⟨0, 0, .rk, .any⟩]⟩,
   ⟨0x044, 0x1010040C, false, [⟨29, 24, .rk, .range 1 63⟩, ⟨21, 16, .rk, .range 2 63⟩,
     ⟨15, 8, .rk, .range 1 255⟩, ⟨3, 0, .rk, .range 8 15⟩]⟩,
   ⟨0x048, 0, false, []⟩,
   ⟨0x04C, 0, false, []⟩]

/-- The field maps of the CMP pages from page offset 0x040 on. -/
def cmpMap : List RegDesc :=
  [⟨0x040, 0, false, [⟨1, 0, .rk, .le 2⟩]⟩,
   ⟨0x044, 0, false, []⟩,
   ⟨0x048, 0, false, []⟩,
   ⟨0x04C, 0, false, []⟩,
   ⟨0x050, 0, false, []⟩,
   ⟨0x054, 0, false, []⟩,
   ⟨0x060, 0x80000000, false, [⟨31, 31, .rk, .any⟩, ⟨6, 0, .rk, .any⟩]⟩,
   ⟨0x064, 0x00000A00, false, [⟨12, 0, .rk, .range 1000 6400⟩]⟩,
   ⟨0x070, 0, false, [⟨31, 31, .w1c, .any⟩]⟩,
   ⟨0x074, 0, false, []⟩,
   ⟨0x078, 0, false, []⟩,
   ⟨0x07C, 0, false, []⟩,
   ⟨0x080, 0, false, []⟩]

/-- The field maps of the GTH pages from page offset 0x040 on. -/
def gthMap : List RegDesc :=
  [⟨0x040, 0, false, []⟩,
   ⟨0x044, 0, false, []⟩,
   ⟨0x048, 0, false, []⟩,
   ⟨0x04C, 0, false, []⟩,
   ⟨0x060, 0, false, [⟨31, 31, .rw, .any⟩, ⟨13, 0, .rw, .any⟩]⟩,
   ⟨0x064, 0, false, [⟨31, 0, .dev, .any⟩]⟩,
   ⟨0x068, 0, false, [⟨31, 31, .rw, .any⟩, ⟨13, 0, .rw, .any⟩]⟩,
   ⟨0x06C, 0, false, [⟨15, 0, .dev, .any⟩]⟩]

/-- The field maps of the CSP pages from page offset 0x040 on. -/
def cspMap : List RegDesc :=
  [⟨0x040, 0x00000040, true, [⟨10, 10, .rs, .any⟩, ⟨9, 9, .rs, .any⟩, ⟨8, 8, .rs, .any⟩, ⟨7, 6, .rs, .le 2⟩,
     ⟨5, 4, .rs, .le 2⟩, ⟨3, 3, .rs, .any⟩, ⟨2, 2, .rs, .any⟩, ⟨1, 1, .rs, .any⟩, ⟨0, 0, .rs, .any⟩]⟩,
   ⟨0x050, 0x00002000, true, [⟨31, 16, .rs, .any⟩, ⟨15, 0, .rs, .any⟩]⟩,
   ⟨0x054, 0, true, [⟨31, 16, .rs, .any⟩, ⟨15, 0, .rs, .any⟩]⟩,
   ⟨0x058, 0x20000000, true, [⟨31, 16, .rs, .any⟩, ⟨15, 0, .rs, .any⟩]⟩,
   ⟨0x05C, 0, true, [⟨31, 16, .rs, .any⟩, ⟨15, 0, .rs, .any⟩]⟩,
   ⟨0x060, 0, true, [⟨31, 16, .rs, .any⟩, ⟨15, 0, .rs, .any⟩]⟩,
   ⟨0x064, 0x00002000, true, [⟨31, 16, .rs, .any⟩, ⟨15, 0, .rs, .any⟩]⟩,
   ⟨0x070, 0, false, [⟨31, 31, .rw, .any⟩, ⟨30, 30, .rw, .any⟩, ⟨29, 28, .rw, .le 2⟩, ⟨12, 0, .rw, .any⟩]⟩,
   ⟨0x074, 0, false, [⟨31, 16, .dev, .any⟩, ⟨15, 0, .dev, .any⟩]⟩,
   ⟨0x078, 0, false, [⟨15, 0, .rw, .any⟩]⟩,
   ⟨0x080, 0, false, [⟨31, 31, .rw, .any⟩, ⟨8, 0, .rw, .any⟩]⟩,
   ⟨0x084, 0, false, [⟨31, 0, .dev, .any⟩]⟩]

/-- The field maps of the CNV pages from page offset 0x040 on. -/
def cnvMap : List RegDesc :=
  [⟨0x040, 0, true, [⟨2, 0, .rs, .any⟩]⟩,
   ⟨0x044, 0, true, [⟨31, 0, .rs, .any⟩]⟩,
   ⟨0x048, 0, true, [⟨31, 0, .rs, .any⟩]⟩,
   ⟨0x04C, 0, true, [⟨29, 20, .rs, .any⟩, ⟨19, 10, .rs, .any⟩, ⟨9, 0, .rs, .any⟩]⟩,
   ⟨0x060, 0x00000080, true, [⟨7, 0, .rs, .any⟩]⟩,
   ⟨0x064, 0, true, [⟨31, 31, .rs, .any⟩, ⟨30, 30, .rs, .any⟩, ⟨29, 29, .rs, .any⟩, ⟨15, 0, .rs, .any⟩]⟩,
   ⟨0x068, 0, true, [⟨29, 16, .rs, .any⟩, ⟨13, 0, .rs, .any⟩]⟩,
   ⟨0x06C, 0, false, []⟩,
   ⟨0x080, 0, false, [⟨0, 0, .dev, .any⟩]⟩,
   ⟨0x084, 0, false, []⟩,
   ⟨0x088, 0x08980780, true, [⟨31, 16, .rk, .any⟩, ⟨15, 0, .rk, .any⟩]⟩,
   ⟨0x08C, 0x802C0058, true, [⟨31, 31, .rk, .any⟩, ⟨27, 16, .rk, .any⟩, ⟨11, 0, .rk, .any⟩]⟩,
   ⟨0x090, 0x04650438, true, [⟨31, 16, .rk, .any⟩, ⟨15, 0, .rk, .any⟩]⟩,
   ⟨0x094, 0x80050004, true, [⟨31, 31, .rk, .any⟩, ⟨27, 16, .rk, .any⟩, ⟨11, 0, .rk, .any⟩]⟩,
   ⟨0x098, 0x010295FB, true, [⟨30, 28, .rk, .any⟩, ⟨27, 0, .rk, .any⟩]⟩,
   ⟨0x09C, 0x00000104, true, [⟨9, 8, .rs, .le 2⟩, ⟨4, 0, .rs, .range 2 16⟩]⟩,
   ⟨0x0A0, 0x000011F4, true, [⟨31, 30, .rk, .any⟩, ⟨29, 29, .rk, .any⟩, ⟨22, 16, .rk, .any⟩,
     ⟨15, 10, .rk, .range 1 63⟩, ⟨9, 0, .rk, .range 1 1000⟩]⟩,
   ⟨0x0A4, 0, true, [⟨31, 0, .rk, .any⟩]⟩,
   ⟨0x0A8, 0, false, []⟩,
   ⟨0x0AC, 0, false, []⟩,
   ⟨0x0C0, 0, false, [⟨31, 31, .rk, .any⟩, ⟨30, 30, .rk, .any⟩, ⟨29, 29, .rk, .any⟩, ⟨6, 0, .rk, .any⟩]⟩]

/-- The field maps of the DPT pages from page offset 0x040 on. -/
def dptMap : List RegDesc :=
  [⟨0x040, 0, false, [⟨2, 2, .wok, .any⟩, ⟨1, 1, .wo, .any⟩, ⟨0, 0, .dev, .any⟩]⟩,
   ⟨0x044, 0, false, []⟩,
   ⟨0x048, 0x00006098, true, [⟨15, 12, .rk, .le 6⟩, ⟨11, 8, .rk, .any⟩, ⟨7, 6, .rk, .le 2⟩, ⟨5, 3, .rk, .any⟩]⟩,
   ⟨0x04C, 0, false, []⟩,
   ⟨0x050, 0x000000E4, true, [⟨12, 12, .rk, .any⟩, ⟨11, 8, .rk, .any⟩, ⟨7, 6, .rk, .any⟩, ⟨5, 4, .rk, .any⟩,
     ⟨3, 2, .rk, .any⟩, ⟨1, 0, .rk, .any⟩]⟩,
   ⟨0x054, 0, true, [⟨30, 30, .rs, .any⟩, ⟨29, 25, .rs, .any⟩, ⟨24, 23, .rs, .any⟩, ⟨22, 14, .rs, .any⟩,
     ⟨12, 0, .rs, .any⟩]⟩,
   ⟨0x058, 0, false, []⟩,
   ⟨0x060, 0, false, [⟨31, 31, .wo, .any⟩, ⟨27, 24, .rw, .any⟩, ⟨23, 20, .rw, .any⟩, ⟨19, 0, .rw, .any⟩]⟩,
   ⟨0x064, 0, false, []⟩,
   ⟨0x068, 0, false, [⟨31, 0, .rw, .any⟩]⟩,
   ⟨0x06C, 0, false, [⟨31, 0, .rw, .any⟩]⟩,
   ⟨0x070, 0, false, [⟨31, 0, .rw, .any⟩]⟩,
   ⟨0x074, 0, false, [⟨31, 0, .rw, .any⟩]⟩,
   ⟨0x080, 0, true, [⟨6, 0, .rs, .any⟩]⟩,
   ⟨0x084, 0x00003000, true, [⟨13, 13, .rs, .any⟩, ⟨12, 12, .rs, .any⟩, ⟨9, 8, .rs, .le 2⟩, ⟨6, 0, .rs, .any⟩]⟩,
   ⟨0x088, 0, false, []⟩,
   ⟨0x08C, 0, false, [⟨0, 0, .wok, .any⟩]⟩,
   ⟨0x090, 0x00000014, true, [⟨6, 6, .rs, .any⟩, ⟨5, 4, .rs, .le 2⟩, ⟨3, 2, .rs, .le 2⟩, ⟨1, 0, .rs, .any⟩]⟩,
   ⟨0x0A0, 0, false, []⟩,
   ⟨0x0A4, 0, false, [⟨12, 0, .rw, .any⟩]⟩,
   ⟨0x0A8, 0, false, []⟩,
   ⟨0x0AC, 0, false, []⟩,
   ⟨0x0B0, 0, false, []⟩]

/-- The field maps of timer `t`'s registers in the DMA global page (R222). -/
def timerMap (t : Nat) : List RegDesc :=
  [⟨0x080 + 16 * t, 0, false, [⟨31, 31, .rw, .any⟩, ⟨30, 30, .rw, .any⟩, ⟨29, 29, .rw, .any⟩,
     ⟨21, 16, .rw, .any⟩, ⟨6, 0, .rw, .any⟩]⟩,
   ⟨0x084 + 16 * t, 0, false, [⟨31, 0, .rw, .zeroOr 1000⟩]⟩,
   ⟨0x088 + 16 * t, 0, false, [⟨31, 0, .rw, .any⟩]⟩,
   ⟨0x08C + 16 * t, 0, false, []⟩]

/-- The field maps of the DMA global page from page offset 0x040 on. -/
def dmaMap : List RegDesc :=
  ⟨0x044, 0x00000064, false, [⟨15, 0, .rw, .range 1 65535⟩]⟩ :: (List.range 16).flatMap timerMap

/-- The field maps of the CHAN pages from page offset 0x040 on. -/
def chanMap : List RegDesc :=
  [⟨0x040, 0, false, [⟨2, 2, .wok, .any⟩, ⟨1, 1, .wo, .any⟩, ⟨0, 0, .dev, .any⟩]⟩,
   ⟨0x044, 0, false, []⟩,
   ⟨0x048, 0, true, [⟨31, 26, .rl, .any⟩, ⟨25, 25, .rs, .any⟩, ⟨24, 23, .rs, .le 2⟩,
     ⟨22, 21, .rs, .le 2⟩, ⟨20, 15, .rs, .any⟩]⟩,
   ⟨0x04C, 0, true, [⟨31, 6, .rs, .any⟩]⟩,
   ⟨0x050, 0, true, [⟨31, 0, .rs, .any⟩]⟩,
   ⟨0x054, 0, true, [⟨13, 8, .rs, .any⟩, ⟨5, 0, .rs, .any⟩]⟩,
   ⟨0x058, 0, false, [⟨2, 0, .w1c, .any⟩]⟩,
   ⟨0x05C, 0, false, []⟩,
   ⟨0x060, 0, true, [⟨31, 31, .rs, .any⟩, ⟨14, 0, .rs, .any⟩]⟩,
   ⟨0x064, 0, true, [⟨29, 16, .rs, .any⟩, ⟨13, 0, .rs, .any⟩]⟩,
   ⟨0x068, 0, false, []⟩,
   ⟨0x06C, 0, false, []⟩]

/-- The field maps of the CVU pages from page offset 0x040 on. -/
def cvuMap : List RegDesc :=
  [⟨0x040, 0, false, [⟨6, 6, .rw, .any⟩, ⟨5, 5, .rw, .any⟩, ⟨4, 4, .rw, .any⟩, ⟨3, 3, .wok, .any⟩,
     ⟨2, 2, .wo, .any⟩, ⟨1, 1, .wo, .any⟩, ⟨0, 0, .dev, .any⟩]⟩,
   ⟨0x044, 0, false, []⟩,
   ⟨0x048, 0, false, [⟨31, 26, .rl, .any⟩, ⟨25, 25, .rw, .any⟩, ⟨24, 24, .rw, .any⟩,
     ⟨23, 18, .rw, .any⟩, ⟨8, 8, .rw, .any⟩, ⟨7, 7, .rw, .any⟩, ⟨6, 0, .rw, .any⟩]⟩,
   ⟨0x04C, 0, false, [⟨31, 0, .rw, .any⟩]⟩,
   ⟨0x050, 0, false, [⟨31, 0, .rw, .any⟩]⟩,
   ⟨0x054, 0, false, [⟨31, 0, .rw, .any⟩]⟩,
   ⟨0x058, 0, false, [⟨31, 0, .rw, .any⟩]⟩,
   ⟨0x05C, 0, false, [⟨31, 0, .rw, .any⟩]⟩,
   ⟨0x060, 0, false, [⟨31, 0, .rw, .any⟩]⟩,
   ⟨0x064, 0, false, [⟨31, 0, .rw, .any⟩]⟩,
   ⟨0x068, 0, false, [⟨31, 0, .rw, .any⟩]⟩,
   ⟨0x06C, 0, false, [⟨31, 0, .rw, .any⟩]⟩,
   ⟨0x070, 0, false, [⟨31, 0, .rw, .any⟩]⟩,
   ⟨0x074, 0, false, [⟨31, 0, .rw, .any⟩]⟩,
   ⟨0x078, 0, false, [⟨7, 0, .rw, .any⟩]⟩,
   ⟨0x07C, 0, false, [⟨31, 0, .rw, .any⟩]⟩,
   ⟨0x080, 0, false, [⟨31, 0, .wo, .any⟩]⟩,
   ⟨0x084, 0, false, [⟨31, 0, .wo, .any⟩]⟩,
   ⟨0x088, 0, false, []⟩,
   ⟨0x08C, 0, false, []⟩,
   ⟨0x0C0, 0x00000001, false, [⟨1, 1, .rl, .any⟩, ⟨0, 0, .rl, .any⟩]⟩,
   ⟨0x0C4, 0, false, []⟩]

/-- The field maps of the QUEUE pages from page offset 0x040 on. -/
def queueMap : List RegDesc :=
  [⟨0x040, 0, false, [⟨31, 0, .wo, .any⟩]⟩,
   ⟨0x044, 0, false, [⟨16, 0, .rw, .any⟩]⟩,
   ⟨0x048, 0, false, [⟨16, 0, .dev, .any⟩]⟩,
   ⟨0x04C, 0, false, []⟩,
   ⟨0x050, 0, false, [⟨0, 0, .dev, .any⟩]⟩,
   ⟨0x054, 0, false, []⟩,
   ⟨0x058, 0, false, [⟨4, 0, .rw, .any⟩]⟩,
   ⟨0x05C, 0, false, [⟨31, 6, .rw, .any⟩]⟩,
   ⟨0x060, 0, false, [⟨31, 0, .rw, .any⟩]⟩,
   ⟨0x064, 0, false, [⟨31, 2, .rw, .any⟩, ⟨0, 0, .rw, .any⟩]⟩,
   ⟨0x068, 0, false, [⟨31, 0, .rw, .any⟩]⟩,
   ⟨0x06C, 0x00000801, true, [⟨14, 8, .rs, .range 1 64⟩, ⟨7, 0, .rs, .range 1 255⟩]⟩,
   ⟨0x070, 0, false, [⟨5, 0, .rl, .any⟩]⟩,
   ⟨0x074, 0, false, []⟩]

/-- The field maps of one function's notice set in the CQE global page, by offset within the set (R206, R211). -/
def noticeMap : List RegDesc :=
  [⟨0x00, 0, false, [⟨31, 16, .rw, .any⟩, ⟨13, 8, .rw, .any⟩, ⟨1, 1, .rw, .any⟩, ⟨0, 0, .dev, .any⟩]⟩,
   ⟨0x04, 0, false, [⟨4, 0, .rw, .any⟩]⟩,
   ⟨0x08, 0, false, [⟨31, 6, .rw, .any⟩]⟩,
   ⟨0x0C, 0, false, [⟨31, 0, .rw, .any⟩]⟩,
   ⟨0x10, 0, false, []⟩,
   ⟨0x14, 0, false, [⟨31, 0, .dev, .any⟩]⟩,
   ⟨0x18, 0, false, []⟩,
   ⟨0x1C, 0, false, []⟩,
   ⟨0x20, 0, false, [⟨31, 0, .rw, .any⟩]⟩,
   ⟨0x24, 0, false, [⟨31, 0, .rw, .any⟩]⟩,
   ⟨0x28, 0, false, [⟨31, 0, .rw, .any⟩]⟩,
   ⟨0x2C, 0, false, [⟨31, 0, .rw, .any⟩]⟩]

/-! ### Page offsets of the `HIF_` registers -/

/-- Page offset of `HIF_STAT`. -/
abbrev HIF_STAT : Nat := 0x040
/-- Page offset of `HIF_RST`. -/
abbrev HIF_RST : Nat := 0x044

/-! ### Page offsets of the `CKR_` registers -/

/-- Page offset of `CKR_PLL`. -/
abbrev CKR_PLL : Nat := 0x040
/-- Page offset of `CKR_CCLK`. -/
abbrev CKR_CCLK : Nat := 0x060

/-! ### Page offsets of the `TMB_` registers -/

/-- Page offset of `TMB_CTL`. -/
abbrev TMB_CTL : Nat := 0x040
/-- Page offset of `TMB_STAT`. -/
abbrev TMB_STAT : Nat := 0x044
/-- Page offset of `TMB_SET_LO`. -/
abbrev TMB_SET_LO : Nat := 0x048
/-- Page offset of `TMB_SET_HI`. -/
abbrev TMB_SET_HI : Nat := 0x04C

/-! ### Page offsets of the `SVC_` registers -/

/-- Page offset of `SVC_STAT`. -/
abbrev SVC_STAT : Nat := 0x040
/-- Page offset of `SVC_LOAD`. -/
abbrev SVC_LOAD : Nat := 0x044
/-- Page offset of `SVC_WD`. -/
abbrev SVC_WD : Nat := 0x048
/-- Page offset of `SVC_MB_CMD`. -/
abbrev SVC_MB_CMD : Nat := 0x04C
/-- Page offset of `SVC_MB_STAT`. -/
abbrev SVC_MB_STAT : Nat := 0x050
/-- Page offset of `SVC_MB_ARG`. -/
abbrev SVC_MB_ARG : Nat := 0x054
/-- Page offset of `SVC_MB_RSP`. -/
abbrev SVC_MB_RSP : Nat := 0x064

/-! ### Page offsets of the `ACC_` registers -/

/-- Page offset of `ACC_CTL`. -/
abbrev ACC_CTL : Nat := 0x040
/-- Page offset of `ACC_STAT`. -/
abbrev ACC_STAT : Nat := 0x044
/-- Page offset of `ACC_SEL`. -/
abbrev ACC_SEL : Nat := 0x048
/-- Page offset of `ACC_DATA`. -/
abbrev ACC_DATA : Nat := 0x04C
/-- Page offset of `ACC_DENY`. -/
abbrev ACC_DENY : Nat := 0x05C

/-! ### Page offsets of the `FLT_` registers -/

/-- Page offset of `FLT_STICKY`. -/
abbrev FLT_STICKY : Nat := 0x040
/-- Page offset of `FLT_LIVE`. -/
abbrev FLT_LIVE : Nat := 0x0C0
/-- Page offset of `FLT_MASK`. -/
abbrev FLT_MASK : Nat := 0x140
/-- Page offset of `FLT_PIN`. -/
abbrev FLT_PIN : Nat := 0x1C0
/-- Page offset of `FLT_SUM`. -/
abbrev FLT_SUM : Nat := 0x1C4
/-- Page offset of `FLT_SRC_SEL`. -/
abbrev FLT_SRC_SEL : Nat := 0x1C8
/-- Page offset of `FLT_SRC_CFG`. -/
abbrev FLT_SRC_CFG : Nat := 0x1CC
/-- Page offset of `FLT_SRC_CNT`. -/
abbrev FLT_SRC_CNT : Nat := 0x1D0

/-! ### Page offsets of the `LOG_` registers -/

/-- Page offset of `LOG_WSEQ`. -/
abbrev LOG_WSEQ : Nat := 0x040
/-- Page offset of `LOG_RD_SEQ`. -/
abbrev LOG_RD_SEQ : Nat := 0x044
/-- Page offset of `LOG_RD_STAT`. -/
abbrev LOG_RD_STAT : Nat := 0x048
/-- Page offset of `LOG_RD_D`. -/
abbrev LOG_RD_D : Nat := 0x050

/-! ### Page offsets of the `CRU_` registers -/

/-- Page offset of `CRU_FREE`. -/
abbrev CRU_FREE : Nat := 0x040
/-- Page offset of `CRU_USE`. -/
abbrev CRU_USE : Nat := 0x044
/-- Page offset of `CRU_UREG`. -/
abbrev CRU_UREG : Nat := 0x048
/-- Page offset of `CRU_SCRUB`. -/
abbrev CRU_SCRUB : Nat := 0x04C
/-- Page offset of `CRU_SPARE`. -/
abbrev CRU_SPARE : Nat := 0x050

/-! ### Page offsets of the `LDG_` registers -/

/-- Page offset of `LDG_CTL`. -/
abbrev LDG_CTL : Nat := 0x040
/-- Page offset of `LDG_STAT`. -/
abbrev LDG_STAT : Nat := 0x044
/-- Page offset of `LDG_DERATE`. -/
abbrev LDG_DERATE : Nat := 0x048
/-- Page offset of `LDG_MEM_BUD`. -/
abbrev LDG_MEM_BUD : Nat := 0x04C
/-- Page offset of `LDG_MEM_USED`. -/
abbrev LDG_MEM_USED : Nat := 0x050
/-- Page offset of `LDG_PIPE_BUD`. -/
abbrev LDG_PIPE_BUD : Nat := 0x054
/-- Page offset of `LDG_PIPE_USED`. -/
abbrev LDG_PIPE_USED : Nat := 0x058
/-- Page offset of `LDG_SEQ`. -/
abbrev LDG_SEQ : Nat := 0x05C
/-- Page offset of `LDG_BAND_SEL`. -/
abbrev LDG_BAND_SEL : Nat := 0x060

/-! ### Page offsets of the `SCN_` registers -/

/-- Page offset of `SCN_STAT`. -/
abbrev SCN_STAT : Nat := 0x040

/-! ### Page offsets of the `MRV_` registers -/

/-- Page offset of `MRV_CTL`. -/
abbrev MRV_CTL : Nat := 0x040
/-- Page offset of `MRV_STAT`. -/
abbrev MRV_STAT : Nat := 0x044
/-- Page offset of `MRV_OP`. -/
abbrev MRV_OP : Nat := 0x048
/-- Page offset of `MRV_SIZE`. -/
abbrev MRV_SIZE : Nat := 0x04C
/-- Page offset of `MRV_SRC_LO`. -/
abbrev MRV_SRC_LO : Nat := 0x050
/-- Page offset of `MRV_SRC_HI`. -/
abbrev MRV_SRC_HI : Nat := 0x054
/-- Page offset of `MRV_DST_LO`. -/
abbrev MRV_DST_LO : Nat := 0x058
/-- Page offset of `MRV_DST_HI`. -/
abbrev MRV_DST_HI : Nat := 0x05C
/-- Page offset of `MRV_META_LO`. -/
abbrev MRV_META_LO : Nat := 0x060
/-- Page offset of `MRV_META_HI`. -/
abbrev MRV_META_HI : Nat := 0x064
/-- Page offset of `MRV_SPITCH`. -/
abbrev MRV_SPITCH : Nat := 0x068
/-- Page offset of `MRV_DPITCH`. -/
abbrev MRV_DPITCH : Nat := 0x06C
/-- Page offset of `MRV_MPITCH`. -/
abbrev MRV_MPITCH : Nat := 0x070
/-- Page offset of `MRV_FILL`. -/
abbrev MRV_FILL : Nat := 0x074
/-- Page offset of `MRV_TORG`. -/
abbrev MRV_TORG : Nat := 0x078
/-- Page offset of `MRV_GATE`. -/
abbrev MRV_GATE : Nat := 0x07C
/-- Page offset of `MRV_LINE`. -/
abbrev MRV_LINE : Nat := 0x080
/-- Page offset of `MRV_WMARK`. -/
abbrev MRV_WMARK : Nat := 0x084
/-- Page offset of `MRV_IRQ`. -/
abbrev MRV_IRQ : Nat := 0x088
/-- Page offset of `MRV_EVT`. -/
abbrev MRV_EVT : Nat := 0x08C
/-- Page offset of `MRV_OPS`. -/
abbrev MRV_OPS : Nat := 0x090

/-! ### Page offsets of the `CQE_` registers -/

/-- Page offset of `CQE_GSTAT`. -/
abbrev CQE_GSTAT : Nat := 0x040
/-- Page offset of `CQE_DB`. -/
abbrev CQE_DB : Nat := 0x040
/-- Page offset of `CQE_PIDX`. -/
abbrev CQE_PIDX : Nat := 0x044
/-- Page offset of `CQE_HEAD`. -/
abbrev CQE_HEAD : Nat := 0x048
/-- Page offset of `CQE_CIDX`. -/
abbrev CQE_CIDX : Nat := 0x04C
/-- Page offset of `CQE_CTL`. -/
abbrev CQE_CTL : Nat := 0x050
/-- Page offset of `CQE_STAT`. -/
abbrev CQE_STAT : Nat := 0x054
/-- Page offset of `CQE_SIZE`. -/
abbrev CQE_SIZE : Nat := 0x058
/-- Page offset of `CQE_BASE_LO`. -/
abbrev CQE_BASE_LO : Nat := 0x05C
/-- Page offset of `CQE_BASE_HI`. -/
abbrev CQE_BASE_HI : Nat := 0x060
/-- Page offset of `CQE_HWB_LO`. -/
abbrev CQE_HWB_LO : Nat := 0x064
/-- Page offset of `CQE_HWB_HI`. -/
abbrev CQE_HWB_HI : Nat := 0x068
/-- Page offset of `CQE_ARB`. -/
abbrev CQE_ARB : Nat := 0x06C
/-- Page offset of `CQE_OWN`. -/
abbrev CQE_OWN : Nat := 0x070
/-- Page offset of `CQE_NOTE`. -/
abbrev CQE_NOTE : Nat := 0x074

/-! ### Page offsets of the `MCT_` registers -/

/-- Page offset of `MCT_STAT`. -/
abbrev MCT_STAT : Nat := 0x040
/-- Page offset of `MCT_REF`. -/
abbrev MCT_REF : Nat := 0x044
/-- Page offset of `MCT_RBLD`. -/
abbrev MCT_RBLD : Nat := 0x048
/-- Page offset of `MCT_HASH_LO`. -/
abbrev MCT_HASH_LO : Nat := 0x060
/-- Page offset of `MCT_HASH_HI`. -/
abbrev MCT_HASH_HI : Nat := 0x064
/-- Page offset of `MCT_SITE_CTL`. -/
abbrev MCT_SITE_CTL : Nat := 0x040
/-- Page offset of `MCT_SITE_STAT`. -/
abbrev MCT_SITE_STAT : Nat := 0x044
/-- Page offset of `MCT_SITE_ERR`. -/
abbrev MCT_SITE_ERR : Nat := 0x048
/-- Page offset of `MCT_SITE_THR`. -/
abbrev MCT_SITE_THR : Nat := 0x04C
/-- Page offset of `MCT_LANE_CUR`. -/
abbrev MCT_LANE_CUR : Nat := 0x080
/-- Page offset of `MCT_LANE_TRN`. -/
abbrev MCT_LANE_TRN : Nat := 0x084
/-- Page offset of `MCT_LANE_OVR`. -/
abbrev MCT_LANE_OVR : Nat := 0x088
/-- Page offset of `MCT_LANE_RDEYE`. -/
abbrev MCT_LANE_RDEYE : Nat := 0x08C
/-- Page offset of `MCT_LANE_WREYE`. -/
abbrev MCT_LANE_WREYE : Nat := 0x090
/-- Page offset of `MCT_LANE_STAT`. -/
abbrev MCT_LANE_STAT : Nat := 0x094
/-- Page offset of `MCT_LANE_CTL`. -/
abbrev MCT_LANE_CTL : Nat := 0x098

/-! ### Page offsets of the `LHR_` registers -/

/-- Page offset of `LHR_CTL`. -/
abbrev LHR_CTL : Nat := 0x040
/-- Page offset of `LHR_CFG`. -/
abbrev LHR_CFG : Nat := 0x044
/-- Page offset of `LHR_STAT`. -/
abbrev LHR_STAT : Nat := 0x048
/-- Page offset of `LHR_MOVES`. -/
abbrev LHR_MOVES : Nat := 0x04C

/-! ### Page offsets of the `CMP_` registers -/

/-- Page offset of `CMP_CTL`. -/
abbrev CMP_CTL : Nat := 0x040
/-- Page offset of `CMP_STAT`. -/
abbrev CMP_STAT : Nat := 0x044
/-- Page offset of `CMP_BANDS`. -/
abbrev CMP_BANDS : Nat := 0x048
/-- Page offset of `CMP_CHECKS`. -/
abbrev CMP_CHECKS : Nat := 0x04C
/-- Page offset of `CMP_MISMATCH`. -/
abbrev CMP_MISMATCH : Nat := 0x050
/-- Page offset of `CMP_SKIP`. -/
abbrev CMP_SKIP : Nat := 0x054
/-- Page offset of `CMP_UND_CTL`. -/
abbrev CMP_UND_CTL : Nat := 0x060
/-- Page offset of `CMP_WD`. -/
abbrev CMP_WD : Nat := 0x064
/-- Page offset of `CMP_MM_ID`. -/
abbrev CMP_MM_ID : Nat := 0x070
/-- Page offset of `CMP_MM_LINE`. -/
abbrev CMP_MM_LINE : Nat := 0x074
/-- Page offset of `CMP_MM_CRC_A`. -/
abbrev CMP_MM_CRC_A : Nat := 0x078
/-- Page offset of `CMP_MM_CRC_U`. -/
abbrev CMP_MM_CRC_U : Nat := 0x07C
/-- Page offset of `CMP_MM_CRC_R`. -/
abbrev CMP_MM_CRC_R : Nat := 0x080

/-! ### Page offsets of the `GTH_` registers -/

/-- Page offset of `GTH_STAT`. -/
abbrev GTH_STAT : Nat := 0x040
/-- Page offset of `GTH_FRIT_ERR`. -/
abbrev GTH_FRIT_ERR : Nat := 0x044
/-- Page offset of `GTH_POISON`. -/
abbrev GTH_POISON : Nat := 0x048
/-- Page offset of `GTH_URGENT`. -/
abbrev GTH_URGENT : Nat := 0x04C
/-- Page offset of `GTH_CLUT_IDX`. -/
abbrev GTH_CLUT_IDX : Nat := 0x060
/-- Page offset of `GTH_CLUT_DATA`. -/
abbrev GTH_CLUT_DATA : Nat := 0x064
/-- Page offset of `GTH_COEF_IDX`. -/
abbrev GTH_COEF_IDX : Nat := 0x068
/-- Page offset of `GTH_COEF_DATA`. -/
abbrev GTH_COEF_DATA : Nat := 0x06C

/-! ### Page offsets of the `CSP_` registers -/

/-- Page offset of `CSP_CTL`. -/
abbrev CSP_CTL : Nat := 0x040
/-- Page offset of `CSP_MAT`. -/
abbrev CSP_MAT : Nat := 0x050
/-- Page offset of `CSP_LUT_IDX`. -/
abbrev CSP_LUT_IDX : Nat := 0x070
/-- Page offset of `CSP_LUT_DATA`. -/
abbrev CSP_LUT_DATA : Nat := 0x074
/-- Page offset of `CSP_LUT_DATA_HI`. -/
abbrev CSP_LUT_DATA_HI : Nat := 0x078
/-- Page offset of `CSP_ICS_IDX`. -/
abbrev CSP_ICS_IDX : Nat := 0x080
/-- Page offset of `CSP_ICS_DATA`. -/
abbrev CSP_ICS_DATA : Nat := 0x084

/-! ### Page offsets of the `CNV_` registers -/

/-- Page offset of `CNV_VIEW`. -/
abbrev CNV_VIEW : Nat := 0x040
/-- Page offset of `CNV_ORG_X`. -/
abbrev CNV_ORG_X : Nat := 0x044
/-- Page offset of `CNV_ORG_Y`. -/
abbrev CNV_ORG_Y : Nat := 0x048
/-- Page offset of `CNV_BG`. -/
abbrev CNV_BG : Nat := 0x04C
/-- Page offset of `CNV_PRIO`. -/
abbrev CNV_PRIO : Nat := 0x060
/-- Page offset of `CNV_LDG`. -/
abbrev CNV_LDG : Nat := 0x064
/-- Page offset of `CNV_PAR`. -/
abbrev CNV_PAR : Nat := 0x068
/-- Page offset of `CNV_LDG_STAT`. -/
abbrev CNV_LDG_STAT : Nat := 0x06C
/-- Page offset of `CNV_CTL`. -/
abbrev CNV_CTL : Nat := 0x080
/-- Page offset of `CNV_STAT`. -/
abbrev CNV_STAT : Nat := 0x084
/-- Page offset of `CNV_TIM_H`. -/
abbrev CNV_TIM_H : Nat := 0x088
/-- Page offset of `CNV_TIM_HS`. -/
abbrev CNV_TIM_HS : Nat := 0x08C
/-- Page offset of `CNV_TIM_V`. -/
abbrev CNV_TIM_V : Nat := 0x090
/-- Page offset of `CNV_TIM_VS`. -/
abbrev CNV_TIM_VS : Nat := 0x094
/-- Page offset of `CNV_SCLK`. -/
abbrev CNV_SCLK : Nat := 0x098
/-- Page offset of `CNV_BUF`. -/
abbrev CNV_BUF : Nat := 0x09C
/-- Page offset of `CNV_LOCK`. -/
abbrev CNV_LOCK : Nat := 0x0A0
/-- Page offset of `CNV_LOCK_OFS`. -/
abbrev CNV_LOCK_OFS : Nat := 0x0A4
/-- Page offset of `CNV_LOCK_STAT`. -/
abbrev CNV_LOCK_STAT : Nat := 0x0A8
/-- Page offset of `CNV_POS`. -/
abbrev CNV_POS : Nat := 0x0AC
/-- Page offset of `CNV_SYNC`. -/
abbrev CNV_SYNC : Nat := 0x0C0

/-! ### Page offsets of the `DPT_` registers -/

/-- Page offset of `DPT_CTL`. -/
abbrev DPT_CTL : Nat := 0x040
/-- Page offset of `DPT_STAT`. -/
abbrev DPT_STAT : Nat := 0x044
/-- Page offset of `DPT_LINK`. -/
abbrev DPT_LINK : Nat := 0x048
/-- Page offset of `DPT_LINK_STAT`. -/
abbrev DPT_LINK_STAT : Nat := 0x04C
/-- Page offset of `DPT_LANE`. -/
abbrev DPT_LANE : Nat := 0x050
/-- Page offset of `DPT_DSC`. -/
abbrev DPT_DSC : Nat := 0x054
/-- Page offset of `DPT_HPD`. -/
abbrev DPT_HPD : Nat := 0x058
/-- Page offset of `DPT_AUX_CMD`. -/
abbrev DPT_AUX_CMD : Nat := 0x060
/-- Page offset of `DPT_AUX_STAT`. -/
abbrev DPT_AUX_STAT : Nat := 0x064
/-- Page offset of `DPT_AUX_DATA`. -/
abbrev DPT_AUX_DATA : Nat := 0x068
/-- Page offset of `DPT_SRC`. -/
abbrev DPT_SRC : Nat := 0x080
/-- Page offset of `DPT_PAIR`. -/
abbrev DPT_PAIR : Nat := 0x084
/-- Page offset of `DPT_PAIR_STAT`. -/
abbrev DPT_PAIR_STAT : Nat := 0x088
/-- Page offset of `DPT_PAIR_CMD`. -/
abbrev DPT_PAIR_CMD : Nat := 0x08C
/-- Page offset of `DPT_FMT`. -/
abbrev DPT_FMT : Nat := 0x090
/-- Page offset of `DPT_UNDR`. -/
abbrev DPT_UNDR : Nat := 0x0A0
/-- Page offset of `DPT_LCRC_SEL`. -/
abbrev DPT_LCRC_SEL : Nat := 0x0A4
/-- Page offset of `DPT_LCRC`. -/
abbrev DPT_LCRC : Nat := 0x0A8
/-- Page offset of `DPT_FCRC`. -/
abbrev DPT_FCRC : Nat := 0x0AC
/-- Page offset of `DPT_TXMON`. -/
abbrev DPT_TXMON : Nat := 0x0B0

/-! ### Page offsets of the `DMA_` registers -/

/-- Page offset of `DMA_TMO`. -/
abbrev DMA_TMO : Nat := 0x044
/-- Page offset of `DMA_TMR_CTL`. -/
abbrev DMA_TMR_CTL : Nat := 0x080
/-- Page offset of `DMA_TMR_PER`. -/
abbrev DMA_TMR_PER : Nat := 0x084
/-- Page offset of `DMA_TMR_PHASE`. -/
abbrev DMA_TMR_PHASE : Nat := 0x088
/-- Page offset of `DMA_TMR_CNT`. -/
abbrev DMA_TMR_CNT : Nat := 0x08C
/-- Page offset of `DMA_CH_CTL`. -/
abbrev DMA_CH_CTL : Nat := 0x040
/-- Page offset of `DMA_CH_STAT`. -/
abbrev DMA_CH_STAT : Nat := 0x044
/-- Page offset of `DMA_CH_CFG`. -/
abbrev DMA_CH_CFG : Nat := 0x048
/-- Page offset of `DMA_CH_DESC_LO`. -/
abbrev DMA_CH_DESC_LO : Nat := 0x04C
/-- Page offset of `DMA_CH_DESC_HI`. -/
abbrev DMA_CH_DESC_HI : Nat := 0x050
/-- Page offset of `DMA_CH_IRQ`. -/
abbrev DMA_CH_IRQ : Nat := 0x054
/-- Page offset of `DMA_CH_EVT`. -/
abbrev DMA_CH_EVT : Nat := 0x058
/-- Page offset of `DMA_CH_ERR`. -/
abbrev DMA_CH_ERR : Nat := 0x05C
/-- Page offset of `DMA_CH_FLIP`. -/
abbrev DMA_CH_FLIP : Nat := 0x060
/-- Page offset of `DMA_CH_FLIP_S`. -/
abbrev DMA_CH_FLIP_S : Nat := 0x064
/-- Page offset of `DMA_CH_JOBS`. -/
abbrev DMA_CH_JOBS : Nat := 0x068
/-- Page offset of `DMA_CH_OVR`. -/
abbrev DMA_CH_OVR : Nat := 0x06C

/-! ### Page offsets of the `CVU_` registers -/

/-- Page offset of `CVU_CTL`. -/
abbrev CVU_CTL : Nat := 0x040
/-- Page offset of `CVU_STAT`. -/
abbrev CVU_STAT : Nat := 0x044
/-- Page offset of `CVU_CFG`. -/
abbrev CVU_CFG : Nat := 0x048
/-- Page offset of `CVU_POLY_LO`. -/
abbrev CVU_POLY_LO : Nat := 0x04C
/-- Page offset of `CVU_POLY_HI`. -/
abbrev CVU_POLY_HI : Nat := 0x050
/-- Page offset of `CVU_INIT_LO`. -/
abbrev CVU_INIT_LO : Nat := 0x054
/-- Page offset of `CVU_INIT_HI`. -/
abbrev CVU_INIT_HI : Nat := 0x058
/-- Page offset of `CVU_XOR_LO`. -/
abbrev CVU_XOR_LO : Nat := 0x05C
/-- Page offset of `CVU_XOR_HI`. -/
abbrev CVU_XOR_HI : Nat := 0x060
/-- Page offset of `CVU_EXP_LO`. -/
abbrev CVU_EXP_LO : Nat := 0x064
/-- Page offset of `CVU_EXP_HI`. -/
abbrev CVU_EXP_HI : Nat := 0x068
/-- Page offset of `CVU_ADDR_LO`. -/
abbrev CVU_ADDR_LO : Nat := 0x06C
/-- Page offset of `CVU_ADDR_HI`. -/
abbrev CVU_ADDR_HI : Nat := 0x070
/-- Page offset of `CVU_LEN_LO`. -/
abbrev CVU_LEN_LO : Nat := 0x074
/-- Page offset of `CVU_LEN_HI`. -/
abbrev CVU_LEN_HI : Nat := 0x078
/-- Page offset of `CVU_SEQ`. -/
abbrev CVU_SEQ : Nat := 0x07C
/-- Page offset of `CVU_VAL_LO`. -/
abbrev CVU_VAL_LO : Nat := 0x080
/-- Page offset of `CVU_VAL_HI`. -/
abbrev CVU_VAL_HI : Nat := 0x084
/-- Page offset of `CVU_SCANS`. -/
abbrev CVU_SCANS : Nat := 0x088
/-- Page offset of `CVU_OVR`. -/
abbrev CVU_OVR : Nat := 0x08C
/-- Page offset of `CVU_WCTL`. -/
abbrev CVU_WCTL : Nat := 0x0C0
/-- Page offset of `CVU_WSTAT`. -/
abbrev CVU_WSTAT : Nat := 0x0C4

/-! ## Looking registers up -/

/-- The field maps of a page type. Registers that only instance 0 of `CMP`, `GTH`, `CSP`, `CNV` and `CVU` holds are
left out of the others' maps. -/
def regMap (t : PType) (inst : Nat) : List RegDesc :=
  match t with
  | .hif => hifMap | .ckr => ckrMap | .tmb => tmbMap | .svc => svcMap | .acc => accMap | .flt => fltMap
  | .log => logMap | .cru => cruMap | .ldg => ldgMap | .scn => scnMap | .mrv => mrvMap | .cqe => cqeMap
  | .mct => mctMap | .site => siteMap | .lhr => lhrMap | .dma => dmaMap | .dpt => dptMap | .chan => chanMap
  | .queue => queueMap
  | .cmp => if inst = 0 then cmpMap else cmpMap.filter fun r => decide (r.off < CMP_UND_CTL)
  | .gth => if inst = 0 then gthMap else gthMap.filter fun r => decide (r.off < GTH_CLUT_IDX)
  | .csp => if inst = 0 then cspMap else cspMap.filter fun r => decide (r.off < CSP_ICS_IDX)
  | .cnv => if inst = 0 then cnvMap else cnvMap.filter fun r => decide (r.off < CNV_SYNC)
  | .cvu => if inst = 0 then cvuMap else cvuMap.filter fun r => decide (r.off < CVU_WCTL)

/-- The register at a page offset from 0x040 on, none where the offset is reserved. The notice sets of the CQE global
page lie at 0x300 + 0x30 × *f* (R206). -/
def regDesc (t : PType) (inst off : Nat) : Option RegDesc :=
  if t = .cqe ∧ 0x300 ≤ off ∧ off < 0x300 + 0x30 * 64 then
    (noticeMap.find? fun r => decide (r.off = (off - 0x300) % 0x30)).map fun r => { r with off := off }
  else
    (regMap t inst).find? fun r => decide (r.off = off)

/-- The BAR0 offset of a register of instance `i` of a type. -/
def regAt (t : PType) (i off : Nat) : Nat := 0x4000 * (t.page + i) + off

/-- The word a register holds after cold reset: the field map's, but for the two registers whose reset depends on the
instance: `DPT_SRC.CANVAS` of port *n* is *n* (R26) and `CMP_CTL.REQ` of the spares is 1 (R126). -/
def regReset (t : PType) (i off : Nat) : Word :=
  match t with
  | .dpt => if off = DPT_SRC then BitVec.ofNat 32 i else ((regDesc t i off).map RegDesc.reset).getD 0
  | .cmp => if off = CMP_CTL ∧ 12 ≤ i then 1 else ((regDesc t i off).map RegDesc.reset).getD 0
  | _ => ((regDesc t i off).map RegDesc.reset).getD 0

/-- The reset word of a BAR0 offset. -/
def resetAt (a : Nat) : Word :=
  match pageOf (a / 0x4000) with
  | some (t, i) => regReset t i (a % 0x4000)
  | none => 0

/-- Whether a register holds an RK field (R325): the page header's `PAGE_CTL` does. -/
def RegDesc.keyed (r : RegDesc) : Bool := r.fields.any fun f => f.acc.keyed

/-- Whether every writable field of a register is WO (R323). -/
def RegDesc.actionOnly (r : RegDesc) : Bool := r.fields.all fun f => f.acc = .wo || f.acc = .wok

/-- The mask of the fields that a read returns from the register file. -/
def RegDesc.storedMask (r : RegDesc) : Word :=
  r.fields.foldl (fun m f => if f.acc.stored then m ||| maskOf f.hi f.lo else m) 0

/-- The mask of the fields that an alias write carries (R323). -/
def RegDesc.aliasMask (r : RegDesc) : Word :=
  r.fields.foldl (fun m f => if f.acc.aliased then m ||| maskOf f.hi f.lo else m) 0

/-- Whether a page type has staged registers, RK fields and RL fields (`PAGE_CAP`, R408). -/
def PType.capBits (t : PType) : Nat :=
  let m := if t = .cqe then noticeMap else regMap t 0
  (if m.any (·.staged) then 1 else 0) + (if m.any (·.keyed) then 2 else 0) +
  (if m.any (fun r => r.fields.any fun f => f.acc.locked) then 4 else 0)

end Sys2Proof.Machine
end

