-- ==== Sys2Proof/Machine/Ops.lean ====
section
/-!
DEFINITION. The named operations over the device: its units, its register file, its memory, the firing of fault sources,
messages to the host, notices and the completion of queue entries.
-/
namespace Sys2Proof.Machine

/-! ## Units -/

/-- A pipe's state after reset: pipes 12 and 13 are the spares (R126). -/
def pipeDefault (p : Nat) : Pipe := if 12 ≤ p then { role := .spare } else {}

/-- Canvas `c`. -/
def Dev.canvas (d : Dev) (c : Nat) : Canvas := FMap.get (fun _ => {}) d.canvases c
/-- `d` with canvas `c` replaced. -/
def Dev.setCanvas (c : Nat) (x : Canvas) (d : Dev) : Dev := { d with canvases := FMap.put (fun _ => {}) d.canvases c x }
/-- Queue `q`. -/
def Dev.queue (d : Dev) (q : Nat) : Queue := FMap.get (fun _ => {}) d.queues q
/-- `d` with queue `q` replaced. -/
def Dev.setQueue (q : Nat) (x : Queue) (d : Dev) : Dev := { d with queues := FMap.put (fun _ => {}) d.queues q x }
/-- Notice ring `f`. -/
def Dev.ring (d : Dev) (f : Nat) : NRing := FMap.get (fun _ => {}) d.rings f
/-- `d` with notice ring `f` replaced. -/
def Dev.setRing (f : Nat) (x : NRing) (d : Dev) : Dev := { d with rings := FMap.put (fun _ => {}) d.rings f x }
/-- Port `n`. -/
def Dev.port (d : Dev) (n : Nat) : Port := FMap.get (fun _ => {}) d.ports n
/-- `d` with port `n` replaced. -/
def Dev.setPort (n : Nat) (x : Port) (d : Dev) : Dev := { d with ports := FMap.put (fun _ => {}) d.ports n x }
/-- DMA channel `c`. -/
def Dev.chan (d : Dev) (c : Nat) : Chan := FMap.get (fun _ => {}) d.chans c
/-- `d` with DMA channel `c` replaced. -/
def Dev.setChan (c : Nat) (x : Chan) (d : Dev) : Dev := { d with chans := FMap.put (fun _ => {}) d.chans c x }
/-- DMA timer `t`. -/
def Dev.timer (d : Dev) (t : Nat) : Timer := FMap.get (fun _ => {}) d.timers t
/-- `d` with DMA timer `t` replaced. -/
def Dev.setTimer (t : Nat) (x : Timer) (d : Dev) : Dev := { d with timers := FMap.put (fun _ => {}) d.timers t x }
/-- Scan engine `e`. -/
def Dev.engine (d : Dev) (e : Nat) : Engine := FMap.get (fun _ => {}) d.engines e
/-- `d` with scan engine `e` replaced. -/
def Dev.setEngine (e : Nat) (x : Engine) (d : Dev) : Dev := { d with engines := FMap.put (fun _ => {}) d.engines e x }
/-- Witness region `r`. -/
def Dev.region (d : Dev) (r : Nat) : Region := FMap.get (fun _ => {}) d.regions r
/-- `d` with witness region `r` replaced. -/
def Dev.setRegion (r : Nat) (x : Region) (d : Dev) : Dev := { d with regions := FMap.put (fun _ => {}) d.regions r x }
/-- Compose pipe `p`. -/
def Dev.pipe (d : Dev) (p : Nat) : Pipe := FMap.get pipeDefault d.comp.pipes p
/-- `d` with compose pipe `p` replaced. -/
def Dev.setPipe (p : Nat) (x : Pipe) (d : Dev) : Dev :=
  { d with comp := { d.comp with pipes := FMap.put pipeDefault d.comp.pipes p x } }
/-- Gather unit `g`. -/
def Dev.gather (d : Dev) (g : Nat) : Gather := FMap.get (fun _ => {}) d.comp.gather g
/-- `d` with Gather unit `g` replaced. -/
def Dev.setGather (g : Nat) (x : Gather) (d : Dev) : Dev :=
  { d with comp := { d.comp with gather := FMap.put (fun _ => {}) d.comp.gather g x } }
/-- GDDR7 site `s`. -/
def Dev.site (d : Dev) (s : Nat) : Site := FMap.get (fun _ => {}) d.mct.sites s
/-- `d` with site `s` replaced. -/
def Dev.setSite (s : Nat) (x : Site) (d : Dev) : Dev :=
  { d with mct := { d.mct with sites := FMap.put (fun _ => {}) d.mct.sites s x } }
/-- Ganged channel `g`. -/
def Dev.gang (d : Dev) (g : Nat) : Gang := FMap.get (fun _ => {}) d.mct.gangs g
/-- `d` with ganged channel `g` replaced. -/
def Dev.setGang (g : Nat) (x : Gang) (d : Dev) : Dev :=
  { d with mct := { d.mct with gangs := FMap.put (fun _ => {}) d.mct.gangs g x } }
/-- Byte lane `l`. -/
def Dev.lane (d : Dev) (l : Nat) : Lane := FMap.get (fun _ => {}) d.mct.lanes l
/-- `d` with byte lane `l` replaced. -/
def Dev.setLane (l : Nat) (x : Lane) (d : Dev) : Dev :=
  { d with mct := { d.mct with lanes := FMap.put (fun _ => {}) d.mct.lanes l x } }
/-- Window entry `i` as the last completed transaction left it (R39). -/
def Dev.winEnt (d : Dev) (i : Nat) : WinEnt := FMap.get (fun _ => {}) d.scene.wins i
/-- Surface entry `j` as the last completed transaction left it (R39). -/
def Dev.surfEnt (d : Dev) (j : Nat) : SurfEnt := FMap.get (fun _ => {}) d.scene.surfs j

/-! ## The register file -/

/-- The word in effect at a BAR0 offset. -/
def Dev.effAt (d : Dev) (a : Nat) : Word := FMap.get resetAt d.regs.eff a
/-- The word in effect in a register of a page. -/
def Dev.reg (d : Dev) (t : PType) (i off : Nat) : Word := d.effAt (regAt t i off)
/-- `d` with the word in effect at a BAR0 offset replaced. -/
def Dev.setEffAt (a : Nat) (w : Word) (d : Dev) : Dev :=
  { d with regs := { d.regs with eff := FMap.put resetAt d.regs.eff a w } }
/-- `d` with the word in effect in a register of a page replaced. -/
def Dev.setReg (t : PType) (i off : Nat) (w : Word) (d : Dev) : Dev := d.setEffAt (regAt t i off) w
/-- The staged word at a BAR0 offset, if one waits. -/
def Dev.stagedAt (d : Dev) (a : Nat) : Option Word := FMap.get (fun _ => none) d.regs.staged a
/-- The admitted word at a BAR0 offset that waits for its latch point, if any (R330). -/
def Dev.admittedAt (d : Dev) (a : Nat) : Option Word := FMap.get (fun _ => none) d.regs.admitted a
/-- `d` with the staged word at a BAR0 offset replaced. -/
def Dev.setStagedAt (a : Nat) (w : Option Word) (d : Dev) : Dev :=
  { d with regs := { d.regs with staged := FMap.put (fun _ => none) d.regs.staged a w } }
/-- `d` with the admitted word at a BAR0 offset replaced. -/
def Dev.setAdmittedAt (a : Nat) (w : Option Word) (d : Dev) : Dev :=
  { d with regs := { d.regs with admitted := FMap.put (fun _ => none) d.regs.admitted a w } }
/-- What a read of a stored register returns: the last value written to it (R8, R9). -/
def Dev.viewAt (d : Dev) (a : Nat) : Word :=
  match d.stagedAt a with
  | some w => w
  | none => (d.admittedAt a).getD (d.effAt a)
/-- What a read of a stored register of a page returns. -/
def Dev.view (d : Dev) (t : PType) (i off : Nat) : Word := d.viewAt (regAt t i off)
/-- Field [hi:lo] of the register in effect. -/
def Dev.fld (d : Dev) (t : PType) (i off hi lo : Nat) : Nat := bits (d.reg t i off) hi lo
/-- Bit `n` of the register in effect. -/
def Dev.flg (d : Dev) (t : PType) (i off n : Nat) : Bool := bit (d.reg t i off) n
/-- A 64-bit value from a LO and a HI register. -/
def Dev.pair (d : Dev) (t : PType) (i off : Nat) : Quad := quad (d.reg t i off) (d.reg t i (off + 4))

/-- The staged words of a page, by page offset. -/
def Dev.stagedOf (d : Dev) (t : PType) (i : Nat) : List (Nat × Word) :=
  d.regs.staged.filterMap fun (a, w) =>
    if a / 0x4000 = t.page + i then w.map fun w => (a % 0x4000, w) else none
/-- The admitted words of a page that wait, by page offset. -/
def Dev.admittedOf (d : Dev) (t : PType) (i : Nat) : List (Nat × Word) :=
  d.regs.admitted.filterMap fun (a, w) =>
    if a / 0x4000 = t.page + i then w.map fun w => (a % 0x4000, w) else none
/-- `d` without the staged words of a page. -/
def Dev.dropStaged (t : PType) (i : Nat) (d : Dev) : Dev :=
  { d with regs := { d.regs with staged := d.regs.staged.filter fun e => e.1 / 0x4000 ≠ t.page + i } }
/-- `d` with (page offset, word) pairs put into effect in a page. -/
def Dev.setRegs (t : PType) (i : Nat) (l : List (Nat × Word)) (d : Dev) : Dev :=
  l.foldl (fun d e => d.setReg t i e.1 e.2) d
/-- `d` with a page's registers at their reset values and nothing staged (R332). -/
def Dev.resetPage (n : Nat) (d : Dev) : Dev :=
  { d with regs := { d.regs with
      eff := d.regs.eff.filter fun e => e.1 / 0x4000 ≠ n
      staged := d.regs.staged.filter fun e => e.1 / 0x4000 ≠ n
      admitted := d.regs.admitted.filter fun e => e.1 / 0x4000 ≠ n
      arms := d.regs.arms.filter fun e => e.1 / 128 ≠ n
      hold := FMap.erase d.regs.hold n
      discarded := FMap.erase d.regs.discarded n
      snaps := FMap.erase d.regs.snaps n } }

/-- Whether master `m` holds an arm on page `n` (R325). -/
def Dev.armed (d : Dev) (n m : Nat) : Bool := FMap.get (fun _ => false) d.regs.arms (n * 128 + m)
/-- `d` with master `m`'s arm on page `n` set or withdrawn. -/
def Dev.setArm (n m : Nat) (b : Bool) (d : Dev) : Dev :=
  { d with regs := { d.regs with arms := FMap.put (fun _ => false) d.regs.arms (n * 128 + m) b } }
/-- `PAGE_STAGE.HOLD` of page `n`. -/
def Dev.held (d : Dev) (n : Nat) : Bool := FMap.get (fun _ => false) d.regs.hold n
/-- `d` with `PAGE_STAGE.DISCARDED` of page `n` set or cleared (R331). -/
def Dev.setDiscarded (n : Nat) (b : Bool) (d : Dev) : Dev :=
  { d with regs := { d.regs with discarded := FMap.put (fun _ => false) d.regs.discarded n b } }

/-! ## Time -/

/-- The present timebase value (R368). -/
def Dev.time (d : Dev) : Quad := d.tb.count

/-- The compose clock in Hz (R363, R367). -/
def Dev.cclkHz (d : Dev) : Nat := d.clk.cclk * 1000000

/-! ## Fault sources (R337 to R352) -/

/-- What the table of sources says of a source: its severity, whether it is a level source, and its allowed reactions,
the reset reaction first (0 none, 1 log, 2 fence). -/
structure SrcInfo where
  sev : Nat
  level : Bool
  reacts : List Nat
  deriving DecidableEq, Repr

/-- The table of sources (R352). -/
def srcTable : List (Nat × SrcInfo) :=
  [(0, ⟨0, false, [1]⟩), (1, ⟨1, false, [1]⟩), (2, ⟨0, false, [1]⟩), (32, ⟨1, true, [1, 0]⟩), (64, ⟨2, true, [1]⟩),
   (96, ⟨0, true, [1, 0]⟩), (128, ⟨1, false, [1]⟩), (129, ⟨1, true, [1]⟩), (130, ⟨1, true, [1, 0]⟩),
   (131, ⟨2, true, [1]⟩), (132, ⟨2, true, [1]⟩), (160, ⟨0, false, [1]⟩), (192, ⟨1, false, [1, 0]⟩),
   (193, ⟨2, false, [1]⟩), (194, ⟨2, true, [1]⟩), (195, ⟨1, true, [1]⟩), (224, ⟨3, true, [1]⟩),
   (256, ⟨2, true, [1]⟩), (257, ⟨0, false, [1]⟩), (258, ⟨0, true, [1]⟩), (288, ⟨2, true, [2]⟩),
   (289, ⟨2, true, [2]⟩), (290, ⟨0, true, [1]⟩), (291, ⟨0, false, [1, 0]⟩), (292, ⟨3, true, [1]⟩)] ++
  [(320, ⟨0, false, [1, 0]⟩), (352, ⟨1, true, [1, 0]⟩), (353, ⟨0, true, [1, 0]⟩), (354, ⟨3, true, [1]⟩),
   (384, ⟨2, true, [2, 1]⟩), (385, ⟨2, true, [1]⟩), (386, ⟨0, true, [1]⟩), (387, ⟨2, true, [1]⟩),
   (416, ⟨0, false, [1]⟩), (417, ⟨2, true, [1]⟩), (418, ⟨2, true, [2]⟩), (448, ⟨0, false, [1]⟩),
   (480, ⟨0, false, [1]⟩), (481, ⟨0, false, [1]⟩), (482, ⟨2, true, [2, 1]⟩), (483, ⟨2, true, [1]⟩),
   (484, ⟨2, true, [1]⟩), (512, ⟨1, false, [1, 0]⟩), (513, ⟨2, false, [1]⟩), (514, ⟨2, true, [2, 1]⟩),
   (515, ⟨2, true, [1]⟩), (516, ⟨1, true, [1]⟩), (517, ⟨3, true, [1]⟩), (518, ⟨0, false, [1]⟩),
   (544, ⟨1, true, [1]⟩), (545, ⟨2, true, [1]⟩)]

/-- The table row of source `n`, none for a reserved number. -/
def srcInfo (n : Nat) : Option SrcInfo := (srcTable.find? fun e => e.1 == n).map (·.2)

/-- The severity of a source. -/
def srcSev (n : Nat) : Nat := ((srcInfo n).map SrcInfo.sev).getD 0

/-- `FLT_SRC_CFG` of source `n`: as written, or its reset value. -/
def Dev.srcCfg (d : Dev) (n : Nat) : SrcCfg :=
  (FMap.get (fun _ => none) d.flt.cfg n).getD
    { react := match srcInfo n with | some i => i.reacts.headD 0 | none => 0 }

/-- Whether the reaction chosen for source `n` is fence (R340, R341). -/
def Dev.fences (d : Dev) (n : Nat) : Bool := (d.srcCfg n).react = 2

/-- Source `src` fires for a unit instance: the firing sets out for the collector (R338). -/
def Dev.fire (src inst : Nat) (detail : BitVec 128) (d : Dev) : Dev :=
  { d with flt := { d.flt with arrivals := d.flt.arrivals ++ [{ src := src, inst := inst, detail := detail }] } }

/-- A detail with `v` at bit `lo`. -/
def dbits (lo : Nat) (v : Nat) : BitVec 128 := BitVec.ofNat 128 (v <<< lo)

/-! ## The device address map (R407, R295) -/

/-- Where a device address lies. -/
inductive AddrKind where
  /-- Installed GDDR7. -/
  | gddr
  /-- The assigned 80 MiB of the Crucible window, with the window offset. -/
  | cru (off : Nat)
  /-- Host memory: bit 63 set. -/
  | host
  /-- Every other address: a request completes with error status. -/
  | unmapped
  deriving DecidableEq, Repr

/-- The data capacity in bytes (R261). -/
def Dev.capacity (d : Dev) : Nat := if d.mct.dens4 then 0x1000000000 else 0x800000000

/-- Where device address `a` lies (R407). -/
def Dev.kindOf (d : Dev) (a : Nat) : AddrKind :=
  if 0x8000000000000000 ≤ a then .host
  else if a < d.capacity then .gddr
  else if 0x10000000000 ≤ a ∧ a < 0x10005000000 then .cru (a - 0x10000000000)
  else .unmapped

/-- The size in bytes of the user region (R295). -/
def Dev.userBytes (d : Dev) : Nat := 4096 * d.fld .cru 0 CRU_UREG 14 0

/-- Whether a window offset may be read: the four tables and the user region (R295). -/
def Dev.cruReadable (d : Dev) (off : Nat) : Bool := decide (off < 0x560000 + d.userBytes)
/-- Whether a window offset may be written: the user region alone (R295). -/
def Dev.cruWritable (d : Dev) (off : Nat) : Bool := decide (0x560000 ≤ off) && decide (off < 0x560000 + d.userBytes)

/-- What a byte of memory that nothing has written reads as (DESIGN CHOICE, notes/assumptions/2.md). -/
def memDefault (_ : Nat) : Byte := 0

/-- The canvas's active width and height in pixels and lines, from its timing in effect. -/
def Dev.activeSize (d : Dev) (c : Nat) : Nat × Nat := (d.fld .cnv c CNV_TIM_H 15 0, d.fld .cnv c CNV_TIM_V 15 0)

/-- `GEOM` of a region: its rectangle does not lie within the canvas's active area (R253). -/
def Dev.regionGeom (d : Dev) (r : Region) : Bool :=
  let (w, h) := d.activeSize r.canvas
  decide (w < bits (r.at 1) 15 0 + bits (r.at 2) 15 0) || decide (h < bits (r.at 1) 31 16 + bits (r.at 2) 31 16)

/-- The word at a Crucible window offset that is a multiple of 4. -/
def Dev.cruWord (d : Dev) (off : Nat) : Word :=
  if off < 0x400000 then wordAt (d.winEnt (off / 128)).words (off % 128 / 4)
  else if off < 0x500000 then wordAt (d.surfEnt ((off - 0x400000) / 64)).words (off % 64 / 4)
  else if off < 0x540000 then
    let r := d.region ((off - 0x500000) / 64)
    wordAt (r.read (d.regionGeom r)) (off % 64 / 4)
  else wordAt (logWords srcSev (FMap.get (fun _ => none) d.flt.log ((off - 0x540000) / 32))) (off % 32 / 4)

/-- The byte a device address holds. The tables of the Crucible window are read from the tables themselves. -/
def Dev.byte (d : Dev) (a : Nat) : Byte :=
  match d.kindOf a with
  | .cru off =>
    if off < 0x560000 then (d.cruWord (off - off % 4)).extractLsb' (8 * (off % 4)) 8
    else FMap.get memDefault d.mem a
  | .gddr | .host => FMap.get memDefault d.mem a
  | .unmapped => 0

/-- `n` bytes from a device address on. -/
def Dev.bytes (d : Dev) : Nat → Nat → List Byte
  | _, 0 => []
  | a, n + 1 => d.byte a :: d.bytes (a + 1) n

/-- `d` with one byte of memory written. -/
def Dev.setByte (a : Nat) (b : Byte) (d : Dev) : Dev := { d with mem := FMap.put memDefault d.mem a b }

/-- `d` with bytes of memory written from address `a` on. -/
def Dev.setBytes : Nat → List Byte → Dev → Dev
  | _, [], d => d
  | a, b :: bs, d => Dev.setBytes (a + 1) bs (d.setByte a b)

/-! ## Access control (R306, R312) -/

/-- The windows of a slot that are enabled and grant the access, as (base, inclusive limit). -/
def Dev.windowsOf (d : Dev) (slot : Nat) (write : Bool) : List (Nat × Nat) :=
  (List.range 16).filterMap fun k =>
    let (w0, w1, w2, w3) :=
      FMap.get (fun e => if e = 0 then (7, 0, 0xFFFFF000, 0xFFFFFFFF) else (0, 0, 0, 0)) d.acc.windows (slot * 16 + k)
    if bit w0 2 ∧ bit w0 (if write then 1 else 0) then
      some ((quad (w0 &&& 0xFFFFF000) w1).toNat, (quad (w2 ||| 0xFFF) w3).toNat)
    else none

/-- Whether windows cover every byte from `a` to `last`; each round takes the window that holds `a` and reaches
furthest. -/
def covered (ws : List (Nat × Nat)) : Nat → Nat → Nat → Bool
  | 0, _, _ => false
  | fuel + 1, a, last =>
    let reach := ws.foldl (fun r w => if w.1 ≤ a ∧ a ≤ w.2 then max r (w.2 + 1) else r) 0
    if reach = 0 then false else if last < reach then true else covered ws fuel reach last

/-- Whether a request of `len` bytes of master `mid` is allowed by the memory windows (R305, R306). -/
def Dev.allowed (d : Dev) (mid a len : Nat) (write : Bool) : Bool :=
  if mid < 64 then covered (d.windowsOf mid write) 17 a (a + len - 1)
  else if mid = 65 then covered (d.windowsOf 64 write) 17 a (a + len - 1)
  else true

/-- A denial: the count and the record of the last denial, and the access-denied source (R312, R318). Targets: 0 memory,
1 scene index, 2 surface index, 3 register page. -/
def Dev.deny (mid target : Nat) (write : Bool) (addr : Nat) (d : Dev) : Dev :=
  let d := { d with acc := { d.acc with
    deny := d.acc.deny + 1
    denyAddr := BitVec.ofNat 64 addr
    denyInfo := place 6 0 mid ||| place 9 8 target ||| flag 12 write
    denyTb := d.time } }
  d.fire 160 mid (dbits 0 (addr % 2 ^ 64) ||| dbits 64 mid ||| dbits 72 target ||| dbits 76 (if write then 1 else 0))

/-! ## Atoms of GDDR7 (R262, R267, R269, R275, R276) -/

/-- The exclusive or of the bits of `a` that a mask selects. -/
def maskParity (mask a : Nat) : Bool :=
  (List.range 40).foldl (fun p i => p != (Nat.testBit mask i && Nat.testBit a i)) false

/-- `MCT_HASH` mask `n` in effect: bits [39:0] (R267). -/
def Dev.hashMask (d : Dev) (n : Nat) : Nat :=
  (d.reg .mct 0 (MCT_HASH_LO + 8 * n)).toNat + 2 ^ 32 * bits (d.reg .mct 0 (MCT_HASH_HI + 8 * n)) 7 0

/-- Selection bit `n` of the atom at address `a`. -/
def Dev.hashBit (d : Dev) (n a : Nat) : Nat := (maskParity (d.hashMask n) a).toNat

/-- The ganged channel of an atom (R267). -/
def Dev.gangOf (d : Dev) (t : Nat) : Nat := d.hashBit 0 (256 * t) + 2 * d.hashBit 1 (256 * t)

/-- The bank of an atom within its ganged channel: 4 × bank group + bank (R267). -/
def Dev.bankOf (d : Dev) (t : Nat) : Nat :=
  4 * (d.hashBit 2 (256 * t) + 2 * d.hashBit 3 (256 * t)) + d.hashBit 4 (256 * t) + 2 * d.hashBit 5 (256 * t)

/-- The rows of a bank. -/
def Dev.rowsOf (d : Dev) : Nat := if d.mct.dens4 then 32768 else 16384

/-- The atoms of the capacity: *A* of R278. -/
def Dev.atomCount (d : Dev) : Nat := d.capacity / 256

/-- The place of an atom in the order of the copy pointer: ganged channel by channel, bank by bank, row by row and
column by column (R276). -/
def Dev.copyIndex (d : Dev) (t : Nat) : Nat :=
  ((d.gangOf t * 16 + d.bankOf t) * d.rowsOf + t / 8192 % d.rowsOf) * 128 + t % 128

/-- The positions that are unavailable for reads of atom `t`: a position under rebuild is until its ganged channel has
switched, and one whose rebuild stopped unless the atom's spare copy is complete (R275, R276). -/
def Dev.unavailable (d : Dev) (t : Nat) : List Nat :=
  d.mct.gone ++ match d.mct.spare with
    | .pending p => [p]
    | .rebuilding p => if (d.gang (d.gangOf t)).switched then [] else [p]
    | .stopped p => if d.copyIndex t < d.mct.ptr then [] else [p]
    | .idle | .substituted _ | .none => []

/-- Reads of atom `t` are uncorrectable: the atom is marked, or two positions are unavailable for it (R269). -/
def Dev.atomBad (d : Dev) (t : Nat) : Bool := d.mct.poison.contains t || decide (2 ≤ (d.unavailable t).length)

/-- The site that serves position `p` for atom `t` (R260, R276). -/
def Dev.servingSite (d : Dev) (t p : Nat) : Nat :=
  match d.mct.spare with
  | .substituted q | .rebuilding q | .stopped q => if p = q ∧ p ∉ d.unavailable t then 17 else p
  | .idle | .pending _ | .none => p

/-! ## Bank queues (R264 to R266, R271, R273) -/

/-- The queue of a bank. -/
def Gang.bankQueue (x : Gang) (b : Nat) : List BankReq := FMap.get (fun _ => []) x.queues b
/-- The gang with a bank's queue replaced. -/
def Gang.setBankQueue (b : Nat) (q : List BankReq) (x : Gang) : Gang :=
  { x with queues := FMap.put (fun _ => []) x.queues b q }

/-- The atom of a request. -/
def atomOf (r : MemReq) : Nat := r.addr.toNat / 256

/-- A write that does not cover its atom: a read-modify-write (R264). -/
def isPartial (r : MemReq) : Bool := r.data.isSome && decide (r.len ≠ 256)

/-- A bank queue has room for a request of a class (R271). -/
def hasRoom (cls : Nat) (q : List BankReq) : Bool := decide (q.length < if 3 ≤ cls then 24 else 32)

/-- The bank takes a command: it is not refreshing (R272, R273). -/
def Dev.bankReady (d : Dev) (x : Gang) (b : Nat) : Bool := decide (FMap.get (fun _ => 0) x.refreshing b ≤ d.now)

/-- The atoms of the read-modify-writes under way in a gang: no other request to them comes between (R264). -/
def Gang.merging (x : Gang) : List Nat := (x.inflight.filter fun f => isPartial f.req).map fun f => atomOf f.req

/-- A unit's access to atom `t` in a class enters its bank queue and is performed in the same step: the queue has room, no
older request to the atom waits there, and the bank takes a command (R264, R265, R271, R273; notes/assumptions/34.md). -/
def Dev.bankServes (d : Dev) (cls t : Nat) : Bool :=
  let x := d.gang (d.gangOf t)
  let q := x.bankQueue (d.bankOf t)
  hasRoom cls q && q.all (fun o => atomOf o.req ≠ t) && !x.merging.contains t && d.bankReady x (d.bankOf t)

/-- As for an atom, of every atom that a span of installed GDDR7 touches; any other span waits for no bank. -/
def Dev.served (d : Dev) (cls a len : Nat) : Bool :=
  d.kindOf a ≠ .gddr || ((List.range ((a + len - 1) / 256 + 1 - a / 256)).all fun k => d.bankServes cls (a / 256 + k))

/-- A request of a unit of pipe `p` rises to class 1, with the older requests to its atom (R89, R266). -/
def raiseOf (p : Nat) : List BankReq → List BankReq
  | [] => []
  | o :: rest =>
    let own := fun (e : BankReq) => e.req.mid.val = 68 && e.req.tag / 8 = 64 + p
    (if own o || rest.any (fun e => own e && atomOf e.req = atomOf o.req) then { o with req := { o.req with cls := 1 } } else o)
      :: raiseOf p rest

/-- The requests of the Gather units of pipe `p` that wait in bank queues rise to class 1 (R89). -/
def Dev.raiseGather (p : Nat) (d : Dev) : Dev :=
  { d with mct := { d.mct with
      gangs := d.mct.gangs.map fun e => (e.1, { e.2 with queues := e.2.queues.map fun k => (k.1, raiseOf p k.2) })
      waiting := d.mct.waiting.map fun r => if r.mid.val = 68 ∧ r.tag / 8 = 64 + p then { r with cls := 1 } else r } }

/-! ## Tags (R279) -/

/-- The tag of a requester. Queue *q* has tag *q*, DMA channel *c* tag 256 + *c*, Marver tag 320, scan engine *e* tag
384 + *e*, and Gather unit *g* tag 512 + *g* (DESIGN CHOICE, notes/assumptions/17.md). -/
def Dev.tag (d : Dev) (k : Nat) : Tag := FMap.get (fun _ => {}) d.mct.tags k

/-- The tag's outstanding request, of master `mid`, times out, or its requester is fenced: the generation increases and
the tag is freed (R279). -/
def Dev.freeTag (k mid : Nat) (d : Dev) : Dev :=
  let t := d.tag k
  { d with mct := { d.mct with
      tags := FMap.put (fun _ => {}) d.mct.tags k { gen := t.gen + 1, stale := t.stale ++ [{ mid := mid }] } } }

/-- The requester of a tag has drained: the generation increases (R279). -/
def Dev.renewTag (k : Nat) (d : Dev) : Dev :=
  let t := d.tag k
  { d with mct := { d.mct with tags := FMap.put (fun _ => {}) d.mct.tags k { t with gen := t.gen + 1 } } }

/-- The write that a tag's latest freed request was may still be performed (R279). -/
def Dev.keepWrite (k : Nat) (ws : List (Nat × List Byte)) (d : Dev) : Dev :=
  let t := d.tag k
  let stale := t.stale.dropLast ++ (t.stale.getLast?.toList.map fun x => { x with writes := ws })
  { d with mct := { d.mct with tags := FMap.put (fun _ => {}) d.mct.tags k { t with stale := stale } } }

/-- A response arrives for a requester that waits for none. Where a request of it was freed, this is its response: it is
dropped, counted, and mem-late-response fires (R279). -/
def Dev.lateResponse (k : Nat) (d : Dev) : Dev :=
  let t := d.tag k
  match t.stale with
  | [] => d
  | x :: rest =>
    let d := { d with mct := { d.mct with
      tags := FMap.put (fun _ => {}) d.mct.tags k { t with stale := rest }, late := d.mct.late + 1 } }
    d.fire 518 x.mid (dbits 0 t.gen.toNat)

/-- How a master's request of memory comes out. -/
inductive MemRes where
  | ok
  /-- Denied by access control or by the Crucible's regions. -/
  | denied
  /-- Completed with error status: unmapped, beyond capacity, or an uncorrectable atom or group. -/
  | error
  deriving DecidableEq, Repr

/-- The atoms (256 B) that a span of bytes touches. -/
def atomsOf (a len : Nat) : List Nat := (List.range ((a + len - 1) / 256 + 1 - a / 256)).map (· + a / 256)
/-- The 64-bit Crucible groups that a span of window offsets touches. -/
def groupsOf (a len : Nat) : List Nat := (List.range ((a + len - 1) / 8 + 1 - a / 8)).map (· + a / 8)

/-- Both ends of a span, which decide where it lies: the regions of the address map are convex. -/
def Dev.span (d : Dev) (a len : Nat) : AddrKind :=
  match d.kindOf a, d.kindOf (a + len - 1) with
  | .gddr, .gddr => .gddr
  | .cru o, .cru _ => .cru o
  | .host, .host => .host
  | _, _ => .unmapped

/-- How a read of `len` bytes by master `mid` comes out, by the state alone (R306, R295, R407, R269, R300). -/
def Dev.readRes (d : Dev) (mid a len : Nat) : MemRes :=
  if ¬ d.allowed mid a len false then .denied
  else match d.span a len with
    | .host => .ok
    | .gddr => if (atomsOf a len).any d.atomBad then .error else .ok
    | .cru o =>
      if ¬ d.cruReadable (o + len - 1) then .denied
      else if (groupsOf o len).any (d.cru.badGroups.contains ·) then .error else .ok
    | .unmapped => .error

/-- How a write of `len` bytes by master `mid` comes out. A write that does not cover a whole uncorrectable atom or group
is not performed (R264, R300). -/
def Dev.writeRes (d : Dev) (mid a len : Nat) : MemRes :=
  if ¬ d.allowed mid a len true then .denied
  else match d.span a len with
    | .host => .ok
    | .gddr =>
      if (atomsOf a len).any fun t => d.atomBad t && !(decide (a ≤ 256 * t) && decide (256 * t + 256 ≤ a + len))
      then .error else .ok
    | .cru o =>
      if ¬ (d.cruWritable o ∧ d.cruWritable (o + len - 1)) then .denied
      else if (groupsOf o len).any fun t => d.cru.badGroups.contains t && !(decide (o ≤ 8 * t) && decide (8 * t + 8 ≤ o + len))
      then .error else .ok
    | .unmapped => .error

/-- An atom is found uncorrectable (R269). -/
def Dev.uncorrectable (t mid : Nat) (d : Dev) : Dev :=
  { d with mct := { d.mct with uncorr := d.mct.uncorr + 1 } }.fire 513 (d.gangOf t)
    (dbits 0 (256 * t) ||| dbits 40 mid)

/-- An atom is marked uncorrectable until a write covers it (R264, R269). -/
def Dev.markBad (t : Nat) (d : Dev) : Dev :=
  if t ∈ d.mct.poison then d else { d with mct := { d.mct with poison := t :: d.mct.poison } }

/-- A byte of an atom is rebuilt for a position: its site counts it and mem-corrected fires (R269). -/
def Dev.rebuiltByte (t mid site p : Nat) (d : Dev) : Dev :=
  let x := d.site site
  (d.setSite site { x with errs := x.errs + 1 }).fire 512 site (dbits 0 (256 * t) ||| dbits 40 mid ||| dbits 48 p)

/-- Bytes of an atom are rebuilt for data positions: the atom counts once, and each position once (R269). -/
def Dev.rebuilt (t mid : Nat) (ps : List Nat) (d : Dev) : Dev :=
  if ps.isEmpty then d
  else
    let site := d.servingSite t
    ps.foldl (fun d p => d.rebuiltByte t mid (site p) p) { d with mct := { d.mct with corrected := d.mct.corrected + 1 } }

/-- An atom is read for a master: it is found uncorrectable, or the bytes of an unavailable position are rebuilt (R269,
R275). -/
def Dev.readAtom (mid : Nat) (d : Dev) (t : Nat) : Dev :=
  if d.atomBad t then (d.markBad t).uncorrectable t mid
  else d.rebuilt t mid ((d.unavailable t).filter (· < 16))

/-- The atoms or groups of a span, `size` bytes each, that an access reads: all, or those that a write covers in part. -/
def readParts (size : Nat) (write : Bool) (a len : Nat) (ts : List Nat) : List Nat :=
  ts.filter fun t => !(write && decide (a ≤ size * t) && decide (size * t + size ≤ a + len))

/-- The window offset of a group of the pool. The pool's macros are 0 to 1,279, and the offsets run through those that
are not withheld in ascending order (DESIGN CHOICE, notes/assumptions/20.md); none for a local macro and for a withheld
one. -/
def Dev.cruOffset (d : Dev) (mac row grp : Nat) : Option Nat :=
  if 1280 ≤ mac ∨ d.cru.withheld.contains mac then none
  else some (65536 * (mac - (d.cru.withheld.filter (· < mac)).length) + 128 * row + 8 * grp)

/-- The macro that holds a window offset. -/
def Dev.macroAt (d : Dev) (off : Nat) : Nat :=
  ((List.range 1280).filter fun m => !d.cru.withheld.contains m).getD (off / 65536) 0

/-- The detail of a Crucible source (R352). -/
def Dev.cruDetail (d : Dev) (mac row grp : Nat) : BitVec 128 :=
  dbits 0 ((d.cruOffset mac row grp).getD 0xFFFFFFFF) ||| dbits 32 mac ||| dbits 48 row |||
    dbits 58 (if 1280 ≤ mac then 1 else 0)

/-- The key of a row. -/
def rowKey (mac row : Nat) : Nat := mac * 512 + row

/-- A row is due for sparing (R302). -/
def Dev.sparingDue (mac row : Nat) (d : Dev) : Dev :=
  let k := rowKey mac row
  if d.cru.due.contains k ∨ d.cru.stuck.contains k then d
  else { d with cru := { d.cru with due := d.cru.due ++ [k] } }

/-- A group is found uncorrectable: it is counted and recorded, and its row is due for sparing (R300, R302). -/
def Dev.groupFails (mac row grp : Nat) (d : Dev) : Dev :=
  let d := { d with cru := { d.cru with
    uncorr := d.cru.uncorr + 1
    lastOff := match d.cruOffset mac row grp with | some o => BitVec.ofNat 32 o | none => d.cru.lastOff } }
  (d.fire 193 mac (d.cruDetail mac row grp)).sparingDue mac row

/-- The group at a place of the window, in groups, is found uncorrectable. -/
def Dev.groupAtFails (d : Dev) (t : Nat) : Dev := d.groupFails (d.macroAt (8 * t)) (t / 16 % 512) (t % 16)

/-- What the check of every atom or group that a master's access reads comes to (R264, R269, R300). A denied access reads
nothing. -/
def Dev.noteRead (mid : Nat) (write : Bool) (a len : Nat) (d : Dev) : Dev :=
  match d.span a len with
  | .gddr => (readParts 256 write a len (atomsOf a len)).foldl (Dev.readAtom mid) d
  | .cru o => ((readParts 8 write o len (groupsOf o len)).filter (d.cru.badGroups.contains ·)).foldl Dev.groupAtFails d
  | .host | .unmapped => d

/-- Bytes written to a span that `writeRes` found ok: atoms and groups covered whole become readable again; bytes for the
host leave as a message. -/
def Dev.store (a : Nat) (bs : List Byte) (d : Dev) : Dev :=
  let d1 := d.setBytes a bs
  match d.span a bs.length with
  | .gddr => { d1 with mct := { d1.mct with poison := d1.mct.poison.filter fun t =>
      !(decide (a ≤ 256 * t) && decide (256 * t + 256 ≤ a + bs.length)) } }
  | .cru o => { d1 with cru := { d1.cru with badGroups := d1.cru.badGroups.filter fun t =>
      !(decide (o ≤ 8 * t) && decide (8 * t + 8 ≤ o + bs.length)) } }
  | .host => { d1 with hif := { d1.hif with out := d1.hif.out ++ [.write (BitVec.ofNat 64 a) (bytesWords ((bs.length + 3) / 4) bs)] } }
  | .unmapped => d1

/-- A write by a function's master ID: performed where access control allows it, else a denial (R312). -/
def Dev.masterWrite (mid a : Nat) (ws : List Word) (d : Dev) : Dev :=
  match d.writeRes mid a (4 * ws.length) with
  | .ok => (d.noteRead mid true a (4 * ws.length)).store a (wordsBytes ws)
  | .denied => d.deny mid 0 true a
  | .error => d.noteRead mid true a (4 * ws.length)

/-! ## Messages to the host -/

/-- The MSI-X table word `w` (0 to 3) of vector `v` of function `f`. Vector control resets to masked (PRESUMED, as the
PCI Express Base Specification lays it out; notes/assumptions/3.md). -/
def Dev.msixWord (d : Dev) (f v w : Nat) : Word :=
  FMap.get (fun k => if k % 4 = 3 then 1 else 0) d.hif.msix ((f * 64 + v) * 4 + w)

/-- An MSI-X message falls due: sent, or pending while the vector is masked (R404). -/
def Dev.msix (f v : Nat) (d : Dev) : Dev :=
  if bit (d.msixWord f v 3) 0 then
    { d with hif := { d.hif with msixPend := FMap.put (fun _ => false) d.hif.msixPend (f * 64 + v) true } }
  else { d with hif := { d.hif with out := d.hif.out ++ [.msix f v] } }

/-! ## Notice rings (R206 to R211) -/

/-- BAR0 offset of a register of function `f`'s notice set. -/
def noticeAt (f off : Nat) : Nat := regAt .cqe 0 (0x300 + 0x30 * f + off)

/-- log2 of ring `f`'s notice count. -/
def Dev.nlog (d : Dev) (f : Nat) : Nat := bits (d.effAt (noticeAt f 0x04)) 4 0

/-- Notices in the ring that the driver has not read. -/
def Dev.nfill (d : Dev) (f : Nat) : Nat :=
  ((d.ring f).tail + 2 ^ (d.nlog f + 1) - (d.ring f).head) % 2 ^ (d.nlog f + 1)

/-- `NFULL`: the ring is full (R209). A ring that is not enabled is not full. -/
def Dev.nfull (d : Dev) (f : Nat) : Bool := (d.ring f).en && decide (d.nfill f = 2 ^ d.nlog f)

/-- What a notice says (R207, R208). -/
structure Notice where
  kind : Nat
  queue : Nat := 0
  epoch : BitVec 8 := 0
  flip : Bool := false
  reg : Bool := false
  w1 : Word := 0
  tb : Quad := 0
  w4 : Word := 0
  w5 : Word := 0
  w6 : Word := 0
  w7 : Word := 0
  deriving DecidableEq, Repr

/-- The eight words of a notice written at index `t` of a ring of 2^`log` notices (R206, R207). -/
def Notice.words (n : Notice) (nseq : BitVec 8) (t log : Nat) : List Word :=
  [place 31 24 nseq.toNat ||| place 23 16 n.epoch.toNat ||| place 15 8 n.queue ||| flag 6 (!Nat.testBit t log) |||
     flag 5 n.flip ||| flag 4 n.reg ||| place 3 0 n.kind,
   n.w1, lo32 n.tb, hi32 n.tb, n.w4, n.w5, n.w6, n.w7]

/-- The interrupt that follows a notice written to ring `f` (R211). -/
def Dev.noticeIrq (f : Nat) (d : Dev) : Dev :=
  let ctl := d.effAt (noticeAt f 0)
  if ¬ bit ctl 1 then d
  else
    let r := d.ring f
    let quiet := match r.lastMsg with | some t => decide (t + bits ctl 31 16 * 1000 ≤ d.now) | none => true
    if quiet then (d.setRing f { r with lastMsg := some d.now, msgDue := false }).msix f (bits ctl 13 8)
    else d.setRing f { r with msgDue := true }

/-- Ring `f` takes a notice (R209). -/
def Dev.canPost (d : Dev) (f : Nat) : Bool := (d.ring f).en && !d.nfull f

/-- A notice is written to ring `f`, or dropped where the ring is full or disabled (R206, R209). -/
def Dev.post (f : Nat) (n : Notice) (d : Dev) : Dev :=
  let r := d.ring f
  let log := d.nlog f
  if ¬ d.canPost f then d.setRing f { r with lost := r.lost + 1, nseq := r.nseq + 1 }
  else
    let base := quad (d.effAt (noticeAt f 0x08)) (d.effAt (noticeAt f 0x0C))
    let slot := BitVec.ofNat 64 (32 * (r.tail % 2 ^ log))
    let d := d.masterWrite f (base + slot).toNat (n.words r.nseq r.tail log)
    let d := d.setRing f { r with tail := (r.tail + 1) % 2 ^ (log + 1), nseq := r.nseq + 1 }
    if d.nfull f then d.fire 258 f (dbits 0 r.lost.toNat) else d

/-- A notice is written to ring `f`, then `k` happens, then the interrupt for the notice follows: the write-backs that `k`
makes come between them (R202, R211). -/
def Dev.noticeThen (f : Nat) (n : Notice) (k : Dev → Dev) (d : Dev) : Dev :=
  let wrote := d.canPost f
  let d := k (d.post f n)
  if wrote then d.noticeIrq f else d

/-- A notice is issued to ring `f` (R206, R209, R211). -/
def Dev.notice (f : Nat) (n : Notice) (d : Dev) : Dev := d.noticeThen f n id

/-! ## Queues: indices, the head and completion (R189, R201) -/

/-- log2 of queue `q`'s slot count. -/
def Dev.qlog (d : Dev) (q : Nat) : Nat := d.fld .queue q CQE_SIZE 4 0
/-- The modulus of queue `q`'s indices. -/
def Dev.qmod (d : Dev) (q : Nat) : Nat := 2 ^ (d.qlog q + 1)
/-- The owner function of queue `q`. -/
def Dev.owner (d : Dev) (q : Nat) : Nat := d.fld .queue q CQE_OWN 5 0
/-- The producer index: `PIDX` in bits [w − 1:0]. -/
def Dev.pidx (d : Dev) (q : Nat) : Nat := d.fld .queue q CQE_PIDX 16 0 % d.qmod q
/-- `CQE_PIDX` is invalid: (PIDX − HEAD) mod 2^w > 2^LOG2 (R193). -/
def Dev.pidxBad (d : Dev) (q : Nat) : Bool :=
  decide (2 ^ d.qlog q < (d.pidx q + d.qmod q - (d.queue q).head % d.qmod q) % d.qmod q)

/-- The head write-back of queue `q` (R201). -/
def Dev.headWriteback (q : Nat) (d : Dev) : Dev :=
  let lo := d.reg .queue q CQE_HWB_LO
  if bit lo 0 then
    let a := quad (lo &&& 0xFFFFFFFC) (d.reg .queue q CQE_HWB_HI)
    d.masterWrite (d.owner q) a.toNat [place 31 24 (d.queue q).epoch.toNat ||| place 16 0 (d.queue q).head]
  else d

/-- The entries left after those at the front that are complete, and the slots passed. -/
def dropDone : List QEntry → List QEntry × Nat
  | [] => ([], 0)
  | e :: es => if e.done then let r := dropDone es; (r.1, r.2 + e.slots) else (e :: es, 0)

/-- The messages of the complete entries at the front. -/
def doneMsgs (es : List QEntry) : List (Nat × Nat) := (es.takeWhile (·.done)).flatMap (·.msgs)

/-- The head advances over every complete entry at the front, in one step; the messages that follow its write-back are sent
(R201, R224). -/
def Dev.advanceHead (q : Nat) (d : Dev) : Dev :=
  let x := d.queue q
  let (es, n) := dropDone x.entries
  if n = 0 then d
  else
    let d := (d.setQueue q { x with entries := es, head := (x.head + n) % d.qmod q }).headWriteback q
    (doneMsgs x.entries).foldl (fun d e => d.msix e.1 e.2) d

/-- A message is to follow the head write-back that passes the entries of group `grp` (R224). -/
def Dev.messageBehind (q grp : Nat) (msg : Nat × Nat) (d : Dev) : Dev :=
  let x := d.queue q
  d.setQueue q { x with entries := x.entries.map fun e => if e.grp = grp then { e with msgs := e.msgs ++ [msg] } else e }

/-- The entries of group `grp` of queue `q` complete (R59, R191). -/
def Dev.completeGrp (q grp : Nat) (d : Dev) : Dev :=
  let x := d.queue q
  (d.setQueue q { x with entries := x.entries.map fun e => if e.grp = grp then { e with done := true } else e }).advanceHead q

/-- The refused notice of an entry or a transaction (R208). -/
def refusedNotice (q : Nat) (epoch : BitVec 8) (txn : BitVec 16) (reason slot kind index : Nat) (tb : Quad) : Notice :=
  { kind := 2, queue := q, epoch := epoch, w1 := place 23 16 reason ||| place 15 0 txn.toNat, tb := tb,
    w4 := place 31 16 index ||| place 15 0 slot, w5 := place 2 0 kind }

end Sys2Proof.Machine
end

