-- ==== Sys2Proof/Machine/Faults.lean ====
section
/-!
DEFINITION. The fault collector and the Cullet log (R338 to R351): arrival of firings, log entries, coalescing, and the
`FAULT_N` pin.
-/
namespace Sys2Proof.Machine

/-- A change of the device alone is a next state with the same waiting commands. -/
def State.dev! (f : Dev → Dev) (s : State) : Host.Outcome State Fault Refusal := .next { s with dev := f s.dev }

/-- Apply a change where a condition holds; an event whose condition does not hold has no effect
(notes/assumptions/4.md). -/
def Dev.when (b : Bool) (f : Dev → Dev) (d : Dev) : Dev := if b then f d else d

/-- Whether the collector runs: from event 5 of R378 on, and in recovery. -/
def Dev.collects (d : Dev) : Bool :=
  match d.rst.phase with
  | .reset | .rom => false
  | .booted | .tested | .trained | .ready => true

/-- Entries are written in ascending timestamp order; equal timestamps by descending severity, ascending source, then
ascending instance (R344). -/
def Firing.before (a b : Firing) : Bool :=
  if a.ts ≠ b.ts then decide (a.ts.toNat < b.ts.toNat)
  else if srcSev a.src ≠ srcSev b.src then decide (srcSev b.src < srcSev a.src)
  else if a.src ≠ b.src then decide (a.src < b.src)
  else decide (a.inst < b.inst)

/-- A firing put into its place among those that await their entries: after every firing that is not after it. -/
def enqueueFiring (f : Firing) : List Firing → List Firing
  | [] => [f]
  | g :: gs => if f.before g then f :: g :: gs else g :: enqueueFiring f gs

/-- How many firings the collector queues (R349). -/
def collectorDepth : Nat := 512

/-- Event-overflow fires inside the collector: its sticky bit and count; at most one firing is pending, and `folded` is
added to what it has folded (R349). -/
def Collector.overflowFires (ts : Quad) (c : Collector) : Collector :=
  let c := { c with
    sticky := FMap.put (fun _ => false) c.sticky 1 true
    count := FMap.put (fun _ => 0) c.count 1 (FMap.get (fun _ => 0) c.count 1 + 1) }
  match c.overflow with
  | some (f, n) => { c with overflow := some (f, n + 1) }
  | none => { c with overflow := some ({ src := 1, ts := ts }, 1) }

/-- The entry side of an arrival, after the sticky bit and the count (R348, R349): S2 and S3 firings always take their
place; an S0 or S1 firing beyond `COAL` entries of the window, or that finds the queue full, is suppressed. -/
def Collector.enter (cfg : SrcCfg) (f : Firing) (c : Collector) : Collector :=
  if 2 ≤ srcSev f.src then { c with queue := enqueueFiring f c.queue }
  else
    let k := FMap.get (fun _ => {}) c.coal f.src
    let full := decide (collectorDepth ≤ c.queue.length)
    if k.written < cfg.coal ∧ ¬ full then
      { c with queue := enqueueFiring f c.queue
               coal := FMap.put (fun _ => {}) c.coal f.src { k with written := k.written + 1 } }
    else
      let k := { k with suppressed := k.suppressed + 1, last := some f }
      let c := { c with coal := FMap.put (fun _ => {}) c.coal f.src k }
      if full then c.overflowFires f.ts else c

/-- The oldest firing under way arrives at the collector (R338). -/
def faultArrival (d : Dev) : Dev :=
  match d.flt.arrivals with
  | [] => d
  | f :: rest =>
    let f := { f with ts := d.time }
    let cfg := d.srcCfg f.src
    let c := { d.flt with
      arrivals := rest
      sticky := FMap.put (fun _ => false) d.flt.sticky f.src true
      count := FMap.put (fun _ => 0) d.flt.count f.src (FMap.get (fun _ => 0) d.flt.count f.src + 1) }
    { d with flt := if cfg.react = 0 then c else c.enter cfg f }

/-- FAULT_ARRIVAL: the collector takes the oldest firing under way (R338). -/
def execFaultArrival (s : State) : Host.Outcome State Fault Refusal :=
  s.dev! fun d => d.when d.collects faultArrival

/-- The fault notice of a log entry (R350). -/
def faultNotice (seq : Word) (f : Firing) : Notice :=
  { kind := 5, w1 := place 31 16 f.inst ||| place 11 10 (srcSev f.src) ||| place 9 0 f.src, tb := f.ts, w4 := seq,
    w5 := f.detail.extractLsb' 0 32, w6 := f.detail.extractLsb' 32 32, w7 := f.detail.extractLsb' 64 32 }

/-- Write one log entry under the next sequence number, and its fault notice (R346, R350). -/
def writeEntry (f : Firing) (d : Dev) : Dev :=
  let seq := d.flt.wseq
  let d := { d with flt := { d.flt with
    log := FMap.put (fun _ => none) d.flt.log (seq.toNat % 4096) (some (seq, f)), wseq := seq + 1 },
                    cru := { d.cru with badGroups := d.cru.badGroups.filter fun k =>
                      k / 4 ≠ 0x540000 / 32 + seq.toNat % 4096 } }
  if (d.srcCfg f.src).notice then d.notice 0 (faultNotice seq f) else d

/-- The pending event-overflow firing takes its place once the queue accepts an entry (R349). -/
def Collector.takeOverflow (c : Collector) : Collector :=
  match c.overflow with
  | some (f, n) =>
    if c.queue.length < collectorDepth then
      { c with queue := enqueueFiring { f with detail := dbits 0 (n % 2 ^ 32) } c.queue, overflow := none }
    else c
  | none => c

/-- The firing first in order gets its entry. -/
def logEntryWrite (d : Dev) : Dev :=
  match d.flt.queue with
  | [] => d
  | f :: rest => writeEntry f { d with flt := ({ d.flt with queue := rest }).takeOverflow }

/-- LOG_ENTRY_WRITE: the next log entry is written (R344 to R346). -/
def execLogEntryWrite (s : State) : Host.Outcome State Fault Refusal :=
  s.dev! fun d => d.when d.collects logEntryWrite

/-- The summary firing of a source that suppressed firings in the window that ends (R348). -/
def summary (ts : Quad) (src : Nat) (k : Coal) : Option Firing :=
  if k.suppressed = 0 then none
  else k.last.map fun f =>
    { src := src, inst := f.inst, ts := ts, coal := true,
      detail := (f.detail &&& BitVec.ofNat 128 (2 ^ 96 - 1)) ||| dbits 96 (min k.suppressed (2 ^ 32 - 1)) }

/-- The end of a window of 1,000,000 ns: summaries take their places and counting starts afresh. -/
def coalWindowEnd (d : Dev) : Dev :=
  let stop := BitVec.ofNat 64 (1000000 * (d.flt.window + 1))
  let sums := d.flt.coal.filterMap fun (src, k) => summary stop src k
  { d with flt := { d.flt with
      queue := sums.foldl (fun q f => enqueueFiring f q) d.flt.queue, coal := [], window := d.time.toNat / 1000000 } }

/-- COAL_WINDOW_END: a coalescing window ends (R348). -/
def execCoalWindowEnd (s : State) : Host.Outcome State Fault Refusal :=
  s.dev! fun d => d.when (d.collects && decide (d.flt.window < d.time.toNat / 1000000)) coalWindowEnd

/-- Whether `FAULT_N` is driven low (R342): while the collector does not run, and while an unmasked sticky bit of
sufficient severity is set. -/
def Dev.faultN (d : Dev) : Bool :=
  !d.collects ||
  d.flt.sticky.any fun (n, b) =>
    b && decide (d.fld .flt 0 FLT_PIN 1 0 ≤ srcSev n) && !bit (d.reg .flt 0 (FLT_MASK + 4 * (n / 32))) (n % 32)

/-- Sticky word `k`. -/
def Dev.stickyWord (d : Dev) (k : Nat) : Word :=
  d.flt.sticky.foldl (fun w (n, b) => if n / 32 = k ∧ b then w ||| flag (n % 32) true else w) 0

/-- `FLT_SUM` (ANY, MAXSEV, COUNT). -/
def Dev.faultSum (d : Dev) : Word :=
  let set := (d.flt.sticky.filter (·.2)).map (·.1)
  flag 31 (!set.isEmpty) ||| place 25 24 (set.foldl (fun m n => max m (srcSev n)) 0) ||| place 10 0 set.length

end Sys2Proof.Machine
end

