-- ==== Sys2Proof/Machine/Clock.lean ====
section
/-!
DEFINITION. Clocks and the timebase: one cycle of TBCLK, alignment to the pulse-per-second input (R368 to R371), the
reference PLLs (R150, R151) and changes of the compose clock (R367).
-/
namespace Sys2Proof.Machine

/-! ## The timebase -/

/-- One second in TBCLK cycles (R363, R368). -/
def second : Nat := 1000000000

/-- The counts of an even spread of `n` single counts over one second that fall in the cycle at `phase` (R369). -/
def spreadAt (n phase : Nat) : Nat := (phase + 1) * n / second - phase * n / second

/-- One cycle of the timebase: it counts one, withholds a count when it removes a positive error, or adds one when it is
behind. It never goes backward (R368, R369). -/
def Timebase.cycle (t : Timebase) : Timebase :=
  if ¬ t.run then t
  else if t.phase < second ∧ spreadAt t.rate.natAbs t.phase ≠ 0 then
    if 0 < t.rate then { t with phase := t.phase + 1, err := t.err - 1 }
    else { t with phase := t.phase + 1, err := t.err + 1, count := t.count + 2 }
  else { t with phase := min second (t.phase + 1), count := t.count + 1 }

/-- One cycle of TBCLK passes. -/
def tick (s : State) : State := { s with dev := { s.dev with now := s.dev.now + 1, tb := s.dev.tb.cycle } }

/-- The error of a timebase value: its remainder modulo one second, wrapped into half a second either way (R369). -/
def ppsError (t : Quad) : Int :=
  let r : Int := ((t.toNat % second : Nat) : Int)
  if r < 500000000 then r else r - 1000000000

/-- An active edge of `PPS_IN` that is not ignored: a pending load is made or refused, and the error is measured
(R369, R370). -/
def ppsAccept (d : Dev) : Dev :=
  let t := d.tb
  let set := d.pair .tmb 0 TMB_SET_LO
  let t := if t.loadPend then
      if t.count.toNat ≤ set.toNat then { t with count := set, loadPend := false }
      else { t with loadErr := true, loadPend := false }
    else t
  let e := ppsError t.count
  let lim : Int := ((d.fld .tmb 0 TMB_CTL 9 0 * 1000 : Nat) : Int)
  { d with tb := { t with err := e, rate := clampAbs lim e, phase := 0, edge := t.count, edgeErr := e,
                          since := d.now, accepted := some d.now, lost := false } }

/-- PPS_EDGE: an edge at `PPS_IN`. Edges of the inactive polarity, edges with `PPS_EN` = 0 and edges closer than 0.5 s
to the last accepted one have no effect (R369, R371). -/
def execPpsEdge (rising : Bool) (s : State) : Host.Outcome State Fault Refusal :=
  s.dev! fun d =>
    d.when (d.tb.run && d.flg .tmb 0 TMB_CTL 31 && (rising != d.flg .tmb 0 TMB_CTL 30) &&
      d.tb.accepted.all fun a => decide (a + 500000000 ≤ d.now)) ppsAccept

/-- PPS_LOST: `PPS_EN` is 1 and no edge has arrived for 1.5 s (R371). -/
def execPpsLost (s : State) : Host.Outcome State Fault Refusal :=
  s.dev! fun d =>
    d.when (d.flg .tmb 0 TMB_CTL 31 && !d.tb.lost && decide (d.tb.since + 1500000000 ≤ d.now)) fun d =>
      { d with tb := { d.tb with lost := true } }.fire 96 0 0

/-- A write of `TMB_CTL` has taken effect: the interval of R371 starts where `PPS_EN` is set, PPS-lost ends where it is
cleared, and `LOAD` arms a load (R370). -/
def timebaseControl (old new : Word) (load : Bool) (d : Dev) : Dev :=
  let t := d.tb
  let t := if bit new 31 && !bit old 31 then { t with since := d.now } else t
  let t := if bit new 31 then t else { t with lost := false }
  { d with tb := if load then { t with loadPend := true, loadErr := false } else t }

/-- `TMB_STAT`. -/
def Dev.timebaseStat (d : Dev) : Word :=
  flag 31 d.tb.loadPend ||| flag 30 d.tb.loadErr ||| flag 29 d.tb.lost ||| flag 28 (d.tb.err ≠ 0)

/-! ## Reference PLLs -/

/-- The PLL that a canvas's timing in effect selects. -/
def Dev.pllOf (d : Dev) (c : Nat) : Nat := d.fld .cnv c CNV_SCLK 30 28
/-- Whether PLL `k` is locked. -/
def Dev.pllLocked (d : Dev) (k : Nat) : Bool := FMap.get (fun _ => false) d.clk.locked k
/-- `d` with the lock of PLL `k` set or lost. -/
def Dev.setPllLocked (k : Nat) (b : Bool) (d : Dev) : Dev :=
  { d with clk := { d.clk with locked := FMap.put (fun _ => false) d.clk.locked k b } }
/-- The canvases, not OFF, that select PLL `k`. -/
def Dev.pllUsers (d : Dev) (k : Nat) : List Nat :=
  (d.canvases.filter fun (c, x) => x.state ≠ .off && d.pllOf c = k).map (·.1)
/-- `CKR_PLL[k].BUSY` (R151). -/
def Dev.pllBusy (d : Dev) (k : Nat) : Bool := !(d.pllUsers k).isEmpty

/-- PLL_LOCKED: an enabled PLL reaches lock (R151). -/
def execPllLocked (k : PllNo) (s : State) : Host.Outcome State Fault Refusal :=
  s.dev! fun d => d.when (d.flg .ckr 0 (CKR_PLL + 4 * k) 31) (Dev.setPllLocked k true)

/-- PLL_UNLOCK: a PLL loses lock. Ref-PLL-unlock fires where a canvas that is not OFF selects it (R352, source 64). -/
def execPllUnlock (k : PllNo) (s : State) : Host.Outcome State Fault Refusal :=
  s.dev! fun d =>
    d.when (d.pllLocked k) fun d =>
      let d := d.setPllLocked k false
      if d.pllBusy k then d.fire 64 k ((d.pllUsers k).foldl (fun m c => m ||| dbits c 1) 0) else d

/-- What `f` does, and the firing of ref-PLL-unlock where canvas `c` comes to use a PLL that is not locked and that no canvas
used before (R338, R352). -/
def Dev.watchPll (c : Nat) (f : Dev → Dev) (d : Dev) : Dev :=
  let e := f d
  let k := e.pllOf c
  if e.pllBusy k && !e.pllLocked k && !d.pllBusy k then
    e.fire 64 k ((e.pllUsers k).foldl (fun m c => m ||| dbits c 1) 0)
  else e

/-- A write of `CKR_PLL[k]` has taken effect: a PLL that stops, starts or changes its `MULT` is not locked until its
next PLL_LOCKED. -/
def pllControl (k : Nat) (old new : Word) (d : Dev) : Dev := if old = new then d else d.setPllLocked k false

/-- f_k in Hz: 100 MHz × `MULT` (R150). -/
def Dev.pllHz (d : Dev) (k : Nat) : Nat := 100000000 * d.fld .ckr 0 (CKR_PLL + 4 * k) 5 0

/-! ## The compose clock -/

/-- `CKR_CCLK.MHZ` as last written. -/
def Dev.cclkTarget (d : Dev) : Nat := d.fld .ckr 0 CKR_CCLK 10 0

/-- A re-evaluation has been asked for and is not decided (`LDG_STAT.REEVAL_BUSY`). -/
def Dev.reevalBusy (d : Dev) : Bool :=
  d.scene.admQ.any fun r => match r with | .reeval _ => true | _ => false

/-- A decided mode change still waits for its latch point (`LDG_STAT.MODE_PEND`, events 4 and 5 of R82). -/
def Dev.modePend (d : Dev) : Bool := d.canvases.any fun (_, x) => x.change.any (! ·.latched)

/-- Ask for a re-evaluation with a cause (R80). -/
def askReeval (cause : Nat) (d : Dev) : Dev :=
  { d with scene := { d.scene with admQ := d.scene.admQ ++ [.reeval cause] } }

/-- A write of `CKR_CCLK` has changed the target: a lowering re-evaluates at the new f_C first, a raise moves the clock
first (R367). -/
def cclkWritten (d : Dev) : Dev :=
  let t := d.cclkTarget
  if t < d.clk.cclk then askReeval 4 { d with clk := { d.clk with change := 1, ledger := t } }
  else if d.clk.cclk < t then { d with clk := { d.clk with change := 3 } }
  else d

/-- One step of 50 MHz (R367). -/
def cclkStep (d : Dev) : Dev :=
  let t := d.cclkTarget
  match d.clk.change with
  | 1 | 2 =>
    if d.clk.change = 1 ∧ (d.reevalBusy ∨ d.modePend) then d
    else
      let f := max t (d.clk.cclk - 50)
      { d with clk := { d.clk with cclk := f, change := if f = t then 0 else 2 } }
  | 3 =>
    let f := min t (d.clk.cclk + 50)
    let d := { d with clk := { d.clk with cclk := f, change := if f = t then 4 else 3 } }
    if f = t then askReeval 4 d else d
  | _ => d

/-- CCLK_STEP: CCLK moves one step towards its target (R367). -/
def execCclkStep (s : State) : Host.Outcome State Fault Refusal := s.dev! cclkStep

end Sys2Proof.Machine
end

