-- ==== Sys2Proof/Machine/Ledger.lean ====
section
/-!
DEFINITION. What the admission ledger computes (R64 to R73): the quantities of a canvas, fetch bytes and pipe cycles of
its bands, its needs, the budgets, and the size of its scan buffer.
-/
namespace Sys2Proof.Machine

/-! ## Tables and settings as they stand -/

/-- Window and surface images by index; an index not listed is all zeros. -/
structure Tables where
  wins : FMap WinImg := []
  surfs : FMap SurfImg := []

/-- Window image `i`. -/
def Tables.win (t : Tables) (i : Nat) : WinImg := FMap.get (fun _ => {}) t.wins i
/-- Surface image `j`. -/
def Tables.surf (t : Tables) (j : Nat) : SurfImg := FMap.get (fun _ => {}) t.surfs j
/-- The tables with window images written. -/
def Tables.putWins (l : List (Nat × WinImg)) (t : Tables) : Tables :=
  { t with wins := l.foldl (fun m e => FMap.put (fun _ => {}) m e.1 e.2) t.wins }
/-- The tables with surface images written. -/
def Tables.putSurfs (l : List (Nat × SurfImg)) (t : Tables) : Tables :=
  { t with surfs := l.foldl (fun m e => FMap.put (fun _ => {}) m e.1 e.2) t.surfs }

/-- The tables as they stood before the first of the changes in flight. -/
def Dev.tables (d : Dev) : Tables := { wins := d.scene.baseWins, surfs := d.scene.baseSurfs }

/-- The settings of a canvas: the words of its `CNV` page, by page offset. -/
abbrev CanvasRegs := Nat → Word

/-- The settings of canvas `c` in effect. -/
def Dev.cregs (d : Dev) (c : Nat) : CanvasRegs := fun off => d.reg .cnv c off

/-! ## Quantities of a canvas (R64) -/

/-- *W*. -/
def cW (r : CanvasRegs) : Nat := bits (r CNV_TIM_H) 15 0
/-- *H*. -/
def cH (r : CanvasRegs) : Nat := bits (r CNV_TIM_V) 15 0
/-- *H*ₜ. -/
def cHt (r : CanvasRegs) : Nat := bits (r CNV_TIM_H) 31 16
/-- *V*ₜ. -/
def cVt (r : CanvasRegs) : Nat := bits (r CNV_TIM_V) 31 16
/-- *B*: 8, 16 or 32 lines. -/
def cB (r : CanvasRegs) : Nat := 8 <<< bits (r CNV_BUF) 9 8
/-- *D*. -/
def cD (r : CanvasRegs) : Nat := 8 * bits (r CNV_BUF) 4 0
/-- `CNV_SCLK.DIV`. -/
def cDiv (r : CanvasRegs) : Nat := bits (r CNV_SCLK) 27 0
/-- `CNV_SCLK.PLL`. -/
def cPll (r : CanvasRegs) : Nat := bits (r CNV_SCLK) 30 28
/-- The wall shown. -/
def cWall (r : CanvasRegs) : Nat := bits (r CNV_VIEW) 2 0
/-- `X0`, signed. -/
def cX0 (r : CanvasRegs) : Int := (r CNV_ORG_X).toInt
/-- `Y0`, signed. -/
def cY0 (r : CanvasRegs) : Int := (r CNV_ORG_Y).toInt
/-- `CNV_PRIO`. -/
def cPrio (r : CanvasRegs) : Nat := bits (r CNV_PRIO) 7 0
/-- `CNV_LDG.SHARE`. -/
def cShare (r : CanvasRegs) : Nat := bits (r CNV_LDG) 15 0
/-- *n*_b = ⌈H / B⌉. -/
def cBands (r : CanvasRegs) : Nat := ceilDiv (cH r) (cB r)

/-- *f*ₚ as a fraction in Hz: *f*ₖ × 2²⁰ over `DIV` (R150). -/
def Dev.fpNum (d : Dev) (r : CanvasRegs) : Nat := d.pllHz (cPll r) * 2 ^ 20

/-- ⌈x × n_b × f_v / 10⁶⌉: a worst band's figure as a rate (R68). -/
def Dev.perSecond (d : Dev) (r : CanvasRegs) (x : Nat) : Nat :=
  ceilDiv (x * cBands r * d.fpNum r) (cDiv r * cHt r * cVt r * 1000000)

/-- DL = ⌊(D − B) × T_l × f_C⌋ in CCLK cycles, f_C being the ledger's (R69, R367). -/
def Dev.deadline (d : Dev) (r : CanvasRegs) : Nat :=
  (cD r - cB r) * cHt r * cDiv r * (d.clk.ledger * 1000000) / d.fpNum r

/-- The limits of R148, among them that the PLL is enabled. -/
def Dev.timingOk (d : Dev) (r : CanvasRegs) : Bool :=
  let hfp := bits (r CNV_TIM_HS) 11 0
  let hsw := bits (r CNV_TIM_HS) 27 16
  let vfp := bits (r CNV_TIM_VS) 11 0
  let vsw := bits (r CNV_TIM_VS) 27 16
  decide (64 ≤ cW r) && decide (cW r ≤ 8192) &&
  decide (cW r + 32 ≤ cHt r) && decide (cHt r ≤ 16384) && decide (cHt r % 4 = 0) &&
  decide (1 ≤ hfp) && decide (1 ≤ hsw) && decide (hfp + hsw < cHt r - cW r) &&
  decide (64 ≤ cH r) && decide (cH r ≤ 8192) &&
  decide (cH r + 3 ≤ cVt r) && decide (cVt r ≤ 16384) &&
  decide (1 ≤ vfp) && decide (1 ≤ vsw) && decide (vfp + vsw < cVt r - cH r) &&
  decide (2 ^ 20 ≤ cDiv r) && decide (cDiv r ≤ 192 * 2 ^ 20) &&
  decide (25000000 * cDiv r ≤ d.fpNum r) && decide (d.fpNum r ≤ 2400000000 * cDiv r) &&
  d.flg .ckr 0 (CKR_PLL + 4 * cPll r) 31 &&
  decide (bits (r CNV_BUF) 9 8 ≤ 2) && decide (16 ≤ cD r) && decide (cD r ≤ 128) &&
  decide (cB r ≤ cD r) && decide (cD r ≤ cH r)

/-- The viewport's far corner lies on the wall (R23). -/
def viewOk (r : CanvasRegs) : Bool :=
  decide (cX0 r + (cW r : Int) - 1 ≤ 2147483647) && decide (cY0 r + (cH r : Int) - 1 ≤ 2147483647)

/-! ## Lines in time (R147, R150) -/

/-- One line period as a fraction of nanoseconds: its numerator over `Dev.fpNum`. -/
def lineNum (r : CanvasRegs) : Nat := cHt r * cDiv r * 1000000000

/-- The raster that settings give at the nominal pixel clock. -/
def Dev.rasterOf (d : Dev) (r : CanvasRegs) : Raster :=
  { w := cW r, h := cH r, ht := cHt r, vt := cVt r, d := cD r, num := lineNum r, den := d.fpNum r }

/-- The line period of a raster with the trim of *f*ₚ, as a fraction of nanoseconds: its numerator. -/
def Raster.lineNs (x : Raster) : Nat := x.num * 1000000000
/-- As its denominator. A positive trim is a faster pixel clock (R156). -/
def Raster.lineDen (x : Raster) : Nat := x.den * (1000000000 + x.trim).toNat

/-- `n` line periods of a raster, in whole nanoseconds. -/
def Raster.linesNs (x : Raster) (n : Nat) : Nat := n * x.lineNs / x.lineDen

/-- (*D* + *V*ₜ − *H*) lines: from the start of the generator to frame 0 (R166). -/
def Raster.lead (x : Raster) : Nat := x.d + x.vt - x.h

/-- The period of a raster's frames, in whole nanoseconds. -/
def Raster.period (x : Raster) : Nat := x.linesNs x.vt

/-- At least `n` line periods, less `px` pixel clocks, have passed in `ns` nanoseconds. -/
def Raster.passed (x : Raster) (ns n px : Nat) : Bool :=
  decide ((n * x.ht - px) * x.lineNs ≤ ns * x.lineDen * x.ht)

/-- The nominal raster of canvas `c`: that of the frame in progress, else that of its settings. -/
def Dev.nominal (d : Dev) (c : Nat) : Raster := if (d.canvas c).gen then (d.canvas c).raster else d.rasterOf (d.cregs c)

/-- `CNV_LOCK_STAT.RANGE`: the nominal frame period differs from the last interval between reference events by more than
`SLEW_PPM` (R156). -/
def Dev.lockRange (d : Dev) (c : Nat) : Bool :=
  let x := d.canvas c
  let n := d.nominal c
  x.lock.lstate ≠ .none && x.lock.period.any fun p =>
    decide (bits (d.reg .cnv c CNV_LOCK) 9 0 * p * n.den < ((n.vt * n.num : Nat) - (p * n.den : Nat) : Int).natAbs * 1000000)

/-- At least `n` line periods, less `px` pixel clocks, have passed on canvas `c` since the frame or the generator began. -/
def Dev.linesPassed (d : Dev) (c n px : Nat) : Bool := (d.canvas c).raster.passed (d.now - (d.canvas c).fsNow) n px

/-- The blocks of a scan buffer: ⌈D × W × 4 / 4,096⌉ (R297). -/
def scanBlocks (r : CanvasRegs) : Nat := ceilDiv (cD r * cW r * 4) 4096

/-! ## Layers (R45) -/

/-- A window's destination as canvas columns and lines [l, rr) × [t, bb), clipped to the canvas, with its images. -/
structure Placed where
  idx : Nat
  l : Nat
  rr : Nat
  t : Nat
  bb : Nat
  win : WinImg
  surf : SurfImg

/-- A window clipped to a viewport, none where it is no layer at any pixel of the canvas. -/
def placeWin (r : CanvasRegs) (i : Nat) (w : WinImg) (s : SurfImg) : Option Placed :=
  let l := max 0 (w.dstX.toInt - cX0 r)
  let rr := min (cW r : Int) (w.dstX.toInt + w.dstW.toNat - cX0 r)
  let t := max 0 (w.dstY.toInt - cY0 r)
  let bb := min (cH r : Int) (w.dstY.toInt + w.dstH.toNat - cY0 r)
  if w.valid ∧ w.wall.toNat = cWall r ∧ l < rr ∧ t < bb then
    some { idx := i, l := l.toNat, rr := rr.toNat, t := t.toNat, bb := bb.toNat, win := w, surf := s }
  else none

/-- Every window that is a layer somewhere on the canvas, by ascending index. -/
def Tables.placed (t : Tables) (r : CanvasRegs) : List Placed :=
  t.wins.filterMap fun (i, w) => placeWin r i w (t.surf w.surf.toNat)

/-- The part of a window that lies in lines [lo, hi). -/
def Placed.clip (lo hi : Nat) (p : Placed) : Option Placed :=
  if max lo p.t < min hi p.bb then some { p with t := max lo p.t, bb := min hi p.bb } else none

/-- The greatest number of layers at any one pixel. The most layers are found at some window's left column and some
window's top line. -/
def maxLayers (ps : List Placed) : Nat :=
  (ps.flatMap fun a => ps.map fun b =>
    (ps.filter fun p => decide (p.l ≤ a.l) && decide (a.l < p.rr) && decide (p.t ≤ b.t) && decide (b.t < p.bb)).length).foldl
    max 0

/-! ## Fetch bytes (R65, R66) -/

/-- Whether a rotation exchanges the axes: 90° or 270°. -/
def WinImg.turned (w : WinImg) : Bool := w.rot.getLsbD 0
/-- The source extent, in 1/16 pixel, that lands horizontally (R42). -/
def WinImg.extH (w : WinImg) : Nat := if w.turned then w.srcH.toNat else w.srcW.toNat
/-- The source extent, in 1/16 pixel, that lands vertically (R42). -/
def WinImg.extV (w : WinImg) : Nat := if w.turned then w.srcW.toNat else w.srcH.toNat
/-- The source edge, in 1/16 pixel, that lands horizontally. -/
def WinImg.edgeH (w : WinImg) : Nat := if w.turned then w.srcY.toNat else w.srcX.toNat
/-- The source edge, in 1/16 pixel, that lands vertically. -/
def WinImg.edgeV (w : WinImg) : Nat := if w.turned then w.srcX.toNat else w.srcY.toNat
/-- The horizontal axis is a pass-through axis (R65). -/
def WinImg.passH (w : WinImg) : Bool := w.extH = 16 * w.dstW.toNat && w.edgeH % 16 = 0
/-- The vertical axis is a pass-through axis (R65). -/
def WinImg.passV (w : WinImg) : Bool := w.extV = 16 * w.dstH.toNat && w.edgeV % 16 = 0

/-- *S*ᵥ of `n` canvas lines. -/
def WinImg.costV (w : WinImg) (n : Nat) : Nat := if w.passV then n else ceilDiv (n * w.extV) (16 * w.dstH.toNat) + 6
/-- *S*ₕ of `n` canvas columns. -/
def WinImg.costH (w : WinImg) (n : Nat) : Nat := if w.passH then n else ceilDiv (n * w.extH) (16 * w.dstW.toNat) + 8

/-- *G*(p, n): the costed size of one linear line. -/
def lineCost (p n : Nat) : Nat := 64 * (ceilDiv (n * p) 64 + 1)

/-- Bytes per pixel of plane 0 as costed (R66) and laid out (R90). -/
def fmtBytes (fmt : Nat) : Nat :=
  match fmt with
  | 0 | 1 | 2 => 4
  | 3 => 8
  | 4 | 7 | 8 => 2
  | _ => 1

/-- The fetch bytes of one taking-part window of a band (R66). -/
def Placed.fetchBytes (p : Placed) : Nat :=
  let sv := p.win.costV (p.bb - p.t)
  let sh := p.win.costH (p.rr - p.l)
  let (ax, ay) := if p.win.turned then (sv, sh) else (sh, sv)
  let fmt := p.surf.fmt.toNat
  let tiled := 256 * (ceilDiv sh 8 + 1) * (ceilDiv sv 8 + 1)
  match p.surf.layout.toNat with
  | 0 =>
    let chroma := if fmt = 6 ∨ fmt = 7 then (ceilDiv sv 2 + 1) * lineCost (fmtBytes fmt) sh else 0
    sv * lineCost (fmtBytes fmt) sh + chroma
  | 1 => tiled
  | _ => tiled + 64 * (ceilDiv ay 8 + 1) * (ceilDiv (ceilDiv ax 8 + 1) 64 + 1)

/-! ## Bands (R66 to R68) -/

/-- The figures of one band: F(b), C(b) and L(b). -/
structure BandFig where
  f : Nat := 0
  c : Nat := 0
  l : Nat := 0
  deriving DecidableEq, Repr

/-- *g* for a deepest pixel of `l` layers (R12). -/
def passes (l : Nat) : Nat := max 1 (ceilDiv l 8)

/-- C(b) of a band of `lines` lines with `n` windows and a deepest pixel of `l` layers (R67). -/
def Dev.bandCycles (d : Dev) (r : CanvasRegs) (lines n l : Nat) : Nat :=
  2 ^ (passes l - 1) * ceilDiv (cW r) 4 * lines + 256 * passes l + 32 * n + d.fld .ldg 0 LDG_DERATE 15 0

/-- The figures of band `b`. -/
def Dev.bandFig (d : Dev) (r : CanvasRegs) (ps : List Placed) (b : Nat) : BandFig :=
  let lo := b * cB r
  let hi := min (lo + cB r) (cH r)
  let part := ps.filterMap (Placed.clip lo hi)
  let l := maxLayers part
  { f := (part.map Placed.fetchBytes).sum, c := d.bandCycles r (hi - lo) part.length l, l := l }

/-- Every band's figures, in order. -/
def Dev.bandFigs (d : Dev) (t : Tables) (r : CanvasRegs) : List BandFig :=
  (List.range (cBands r)).map (d.bandFig r (t.placed r))

/-- The greatest value and the lowest position that attains it, counting from `i`. -/
def maxFirst : Nat → List Nat → Nat × Nat
  | i, [] => (0, i)
  | i, [x] => (x, i)
  | i, x :: xs => let m := maxFirst (i + 1) xs; if m.1 ≤ x then (x, i) else m

/-- The direct figures of a canvas (R68, R69). -/
structure Fig where
  fMax : Nat
  bandF : Nat
  cMax : Nat
  bandC : Nat
  needMem : Nat
  needPipe : Nat
  dl : Nat
  layers : Nat
  deriving DecidableEq, Repr

/-- The direct figures of a canvas with given tables and settings. -/
def Dev.fig (d : Dev) (t : Tables) (r : CanvasRegs) : Fig :=
  let bs := d.bandFigs t r
  let f := maxFirst 0 (bs.map (·.f))
  let c := maxFirst 0 (bs.map (·.c))
  { fMax := f.1, bandF := f.2, cMax := c.1, bandC := c.2, needMem := d.perSecond r f.1, needPipe := d.perSecond r c.1,
    dl := d.deadline r, layers := (bs.map (·.l)).foldl max 0 }

/-- RES of a direct canvas (R68). -/
def Fig.res (g : Fig) (r : CanvasRegs) : Nat := if cShare r = 0 then g.needMem else 4 * cShare r

/-- The scan-fill cost of a canvas in Parison mode (R68). -/
def Dev.scanFill (d : Dev) (r : CanvasRegs) : Nat := d.perSecond r (cB r * lineCost 4 (cW r))

/-- The deadline and the share check of one direct canvas (R69, R72). -/
def Fig.fits (g : Fig) (r : CanvasRegs) : Bool :=
  decide (g.cMax ≤ g.dl) && (cShare r = 0 || decide (g.needMem ≤ 4 * cShare r))

/-! ## Budgets (R70, R71) -/

/-- `MSTATE`: 0 normal, 1 rebuild, 2 exposed (R70, R275, R276). -/
def Dev.mstate (d : Dev) : Nat :=
  if ¬ d.mct.gone.isEmpty then 2
  else match d.mct.spare with
    | .pending _ | .rebuilding _ => 1
    | .stopped _ => 2
    | .idle | .substituted _ | .none => 0

/-- MEM_BUD = ⌊51,200 × r × δ / 16⌋. Before training the configured pin rate is taken as 40 Gbit/s, the rate of the
reset value of `LDG_MEM_BUD` (DEDUCED, notes/assumptions/5.md). -/
def Dev.memBud (d : Dev) : Nat :=
  let δ := match d.mstate with | 0 => 16 | 1 => 13 | _ => 15
  51200 * (if d.mct.rate = 0 then 40 else d.mct.rate) * δ / 16

/-- *N*_act: the pipes in the active role. -/
def Dev.nAct (d : Dev) : Nat := ((List.range 14).filter fun p => (d.pipe p).role = .active).length

/-- PIPE_BUD = ⌊N_act × f_C × 15 / 16⌋. -/
def Dev.pipeBud (d : Dev) : Nat := d.nAct * d.clk.ledger * 15 / 16

/-- The canvases in the ledger's sums: those not OFF (R164). -/
def Dev.enabled (d : Dev) : List Nat := (d.canvases.filter fun e => e.2.state ≠ .off).map (·.1)

/-! ## PAR_OK (R74) -/

/-- The two Parison surfaces suit a canvas (R74). Every surface index is the PF's (R308). -/
def parOk (t : Tables) (r : CanvasRegs) : Bool :=
  let s0 := bits (r CNV_PAR) 13 0
  let s1 := bits (r CNV_PAR) 29 16
  let ok := fun (s : SurfImg) =>
    s.valid && s.layout = 0 && s.fmt = 2 && decide (cW r ≤ s.width.toNat) && decide (cH r ≤ s.height.toNat)
  s0 != s1 && ok (t.surf s0) && ok (t.surf s1)

/-- Whether the ledger may demote a canvas (R74). -/
def demotable (t : Tables) (r : CanvasRegs) : Bool := bit (r CNV_LDG) 31 && parOk t r

/-! ## Admitted changes that wait (R56 to R58) -/

/-- The four settings that a `CANVAS_SET` writes, as words of the canvas's page (R48, R191). -/
def CanvasVals.words (v : CanvasVals) : List (Nat × Word) :=
  [(CNV_VIEW, v.wall.setWidth 32), (CNV_ORG_X, v.x0), (CNV_ORG_Y, v.y0), (CNV_BG, v.bg.setWidth 32)]

/-- How many latch points an admitted change lets pass on canvas `c` before it applies there. -/
def Admitted.skips (a : Admitted) (c : Nat) : Nat := FMap.get (fun _ => 0) a.skip c

/-- A register-originated change of R63, which applies before the transactions of its latch point (R25, R58). -/
def Admitted.registers (a : Admitted) : Bool := a.reg && !a.flip && a.flrOf.isNone

/-- The words that an admitted change writes to canvas `c`'s page, by page offset; its register words are keyed by BAR0
offset. -/
def Admitted.wordsFor (a : Admitted) (c : Nat) : List (Nat × Word) :=
  (a.regs.filterMap fun (o, w) => if o / 0x4000 = PType.cnv.page + c then some (o % 0x4000, w) else none) ++
  (a.canv.filter fun e => e.1 = c).flatMap fun e => e.2.words

/-- Changes in the order in which they apply at one latch point: register-originated ones first (R25, R58). -/
def registersFirst (l : List Admitted) : List Admitted := l.filter (·.registers) ++ l.filter (! ·.registers)

/-- The admitted changes that wait on canvas `c`, flips apart, in the order they will apply. -/
def Dev.waitingOn (d : Dev) (c : Nat) : List Admitted :=
  let l := d.scene.flight.filter fun a => !a.flip && a.pend.contains c
  registersFirst (l.filter fun a => a.skips c = 0) ++ registersFirst (l.filter fun a => a.skips c ≠ 0)

/-- The admitted changes that apply at canvas `c`'s next latch point. While the page's `HOLD` reads 1 no boundary applies
register-originated values (R329). -/
def Dev.dueAt (d : Dev) (c : Nat) : List Admitted :=
  registersFirst (d.scene.flight.filter fun a => !a.flip && a.pend.contains c && a.skips c = 0 &&
    !(a.registers && !a.enable && d.held (PType.cnv.page + c)))

/-- Settings with words written over them. -/
def overlay (r : CanvasRegs) (l : List (Nat × Word)) : CanvasRegs :=
  l.foldl (fun r e off => if off = e.1 then e.2 else r off) r

/-- Settings with the words of changes written over them, in their order. -/
def Dev.regsWith (d : Dev) (c : Nat) (l : List Admitted) : CanvasRegs :=
  l.foldl (fun r a => overlay r (a.wordsFor c)) (d.cregs c)

/-- The settings of canvas `c` as they stand after every admitted change. Values admitted while the canvas drains wait for
OFF (R328). -/
def Dev.admRegs (d : Dev) (c : Nat) : CanvasRegs :=
  if (d.canvas c).state = .draining then overlay (d.cregs c) (d.admittedOf .cnv c) else d.regsWith c (d.waitingOn c)

/-! ## The pool (R297, R299) -/

/-- The blocks reserved or allocated for canvas `c`'s scan buffer: the most that the buffer it has, the settings in effect and
those that its waiting changes leave at each latch point ask for (R297). -/
def Dev.reserved (d : Dev) (c : Nat) : Nat :=
  let x := d.canvas c
  match x.state with
  | .off | .draining => x.blocks
  | .starting | .running | .relink =>
    let now := (d.waitingOn c).filter fun a => a.skips c = 0
    max (max x.blocks (scanBlocks (d.cregs c))) (max (scanBlocks (d.regsWith c now)) (scanBlocks (d.admRegs c)))

/-- Staging blocks lent above the minimum to open and committed transactions (R299). -/
def Dev.lent (d : Dev) : Nat :=
  (d.queues.map fun e => match e.2.txn with | some t => t.lent | none => 0).sum +
  (d.scene.admQ.map fun r => match r with | .txn t => t.lent | .clear _ _ n => n | _ => 0).sum +
  (d.scene.flight.map (·.lent)).sum

/-- Scan-buffer blocks reserved or allocated, but for canvas `c`. -/
def Dev.scanUse (d : Dev) (c : Option Nat) : Nat :=
  (d.canvases.map fun e => if some e.1 = c then 0 else d.reserved e.1).sum

/-- Blocks withheld by BIST: sixteen for each withheld pool macro (R301). -/
def Dev.withheld (d : Dev) : Nat := 16 * d.cru.withheld.length

/-- FREE of R297, without subtracting canvas `c`'s own buffer. -/
def Dev.free (d : Dev) (c : Option Nat) : Nat :=
  19104 - d.fld .cru 0 CRU_UREG 14 0 - 161 - d.scanUse c - d.lent - d.withheld

end Sys2Proof.Machine
end

