-- ==== Sys2Proof/Machine/Staging.lean ====
section
/-!
DEFINITION. Transaction staging and the opening of transactions (R48 to R50, R53, R299), with the pauses that hold a
`SCENE_BEGIN`.
-/
namespace Sys2Proof.Machine

/-- The staging blocks lent above the reserved minimum to the transaction that queue `q` opens with ID `id`: a free value from 1
to 97, the blocks that the limits of R49 take (R296, R299; notes/assumptions/10.md). -/
def Dev.loan (d : Dev) (q : Nat) (id : BitVec 16) : Nat := (Config.stagingLoan q id.toNat d.time.toNat).val + 1

/-- The reserved minimum is in use: by an open transaction of a queue other than `q`, by a committed one, or by the clears
of a function-level reset. -/
def Dev.minInUse (d : Dev) (q : Nat) : Bool :=
  (d.queues.any fun e => e.1 != q && e.2.txn.any fun t => t.lent = 0) ||
  (d.scene.admQ.any fun r => match r with | .txn t => t.lent = 0 | .clear _ _ n => n = 0 | _ => false) ||
  (d.scene.flight.any fun a => (a.queue.isSome || a.flrOf.isSome) && a.lent = 0 && !a.done)

/-- The blocks to be lent to a transaction that queue `q` opens: none where the minimum is free; no value where there is
no staging for it. The staging of the queue's own open transaction counts as free, since the new one replaces it. -/
def Dev.stagingFor (d : Dev) (q : Nat) (id : BitVec 16) : Option Nat :=
  if ¬ d.minInUse q then some 0
  else
    let own := match (d.queue q).txn with | some t => t.lent | none => 0
    if d.loan q id ≤ d.free none + own then some (d.loan q id) else none

/-- A refused notice of queue `q` on the arrival of an entry (R199, R208). -/
def Dev.arrivalRefusal (d : Dev) (q : Nat) (txn : BitVec 16) (reason slot kind index : Nat) : Notice :=
  refusedNotice q (d.queue q).epoch txn reason slot kind index d.time

/-- The open transaction of queue `q` is refused on arrival of an entry: its entries complete and its staging is freed
(R50). -/
def Dev.refuseOpen (q reason slot kind index : Nat) (d : Dev) : Dev :=
  let x := d.queue q
  match x.txn with
  | none => d
  | some t =>
    (d.setQueue q { x with txn := none }).noticeThen t.owner (d.arrivalRefusal q t.id reason slot kind index)
      (Dev.completeGrp q t.grp)

/-- The group of the entry that arrived last at queue `q`. -/
def Queue.lastGrp (x : Queue) : Nat := (x.entries.getLast?.map (·.grp)).getD 0

/-- A `SCENE_BEGIN` that has been consumed, with word 0 `w`, opens its transaction, or pauses its queue (R50, R53). -/
def Dev.beginScene (q : Nat) (w : Word) (d : Dev) : Dev :=
  let x := d.queue q
  if 4 ≤ x.outst then d.setQueue q { x with pause := some .txn, heldWords := [w] }
  else match d.stagingFor q (w.extractLsb' 16 16) with
    | none => d.setQueue q { x with pause := some .stage, heldWords := [w] }
    | some n =>
      let d := match x.txn with | some t => d.refuseOpen q 0x02 t.slots 0 0 | none => d
      let x := d.queue q
      d.setQueue q { x with
        pause := none, heldWords := [], discard := false
        txn := some { queue := some q, grp := x.lastGrp, owner := d.owner q, epoch := x.epoch,
                      id := w.extractLsb' 16 16, slots := 1, lent := n } }

/-- The held `SCENE_BEGIN` of queue `q` is tried again. -/
def Dev.retryScene (q : Nat) (d : Dev) : Dev :=
  let x := d.queue q
  if x.pause = some .txn ∨ x.pause = some .stage then d.beginScene q (wordAt x.heldWords 0) else d

/-- A committed transaction of queue `q` is complete: one fewer is outstanding, and its entries complete (R53, R59). -/
def Dev.txnDone (q grp : Nat) (d : Dev) : Dev :=
  let x := d.queue q
  ((d.setQueue q { x with outst := x.outst - 1 }).completeGrp q grp).retryScene q

/-- Queues paused for staging try again once staging is freed, in ascending number (R53, R198). -/
def Dev.stagingFreed (d : Dev) : Dev :=
  ((d.queues.filter fun e => e.2.pause = some .stage).map (·.1)).foldl (fun d q => d.retryScene q) d

end Sys2Proof.Machine
end

