-- ==== Sys2Proof/Machine/Scene.lean ====
section
/-!
DEFINITION. The scene: admitted changes and the tables each canvas is composed from, validation of transactions (R51),
affected canvases (R52), and how admitted changes apply and complete (R55 to R62).
-/
namespace Sys2Proof.Machine

/-! ## Admitted changes -/

/-- The tables as they stand after every admitted change (R51). -/
def Dev.admTables (d : Dev) : Tables :=
  d.scene.flight.foldl (fun t a => (t.putWins a.wins).putSurfs a.surfs) d.tables

/-- Whether canvas `c` is composed with an admitted change in its tables. One that affects it shows once it has applied there;
one that does not, once nothing admitted before it still waits there: on a canvas, changes apply in the order of their commit
points (R56, R58). `open'` says that nothing before it waits. -/
def Admitted.showsIn (a : Admitted) (c : Nat) (open' : Bool) : Bool :=
  if a.aff.contains c then !a.pend.contains c else open'

/-- The tables that canvas `c` is composed from, from the changes in flight in the order of their commit points. -/
def viewFrom (c : Nat) : Bool → Tables → List Admitted → Tables
  | _, t, [] => t
  | open', t, a :: l =>
    viewFrom c (open' && !a.pend.contains c) (if a.showsIn c open' then (t.putWins a.wins).putSurfs a.surfs else t) l

/-- The tables that canvas `c` is composed from: changes that wait on it are not yet in them. -/
def Dev.viewOf (d : Dev) (c : Nat) : Tables := viewFrom c true d.tables d.scene.flight

/-- The windows that show on a canvas, each with its surface, in ascending index. An entry that the Crucible found
uncorrectable takes no part, nor does a window that names such a surface (R300). -/
def Dev.shown (d : Dev) (t : Tables) (r : CanvasRegs) : List (Nat × WinImg × SurfImg) :=
  (t.placed r).filterMap fun p =>
    if d.cru.badWins.contains p.idx ∨ d.cru.badSurfs.contains p.win.surf.toNat then none
    else some (p.idx, p.win, p.surf)

/-- What canvas `c` is composed from now. -/
def Dev.snap (d : Dev) (c : Nat) : SceneSnap :=
  let r := d.cregs c
  { wall := (r CNV_VIEW).setWidth 3, x0 := r CNV_ORG_X, y0 := r CNV_ORG_Y, bg := (r CNV_BG).setWidth 30,
    ctl := d.reg .csp c CSP_CTL, mat := (List.range 6).map fun m => d.reg .csp c (CSP_MAT + 4 * m),
    wins := d.shown (d.viewOf c) r }

/-! ## Rights to indices (R308, R309) -/

/-- Function `f` owns index `i` by a range table: the PF owns every index, a VF those of its two ranges (R308). -/
def inRanges (ranges : FMap Word) (first last : Nat) (f i : Nat) : Bool :=
  f = 0 || [2 * f, 2 * f + 1].any fun k =>
    let w := FMap.get (fun _ => 0) ranges k
    decide (bits w first 0 ≤ i) && decide (i < bits w first 0 + bits w last 16)

/-- Function `f` owns window index `i`. -/
def Dev.ownsWin (d : Dev) (f i : Nat) : Bool := inRanges d.acc.scene 14 31 f i
/-- Function `f` owns surface index `j`. -/
def Dev.ownsSurf (d : Dev) (f j : Nat) : Bool := inRanges d.acc.surface 13 30 f j

/-- The right of function `f` to page `n`: 0 none, 1 RO, 2 RW (R311). A reserved code grants nothing. The PF holds RW on
every page; a VF holds RW on the queue pages it owns, and none on `ACC`, the CQE global page and the witness table. -/
def Dev.right (d : Dev) (f n : Nat) : Nat :=
  if f = 0 then 2
  else if n = PType.acc.page ∨ n = PType.cqe.page ∨ (1344 ≤ n ∧ n < 1360) then 0
  else if 768 ≤ n ∧ n < 1024 ∧ d.owner (n - 768) = f then 2
  else
    let (w0, w1, w2, w3) := FMap.get (fun _ => (0, 0, 0, 0)) d.acc.rights (f * 32 + n / 64)
    let w := match n % 64 / 16 with | 0 => w0 | 1 => w1 | 2 => w2 | _ => w3
    let k := bits w (2 * (n % 16) + 1) (2 * (n % 16))
    if k = 3 then 0 else k

/-- Plane 1 is in use: NV12 and P010, and Frit (R43). -/
def SurfImg.plane1 (s : SurfImg) : Bool := s.layout = 2 || s.fmt = 6 || s.fmt = 7

/-- The plane extents of a surface, as start and length (R309). -/
def SurfImg.extents (s : SurfImg) : List (Nat × Nat) :=
  let h := s.height.toNat
  let p0 := (s.addr0.toNat, if s.layout = 0 then h * s.pitch0.toNat else ceilDiv h 64 * s.pitch0.toNat)
  if ¬ s.plane1 then [p0]
  else [p0, (s.addr1.toNat, if s.layout = 2 then ceilDiv h 8 * s.pitch1.toNat else h / 2 * s.pitch1.toNat)]

/-- A surface's extents lie in the read-granting windows of function `f`'s slot (R309). -/
def Dev.surfReadable (d : Dev) (f : Nat) (s : SurfImg) : Bool :=
  s.extents.all fun (a, n) => d.allowed f a n false

/-! ## The checks of R51 -/

/-- The least pitches of R92. -/
def SurfImg.pitchOk (s : SurfImg) : Bool :=
  let w := s.width.toNat
  let least0 := if s.layout = 0 then roundUp (w * fmtBytes s.fmt.toNat) 64 else ceilDiv w 64 * 16384
  let least1 := if s.layout = 2 then roundUp (ceilDiv w 8) 64 else if s.fmt = 6 then roundUp w 64
    else if s.fmt = 7 then roundUp (2 * w) 64 else 0
  decide (least0 ≤ s.pitch0.toNat) && (!s.plane1 || decide (least1 ≤ s.pitch1.toNat))

/-- 0x06 `FIELD` for a valid surface. -/
def SurfImg.fieldOk (s : SurfImg) : Bool :=
  decide (s.layout.toNat ≤ 2) && decide (s.fmt.toNat ≤ 8) &&
  decide (1 ≤ s.width.toNat) && decide (s.width.toNat ≤ 16384) &&
  decide (1 ≤ s.height.toNat) && decide (s.height.toNat ≤ 16384) && s.pitchOk

/-- 0x06 `FIELD` for a valid window. -/
def WinImg.fieldOk (w : WinImg) : Bool :=
  decide (w.blend.toNat ≤ 4) && decide (1 ≤ w.dstW.toNat) && decide (1 ≤ w.dstH.toNat) &&
  decide (0x10 ≤ w.srcW.toNat) && decide (w.srcW.toNat ≤ 0x40000) &&
  decide (0x10 ≤ w.srcH.toNat) && decide (w.srcH.toNat ≤ 0x40000)

/-- The even-size rule of R44. -/
def SurfImg.evenOk (s : SurfImg) : Bool :=
  ((s.fmt ≠ 6 && s.fmt ≠ 7) || (s.width.toNat % 2 = 0 && s.height.toNat % 2 = 0)) &&
  (s.fmt ≠ 8 || s.width.toNat % 2 = 0)

/-- 0x08 `GEOM`: the source rectangle of a window lies in its surface. -/
def WinImg.sourceOk (w : WinImg) (s : SurfImg) : Bool :=
  decide (w.srcX.toNat + w.srcW.toNat ≤ 16 * s.width.toNat) && decide (w.srcY.toNat + w.srcH.toNat ≤ 16 * s.height.toNat)

/-- 0x08 `GEOM`: the destination of a window lies on its wall. -/
def WinImg.destOk (w : WinImg) : Bool :=
  decide (w.dstX.toInt + w.dstW.toNat - 1 ≤ 2147483647) && decide (w.dstY.toInt + w.dstH.toNat - 1 ≤ 2147483647)

/-- One ratio lies from 1/8 to 16: `dst` destination pixels of `ext` / 16 source pixels (R42). -/
def ratioOk (dst ext : Nat) : Bool := decide (ext ≤ 128 * dst) && decide (dst ≤ ext)

/-- 0x09 `RATIO`. -/
def WinImg.ratiosOk (w : WinImg) : Bool := ratioOk w.dstW.toNat w.extH && ratioOk w.dstH.toNat w.extV

/-- 0x0A `LAYOUT` for a surface: only the three 32-bit formats are tiled or Frit (R44). -/
def SurfImg.layoutOk (s : SurfImg) : Bool := s.layout = 0 || decide (s.fmt.toNat ≤ 2)

/-- 0x0C `ADDR` for a valid surface (R11, R43). -/
def Dev.addrOk (d : Dev) (s : SurfImg) : Bool :=
  s.extents.all (fun (a, n) => decide (a + n ≤ d.capacity)) &&
  s.addr0.toNat % 256 = 0 && s.pitch0.toNat % 64 = 0 &&
  (!s.plane1 || (s.addr1.toNat % 256 = 0 && s.pitch1.toNat % 64 = 0))

/-- The codes from 0x08 to 0x0B that a valid window and its surface fail together: each entry of the two fails them. -/
def pairFails (w : WinImg) (s : SurfImg) : List Nat :=
  (if w.sourceOk s then [] else [0x08]) ++ (if w.turned && s.layout = 0 then [0x0A] else []) ++
  (if !w.cscEn && (s.fmt = 6 || s.fmt = 7 || s.fmt = 8) then [0x0B] else [])

/-- The codes from 0x06 to 0x0B that a valid window fails with the tables as they will stand. -/
def windowFails (t : Tables) (w : WinImg) : List Nat :=
  let s := t.surf w.surf.toNat
  (if w.fieldOk then [] else [0x06]) ++ (if s.valid then [] else [0x07]) ++ (if w.destOk then [] else [0x08]) ++
  (if w.ratiosOk then [] else [0x09]) ++ pairFails w s

/-- The codes from 0x06 to 0x0C that a valid surface fails on its own account. -/
def Dev.surfaceFails (d : Dev) (s : SurfImg) : List Nat :=
  (if s.fieldOk then [] else [0x06]) ++ (if s.evenOk then [] else [0x08]) ++ (if s.layoutOk then [] else [0x0A]) ++
  (if d.addrOk s then [] else [0x0C])

/-- Why a change is refused: reason code, slot offset, index kind and index, and words 6 and 7 of the notice (R208). -/
structure Refuse where
  code : Nat
  slot : Nat := 0
  kind : Nat := 0
  index : Nat := 0
  w6 : Word := 0
  w7 : Word := 0
  deriving DecidableEq, Repr

/-- The lower code, of equal codes the earlier entry, and of one entry the earlier finding (R51). -/
def Refuse.first (a : Refuse) : Option Refuse → Refuse
  | none => a
  | some b => if b.code < a.code ∨ (b.code = a.code ∧ b.slot < a.slot) then b else a

/-- The finding with the lowest code; of those, the earliest entry's. -/
def lowestRefuse : List Refuse → Option Refuse
  | [] => none
  | a :: l => some (a.first (lowestRefuse l))

/-- What a change writes: the last image for each index. -/
structure Change where
  wins : List (Nat × WinImg) := []
  surfs : List (Nat × SurfImg) := []
  canv : List (Nat × CanvasVals) := []

/-- The last write to each index of a transaction (R48). -/
def Txn.change (t : Txn) : Change :=
  t.entries.foldl (fun c e => match e.op with
    | .window i img => { c with wins := FMap.insert i img (FMap.erase c.wins i) }
    | .surface j img => { c with surfs := FMap.insert j img (FMap.erase c.surfs j) }
    | .canvas k v => { c with canv := FMap.insert k v (FMap.erase c.canv k) }) {}

/-- A transaction's entries whose write is the last to its index. -/
def Txn.finals (t : Txn) : List TxnEntry :=
  let c := t.change
  t.entries.filter fun e => match e.op with
    | .window i img => c.wins.contains (i, img)
    | .surface j img => c.surfs.contains (j, img)
    | .canvas k v => c.canv.contains (k, v)

/-- The findings of one entry (R51 codes 0x05 to 0x0C, and 0x0E). `old` and `t` are the tables before and after. -/
def Dev.entryFails (d : Dev) (f : Nat) (old t : Tables) (e : TxnEntry) : List Refuse :=
  match e.op with
  | .window i w =>
    let s := t.surf w.surf.toNat
    let own := d.ownsWin f i && (!w.valid || (d.ownsSurf f w.surf.toNat && (!s.valid || d.surfReadable f s)))
    ((if own then [] else [0x05]) ++ (if w.valid then windowFails t w else [])).map fun c =>
      { code := c, slot := e.slot, kind := 1, index := i }
  | .surface j s =>
    let users := (t.wins.filter fun x => x.2.valid && x.2.surf.toNat = j).map (·.2)
    let own := d.ownsSurf f j && (!s.valid || d.surfReadable f s)
    let lost := (old.surf j).valid && !s.valid && !users.isEmpty
    ((if own then [] else [0x05]) ++ (if lost then [0x07] else []) ++
      (if s.valid then d.surfaceFails s ++ users.flatMap (pairFails · s) else [])).map fun c =>
      { code := c, slot := e.slot, kind := 2, index := j }
  | .canvas c v =>
    let own := decide (d.right f (PType.cnv.page + c) = 2)
    let view := viewOk (overlay (d.admRegs c) v.words)
    ((if own then [] else [0x05]) ++ (if view then [] else [0x0E])).map fun k =>
      { code := k, slot := e.slot, kind := 3, index := c }

/-! ## Affected canvases and real changes (R52) -/

/-- A change with the writes that leave an image or a canvas's values as they stand taken out. A rewrite of an entry that
the Crucible found uncorrectable counts: it restores the entry (R300). -/
def Dev.realChange (d : Dev) (old : Tables) (ch : Change) : Change :=
  { wins := ch.wins.filter fun (i, w) => old.win i ≠ w || d.cru.badWins.contains i
    surfs := ch.surfs.filter fun (j, s) => old.surf j ≠ s || d.cru.badSurfs.contains j
    canv := ch.canv.filter fun (c, v) => v.words.any fun (o, w) => (d.admRegs c) o ≠ w }

/-- A window image shows on a canvas. -/
def showsOn (r : CanvasRegs) (w : WinImg) : Bool := (placeWin r 0 w {}).isSome

/-- A canvas sees a change (R52); `old` and `t` are the tables before and after, `r` its settings after. -/
def seesChange (old t : Tables) (ch : Change) (c : Nat) (r : CanvasRegs) : Bool :=
  (ch.wins.any fun (i, w) => showsOn r (old.win i) || showsOn r w) ||
  (ch.surfs.any fun (j, _) => t.wins.any fun (_, w) => w.valid && w.surf.toNat = j && showsOn r w) ||
  (ch.canv.any fun (k, _) => k = c)

/-- The enabled canvases: neither OFF nor DRAINING. -/
def Dev.live (d : Dev) : List Nat :=
  (d.canvases.filter fun e => e.2.state ≠ .off && e.2.state ≠ .draining).map (·.1)

/-- The settings of canvas `c` after every admitted change and this one. -/
def Dev.regsAfter (d : Dev) (ch : Change) (regs : List (Nat × Word)) (c : Nat) : CanvasRegs :=
  let a : Admitted := { regs := regs, canv := ch.canv }
  overlay (d.admRegs c) (a.wordsFor c)

/-- The affected canvases of a change, ascending (R52). -/
def Dev.affected (d : Dev) (old t : Tables) (ch : Change) (regs : List (Nat × Word)) : List Nat :=
  d.live.filter fun c =>
    seesChange old t ch c (d.regsAfter ch regs c) || regs.any fun (o, _) => o / 0x4000 = PType.cnv.page + c

/-! ## Flips (R60) -/

/-- Two surfaces differ at most in their plane addresses. -/
def SurfImg.sameShape (a b : SurfImg) : Bool := { a with addr0 := b.addr0, addr1 := b.addr1 } = b

/-- A change of `SURF` alone between two `LATCH` = 1 images, to a surface of the same shape. -/
def flipWin (t : Tables) (a b : WinImg) : Bool :=
  a.latch && b.latch && { a with surf := b.surf } = b && (t.surf a.surf.toNat).sameShape (t.surf b.surf.toNat)

/-- A change is a flip (R60). -/
def isFlip (old t : Tables) (ch : Change) : Bool :=
  !(ch.wins.isEmpty && ch.surfs.isEmpty) && ch.canv.isEmpty &&
  (ch.wins.all fun (i, w) => flipWin old (old.win i) w) &&
  (ch.surfs.all fun (j, s) => (old.surf j).sameShape s &&
    (t.wins.all fun (_, w) => !(w.valid && w.surf.toNat = j) || w.latch))

/-! ## Frame-lock groups (R57, R155) -/

/-- The root source of a canvas: none; 128 `GENLOCK_IN`; 129 `FSYNC_IN`; or a free-running canvas. -/
def Dev.rootOf (d : Dev) (c : Nat) : Nat :=
  let src := fun k => d.fld .cnv k CNV_LOCK 31 30
  match src c with
  | 0 => c
  | 1 => 128
  | 2 => 129
  | _ =>
    let m := d.fld .cnv c CNV_LOCK 22 16
    match src m with | 1 => 128 | 2 => 129 | _ => m

/-- The frame-lock group of an enabled canvas, named by its root: it is LOCKED, or it is the free-running master that a
LOCKED canvas follows (R155). -/
def Dev.groupOf (d : Dev) (c : Nat) : Option Nat :=
  if ¬ d.live.contains c then none
  else if (d.canvas c).lock.lstate = .locked then some (d.rootOf c)
  else if d.fld .cnv c CNV_LOCK 31 30 = 0 ∧
      d.live.any (fun k => (d.canvas k).lock.lstate = .locked && d.rootOf k = c) then some c
  else none

/-- Band 0 of the frame after the one being scanned out has been released; frame 0 follows frame −1. -/
def Canvas.latchedNext (x : Canvas) : Bool :=
  let next := if x.state = .starting then 0 else x.scanFrame + 1
  decide (next < x.compFrame) || (next = x.compFrame && decide (0 < x.nextBand))

/-- The latch point of the next frame has passed: its band 0 is released and no longer waits to be dealt (R55). -/
def Dev.latched (d : Dev) (c : Nat) : Bool :=
  let x := d.canvas c
  x.latchedNext && !(d.comp.deal.any fun r => r.canvas = c && !r.par && !r.latched && r.band = 0)

/-- How far canvas `c`'s lock target lies behind the reference event of its root: its own offset, and that of a master that is
locked itself. Frames of two members whose targets follow one reference event correspond (R155; DEDUCED,
notes/assumptions/27.md). -/
def Dev.lockOffset (d : Dev) (c : Nat) : Int :=
  let ofs := fun k => (d.reg .cnv k CNV_LOCK_OFS).toInt
  match d.fld .cnv c CNV_LOCK 31 30 with
  | 0 => 0
  | 3 =>
    let m := d.fld .cnv c CNV_LOCK 22 16
    ofs c + (if d.fld .cnv m CNV_LOCK 31 30 = 0 then 0 else ofs m)
  | _ => ofs c

/-- When, by timebase, the reference event fell that the frame of canvas `c`'s last latch point follows. -/
def Dev.lastLatchEvent (d : Dev) (c : Nat) : Int :=
  let x := d.canvas c
  ((if d.latched c then x.fsTb.toNat + x.period else x.fsTb.toNat : Nat) : Int) - d.lockOffset c

/-- Whether canvas `c` must let one latch point pass so that its lock group's affected canvases change in one frame: a
member has already latched a later frame (R57). -/
def Dev.groupWaits (d : Dev) (aff : List Nat) (c : Nat) : Bool :=
  match d.groupOf c with
  | none => false
  | some g => aff.any fun o =>
      d.groupOf o = some g && decide (d.lastLatchEvent c + ((d.canvas c).period / 2 : Nat) < d.lastLatchEvent o)

/-- The latch points that a change affecting `aff` lets pass on canvas `c`: as R57 asks, and never fewer than a change
admitted earlier that waits there (R58). `late` asks for one more (R160). -/
def Dev.skipFor (d : Dev) (aff : List Nat) (late : Bool) (c : Nat) : Nat :=
  let own := if late || d.groupWaits aff c then 1 else 0
  (d.waitingOn c).foldl (fun m a => max m (a.skips c)) own

/-! ## Completion (R59, R62) -/

/-- The ring that hears of a change: the queue owner's, or the PF's (R207). -/
def Admitted.ring (a : Admitted) : Nat := if a.reg then 0 else a.owner

/-- The applied notice (R208). -/
def Admitted.appliedNotice (a : Admitted) : Notice :=
  let f := a.first.getD a.commitTb
  let l := a.last.getD a.commitTb
  { kind := 1, queue := a.queue.getD 0, epoch := a.epoch, flip := a.flip, reg := a.reg,
    w1 := place 23 16 a.applied ||| place 15 0 a.id.toNat, tb := a.commitTb,
    w4 := lo32 f, w5 := hi32 f, w6 := lo32 l, w7 := hi32 l }

/-- A change admitted later that is already complete has written window `i`: its image stands (R58). -/
def Dev.laterWin (d : Dev) (no i : Nat) : Bool :=
  d.scene.flight.any fun a => decide (no < a.no) && a.done && a.wins.any fun e => e.1 = i
/-- As for windows, of surface `j`. -/
def Dev.laterSurf (d : Dev) (no j : Nat) : Bool :=
  d.scene.flight.any fun a => decide (no < a.no) && a.done && a.surfs.any fun e => e.1 = j

/-- The tables take a completed change: each entry whose image changes counts one in `SEQ` and takes the ID (R40). -/
def Dev.writeTables (a : Admitted) (d : Dev) : Dev :=
  let wins := (a.wins.filter fun e => !d.laterWin a.no e.1).foldl (fun m (i, img) =>
    let e := FMap.get (fun _ => ({} : WinEnt)) m i
    if e.img = img then m else FMap.put (fun _ => {}) m i { img := img, seq := e.seq + 1, txn := a.id }) d.scene.wins
  let surfs := (a.surfs.filter fun e => !d.laterSurf a.no e.1).foldl (fun m (j, img) =>
    let e := FMap.get (fun _ => ({} : SurfEnt)) m j
    if e.img = img then m else FMap.put (fun _ => {}) m j { img := img, seq := e.seq + 1, txn := a.id }) d.scene.surfs
  let cru := { d.cru with
    badWins := d.cru.badWins.filter fun i => !a.wins.any fun e => e.1 = i
    badSurfs := d.cru.badSurfs.filter fun j => !a.surfs.any fun e => e.1 = j
    badGroups := d.cru.badGroups.filter fun k => !(a.wins.any fun e => k / 16 = e.1) &&
      !(a.surfs.any fun e => k / 8 = 0x400000 / 64 + e.1) }
  { d with scene := { d.scene with wins := wins, surfs := surfs }, cru := cru }

/-- Completed changes at the front of the flight are forgotten: nothing admitted earlier is still to apply. The images that they
leave are those that stand before the rest. -/
def dropComplete : Tables → List Admitted → Tables × List Admitted
  | t, [] => (t, [])
  | t, a :: l => if a.done then dropComplete ((t.putWins a.wins).putSurfs a.surfs) l else (t, a :: l)

/-- A flight as it stands, once its completed front is forgotten. -/
def Dev.setFlight (l : List Admitted) (d : Dev) : Dev :=
  let r := dropComplete d.tables l
  { d with scene := { d.scene with flight := r.2, baseWins := r.1.wins, baseSurfs := r.1.surfs } }

/-- An admitted change with nothing left to wait for completes: the tables take it, its notice is written, its queue
entries complete, its staging returns (R59, R62, R299). -/
def Dev.completeChange (a : Admitted) (d : Dev) : Dev :=
  let d := d.writeTables a
  let d := d.setFlight (d.scene.flight.map fun b => if b.no = a.no then { b with lent := 0, done := true } else b)
  let done := fun d => match a.queue with
    | some q => Dev.stagingFreed (Dev.txnDone q a.grp d)
    | none => if a.flrOf.isSome then Dev.stagingFreed d else d
  if a.quiet then done d else d.noticeThen a.ring a.appliedNotice done

/-- Complete, in the order in which they applied, those of the listed changes that no longer wait on any canvas. -/
def Dev.completeAll (nos : List Nat) (d : Dev) : Dev :=
  nos.foldl (fun d n =>
    match d.scene.flight.find? (fun a => a.no = n) with
    | some a => if a.pend.isEmpty then d.completeChange a else d
    | none => d) d

/-- An admitted change has applied on canvas `c` at timebase `t`. -/
def Admitted.appliedOn (c : Nat) (t : Quad) (a : Admitted) : Admitted :=
  { a with pend := a.pend.filter (· ≠ c), applied := a.applied + 1, first := some (a.first.getD t), last := some t }

/-- The page offsets of the timing registers (R149). -/
def timingOffs : List Nat := [CNV_TIM_H, CNV_TIM_HS, CNV_TIM_V, CNV_TIM_VS, CNV_SCLK, CNV_BUF]
/-- The page offsets of the viewport registers (R24). -/
def viewOffs : List Nat := [CNV_VIEW, CNV_ORG_X, CNV_ORG_Y]
/-- The page offsets of the fields that the ledger admits (R63, R330). -/
def admittedOffs : List Nat := viewOffs ++ [CNV_PRIO, CNV_LDG, CNV_PAR] ++ timingOffs

/-- A value of `CNV_LOCK` names the canvas itself, or a master whose own `SRC` is 0b11 (R155). -/
def Dev.lockBad (d : Dev) (c : Nat) (w : Word) : Bool :=
  let m := bits w 22 16
  bits w 31 30 = 3 && (m = c || d.fld .cnv m CNV_LOCK 31 30 = 3)

/-- A valid value of `CNV_LOCK` applies: the lock state follows the source (R157). A new source or master starts the
acquisition afresh (DEDUCED, notes/assumptions/9.md). -/
def Dev.applyLock (c : Nat) (w : Word) (d : Dev) : Dev :=
  let x := d.canvas c
  let old := d.reg .cnv c CNV_LOCK
  let lock :=
    if bits w 31 30 = 0 then {}
    else if bits old 31 30 ≠ bits w 31 30 ∨ bits old 22 16 ≠ bits w 22 16 then
      { lstate := LState.acquiring, trim := x.lock.trim : LockSt }
    else x.lock
  (d.setReg .cnv c CNV_LOCK w).setCanvas c { x with lockErr := false, lock := lock }

/-- The page offsets of the registers that decide whether a viewport lies on its wall: its own, and those of *W* and *H*
(R23). -/
def viewErrOffs : List Nat := viewOffs ++ [CNV_TIM_H, CNV_TIM_V]

/-- One word takes effect in canvas `c`'s page; the error bit of a set that is now valid clears. -/
def Dev.applyWord (c : Nat) (e : Nat × Word) (d : Dev) : Dev :=
  if e.1 = CNV_LOCK then d.applyLock c e.2
  else
    let x := d.canvas c
    (d.setReg .cnv c e.1 e.2).setCanvas c
      { x with timErr := x.timErr && !timingOffs.contains e.1, viewErr := x.viewErr && !viewErrOffs.contains e.1 }

/-- Words of one set no longer wait as admitted words of canvas `c`'s page. -/
def Dev.unadmit (c : Nat) (l : List (Nat × Word)) (d : Dev) : Dev :=
  l.foldl (fun d e =>
    let a := regAt .cnv c e.1
    if d.admittedAt a = some e.2 then d.setAdmittedAt a none else d) d

/-- A set of words holds a `CNV_LOCK` value that R155 forbids for canvas `c`. -/
def Dev.lockBars (d : Dev) (c : Nat) (l : List (Nat × Word)) : Bool := l.any fun e => e.1 = CNV_LOCK && d.lockBad c e.2

/-- One set of words takes effect in canvas `c`'s page. A set with a `CNV_LOCK` value that R155 forbids is discarded
whole (R331). -/
def Dev.applyWords (c : Nat) (l : List (Nat × Word)) (d : Dev) : Dev :=
  let d := d.unadmit c l
  if d.lockBars c l then
    (d.setCanvas c { d.canvas c with lockErr := true }).setDiscarded (PType.cnv.page + c) true
  else d.watchPll c fun d => l.foldl (fun d e => d.applyWord c e) d

end Sys2Proof.Machine
end

