-- ==== Sys2Proof/Machine/Admission.lean ====
section
/-!
DEFINITION. The commit point (R54) and the ledger's decision (R72 to R81): queued transactions, register-originated
changes, canvas enables, DMA flips, the clears of a function-level reset, and re-evaluations.
-/
namespace Sys2Proof.Machine

/-! ## Candidates -/

/-- A canvas as the ledger weighs it in one decision: its settings, direct figures and scan-fill cost as they will stand,
the mode decided so far, whether it may be demoted, and whether this decision marks it for demotion. -/
structure Cand where
  c : Nat
  regs : CanvasRegs
  fig : Fig
  fill : Nat
  mode : Mode
  dem : Bool
  marked : Bool := false

/-- The canvas will be in Parison mode. -/
def Cand.par (x : Cand) : Bool := x.marked || x.mode = .demoted || x.mode = .forced
/-- RES as it will stand (R68). -/
def Cand.mem (x : Cand) : Nat := if x.par then x.fill else x.fig.res x.regs
/-- NEED_PIPE as it will stand (R68). -/
def Cand.pipe (x : Cand) : Nat := if x.par then 0 else x.fig.needPipe
/-- The mode decided. -/
def Cand.final (x : Cand) : Mode := if x.marked then .demoted else x.mode

/-- The mode a canvas enters a decision with: forced where `PARISON` is set, direct where it no longer is (R77). -/
def modeFor (r : CanvasRegs) (m : Mode) : Mode :=
  if bit (r CNV_LDG) 29 then .forced
  else match m with | .demoted => .demoted | .direct | .forced | .disabled => .direct

/-- Canvas `c` as a candidate, with the tables and settings given. -/
def Dev.cand (d : Dev) (t : Tables) (r : CanvasRegs) (c : Nat) : Cand :=
  { c := c, regs := r, fig := d.fig t r, fill := d.scanFill r, mode := modeFor r (d.canvas c).ldg.mode,
    dem := demotable t r }

/-- The sum of RES over the enabled canvases but those listed, as last decided. -/
def Dev.memRest (d : Dev) (but : List Nat) : Nat :=
  ((d.enabled.filter (! but.contains ·)).map fun c => (d.canvas c).ldg.res).sum
/-- The sum of NEED_PIPE over the enabled canvases but those listed, as last decided. -/
def Dev.pipeRest (d : Dev) (but : List Nat) : Nat :=
  ((d.enabled.filter (! but.contains ·)).map fun c => (d.canvas c).ldg.needPipe).sum

/-- The budgets and the sums a decision works with: the share of canvases that take no part, and the sums before. -/
structure Sums where
  memBud : Nat
  pipeBud : Nat
  memRest : Nat
  pipeRest : Nat
  memBefore : Nat := 0
  pipeBefore : Nat := 0
  deriving DecidableEq, Repr

/-- The sums as a decision over canvases `cs` finds them. -/
def Dev.sums (d : Dev) (cs : List Nat) : Sums :=
  { memBud := d.memBud, pipeBud := d.pipeBud, memRest := d.memRest cs, pipeRest := d.pipeRest cs }

/-- MEM_USED with the candidates as they stand. -/
def Sums.mem (s : Sums) (l : List Cand) : Nat := s.memRest + (l.map Cand.mem).sum
/-- PIPE_USED with the candidates as they stand. -/
def Sums.pipe (s : Sums) (l : List Cand) : Nat := s.pipeRest + (l.map Cand.pipe).sum
/-- The memory sum is over budget and over what it was before. -/
def Sums.memOver (s : Sums) (l : List Cand) : Bool := decide (s.memBud < s.mem l) && decide (s.memBefore < s.mem l)
/-- The pipe sum is over budget and over what it was before. -/
def Sums.pipeOver (s : Sums) (l : List Cand) : Bool := decide (s.pipeBud < s.pipe l) && decide (s.pipeBefore < s.pipe l)

/-- The next canvas to demote: direct, unmarked, demotable, of lowest priority; ties go to the highest number (R72). -/
def nextDemotion (l : List Cand) : Option Nat :=
  (l.foldl (fun (b : Option Cand) x =>
    if x.par || !x.dem then b
    else match b with
      | none => some x
      | some y => if cPrio x.regs < cPrio y.regs ∨ (cPrio x.regs = cPrio y.regs ∧ y.c < x.c) then some x else b) none).map
    (·.c)

/-- Mark canvas `c`. -/
def markCand (c : Nat) (l : List Cand) : List Cand := l.map fun x => if x.c = c then { x with marked := true } else x

/-- Demote one canvas after another until both sums fit or none is left; at most `n` of them. -/
def demoteUntil (s : Sums) : Nat → List Cand → List Cand
  | 0, l => l
  | n + 1, l =>
    if s.memOver l || s.pipeOver l then
      match nextDemotion l with
      | some c => demoteUntil s n (markCand c l)
      | none => l
    else l

/-- The order in which promotions are tested: descending priority, then ascending number (R78). -/
def promoteBefore (a b : Cand) : Bool :=
  decide (cPrio b.regs < cPrio a.regs) || (cPrio a.regs = cPrio b.regs && decide (a.c < b.c))

/-- A candidate put into its place in the order of promotion. -/
def insertCand (x : Cand) : List Cand → List Cand
  | [] => [x]
  | y :: l => if promoteBefore x y then x :: y :: l else y :: insertCand x l

/-- Test promotions (R78): each demoted canvas with `AUTO_PROMOTE` = 1 returns to direct composition where it passes R69 and its
share check and both sums stay within budget. No rule leaves out one that this decision has demoted (R72, R80). -/
def promote (s : Sums) (l : List Cand) : List Cand :=
  let order := (l.filter fun x => (x.mode = .demoted || x.marked) && bit (x.regs CNV_LDG) 30).foldl
    (fun o x => insertCand x o) []
  order.foldl (fun l x =>
    let l' := l.map fun y => if y.c = x.c then { y with mode := Mode.direct, marked := false } else y
    if x.fig.fits x.regs && decide (s.mem l' ≤ s.memBud) && decide (s.pipe l' ≤ s.pipeBud) then l' else l) l

/-- Words 6 and 7 of a `LEDGER` or `POOL` refusal (R208). -/
def ledgerRefuse (code kind canvas band excess slot : Nat) (total : Bool) : Refuse :=
  { code := code, slot := slot, kind := if total then 0 else 3, index := if total then 0 else canvas,
    w6 := place 31 24 kind ||| place 23 8 band ||| place 7 0 canvas, w7 := BitVec.ofNat 32 excess }

/-- A change that sets `PARISON` on a canvas whose `PAR_OK` reads 0 is refused, enabled or not (R77). -/
def checkParison (t : Tables) (slot : Nat) (sets : Bool) (x : Cand) : Option Refuse :=
  if sets ∧ ¬ parOk t x.regs then some (ledgerRefuse 0x20 0 x.c x.fig.bandC (x.fig.dl + 1) slot false) else none

/-- The deadline and share check of one candidate (R72): kept, marked, or refused (R73). `sets` says that the change sets
`PARISON` on it (R77). -/
def checkCand (t : Tables) (slot : Nat) (sets : Bool) (x : Cand) : Except Refuse Cand :=
  match checkParison t slot sets x with
  | some r => .error r
  | none =>
  if x.par ∨ x.fig.fits x.regs then .ok x
  else if x.dem then .ok { x with marked := true }
  else if x.fig.dl < x.fig.cMax then .error (ledgerRefuse 0x20 0 x.c x.fig.bandC (x.fig.cMax - x.fig.dl) slot false)
  else .error (ledgerRefuse 0x20 1 x.c x.fig.bandF (x.fig.needMem - 4 * cShare x.regs) slot false)

/-- The checks of each candidate, in order. -/
def checkCands (t : Tables) (slot : Nat) (sets : Nat → Bool) : List Cand → Except Refuse (List Cand)
  | [] => .ok []
  | x :: l =>
    match checkCand t slot (sets x.c) x with
    | .error r => .error r
    | .ok y => match checkCands t slot sets l with
      | .error r => .error r
      | .ok ys => .ok (y :: ys)

/-- The decision of R72 over the affected canvases. -/
def decideCands (s : Sums) (t : Tables) (slot : Nat) (sets : Nat → Bool) (l : List Cand) : Except Refuse (List Cand) :=
  match checkCands t slot sets l with
  | .error r => .error r
  | .ok l =>
    let l := demoteUntil s l.length l
    if s.memOver l then .error (ledgerRefuse 0x20 2 0xFF 0xFFFF (s.mem l - s.memBud) slot true)
    else if s.pipeOver l then .error (ledgerRefuse 0x20 3 0xFF 0xFFFF (s.pipe l - s.pipeBud) slot true)
    else .ok (promote s l)

/-! ## Recording a decision -/

/-- The record of R84 after a decision; `SEQ` counts where the record changes. -/
def Cand.record (x : Cand) (txn : Option (BitVec 16)) (old : LdgRec) : LdgRec :=
  let new := { old with
    prio := BitVec.ofNat 8 (cPrio x.regs), mode := x.final, needMem := if x.par then x.fill else x.fig.needMem,
    needPipe := x.pipe, res := x.mem, fMax := x.fig.fMax, cMax := x.fig.cMax, bandF := x.fig.bandF, bandC := x.fig.bandC,
    dl := x.fig.dl, txn := txn.getD old.txn }
  if new = old then old else { new with seq := old.seq + 1 }

/-- Where the deciding change came from, as a mode change and its notice carry it (R79, R208). -/
structure Decider where
  cause : Nat
  reg : Bool := false
  queue : Nat := 0
  epoch : BitVec 8 := 0
  txn : BitVec 16 := 0
  withNo : Option Nat := none

/-- A decision over one canvas is recorded: its record, and the mode change that it awaits. A change decided earlier that
has not begun is given up where the canvas is to keep the mode it shows. -/
def Dev.recordCand (w : Decider) (txn : Option (BitVec 16)) (d : Dev) (x : Cand) : Dev :=
  let k := d.canvas x.c
  let change :=
    if x.final = k.ldg.mode then k.change
    else if x.final = k.mode ∧ !(k.change.any (·.latched)) then none
    else some { mode := x.final, cause := w.cause, reg := w.reg, queue := w.queue, epoch := w.epoch, txn := w.txn,
                withNo := w.withNo }
  d.setCanvas x.c { k with ldg := x.record txn k.ldg, change := change }

/-- The end of a decision: `LDG_SEQ`, the budgets and the sums; ledger-over-budget fires when the excess begins (R81). -/
def Dev.closeDecision (d : Dev) : Dev :=
  let mem := d.memRest []
  let pipe := d.pipeRest []
  let exceeds := decide (d.memBud < mem) || decide (d.pipeBud < pipe)
  let l := { d.ledger with seq := d.ledger.seq + 1, memBud := d.memBud, pipeBud := d.pipeBud, memUsed := mem,
                           pipeUsed := pipe, overBud := exceeds }
  let fires := exceeds && !d.ledger.overBud
  let d := { d with ledger := l }
  if fires then d.fire 224 0 (dbits 0 (mem - d.memBud) ||| dbits 32 (pipe - d.pipeBud)) else d

/-! ## Entering the flight -/

/-- The canvases whose words an admitted change carries. -/
def Admitted.named (a : Admitted) : List Nat :=
  ((a.canv.map (·.1)) ++ (a.regs.map fun e => e.1 / 0x4000 - PType.cnv.page)).eraseDups

/-- An admitted change enters the flight: for canvases that are not live its words apply at once, for the others its
register words wait as admitted words; a change that affects no canvas completes (R52, R59). -/
def Dev.enter (a : Admitted) (d : Dev) : Dev :=
  let a := { a with no := d.scene.nextNo, commitTb := d.time, aff := a.pend }
  let d := { d with scene := { d.scene with nextNo := d.scene.nextNo + 1, flight := d.scene.flight ++ [a] } }
  let d := (a.named.filter (! a.pend.contains ·)).foldl (fun d c => d.applyWords c (a.wordsFor c)) d
  let d := a.regs.foldl (fun d e =>
    if a.pend.contains (e.1 / 0x4000 - PType.cnv.page) then d.setAdmittedAt e.1 (some e.2) else d) d
  if a.pend.isEmpty then d.completeChange a else d

/-- A refused notice with the words of a refusal. -/
def Refuse.notice (r : Refuse) (q : Nat) (epoch : BitVec 8) (txn : BitVec 16) (reg : Bool) (tb : Quad) : Notice :=
  { refusedNotice q epoch txn r.code r.slot r.kind r.index tb with reg := reg, w6 := r.w6, w7 := r.w7 }

/-- Too many layers at a pixel of an affected canvas (R12, code 0x0D): the lowest such canvas. -/
def depthFails (slot : Nat) (l : List Cand) : List Refuse :=
  (l.filter fun x => decide (64 < x.fig.layers)).map fun x => { code := 0x0D, slot := slot, kind := 3, index := x.c }

/-- The ledger's sums as the records now stand. -/
def Dev.resum (d : Dev) : Dev :=
  let mem := d.memRest []
  let pipe := d.pipeRest []
  { d with ledger := { d.ledger with
      memUsed := mem, pipeUsed := pipe
      overBud := d.ledger.overBud && (decide (d.ledger.memBud < mem) || decide (d.ledger.pipeBud < pipe)) } }

/-- The record of canvas `c` and the sums as its settings and its mode stand. -/
def Dev.refigure (c : Nat) (d : Dev) : Dev :=
  let k := d.canvas c
  let x := { d.cand d.admTables (d.admRegs c) c with mode := match k.change with | some m => m.mode | none => k.mode }
  (d.recordCand { cause := 1 } none x).resum

/-- An admitted register set that is discarded at the boundary (R155, R331) leaves: what it decided is given up, its refused
notice is written with reason `FIELD`, and the ledger's figures of canvas `c` are those of the settings that stand
(DEDUCED, notes/assumptions/25.md). -/
def Dev.discardAdmitted (c : Nat) (a : Admitted) (d : Dev) : Dev :=
  let x := d.canvas c
  let d := d.setCanvas c { x with change := x.change.filter fun k => k.latched || k.withNo ≠ some a.no }
  let d := d.setFlight (d.scene.flight.filter (·.no ≠ a.no))
  (d.refigure c).notice 0 (({ code := 0x06, kind := 3, index := c } : Refuse).notice 0 0 0 true d.time)

/-- One change applies on canvas `c`, or its set is discarded. -/
def Dev.applyChange (c : Nat) (d : Dev) (a : Admitted) : Dev :=
  let l := a.wordsFor c
  let barred := a.registers && d.lockBars c l
  let d := d.applyWords c l
  if barred then d.discardAdmitted c a else d

/-- The changes listed apply on canvas `c`, in that order; then those that wait on no canvas complete. -/
def Dev.applyOn (c : Nat) (l : List Admitted) (d : Dev) : Dev :=
  let t := d.time
  let nos := l.map (·.no)
  let d := l.foldl (Dev.applyChange c) d
  let d := { d with scene := { d.scene with
    flight := d.scene.flight.map fun (a : Admitted) => if nos.contains a.no then a.appliedOn c t else a } }
  d.completeAll nos

/-! ## Queued transactions -/

/-- A transaction is refused at its commit point (R59, R62). A `CANVAS_SET` refused with `VIEW` leaves `CNV_VIEW.VIEW_ERR` as it
is: the bit tells of staged viewports and of timing changes (R23; DEDUCED, notes/assumptions/25.md). -/
def Dev.refuseTxn (t : Txn) (r : Refuse) (d : Dev) : Dev :=
  match t.queue with
  | none => d
  | some q => d.noticeThen t.owner (r.notice q t.epoch t.id false d.time) fun d => (d.txnDone q t.grp).stagingFreed

/-- Every finding of R51 against the entries of a transaction. An index outside the owner's ranges is a finding even
where a later entry writes the index again. -/
def Dev.txnFails (d : Dev) (t : Txn) (old new : Tables) : List Refuse :=
  (t.entries.filterMap fun e => match e.op with
    | .window i _ => if d.ownsWin t.owner i then none else some { code := 0x05, slot := e.slot, kind := 1, index := i }
    | .surface j _ => if d.ownsSurf t.owner j then none else some { code := 0x05, slot := e.slot, kind := 2, index := j }
    | .canvas c _ => if d.right t.owner (PType.cnv.page + c) = 2 then none
        else some { code := 0x05, slot := e.slot, kind := 3, index := c }) ++
  t.finals.flatMap (d.entryFails t.owner old new)

/-- The ledger's decision over the canvases that a change affects, with the checks of depth before it. -/
def Dev.decideOver (d : Dev) (t : Tables) (slot : Nat) (sets : Nat → Bool) (cands : List Cand) :
    Except Refuse (List Cand) :=
  match lowestRefuse (depthFails slot cands) with
  | some r => .error r
  | none =>
    let s := { d.sums (cands.map (·.c)) with memBefore := d.memRest [], pipeBefore := d.pipeRest [] }
    decideCands s t slot sets cands

/-- A flip is admitted at the cost already admitted, and promotions are tested on the canvases it affects (R61, R78, R84). A
promotion that it decides takes effect at the canvas's next latch point. -/
def Dev.recordFlip (w : Decider) (id : BitVec 16) (cands : List Cand) (d : Dev) : Dev :=
  (promote (d.sums (cands.map (·.c))) cands).foldl (Dev.recordCand w (some id)) d

/-- The commit point of a queued transaction. -/
def Dev.commitTxn (t : Txn) (d : Dev) : Dev :=
  if t.ecc then d.refuseTxn t { code := 0x24, slot := t.slots }
  else
    let old := d.admTables
    let ch := t.change
    let new := (old.putWins ch.wins).putSurfs ch.surfs
    let real := d.realChange old ch
    let aff := d.affected old new real []
    let cands := aff.map fun c => d.cand new (d.regsAfter real [] c) c
    match lowestRefuse (d.txnFails t old new ++ depthFails t.slots cands) with
    | some r => d.refuseTxn t r
    | none =>
      let a : Admitted :=
        { queue := t.queue, grp := t.grp, owner := t.owner, epoch := t.epoch, id := t.id, wins := real.wins,
          surfs := real.surfs, canv := real.canv, pend := aff, lent := t.lent, slots := t.slots }
      let w : Decider := { cause := 0, queue := t.queue.getD 0, epoch := t.epoch, txn := t.id,
                           withNo := some d.scene.nextNo }
      if isFlip old new real then (d.recordFlip { w with withNo := none } t.id cands).enter { a with flip := true }
      else
        match d.decideOver new t.slots (fun _ => false) cands with
        | .error r => d.refuseTxn t r
        | .ok l =>
          let skip := (aff.map fun c => (c, d.skipFor aff false c)).filter (·.2 ≠ 0)
          (l.foldl (Dev.recordCand w (some t.id)) d).enter { a with skip := skip }

/-! ## Register-originated changes -/

/-- The staged words of a request leave the staging buffer, unless they have been written again since. -/
def Dev.unstage (c : Nat) (set : List (Nat × Word)) (d : Dev) : Dev :=
  set.foldl (fun d e =>
    let a := regAt .cnv c e.1
    if d.stagedAt a = some e.2 then d.setStagedAt a none else d) d

/-- A register-originated change of canvas `c` is refused: its set is discarded, and the PF hears of it (R24, R331). `badView`
says that the set gives a viewport that R23 forbids, whichever finding the notice reports. -/
def Dev.refuseRegs (c : Nat) (badView : Bool) (r : Refuse) (d : Dev) : Dev :=
  let x := d.canvas c
  let d := d.setCanvas c { x with timErr := x.timErr || r.code = 0x06, viewErr := x.viewErr || badView }
  let d := d.setDiscarded (PType.cnv.page + c) true
  d.notice 0 (r.notice 0 0 0 true d.time)

/-- A change applies as a canvas relink (R159): it alters `CNV_SCLK`, *W*, *H* or *D*. -/
def relinks (old new : CanvasRegs) : Bool :=
  old CNV_SCLK != new CNV_SCLK || cW old != cW new || cH old != cH new || cD old != cD new

/-- Scan-out of the frame in progress has ended active line `y`. The line has ended once a later line has fallen due; the
last one ends with the canvas's active video. -/
def Canvas.ended (x : Canvas) (y : Nat) : Bool := (x.state = .running && !x.started) || decide (y + 1 < x.nextDue)

/-- A seamless change of *B* comes too late for the next latch point (R160). -/
def Dev.bandsLate (d : Dev) (c : Nat) (old new : CanvasRegs) : Bool :=
  let x := d.canvas c
  let b := min (cB old) (cB new)
  cB old != cB new && !relinks old new && !d.latched c &&
  match x.state with
  | .running => x.ended (cH old - cD old + b - 1)
  | .starting => x.gen && d.linesPassed c b 0
  | .off | .relink | .draining => false

/-- A register-originated set gives a viewport, or a timing change a *W* or *H*, that R23 forbids. -/
def viewBars (set : List (Nat × Word)) (old new : CanvasRegs) : Bool :=
  ((set.any fun e => viewOffs.contains e.1) || cW old != cW new || cH old != cH new) && !viewOk new

/-- The findings of a register-originated set before the ledger: R148 with the PLL's lock, and R23. -/
def Dev.regFails (d : Dev) (c : Nat) (set : List (Nat × Word)) (old new : CanvasRegs) : List Refuse :=
  let has := fun (l : List Nat) => set.any fun e => l.contains e.1
  let tim := has timingOffs &&
    !(d.timingOk new && (!(set.any fun e => e.1 = CNV_SCLK) || d.pllLocked (cPll new)))
  (if tim then [{ code := 0x06, kind := 3, index := c }] else []) ++
  (if viewBars set old new then [{ code := 0x0E, kind := 3, index := c }] else [])

/-- The blocks of a canvas's scan buffer do not fit the pool (R298). -/
def Dev.poolFails (d : Dev) (c : Nat) (r : CanvasRegs) : List Refuse :=
  let need := scanBlocks r
  let free := d.free (some c)
  if free < need then [ledgerRefuse 0x23 0 c 0 (need - free) 0 false] else []

/-- A change of a canvas that is not enabled is recorded: its `CNV_PRIO` (R84). -/
def Dev.recordPrio (c : Nat) (r : CanvasRegs) (d : Dev) : Dev :=
  let x := d.canvas c
  let p := BitVec.ofNat 8 (cPrio r)
  if p = x.ldg.prio then d else d.setCanvas c { x with ldg := { x.ldg with prio := p, seq := x.ldg.seq + 1 } }

/-- A set of register words that leaves the `CANVAS_SET` values of a canvas exactly as they stand is no change (R25, R52). -/
def isNoChange (old new : CanvasRegs) (set : List (Nat × Word)) : Bool :=
  set.all fun e => (CNV_BG :: viewOffs).contains e.1 && old e.1 == new e.1

/-- A register set that is no change completes at its commit point; a valid viewport has been staged (R23, R52). -/
def Dev.commitSame (c : Nat) (set : List (Nat × Word)) (d : Dev) : Dev :=
  let x := d.canvas c
  (d.setCanvas c { x with viewErr := x.viewErr && !set.any fun e => viewOffs.contains e.1 }).enter { reg := true }

/-- A register set of a canvas that is not enabled takes effect and completes at its commit point; while the canvas drains,
its values wait for OFF (R52, R328). -/
def Dev.commitIdle (c : Nat) (set : List (Nat × Word)) (new : CanvasRegs) (d : Dev) : Dev :=
  if (d.canvas c).state = .draining then
    (set.foldl (fun d e => d.setAdmittedAt (regAt .cnv c e.1) (some e.2)) d).enter { reg := true }
  else if d.lockBars c set then
    (d.applyWords c set).notice 0 (({ code := 0x06, kind := 3, index := c } : Refuse).notice 0 0 0 true d.time)
  else (d.recordPrio c new).enter { reg := true, regs := set.map fun e => (regAt .cnv c e.1, e.2) }

/-- An admitted register set of an enabled canvas: its decision is recorded and it waits for its latch point. -/
def Dev.commitLive (c : Nat) (set : List (Nat × Word)) (old new : CanvasRegs) (l : List Cand) (d : Dev) : Dev :=
  let n := d.skipFor [c] (d.bandsLate c old new) c
  let d := l.foldl (Dev.recordCand { cause := 1, reg := true, withNo := some d.scene.nextNo } (some 0)) d
  d.enter { reg := true, regs := set.map fun e => (regAt .cnv c e.1, e.2), pend := [c], skip := if n = 0 then [] else [(c, n)] }

/-- The commit point of a register-originated change of canvas `c`: `set` holds (page offset, word) pairs. -/
def Dev.commitRegs (c : Nat) (set : List (Nat × Word)) (d : Dev) : Dev :=
  let d := d.unstage c set
  let old := d.admRegs c
  let new := overlay old set
  let t := d.admTables
  let live := d.live.contains c
  let cand := d.cand t new c
  let sets := bit (new CNV_LDG) 29 && !bit (old CNV_LDG) 29
  let resizes := scanBlocks old != scanBlocks new
  match lowestRefuse (d.regFails c set old new ++ if live then depthFails 0 [cand] else []) with
  | some r => d.refuseRegs c (viewBars set old new) r
  | none =>
    if isNoChange old new set then d.commitSame c set
    else if ¬ live then
      match checkParison t 0 sets cand with
      | some r => d.refuseRegs c false r
      | none => d.commitIdle c set new
    else
      match d.decideOver t 0 (fun _ => sets) [cand], (if resizes then d.poolFails c new else []) with
      | .error r, _ => d.refuseRegs c false r
      | .ok _, r :: _ => d.refuseRegs c false r
      | .ok l, [] => (d.commitLive c set old new l).when resizes Dev.stagingFreed

/-! ## Canvas enables -/

/-- A refused enable leaves the canvas OFF (R63, R163). -/
def Dev.refuseEnable (c : Nat) (r : Refuse) (d : Dev) : Dev :=
  let x := d.canvas c
  (d.setCanvas c { x with
    en := false, timErr := x.timErr || r.code = 0x06, viewErr := x.viewErr || !viewOk (d.cregs c) }).notice 0
    (r.notice 0 0 0 true d.time)

/-- Parison modes. -/
def Mode.par (m : Mode) : Bool := m = .demoted || m = .forced

/-- The canvas as an admitted enable or the end of a relink leaves it at the start of STARTING: no frame yet, nothing in
the scan buffer, frame numbers afresh, a decided mode taken. In a Parison mode it shows its background first (R75), and a
canvas that stays in one keeps the buffers it copied (R74). -/
def Canvas.starting (x : Canvas) : Canvas :=
  let m := match x.change with | some k => k.mode | none => x.mode
  let src : FrameSrc := if m.par then .background else .direct
  { x with state := .starting, gen := false, started := false, scanFrame := 0, nextDue := 0,
           absentNow := false, absentPrev := false, compFrame := 0, nextBand := 0, relinkAt := false,
           allocated := true, scan := [], lines := [], lastWord := 0, old := none, src := src, nextSrc := src,
           par := if m.par then { x.par with writing := none, left := 0, ready := none, shown := none } else {},
           change := x.change.map fun k => { k with latched := true },
           lock := if x.lock.lstate = .none then x.lock
             else { lstate := .acquiring, ref := x.lock.ref, period := x.lock.period } }

/-- Canvas `c` enters STARTING. -/
def Dev.startCanvas (c : Nat) (d : Dev) : Dev :=
  d.setCanvas c { (d.canvas c).starting with fsNow := d.now, fsTb := d.time }

/-- The commit point of an enable (R63, R163, R165). An enable of a canvas whose `PARISON` reads 1 and whose `PAR_OK` reads 0 is
refused as a change that sets `PARISON` is: R77 names only the change (DEDUCED, notes/assumptions/25.md). -/
def Dev.commitEnable (c : Nat) (d : Dev) : Dev :=
  let x := d.canvas c
  if x.state ≠ .off then d
  else
    let r := d.cregs c
    let t := d.admTables
    let tim : List Refuse :=
      if d.timingOk r && d.pllLocked (cPll r) then [] else [{ code := 0x06, kind := 3, index := c }]
    let view : List Refuse := if viewOk r then [] else [{ code := 0x0E, kind := 3, index := c }]
    let cands := [d.cand t r c]
    match lowestRefuse (tim ++ view ++ depthFails 0 cands) with
    | some f => d.refuseEnable c f
    | none =>
      match d.decideOver t 0 (fun _ => bit (r CNV_LDG) 29) cands, d.poolFails c r with
      | .error f, _ => d.refuseEnable c f
      | .ok _, f :: _ => d.refuseEnable c f
      | .ok l, [] =>
        let no := d.scene.nextNo
        let x := { x with blocks := scanBlocks r, change := none, kBase := 0 }
        let d := l.foldl (Dev.recordCand { cause := 1, reg := true, withNo := some no } (some 0)) (d.setCanvas c x)
        let x := d.canvas c
        let d := d.setCanvas c { x with
          mode := x.ldg.mode, change := if x.ldg.mode = .demoted then x.change else none }
        (d.startCanvas c).enter { reg := true, enable := true, pend := [c] }

/-! ## Flips of the DMA, clears of a function-level reset -/

/-- The commit point of a DMA flip of window `win` between surfaces `a` and `b`, with the rights of `fn` (R226). -/
def Dev.commitFlip (fn win a b : Nat) (d : Dev) : Dev :=
  let old := d.admTables
  let img := old.win win
  let refuse := fun (r : Refuse) => d.notice fn (r.notice 0 0 0 true d.time)
  if img.surf.toNat ≠ a ∧ img.surf.toNat ≠ b then refuse { code := 0x07, kind := 1, index := win }
  else
    let new := { img with surf := BitVec.ofNat 14 (if img.surf.toNat = a then b else a) }
    let t := old.putWins [(win, new)]
    match lowestRefuse (d.entryFails fn old t { slot := 0, op := .window win new }) with
    | some r => refuse r
    | none =>
      let real := d.realChange old { wins := [(win, new)] }
      if ¬ isFlip old t real then refuse { code := 0x06, kind := 1, index := win }
      else
        let aff := d.affected old t real []
        let cands := aff.map fun c => d.cand t (d.regsAfter real [] c) c
        (d.recordFlip { cause := 0, reg := true } 0 cands).enter
          { reg := true, quiet := true, flip := true, wins := real.wins, pend := aff }

/-- The commit point of one `WINDOW_CLEAR` transaction of function `v`'s reset: never refused (R375). -/
def Dev.commitClear (v : Nat) (wins : List Nat) (lent : Nat) (d : Dev) : Dev :=
  let old := d.admTables
  let ch : Change := { wins := wins.map fun i => (i, {}) }
  let new := old.putWins ch.wins
  let real := d.realChange old ch
  let aff := d.affected old new real []
  let cands := aff.map fun c => d.cand new (d.regsAfter real [] c) c
  let s := d.sums aff
  let l := promote s cands
  let w : Decider := { cause := 0, reg := true, withNo := some d.scene.nextNo }
  let skip := (aff.map fun c => (c, d.skipFor aff false c)).filter (·.2 ≠ 0)
  (l.foldl (Dev.recordCand w (some 0)) d).enter
    { reg := true, wins := real.wins, pend := aff, skip := skip, flrOf := some v, lent := lent }

/-! ## The rows -/

/-- The request at the head of admission reaches its commit point. A re-evaluation there is decided by REEVALUATION. -/
def commitPoint (d : Dev) : Dev :=
  match d.scene.admQ with
  | [] => d
  | r :: rest =>
    let e := { d with scene := { d.scene with admQ := rest } }
    match r with
    | .reeval _ => d
    | .txn t => (e.commitTxn t).closeDecision
    | .regs c set => (e.commitRegs c set).closeDecision
    | .enable c => (e.commitEnable c).closeDecision
    | .flip fn win a b => (e.commitFlip fn win a b).closeDecision
    | .clear v wins lent => (e.commitClear v wins lent).closeDecision

/-- COMMIT_POINT: a transaction, a register-originated change, an enable or a flip ends validation and the ledger's
decision (R54). -/
def execCommitPoint (s : State) : Host.Outcome State Fault Refusal := s.dev! commitPoint

/-- The re-evaluation of every enabled canvas (R80): direct, demotable canvases are demoted until both sums are within
budget, then promotions are tested. -/
def Dev.reevaluate (cause : Nat) (d : Dev) : Dev :=
  let d := if d.clk.change = 4 then { d with clk := { d.clk with ledger := d.cclkTarget, change := 0 } } else d
  let t := d.admTables
  let cands := d.live.map fun c =>
    let x := d.cand t (d.admRegs c) c
    { x with mode := (d.canvas c).ldg.mode }
  let s := d.sums d.live
  let l := promote s (demoteUntil s cands.length cands)
  (l.foldl (Dev.recordCand { cause := cause } none) d).closeDecision

/-- The re-evaluation at the head of admission is decided. -/
def reevaluation (d : Dev) : Dev :=
  match d.scene.admQ with
  | .reeval cause :: rest => { d with scene := { d.scene with admQ := rest } }.reevaluate cause
  | .txn _ :: _ | .regs _ _ :: _ | .enable _ :: _ | .flip _ _ _ _ :: _ | .clear _ _ _ :: _ | [] => d

/-- REEVALUATION: the re-evaluation at the head of admission is decided (R80 to R82). -/
def execReevaluation (s : State) : Host.Outcome State Fault Refusal := s.dev! reevaluation

end Sys2Proof.Machine
end

