-- ==== Sys2Proof/Machine/Crc.lean ====
section
/-!
DEFINITION. The check value of R242 and the line CRC of R135.
-/
namespace Sys2Proof.Machine

/-- The parameters of R242. -/
structure CrcParams where
  w : Nat
  poly : Nat
  init : Nat
  xor : Nat
  refin : Bool
  refout : Bool
  deriving DecidableEq, Repr

/-- One step of R242 for bit `i` of an input byte. -/
def crcBit (w poly v b : Nat) : Nat :=
  let top := (v / 2 ^ (w - 1) + b) % 2
  let v := 2 * v % 2 ^ w
  if top = 1 then v ^^^ (poly % 2 ^ w) else v

/-- One input byte of R242: its bits from the most significant down. -/
def crcByte (p : CrcParams) (v : Nat) (b : Byte) : Nat :=
  let d := if p.refin then reflect 8 b.toNat else b.toNat
  [7, 6, 5, 4, 3, 2, 1, 0].foldl (fun v i => crcBit p.w p.poly v (d / 2 ^ i % 2)) v

/-- The running value after bytes. -/
def crcFeed (p : CrcParams) (v : Nat) (bs : List Byte) : Nat := bs.foldl (crcByte p) v

/-- The running value at the start. -/
def CrcParams.start (p : CrcParams) : Nat := p.init % 2 ^ p.w

/-- The result of R242 for a running value. -/
def CrcParams.result (p : CrcParams) (v : Nat) : Nat := (if p.refout then reflect p.w v else v) ^^^ (p.xor % 2 ^ p.w)

/-- The check value of bytes. -/
def CrcParams.crc (p : CrcParams) (bs : List Byte) : Nat := p.result (crcFeed p p.start bs)

/-- CRC-32 with the parameters of R135. -/
def crc32 : CrcParams :=
  { w := 32, poly := 0x04C11DB7, init := 0xFFFFFFFF, xor := 0xFFFFFFFF, refin := true, refout := true }

/-- The line CRC of R135: over the scan-buffer words of a line, each little-endian. -/
def lineCrc (ws : List Word) : Word := BitVec.ofNat 32 (crc32.crc (wordsBytes ws))

/-- The prefix of R243: a 64-bit value and a 32-bit value, each little-endian. -/
def foldPrefix (a s : Nat) : List Byte := leBytes 8 a ++ leBytes 4 s

end Sys2Proof.Machine
end

