-- ==== Sys2Proof/Machine/Frit.lean ====
section
/-!
DEFINITION. The Frit tile format (R95 to R102): header, planes, prediction, the bitstream, decoding and encoding.
-/
namespace Sys2Proof.Machine

/-- Byte `k` of a pixel word. -/
def byteOf (w k : Nat) : Nat := w / 256 ^ k % 256

/-- Sample (x, y) of a plane of 64 samples in raster order; 0 where it is not there yet. -/
def sampleAt (p : List Nat) (x y : Nat) : Nat := p.getD (8 * y + x) 0

/-- The prediction of R99. -/
def predict (p : List Nat) (x y : Nat) : Nat :=
  let a := sampleAt p (x - 1) y
  let b := sampleAt p x (y - 1)
  let c := sampleAt p (x - 1) (y - 1)
  if x = 0 ∧ y = 0 then 0
  else if y = 0 then a
  else if x = 0 then b
  else if max a b ≤ c then min a b
  else if c ≤ min a b then max a b
  else a + b - c

/-- The residual code *z* of sample `v` with prediction `q` (R99). -/
def residual (v q : Nat) : Nat :=
  let r := (v + 256 - q) % 256
  if r < 128 then 2 * r else 2 * (256 - r) - 1

/-- The sample with prediction `q` and residual code `z`. -/
def unresidual (z q : Nat) : Nat :=
  if z % 2 = 1 then (q + 256 - (z + 1) / 2 % 256) % 256 else (q + z / 2) % 256

/-- The fields of a header byte (R96). -/
structure TileHeader where
  xform : Bool
  mode : Nat
  sectors : Nat
  deriving DecidableEq, Repr

/-- A header byte read; none where its reserved bits are set, its mode is reserved, or mode, transform and sector count
do not go together (R96, R101). -/
def TileHeader.ofByte (h : Nat) : Option TileHeader :=
  let t : TileHeader := { xform := Nat.testBit h 5, mode := h / 8 % 4, sectors := h % 8 + 1 }
  if 64 ≤ h ∨ t.mode = 3 ∨ (t.xform ∧ t.mode ≠ 1) ∨ (t.mode = 0 ∧ t.sectors ≠ 1) ∨ (t.mode = 2 ∧ t.sectors ≠ 8) then none
  else some t

/-- The header byte of a tile. -/
def TileHeader.byte (t : TileHeader) : Nat := (if t.xform then 32 else 0) + 8 * t.mode + (t.sectors - 1)

/-! ## Decoding -/

/-- `n` bits of the stream from bit `pos` on: stream bit i is bit i of the slot as a little-endian number (R97). -/
def streamBits (slot pos n : Nat) : Nat := slot >>> pos % 2 ^ n

/-- Decode the samples of a group whose positions are listed: the plane so far and the stream position go along. -/
def decodeSamples (slot width : Nat) : List Nat → List Nat × Nat → List Nat × Nat
  | [], st => st
  | i :: is, (p, pos) =>
    decodeSamples slot width is (p ++ [unresidual (streamBits slot pos width) (predict p (i % 8) (i / 8))], pos + width)

/-- Decode groups from group `m` on of a plane: none where a width exceeds 8 or the stream exceeds `limit` bits. -/
def decodeGroups (slot limit : Nat) : List Nat → List Nat × Nat → Option (List Nat × Nat)
  | [], st => some st
  | m :: ms, (p, pos) =>
    let width := streamBits slot pos 4
    if 8 < width ∨ limit < pos + 4 + 16 * width then none
    else decodeGroups slot limit ms
      (decodeSamples slot width ((List.range 16).map (· + 16 * m)) (p, pos + 4))

/-- Decode `n` planes one after another. -/
def decodePlanes (slot limit : Nat) : Nat → Nat → Option (List (List Nat))
  | 0, _ => some []
  | n + 1, pos =>
    match decodeGroups slot limit [0, 1, 2, 3] ([], pos) with
    | none => none
    | some (p, pos') => (decodePlanes slot limit n pos').map fun ps => p :: ps

/-- Add plane 1 back to a plane, sample by sample (R98). -/
def addPlane (p q : List Nat) : List Nat := List.zipWith (fun a b => (a + b) % 256) p q

/-- The four byte planes joined into pixel words. -/
def joinPlanes (ps : List (List Nat)) : List Nat :=
  (List.range 64).map fun i =>
    (ps.getD 0 []).getD i 0 + 256 * (ps.getD 1 []).getD i 0 + 65536 * (ps.getD 2 []).getD i 0 +
      16777216 * (ps.getD 3 []).getD i 0

/-- The 64 pixel words of a tile from its header byte and the bytes of its slot as a number; none for a Frit decode error
(R96 to R101). -/
def fritDecode (header slot : Nat) : Option (List Nat) :=
  match TileHeader.ofByte header with
  | none => none
  | some t =>
    match t.mode with
    | 0 => some (List.replicate 64 (slot % 2 ^ 32))
    | 2 => some ((List.range 64).map fun i => slot >>> (32 * i) % 2 ^ 32)
    | _ =>
      match decodePlanes slot (256 * t.sectors) 4 0 with
      | some [p0, p1, p2, p3] =>
        some (joinPlanes (if t.xform then [addPlane p0 p1, p1, addPlane p2 p1, p3] else [p0, p1, p2, p3]))
      | _ => none

/-! ## Encoding (R102) -/

/-- A bitstream: its bits as a number, and its length. -/
structure Bitstream where
  val : Nat := 0
  len : Nat := 0
  deriving DecidableEq, Repr

/-- `n` bits appended, least significant first. -/
def Bitstream.push (s : Bitstream) (n v : Nat) : Bitstream := { val := s.val + (v % 2 ^ n) <<< s.len, len := s.len + n }

/-- The least width whose values are all below 2^width. -/
def groupWidth (zs : List Nat) : Nat := (zs.map fun z => if z = 0 then 0 else Nat.log2 z + 1).foldl max 0

/-- The residual codes of a plane in raster order. -/
def planeResiduals (p : List Nat) : List Nat :=
  (List.range 64).map fun i => residual (p.getD i 0) (predict p (i % 8) (i / 8))

/-- A plane appended to a stream (R100). -/
def Bitstream.plane (s : Bitstream) (p : List Nat) : Bitstream :=
  [0, 1, 2, 3].foldl (fun s m =>
    let zs := ((planeResiduals p).drop (16 * m)).take 16
    let k := groupWidth zs
    zs.foldl (fun s z => s.push k z) (s.push 4 k)) s

/-- The stream of a tile's words, with or without the transform (R98). -/
def tileStream (ws : List Nat) (xform : Bool) : Bitstream :=
  let pl := fun k => ws.map fun w => byteOf w k
  let sub := fun (p q : List Nat) => List.zipWith (fun a b => (a + 256 - b) % 256) p q
  let ps := if xform then [sub (pl 0) (pl 1), pl 1, sub (pl 2) (pl 1), pl 3] else [pl 0, pl 1, pl 2, pl 3]
  ps.foldl Bitstream.plane {}

/-- A tile as the device's producers encode it: the header byte and the bytes of the sectors it occupies (R102). -/
def fritEncode (ws : List Nat) : Nat × List Byte :=
  let w0 := ws.getD 0 0
  if ws.all (· = w0) then
    (TileHeader.byte { xform := false, mode := 0, sectors := 1 }, leBytes 32 w0)
  else
    let plain := tileStream ws false
    let dec := tileStream ws true
    let x := decide (dec.len ≤ plain.len)
    let s := if x then dec else plain
    if s.len ≤ 1792 then
      let n := ceilDiv s.len 256
      (TileHeader.byte { xform := x, mode := 1, sectors := n }, leBytes (32 * n) s.val)
    else (TileHeader.byte { xform := false, mode := 2, sectors := 8 }, ws.flatMap (leBytes 4))

end Sys2Proof.Machine
end

