-- ==== Sys2Proof/Machine/Numbers.lean ====
section
/-!
DEFINITION. Floating-point values of the pixel path, exactly: a 32-bit float or a half-float is an integer number of
units of 2⁻¹⁴⁹, the least 32-bit float.
-/
namespace Sys2Proof.Machine

/-- A real value in units of 2⁻¹⁴⁹. -/
abbrev Fx := Int

/-- 1.0. -/
def Fx.one : Fx := 2 ^ 149

/-- The nearest whole number to n / d, ties to even. -/
def nearestEven (n d : Nat) : Nat :=
  let q := n / d
  let r := n % d
  if 2 * r < d then q else if d < 2 * r then q + 1 else q + q % 2

/-- n / d rounded to `p` significant bits and to a multiple of `unit`, ties to even. -/
def roundBits (p unit n d : Nat) : Nat :=
  let q := max unit (2 ^ (Nat.log2 (n / d) + 1 - p))
  nearestEven n (d * q) * q

/-- The 32-bit float nearest to n / d units. -/
def toFloat (n : Int) (d : Nat) : Fx := n.sign * (roundBits 24 1 n.natAbs d : Nat)

/-- The greatest half-float, 65,504. -/
def halfMax : Fx := 65504 * Fx.one

/-- The half-float nearest to n / d units, saturating at ±65,504: so does the result of the horizontal pass, of which R112 says
only that it is rounded once (DEDUCED, notes/assumptions/11.md). -/
def toHalf (n : Int) (d : Nat) : Fx :=
  n.sign * ((min (roundBits 11 (2 ^ 125) n.natAbs d) (65504 * 2 ^ 149) : Nat) : Int)

/-- A value already in units, rounded to half-float. -/
def Fx.half (v : Fx) : Fx := toHalf v 1

/-- A product in 32-bit float. -/
def Fx.mul (a b : Fx) : Fx := toFloat (a * b) (2 ^ 149)
/-- A sum in 32-bit float. -/
def Fx.add (a b : Fx) : Fx := toFloat (a + b) 1

/-- A value kept within [lo, hi]. -/
def Fx.clamp (lo hi v : Fx) : Fx := max lo (min hi v)

/-- A Q-format integer with `f` fraction bits. -/
def Fx.ofQ (f : Nat) (v : Int) : Fx := v * 2 ^ (149 - f)

/-- An unsigned code divided by its all-ones value, in 32-bit float (R106). -/
def Fx.ofCode (bits v : Nat) : Fx := toFloat ((v : Int) * 2 ^ 149) (2 ^ bits - 1)

/-- The value of a half-float code: NaN becomes 0, the infinities ±65,504 (R106). -/
def Fx.ofHalfBits (v : Nat) : Fx :=
  let e := v / 1024 % 32
  let m := v % 1024
  let a : Nat :=
    if e = 31 then (if m = 0 then 65504 * 2 ^ 149 else 0)
    else if e = 0 then m * 2 ^ 125
    else (1024 + m) * 2 ^ (e + 124)
  if v / 32768 % 2 = 1 then -(a : Int) else a

/-- The low `n` bits of a number as two's complement. -/
def signedOf (n v : Nat) : Int := (BitVec.ofNat n v).toInt

end Sys2Proof.Machine
end

