-- ==== Sys2Proof/Machine/Pixel.lean ====
section
/-!
DEFINITION. From memory to scan-buffer word: what Gather reads of a surface (R87 to R104), normalisation and colour
conversion (R106 to R108), the scaler (R110 to R114), blending (R45 to R47, R131), and the canvas output chain (R116 to
R120).

Where the manual says "32-bit float", each product and each sum is rounded to a 32-bit float in the order written, as
R131 lays down for blending (DEDUCED, notes/assumptions/11.md).
-/
namespace Sys2Proof.Machine

/-! ## Table memories -/

/-- The word of input colour slot memory at an index after cold reset: identity, no offsets, vertical siting
interstitial (R108). -/
def icsReset (i : Nat) : Word :=
  match i % 8 with
  | 0 => 0x00002000 | 2 => 0x20000000 | 5 => 0x00002000 | 6 => 2 | _ => 0

/-- The coefficient at an index after cold reset: the bilinear filter (R114). -/
def coefReset (i : Nat) : BitVec 16 :=
  let φ := i % 512 / 8
  match i % 8 with
  | 3 => BitVec.ofNat 16 (256 * (64 - φ)) | 4 => BitVec.ofNat 16 (256 * φ) | _ => 0

/-- The key of entry `i` of an output LUT: 0 degamma, 1 regamma, 2 the 3D LUT. -/
def lutKey (c : Nat) (bank : Bool) (sel i : Nat) : Nat := ((c * 2 + (if bank then 1 else 0)) * 3 + sel) * 8192 + i

/-- The entry of an output LUT after cold reset (R117, R119). -/
def lutReset (k : Nat) : BitVec 48 :=
  let i := k % 8192
  if k / 8192 % 3 = 2 then
    BitVec.ofNat 48 (2048 * (i % 17) + 65536 * (2048 * (i / 17 % 17)) + 2 ^ 32 * (2048 * (i / 289)))
  else BitVec.ofNat 48 ((2 * 32768 * i + 4095) / (2 * 4095))

/-- The CLUT entry at CLUT number × 256 + index (R93). -/
def Dev.clutAt (d : Dev) (i : Nat) : Word := FMap.get (fun _ => 0) d.luts.clut i
/-- The input colour slot word at slot × 8 + word (R109). -/
def Dev.icsAt (d : Dev) (i : Nat) : Word := FMap.get icsReset d.luts.ics i
/-- The coefficient at set × 512 + phase × 8 + tap (R114). -/
def Dev.coefAt (d : Dev) (i : Nat) : BitVec 16 := FMap.get coefReset d.luts.coef i
/-- The output LUT entry at a key. -/
def Dev.lutAt (d : Dev) (k : Nat) : BitVec 48 := FMap.get lutReset d.luts.lut k

/-! ## Stage 1: fetch -/

/-- `n` bytes at a device address as Gather uses them: 0 where the atom that holds them is not usable (R104). -/
def Dev.fetchNat (d : Dev) (a n : Nat) : Nat :=
  match d.span a n with
  | .gddr =>
    if (atomsOf a n).any d.atomBad then
      leNat ((List.range n).map fun i => if d.atomBad ((a + i) / 256) then 0 else d.byte (a + i))
    else leNat (d.bytes a n)
  | .cru _ | .host | .unmapped => 0

/-- The address of pixel (x, y) in the tiled layout (R91). -/
def tiledAddr (base pitch x y : Nat) : Nat :=
  base + y / 64 * pitch + x / 64 * 16384 + y / 8 % 8 * 2048 + x / 8 % 8 * 256 + y % 8 * 32 + x % 8 * 4

/-- The words of Frit tile (tx, ty) of a surface; none for a decode error (R95, R101). A substituted header decodes as CONST, and
the word that its tile shows is the one in the slot's first bytes (R104; DEDUCED, notes/assumptions/11.md). -/
def Dev.fritTile (d : Dev) (s : SurfImg) (tx ty : Nat) : Option (List Nat) :=
  let h := d.fetchNat (s.addr1.toNat + ty * s.pitch1.toNat + tx) 1
  fritDecode h (d.fetchNat (tiledAddr s.addr0.toNat s.pitch0.toNat (8 * tx) (8 * ty)) 256)

/-- The stored word of pixel (x, y) of plane 0: its unit of R44, or the pixel word of a tile. -/
def Dev.fetchUnit (d : Dev) (s : SurfImg) (x y : Nat) : Nat :=
  let a0 := s.addr0.toNat
  let p0 := s.pitch0.toNat
  match s.layout.toNat with
  | 1 => d.fetchNat (tiledAddr a0 p0 x y) 4
  | 2 => ((d.fritTile s (x / 8) (y / 8)).getD []).getD (8 * (y % 8) + x % 8) 0
  | _ =>
    match s.fmt.toNat with
    | 0 | 1 | 2 => d.fetchNat (a0 + y * p0 + 4 * x) 4
    | 3 => d.fetchNat (a0 + y * p0 + 8 * x) 8
    | 4 | 7 => d.fetchNat (a0 + y * p0 + 2 * x) 2
    | 8 => d.fetchNat (a0 + y * p0 + 4 * (x / 2)) 4
    | _ => d.fetchNat (a0 + y * p0 + x) 1

/-- The chroma codes Cb and Cr of chroma sample (m, l), `l` counting lines on the vertically subsampled grid. -/
def Dev.fetchChroma (d : Dev) (s : SurfImg) (m l : Nat) : Nat × Nat :=
  let a1 := s.addr1.toNat
  let p1 := s.pitch1.toNat
  match s.fmt.toNat with
  | 6 => let v := d.fetchNat (a1 + l * p1 + 2 * m) 2; (v % 256, v / 256)
  | 7 => let v := d.fetchNat (a1 + l * p1 + 4 * m) 4; (v % 65536 / 64, v / 65536 / 64)
  | _ => let v := d.fetchNat (s.addr0.toNat + l * s.pitch0.toNat + 4 * m) 4; (v / 256 % 256, v / 2 ^ 24 % 256)

/-- Bits [hi:lo] of a stored unit. -/
def field (v hi lo : Nat) : Nat := v >>> lo % 2 ^ (hi + 1 - lo)

/-- The codes of the three components and of the alpha of a stored unit of the formats 0 to 4 (R44), each with its width
in bits, in the order red, green, blue; width 0 means no alpha. -/
def unitCodes (fmt v : Nat) : List (Nat × Nat) × (Nat × Nat) :=
  match fmt with
  | 0 => ([(field v 7 0, 8), (field v 15 8, 8), (field v 23 16, 8)], (field v 31 24, 8))
  | 1 => ([(field v 23 16, 8), (field v 15 8, 8), (field v 7 0, 8)], (field v 31 24, 8))
  | 2 => ([(field v 9 0, 10), (field v 19 10, 10), (field v 29 20, 10)], (field v 31 30, 2))
  | 3 => ([(field v 15 0, 16), (field v 31 16, 16), (field v 47 32, 16)], (field v 63 48, 16))
  | _ => ([(field v 15 11, 5), (field v 10 5, 6), (field v 4 0, 5)], (0, 0))

/-- The codes of a pixel's three components in the `RED`, `GRN` and `BLU` positions with their width in bits, and its
alpha code with its width; width 0 means no alpha. YCbCr formats carry Y alone here. -/
def Dev.codes (d : Dev) (s : SurfImg) (x y : Nat) : List (Nat × Nat) × (Nat × Nat) :=
  let v := d.fetchUnit s x y
  match s.fmt.toNat with
  | 0 => unitCodes 0 v
  | 1 => unitCodes 1 v
  | 2 => unitCodes 2 v
  | 3 => unitCodes 3 v
  | 4 => unitCodes 4 v
  | 5 => unitCodes 0 (d.clutAt (256 * s.clut.toNat + v)).toNat
  | 7 => ([(field v 15 6, 10)], (0, 0))
  | 8 => ([(if x % 2 = 0 then field v 7 0 else field v 23 16, 8)], (0, 0))
  | _ => ([(v, 8)], (0, 0))

/-- The format is one of the YCbCr formats. -/
def SurfImg.ycbcr (s : SurfImg) : Bool := s.fmt = 6 || s.fmt = 7 || s.fmt = 8
/-- Chroma is subsampled vertically. -/
def SurfImg.halfV (s : SurfImg) : Bool := s.fmt = 6 || s.fmt = 7
/-- The width of a chroma code. -/
def SurfImg.chromaBits (s : SurfImg) : Nat := if s.fmt = 7 then 10 else 8

/-! ## Stage 2: the colour-key test (R47) -/

/-- A component code widened or narrowed to 10 bits. -/
def keyCode (v width : Nat) : Nat := if 10 ≤ width then v >>> (width - 10) else (v <<< (10 - width)) ||| (v >>> (2 * width - 10))

/-- The pixel is keyed: every bit set in `KEY_MASK` matches. -/
def WinImg.keyed (w : WinImg) (l : List (Nat × Nat)) : Bool :=
  let c := fun i => let e := l.getD i (0, 10); keyCode e.1 e.2
  let p := BitVec.ofNat 30 ((c 0) <<< 20 ||| (c 1) <<< 10 ||| c 2)
  (p ^^^ w.key) &&& w.keyMask = 0

/-! ## Stages 3 to 5: normalisation, chroma, the input colour slot (R106 to R108) -/

/-- The whole-pixel bounds of the source rectangle: first and last column, first and last line (R87). -/
structure Bounds where
  x0 : Nat
  x1 : Nat
  y0 : Nat
  y1 : Nat

/-- The bounds of a window's source rectangle (R87). -/
def WinImg.bounds (w : WinImg) : Bounds :=
  { x0 := w.srcX.toNat / 16, x1 := ceilDiv (w.srcX.toNat + w.srcW.toNat) 16 - 1,
    y0 := w.srcY.toNat / 16, y1 := ceilDiv (w.srcY.toNat + w.srcH.toNat) 16 - 1 }

/-- An index kept within [lo, hi]. -/
def clampIdx (lo hi i : Int) : Nat := (max lo (min hi i)).toNat

/-- One chroma value at luma index `i` of an axis, from the chroma samples `c` of that axis, clamped to [lo, hi]. -/
def upsample (cosited : Bool) (lo hi : Nat) (c : Nat → Fx) (i : Nat) : Fx :=
  let m : Int := ((i / 2 : Nat) : Int)
  let at' := fun k => c (clampIdx lo hi k)
  let three := fun k => Fx.mul (3 * Fx.one) (at' k)
  if cosited then
    if i % 2 = 0 then at' m else toFloat (Fx.add (at' m) (at' (m + 1))) 2
  else if i % 2 = 0 then toFloat (Fx.add (three m) (at' (m - 1))) 4
  else toFloat (Fx.add (three m) (at' (m + 1))) 4

/-- A source is turned over left to right, or top to bottom, as it is fetched: mirrored or turned by 180°, not both (R42). A
YCbCr surface is linear, so no other rotation reaches it (R44). -/
def WinImg.flips (w : WinImg) : Bool × Bool := (w.mirx != (w.rot = 2), w.miry != (w.rot = 2))

/-- Index `i` of an axis of `n`, counted from the other end where the axis is turned over. -/
def turnIdx (f : Bool) (n i : Nat) : Nat := if f then n - 1 - i else i

/-- Cb (`cr` false) or Cr of the luma pixel at oriented position (u, v), brought to the luma grid: horizontally, then vertically.
Orientation comes before it, so that sites are counted as the source lands (R88, R105, R107). -/
def Dev.chroma (d : Dev) (w : WinImg) (s : SurfImg) (cr : Bool) (u v : Nat) : Fx :=
  let sit := d.icsAt (8 * w.csc.toNat + 6)
  let (fh, fv) := w.flips
  let b := w.bounds
  let cw := s.width.toNat / 2
  let ch := if s.halfV then s.height.toNat / 2 else s.height.toNat
  let code := fun m l =>
    let e := d.fetchChroma s (turnIdx fh cw m) (turnIdx fv ch l)
    Fx.ofCode s.chromaBits (if cr then e.2 else e.1)
  let range := fun (f : Bool) (n lo hi : Nat) => if f then (turnIdx f n hi, turnIdx f n lo) else (lo, hi)
  let (xl, xh) := range fh cw (b.x0 / 2) (ceilDiv (b.x1 + 1) 2 - 1)
  let (yl, yh) := range fv ch (b.y0 / 2) (ceilDiv (b.y1 + 1) 2 - 1)
  let hor := fun l => upsample (!bit sit 0) xl xh (fun m => code m l) u
  if s.halfV then upsample (!bit sit 1) yl yh hor v else hor v

/-- The surface pixel that lands at oriented source position (u, v): rotation undone, then mirroring (R42, R88). -/
def WinImg.unorient (w : WinImg) (s : SurfImg) (u v : Nat) : Nat × Nat :=
  let ws := s.width.toNat
  let hs := s.height.toNat
  let (x, y) := match w.rot.toNat with
    | 0 => (u, v)
    | 1 => (v, hs - 1 - u)
    | 2 => (ws - 1 - u, hs - 1 - v)
    | _ => (ws - 1 - v, u)
  (if w.mirx then ws - 1 - x else x, if w.miry then hs - 1 - y else y)

/-- A source pixel after stage 5: three colour components, alpha and the key factor. -/
structure Px where
  r : Fx := 0
  g : Fx := 0
  b : Fx := 0
  a : Fx := 0
  k : Fx := 0
  deriving DecidableEq, Repr

/-- A Q3.13 value of an input colour slot or matrix, from words `w`: value `i` counts half-words. -/
def q313 (w : Nat → Word) (i : Nat) : Fx :=
  Fx.ofQ 13 (signedOf 16 (bits (w (i / 2)) (16 * (i % 2) + 15) (16 * (i % 2))))

/-- One row of the matrix of R108: values 4 × `row` on, as packed by R109. -/
def matRow (w : Nat → Word) (row : Nat) (c0 c1 c2 : Fx) : Fx :=
  let m := fun i => q313 w (4 * row + i)
  (Fx.add (Fx.add (Fx.add (Fx.mul (m 0) c0) (Fx.mul (m 1) c1)) (Fx.mul (m 2) c2)) (m 3)).half

/-- The source pixel of a window that lands at oriented position (u, v), through stages 1 to 5. -/
def Dev.sourcePixel (d : Dev) (w : WinImg) (s : SurfImg) (u v : Nat) : Px :=
  let (x, y) := w.unorient s u v
  let (cs, al) := d.codes s x y
  let slot := w.csc.toNat
  let norm := fun i => let e := cs.getD i (0, 8); if s.fmt = 3 then Fx.ofHalfBits e.1 else Fx.ofCode e.2 e.1
  let chr := fun cr => d.chroma w s cr u v
  let keyCodes := if s.ycbcr then
      let c := d.fetchChroma s (x / 2) (if s.halfV then y / 2 else y)
      cs ++ [(c.1, s.chromaBits), (c.2, s.chromaBits)]
    else cs
  let c0 := norm 0
  let c1 := if s.ycbcr then chr false else norm 1
  let c2 := if s.ycbcr then chr true else norm 2
  let ics := fun i => d.icsAt (8 * slot + i)
  let g := toFloat ((w.galpha.toNat : Int) * 2 ^ 149) 65535
  let alpha := if al.2 = 0 then Fx.one
    else if s.fmt = 3 then Fx.clamp 0 Fx.one (Fx.ofHalfBits al.1) else Fx.ofCode al.2 al.1
  { r := if w.cscEn then matRow ics 0 c0 c1 c2 else c0.half
    g := if w.cscEn then matRow ics 1 c0 c1 c2 else c1.half
    b := if w.cscEn then matRow ics 2 c0 c1 c2 else c2.half
    a := alpha, k := if w.keyed keyCodes then 0 else g }

/-! ## Stage 6: orientation and scaling (R88, R110 to R113) -/

/-- One output axis of the scaler: its edge and extent in 1/16 pixel, its destination size, and whether it is a
pass-through axis. -/
structure Axis where
  e : Nat
  x : Nat
  n : Nat
  pass : Bool

/-- The horizontal axis of a window (R110). -/
def WinImg.axisH (w : WinImg) (s : SurfImg) : Axis :=
  let sw := 16 * s.width.toNat
  let sh := 16 * s.height.toNat
  let ex := if w.mirx then sw - w.srcX.toNat - w.srcW.toNat else w.srcX.toNat
  let ey := if w.miry then sh - w.srcY.toNat - w.srcH.toNat else w.srcY.toNat
  let (e, x) := match w.rot.toNat with
    | 0 => (ex, w.srcW.toNat)
    | 1 => (sh - ey - w.srcH.toNat, w.srcH.toNat)
    | 2 => (sw - ex - w.srcW.toNat, w.srcW.toNat)
    | _ => (ey, w.srcH.toNat)
  { e := e, x := x, n := w.dstW.toNat, pass := w.passH }

/-- The vertical axis of a window (R110). -/
def WinImg.axisV (w : WinImg) (s : SurfImg) : Axis :=
  let sw := 16 * s.width.toNat
  let sh := 16 * s.height.toNat
  let ex := if w.mirx then sw - w.srcX.toNat - w.srcW.toNat else w.srcX.toNat
  let ey := if w.miry then sh - w.srcY.toNat - w.srcH.toNat else w.srcY.toNat
  let (e, x) := match w.rot.toNat with
    | 0 => (ey, w.srcH.toNat)
    | 1 => (ex, w.srcW.toNat)
    | 2 => (sh - ey - w.srcH.toNat, w.srcH.toNat)
    | _ => (sw - ex - w.srcW.toNat, w.srcW.toNat)
  { e := e, x := x, n := w.dstH.toNat, pass := w.passV }

/-- The integer position and the phase of output sample `j` (R111). -/
def Axis.position (a : Axis) (j : Nat) : Int × Nat :=
  let step := (4096 * a.x + a.n / 2) / a.n
  let p : Int := ((4096 * a.e + j * step + step / 2 : Nat) : Int) - 32768
  let i := p / 65536
  let φ := ((p % 65536).toNat + 512) / 1024
  if φ = 64 then (i + 1, 0) else (i, φ)

/-- A tap's index, the nearest inside the rounded source rectangle (R87). -/
def Axis.tap (a : Axis) (i : Int) : Nat :=
  clampIdx ((a.e / 16 : Nat) : Int) ((ceilDiv (a.e + a.x) 16 - 1 : Nat) : Int) i

/-- The filter at output sample `j` of an axis over the samples `src`, with taps `first` to `last` (R112, R113). -/
def Dev.filter (d : Dev) (a : Axis) (set first count : Nat) (src : Nat → Fx) (j : Nat) : Fx :=
  if a.pass then src (a.e / 16 + j)
  else
    let (i, φ) := a.position j
    let sum := (List.range count).foldl (fun acc t =>
      let t := t + first
      let k := Fx.ofQ 14 (d.coefAt (512 * set + 8 * φ + t)).toInt
      Fx.add acc (Fx.mul k (src (a.tap (i - 3 + t))))) 0
    sum.half

/-- The scaled pixel of a window at destination (jx, jy): horizontal pass, vertical pass, then the clamps of R113. -/
def Dev.scaledPixel (d : Dev) (w : WinImg) (s : SurfImg) (jx jy : Nat) : Px :=
  let ah := w.axisH s
  let av := w.axisV s
  let px := d.sourcePixel w s
  let run := fun (f : Px → Fx) =>
    (d.filter av w.vcoef.toNat 1 6 (fun v => d.filter ah w.hcoef.toNat 0 8 (fun u => f (px u v)) jx) jy).half
  { r := Fx.clamp 0 halfMax (run Px.r), g := Fx.clamp 0 halfMax (run Px.g), b := Fx.clamp 0 halfMax (run Px.b),
    a := Fx.clamp 0 Fx.one (run Px.a), k := Fx.clamp 0 Fx.one (run Px.k) }

/-! ## Stage 7: blending (R45 to R47, R131) -/

/-- One layer over one accumulated component. -/
def blend (w : WinImg) (cs as k cd : Fx) : Fx :=
  let g := toFloat ((w.galpha.toNat : Int) * 2 ^ 149) 65535
  let rest := Fx.mul cd (toFloat (Fx.one - Fx.mul as g) 1)
  let v := match w.blend.toNat with
    | 0 => cs
    | 1 => Fx.add (Fx.mul cs g) rest
    | 2 => Fx.add (Fx.mul (Fx.mul cs as) g) rest
    | 3 => Fx.add cd (Fx.mul (Fx.mul cs as) g)
    | _ => Fx.add (Fx.mul cs k) (Fx.mul cd (toFloat (Fx.one - k) 1))
  Fx.clamp 0 halfMax v.half

/-- Windows in stacking order: ascending `Z`, then ascending index (R46). -/
def insertLayer (e : Nat × WinImg × SurfImg) : List (Nat × WinImg × SurfImg) → List (Nat × WinImg × SurfImg)
  | [] => [e]
  | f :: l =>
    if e.2.1.z.toNat < f.2.1.z.toNat ∨ (e.2.1.z = f.2.1.z ∧ e.1 < f.1) then e :: f :: l else f :: insertLayer e l

/-- The windows of a scene, bottom first. -/
def SceneSnap.stack (sc : SceneSnap) : List (Nat × WinImg × SurfImg) := sc.wins.foldl (fun l e => insertLayer e l) []

/-- The blend result at canvas pixel (x, y): the background, then every layer there from the bottom up. -/
def Dev.blendPixel (d : Dev) (sc : SceneSnap) (stack : List (Nat × WinImg × SurfImg)) (x y : Nat) : Fx × Fx × Fx :=
  let bg := fun hi lo => Fx.ofQ 10 (bits (sc.bg.setWidth 32) hi lo : Nat)
  stack.foldl (fun acc e =>
    let w := e.2.1
    let jx := sc.x0.toInt + x - w.dstX.toInt
    let jy := sc.y0.toInt + y - w.dstY.toInt
    if w.valid ∧ w.wall = sc.wall ∧ 0 ≤ jx ∧ jx < w.dstW.toNat ∧ 0 ≤ jy ∧ jy < w.dstH.toNat then
      let p := d.scaledPixel w e.2.2 jx.toNat jy.toNat
      (blend w p.r p.a p.k acc.1, blend w p.g p.a p.k acc.2.1, blend w p.b p.a p.k acc.2.2)
    else acc) (bg 29 20, bg 19 10, bg 9 0)

/-! ## Stages 8 to 11: the canvas output chain (R116 to R120) -/

/-- A chain value kept within [0, 32,768]. -/
def chainClamp (v : Int) : Nat := (max 0 (min 32768 v)).toNat

/-- Chain entry (R116): halves round up. -/
def chainEntry (h : Fx) : Nat :=
  let v := Fx.clamp 0 Fx.one h
  ((2 * 32768 * v + Fx.one) / (2 * Fx.one)).toNat

/-- A 1D LUT (R117): `e` gives its entries. -/
def lut1 (e : Nat → Nat) (v : Nat) : Nat :=
  let i := 4095 * v / 32768
  let f := 4095 * v % 32768
  if i < 4095 then
    chainClamp ((e i : Int) + (((e (i + 1) : Int) - (e i : Int)) * (f : Int) + 16384) / 32768)
  else chainClamp (e 4095 : Nat)

/-- The output matrix (R118): component `k` of three codes, with the words of `CSP_MAT0` to `CSP_MAT5`. -/
def matrixOut (mat : List Word) (k v0 v1 v2 : Nat) : Nat :=
  let m := fun i => signedOf 16 (bits (wordAt mat ((4 * k + i) / 2)) (16 * (i % 2) + 15) (16 * (i % 2)))
  chainClamp ((m 0 * v0 + m 1 * v1 + m 2 * v2 + 32768 * m 3 + 4096) / 8192)

/-- Tetrahedral interpolation of one component between the eight corners of a cube (R119). -/
def tetra (c : Nat → Nat → Nat → Int) (fr fg fb : Int) : Nat :=
  let c000 := c 0 0 0
  let c111 := c 1 1 1
  let (a, b, e, d1, d2, d3) :=
    if fr ≥ fg ∧ fg ≥ fb then (fr, fg, fb, c 1 0 0 - c000, c 1 1 0 - c 1 0 0, c111 - c 1 1 0)
    else if fr ≥ fb ∧ fb > fg then (fr, fb, fg, c 1 0 0 - c000, c 1 0 1 - c 1 0 0, c111 - c 1 0 1)
    else if fb > fr ∧ fr ≥ fg then (fb, fr, fg, c 0 0 1 - c000, c 1 0 1 - c 0 0 1, c111 - c 1 0 1)
    else if fg > fr ∧ fr ≥ fb then (fg, fr, fb, c 0 1 0 - c000, c 1 1 0 - c 0 1 0, c111 - c 1 1 0)
    else if fg ≥ fb ∧ fb > fr then (fg, fb, fr, c 0 1 0 - c000, c 0 1 1 - c 0 1 0, c111 - c 0 1 1)
    else (fb, fg, fr, c 0 0 1 - c000, c 0 1 1 - c 0 0 1, c111 - c 0 1 1)
  chainClamp (c000 + (a * d1 + b * d2 + e * d3 + 1024) / 2048)

/-- The 3D LUT (R119): component `k` of three codes; `node` gives a component of the node with an index. -/
def lut3 (node : Nat → Nat → Nat) (k r g b : Nat) : Nat :=
  let pos := fun v => min (v / 2048) 15
  let fr := fun v => ((v - 2048 * pos v : Nat) : Int)
  tetra (fun dr dg db => (node (pos r + dr + 17 * (pos g + dg) + 289 * (pos b + db)) k : Nat)) (fr r) (fr g) (fr b)

/-- The dither matrix of R120, row by row. -/
def ditherMatrix : List Nat := [0, 8, 2, 10, 12, 4, 14, 6, 3, 11, 1, 9, 15, 7, 13, 5]

/-- Dither to *n* bits and storage as 10 bits (R120), with `CSP_CTL`'s `BPC` and `DITH`, at canvas pixel (x, y) of frame
`k`. -/
def dither (bpc dith x y k v : Nat) : Nat :=
  let n := 6 + 2 * bpc
  let a := v * (2 ^ n - 1)
  let (dx, dy) := if dith = 2 then (x + 2 * (k % 2), y + 2 * (k / 2 % 2)) else (x, y)
  let q := if dith = 0 then (a + 16384) / 32768
    else (a + (2 * ditherMatrix.getD (4 * (dy % 4) + dx % 4) 0 + 1) * 1024) / 32768
  (q <<< (10 - n)) ||| (q >>> (2 * n - 10))

/-- The scan-buffer word of canvas pixel (x, y) of canvas `c` from a blend result (stages 8 to 11). -/
def Dev.chain (d : Dev) (c : Nat) (sc : SceneSnap) (k x y : Nat) (v : Fx × Fx × Fx) : Word :=
  let ctl := sc.ctl
  let one := fun sel bank i => (d.lutAt (lutKey c bank sel i)).toNat % 65536
  let node := fun i comp => (d.lutAt (lutKey c (bit ctl 9) 2 i)).toNat / 65536 ^ comp % 65536
  let deg := fun v => if bit ctl 0 then lut1 (one 0 (bit ctl 8)) v else v
  let r := deg (chainEntry v.1)
  let g := deg (chainEntry v.2.1)
  let b := deg (chainEntry v.2.2)
  let m := fun k => if bit ctl 1 then matrixOut sc.mat k r g b else match k with | 0 => r | 1 => g | _ => b
  let r := m 0
  let g := m 1
  let b := m 2
  let l := fun k => if bit ctl 2 then lut3 node k r g b else match k with | 0 => r | 1 => g | _ => b
  let fin := fun comp =>
    dither (bits ctl 7 6) (bits ctl 5 4) x y k (if bit ctl 3 then lut1 (one 1 (bit ctl 10)) (l comp) else l comp)
  place 29 20 (fin 0) ||| place 19 10 (fin 1) ||| place 9 0 (fin 2)

/-- Table memories with one word that reads 0. -/
def Luts.without (l : Luts) : LocalWord → Luts
  | .clut i => { l with clut := FMap.put (fun _ => 0) l.clut i 0 }
  | .coef i => { l with coef := FMap.put coefReset l.coef i 0 }
  | .ics i => { l with ics := FMap.put icsReset l.ics i 0 }
  | .lut k => { l with lut := FMap.put lutReset l.lut k 0 }

/-- The device as pipe `p` uses it for a band: the atoms `lost` to the band's fetch are unusable (R104), and words of its own
table memories that are uncorrectable read 0 (R300). -/
def Dev.asUsed (d : Dev) (p : Nat) (lost : List Nat) : Dev :=
  let bad := (d.cru.badLocal.filter fun e => e.1 = p).map (·.2)
  { d with mct := { d.mct with poison := d.mct.poison ++ lost }, luts := bad.foldl Luts.without d.luts }

/-- The scan-buffer words of line `y` of canvas `c`, `w` pixels wide, of frame `k`. -/
def Dev.composeLine (d : Dev) (c : Nat) (sc : SceneSnap) (w k y : Nat) : List Word :=
  let stack := sc.stack
  (List.range w).map fun x => d.chain c sc k x y (d.blendPixel sc stack x y)

end Sys2Proof.Machine
end

