-- ==== Sys2Proof/Machine/Ports.lean ====
section
/-!
DEFINITION. Ports (R168 to R187) and standby pairs (R29 to R35): link training, HPD and sink supervision, AUX
transactions, staged port settings, quad fences and failover.
-/
namespace Sys2Proof.Machine

/-! ## Which canvas, which encoding -/

/-- The canvas selected by port `n` (R26). -/
def Dev.portCanvas (d : Dev) (n : Nat) : Nat := d.fld .dpt n DPT_SRC 6 0

/-- The canvas whose video port `n` sends. -/
def Dev.videoCanvas (d : Dev) (n : Nat) : Nat := ((d.port n).finishing).getD (d.portCanvas n)

/-- The ports that select canvas `c`. -/
def Dev.portsOf (d : Dev) (c : Nat) : List Nat := (List.range 128).filter fun n => d.portCanvas n = c

/-- The ports that send the video of canvas `c`. -/
def Dev.senders (d : Dev) (c : Nat) : List Nat :=
  (List.range 128).filter fun n => (d.port n).state = .active && d.videoCanvas n = c

/-- `DPT_FMT` as it will stand once a pending encoding has taken effect. -/
def Dev.fmtTarget (d : Dev) (n : Nat) : Word := ((d.port n).fmtNext).getD (d.reg .dpt n DPT_FMT)

/-- Bits per component of an encoding. -/
def fmtBpc (w : Word) : Nat := 6 + 2 * bits w 3 2

/-- 16*β* of an uncompressed encoding (R170). -/
def plainBpp16 (w : Word) : Nat :=
  match bits w 1 0 with
  | 2 => 32 * fmtBpc w
  | 3 => 24 * fmtBpc w
  | _ => 48 * fmtBpc w

/-- 16*β* with an encoding and a DSC setting (R170). -/
def bpp16 (fmt dsc : Word) : Nat := if bit dsc 30 then bits dsc 22 14 else plainBpp16 fmt

/-- Lane rates in units of 10 Mbit/s (R169). -/
def laneRate (code : Nat) : Nat := [162, 270, 540, 810, 1000, 1350, 2000].getD code 0

/-- *E* in ten-thousandths (R169). -/
def codingEff (code : Nat) (dsc : Bool) : Nat := if 4 ≤ code then 9671 else if dsc then 7808 else 8000

/-- S ≤ C for a canvas's nominal pixel clock and a link of 2^`lanes` lanes at a rate code (R170). -/
def Dev.linkCarries (d : Dev) (c : Nat) (fmt dsc : Word) (lanes rate : Nat) : Bool :=
  let r := d.cregs c
  decide (d.fpNum r * bpp16 fmt dsc ≤ 2 ^ lanes * laneRate rate * 1000 * codingEff rate (bit dsc 30) * 16 * cDiv r)

/-! ## Pairs -/

/-- A port is enabled as far as a pair is concerned: its `EN` holds, fenced or not. -/
def Port.enabled (x : Port) : Bool := x.state != .off && x.state != .draining
/-- The link is trained and unfenced (`READY`). -/
def Port.ready (x : Port) : Bool := (x.state = .idle || x.state = .active) && !x.fenced

/-- `DPT_PAIR.MODE`. -/
def Dev.pairMode (d : Dev) (n : Nat) : Nat := d.fld .dpt n DPT_PAIR 9 8
/-- `DPT_PAIR.PARTNER`. -/
def Dev.partner (d : Dev) (n : Nat) : Nat := d.fld .dpt n DPT_PAIR 6 0

/-- The pair of port `n` exists (R30). -/
def Dev.pairOk (d : Dev) (n : Nat) : Bool :=
  let m := d.partner n
  m != n && d.partner m = n && d.pairMode n != 0 && d.pairMode n = d.pairMode m && d.portCanvas n = d.portCanvas m &&
  (d.port n).enabled && (d.port m).enabled

/-- Port `n` is of a cold pair. -/
def Dev.coldPair (d : Dev) (n : Nat) : Bool := d.pairOk n && d.pairMode n = 2

/-- Port `n` is to carry its canvas's video: it is unpaired, of a warm pair, or the live port of a cold one. -/
def Dev.toCarry (d : Dev) (n : Nat) : Bool := !(d.coldPair n && (d.port n).standby)

/-- Pairs that have formed or ceased: when a cold pair forms, the lower-numbered port is live (R32); a port of no pair
shows its canvas (R30). A port that becomes the standby stops its video. -/
def Dev.updatePair (d : Dev) (n : Nat) : Dev :=
  let x := d.port n
  if d.pairOk n then
    if x.wasPaired then d
    else
      let stand := decide (d.partner n < n) && d.pairMode n = 2
      d.setPort n { x with
        wasPaired := true, standby := stand, failed := 0, pollAt := d.now
        state := if stand && x.state = .active then .idle else x.state }
  else if x.wasPaired then d.setPort n { x with wasPaired := false, standby := false, failed := 0, swapAt := false }
  else d

/-- Every pair brought up to date. -/
def Dev.updatePairs (d : Dev) : Dev := (List.range 128).foldl Dev.updatePair d

/-- A failover trigger on port `n`: 1 quad fence, 2 HPD loss, 3 link loss (R31 to R35). Canvas-not-shown fires where it leaves no
port of the pair that carries the canvas: the standby of a cold pair is not ready, or the other port of a warm one has failed too. -/
def Dev.trigger (n kind : Nat) (d : Dev) : Dev :=
  let on := kind = 1 || (kind = 2 && d.flg .dpt n DPT_PAIR 12) || (kind = 3 && d.flg .dpt n DPT_PAIR 13)
  if ¬ (on && d.pairOk n) then d
  else
    let m := d.partner n
    let x := d.port n
    let d := (d.setPort n { x with failed := kind }).fire 387 n (dbits 0 m ||| dbits 8 kind)
    if x.standby then d
    else if d.pairMode n ≠ 2 ∧ ((d.port m).ready ∨ (d.port m).failed = 0) then d
    else if (d.port m).ready then
      (d.setPort n { d.port n with standby := true }).setPort m { d.port m with standby := false }
    else d.fire 354 (d.portCanvas n) (dbits 0 n ||| dbits 8 m)

/-- Port `n` has become ready: it is failed no longer; as the standby of a pair whose live port failed and is not ready,
it takes over (R34, R35). -/
def Dev.recovered (n : Nat) (d : Dev) : Dev :=
  let x := { d.port n with failed := 0 }
  let m := d.partner n
  let y := d.port m
  if d.coldPair n && x.standby && y.failed != 0 && !y.ready then
    (d.setPort n { x with standby := false }).setPort m { y with standby := true }
  else d.setPort n x

/-! ## Link training (R171 to R173) -/

/-- The port's lanes are powered (R184). -/
def Port.powered (x : Port) : Bool :=
  !x.fenced && (x.state = .training || x.state = .idle || x.state = .active || x.state = .draining)

/-- The lanes of a port are powered down: what its quad monitors ends (R184). -/
def Port.unpower (x : Port) : Port := { x with pllBad := false, laneBad := 0, slipAt := none }

/-- The pending encoding of port `n` takes effect. -/
def Dev.takeFmt (n : Nat) (d : Dev) : Dev :=
  match (d.port n).fmtNext with
  | some w =>
    ((d.setReg .dpt n DPT_FMT w).setAdmittedAt (regAt .dpt n DPT_FMT) none).setPort n { d.port n with fmtNext := none }
  | none => d

/-- Training begins at event 3 of R172: the port reads the sink's capabilities. -/
def Dev.startTraining (n : Nat) (d : Dev) : Dev :=
  let d := d.takeFmt n
  let x := d.port n
  d.setPort n { x with state := .training, step := .caps, attempts := 0, relinkAt := false, finishing := none }

/-- Port `n` stops the video it sends: it retrains where a relink waits, and is idle otherwise. -/
def Dev.stopVideo (n : Nat) (d : Dev) : Dev :=
  let x := d.port n
  if x.relinkAt then d.startTraining n else d.setPort n { x with state := .idle, finishing := none }

/-- Active line *H* − 1 of a canvas's frame has ended, and the next frame has not started. -/
def Canvas.videoOver (x : Canvas) : Bool := x.state = .running && (!x.started || decide (x.raster.h < x.nextDue))

/-- Port `n` is to stop its video at the end of active line *H* − 1 of the frame in progress: at once where that is past (R29,
R162). -/
def Dev.endVideo (n : Nat) (d : Dev) : Dev :=
  d.when ((d.port n).state = .active && (d.canvas (d.videoCanvas n)).videoOver) (Dev.stopVideo n)

/-- The candidates of an attempt in order: lane counts from large to small, and for each the rates from high to low
(R171). -/
def Dev.candidates (d : Dev) (n : Nat) (k : SinkCaps) : List (Nat × Nat) :=
  let link := d.reg .dpt n DPT_LINK
  let fmt := d.reg .dpt n DPT_FMT
  let dsc := d.reg .dpt n DPT_DSC
  let laneMax := min (bits link 7 6) (min k.maxLanes.val (if k.lttprs.val = 0 then 2 else k.lttprLanes.val))
  let offered := if k.lttprs.val = 0 then k.rates else k.rates &&& k.lttprRates
  if (bit dsc 30 ∧ ¬ k.dsc) ∨ (bits fmt 1 0 = 3 ∧ ¬ k.vscSdp) then []
  else ((List.range (laneMax + 1)).reverse).flatMap fun l =>
    (((List.range (min 6 (bits link 15 12) + 1)).reverse).filter fun r =>
      offered.getLsbD r && decide (bits link 11 8 ≤ r) && d.linkCarries (d.portCanvas n) fmt dsc l r).map fun r => (l, r)

/-- The port has no sink: `STATE` enters NO_SINK, and port-hpd fires (R187). -/
def Dev.enterNoSink (n : Nat) (d : Dev) : Dev :=
  (d.setPort n { (d.port n).unpower with state := .noSink, step := .none, relinkAt := false, finishing := none,
                                         statusDue := false }).fire 386 n 0

/-- The port's use of the AUX channel has ended: a software transaction that waited begins its attempt (R176). -/
def Dev.auxFree (n : Nat) (d : Dev) : Dev :=
  let x := d.port n
  d.setPort n { x with aux := { x.aux with since := d.now } }

/-- Training of port `n` has ended; a relinking canvas whose ports have all ended training starts (R161, event 5). -/
def Dev.relinkProgress (c : Nat) (d : Dev) : Dev :=
  let x := d.canvas c
  if x.state = .relink ∧ x.allocated ∧ ¬ ((d.portsOf c).any fun n => (d.port n).state = .training) then
    d.startCanvas c
  else d

/-- An attempt has failed: another follows after 10 ms, or the port declares link loss (R173), and answers there an IRQ_HPD that
came during the training (R175). A draining port ends its training with the attempt in hand. -/
def Dev.attemptFailed (n : Nat) (cap : Bool) (d : Dev) : Dev :=
  let x := d.port n
  let x := { x with fails := min 255 (x.fails + 1), capErr := cap }
  if x.state = .draining then (d.setPort n { x with step := .none }).auxFree n
  else if x.attempts < d.fld .dpt n DPT_LINK 5 3 then
    d.setPort n { x with attempts := x.attempts + 1, step := .retryWait d.now }
  else
    let d := (d.setPort n { x.unpower with state := .linkLost, step := .none, statusDue := false }).fire 385 n
      (dbits 0 x.fails ||| dbits 8 (if cap then 1 else 0))
    let d := ((d.trigger n 3).auxFree n).relinkProgress (d.portCanvas n)
    if x.statusDue then d.startTraining n else d

/-- An attempt begins: with no candidate it fails at once (R171). -/
def Dev.beginAttempt (n : Nat) (d : Dev) : Dev :=
  let x := d.port n
  match x.caps with
  | none => d
  | some k =>
    match d.candidates n k with
    | [] => d.attemptFailed n true
    | (l, r) :: rest => d.setPort n { x with step := .candidate l r rest }

/-- A candidate has succeeded: the trained link, and IDLE (R171, R172). -/
def Dev.trained (n l r : Nat) (d : Dev) : Dev :=
  let x := d.port n
  let x := { x with
    step := .none, rate := r, lanes := l, fec := decide (4 ≤ r) || d.flg .dpt n DPT_DSC 30, capErr := false,
    pollAt := d.now, state := if x.state = .draining then .draining else .idle }
  (((d.setPort n x).when (x.state = .idle) (Dev.recovered n)).auxFree n).relinkProgress (d.portCanvas n)

/-- SINK_CAPABILITIES_READ: the AUX read of the capabilities of the sink and its LTTPRs completes (R172, event 3). -/
def execSinkCapabilitiesRead (n : PortNo) (caps : SinkCaps) (s : State) : Host.Outcome State Fault Refusal :=
  s.dev! fun d => d.when ((d.port n).step = .caps) fun d =>
    (d.setPort n { d.port n with caps := some caps }).beginAttempt n

/-- TRAINING_CANDIDATE_DONE: the candidate in hand has succeeded or failed (R171). -/
def execTrainingCandidateDone (n : PortNo) (ok : Bool) (s : State) : Host.Outcome State Fault Refusal :=
  s.dev! fun d =>
    match (d.port n).step with
    | .candidate l r rest =>
      if ok then d.trained n l r
      else match rest with
        | [] => d.attemptFailed n false
        | (l', r') :: rest => d.setPort n { d.port n with step := .candidate l' r' rest }
    | .none | .caps | .retryWait _ => d

/-- TRAINING_RETRY: the wait after a failed attempt has lasted 10 ms, and the next attempt begins (R173). -/
def execTrainingRetry (n : PortNo) (s : State) : Host.Outcome State Fault Refusal :=
  s.dev! fun d =>
    match (d.port n).step with
    | .retryWait t => d.when (decide (t + 10000000 ≤ d.now)) (Dev.beginAttempt n)
    | .none | .caps | .candidate _ _ _ => d

/-- A relink of port `n` (R162): at the end of the frame's last active line where it sends video, at once where it is idle or in
training, which begins anew with the settings that now stand, and at the next training otherwise. -/
def Dev.relinkPort (n : Nat) (d : Dev) : Dev :=
  let x := d.port n
  match x.state with
  | .active => (d.setPort n { x with relinkAt := true }).endVideo n
  | .idle | .training => d.startTraining n
  | .off | .noSink | .linkLost | .fenced | .draining => d

/-! ## Enabling, disabling and retraining (R185, R186) -/

/-- `EN` written 1 in OFF. -/
def Dev.enablePort (n : Nat) (d : Dev) : Dev :=
  let x := { d.port n with en := true, enPending := false, fails := 0, step := .none, swapAt := false }
  if x.fenced then (d.setPort n { x with state := .fenced }).updatePairs
  else if x.hpd then ((d.setPort n x).startTraining n).updatePairs
  else ((d.setPort n x).enterNoSink n).updatePairs

/-- When the raster line in progress at time `now` ends, in device time. -/
def Canvas.lineEndAt (x : Canvas) (now : Nat) : Nat :=
  let n := (now - x.fsNow) * x.raster.lineDen / max 1 x.raster.lineNs
  x.fsNow + ceilDiv ((n + 1) * x.raster.lineNs) x.raster.lineDen

/-- A write of `DPT_CTL.EN` (R185). -/
def Dev.writePortEn (n : Nat) (b : Bool) (d : Dev) : Dev :=
  let x := { d.port n with en := b }
  match x.state, b with
  | .off, true => (d.setPort n x).enablePort n
  | .off, false => d.setPort n x
  | .draining, _ => d.setPort n { x with enPending := b }
  | .fenced, false => (d.setPort n { x with state := .off }).updatePairs
  | .noSink, false | .training, false | .idle, false | .active, false | .linkLost, false =>
    let step := match x.step with | .retryWait _ => TrainStep.none | st => st
    let lineEnd := if x.state = .active then (d.canvas (d.videoCanvas n)).lineEndAt d.now else 0
    ((d.setPort n { x with state := .draining, step := step, relinkAt := false, finishing := none, statusDue := false,
                           swapAt := false, lineEnd := lineEnd }).updatePairs).relinkProgress (d.portCanvas n)
  | .noSink, true | .training, true | .idle, true | .active, true | .linkLost, true | .fenced, true => d.setPort n x

/-- The conditions of R186 that the port itself shows at time `now`: the line that was in progress, training and any AUX
transaction have ended. -/
def Port.drained (x : Port) (now : Nat) : Bool :=
  x.state = .draining && x.step = .none && !x.aux.busy && decide (x.lineEnd ≤ now)

/-- A drained port reaches OFF, then is enabled where an enable waits. -/
def Dev.portDrained (n : Nat) (d : Dev) : Dev :=
  let x := d.port n
  let d := (d.takeFmt n).setPort n { x.unpower with state := .off, enPending := false, fmtNext := none }
  if x.enPending then d.enablePort n else d

/-- PORT_DRAIN_COMPLETE: a draining port has ended its training and its AUX transaction, and powers its lanes down
(R186). -/
def execPortDrainComplete (n : PortNo) (s : State) : Host.Outcome State Fault Refusal :=
  s.dev! fun d => d.when ((d.port n).drained d.now) (Dev.portDrained n)

/-- `DPT_CTL.RETRAIN` written 1 (R185). -/
def Dev.retrainPort (n : Nat) (d : Dev) : Dev :=
  let x := d.port n
  match x.state with
  | .active => d.setPort n { x with relinkAt := true }
  | .idle | .linkLost => d.startTraining n
  | .off | .noSink | .training | .fenced | .draining => d

/-! ## Quad faults and fences (R184) -/

/-- The quad is fenced: lanes and PLL are powered down, training is abandoned, and the pair is triggered. -/
def Dev.fencePort (n : Nat) (d : Dev) : Dev :=
  let x := d.port n
  let c := d.portCanvas n
  let y := { x.unpower with fenced := true, step := .none, relinkAt := false, finishing := none,
                            statusDue := false, state := if x.state = .draining then .draining else .fenced }
  (((d.setPort n y).when (x.state ≠ .draining) (Dev.trigger n 1)).auxFree n).relinkProgress c

/-- `DPT_TXMON`: all 0 while the lanes are powered down. -/
def Dev.txmon (d : Dev) (n : Nat) : Word :=
  let x := d.port n
  if ¬ x.powered then 0
  else flag 5 (x.slipAt.any fun t => decide (d.now < t + 1000000)) ||| flag 4 (!x.pllBad) |||
    place 3 0 (15 - x.laneBad.toNat)

/-- A monitored condition of the quad holds. -/
def Dev.quadBad (d : Dev) (n : Nat) : Bool :=
  let x := d.port n
  x.powered && (x.pllBad || x.laneBad != 0 || x.slipAt.any fun t => decide (d.now < t + 1000000))

/-- The port with a monitored condition of its quad begun or ended at time `now`. -/
def Port.monitor (x : Port) (now : Nat) : QuadFault → Port
  | .pllUnlock => { x with pllBad := true }
  | .laneCurrent l => { x with laneBad := x.laneBad ||| (1 <<< l.val) }
  | .fifoSlip => { x with slipAt := some now }
  | .pllLock => { x with pllBad := false }
  | .laneRight l => { x with laneBad := x.laneBad &&& ~~~((1 : BitVec 4) <<< l.val) }

/-- PORT_QUAD_FAULT: a monitored condition begins or ends. Where one begins and none held before, the source fires and, under its
reaction, the quad is fenced (R184). -/
def execPortQuadFault (n : PortNo) (k : QuadFault) (s : State) : Host.Outcome State Fault Refusal :=
  s.dev! fun d => d.when (d.port n).powered fun d =>
    let before := d.quadBad n
    let d := d.setPort n ((d.port n).monitor d.now k)
    if before ∨ ¬ d.quadBad n then d
    else
      let d := d.fire 384 n (dbits 0 (d.txmon n).toNat)
      if d.fences 384 then d.fencePort n else d

/-- `DPT_CTL.FREL` written 1 (R184, R185). -/
def Dev.releasePort (n : Nat) (d : Dev) : Dev :=
  let x := d.port n
  let y := { x with fenced := false }
  if ¬ x.fenced then d
  else if x.state = .fenced then
    if y.hpd then (d.setPort n y).startTraining n else (d.setPort n y).enterNoSink n
  else d.setPort n y

/-- `DPT_PAIR_CMD.SWAP` written 1 (R34). -/
def Dev.askSwap (n : Nat) (d : Dev) : Dev :=
  d.when (d.coldPair n) fun d => d.setPort n { d.port n with swapAt := true }

/-! ## HPD (R174, R175) -/

/-- Port supervision runs: from event 8 of R378, and from event 4 of R373 after a warm reset. -/
def Dev.supervises (d : Dev) : Bool := (d.rst.phase = .trained || d.rst.phase = .ready) && d.rst.warm = 0

/-- An IRQ_HPD: the link status is to be read, after any training in progress; a port in LINK_LOST trains. -/
def Dev.irqHpd (n : Nat) (d : Dev) : Dev :=
  let x := { d.port n with irqCnt := (d.port n).irqCnt + 1 }
  match x.state with
  | .idle | .active | .training => d.setPort n { x with statusDue := true }
  | .linkLost => (d.setPort n x).startTraining n
  | .off | .noSink | .fenced | .draining => d.setPort n x

/-- HPD_RISE: the low interval that ends is a glitch, an IRQ_HPD, or the loss that was declared (R174). -/
def execHpdRise (n : PortNo) (s : State) : Host.Outcome State Fault Refusal :=
  s.dev! fun d => d.when (!(d.port n).hpdPin) fun d =>
    let x := d.port n
    let low := d.now - x.edgeAt
    let d := d.setPort n { x with hpdPin := true, edgeAt := d.now }
    d.when (d.supervises && !x.lossDone && decide (250000 ≤ low) && decide (low < 2000000)) (Dev.irqHpd n)

/-- HPD_FALL: the low interval begins (R174). -/
def execHpdFall (n : PortNo) (s : State) : Host.Outcome State Fault Refusal :=
  s.dev! fun d => d.when (d.port n).hpdPin fun d =>
    d.setPort n { d.port n with hpdPin := false, edgeAt := d.now, lossDone := false }

/-- A loss is declared: NO_SINK and a pair trigger where a link was in use (R174, R185). -/
def Dev.declareLoss (n : Nat) (d : Dev) : Dev :=
  let x := d.port n
  let c := d.portCanvas n
  let d := d.setPort n { x with lossDone := true, hpd := false, lossCnt := x.lossCnt + 1 }
  match x.state with
  | .training | .idle | .active | .linkLost =>
    (((d.enterNoSink n).trigger n 2).auxFree n).relinkProgress c
  | .off | .noSink | .fenced | .draining => d

/-- HPD_LOSS: `HPD` has been low for 2 ms (R174). -/
def execHpdLoss (n : PortNo) (s : State) : Host.Outcome State Fault Refusal :=
  s.dev! fun d =>
    let x := d.port n
    d.when (d.supervises && !x.hpdPin && !x.lossDone && decide (x.edgeAt + 2000000 ≤ d.now)) (Dev.declareLoss n)

/-- HPD_DEBOUNCED: `HPD` has been high for the debounce time of 2 ms (R172, R174). -/
def execHpdDebounced (n : PortNo) (s : State) : Host.Outcome State Fault Refusal :=
  s.dev! fun d =>
    let x := d.port n
    d.when (d.supervises && x.hpdPin && !x.hpd && decide (x.edgeAt + 2000000 ≤ d.now)) fun d =>
      let d := d.setPort n { x with hpd := true }
      if x.state = .noSink then d.startTraining n else d

/-- LINK_STATUS_READ: the read of the sink's link status completes; a loss of lock retrains the port (R175). -/
def execLinkStatusRead (n : PortNo) (loss : Bool) (s : State) : Host.Outcome State Fault Refusal :=
  s.dev! fun d =>
    let x := d.port n
    d.when (x.statusDue && (x.state = .idle || x.state = .active)) fun d =>
      let d := (d.setPort n { x with statusDue := false, pollAt := d.now }).auxFree n
      if loss then d.retrainPort n else d

/-- STANDBY_STATUS_POLL: an IDLE standby of a cold pair reads the link status every 100 ms (R175). -/
def execStandbyStatusPoll (n : PortNo) (s : State) : Host.Outcome State Fault Refusal :=
  s.dev! fun d =>
    let x := d.port n
    d.when (d.coldPair n && x.standby && x.state = .idle && decide (x.pollAt + 100000000 ≤ d.now)) fun d =>
      d.setPort n { x with statusDue := true, pollAt := d.now }

/-! ## AUX (R176) -/

/-- The port owns its AUX channel: while it trains and while it reads the link status. -/
def Port.ownsAux (x : Port) : Bool :=
  x.step != .none || (x.statusDue && (x.state = .idle || x.state = .active))

/-- `DPT_AUX_CMD` written with `GO` = 1: `GO` is dropped while a transaction is in progress, which goes on with what it was
started with (R176). -/
def Dev.auxGo (n : Nat) (cmd : Word) (d : Dev) : Dev :=
  let x := d.port n
  if x.aux.busy then d
  else
    d.setPort n
      { x with aux := { busy := true, reply := x.aux.reply, count := x.aux.count, since := d.now, cmd := cmd } }

/-- A transaction ends. -/
def Dev.auxEnd (n : Nat) (reply : BitVec 2) (count : Nat) (d : Dev) : Dev :=
  let x := d.port n
  d.setPort n { x with aux := { x.aux with busy := false, done := true, reply := reply, count := count } }

/-- The reply bytes in the data registers. -/
def Dev.auxBytes (n : Nat) (bs : List Byte) (d : Dev) : Dev :=
  (List.range 4).foldl (fun d m =>
    let part := (bs.drop (4 * m)).take 4
    if part.isEmpty then d
    else
      let old := leBytes 4 (d.reg .dpt n (DPT_AUX_DATA + 4 * m)).toNat
      d.setReg .dpt n (DPT_AUX_DATA + 4 * m) (BitVec.ofNat 32 (leNat (part ++ old.drop part.length)))) d

/-- AUX_REPLY: a reply to a software transaction arrives. A read's data goes to the data registers; an acknowledged write
has transferred its `LEN` + 1 bytes (PRESUMED: `CMD` bit 0 tells a read as DisplayPort encodes it,
notes/assumptions/12.md). -/
def execAuxReply (n : PortNo) (a : AuxAnswer) (s : State) : Host.Outcome State Fault Refusal :=
  s.dev! fun d =>
    let x := d.port n
    d.when (x.aux.busy && !x.ownsAux) fun d =>
      match a with
      | .ack bytes =>
        let bytes := bytes.take 16
        let cmd := x.aux.cmd
        if bit cmd 24 then (d.auxBytes n bytes).auxEnd n 0 bytes.length else d.auxEnd n 0 (bits cmd 23 20 + 1)
      | .nack => d.auxEnd n 1 0
      | .defer =>
        if x.aux.defers < 7 then
          d.setPort n { x with aux := { x.aux with defers := x.aux.defers + 1, since := d.now } }
        else d.auxEnd n 2 0

/-- AUX_TIMEOUT: an attempt has had no reply for 3.2 ms. -/
def execAuxTimeout (n : PortNo) (s : State) : Host.Outcome State Fault Refusal :=
  s.dev! fun d =>
    let x := d.port n
    d.when (x.aux.busy && !x.ownsAux && decide (x.aux.since + 3200000 ≤ d.now)) (Dev.auxEnd n 3 0)

/-! ## Staged port settings (R29, R125, R178 to R181) -/

/-- The staged word of a port register takes effect, leaving the staging buffer. -/
def Dev.takeStaged (n off : Nat) (k : Word → Dev → Dev) (d : Dev) : Dev :=
  let a := regAt .dpt n off
  match d.stagedAt a with
  | some w => k w (d.setStagedAt a none)
  | none => d

/-- A change of canvas is seamless (R29). -/
def Dev.seamlessSrc (d : Dev) (a b : Nat) : Bool :=
  d.reg .cnv a CNV_SCLK = d.reg .cnv b CNV_SCLK && (d.groupOf a).isSome && d.groupOf a = d.groupOf b

/-- A staged `DPT_SRC` is taken: the port finishes the frame of the old canvas. -/
def Dev.takeSrc (n : Nat) (w : Word) (d : Dev) : Dev :=
  let old := d.portCanvas n
  let d1 := d.setReg .dpt n DPT_SRC w
  if old = bits w 6 0 then d1
  else
    let x := d.port n
    let d2 := if x.state = .active then d1.setPort n { x with finishing := some ((x.finishing).getD old) } else d1
    ((if d.seamlessSrc old (bits w 6 0) then d2.endVideo n else d2.relinkPort n).updatePairs).relinkProgress old

/-- A staged `DPT_FMT` waits for the frame start, or relinks the port (R125, R181). -/
def Dev.takeFormat (n : Nat) (w : Word) (d : Dev) : Dev :=
  let c := d.portCanvas n
  let x := d.port n
  let dsc := d.reg .dpt n DPT_DSC
  let up := x.state = .idle || x.state = .active
  let d1 := d.setPort n { x with fmtErr := false }
  if w = d.fmtTarget n then d1
  else if ¬ up then
    (((d1.setReg .dpt n DPT_FMT w).setAdmittedAt (regAt .dpt n DPT_FMT) none).setPort n
      { x with fmtErr := false, fmtNext := none }).when (x.state = .training) (Dev.relinkPort n)
  else
    let d2 := (d1.setAdmittedAt (regAt .dpt n DPT_FMT) (some w)).setPort n
      { x with fmtErr := false, fmtNext := some w }
    if bit dsc 30 || !d.linkCarries c w dsc x.lanes x.rate then d2.relinkPort n else d2

/-- A staged `DPT_DSC` applies, and a change relinks the port (R179, R181). -/
def Dev.takeDsc (n : Nat) (w : Word) (d : Dev) : Dev :=
  let same := d.reg .dpt n DPT_DSC = w
  let d := (d.setReg .dpt n DPT_DSC w).setPort n { d.port n with dscErr := false }
  if same then d else d.relinkPort n

/-- A staged `DPT_LANE` applies at the training that it brings about (R178). -/
def Dev.takeLane (n : Nat) (w : Word) (d : Dev) : Dev :=
  ((d.setReg .dpt n DPT_LANE w).setPort n { d.port n with laneErr := false }).relinkPort n

/-- A staged `DPT_LINK` applies; a change relinks the port. -/
def Dev.takeLink (n : Nat) (w : Word) (d : Dev) : Dev :=
  let same := d.reg .dpt n DPT_LINK = w
  let d := d.setReg .dpt n DPT_LINK w
  if same then d else d.relinkPort n

/-- A `DPT_FMT` value breaks R125 on a canvas. -/
def fmtBad (r : CanvasRegs) (w : Word) : Bool :=
  (bits w 1 0 != 0 && bits w 3 2 = 0) || (2 ≤ bits w 1 0 && cW r % 2 = 1) || (bits w 1 0 = 3 && cH r % 2 = 1)

/-- Port `n` uses a DSC encoder: DSC is enabled, and the port is neither OFF nor fenced (R179). -/
def Dev.usesEncoder (d : Dev) (n : Nat) : Option Nat :=
  let x := d.port n
  let w := d.reg .dpt n DPT_DSC
  if bit w 30 && x.state != .off && !x.fenced then some (bits w 29 25) else none

/-- A DSC setting meets R180 on a canvas with an encoding. -/
def Dev.dscOk (d : Dev) (c : Nat) (fmt w : Word) : Bool :=
  let r := d.cregs c
  let slices := 2 ^ bits w 24 23
  let bpp := bits w 22 14
  let sh := bits w 12 0
  let sub := 2 ≤ bits fmt 1 0
  (fmtBpc fmt = 8 || fmtBpc fmt = 10) && decide (96 ≤ bpp) && decide (bpp ≤ 384) && decide (bpp < plainBpp16 fmt) &&
  cW r % slices = 0 && decide (cW r / slices ≤ 5120) && (!sub || cW r / slices % 2 = 0) &&
  decide (d.fpNum r ≤ slices * 600000000 * cDiv r) &&
  decide (8 ≤ sh) && cH r % sh = 0 && (bits fmt 1 0 != 3 || sh % 2 = 0)

/-- The value of a staged setting that port `m` takes after port `n` at one latch point: of the ports that show a canvas, the
higher numbers follow. -/
def Dev.stagedAfter (d : Dev) (n m off : Nat) : Option Word :=
  if n < m ∧ d.portCanvas m = d.portCanvas n ∧ ¬ d.held (PType.dpt.page + m) then d.stagedAt (regAt .dpt m off) else none

/-- A DSC setting names an encoder that another port uses for another stream. Of two values that apply at one latch point, the
lower port's keeps the encoder (R179). -/
def Dev.dscClash (d : Dev) (n c : Nat) (fmt w : Word) : Bool :=
  (List.range 128).any fun m =>
    let fmtM := (d.stagedAfter n m DPT_FMT).getD (d.fmtTarget m)
    let cM := ((d.stagedAfter n m DPT_SRC).map (bits · 6 0)).getD (d.portCanvas m)
    m != n && d.usesEncoder m = some (bits w 29 25) && !(d.stagedAfter n m DPT_DSC).any (fun v => !bit v 30 || d.dscOk cM fmtM v) &&
    !(cM = c && fmtM = fmt && d.reg .dpt m DPT_DSC = w)

/-- A `DPT_LANE` value maps two lanes to one (R178). -/
def laneDup (w : Word) : Bool := !decide ([bits w 1 0, bits w 3 2, bits w 5 4, bits w 7 6].Nodup)

/-- The staged settings of port `n` take effect as one set, unless its page holds them. A set with an invalid value is
discarded whole, and the error bit of each invalid value sets (R125, R178 to R180, R331). -/
def Dev.applyPort (n : Nat) (d : Dev) : Dev :=
  if d.held (PType.dpt.page + n) then d
  else
    let staged := fun off => d.stagedAt (regAt .dpt n off)
    let c := match staged DPT_SRC with | some w => bits w 6 0 | none => d.portCanvas n
    let fmt := (staged DPT_FMT).getD (d.fmtTarget n)
    let badFmt := (staged DPT_FMT).any (fmtBad (d.cregs c))
    let badLane := (staged DPT_LANE).any laneDup
    let badDsc := (staged DPT_DSC).any fun w => bit w 30 && (d.dscClash n c fmt w || !d.dscOk c fmt w)
    if badFmt || badLane || badDsc then
      let x := d.port n
      ((d.dropStaged .dpt n).setPort n { x with
        fmtErr := x.fmtErr || badFmt, laneErr := x.laneErr || badLane, dscErr := x.dscErr || badDsc }).setDiscarded
        (PType.dpt.page + n) true
    else
      let d := d.takeStaged n DPT_SRC (Dev.takeSrc n)
      let d := d.takeStaged n DPT_PAIR fun w d => (d.setReg .dpt n DPT_PAIR w).updatePairs
      let d := d.takeStaged n DPT_FMT (Dev.takeFormat n)
      let d := d.takeStaged n DPT_DSC (Dev.takeDsc n)
      let d := d.takeStaged n DPT_LANE (Dev.takeLane n)
      d.takeStaged n DPT_LINK (Dev.takeLink n)

/-! ## What a canvas's frames do to its ports -/

/-- A swap asked for by either port of a cold pair is made at the frame start, where the standby is ready (R34). -/
def Dev.takeSwap (n : Nat) (d : Dev) : Dev :=
  let x := d.port n
  if ¬ x.swapAt then d
  else
    let m := d.partner n
    let y := d.port m
    let stand := if x.standby then x else y
    let x := { x with swapAt := false }
    let y := { y with swapAt := false }
    if d.coldPair n && stand.ready then
      let stop := fun (p : Port) => { p with standby := !p.standby,
                                             state := if !p.standby && p.state = .active then .idle else p.state }
      (d.setPort n (stop x)).setPort m (stop y)
    else d.setPort n x

/-- Port `n` at a frame start of its canvas: a pending encoding takes effect, and an idle port that is to carry video
begins it (R28, R125, R185). -/
def Dev.portFrame (n : Nat) (d : Dev) : Dev :=
  let x := d.port n
  if x.finishing.isSome then d
  else
    let d := if x.relinkAt then d else d.takeFmt n
    let x := d.port n
    if x.state = .idle && d.toCarry n then d.setPort n { x with state := .active, failed := 0 } else d

/-- Every port of canvas `c` at its frame start. -/
def Dev.portsFrame (c : Nat) (d : Dev) : Dev :=
  let ns := d.portsOf c
  ns.foldl (fun d n => d.portFrame n) (ns.foldl (fun d n => d.takeSwap n) d)

/-- The end of active line H − 1 of canvas `c` for port `n`: video ends for a relink or a change of canvas (R29,
R162). -/
def Dev.portVideoEnd (n : Nat) (d : Dev) : Dev :=
  let x := d.port n
  if x.relinkAt || x.finishing.isSome then d.stopVideo n else d

/-- A trained port of a relinking canvas: it sends the idle pattern, and its training begins once the canvas has settled
(R161, R185). -/
def Dev.awaitSettle (n : Nat) (d : Dev) : Dev :=
  let x := d.port n
  if x.state = .active ∨ x.state = .idle then
    d.setPort n { x with state := .training, step := .none, relinkAt := false, finishing := none }
  else d

/-- Canvas `c` produces no more video: the ports that send it go idle (R28, R161, R164). -/
def Dev.idlePorts (c : Nat) (d : Dev) : Dev := (d.senders c).foldl (fun d n => d.stopVideo n) d

end Sys2Proof.Machine
end

