-- ==== Sys2Proof/Machine/Scan.lean ====
section
/-!
DEFINITION. Canvases in time (R55, R75, R76, R147 to R166): what has fallen due, the latch point, the release of bands
with the Parison decision point, frame lock, and the canvas states.
-/
namespace Sys2Proof.Machine

/-! ## What has fallen due -/

/-- The frame whose lines are falling due: the one after that being scanned out once its line 0 has fallen due. -/
def Canvas.dueFrame (x : Canvas) : Nat := if x.state = .running ∧ ¬ x.started then x.scanFrame + 1 else x.scanFrame

/-- The read of line `y` of frame `f` has been due (R153). -/
def Canvas.isDue (x : Canvas) (f y : Nat) : Bool :=
  decide (f < x.dueFrame) || (f = x.dueFrame && decide (y < x.nextDue))

/-- The live cause of canvas-underrun (R167): an absent line in the current or the previous frame, while RUNNING. -/
def Canvas.underrun (x : Canvas) : Bool :=
  x.state = .running && (x.absentNow || x.absentPrev || (!x.started && x.lines.contains none))

/-- When frame `f` of a canvas starts or started, in device time. -/
def Canvas.startOf (x : Canvas) (f : Nat) : Nat :=
  if x.state = .starting then x.fsNow + x.raster.linesNs x.raster.lead + f * x.raster.period
  else x.fsNow + (f - x.scanFrame) * x.period

/-! ## The latch point (R55 to R58) -/

/-- A word belongs to a set of canvas `c` that waits for admission. -/
def AdmReq.holds (c : Nat) (e : Nat × Word) (r : AdmReq) : Bool :=
  match r with
  | .regs k set => k = c && set.contains e
  | .txn _ | .enable _ | .reeval _ | .flip _ _ _ _ | .clear _ _ _ => false

/-- The staged words of canvas `c`'s page that need no admission and belong to no set that waits for one. -/
def Dev.plainStaged (d : Dev) (c : Nat) : List (Nat × Word) :=
  if d.held (PType.cnv.page + c) then []
  else (d.stagedOf .cnv c).filter fun e =>
    !admittedOffs.contains e.1 && !d.scene.admQ.any (AdmReq.holds c e)

/-- Those words take effect as one set. -/
def Dev.takePlain (c : Nat) (d : Dev) : Dev :=
  let l := d.plainStaged c
  (d.unstage c l).applyWords c l

/-- The staged words of canvas `c`'s `CSP` page take effect, unless the page holds them (R328). -/
def Dev.takeCsp (c : Nat) (d : Dev) : Dev :=
  if d.held (PType.csp.page + c) then d
  else
    let l := d.stagedOf .csp c
    (d.dropStaged .csp c).setRegs .csp c l

/-- One latch point fewer to let pass on canvas `c`. -/
def Admitted.countSkip (c : Nat) (a : Admitted) : Admitted :=
  if a.pend.contains c then { a with skip := FMap.put (fun _ => 0) a.skip c (a.skips c - 1) } else a

/-- A latch point of canvas `c` has passed for the changes that were to let it pass. -/
def Dev.countSkips (c : Nat) (d : Dev) : Dev :=
  { d with scene := { d.scene with flight := d.scene.flight.map (Admitted.countSkip c) } }

/-- Every pipe changed. -/
def Dev.mapPipes (f : Pipe → Pipe) (d : Dev) : Dev := (List.range 14).foldl (fun d p => d.setPipe p (f (d.pipe p))) d

/-- A band of canvas `c`, of one kind where `par` names it. -/
def bandOf (c : Nat) (par : Option Bool) (k : Nat) (p : Bool) : Bool := k = c && par.all (· = p)

/-- A band in hand comes to nothing where it is of canvas `c`. -/
def Held.kill (c : Nat) (par : Option Bool) (h : Held) : Held := { h with dead := h.dead || bandOf c par h.canvas h.par }

/-- As for a band in hand, of a shadowed one. -/
def Shadow.kill (c : Nat) (par : Option Bool) (x : Shadow) : Shadow := { x with held := x.held.kill c par }

/-- As for a band in hand, of a disputed one. -/
def Dispute.kill (c : Nat) (par : Option Bool) (t : Dispute) : Dispute := { t with shadow := t.shadow.kill c par }

/-- The bands of canvas `c` that wait to be dealt are withdrawn, and those in hand, shadowed or disputed come to nothing. `par`
names the kind withdrawn, none both. -/
def Dev.killBands (c : Nat) (par : Option Bool) (d : Dev) : Dev :=
  let d := { d with comp := { d.comp with
    deal := d.comp.deal.filter fun r => !bandOf c par r.canvas r.par
    resumed := d.comp.resumed.filter fun h => !bandOf c par h.canvas h.par
    disputes := d.comp.disputes.map (Dispute.kill c par) } }
  d.mapPipes fun x => { x with held := x.held.map (Held.kill c par), shadows := x.shadows.map (Shadow.kill c par) }

/-- A released band goes into the dealing queue. -/
def Dev.offer (r : Released) (d : Dev) : Dev := { d with comp := { d.comp with deal := d.comp.deal ++ [r] } }

/-- A canvas that enters Parison mode copies the addresses and pitches of the two surfaces that `CNV_PAR` names, once (R74). -/
def Parison.copy (t : Tables) (r : CanvasRegs) (p : Parison) : Parison :=
  if p.copied then p
  else
    let s0 := t.surf (bits (r CNV_PAR) 13 0)
    let s1 := t.surf (bits (r CNV_PAR) 29 16)
    { p with copied := true, addr0 := s0.addr0, pitch0 := s0.pitch0.toNat, addr1 := s1.addr0, pitch1 := s1.pitch0.toNat }

/-- The Parison writer of canvas `c` starts frame `f` into buffer `b` (R75). Bands of a demotion's first buffer are dealt
ahead of every other Parison band. -/
def Dev.startWriter (c f b : Nat) (first : Bool) (d : Dev) : Dev :=
  let r := d.cregs c
  let x := d.canvas c
  let p := x.par.copy (d.viewOf c) r
  let p := { p with
    writing := some b, left := cBands r, frame := f, height := cB r, scene := d.snap c }
  let due := if first then 0 else x.startOf f
  (List.range (cBands r)).foldl (fun d k => d.offer { canvas := c, frame := f, band := k, par := true, due := due })
    (d.setCanvas c { x with par := p })

/-- The Parison writer of canvas `c` stops, and what it composed is discarded (R79). -/
def Dev.dropWriter (c : Nat) (d : Dev) : Dev :=
  let d := d.killBands c (some true)
  d.setCanvas c { d.canvas c with par := {}, old := none }

/-- A decided mode change begins at a latch point of canvas `c` for frame `f`; `before` is the scene it showed until then
(R75, R79). -/
def Dev.takeMode (c f : Nat) (k : ModeChange) (before : SceneSnap) (d : Dev) : Dev :=
  let x := d.canvas c
  let d1 := d.setCanvas c { x with change := some { k with latched := true } }
  if x.relinkAt then d1
  else if k.mode.par then
    if x.nextSrc = .direct ∧ x.old.isNone then
      (d1.setCanvas c { d1.canvas c with old := some before }).startWriter c (f + 1) 0 true
    else d1
  else if x.nextSrc = .direct then
    let d2 := d.dropWriter c
    d2.setCanvas c { d2.canvas c with change := none }
  else
    let d2 := d1.dropWriter c
    d2.setCanvas c { d2.canvas c with nextSrc := .direct }

/-- The latch point of canvas `c` for frame `f`: register-originated values, transactions, staged port settings and a
decided mode change apply (R25, R56 to R58, R63, R75, R159, R328). -/
def Dev.latch (c f : Nat) (d : Dev) : Dev :=
  let due := d.dueAt c
  let change := (d.canvas c).change.filter fun k =>
    !k.latched && (match k.withNo with | none => true | some n => due.any fun a => a.no = n)
  let before := d.snap c
  let old := d.cregs c
  let ports := d.portsOf c
  let d := (d.takePlain c).takeCsp c
  let d := (d.countSkips c).applyOn c due
  let x := d.canvas c
  let d := d.setCanvas c { x with relinkAt := x.relinkAt || relinks old (d.cregs c) }
  let d := ports.foldl (fun d n => d.applyPort n) d
  match change with
  | some k => d.takeMode c f k before
  | none => d

/-! ## Releases and the decision point (R55, R75, R76) -/

/-- The settings of canvas `c` as its next latch point leaves them, where that is no relink. -/
def Dev.latchRegs (d : Dev) (c : Nat) : CanvasRegs :=
  let old := d.cregs c
  let new := (d.dueAt c).foldl (fun r a => overlay r (a.wordsFor c)) old
  if relinks old new then old else new

/-- The line whose end releases band `b`; negative lines count back from line *H* of the frame before (R55, R89). -/
def releaseLine (r : CanvasRegs) (b : Nat) : Int := ((b * cB r + cB r : Nat) : Int) - ((cD r + 1 : Nat) : Int)

/-- Scan-out has ended a line of frame `f` of canvas `c`, counted as `releaseLine` counts. In frame −1 lines end by the
time since the generator began. -/
def Dev.lineEnded (d : Dev) (c f : Nat) (r : CanvasRegs) (p : Int) : Bool :=
  let x := d.canvas c
  match x.state with
  | .starting =>
    x.gen && f = 0 && decide (p < 0) && d.linesPassed c (p + ((x.raster.d + 1 : Nat) : Int)).toNat 0
  | .running =>
    if f = x.scanFrame + 1 then decide (p < 0) && x.ended ((cH r : Int) + p).toNat
    else f = x.scanFrame && (decide (p < 0) || x.ended p.toNat)
  | .off | .relink | .draining => false

/-- A band's release point has come. With *D* = *B* the end of line `p` is the point at which the band's first line is due,
and the scan fill makes that line present: there the release comes before the due cycle (R17, R75, R153;
notes/assumptions/14.md). -/
def Dev.releaseReached (d : Dev) (c : Nat) (r : CanvasRegs) (p : Int) : Bool :=
  d.lineEnded c (d.canvas c).compFrame r (if cD r = cB r ∧ 0 < p then p - 1 else p)

/-- The next band of canvas `c` falls to be released. -/
def Dev.releaseDue (d : Dev) (c : Nat) : Bool :=
  let x := d.canvas c
  let r := if x.nextBand = 0 then d.latchRegs c else d.cregs c
  !x.relinkAt && d.releaseReached c r (releaseLine r x.nextBand) &&
  (x.nextBand = 0 || !(d.comp.deal.any fun e => e.canvas = c && !e.par && e.band = 0))

/-- A word of a Parison buffer as the scan fill moves it back (R122): `RED`, `GRN` and `BLU` change places. -/
def swapRB (w : Word) : Word := place 29 20 (bits w 9 0) ||| place 19 10 (bits w 19 10) ||| place 9 0 (bits w 29 20)

/-- Line `y` of the frame that the scan fill fills, from a Parison buffer or the background. -/
def Dev.fillLine (d : Dev) (c y : Nat) : List Word :=
  let r := d.cregs c
  let x := d.canvas c
  match x.nextSrc with
  | .buffer b =>
    let (a, p) := if b = 0 then (x.par.addr0.toNat, x.par.pitch0) else (x.par.addr1.toNat, x.par.pitch1)
    (List.range (cW r)).map fun i => swapRB (BitVec.ofNat 32 (d.fetchNat (a + y * p + 4 * i) 4))
  | .direct | .background => List.replicate (cW r) (r CNV_BG &&& 0x3FFFFFFF)

/-- What the scan fill's read of line `y` of a Parison buffer finds uncorrectable (R269). -/
def Dev.noteFill (c y : Nat) (d : Dev) : Dev :=
  let x := d.canvas c
  match x.nextSrc with
  | .buffer b =>
    let (a, p) := if b = 0 then (x.par.addr0.toNat, x.par.pitch0) else (x.par.addr1.toNat, x.par.pitch1)
    d.noteRead 68 false (a + y * p) (4 * cW (d.cregs c))
  | .direct | .background => d

/-- The key of line `y` of frame `f` in a scan buffer of `n` lines: slot *y* mod *D* of its frame. A line of the next frame does
not take the slot of a line that scan-out has still to read (R152, R153; DEDUCED, notes/assumptions/6.md). -/
def scanKey (n f y : Nat) : Nat := f % 2 * n + y % n

/-- A line is written to canvas `c`'s scan buffer, unless its read has been due (R152, R154). -/
def Dev.putLine (c f y : Nat) (ws : List Word) (d : Dev) : Dev :=
  let x := d.canvas c
  if x.isDue f y then d
  else d.setCanvas c { x with scan := FMap.put (fun _ => none) x.scan (scanKey x.raster.d f y) (some (f, y, ws)) }

/-- The lines of band `b`. -/
def bandLines (r : CanvasRegs) (b : Nat) : List Nat :=
  (List.range (min (cB r) (cH r - b * cB r))).map (· + b * cB r)

/-- Band `b` of a frame whose source is decided: the scan fill fills it, or it is offered to the pipes (R75, R128). -/
def Dev.releaseBand (c b : Nat) (latched : Bool) (d : Dev) : Dev :=
  let x := d.canvas c
  let r := d.cregs c
  let d := if x.nextSrc = .direct then
      d.offer { canvas := c, frame := x.compFrame, band := b, latched := latched,
                due := x.startOf x.compFrame + x.raster.linesNs (b * cB r) }
    else (bandLines r b).foldl (fun d y => (d.noteFill c y).putLine c x.compFrame y (d.fillLine c y)) d
  let x := d.canvas c
  d.setCanvas c (if b + 1 < cBands r then { x with nextBand := b + 1 }
    else { x with nextBand := 0, compFrame := x.compFrame + 1 })

/-- The decision point of a Parison canvas after its latch point: a complete buffer is shown, or the last one again
(R75, R76); then the writer, if it is idle, starts the next frame in the buffer not being shown. -/
def Dev.decision (c : Nat) (d : Dev) : Dev :=
  let x := d.canvas c
  let x := match x.par.ready with
    | some b => { x with nextSrc := FrameSrc.buffer b, old := none, par := { x.par with ready := none, shown := some b } }
    | none => match x.nextSrc with
      | .buffer _ => { x with ldg := { x.ldg with repeats := x.ldg.repeats + 1 } }
      | .direct | .background => x
  let d := d.setCanvas c x
  if x.par.writing.isSome then d
  else
    let b := match x.nextSrc with | .buffer 0 => 1 | _ => 0
    d.startWriter c (x.compFrame + 1) b false

/-- Band 0 of the next frame of canvas `c` is released. In Parison mode, and where the first buffer of a demotion is
complete, the latch point falls here (DEDUCED, notes/assumptions/14.md). -/
def Dev.releaseFirst (c : Nat) (d : Dev) : Dev :=
  let x := d.canvas c
  let ready := x.old.isSome && x.par.ready.isSome && x.change.any fun k => k.latched && k.mode.par
  if x.nextSrc = .direct ∧ ¬ ready then d.releaseBand c 0 false
  else
    let d := d.latch c x.compFrame
    let x := d.canvas c
    if x.relinkAt then d
    else if x.nextSrc = .direct ∧ (x.old.isNone ∨ x.par.ready.isNone) then d.releaseBand c 0 true
    else (d.decision c).releaseBand c 0 true

/-- BAND_RELEASE: scan-out reaches the release line of the next band of canvas `c` (R55, R75, R128). -/
def execBandRelease (c : CanvasNo) (s : State) : Host.Outcome State Fault Refusal :=
  s.dev! fun d => d.when (d.releaseDue c) fun d =>
    let b := (d.canvas c).nextBand
    if b = 0 then d.releaseFirst c else d.releaseBand c b false

/-- PARISON_FRAME_COMPLETE: the writer has completed its buffer, which is shown from the next decision point (R75,
R76). -/
def execParisonFrameComplete (c : CanvasNo) (s : State) : Host.Outcome State Fault Refusal :=
  s.dev! fun d =>
    let x := d.canvas c
    d.when (x.par.writing.isSome && x.par.left = 0) fun d =>
      d.setCanvas c { x with par := { x.par with ready := x.par.writing, writing := none } }

/-! ## Frame lock (R155 to R157) -/

/-- `e` wrapped into [−p/2, p/2). -/
def wrapPhase (p : Nat) (e : Int) : Int :=
  if p = 0 then e else (e + ((p / 2 : Nat) : Int)) % (p : Int) - ((p / 2 : Nat) : Int)

/-- An interval lies within `ppm` of a period. -/
def withinPpm (ppm p q : Nat) : Bool := decide (((p : Int) - (q : Int)).natAbs * 1000000 ≤ ppm * q)

/-- The state of a lock that enters ACQUIRING. -/
def LockSt.acquire (l : LockSt) : LockSt := { l with lstate := .acquiring, ok := 0, bad := 0, good := 0, acqDone := false }

/-- A reference event at time `t` (R155, R157). -/
def LockSt.event (ppm : Nat) (t : Quad) (l : LockSt) : LockSt :=
  match l.ref with
  | none => { l with ref := some t }
  | some r =>
    let p := (t - r).toNat
    let good := if l.period.any (withinPpm ppm p) then l.good + 1 else 0
    let l' := { l with ref := some t, period := some p }
    if l.lstate = .holdover then (if 2 ≤ good then l'.acquire else { l' with good := good }) else l'

/-- A reference event for the canvases whose lock source is `src`, and for source 3 whose master is `m`. -/
def Dev.reference (src m : Nat) (d : Dev) : Dev :=
  { d with canvases := d.canvases.map fun (c, x) =>
      let w := d.reg .cnv c CNV_LOCK
      if bits w 31 30 = src ∧ (src ≠ 3 ∨ bits w 22 16 = m) then
        (c, { x with lock := x.lock.event (bits w 9 0) d.time })
      else (c, x) }

/-- Canvas `c` enters HOLDOVER. -/
def Dev.enterHoldover (c : Nat) (d : Dev) : Dev :=
  let x := d.canvas c
  (d.setCanvas c { x with lock := { x.lock with lstate := .holdover, ok := 0, bad := 0, good := 0 } }).fire 353 c
    (dbits 0 (x.lock.phase % 16777216).toNat)

/-- The canvases that lock to canvas `m`. -/
def Dev.slaves (d : Dev) (m : Nat) : List Nat :=
  (d.canvases.filter fun e => d.fld .cnv e.1 CNV_LOCK 31 30 = 3 && d.fld .cnv e.1 CNV_LOCK 22 16 = m).map (·.1)

/-- Canvas `m` leaves RUNNING: the canvases that lock to it hold over (R157). -/
def Dev.masterLeft (m : Nat) (d : Dev) : Dev :=
  (d.slaves m).foldl (fun d c =>
    let l := (d.canvas c).lock.lstate
    if l = .acquiring ∨ l = .locked then d.enterHoldover c else d) d

/-- Canvas `m` returns to RUNNING. -/
def Dev.masterBack (m : Nat) (d : Dev) : Dev :=
  (d.slaves m).foldl (fun d c =>
    let x := d.canvas c
    if x.lock.lstate = .holdover then d.setCanvas c { x with lock := x.lock.acquire } else d) d

/-- The lock state after a measurement `e` (R157). A LOCKED canvas whose `RANGE` reads 1 goes to ACQUIRING, as the
example of R160 has it (DEDUCED, notes/assumptions/13.md). -/
def LockSt.judge (tol : Nat) (e : Int) (range : Bool) (l : LockSt) : LockSt :=
  match l.lstate with
  | .acquiring =>
    let ok := if e.natAbs ≤ tol then min 4 (l.ok + 1) else 0
    if ok = 4 ∧ ¬ range then { l with lstate := .locked, ok := 0, bad := 0 } else { l with ok := ok }
  | .locked =>
    let bad := if 4 * tol < e.natAbs then l.bad + 1 else 0
    if 2 ≤ bad ∨ range then l.acquire else { l with bad := bad }
  | .none | .holdover => l

/-- The measurement at a frame start of canvas `c`: phase, the stretch of `ACQ`, the trim, and the lock state (R156, R157). In
HOLDOVER the last trim stays. -/
def Dev.measureLock (c : Nat) (d : Dev) : Dev :=
  let x := d.canvas c
  let r := d.cregs c
  let w := r CNV_LOCK
  let ppm := bits w 9 0
  match x.lock.lstate, x.lock.ref, x.lock.period with
  | .none, _, _ => d
  | _, none, _ => d
  | _, _, none => d
  | _, some t, some p =>
    let e := wrapPhase p ((x.fsTb.toNat : Int) - ((t.toNat : Int) + (r CNV_LOCK_OFS).toInt))
    let line := (d.nominal c).num
    let den := (d.nominal c).den
    let jump := x.lock.lstate = .acquiring ∧ ¬ x.lock.acqDone ∧ bit w 29 ∧ line < e.natAbs * den
    let k := if jump then (2 * ((-e) % (p : Int)).toNat * den + line) / (2 * line) else 0
    let rest := if k = 0 then e else wrapPhase p (e + ((k * line / den : Nat) : Int))
    let trim := if x.lock.lstate = .holdover then x.lock.trim
      else clampAbs ((1000 * ppm : Nat) : Int) (rest * 1000000000 / ((4 * p : Nat) : Int))
    let l := { x.lock with phase := clampAbs 8388607 e, trim := trim, stretch := k, acqDone := true }
    d.setCanvas c { x with lock := l.judge (16 * bits w 15 10) e (d.lockRange c) }

/-- GENLOCK_EDGE: an edge at `GENLOCK_IN` of the active polarity is a reference event (R155, R158). -/
def execGenlockEdge (rising : Bool) (s : State) : Host.Outcome State Fault Refusal :=
  s.dev! fun d => d.when (rising != d.flg .cnv 0 CNV_SYNC 30) (Dev.reference 1 0)

/-- FSYNC_IN_EDGE: as GENLOCK_EDGE, at `FSYNC_IN`. -/
def execFsyncInEdge (rising : Bool) (s : State) : Host.Outcome State Fault Refusal :=
  s.dev! fun d => d.when (rising != d.flg .cnv 0 CNV_SYNC 29) (Dev.reference 2 0)

/-- LOCK_REFERENCE_MISSING: no reference event has come within 1.25 × *P* of the expected one (R157). -/
def execLockReferenceMissing (c : CanvasNo) (s : State) : Host.Outcome State Fault Refusal :=
  s.dev! fun d =>
    let x := d.canvas c
    match x.lock.ref, x.lock.period with
    | some t, some p =>
      d.when ((x.lock.lstate = .acquiring || x.lock.lstate = .locked) &&
        decide (4 * (t.toNat + p) + 5 * p ≤ 4 * d.time.toNat)) (Dev.enterHoldover c)
    | _, _ => d

/-- FSYNC_OUT_END: `FSYNC_OUT` has been high for 1,024 ns (R158). -/
def execFsyncOutEnd (s : State) : Host.Outcome State Fault Refusal :=
  s.dev! fun d => d.when (d.pins.fsyncOut && decide (d.pins.fsyncAt + 1024 ≤ d.now)) fun d =>
    { d with pins := { d.pins with fsyncOut := false } }

/-! ## Canvas states (R163 to R166) -/

/-- What applies on canvas `c` while it produces no frames: staged words of its pages and of the ports that select it
(R328). -/
def Dev.applyIdle (c : Nat) (d : Dev) : Dev :=
  let ports := d.portsOf c
  ports.foldl (fun d n => d.applyPort n) ((d.takePlain c).takeCsp c)

/-- Every change that waits on canvas `c` applies there, flips too (R52). -/
def Dev.applyAll (c : Nat) (d : Dev) : Dev :=
  let l := d.scene.flight.filter fun a => a.pend.contains c
  d.applyOn c (registersFirst l)

/-- Active lines of the frame in progress that have ended, the last frame's all while none is. -/
def Canvas.linesEnded (x : Canvas) : Nat := if x.started then x.nextDue - 1 else x.raster.h

/-- Canvas `c` leaves RUNNING: a beam gate that follows it keeps the lines that have ended, and waits for the canvas to run
again (R237). -/
def Dev.gateLeft (c : Nat) (d : Dev) : Dev :=
  let m := d.mrv
  let x := d.canvas c
  let kept := if m.gate.wait = some 0 then m.gate.kept ++ [(x.linesEnded, x.raster.h)] else m.gate.kept
  if bits (FMap.get (fun _ => 0) m.op MRV_GATE) 6 0 ≠ c ∨ m.gate.past then d
  else { d with mrv := { m with gate := { m.gate with wait := none, kept := kept } } }

/-- The ports of canvas `c` that waited for its relink to settle begin training. -/
def Dev.trainPorts (c : Nat) (d : Dev) : Dev :=
  (d.portsOf c).foldl (fun d n =>
    let x := d.port n
    if x.state = .idle ∨ (x.state = .training ∧ x.step = .none) then d.startTraining n else d) d

/-- A region of canvas `c` misses the frame in progress (R255). -/
def Dev.skipRegion (c i : Nat) (d : Dev) : Dev :=
  let r := d.region i
  if r.canvas ≠ c then d else d.setRegion i { r with skip := true, armed := false }

/-- The frame in progress of canvas `c` is cut short before its compare point: no region is compared in it (R255). -/
def Dev.cutRegions (c : Nat) (d : Dev) : Dev :=
  let x := d.canvas c
  if x.started ∧ x.nextDue ≤ x.raster.h then (List.range 4096).foldl (fun d i => d.skipRegion c i) d else d

/-- Canvas `c` leaves RUNNING: the beam gate that follows it, the regions of the frame that is cut short and the canvases that
lock to it (R157, R237, R255). -/
def Dev.leaveRunning (c : Nat) (d : Dev) : Dev := ((d.gateLeft c).cutRegions c).masterLeft c

/-- Entry to DRAINING (R52, R164). Ports that waited for a relink to settle train at once, and go idle as R28 has them. -/
def Dev.drainCanvas (c : Nat) (d : Dev) : Dev :=
  let x := d.canvas c
  let d := if x.state = .running then d.leaveRunning c else d
  let d := d.setCanvas c { d.canvas c with state := .draining, gen := false, relinkAt := false, change := none }
  let d := if x.state = .relink ∧ ¬ x.allocated then d.trainPorts c else d
  ((d.idlePorts c).killBands c none).applyAll c

/-- A write of `CNV_CTL.EN` (R163). -/
def Dev.writeCanvasEn (c : Nat) (b : Bool) (d : Dev) : Dev :=
  let x := { d.canvas c with en := b }
  let d := d.setCanvas c x
  match x.state, b with
  | .off, true =>
    if d.scene.admQ.contains (.enable c) then d
    else { d with scene := { d.scene with admQ := d.scene.admQ ++ [.enable c] } }
  | .off, false => d
  | .draining, _ => d.setCanvas c { x with enPending := b }
  | .starting, false | .running, false | .relink, false => d.drainCanvas c
  | .starting, true | .running, true | .relink, true => d

/-- No pipe has a band of canvas `c` in hand, its own, shadowed or being re-run (R164). -/
def Dev.bandsDone (d : Dev) (c : Nat) : Bool :=
  !(d.comp.pipes.any fun e => e.2.held.any (fun h => h.canvas = c) || e.2.shadows.any fun s => s.held.canvas = c) &&
  !(d.comp.disputes.any fun t => t.shadow.held.canvas = c)

/-- The admitted words of a canvas that has drained take effect as it reaches OFF (R328). -/
def Dev.takeAdmitted (c : Nat) (d : Dev) : Dev :=
  let l := d.admittedOf .cnv c
  let d := d.applyWords c l
  d.recordPrio c (d.cregs c)

/-- The drain completes: the scan buffer returns and the canvas is OFF, or an enable that waited goes to admission (R163 to
R165). -/
def Dev.canvasDrained (c : Nat) (d : Dev) : Dev :=
  let x := d.canvas c
  let g := x.ldg
  let d := d.setCanvas c { x with
    state := .off, enPending := false, blocks := 0, allocated := false, scan := [], lines := [], mode := .disabled
    src := .direct, nextSrc := .direct, par := {}, old := none, absentNow := false, absentPrev := false
    ldg := { g with seq := g.seq + 1, mode := .disabled, needMem := 0, needPipe := 0, res := 0, fMax := 0, cMax := 0,
                    bandF := 0, bandC := 0, dl := 0 } }
  let d := ((d.takeAdmitted c).applyIdle c).resum.stagingFreed
  if x.enPending then { d with scene := { d.scene with admQ := d.scene.admQ ++ [.enable c] } } else d

/-- CANVAS_DRAIN_COMPLETE: the bands dealt for a draining canvas have finished (R164). -/
def execCanvasDrainComplete (c : CanvasNo) (s : State) : Host.Outcome State Fault Refusal :=
  s.dev! fun d => d.when ((d.canvas c).state = .draining && d.bandsDone c) (Dev.canvasDrained c)

/-- RELINK_SETTLED: a relinking canvas has its new scan buffer and its clock, no sooner than 5 µs after event 2, and its
ports begin training (R161). -/
def execRelinkSettled (c : CanvasNo) (s : State) : Host.Outcome State Fault Refusal :=
  s.dev! fun d =>
    let x := d.canvas c
    d.when (x.state = .relink && !x.allocated && decide (x.fsNow + 5000 ≤ d.now)) fun d =>
      let d := d.setCanvas c { x with allocated := true, blocks := scanBlocks (d.cregs c) }
      (d.trainPorts c).relinkProgress c

/-- The generator of a canvas with a lock source may begin: frame 0 is to start on the first lock target that leaves time
for frame −1 after the start point (R166). -/
def Dev.targetReached (d : Dev) (c : Nat) : Bool :=
  let x := d.canvas c
  let r := d.cregs c
  match x.lock.ref, x.lock.period with
  | some t, some p =>
    if p = 0 then false
    else
      let n := d.rasterOf r
      let lead := ceilDiv (n.lead * n.num) n.den
      let least : Int := ((x.fsTb.toNat + lead : Nat) : Int)
      let target := least + ((t.toNat : Int) + (r CNV_LOCK_OFS).toInt - least) % (p : Int)
      decide (target ≤ ((d.time.toNat + lead : Nat) : Int))
  | _, _ => false

/-- GENERATOR_START: the timing generator of a STARTING canvas begins frame −1 (R166). -/
def execGeneratorStart (c : CanvasNo) (s : State) : Host.Outcome State Fault Refusal :=
  s.dev! fun d =>
    let x := d.canvas c
    d.when (x.state = .starting && !x.gen && (x.lock.lstate = .none || d.targetReached c)) fun d =>
      let r := d.rasterOf (d.cregs c)
      d.setCanvas c { x with gen := true, fsNow := d.now, fsTb := d.time, raster := r, period := r.period }

end Sys2Proof.Machine
end

