-- ==== Sys2Proof/Machine/Gather.lean ====
section
/-!
DEFINITION. Gather (R86 to R104): the pieces that a band's fetch is made of, what an arriving piece does to a unit, and how
units start and stop.
-/
namespace Sys2Proof.Machine

/-! ## The windows of a band (R130) -/

/-- The windows of a held band in the order of R130. -/
def Held.windows (h : Held) : List (Nat × WinImg × SurfImg) :=
  h.scene.stack.filter fun (_, w, _) =>
    let t := w.dstY.toInt - h.scene.y0.toInt
    decide (t < ((h.firstLine + h.lineCount : Nat) : Int)) && decide ((h.firstLine : Int) < t + (w.dstH.toNat : Int))

/-- The windows that layer slot `k` serves, in order. -/
def Held.slotWindows (h : Held) (k : Nat) : List (Nat × WinImg × SurfImg) :=
  (h.windows.zipIdx.filter fun e => e.2 % 8 = k).map (·.1)

/-- The lines of a held band. -/
def Held.allLines (h : Held) : List Nat := (List.range h.lineCount).map (· + h.firstLine)
/-- The line behind a band's last. -/
def Held.endLine (h : Held) : Nat := h.firstLine + h.lineCount
/-- The band is composed. -/
def Held.done (h : Held) : Bool := h.nextLine = h.firstLine + h.lineCount
/-- The same band of the same frame. -/
def Held.sameBand (a b : Held) : Bool := a.canvas = b.canvas && a.frame = b.frame && a.band = b.band && a.par = b.par

/-! ## The pieces of a fetch (R87 to R95, R101, R112) -/

/-- The numbers from `a` to `b`. -/
def fromTo (a b : Nat) : List Nat := (List.range (b + 1 - a)).map (· + a)

/-- The oriented source lines that an axis needs for output samples `jlo` to `jhi` − 1, taps included (R112). -/
def Axis.needs (a : Axis) (jlo jhi : Nat) : Nat × Nat :=
  if a.pass then (a.e / 16 + jlo, a.e / 16 + jhi - 1)
  else (a.tap ((a.position jlo).1 - 2), a.tap ((a.position (jhi - 1)).1 + 3))

/-- The surface pixels of a window that canvas lines [lo, hi) need (R87, R88). -/
def SceneSnap.needs (sc : SceneSnap) (w : WinImg) (s : SurfImg) (lo hi : Nat) : Option Bounds :=
  let t := w.dstY.toInt - sc.y0.toInt
  let jlo := max 0 ((lo : Int) - t)
  let jhi := min (w.dstH.toNat : Int) ((hi : Int) - t)
  if jlo < jhi then
    let v := (w.axisV s).needs jlo.toNat jhi.toNat
    let ah := w.axisH s
    let p := w.unorient s (ah.e / 16) v.1
    let q := w.unorient s (ceilDiv (ah.e + ah.x) 16 - 1) v.2
    some { x0 := min p.1 q.1, x1 := max p.1 q.1, y0 := min p.2 q.2, y1 := max p.2 q.2 }
  else none

/-- The atoms that bytes [lo, hi) of lines `y0` to `y1` of a plane lie in, as pieces of window `i`. -/
def linePieces (i base pitch lo hi y0 y1 : Nat) : List GatherPiece :=
  (fromTo y0 y1).flatMap fun y => (atomsOf (base + y * pitch + lo) (hi - lo)).map fun t => .atom i (256 * t)

/-- The pieces that hold the pixels `b` of a surface, for window `i` (R90, R91, R95). Chroma samples one beyond the pixels on
either side take part in the upsampling (R107). -/
def SurfImg.pieces (s : SurfImg) (i : Nat) (b : Bounds) : List GatherPiece :=
  let a0 := s.addr0.toNat
  let p0 := s.pitch0.toNat
  let blocks := (fromTo (b.y0 / 8) (b.y1 / 8)).flatMap fun ty => (fromTo (b.x0 / 8) (b.x1 / 8)).map fun tx => (tx, ty)
  match s.layout.toNat with
  | 1 => blocks.flatMap fun e => (atomsOf (tiledAddr a0 p0 (8 * e.1) (8 * e.2)) 256).map fun t => .atom i (256 * t)
  | 2 => blocks.map fun e => .tile i e.1 e.2
  | _ =>
    let n := fmtBytes s.fmt.toNat
    let lo := if s.fmt = 8 then b.x0 / 2 * 4 else b.x0 * n
    let hi := if s.fmt = 8 then (b.x1 / 2 + 1) * 4 else (b.x1 + 1) * n
    let q := if s.fmt = 7 then 4 else 2
    let chroma := if s.fmt = 6 ∨ s.fmt = 7 then
        linePieces i s.addr1.toNat s.pitch1.toNat (b.x0 / 2 * q) ((b.x1 / 2 + 1) * q) (b.y0 / 2 - 1)
          (min (b.y1 / 2 + 1) (s.height.toNat / 2 - 1))
      else []
    linePieces i a0 p0 lo hi b.y0 b.y1 ++ chroma

/-- The pieces that layer slot `k` fetches for lines [lo, hi) of a band, window by window. -/
def Held.pieces (h : Held) (k lo hi : Nat) : List GatherPiece :=
  ((h.slotWindows k).flatMap fun (i, w, s) => ((h.scene.needs w s lo hi).map (s.pieces i)).getD []).eraseDups

/-- The window that a piece belongs to. -/
def GatherPiece.win : GatherPiece → Nat
  | .atom i _ => i
  | .tile i _ _ => i

/-- The atoms that a piece is made of: a tile's header and the sectors that it names (R101). -/
def Dev.pieceAtoms (d : Dev) (h : Held) (k : Nat) : GatherPiece → List Nat
  | .atom _ a => [a / 256]
  | .tile i tx ty =>
    match (h.slotWindows k).find? fun e => e.1 = i with
    | none => []
    | some (_, _, s) =>
      let a := s.addr1.toNat + ty * s.pitch1.toNat + tx
      (a / 256 :: atomsOf (tiledAddr s.addr0.toNat s.pitch0.toNat (8 * tx) (8 * ty))
        (32 * (d.fetchNat a 1 % 8 + 1))).eraseDups

/-! ## Units at work -/

/-- What a unit has still to receive; its window is that of the next piece. -/
def Gather.await (l : List GatherPiece) (u : Gather) : Gather :=
  { u with todo := l, busy := !l.isEmpty, win := (l.head?.map GatherPiece.win).getD u.win }

/-- The Gather units of pipe `p` start to fetch lines of a band, from line `lo` on. -/
def Dev.startGather (p : Nat) (h : Held) (lo : Nat) (d : Dev) : Dev :=
  (List.range 8).foldl (fun d k => d.setGather (8 * p + k) ((d.gather (8 * p + k)).await (h.pieces k lo h.endLine))) d

/-- The eight Gather units of pipe `p` stop. -/
def Dev.stopGather (p : Nat) (d : Dev) : Dev :=
  (List.range 8).foldl (fun d k => d.setGather (8 * p + k) ((d.gather (8 * p + k)).await [])) d

/-- The requests of the Gather units of pipe `p` that are at work are freed: the units are fenced (R141, R279). -/
def Dev.freeGather (p : Nat) (d : Dev) : Dev :=
  (List.range 8).foldl (fun d s => d.when (d.gather (8 * p + s)).busy (Dev.freeTag (512 + 8 * p + s) 68)) d

/-- The fetch of pipe `p`'s units is complete. -/
def Dev.gatherDone (d : Dev) (p : Nat) : Bool := (List.range 8).all fun k => !(d.gather (8 * p + k)).busy

/-- The units of pipe `p` hold the data for line `y` of a band (R89, R140). -/
def Dev.lineFetched (d : Dev) (p : Nat) (h : Held) (y : Nat) : Bool :=
  (List.range 8).all fun k =>
    let todo := (d.gather (8 * p + k)).todo
    todo.isEmpty || (h.pieces k y (y + 1)).all (! todo.contains ·)

/-! ## Arrivals (R101, R104) -/

/-- The atom at an address arrives unusable (R104). -/
def Dev.unusable (d : Dev) (a : Nat) : Bool :=
  match d.kindOf a with
  | .gddr => d.atomBad (a / 256)
  | .cru _ | .host | .unmapped => true

/-- A composer fetch reads an atom, where it lies in memory: the read is checked, and an atom that it has lost is marked
(R269). -/
def Dev.fetchAtom (lost : List Nat) (d : Dev) (t : Nat) : Dev :=
  match d.kindOf (256 * t) with
  | .gddr => if lost.contains t then (d.markBad t).uncorrectable t 68 else d.readAtom 68 t
  | .cru _ | .host | .unmapped => d

/-- The atoms of a piece are not held up in bank queues (R89, R271). -/
def Dev.pieceServed (d : Dev) (h : Held) (k : Nat) (piece : GatherPiece) : Bool :=
  (d.pieceAtoms h k piece).all fun t => d.served (if h.urgent then 1 else 2) (256 * t) 256

/-- The detail of Frit-decode for a piece that is a tile which does not decode: its surface and its place (R101, R345). -/
def Dev.tileFails (d : Dev) (h : Held) (k : Nat) : GatherPiece → Option (BitVec 128)
  | .atom _ _ => none
  | .tile i tx ty => ((h.slotWindows k).find? fun e => e.1 = i).bind fun e =>
      if (d.fritTile e.2.2 tx ty).isSome then none
      else some (dbits 0 e.2.1.surf.toNat ||| dbits 32 tx ||| dbits 48 ty)

/-- Gather unit `g` takes a piece: `bad` of its atoms are unusable, and a tile that does not decode fires Frit-decode (R101,
R104). -/
def Dev.receive (piece : GatherPiece) (bad : Nat) (frit : Option (BitVec 128)) (d : Dev) (g : Nat) : Dev :=
  let u := (d.gather g).await ((d.gather g).todo.erase piece)
  let u := { u with poison := u.poison + BitVec.ofNat 32 bad }
  match frit with
  | some detail => (d.setGather g { u with fritErr := u.fritErr + 1 }).fire 320 g detail
  | none => d.setGather g u

/-- A piece of band `h` arrives at layer slot `k` of the pipes `ps`, the one that asked for it first; `lost` are atoms that this
read alone could not deliver. The band's composition has no use of them either. -/
def Dev.pieceArrives (ps : List Nat) (h : Held) (k : Nat) (piece : GatherPiece) (lost : List Nat) (d : Dev) : Dev :=
  let atoms := d.pieceAtoms h k piece
  let gone := atoms.filter fun t => lost.contains t && !d.unusable (256 * t)
  let bad := (atoms.filter fun t => d.unusable (256 * t)) ++ gone
  let frit := (d.asUsed (ps.headD 0) (h.lost ++ gone)).tileFails h k piece
  let d := atoms.foldl (Dev.fetchAtom gone) d
  (ps.map (8 * · + k)).foldl (Dev.receive piece bad.length frit) d

end Sys2Proof.Machine
end

