-- ==== Sys2Proof/Machine/Compose.lean ====
section
/-!
DEFINITION. Compose pipes (R126 to R146): dealing, fetching with flips, composition line by line, roles, understudies and votes, fences and takeovers.
-/
namespace Sys2Proof.Machine

/-! ## Roles and the rotation (R126, R127, R133) -/

/-- The pipes in a role, ascending. -/
def Dev.inRole (d : Dev) (r : Role) : List Nat := (List.range 14).filter fun p => (d.pipe p).role = r

/-- Checking runs (R133). -/
def Dev.checking (d : Dev) : Bool := d.flg .cmp 0 CMP_UND_CTL 31 && !(d.inRole .spare).isEmpty

/-- The pipe that spare `u` shadows at the present step. -/
def Dev.targetOf (d : Dev) (u : Nat) : Option Nat :=
  if ¬ d.checking then none
  else
    let a := d.inRole .active
    let us := d.inRole .spare
    if us.length = 1 then (if us.contains u then a[d.comp.step % a.length]? else none)
    else match us.findIdx? (· = u) with
      | some i => a[(2 * d.comp.step + i) % a.length]?
      | none => none

/-- The rotation advances one step. -/
def Dev.rotate (d : Dev) : Dev := { d with comp := { d.comp with step := d.comp.step + 1, stepAt := d.time } }

/-- The step count restarts, and checking begins anew (R133). -/
def Dev.restartRotation (d : Dev) : Dev := { d with comp := { d.comp with step := 0, stepAt := d.time } }

/-- `CMP_UND_CTL` has been written: an interval without frame starts counts from where checking begins (R133). -/
def Dev.checkingSet (begins : Bool) (d : Dev) : Dev :=
  if begins then { d with comp := { d.comp with stepAt := d.time } } else d

/-- The live cause of spares-exhausted (R145). -/
def Dev.exhausted (d : Dev) : Bool := (d.inRole .spare).isEmpty && !(d.inRole .fenced).isEmpty

/-- A change of roles with all that follows: the rotation restarts where a set changes, the ledger re-evaluates where
*N*_act changes, and spares-exhausted fires where its cause begins (R80, R127, R133, R145). -/
def Dev.changeRoles (f : Dev → Dev) (d : Dev) : Dev :=
  let e := f d
  let e := if e.inRole .active = d.inRole .active ∧ e.inRole .spare = d.inRole .spare then e else e.restartRotation
  let e := if e.nAct = d.nAct then e else askReeval 3 e
  if e.exhausted && !d.exhausted then
    e.fire 292 0 ((e.inRole .fenced).foldl (fun m p => m ||| dbits p 1) 0)
  else e

/-- The field of `CMP_CTL.REQ` for a role. -/
def Role.code : Role → Nat
  | .active => 0 | .spare => 1 | .fenced => 2

/-- Pipe `p` takes a role; `CMP_CTL.REQ` follows. -/
def Dev.setRole (p : Nat) (r : Role) (d : Dev) : Dev :=
  (d.setPipe p { d.pipe p with role := r, cause := 0, request := none, reqHeld := false, claimed := false }).setReg .cmp p CMP_CTL
    (BitVec.ofNat 32 r.code)

/-- Whether pipe `p` may take role `r` beside the spares `spares`: never three spares, never no active pipe (R127). -/
def Dev.roleFits (d : Dev) (spares : List Nat) (p : Nat) (r : Role) : Bool :=
  let others := (d.inRole .active).filter (· ≠ p)
  match r with
  | .active => true
  | .spare => decide ((spares.filter (· ≠ p)).length < 2) && !others.isEmpty
  | .fenced => (d.pipe p).role != .active || !others.isEmpty || !(d.inRole .spare).isEmpty

/-- Whether a request of role `r` for pipe `p` is accepted as it is written: requests that wait for their boundary count. -/
def Dev.roleLegal (d : Dev) (p : Nat) (r : Role) : Bool :=
  d.roleFits ((List.range 14).filter fun k =>
    (d.pipe k).role = .spare ∨ ((d.pipe k).request = some .spare ∧ ¬ (d.pipe k).reqHeld)) p r

/-! ## Disagreements and votes (R136 to R139) -/

/-- The shadow bands of spare `u` are dropped, and each is counted (R127, R136). -/
def Dev.dropShadows (u : Nat) (d : Dev) : Dev :=
  let x := d.pipe u
  (d.setPipe u { x with shadows := [], skip := x.skip + BitVec.ofNat 32 x.shadows.length }).stopGather u

/-- The CRC of line `y` in a list. -/
def crcOf (l : List (Nat × Word)) (y : Nat) : Word := FMap.get (fun _ => 0) l y

/-- The lines whose CRCs differ, ascending. -/
def differing (h : Held) (a u : List (Nat × Word)) : List Nat := h.allLines.filter fun y => crcOf a y ≠ crcOf u y

/-- The record of a disagreement, where it is free (R136). -/
def Dev.recordDispute (t : Dispute) (outcome : Nat) (rer : Option Nat) (crcR : Word) (fixed shown : Nat) (d : Dev) : Dev :=
  if d.comp.mm.valid then d
  else
    let a := t.shadow.actCrcs.getD []
    let y := (differing t.shadow.held a t.undCrcs).headD 0
    { d with comp := { d.comp with mm :=
        { valid := true, outcome := BitVec.ofNat 3 outcome, act := BitVec.ofNat 4 t.shadow.pipe, und := BitVec.ofNat 4 t.und,
          rer := BitVec.ofNat 4 (rer.getD 15), canvas := BitVec.ofNat 7 t.shadow.held.canvas, shown := BitVec.ofNat 6 shown,
          fixed := BitVec.ofNat 6 fixed, line := BitVec.ofNat 14 y, crcA := crcOf a y, crcU := crcOf t.undCrcs y,
          crcR := crcR } } }

/-- Check-unresolved fires for a disagreement (R136, R352). -/
def Dev.unresolved (t : Dispute) (outcome : Nat) (d : Dev) : Dev :=
  d.fire 291 t.und (dbits 0 t.shadow.held.canvas ||| dbits 16 t.shadow.held.band ||| dbits 32 outcome)

/-- The disagreement at the front leaves. -/
def Dev.popDispute (d : Dev) : Dev := { d with comp := { d.comp with disputes := d.comp.disputes.tail } }

/-- The disagreement at the front goes to the other spare for its re-run, which drops its shadow band and fetches the band afresh; without
one it ends with outcome 0b011. At most two disagreements wait. -/
def Dev.serveDisputes : Nat → Dev → Dev
  | 0, d => d
  | n + 1, d =>
    match d.comp.disputes with
    | [] => d
    | t :: rest =>
      if t.rerun.isSome then d
      else match (d.inRole .spare).find? (· ≠ t.und) with
        | some v =>
          let dropped := ((d.pipe v).shadows.head?).filter fun s => s.actCrcs.isSome
          let d := (d.dropShadows v).startGather v t.shadow.held t.shadow.held.firstLine
          { d with comp := { d.comp with disputes := { t with rerun := some v, dropped := dropped, alive := d.time } :: rest } }
        | none => (((d.recordDispute t 3 none 0 0 0).unresolved t 3).popDispute).serveDisputes n

/-- The re-run that pipe `v` makes is abandoned (R127, R136, R142). The record names `v`, and the CRC of a re-run that is not
complete reads 0 (DEDUCED, notes/assumptions/28.md). -/
def Dev.abandonRerun (v : Nat) (d : Dev) : Dev :=
  match d.comp.disputes with
  | t :: _ =>
    if t.rerun = some v then
      let d := { d with comp := { d.comp with abandoned := some (t, d.time, d.comp.mm) } }
      (((d.recordDispute t 4 (some v) 0 0 0).unresolved t 4).popDispute).stopGather v
    else d
  | [] => d

/-- Pipe `u` drops all understudy and re-run work. Its shadow bands count as skipped whatever the reason (R127; DEDUCED,
notes/assumptions/28.md). -/
def Dev.dropWork (u : Nat) (d : Dev) : Dev := (d.abandonRerun u).dropShadows u

/-! ## Fences and takeovers (R141 to R145) -/

/-- The shadows of pipe `p`'s bands that other pipes hold are dropped, and count as skipped: their active pipe will not finish
them (DEDUCED, notes/assumptions/28.md). -/
def Dev.dropShadowsOf (p : Nat) (d : Dev) : Dev :=
  (d.inRole .spare).foldl (fun d u =>
    let x := d.pipe u
    let keep := x.shadows.filter fun s => s.pipe ≠ p ∨ s.actCrcs.isSome
    d.setPipe u { x with shadows := keep, skip := x.skip + BitVec.ofNat 32 (x.shadows.length - keep.length) }) d

/-- Since when the watchdog of pipe `p` counts: it holds a band, its own, one it re-runs or one it shadows, and produces no pixel
although its fetch has not begun or holds the data for the line in progress. An understudy's pixels come with those of the
pipe it shadows (R140; DEDUCED, notes/assumptions/28.md). -/
def Dev.idleSince (d : Dev) (p : Nat) : Option Quad :=
  let x := d.pipe p
  match x.role, x.held, x.shadows with
  | .active, some h, _ => if h.fetched && !d.lineFetched p h h.nextLine then none else some h.alive
  | .spare, _, s :: _ => if s.held.fetched && !d.gatherDone p then none else some s.held.alive
  | .spare, _, [] => ((d.comp.disputes.find? fun t => t.rerun = some p).map (·.alive)).filter fun _ => d.gatherDone p
  | _, _, _ => none

/-- The band that a spare has in hand: the first it shadows, or the one it re-runs. -/
def Dev.spareBand (d : Dev) (p : Nat) : Option Held :=
  match (d.pipe p).shadows with
  | s :: _ => some s.held
  | [] => (d.comp.disputes.find? fun t => t.rerun = some p).map (·.shadow.held)

/-- The detail of a pipe fence: the band that the pipe had in hand, or else the band given, and its first unwritten line
(R352). -/
def Dev.fenceDetail (d : Dev) (p : Nat) (other : Option Held) : BitVec 128 :=
  match (d.pipe p).held, other with
  | some h, _ => dbits 0 h.canvas ||| dbits 16 h.band ||| dbits 32 h.nextLine
  | none, some h => dbits 0 h.canvas ||| dbits 16 h.band ||| dbits 32 (h.firstLine + h.lineCount)
  | none, none => 0

/-- A band that a fenced pipe leaves, as another pipe assumes it: where its fetch had begun, its lines wait for their re-fetch
in the urgent class (R142, R145). -/
def Held.handOver (h : Held) : Held := if h.fetched then { h with wait := true, urgent := true } else h

/-- Pipe `p` assumes a band that another pipe left: its units fetch what the lines to come need (R142, R145). -/
def Dev.assume (p : Nat) (h : Held) (d : Dev) : Dev :=
  let x := d.pipe p
  let d := d.setPipe p { x with held := some { h with alive := d.time }, claimed := h.wait }
  if h.wait then d.startGather p h h.nextLine else d

/-- A fenced active pipe's work passes to the lowest-numbered spare, or its band returns to the head of the dealing queue
(R142, R145). -/
def Dev.takeover (held : Option Held) (d : Dev) : Dev :=
  let band := (held.filter fun h => !h.dead).map Held.handOver
  match d.inRole .spare, band with
  | v :: _, some h => ((d.dropWork v).setRole v .active).assume v h
  | v :: _, none => (d.dropWork v).setRole v .active
  | [], some h => { d with comp := { d.comp with resumed := h :: d.comp.resumed } }
  | [], none => d

/-- Pipe `p` is fenced with a cause: 1 watchdog, 2 outvoted, 3 driver (R141). A re-run that it was making ends with outcome
0b100 whatever the cause (DEDUCED, notes/assumptions/28.md). -/
def Dev.fencePipe (p : Nat) (cause : Nat) (d : Dev) : Dev :=
  d.changeRoles fun d =>
    let x := d.pipe p
    let idle := (d.idleSince p).map fun t => (t, d.fenceDetail p (d.spareBand p))
    let d := (((d.dropWork p).freeGather p).stopGather p).setRole p .fenced
    let d := d.setPipe p { d.pipe p with held := none, cause := BitVec.ofNat 2 cause, fencedAt := d.time, idle := idle }
    let d := d.dropShadowsOf p
    (if x.role = .active then d.takeover x.held else d).serveDisputes 2

/-- Pipe `p` takes a role that R127 allows. -/
def Dev.grantRole (p : Nat) (r : Role) (d : Dev) : Dev :=
  match r with
  | .fenced =>
    let x := d.pipe p
    if x.role = .fenced then d else (d.fire 290 p (dbits 0 x.role.code)).fencePipe p 3
  | .active | .spare => d.changeRoles fun d => ((d.dropWork p).setRole p r).serveDisputes 2

/-- A request that R127 turns away: `REQ` shows the role in effect, and `REQ_ERR` sets. -/
def Dev.rejectRole (p : Nat) (d : Dev) : Dev :=
  let x := d.pipe p
  (d.setPipe p { x with reqErr := true, request := none, reqHeld := false }).setReg .cmp p CMP_CTL (BitVec.ofNat 32 x.role.code)

/-- Pipe `p` is at a band boundary: a waiting request takes effect where the roles that now stand allow it (R127). -/
def Dev.atBoundary (p : Nat) (d : Dev) : Dev :=
  match (d.pipe p).request with
  | none => d
  | some r => if d.roleFits (d.inRole .spare) p r then d.grantRole p r else d.rejectRole p

/-- `REQ_ERR` reads 0 in every pipe: a request has been accepted (R127). -/
def Dev.requestAccepted (d : Dev) : Dev :=
  (List.range 14).foldl (fun d k => d.setPipe k { d.pipe k with reqErr := false }) d

/-- An armed write of `CMP_CTL.REQ` (R127). -/
def Dev.requestRole (p : Nat) (req : Nat) (d : Dev) : Dev :=
  let x := d.pipe p
  let r : Role := match req with | 0 => .active | 1 => .spare | _ => .fenced
  if x.claimed then
    let d := d.requestAccepted
    (d.setPipe p { d.pipe p with request := some r, reqHeld := true }).setReg .cmp p CMP_CTL (BitVec.ofNat 32 req)
  else if ¬ d.roleLegal p r then d.setPipe p { x with reqErr := true }
  else
    let d := d.requestAccepted
    let wait := x.role = .active && x.held.isSome && r = .spare
    if wait then (d.setPipe p { d.pipe p with request := some r }).setReg .cmp p CMP_CTL (BitVec.ofNat 32 req)
    else if x.role = r then
      (d.setPipe p { d.pipe p with request := none, reqHeld := false }).setReg .cmp p CMP_CTL (BitVec.ofNat 32 req)
    else d.grantRole p r

/-! ## Dealing (R128) -/

/-- The order of the dealing queue: direct bands by deadline, then Parison bands; ties by canvas, frame and band. -/
def Released.before (a b : Released) : Bool :=
  if a.par ≠ b.par then !a.par
  else if a.due ≠ b.due then decide (a.due < b.due)
  else if a.canvas ≠ b.canvas then decide (a.canvas < b.canvas)
  else if a.frame ≠ b.frame then decide (a.frame < b.frame)
  else decide (a.band < b.band)

/-- The band that is dealt next. -/
def Dev.nextDeal (d : Dev) : Option Released :=
  d.comp.deal.foldl (fun b r => match b with | none => some r | some x => if r.before x then some r else some x) none

/-- A scene without the windows whose entry, or whose surface's entry, the Crucible has found uncorrectable since (R300). -/
def SceneSnap.sound (x : Crucible) (sc : SceneSnap) : SceneSnap :=
  { sc with wins := sc.wins.filter fun (i, w, _) => !(x.badWins.contains i || x.badSurfs.contains w.surf.toNat) }

/-- A released band in a pipe's hand. A direct frame is composed from the scene in effect, or from the scene held while a
demotion is under way; a Parison frame from the scene of its latch point. -/
def Dev.newHeld (d : Dev) (r : Released) : Held :=
  let x := d.canvas r.canvas
  let g := d.cregs r.canvas
  let h := if r.par then x.par.height else cB g
  { canvas := r.canvas, frame := r.frame, band := r.band, par := r.par, buf := x.par.writing.getD 0, width := cW g,
    firstLine := r.band * h, lineCount := min h (cH g - r.band * h), nextLine := r.band * h, alive := d.time,
    scene := (if r.par then x.par.scene else x.old.getD (d.snap r.canvas)).sound d.cru, dither := x.kBase + r.frame }

/-- Spare `u` takes part in a disagreement in hand. -/
def Dev.voting (d : Dev) (u : Nat) : Bool := d.comp.disputes.any fun t => t.und = u || t.rerun = some u

/-- Pipe `p` takes a band in hand, and every spare that shadows it takes it as well (R134). A spare that takes part in a
disagreement shadows nothing meanwhile, and what it misses does not count as skipped (DEDUCED, notes/assumptions/28.md). -/
def Dev.take (p : Nat) (h : Held) (d : Dev) : Dev :=
  let d := d.setPipe p { d.pipe p with held := some h }
  ((d.inRole .spare).filter fun u => d.targetOf u = some p && !d.voting u).foldl (fun d u =>
    let x := d.pipe u
    d.setPipe u (if x.shadows.length < 2 then { x with shadows := x.shadows ++ [{ pipe := p, held := h }] }
      else { x with skip := x.skip + 1 })) d

/-- Band `r` is dealt to pipe `p`. Band 0 of a direct frame brings the latch point; where a canvas relink applies there,
the frame is not composed (R55, R161). -/
def Dev.dealBand (p : Nat) (r : Released) (d : Dev) : Dev :=
  let d := { d with comp := { d.comp with deal := d.comp.deal.erase r } }
  let d := if r.band = 0 ∧ ¬ r.par ∧ ¬ r.latched then d.latch r.canvas r.frame else d
  let x := d.canvas r.canvas
  if x.relinkAt ∧ ¬ r.par ∧ (x.state = .starting ∨ x.scanFrame < r.frame) then
    { d with comp := { d.comp with deal := d.comp.deal.filter fun e =>
        !(e.canvas = r.canvas && !e.par && decide (r.frame ≤ e.frame)) } }
  else d.take p (d.newHeld r)

/-- Pipe `p` takes the next band: an interrupted one first, then by the order of R128 (R145). -/
def Dev.takeNext (p : Nat) (d : Dev) : Dev :=
  match d.comp.resumed with
  | h :: rest =>
    let d := { d with comp := { d.comp with resumed := rest } }.take p { h with alive := d.time }
    if h.wait then d.startGather p h h.nextLine else d
  | [] => match d.nextDeal with
    | some r => d.dealBand p r
    | none => d

/-- BAND_DEAL: active pipe `p`, which holds no band, takes the next (R55, R128, R134). -/
def execBandDeal (p : PipeNo) (s : State) : Host.Outcome State Fault Refusal :=
  s.dev! fun d => d.when ((d.pipe p).role = .active && (d.pipe p).held.isNone) (Dev.takeNext p)

/-! ## Fetching (R60, R61, R86 to R104) -/

/-- A scene after a flip: windows that the change names, or that show a surface it names, take the new surface (R60). -/
def SceneSnap.flip (t : Tables) (a : Admitted) (sc : SceneSnap) : SceneSnap :=
  { sc with wins := sc.wins.map fun (i, w, s) =>
      match a.wins.find? fun e => e.1 = i with
      | some e => (i, { w with surf := e.2.surf }, t.surf e.2.surf.toNat)
      | none => if a.surfs.any fun e => e.1 = w.surf.toNat then (i, w, t.surf w.surf.toNat) else (i, w, s) }

/-- A band whose fetch has not started takes a flip. -/
def Held.flip (c : Nat) (t : Tables) (a : Admitted) (h : Held) : Held :=
  if h.canvas = c ∧ ¬ h.fetched then { h with scene := h.scene.flip t a } else h

/-- One flip applies on canvas `c`: to every band whose fetch has not started, and to the scenes held for bands to come
(R61). -/
def Dev.applyFlip (c : Nat) (a : Admitted) (d : Dev) : Dev :=
  let t := { d.viewOf c with
    wins := ((d.viewOf c).putWins a.wins).wins, surfs := ((d.viewOf c).putSurfs a.surfs).surfs }
  let d := d.mapPipes fun x =>
    { x with held := x.held.map (Held.flip c t a), shadows := x.shadows.map fun s => { s with held := s.held.flip c t a } }
  let x := d.canvas c
  let d := d.setCanvas c { x with old := x.old.map (SceneSnap.flip t a), par := { x.par with scene := x.par.scene.flip t a } }
  d.applyOn c [a]

/-- The flips that wait on canvas `c` apply in the order of their commit points. A flip does not overtake an ordinary change
admitted before it that waits there: it follows it, in the commit order of R58 (DEDUCED, notes/assumptions/25.md). -/
def Dev.applyFlips (c : Nat) (d : Dev) : Dev :=
  ((d.scene.flight.filter fun a => a.pend.contains c).takeWhile (·.flip)).foldl (fun d a => d.applyFlip c a) d

/-- The spares that shadow pipe `p`'s band `h`. -/
def Dev.followers (d : Dev) (p : Nat) (h : Held) : List Nat :=
  (d.inRole .spare).filter fun u => (d.pipe u).shadows.any fun s => s.pipe = p && s.actCrcs.isNone && s.held.sameBand h

/-- Band `h` changed wherever pipe `p` and the spares that shadow it hold it. -/
def Dev.eachHold (h : Held) (f : Held → Held) (d : Dev) : Dev :=
  let g := fun (k : Held) => if k.sameBand h then f k else k
  d.mapPipes fun y => { y with held := y.held.map g, shadows := y.shadows.map fun s => { s with held := g s.held } }

/-- The source fetch of pipe `p`'s band starts, at the units of the spares that shadow it too (R134). -/
def Dev.fetchStart (p : Nat) (h : Held) (d : Dev) : Dev :=
  let d := d.applyFlips h.canvas
  let x := d.pipe p
  let h' := x.held.getD h
  let d := d.eachHold h fun k => { k with fetched := true }
  (p :: d.followers p h).foldl (fun d q => d.startGather q h' h'.firstLine) d

/-- BAND_FETCH_START: Gather starts the source fetch of the band in pipe `p`'s hand; flips committed before apply to it
(R61, R87, R89). -/
def execBandFetchStart (p : PipeNo) (s : State) : Host.Outcome State Fault Refusal :=
  s.dev! fun d =>
    match (d.pipe p).held with
    | some h => d.when (!h.fetched) (Dev.fetchStart p h)
    | none => d

/-- Unit `k` of pipe `p` has part of band `h` still to fetch. -/
def Dev.fetching (d : Dev) (p : Nat) (h : Held) (k : Nat) : Bool :=
  if h.fetched then (d.gather (8 * p + k)).busy else !(h.slotWindows k).isEmpty

/-- GATHER_ESCALATION: the fetch of pipe `p`'s direct band is not complete when scan-out ends its escalation line, and goes
on in the urgent class; each unit that has part of it to fetch counts it (R89). -/
def execGatherEscalation (p : PipeNo) (s : State) : Host.Outcome State Fault Refusal :=
  s.dev! fun d =>
    match (d.pipe p).held with
    | some h =>
      let r := d.cregs h.canvas
      let line : Int := ((h.band * cB r : Nat) : Int) - (((cD r - cB r) / 2 + 1 : Nat) : Int)
      let late := (List.range 8).filter (d.fetching p h)
      d.when (!h.par && !h.urgent && !late.isEmpty && d.lineEnded h.canvas h.frame r line) fun d =>
        let d := (d.setPipe p { d.pipe p with held := some { h with urgent := true } }).raiseGather p
        late.foldl (fun d k => d.setGather (8 * p + k) { d.gather (8 * p + k) with urgent := (d.gather (8 * p + k)).urgent + 1 }) d
    | none => d

/-- A piece of pipe `p`'s own band arrives at unit `k`, and at those of the spares that shadow it (R134). The watchdog counts from
here where the data for the line in progress is now complete (R140). -/
def Dev.ownArrives (p k : Nat) (h : Held) (piece : GatherPiece) (lost : List Nat) (d : Dev) : Dev :=
  d.when (d.pieceServed h k piece) fun d =>
    let before := d.lineFetched p h h.nextLine
    let d := d.eachHold h fun x => { x with lost := x.lost ++ lost }
    let d := d.pieceArrives (p :: d.followers p h) h k piece lost
    if d.lineFetched p h h.nextLine && !before then
      d.setPipe p { d.pipe p with held := (d.pipe p).held.map fun x => { x with alive := d.time } }
    else d

/-- A piece of the band that spare `v` re-runs arrives at unit `k` (R136). -/
def Dev.rerunArrives (v k : Nat) (piece : GatherPiece) (lost : List Nat) (d : Dev) : Dev :=
  match d.comp.disputes with
  | t :: l =>
    if t.rerun = some v ∧ d.pieceServed t.shadow.held k piece then
      let d := d.pieceArrives [v] { t.shadow.held with lost := t.lost } k piece lost
      { d with comp := { d.comp with disputes := { t with lost := t.lost ++ lost, alive := d.time } :: l } }
    else d
  | [] => d

/-- GATHER_RESPONSE: a piece of its fetch arrives at Gather unit `g`; `lost` are the atoms that this read alone could not deliver
(R93 to R101, R104). -/
def execGatherResponse (g : UnitNo) (piece : GatherPiece) (lost : List Nat) (s : State) :
    Host.Outcome State Fault Refusal :=
  s.dev! fun d =>
    let p := g.val / 8
    if ¬ (d.gather g).todo.contains piece then d.lateResponse (512 + g)
    else match (d.pipe p).role, (d.pipe p).held with
      | .active, some h => d.ownArrives p (g % 8) h piece lost
      | .spare, _ => d.rerunArrives p (g % 8) piece lost
      | _, _ => d

/-! ## Composition (R129 to R132, R122) -/

/-- Bytes written piece by piece, an atom at a time; a piece that covers part of an uncorrectable atom is not performed
(R264). -/
def Dev.storeAtoms (a : Nat) (bs : List Byte) (d : Dev) : Dev :=
  (atomsOf a bs.length).foldl (fun d t =>
    let lo := max a (256 * t)
    let part := (bs.drop (lo - a)).take (256 * t + 256 - lo)
    let whole := decide (part.length = 256)
    match d.span lo part.length with
    | .gddr =>
      let noted := d.noteRead 66 true lo part.length
      if d.atomBad t && !whole then noted else noted.store lo part
    | .cru _ | .host | .unmapped => d) d

/-- A line goes to the Parison buffer of canvas `c` as RGBA1010102 (R122). -/
def Dev.putParison (c b y : Nat) (ws : List Word) (d : Dev) : Dev :=
  let x := (d.canvas c).par
  let (a, p) := if b = 0 then (x.addr0.toNat, x.pitch0) else (x.addr1.toNat, x.pitch1)
  d.storeAtoms (a + y * p) (wordsBytes (ws.map fun w => swapRB w ||| 0xC0000000))

/-- A line of a band goes where the band's lines go; the lines of a band that came to nothing go nowhere. -/
def Dev.writeLine (h : Held) (y : Nat) (ws : List Word) (d : Dev) : Dev :=
  if h.dead then d
  else if h.par then d.putParison h.canvas h.buf y ws
  else d.putLine h.canvas h.frame y ws

/-- The words that pipe `p` composes for line `y` of a band where nothing in it fails. -/
def Dev.lineOn (d : Dev) (p : Nat) (h : Held) (y : Nat) : List Word :=
  (d.asUsed p h.lost).composeLine h.canvas h.scene h.width h.dither y

/-- Words as a physical fault changes them: `err` in each. -/
def faulty (err : Word) (ws : List Word) : List Word := ws.map fun w => w ^^^ (err &&& 0x3FFFFFFF)

/-- The words that pipe `p` composes for line `y` of a band; `err` is what a physical fault changes in each of them. -/
def Dev.compose (d : Dev) (p : Nat) (h : Held) (err : Word) (y : Nat) : List Word := faulty err (d.lineOn p h y)

/-- Spare `u` composes line `y` of the band it shadows with pipe `p`, from the same inputs (R134). -/
def Dev.shadowLine (p : Nat) (h : Held) (y : Nat) (d : Dev) (u : Nat) : Dev :=
  let x := d.pipe u
  d.setPipe u { x with shadows := x.shadows.map fun s =>
    if s.pipe = p ∧ s.actCrcs.isNone ∧ s.held.sameBand h then
      { s with held := { s.held with alive := d.time }, lines := s.lines ++ [(y, d.lineOn u h y)] }
    else s }

/-- LINE_WRITE: pipe `p` has run every pass of its next line and writes it (R129, R154). -/
def execLineWrite (p : PipeNo) (err : Word) (s : State) : Host.Outcome State Fault Refusal :=
  s.dev! fun d =>
    match (d.pipe p).held with
    | some h => d.when (h.fetched && !h.wait && !h.done) fun d =>
        let ws := d.compose p h err h.nextLine
        let h' := { h with nextLine := h.nextLine + 1, alive := d.time, crcs := h.crcs ++ [(h.nextLine, lineCrc ws)] }
        let d := (d.followers p h).foldl (Dev.shadowLine p h h.nextLine) d
        (d.setPipe p { d.pipe p with held := some h' }).writeLine h h.nextLine ws
    | none => d

/-- The band in pipe `p`'s hand is finished. -/
def Dev.finishBand (p : Nat) (h : Held) (d : Dev) : Dev :=
  let d := (p :: d.followers p h).foldl (fun d q => d.stopGather q) d
  let x := d.pipe p
  let d := d.setPipe p { x with held := none, bands := x.bands + 1 }
  let d := (d.inRole .spare).foldl (fun d u =>
    let y := d.pipe u
    d.setPipe u { y with shadows := y.shadows.map fun s =>
      if s.pipe = p ∧ s.held.sameBand h then { s with actCrcs := some h.crcs } else s }) d
  let c := d.canvas h.canvas
  let d := if h.par && !h.dead then
      d.setCanvas h.canvas { c with par := { c.par with left := c.par.left - 1 } }
    else d
  d.atBoundary p

/-- BAND_COMPLETE: pipe `p` finishes its band and is at a band boundary (R127, R129). -/
def execBandComplete (p : PipeNo) (s : State) : Host.Outcome State Fault Refusal :=
  s.dev! fun d =>
    match (d.pipe p).held with
    | some h => d.when (h.done && !h.wait) (Dev.finishBand p h)
    | none => d

/-! ## Understudies (R134 to R139) -/

/-- The lines of a band composed anew on pipe `p`, from its sources as they stand. -/
def Dev.recompose (d : Dev) (p : Nat) (h : Held) (err : Word) : List (Nat × List Word) :=
  h.allLines.map fun y => (y, d.compose p h err y)

/-- The lines of the band that an understudy shadowed, as it delivers them. -/
def Shadow.delivers (sh : Shadow) (err : Word) : List (Nat × List Word) := sh.lines.map fun e => (e.1, faulty err e.2)

/-- The line CRCs of recomposed lines. -/
def crcsOf (l : List (Nat × List Word)) : List (Nat × Word) := l.map fun e => (e.1, lineCrc e.2)

/-- A new disagreement takes its place: of two that become known in one cycle the lower understudy's is re-run first
(R139). -/
def Dev.addDispute (t : Dispute) (d : Dev) : Dev :=
  let l := match d.comp.disputes with
    | e :: rest =>
      if e.since = t.since ∧ t.und < e.und then t :: { e with rerun := none, dropped := none } :: rest
      else (e :: rest) ++ [t]
    | [] => [t]
  { d with comp := { d.comp with disputes := l } }.serveDisputes 2

/-- Understudy `u` has finished shadow `sh`: its line CRCs are compared with the active pipe's (R135, R136). -/
def Dev.compareBand (u : Nat) (sh : Shadow) (err : Word) (d : Dev) : Dev :=
  let lines := sh.delivers err
  let crcs := crcsOf lines
  let x := d.pipe u
  let x := { x with checks := x.checks + 1 }
  if (differing sh.held (sh.actCrcs.getD []) crcs).isEmpty then d.setPipe u x
  else
    (d.setPipe u { x with mismatch := x.mismatch + 1 }).addDispute
      { shadow := sh, und := u, undLines := lines, undCrcs := crcs, since := d.time }

/-- The finished shadow that spare `u` dropped in this cycle for another's re-run (R139). -/
def Dev.droppedNow (d : Dev) (u : Nat) : Option Shadow :=
  match d.comp.disputes with
  | t :: _ => if t.rerun = some u ∧ t.since = d.time then t.dropped else none
  | [] => none

/-- The dropped shadow of the dispute at the front has been compared after all. -/
def Dev.takeDropped (d : Dev) : Dev :=
  match d.comp.disputes with
  | t :: l => { d with comp := { d.comp with disputes := { t with dropped := none } :: l } }
  | [] => d

/-- Understudy `u` compares the band it shadows with the active pipe's (R135, R139). -/
def Dev.understudyCompares (u : Nat) (err : Word) (d : Dev) : Dev :=
  let x := d.pipe u
  match x.shadows, d.droppedNow u with
  | sh :: rest, _ =>
    if x.role = .spare ∧ sh.actCrcs.isSome then (d.setPipe u { x with shadows := rest }).compareBand u sh err else d
  | [], some sh =>
    if x.role = .spare then (d.takeDropped.setPipe u { x with skip := x.skip - 1 }).compareBand u sh err else d
  | [], none => d

/-- UNDERSTUDY_BAND_COMPARE: understudy `u` finishes the band it shadows, after the active pipe has, and the results are
compared (R135 to R139). -/
def execUnderstudyBandCompare (u : PipeNo) (err : Word) (s : State) : Host.Outcome State Fault Refusal :=
  s.dev! (Dev.understudyCompares u err)

/-- Scan-out has begun a line of a band, or the band has come to nothing, so that the line can no longer be replaced (R138). -/
def Dev.begun (d : Dev) (h : Held) (y : Nat) : Bool :=
  let x := d.canvas h.canvas
  h.dead || if h.par then x.src = .buffer h.buf && decide (y < x.nextDue) else x.isDue h.frame y

/-- The winning understudy's lines replace the differing ones that scan-out has not begun (R138). -/
def Dev.replaceLines (t : Dispute) (ys : List Nat) (d : Dev) : Dev :=
  ys.foldl (fun d y =>
    if d.begun t.shadow.held y then d
    else match t.undLines.find? fun e => e.1 = y with
      | some e => d.writeLine t.shadow.held y e.2
      | none => d) d

/-- The vote (R136, R138): the re-run by pipe `v` has CRCs `r`. -/
def Dev.vote (t : Dispute) (v : Nat) (r : List (Nat × Word)) (d : Dev) : Dev :=
  let h := t.shadow.held
  let a := t.shadow.actCrcs.getD []
  let ys := differing h a t.undCrcs
  let crcR := crcOf r (ys.headD 0)
  if (differing h r t.undCrcs).isEmpty then
    let shown := ys.filter (d.begun h)
    let d := d.replaceLines t ys
    let d := d.recordDispute t 0 (some v) crcR (ys.length - shown.length) shown.length
    let p := t.shadow.pipe
    if (d.pipe p).role = .fenced then d
    else (d.fire 289 p (d.fenceDetail p (some h) ||| dbits 48 t.und)).fencePipe p 2
  else if (differing h r a).isEmpty then
    let d := d.recordDispute t 1 (some v) crcR 0 0
    if (d.pipe t.und).role = .fenced then d
    else (d.fire 289 t.und (d.fenceDetail t.und (some h) ||| dbits 48 t.shadow.pipe)).fencePipe t.und 2
  else (d.recordDispute t 2 (some v) crcR 0 0).unresolved t 2

/-- The CRCs of the lines that pipe `v` re-ran for a disagreement. -/
def Dev.rerunCrcs (d : Dev) (v : Nat) (t : Dispute) (err : Word) : List (Nat × Word) :=
  crcsOf (d.recompose v { t.shadow.held with lost := t.lost } err)

/-- The vote that pipe `v` finishes in the cycle in which the watchdog of the losing pipe fenced it, and so claimed `v`: the vote
is recorded all the same (R139). -/
def Dev.lateVote (v : Nat) (err : Word) (d : Dev) : Dev :=
  match d.comp.abandoned with
  | none => d
  | some (t, at', mm) =>
    let p := d.pipe t.shadow.pipe
    let r := d.rerunCrcs v t err
    if t.rerun = some v ∧ at' = d.time ∧ p.role = .fenced ∧ p.cause = 1 ∧ p.fencedAt = d.time ∧
        (differing t.shadow.held r t.undCrcs).isEmpty then
      let d := { d with comp := { d.comp with abandoned := none, mm := mm }, flt := { d.flt with
        arrivals := d.flt.arrivals.filter fun f => !(f.src = 291 && f.inst = t.und && f.ts = d.time) } }
      d.vote t v r
    else d

/-- RERUN_COMPLETE: the other spare finishes re-running a band, and the three results decide (R136 to R139). -/
def execRerunComplete (p : PipeNo) (err : Word) (s : State) : Host.Outcome State Fault Refusal :=
  s.dev! fun d =>
    match d.comp.disputes with
    | t :: _ =>
      if t.rerun = some p.val ∧ (d.pipe p).role = .spare then
        (((d.popDispute.stopGather p).vote t p (d.rerunCrcs p t err))).serveDisputes 2
      else d.lateVote p err
    | [] => d.lateVote p err

/-- ROTATION_STEP: the reference canvas produces no frame starts, and 16,666,667 ns of timebase have passed since the last step
(R133). -/
def execRotationStep (s : State) : Host.Outcome State Fault Refusal :=
  s.dev! fun d =>
    d.when (d.checking && (d.canvas (d.fld .cmp 0 CMP_UND_CTL 6 0)).state ≠ .running &&
      decide (d.comp.stepAt.toNat + 16666667 ≤ d.time.toNat)) Dev.rotate

/-! ## The watchdog and the end of a takeover (R140, R144) -/

/-- The watchdog's limit, counted from `t`, has been reached. -/
def Dev.watchdogDue (d : Dev) (t : Quad) : Bool := decide (t.toNat + d.fld .cmp 0 CMP_WD 12 0 ≤ d.time.toNat)

/-- PIPE_WATCHDOG: the count of pipe `p` reaches `WD_NS`, and the pipe is fenced (R140, R141). A pipe that a vote fenced in this
cycle is fenced once, with cause watchdog (R139). -/
def execPipeWatchdog (p : PipeNo) (s : State) : Host.Outcome State Fault Refusal :=
  s.dev! fun d =>
    let x := d.pipe p
    match d.idleSince p, x.idle with
    | some t, _ => d.when (d.watchdogDue t) fun d => (d.fire 288 p (d.fenceDetail p (d.spareBand p))).fencePipe p 1
    | none, some (t, detail) =>
      d.when (x.role = .fenced && x.cause = 2 && x.fencedAt = d.time && d.watchdogDue t) fun d =>
        (d.fire 288 p detail).setPipe p { x with cause := 1 }
    | none, none => d

/-- TAKEOVER_RESTART: the pipe that assumed an interrupted band has rebuilt its line stores, and composes on (R142 to
R144). -/
def execTakeoverRestart (p : PipeNo) (s : State) : Host.Outcome State Fault Refusal :=
  s.dev! fun d =>
    match (d.pipe p).held with
    | some h => d.when h.wait fun d =>
        let h := { h with wait := false, fetched := true, alive := d.time }
        let d := d.setPipe p { d.pipe p with held := some h, claimed := false }
        if h.done then d.finishBand p h else d
    | none => d

end Sys2Proof.Machine
end

