-- ==== Sys2Proof/Machine/Encode.lean ====
section
/-!
DEFINITION. What ports send (R123, R124, R153, R183): component codes of an encoding, and the line and frame CRCs.
-/
namespace Sys2Proof.Machine

/-- *K*ᵣ and *K*ᵦ of a `MAT` code in ten-thousandths (R123). -/
def matK (m : Nat) : Nat × Nat :=
  match m with
  | 0 => (2990, 1140)
  | 1 => (2126, 722)
  | _ => (2627, 593)

/-- num / den × scale + offset, rounded halves up; `offset` is in units of 1 / 256. -/
def roundCode (num : Int) (den scale offset : Nat) : Int :=
  (512 * (scale : Int) * num + 2 * (offset : Int) * den + 256 * den) / (512 * (den : Int))

/-- The exact value of a component of an encoding but RGB: Y, Cb, Cr as 0, 1, 2; RGB as 0, 1, 2 with `rgb`. The value is a
numerator and a denominator. -/
def compValue (rgb : Bool) (mat comp : Nat) (w : Word) : Int × Nat :=
  let r : Int := ((bits w 29 20 : Nat) : Int)
  let g : Int := ((bits w 19 10 : Nat) : Int)
  let b : Int := ((bits w 9 0 : Nat) : Int)
  let (kr, kb) := matK mat
  let y := (kr : Int) * r + ((10000 - kr - kb : Nat) : Int) * g + (kb : Int) * b
  if rgb then (match comp with | 0 => (r, 1023) | 1 => (g, 1023) | _ => (b, 1023))
  else match comp with
    | 0 => (y, 10230000)
    | 1 => (10000 * b - y, 2 * 1023 * (10000 - kb))
    | _ => (10000 * r - y, 2 * 1023 * (10000 - kr))

/-- The code of a component of one pixel at full resolution (R123). RGB at full range is exact; every other code may lie
within 1 of exact arithmetic, as `Config.codeSlip` says. -/
def compCode (fmt : Word) (comp : Nat) (w : Word) : Nat :=
  let n := fmtBpc fmt
  let rgb := bits fmt 1 0 = 0
  let limited := bit fmt 6
  if rgb ∧ ¬ limited then
    (match comp with | 0 => bits w 29 20 | 1 => bits w 19 10 | _ => bits w 9 0) / 2 ^ (10 - n)
  else
    let (num, den) := compValue rgb (bits fmt 5 4) comp w
    let chroma := !rgb && decide (1 ≤ comp)
    let exact :=
      if limited then
        roundCode (num * ((2 ^ n * (if chroma then 224 else 219) : Nat) : Int)) (256 * den) 1
          (2 ^ n * (if chroma then 128 else 16))
      else roundCode num den (2 ^ n - 1) (if chroma then 256 * 2 ^ (n - 1) else 0)
    (max 0 (min (2 ^ n - 1 : Nat) (exact + ((Config.codeSlip fmt comp w).val : Int) - 1)) : Int).toNat

/-- The 4:2:2 chroma of pixel pair `m` of a line of codes (R124). -/
def chroma422 (cs : List Nat) (m : Nat) : Nat :=
  let at' := fun i => cs.getD (min i (cs.length - 1)) 0
  (at' (2 * m - 1) + 2 * at' (2 * m) + at' (2 * m + 1) + 2) / 4

/-- The chroma codes of a line on the 4:2:2 grid. -/
def line422 (fmt : Word) (comp : Nat) (ws : List Word) : List Nat :=
  let cs := ws.map (compCode fmt comp)
  (List.range (ws.length / 2)).map (chroma422 cs)

/-- The codes of line `y` of a frame in the order in which its CRC takes them (R124, R183); `pair` is the other line of
its 4:2:0 pair. -/
def lineCodes (fmt : Word) (y : Nat) (ws pair : List Word) : List Nat :=
  let lum := ws.map (compCode fmt 0)
  match bits fmt 1 0 with
  | 0 | 1 => ws.flatMap fun w => [compCode fmt 0 w, compCode fmt 1 w, compCode fmt 2 w]
  | 2 =>
    let cb := line422 fmt 1 ws
    let cr := line422 fmt 2 ws
    (List.range (ws.length / 2)).flatMap fun m =>
      [lum.getD (2 * m) 0, cb.getD m 0, lum.getD (2 * m + 1) 0, cr.getD m 0]
  | _ =>
    let comp := if y % 2 = 0 then 1 else 2
    let a := line422 fmt comp ws
    let b := line422 fmt comp pair
    (List.range (ws.length / 2)).flatMap fun m =>
      [lum.getD (2 * m) 0, lum.getD (2 * m + 1) 0, (a.getD m 0 + b.getD m 0 + 1) / 2]

/-- Codes as 16-bit little-endian words. -/
def codeBytes (l : List Nat) : List Byte := l.flatMap (leBytes 2)

/-- The lines that a port sends: an absent line repeats the last pixel sent before it, 0 where there is none (R153). -/
def sentLines (width : Nat) : Option Word → List (Option (List Word)) → List (List Word)
  | _, [] => []
  | last, l :: ls =>
    let ws := match l with
      | some ws => ws
      | none => List.replicate width (last.getD 0)
    ws :: sentLines width (match ws.getLast? with | some w => some w | none => last) ls

/-- The code bytes of every line of a frame. -/
def frameCodes (fmt : Word) (lines : List (List Word)) : List (List Byte) :=
  (List.range lines.length).map fun y =>
    let other := if y % 2 = 0 then y + 1 else y - 1
    codeBytes (lineCodes fmt y (lines.getD y []) (lines.getD other (lines.getD y [])))

/-- The end of active line *H* − 1 for a port that sends canvas `c`: its CRCs and the last pixel it sent (R153, R183). -/
def Dev.portCrc (n frame width : Nat) (lines : List (Option (List Word))) (d : Dev) : Dev :=
  let x := d.port n
  let sent := sentLines width x.sent lines
  let codes := frameCodes (d.reg .dpt n DPT_FMT) sent
  let fcrc := BitVec.ofNat 32 (crc32.crc codes.flatten)
  let sel := d.fld .dpt n DPT_LCRC_SEL 12 0
  let lcrc := match codes[sel]? with
    | some bs => BitVec.ofNat 32 (crc32.crc bs)
    | none => Config.lineCrcBeyond sel fcrc
  d.setPort n { x with
    lcrc := lcrc, fcrc := fcrc, frm := BitVec.ofNat 8 frame
    sent := match sent.getLast?.bind List.getLast? with | some w => some w | none => x.sent }

end Sys2Proof.Machine
end

