-- ==== Sys2Proof/Machine/Queues.lean ====
section
/-!
DEFINITION. Command queues (R188 to R205) and notice rings (R206 to R211): doorbells and fetching, arbitration, the
arrival of entries at validation, waits, and the states of queues and rings.
-/
namespace Sys2Proof.Machine

/-! ## Fetching -/

/-- Slots from the consumer index to the owned limit. -/
def Dev.slotsAhead (d : Dev) (q : Nat) : Nat :=
  let x := d.queue q
  let n := (x.limit + d.qmod q - x.cidx % d.qmod q) % d.qmod q
  if n ≤ 2 ^ d.qlog q then n else 0

/-- Slots in the fetch buffer of queue `q`. -/
def Queue.fetched (x : Queue) : Nat := x.buf.length / 4

/-- Slots that queue `q` may still read: before the limit, at most 64 ahead of consumption, and none after a failed read
(R192, R194, R196). -/
def Dev.wants (d : Dev) (q : Nat) : Nat :=
  if (d.queue q).fail.isSome then 0
  else min (d.slotsAhead q - (d.queue q).fetched) (64 - (d.queue q).fetched)

/-- The slots of the entry at the front of the fetch buffer (R190), 0 where the buffer is empty. -/
def Queue.frontLen (x : Queue) : Nat := if x.buf.isEmpty then 0 else bits (wordAt x.buf 0) 13 8 + 1

/-- A whole entry lies in the fetch buffer before the owned limit. -/
def Dev.frontWhole (d : Dev) (q : Nat) : Bool :=
  let x := d.queue q
  decide (1 ≤ x.frontLen) && decide (x.frontLen ≤ x.fetched) && decide (x.frontLen ≤ d.slotsAhead q)

/-- The snapshot that queue `q` took is still being used: slots before the limit are being read or wait to be consumed
(R192). -/
def Dev.scanning (d : Dev) (q : Nat) : Bool :=
  (d.queue q).reading.isSome || decide (0 < d.wants q) || d.frontWhole q

/-- A queue halts: nothing more is consumed, and queue-fetch fires with its cause (R194, R195). -/
def Dev.haltQueue (q : Nat) (addr : Quad) (cause : Nat) (d : Dev) : Dev :=
  let x := d.queue q
  (d.setQueue q { x with state := .halted, reading := none, fail := none, buf := [], dbPend := false }).fire 256 q
    (dbits 0 addr.toNat ||| dbits 64 cause)

/-- The device address of ring slot `i` of queue `q`. -/
def Dev.slotAddr (d : Dev) (q i : Nat) : Quad :=
  quad (d.reg .queue q CQE_BASE_LO) (d.reg .queue q CQE_BASE_HI) + BitVec.ofNat 64 (16 * (i % 2 ^ d.qlog q))

/-- The next slot to read, counted from the consumer index. -/
def Dev.nextSlot (d : Dev) (q : Nat) : Nat := (d.queue q).cidx + (d.queue q).fetched

/-- Issue a ring read where slots are wanted and none is under way. -/
def Dev.startRead (q : Nat) (d : Dev) : Dev :=
  let x := d.queue q
  if x.reading.isNone && decide (0 < d.wants q) then d.setQueue q { x with reading := some d.now } else d

/-- The owned limit is taken from `CQE_PIDX`, or kept where that is invalid (R192, R193). -/
def Dev.snapshot (q : Nat) (d : Dev) : Dev :=
  let x := { d.queue q with dbPend := false }
  if d.pidxBad q then
    (d.setQueue q x).fire 257 q (dbits 0 (d.fld .queue q CQE_PIDX 16 0) ||| dbits 32 x.head)
  else (d.setQueue q { x with limit := d.pidx q }).startRead q

/-- The read that failed concerns the entry at the front of queue `q`, which is not whole (R194). -/
def Dev.failsNow (d : Dev) (q : Nat) : Option (Quad × Nat) := if d.frontWhole q then none else (d.queue q).fail

/-- After a fetch or a consumption: an entry longer than the ring, or one that a failed read concerns, halts the queue;
further slots are read; a recorded doorbell takes its snapshot once the scan has stopped (R192, R194, R195). -/
def Dev.settle (q : Nat) (d : Dev) : Dev :=
  let x := d.queue q
  if x.state ≠ .running then d
  else if 2 ^ d.qlog q < x.frontLen then d.haltQueue q (d.slotAddr q x.cidx) 4
  else match d.failsNow q with
    | some (a, cause) => d.haltQueue q a cause
    | none =>
      let d := d.startRead q
      if x.dbPend && !d.scanning q then d.snapshot q else d

/-- A doorbell arrives at queue `q` (R192). -/
def Dev.doorbell (q : Nat) (d : Dev) : Dev :=
  let x := d.queue q
  if x.state ≠ .running then d
  else if d.scanning q then d.setQueue q { x with dbPend := true }
  else d.snapshot q

/-- Read `n` ring slots one by one with the owner's master ID: the words of those before the first failure, and the address
and cause of that failure (R188, R194). -/
def Dev.readSlots (d : Dev) (q : Nat) (r : Resp) : Nat → Nat → List Word × Option (Quad × Nat)
  | _, 0 => ([], none)
  | i, n + 1 =>
    let a := d.slotAddr q i
    match d.readRes (d.owner q) a.toNat 16, r with
    | .denied, _ => ([], some (a, 1))
    | .error, _ => ([], some (a, 2))
    | .ok, .error => ([], some (a, 2))
    | .ok, .ok =>
      let (ws, bad) := d.readSlots q r (i + 1) n
      (bytesWords 4 (d.bytes a.toNat 16) ++ ws, bad)

/-- The ring slots whose reads reach memory, those that arrive and one whose read fails with an error; of an atom's slots the
first alone, since the atom is read once. -/
def Dev.fetchedSlots (d : Dev) (q n : Nat) (ws : List Word) (bad : Option (Quad × Nat)) : List Nat :=
  let k := ws.length / 4 + match bad with | some (_, 2) => 1 | some _ | none => 0
  let slots := (List.range (min n k)).map fun i => (d.slotAddr q (d.nextSlot q + i)).toNat
  slots.foldl (fun l a => if d.kindOf a = .gddr ∧ l.any (fun b => b / 256 = a / 256) then l else l ++ [a]) []

/-- The slots that a ring read asks for are not held up in bank queues (R271). -/
def Dev.ringServed (d : Dev) (q n : Nat) : Bool :=
  (List.range n).all fun i => d.served 3 (d.slotAddr q (d.nextSlot q + i)).toNat 16

/-- RING_FETCH_COMPLETE: at most `slots` of the slots being read arrive; where the read of one fails, the queue halts with the
entry concerned (R194, R196). -/
def execRingFetchComplete (q : QueueNo) (slots : Nat) (r : Resp) (s : State) : Host.Outcome State Fault Refusal :=
  s.dev! fun d =>
    let x := d.queue q
    let n := min slots (d.wants q)
    if x.state ≠ .running ∨ x.reading.isNone ∨ n = 0 then d.lateResponse q
    else d.when (d.ringServed q n) fun d =>
      let (ws, bad) := d.readSlots q r (d.nextSlot q) n
      let own := d.owner q
      let d := (d.fetchedSlots q n ws bad).foldl (fun d a => d.noteRead own false a 16) d
      let d := match bad with
        | some (a, 1) => d.deny own 0 false a.toNat
        | some _ | none => d
      (d.setQueue q { x with buf := x.buf ++ ws, reading := none, fail := bad }).settle q

/-- RING_READ_TIMEOUT: a ring read has had no response for 100 µs (R194). -/
def execRingReadTimeout (q : QueueNo) (s : State) : Host.Outcome State Fault Refusal :=
  s.dev! fun d =>
    match (d.queue q).reading with
    | some t => d.when ((d.queue q).state = .running && decide (t + 100000 ≤ d.now))
        fun d => ((d.freeTag q (d.owner q)).setQueue q
          { d.queue q with reading := none, fail := some (d.slotAddr q (d.nextSlot q), 3) }).settle q
    | none => d

/-! ## Arbitration (R197) -/

/-- Queue `q` is eligible. -/
def Dev.eligible (d : Dev) (q : Nat) : Bool :=
  let x := d.queue q
  x.state = .running && x.pause.isNone && d.frontWhole q

/-- Queue `q` has credit left in this round: its `WEIGHT` until its first turn. -/
def Dev.hasCredit (d : Dev) (q : Nat) : Bool := !(d.queue q).hadTurn || decide (0 < (d.queue q).credit)

/-- The queue whose turn is next: in the order of visits after the last queue that had a turn. -/
def Dev.nextTurn (d : Dev) : Option Nat :=
  (rotated (d.lastTurn + 1) (List.range 256)).find? fun q => d.eligible q && d.hasCredit q

/-- The queue whose entry arrives next: the one with the turn while the turn lasts, else the next in order. -/
def Dev.whoseTurn (d : Dev) : Option Nat :=
  match d.turn with
  | some (q, _ + 1) => if d.eligible q then some q else d.nextTurn
  | some (_, 0) | none => d.nextTurn

/-- A visit of the arbiter: one turn, one credit. -/
def Dev.beginTurn (q : Nat) (d : Dev) : Dev :=
  let x := d.queue q
  let left := (if x.hadTurn then x.credit else d.fld .queue q CQE_ARB 7 0) - 1
  { (d.setQueue q { x with hadTurn := true, credit := left }) with
    turn := some (q, d.fld .queue q CQE_ARB 14 8 - 1), lastTurn := q }

/-- Queue `q` sends one entry in its turn: its turn goes on, or it begins one and spends a credit. -/
def Dev.takeTurn (q : Nat) (d : Dev) : Dev :=
  match d.turn with
  | some (p, n + 1) => if p = q then { d with turn := some (q, n) } else d.beginTurn q
  | some (_, 0) | none => d.beginTurn q

/-- A turn ends early when its queue stops being eligible. -/
def Dev.closeTurn (q : Nat) (d : Dev) : Dev :=
  if d.turn.any (fun t => t.1 = q) && !d.eligible q then { d with turn := none } else d

/-- The staged words of `CQE_ARB` apply. -/
def Dev.applyArb (d : Dev) (q : Nat) : Dev :=
  let a := regAt .queue q CQE_ARB
  match d.stagedAt a with
  | some w => if d.held (PType.queue.page + q) then d else (d.setEffAt a w).setStagedAt a none
  | none => d

/-- ARBITRATION_ROUND: the round has ended, so a new one applies the staged weights and bursts and gives every eligible
queue its credits. -/
def execArbitrationRound (s : State) : Host.Outcome State Fault Refusal :=
  s.dev! fun d => d.when d.whoseTurn.isNone fun d =>
    let d := (List.range 256).foldl Dev.applyArb d
    { d with turn := none, queues := d.queues.map fun e => (e.1, { e.2 with hadTurn := false, credit := 0 }) }

/-! ## Arrival at validation -/

/-- The opcodes of R191 and their slots: none for a reserved opcode; 0 for any number of slots. -/
def opSlots (op : Nat) : Option Nat :=
  match op with
  | 0x01 => some 1 | 0x02 => some 1 | 0x03 => some 9 | 0x04 => some 1 | 0x05 => some 5 | 0x06 => some 2
  | 0x10 => some 1 | 0x11 => some 2 | 0x12 => some 2 | 0x1E => some 0 | 0x1F => some 0
  | _ => none

/-- The opcode an entry has: 0 where it is reserved or its length does not match (R191). -/
def entryOp (x : Queue) : Nat :=
  let op := bits (wordAt x.buf 0) 7 0
  match opSlots op with
  | some 0 => op
  | some n => if x.frontLen = n then op else 0
  | none => 0

/-- Entry `op` of queue `q` is the next to arrive at validation. -/
def Dev.arrives (d : Dev) (q op : Nat) : Bool := d.whoseTurn = some q && entryOp (d.queue q) = op

/-- Entry `op` of queue `q` arrives at validation, if it is the next to do so, and `k` is what it does there. -/
def Dev.arrival (q op : Nat) (k : Dev → Dev) (d : Dev) : Dev :=
  d.when (d.arrives q op) fun d => (k d).closeTurn q

/-- The entry at the front is consumed: it leaves the buffer as an entry of group `grp`, complete where `done`; the
entry's words are the buffer's before. -/
def Dev.consume (q grp : Nat) (started done : Bool) (d : Dev) : Dev :=
  let d := d.takeTurn q
  let x := d.queue q
  let n := x.frontLen
  d.setQueue q { x with
    buf := x.buf.drop (4 * n), cidx := (x.cidx + n) % d.qmod q
    entries := x.entries ++ [{ grp := grp, slots := n, started := started, done := done }], arrived := d.time }

/-- A fresh group number. -/
def Dev.newGrp (d : Dev) : Nat := d.scene.nextGrp
/-- The group number is taken. -/
def Dev.useGrp (d : Dev) : Dev := { d with scene := { d.scene with nextGrp := d.scene.nextGrp + 1 } }

/-- An entry outside a transaction is consumed and complete on arrival. -/
def Dev.consumeDone (q : Nat) (d : Dev) : Dev := ((d.consume q d.newGrp true true).useGrp.advanceHead q).settle q

/-- An entry outside a transaction is refused on its own: transaction ID 0, slot offset 0 (R199). -/
def Dev.refuseAlone (q reason kind index : Nat) (d : Dev) : Dev :=
  let n := d.arrivalRefusal q 0 reason 0 kind index
  ((d.consume q d.newGrp true true).useGrp.noticeThen (d.owner q) n (Dev.advanceHead q)).settle q

/-- An entry that is discarded after a refusal is consumed without effect (R50). -/
def Dev.consumeDiscarded (q : Nat) (d : Dev) : Dev := d.consumeDone q

/-- The open transaction is refused at the entry at the front, which is discarded with those up to the next `COMMIT`
(R50). -/
def Dev.refuseAt (q reason kind index : Nat) (d : Dev) : Dev :=
  let t := (d.queue q).txn
  let slot := match t with | some t => t.slots | none => 0
  let d := (d.refuseOpen q reason slot kind index).stagingFreed
  let d := d.setQueue q { d.queue q with discard := true }
  d.consumeDiscarded q

/-- The entry at the front joins the open transaction `t` with what it stages, if anything. -/
def Dev.stage (q : Nat) (t : Txn) (op : Option TxnOp) (d : Dev) : Dev :=
  let n := (d.queue q).frontLen
  let t' := { t with
    slots := t.slots + n
    entries := match op with | some o => t.entries ++ [{ slot := t.slots, op := o }] | none => t.entries }
  let d := d.consume q t.grp false false
  (d.setQueue q { d.queue q with txn := some t' }).settle q

/-- The index an entry of a transaction concerns, as index kind and index (R208). -/
def TxnOp.subject : TxnOp → Nat × Nat
  | .window i _ => (1, i)
  | .surface j _ => (2, j)
  | .canvas c _ => (3, c)

/-- Distinct subjects of one kind that a transaction changes. -/
def Txn.count (t : Txn) (kind : Nat) : Nat :=
  (((t.entries.map fun e => e.op.subject).filter fun s => s.1 = kind).eraseDups).length

/-- An entry with `op` would exceed the limits of R49. -/
def Txn.exceeds (t : Txn) (op : TxnOp) : Bool :=
  let s := op.subject
  !(t.entries.any fun e => e.op.subject = s) && decide ((if s.1 = 3 then 128 else 2048) ≤ t.count s.1)

/-- The arrival of an entry that changes the scene (R48 to R50). -/
def Dev.sceneEntry (q : Nat) (op : TxnOp) (d : Dev) : Dev :=
  let x := d.queue q
  if x.discard then d.consumeDiscarded q
  else match x.txn with
    | none => d.refuseAlone q 0x01 op.subject.1 op.subject.2
    | some t => if t.exceeds op then d.refuseAt q 0x04 op.subject.1 op.subject.2 else d.stage q t (some op)

/-- SCENE_BEGIN: the entry is consumed and opens a transaction, or pauses its queue (R50, R53, R191). -/
def execSceneBegin (q : QueueNo) (s : State) : Host.Outcome State Fault Refusal :=
  s.dev! fun d => d.arrival q 0x01 fun d =>
    let w := wordAt (d.queue q).buf 0
    (((d.consume q d.newGrp false false).useGrp).beginScene q w).settle q

/-- WINDOW_SET: a window image is staged (R41, R48). -/
def execWindowSet (q : QueueNo) (s : State) : Host.Outcome State Fault Refusal :=
  s.dev! fun d => d.arrival q 0x03 fun d =>
    let b := (d.queue q).buf
    d.sceneEntry q (.window (bits (wordAt b 1) 14 0) (WinImg.ofWords (b.drop 4)))

/-- WINDOW_CLEAR: an all-zero window image is staged (R48). -/
def execWindowClear (q : QueueNo) (s : State) : Host.Outcome State Fault Refusal :=
  s.dev! fun d => d.arrival q 0x04 fun d =>
    d.sceneEntry q (.window (bits (wordAt (d.queue q).buf 1) 14 0) {})

/-- SURFACE_SET: a surface image is staged (R43, R48). -/
def execSurfaceSet (q : QueueNo) (s : State) : Host.Outcome State Fault Refusal :=
  s.dev! fun d => d.arrival q 0x05 fun d =>
    let b := (d.queue q).buf
    d.sceneEntry q (.surface (bits (wordAt b 1) 13 0) (SurfImg.ofWords (b.drop 4)))

/-- CANVAS_SET: the wall, origin and background of a canvas are staged (R25, R48). -/
def execCanvasSet (q : QueueNo) (s : State) : Host.Outcome State Fault Refusal :=
  s.dev! fun d => d.arrival q 0x06 fun d =>
    let w := wordAt (d.queue q).buf
    d.sceneEntry q (.canvas (bits (w 1) 6 0)
      { wall := (w 2).extractLsb' 0 3, x0 := w 3, y0 := w 4, bg := (w 5).extractLsb' 0 30 })

/-- The entries of group `grp` have started. -/
def Dev.markStarted (q grp : Nat) (d : Dev) : Dev :=
  let x := d.queue q
  d.setQueue q { x with entries := x.entries.map fun e => if e.grp = grp then { e with started := true } else e }

/-- The open transaction goes to admission; with none open the entry is an orphan; a discard ends (R50, R51). -/
def Dev.commitArrives (q : Nat) (d : Dev) : Dev :=
  let x := d.queue q
  if x.discard then (d.setQueue q { x with discard := false }).consumeDiscarded q
  else match x.txn with
    | none => d.refuseAlone q 0x01 0 0
    | some t =>
      let d := (d.consume q t.grp true false).markStarted q t.grp
      let d := d.setQueue q { d.queue q with txn := none, outst := x.outst + 1 }
      let d := { d with scene := { d.scene with admQ := d.scene.admQ ++ [AdmReq.txn t] } }
      d.settle q

/-- COMMIT: the open transaction goes to admission (R50, R51). -/
def execCommit (q : QueueNo) (s : State) : Host.Outcome State Fault Refusal :=
  s.dev! (Dev.arrival q 0x02 (Dev.commitArrives q))

/-- An entry that changes nothing in the scene completes on arrival, or with the open transaction (R191). -/
def Dev.plainArrives (q : Nat) (d : Dev) : Dev :=
  match (d.queue q).txn with
  | some t => d.stage q t none
  | none => d.consumeDone q

/-- A `NOTE` that is not discarded copies its `TAG` to `CQE_NOTE` (R191). -/
def Dev.noteArrives (q : Nat) (d : Dev) : Dev :=
  let x := d.queue q
  if x.discard then d.consumeDiscarded q
  else (d.setQueue q { x with note := (wordAt x.buf 0).extractLsb' 16 16 }).plainArrives q

/-- A `NOP` has no effect of its own (R191). -/
def Dev.nopArrives (q : Nat) (d : Dev) : Dev :=
  if (d.queue q).discard then d.consumeDiscarded q else d.plainArrives q

/-- NOTE: `TAG` is copied to `CQE_NOTE`; the entry completes on arrival or with its transaction (R191). -/
def execNote (q : QueueNo) (s : State) : Host.Outcome State Fault Refusal :=
  s.dev! (Dev.arrival q 0x1E (Dev.noteArrives q))

/-- NOP: the entry completes on arrival or with its transaction (R191). -/
def execNop (q : QueueNo) (s : State) : Host.Outcome State Fault Refusal :=
  s.dev! (Dev.arrival q 0x1F (Dev.nopArrives q))

/-- An entry that R48 does not allow in a transaction: discarded, or the open transaction is refused; `k` says what it
does outside a transaction. -/
def Dev.outsideOnly (q : Nat) (k : Dev → Dev) (d : Dev) : Dev :=
  let x := d.queue q
  if x.discard then d.consumeDiscarded q
  else if x.txn.isSome then d.refuseAt q 0x03 0 0
  else k d

/-- RESERVED_OPCODE: an entry with a reserved opcode or a wrong length (R50, R199). -/
def execReservedOpcode (q : QueueNo) (s : State) : Host.Outcome State Fault Refusal :=
  s.dev! fun d => d.arrival q 0 (Dev.outsideOnly q (Dev.refuseAlone q 0x03 0 0))

/-! ## Entries that wait for a unit -/

/-- A `DMA_KICK` or `CRC_SCAN` of queue `q` is consumed and pauses it until the unit is free (R198). -/
def Dev.holdForUnit (q : Nat) (d : Dev) : Dev :=
  let x := d.queue q
  let ws := x.buf.take (4 * x.frontLen)
  let d := (d.consume q d.newGrp false false).useGrp
  (d.setQueue q { d.queue q with pause := some .unit, heldWords := ws }).settle q

/-- A held or waiting entry is refused: its notice, with the time of its arrival, and the pause ends (R198, R199, R208). -/
def Dev.refuseHeld (q reason kind index : Nat) (d : Dev) : Dev :=
  let x := d.queue q
  let n := { d.arrivalRefusal q 0 reason 0 kind index with tb := x.arrived }
  ((d.setQueue q { x with pause := none, heldWords := [] }).noticeThen (d.owner q) n
    (Dev.completeGrp q x.lastGrp)).settle q

/-- The queues paused for a unit by an entry `op` that names unit `u` in word 0 bits [hi:16], in ascending number. -/
def Dev.waiters (d : Dev) (op hi u : Nat) : List Nat :=
  (d.queues.filter fun e => e.2.pause = some .unit && bits (wordAt e.2.heldWords 0) 7 0 = op &&
    bits (wordAt e.2.heldWords 0) hi 16 = u).map (·.1)

/-- The held entry of queue `q` starts: the pause ends, and the entry counts as started. -/
def Dev.releaseHeld (q : Nat) (d : Dev) : Dev :=
  let x := d.queue q
  ((d.setQueue q { x with pause := none, heldWords := [] }).markStarted q x.lastGrp).settle q

/-- Every entry that waits for a unit is refused with `UNIT`: the unit has halted, drains or is fenced. -/
def Dev.refuseWaiters (op hi kind u : Nat) (d : Dev) : Dev :=
  (d.waiters op hi u).foldl (fun d q => d.refuseHeld q 0x21 kind u) d

/-! ## Waits (R200) -/

/-- A wait of queue `q` completes, and the queue goes on. -/
def Dev.endWait (q : Nat) (w : Wait) (d : Dev) : Dev :=
  let x := d.queue q
  ((d.setQueue q { x with pause := none }).completeGrp q w.grp).settle q

/-- A level that a wait may name holds: the channel or the engine is idle, or the timebase has reached the time. An index
with no unit is never idle. -/
def Dev.levelMet (d : Dev) (w : Wait) : Bool :=
  match w.event with
  | 1 => decide (w.index < 64) && (d.chan w.index).state = .idle
  | 2 => decide (w.index < 16) && (d.engine w.index).state = .idle
  | 3 => decide (w.time.toNat ≤ d.time.toNat)
  | _ => false

/-- The waits for a channel or an engine whose level now holds complete. -/
def Dev.checkLevels (d : Dev) : Dev :=
  d.queues.foldl (fun d e =>
    match e.2.pause with
    | some (.wait w) => if (w.event = 1 || w.event = 2) && d.levelMet w then d.endWait e.1 w else d
    | _ => d) d

/-- An edge of an event with an index: every wait for it counts one (R200). -/
def Dev.countEdge (event index : Nat) (d : Dev) : Dev :=
  d.queues.foldl (fun d e =>
    match e.2.pause with
    | some (.wait w) =>
      if w.event = event ∧ w.index = index then
        if w.count ≤ 1 then d.endWait e.1 w
        else d.setQueue e.1 { d.queue e.1 with pause := some (.wait { w with count := w.count - 1 }) }
      else d
    | _ => d) d

/-- A `WAIT_EVENT` outside a transaction: refused for a reserved `EVENT`, complete where its level holds, else its queue
pauses. -/
def Dev.beginWait (q : Nat) (d : Dev) : Dev :=
  let w := wordAt (d.queue q).buf
  let event := bits (w 0) 18 16
  if 5 ≤ event then d.refuseAlone q 0x06 0 0
  else
    let x : Wait :=
      { event := event, index := bits (w 1) 7 0, count := max 1 (bits (w 1) 15 8), time := quad (w 2) (w 3),
        timeoutUs := (w 4).toNat, since := d.now, grp := d.newGrp }
    if d.levelMet x then d.consumeDone q
    else
      let d := (d.consume q d.newGrp false false).useGrp
      (d.setQueue q { d.queue q with pause := some (.wait x) }).settle q

/-- WAIT_EVENT: the queue waits for an event (R200). -/
def execWaitEvent (q : QueueNo) (s : State) : Host.Outcome State Fault Refusal :=
  s.dev! fun d => d.arrival q 0x12 (Dev.outsideOnly q (Dev.beginWait q))

/-- WAIT_TIMEOUT: a wait reaches its non-zero timeout and is refused, or completes where its event has come by then (R199,
R200). -/
def execWaitTimeout (q : QueueNo) (s : State) : Host.Outcome State Fault Refusal :=
  s.dev! fun d =>
    match (d.queue q).pause with
    | some (.wait w) =>
      d.when (w.timeoutUs ≠ 0 && decide (w.since + 1000 * w.timeoutUs ≤ d.now)) fun d =>
        if d.levelMet w then d.endWait q w else d.refuseHeld q 0x22 0 0
    | _ => d

/-- WAIT_TIMEBASE_REACHED: the timebase has reached the value that a wait names (R200). -/
def execWaitTimebaseReached (q : QueueNo) (s : State) : Host.Outcome State Fault Refusal :=
  s.dev! fun d =>
    match (d.queue q).pause with
    | some (.wait w) => d.when (w.event = 3 && d.levelMet w) (Dev.endWait q w)
    | _ => d

/-! ## Queue states (R203 to R205) -/

/-- The address lies in GDDR7, the Crucible window or host memory. -/
def Dev.placed (d : Dev) (a : Quad) : Bool :=
  match d.kindOf a.toNat with
  | .gddr | .cru _ | .host => true
  | .unmapped => false

/-- The checks of an enable (R203). -/
def Dev.queueOk (d : Dev) (q : Nat) : Bool :=
  let hwb := d.reg .queue q CQE_HWB_LO
  decide (4 ≤ d.qlog q) && decide (d.qlog q ≤ 16) && d.placed (d.pair .queue q CQE_BASE_LO) &&
  (!bit hwb 0 || d.placed (quad (hwb &&& 0xFFFFFFFC) (d.reg .queue q CQE_HWB_HI))) && !d.pidxBad q

/-- `CQE_CTL.EN` written 1 in OFF. -/
def Dev.enableQueue (q : Nat) (d : Dev) : Dev :=
  let x := d.queue q
  if d.queueOk q then
    d.setQueue q { x with
      state := .running, en := true, enPending := false, cfgErr := false, epoch := x.epoch + 1, cidx := x.head,
      limit := x.head, buf := [], reading := none, fail := none, dbPend := false, entries := [], txn := none, discard := false,
      pause := none, heldWords := [], outst := 0 }
  else d.setQueue q { x with en := false, enPending := false, cfgErr := true }

/-- Entry to DRAINING: entries that have not started are discarded, with an open transaction's staging (R204). -/
def Dev.drainQueue (q : Nat) (d : Dev) : Dev :=
  let x := d.queue q
  let keep := x.entries.takeWhile fun e => e.started || e.done
  let d := d.setQueue q { x with
    state := .draining, entries := keep, cidx := (x.head + (keep.map (·.slots)).sum) % d.qmod q, buf := [],
    reading := none, fail := none, dbPend := false, txn := none, discard := false, pause := none, heldWords := [] }
  let d := d.closeTurn q
  if x.txn.isSome then d.stagingFreed else d

/-- A write of `CQE_CTL.EN` (R203). -/
def Dev.writeQueueEn (q : Nat) (b : Bool) (d : Dev) : Dev :=
  let x := { d.queue q with en := b, cfgErr := false }
  let d := d.setQueue q x
  match x.state, b with
  | .off, true => d.enableQueue q
  | .off, false => d
  | .running, true | .halted, true => d
  | .running, false | .halted, false => d.drainQueue q
  | .draining, _ => d.setQueue q { x with enPending := b }

/-- The notice ring of function `v` is disabled once no queue of it drains for a function-level reset (R205). -/
def Dev.flrRing (v : Nat) (d : Dev) : Dev :=
  if d.queues.any fun e => e.2.flr && d.owner e.1 = v then d else d.setRing v { d.ring v with en := false }

/-- Every started entry of a draining queue is complete and its head is published: OFF, after a function-level reset with
its indices at 0, then enabled where an enable waits (R204, R205). -/
def Dev.queueDrained (q : Nat) (d : Dev) : Dev :=
  let x := d.queue q
  let y := { x with state := QState.off, enPending := false, outst := 0 }
  let d := if x.flr then
      ((d.setQueue q { y with head := 0, cidx := 0, flr := false }).setReg .queue q CQE_PIDX 0).flrRing (d.owner q)
    else d.setQueue q y
  if x.enPending then d.enableQueue q else d

/-- QUEUE_DRAIN_COMPLETE (R204). -/
def execQueueDrainComplete (q : QueueNo) (s : State) : Host.Outcome State Fault Refusal :=
  s.dev! fun d => d.when ((d.queue q).state = .draining && (d.queue q).entries.isEmpty) (Dev.queueDrained q)

/-! ## Notice rings (R206, R211) -/

/-- A write of `CQE_NCTL.EN` of function `f` (R206). -/
def Dev.writeRingEn (f : Nat) (b : Bool) (d : Dev) : Dev :=
  let r := { d.ring f with cfgErr := false }
  if ¬ b then d.setRing f { r with en := false }
  else if r.en then d.setRing f r
  else
    let log := d.nlog f
    let base := quad (d.effAt (noticeAt f 0x08)) (d.effAt (noticeAt f 0x0C))
    if 6 ≤ log ∧ log ≤ 16 ∧ 0x8000000000000000 ≤ base.toNat then
      d.setRing f { r with en := true, tail := 0, head := 0, nseq := 0,
                           vsync := r.vsync.map fun e => (e.1, { e.2 with unread := none }) }
    else d.setRing f { r with cfgErr := true }

/-- A write of `CQE_NHEAD` of function `f`: ignored where it would lie beyond `CQE_NTAIL` (R206). A write that makes the ring
read as full begins the cause of notice-full (R212, R338). -/
def Dev.writeNhead (f : Nat) (v : Nat) (d : Dev) : Dev :=
  let r := d.ring f
  let m := 2 ^ (d.nlog f + 1)
  let h := v % 2 ^ 17 % m
  let full := d.nfull f
  if (r.tail + m - h) % m ≤ 2 ^ d.nlog f then
    let d := d.setRing f { r with head := h, nheadErr := false }
    if d.nfull f ∧ ¬ full then d.fire 258 f (dbits 0 r.lost.toNat) else d
  else d.setRing f { r with nheadErr := true }

/-- INTERRUPT_MODERATION_END: the interval since the last message of a ring has passed, and a message put off is sent
where notices are unread (R211). -/
def execInterruptModerationEnd (f : Fn) (s : State) : Host.Outcome State Fault Refusal :=
  s.dev! fun d =>
    let r := d.ring f
    let ctl := d.effAt (noticeAt f 0)
    let elapsed := match r.lastMsg with | some t => decide (t + bits ctl 31 16 * 1000 ≤ d.now) | none => true
    d.when (r.msgDue && elapsed) fun d =>
      if bit ctl 1 && r.tail != r.head then
        (d.setRing f { r with msgDue := false, lastMsg := some d.now }).msix f (bits ctl 13 8)
      else d.setRing f { r with msgDue := false }

/-- The vsync notices of a frame start of canvas `c`: to every function that asks for them (R210). -/
def Dev.vsync (c : Nat) (frame : Nat) (d : Dev) : Dev :=
  (List.range 64).foldl (fun d f =>
    if ¬ bit (d.effAt (noticeAt f (0x20 + 4 * (c / 32)))) (c % 32) then d
    else
      let r := d.ring f
      let v : VsReq := FMap.get (fun _ => {}) r.vsync c
      let m := 2 ^ (d.nlog f + 1)
      let unread := match v.unread with
        | some t => decide ((t + m - r.head) % m < d.nfill f)
        | none => false
      let n := v.count + 1
      if unread then d.setRing f { r with vsync := FMap.put (fun _ => {}) r.vsync c { v with count := n } }
      else
        let wrote := d.canPost f
        let v' : VsReq := if wrote then { count := 0, unread := some r.tail } else { count := n, unread := none }
        let d := d.setRing f { r with vsync := FMap.put (fun _ => {}) r.vsync c v' }
        d.notice f { kind := 6, w1 := place 31 16 frame ||| place 6 0 c, tb := d.time, w4 := BitVec.ofNat 32 n }) d

end Sys2Proof.Machine
end

