-- ==== Sys2Proof/Machine/Cvu.lean ====
section
/-!
DEFINITION. Memory requests of the DMA engine, Marver and the scan engines (R218, R239, R249), and the check-value scan
engines (R242 to R252).
-/
namespace Sys2Proof.Machine

/-! ## Requests -/

/-- A read by a master, with the response that came back: the bytes, or the code of its error: 6 `ACCESS`, 7 `DATA`. -/
def Dev.readFor (d : Dev) (mid a len : Nat) (r : Resp) : Except Nat (List Byte) :=
  match d.readRes mid a len, r with
  | .denied, _ => .error 6
  | .error, _ => .error 7
  | .ok, .error => .error 7
  | .ok, .ok => .ok (d.bytes a len)

/-- The code of the error that a write by a master meets, if any. -/
def Dev.writeErr (d : Dev) (mid a len : Nat) : Option Nat :=
  match d.writeRes mid a len with
  | .ok => none
  | .denied => some 6
  | .error => some 7

/-- A failed request of `len` bytes is recorded: a denial, or the atoms that cannot be read (R269, R312). -/
def Dev.noteFailure (code mid : Nat) (write : Bool) (a len : Nat) (d : Dev) : Dev :=
  if code = 6 then d.deny mid 0 write a else d.noteRead mid write a len

/-- Writes that may be performed still are, where they are allowed (R279). -/
def Dev.lateWrites (mid : Nat) : List (Nat × List Byte) → Dev → Dev
  | [], d => d
  | (a, bs) :: rest, d => Dev.lateWrites mid rest (if (d.writeErr mid a bs.length).isNone then d.store a bs else d)

/-- A late response for tag `k`. Where the freed request was a write and the response is no error, the write has been performed
(R279; notes/assumptions/17.md). -/
def Dev.lateAccess (k : Nat) (r : Resp) (d : Dev) : Dev :=
  let d' := match (d.tag k).stale, r with
    | x :: _, .ok => Dev.lateWrites x.mid x.writes d
    | _, _ => d
  d'.lateResponse k

/-- `DMA_TMO` in nanoseconds. -/
def Dev.requestTimeout (d : Dev) : Nat := 1000 * d.fld .dma 0 DMA_TMO 15 0

/-! ## Scan engines: starts (R244 to R246) -/

/-- The code of an engine's state in `CVU_STAT`. -/
def VState.code : VState → Nat
  | .off => 0 | .idle => 1 | .running => 2 | .fenced => 3 | .draining => 4

/-- `CVU_STAT` of engine `e`. -/
def Dev.cvuStat (d : Dev) (e : Nat) : Word :=
  let x := d.engine e
  place 15 8 x.err.toNat ||| flag 4 x.hit ||| flag 3 x.enPending ||| place 2 0 x.state.code

/-- The width that engine `e` is set to. -/
def Dev.cvuWidth (d : Dev) (e : Nat) : Nat := d.fld .cvu e CVU_CFG 6 0

/-- An extent lies wholly within the data range of GDDR7 or within the Crucible window. -/
def Dev.scannable (d : Dev) (a len : Nat) : Bool :=
  match d.span a len with
  | .gddr | .cru _ => true
  | .host | .unmapped => false

/-- A start of engine `e` over an extent is not refused (R246). -/
def Dev.startOk (d : Dev) (e a len : Nat) : Bool :=
  decide (1 ≤ d.cvuWidth e) && decide (d.cvuWidth e ≤ 64) && decide (len ≠ 0) && d.scannable a len

/-- The parameters of R242 of a scan. -/
def Scan.params (x : Scan) : CrcParams :=
  { w := x.width, poly := x.poly.toNat, init := 0, xor := x.xor.toNat, refin := x.refin, refout := x.refout }

/-- What a start names (R245): the extent, the sequence number, the expected value, `COMPARE`, `FOLD`, and whether it
resumes from `CVU_VAL`. -/
structure ScanReq where
  mid : Nat
  addr : Quad
  len : Nat
  seq : Word
  exp : Quad
  compare : Bool
  fold : Bool
  cont : Bool
  entry : Option (Nat × Nat)

/-- An accepted start: engine `e` reads its configuration, loads `INIT` and feeds the prefix (R243, R245, R250). -/
def Dev.startScan (e : Nat) (q : ScanReq) (d : Dev) : Dev :=
  let x := d.engine e
  let s : Scan :=
    { addr := q.addr, left := q.len, seq := q.seq, exp := q.exp, compare := q.compare, mid := q.mid,
      width := d.cvuWidth e, poly := d.pair .cvu e CVU_POLY_LO, xor := d.pair .cvu e CVU_XOR_LO,
      refin := d.flg .cvu e CVU_CFG 7, refout := d.flg .cvu e CVU_CFG 8, entry := q.entry,
      inc := q.entry.isNone && d.flg .cvu e CVU_CFG 25, issued := d.now }
  let init := (d.pair .cvu e CVU_INIT_LO).toNat % 2 ^ s.width
  let v := if q.cont then x.val.toNat % 2 ^ s.width
    else if q.fold then crcFeed s.params init (foldPrefix q.addr.toNat q.seq.toNat)
    else init
  d.setEngine e { x with state := .running, busy := true, err := 0, failAddr := none,
                         scan := { s with v := BitVec.ofNat 64 v } }

/-- A register start by function `mid`, or a pulse with `CVU_CFG.FN` (R245, R246). -/
def Dev.cvuKick (e mid : Nat) (d : Dev) : Dev :=
  let x := d.engine e
  if x.state ≠ .idle then d.setEngine e { x with ovr := x.ovr + 1 }
  else
    let a := d.pair .cvu e CVU_ADDR_LO
    let len := (d.pair .cvu e CVU_LEN_LO).toNat % 2 ^ 40
    if ¬ d.startOk e a.toNat len then d.setEngine e { x with err := 1 }
    else d.startScan e
      { mid := mid, addr := a, len := len, seq := d.reg .cvu e CVU_SEQ, exp := d.pair .cvu e CVU_EXP_LO,
        compare := d.flg .cvu e CVU_CTL 4, fold := d.flg .cvu e CVU_CTL 5, cont := d.flg .cvu e CVU_CTL 6,
        entry := none }

/-- A pulse of DMA channel `ch` reaches the engines that it starts (R225, R245). -/
def Dev.pulseEngines (ch : Nat) (d : Dev) : Dev :=
  (List.range 16).foldl (fun d e =>
    if d.flg .cvu e CVU_CFG 24 ∧ d.fld .cvu e CVU_CFG 23 18 = ch then d.cvuKick e (d.fld .cvu e CVU_CFG 31 26) else d) d

/-- What the words of a `CRC_SCAN` entry name (R191, R245). -/
def scanReq (mid : Nat) (ws : List Word) (entry : Option (Nat × Nat)) : ScanReq :=
  let w := wordAt ws
  { mid := mid, addr := quad (w 2) (w 3), len := (w 4).toNat + 2 ^ 32 * bits (w 5) 7 0, seq := w 1,
    exp := quad (w 6) (w 7), compare := bit (w 0) 20, fold := bit (w 0) 21, cont := false, entry := entry }

/-- The engine that the word 0 of a `CRC_SCAN` names. -/
def scanEngine (ws : List Word) : Nat := bits (wordAt ws 0) 19 16

/-- The engine's next queued scan starts, or is refused with `FIELD`, until one runs: `n` bounds the entries tried. -/
def Dev.nextScan (e : Nat) : Nat → Dev → Dev
  | 0, d => d
  | n + 1, d =>
    if (d.engine e).state ≠ .idle then d
    else match d.waiters 0x11 19 e with
      | [] => d
      | q :: _ =>
        let x := d.queue q
        let r := scanReq (d.owner q) x.heldWords (some (q, x.lastGrp))
        if d.startOk e r.addr.toNat r.len then (d.releaseHeld q).startScan e r
        else Dev.nextScan e n (d.refuseHeld q 0x06 5 e)

/-- Engine `e` is IDLE: waits for it complete, and the next queued scan starts (R198, R200). -/
def Dev.engineIdle (e : Nat) (d : Dev) : Dev := (d.checkLevels).nextScan e 256

/-- Every queue entry that waits for engine `e` is refused with `UNIT` (R198, R199). -/
def Dev.refuseScans (e : Nat) (d : Dev) : Dev := d.refuseWaiters 0x11 19 5 e

/-- The arrival of a `CRC_SCAN` outside a transaction (R198, R199, R245, R246). -/
def Dev.beginScan (q : Nat) (d : Dev) : Dev :=
  let ws := (d.queue q).buf
  let e := scanEngine ws
  let grp := d.newGrp
  let r := scanReq (d.owner q) ws (some (q, grp))
  if d.right (d.owner q) (PType.cvu.page + e) ≠ 2 then d.refuseAlone q 0x05 5 e
  else if r.len = 0 then d.refuseAlone q 0x06 5 e
  else match (d.engine e).state with
    | .idle =>
      if d.startOk e r.addr.toNat r.len then (((d.consume q grp true false).useGrp).startScan e r).settle q
      else d.refuseAlone q 0x06 5 e
    | .running => d.holdForUnit q
    | .off | .fenced | .draining => d.refuseAlone q 0x21 5 e

/-- CRC_SCAN: a scan entry arrives at validation (R191, R245). -/
def execCrcScan (q : QueueNo) (s : State) : Host.Outcome State Fault Refusal :=
  s.dev! fun d => d.arrival q 0x11 (Dev.outsideOnly q (Dev.beginScan q))

/-! ## Scan engines: the scan and its end (R247 to R251) -/

/-- The scan of engine `e` ends with an error code, 0 for none: `CVU_SEQ` counts where it is to, and the entry, if any,
completes (R245, R248, R249). The engine takes state `st`. -/
def Dev.endScan (e code : Nat) (st : VState) (d : Dev) : Dev :=
  let x := d.engine e
  let d := d.setEngine e { x with state := st, err := BitVec.ofNat 8 code, parity := false,
                                  busy := false, scan := { x.scan with entry := none, inc := false } }
  let d := if x.scan.inc then d.setReg .cvu e CVU_SEQ (d.reg .cvu e CVU_SEQ + 1) else d
  match x.scan.entry with
  | some (q, grp) => d.completeGrp q grp
  | none => d

/-- A scan stops on an error of R249: its code, the address of the granule requested, and the scan-error source. -/
def Dev.scanFails (e code : Nat) (d : Dev) : Dev :=
  let x := d.engine e
  let a := x.scan.addr &&& 0xFFFFFFFFFFFFFFC0
  (((d.setEngine e { x with failAddr := some a }).fire 481 e (dbits 0 a.toNat ||| dbits 64 code)).endScan e code
    .idle).engineIdle e

/-- The bytes of the scan that its next request names: those of one 64-byte granule (R247). -/
def Scan.next (x : Scan) : Nat := min x.left (64 - x.addr.toNat % 64)

/-- SCAN_RESPONSE: the next bytes of the scan, those in one 64-byte granule, arrive and are fed, or an error ends the scan
(R247, R249). A response that a drain awaits is dropped (R251). -/
def execScanResponse (e : EngineNo) (r : Resp) (s : State) : Host.Outcome State Fault Refusal :=
  s.dev! fun d =>
    let x := d.engine e
    let n := x.scan.next
    if x.state = .draining ∧ x.due then d.setEngine e { x with due := false }
    else if x.state ≠ .running ∨ n = 0 then d.lateResponse (384 + e)
    else d.when (d.served 3 x.scan.addr.toNat n) fun d =>
      match d.readFor x.scan.mid x.scan.addr.toNat n r with
      | .ok bs =>
        (d.noteRead x.scan.mid false x.scan.addr.toNat n).setEngine e { x with scan := { x.scan with
          v := BitVec.ofNat 64 (crcFeed x.scan.params x.scan.v.toNat bs), addr := x.scan.addr + BitVec.ofNat 64 n,
          left := x.scan.left - n, issued := d.now } }
      | .error code => (d.noteFailure code x.scan.mid false x.scan.addr.toNat n).scanFails e code

/-- SCAN_TIMEOUT: a request of the scan, or one that a drain awaits, has had no response for `DMA_TMO` (R249, R251). -/
def execScanTimeout (e : EngineNo) (s : State) : Host.Outcome State Fault Refusal :=
  s.dev! fun d =>
    let x := d.engine e
    d.when (decide (0 < x.scan.left) && decide (x.scan.issued + d.requestTimeout ≤ d.now)) fun d =>
      if x.state = .running then (d.freeTag (384 + e) x.scan.mid).scanFails e 5
      else if x.state = .draining ∧ x.due then (d.freeTag (384 + e) x.scan.mid).setEngine e { x with due := false }
      else d

/-- The last byte has been fed: the result, the comparison, the mismatch notice and the end of the entry (R248). -/
def Dev.scanEnds (e : Nat) (d : Dev) : Dev :=
  let x := d.engine e
  let s := x.scan
  let res := BitVec.ofNat 64 (s.params.result s.v.toNat)
  let exp := BitVec.ofNat 64 (s.exp.toNat % 2 ^ s.width)
  let bad := s.compare && res != exp
  let d := d.setEngine e { x with result := res, expUsed := s.exp, seqUsed := s.seq, scans := x.scans + 1,
                                  hit := if s.compare then res = exp else x.hit }
  let done := fun d => (Dev.endScan e 0 .idle d)
  let d := if bad then
      let (q, ep) := match s.entry with | some (q, _) => (q, (d.queue q).epoch) | none => (0, 0)
      (d.fire 480 e (dbits 0 res.toNat ||| dbits 64 exp.toNat)).noticeThen s.mid
        { kind := 4, queue := q, epoch := ep, w1 := flag 12 true ||| place 3 0 e, tb := d.time, w4 := lo32 exp,
          w5 := hi32 exp, w6 := lo32 res, w7 := hi32 res } done
    else done d
  d.engineIdle e

/-- SCAN_END: the scan has fed its last byte (R248). -/
def execScanEnd (e : EngineNo) (s : State) : Host.Outcome State Fault Refusal :=
  s.dev! fun d => d.when ((d.engine e).state = .running && (d.engine e).scan.left = 0) (Dev.scanEnds e)

/-- `CVU_CTL.STOP` written 1: the scan, which stands at a 64-byte boundary of the bytes fed, ends with `STOPPED`
(R250). -/
def Dev.stopScan (e : Nat) (d : Dev) : Dev :=
  let x := d.engine e
  if x.state = .running ∧ x.scan.left ≠ 0 then (d.endScan e 8 .idle).engineIdle e else d

/-- Entry to DRAINING: a scan that runs has a response outstanding (R251). -/
def Dev.drainEngine (e : Nat) (d : Dev) : Dev :=
  let x := d.engine e
  (d.setEngine e { x with
    state := .draining, en := false, enPending := false, due := x.state = .running && decide (0 < x.scan.left) }).refuseScans e

/-- A write of `CVU_CTL.EN` (R244). -/
def Dev.writeEngineEn (e : Nat) (b : Bool) (d : Dev) : Dev :=
  let x := d.engine e
  match x.state, b with
  | .off, true => (d.setEngine e { x with state := .idle, en := true }).engineIdle e
  | .idle, false | .running, false => d.drainEngine e
  | .draining, _ => d.setEngine e { x with en := b, enPending := b }
  | .off, false | .idle, true | .running, true | .fenced, _ => d

/-- The drain of engine `e` completes: the scan in hand ends with `STOPPED` (R251). -/
def Dev.engineDrained (e : Nat) (d : Dev) : Dev :=
  let pend := (d.engine e).enPending
  let d := d.renewTag (384 + e)
  let d := if (d.engine e).busy then d.endScan e 8 .off else d.setEngine e { d.engine e with state := .off }
  let x := { d.engine e with enPending := false, flr := false }
  if pend then (d.setEngine e { x with state := .idle }).engineIdle e else d.setEngine e x

/-- CVU_DRAIN_COMPLETE: the outstanding responses have arrived or timed out (R251). -/
def execCvuDrainComplete (e : EngineNo) (s : State) : Host.Outcome State Fault Refusal :=
  s.dev! fun d => d.when ((d.engine e).state = .draining && !(d.engine e).due) (Dev.engineDrained e)

/-- CVU_ENGINE_PARITY: a parity error in an engine's own state fires CVU-engine where none is live, and fences the engine where
that is the reaction; a fenced engine has none (R244, R251, R252, R338, R341). -/
def execCvuEngineParity (e : EngineNo) (s : State) : Host.Outcome State Fault Refusal :=
  s.dev! fun d =>
    let x := d.engine e
    d.when (x.state ≠ .fenced && !x.parity) fun d =>
      let d := d.fire 482 e 0
      if d.fences 482 ∧ x.state ≠ .off then
        let d := if x.busy then (d.freeTag (384 + e) x.scan.mid).endScan e 8 .fenced else d.setEngine e { x with state := .fenced }
        (d.setEngine e { d.engine e with enPending := false, due := false }).refuseScans e
      else d.setEngine e { x with parity := true }

/-- `CVU_CTL.FREL` written 1 (R244). -/
def Dev.releaseEngine (e : Nat) (d : Dev) : Dev :=
  let x := d.engine e
  if x.state = .fenced then d.setEngine e { x with state := .off, en := false } else d

/-- `CVU_VAL` is written: accepted in IDLE alone. -/
def Dev.writeVal (e : Nat) (hi : Bool) (w : Word) (d : Dev) : Dev :=
  let x := d.engine e
  if x.state ≠ .idle then d
  else d.setEngine e { x with val := if hi then quad (lo32 x.val) w else quad w (hi32 x.val) }

end Sys2Proof.Machine
end

