-- ==== Sys2Proof/Machine/Dma.lean ====
section
/-!
DEFINITION. The DMA engine and its timers (R213 to R228).
-/
namespace Sys2Proof.Machine

/-! ## Descriptors (R214 to R217) -/

/-- Word `i` of a descriptor. -/
def Desc.w (x : Desc) (i : Nat) : Word := wordAt x.words i
/-- `LAST`. -/
def Desc.last (x : Desc) : Bool := bit (x.w 0) 0
/-- `TYPE` = 1: two-dimensional. -/
def Desc.is2D (x : Desc) : Bool := bit (x.w 0) 1
/-- `DIR` = 1: descending. -/
def Desc.down (x : Desc) : Bool := bit (x.w 0) 2
/-- `HALF`. -/
def Desc.half (x : Desc) : Bool := bit (x.w 0) 3
/-- `ENC`. -/
def Desc.enc (x : Desc) : Bool := bit (x.w 0) 4
/-- `LEN`: bytes, or the row width in bytes or pixels. -/
def Desc.len (x : Desc) : Nat := if x.is2D then bits (x.w 1) 23 0 else (x.w 1).toNat
/-- The row width in source bytes. -/
def Desc.width (x : Desc) : Nat := if x.enc then 4 * x.len else x.len
/-- Rows. -/
def Desc.rows (x : Desc) : Nat := if x.is2D then bits (x.w 2) 15 0 else 1
/-- `SRC`. -/
def Desc.src (x : Desc) : Nat := (quad (x.w 4) (x.w 5)).toNat
/-- `DST`. -/
def Desc.dst (x : Desc) : Nat := (quad (x.w 6) (x.w 7)).toNat
/-- `SSTRIDE`. -/
def Desc.sstride (x : Desc) : Nat := (x.w 8).toNat
/-- `DSTRIDE`. -/
def Desc.dstride (x : Desc) : Nat := (x.w 9).toNat
/-- `NEXT`. -/
def Desc.next (x : Desc) : Quad := quad (x.w 10) (x.w 11)
/-- `ADDR1`. -/
def Desc.addr1 (x : Desc) : Nat := (quad (x.w 12) (x.w 13)).toNat
/-- `PITCH1`. -/
def Desc.pitch1 (x : Desc) : Nat := bits (x.w 14) 23 0
/-- Tile columns and tile rows of the rectangle. -/
def Desc.tiles (x : Desc) : Nat × Nat := (ceilDiv x.len 8, ceilDiv x.rows 8)
/-- The top-left tile. -/
def Desc.torg (x : Desc) : Nat × Nat := (bits (x.w 15) 15 0, bits (x.w 15) 31 16)

/-- Reserved bits that are not 0 (R214). -/
def Desc.reserved (x : Desc) : Bool :=
  decide (bits (x.w 0) 23 5 ≠ 0) || x.w 3 != 0 || decide (bits (x.w 2) 31 16 ≠ 0) ||
  (if x.is2D then decide (bits (x.w 1) 31 24 ≠ 0) else x.w 2 != 0) ||
  (if x.enc then decide (bits (x.w 14) 31 24 ≠ 0) else [12, 13, 14, 15].any fun i => x.w i != 0)

/-- The `FIELD` check fails (R216). -/
def Desc.fieldBad (x : Desc) : Bool :=
  x.reserved || x.len = 0 || x.rows = 0 || (x.enc && (!x.is2D || x.down)) ||
  (decide (1 < x.rows) && (decide (x.sstride < x.width) || decide (x.dstride < x.width)))

/-- The `ALIGN` check fails (R216). -/
def Desc.alignBad (x : Desc) : Bool :=
  (!x.last && decide (x.next.toNat % 64 ≠ 0)) ||
  (x.enc && (decide (x.dst % 256 ≠ 0) || decide (x.addr1 % 256 ≠ 0) || decide (x.dstride % 64 ≠ 0) ||
    decide (x.pitch1 % 64 ≠ 0)))

/-- The first byte after the source extent (R217). -/
def Desc.srcEnd (x : Desc) : Nat := x.src + (x.rows - 1) * x.sstride + x.width
/-- The first byte after the destination extent, which is formed in the same way. -/
def Desc.dstEnd (x : Desc) : Nat := x.dst + (x.rows - 1) * x.dstride + x.width

/-- The `OVERLAP` check fails (R217). -/
def Desc.overlapBad (x : Desc) : Bool :=
  decide (x.src < x.dstEnd) && decide (x.dst < x.srcEnd) &&
  ((x.is2D && decide (x.sstride ≠ x.dstride)) || (decide (x.src < x.dst) && !x.down) ||
    (decide (x.dst < x.src) && x.down))

/-- The code of the first check that a descriptor fails, 0 for none (R216). -/
def Desc.check (x : Desc) : Nat :=
  if x.fieldBad then 1 else if x.alignBad then 2 else if x.overlapBad then 3 else 0

/-! ## Channels: starts (R220, R221) -/

/-- The code of a channel's state in `DMA_CH_STAT`. -/
def DState.code : DState → Nat
  | .off => 0 | .idle => 1 | .running => 2 | .halted => 3 | .fenced => 4 | .draining => 5

/-- `DMA_CH_CFG.FN`. -/
def Dev.chanFn (d : Dev) (ch : Nat) : Nat := d.fld .chan ch DMA_CH_CFG 31 26
/-- `DMA_CH_CFG.REP`. -/
def Dev.chanRep (d : Dev) (ch : Nat) : Nat := d.fld .chan ch DMA_CH_CFG 24 23

/-- The staged fields of a channel's page take effect, unless the page holds them (R220, R328). -/
def Dev.takeChan (ch : Nat) (d : Dev) : Dev :=
  if d.held (PType.chan.page + ch) then d
  else
    let l := d.stagedOf .chan ch
    (d.dropStaged .chan ch).setRegs .chan ch l

/-- A job starts (R220, R221): staged fields apply, then the first descriptor is fetched. Bits [5:0] of its address are
taken as 0 (DESIGN CHOICE, notes/assumptions/16.md). -/
def Dev.startJob (ch : Nat) (k : DmaStart) (d : Dev) : Dev :=
  let d := d.takeChan ch
  let x := d.chan ch
  let desc := d.pair .chan ch DMA_CH_DESC_LO
  let own := if d.flg .chan ch DMA_CH_CFG 25 ∧ x.chained then x.cont.getD desc else desc
  let (job, a) : DmaJob × Quad := match k with
    | .queued q grp mid a => ({ mid := mid, entry := some (q, grp) }, a)
    | .kick m => ({ mid := m }, own)
    | .trigger => ({ mid := d.chanFn ch }, own)
  d.setChan ch { x with
    state := .running, job := some job, step := .fetch, addr := a &&& 0xFFFFFFFFFFFFFFC0, moved := 0, hops := 0,
    chained := x.chained || job.entry.isNone, kept := [], bytes := 0, err := 0, errHop := 0, issued := d.now }

/-- A register kick or a trigger reaches channel `ch` (R220). -/
def Dev.askStart (ch : Nat) (k : DmaStart) (d : Dev) : Dev :=
  let x := d.chan ch
  match x.state with
  | .idle => d.startJob ch k
  | .running => if x.pend.isNone then d.setChan ch { x with pend := some k } else d.setChan ch { x with ovr := x.ovr + 1 }
  | .halted | .draining => d.setChan ch { x with ovr := x.ovr + 1 }
  | .off | .fenced => d

/-- The channels whose trigger, of kind `trig`, is source `i` start (R220). -/
def Dev.triggerChans (trig i : Nat) (d : Dev) : Dev :=
  (List.range 64).foldl (fun d ch =>
    if d.fld .chan ch DMA_CH_CFG 22 21 = trig ∧ d.fld .chan ch DMA_CH_CFG 20 15 = i then d.askStart ch .trigger else d) d

/-- What a `DMA_KICK` starts (R191, R220). -/
def kickStart (q grp mid : Nat) (ws : List Word) : DmaStart := .queued q grp mid (quad (wordAt ws 2) (wordAt ws 3))

/-- The channel that word 0 of a `DMA_KICK` names. -/
def kickChan (ws : List Word) : Nat := bits (wordAt ws 0) 21 16

/-- Channel `ch` is IDLE: waits for it complete, and the next queued kick starts (R198, R200). -/
def Dev.chanIdle (ch : Nat) (d : Dev) : Dev :=
  let d := d.checkLevels
  if (d.chan ch).state ≠ .idle then d
  else match d.waiters 0x10 21 ch with
    | [] => d
    | q :: _ =>
      let x := d.queue q
      (d.releaseHeld q).startJob ch (kickStart q x.lastGrp (d.owner q) x.heldWords)

/-- Every queue entry that waits for channel `ch` is refused with `UNIT` (R198, R199). -/
def Dev.refuseKicks (ch : Nat) (d : Dev) : Dev := d.refuseWaiters 0x10 21 4 ch

/-- The arrival of a `DMA_KICK` outside a transaction (R198, R199, R220). -/
def Dev.beginKick (q : Nat) (d : Dev) : Dev :=
  let ws := (d.queue q).buf
  let ch := kickChan ws
  let grp := d.newGrp
  if d.right (d.owner q) (PType.chan.page + ch) ≠ 2 then d.refuseAlone q 0x05 4 ch
  else match (d.chan ch).state with
    | .idle => (((d.consume q grp true false).useGrp).startJob ch (kickStart q grp (d.owner q) ws)).settle q
    | .running => d.holdForUnit q
    | .off | .halted | .fenced | .draining => d.refuseAlone q 0x21 4 ch

/-- DMA_KICK: a kick arrives at validation (R191, R220). -/
def execDmaKick (q : QueueNo) (s : State) : Host.Outcome State Fault Refusal :=
  s.dev! fun d => d.arrival q 0x10 (Dev.outsideOnly q (Dev.beginKick q))

/-! ## Channels: the end of a job (R224, R225, R227) -/

/-- Report with `REP` = 0b01: a bit of `DMA_CH_EVT` and a message (R224). -/
def Dev.report (ch : Nat) (b : BitVec 3) (vec : Nat) (d : Dev) : Dev :=
  if d.chanRep ch = 1 then
    let x := d.chan ch
    (d.setChan ch { x with evt := x.evt ||| b }).msix (d.chanFn ch) vec
  else d

/-- The job of channel `ch` has ended: it is counted, its encoder is free, its entry completes, and the channel takes
state `st`. -/
def Dev.endJob (ch : Nat) (st : DState) (d : Dev) : Dev :=
  let x := d.chan ch
  let d := d.setChan ch { x with state := st, job := none, encoder := false, jobs := x.jobs + 1 }
  match x.job.bind DmaJob.entry with
  | some (q, grp) => d.completeGrp q grp
  | none => d

/-- After the end of a job: a pending start begins, else the channel is IDLE (R213, R220). -/
def Dev.afterJob (ch : Nat) (d : Dev) : Dev :=
  let x := d.chan ch
  match x.pend with
  | some k => (d.setChan ch { x with pend := none }).startJob ch k
  | none => (d.setChan ch { x with state := .idle }).chanIdle ch

/-- A pulse of channel `ch` restarts the free-mode timers that name it (R222, R225). -/
def Dev.restartTimers (ch : Nat) (d : Dev) : Dev :=
  (List.range 16).foldl (fun d t =>
    let w := d.reg .dma 0 (DMA_TMR_CTL + 16 * t)
    if bit w 31 ∧ ¬ bit w 30 ∧ bit w 29 ∧ bits w 21 16 = ch then d.setTimer t { d.timer t with base := d.time } else d) d

/-- A pulse of channel `ch` reaches its consumers (R225). Its own flip is asked for with the settings in effect. -/
def Dev.pulse (ch : Nat) (d : Dev) : Dev :=
  let f := d.reg .chan ch DMA_CH_FLIP
  let g := d.reg .chan ch DMA_CH_FLIP_S
  let x := d.chan ch
  let d := if bit f 31 then
      d.setChan ch { x with flips := x.flips ++ [(d.chanFn ch, bits f 14 0, bits g 13 0, bits g 29 16)] }
    else d
  ((d.restartTimers ch).pulseEngines ch).triggerChans 2 ch

/-- DMA_FLIP: a pulse asks for the channel's flip, which takes its place among commit points (R226). -/
def execDmaFlip (ch : ChanNo) (s : State) : Host.Outcome State Fault Refusal :=
  s.dev! fun d =>
    let x := d.chan ch
    match x.flips with
    | [] => d
    | (fn, win, a, b) :: rest =>
      let d := d.setChan ch { x with flips := rest }
      { d with scene := { d.scene with admQ := d.scene.admQ ++ [.flip fn win a b] } }

/-- An error of the job of channel `ch`: its code is recorded, and the channel is HALTED (R213, R218). `a` is the address
of the failing request. -/
def Dev.haltChan (ch code : Nat) (a : Quad) (d : Dev) : Dev :=
  let x := d.chan ch
  let d := d.setChan ch { x with
    state := .halted, err := BitVec.ofNat 8 code, errHop := min 31 x.hops, failAddr := a }
  ((d.fire 417 ch (dbits 0 a.toNat ||| dbits 64 code)).report ch 4 (d.fld .chan ch DMA_CH_IRQ 13 8)).refuseKicks ch

/-- The hop limit is exceeded: the channel is FENCED, and its job ends without a report (R215, R227, R341). -/
def Dev.fenceChan (ch : Nat) (d : Dev) : Dev :=
  let x := d.chan ch
  let d := ((d.setChan ch { x with pend := none }).renewTag (256 + ch)).fire 418 ch (dbits 0 x.addr.toNat)
  (d.endJob ch .fenced).refuseKicks ch

/-- A request of the job is outstanding. -/
def Chan.asks (x : Chan) : Bool := x.state = .running && (x.step = .fetch || x.step = .move)

/-- Entry to DRAINING: a channel that runs may have a response outstanding (R227). -/
def Dev.drainChan (ch : Nat) (d : Dev) : Dev :=
  let x := d.chan ch
  (d.setChan ch { x with state := .draining, en := false, enPending := false, pend := none, due := x.asks }).refuseKicks ch

/-- A write of `DMA_CH_CTL.EN` (R213). -/
def Dev.writeChanEn (ch : Nat) (b : Bool) (d : Dev) : Dev :=
  let x := d.chan ch
  match x.state, b with
  | .off, true => (d.setChan ch { x with state := .idle, en := true, cont := none, chained := false }).chanIdle ch
  | .idle, false | .running, false | .halted, false => d.drainChan ch
  | .draining, _ => d.setChan ch { x with en := b, enPending := b }
  | .off, false | .idle, true | .running, true | .halted, true | .fenced, _ => d

/-- The drain of channel `ch` completes (R213, R227). -/
def Dev.chanDrained (ch : Nat) (d : Dev) : Dev :=
  let pend := (d.chan ch).enPending
  let d := d.renewTag (256 + ch)
  let d := if (d.chan ch).job.isSome then d.endJob ch .off else d.setChan ch { d.chan ch with state := .off }
  let x := { d.chan ch with enPending := false, flr := false }
  if pend then (d.setChan ch { x with state := .idle, cont := none, chained := false }).chanIdle ch else d.setChan ch x

/-- DMA_DRAIN_COMPLETE: the responses due have arrived or timed out and the encoder is free (R227). -/
def execDmaDrainComplete (ch : ChanNo) (s : State) : Host.Outcome State Fault Refusal :=
  s.dev! fun d => d.when ((d.chan ch).state = .draining && !(d.chan ch).due) (Dev.chanDrained ch)

/-- `DMA_CH_CTL.FREL` written 1 (R213). -/
def Dev.releaseChan (ch : Nat) (d : Dev) : Dev :=
  let x := d.chan ch
  if x.state = .fenced then d.setChan ch { x with state := .off, en := false } else d

/-! ## Channels: the job (R215 to R219) -/

/-- A Frit encoder is free: the engine holds four (R219). -/
def Dev.encoderFree (d : Dev) : Bool := decide ((d.chans.filter fun e => e.2.encoder).length < 4)

/-- The descriptor of channel `ch` starts: its tag shows, and an `ENC` descriptor takes an encoder or waits for one
(R214, R219). -/
def Dev.beginDesc (ch : Nat) (k : Desc) (d : Dev) : Dev :=
  let x := d.chan ch
  let free := d.encoderFree
  let x := { x with desc := k, tag := (k.w 0).extractLsb' 24 8, moved := 0, kept := [], issued := d.now }
  d.setChan ch (if k.enc then { x with step := if free then .move else .encWait, encoder := free }
    else { x with step := .move })

/-- A fetched descriptor fails a check: as the first of a job it refuses the job, which ends at once; a later one halts the
channel (R216, R224). -/
def Dev.descBad (ch code : Nat) (d : Dev) : Dev :=
  let x := d.chan ch
  let d := d.fire 416 ch (dbits 0 x.addr.toNat ||| dbits 64 code)
  if x.hops ≠ 0 then d.haltChan ch code x.addr
  else
    let d := d.setChan ch { x with err := BitVec.ofNat 8 code, errHop := 0 }
    ((d.endJob ch .running).report ch 4 (d.fld .chan ch DMA_CH_IRQ 13 8)).afterJob ch

/-- The tag of channel `ch` (R279). -/
def chanTag (ch : Nat) : Nat := 256 + ch

/-- A response for channel `ch`: that of a job that runs and has reached `step` is taken by `k`; one that its drain awaits
is dropped; any other is late (R227, R279). A write that timed out may be what a late response tells of. -/
def Dev.chanResponse (ch : Nat) (step : DmaStep) (r : Resp) (k : DmaJob → Dev → Dev) (d : Dev) : Dev :=
  let x := d.chan ch
  if x.state = .draining ∧ x.due then d.setChan ch { x with due := false }
  else match x.job with
    | some j => if x.state = .running ∧ x.step = step then k j d else d.lateAccess (chanTag ch) r
    | none => d.lateAccess (chanTag ch) r

/-- DESCRIPTOR_FETCH: the descriptor that channel `ch` reads arrives and is checked (R214, R216, R218). -/
def execDescriptorFetch (ch : ChanNo) (r : Resp) (s : State) : Host.Outcome State Fault Refusal :=
  s.dev! (Dev.chanResponse ch .fetch r fun j d =>
    let a := (d.chan ch).addr
    d.when (d.served 3 a.toNat 64) fun d =>
      match d.readFor j.mid a.toNat 64 r with
      | .error code => (d.noteFailure code j.mid false a.toNat 64).haltChan ch code a
      | .ok bs =>
        let d := d.noteRead j.mid false a.toNat 64
        let k : Desc := { words := bytesWords 16 bs }
        if k.check ≠ 0 then d.descBad ch k.check else d.beginDesc ch k)

/-- ENCODER_ACQUIRE: a channel that waits for an encoder takes a free one (R219). -/
def execEncoderAcquire (ch : ChanNo) (s : State) : Host.Outcome State Fault Refusal :=
  s.dev! fun d =>
    let x := d.chan ch
    d.when (x.state = .running && x.step = .encWait && d.encoderFree) fun d =>
      d.setChan ch { x with step := .move, encoder := true, issued := d.now }

/-- The next bytes that a descriptor moves after `n` of them: the source address, the destination address and the length.
They lie in one 64-byte granule of the source and in one row; with `DIR` = 1 rows and bytes come from the end (R217,
R218). -/
def Desc.piece (k : Desc) (n : Nat) : Nat × Nat × Nat :=
  let row := n / k.width
  let col := n % k.width
  if k.down then
    let r := k.rows - 1 - row
    let stop := k.src + r * k.sstride + k.width - col
    let len := min (k.width - col) (stop - (stop - 1) / 64 * 64)
    (stop - len, k.dst + r * k.dstride + k.width - col - len, len)
  else
    let a := k.src + row * k.sstride + col
    (a, k.dst + row * k.dstride + col, min (k.width - col) (64 - a % 64))

/-- All bytes or tiles of a descriptor. -/
def Desc.total (k : Desc) : Nat := if k.enc then k.tiles.1 * k.tiles.2 else k.rows * k.width

/-- The channel has moved `n` more bytes or tiles and written `b` bytes. -/
def Dev.advance (ch n b : Nat) (d : Dev) : Dev :=
  let x := d.chan ch
  let m := x.moved + n
  d.setChan ch { x with
    moved := m, bytes := x.bytes + BitVec.ofNat 64 b, issued := d.now,
    step := if x.desc.total ≤ m then .descDone else x.step }

/-- The next piece of a descriptor is read and written. -/
def Dev.moveBytes (ch mid : Nat) (r : Resp) (d : Dev) : Dev :=
  let x := d.chan ch
  let (a, b, n) := x.desc.piece x.moved
  d.when (d.served 3 a n && d.served 3 b n) fun d =>
    match d.readFor mid a n r with
    | .error code => (d.noteFailure code mid false a n).haltChan ch code (BitVec.ofNat 64 a)
    | .ok bs => match d.writeErr mid b n with
      | some code => (d.noteFailure code mid true b n).haltChan ch code (BitVec.ofNat 64 b)
      | none => (((d.noteRead mid false a n).noteRead mid true b n).store b bs).advance ch n n

/-- A list of reads, in order: their bytes one after another, or the code, address and length of the first
that fails. -/
def Dev.readAll (d : Dev) (mid : Nat) (r : Resp) : List (Nat × Nat) → Except (Nat × Nat × Nat) (List Byte)
  | [] => .ok []
  | (a, n) :: rest => match d.readFor mid a n r with
    | .error code => .error (code, a, n)
    | .ok bs => match d.readAll mid r rest with
      | .error e => .error e
      | .ok cs => .ok (bs ++ cs)

/-- A list of writes, in order: the machine after them, or after those before the first error, with its code,
address and length. -/
def Dev.writeAll (mid : Nat) : List (Nat × List Byte) → Dev → Dev × Option (Nat × Nat × Nat)
  | [], d => (d, none)
  | (a, bs) :: rest, d => match d.writeErr mid a bs.length with
    | some code => (d, some (code, a, bs.length))
    | none => Dev.writeAll mid rest ((d.noteRead mid true a bs.length).store a bs)

/-- The 64 pixel words of tile (i, j) of a rectangle `w` × `h` from its pixels, columns and rows beyond it taking the
nearest pixel inside (R219, R233). -/
def tileWords (w h i j : Nat) (px : Nat → Nat → Nat) : List Nat :=
  (List.range 64).map fun k => px (min (w - 1) (8 * i + k % 8)) (min (h - 1) (8 * j + k / 8))

/-- The writes of an encoded tile: its sectors, then its header byte (R95, R233). -/
def tileWrites (base pitch base1 pitch1 tx ty : Nat) (ws : List Nat) : List (Nat × List Byte) :=
  let (h, bs) := fritEncode ws
  [(tiledAddr base pitch (8 * tx) (8 * ty), bs), (base1 + ty * pitch1 + tx, [BitVec.ofNat 8 h])]

/-- The rows of pixels of tile `n` of an `ENC` descriptor: their source addresses and lengths (R219). -/
def Desc.tileRows (k : Desc) (n : Nat) : List (Nat × Nat) :=
  let i := n % k.tiles.1
  let j := n / k.tiles.1
  (List.range (min 8 (k.rows - 8 * j))).map fun y =>
    (k.src + (8 * j + y) * k.sstride + 32 * i, 4 * min 8 (k.len - 8 * i))

/-- The writes of tile `n` from the bytes of its rows. -/
def Desc.tileOut (k : Desc) (n : Nat) (bs : List Byte) : List (Nat × List Byte) :=
  let i := n % k.tiles.1
  let j := n / k.tiles.1
  let cols := min 8 (k.len - 8 * i)
  let px := fun u v => leNat ((bs.drop (4 * ((v - 8 * j) * cols + (u - 8 * i)))).take 4)
  tileWrites k.dst k.dstride k.addr1 k.pitch1 (k.torg.1 + i) (k.torg.2 + j) (tileWords k.len k.rows i j px)

/-- The source bytes that writes are about to change, which an `ENC` descriptor keeps: a descriptor that passes its checks
has the result of a copy through a separate buffer (R217). -/
def Dev.keepSource (ch : Nat) (out : List (Nat × List Byte)) (d : Dev) : Dev :=
  let x := d.chan ch
  let own := fun a => decide (x.desc.src ≤ a) && decide (a < x.desc.srcEnd) && !(x.kept.any fun e => e.1 = a)
  let as := (out.flatMap fun e => (List.range e.2.length).map (· + e.1)).filter own
  d.setChan ch { x with kept := x.kept ++ as.map fun a => (a, d.byte a) }

/-- Bytes read from address `a` on, with the kept ones in their places. -/
def Chan.withKept (x : Chan) (a : Nat) (bs : List Byte) : List Byte :=
  bs.zipIdx.map fun e => ((x.kept.find? fun k => k.1 = a + e.2).map (·.2)).getD e.1

/-- The bytes of rows that follow one another in a list, each with the kept ones in their places. -/
def Chan.keptRows (x : Chan) : List (Nat × Nat) → List Byte → List Byte
  | [], _ => []
  | (a, n) :: rest, bs => x.withKept a (bs.take n) ++ x.keptRows rest (bs.drop n)

/-- The next tile of an `ENC` descriptor is read, encoded and written (R219). -/
def Dev.moveTile (ch mid : Nat) (r : Resp) (d : Dev) : Dev :=
  let x := d.chan ch
  let rows := x.desc.tileRows x.moved
  d.when (rows.all fun e => d.served 3 e.1 e.2) fun d =>
    match d.readAll mid r rows with
    | .error (code, a, n) => (d.noteFailure code mid false a n).haltChan ch code (BitVec.ofNat 64 a)
    | .ok bs =>
      let out := x.desc.tileOut x.moved (x.keptRows rows bs)
      d.when (out.all fun e => d.served 3 e.1 e.2.length) fun d =>
        let d := rows.foldl (fun d e => d.noteRead mid false e.1 e.2) d
        match (d.keepSource ch out).writeAll mid out with
        | (d, some (code, a, n)) => (d.noteFailure code mid true a n).haltChan ch code (BitVec.ofNat 64 a)
        | (d, none) => d.advance ch 1 ((out.map fun e => e.2.length).sum)

/-- DMA_RESPONSE: the next data of a descriptor arrives and is written, or an error halts the job (R218, R219). -/
def execDmaResponse (ch : ChanNo) (r : Resp) (s : State) : Host.Outcome State Fault Refusal :=
  s.dev! (Dev.chanResponse ch .move r fun j d =>
    if (d.chan ch).desc.enc then d.moveTile ch j.mid r else d.moveBytes ch j.mid r)

/-- The next write of channel `ch`, and what it would write. -/
def Dev.nextWrite (d : Dev) (ch : Nat) : List (Nat × List Byte) :=
  let x := d.chan ch
  if x.desc.enc then
    let rows := x.desc.tileRows x.moved
    x.desc.tileOut x.moved (x.keptRows rows (rows.flatMap fun e => d.bytes e.1 e.2))
  else
    let (a, b, n) := x.desc.piece x.moved
    [(b, d.bytes a n)]

/-- The address of the request of channel `ch` that is outstanding: its descriptor's, or the next data's, read or written. -/
def Dev.openRequest (d : Dev) (ch : Nat) (write : Bool) : Quad :=
  let x := d.chan ch
  if x.step = .fetch then x.addr
  else if write then BitVec.ofNat 64 (((d.nextWrite ch).map (·.1)).headD 0)
  else BitVec.ofNat 64 (if x.desc.enc then ((x.desc.tileRows x.moved).map (·.1)).headD 0 else (x.desc.piece x.moved).1)

/-- The request of channel `ch` that is outstanding has timed out: its tag is freed, and a write may still be performed
afterwards (R218, R279). -/
def Dev.requestLost (ch : Nat) (write : Bool) (d : Dev) : Dev :=
  let x := d.chan ch
  let mid := (x.job.map (·.mid)).getD 0
  let ws := d.nextWrite ch
  let d := d.freeTag (chanTag ch) mid
  if write ∧ x.step = .move then d.keepWrite (chanTag ch) ws else d

/-- DMA_TIMEOUT: a descriptor or data request, a write of data where `write` says so, has had no response for `DMA_TMO`
(R218); a drain waits for it no longer (R227). -/
def execDmaTimeout (ch : ChanNo) (write : Bool) (s : State) : Host.Outcome State Fault Refusal :=
  s.dev! fun d =>
    let x := d.chan ch
    d.when (decide (x.issued + d.requestTimeout ≤ d.now)) fun d =>
      if x.asks then (d.requestLost ch write).haltChan ch 5 (d.openRequest ch write)
      else if x.state = .draining ∧ x.due then
        let d := d.requestLost ch write
        d.setChan ch { d.chan ch with due := false }
      else d

/-- The last write of a descriptor is issued: the half report, then the next hop or the end of the job (R215, R224). -/
def Dev.descEnds (ch : Nat) (d : Dev) : Dev :=
  let d := d.setChan ch { d.chan ch with encoder := false }
  let x := d.chan ch
  let d := if x.desc.half then d.report ch 1 (d.fld .chan ch DMA_CH_IRQ 5 0) else d
  let x := d.chan ch
  if x.desc.last then d.setChan ch { x with step := .jobDone, cont := some x.desc.next }
  else if 4096 ≤ x.hops then d.fenceChan ch
  else d.setChan ch { x with step := .fetch, addr := x.desc.next, hops := x.hops + 1, issued := d.now }

/-- DESCRIPTOR_COMPLETE: a descriptor's last write is issued (R215, R224). -/
def execDescriptorComplete (ch : ChanNo) (s : State) : Host.Outcome State Fault Refusal :=
  s.dev! fun d => d.when ((d.chan ch).state = .running && (d.chan ch).step = .descDone) (Dev.descEnds ch)

/-- The full report of a job of a `DMA_KICK` with `REP` = 0b01: its bit, and a message that follows the head write-back that
passes the entry (R224). -/
def Dev.reportBehind (ch q grp : Nat) (d : Dev) : Dev :=
  if d.chanRep ch = 1 then
    let x := d.chan ch
    (d.setChan ch { x with evt := x.evt ||| 2 }).messageBehind q grp (d.chanFn ch, d.fld .chan ch DMA_CH_IRQ 13 8)
  else d

/-- The job ends after its `LAST` descriptor: its entry completes, it is reported by a message or by a pulse, and a pending
start begins. A pulse that comes back to the channel itself arrives during the job (R220, R224, R225). -/
def Dev.jobEnds (ch : Nat) (d : Dev) : Dev :=
  let d := match (d.chan ch).job.bind DmaJob.entry with
    | some (q, grp) => (d.reportBehind ch q grp).endJob ch .running
    | none => (d.endJob ch .running).report ch 2 (d.fld .chan ch DMA_CH_IRQ 13 8)
  let d := if d.chanRep ch = 2 then d.pulse ch else d
  d.afterJob ch

/-- JOB_END (R224). -/
def execJobEnd (ch : ChanNo) (s : State) : Host.Outcome State Fault Refusal :=
  s.dev! fun d => d.when ((d.chan ch).state = .running && (d.chan ch).step = .jobDone) (Dev.jobEnds ch)

/-! ## Timers (R222, R223) -/

/-- Timer `t`'s control word. -/
def Dev.timerCtl (d : Dev) (t : Nat) : Word := d.reg .dma 0 (DMA_TMR_CTL + 16 * t)
/-- Timer `t`'s period as written. -/
def Dev.timerPer (d : Dev) (t : Nat) : Nat := (d.reg .dma 0 (DMA_TMR_PER + 16 * t)).toNat

/-- The ticks of the first frame that fall due: those of a frame end where the next frame's *E* lies (R223). -/
def Timer.next (x : Timer) : Option (Timer × Quad) :=
  match x.series with
  | [] => none
  | (e, p) :: rest =>
    let at' := e + BitVec.ofNat 64 (x.k * p.toNat)
    let own := x.k = 0 || p != 0
    match rest with
    | [] => if own then some (x, at') else none
    | (e2, _) :: _ =>
      if own ∧ at'.toNat < e2.toNat then some (x, at') else some ({ x with series := rest, k := 0 }, e2)

/-- When timer `t` ticks next, with the timer as it then stands, none while it does not run. -/
def Dev.timerNext (d : Dev) (t : Nat) : Option (Timer × Quad) :=
  let w := d.timerCtl t
  let x := d.timer t
  if ¬ bit w 31 then none
  else if bit w 30 then (if (d.canvas x.canvas).state = .running then x.next else none)
  else if d.timerPer t = 0 then none
  else some (x, x.base + BitVec.ofNat 64 (d.timerPer t))

/-- Timer `t` ticks where its next tick is due. -/
def Dev.timerTicks (t : Nat) (d : Dev) : Dev :=
  match d.timerNext t with
  | none => d
  | some (x, due) =>
    if due.toNat ≤ d.time.toNat then
      let x := if bit (d.timerCtl t) 30 then { x with k := x.k + 1 } else { x with base := due }
      ((d.setTimer t { x with cnt := x.cnt + 1 }).countEdge 4 t).triggerChans 1 t
    else d

/-- TIMER_TICK: timer `t` ticks where its next tick is due: it is counted, waits count it, and the channels it triggers
start (R200, R220, R222, R223). -/
def execTimerTick (t : TimerNo) (s : State) : Host.Outcome State Fault Refusal := s.dev! (Dev.timerTicks t)

/-- A write of `DMA_TMR_CTL[t]` has taken effect: in free mode a write of `EN` = 1 sets *T*₀ (R222). -/
def Dev.timerWritten (t : Nat) (d : Dev) : Dev :=
  let w := d.timerCtl t
  if bit w 31 ∧ ¬ bit w 30 then d.setTimer t { d.timer t with base := d.time, series := [], k := 0 }
  else if bit w 31 then d
  else d.setTimer t { d.timer t with series := [], k := 0 }

/-- A write of `DMA_TMR_PER[t]` has taken effect: a free-mode tick that is already past falls at once (R222). -/
def Dev.periodWritten (t : Nat) (d : Dev) : Dev :=
  let w := d.timerCtl t
  let x := d.timer t
  if bit w 31 ∧ ¬ bit w 30 ∧ (x.base + BitVec.ofNat 64 (d.timerPer t)).toNat < d.time.toNat then
    d.setTimer t { x with base := d.time - BitVec.ofNat 64 (d.timerPer t) }
  else d

/-- A frame of canvas `c` starts: the lock-mode timers that follow it take up its ticks, with the values written before
(R222). `first` says that the canvas was not RUNNING before. -/
def Dev.timersFrame (c : Nat) (first : Bool) (d : Dev) : Dev :=
  (List.range 16).foldl (fun d t =>
    let w := d.timerCtl t
    if ¬ (bit w 31 ∧ bit w 30 ∧ bits w 6 0 = c) then d
    else
      let x := d.timer t
      let e := (d.time + (d.reg .dma 0 (DMA_TMR_PHASE + 16 * t)).setWidth 64, BitVec.ofNat 32 (d.timerPer t))
      d.setTimer t (if first ∨ x.canvas ≠ c ∨ x.series.isEmpty then { x with canvas := c, series := [e], k := 0 }
        else { x with series := x.series ++ [e] })) d

end Sys2Proof.Machine
end

