-- ==== Sys2Proof/Machine/Marver.lean ====
section
/-!
DEFINITION. Marver, the 2D engine (R229 to R241). One command carries the data of one row, or with `ENC` of one tile row.
-/
namespace Sys2Proof.Machine

/-- Marver's master ID. -/
def mrvMid : Nat := 65

/-- The registers that START reads: the operation registers and the watermark (R232). -/
def mrvOpRegs : List Nat :=
  [MRV_OP, MRV_SIZE, MRV_SRC_LO, MRV_SRC_HI, MRV_DST_LO, MRV_DST_HI, MRV_META_LO, MRV_META_HI, MRV_SPITCH, MRV_DPITCH,
   MRV_MPITCH, MRV_FILL, MRV_TORG, MRV_GATE, MRV_WMARK]

/-- An operation register as START read it. -/
def Marver.reg (m : Marver) (off : Nat) : Word := FMap.get (fun _ => 0) m.op off
/-- An address as START read it, from its LO register on. -/
def Marver.addr (m : Marver) (off : Nat) : Nat := (quad (m.reg off) (m.reg (off + 4))).toNat
/-- `OP`. -/
def Marver.kind (m : Marver) : Nat := bits (m.reg MRV_OP) 1 0
/-- `XDIR`. -/
def Marver.xdir (m : Marver) : Bool := bit (m.reg MRV_OP) 2
/-- `YDIR`. -/
def Marver.ydir (m : Marver) : Bool := bit (m.reg MRV_OP) 3
/-- `ENC`. -/
def Marver.enc (m : Marver) : Bool := bit (m.reg MRV_OP) 4
/-- `GATE`. -/
def Marver.gated (m : Marver) : Bool := bit (m.reg MRV_OP) 5
/-- `DFMT`. -/
def Marver.dfmt (m : Marver) : Nat := bits (m.reg MRV_OP) 15 12
/-- `SFMT`, which copy takes from `DFMT` (R229). -/
def Marver.sfmt (m : Marver) : Nat := if m.kind = 1 then m.dfmt else bits (m.reg MRV_OP) 11 8
/-- The operation reads a source. -/
def Marver.reads (m : Marver) : Bool := m.kind != 0
/-- *W*. -/
def Marver.w (m : Marver) : Nat := bits (m.reg MRV_SIZE) 15 0
/-- *H*. -/
def Marver.h (m : Marver) : Nat := bits (m.reg MRV_SIZE) 31 16
/-- A pitch. -/
def Marver.pitch (m : Marver) (off : Nat) : Nat := bits (m.reg off) 23 0

/-- The pixel size of a format in bytes (R90). -/
def pixelSize (fmt : Nat) : Nat := match fmt with | 3 => 8 | 4 => 2 | _ => 4

/-- The formats that an operation allows (R229). -/
def Marver.formatsOk (m : Marver) : Bool :=
  match m.kind with
  | 0 | 1 => decide (m.dfmt ≤ 4)
  | 2 => decide (m.sfmt ≤ 2) && decide (m.dfmt ≤ 2)
  | _ => decide (m.sfmt ≤ 4) && (decide (m.dfmt ≤ 2) || m.dfmt = 4)

/-- The `FIELD` check fails (R232). -/
def Marver.fieldBad (m : Marver) : Bool :=
  m.w = 0 || decide (16384 < m.w) || m.h = 0 || decide (16384 < m.h) || !m.formatsOk ||
  (m.enc && (m.kind = 2 || m.dfmt = 3 || m.dfmt = 4 || m.xdir || m.ydir)) ||
  (decide (1 < m.h) &&
    ((m.reads && decide (m.pitch MRV_SPITCH < m.w * pixelSize m.sfmt)) ||
     (!m.enc && decide (m.pitch MRV_DPITCH < m.w * pixelSize m.dfmt))))

/-- The `ALIGN` check fails (R232). -/
def Marver.alignBad (m : Marver) : Bool :=
  (m.reads && decide (m.addr MRV_SRC_LO % pixelSize m.sfmt ≠ 0)) ||
  (if m.enc then
    decide (m.addr MRV_DST_LO % 256 ≠ 0) || decide (m.addr MRV_META_LO % 256 ≠ 0) ||
    decide (m.pitch MRV_DPITCH % 64 ≠ 0) || decide (m.pitch MRV_MPITCH % 64 ≠ 0)
  else decide (m.addr MRV_DST_LO % pixelSize m.dfmt ≠ 0))

/-! ## Rows and the beam gate (R235, R237) -/

/-- Rows that the unit in progress covers: one, or up to eight of a tile row. -/
def Marver.unit (m : Marver) : Nat := if m.enc then min 8 (m.h - m.rows) else 1

/-- The rectangle row in progress: with a tile row, its first. -/
def Marver.line (m : Marver) : Nat := if m.ydir then m.h - 1 - m.rows else min m.rows (m.h - 1)

/-- The frames by which rows are released, as the active lines that have ended and *H*: the reference frame while the canvas
runs, and those that it left when it left RUNNING. -/
def Dev.gateFrames (d : Dev) (c : Nat) : List (Nat × Nat) :=
  let g := d.mrv.gate
  let x := d.canvas c
  if g.wait = some 0 ∧ x.state = .running then (x.linesEnded, x.raster.h) :: g.kept else g.kept

/-- The row in progress is released (R237). A tile row is released by its lowest row. -/
def Dev.gateOpen (d : Dev) : Bool :=
  let m := d.mrv
  let w := m.reg MRV_GATE
  let low := m.line + (m.unit - 1)
  let g := signedOf 16 (bits w 31 16) + ((low + bits w 15 8 : Nat) : Int)
  !m.gated || m.gate.past || decide (g < 0) ||
  (d.gateFrames (bits w 6 0)).any fun f => decide (min g ((f.2 : Int) - 1) < (f.1 : Int))

/-- The next row begins: GATED while it is held, else its requests wait to be issued. -/
def Dev.beginRow (d : Dev) : Dev :=
  let m := { d.mrv with wrote := false, starved := false, waitSince := d.now, issued := none }
  { d with mrv := { m with state := if d.gateOpen then .running else .gated } }

/-- The reference frame at START (R237): the frame in progress, the next one after the end of its last line, or the first
one once the canvas runs. -/
def Dev.gateStart (d : Dev) (c : Nat) : Gate :=
  let x := d.canvas c
  if x.state ≠ .running then {}
  else if x.started ∧ x.nextDue ≤ x.raster.h then { wait := some 0 } else { wait := some 1 }

/-- A frame of canvas `c` starts: the gate's reference frame comes nearer, begins or is over (R237). -/
def Dev.gateFrame (c : Nat) (d : Dev) : Dev :=
  let m := d.mrv
  if bits (m.reg MRV_GATE) 6 0 ≠ c then d
  else
    let g := match m.gate.wait with
      | none => { m.gate with wait := some 0 }
      | some 0 => { m.gate with past := true }
      | some (n + 1) => { m.gate with wait := some n }
    { d with mrv := { m with gate := g } }

/-- GATE_RELEASE: scan-out of the gate canvas has passed the release line of a held row (R237). -/
def execGateRelease (s : State) : Host.Outcome State Fault Refusal :=
  s.dev! fun d => d.when (d.mrv.state = .gated && d.gateOpen) fun d =>
    { d with mrv := { d.mrv with state := .running, waitSince := d.now } }

/-! ## Starting and ending an operation (R232, R235, R236, R239, R240) -/

/-- The end message (R236). -/
def Dev.mrvEndMessage (d : Dev) : Dev :=
  let w := d.reg .mrv 0 MRV_IRQ
  if bit w 6 then d.msix (bits w 31 26) (bits w 5 0) else d

/-- The operation ends, with an error code or 0 (R235, R236, R239). -/
def Dev.mrvEnd (code : Nat) (d : Dev) : Dev :=
  let m := d.mrv
  { d with mrv := { m with
      state := .idle, err := BitVec.ofNat 8 code, starved := false
      evt := m.evt ||| (if code = 0 then 1 else 5)
      ops := if code = 0 then m.ops + 1 else m.ops } }.mrvEndMessage

/-- An error of R239: the request address is captured and Marver-error fires. -/
def Dev.mrvFails (code a : Nat) (d : Dev) : Dev :=
  ({ d with mrv := { d.mrv with failAddr := BitVec.ofNat 64 a } }.fire 448 0
    (dbits 0 (a % 2 ^ 64) ||| dbits 64 code)).mrvEnd code

/-- `MRV_CTL.START` written 1 (R232). -/
def Dev.startMarver (d : Dev) : Dev :=
  let m := d.mrv
  if m.state ≠ .idle then { d with mrv := { m with startErr := true } }
  else
    let m := { m with
      err := 0, startErr := false,
      op := mrvOpRegs.foldl (fun l o => FMap.put (fun _ => 0) l o (d.reg .mrv 0 o)) [] }
    let d := { d with mrv := m }
    if m.fieldBad then d.mrvEnd 1
    else if m.alignBad then d.mrvEnd 2
    else { d with mrv := { m with rows := 0, wmarked := false, gate := d.gateStart (bits (m.reg MRV_GATE) 6 0) } }.beginRow

/-- The address of destination pixel (c, r), or of the tile that holds it. -/
def Marver.dstAddr (m : Marver) (c r : Nat) : Nat :=
  if m.enc then
    tiledAddr (m.addr MRV_DST_LO) (m.pitch MRV_DPITCH) (8 * bits (m.reg MRV_TORG) 15 0 + c)
      (8 * bits (m.reg MRV_TORG) 31 16 + r)
  else m.addr MRV_DST_LO + r * m.pitch MRV_DPITCH + c * pixelSize m.dfmt

/-- The address of source pixel (c, r). -/
def Marver.srcAddr (m : Marver) (c r : Nat) : Nat :=
  m.addr MRV_SRC_LO + r * m.pitch MRV_SPITCH + c * pixelSize m.sfmt

/-- The address of the first request of the row in progress. -/
def Marver.firstAddr (m : Marver) : Nat :=
  let c := if m.xdir then m.w - 1 else 0
  if m.reads then m.srcAddr c m.line else m.dstAddr c m.line

/-- `MRV_CTL.ABORT` written 1 (R240): the row in progress completes first; a held row is not written. -/
def Dev.abortMarver (d : Dev) : Dev :=
  match d.mrv.state with
  | .idle | .aborting => d
  | .gated => d.mrvFails 8 (d.mrv.dstAddr 0 d.mrv.line)
  | .running => { d with mrv := { d.mrv with state := .aborting } }

/-! ## Pixels (R229 to R231) -/

/-- Components and alpha of a stored unit, normalised, half-floats kept within [0, 1] (R230). A source without alpha has
alpha 1.0. -/
def unitPx (fmt v : Nat) : Fx × Fx × Fx × Fx :=
  let (cs, al) := unitCodes fmt v
  let one := fun e : Nat × Nat => if fmt = 3 then Fx.clamp 0 Fx.one (Fx.ofHalfBits e.1) else Fx.ofCode e.2 e.1
  let at' := fun i => one (cs.getD i (0, 8))
  (at' 0, at' 1, at' 2, if al.2 = 0 then Fx.one else one al)

/-- ⌊*v* × (2ⁿ − 1) + 0.5⌋ (R230). -/
def quantise (n : Nat) (v : Fx) : Nat := ((2 * v * (2 ^ n - 1 : Nat) + Fx.one) / (2 * Fx.one)).toNat

/-- A pixel stored in format `fmt` (R230). -/
def storeUnit (fmt : Nat) (p : Fx × Fx × Fx × Fx) : Nat :=
  let (r, g, b, a) := p
  match fmt with
  | 1 => quantise 8 b + 2 ^ 8 * quantise 8 g + 2 ^ 16 * quantise 8 r + 2 ^ 24 * quantise 8 a
  | 2 => quantise 10 r + 2 ^ 10 * quantise 10 g + 2 ^ 20 * quantise 10 b + 2 ^ 30 * quantise 2 a
  | 4 => quantise 5 b + 2 ^ 5 * quantise 6 g + 2 ^ 11 * quantise 5 r
  | _ => quantise 8 r + 2 ^ 8 * quantise 8 g + 2 ^ 16 * quantise 8 b + 2 ^ 24 * quantise 8 a

/-- Blend-copy of a source pixel over a destination pixel, in 32-bit float, kept within [0, 1] (R231). -/
def mrvBlend (galpha : Nat) (straight : Bool) (s t : Fx × Fx × Fx × Fx) : Fx × Fx × Fx × Fx :=
  let g := toFloat ((galpha : Int) * 2 ^ 149) 65535
  let (sr, sg, sb, sa) := s
  let (tr, tg, tb, ta) := t
  let ag := Fx.mul sa g
  let rest := toFloat (Fx.one - ag) 1
  let mix := fun cs cd =>
    Fx.clamp 0 Fx.one (Fx.add (Fx.mul (if straight then Fx.mul cs sa else cs) g) (Fx.mul cd rest))
  (mix sr tr, mix sg tg, mix sb tb, Fx.clamp 0 Fx.one (Fx.add ag (Fx.mul ta rest)))

/-- The stored unit that pixel (c, r) takes, from memory as it stands (R229, R234), or the error of a read. -/
def Dev.mrvPixel (d : Dev) (c r : Nat) : Except (Nat × Nat × Nat) Nat :=
  let m := d.mrv
  if ¬ m.reads then
    .ok (if m.dfmt = 3 then (quad (m.reg MRV_FILL) (m.reg MRV_TORG)).toNat
      else (m.reg MRV_FILL).toNat % 256 ^ pixelSize m.dfmt)
  else
    let a := m.srcAddr c r
    match d.readFor mrvMid a (pixelSize m.sfmt) .ok with
    | .error e => .error (e, a, pixelSize m.sfmt)
    | .ok bs =>
      let v := leNat bs
      if m.kind = 1 then .ok v
      else if m.kind = 3 then .ok (storeUnit m.dfmt (unitPx m.sfmt v))
      else
        let b := m.dstAddr c r
        match d.readFor mrvMid b (pixelSize m.dfmt) .ok with
        | .error e => .error (e, b, pixelSize m.dfmt)
        | .ok cs =>
          let w := m.reg MRV_OP
          .ok (storeUnit m.dfmt (mrvBlend (bits w 31 16) (bit w 6) (unitPx m.sfmt v) (unitPx m.dfmt (leNat cs))))

/-- The columns of a row in scan order (R234). -/
def Marver.cols (m : Marver) : List Nat := if m.xdir then (List.range m.w).reverse else List.range m.w

/-- Pixels of a linear row one at a time, up to the first error (R234, R239). -/
def Dev.mrvRow (r : Nat) : List Nat → Dev → Dev × Option (Nat × Nat × Nat × Bool)
  | [], d => (d, none)
  | c :: cs, d =>
    match d.mrvPixel c r with
    | .error (e, a, k) => (d, some (e, a, k, false))
    | .ok v =>
      let n := pixelSize d.mrv.dfmt
      let b := d.mrv.dstAddr c r
      match d.writeErr mrvMid b n with
      | some e => (d, some (e, b, n, true))
      | none => Dev.mrvRow r cs (d.store b (leBytes n v))

/-- The units of pixels listed as (column, row), or the first error. -/
def Dev.mrvPixels (d : Dev) : List (Nat × Nat) → Except (Nat × Nat × Nat) (List Nat)
  | [] => .ok []
  | (c, r) :: rest => match d.mrvPixel c r with
    | .error e => .error e
    | .ok v => match d.mrvPixels rest with
      | .error e => .error e
      | .ok vs => .ok (v :: vs)

/-- A tile row: its pixels are read, then each tile's sectors and header byte are written (R233). -/
def Dev.mrvTileRow (d : Dev) : Dev × Option (Nat × Nat × Nat × Bool) :=
  let m := d.mrv
  let j := m.rows / 8
  let px := (List.range m.unit).flatMap fun y => (List.range m.w).map fun c => (c, 8 * j + y)
  match d.mrvPixels px with
  | .error (e, a, k) => (d, some (e, a, k, false))
  | .ok vs =>
    let at' := fun u v => vs.getD ((v - 8 * j) * m.w + u) 0
    let out := (List.range (ceilDiv m.w 8)).flatMap fun i =>
      tileWrites (m.addr MRV_DST_LO) (m.pitch MRV_DPITCH) (m.addr MRV_META_LO) (m.pitch MRV_MPITCH)
        (bits (m.reg MRV_TORG) 15 0 + i) (bits (m.reg MRV_TORG) 31 16 + j) (tileWords m.w m.h i j at')
    match d.writeAll mrvMid out with
    | (d, some (e, a, k)) => (d, some (e, a, k, true))
    | (d, none) => (d, none)

/-- The spans that a linear row reads and writes, and those of a tile row: its pixel rows, and its writes but for their
bytes. -/
def Marver.spans (m : Marver) : List (Nat × Nat) × List (Nat × Nat) :=
  let w := fun fmt => m.w * pixelSize fmt
  let src := if m.reads then (List.range m.unit).map fun y => (m.srcAddr 0 (m.line + y), w m.sfmt) else []
  if m.enc then
    let j := m.rows / 8
    (src, (List.range (ceilDiv m.w 8)).flatMap fun i =>
      [(m.dstAddr (8 * i) (8 * j), 256),
       (m.addr MRV_META_LO + (bits (m.reg MRV_TORG) 31 16 + j) * m.pitch MRV_MPITCH + bits (m.reg MRV_TORG) 15 0 + i, 1)])
  else
    let dst := (m.dstAddr 0 m.line, w m.dfmt)
    (if m.kind = 2 then src ++ [dst] else src, [dst])

/-- The requests of the row in progress are not held up in bank queues (R238, R271). -/
def Dev.mrvServed (d : Dev) : Bool :=
  let s := d.mrv.spans
  (s.1 ++ s.2).all fun e => d.served 4 e.1 e.2

/-- What the checks of the atoms that a row reads come to, once all of it is read and written; the writes of a tile row are
checked one by one (R269). -/
def Dev.mrvNotes (d : Dev) : Dev :=
  let s := d.mrv.spans
  let d := s.1.foldl (fun d e => d.noteRead mrvMid false e.1 e.2) d
  if d.mrv.enc then d else s.2.foldl (fun d e => d.noteRead mrvMid true e.1 e.2) d

/-- A row is in progress whose data is still to come. -/
def Marver.waits (m : Marver) : Bool := (m.state = .running || m.state = .aborting) && !m.wrote

/-- What became of a row: an error ends the operation, else the row is written (R239). -/
def mrvRowEnds : Dev × Option (Nat × Nat × Nat × Bool) → Dev
  | (d, some (e, a, k, w)) => (d.noteFailure e mrvMid w a k).mrvFails e a
  | (d, none) => { d.mrvNotes with mrv := { d.mrv with wrote := true, starved := false } }

/-- The address of the request that fails where the response does not say it: the last one issued, else the row's first. -/
def Marver.requestAddr (m : Marver) : Nat := (m.issued.map (·.2)).getD m.firstAddr

/-- The responses for the row in progress arrive. -/
def Dev.mrvAnswered (r : Resp) (d : Dev) : Dev :=
  if ¬ d.mrv.waits then d.lateResponse 320
  else d.when d.mrvServed fun d =>
    match r with
    | .error => d.mrvFails 7 d.mrv.requestAddr
    | .ok => mrvRowEnds (if d.mrv.enc then d.mrvTileRow else Dev.mrvRow d.mrv.line d.mrv.cols d)

/-- MRV_RESPONSE: the responses for the row in progress arrive and the row is written, or an error ends the operation
(R230, R231, R234, R239). -/
def execMrvResponse (r : Resp) (s : State) : Host.Outcome State Fault Refusal := s.dev! (Dev.mrvAnswered r)

/-- The watermark (R236). -/
def Dev.mrvWatermark (d : Dev) : Dev :=
  let m := d.mrv
  let mark := bits (m.reg MRV_WMARK) 14 0
  if mark = 0 ∨ m.wmarked ∨ m.rows < mark then d
  else
    let d := { d with mrv := { m with wmarked := true, evt := m.evt ||| 2 } }
    let w := d.reg .mrv 0 MRV_IRQ
    if bit w 14 then d.msix (bits w 31 26) (bits w 13 8) else d

/-- MRV_ROW_COMPLETE: every write of the row in progress is accepted; the watermark comes before the end (R235, R236,
R240). -/
def execMrvRowComplete (s : State) : Host.Outcome State Fault Refusal :=
  s.dev! fun d => d.when ((d.mrv.state = .running || d.mrv.state = .aborting) && d.mrv.wrote) fun d =>
    let abort := d.mrv.state = .aborting
    let m : Marver := { d.mrv with rows := d.mrv.rows + d.mrv.unit, wrote := false }
    let d := { d with mrv := m }.mrvWatermark
    if m.h ≤ m.rows then (if abort then d.mrvFails 8 (m.dstAddr 0 (m.h - 1)) else d.mrvEnd 0)
    else if abort then d.mrvFails 8 (m.dstAddr 0 m.line)
    else d.beginRow

/-- MRV_STARVED: requests have waited 10 µs without a grant (R238). -/
def execMrvStarved (s : State) : Host.Outcome State Fault Refusal :=
  s.dev! fun d => d.when (d.mrv.waits && decide (d.mrv.waitSince + 10000 ≤ d.now)) fun d =>
    { d with mrv := { d.mrv with starved := true } }

/-- MRV_TIMEOUT: a request that was issued has had no response for `DMA_TMO`. A request that waits to be issued has no time
limit (R238, R239). -/
def execMrvTimeout (s : State) : Host.Outcome State Fault Refusal :=
  s.dev! fun d =>
    match d.mrv.issued with
    | some (t, a) => d.when (d.mrv.waits && decide (t + d.requestTimeout ≤ d.now))
        fun d => (d.freeTag 320 mrvMid).mrvFails 5 a
    | none => d

/-- A Marver request for address `a` is granted and issued: none waits longer (R238, R239). -/
def Dev.mrvGranted (a : Nat) (d : Dev) : Dev :=
  { d with mrv := { d.mrv with starved := false, waitSince := d.now, issued := some (d.now, a) } }

end Sys2Proof.Machine
end

