-- ==== Sys2Proof/Machine/Witness.lean ====
section
/-!
DEFINITION. Witness regions (R243, R253 to R259): writes of the table, frame starts and compare points.
-/
namespace Sys2Proof.Machine

/-- The word at offset 4 × `i` of a region as it stands once pending writes take effect. -/
def Region.asRead (r : Region) (i : Nat) : Word := (FMap.get (fun _ => none) r.next i).getD (r.at i)

/-- The bits of the words at offsets 0x00 to 0x24 that are not reserved (R253). -/
def regionMask (i : Nat) : Word :=
  match i with
  | 0 => 0x01FF7FFF
  | 3 => 0
  | _ => 0xFFFFFFFF

/-- The first 64-bit group of region `i` in the Crucible window. -/
def regionGroup (i : Nat) : Nat := (0x500000 + 64 * i) / 8

/-- Some group of region `i` is uncorrectable. -/
def Dev.regionBad (d : Dev) (i : Nat) : Bool := (List.range 8).any fun k => d.cru.badGroups.contains (regionGroup i + k)

/-- Region `i` is found uncorrectable: it is no longer compared (R258). -/
def Dev.invalidate (i : Nat) (d : Dev) : Dev :=
  let r := d.region i
  if r.invalid then d
  else (d.setRegion i { r with invalid := true, armed := false, fresh := [] }).fire 484 i (dbits 0 r.canvas)

/-- A word of a region's entry is written anew: once both words of an uncorrectable group are, the group is whole again
(R258, R300). -/
def Dev.freshen (i w : Nat) (d : Dev) : Dev :=
  let r := d.region i
  let k := regionGroup i + w / 2
  if ¬ d.cru.badGroups.contains k then d
  else if r.fresh.contains (w / 2 * 2 + (1 - w % 2)) then
    let d := d.setRegion i { r with fresh := r.fresh.filter fun x => x / 2 ≠ w / 2 }
    { d with cru := { d.cru with badGroups := d.cru.badGroups.filter fun g => g ≠ k } }
  else d.setRegion i { r with fresh := if r.fresh.contains w then r.fresh else w :: r.fresh }

/-- A write of a word of the witness table by the PF (R254, R258). Device-written words ignore it. -/
def Dev.writeWitness (i w : Nat) (v : Word) (d : Dev) : Dev :=
  let r := d.region i
  let locked := d.flg .cvu 0 CVU_WCTL 1 && bit (r.asRead 0) 0
  if locked ∧ w ≠ 10 ∧ w ≠ 11 then d
  else
    let d := d.freshen i w
    let r := d.region i
    if w ≤ 9 then
      d.setRegion i { r with
        next := FMap.put (fun _ => none) r.next w (some (v &&& regionMask w))
        invalid := r.invalid && w != 0 }
    else if w = 10 then d.setRegion i { r with heldLo := some v }
    else if w = 11 then d.setRegion i { r with expect := quad (r.heldLo.getD (lo32 r.expect)) v, heldLo := none }
    else d

/-- The conditions of R255 for a region, but for those of its fields that a frame start fixes. -/
def Dev.checked (d : Dev) (c i : Nat) : Bool :=
  let r := d.region i
  d.flg .cvu 0 CVU_WCTL 0 && r.valid && !r.cfg && !d.regionGeom r && !r.invalid && (d.canvas c).state = .running &&
  !(d.senders c).isEmpty

/-- Witness-mismatch fires where `FAIL` of region `i` has begun to read 1 (R259, R338). -/
def Dev.noteFail (i : Nat) (before : Bool) (d : Dev) : Dev :=
  let r := d.region i
  if r.fail && !before then d.fire 483 i (dbits 0 r.last.toNat ||| dbits 64 r.expect.toNat) else d

/-- A frame of canvas `c` starts for region `i`: pending writes take effect, its entry is read, and it is compared in this
frame where the conditions hold (R254, R255, R258). -/
def Dev.regionFrame (c i : Nat) (d : Dev) : Dev :=
  let r := d.region i
  if bits (r.asRead 0) 14 8 ≠ c then d
  else
    let was := r.fail
    let r := { r with words := r.next.foldl (fun m e => FMap.put (fun _ => 0) m e.1 (r.asRead e.1)) r.words, next := [] }
    let d := (d.setRegion i r).noteFail i was
    let d := if d.regionBad i then d.invalidate i else d
    d.setRegion i { d.region i with armed := d.checked c i }

/-- A frame of canvas `c` starts for every region. -/
def Dev.regionsFrame (c : Nat) (d : Dev) : Dev := (List.range 4096).foldl (fun d i => d.regionFrame c i) d

/-- The words of a region's rectangle in raster order, from the lines sent in a frame. -/
def Region.cut (r : Region) (lines : List (List Word)) : List Word :=
  let x := bits (r.at 1) 15 0
  let y := bits (r.at 1) 31 16
  let w := bits (r.at 2) 15 0
  let h := bits (r.at 2) 31 16
  ((lines.drop y).take h).flatMap fun l => (l.drop x).take w

/-- The check value of region `i` over words (R242, R243, R255). -/
def Region.value (r : Region) (i frame : Nat) (ws : List Word) : Nat :=
  let pq := fun k => (quad (r.at k) (r.at (k + 1))).toNat
  let w0 := r.at 0
  let p : CrcParams := { w := r.width, poly := pq 4, init := pq 6, xor := pq 8, refin := bit w0 23, refout := bit w0 24 }
  let pre := match r.fold with
    | 1 => foldPrefix i 0
    | 2 => foldPrefix i frame
    | _ => []
  p.crc (pre ++ wordsBytes ws)

/-- The mismatch notice of region `i` (R208, R256). -/
def Region.notice (r : Region) (i : Nat) (tb exp : Quad) : Notice :=
  { kind := 4, w1 := place 22 16 r.canvas ||| place 11 0 i, tb := tb, w4 := lo32 exp, w5 := hi32 exp,
    w6 := lo32 r.last, w7 := hi32 r.last }

/-- The compare point of frame `frame` of canvas `c` for region `i` (R255 to R257). -/
def Dev.compareRegion (c frame : Nat) (lines : List (List Word)) (i : Nat) (d : Dev) : Dev :=
  let r := d.region i
  if r.canvas ≠ c then d
  else if ¬ (r.armed ∧ d.checked c i) then d.skipRegion c i
  else
    let res := BitVec.ofNat 64 (r.value i frame (r.cut lines))
    let exp := BitVec.ofNat 64 (r.expect.toNat % 2 ^ r.width)
    let was := r.fail
    let same := r.learn || res = exp
    let r := { r with
      armed := false, skip := false, last := res, frm := BitVec.ofNat 16 frame, seq := r.seq + 1
      run := if same then 0 else min 255 (r.run + 1) }
    let r := if r.learn then
        { r with expect := res, words := FMap.put (fun _ => 0) r.words 0 (r.at 0 &&& 0xFFFFFFFD) }
      else r
    let d := d.setRegion i r
    if r.fail && !was then
      (d.fire 483 i (dbits 0 res.toNat ||| dbits 64 r.expect.toNat)).notice 0 (r.notice i d.time exp)
    else d

/-- The compare point for every region. -/
def Dev.compareRegions (c frame : Nat) (lines : List (List Word)) (d : Dev) : Dev :=
  (List.range 4096).foldl (fun d i => d.compareRegion c frame lines i) d

/-- `CVU_WCTL.EN` is written 0: no region has been checked throughout the frame in progress (R255). -/
def Dev.disarmRegions (d : Dev) : Dev :=
  { d with regions := d.regions.map fun e => (e.1, { e.2 with armed := false }) }

/-- `CVU_WSTAT`. -/
def Dev.witnessStat (d : Dev) : Word :=
  place 28 16 (d.regions.filter fun e => e.2.invalid).length ||| place 12 0 (d.regions.filter fun e => e.2.fail).length

end Sys2Proof.Machine
end

