-- ==== Sys2Proof/Machine/Frames.lean ====
section
/-!
DEFINITION. The frame: lines that fall due (R153), frame starts (R147) and the end of active video (R183), with all that
happens at them.
-/
namespace Sys2Proof.Machine

/-- Canvas-underrun fires where its live cause begins (R167, R338). `y` is the absent line. -/
def Dev.watchUnderrun (c y : Nat) (k : Dev → Dev) (d : Dev) : Dev :=
  let before := (d.canvas c).underrun
  let d := k d
  let x := d.canvas c
  if x.underrun && !before then d.fire 352 c (dbits 0 y ||| dbits 16 (x.scanFrame % 65536)) else d

/-- Every port that sends the video of canvas `c` counts an absent line (R153). -/
def Dev.countAbsent (ns : List Nat) (d : Dev) : Dev :=
  ns.foldl (fun d n => d.setPort n { d.port n with undr := (d.port n).undr + 1 }) d

/-- The words of the line due, where it is present in the scan buffer (R152, R153). -/
def Canvas.lineAt (x : Canvas) (f y : Nat) : Option (List Word) :=
  match FMap.get (fun _ => none) x.scan (scanKey x.raster.d f y) with
  | some (g, z, ws) => if g = f ∧ z = y then some ws else none
  | none => none

/-! ## Lines (R153) -/

/-- The line whose read falls due next on canvas `c`, none where none does. -/
def Dev.lineToCome (d : Dev) (c : Nat) : Option Nat :=
  let x := d.canvas c
  match x.state with
  | .starting =>
    if x.gen ∧ ¬ x.relinkAt ∧ x.nextDue = 0 ∧ d.linesPassed c x.raster.lead 256 then some 0 else none
  | .running =>
    if x.started then
      if x.nextDue < x.raster.h then some x.nextDue else if x.nextDue = x.raster.h then none else some 0
    else none
  | .off | .relink | .draining => none

/-- The read of line `y` falls due: the line is read, or is found absent (R153). -/
def Dev.lineFalls (c y : Nat) (d : Dev) : Dev :=
  let x := d.canvas c
  let next := x.state = .running && y = 0
  let x := if next then { x with started := false, lines := [] } else x
  let l := x.lineAt x.dueFrame y
  let x := { x with
    lines := x.lines ++ [l], nextDue := y + 1
    absentNow := x.absentNow || (x.started && l.isNone) }
  let d := d.setCanvas c x
  if l.isNone then d.countAbsent (d.senders c) else d

/-- LINE_DUE: the read of the next active line of canvas `c` falls due (R153). -/
def execLineDue (c : CanvasNo) (s : State) : Host.Outcome State Fault Refusal :=
  s.dev! fun d =>
    match d.lineToCome c with
    | some y => d.watchUnderrun c y (Dev.lineFalls c y)
    | none => d

/-! ## Frame starts (R147) -/

/-- The next frame of canvas `c` falls to start: the read of its line 0 has been due, and frame 0 starts (*D* + *V*ₜ − *H*) line
periods after the generator (R166). -/
def Dev.frameDue (d : Dev) (c : Nat) : Bool :=
  let x := d.canvas c
  match x.state with
  | .starting => x.gen && x.nextDue = 1 && d.linesPassed c x.raster.lead 0
  | .running => !x.started && x.nextDue = 1
  | .off | .relink | .draining => false

/-- The frame and its raster begin, with the settings in effect (R147, R160). -/
def Dev.beginFrame (c : Nat) (d : Dev) : Dev :=
  let x := d.canvas c
  let first := x.state = .starting
  d.setCanvas c { x with
    state := .running, started := true, scanFrame := if first then 0 else x.scanFrame + 1
    fsNow := d.now, fsTb := d.time, src := x.nextSrc
    raster := d.rasterOf (d.cregs c)
    absentPrev := !first && x.absentNow, absentNow := x.lines.contains none
    lock := { x.lock with stretch := 0 } }

/-- The phase measurement of the frame, and the length of the frame that it begins, with the trim and the lines that `ACQ` adds
(R156, R157; DEDUCED, notes/assumptions/13.md). -/
def Dev.phaseFrame (c : Nat) (d : Dev) : Dev :=
  let d := d.measureLock c
  let x := d.canvas c
  let r := { x.raster with trim := x.lock.trim }
  d.setCanvas c { x with period := r.linesNs (r.vt + x.lock.stretch), raster := r }

/-- The demoted notice (R79, R208). -/
def demotedNotice (c : Nat) (k : ModeChange) (tb : Quad) : Notice :=
  { kind := 3, queue := if k.cause = 0 then k.queue else 0, epoch := if k.cause = 0 then k.epoch else 0, reg := k.reg
    w1 := place 26 24 k.cause ||| flag 23 (!k.mode.par) ||| place 22 16 c |||
      place 15 0 (if k.cause = 0 then k.txn.toNat else 0)
    tb := tb }

/-- Scan-out reads in a new mode from this frame start where a decided change has been latched and its source is the one
now read (R75, R79). The demoted notice is written here: R79 and R75 have it carry this frame start, where event 3 of R82 lists
it with the decisions (DEDUCED, notes/assumptions/14.md). -/
def Dev.modeFrame (c : Nat) (first : Bool) (d : Dev) : Dev :=
  let x := d.canvas c
  match x.change with
  | none => d
  | some k =>
    if ¬ k.latched ∨ k.mode.par = (x.src = .direct) then d
    else
      let tell := first || k.mode.par != x.mode.par
      let ldg := { x.ldg with tbMode := d.time, seq := x.ldg.seq + 1 }
      let d := d.setCanvas c { x with mode := k.mode, ldg := ldg, change := none }
      if tell then d.notice 0 (demotedNotice c k d.time) else d

/-- The ports of canvas `c` at a frame start: those that begin video send line 0, repeated where it is absent (R28, R125,
R153, R185). -/
def Dev.portsAtFrame (c : Nat) (first : Bool) (d : Dev) : Dev :=
  let d := if first then
      (d.portsOf c).foldl (fun d n => d.setPort n { d.port n with sent := none }) d
    else d
  let before := d.senders c
  let d := d.portsFrame c
  if (d.canvas c).lines.contains none then d.countAbsent ((d.senders c).filter fun n => !before.contains n) else d

/-- `FSYNC_OUT` rises for a frame start of its source canvas (R158). -/
def Dev.fsyncFrame (c : Nat) (d : Dev) : Dev :=
  let w := d.reg .cnv 0 CNV_SYNC
  if bit w 31 ∧ bits w 6 0 = c then { d with pins := { d.pins with fsyncOut := true, fsyncAt := d.now } } else d

/-- The rotation of the understudies advances at a frame start of its reference canvas (R133). -/
def Dev.rotateFrame (c : Nat) (d : Dev) : Dev :=
  if d.fld .cmp 0 CMP_UND_CTL 6 0 = c ∧ d.checking then d.rotate else d

/-- What a frame start does to scan-out and to frame locks: a first frame ends the holdover of canvases that follow it, and
its phase is measured (R147, R155, R157). -/
def Dev.frameLocks (c : Nat) (first : Bool) (d : Dev) : Dev :=
  let d := d.watchUnderrun c 0 (Dev.beginFrame c)
  let d := if first then d.masterBack c else d
  (d.phaseFrame c).reference 3 c

/-- What a frame start does to the mode of the canvas and to the ports that show it (R75, R159). -/
def Dev.frameShows (c : Nat) (first : Bool) (d : Dev) : Dev := (d.modeFrame c first).portsAtFrame c first

/-- What follows a frame start: `FSYNC_OUT`, Marver's gate, timers, witness regions, the rotation and waiting queues
(R158, R222, R237, R254, R133, R200). -/
def Dev.frameFollows (c : Nat) (first : Bool) (d : Dev) : Dev :=
  let d := ((d.fsyncFrame c).gateFrame c).timersFrame c first
  ((d.regionsFrame c).rotateFrame c).countEdge 0 c

/-- A frame of canvas `c` starts. -/
def Dev.frameStarts (c : Nat) (d : Dev) : Dev :=
  let first := (d.canvas c).state = .starting
  let d := ((d.frameLocks c first).frameShows c first).frameFollows c first
  d.vsync c ((d.canvas c).scanFrame % 65536)

/-- FRAME_START: the first pixel clock of active line 0 (R147). -/
def execFrameStart (c : CanvasNo) (s : State) : Host.Outcome State Fault Refusal :=
  s.dev! fun d => d.when (d.frameDue c) (Dev.frameStarts c)

/-! ## The end of active video (R183, R256) -/

/-- Event 2 of a relink of canvas `c` (R161): its ports are to train, its scan buffer is flushed and returned, and its frames
are numbered afresh. Staging may be had from the blocks returned (R299). -/
def Dev.enterRelink (c : Nat) (d : Dev) : Dev :=
  let running := (d.canvas c).state = .running
  let d := if running then d.leaveRunning c else d
  let x := d.canvas c
  let d := d.setCanvas c { x with
    state := .relink, relinkAt := false, gen := false, started := false, nextDue := 0, fsNow := d.now, fsTb := d.time
    allocated := false, blocks := 0, scan := [], lines := []
    kBase := if running then x.kBase + x.scanFrame + 1 else x.kBase }
  let d := (d.portsOf c).foldl (fun d n => d.awaitSettle n) d
  ((d.idlePorts c).killBands c none).stagingFreed

/-- Active line *H* − 1 of canvas `c` ends. -/
def Dev.videoEnds (c : Nat) (d : Dev) : Dev :=
  let x := d.canvas c
  let ns := d.senders c
  let d := d.setCanvas c { x with nextDue := x.raster.h + 1 }
  let lines := sentLines x.raster.w ((ns.head?.map d.port).bind Port.sent) x.lines
  let d := ns.foldl (fun d n => d.portCrc n x.scanFrame x.raster.w x.lines) d
  let d := d.compareRegions c x.scanFrame lines
  let d := ns.foldl (fun d n => d.portVideoEnd n) d
  if x.relinkAt then d.enterRelink c else d

/-- The end of line *H* − 1 of the notional frame −1, *D* lines after its generator began, is where a canvas enters RELINK for a
change latched in STARTING: frame 0 in the old mode is not shown (R161, R166; DEDUCED, notes/assumptions/14.md). -/
def Dev.relinksEarly (d : Dev) (c : Nat) : Bool :=
  let x := d.canvas c
  x.state = .starting && x.gen && x.relinkAt && d.linesPassed c x.raster.d 0

/-- ACTIVE_VIDEO_END: the end of active line *H* − 1, the compare point of the frame (R183, R256). -/
def execActiveVideoEnd (c : CanvasNo) (s : State) : Host.Outcome State Fault Refusal :=
  s.dev! fun d =>
    let x := d.canvas c
    if d.relinksEarly c then d.enterRelink c
    else d.when (x.state = .running && x.started && x.nextDue = x.raster.h) (Dev.videoEnds c)

end Sys2Proof.Machine
end

