-- ==== Sys2Proof/Machine/Lehr.lean ====
section
/-!
DEFINITION. Byte lanes and Lehr's live calibration (R281 to R293): eyes and their windows, grants, overrides and retrains.
-/
namespace Sys2Proof.Machine

/-- The lanes of ganged channel `g`, in ascending order: lane ℓ = 4 × site + channel (R281). -/
def gangLanes (g : Nat) : List Nat := (List.range 18).map fun s => 4 * s + g % 4

/-- `MCT_LANE_CTL.FREEZE` of a lane. -/
def Dev.frozen (d : Dev) (l : Nat) : Bool := d.flg .site (l / 4) (MCT_LANE_CTL + 0x20 * (l % 4)) 0

/-- `LHR_CFG.MIN_EYE`. -/
def Dev.minEye (d : Dev) : Nat := d.fld .lhr 0 LHR_CFG 21 16

/-- The lane that retrains in ganged channel `g`, if any. -/
def Dev.retrainingLane (d : Dev) (g : Nat) : Option Nat := (gangLanes g).find? fun l => (d.lane l).state = .retraining

/-- The lowest lane that waits to retrain in ganged channel `g`. -/
def Dev.waitingLane (d : Dev) (g : Nat) : Option Nat := (gangLanes g).find? fun l => (d.lane l).state = .waiting

/-- Where no lane of ganged channel `g` retrains, the lowest one that waits starts (R290). -/
def Dev.nextRetrain (g : Nat) (d : Dev) : Dev :=
  match d.retrainingLane g, d.waitingLane g with
  | none, some l => d.setLane l { d.lane l with state := .retraining }
  | none, none | some _, _ => d

/-- A retrain of a TRACKING lane is requested with a cause: 1 eye, 2 drift, 3 driver (R290). -/
def Dev.requestRetrain (l cause : Nat) (d : Dev) : Dev :=
  let x := d.lane l
  if x.state ≠ .tracking then d
  else
    let d := d.setLane l { x with state := .waiting, cause := BitVec.ofNat 2 cause, sweep := {}, found := none,
                                  foundWr := false, grantRd := 0, grantWr := 0 }
    (d.fire 544 l (dbits 0 cause)).nextRetrain (l % 4)

/-- A retrain with cause 1 or 2, which acts only with `RT_EN` and without `FREEZE` (R290). -/
def Dev.autoRetrain (l cause : Nat) (d : Dev) : Dev :=
  if d.flg .lhr 0 LHR_CTL 2 && !d.frozen l then d.requestRetrain l cause else d

/-- An offset kept within 1 to 63 steps. -/
def clampEye (n : Int) : Nat := (max 1 (min 63 n)).toNat

/-- How a side's offset is judged by its mismatches (R286). -/
def Dev.judge (d : Dev) (offset mismatches : Nat) : Nat :=
  if d.fld .lhr 0 LHR_CFG 15 8 ≤ mismatches then clampEye ((offset : Int) - 1)
  else if mismatches = 0 then clampEye ((offset : Int) + 1)
  else offset

/-- A window of an eye has ended: an eye below `MIN_EYE` asks for a retrain (R290). -/
def Dev.eyeWindow (l width : Nat) (d : Dev) : Dev := if width < d.minEye then d.autoRetrain l 1 else d

/-! ## Sweeps (R282, R291) -/

/-- The widest run of passing values of a sweep, as its first value and its length; of runs of equal length the lowest. -/
def widestRun (l : List Bool) : Nat × Nat :=
  (l.zipIdx.foldl (fun (st : (Nat × Nat) × Nat) e =>
    let n := if e.1 then st.2 + 1 else 0
    (if st.1.2 < n then (e.2 + 1 - n, n) else st.1, n)) ((0, 0), 0)).1

/-- The centre of the widest passing run of a sweep: of two middle values the lower. A sweep in which no value passes leaves
the setting `keep` (DESIGN CHOICE, notes/assumptions/18.md). -/
def sweepCentre (keep : Nat) (l : List Bool) : Nat :=
  let r := widestRun l
  if r.2 = 0 then keep else r.1 + (r.2 - 1) / 2

/-- A setting of a delay and the two thresholds, at which a shadow sampler samples. -/
structure Trial where
  dly : Nat
  lo : Nat
  hi : Nat
  deriving DecidableEq, Repr

/-- The place of the read probe on a side, held at the limits 0 and 127 (R286). -/
def Lane.probeAt (x : Lane) (right : Bool) : Nat :=
  if right then min 127 (x.cur.rdDly.toNat + x.rdR) else x.cur.rdDly.toNat - x.rdL

/-- The read delay that the sweep has chosen. -/
def Lane.sweptRd (x : Lane) : Nat := sweepCentre x.cur.rdDly.toNat x.sweep.rd
/-- The lower threshold that the sweep has chosen. -/
def Lane.sweptLo (x : Lane) : Nat := sweepCentre x.cur.thrLo.toNat x.sweep.lo

/-- What a retraining lane's shadow tries next: read delays at the thresholds in use, then each threshold at the chosen delay;
none once all three sweeps are over (R291). -/
def Lane.swept (x : Lane) : Option Trial :=
  let lo := x.cur.thrLo.toNat
  let hi := x.cur.thrHi.toNat
  if x.sweep.rd.length < 128 then some ⟨x.sweep.rd.length, lo, hi⟩
  else if x.sweep.lo.length < 64 then some ⟨x.sweptRd, x.sweep.lo.length, hi⟩
  else if x.sweep.hi.length < 64 then some ⟨x.sweptRd, x.sweptLo, x.sweep.hi.length⟩
  else none

/-- Where a lane's shadow samples: at a side of the eye with the thresholds in use, or at the trial values of a retrain
(R285, R286, R291). -/
def Lane.shadowAt (x : Lane) : Option Trial :=
  match x.state with
  | .tracking => some ⟨x.probeAt x.rdRight, x.cur.thrLo.toNat, x.cur.thrHi.toNat⟩
  | .retraining => x.swept
  | .off | .waiting | .dead => none

/-- A trial value's outcome joins the sweep that is under way. -/
def Sweep.readValue (ok : Bool) (x : Sweep) : Sweep :=
  if x.rd.length < 128 then { x with rd := x.rd ++ [ok] }
  else if x.lo.length < 64 then { x with lo := x.lo ++ [ok] }
  else if x.hi.length < 64 then { x with hi := x.hi ++ [ok] }
  else x

/-- A reference burst of a read sweep: a value passes when all its 256 are free of mismatches (R282, R291). -/
def Sweep.readBurst (m : Nat) (x : Sweep) : Sweep :=
  let ok := x.clean && m = 0
  if x.n + 1 < 256 then { x with n := x.n + 1, clean := ok } else { x.readValue ok with n := 0, clean := true }

/-- A probe of the write sweep: a value passes when all its four are free of mismatches (R291). -/
def Sweep.writeProbe (m : Nat) (x : Sweep) : Sweep :=
  let ok := x.clean && m = 0
  if 128 ≤ x.wr.length then x
  else if x.n + 1 < 4 then { x with n := x.n + 1, clean := ok }
  else { x with wr := x.wr ++ [ok], n := 0, clean := true }

/-- The reference bursts of a read window (R286). -/
def Dev.readWindow (d : Dev) : Nat := 2 ^ d.fld .lhr 0 LHR_CFG 3 0

/-- A reference burst for a lane that is tracked: its side counts it, until the window is full, and the other side is next
(R286). -/
def Dev.trackBurst (d : Dev) (m : Nat) (x : Lane) : Lane :=
  let y := { x with rdRight := !x.rdRight }
  if x.rdRight then
    if x.rdCntR < d.readWindow then { y with rdCntR := x.rdCntR + 1, rdMisR := x.rdMisR + m } else y
  else if x.rdCntL < d.readWindow then { y with rdCntL := x.rdCntL + 1, rdMisL := x.rdMisL + m } else y

/-- A reference burst for lane `l`, with `m` mismatches of its shadow (R285, R286, R291). -/
def Dev.laneBurst (l m : Nat) (d : Dev) : Dev :=
  let x := d.lane l
  match x.state with
  | .tracking => if d.flg .lhr 0 LHR_CTL 0 then d.setLane l (d.trackBurst m x) else d
  | .retraining => d.setLane l { x with sweep := x.sweep.readBurst m }
  | .off | .waiting | .dead => d

/-- READ_WINDOW_END: one side of a lane's read probe has seen 2^`WIN_LOG2` reference bursts, and its offset is judged by its
mismatches (R285, R286). -/
def execReadWindowEnd (l : LaneNo) (right : Bool) (s : State) : Host.Outcome State Fault Refusal :=
  s.dev! fun d =>
    let x := d.lane l
    let full := decide (d.readWindow ≤ if right then x.rdCntR else x.rdCntL)
    d.when (d.mct.state = 2 && d.flg .lhr 0 LHR_CTL 0 && x.state = .tracking && full) fun d =>
      let x := if right then { x with rdR := d.judge x.rdR x.rdMisR, rdCntR := 0, rdMisR := 0 }
        else { x with rdL := d.judge x.rdL x.rdMisL, rdCntL := 0, rdMisL := 0 }
      (d.setLane l x).eyeWindow l (x.rdL + x.rdR)

/-- RETRAIN_READ_DONE: the read sweeps of a retraining lane are over, and its shadow chooses read delay and thresholds
(R291). -/
def execRetrainReadDone (l : LaneNo) (s : State) : Host.Outcome State Fault Refusal :=
  s.dev! fun d =>
    let x := d.lane l
    d.when (x.state = .retraining && x.found.isNone && x.swept.isNone) fun d =>
      let set := { rdDly := BitVec.ofNat 7 x.sweptRd, wrDly := x.cur.wrDly, thrLo := BitVec.ofNat 6 x.sweptLo
                   thrHi := BitVec.ofNat 6 (sweepCentre x.cur.thrHi.toNat x.sweep.hi) }
      d.setLane l { x with found := some { set := set, rdRun := (widestRun x.sweep.rd).2, wrRun := 0 } }

/-- RETRAIN_WRITE_DONE: the write sweep is over and the write delay is chosen; the outcome waits for the next refresh window
(R291). -/
def execRetrainWriteDone (l : LaneNo) (s : State) : Host.Outcome State Fault Refusal :=
  s.dev! fun d =>
    let x := d.lane l
    match x.found with
    | some r => d.when (x.state = .retraining && !x.foundWr && x.sweep.wr.length = 128) fun d =>
        let set := { r.set with wrDly := BitVec.ofNat 7 (sweepCentre x.cur.wrDly.toNat x.sweep.wr) }
        d.setLane l { x with found := some { r with set := set, wrRun := (widestRun x.sweep.wr).2 }, foundWr := true }
    | none => d

/-! ## Settings (R281, R288, R289) -/

/-- The settings that a word of `MCT_LANE_CUR`'s layout holds. -/
def LaneSet.ofWord (w : Word) : LaneSet :=
  { rdDly := w.extractLsb' 0 7, wrDly := w.extractLsb' 8 7, thrLo := w.extractLsb' 16 6, thrHi := w.extractLsb' 24 6 }

/-- Settings in the layout of `MCT_LANE_CUR`. -/
def LaneSet.word (x : LaneSet) : Word :=
  place 29 24 x.thrHi.toNat ||| place 21 16 x.thrLo.toNat ||| place 14 8 x.wrDly.toNat ||| place 6 0 x.rdDly.toNat

/-- What a one-step move of a delay comes to: made, with the eye's offsets kept at their edges, or refused for drift. A
move beyond 0 to 127 is not made (R288; notes/assumptions/18.md). -/
inductive MoveRes where
  | stay
  | drift
  | to (dly : BitVec 7) (left right : Nat)

/-- One granted step of a delay (R286, R288). -/
def moveRes (limit : Nat) (step : Int) (cur trn : BitVec 7) (left right : Nat) : MoveRes :=
  let v : Int := (cur.toNat : Int) + step
  if step = 0 ∨ v < 0 ∨ 127 < v then .stay
  else if (limit : Int) < (v - (trn.toNat : Int)).natAbs then .drift
  else .to (BitVec.ofInt 7 v) (clampEye ((left : Int) + step)) (clampEye ((right : Int) - step))

/-- The grant that Faruo makes from an eye: one step toward the larger offset where they differ by 2 or more (R288). -/
def eyeGrant (left right : Nat) : Int := if left + 2 ≤ right then 1 else if right + 2 ≤ left then -1 else 0

/-- Faruo's grants at a tick, for every TRACKING lane without `FREEZE` (R288, R289). -/
def Dev.laneGrants (d : Dev) : Dev :=
  (List.range 72).foldl (fun d l =>
    let x := d.lane l
    if x.state = .tracking ∧ ¬ d.frozen l then
      d.setLane l { x with grantRd := eyeGrant x.rdL x.rdR, grantWr := eyeGrant x.wrL x.wrR }
    else d) d

/-- `LHR_MOVES` counts a step applied. -/
def Dev.countMove (d : Dev) : Dev := { d with mct := { d.mct with moves := d.mct.moves + 1 } }

/-- The grants of a lane take effect at a refresh window, or turn into a retrain with cause 2 (R288). -/
def Dev.moveLane (l : Nat) (d : Dev) : Dev :=
  let x := d.lane l
  let lim := d.fld .lhr 0 LHR_CFG 29 24
  let d := d.setLane l { x with grantRd := 0, grantWr := 0 }
  if x.state ≠ .tracking then d
  else
    let rd := moveRes lim x.grantRd x.cur.rdDly x.trn.rdDly x.rdL x.rdR
    let wr := moveRes lim x.grantWr x.cur.wrDly x.trn.wrDly x.wrL x.wrR
    let d := match rd with
      | .to v a b =>
        let y := d.lane l
        (d.setLane l { y with cur := { y.cur with rdDly := v }, rdL := a, rdR := b }).countMove
      | .stay | .drift => d
    let d := match wr with
      | .to v a b =>
        let y := d.lane l
        (d.setLane l { y with cur := { y.cur with wrDly := v }, wrL := a, wrR := b }).countMove
      | .stay | .drift => d
    match rd, wr with
    | .drift, _ | _, .drift => d.autoRetrain l 2
    | _, _ => d

/-- A staged override of a lane applies at the refresh window of its ganged channel: it replaces the settings and their
trained values, discards grants and ends a retrain; a lane that is OFF or DEAD ignores it (R289). -/
def Dev.overrideLane (l : Nat) (w : Word) (d : Dev) : Dev :=
  let a := regAt .site (l / 4) (MCT_LANE_OVR + 0x20 * (l % 4))
  let d := d.setStagedAt a none
  let x := d.lane l
  match x.state with
  | .off | .dead => d
  | .tracking | .waiting | .retraining =>
    let set := LaneSet.ofWord w
    (d.setEffAt a w).setLane l { x with cur := set, trn := set, state := .tracking, sweep := {}, found := none,
                                        foundWr := false, grantRd := 0, grantWr := 0 }

/-- The override of a lane that is staged and not held. -/
def Dev.stagedOverride (d : Dev) (l : Nat) : Option Word :=
  if d.held (PType.site.page + l / 4) then none
  else d.stagedAt (regAt .site (l / 4) (MCT_LANE_OVR + 0x20 * (l % 4)))

/-! ## Status -/

/-- The code of a lane's state. -/
def LnState.code : LnState → Nat
  | .off => 0 | .tracking => 1 | .waiting => 2 | .retraining => 3 | .dead => 4

/-- `MCT_LANE_RDEYE` or `MCT_LANE_WREYE`. -/
def eyeWord (left right : Nat) : Word := place 13 8 right ||| place 5 0 left

/-- `MCT_LANE_STAT`. -/
def Lane.stat (x : Lane) : Word :=
  place 17 16 x.cause.toNat ||| place 14 8 (x.cur.rdDly - x.trn.rdDly).toNat ||| place 2 0 x.state.code

/-- `LHR_STAT`. -/
def Dev.lehrStat (d : Dev) : Word :=
  let n := fun st => ((List.range 72).filter fun l => (d.lane l).state = st).length
  place 22 16 (n .dead) ||| place 14 8 (n .waiting) ||| place 2 0 (n .retraining)

end Sys2Proof.Machine
end

