-- ==== Sys2Proof/Machine/Gddr.lean ====
section
/-!
DEFINITION. The GDDR7 memory controller (R260 to R280): site fences and the rebuild, bank queues and command slots, the
check of returning bursts, refresh, the refresh window and Lehr's write probes.
-/
namespace Sys2Proof.Machine

/-! ## Sites and positions (R260, R275, R292) -/

/-- Memory-lost is live: two positions are unavailable for some atom (R275, R280). -/
def Dev.memLost (d : Dev) : Bool :=
  decide (2 ≤ d.mct.gone.length) ||
  match d.mct.spare with
  | .stopped _ => !d.mct.gone.isEmpty && decide (d.mct.ptr < d.atomCount)
  | .idle | .pending _ | .rebuilding _ | .substituted _ | .none => false

/-- The positions unavailable for some atom. -/
def Dev.lostPositions (d : Dev) : List Nat :=
  d.mct.gone ++ match d.mct.spare with
    | .pending p | .rebuilding p => [p]
    | .stopped p => if d.mct.ptr < d.atomCount then [p] else []
    | .idle | .substituted _ | .none => []

/-- Every lane of a fenced site that is not DEAD enters OFF, and the next lane that waits in its ganged channel starts
(R290, R292). -/
def Dev.lanesOff (s : Nat) (d : Dev) : Dev :=
  (List.range 4).foldl (fun d k =>
    let x := d.lane (4 * s + k)
    let d := if x.state = .dead then d
      else d.setLane (4 * s + k) { x with
        state := .off, sweep := {}, found := none, foundWr := false, grantRd := 0, grantWr := 0 }
    d.nextRetrain k) d

/-- `d` with the spare's use and the positions without rebuild replaced. -/
def Dev.setSpare (sp : Spare) (gone : List Nat) (d : Dev) : Dev := { d with mct := { d.mct with spare := sp, gone := gone } }

/-- The spare is fenced while no position depends on it: spare-lost begins (R275, R280). -/
def Dev.spareIsLost (d : Dev) : Dev := { d with mct := { d.mct with spareLost := true } }.fire 516 17 0

/-- What becomes of the positions when the spare is fenced (R275). -/
def Dev.loseSpare (cause : Nat) (d : Dev) : Dev :=
  let g := d.mct.gone
  match d.mct.spare with
  | .idle => (d.setSpare .none g).spareIsLost
  | .pending p => (d.setSpare .none (g ++ [p])).spareIsLost
  | .rebuilding p | .stopped p => d.setSpare .none (g ++ [p])
  | .substituted p => (d.setSpare .none (g ++ [p])).fire 515 p (dbits 0 17 ||| dbits 8 cause)
  | .none => d

/-- What becomes of position `p` when the site that serves it is fenced (R275). -/
def Dev.losePosition (p cause : Nat) (d : Dev) : Dev :=
  let g := d.mct.gone
  let d := match d.mct.spare with
    | .idle => if g.isEmpty then d.setSpare (.pending p) g else d.setSpare .idle (g ++ [p])
    | .pending q => d.setSpare .idle (g ++ [q, p])
    | .rebuilding q => d.setSpare (.stopped q) (g ++ [p])
    | .stopped _ | .substituted _ | .none => d.setSpare d.mct.spare (g ++ [p])
  d.fire 515 p (dbits 0 p ||| dbits 8 cause)

/-- A site is fenced with a cause: 1 dead lane, 2 error rate, 3 driver (R270, R275, R292). -/
def Dev.fenceSite (s cause : Nat) (d : Dev) : Dev :=
  let x := d.site s
  if x.fenced then d
  else
    let before := d.mstate
    let lost := d.memLost
    let d := (d.setSite s { x with fenced := true, cause := BitVec.ofNat 2 cause }).lanesOff s
    let d := if s = 17 then d.loseSpare cause else d.losePosition s cause
    let d := if d.memLost ∧ ¬ lost then d.fire 517 0 (d.lostPositions.foldl (fun m p => m ||| dbits p 1) 0) else d
    if d.mstate ≠ before then askReeval 2 d else d

/-! ## Bank queues (R265, R266, R271) -/

/-- A request with the present generation of its tag (R279). -/
def Dev.bankReq (d : Dev) (r : MemReq) : BankReq := { req := r, gen := (d.tag r.tag).gen }

/-- Older requests to the atom of a newcomer rise to its class (R266). -/
def raiseOlder (r : MemReq) (q : List BankReq) : List BankReq :=
  q.map fun o =>
    if atomOf o.req = atomOf r ∧ r.cls.val < o.req.cls.val then { o with req := { o.req with cls := r.cls } } else o

/-- A request goes behind the others in its bank queue. -/
def Dev.joinQueue (r : MemReq) (d : Dev) : Dev :=
  let g := d.gangOf (atomOf r)
  let b := d.bankOf (atomOf r)
  let x := d.gang g
  d.setGang g (x.setBankQueue b (raiseOlder r (x.bankQueue b) ++ [d.bankReq r]))

/-- The bank queue of a request has room for it (R271). -/
def Dev.roomFor (d : Dev) (r : MemReq) : Bool :=
  hasRoom r.cls.val ((d.gang (d.gangOf (atomOf r))).bankQueue (d.bankOf (atomOf r)))

/-- A request to GDDR7 enters its bank queue. Where that is full, or an older request of its master waits so, it waits
outside (R265, R271). -/
def Dev.enterQueue (r : MemReq) (d : Dev) : Dev :=
  if d.roomFor r && !(d.mct.waiting.any fun o => o.mid = r.mid) then d.joinQueue r
  else { d with mct := { d.mct with waiting := d.mct.waiting ++ [r] } }

/-- The requests that wait outside a full queue enter where there is room now, the oldest first and those of one master in
their order (R265, R271). -/
def Dev.admitWaiting (d : Dev) : Dev :=
  d.mct.waiting.foldl (fun d r => d.enterQueue r) { d with mct := { d.mct with waiting := [] } }

/-- A request is answered. -/
def Dev.answer (r : MemReq) (ok : Bool) (data : List Byte) (d : Dev) : Dev :=
  { d with mct := { d.mct with
      returned := d.mct.returned ++ [{ mid := r.mid, tag := r.tag, ok := ok, data := data }] } }

/-- The response to a request that entered with generation `gen` reaches its requester, or is dropped where the tag has a
later one: it is counted, and mem-late-response fires (R279). -/
def Dev.respond (r : MemReq) (gen : BitVec 8) (ok : Bool) (data : List Byte) (d : Dev) : Dev :=
  if (d.tag r.tag).gen = gen then d.answer r ok data
  else { d with mct := { d.mct with late := d.mct.late + 1 } }.fire 518 r.mid (dbits 0 (d.tag r.tag).gen.toNat)

/-- The training atom of bank `b` of ganged channel `g`: row 0 and column 0 leave the selection bits alone (R267,
R287). -/
def trainingAtom (g b : Nat) : Nat := (g * 2 ^ 15 + b / 4 * 2 ^ 17 + b % 4 * 2 ^ 19) / 256

/-- A request that is not for GDDR7 completes (R295, R306, R312, R407): a denied read returns 0 in every byte. -/
def Dev.completeAway (r : MemReq) (d : Dev) : Dev :=
  let a := r.addr.toNat
  let d := if r.mid.val = 65 then d.mrvGranted a else d
  match r.data with
  | none => match d.readRes r.mid a r.len with
    | .ok => d.answer r true (d.bytes a r.len)
    | .denied => (d.deny r.mid 0 false a).answer r false (List.replicate r.len 0)
    | .error => (d.noteRead r.mid false a r.len).answer r false []
  | some bs => match d.writeRes r.mid a r.len with
    | .ok => (d.store a bs).answer r true []
    | .denied => (d.deny r.mid 0 true a).answer r false []
    | .error => (d.noteRead r.mid true a r.len).answer r false []

/-- Requests that share a tag: of one master and one tag. -/
def sameTag (a b : MemReq) : Bool := a.mid = b.mid && a.tag = b.tag

/-- A tag is not reused while its request waits or is under way (R279). -/
def Dev.tagBusy (d : Dev) (r : MemReq) : Bool :=
  (d.mct.waiting.any (sameTag r)) ||
  (List.range 4).any fun g =>
    let x := d.gang g
    (x.queues.any fun e => e.2.any fun o => sameTag r o.req && (d.tag r.tag).gen = o.gen) ||
      x.inflight.any fun f => sameTag r f.req && (d.tag r.tag).gen = f.gen

/-- The class that a request has now: of a Gather unit's, 1 once its pipe's fetch is escalated or taken over and else 2; of
Lehr's, 3, for reads of the training atoms of a gang in which a lane retrains (R89, R271, R291). -/
def Dev.classFits (d : Dev) (r : MemReq) : Bool :=
  if r.mid.val = 68 ∧ 512 ≤ r.tag ∧ r.tag < 624 then
    decide (r.cls.val = if ((d.pipe ((r.tag - 512) / 8)).held.map Held.urgent).getD false then 1 else 2)
  else if r.mid.val = 67 then
    r.data.isNone && (d.retrainingLane (d.gangOf (atomOf r))).isSome &&
      decide (atomOf r = trainingAtom (d.gangOf (atomOf r)) (d.bankOf (atomOf r)))
  else true

/-- A request that its requester can make now. -/
def Dev.mayRequest (d : Dev) (r : MemReq) : Bool := r.wf && d.classFits r && !d.tagBusy r

/-- MEMORY_REQUEST: a request on the fabric is checked against the memory windows and, where it is for installed GDDR7,
enters its bank queue in its class (R261, R265, R266, R271, R306, R407). -/
def execMemoryRequest (r : MemReq) (s : State) : Host.Outcome State Fault Refusal :=
  s.dev! fun d => d.when (d.mayRequest r) fun d =>
    if d.allowed r.mid r.addr.toNat r.len r.data.isSome && d.span r.addr.toNat r.len = .gddr then d.enterQueue r
    else d.completeAway r

/-! ## Command slots (R272) -/

/-- The first request of class `cls` that waits behind no older request to its atom; `busy` holds the atoms of the older
requests and of the read-modify-writes under way. -/
def headOf (cls : Nat) (busy : List Nat) : List BankReq → Option BankReq
  | [] => none
  | r :: rs =>
    if r.req.cls.val = cls ∧ atomOf r.req ∉ busy then some r else headOf cls (atomOf r.req :: busy) rs

/-- The bank and the request that the channel picks: by class, then from the rotating pointer on (R272). -/
def Dev.pick (d : Dev) (x : Gang) : Option (Nat × BankReq) :=
  [1, 2, 3, 4].findSome? fun cls =>
    (List.range 16).findSome? fun i =>
      let b := (x.ptr + i) % 16
      if d.bankReady x b then (headOf cls x.merging (x.bankQueue b)).map fun r => (b, r) else none

/-- The reads under way whose atom a write has covered since. -/
def Gang.coverAtom (t : Nat) (x : Gang) : Gang :=
  { x with inflight := x.inflight.map fun f => if atomOf f.req = t then { f with covered := true } else f }

/-- A burst is under way in gang `g`. -/
def Dev.startBurst (g : Nat) (f : InFlight) (d : Dev) : Dev :=
  let x := d.gang g
  d.setGang g { x with inflight := x.inflight ++ [f] }

/-- A request is issued: a whole-atom write is performed; a read, and the read of a read-modify-write, are under way with the
atom's bytes (R263, R264). -/
def Dev.issue (g : Nat) (q : BankReq) (d : Dev) : Dev :=
  let r := q.req
  let t := atomOf r
  let d := if r.mid.val = 65 then d.mrvGranted r.addr.toNat else d
  match r.data with
  | some bs =>
    if r.len = 256 then
      let d := d.store r.addr.toNat bs
      (d.setGang g ((d.gang g).coverAtom t)).respond r q.gen true []
    else d.startBurst g { req := r, gen := q.gen, bytes := d.bytes (256 * t) 256, bad := d.mct.poison.contains t }
  | none => d.startBurst g { req := r, gen := q.gen, bytes := d.bytes (256 * t) 256, bad := d.mct.poison.contains t }

/-- Ganged channel `g` picks a request and issues it; requests that waited for room enter. -/
def Dev.issueNext (g : Nat) (d : Dev) : Dev :=
  let x := d.gang g
  match d.pick x with
  | none => d
  | some (b, r) =>
    ((d.setGang g { (x.setBankQueue b ((x.bankQueue b).erase r)) with ptr := (b + 1) % 16 }).issue g r).admitWaiting

/-- COMMAND_SLOT: ganged channel `g` picks and issues a request (R272). -/
def execCommandSlot (g : GangNo) (s : State) : Host.Outcome State Fault Refusal :=
  s.dev! fun d => d.when (d.mct.state = 2) (Dev.issueNext g)

/-! ## Returning bursts (R262, R263, R269, R270) -/

/-- The check symbol of beat `t` of an atom: the XOR of its sixteen data bytes (R262). -/
def checkSymbol (bs : List Byte) (t : Nat) : Byte := (List.range 16).foldl (fun x p => x ^^^ bs.getD (16 * t + p) 0) 0

/-- The symbol that position `p` carries in beat `t` of an atom: byte 16`t` + `p`, or the check symbol (R262). -/
def atomSymbol (bs : List Byte) (p t : Nat) : Byte := if p < 16 then bs.getD (16 * t + p) 0 else checkSymbol bs t

/-- The symbol that arrives for position `p` in beat `t`. -/
def receivedSymbol (i : BurstInput) (bs : List Byte) (p t : Nat) : Byte :=
  (i.flips.filter fun e => e.1 = p && e.2.1 = t).foldl (fun x e => x ^^^ e.2.2) (atomSymbol bs p t)

/-- The XOR of what arrives in beat `t` for all seventeen positions but those listed. -/
def sumBut (i : BurstInput) (bs : List Byte) (no : List Nat) (t : Nat) : Byte :=
  ((List.range 17).filter fun p => !no.contains p).foldl (fun x p => x ^^^ receivedSymbol i bs p t) 0

/-- The beats that a request's burst has: half an atom or the whole (R263, R264). -/
def beatsOf (r : MemReq) : List Nat :=
  let o := r.addr.toNat % 256
  if r.data.isSome then List.range 16
  else if o + r.len ≤ 128 then List.range 8
  else if 128 ≤ o then (List.range 8).map (· + 8)
  else List.range 16

/-- The positions erased in beat `t`: those whose link check failed and those that are unavailable (R269). -/
def erasedIn (gone : List Nat) (fail : List (Nat × Nat)) (t : Nat) : List Nat :=
  (List.range 17).filter fun p => gone.contains p || fail.any fun f => f.1 = p && f.2 = t

/-- What the check of a burst comes to: the data positions whose bytes are rebuilt, a second read, or uncorrectable. -/
inductive BurstRes where
  | good (rebuilt : List Nat)
  | again
  | bad
  deriving DecidableEq, Repr

/-- The check of a burst beat by beat: the atom's bytes as stored, whether it is marked, whether the burst has been read again
and the unavailable positions. An atom that is marked uncorrectable stays so (R264, R269, R276). -/
def burstRes (i : BurstInput) (bs : List Byte) (beats gone : List Nat) (marked again : Bool) : BurstRes :=
  let es := beats.map (erasedIn gone i.linkFail)
  if marked || es.any (fun e => decide (2 ≤ e.length)) then .bad
  else if beats.any fun t => (erasedIn gone i.linkFail t).isEmpty && sumBut i bs [] t != 0 then
    if again then .bad else .again
  else .good ((List.range 16).filter fun p => es.any (·.contains p))

/-- The byte of position `p` in beat `t` after the check: rebuilt from the others where the position is erased (R269). -/
def correctedByte (i : BurstInput) (bs : List Byte) (gone : List Nat) (p t : Nat) : Byte :=
  if (erasedIn gone i.linkFail t).contains p then sumBut i bs [p] t else receivedSymbol i bs p t

/-- The data bytes of an atom after the check. -/
def finalBytes (i : BurstInput) (bs : List Byte) (gone : List Nat) : List Byte :=
  (List.range 256).map fun n => correctedByte i bs gone (n % 16) (n / 16)

/-- Bytes put into an atom's from offset `o` on. -/
def mergeBytes (atom : List Byte) (o : Nat) (bs : List Byte) : List Byte := atom.take o ++ bs ++ atom.drop (o + bs.length)

/-- The erasures of a site by a failed link check in the present 1 ms window (R270). -/
def Dev.siteErased (d : Dev) (s : Nat) : Nat :=
  let x := d.site s
  if x.window = d.time.toNat / 1000000 then x.erased else 0

/-- The site-error-rate threshold is exceeded in the present window (R270, R280). -/
def Dev.siteOverRate (d : Dev) (s : Nat) : Bool :=
  decide (d.fld .site s MCT_SITE_THR 15 0 < d.siteErased s)

/-- The site-error-rate source fires for a site whose rate was not exceeded `before` and is now, and fences the site where
that is the reaction (R270, R338, R341). -/
def Dev.overRate (s : Nat) (before : Bool) (d : Dev) : Dev :=
  if d.siteOverRate s ∧ ¬ before ∧ ¬ (d.site s).fenced then
    let d := d.fire 514 s (dbits 0 (d.siteErased s % 65536))
    if d.fences 514 then d.fenceSite s 2 else d
  else d

/-- A failed link check of a site is counted (R270). -/
def Dev.linkFailed (s : Nat) (d : Dev) : Dev :=
  let x := d.site s
  if x.fenced then d
  else
    let before := d.siteOverRate s
    (d.setSite s { x with window := d.time.toNat / 1000000, erased := d.siteErased s + 1 }).overRate s before

/-- The positions of an atom whose link check failed in a burst's beats and that are not unavailable. -/
def failedPositions (i : BurstInput) (beats gone : List Nat) : List Nat :=
  (List.range 17).filter fun p => !gone.contains p && i.linkFail.any fun e => e.1 = p && beats.contains e.2

/-- The bits in which two lists of bytes differ. -/
def bitsApart (as bs : List Byte) : Nat :=
  ((as.zip bs).map fun e => ((List.range 8).filter fun k => (e.1 ^^^ e.2).getLsbD k).length).sum

/-- The mismatches of a lane's shadow in a burst: what it received at its setting against the final data of its position. A
shadow with no sample there received what the main sampler did (R285). -/
def shadowMismatches (i : BurstInput) (bs : List Byte) (beats gone : List Nat) (site p : Nat) (at' : Trial) : Nat :=
  let data := beats.map fun t => correctedByte i bs gone p t
  match i.shadow.find? fun e => e.site = site && e.dly = at'.dly && e.lo = at'.lo && e.hi = at'.hi with
  | some e => bitsApart (beats.map fun t => e.bytes.getD t 0) data
  | none => bitsApart (beats.map fun t => receivedSymbol i bs p t) data

/-- A burst is a reference burst for position `p`: its data is known correct, and it needed no correction but that of this
lane alone. While a position is unavailable, a retraining lane takes the bursts in which it passed its own link check
(R285, R291). -/
def isReference (i : BurstInput) (beats gone : List Nat) (st : LnState) (p : Nat) : Bool :=
  !gone.contains p &&
  if st = .retraining ∧ gone ≠ [] then !(failedPositions i beats gone).contains p
  else beats.all fun t => (erasedIn gone i.linkFail t).all (· = p)

/-- What a burst whose data is good tells the shadow samplers of gang `g` (R285). -/
def Dev.references (g : Nat) (i : BurstInput) (bs : List Byte) (beats gone sites : List Nat) (d : Dev) : Dev :=
  sites.zipIdx.foldl (fun d e =>
    let l := 4 * e.1 + g
    let x := d.lane l
    match x.shadowAt with
    | some at' => if isReference i beats gone x.state e.2 then d.laneBurst l (shadowMismatches i bs beats gone e.1 e.2 at') else d
    | none => d) d

/-- What the check of a burst leaves but for its answer: the mark of an atom that is lost, the counts of rebuilt bytes, the
shadow samplers' counts and those of the failed link checks (R269, R270, R285). `mark` says that a lost atom is to be marked. -/
def Dev.burstChecked (g t mid : Nat) (i : BurstInput) (bs : List Byte) (beats : List Nat) (res : BurstRes) (mark : Bool)
    (d : Dev) : Dev :=
  let gone := d.unavailable t
  let sites := (List.range 17).map (d.servingSite t)
  let d := match res with
    | .again => d
    | .bad => (if mark then d.markBad t else d).uncorrectable t mid
    | .good ps => (d.rebuilt t mid ps).references g i bs beats gone sites
  (failedPositions i beats gone).foldl (fun d p => d.linkFailed (sites.getD p p)) d

/-- A burst returns with its link checks, its symbols and its shadow samples. -/
def Dev.burstReturns (g : Nat) (f : InFlight) (rest : List InFlight) (i : BurstInput) (d : Dev) : Dev :=
  let t := atomOf f.req
  let beats := beatsOf f.req
  let gone := d.unavailable t
  let res := burstRes i f.bytes beats gone f.bad f.again
  let data := finalBytes i f.bytes gone
  let d := d.setGang g { d.gang g with inflight := if res = .again then { f with again := true } :: rest else rest }
  let d := match res with
    | .again => d
    | .bad => d.respond f.req f.gen false []
    | .good _ =>
      let o := f.req.addr.toNat % 256
      match f.req.data with
      | some bs => (d.store (256 * t) (mergeBytes data o bs)).respond f.req f.gen true []
      | none => d.respond f.req f.gen true ((data.drop o).take f.req.len)
  d.burstChecked g t f.req.mid i f.bytes beats res (!f.covered)

/-- ATOM_READ_RETURN: the oldest burst under way in ganged channel `g` returns and is checked (R262, R263, R264, R269, R270,
R285). -/
def execAtomReadReturn (g : GangNo) (burst : BurstInput) (s : State) : Host.Outcome State Fault Refusal :=
  s.dev! fun d =>
    match (d.gang g).inflight with
    | [] => d
    | f :: rest => d.burstReturns g f rest burst

/-! ## The refresh window (R274, R276, R288, R289, R291) -/

/-- The outcome of a lane's retrain is applied: new settings with the eyes at half their widths, or the lane is DEAD and
its site is fenced with cause 1 (R291, R292). -/
def Dev.retrainOutcome (l : Nat) (d : Dev) : Dev :=
  let x := d.lane l
  match x.found with
  | some r =>
    if x.state ≠ .retraining ∨ ¬ x.foundWr then d
    else if d.minEye ≤ r.rdRun ∧ d.minEye ≤ r.wrRun then
      (d.setLane l { x with
        cur := r.set, trn := r.set, state := .tracking, sweep := {}, found := none, foundWr := false
        rdL := clampEye (r.rdRun / 2), rdR := clampEye (r.rdRun / 2)
        wrL := clampEye (r.wrRun / 2), wrR := clampEye (r.wrRun / 2), rdCntL := 0, rdCntR := 0, rdMisL := 0, rdMisR := 0
        wrMisL := 0, wrMisR := 0 }).nextRetrain (l % 4)
    else ((d.setLane l { x with state := .dead, sweep := {}, found := none, foundWr := false }).fire 545 l 0).fenceSite (l / 4) 1
  | none => d

/-- What a refresh window does to one lane: a staged override, or the grants and a retrain's outcome. -/
def Dev.laneWindow (l : Nat) (d : Dev) : Dev :=
  match d.stagedOverride l with
  | some w => (d.overrideLane l w).nextRetrain (l % 4)
  | none => (d.moveLane l).retrainOutcome l

/-- The staged `MCT_REF` applies in ganged channel `g`; once all four channels have applied it, the register holds it
(R274). -/
def Dev.applyRef (g : Nat) (d : Dev) : Dev :=
  let a := regAt .mct 0 MCT_REF
  match if d.held PType.mct.page then none else d.stagedAt a with
  | none => d
  | some w =>
    let d := d.setGang g { d.gang g with ref := w }
    if (List.range 4).all fun k => (d.gang k).ref = w then (d.setEffAt a w).setStagedAt a none else d

/-- The pointer has passed the last atom: ganged channel `g` switches to the spare, and once all four have, the spare is
substituted and the ledger re-evaluates (R276). -/
def Dev.switchSpare (g : Nat) (d : Dev) : Dev :=
  match d.mct.spare with
  | .rebuilding p | .stopped p =>
    if d.mct.ptr < d.atomCount then d
    else
      let d := d.setGang g { d.gang g with switched := true }
      if (List.range 4).all fun k => (d.gang k).switched then
        let before := d.mstate
        let d := d.setSpare (.substituted p) d.mct.gone
        if d.mstate ≠ before then askReeval 2 d else d
      else d
  | .idle | .pending _ | .substituted _ | .none => d

/-- The refresh window of ganged channel `g` (R274). -/
def Dev.refreshWindow (g : Nat) (d : Dev) : Dev :=
  ((gangLanes g).foldl (fun d l => d.laneWindow l) (d.applyRef g)).switchSpare g

/-! ## Refresh (R273) -/

/-- The gang holds a class 1 request. -/
def Gang.urgent (x : Gang) : Bool := x.queues.any fun e => e.2.any fun r => r.req.cls.val = 1
/-- A bank's queue holds a request of class `n` or more urgent. -/
def Gang.holdsClass (x : Gang) (b n : Nat) : Bool := (x.bankQueue b).any fun r => decide (r.req.cls.val ≤ n)
/-- The debt of a bank. -/
def Gang.debtOf (x : Gang) (b : Nat) : Nat := FMap.get (fun _ => 0) x.debt b
/-- `RFC_NS` in the gang. -/
def Gang.rfc (x : Gang) : Nat := bits x.ref 25 16
/-- `DEBT_MAX` in the gang. -/
def Gang.debtMax (x : Gang) : Nat := bits x.ref 31 28
/-- A refresh is issued to a bank at time `now`. -/
def Gang.refresh (x : Gang) (b now : Nat) : Gang :=
  { x with refreshing := FMap.put (fun _ => 0) x.refreshing b (now + x.rfc) }

/-- What the slot of bank `b` does: the refresh is issued, postponed or forced (R273). An issued one makes the bank's probe
due (R287). -/
def Dev.slotRefresh (g b : Nat) (d : Dev) : Dev :=
  let x := d.gang g
  let due := x.probeDue.filter (· ≠ b)
  if ¬ x.urgent then d.setGang g { x.refresh b d.now with probeDue := due ++ [b] }
  else if x.debtOf b < x.debtMax then
    let d := d.setGang g { x with debt := FMap.put (fun _ => 0) x.debt b (x.debtOf b + 1), probeDue := due }
    { d with mct := { d.mct with postponed := d.mct.postponed + 1 } }
  else
    let d := d.setGang g { x.refresh b d.now with probeDue := due }
    { d with mct := { d.mct with forced := d.mct.forced + 1 } }

/-- REFRESH_SLOT: the next refresh slot of ganged channel `g`; the slot of bank 0 starts with the refresh window (R273,
R274). -/
def execRefreshSlot (g : GangNo) (s : State) : Host.Outcome State Fault Refusal :=
  s.dev! fun d => d.when (d.mct.state = 2) fun d =>
    let b := (d.gang g).slot % 16
    let d := if b = 0 then d.refreshWindow g else d
    let x := d.gang g
    (d.setGang g { x with slot := (b + 1) % 16, extra := [] }).slotRefresh g b

/-- EXTRA_REFRESH: between slots, a bank with debt and no real-time request is refreshed (R273). -/
def execExtraRefresh (g : GangNo) (b : BankNo) (s : State) : Host.Outcome State Fault Refusal :=
  s.dev! fun d =>
    let x := d.gang g
    d.when (d.mct.state = 2 && decide (0 < x.debtOf b) && !x.holdsClass b 2 && d.bankReady x b &&
        !FMap.get (fun _ => false) x.extra b) fun d =>
      let x := { x.refresh b d.now with debt := FMap.put (fun _ => 0) x.debt b (x.debtOf b - 1) }
      d.setGang g { x with extra := FMap.put (fun _ => false) x.extra b true }

/-! ## Write probes (R287) -/

/-- The mismatches of a lane's site in a probe. -/
def diffOf (diffs : List (Nat × Nat)) (s : Nat) : Nat := ((diffs.filter fun e => e.1 = s).map (·.2)).sum

/-- One side of the write eye of a lane is judged after 64 probes (R286, R287). -/
def Dev.judgeWrite (l : Nat) (right : Bool) (d : Dev) : Dev :=
  let x := d.lane l
  let y := if right then { x with wrR := d.judge x.wrR x.wrMisR, wrMisR := 0 }
    else { x with wrL := d.judge x.wrL x.wrMisL, wrMisL := 0 }
  (d.setLane l y).eyeWindow l (y.wrL + y.wrR)

/-- What a probe tells lane `l`: in TRACKING its mismatches add up, and after 64 probes of the side its offsets are judged;
a retraining lane's sweep of the write delay, once its read settings are chosen, takes it as one probe of a trial value (R287,
R291). -/
def Dev.probeLane (right full : Bool) (diffs : List (Nat × Nat)) (d : Dev) (l : Nat) : Dev :=
  let y := d.lane l
  let m := diffOf diffs (l / 4)
  match y.state with
  | .tracking =>
    let d := d.setLane l (if right then { y with wrMisR := y.wrMisR + m } else { y with wrMisL := y.wrMisL + m })
    if full then d.judgeWrite l right else d
  | .retraining => if y.found.isSome then d.setLane l { y with sweep := y.sweep.writeProbe m } else d
  | .off | .waiting | .dead => d

/-- The idle spare carries no reads: its lane takes the read-back of a probe as a reference burst (R286). -/
def Dev.probeSpare (g m : Nat) (d : Dev) : Dev :=
  match d.mct.spare with
  | .idle | .pending _ => if (d.lane (68 + g)).shadowAt.isSome then d.laneBurst (68 + g) m else d
  | .rebuilding _ | .stopped _ | .substituted _ | .none => d

/-- A probe is made on the side that is next: its outcome for every lane of the gang. -/
def Dev.probe (g : Nat) (i : ProbeInput) (d : Dev) : Dev :=
  let x := d.gang g
  let right := x.probeRight
  let n := (if right then x.probeR else x.probeL) + 1
  let full := decide (64 ≤ n)
  let keep := if full then 0 else n
  let d := d.setGang g { x with
    probeRight := !right, probeL := if right then x.probeL else keep, probeR := if right then keep else x.probeR }
  ((gangLanes g).foldl (Dev.probeLane right full i.diffs) d).probeSpare g i.spare

/-- The save of a probe is read and checked as any read, with master ID 67; unless the atom is lost, or a class 1 request ends
the probe after it, the probe goes on. A save whose parity is inconsistent is read again, with the same outcome. The memory is
left as it was (R269, R287). -/
def Dev.probeAtom (g t : Nat) (i : ProbeInput) (d : Dev) : Dev :=
  let bs := d.bytes (256 * t) 256
  let beats := List.range 16
  let res := burstRes i.save bs beats (d.unavailable t) (d.mct.poison.contains t) true
  let d := d.burstChecked g t 67 i.save bs beats res true
  if res = .bad ∨ i.cut then d else d.probe g i

/-- WRITE_PROBE: the oldest refresh whose probe is due is complete, and Lehr probes the training atom of its bank, unless the
bank holds real-time requests (R287, R291). -/
def execWriteProbe (g : GangNo) (probe : ProbeInput) (s : State) : Host.Outcome State Fault Refusal :=
  s.dev! fun d =>
    let x := d.gang g
    match x.probeDue with
    | [] => d
    | b :: rest => d.when (d.mct.state = 2 && d.bankReady x b) fun d =>
      let quiet := !x.holdsClass b (if (d.retrainingLane g).isSome then 1 else 2)
      let d := d.setGang g { x with probeDue := rest }
      if d.flg .lhr 0 LHR_CTL 1 && quiet then d.probeAtom g (trainingAtom g b) probe else d

/-! ## The rebuild (R276, R278) -/

/-- The copies that Faruo grants at a tick while a rebuild runs (R276). -/
def Dev.rebuildGrant (d : Dev) : Dev :=
  match d.mct.spare with
  | .rebuilding _ => { d with mct := { d.mct with grant := 4096 * d.fld .mct 0 MCT_RBLD 11 0 } }
  | .idle | .pending _ | .stopped _ | .substituted _ | .none => { d with mct := { d.mct with grant := 0 } }

/-- REBUILD_START: the re-evaluation for the fence and its mode changes are over, and the rebuild begins at Faruo's tick,
with that tick's grant. A Faruo that is stopped grants nothing (R18, R276, R278). -/
def execRebuildStart (s : State) : Host.Outcome State Fault Refusal :=
  s.dev! fun d =>
    match d.mct.spare with
    | .pending p => d.when (d.mct.state = 2 && !d.reevalBusy && !d.modePend && d.rst.warm = 0) fun d =>
        let gangs := (List.range 4).foldl (fun d g => d.setGang g { d.gang g with switched := false }) d
        let d := { gangs with mct := { gangs.mct with spare := .rebuilding p, ptr := 0, copied := 0, grant := 0 } }
        if d.svc.mode = .normal then d.rebuildGrant else d
    | .idle | .rebuilding _ | .stopped _ | .substituted _ | .none => d

/-- The atom at a place in the order of the copy pointer (R267, R276). -/
def Dev.atomAtIndex (d : Dev) (i : Nat) : Nat :=
  let base := i % 128 * 256 + i / 128 % d.rowsOf * 2 ^ 21
  let gb := i / 128 / d.rowsOf
  let g := gb / 16
  let b := gb % 16
  let sel := [g % 2, g / 2, b / 4 % 2, b / 8, b % 2, b / 2 % 2]
  ((List.range 6).foldl (fun a n =>
    a + if sel.getD n 0 = 1 then if maskParity (d.hashMask n) base then 0 else 2 ^ (15 + n)
        else if maskParity (d.hashMask n) base then 2 ^ (15 + n) else 0) base) / 256

/-- REBUILD_COPY: a granted copy of the atom at the copy pointer: it waits for the older requests to the atom and for its bank,
reads the atom, which is checked, rebuilds position `p` and writes it to the spare (R269, R271, R276). A burst that is read
again arrives in the same way. -/
def execRebuildCopy (burst : BurstInput) (s : State) : Host.Outcome State Fault Refusal :=
  s.dev! fun d =>
    match d.mct.spare with
    | .rebuilding _ =>
      let t := d.atomAtIndex d.mct.ptr
      d.when (d.mct.state = 2 && decide (0 < d.mct.grant) && decide (d.mct.ptr < d.atomCount) && d.bankServes 2 t) fun d =>
        let bs := d.bytes (256 * t) 256
        let beats := List.range 16
        let res := burstRes burst bs beats (d.unavailable t) (d.mct.poison.contains t) true
        let d := { d with mct := { d.mct with
          grant := d.mct.grant - 1, ptr := d.mct.ptr + 1, copied := d.mct.copied + 1 } }
        d.burstChecked (d.gangOf t) t 69 burst bs beats res true
    | .idle | .pending _ | .stopped _ | .substituted _ | .none => d

/-! ## Status -/

/-- `MCT_STAT`. -/
def Dev.mctStat (d : Dev) : Word :=
  let (run, sub, p) := match d.mct.spare with
    | .rebuilding p => (true, false, p)
    | .substituted p => (false, true, p)
    | .idle | .pending _ | .stopped _ | .none => (false, false, 0)
  flag 26 run ||| flag 25 sub ||| place 24 20 p ||| flag 19 d.memLost ||| place 18 17 d.mstate |||
    flag 16 (d.mct.state ≠ 0 && d.mct.dens4) ||| place 15 8 d.mct.rate ||| place 1 0 d.mct.state

/-- `MCT_SITE_STAT` of site `s`. -/
def Dev.siteStat (d : Dev) (s : Nat) : Word :=
  let x := d.site s
  if x.fenced then place 18 16 x.cause.toNat ||| 1
  else if s ≠ 17 then 0
  else match d.mct.spare with
    | .idle | .pending _ => 2
    | .rebuilding p | .stopped p => place 12 8 p ||| 3
    | .substituted p => place 12 8 p ||| 4
    | .none => 2

/-- A write of a hash mask is accepted: the low word keeps bit 15 + `n` set and no other bit of [20:15] (R267). -/
def hashMaskOk (n : Nat) (lo : Word) : Bool := decide (bits lo 20 15 = 2 ^ n)

end Sys2Proof.Machine
end

