-- ==== Sys2Proof/Machine/Crucible.lean ====
section
/-!
DEFINITION. The Crucible (R294 to R304): checks of its groups and who meets an uncorrectable one, scrub, row sparing, and
the start-up test.
-/
namespace Sys2Proof.Machine

/-! ## Findings (R300) -/

/-- An uncorrectable group at a window offset is marked until a write covers it: a scene or surface entry takes no part,
a witness region is invalid, and masters that read a readable region meet an error. -/
def Dev.markGroup (off : Nat) (d : Dev) : Dev :=
  let d := if d.cruReadable off ∧ ¬ d.cru.badGroups.contains (off / 8) then
      { d with cru := { d.cru with badGroups := off / 8 :: d.cru.badGroups } }
    else d
  if off < 0x400000 then
    if d.cru.badWins.contains (off / 128) then d
    else { d with cru := { d.cru with badWins := off / 128 :: d.cru.badWins } }
  else if off < 0x500000 then
    let j := (off - 0x400000) / 64
    if d.cru.badSurfs.contains j then d else { d with cru := { d.cru with badSurfs := j :: d.cru.badSurfs } }
  else if off < 0x540000 then d.invalidate ((off - 0x500000) / 64)
  else d

/-- What the check of a group found: a single-bit error is corrected and counted; an uncorrectable group is counted,
marked, and its row is due for sparing (R300, R302). -/
def Dev.cruCheck (mac row grp : Nat) (f : EccFinding) (d : Dev) : Dev :=
  let det := d.cruDetail mac row grp
  match f with
  | .clean => d
  | .single => { d with cru := { d.cru with corrected := d.cru.corrected + 1 } }.fire 192 mac det
  | .uncorrectable =>
    let lost := d.groupFails mac row grp
    match d.cruOffset mac row grp with | some o => lost.markGroup o | none => lost

/-! ## Consumers (R300) -/

/-- The consumer reads where the group lies. -/
def Dev.reads (d : Dev) (who : CruConsumer) (off : Option Nat) : Bool :=
  match who, off with
  | .localMem _, none => true
  | .windowEntry i, some o => decide (o / 128 = i.val)
  | .surfaceEntry j, some o => decide (0x400000 ≤ o) && decide ((o - 0x400000) / 64 = j.val)
  | .witness r, some o => decide (0x500000 ≤ o) && decide ((o - 0x500000) / 64 = r.val)
  | .window, some o => d.cruReadable o
  | .scanLine _ _, some o | .staging, some o | .stagingAtLatch _, some o => !d.cruReadable o
  | .localMem _, some _ | .windowEntry _, none | .surfaceEntry _, none | .witness _, none | .window, none
  | .scanLine _ _, none | .staging, none | .stagingAtLatch _, none => false

/-- A scan-buffer line of canvas `c` is uncorrectable: it is absent (R153, R300). -/
def Dev.loseLine (c line : Nat) (d : Dev) : Dev :=
  let x := d.canvas c
  d.setCanvas c { x with scan := x.scan.filter fun e => match e.2 with | some (_, l, _) => l ≠ line | none => true }

/-- The transaction at the head of admission will be refused with `ECC` (R300). -/
def Dev.stagingLost (d : Dev) : Dev :=
  match d.scene.admQ with
  | .txn t :: rest =>
    let u := { t with ecc := true }
    { d with scene := { d.scene with admQ := .txn u :: rest } }
  | .regs _ _ :: _ | .enable _ :: _ | .reeval _ :: _ | .flip _ _ _ _ :: _ | .clear _ _ _ :: _ | [] => d

/-- A mode change decided with admitted change `no` waits for it no longer. -/
def Canvas.unbind (no : Nat) (x : Canvas) : Canvas :=
  match x.change with
  | some m => if m.withNo = some no then { x with change := some { m with withNo := none } } else x
  | none => x

/-- The next queued transaction that waits on canvas `c` is refused at its latch point: no part of it applies (R300). A
mode change decided with it no longer waits for it (notes/assumptions/20.md). -/
def Dev.refuseAtLatch (c : Nat) (d : Dev) : Dev :=
  match d.scene.flight.find? fun a => a.queue.isSome && a.pend.contains c with
  | none => d
  | some a =>
    let q := a.queue.getD 0
    let d := { d.setFlight (d.scene.flight.filter fun b => b.no ≠ a.no) with
      canvases := d.canvases.map fun (e : Nat × Canvas) => (e.1, e.2.unbind a.no) }
    let r : Refuse := { code := 0x24, slot := a.slots }
    d.noticeThen a.owner (r.notice q a.epoch a.id false d.time) fun d => (d.txnDone q a.grp).stagingFreed

/-- A word of the table memories of the pipe that owns macro `mac` reads as 0 until it is written (R300). -/
def Dev.loseWord (mac : Nat) (w : LocalWord) (d : Dev) : Dev :=
  let e := ((Config.macroOwner mac).val, w)
  if d.cru.badLocal.contains e then d else { d with cru := { d.cru with badLocal := d.cru.badLocal ++ [e] } }

/-- What a consumer does with an uncorrectable group of macro `mac`, beside the marks on it (R300). Of a line store or fetch
queue the pixel data alone is lost (notes/assumptions/20.md). -/
def Dev.consumed (who : CruConsumer) (mac : Nat) (d : Dev) : Dev :=
  match who with
  | .localMem (some w) => d.loseWord mac w
  | .scanLine c line => d.loseLine c line
  | .staging => d.stagingLost
  | .stagingAtLatch c => d.refuseAtLatch c
  | .windowEntry _ | .surfaceEntry _ | .witness _ | .window | .localMem none => d

/-- CRUCIBLE_READ: a consumer reads a group, which is checked (R300). -/
def execCrucibleRead (g : CruGroup) (f : EccFinding) (who : CruConsumer) (s : State) :
    Host.Outcome State Fault Refusal :=
  s.dev! fun d => d.when (d.reads who (d.cruOffset g.mac g.row g.grp)) fun d =>
    let d := d.cruCheck g.mac g.row g.grp f
    if f = .uncorrectable then d.consumed who g.mac else d

/-! ## Scrub and row sparing (R302) -/

/-- The groups of both parts. -/
def scrubGroups : Nat := 1536 * 512 * 16

/-- Faruo's scrub grant at a tick. -/
def Dev.scrubGrant (d : Dev) : Dev :=
  { d with cru := { d.cru with scrubGrant := 1024 * d.fld .cru 0 CRU_SCRUB 15 0 } }

/-- SCRUB_READ: a granted read of the next group; `ROW_THR` corrected groups of one row within a pass make the row due
for sparing (R302). -/
def execScrubRead (f : EccFinding) (s : State) : Host.Outcome State Fault Refusal :=
  s.dev! fun d => d.when (decide (0 < d.cru.scrubGrant)) fun d =>
    let p := d.cru.scrubPtr
    let mac := p / 8192
    let row := p / 16 % 512
    let d := d.cruCheck mac row (p % 16) f
    let n := FMap.get (fun _ => 0) d.cru.fixed (rowKey mac row) + if f = .single then 1 else 0
    let last := decide (p + 1 = scrubGroups)
    let d := { d with cru := { d.cru with
      scrubGrant := d.cru.scrubGrant - 1
      scrubPtr := if last then 0 else p + 1
      passes := if last then d.cru.passes + 1 else d.cru.passes
      fixed := if last then [] else FMap.put (fun _ => 0) d.cru.fixed (rowKey mac row) n } }
    if 0 < n ∧ d.fld .cru 0 CRU_SCRUB 23 16 ≤ n then d.sparingDue mac row else d

/-- ROW_SPARE: the copy of a row that is due completes and a spare row takes its place, or the macro has no spare row
left and the row stays in use (R302). Groups that were uncorrectable stay marked. -/
def execRowSpare (mac : Fin 1536) (row : Fin 512) (s : State) : Host.Outcome State Fault Refusal :=
  s.dev! fun d =>
    let k := rowKey mac row
    d.when (d.cru.due.contains k) fun d =>
      let used := FMap.get (fun _ => 0) d.cru.spares mac
      let due := d.cru.due.filter (· ≠ k)
      if used < 2 then
        { d with cru := { d.cru with
          due := due, spares := FMap.put (fun _ => 0) d.cru.spares mac (used + 1),
          fixed := FMap.erase d.cru.fixed k } }
      else
        let first := !d.cru.stuck.any fun r => r / 512 = mac.val
        let d := { d with cru := { d.cru with due := due, stuck := d.cru.stuck ++ [k] } }
        if first then d.fire 194 mac (d.cruDetail mac row 0) else d

/-! ## The start-up test (R301) -/

/-- What BIST does with one macro that has failing rows: up to two are replaced by the spare rows; a pool macro with more
is withheld; a local one fences the unit that owns it. -/
def Dev.bistMacro (mac rows : Nat) (d : Dev) : Dev :=
  let d := { d with cru := { d.cru with spares := FMap.put (fun _ => 0) d.cru.spares mac (min 2 rows) } }
  if rows ≤ 2 then d
  else if mac < 1280 then
    { d with cru := { d.cru with withheld := d.cru.withheld ++ [mac] } }.fire 195 mac (dbits 32 mac)
  else
    ({ d with cru := { d.cru with brokenLocal := d.cru.brokenLocal ++ [mac] } }.fire 195 mac
      (dbits 32 mac ||| dbits 58 1)).fencePipe (Config.macroOwner mac).val 0

/-- Row repair over the failing rows that BIST found. -/
def Dev.bist (failing : List (Nat × Nat)) (d : Dev) : Dev :=
  ((failing.map (·.1)).eraseDups).foldl (fun d m => d.bistMacro m (failing.filter fun e => e.1 = m).length) d

/-! ## Status -/

/-- `CRU_FREE`. -/
def Dev.cruFree (d : Dev) : Word :=
  place 30 16 d.withheld ||| place 14 0 (if d.rst.phase = .trained ∨ d.rst.phase = .ready then d.free none else 0)

/-- `CRU_USE`. -/
def Dev.cruUse (d : Dev) : Word := place 30 16 d.lent ||| place 14 0 (d.scanUse none)

/-- `CRU_SPARE`. -/
def Dev.cruSpare (d : Dev) : Word :=
  place 26 16 (d.cru.spares.filter fun e => e.2 = 2).length ||| place 11 0 (d.cru.spares.map (·.2)).sum

end Sys2Proof.Machine
end

