-- ==== Sys2Proof/Machine/Live.lean ====
section
/-!
DEFINITION. The live causes of the fault sources (R338, R352), and what each page shows of them (R337, R339, R409).
-/
namespace Sys2Proof.Machine

/-- The running image slot is not the slot with the higher generation (R356). In recovery mode no slot runs. -/
def Dev.fallback (d : Dev) : Bool :=
  let slot := fun k => FMap.get (fun _ => ({} : Slot)) d.svc.slots k
  d.svc.mode ≠ .recovery && d.collects &&
    decide ((slot d.svc.slot).generation.toNat < (slot (1 - d.svc.slot)).generation.toNat)

/-- The pair of port `n` shows its canvas nowhere after a trigger: neither the live port of a cold pair nor its standby is ready,
or both ports of a warm pair have failed (R35). -/
def Dev.notShown (d : Dev) (n : Nat) : Bool :=
  let x := d.port n
  let y := d.port (d.partner n)
  d.pairOk n && !x.ready && !y.ready && x.failed ≠ 0 && (if d.pairMode n = 2 then !x.standby else y.failed ≠ 0)

/-- The live cause of source `n`: it holds for some unit instance (R338). An event source has none. -/
def Dev.liveCause (d : Dev) (n : Nat) : Bool :=
  let pipes := fun c => d.comp.pipes.any fun e => e.2.role = .fenced && e.2.cause.toNat = c
  match n with
  | 32 => decide (d.hif.gen < 6) || decide (d.hif.width < 16)
  | 64 => (List.range 8).any fun k => d.pllBusy k && !d.pllLocked k
  | 96 => d.tb.lost
  | 129 => d.fallback
  | 130 => !d.svc.warm.isEmpty
  | 131 => !d.svc.crit.isEmpty
  | 132 => d.svc.supply.any fun e => e.2.live
  | 194 => !d.cru.stuck.isEmpty
  | 195 => !d.cru.withheld.isEmpty || d.cru.brokenLocal.any fun m => (d.pipe (Config.macroOwner m).val).role = .fenced
  | 224 => d.ledger.overBud
  | 256 => d.queues.any fun e => e.2.state = .halted
  | 258 => (List.range 64).any d.nfull
  | 288 => pipes 1
  | 289 => pipes 2
  | 290 => pipes 3
  | 292 => d.exhausted
  | 352 => d.canvases.any fun e => e.2.underrun
  | 353 => d.canvases.any fun e => e.2.lock.lstate = .holdover
  | 354 => (List.range 128).any d.notShown
  | 384 => (List.range 128).any d.quadBad
  | 385 => d.ports.any fun e => e.2.state = .linkLost
  | 386 => d.ports.any fun e => e.2.state = .noSink
  | 387 => d.ports.any fun e => d.pairOk e.1 && e.2.failed ≠ 0
  | 417 => d.chans.any fun e => e.2.state = .halted
  | 418 => d.chans.any fun e => e.2.state = .fenced
  | 482 => d.engines.any fun e => e.2.parity
  | 483 => d.regions.any fun e => e.2.fail
  | 484 => d.regions.any fun e => e.2.invalid
  | 514 => (List.range 18).any d.siteOverRate
  | 515 => !d.lostPositions.isEmpty
  | 516 => d.mct.spareLost
  | 517 => d.memLost
  | 544 => d.mct.lanes.any fun e => e.2.state = .waiting || e.2.state = .retraining
  | 545 => d.mct.lanes.any fun e => e.2.state = .dead
  | _ => false

/-- The word of 32 source numbers that a page type owns, none for the types that raise no source (R337). -/
def PType.faultWord : PType → Option Nat
  | .flt | .log => some 0
  | .hif => some 1 | .ckr => some 2 | .tmb => some 3 | .svc => some 4 | .acc => some 5 | .cru => some 6
  | .ldg => some 7 | .cqe | .queue => some 8 | .cmp => some 9 | .gth => some 10 | .cnv => some 11 | .dpt => some 12
  | .dma | .chan => some 13 | .mrv => some 14 | .cvu => some 15 | .mct | .site => some 16 | .lhr => some 17
  | .scn | .csp => none

/-- `FLT_LIVE[k]`. -/
def Dev.liveWord (d : Dev) (k : Nat) : Word :=
  srcTable.foldl (fun w e => if e.1 / 32 = k ∧ d.liveCause e.1 then w ||| flag (e.1 % 32) true else w) 0

/-- A unit whose fence `PAGE_STAT.FENCED` shows is fenced (R409). -/
def Dev.pageFenced (d : Dev) (t : PType) (i : Nat) : Bool :=
  match t with
  | .cmp => (d.pipe i).role = .fenced
  | .dpt => (d.port i).fenced
  | .chan => (d.chan i).state = .fenced
  | .cvu => (d.engine i).state = .fenced
  | .site => (d.site i).fenced
  | .mct => (List.range 18).any fun s => (d.site s).fenced
  | .gth => (d.pipe (i / 8)).role = .fenced
  | .hif | .ckr | .tmb | .svc | .acc | .flt | .log | .cru | .ldg | .scn | .mrv | .cqe | .lhr | .csp | .cnv | .dma
  | .queue => false

end Sys2Proof.Machine
end

