-- ==== Sys2Proof/Machine/Faruo.lean ====
section
/-!
DEFINITION. Faruo, the service core (R353 to R362): the tick, the watchdogs, and the mailbox.
-/
namespace Sys2Proof.Machine

/-! ## Slots and restarts (R355, R356, R358) -/

/-- Image slot `k`. -/
def Dev.slot (d : Dev) (k : Nat) : Slot := FMap.get (fun _ => {}) d.svc.slots k
/-- `d` with image slot `k` replaced. -/
def Dev.setSlot (k : Nat) (x : Slot) (d : Dev) : Dev :=
  { d with svc := { d.svc with slots := FMap.put (fun _ => {}) d.svc.slots k x } }
/-- The slot that is not running. -/
def Dev.otherSlot (d : Dev) : Nat := 1 - d.svc.slot

/-- Firmware-fallback fires where `k` makes its cause begin (R352, R356). -/
def Dev.watchFallback (k : Dev → Dev) (d : Dev) : Dev :=
  let e := k d
  if e.fallback && !d.fallback then e.fire 129 0 (dbits 0 e.svc.slot) else e

/-- The mailbox command ends with a result. A response word that the answer does not name has no value of the manual's
(notes/assumptions/15.md). -/
def Dev.mbAnswer (code : Nat) (words : List (Option Word)) (d : Dev) : Dev :=
  let v := d.svc
  { d with svc := { v with
      mb := 2, taken := false, result := BitVec.ofNat 8 code
      rsp := (List.range 4).map fun m => ((words.getD m none).getD (Config.openResponse v.op m d.now)) } }

/-- The core restarts: `MODE` reads RESTARTING until its first tier 0, and a command that was running is abandoned. One that is
written while it restarts waits (R355). Scrub stops with Faruo (R302). -/
def Dev.restartCore (d : Dev) : Dev :=
  let d := if d.svc.mb = 1 ∧ d.svc.mode ≠ .restarting then d.mbAnswer 6 [] else d
  { d with svc := { d.svc with mode := .restarting, lastKick := d.now }, cru := { d.cru with scrubGrant := 0 } }

/-- The watchdog restarts the core; a third restart within 10 s boots the other slot where that authenticates, and
what was staged for that slot is gone (R355). -/
def Dev.watchdogRestart (d : Dev) : Dev :=
  let n := d.svc.restarts + 1
  let times := (d.svc.restartTimes.filter fun t => decide (d.now < t + 10000000000)) ++ [d.now]
  let swap := decide (3 ≤ times.length) && (d.slot d.otherSlot).image.isSome
  let d := ({ d with svc := { d.svc with restarts := n, restartTimes := if swap then [] else times } }.restartCore).fire
    128 0 (dbits 0 n.toNat)
  if swap then
    d.watchFallback fun d => { d with svc := { d.svc with slot := d.otherSlot, fellBack := true, stage := {} } }
  else d

/-- SERVICE_WATCHDOG: no tier 0 kick has come for `SVC_WD.MS` (R355). -/
def execServiceWatchdog (s : State) : Host.Outcome State Fault Refusal :=
  s.dev! fun d => d.when (d.collects && d.svc.mode = .normal &&
    decide (d.svc.lastKick + 1000000 * d.fld .svc 0 SVC_WD 6 0 ≤ d.now)) Dev.watchdogRestart

/-- ACTIVATION_WATCHDOG: a new image has not kicked the watchdog within 500 ms: the core returns to the previous slot and
marks the new one invalid (R358). -/
def execActivationWatchdog (s : State) : Host.Outcome State Fault Refusal :=
  s.dev! fun d =>
    match d.svc.trial with
    | some (t, prev) => d.when (decide (t + 500000000 ≤ d.now)) fun d =>
        let d := d.setSlot d.svc.slot { d.slot d.svc.slot with image := none }
        (d.watchFallback fun d =>
          { d with svc := { d.svc with slot := prev, trial := none, fellBack := true, stage := {} } }).restartCore
    | none => d

/-! ## Tier 0 (R353, R359) -/

/-- The nominal rail voltages in mV (R393). -/
def railNominal : List Nat := [750, 850, 1200, 750, 900, 900, 1800, 1800]

/-- A new value of a sampled quantity; the first one is its own least and greatest. -/
def Sample.take (x : Option Sample) (v : Int) : Sample :=
  match x with
  | some s => { now := v, least := min s.least v, most := max s.most v }
  | none => { now := v, least := v, most := v }

/-- Samples taken in order. -/
def takeAll (old : List Sample) (vs : List Int) : List Sample :=
  (List.range vs.length).map fun i => Sample.take old[i]? (vs.getD i 0)

/-- One thermal source: the sensors for which its cause has begun, and those for which it begins now. It goes away once
every sensor reads 3 °C below the threshold. -/
def thermal (limit : Int) (live : List Nat) (vs : List Int) : List Nat × List Nat :=
  let live := if vs.all fun v => decide (v < limit - 48) then [] else live
  let new := (List.range vs.length).filter fun i => decide (limit ≤ vs.getD i 0) && !live.contains i
  (live ++ new, new)

/-- One rail's monitor after a sample. -/
def RailMon.step (x : RailMon) (nominal tol mv : Nat) : RailMon :=
  let out := decide (tol * nominal < 100 * ((mv : Int) - (nominal : Int)).natAbs)
  let x := if out then { x with bad := min 3 (x.bad + 1), good := 0 } else { x with good := min 3 (x.good + 1), bad := 0 }
  if x.bad = 3 then { x with live := true } else if x.good = 3 then { x with live := false } else x

/-- The temperature of a thermal source's detail. -/
def tempDetail (vs : List Int) (i : Nat) : BitVec 128 := dbits 0 (ofInt 16 (vs.getD i 0)).toNat

/-- Sensors are sampled and judged (R359). -/
def Dev.sample (temps : List Int) (rails : List Nat) (d : Dev) : Dev :=
  let v := d.svc
  let (warm, w) := thermal v.warnT v.warm temps
  let (crit, c) := thermal v.critT v.crit temps
  let rail := fun i => FMap.get (fun _ => ({} : RailMon)) v.supply i
  let next := fun i => (rail i).step (railNominal.getD i 0) v.tol (rails.getD i 0)
  let idx := List.range (min 8 rails.length)
  let d := { d with svc := { v with
    temps := takeAll v.temps temps, rails := takeAll v.rails (rails.map fun (n : Nat) => (n : Int)), warm := warm
    crit := crit, supply := idx.foldl (fun m i => FMap.put (fun _ => {}) m i (next i)) v.supply } }
  let d := w.foldl (fun d i => d.fire 130 i (tempDetail temps i)) d
  let d := c.foldl (fun d i => d.fire 131 i (tempDetail temps i)) d
  (idx.filter fun i => (next i).live && !(rail i).live).foldl (fun d i => d.fire 132 i (dbits 0 (rails.getD i 0 % 65536))) d

/-- `FR_CYC` = ⌈2 × `RFC_NS` × f_C⌉ for the memory timing and the compose clock (R273). -/
def frCycles (rfc mhz : Nat) : Nat := ceilDiv (2 * rfc * mhz) 1000

/-- `w`, a value of `MCT_REF`, with the timing that training arrived at (R273). -/
def Dev.refWord (d : Dev) (w : Word) : Word :=
  (w &&& 0xF0000000) ||| place 25 16 d.mct.timing.rfc.toNat ||| place 9 0 d.mct.timing.int.toNat

/-- Faruo writes `MCT_REF` from the trained timing, staged as every write of it is; `DEBT_MAX` is none of the timing
(R273, R353). -/
def Dev.rewriteRef (d : Dev) : Dev :=
  let old := d.view .mct 0 MCT_REF
  if d.refWord old = old then d else d.setStagedAt (regAt .mct 0 MCT_REF) (some (d.refWord old))

/-- Faruo rewrites `FR_CYC` where the memory timing or f_C has changed since it last did, and the ledger re-evaluates
(R80, R273). Where f_C has changed it rewrites `MCT_REF` too (R353; notes/assumptions/21.md). -/
def Dev.rewriteFr (d : Dev) : Dev :=
  let now := (d.fld .mct 0 MCT_REF 25 16, d.clk.cclk)
  if d.svc.mode = .recovery ∨ d.mct.state ≠ 2 ∨ d.svc.frFor = now then d
  else
    let d := if d.svc.frFor.2 = now.2 then d else d.rewriteRef
    let w := place 15 0 (frCycles now.1 now.2)
    let d := { d with svc := { d.svc with frFor := now } }
    if d.reg .ldg 0 LDG_DERATE = w then d else askReeval 4 (d.setReg .ldg 0 LDG_DERATE w)

/-- Tier 0: the kick, which ends a restart and a trial, then sensors, grants and `FR_CYC` (R353, R355, R358). -/
def Dev.tier0 (i : TickInput) (d : Dev) : Dev :=
  let v := d.svc
  let d := { d with svc := { v with
    lastKick := d.now, trial := none, mode := if v.mode = SvcMode.restarting then SvcMode.normal else v.mode } }
  ((((d.sample i.temps i.rails).rebuildGrant).scrubGrant).laneGrants).rewriteFr

/-! ## Tiers 1 and 2 (R354, R358, R360, R362) -/

/-- Tier 1: the waiting command is taken up with its arguments, or is answered BUSY or OPCODE (R360). -/
def Dev.tier1 (tier0Us : Nat) (d : Dev) : Dev :=
  let v := d.svc
  if v.mb ≠ 1 ∨ v.taken then d
  else if 700 < tier0Us then d.mbAnswer 1 []
  else if v.op = 0 ∨ 7 < v.op then d.mbAnswer 2 []
  else { d with svc := { v with taken := true, args := (List.range 4).map fun m => d.reg .svc 0 (SVC_MB_ARG + 4 * m) } }

/-- One KiB of the staged image is programmed; the last one is followed by the header, with the generation of the running
slot plus 1. A program error ends the stage (R358). -/
def Dev.program (flashError : Bool) (d : Dev) : Dev :=
  let g := d.svc.stage
  match g.image with
  | none => d
  | some h =>
    if g.verified ∨ g.failed then d
    else
      let k := d.otherSlot
      let d := d.setSlot k { d.slot k with image := none }
      if flashError then { d with svc := { d.svc with stage := { g with failed := true } } }
      else
        let n := g.done + 1
        let last := decide (ceilDiv h.length 1024 ≤ n)
        let d := { d with svc := { d.svc with stage := { g with done := n, verified := last } } }
        if last then d.watchFallback (Dev.setSlot k { generation := (d.slot d.svc.slot).generation + 1, image := some h })
        else d

/-- The number of log entries behind the newest that the export skips because the log no longer holds them (R362). -/
def Dev.exportLost (d : Dev) : BitVec 32 :=
  let behind := d.flt.wseq - d.svc.exportNext
  if behind.toNat ≤ 4096 then 0 else behind - 4096

/-- The entry numbered `s` has been exported and `lost` entries before it skipped (R362). -/
def Dev.exported (s lost : BitVec 32) (d : Dev) : Dev :=
  { d with svc := { d.svc with exportNext := s + 1, exportSkip := d.svc.exportSkip + lost } }

/-- The next Cullet entry goes to the host buffer; entries that the log no longer holds are skipped and counted (R362). -/
def Dev.exportOne (d : Dev) : Dev :=
  let s := d.svc.exportNext + d.exportLost
  (d.store (d.svc.exportAddr.toNat + 32 * (s.toNat % 2 ^ d.svc.exportLog2))
    (wordsBytes (logWords srcSev (FMap.get (fun _ => none) d.flt.log (s.toNat % 4096))))).exported s d.exportLost

/-- At most `n` entries are exported, while the export runs and entries wait (R362). -/
def Dev.exportAll : Nat → Dev → Dev
  | 0, d => d
  | n + 1, d =>
    if ¬ d.svc.exportOn ∨ d.flt.wseq = d.svc.exportNext then d else Dev.exportAll n d.exportOne

/-- The whole tick. A tier 0 that runs past the next tick start lets that tick pass (R354); a core that `FW_ACTIVATE` is
about to stop runs no tier 2 (R358). -/
def Dev.faruoTick (i : TickInput) (d : Dev) : Dev :=
  let d := d.tier0 i
  let d := d.tier1 i.tier0Us
  let free := decide (i.tier0Us + i.tier1Us < 800) && !(d.svc.taken && d.svc.op = 5 && d.svc.stage.verified)
  let d := if free then (d.program i.flashError).exportAll i.exports else d
  let load := min 255 ((i.tier0Us + i.tier1Us + i.tier2Us) / 10)
  let v := d.svc
  { d with svc := { v with
      tickNo := d.time.toNat / 1000000 + (ceilDiv i.tier0Us 1000 - 1), load := load, peak := max v.peak load
      overruns := if 1000 < i.tier0Us then v.overruns + 1 else v.overruns } }

/-- FARUO_TICK: a tick starts at a timebase multiple of 1,000,000 ns (R353, R354). -/
def execFaruoTick (i : TickInput) (s : State) : Host.Outcome State Fault Refusal :=
  s.dev! fun d => d.when (d.collects && decide (d.svc.tickNo < d.time.toNat / 1000000)) (Dev.faruoTick i)

/-! ## The mailbox (R360, R361) -/

/-- `SVC_MB_CMD` is written with `GO` = 1 by master `m`. -/
def Dev.mailboxGo (m : Nat) (op : Nat) (d : Dev) : Dev :=
  let v := d.svc
  { d with svc := if v.mb = 1 then { v with drop := true }
    else { v with mb := 1, op := op, taken := false, drop := false, mid := m } }

/-- Argument `m` of the command that Faruo has taken up. -/
def Dev.mbArg (d : Dev) (m : Nat) : Word := wordAt d.svc.args m

/-- A command ends with `FLASH` where the flash reports an error, else `k` executes it (R360; notes/assumptions/21.md). -/
def Dev.withFlash (flashError : Bool) (k : Dev → Dev) (d : Dev) : Dev := if flashError then d.mbAnswer 5 [] else k d

/-- The command that tier 1 took up has opcode `op`: `k` executes it, unless recovery mode does not allow it (R357). -/
def Dev.mailbox (op : Nat) (k : Dev → Dev) (d : Dev) : Dev :=
  if ¬ (d.svc.taken ∧ d.svc.op = op) then d
  else if d.svc.mode = .recovery ∧ ¬ [1, 4, 5, 7].contains op then d.mbAnswer 7 []
  else k d

/-- The version of a slot's image, 0 where it is invalid. -/
def slotVersion (x : Slot) : Word := match x.image with | some h => h.version | none => 0

/-- GET_VERSION: the versions are read from the flash, which may report an error. -/
def execGetVersion (flashError : Bool) (s : State) : Host.Outcome State Fault Refusal :=
  s.dev! fun d => d.mailbox 1 <| Dev.withFlash flashError fun d =>
    let run := d.slot d.svc.slot
    d.mbAnswer 0 [some (slotVersion run), some (slotVersion (d.slot d.otherSlot)), some (place 0 0 d.svc.slot), some run.generation]

/-- GET_SENSOR. -/
def execGetSensor (s : State) : Host.Outcome State Fault Refusal :=
  s.dev! fun d => d.mailbox 2 fun d =>
    let w := d.mbArg 0
    let i := bits w 3 0
    if bit w 4 && decide (8 ≤ i) then d.mbAnswer 3 []
    else
      let x := (if bit w 4 then d.svc.rails else d.svc.temps).getD i {}
      d.mbAnswer 0 [some (ofInt 32 x.now), some (ofInt 32 x.least), some (ofInt 32 x.most)]

/-- The thresholds that the arguments name take effect, where they are legal. -/
def Dev.setThresholds (d : Dev) : Dev :=
  let warn := ((d.mbArg 0).extractLsb' 0 16).toInt
  let crit := ((d.mbArg 1).extractLsb' 0 16).toInt
  let tol := bits (d.mbArg 2) 7 0
  if decide (960 ≤ warn) && decide (warn < crit) && decide (crit ≤ 2000) && decide (1 ≤ tol) && decide (tol ≤ 20) then
    { d with svc := { d.svc with warnT := warn, critT := crit, tol := tol } }.mbAnswer 0 []
  else d.mbAnswer 3 []

/-- SET_THRESH: thresholds in Q12.4 °C and %. -/
def execSetThresh (s : State) : Host.Outcome State Fault Refusal := s.dev! (Dev.mailbox 3 Dev.setThresholds)

/-- A stage is being programmed. -/
def Stage.busy (g : Stage) : Bool := g.image.isSome && !g.verified && !g.failed

/-- The image at the device address that the arguments name is staged: `image` where it authenticates. Its length is 1 MiB to
8 MiB (DEDUCED, notes/assumptions/21.md). -/
def Dev.stageImage (image : Option ImageHeader) (flashError : Bool) (d : Dev) : Dev :=
  let len := (d.mbArg 2).toNat
  let a := (quad (d.mbArg 0) (d.mbArg 1)).toNat
  if d.svc.stage.busy || d.svc.fellBack then d.mbAnswer 7 []
  else if len < 0x100000 ∨ 0x800000 < len then d.mbAnswer 3 []
  else if flashError then d.mbAnswer 5 []
  else match d.readRes 64 a len, image with
    | .ok, some h => { d with svc := { d.svc with stage := { image := some h } } }.mbAnswer 0 []
    | _, _ => (d.noteRead 64 false a len).mbAnswer 4 []

/-- FW_STAGE: `image` is the image at the device address where it authenticates (R358). -/
def execFwStage (image : Option ImageHeader) (flashError : Bool) (s : State) : Host.Outcome State Fault Refusal :=
  s.dev! (Dev.mailbox 4 (Dev.stageImage image flashError))

/-- FW_ACTIVATE: the core stops and starts the staged image; in recovery mode it boots at the next reset (R357, R358). -/
def execFwActivate (flashError : Bool) (s : State) : Host.Outcome State Fault Refusal :=
  s.dev! fun d => d.mailbox 5 fun d =>
    if ¬ d.svc.stage.verified then d.mbAnswer 7 []
    else if flashError then d.mbAnswer 5 []
    else
      let d := d.mbAnswer 0 []
      let v := d.svc
      if v.mode = .recovery then { d with svc := { v with activated := true } }
      else { d with svc := { v with slot := d.otherSlot, stage := {}, trial := some (d.now, v.slot) } }.restartCore

/-- LOG_EXPORT. -/
def execLogExport (s : State) : Host.Outcome State Fault Refusal :=
  s.dev! fun d => d.mailbox 6 fun d =>
    let n := bits (d.mbArg 2) 4 0
    let a := quad (d.mbArg 0) (d.mbArg 1)
    if n = 0 then { d with svc := { d.svc with exportOn := false } }.mbAnswer 0 []
    else if n < 6 ∨ 16 < n ∨ a.toNat % 64 ≠ 0 ∨ a.toNat < 0x8000000000000000 then d.mbAnswer 3 []
    else { d with svc := { d.svc with exportOn := true, exportAddr := a, exportLog2 := n } }.mbAnswer 0 []

/-- The progress of a stage in per cent. -/
def Stage.progress (g : Stage) : Nat :=
  match g.image with
  | some h => min 100 (100 * g.done / max 1 (ceilDiv h.length 1024))
  | none => 0

/-- GET_STATUS. -/
def execGetStatus (s : State) : Host.Outcome State Fault Refusal :=
  s.dev! fun d => d.mailbox 7 fun d =>
    let v := d.svc
    let g := v.stage
    { d with svc := { v with peak := 0 } }.mbAnswer 0
      [some (flag 9 g.failed ||| flag 8 g.verified ||| place 7 0 g.progress), some v.exportNext, some v.exportSkip,
       some (place 7 0 v.peak)]

/-! ## Status -/

/-- The code of Faruo's mode. -/
def SvcMode.code : SvcMode → Nat
  | .normal => 0 | .recovery => 1 | .restarting => 2

/-- `SVC_STAT`. -/
def Dev.svcStat (d : Dev) : Word := place 31 30 d.svc.mode.code ||| flag 29 d.fallback ||| place 28 28 d.svc.slot

/-- `SVC_MB_STAT`. -/
def Dev.mailboxStat (d : Dev) : Word :=
  place 31 30 d.svc.mb ||| flag 29 d.svc.drop ||| place 22 16 d.svc.mid ||| place 7 0 d.svc.result.toNat

end Sys2Proof.Machine
end

