-- ==== Sys2Proof/Machine/Resets.lean ====
section
/-!
DEFINITION. Start-up, resets and the host link (R282 to R284, R301, R356, R357, R372 to R379, R388, R404). The readings
that this file takes of the manual are listed in notes/assumptions/22.md.
-/
namespace Sys2Proof.Machine

/-! ## Cold reset and start-up (R356, R377 to R379) -/

/-- A port that a reset clears: the level at its `HPD` pin is the sink's. -/
def Dev.barePort (d : Dev) (x : Port) : Port := { hpdPin := x.hpdPin, edgeAt := d.now }

/-- Every port reset, with the levels at the `HPD` pins. -/
def Dev.barePorts (d : Dev) : FMap Port := (d.ports.filter fun e => e.2.hpdPin).map fun e => (e.1, d.barePort e.2)

/-- The device after a cold reset: every register at its Reset column value and every memory lost. The flash with the slot that
recovery mode has activated in it (R357), host memory, the density of the sites, the levels at the `HPD` pins and the test access port are not the reset's. -/
def Dev.cold (d : Dev) : Dev :=
  { now := d.now
    mem := d.mem.filter fun e => decide (0x8000000000000000 ≤ e.1)
    ports := d.barePorts
    mct := { dens4 := d.mct.dens4 }
    svc := { slots := d.svc.slots, activated := d.svc.activated }
    pins := { tapReset := d.pins.tapReset, tap := d.pins.tap, boundary := d.pins.boundary } }

/-- COLD_RESET: `PWR_OK` or `RESET_N` goes low (R372). -/
def execColdReset (s : State) : Host.Outcome State Fault Refusal := s.dev! Dev.cold

/-- RESET_N_RISE: the system clocks lock, the timebase starts at 0, the boot ROM starts, and the SMBus straps are sampled
(R368, R378, R390). Where the reference clocks had not run within specification, start-up is not defined (R377). -/
def execResetNRise (clocksStable : Bool) (straps : BitVec 2) (s : State) : Host.Outcome State Fault Refusal :=
  if s.dev.rst.phase ≠ .reset then .next s
  else if ¬ clocksStable then .fault .startUpUndefined
  else s.dev! fun d =>
    { d with rst := { phase := .rom }, tb := { run := true }, pins := { d.pins with straps := straps } }

/-- The budgets as the present state makes them. -/
def Dev.rebudget (d : Dev) : Dev := { d with ledger := { d.ledger with memBud := d.memBud, pipeBud := d.pipeBud } }

/-- Hash mask `n` of a boot configuration; one that breaks the rule of R267 is ignored. -/
def Dev.bootMask (n : Nat) (m : BitVec 40) (d : Dev) : Dev :=
  if hashMaskOk n (m.setWidth 32) then
    (d.setReg .mct 0 (MCT_HASH_LO + 8 * n) (m.setWidth 32)).setReg .mct 0 (MCT_HASH_HI + 8 * n) ((m >>> 32).setWidth 32)
  else d

/-- The image of slot `k` boots: its boot configuration is applied, Faruo and the collector run, and the level sources
whose cause holds already fire (R356, R378, event 5). `fell` says that the slot was not the first choice. -/
def Dev.boot (k : Nat) (h : ImageHeader) (fell : Bool) (d : Dev) : Dev :=
  let d := d.setReg .ckr 0 CKR_CCLK (place 10 0 h.cclk)
  let d := (List.range 6).foldl (fun d n => d.bootMask n (h.hash.getD n 0)) d
  let d := { d with
    comp := { d.comp with stepAt := d.time }
    clk := { d.clk with cclk := h.cclk, ledger := h.cclk, change := 0 }
    svc := { d.svc with mode := SvcMode.normal, slot := k, fellBack := fell, activated := false, trial := none,
                        lastKick := d.now, tickNo := d.time.toNat / 1000000 }
    flt := { d.flt with window := d.time.toNat / 1000000 }
    rst := { d.rst with phase := .booted } }
  let d := if d.liveCause 32 then d.fire 32 0 (dbits 0 d.hif.gen ||| dbits 4 d.hif.width) else d
  (if d.liveCause 129 then d.fire 129 0 (dbits 0 k) else d).rebudget

/-- The slot that the boot ROM tries first: the one with the higher generation (R356). -/
def firstSlot (s0 s1 : Slot) : Nat := if s0.generation.toNat < s1.generation.toNat then 1 else 0

/-- Neither slot authenticates: the device starts in recovery mode (R357). -/
def Dev.recover (d : Dev) : Dev :=
  { d with
    svc := { d.svc with mode := SvcMode.recovery, tickNo := d.time.toNat / 1000000 }
    flt := { d.flt with window := d.time.toNat / 1000000 }, rst := { d.rst with phase := .booted } }

/-- The boot ROM tries slot `k` of the flash, then the other (R356). -/
def Dev.trySlots (k : Nat) (d : Dev) : Dev :=
  match (d.slot k).image, (d.slot (1 - k)).image with
  | some h, _ => d.boot k h false
  | none, some h => d.boot (1 - k) h true
  | none, none => d.recover

/-- Slot `k` holds what the board has written to the flash from outside, if it has (notes/assumptions/22.md). -/
def Dev.boardWrites (k : Nat) (x : Option Slot) (d : Dev) : Dev := match x with | some x => d.setSlot k x | none => d

/-- BOOT_AUTHENTICATION: the boot ROM tries the slots of the flash, first one that recovery mode has activated, else the one
with the higher generation, and the first that authenticates boots; where neither does, the device starts in recovery mode
(R356, R357). -/
def execBootAuthentication (slot0 slot1 : Option Slot) (s : State) : Host.Outcome State Fault Refusal :=
  s.dev! fun d => d.when (d.rst.phase = .rom) fun d =>
    let d := (d.boardWrites 0 slot0).boardWrites 1 slot1
    d.trySlots (if d.svc.activated then d.otherSlot else firstSlot (d.slot 0) (d.slot 1))

/-- BIST_COMPLETE: the start-up test and row repair end, and memory initialisation and training begin (R283, R301). -/
def execBistComplete (failing : List (Fin 1536 × Fin 512)) (s : State) : Host.Outcome State Fault Refusal :=
  s.dev! fun d => d.when (d.rst.phase = .booted && d.svc.mode ≠ .recovery) fun d =>
    let d := d.bist (failing.map fun e => (e.1.val, e.2.val))
    { d with rst := { d.rst with phase := .tested }, mct := { d.mct with state := 1 } }

/-- Port supervision begins: `HPD` reads 0 until each pin has been high for the debounce time from now (R172). -/
def Dev.supervise (d : Dev) : Dev :=
  d.ports.foldl (fun d e => d.setPort e.1 { d.port e.1 with hpd := false, edgeAt := d.now, lossDone := true }) d

/-- The trial values of a sweep that pass, from 0 on. -/
def trialBits {n : Nat} (v : BitVec n) : List Bool := (List.range n).map v.getLsbD

/-- What the steps of start-up training choose for a lane with settings `x`: thresholds at mid delay, the read delay, the
thresholds again, the write delay; and the widest runs of the two delays (R282). -/
def trainedLane (p : LanePasses) (x : LaneSet) : LaneResult :=
  let lo := sweepCentre x.thrLo.toNat (trialBits p.lo1)
  let hi := sweepCentre x.thrHi.toNat (trialBits p.hi1)
  { set := { rdDly := BitVec.ofNat 7 (sweepCentre 64 (trialBits p.rd)), wrDly := BitVec.ofNat 7 (sweepCentre x.wrDly.toNat (trialBits p.wr))
             thrLo := BitVec.ofNat 6 (sweepCentre lo (trialBits p.lo2)), thrHi := BitVec.ofNat 6 (sweepCentre hi (trialBits p.hi2)) }
    rdRun := (widestRun (trialBits p.rd)).2, wrRun := (widestRun (trialBits p.wr)).2 }

/-- What training found on lane `l`: the settings chosen are its current and its trained ones; it passes and is tracked, or
it is dead and its site is fenced with cause 1 (R282, R284). -/
def Dev.trainLane (l : Nat) (p : LanePasses) (d : Dev) : Dev :=
  let r := trainedLane p (d.lane l).cur
  let x := { d.lane l with cur := r.set, trn := r.set }
  if d.minEye ≤ r.rdRun ∧ d.minEye ≤ r.wrRun then
    let rd := clampEye ((r.rdRun / 2 : Nat) : Int)
    let wr := clampEye ((r.wrRun / 2 : Nat) : Int)
    d.setLane l { x with rdL := rd, rdR := rd, wrL := wr, wrR := wr, state := .tracking }
  else
    let site := d.site (l / 4)
    ((d.setLane l { x with state := .dead }).setSite (l / 4) { site with fenced := true, cause := 1 }).fire 545 l (dbits 0 1)

/-- The sites fenced at start-up: the spare is substituted for one position, and every other position without a site is
unavailable (R284). -/
def Dev.startSites (d : Dev) : Dev :=
  let lost := (List.range 17).filter fun s => (d.site s).fenced
  let spare := !(d.site 17).fenced
  let d := match lost, spare with
    | [], true => d
    | p :: rest, true => d.setSpare (.substituted p) rest
    | ps, false => (d.setSpare .none ps).spareIsLost
  let d := d.mct.gone.foldl (fun d p => d.fire 515 p (dbits 0 p ||| dbits 8 1)) d
  if d.memLost then d.fire 517 0 (d.lostPositions.foldl (fun m p => m ||| dbits p 1) 0) else d

/-- The lanes of a fenced site that passed training are not tracked (R292). -/
def Dev.startLanes (d : Dev) : Dev :=
  ((List.range 18).filter fun s => (d.site s).fenced).foldl (fun d s => d.lanesOff s) d

/-- Faruo writes `MCT_REF` and `FR_CYC` from the timing that training has arrived at, in every ganged channel (R273, R378,
event 8). -/
def Dev.writeTiming (t : MemTiming) (d : Dev) : Dev :=
  let d := { d with mct := { d.mct with timing := t } }
  let w := d.refWord (d.reg .mct 0 MCT_REF)
  let d := (List.range 4).foldl (fun d g => d.setGang g { d.gang g with ref := w }) (d.setReg .mct 0 MCT_REF w)
  let d := { d with svc := { d.svc with frFor := (t.rfc.toNat, d.clk.cclk) } }
  d.setReg .ldg 0 LDG_DERATE (place 15 0 (frCycles t.rfc.toNat d.clk.cclk))

/-- The re-evaluations that the end of training asks for, `d` before it and `e` after: of the memory state, with which the pin
rate counts, and of `LDG_DERATE` (R80; notes/assumptions/22.md). -/
def Dev.askTrained (d e : Dev) : Dev :=
  let f := if d.mstate = e.mstate ∧ d.memBud = e.memBud then e else askReeval 2 e
  if d.reg .ldg 0 LDG_DERATE = e.reg .ldg 0 LDG_DERATE then f else askReeval 4 f

/-- MEMORY_TRAINING_COMPLETE: the outcomes of training apply, `STATE` reads RUNNING, Faruo writes `MCT_REF` and `FR_CYC`,
reference PLL 0 reads `LOCKED`, and port supervision begins (R80, R151, R283, R284, R378, events 7 and 8). -/
def execMemoryTrainingComplete (lanes : List LanePasses) (timing : MemTiming) (s : State) :
    Host.Outcome State Fault Refusal :=
  s.dev! fun before => before.when (before.rst.phase = .tested) fun d =>
    let d := (lanes.zipIdx.take 72).foldl (fun d e => d.trainLane e.2 e.1) d
    let d := d.startSites.startLanes
    let rate := match (d.slot d.svc.slot).image with | some h => h.pinRate | none => 0
    let d := { d with mct := { d.mct with state := 2, rate := rate }, rst := { d.rst with phase := .trained } }
    let d := if d.flg .ckr 0 CKR_PLL 31 then d.setPllLocked 0 true else d
    before.askTrained (d.writeTiming timing).supervise.rebudget

/-- DEVICE_READY: configuration completes normally and `READY` reads 1, after training or in recovery mode (R378,
R379). -/
def execDeviceReady (s : State) : Host.Outcome State Fault Refusal :=
  s.dev! fun d =>
    let ready := fun (d : Dev) => { d with rst := { d.rst with phase := .ready } }
    match d.rst.phase with
    | .trained => ready d
    | .booted => if d.svc.mode = .recovery then (ready d).supervise else d
    | .reset | .rom | .tested | .ready => d

/-! ## Warm reset (R303, R307, R351, R372 to R374) -/

/-- The registers that a warm reset keeps (R374). -/
def warmKeeps (a : Nat) : Bool :=
  let off := a % 0x4000
  match pageOf (a / 0x4000) with
  | some (.tmb, _) | some (.svc, _) => true
  | some (.ckr, _) => off = CKR_CCLK
  | some (.cru, _) => off = CRU_UREG
  | some (.ldg, _) => off = LDG_DERATE
  | some (.mct, _) => off = MCT_REF || (decide (MCT_HASH_LO ≤ off) && decide (off < MCT_HASH_LO + 48))
  | some (.site, _) => off = MCT_SITE_THR
  | _ => false

/-- Whether a warm reset keeps a page's header. -/
def warmKeepsPage (n : Nat) : Bool := n = PType.tmb.page || n = PType.svc.page

/-- A warm reset is triggered: canvases, ports, queues, rings, channels, engines and Marver stop where they stand; requests
not yet at their commit point are discarded. `kind` is 1 hot reset, 2 `WARM`, 3 a function-level reset of the PF. The
trigger has no effect before the device is ready or during a warm reset. -/
def Dev.warmTrigger (kind : Nat) (d : Dev) : Dev :=
  if d.rst.phase ≠ .ready ∨ d.rst.warm ≠ 0 then d
  else
    let k := if d.clk.change = 4 then { d.clk with ledger := d.cclkTarget, change := 0 } else d.clk
    { d with
      rst := { d.rst with warm := kind, flr := [] }
      scene := { d.scene with admQ := [] }
      queues := (d.queues.filter fun e => e.2.epoch ≠ 0).map fun (e : Nat × Queue) => (e.1, { epoch := e.2.epoch })
      turn := none, lastTurn := 255, rings := [], canvases := [], comp := {}, ports := d.barePorts, chans := []
      timers := [], mrv := {}, engines := [], clk := k, pins := { d.pins with fsyncOut := false } }

/-- HOT_RESET: a PCIe hot reset. -/
def execHotReset (s : State) : Host.Outcome State Fault Refusal := s.dev! (Dev.warmTrigger 1)

/-- PF_FUNCTION_LEVEL_RESET: a function-level reset of the PF. -/
def execPfFunctionLevelReset (s : State) : Host.Outcome State Fault Refusal := s.dev! (Dev.warmTrigger 3)

/-- The register pages after a warm reset. -/
def Regs.warm (r : Regs) : Regs :=
  { eff := r.eff.filter fun e => warmKeeps e.1
    staged := r.staged.filter fun e => warmKeeps e.1
    arms := r.arms.filter fun e => warmKeepsPage (e.1 / 128)
    hold := r.hold.filter fun e => warmKeepsPage e.1
    discarded := r.discarded.filter fun e => warmKeepsPage e.1
    snaps := r.snaps.filter fun e => warmKeepsPage e.1 }

/-- A witness region after a warm reset: every canvas is OFF, so words that waited for a frame start are in effect. -/
def Region.warm (r : Region) : Region :=
  { r with words := r.next.foldl (fun m e => match e.2 with | some w => FMap.put (fun _ => 0) m e.1 w | none => m) r.words
           next := [], heldLo := none, armed := false }

/-- The pages of the units reset, apart from what R374 keeps. The reference PLLs whose control the reset changes lose
lock. -/
def Dev.warmPages (d : Dev) : Dev :=
  let before := d
  let d := { d with
    regs := d.regs.warm, acc := {}, ledger := {}
    regions := d.regions.map fun (e : Nat × Region) => (e.1, e.2.warm)
    cru := { d.cru with corrected := 0, uncorr := 0, lastOff := 0, passes := 0 }
    mct := { d.mct with moves := 0 }
    flt := { d.flt with cfg := [], rdDone := false, rdMatch := false, rdMid := 0, rdWords := [] } }
  (List.range 8).foldl (fun d k =>
    pllControl k (before.reg .ckr 0 (CKR_PLL + 4 * k)) (d.reg .ckr 0 (CKR_PLL + 4 * k)) d) d

/-- The changes past their commit point complete in its order, without notices (R373). -/
def Dev.landFlight (d : Dev) : Dev :=
  let d := d.scene.flight.foldl (fun d a => if a.done then d else
    let d := d.writeTables a
    { d with scene := { d.scene with flight := d.scene.flight.map fun b => if b.no = a.no then { b with done := true } else b } })
    d
  { d with scene := { d.scene with flight := [] } }

/-- Event 4 of R373. -/
def Dev.warmDone (d : Dev) : Dev :=
  let kind := d.rst.warm
  let d := d.landFlight.warmPages
  let h := if kind = 2 then d.hif else { d.hif with msix := [], msixPend := [] }
  let d := { d with hif := h, rst := { d.rst with warm := 0 }, comp := { d.comp with stepAt := d.time } }
  let d := (d.supervise.rebudget).fire 0 0 (dbits 0 kind)
  match d.svc.activated && d.svc.mode = .recovery, (d.slot d.otherSlot).image with
  | true, some h => d.boot d.otherSlot h false
  | _, _ => d

/-- WARM_RESET_COMPLETE: outstanding requests have completed or timed out and the pages reset (R373, events 3 and 4). -/
def execWarmResetComplete (s : State) : Host.Outcome State Fault Refusal :=
  s.dev! fun d => d.when (d.rst.warm ≠ 0) Dev.warmDone

/-! ## Function-level reset of a VF (R205, R375) -/

/-- The reset in progress of function `v`. -/
def Dev.flrOf (d : Dev) (v : Nat) : Flr := FMap.get (fun _ => {}) d.rst.flr v
/-- `d` with the reset of function `v` replaced. -/
def Dev.setFlr (v : Nat) (x : Flr) (d : Dev) : Dev :=
  { d with rst := { d.rst with flr := FMap.put (fun _ => {}) d.rst.flr v x } }

/-- A queue of the VF drains, and its indices then return to 0 (R205). -/
def Dev.flrQueue (q : Nat) (d : Dev) : Dev :=
  let x := { d.queue q with en := false, enPending := false, cfgErr := false }
  match x.state with
  | .off => (d.setQueue q { x with head := 0, cidx := 0 }).setReg .queue q CQE_PIDX 0
  | .running | .halted =>
    let d := (d.setQueue q x).drainQueue q
    d.setQueue q { d.queue q with flr := true }
  | .draining => d.setQueue q { x with flr := true }

/-- A DMA channel of the VF is disabled and drains; a fenced one ignores it (R213, R227). -/
def Dev.flrChan (ch : Nat) (d : Dev) : Dev :=
  match (d.chan ch).state with
  | .idle | .running | .halted =>
    let d := d.drainChan ch
    d.setChan ch { d.chan ch with flr := true }
  | .draining => d.setChan ch { d.chan ch with en := false, enPending := false, flr := true }
  | .off | .fenced => d

/-- A check engine of the VF is disabled and drains; a fenced one ignores it (R244, R251). -/
def Dev.flrEngine (e : Nat) (d : Dev) : Dev :=
  match (d.engine e).state with
  | .idle | .running =>
    let d := d.drainEngine e
    d.setEngine e { d.engine e with flr := true }
  | .draining => d.setEngine e { d.engine e with en := false, enPending := false, flr := true }
  | .off | .fenced => d

/-- `MRV_IRQ.FN`. -/
def Dev.mrvFn (d : Dev) : Nat := d.fld .mrv 0 MRV_IRQ 31 26
/-- `CVU_CFG.FN` of engine `e`. -/
def Dev.engineFn (d : Dev) (e : Nat) : Nat := d.fld .cvu e CVU_CFG 31 26

/-- The queues whose owner is function `v`. -/
def Dev.queuesOf (d : Dev) (v : Nat) : List Nat := (List.range 256).filter fun q => d.owner q = v

/-- Steps 1 and 2 of R375. The VF's MSI-X structures reset with its configuration space. -/
def Dev.startFlr (v : Nat) (d : Dev) : Dev :=
  let d := (d.queuesOf v).foldl (fun d q => d.flrQueue q) d
  let d := d.flrRing v
  let d := ((List.range 64).filter fun ch => d.chanFn ch = v).foldl (fun d ch => d.flrChan ch) d
  let d := ((List.range 16).filter fun e => d.engineFn e = v).foldl (fun d e => d.flrEngine e) d
  let d := if d.mrvFn = v then d.abortMarver else d
  { d with hif := { d.hif with
      msix := d.hif.msix.filter fun e => e.1 / 256 ≠ v, msixPend := d.hif.msixPend.filter fun e => e.1 / 64 ≠ v } }.setFlr
    v { active := true }

/-- FUNCTION_LEVEL_RESET of VF `v` (R375). -/
def execFunctionLevelReset (v : Fn) (s : State) : Host.Outcome State Fault Refusal :=
  s.dev! fun d => d.when (v.val ≠ 0 && d.rst.phase = .ready && d.rst.warm = 0) (Dev.startFlr v)

/-- The drains of steps 1 and 2 of the reset of `v` are over. -/
def Dev.flrDrained (d : Dev) (v : Nat) : Bool :=
  !((d.queues.any fun e => e.2.flr && d.owner e.1 = v) || (d.chans.any fun e => e.2.flr && d.chanFn e.1 = v) ||
    (d.engines.any fun e => e.2.flr && d.engineFn e.1 = v) || (d.mrv.state ≠ .idle && d.mrvFn = v))

/-- The valid windows whose index lies in a scene range of `v`, in ascending order. -/
def Dev.flrWindows (d : Dev) (v : Nat) : List Nat :=
  let ks := [0, 1].filterMap fun k =>
    let w := FMap.get (fun _ => 0) d.acc.scene (2 * v + k)
    if bits w 31 16 = 0 then none else some (bits w 14 0, bits w 31 16)
  let t := d.admTables
  (((t.wins.filter fun e => e.2.valid).map (·.1)).filter fun i => ks.any fun (a, n) => decide (a ≤ i) && decide (i < a + n))

/-- Transactions of at most 2,048 clears are issued while there is staging for them (R49, R53, R375). `n` bounds them. -/
def Dev.issueClears (v : Nat) : Nat → Dev → Dev
  | 0, d => d
  | n + 1, d =>
    let f := d.flrOf v
    match f.todo, d.stagingFor 256 0 with
    | [], _ => d.setFlr v {}
    | _, none => d
    | _, some lent =>
      let d := { d with scene := { d.scene with admQ := d.scene.admQ ++ [AdmReq.clear v (f.todo.take 2048) lent] } }
      Dev.issueClears v n (d.setFlr v { f with todo := f.todo.drop 2048 })

/-- FLR_WINDOW_CLEAR: once the drains are over, the device clears the VF's windows (R375, step 3). -/
def execFlrWindowClear (v : Fn) (s : State) : Host.Outcome State Fault Refusal :=
  s.dev! fun d =>
    let f := d.flrOf v
    d.when (f.active && d.flrDrained v) fun d =>
      let d := if f.clearing then d else d.setFlr v { active := true, clearing := true, todo := d.flrWindows v }
      d.issueClears v 17

/-! ## The host link, configuration and MSI-X (R388, R404) -/

/-- HOST_LINK_CHANGE: the PCIe link trains to a generation and width, or goes down; host-link-degraded fires where its
cause begins. -/
def execHostLinkChange (gen : Fin 7) (width : Fin 17) (s : State) : Host.Outcome State Fault Refusal :=
  s.dev! fun d =>
    let before := d.liveCause 32
    let d := { d with hif := { d.hif with gen := gen, width := width } }
    if d.collects && d.liveCause 32 && !before then d.fire 32 0 (dbits 0 gen.val ||| dbits 4 width.val) else d

/-- CONFIGURATION_REQUEST: a read of a double word of a function's configuration space, answered with retry status before
ready and during a hot reset. The Revision ID is the low byte of the double word at 0x008 (R2, R373, R378). -/
def execConfigurationRequest (f : Fn) (reg : BitVec 12) (s : State) : Host.Outcome State Fault Refusal :=
  s.dev! fun d =>
    let retry := d.rst.phase ≠ .ready || d.rst.warm = 1
    let r := reg.toNat / 4 * 4
    let w := Config.cfgSpace f r
    let w := if r = 0x008 then (w &&& 0xFFFFFF00) ||| 0xB0 else w
    { d with hif := { d.hif with cfgRetry := retry, cfgData := if retry then d.hif.cfgData else w } }

/-- Vector `v` of function `f` has been unmasked: its pending message is sent (R404). -/
def Dev.sendPending (f v : Nat) (d : Dev) : Dev :=
  let k := f * 64 + v
  if FMap.get (fun _ => false) d.hif.msixPend k && !bit (d.msixWord f v 3) 0 then
    { d with hif := { d.hif with
        msixPend := FMap.put (fun _ => false) d.hif.msixPend k false, out := d.hif.out ++ [.msix f v] } }
  else d

/-- A write of word `w` of the MSI-X table entry of vector `v`: message address and data, and the mask bit (R404). The
address is that of a double word. -/
def Dev.writeMsix (f v w : Nat) (data : Word) (d : Dev) : Dev :=
  let kept := match w with | 0 => data &&& 0xFFFFFFFC | 3 => data &&& 1 | _ => data
  ({ d with hif := { d.hif with
      msix := FMap.put (fun k => if k % 4 = 3 then 1 else 0) d.hif.msix ((f * 64 + v) * 4 + w) kept } }).sendPending f v

end Sys2Proof.Machine
end

