-- ==== Sys2Proof/Machine/Pins.lean ====
section
/-!
DEFINITION. The SMBus port and the test access port (R390, R391). The readings that this file takes of the manual are listed
in notes/assumptions/23.md.
-/
namespace Sys2Proof.Machine

/-! ## SMBus (R390) -/

/-- `LDG_STAT.N_PAR`: the canvases in Parison mode. -/
def Dev.nPar (d : Dev) : Nat := (d.canvases.filter fun e => e.2.mode.par).length

/-- `HIF_STAT.READY`. -/
def Dev.isReady (d : Dev) : Bool := d.rst.phase = .ready

/-- The status byte at code 0x00. -/
def Dev.smbStatus (d : Dev) : Byte :=
  let w := flag 0 d.isReady ||| place 2 1 d.svc.mode.code ||| flag 3 (bit d.faultSum 31) |||
    place 5 4 (bits d.faultSum 25 24) ||| flag 6 d.faultN
  w.setWidth 8

/-- The highest on-die sensor at Faruo's last sample, rounded down to a whole °C; 0x80 before the first sample. -/
def Dev.smbTemp (d : Dev) : Byte :=
  match d.svc.temps.map Sample.now with
  | [] => 0x80
  | t :: ts => ofInt 8 ((ts.foldl max t) / 16)

/-- The byte at a code, with `LOG_WSEQ` as last copied for 0x05 to 0x07. -/
def Dev.smbByte (d : Dev) (code : Byte) : Byte :=
  match code.toNat with
  | 0x00 => d.smbStatus
  | 0x01 => d.smbTemp
  | 0x02 => 0xB0
  | 0x03 => BitVec.ofNat 8 d.nPar
  | 0x04 => d.flt.wseq.extractLsb' 0 8
  | 0x05 => d.pins.smbCopy.extractLsb' 8 8
  | 0x06 => d.pins.smbCopy.extractLsb' 16 8
  | 0x07 => d.pins.smbCopy.extractLsb' 24 8
  | _ => 0

/-- The target acknowledges its address: from event 2 of R378. -/
def Dev.smbAnswers (d : Dev) : Bool := d.rst.phase ≠ .reset

/-- SMBUS_READ_BYTE: a Read Byte of a code; a read of 0x04 copies `LOG_WSEQ`. -/
def execSmbusReadByte (code : Byte) (s : State) : Host.Outcome State Fault Refusal :=
  s.dev! fun d =>
    if d.smbAnswers then
      { d with pins := { d.pins with
          smbAck := true, smbData := d.smbByte code, smbCopy := if code = 0x04 then d.flt.wseq else d.pins.smbCopy } }
    else { d with pins := { d.pins with smbAck := false } }

/-- SMBUS_WRITE: a write command is acknowledged and has no effect. -/
def execSmbusWrite (_code _data : Byte) (s : State) : Host.Outcome State Fault Refusal :=
  s.dev! fun d => { d with pins := { d.pins with smbAck := d.smbAnswers } }

/-! ## The test access port (R391) -/

/-- An instruction of the test access port takes effect: `TRST_N` is high, and the data register it selects shifts `tdo`
out. -/
def Dev.tapLoad (i : TapInstr) (tdo : List Bool) (d : Dev) : Dev :=
  { d with pins := { d.pins with tapReset := false, tap := i, tdo := tdo } }

/-- TAP_RESET: `TRST_N` is low. The port is held in reset, where IEEE 1149.1 selects IDCODE; the device runs normally. -/
def execTapReset (s : State) : Host.Outcome State Fault Refusal :=
  s.dev! fun d => { d with pins := { d.pins with tapReset := true, tap := .idcode, tdo := [] } }

/-- BYPASS: the bypass register, one bit that captures 0. -/
def execBypass (s : State) : Host.Outcome State Fault Refusal := s.dev! (Dev.tapLoad .bypass [false])

/-- The 32 bits of IDCODE, least significant first. -/
def idcodeBits : List Bool := (List.range 32).map fun k => Nat.testBit 0xB1280F6F k

/-- IDCODE: the device identification register, 0xB128_0F6F. -/
def execIdcode (s : State) : Host.Outcome State Fault Refusal := s.dev! (Dev.tapLoad .idcode idcodeBits)

/-- SAMPLE_PRELOAD: the boundary register captures the pins, and takes the values shifted in; the outputs are the
device's. -/
def execSamplePreload (preload : List Bool) (s : State) : Host.Outcome State Fault Refusal :=
  s.dev! fun d =>
    let d := d.tapLoad .samplePreload (Config.boundarySample d.now)
    { d with pins := { d.pins with boundary := preload } }

/-- EXTEST: the outputs carry the boundary values, and the boundary register captures the pins. -/
def execExtest (s : State) : Host.Outcome State Fault Refusal :=
  s.dev! fun d => d.tapLoad .extest (Config.boundarySample d.now)

/-- EXTEST_PULSE: as EXTEST, with one pulse on the AC-coupled pairs. -/
def execExtestPulse (s : State) : Host.Outcome State Fault Refusal :=
  s.dev! fun d => d.tapLoad .extestPulse (Config.boundarySample d.now)

/-- EXTEST_TRAIN: as EXTEST, with a train of pulses on the AC-coupled pairs. -/
def execExtestTrain (s : State) : Host.Outcome State Fault Refusal :=
  s.dev! fun d => d.tapLoad .extestTrain (Config.boundarySample d.now)

/-- CLAMP: the outputs hold the boundary values, and the bypass register is selected. -/
def execClamp (s : State) : Host.Outcome State Fault Refusal := s.dev! (Dev.tapLoad .clamp [false])

/-- HIGHZ: the outputs are in high impedance, and the bypass register is selected. -/
def execHighz (s : State) : Host.Outcome State Fault Refusal := s.dev! (Dev.tapLoad .highz [false])

/-- What the outputs carry: the device's own signals, the boundary values, or nothing. -/
inductive OutputSource where
  | device | boundary | highImpedance
  deriving DecidableEq, Repr

/-- What drives the output pins under the instruction of the test access port (R391). -/
def Pins.outputs (p : Pins) : OutputSource :=
  if p.tapReset then .device
  else match p.tap with
    | .extest | .extestPulse | .extestTrain | .clamp => .boundary
    | .highz => .highImpedance
    | .bypass | .idcode | .samplePreload => .device

/-- `FAULT_N`, and with it `SMB_ALERT_N`, is driven low by the device (R342, R390). -/
def Dev.alertLow (d : Dev) : Bool := d.pins.outputs = .device && d.faultN

end Sys2Proof.Machine
end

