-- ==== Sys2Proof/Machine/Access.lean ====
section
/-!
DEFINITION. The access tables as the `ACC` page reaches them (R314, R317).
-/
namespace Sys2Proof.Machine

/-- The four words of a table entry. -/
abbrev AccEntry := Word × Word × Word × Word

/-- `ACC_SEL.TBL`. -/
def selTable (w : Word) : Nat := bits w 29 28
/-- `ACC_SEL.IDX`. -/
def selIdx (w : Word) : Nat := bits w 10 0

/-- An index is not reserved for its table (R317). -/
def selOk (tbl idx : Nat) : Bool :=
  match tbl with
  | 0 => decide (idx ≤ 1039)
  | 1 | 2 => decide (2 ≤ idx) && decide (idx ≤ 127)
  | _ => decide (32 ≤ idx)

/-- A memory window after cold or warm reset (R307): window 0 of slot 0 spans the whole address map. -/
def windowReset (e : Nat) : AccEntry := if e = 0 then (7, 0, 0xFFFFF000, 0xFFFFFFFF) else (0, 0, 0, 0)

/-- The entry that a table holds; a reserved index reads 0. -/
def Acc.entry (a : Acc) (tbl idx : Nat) : AccEntry :=
  if ¬ selOk tbl idx then (0, 0, 0, 0)
  else match tbl with
    | 0 => FMap.get windowReset a.windows idx
    | 1 => (FMap.get (fun _ => 0) a.scene idx, 0, 0, 0)
    | 2 => (FMap.get (fun _ => 0) a.surface idx, 0, 0, 0)
    | _ => FMap.get (fun _ => (0, 0, 0, 0)) a.rights idx

/-- No 2-bit right of a word is the reserved code. -/
def rightsOk (w : Word) : Bool := (List.range 16).all fun j => bits w (2 * j + 1) (2 * j) ≠ 3

/-- An entry holds no reserved encoding (R317). -/
def entryOk (tbl : Nat) (e : AccEntry) : Bool :=
  let (w0, w1, w2, w3) := e
  match tbl with
  | 0 => decide ((quad (w0 &&& 0xFFFFF000) w1).toNat ≤ (quad (w2 ||| 0xFFF) w3).toNat)
  | 1 => decide (bits w0 14 0 + bits w0 31 16 ≤ 32768)
  | 2 => decide (bits w0 13 0 + bits w0 30 16 ≤ 16384)
  | _ => rightsOk w0 && rightsOk w1 && rightsOk w2 && rightsOk w3

/-- An entry as the table keeps it: reserved bits are 0. -/
def entryKept (tbl : Nat) (e : AccEntry) : AccEntry :=
  let (w0, w1, w2, w3) := e
  match tbl with
  | 0 => (w0 &&& 0xFFFFF007, w1, w2 &&& 0xFFFFF000, w3)
  | 1 => (w0 &&& 0xFFFF7FFF, 0, 0, 0)
  | 2 => (w0 &&& 0x7FFF3FFF, 0, 0, 0)
  | _ => e

/-- An entry is put into its table. -/
def Acc.put (tbl idx : Nat) (e : AccEntry) (a : Acc) : Acc :=
  match tbl with
  | 0 => { a with windows := FMap.put windowReset a.windows idx e }
  | 1 => { a with scene := FMap.put (fun _ => 0) a.scene idx e.1 }
  | 2 => { a with surface := FMap.put (fun _ => 0) a.surface idx e.1 }
  | _ => { a with rights := FMap.put (fun _ => (0, 0, 0, 0)) a.rights idx e }

/-- The selected entry is loaded into the four data registers. -/
def Dev.loadEntry (d : Dev) : Dev :=
  let w := d.reg .acc 0 ACC_SEL
  let (w0, w1, w2, w3) := d.acc.entry (selTable w) (selIdx w)
  d.setRegs .acc 0 [(ACC_DATA, w0), (ACC_DATA + 4, w1), (ACC_DATA + 8, w2), (ACC_DATA + 12, w3)]

/-- `ACC_SEL` has been written; `old` is its word before. A reserved index leaves the field as it was (R7). -/
def Dev.selWritten (old : Word) (d : Dev) : Dev :=
  let w := d.reg .acc 0 ACC_SEL
  let w := if selOk (selTable w) (selIdx w) then w else (w &&& 0xFFFFF800) ||| (old &&& 0x7FF)
  (d.setReg .acc 0 ACC_SEL w).loadEntry

/-- `ACC_DATA3` has been written: the four data registers are committed to the entry as one change, or `SEL_ERR` is set;
with `AUTOINC` the next entry is loaded. -/
def Dev.commitEntry (d : Dev) : Dev :=
  let w := d.reg .acc 0 ACC_SEL
  let data := fun k => d.reg .acc 0 (ACC_DATA + 4 * k)
  let e : AccEntry := (data 0, data 1, data 2, data 3)
  if ¬ (selOk (selTable w) (selIdx w) ∧ entryOk (selTable w) e) then
    { d with acc := { d.acc with selErr := true } }
  else
    let a := d.acc.put (selTable w) (selIdx w) (entryKept (selTable w) e)
    let d := { d with acc := { a with selErr := false } }
    if bit w 31 then
      (d.setReg .acc 0 ACC_SEL ((w &&& 0xFFFFF800) ||| place 10 0 (selIdx w + 1))).loadEntry
    else d

/-- `ACC_CTL.LOCK` is written 1 (R314). -/
def Dev.lockTables (d : Dev) : Dev := { d with acc := { d.acc with lock := true } }

end Sys2Proof.Machine
end

