-- ==== Sys2Proof/Machine/Logs.lean ====
section
/-!
DEFINITION. What software does with the fault collector and the log (R339, R340, R347, R351).
-/
namespace Sys2Proof.Machine

/-- A W1C write of sticky word `k`: a bit clears where its source's live bit reads 0 (R339). -/
def Dev.clearSticky (k : Nat) (w : Word) (d : Dev) : Dev :=
  let gone := fun n => n / 32 = k && bit w (n % 32) && !d.liveCause n
  { d with flt := { d.flt with sticky := d.flt.sticky.filter fun e => !gone e.1 } }

/-- `FLT_SRC_SEL.SRC`. -/
def Dev.srcSel (d : Dev) : Nat := d.fld .flt 0 FLT_SRC_SEL 9 0

/-- `FLT_SRC_CFG` as it reads for the selected source. -/
def Dev.srcCfgWord (d : Dev) : Word :=
  match srcInfo d.srcSel with
  | none => 0
  | some i =>
    let c := d.srcCfg d.srcSel
    let allow := (i.reacts.map fun r => 2 ^ r).sum
    flag 31 true ||| place 25 24 i.sev ||| place 18 16 allow ||| place 13 12 c.react ||| flag 8 c.notice |||
      place 3 0 c.coal

/-- A write of `FLT_SRC_CFG`: a reaction that the source does not allow and a `COAL` of 0 leave their fields alone;
`armed` says that `REACT`, an RK field, takes the write (R7, R325, R340, R348). -/
def Dev.writeSrcCfg (w : Word) (armed : Bool) (d : Dev) : Dev :=
  match srcInfo d.srcSel with
  | none => d
  | some i =>
    let c := d.srcCfg d.srcSel
    let r := bits w 13 12
    let new : SrcCfg :=
      { react := if armed && i.reacts.contains r then r else c.react
        notice := bit w 8
        coal := if bits w 3 0 = 0 then c.coal else bits w 3 0 }
    { d with flt := { d.flt with cfg := FMap.put (fun _ => none) d.flt.cfg d.srcSel (some new) } }

/-- `LOG_RD_SEQ` is written by master `m`: the slot is copied (R347). -/
def Dev.readLog (m : Nat) (seq : Word) (d : Dev) : Dev :=
  let e := FMap.get (fun _ => none) d.flt.log (seq.toNat % 4096)
  { d with flt := { d.flt with
      rdDone := true, rdMid := m, rdWords := logWords srcSev e
      rdMatch := match e with | some (s, _) => s = seq | none => false } }

/-- `LOG_RD_STAT`. -/
def Dev.logStat (d : Dev) : Word := flag 31 d.flt.rdDone ||| flag 30 d.flt.rdMatch ||| place 6 0 d.flt.rdMid

/-- Masks, the pin level and the source settings take their reset values (R351). -/
def Dev.resetFaultSettings (d : Dev) : Dev :=
  let e := d.resetPage PType.flt.page
  { e with flt := { e.flt with cfg := [] } }

/-- The block reset of the `LOG` page: a copy is abandoned, and the log stays (R5, R351). -/
def Dev.resetLog (d : Dev) : Dev :=
  let e := d.resetPage PType.log.page
  { e with flt := { e.flt with rdDone := false, rdMatch := false, rdMid := 0, rdWords := [] } }

end Sys2Proof.Machine
end

