-- ==== Sys2Proof/Machine/RegRead.lean ====
section
/-!
DEFINITION. What a read of BAR0 returns: page headers, registers and their status fields, snapshot groups, and the table
apertures (R6 to R9, R84, R85, R310, R311, R319 to R323, R333, R334, R400 to R409). The readings that this file takes of the
manual are listed in notes/assumptions/24.md.
-/
namespace Sys2Proof.Machine

/-! ## Status fields by page type -/

/-- Status of a `HIF` register (R378, R388, R373). -/
def Dev.hifStatus (d : Dev) (off : Nat) : Word :=
  if off = HIF_STAT then flag 31 d.isReady ||| place 11 8 d.hif.gen ||| place 4 0 d.hif.width
  else if off = HIF_RST then flag 31 (d.rst.warm ≠ 0)
  else 0

/-- Status of a `CKR` register (R151, R367). -/
def Dev.ckrStatus (d : Dev) (off : Nat) : Word :=
  if off = CKR_CCLK then flag 31 (d.clk.change ≠ 0)
  else
    let k := (off - CKR_PLL) / 4
    flag 30 (d.pllLocked k) ||| flag 29 (d.pllBusy k)

/-- Status of an `SVC` register (R355 to R361). -/
def Dev.svcStatus (d : Dev) (off : Nat) : Word :=
  if off = SVC_STAT then d.svcStat
  else if off = SVC_LOAD then place 31 24 d.svc.load ||| place 15 0 d.svc.overruns.toNat
  else if off = SVC_MB_STAT then d.mailboxStat
  else if SVC_MB_RSP ≤ off then wordAt d.svc.rsp ((off - SVC_MB_RSP) / 4)
  else 0

/-- Status of an `ACC` register (R312, R314, R317). -/
def Dev.accStatus (d : Dev) (off : Nat) : Word :=
  if off = ACC_CTL then flag 0 d.acc.lock
  else if off = ACC_STAT then flag 0 d.acc.selErr
  else if off = ACC_DENY then d.acc.deny
  else 0

/-- Status of an `FLT` register (R337 to R342, R352). -/
def Dev.fltStatus (d : Dev) (off : Nat) : Word :=
  if off < FLT_LIVE then d.stickyWord ((off - FLT_STICKY) / 4)
  else if off < FLT_MASK then d.liveWord ((off - FLT_LIVE) / 4)
  else if off = FLT_PIN then flag 8 d.faultN
  else if off = FLT_SUM then d.faultSum
  else if off = FLT_SRC_CFG then d.srcCfgWord
  else if off = FLT_SRC_CNT then FMap.get (fun _ => 0) d.flt.count d.srcSel
  else 0

/-- Status of a `LOG` register (R346, R347). -/
def Dev.logStatus (d : Dev) (off : Nat) : Word :=
  if off = LOG_WSEQ then d.flt.wseq
  else if off = LOG_RD_STAT then d.logStat
  else if LOG_RD_D ≤ off then wordAt d.flt.rdWords ((off - LOG_RD_D) / 4)
  else 0

/-- Status of a `CRU` register (R297, R301, R302). -/
def Dev.cruStatus (d : Dev) (off : Nat) : Word :=
  if off = CRU_FREE then d.cruFree else if off = CRU_USE then d.cruUse else if off = CRU_SPARE then d.cruSpare else 0

/-- `LDG_STAT` (R70, R80 to R82). -/
def Dev.ldgStat (d : Dev) : Word :=
  let l := d.ledger
  flag 31 d.reevalBusy ||| flag 30 d.modePend ||| flag 29 (decide (l.memBud < l.memUsed) || decide (l.pipeBud < l.pipeUsed)) |||
    place 25 24 d.mstate ||| place 23 20 d.nAct ||| place 7 0 d.nPar

/-- Status of an `LDG` register (R68 to R82). -/
def Dev.ldgStatus (d : Dev) (off : Nat) : Word :=
  if off = LDG_STAT then d.ldgStat
  else if off = LDG_MEM_BUD then BitVec.ofNat 32 d.ledger.memBud
  else if off = LDG_MEM_USED then BitVec.ofNat 32 d.ledger.memUsed
  else if off = LDG_PIPE_BUD then BitVec.ofNat 32 d.ledger.pipeBud
  else if off = LDG_PIPE_USED then BitVec.ofNat 32 d.ledger.pipeUsed
  else if off = LDG_SEQ then d.ledger.seq
  else 0

/-- `SCN_STAT` (R53, R54). -/
def Dev.scnStat (d : Dev) : Word :=
  flag 31 (d.queues.any fun e => e.2.pause = some .stage) |||
    flag 30 (d.scene.admQ.any fun r => match r with | .txn _ => true | _ => false) |||
    place 10 0 (d.queues.map fun e => e.2.outst).sum

/-- The code of Marver's state. -/
def MState.code : MState → Nat
  | .idle => 0 | .running => 1 | .gated => 2 | .aborting => 3

/-- Status of an `MRV` register (R232 to R239). -/
def Dev.mrvStatus (d : Dev) (off : Nat) : Word :=
  let m := d.mrv
  if off = 0x044 then place 15 8 m.err.toNat ||| flag 5 m.startErr ||| flag 4 m.starved ||| place 1 0 m.state.code
  else if off = MRV_LINE then place 30 16 m.rows ||| place 14 0 m.line
  else if off = MRV_EVT then place 2 0 m.evt.toNat
  else if off = MRV_OPS then m.ops
  else 0

/-- `CQE_GSTAT`. -/
def Dev.queueStat (d : Dev) : Word :=
  let n := fun st => (d.queues.filter fun (e : Nat × Queue) => e.2.state = st).length
  place 24 16 (n .halted) ||| place 8 0 (n .running)

/-- Status of a register of function `f`'s notice set (R206, R209). -/
def Dev.noticeStatus (d : Dev) (f off : Nat) : Word :=
  let r := d.ring f
  if off = 0x00 then flag 0 r.en
  else if off = 0x10 then place 16 0 r.tail
  else if off = 0x14 then place 16 0 r.head
  else if off = 0x18 then r.lost
  else if off = 0x1C then flag 2 r.nheadErr ||| flag 1 r.cfgErr ||| flag 0 (d.nfull f)
  else 0

/-- The code of a queue's state. -/
def QState.code : QState → Nat
  | .off => 0 | .running => 1 | .halted => 2 | .draining => 3

/-- `CQE_STAT` of queue `q` (R203). -/
def Dev.cqeStat (d : Dev) (q : Nat) : Word :=
  let x := d.queue q
  let p := fun (b : Pause → Bool) => x.pause.any b
  place 31 24 x.epoch.toNat ||| flag 23 x.cfgErr ||| flag 22 (d.pidxBad q) ||| flag 21 x.enPending |||
    flag 20 x.txn.isSome ||| place 19 17 x.outst |||
    flag 15 (p fun k => match k with | .wait _ => true | _ => false) ||| flag 14 (p fun k => k = .unit) |||
    flag 13 (p fun k => k = .txn) ||| flag 12 (p fun k => k = .stage) ||| place 1 0 x.state.code

/-- Status of a queue page's register. -/
def Dev.queueStatus (d : Dev) (q off : Nat) : Word :=
  let x := d.queue q
  if off = CQE_HEAD then place 16 0 x.head
  else if off = CQE_CIDX then place 16 0 x.cidx
  else if off = CQE_CTL then flag 0 x.en
  else if off = CQE_STAT then d.cqeStat q
  else if off = CQE_NOTE then place 15 0 x.note.toNat
  else 0

/-- Status of a register of site `s`: its own, and those of its four lanes (R270, R281 to R292). -/
def Dev.siteStatus (d : Dev) (s off : Nat) : Word :=
  if off = MCT_SITE_STAT then d.siteStat s
  else if off = MCT_SITE_ERR then (d.site s).errs
  else if off < MCT_LANE_CUR then 0
  else
    let x := d.lane (4 * s + (off - MCT_LANE_CUR) / 0x20)
    match (off - MCT_LANE_CUR) % 0x20 with
    | 0x00 => (LaneSet.word x.cur)
    | 0x04 => (LaneSet.word x.trn)
    | 0x0C => eyeWord x.rdL x.rdR
    | 0x10 => eyeWord x.wrL x.wrR
    | 0x14 => x.stat
    | _ => 0

/-- The band that a pipe holds: its own, or the first it shadows. -/
def Pipe.band (x : Pipe) : Option Held :=
  match x.held with
  | some h => some h
  | none => x.shadows.head?.map (·.held)

/-- `CMP_STAT` of pipe `p` (R126, R127, R133). -/
def Dev.cmpStat (d : Dev) (p : Nat) : Word :=
  let x := d.pipe p
  let held := match x.band with
    | some h => flag 31 true ||| flag 30 h.par ||| place 17 11 h.canvas ||| place 10 0 h.band
    | none => 0
  held ||| place 29 28 x.role.code ||| place 27 26 (if x.role = .fenced then x.cause.toNat else 0) |||
    flag 25 (d.targetOf p).isSome ||| flag 24 x.reqErr ||| place 23 20 ((d.targetOf p).getD 0)

/-- Status of a `CMP` register (R135 to R138). -/
def Dev.cmpStatus (d : Dev) (p off : Nat) : Word :=
  let x := d.pipe p
  let m := d.comp.mm
  if off = CMP_STAT then d.cmpStat p
  else if off = CMP_BANDS then x.bands
  else if off = CMP_CHECKS then x.checks
  else if off = CMP_MISMATCH then x.mismatch
  else if off = CMP_SKIP then x.skip
  else if off = CMP_MM_ID then
    flag 31 m.valid ||| place 30 28 m.outcome.toNat ||| place 27 24 m.act.toNat ||| place 23 20 m.und.toNat |||
      place 19 16 m.rer.toNat ||| place 6 0 m.canvas.toNat
  else if off = CMP_MM_LINE then place 29 24 m.shown.toNat ||| place 21 16 m.fixed.toNat ||| place 13 0 m.line.toNat
  else if off = CMP_MM_CRC_A then m.crcA
  else if off = CMP_MM_CRC_U then m.crcU
  else if off = CMP_MM_CRC_R then m.crcR
  else 0

/-- `IDX` of `GTH_CLUT_IDX` and of `GTH_COEF_IDX`. -/
def Dev.clutIdx (d : Dev) : Nat := d.fld .gth 0 GTH_CLUT_IDX 13 0
/-- `IDX` of `GTH_COEF_IDX`. -/
def Dev.coefIdx (d : Dev) : Nat := d.fld .gth 0 GTH_COEF_IDX 13 0
/-- `IDX` of `CSP_ICS_IDX`. -/
def Dev.icsIdx (d : Dev) : Nat := d.fld .csp 0 CSP_ICS_IDX 8 0

/-- Status of a `GTH` register of unit `g` (R86, R89, R93, R101, R104, R114). -/
def Dev.gthStatus (d : Dev) (g off : Nat) : Word :=
  let x := d.gather g
  if off = GTH_STAT then
    flag 31 x.busy ||| flag 30 ((d.pipe (g / 8)).role = .fenced) ||| place 29 26 (g / 8) ||| place 25 23 (g % 8) |||
      place 14 0 x.win
  else if off = GTH_FRIT_ERR then x.fritErr
  else if off = GTH_POISON then x.poison
  else if off = GTH_URGENT then x.urgent
  else if off = GTH_CLUT_DATA then d.clutAt d.clutIdx
  else if off = GTH_COEF_DATA then (d.coefAt d.coefIdx).setWidth 32
  else 0

/-- What `CSP_LUT_IDX` of canvas `c` names: the bank, the LUT (0 degamma, 1 regamma, 2 the 3D LUT) and the index. -/
def Dev.lutSel (d : Dev) (c : Nat) : Bool × Nat × Nat :=
  let w := d.reg .csp c CSP_LUT_IDX
  (bit w 30, bits w 29 28, bits w 12 0)

/-- The entries of an output LUT. -/
def lutSize (sel : Nat) : Nat := if sel = 2 then 4913 else 4096

/-- The entry that `CSP_LUT_IDX` of canvas `c` names, 0 beyond the LUT (R121). -/
def Dev.lutEntry (d : Dev) (c : Nat) : BitVec 48 :=
  let (bank, sel, i) := d.lutSel c
  if i < lutSize sel then d.lutAt (lutKey c bank sel i) else 0

/-- Status of a `CSP` register (R109, R121). -/
def Dev.cspStatus (d : Dev) (c off : Nat) : Word :=
  if off = CSP_LUT_DATA then
    let e := d.lutEntry c
    if (d.lutSel c).2.1 = 2 then e.setWidth 32 else (e.setWidth 32) &&& 0xFFFF
  else if off = CSP_ICS_DATA then d.icsAt d.icsIdx
  else 0

/-- The code of a canvas's mode at scan-out. -/
def Mode.code : Mode → Nat
  | .direct => 0 | .demoted => 1 | .forced => 2 | .disabled => 3
/-- The code of a canvas's state (R163). -/
def CState.code : CState → Nat
  | .off => 0 | .starting => 1 | .running => 2 | .relink => 3 | .draining => 4
/-- The code of a lock state (R157). -/
def LState.code : LState → Nat
  | .none => 0 | .acquiring => 1 | .locked => 2 | .holdover => 3

/-- The raster line in progress (R147, R166). -/
def Dev.rasterLine (d : Dev) (c : Nat) : Nat :=
  let x := d.canvas c
  let n := (d.now - x.fsNow) * x.raster.lineDen / max 1 x.raster.lineNs
  match x.state with
  | .running => min n (x.raster.vt + x.lock.stretch - 1)
  | .starting => if x.gen then min (x.raster.h - x.raster.d + n) (x.raster.vt - 1) else 0
  | .off | .relink | .draining => 0

/-- Status of a `CNV` register (R23, R74, R149, R155 to R157, R163). -/
def Dev.cnvStatus (d : Dev) (c off : Nat) : Word :=
  let x := d.canvas c
  if off = CNV_VIEW then flag 31 x.viewErr
  else if off = CNV_LDG_STAT then flag 2 (parOk d.admTables (d.cregs c)) ||| place 1 0 x.mode.code
  else if off = CNV_CTL then flag 0 x.en
  else if off = CNV_STAT then
    flag 6 x.underrun ||| flag 5 x.lockErr ||| flag 4 x.timErr ||| flag 3 x.enPending ||| place 2 0 x.state.code
  else if off = CNV_LOCK_STAT then
    place 31 30 x.lock.lstate.code ||| flag 29 (d.lockRange c) ||| (ofInt 24 x.lock.phase).setWidth 32
  else if off = CNV_POS then place 31 16 x.scanFrame ||| place 13 0 (d.rasterLine c)
  else 0

/-- The code of a port's state (R185). -/
def PState.code : PState → Nat
  | .off => 0 | .noSink => 1 | .training => 2 | .idle => 3 | .active => 4 | .linkLost => 5 | .fenced => 6 | .draining => 7

/-- `DPT_PAIR_STAT` of port `n` (R30 to R34). -/
def Dev.pairStat (d : Dev) (n : Nat) : Word :=
  let x := d.port n
  let c := (d.canvas (d.portCanvas n)).state
  flag 5 (c = .off || c = .draining) ||| flag 4 (d.port (d.partner n)).ready ||| flag 3 x.ready |||
    flag 2 (x.state = .active) ||| flag 1 (d.pairMode n != 0 && !d.pairOk n) ||| flag 0 (d.pairOk n)

/-- Status of a `DPT` register (R30, R125, R153, R171 to R187). -/
def Dev.dptStatus (d : Dev) (n off : Nat) : Word :=
  let x := d.port n
  if off = DPT_CTL then flag 0 x.en
  else if off = DPT_STAT then
    flag 7 x.fenced ||| flag 6 x.enPending ||| flag 5 x.capErr ||| flag 4 x.laneErr ||| flag 3 x.hpd |||
      place 2 0 x.state.code
  else if off = DPT_LINK_STAT then
    place 23 16 x.fails ||| place 11 8 x.rate ||| place 7 6 x.lanes ||| flag 5 x.fec ||| flag 4 (decide (4 ≤ x.rate)) |||
      place 3 0 ((x.caps.map fun k => k.lttprs.val).getD 0)
  else if off = DPT_DSC then flag 31 x.dscErr
  else if off = DPT_HPD then place 31 16 x.lossCnt.toNat ||| place 15 0 x.irqCnt.toNat
  else if off = DPT_AUX_STAT then
    flag 31 x.aux.busy ||| flag 30 x.aux.done ||| place 29 28 x.aux.reply.toNat ||| place 20 16 x.aux.count
  else if off = DPT_PAIR_STAT then d.pairStat n
  else if off = DPT_FMT then flag 31 x.fmtErr
  else if off = DPT_UNDR then x.undr
  else if off = DPT_LCRC_SEL then place 31 24 x.frm.toNat
  else if off = DPT_LCRC then x.lcrc
  else if off = DPT_FCRC then x.fcrc
  else if off = DPT_TXMON then d.txmon n
  else 0

/-- Status of a register of the DMA global page. -/
def Dev.dmaStatus (d : Dev) (off : Nat) : Word :=
  if 0x080 ≤ off ∧ off % 16 = 0x00C then (d.timer ((off - 0x080) / 16)).cnt else 0

/-- Status of a DMA channel's register (R213 to R225). -/
def Dev.chanStatus (d : Dev) (ch off : Nat) : Word :=
  let x := d.chan ch
  if off = DMA_CH_CTL then flag 0 x.en
  else if off = DMA_CH_STAT then
    place 31 24 x.tag.toNat ||| flag 5 (x.state = .running && x.step = .encWait) ||| flag 4 x.pend.isSome |||
      flag 3 x.enPending ||| place 2 0 x.state.code
  else if off = DMA_CH_EVT then place 2 0 x.evt.toNat
  else if off = DMA_CH_ERR then place 12 8 x.errHop ||| place 7 0 x.err.toNat
  else if off = DMA_CH_JOBS then x.jobs
  else if off = DMA_CH_OVR then x.ovr
  else 0

/-- Status of a `CVU` register (R244 to R259). -/
def Dev.cvuStatus (d : Dev) (e off : Nat) : Word :=
  let x := d.engine e
  if off = CVU_CTL then flag 0 x.en
  else if off = CVU_STAT then d.cvuStat e
  else if off = CVU_SCANS then x.scans
  else if off = CVU_OVR then x.ovr
  else if off = CVU_WSTAT then d.witnessStat
  else 0

/-- The device-held part of a register: status fields, and the writable fields that a unit holds. -/
def Dev.status (d : Dev) (t : PType) (i off : Nat) : Word :=
  match t with
  | .hif => d.hifStatus off
  | .ckr => d.ckrStatus off
  | .tmb => if off = TMB_STAT then d.timebaseStat else 0
  | .svc => d.svcStatus off
  | .acc => d.accStatus off
  | .flt => d.fltStatus off
  | .log => d.logStatus off
  | .cru => d.cruStatus off
  | .ldg => d.ldgStatus off
  | .scn => if off = SCN_STAT then d.scnStat else 0
  | .mrv => d.mrvStatus off
  | .cqe => if off = CQE_GSTAT then d.queueStat
      else if 0x300 ≤ off then d.noticeStatus ((off - 0x300) / 0x30) ((off - 0x300) % 0x30) else 0
  | .queue => d.queueStatus i off
  | .mct => if off = MCT_STAT then d.mctStat else 0
  | .site => d.siteStatus i off
  | .lhr => if off = LHR_STAT then d.lehrStat else if off = LHR_MOVES then d.mct.moves else 0
  | .cmp => d.cmpStatus i off
  | .gth => d.gthStatus i off
  | .csp => d.cspStatus i off
  | .cnv => d.cnvStatus i off
  | .dpt => d.dptStatus i off
  | .dma => d.dmaStatus off
  | .chan => d.chanStatus i off
  | .cvu => d.cvuStatus i off

/-! ## The page header (R319, R321, R325, R329, R333, R337, R408, R409) -/

/-- `PAGE_ID` of instance `i` of a type. -/
def pageId (t : PType) (i : Nat) : Nat := t.code * 256 + i

/-- `PAGE_CAP`. -/
def PType.cap (t : PType) : Word :=
  place 24 16 t.count ||| place 5 4 t.snaps ||| flag 3 t.faultWord.isSome ||| BitVec.ofNat 32 t.capBits

/-- `PAGE_STAGE`. -/
def Dev.pageStage (d : Dev) (t : PType) (i : Nat) : Word :=
  let n := t.page + i
  flag 2 (FMap.get (fun _ => false) d.regs.discarded n) |||
    flag 1 (!(d.stagedOf t i).isEmpty || !(d.admittedOf t i).isEmpty) ||| flag 0 (d.held n)

/-- `PAGE_STAT`. -/
def Dev.pageStat (d : Dev) (t : PType) (i : Nat) : Word :=
  flag 31 (d.regs.arms.any fun e => e.1 / 128 = t.page + i && e.2) ||| flag 1 (d.pageFenced t i) |||
    flag 0 (t.faultWord.any fun k => d.liveWord k ≠ 0)

/-- The snapshot mailbox of page `n`. -/
def Dev.snapOf (d : Dev) (n : Nat) : Snap := FMap.get (fun _ => {}) d.regs.snaps n

/-- `SNAP_VALID`. -/
def Snap.stat (x : Snap) : Word :=
  flag 31 x.valid ||| flag 30 x.grpErr ||| place 14 8 x.mid ||| place 7 0 x.group.toNat

/-- A word of the page header. -/
def Dev.header (d : Dev) (t : PType) (i off : Nat) : Word :=
  let x := d.snapOf (t.page + i)
  if off = 0x000 then BitVec.ofNat 32 (pageId t i)
  else if off = 0x004 then 0x0000B001
  else if off = 0x008 then t.cap
  else if off = 0x014 then d.pageStage t i
  else if off = 0x018 then d.pageStat t i
  else if off = 0x01C then (t.faultWord.map d.stickyWord).getD 0
  else if off = 0x024 then x.stat
  else if 0x028 ≤ off then wordAt x.words ((off - 0x028) / 4)
  else 0

/-- The register at a page offset, which may be an alias (R319): the header's words, the stored fields as last written, and
the status fields; reserved offsets read 0 (R6, R8, R9). -/
def Dev.readPage (d : Dev) (t : PType) (i off : Nat) : Word :=
  let off := off % 0x1000 / 4 * 4
  if off < 0x040 then d.header t i off
  else match regDesc t i off with
    | some r => (d.view t i off &&& r.storedMask) ||| d.status t i off
    | none => 0

/-! ## Snapshot groups (R333, R334) -/

/-- Two words of a 64-bit value. -/
def quadWords (q : Quad) : List Word := [lo32 q, hi32 q]

/-- The words of snapshot group `g` of a page, none where the group is not defined. -/
def Dev.snapWords (d : Dev) (t : PType) (i g : Nat) : Option (List Word) :=
  match t, g with
  | .tmb, 0 => some (quadWords d.tb.count ++ quadWords d.tb.edge ++ [ofInt 32 d.tb.edgeErr, d.timebaseStat])
  | .acc, 0 => some (quadWords d.acc.denyAddr ++ [d.acc.denyInfo, d.acc.deny] ++ quadWords d.acc.denyTb)
  | .ldg, 0 => some ([LDG_MEM_BUD, LDG_MEM_USED, LDG_PIPE_BUD, LDG_PIPE_USED, LDG_SEQ, LDG_STAT].map d.ldgStatus)
  | .mrv, 0 => some (quadWords d.mrv.failAddr)
  | .dpt, 0 => some ([DPT_LCRC, DPT_FCRC, DPT_LCRC_SEL, DPT_UNDR].map fun o => d.readPage .dpt i o)
  | .chan, 0 => let x := d.chan i; some (quadWords x.addr ++ quadWords x.failAddr ++ quadWords x.bytes)
  | .cru, 0 => some (quadWords d.cru.corrected ++ quadWords d.cru.uncorr ++ [d.cru.lastOff, d.cru.passes])
  | .cru, 1 => some [d.cruFree, 0, d.cruUse, 0, d.cruSpare]
  | .mct, 0 => some (quadWords d.mct.corrected ++ quadWords d.mct.uncorr ++ quadWords d.mct.copied)
  | .mct, 1 => some (quadWords d.mct.forced ++ quadWords d.mct.postponed ++ quadWords d.mct.late)
  | .cvu, 0 =>
    let x := d.engine i
    some (quadWords x.scan.v ++ quadWords (x.failAddr.getD x.scan.addr) ++
      [BitVec.ofNat 32 x.scan.left, BitVec.ofNat 32 (x.scan.left / 2 ^ 32 % 256)])
  | .cvu, 1 => let x := d.engine i; some (quadWords x.result ++ quadWords x.expUsed ++ [x.seqUsed, d.cvuStat i])
  | _, _ => none

/-- `d` with the mailbox of page `n` replaced. -/
def Dev.setSnap (n : Nat) (x : Snap) (d : Dev) : Dev :=
  { d with regs := { d.regs with snaps := FMap.put (fun _ => {}) d.regs.snaps n x } }

/-- Six words: a group's, filled up with 0. -/
def sixWords (ws : List Word) : List Word := (List.range 6).map fun k => wordAt ws k

/-- A request of page `n`'s mailbox goes on: the copy is taken 10 ns after the request, all its words in one cycle, and can be
read 5 ns later (R334, R335; the shortest times, notes/assumptions/24.md). -/
def Dev.landSnap (n : Nat) (d : Dev) : Dev :=
  let x := d.snapOf n
  match x.asked, x.taken, pageOf n with
  | some at', none, some (t, i) =>
    d.when (decide (at' + 10 ≤ d.now)) (Dev.setSnap n { x with taken := some (d.snapWords t i x.group.toNat) })
  | some at', some ws, _ =>
    d.when (decide (at' + 15 ≤ d.now))
      (Dev.setSnap n { x with valid := true, grpErr := ws.isNone, words := sixWords (ws.getD []), asked := none, taken := none })
  | _, _, _ => d

/-- Every mailbox's request goes on. -/
def Dev.landSnaps (d : Dev) : Dev := d.regs.snaps.foldl (fun d e => d.landSnap e.1) d

/-- The block on an empty queue: a cycle of TBCLK passes, and snapshot copies are taken and land
(notes/assumptions/1.md). -/
def idle (s : State) : State :=
  let s := tick s
  { s with dev := s.dev.landSnaps }

/-! ## Table apertures (R84, R85, R310, R402) and reads of BAR0 -/

/-- The ledger's record of a canvas, word by word (R84). -/
def LdgRec.words (r : LdgRec) : List Word :=
  [place 31 16 r.seq.toNat ||| place 15 8 r.prio.toNat ||| place 1 0 r.mode.code, BitVec.ofNat 32 r.needMem,
   BitVec.ofNat 32 r.needPipe, BitVec.ofNat 32 r.res, BitVec.ofNat 32 r.fMax, BitVec.ofNat 32 r.cMax,
   place 31 16 r.bandF ||| place 15 0 r.bandC, BitVec.ofNat 32 r.dl, lo32 r.tbMode, hi32 r.tbMode,
   place 15 0 r.txn.toNat, r.repeats]

/-- A word of the band readout (R85). -/
def Dev.bandWord (d : Dev) (i : Nat) : Word :=
  let c := d.fld .ldg 0 LDG_BAND_SEL 6 0
  match (d.bandFigs d.admTables (d.admRegs c))[i / 2]? with
  | some b => if i % 2 = 0 then BitVec.ofNat 32 b.f else place 31 25 b.l ||| place 24 0 b.c
  | none => 0

/-- What BAR0 holds at an offset (R401 to R404). -/
inductive BarArea where
  | page (t : PType) (i : Nat)
  | scene | surface | witness | ledger | msix | reserved
  deriving DecidableEq, Repr

/-- The area of a page number. -/
def areaOf (n : Nat) : BarArea :=
  match pageOf n with
  | some (t, i) => .page t i
  | none =>
    if 1024 ≤ n ∧ n < 1280 then .scene
    else if 1280 ≤ n ∧ n < 1344 then .surface
    else if 1344 ≤ n ∧ n < 1360 then .witness
    else if n = 1408 ∨ n = 1409 then .ledger
    else if n = 2044 then .msix
    else .reserved

/-- The device answers accesses to the page (R357, R373, R378): from ready on, during a warm reset only `HIF`, in recovery
mode only `HIF`, `SVC`, `FLT` and `LOG`. -/
def Dev.responds (d : Dev) (n : Nat) : Bool :=
  d.isReady && (d.rst.warm = 0 || n = PType.hif.page) &&
  (d.svc.mode ≠ .recovery ||
    [PType.hif.page, PType.svc.page, PType.flt.page, PType.log.page].contains n)

/-- The right of function `m` to a BAR0 offset: 0 none, 1 RO, 2 RW (R311, R403 to R405). The MSI-X structures are the
function's own, and no right applies to a reserved offset, the rest of page 1,409 among them. -/
def Dev.offRight (d : Dev) (m off : Nat) : Nat :=
  let n := off / 0x4000
  match areaOf n with
  | .page .cqe _ =>
    let o := off % 0x1000
    if m = 0 ∨ (0x300 + 0x30 * m ≤ o ∧ o < 0x330 + 0x30 * m) then 2 else 0
  | .page _ _ | .witness => d.right m n
  | .ledger => if off < 0x1606000 then d.right m n else 2
  | .scene | .surface => 1
  | .msix | .reserved => 2

/-- A word of the MSI-X structures of function `f` (R404). -/
def Dev.msixRead (d : Dev) (f o : Nat) : Word :=
  if o < 0x400 then d.msixWord f (o / 16) (o % 16 / 4)
  else if 0x800 ≤ o ∧ o < 0x808 then
    (List.range 32).foldl (fun w k =>
      w ||| flag k (FMap.get (fun _ => false) d.hif.msixPend (f * 64 + (o - 0x800) * 8 + k))) 0
  else 0

/-- The word of a Crucible table that an aperture reads: 0 where its group is uncorrectable (R258; for the scene and surface
tables notes/assumptions/20.md). -/
def Dev.apertureWord (d : Dev) (o : Nat) : Word := if d.cru.badGroups.contains (o / 8) then 0 else d.cruWord o

/-- The word that function `m` reads at a BAR0 offset that is a multiple of 4, once its right is checked. -/
def Dev.barWord (d : Dev) (m off : Nat) : Word :=
  match areaOf (off / 0x4000) with
  | .page t i => d.readPage t i (off % 0x4000)
  | .scene =>
    let o := off - 0x1000000
    if d.ownsWin m (o / 128) then d.apertureWord o else 0
  | .surface =>
    let o := off - 0x1400000
    if d.ownsSurf m (o / 64) then d.apertureWord (0x400000 + o) else 0
  | .witness => d.apertureWord (0x500000 + (off - 0x1500000))
  | .ledger =>
    let o := off - 0x1600000
    if o < 0x2000 then wordAt (d.canvas (o / 64)).ldg.words (o % 64 / 4)
    else if o < 0x6000 then d.bandWord ((o - 0x2000) / 4)
    else 0
  | .msix => d.msixRead m (off - 0x1FF0000)
  | .reserved => 0

/-- What a 32-bit read of BAR0 by function `m` returns: 0 where the page does not answer and where the read is denied (R312,
R357, R373). -/
def Dev.busRead (d : Dev) (m off : Nat) : Word :=
  if d.responds (off / 0x4000) ∧ d.offRight m off ≠ 0 then d.barWord m (off / 4 * 4) else 0

/-- A read that the right does not allow is a denial (R312). -/
def Dev.readDenied (d : Dev) (m off : Nat) : Bool := d.responds (off / 0x4000) && d.offRight m off = 0

/-- The side of a read of BAR0 (R312, R320): a denial, and for `CSP_LUT_DATA` the load of `CSP_LUT_DATA_HI` (R121). -/
def Dev.readSide (m off : Nat) (d : Dev) : Dev :=
  if d.readDenied m off then d.deny m 3 false off
  else if ¬ d.responds (off / 0x4000) then d
  else match areaOf (off / 0x4000) with
    | .page .csp c =>
      if off % 0x1000 / 4 * 4 = CSP_LUT_DATA ∧ (d.lutSel c).2.1 = 2 then
        d.setReg .csp c CSP_LUT_DATA_HI (((d.lutEntry c) >>> 32).setWidth 32)
      else d
    | _ => d

/-- What a read returns. -/
def Dev.readAnswer (q : Quad) (d : Dev) : Dev := { d with hif := { d.hif with readData := q } }

/-- A read of BAR0 of a size in bytes by function `m`: the bytes returned and the side of the read. 64 bits are two reads, the
lower offset first (R320). -/
def Dev.readBar (m off size : Nat) (d : Dev) : Dev :=
  let w := d.busRead m off
  let e := d.readSide m off
  if size = 8 then
    let hi := e.busRead m (off + 4)
    (e.readSide m (off + 4)).readAnswer (quad w hi)
  else e.readAnswer (BitVec.ofNat 64 (w.toNat >>> (8 * (off % 4)) % 2 ^ (8 * size)))

/-- CSP_LUT_DATA_READ: a read of `CSP_LUT_DATA` of canvas `c` by function `m`, of `size` bytes from `byte` on (R121, R320). -/
def execCspLutDataRead (m : Fn) (c : CanvasNo) (byte : Fin 4) (size : Nat) (s : State) : Host.Outcome State Fault Refusal :=
  s.dev! (Dev.readBar m (regAt .csp c CSP_LUT_DATA + byte) size)

end Sys2Proof.Machine
end

