-- ==== Sys2Proof/Machine/RegWrite.lean ====
section
/-!
DEFINITION. What a write of BAR0 does: access codes, arms, the lock, legality and staging, set, clear and toggle aliases,
the effect of each register's write, and the command rows that are writes (R6 to R9, R320, R323 to R332, R376). The
readings that this file takes of the manual are listed in notes/assumptions/24.md.
-/
namespace Sys2Proof.Machine

/-! ## A write that reaches its register -/

/-- A write as it reaches a register: the master, the page, the base offset, whether it is armed, the data, the bits of
the fields that take it, and the stored word before and after. -/
structure RegWrite where
  m : Nat
  t : PType
  i : Nat
  off : Nat
  armed : Bool
  data : Word
  mask : Word
  old : Word
  new : Word
  deriving DecidableEq, Repr

/-- Bit `n` is written 1 in a field that takes the write. -/
def RegWrite.on (x : RegWrite) (n : Nat) : Bool := bit (x.data &&& x.mask) n
/-- The field that holds bit `n` takes the write. -/
def RegWrite.takes (x : RegWrite) (n : Nat) : Bool := bit x.mask n

/-- `HIF_RST` (R372): a trigger of the PF alone. -/
def RegWrite.hif (x : RegWrite) (d : Dev) : Dev :=
  if x.off = HIF_RST ∧ x.on 0 ∧ x.m = 0 then d.warmTrigger 2 else d

/-- `CKR_PLL` and `CKR_CCLK` (R151, R367). -/
def RegWrite.ckr (x : RegWrite) (d : Dev) : Dev :=
  if x.off = CKR_CCLK then cclkWritten d else pllControl ((x.off - CKR_PLL) / 4) x.old x.new d

/-- `TMB_CTL` (R370, R371). -/
def RegWrite.tmb (x : RegWrite) (d : Dev) : Dev :=
  if x.off = TMB_CTL then timebaseControl x.old x.new (x.on 29) d else d

/-- `SVC_MB_CMD` (R360). -/
def RegWrite.svc (x : RegWrite) (d : Dev) : Dev :=
  if x.off = SVC_MB_CMD ∧ x.on 31 then d.mailboxGo x.m (bits x.new 7 0) else d

/-- The `ACC` page (R314, R317). -/
def RegWrite.acc (x : RegWrite) (d : Dev) : Dev :=
  if x.off = ACC_CTL then (if x.on 0 then d.lockTables else d)
  else if x.off = ACC_SEL then d.selWritten x.old
  else if x.off = ACC_DATA + 12 then d.commitEntry
  else d

/-- The `FLT` page (R339, R340). -/
def RegWrite.flt (x : RegWrite) (d : Dev) : Dev :=
  if x.off < FLT_LIVE then d.clearSticky ((x.off - FLT_STICKY) / 4) (x.data &&& x.mask)
  else if x.off = FLT_SRC_CFG then d.writeSrcCfg x.data x.armed
  else d

/-- `LOG_RD_SEQ` (R347). -/
def RegWrite.log (x : RegWrite) (d : Dev) : Dev := if x.off = LOG_RD_SEQ then d.readLog x.m x.data else d

/-- `LDG_CTL` and `LDG_DERATE` (R80). -/
def RegWrite.ldg (x : RegWrite) (d : Dev) : Dev :=
  if x.off = LDG_CTL then (if x.on 0 then askReeval 5 d else d)
  else if x.off = LDG_DERATE then askReeval 4 d
  else d

/-- `MRV_CTL` and `MRV_EVT` (R232, R240). A `START` and an `ABORT` in one write start nothing. -/
def RegWrite.mrv (x : RegWrite) (d : Dev) : Dev :=
  if x.off = MRV_CTL then (if x.on 1 then d.abortMarver else if x.on 0 then d.startMarver else d)
  else if x.off = MRV_EVT then
    { d with mrv := { d.mrv with evt := d.mrv.evt &&& ~~~((x.data &&& x.mask).setWidth 3) } }
  else d

/-- Vsync requests whose bit has been written 0 end (R210). -/
def Dev.endVsync (f k : Nat) (w : Word) (d : Dev) : Dev :=
  let r := d.ring f
  d.setRing f { r with vsync := r.vsync.filter fun e => e.1 / 32 ≠ k || bit w (e.1 % 32) }

/-- A notice set of the CQE global page (R206, R210). -/
def RegWrite.cqe (x : RegWrite) (d : Dev) : Dev :=
  let f := (x.off - 0x300) / 0x30
  let o := (x.off - 0x300) % 0x30
  if x.off < 0x300 then d
  else if o = 0x00 then d.writeRingEn f (x.on 0)
  else if o = 0x14 then d.writeNhead f x.data.toNat
  else if 0x20 ≤ o then d.endVsync f ((o - 0x20) / 4) x.new
  else d

/-- The indices of queue `q` keep the bits that its size gives them. -/
def Dev.trimQueue (q : Nat) (d : Dev) : Dev :=
  let x := d.queue q
  (d.setQueue q { x with head := x.head % d.qmod q, cidx := x.cidx % d.qmod q }).setReg .queue q CQE_PIDX
    (BitVec.ofNat 32 (d.pidx q))

/-- A queue page (R192, R201, R203). -/
def RegWrite.queue (x : RegWrite) (d : Dev) : Dev :=
  if x.off = CQE_DB then d.doorbell x.i
  else if x.off = CQE_CTL then d.writeQueueEn x.i (x.on 0)
  else if x.off = CQE_HEAD then d.setQueue x.i { d.queue x.i with head := bits x.data 16 0 % d.qmod x.i }
  else if x.off = CQE_PIDX ∨ x.off = CQE_SIZE then d.trimQueue x.i
  else d

/-- A `CRU` page: a smaller user region frees blocks for staging (R299). -/
def RegWrite.cru (x : RegWrite) (d : Dev) : Dev := if x.off = CRU_UREG then d.stagingFreed else d

/-- A site page: the fence, the threshold whose lowering can begin the cause of site-error-rate, and the lanes' retrains (R270,
R290, R338). -/
def RegWrite.site (x : RegWrite) (wasOver : Bool) (d : Dev) : Dev :=
  if x.off = MCT_SITE_THR then d.overRate x.i wasOver
  else if x.off = MCT_SITE_CTL then (if x.on 0 then d.fenceSite x.i 3 else d)
  else if MCT_LANE_CUR ≤ x.off ∧ (x.off - MCT_LANE_CUR) % 0x20 = 0x18 then
    (if x.on 1 then d.requestRetrain (4 * x.i + (x.off - MCT_LANE_CUR) / 0x20) 3 else d)
  else d

/-- A `CMP` page (R127, R136). -/
def RegWrite.cmp (x : RegWrite) (d : Dev) : Dev :=
  if x.off = CMP_CTL then d.requestRole x.i (bits x.data 1 0)
  else if x.off = CMP_UND_CTL then d.checkingSet (bit x.new 31 && !bit x.old 31)
  else if x.off = CMP_MM_ID ∧ x.on 31 then { d with comp := { d.comp with mm := { d.comp.mm with valid := false } } }
  else d

/-- An index register after a data write: with `AUTOINC` it counts, and wraps after entry `last`. -/
def stepIdx (w : Word) (hi last : Nat) : Word :=
  if bit w 31 then
    let i := bits w hi 0
    (w &&& ~~~(maskOf hi 0)) ||| place hi 0 (if i = last then 0 else i + 1)
  else w

/-- A write of a table word makes it good in every pipe (R300). -/
def Dev.restoreWord (w : LocalWord) (d : Dev) : Dev :=
  { d with cru := { d.cru with badLocal := d.cru.badLocal.filter fun e => e.2 ≠ w } }

/-- A write of `GTH_CLUT_DATA` (R94). -/
def Dev.writeClut (w : Word) (d : Dev) : Dev :=
  let i := d.clutIdx
  let d := { d with luts := { d.luts with clut := FMap.put (fun _ => 0) d.luts.clut i w } }.restoreWord (.clut i)
  d.setReg .gth 0 GTH_CLUT_IDX (stepIdx (d.reg .gth 0 GTH_CLUT_IDX) 13 16383)

/-- A write of `GTH_COEF_DATA` (R114). -/
def Dev.writeCoef (w : Word) (d : Dev) : Dev :=
  let i := d.coefIdx
  let d := { d with luts := { d.luts with coef := FMap.put coefReset d.luts.coef i (w.setWidth 16) } }.restoreWord (.coef i)
  d.setReg .gth 0 GTH_COEF_IDX (stepIdx (d.reg .gth 0 GTH_COEF_IDX) 13 16383)

/-- The bits of input colour slot words that are not reserved (R109). -/
def icsMask (i : Nat) : Word := match i % 8 with | 6 => 3 | 7 => 0 | _ => 0xFFFFFFFF

/-- A write of `CSP_ICS_DATA` (R109). -/
def Dev.writeIcs (w : Word) (d : Dev) : Dev :=
  let i := d.icsIdx
  let d := { d with luts := { d.luts with ics := FMap.put icsReset d.luts.ics i (w &&& icsMask i) } }.restoreWord (.ics i)
  d.setReg .csp 0 CSP_ICS_IDX (stepIdx (d.reg .csp 0 CSP_ICS_IDX) 8 511)

/-- A write of `CSP_LUT_DATA` of canvas `c` (R121). -/
def Dev.writeLut (c : Nat) (w : Word) (d : Dev) : Dev :=
  let (bank, sel, i) := d.lutSel c
  let blu := (d.reg .csp c CSP_LUT_DATA_HI).setWidth 48 &&& 0xFFFF
  let v : BitVec 48 := if sel = 2 then (blu <<< 32) ||| w.setWidth 48 else w.setWidth 48 &&& 0xFFFF
  let d := if i < lutSize sel then
      { d with luts := { d.luts with lut := FMap.put lutReset d.luts.lut (lutKey c bank sel i) v } }.restoreWord
        (.lut (lutKey c bank sel i))
    else d
  d.setReg .csp c CSP_LUT_IDX (stepIdx (d.reg .csp c CSP_LUT_IDX) 12 (lutSize sel - 1))

/-- A `GTH` page (R94, R114). -/
def RegWrite.gth (x : RegWrite) (d : Dev) : Dev :=
  if x.off = GTH_CLUT_DATA then d.writeClut x.data
  else if x.off = GTH_COEF_DATA then d.writeCoef x.data
  else d

/-- A `CSP` page (R109, R121). -/
def RegWrite.csp (x : RegWrite) (d : Dev) : Dev :=
  if x.off = CSP_LUT_DATA then d.writeLut x.i x.data
  else if x.off = CSP_ICS_DATA then d.writeIcs x.data
  else d

/-- A `CNV` page (R158, R163). -/
def RegWrite.cnv (x : RegWrite) (d : Dev) : Dev :=
  if x.off = CNV_CTL then d.writeCanvasEn x.i (x.on 0)
  else if x.off = CNV_SYNC ∧ ¬ bit x.new 31 then { d with pins := { d.pins with fsyncOut := false } }
  else d

/-- A `DPT` page (R34, R176, R185). In one write of `DPT_CTL`, `EN` comes first, then `FREL`, then `RETRAIN`. -/
def RegWrite.dpt (x : RegWrite) (d : Dev) : Dev :=
  if x.off = DPT_CTL then
    let d := if x.takes 0 then d.writePortEn x.i (x.on 0) else d
    let d := if x.on 2 then d.releasePort x.i else d
    if x.on 1 then d.retrainPort x.i else d
  else if x.off = DPT_AUX_CMD ∧ x.on 31 then d.auxGo x.i x.new
  else if x.off = DPT_PAIR_CMD ∧ x.on 0 then d.askSwap x.i
  else d

/-- The DMA global page (R222). -/
def RegWrite.dma (x : RegWrite) (d : Dev) : Dev :=
  if x.off < DMA_TMR_CTL then d
  else match (x.off - DMA_TMR_CTL) % 16 with
    | 0 => d.timerWritten ((x.off - DMA_TMR_CTL) / 16)
    | 4 => d.periodWritten ((x.off - DMA_TMR_CTL) / 16)
    | _ => d

/-- A DMA channel page (R213, R220). In one write of `DMA_CH_CTL`, `EN` comes first, then `FREL`, then `KICK`. -/
def RegWrite.chan (x : RegWrite) (d : Dev) : Dev :=
  if x.off = DMA_CH_CTL then
    let d := if x.takes 0 then d.writeChanEn x.i (x.on 0) else d
    let d := if x.on 2 then d.releaseChan x.i else d
    if x.on 1 then d.askStart x.i (.kick x.m) else d
  else if x.off = DMA_CH_EVT then
    let c := d.chan x.i
    d.setChan x.i { c with evt := c.evt &&& ~~~((x.data &&& x.mask).setWidth 3) }
  else d

/-- A `CVU` page (R244, R245, R250). In one write of `CVU_CTL`, `EN` comes first, then `FREL`, `STOP` and `START`. -/
def RegWrite.cvu (x : RegWrite) (d : Dev) : Dev :=
  if x.off = CVU_CTL then
    let d := if x.takes 0 then d.writeEngineEn x.i (x.on 0) else d
    let d := if x.on 3 then d.releaseEngine x.i else d
    let d := if x.on 2 then d.stopScan x.i else d
    if x.on 1 then d.cvuKick x.i x.m else d
  else if x.off = CVU_VAL_LO then d.writeVal x.i false x.data
  else if x.off = CVU_VAL_HI then d.writeVal x.i true x.data
  else if x.off = CVU_WCTL ∧ ¬ bit x.new 0 then d.disarmRegions
  else d

/-- What a register's write does beyond the register file; `wasOver` says that the rate of the site whose page it is was exceeded
before the write. -/
def RegWrite.effect (x : RegWrite) (wasOver : Bool) (d : Dev) : Dev :=
  match x.t with
  | .hif => x.hif d | .ckr => x.ckr d | .tmb => x.tmb d | .svc => x.svc d | .acc => x.acc d | .flt => x.flt d
  | .log => x.log d | .ldg => x.ldg d | .mrv => x.mrv d | .cqe => x.cqe d | .queue => x.queue d | .site => x.site wasOver d
  | .cmp => x.cmp d | .gth => x.gth d | .csp => x.csp d | .cnv => x.cnv d | .dpt => x.dpt d | .dma => x.dma d
  | .chan => x.chan d | .cvu => x.cvu d | .cru => x.cru d
  | .scn | .mct | .lhr => d

/-! ## Block reset (R332, R376) -/

/-- A page with nothing staged, nothing held, no arm and no snapshot (R5, R326, R332). -/
def Dev.dropHeld (n : Nat) (d : Dev) : Dev :=
  { d with regs := { d.regs with
      snaps := FMap.erase d.regs.snaps n
      staged := d.regs.staged.filter fun e => e.1 / 0x4000 ≠ n
      admitted := d.regs.admitted.filter fun e => e.1 / 0x4000 ≠ n
      arms := d.regs.arms.filter fun e => e.1 / 128 ≠ n
      hold := FMap.erase d.regs.hold n
      discarded := FMap.erase d.regs.discarded n } }

/-- A request waits for canvas `c` alone: its enable, or a set of its page. -/
def AdmReq.ofCanvas (c : Nat) (r : AdmReq) : Bool :=
  match r with
  | .enable k => k = c
  | .regs k _ => k = c
  | .txn _ | .reeval _ | .flip _ _ _ _ | .clear _ _ _ => false

/-- The block reset of an OFF canvas: requests of its page that wait for admission are withdrawn, and the record shows the
`CNV_PRIO` then in effect (R84). -/
def Dev.resetCanvas (c : Nat) (d : Dev) : Dev :=
  let d := (d.resetPage (PType.cnv.page + c)).setCanvas c { ldg := (d.canvas c).ldg }
  let d := d.recordPrio c (d.cregs c)
  let d := { d with scene := { d.scene with admQ := d.scene.admQ.filter fun r => !r.ofCanvas c } }
  if c = 0 then { d with pins := { d.pins with fsyncOut := false } } else d

/-- The block reset of an OFF port: a fence and the state of `HPD` are not registers. -/
def Dev.resetPort (n : Nat) (d : Dev) : Dev :=
  let x := d.port n
  ((d.resetPage (PType.dpt.page + n)).setPort n
    { fenced := x.fenced, hpdPin := x.hpdPin, hpd := x.hpd, edgeAt := x.edgeAt, lossDone := x.lossDone }).updatePairs

/-- The block reset of an OFF queue: its epoch stays. -/
def Dev.resetQueue (q : Nat) (d : Dev) : Dev :=
  (d.resetPage (PType.queue.page + q)).setQueue q { epoch := (d.queue q).epoch }

/-- The counters of a Gather unit are cleared. -/
def Dev.resetGather (g : Nat) (d : Dev) : Dev := d.setGather g { d.gather g with fritErr := 0, poison := 0, urgent := 0 }

/-- The counters of a pipe, and with pipe 0 the disagreement record, are cleared. -/
def Dev.resetPipe (p : Nat) (d : Dev) : Dev :=
  let d := d.setPipe p { d.pipe p with bands := 0, checks := 0, mismatch := 0, skip := 0 }
  if p = 0 then { d with comp := { d.comp with mm := {} } } else d

/-- `TMB_CTL` takes its reset value and a pending load is withdrawn. -/
def Dev.resetTimebase (d : Dev) : Dev :=
  let old := d.reg .tmb 0 TMB_CTL
  let new := regReset .tmb 0 TMB_CTL
  let d := timebaseControl old new false (d.setReg .tmb 0 TMB_CTL new)
  { d with tb := { d.tb with loadPend := false } }

/-- The block reset of a page, where the state of its unit allows one (R376). -/
def Dev.blockReset (t : PType) (i : Nat) (d : Dev) : Dev :=
  let n := t.page + i
  match t with
  | .cnv => d.when ((d.canvas i).state = .off) (Dev.resetCanvas i)
  | .csp => d.when ((d.canvas i).state = .off) (Dev.resetPage n)
  | .dpt => d.when ((d.port i).state = .off) (Dev.resetPort i)
  | .queue => d.when ((d.queue i).state = .off) (Dev.resetQueue i)
  | .chan => d.when ((d.chan i).state = .off) fun d => (d.resetPage n).setChan i { flips := (d.chan i).flips }
  | .cvu => d.when ((d.engine i).state = .off) fun d => (d.resetPage n).setEngine i {}
  | .mrv => d.when (d.mrv.state = .idle) fun d => { d.resetPage n with mrv := {} }
  | .gth => (d.resetGather i).dropHeld n
  | .cmp => (d.resetPipe i).dropHeld n
  | .flt => d.resetFaultSettings
  | .log => d.resetLog
  | .tmb => d.resetTimebase.dropHeld n
  | .hif | .ckr | .svc | .acc | .cru | .ldg | .scn | .mct | .site | .lhr | .cqe | .dma => d

/-! ## The page header (R325 to R331, R333) -/

/-- The staged words of canvas `c`'s page go to admission as one change, where some of them is admitted (R330). -/
def Dev.releaseSet (c : Nat) (d : Dev) : Dev :=
  let l := (d.stagedOf .cnv c).filter fun e => !d.scene.admQ.any (AdmReq.holds c e)
  if l.any fun e => admittedOffs.contains e.1 then
    { d with scene := { d.scene with admQ := d.scene.admQ ++ [AdmReq.regs c l] } }
  else d

/-- A write of `PAGE_STAGE.HOLD` (R329, R330). -/
def Dev.writeHold (t : PType) (i : Nat) (b : Bool) (d : Dev) : Dev :=
  let n := t.page + i
  let was := d.held n
  let d := { d with regs := { d.regs with hold := FMap.put (fun _ => false) d.regs.hold n b } }
  if t = .cnv ∧ was ∧ ¬ b then d.releaseSet i else d

/-- The key-violation source fires for a write at a page offset by a master (R327). -/
def Dev.keyViolation (t : PType) (i m woff : Nat) (d : Dev) : Dev :=
  d.fire 2 (pageId t i) (dbits 0 m ||| dbits 32 woff)

/-- A write of `PAGE_KEY` (R325, R326). -/
def Dev.writeKey (t : PType) (i m : Nat) (w : Word) (d : Dev) : Dev :=
  let n := t.page + i
  if w = BitVec.ofNat 32 (0xCA5F0000 + pageId t i) then d.setArm n m true
  else (d.setArm n m false).keyViolation t i m 0x00C

/-- A write of `SNAP_REQ`: `VALID` reads 0 until the copy lands, and a request that is under way is superseded (R333 to
R335). -/
def Dev.takeSnap (t : PType) (i m : Nat) (g : BitVec 8) (d : Dev) : Dev :=
  d.setSnap (t.page + i) { d.snapOf (t.page + i) with valid := false, mid := m, group := g, asked := some d.now, taken := none }

/-- The writable registers of the page header. -/
def headerDesc (off : Nat) : Option RegDesc :=
  match off with
  | 0x00C => some ⟨0x00C, 0, false, [⟨31, 0, .wo, .any⟩]⟩
  | 0x010 => some ⟨0x010, 0, false, [⟨0, 0, .wok, .any⟩]⟩
  | 0x014 => some ⟨0x014, 0, false, [⟨0, 0, .dev, .any⟩]⟩
  | 0x020 => some ⟨0x020, 0, false, [⟨7, 0, .wo, .any⟩]⟩
  | _ => none

/-- What a write of a header register does. -/
def RegWrite.headerEffect (x : RegWrite) (d : Dev) : Dev :=
  match x.off with
  | 0x00C => d.writeKey x.t x.i x.m x.data
  | 0x010 => if x.on 0 then d.blockReset x.t x.i else d
  | 0x014 => d.writeHold x.t x.i (x.on 0)
  | 0x020 => d.takeSnap x.t x.i x.m (x.data.setWidth 8)
  | _ => d

/-! ## Access codes, arms, lock, legality and staging (R7 to R9, R314, R325, R326, R328, R330) -/

/-- The register at a page offset: of the header or of the block. -/
def anyDesc (t : PType) (i off : Nat) : Option RegDesc := if off < 0x040 then headerDesc off else regDesc t i off

/-- The state of the unit lets a write take effect. The page header always takes one. -/
def Dev.accepts (d : Dev) (t : PType) (i off : Nat) (data : Word) : Bool :=
  off < 0x040 || match t with
  | .ckr => if off = CKR_CCLK then d.clk.change = 0 else !d.pllBusy ((off - CKR_PLL) / 4)
  | .queue =>
    (off = CQE_DB || off = CQE_PIDX || off = CQE_CTL || off = CQE_ARB || (d.queue i).state = .off)
  | .cqe =>
    let o := (off - 0x300) % 0x30
    !(d.ring ((off - 0x300) / 0x30)).en || !(o = 0x04 || o = 0x08 || o = 0x0C)
  | .mct =>
    if MCT_HASH_LO ≤ off ∧ off < MCT_HASH_LO + 48 then
      d.mct.state = 0 && (off % 8 ≠ 0 || hashMaskOk ((off - MCT_HASH_LO) / 8) data)
    else true
  | .cru => off ≠ CRU_UREG ||
    (d.canvases.all (fun e => e.2.state = .off) && decide (bits data 14 0 + 161 + d.withheld ≤ 19104))
  | .dma =>
    !(decide (DMA_TMR_CTL ≤ off) && (off - DMA_TMR_CTL) % 16 = 4 && data = 0 &&
      !bit (d.timerCtl ((off - DMA_TMR_CTL) / 16)) 30)
  | .hif | .tmb | .svc | .acc | .flt | .log | .ldg | .scn | .mrv | .site | .lhr | .cmp | .gth | .csp | .cnv | .dpt | .chan
  | .cvu => true

/-- The field's value in a word. -/
def FieldDesc.val (f : FieldDesc) (w : Word) : Nat := bits w f.hi f.lo

/-- A field takes a write: it is armed where it must be, not locked, and the value is not reserved. -/
def FieldDesc.takes (f : FieldDesc) (armed locked : Bool) (data : Word) : Bool :=
  (armed || !f.acc.keyed) && !(locked && f.acc.locked) && f.legal.ok (f.val data)

/-- The bits of the fields of a register that take a write. -/
def RegDesc.takenMask (r : RegDesc) (armed locked aliased : Bool) (data : Word) : Word :=
  r.fields.foldl (fun m f =>
    if f.takes armed locked data && (!aliased || f.acc.aliased) then m ||| maskOf f.hi f.lo else m) 0

/-- An unarmed write would change an RK field's value, or writes 1 to a field that is WO and RK (R326). -/
def RegDesc.violates (r : RegDesc) (now data : Word) : Bool :=
  r.fields.any fun f => f.acc.keyed &&
    (if f.acc = .wok then f.val data ≠ 0 else f.legal.ok (f.val data) && f.val data ≠ f.val now)

/-- The value written to a keyed field is legal as the device stands: `FLT_SRC_CFG.REACT` names a reaction that the selected
source allows (R7, R340). -/
def Dev.keyedLegal (d : Dev) (t : PType) (off : Nat) (data : Word) : Bool :=
  t ≠ .flt || off ≠ FLT_SRC_CFG || ((srcInfo d.srcSel).map fun i => i.reacts.contains (bits data 13 12)).getD false

/-- A staged word enters the page's staging buffer; where `HOLD` reads 0, a word of a canvas page that the ledger admits
goes to admission (R328, R330). -/
def Dev.stageWord (t : PType) (i off : Nat) (w : Word) (d : Dev) : Dev :=
  let n := t.page + i
  let d := (d.setStagedAt (regAt t i off) (some w)).setDiscarded n false
  if t = .cnv ∧ ¬ d.held n ∧ admittedOffs.contains off then
    { d with scene := { d.scene with admQ := d.scene.admQ ++ [AdmReq.regs i [(off, w)]] } }
  else d

/-- The register file after a write. `CMP_CTL.REQ` changes only with an accepted request (R127). -/
def RegWrite.store (x : RegWrite) (r : RegDesc) (d : Dev) : Dev :=
  if r.staged then d.stageWord x.t x.i x.off x.new
  else if (x.t = .cmp ∧ x.off = CMP_CTL) ∨ r.storedMask = 0 then d
  else d.setReg x.t x.i x.off x.new

/-- A write that some field takes. -/
def RegWrite.perform (x : RegWrite) (r : RegDesc) (d : Dev) : Dev :=
  if x.off < 0x040 then x.headerEffect d
  else
    let e := x.store r d
    if r.staged then e else x.effect (d.siteOverRate x.i) e

/-- A write by master `m` to the register at page offset `off`, made at page offset `woff`: through an alias where
`aliased`. -/
def Dev.writeReg (m : Nat) (t : PType) (i off woff : Nat) (aliased : Bool) (data : Word) (d : Dev) : Dev :=
  match anyDesc t i off with
  | none => d
  | some r =>
    let n := t.page + i
    let armed := d.armed n m
    let ok := d.accepts t i off data
    let bad := r.keyed && !armed && ok && r.violates (d.readPage t i off) data && d.keyedLegal t off data
    let mask := if ok then r.takenMask armed d.acc.lock aliased data else 0
    let old := d.view t i off &&& r.storedMask
    let new := ((old &&& ~~~mask) ||| (data &&& mask)) &&& r.storedMask
    let d := if r.keyed then d.setArm n m false else d
    let d := if bad then d.keyViolation t i m woff else d
    if mask = 0 then d
    else RegWrite.perform ⟨m, t, i, off, armed, data, mask, old, new⟩ r d

/-- The value that a set (1), clear (2) or toggle (3) alias makes of a read value and the data (R323). -/
def aliasValue (k : Nat) (v w : Word) : Word :=
  match k with
  | 1 => v ||| w
  | 2 => v &&& ~~~w
  | _ => v ^^^ w

/-- A write by master `m` at an offset of a page (R319, R323). -/
def Dev.writePage (m : Nat) (t : PType) (i woff : Nat) (w : Word) (d : Dev) : Dev :=
  let off := woff % 0x1000
  let k := woff / 0x1000
  if k = 0 then d.writeReg m t i off woff false w
  else match anyDesc t i off with
    | none => d
    | some r =>
      if r.actionOnly then d
      else d.writeReg m t i off woff true (aliasValue k (d.readPage t i off) w &&& r.aliasMask)

/-! ## Writes of BAR0 (R312, R320, R401 to R405) -/

/-- A write that the right does not allow (R311, R312, R405). The scene and surface apertures ignore writes (R39). -/
def Dev.writeDenied (d : Dev) (m off : Nat) : Bool :=
  d.responds (off / 0x4000) &&
  match areaOf (off / 0x4000) with
  | .page _ _ | .witness | .ledger => d.offRight m off ≠ 2
  | .scene | .surface | .msix | .reserved => false

/-- An aligned 32-bit write of BAR0 by function `m`. -/
def Dev.busWrite (m off : Nat) (w : Word) (d : Dev) : Dev :=
  if d.writeDenied m off then d.deny m 3 true off
  else if ¬ d.responds (off / 0x4000) then d
  else match areaOf (off / 0x4000) with
    | .page t i => d.writePage m t i (off % 0x4000) w
    | .witness => if m = 0 then d.writeWitness ((off - 0x1500000) / 64) (off % 64 / 4) w else d
    | .msix =>
      let o := off - 0x1FF0000
      if o < 0x400 then d.writeMsix m (o / 16) (o % 16 / 4) w else d
    | .scene | .surface | .ledger | .reserved => d

/-- `CQE_DB` at its base offset. -/
def isDoorbell (off : Nat) : Bool :=
  match areaOf (off / 0x4000) with
  | .page .queue _ => off % 0x4000 = CQE_DB
  | _ => false

/-- A write of BAR0 of a size in bytes (R320): 64 bits are two accesses, lower offset first; narrower writes than 32 bits
are ignored, except at `CQE_DB`. -/
def Dev.sizedWrite (m off size : Nat) (data : Quad) (d : Dev) : Dev :=
  if size = 4 ∧ off % 4 = 0 then d.busWrite m off (lo32 data)
  else if size = 8 ∧ off % 4 = 0 then
    if areaOf (off / 0x4000) = .witness then (if d.writeDenied m off then d.deny m 3 true off else d)
    else (d.busWrite m off (lo32 data)).busWrite m (off + 4) (hi32 data)
  else if (size = 1 ∨ size = 2) ∧ isDoorbell off then d.busWrite m off (lo32 data)
  else if (size = 1 ∨ size = 2) ∧ d.writeDenied m off then d.deny m 3 true off
  else d

/-- A write by function `m` of a register of a page. -/
def Dev.regWrite (m : Nat) (t : PType) (i off : Nat) (w : Word) (d : Dev) : Dev := d.busWrite m (regAt t i off) w

/-- A register's RW, RS, RK and RL fields as they read, its actions 0. -/
def Dev.fields (d : Dev) (t : PType) (i off : Nat) : Word :=
  d.readPage t i off &&& ((regDesc t i off).map RegDesc.aliasMask).getD 0

/-- A write by function `m` that gives one field of a register a value, `sets` with the field's bits `clears` replaced; the
register's other fields are written as they read. -/
def Dev.fieldWrite (m : Nat) (t : PType) (i off : Nat) (clears sets : Word) (d : Dev) : Dev :=
  d.regWrite m t i off ((d.fields t i off &&& ~~~clears) ||| sets)

/-! ## The rows of every page -/

/-- REGISTER_WRITE: a write of BAR0 (R6 to R9, R320). -/
def execRegisterWrite (m : Fn) (off : Offset) (size : Nat) (data : Quad) (s : State) : Host.Outcome State Fault Refusal :=
  s.dev! (Dev.sizedWrite m off.toNat size data)

/-- ALIAS_WRITE: a write of a set, clear or toggle alias; an offset that is none has no effect as this row (R323). -/
def execAliasWrite (m : Fn) (off : Offset) (data : Word) (s : State) : Host.Outcome State Fault Refusal :=
  s.dev! fun d => d.when (off.toNat % 4 = 0 && decide (0x1000 ≤ off.toNat % 0x4000) && (pageOf (off.toNat / 0x4000)).isSome)
    (Dev.busWrite m off.toNat data)

/-- A write of a header register of a register page. -/
def Dev.headerWrite (m n off : Nat) (w : Word) (d : Dev) : Dev :=
  d.when (pageOf n).isSome (Dev.busWrite m (0x4000 * n + off) w)

/-- PAGE_KEY: a write of `PAGE_KEY` (R325, R326). -/
def execPageKey (m : Fn) (page : PageNo) (key : Word) (s : State) : Host.Outcome State Fault Refusal :=
  s.dev! (Dev.headerWrite m page 0x00C key)

/-- PAGE_STAGE_HOLD: a write of `PAGE_STAGE` (R329, R330). -/
def execPageStageHold (m : Fn) (page : PageNo) (hold : Bool) (s : State) : Host.Outcome State Fault Refusal :=
  s.dev! (Dev.headerWrite m page 0x014 (flag 0 hold))

/-- SNAP_REQ: a write of `SNAP_REQ` (R333, R334). -/
def execSnapReq (m : Fn) (page : PageNo) (group : BitVec 8) (s : State) : Host.Outcome State Fault Refusal :=
  s.dev! (Dev.headerWrite m page 0x020 (group.setWidth 32))

/-- BLOCK_RESET: a write of 1 to `PAGE_CTL.BRST` (R332, R376). -/
def execBlockReset (m : Fn) (page : PageNo) (s : State) : Host.Outcome State Fault Refusal :=
  s.dev! (Dev.headerWrite m page 0x010 1)

/-- The staged `MCT_REF` applies in every ganged channel. -/
def Dev.applyRefs (d : Dev) : Dev := (List.range 4).foldl (fun d g => d.applyRef g) d

/-- The staged overrides of a site's lanes apply. -/
def Dev.applyOverrides (site : Nat) (d : Dev) : Dev :=
  ((List.range 4).map (4 * site + ·)).foldl (fun d l =>
    match d.stagedOverride l with | some w => d.overrideLane l w | none => d) d

/-- What applies of a page's staged values within 1 µs, while its unit is not running (R328). -/
def Dev.applyStaged (t : PType) (i : Nat) (d : Dev) : Dev :=
  match t with
  | .cnv => d.when ((d.canvas i).state = .off) (Dev.takePlain i)
  | .csp => d.when ((d.canvas i).state = .off) (Dev.takeCsp i)
  | .dpt => d.when ((d.canvas (d.portCanvas i)).state = .off) (Dev.applyPort i)
  | .mct => d.when (decide (d.mct.state < 2)) Dev.applyRefs
  | .site => d.when (decide (d.mct.state < 2)) (Dev.applyOverrides i)
  | .chan => d.when ((d.chan i).state = .off) (Dev.takeChan i)
  | .queue => d.when d.whoseTurn.isNone fun d => d.applyArb i
  | .hif | .ckr | .tmb | .svc | .acc | .flt | .log | .cru | .ldg | .scn | .mrv | .cqe | .lhr | .cmp | .gth | .dma
  | .cvu => d

/-- STAGED_APPLY_IDLE (R328). -/
def execStagedApplyIdle (page : PageNo) (s : State) : Host.Outcome State Fault Refusal :=
  s.dev! fun d => match pageOf page with
    | some (t, i) => d.applyStaged t i
    | none => d

/-! ## The rows of single registers -/

/-- DOORBELL: a write of `CQE_DB` (R192). -/
def execDoorbell (m : Fn) (q : QueueNo) (s : State) : Host.Outcome State Fault Refusal :=
  s.dev! (Dev.regWrite m .queue q CQE_DB 0)

/-- QUEUE_ENABLE: `CQE_CTL.EN` written 1 (R203). -/
def execQueueEnable (m : Fn) (q : QueueNo) (s : State) : Host.Outcome State Fault Refusal :=
  s.dev! (Dev.regWrite m .queue q CQE_CTL 1)

/-- QUEUE_DISABLE: `CQE_CTL.EN` written 0 (R203, R204). -/
def execQueueDisable (m : Fn) (q : QueueNo) (s : State) : Host.Outcome State Fault Refusal :=
  s.dev! (Dev.regWrite m .queue q CQE_CTL 0)

/-- NOTICE_RING_ENABLE: `CQE_NCTL.EN` of function `f` written 1 (R206). -/
def execNoticeRingEnable (m f : Fn) (s : State) : Host.Outcome State Fault Refusal :=
  s.dev! (Dev.fieldWrite m .cqe 0 (0x300 + 0x30 * f) 1 1)

/-- CQE_NHEAD: a write of `CQE_NHEAD` of function `f` (R206). -/
def execCqeNhead (m f : Fn) (head : Word) (s : State) : Host.Outcome State Fault Refusal :=
  s.dev! (Dev.regWrite m .cqe 0 (0x314 + 0x30 * f) head)

/-- LDG_REEVAL: `LDG_CTL.REEVAL` written 1 (R80). -/
def execLdgReeval (m : Fn) (s : State) : Host.Outcome State Fault Refusal := s.dev! (Dev.regWrite m .ldg 0 LDG_CTL 1)

/-- LDG_DERATE_WRITE: a write of `LDG_DERATE.FR_CYC` (R80). -/
def execLdgDerateWrite (m : Fn) (frCyc : BitVec 16) (s : State) : Host.Outcome State Fault Refusal :=
  s.dev! (Dev.regWrite m .ldg 0 LDG_DERATE (frCyc.setWidth 32))

/-- CMP_ROLE_REQUEST: a write of `CMP_CTL.REQ` (R127). -/
def execCmpRoleRequest (m : Fn) (p : PipeNo) (req : BitVec 2) (s : State) : Host.Outcome State Fault Refusal :=
  s.dev! (Dev.regWrite m .cmp p CMP_CTL (req.setWidth 32))

/-- CANVAS_ENABLE: `CNV_CTL.EN` written 1 (R163). -/
def execCanvasEnable (m : Fn) (c : CanvasNo) (s : State) : Host.Outcome State Fault Refusal :=
  s.dev! (Dev.regWrite m .cnv c CNV_CTL 1)

/-- CANVAS_DISABLE: `CNV_CTL.EN` written 0 (R163, R164). -/
def execCanvasDisable (m : Fn) (c : CanvasNo) (s : State) : Host.Outcome State Fault Refusal :=
  s.dev! (Dev.regWrite m .cnv c CNV_CTL 0)

/-- PORT_ENABLE: `DPT_CTL.EN` written 1 (R185). -/
def execPortEnable (m : Fn) (n : PortNo) (s : State) : Host.Outcome State Fault Refusal :=
  s.dev! (Dev.regWrite m .dpt n DPT_CTL 1)

/-- PORT_DISABLE: `DPT_CTL.EN` written 0 (R185, R186). -/
def execPortDisable (m : Fn) (n : PortNo) (s : State) : Host.Outcome State Fault Refusal :=
  s.dev! (Dev.regWrite m .dpt n DPT_CTL 0)

/-- RETRAIN: `DPT_CTL.RETRAIN` written 1 (R185). -/
def execRetrain (m : Fn) (n : PortNo) (s : State) : Host.Outcome State Fault Refusal :=
  s.dev! (Dev.fieldWrite m .dpt n DPT_CTL 0 2)

/-- PORT_FREL: `DPT_CTL.FREL` written 1 (R184). -/
def execPortFrel (m : Fn) (n : PortNo) (s : State) : Host.Outcome State Fault Refusal :=
  s.dev! (Dev.fieldWrite m .dpt n DPT_CTL 0 4)

/-- SWAP: `DPT_PAIR_CMD.SWAP` written 1 (R34). -/
def execSwap (m : Fn) (n : PortNo) (s : State) : Host.Outcome State Fault Refusal :=
  s.dev! (Dev.regWrite m .dpt n DPT_PAIR_CMD 1)

/-- DPT_AUX_GO: a write of `DPT_AUX_CMD` with `GO` = 1 (R176). -/
def execDptAuxGo (m : Fn) (n : PortNo) (cmd : Word) (s : State) : Host.Outcome State Fault Refusal :=
  s.dev! (Dev.regWrite m .dpt n DPT_AUX_CMD (cmd ||| flag 31 true))

/-- GTH_CLUT_DATA_WRITE (R94). -/
def execGthClutDataWrite (m : Fn) (data : Word) (s : State) : Host.Outcome State Fault Refusal :=
  s.dev! (Dev.regWrite m .gth 0 GTH_CLUT_DATA data)

/-- GTH_COEF_DATA_WRITE (R114). -/
def execGthCoefDataWrite (m : Fn) (data : Word) (s : State) : Host.Outcome State Fault Refusal :=
  s.dev! (Dev.regWrite m .gth 0 GTH_COEF_DATA data)

/-- CSP_ICS_DATA_WRITE (R109). -/
def execCspIcsDataWrite (m : Fn) (data : Word) (s : State) : Host.Outcome State Fault Refusal :=
  s.dev! (Dev.regWrite m .csp 0 CSP_ICS_DATA data)

/-- CSP_LUT_DATA_WRITE (R121). -/
def execCspLutDataWrite (m : Fn) (c : CanvasNo) (data : Word) (s : State) : Host.Outcome State Fault Refusal :=
  s.dev! (Dev.regWrite m .csp c CSP_LUT_DATA data)

/-- CHANNEL_ENABLE: `DMA_CH_CTL.EN` written 1 (R213). -/
def execChannelEnable (m : Fn) (ch : ChanNo) (s : State) : Host.Outcome State Fault Refusal :=
  s.dev! (Dev.regWrite m .chan ch DMA_CH_CTL 1)

/-- CHANNEL_DISABLE: `DMA_CH_CTL.EN` written 0 (R213, R227). -/
def execChannelDisable (m : Fn) (ch : ChanNo) (s : State) : Host.Outcome State Fault Refusal :=
  s.dev! (Dev.regWrite m .chan ch DMA_CH_CTL 0)

/-- KICK: `DMA_CH_CTL.KICK` written 1 (R220). -/
def execKick (m : Fn) (ch : ChanNo) (s : State) : Host.Outcome State Fault Refusal :=
  s.dev! (Dev.fieldWrite m .chan ch DMA_CH_CTL 0 2)

/-- DMA_FREL: `DMA_CH_CTL.FREL` written 1 (R213). -/
def execDmaFrel (m : Fn) (ch : ChanNo) (s : State) : Host.Outcome State Fault Refusal :=
  s.dev! (Dev.fieldWrite m .chan ch DMA_CH_CTL 0 4)

/-- TIMER_ENABLE: a write of `DMA_TMR_CTL` with `EN` = 1 (R222). -/
def execTimerEnable (m : Fn) (t : TimerNo) (ctl : Word) (s : State) : Host.Outcome State Fault Refusal :=
  s.dev! (Dev.regWrite m .dma 0 (DMA_TMR_CTL + 16 * t) (ctl ||| flag 31 true))

/-- TIMER_PERIOD_WRITE: a write of `DMA_TMR_PER` (R222). -/
def execTimerPeriodWrite (m : Fn) (t : TimerNo) (ns : Word) (s : State) : Host.Outcome State Fault Refusal :=
  s.dev! (Dev.regWrite m .dma 0 (DMA_TMR_PER + 16 * t) ns)

/-- MRV_START: `MRV_CTL.START` written 1 (R232). -/
def execMrvStart (m : Fn) (s : State) : Host.Outcome State Fault Refusal := s.dev! (Dev.regWrite m .mrv 0 MRV_CTL 1)

/-- MRV_ABORT: `MRV_CTL.ABORT` written 1 (R240). -/
def execMrvAbort (m : Fn) (s : State) : Host.Outcome State Fault Refusal := s.dev! (Dev.regWrite m .mrv 0 MRV_CTL 2)

/-- CVU_ENABLE: `CVU_CTL.EN` written 1 (R244). -/
def execCvuEnable (m : Fn) (e : EngineNo) (s : State) : Host.Outcome State Fault Refusal :=
  s.dev! (Dev.fieldWrite m .cvu e CVU_CTL 1 1)

/-- CVU_DISABLE: `CVU_CTL.EN` written 0 (R244, R251). -/
def execCvuDisable (m : Fn) (e : EngineNo) (s : State) : Host.Outcome State Fault Refusal :=
  s.dev! (Dev.fieldWrite m .cvu e CVU_CTL 1 0)

/-- CVU_START: `CVU_CTL.START` written 1 (R245, R246). -/
def execCvuStart (m : Fn) (e : EngineNo) (s : State) : Host.Outcome State Fault Refusal :=
  s.dev! (Dev.fieldWrite m .cvu e CVU_CTL 0 2)

/-- CVU_STOP: `CVU_CTL.STOP` written 1 (R250). -/
def execCvuStop (m : Fn) (e : EngineNo) (s : State) : Host.Outcome State Fault Refusal :=
  s.dev! (Dev.fieldWrite m .cvu e CVU_CTL 0 4)

/-- CVU_FREL: `CVU_CTL.FREL` written 1 (R244). -/
def execCvuFrel (m : Fn) (e : EngineNo) (s : State) : Host.Outcome State Fault Refusal :=
  s.dev! (Dev.fieldWrite m .cvu e CVU_CTL 0 8)

/-- WITNESS_WRITE: an aligned 32-bit write of the witness table (R254). -/
def execWitnessWrite (m : Fn) (r : RegionNo) (word : Fin 16) (data : Word) (s : State) :
    Host.Outcome State Fault Refusal :=
  s.dev! (Dev.busWrite m (0x1500000 + 64 * r + 4 * word) data)

/-- MCT_SITE_FENCE: `MCT_SITE_CTL.FENCE` written 1 (R270). -/
def execMctSiteFence (m : Fn) (site : SiteNo) (s : State) : Host.Outcome State Fault Refusal :=
  s.dev! (Dev.regWrite m .site site MCT_SITE_CTL 1)

/-- LANE_RETRAIN: `MCT_LANE_CTL.RETRAIN` of a lane written 1 (R290). -/
def execLaneRetrain (m : Fn) (l : LaneNo) (s : State) : Host.Outcome State Fault Refusal :=
  s.dev! (Dev.fieldWrite m .site (l / 4) (MCT_LANE_CTL + 0x20 * (l % 4)) 0 2)

/-- ACC_SEL_WRITE (R317). -/
def execAccSelWrite (m : Fn) (data : Word) (s : State) : Host.Outcome State Fault Refusal :=
  s.dev! (Dev.regWrite m .acc 0 ACC_SEL data)

/-- ACC_DATA3_COMMIT: a write of `ACC_DATA3` (R317). -/
def execAccData3Commit (m : Fn) (data : Word) (s : State) : Host.Outcome State Fault Refusal :=
  s.dev! (Dev.regWrite m .acc 0 (ACC_DATA + 12) data)

/-- LOCK: `ACC_CTL.LOCK` written 1 (R314). -/
def execLock (m : Fn) (s : State) : Host.Outcome State Fault Refusal := s.dev! (Dev.regWrite m .acc 0 ACC_CTL 1)

/-- STICKY_CLEAR: a write of `FLT_STICKY` (R339). -/
def execStickyClear (m : Fn) (word : Fin 32) (bits : Word) (s : State) : Host.Outcome State Fault Refusal :=
  s.dev! (Dev.regWrite m .flt 0 (FLT_STICKY + 4 * word) bits)

/-- LOG_RD_SEQ: a write of `LOG_RD_SEQ` (R347). -/
def execLogRdSeq (m : Fn) (seq : Word) (s : State) : Host.Outcome State Fault Refusal :=
  s.dev! (Dev.regWrite m .log 0 LOG_RD_SEQ seq)

/-- CCLK_CHANGE: a write of `CKR_CCLK.MHZ` (R367). -/
def execCclkChange (m : Fn) (mhz : BitVec 11) (s : State) : Host.Outcome State Fault Refusal :=
  s.dev! (Dev.regWrite m .ckr 0 CKR_CCLK (mhz.setWidth 32))

/-- TMB_LOAD: `TMB_CTL.LOAD` written 1 (R370). -/
def execTmbLoad (m : Fn) (s : State) : Host.Outcome State Fault Refusal :=
  s.dev! (Dev.fieldWrite m .tmb 0 TMB_CTL 0 (flag 29 true))

/-- WARM: `HIF_RST.WARM` written 1 (R372). -/
def execWarm (m : Fn) (s : State) : Host.Outcome State Fault Refusal := s.dev! (Dev.regWrite m .hif 0 HIF_RST 1)

/-- MSIX_UNMASK: the mask bit of a function's MSI-X vector written 0 (R404). -/
def execMsixUnmask (m : Fn) (vec : Fin 64) (s : State) : Host.Outcome State Fault Refusal :=
  s.dev! (Dev.busWrite m (0x1FF0000 + 16 * vec + 12) 0)

end Sys2Proof.Machine
end

