-- ==== Sys2Proof/Machine/Dispatch.lean ====
section
/-!
DEFINITION. Which meaning each command has: one arm per constructor of `Instr`.
-/
namespace Sys2Proof.Machine

/-- The effect of a command on everything but the queue of waiting commands. -/
def exec (i : Instr) (s : State) : Host.Outcome State Fault Refusal :=
  match i with
  | .registerWrite m off size data => Sys2Proof.Machine.execRegisterWrite m off size data s
  | .aliasWrite m off data => Sys2Proof.Machine.execAliasWrite m off data s
  | .pageKey m page key => Sys2Proof.Machine.execPageKey m page key s
  | .pageStageHold m page hold => Sys2Proof.Machine.execPageStageHold m page hold s
  | .stagedApplyIdle page => Sys2Proof.Machine.execStagedApplyIdle page s
  | .snapReq m page group => Sys2Proof.Machine.execSnapReq m page group s
  | .blockReset m page => Sys2Proof.Machine.execBlockReset m page s
  | .sceneBegin q => Sys2Proof.Machine.execSceneBegin q s
  | .windowSet q => Sys2Proof.Machine.execWindowSet q s
  | .windowClear q => Sys2Proof.Machine.execWindowClear q s
  | .surfaceSet q => Sys2Proof.Machine.execSurfaceSet q s
  | .canvasSet q => Sys2Proof.Machine.execCanvasSet q s
  | .commit q => Sys2Proof.Machine.execCommit q s
  | .note q => Sys2Proof.Machine.execNote q s
  | .nop q => Sys2Proof.Machine.execNop q s
  | .reservedOpcode q => Sys2Proof.Machine.execReservedOpcode q s
  | .dmaKick q => Sys2Proof.Machine.execDmaKick q s
  | .crcScan q => Sys2Proof.Machine.execCrcScan q s
  | .waitEvent q => Sys2Proof.Machine.execWaitEvent q s
  | .waitTimeout q => Sys2Proof.Machine.execWaitTimeout q s
  | .doorbell m q => Sys2Proof.Machine.execDoorbell m q s
  | .ringFetchComplete q slots r => Sys2Proof.Machine.execRingFetchComplete q slots r s
  | .ringReadTimeout q => Sys2Proof.Machine.execRingReadTimeout q s
  | .arbitrationRound => Sys2Proof.Machine.execArbitrationRound s
  | .queueEnable m q => Sys2Proof.Machine.execQueueEnable m q s
  | .queueDisable m q => Sys2Proof.Machine.execQueueDisable m q s
  | .queueDrainComplete q => Sys2Proof.Machine.execQueueDrainComplete q s
  | .noticeRingEnable m f => Sys2Proof.Machine.execNoticeRingEnable m f s
  | .cqeNhead m f head => Sys2Proof.Machine.execCqeNhead m f head s
  | .interruptModerationEnd f => Sys2Proof.Machine.execInterruptModerationEnd f s
  | .commitPoint => Sys2Proof.Machine.execCommitPoint s
  | .reevaluation => Sys2Proof.Machine.execReevaluation s
  | .ldgReeval m => Sys2Proof.Machine.execLdgReeval m s
  | .ldgDerateWrite m frCyc => Sys2Proof.Machine.execLdgDerateWrite m frCyc s
  | .frameStart c => Sys2Proof.Machine.execFrameStart c s
  | .bandRelease c => Sys2Proof.Machine.execBandRelease c s
  | .gatherEscalation p => Sys2Proof.Machine.execGatherEscalation p s
  | .bandFetchStart p => Sys2Proof.Machine.execBandFetchStart p s
  | .bandDeal p => Sys2Proof.Machine.execBandDeal p s
  | .lineWrite p err => Sys2Proof.Machine.execLineWrite p err s
  | .bandComplete p => Sys2Proof.Machine.execBandComplete p s
  | .understudyBandCompare u err => Sys2Proof.Machine.execUnderstudyBandCompare u err s
  | .rerunComplete p err => Sys2Proof.Machine.execRerunComplete p err s
  | .rotationStep => Sys2Proof.Machine.execRotationStep s
  | .pipeWatchdog p => Sys2Proof.Machine.execPipeWatchdog p s
  | .takeoverRestart p => Sys2Proof.Machine.execTakeoverRestart p s
  | .cmpRoleRequest m p req => Sys2Proof.Machine.execCmpRoleRequest m p req s
  | .parisonFrameComplete c => Sys2Proof.Machine.execParisonFrameComplete c s
  | .lineDue c => Sys2Proof.Machine.execLineDue c s
  | .activeVideoEnd c => Sys2Proof.Machine.execActiveVideoEnd c s
  | .canvasEnable m c => Sys2Proof.Machine.execCanvasEnable m c s
  | .canvasDisable m c => Sys2Proof.Machine.execCanvasDisable m c s
  | .canvasDrainComplete c => Sys2Proof.Machine.execCanvasDrainComplete c s
  | .relinkSettled c => Sys2Proof.Machine.execRelinkSettled c s
  | .generatorStart c => Sys2Proof.Machine.execGeneratorStart c s
  | .genlockEdge rising => Sys2Proof.Machine.execGenlockEdge rising s
  | .fsyncInEdge rising => Sys2Proof.Machine.execFsyncInEdge rising s
  | .lockReferenceMissing c => Sys2Proof.Machine.execLockReferenceMissing c s
  | .fsyncOutEnd => Sys2Proof.Machine.execFsyncOutEnd s
  | .portEnable m n => Sys2Proof.Machine.execPortEnable m n s
  | .portDisable m n => Sys2Proof.Machine.execPortDisable m n s
  | .portDrainComplete n => Sys2Proof.Machine.execPortDrainComplete n s
  | .retrain m n => Sys2Proof.Machine.execRetrain m n s
  | .portFrel m n => Sys2Proof.Machine.execPortFrel m n s
  | .swap m n => Sys2Proof.Machine.execSwap m n s
  | .hpdRise n => Sys2Proof.Machine.execHpdRise n s
  | .hpdFall n => Sys2Proof.Machine.execHpdFall n s
  | .hpdLoss n => Sys2Proof.Machine.execHpdLoss n s
  | .hpdDebounced n => Sys2Proof.Machine.execHpdDebounced n s
  | .linkStatusRead n loss => Sys2Proof.Machine.execLinkStatusRead n loss s
  | .standbyStatusPoll n => Sys2Proof.Machine.execStandbyStatusPoll n s
  | .trainingCandidateDone n ok => Sys2Proof.Machine.execTrainingCandidateDone n ok s
  | .trainingRetry n => Sys2Proof.Machine.execTrainingRetry n s
  | .portQuadFault n k => Sys2Proof.Machine.execPortQuadFault n k s
  | .dptAuxGo m n cmd => Sys2Proof.Machine.execDptAuxGo m n cmd s
  | .auxReply n a => Sys2Proof.Machine.execAuxReply n a s
  | .auxTimeout n => Sys2Proof.Machine.execAuxTimeout n s
  | .gthClutDataWrite m data => Sys2Proof.Machine.execGthClutDataWrite m data s
  | .gthCoefDataWrite m data => Sys2Proof.Machine.execGthCoefDataWrite m data s
  | .cspIcsDataWrite m data => Sys2Proof.Machine.execCspIcsDataWrite m data s
  | .cspLutDataWrite m c data => Sys2Proof.Machine.execCspLutDataWrite m c data s
  | .cspLutDataRead m c byte size => Sys2Proof.Machine.execCspLutDataRead m c byte size s
  | .gatherResponse g piece lost => Sys2Proof.Machine.execGatherResponse g piece lost s
  | .channelEnable m ch => Sys2Proof.Machine.execChannelEnable m ch s
  | .channelDisable m ch => Sys2Proof.Machine.execChannelDisable m ch s
  | .dmaDrainComplete ch => Sys2Proof.Machine.execDmaDrainComplete ch s
  | .kick m ch => Sys2Proof.Machine.execKick m ch s
  | .dmaFrel m ch => Sys2Proof.Machine.execDmaFrel m ch s
  | .descriptorFetch ch r => Sys2Proof.Machine.execDescriptorFetch ch r s
  | .encoderAcquire ch => Sys2Proof.Machine.execEncoderAcquire ch s
  | .dmaResponse ch r => Sys2Proof.Machine.execDmaResponse ch r s
  | .dmaTimeout ch write => Sys2Proof.Machine.execDmaTimeout ch write s
  | .descriptorComplete ch => Sys2Proof.Machine.execDescriptorComplete ch s
  | .jobEnd ch => Sys2Proof.Machine.execJobEnd ch s
  | .dmaFlip ch => Sys2Proof.Machine.execDmaFlip ch s
  | .timerTick t => Sys2Proof.Machine.execTimerTick t s
  | .timerEnable m t ctl => Sys2Proof.Machine.execTimerEnable m t ctl s
  | .timerPeriodWrite m t ns => Sys2Proof.Machine.execTimerPeriodWrite m t ns s
  | .mrvStart m => Sys2Proof.Machine.execMrvStart m s
  | .mrvAbort m => Sys2Proof.Machine.execMrvAbort m s
  | .mrvRowComplete => Sys2Proof.Machine.execMrvRowComplete s
  | .gateRelease => Sys2Proof.Machine.execGateRelease s
  | .mrvStarved => Sys2Proof.Machine.execMrvStarved s
  | .mrvResponse r => Sys2Proof.Machine.execMrvResponse r s
  | .mrvTimeout => Sys2Proof.Machine.execMrvTimeout s
  | .cvuEnable m e => Sys2Proof.Machine.execCvuEnable m e s
  | .cvuDisable m e => Sys2Proof.Machine.execCvuDisable m e s
  | .cvuDrainComplete e => Sys2Proof.Machine.execCvuDrainComplete e s
  | .cvuStart m e => Sys2Proof.Machine.execCvuStart m e s
  | .cvuStop m e => Sys2Proof.Machine.execCvuStop m e s
  | .cvuFrel m e => Sys2Proof.Machine.execCvuFrel m e s
  | .scanResponse e r => Sys2Proof.Machine.execScanResponse e r s
  | .scanTimeout e => Sys2Proof.Machine.execScanTimeout e s
  | .scanEnd e => Sys2Proof.Machine.execScanEnd e s
  | .cvuEngineParity e => Sys2Proof.Machine.execCvuEngineParity e s
  | .witnessWrite m r word data => Sys2Proof.Machine.execWitnessWrite m r word data s
  | .memoryRequest req => Sys2Proof.Machine.execMemoryRequest req s
  | .atomReadReturn g burst => Sys2Proof.Machine.execAtomReadReturn g burst s
  | .refreshSlot g => Sys2Proof.Machine.execRefreshSlot g s
  | .extraRefresh g b => Sys2Proof.Machine.execExtraRefresh g b s
  | .writeProbe g probe => Sys2Proof.Machine.execWriteProbe g probe s
  | .readWindowEnd l right => Sys2Proof.Machine.execReadWindowEnd l right s
  | .mctSiteFence m site => Sys2Proof.Machine.execMctSiteFence m site s
  | .rebuildStart => Sys2Proof.Machine.execRebuildStart s
  | .rebuildCopy burst => Sys2Proof.Machine.execRebuildCopy burst s
  | .laneRetrain m l => Sys2Proof.Machine.execLaneRetrain m l s
  | .retrainReadDone l => Sys2Proof.Machine.execRetrainReadDone l s
  | .retrainWriteDone l => Sys2Proof.Machine.execRetrainWriteDone l s
  | .crucibleRead g f who => Sys2Proof.Machine.execCrucibleRead g f who s
  | .scrubRead f => Sys2Proof.Machine.execScrubRead f s
  | .rowSpare mac row => Sys2Proof.Machine.execRowSpare mac row s
  | .accSelWrite m data => Sys2Proof.Machine.execAccSelWrite m data s
  | .accData3Commit m data => Sys2Proof.Machine.execAccData3Commit m data s
  | .lock m => Sys2Proof.Machine.execLock m s
  | .faultArrival => Sys2Proof.Machine.execFaultArrival s
  | .logEntryWrite => Sys2Proof.Machine.execLogEntryWrite s
  | .coalWindowEnd => Sys2Proof.Machine.execCoalWindowEnd s
  | .stickyClear m word bits => Sys2Proof.Machine.execStickyClear m word bits s
  | .logRdSeq m seq => Sys2Proof.Machine.execLogRdSeq m seq s
  | .faruoTick input => Sys2Proof.Machine.execFaruoTick input s
  | .serviceWatchdog => Sys2Proof.Machine.execServiceWatchdog s
  | .activationWatchdog => Sys2Proof.Machine.execActivationWatchdog s
  | .getVersion flashError => Sys2Proof.Machine.execGetVersion flashError s
  | .getSensor => Sys2Proof.Machine.execGetSensor s
  | .setThresh => Sys2Proof.Machine.execSetThresh s
  | .fwStage image flashError => Sys2Proof.Machine.execFwStage image flashError s
  | .fwActivate flashError => Sys2Proof.Machine.execFwActivate flashError s
  | .logExport => Sys2Proof.Machine.execLogExport s
  | .getStatus => Sys2Proof.Machine.execGetStatus s
  | .cclkChange m mhz => Sys2Proof.Machine.execCclkChange m mhz s
  | .cclkStep => Sys2Proof.Machine.execCclkStep s
  | .pllLocked k => Sys2Proof.Machine.execPllLocked k s
  | .ppsEdge rising => Sys2Proof.Machine.execPpsEdge rising s
  | .ppsLost => Sys2Proof.Machine.execPpsLost s
  | .tmbLoad m => Sys2Proof.Machine.execTmbLoad m s
  | .coldReset => Sys2Proof.Machine.execColdReset s
  | .resetNRise clocksStable straps => Sys2Proof.Machine.execResetNRise clocksStable straps s
  | .bootAuthentication slot0 slot1 => Sys2Proof.Machine.execBootAuthentication slot0 slot1 s
  | .bistComplete failing => Sys2Proof.Machine.execBistComplete failing s
  | .memoryTrainingComplete lanes timing => Sys2Proof.Machine.execMemoryTrainingComplete lanes timing s
  | .deviceReady => Sys2Proof.Machine.execDeviceReady s
  | .hotReset => Sys2Proof.Machine.execHotReset s
  | .warm m => Sys2Proof.Machine.execWarm m s
  | .pfFunctionLevelReset => Sys2Proof.Machine.execPfFunctionLevelReset s
  | .warmResetComplete => Sys2Proof.Machine.execWarmResetComplete s
  | .functionLevelReset v => Sys2Proof.Machine.execFunctionLevelReset v s
  | .flrWindowClear v => Sys2Proof.Machine.execFlrWindowClear v s
  | .msixUnmask m vec => Sys2Proof.Machine.execMsixUnmask m vec s
  | .smbusReadByte code => Sys2Proof.Machine.execSmbusReadByte code s
  | .smbusWrite code data => Sys2Proof.Machine.execSmbusWrite code data s
  | .tapReset => Sys2Proof.Machine.execTapReset s
  | .bypass => Sys2Proof.Machine.execBypass s
  | .idcode => Sys2Proof.Machine.execIdcode s
  | .samplePreload preload => Sys2Proof.Machine.execSamplePreload preload s
  | .extest => Sys2Proof.Machine.execExtest s
  | .extestPulse => Sys2Proof.Machine.execExtestPulse s
  | .extestTrain => Sys2Proof.Machine.execExtestTrain s
  | .clamp => Sys2Proof.Machine.execClamp s
  | .highz => Sys2Proof.Machine.execHighz s
  | .waitTimebaseReached q => Sys2Proof.Machine.execWaitTimebaseReached q s
  | .commandSlot g => Sys2Proof.Machine.execCommandSlot g s
  | .pllUnlock k => Sys2Proof.Machine.execPllUnlock k s
  | .hostLinkChange gen width => Sys2Proof.Machine.execHostLinkChange gen width s
  | .configurationRequest f reg => Sys2Proof.Machine.execConfigurationRequest f reg s
  | .sinkCapabilitiesRead n caps => Sys2Proof.Machine.execSinkCapabilitiesRead n caps s

end Sys2Proof.Machine
end

