-- ==== Sys2Proof/Machine/Step.lean ====
section
/-!
DEFINITION. The step: the waiting command at the front of the queue is executed.
-/
namespace Sys2Proof.Machine

/-- Take the command at the front of the queue and execute it on the machine with the queue's rest. With no command
waiting the block idles: one cycle of TBCLK passes (DESIGN CHOICE, notes/assumptions/1.md). -/
def step (s : State) : Host.Outcome State Fault Refusal :=
  match s.pending with
  | [] => .next (idle s)
  | c :: rest => exec c { s with pending := rest }

/-- `s` with the command that a table word spells put at the front of its queue; `s` itself where the word spells none. -/
def State.withFetchWord (s : State) (nbits w : Nat) : State :=
  match decodeTableWord nbits w with
  | some c => { s with pending := c :: s.pending }
  | none => s

end Sys2Proof.Machine
end

