-- ==== Sys2Proof/Safety.lean ====
section
/-!
DEFINITION. What the claims call safe: the canonical form of memory, the access rights that a register write needs, the parts of
the device that each command may change, and the words that the statements use.
-/
namespace Sys2Proof.Machine

/-- Memory is in canonical form: addresses strictly rise and no listed byte is what an unlisted address reads as. -/
def Memory.wf (m : FMap Byte) : Bool := FMap.wf memDefault m

/-- A write of BAR0 offset `off` by function `m` reaches its register: the device responds, and the right is RW (R311, R312,
R378). -/
def Dev.mayWrite (d : Dev) (m off : Nat) : Prop := d.responds (off / 0x4000) = true ∧ d.offRight m off = 2

/-- A write of a register of a page reaches it. -/
def Dev.mayWriteReg (d : Dev) (m : Nat) (t : PType) (i off : Nat) : Prop := d.mayWrite m (regAt t i off)

/-- The parts of the device, one for each field of `Dev`. -/
inductive Part where
  | now | regs | luts | mem | scene | ledger | queues | turn | lastTurn | rings | canvases | comp | ports | chans |
  timers | mrv | engines | regions | mct | cru | acc | flt | svc | tb | clk | rst | hif | pins
  deriving DecidableEq, Repr

/-- Two devices agree in a part. -/
def Part.same (a b : Dev) : Part → Prop
  | .now => a.now = b.now
  | .regs => a.regs = b.regs
  | .luts => a.luts = b.luts
  | .mem => a.mem = b.mem
  | .scene => a.scene = b.scene
  | .ledger => a.ledger = b.ledger
  | .queues => a.queues = b.queues
  | .turn => a.turn = b.turn
  | .lastTurn => a.lastTurn = b.lastTurn
  | .rings => a.rings = b.rings
  | .canvases => a.canvases = b.canvases
  | .comp => a.comp = b.comp
  | .ports => a.ports = b.ports
  | .chans => a.chans = b.chans
  | .timers => a.timers = b.timers
  | .mrv => a.mrv = b.mrv
  | .engines => a.engines = b.engines
  | .regions => a.regions = b.regions
  | .mct => a.mct = b.mct
  | .cru => a.cru = b.cru
  | .acc => a.acc = b.acc
  | .flt => a.flt = b.flt
  | .svc => a.svc = b.svc
  | .tb => a.tb = b.tb
  | .clk => a.clk = b.clk
  | .rst => a.rst = b.rst
  | .hif => a.hif = b.hif
  | .pins => a.pins = b.pins

/-- The parts that a command may change; it leaves every other part as it was. -/
def touches : Instr → List Part
  | .registerWrite _ _ _ _ | .aliasWrite _ _ _ | .coldReset =>
    [.regs, .luts, .mem, .scene, .ledger, .queues, .turn, .lastTurn, .rings, .canvases, .comp, .ports, .chans,
    .timers, .mrv, .engines, .regions, .mct, .cru, .acc, .flt, .svc, .tb, .clk, .rst, .hif, .pins]
  | .pageKey _ _ _ | .snapReq _ _ _ | .accSelWrite _ _ | .accData3Commit _ _ | .lock _ | .stickyClear _ _ _ |
  .logRdSeq _ _ =>
    [.regs, .acc, .flt]
  | .pageStageHold _ _ _ | .ldgReeval _ | .ldgDerateWrite _ _ =>
    [.regs, .scene, .acc, .flt]
  | .stagedApplyIdle _ =>
    [.regs, .canvases, .ports, .mct, .flt]
  | .blockReset _ _ =>
    [.regs, .scene, .queues, .canvases, .comp, .ports, .chans, .mrv, .engines, .acc, .flt, .tb, .pins]
  | .sceneBegin _ | .windowSet _ | .windowClear _ | .surfaceSet _ | .canvasSet _ | .commit _ |
  .reservedOpcode _ | .waitEvent _ =>
    [.mem, .scene, .queues, .turn, .lastTurn, .rings, .mct, .cru, .acc, .flt, .hif]
  | .note _ | .nop _ =>
    [.mem, .scene, .queues, .turn, .lastTurn, .mct, .cru, .acc, .flt, .hif]
  | .dmaKick _ =>
    [.regs, .mem, .scene, .queues, .turn, .lastTurn, .rings, .chans, .mct, .cru, .acc, .flt, .hif]
  | .crcScan _ =>
    [.mem, .scene, .queues, .turn, .lastTurn, .rings, .engines, .mct, .cru, .acc, .flt, .hif]
  | .waitTimeout _ =>
    [.mem, .queues, .rings, .mct, .cru, .acc, .flt, .hif]
  | .doorbell _ _ =>
    [.regs, .queues, .acc, .flt]
  | .ringFetchComplete _ _ _ =>
    [.queues, .mct, .cru, .acc, .flt]
  | .ringReadTimeout _ =>
    [.queues, .mct, .flt]
  | .arbitrationRound =>
    [.regs, .queues, .turn]
  | .queueEnable _ _ | .queueDisable _ _ =>
    [.regs, .mem, .queues, .turn, .rings, .mct, .cru, .acc, .flt, .hif]
  | .queueDrainComplete _ =>
    [.regs, .queues, .rings]
  | .noticeRingEnable _ _ | .cqeNhead _ _ _ =>
    [.regs, .rings, .acc, .flt]
  | .interruptModerationEnd _ =>
    [.rings, .hif]
  | .commitPoint =>
    [.regs, .mem, .scene, .ledger, .queues, .rings, .canvases, .mct, .cru, .acc, .flt, .hif]
  | .reevaluation =>
    [.scene, .ledger, .canvases, .flt, .clk]
  | .frameStart _ =>
    [.regs, .mem, .queues, .rings, .canvases, .comp, .ports, .timers, .mrv, .regions, .mct, .cru, .acc, .flt,
    .hif, .pins]
  | .bandRelease _ | .bandDeal _ =>
    [.regs, .mem, .scene, .ledger, .queues, .rings, .canvases, .comp, .ports, .mct, .cru, .acc, .flt, .hif]
  | .gatherEscalation _ =>
    [.comp, .mct]
  | .bandFetchStart _ =>
    [.regs, .mem, .scene, .ledger, .queues, .rings, .canvases, .comp, .mct, .cru, .acc, .flt, .hif]
  | .lineWrite _ _ =>
    [.mem, .canvases, .comp, .mct, .cru, .flt, .hif]
  | .bandComplete _ | .takeoverRestart _ =>
    [.regs, .scene, .canvases, .comp, .mct, .flt]
  | .understudyBandCompare _ _ =>
    [.comp, .flt]
  | .rerunComplete _ _ =>
    [.regs, .mem, .scene, .canvases, .comp, .mct, .cru, .flt, .hif]
  | .rotationStep =>
    [.comp]
  | .pipeWatchdog _ =>
    [.regs, .scene, .comp, .mct, .flt]
  | .cmpRoleRequest _ _ _ =>
    [.regs, .scene, .comp, .mct, .acc, .flt]
  | .parisonFrameComplete _ | .generatorStart _ | .genlockEdge _ | .fsyncInEdge _ =>
    [.canvases]
  | .lineDue _ | .hpdLoss _ | .portQuadFault _ _ =>
    [.canvases, .ports, .flt]
  | .activeVideoEnd _ =>
    [.regs, .mem, .queues, .rings, .canvases, .comp, .ports, .mrv, .regions, .mct, .cru, .acc, .flt, .hif]
  | .canvasEnable _ _ | .canvasDisable _ _ =>
    [.regs, .mem, .scene, .ledger, .queues, .rings, .canvases, .comp, .ports, .mrv, .regions, .mct, .cru, .acc,
    .flt, .hif]
  | .canvasDrainComplete _ =>
    [.regs, .mem, .scene, .ledger, .queues, .rings, .canvases, .ports, .mct, .cru, .acc, .flt, .hif]
  | .relinkSettled _ =>
    [.regs, .canvases, .ports]
  | .lockReferenceMissing _ =>
    [.canvases, .flt]
  | .fsyncOutEnd | .smbusReadByte _ | .smbusWrite _ _ | .tapReset | .bypass | .idcode | .samplePreload _ |
  .extest | .extestPulse | .extestTrain | .clamp | .highz =>
    [.pins]
  | .portEnable _ _ | .portDisable _ _ | .retrain _ _ | .portFrel _ _ =>
    [.regs, .canvases, .ports, .acc, .flt]
  | .portDrainComplete _ =>
    [.regs, .ports, .flt]
  | .swap _ _ | .dptAuxGo _ _ _ =>
    [.regs, .ports, .acc, .flt]
  | .hpdRise _ | .hpdDebounced _ | .linkStatusRead _ _ | .auxReply _ _ =>
    [.regs, .ports]
  | .hpdFall _ | .standbyStatusPoll _ | .auxTimeout _ =>
    [.ports]
  | .trainingCandidateDone _ _ | .trainingRetry _ | .sinkCapabilitiesRead _ _ =>
    [.regs, .canvases, .ports, .flt]
  | .gthClutDataWrite _ _ | .gthCoefDataWrite _ _ | .cspIcsDataWrite _ _ | .cspLutDataWrite _ _ _ =>
    [.regs, .luts, .cru, .acc, .flt]
  | .cspLutDataRead _ _ _ _ =>
    [.regs, .acc, .flt, .hif]
  | .gatherResponse _ _ _ =>
    [.comp, .mct, .flt]
  | .channelEnable _ _ | .channelDisable _ _ | .kick _ _ | .dmaFrel _ _ | .descriptorFetch _ _ =>
    [.regs, .mem, .queues, .rings, .chans, .mct, .cru, .acc, .flt, .hif]
  | .dmaDrainComplete _ =>
    [.regs, .mem, .queues, .chans, .mct, .cru, .acc, .flt, .hif]
  | .encoderAcquire _ =>
    [.chans]
  | .dmaResponse _ _ | .dmaTimeout _ _ | .descriptorComplete _ =>
    [.mem, .queues, .rings, .chans, .mct, .cru, .acc, .flt, .hif]
  | .jobEnd _ =>
    [.regs, .mem, .queues, .chans, .timers, .engines, .mct, .cru, .acc, .flt, .hif]
  | .dmaFlip _ =>
    [.scene, .chans]
  | .timerTick _ =>
    [.regs, .mem, .queues, .chans, .timers, .mct, .cru, .acc, .flt, .hif]
  | .timerEnable _ _ _ | .timerPeriodWrite _ _ _ =>
    [.regs, .timers, .acc, .flt]
  | .mrvStart _ | .mrvAbort _ =>
    [.regs, .mrv, .acc, .flt, .hif]
  | .mrvRowComplete =>
    [.mrv, .flt, .hif]
  | .gateRelease | .mrvStarved =>
    [.mrv]
  | .mrvResponse _ | .memoryRequest _ =>
    [.mem, .mrv, .mct, .cru, .acc, .flt, .hif]
  | .mrvTimeout =>
    [.mrv, .mct, .flt, .hif]
  | .cvuEnable _ _ | .cvuDisable _ _ | .cvuDrainComplete _ | .cvuStart _ _ | .cvuStop _ _ | .cvuFrel _ _ |
  .scanResponse _ _ | .scanTimeout _ | .scanEnd _ | .cvuEngineParity _ =>
    [.regs, .mem, .queues, .rings, .engines, .mct, .cru, .acc, .flt, .hif]
  | .witnessWrite _ _ _ _ =>
    [.regions, .cru, .acc, .flt]
  | .atomReadReturn _ _ =>
    [.mem, .scene, .mct, .cru, .flt, .hif]
  | .refreshSlot _ =>
    [.regs, .scene, .mct, .flt]
  | .extraRefresh _ _ | .rebuildStart | .retrainReadDone _ | .retrainWriteDone _ =>
    [.mct]
  | .writeProbe _ _ | .rebuildCopy _ =>
    [.scene, .mct, .flt]
  | .readWindowEnd _ _ =>
    [.mct, .flt]
  | .mctSiteFence _ _ =>
    [.regs, .scene, .mct, .acc, .flt]
  | .laneRetrain _ _ =>
    [.regs, .mct, .acc, .flt]
  | .crucibleRead _ _ _ =>
    [.mem, .scene, .queues, .rings, .canvases, .regions, .mct, .cru, .acc, .flt, .hif]
  | .scrubRead _ =>
    [.regions, .cru, .flt]
  | .rowSpare _ _ =>
    [.cru, .flt]
  | .faultArrival | .coalWindowEnd =>
    [.flt]
  | .logEntryWrite =>
    [.mem, .rings, .mct, .cru, .acc, .flt, .hif]
  | .faruoTick _ =>
    [.regs, .mem, .scene, .mct, .cru, .flt, .svc, .hif]
  | .serviceWatchdog | .activationWatchdog =>
    [.cru, .flt, .svc]
  | .getVersion _ | .getSensor | .setThresh | .logExport | .getStatus =>
    [.svc]
  | .fwStage _ _ =>
    [.mct, .cru, .flt, .svc]
  | .fwActivate _ =>
    [.cru, .svc]
  | .cclkChange _ _ =>
    [.regs, .scene, .acc, .flt, .clk]
  | .cclkStep =>
    [.scene, .clk]
  | .pllLocked _ =>
    [.clk]
  | .ppsEdge _ =>
    [.tb]
  | .ppsLost =>
    [.flt, .tb]
  | .tmbLoad _ =>
    [.regs, .acc, .flt, .tb]
  | .resetNRise _ _ =>
    [.tb, .rst, .pins]
  | .bootAuthentication _ _ =>
    [.regs, .ledger, .comp, .flt, .svc, .clk, .rst]
  | .bistComplete _ =>
    [.regs, .scene, .comp, .mct, .cru, .flt, .rst]
  | .memoryTrainingComplete _ _ =>
    [.regs, .scene, .ledger, .ports, .mct, .flt, .svc, .clk, .rst]
  | .deviceReady =>
    [.ports, .rst]
  | .hotReset | .pfFunctionLevelReset =>
    [.scene, .queues, .turn, .lastTurn, .rings, .canvases, .comp, .ports, .chans, .timers, .mrv, .engines, .clk,
    .rst, .pins]
  | .warm _ =>
    [.regs, .scene, .queues, .turn, .lastTurn, .rings, .canvases, .comp, .ports, .chans, .timers, .mrv, .engines,
    .acc, .flt, .clk, .rst, .pins]
  | .warmResetComplete =>
    [.regs, .scene, .ledger, .comp, .ports, .regions, .mct, .cru, .acc, .flt, .svc, .clk, .rst, .hif]
  | .functionLevelReset _ =>
    [.regs, .mem, .queues, .turn, .rings, .chans, .mrv, .engines, .mct, .cru, .acc, .flt, .rst, .hif]
  | .flrWindowClear _ =>
    [.scene, .rst]
  | .msixUnmask _ _ =>
    [.acc, .flt, .hif]
  | .waitTimebaseReached _ =>
    [.mem, .queues, .mct, .cru, .acc, .flt, .hif]
  | .commandSlot _ =>
    [.mem, .mrv, .mct, .cru, .flt, .hif]
  | .pllUnlock _ =>
    [.flt, .clk]
  | .hostLinkChange _ _ =>
    [.flt, .hif]
  | .configurationRequest _ _ =>
    [.hif]

/-- `b` agrees with `a` in every part but those listed. -/
def Dev.onlyChanges (a b : Dev) (l : List Part) : Prop := ∀ p : Part, p ∉ l → p.same a b

/-- A byte of memory; one that nothing has written reads 0 (notes/assumptions/2.md). -/
def Dev.memByte (d : Dev) (a : Nat) : Byte := FMap.get memDefault d.mem a

/-- Memory is the same in both devices but for `n` bytes from address `a` on. -/
def Dev.memSameBut (x y : Dev) (a n : Nat) : Prop := ∀ k, (k < a ∨ a + n ≤ k) → y.memByte k = x.memByte k

/-- Registers whose every field is RW and takes any value, and whose write stores them and does no more: `TMB_SET_LO` and
`TMB_SET_HI`, the mailbox arguments, the fault masks of the words that have sources, Marver's operands, the scan engines' parameters and the AUX data. -/
def plainReg (t : PType) (off : Nat) : Bool :=
  off % 4 = 0 &&
  match t with
  | .tmb => off = TMB_SET_LO || off = TMB_SET_HI
  | .svc => decide (SVC_MB_ARG ≤ off) && decide (off ≤ SVC_MB_ARG + 12)
  | .flt => decide (FLT_MASK ≤ off) && decide (off < FLT_MASK + 4 * 18)
  | .mrv => decide (0x048 ≤ off) && decide (off ≤ 0x07C)
  | .cvu => decide (CVU_POLY_LO ≤ off) && decide (off ≤ CVU_SEQ)
  | .dpt => decide (DPT_AUX_DATA ≤ off) && decide (off ≤ DPT_AUX_DATA + 12)
  | _ => false

/-! ## Words that the statements use -/

/-- The entry at the front of queue `q` has been consumed as part of the entries' group `g`: the consumer index passes it, and it
awaits completion. Every other queue is as it was. -/
def Dev.consumedFront (x y : Dev) (q g : Nat) (started : Bool) : Prop :=
  (y.queue q).cidx = ((x.queue q).cidx + (x.queue q).frontLen) % x.qmod q ∧
  (y.queue q).entries = (x.queue q).entries ++ [{ grp := g, slots := (x.queue q).frontLen, started := started }] ∧
  (y.queue q).head = (x.queue q).head ∧ ∀ p, p ≠ q → y.queue p = x.queue p

/-- The entry at the front of queue `q` joins the open transaction `t` and stages `op`. -/
def Dev.joins (x y : Dev) (q : Nat) (t : Txn) (op : TxnOp) : Prop :=
  (y.queue q).txn = some { t with slots := t.slots + (x.queue q).frontLen, entries := t.entries ++ [⟨t.slots, op⟩] } ∧
  (y.queue q).outst = (x.queue q).outst ∧ x.consumedFront y q t.grp false ∧ y.mem = x.mem ∧ y.scene = x.scene ∧
  y.rings = x.rings

/-- Where the head write-back of queue `q` goes (R202). -/
def Dev.hwbAddr (d : Dev) (q : Nat) : Nat :=
  (quad (d.reg .queue q CQE_HWB_LO &&& 0xFFFFFFFC) (d.reg .queue q CQE_HWB_HI)).toNat

/-- Where the next notice of function `f` goes (R206). -/
def Dev.noticeAddr (d : Dev) (f : Nat) : Nat :=
  (quad (d.effAt (noticeAt f 0x08)) (d.effAt (noticeAt f 0x0C)) +
    BitVec.ofNat 64 (32 * ((d.ring f).tail % 2 ^ d.nlog f))).toNat

/-- A byte outside the `n` bytes from `a` on. -/
def outside (k a n : Nat) : Prop := k < a ∨ a + n ≤ k

/-- The wait that the `WAIT_EVENT` at the front of queue `q` asks for (R191, R200). -/
def Dev.waitAsked (d : Dev) (q : Nat) : Wait :=
  let w := wordAt (d.queue q).buf
  { event := bits (w 0) 18 16, index := bits (w 1) 7 0, count := max 1 (bits (w 1) 15 8), time := quad (w 2) (w 3),
    timeoutUs := (w 4).toNat, since := d.now, grp := d.scene.nextGrp }

/-- A notice of function `f` is posted: it takes the next slot where the ring has room, else it counts as lost. No other
ring changes. -/
def Dev.posted (x y : Dev) (f : Nat) : Prop :=
  (y.ring f).nseq = (x.ring f).nseq + 1 ∧
  (if x.canPost f then (y.ring f).tail = ((x.ring f).tail + 1) % 2 ^ (x.nlog f + 1)
   else (y.ring f).lost = (x.ring f).lost + 1 ∧ (y.ring f).tail = (x.ring f).tail) ∧
  ∀ g, g ≠ f → y.ring g = x.ring g

/-- The words of `n` ring slots of queue `q` from slot `i` on, as memory holds them. -/
def Dev.ringWords (d : Dev) (q i n : Nat) : List Word :=
  (List.range n).flatMap fun k => bytesWords 4 (d.bytes (d.slotAddr q (i + k)).toNat 16)

end Sys2Proof.Machine
end

