-- ==== Sys2Proof/Certificates/Slice0/Obligations.lean ====
section
/-!
DEFINITION. The statements for the provers: one `def Obligations.<Name> : Prop` for each.

Every statement holds for every function, unit and value that its hypotheses allow. A statement about a command says in its
conclusion that `exec` answers a next state, and what that state holds; what else the command leaves alone is
`Obligations.CommandChangesOnlyItsParts`, and within a part the statement itself.
-/
open Sys2Proof Sys2Proof.Machine

/-- A step takes the waiting command at the front of the queue and executes it on the machine with the queue's rest. -/
def Obligations.StepRunsTheFrontCommand : Prop :=
  ∀ (c : Instr) (d : Dev) (rest : List Instr), step ⟨d, c :: rest⟩ = exec c ⟨d, rest⟩

/-- With no command waiting, a step is one cycle of TBCLK: one nanosecond passes, the timebase counts, and nothing else changes
but the mailboxes in which a snapshot request is under way. That a step on an empty queue is a clock cycle is the model's own
choice (DESIGN CHOICE, notes/assumptions/1.md). -/
def Obligations.IdleStepIsOneClockCycle : Prop :=
  ∀ d : Dev, ∃ u, step ⟨d, []⟩ = .next ⟨u, []⟩ ∧ u.now = d.now + 1 ∧ u.tb = d.tb.cycle ∧
    d.onlyChanges u [.now, .tb, .regs] ∧ { u.regs with snaps := d.regs.snaps } = d.regs ∧
    (∀ n, (d.snapOf n).asked = none → u.snapOf n = d.snapOf n) ∧
    (d.tb.run = true → d.tb.err = 0 → d.tb.rate = 0 → d.tb.cycle.count = d.tb.count + 1 ∧ d.tb.cycle.err = 0) ∧
    (d.tb.run = false → d.tb.cycle = d.tb)

/-- Every command completes in every state, but for one: a rise of `RESET_N` before the reference clocks are stable, for
which R377 defines no start-up. That an event whose condition does not hold leaves the state unchanged is the model's own
reading (notes/assumptions/4.md). -/
def Obligations.EveryCommandCompletesOrStartUpIsUndefined : Prop :=
  ∀ (i : Instr) (s : State), (∃ t, exec i s = .next t) ∨
    (∃ k, i = .resetNRise false k ∧ s.dev.rst.phase = .reset ∧ exec i s = .fault .startUpUndefined)

/-- No command adds to the queue of waiting commands or takes from it: only the step does. -/
def Obligations.CommandsLeaveTheWaitingQueue : Prop :=
  ∀ (i : Instr) (s t : State), exec i s = .next t → t.pending = s.pending

/-- The frame of every command: it leaves alone every part of the device that `touches` does not list for it. -/
def Obligations.CommandChangesOnlyItsParts : Prop :=
  ∀ (i : Instr) (s t : State), exec i s = .next t → s.dev.onlyChanges t.dev (touches i)

/-- Memory is in canonical form after a cold reset. What an unlisted byte reads as is the model's own reading
(notes/assumptions/2.md). -/
def Obligations.MemoryCanonicalAtReset : Prop := Memory.wf State.reset.dev.mem = true

/-- Every step keeps memory in canonical form: addresses strictly rise, and no listed byte is what an unlisted one reads as.
What an unlisted byte reads as is the model's own reading (notes/assumptions/2.md). -/
def Obligations.MemoryStaysCanonical : Prop :=
  ∀ s t : State, Memory.wf s.dev.mem = true → step s = .next t → Memory.wf t.dev.mem = true

/-- R6, R8: an aligned 32-bit write of a register whose fields are all RW and take any value stores the data's bits of those
fields. Nothing else changes. -/
def Obligations.PlainRegisterTakesItsFields : Prop :=
  ∀ (m : Fn) (t : PType) (i off : Nat) (r : RegDesc) (data : Quad) (s : State),
    i < t.count → plainReg t off = true → regDesc t i off = some r → s.dev.mayWriteReg m t i off →
    exec (.registerWrite m (BitVec.ofNat 25 (regAt t i off)) 4 data) s =
      .next { s with dev := s.dev.setReg t i off (lo32 data &&& r.storedMask) }

/-- R9, R328: a write of a matrix register of a canvas waits in the page's staging buffer: a read returns it, the word in
effect stays, and every other word reads and acts as before. -/
def Obligations.StagedWriteWaits : Prop :=
  ∀ (m : Fn) (c : CanvasNo) (k : Fin 6) (data : Quad) (s : State),
    s.dev.mayWriteReg m .csp c (CSP_MAT + 4 * k) →
    ∃ u, exec (.registerWrite m (BitVec.ofNat 25 (regAt .csp c (CSP_MAT + 4 * k))) 4 data) s = .next u ∧
      u.dev.view .csp c (CSP_MAT + 4 * k) = lo32 data ∧
      (∀ a, u.dev.effAt a = s.dev.effAt a) ∧
      (∀ a, a ≠ regAt .csp c (CSP_MAT + 4 * k) → u.dev.viewAt a = s.dev.viewAt a) ∧
      s.dev.onlyChanges u.dev [.regs]

/-- R320: a 64-bit write of a page is two 32-bit writes, the lower offset first; a narrower write than 32 bits, except at
`CQE_DB`, is ignored where the right allows it. That a narrow write is judged by the page right first is the model's own
reading (notes/assumptions/24.md). -/
def Obligations.AccessSizes : Prop :=
  (∀ (m : Fn) (off : Offset) (data : Quad) (s v u : State), off.toNat % 4 = 0 → off.toNat + 4 < 2 ^ 25 →
    areaOf (off.toNat / 0x4000) ≠ .witness →
    exec (.registerWrite m off 4 data) s = .next v → exec (.registerWrite m (off + 4) 4 (data >>> 32)) v = .next u →
    exec (.registerWrite m off 8 data) s = .next u) ∧
  (∀ (m : Fn) (off : Offset) (size : Nat) (data : Quad) (s : State), (size = 1 ∨ size = 2) → isDoorbell off.toNat = false →
    s.dev.mayWrite m off.toNat → exec (.registerWrite m off size data) s = .next s)

/-- R312, R318: a write that the page right does not allow is dropped: the denial is counted and recorded, access-denied sets
out for the collector, and no register changes. -/
def Obligations.WriteWithoutRightIsDenied : Prop :=
  ∀ (m : Fn) (t : PType) (i off : Nat) (data : Quad) (s : State), i < t.count → off < 0x4000 → off % 4 = 0 →
    s.dev.responds (t.page + i) = true → s.dev.offRight m (regAt t i off) ≠ 2 →
    ∃ u, exec (.registerWrite m (BitVec.ofNat 25 (regAt t i off)) 4 data) s = .next u ∧
      u.dev.acc.deny = s.dev.acc.deny + 1 ∧ u.dev.acc.denyAddr = BitVec.ofNat 64 (regAt t i off) ∧
      bits u.dev.acc.denyInfo 6 0 = m.val ∧ bits u.dev.acc.denyInfo 9 8 = 3 ∧ bit u.dev.acc.denyInfo 12 = true ∧
      u.dev.acc.denyTb = s.dev.time ∧
      (∃ f, u.dev.flt.arrivals = s.dev.flt.arrivals ++ [f] ∧ f.src = 160 ∧ f.inst = m.val) ∧
      s.dev.onlyChanges u.dev [.acc, .flt]

/-- R403: the pages named there are reserved; a read of a reserved offset of BAR0 returns 0, and a write to one is ignored;
neither sets a fault source, and no page right applies to it. -/
def Obligations.ReservedOffsets : Prop :=
  (∀ n, n = 11 ∨ (13 ≤ n ∧ n ≤ 15) ∨ n = 35 ∨ (37 ≤ n ∧ n ≤ 39) ∨ (54 ≤ n ∧ n ≤ 63) ∨ (176 ≤ n ∧ n ≤ 191) ∨
    (577 ≤ n ∧ n ≤ 639) ∨ (720 ≤ n ∧ n ≤ 767) ∨ (1360 ≤ n ∧ n ≤ 1407) ∨ (1410 ≤ n ∧ n ≤ 2043) → areaOf n = .reserved) ∧
  ∀ (m : Fn) (off : Offset) (s : State),
    areaOf (off.toNat / 0x4000) = .reserved ∨ (0x1606000 ≤ off.toNat ∧ off.toNat < 0x1608000) ∨
      (areaOf (off.toNat / 0x4000) = .msix ∧ 0x1FF0400 ≤ off.toNat ∧ ¬ (0x1FF0800 ≤ off.toNat ∧ off.toNat < 0x1FF0808)) →
    s.dev.busRead m off.toNat = 0 ∧ s.dev.readSide m off.toNat = s.dev ∧
    ∀ (size : Nat) (data : Quad), size = 1 ∨ size = 2 ∨ size = 4 ∨ size = 8 → off.toNat % size = 0 →
      exec (.registerWrite m off size data) s = .next s

/-- R323: a write of a set, clear or toggle alias of a plain register writes the register's read value or, and-not or
exclusive-or the data. -/
def Obligations.AliasesSetClearAndToggle : Prop :=
  ∀ (m : Fn) (t : PType) (i off : Nat) (k : Fin 3) (r : RegDesc) (data : Word) (s : State),
    i < t.count → plainReg t off = true → regDesc t i off = some r → s.dev.mayWriteReg m t i (off + 0x1000 * (k + 1)) →
    exec (.aliasWrite m (BitVec.ofNat 25 (regAt t i (off + 0x1000 * (k + 1)))) data) s =
      .next ⟨s.dev.setReg t i off
        ((match k with
          | 0 => s.dev.readPage t i off ||| data
          | 1 => s.dev.readPage t i off &&& ~~~data
          | 2 => s.dev.readPage t i off ^^^ data) &&& r.storedMask), s.pending⟩

/-- R325 to R327: the page's own key arms it for the master that wrote it; another key withdraws that master's arm and fires
key-violation. No other arm changes. -/
def Obligations.KeysArmPages : Prop :=
  ∀ (m : Fn) (t : PType) (i : Nat) (p : PageNo) (key : Word) (s : State), i < t.count → p.val = t.page + i →
    s.dev.mayWriteReg m t i 0x00C →
    ∃ u, exec (.pageKey m p key) s = .next u ∧
      u.dev.armed p m = decide (key = BitVec.ofNat 32 (0xCA5F0000 + pageId t i)) ∧
      (∀ n j, j < 64 → (n ≠ p.val ∨ j ≠ m.val) → u.dev.armed n j = s.dev.armed n j) ∧
      (∀ a, u.dev.effAt a = s.dev.effAt a ∧ u.dev.stagedAt a = s.dev.stagedAt a) ∧
      (if key = BitVec.ofNat 32 (0xCA5F0000 + pageId t i) then u.dev.flt = s.dev.flt
       else u.dev.flt.arrivals = s.dev.flt.arrivals ++
         [{ src := 2, inst := pageId t i, detail := dbits 0 m ||| dbits 32 0x00C }]) ∧
      s.dev.onlyChanges u.dev [.regs, .flt]

/-- R326: a write of `LHR_CTL` that changes it takes effect where its master holds an arm and consumes the arm; without an arm
it changes nothing and fires key-violation. -/
def Obligations.KeyedRegisterNeedsAnArm : Prop :=
  ∀ (m : Fn) (data : Quad) (s : State), s.dev.mayWriteReg m .lhr 0 LHR_CTL →
    (s.dev.armed 36 m = true →
      exec (.registerWrite m (BitVec.ofNat 25 (regAt .lhr 0 LHR_CTL)) 4 data) s =
        .next { s with dev := (s.dev.setArm 36 m false).setReg .lhr 0 LHR_CTL (lo32 data &&& 7) }) ∧
    (s.dev.armed 36 m = false → (∃ k : Fin 3, bit (lo32 data) k ≠ bit (s.dev.readPage .lhr 0 LHR_CTL) k) →
      ∃ u, exec (.registerWrite m (BitVec.ofNat 25 (regAt .lhr 0 LHR_CTL)) 4 data) s = .next u ∧
        (∀ a, u.dev.effAt a = s.dev.effAt a ∧ u.dev.stagedAt a = s.dev.stagedAt a) ∧
        (∀ n j, u.dev.armed n j = s.dev.armed n j) ∧
        u.dev.flt.arrivals = s.dev.flt.arrivals ++
          [{ src := 2, inst := pageId .lhr 0, detail := dbits 0 m ||| dbits 32 LHR_CTL }] ∧
        s.dev.onlyChanges u.dev [.regs, .flt])

/-- R7: a write of `LHR_CFG` whose `WIN_LOG2` is a reserved value leaves that field as it was and gives the register's other
fields the values written. -/
def Obligations.ReservedValueKeepsItsField : Prop :=
  ∀ (m : Fn) (data : Quad) (s : State), s.dev.mayWriteReg m .lhr 0 LHR_CFG → s.dev.armed 36 m = true →
    bits (lo32 data) 3 0 < 8 → 1 ≤ bits (lo32 data) 29 24 → 2 ≤ bits (lo32 data) 21 16 → 1 ≤ bits (lo32 data) 15 8 →
    exec (.registerWrite m (BitVec.ofNat 25 (regAt .lhr 0 LHR_CFG)) 4 data) s =
      .next ⟨(s.dev.setArm 36 m false).setReg .lhr 0 LHR_CFG
        ((s.dev.view .lhr 0 LHR_CFG &&& 0xF) ||| (lo32 data &&& 0x3F3FFF00)), s.pending⟩

/-- R328, R329: `HOLD` takes the value written. Where a page's unit is not running, a staged word applies while `HOLD` reads 0
and goes on waiting while it reads 1; no other word in effect changes. -/
def Obligations.StagedWordsApplyUnlessHeld : Prop :=
  (∀ (m : Fn) (p : PageNo) (t : PType) (i : Nat) (b : Bool) (s : State), i < t.count → p.val = t.page + i → t ≠ .cnv →
    s.dev.mayWriteReg m t i 0x014 →
    ∃ u, exec (.pageStageHold m p b) s = .next u ∧ u.dev.held p = b ∧ (∀ n, n ≠ p.val → u.dev.held n = s.dev.held n) ∧
      (∀ a, u.dev.effAt a = s.dev.effAt a ∧ u.dev.stagedAt a = s.dev.stagedAt a) ∧ s.dev.onlyChanges u.dev [.regs]) ∧
  (∀ (p : PageNo) (t : PType) (i off : Nat) (w : Word) (s : State), i < t.count → p.val = t.page + i → off < 0x4000 →
    (t = .csp ∧ (s.dev.canvas i).state = .off ∨ t = .chan ∧ (s.dev.chan i).state = .off) →
    s.dev.stagedOf t i = [(off, w)] →
    if s.dev.held p then exec (.stagedApplyIdle p) s = .next s
    else ∃ u, exec (.stagedApplyIdle p) s = .next u ∧ u.dev.reg t i off = w ∧ u.dev.stagedOf t i = [] ∧
      (∀ a, a ≠ regAt t i off → u.dev.effAt a = s.dev.effAt a) ∧ s.dev.onlyChanges u.dev [.regs])

/-- R333 to R335: a `SNAP_REQ` is under way from its arrival: `VALID` reads 0, and a request that was under way is superseded;
no other page's snapshot changes. A cycle of the clock takes the copy of the group's words, all as they stand in that cycle, no
sooner than 10 ns after the request, and lands a copy that was taken no sooner than 15 ns after it: the page's six snapshot words
hold the group's, those that the group does not define 0, and an undefined group lands as zeros with `GRP_ERR`. That the shortest
times are taken is the model's own reading (notes/assumptions/24.md). -/
def Obligations.SnapshotHoldsItsGroup : Prop :=
  (∀ (m : Fn) (p : PageNo) (t : PType) (i : Nat) (g : BitVec 8) (s : State), i < t.count → p.val = t.page + i →
    s.dev.mayWriteReg m t i 0x020 →
    ∃ u, exec (.snapReq m p g) s = .next u ∧ bit (u.dev.readPage t i 0x024) 31 = false ∧
      (u.dev.snapOf p).asked = some s.dev.now ∧ (u.dev.snapOf p).taken = none ∧ (u.dev.snapOf p).group = g ∧
      (u.dev.snapOf p).mid = m.val ∧ (∀ n, n ≠ p.val → u.dev.snapOf n = s.dev.snapOf n) ∧
      (∀ a, u.dev.effAt a = s.dev.effAt a ∧ u.dev.stagedAt a = s.dev.stagedAt a) ∧ s.dev.onlyChanges u.dev [.regs]) ∧
  ∀ (p : PageNo) (t : PType) (i : Nat) (x : Snap) (t₀ : Nat) (d : Dev), i < t.count → p.val = t.page + i →
    (d.regs.snaps.map (·.1)).Nodup → d.snapOf p = x → x.asked = some t₀ →
    ∃ u, step ⟨d, []⟩ = .next ⟨u, []⟩ ∧
      (x.taken = none → d.now + 1 < t₀ + 10 → u.snapOf p = x) ∧
      (x.taken = none → t₀ + 10 ≤ d.now + 1 →
        u.snapOf p = { x with taken := some (({ d with now := d.now + 1, tb := d.tb.cycle } : Dev).snapWords t i x.group.toNat) }) ∧
      ∀ ws, x.taken = some ws →
        (d.now + 1 < t₀ + 15 → u.snapOf p = x) ∧
        (t₀ + 15 ≤ d.now + 1 → (u.snapOf p).asked = none ∧
          (∀ k : Fin 6, u.readPage t i (0x028 + 4 * k) = match ws with | some l => wordAt l k | none => 0) ∧
          u.readPage t i 0x024 = (flag 31 true ||| flag 30 ws.isNone ||| place 14 8 x.mid ||| place 7 0 x.group.toNat))

/-- R332: a block reset of a page discards its staged values and clears `HOLD`, `PENDING` and `DISCARDED`. -/
def Obligations.BlockResetDiscardsStagedValues : Prop :=
  ∀ (m : Fn) (p : PageNo) (t : PType) (i : Nat) (s : State), i < t.count → p.val = t.page + i →
    s.dev.mayWriteReg m t i 0x010 → s.dev.armed p m = true →
    (match t with
     | .cnv | .csp => (s.dev.canvas i).state = .off
     | .dpt => (s.dev.port i).state = .off
     | .queue => (s.dev.queue i).state = .off
     | .chan => (s.dev.chan i).state = .off
     | .cvu => (s.dev.engine i).state = .off
     | .mrv => s.dev.mrv.state = .idle
     | .gth | .cmp | .flt | .log | .tmb => True
     | _ => False) →
    ∃ u, exec (.blockReset m p) s = .next u ∧ u.dev.readPage t i 0x014 = 0 ∧ u.dev.stagedOf t i = [] ∧
      (t ∉ [PType.gth, .cmp, .flt, .log, .tmb] → ∀ off, off < 0x4000 → u.dev.reg t i off = regReset t i off) ∧
      (∀ a, a / 0x4000 ≠ p.val → u.dev.effAt a = s.dev.effAt a ∧ u.dev.stagedAt a = s.dev.stagedAt a) ∧
      (t = .queue → (u.dev.queue i).epoch = (s.dev.queue i).epoch)

/-- R50, R53, R191: a `SCENE_BEGIN` that arrives with no transaction open, fewer than four outstanding and the reserved staging
free opens a transaction that bears its ID, and ends a discard; with four outstanding it pauses its queue. -/
def Obligations.SceneBeginOpensOrPauses : Prop :=
  ∀ (q : QueueNo) (s : State), s.dev.arrives q 0x01 = true → (s.dev.queue q).txn = none →
    (∃ u, exec (.sceneBegin q) s = .next u ∧ s.dev.consumedFront u.dev q s.dev.scene.nextGrp false ∧
      u.dev.mem = s.dev.mem ∧ u.dev.scene.wins = s.dev.scene.wins ∧ u.dev.scene.surfs = s.dev.scene.surfs ∧
      (u.dev.queue q).outst = (s.dev.queue q).outst ∧ (u.dev.queue q).note = (s.dev.queue q).note ∧
      (4 ≤ (s.dev.queue q).outst → (u.dev.queue q).pause = some .txn ∧ (u.dev.queue q).txn = none) ∧
      ((s.dev.queue q).outst < 4 → s.dev.minInUse q = false → (u.dev.queue q).pause = none ∧
        (u.dev.queue q).discard = false ∧ (u.dev.queue q).txn = some
          { queue := some q.val, grp := s.dev.scene.nextGrp, owner := s.dev.owner q, epoch := (s.dev.queue q).epoch,
            id := (wordAt (s.dev.queue q).buf 0).extractLsb' 16 16, slots := 1 }))

/-- R41, R43, R48, R191: inside an open transaction, a `WINDOW_SET`, `WINDOW_CLEAR`, `SURFACE_SET` or `CANVAS_SET` within R49's
limits stages the image or the values it carries for the index it names. Nothing that the device shows changes. -/
def Obligations.SceneEntriesAreStaged : Prop :=
  ∀ (q : QueueNo) (t : Txn) (b : List Word) (s : State), (s.dev.queue q).buf = b → (s.dev.queue q).txn = some t →
    (s.dev.queue q).discard = false →
    (s.dev.arrives q 0x03 = true →
      t.exceeds (.window (bits (wordAt b 1) 14 0) (WinImg.ofWords (b.drop 4))) = false →
      ∃ u, exec (.windowSet q) s = .next u ∧
        s.dev.joins u.dev q t (.window (bits (wordAt b 1) 14 0) (WinImg.ofWords (b.drop 4)))) ∧
    (s.dev.arrives q 0x04 = true → t.exceeds (.window (bits (wordAt b 1) 14 0) {}) = false →
      ∃ u, exec (.windowClear q) s = .next u ∧ s.dev.joins u.dev q t (.window (bits (wordAt b 1) 14 0) {})) ∧
    (s.dev.arrives q 0x05 = true →
      t.exceeds (.surface (bits (wordAt b 1) 13 0) (SurfImg.ofWords (b.drop 4))) = false →
      ∃ u, exec (.surfaceSet q) s = .next u ∧
        s.dev.joins u.dev q t (.surface (bits (wordAt b 1) 13 0) (SurfImg.ofWords (b.drop 4)))) ∧
    (∀ v : CanvasVals, s.dev.arrives q 0x06 = true → t.exceeds (.canvas (bits (wordAt b 1) 6 0) v) = false →
      v.wall.toNat = bits (wordAt b 2) 2 0 → v.x0 = wordAt b 3 → v.y0 = wordAt b 4 →
      v.bg.toNat = bits (wordAt b 5) 29 0 →
      ∃ u, exec (.canvasSet q) s = .next u ∧ s.dev.joins u.dev q t (.canvas (bits (wordAt b 1) 6 0) v))

/-- R50, R51: a `COMMIT` sends the open transaction to admission as it stands, behind every request that waits there, and
the transaction counts as outstanding; its entries have started. That queued and register-originated requests wait in one
line is the model's own reading (notes/assumptions/25.md). -/
def Obligations.CommitSendsTheTransaction : Prop :=
  ∀ (q : QueueNo) (t : Txn) (s : State), s.dev.arrives q 0x02 = true → (s.dev.queue q).txn = some t →
    (s.dev.queue q).discard = false →
    ∃ u, exec (.commit q) s = .next u ∧ u.dev.scene.admQ = s.dev.scene.admQ ++ [.txn t] ∧
      u.dev.scene.wins = s.dev.scene.wins ∧ u.dev.scene.surfs = s.dev.scene.surfs ∧
      u.dev.scene.flight = s.dev.scene.flight ∧ (u.dev.queue q).txn = none ∧
      (u.dev.queue q).outst = (s.dev.queue q).outst + 1 ∧ (u.dev.queue q).head = (s.dev.queue q).head ∧
      (∀ e ∈ (u.dev.queue q).entries, e.grp = t.grp → e.started = true) ∧ u.dev.mem = s.dev.mem ∧
      u.dev.rings = s.dev.rings ∧ ∀ p, p ≠ q.val → u.dev.queue p = s.dev.queue p

/-- R191, R202: outside a transaction a `NOTE` and a `NOP` complete on arrival, and where no entry before them is incomplete the
head passes them; a `NOTE` copies its `TAG` to `CQE_NOTE`. They store the four bytes of the head write-back and nothing else. -/
def Obligations.NotesAndNopsCompleteOnArrival : Prop :=
  ∀ (q : QueueNo) (s : State), (s.dev.queue q).discard = false → (s.dev.queue q).txn = none →
    (s.dev.queue q).entries = [] → (s.dev.queue q).frontLen ≠ 0 →
    (∀ c v, (c = .note q ∧ s.dev.arrives q 0x1E = true ∧ v = (wordAt (s.dev.queue q).buf 0).extractLsb' 16 16 ∨
        c = .nop q ∧ s.dev.arrives q 0x1F = true ∧ v = (s.dev.queue q).note) →
      ∃ u, exec c s = .next u ∧ (u.dev.queue q).note = v ∧ (u.dev.queue q).entries = [] ∧
        (u.dev.queue q).head = ((s.dev.queue q).head + (s.dev.queue q).frontLen) % s.dev.qmod q ∧
        (u.dev.queue q).cidx = ((s.dev.queue q).cidx + (s.dev.queue q).frontLen) % s.dev.qmod q ∧
        (u.dev.queue q).txn = none ∧ u.dev.scene.admQ = s.dev.scene.admQ ∧ (∀ p, p ≠ q.val → u.dev.queue p = s.dev.queue p) ∧
        (bit (s.dev.reg .queue q CQE_HWB_LO) 0 = false → u.dev.mem = s.dev.mem) ∧
        ∀ k, outside k (s.dev.hwbAddr q) 4 → u.dev.memByte k = s.dev.memByte k)

/-- R191, R199, R208: a reserved opcode outside a transaction is consumed and refused on its own, by a notice to the queue's owner:
one slot of the ring where it has room, one count of lost notices where it has none. -/
def Obligations.ReservedOpcodeIsRefused : Prop :=
  ∀ (q : QueueNo) (s : State), s.dev.arrives q 0 = true → (s.dev.queue q).discard = false → (s.dev.queue q).txn = none →
    ∃ u, exec (.reservedOpcode q) s = .next u ∧
      (u.dev.queue q).cidx = ((s.dev.queue q).cidx + (s.dev.queue q).frontLen) % s.dev.qmod q ∧
      (u.dev.queue q).note = (s.dev.queue q).note ∧ (u.dev.queue q).txn = none ∧
      s.dev.posted u.dev (s.dev.owner q) ∧ (∀ p, p ≠ q.val → u.dev.queue p = s.dev.queue p) ∧
      ∀ k, outside k (s.dev.noticeAddr (s.dev.owner q)) 32 → outside k (s.dev.hwbAddr q) 4 →
        u.dev.memByte k = s.dev.memByte k

/-- R191, R199, R200: outside a transaction a `WAIT_EVENT` with a reserved `EVENT` is refused with a notice; one whose level holds is
consumed and complete on arrival, and the head passes it where no entry before it is incomplete; any other is consumed and pauses
its queue with the wait it asks for. A wait for a timebase value ends, complete, once the timebase has reached it. A wait whose
non-zero timeout has passed ends with a notice, or complete where its level holds by then. Before that neither event changes
anything. -/
def Obligations.WaitsBeginAndEnd : Prop :=
  ∀ (q : QueueNo) (s : State),
    (s.dev.arrives q 0x12 = true → (s.dev.queue q).discard = false → (s.dev.queue q).txn = none →
      ∃ u, exec (.waitEvent q) s = .next u ∧ (∀ p, p ≠ q.val → u.dev.queue p = s.dev.queue p) ∧
        (u.dev.queue q).cidx = ((s.dev.queue q).cidx + (s.dev.queue q).frontLen) % s.dev.qmod q ∧
        (if 5 ≤ (s.dev.waitAsked q).event then
          (u.dev.queue q).pause = (s.dev.queue q).pause ∧ s.dev.posted u.dev (s.dev.owner q)
         else if s.dev.levelMet (s.dev.waitAsked q) then
          (u.dev.queue q).pause = (s.dev.queue q).pause ∧ u.dev.rings = s.dev.rings ∧
          ((s.dev.queue q).entries = [] → (u.dev.queue q).entries = [] ∧
            (u.dev.queue q).head = ((s.dev.queue q).head + (s.dev.queue q).frontLen) % s.dev.qmod q)
         else (u.dev.queue q).pause = some (.wait (s.dev.waitAsked q)) ∧ u.dev.mem = s.dev.mem ∧
           u.dev.rings = s.dev.rings ∧ s.dev.consumedFront u.dev q s.dev.scene.nextGrp false)) ∧
    (∀ w, (s.dev.queue q).pause = some (.wait w) →
      (if w.event = 3 ∧ w.time.toNat ≤ s.dev.time.toNat then
        ∃ u, exec (.waitTimebaseReached q) s = .next u ∧ (u.dev.queue q).pause = none ∧
          (∀ e ∈ (u.dev.queue q).entries, e.grp = w.grp → e.done = true) ∧
          (∀ p, p ≠ q.val → u.dev.queue p = s.dev.queue p) ∧
          ∀ k, outside k (s.dev.hwbAddr q) 4 → u.dev.memByte k = s.dev.memByte k
       else exec (.waitTimebaseReached q) s = .next s) ∧
      (if w.timeoutUs ≠ 0 ∧ w.since + 1000 * w.timeoutUs ≤ s.dev.now then
        ∃ u, exec (.waitTimeout q) s = .next u ∧ (u.dev.queue q).pause = none ∧
          (if s.dev.levelMet w then u.dev.rings = s.dev.rings ∧
            (∀ e ∈ (u.dev.queue q).entries, e.grp = w.grp → e.done = true) ∧
            ∀ k, outside k (s.dev.hwbAddr q) 4 → u.dev.memByte k = s.dev.memByte k
           else s.dev.posted u.dev (s.dev.owner q) ∧
            ∀ k, outside k (s.dev.noticeAddr (s.dev.owner q)) 32 → outside k (s.dev.hwbAddr q) 4 →
              u.dev.memByte k = s.dev.memByte k) ∧
          ∀ p, p ≠ q.val → u.dev.queue p = s.dev.queue p
       else exec (.waitTimeout q) s = .next s))

/-- R198, R199, R220, R245: outside a transaction, a `DMA_KICK` or a `CRC_SCAN` whose queue's owner may write the unit's page starts an
idle unit with the entry's values, or waits, its queue paused, for a running one; a kick of a channel in another state is refused
with a notice. The other units stay. -/
def Obligations.UnitEntriesStartOrWait : Prop :=
  ∀ (q : QueueNo) (b : List Word) (s : State), (s.dev.queue q).buf = b → (s.dev.queue q).discard = false →
    (s.dev.queue q).txn = none →
    (∀ ch : ChanNo, s.dev.arrives q 0x10 = true → bits (wordAt b 0) 21 16 = ch.val →
      s.dev.right (s.dev.owner q) (PType.chan.page + ch) = 2 →
      ∃ u, exec (.dmaKick q) s = .next u ∧ (∀ x, x ≠ ch.val → u.dev.chan x = s.dev.chan x) ∧
        ((s.dev.chan ch).state = .idle → s.dev.consumedFront u.dev q s.dev.scene.nextGrp true ∧
          u.dev.mem = s.dev.mem ∧ u.dev.rings = s.dev.rings ∧
          (u.dev.chan ch).state = .running ∧ (u.dev.chan ch).step = .fetch ∧ (u.dev.chan ch).bytes = 0 ∧
          (u.dev.chan ch).addr = quad (wordAt b 2) (wordAt b 3) &&& 0xFFFFFFFFFFFFFFC0 ∧
          (u.dev.chan ch).job = some { mid := s.dev.owner q, entry := some (q.val, s.dev.scene.nextGrp) }) ∧
        ((s.dev.chan ch).state = .running → s.dev.consumedFront u.dev q s.dev.scene.nextGrp false ∧
          (u.dev.queue q).pause = some .unit ∧ u.dev.chan ch = s.dev.chan ch ∧ u.dev.mem = s.dev.mem) ∧
        ((s.dev.chan ch).state ≠ .idle → (s.dev.chan ch).state ≠ .running → s.dev.posted u.dev (s.dev.owner q) ∧
          u.dev.chan ch = s.dev.chan ch)) ∧
    (∀ e : EngineNo, s.dev.arrives q 0x11 = true → bits (wordAt b 0) 19 16 = e.val →
      s.dev.right (s.dev.owner q) (PType.cvu.page + e) = 2 → (wordAt b 4).toNat + 2 ^ 32 * bits (wordAt b 5) 7 0 ≠ 0 →
      ∃ u, exec (.crcScan q) s = .next u ∧ (∀ x, x ≠ e.val → u.dev.engine x = s.dev.engine x) ∧
        ((s.dev.engine e).state = .idle →
          s.dev.startOk e (quad (wordAt b 2) (wordAt b 3)).toNat ((wordAt b 4).toNat + 2 ^ 32 * bits (wordAt b 5) 7 0) = true →
          s.dev.consumedFront u.dev q s.dev.scene.nextGrp true ∧ u.dev.mem = s.dev.mem ∧ u.dev.rings = s.dev.rings ∧
          (u.dev.engine e).state = .running ∧ (u.dev.engine e).scan.addr = quad (wordAt b 2) (wordAt b 3) ∧
          (u.dev.engine e).scan.left = (wordAt b 4).toNat + 2 ^ 32 * bits (wordAt b 5) 7 0 ∧
          (u.dev.engine e).scan.entry = some (q.val, s.dev.scene.nextGrp)) ∧
        ((s.dev.engine e).state = .running → s.dev.consumedFront u.dev q s.dev.scene.nextGrp false ∧
          (u.dev.queue q).pause = some .unit ∧ u.dev.engine e = s.dev.engine e ∧ u.dev.mem = s.dev.mem))

/-- R192 to R195: a doorbell of a RUNNING queue takes the producer index as the owned limit, where that is valid, or is kept until
the snapshot in use is spent; one of a queue in another state is ignored. Slots that a ring read brings join the fetch buffer as
memory holds them, and an entry at its front that is longer than the ring halts the queue. With nothing fetched before it, a read
that is denied or completes with an error, or that has no answer in 100 µs, halts the queue: queue-fetch fires, the head stays, and
nothing more is consumed. That a read's slots are copied as its answer arrives is the model's own reading
(notes/assumptions/34.md). -/
def Obligations.DoorbellsAndRingReads : Prop :=
  ∀ (q : QueueNo) (s : State),
    (∀ m : Fn, s.dev.mayWriteReg m .queue q CQE_DB →
      ((s.dev.queue q).state ≠ .running → exec (.doorbell m q) s = .next s) ∧
      ((s.dev.queue q).state = .running →
        ∃ u, exec (.doorbell m q) s = .next u ∧ (∀ p, p ≠ q.val → u.dev.queue p = s.dev.queue p) ∧
          (u.dev.queue q).buf = (s.dev.queue q).buf ∧ (u.dev.queue q).head = (s.dev.queue q).head ∧
          (s.dev.scanning q = true → (u.dev.queue q).dbPend = true ∧ (u.dev.queue q).limit = (s.dev.queue q).limit) ∧
          (s.dev.scanning q = false → (u.dev.queue q).dbPend = false ∧
            (if s.dev.pidxBad q then (u.dev.queue q).limit = (s.dev.queue q).limit ∧
              ∃ f, u.dev.flt.arrivals = s.dev.flt.arrivals ++ [f] ∧ f.src = 257 ∧ f.inst = q.val
             else (u.dev.queue q).limit = s.dev.pidx q)))) ∧
    (∀ (slots n : Nat) (t : Nat), (s.dev.queue q).state = .running → (s.dev.queue q).reading = some t →
      n = min slots (s.dev.wants q) → n ≠ 0 → s.dev.ringServed q n = true →
      ((∀ k, k < n → s.dev.readRes (s.dev.owner q) (s.dev.slotAddr q (s.dev.nextSlot q + k)).toNat 16 = .ok) →
        ∃ u, exec (.ringFetchComplete q slots .ok) s = .next u ∧ (u.dev.queue q).cidx = (s.dev.queue q).cidx ∧
          (u.dev.queue q).head = (s.dev.queue q).head ∧ (∀ p, p ≠ q.val → u.dev.queue p = s.dev.queue p) ∧
          if bits (wordAt ((s.dev.queue q).buf ++ s.dev.ringWords q (s.dev.nextSlot q) n) 0) 13 8 + 1 ≤ 2 ^ s.dev.qlog q then
            (u.dev.queue q).state = .running ∧
            (u.dev.queue q).buf = (s.dev.queue q).buf ++ s.dev.ringWords q (s.dev.nextSlot q) n
          else (u.dev.queue q).state = .halted ∧ (u.dev.queue q).buf = [] ∧
            ∃ f ∈ u.dev.flt.arrivals, f.src = 256 ∧ f.inst = q.val) ∧
      (∀ r, (s.dev.queue q).buf = [] →
        (r = .error ∨ s.dev.readRes (s.dev.owner q) (s.dev.slotAddr q (s.dev.nextSlot q)).toNat 16 ≠ .ok) →
        ∃ u, exec (.ringFetchComplete q slots r) s = .next u ∧ (u.dev.queue q).state = .halted ∧
          (u.dev.queue q).buf = [] ∧ (u.dev.queue q).head = (s.dev.queue q).head ∧
          (∀ p, p ≠ q.val → u.dev.queue p = s.dev.queue p) ∧ ∃ f ∈ u.dev.flt.arrivals, f.src = 256 ∧ f.inst = q.val)) ∧
    (∀ t : Nat, (s.dev.queue q).state = .running → (s.dev.queue q).reading = some t → (s.dev.queue q).buf = [] →
      t + 100000 ≤ s.dev.now →
      ∃ u, exec (.ringReadTimeout q) s = .next u ∧ (u.dev.queue q).state = .halted ∧ (u.dev.queue q).buf = [] ∧
        (u.dev.queue q).head = (s.dev.queue q).head ∧ (∀ p, p ≠ q.val → u.dev.queue p = s.dev.queue p) ∧
        ∃ f, u.dev.flt.arrivals = s.dev.flt.arrivals ++ [f] ∧ f.src = 256 ∧ f.inst = q.val)

/-- R197: when no queue has a turn left in a round, a new round begins: the staged weights and bursts of every page that does not
hold them apply, and no queue has spent its credits. -/
def Obligations.ArbitrationRoundsRefill : Prop :=
  ∀ s : State, s.dev.whoseTurn = none →
    ∃ u, exec .arbitrationRound s = .next u ∧ u.dev.turn = none ∧
      ∀ q : QueueNo, u.dev.queue q = { s.dev.queue q with hadTurn := false, credit := 0 } ∧
        (∀ w, s.dev.stagedAt (regAt .queue q CQE_ARB) = some w → s.dev.held (PType.queue.page + q) = false →
          u.dev.reg .queue q CQE_ARB = w ∧ u.dev.stagedAt (regAt .queue q CQE_ARB) = none) ∧
        ((s.dev.stagedAt (regAt .queue q CQE_ARB) = none ∨ s.dev.held (PType.queue.page + q) = true) →
          u.dev.reg .queue q CQE_ARB = s.dev.reg .queue q CQE_ARB ∧
          u.dev.stagedAt (regAt .queue q CQE_ARB) = s.dev.stagedAt (regAt .queue q CQE_ARB))

/-- R203 to R205: an enable of an OFF queue whose registers pass the checks starts it in a new epoch with its fetch and consumer
indices at the head; one that fails leaves it OFF with `CFG_ERR`; an enable of a draining queue waits for the drain's end. A
disable of a RUNNING or HALTED queue drains it: entries that have not started are discarded, and the head stays. A drain whose
started entries are complete ends in OFF, with its indices at 0 where a function-level reset asked for it, or in the enable that
waits, checked as any other. -/
def Obligations.QueuesEnableDrainAndStop : Prop :=
  ∀ (q : QueueNo) (s : State),
    (∀ m : Fn, s.dev.mayWriteReg m .queue q CQE_CTL →
      (∃ u, exec (.queueEnable m q) s = .next u ∧ (∀ p, p ≠ q.val → u.dev.queue p = s.dev.queue p) ∧ u.dev.mem = s.dev.mem ∧
        ((s.dev.queue q).state = .off → s.dev.queueOk q = true → (u.dev.queue q).state = .running ∧
          (u.dev.queue q).en = true ∧ (u.dev.queue q).cfgErr = false ∧
          (u.dev.queue q).epoch = (s.dev.queue q).epoch + 1 ∧ (u.dev.queue q).head = (s.dev.queue q).head ∧
          (u.dev.queue q).cidx = (s.dev.queue q).head ∧ (u.dev.queue q).limit = (s.dev.queue q).head ∧
          (u.dev.queue q).entries = [] ∧ (u.dev.queue q).txn = none ∧ (u.dev.queue q).pause = none) ∧
        ((s.dev.queue q).state = .off → s.dev.queueOk q = false → (u.dev.queue q).state = .off ∧
          (u.dev.queue q).en = false ∧ (u.dev.queue q).cfgErr = true ∧ (u.dev.queue q).epoch = (s.dev.queue q).epoch) ∧
        ((s.dev.queue q).state = .draining → (u.dev.queue q).state = .draining ∧ (u.dev.queue q).enPending = true)) ∧
      ∃ u, exec (.queueDisable m q) s = .next u ∧
        ((s.dev.queue q).state = .running ∨ (s.dev.queue q).state = .halted → (s.dev.queue q).txn = none →
          (u.dev.queue q).state = .draining ∧
          (u.dev.queue q).en = false ∧ (u.dev.queue q).head = (s.dev.queue q).head ∧ (u.dev.queue q).buf = [] ∧
          (u.dev.queue q).pause = none ∧ u.dev.mem = s.dev.mem ∧
          (u.dev.queue q).entries = ((s.dev.queue q).entries.takeWhile fun e => e.started || e.done) ∧
          ∀ p, p ≠ q.val → u.dev.queue p = s.dev.queue p) ∧
        ((s.dev.queue q).state = .draining → u.dev.queue q = { s.dev.queue q with en := false, cfgErr := false, enPending := false })) ∧
    ((s.dev.queue q).state = .draining → (s.dev.queue q).entries = [] →
      ∃ u, exec (.queueDrainComplete q) s = .next u ∧ (∀ p, p ≠ q.val → u.dev.queue p = s.dev.queue p) ∧
        ((s.dev.queue q).enPending = false → (u.dev.queue q).state = .off ∧ (u.dev.queue q).epoch = (s.dev.queue q).epoch ∧
          (u.dev.queue q).outst = 0 ∧
          (u.dev.queue q).head = (if (s.dev.queue q).flr then 0 else (s.dev.queue q).head) ∧
          ((s.dev.queue q).flr = false → u.dev.regs = s.dev.regs) ∧
          ((s.dev.queue q).flr = true → u.dev.reg .queue q CQE_PIDX = 0)) ∧
        ((s.dev.queue q).enPending = true → (s.dev.queue q).flr = false →
          if s.dev.queueOk q then (u.dev.queue q).state = .running ∧ (u.dev.queue q).en = true ∧
            (u.dev.queue q).epoch = (s.dev.queue q).epoch + 1 ∧ (u.dev.queue q).cidx = (s.dev.queue q).head ∧
            (u.dev.queue q).limit = (s.dev.queue q).head
          else (u.dev.queue q).state = .off ∧ (u.dev.queue q).en = false ∧ (u.dev.queue q).cfgErr = true))

/-- R206, R211: an enable of a notice ring checks its base and size, and starts the ring empty; a head write is taken where
it lies between the unread notices' ends, else `NHEAD_ERR` sets; when the moderation interval ends, one message goes out
where notices are unread. Which head values are valid is the model's own reading (notes/assumptions/26.md). -/
def Obligations.NoticeRingsFillAndSignal : Prop :=
  ∀ (f : Fn) (s : State),
    (∀ m : Fn, s.dev.mayWriteReg m .cqe 0 (0x300 + 0x30 * f) → (s.dev.ring f).en = false →
      ∃ u, exec (.noticeRingEnable m f) s = .next u ∧ (∀ g, g ≠ f.val → u.dev.ring g = s.dev.ring g) ∧
        (if 6 ≤ s.dev.nlog f ∧ s.dev.nlog f ≤ 16 ∧
            0x8000000000000000 ≤ (quad (s.dev.effAt (noticeAt f 0x08)) (s.dev.effAt (noticeAt f 0x0C))).toNat then
          (u.dev.ring f).en = true ∧ (u.dev.ring f).tail = 0 ∧ (u.dev.ring f).head = 0 ∧ (u.dev.ring f).nseq = 0 ∧
          (u.dev.ring f).cfgErr = false
         else (u.dev.ring f).en = false ∧ (u.dev.ring f).cfgErr = true ∧ (u.dev.ring f).tail = (s.dev.ring f).tail)) ∧
    (∀ (m : Fn) (w : Word), s.dev.mayWriteReg m .cqe 0 (0x314 + 0x30 * f) →
      ∃ u, exec (.cqeNhead m f w) s = .next u ∧ (∀ g, g ≠ f.val → u.dev.ring g = s.dev.ring g) ∧
        (u.dev.ring f).tail = (s.dev.ring f).tail ∧
        (if ((s.dev.ring f).tail + 2 ^ (s.dev.nlog f + 1) - w.toNat % 2 ^ 17 % 2 ^ (s.dev.nlog f + 1)) %
            2 ^ (s.dev.nlog f + 1) ≤ 2 ^ s.dev.nlog f then
          (u.dev.ring f).head = w.toNat % 2 ^ 17 % 2 ^ (s.dev.nlog f + 1) ∧ (u.dev.ring f).nheadErr = false
         else (u.dev.ring f).head = (s.dev.ring f).head ∧ (u.dev.ring f).nheadErr = true)) ∧
    (∀ t : Nat, (s.dev.ring f).msgDue = true → (s.dev.ring f).lastMsg = some t →
      t + bits (s.dev.effAt (noticeAt f 0)) 31 16 * 1000 ≤ s.dev.now →
      ∃ u, exec (.interruptModerationEnd f) s = .next u ∧ (u.dev.ring f).msgDue = false ∧
        (∀ g, g ≠ f.val → u.dev.ring g = s.dev.ring g) ∧ (u.dev.ring f).tail = (s.dev.ring f).tail ∧
        (if bit (s.dev.effAt (noticeAt f 0)) 1 = true ∧ (s.dev.ring f).tail ≠ (s.dev.ring f).head then
          (u.dev.ring f).lastMsg = some s.dev.now ∧
          (bit (s.dev.msixWord f (bits (s.dev.effAt (noticeAt f 0)) 13 8) 3) 0 = false →
            u.dev.hif.out = s.dev.hif.out ++ [.msix f (bits (s.dev.effAt (noticeAt f 0)) 13 8)])
         else (u.dev.ring f).lastMsg = some t ∧ u.dev.hif = s.dev.hif))

/-- R51, R54 to R56, R72: at its commit point a queued transaction that passes validation and the ledger enters as a change that waits for
each canvas it affects, with exactly the images and values that differ from those admitted before; one that fails changes
nothing in the scene. Either way it leaves the head of admission and the ledger counts a decision. -/
def Obligations.CommitPointAdmitsOrRefuses : Prop :=
  ∀ (t : Txn) (rest : List AdmReq) (new : Tables) (s : State), s.dev.scene.admQ = .txn t :: rest → t.ecc = false →
    new = (s.dev.admTables.putWins t.change.wins).putSurfs t.change.surfs →
    ∃ u, exec .commitPoint s = .next u ∧ u.dev.scene.admQ = rest ∧ u.dev.ledger.seq = s.dev.ledger.seq + 1 ∧
      (lowestRefuse (s.dev.txnFails t s.dev.admTables new) ≠ none →
        u.dev.scene.flight = s.dev.scene.flight ∧ u.dev.scene.wins = s.dev.scene.wins ∧
        u.dev.scene.surfs = s.dev.scene.surfs ∧ u.dev.canvases = s.dev.canvases) ∧
      (∀ (real : Change) (aff : List Nat), real = s.dev.realChange s.dev.admTables t.change →
        aff = s.dev.affected s.dev.admTables new real [] → aff ≠ [] →
        lowestRefuse (s.dev.txnFails t s.dev.admTables new) = none →
        (isFlip s.dev.admTables new real = true ∨ ∃ l, s.dev.decideOver new t.slots (fun _ => false)
          (aff.map fun c => s.dev.cand new (s.dev.regsAfter real [] c) c) = .ok l) →
        u.dev.scene.wins = s.dev.scene.wins ∧ u.dev.scene.surfs = s.dev.scene.surfs ∧ u.dev.mem = s.dev.mem ∧
        u.dev.queues = s.dev.queues ∧
        ∃ a, u.dev.scene.flight = s.dev.scene.flight ++ [a] ∧ a.no = s.dev.scene.nextNo ∧ a.queue = t.queue ∧
          a.owner = t.owner ∧ a.id = t.id ∧ a.wins = real.wins ∧ a.surfs = real.surfs ∧ a.canv = real.canv ∧ a.pend = aff ∧
          a.done = false)

/-- R80 to R82: a write of `LDG_CTL` or, with an arm, of `LDG_DERATE` asks for a re-evaluation behind the requests that
wait; a re-evaluation at the head of admission is decided, leaves the scene as it is, and records nothing for a canvas that
is OFF or draining. That every accepted write of `LDG_DERATE` asks is the model's own reading (notes/assumptions/25.md). -/
def Obligations.ReevaluationsAreAskedAndDecided : Prop :=
  ∀ s : State,
    (∀ m : Fn, s.dev.mayWriteReg m .ldg 0 LDG_CTL →
      ∃ u, exec (.ldgReeval m) s = .next u ∧ u.dev.scene = { s.dev.scene with admQ := s.dev.scene.admQ ++ [.reeval 5] } ∧
        s.dev.onlyChanges u.dev [.scene]) ∧
    (∀ (m : Fn) (w : BitVec 16), s.dev.mayWriteReg m .ldg 0 LDG_DERATE → s.dev.armed PType.ldg.page m = true →
      ∃ u, exec (.ldgDerateWrite m w) s = .next u ∧
        u.dev.scene = { s.dev.scene with admQ := s.dev.scene.admQ ++ [.reeval 4] } ∧
        u.dev.reg .ldg 0 LDG_DERATE = w.setWidth 32 ∧ u.dev.armed PType.ldg.page m = false ∧
        (∀ a, a ≠ regAt .ldg 0 LDG_DERATE → u.dev.effAt a = s.dev.effAt a) ∧ s.dev.onlyChanges u.dev [.regs, .scene]) ∧
    (∀ (cause : Nat) (rest : List AdmReq), s.dev.scene.admQ = .reeval cause :: rest →
      ∃ u, exec .reevaluation s = .next u ∧ u.dev.scene = { s.dev.scene with admQ := rest } ∧
        u.dev.ledger.seq = s.dev.ledger.seq + 1 ∧ (∀ c, c ∉ s.dev.live → u.dev.canvas c = s.dev.canvas c) ∧
        ∀ c, (u.dev.canvas c).state = (s.dev.canvas c).state ∧ (u.dev.canvas c).mode = (s.dev.canvas c).mode ∧
          (u.dev.canvas c).ldg.txn = (s.dev.canvas c).ldg.txn)

/-- R76, R147, R153, R161, R163, R166: the generator of a STARTING canvas without frame lock starts; the read of line *y* takes
the line from the scan buffer, or finds it absent; the frame starts in RUNNING, numbered from 0 after STARTING and one
higher after a frame; active video ends with the last line's read, and where a relink is latched the canvas then enters RELINK
and returns its scan buffer; a Parison buffer that is whole waits to be shown. Other canvases stay. That a line of a running
canvas is not held to its time, and the number of the first frame, are the model's own reading (notes/assumptions/4.md and
notes/assumptions/27.md). -/
def Obligations.FramesRunLineByLine : Prop :=
  ∀ (c : CanvasNo) (x : Canvas) (s : State), s.dev.canvas c = x →
    (x.state = .starting → x.gen = false → x.lock.lstate = .none →
      ∃ u, exec (.generatorStart c) s = .next u ∧ (u.dev.canvas c).gen = true ∧ (u.dev.canvas c).fsNow = s.dev.now ∧
        (u.dev.canvas c).state = .starting ∧ (u.dev.canvas c).raster.h = cH (s.dev.cregs c) ∧
        ∀ k, k ≠ c.val → u.dev.canvas k = s.dev.canvas k) ∧
    (∀ y k, s.dev.lineToCome c = some y →
      k = (if x.state = .running ∧ y = 0 then { x with started := false, lines := [] } else x) →
      ∃ u, exec (.lineDue c) s = .next u ∧ (u.dev.canvas c).lines = k.lines ++ [k.lineAt k.dueFrame y] ∧
        (u.dev.canvas c).nextDue = y + 1 ∧ (u.dev.canvas c).state = x.state ∧ (u.dev.canvas c).scan = x.scan ∧
        ((k.lineAt k.dueFrame y).isSome → u.dev.ports = s.dev.ports) ∧
        ∀ k, k ≠ c.val → u.dev.canvas k = s.dev.canvas k) ∧
    (s.dev.frameDue c = true →
      ∃ u, exec (.frameStart c) s = .next u ∧ (u.dev.canvas c).state = .running ∧ (u.dev.canvas c).started = true ∧
        (u.dev.canvas c).fsNow = s.dev.now ∧ (u.dev.canvas c).fsTb = s.dev.time ∧ (u.dev.canvas c).lines = x.lines ∧
        (u.dev.canvas c).scanFrame = (if x.state = .starting then 0 else x.scanFrame + 1)) ∧
    (x.state = .running → x.started = true → x.nextDue = x.raster.h →
      ∃ u, exec (.activeVideoEnd c) s = .next u ∧
        (x.relinkAt = false → (u.dev.canvas c).nextDue = x.raster.h + 1 ∧ (u.dev.canvas c).state = .running ∧
          (u.dev.canvas c).scanFrame = x.scanFrame ∧ ∀ k, k ≠ c.val → u.dev.canvas k = s.dev.canvas k) ∧
        (x.relinkAt = true → (u.dev.canvas c).state = .relink ∧ (u.dev.canvas c).allocated = false ∧
          (u.dev.canvas c).blocks = 0 ∧ (u.dev.canvas c).scan = [])) ∧
    (∀ b, x.par.writing = some b → x.par.left = 0 →
      ∃ u, exec (.parisonFrameComplete c) s = .next u ∧ (u.dev.canvas c).par.ready = some b ∧
        (u.dev.canvas c).par.writing = none ∧ (u.dev.canvas c).par.shown = x.par.shown ∧
        ∀ k, k ≠ c.val → u.dev.canvas k = s.dev.canvas k)

/-- R86, R89, R104, R128, R134, R142, R145: a released direct band joins the dealing queue; a free active pipe takes the band to
be dealt next, an interrupted one first, whose units then fetch what its lines to come need; a band's fetch starts, and each unit
of the pipe has its pieces to come; a band late for its deadline goes on in the urgent class, and counts one escalation at each
Gather unit that has part of it to fetch; a piece that arrives at a unit leaves those to come there and at the same unit of each
spare that shadows the band, and its atoms that cannot be used are counted. A release and a deal leave memory as it is. The
counting of the lines before the deadline, and that a response waits for the bank's queue, are the model's own reading
(notes/assumptions/14.md and notes/assumptions/34.md). -/
def Obligations.BandsAreDealtAndFetched : Prop :=
  ∀ (p : PipeNo) (s : State),
    (∀ c : CanvasNo, s.dev.releaseDue c = true → (s.dev.canvas c).nextSrc = .direct → (s.dev.canvas c).old = none →
      ∃ u, exec (.bandRelease c) s = .next u ∧ u.dev.mem = s.dev.mem ∧
        (∃ r, u.dev.comp.deal = s.dev.comp.deal ++ [r] ∧ r.canvas = c.val ∧ r.frame = (s.dev.canvas c).compFrame ∧
          r.band = (s.dev.canvas c).nextBand ∧ r.par = false) ∧
        (u.dev.canvas c).nextBand = (if (s.dev.canvas c).nextBand + 1 < cBands (s.dev.cregs c) then
          (s.dev.canvas c).nextBand + 1 else 0) ∧
        ∀ k, k ≠ c.val → u.dev.canvas k = s.dev.canvas k) ∧
    ((s.dev.pipe p).role = .active → (s.dev.pipe p).held = none →
      (∀ r, s.dev.comp.resumed = [] → s.dev.nextDeal = some r → (r.band ≠ 0 ∨ r.par = true ∨ r.latched = true) →
        ((s.dev.canvas r.canvas).relinkAt = false ∨ r.par = true) →
        ∃ u, exec (.bandDeal p) s = .next u ∧ u.dev.comp.deal = s.dev.comp.deal.erase r ∧ u.dev.mem = s.dev.mem ∧
          ∃ h, (u.dev.pipe p).held = some h ∧ h.canvas = r.canvas ∧ h.frame = r.frame ∧ h.band = r.band ∧ h.par = r.par ∧
            h.fetched = false) ∧
      (∀ h rest, s.dev.comp.resumed = h :: rest →
        ∃ u, exec (.bandDeal p) s = .next u ∧ u.dev.comp.resumed = rest ∧ u.dev.comp.deal = s.dev.comp.deal ∧
          (u.dev.pipe p).held = some { h with alive := s.dev.time } ∧
          (h.wait = true → ∀ k : Fin 8, (u.dev.gather (8 * p + k)).todo = h.pieces k h.nextLine h.endLine))) ∧
    (∀ h, (s.dev.pipe p).held = some h → h.fetched = false →
      ∃ u, exec (.bandFetchStart p) s = .next u ∧
        ∃ k, (u.dev.pipe p).held = some k ∧ k.fetched = true ∧ k.canvas = h.canvas ∧ k.frame = h.frame ∧ k.band = h.band ∧
          ∀ j : Fin 8, (u.dev.gather (8 * p + j)).todo = k.pieces j k.firstLine k.endLine) ∧
    (∀ h, (s.dev.pipe p).held = some h → h.par = false → h.urgent = false → (∃ k : Fin 8, s.dev.fetching p h k = true) →
      s.dev.lineEnded h.canvas h.frame (s.dev.cregs h.canvas) (((h.band * cB (s.dev.cregs h.canvas) : Nat) : Int) -
        (((cD (s.dev.cregs h.canvas) - cB (s.dev.cregs h.canvas)) / 2 + 1 : Nat) : Int)) = true →
      ∃ u, exec (.gatherEscalation p) s = .next u ∧ (u.dev.pipe p).held = some { h with urgent := true } ∧
        (∀ k : Fin 8, u.dev.gather (8 * p + k) = (if s.dev.fetching p h k then
            { s.dev.gather (8 * p + k) with urgent := (s.dev.gather (8 * p + k)).urgent + 1 }
          else s.dev.gather (8 * p + k))) ∧
        ∀ g, g / 8 ≠ p.val → u.dev.gather g = s.dev.gather g) ∧
    (∀ (g : UnitNo) (piece : GatherPiece) (lost : List Nat) h, g.val / 8 = p.val → (s.dev.pipe p).role = .active →
      (s.dev.pipe p).held = some h → (s.dev.gather g).todo.contains piece = true →
      s.dev.pieceServed h (g % 8) piece = true →
      ∃ u, exec (.gatherResponse g piece lost) s = .next u ∧ (u.dev.gather g).todo = (s.dev.gather g).todo.erase piece ∧
        (u.dev.gather g).poison = (s.dev.gather g).poison + BitVec.ofNat 32
          ((s.dev.pieceAtoms h (g % 8) piece).countP fun t => s.dev.unusable (256 * t) || lost.contains t) ∧
        (∀ v ∈ s.dev.followers p h, (u.dev.gather (8 * v + g % 8)).todo = (s.dev.gather (8 * v + g % 8)).todo.erase piece) ∧
        ∀ k, k / 8 ≠ p.val → k / 8 ∉ s.dev.followers p h → u.dev.gather k = s.dev.gather k)

/-- R129, R133 to R136: a pipe writes its band's next line as composed, into the scan buffer where the line is not yet due, or
into the Parison buffer, where it changes no byte but the line's; a spare that shadows the band composes the line beside it; a
completed band leaves its pipe and counts; an understudy that composes the same check values as the active pipe counts a
check and no mismatch, and one that composes others counts both; a re-run that agrees with the active pipe fences the understudy,
one that agrees with the understudy fences the active pipe, and one that agrees with neither fences none and fires
check-unresolved; the rotation steps. The word that stands for a fault of the pipe is the model's own reading
(notes/assumptions/28.md). -/
def Obligations.PipesComposeAndCheck : Prop :=
  ∀ (p : PipeNo) (err : Word) (s : State),
    (∀ h, (s.dev.pipe p).held = some h → h.fetched = true → h.wait = false → h.done = false → h.dead = false →
      ∃ u, exec (.lineWrite p err) s = .next u ∧
        (∃ k, (u.dev.pipe p).held = some k ∧ k.nextLine = h.nextLine + 1 ∧
          k.crcs = h.crcs ++ [(h.nextLine, lineCrc (s.dev.compose p h err h.nextLine))]) ∧
        (∀ v ∈ s.dev.followers p h, v ≠ p.val → ∀ sh ∈ (u.dev.pipe v).shadows, sh.pipe = p.val → sh.actCrcs = none →
          sh.held.sameBand h = true → (h.nextLine, s.dev.lineOn v h h.nextLine) ∈ sh.lines) ∧
        (∀ k, k ≠ p.val → k ∉ s.dev.followers p h → u.dev.pipe k = s.dev.pipe k) ∧
        (h.par = false → u.dev.mem = s.dev.mem ∧ (∀ k, k ≠ h.canvas → u.dev.canvas k = s.dev.canvas k) ∧
          ((s.dev.canvas h.canvas).isDue h.frame h.nextLine = false →
            (u.dev.canvas h.canvas).lineAt h.frame h.nextLine = some (s.dev.compose p h err h.nextLine)) ∧
          ((s.dev.canvas h.canvas).isDue h.frame h.nextLine = true → u.dev.canvases = s.dev.canvases)) ∧
        (h.par = true → u.dev.canvases = s.dev.canvases ∧
          ∀ a, a = (if h.buf = 0 then
              (s.dev.canvas h.canvas).par.addr0.toNat + h.nextLine * (s.dev.canvas h.canvas).par.pitch0
            else (s.dev.canvas h.canvas).par.addr1.toNat + h.nextLine * (s.dev.canvas h.canvas).par.pitch1) →
            ∀ k, outside k a (4 * h.width) → u.dev.memByte k = s.dev.memByte k)) ∧
    (∀ h, (s.dev.pipe p).held = some h → h.done = true → h.wait = false → (s.dev.pipe p).request = none →
      ∃ u, exec (.bandComplete p) s = .next u ∧ (u.dev.pipe p).held = none ∧ (u.dev.pipe p).role = (s.dev.pipe p).role ∧
        (u.dev.pipe p).bands = (s.dev.pipe p).bands + 1 ∧ ∀ k : Fin 8, (u.dev.gather (8 * p + k)).busy = false) ∧
    (∀ sh rest a, (s.dev.pipe p).shadows = sh :: rest → (s.dev.pipe p).role = .spare → sh.actCrcs = some a →
      ∃ u, exec (.understudyBandCompare p err) s = .next u ∧ (u.dev.pipe p).checks = (s.dev.pipe p).checks + 1 ∧
        (differing sh.held a (crcsOf (sh.delivers err)) = [] → u.dev.flt = s.dev.flt ∧
          u.dev.pipe p = { s.dev.pipe p with shadows := rest, checks := (s.dev.pipe p).checks + 1 } ∧
          ∀ k, k ≠ p.val → u.dev.pipe k = s.dev.pipe k) ∧
        (differing sh.held a (crcsOf (sh.delivers err)) ≠ [] →
          (u.dev.pipe p).mismatch = (s.dev.pipe p).mismatch + 1)) ∧
    (∀ t rest a r, s.dev.comp.disputes = t :: rest → t.rerun = some p.val → (s.dev.pipe p).role = .spare →
      t.shadow.actCrcs = some a → t.und ≠ p.val → t.shadow.pipe ≠ p.val → t.und ≠ t.shadow.pipe →
      r = s.dev.rerunCrcs p t err →
      ∃ u, exec (.rerunComplete p err) s = .next u ∧
        (differing t.shadow.held r t.undCrcs = [] → (s.dev.pipe t.shadow.pipe).role ≠ .fenced →
          (u.dev.pipe t.shadow.pipe).role = .fenced ∧ ∃ f ∈ u.dev.flt.arrivals, f.src = 289 ∧ f.inst = t.shadow.pipe) ∧
        (differing t.shadow.held r t.undCrcs ≠ [] → differing t.shadow.held r a = [] →
          (s.dev.pipe t.und).role ≠ .fenced →
          (u.dev.pipe t.und).role = .fenced ∧ ∃ f ∈ u.dev.flt.arrivals, f.src = 289 ∧ f.inst = t.und) ∧
        (differing t.shadow.held r t.undCrcs ≠ [] → differing t.shadow.held r a ≠ [] →
          (∀ k, (u.dev.pipe k).role = (s.dev.pipe k).role) ∧ ∃ f ∈ u.dev.flt.arrivals, f.src = 291 ∧ f.inst = t.und)) ∧
    (s.dev.checking = true → (s.dev.canvas (s.dev.fld .cmp 0 CMP_UND_CTL 6 0)).state ≠ .running →
      s.dev.comp.stepAt.toNat + 16666667 ≤ s.dev.time.toNat →
      ∃ u, exec .rotationStep s = .next u ∧ u.dev.comp.step = s.dev.comp.step + 1 ∧ u.dev.comp.stepAt = s.dev.time ∧
        u.dev.comp.pipes = s.dev.comp.pipes ∧ s.dev.onlyChanges u.dev [.comp])

/-- R127, R140 to R143: a pipe that makes no progress for the time `CMP_WD` gives is fenced with cause 1 and pipe-watchdog
fires; a spare that took over an interrupted band composes it on; an accepted role request gives the pipe its role, at once
or at its band's end, and `REQ_ERR` reads 0 in every pipe; one that would leave no active pipe or a third spare sets `REQ_ERR`; one
of a pipe that a takeover claims is held for its boundary. That a fence request acts at once, and the page that shows `REQ_ERR`, is
the model's own reading (notes/assumptions/28.md). -/
def Obligations.PipesAreFencedAndChangeRoles : Prop :=
  ∀ (p : PipeNo) (s : State),
    (∀ t, s.dev.idleSince p = some t →
      if t.toNat + s.dev.fld .cmp 0 CMP_WD 12 0 ≤ s.dev.time.toNat then
        ∃ u, exec (.pipeWatchdog p) s = .next u ∧ (u.dev.pipe p).role = .fenced ∧ (u.dev.pipe p).cause = 1 ∧
          (u.dev.pipe p).held = none ∧ ∃ f, f ∈ u.dev.flt.arrivals ∧ f.src = 288 ∧ f.inst = p.val
      else exec (.pipeWatchdog p) s = .next s) ∧
    (∀ h, (s.dev.pipe p).held = some h → h.wait = true → h.done = false →
      ∃ u, exec (.takeoverRestart p) s = .next u ∧ (u.dev.pipe p).claimed = false ∧
        (u.dev.pipe p).held = some { h with wait := false, fetched := true, alive := s.dev.time } ∧
        ∀ k, k ≠ p.val → u.dev.pipe k = s.dev.pipe k) ∧
    (∀ (m : Fn) (r : BitVec 2) (role : Role), s.dev.mayWriteReg m .cmp p CMP_CTL →
      s.dev.armed (PType.cmp.page + p) m = true → (r = 0 ∧ role = .active ∨ r = 1 ∧ role = .spare ∨ r = 2 ∧ role = .fenced) →
      ∃ u, exec (.cmpRoleRequest m p r) s = .next u ∧ u.dev.armed (PType.cmp.page + p) m = false ∧
        (if (s.dev.pipe p).claimed then (u.dev.pipe p).role = (s.dev.pipe p).role ∧ (u.dev.pipe p).request = some role ∧
          (u.dev.pipe p).reqHeld = true
         else if s.dev.roleLegal p role then
          (∀ k, k < 14 → (u.dev.pipe k).reqErr = false) ∧
          (if (s.dev.pipe p).role = .active ∧ (s.dev.pipe p).held.isSome ∧ role = .spare then
            (u.dev.pipe p).role = .active ∧ (u.dev.pipe p).request = some .spare
           else (u.dev.pipe p).role = role)
         else (u.dev.pipe p).reqErr = true ∧ (u.dev.pipe p).role = (s.dev.pipe p).role ∧
           ∀ k, k ≠ p.val → u.dev.pipe k = s.dev.pipe k))

/-- R63, R161, R163 to R166: an enable of an OFF canvas asks for its commit point; a disable drains a canvas that runs: its bands leave the
dealing queue and its ports send no more; the drain ends in OFF, and asks for the enable that waits; a settled relink takes
its allocation, its idle ports train, and with no port the canvas starts. -/
def Obligations.CanvasesEnableDrainAndRelink : Prop :=
  ∀ (c : CanvasNo) (x : Canvas) (s : State), s.dev.canvas c = x →
    (∀ m : Fn, s.dev.mayWriteReg m .cnv c CNV_CTL →
      (x.state = .off → s.dev.scene.admQ.contains (.enable c) = false →
        ∃ u, exec (.canvasEnable m c) s = .next u ∧ u.dev.canvas c = { x with en := true } ∧
          u.dev.scene.admQ = s.dev.scene.admQ ++ [.enable c] ∧ ∀ k, k ≠ c.val → u.dev.canvas k = s.dev.canvas k) ∧
      (x.state = .draining →
        ∃ u, exec (.canvasEnable m c) s = .next u ∧ u.dev.canvas c = { x with en := true, enPending := true } ∧
          s.dev.onlyChanges u.dev [.canvases]) ∧
      (x.state = .starting ∨ x.state = .running ∨ x.state = .relink →
        ∃ u, exec (.canvasDisable m c) s = .next u ∧ (u.dev.canvas c).state = .draining ∧ (u.dev.canvas c).en = false ∧
          (∀ r ∈ u.dev.comp.deal, r.canvas ≠ c.val) ∧
          ∀ n ∈ s.dev.senders c, (u.dev.port n).state = .idle ∨ (u.dev.port n).state = .training)) ∧
    (x.state = .draining → s.dev.bandsDone c = true →
      ∃ u, exec (.canvasDrainComplete c) s = .next u ∧ (u.dev.canvas c).state = .off ∧
        (u.dev.canvas c).mode = .disabled ∧ (u.dev.canvas c).blocks = 0 ∧ (u.dev.canvas c).scan = [] ∧
        u.dev.scene.admQ = s.dev.scene.admQ ++ (if x.enPending then [.enable c] else []) ∧
        ∀ k, k ≠ c.val → (u.dev.canvas k).state = (s.dev.canvas k).state) ∧
    (x.state = .relink → x.allocated = false → x.fsNow + 5000 ≤ s.dev.now →
      ∃ u, exec (.relinkSettled c) s = .next u ∧ (u.dev.canvas c).allocated = true ∧
        (s.dev.portsOf c = [] → (u.dev.canvas c).state = .starting) ∧
        (∀ n ∈ s.dev.portsOf c, (s.dev.port n).state = .idle ∨ (s.dev.port n).state = .training ∧ (s.dev.port n).step = .none →
          (u.dev.port n).state = .training ∧ (u.dev.port n).step = .caps) ∧
        ∀ k, k ≠ c.val → u.dev.canvas k = s.dev.canvas k)

/-- R155 to R158: an active edge of `GENLOCK` or `FSYNC_IN` is a reference event of every canvas that locks to it, and an
edge of the other polarity is none; a missing reference puts its canvas in HOLDOVER and frame-lock-lost fires; `FSYNC_OUT`
falls 1,024 ns after it rose. The interval after which a reference is missing is the model's own reading
(notes/assumptions/27.md). -/
def Obligations.FrameLocksFollowTheirReference : Prop :=
  ∀ (c : CanvasNo) (e : Bool) (s : State),
    (e ≠ s.dev.flg .cnv 0 CNV_SYNC 30 →
      ∃ u, exec (.genlockEdge e) s = .next u ∧ ((s.dev.canvas c).lock.lstate ≠ .none →
        u.dev.canvas c = (if s.dev.fld .cnv c CNV_LOCK 31 30 = 1 then
          { s.dev.canvas c with lock := (s.dev.canvas c).lock.event (s.dev.fld .cnv c CNV_LOCK 9 0) s.dev.time }
          else s.dev.canvas c))) ∧
    (e = s.dev.flg .cnv 0 CNV_SYNC 30 → exec (.genlockEdge e) s = .next s) ∧
    (e ≠ s.dev.flg .cnv 0 CNV_SYNC 29 →
      ∃ u, exec (.fsyncInEdge e) s = .next u ∧ ((s.dev.canvas c).lock.lstate ≠ .none →
        u.dev.canvas c = (if s.dev.fld .cnv c CNV_LOCK 31 30 = 2 then
          { s.dev.canvas c with lock := (s.dev.canvas c).lock.event (s.dev.fld .cnv c CNV_LOCK 9 0) s.dev.time }
          else s.dev.canvas c))) ∧
    (e = s.dev.flg .cnv 0 CNV_SYNC 29 → exec (.fsyncInEdge e) s = .next s) ∧
    (∀ t p, (s.dev.canvas c).lock.ref = some t → (s.dev.canvas c).lock.period = some p →
      (s.dev.canvas c).lock.lstate = .acquiring ∨ (s.dev.canvas c).lock.lstate = .locked →
      4 * (t.toNat + p) + 5 * p ≤ 4 * s.dev.time.toNat →
      ∃ u, exec (.lockReferenceMissing c) s = .next u ∧ (u.dev.canvas c).lock.lstate = .holdover ∧
        (u.dev.canvas c).lock.phase = (s.dev.canvas c).lock.phase ∧ (∀ k, k ≠ c.val → u.dev.canvas k = s.dev.canvas k) ∧
        ∃ f, u.dev.flt.arrivals = s.dev.flt.arrivals ++ [f] ∧ f.src = 353 ∧ f.inst = c.val) ∧
    (s.dev.pins.fsyncOut = true → s.dev.pins.fsyncAt + 1024 ≤ s.dev.now →
      ∃ u, exec .fsyncOutEnd s = .next u ∧ u.dev.pins = { s.dev.pins with fsyncOut := false } ∧
        s.dev.onlyChanges u.dev [.pins])

/-- R30, R34, R185, R186: an enable of an OFF port leaves it FENCED where it is fenced, in TRAINING where a sink is present, and
else in NO_SINK; a disable drains it, and once its line, its training and its AUX transaction have ended the drain ends in OFF, or
in the enable that waits; a retrain of an active port waits for the end of its frame's last active line and one of an idle port or
of one in LINK_LOST begins; a release ends a fence, and a port in FENCED then goes as an enable would have it; a swap of a cold
pair waits for the frame. -/
def Obligations.PortsEnableDrainAndTrain : Prop :=
  ∀ (m : Fn) (n : PortNo) (x : Port) (s : State), s.dev.port n = x →
    (s.dev.mayWriteReg m .dpt n DPT_CTL →
      (x.state = .off →
        ∃ u, exec (.portEnable m n) s = .next u ∧ (u.dev.port n).en = true ∧ (u.dev.port n).fails = 0 ∧
          (u.dev.port n).state = (if x.fenced then .fenced else if x.hpd then .training else .noSink)) ∧
      (x.state = .noSink ∨ x.state = .training ∨ x.state = .idle ∨ x.state = .active ∨ x.state = .linkLost →
        ∃ u, exec (.portDisable m n) s = .next u ∧ (u.dev.port n).en = false ∧ (u.dev.port n).state = .draining) ∧
      (x.en = true → x.state = .active →
        ∃ u, exec (.retrain m n) s = .next u ∧ u.dev.port n = { x with relinkAt := true } ∧
          ∀ k, k ≠ n.val → u.dev.port k = s.dev.port k) ∧
      (x.en = true → x.state = .idle ∨ x.state = .linkLost →
        ∃ u, exec (.retrain m n) s = .next u ∧ (u.dev.port n).state = .training ∧ (u.dev.port n).step = .caps ∧
          ∀ k, k ≠ n.val → u.dev.port k = s.dev.port k) ∧
      (x.en = true → x.state = .fenced → x.fenced = true → s.dev.armed (PType.dpt.page + n) m = true →
        ∃ u, exec (.portFrel m n) s = .next u ∧ (u.dev.port n).fenced = false ∧
          (u.dev.port n).state = (if x.hpd then .training else .noSink) ∧ ∀ k, k ≠ n.val → u.dev.port k = s.dev.port k) ∧
      (x.state = .off → x.en = false → x.fenced = true → s.dev.armed (PType.dpt.page + n) m = true →
        ∃ u, exec (.portFrel m n) s = .next u ∧ u.dev.port n = { x with fenced := false } ∧
          ∀ k, k ≠ n.val → u.dev.port k = s.dev.port k)) ∧
    (s.dev.mayWriteReg m .dpt n DPT_PAIR_CMD → s.dev.armed (PType.dpt.page + n) m = true →
      ∃ u, exec (.swap m n) s = .next u ∧ u.dev.port n = (if s.dev.coldPair n then { x with swapAt := true } else x) ∧
        ∀ k, k ≠ n.val → u.dev.port k = s.dev.port k) ∧
    (x.state = .draining → x.step = .none → x.aux.busy = false → x.lineEnd ≤ s.dev.now →
      ∃ u, exec (.portDrainComplete n) s = .next u ∧ (u.dev.port n).fenced = x.fenced ∧
        (x.enPending = false → (u.dev.port n).state = .off ∧ ∀ k, k ≠ n.val → u.dev.port k = s.dev.port k) ∧
        (x.enPending = true → (u.dev.port n).en = true ∧
          (u.dev.port n).state = (if x.fenced then .fenced else if x.hpd then .training else .noSink)))

/-- R172, R174, R175: a fall of `HPD` begins a low interval; a rise after 0.25 ms to 2 ms of it is an IRQ_HPD, for which the link
status of a port in TRAINING, IDLE or ACTIVE is to be read, and a rise after less is a glitch; 2 ms low is a loss, by which a port
leaves its link for NO_SINK; 2 ms high is a sink, and a port in NO_SINK trains. -/
def Obligations.HotPlugIsTimed : Prop :=
  ∀ (n : PortNo) (x : Port) (s : State), s.dev.port n = x →
    (x.hpdPin = true →
      ∃ u, exec (.hpdFall n) s = .next u ∧ u.dev.port n = { x with hpdPin := false, edgeAt := s.dev.now, lossDone := false } ∧
        ∀ k, k ≠ n.val → u.dev.port k = s.dev.port k) ∧
    (x.hpdPin = false →
      ∃ u, exec (.hpdRise n) s = .next u ∧ (u.dev.port n).hpdPin = true ∧ (u.dev.port n).edgeAt = s.dev.now ∧
        (if s.dev.supervises = true ∧ x.lossDone = false ∧ 250000 ≤ s.dev.now - x.edgeAt ∧
            s.dev.now - x.edgeAt < 2000000 then
          (u.dev.port n).irqCnt = x.irqCnt + 1 ∧
          (x.state = .training ∨ x.state = .idle ∨ x.state = .active → (u.dev.port n).statusDue = true) ∧
          (x.state = .linkLost → (u.dev.port n).state = .training)
         else u.dev.port n = { x with hpdPin := true, edgeAt := s.dev.now }) ∧
        ∀ k, k ≠ n.val → u.dev.port k = s.dev.port k) ∧
    (s.dev.supervises = true → x.hpdPin = false → x.lossDone = false → x.edgeAt + 2000000 ≤ s.dev.now →
      ∃ u, exec (.hpdLoss n) s = .next u ∧ (u.dev.port n).hpd = false ∧ (u.dev.port n).lossCnt = x.lossCnt + 1 ∧
        (u.dev.port n).lossDone = true ∧
        (u.dev.port n).state = (if x.state = .training ∨ x.state = .idle ∨ x.state = .active ∨ x.state = .linkLost then
          .noSink else x.state)) ∧
    (s.dev.supervises = true → x.hpdPin = true → x.hpd = false → x.edgeAt + 2000000 ≤ s.dev.now →
      ∃ u, exec (.hpdDebounced n) s = .next u ∧ (u.dev.port n).hpd = true ∧
        (u.dev.port n).state = (if x.state = .noSink then .training else x.state) ∧
        ∀ k, k ≠ n.val → u.dev.port k = s.dev.port k)

/-- R171 to R175, R184, R185: the capabilities of a sink give the candidates, tried in turn, and an attempt without one fails; the first that trains is the
link, and when none does the attempt fails: another follows after 10 ms until `RETRY` are spent, and then the link is lost, or an
IRQ_HPD that came during the training is answered by another training. A lost link status retrains; an IDLE standby's status is
due every 100 ms; a quad condition that begins fires, and fences where its reaction says so, and one that ends is over. -/
def Obligations.LinksTrainAndFail : Prop :=
  ∀ (n : PortNo) (x : Port) (s : State), s.dev.port n = x →
    (∀ caps l r rest, x.step = .caps → s.dev.candidates n caps = (l, r) :: rest →
      ∃ u, exec (.sinkCapabilitiesRead n caps) s = .next u ∧
        u.dev.port n = { x with caps := some caps, step := .candidate l r rest } ∧ s.dev.onlyChanges u.dev [.ports]) ∧
    (∀ caps, x.step = .caps → s.dev.candidates n caps = [] →
      ∃ u, exec (.sinkCapabilitiesRead n caps) s = .next u ∧ (u.dev.port n).fails = min 255 (x.fails + 1) ∧
        (u.dev.port n).capErr = true) ∧
    (∀ l r rest, x.step = .candidate l r rest → x.state = .training →
      (∃ u, exec (.trainingCandidateDone n true) s = .next u ∧ (u.dev.port n).state = .idle ∧ (u.dev.port n).step = .none ∧
        (u.dev.port n).lanes = l ∧ (u.dev.port n).rate = r ∧ (u.dev.port n).capErr = false) ∧
      (∀ l' r' rest', rest = (l', r') :: rest' →
        ∃ u, exec (.trainingCandidateDone n false) s = .next u ∧ u.dev.port n = { x with step := .candidate l' r' rest' } ∧
          s.dev.onlyChanges u.dev [.ports]) ∧
      (rest = [] →
        ∃ u, exec (.trainingCandidateDone n false) s = .next u ∧ (u.dev.port n).fails = min 255 (x.fails + 1) ∧
          (if x.attempts < s.dev.fld .dpt n DPT_LINK 5 3 then (u.dev.port n).state = .training ∧
            (u.dev.port n).step = .retryWait s.dev.now ∧ (u.dev.port n).attempts = x.attempts + 1
           else (u.dev.port n).state = (if x.statusDue then .training else .linkLost) ∧
            ∃ f, f ∈ u.dev.flt.arrivals ∧ f.src = 385 ∧ f.inst = n.val))) ∧
    (∀ t caps l r rest, x.step = .retryWait t → t + 10000000 ≤ s.dev.now → x.caps = some caps →
      s.dev.candidates n caps = (l, r) :: rest →
      ∃ u, exec (.trainingRetry n) s = .next u ∧ u.dev.port n = { x with step := .candidate l r rest }) ∧
    (∀ loss, x.statusDue = true → x.state = .idle ∨ x.state = .active →
      ∃ u, exec (.linkStatusRead n loss) s = .next u ∧ (u.dev.port n).statusDue = false ∧
        (u.dev.port n).state = (if loss = true ∧ x.state = .idle then .training else x.state) ∧
        (loss = true → x.state = .active → (u.dev.port n).relinkAt = true) ∧
        ∀ k, k ≠ n.val → u.dev.port k = s.dev.port k) ∧
    (s.dev.coldPair n = true → x.standby = true → x.state = .idle → x.pollAt + 100000000 ≤ s.dev.now →
      ∃ u, exec (.standbyStatusPoll n) s = .next u ∧ u.dev.port n = { x with statusDue := true, pollAt := s.dev.now } ∧
        s.dev.onlyChanges u.dev [.ports]) ∧
    (∀ k, x.powered = true → k = .pllLock ∨ (∃ l, k = .laneRight l) →
      ∃ u, exec (.portQuadFault n k) s = .next u ∧ s.dev.onlyChanges u.dev [.ports] ∧
        (k = .pllLock → u.dev.port n = { x with pllBad := false }) ∧
        (∀ l, k = .laneRight l → u.dev.port n = { x with laneBad := x.laneBad &&& ~~~((1 : BitVec 4) <<< l.val) })) ∧
    (∀ k, x.powered = true → s.dev.quadBad n = false → k = .pllUnlock ∨ (∃ l, k = .laneCurrent l) ∨ k = .fifoSlip →
      ∃ u, exec (.portQuadFault n k) s = .next u ∧ (∃ f, f ∈ u.dev.flt.arrivals ∧ f.src = 384 ∧ f.inst = n.val) ∧
        (if s.dev.fences 384 then (u.dev.port n).fenced = true ∧
          (u.dev.port n).state = (if x.state = .draining then .draining else .fenced)
         else (u.dev.port n).state = x.state ∧ (u.dev.port n).fenced = x.fenced ∧
           (k = .pllUnlock → (u.dev.port n).pllBad = true)))

/-- R176: a write of `DPT_AUX_CMD` with `GO` starts a transaction where none is in progress; an ACK ends it with the bytes
moved, a NACK with none, a DEFER repeats it seven times and then ends it, and 3.2 ms with no reply end it. While one is in
progress `GO` is dropped and the other fields take the write, and the reply is read as the command was at `GO`. A reply or a
timeout of a port with no transaction of software in progress changes nothing. Which bit tells a read, and the count of an
acknowledged write, are the model's own reading (notes/assumptions/12.md). -/
def Obligations.AuxTransactionsRunToAReply : Prop :=
  ∀ (n : PortNo) (x : Port) (s : State), s.dev.port n = x →
    (∀ (m : Fn) (cmd : Word), s.dev.mayWriteReg m .dpt n DPT_AUX_CMD → x.aux.busy = false →
      ∃ u, exec (.dptAuxGo m n cmd) s = .next u ∧ u.dev.reg .dpt n DPT_AUX_CMD = cmd &&& 0x0FFFFFFF ∧
        (u.dev.port n).aux.busy = true ∧ (u.dev.port n).aux.done = false ∧ (u.dev.port n).aux.since = s.dev.now ∧
        (u.dev.port n).aux.defers = 0 ∧ bits (u.dev.port n).aux.cmd 27 0 = bits cmd 27 0 ∧
        (∀ k, k ≠ n.val → u.dev.port k = s.dev.port k) ∧ s.dev.onlyChanges u.dev [.regs, .ports]) ∧
    (∀ (m : Fn) (cmd : Word), s.dev.mayWriteReg m .dpt n DPT_AUX_CMD → x.aux.busy = true →
      ∃ u, exec (.dptAuxGo m n cmd) s = .next u ∧ u.dev.reg .dpt n DPT_AUX_CMD = cmd &&& 0x0FFFFFFF ∧
        s.dev.onlyChanges u.dev [.regs]) ∧
    (x.aux.busy = false ∨ x.ownsAux = true →
      (∀ a, exec (.auxReply n a) s = .next s) ∧ exec (.auxTimeout n) s = .next s) ∧
    (x.aux.busy = true → x.ownsAux = false →
      (∀ bytes : List Byte,
        ∃ u, exec (.auxReply n (.ack bytes)) s = .next u ∧ (u.dev.port n).aux.busy = false ∧
          (u.dev.port n).aux.done = true ∧ (u.dev.port n).aux.reply = 0 ∧
          (u.dev.port n).aux.count = (if bit x.aux.cmd 24 then min 16 bytes.length
            else bits x.aux.cmd 23 20 + 1) ∧
          ∀ j (h : j < bytes.length), j < 16 → bit x.aux.cmd 24 = true →
            (leBytes 4 (u.dev.reg .dpt n (DPT_AUX_DATA + 4 * (j / 4))).toNat)[j % 4]? = some bytes[j]) ∧
      (∃ u, exec (.auxReply n .nack) s = .next u ∧ s.dev.onlyChanges u.dev [.ports] ∧
        u.dev.port n = { x with aux := { x.aux with busy := false, done := true, reply := 1, count := 0 } }) ∧
      (∃ u, exec (.auxReply n .defer) s = .next u ∧ s.dev.onlyChanges u.dev [.ports] ∧
        (u.dev.port n).aux = (if x.aux.defers < 7 then { x.aux with defers := x.aux.defers + 1, since := s.dev.now }
          else { x.aux with busy := false, done := true, reply := 2, count := 0 })) ∧
      (x.aux.since + 3200000 ≤ s.dev.now →
        ∃ u, exec (.auxTimeout n) s = .next u ∧ s.dev.onlyChanges u.dev [.ports] ∧
          u.dev.port n = { x with aux := { x.aux with busy := false, done := true, reply := 3, count := 0 } }))

/-- R94, R109, R114, R121: a write of a table's data register writes the entry that the table's index register names and no
other entry, makes it good in every pipe, and steps the index where its `INC` is set; a read of `CSP_LUT_DATA` returns the
bytes it asks for of the entry's low word and, of the cube, keeps the high one in `CSP_LUT_DATA_HI`; one of 64 bits then reads
that register too. -/
def Obligations.TablesLoadByIndex : Prop :=
  ∀ (m : Fn) (c : CanvasNo) (w : Word) (s : State),
    (s.dev.mayWriteReg m .gth 0 GTH_CLUT_DATA →
      ∃ u, exec (.gthClutDataWrite m w) s = .next u ∧
        (∀ k, u.dev.clutAt k = if k = s.dev.clutIdx then w else s.dev.clutAt k) ∧
        u.dev.reg .gth 0 GTH_CLUT_IDX = stepIdx (s.dev.reg .gth 0 GTH_CLUT_IDX) 13 16383 ∧
        u.dev.cru = { s.dev.cru with badLocal := s.dev.cru.badLocal.filter fun e => e.2 ≠ .clut s.dev.clutIdx } ∧
        s.dev.onlyChanges u.dev [.regs, .luts, .cru]) ∧
    (s.dev.mayWriteReg m .gth 0 GTH_COEF_DATA →
      ∃ u, exec (.gthCoefDataWrite m w) s = .next u ∧
        (∀ k, u.dev.coefAt k = if k = s.dev.coefIdx then w.setWidth 16 else s.dev.coefAt k) ∧
        u.dev.reg .gth 0 GTH_COEF_IDX = stepIdx (s.dev.reg .gth 0 GTH_COEF_IDX) 13 16383 ∧
        u.dev.cru = { s.dev.cru with badLocal := s.dev.cru.badLocal.filter fun e => e.2 ≠ .coef s.dev.coefIdx } ∧
        s.dev.onlyChanges u.dev [.regs, .luts, .cru]) ∧
    (s.dev.mayWriteReg m .csp 0 CSP_ICS_DATA →
      ∃ u, exec (.cspIcsDataWrite m w) s = .next u ∧
        (∀ k, u.dev.icsAt k = if k = s.dev.icsIdx then w &&& icsMask k else s.dev.icsAt k) ∧
        u.dev.reg .csp 0 CSP_ICS_IDX = stepIdx (s.dev.reg .csp 0 CSP_ICS_IDX) 8 511 ∧
        u.dev.cru = { s.dev.cru with badLocal := s.dev.cru.badLocal.filter fun e => e.2 ≠ .ics s.dev.icsIdx } ∧
        s.dev.onlyChanges u.dev [.regs, .luts, .cru]) ∧
    (∀ bank sel i, s.dev.lutSel c = (bank, sel, i) →
      (s.dev.mayWriteReg m .csp c CSP_LUT_DATA →
        ∃ u, exec (.cspLutDataWrite m c w) s = .next u ∧
          (i < lutSize sel → sel ≠ 2 → u.dev.lutAt (lutKey c bank sel i) = (w &&& 0xFFFF).setWidth 48) ∧
          (i < lutSize sel → sel = 2 → u.dev.lutAt (lutKey c bank sel i) =
            ((s.dev.reg .csp c CSP_LUT_DATA_HI).setWidth 16 : BitVec 16) ++ w) ∧
          (∀ k, k ≠ lutKey c bank sel i → u.dev.lutAt k = s.dev.lutAt k) ∧
          u.dev.reg .csp c CSP_LUT_IDX = stepIdx (s.dev.reg .csp c CSP_LUT_IDX) 12 (lutSize sel - 1) ∧
          u.dev.cru = (if i < lutSize sel then
            { s.dev.cru with badLocal := s.dev.cru.badLocal.filter fun e => e.2 ≠ .lut (lutKey c bank sel i) } else s.dev.cru) ∧
          s.dev.onlyChanges u.dev [.regs, .luts, .cru]) ∧
      (s.dev.responds (PType.csp.page + c) = true → s.dev.right m (PType.csp.page + c) ≠ 0 → i < lutSize sel →
        ∀ (byte : Fin 4) (size : Nat), ∃ u, exec (.cspLutDataRead m c byte size) s = .next u ∧
          (∀ low, low = (s.dev.lutAt (lutKey c bank sel i)).setWidth 32 →
            u.dev.hif.readData = (if size = 8 then quad low (u.dev.busRead m (regAt .csp c CSP_LUT_DATA_HI))
              else BitVec.ofNat 64 (low.toNat >>> (8 * byte.val) % 2 ^ (8 * size)))) ∧
          (sel = 2 → u.dev.reg .csp c CSP_LUT_DATA_HI = ((s.dev.lutAt (lutKey c bank sel i)) >>> 32).setWidth 32) ∧
          s.dev.onlyChanges u.dev [.regs, .hif]))

/-- R213, R220, R221, R227: an enabled channel for which no kick waits is IDLE; a disabled one drains, and the drain ends,
once the response that is due has arrived or timed out, in OFF, or in IDLE where `EN` was written 1 meanwhile; a kick starts an
IDLE channel at its descriptor, or with `CHAIN` at the last job's `NEXT`, waits on a RUNNING one, where a second counts in
`DMA_CH_OVR`, and counts there on a HALTED or DRAINING one; `FREL` takes a FENCED channel to OFF. That a drained job counts in
`DMA_CH_JOBS`, and that bits [5:0] of a descriptor's address are taken as 0, are the model's own readings
(notes/assumptions/30.md and 16.md). -/
def Obligations.ChannelsEnableStartAndDrain : Prop :=
  ∀ (m : Fn) (ch : ChanNo) (x : Chan) (s : State), s.dev.chan ch = x →
    (s.dev.mayWriteReg m .chan ch DMA_CH_CTL →
      (x.state = .off →
        ∃ u, exec (.channelEnable m ch) s = .next u ∧ (u.dev.chan ch).en = true ∧
          (s.dev.waiters 0x10 21 ch = [] → (u.dev.chan ch).state = .idle ∧ (u.dev.chan ch).chained = false) ∧
          (∀ k, k ≠ ch.val → u.dev.chan k = s.dev.chan k)) ∧
      (x.state = .idle ∨ x.state = .running ∨ x.state = .halted →
        ∃ u, exec (.channelDisable m ch) s = .next u ∧ (u.dev.chan ch).state = .draining ∧ (u.dev.chan ch).en = false ∧
          (u.dev.chan ch).pend = none ∧ (u.dev.chan ch).job = x.job ∧ (u.dev.chan ch).due = x.asks ∧ ∀ k, k ≠ ch.val → u.dev.chan k = s.dev.chan k) ∧
      (x.state = .idle → x.en = true →
        ∃ u, exec (.kick m ch) s = .next u ∧ (u.dev.chan ch).state = .running ∧ (u.dev.chan ch).step = .fetch ∧
          (u.dev.chan ch).job = some { mid := m } ∧ (u.dev.chan ch).bytes = 0 ∧ (u.dev.chan ch).issued = s.dev.now ∧
          (s.dev.stagedOf .chan ch = [] → (u.dev.chan ch).addr =
            (if s.dev.flg .chan ch DMA_CH_CFG 25 ∧ x.chained then x.cont.getD (s.dev.pair .chan ch DMA_CH_DESC_LO)
              else s.dev.pair .chan ch DMA_CH_DESC_LO) &&& 0xFFFFFFFFFFFFFFC0) ∧
          ∀ k, k ≠ ch.val → u.dev.chan k = s.dev.chan k) ∧
      (x.state = .running → x.en = true →
        ∃ u, exec (.kick m ch) s = .next u ∧
          u.dev.chan ch = (if x.pend.isNone then { x with pend := some (.kick m) } else { x with ovr := x.ovr + 1 }) ∧
          ∀ k, k ≠ ch.val → u.dev.chan k = s.dev.chan k) ∧
      (x.state = .halted ∧ x.en = true ∨ x.state = .draining ∧ x.en = x.enPending →
        ∃ u, exec (.kick m ch) s = .next u ∧ u.dev.chan ch = { x with ovr := x.ovr + 1 } ∧
          ∀ k, k ≠ ch.val → u.dev.chan k = s.dev.chan k) ∧
      (x.state = .fenced → s.dev.armed (PType.chan.page + ch) m = true →
        ∃ u, exec (.dmaFrel m ch) s = .next u ∧ u.dev.chan ch = { x with state := .off, en := false } ∧
          ∀ k, k ≠ ch.val → u.dev.chan k = s.dev.chan k)) ∧
    (x.state = .draining → x.due = true → exec (.dmaDrainComplete ch) s = .next s) ∧
    (x.state = .draining → x.due = false → x.enPending = true → s.dev.waiters 0x10 21 ch = [] →
      ∃ u, exec (.dmaDrainComplete ch) s = .next u ∧ (u.dev.chan ch).state = .idle ∧ (u.dev.chan ch).job = none ∧
        ∀ k, k ≠ ch.val → u.dev.chan k = s.dev.chan k) ∧
    (x.state = .draining → x.due = false → x.enPending = false →
      ∃ u, exec (.dmaDrainComplete ch) s = .next u ∧ (u.dev.chan ch).state = .off ∧ (u.dev.chan ch).job = none ∧
        (u.dev.chan ch).jobs = (if x.job.isSome then x.jobs + 1 else x.jobs) ∧
        ∀ k, k ≠ ch.val → u.dev.chan k = s.dev.chan k)

/-- R214 to R219, R224, R226, R227: a descriptor that passes its checks moves, and a later one that fails them halts the channel
with the code; each answered read of a plain descriptor copies its piece of bytes and counts them; no answer halts the channel
with code 5 and the request's address, and frees a drain that waits for it; the end of the last descriptor ends the job, of
another fetches the next; a flip that a pulse asks for joins the commit points. That a piece is copied as its response arrives,
once the banks of its atoms serve it, is the model's own reading (notes/assumptions/17.md and 34.md). -/
def Obligations.DmaJobsMoveTheirBytes : Prop :=
  ∀ (ch : ChanNo) (x : Chan) (s : State), s.dev.chan ch = x →
    (∀ j : DmaJob, x.state = .running → x.job = some j →
      (x.step = .fetch → s.dev.served 3 x.addr.toNat 64 = true → s.dev.readRes j.mid x.addr.toNat 64 = .ok →
        ∀ k : Desc, k = { words := bytesWords 16 (s.dev.bytes x.addr.toNat 64) } → k.check ≠ 0 → x.hops ≠ 0 →
        ∃ u, exec (.descriptorFetch ch .ok) s = .next u ∧ (u.dev.chan ch).state = .halted ∧
          (u.dev.chan ch).err = BitVec.ofNat 8 k.check ∧ (u.dev.chan ch).failAddr = x.addr) ∧
      (x.step = .fetch → s.dev.served 3 x.addr.toNat 64 = true → s.dev.readRes j.mid x.addr.toNat 64 = .ok →
        ∀ k : Desc, k = { words := bytesWords 16 (s.dev.bytes x.addr.toNat 64) } → k.check = 0 →
        ∃ u, exec (.descriptorFetch ch .ok) s = .next u ∧ (u.dev.chan ch).desc = k ∧ (u.dev.chan ch).moved = 0 ∧
          (u.dev.chan ch).step = (if k.enc = true ∧ s.dev.encoderFree = false then .encWait else .move) ∧
          s.dev.onlyChanges u.dev [.chans, .mct, .cru, .flt] ∧ ∀ k, k ≠ ch.val → u.dev.chan k = s.dev.chan k) ∧
      (∀ a b n, x.step = .move → x.desc.enc = false → x.desc.piece x.moved = (a, b, n) →
        s.dev.served 3 a n = true → s.dev.served 3 b n = true → s.dev.readRes j.mid a n = .ok → s.dev.writeRes j.mid b n = .ok →
        ∃ u, exec (.dmaResponse ch .ok) s = .next u ∧ (u.dev.chan ch).moved = x.moved + n ∧
          (u.dev.chan ch).bytes = x.bytes + BitVec.ofNat 64 n ∧
          (u.dev.chan ch).step = (if x.desc.total ≤ x.moved + n then .descDone else .move) ∧
          (∀ i, i < n → u.dev.memByte (b + i) = s.dev.byte (a + i)) ∧
          (∀ k, outside k b n → u.dev.memByte k = s.dev.memByte k) ∧ ∀ k, k ≠ ch.val → u.dev.chan k = s.dev.chan k)) ∧
    (x.state = .running → x.step = .encWait → s.dev.encoderFree = true →
      ∃ u, exec (.encoderAcquire ch) s = .next u ∧ s.dev.onlyChanges u.dev [.chans] ∧
        u.dev.chan ch = { x with step := .move, encoder := true, issued := s.dev.now }) ∧
    (x.state = .running → x.step = .fetch ∨ x.step = .move → x.issued + s.dev.requestTimeout ≤ s.dev.now →
      ∀ write, ∃ u, exec (.dmaTimeout ch write) s = .next u ∧ (u.dev.chan ch).state = .halted ∧ (u.dev.chan ch).err = 5 ∧
        (u.dev.chan ch).failAddr = s.dev.openRequest ch write ∧ (u.dev.chan ch).jobs = x.jobs ∧
        (s.dev.waiters 0x10 21 ch = [] → u.dev.mem = s.dev.mem)) ∧
    (x.state = .draining → x.due = true → x.issued + s.dev.requestTimeout ≤ s.dev.now →
      ∀ write, ∃ u, exec (.dmaTimeout ch write) s = .next u ∧ u.dev.chan ch = { x with due := false } ∧
        s.dev.onlyChanges u.dev [.chans, .mct]) ∧
    (s.dev.now < x.issued + s.dev.requestTimeout → ∀ write, exec (.dmaTimeout ch write) s = .next s) ∧
    (x.state = .running → x.step = .descDone → x.hops < 4096 →
      ∃ u, exec (.descriptorComplete ch) s = .next u ∧ (u.dev.chan ch).encoder = false ∧
        (if x.desc.last then (u.dev.chan ch).step = .jobDone ∧ (u.dev.chan ch).cont = some x.desc.next
         else (u.dev.chan ch).step = .fetch ∧ (u.dev.chan ch).addr = x.desc.next ∧ (u.dev.chan ch).hops = x.hops + 1) ∧
        ∀ k, k ≠ ch.val → u.dev.chan k = s.dev.chan k) ∧
    (x.state = .running → x.step = .jobDone →
      ∃ u, exec (.jobEnd ch) s = .next u ∧ (u.dev.chan ch).jobs = x.jobs + 1 ∧
        (x.pend.isSome = true → (u.dev.chan ch).state = .running ∧ (u.dev.chan ch).step = .fetch) ∧
        (x.pend = none → s.dev.chanRep ch ≠ 2 → s.dev.waiters 0x10 21 ch = [] →
          (u.dev.chan ch).state = .idle ∧ (u.dev.chan ch).job = none)) ∧
    (∀ fn win a b rest, x.flips = (fn, win, a, b) :: rest →
      ∃ u, exec (.dmaFlip ch) s = .next u ∧ u.dev.chan ch = { x with flips := rest } ∧
        u.dev.scene.admQ = s.dev.scene.admQ ++ [.flip fn win a b])

/-- R222, R223: a timer enabled in free mode counts from the time of the write; a period shortened below what has passed ticks at
once; a tick is counted where it is due, and in free mode the next counts from it; where none is due nothing happens. -/
def Obligations.TimersCountTheirPeriods : Prop :=
  ∀ (m : Fn) (t : TimerNo) (x : Timer) (s : State), s.dev.timer t = x →
    (∀ w : Word, s.dev.mayWriteReg m .dma 0 (DMA_TMR_CTL + 16 * t) →
      ∃ u, exec (.timerEnable m t w) s = .next u ∧
        (if bit w 30 then u.dev.timer t = x else (u.dev.timer t).base = s.dev.time ∧ (u.dev.timer t).cnt = x.cnt) ∧
        u.dev.timerCtl t = (w ||| 0x80000000) &&& 0xE03F007F ∧ (∀ k, k ≠ t.val → u.dev.timer k = s.dev.timer k) ∧
        s.dev.onlyChanges u.dev [.regs, .timers]) ∧
    (∀ w : Word, s.dev.mayWriteReg m .dma 0 (DMA_TMR_PER + 16 * t) →
      1000 ≤ w.toNat ∨ (w = 0 ∧ bit (s.dev.timerCtl t) 30 = true) →
      ∃ u, exec (.timerPeriodWrite m t w) s = .next u ∧ u.dev.timerPer t = w.toNat ∧ (u.dev.timer t).cnt = x.cnt ∧
        (bit (s.dev.timerCtl t) 31 = true → bit (s.dev.timerCtl t) 30 = false →
          (x.base + w.setWidth 64).toNat < s.dev.time.toNat → (u.dev.timer t).base = s.dev.time - w.setWidth 64) ∧
        (∀ k, k ≠ t.val → u.dev.timer k = s.dev.timer k) ∧ s.dev.onlyChanges u.dev [.regs, .timers]) ∧
    (∀ y due, s.dev.timerNext t = some (y, due) → s.dev.time.toNat < due.toNat → exec (.timerTick t) s = .next s) ∧
    (s.dev.timerNext t = none → exec (.timerTick t) s = .next s) ∧
    (∀ y due, s.dev.timerNext t = some (y, due) → due.toNat ≤ s.dev.time.toNat →
      ∃ u, exec (.timerTick t) s = .next u ∧ (u.dev.timer t).cnt = y.cnt + 1 ∧
        (bit (s.dev.timerCtl t) 30 = false → (u.dev.timer t).base = due) ∧
        (bit (s.dev.timerCtl t) 30 = true → (u.dev.timer t).k = y.k + 1) ∧
        ∀ k, k ≠ t.val → u.dev.timer k = s.dev.timer k)

/-- R229, R232, R235 to R240: a START of an idle Marver reads its registers and either begins the first row, held where the
beam gate is closed, or ends at once with the code of the failing check; a row that is answered is written, and of an
operation that is not encoded no byte outside its pixels; a linear fill writes the fill value into each pixel; the last row
ends the operation; an abort, an error and an issued request unanswered end it with their codes, while a request that waits to
be issued has no limit; with no row in progress a starvation or a timeout changes nothing. Which address a failed row leaves,
and that a row is read and written in one step once its banks serve it, are the model's own readings
(notes/assumptions/30.md and 34.md). -/
def Obligations.MarverRunsItsRows : Prop :=
  ∀ (x : Marver) (s : State), s.dev.mrv = x →
    (∀ m : Fn, s.dev.mayWriteReg m .mrv 0 MRV_CTL →
      (x.state ≠ .idle →
        ∃ u, exec (.mrvStart m) s = .next u ∧ u.dev.mrv = { x with startErr := true } ∧ s.dev.onlyChanges u.dev [.mrv]) ∧
      (x.state = .idle →
        ∃ u, exec (.mrvStart m) s = .next u ∧ (∀ o ∈ mrvOpRegs, u.dev.mrv.reg o = s.dev.reg .mrv 0 o) ∧
          u.dev.mrv.ops = x.ops ∧
          if u.dev.mrv.fieldBad then u.dev.mrv.state = .idle ∧ u.dev.mrv.err = 1
          else if u.dev.mrv.alignBad then u.dev.mrv.state = .idle ∧ u.dev.mrv.err = 2
          else u.dev.mrv.rows = 0 ∧ u.dev.mrv.err = 0 ∧
            u.dev.mrv.state = (if u.dev.gateOpen then .running else .gated)) ∧
      (x.state = .running →
        ∃ u, exec (.mrvAbort m) s = .next u ∧ u.dev.mrv = { x with state := .aborting } ∧
          s.dev.onlyChanges u.dev [.mrv]) ∧
      (x.state = .gated →
        ∃ u, exec (.mrvAbort m) s = .next u ∧ u.dev.mrv.state = .idle ∧ u.dev.mrv.err = 8 ∧ u.dev.mem = s.dev.mem)) ∧
    (x.state = .running → x.wrote = true →
      ∃ u, exec .mrvRowComplete s = .next u ∧ u.dev.mrv.rows = x.rows + x.unit ∧ u.dev.mem = s.dev.mem ∧
        if x.h ≤ x.rows + x.unit then u.dev.mrv.state = .idle ∧ u.dev.mrv.err = 0 ∧ u.dev.mrv.ops = x.ops + 1
        else u.dev.mrv.wrote = false ∧ u.dev.mrv.ops = x.ops ∧
          u.dev.mrv.state = (if u.dev.gateOpen then .running else .gated)) ∧
    (x.state = .gated → s.dev.gateOpen = true →
      ∃ u, exec .gateRelease s = .next u ∧ u.dev.mrv = { x with state := .running, waitSince := s.dev.now } ∧
        s.dev.onlyChanges u.dev [.mrv]) ∧
    (x.waits = true →
      (s.dev.mrvServed = true →
        ∃ u, exec (.mrvResponse .error) s = .next u ∧ u.dev.mrv.state = .idle ∧ u.dev.mrv.err = 7 ∧
        u.dev.mrv.failAddr = BitVec.ofNat 64 x.requestAddr ∧ u.dev.mem = s.dev.mem) ∧
      (s.dev.mrvServed = true → x.enc = false →
        (∃ u, exec (.mrvResponse .ok) s = .next u ∧
          (u.dev.mrv.wrote = true ∧ u.dev.mrv.state = x.state ∨ u.dev.mrv.state = .idle ∧ u.dev.mrv.err ≠ 0) ∧
          ∀ k, (∀ c, c < x.w → outside k (x.dstAddr c x.line) (pixelSize x.dfmt)) → u.dev.memByte k = s.dev.memByte k) ∧
        (x.kind = 0 → x.dfmt ≠ 3 →
          (∀ c, c < x.w → s.dev.writeRes mrvMid (x.dstAddr c x.line) (pixelSize x.dfmt) = .ok) →
          ∃ u, exec (.mrvResponse .ok) s = .next u ∧ u.dev.mrv = { x with wrote := true, starved := false } ∧
            ∀ c i, c < x.w → i < pixelSize x.dfmt →
              u.dev.memByte (x.dstAddr c x.line + i) = (x.reg MRV_FILL).extractLsb' (8 * i) 8)) ∧
      (x.waitSince + 10000 ≤ s.dev.now →
        ∃ u, exec .mrvStarved s = .next u ∧ u.dev.mrv = { x with starved := true } ∧ s.dev.onlyChanges u.dev [.mrv]) ∧
      (∀ at' a, x.issued = some (at', a) → at' + s.dev.requestTimeout ≤ s.dev.now →
        ∃ u, exec .mrvTimeout s = .next u ∧ u.dev.mrv.state = .idle ∧ u.dev.mrv.err = 5 ∧
          u.dev.mrv.failAddr = BitVec.ofNat 64 a ∧ u.dev.mem = s.dev.mem)) ∧
    (x.issued = none → exec .mrvTimeout s = .next s) ∧
    (x.waits = false → exec .mrvTimeout s = .next s ∧ exec .mrvStarved s = .next s)

/-- R244 to R246, R250, R251: an enabled engine for which no scan waits is IDLE, and a disabled one drains, once the response
that is due has arrived or timed out, to OFF, or to IDLE where `EN` was written 1 meanwhile; a start that is allowed loads the extent and
the initial value, one that is not sets `ERR`, and one of an engine that is not idle counts in `CVU_OVR`; a stop ends the
scan; `FREL` takes a FENCED engine to OFF. -/
def Obligations.EnginesEnableStartAndStop : Prop :=
  ∀ (m : Fn) (e : EngineNo) (x : Engine) (s : State), s.dev.engine e = x →
    (s.dev.mayWriteReg m .cvu e CVU_CTL →
      (x.state = .off →
        ∃ u, exec (.cvuEnable m e) s = .next u ∧ (u.dev.engine e).en = true ∧
          (s.dev.waiters 0x11 19 e = [] → (u.dev.engine e).state = .idle) ∧
          ∀ k, k ≠ e.val → u.dev.engine k = s.dev.engine k) ∧
      (x.state = .idle ∨ x.state = .running →
        ∃ u, exec (.cvuDisable m e) s = .next u ∧ (u.dev.engine e).state = .draining ∧ (u.dev.engine e).en = false ∧
          (u.dev.engine e).scan = x.scan ∧
          (u.dev.engine e).due = decide (x.state = .running ∧ 0 < x.scan.left) ∧ ∀ k, k ≠ e.val → u.dev.engine k = s.dev.engine k) ∧
      (∀ a len, s.dev.pair .cvu e CVU_ADDR_LO = a → (s.dev.pair .cvu e CVU_LEN_LO).toNat % 2 ^ 40 = len →
        x.state = .idle → x.en = true →
        ∃ u, exec (.cvuStart m e) s = .next u ∧ (∀ k, k ≠ e.val → u.dev.engine k = s.dev.engine k) ∧
          if s.dev.startOk e a.toNat len then
            (u.dev.engine e).state = .running ∧ (u.dev.engine e).busy = true ∧ (u.dev.engine e).err = 0 ∧
              (u.dev.engine e).scan.addr = a ∧ (u.dev.engine e).scan.left = len ∧
              (u.dev.engine e).scan.seq = s.dev.reg .cvu e CVU_SEQ ∧ (u.dev.engine e).scan.mid = m.val ∧
              (u.dev.engine e).scan.width = s.dev.cvuWidth e
          else u.dev.engine e = { x with err := 1 }) ∧
      (x.state = .running → x.en = true →
        (∃ u, exec (.cvuStart m e) s = .next u ∧ u.dev.engine e = { x with ovr := x.ovr + 1 } ∧
          ∀ k, k ≠ e.val → u.dev.engine k = s.dev.engine k) ∧
        (x.scan.left ≠ 0 → s.dev.waiters 0x11 19 e = [] →
          ∃ u, exec (.cvuStop m e) s = .next u ∧ (u.dev.engine e).state = .idle ∧ (u.dev.engine e).err = 8 ∧
            (u.dev.engine e).scans = x.scans ∧ ∀ k, k ≠ e.val → u.dev.engine k = s.dev.engine k)) ∧
      (x.state = .fenced → s.dev.armed (PType.cvu.page + e) m = true →
        ∃ u, exec (.cvuFrel m e) s = .next u ∧ u.dev.engine e = { x with state := .off, en := false } ∧
          ∀ k, k ≠ e.val → u.dev.engine k = s.dev.engine k)) ∧
    (x.state = .draining → x.due = true →
      exec (.cvuDrainComplete e) s = .next s ∧
      (∀ r, ∃ u, exec (.scanResponse e r) s = .next u ∧ u.dev.engine e = { x with due := false } ∧
        s.dev.onlyChanges u.dev [.engines]) ∧
      (0 < x.scan.left → x.scan.issued + s.dev.requestTimeout ≤ s.dev.now →
        ∃ u, exec (.scanTimeout e) s = .next u ∧ u.dev.engine e = { x with due := false } ∧
          s.dev.onlyChanges u.dev [.engines, .mct])) ∧
    (x.state = .draining → x.due = false → x.enPending = true → s.dev.waiters 0x11 19 e = [] →
      ∃ u, exec (.cvuDrainComplete e) s = .next u ∧ (u.dev.engine e).state = .idle ∧ (u.dev.engine e).scans = x.scans ∧
        ∀ k, k ≠ e.val → u.dev.engine k = s.dev.engine k) ∧
    (x.state = .draining → x.due = false → x.enPending = false →
      ∃ u, exec (.cvuDrainComplete e) s = .next u ∧ (u.dev.engine e).state = .off ∧ (u.dev.engine e).scans = x.scans ∧
        (x.busy = true → (u.dev.engine e).err = 8) ∧ ∀ k, k ≠ e.val → u.dev.engine k = s.dev.engine k)

/-- R247 to R249, R252, R254: an answered read of a scan feeds the bytes of one 64-byte granule to the check value; with none within `DMA_TMO` the
scan ends with code 5 and scan-error fires; the end of the extent gives the result, compares it where asked, and
scan-mismatch fires where it differs; a parity error of an engine in which none is live fires CVU-engine, and fences the engine
where that is its reaction. A
write of a word of the witness table by the PF waits for the frame start, the low word of `EXPECT` waits for the high one,
and a locked region takes `EXPECT` alone; words that the device writes ignore it. Which address a failed read leaves, and
that `PROTECT` tests the words as written, are the model's own readings (notes/assumptions/30.md), as is that a request is
performed once its bank serves it (notes/assumptions/34.md). -/
def Obligations.ScansFeedCompareAndFail : Prop :=
  (∀ (e : EngineNo) (x : Engine) (s : State), s.dev.engine e = x →
    (x.state = .running → x.scan.left ≠ 0 →
      (∀ n, n = min x.scan.left (64 - x.scan.addr.toNat % 64) → s.dev.served 3 x.scan.addr.toNat n = true →
        s.dev.readRes x.scan.mid x.scan.addr.toNat n = .ok →
        ∃ u, exec (.scanResponse e .ok) s = .next u ∧ s.dev.onlyChanges u.dev [.engines, .mct, .cru, .flt] ∧
          (u.dev.engine e).scan.left = x.scan.left - n ∧
          (u.dev.engine e).scan.addr = x.scan.addr + BitVec.ofNat 64 n ∧
          (u.dev.engine e).scan.v = BitVec.ofNat 64 (crcFeed x.scan.params x.scan.v.toNat
            (s.dev.bytes x.scan.addr.toNat n)) ∧
          ∀ k, k ≠ e.val → u.dev.engine k = s.dev.engine k) ∧
      (x.scan.issued + s.dev.requestTimeout ≤ s.dev.now → s.dev.waiters 0x11 19 e = [] →
        ∃ u, exec (.scanTimeout e) s = .next u ∧ (u.dev.engine e).state = .idle ∧ (u.dev.engine e).err = 5 ∧
          (u.dev.engine e).failAddr = some (x.scan.addr &&& 0xFFFFFFFFFFFFFFC0) ∧ (u.dev.engine e).scans = x.scans ∧
          (∃ f ∈ u.dev.flt.arrivals, f.src = 481 ∧ f.inst = e.val) ∧ ∀ k, k ≠ e.val → u.dev.engine k = s.dev.engine k)) ∧
    (∀ res : Quad, x.state = .running → x.scan.left = 0 →
      res = BitVec.ofNat 64 (x.scan.params.result x.scan.v.toNat) →
      ∃ u, exec (.scanEnd e) s = .next u ∧ (u.dev.engine e).result = res ∧ (u.dev.engine e).scans = x.scans + 1 ∧
        (x.scan.compare = true → ((u.dev.engine e).hit = true ↔ res.toNat = x.scan.exp.toNat % 2 ^ x.scan.width)) ∧
        (x.scan.compare = true → res.toNat ≠ x.scan.exp.toNat % 2 ^ x.scan.width →
          ∃ f ∈ u.dev.flt.arrivals, f.src = 480 ∧ f.inst = e.val) ∧
        ∀ k, k ≠ e.val → u.dev.engine k = s.dev.engine k) ∧
    (x.state = .fenced ∨ x.parity = true → exec (.cvuEngineParity e) s = .next s) ∧
    (x.state ≠ .fenced → x.parity = false → ∃ u, exec (.cvuEngineParity e) s = .next u ∧ (∃ f ∈ u.dev.flt.arrivals, f.src = 482 ∧ f.inst = e.val) ∧
      (u.dev.engine e).state = (if s.dev.fences 482 = true ∧ x.state ≠ .off then .fenced else x.state) ∧
      ∀ k, k ≠ e.val → u.dev.engine k = s.dev.engine k)) ∧
  ∀ (r : RegionNo) (k : Fin 16) (w : Word) (x : Region) (s : State), s.dev.region r = x →
    s.dev.mayWrite 0 (0x1500000 + 64 * r + 4 * k) →
    ∃ u, exec (.witnessWrite 0 r k w) s = .next u ∧
      (∀ n, n ≠ r.val → u.dev.region n = s.dev.region n) ∧
      (u.dev.region r).words = x.words ∧
      if s.dev.flg .cvu 0 CVU_WCTL 1 = true ∧ bit (x.asRead 0) 0 = true ∧ k.val ≠ 10 ∧ k.val ≠ 11 then u.dev.region r = x
      else if k.val ≤ 9 then
        (u.dev.region r).asRead k = w &&& regionMask k ∧ (∀ j, j ≠ k.val → (u.dev.region r).asRead j = x.asRead j) ∧
          (u.dev.region r).expect = x.expect
      else if k.val = 10 then (u.dev.region r).heldLo = some w ∧ (u.dev.region r).expect = x.expect
      else if k.val = 11 then (u.dev.region r).expect = quad (x.heldLo.getD (lo32 x.expect)) w
      else (u.dev.region r).expect = x.expect ∧ ∀ j, (u.dev.region r).asRead j = x.asRead j

/-- R262 to R266, R269, R271, R272, R279, R306: a request that can be made, to installed GDDR7 that its windows allow, joins
its bank's queue behind all others, or waits outside where that is full or an older one of its master does; one they do not
allow is answered without effect, and an allowed one of another range is performed; a command slot issues the request that is
picked, and a whole-atom write stores its bytes and no others; a clean burst answers a read with the bytes read and merges a
partial write; two erasures in one beat answer with an error, store nothing and mark the atom; the answer to a tag that has a
later generation is dropped and counted. That an atom with two erasures stays marked, and that requests wait outside a full
queue in the order of their arrival, are the model's own readings (notes/assumptions/31.md and 34.md). -/
def Obligations.RequestsQueueIssueAndReturn : Prop :=
  (∀ (r : MemReq) (s : State), s.dev.mayRequest r = false → exec (.memoryRequest r) s = .next s) ∧
  (∀ (r : MemReq) (x : Gang) (b : Nat) (s : State), s.dev.mayRequest r = true → x = s.dev.gang (s.dev.gangOf (atomOf r)) →
    b = s.dev.bankOf (atomOf r) →
    (s.dev.allowed r.mid r.addr.toNat r.len r.data.isSome = true → s.dev.span r.addr.toNat r.len = .gddr →
      ∃ u, exec (.memoryRequest r) s = .next u ∧ s.dev.onlyChanges u.dev [.mct] ∧
        (∀ g, g ≠ s.dev.gangOf (atomOf r) → u.dev.gang g = s.dev.gang g) ∧
        if hasRoom r.cls.val (x.bankQueue b) = true ∧ (∀ o ∈ s.dev.mct.waiting, o.mid ≠ r.mid) then
          u.dev.mct.waiting = s.dev.mct.waiting ∧ u.dev.gang (s.dev.gangOf (atomOf r)) =
            x.setBankQueue b (raiseOlder r (x.bankQueue b) ++ [{ req := r, gen := (s.dev.tag r.tag).gen }])
        else u.dev.mct.waiting = s.dev.mct.waiting ++ [r] ∧ u.dev.gang (s.dev.gangOf (atomOf r)) = x) ∧
    (s.dev.allowed r.mid r.addr.toNat r.len r.data.isSome = false →
      ∃ u, exec (.memoryRequest r) s = .next u ∧ u.dev.mem = s.dev.mem ∧
        ∃ a ∈ u.dev.mct.returned, a.mid = r.mid.val ∧ a.tag = r.tag ∧ a.ok = false ∧
          ∀ y ∈ a.data, y = 0) ∧
    (s.dev.span r.addr.toNat r.len ≠ .gddr →
      (∀ bs, r.data = some bs → s.dev.writeRes r.mid r.addr.toNat r.len = .ok →
        ∃ u, exec (.memoryRequest r) s = .next u ∧
          (∀ k, outside k r.addr.toNat bs.length → u.dev.memByte k = s.dev.memByte k) ∧
          u.dev.mct.returned = s.dev.mct.returned ++ [{ mid := r.mid, tag := r.tag, ok := true, data := [] }]) ∧
      (r.data = none → s.dev.readRes r.mid r.addr.toNat r.len = .ok →
        ∃ u, exec (.memoryRequest r) s = .next u ∧ u.dev.mem = s.dev.mem ∧
          u.dev.mct.returned = s.dev.mct.returned ++
            [{ mid := r.mid, tag := r.tag, ok := true, data := s.dev.bytes r.addr.toNat r.len }]))) ∧
  (∀ (g : GangNo) (b : Nat) (q : BankReq) (x : Gang) (s : State), s.dev.mct.state = 2 → s.dev.gang g = x →
    (s.dev.pick x = none → exec (.commandSlot g) s = .next s) ∧
    (s.dev.pick x = some (b, q) →
      ∃ (u : State) (v : Dev), exec (.commandSlot g) s = .next u ∧ u.dev = v.admitWaiting ∧ u.dev.mem = v.mem ∧
        (v.gang g).bankQueue b = (x.bankQueue b).erase q ∧ (v.gang g).ptr = (b + 1) % 16 ∧
        (∀ k, k ≠ g.val → v.gang k = s.dev.gang k) ∧ v.mct.waiting = s.dev.mct.waiting ∧
        (s.dev.mct.waiting = [] → u.dev.gang g = v.gang g) ∧
        match q.req.data with
        | none => v.mem = s.dev.mem ∧ ∃ f, (v.gang g).inflight = x.inflight ++ [f] ∧ f.req = q.req ∧ f.gen = q.gen ∧
            f.bytes = s.dev.bytes (256 * atomOf q.req) 256
        | some bs => if q.req.len = 256 then
            (v.gang g).inflight.map (·.req) = x.inflight.map (·.req) ∧
              (∀ i (h : i < bs.length), v.memByte (q.req.addr.toNat + i) = bs[i]) ∧
              ∀ k, outside k q.req.addr.toNat bs.length → v.memByte k = s.dev.memByte k
          else v.mem = s.dev.mem ∧ ∃ f, (v.gang g).inflight = x.inflight ++ [f] ∧ f.req = q.req ∧ f.gen = q.gen ∧
            f.bytes = s.dev.bytes (256 * atomOf q.req) 256)) ∧
  ∀ (g : GangNo) (f : InFlight) (rest : List InFlight) (s : State), (s.dev.gang g).inflight = f :: rest →
    (s.dev.unavailable (atomOf f.req) = [] → f.bad = false → f.bytes.length = 256 →
      ∃ u, exec (.atomReadReturn g {}) s = .next u ∧ (u.dev.gang g).inflight = rest ∧
        (∀ k, k ≠ g.val → u.dev.gang k = s.dev.gang k) ∧ u.dev.mct.corrected = s.dev.mct.corrected ∧
        (if (s.dev.tag f.req.tag).gen = f.gen then u.dev.mct.late = s.dev.mct.late ∧
          ∃ a, u.dev.mct.returned = s.dev.mct.returned ++ [a] ∧ a.mid = f.req.mid.val ∧ a.tag = f.req.tag ∧ a.ok = true ∧
            (f.req.data = none → a.data = (f.bytes.drop (f.req.addr.toNat % 256)).take f.req.len)
         else u.dev.mct.late = s.dev.mct.late + 1 ∧ u.dev.mct.returned = s.dev.mct.returned ∧
          ∃ e ∈ u.dev.flt.arrivals, e.src = 518) ∧
        match f.req.data with
        | none => u.dev.mem = s.dev.mem
        | some bs => f.req.addr.toNat % 256 + bs.length ≤ 256 →
            (∀ k, k < 256 → u.dev.memByte (256 * atomOf f.req + k) =
              (mergeBytes f.bytes (f.req.addr.toNat % 256) bs).getD k 0) ∧
            ∀ k, outside k (256 * atomOf f.req) 256 → u.dev.memByte k = s.dev.memByte k) ∧
    ∀ p q t flips shadow, p < q → q < 17 → t ∈ beatsOf f.req →
      ∃ u, exec (.atomReadReturn g { linkFail := [(p, t), (q, t)], flips := flips, shadow := shadow }) s = .next u ∧
        u.dev.mem = s.dev.mem ∧ (u.dev.gang g).inflight = rest ∧
        u.dev.mct.uncorr = s.dev.mct.uncorr + 1 ∧ (∃ e ∈ u.dev.flt.arrivals, e.src = 513) ∧
        (f.covered = false → u.dev.mct.poison.contains (atomOf f.req) = true) ∧
        if (s.dev.tag f.req.tag).gen = f.gen then
          ∃ a ∈ u.dev.mct.returned, a.mid = f.req.mid.val ∧ a.tag = f.req.tag ∧ a.ok = false
        else u.dev.mct.returned = s.dev.mct.returned

/-- R273, R285 to R288, R290, R291: a refresh slot refreshes its bank, or postpones or forces the refresh while class 1
waits; an extra refresh pays a debt; a write probe that is due counts the mismatches of every TRACKING lane and leaves memory
alone, and is given up where its bank holds real-time requests; a full window judges one side of a read eye; a driver's retrain
of a TRACKING lane begins or waits, and its two results, the centres of the widest passing runs of its sweeps, wait for the
refresh window. That refresh slots are not held to their times, and that a probe is given up so, are the model's own readings
(notes/assumptions/4.md and 34.md). -/
def Obligations.RefreshesProbesAndRetrains : Prop :=
  (∀ (g : GangNo) (b : BankNo) (x : Gang) (s : State), s.dev.gang g = x → s.dev.mct.state = 2 →
    (∃ u, exec (.refreshSlot g) s = .next u ∧ (u.dev.gang g).slot = (x.slot % 16 + 1) % 16 ∧ u.dev.mem = s.dev.mem ∧
      (x.slot % 16 = b.val → b.val ≠ 0 → (∀ k, k ≠ g.val → u.dev.gang k = s.dev.gang k) ∧
        if x.urgent = false then FMap.get (fun _ => 0) (u.dev.gang g).refreshing b = s.dev.now + x.rfc ∧
          (u.dev.gang g).probeDue = x.probeDue.filter (· ≠ b.val) ++ [b.val] ∧ (u.dev.gang g).debt = x.debt
        else if x.debtOf b < x.debtMax then (u.dev.gang g).debtOf b = x.debtOf b + 1 ∧
          (u.dev.gang g).refreshing = x.refreshing ∧ u.dev.mct.postponed = s.dev.mct.postponed + 1
        else FMap.get (fun _ => 0) (u.dev.gang g).refreshing b = s.dev.now + x.rfc ∧ (u.dev.gang g).debt = x.debt ∧
          u.dev.mct.forced = s.dev.mct.forced + 1)) ∧
    (0 < x.debtOf b → x.holdsClass b 2 = false → s.dev.bankReady x b = true → FMap.get (fun _ => false) x.extra b = false →
      ∃ u, exec (.extraRefresh g b) s = .next u ∧ (u.dev.gang g).debtOf b = x.debtOf b - 1 ∧
        FMap.get (fun _ => 0) (u.dev.gang g).refreshing b = s.dev.now + x.rfc ∧
        (∀ k, k ≠ g.val → u.dev.gang k = s.dev.gang k) ∧ s.dev.onlyChanges u.dev [.mct]) ∧
    (∀ rest (i : ProbeInput), x.probeDue = b.val :: rest → s.dev.flg .lhr 0 LHR_CTL 1 = true → s.dev.bankReady x b = true →
      (∀ quiet, quiet = !x.holdsClass b (if (s.dev.retrainingLane g).isSome then 1 else 2) →
        (quiet = false → ∃ u, exec (.writeProbe g i) s = .next u ∧ u.dev.gang g = { x with probeDue := rest } ∧
          s.dev.onlyChanges u.dev [.mct]) ∧
        (quiet = true → i.save = {} → i.cut = false → s.dev.unavailable (trainingAtom g b) = [] →
          s.dev.mct.poison.contains (trainingAtom g b) = false →
          ∃ u, exec (.writeProbe g i) s = .next u ∧ (u.dev.gang g).probeDue = rest ∧
            (u.dev.gang g).probeRight = !x.probeRight ∧ u.dev.mem = s.dev.mem ∧
            ((if x.probeRight then x.probeR else x.probeL) < 63 → ∀ l ∈ gangLanes g,
              (s.dev.lane l).state = .tracking → (u.dev.lane l).cur = (s.dev.lane l).cur ∧
                (u.dev.lane l).wrL = (s.dev.lane l).wrL ∧ (u.dev.lane l).wrR = (s.dev.lane l).wrR ∧
                (u.dev.lane l).wrMisR = (s.dev.lane l).wrMisR + (if x.probeRight then diffOf i.diffs (l / 4) else 0) ∧
                (u.dev.lane l).wrMisL = (s.dev.lane l).wrMisL + if x.probeRight then 0 else diffOf i.diffs (l / 4)))))) ∧
  ∀ (l : LaneNo) (x : Lane) (s : State), s.dev.lane l = x →
    (∀ right, (if right then x.rdCntR else x.rdCntL) < 2 ^ s.dev.fld .lhr 0 LHR_CFG 3 0 →
      exec (.readWindowEnd l right) s = .next s) ∧
    (∀ right, s.dev.mct.state = 2 → s.dev.flg .lhr 0 LHR_CTL 0 = true → x.state = .tracking →
      2 ^ s.dev.fld .lhr 0 LHR_CFG 3 0 ≤ (if right then x.rdCntR else x.rdCntL) →
      ∃ u, exec (.readWindowEnd l right) s = .next u ∧
        (u.dev.lane l).rdR = (if right then s.dev.judge x.rdR x.rdMisR else x.rdR) ∧
        (u.dev.lane l).rdL = (if right then x.rdL else s.dev.judge x.rdL x.rdMisL) ∧ (u.dev.lane l).cur = x.cur ∧
        (u.dev.lane l).rdCntR = (if right then 0 else x.rdCntR) ∧ (u.dev.lane l).rdCntL = (if right then x.rdCntL else 0) ∧
        (s.dev.minEye ≤ (u.dev.lane l).rdL + (u.dev.lane l).rdR → (u.dev.lane l).state = .tracking)) ∧
    (∀ m : Fn, s.dev.mayWriteReg m .site (l / 4) (MCT_LANE_CTL + 0x20 * (l % 4)) →
      s.dev.armed (PType.site.page + l / 4) m = true → x.state = .tracking →
      ∃ u, exec (.laneRetrain m l) s = .next u ∧ (u.dev.lane l).cause = 3 ∧ (u.dev.lane l).cur = x.cur ∧
        ((u.dev.lane l).state = .waiting ∨ (u.dev.lane l).state = .retraining) ∧
        ∃ f ∈ u.dev.flt.arrivals, f.src = 544 ∧ f.inst = l.val) ∧
    (x.state = .retraining → x.found = none → x.sweep.rd.length = 128 → x.sweep.lo.length = 64 → x.sweep.hi.length = 64 →
      ∃ u, exec (.retrainReadDone l) s = .next u ∧ s.dev.onlyChanges u.dev [.mct] ∧
        ∃ f, u.dev.lane l = { x with found := some f } ∧
          f.set.rdDly = BitVec.ofNat 7 (sweepCentre x.cur.rdDly.toNat x.sweep.rd) ∧ f.set.wrDly = x.cur.wrDly ∧
          f.set.thrLo = BitVec.ofNat 6 (sweepCentre x.cur.thrLo.toNat x.sweep.lo) ∧
          f.set.thrHi = BitVec.ofNat 6 (sweepCentre x.cur.thrHi.toNat x.sweep.hi) ∧
          f.rdRun = (widestRun x.sweep.rd).2) ∧
    ∀ f, x.state = .retraining → x.found = some f → x.foundWr = false → x.sweep.wr.length = 128 →
      ∃ u, exec (.retrainWriteDone l) s = .next u ∧ s.dev.onlyChanges u.dev [.mct] ∧
        ∃ f', u.dev.lane l = { x with found := some f', foundWr := true } ∧
          f'.set = { f.set with wrDly := BitVec.ofNat 7 (sweepCentre x.cur.wrDly.toNat x.sweep.wr) } ∧
          f'.rdRun = f.rdRun ∧ f'.wrRun = (widestRun x.sweep.wr).2

/-- R275, R276: a driver fences a site with cause 3, its lanes enter OFF but for those DEAD, the spare is to take the first
position lost, and a second is lost; a rebuild that waits starts over from the first atom, without a grant while Faruo is
stopped, and each copy granted moves the pointer by one once its atom's bank serves it. That the start of a rebuild is not held
to a tick, and that a copy is read and written in one step, are the model's own readings (notes/assumptions/4.md and 34.md). -/
def Obligations.SitesAreFencedAndRebuilt : Prop :=
  (∀ (m : Fn) (k : SiteNo) (x : Site) (s : State), s.dev.site k = x → s.dev.mayWriteReg m .site k MCT_SITE_CTL →
    s.dev.armed (PType.site.page + k) m = true →
    ∃ u, exec (.mctSiteFence m k) s = .next u ∧ u.dev.mem = s.dev.mem ∧
      if x.fenced then u.dev.mct = s.dev.mct
      else (u.dev.site k).fenced = true ∧ (u.dev.site k).cause = 3 ∧ (u.dev.site k).errs = x.errs ∧
        (∀ n, n ≠ k.val → u.dev.site n = s.dev.site n) ∧
        (∀ j, j < 4 → (u.dev.lane (4 * k + j)).state =
          (if (s.dev.lane (4 * k + j)).state = .dead then .dead else .off)) ∧
        (k.val ≠ 17 → (∃ f ∈ u.dev.flt.arrivals, f.src = 515 ∧ f.inst = k.val) ∧
          (s.dev.mct.spare = .idle → s.dev.mct.gone = [] → u.dev.mct.spare = .pending k ∧ u.dev.mct.gone = []) ∧
          (∀ p, s.dev.mct.spare = .substituted p → u.dev.mct.gone = s.dev.mct.gone ++ [k.val])) ∧
        (k.val = 17 → s.dev.mct.spare = .idle → u.dev.mct.spare = .none ∧
          ∃ f ∈ u.dev.flt.arrivals, f.src = 516 ∧ f.inst = 17)) ∧
  (∀ (p : Nat) (s : State), s.dev.mct.spare = .pending p → s.dev.mct.state = 2 → s.dev.reevalBusy = false →
    s.dev.modePend = false → s.dev.rst.warm = 0 →
    ∃ u, exec .rebuildStart s = .next u ∧ u.dev.mct.spare = .rebuilding p ∧ u.dev.mct.ptr = 0 ∧ u.dev.mct.copied = 0 ∧
      u.dev.mct.grant = (if s.dev.svc.mode = .normal then 4096 * s.dev.fld .mct 0 MCT_RBLD 11 0 else 0) ∧
      (∀ g, g < 4 → (u.dev.gang g).switched = false) ∧ s.dev.onlyChanges u.dev [.mct]) ∧
  ∀ (p : Nat) (s : State), s.dev.mct.spare = .rebuilding p → s.dev.mct.state = 2 → 0 < s.dev.mct.grant →
    s.dev.mct.ptr < s.dev.atomCount → s.dev.bankServes 2 (s.dev.atomAtIndex s.dev.mct.ptr) = true →
    ∀ burst : BurstInput, ∃ u, exec (.rebuildCopy burst) s = .next u ∧ u.dev.mct.ptr = s.dev.mct.ptr + 1 ∧
      u.dev.mct.grant = s.dev.mct.grant - 1 ∧ u.dev.mct.copied = s.dev.mct.copied + 1 ∧
      (burst.linkFail = [] → u.dev.mct.spare = .rebuilding p) ∧ u.dev.mem = s.dev.mem

/-- R300, R302: the check of a group that a consumer reads corrects and counts a single-bit error, and counts an uncorrectable one, whose
row is due for sparing, and a word of a pipe's table memory found so reads as 0 in that pipe until it is written; a granted
scrub read moves to the next group; a row that is due takes one of its macro's two spare
rows, and with none left stays in use. -/
def Obligations.CrucibleChecksScrubsAndSpares : Prop :=
  (∀ (g : CruGroup) (who : CruConsumer) (s : State), s.dev.reads who (s.dev.cruOffset g.mac g.row g.grp) = true →
    exec (.crucibleRead g .clean who) s = .next s ∧
    (∀ w, who = .localMem (some w) → ∃ u, exec (.crucibleRead g .uncorrectable who) s = .next u ∧
      ((Config.macroOwner g.mac).val, w) ∈ u.dev.cru.badLocal ∧ ∀ e ∈ s.dev.cru.badLocal, e ∈ u.dev.cru.badLocal) ∧
    (∃ u, exec (.crucibleRead g .single who) s = .next u ∧ u.dev.cru.corrected = s.dev.cru.corrected + 1 ∧
      u.dev.cru.uncorr = s.dev.cru.uncorr ∧ (∃ f ∈ u.dev.flt.arrivals, f.src = 192 ∧ f.inst = g.mac.val) ∧
      s.dev.onlyChanges u.dev [.cru, .flt]) ∧
    ∃ u, exec (.crucibleRead g .uncorrectable who) s = .next u ∧ u.dev.cru.corrected = s.dev.cru.corrected ∧
      ((∀ c, who ≠ .stagingAtLatch c) → u.dev.cru.uncorr = s.dev.cru.uncorr + 1) ∧ (∃ f ∈ u.dev.flt.arrivals, f.src = 193 ∧ f.inst = g.mac.val) ∧
      (u.dev.cru.due.contains (rowKey g.mac g.row) = true ∨ s.dev.cru.stuck.contains (rowKey g.mac g.row) = true)) ∧
  (∀ s : State, 0 < s.dev.cru.scrubGrant →
    ∃ u, exec (.scrubRead .clean) s = .next u ∧ u.dev.cru.scrubGrant = s.dev.cru.scrubGrant - 1 ∧
      (if s.dev.cru.scrubPtr + 1 = scrubGroups then u.dev.cru.scrubPtr = 0 ∧ u.dev.cru.passes = s.dev.cru.passes + 1
       else u.dev.cru.scrubPtr = s.dev.cru.scrubPtr + 1 ∧ u.dev.cru.passes = s.dev.cru.passes) ∧
      s.dev.onlyChanges u.dev [.cru]) ∧
  ∀ (mac : Fin 1536) (row : Fin 512) (s : State), s.dev.cru.due.contains (rowKey mac row) = true →
    ∃ u, exec (.rowSpare mac row) s = .next u ∧ u.dev.cru.due = s.dev.cru.due.filter (· ≠ rowKey mac row) ∧
      if FMap.get (fun _ => 0) s.dev.cru.spares mac < 2 then
        FMap.get (fun _ => 0) u.dev.cru.spares mac = FMap.get (fun _ => 0) s.dev.cru.spares mac + 1 ∧
          u.dev.cru.stuck = s.dev.cru.stuck
      else u.dev.cru.stuck = s.dev.cru.stuck ++ [rowKey mac row] ∧ u.dev.cru.spares = s.dev.cru.spares

/-- R314, R317: a write of `ACC_SEL` loads the selected entry into the data registers, a reserved index keeping the one
before; a write of `ACC_DATA3` commits the four data words to the entry as one change, or sets `SEL_ERR` where they hold a
reserved encoding; no other entry changes; `LOCK` is set by a write of 1. That a reserved index keeps the one before is the
model's own reading (notes/assumptions/24.md). -/
def Obligations.AccessTablesCommitOneEntry : Prop :=
  ∀ (m : Fn) (w : Word) (s : State),
    (s.dev.mayWriteReg m .acc 0 ACC_SEL →
      ∃ u, exec (.accSelWrite m w) s = .next u ∧ s.dev.onlyChanges u.dev [.regs] ∧
        (if selOk (selTable w) (selIdx w) then u.dev.reg .acc 0 ACC_SEL = w &&& 0xB00007FF
         else u.dev.reg .acc 0 ACC_SEL = (w &&& 0xB0000000) ||| (s.dev.view .acc 0 ACC_SEL &&& 0x7FF)) ∧
        (selOk (selTable w) (selIdx w) = true →
          (u.dev.reg .acc 0 ACC_DATA, u.dev.reg .acc 0 (ACC_DATA + 4), u.dev.reg .acc 0 (ACC_DATA + 8),
            u.dev.reg .acc 0 (ACC_DATA + 12)) = s.dev.acc.entry (selTable w) (selIdx w))) ∧
    (∀ (e : AccEntry) (t i : Nat), s.dev.mayWriteReg m .acc 0 (ACC_DATA + 12) → s.dev.acc.lock = false →
      e = (s.dev.reg .acc 0 ACC_DATA, s.dev.reg .acc 0 (ACC_DATA + 4), s.dev.reg .acc 0 (ACC_DATA + 8), w) →
      t = selTable (s.dev.reg .acc 0 ACC_SEL) → i = selIdx (s.dev.reg .acc 0 ACC_SEL) →
      ∃ u, exec (.accData3Commit m w) s = .next u ∧ s.dev.onlyChanges u.dev [.regs, .acc] ∧ u.dev.acc.lock = false ∧
        if selOk t i = true ∧ entryOk t e = true then
          u.dev.acc.selErr = false ∧ u.dev.acc.entry t i = entryKept t e ∧
            (∀ j, j ≠ i → u.dev.acc.entry t j = s.dev.acc.entry t j) ∧
            ∀ k j, k < 4 → k ≠ t → u.dev.acc.entry k j = s.dev.acc.entry k j
        else u.dev.acc = { s.dev.acc with selErr := true }) ∧
    (s.dev.mayWriteReg m .acc 0 ACC_CTL → s.dev.acc.lock = false →
      ∃ u, exec (.lock m) s = .next u ∧ u.dev.acc = { s.dev.acc with lock := true } ∧ s.dev.onlyChanges u.dev [.acc])

/-- R314, R316: while `LOCK` reads 1, no command but a cold reset and the end of a warm one clears it or changes an access table. -/
def Obligations.LockStandsUntilAReset : Prop :=
  ∀ (i : Instr) (s u : State), exec i s = .next u → i ≠ .coldReset → i ≠ .warmResetComplete → s.dev.acc.lock = true →
    u.dev.acc.lock = true ∧ u.dev.acc.windows = s.dev.acc.windows ∧ u.dev.acc.scene = s.dev.acc.scene ∧
      u.dev.acc.surface = s.dev.acc.surface ∧ u.dev.acc.rights = s.dev.acc.rights

/-- R338, R339, R344, R346 to R348: an arriving firing sets its source's sticky bit and counts; an entry written takes the next sequence
number and its slot alone; a window's end gives each source that suppressed firings its summary; a sticky bit clears by a
write of 1 where its cause is over; a read of the log copies one slot. -/
def Obligations.FaultsBecomeLogEntries : Prop :=
  (∀ (f : Firing) (rest : List Firing) (s : State), s.dev.collects = true → s.dev.flt.arrivals = f :: rest →
    ∃ u, exec .faultArrival s = .next u ∧ s.dev.onlyChanges u.dev [.flt] ∧ u.dev.flt.arrivals = rest ∧
      FMap.get (fun _ => false) u.dev.flt.sticky f.src = true ∧
      (f.src ≠ 1 → FMap.get (fun _ => 0) u.dev.flt.count f.src = FMap.get (fun _ => 0) s.dev.flt.count f.src + 1) ∧
      (∀ n, n ≠ f.src → n ≠ 1 →
        FMap.get (fun _ => false) u.dev.flt.sticky n = FMap.get (fun _ => false) s.dev.flt.sticky n) ∧
      ((s.dev.srcCfg f.src).react = 0 → u.dev.flt.queue = s.dev.flt.queue) ∧
      ((s.dev.srcCfg f.src).react ≠ 0 → 2 ≤ srcSev f.src → { f with ts := s.dev.time } ∈ u.dev.flt.queue) ∧
      u.dev.flt.log = s.dev.flt.log ∧ u.dev.flt.wseq = s.dev.flt.wseq) ∧
  (∀ (f : Firing) (rest : List Firing) (s : State), s.dev.collects = true → s.dev.flt.queue = f :: rest →
    ∃ u, exec .logEntryWrite s = .next u ∧ u.dev.flt.wseq = s.dev.flt.wseq + 1 ∧
      (∀ k, FMap.get (fun _ => none) u.dev.flt.log k = if k = s.dev.flt.wseq.toNat % 4096 then some (s.dev.flt.wseq, f)
        else FMap.get (fun _ => none) s.dev.flt.log k) ∧
      (s.dev.flt.overflow = none → u.dev.flt.queue = rest) ∧ u.dev.flt.sticky = s.dev.flt.sticky) ∧
  (∀ s : State, s.dev.collects = true → s.dev.flt.window < s.dev.time.toNat / 1000000 →
    ∃ u, exec .coalWindowEnd s = .next u ∧ s.dev.onlyChanges u.dev [.flt] ∧
      u.dev.flt.window = s.dev.time.toNat / 1000000 ∧ u.dev.flt.coal = [] ∧ u.dev.flt.log = s.dev.flt.log ∧
      u.dev.flt.sticky = s.dev.flt.sticky ∧
      (∀ e ∈ s.dev.flt.coal, e.2.suppressed ≠ 0 → e.2.last ≠ none →
        ∃ g ∈ u.dev.flt.queue, g.src = e.1 ∧ g.coal = true) ∧
      ∀ g ∈ s.dev.flt.queue, g ∈ u.dev.flt.queue) ∧
  (∀ (m : Fn) (k : Fin 32) (w : Word) (s : State), s.dev.mayWriteReg m .flt 0 (FLT_STICKY + 4 * k) →
    ∃ u, exec (.stickyClear m k w) s = .next u ∧ s.dev.onlyChanges u.dev [.flt] ∧
      (∀ n, FMap.get (fun _ => false) u.dev.flt.sticky n = (FMap.get (fun _ => false) s.dev.flt.sticky n &&
        !(n / 32 = k && bit w (n % 32) && !s.dev.liveCause n))) ∧
      u.dev.flt.count = s.dev.flt.count ∧ u.dev.flt.log = s.dev.flt.log) ∧
  ∀ (m : Fn) (q : Word) (s : State), s.dev.mayWriteReg m .log 0 LOG_RD_SEQ →
    ∃ u, exec (.logRdSeq m q) s = .next u ∧ s.dev.onlyChanges u.dev [.regs, .flt] ∧ u.dev.flt.rdDone = true ∧
      u.dev.flt.rdMid = m.val ∧ u.dev.flt.log = s.dev.flt.log ∧
      u.dev.flt.rdWords = logWords srcSev (FMap.get (fun _ => none) s.dev.flt.log (q.toNat % 4096)) ∧
      (u.dev.flt.rdMatch = true ↔ ∃ f, FMap.get (fun _ => none) s.dev.flt.log (q.toNat % 4096) = some (q, f))

/-- R353 to R358, R360 to R362: a tick kicks the watchdog and takes up the waiting command with its arguments, or answers it
BUSY or OPCODE; with no kick the core restarts, abandons the command in hand, and on the third restart within 10 s boots the
other slot where that is valid; a trial that does not kick returns to the slot before; and each mailbox command that was taken
up is answered, with its effect, with FLASH where the flash reports an error, or with STATE where the mode or the stage does not
allow it; one that was not taken up does nothing. The order within a tick, the bound of BUSY, the commands that meet a flash
error, the lengths of an image and the time of an activation are the model's own readings (notes/assumptions/21.md). -/
def Obligations.FaruoTicksAndAnswers : Prop :=
  ∀ (v : Svc) (s : State), s.dev.svc = v →
    (∀ i : TickInput, s.dev.collects = true → v.tickNo < s.dev.time.toNat / 1000000 →
      ∃ u, exec (.faruoTick i) s = .next u ∧ u.dev.svc.lastKick = s.dev.now ∧ u.dev.svc.trial = none ∧
        u.dev.svc.mode = (if v.mode = .restarting then .normal else v.mode) ∧
        u.dev.svc.tickNo = s.dev.time.toNat / 1000000 + (ceilDiv i.tier0Us 1000 - 1) ∧
        (v.mb = 1 → v.taken = false → u.dev.svc.op = v.op ∧
          if 700 < i.tier0Us then u.dev.svc.mb = 2 ∧ u.dev.svc.result = 1
          else if v.op = 0 ∨ 7 < v.op then u.dev.svc.mb = 2 ∧ u.dev.svc.result = 2
          else u.dev.svc.mb = 1 ∧ u.dev.svc.taken = true ∧
            u.dev.svc.args = (List.range 4).map fun m => s.dev.reg .svc 0 (SVC_MB_ARG + 4 * m))) ∧
    (s.dev.collects = true → v.mode = .normal → v.lastKick + 1000000 * s.dev.fld .svc 0 SVC_WD 6 0 ≤ s.dev.now →
      ∃ u, exec .serviceWatchdog s = .next u ∧ u.dev.svc.mode = .restarting ∧ u.dev.svc.restarts = v.restarts + 1 ∧
        u.dev.svc.lastKick = s.dev.now ∧ u.dev.cru.scrubGrant = 0 ∧ (∃ f ∈ u.dev.flt.arrivals, f.src = 128) ∧
        (v.mb = 1 → u.dev.svc.mb = 2 ∧ u.dev.svc.result = 6) ∧
        if 2 ≤ (v.restartTimes.filter fun t => s.dev.now < t + 10000000000).length ∧
            (s.dev.slot (1 - v.slot)).image.isSome = true then
          u.dev.svc.slot = 1 - v.slot ∧ u.dev.svc.fellBack = true ∧ u.dev.svc.stage = {}
        else u.dev.svc.slot = v.slot ∧ u.dev.svc.fellBack = v.fellBack ∧ u.dev.svc.stage = v.stage) ∧
    (∀ t p, v.trial = some (t, p) → t + 500000000 ≤ s.dev.now →
      ∃ u, exec .activationWatchdog s = .next u ∧ u.dev.svc.slot = p ∧ u.dev.svc.trial = none ∧
        u.dev.svc.mode = .restarting ∧ (u.dev.slot v.slot).image = none ∧
        s.dev.onlyChanges u.dev [.svc, .flt, .cru]) ∧
    (v.taken = false → exec .getSensor s = .next s ∧ exec .setThresh s = .next s ∧ exec .logExport s = .next s ∧
      exec .getStatus s = .next s ∧ (∀ e, exec (.getVersion e) s = .next s ∧ exec (.fwActivate e) s = .next s) ∧
      ∀ h e, exec (.fwStage h e) s = .next s) ∧
    (v.taken = true → v.mode = .recovery →
      (v.op = 2 → ∃ u, exec .getSensor s = .next u ∧ u.dev.svc.mb = 2 ∧ u.dev.svc.result = 7) ∧
      (v.op = 3 → ∃ u, exec .setThresh s = .next u ∧ u.dev.svc.mb = 2 ∧ u.dev.svc.result = 7) ∧
      (v.op = 6 → ∃ u, exec .logExport s = .next u ∧ u.dev.svc.mb = 2 ∧ u.dev.svc.result = 7)) ∧
    (v.taken = true →
      (v.op = 1 → ∃ u, exec (.getVersion true) s = .next u ∧ u.dev.svc.mb = 2 ∧ u.dev.svc.result = 5) ∧
      (v.op = 4 → (v.stage.busy || v.fellBack) = true → ∀ h e,
        ∃ u, exec (.fwStage h e) s = .next u ∧ u.dev.svc.mb = 2 ∧ u.dev.svc.result = 7 ∧ u.dev.svc.stage = v.stage) ∧
      (v.op = 4 → v.stage.busy = false → v.fellBack = false → 0x100000 ≤ (s.dev.mbArg 2).toNat →
        (s.dev.mbArg 2).toNat ≤ 0x800000 →
        (∀ h, ∃ u, exec (.fwStage h true) s = .next u ∧ u.dev.svc.mb = 2 ∧ u.dev.svc.result = 5 ∧
          u.dev.svc.stage = v.stage) ∧
        ∃ u, exec (.fwStage none false) s = .next u ∧ u.dev.svc.mb = 2 ∧ u.dev.svc.result = 4 ∧
          u.dev.svc.stage = v.stage) ∧
      (v.op = 5 → v.stage.verified = false → ∀ e,
        ∃ u, exec (.fwActivate e) s = .next u ∧ u.dev.svc.mb = 2 ∧ u.dev.svc.result = 7 ∧ u.dev.svc.slot = v.slot) ∧
      (v.op = 5 → v.stage.verified = true →
        (∃ u, exec (.fwActivate true) s = .next u ∧ u.dev.svc.mb = 2 ∧ u.dev.svc.result = 5 ∧ u.dev.svc.slot = v.slot) ∧
        (v.mode = .recovery →
          ∃ u, exec (.fwActivate false) s = .next u ∧ u.dev.svc.mb = 2 ∧ u.dev.svc.result = 0 ∧ u.dev.svc.slot = v.slot ∧
            u.dev.svc.activated = true ∧ s.dev.onlyChanges u.dev [.svc]))) ∧
    (v.taken = true →
      (v.op = 1 → ∃ u, exec (.getVersion false) s = .next u ∧ u.dev.svc.mb = 2 ∧ u.dev.svc.result = 0 ∧
        u.dev.svc.rsp = [slotVersion (s.dev.slot v.slot), slotVersion (s.dev.slot (1 - v.slot)), place 0 0 v.slot,
          (s.dev.slot v.slot).generation] ∧ s.dev.onlyChanges u.dev [.svc]) ∧
      (v.op = 2 → v.mode ≠ .recovery → bit (s.dev.mbArg 0) 4 = false →
        ∃ u, exec .getSensor s = .next u ∧ u.dev.svc.mb = 2 ∧ u.dev.svc.result = 0 ∧
          u.dev.svc.rsp[0]? = some (ofInt 32 (v.temps.getD (bits (s.dev.mbArg 0) 3 0) {}).now) ∧
          s.dev.onlyChanges u.dev [.svc]) ∧
      (v.op = 3 → v.mode ≠ .recovery →
        ∃ u, exec .setThresh s = .next u ∧ u.dev.svc.mb = 2 ∧ s.dev.onlyChanges u.dev [.svc] ∧
          ∀ a b c, a = ((s.dev.mbArg 0).extractLsb' 0 16).toInt → b = ((s.dev.mbArg 1).extractLsb' 0 16).toInt →
            c = bits (s.dev.mbArg 2) 7 0 →
            if 960 ≤ a ∧ a < b ∧ b ≤ 2000 ∧ 1 ≤ c ∧ c ≤ 20 then u.dev.svc.result = 0 ∧ u.dev.svc.warnT = a ∧
              u.dev.svc.critT = b ∧ u.dev.svc.tol = c
            else u.dev.svc.result = 3 ∧ u.dev.svc.warnT = v.warnT ∧ u.dev.svc.critT = v.critT ∧ u.dev.svc.tol = v.tol) ∧
      (∀ h : ImageHeader, v.op = 4 → v.stage.busy = false → v.fellBack = false → 0x100000 ≤ (s.dev.mbArg 2).toNat →
        (s.dev.mbArg 2).toNat ≤ 0x800000 →
        s.dev.readRes 64 (quad (s.dev.mbArg 0) (s.dev.mbArg 1)).toNat (s.dev.mbArg 2).toNat = .ok →
        ∃ u, exec (.fwStage (some h) false) s = .next u ∧ u.dev.svc.mb = 2 ∧ u.dev.svc.result = 0 ∧
          u.dev.svc.stage = { image := some h } ∧ s.dev.onlyChanges u.dev [.svc]) ∧
      (v.op = 5 → v.stage.verified = true → v.mode ≠ .recovery →
        ∃ u, exec (.fwActivate false) s = .next u ∧ u.dev.svc.mb = 2 ∧ u.dev.svc.result = 0 ∧ u.dev.svc.slot = 1 - v.slot ∧
          u.dev.svc.mode = .restarting ∧ u.dev.svc.trial = some (s.dev.now, v.slot) ∧
          s.dev.onlyChanges u.dev [.svc, .cru]) ∧
      (v.op = 6 → v.mode ≠ .recovery →
        ∃ u, exec .logExport s = .next u ∧ u.dev.svc.mb = 2 ∧ s.dev.onlyChanges u.dev [.svc] ∧
          ∀ n a, n = bits (s.dev.mbArg 2) 4 0 → a = quad (s.dev.mbArg 0) (s.dev.mbArg 1) →
            (n = 0 → u.dev.svc.result = 0 ∧ u.dev.svc.exportOn = false) ∧
            (6 ≤ n → n ≤ 16 → a.toNat % 64 = 0 → 0x8000000000000000 ≤ a.toNat →
              u.dev.svc.result = 0 ∧ u.dev.svc.exportOn = true ∧ u.dev.svc.exportAddr = a ∧ u.dev.svc.exportLog2 = n)) ∧
      (v.op = 7 → ∃ u, exec .getStatus s = .next u ∧ u.dev.svc.mb = 2 ∧ u.dev.svc.result = 0 ∧
        u.dev.svc.rsp = [flag 9 v.stage.failed ||| flag 8 v.stage.verified ||| place 7 0 v.stage.progress, v.exportNext,
          v.exportSkip, place 7 0 v.peak] ∧ u.dev.svc.peak = 0 ∧ s.dev.onlyChanges u.dev [.svc]))

/-- R151, R367, R369 to R371: a write of `CKR_CCLK` raises or lowers the clock in steps of 50 MHz; a PLL locks, and
ref-PLL-unlock fires where a canvas uses one that unlocks; an active edge of `PPS_IN` measures the error and makes or
refuses a pending load; 1.5 s without one fires PPS-lost. That a step of CCLK is not held to a time is the model's own
reading (notes/assumptions/4.md). -/
def Obligations.ClocksStepLockAndAlign : Prop :=
  ∀ s : State,
    (∀ (m : Fn) (w : BitVec 11), s.dev.mayWriteReg m .ckr 0 CKR_CCLK → s.dev.armed PType.ckr.page m = true →
      s.dev.clk.change = 0 → 800 ≤ w.toNat → w.toNat ≤ 1600 → w.toNat % 50 = 0 →
      ∃ u, exec (.cclkChange m w) s = .next u ∧ u.dev.cclkTarget = w.toNat ∧ u.dev.clk.cclk = s.dev.clk.cclk ∧
        u.dev.clk.change = (if w.toNat < s.dev.clk.cclk then 1 else if s.dev.clk.cclk < w.toNat then 3 else 0)) ∧
    (s.dev.clk.change = 3 →
      ∃ u, exec .cclkStep s = .next u ∧ u.dev.clk.cclk = min s.dev.cclkTarget (s.dev.clk.cclk + 50) ∧
        (u.dev.clk.change = 4 ↔ u.dev.clk.cclk = s.dev.cclkTarget) ∧ s.dev.onlyChanges u.dev [.clk, .scene]) ∧
    (s.dev.clk.change = 2 ∨ s.dev.clk.change = 1 ∧ s.dev.reevalBusy = false ∧ s.dev.modePend = false →
      ∃ u, exec .cclkStep s = .next u ∧ u.dev.clk.cclk = max s.dev.cclkTarget (s.dev.clk.cclk - 50) ∧
        (u.dev.clk.change = 0 ↔ u.dev.clk.cclk = s.dev.cclkTarget) ∧ s.dev.onlyChanges u.dev [.clk]) ∧
    (∀ k : PllNo,
      (s.dev.flg .ckr 0 (CKR_PLL + 4 * k) 31 = true →
        ∃ u, exec (.pllLocked k) s = .next u ∧ s.dev.onlyChanges u.dev [.clk] ∧
          ∀ j, u.dev.pllLocked j = (j = k.val || s.dev.pllLocked j)) ∧
      (s.dev.pllLocked k = true →
        ∃ u, exec (.pllUnlock k) s = .next u ∧ (∀ j, u.dev.pllLocked j = (j ≠ k.val && s.dev.pllLocked j)) ∧
          s.dev.onlyChanges u.dev [.clk, .flt] ∧
          (s.dev.pllBusy k = true → ∃ f ∈ u.dev.flt.arrivals, f.src = 64 ∧ f.inst = k.val))) ∧
    (∀ e : Bool, s.dev.tb.run = true → s.dev.flg .tmb 0 TMB_CTL 31 = true → e ≠ s.dev.flg .tmb 0 TMB_CTL 30 →
      (∀ a ∈ s.dev.tb.accepted, a + 500000000 ≤ s.dev.now) →
      ∃ u, exec (.ppsEdge e) s = .next u ∧ s.dev.onlyChanges u.dev [.tb] ∧ u.dev.tb.since = s.dev.now ∧
        u.dev.tb.accepted = some s.dev.now ∧
        u.dev.tb.edge = u.dev.tb.count ∧ u.dev.tb.edgeErr = ppsError u.dev.tb.count ∧ u.dev.tb.loadPend = false ∧
        u.dev.tb.count = (if s.dev.tb.loadPend = true ∧ s.dev.tb.count.toNat ≤ (s.dev.pair .tmb 0 TMB_SET_LO).toNat then
          s.dev.pair .tmb 0 TMB_SET_LO else s.dev.tb.count)) ∧
    (s.dev.flg .tmb 0 TMB_CTL 31 = true → s.dev.tb.lost = false → s.dev.tb.since + 1500000000 ≤ s.dev.now →
      ∃ u, exec .ppsLost s = .next u ∧ u.dev.tb = { s.dev.tb with lost := true } ∧
        (∃ f ∈ u.dev.flt.arrivals, f.src = 96) ∧ s.dev.onlyChanges u.dev [.tb, .flt]) ∧
    ∀ m : Fn, s.dev.mayWriteReg m .tmb 0 TMB_CTL → s.dev.armed PType.tmb.page m = true →
      ∃ u, exec (.tmbLoad m) s = .next u ∧ u.dev.tb.loadPend = true ∧ u.dev.tb.loadErr = false ∧
        u.dev.tb.count = s.dev.tb.count ∧ s.dev.onlyChanges u.dev [.regs, .tb]

/-- R151, R273, R282 to R284, R301, R356, R357, R372 to R375, R377, R378: a cold reset leaves the flash and host memory;
start-up goes from the rise of `RESET_N` by way of boot, the start-up test and training to ready; the boot ROM tries the slot
that recovery mode has activated, or the one with the higher generation, and then the other; training gives every lane what its
sweeps choose, and fences the site of one with too small an eye; without stable clocks start-up is not defined; a warm trigger
of a ready device stops its units, and its completion clears the access tables and fires; a function-level reset of a VF
disables its queues, and its ring where none of them drains first, and clears its windows. What a reset keeps beyond the table
of R374, that the board may have written the flash, and that triggers are ignored before ready, are the model's own readings
(notes/assumptions/22.md). -/
def Obligations.ResetsAndStartUpGoInOrder : Prop :=
  ∀ s : State,
    (∃ u, exec .coldReset s = .next u ∧ u.dev.rst.phase = .reset ∧ u.dev.svc.slots = s.dev.svc.slots ∧
      u.dev.svc.activated = s.dev.svc.activated ∧
      u.dev.acc = {} ∧ u.dev.regs = {} ∧ u.dev.queues = [] ∧ u.dev.canvases = [] ∧
      u.dev.mem = s.dev.mem.filter fun e => decide (0x8000000000000000 ≤ e.1)) ∧
    (∀ straps, s.dev.rst.phase = .reset →
      exec (.resetNRise false straps) s = .fault .startUpUndefined ∧
      ∃ u, exec (.resetNRise true straps) s = .next u ∧ u.dev.rst.phase = .rom ∧ u.dev.tb.run = true ∧
        u.dev.tb.count = 0 ∧ u.dev.pins.straps = straps) ∧
    (∀ (a b : Option Slot) (x0 x1 x y : Slot) (k : Nat), s.dev.rst.phase = .rom → x0 = a.getD (s.dev.slot 0) →
      x1 = b.getD (s.dev.slot 1) →
      k = (if s.dev.svc.activated then 1 - s.dev.svc.slot else if x0.generation.toNat < x1.generation.toNat then 1 else 0) →
      (x, y) = (if k = 1 then (x1, x0) else (x0, x1)) →
      ∃ u, exec (.bootAuthentication a b) s = .next u ∧ u.dev.rst.phase = .booted ∧
        (x.image = none → y.image = none → u.dev.svc.mode = .recovery) ∧
        (∀ h, x.image = some h → u.dev.svc.mode = .normal ∧ u.dev.svc.slot = k ∧ u.dev.svc.fellBack = false ∧
          u.dev.clk.cclk = h.cclk) ∧
        ∀ h, x.image = none → y.image = some h → u.dev.svc.mode = .normal ∧ u.dev.svc.slot = 1 - k ∧
          u.dev.svc.fellBack = true ∧ u.dev.clk.cclk = h.cclk) ∧
    (s.dev.rst.phase = .booted → s.dev.svc.mode ≠ .recovery →
      ∃ u, exec (.bistComplete []) s = .next u ∧ u.dev.rst.phase = .tested ∧ u.dev.mct.state = 1 ∧
        u.dev.cru = s.dev.cru ∧ s.dev.onlyChanges u.dev [.rst, .mct]) ∧
    (∀ (lanes : List LanePasses) (timing : MemTiming), s.dev.rst.phase = .tested →
      ∃ u, exec (.memoryTrainingComplete lanes timing) s = .next u ∧ u.dev.rst.phase = .trained ∧ u.dev.mct.state = 2 ∧
        (s.dev.flg .ckr 0 CKR_PLL 31 = true → u.dev.pllLocked 0 = true) ∧
        bits (u.dev.reg .mct 0 MCT_REF) 25 16 = timing.rfc.toNat % 1024 ∧
        bits (u.dev.reg .mct 0 MCT_REF) 9 0 = timing.int.toNat % 1024 ∧
        (∀ (l : Nat) (p : LanePasses) (r : LaneResult), l < 72 → lanes[l]? = some p →
          r = trainedLane p (s.dev.lane l).cur → (u.dev.lane l).cur = r.set ∧
            (r.rdRun < s.dev.minEye ∨ r.wrRun < s.dev.minEye →
              (u.dev.lane l).state = .dead ∧ (u.dev.site (l / 4)).fenced = true)) ∧
        (72 ≤ lanes.length → (∀ j, j < 18 → (s.dev.site j).fenced = false) →
          (∀ (l : Nat) (p : LanePasses), lanes[l]? = some p → s.dev.minEye ≤ (trainedLane p (s.dev.lane l).cur).rdRun ∧
            s.dev.minEye ≤ (trainedLane p (s.dev.lane l).cur).wrRun) →
          ∀ l, l < 72 → (u.dev.lane l).state = .tracking)) ∧
    (s.dev.rst.phase = .trained → ∃ u, exec .deviceReady s = .next u ∧ u.dev.rst.phase = .ready ∧
      s.dev.onlyChanges u.dev [.rst]) ∧
    (s.dev.rst.phase = .booted → s.dev.svc.mode = .recovery → ∃ u, exec .deviceReady s = .next u ∧
      u.dev.rst.phase = .ready ∧ s.dev.onlyChanges u.dev [.rst, .ports]) ∧
    (s.dev.rst.phase ≠ .ready ∨ s.dev.rst.warm ≠ 0 → exec .hotReset s = .next s ∧ exec .pfFunctionLevelReset s = .next s ∧
      ∀ v, exec (.functionLevelReset v) s = .next s) ∧
    (s.dev.rst.phase = .ready → s.dev.rst.warm = 0 →
      (∃ u, exec .hotReset s = .next u ∧ u.dev.rst.warm = 1 ∧ u.dev.canvases = [] ∧ u.dev.chans = [] ∧
        u.dev.engines = [] ∧ u.dev.scene.admQ = [] ∧ u.dev.mem = s.dev.mem) ∧
      (∃ u, exec .pfFunctionLevelReset s = .next u ∧ u.dev.rst.warm = 3 ∧ u.dev.canvases = [] ∧ u.dev.chans = [] ∧
        u.dev.engines = [] ∧ u.dev.scene.admQ = [] ∧ u.dev.mem = s.dev.mem) ∧
      (s.dev.mayWriteReg 0 .hif 0 HIF_RST → s.dev.armed PType.hif.page 0 = true →
        ∃ u, exec (.warm 0) s = .next u ∧ u.dev.rst.warm = 2 ∧ u.dev.canvases = [] ∧ u.dev.chans = [] ∧
          u.dev.engines = [] ∧ u.dev.scene.admQ = [] ∧ u.dev.mem = s.dev.mem) ∧
      ∀ v : Fn, v.val ≠ 0 →
        ∃ u, exec (.functionLevelReset v) s = .next u ∧ (u.dev.flrOf v).active = true ∧
          ((∀ e ∈ s.dev.queues, e.2.flr = false) →
            (∀ q, q < 256 → s.dev.owner q = v.val → (s.dev.queue q).state = .off) → (u.dev.ring v).en = false) ∧
          ∀ q, q < 256 → s.dev.owner q = v.val → (u.dev.queue q).en = false ∧
            ((s.dev.queue q).state ≠ .off → (u.dev.queue q).state = .draining ∧ (u.dev.queue q).flr = true)) ∧
    (s.dev.rst.warm ≠ 0 →
      ∃ u, exec .warmResetComplete s = .next u ∧ u.dev.rst.warm = 0 ∧ u.dev.acc = {} ∧ u.dev.tb = s.dev.tb ∧
        u.dev.scene.flight = [] ∧ ∃ f ∈ u.dev.flt.arrivals, f.src = 0) ∧
    (∀ v : Fn, (s.dev.flrOf v).active = true → s.dev.flrDrained v = true → (s.dev.flrOf v).clearing = false →
      (s.dev.flrWindows v = [] → ∃ u, exec (.flrWindowClear v) s = .next u ∧ u.dev.flrOf v = {} ∧
        s.dev.onlyChanges u.dev [.rst]) ∧
      ∀ lent, s.dev.flrWindows v ≠ [] → (s.dev.flrWindows v).length ≤ 2048 → s.dev.stagingFor 256 0 = some lent →
        ∃ u, exec (.flrWindowClear v) s = .next u ∧ u.dev.flrOf v = {} ∧ s.dev.onlyChanges u.dev [.rst, .scene] ∧
          u.dev.scene.admQ = s.dev.scene.admQ ++ [AdmReq.clear v (s.dev.flrWindows v) lent])

/-- R2, R390, R391, R404: an unmasked vector sends its pending message; a change of the host link shows in its generation
and width; a configuration read is answered, or with retry status before ready; the SMBus answers a byte and ignores a
write; an instruction of the test access port selects its register and disturbs nothing else. The layout of the MSI-X table,
the instruction after a reset of the test access port and what it captures are the model's own reading
(notes/assumptions/3.md and notes/assumptions/23.md). -/
def Obligations.HostAndPinsAnswer : Prop :=
  ∀ s : State,
    (∀ (m : Fn) (v : Fin 64), s.dev.responds 2044 = true →
      ∃ u, exec (.msixUnmask m v) s = .next u ∧ s.dev.onlyChanges u.dev [.hif] ∧ bit (u.dev.msixWord m v 3) 0 = false ∧
        (if FMap.get (fun _ => false) s.dev.hif.msixPend (m * 64 + v) then
          u.dev.hif.out = s.dev.hif.out ++ [.msix m v] ∧
            FMap.get (fun _ => false) u.dev.hif.msixPend (m * 64 + v) = false
         else u.dev.hif.out = s.dev.hif.out)) ∧
    (∀ (g : Fin 7) (w : Fin 17),
      ∃ u, exec (.hostLinkChange g w) s = .next u ∧ u.dev.hif.gen = g.val ∧ u.dev.hif.width = w.val ∧
        s.dev.onlyChanges u.dev [.hif, .flt]) ∧
    (∀ (f : Fn) (r : BitVec 12),
      ∃ u, exec (.configurationRequest f r) s = .next u ∧ s.dev.onlyChanges u.dev [.hif] ∧
        if s.dev.rst.phase ≠ .ready ∨ s.dev.rst.warm = 1 then u.dev.hif.cfgRetry = true ∧
          u.dev.hif.cfgData = s.dev.hif.cfgData
        else u.dev.hif.cfgRetry = false ∧
          (r.toNat / 4 = 2 → u.dev.hif.cfgData = (Config.cfgSpace f 8 &&& 0xFFFFFF00) ||| 0xB0) ∧
          (r.toNat / 4 ≠ 2 → u.dev.hif.cfgData = Config.cfgSpace f (r.toNat / 4 * 4))) ∧
    (∀ c x : Byte, s.dev.rst.phase ≠ .reset →
      (∃ u, exec (.smbusReadByte c) s = .next u ∧ u.dev.pins.smbAck = true ∧ s.dev.onlyChanges u.dev [.pins] ∧
        u.dev.pins.smbData = s.dev.smbByte c ∧ (c = 4 → u.dev.pins.smbCopy = s.dev.flt.wseq)) ∧
      ∃ u, exec (.smbusWrite c x) s = .next u ∧ u.dev.pins = { s.dev.pins with smbAck := true } ∧
        s.dev.onlyChanges u.dev [.pins]) ∧
    (∀ i : Instr, i ∈ [Instr.tapReset, .bypass, .idcode, .extest, .extestPulse, .extestTrain, .clamp, .highz] →
      ∃ u, exec i s = .next u ∧ s.dev.onlyChanges u.dev [.pins] ∧ u.dev.pins.boundary = s.dev.pins.boundary ∧
        u.dev.pins.tapReset = decide (i = .tapReset) ∧
        (i = .bypass ∨ i = .clamp ∨ i = .highz → u.dev.pins.tdo = [false]) ∧
        (i = .idcode → u.dev.pins.tdo.length = 32 ∧
          ∀ k, k < 32 → u.dev.pins.tdo[k]? = some (Nat.testBit 0xB1280F6F k)) ∧
        (i = .extest ∨ i = .extestPulse ∨ i = .extestTrain ∨ i = .clamp → u.dev.pins.outputs = .boundary) ∧
        (i = .highz → u.dev.pins.outputs = .highImpedance) ∧
        (i = .tapReset ∨ i = .bypass ∨ i = .idcode → u.dev.pins.outputs = .device)) ∧
    ∀ p : List Bool, ∃ u, exec (.samplePreload p) s = .next u ∧ u.dev.pins.boundary = p ∧
      u.dev.pins.tdo = Config.boundarySample s.dev.now ∧ u.dev.pins.outputs = .device ∧ s.dev.onlyChanges u.dev [.pins]
end

