-- ==== Sys2Proof/Laws/Maps.lean ====
section
/-!
SUPPORT. Laws of keyed tables: what a read returns after a write, and that every operation keeps the canonical form.
-/
namespace Sys2Proof.Machine

variable {α : Type}

theorem FMap.find_erase_ne (m : FMap α) {k j : Nat} (h : j ≠ k) :
    (FMap.erase m k).find? (fun e => e.1 == j) = m.find? (fun e => e.1 == j) := by
  induction m with
  | nil => rfl
  | cons e es ih =>
    by_cases hk : e.1 = k
    · have hj : (e.1 == j) = false := by simp only [beq_eq_false_iff_ne]; omega
      have : FMap.erase (e :: es) k = FMap.erase es k := by simp [FMap.erase, hk]
      rw [this, ih]; simp [hj]
    · have : FMap.erase (e :: es) k = e :: FMap.erase es k := by simp [FMap.erase, hk]
      rw [this, List.find?_cons, List.find?_cons, ih]

theorem FMap.find_erase_same (m : FMap α) (k : Nat) : (FMap.erase m k).find? (fun e => e.1 == k) = none := by
  simp [FMap.erase, List.find?_eq_none]

theorem FMap.find_insert_same (k : Nat) (v : α) (m : FMap α) (h : m.find? (fun e => e.1 == k) = none) :
    (FMap.insert k v m).find? (fun e => e.1 == k) = some (k, v) := by
  induction m with
  | nil => simp [FMap.insert]
  | cons e es ih =>
    simp only [List.find?_cons] at h
    by_cases hk : k < e.1
    · simp [FMap.insert, hk]
    · split at h
      · exact absurd h (by simp)
      · rename_i he
        simp only [FMap.insert, hk, if_false, List.find?_cons, he]
        exact ih h

theorem FMap.find_insert_ne (v : α) (m : FMap α) {k j : Nat} (h : j ≠ k) :
    (FMap.insert k v m).find? (fun e => e.1 == j) = m.find? (fun e => e.1 == j) := by
  have hkj : (k == j) = false := by simp only [beq_eq_false_iff_ne]; omega
  induction m with
  | nil => simp [FMap.insert, hkj]
  | cons e es ih =>
    by_cases hk : k < e.1
    · simp [FMap.insert, hk, hkj]
    · simp only [FMap.insert, hk, if_false, List.find?_cons, ih]

/-- A read of the key just written returns the value written. -/
@[simp] theorem FMap.get_put_same [DecidableEq α] (d : Nat → α) (m : FMap α) (k : Nat) (v : α) :
    FMap.get d (FMap.put d m k v) k = v := by
  unfold FMap.put FMap.get
  by_cases h : v = d k
  · simp [h, FMap.find_erase_same]
  · simp [h, FMap.find_insert_same k v _ (FMap.find_erase_same m k)]

/-- A read of another key returns what it returned before. -/
theorem FMap.get_put_ne [DecidableEq α] (d : Nat → α) (m : FMap α) (v : α) {k j : Nat} (h : j ≠ k) :
    FMap.get d (FMap.put d m k v) j = FMap.get d m j := by
  unfold FMap.put FMap.get
  by_cases hv : v = d k
  · simp only [hv, if_true]; rw [FMap.find_erase_ne m h]
  · simp only [hv, if_false]; rw [FMap.find_insert_ne v _ h, FMap.find_erase_ne m h]

/-- A read after a write. -/
theorem FMap.get_put [DecidableEq α] (d : Nat → α) (m : FMap α) (k j : Nat) (v : α) :
    FMap.get d (FMap.put d m k v) j = if j = k then v else FMap.get d m j := by
  split
  · next h => rw [h, FMap.get_put_same]
  · next h => exact FMap.get_put_ne d m v h

theorem FMap.mem_insert {k : Nat} {v : α} {m : FMap α} {e : Nat × α} :
    e ∈ FMap.insert k v m → e = (k, v) ∨ e ∈ m := by
  induction m with
  | nil => intro h; simpa [FMap.insert] using h
  | cons x xs ih =>
    intro h
    by_cases hk : k < x.1
    · simpa [FMap.insert, hk] using h
    · simp only [FMap.insert, hk, if_false, List.mem_cons] at h
      rcases h with h | h
      · exact .inr (by simp [h])
      · rcases ih h with h | h
        · exact .inl h
        · exact .inr (by simp [h])

theorem FMap.wf_cons [DecidableEq α] {d : Nat → α} {e : Nat × α} {es : FMap α} :
    FMap.wf d (e :: es) = true ↔ (∀ x ∈ es, e.1 < x.1) ∧ e.2 ≠ d e.1 ∧ FMap.wf d es = true := by
  simp [FMap.wf, List.all_eq_true, and_assoc]

theorem FMap.wf_filter [DecidableEq α] (d : Nat → α) (p : Nat × α → Bool) {m : FMap α} (h : FMap.wf d m = true) :
    FMap.wf d (m.filter p) = true := by
  induction m with
  | nil => rfl
  | cons e es ih =>
    obtain ⟨h1, h2, h3⟩ := FMap.wf_cons.mp h
    by_cases hp : p e
    · rw [List.filter_cons_of_pos hp]
      exact FMap.wf_cons.mpr ⟨fun x hx => h1 x (List.mem_filter.mp hx).1, h2, ih h3⟩
    · rw [List.filter_cons_of_neg hp]; exact ih h3

theorem FMap.wf_insert [DecidableEq α] {d : Nat → α} {k : Nat} {v : α} (hv : v ≠ d k) {m : FMap α} (h : FMap.wf d m = true)
    (hk : ∀ e ∈ m, e.1 ≠ k) : FMap.wf d (FMap.insert k v m) = true := by
  induction m with
  | nil => simp [FMap.insert, FMap.wf, hv]
  | cons e es ih =>
    obtain ⟨h1, h2, h3⟩ := FMap.wf_cons.mp h
    by_cases hlt : k < e.1
    · simp only [FMap.insert, hlt, if_true]
      refine FMap.wf_cons.mpr ⟨fun x hx => ?_, hv, h⟩
      rcases List.mem_cons.mp hx with rfl | hx
      · exact hlt
      · exact Nat.lt_trans hlt (h1 x hx)
    · simp only [FMap.insert, hlt, if_false]
      refine FMap.wf_cons.mpr ⟨fun x hx => ?_, h2, ih h3 fun x hx => hk x (List.mem_cons_of_mem _ hx)⟩
      rcases FMap.mem_insert hx with rfl | hx
      · have := hk e (by simp); simp only; omega
      · exact h1 x hx

/-- Writing a key keeps the canonical form. -/
theorem FMap.wf_put [DecidableEq α] {d : Nat → α} {m : FMap α} (h : FMap.wf d m = true) (k : Nat) (v : α) :
    FMap.wf d (FMap.put d m k v) = true := by
  unfold FMap.put
  split
  · exact FMap.wf_filter d _ h
  · next hv =>
    refine FMap.wf_insert hv (FMap.wf_filter d _ h) fun e he => ?_
    have := (List.mem_filter.mp he).2
    simpa using this

end Sys2Proof.Machine
end

