-- ==== Sys2Proof/Laws/State.lean ====
section
/-!
SUPPORT. One lemma for each field and each update of the device: what the update leaves as it was, and what a unit reads
as after its own update or another's.
-/
namespace Sys2Proof.Machine

/-! ### `Dev.setCanvas` -/

@[simp] theorem Dev.setCanvas_now (c : Nat) (x : Canvas) (d : Dev) : (d.setCanvas c x).now = d.now := (rfl)
@[simp] theorem Dev.setCanvas_regs (c : Nat) (x : Canvas) (d : Dev) : (d.setCanvas c x).regs = d.regs := (rfl)
@[simp] theorem Dev.setCanvas_luts (c : Nat) (x : Canvas) (d : Dev) : (d.setCanvas c x).luts = d.luts := (rfl)
@[simp] theorem Dev.setCanvas_mem (c : Nat) (x : Canvas) (d : Dev) : (d.setCanvas c x).mem = d.mem := (rfl)
@[simp] theorem Dev.setCanvas_scene (c : Nat) (x : Canvas) (d : Dev) : (d.setCanvas c x).scene = d.scene := (rfl)
@[simp] theorem Dev.setCanvas_ledger (c : Nat) (x : Canvas) (d : Dev) : (d.setCanvas c x).ledger = d.ledger := (rfl)
@[simp] theorem Dev.setCanvas_queues (c : Nat) (x : Canvas) (d : Dev) : (d.setCanvas c x).queues = d.queues := (rfl)
@[simp] theorem Dev.setCanvas_turn (c : Nat) (x : Canvas) (d : Dev) : (d.setCanvas c x).turn = d.turn := (rfl)
@[simp] theorem Dev.setCanvas_lastTurn (c : Nat) (x : Canvas) (d : Dev) : (d.setCanvas c x).lastTurn = d.lastTurn := (rfl)
@[simp] theorem Dev.setCanvas_rings (c : Nat) (x : Canvas) (d : Dev) : (d.setCanvas c x).rings = d.rings := (rfl)
@[simp] theorem Dev.setCanvas_comp (c : Nat) (x : Canvas) (d : Dev) : (d.setCanvas c x).comp = d.comp := (rfl)
@[simp] theorem Dev.setCanvas_ports (c : Nat) (x : Canvas) (d : Dev) : (d.setCanvas c x).ports = d.ports := (rfl)
@[simp] theorem Dev.setCanvas_chans (c : Nat) (x : Canvas) (d : Dev) : (d.setCanvas c x).chans = d.chans := (rfl)
@[simp] theorem Dev.setCanvas_timers (c : Nat) (x : Canvas) (d : Dev) : (d.setCanvas c x).timers = d.timers := (rfl)
@[simp] theorem Dev.setCanvas_mrv (c : Nat) (x : Canvas) (d : Dev) : (d.setCanvas c x).mrv = d.mrv := (rfl)
@[simp] theorem Dev.setCanvas_engines (c : Nat) (x : Canvas) (d : Dev) : (d.setCanvas c x).engines = d.engines := (rfl)
@[simp] theorem Dev.setCanvas_regions (c : Nat) (x : Canvas) (d : Dev) : (d.setCanvas c x).regions = d.regions := (rfl)
@[simp] theorem Dev.setCanvas_mct (c : Nat) (x : Canvas) (d : Dev) : (d.setCanvas c x).mct = d.mct := (rfl)
@[simp] theorem Dev.setCanvas_cru (c : Nat) (x : Canvas) (d : Dev) : (d.setCanvas c x).cru = d.cru := (rfl)
@[simp] theorem Dev.setCanvas_acc (c : Nat) (x : Canvas) (d : Dev) : (d.setCanvas c x).acc = d.acc := (rfl)
@[simp] theorem Dev.setCanvas_flt (c : Nat) (x : Canvas) (d : Dev) : (d.setCanvas c x).flt = d.flt := (rfl)
@[simp] theorem Dev.setCanvas_svc (c : Nat) (x : Canvas) (d : Dev) : (d.setCanvas c x).svc = d.svc := (rfl)
@[simp] theorem Dev.setCanvas_tb (c : Nat) (x : Canvas) (d : Dev) : (d.setCanvas c x).tb = d.tb := (rfl)
@[simp] theorem Dev.setCanvas_clk (c : Nat) (x : Canvas) (d : Dev) : (d.setCanvas c x).clk = d.clk := (rfl)
@[simp] theorem Dev.setCanvas_rst (c : Nat) (x : Canvas) (d : Dev) : (d.setCanvas c x).rst = d.rst := (rfl)
@[simp] theorem Dev.setCanvas_hif (c : Nat) (x : Canvas) (d : Dev) : (d.setCanvas c x).hif = d.hif := (rfl)
@[simp] theorem Dev.setCanvas_pins (c : Nat) (x : Canvas) (d : Dev) : (d.setCanvas c x).pins = d.pins := (rfl)

/-! ### `Dev.setQueue` -/

@[simp] theorem Dev.setQueue_now (q : Nat) (x : Queue) (d : Dev) : (d.setQueue q x).now = d.now := (rfl)
@[simp] theorem Dev.setQueue_regs (q : Nat) (x : Queue) (d : Dev) : (d.setQueue q x).regs = d.regs := (rfl)
@[simp] theorem Dev.setQueue_luts (q : Nat) (x : Queue) (d : Dev) : (d.setQueue q x).luts = d.luts := (rfl)
@[simp] theorem Dev.setQueue_mem (q : Nat) (x : Queue) (d : Dev) : (d.setQueue q x).mem = d.mem := (rfl)
@[simp] theorem Dev.setQueue_scene (q : Nat) (x : Queue) (d : Dev) : (d.setQueue q x).scene = d.scene := (rfl)
@[simp] theorem Dev.setQueue_ledger (q : Nat) (x : Queue) (d : Dev) : (d.setQueue q x).ledger = d.ledger := (rfl)
@[simp] theorem Dev.setQueue_turn (q : Nat) (x : Queue) (d : Dev) : (d.setQueue q x).turn = d.turn := (rfl)
@[simp] theorem Dev.setQueue_lastTurn (q : Nat) (x : Queue) (d : Dev) : (d.setQueue q x).lastTurn = d.lastTurn := (rfl)
@[simp] theorem Dev.setQueue_rings (q : Nat) (x : Queue) (d : Dev) : (d.setQueue q x).rings = d.rings := (rfl)
@[simp] theorem Dev.setQueue_canvases (q : Nat) (x : Queue) (d : Dev) : (d.setQueue q x).canvases = d.canvases := (rfl)
@[simp] theorem Dev.setQueue_comp (q : Nat) (x : Queue) (d : Dev) : (d.setQueue q x).comp = d.comp := (rfl)
@[simp] theorem Dev.setQueue_ports (q : Nat) (x : Queue) (d : Dev) : (d.setQueue q x).ports = d.ports := (rfl)
@[simp] theorem Dev.setQueue_chans (q : Nat) (x : Queue) (d : Dev) : (d.setQueue q x).chans = d.chans := (rfl)
@[simp] theorem Dev.setQueue_timers (q : Nat) (x : Queue) (d : Dev) : (d.setQueue q x).timers = d.timers := (rfl)
@[simp] theorem Dev.setQueue_mrv (q : Nat) (x : Queue) (d : Dev) : (d.setQueue q x).mrv = d.mrv := (rfl)
@[simp] theorem Dev.setQueue_engines (q : Nat) (x : Queue) (d : Dev) : (d.setQueue q x).engines = d.engines := (rfl)
@[simp] theorem Dev.setQueue_regions (q : Nat) (x : Queue) (d : Dev) : (d.setQueue q x).regions = d.regions := (rfl)
@[simp] theorem Dev.setQueue_mct (q : Nat) (x : Queue) (d : Dev) : (d.setQueue q x).mct = d.mct := (rfl)
@[simp] theorem Dev.setQueue_cru (q : Nat) (x : Queue) (d : Dev) : (d.setQueue q x).cru = d.cru := (rfl)
@[simp] theorem Dev.setQueue_acc (q : Nat) (x : Queue) (d : Dev) : (d.setQueue q x).acc = d.acc := (rfl)
@[simp] theorem Dev.setQueue_flt (q : Nat) (x : Queue) (d : Dev) : (d.setQueue q x).flt = d.flt := (rfl)
@[simp] theorem Dev.setQueue_svc (q : Nat) (x : Queue) (d : Dev) : (d.setQueue q x).svc = d.svc := (rfl)
@[simp] theorem Dev.setQueue_tb (q : Nat) (x : Queue) (d : Dev) : (d.setQueue q x).tb = d.tb := (rfl)
@[simp] theorem Dev.setQueue_clk (q : Nat) (x : Queue) (d : Dev) : (d.setQueue q x).clk = d.clk := (rfl)
@[simp] theorem Dev.setQueue_rst (q : Nat) (x : Queue) (d : Dev) : (d.setQueue q x).rst = d.rst := (rfl)
@[simp] theorem Dev.setQueue_hif (q : Nat) (x : Queue) (d : Dev) : (d.setQueue q x).hif = d.hif := (rfl)
@[simp] theorem Dev.setQueue_pins (q : Nat) (x : Queue) (d : Dev) : (d.setQueue q x).pins = d.pins := (rfl)

/-! ### `Dev.setRing` -/

@[simp] theorem Dev.setRing_now (f : Nat) (x : NRing) (d : Dev) : (d.setRing f x).now = d.now := (rfl)
@[simp] theorem Dev.setRing_regs (f : Nat) (x : NRing) (d : Dev) : (d.setRing f x).regs = d.regs := (rfl)
@[simp] theorem Dev.setRing_luts (f : Nat) (x : NRing) (d : Dev) : (d.setRing f x).luts = d.luts := (rfl)
@[simp] theorem Dev.setRing_mem (f : Nat) (x : NRing) (d : Dev) : (d.setRing f x).mem = d.mem := (rfl)
@[simp] theorem Dev.setRing_scene (f : Nat) (x : NRing) (d : Dev) : (d.setRing f x).scene = d.scene := (rfl)
@[simp] theorem Dev.setRing_ledger (f : Nat) (x : NRing) (d : Dev) : (d.setRing f x).ledger = d.ledger := (rfl)
@[simp] theorem Dev.setRing_queues (f : Nat) (x : NRing) (d : Dev) : (d.setRing f x).queues = d.queues := (rfl)
@[simp] theorem Dev.setRing_turn (f : Nat) (x : NRing) (d : Dev) : (d.setRing f x).turn = d.turn := (rfl)
@[simp] theorem Dev.setRing_lastTurn (f : Nat) (x : NRing) (d : Dev) : (d.setRing f x).lastTurn = d.lastTurn := (rfl)
@[simp] theorem Dev.setRing_canvases (f : Nat) (x : NRing) (d : Dev) : (d.setRing f x).canvases = d.canvases := (rfl)
@[simp] theorem Dev.setRing_comp (f : Nat) (x : NRing) (d : Dev) : (d.setRing f x).comp = d.comp := (rfl)
@[simp] theorem Dev.setRing_ports (f : Nat) (x : NRing) (d : Dev) : (d.setRing f x).ports = d.ports := (rfl)
@[simp] theorem Dev.setRing_chans (f : Nat) (x : NRing) (d : Dev) : (d.setRing f x).chans = d.chans := (rfl)
@[simp] theorem Dev.setRing_timers (f : Nat) (x : NRing) (d : Dev) : (d.setRing f x).timers = d.timers := (rfl)
@[simp] theorem Dev.setRing_mrv (f : Nat) (x : NRing) (d : Dev) : (d.setRing f x).mrv = d.mrv := (rfl)
@[simp] theorem Dev.setRing_engines (f : Nat) (x : NRing) (d : Dev) : (d.setRing f x).engines = d.engines := (rfl)
@[simp] theorem Dev.setRing_regions (f : Nat) (x : NRing) (d : Dev) : (d.setRing f x).regions = d.regions := (rfl)
@[simp] theorem Dev.setRing_mct (f : Nat) (x : NRing) (d : Dev) : (d.setRing f x).mct = d.mct := (rfl)
@[simp] theorem Dev.setRing_cru (f : Nat) (x : NRing) (d : Dev) : (d.setRing f x).cru = d.cru := (rfl)
@[simp] theorem Dev.setRing_acc (f : Nat) (x : NRing) (d : Dev) : (d.setRing f x).acc = d.acc := (rfl)
@[simp] theorem Dev.setRing_flt (f : Nat) (x : NRing) (d : Dev) : (d.setRing f x).flt = d.flt := (rfl)
@[simp] theorem Dev.setRing_svc (f : Nat) (x : NRing) (d : Dev) : (d.setRing f x).svc = d.svc := (rfl)
@[simp] theorem Dev.setRing_tb (f : Nat) (x : NRing) (d : Dev) : (d.setRing f x).tb = d.tb := (rfl)
@[simp] theorem Dev.setRing_clk (f : Nat) (x : NRing) (d : Dev) : (d.setRing f x).clk = d.clk := (rfl)
@[simp] theorem Dev.setRing_rst (f : Nat) (x : NRing) (d : Dev) : (d.setRing f x).rst = d.rst := (rfl)
@[simp] theorem Dev.setRing_hif (f : Nat) (x : NRing) (d : Dev) : (d.setRing f x).hif = d.hif := (rfl)
@[simp] theorem Dev.setRing_pins (f : Nat) (x : NRing) (d : Dev) : (d.setRing f x).pins = d.pins := (rfl)

/-! ### `Dev.setPort` -/

@[simp] theorem Dev.setPort_now (n : Nat) (x : Port) (d : Dev) : (d.setPort n x).now = d.now := (rfl)
@[simp] theorem Dev.setPort_regs (n : Nat) (x : Port) (d : Dev) : (d.setPort n x).regs = d.regs := (rfl)
@[simp] theorem Dev.setPort_luts (n : Nat) (x : Port) (d : Dev) : (d.setPort n x).luts = d.luts := (rfl)
@[simp] theorem Dev.setPort_mem (n : Nat) (x : Port) (d : Dev) : (d.setPort n x).mem = d.mem := (rfl)
@[simp] theorem Dev.setPort_scene (n : Nat) (x : Port) (d : Dev) : (d.setPort n x).scene = d.scene := (rfl)
@[simp] theorem Dev.setPort_ledger (n : Nat) (x : Port) (d : Dev) : (d.setPort n x).ledger = d.ledger := (rfl)
@[simp] theorem Dev.setPort_queues (n : Nat) (x : Port) (d : Dev) : (d.setPort n x).queues = d.queues := (rfl)
@[simp] theorem Dev.setPort_turn (n : Nat) (x : Port) (d : Dev) : (d.setPort n x).turn = d.turn := (rfl)
@[simp] theorem Dev.setPort_lastTurn (n : Nat) (x : Port) (d : Dev) : (d.setPort n x).lastTurn = d.lastTurn := (rfl)
@[simp] theorem Dev.setPort_rings (n : Nat) (x : Port) (d : Dev) : (d.setPort n x).rings = d.rings := (rfl)
@[simp] theorem Dev.setPort_canvases (n : Nat) (x : Port) (d : Dev) : (d.setPort n x).canvases = d.canvases := (rfl)
@[simp] theorem Dev.setPort_comp (n : Nat) (x : Port) (d : Dev) : (d.setPort n x).comp = d.comp := (rfl)
@[simp] theorem Dev.setPort_chans (n : Nat) (x : Port) (d : Dev) : (d.setPort n x).chans = d.chans := (rfl)
@[simp] theorem Dev.setPort_timers (n : Nat) (x : Port) (d : Dev) : (d.setPort n x).timers = d.timers := (rfl)
@[simp] theorem Dev.setPort_mrv (n : Nat) (x : Port) (d : Dev) : (d.setPort n x).mrv = d.mrv := (rfl)
@[simp] theorem Dev.setPort_engines (n : Nat) (x : Port) (d : Dev) : (d.setPort n x).engines = d.engines := (rfl)
@[simp] theorem Dev.setPort_regions (n : Nat) (x : Port) (d : Dev) : (d.setPort n x).regions = d.regions := (rfl)
@[simp] theorem Dev.setPort_mct (n : Nat) (x : Port) (d : Dev) : (d.setPort n x).mct = d.mct := (rfl)
@[simp] theorem Dev.setPort_cru (n : Nat) (x : Port) (d : Dev) : (d.setPort n x).cru = d.cru := (rfl)
@[simp] theorem Dev.setPort_acc (n : Nat) (x : Port) (d : Dev) : (d.setPort n x).acc = d.acc := (rfl)
@[simp] theorem Dev.setPort_flt (n : Nat) (x : Port) (d : Dev) : (d.setPort n x).flt = d.flt := (rfl)
@[simp] theorem Dev.setPort_svc (n : Nat) (x : Port) (d : Dev) : (d.setPort n x).svc = d.svc := (rfl)
@[simp] theorem Dev.setPort_tb (n : Nat) (x : Port) (d : Dev) : (d.setPort n x).tb = d.tb := (rfl)
@[simp] theorem Dev.setPort_clk (n : Nat) (x : Port) (d : Dev) : (d.setPort n x).clk = d.clk := (rfl)
@[simp] theorem Dev.setPort_rst (n : Nat) (x : Port) (d : Dev) : (d.setPort n x).rst = d.rst := (rfl)
@[simp] theorem Dev.setPort_hif (n : Nat) (x : Port) (d : Dev) : (d.setPort n x).hif = d.hif := (rfl)
@[simp] theorem Dev.setPort_pins (n : Nat) (x : Port) (d : Dev) : (d.setPort n x).pins = d.pins := (rfl)

/-! ### `Dev.setChan` -/

@[simp] theorem Dev.setChan_now (c : Nat) (x : Chan) (d : Dev) : (d.setChan c x).now = d.now := (rfl)
@[simp] theorem Dev.setChan_regs (c : Nat) (x : Chan) (d : Dev) : (d.setChan c x).regs = d.regs := (rfl)
@[simp] theorem Dev.setChan_luts (c : Nat) (x : Chan) (d : Dev) : (d.setChan c x).luts = d.luts := (rfl)
@[simp] theorem Dev.setChan_mem (c : Nat) (x : Chan) (d : Dev) : (d.setChan c x).mem = d.mem := (rfl)
@[simp] theorem Dev.setChan_scene (c : Nat) (x : Chan) (d : Dev) : (d.setChan c x).scene = d.scene := (rfl)
@[simp] theorem Dev.setChan_ledger (c : Nat) (x : Chan) (d : Dev) : (d.setChan c x).ledger = d.ledger := (rfl)
@[simp] theorem Dev.setChan_queues (c : Nat) (x : Chan) (d : Dev) : (d.setChan c x).queues = d.queues := (rfl)
@[simp] theorem Dev.setChan_turn (c : Nat) (x : Chan) (d : Dev) : (d.setChan c x).turn = d.turn := (rfl)
@[simp] theorem Dev.setChan_lastTurn (c : Nat) (x : Chan) (d : Dev) : (d.setChan c x).lastTurn = d.lastTurn := (rfl)
@[simp] theorem Dev.setChan_rings (c : Nat) (x : Chan) (d : Dev) : (d.setChan c x).rings = d.rings := (rfl)
@[simp] theorem Dev.setChan_canvases (c : Nat) (x : Chan) (d : Dev) : (d.setChan c x).canvases = d.canvases := (rfl)
@[simp] theorem Dev.setChan_comp (c : Nat) (x : Chan) (d : Dev) : (d.setChan c x).comp = d.comp := (rfl)
@[simp] theorem Dev.setChan_ports (c : Nat) (x : Chan) (d : Dev) : (d.setChan c x).ports = d.ports := (rfl)
@[simp] theorem Dev.setChan_timers (c : Nat) (x : Chan) (d : Dev) : (d.setChan c x).timers = d.timers := (rfl)
@[simp] theorem Dev.setChan_mrv (c : Nat) (x : Chan) (d : Dev) : (d.setChan c x).mrv = d.mrv := (rfl)
@[simp] theorem Dev.setChan_engines (c : Nat) (x : Chan) (d : Dev) : (d.setChan c x).engines = d.engines := (rfl)
@[simp] theorem Dev.setChan_regions (c : Nat) (x : Chan) (d : Dev) : (d.setChan c x).regions = d.regions := (rfl)
@[simp] theorem Dev.setChan_mct (c : Nat) (x : Chan) (d : Dev) : (d.setChan c x).mct = d.mct := (rfl)
@[simp] theorem Dev.setChan_cru (c : Nat) (x : Chan) (d : Dev) : (d.setChan c x).cru = d.cru := (rfl)
@[simp] theorem Dev.setChan_acc (c : Nat) (x : Chan) (d : Dev) : (d.setChan c x).acc = d.acc := (rfl)
@[simp] theorem Dev.setChan_flt (c : Nat) (x : Chan) (d : Dev) : (d.setChan c x).flt = d.flt := (rfl)
@[simp] theorem Dev.setChan_svc (c : Nat) (x : Chan) (d : Dev) : (d.setChan c x).svc = d.svc := (rfl)
@[simp] theorem Dev.setChan_tb (c : Nat) (x : Chan) (d : Dev) : (d.setChan c x).tb = d.tb := (rfl)
@[simp] theorem Dev.setChan_clk (c : Nat) (x : Chan) (d : Dev) : (d.setChan c x).clk = d.clk := (rfl)
@[simp] theorem Dev.setChan_rst (c : Nat) (x : Chan) (d : Dev) : (d.setChan c x).rst = d.rst := (rfl)
@[simp] theorem Dev.setChan_hif (c : Nat) (x : Chan) (d : Dev) : (d.setChan c x).hif = d.hif := (rfl)
@[simp] theorem Dev.setChan_pins (c : Nat) (x : Chan) (d : Dev) : (d.setChan c x).pins = d.pins := (rfl)

/-! ### `Dev.setTimer` -/

@[simp] theorem Dev.setTimer_now (t : Nat) (x : Timer) (d : Dev) : (d.setTimer t x).now = d.now := (rfl)
@[simp] theorem Dev.setTimer_regs (t : Nat) (x : Timer) (d : Dev) : (d.setTimer t x).regs = d.regs := (rfl)
@[simp] theorem Dev.setTimer_luts (t : Nat) (x : Timer) (d : Dev) : (d.setTimer t x).luts = d.luts := (rfl)
@[simp] theorem Dev.setTimer_mem (t : Nat) (x : Timer) (d : Dev) : (d.setTimer t x).mem = d.mem := (rfl)
@[simp] theorem Dev.setTimer_scene (t : Nat) (x : Timer) (d : Dev) : (d.setTimer t x).scene = d.scene := (rfl)
@[simp] theorem Dev.setTimer_ledger (t : Nat) (x : Timer) (d : Dev) : (d.setTimer t x).ledger = d.ledger := (rfl)
@[simp] theorem Dev.setTimer_queues (t : Nat) (x : Timer) (d : Dev) : (d.setTimer t x).queues = d.queues := (rfl)
@[simp] theorem Dev.setTimer_turn (t : Nat) (x : Timer) (d : Dev) : (d.setTimer t x).turn = d.turn := (rfl)
@[simp] theorem Dev.setTimer_lastTurn (t : Nat) (x : Timer) (d : Dev) : (d.setTimer t x).lastTurn = d.lastTurn := (rfl)
@[simp] theorem Dev.setTimer_rings (t : Nat) (x : Timer) (d : Dev) : (d.setTimer t x).rings = d.rings := (rfl)
@[simp] theorem Dev.setTimer_canvases (t : Nat) (x : Timer) (d : Dev) : (d.setTimer t x).canvases = d.canvases := (rfl)
@[simp] theorem Dev.setTimer_comp (t : Nat) (x : Timer) (d : Dev) : (d.setTimer t x).comp = d.comp := (rfl)
@[simp] theorem Dev.setTimer_ports (t : Nat) (x : Timer) (d : Dev) : (d.setTimer t x).ports = d.ports := (rfl)
@[simp] theorem Dev.setTimer_chans (t : Nat) (x : Timer) (d : Dev) : (d.setTimer t x).chans = d.chans := (rfl)
@[simp] theorem Dev.setTimer_mrv (t : Nat) (x : Timer) (d : Dev) : (d.setTimer t x).mrv = d.mrv := (rfl)
@[simp] theorem Dev.setTimer_engines (t : Nat) (x : Timer) (d : Dev) : (d.setTimer t x).engines = d.engines := (rfl)
@[simp] theorem Dev.setTimer_regions (t : Nat) (x : Timer) (d : Dev) : (d.setTimer t x).regions = d.regions := (rfl)
@[simp] theorem Dev.setTimer_mct (t : Nat) (x : Timer) (d : Dev) : (d.setTimer t x).mct = d.mct := (rfl)
@[simp] theorem Dev.setTimer_cru (t : Nat) (x : Timer) (d : Dev) : (d.setTimer t x).cru = d.cru := (rfl)
@[simp] theorem Dev.setTimer_acc (t : Nat) (x : Timer) (d : Dev) : (d.setTimer t x).acc = d.acc := (rfl)
@[simp] theorem Dev.setTimer_flt (t : Nat) (x : Timer) (d : Dev) : (d.setTimer t x).flt = d.flt := (rfl)
@[simp] theorem Dev.setTimer_svc (t : Nat) (x : Timer) (d : Dev) : (d.setTimer t x).svc = d.svc := (rfl)
@[simp] theorem Dev.setTimer_tb (t : Nat) (x : Timer) (d : Dev) : (d.setTimer t x).tb = d.tb := (rfl)
@[simp] theorem Dev.setTimer_clk (t : Nat) (x : Timer) (d : Dev) : (d.setTimer t x).clk = d.clk := (rfl)
@[simp] theorem Dev.setTimer_rst (t : Nat) (x : Timer) (d : Dev) : (d.setTimer t x).rst = d.rst := (rfl)
@[simp] theorem Dev.setTimer_hif (t : Nat) (x : Timer) (d : Dev) : (d.setTimer t x).hif = d.hif := (rfl)
@[simp] theorem Dev.setTimer_pins (t : Nat) (x : Timer) (d : Dev) : (d.setTimer t x).pins = d.pins := (rfl)

/-! ### `Dev.setEngine` -/

@[simp] theorem Dev.setEngine_now (e : Nat) (x : Engine) (d : Dev) : (d.setEngine e x).now = d.now := (rfl)
@[simp] theorem Dev.setEngine_regs (e : Nat) (x : Engine) (d : Dev) : (d.setEngine e x).regs = d.regs := (rfl)
@[simp] theorem Dev.setEngine_luts (e : Nat) (x : Engine) (d : Dev) : (d.setEngine e x).luts = d.luts := (rfl)
@[simp] theorem Dev.setEngine_mem (e : Nat) (x : Engine) (d : Dev) : (d.setEngine e x).mem = d.mem := (rfl)
@[simp] theorem Dev.setEngine_scene (e : Nat) (x : Engine) (d : Dev) : (d.setEngine e x).scene = d.scene := (rfl)
@[simp] theorem Dev.setEngine_ledger (e : Nat) (x : Engine) (d : Dev) : (d.setEngine e x).ledger = d.ledger := (rfl)
@[simp] theorem Dev.setEngine_queues (e : Nat) (x : Engine) (d : Dev) : (d.setEngine e x).queues = d.queues := (rfl)
@[simp] theorem Dev.setEngine_turn (e : Nat) (x : Engine) (d : Dev) : (d.setEngine e x).turn = d.turn := (rfl)
@[simp] theorem Dev.setEngine_lastTurn (e : Nat) (x : Engine) (d : Dev) : (d.setEngine e x).lastTurn = d.lastTurn := (rfl)
@[simp] theorem Dev.setEngine_rings (e : Nat) (x : Engine) (d : Dev) : (d.setEngine e x).rings = d.rings := (rfl)
@[simp] theorem Dev.setEngine_canvases (e : Nat) (x : Engine) (d : Dev) : (d.setEngine e x).canvases = d.canvases := (rfl)
@[simp] theorem Dev.setEngine_comp (e : Nat) (x : Engine) (d : Dev) : (d.setEngine e x).comp = d.comp := (rfl)
@[simp] theorem Dev.setEngine_ports (e : Nat) (x : Engine) (d : Dev) : (d.setEngine e x).ports = d.ports := (rfl)
@[simp] theorem Dev.setEngine_chans (e : Nat) (x : Engine) (d : Dev) : (d.setEngine e x).chans = d.chans := (rfl)
@[simp] theorem Dev.setEngine_timers (e : Nat) (x : Engine) (d : Dev) : (d.setEngine e x).timers = d.timers := (rfl)
@[simp] theorem Dev.setEngine_mrv (e : Nat) (x : Engine) (d : Dev) : (d.setEngine e x).mrv = d.mrv := (rfl)
@[simp] theorem Dev.setEngine_regions (e : Nat) (x : Engine) (d : Dev) : (d.setEngine e x).regions = d.regions := (rfl)
@[simp] theorem Dev.setEngine_mct (e : Nat) (x : Engine) (d : Dev) : (d.setEngine e x).mct = d.mct := (rfl)
@[simp] theorem Dev.setEngine_cru (e : Nat) (x : Engine) (d : Dev) : (d.setEngine e x).cru = d.cru := (rfl)
@[simp] theorem Dev.setEngine_acc (e : Nat) (x : Engine) (d : Dev) : (d.setEngine e x).acc = d.acc := (rfl)
@[simp] theorem Dev.setEngine_flt (e : Nat) (x : Engine) (d : Dev) : (d.setEngine e x).flt = d.flt := (rfl)
@[simp] theorem Dev.setEngine_svc (e : Nat) (x : Engine) (d : Dev) : (d.setEngine e x).svc = d.svc := (rfl)
@[simp] theorem Dev.setEngine_tb (e : Nat) (x : Engine) (d : Dev) : (d.setEngine e x).tb = d.tb := (rfl)
@[simp] theorem Dev.setEngine_clk (e : Nat) (x : Engine) (d : Dev) : (d.setEngine e x).clk = d.clk := (rfl)
@[simp] theorem Dev.setEngine_rst (e : Nat) (x : Engine) (d : Dev) : (d.setEngine e x).rst = d.rst := (rfl)
@[simp] theorem Dev.setEngine_hif (e : Nat) (x : Engine) (d : Dev) : (d.setEngine e x).hif = d.hif := (rfl)
@[simp] theorem Dev.setEngine_pins (e : Nat) (x : Engine) (d : Dev) : (d.setEngine e x).pins = d.pins := (rfl)

/-! ### `Dev.setRegion` -/

@[simp] theorem Dev.setRegion_now (r : Nat) (x : Region) (d : Dev) : (d.setRegion r x).now = d.now := (rfl)
@[simp] theorem Dev.setRegion_regs (r : Nat) (x : Region) (d : Dev) : (d.setRegion r x).regs = d.regs := (rfl)
@[simp] theorem Dev.setRegion_luts (r : Nat) (x : Region) (d : Dev) : (d.setRegion r x).luts = d.luts := (rfl)
@[simp] theorem Dev.setRegion_mem (r : Nat) (x : Region) (d : Dev) : (d.setRegion r x).mem = d.mem := (rfl)
@[simp] theorem Dev.setRegion_scene (r : Nat) (x : Region) (d : Dev) : (d.setRegion r x).scene = d.scene := (rfl)
@[simp] theorem Dev.setRegion_ledger (r : Nat) (x : Region) (d : Dev) : (d.setRegion r x).ledger = d.ledger := (rfl)
@[simp] theorem Dev.setRegion_queues (r : Nat) (x : Region) (d : Dev) : (d.setRegion r x).queues = d.queues := (rfl)
@[simp] theorem Dev.setRegion_turn (r : Nat) (x : Region) (d : Dev) : (d.setRegion r x).turn = d.turn := (rfl)
@[simp] theorem Dev.setRegion_lastTurn (r : Nat) (x : Region) (d : Dev) : (d.setRegion r x).lastTurn = d.lastTurn := (rfl)
@[simp] theorem Dev.setRegion_rings (r : Nat) (x : Region) (d : Dev) : (d.setRegion r x).rings = d.rings := (rfl)
@[simp] theorem Dev.setRegion_canvases (r : Nat) (x : Region) (d : Dev) : (d.setRegion r x).canvases = d.canvases := (rfl)
@[simp] theorem Dev.setRegion_comp (r : Nat) (x : Region) (d : Dev) : (d.setRegion r x).comp = d.comp := (rfl)
@[simp] theorem Dev.setRegion_ports (r : Nat) (x : Region) (d : Dev) : (d.setRegion r x).ports = d.ports := (rfl)
@[simp] theorem Dev.setRegion_chans (r : Nat) (x : Region) (d : Dev) : (d.setRegion r x).chans = d.chans := (rfl)
@[simp] theorem Dev.setRegion_timers (r : Nat) (x : Region) (d : Dev) : (d.setRegion r x).timers = d.timers := (rfl)
@[simp] theorem Dev.setRegion_mrv (r : Nat) (x : Region) (d : Dev) : (d.setRegion r x).mrv = d.mrv := (rfl)
@[simp] theorem Dev.setRegion_engines (r : Nat) (x : Region) (d : Dev) : (d.setRegion r x).engines = d.engines := (rfl)
@[simp] theorem Dev.setRegion_mct (r : Nat) (x : Region) (d : Dev) : (d.setRegion r x).mct = d.mct := (rfl)
@[simp] theorem Dev.setRegion_cru (r : Nat) (x : Region) (d : Dev) : (d.setRegion r x).cru = d.cru := (rfl)
@[simp] theorem Dev.setRegion_acc (r : Nat) (x : Region) (d : Dev) : (d.setRegion r x).acc = d.acc := (rfl)
@[simp] theorem Dev.setRegion_flt (r : Nat) (x : Region) (d : Dev) : (d.setRegion r x).flt = d.flt := (rfl)
@[simp] theorem Dev.setRegion_svc (r : Nat) (x : Region) (d : Dev) : (d.setRegion r x).svc = d.svc := (rfl)
@[simp] theorem Dev.setRegion_tb (r : Nat) (x : Region) (d : Dev) : (d.setRegion r x).tb = d.tb := (rfl)
@[simp] theorem Dev.setRegion_clk (r : Nat) (x : Region) (d : Dev) : (d.setRegion r x).clk = d.clk := (rfl)
@[simp] theorem Dev.setRegion_rst (r : Nat) (x : Region) (d : Dev) : (d.setRegion r x).rst = d.rst := (rfl)
@[simp] theorem Dev.setRegion_hif (r : Nat) (x : Region) (d : Dev) : (d.setRegion r x).hif = d.hif := (rfl)
@[simp] theorem Dev.setRegion_pins (r : Nat) (x : Region) (d : Dev) : (d.setRegion r x).pins = d.pins := (rfl)

/-! ### `Dev.setPipe` -/

@[simp] theorem Dev.setPipe_now (p : Nat) (x : Pipe) (d : Dev) : (d.setPipe p x).now = d.now := (rfl)
@[simp] theorem Dev.setPipe_regs (p : Nat) (x : Pipe) (d : Dev) : (d.setPipe p x).regs = d.regs := (rfl)
@[simp] theorem Dev.setPipe_luts (p : Nat) (x : Pipe) (d : Dev) : (d.setPipe p x).luts = d.luts := (rfl)
@[simp] theorem Dev.setPipe_mem (p : Nat) (x : Pipe) (d : Dev) : (d.setPipe p x).mem = d.mem := (rfl)
@[simp] theorem Dev.setPipe_scene (p : Nat) (x : Pipe) (d : Dev) : (d.setPipe p x).scene = d.scene := (rfl)
@[simp] theorem Dev.setPipe_ledger (p : Nat) (x : Pipe) (d : Dev) : (d.setPipe p x).ledger = d.ledger := (rfl)
@[simp] theorem Dev.setPipe_queues (p : Nat) (x : Pipe) (d : Dev) : (d.setPipe p x).queues = d.queues := (rfl)
@[simp] theorem Dev.setPipe_turn (p : Nat) (x : Pipe) (d : Dev) : (d.setPipe p x).turn = d.turn := (rfl)
@[simp] theorem Dev.setPipe_lastTurn (p : Nat) (x : Pipe) (d : Dev) : (d.setPipe p x).lastTurn = d.lastTurn := (rfl)
@[simp] theorem Dev.setPipe_rings (p : Nat) (x : Pipe) (d : Dev) : (d.setPipe p x).rings = d.rings := (rfl)
@[simp] theorem Dev.setPipe_canvases (p : Nat) (x : Pipe) (d : Dev) : (d.setPipe p x).canvases = d.canvases := (rfl)
@[simp] theorem Dev.setPipe_ports (p : Nat) (x : Pipe) (d : Dev) : (d.setPipe p x).ports = d.ports := (rfl)
@[simp] theorem Dev.setPipe_chans (p : Nat) (x : Pipe) (d : Dev) : (d.setPipe p x).chans = d.chans := (rfl)
@[simp] theorem Dev.setPipe_timers (p : Nat) (x : Pipe) (d : Dev) : (d.setPipe p x).timers = d.timers := (rfl)
@[simp] theorem Dev.setPipe_mrv (p : Nat) (x : Pipe) (d : Dev) : (d.setPipe p x).mrv = d.mrv := (rfl)
@[simp] theorem Dev.setPipe_engines (p : Nat) (x : Pipe) (d : Dev) : (d.setPipe p x).engines = d.engines := (rfl)
@[simp] theorem Dev.setPipe_regions (p : Nat) (x : Pipe) (d : Dev) : (d.setPipe p x).regions = d.regions := (rfl)
@[simp] theorem Dev.setPipe_mct (p : Nat) (x : Pipe) (d : Dev) : (d.setPipe p x).mct = d.mct := (rfl)
@[simp] theorem Dev.setPipe_cru (p : Nat) (x : Pipe) (d : Dev) : (d.setPipe p x).cru = d.cru := (rfl)
@[simp] theorem Dev.setPipe_acc (p : Nat) (x : Pipe) (d : Dev) : (d.setPipe p x).acc = d.acc := (rfl)
@[simp] theorem Dev.setPipe_flt (p : Nat) (x : Pipe) (d : Dev) : (d.setPipe p x).flt = d.flt := (rfl)
@[simp] theorem Dev.setPipe_svc (p : Nat) (x : Pipe) (d : Dev) : (d.setPipe p x).svc = d.svc := (rfl)
@[simp] theorem Dev.setPipe_tb (p : Nat) (x : Pipe) (d : Dev) : (d.setPipe p x).tb = d.tb := (rfl)
@[simp] theorem Dev.setPipe_clk (p : Nat) (x : Pipe) (d : Dev) : (d.setPipe p x).clk = d.clk := (rfl)
@[simp] theorem Dev.setPipe_rst (p : Nat) (x : Pipe) (d : Dev) : (d.setPipe p x).rst = d.rst := (rfl)
@[simp] theorem Dev.setPipe_hif (p : Nat) (x : Pipe) (d : Dev) : (d.setPipe p x).hif = d.hif := (rfl)
@[simp] theorem Dev.setPipe_pins (p : Nat) (x : Pipe) (d : Dev) : (d.setPipe p x).pins = d.pins := (rfl)
@[simp] theorem Dev.setPipe_comp_gather (p : Nat) (x : Pipe) (d : Dev) : (d.setPipe p x).comp.gather = d.comp.gather := (rfl)
@[simp] theorem Dev.setPipe_comp_deal (p : Nat) (x : Pipe) (d : Dev) : (d.setPipe p x).comp.deal = d.comp.deal := (rfl)
@[simp] theorem Dev.setPipe_comp_resumed (p : Nat) (x : Pipe) (d : Dev) : (d.setPipe p x).comp.resumed = d.comp.resumed := (rfl)
@[simp] theorem Dev.setPipe_comp_step (p : Nat) (x : Pipe) (d : Dev) : (d.setPipe p x).comp.step = d.comp.step := (rfl)
@[simp] theorem Dev.setPipe_comp_stepAt (p : Nat) (x : Pipe) (d : Dev) : (d.setPipe p x).comp.stepAt = d.comp.stepAt := (rfl)
@[simp] theorem Dev.setPipe_comp_disputes (p : Nat) (x : Pipe) (d : Dev) : (d.setPipe p x).comp.disputes = d.comp.disputes := (rfl)
@[simp] theorem Dev.setPipe_comp_mm (p : Nat) (x : Pipe) (d : Dev) : (d.setPipe p x).comp.mm = d.comp.mm := (rfl)

/-! ### `Dev.setGather` -/

@[simp] theorem Dev.setGather_now (g : Nat) (x : Gather) (d : Dev) : (d.setGather g x).now = d.now := (rfl)
@[simp] theorem Dev.setGather_regs (g : Nat) (x : Gather) (d : Dev) : (d.setGather g x).regs = d.regs := (rfl)
@[simp] theorem Dev.setGather_luts (g : Nat) (x : Gather) (d : Dev) : (d.setGather g x).luts = d.luts := (rfl)
@[simp] theorem Dev.setGather_mem (g : Nat) (x : Gather) (d : Dev) : (d.setGather g x).mem = d.mem := (rfl)
@[simp] theorem Dev.setGather_scene (g : Nat) (x : Gather) (d : Dev) : (d.setGather g x).scene = d.scene := (rfl)
@[simp] theorem Dev.setGather_ledger (g : Nat) (x : Gather) (d : Dev) : (d.setGather g x).ledger = d.ledger := (rfl)
@[simp] theorem Dev.setGather_queues (g : Nat) (x : Gather) (d : Dev) : (d.setGather g x).queues = d.queues := (rfl)
@[simp] theorem Dev.setGather_turn (g : Nat) (x : Gather) (d : Dev) : (d.setGather g x).turn = d.turn := (rfl)
@[simp] theorem Dev.setGather_lastTurn (g : Nat) (x : Gather) (d : Dev) : (d.setGather g x).lastTurn = d.lastTurn := (rfl)
@[simp] theorem Dev.setGather_rings (g : Nat) (x : Gather) (d : Dev) : (d.setGather g x).rings = d.rings := (rfl)
@[simp] theorem Dev.setGather_canvases (g : Nat) (x : Gather) (d : Dev) : (d.setGather g x).canvases = d.canvases := (rfl)
@[simp] theorem Dev.setGather_ports (g : Nat) (x : Gather) (d : Dev) : (d.setGather g x).ports = d.ports := (rfl)
@[simp] theorem Dev.setGather_chans (g : Nat) (x : Gather) (d : Dev) : (d.setGather g x).chans = d.chans := (rfl)
@[simp] theorem Dev.setGather_timers (g : Nat) (x : Gather) (d : Dev) : (d.setGather g x).timers = d.timers := (rfl)
@[simp] theorem Dev.setGather_mrv (g : Nat) (x : Gather) (d : Dev) : (d.setGather g x).mrv = d.mrv := (rfl)
@[simp] theorem Dev.setGather_engines (g : Nat) (x : Gather) (d : Dev) : (d.setGather g x).engines = d.engines := (rfl)
@[simp] theorem Dev.setGather_regions (g : Nat) (x : Gather) (d : Dev) : (d.setGather g x).regions = d.regions := (rfl)
@[simp] theorem Dev.setGather_mct (g : Nat) (x : Gather) (d : Dev) : (d.setGather g x).mct = d.mct := (rfl)
@[simp] theorem Dev.setGather_cru (g : Nat) (x : Gather) (d : Dev) : (d.setGather g x).cru = d.cru := (rfl)
@[simp] theorem Dev.setGather_acc (g : Nat) (x : Gather) (d : Dev) : (d.setGather g x).acc = d.acc := (rfl)
@[simp] theorem Dev.setGather_flt (g : Nat) (x : Gather) (d : Dev) : (d.setGather g x).flt = d.flt := (rfl)
@[simp] theorem Dev.setGather_svc (g : Nat) (x : Gather) (d : Dev) : (d.setGather g x).svc = d.svc := (rfl)
@[simp] theorem Dev.setGather_tb (g : Nat) (x : Gather) (d : Dev) : (d.setGather g x).tb = d.tb := (rfl)
@[simp] theorem Dev.setGather_clk (g : Nat) (x : Gather) (d : Dev) : (d.setGather g x).clk = d.clk := (rfl)
@[simp] theorem Dev.setGather_rst (g : Nat) (x : Gather) (d : Dev) : (d.setGather g x).rst = d.rst := (rfl)
@[simp] theorem Dev.setGather_hif (g : Nat) (x : Gather) (d : Dev) : (d.setGather g x).hif = d.hif := (rfl)
@[simp] theorem Dev.setGather_pins (g : Nat) (x : Gather) (d : Dev) : (d.setGather g x).pins = d.pins := (rfl)
@[simp] theorem Dev.setGather_comp_pipes (g : Nat) (x : Gather) (d : Dev) : (d.setGather g x).comp.pipes = d.comp.pipes := (rfl)
@[simp] theorem Dev.setGather_comp_deal (g : Nat) (x : Gather) (d : Dev) : (d.setGather g x).comp.deal = d.comp.deal := (rfl)
@[simp] theorem Dev.setGather_comp_resumed (g : Nat) (x : Gather) (d : Dev) : (d.setGather g x).comp.resumed = d.comp.resumed := (rfl)
@[simp] theorem Dev.setGather_comp_step (g : Nat) (x : Gather) (d : Dev) : (d.setGather g x).comp.step = d.comp.step := (rfl)
@[simp] theorem Dev.setGather_comp_stepAt (g : Nat) (x : Gather) (d : Dev) : (d.setGather g x).comp.stepAt = d.comp.stepAt := (rfl)
@[simp] theorem Dev.setGather_comp_disputes (g : Nat) (x : Gather) (d : Dev) : (d.setGather g x).comp.disputes = d.comp.disputes := (rfl)
@[simp] theorem Dev.setGather_comp_mm (g : Nat) (x : Gather) (d : Dev) : (d.setGather g x).comp.mm = d.comp.mm := (rfl)

/-! ### `Dev.setSite` -/

@[simp] theorem Dev.setSite_now (s : Nat) (x : Site) (d : Dev) : (d.setSite s x).now = d.now := (rfl)
@[simp] theorem Dev.setSite_regs (s : Nat) (x : Site) (d : Dev) : (d.setSite s x).regs = d.regs := (rfl)
@[simp] theorem Dev.setSite_luts (s : Nat) (x : Site) (d : Dev) : (d.setSite s x).luts = d.luts := (rfl)
@[simp] theorem Dev.setSite_mem (s : Nat) (x : Site) (d : Dev) : (d.setSite s x).mem = d.mem := (rfl)
@[simp] theorem Dev.setSite_scene (s : Nat) (x : Site) (d : Dev) : (d.setSite s x).scene = d.scene := (rfl)
@[simp] theorem Dev.setSite_ledger (s : Nat) (x : Site) (d : Dev) : (d.setSite s x).ledger = d.ledger := (rfl)
@[simp] theorem Dev.setSite_queues (s : Nat) (x : Site) (d : Dev) : (d.setSite s x).queues = d.queues := (rfl)
@[simp] theorem Dev.setSite_turn (s : Nat) (x : Site) (d : Dev) : (d.setSite s x).turn = d.turn := (rfl)
@[simp] theorem Dev.setSite_lastTurn (s : Nat) (x : Site) (d : Dev) : (d.setSite s x).lastTurn = d.lastTurn := (rfl)
@[simp] theorem Dev.setSite_rings (s : Nat) (x : Site) (d : Dev) : (d.setSite s x).rings = d.rings := (rfl)
@[simp] theorem Dev.setSite_canvases (s : Nat) (x : Site) (d : Dev) : (d.setSite s x).canvases = d.canvases := (rfl)
@[simp] theorem Dev.setSite_comp (s : Nat) (x : Site) (d : Dev) : (d.setSite s x).comp = d.comp := (rfl)
@[simp] theorem Dev.setSite_ports (s : Nat) (x : Site) (d : Dev) : (d.setSite s x).ports = d.ports := (rfl)
@[simp] theorem Dev.setSite_chans (s : Nat) (x : Site) (d : Dev) : (d.setSite s x).chans = d.chans := (rfl)
@[simp] theorem Dev.setSite_timers (s : Nat) (x : Site) (d : Dev) : (d.setSite s x).timers = d.timers := (rfl)
@[simp] theorem Dev.setSite_mrv (s : Nat) (x : Site) (d : Dev) : (d.setSite s x).mrv = d.mrv := (rfl)
@[simp] theorem Dev.setSite_engines (s : Nat) (x : Site) (d : Dev) : (d.setSite s x).engines = d.engines := (rfl)
@[simp] theorem Dev.setSite_regions (s : Nat) (x : Site) (d : Dev) : (d.setSite s x).regions = d.regions := (rfl)
@[simp] theorem Dev.setSite_cru (s : Nat) (x : Site) (d : Dev) : (d.setSite s x).cru = d.cru := (rfl)
@[simp] theorem Dev.setSite_acc (s : Nat) (x : Site) (d : Dev) : (d.setSite s x).acc = d.acc := (rfl)
@[simp] theorem Dev.setSite_flt (s : Nat) (x : Site) (d : Dev) : (d.setSite s x).flt = d.flt := (rfl)
@[simp] theorem Dev.setSite_svc (s : Nat) (x : Site) (d : Dev) : (d.setSite s x).svc = d.svc := (rfl)
@[simp] theorem Dev.setSite_tb (s : Nat) (x : Site) (d : Dev) : (d.setSite s x).tb = d.tb := (rfl)
@[simp] theorem Dev.setSite_clk (s : Nat) (x : Site) (d : Dev) : (d.setSite s x).clk = d.clk := (rfl)
@[simp] theorem Dev.setSite_rst (s : Nat) (x : Site) (d : Dev) : (d.setSite s x).rst = d.rst := (rfl)
@[simp] theorem Dev.setSite_hif (s : Nat) (x : Site) (d : Dev) : (d.setSite s x).hif = d.hif := (rfl)
@[simp] theorem Dev.setSite_pins (s : Nat) (x : Site) (d : Dev) : (d.setSite s x).pins = d.pins := (rfl)
@[simp] theorem Dev.setSite_mct_state (s : Nat) (x : Site) (d : Dev) : (d.setSite s x).mct.state = d.mct.state := (rfl)
@[simp] theorem Dev.setSite_mct_rate (s : Nat) (x : Site) (d : Dev) : (d.setSite s x).mct.rate = d.mct.rate := (rfl)
@[simp] theorem Dev.setSite_mct_dens4 (s : Nat) (x : Site) (d : Dev) : (d.setSite s x).mct.dens4 = d.mct.dens4 := (rfl)
@[simp] theorem Dev.setSite_mct_gangs (s : Nat) (x : Site) (d : Dev) : (d.setSite s x).mct.gangs = d.mct.gangs := (rfl)
@[simp] theorem Dev.setSite_mct_lanes (s : Nat) (x : Site) (d : Dev) : (d.setSite s x).mct.lanes = d.mct.lanes := (rfl)
@[simp] theorem Dev.setSite_mct_spare (s : Nat) (x : Site) (d : Dev) : (d.setSite s x).mct.spare = d.mct.spare := (rfl)
@[simp] theorem Dev.setSite_mct_tags (s : Nat) (x : Site) (d : Dev) : (d.setSite s x).mct.tags = d.mct.tags := (rfl)
@[simp] theorem Dev.setSite_mct_returned (s : Nat) (x : Site) (d : Dev) : (d.setSite s x).mct.returned = d.mct.returned := (rfl)
@[simp] theorem Dev.setSite_mct_gone (s : Nat) (x : Site) (d : Dev) : (d.setSite s x).mct.gone = d.mct.gone := (rfl)
@[simp] theorem Dev.setSite_mct_spareLost (s : Nat) (x : Site) (d : Dev) : (d.setSite s x).mct.spareLost = d.mct.spareLost := (rfl)
@[simp] theorem Dev.setSite_mct_ptr (s : Nat) (x : Site) (d : Dev) : (d.setSite s x).mct.ptr = d.mct.ptr := (rfl)
@[simp] theorem Dev.setSite_mct_grant (s : Nat) (x : Site) (d : Dev) : (d.setSite s x).mct.grant = d.mct.grant := (rfl)
@[simp] theorem Dev.setSite_mct_poison (s : Nat) (x : Site) (d : Dev) : (d.setSite s x).mct.poison = d.mct.poison := (rfl)
@[simp] theorem Dev.setSite_mct_corrected (s : Nat) (x : Site) (d : Dev) : (d.setSite s x).mct.corrected = d.mct.corrected := (rfl)
@[simp] theorem Dev.setSite_mct_uncorr (s : Nat) (x : Site) (d : Dev) : (d.setSite s x).mct.uncorr = d.mct.uncorr := (rfl)
@[simp] theorem Dev.setSite_mct_copied (s : Nat) (x : Site) (d : Dev) : (d.setSite s x).mct.copied = d.mct.copied := (rfl)
@[simp] theorem Dev.setSite_mct_forced (s : Nat) (x : Site) (d : Dev) : (d.setSite s x).mct.forced = d.mct.forced := (rfl)
@[simp] theorem Dev.setSite_mct_postponed (s : Nat) (x : Site) (d : Dev) : (d.setSite s x).mct.postponed = d.mct.postponed := (rfl)
@[simp] theorem Dev.setSite_mct_late (s : Nat) (x : Site) (d : Dev) : (d.setSite s x).mct.late = d.mct.late := (rfl)
@[simp] theorem Dev.setSite_mct_moves (s : Nat) (x : Site) (d : Dev) : (d.setSite s x).mct.moves = d.mct.moves := (rfl)

/-! ### `Dev.setGang` -/

@[simp] theorem Dev.setGang_now (g : Nat) (x : Gang) (d : Dev) : (d.setGang g x).now = d.now := (rfl)
@[simp] theorem Dev.setGang_regs (g : Nat) (x : Gang) (d : Dev) : (d.setGang g x).regs = d.regs := (rfl)
@[simp] theorem Dev.setGang_luts (g : Nat) (x : Gang) (d : Dev) : (d.setGang g x).luts = d.luts := (rfl)
@[simp] theorem Dev.setGang_mem (g : Nat) (x : Gang) (d : Dev) : (d.setGang g x).mem = d.mem := (rfl)
@[simp] theorem Dev.setGang_scene (g : Nat) (x : Gang) (d : Dev) : (d.setGang g x).scene = d.scene := (rfl)
@[simp] theorem Dev.setGang_ledger (g : Nat) (x : Gang) (d : Dev) : (d.setGang g x).ledger = d.ledger := (rfl)
@[simp] theorem Dev.setGang_queues (g : Nat) (x : Gang) (d : Dev) : (d.setGang g x).queues = d.queues := (rfl)
@[simp] theorem Dev.setGang_turn (g : Nat) (x : Gang) (d : Dev) : (d.setGang g x).turn = d.turn := (rfl)
@[simp] theorem Dev.setGang_lastTurn (g : Nat) (x : Gang) (d : Dev) : (d.setGang g x).lastTurn = d.lastTurn := (rfl)
@[simp] theorem Dev.setGang_rings (g : Nat) (x : Gang) (d : Dev) : (d.setGang g x).rings = d.rings := (rfl)
@[simp] theorem Dev.setGang_canvases (g : Nat) (x : Gang) (d : Dev) : (d.setGang g x).canvases = d.canvases := (rfl)
@[simp] theorem Dev.setGang_comp (g : Nat) (x : Gang) (d : Dev) : (d.setGang g x).comp = d.comp := (rfl)
@[simp] theorem Dev.setGang_ports (g : Nat) (x : Gang) (d : Dev) : (d.setGang g x).ports = d.ports := (rfl)
@[simp] theorem Dev.setGang_chans (g : Nat) (x : Gang) (d : Dev) : (d.setGang g x).chans = d.chans := (rfl)
@[simp] theorem Dev.setGang_timers (g : Nat) (x : Gang) (d : Dev) : (d.setGang g x).timers = d.timers := (rfl)
@[simp] theorem Dev.setGang_mrv (g : Nat) (x : Gang) (d : Dev) : (d.setGang g x).mrv = d.mrv := (rfl)
@[simp] theorem Dev.setGang_engines (g : Nat) (x : Gang) (d : Dev) : (d.setGang g x).engines = d.engines := (rfl)
@[simp] theorem Dev.setGang_regions (g : Nat) (x : Gang) (d : Dev) : (d.setGang g x).regions = d.regions := (rfl)
@[simp] theorem Dev.setGang_cru (g : Nat) (x : Gang) (d : Dev) : (d.setGang g x).cru = d.cru := (rfl)
@[simp] theorem Dev.setGang_acc (g : Nat) (x : Gang) (d : Dev) : (d.setGang g x).acc = d.acc := (rfl)
@[simp] theorem Dev.setGang_flt (g : Nat) (x : Gang) (d : Dev) : (d.setGang g x).flt = d.flt := (rfl)
@[simp] theorem Dev.setGang_svc (g : Nat) (x : Gang) (d : Dev) : (d.setGang g x).svc = d.svc := (rfl)
@[simp] theorem Dev.setGang_tb (g : Nat) (x : Gang) (d : Dev) : (d.setGang g x).tb = d.tb := (rfl)
@[simp] theorem Dev.setGang_clk (g : Nat) (x : Gang) (d : Dev) : (d.setGang g x).clk = d.clk := (rfl)
@[simp] theorem Dev.setGang_rst (g : Nat) (x : Gang) (d : Dev) : (d.setGang g x).rst = d.rst := (rfl)
@[simp] theorem Dev.setGang_hif (g : Nat) (x : Gang) (d : Dev) : (d.setGang g x).hif = d.hif := (rfl)
@[simp] theorem Dev.setGang_pins (g : Nat) (x : Gang) (d : Dev) : (d.setGang g x).pins = d.pins := (rfl)
@[simp] theorem Dev.setGang_mct_state (g : Nat) (x : Gang) (d : Dev) : (d.setGang g x).mct.state = d.mct.state := (rfl)
@[simp] theorem Dev.setGang_mct_rate (g : Nat) (x : Gang) (d : Dev) : (d.setGang g x).mct.rate = d.mct.rate := (rfl)
@[simp] theorem Dev.setGang_mct_dens4 (g : Nat) (x : Gang) (d : Dev) : (d.setGang g x).mct.dens4 = d.mct.dens4 := (rfl)
@[simp] theorem Dev.setGang_mct_sites (g : Nat) (x : Gang) (d : Dev) : (d.setGang g x).mct.sites = d.mct.sites := (rfl)
@[simp] theorem Dev.setGang_mct_lanes (g : Nat) (x : Gang) (d : Dev) : (d.setGang g x).mct.lanes = d.mct.lanes := (rfl)
@[simp] theorem Dev.setGang_mct_spare (g : Nat) (x : Gang) (d : Dev) : (d.setGang g x).mct.spare = d.mct.spare := (rfl)
@[simp] theorem Dev.setGang_mct_tags (g : Nat) (x : Gang) (d : Dev) : (d.setGang g x).mct.tags = d.mct.tags := (rfl)
@[simp] theorem Dev.setGang_mct_returned (g : Nat) (x : Gang) (d : Dev) : (d.setGang g x).mct.returned = d.mct.returned := (rfl)
@[simp] theorem Dev.setGang_mct_gone (g : Nat) (x : Gang) (d : Dev) : (d.setGang g x).mct.gone = d.mct.gone := (rfl)
@[simp] theorem Dev.setGang_mct_spareLost (g : Nat) (x : Gang) (d : Dev) : (d.setGang g x).mct.spareLost = d.mct.spareLost := (rfl)
@[simp] theorem Dev.setGang_mct_ptr (g : Nat) (x : Gang) (d : Dev) : (d.setGang g x).mct.ptr = d.mct.ptr := (rfl)
@[simp] theorem Dev.setGang_mct_grant (g : Nat) (x : Gang) (d : Dev) : (d.setGang g x).mct.grant = d.mct.grant := (rfl)
@[simp] theorem Dev.setGang_mct_poison (g : Nat) (x : Gang) (d : Dev) : (d.setGang g x).mct.poison = d.mct.poison := (rfl)
@[simp] theorem Dev.setGang_mct_corrected (g : Nat) (x : Gang) (d : Dev) : (d.setGang g x).mct.corrected = d.mct.corrected := (rfl)
@[simp] theorem Dev.setGang_mct_uncorr (g : Nat) (x : Gang) (d : Dev) : (d.setGang g x).mct.uncorr = d.mct.uncorr := (rfl)
@[simp] theorem Dev.setGang_mct_copied (g : Nat) (x : Gang) (d : Dev) : (d.setGang g x).mct.copied = d.mct.copied := (rfl)
@[simp] theorem Dev.setGang_mct_forced (g : Nat) (x : Gang) (d : Dev) : (d.setGang g x).mct.forced = d.mct.forced := (rfl)
@[simp] theorem Dev.setGang_mct_postponed (g : Nat) (x : Gang) (d : Dev) : (d.setGang g x).mct.postponed = d.mct.postponed := (rfl)
@[simp] theorem Dev.setGang_mct_late (g : Nat) (x : Gang) (d : Dev) : (d.setGang g x).mct.late = d.mct.late := (rfl)
@[simp] theorem Dev.setGang_mct_moves (g : Nat) (x : Gang) (d : Dev) : (d.setGang g x).mct.moves = d.mct.moves := (rfl)

/-! ### `Dev.setLane` -/

@[simp] theorem Dev.setLane_now (l : Nat) (x : Lane) (d : Dev) : (d.setLane l x).now = d.now := (rfl)
@[simp] theorem Dev.setLane_regs (l : Nat) (x : Lane) (d : Dev) : (d.setLane l x).regs = d.regs := (rfl)
@[simp] theorem Dev.setLane_luts (l : Nat) (x : Lane) (d : Dev) : (d.setLane l x).luts = d.luts := (rfl)
@[simp] theorem Dev.setLane_mem (l : Nat) (x : Lane) (d : Dev) : (d.setLane l x).mem = d.mem := (rfl)
@[simp] theorem Dev.setLane_scene (l : Nat) (x : Lane) (d : Dev) : (d.setLane l x).scene = d.scene := (rfl)
@[simp] theorem Dev.setLane_ledger (l : Nat) (x : Lane) (d : Dev) : (d.setLane l x).ledger = d.ledger := (rfl)
@[simp] theorem Dev.setLane_queues (l : Nat) (x : Lane) (d : Dev) : (d.setLane l x).queues = d.queues := (rfl)
@[simp] theorem Dev.setLane_turn (l : Nat) (x : Lane) (d : Dev) : (d.setLane l x).turn = d.turn := (rfl)
@[simp] theorem Dev.setLane_lastTurn (l : Nat) (x : Lane) (d : Dev) : (d.setLane l x).lastTurn = d.lastTurn := (rfl)
@[simp] theorem Dev.setLane_rings (l : Nat) (x : Lane) (d : Dev) : (d.setLane l x).rings = d.rings := (rfl)
@[simp] theorem Dev.setLane_canvases (l : Nat) (x : Lane) (d : Dev) : (d.setLane l x).canvases = d.canvases := (rfl)
@[simp] theorem Dev.setLane_comp (l : Nat) (x : Lane) (d : Dev) : (d.setLane l x).comp = d.comp := (rfl)
@[simp] theorem Dev.setLane_ports (l : Nat) (x : Lane) (d : Dev) : (d.setLane l x).ports = d.ports := (rfl)
@[simp] theorem Dev.setLane_chans (l : Nat) (x : Lane) (d : Dev) : (d.setLane l x).chans = d.chans := (rfl)
@[simp] theorem Dev.setLane_timers (l : Nat) (x : Lane) (d : Dev) : (d.setLane l x).timers = d.timers := (rfl)
@[simp] theorem Dev.setLane_mrv (l : Nat) (x : Lane) (d : Dev) : (d.setLane l x).mrv = d.mrv := (rfl)
@[simp] theorem Dev.setLane_engines (l : Nat) (x : Lane) (d : Dev) : (d.setLane l x).engines = d.engines := (rfl)
@[simp] theorem Dev.setLane_regions (l : Nat) (x : Lane) (d : Dev) : (d.setLane l x).regions = d.regions := (rfl)
@[simp] theorem Dev.setLane_cru (l : Nat) (x : Lane) (d : Dev) : (d.setLane l x).cru = d.cru := (rfl)
@[simp] theorem Dev.setLane_acc (l : Nat) (x : Lane) (d : Dev) : (d.setLane l x).acc = d.acc := (rfl)
@[simp] theorem Dev.setLane_flt (l : Nat) (x : Lane) (d : Dev) : (d.setLane l x).flt = d.flt := (rfl)
@[simp] theorem Dev.setLane_svc (l : Nat) (x : Lane) (d : Dev) : (d.setLane l x).svc = d.svc := (rfl)
@[simp] theorem Dev.setLane_tb (l : Nat) (x : Lane) (d : Dev) : (d.setLane l x).tb = d.tb := (rfl)
@[simp] theorem Dev.setLane_clk (l : Nat) (x : Lane) (d : Dev) : (d.setLane l x).clk = d.clk := (rfl)
@[simp] theorem Dev.setLane_rst (l : Nat) (x : Lane) (d : Dev) : (d.setLane l x).rst = d.rst := (rfl)
@[simp] theorem Dev.setLane_hif (l : Nat) (x : Lane) (d : Dev) : (d.setLane l x).hif = d.hif := (rfl)
@[simp] theorem Dev.setLane_pins (l : Nat) (x : Lane) (d : Dev) : (d.setLane l x).pins = d.pins := (rfl)
@[simp] theorem Dev.setLane_mct_state (l : Nat) (x : Lane) (d : Dev) : (d.setLane l x).mct.state = d.mct.state := (rfl)
@[simp] theorem Dev.setLane_mct_rate (l : Nat) (x : Lane) (d : Dev) : (d.setLane l x).mct.rate = d.mct.rate := (rfl)
@[simp] theorem Dev.setLane_mct_dens4 (l : Nat) (x : Lane) (d : Dev) : (d.setLane l x).mct.dens4 = d.mct.dens4 := (rfl)
@[simp] theorem Dev.setLane_mct_sites (l : Nat) (x : Lane) (d : Dev) : (d.setLane l x).mct.sites = d.mct.sites := (rfl)
@[simp] theorem Dev.setLane_mct_gangs (l : Nat) (x : Lane) (d : Dev) : (d.setLane l x).mct.gangs = d.mct.gangs := (rfl)
@[simp] theorem Dev.setLane_mct_spare (l : Nat) (x : Lane) (d : Dev) : (d.setLane l x).mct.spare = d.mct.spare := (rfl)
@[simp] theorem Dev.setLane_mct_tags (l : Nat) (x : Lane) (d : Dev) : (d.setLane l x).mct.tags = d.mct.tags := (rfl)
@[simp] theorem Dev.setLane_mct_returned (l : Nat) (x : Lane) (d : Dev) : (d.setLane l x).mct.returned = d.mct.returned := (rfl)
@[simp] theorem Dev.setLane_mct_gone (l : Nat) (x : Lane) (d : Dev) : (d.setLane l x).mct.gone = d.mct.gone := (rfl)
@[simp] theorem Dev.setLane_mct_spareLost (l : Nat) (x : Lane) (d : Dev) : (d.setLane l x).mct.spareLost = d.mct.spareLost := (rfl)
@[simp] theorem Dev.setLane_mct_ptr (l : Nat) (x : Lane) (d : Dev) : (d.setLane l x).mct.ptr = d.mct.ptr := (rfl)
@[simp] theorem Dev.setLane_mct_grant (l : Nat) (x : Lane) (d : Dev) : (d.setLane l x).mct.grant = d.mct.grant := (rfl)
@[simp] theorem Dev.setLane_mct_poison (l : Nat) (x : Lane) (d : Dev) : (d.setLane l x).mct.poison = d.mct.poison := (rfl)
@[simp] theorem Dev.setLane_mct_corrected (l : Nat) (x : Lane) (d : Dev) : (d.setLane l x).mct.corrected = d.mct.corrected := (rfl)
@[simp] theorem Dev.setLane_mct_uncorr (l : Nat) (x : Lane) (d : Dev) : (d.setLane l x).mct.uncorr = d.mct.uncorr := (rfl)
@[simp] theorem Dev.setLane_mct_copied (l : Nat) (x : Lane) (d : Dev) : (d.setLane l x).mct.copied = d.mct.copied := (rfl)
@[simp] theorem Dev.setLane_mct_forced (l : Nat) (x : Lane) (d : Dev) : (d.setLane l x).mct.forced = d.mct.forced := (rfl)
@[simp] theorem Dev.setLane_mct_postponed (l : Nat) (x : Lane) (d : Dev) : (d.setLane l x).mct.postponed = d.mct.postponed := (rfl)
@[simp] theorem Dev.setLane_mct_late (l : Nat) (x : Lane) (d : Dev) : (d.setLane l x).mct.late = d.mct.late := (rfl)
@[simp] theorem Dev.setLane_mct_moves (l : Nat) (x : Lane) (d : Dev) : (d.setLane l x).mct.moves = d.mct.moves := (rfl)

/-! ### `Dev.setEffAt` -/

@[simp] theorem Dev.setEffAt_now (a : Nat) (w : Word) (d : Dev) : (d.setEffAt a w).now = d.now := (rfl)
@[simp] theorem Dev.setEffAt_luts (a : Nat) (w : Word) (d : Dev) : (d.setEffAt a w).luts = d.luts := (rfl)
@[simp] theorem Dev.setEffAt_mem (a : Nat) (w : Word) (d : Dev) : (d.setEffAt a w).mem = d.mem := (rfl)
@[simp] theorem Dev.setEffAt_scene (a : Nat) (w : Word) (d : Dev) : (d.setEffAt a w).scene = d.scene := (rfl)
@[simp] theorem Dev.setEffAt_ledger (a : Nat) (w : Word) (d : Dev) : (d.setEffAt a w).ledger = d.ledger := (rfl)
@[simp] theorem Dev.setEffAt_queues (a : Nat) (w : Word) (d : Dev) : (d.setEffAt a w).queues = d.queues := (rfl)
@[simp] theorem Dev.setEffAt_turn (a : Nat) (w : Word) (d : Dev) : (d.setEffAt a w).turn = d.turn := (rfl)
@[simp] theorem Dev.setEffAt_lastTurn (a : Nat) (w : Word) (d : Dev) : (d.setEffAt a w).lastTurn = d.lastTurn := (rfl)
@[simp] theorem Dev.setEffAt_rings (a : Nat) (w : Word) (d : Dev) : (d.setEffAt a w).rings = d.rings := (rfl)
@[simp] theorem Dev.setEffAt_canvases (a : Nat) (w : Word) (d : Dev) : (d.setEffAt a w).canvases = d.canvases := (rfl)
@[simp] theorem Dev.setEffAt_comp (a : Nat) (w : Word) (d : Dev) : (d.setEffAt a w).comp = d.comp := (rfl)
@[simp] theorem Dev.setEffAt_ports (a : Nat) (w : Word) (d : Dev) : (d.setEffAt a w).ports = d.ports := (rfl)
@[simp] theorem Dev.setEffAt_chans (a : Nat) (w : Word) (d : Dev) : (d.setEffAt a w).chans = d.chans := (rfl)
@[simp] theorem Dev.setEffAt_timers (a : Nat) (w : Word) (d : Dev) : (d.setEffAt a w).timers = d.timers := (rfl)
@[simp] theorem Dev.setEffAt_mrv (a : Nat) (w : Word) (d : Dev) : (d.setEffAt a w).mrv = d.mrv := (rfl)
@[simp] theorem Dev.setEffAt_engines (a : Nat) (w : Word) (d : Dev) : (d.setEffAt a w).engines = d.engines := (rfl)
@[simp] theorem Dev.setEffAt_regions (a : Nat) (w : Word) (d : Dev) : (d.setEffAt a w).regions = d.regions := (rfl)
@[simp] theorem Dev.setEffAt_mct (a : Nat) (w : Word) (d : Dev) : (d.setEffAt a w).mct = d.mct := (rfl)
@[simp] theorem Dev.setEffAt_cru (a : Nat) (w : Word) (d : Dev) : (d.setEffAt a w).cru = d.cru := (rfl)
@[simp] theorem Dev.setEffAt_acc (a : Nat) (w : Word) (d : Dev) : (d.setEffAt a w).acc = d.acc := (rfl)
@[simp] theorem Dev.setEffAt_flt (a : Nat) (w : Word) (d : Dev) : (d.setEffAt a w).flt = d.flt := (rfl)
@[simp] theorem Dev.setEffAt_svc (a : Nat) (w : Word) (d : Dev) : (d.setEffAt a w).svc = d.svc := (rfl)
@[simp] theorem Dev.setEffAt_tb (a : Nat) (w : Word) (d : Dev) : (d.setEffAt a w).tb = d.tb := (rfl)
@[simp] theorem Dev.setEffAt_clk (a : Nat) (w : Word) (d : Dev) : (d.setEffAt a w).clk = d.clk := (rfl)
@[simp] theorem Dev.setEffAt_rst (a : Nat) (w : Word) (d : Dev) : (d.setEffAt a w).rst = d.rst := (rfl)
@[simp] theorem Dev.setEffAt_hif (a : Nat) (w : Word) (d : Dev) : (d.setEffAt a w).hif = d.hif := (rfl)
@[simp] theorem Dev.setEffAt_pins (a : Nat) (w : Word) (d : Dev) : (d.setEffAt a w).pins = d.pins := (rfl)
@[simp] theorem Dev.setEffAt_regs_staged (a : Nat) (w : Word) (d : Dev) : (d.setEffAt a w).regs.staged = d.regs.staged := (rfl)
@[simp] theorem Dev.setEffAt_regs_admitted (a : Nat) (w : Word) (d : Dev) : (d.setEffAt a w).regs.admitted = d.regs.admitted := (rfl)
@[simp] theorem Dev.setEffAt_regs_arms (a : Nat) (w : Word) (d : Dev) : (d.setEffAt a w).regs.arms = d.regs.arms := (rfl)
@[simp] theorem Dev.setEffAt_regs_hold (a : Nat) (w : Word) (d : Dev) : (d.setEffAt a w).regs.hold = d.regs.hold := (rfl)
@[simp] theorem Dev.setEffAt_regs_discarded (a : Nat) (w : Word) (d : Dev) : (d.setEffAt a w).regs.discarded = d.regs.discarded := (rfl)
@[simp] theorem Dev.setEffAt_regs_snaps (a : Nat) (w : Word) (d : Dev) : (d.setEffAt a w).regs.snaps = d.regs.snaps := (rfl)

/-! ### `Dev.setReg` -/

@[simp] theorem Dev.setReg_now (t : PType) (i off : Nat) (w : Word) (d : Dev) : (d.setReg t i off w).now = d.now := (rfl)
@[simp] theorem Dev.setReg_luts (t : PType) (i off : Nat) (w : Word) (d : Dev) : (d.setReg t i off w).luts = d.luts := (rfl)
@[simp] theorem Dev.setReg_mem (t : PType) (i off : Nat) (w : Word) (d : Dev) : (d.setReg t i off w).mem = d.mem := (rfl)
@[simp] theorem Dev.setReg_scene (t : PType) (i off : Nat) (w : Word) (d : Dev) : (d.setReg t i off w).scene = d.scene := (rfl)
@[simp] theorem Dev.setReg_ledger (t : PType) (i off : Nat) (w : Word) (d : Dev) : (d.setReg t i off w).ledger = d.ledger := (rfl)
@[simp] theorem Dev.setReg_queues (t : PType) (i off : Nat) (w : Word) (d : Dev) : (d.setReg t i off w).queues = d.queues := (rfl)
@[simp] theorem Dev.setReg_turn (t : PType) (i off : Nat) (w : Word) (d : Dev) : (d.setReg t i off w).turn = d.turn := (rfl)
@[simp] theorem Dev.setReg_lastTurn (t : PType) (i off : Nat) (w : Word) (d : Dev) : (d.setReg t i off w).lastTurn = d.lastTurn := (rfl)
@[simp] theorem Dev.setReg_rings (t : PType) (i off : Nat) (w : Word) (d : Dev) : (d.setReg t i off w).rings = d.rings := (rfl)
@[simp] theorem Dev.setReg_canvases (t : PType) (i off : Nat) (w : Word) (d : Dev) : (d.setReg t i off w).canvases = d.canvases := (rfl)
@[simp] theorem Dev.setReg_comp (t : PType) (i off : Nat) (w : Word) (d : Dev) : (d.setReg t i off w).comp = d.comp := (rfl)
@[simp] theorem Dev.setReg_ports (t : PType) (i off : Nat) (w : Word) (d : Dev) : (d.setReg t i off w).ports = d.ports := (rfl)
@[simp] theorem Dev.setReg_chans (t : PType) (i off : Nat) (w : Word) (d : Dev) : (d.setReg t i off w).chans = d.chans := (rfl)
@[simp] theorem Dev.setReg_timers (t : PType) (i off : Nat) (w : Word) (d : Dev) : (d.setReg t i off w).timers = d.timers := (rfl)
@[simp] theorem Dev.setReg_mrv (t : PType) (i off : Nat) (w : Word) (d : Dev) : (d.setReg t i off w).mrv = d.mrv := (rfl)
@[simp] theorem Dev.setReg_engines (t : PType) (i off : Nat) (w : Word) (d : Dev) : (d.setReg t i off w).engines = d.engines := (rfl)
@[simp] theorem Dev.setReg_regions (t : PType) (i off : Nat) (w : Word) (d : Dev) : (d.setReg t i off w).regions = d.regions := (rfl)
@[simp] theorem Dev.setReg_mct (t : PType) (i off : Nat) (w : Word) (d : Dev) : (d.setReg t i off w).mct = d.mct := (rfl)
@[simp] theorem Dev.setReg_cru (t : PType) (i off : Nat) (w : Word) (d : Dev) : (d.setReg t i off w).cru = d.cru := (rfl)
@[simp] theorem Dev.setReg_acc (t : PType) (i off : Nat) (w : Word) (d : Dev) : (d.setReg t i off w).acc = d.acc := (rfl)
@[simp] theorem Dev.setReg_flt (t : PType) (i off : Nat) (w : Word) (d : Dev) : (d.setReg t i off w).flt = d.flt := (rfl)
@[simp] theorem Dev.setReg_svc (t : PType) (i off : Nat) (w : Word) (d : Dev) : (d.setReg t i off w).svc = d.svc := (rfl)
@[simp] theorem Dev.setReg_tb (t : PType) (i off : Nat) (w : Word) (d : Dev) : (d.setReg t i off w).tb = d.tb := (rfl)
@[simp] theorem Dev.setReg_clk (t : PType) (i off : Nat) (w : Word) (d : Dev) : (d.setReg t i off w).clk = d.clk := (rfl)
@[simp] theorem Dev.setReg_rst (t : PType) (i off : Nat) (w : Word) (d : Dev) : (d.setReg t i off w).rst = d.rst := (rfl)
@[simp] theorem Dev.setReg_hif (t : PType) (i off : Nat) (w : Word) (d : Dev) : (d.setReg t i off w).hif = d.hif := (rfl)
@[simp] theorem Dev.setReg_pins (t : PType) (i off : Nat) (w : Word) (d : Dev) : (d.setReg t i off w).pins = d.pins := (rfl)
@[simp] theorem Dev.setReg_regs_staged (t : PType) (i off : Nat) (w : Word) (d : Dev) : (d.setReg t i off w).regs.staged = d.regs.staged := (rfl)
@[simp] theorem Dev.setReg_regs_admitted (t : PType) (i off : Nat) (w : Word) (d : Dev) : (d.setReg t i off w).regs.admitted = d.regs.admitted := (rfl)
@[simp] theorem Dev.setReg_regs_arms (t : PType) (i off : Nat) (w : Word) (d : Dev) : (d.setReg t i off w).regs.arms = d.regs.arms := (rfl)
@[simp] theorem Dev.setReg_regs_hold (t : PType) (i off : Nat) (w : Word) (d : Dev) : (d.setReg t i off w).regs.hold = d.regs.hold := (rfl)
@[simp] theorem Dev.setReg_regs_discarded (t : PType) (i off : Nat) (w : Word) (d : Dev) : (d.setReg t i off w).regs.discarded = d.regs.discarded := (rfl)
@[simp] theorem Dev.setReg_regs_snaps (t : PType) (i off : Nat) (w : Word) (d : Dev) : (d.setReg t i off w).regs.snaps = d.regs.snaps := (rfl)

/-! ### `Dev.setStagedAt` -/

@[simp] theorem Dev.setStagedAt_now (a : Nat) (w : Option Word) (d : Dev) : (d.setStagedAt a w).now = d.now := (rfl)
@[simp] theorem Dev.setStagedAt_luts (a : Nat) (w : Option Word) (d : Dev) : (d.setStagedAt a w).luts = d.luts := (rfl)
@[simp] theorem Dev.setStagedAt_mem (a : Nat) (w : Option Word) (d : Dev) : (d.setStagedAt a w).mem = d.mem := (rfl)
@[simp] theorem Dev.setStagedAt_scene (a : Nat) (w : Option Word) (d : Dev) : (d.setStagedAt a w).scene = d.scene := (rfl)
@[simp] theorem Dev.setStagedAt_ledger (a : Nat) (w : Option Word) (d : Dev) : (d.setStagedAt a w).ledger = d.ledger := (rfl)
@[simp] theorem Dev.setStagedAt_queues (a : Nat) (w : Option Word) (d : Dev) : (d.setStagedAt a w).queues = d.queues := (rfl)
@[simp] theorem Dev.setStagedAt_turn (a : Nat) (w : Option Word) (d : Dev) : (d.setStagedAt a w).turn = d.turn := (rfl)
@[simp] theorem Dev.setStagedAt_lastTurn (a : Nat) (w : Option Word) (d : Dev) : (d.setStagedAt a w).lastTurn = d.lastTurn := (rfl)
@[simp] theorem Dev.setStagedAt_rings (a : Nat) (w : Option Word) (d : Dev) : (d.setStagedAt a w).rings = d.rings := (rfl)
@[simp] theorem Dev.setStagedAt_canvases (a : Nat) (w : Option Word) (d : Dev) : (d.setStagedAt a w).canvases = d.canvases := (rfl)
@[simp] theorem Dev.setStagedAt_comp (a : Nat) (w : Option Word) (d : Dev) : (d.setStagedAt a w).comp = d.comp := (rfl)
@[simp] theorem Dev.setStagedAt_ports (a : Nat) (w : Option Word) (d : Dev) : (d.setStagedAt a w).ports = d.ports := (rfl)
@[simp] theorem Dev.setStagedAt_chans (a : Nat) (w : Option Word) (d : Dev) : (d.setStagedAt a w).chans = d.chans := (rfl)
@[simp] theorem Dev.setStagedAt_timers (a : Nat) (w : Option Word) (d : Dev) : (d.setStagedAt a w).timers = d.timers := (rfl)
@[simp] theorem Dev.setStagedAt_mrv (a : Nat) (w : Option Word) (d : Dev) : (d.setStagedAt a w).mrv = d.mrv := (rfl)
@[simp] theorem Dev.setStagedAt_engines (a : Nat) (w : Option Word) (d : Dev) : (d.setStagedAt a w).engines = d.engines := (rfl)
@[simp] theorem Dev.setStagedAt_regions (a : Nat) (w : Option Word) (d : Dev) : (d.setStagedAt a w).regions = d.regions := (rfl)
@[simp] theorem Dev.setStagedAt_mct (a : Nat) (w : Option Word) (d : Dev) : (d.setStagedAt a w).mct = d.mct := (rfl)
@[simp] theorem Dev.setStagedAt_cru (a : Nat) (w : Option Word) (d : Dev) : (d.setStagedAt a w).cru = d.cru := (rfl)
@[simp] theorem Dev.setStagedAt_acc (a : Nat) (w : Option Word) (d : Dev) : (d.setStagedAt a w).acc = d.acc := (rfl)
@[simp] theorem Dev.setStagedAt_flt (a : Nat) (w : Option Word) (d : Dev) : (d.setStagedAt a w).flt = d.flt := (rfl)
@[simp] theorem Dev.setStagedAt_svc (a : Nat) (w : Option Word) (d : Dev) : (d.setStagedAt a w).svc = d.svc := (rfl)
@[simp] theorem Dev.setStagedAt_tb (a : Nat) (w : Option Word) (d : Dev) : (d.setStagedAt a w).tb = d.tb := (rfl)
@[simp] theorem Dev.setStagedAt_clk (a : Nat) (w : Option Word) (d : Dev) : (d.setStagedAt a w).clk = d.clk := (rfl)
@[simp] theorem Dev.setStagedAt_rst (a : Nat) (w : Option Word) (d : Dev) : (d.setStagedAt a w).rst = d.rst := (rfl)
@[simp] theorem Dev.setStagedAt_hif (a : Nat) (w : Option Word) (d : Dev) : (d.setStagedAt a w).hif = d.hif := (rfl)
@[simp] theorem Dev.setStagedAt_pins (a : Nat) (w : Option Word) (d : Dev) : (d.setStagedAt a w).pins = d.pins := (rfl)
@[simp] theorem Dev.setStagedAt_regs_eff (a : Nat) (w : Option Word) (d : Dev) : (d.setStagedAt a w).regs.eff = d.regs.eff := (rfl)
@[simp] theorem Dev.setStagedAt_regs_admitted (a : Nat) (w : Option Word) (d : Dev) : (d.setStagedAt a w).regs.admitted = d.regs.admitted := (rfl)
@[simp] theorem Dev.setStagedAt_regs_arms (a : Nat) (w : Option Word) (d : Dev) : (d.setStagedAt a w).regs.arms = d.regs.arms := (rfl)
@[simp] theorem Dev.setStagedAt_regs_hold (a : Nat) (w : Option Word) (d : Dev) : (d.setStagedAt a w).regs.hold = d.regs.hold := (rfl)
@[simp] theorem Dev.setStagedAt_regs_discarded (a : Nat) (w : Option Word) (d : Dev) : (d.setStagedAt a w).regs.discarded = d.regs.discarded := (rfl)
@[simp] theorem Dev.setStagedAt_regs_snaps (a : Nat) (w : Option Word) (d : Dev) : (d.setStagedAt a w).regs.snaps = d.regs.snaps := (rfl)

/-! ### `Dev.setAdmittedAt` -/

@[simp] theorem Dev.setAdmittedAt_now (a : Nat) (w : Option Word) (d : Dev) : (d.setAdmittedAt a w).now = d.now := (rfl)
@[simp] theorem Dev.setAdmittedAt_luts (a : Nat) (w : Option Word) (d : Dev) : (d.setAdmittedAt a w).luts = d.luts := (rfl)
@[simp] theorem Dev.setAdmittedAt_mem (a : Nat) (w : Option Word) (d : Dev) : (d.setAdmittedAt a w).mem = d.mem := (rfl)
@[simp] theorem Dev.setAdmittedAt_scene (a : Nat) (w : Option Word) (d : Dev) : (d.setAdmittedAt a w).scene = d.scene := (rfl)
@[simp] theorem Dev.setAdmittedAt_ledger (a : Nat) (w : Option Word) (d : Dev) : (d.setAdmittedAt a w).ledger = d.ledger := (rfl)
@[simp] theorem Dev.setAdmittedAt_queues (a : Nat) (w : Option Word) (d : Dev) : (d.setAdmittedAt a w).queues = d.queues := (rfl)
@[simp] theorem Dev.setAdmittedAt_turn (a : Nat) (w : Option Word) (d : Dev) : (d.setAdmittedAt a w).turn = d.turn := (rfl)
@[simp] theorem Dev.setAdmittedAt_lastTurn (a : Nat) (w : Option Word) (d : Dev) : (d.setAdmittedAt a w).lastTurn = d.lastTurn := (rfl)
@[simp] theorem Dev.setAdmittedAt_rings (a : Nat) (w : Option Word) (d : Dev) : (d.setAdmittedAt a w).rings = d.rings := (rfl)
@[simp] theorem Dev.setAdmittedAt_canvases (a : Nat) (w : Option Word) (d : Dev) : (d.setAdmittedAt a w).canvases = d.canvases := (rfl)
@[simp] theorem Dev.setAdmittedAt_comp (a : Nat) (w : Option Word) (d : Dev) : (d.setAdmittedAt a w).comp = d.comp := (rfl)
@[simp] theorem Dev.setAdmittedAt_ports (a : Nat) (w : Option Word) (d : Dev) : (d.setAdmittedAt a w).ports = d.ports := (rfl)
@[simp] theorem Dev.setAdmittedAt_chans (a : Nat) (w : Option Word) (d : Dev) : (d.setAdmittedAt a w).chans = d.chans := (rfl)
@[simp] theorem Dev.setAdmittedAt_timers (a : Nat) (w : Option Word) (d : Dev) : (d.setAdmittedAt a w).timers = d.timers := (rfl)
@[simp] theorem Dev.setAdmittedAt_mrv (a : Nat) (w : Option Word) (d : Dev) : (d.setAdmittedAt a w).mrv = d.mrv := (rfl)
@[simp] theorem Dev.setAdmittedAt_engines (a : Nat) (w : Option Word) (d : Dev) : (d.setAdmittedAt a w).engines = d.engines := (rfl)
@[simp] theorem Dev.setAdmittedAt_regions (a : Nat) (w : Option Word) (d : Dev) : (d.setAdmittedAt a w).regions = d.regions := (rfl)
@[simp] theorem Dev.setAdmittedAt_mct (a : Nat) (w : Option Word) (d : Dev) : (d.setAdmittedAt a w).mct = d.mct := (rfl)
@[simp] theorem Dev.setAdmittedAt_cru (a : Nat) (w : Option Word) (d : Dev) : (d.setAdmittedAt a w).cru = d.cru := (rfl)
@[simp] theorem Dev.setAdmittedAt_acc (a : Nat) (w : Option Word) (d : Dev) : (d.setAdmittedAt a w).acc = d.acc := (rfl)
@[simp] theorem Dev.setAdmittedAt_flt (a : Nat) (w : Option Word) (d : Dev) : (d.setAdmittedAt a w).flt = d.flt := (rfl)
@[simp] theorem Dev.setAdmittedAt_svc (a : Nat) (w : Option Word) (d : Dev) : (d.setAdmittedAt a w).svc = d.svc := (rfl)
@[simp] theorem Dev.setAdmittedAt_tb (a : Nat) (w : Option Word) (d : Dev) : (d.setAdmittedAt a w).tb = d.tb := (rfl)
@[simp] theorem Dev.setAdmittedAt_clk (a : Nat) (w : Option Word) (d : Dev) : (d.setAdmittedAt a w).clk = d.clk := (rfl)
@[simp] theorem Dev.setAdmittedAt_rst (a : Nat) (w : Option Word) (d : Dev) : (d.setAdmittedAt a w).rst = d.rst := (rfl)
@[simp] theorem Dev.setAdmittedAt_hif (a : Nat) (w : Option Word) (d : Dev) : (d.setAdmittedAt a w).hif = d.hif := (rfl)
@[simp] theorem Dev.setAdmittedAt_pins (a : Nat) (w : Option Word) (d : Dev) : (d.setAdmittedAt a w).pins = d.pins := (rfl)
@[simp] theorem Dev.setAdmittedAt_regs_eff (a : Nat) (w : Option Word) (d : Dev) : (d.setAdmittedAt a w).regs.eff = d.regs.eff := (rfl)
@[simp] theorem Dev.setAdmittedAt_regs_staged (a : Nat) (w : Option Word) (d : Dev) : (d.setAdmittedAt a w).regs.staged = d.regs.staged := (rfl)
@[simp] theorem Dev.setAdmittedAt_regs_arms (a : Nat) (w : Option Word) (d : Dev) : (d.setAdmittedAt a w).regs.arms = d.regs.arms := (rfl)
@[simp] theorem Dev.setAdmittedAt_regs_hold (a : Nat) (w : Option Word) (d : Dev) : (d.setAdmittedAt a w).regs.hold = d.regs.hold := (rfl)
@[simp] theorem Dev.setAdmittedAt_regs_discarded (a : Nat) (w : Option Word) (d : Dev) : (d.setAdmittedAt a w).regs.discarded = d.regs.discarded := (rfl)
@[simp] theorem Dev.setAdmittedAt_regs_snaps (a : Nat) (w : Option Word) (d : Dev) : (d.setAdmittedAt a w).regs.snaps = d.regs.snaps := (rfl)

/-! ### `Dev.setArm` -/

@[simp] theorem Dev.setArm_now (n m : Nat) (b : Bool) (d : Dev) : (d.setArm n m b).now = d.now := (rfl)
@[simp] theorem Dev.setArm_luts (n m : Nat) (b : Bool) (d : Dev) : (d.setArm n m b).luts = d.luts := (rfl)
@[simp] theorem Dev.setArm_mem (n m : Nat) (b : Bool) (d : Dev) : (d.setArm n m b).mem = d.mem := (rfl)
@[simp] theorem Dev.setArm_scene (n m : Nat) (b : Bool) (d : Dev) : (d.setArm n m b).scene = d.scene := (rfl)
@[simp] theorem Dev.setArm_ledger (n m : Nat) (b : Bool) (d : Dev) : (d.setArm n m b).ledger = d.ledger := (rfl)
@[simp] theorem Dev.setArm_queues (n m : Nat) (b : Bool) (d : Dev) : (d.setArm n m b).queues = d.queues := (rfl)
@[simp] theorem Dev.setArm_turn (n m : Nat) (b : Bool) (d : Dev) : (d.setArm n m b).turn = d.turn := (rfl)
@[simp] theorem Dev.setArm_lastTurn (n m : Nat) (b : Bool) (d : Dev) : (d.setArm n m b).lastTurn = d.lastTurn := (rfl)
@[simp] theorem Dev.setArm_rings (n m : Nat) (b : Bool) (d : Dev) : (d.setArm n m b).rings = d.rings := (rfl)
@[simp] theorem Dev.setArm_canvases (n m : Nat) (b : Bool) (d : Dev) : (d.setArm n m b).canvases = d.canvases := (rfl)
@[simp] theorem Dev.setArm_comp (n m : Nat) (b : Bool) (d : Dev) : (d.setArm n m b).comp = d.comp := (rfl)
@[simp] theorem Dev.setArm_ports (n m : Nat) (b : Bool) (d : Dev) : (d.setArm n m b).ports = d.ports := (rfl)
@[simp] theorem Dev.setArm_chans (n m : Nat) (b : Bool) (d : Dev) : (d.setArm n m b).chans = d.chans := (rfl)
@[simp] theorem Dev.setArm_timers (n m : Nat) (b : Bool) (d : Dev) : (d.setArm n m b).timers = d.timers := (rfl)
@[simp] theorem Dev.setArm_mrv (n m : Nat) (b : Bool) (d : Dev) : (d.setArm n m b).mrv = d.mrv := (rfl)
@[simp] theorem Dev.setArm_engines (n m : Nat) (b : Bool) (d : Dev) : (d.setArm n m b).engines = d.engines := (rfl)
@[simp] theorem Dev.setArm_regions (n m : Nat) (b : Bool) (d : Dev) : (d.setArm n m b).regions = d.regions := (rfl)
@[simp] theorem Dev.setArm_mct (n m : Nat) (b : Bool) (d : Dev) : (d.setArm n m b).mct = d.mct := (rfl)
@[simp] theorem Dev.setArm_cru (n m : Nat) (b : Bool) (d : Dev) : (d.setArm n m b).cru = d.cru := (rfl)
@[simp] theorem Dev.setArm_acc (n m : Nat) (b : Bool) (d : Dev) : (d.setArm n m b).acc = d.acc := (rfl)
@[simp] theorem Dev.setArm_flt (n m : Nat) (b : Bool) (d : Dev) : (d.setArm n m b).flt = d.flt := (rfl)
@[simp] theorem Dev.setArm_svc (n m : Nat) (b : Bool) (d : Dev) : (d.setArm n m b).svc = d.svc := (rfl)
@[simp] theorem Dev.setArm_tb (n m : Nat) (b : Bool) (d : Dev) : (d.setArm n m b).tb = d.tb := (rfl)
@[simp] theorem Dev.setArm_clk (n m : Nat) (b : Bool) (d : Dev) : (d.setArm n m b).clk = d.clk := (rfl)
@[simp] theorem Dev.setArm_rst (n m : Nat) (b : Bool) (d : Dev) : (d.setArm n m b).rst = d.rst := (rfl)
@[simp] theorem Dev.setArm_hif (n m : Nat) (b : Bool) (d : Dev) : (d.setArm n m b).hif = d.hif := (rfl)
@[simp] theorem Dev.setArm_pins (n m : Nat) (b : Bool) (d : Dev) : (d.setArm n m b).pins = d.pins := (rfl)
@[simp] theorem Dev.setArm_regs_eff (n m : Nat) (b : Bool) (d : Dev) : (d.setArm n m b).regs.eff = d.regs.eff := (rfl)
@[simp] theorem Dev.setArm_regs_staged (n m : Nat) (b : Bool) (d : Dev) : (d.setArm n m b).regs.staged = d.regs.staged := (rfl)
@[simp] theorem Dev.setArm_regs_admitted (n m : Nat) (b : Bool) (d : Dev) : (d.setArm n m b).regs.admitted = d.regs.admitted := (rfl)
@[simp] theorem Dev.setArm_regs_hold (n m : Nat) (b : Bool) (d : Dev) : (d.setArm n m b).regs.hold = d.regs.hold := (rfl)
@[simp] theorem Dev.setArm_regs_discarded (n m : Nat) (b : Bool) (d : Dev) : (d.setArm n m b).regs.discarded = d.regs.discarded := (rfl)
@[simp] theorem Dev.setArm_regs_snaps (n m : Nat) (b : Bool) (d : Dev) : (d.setArm n m b).regs.snaps = d.regs.snaps := (rfl)

/-! ### `Dev.setDiscarded` -/

@[simp] theorem Dev.setDiscarded_now (n : Nat) (b : Bool) (d : Dev) : (d.setDiscarded n b).now = d.now := (rfl)
@[simp] theorem Dev.setDiscarded_luts (n : Nat) (b : Bool) (d : Dev) : (d.setDiscarded n b).luts = d.luts := (rfl)
@[simp] theorem Dev.setDiscarded_mem (n : Nat) (b : Bool) (d : Dev) : (d.setDiscarded n b).mem = d.mem := (rfl)
@[simp] theorem Dev.setDiscarded_scene (n : Nat) (b : Bool) (d : Dev) : (d.setDiscarded n b).scene = d.scene := (rfl)
@[simp] theorem Dev.setDiscarded_ledger (n : Nat) (b : Bool) (d : Dev) : (d.setDiscarded n b).ledger = d.ledger := (rfl)
@[simp] theorem Dev.setDiscarded_queues (n : Nat) (b : Bool) (d : Dev) : (d.setDiscarded n b).queues = d.queues := (rfl)
@[simp] theorem Dev.setDiscarded_turn (n : Nat) (b : Bool) (d : Dev) : (d.setDiscarded n b).turn = d.turn := (rfl)
@[simp] theorem Dev.setDiscarded_lastTurn (n : Nat) (b : Bool) (d : Dev) : (d.setDiscarded n b).lastTurn = d.lastTurn := (rfl)
@[simp] theorem Dev.setDiscarded_rings (n : Nat) (b : Bool) (d : Dev) : (d.setDiscarded n b).rings = d.rings := (rfl)
@[simp] theorem Dev.setDiscarded_canvases (n : Nat) (b : Bool) (d : Dev) : (d.setDiscarded n b).canvases = d.canvases := (rfl)
@[simp] theorem Dev.setDiscarded_comp (n : Nat) (b : Bool) (d : Dev) : (d.setDiscarded n b).comp = d.comp := (rfl)
@[simp] theorem Dev.setDiscarded_ports (n : Nat) (b : Bool) (d : Dev) : (d.setDiscarded n b).ports = d.ports := (rfl)
@[simp] theorem Dev.setDiscarded_chans (n : Nat) (b : Bool) (d : Dev) : (d.setDiscarded n b).chans = d.chans := (rfl)
@[simp] theorem Dev.setDiscarded_timers (n : Nat) (b : Bool) (d : Dev) : (d.setDiscarded n b).timers = d.timers := (rfl)
@[simp] theorem Dev.setDiscarded_mrv (n : Nat) (b : Bool) (d : Dev) : (d.setDiscarded n b).mrv = d.mrv := (rfl)
@[simp] theorem Dev.setDiscarded_engines (n : Nat) (b : Bool) (d : Dev) : (d.setDiscarded n b).engines = d.engines := (rfl)
@[simp] theorem Dev.setDiscarded_regions (n : Nat) (b : Bool) (d : Dev) : (d.setDiscarded n b).regions = d.regions := (rfl)
@[simp] theorem Dev.setDiscarded_mct (n : Nat) (b : Bool) (d : Dev) : (d.setDiscarded n b).mct = d.mct := (rfl)
@[simp] theorem Dev.setDiscarded_cru (n : Nat) (b : Bool) (d : Dev) : (d.setDiscarded n b).cru = d.cru := (rfl)
@[simp] theorem Dev.setDiscarded_acc (n : Nat) (b : Bool) (d : Dev) : (d.setDiscarded n b).acc = d.acc := (rfl)
@[simp] theorem Dev.setDiscarded_flt (n : Nat) (b : Bool) (d : Dev) : (d.setDiscarded n b).flt = d.flt := (rfl)
@[simp] theorem Dev.setDiscarded_svc (n : Nat) (b : Bool) (d : Dev) : (d.setDiscarded n b).svc = d.svc := (rfl)
@[simp] theorem Dev.setDiscarded_tb (n : Nat) (b : Bool) (d : Dev) : (d.setDiscarded n b).tb = d.tb := (rfl)
@[simp] theorem Dev.setDiscarded_clk (n : Nat) (b : Bool) (d : Dev) : (d.setDiscarded n b).clk = d.clk := (rfl)
@[simp] theorem Dev.setDiscarded_rst (n : Nat) (b : Bool) (d : Dev) : (d.setDiscarded n b).rst = d.rst := (rfl)
@[simp] theorem Dev.setDiscarded_hif (n : Nat) (b : Bool) (d : Dev) : (d.setDiscarded n b).hif = d.hif := (rfl)
@[simp] theorem Dev.setDiscarded_pins (n : Nat) (b : Bool) (d : Dev) : (d.setDiscarded n b).pins = d.pins := (rfl)
@[simp] theorem Dev.setDiscarded_regs_eff (n : Nat) (b : Bool) (d : Dev) : (d.setDiscarded n b).regs.eff = d.regs.eff := (rfl)
@[simp] theorem Dev.setDiscarded_regs_staged (n : Nat) (b : Bool) (d : Dev) : (d.setDiscarded n b).regs.staged = d.regs.staged := (rfl)
@[simp] theorem Dev.setDiscarded_regs_admitted (n : Nat) (b : Bool) (d : Dev) : (d.setDiscarded n b).regs.admitted = d.regs.admitted := (rfl)
@[simp] theorem Dev.setDiscarded_regs_arms (n : Nat) (b : Bool) (d : Dev) : (d.setDiscarded n b).regs.arms = d.regs.arms := (rfl)
@[simp] theorem Dev.setDiscarded_regs_hold (n : Nat) (b : Bool) (d : Dev) : (d.setDiscarded n b).regs.hold = d.regs.hold := (rfl)
@[simp] theorem Dev.setDiscarded_regs_snaps (n : Nat) (b : Bool) (d : Dev) : (d.setDiscarded n b).regs.snaps = d.regs.snaps := (rfl)

/-! ### `Dev.fire` -/

@[simp] theorem Dev.fire_now (src inst : Nat) (detail : BitVec 128) (d : Dev) : (d.fire src inst detail).now = d.now := (rfl)
@[simp] theorem Dev.fire_regs (src inst : Nat) (detail : BitVec 128) (d : Dev) : (d.fire src inst detail).regs = d.regs := (rfl)
@[simp] theorem Dev.fire_luts (src inst : Nat) (detail : BitVec 128) (d : Dev) : (d.fire src inst detail).luts = d.luts := (rfl)
@[simp] theorem Dev.fire_mem (src inst : Nat) (detail : BitVec 128) (d : Dev) : (d.fire src inst detail).mem = d.mem := (rfl)
@[simp] theorem Dev.fire_scene (src inst : Nat) (detail : BitVec 128) (d : Dev) : (d.fire src inst detail).scene = d.scene := (rfl)
@[simp] theorem Dev.fire_ledger (src inst : Nat) (detail : BitVec 128) (d : Dev) : (d.fire src inst detail).ledger = d.ledger := (rfl)
@[simp] theorem Dev.fire_queues (src inst : Nat) (detail : BitVec 128) (d : Dev) : (d.fire src inst detail).queues = d.queues := (rfl)
@[simp] theorem Dev.fire_turn (src inst : Nat) (detail : BitVec 128) (d : Dev) : (d.fire src inst detail).turn = d.turn := (rfl)
@[simp] theorem Dev.fire_lastTurn (src inst : Nat) (detail : BitVec 128) (d : Dev) : (d.fire src inst detail).lastTurn = d.lastTurn := (rfl)
@[simp] theorem Dev.fire_rings (src inst : Nat) (detail : BitVec 128) (d : Dev) : (d.fire src inst detail).rings = d.rings := (rfl)
@[simp] theorem Dev.fire_canvases (src inst : Nat) (detail : BitVec 128) (d : Dev) : (d.fire src inst detail).canvases = d.canvases := (rfl)
@[simp] theorem Dev.fire_comp (src inst : Nat) (detail : BitVec 128) (d : Dev) : (d.fire src inst detail).comp = d.comp := (rfl)
@[simp] theorem Dev.fire_ports (src inst : Nat) (detail : BitVec 128) (d : Dev) : (d.fire src inst detail).ports = d.ports := (rfl)
@[simp] theorem Dev.fire_chans (src inst : Nat) (detail : BitVec 128) (d : Dev) : (d.fire src inst detail).chans = d.chans := (rfl)
@[simp] theorem Dev.fire_timers (src inst : Nat) (detail : BitVec 128) (d : Dev) : (d.fire src inst detail).timers = d.timers := (rfl)
@[simp] theorem Dev.fire_mrv (src inst : Nat) (detail : BitVec 128) (d : Dev) : (d.fire src inst detail).mrv = d.mrv := (rfl)
@[simp] theorem Dev.fire_engines (src inst : Nat) (detail : BitVec 128) (d : Dev) : (d.fire src inst detail).engines = d.engines := (rfl)
@[simp] theorem Dev.fire_regions (src inst : Nat) (detail : BitVec 128) (d : Dev) : (d.fire src inst detail).regions = d.regions := (rfl)
@[simp] theorem Dev.fire_mct (src inst : Nat) (detail : BitVec 128) (d : Dev) : (d.fire src inst detail).mct = d.mct := (rfl)
@[simp] theorem Dev.fire_cru (src inst : Nat) (detail : BitVec 128) (d : Dev) : (d.fire src inst detail).cru = d.cru := (rfl)
@[simp] theorem Dev.fire_acc (src inst : Nat) (detail : BitVec 128) (d : Dev) : (d.fire src inst detail).acc = d.acc := (rfl)
@[simp] theorem Dev.fire_svc (src inst : Nat) (detail : BitVec 128) (d : Dev) : (d.fire src inst detail).svc = d.svc := (rfl)
@[simp] theorem Dev.fire_tb (src inst : Nat) (detail : BitVec 128) (d : Dev) : (d.fire src inst detail).tb = d.tb := (rfl)
@[simp] theorem Dev.fire_clk (src inst : Nat) (detail : BitVec 128) (d : Dev) : (d.fire src inst detail).clk = d.clk := (rfl)
@[simp] theorem Dev.fire_rst (src inst : Nat) (detail : BitVec 128) (d : Dev) : (d.fire src inst detail).rst = d.rst := (rfl)
@[simp] theorem Dev.fire_hif (src inst : Nat) (detail : BitVec 128) (d : Dev) : (d.fire src inst detail).hif = d.hif := (rfl)
@[simp] theorem Dev.fire_pins (src inst : Nat) (detail : BitVec 128) (d : Dev) : (d.fire src inst detail).pins = d.pins := (rfl)
@[simp] theorem Dev.fire_flt_sticky (src inst : Nat) (detail : BitVec 128) (d : Dev) : (d.fire src inst detail).flt.sticky = d.flt.sticky := (rfl)
@[simp] theorem Dev.fire_flt_count (src inst : Nat) (detail : BitVec 128) (d : Dev) : (d.fire src inst detail).flt.count = d.flt.count := (rfl)
@[simp] theorem Dev.fire_flt_cfg (src inst : Nat) (detail : BitVec 128) (d : Dev) : (d.fire src inst detail).flt.cfg = d.flt.cfg := (rfl)
@[simp] theorem Dev.fire_flt_queue (src inst : Nat) (detail : BitVec 128) (d : Dev) : (d.fire src inst detail).flt.queue = d.flt.queue := (rfl)
@[simp] theorem Dev.fire_flt_overflow (src inst : Nat) (detail : BitVec 128) (d : Dev) : (d.fire src inst detail).flt.overflow = d.flt.overflow := (rfl)
@[simp] theorem Dev.fire_flt_coal (src inst : Nat) (detail : BitVec 128) (d : Dev) : (d.fire src inst detail).flt.coal = d.flt.coal := (rfl)
@[simp] theorem Dev.fire_flt_window (src inst : Nat) (detail : BitVec 128) (d : Dev) : (d.fire src inst detail).flt.window = d.flt.window := (rfl)
@[simp] theorem Dev.fire_flt_log (src inst : Nat) (detail : BitVec 128) (d : Dev) : (d.fire src inst detail).flt.log = d.flt.log := (rfl)
@[simp] theorem Dev.fire_flt_wseq (src inst : Nat) (detail : BitVec 128) (d : Dev) : (d.fire src inst detail).flt.wseq = d.flt.wseq := (rfl)
@[simp] theorem Dev.fire_flt_rdDone (src inst : Nat) (detail : BitVec 128) (d : Dev) : (d.fire src inst detail).flt.rdDone = d.flt.rdDone := (rfl)
@[simp] theorem Dev.fire_flt_rdMatch (src inst : Nat) (detail : BitVec 128) (d : Dev) : (d.fire src inst detail).flt.rdMatch = d.flt.rdMatch := (rfl)
@[simp] theorem Dev.fire_flt_rdMid (src inst : Nat) (detail : BitVec 128) (d : Dev) : (d.fire src inst detail).flt.rdMid = d.flt.rdMid := (rfl)
@[simp] theorem Dev.fire_flt_rdWords (src inst : Nat) (detail : BitVec 128) (d : Dev) : (d.fire src inst detail).flt.rdWords = d.flt.rdWords := (rfl)

/-! ### `Dev.setByte` -/

@[simp] theorem Dev.setByte_now (a : Nat) (b : Byte) (d : Dev) : (d.setByte a b).now = d.now := (rfl)
@[simp] theorem Dev.setByte_regs (a : Nat) (b : Byte) (d : Dev) : (d.setByte a b).regs = d.regs := (rfl)
@[simp] theorem Dev.setByte_luts (a : Nat) (b : Byte) (d : Dev) : (d.setByte a b).luts = d.luts := (rfl)
@[simp] theorem Dev.setByte_scene (a : Nat) (b : Byte) (d : Dev) : (d.setByte a b).scene = d.scene := (rfl)
@[simp] theorem Dev.setByte_ledger (a : Nat) (b : Byte) (d : Dev) : (d.setByte a b).ledger = d.ledger := (rfl)
@[simp] theorem Dev.setByte_queues (a : Nat) (b : Byte) (d : Dev) : (d.setByte a b).queues = d.queues := (rfl)
@[simp] theorem Dev.setByte_turn (a : Nat) (b : Byte) (d : Dev) : (d.setByte a b).turn = d.turn := (rfl)
@[simp] theorem Dev.setByte_lastTurn (a : Nat) (b : Byte) (d : Dev) : (d.setByte a b).lastTurn = d.lastTurn := (rfl)
@[simp] theorem Dev.setByte_rings (a : Nat) (b : Byte) (d : Dev) : (d.setByte a b).rings = d.rings := (rfl)
@[simp] theorem Dev.setByte_canvases (a : Nat) (b : Byte) (d : Dev) : (d.setByte a b).canvases = d.canvases := (rfl)
@[simp] theorem Dev.setByte_comp (a : Nat) (b : Byte) (d : Dev) : (d.setByte a b).comp = d.comp := (rfl)
@[simp] theorem Dev.setByte_ports (a : Nat) (b : Byte) (d : Dev) : (d.setByte a b).ports = d.ports := (rfl)
@[simp] theorem Dev.setByte_chans (a : Nat) (b : Byte) (d : Dev) : (d.setByte a b).chans = d.chans := (rfl)
@[simp] theorem Dev.setByte_timers (a : Nat) (b : Byte) (d : Dev) : (d.setByte a b).timers = d.timers := (rfl)
@[simp] theorem Dev.setByte_mrv (a : Nat) (b : Byte) (d : Dev) : (d.setByte a b).mrv = d.mrv := (rfl)
@[simp] theorem Dev.setByte_engines (a : Nat) (b : Byte) (d : Dev) : (d.setByte a b).engines = d.engines := (rfl)
@[simp] theorem Dev.setByte_regions (a : Nat) (b : Byte) (d : Dev) : (d.setByte a b).regions = d.regions := (rfl)
@[simp] theorem Dev.setByte_mct (a : Nat) (b : Byte) (d : Dev) : (d.setByte a b).mct = d.mct := (rfl)
@[simp] theorem Dev.setByte_cru (a : Nat) (b : Byte) (d : Dev) : (d.setByte a b).cru = d.cru := (rfl)
@[simp] theorem Dev.setByte_acc (a : Nat) (b : Byte) (d : Dev) : (d.setByte a b).acc = d.acc := (rfl)
@[simp] theorem Dev.setByte_flt (a : Nat) (b : Byte) (d : Dev) : (d.setByte a b).flt = d.flt := (rfl)
@[simp] theorem Dev.setByte_svc (a : Nat) (b : Byte) (d : Dev) : (d.setByte a b).svc = d.svc := (rfl)
@[simp] theorem Dev.setByte_tb (a : Nat) (b : Byte) (d : Dev) : (d.setByte a b).tb = d.tb := (rfl)
@[simp] theorem Dev.setByte_clk (a : Nat) (b : Byte) (d : Dev) : (d.setByte a b).clk = d.clk := (rfl)
@[simp] theorem Dev.setByte_rst (a : Nat) (b : Byte) (d : Dev) : (d.setByte a b).rst = d.rst := (rfl)
@[simp] theorem Dev.setByte_hif (a : Nat) (b : Byte) (d : Dev) : (d.setByte a b).hif = d.hif := (rfl)
@[simp] theorem Dev.setByte_pins (a : Nat) (b : Byte) (d : Dev) : (d.setByte a b).pins = d.pins := (rfl)

/-! ### A unit read back -/

@[simp] theorem Dev.canvas_setCanvas (n : Nat) (x : Canvas) (d : Dev) : (d.setCanvas n x).canvas n = x := FMap.get_put_same ..
theorem Dev.canvas_setCanvas_ne (x : Canvas) (d : Dev) {n k : Nat} (h : k ≠ n) : (d.setCanvas n x).canvas k = d.canvas k :=
  FMap.get_put_ne _ _ _ h
@[simp] theorem Dev.queue_setQueue (n : Nat) (x : Queue) (d : Dev) : (d.setQueue n x).queue n = x := FMap.get_put_same ..
theorem Dev.queue_setQueue_ne (x : Queue) (d : Dev) {n k : Nat} (h : k ≠ n) : (d.setQueue n x).queue k = d.queue k :=
  FMap.get_put_ne _ _ _ h
@[simp] theorem Dev.ring_setRing (n : Nat) (x : NRing) (d : Dev) : (d.setRing n x).ring n = x := FMap.get_put_same ..
theorem Dev.ring_setRing_ne (x : NRing) (d : Dev) {n k : Nat} (h : k ≠ n) : (d.setRing n x).ring k = d.ring k :=
  FMap.get_put_ne _ _ _ h
@[simp] theorem Dev.port_setPort (n : Nat) (x : Port) (d : Dev) : (d.setPort n x).port n = x := FMap.get_put_same ..
theorem Dev.port_setPort_ne (x : Port) (d : Dev) {n k : Nat} (h : k ≠ n) : (d.setPort n x).port k = d.port k :=
  FMap.get_put_ne _ _ _ h
@[simp] theorem Dev.chan_setChan (n : Nat) (x : Chan) (d : Dev) : (d.setChan n x).chan n = x := FMap.get_put_same ..
theorem Dev.chan_setChan_ne (x : Chan) (d : Dev) {n k : Nat} (h : k ≠ n) : (d.setChan n x).chan k = d.chan k :=
  FMap.get_put_ne _ _ _ h
@[simp] theorem Dev.timer_setTimer (n : Nat) (x : Timer) (d : Dev) : (d.setTimer n x).timer n = x := FMap.get_put_same ..
theorem Dev.timer_setTimer_ne (x : Timer) (d : Dev) {n k : Nat} (h : k ≠ n) : (d.setTimer n x).timer k = d.timer k :=
  FMap.get_put_ne _ _ _ h
@[simp] theorem Dev.engine_setEngine (n : Nat) (x : Engine) (d : Dev) : (d.setEngine n x).engine n = x := FMap.get_put_same ..
theorem Dev.engine_setEngine_ne (x : Engine) (d : Dev) {n k : Nat} (h : k ≠ n) : (d.setEngine n x).engine k = d.engine k :=
  FMap.get_put_ne _ _ _ h
@[simp] theorem Dev.region_setRegion (n : Nat) (x : Region) (d : Dev) : (d.setRegion n x).region n = x := FMap.get_put_same ..
theorem Dev.region_setRegion_ne (x : Region) (d : Dev) {n k : Nat} (h : k ≠ n) : (d.setRegion n x).region k = d.region k :=
  FMap.get_put_ne _ _ _ h
@[simp] theorem Dev.pipe_setPipe (n : Nat) (x : Pipe) (d : Dev) : (d.setPipe n x).pipe n = x := FMap.get_put_same ..
theorem Dev.pipe_setPipe_ne (x : Pipe) (d : Dev) {n k : Nat} (h : k ≠ n) : (d.setPipe n x).pipe k = d.pipe k :=
  FMap.get_put_ne _ _ _ h
@[simp] theorem Dev.gather_setGather (n : Nat) (x : Gather) (d : Dev) : (d.setGather n x).gather n = x := FMap.get_put_same ..
theorem Dev.gather_setGather_ne (x : Gather) (d : Dev) {n k : Nat} (h : k ≠ n) : (d.setGather n x).gather k = d.gather k :=
  FMap.get_put_ne _ _ _ h
@[simp] theorem Dev.site_setSite (n : Nat) (x : Site) (d : Dev) : (d.setSite n x).site n = x := FMap.get_put_same ..
theorem Dev.site_setSite_ne (x : Site) (d : Dev) {n k : Nat} (h : k ≠ n) : (d.setSite n x).site k = d.site k :=
  FMap.get_put_ne _ _ _ h
@[simp] theorem Dev.gang_setGang (n : Nat) (x : Gang) (d : Dev) : (d.setGang n x).gang n = x := FMap.get_put_same ..
theorem Dev.gang_setGang_ne (x : Gang) (d : Dev) {n k : Nat} (h : k ≠ n) : (d.setGang n x).gang k = d.gang k :=
  FMap.get_put_ne _ _ _ h
@[simp] theorem Dev.lane_setLane (n : Nat) (x : Lane) (d : Dev) : (d.setLane n x).lane n = x := FMap.get_put_same ..
theorem Dev.lane_setLane_ne (x : Lane) (d : Dev) {n k : Nat} (h : k ≠ n) : (d.setLane n x).lane k = d.lane k :=
  FMap.get_put_ne _ _ _ h

/-! ### A unit of one kind after an update of another -/

@[simp] theorem Dev.setCanvas_queue (c : Nat) (x : Canvas) (d : Dev) (k : Nat) : (d.setCanvas c x).queue k = d.queue k := (rfl)
@[simp] theorem Dev.setCanvas_ring (c : Nat) (x : Canvas) (d : Dev) (k : Nat) : (d.setCanvas c x).ring k = d.ring k := (rfl)
@[simp] theorem Dev.setCanvas_port (c : Nat) (x : Canvas) (d : Dev) (k : Nat) : (d.setCanvas c x).port k = d.port k := (rfl)
@[simp] theorem Dev.setCanvas_chan (c : Nat) (x : Canvas) (d : Dev) (k : Nat) : (d.setCanvas c x).chan k = d.chan k := (rfl)
@[simp] theorem Dev.setCanvas_timer (c : Nat) (x : Canvas) (d : Dev) (k : Nat) : (d.setCanvas c x).timer k = d.timer k := (rfl)
@[simp] theorem Dev.setCanvas_engine (c : Nat) (x : Canvas) (d : Dev) (k : Nat) : (d.setCanvas c x).engine k = d.engine k := (rfl)
@[simp] theorem Dev.setCanvas_region (c : Nat) (x : Canvas) (d : Dev) (k : Nat) : (d.setCanvas c x).region k = d.region k := (rfl)
@[simp] theorem Dev.setCanvas_pipe (c : Nat) (x : Canvas) (d : Dev) (k : Nat) : (d.setCanvas c x).pipe k = d.pipe k := (rfl)
@[simp] theorem Dev.setCanvas_gather (c : Nat) (x : Canvas) (d : Dev) (k : Nat) : (d.setCanvas c x).gather k = d.gather k := (rfl)
@[simp] theorem Dev.setCanvas_site (c : Nat) (x : Canvas) (d : Dev) (k : Nat) : (d.setCanvas c x).site k = d.site k := (rfl)
@[simp] theorem Dev.setCanvas_gang (c : Nat) (x : Canvas) (d : Dev) (k : Nat) : (d.setCanvas c x).gang k = d.gang k := (rfl)
@[simp] theorem Dev.setCanvas_lane (c : Nat) (x : Canvas) (d : Dev) (k : Nat) : (d.setCanvas c x).lane k = d.lane k := (rfl)
@[simp] theorem Dev.setCanvas_effAt (c : Nat) (x : Canvas) (d : Dev) (k : Nat) : (d.setCanvas c x).effAt k = d.effAt k := (rfl)
@[simp] theorem Dev.setCanvas_stagedAt (c : Nat) (x : Canvas) (d : Dev) (k : Nat) : (d.setCanvas c x).stagedAt k = d.stagedAt k := (rfl)
@[simp] theorem Dev.setCanvas_admittedAt (c : Nat) (x : Canvas) (d : Dev) (k : Nat) : (d.setCanvas c x).admittedAt k = d.admittedAt k := (rfl)
@[simp] theorem Dev.setQueue_canvas (q : Nat) (x : Queue) (d : Dev) (k : Nat) : (d.setQueue q x).canvas k = d.canvas k := (rfl)
@[simp] theorem Dev.setQueue_ring (q : Nat) (x : Queue) (d : Dev) (k : Nat) : (d.setQueue q x).ring k = d.ring k := (rfl)
@[simp] theorem Dev.setQueue_port (q : Nat) (x : Queue) (d : Dev) (k : Nat) : (d.setQueue q x).port k = d.port k := (rfl)
@[simp] theorem Dev.setQueue_chan (q : Nat) (x : Queue) (d : Dev) (k : Nat) : (d.setQueue q x).chan k = d.chan k := (rfl)
@[simp] theorem Dev.setQueue_timer (q : Nat) (x : Queue) (d : Dev) (k : Nat) : (d.setQueue q x).timer k = d.timer k := (rfl)
@[simp] theorem Dev.setQueue_engine (q : Nat) (x : Queue) (d : Dev) (k : Nat) : (d.setQueue q x).engine k = d.engine k := (rfl)
@[simp] theorem Dev.setQueue_region (q : Nat) (x : Queue) (d : Dev) (k : Nat) : (d.setQueue q x).region k = d.region k := (rfl)
@[simp] theorem Dev.setQueue_pipe (q : Nat) (x : Queue) (d : Dev) (k : Nat) : (d.setQueue q x).pipe k = d.pipe k := (rfl)
@[simp] theorem Dev.setQueue_gather (q : Nat) (x : Queue) (d : Dev) (k : Nat) : (d.setQueue q x).gather k = d.gather k := (rfl)
@[simp] theorem Dev.setQueue_site (q : Nat) (x : Queue) (d : Dev) (k : Nat) : (d.setQueue q x).site k = d.site k := (rfl)
@[simp] theorem Dev.setQueue_gang (q : Nat) (x : Queue) (d : Dev) (k : Nat) : (d.setQueue q x).gang k = d.gang k := (rfl)
@[simp] theorem Dev.setQueue_lane (q : Nat) (x : Queue) (d : Dev) (k : Nat) : (d.setQueue q x).lane k = d.lane k := (rfl)
@[simp] theorem Dev.setQueue_effAt (q : Nat) (x : Queue) (d : Dev) (k : Nat) : (d.setQueue q x).effAt k = d.effAt k := (rfl)
@[simp] theorem Dev.setQueue_stagedAt (q : Nat) (x : Queue) (d : Dev) (k : Nat) : (d.setQueue q x).stagedAt k = d.stagedAt k := (rfl)
@[simp] theorem Dev.setQueue_admittedAt (q : Nat) (x : Queue) (d : Dev) (k : Nat) : (d.setQueue q x).admittedAt k = d.admittedAt k := (rfl)
@[simp] theorem Dev.setRing_canvas (f : Nat) (x : NRing) (d : Dev) (k : Nat) : (d.setRing f x).canvas k = d.canvas k := (rfl)
@[simp] theorem Dev.setRing_queue (f : Nat) (x : NRing) (d : Dev) (k : Nat) : (d.setRing f x).queue k = d.queue k := (rfl)
@[simp] theorem Dev.setRing_port (f : Nat) (x : NRing) (d : Dev) (k : Nat) : (d.setRing f x).port k = d.port k := (rfl)
@[simp] theorem Dev.setRing_chan (f : Nat) (x : NRing) (d : Dev) (k : Nat) : (d.setRing f x).chan k = d.chan k := (rfl)
@[simp] theorem Dev.setRing_timer (f : Nat) (x : NRing) (d : Dev) (k : Nat) : (d.setRing f x).timer k = d.timer k := (rfl)
@[simp] theorem Dev.setRing_engine (f : Nat) (x : NRing) (d : Dev) (k : Nat) : (d.setRing f x).engine k = d.engine k := (rfl)
@[simp] theorem Dev.setRing_region (f : Nat) (x : NRing) (d : Dev) (k : Nat) : (d.setRing f x).region k = d.region k := (rfl)
@[simp] theorem Dev.setRing_pipe (f : Nat) (x : NRing) (d : Dev) (k : Nat) : (d.setRing f x).pipe k = d.pipe k := (rfl)
@[simp] theorem Dev.setRing_gather (f : Nat) (x : NRing) (d : Dev) (k : Nat) : (d.setRing f x).gather k = d.gather k := (rfl)
@[simp] theorem Dev.setRing_site (f : Nat) (x : NRing) (d : Dev) (k : Nat) : (d.setRing f x).site k = d.site k := (rfl)
@[simp] theorem Dev.setRing_gang (f : Nat) (x : NRing) (d : Dev) (k : Nat) : (d.setRing f x).gang k = d.gang k := (rfl)
@[simp] theorem Dev.setRing_lane (f : Nat) (x : NRing) (d : Dev) (k : Nat) : (d.setRing f x).lane k = d.lane k := (rfl)
@[simp] theorem Dev.setRing_effAt (f : Nat) (x : NRing) (d : Dev) (k : Nat) : (d.setRing f x).effAt k = d.effAt k := (rfl)
@[simp] theorem Dev.setRing_stagedAt (f : Nat) (x : NRing) (d : Dev) (k : Nat) : (d.setRing f x).stagedAt k = d.stagedAt k := (rfl)
@[simp] theorem Dev.setRing_admittedAt (f : Nat) (x : NRing) (d : Dev) (k : Nat) : (d.setRing f x).admittedAt k = d.admittedAt k := (rfl)
@[simp] theorem Dev.setPort_canvas (n : Nat) (x : Port) (d : Dev) (k : Nat) : (d.setPort n x).canvas k = d.canvas k := (rfl)
@[simp] theorem Dev.setPort_queue (n : Nat) (x : Port) (d : Dev) (k : Nat) : (d.setPort n x).queue k = d.queue k := (rfl)
@[simp] theorem Dev.setPort_ring (n : Nat) (x : Port) (d : Dev) (k : Nat) : (d.setPort n x).ring k = d.ring k := (rfl)
@[simp] theorem Dev.setPort_chan (n : Nat) (x : Port) (d : Dev) (k : Nat) : (d.setPort n x).chan k = d.chan k := (rfl)
@[simp] theorem Dev.setPort_timer (n : Nat) (x : Port) (d : Dev) (k : Nat) : (d.setPort n x).timer k = d.timer k := (rfl)
@[simp] theorem Dev.setPort_engine (n : Nat) (x : Port) (d : Dev) (k : Nat) : (d.setPort n x).engine k = d.engine k := (rfl)
@[simp] theorem Dev.setPort_region (n : Nat) (x : Port) (d : Dev) (k : Nat) : (d.setPort n x).region k = d.region k := (rfl)
@[simp] theorem Dev.setPort_pipe (n : Nat) (x : Port) (d : Dev) (k : Nat) : (d.setPort n x).pipe k = d.pipe k := (rfl)
@[simp] theorem Dev.setPort_gather (n : Nat) (x : Port) (d : Dev) (k : Nat) : (d.setPort n x).gather k = d.gather k := (rfl)
@[simp] theorem Dev.setPort_site (n : Nat) (x : Port) (d : Dev) (k : Nat) : (d.setPort n x).site k = d.site k := (rfl)
@[simp] theorem Dev.setPort_gang (n : Nat) (x : Port) (d : Dev) (k : Nat) : (d.setPort n x).gang k = d.gang k := (rfl)
@[simp] theorem Dev.setPort_lane (n : Nat) (x : Port) (d : Dev) (k : Nat) : (d.setPort n x).lane k = d.lane k := (rfl)
@[simp] theorem Dev.setPort_effAt (n : Nat) (x : Port) (d : Dev) (k : Nat) : (d.setPort n x).effAt k = d.effAt k := (rfl)
@[simp] theorem Dev.setPort_stagedAt (n : Nat) (x : Port) (d : Dev) (k : Nat) : (d.setPort n x).stagedAt k = d.stagedAt k := (rfl)
@[simp] theorem Dev.setPort_admittedAt (n : Nat) (x : Port) (d : Dev) (k : Nat) : (d.setPort n x).admittedAt k = d.admittedAt k := (rfl)
@[simp] theorem Dev.setChan_canvas (c : Nat) (x : Chan) (d : Dev) (k : Nat) : (d.setChan c x).canvas k = d.canvas k := (rfl)
@[simp] theorem Dev.setChan_queue (c : Nat) (x : Chan) (d : Dev) (k : Nat) : (d.setChan c x).queue k = d.queue k := (rfl)
@[simp] theorem Dev.setChan_ring (c : Nat) (x : Chan) (d : Dev) (k : Nat) : (d.setChan c x).ring k = d.ring k := (rfl)
@[simp] theorem Dev.setChan_port (c : Nat) (x : Chan) (d : Dev) (k : Nat) : (d.setChan c x).port k = d.port k := (rfl)
@[simp] theorem Dev.setChan_timer (c : Nat) (x : Chan) (d : Dev) (k : Nat) : (d.setChan c x).timer k = d.timer k := (rfl)
@[simp] theorem Dev.setChan_engine (c : Nat) (x : Chan) (d : Dev) (k : Nat) : (d.setChan c x).engine k = d.engine k := (rfl)
@[simp] theorem Dev.setChan_region (c : Nat) (x : Chan) (d : Dev) (k : Nat) : (d.setChan c x).region k = d.region k := (rfl)
@[simp] theorem Dev.setChan_pipe (c : Nat) (x : Chan) (d : Dev) (k : Nat) : (d.setChan c x).pipe k = d.pipe k := (rfl)
@[simp] theorem Dev.setChan_gather (c : Nat) (x : Chan) (d : Dev) (k : Nat) : (d.setChan c x).gather k = d.gather k := (rfl)
@[simp] theorem Dev.setChan_site (c : Nat) (x : Chan) (d : Dev) (k : Nat) : (d.setChan c x).site k = d.site k := (rfl)
@[simp] theorem Dev.setChan_gang (c : Nat) (x : Chan) (d : Dev) (k : Nat) : (d.setChan c x).gang k = d.gang k := (rfl)
@[simp] theorem Dev.setChan_lane (c : Nat) (x : Chan) (d : Dev) (k : Nat) : (d.setChan c x).lane k = d.lane k := (rfl)
@[simp] theorem Dev.setChan_effAt (c : Nat) (x : Chan) (d : Dev) (k : Nat) : (d.setChan c x).effAt k = d.effAt k := (rfl)
@[simp] theorem Dev.setChan_stagedAt (c : Nat) (x : Chan) (d : Dev) (k : Nat) : (d.setChan c x).stagedAt k = d.stagedAt k := (rfl)
@[simp] theorem Dev.setChan_admittedAt (c : Nat) (x : Chan) (d : Dev) (k : Nat) : (d.setChan c x).admittedAt k = d.admittedAt k := (rfl)
@[simp] theorem Dev.setTimer_canvas (t : Nat) (x : Timer) (d : Dev) (k : Nat) : (d.setTimer t x).canvas k = d.canvas k := (rfl)
@[simp] theorem Dev.setTimer_queue (t : Nat) (x : Timer) (d : Dev) (k : Nat) : (d.setTimer t x).queue k = d.queue k := (rfl)
@[simp] theorem Dev.setTimer_ring (t : Nat) (x : Timer) (d : Dev) (k : Nat) : (d.setTimer t x).ring k = d.ring k := (rfl)
@[simp] theorem Dev.setTimer_port (t : Nat) (x : Timer) (d : Dev) (k : Nat) : (d.setTimer t x).port k = d.port k := (rfl)
@[simp] theorem Dev.setTimer_chan (t : Nat) (x : Timer) (d : Dev) (k : Nat) : (d.setTimer t x).chan k = d.chan k := (rfl)
@[simp] theorem Dev.setTimer_engine (t : Nat) (x : Timer) (d : Dev) (k : Nat) : (d.setTimer t x).engine k = d.engine k := (rfl)
@[simp] theorem Dev.setTimer_region (t : Nat) (x : Timer) (d : Dev) (k : Nat) : (d.setTimer t x).region k = d.region k := (rfl)
@[simp] theorem Dev.setTimer_pipe (t : Nat) (x : Timer) (d : Dev) (k : Nat) : (d.setTimer t x).pipe k = d.pipe k := (rfl)
@[simp] theorem Dev.setTimer_gather (t : Nat) (x : Timer) (d : Dev) (k : Nat) : (d.setTimer t x).gather k = d.gather k := (rfl)
@[simp] theorem Dev.setTimer_site (t : Nat) (x : Timer) (d : Dev) (k : Nat) : (d.setTimer t x).site k = d.site k := (rfl)
@[simp] theorem Dev.setTimer_gang (t : Nat) (x : Timer) (d : Dev) (k : Nat) : (d.setTimer t x).gang k = d.gang k := (rfl)
@[simp] theorem Dev.setTimer_lane (t : Nat) (x : Timer) (d : Dev) (k : Nat) : (d.setTimer t x).lane k = d.lane k := (rfl)
@[simp] theorem Dev.setTimer_effAt (t : Nat) (x : Timer) (d : Dev) (k : Nat) : (d.setTimer t x).effAt k = d.effAt k := (rfl)
@[simp] theorem Dev.setTimer_stagedAt (t : Nat) (x : Timer) (d : Dev) (k : Nat) : (d.setTimer t x).stagedAt k = d.stagedAt k := (rfl)
@[simp] theorem Dev.setTimer_admittedAt (t : Nat) (x : Timer) (d : Dev) (k : Nat) : (d.setTimer t x).admittedAt k = d.admittedAt k := (rfl)
@[simp] theorem Dev.setEngine_canvas (e : Nat) (x : Engine) (d : Dev) (k : Nat) : (d.setEngine e x).canvas k = d.canvas k := (rfl)
@[simp] theorem Dev.setEngine_queue (e : Nat) (x : Engine) (d : Dev) (k : Nat) : (d.setEngine e x).queue k = d.queue k := (rfl)
@[simp] theorem Dev.setEngine_ring (e : Nat) (x : Engine) (d : Dev) (k : Nat) : (d.setEngine e x).ring k = d.ring k := (rfl)
@[simp] theorem Dev.setEngine_port (e : Nat) (x : Engine) (d : Dev) (k : Nat) : (d.setEngine e x).port k = d.port k := (rfl)
@[simp] theorem Dev.setEngine_chan (e : Nat) (x : Engine) (d : Dev) (k : Nat) : (d.setEngine e x).chan k = d.chan k := (rfl)
@[simp] theorem Dev.setEngine_timer (e : Nat) (x : Engine) (d : Dev) (k : Nat) : (d.setEngine e x).timer k = d.timer k := (rfl)
@[simp] theorem Dev.setEngine_region (e : Nat) (x : Engine) (d : Dev) (k : Nat) : (d.setEngine e x).region k = d.region k := (rfl)
@[simp] theorem Dev.setEngine_pipe (e : Nat) (x : Engine) (d : Dev) (k : Nat) : (d.setEngine e x).pipe k = d.pipe k := (rfl)
@[simp] theorem Dev.setEngine_gather (e : Nat) (x : Engine) (d : Dev) (k : Nat) : (d.setEngine e x).gather k = d.gather k := (rfl)
@[simp] theorem Dev.setEngine_site (e : Nat) (x : Engine) (d : Dev) (k : Nat) : (d.setEngine e x).site k = d.site k := (rfl)
@[simp] theorem Dev.setEngine_gang (e : Nat) (x : Engine) (d : Dev) (k : Nat) : (d.setEngine e x).gang k = d.gang k := (rfl)
@[simp] theorem Dev.setEngine_lane (e : Nat) (x : Engine) (d : Dev) (k : Nat) : (d.setEngine e x).lane k = d.lane k := (rfl)
@[simp] theorem Dev.setEngine_effAt (e : Nat) (x : Engine) (d : Dev) (k : Nat) : (d.setEngine e x).effAt k = d.effAt k := (rfl)
@[simp] theorem Dev.setEngine_stagedAt (e : Nat) (x : Engine) (d : Dev) (k : Nat) : (d.setEngine e x).stagedAt k = d.stagedAt k := (rfl)
@[simp] theorem Dev.setEngine_admittedAt (e : Nat) (x : Engine) (d : Dev) (k : Nat) : (d.setEngine e x).admittedAt k = d.admittedAt k := (rfl)
@[simp] theorem Dev.setRegion_canvas (r : Nat) (x : Region) (d : Dev) (k : Nat) : (d.setRegion r x).canvas k = d.canvas k := (rfl)
@[simp] theorem Dev.setRegion_queue (r : Nat) (x : Region) (d : Dev) (k : Nat) : (d.setRegion r x).queue k = d.queue k := (rfl)
@[simp] theorem Dev.setRegion_ring (r : Nat) (x : Region) (d : Dev) (k : Nat) : (d.setRegion r x).ring k = d.ring k := (rfl)
@[simp] theorem Dev.setRegion_port (r : Nat) (x : Region) (d : Dev) (k : Nat) : (d.setRegion r x).port k = d.port k := (rfl)
@[simp] theorem Dev.setRegion_chan (r : Nat) (x : Region) (d : Dev) (k : Nat) : (d.setRegion r x).chan k = d.chan k := (rfl)
@[simp] theorem Dev.setRegion_timer (r : Nat) (x : Region) (d : Dev) (k : Nat) : (d.setRegion r x).timer k = d.timer k := (rfl)
@[simp] theorem Dev.setRegion_engine (r : Nat) (x : Region) (d : Dev) (k : Nat) : (d.setRegion r x).engine k = d.engine k := (rfl)
@[simp] theorem Dev.setRegion_pipe (r : Nat) (x : Region) (d : Dev) (k : Nat) : (d.setRegion r x).pipe k = d.pipe k := (rfl)
@[simp] theorem Dev.setRegion_gather (r : Nat) (x : Region) (d : Dev) (k : Nat) : (d.setRegion r x).gather k = d.gather k := (rfl)
@[simp] theorem Dev.setRegion_site (r : Nat) (x : Region) (d : Dev) (k : Nat) : (d.setRegion r x).site k = d.site k := (rfl)
@[simp] theorem Dev.setRegion_gang (r : Nat) (x : Region) (d : Dev) (k : Nat) : (d.setRegion r x).gang k = d.gang k := (rfl)
@[simp] theorem Dev.setRegion_lane (r : Nat) (x : Region) (d : Dev) (k : Nat) : (d.setRegion r x).lane k = d.lane k := (rfl)
@[simp] theorem Dev.setRegion_effAt (r : Nat) (x : Region) (d : Dev) (k : Nat) : (d.setRegion r x).effAt k = d.effAt k := (rfl)
@[simp] theorem Dev.setRegion_stagedAt (r : Nat) (x : Region) (d : Dev) (k : Nat) : (d.setRegion r x).stagedAt k = d.stagedAt k := (rfl)
@[simp] theorem Dev.setRegion_admittedAt (r : Nat) (x : Region) (d : Dev) (k : Nat) : (d.setRegion r x).admittedAt k = d.admittedAt k := (rfl)
@[simp] theorem Dev.setPipe_canvas (p : Nat) (x : Pipe) (d : Dev) (k : Nat) : (d.setPipe p x).canvas k = d.canvas k := (rfl)
@[simp] theorem Dev.setPipe_queue (p : Nat) (x : Pipe) (d : Dev) (k : Nat) : (d.setPipe p x).queue k = d.queue k := (rfl)
@[simp] theorem Dev.setPipe_ring (p : Nat) (x : Pipe) (d : Dev) (k : Nat) : (d.setPipe p x).ring k = d.ring k := (rfl)
@[simp] theorem Dev.setPipe_port (p : Nat) (x : Pipe) (d : Dev) (k : Nat) : (d.setPipe p x).port k = d.port k := (rfl)
@[simp] theorem Dev.setPipe_chan (p : Nat) (x : Pipe) (d : Dev) (k : Nat) : (d.setPipe p x).chan k = d.chan k := (rfl)
@[simp] theorem Dev.setPipe_timer (p : Nat) (x : Pipe) (d : Dev) (k : Nat) : (d.setPipe p x).timer k = d.timer k := (rfl)
@[simp] theorem Dev.setPipe_engine (p : Nat) (x : Pipe) (d : Dev) (k : Nat) : (d.setPipe p x).engine k = d.engine k := (rfl)
@[simp] theorem Dev.setPipe_region (p : Nat) (x : Pipe) (d : Dev) (k : Nat) : (d.setPipe p x).region k = d.region k := (rfl)
@[simp] theorem Dev.setPipe_gather (p : Nat) (x : Pipe) (d : Dev) (k : Nat) : (d.setPipe p x).gather k = d.gather k := (rfl)
@[simp] theorem Dev.setPipe_site (p : Nat) (x : Pipe) (d : Dev) (k : Nat) : (d.setPipe p x).site k = d.site k := (rfl)
@[simp] theorem Dev.setPipe_gang (p : Nat) (x : Pipe) (d : Dev) (k : Nat) : (d.setPipe p x).gang k = d.gang k := (rfl)
@[simp] theorem Dev.setPipe_lane (p : Nat) (x : Pipe) (d : Dev) (k : Nat) : (d.setPipe p x).lane k = d.lane k := (rfl)
@[simp] theorem Dev.setPipe_effAt (p : Nat) (x : Pipe) (d : Dev) (k : Nat) : (d.setPipe p x).effAt k = d.effAt k := (rfl)
@[simp] theorem Dev.setPipe_stagedAt (p : Nat) (x : Pipe) (d : Dev) (k : Nat) : (d.setPipe p x).stagedAt k = d.stagedAt k := (rfl)
@[simp] theorem Dev.setPipe_admittedAt (p : Nat) (x : Pipe) (d : Dev) (k : Nat) : (d.setPipe p x).admittedAt k = d.admittedAt k := (rfl)
@[simp] theorem Dev.setGather_canvas (g : Nat) (x : Gather) (d : Dev) (k : Nat) : (d.setGather g x).canvas k = d.canvas k := (rfl)
@[simp] theorem Dev.setGather_queue (g : Nat) (x : Gather) (d : Dev) (k : Nat) : (d.setGather g x).queue k = d.queue k := (rfl)
@[simp] theorem Dev.setGather_ring (g : Nat) (x : Gather) (d : Dev) (k : Nat) : (d.setGather g x).ring k = d.ring k := (rfl)
@[simp] theorem Dev.setGather_port (g : Nat) (x : Gather) (d : Dev) (k : Nat) : (d.setGather g x).port k = d.port k := (rfl)
@[simp] theorem Dev.setGather_chan (g : Nat) (x : Gather) (d : Dev) (k : Nat) : (d.setGather g x).chan k = d.chan k := (rfl)
@[simp] theorem Dev.setGather_timer (g : Nat) (x : Gather) (d : Dev) (k : Nat) : (d.setGather g x).timer k = d.timer k := (rfl)
@[simp] theorem Dev.setGather_engine (g : Nat) (x : Gather) (d : Dev) (k : Nat) : (d.setGather g x).engine k = d.engine k := (rfl)
@[simp] theorem Dev.setGather_region (g : Nat) (x : Gather) (d : Dev) (k : Nat) : (d.setGather g x).region k = d.region k := (rfl)
@[simp] theorem Dev.setGather_pipe (g : Nat) (x : Gather) (d : Dev) (k : Nat) : (d.setGather g x).pipe k = d.pipe k := (rfl)
@[simp] theorem Dev.setGather_site (g : Nat) (x : Gather) (d : Dev) (k : Nat) : (d.setGather g x).site k = d.site k := (rfl)
@[simp] theorem Dev.setGather_gang (g : Nat) (x : Gather) (d : Dev) (k : Nat) : (d.setGather g x).gang k = d.gang k := (rfl)
@[simp] theorem Dev.setGather_lane (g : Nat) (x : Gather) (d : Dev) (k : Nat) : (d.setGather g x).lane k = d.lane k := (rfl)
@[simp] theorem Dev.setGather_effAt (g : Nat) (x : Gather) (d : Dev) (k : Nat) : (d.setGather g x).effAt k = d.effAt k := (rfl)
@[simp] theorem Dev.setGather_stagedAt (g : Nat) (x : Gather) (d : Dev) (k : Nat) : (d.setGather g x).stagedAt k = d.stagedAt k := (rfl)
@[simp] theorem Dev.setGather_admittedAt (g : Nat) (x : Gather) (d : Dev) (k : Nat) : (d.setGather g x).admittedAt k = d.admittedAt k := (rfl)
@[simp] theorem Dev.setSite_canvas (s : Nat) (x : Site) (d : Dev) (k : Nat) : (d.setSite s x).canvas k = d.canvas k := (rfl)
@[simp] theorem Dev.setSite_queue (s : Nat) (x : Site) (d : Dev) (k : Nat) : (d.setSite s x).queue k = d.queue k := (rfl)
@[simp] theorem Dev.setSite_ring (s : Nat) (x : Site) (d : Dev) (k : Nat) : (d.setSite s x).ring k = d.ring k := (rfl)
@[simp] theorem Dev.setSite_port (s : Nat) (x : Site) (d : Dev) (k : Nat) : (d.setSite s x).port k = d.port k := (rfl)
@[simp] theorem Dev.setSite_chan (s : Nat) (x : Site) (d : Dev) (k : Nat) : (d.setSite s x).chan k = d.chan k := (rfl)
@[simp] theorem Dev.setSite_timer (s : Nat) (x : Site) (d : Dev) (k : Nat) : (d.setSite s x).timer k = d.timer k := (rfl)
@[simp] theorem Dev.setSite_engine (s : Nat) (x : Site) (d : Dev) (k : Nat) : (d.setSite s x).engine k = d.engine k := (rfl)
@[simp] theorem Dev.setSite_region (s : Nat) (x : Site) (d : Dev) (k : Nat) : (d.setSite s x).region k = d.region k := (rfl)
@[simp] theorem Dev.setSite_pipe (s : Nat) (x : Site) (d : Dev) (k : Nat) : (d.setSite s x).pipe k = d.pipe k := (rfl)
@[simp] theorem Dev.setSite_gather (s : Nat) (x : Site) (d : Dev) (k : Nat) : (d.setSite s x).gather k = d.gather k := (rfl)
@[simp] theorem Dev.setSite_gang (s : Nat) (x : Site) (d : Dev) (k : Nat) : (d.setSite s x).gang k = d.gang k := (rfl)
@[simp] theorem Dev.setSite_lane (s : Nat) (x : Site) (d : Dev) (k : Nat) : (d.setSite s x).lane k = d.lane k := (rfl)
@[simp] theorem Dev.setSite_effAt (s : Nat) (x : Site) (d : Dev) (k : Nat) : (d.setSite s x).effAt k = d.effAt k := (rfl)
@[simp] theorem Dev.setSite_stagedAt (s : Nat) (x : Site) (d : Dev) (k : Nat) : (d.setSite s x).stagedAt k = d.stagedAt k := (rfl)
@[simp] theorem Dev.setSite_admittedAt (s : Nat) (x : Site) (d : Dev) (k : Nat) : (d.setSite s x).admittedAt k = d.admittedAt k := (rfl)
@[simp] theorem Dev.setGang_canvas (g : Nat) (x : Gang) (d : Dev) (k : Nat) : (d.setGang g x).canvas k = d.canvas k := (rfl)
@[simp] theorem Dev.setGang_queue (g : Nat) (x : Gang) (d : Dev) (k : Nat) : (d.setGang g x).queue k = d.queue k := (rfl)
@[simp] theorem Dev.setGang_ring (g : Nat) (x : Gang) (d : Dev) (k : Nat) : (d.setGang g x).ring k = d.ring k := (rfl)
@[simp] theorem Dev.setGang_port (g : Nat) (x : Gang) (d : Dev) (k : Nat) : (d.setGang g x).port k = d.port k := (rfl)
@[simp] theorem Dev.setGang_chan (g : Nat) (x : Gang) (d : Dev) (k : Nat) : (d.setGang g x).chan k = d.chan k := (rfl)
@[simp] theorem Dev.setGang_timer (g : Nat) (x : Gang) (d : Dev) (k : Nat) : (d.setGang g x).timer k = d.timer k := (rfl)
@[simp] theorem Dev.setGang_engine (g : Nat) (x : Gang) (d : Dev) (k : Nat) : (d.setGang g x).engine k = d.engine k := (rfl)
@[simp] theorem Dev.setGang_region (g : Nat) (x : Gang) (d : Dev) (k : Nat) : (d.setGang g x).region k = d.region k := (rfl)
@[simp] theorem Dev.setGang_pipe (g : Nat) (x : Gang) (d : Dev) (k : Nat) : (d.setGang g x).pipe k = d.pipe k := (rfl)
@[simp] theorem Dev.setGang_gather (g : Nat) (x : Gang) (d : Dev) (k : Nat) : (d.setGang g x).gather k = d.gather k := (rfl)
@[simp] theorem Dev.setGang_site (g : Nat) (x : Gang) (d : Dev) (k : Nat) : (d.setGang g x).site k = d.site k := (rfl)
@[simp] theorem Dev.setGang_lane (g : Nat) (x : Gang) (d : Dev) (k : Nat) : (d.setGang g x).lane k = d.lane k := (rfl)
@[simp] theorem Dev.setGang_effAt (g : Nat) (x : Gang) (d : Dev) (k : Nat) : (d.setGang g x).effAt k = d.effAt k := (rfl)
@[simp] theorem Dev.setGang_stagedAt (g : Nat) (x : Gang) (d : Dev) (k : Nat) : (d.setGang g x).stagedAt k = d.stagedAt k := (rfl)
@[simp] theorem Dev.setGang_admittedAt (g : Nat) (x : Gang) (d : Dev) (k : Nat) : (d.setGang g x).admittedAt k = d.admittedAt k := (rfl)
@[simp] theorem Dev.setLane_canvas (l : Nat) (x : Lane) (d : Dev) (k : Nat) : (d.setLane l x).canvas k = d.canvas k := (rfl)
@[simp] theorem Dev.setLane_queue (l : Nat) (x : Lane) (d : Dev) (k : Nat) : (d.setLane l x).queue k = d.queue k := (rfl)
@[simp] theorem Dev.setLane_ring (l : Nat) (x : Lane) (d : Dev) (k : Nat) : (d.setLane l x).ring k = d.ring k := (rfl)
@[simp] theorem Dev.setLane_port (l : Nat) (x : Lane) (d : Dev) (k : Nat) : (d.setLane l x).port k = d.port k := (rfl)
@[simp] theorem Dev.setLane_chan (l : Nat) (x : Lane) (d : Dev) (k : Nat) : (d.setLane l x).chan k = d.chan k := (rfl)
@[simp] theorem Dev.setLane_timer (l : Nat) (x : Lane) (d : Dev) (k : Nat) : (d.setLane l x).timer k = d.timer k := (rfl)
@[simp] theorem Dev.setLane_engine (l : Nat) (x : Lane) (d : Dev) (k : Nat) : (d.setLane l x).engine k = d.engine k := (rfl)
@[simp] theorem Dev.setLane_region (l : Nat) (x : Lane) (d : Dev) (k : Nat) : (d.setLane l x).region k = d.region k := (rfl)
@[simp] theorem Dev.setLane_pipe (l : Nat) (x : Lane) (d : Dev) (k : Nat) : (d.setLane l x).pipe k = d.pipe k := (rfl)
@[simp] theorem Dev.setLane_gather (l : Nat) (x : Lane) (d : Dev) (k : Nat) : (d.setLane l x).gather k = d.gather k := (rfl)
@[simp] theorem Dev.setLane_site (l : Nat) (x : Lane) (d : Dev) (k : Nat) : (d.setLane l x).site k = d.site k := (rfl)
@[simp] theorem Dev.setLane_gang (l : Nat) (x : Lane) (d : Dev) (k : Nat) : (d.setLane l x).gang k = d.gang k := (rfl)
@[simp] theorem Dev.setLane_effAt (l : Nat) (x : Lane) (d : Dev) (k : Nat) : (d.setLane l x).effAt k = d.effAt k := (rfl)
@[simp] theorem Dev.setLane_stagedAt (l : Nat) (x : Lane) (d : Dev) (k : Nat) : (d.setLane l x).stagedAt k = d.stagedAt k := (rfl)
@[simp] theorem Dev.setLane_admittedAt (l : Nat) (x : Lane) (d : Dev) (k : Nat) : (d.setLane l x).admittedAt k = d.admittedAt k := (rfl)
@[simp] theorem Dev.setEffAt_canvas (a : Nat) (w : Word) (d : Dev) (k : Nat) : (d.setEffAt a w).canvas k = d.canvas k := (rfl)
@[simp] theorem Dev.setEffAt_queue (a : Nat) (w : Word) (d : Dev) (k : Nat) : (d.setEffAt a w).queue k = d.queue k := (rfl)
@[simp] theorem Dev.setEffAt_ring (a : Nat) (w : Word) (d : Dev) (k : Nat) : (d.setEffAt a w).ring k = d.ring k := (rfl)
@[simp] theorem Dev.setEffAt_port (a : Nat) (w : Word) (d : Dev) (k : Nat) : (d.setEffAt a w).port k = d.port k := (rfl)
@[simp] theorem Dev.setEffAt_chan (a : Nat) (w : Word) (d : Dev) (k : Nat) : (d.setEffAt a w).chan k = d.chan k := (rfl)
@[simp] theorem Dev.setEffAt_timer (a : Nat) (w : Word) (d : Dev) (k : Nat) : (d.setEffAt a w).timer k = d.timer k := (rfl)
@[simp] theorem Dev.setEffAt_engine (a : Nat) (w : Word) (d : Dev) (k : Nat) : (d.setEffAt a w).engine k = d.engine k := (rfl)
@[simp] theorem Dev.setEffAt_region (a : Nat) (w : Word) (d : Dev) (k : Nat) : (d.setEffAt a w).region k = d.region k := (rfl)
@[simp] theorem Dev.setEffAt_pipe (a : Nat) (w : Word) (d : Dev) (k : Nat) : (d.setEffAt a w).pipe k = d.pipe k := (rfl)
@[simp] theorem Dev.setEffAt_gather (a : Nat) (w : Word) (d : Dev) (k : Nat) : (d.setEffAt a w).gather k = d.gather k := (rfl)
@[simp] theorem Dev.setEffAt_site (a : Nat) (w : Word) (d : Dev) (k : Nat) : (d.setEffAt a w).site k = d.site k := (rfl)
@[simp] theorem Dev.setEffAt_gang (a : Nat) (w : Word) (d : Dev) (k : Nat) : (d.setEffAt a w).gang k = d.gang k := (rfl)
@[simp] theorem Dev.setEffAt_lane (a : Nat) (w : Word) (d : Dev) (k : Nat) : (d.setEffAt a w).lane k = d.lane k := (rfl)
@[simp] theorem Dev.setEffAt_stagedAt (a : Nat) (w : Word) (d : Dev) (k : Nat) : (d.setEffAt a w).stagedAt k = d.stagedAt k := (rfl)
@[simp] theorem Dev.setEffAt_admittedAt (a : Nat) (w : Word) (d : Dev) (k : Nat) : (d.setEffAt a w).admittedAt k = d.admittedAt k := (rfl)
@[simp] theorem Dev.setReg_canvas (t : PType) (i off : Nat) (w : Word) (d : Dev) (k : Nat) : (d.setReg t i off w).canvas k = d.canvas k := (rfl)
@[simp] theorem Dev.setReg_queue (t : PType) (i off : Nat) (w : Word) (d : Dev) (k : Nat) : (d.setReg t i off w).queue k = d.queue k := (rfl)
@[simp] theorem Dev.setReg_ring (t : PType) (i off : Nat) (w : Word) (d : Dev) (k : Nat) : (d.setReg t i off w).ring k = d.ring k := (rfl)
@[simp] theorem Dev.setReg_port (t : PType) (i off : Nat) (w : Word) (d : Dev) (k : Nat) : (d.setReg t i off w).port k = d.port k := (rfl)
@[simp] theorem Dev.setReg_chan (t : PType) (i off : Nat) (w : Word) (d : Dev) (k : Nat) : (d.setReg t i off w).chan k = d.chan k := (rfl)
@[simp] theorem Dev.setReg_timer (t : PType) (i off : Nat) (w : Word) (d : Dev) (k : Nat) : (d.setReg t i off w).timer k = d.timer k := (rfl)
@[simp] theorem Dev.setReg_engine (t : PType) (i off : Nat) (w : Word) (d : Dev) (k : Nat) : (d.setReg t i off w).engine k = d.engine k := (rfl)
@[simp] theorem Dev.setReg_region (t : PType) (i off : Nat) (w : Word) (d : Dev) (k : Nat) : (d.setReg t i off w).region k = d.region k := (rfl)
@[simp] theorem Dev.setReg_pipe (t : PType) (i off : Nat) (w : Word) (d : Dev) (k : Nat) : (d.setReg t i off w).pipe k = d.pipe k := (rfl)
@[simp] theorem Dev.setReg_gather (t : PType) (i off : Nat) (w : Word) (d : Dev) (k : Nat) : (d.setReg t i off w).gather k = d.gather k := (rfl)
@[simp] theorem Dev.setReg_site (t : PType) (i off : Nat) (w : Word) (d : Dev) (k : Nat) : (d.setReg t i off w).site k = d.site k := (rfl)
@[simp] theorem Dev.setReg_gang (t : PType) (i off : Nat) (w : Word) (d : Dev) (k : Nat) : (d.setReg t i off w).gang k = d.gang k := (rfl)
@[simp] theorem Dev.setReg_lane (t : PType) (i off : Nat) (w : Word) (d : Dev) (k : Nat) : (d.setReg t i off w).lane k = d.lane k := (rfl)
@[simp] theorem Dev.setReg_stagedAt (t : PType) (i off : Nat) (w : Word) (d : Dev) (k : Nat) : (d.setReg t i off w).stagedAt k = d.stagedAt k := (rfl)
@[simp] theorem Dev.setReg_admittedAt (t : PType) (i off : Nat) (w : Word) (d : Dev) (k : Nat) : (d.setReg t i off w).admittedAt k = d.admittedAt k := (rfl)
@[simp] theorem Dev.setStagedAt_canvas (a : Nat) (w : Option Word) (d : Dev) (k : Nat) : (d.setStagedAt a w).canvas k = d.canvas k := (rfl)
@[simp] theorem Dev.setStagedAt_queue (a : Nat) (w : Option Word) (d : Dev) (k : Nat) : (d.setStagedAt a w).queue k = d.queue k := (rfl)
@[simp] theorem Dev.setStagedAt_ring (a : Nat) (w : Option Word) (d : Dev) (k : Nat) : (d.setStagedAt a w).ring k = d.ring k := (rfl)
@[simp] theorem Dev.setStagedAt_port (a : Nat) (w : Option Word) (d : Dev) (k : Nat) : (d.setStagedAt a w).port k = d.port k := (rfl)
@[simp] theorem Dev.setStagedAt_chan (a : Nat) (w : Option Word) (d : Dev) (k : Nat) : (d.setStagedAt a w).chan k = d.chan k := (rfl)
@[simp] theorem Dev.setStagedAt_timer (a : Nat) (w : Option Word) (d : Dev) (k : Nat) : (d.setStagedAt a w).timer k = d.timer k := (rfl)
@[simp] theorem Dev.setStagedAt_engine (a : Nat) (w : Option Word) (d : Dev) (k : Nat) : (d.setStagedAt a w).engine k = d.engine k := (rfl)
@[simp] theorem Dev.setStagedAt_region (a : Nat) (w : Option Word) (d : Dev) (k : Nat) : (d.setStagedAt a w).region k = d.region k := (rfl)
@[simp] theorem Dev.setStagedAt_pipe (a : Nat) (w : Option Word) (d : Dev) (k : Nat) : (d.setStagedAt a w).pipe k = d.pipe k := (rfl)
@[simp] theorem Dev.setStagedAt_gather (a : Nat) (w : Option Word) (d : Dev) (k : Nat) : (d.setStagedAt a w).gather k = d.gather k := (rfl)
@[simp] theorem Dev.setStagedAt_site (a : Nat) (w : Option Word) (d : Dev) (k : Nat) : (d.setStagedAt a w).site k = d.site k := (rfl)
@[simp] theorem Dev.setStagedAt_gang (a : Nat) (w : Option Word) (d : Dev) (k : Nat) : (d.setStagedAt a w).gang k = d.gang k := (rfl)
@[simp] theorem Dev.setStagedAt_lane (a : Nat) (w : Option Word) (d : Dev) (k : Nat) : (d.setStagedAt a w).lane k = d.lane k := (rfl)
@[simp] theorem Dev.setStagedAt_effAt (a : Nat) (w : Option Word) (d : Dev) (k : Nat) : (d.setStagedAt a w).effAt k = d.effAt k := (rfl)
@[simp] theorem Dev.setStagedAt_admittedAt (a : Nat) (w : Option Word) (d : Dev) (k : Nat) : (d.setStagedAt a w).admittedAt k = d.admittedAt k := (rfl)
@[simp] theorem Dev.setAdmittedAt_canvas (a : Nat) (w : Option Word) (d : Dev) (k : Nat) : (d.setAdmittedAt a w).canvas k = d.canvas k := (rfl)
@[simp] theorem Dev.setAdmittedAt_queue (a : Nat) (w : Option Word) (d : Dev) (k : Nat) : (d.setAdmittedAt a w).queue k = d.queue k := (rfl)
@[simp] theorem Dev.setAdmittedAt_ring (a : Nat) (w : Option Word) (d : Dev) (k : Nat) : (d.setAdmittedAt a w).ring k = d.ring k := (rfl)
@[simp] theorem Dev.setAdmittedAt_port (a : Nat) (w : Option Word) (d : Dev) (k : Nat) : (d.setAdmittedAt a w).port k = d.port k := (rfl)
@[simp] theorem Dev.setAdmittedAt_chan (a : Nat) (w : Option Word) (d : Dev) (k : Nat) : (d.setAdmittedAt a w).chan k = d.chan k := (rfl)
@[simp] theorem Dev.setAdmittedAt_timer (a : Nat) (w : Option Word) (d : Dev) (k : Nat) : (d.setAdmittedAt a w).timer k = d.timer k := (rfl)
@[simp] theorem Dev.setAdmittedAt_engine (a : Nat) (w : Option Word) (d : Dev) (k : Nat) : (d.setAdmittedAt a w).engine k = d.engine k := (rfl)
@[simp] theorem Dev.setAdmittedAt_region (a : Nat) (w : Option Word) (d : Dev) (k : Nat) : (d.setAdmittedAt a w).region k = d.region k := (rfl)
@[simp] theorem Dev.setAdmittedAt_pipe (a : Nat) (w : Option Word) (d : Dev) (k : Nat) : (d.setAdmittedAt a w).pipe k = d.pipe k := (rfl)
@[simp] theorem Dev.setAdmittedAt_gather (a : Nat) (w : Option Word) (d : Dev) (k : Nat) : (d.setAdmittedAt a w).gather k = d.gather k := (rfl)
@[simp] theorem Dev.setAdmittedAt_site (a : Nat) (w : Option Word) (d : Dev) (k : Nat) : (d.setAdmittedAt a w).site k = d.site k := (rfl)
@[simp] theorem Dev.setAdmittedAt_gang (a : Nat) (w : Option Word) (d : Dev) (k : Nat) : (d.setAdmittedAt a w).gang k = d.gang k := (rfl)
@[simp] theorem Dev.setAdmittedAt_lane (a : Nat) (w : Option Word) (d : Dev) (k : Nat) : (d.setAdmittedAt a w).lane k = d.lane k := (rfl)
@[simp] theorem Dev.setAdmittedAt_effAt (a : Nat) (w : Option Word) (d : Dev) (k : Nat) : (d.setAdmittedAt a w).effAt k = d.effAt k := (rfl)
@[simp] theorem Dev.setAdmittedAt_stagedAt (a : Nat) (w : Option Word) (d : Dev) (k : Nat) : (d.setAdmittedAt a w).stagedAt k = d.stagedAt k := (rfl)
@[simp] theorem Dev.setArm_canvas (n m : Nat) (b : Bool) (d : Dev) (k : Nat) : (d.setArm n m b).canvas k = d.canvas k := (rfl)
@[simp] theorem Dev.setArm_queue (n m : Nat) (b : Bool) (d : Dev) (k : Nat) : (d.setArm n m b).queue k = d.queue k := (rfl)
@[simp] theorem Dev.setArm_ring (n m : Nat) (b : Bool) (d : Dev) (k : Nat) : (d.setArm n m b).ring k = d.ring k := (rfl)
@[simp] theorem Dev.setArm_port (n m : Nat) (b : Bool) (d : Dev) (k : Nat) : (d.setArm n m b).port k = d.port k := (rfl)
@[simp] theorem Dev.setArm_chan (n m : Nat) (b : Bool) (d : Dev) (k : Nat) : (d.setArm n m b).chan k = d.chan k := (rfl)
@[simp] theorem Dev.setArm_timer (n m : Nat) (b : Bool) (d : Dev) (k : Nat) : (d.setArm n m b).timer k = d.timer k := (rfl)
@[simp] theorem Dev.setArm_engine (n m : Nat) (b : Bool) (d : Dev) (k : Nat) : (d.setArm n m b).engine k = d.engine k := (rfl)
@[simp] theorem Dev.setArm_region (n m : Nat) (b : Bool) (d : Dev) (k : Nat) : (d.setArm n m b).region k = d.region k := (rfl)
@[simp] theorem Dev.setArm_pipe (n m : Nat) (b : Bool) (d : Dev) (k : Nat) : (d.setArm n m b).pipe k = d.pipe k := (rfl)
@[simp] theorem Dev.setArm_gather (n m : Nat) (b : Bool) (d : Dev) (k : Nat) : (d.setArm n m b).gather k = d.gather k := (rfl)
@[simp] theorem Dev.setArm_site (n m : Nat) (b : Bool) (d : Dev) (k : Nat) : (d.setArm n m b).site k = d.site k := (rfl)
@[simp] theorem Dev.setArm_gang (n m : Nat) (b : Bool) (d : Dev) (k : Nat) : (d.setArm n m b).gang k = d.gang k := (rfl)
@[simp] theorem Dev.setArm_lane (n m : Nat) (b : Bool) (d : Dev) (k : Nat) : (d.setArm n m b).lane k = d.lane k := (rfl)
@[simp] theorem Dev.setArm_effAt (n m : Nat) (b : Bool) (d : Dev) (k : Nat) : (d.setArm n m b).effAt k = d.effAt k := (rfl)
@[simp] theorem Dev.setArm_stagedAt (n m : Nat) (b : Bool) (d : Dev) (k : Nat) : (d.setArm n m b).stagedAt k = d.stagedAt k := (rfl)
@[simp] theorem Dev.setArm_admittedAt (n m : Nat) (b : Bool) (d : Dev) (k : Nat) : (d.setArm n m b).admittedAt k = d.admittedAt k := (rfl)
@[simp] theorem Dev.setDiscarded_canvas (n : Nat) (b : Bool) (d : Dev) (k : Nat) : (d.setDiscarded n b).canvas k = d.canvas k := (rfl)
@[simp] theorem Dev.setDiscarded_queue (n : Nat) (b : Bool) (d : Dev) (k : Nat) : (d.setDiscarded n b).queue k = d.queue k := (rfl)
@[simp] theorem Dev.setDiscarded_ring (n : Nat) (b : Bool) (d : Dev) (k : Nat) : (d.setDiscarded n b).ring k = d.ring k := (rfl)
@[simp] theorem Dev.setDiscarded_port (n : Nat) (b : Bool) (d : Dev) (k : Nat) : (d.setDiscarded n b).port k = d.port k := (rfl)
@[simp] theorem Dev.setDiscarded_chan (n : Nat) (b : Bool) (d : Dev) (k : Nat) : (d.setDiscarded n b).chan k = d.chan k := (rfl)
@[simp] theorem Dev.setDiscarded_timer (n : Nat) (b : Bool) (d : Dev) (k : Nat) : (d.setDiscarded n b).timer k = d.timer k := (rfl)
@[simp] theorem Dev.setDiscarded_engine (n : Nat) (b : Bool) (d : Dev) (k : Nat) : (d.setDiscarded n b).engine k = d.engine k := (rfl)
@[simp] theorem Dev.setDiscarded_region (n : Nat) (b : Bool) (d : Dev) (k : Nat) : (d.setDiscarded n b).region k = d.region k := (rfl)
@[simp] theorem Dev.setDiscarded_pipe (n : Nat) (b : Bool) (d : Dev) (k : Nat) : (d.setDiscarded n b).pipe k = d.pipe k := (rfl)
@[simp] theorem Dev.setDiscarded_gather (n : Nat) (b : Bool) (d : Dev) (k : Nat) : (d.setDiscarded n b).gather k = d.gather k := (rfl)
@[simp] theorem Dev.setDiscarded_site (n : Nat) (b : Bool) (d : Dev) (k : Nat) : (d.setDiscarded n b).site k = d.site k := (rfl)
@[simp] theorem Dev.setDiscarded_gang (n : Nat) (b : Bool) (d : Dev) (k : Nat) : (d.setDiscarded n b).gang k = d.gang k := (rfl)
@[simp] theorem Dev.setDiscarded_lane (n : Nat) (b : Bool) (d : Dev) (k : Nat) : (d.setDiscarded n b).lane k = d.lane k := (rfl)
@[simp] theorem Dev.setDiscarded_effAt (n : Nat) (b : Bool) (d : Dev) (k : Nat) : (d.setDiscarded n b).effAt k = d.effAt k := (rfl)
@[simp] theorem Dev.setDiscarded_stagedAt (n : Nat) (b : Bool) (d : Dev) (k : Nat) : (d.setDiscarded n b).stagedAt k = d.stagedAt k := (rfl)
@[simp] theorem Dev.setDiscarded_admittedAt (n : Nat) (b : Bool) (d : Dev) (k : Nat) : (d.setDiscarded n b).admittedAt k = d.admittedAt k := (rfl)
@[simp] theorem Dev.fire_canvas (src inst : Nat) (detail : BitVec 128) (d : Dev) (k : Nat) : (d.fire src inst detail).canvas k = d.canvas k := (rfl)
@[simp] theorem Dev.fire_queue (src inst : Nat) (detail : BitVec 128) (d : Dev) (k : Nat) : (d.fire src inst detail).queue k = d.queue k := (rfl)
@[simp] theorem Dev.fire_ring (src inst : Nat) (detail : BitVec 128) (d : Dev) (k : Nat) : (d.fire src inst detail).ring k = d.ring k := (rfl)
@[simp] theorem Dev.fire_port (src inst : Nat) (detail : BitVec 128) (d : Dev) (k : Nat) : (d.fire src inst detail).port k = d.port k := (rfl)
@[simp] theorem Dev.fire_chan (src inst : Nat) (detail : BitVec 128) (d : Dev) (k : Nat) : (d.fire src inst detail).chan k = d.chan k := (rfl)
@[simp] theorem Dev.fire_timer (src inst : Nat) (detail : BitVec 128) (d : Dev) (k : Nat) : (d.fire src inst detail).timer k = d.timer k := (rfl)
@[simp] theorem Dev.fire_engine (src inst : Nat) (detail : BitVec 128) (d : Dev) (k : Nat) : (d.fire src inst detail).engine k = d.engine k := (rfl)
@[simp] theorem Dev.fire_region (src inst : Nat) (detail : BitVec 128) (d : Dev) (k : Nat) : (d.fire src inst detail).region k = d.region k := (rfl)
@[simp] theorem Dev.fire_pipe (src inst : Nat) (detail : BitVec 128) (d : Dev) (k : Nat) : (d.fire src inst detail).pipe k = d.pipe k := (rfl)
@[simp] theorem Dev.fire_gather (src inst : Nat) (detail : BitVec 128) (d : Dev) (k : Nat) : (d.fire src inst detail).gather k = d.gather k := (rfl)
@[simp] theorem Dev.fire_site (src inst : Nat) (detail : BitVec 128) (d : Dev) (k : Nat) : (d.fire src inst detail).site k = d.site k := (rfl)
@[simp] theorem Dev.fire_gang (src inst : Nat) (detail : BitVec 128) (d : Dev) (k : Nat) : (d.fire src inst detail).gang k = d.gang k := (rfl)
@[simp] theorem Dev.fire_lane (src inst : Nat) (detail : BitVec 128) (d : Dev) (k : Nat) : (d.fire src inst detail).lane k = d.lane k := (rfl)
@[simp] theorem Dev.fire_effAt (src inst : Nat) (detail : BitVec 128) (d : Dev) (k : Nat) : (d.fire src inst detail).effAt k = d.effAt k := (rfl)
@[simp] theorem Dev.fire_stagedAt (src inst : Nat) (detail : BitVec 128) (d : Dev) (k : Nat) : (d.fire src inst detail).stagedAt k = d.stagedAt k := (rfl)
@[simp] theorem Dev.fire_admittedAt (src inst : Nat) (detail : BitVec 128) (d : Dev) (k : Nat) : (d.fire src inst detail).admittedAt k = d.admittedAt k := (rfl)
@[simp] theorem Dev.setByte_canvas (a : Nat) (b : Byte) (d : Dev) (k : Nat) : (d.setByte a b).canvas k = d.canvas k := (rfl)
@[simp] theorem Dev.setByte_queue (a : Nat) (b : Byte) (d : Dev) (k : Nat) : (d.setByte a b).queue k = d.queue k := (rfl)
@[simp] theorem Dev.setByte_ring (a : Nat) (b : Byte) (d : Dev) (k : Nat) : (d.setByte a b).ring k = d.ring k := (rfl)
@[simp] theorem Dev.setByte_port (a : Nat) (b : Byte) (d : Dev) (k : Nat) : (d.setByte a b).port k = d.port k := (rfl)
@[simp] theorem Dev.setByte_chan (a : Nat) (b : Byte) (d : Dev) (k : Nat) : (d.setByte a b).chan k = d.chan k := (rfl)
@[simp] theorem Dev.setByte_timer (a : Nat) (b : Byte) (d : Dev) (k : Nat) : (d.setByte a b).timer k = d.timer k := (rfl)
@[simp] theorem Dev.setByte_engine (a : Nat) (b : Byte) (d : Dev) (k : Nat) : (d.setByte a b).engine k = d.engine k := (rfl)
@[simp] theorem Dev.setByte_region (a : Nat) (b : Byte) (d : Dev) (k : Nat) : (d.setByte a b).region k = d.region k := (rfl)
@[simp] theorem Dev.setByte_pipe (a : Nat) (b : Byte) (d : Dev) (k : Nat) : (d.setByte a b).pipe k = d.pipe k := (rfl)
@[simp] theorem Dev.setByte_gather (a : Nat) (b : Byte) (d : Dev) (k : Nat) : (d.setByte a b).gather k = d.gather k := (rfl)
@[simp] theorem Dev.setByte_site (a : Nat) (b : Byte) (d : Dev) (k : Nat) : (d.setByte a b).site k = d.site k := (rfl)
@[simp] theorem Dev.setByte_gang (a : Nat) (b : Byte) (d : Dev) (k : Nat) : (d.setByte a b).gang k = d.gang k := (rfl)
@[simp] theorem Dev.setByte_lane (a : Nat) (b : Byte) (d : Dev) (k : Nat) : (d.setByte a b).lane k = d.lane k := (rfl)
@[simp] theorem Dev.setByte_effAt (a : Nat) (b : Byte) (d : Dev) (k : Nat) : (d.setByte a b).effAt k = d.effAt k := (rfl)
@[simp] theorem Dev.setByte_stagedAt (a : Nat) (b : Byte) (d : Dev) (k : Nat) : (d.setByte a b).stagedAt k = d.stagedAt k := (rfl)
@[simp] theorem Dev.setByte_admittedAt (a : Nat) (b : Byte) (d : Dev) (k : Nat) : (d.setByte a b).admittedAt k = d.admittedAt k := (rfl)
@[simp] theorem Dev.setCanvas_reg (c : Nat) (x : Canvas) (d : Dev) (t' : PType) (i' o' : Nat) : (d.setCanvas c x).reg t' i' o' = d.reg t' i' o' := (rfl)
@[simp] theorem Dev.setQueue_reg (q : Nat) (x : Queue) (d : Dev) (t' : PType) (i' o' : Nat) : (d.setQueue q x).reg t' i' o' = d.reg t' i' o' := (rfl)
@[simp] theorem Dev.setRing_reg (f : Nat) (x : NRing) (d : Dev) (t' : PType) (i' o' : Nat) : (d.setRing f x).reg t' i' o' = d.reg t' i' o' := (rfl)
@[simp] theorem Dev.setPort_reg (n : Nat) (x : Port) (d : Dev) (t' : PType) (i' o' : Nat) : (d.setPort n x).reg t' i' o' = d.reg t' i' o' := (rfl)
@[simp] theorem Dev.setChan_reg (c : Nat) (x : Chan) (d : Dev) (t' : PType) (i' o' : Nat) : (d.setChan c x).reg t' i' o' = d.reg t' i' o' := (rfl)
@[simp] theorem Dev.setTimer_reg (t : Nat) (x : Timer) (d : Dev) (t' : PType) (i' o' : Nat) : (d.setTimer t x).reg t' i' o' = d.reg t' i' o' := (rfl)
@[simp] theorem Dev.setEngine_reg (e : Nat) (x : Engine) (d : Dev) (t' : PType) (i' o' : Nat) : (d.setEngine e x).reg t' i' o' = d.reg t' i' o' := (rfl)
@[simp] theorem Dev.setRegion_reg (r : Nat) (x : Region) (d : Dev) (t' : PType) (i' o' : Nat) : (d.setRegion r x).reg t' i' o' = d.reg t' i' o' := (rfl)
@[simp] theorem Dev.setPipe_reg (p : Nat) (x : Pipe) (d : Dev) (t' : PType) (i' o' : Nat) : (d.setPipe p x).reg t' i' o' = d.reg t' i' o' := (rfl)
@[simp] theorem Dev.setGather_reg (g : Nat) (x : Gather) (d : Dev) (t' : PType) (i' o' : Nat) : (d.setGather g x).reg t' i' o' = d.reg t' i' o' := (rfl)
@[simp] theorem Dev.setSite_reg (s : Nat) (x : Site) (d : Dev) (t' : PType) (i' o' : Nat) : (d.setSite s x).reg t' i' o' = d.reg t' i' o' := (rfl)
@[simp] theorem Dev.setGang_reg (g : Nat) (x : Gang) (d : Dev) (t' : PType) (i' o' : Nat) : (d.setGang g x).reg t' i' o' = d.reg t' i' o' := (rfl)
@[simp] theorem Dev.setLane_reg (l : Nat) (x : Lane) (d : Dev) (t' : PType) (i' o' : Nat) : (d.setLane l x).reg t' i' o' = d.reg t' i' o' := (rfl)
@[simp] theorem Dev.setStagedAt_reg (a : Nat) (w : Option Word) (d : Dev) (t' : PType) (i' o' : Nat) : (d.setStagedAt a w).reg t' i' o' = d.reg t' i' o' := (rfl)
@[simp] theorem Dev.setAdmittedAt_reg (a : Nat) (w : Option Word) (d : Dev) (t' : PType) (i' o' : Nat) : (d.setAdmittedAt a w).reg t' i' o' = d.reg t' i' o' := (rfl)
@[simp] theorem Dev.setArm_reg (n m : Nat) (b : Bool) (d : Dev) (t' : PType) (i' o' : Nat) : (d.setArm n m b).reg t' i' o' = d.reg t' i' o' := (rfl)
@[simp] theorem Dev.setDiscarded_reg (n : Nat) (b : Bool) (d : Dev) (t' : PType) (i' o' : Nat) : (d.setDiscarded n b).reg t' i' o' = d.reg t' i' o' := (rfl)
@[simp] theorem Dev.fire_reg (src inst : Nat) (detail : BitVec 128) (d : Dev) (t' : PType) (i' o' : Nat) : (d.fire src inst detail).reg t' i' o' = d.reg t' i' o' := (rfl)
@[simp] theorem Dev.setByte_reg (a : Nat) (b : Byte) (d : Dev) (t' : PType) (i' o' : Nat) : (d.setByte a b).reg t' i' o' = d.reg t' i' o' := (rfl)

@[simp] theorem Dev.effAt_setEffAt (a : Nat) (w : Word) (d : Dev) : (d.setEffAt a w).effAt a = w := FMap.get_put_same ..
theorem Dev.effAt_setEffAt_ne (w : Word) (d : Dev) {a b : Nat} (h : b ≠ a) : (d.setEffAt a w).effAt b = d.effAt b :=
  FMap.get_put_ne _ _ _ h
@[simp] theorem Dev.reg_setReg (t : PType) (i off : Nat) (w : Word) (d : Dev) : (d.setReg t i off w).reg t i off = w :=
  FMap.get_put_same ..
@[simp] theorem Dev.stagedAt_setStagedAt (a : Nat) (w : Option Word) (d : Dev) : (d.setStagedAt a w).stagedAt a = w :=
  FMap.get_put_same ..
@[simp] theorem Dev.admittedAt_setAdmittedAt (a : Nat) (w : Option Word) (d : Dev) :
    (d.setAdmittedAt a w).admittedAt a = w := FMap.get_put_same ..
@[simp] theorem Dev.armed_setArm (n m : Nat) (b : Bool) (d : Dev) : (d.setArm n m b).armed n m = b := FMap.get_put_same ..

/-! ### Steps -/

@[simp] theorem State.dev!_next (f : Dev → Dev) (s : State) : s.dev! f = .next { s with dev := f s.dev } := (rfl)
@[simp] theorem Dev.when_true (f : Dev → Dev) (d : Dev) : d.when true f = f d := (rfl)
@[simp] theorem Dev.when_false (f : Dev → Dev) (d : Dev) : d.when false f = d := (rfl)

end Sys2Proof.Machine
end

