-- ==== Sys2Proof/Laws/Frame.lean ====
section
/-!
SUPPORT. What each operation over the device leaves alone: for every function of the machine that answers a device, the parts
that are the same after it. A function that takes an operation as an argument has one lemma for each part.
-/
set_option linter.all false
namespace Sys2Proof.Machine

@[simp] theorem foldl_now {α : Type} (f : Dev → α → Dev) (h : ∀ d a, (f d a).now = d.now) (l : List α) (d : Dev) :
    (l.foldl f d).now = d.now := by
  induction l generalizing d with
  | nil => rfl
  | cons a l ih => rw [List.foldl_cons, ih, h]
@[simp] theorem Dev.ite_now (c : Prop) [Decidable c] (a b : Dev) : (if c then a else b).now = if c then a.now else b.now := by
  split <;> rfl
@[simp] theorem Dev.when_now (b : Bool) (f : Dev → Dev) (d : Dev) (h : ∀ d, (f d).now = d.now) : (d.when b f).now = d.now := by
  unfold Dev.when; split
  · exact h d
  · rfl

@[simp] theorem foldl_regs {α : Type} (f : Dev → α → Dev) (h : ∀ d a, (f d a).regs = d.regs) (l : List α) (d : Dev) :
    (l.foldl f d).regs = d.regs := by
  induction l generalizing d with
  | nil => rfl
  | cons a l ih => rw [List.foldl_cons, ih, h]
@[simp] theorem Dev.ite_regs (c : Prop) [Decidable c] (a b : Dev) : (if c then a else b).regs = if c then a.regs else b.regs := by
  split <;> rfl
@[simp] theorem Dev.when_regs (b : Bool) (f : Dev → Dev) (d : Dev) (h : ∀ d, (f d).regs = d.regs) : (d.when b f).regs = d.regs := by
  unfold Dev.when; split
  · exact h d
  · rfl

@[simp] theorem foldl_luts {α : Type} (f : Dev → α → Dev) (h : ∀ d a, (f d a).luts = d.luts) (l : List α) (d : Dev) :
    (l.foldl f d).luts = d.luts := by
  induction l generalizing d with
  | nil => rfl
  | cons a l ih => rw [List.foldl_cons, ih, h]
@[simp] theorem Dev.ite_luts (c : Prop) [Decidable c] (a b : Dev) : (if c then a else b).luts = if c then a.luts else b.luts := by
  split <;> rfl
@[simp] theorem Dev.when_luts (b : Bool) (f : Dev → Dev) (d : Dev) (h : ∀ d, (f d).luts = d.luts) : (d.when b f).luts = d.luts := by
  unfold Dev.when; split
  · exact h d
  · rfl

@[simp] theorem foldl_mem {α : Type} (f : Dev → α → Dev) (h : ∀ d a, (f d a).mem = d.mem) (l : List α) (d : Dev) :
    (l.foldl f d).mem = d.mem := by
  induction l generalizing d with
  | nil => rfl
  | cons a l ih => rw [List.foldl_cons, ih, h]
@[simp] theorem Dev.ite_mem (c : Prop) [Decidable c] (a b : Dev) : (if c then a else b).mem = if c then a.mem else b.mem := by
  split <;> rfl
@[simp] theorem Dev.when_mem (b : Bool) (f : Dev → Dev) (d : Dev) (h : ∀ d, (f d).mem = d.mem) : (d.when b f).mem = d.mem := by
  unfold Dev.when; split
  · exact h d
  · rfl

@[simp] theorem foldl_scene {α : Type} (f : Dev → α → Dev) (h : ∀ d a, (f d a).scene = d.scene) (l : List α) (d : Dev) :
    (l.foldl f d).scene = d.scene := by
  induction l generalizing d with
  | nil => rfl
  | cons a l ih => rw [List.foldl_cons, ih, h]
@[simp] theorem Dev.ite_scene (c : Prop) [Decidable c] (a b : Dev) : (if c then a else b).scene = if c then a.scene else b.scene := by
  split <;> rfl
@[simp] theorem Dev.when_scene (b : Bool) (f : Dev → Dev) (d : Dev) (h : ∀ d, (f d).scene = d.scene) : (d.when b f).scene = d.scene := by
  unfold Dev.when; split
  · exact h d
  · rfl

@[simp] theorem foldl_ledger {α : Type} (f : Dev → α → Dev) (h : ∀ d a, (f d a).ledger = d.ledger) (l : List α) (d : Dev) :
    (l.foldl f d).ledger = d.ledger := by
  induction l generalizing d with
  | nil => rfl
  | cons a l ih => rw [List.foldl_cons, ih, h]
@[simp] theorem Dev.ite_ledger (c : Prop) [Decidable c] (a b : Dev) : (if c then a else b).ledger = if c then a.ledger else b.ledger := by
  split <;> rfl
@[simp] theorem Dev.when_ledger (b : Bool) (f : Dev → Dev) (d : Dev) (h : ∀ d, (f d).ledger = d.ledger) : (d.when b f).ledger = d.ledger := by
  unfold Dev.when; split
  · exact h d
  · rfl

@[simp] theorem foldl_queues {α : Type} (f : Dev → α → Dev) (h : ∀ d a, (f d a).queues = d.queues) (l : List α) (d : Dev) :
    (l.foldl f d).queues = d.queues := by
  induction l generalizing d with
  | nil => rfl
  | cons a l ih => rw [List.foldl_cons, ih, h]
@[simp] theorem Dev.ite_queues (c : Prop) [Decidable c] (a b : Dev) : (if c then a else b).queues = if c then a.queues else b.queues := by
  split <;> rfl
@[simp] theorem Dev.when_queues (b : Bool) (f : Dev → Dev) (d : Dev) (h : ∀ d, (f d).queues = d.queues) : (d.when b f).queues = d.queues := by
  unfold Dev.when; split
  · exact h d
  · rfl

@[simp] theorem foldl_turn {α : Type} (f : Dev → α → Dev) (h : ∀ d a, (f d a).turn = d.turn) (l : List α) (d : Dev) :
    (l.foldl f d).turn = d.turn := by
  induction l generalizing d with
  | nil => rfl
  | cons a l ih => rw [List.foldl_cons, ih, h]
@[simp] theorem Dev.ite_turn (c : Prop) [Decidable c] (a b : Dev) : (if c then a else b).turn = if c then a.turn else b.turn := by
  split <;> rfl
@[simp] theorem Dev.when_turn (b : Bool) (f : Dev → Dev) (d : Dev) (h : ∀ d, (f d).turn = d.turn) : (d.when b f).turn = d.turn := by
  unfold Dev.when; split
  · exact h d
  · rfl

@[simp] theorem foldl_lastTurn {α : Type} (f : Dev → α → Dev) (h : ∀ d a, (f d a).lastTurn = d.lastTurn) (l : List α) (d : Dev) :
    (l.foldl f d).lastTurn = d.lastTurn := by
  induction l generalizing d with
  | nil => rfl
  | cons a l ih => rw [List.foldl_cons, ih, h]
@[simp] theorem Dev.ite_lastTurn (c : Prop) [Decidable c] (a b : Dev) : (if c then a else b).lastTurn = if c then a.lastTurn else b.lastTurn := by
  split <;> rfl
@[simp] theorem Dev.when_lastTurn (b : Bool) (f : Dev → Dev) (d : Dev) (h : ∀ d, (f d).lastTurn = d.lastTurn) : (d.when b f).lastTurn = d.lastTurn := by
  unfold Dev.when; split
  · exact h d
  · rfl

@[simp] theorem foldl_rings {α : Type} (f : Dev → α → Dev) (h : ∀ d a, (f d a).rings = d.rings) (l : List α) (d : Dev) :
    (l.foldl f d).rings = d.rings := by
  induction l generalizing d with
  | nil => rfl
  | cons a l ih => rw [List.foldl_cons, ih, h]
@[simp] theorem Dev.ite_rings (c : Prop) [Decidable c] (a b : Dev) : (if c then a else b).rings = if c then a.rings else b.rings := by
  split <;> rfl
@[simp] theorem Dev.when_rings (b : Bool) (f : Dev → Dev) (d : Dev) (h : ∀ d, (f d).rings = d.rings) : (d.when b f).rings = d.rings := by
  unfold Dev.when; split
  · exact h d
  · rfl

@[simp] theorem foldl_canvases {α : Type} (f : Dev → α → Dev) (h : ∀ d a, (f d a).canvases = d.canvases) (l : List α) (d : Dev) :
    (l.foldl f d).canvases = d.canvases := by
  induction l generalizing d with
  | nil => rfl
  | cons a l ih => rw [List.foldl_cons, ih, h]
@[simp] theorem Dev.ite_canvases (c : Prop) [Decidable c] (a b : Dev) : (if c then a else b).canvases = if c then a.canvases else b.canvases := by
  split <;> rfl
@[simp] theorem Dev.when_canvases (b : Bool) (f : Dev → Dev) (d : Dev) (h : ∀ d, (f d).canvases = d.canvases) : (d.when b f).canvases = d.canvases := by
  unfold Dev.when; split
  · exact h d
  · rfl

@[simp] theorem foldl_comp {α : Type} (f : Dev → α → Dev) (h : ∀ d a, (f d a).comp = d.comp) (l : List α) (d : Dev) :
    (l.foldl f d).comp = d.comp := by
  induction l generalizing d with
  | nil => rfl
  | cons a l ih => rw [List.foldl_cons, ih, h]
@[simp] theorem Dev.ite_comp (c : Prop) [Decidable c] (a b : Dev) : (if c then a else b).comp = if c then a.comp else b.comp := by
  split <;> rfl
@[simp] theorem Dev.when_comp (b : Bool) (f : Dev → Dev) (d : Dev) (h : ∀ d, (f d).comp = d.comp) : (d.when b f).comp = d.comp := by
  unfold Dev.when; split
  · exact h d
  · rfl

@[simp] theorem foldl_ports {α : Type} (f : Dev → α → Dev) (h : ∀ d a, (f d a).ports = d.ports) (l : List α) (d : Dev) :
    (l.foldl f d).ports = d.ports := by
  induction l generalizing d with
  | nil => rfl
  | cons a l ih => rw [List.foldl_cons, ih, h]
@[simp] theorem Dev.ite_ports (c : Prop) [Decidable c] (a b : Dev) : (if c then a else b).ports = if c then a.ports else b.ports := by
  split <;> rfl
@[simp] theorem Dev.when_ports (b : Bool) (f : Dev → Dev) (d : Dev) (h : ∀ d, (f d).ports = d.ports) : (d.when b f).ports = d.ports := by
  unfold Dev.when; split
  · exact h d
  · rfl

@[simp] theorem foldl_chans {α : Type} (f : Dev → α → Dev) (h : ∀ d a, (f d a).chans = d.chans) (l : List α) (d : Dev) :
    (l.foldl f d).chans = d.chans := by
  induction l generalizing d with
  | nil => rfl
  | cons a l ih => rw [List.foldl_cons, ih, h]
@[simp] theorem Dev.ite_chans (c : Prop) [Decidable c] (a b : Dev) : (if c then a else b).chans = if c then a.chans else b.chans := by
  split <;> rfl
@[simp] theorem Dev.when_chans (b : Bool) (f : Dev → Dev) (d : Dev) (h : ∀ d, (f d).chans = d.chans) : (d.when b f).chans = d.chans := by
  unfold Dev.when; split
  · exact h d
  · rfl

@[simp] theorem foldl_timers {α : Type} (f : Dev → α → Dev) (h : ∀ d a, (f d a).timers = d.timers) (l : List α) (d : Dev) :
    (l.foldl f d).timers = d.timers := by
  induction l generalizing d with
  | nil => rfl
  | cons a l ih => rw [List.foldl_cons, ih, h]
@[simp] theorem Dev.ite_timers (c : Prop) [Decidable c] (a b : Dev) : (if c then a else b).timers = if c then a.timers else b.timers := by
  split <;> rfl
@[simp] theorem Dev.when_timers (b : Bool) (f : Dev → Dev) (d : Dev) (h : ∀ d, (f d).timers = d.timers) : (d.when b f).timers = d.timers := by
  unfold Dev.when; split
  · exact h d
  · rfl

@[simp] theorem foldl_mrv {α : Type} (f : Dev → α → Dev) (h : ∀ d a, (f d a).mrv = d.mrv) (l : List α) (d : Dev) :
    (l.foldl f d).mrv = d.mrv := by
  induction l generalizing d with
  | nil => rfl
  | cons a l ih => rw [List.foldl_cons, ih, h]
@[simp] theorem Dev.ite_mrv (c : Prop) [Decidable c] (a b : Dev) : (if c then a else b).mrv = if c then a.mrv else b.mrv := by
  split <;> rfl
@[simp] theorem Dev.when_mrv (b : Bool) (f : Dev → Dev) (d : Dev) (h : ∀ d, (f d).mrv = d.mrv) : (d.when b f).mrv = d.mrv := by
  unfold Dev.when; split
  · exact h d
  · rfl

@[simp] theorem foldl_engines {α : Type} (f : Dev → α → Dev) (h : ∀ d a, (f d a).engines = d.engines) (l : List α) (d : Dev) :
    (l.foldl f d).engines = d.engines := by
  induction l generalizing d with
  | nil => rfl
  | cons a l ih => rw [List.foldl_cons, ih, h]
@[simp] theorem Dev.ite_engines (c : Prop) [Decidable c] (a b : Dev) : (if c then a else b).engines = if c then a.engines else b.engines := by
  split <;> rfl
@[simp] theorem Dev.when_engines (b : Bool) (f : Dev → Dev) (d : Dev) (h : ∀ d, (f d).engines = d.engines) : (d.when b f).engines = d.engines := by
  unfold Dev.when; split
  · exact h d
  · rfl

@[simp] theorem foldl_regions {α : Type} (f : Dev → α → Dev) (h : ∀ d a, (f d a).regions = d.regions) (l : List α) (d : Dev) :
    (l.foldl f d).regions = d.regions := by
  induction l generalizing d with
  | nil => rfl
  | cons a l ih => rw [List.foldl_cons, ih, h]
@[simp] theorem Dev.ite_regions (c : Prop) [Decidable c] (a b : Dev) : (if c then a else b).regions = if c then a.regions else b.regions := by
  split <;> rfl
@[simp] theorem Dev.when_regions (b : Bool) (f : Dev → Dev) (d : Dev) (h : ∀ d, (f d).regions = d.regions) : (d.when b f).regions = d.regions := by
  unfold Dev.when; split
  · exact h d
  · rfl

@[simp] theorem foldl_mct {α : Type} (f : Dev → α → Dev) (h : ∀ d a, (f d a).mct = d.mct) (l : List α) (d : Dev) :
    (l.foldl f d).mct = d.mct := by
  induction l generalizing d with
  | nil => rfl
  | cons a l ih => rw [List.foldl_cons, ih, h]
@[simp] theorem Dev.ite_mct (c : Prop) [Decidable c] (a b : Dev) : (if c then a else b).mct = if c then a.mct else b.mct := by
  split <;> rfl
@[simp] theorem Dev.when_mct (b : Bool) (f : Dev → Dev) (d : Dev) (h : ∀ d, (f d).mct = d.mct) : (d.when b f).mct = d.mct := by
  unfold Dev.when; split
  · exact h d
  · rfl

@[simp] theorem foldl_cru {α : Type} (f : Dev → α → Dev) (h : ∀ d a, (f d a).cru = d.cru) (l : List α) (d : Dev) :
    (l.foldl f d).cru = d.cru := by
  induction l generalizing d with
  | nil => rfl
  | cons a l ih => rw [List.foldl_cons, ih, h]
@[simp] theorem Dev.ite_cru (c : Prop) [Decidable c] (a b : Dev) : (if c then a else b).cru = if c then a.cru else b.cru := by
  split <;> rfl
@[simp] theorem Dev.when_cru (b : Bool) (f : Dev → Dev) (d : Dev) (h : ∀ d, (f d).cru = d.cru) : (d.when b f).cru = d.cru := by
  unfold Dev.when; split
  · exact h d
  · rfl

@[simp] theorem foldl_acc {α : Type} (f : Dev → α → Dev) (h : ∀ d a, (f d a).acc = d.acc) (l : List α) (d : Dev) :
    (l.foldl f d).acc = d.acc := by
  induction l generalizing d with
  | nil => rfl
  | cons a l ih => rw [List.foldl_cons, ih, h]
@[simp] theorem Dev.ite_acc (c : Prop) [Decidable c] (a b : Dev) : (if c then a else b).acc = if c then a.acc else b.acc := by
  split <;> rfl
@[simp] theorem Dev.when_acc (b : Bool) (f : Dev → Dev) (d : Dev) (h : ∀ d, (f d).acc = d.acc) : (d.when b f).acc = d.acc := by
  unfold Dev.when; split
  · exact h d
  · rfl

@[simp] theorem foldl_flt {α : Type} (f : Dev → α → Dev) (h : ∀ d a, (f d a).flt = d.flt) (l : List α) (d : Dev) :
    (l.foldl f d).flt = d.flt := by
  induction l generalizing d with
  | nil => rfl
  | cons a l ih => rw [List.foldl_cons, ih, h]
@[simp] theorem Dev.ite_flt (c : Prop) [Decidable c] (a b : Dev) : (if c then a else b).flt = if c then a.flt else b.flt := by
  split <;> rfl
@[simp] theorem Dev.when_flt (b : Bool) (f : Dev → Dev) (d : Dev) (h : ∀ d, (f d).flt = d.flt) : (d.when b f).flt = d.flt := by
  unfold Dev.when; split
  · exact h d
  · rfl

@[simp] theorem foldl_svc {α : Type} (f : Dev → α → Dev) (h : ∀ d a, (f d a).svc = d.svc) (l : List α) (d : Dev) :
    (l.foldl f d).svc = d.svc := by
  induction l generalizing d with
  | nil => rfl
  | cons a l ih => rw [List.foldl_cons, ih, h]
@[simp] theorem Dev.ite_svc (c : Prop) [Decidable c] (a b : Dev) : (if c then a else b).svc = if c then a.svc else b.svc := by
  split <;> rfl
@[simp] theorem Dev.when_svc (b : Bool) (f : Dev → Dev) (d : Dev) (h : ∀ d, (f d).svc = d.svc) : (d.when b f).svc = d.svc := by
  unfold Dev.when; split
  · exact h d
  · rfl

@[simp] theorem foldl_tb {α : Type} (f : Dev → α → Dev) (h : ∀ d a, (f d a).tb = d.tb) (l : List α) (d : Dev) :
    (l.foldl f d).tb = d.tb := by
  induction l generalizing d with
  | nil => rfl
  | cons a l ih => rw [List.foldl_cons, ih, h]
@[simp] theorem Dev.ite_tb (c : Prop) [Decidable c] (a b : Dev) : (if c then a else b).tb = if c then a.tb else b.tb := by
  split <;> rfl
@[simp] theorem Dev.when_tb (b : Bool) (f : Dev → Dev) (d : Dev) (h : ∀ d, (f d).tb = d.tb) : (d.when b f).tb = d.tb := by
  unfold Dev.when; split
  · exact h d
  · rfl

@[simp] theorem foldl_clk {α : Type} (f : Dev → α → Dev) (h : ∀ d a, (f d a).clk = d.clk) (l : List α) (d : Dev) :
    (l.foldl f d).clk = d.clk := by
  induction l generalizing d with
  | nil => rfl
  | cons a l ih => rw [List.foldl_cons, ih, h]
@[simp] theorem Dev.ite_clk (c : Prop) [Decidable c] (a b : Dev) : (if c then a else b).clk = if c then a.clk else b.clk := by
  split <;> rfl
@[simp] theorem Dev.when_clk (b : Bool) (f : Dev → Dev) (d : Dev) (h : ∀ d, (f d).clk = d.clk) : (d.when b f).clk = d.clk := by
  unfold Dev.when; split
  · exact h d
  · rfl

@[simp] theorem foldl_rst {α : Type} (f : Dev → α → Dev) (h : ∀ d a, (f d a).rst = d.rst) (l : List α) (d : Dev) :
    (l.foldl f d).rst = d.rst := by
  induction l generalizing d with
  | nil => rfl
  | cons a l ih => rw [List.foldl_cons, ih, h]
@[simp] theorem Dev.ite_rst (c : Prop) [Decidable c] (a b : Dev) : (if c then a else b).rst = if c then a.rst else b.rst := by
  split <;> rfl
@[simp] theorem Dev.when_rst (b : Bool) (f : Dev → Dev) (d : Dev) (h : ∀ d, (f d).rst = d.rst) : (d.when b f).rst = d.rst := by
  unfold Dev.when; split
  · exact h d
  · rfl

@[simp] theorem foldl_hif {α : Type} (f : Dev → α → Dev) (h : ∀ d a, (f d a).hif = d.hif) (l : List α) (d : Dev) :
    (l.foldl f d).hif = d.hif := by
  induction l generalizing d with
  | nil => rfl
  | cons a l ih => rw [List.foldl_cons, ih, h]
@[simp] theorem Dev.ite_hif (c : Prop) [Decidable c] (a b : Dev) : (if c then a else b).hif = if c then a.hif else b.hif := by
  split <;> rfl
@[simp] theorem Dev.when_hif (b : Bool) (f : Dev → Dev) (d : Dev) (h : ∀ d, (f d).hif = d.hif) : (d.when b f).hif = d.hif := by
  unfold Dev.when; split
  · exact h d
  · rfl

@[simp] theorem foldl_pins {α : Type} (f : Dev → α → Dev) (h : ∀ d a, (f d a).pins = d.pins) (l : List α) (d : Dev) :
    (l.foldl f d).pins = d.pins := by
  induction l generalizing d with
  | nil => rfl
  | cons a l ih => rw [List.foldl_cons, ih, h]
@[simp] theorem Dev.ite_pins (c : Prop) [Decidable c] (a b : Dev) : (if c then a else b).pins = if c then a.pins else b.pins := by
  split <;> rfl
@[simp] theorem Dev.when_pins (b : Bool) (f : Dev → Dev) (d : Dev) (h : ∀ d, (f d).pins = d.pins) : (d.when b f).pins = d.pins := by
  unfold Dev.when; split
  · exact h d
  · rfl

theorem foldl_rel {α : Type} {f : Dev → α → Dev} (R : Dev → Dev → Prop) (h₀ : ∀ x, R x x)
    (h₁ : ∀ x y z, R x y → R y z → R x z) (h : ∀ d a, R (f d a) d) (l : List α) (d : Dev) : R (l.foldl f d) d := by
  induction l generalizing d with
  | nil => exact h₀ d
  | cons a l ih => exact h₁ _ _ _ (ih _) (h d a)

@[simp] theorem Dev.dropStaged_frame (t : PType) (i : Nat) (d : Dev) :
    (Dev.dropStaged t i d).now = d.now ∧ (Dev.dropStaged t i d).luts = d.luts ∧ (Dev.dropStaged t i d).mem = d.mem ∧ (Dev.dropStaged t i d).scene = d.scene ∧ (Dev.dropStaged t i d).ledger = d.ledger ∧ (Dev.dropStaged t i d).queues = d.queues ∧ (Dev.dropStaged t i d).turn = d.turn ∧ (Dev.dropStaged t i d).lastTurn = d.lastTurn ∧ (Dev.dropStaged t i d).rings = d.rings ∧ (Dev.dropStaged t i d).canvases = d.canvases ∧ (Dev.dropStaged t i d).comp = d.comp ∧ (Dev.dropStaged t i d).ports = d.ports ∧ (Dev.dropStaged t i d).chans = d.chans ∧ (Dev.dropStaged t i d).timers = d.timers ∧ (Dev.dropStaged t i d).mrv = d.mrv ∧ (Dev.dropStaged t i d).engines = d.engines ∧ (Dev.dropStaged t i d).regions = d.regions ∧ (Dev.dropStaged t i d).mct = d.mct ∧ (Dev.dropStaged t i d).cru = d.cru ∧ (Dev.dropStaged t i d).acc = d.acc ∧ (Dev.dropStaged t i d).flt = d.flt ∧ (Dev.dropStaged t i d).svc = d.svc ∧ (Dev.dropStaged t i d).tb = d.tb ∧ (Dev.dropStaged t i d).clk = d.clk ∧ (Dev.dropStaged t i d).rst = d.rst ∧ (Dev.dropStaged t i d).hif = d.hif ∧ (Dev.dropStaged t i d).pins = d.pins := by
  simp [Dev.dropStaged]

@[simp] theorem Dev.setRegs_frame (t : PType) (i : Nat) (l : List (Nat × Word)) (d : Dev) :
    (Dev.setRegs t i l d).now = d.now ∧ (Dev.setRegs t i l d).luts = d.luts ∧ (Dev.setRegs t i l d).mem = d.mem ∧ (Dev.setRegs t i l d).scene = d.scene ∧ (Dev.setRegs t i l d).ledger = d.ledger ∧ (Dev.setRegs t i l d).queues = d.queues ∧ (Dev.setRegs t i l d).turn = d.turn ∧ (Dev.setRegs t i l d).lastTurn = d.lastTurn ∧ (Dev.setRegs t i l d).rings = d.rings ∧ (Dev.setRegs t i l d).canvases = d.canvases ∧ (Dev.setRegs t i l d).comp = d.comp ∧ (Dev.setRegs t i l d).ports = d.ports ∧ (Dev.setRegs t i l d).chans = d.chans ∧ (Dev.setRegs t i l d).timers = d.timers ∧ (Dev.setRegs t i l d).mrv = d.mrv ∧ (Dev.setRegs t i l d).engines = d.engines ∧ (Dev.setRegs t i l d).regions = d.regions ∧ (Dev.setRegs t i l d).mct = d.mct ∧ (Dev.setRegs t i l d).cru = d.cru ∧ (Dev.setRegs t i l d).acc = d.acc ∧ (Dev.setRegs t i l d).flt = d.flt ∧ (Dev.setRegs t i l d).svc = d.svc ∧ (Dev.setRegs t i l d).tb = d.tb ∧ (Dev.setRegs t i l d).clk = d.clk ∧ (Dev.setRegs t i l d).rst = d.rst ∧ (Dev.setRegs t i l d).hif = d.hif ∧ (Dev.setRegs t i l d).pins = d.pins := by
  simp [Dev.setRegs]

@[simp] theorem Dev.resetPage_frame (n : Nat) (d : Dev) :
    (Dev.resetPage n d).now = d.now ∧ (Dev.resetPage n d).luts = d.luts ∧ (Dev.resetPage n d).mem = d.mem ∧ (Dev.resetPage n d).scene = d.scene ∧ (Dev.resetPage n d).ledger = d.ledger ∧ (Dev.resetPage n d).queues = d.queues ∧ (Dev.resetPage n d).turn = d.turn ∧ (Dev.resetPage n d).lastTurn = d.lastTurn ∧ (Dev.resetPage n d).rings = d.rings ∧ (Dev.resetPage n d).canvases = d.canvases ∧ (Dev.resetPage n d).comp = d.comp ∧ (Dev.resetPage n d).ports = d.ports ∧ (Dev.resetPage n d).chans = d.chans ∧ (Dev.resetPage n d).timers = d.timers ∧ (Dev.resetPage n d).mrv = d.mrv ∧ (Dev.resetPage n d).engines = d.engines ∧ (Dev.resetPage n d).regions = d.regions ∧ (Dev.resetPage n d).mct = d.mct ∧ (Dev.resetPage n d).cru = d.cru ∧ (Dev.resetPage n d).acc = d.acc ∧ (Dev.resetPage n d).flt = d.flt ∧ (Dev.resetPage n d).svc = d.svc ∧ (Dev.resetPage n d).tb = d.tb ∧ (Dev.resetPage n d).clk = d.clk ∧ (Dev.resetPage n d).rst = d.rst ∧ (Dev.resetPage n d).hif = d.hif ∧ (Dev.resetPage n d).pins = d.pins := by
  simp [Dev.resetPage]

@[simp] theorem Dev.setBytes_frame (a : Nat) (bs : List Byte) (d : Dev) :
    (Dev.setBytes a bs d).now = d.now ∧ (Dev.setBytes a bs d).regs = d.regs ∧ (Dev.setBytes a bs d).luts = d.luts ∧ (Dev.setBytes a bs d).scene = d.scene ∧ (Dev.setBytes a bs d).ledger = d.ledger ∧ (Dev.setBytes a bs d).queues = d.queues ∧ (Dev.setBytes a bs d).turn = d.turn ∧ (Dev.setBytes a bs d).lastTurn = d.lastTurn ∧ (Dev.setBytes a bs d).rings = d.rings ∧ (Dev.setBytes a bs d).canvases = d.canvases ∧ (Dev.setBytes a bs d).comp = d.comp ∧ (Dev.setBytes a bs d).ports = d.ports ∧ (Dev.setBytes a bs d).chans = d.chans ∧ (Dev.setBytes a bs d).timers = d.timers ∧ (Dev.setBytes a bs d).mrv = d.mrv ∧ (Dev.setBytes a bs d).engines = d.engines ∧ (Dev.setBytes a bs d).regions = d.regions ∧ (Dev.setBytes a bs d).mct = d.mct ∧ (Dev.setBytes a bs d).cru = d.cru ∧ (Dev.setBytes a bs d).acc = d.acc ∧ (Dev.setBytes a bs d).flt = d.flt ∧ (Dev.setBytes a bs d).svc = d.svc ∧ (Dev.setBytes a bs d).tb = d.tb ∧ (Dev.setBytes a bs d).clk = d.clk ∧ (Dev.setBytes a bs d).rst = d.rst ∧ (Dev.setBytes a bs d).hif = d.hif ∧ (Dev.setBytes a bs d).pins = d.pins := by
  induction bs generalizing a d with
  | nil => simp [Dev.setBytes]
  | cons b bs ih => exact ih (a + 1) (d.setByte a b)

@[simp] theorem Dev.deny_frame (mid : Nat) (target : Nat) (write : Bool) (addr : Nat) (d : Dev) :
    (Dev.deny mid target write addr d).now = d.now ∧ (Dev.deny mid target write addr d).regs = d.regs ∧ (Dev.deny mid target write addr d).luts = d.luts ∧ (Dev.deny mid target write addr d).mem = d.mem ∧ (Dev.deny mid target write addr d).scene = d.scene ∧ (Dev.deny mid target write addr d).ledger = d.ledger ∧ (Dev.deny mid target write addr d).queues = d.queues ∧ (Dev.deny mid target write addr d).turn = d.turn ∧ (Dev.deny mid target write addr d).lastTurn = d.lastTurn ∧ (Dev.deny mid target write addr d).rings = d.rings ∧ (Dev.deny mid target write addr d).canvases = d.canvases ∧ (Dev.deny mid target write addr d).comp = d.comp ∧ (Dev.deny mid target write addr d).ports = d.ports ∧ (Dev.deny mid target write addr d).chans = d.chans ∧ (Dev.deny mid target write addr d).timers = d.timers ∧ (Dev.deny mid target write addr d).mrv = d.mrv ∧ (Dev.deny mid target write addr d).engines = d.engines ∧ (Dev.deny mid target write addr d).regions = d.regions ∧ (Dev.deny mid target write addr d).mct = d.mct ∧ (Dev.deny mid target write addr d).cru = d.cru ∧ (Dev.deny mid target write addr d).svc = d.svc ∧ (Dev.deny mid target write addr d).tb = d.tb ∧ (Dev.deny mid target write addr d).clk = d.clk ∧ (Dev.deny mid target write addr d).rst = d.rst ∧ (Dev.deny mid target write addr d).hif = d.hif ∧ (Dev.deny mid target write addr d).pins = d.pins := by
  simp [Dev.deny]

@[simp] theorem Dev.raiseGather_frame (p : Nat) (d : Dev) :
    (Dev.raiseGather p d).now = d.now ∧ (Dev.raiseGather p d).regs = d.regs ∧ (Dev.raiseGather p d).luts = d.luts ∧ (Dev.raiseGather p d).mem = d.mem ∧ (Dev.raiseGather p d).scene = d.scene ∧ (Dev.raiseGather p d).ledger = d.ledger ∧ (Dev.raiseGather p d).queues = d.queues ∧ (Dev.raiseGather p d).turn = d.turn ∧ (Dev.raiseGather p d).lastTurn = d.lastTurn ∧ (Dev.raiseGather p d).rings = d.rings ∧ (Dev.raiseGather p d).canvases = d.canvases ∧ (Dev.raiseGather p d).comp = d.comp ∧ (Dev.raiseGather p d).ports = d.ports ∧ (Dev.raiseGather p d).chans = d.chans ∧ (Dev.raiseGather p d).timers = d.timers ∧ (Dev.raiseGather p d).mrv = d.mrv ∧ (Dev.raiseGather p d).engines = d.engines ∧ (Dev.raiseGather p d).regions = d.regions ∧ (Dev.raiseGather p d).cru = d.cru ∧ (Dev.raiseGather p d).acc = d.acc ∧ (Dev.raiseGather p d).flt = d.flt ∧ (Dev.raiseGather p d).svc = d.svc ∧ (Dev.raiseGather p d).tb = d.tb ∧ (Dev.raiseGather p d).clk = d.clk ∧ (Dev.raiseGather p d).rst = d.rst ∧ (Dev.raiseGather p d).hif = d.hif ∧ (Dev.raiseGather p d).pins = d.pins := by
  simp [Dev.raiseGather]

@[simp] theorem Dev.freeTag_frame (k : Nat) (mid : Nat) (d : Dev) :
    (Dev.freeTag k mid d).now = d.now ∧ (Dev.freeTag k mid d).regs = d.regs ∧ (Dev.freeTag k mid d).luts = d.luts ∧ (Dev.freeTag k mid d).mem = d.mem ∧ (Dev.freeTag k mid d).scene = d.scene ∧ (Dev.freeTag k mid d).ledger = d.ledger ∧ (Dev.freeTag k mid d).queues = d.queues ∧ (Dev.freeTag k mid d).turn = d.turn ∧ (Dev.freeTag k mid d).lastTurn = d.lastTurn ∧ (Dev.freeTag k mid d).rings = d.rings ∧ (Dev.freeTag k mid d).canvases = d.canvases ∧ (Dev.freeTag k mid d).comp = d.comp ∧ (Dev.freeTag k mid d).ports = d.ports ∧ (Dev.freeTag k mid d).chans = d.chans ∧ (Dev.freeTag k mid d).timers = d.timers ∧ (Dev.freeTag k mid d).mrv = d.mrv ∧ (Dev.freeTag k mid d).engines = d.engines ∧ (Dev.freeTag k mid d).regions = d.regions ∧ (Dev.freeTag k mid d).cru = d.cru ∧ (Dev.freeTag k mid d).acc = d.acc ∧ (Dev.freeTag k mid d).flt = d.flt ∧ (Dev.freeTag k mid d).svc = d.svc ∧ (Dev.freeTag k mid d).tb = d.tb ∧ (Dev.freeTag k mid d).clk = d.clk ∧ (Dev.freeTag k mid d).rst = d.rst ∧ (Dev.freeTag k mid d).hif = d.hif ∧ (Dev.freeTag k mid d).pins = d.pins := by
  simp [Dev.freeTag]

@[simp] theorem Dev.renewTag_frame (k : Nat) (d : Dev) :
    (Dev.renewTag k d).now = d.now ∧ (Dev.renewTag k d).regs = d.regs ∧ (Dev.renewTag k d).luts = d.luts ∧ (Dev.renewTag k d).mem = d.mem ∧ (Dev.renewTag k d).scene = d.scene ∧ (Dev.renewTag k d).ledger = d.ledger ∧ (Dev.renewTag k d).queues = d.queues ∧ (Dev.renewTag k d).turn = d.turn ∧ (Dev.renewTag k d).lastTurn = d.lastTurn ∧ (Dev.renewTag k d).rings = d.rings ∧ (Dev.renewTag k d).canvases = d.canvases ∧ (Dev.renewTag k d).comp = d.comp ∧ (Dev.renewTag k d).ports = d.ports ∧ (Dev.renewTag k d).chans = d.chans ∧ (Dev.renewTag k d).timers = d.timers ∧ (Dev.renewTag k d).mrv = d.mrv ∧ (Dev.renewTag k d).engines = d.engines ∧ (Dev.renewTag k d).regions = d.regions ∧ (Dev.renewTag k d).cru = d.cru ∧ (Dev.renewTag k d).acc = d.acc ∧ (Dev.renewTag k d).flt = d.flt ∧ (Dev.renewTag k d).svc = d.svc ∧ (Dev.renewTag k d).tb = d.tb ∧ (Dev.renewTag k d).clk = d.clk ∧ (Dev.renewTag k d).rst = d.rst ∧ (Dev.renewTag k d).hif = d.hif ∧ (Dev.renewTag k d).pins = d.pins := by
  simp [Dev.renewTag]

@[simp] theorem Dev.keepWrite_frame (k : Nat) (ws : List (Nat × List Byte)) (d : Dev) :
    (Dev.keepWrite k ws d).now = d.now ∧ (Dev.keepWrite k ws d).regs = d.regs ∧ (Dev.keepWrite k ws d).luts = d.luts ∧ (Dev.keepWrite k ws d).mem = d.mem ∧ (Dev.keepWrite k ws d).scene = d.scene ∧ (Dev.keepWrite k ws d).ledger = d.ledger ∧ (Dev.keepWrite k ws d).queues = d.queues ∧ (Dev.keepWrite k ws d).turn = d.turn ∧ (Dev.keepWrite k ws d).lastTurn = d.lastTurn ∧ (Dev.keepWrite k ws d).rings = d.rings ∧ (Dev.keepWrite k ws d).canvases = d.canvases ∧ (Dev.keepWrite k ws d).comp = d.comp ∧ (Dev.keepWrite k ws d).ports = d.ports ∧ (Dev.keepWrite k ws d).chans = d.chans ∧ (Dev.keepWrite k ws d).timers = d.timers ∧ (Dev.keepWrite k ws d).mrv = d.mrv ∧ (Dev.keepWrite k ws d).engines = d.engines ∧ (Dev.keepWrite k ws d).regions = d.regions ∧ (Dev.keepWrite k ws d).cru = d.cru ∧ (Dev.keepWrite k ws d).acc = d.acc ∧ (Dev.keepWrite k ws d).flt = d.flt ∧ (Dev.keepWrite k ws d).svc = d.svc ∧ (Dev.keepWrite k ws d).tb = d.tb ∧ (Dev.keepWrite k ws d).clk = d.clk ∧ (Dev.keepWrite k ws d).rst = d.rst ∧ (Dev.keepWrite k ws d).hif = d.hif ∧ (Dev.keepWrite k ws d).pins = d.pins := by
  simp [Dev.keepWrite]

@[simp] theorem Dev.lateResponse_frame (k : Nat) (d : Dev) :
    (Dev.lateResponse k d).now = d.now ∧ (Dev.lateResponse k d).regs = d.regs ∧ (Dev.lateResponse k d).luts = d.luts ∧ (Dev.lateResponse k d).mem = d.mem ∧ (Dev.lateResponse k d).scene = d.scene ∧ (Dev.lateResponse k d).ledger = d.ledger ∧ (Dev.lateResponse k d).queues = d.queues ∧ (Dev.lateResponse k d).turn = d.turn ∧ (Dev.lateResponse k d).lastTurn = d.lastTurn ∧ (Dev.lateResponse k d).rings = d.rings ∧ (Dev.lateResponse k d).canvases = d.canvases ∧ (Dev.lateResponse k d).comp = d.comp ∧ (Dev.lateResponse k d).ports = d.ports ∧ (Dev.lateResponse k d).chans = d.chans ∧ (Dev.lateResponse k d).timers = d.timers ∧ (Dev.lateResponse k d).mrv = d.mrv ∧ (Dev.lateResponse k d).engines = d.engines ∧ (Dev.lateResponse k d).regions = d.regions ∧ (Dev.lateResponse k d).cru = d.cru ∧ (Dev.lateResponse k d).acc = d.acc ∧ (Dev.lateResponse k d).svc = d.svc ∧ (Dev.lateResponse k d).tb = d.tb ∧ (Dev.lateResponse k d).clk = d.clk ∧ (Dev.lateResponse k d).rst = d.rst ∧ (Dev.lateResponse k d).hif = d.hif ∧ (Dev.lateResponse k d).pins = d.pins := by
  unfold Dev.lateResponse; try dsimp only
  (repeat' split) <;> simp

@[simp] theorem Dev.uncorrectable_frame (t : Nat) (mid : Nat) (d : Dev) :
    (Dev.uncorrectable t mid d).now = d.now ∧ (Dev.uncorrectable t mid d).regs = d.regs ∧ (Dev.uncorrectable t mid d).luts = d.luts ∧ (Dev.uncorrectable t mid d).mem = d.mem ∧ (Dev.uncorrectable t mid d).scene = d.scene ∧ (Dev.uncorrectable t mid d).ledger = d.ledger ∧ (Dev.uncorrectable t mid d).queues = d.queues ∧ (Dev.uncorrectable t mid d).turn = d.turn ∧ (Dev.uncorrectable t mid d).lastTurn = d.lastTurn ∧ (Dev.uncorrectable t mid d).rings = d.rings ∧ (Dev.uncorrectable t mid d).canvases = d.canvases ∧ (Dev.uncorrectable t mid d).comp = d.comp ∧ (Dev.uncorrectable t mid d).ports = d.ports ∧ (Dev.uncorrectable t mid d).chans = d.chans ∧ (Dev.uncorrectable t mid d).timers = d.timers ∧ (Dev.uncorrectable t mid d).mrv = d.mrv ∧ (Dev.uncorrectable t mid d).engines = d.engines ∧ (Dev.uncorrectable t mid d).regions = d.regions ∧ (Dev.uncorrectable t mid d).cru = d.cru ∧ (Dev.uncorrectable t mid d).acc = d.acc ∧ (Dev.uncorrectable t mid d).svc = d.svc ∧ (Dev.uncorrectable t mid d).tb = d.tb ∧ (Dev.uncorrectable t mid d).clk = d.clk ∧ (Dev.uncorrectable t mid d).rst = d.rst ∧ (Dev.uncorrectable t mid d).hif = d.hif ∧ (Dev.uncorrectable t mid d).pins = d.pins := by
  simp [Dev.uncorrectable]

@[simp] theorem Dev.markBad_frame (t : Nat) (d : Dev) :
    (Dev.markBad t d).now = d.now ∧ (Dev.markBad t d).regs = d.regs ∧ (Dev.markBad t d).luts = d.luts ∧ (Dev.markBad t d).mem = d.mem ∧ (Dev.markBad t d).scene = d.scene ∧ (Dev.markBad t d).ledger = d.ledger ∧ (Dev.markBad t d).queues = d.queues ∧ (Dev.markBad t d).turn = d.turn ∧ (Dev.markBad t d).lastTurn = d.lastTurn ∧ (Dev.markBad t d).rings = d.rings ∧ (Dev.markBad t d).canvases = d.canvases ∧ (Dev.markBad t d).comp = d.comp ∧ (Dev.markBad t d).ports = d.ports ∧ (Dev.markBad t d).chans = d.chans ∧ (Dev.markBad t d).timers = d.timers ∧ (Dev.markBad t d).mrv = d.mrv ∧ (Dev.markBad t d).engines = d.engines ∧ (Dev.markBad t d).regions = d.regions ∧ (Dev.markBad t d).cru = d.cru ∧ (Dev.markBad t d).acc = d.acc ∧ (Dev.markBad t d).flt = d.flt ∧ (Dev.markBad t d).svc = d.svc ∧ (Dev.markBad t d).tb = d.tb ∧ (Dev.markBad t d).clk = d.clk ∧ (Dev.markBad t d).rst = d.rst ∧ (Dev.markBad t d).hif = d.hif ∧ (Dev.markBad t d).pins = d.pins := by
  simp [Dev.markBad]

@[simp] theorem Dev.rebuiltByte_frame (t : Nat) (mid : Nat) (site : Nat) (p : Nat) (d : Dev) :
    (Dev.rebuiltByte t mid site p d).now = d.now ∧ (Dev.rebuiltByte t mid site p d).regs = d.regs ∧ (Dev.rebuiltByte t mid site p d).luts = d.luts ∧ (Dev.rebuiltByte t mid site p d).mem = d.mem ∧ (Dev.rebuiltByte t mid site p d).scene = d.scene ∧ (Dev.rebuiltByte t mid site p d).ledger = d.ledger ∧ (Dev.rebuiltByte t mid site p d).queues = d.queues ∧ (Dev.rebuiltByte t mid site p d).turn = d.turn ∧ (Dev.rebuiltByte t mid site p d).lastTurn = d.lastTurn ∧ (Dev.rebuiltByte t mid site p d).rings = d.rings ∧ (Dev.rebuiltByte t mid site p d).canvases = d.canvases ∧ (Dev.rebuiltByte t mid site p d).comp = d.comp ∧ (Dev.rebuiltByte t mid site p d).ports = d.ports ∧ (Dev.rebuiltByte t mid site p d).chans = d.chans ∧ (Dev.rebuiltByte t mid site p d).timers = d.timers ∧ (Dev.rebuiltByte t mid site p d).mrv = d.mrv ∧ (Dev.rebuiltByte t mid site p d).engines = d.engines ∧ (Dev.rebuiltByte t mid site p d).regions = d.regions ∧ (Dev.rebuiltByte t mid site p d).cru = d.cru ∧ (Dev.rebuiltByte t mid site p d).acc = d.acc ∧ (Dev.rebuiltByte t mid site p d).svc = d.svc ∧ (Dev.rebuiltByte t mid site p d).tb = d.tb ∧ (Dev.rebuiltByte t mid site p d).clk = d.clk ∧ (Dev.rebuiltByte t mid site p d).rst = d.rst ∧ (Dev.rebuiltByte t mid site p d).hif = d.hif ∧ (Dev.rebuiltByte t mid site p d).pins = d.pins := by
  simp [Dev.rebuiltByte]

@[simp] theorem Dev.rebuilt_frame (t : Nat) (mid : Nat) (ps : List Nat) (d : Dev) :
    (Dev.rebuilt t mid ps d).now = d.now ∧ (Dev.rebuilt t mid ps d).regs = d.regs ∧ (Dev.rebuilt t mid ps d).luts = d.luts ∧ (Dev.rebuilt t mid ps d).mem = d.mem ∧ (Dev.rebuilt t mid ps d).scene = d.scene ∧ (Dev.rebuilt t mid ps d).ledger = d.ledger ∧ (Dev.rebuilt t mid ps d).queues = d.queues ∧ (Dev.rebuilt t mid ps d).turn = d.turn ∧ (Dev.rebuilt t mid ps d).lastTurn = d.lastTurn ∧ (Dev.rebuilt t mid ps d).rings = d.rings ∧ (Dev.rebuilt t mid ps d).canvases = d.canvases ∧ (Dev.rebuilt t mid ps d).comp = d.comp ∧ (Dev.rebuilt t mid ps d).ports = d.ports ∧ (Dev.rebuilt t mid ps d).chans = d.chans ∧ (Dev.rebuilt t mid ps d).timers = d.timers ∧ (Dev.rebuilt t mid ps d).mrv = d.mrv ∧ (Dev.rebuilt t mid ps d).engines = d.engines ∧ (Dev.rebuilt t mid ps d).regions = d.regions ∧ (Dev.rebuilt t mid ps d).cru = d.cru ∧ (Dev.rebuilt t mid ps d).acc = d.acc ∧ (Dev.rebuilt t mid ps d).svc = d.svc ∧ (Dev.rebuilt t mid ps d).tb = d.tb ∧ (Dev.rebuilt t mid ps d).clk = d.clk ∧ (Dev.rebuilt t mid ps d).rst = d.rst ∧ (Dev.rebuilt t mid ps d).hif = d.hif ∧ (Dev.rebuilt t mid ps d).pins = d.pins := by
  simp [Dev.rebuilt]

@[simp] theorem Dev.readAtom_frame (mid : Nat) (d : Dev) (t : Nat) :
    (Dev.readAtom mid d t).now = d.now ∧ (Dev.readAtom mid d t).regs = d.regs ∧ (Dev.readAtom mid d t).luts = d.luts ∧ (Dev.readAtom mid d t).mem = d.mem ∧ (Dev.readAtom mid d t).scene = d.scene ∧ (Dev.readAtom mid d t).ledger = d.ledger ∧ (Dev.readAtom mid d t).queues = d.queues ∧ (Dev.readAtom mid d t).turn = d.turn ∧ (Dev.readAtom mid d t).lastTurn = d.lastTurn ∧ (Dev.readAtom mid d t).rings = d.rings ∧ (Dev.readAtom mid d t).canvases = d.canvases ∧ (Dev.readAtom mid d t).comp = d.comp ∧ (Dev.readAtom mid d t).ports = d.ports ∧ (Dev.readAtom mid d t).chans = d.chans ∧ (Dev.readAtom mid d t).timers = d.timers ∧ (Dev.readAtom mid d t).mrv = d.mrv ∧ (Dev.readAtom mid d t).engines = d.engines ∧ (Dev.readAtom mid d t).regions = d.regions ∧ (Dev.readAtom mid d t).cru = d.cru ∧ (Dev.readAtom mid d t).acc = d.acc ∧ (Dev.readAtom mid d t).svc = d.svc ∧ (Dev.readAtom mid d t).tb = d.tb ∧ (Dev.readAtom mid d t).clk = d.clk ∧ (Dev.readAtom mid d t).rst = d.rst ∧ (Dev.readAtom mid d t).hif = d.hif ∧ (Dev.readAtom mid d t).pins = d.pins := by
  simp [Dev.readAtom]

@[simp] theorem Dev.sparingDue_frame (mac : Nat) (row : Nat) (d : Dev) :
    (Dev.sparingDue mac row d).now = d.now ∧ (Dev.sparingDue mac row d).regs = d.regs ∧ (Dev.sparingDue mac row d).luts = d.luts ∧ (Dev.sparingDue mac row d).mem = d.mem ∧ (Dev.sparingDue mac row d).scene = d.scene ∧ (Dev.sparingDue mac row d).ledger = d.ledger ∧ (Dev.sparingDue mac row d).queues = d.queues ∧ (Dev.sparingDue mac row d).turn = d.turn ∧ (Dev.sparingDue mac row d).lastTurn = d.lastTurn ∧ (Dev.sparingDue mac row d).rings = d.rings ∧ (Dev.sparingDue mac row d).canvases = d.canvases ∧ (Dev.sparingDue mac row d).comp = d.comp ∧ (Dev.sparingDue mac row d).ports = d.ports ∧ (Dev.sparingDue mac row d).chans = d.chans ∧ (Dev.sparingDue mac row d).timers = d.timers ∧ (Dev.sparingDue mac row d).mrv = d.mrv ∧ (Dev.sparingDue mac row d).engines = d.engines ∧ (Dev.sparingDue mac row d).regions = d.regions ∧ (Dev.sparingDue mac row d).mct = d.mct ∧ (Dev.sparingDue mac row d).acc = d.acc ∧ (Dev.sparingDue mac row d).flt = d.flt ∧ (Dev.sparingDue mac row d).svc = d.svc ∧ (Dev.sparingDue mac row d).tb = d.tb ∧ (Dev.sparingDue mac row d).clk = d.clk ∧ (Dev.sparingDue mac row d).rst = d.rst ∧ (Dev.sparingDue mac row d).hif = d.hif ∧ (Dev.sparingDue mac row d).pins = d.pins := by
  simp [Dev.sparingDue]

@[simp] theorem Dev.groupFails_frame (mac : Nat) (row : Nat) (grp : Nat) (d : Dev) :
    (Dev.groupFails mac row grp d).now = d.now ∧ (Dev.groupFails mac row grp d).regs = d.regs ∧ (Dev.groupFails mac row grp d).luts = d.luts ∧ (Dev.groupFails mac row grp d).mem = d.mem ∧ (Dev.groupFails mac row grp d).scene = d.scene ∧ (Dev.groupFails mac row grp d).ledger = d.ledger ∧ (Dev.groupFails mac row grp d).queues = d.queues ∧ (Dev.groupFails mac row grp d).turn = d.turn ∧ (Dev.groupFails mac row grp d).lastTurn = d.lastTurn ∧ (Dev.groupFails mac row grp d).rings = d.rings ∧ (Dev.groupFails mac row grp d).canvases = d.canvases ∧ (Dev.groupFails mac row grp d).comp = d.comp ∧ (Dev.groupFails mac row grp d).ports = d.ports ∧ (Dev.groupFails mac row grp d).chans = d.chans ∧ (Dev.groupFails mac row grp d).timers = d.timers ∧ (Dev.groupFails mac row grp d).mrv = d.mrv ∧ (Dev.groupFails mac row grp d).engines = d.engines ∧ (Dev.groupFails mac row grp d).regions = d.regions ∧ (Dev.groupFails mac row grp d).mct = d.mct ∧ (Dev.groupFails mac row grp d).acc = d.acc ∧ (Dev.groupFails mac row grp d).svc = d.svc ∧ (Dev.groupFails mac row grp d).tb = d.tb ∧ (Dev.groupFails mac row grp d).clk = d.clk ∧ (Dev.groupFails mac row grp d).rst = d.rst ∧ (Dev.groupFails mac row grp d).hif = d.hif ∧ (Dev.groupFails mac row grp d).pins = d.pins := by
  simp [Dev.groupFails]

@[simp] theorem Dev.groupAtFails_frame (d : Dev) (t : Nat) :
    (Dev.groupAtFails d t).now = d.now ∧ (Dev.groupAtFails d t).regs = d.regs ∧ (Dev.groupAtFails d t).luts = d.luts ∧ (Dev.groupAtFails d t).mem = d.mem ∧ (Dev.groupAtFails d t).scene = d.scene ∧ (Dev.groupAtFails d t).ledger = d.ledger ∧ (Dev.groupAtFails d t).queues = d.queues ∧ (Dev.groupAtFails d t).turn = d.turn ∧ (Dev.groupAtFails d t).lastTurn = d.lastTurn ∧ (Dev.groupAtFails d t).rings = d.rings ∧ (Dev.groupAtFails d t).canvases = d.canvases ∧ (Dev.groupAtFails d t).comp = d.comp ∧ (Dev.groupAtFails d t).ports = d.ports ∧ (Dev.groupAtFails d t).chans = d.chans ∧ (Dev.groupAtFails d t).timers = d.timers ∧ (Dev.groupAtFails d t).mrv = d.mrv ∧ (Dev.groupAtFails d t).engines = d.engines ∧ (Dev.groupAtFails d t).regions = d.regions ∧ (Dev.groupAtFails d t).mct = d.mct ∧ (Dev.groupAtFails d t).acc = d.acc ∧ (Dev.groupAtFails d t).svc = d.svc ∧ (Dev.groupAtFails d t).tb = d.tb ∧ (Dev.groupAtFails d t).clk = d.clk ∧ (Dev.groupAtFails d t).rst = d.rst ∧ (Dev.groupAtFails d t).hif = d.hif ∧ (Dev.groupAtFails d t).pins = d.pins := by
  simp [Dev.groupAtFails]

@[simp] theorem Dev.noteRead_frame (mid : Nat) (write : Bool) (a : Nat) (len : Nat) (d : Dev) :
    (Dev.noteRead mid write a len d).now = d.now ∧ (Dev.noteRead mid write a len d).regs = d.regs ∧ (Dev.noteRead mid write a len d).luts = d.luts ∧ (Dev.noteRead mid write a len d).mem = d.mem ∧ (Dev.noteRead mid write a len d).scene = d.scene ∧ (Dev.noteRead mid write a len d).ledger = d.ledger ∧ (Dev.noteRead mid write a len d).queues = d.queues ∧ (Dev.noteRead mid write a len d).turn = d.turn ∧ (Dev.noteRead mid write a len d).lastTurn = d.lastTurn ∧ (Dev.noteRead mid write a len d).rings = d.rings ∧ (Dev.noteRead mid write a len d).canvases = d.canvases ∧ (Dev.noteRead mid write a len d).comp = d.comp ∧ (Dev.noteRead mid write a len d).ports = d.ports ∧ (Dev.noteRead mid write a len d).chans = d.chans ∧ (Dev.noteRead mid write a len d).timers = d.timers ∧ (Dev.noteRead mid write a len d).mrv = d.mrv ∧ (Dev.noteRead mid write a len d).engines = d.engines ∧ (Dev.noteRead mid write a len d).regions = d.regions ∧ (Dev.noteRead mid write a len d).acc = d.acc ∧ (Dev.noteRead mid write a len d).svc = d.svc ∧ (Dev.noteRead mid write a len d).tb = d.tb ∧ (Dev.noteRead mid write a len d).clk = d.clk ∧ (Dev.noteRead mid write a len d).rst = d.rst ∧ (Dev.noteRead mid write a len d).hif = d.hif ∧ (Dev.noteRead mid write a len d).pins = d.pins := by
  unfold Dev.noteRead; (repeat' split) <;> simp

@[simp] theorem Dev.store_frame (a : Nat) (bs : List Byte) (d : Dev) :
    (Dev.store a bs d).now = d.now ∧ (Dev.store a bs d).regs = d.regs ∧ (Dev.store a bs d).luts = d.luts ∧ (Dev.store a bs d).scene = d.scene ∧ (Dev.store a bs d).ledger = d.ledger ∧ (Dev.store a bs d).queues = d.queues ∧ (Dev.store a bs d).turn = d.turn ∧ (Dev.store a bs d).lastTurn = d.lastTurn ∧ (Dev.store a bs d).rings = d.rings ∧ (Dev.store a bs d).canvases = d.canvases ∧ (Dev.store a bs d).comp = d.comp ∧ (Dev.store a bs d).ports = d.ports ∧ (Dev.store a bs d).chans = d.chans ∧ (Dev.store a bs d).timers = d.timers ∧ (Dev.store a bs d).mrv = d.mrv ∧ (Dev.store a bs d).engines = d.engines ∧ (Dev.store a bs d).regions = d.regions ∧ (Dev.store a bs d).acc = d.acc ∧ (Dev.store a bs d).flt = d.flt ∧ (Dev.store a bs d).svc = d.svc ∧ (Dev.store a bs d).tb = d.tb ∧ (Dev.store a bs d).clk = d.clk ∧ (Dev.store a bs d).rst = d.rst ∧ (Dev.store a bs d).pins = d.pins := by
  unfold Dev.store; dsimp only
  split <;> simp

@[simp] theorem Dev.masterWrite_frame (mid : Nat) (a : Nat) (ws : List Word) (d : Dev) :
    (Dev.masterWrite mid a ws d).now = d.now ∧ (Dev.masterWrite mid a ws d).regs = d.regs ∧ (Dev.masterWrite mid a ws d).luts = d.luts ∧ (Dev.masterWrite mid a ws d).scene = d.scene ∧ (Dev.masterWrite mid a ws d).ledger = d.ledger ∧ (Dev.masterWrite mid a ws d).queues = d.queues ∧ (Dev.masterWrite mid a ws d).turn = d.turn ∧ (Dev.masterWrite mid a ws d).lastTurn = d.lastTurn ∧ (Dev.masterWrite mid a ws d).rings = d.rings ∧ (Dev.masterWrite mid a ws d).canvases = d.canvases ∧ (Dev.masterWrite mid a ws d).comp = d.comp ∧ (Dev.masterWrite mid a ws d).ports = d.ports ∧ (Dev.masterWrite mid a ws d).chans = d.chans ∧ (Dev.masterWrite mid a ws d).timers = d.timers ∧ (Dev.masterWrite mid a ws d).mrv = d.mrv ∧ (Dev.masterWrite mid a ws d).engines = d.engines ∧ (Dev.masterWrite mid a ws d).regions = d.regions ∧ (Dev.masterWrite mid a ws d).svc = d.svc ∧ (Dev.masterWrite mid a ws d).tb = d.tb ∧ (Dev.masterWrite mid a ws d).clk = d.clk ∧ (Dev.masterWrite mid a ws d).rst = d.rst ∧ (Dev.masterWrite mid a ws d).pins = d.pins := by
  unfold Dev.masterWrite; (repeat' split) <;> simp

@[simp] theorem Dev.msix_frame (f : Nat) (v : Nat) (d : Dev) :
    (Dev.msix f v d).now = d.now ∧ (Dev.msix f v d).regs = d.regs ∧ (Dev.msix f v d).luts = d.luts ∧ (Dev.msix f v d).mem = d.mem ∧ (Dev.msix f v d).scene = d.scene ∧ (Dev.msix f v d).ledger = d.ledger ∧ (Dev.msix f v d).queues = d.queues ∧ (Dev.msix f v d).turn = d.turn ∧ (Dev.msix f v d).lastTurn = d.lastTurn ∧ (Dev.msix f v d).rings = d.rings ∧ (Dev.msix f v d).canvases = d.canvases ∧ (Dev.msix f v d).comp = d.comp ∧ (Dev.msix f v d).ports = d.ports ∧ (Dev.msix f v d).chans = d.chans ∧ (Dev.msix f v d).timers = d.timers ∧ (Dev.msix f v d).mrv = d.mrv ∧ (Dev.msix f v d).engines = d.engines ∧ (Dev.msix f v d).regions = d.regions ∧ (Dev.msix f v d).mct = d.mct ∧ (Dev.msix f v d).cru = d.cru ∧ (Dev.msix f v d).acc = d.acc ∧ (Dev.msix f v d).flt = d.flt ∧ (Dev.msix f v d).svc = d.svc ∧ (Dev.msix f v d).tb = d.tb ∧ (Dev.msix f v d).clk = d.clk ∧ (Dev.msix f v d).rst = d.rst ∧ (Dev.msix f v d).pins = d.pins := by
  simp [Dev.msix]

@[simp] theorem Dev.noticeIrq_frame (f : Nat) (d : Dev) :
    (Dev.noticeIrq f d).now = d.now ∧ (Dev.noticeIrq f d).regs = d.regs ∧ (Dev.noticeIrq f d).luts = d.luts ∧ (Dev.noticeIrq f d).mem = d.mem ∧ (Dev.noticeIrq f d).scene = d.scene ∧ (Dev.noticeIrq f d).ledger = d.ledger ∧ (Dev.noticeIrq f d).queues = d.queues ∧ (Dev.noticeIrq f d).turn = d.turn ∧ (Dev.noticeIrq f d).lastTurn = d.lastTurn ∧ (Dev.noticeIrq f d).canvases = d.canvases ∧ (Dev.noticeIrq f d).comp = d.comp ∧ (Dev.noticeIrq f d).ports = d.ports ∧ (Dev.noticeIrq f d).chans = d.chans ∧ (Dev.noticeIrq f d).timers = d.timers ∧ (Dev.noticeIrq f d).mrv = d.mrv ∧ (Dev.noticeIrq f d).engines = d.engines ∧ (Dev.noticeIrq f d).regions = d.regions ∧ (Dev.noticeIrq f d).mct = d.mct ∧ (Dev.noticeIrq f d).cru = d.cru ∧ (Dev.noticeIrq f d).acc = d.acc ∧ (Dev.noticeIrq f d).flt = d.flt ∧ (Dev.noticeIrq f d).svc = d.svc ∧ (Dev.noticeIrq f d).tb = d.tb ∧ (Dev.noticeIrq f d).clk = d.clk ∧ (Dev.noticeIrq f d).rst = d.rst ∧ (Dev.noticeIrq f d).pins = d.pins := by
  simp [Dev.noticeIrq]

@[simp] theorem Dev.post_frame (f : Nat) (n : Notice) (d : Dev) :
    (Dev.post f n d).now = d.now ∧ (Dev.post f n d).regs = d.regs ∧ (Dev.post f n d).luts = d.luts ∧ (Dev.post f n d).scene = d.scene ∧ (Dev.post f n d).ledger = d.ledger ∧ (Dev.post f n d).queues = d.queues ∧ (Dev.post f n d).turn = d.turn ∧ (Dev.post f n d).lastTurn = d.lastTurn ∧ (Dev.post f n d).canvases = d.canvases ∧ (Dev.post f n d).comp = d.comp ∧ (Dev.post f n d).ports = d.ports ∧ (Dev.post f n d).chans = d.chans ∧ (Dev.post f n d).timers = d.timers ∧ (Dev.post f n d).mrv = d.mrv ∧ (Dev.post f n d).engines = d.engines ∧ (Dev.post f n d).regions = d.regions ∧ (Dev.post f n d).svc = d.svc ∧ (Dev.post f n d).tb = d.tb ∧ (Dev.post f n d).clk = d.clk ∧ (Dev.post f n d).rst = d.rst ∧ (Dev.post f n d).pins = d.pins := by
  simp [Dev.post]

@[simp] theorem Dev.noticeThen_now (f : Nat) (n : Notice) (k : Dev → Dev) (d : Dev) (hk : ∀ d, (k d).now = d.now) : (Dev.noticeThen f n k d).now = d.now := by
  simp [Dev.noticeThen, hk]

@[simp] theorem Dev.noticeThen_regs (f : Nat) (n : Notice) (k : Dev → Dev) (d : Dev) (hk : ∀ d, (k d).regs = d.regs) : (Dev.noticeThen f n k d).regs = d.regs := by
  simp [Dev.noticeThen, hk]

@[simp] theorem Dev.noticeThen_luts (f : Nat) (n : Notice) (k : Dev → Dev) (d : Dev) (hk : ∀ d, (k d).luts = d.luts) : (Dev.noticeThen f n k d).luts = d.luts := by
  simp [Dev.noticeThen, hk]

@[simp] theorem Dev.noticeThen_scene (f : Nat) (n : Notice) (k : Dev → Dev) (d : Dev) (hk : ∀ d, (k d).scene = d.scene) : (Dev.noticeThen f n k d).scene = d.scene := by
  simp [Dev.noticeThen, hk]

@[simp] theorem Dev.noticeThen_ledger (f : Nat) (n : Notice) (k : Dev → Dev) (d : Dev) (hk : ∀ d, (k d).ledger = d.ledger) : (Dev.noticeThen f n k d).ledger = d.ledger := by
  simp [Dev.noticeThen, hk]

@[simp] theorem Dev.noticeThen_queues (f : Nat) (n : Notice) (k : Dev → Dev) (d : Dev) (hk : ∀ d, (k d).queues = d.queues) : (Dev.noticeThen f n k d).queues = d.queues := by
  simp [Dev.noticeThen, hk]

@[simp] theorem Dev.noticeThen_turn (f : Nat) (n : Notice) (k : Dev → Dev) (d : Dev) (hk : ∀ d, (k d).turn = d.turn) : (Dev.noticeThen f n k d).turn = d.turn := by
  simp [Dev.noticeThen, hk]

@[simp] theorem Dev.noticeThen_lastTurn (f : Nat) (n : Notice) (k : Dev → Dev) (d : Dev) (hk : ∀ d, (k d).lastTurn = d.lastTurn) : (Dev.noticeThen f n k d).lastTurn = d.lastTurn := by
  simp [Dev.noticeThen, hk]

@[simp] theorem Dev.noticeThen_canvases (f : Nat) (n : Notice) (k : Dev → Dev) (d : Dev) (hk : ∀ d, (k d).canvases = d.canvases) : (Dev.noticeThen f n k d).canvases = d.canvases := by
  simp [Dev.noticeThen, hk]

@[simp] theorem Dev.noticeThen_comp (f : Nat) (n : Notice) (k : Dev → Dev) (d : Dev) (hk : ∀ d, (k d).comp = d.comp) : (Dev.noticeThen f n k d).comp = d.comp := by
  simp [Dev.noticeThen, hk]

@[simp] theorem Dev.noticeThen_ports (f : Nat) (n : Notice) (k : Dev → Dev) (d : Dev) (hk : ∀ d, (k d).ports = d.ports) : (Dev.noticeThen f n k d).ports = d.ports := by
  simp [Dev.noticeThen, hk]

@[simp] theorem Dev.noticeThen_chans (f : Nat) (n : Notice) (k : Dev → Dev) (d : Dev) (hk : ∀ d, (k d).chans = d.chans) : (Dev.noticeThen f n k d).chans = d.chans := by
  simp [Dev.noticeThen, hk]

@[simp] theorem Dev.noticeThen_timers (f : Nat) (n : Notice) (k : Dev → Dev) (d : Dev) (hk : ∀ d, (k d).timers = d.timers) : (Dev.noticeThen f n k d).timers = d.timers := by
  simp [Dev.noticeThen, hk]

@[simp] theorem Dev.noticeThen_mrv (f : Nat) (n : Notice) (k : Dev → Dev) (d : Dev) (hk : ∀ d, (k d).mrv = d.mrv) : (Dev.noticeThen f n k d).mrv = d.mrv := by
  simp [Dev.noticeThen, hk]

@[simp] theorem Dev.noticeThen_engines (f : Nat) (n : Notice) (k : Dev → Dev) (d : Dev) (hk : ∀ d, (k d).engines = d.engines) : (Dev.noticeThen f n k d).engines = d.engines := by
  simp [Dev.noticeThen, hk]

@[simp] theorem Dev.noticeThen_regions (f : Nat) (n : Notice) (k : Dev → Dev) (d : Dev) (hk : ∀ d, (k d).regions = d.regions) : (Dev.noticeThen f n k d).regions = d.regions := by
  simp [Dev.noticeThen, hk]

@[simp] theorem Dev.noticeThen_svc (f : Nat) (n : Notice) (k : Dev → Dev) (d : Dev) (hk : ∀ d, (k d).svc = d.svc) : (Dev.noticeThen f n k d).svc = d.svc := by
  simp [Dev.noticeThen, hk]

@[simp] theorem Dev.noticeThen_tb (f : Nat) (n : Notice) (k : Dev → Dev) (d : Dev) (hk : ∀ d, (k d).tb = d.tb) : (Dev.noticeThen f n k d).tb = d.tb := by
  simp [Dev.noticeThen, hk]

@[simp] theorem Dev.noticeThen_clk (f : Nat) (n : Notice) (k : Dev → Dev) (d : Dev) (hk : ∀ d, (k d).clk = d.clk) : (Dev.noticeThen f n k d).clk = d.clk := by
  simp [Dev.noticeThen, hk]

@[simp] theorem Dev.noticeThen_rst (f : Nat) (n : Notice) (k : Dev → Dev) (d : Dev) (hk : ∀ d, (k d).rst = d.rst) : (Dev.noticeThen f n k d).rst = d.rst := by
  simp [Dev.noticeThen, hk]

@[simp] theorem Dev.noticeThen_pins (f : Nat) (n : Notice) (k : Dev → Dev) (d : Dev) (hk : ∀ d, (k d).pins = d.pins) : (Dev.noticeThen f n k d).pins = d.pins := by
  simp [Dev.noticeThen, hk]

@[simp] theorem Dev.notice_frame (f : Nat) (n : Notice) (d : Dev) :
    (Dev.notice f n d).now = d.now ∧ (Dev.notice f n d).regs = d.regs ∧ (Dev.notice f n d).luts = d.luts ∧ (Dev.notice f n d).scene = d.scene ∧ (Dev.notice f n d).ledger = d.ledger ∧ (Dev.notice f n d).queues = d.queues ∧ (Dev.notice f n d).turn = d.turn ∧ (Dev.notice f n d).lastTurn = d.lastTurn ∧ (Dev.notice f n d).canvases = d.canvases ∧ (Dev.notice f n d).comp = d.comp ∧ (Dev.notice f n d).ports = d.ports ∧ (Dev.notice f n d).chans = d.chans ∧ (Dev.notice f n d).timers = d.timers ∧ (Dev.notice f n d).mrv = d.mrv ∧ (Dev.notice f n d).engines = d.engines ∧ (Dev.notice f n d).regions = d.regions ∧ (Dev.notice f n d).svc = d.svc ∧ (Dev.notice f n d).tb = d.tb ∧ (Dev.notice f n d).clk = d.clk ∧ (Dev.notice f n d).rst = d.rst ∧ (Dev.notice f n d).pins = d.pins := by
  simp [Dev.notice]

@[simp] theorem Dev.headWriteback_frame (q : Nat) (d : Dev) :
    (Dev.headWriteback q d).now = d.now ∧ (Dev.headWriteback q d).regs = d.regs ∧ (Dev.headWriteback q d).luts = d.luts ∧ (Dev.headWriteback q d).scene = d.scene ∧ (Dev.headWriteback q d).ledger = d.ledger ∧ (Dev.headWriteback q d).queues = d.queues ∧ (Dev.headWriteback q d).turn = d.turn ∧ (Dev.headWriteback q d).lastTurn = d.lastTurn ∧ (Dev.headWriteback q d).rings = d.rings ∧ (Dev.headWriteback q d).canvases = d.canvases ∧ (Dev.headWriteback q d).comp = d.comp ∧ (Dev.headWriteback q d).ports = d.ports ∧ (Dev.headWriteback q d).chans = d.chans ∧ (Dev.headWriteback q d).timers = d.timers ∧ (Dev.headWriteback q d).mrv = d.mrv ∧ (Dev.headWriteback q d).engines = d.engines ∧ (Dev.headWriteback q d).regions = d.regions ∧ (Dev.headWriteback q d).svc = d.svc ∧ (Dev.headWriteback q d).tb = d.tb ∧ (Dev.headWriteback q d).clk = d.clk ∧ (Dev.headWriteback q d).rst = d.rst ∧ (Dev.headWriteback q d).pins = d.pins := by
  simp [Dev.headWriteback]

@[simp] theorem Dev.advanceHead_frame (q : Nat) (d : Dev) :
    (Dev.advanceHead q d).now = d.now ∧ (Dev.advanceHead q d).regs = d.regs ∧ (Dev.advanceHead q d).luts = d.luts ∧ (Dev.advanceHead q d).scene = d.scene ∧ (Dev.advanceHead q d).ledger = d.ledger ∧ (Dev.advanceHead q d).turn = d.turn ∧ (Dev.advanceHead q d).lastTurn = d.lastTurn ∧ (Dev.advanceHead q d).rings = d.rings ∧ (Dev.advanceHead q d).canvases = d.canvases ∧ (Dev.advanceHead q d).comp = d.comp ∧ (Dev.advanceHead q d).ports = d.ports ∧ (Dev.advanceHead q d).chans = d.chans ∧ (Dev.advanceHead q d).timers = d.timers ∧ (Dev.advanceHead q d).mrv = d.mrv ∧ (Dev.advanceHead q d).engines = d.engines ∧ (Dev.advanceHead q d).regions = d.regions ∧ (Dev.advanceHead q d).svc = d.svc ∧ (Dev.advanceHead q d).tb = d.tb ∧ (Dev.advanceHead q d).clk = d.clk ∧ (Dev.advanceHead q d).rst = d.rst ∧ (Dev.advanceHead q d).pins = d.pins := by
  simp [Dev.advanceHead]

@[simp] theorem Dev.messageBehind_frame (q : Nat) (grp : Nat) (msg : Nat × Nat) (d : Dev) :
    (Dev.messageBehind q grp msg d).now = d.now ∧ (Dev.messageBehind q grp msg d).regs = d.regs ∧ (Dev.messageBehind q grp msg d).luts = d.luts ∧ (Dev.messageBehind q grp msg d).mem = d.mem ∧ (Dev.messageBehind q grp msg d).scene = d.scene ∧ (Dev.messageBehind q grp msg d).ledger = d.ledger ∧ (Dev.messageBehind q grp msg d).turn = d.turn ∧ (Dev.messageBehind q grp msg d).lastTurn = d.lastTurn ∧ (Dev.messageBehind q grp msg d).rings = d.rings ∧ (Dev.messageBehind q grp msg d).canvases = d.canvases ∧ (Dev.messageBehind q grp msg d).comp = d.comp ∧ (Dev.messageBehind q grp msg d).ports = d.ports ∧ (Dev.messageBehind q grp msg d).chans = d.chans ∧ (Dev.messageBehind q grp msg d).timers = d.timers ∧ (Dev.messageBehind q grp msg d).mrv = d.mrv ∧ (Dev.messageBehind q grp msg d).engines = d.engines ∧ (Dev.messageBehind q grp msg d).regions = d.regions ∧ (Dev.messageBehind q grp msg d).mct = d.mct ∧ (Dev.messageBehind q grp msg d).cru = d.cru ∧ (Dev.messageBehind q grp msg d).acc = d.acc ∧ (Dev.messageBehind q grp msg d).flt = d.flt ∧ (Dev.messageBehind q grp msg d).svc = d.svc ∧ (Dev.messageBehind q grp msg d).tb = d.tb ∧ (Dev.messageBehind q grp msg d).clk = d.clk ∧ (Dev.messageBehind q grp msg d).rst = d.rst ∧ (Dev.messageBehind q grp msg d).hif = d.hif ∧ (Dev.messageBehind q grp msg d).pins = d.pins := by
  simp [Dev.messageBehind]

@[simp] theorem Dev.completeGrp_frame (q : Nat) (grp : Nat) (d : Dev) :
    (Dev.completeGrp q grp d).now = d.now ∧ (Dev.completeGrp q grp d).regs = d.regs ∧ (Dev.completeGrp q grp d).luts = d.luts ∧ (Dev.completeGrp q grp d).scene = d.scene ∧ (Dev.completeGrp q grp d).ledger = d.ledger ∧ (Dev.completeGrp q grp d).turn = d.turn ∧ (Dev.completeGrp q grp d).lastTurn = d.lastTurn ∧ (Dev.completeGrp q grp d).rings = d.rings ∧ (Dev.completeGrp q grp d).canvases = d.canvases ∧ (Dev.completeGrp q grp d).comp = d.comp ∧ (Dev.completeGrp q grp d).ports = d.ports ∧ (Dev.completeGrp q grp d).chans = d.chans ∧ (Dev.completeGrp q grp d).timers = d.timers ∧ (Dev.completeGrp q grp d).mrv = d.mrv ∧ (Dev.completeGrp q grp d).engines = d.engines ∧ (Dev.completeGrp q grp d).regions = d.regions ∧ (Dev.completeGrp q grp d).svc = d.svc ∧ (Dev.completeGrp q grp d).tb = d.tb ∧ (Dev.completeGrp q grp d).clk = d.clk ∧ (Dev.completeGrp q grp d).rst = d.rst ∧ (Dev.completeGrp q grp d).pins = d.pins := by
  simp [Dev.completeGrp]

@[simp] theorem faultArrival_frame (d : Dev) :
    (faultArrival d).now = d.now ∧ (faultArrival d).regs = d.regs ∧ (faultArrival d).luts = d.luts ∧ (faultArrival d).mem = d.mem ∧ (faultArrival d).scene = d.scene ∧ (faultArrival d).ledger = d.ledger ∧ (faultArrival d).queues = d.queues ∧ (faultArrival d).turn = d.turn ∧ (faultArrival d).lastTurn = d.lastTurn ∧ (faultArrival d).rings = d.rings ∧ (faultArrival d).canvases = d.canvases ∧ (faultArrival d).comp = d.comp ∧ (faultArrival d).ports = d.ports ∧ (faultArrival d).chans = d.chans ∧ (faultArrival d).timers = d.timers ∧ (faultArrival d).mrv = d.mrv ∧ (faultArrival d).engines = d.engines ∧ (faultArrival d).regions = d.regions ∧ (faultArrival d).mct = d.mct ∧ (faultArrival d).cru = d.cru ∧ (faultArrival d).acc = d.acc ∧ (faultArrival d).svc = d.svc ∧ (faultArrival d).tb = d.tb ∧ (faultArrival d).clk = d.clk ∧ (faultArrival d).rst = d.rst ∧ (faultArrival d).hif = d.hif ∧ (faultArrival d).pins = d.pins := by
  unfold faultArrival; (repeat' split) <;> simp

@[simp] theorem writeEntry_frame (f : Firing) (d : Dev) :
    (writeEntry f d).now = d.now ∧ (writeEntry f d).regs = d.regs ∧ (writeEntry f d).luts = d.luts ∧ (writeEntry f d).scene = d.scene ∧ (writeEntry f d).ledger = d.ledger ∧ (writeEntry f d).queues = d.queues ∧ (writeEntry f d).turn = d.turn ∧ (writeEntry f d).lastTurn = d.lastTurn ∧ (writeEntry f d).canvases = d.canvases ∧ (writeEntry f d).comp = d.comp ∧ (writeEntry f d).ports = d.ports ∧ (writeEntry f d).chans = d.chans ∧ (writeEntry f d).timers = d.timers ∧ (writeEntry f d).mrv = d.mrv ∧ (writeEntry f d).engines = d.engines ∧ (writeEntry f d).regions = d.regions ∧ (writeEntry f d).svc = d.svc ∧ (writeEntry f d).tb = d.tb ∧ (writeEntry f d).clk = d.clk ∧ (writeEntry f d).rst = d.rst ∧ (writeEntry f d).pins = d.pins := by
  simp [writeEntry]

@[simp] theorem logEntryWrite_frame (d : Dev) :
    (logEntryWrite d).now = d.now ∧ (logEntryWrite d).regs = d.regs ∧ (logEntryWrite d).luts = d.luts ∧ (logEntryWrite d).scene = d.scene ∧ (logEntryWrite d).ledger = d.ledger ∧ (logEntryWrite d).queues = d.queues ∧ (logEntryWrite d).turn = d.turn ∧ (logEntryWrite d).lastTurn = d.lastTurn ∧ (logEntryWrite d).canvases = d.canvases ∧ (logEntryWrite d).comp = d.comp ∧ (logEntryWrite d).ports = d.ports ∧ (logEntryWrite d).chans = d.chans ∧ (logEntryWrite d).timers = d.timers ∧ (logEntryWrite d).mrv = d.mrv ∧ (logEntryWrite d).engines = d.engines ∧ (logEntryWrite d).regions = d.regions ∧ (logEntryWrite d).svc = d.svc ∧ (logEntryWrite d).tb = d.tb ∧ (logEntryWrite d).clk = d.clk ∧ (logEntryWrite d).rst = d.rst ∧ (logEntryWrite d).pins = d.pins := by
  unfold logEntryWrite; (repeat' split) <;> simp

@[simp] theorem coalWindowEnd_frame (d : Dev) :
    (coalWindowEnd d).now = d.now ∧ (coalWindowEnd d).regs = d.regs ∧ (coalWindowEnd d).luts = d.luts ∧ (coalWindowEnd d).mem = d.mem ∧ (coalWindowEnd d).scene = d.scene ∧ (coalWindowEnd d).ledger = d.ledger ∧ (coalWindowEnd d).queues = d.queues ∧ (coalWindowEnd d).turn = d.turn ∧ (coalWindowEnd d).lastTurn = d.lastTurn ∧ (coalWindowEnd d).rings = d.rings ∧ (coalWindowEnd d).canvases = d.canvases ∧ (coalWindowEnd d).comp = d.comp ∧ (coalWindowEnd d).ports = d.ports ∧ (coalWindowEnd d).chans = d.chans ∧ (coalWindowEnd d).timers = d.timers ∧ (coalWindowEnd d).mrv = d.mrv ∧ (coalWindowEnd d).engines = d.engines ∧ (coalWindowEnd d).regions = d.regions ∧ (coalWindowEnd d).mct = d.mct ∧ (coalWindowEnd d).cru = d.cru ∧ (coalWindowEnd d).acc = d.acc ∧ (coalWindowEnd d).svc = d.svc ∧ (coalWindowEnd d).tb = d.tb ∧ (coalWindowEnd d).clk = d.clk ∧ (coalWindowEnd d).rst = d.rst ∧ (coalWindowEnd d).hif = d.hif ∧ (coalWindowEnd d).pins = d.pins := by
  simp [coalWindowEnd]

@[simp] theorem ppsAccept_frame (d : Dev) :
    (ppsAccept d).now = d.now ∧ (ppsAccept d).regs = d.regs ∧ (ppsAccept d).luts = d.luts ∧ (ppsAccept d).mem = d.mem ∧ (ppsAccept d).scene = d.scene ∧ (ppsAccept d).ledger = d.ledger ∧ (ppsAccept d).queues = d.queues ∧ (ppsAccept d).turn = d.turn ∧ (ppsAccept d).lastTurn = d.lastTurn ∧ (ppsAccept d).rings = d.rings ∧ (ppsAccept d).canvases = d.canvases ∧ (ppsAccept d).comp = d.comp ∧ (ppsAccept d).ports = d.ports ∧ (ppsAccept d).chans = d.chans ∧ (ppsAccept d).timers = d.timers ∧ (ppsAccept d).mrv = d.mrv ∧ (ppsAccept d).engines = d.engines ∧ (ppsAccept d).regions = d.regions ∧ (ppsAccept d).mct = d.mct ∧ (ppsAccept d).cru = d.cru ∧ (ppsAccept d).acc = d.acc ∧ (ppsAccept d).flt = d.flt ∧ (ppsAccept d).svc = d.svc ∧ (ppsAccept d).clk = d.clk ∧ (ppsAccept d).rst = d.rst ∧ (ppsAccept d).hif = d.hif ∧ (ppsAccept d).pins = d.pins := by
  simp [ppsAccept]

@[simp] theorem timebaseControl_frame (old : Word) (new : Word) (load : Bool) (d : Dev) :
    (timebaseControl old new load d).now = d.now ∧ (timebaseControl old new load d).regs = d.regs ∧ (timebaseControl old new load d).luts = d.luts ∧ (timebaseControl old new load d).mem = d.mem ∧ (timebaseControl old new load d).scene = d.scene ∧ (timebaseControl old new load d).ledger = d.ledger ∧ (timebaseControl old new load d).queues = d.queues ∧ (timebaseControl old new load d).turn = d.turn ∧ (timebaseControl old new load d).lastTurn = d.lastTurn ∧ (timebaseControl old new load d).rings = d.rings ∧ (timebaseControl old new load d).canvases = d.canvases ∧ (timebaseControl old new load d).comp = d.comp ∧ (timebaseControl old new load d).ports = d.ports ∧ (timebaseControl old new load d).chans = d.chans ∧ (timebaseControl old new load d).timers = d.timers ∧ (timebaseControl old new load d).mrv = d.mrv ∧ (timebaseControl old new load d).engines = d.engines ∧ (timebaseControl old new load d).regions = d.regions ∧ (timebaseControl old new load d).mct = d.mct ∧ (timebaseControl old new load d).cru = d.cru ∧ (timebaseControl old new load d).acc = d.acc ∧ (timebaseControl old new load d).flt = d.flt ∧ (timebaseControl old new load d).svc = d.svc ∧ (timebaseControl old new load d).clk = d.clk ∧ (timebaseControl old new load d).rst = d.rst ∧ (timebaseControl old new load d).hif = d.hif ∧ (timebaseControl old new load d).pins = d.pins := by
  simp [timebaseControl]

@[simp] theorem Dev.setPllLocked_frame (k : Nat) (b : Bool) (d : Dev) :
    (Dev.setPllLocked k b d).now = d.now ∧ (Dev.setPllLocked k b d).regs = d.regs ∧ (Dev.setPllLocked k b d).luts = d.luts ∧ (Dev.setPllLocked k b d).mem = d.mem ∧ (Dev.setPllLocked k b d).scene = d.scene ∧ (Dev.setPllLocked k b d).ledger = d.ledger ∧ (Dev.setPllLocked k b d).queues = d.queues ∧ (Dev.setPllLocked k b d).turn = d.turn ∧ (Dev.setPllLocked k b d).lastTurn = d.lastTurn ∧ (Dev.setPllLocked k b d).rings = d.rings ∧ (Dev.setPllLocked k b d).canvases = d.canvases ∧ (Dev.setPllLocked k b d).comp = d.comp ∧ (Dev.setPllLocked k b d).ports = d.ports ∧ (Dev.setPllLocked k b d).chans = d.chans ∧ (Dev.setPllLocked k b d).timers = d.timers ∧ (Dev.setPllLocked k b d).mrv = d.mrv ∧ (Dev.setPllLocked k b d).engines = d.engines ∧ (Dev.setPllLocked k b d).regions = d.regions ∧ (Dev.setPllLocked k b d).mct = d.mct ∧ (Dev.setPllLocked k b d).cru = d.cru ∧ (Dev.setPllLocked k b d).acc = d.acc ∧ (Dev.setPllLocked k b d).flt = d.flt ∧ (Dev.setPllLocked k b d).svc = d.svc ∧ (Dev.setPllLocked k b d).tb = d.tb ∧ (Dev.setPllLocked k b d).rst = d.rst ∧ (Dev.setPllLocked k b d).hif = d.hif ∧ (Dev.setPllLocked k b d).pins = d.pins := by
  simp [Dev.setPllLocked]

@[simp] theorem Dev.watchPll_now (c : Nat) (f : Dev → Dev) (d : Dev) (hf : ∀ d, (f d).now = d.now) : (Dev.watchPll c f d).now = d.now := by
  simp [Dev.watchPll, hf]

@[simp] theorem Dev.watchPll_regs (c : Nat) (f : Dev → Dev) (d : Dev) (hf : ∀ d, (f d).regs = d.regs) : (Dev.watchPll c f d).regs = d.regs := by
  simp [Dev.watchPll, hf]

@[simp] theorem Dev.watchPll_luts (c : Nat) (f : Dev → Dev) (d : Dev) (hf : ∀ d, (f d).luts = d.luts) : (Dev.watchPll c f d).luts = d.luts := by
  simp [Dev.watchPll, hf]

@[simp] theorem Dev.watchPll_mem (c : Nat) (f : Dev → Dev) (d : Dev) (hf : ∀ d, (f d).mem = d.mem) : (Dev.watchPll c f d).mem = d.mem := by
  simp [Dev.watchPll, hf]

@[simp] theorem Dev.watchPll_scene (c : Nat) (f : Dev → Dev) (d : Dev) (hf : ∀ d, (f d).scene = d.scene) : (Dev.watchPll c f d).scene = d.scene := by
  simp [Dev.watchPll, hf]

@[simp] theorem Dev.watchPll_ledger (c : Nat) (f : Dev → Dev) (d : Dev) (hf : ∀ d, (f d).ledger = d.ledger) : (Dev.watchPll c f d).ledger = d.ledger := by
  simp [Dev.watchPll, hf]

@[simp] theorem Dev.watchPll_queues (c : Nat) (f : Dev → Dev) (d : Dev) (hf : ∀ d, (f d).queues = d.queues) : (Dev.watchPll c f d).queues = d.queues := by
  simp [Dev.watchPll, hf]

@[simp] theorem Dev.watchPll_turn (c : Nat) (f : Dev → Dev) (d : Dev) (hf : ∀ d, (f d).turn = d.turn) : (Dev.watchPll c f d).turn = d.turn := by
  simp [Dev.watchPll, hf]

@[simp] theorem Dev.watchPll_lastTurn (c : Nat) (f : Dev → Dev) (d : Dev) (hf : ∀ d, (f d).lastTurn = d.lastTurn) : (Dev.watchPll c f d).lastTurn = d.lastTurn := by
  simp [Dev.watchPll, hf]

@[simp] theorem Dev.watchPll_rings (c : Nat) (f : Dev → Dev) (d : Dev) (hf : ∀ d, (f d).rings = d.rings) : (Dev.watchPll c f d).rings = d.rings := by
  simp [Dev.watchPll, hf]

@[simp] theorem Dev.watchPll_canvases (c : Nat) (f : Dev → Dev) (d : Dev) (hf : ∀ d, (f d).canvases = d.canvases) : (Dev.watchPll c f d).canvases = d.canvases := by
  simp [Dev.watchPll, hf]

@[simp] theorem Dev.watchPll_comp (c : Nat) (f : Dev → Dev) (d : Dev) (hf : ∀ d, (f d).comp = d.comp) : (Dev.watchPll c f d).comp = d.comp := by
  simp [Dev.watchPll, hf]

@[simp] theorem Dev.watchPll_ports (c : Nat) (f : Dev → Dev) (d : Dev) (hf : ∀ d, (f d).ports = d.ports) : (Dev.watchPll c f d).ports = d.ports := by
  simp [Dev.watchPll, hf]

@[simp] theorem Dev.watchPll_chans (c : Nat) (f : Dev → Dev) (d : Dev) (hf : ∀ d, (f d).chans = d.chans) : (Dev.watchPll c f d).chans = d.chans := by
  simp [Dev.watchPll, hf]

@[simp] theorem Dev.watchPll_timers (c : Nat) (f : Dev → Dev) (d : Dev) (hf : ∀ d, (f d).timers = d.timers) : (Dev.watchPll c f d).timers = d.timers := by
  simp [Dev.watchPll, hf]

@[simp] theorem Dev.watchPll_mrv (c : Nat) (f : Dev → Dev) (d : Dev) (hf : ∀ d, (f d).mrv = d.mrv) : (Dev.watchPll c f d).mrv = d.mrv := by
  simp [Dev.watchPll, hf]

@[simp] theorem Dev.watchPll_engines (c : Nat) (f : Dev → Dev) (d : Dev) (hf : ∀ d, (f d).engines = d.engines) : (Dev.watchPll c f d).engines = d.engines := by
  simp [Dev.watchPll, hf]

@[simp] theorem Dev.watchPll_regions (c : Nat) (f : Dev → Dev) (d : Dev) (hf : ∀ d, (f d).regions = d.regions) : (Dev.watchPll c f d).regions = d.regions := by
  simp [Dev.watchPll, hf]

@[simp] theorem Dev.watchPll_mct (c : Nat) (f : Dev → Dev) (d : Dev) (hf : ∀ d, (f d).mct = d.mct) : (Dev.watchPll c f d).mct = d.mct := by
  simp [Dev.watchPll, hf]

@[simp] theorem Dev.watchPll_cru (c : Nat) (f : Dev → Dev) (d : Dev) (hf : ∀ d, (f d).cru = d.cru) : (Dev.watchPll c f d).cru = d.cru := by
  simp [Dev.watchPll, hf]

@[simp] theorem Dev.watchPll_acc (c : Nat) (f : Dev → Dev) (d : Dev) (hf : ∀ d, (f d).acc = d.acc) : (Dev.watchPll c f d).acc = d.acc := by
  simp [Dev.watchPll, hf]

@[simp] theorem Dev.watchPll_svc (c : Nat) (f : Dev → Dev) (d : Dev) (hf : ∀ d, (f d).svc = d.svc) : (Dev.watchPll c f d).svc = d.svc := by
  simp [Dev.watchPll, hf]

@[simp] theorem Dev.watchPll_tb (c : Nat) (f : Dev → Dev) (d : Dev) (hf : ∀ d, (f d).tb = d.tb) : (Dev.watchPll c f d).tb = d.tb := by
  simp [Dev.watchPll, hf]

@[simp] theorem Dev.watchPll_clk (c : Nat) (f : Dev → Dev) (d : Dev) (hf : ∀ d, (f d).clk = d.clk) : (Dev.watchPll c f d).clk = d.clk := by
  simp [Dev.watchPll, hf]

@[simp] theorem Dev.watchPll_rst (c : Nat) (f : Dev → Dev) (d : Dev) (hf : ∀ d, (f d).rst = d.rst) : (Dev.watchPll c f d).rst = d.rst := by
  simp [Dev.watchPll, hf]

@[simp] theorem Dev.watchPll_hif (c : Nat) (f : Dev → Dev) (d : Dev) (hf : ∀ d, (f d).hif = d.hif) : (Dev.watchPll c f d).hif = d.hif := by
  simp [Dev.watchPll, hf]

@[simp] theorem Dev.watchPll_pins (c : Nat) (f : Dev → Dev) (d : Dev) (hf : ∀ d, (f d).pins = d.pins) : (Dev.watchPll c f d).pins = d.pins := by
  simp [Dev.watchPll, hf]

@[simp] theorem pllControl_frame (k : Nat) (old : Word) (new : Word) (d : Dev) :
    (pllControl k old new d).now = d.now ∧ (pllControl k old new d).regs = d.regs ∧ (pllControl k old new d).luts = d.luts ∧ (pllControl k old new d).mem = d.mem ∧ (pllControl k old new d).scene = d.scene ∧ (pllControl k old new d).ledger = d.ledger ∧ (pllControl k old new d).queues = d.queues ∧ (pllControl k old new d).turn = d.turn ∧ (pllControl k old new d).lastTurn = d.lastTurn ∧ (pllControl k old new d).rings = d.rings ∧ (pllControl k old new d).canvases = d.canvases ∧ (pllControl k old new d).comp = d.comp ∧ (pllControl k old new d).ports = d.ports ∧ (pllControl k old new d).chans = d.chans ∧ (pllControl k old new d).timers = d.timers ∧ (pllControl k old new d).mrv = d.mrv ∧ (pllControl k old new d).engines = d.engines ∧ (pllControl k old new d).regions = d.regions ∧ (pllControl k old new d).mct = d.mct ∧ (pllControl k old new d).cru = d.cru ∧ (pllControl k old new d).acc = d.acc ∧ (pllControl k old new d).flt = d.flt ∧ (pllControl k old new d).svc = d.svc ∧ (pllControl k old new d).tb = d.tb ∧ (pllControl k old new d).rst = d.rst ∧ (pllControl k old new d).hif = d.hif ∧ (pllControl k old new d).pins = d.pins := by
  simp [pllControl]

@[simp] theorem askReeval_frame (cause : Nat) (d : Dev) :
    (askReeval cause d).now = d.now ∧ (askReeval cause d).regs = d.regs ∧ (askReeval cause d).luts = d.luts ∧ (askReeval cause d).mem = d.mem ∧ (askReeval cause d).ledger = d.ledger ∧ (askReeval cause d).queues = d.queues ∧ (askReeval cause d).turn = d.turn ∧ (askReeval cause d).lastTurn = d.lastTurn ∧ (askReeval cause d).rings = d.rings ∧ (askReeval cause d).canvases = d.canvases ∧ (askReeval cause d).comp = d.comp ∧ (askReeval cause d).ports = d.ports ∧ (askReeval cause d).chans = d.chans ∧ (askReeval cause d).timers = d.timers ∧ (askReeval cause d).mrv = d.mrv ∧ (askReeval cause d).engines = d.engines ∧ (askReeval cause d).regions = d.regions ∧ (askReeval cause d).mct = d.mct ∧ (askReeval cause d).cru = d.cru ∧ (askReeval cause d).acc = d.acc ∧ (askReeval cause d).flt = d.flt ∧ (askReeval cause d).svc = d.svc ∧ (askReeval cause d).tb = d.tb ∧ (askReeval cause d).clk = d.clk ∧ (askReeval cause d).rst = d.rst ∧ (askReeval cause d).hif = d.hif ∧ (askReeval cause d).pins = d.pins := by
  simp [askReeval]

@[simp] theorem cclkWritten_frame (d : Dev) :
    (cclkWritten d).now = d.now ∧ (cclkWritten d).regs = d.regs ∧ (cclkWritten d).luts = d.luts ∧ (cclkWritten d).mem = d.mem ∧ (cclkWritten d).ledger = d.ledger ∧ (cclkWritten d).queues = d.queues ∧ (cclkWritten d).turn = d.turn ∧ (cclkWritten d).lastTurn = d.lastTurn ∧ (cclkWritten d).rings = d.rings ∧ (cclkWritten d).canvases = d.canvases ∧ (cclkWritten d).comp = d.comp ∧ (cclkWritten d).ports = d.ports ∧ (cclkWritten d).chans = d.chans ∧ (cclkWritten d).timers = d.timers ∧ (cclkWritten d).mrv = d.mrv ∧ (cclkWritten d).engines = d.engines ∧ (cclkWritten d).regions = d.regions ∧ (cclkWritten d).mct = d.mct ∧ (cclkWritten d).cru = d.cru ∧ (cclkWritten d).acc = d.acc ∧ (cclkWritten d).flt = d.flt ∧ (cclkWritten d).svc = d.svc ∧ (cclkWritten d).tb = d.tb ∧ (cclkWritten d).rst = d.rst ∧ (cclkWritten d).hif = d.hif ∧ (cclkWritten d).pins = d.pins := by
  simp [cclkWritten]

@[simp] theorem cclkStep_frame (d : Dev) :
    (cclkStep d).now = d.now ∧ (cclkStep d).regs = d.regs ∧ (cclkStep d).luts = d.luts ∧ (cclkStep d).mem = d.mem ∧ (cclkStep d).ledger = d.ledger ∧ (cclkStep d).queues = d.queues ∧ (cclkStep d).turn = d.turn ∧ (cclkStep d).lastTurn = d.lastTurn ∧ (cclkStep d).rings = d.rings ∧ (cclkStep d).canvases = d.canvases ∧ (cclkStep d).comp = d.comp ∧ (cclkStep d).ports = d.ports ∧ (cclkStep d).chans = d.chans ∧ (cclkStep d).timers = d.timers ∧ (cclkStep d).mrv = d.mrv ∧ (cclkStep d).engines = d.engines ∧ (cclkStep d).regions = d.regions ∧ (cclkStep d).mct = d.mct ∧ (cclkStep d).cru = d.cru ∧ (cclkStep d).acc = d.acc ∧ (cclkStep d).flt = d.flt ∧ (cclkStep d).svc = d.svc ∧ (cclkStep d).tb = d.tb ∧ (cclkStep d).rst = d.rst ∧ (cclkStep d).hif = d.hif ∧ (cclkStep d).pins = d.pins := by
  unfold cclkStep; (repeat' split) <;> simp

@[simp] theorem Dev.refuseOpen_frame (q : Nat) (reason : Nat) (slot : Nat) (kind : Nat) (index : Nat) (d : Dev) :
    (Dev.refuseOpen q reason slot kind index d).now = d.now ∧ (Dev.refuseOpen q reason slot kind index d).regs = d.regs ∧ (Dev.refuseOpen q reason slot kind index d).luts = d.luts ∧ (Dev.refuseOpen q reason slot kind index d).scene = d.scene ∧ (Dev.refuseOpen q reason slot kind index d).ledger = d.ledger ∧ (Dev.refuseOpen q reason slot kind index d).turn = d.turn ∧ (Dev.refuseOpen q reason slot kind index d).lastTurn = d.lastTurn ∧ (Dev.refuseOpen q reason slot kind index d).canvases = d.canvases ∧ (Dev.refuseOpen q reason slot kind index d).comp = d.comp ∧ (Dev.refuseOpen q reason slot kind index d).ports = d.ports ∧ (Dev.refuseOpen q reason slot kind index d).chans = d.chans ∧ (Dev.refuseOpen q reason slot kind index d).timers = d.timers ∧ (Dev.refuseOpen q reason slot kind index d).mrv = d.mrv ∧ (Dev.refuseOpen q reason slot kind index d).engines = d.engines ∧ (Dev.refuseOpen q reason slot kind index d).regions = d.regions ∧ (Dev.refuseOpen q reason slot kind index d).svc = d.svc ∧ (Dev.refuseOpen q reason slot kind index d).tb = d.tb ∧ (Dev.refuseOpen q reason slot kind index d).clk = d.clk ∧ (Dev.refuseOpen q reason slot kind index d).rst = d.rst ∧ (Dev.refuseOpen q reason slot kind index d).pins = d.pins := by
  unfold Dev.refuseOpen; try dsimp only
  (repeat' split) <;> simp

@[simp] theorem Dev.beginScene_frame (q : Nat) (w : Word) (d : Dev) :
    (Dev.beginScene q w d).now = d.now ∧ (Dev.beginScene q w d).regs = d.regs ∧ (Dev.beginScene q w d).luts = d.luts ∧ (Dev.beginScene q w d).scene = d.scene ∧ (Dev.beginScene q w d).ledger = d.ledger ∧ (Dev.beginScene q w d).turn = d.turn ∧ (Dev.beginScene q w d).lastTurn = d.lastTurn ∧ (Dev.beginScene q w d).canvases = d.canvases ∧ (Dev.beginScene q w d).comp = d.comp ∧ (Dev.beginScene q w d).ports = d.ports ∧ (Dev.beginScene q w d).chans = d.chans ∧ (Dev.beginScene q w d).timers = d.timers ∧ (Dev.beginScene q w d).mrv = d.mrv ∧ (Dev.beginScene q w d).engines = d.engines ∧ (Dev.beginScene q w d).regions = d.regions ∧ (Dev.beginScene q w d).svc = d.svc ∧ (Dev.beginScene q w d).tb = d.tb ∧ (Dev.beginScene q w d).clk = d.clk ∧ (Dev.beginScene q w d).rst = d.rst ∧ (Dev.beginScene q w d).pins = d.pins := by
  unfold Dev.beginScene; try dsimp only
  (repeat' split) <;> simp

@[simp] theorem Dev.retryScene_frame (q : Nat) (d : Dev) :
    (Dev.retryScene q d).now = d.now ∧ (Dev.retryScene q d).regs = d.regs ∧ (Dev.retryScene q d).luts = d.luts ∧ (Dev.retryScene q d).scene = d.scene ∧ (Dev.retryScene q d).ledger = d.ledger ∧ (Dev.retryScene q d).turn = d.turn ∧ (Dev.retryScene q d).lastTurn = d.lastTurn ∧ (Dev.retryScene q d).canvases = d.canvases ∧ (Dev.retryScene q d).comp = d.comp ∧ (Dev.retryScene q d).ports = d.ports ∧ (Dev.retryScene q d).chans = d.chans ∧ (Dev.retryScene q d).timers = d.timers ∧ (Dev.retryScene q d).mrv = d.mrv ∧ (Dev.retryScene q d).engines = d.engines ∧ (Dev.retryScene q d).regions = d.regions ∧ (Dev.retryScene q d).svc = d.svc ∧ (Dev.retryScene q d).tb = d.tb ∧ (Dev.retryScene q d).clk = d.clk ∧ (Dev.retryScene q d).rst = d.rst ∧ (Dev.retryScene q d).pins = d.pins := by
  simp [Dev.retryScene]

@[simp] theorem Dev.txnDone_frame (q : Nat) (grp : Nat) (d : Dev) :
    (Dev.txnDone q grp d).now = d.now ∧ (Dev.txnDone q grp d).regs = d.regs ∧ (Dev.txnDone q grp d).luts = d.luts ∧ (Dev.txnDone q grp d).scene = d.scene ∧ (Dev.txnDone q grp d).ledger = d.ledger ∧ (Dev.txnDone q grp d).turn = d.turn ∧ (Dev.txnDone q grp d).lastTurn = d.lastTurn ∧ (Dev.txnDone q grp d).canvases = d.canvases ∧ (Dev.txnDone q grp d).comp = d.comp ∧ (Dev.txnDone q grp d).ports = d.ports ∧ (Dev.txnDone q grp d).chans = d.chans ∧ (Dev.txnDone q grp d).timers = d.timers ∧ (Dev.txnDone q grp d).mrv = d.mrv ∧ (Dev.txnDone q grp d).engines = d.engines ∧ (Dev.txnDone q grp d).regions = d.regions ∧ (Dev.txnDone q grp d).svc = d.svc ∧ (Dev.txnDone q grp d).tb = d.tb ∧ (Dev.txnDone q grp d).clk = d.clk ∧ (Dev.txnDone q grp d).rst = d.rst ∧ (Dev.txnDone q grp d).pins = d.pins := by
  simp [Dev.txnDone]

@[simp] theorem Dev.stagingFreed_frame (d : Dev) :
    (Dev.stagingFreed d).now = d.now ∧ (Dev.stagingFreed d).regs = d.regs ∧ (Dev.stagingFreed d).luts = d.luts ∧ (Dev.stagingFreed d).scene = d.scene ∧ (Dev.stagingFreed d).ledger = d.ledger ∧ (Dev.stagingFreed d).turn = d.turn ∧ (Dev.stagingFreed d).lastTurn = d.lastTurn ∧ (Dev.stagingFreed d).canvases = d.canvases ∧ (Dev.stagingFreed d).comp = d.comp ∧ (Dev.stagingFreed d).ports = d.ports ∧ (Dev.stagingFreed d).chans = d.chans ∧ (Dev.stagingFreed d).timers = d.timers ∧ (Dev.stagingFreed d).mrv = d.mrv ∧ (Dev.stagingFreed d).engines = d.engines ∧ (Dev.stagingFreed d).regions = d.regions ∧ (Dev.stagingFreed d).svc = d.svc ∧ (Dev.stagingFreed d).tb = d.tb ∧ (Dev.stagingFreed d).clk = d.clk ∧ (Dev.stagingFreed d).rst = d.rst ∧ (Dev.stagingFreed d).pins = d.pins := by
  simp [Dev.stagingFreed]

@[simp] theorem Dev.writeTables_frame (a : Admitted) (d : Dev) :
    (Dev.writeTables a d).now = d.now ∧ (Dev.writeTables a d).regs = d.regs ∧ (Dev.writeTables a d).luts = d.luts ∧ (Dev.writeTables a d).mem = d.mem ∧ (Dev.writeTables a d).ledger = d.ledger ∧ (Dev.writeTables a d).queues = d.queues ∧ (Dev.writeTables a d).turn = d.turn ∧ (Dev.writeTables a d).lastTurn = d.lastTurn ∧ (Dev.writeTables a d).rings = d.rings ∧ (Dev.writeTables a d).canvases = d.canvases ∧ (Dev.writeTables a d).comp = d.comp ∧ (Dev.writeTables a d).ports = d.ports ∧ (Dev.writeTables a d).chans = d.chans ∧ (Dev.writeTables a d).timers = d.timers ∧ (Dev.writeTables a d).mrv = d.mrv ∧ (Dev.writeTables a d).engines = d.engines ∧ (Dev.writeTables a d).regions = d.regions ∧ (Dev.writeTables a d).mct = d.mct ∧ (Dev.writeTables a d).acc = d.acc ∧ (Dev.writeTables a d).flt = d.flt ∧ (Dev.writeTables a d).svc = d.svc ∧ (Dev.writeTables a d).tb = d.tb ∧ (Dev.writeTables a d).clk = d.clk ∧ (Dev.writeTables a d).rst = d.rst ∧ (Dev.writeTables a d).hif = d.hif ∧ (Dev.writeTables a d).pins = d.pins := by
  simp [Dev.writeTables]

@[simp] theorem Dev.setFlight_frame (l : List Admitted) (d : Dev) :
    (Dev.setFlight l d).now = d.now ∧ (Dev.setFlight l d).regs = d.regs ∧ (Dev.setFlight l d).luts = d.luts ∧ (Dev.setFlight l d).mem = d.mem ∧ (Dev.setFlight l d).ledger = d.ledger ∧ (Dev.setFlight l d).queues = d.queues ∧ (Dev.setFlight l d).turn = d.turn ∧ (Dev.setFlight l d).lastTurn = d.lastTurn ∧ (Dev.setFlight l d).rings = d.rings ∧ (Dev.setFlight l d).canvases = d.canvases ∧ (Dev.setFlight l d).comp = d.comp ∧ (Dev.setFlight l d).ports = d.ports ∧ (Dev.setFlight l d).chans = d.chans ∧ (Dev.setFlight l d).timers = d.timers ∧ (Dev.setFlight l d).mrv = d.mrv ∧ (Dev.setFlight l d).engines = d.engines ∧ (Dev.setFlight l d).regions = d.regions ∧ (Dev.setFlight l d).mct = d.mct ∧ (Dev.setFlight l d).cru = d.cru ∧ (Dev.setFlight l d).acc = d.acc ∧ (Dev.setFlight l d).flt = d.flt ∧ (Dev.setFlight l d).svc = d.svc ∧ (Dev.setFlight l d).tb = d.tb ∧ (Dev.setFlight l d).clk = d.clk ∧ (Dev.setFlight l d).rst = d.rst ∧ (Dev.setFlight l d).hif = d.hif ∧ (Dev.setFlight l d).pins = d.pins := by
  simp [Dev.setFlight]

@[simp] theorem Dev.completeChange_frame (a : Admitted) (d : Dev) :
    (Dev.completeChange a d).now = d.now ∧ (Dev.completeChange a d).regs = d.regs ∧ (Dev.completeChange a d).luts = d.luts ∧ (Dev.completeChange a d).ledger = d.ledger ∧ (Dev.completeChange a d).turn = d.turn ∧ (Dev.completeChange a d).lastTurn = d.lastTurn ∧ (Dev.completeChange a d).canvases = d.canvases ∧ (Dev.completeChange a d).comp = d.comp ∧ (Dev.completeChange a d).ports = d.ports ∧ (Dev.completeChange a d).chans = d.chans ∧ (Dev.completeChange a d).timers = d.timers ∧ (Dev.completeChange a d).mrv = d.mrv ∧ (Dev.completeChange a d).engines = d.engines ∧ (Dev.completeChange a d).regions = d.regions ∧ (Dev.completeChange a d).svc = d.svc ∧ (Dev.completeChange a d).tb = d.tb ∧ (Dev.completeChange a d).clk = d.clk ∧ (Dev.completeChange a d).rst = d.rst ∧ (Dev.completeChange a d).pins = d.pins := by
  unfold Dev.completeChange; (repeat' split) <;> simp

@[simp] theorem Dev.completeAll_frame (nos : List Nat) (d : Dev) :
    (Dev.completeAll nos d).now = d.now ∧ (Dev.completeAll nos d).regs = d.regs ∧ (Dev.completeAll nos d).luts = d.luts ∧ (Dev.completeAll nos d).ledger = d.ledger ∧ (Dev.completeAll nos d).turn = d.turn ∧ (Dev.completeAll nos d).lastTurn = d.lastTurn ∧ (Dev.completeAll nos d).canvases = d.canvases ∧ (Dev.completeAll nos d).comp = d.comp ∧ (Dev.completeAll nos d).ports = d.ports ∧ (Dev.completeAll nos d).chans = d.chans ∧ (Dev.completeAll nos d).timers = d.timers ∧ (Dev.completeAll nos d).mrv = d.mrv ∧ (Dev.completeAll nos d).engines = d.engines ∧ (Dev.completeAll nos d).regions = d.regions ∧ (Dev.completeAll nos d).svc = d.svc ∧ (Dev.completeAll nos d).tb = d.tb ∧ (Dev.completeAll nos d).clk = d.clk ∧ (Dev.completeAll nos d).rst = d.rst ∧ (Dev.completeAll nos d).pins = d.pins := by
  unfold Dev.completeAll
  refine ⟨foldl_now _ (fun d n => ?_) _ _, foldl_regs _ (fun d n => ?_) _ _, foldl_luts _ (fun d n => ?_) _ _, foldl_ledger _ (fun d n => ?_) _ _, foldl_turn _ (fun d n => ?_) _ _, foldl_lastTurn _ (fun d n => ?_) _ _, foldl_canvases _ (fun d n => ?_) _ _, foldl_comp _ (fun d n => ?_) _ _, foldl_ports _ (fun d n => ?_) _ _, foldl_chans _ (fun d n => ?_) _ _, foldl_timers _ (fun d n => ?_) _ _, foldl_mrv _ (fun d n => ?_) _ _, foldl_engines _ (fun d n => ?_) _ _, foldl_regions _ (fun d n => ?_) _ _, foldl_svc _ (fun d n => ?_) _ _, foldl_tb _ (fun d n => ?_) _ _, foldl_clk _ (fun d n => ?_) _ _, foldl_rst _ (fun d n => ?_) _ _, foldl_pins _ (fun d n => ?_) _ _⟩ <;> (split; split <;> simp; rfl)

@[simp] theorem Dev.applyLock_frame (c : Nat) (w : Word) (d : Dev) :
    (Dev.applyLock c w d).now = d.now ∧ (Dev.applyLock c w d).luts = d.luts ∧ (Dev.applyLock c w d).mem = d.mem ∧ (Dev.applyLock c w d).scene = d.scene ∧ (Dev.applyLock c w d).ledger = d.ledger ∧ (Dev.applyLock c w d).queues = d.queues ∧ (Dev.applyLock c w d).turn = d.turn ∧ (Dev.applyLock c w d).lastTurn = d.lastTurn ∧ (Dev.applyLock c w d).rings = d.rings ∧ (Dev.applyLock c w d).comp = d.comp ∧ (Dev.applyLock c w d).ports = d.ports ∧ (Dev.applyLock c w d).chans = d.chans ∧ (Dev.applyLock c w d).timers = d.timers ∧ (Dev.applyLock c w d).mrv = d.mrv ∧ (Dev.applyLock c w d).engines = d.engines ∧ (Dev.applyLock c w d).regions = d.regions ∧ (Dev.applyLock c w d).mct = d.mct ∧ (Dev.applyLock c w d).cru = d.cru ∧ (Dev.applyLock c w d).acc = d.acc ∧ (Dev.applyLock c w d).flt = d.flt ∧ (Dev.applyLock c w d).svc = d.svc ∧ (Dev.applyLock c w d).tb = d.tb ∧ (Dev.applyLock c w d).clk = d.clk ∧ (Dev.applyLock c w d).rst = d.rst ∧ (Dev.applyLock c w d).hif = d.hif ∧ (Dev.applyLock c w d).pins = d.pins := by
  simp [Dev.applyLock]

@[simp] theorem Dev.applyWord_frame (c : Nat) (e : Nat × Word) (d : Dev) :
    (Dev.applyWord c e d).now = d.now ∧ (Dev.applyWord c e d).luts = d.luts ∧ (Dev.applyWord c e d).mem = d.mem ∧ (Dev.applyWord c e d).scene = d.scene ∧ (Dev.applyWord c e d).ledger = d.ledger ∧ (Dev.applyWord c e d).queues = d.queues ∧ (Dev.applyWord c e d).turn = d.turn ∧ (Dev.applyWord c e d).lastTurn = d.lastTurn ∧ (Dev.applyWord c e d).rings = d.rings ∧ (Dev.applyWord c e d).comp = d.comp ∧ (Dev.applyWord c e d).ports = d.ports ∧ (Dev.applyWord c e d).chans = d.chans ∧ (Dev.applyWord c e d).timers = d.timers ∧ (Dev.applyWord c e d).mrv = d.mrv ∧ (Dev.applyWord c e d).engines = d.engines ∧ (Dev.applyWord c e d).regions = d.regions ∧ (Dev.applyWord c e d).mct = d.mct ∧ (Dev.applyWord c e d).cru = d.cru ∧ (Dev.applyWord c e d).acc = d.acc ∧ (Dev.applyWord c e d).flt = d.flt ∧ (Dev.applyWord c e d).svc = d.svc ∧ (Dev.applyWord c e d).tb = d.tb ∧ (Dev.applyWord c e d).clk = d.clk ∧ (Dev.applyWord c e d).rst = d.rst ∧ (Dev.applyWord c e d).hif = d.hif ∧ (Dev.applyWord c e d).pins = d.pins := by
  simp [Dev.applyWord]

@[simp] theorem Dev.unadmit_frame (c : Nat) (l : List (Nat × Word)) (d : Dev) :
    (Dev.unadmit c l d).now = d.now ∧ (Dev.unadmit c l d).luts = d.luts ∧ (Dev.unadmit c l d).mem = d.mem ∧ (Dev.unadmit c l d).scene = d.scene ∧ (Dev.unadmit c l d).ledger = d.ledger ∧ (Dev.unadmit c l d).queues = d.queues ∧ (Dev.unadmit c l d).turn = d.turn ∧ (Dev.unadmit c l d).lastTurn = d.lastTurn ∧ (Dev.unadmit c l d).rings = d.rings ∧ (Dev.unadmit c l d).canvases = d.canvases ∧ (Dev.unadmit c l d).comp = d.comp ∧ (Dev.unadmit c l d).ports = d.ports ∧ (Dev.unadmit c l d).chans = d.chans ∧ (Dev.unadmit c l d).timers = d.timers ∧ (Dev.unadmit c l d).mrv = d.mrv ∧ (Dev.unadmit c l d).engines = d.engines ∧ (Dev.unadmit c l d).regions = d.regions ∧ (Dev.unadmit c l d).mct = d.mct ∧ (Dev.unadmit c l d).cru = d.cru ∧ (Dev.unadmit c l d).acc = d.acc ∧ (Dev.unadmit c l d).flt = d.flt ∧ (Dev.unadmit c l d).svc = d.svc ∧ (Dev.unadmit c l d).tb = d.tb ∧ (Dev.unadmit c l d).clk = d.clk ∧ (Dev.unadmit c l d).rst = d.rst ∧ (Dev.unadmit c l d).hif = d.hif ∧ (Dev.unadmit c l d).pins = d.pins := by
  simp [Dev.unadmit]

@[simp] theorem Dev.applyWords_frame (c : Nat) (l : List (Nat × Word)) (d : Dev) :
    (Dev.applyWords c l d).now = d.now ∧ (Dev.applyWords c l d).luts = d.luts ∧ (Dev.applyWords c l d).mem = d.mem ∧ (Dev.applyWords c l d).scene = d.scene ∧ (Dev.applyWords c l d).ledger = d.ledger ∧ (Dev.applyWords c l d).queues = d.queues ∧ (Dev.applyWords c l d).turn = d.turn ∧ (Dev.applyWords c l d).lastTurn = d.lastTurn ∧ (Dev.applyWords c l d).rings = d.rings ∧ (Dev.applyWords c l d).comp = d.comp ∧ (Dev.applyWords c l d).ports = d.ports ∧ (Dev.applyWords c l d).chans = d.chans ∧ (Dev.applyWords c l d).timers = d.timers ∧ (Dev.applyWords c l d).mrv = d.mrv ∧ (Dev.applyWords c l d).engines = d.engines ∧ (Dev.applyWords c l d).regions = d.regions ∧ (Dev.applyWords c l d).mct = d.mct ∧ (Dev.applyWords c l d).cru = d.cru ∧ (Dev.applyWords c l d).acc = d.acc ∧ (Dev.applyWords c l d).svc = d.svc ∧ (Dev.applyWords c l d).tb = d.tb ∧ (Dev.applyWords c l d).clk = d.clk ∧ (Dev.applyWords c l d).rst = d.rst ∧ (Dev.applyWords c l d).hif = d.hif ∧ (Dev.applyWords c l d).pins = d.pins := by
  simp [Dev.applyWords]

@[simp] theorem Dev.recordCand_frame (w : Decider) (txn : Option (BitVec 16)) (d : Dev) (x : Cand) :
    (Dev.recordCand w txn d x).now = d.now ∧ (Dev.recordCand w txn d x).regs = d.regs ∧ (Dev.recordCand w txn d x).luts = d.luts ∧ (Dev.recordCand w txn d x).mem = d.mem ∧ (Dev.recordCand w txn d x).scene = d.scene ∧ (Dev.recordCand w txn d x).ledger = d.ledger ∧ (Dev.recordCand w txn d x).queues = d.queues ∧ (Dev.recordCand w txn d x).turn = d.turn ∧ (Dev.recordCand w txn d x).lastTurn = d.lastTurn ∧ (Dev.recordCand w txn d x).rings = d.rings ∧ (Dev.recordCand w txn d x).comp = d.comp ∧ (Dev.recordCand w txn d x).ports = d.ports ∧ (Dev.recordCand w txn d x).chans = d.chans ∧ (Dev.recordCand w txn d x).timers = d.timers ∧ (Dev.recordCand w txn d x).mrv = d.mrv ∧ (Dev.recordCand w txn d x).engines = d.engines ∧ (Dev.recordCand w txn d x).regions = d.regions ∧ (Dev.recordCand w txn d x).mct = d.mct ∧ (Dev.recordCand w txn d x).cru = d.cru ∧ (Dev.recordCand w txn d x).acc = d.acc ∧ (Dev.recordCand w txn d x).flt = d.flt ∧ (Dev.recordCand w txn d x).svc = d.svc ∧ (Dev.recordCand w txn d x).tb = d.tb ∧ (Dev.recordCand w txn d x).clk = d.clk ∧ (Dev.recordCand w txn d x).rst = d.rst ∧ (Dev.recordCand w txn d x).hif = d.hif ∧ (Dev.recordCand w txn d x).pins = d.pins := by
  simp [Dev.recordCand]

@[simp] theorem Dev.closeDecision_frame (d : Dev) :
    (Dev.closeDecision d).now = d.now ∧ (Dev.closeDecision d).regs = d.regs ∧ (Dev.closeDecision d).luts = d.luts ∧ (Dev.closeDecision d).mem = d.mem ∧ (Dev.closeDecision d).scene = d.scene ∧ (Dev.closeDecision d).queues = d.queues ∧ (Dev.closeDecision d).turn = d.turn ∧ (Dev.closeDecision d).lastTurn = d.lastTurn ∧ (Dev.closeDecision d).rings = d.rings ∧ (Dev.closeDecision d).canvases = d.canvases ∧ (Dev.closeDecision d).comp = d.comp ∧ (Dev.closeDecision d).ports = d.ports ∧ (Dev.closeDecision d).chans = d.chans ∧ (Dev.closeDecision d).timers = d.timers ∧ (Dev.closeDecision d).mrv = d.mrv ∧ (Dev.closeDecision d).engines = d.engines ∧ (Dev.closeDecision d).regions = d.regions ∧ (Dev.closeDecision d).mct = d.mct ∧ (Dev.closeDecision d).cru = d.cru ∧ (Dev.closeDecision d).acc = d.acc ∧ (Dev.closeDecision d).svc = d.svc ∧ (Dev.closeDecision d).tb = d.tb ∧ (Dev.closeDecision d).clk = d.clk ∧ (Dev.closeDecision d).rst = d.rst ∧ (Dev.closeDecision d).hif = d.hif ∧ (Dev.closeDecision d).pins = d.pins := by
  simp [Dev.closeDecision]

@[simp] theorem Dev.enter_frame (a : Admitted) (d : Dev) :
    (Dev.enter a d).now = d.now ∧ (Dev.enter a d).luts = d.luts ∧ (Dev.enter a d).ledger = d.ledger ∧ (Dev.enter a d).turn = d.turn ∧ (Dev.enter a d).lastTurn = d.lastTurn ∧ (Dev.enter a d).comp = d.comp ∧ (Dev.enter a d).ports = d.ports ∧ (Dev.enter a d).chans = d.chans ∧ (Dev.enter a d).timers = d.timers ∧ (Dev.enter a d).mrv = d.mrv ∧ (Dev.enter a d).engines = d.engines ∧ (Dev.enter a d).regions = d.regions ∧ (Dev.enter a d).svc = d.svc ∧ (Dev.enter a d).tb = d.tb ∧ (Dev.enter a d).clk = d.clk ∧ (Dev.enter a d).rst = d.rst ∧ (Dev.enter a d).pins = d.pins := by
  simp [Dev.enter]

@[simp] theorem Dev.resum_frame (d : Dev) :
    (Dev.resum d).now = d.now ∧ (Dev.resum d).regs = d.regs ∧ (Dev.resum d).luts = d.luts ∧ (Dev.resum d).mem = d.mem ∧ (Dev.resum d).scene = d.scene ∧ (Dev.resum d).queues = d.queues ∧ (Dev.resum d).turn = d.turn ∧ (Dev.resum d).lastTurn = d.lastTurn ∧ (Dev.resum d).rings = d.rings ∧ (Dev.resum d).canvases = d.canvases ∧ (Dev.resum d).comp = d.comp ∧ (Dev.resum d).ports = d.ports ∧ (Dev.resum d).chans = d.chans ∧ (Dev.resum d).timers = d.timers ∧ (Dev.resum d).mrv = d.mrv ∧ (Dev.resum d).engines = d.engines ∧ (Dev.resum d).regions = d.regions ∧ (Dev.resum d).mct = d.mct ∧ (Dev.resum d).cru = d.cru ∧ (Dev.resum d).acc = d.acc ∧ (Dev.resum d).flt = d.flt ∧ (Dev.resum d).svc = d.svc ∧ (Dev.resum d).tb = d.tb ∧ (Dev.resum d).clk = d.clk ∧ (Dev.resum d).rst = d.rst ∧ (Dev.resum d).hif = d.hif ∧ (Dev.resum d).pins = d.pins := by
  simp [Dev.resum]

@[simp] theorem Dev.refigure_frame (c : Nat) (d : Dev) :
    (Dev.refigure c d).now = d.now ∧ (Dev.refigure c d).regs = d.regs ∧ (Dev.refigure c d).luts = d.luts ∧ (Dev.refigure c d).mem = d.mem ∧ (Dev.refigure c d).scene = d.scene ∧ (Dev.refigure c d).queues = d.queues ∧ (Dev.refigure c d).turn = d.turn ∧ (Dev.refigure c d).lastTurn = d.lastTurn ∧ (Dev.refigure c d).rings = d.rings ∧ (Dev.refigure c d).comp = d.comp ∧ (Dev.refigure c d).ports = d.ports ∧ (Dev.refigure c d).chans = d.chans ∧ (Dev.refigure c d).timers = d.timers ∧ (Dev.refigure c d).mrv = d.mrv ∧ (Dev.refigure c d).engines = d.engines ∧ (Dev.refigure c d).regions = d.regions ∧ (Dev.refigure c d).mct = d.mct ∧ (Dev.refigure c d).cru = d.cru ∧ (Dev.refigure c d).acc = d.acc ∧ (Dev.refigure c d).flt = d.flt ∧ (Dev.refigure c d).svc = d.svc ∧ (Dev.refigure c d).tb = d.tb ∧ (Dev.refigure c d).clk = d.clk ∧ (Dev.refigure c d).rst = d.rst ∧ (Dev.refigure c d).hif = d.hif ∧ (Dev.refigure c d).pins = d.pins := by
  simp [Dev.refigure]

@[simp] theorem Dev.discardAdmitted_frame (c : Nat) (a : Admitted) (d : Dev) :
    (Dev.discardAdmitted c a d).now = d.now ∧ (Dev.discardAdmitted c a d).regs = d.regs ∧ (Dev.discardAdmitted c a d).luts = d.luts ∧ (Dev.discardAdmitted c a d).queues = d.queues ∧ (Dev.discardAdmitted c a d).turn = d.turn ∧ (Dev.discardAdmitted c a d).lastTurn = d.lastTurn ∧ (Dev.discardAdmitted c a d).comp = d.comp ∧ (Dev.discardAdmitted c a d).ports = d.ports ∧ (Dev.discardAdmitted c a d).chans = d.chans ∧ (Dev.discardAdmitted c a d).timers = d.timers ∧ (Dev.discardAdmitted c a d).mrv = d.mrv ∧ (Dev.discardAdmitted c a d).engines = d.engines ∧ (Dev.discardAdmitted c a d).regions = d.regions ∧ (Dev.discardAdmitted c a d).svc = d.svc ∧ (Dev.discardAdmitted c a d).tb = d.tb ∧ (Dev.discardAdmitted c a d).clk = d.clk ∧ (Dev.discardAdmitted c a d).rst = d.rst ∧ (Dev.discardAdmitted c a d).pins = d.pins := by
  simp [Dev.discardAdmitted]

@[simp] theorem Dev.applyChange_frame (c : Nat) (d : Dev) (a : Admitted) :
    (Dev.applyChange c d a).now = d.now ∧ (Dev.applyChange c d a).luts = d.luts ∧ (Dev.applyChange c d a).queues = d.queues ∧ (Dev.applyChange c d a).turn = d.turn ∧ (Dev.applyChange c d a).lastTurn = d.lastTurn ∧ (Dev.applyChange c d a).comp = d.comp ∧ (Dev.applyChange c d a).ports = d.ports ∧ (Dev.applyChange c d a).chans = d.chans ∧ (Dev.applyChange c d a).timers = d.timers ∧ (Dev.applyChange c d a).mrv = d.mrv ∧ (Dev.applyChange c d a).engines = d.engines ∧ (Dev.applyChange c d a).regions = d.regions ∧ (Dev.applyChange c d a).svc = d.svc ∧ (Dev.applyChange c d a).tb = d.tb ∧ (Dev.applyChange c d a).clk = d.clk ∧ (Dev.applyChange c d a).rst = d.rst ∧ (Dev.applyChange c d a).pins = d.pins := by
  simp [Dev.applyChange]

@[simp] theorem Dev.applyOn_frame (c : Nat) (l : List Admitted) (d : Dev) :
    (Dev.applyOn c l d).now = d.now ∧ (Dev.applyOn c l d).luts = d.luts ∧ (Dev.applyOn c l d).turn = d.turn ∧ (Dev.applyOn c l d).lastTurn = d.lastTurn ∧ (Dev.applyOn c l d).comp = d.comp ∧ (Dev.applyOn c l d).ports = d.ports ∧ (Dev.applyOn c l d).chans = d.chans ∧ (Dev.applyOn c l d).timers = d.timers ∧ (Dev.applyOn c l d).mrv = d.mrv ∧ (Dev.applyOn c l d).engines = d.engines ∧ (Dev.applyOn c l d).regions = d.regions ∧ (Dev.applyOn c l d).svc = d.svc ∧ (Dev.applyOn c l d).tb = d.tb ∧ (Dev.applyOn c l d).clk = d.clk ∧ (Dev.applyOn c l d).rst = d.rst ∧ (Dev.applyOn c l d).pins = d.pins := by
  simp [Dev.applyOn]

@[simp] theorem Dev.refuseTxn_frame (t : Txn) (r : Refuse) (d : Dev) :
    (Dev.refuseTxn t r d).now = d.now ∧ (Dev.refuseTxn t r d).regs = d.regs ∧ (Dev.refuseTxn t r d).luts = d.luts ∧ (Dev.refuseTxn t r d).scene = d.scene ∧ (Dev.refuseTxn t r d).ledger = d.ledger ∧ (Dev.refuseTxn t r d).turn = d.turn ∧ (Dev.refuseTxn t r d).lastTurn = d.lastTurn ∧ (Dev.refuseTxn t r d).canvases = d.canvases ∧ (Dev.refuseTxn t r d).comp = d.comp ∧ (Dev.refuseTxn t r d).ports = d.ports ∧ (Dev.refuseTxn t r d).chans = d.chans ∧ (Dev.refuseTxn t r d).timers = d.timers ∧ (Dev.refuseTxn t r d).mrv = d.mrv ∧ (Dev.refuseTxn t r d).engines = d.engines ∧ (Dev.refuseTxn t r d).regions = d.regions ∧ (Dev.refuseTxn t r d).svc = d.svc ∧ (Dev.refuseTxn t r d).tb = d.tb ∧ (Dev.refuseTxn t r d).clk = d.clk ∧ (Dev.refuseTxn t r d).rst = d.rst ∧ (Dev.refuseTxn t r d).pins = d.pins := by
  unfold Dev.refuseTxn; (repeat' split) <;> simp

@[simp] theorem Dev.recordFlip_frame (w : Decider) (id : BitVec 16) (cands : List Cand) (d : Dev) :
    (Dev.recordFlip w id cands d).now = d.now ∧ (Dev.recordFlip w id cands d).regs = d.regs ∧ (Dev.recordFlip w id cands d).luts = d.luts ∧ (Dev.recordFlip w id cands d).mem = d.mem ∧ (Dev.recordFlip w id cands d).scene = d.scene ∧ (Dev.recordFlip w id cands d).ledger = d.ledger ∧ (Dev.recordFlip w id cands d).queues = d.queues ∧ (Dev.recordFlip w id cands d).turn = d.turn ∧ (Dev.recordFlip w id cands d).lastTurn = d.lastTurn ∧ (Dev.recordFlip w id cands d).rings = d.rings ∧ (Dev.recordFlip w id cands d).comp = d.comp ∧ (Dev.recordFlip w id cands d).ports = d.ports ∧ (Dev.recordFlip w id cands d).chans = d.chans ∧ (Dev.recordFlip w id cands d).timers = d.timers ∧ (Dev.recordFlip w id cands d).mrv = d.mrv ∧ (Dev.recordFlip w id cands d).engines = d.engines ∧ (Dev.recordFlip w id cands d).regions = d.regions ∧ (Dev.recordFlip w id cands d).mct = d.mct ∧ (Dev.recordFlip w id cands d).cru = d.cru ∧ (Dev.recordFlip w id cands d).acc = d.acc ∧ (Dev.recordFlip w id cands d).flt = d.flt ∧ (Dev.recordFlip w id cands d).svc = d.svc ∧ (Dev.recordFlip w id cands d).tb = d.tb ∧ (Dev.recordFlip w id cands d).clk = d.clk ∧ (Dev.recordFlip w id cands d).rst = d.rst ∧ (Dev.recordFlip w id cands d).hif = d.hif ∧ (Dev.recordFlip w id cands d).pins = d.pins := by
  simp [Dev.recordFlip]

@[simp] theorem Dev.commitTxn_frame (t : Txn) (d : Dev) :
    (Dev.commitTxn t d).now = d.now ∧ (Dev.commitTxn t d).luts = d.luts ∧ (Dev.commitTxn t d).ledger = d.ledger ∧ (Dev.commitTxn t d).turn = d.turn ∧ (Dev.commitTxn t d).lastTurn = d.lastTurn ∧ (Dev.commitTxn t d).comp = d.comp ∧ (Dev.commitTxn t d).ports = d.ports ∧ (Dev.commitTxn t d).chans = d.chans ∧ (Dev.commitTxn t d).timers = d.timers ∧ (Dev.commitTxn t d).mrv = d.mrv ∧ (Dev.commitTxn t d).engines = d.engines ∧ (Dev.commitTxn t d).regions = d.regions ∧ (Dev.commitTxn t d).svc = d.svc ∧ (Dev.commitTxn t d).tb = d.tb ∧ (Dev.commitTxn t d).clk = d.clk ∧ (Dev.commitTxn t d).rst = d.rst ∧ (Dev.commitTxn t d).pins = d.pins := by
  unfold Dev.commitTxn; try dsimp only
  (repeat' split) <;> simp

@[simp] theorem Dev.unstage_frame (c : Nat) (set : List (Nat × Word)) (d : Dev) :
    (Dev.unstage c set d).now = d.now ∧ (Dev.unstage c set d).luts = d.luts ∧ (Dev.unstage c set d).mem = d.mem ∧ (Dev.unstage c set d).scene = d.scene ∧ (Dev.unstage c set d).ledger = d.ledger ∧ (Dev.unstage c set d).queues = d.queues ∧ (Dev.unstage c set d).turn = d.turn ∧ (Dev.unstage c set d).lastTurn = d.lastTurn ∧ (Dev.unstage c set d).rings = d.rings ∧ (Dev.unstage c set d).canvases = d.canvases ∧ (Dev.unstage c set d).comp = d.comp ∧ (Dev.unstage c set d).ports = d.ports ∧ (Dev.unstage c set d).chans = d.chans ∧ (Dev.unstage c set d).timers = d.timers ∧ (Dev.unstage c set d).mrv = d.mrv ∧ (Dev.unstage c set d).engines = d.engines ∧ (Dev.unstage c set d).regions = d.regions ∧ (Dev.unstage c set d).mct = d.mct ∧ (Dev.unstage c set d).cru = d.cru ∧ (Dev.unstage c set d).acc = d.acc ∧ (Dev.unstage c set d).flt = d.flt ∧ (Dev.unstage c set d).svc = d.svc ∧ (Dev.unstage c set d).tb = d.tb ∧ (Dev.unstage c set d).clk = d.clk ∧ (Dev.unstage c set d).rst = d.rst ∧ (Dev.unstage c set d).hif = d.hif ∧ (Dev.unstage c set d).pins = d.pins := by
  simp [Dev.unstage]

@[simp] theorem Dev.refuseRegs_frame (c : Nat) (badView : Bool) (r : Refuse) (d : Dev) :
    (Dev.refuseRegs c badView r d).now = d.now ∧ (Dev.refuseRegs c badView r d).luts = d.luts ∧ (Dev.refuseRegs c badView r d).scene = d.scene ∧ (Dev.refuseRegs c badView r d).ledger = d.ledger ∧ (Dev.refuseRegs c badView r d).queues = d.queues ∧ (Dev.refuseRegs c badView r d).turn = d.turn ∧ (Dev.refuseRegs c badView r d).lastTurn = d.lastTurn ∧ (Dev.refuseRegs c badView r d).comp = d.comp ∧ (Dev.refuseRegs c badView r d).ports = d.ports ∧ (Dev.refuseRegs c badView r d).chans = d.chans ∧ (Dev.refuseRegs c badView r d).timers = d.timers ∧ (Dev.refuseRegs c badView r d).mrv = d.mrv ∧ (Dev.refuseRegs c badView r d).engines = d.engines ∧ (Dev.refuseRegs c badView r d).regions = d.regions ∧ (Dev.refuseRegs c badView r d).svc = d.svc ∧ (Dev.refuseRegs c badView r d).tb = d.tb ∧ (Dev.refuseRegs c badView r d).clk = d.clk ∧ (Dev.refuseRegs c badView r d).rst = d.rst ∧ (Dev.refuseRegs c badView r d).pins = d.pins := by
  simp [Dev.refuseRegs]

@[simp] theorem Dev.recordPrio_frame (c : Nat) (r : CanvasRegs) (d : Dev) :
    (Dev.recordPrio c r d).now = d.now ∧ (Dev.recordPrio c r d).regs = d.regs ∧ (Dev.recordPrio c r d).luts = d.luts ∧ (Dev.recordPrio c r d).mem = d.mem ∧ (Dev.recordPrio c r d).scene = d.scene ∧ (Dev.recordPrio c r d).ledger = d.ledger ∧ (Dev.recordPrio c r d).queues = d.queues ∧ (Dev.recordPrio c r d).turn = d.turn ∧ (Dev.recordPrio c r d).lastTurn = d.lastTurn ∧ (Dev.recordPrio c r d).rings = d.rings ∧ (Dev.recordPrio c r d).comp = d.comp ∧ (Dev.recordPrio c r d).ports = d.ports ∧ (Dev.recordPrio c r d).chans = d.chans ∧ (Dev.recordPrio c r d).timers = d.timers ∧ (Dev.recordPrio c r d).mrv = d.mrv ∧ (Dev.recordPrio c r d).engines = d.engines ∧ (Dev.recordPrio c r d).regions = d.regions ∧ (Dev.recordPrio c r d).mct = d.mct ∧ (Dev.recordPrio c r d).cru = d.cru ∧ (Dev.recordPrio c r d).acc = d.acc ∧ (Dev.recordPrio c r d).flt = d.flt ∧ (Dev.recordPrio c r d).svc = d.svc ∧ (Dev.recordPrio c r d).tb = d.tb ∧ (Dev.recordPrio c r d).clk = d.clk ∧ (Dev.recordPrio c r d).rst = d.rst ∧ (Dev.recordPrio c r d).hif = d.hif ∧ (Dev.recordPrio c r d).pins = d.pins := by
  simp [Dev.recordPrio]

@[simp] theorem Dev.commitSame_frame (c : Nat) (set : List (Nat × Word)) (d : Dev) :
    (Dev.commitSame c set d).now = d.now ∧ (Dev.commitSame c set d).luts = d.luts ∧ (Dev.commitSame c set d).ledger = d.ledger ∧ (Dev.commitSame c set d).turn = d.turn ∧ (Dev.commitSame c set d).lastTurn = d.lastTurn ∧ (Dev.commitSame c set d).comp = d.comp ∧ (Dev.commitSame c set d).ports = d.ports ∧ (Dev.commitSame c set d).chans = d.chans ∧ (Dev.commitSame c set d).timers = d.timers ∧ (Dev.commitSame c set d).mrv = d.mrv ∧ (Dev.commitSame c set d).engines = d.engines ∧ (Dev.commitSame c set d).regions = d.regions ∧ (Dev.commitSame c set d).svc = d.svc ∧ (Dev.commitSame c set d).tb = d.tb ∧ (Dev.commitSame c set d).clk = d.clk ∧ (Dev.commitSame c set d).rst = d.rst ∧ (Dev.commitSame c set d).pins = d.pins := by
  simp [Dev.commitSame]

@[simp] theorem Dev.commitIdle_frame (c : Nat) (set : List (Nat × Word)) (new : CanvasRegs) (d : Dev) :
    (Dev.commitIdle c set new d).now = d.now ∧ (Dev.commitIdle c set new d).luts = d.luts ∧ (Dev.commitIdle c set new d).ledger = d.ledger ∧ (Dev.commitIdle c set new d).turn = d.turn ∧ (Dev.commitIdle c set new d).lastTurn = d.lastTurn ∧ (Dev.commitIdle c set new d).comp = d.comp ∧ (Dev.commitIdle c set new d).ports = d.ports ∧ (Dev.commitIdle c set new d).chans = d.chans ∧ (Dev.commitIdle c set new d).timers = d.timers ∧ (Dev.commitIdle c set new d).mrv = d.mrv ∧ (Dev.commitIdle c set new d).engines = d.engines ∧ (Dev.commitIdle c set new d).regions = d.regions ∧ (Dev.commitIdle c set new d).svc = d.svc ∧ (Dev.commitIdle c set new d).tb = d.tb ∧ (Dev.commitIdle c set new d).clk = d.clk ∧ (Dev.commitIdle c set new d).rst = d.rst ∧ (Dev.commitIdle c set new d).pins = d.pins := by
  simp [Dev.commitIdle]

@[simp] theorem Dev.commitLive_frame (c : Nat) (set : List (Nat × Word)) (old : CanvasRegs) (new : CanvasRegs) (l : List Cand) (d : Dev) :
    (Dev.commitLive c set old new l d).now = d.now ∧ (Dev.commitLive c set old new l d).luts = d.luts ∧ (Dev.commitLive c set old new l d).ledger = d.ledger ∧ (Dev.commitLive c set old new l d).turn = d.turn ∧ (Dev.commitLive c set old new l d).lastTurn = d.lastTurn ∧ (Dev.commitLive c set old new l d).comp = d.comp ∧ (Dev.commitLive c set old new l d).ports = d.ports ∧ (Dev.commitLive c set old new l d).chans = d.chans ∧ (Dev.commitLive c set old new l d).timers = d.timers ∧ (Dev.commitLive c set old new l d).mrv = d.mrv ∧ (Dev.commitLive c set old new l d).engines = d.engines ∧ (Dev.commitLive c set old new l d).regions = d.regions ∧ (Dev.commitLive c set old new l d).svc = d.svc ∧ (Dev.commitLive c set old new l d).tb = d.tb ∧ (Dev.commitLive c set old new l d).clk = d.clk ∧ (Dev.commitLive c set old new l d).rst = d.rst ∧ (Dev.commitLive c set old new l d).pins = d.pins := by
  simp [Dev.commitLive]

@[simp] theorem Dev.commitRegs_frame (c : Nat) (set : List (Nat × Word)) (d : Dev) :
    (Dev.commitRegs c set d).now = d.now ∧ (Dev.commitRegs c set d).luts = d.luts ∧ (Dev.commitRegs c set d).ledger = d.ledger ∧ (Dev.commitRegs c set d).turn = d.turn ∧ (Dev.commitRegs c set d).lastTurn = d.lastTurn ∧ (Dev.commitRegs c set d).comp = d.comp ∧ (Dev.commitRegs c set d).ports = d.ports ∧ (Dev.commitRegs c set d).chans = d.chans ∧ (Dev.commitRegs c set d).timers = d.timers ∧ (Dev.commitRegs c set d).mrv = d.mrv ∧ (Dev.commitRegs c set d).engines = d.engines ∧ (Dev.commitRegs c set d).regions = d.regions ∧ (Dev.commitRegs c set d).svc = d.svc ∧ (Dev.commitRegs c set d).tb = d.tb ∧ (Dev.commitRegs c set d).clk = d.clk ∧ (Dev.commitRegs c set d).rst = d.rst ∧ (Dev.commitRegs c set d).pins = d.pins := by
  unfold Dev.commitRegs; try dsimp only
  (repeat' split) <;> simp

@[simp] theorem Dev.refuseEnable_frame (c : Nat) (r : Refuse) (d : Dev) :
    (Dev.refuseEnable c r d).now = d.now ∧ (Dev.refuseEnable c r d).regs = d.regs ∧ (Dev.refuseEnable c r d).luts = d.luts ∧ (Dev.refuseEnable c r d).scene = d.scene ∧ (Dev.refuseEnable c r d).ledger = d.ledger ∧ (Dev.refuseEnable c r d).queues = d.queues ∧ (Dev.refuseEnable c r d).turn = d.turn ∧ (Dev.refuseEnable c r d).lastTurn = d.lastTurn ∧ (Dev.refuseEnable c r d).comp = d.comp ∧ (Dev.refuseEnable c r d).ports = d.ports ∧ (Dev.refuseEnable c r d).chans = d.chans ∧ (Dev.refuseEnable c r d).timers = d.timers ∧ (Dev.refuseEnable c r d).mrv = d.mrv ∧ (Dev.refuseEnable c r d).engines = d.engines ∧ (Dev.refuseEnable c r d).regions = d.regions ∧ (Dev.refuseEnable c r d).svc = d.svc ∧ (Dev.refuseEnable c r d).tb = d.tb ∧ (Dev.refuseEnable c r d).clk = d.clk ∧ (Dev.refuseEnable c r d).rst = d.rst ∧ (Dev.refuseEnable c r d).pins = d.pins := by
  simp [Dev.refuseEnable]

@[simp] theorem Dev.startCanvas_frame (c : Nat) (d : Dev) :
    (Dev.startCanvas c d).now = d.now ∧ (Dev.startCanvas c d).regs = d.regs ∧ (Dev.startCanvas c d).luts = d.luts ∧ (Dev.startCanvas c d).mem = d.mem ∧ (Dev.startCanvas c d).scene = d.scene ∧ (Dev.startCanvas c d).ledger = d.ledger ∧ (Dev.startCanvas c d).queues = d.queues ∧ (Dev.startCanvas c d).turn = d.turn ∧ (Dev.startCanvas c d).lastTurn = d.lastTurn ∧ (Dev.startCanvas c d).rings = d.rings ∧ (Dev.startCanvas c d).comp = d.comp ∧ (Dev.startCanvas c d).ports = d.ports ∧ (Dev.startCanvas c d).chans = d.chans ∧ (Dev.startCanvas c d).timers = d.timers ∧ (Dev.startCanvas c d).mrv = d.mrv ∧ (Dev.startCanvas c d).engines = d.engines ∧ (Dev.startCanvas c d).regions = d.regions ∧ (Dev.startCanvas c d).mct = d.mct ∧ (Dev.startCanvas c d).cru = d.cru ∧ (Dev.startCanvas c d).acc = d.acc ∧ (Dev.startCanvas c d).flt = d.flt ∧ (Dev.startCanvas c d).svc = d.svc ∧ (Dev.startCanvas c d).tb = d.tb ∧ (Dev.startCanvas c d).clk = d.clk ∧ (Dev.startCanvas c d).rst = d.rst ∧ (Dev.startCanvas c d).hif = d.hif ∧ (Dev.startCanvas c d).pins = d.pins := by
  simp [Dev.startCanvas]

@[simp] theorem Dev.commitEnable_frame (c : Nat) (d : Dev) :
    (Dev.commitEnable c d).now = d.now ∧ (Dev.commitEnable c d).luts = d.luts ∧ (Dev.commitEnable c d).ledger = d.ledger ∧ (Dev.commitEnable c d).turn = d.turn ∧ (Dev.commitEnable c d).lastTurn = d.lastTurn ∧ (Dev.commitEnable c d).comp = d.comp ∧ (Dev.commitEnable c d).ports = d.ports ∧ (Dev.commitEnable c d).chans = d.chans ∧ (Dev.commitEnable c d).timers = d.timers ∧ (Dev.commitEnable c d).mrv = d.mrv ∧ (Dev.commitEnable c d).engines = d.engines ∧ (Dev.commitEnable c d).regions = d.regions ∧ (Dev.commitEnable c d).svc = d.svc ∧ (Dev.commitEnable c d).tb = d.tb ∧ (Dev.commitEnable c d).clk = d.clk ∧ (Dev.commitEnable c d).rst = d.rst ∧ (Dev.commitEnable c d).pins = d.pins := by
  unfold Dev.commitEnable; try dsimp only
  (repeat' split) <;> simp

@[simp] theorem Dev.commitFlip_frame (fn : Nat) (win : Nat) (a : Nat) (b : Nat) (d : Dev) :
    (Dev.commitFlip fn win a b d).now = d.now ∧ (Dev.commitFlip fn win a b d).luts = d.luts ∧ (Dev.commitFlip fn win a b d).ledger = d.ledger ∧ (Dev.commitFlip fn win a b d).turn = d.turn ∧ (Dev.commitFlip fn win a b d).lastTurn = d.lastTurn ∧ (Dev.commitFlip fn win a b d).comp = d.comp ∧ (Dev.commitFlip fn win a b d).ports = d.ports ∧ (Dev.commitFlip fn win a b d).chans = d.chans ∧ (Dev.commitFlip fn win a b d).timers = d.timers ∧ (Dev.commitFlip fn win a b d).mrv = d.mrv ∧ (Dev.commitFlip fn win a b d).engines = d.engines ∧ (Dev.commitFlip fn win a b d).regions = d.regions ∧ (Dev.commitFlip fn win a b d).svc = d.svc ∧ (Dev.commitFlip fn win a b d).tb = d.tb ∧ (Dev.commitFlip fn win a b d).clk = d.clk ∧ (Dev.commitFlip fn win a b d).rst = d.rst ∧ (Dev.commitFlip fn win a b d).pins = d.pins := by
  unfold Dev.commitFlip; try dsimp only
  (repeat' split) <;> simp

@[simp] theorem Dev.commitClear_frame (v : Nat) (wins : List Nat) (lent : Nat) (d : Dev) :
    (Dev.commitClear v wins lent d).now = d.now ∧ (Dev.commitClear v wins lent d).luts = d.luts ∧ (Dev.commitClear v wins lent d).ledger = d.ledger ∧ (Dev.commitClear v wins lent d).turn = d.turn ∧ (Dev.commitClear v wins lent d).lastTurn = d.lastTurn ∧ (Dev.commitClear v wins lent d).comp = d.comp ∧ (Dev.commitClear v wins lent d).ports = d.ports ∧ (Dev.commitClear v wins lent d).chans = d.chans ∧ (Dev.commitClear v wins lent d).timers = d.timers ∧ (Dev.commitClear v wins lent d).mrv = d.mrv ∧ (Dev.commitClear v wins lent d).engines = d.engines ∧ (Dev.commitClear v wins lent d).regions = d.regions ∧ (Dev.commitClear v wins lent d).svc = d.svc ∧ (Dev.commitClear v wins lent d).tb = d.tb ∧ (Dev.commitClear v wins lent d).clk = d.clk ∧ (Dev.commitClear v wins lent d).rst = d.rst ∧ (Dev.commitClear v wins lent d).pins = d.pins := by
  simp [Dev.commitClear]

@[simp] theorem commitPoint_frame (d : Dev) :
    (commitPoint d).now = d.now ∧ (commitPoint d).luts = d.luts ∧ (commitPoint d).turn = d.turn ∧ (commitPoint d).lastTurn = d.lastTurn ∧ (commitPoint d).comp = d.comp ∧ (commitPoint d).ports = d.ports ∧ (commitPoint d).chans = d.chans ∧ (commitPoint d).timers = d.timers ∧ (commitPoint d).mrv = d.mrv ∧ (commitPoint d).engines = d.engines ∧ (commitPoint d).regions = d.regions ∧ (commitPoint d).svc = d.svc ∧ (commitPoint d).tb = d.tb ∧ (commitPoint d).clk = d.clk ∧ (commitPoint d).rst = d.rst ∧ (commitPoint d).pins = d.pins := by
  unfold commitPoint; (repeat' split) <;> simp

@[simp] theorem Dev.reevaluate_frame (cause : Nat) (d : Dev) :
    (Dev.reevaluate cause d).now = d.now ∧ (Dev.reevaluate cause d).regs = d.regs ∧ (Dev.reevaluate cause d).luts = d.luts ∧ (Dev.reevaluate cause d).mem = d.mem ∧ (Dev.reevaluate cause d).scene = d.scene ∧ (Dev.reevaluate cause d).queues = d.queues ∧ (Dev.reevaluate cause d).turn = d.turn ∧ (Dev.reevaluate cause d).lastTurn = d.lastTurn ∧ (Dev.reevaluate cause d).rings = d.rings ∧ (Dev.reevaluate cause d).comp = d.comp ∧ (Dev.reevaluate cause d).ports = d.ports ∧ (Dev.reevaluate cause d).chans = d.chans ∧ (Dev.reevaluate cause d).timers = d.timers ∧ (Dev.reevaluate cause d).mrv = d.mrv ∧ (Dev.reevaluate cause d).engines = d.engines ∧ (Dev.reevaluate cause d).regions = d.regions ∧ (Dev.reevaluate cause d).mct = d.mct ∧ (Dev.reevaluate cause d).cru = d.cru ∧ (Dev.reevaluate cause d).acc = d.acc ∧ (Dev.reevaluate cause d).svc = d.svc ∧ (Dev.reevaluate cause d).tb = d.tb ∧ (Dev.reevaluate cause d).rst = d.rst ∧ (Dev.reevaluate cause d).hif = d.hif ∧ (Dev.reevaluate cause d).pins = d.pins := by
  simp [Dev.reevaluate]

@[simp] theorem reevaluation_frame (d : Dev) :
    (reevaluation d).now = d.now ∧ (reevaluation d).regs = d.regs ∧ (reevaluation d).luts = d.luts ∧ (reevaluation d).mem = d.mem ∧ (reevaluation d).queues = d.queues ∧ (reevaluation d).turn = d.turn ∧ (reevaluation d).lastTurn = d.lastTurn ∧ (reevaluation d).rings = d.rings ∧ (reevaluation d).comp = d.comp ∧ (reevaluation d).ports = d.ports ∧ (reevaluation d).chans = d.chans ∧ (reevaluation d).timers = d.timers ∧ (reevaluation d).mrv = d.mrv ∧ (reevaluation d).engines = d.engines ∧ (reevaluation d).regions = d.regions ∧ (reevaluation d).mct = d.mct ∧ (reevaluation d).cru = d.cru ∧ (reevaluation d).acc = d.acc ∧ (reevaluation d).svc = d.svc ∧ (reevaluation d).tb = d.tb ∧ (reevaluation d).rst = d.rst ∧ (reevaluation d).hif = d.hif ∧ (reevaluation d).pins = d.pins := by
  unfold reevaluation; (repeat' split) <;> simp

@[simp] theorem Dev.updatePair_frame (d : Dev) (n : Nat) :
    (Dev.updatePair d n).now = d.now ∧ (Dev.updatePair d n).regs = d.regs ∧ (Dev.updatePair d n).luts = d.luts ∧ (Dev.updatePair d n).mem = d.mem ∧ (Dev.updatePair d n).scene = d.scene ∧ (Dev.updatePair d n).ledger = d.ledger ∧ (Dev.updatePair d n).queues = d.queues ∧ (Dev.updatePair d n).turn = d.turn ∧ (Dev.updatePair d n).lastTurn = d.lastTurn ∧ (Dev.updatePair d n).rings = d.rings ∧ (Dev.updatePair d n).canvases = d.canvases ∧ (Dev.updatePair d n).comp = d.comp ∧ (Dev.updatePair d n).chans = d.chans ∧ (Dev.updatePair d n).timers = d.timers ∧ (Dev.updatePair d n).mrv = d.mrv ∧ (Dev.updatePair d n).engines = d.engines ∧ (Dev.updatePair d n).regions = d.regions ∧ (Dev.updatePair d n).mct = d.mct ∧ (Dev.updatePair d n).cru = d.cru ∧ (Dev.updatePair d n).acc = d.acc ∧ (Dev.updatePair d n).flt = d.flt ∧ (Dev.updatePair d n).svc = d.svc ∧ (Dev.updatePair d n).tb = d.tb ∧ (Dev.updatePair d n).clk = d.clk ∧ (Dev.updatePair d n).rst = d.rst ∧ (Dev.updatePair d n).hif = d.hif ∧ (Dev.updatePair d n).pins = d.pins := by
  simp [Dev.updatePair]

@[simp] theorem Dev.updatePairs_frame (d : Dev) :
    (Dev.updatePairs d).now = d.now ∧ (Dev.updatePairs d).regs = d.regs ∧ (Dev.updatePairs d).luts = d.luts ∧ (Dev.updatePairs d).mem = d.mem ∧ (Dev.updatePairs d).scene = d.scene ∧ (Dev.updatePairs d).ledger = d.ledger ∧ (Dev.updatePairs d).queues = d.queues ∧ (Dev.updatePairs d).turn = d.turn ∧ (Dev.updatePairs d).lastTurn = d.lastTurn ∧ (Dev.updatePairs d).rings = d.rings ∧ (Dev.updatePairs d).canvases = d.canvases ∧ (Dev.updatePairs d).comp = d.comp ∧ (Dev.updatePairs d).chans = d.chans ∧ (Dev.updatePairs d).timers = d.timers ∧ (Dev.updatePairs d).mrv = d.mrv ∧ (Dev.updatePairs d).engines = d.engines ∧ (Dev.updatePairs d).regions = d.regions ∧ (Dev.updatePairs d).mct = d.mct ∧ (Dev.updatePairs d).cru = d.cru ∧ (Dev.updatePairs d).acc = d.acc ∧ (Dev.updatePairs d).flt = d.flt ∧ (Dev.updatePairs d).svc = d.svc ∧ (Dev.updatePairs d).tb = d.tb ∧ (Dev.updatePairs d).clk = d.clk ∧ (Dev.updatePairs d).rst = d.rst ∧ (Dev.updatePairs d).hif = d.hif ∧ (Dev.updatePairs d).pins = d.pins := by
  simp [Dev.updatePairs]

@[simp] theorem Dev.trigger_frame (n : Nat) (kind : Nat) (d : Dev) :
    (Dev.trigger n kind d).now = d.now ∧ (Dev.trigger n kind d).regs = d.regs ∧ (Dev.trigger n kind d).luts = d.luts ∧ (Dev.trigger n kind d).mem = d.mem ∧ (Dev.trigger n kind d).scene = d.scene ∧ (Dev.trigger n kind d).ledger = d.ledger ∧ (Dev.trigger n kind d).queues = d.queues ∧ (Dev.trigger n kind d).turn = d.turn ∧ (Dev.trigger n kind d).lastTurn = d.lastTurn ∧ (Dev.trigger n kind d).rings = d.rings ∧ (Dev.trigger n kind d).canvases = d.canvases ∧ (Dev.trigger n kind d).comp = d.comp ∧ (Dev.trigger n kind d).chans = d.chans ∧ (Dev.trigger n kind d).timers = d.timers ∧ (Dev.trigger n kind d).mrv = d.mrv ∧ (Dev.trigger n kind d).engines = d.engines ∧ (Dev.trigger n kind d).regions = d.regions ∧ (Dev.trigger n kind d).mct = d.mct ∧ (Dev.trigger n kind d).cru = d.cru ∧ (Dev.trigger n kind d).acc = d.acc ∧ (Dev.trigger n kind d).svc = d.svc ∧ (Dev.trigger n kind d).tb = d.tb ∧ (Dev.trigger n kind d).clk = d.clk ∧ (Dev.trigger n kind d).rst = d.rst ∧ (Dev.trigger n kind d).hif = d.hif ∧ (Dev.trigger n kind d).pins = d.pins := by
  simp [Dev.trigger]

@[simp] theorem Dev.recovered_frame (n : Nat) (d : Dev) :
    (Dev.recovered n d).now = d.now ∧ (Dev.recovered n d).regs = d.regs ∧ (Dev.recovered n d).luts = d.luts ∧ (Dev.recovered n d).mem = d.mem ∧ (Dev.recovered n d).scene = d.scene ∧ (Dev.recovered n d).ledger = d.ledger ∧ (Dev.recovered n d).queues = d.queues ∧ (Dev.recovered n d).turn = d.turn ∧ (Dev.recovered n d).lastTurn = d.lastTurn ∧ (Dev.recovered n d).rings = d.rings ∧ (Dev.recovered n d).canvases = d.canvases ∧ (Dev.recovered n d).comp = d.comp ∧ (Dev.recovered n d).chans = d.chans ∧ (Dev.recovered n d).timers = d.timers ∧ (Dev.recovered n d).mrv = d.mrv ∧ (Dev.recovered n d).engines = d.engines ∧ (Dev.recovered n d).regions = d.regions ∧ (Dev.recovered n d).mct = d.mct ∧ (Dev.recovered n d).cru = d.cru ∧ (Dev.recovered n d).acc = d.acc ∧ (Dev.recovered n d).flt = d.flt ∧ (Dev.recovered n d).svc = d.svc ∧ (Dev.recovered n d).tb = d.tb ∧ (Dev.recovered n d).clk = d.clk ∧ (Dev.recovered n d).rst = d.rst ∧ (Dev.recovered n d).hif = d.hif ∧ (Dev.recovered n d).pins = d.pins := by
  simp [Dev.recovered]

@[simp] theorem Dev.takeFmt_frame (n : Nat) (d : Dev) :
    (Dev.takeFmt n d).now = d.now ∧ (Dev.takeFmt n d).luts = d.luts ∧ (Dev.takeFmt n d).mem = d.mem ∧ (Dev.takeFmt n d).scene = d.scene ∧ (Dev.takeFmt n d).ledger = d.ledger ∧ (Dev.takeFmt n d).queues = d.queues ∧ (Dev.takeFmt n d).turn = d.turn ∧ (Dev.takeFmt n d).lastTurn = d.lastTurn ∧ (Dev.takeFmt n d).rings = d.rings ∧ (Dev.takeFmt n d).canvases = d.canvases ∧ (Dev.takeFmt n d).comp = d.comp ∧ (Dev.takeFmt n d).chans = d.chans ∧ (Dev.takeFmt n d).timers = d.timers ∧ (Dev.takeFmt n d).mrv = d.mrv ∧ (Dev.takeFmt n d).engines = d.engines ∧ (Dev.takeFmt n d).regions = d.regions ∧ (Dev.takeFmt n d).mct = d.mct ∧ (Dev.takeFmt n d).cru = d.cru ∧ (Dev.takeFmt n d).acc = d.acc ∧ (Dev.takeFmt n d).flt = d.flt ∧ (Dev.takeFmt n d).svc = d.svc ∧ (Dev.takeFmt n d).tb = d.tb ∧ (Dev.takeFmt n d).clk = d.clk ∧ (Dev.takeFmt n d).rst = d.rst ∧ (Dev.takeFmt n d).hif = d.hif ∧ (Dev.takeFmt n d).pins = d.pins := by
  unfold Dev.takeFmt; (repeat' split) <;> simp

@[simp] theorem Dev.startTraining_frame (n : Nat) (d : Dev) :
    (Dev.startTraining n d).now = d.now ∧ (Dev.startTraining n d).luts = d.luts ∧ (Dev.startTraining n d).mem = d.mem ∧ (Dev.startTraining n d).scene = d.scene ∧ (Dev.startTraining n d).ledger = d.ledger ∧ (Dev.startTraining n d).queues = d.queues ∧ (Dev.startTraining n d).turn = d.turn ∧ (Dev.startTraining n d).lastTurn = d.lastTurn ∧ (Dev.startTraining n d).rings = d.rings ∧ (Dev.startTraining n d).canvases = d.canvases ∧ (Dev.startTraining n d).comp = d.comp ∧ (Dev.startTraining n d).chans = d.chans ∧ (Dev.startTraining n d).timers = d.timers ∧ (Dev.startTraining n d).mrv = d.mrv ∧ (Dev.startTraining n d).engines = d.engines ∧ (Dev.startTraining n d).regions = d.regions ∧ (Dev.startTraining n d).mct = d.mct ∧ (Dev.startTraining n d).cru = d.cru ∧ (Dev.startTraining n d).acc = d.acc ∧ (Dev.startTraining n d).flt = d.flt ∧ (Dev.startTraining n d).svc = d.svc ∧ (Dev.startTraining n d).tb = d.tb ∧ (Dev.startTraining n d).clk = d.clk ∧ (Dev.startTraining n d).rst = d.rst ∧ (Dev.startTraining n d).hif = d.hif ∧ (Dev.startTraining n d).pins = d.pins := by
  simp [Dev.startTraining]

@[simp] theorem Dev.stopVideo_frame (n : Nat) (d : Dev) :
    (Dev.stopVideo n d).now = d.now ∧ (Dev.stopVideo n d).luts = d.luts ∧ (Dev.stopVideo n d).mem = d.mem ∧ (Dev.stopVideo n d).scene = d.scene ∧ (Dev.stopVideo n d).ledger = d.ledger ∧ (Dev.stopVideo n d).queues = d.queues ∧ (Dev.stopVideo n d).turn = d.turn ∧ (Dev.stopVideo n d).lastTurn = d.lastTurn ∧ (Dev.stopVideo n d).rings = d.rings ∧ (Dev.stopVideo n d).canvases = d.canvases ∧ (Dev.stopVideo n d).comp = d.comp ∧ (Dev.stopVideo n d).chans = d.chans ∧ (Dev.stopVideo n d).timers = d.timers ∧ (Dev.stopVideo n d).mrv = d.mrv ∧ (Dev.stopVideo n d).engines = d.engines ∧ (Dev.stopVideo n d).regions = d.regions ∧ (Dev.stopVideo n d).mct = d.mct ∧ (Dev.stopVideo n d).cru = d.cru ∧ (Dev.stopVideo n d).acc = d.acc ∧ (Dev.stopVideo n d).flt = d.flt ∧ (Dev.stopVideo n d).svc = d.svc ∧ (Dev.stopVideo n d).tb = d.tb ∧ (Dev.stopVideo n d).clk = d.clk ∧ (Dev.stopVideo n d).rst = d.rst ∧ (Dev.stopVideo n d).hif = d.hif ∧ (Dev.stopVideo n d).pins = d.pins := by
  simp [Dev.stopVideo]

@[simp] theorem Dev.endVideo_frame (n : Nat) (d : Dev) :
    (Dev.endVideo n d).now = d.now ∧ (Dev.endVideo n d).luts = d.luts ∧ (Dev.endVideo n d).mem = d.mem ∧ (Dev.endVideo n d).scene = d.scene ∧ (Dev.endVideo n d).ledger = d.ledger ∧ (Dev.endVideo n d).queues = d.queues ∧ (Dev.endVideo n d).turn = d.turn ∧ (Dev.endVideo n d).lastTurn = d.lastTurn ∧ (Dev.endVideo n d).rings = d.rings ∧ (Dev.endVideo n d).canvases = d.canvases ∧ (Dev.endVideo n d).comp = d.comp ∧ (Dev.endVideo n d).chans = d.chans ∧ (Dev.endVideo n d).timers = d.timers ∧ (Dev.endVideo n d).mrv = d.mrv ∧ (Dev.endVideo n d).engines = d.engines ∧ (Dev.endVideo n d).regions = d.regions ∧ (Dev.endVideo n d).mct = d.mct ∧ (Dev.endVideo n d).cru = d.cru ∧ (Dev.endVideo n d).acc = d.acc ∧ (Dev.endVideo n d).flt = d.flt ∧ (Dev.endVideo n d).svc = d.svc ∧ (Dev.endVideo n d).tb = d.tb ∧ (Dev.endVideo n d).clk = d.clk ∧ (Dev.endVideo n d).rst = d.rst ∧ (Dev.endVideo n d).hif = d.hif ∧ (Dev.endVideo n d).pins = d.pins := by
  simp [Dev.endVideo]

@[simp] theorem Dev.enterNoSink_frame (n : Nat) (d : Dev) :
    (Dev.enterNoSink n d).now = d.now ∧ (Dev.enterNoSink n d).regs = d.regs ∧ (Dev.enterNoSink n d).luts = d.luts ∧ (Dev.enterNoSink n d).mem = d.mem ∧ (Dev.enterNoSink n d).scene = d.scene ∧ (Dev.enterNoSink n d).ledger = d.ledger ∧ (Dev.enterNoSink n d).queues = d.queues ∧ (Dev.enterNoSink n d).turn = d.turn ∧ (Dev.enterNoSink n d).lastTurn = d.lastTurn ∧ (Dev.enterNoSink n d).rings = d.rings ∧ (Dev.enterNoSink n d).canvases = d.canvases ∧ (Dev.enterNoSink n d).comp = d.comp ∧ (Dev.enterNoSink n d).chans = d.chans ∧ (Dev.enterNoSink n d).timers = d.timers ∧ (Dev.enterNoSink n d).mrv = d.mrv ∧ (Dev.enterNoSink n d).engines = d.engines ∧ (Dev.enterNoSink n d).regions = d.regions ∧ (Dev.enterNoSink n d).mct = d.mct ∧ (Dev.enterNoSink n d).cru = d.cru ∧ (Dev.enterNoSink n d).acc = d.acc ∧ (Dev.enterNoSink n d).svc = d.svc ∧ (Dev.enterNoSink n d).tb = d.tb ∧ (Dev.enterNoSink n d).clk = d.clk ∧ (Dev.enterNoSink n d).rst = d.rst ∧ (Dev.enterNoSink n d).hif = d.hif ∧ (Dev.enterNoSink n d).pins = d.pins := by
  simp [Dev.enterNoSink]

@[simp] theorem Dev.auxFree_frame (n : Nat) (d : Dev) :
    (Dev.auxFree n d).now = d.now ∧ (Dev.auxFree n d).regs = d.regs ∧ (Dev.auxFree n d).luts = d.luts ∧ (Dev.auxFree n d).mem = d.mem ∧ (Dev.auxFree n d).scene = d.scene ∧ (Dev.auxFree n d).ledger = d.ledger ∧ (Dev.auxFree n d).queues = d.queues ∧ (Dev.auxFree n d).turn = d.turn ∧ (Dev.auxFree n d).lastTurn = d.lastTurn ∧ (Dev.auxFree n d).rings = d.rings ∧ (Dev.auxFree n d).canvases = d.canvases ∧ (Dev.auxFree n d).comp = d.comp ∧ (Dev.auxFree n d).chans = d.chans ∧ (Dev.auxFree n d).timers = d.timers ∧ (Dev.auxFree n d).mrv = d.mrv ∧ (Dev.auxFree n d).engines = d.engines ∧ (Dev.auxFree n d).regions = d.regions ∧ (Dev.auxFree n d).mct = d.mct ∧ (Dev.auxFree n d).cru = d.cru ∧ (Dev.auxFree n d).acc = d.acc ∧ (Dev.auxFree n d).flt = d.flt ∧ (Dev.auxFree n d).svc = d.svc ∧ (Dev.auxFree n d).tb = d.tb ∧ (Dev.auxFree n d).clk = d.clk ∧ (Dev.auxFree n d).rst = d.rst ∧ (Dev.auxFree n d).hif = d.hif ∧ (Dev.auxFree n d).pins = d.pins := by
  simp [Dev.auxFree]

@[simp] theorem Dev.relinkProgress_frame (c : Nat) (d : Dev) :
    (Dev.relinkProgress c d).now = d.now ∧ (Dev.relinkProgress c d).regs = d.regs ∧ (Dev.relinkProgress c d).luts = d.luts ∧ (Dev.relinkProgress c d).mem = d.mem ∧ (Dev.relinkProgress c d).scene = d.scene ∧ (Dev.relinkProgress c d).ledger = d.ledger ∧ (Dev.relinkProgress c d).queues = d.queues ∧ (Dev.relinkProgress c d).turn = d.turn ∧ (Dev.relinkProgress c d).lastTurn = d.lastTurn ∧ (Dev.relinkProgress c d).rings = d.rings ∧ (Dev.relinkProgress c d).comp = d.comp ∧ (Dev.relinkProgress c d).ports = d.ports ∧ (Dev.relinkProgress c d).chans = d.chans ∧ (Dev.relinkProgress c d).timers = d.timers ∧ (Dev.relinkProgress c d).mrv = d.mrv ∧ (Dev.relinkProgress c d).engines = d.engines ∧ (Dev.relinkProgress c d).regions = d.regions ∧ (Dev.relinkProgress c d).mct = d.mct ∧ (Dev.relinkProgress c d).cru = d.cru ∧ (Dev.relinkProgress c d).acc = d.acc ∧ (Dev.relinkProgress c d).flt = d.flt ∧ (Dev.relinkProgress c d).svc = d.svc ∧ (Dev.relinkProgress c d).tb = d.tb ∧ (Dev.relinkProgress c d).clk = d.clk ∧ (Dev.relinkProgress c d).rst = d.rst ∧ (Dev.relinkProgress c d).hif = d.hif ∧ (Dev.relinkProgress c d).pins = d.pins := by
  simp [Dev.relinkProgress]

@[simp] theorem Dev.attemptFailed_frame (n : Nat) (cap : Bool) (d : Dev) :
    (Dev.attemptFailed n cap d).now = d.now ∧ (Dev.attemptFailed n cap d).luts = d.luts ∧ (Dev.attemptFailed n cap d).mem = d.mem ∧ (Dev.attemptFailed n cap d).scene = d.scene ∧ (Dev.attemptFailed n cap d).ledger = d.ledger ∧ (Dev.attemptFailed n cap d).queues = d.queues ∧ (Dev.attemptFailed n cap d).turn = d.turn ∧ (Dev.attemptFailed n cap d).lastTurn = d.lastTurn ∧ (Dev.attemptFailed n cap d).rings = d.rings ∧ (Dev.attemptFailed n cap d).comp = d.comp ∧ (Dev.attemptFailed n cap d).chans = d.chans ∧ (Dev.attemptFailed n cap d).timers = d.timers ∧ (Dev.attemptFailed n cap d).mrv = d.mrv ∧ (Dev.attemptFailed n cap d).engines = d.engines ∧ (Dev.attemptFailed n cap d).regions = d.regions ∧ (Dev.attemptFailed n cap d).mct = d.mct ∧ (Dev.attemptFailed n cap d).cru = d.cru ∧ (Dev.attemptFailed n cap d).acc = d.acc ∧ (Dev.attemptFailed n cap d).svc = d.svc ∧ (Dev.attemptFailed n cap d).tb = d.tb ∧ (Dev.attemptFailed n cap d).clk = d.clk ∧ (Dev.attemptFailed n cap d).rst = d.rst ∧ (Dev.attemptFailed n cap d).hif = d.hif ∧ (Dev.attemptFailed n cap d).pins = d.pins := by
  simp [Dev.attemptFailed]

@[simp] theorem Dev.beginAttempt_frame (n : Nat) (d : Dev) :
    (Dev.beginAttempt n d).now = d.now ∧ (Dev.beginAttempt n d).luts = d.luts ∧ (Dev.beginAttempt n d).mem = d.mem ∧ (Dev.beginAttempt n d).scene = d.scene ∧ (Dev.beginAttempt n d).ledger = d.ledger ∧ (Dev.beginAttempt n d).queues = d.queues ∧ (Dev.beginAttempt n d).turn = d.turn ∧ (Dev.beginAttempt n d).lastTurn = d.lastTurn ∧ (Dev.beginAttempt n d).rings = d.rings ∧ (Dev.beginAttempt n d).comp = d.comp ∧ (Dev.beginAttempt n d).chans = d.chans ∧ (Dev.beginAttempt n d).timers = d.timers ∧ (Dev.beginAttempt n d).mrv = d.mrv ∧ (Dev.beginAttempt n d).engines = d.engines ∧ (Dev.beginAttempt n d).regions = d.regions ∧ (Dev.beginAttempt n d).mct = d.mct ∧ (Dev.beginAttempt n d).cru = d.cru ∧ (Dev.beginAttempt n d).acc = d.acc ∧ (Dev.beginAttempt n d).svc = d.svc ∧ (Dev.beginAttempt n d).tb = d.tb ∧ (Dev.beginAttempt n d).clk = d.clk ∧ (Dev.beginAttempt n d).rst = d.rst ∧ (Dev.beginAttempt n d).hif = d.hif ∧ (Dev.beginAttempt n d).pins = d.pins := by
  unfold Dev.beginAttempt; try dsimp only
  (repeat' split) <;> simp

@[simp] theorem Dev.trained_frame (n : Nat) (l : Nat) (r : Nat) (d : Dev) :
    (Dev.trained n l r d).now = d.now ∧ (Dev.trained n l r d).regs = d.regs ∧ (Dev.trained n l r d).luts = d.luts ∧ (Dev.trained n l r d).mem = d.mem ∧ (Dev.trained n l r d).scene = d.scene ∧ (Dev.trained n l r d).ledger = d.ledger ∧ (Dev.trained n l r d).queues = d.queues ∧ (Dev.trained n l r d).turn = d.turn ∧ (Dev.trained n l r d).lastTurn = d.lastTurn ∧ (Dev.trained n l r d).rings = d.rings ∧ (Dev.trained n l r d).comp = d.comp ∧ (Dev.trained n l r d).chans = d.chans ∧ (Dev.trained n l r d).timers = d.timers ∧ (Dev.trained n l r d).mrv = d.mrv ∧ (Dev.trained n l r d).engines = d.engines ∧ (Dev.trained n l r d).regions = d.regions ∧ (Dev.trained n l r d).mct = d.mct ∧ (Dev.trained n l r d).cru = d.cru ∧ (Dev.trained n l r d).acc = d.acc ∧ (Dev.trained n l r d).flt = d.flt ∧ (Dev.trained n l r d).svc = d.svc ∧ (Dev.trained n l r d).tb = d.tb ∧ (Dev.trained n l r d).clk = d.clk ∧ (Dev.trained n l r d).rst = d.rst ∧ (Dev.trained n l r d).hif = d.hif ∧ (Dev.trained n l r d).pins = d.pins := by
  simp [Dev.trained]

@[simp] theorem Dev.relinkPort_frame (n : Nat) (d : Dev) :
    (Dev.relinkPort n d).now = d.now ∧ (Dev.relinkPort n d).luts = d.luts ∧ (Dev.relinkPort n d).mem = d.mem ∧ (Dev.relinkPort n d).scene = d.scene ∧ (Dev.relinkPort n d).ledger = d.ledger ∧ (Dev.relinkPort n d).queues = d.queues ∧ (Dev.relinkPort n d).turn = d.turn ∧ (Dev.relinkPort n d).lastTurn = d.lastTurn ∧ (Dev.relinkPort n d).rings = d.rings ∧ (Dev.relinkPort n d).canvases = d.canvases ∧ (Dev.relinkPort n d).comp = d.comp ∧ (Dev.relinkPort n d).chans = d.chans ∧ (Dev.relinkPort n d).timers = d.timers ∧ (Dev.relinkPort n d).mrv = d.mrv ∧ (Dev.relinkPort n d).engines = d.engines ∧ (Dev.relinkPort n d).regions = d.regions ∧ (Dev.relinkPort n d).mct = d.mct ∧ (Dev.relinkPort n d).cru = d.cru ∧ (Dev.relinkPort n d).acc = d.acc ∧ (Dev.relinkPort n d).flt = d.flt ∧ (Dev.relinkPort n d).svc = d.svc ∧ (Dev.relinkPort n d).tb = d.tb ∧ (Dev.relinkPort n d).clk = d.clk ∧ (Dev.relinkPort n d).rst = d.rst ∧ (Dev.relinkPort n d).hif = d.hif ∧ (Dev.relinkPort n d).pins = d.pins := by
  unfold Dev.relinkPort; try dsimp only
  (repeat' split) <;> simp

@[simp] theorem Dev.enablePort_frame (n : Nat) (d : Dev) :
    (Dev.enablePort n d).now = d.now ∧ (Dev.enablePort n d).luts = d.luts ∧ (Dev.enablePort n d).mem = d.mem ∧ (Dev.enablePort n d).scene = d.scene ∧ (Dev.enablePort n d).ledger = d.ledger ∧ (Dev.enablePort n d).queues = d.queues ∧ (Dev.enablePort n d).turn = d.turn ∧ (Dev.enablePort n d).lastTurn = d.lastTurn ∧ (Dev.enablePort n d).rings = d.rings ∧ (Dev.enablePort n d).canvases = d.canvases ∧ (Dev.enablePort n d).comp = d.comp ∧ (Dev.enablePort n d).chans = d.chans ∧ (Dev.enablePort n d).timers = d.timers ∧ (Dev.enablePort n d).mrv = d.mrv ∧ (Dev.enablePort n d).engines = d.engines ∧ (Dev.enablePort n d).regions = d.regions ∧ (Dev.enablePort n d).mct = d.mct ∧ (Dev.enablePort n d).cru = d.cru ∧ (Dev.enablePort n d).acc = d.acc ∧ (Dev.enablePort n d).svc = d.svc ∧ (Dev.enablePort n d).tb = d.tb ∧ (Dev.enablePort n d).clk = d.clk ∧ (Dev.enablePort n d).rst = d.rst ∧ (Dev.enablePort n d).hif = d.hif ∧ (Dev.enablePort n d).pins = d.pins := by
  simp [Dev.enablePort]

@[simp] theorem Dev.writePortEn_frame (n : Nat) (b : Bool) (d : Dev) :
    (Dev.writePortEn n b d).now = d.now ∧ (Dev.writePortEn n b d).luts = d.luts ∧ (Dev.writePortEn n b d).mem = d.mem ∧ (Dev.writePortEn n b d).scene = d.scene ∧ (Dev.writePortEn n b d).ledger = d.ledger ∧ (Dev.writePortEn n b d).queues = d.queues ∧ (Dev.writePortEn n b d).turn = d.turn ∧ (Dev.writePortEn n b d).lastTurn = d.lastTurn ∧ (Dev.writePortEn n b d).rings = d.rings ∧ (Dev.writePortEn n b d).comp = d.comp ∧ (Dev.writePortEn n b d).chans = d.chans ∧ (Dev.writePortEn n b d).timers = d.timers ∧ (Dev.writePortEn n b d).mrv = d.mrv ∧ (Dev.writePortEn n b d).engines = d.engines ∧ (Dev.writePortEn n b d).regions = d.regions ∧ (Dev.writePortEn n b d).mct = d.mct ∧ (Dev.writePortEn n b d).cru = d.cru ∧ (Dev.writePortEn n b d).acc = d.acc ∧ (Dev.writePortEn n b d).svc = d.svc ∧ (Dev.writePortEn n b d).tb = d.tb ∧ (Dev.writePortEn n b d).clk = d.clk ∧ (Dev.writePortEn n b d).rst = d.rst ∧ (Dev.writePortEn n b d).hif = d.hif ∧ (Dev.writePortEn n b d).pins = d.pins := by
  unfold Dev.writePortEn; try dsimp only
  (repeat' split) <;> simp

@[simp] theorem Dev.portDrained_frame (n : Nat) (d : Dev) :
    (Dev.portDrained n d).now = d.now ∧ (Dev.portDrained n d).luts = d.luts ∧ (Dev.portDrained n d).mem = d.mem ∧ (Dev.portDrained n d).scene = d.scene ∧ (Dev.portDrained n d).ledger = d.ledger ∧ (Dev.portDrained n d).queues = d.queues ∧ (Dev.portDrained n d).turn = d.turn ∧ (Dev.portDrained n d).lastTurn = d.lastTurn ∧ (Dev.portDrained n d).rings = d.rings ∧ (Dev.portDrained n d).canvases = d.canvases ∧ (Dev.portDrained n d).comp = d.comp ∧ (Dev.portDrained n d).chans = d.chans ∧ (Dev.portDrained n d).timers = d.timers ∧ (Dev.portDrained n d).mrv = d.mrv ∧ (Dev.portDrained n d).engines = d.engines ∧ (Dev.portDrained n d).regions = d.regions ∧ (Dev.portDrained n d).mct = d.mct ∧ (Dev.portDrained n d).cru = d.cru ∧ (Dev.portDrained n d).acc = d.acc ∧ (Dev.portDrained n d).svc = d.svc ∧ (Dev.portDrained n d).tb = d.tb ∧ (Dev.portDrained n d).clk = d.clk ∧ (Dev.portDrained n d).rst = d.rst ∧ (Dev.portDrained n d).hif = d.hif ∧ (Dev.portDrained n d).pins = d.pins := by
  simp [Dev.portDrained]

@[simp] theorem Dev.retrainPort_frame (n : Nat) (d : Dev) :
    (Dev.retrainPort n d).now = d.now ∧ (Dev.retrainPort n d).luts = d.luts ∧ (Dev.retrainPort n d).mem = d.mem ∧ (Dev.retrainPort n d).scene = d.scene ∧ (Dev.retrainPort n d).ledger = d.ledger ∧ (Dev.retrainPort n d).queues = d.queues ∧ (Dev.retrainPort n d).turn = d.turn ∧ (Dev.retrainPort n d).lastTurn = d.lastTurn ∧ (Dev.retrainPort n d).rings = d.rings ∧ (Dev.retrainPort n d).canvases = d.canvases ∧ (Dev.retrainPort n d).comp = d.comp ∧ (Dev.retrainPort n d).chans = d.chans ∧ (Dev.retrainPort n d).timers = d.timers ∧ (Dev.retrainPort n d).mrv = d.mrv ∧ (Dev.retrainPort n d).engines = d.engines ∧ (Dev.retrainPort n d).regions = d.regions ∧ (Dev.retrainPort n d).mct = d.mct ∧ (Dev.retrainPort n d).cru = d.cru ∧ (Dev.retrainPort n d).acc = d.acc ∧ (Dev.retrainPort n d).flt = d.flt ∧ (Dev.retrainPort n d).svc = d.svc ∧ (Dev.retrainPort n d).tb = d.tb ∧ (Dev.retrainPort n d).clk = d.clk ∧ (Dev.retrainPort n d).rst = d.rst ∧ (Dev.retrainPort n d).hif = d.hif ∧ (Dev.retrainPort n d).pins = d.pins := by
  unfold Dev.retrainPort; try dsimp only
  (repeat' split) <;> simp

@[simp] theorem Dev.fencePort_frame (n : Nat) (d : Dev) :
    (Dev.fencePort n d).now = d.now ∧ (Dev.fencePort n d).regs = d.regs ∧ (Dev.fencePort n d).luts = d.luts ∧ (Dev.fencePort n d).mem = d.mem ∧ (Dev.fencePort n d).scene = d.scene ∧ (Dev.fencePort n d).ledger = d.ledger ∧ (Dev.fencePort n d).queues = d.queues ∧ (Dev.fencePort n d).turn = d.turn ∧ (Dev.fencePort n d).lastTurn = d.lastTurn ∧ (Dev.fencePort n d).rings = d.rings ∧ (Dev.fencePort n d).comp = d.comp ∧ (Dev.fencePort n d).chans = d.chans ∧ (Dev.fencePort n d).timers = d.timers ∧ (Dev.fencePort n d).mrv = d.mrv ∧ (Dev.fencePort n d).engines = d.engines ∧ (Dev.fencePort n d).regions = d.regions ∧ (Dev.fencePort n d).mct = d.mct ∧ (Dev.fencePort n d).cru = d.cru ∧ (Dev.fencePort n d).acc = d.acc ∧ (Dev.fencePort n d).svc = d.svc ∧ (Dev.fencePort n d).tb = d.tb ∧ (Dev.fencePort n d).clk = d.clk ∧ (Dev.fencePort n d).rst = d.rst ∧ (Dev.fencePort n d).hif = d.hif ∧ (Dev.fencePort n d).pins = d.pins := by
  simp [Dev.fencePort]

@[simp] theorem Dev.releasePort_frame (n : Nat) (d : Dev) :
    (Dev.releasePort n d).now = d.now ∧ (Dev.releasePort n d).luts = d.luts ∧ (Dev.releasePort n d).mem = d.mem ∧ (Dev.releasePort n d).scene = d.scene ∧ (Dev.releasePort n d).ledger = d.ledger ∧ (Dev.releasePort n d).queues = d.queues ∧ (Dev.releasePort n d).turn = d.turn ∧ (Dev.releasePort n d).lastTurn = d.lastTurn ∧ (Dev.releasePort n d).rings = d.rings ∧ (Dev.releasePort n d).canvases = d.canvases ∧ (Dev.releasePort n d).comp = d.comp ∧ (Dev.releasePort n d).chans = d.chans ∧ (Dev.releasePort n d).timers = d.timers ∧ (Dev.releasePort n d).mrv = d.mrv ∧ (Dev.releasePort n d).engines = d.engines ∧ (Dev.releasePort n d).regions = d.regions ∧ (Dev.releasePort n d).mct = d.mct ∧ (Dev.releasePort n d).cru = d.cru ∧ (Dev.releasePort n d).acc = d.acc ∧ (Dev.releasePort n d).svc = d.svc ∧ (Dev.releasePort n d).tb = d.tb ∧ (Dev.releasePort n d).clk = d.clk ∧ (Dev.releasePort n d).rst = d.rst ∧ (Dev.releasePort n d).hif = d.hif ∧ (Dev.releasePort n d).pins = d.pins := by
  simp [Dev.releasePort]

@[simp] theorem Dev.askSwap_frame (n : Nat) (d : Dev) :
    (Dev.askSwap n d).now = d.now ∧ (Dev.askSwap n d).regs = d.regs ∧ (Dev.askSwap n d).luts = d.luts ∧ (Dev.askSwap n d).mem = d.mem ∧ (Dev.askSwap n d).scene = d.scene ∧ (Dev.askSwap n d).ledger = d.ledger ∧ (Dev.askSwap n d).queues = d.queues ∧ (Dev.askSwap n d).turn = d.turn ∧ (Dev.askSwap n d).lastTurn = d.lastTurn ∧ (Dev.askSwap n d).rings = d.rings ∧ (Dev.askSwap n d).canvases = d.canvases ∧ (Dev.askSwap n d).comp = d.comp ∧ (Dev.askSwap n d).chans = d.chans ∧ (Dev.askSwap n d).timers = d.timers ∧ (Dev.askSwap n d).mrv = d.mrv ∧ (Dev.askSwap n d).engines = d.engines ∧ (Dev.askSwap n d).regions = d.regions ∧ (Dev.askSwap n d).mct = d.mct ∧ (Dev.askSwap n d).cru = d.cru ∧ (Dev.askSwap n d).acc = d.acc ∧ (Dev.askSwap n d).flt = d.flt ∧ (Dev.askSwap n d).svc = d.svc ∧ (Dev.askSwap n d).tb = d.tb ∧ (Dev.askSwap n d).clk = d.clk ∧ (Dev.askSwap n d).rst = d.rst ∧ (Dev.askSwap n d).hif = d.hif ∧ (Dev.askSwap n d).pins = d.pins := by
  simp [Dev.askSwap]

@[simp] theorem Dev.irqHpd_frame (n : Nat) (d : Dev) :
    (Dev.irqHpd n d).now = d.now ∧ (Dev.irqHpd n d).luts = d.luts ∧ (Dev.irqHpd n d).mem = d.mem ∧ (Dev.irqHpd n d).scene = d.scene ∧ (Dev.irqHpd n d).ledger = d.ledger ∧ (Dev.irqHpd n d).queues = d.queues ∧ (Dev.irqHpd n d).turn = d.turn ∧ (Dev.irqHpd n d).lastTurn = d.lastTurn ∧ (Dev.irqHpd n d).rings = d.rings ∧ (Dev.irqHpd n d).canvases = d.canvases ∧ (Dev.irqHpd n d).comp = d.comp ∧ (Dev.irqHpd n d).chans = d.chans ∧ (Dev.irqHpd n d).timers = d.timers ∧ (Dev.irqHpd n d).mrv = d.mrv ∧ (Dev.irqHpd n d).engines = d.engines ∧ (Dev.irqHpd n d).regions = d.regions ∧ (Dev.irqHpd n d).mct = d.mct ∧ (Dev.irqHpd n d).cru = d.cru ∧ (Dev.irqHpd n d).acc = d.acc ∧ (Dev.irqHpd n d).flt = d.flt ∧ (Dev.irqHpd n d).svc = d.svc ∧ (Dev.irqHpd n d).tb = d.tb ∧ (Dev.irqHpd n d).clk = d.clk ∧ (Dev.irqHpd n d).rst = d.rst ∧ (Dev.irqHpd n d).hif = d.hif ∧ (Dev.irqHpd n d).pins = d.pins := by
  unfold Dev.irqHpd; try dsimp only
  (repeat' split) <;> simp

@[simp] theorem Dev.declareLoss_frame (n : Nat) (d : Dev) :
    (Dev.declareLoss n d).now = d.now ∧ (Dev.declareLoss n d).regs = d.regs ∧ (Dev.declareLoss n d).luts = d.luts ∧ (Dev.declareLoss n d).mem = d.mem ∧ (Dev.declareLoss n d).scene = d.scene ∧ (Dev.declareLoss n d).ledger = d.ledger ∧ (Dev.declareLoss n d).queues = d.queues ∧ (Dev.declareLoss n d).turn = d.turn ∧ (Dev.declareLoss n d).lastTurn = d.lastTurn ∧ (Dev.declareLoss n d).rings = d.rings ∧ (Dev.declareLoss n d).comp = d.comp ∧ (Dev.declareLoss n d).chans = d.chans ∧ (Dev.declareLoss n d).timers = d.timers ∧ (Dev.declareLoss n d).mrv = d.mrv ∧ (Dev.declareLoss n d).engines = d.engines ∧ (Dev.declareLoss n d).regions = d.regions ∧ (Dev.declareLoss n d).mct = d.mct ∧ (Dev.declareLoss n d).cru = d.cru ∧ (Dev.declareLoss n d).acc = d.acc ∧ (Dev.declareLoss n d).svc = d.svc ∧ (Dev.declareLoss n d).tb = d.tb ∧ (Dev.declareLoss n d).clk = d.clk ∧ (Dev.declareLoss n d).rst = d.rst ∧ (Dev.declareLoss n d).hif = d.hif ∧ (Dev.declareLoss n d).pins = d.pins := by
  unfold Dev.declareLoss; try dsimp only
  (repeat' split) <;> simp

@[simp] theorem Dev.auxGo_frame (n : Nat) (cmd : Word) (d : Dev) :
    (Dev.auxGo n cmd d).now = d.now ∧ (Dev.auxGo n cmd d).regs = d.regs ∧ (Dev.auxGo n cmd d).luts = d.luts ∧ (Dev.auxGo n cmd d).mem = d.mem ∧ (Dev.auxGo n cmd d).scene = d.scene ∧ (Dev.auxGo n cmd d).ledger = d.ledger ∧ (Dev.auxGo n cmd d).queues = d.queues ∧ (Dev.auxGo n cmd d).turn = d.turn ∧ (Dev.auxGo n cmd d).lastTurn = d.lastTurn ∧ (Dev.auxGo n cmd d).rings = d.rings ∧ (Dev.auxGo n cmd d).canvases = d.canvases ∧ (Dev.auxGo n cmd d).comp = d.comp ∧ (Dev.auxGo n cmd d).chans = d.chans ∧ (Dev.auxGo n cmd d).timers = d.timers ∧ (Dev.auxGo n cmd d).mrv = d.mrv ∧ (Dev.auxGo n cmd d).engines = d.engines ∧ (Dev.auxGo n cmd d).regions = d.regions ∧ (Dev.auxGo n cmd d).mct = d.mct ∧ (Dev.auxGo n cmd d).cru = d.cru ∧ (Dev.auxGo n cmd d).acc = d.acc ∧ (Dev.auxGo n cmd d).flt = d.flt ∧ (Dev.auxGo n cmd d).svc = d.svc ∧ (Dev.auxGo n cmd d).tb = d.tb ∧ (Dev.auxGo n cmd d).clk = d.clk ∧ (Dev.auxGo n cmd d).rst = d.rst ∧ (Dev.auxGo n cmd d).hif = d.hif ∧ (Dev.auxGo n cmd d).pins = d.pins := by
  simp [Dev.auxGo]

@[simp] theorem Dev.auxEnd_frame (n : Nat) (reply : BitVec 2) (count : Nat) (d : Dev) :
    (Dev.auxEnd n reply count d).now = d.now ∧ (Dev.auxEnd n reply count d).regs = d.regs ∧ (Dev.auxEnd n reply count d).luts = d.luts ∧ (Dev.auxEnd n reply count d).mem = d.mem ∧ (Dev.auxEnd n reply count d).scene = d.scene ∧ (Dev.auxEnd n reply count d).ledger = d.ledger ∧ (Dev.auxEnd n reply count d).queues = d.queues ∧ (Dev.auxEnd n reply count d).turn = d.turn ∧ (Dev.auxEnd n reply count d).lastTurn = d.lastTurn ∧ (Dev.auxEnd n reply count d).rings = d.rings ∧ (Dev.auxEnd n reply count d).canvases = d.canvases ∧ (Dev.auxEnd n reply count d).comp = d.comp ∧ (Dev.auxEnd n reply count d).chans = d.chans ∧ (Dev.auxEnd n reply count d).timers = d.timers ∧ (Dev.auxEnd n reply count d).mrv = d.mrv ∧ (Dev.auxEnd n reply count d).engines = d.engines ∧ (Dev.auxEnd n reply count d).regions = d.regions ∧ (Dev.auxEnd n reply count d).mct = d.mct ∧ (Dev.auxEnd n reply count d).cru = d.cru ∧ (Dev.auxEnd n reply count d).acc = d.acc ∧ (Dev.auxEnd n reply count d).flt = d.flt ∧ (Dev.auxEnd n reply count d).svc = d.svc ∧ (Dev.auxEnd n reply count d).tb = d.tb ∧ (Dev.auxEnd n reply count d).clk = d.clk ∧ (Dev.auxEnd n reply count d).rst = d.rst ∧ (Dev.auxEnd n reply count d).hif = d.hif ∧ (Dev.auxEnd n reply count d).pins = d.pins := by
  simp [Dev.auxEnd]

@[simp] theorem Dev.auxBytes_frame (n : Nat) (bs : List Byte) (d : Dev) :
    (Dev.auxBytes n bs d).now = d.now ∧ (Dev.auxBytes n bs d).luts = d.luts ∧ (Dev.auxBytes n bs d).mem = d.mem ∧ (Dev.auxBytes n bs d).scene = d.scene ∧ (Dev.auxBytes n bs d).ledger = d.ledger ∧ (Dev.auxBytes n bs d).queues = d.queues ∧ (Dev.auxBytes n bs d).turn = d.turn ∧ (Dev.auxBytes n bs d).lastTurn = d.lastTurn ∧ (Dev.auxBytes n bs d).rings = d.rings ∧ (Dev.auxBytes n bs d).canvases = d.canvases ∧ (Dev.auxBytes n bs d).comp = d.comp ∧ (Dev.auxBytes n bs d).ports = d.ports ∧ (Dev.auxBytes n bs d).chans = d.chans ∧ (Dev.auxBytes n bs d).timers = d.timers ∧ (Dev.auxBytes n bs d).mrv = d.mrv ∧ (Dev.auxBytes n bs d).engines = d.engines ∧ (Dev.auxBytes n bs d).regions = d.regions ∧ (Dev.auxBytes n bs d).mct = d.mct ∧ (Dev.auxBytes n bs d).cru = d.cru ∧ (Dev.auxBytes n bs d).acc = d.acc ∧ (Dev.auxBytes n bs d).flt = d.flt ∧ (Dev.auxBytes n bs d).svc = d.svc ∧ (Dev.auxBytes n bs d).tb = d.tb ∧ (Dev.auxBytes n bs d).clk = d.clk ∧ (Dev.auxBytes n bs d).rst = d.rst ∧ (Dev.auxBytes n bs d).hif = d.hif ∧ (Dev.auxBytes n bs d).pins = d.pins := by
  simp [Dev.auxBytes]

@[simp] theorem Dev.takeStaged_now (n : Nat) (off : Nat) (k : Word → Dev → Dev) (d : Dev) (hk : ∀ w d, (k w d).now = d.now) : (Dev.takeStaged n off k d).now = d.now := by
  unfold Dev.takeStaged; try dsimp only
  (repeat' split) <;> simp [hk]

@[simp] theorem Dev.takeStaged_luts (n : Nat) (off : Nat) (k : Word → Dev → Dev) (d : Dev) (hk : ∀ w d, (k w d).luts = d.luts) : (Dev.takeStaged n off k d).luts = d.luts := by
  unfold Dev.takeStaged; try dsimp only
  (repeat' split) <;> simp [hk]

@[simp] theorem Dev.takeStaged_mem (n : Nat) (off : Nat) (k : Word → Dev → Dev) (d : Dev) (hk : ∀ w d, (k w d).mem = d.mem) : (Dev.takeStaged n off k d).mem = d.mem := by
  unfold Dev.takeStaged; try dsimp only
  (repeat' split) <;> simp [hk]

@[simp] theorem Dev.takeStaged_scene (n : Nat) (off : Nat) (k : Word → Dev → Dev) (d : Dev) (hk : ∀ w d, (k w d).scene = d.scene) : (Dev.takeStaged n off k d).scene = d.scene := by
  unfold Dev.takeStaged; try dsimp only
  (repeat' split) <;> simp [hk]

@[simp] theorem Dev.takeStaged_ledger (n : Nat) (off : Nat) (k : Word → Dev → Dev) (d : Dev) (hk : ∀ w d, (k w d).ledger = d.ledger) : (Dev.takeStaged n off k d).ledger = d.ledger := by
  unfold Dev.takeStaged; try dsimp only
  (repeat' split) <;> simp [hk]

@[simp] theorem Dev.takeStaged_queues (n : Nat) (off : Nat) (k : Word → Dev → Dev) (d : Dev) (hk : ∀ w d, (k w d).queues = d.queues) : (Dev.takeStaged n off k d).queues = d.queues := by
  unfold Dev.takeStaged; try dsimp only
  (repeat' split) <;> simp [hk]

@[simp] theorem Dev.takeStaged_turn (n : Nat) (off : Nat) (k : Word → Dev → Dev) (d : Dev) (hk : ∀ w d, (k w d).turn = d.turn) : (Dev.takeStaged n off k d).turn = d.turn := by
  unfold Dev.takeStaged; try dsimp only
  (repeat' split) <;> simp [hk]

@[simp] theorem Dev.takeStaged_lastTurn (n : Nat) (off : Nat) (k : Word → Dev → Dev) (d : Dev) (hk : ∀ w d, (k w d).lastTurn = d.lastTurn) : (Dev.takeStaged n off k d).lastTurn = d.lastTurn := by
  unfold Dev.takeStaged; try dsimp only
  (repeat' split) <;> simp [hk]

@[simp] theorem Dev.takeStaged_rings (n : Nat) (off : Nat) (k : Word → Dev → Dev) (d : Dev) (hk : ∀ w d, (k w d).rings = d.rings) : (Dev.takeStaged n off k d).rings = d.rings := by
  unfold Dev.takeStaged; try dsimp only
  (repeat' split) <;> simp [hk]

@[simp] theorem Dev.takeStaged_canvases (n : Nat) (off : Nat) (k : Word → Dev → Dev) (d : Dev) (hk : ∀ w d, (k w d).canvases = d.canvases) : (Dev.takeStaged n off k d).canvases = d.canvases := by
  unfold Dev.takeStaged; try dsimp only
  (repeat' split) <;> simp [hk]

@[simp] theorem Dev.takeStaged_comp (n : Nat) (off : Nat) (k : Word → Dev → Dev) (d : Dev) (hk : ∀ w d, (k w d).comp = d.comp) : (Dev.takeStaged n off k d).comp = d.comp := by
  unfold Dev.takeStaged; try dsimp only
  (repeat' split) <;> simp [hk]

@[simp] theorem Dev.takeStaged_ports (n : Nat) (off : Nat) (k : Word → Dev → Dev) (d : Dev) (hk : ∀ w d, (k w d).ports = d.ports) : (Dev.takeStaged n off k d).ports = d.ports := by
  unfold Dev.takeStaged; try dsimp only
  (repeat' split) <;> simp [hk]

@[simp] theorem Dev.takeStaged_chans (n : Nat) (off : Nat) (k : Word → Dev → Dev) (d : Dev) (hk : ∀ w d, (k w d).chans = d.chans) : (Dev.takeStaged n off k d).chans = d.chans := by
  unfold Dev.takeStaged; try dsimp only
  (repeat' split) <;> simp [hk]

@[simp] theorem Dev.takeStaged_timers (n : Nat) (off : Nat) (k : Word → Dev → Dev) (d : Dev) (hk : ∀ w d, (k w d).timers = d.timers) : (Dev.takeStaged n off k d).timers = d.timers := by
  unfold Dev.takeStaged; try dsimp only
  (repeat' split) <;> simp [hk]

@[simp] theorem Dev.takeStaged_mrv (n : Nat) (off : Nat) (k : Word → Dev → Dev) (d : Dev) (hk : ∀ w d, (k w d).mrv = d.mrv) : (Dev.takeStaged n off k d).mrv = d.mrv := by
  unfold Dev.takeStaged; try dsimp only
  (repeat' split) <;> simp [hk]

@[simp] theorem Dev.takeStaged_engines (n : Nat) (off : Nat) (k : Word → Dev → Dev) (d : Dev) (hk : ∀ w d, (k w d).engines = d.engines) : (Dev.takeStaged n off k d).engines = d.engines := by
  unfold Dev.takeStaged; try dsimp only
  (repeat' split) <;> simp [hk]

@[simp] theorem Dev.takeStaged_regions (n : Nat) (off : Nat) (k : Word → Dev → Dev) (d : Dev) (hk : ∀ w d, (k w d).regions = d.regions) : (Dev.takeStaged n off k d).regions = d.regions := by
  unfold Dev.takeStaged; try dsimp only
  (repeat' split) <;> simp [hk]

@[simp] theorem Dev.takeStaged_mct (n : Nat) (off : Nat) (k : Word → Dev → Dev) (d : Dev) (hk : ∀ w d, (k w d).mct = d.mct) : (Dev.takeStaged n off k d).mct = d.mct := by
  unfold Dev.takeStaged; try dsimp only
  (repeat' split) <;> simp [hk]

@[simp] theorem Dev.takeStaged_cru (n : Nat) (off : Nat) (k : Word → Dev → Dev) (d : Dev) (hk : ∀ w d, (k w d).cru = d.cru) : (Dev.takeStaged n off k d).cru = d.cru := by
  unfold Dev.takeStaged; try dsimp only
  (repeat' split) <;> simp [hk]

@[simp] theorem Dev.takeStaged_acc (n : Nat) (off : Nat) (k : Word → Dev → Dev) (d : Dev) (hk : ∀ w d, (k w d).acc = d.acc) : (Dev.takeStaged n off k d).acc = d.acc := by
  unfold Dev.takeStaged; try dsimp only
  (repeat' split) <;> simp [hk]

@[simp] theorem Dev.takeStaged_flt (n : Nat) (off : Nat) (k : Word → Dev → Dev) (d : Dev) (hk : ∀ w d, (k w d).flt = d.flt) : (Dev.takeStaged n off k d).flt = d.flt := by
  unfold Dev.takeStaged; try dsimp only
  (repeat' split) <;> simp [hk]

@[simp] theorem Dev.takeStaged_svc (n : Nat) (off : Nat) (k : Word → Dev → Dev) (d : Dev) (hk : ∀ w d, (k w d).svc = d.svc) : (Dev.takeStaged n off k d).svc = d.svc := by
  unfold Dev.takeStaged; try dsimp only
  (repeat' split) <;> simp [hk]

@[simp] theorem Dev.takeStaged_tb (n : Nat) (off : Nat) (k : Word → Dev → Dev) (d : Dev) (hk : ∀ w d, (k w d).tb = d.tb) : (Dev.takeStaged n off k d).tb = d.tb := by
  unfold Dev.takeStaged; try dsimp only
  (repeat' split) <;> simp [hk]

@[simp] theorem Dev.takeStaged_clk (n : Nat) (off : Nat) (k : Word → Dev → Dev) (d : Dev) (hk : ∀ w d, (k w d).clk = d.clk) : (Dev.takeStaged n off k d).clk = d.clk := by
  unfold Dev.takeStaged; try dsimp only
  (repeat' split) <;> simp [hk]

@[simp] theorem Dev.takeStaged_rst (n : Nat) (off : Nat) (k : Word → Dev → Dev) (d : Dev) (hk : ∀ w d, (k w d).rst = d.rst) : (Dev.takeStaged n off k d).rst = d.rst := by
  unfold Dev.takeStaged; try dsimp only
  (repeat' split) <;> simp [hk]

@[simp] theorem Dev.takeStaged_hif (n : Nat) (off : Nat) (k : Word → Dev → Dev) (d : Dev) (hk : ∀ w d, (k w d).hif = d.hif) : (Dev.takeStaged n off k d).hif = d.hif := by
  unfold Dev.takeStaged; try dsimp only
  (repeat' split) <;> simp [hk]

@[simp] theorem Dev.takeStaged_pins (n : Nat) (off : Nat) (k : Word → Dev → Dev) (d : Dev) (hk : ∀ w d, (k w d).pins = d.pins) : (Dev.takeStaged n off k d).pins = d.pins := by
  unfold Dev.takeStaged; try dsimp only
  (repeat' split) <;> simp [hk]

@[simp] theorem Dev.takeSrc_frame (n : Nat) (w : Word) (d : Dev) :
    (Dev.takeSrc n w d).now = d.now ∧ (Dev.takeSrc n w d).luts = d.luts ∧ (Dev.takeSrc n w d).mem = d.mem ∧ (Dev.takeSrc n w d).scene = d.scene ∧ (Dev.takeSrc n w d).ledger = d.ledger ∧ (Dev.takeSrc n w d).queues = d.queues ∧ (Dev.takeSrc n w d).turn = d.turn ∧ (Dev.takeSrc n w d).lastTurn = d.lastTurn ∧ (Dev.takeSrc n w d).rings = d.rings ∧ (Dev.takeSrc n w d).comp = d.comp ∧ (Dev.takeSrc n w d).chans = d.chans ∧ (Dev.takeSrc n w d).timers = d.timers ∧ (Dev.takeSrc n w d).mrv = d.mrv ∧ (Dev.takeSrc n w d).engines = d.engines ∧ (Dev.takeSrc n w d).regions = d.regions ∧ (Dev.takeSrc n w d).mct = d.mct ∧ (Dev.takeSrc n w d).cru = d.cru ∧ (Dev.takeSrc n w d).acc = d.acc ∧ (Dev.takeSrc n w d).flt = d.flt ∧ (Dev.takeSrc n w d).svc = d.svc ∧ (Dev.takeSrc n w d).tb = d.tb ∧ (Dev.takeSrc n w d).clk = d.clk ∧ (Dev.takeSrc n w d).rst = d.rst ∧ (Dev.takeSrc n w d).hif = d.hif ∧ (Dev.takeSrc n w d).pins = d.pins := by
  simp [Dev.takeSrc]

@[simp] theorem Dev.takeFormat_frame (n : Nat) (w : Word) (d : Dev) :
    (Dev.takeFormat n w d).now = d.now ∧ (Dev.takeFormat n w d).luts = d.luts ∧ (Dev.takeFormat n w d).mem = d.mem ∧ (Dev.takeFormat n w d).scene = d.scene ∧ (Dev.takeFormat n w d).ledger = d.ledger ∧ (Dev.takeFormat n w d).queues = d.queues ∧ (Dev.takeFormat n w d).turn = d.turn ∧ (Dev.takeFormat n w d).lastTurn = d.lastTurn ∧ (Dev.takeFormat n w d).rings = d.rings ∧ (Dev.takeFormat n w d).canvases = d.canvases ∧ (Dev.takeFormat n w d).comp = d.comp ∧ (Dev.takeFormat n w d).chans = d.chans ∧ (Dev.takeFormat n w d).timers = d.timers ∧ (Dev.takeFormat n w d).mrv = d.mrv ∧ (Dev.takeFormat n w d).engines = d.engines ∧ (Dev.takeFormat n w d).regions = d.regions ∧ (Dev.takeFormat n w d).mct = d.mct ∧ (Dev.takeFormat n w d).cru = d.cru ∧ (Dev.takeFormat n w d).acc = d.acc ∧ (Dev.takeFormat n w d).flt = d.flt ∧ (Dev.takeFormat n w d).svc = d.svc ∧ (Dev.takeFormat n w d).tb = d.tb ∧ (Dev.takeFormat n w d).clk = d.clk ∧ (Dev.takeFormat n w d).rst = d.rst ∧ (Dev.takeFormat n w d).hif = d.hif ∧ (Dev.takeFormat n w d).pins = d.pins := by
  simp [Dev.takeFormat]

@[simp] theorem Dev.takeDsc_frame (n : Nat) (w : Word) (d : Dev) :
    (Dev.takeDsc n w d).now = d.now ∧ (Dev.takeDsc n w d).luts = d.luts ∧ (Dev.takeDsc n w d).mem = d.mem ∧ (Dev.takeDsc n w d).scene = d.scene ∧ (Dev.takeDsc n w d).ledger = d.ledger ∧ (Dev.takeDsc n w d).queues = d.queues ∧ (Dev.takeDsc n w d).turn = d.turn ∧ (Dev.takeDsc n w d).lastTurn = d.lastTurn ∧ (Dev.takeDsc n w d).rings = d.rings ∧ (Dev.takeDsc n w d).canvases = d.canvases ∧ (Dev.takeDsc n w d).comp = d.comp ∧ (Dev.takeDsc n w d).chans = d.chans ∧ (Dev.takeDsc n w d).timers = d.timers ∧ (Dev.takeDsc n w d).mrv = d.mrv ∧ (Dev.takeDsc n w d).engines = d.engines ∧ (Dev.takeDsc n w d).regions = d.regions ∧ (Dev.takeDsc n w d).mct = d.mct ∧ (Dev.takeDsc n w d).cru = d.cru ∧ (Dev.takeDsc n w d).acc = d.acc ∧ (Dev.takeDsc n w d).flt = d.flt ∧ (Dev.takeDsc n w d).svc = d.svc ∧ (Dev.takeDsc n w d).tb = d.tb ∧ (Dev.takeDsc n w d).clk = d.clk ∧ (Dev.takeDsc n w d).rst = d.rst ∧ (Dev.takeDsc n w d).hif = d.hif ∧ (Dev.takeDsc n w d).pins = d.pins := by
  simp [Dev.takeDsc]

@[simp] theorem Dev.takeLane_frame (n : Nat) (w : Word) (d : Dev) :
    (Dev.takeLane n w d).now = d.now ∧ (Dev.takeLane n w d).luts = d.luts ∧ (Dev.takeLane n w d).mem = d.mem ∧ (Dev.takeLane n w d).scene = d.scene ∧ (Dev.takeLane n w d).ledger = d.ledger ∧ (Dev.takeLane n w d).queues = d.queues ∧ (Dev.takeLane n w d).turn = d.turn ∧ (Dev.takeLane n w d).lastTurn = d.lastTurn ∧ (Dev.takeLane n w d).rings = d.rings ∧ (Dev.takeLane n w d).canvases = d.canvases ∧ (Dev.takeLane n w d).comp = d.comp ∧ (Dev.takeLane n w d).chans = d.chans ∧ (Dev.takeLane n w d).timers = d.timers ∧ (Dev.takeLane n w d).mrv = d.mrv ∧ (Dev.takeLane n w d).engines = d.engines ∧ (Dev.takeLane n w d).regions = d.regions ∧ (Dev.takeLane n w d).mct = d.mct ∧ (Dev.takeLane n w d).cru = d.cru ∧ (Dev.takeLane n w d).acc = d.acc ∧ (Dev.takeLane n w d).flt = d.flt ∧ (Dev.takeLane n w d).svc = d.svc ∧ (Dev.takeLane n w d).tb = d.tb ∧ (Dev.takeLane n w d).clk = d.clk ∧ (Dev.takeLane n w d).rst = d.rst ∧ (Dev.takeLane n w d).hif = d.hif ∧ (Dev.takeLane n w d).pins = d.pins := by
  simp [Dev.takeLane]

@[simp] theorem Dev.takeLink_frame (n : Nat) (w : Word) (d : Dev) :
    (Dev.takeLink n w d).now = d.now ∧ (Dev.takeLink n w d).luts = d.luts ∧ (Dev.takeLink n w d).mem = d.mem ∧ (Dev.takeLink n w d).scene = d.scene ∧ (Dev.takeLink n w d).ledger = d.ledger ∧ (Dev.takeLink n w d).queues = d.queues ∧ (Dev.takeLink n w d).turn = d.turn ∧ (Dev.takeLink n w d).lastTurn = d.lastTurn ∧ (Dev.takeLink n w d).rings = d.rings ∧ (Dev.takeLink n w d).canvases = d.canvases ∧ (Dev.takeLink n w d).comp = d.comp ∧ (Dev.takeLink n w d).chans = d.chans ∧ (Dev.takeLink n w d).timers = d.timers ∧ (Dev.takeLink n w d).mrv = d.mrv ∧ (Dev.takeLink n w d).engines = d.engines ∧ (Dev.takeLink n w d).regions = d.regions ∧ (Dev.takeLink n w d).mct = d.mct ∧ (Dev.takeLink n w d).cru = d.cru ∧ (Dev.takeLink n w d).acc = d.acc ∧ (Dev.takeLink n w d).flt = d.flt ∧ (Dev.takeLink n w d).svc = d.svc ∧ (Dev.takeLink n w d).tb = d.tb ∧ (Dev.takeLink n w d).clk = d.clk ∧ (Dev.takeLink n w d).rst = d.rst ∧ (Dev.takeLink n w d).hif = d.hif ∧ (Dev.takeLink n w d).pins = d.pins := by
  simp [Dev.takeLink]

@[simp] theorem Dev.applyPort_frame (n : Nat) (d : Dev) :
    (Dev.applyPort n d).now = d.now ∧ (Dev.applyPort n d).luts = d.luts ∧ (Dev.applyPort n d).mem = d.mem ∧ (Dev.applyPort n d).scene = d.scene ∧ (Dev.applyPort n d).ledger = d.ledger ∧ (Dev.applyPort n d).queues = d.queues ∧ (Dev.applyPort n d).turn = d.turn ∧ (Dev.applyPort n d).lastTurn = d.lastTurn ∧ (Dev.applyPort n d).rings = d.rings ∧ (Dev.applyPort n d).comp = d.comp ∧ (Dev.applyPort n d).chans = d.chans ∧ (Dev.applyPort n d).timers = d.timers ∧ (Dev.applyPort n d).mrv = d.mrv ∧ (Dev.applyPort n d).engines = d.engines ∧ (Dev.applyPort n d).regions = d.regions ∧ (Dev.applyPort n d).mct = d.mct ∧ (Dev.applyPort n d).cru = d.cru ∧ (Dev.applyPort n d).acc = d.acc ∧ (Dev.applyPort n d).flt = d.flt ∧ (Dev.applyPort n d).svc = d.svc ∧ (Dev.applyPort n d).tb = d.tb ∧ (Dev.applyPort n d).clk = d.clk ∧ (Dev.applyPort n d).rst = d.rst ∧ (Dev.applyPort n d).hif = d.hif ∧ (Dev.applyPort n d).pins = d.pins := by
  simp [Dev.applyPort]

@[simp] theorem Dev.takeSwap_frame (n : Nat) (d : Dev) :
    (Dev.takeSwap n d).now = d.now ∧ (Dev.takeSwap n d).regs = d.regs ∧ (Dev.takeSwap n d).luts = d.luts ∧ (Dev.takeSwap n d).mem = d.mem ∧ (Dev.takeSwap n d).scene = d.scene ∧ (Dev.takeSwap n d).ledger = d.ledger ∧ (Dev.takeSwap n d).queues = d.queues ∧ (Dev.takeSwap n d).turn = d.turn ∧ (Dev.takeSwap n d).lastTurn = d.lastTurn ∧ (Dev.takeSwap n d).rings = d.rings ∧ (Dev.takeSwap n d).canvases = d.canvases ∧ (Dev.takeSwap n d).comp = d.comp ∧ (Dev.takeSwap n d).chans = d.chans ∧ (Dev.takeSwap n d).timers = d.timers ∧ (Dev.takeSwap n d).mrv = d.mrv ∧ (Dev.takeSwap n d).engines = d.engines ∧ (Dev.takeSwap n d).regions = d.regions ∧ (Dev.takeSwap n d).mct = d.mct ∧ (Dev.takeSwap n d).cru = d.cru ∧ (Dev.takeSwap n d).acc = d.acc ∧ (Dev.takeSwap n d).flt = d.flt ∧ (Dev.takeSwap n d).svc = d.svc ∧ (Dev.takeSwap n d).tb = d.tb ∧ (Dev.takeSwap n d).clk = d.clk ∧ (Dev.takeSwap n d).rst = d.rst ∧ (Dev.takeSwap n d).hif = d.hif ∧ (Dev.takeSwap n d).pins = d.pins := by
  simp [Dev.takeSwap]

@[simp] theorem Dev.portFrame_frame (n : Nat) (d : Dev) :
    (Dev.portFrame n d).now = d.now ∧ (Dev.portFrame n d).luts = d.luts ∧ (Dev.portFrame n d).mem = d.mem ∧ (Dev.portFrame n d).scene = d.scene ∧ (Dev.portFrame n d).ledger = d.ledger ∧ (Dev.portFrame n d).queues = d.queues ∧ (Dev.portFrame n d).turn = d.turn ∧ (Dev.portFrame n d).lastTurn = d.lastTurn ∧ (Dev.portFrame n d).rings = d.rings ∧ (Dev.portFrame n d).canvases = d.canvases ∧ (Dev.portFrame n d).comp = d.comp ∧ (Dev.portFrame n d).chans = d.chans ∧ (Dev.portFrame n d).timers = d.timers ∧ (Dev.portFrame n d).mrv = d.mrv ∧ (Dev.portFrame n d).engines = d.engines ∧ (Dev.portFrame n d).regions = d.regions ∧ (Dev.portFrame n d).mct = d.mct ∧ (Dev.portFrame n d).cru = d.cru ∧ (Dev.portFrame n d).acc = d.acc ∧ (Dev.portFrame n d).flt = d.flt ∧ (Dev.portFrame n d).svc = d.svc ∧ (Dev.portFrame n d).tb = d.tb ∧ (Dev.portFrame n d).clk = d.clk ∧ (Dev.portFrame n d).rst = d.rst ∧ (Dev.portFrame n d).hif = d.hif ∧ (Dev.portFrame n d).pins = d.pins := by
  simp [Dev.portFrame]

@[simp] theorem Dev.portsFrame_frame (c : Nat) (d : Dev) :
    (Dev.portsFrame c d).now = d.now ∧ (Dev.portsFrame c d).luts = d.luts ∧ (Dev.portsFrame c d).mem = d.mem ∧ (Dev.portsFrame c d).scene = d.scene ∧ (Dev.portsFrame c d).ledger = d.ledger ∧ (Dev.portsFrame c d).queues = d.queues ∧ (Dev.portsFrame c d).turn = d.turn ∧ (Dev.portsFrame c d).lastTurn = d.lastTurn ∧ (Dev.portsFrame c d).rings = d.rings ∧ (Dev.portsFrame c d).canvases = d.canvases ∧ (Dev.portsFrame c d).comp = d.comp ∧ (Dev.portsFrame c d).chans = d.chans ∧ (Dev.portsFrame c d).timers = d.timers ∧ (Dev.portsFrame c d).mrv = d.mrv ∧ (Dev.portsFrame c d).engines = d.engines ∧ (Dev.portsFrame c d).regions = d.regions ∧ (Dev.portsFrame c d).mct = d.mct ∧ (Dev.portsFrame c d).cru = d.cru ∧ (Dev.portsFrame c d).acc = d.acc ∧ (Dev.portsFrame c d).flt = d.flt ∧ (Dev.portsFrame c d).svc = d.svc ∧ (Dev.portsFrame c d).tb = d.tb ∧ (Dev.portsFrame c d).clk = d.clk ∧ (Dev.portsFrame c d).rst = d.rst ∧ (Dev.portsFrame c d).hif = d.hif ∧ (Dev.portsFrame c d).pins = d.pins := by
  simp [Dev.portsFrame]

@[simp] theorem Dev.portVideoEnd_frame (n : Nat) (d : Dev) :
    (Dev.portVideoEnd n d).now = d.now ∧ (Dev.portVideoEnd n d).luts = d.luts ∧ (Dev.portVideoEnd n d).mem = d.mem ∧ (Dev.portVideoEnd n d).scene = d.scene ∧ (Dev.portVideoEnd n d).ledger = d.ledger ∧ (Dev.portVideoEnd n d).queues = d.queues ∧ (Dev.portVideoEnd n d).turn = d.turn ∧ (Dev.portVideoEnd n d).lastTurn = d.lastTurn ∧ (Dev.portVideoEnd n d).rings = d.rings ∧ (Dev.portVideoEnd n d).canvases = d.canvases ∧ (Dev.portVideoEnd n d).comp = d.comp ∧ (Dev.portVideoEnd n d).chans = d.chans ∧ (Dev.portVideoEnd n d).timers = d.timers ∧ (Dev.portVideoEnd n d).mrv = d.mrv ∧ (Dev.portVideoEnd n d).engines = d.engines ∧ (Dev.portVideoEnd n d).regions = d.regions ∧ (Dev.portVideoEnd n d).mct = d.mct ∧ (Dev.portVideoEnd n d).cru = d.cru ∧ (Dev.portVideoEnd n d).acc = d.acc ∧ (Dev.portVideoEnd n d).flt = d.flt ∧ (Dev.portVideoEnd n d).svc = d.svc ∧ (Dev.portVideoEnd n d).tb = d.tb ∧ (Dev.portVideoEnd n d).clk = d.clk ∧ (Dev.portVideoEnd n d).rst = d.rst ∧ (Dev.portVideoEnd n d).hif = d.hif ∧ (Dev.portVideoEnd n d).pins = d.pins := by
  simp [Dev.portVideoEnd]

@[simp] theorem Dev.awaitSettle_frame (n : Nat) (d : Dev) :
    (Dev.awaitSettle n d).now = d.now ∧ (Dev.awaitSettle n d).regs = d.regs ∧ (Dev.awaitSettle n d).luts = d.luts ∧ (Dev.awaitSettle n d).mem = d.mem ∧ (Dev.awaitSettle n d).scene = d.scene ∧ (Dev.awaitSettle n d).ledger = d.ledger ∧ (Dev.awaitSettle n d).queues = d.queues ∧ (Dev.awaitSettle n d).turn = d.turn ∧ (Dev.awaitSettle n d).lastTurn = d.lastTurn ∧ (Dev.awaitSettle n d).rings = d.rings ∧ (Dev.awaitSettle n d).canvases = d.canvases ∧ (Dev.awaitSettle n d).comp = d.comp ∧ (Dev.awaitSettle n d).chans = d.chans ∧ (Dev.awaitSettle n d).timers = d.timers ∧ (Dev.awaitSettle n d).mrv = d.mrv ∧ (Dev.awaitSettle n d).engines = d.engines ∧ (Dev.awaitSettle n d).regions = d.regions ∧ (Dev.awaitSettle n d).mct = d.mct ∧ (Dev.awaitSettle n d).cru = d.cru ∧ (Dev.awaitSettle n d).acc = d.acc ∧ (Dev.awaitSettle n d).flt = d.flt ∧ (Dev.awaitSettle n d).svc = d.svc ∧ (Dev.awaitSettle n d).tb = d.tb ∧ (Dev.awaitSettle n d).clk = d.clk ∧ (Dev.awaitSettle n d).rst = d.rst ∧ (Dev.awaitSettle n d).hif = d.hif ∧ (Dev.awaitSettle n d).pins = d.pins := by
  simp [Dev.awaitSettle]

@[simp] theorem Dev.idlePorts_frame (c : Nat) (d : Dev) :
    (Dev.idlePorts c d).now = d.now ∧ (Dev.idlePorts c d).luts = d.luts ∧ (Dev.idlePorts c d).mem = d.mem ∧ (Dev.idlePorts c d).scene = d.scene ∧ (Dev.idlePorts c d).ledger = d.ledger ∧ (Dev.idlePorts c d).queues = d.queues ∧ (Dev.idlePorts c d).turn = d.turn ∧ (Dev.idlePorts c d).lastTurn = d.lastTurn ∧ (Dev.idlePorts c d).rings = d.rings ∧ (Dev.idlePorts c d).canvases = d.canvases ∧ (Dev.idlePorts c d).comp = d.comp ∧ (Dev.idlePorts c d).chans = d.chans ∧ (Dev.idlePorts c d).timers = d.timers ∧ (Dev.idlePorts c d).mrv = d.mrv ∧ (Dev.idlePorts c d).engines = d.engines ∧ (Dev.idlePorts c d).regions = d.regions ∧ (Dev.idlePorts c d).mct = d.mct ∧ (Dev.idlePorts c d).cru = d.cru ∧ (Dev.idlePorts c d).acc = d.acc ∧ (Dev.idlePorts c d).flt = d.flt ∧ (Dev.idlePorts c d).svc = d.svc ∧ (Dev.idlePorts c d).tb = d.tb ∧ (Dev.idlePorts c d).clk = d.clk ∧ (Dev.idlePorts c d).rst = d.rst ∧ (Dev.idlePorts c d).hif = d.hif ∧ (Dev.idlePorts c d).pins = d.pins := by
  simp [Dev.idlePorts]

@[simp] theorem Dev.asUsed_frame (d : Dev) (p : Nat) (lost : List Nat) :
    (Dev.asUsed d p lost).now = d.now ∧ (Dev.asUsed d p lost).regs = d.regs ∧ (Dev.asUsed d p lost).mem = d.mem ∧ (Dev.asUsed d p lost).scene = d.scene ∧ (Dev.asUsed d p lost).ledger = d.ledger ∧ (Dev.asUsed d p lost).queues = d.queues ∧ (Dev.asUsed d p lost).turn = d.turn ∧ (Dev.asUsed d p lost).lastTurn = d.lastTurn ∧ (Dev.asUsed d p lost).rings = d.rings ∧ (Dev.asUsed d p lost).canvases = d.canvases ∧ (Dev.asUsed d p lost).comp = d.comp ∧ (Dev.asUsed d p lost).ports = d.ports ∧ (Dev.asUsed d p lost).chans = d.chans ∧ (Dev.asUsed d p lost).timers = d.timers ∧ (Dev.asUsed d p lost).mrv = d.mrv ∧ (Dev.asUsed d p lost).engines = d.engines ∧ (Dev.asUsed d p lost).regions = d.regions ∧ (Dev.asUsed d p lost).cru = d.cru ∧ (Dev.asUsed d p lost).acc = d.acc ∧ (Dev.asUsed d p lost).flt = d.flt ∧ (Dev.asUsed d p lost).svc = d.svc ∧ (Dev.asUsed d p lost).tb = d.tb ∧ (Dev.asUsed d p lost).clk = d.clk ∧ (Dev.asUsed d p lost).rst = d.rst ∧ (Dev.asUsed d p lost).hif = d.hif ∧ (Dev.asUsed d p lost).pins = d.pins := by
  simp [Dev.asUsed]

@[simp] theorem Dev.takePlain_frame (c : Nat) (d : Dev) :
    (Dev.takePlain c d).now = d.now ∧ (Dev.takePlain c d).luts = d.luts ∧ (Dev.takePlain c d).mem = d.mem ∧ (Dev.takePlain c d).scene = d.scene ∧ (Dev.takePlain c d).ledger = d.ledger ∧ (Dev.takePlain c d).queues = d.queues ∧ (Dev.takePlain c d).turn = d.turn ∧ (Dev.takePlain c d).lastTurn = d.lastTurn ∧ (Dev.takePlain c d).rings = d.rings ∧ (Dev.takePlain c d).comp = d.comp ∧ (Dev.takePlain c d).ports = d.ports ∧ (Dev.takePlain c d).chans = d.chans ∧ (Dev.takePlain c d).timers = d.timers ∧ (Dev.takePlain c d).mrv = d.mrv ∧ (Dev.takePlain c d).engines = d.engines ∧ (Dev.takePlain c d).regions = d.regions ∧ (Dev.takePlain c d).mct = d.mct ∧ (Dev.takePlain c d).cru = d.cru ∧ (Dev.takePlain c d).acc = d.acc ∧ (Dev.takePlain c d).svc = d.svc ∧ (Dev.takePlain c d).tb = d.tb ∧ (Dev.takePlain c d).clk = d.clk ∧ (Dev.takePlain c d).rst = d.rst ∧ (Dev.takePlain c d).hif = d.hif ∧ (Dev.takePlain c d).pins = d.pins := by
  simp [Dev.takePlain]

@[simp] theorem Dev.takeCsp_frame (c : Nat) (d : Dev) :
    (Dev.takeCsp c d).now = d.now ∧ (Dev.takeCsp c d).luts = d.luts ∧ (Dev.takeCsp c d).mem = d.mem ∧ (Dev.takeCsp c d).scene = d.scene ∧ (Dev.takeCsp c d).ledger = d.ledger ∧ (Dev.takeCsp c d).queues = d.queues ∧ (Dev.takeCsp c d).turn = d.turn ∧ (Dev.takeCsp c d).lastTurn = d.lastTurn ∧ (Dev.takeCsp c d).rings = d.rings ∧ (Dev.takeCsp c d).canvases = d.canvases ∧ (Dev.takeCsp c d).comp = d.comp ∧ (Dev.takeCsp c d).ports = d.ports ∧ (Dev.takeCsp c d).chans = d.chans ∧ (Dev.takeCsp c d).timers = d.timers ∧ (Dev.takeCsp c d).mrv = d.mrv ∧ (Dev.takeCsp c d).engines = d.engines ∧ (Dev.takeCsp c d).regions = d.regions ∧ (Dev.takeCsp c d).mct = d.mct ∧ (Dev.takeCsp c d).cru = d.cru ∧ (Dev.takeCsp c d).acc = d.acc ∧ (Dev.takeCsp c d).flt = d.flt ∧ (Dev.takeCsp c d).svc = d.svc ∧ (Dev.takeCsp c d).tb = d.tb ∧ (Dev.takeCsp c d).clk = d.clk ∧ (Dev.takeCsp c d).rst = d.rst ∧ (Dev.takeCsp c d).hif = d.hif ∧ (Dev.takeCsp c d).pins = d.pins := by
  simp [Dev.takeCsp]

@[simp] theorem Dev.countSkips_frame (c : Nat) (d : Dev) :
    (Dev.countSkips c d).now = d.now ∧ (Dev.countSkips c d).regs = d.regs ∧ (Dev.countSkips c d).luts = d.luts ∧ (Dev.countSkips c d).mem = d.mem ∧ (Dev.countSkips c d).ledger = d.ledger ∧ (Dev.countSkips c d).queues = d.queues ∧ (Dev.countSkips c d).turn = d.turn ∧ (Dev.countSkips c d).lastTurn = d.lastTurn ∧ (Dev.countSkips c d).rings = d.rings ∧ (Dev.countSkips c d).canvases = d.canvases ∧ (Dev.countSkips c d).comp = d.comp ∧ (Dev.countSkips c d).ports = d.ports ∧ (Dev.countSkips c d).chans = d.chans ∧ (Dev.countSkips c d).timers = d.timers ∧ (Dev.countSkips c d).mrv = d.mrv ∧ (Dev.countSkips c d).engines = d.engines ∧ (Dev.countSkips c d).regions = d.regions ∧ (Dev.countSkips c d).mct = d.mct ∧ (Dev.countSkips c d).cru = d.cru ∧ (Dev.countSkips c d).acc = d.acc ∧ (Dev.countSkips c d).flt = d.flt ∧ (Dev.countSkips c d).svc = d.svc ∧ (Dev.countSkips c d).tb = d.tb ∧ (Dev.countSkips c d).clk = d.clk ∧ (Dev.countSkips c d).rst = d.rst ∧ (Dev.countSkips c d).hif = d.hif ∧ (Dev.countSkips c d).pins = d.pins := by
  simp [Dev.countSkips]

@[simp] theorem Dev.mapPipes_frame (f : Pipe → Pipe) (d : Dev) :
    (Dev.mapPipes f d).now = d.now ∧ (Dev.mapPipes f d).regs = d.regs ∧ (Dev.mapPipes f d).luts = d.luts ∧ (Dev.mapPipes f d).mem = d.mem ∧ (Dev.mapPipes f d).scene = d.scene ∧ (Dev.mapPipes f d).ledger = d.ledger ∧ (Dev.mapPipes f d).queues = d.queues ∧ (Dev.mapPipes f d).turn = d.turn ∧ (Dev.mapPipes f d).lastTurn = d.lastTurn ∧ (Dev.mapPipes f d).rings = d.rings ∧ (Dev.mapPipes f d).canvases = d.canvases ∧ (Dev.mapPipes f d).ports = d.ports ∧ (Dev.mapPipes f d).chans = d.chans ∧ (Dev.mapPipes f d).timers = d.timers ∧ (Dev.mapPipes f d).mrv = d.mrv ∧ (Dev.mapPipes f d).engines = d.engines ∧ (Dev.mapPipes f d).regions = d.regions ∧ (Dev.mapPipes f d).mct = d.mct ∧ (Dev.mapPipes f d).cru = d.cru ∧ (Dev.mapPipes f d).acc = d.acc ∧ (Dev.mapPipes f d).flt = d.flt ∧ (Dev.mapPipes f d).svc = d.svc ∧ (Dev.mapPipes f d).tb = d.tb ∧ (Dev.mapPipes f d).clk = d.clk ∧ (Dev.mapPipes f d).rst = d.rst ∧ (Dev.mapPipes f d).hif = d.hif ∧ (Dev.mapPipes f d).pins = d.pins := by
  simp [Dev.mapPipes]

@[simp] theorem Dev.killBands_frame (c : Nat) (par : Option Bool) (d : Dev) :
    (Dev.killBands c par d).now = d.now ∧ (Dev.killBands c par d).regs = d.regs ∧ (Dev.killBands c par d).luts = d.luts ∧ (Dev.killBands c par d).mem = d.mem ∧ (Dev.killBands c par d).scene = d.scene ∧ (Dev.killBands c par d).ledger = d.ledger ∧ (Dev.killBands c par d).queues = d.queues ∧ (Dev.killBands c par d).turn = d.turn ∧ (Dev.killBands c par d).lastTurn = d.lastTurn ∧ (Dev.killBands c par d).rings = d.rings ∧ (Dev.killBands c par d).canvases = d.canvases ∧ (Dev.killBands c par d).ports = d.ports ∧ (Dev.killBands c par d).chans = d.chans ∧ (Dev.killBands c par d).timers = d.timers ∧ (Dev.killBands c par d).mrv = d.mrv ∧ (Dev.killBands c par d).engines = d.engines ∧ (Dev.killBands c par d).regions = d.regions ∧ (Dev.killBands c par d).mct = d.mct ∧ (Dev.killBands c par d).cru = d.cru ∧ (Dev.killBands c par d).acc = d.acc ∧ (Dev.killBands c par d).flt = d.flt ∧ (Dev.killBands c par d).svc = d.svc ∧ (Dev.killBands c par d).tb = d.tb ∧ (Dev.killBands c par d).clk = d.clk ∧ (Dev.killBands c par d).rst = d.rst ∧ (Dev.killBands c par d).hif = d.hif ∧ (Dev.killBands c par d).pins = d.pins := by
  simp [Dev.killBands]

@[simp] theorem Dev.offer_frame (r : Released) (d : Dev) :
    (Dev.offer r d).now = d.now ∧ (Dev.offer r d).regs = d.regs ∧ (Dev.offer r d).luts = d.luts ∧ (Dev.offer r d).mem = d.mem ∧ (Dev.offer r d).scene = d.scene ∧ (Dev.offer r d).ledger = d.ledger ∧ (Dev.offer r d).queues = d.queues ∧ (Dev.offer r d).turn = d.turn ∧ (Dev.offer r d).lastTurn = d.lastTurn ∧ (Dev.offer r d).rings = d.rings ∧ (Dev.offer r d).canvases = d.canvases ∧ (Dev.offer r d).ports = d.ports ∧ (Dev.offer r d).chans = d.chans ∧ (Dev.offer r d).timers = d.timers ∧ (Dev.offer r d).mrv = d.mrv ∧ (Dev.offer r d).engines = d.engines ∧ (Dev.offer r d).regions = d.regions ∧ (Dev.offer r d).mct = d.mct ∧ (Dev.offer r d).cru = d.cru ∧ (Dev.offer r d).acc = d.acc ∧ (Dev.offer r d).flt = d.flt ∧ (Dev.offer r d).svc = d.svc ∧ (Dev.offer r d).tb = d.tb ∧ (Dev.offer r d).clk = d.clk ∧ (Dev.offer r d).rst = d.rst ∧ (Dev.offer r d).hif = d.hif ∧ (Dev.offer r d).pins = d.pins := by
  simp [Dev.offer]

@[simp] theorem Dev.startWriter_frame (c : Nat) (f : Nat) (b : Nat) (first : Bool) (d : Dev) :
    (Dev.startWriter c f b first d).now = d.now ∧ (Dev.startWriter c f b first d).regs = d.regs ∧ (Dev.startWriter c f b first d).luts = d.luts ∧ (Dev.startWriter c f b first d).mem = d.mem ∧ (Dev.startWriter c f b first d).scene = d.scene ∧ (Dev.startWriter c f b first d).ledger = d.ledger ∧ (Dev.startWriter c f b first d).queues = d.queues ∧ (Dev.startWriter c f b first d).turn = d.turn ∧ (Dev.startWriter c f b first d).lastTurn = d.lastTurn ∧ (Dev.startWriter c f b first d).rings = d.rings ∧ (Dev.startWriter c f b first d).ports = d.ports ∧ (Dev.startWriter c f b first d).chans = d.chans ∧ (Dev.startWriter c f b first d).timers = d.timers ∧ (Dev.startWriter c f b first d).mrv = d.mrv ∧ (Dev.startWriter c f b first d).engines = d.engines ∧ (Dev.startWriter c f b first d).regions = d.regions ∧ (Dev.startWriter c f b first d).mct = d.mct ∧ (Dev.startWriter c f b first d).cru = d.cru ∧ (Dev.startWriter c f b first d).acc = d.acc ∧ (Dev.startWriter c f b first d).flt = d.flt ∧ (Dev.startWriter c f b first d).svc = d.svc ∧ (Dev.startWriter c f b first d).tb = d.tb ∧ (Dev.startWriter c f b first d).clk = d.clk ∧ (Dev.startWriter c f b first d).rst = d.rst ∧ (Dev.startWriter c f b first d).hif = d.hif ∧ (Dev.startWriter c f b first d).pins = d.pins := by
  simp [Dev.startWriter]

@[simp] theorem Dev.dropWriter_frame (c : Nat) (d : Dev) :
    (Dev.dropWriter c d).now = d.now ∧ (Dev.dropWriter c d).regs = d.regs ∧ (Dev.dropWriter c d).luts = d.luts ∧ (Dev.dropWriter c d).mem = d.mem ∧ (Dev.dropWriter c d).scene = d.scene ∧ (Dev.dropWriter c d).ledger = d.ledger ∧ (Dev.dropWriter c d).queues = d.queues ∧ (Dev.dropWriter c d).turn = d.turn ∧ (Dev.dropWriter c d).lastTurn = d.lastTurn ∧ (Dev.dropWriter c d).rings = d.rings ∧ (Dev.dropWriter c d).ports = d.ports ∧ (Dev.dropWriter c d).chans = d.chans ∧ (Dev.dropWriter c d).timers = d.timers ∧ (Dev.dropWriter c d).mrv = d.mrv ∧ (Dev.dropWriter c d).engines = d.engines ∧ (Dev.dropWriter c d).regions = d.regions ∧ (Dev.dropWriter c d).mct = d.mct ∧ (Dev.dropWriter c d).cru = d.cru ∧ (Dev.dropWriter c d).acc = d.acc ∧ (Dev.dropWriter c d).flt = d.flt ∧ (Dev.dropWriter c d).svc = d.svc ∧ (Dev.dropWriter c d).tb = d.tb ∧ (Dev.dropWriter c d).clk = d.clk ∧ (Dev.dropWriter c d).rst = d.rst ∧ (Dev.dropWriter c d).hif = d.hif ∧ (Dev.dropWriter c d).pins = d.pins := by
  simp [Dev.dropWriter]

@[simp] theorem Dev.takeMode_frame (c : Nat) (f : Nat) (k : ModeChange) (before : SceneSnap) (d : Dev) :
    (Dev.takeMode c f k before d).now = d.now ∧ (Dev.takeMode c f k before d).regs = d.regs ∧ (Dev.takeMode c f k before d).luts = d.luts ∧ (Dev.takeMode c f k before d).mem = d.mem ∧ (Dev.takeMode c f k before d).scene = d.scene ∧ (Dev.takeMode c f k before d).ledger = d.ledger ∧ (Dev.takeMode c f k before d).queues = d.queues ∧ (Dev.takeMode c f k before d).turn = d.turn ∧ (Dev.takeMode c f k before d).lastTurn = d.lastTurn ∧ (Dev.takeMode c f k before d).rings = d.rings ∧ (Dev.takeMode c f k before d).ports = d.ports ∧ (Dev.takeMode c f k before d).chans = d.chans ∧ (Dev.takeMode c f k before d).timers = d.timers ∧ (Dev.takeMode c f k before d).mrv = d.mrv ∧ (Dev.takeMode c f k before d).engines = d.engines ∧ (Dev.takeMode c f k before d).regions = d.regions ∧ (Dev.takeMode c f k before d).mct = d.mct ∧ (Dev.takeMode c f k before d).cru = d.cru ∧ (Dev.takeMode c f k before d).acc = d.acc ∧ (Dev.takeMode c f k before d).flt = d.flt ∧ (Dev.takeMode c f k before d).svc = d.svc ∧ (Dev.takeMode c f k before d).tb = d.tb ∧ (Dev.takeMode c f k before d).clk = d.clk ∧ (Dev.takeMode c f k before d).rst = d.rst ∧ (Dev.takeMode c f k before d).hif = d.hif ∧ (Dev.takeMode c f k before d).pins = d.pins := by
  simp [Dev.takeMode]

@[simp] theorem Dev.latch_frame (c : Nat) (f : Nat) (d : Dev) :
    (Dev.latch c f d).now = d.now ∧ (Dev.latch c f d).luts = d.luts ∧ (Dev.latch c f d).turn = d.turn ∧ (Dev.latch c f d).lastTurn = d.lastTurn ∧ (Dev.latch c f d).chans = d.chans ∧ (Dev.latch c f d).timers = d.timers ∧ (Dev.latch c f d).mrv = d.mrv ∧ (Dev.latch c f d).engines = d.engines ∧ (Dev.latch c f d).regions = d.regions ∧ (Dev.latch c f d).svc = d.svc ∧ (Dev.latch c f d).tb = d.tb ∧ (Dev.latch c f d).clk = d.clk ∧ (Dev.latch c f d).rst = d.rst ∧ (Dev.latch c f d).pins = d.pins := by
  unfold Dev.latch; try dsimp only
  (repeat' split) <;> simp

@[simp] theorem Dev.noteFill_frame (c : Nat) (y : Nat) (d : Dev) :
    (Dev.noteFill c y d).now = d.now ∧ (Dev.noteFill c y d).regs = d.regs ∧ (Dev.noteFill c y d).luts = d.luts ∧ (Dev.noteFill c y d).mem = d.mem ∧ (Dev.noteFill c y d).scene = d.scene ∧ (Dev.noteFill c y d).ledger = d.ledger ∧ (Dev.noteFill c y d).queues = d.queues ∧ (Dev.noteFill c y d).turn = d.turn ∧ (Dev.noteFill c y d).lastTurn = d.lastTurn ∧ (Dev.noteFill c y d).rings = d.rings ∧ (Dev.noteFill c y d).canvases = d.canvases ∧ (Dev.noteFill c y d).comp = d.comp ∧ (Dev.noteFill c y d).ports = d.ports ∧ (Dev.noteFill c y d).chans = d.chans ∧ (Dev.noteFill c y d).timers = d.timers ∧ (Dev.noteFill c y d).mrv = d.mrv ∧ (Dev.noteFill c y d).engines = d.engines ∧ (Dev.noteFill c y d).regions = d.regions ∧ (Dev.noteFill c y d).acc = d.acc ∧ (Dev.noteFill c y d).svc = d.svc ∧ (Dev.noteFill c y d).tb = d.tb ∧ (Dev.noteFill c y d).clk = d.clk ∧ (Dev.noteFill c y d).rst = d.rst ∧ (Dev.noteFill c y d).hif = d.hif ∧ (Dev.noteFill c y d).pins = d.pins := by
  unfold Dev.noteFill; try dsimp only
  (repeat' split) <;> simp

@[simp] theorem Dev.putLine_frame (c : Nat) (f : Nat) (y : Nat) (ws : List Word) (d : Dev) :
    (Dev.putLine c f y ws d).now = d.now ∧ (Dev.putLine c f y ws d).regs = d.regs ∧ (Dev.putLine c f y ws d).luts = d.luts ∧ (Dev.putLine c f y ws d).mem = d.mem ∧ (Dev.putLine c f y ws d).scene = d.scene ∧ (Dev.putLine c f y ws d).ledger = d.ledger ∧ (Dev.putLine c f y ws d).queues = d.queues ∧ (Dev.putLine c f y ws d).turn = d.turn ∧ (Dev.putLine c f y ws d).lastTurn = d.lastTurn ∧ (Dev.putLine c f y ws d).rings = d.rings ∧ (Dev.putLine c f y ws d).comp = d.comp ∧ (Dev.putLine c f y ws d).ports = d.ports ∧ (Dev.putLine c f y ws d).chans = d.chans ∧ (Dev.putLine c f y ws d).timers = d.timers ∧ (Dev.putLine c f y ws d).mrv = d.mrv ∧ (Dev.putLine c f y ws d).engines = d.engines ∧ (Dev.putLine c f y ws d).regions = d.regions ∧ (Dev.putLine c f y ws d).mct = d.mct ∧ (Dev.putLine c f y ws d).cru = d.cru ∧ (Dev.putLine c f y ws d).acc = d.acc ∧ (Dev.putLine c f y ws d).flt = d.flt ∧ (Dev.putLine c f y ws d).svc = d.svc ∧ (Dev.putLine c f y ws d).tb = d.tb ∧ (Dev.putLine c f y ws d).clk = d.clk ∧ (Dev.putLine c f y ws d).rst = d.rst ∧ (Dev.putLine c f y ws d).hif = d.hif ∧ (Dev.putLine c f y ws d).pins = d.pins := by
  simp [Dev.putLine]

@[simp] theorem Dev.releaseBand_frame (c : Nat) (b : Nat) (latched : Bool) (d : Dev) :
    (Dev.releaseBand c b latched d).now = d.now ∧ (Dev.releaseBand c b latched d).regs = d.regs ∧ (Dev.releaseBand c b latched d).luts = d.luts ∧ (Dev.releaseBand c b latched d).mem = d.mem ∧ (Dev.releaseBand c b latched d).scene = d.scene ∧ (Dev.releaseBand c b latched d).ledger = d.ledger ∧ (Dev.releaseBand c b latched d).queues = d.queues ∧ (Dev.releaseBand c b latched d).turn = d.turn ∧ (Dev.releaseBand c b latched d).lastTurn = d.lastTurn ∧ (Dev.releaseBand c b latched d).rings = d.rings ∧ (Dev.releaseBand c b latched d).ports = d.ports ∧ (Dev.releaseBand c b latched d).chans = d.chans ∧ (Dev.releaseBand c b latched d).timers = d.timers ∧ (Dev.releaseBand c b latched d).mrv = d.mrv ∧ (Dev.releaseBand c b latched d).engines = d.engines ∧ (Dev.releaseBand c b latched d).regions = d.regions ∧ (Dev.releaseBand c b latched d).acc = d.acc ∧ (Dev.releaseBand c b latched d).svc = d.svc ∧ (Dev.releaseBand c b latched d).tb = d.tb ∧ (Dev.releaseBand c b latched d).clk = d.clk ∧ (Dev.releaseBand c b latched d).rst = d.rst ∧ (Dev.releaseBand c b latched d).hif = d.hif ∧ (Dev.releaseBand c b latched d).pins = d.pins := by
  simp [Dev.releaseBand]

@[simp] theorem Dev.decision_frame (c : Nat) (d : Dev) :
    (Dev.decision c d).now = d.now ∧ (Dev.decision c d).regs = d.regs ∧ (Dev.decision c d).luts = d.luts ∧ (Dev.decision c d).mem = d.mem ∧ (Dev.decision c d).scene = d.scene ∧ (Dev.decision c d).ledger = d.ledger ∧ (Dev.decision c d).queues = d.queues ∧ (Dev.decision c d).turn = d.turn ∧ (Dev.decision c d).lastTurn = d.lastTurn ∧ (Dev.decision c d).rings = d.rings ∧ (Dev.decision c d).ports = d.ports ∧ (Dev.decision c d).chans = d.chans ∧ (Dev.decision c d).timers = d.timers ∧ (Dev.decision c d).mrv = d.mrv ∧ (Dev.decision c d).engines = d.engines ∧ (Dev.decision c d).regions = d.regions ∧ (Dev.decision c d).mct = d.mct ∧ (Dev.decision c d).cru = d.cru ∧ (Dev.decision c d).acc = d.acc ∧ (Dev.decision c d).flt = d.flt ∧ (Dev.decision c d).svc = d.svc ∧ (Dev.decision c d).tb = d.tb ∧ (Dev.decision c d).clk = d.clk ∧ (Dev.decision c d).rst = d.rst ∧ (Dev.decision c d).hif = d.hif ∧ (Dev.decision c d).pins = d.pins := by
  simp [Dev.decision]

@[simp] theorem Dev.releaseFirst_frame (c : Nat) (d : Dev) :
    (Dev.releaseFirst c d).now = d.now ∧ (Dev.releaseFirst c d).luts = d.luts ∧ (Dev.releaseFirst c d).turn = d.turn ∧ (Dev.releaseFirst c d).lastTurn = d.lastTurn ∧ (Dev.releaseFirst c d).chans = d.chans ∧ (Dev.releaseFirst c d).timers = d.timers ∧ (Dev.releaseFirst c d).mrv = d.mrv ∧ (Dev.releaseFirst c d).engines = d.engines ∧ (Dev.releaseFirst c d).regions = d.regions ∧ (Dev.releaseFirst c d).svc = d.svc ∧ (Dev.releaseFirst c d).tb = d.tb ∧ (Dev.releaseFirst c d).clk = d.clk ∧ (Dev.releaseFirst c d).rst = d.rst ∧ (Dev.releaseFirst c d).pins = d.pins := by
  simp [Dev.releaseFirst]

@[simp] theorem Dev.reference_frame (src : Nat) (m : Nat) (d : Dev) :
    (Dev.reference src m d).now = d.now ∧ (Dev.reference src m d).regs = d.regs ∧ (Dev.reference src m d).luts = d.luts ∧ (Dev.reference src m d).mem = d.mem ∧ (Dev.reference src m d).scene = d.scene ∧ (Dev.reference src m d).ledger = d.ledger ∧ (Dev.reference src m d).queues = d.queues ∧ (Dev.reference src m d).turn = d.turn ∧ (Dev.reference src m d).lastTurn = d.lastTurn ∧ (Dev.reference src m d).rings = d.rings ∧ (Dev.reference src m d).comp = d.comp ∧ (Dev.reference src m d).ports = d.ports ∧ (Dev.reference src m d).chans = d.chans ∧ (Dev.reference src m d).timers = d.timers ∧ (Dev.reference src m d).mrv = d.mrv ∧ (Dev.reference src m d).engines = d.engines ∧ (Dev.reference src m d).regions = d.regions ∧ (Dev.reference src m d).mct = d.mct ∧ (Dev.reference src m d).cru = d.cru ∧ (Dev.reference src m d).acc = d.acc ∧ (Dev.reference src m d).flt = d.flt ∧ (Dev.reference src m d).svc = d.svc ∧ (Dev.reference src m d).tb = d.tb ∧ (Dev.reference src m d).clk = d.clk ∧ (Dev.reference src m d).rst = d.rst ∧ (Dev.reference src m d).hif = d.hif ∧ (Dev.reference src m d).pins = d.pins := by
  simp [Dev.reference]

@[simp] theorem Dev.enterHoldover_frame (c : Nat) (d : Dev) :
    (Dev.enterHoldover c d).now = d.now ∧ (Dev.enterHoldover c d).regs = d.regs ∧ (Dev.enterHoldover c d).luts = d.luts ∧ (Dev.enterHoldover c d).mem = d.mem ∧ (Dev.enterHoldover c d).scene = d.scene ∧ (Dev.enterHoldover c d).ledger = d.ledger ∧ (Dev.enterHoldover c d).queues = d.queues ∧ (Dev.enterHoldover c d).turn = d.turn ∧ (Dev.enterHoldover c d).lastTurn = d.lastTurn ∧ (Dev.enterHoldover c d).rings = d.rings ∧ (Dev.enterHoldover c d).comp = d.comp ∧ (Dev.enterHoldover c d).ports = d.ports ∧ (Dev.enterHoldover c d).chans = d.chans ∧ (Dev.enterHoldover c d).timers = d.timers ∧ (Dev.enterHoldover c d).mrv = d.mrv ∧ (Dev.enterHoldover c d).engines = d.engines ∧ (Dev.enterHoldover c d).regions = d.regions ∧ (Dev.enterHoldover c d).mct = d.mct ∧ (Dev.enterHoldover c d).cru = d.cru ∧ (Dev.enterHoldover c d).acc = d.acc ∧ (Dev.enterHoldover c d).svc = d.svc ∧ (Dev.enterHoldover c d).tb = d.tb ∧ (Dev.enterHoldover c d).clk = d.clk ∧ (Dev.enterHoldover c d).rst = d.rst ∧ (Dev.enterHoldover c d).hif = d.hif ∧ (Dev.enterHoldover c d).pins = d.pins := by
  simp [Dev.enterHoldover]

@[simp] theorem Dev.masterLeft_frame (m : Nat) (d : Dev) :
    (Dev.masterLeft m d).now = d.now ∧ (Dev.masterLeft m d).regs = d.regs ∧ (Dev.masterLeft m d).luts = d.luts ∧ (Dev.masterLeft m d).mem = d.mem ∧ (Dev.masterLeft m d).scene = d.scene ∧ (Dev.masterLeft m d).ledger = d.ledger ∧ (Dev.masterLeft m d).queues = d.queues ∧ (Dev.masterLeft m d).turn = d.turn ∧ (Dev.masterLeft m d).lastTurn = d.lastTurn ∧ (Dev.masterLeft m d).rings = d.rings ∧ (Dev.masterLeft m d).comp = d.comp ∧ (Dev.masterLeft m d).ports = d.ports ∧ (Dev.masterLeft m d).chans = d.chans ∧ (Dev.masterLeft m d).timers = d.timers ∧ (Dev.masterLeft m d).mrv = d.mrv ∧ (Dev.masterLeft m d).engines = d.engines ∧ (Dev.masterLeft m d).regions = d.regions ∧ (Dev.masterLeft m d).mct = d.mct ∧ (Dev.masterLeft m d).cru = d.cru ∧ (Dev.masterLeft m d).acc = d.acc ∧ (Dev.masterLeft m d).svc = d.svc ∧ (Dev.masterLeft m d).tb = d.tb ∧ (Dev.masterLeft m d).clk = d.clk ∧ (Dev.masterLeft m d).rst = d.rst ∧ (Dev.masterLeft m d).hif = d.hif ∧ (Dev.masterLeft m d).pins = d.pins := by
  simp [Dev.masterLeft]

@[simp] theorem Dev.masterBack_frame (m : Nat) (d : Dev) :
    (Dev.masterBack m d).now = d.now ∧ (Dev.masterBack m d).regs = d.regs ∧ (Dev.masterBack m d).luts = d.luts ∧ (Dev.masterBack m d).mem = d.mem ∧ (Dev.masterBack m d).scene = d.scene ∧ (Dev.masterBack m d).ledger = d.ledger ∧ (Dev.masterBack m d).queues = d.queues ∧ (Dev.masterBack m d).turn = d.turn ∧ (Dev.masterBack m d).lastTurn = d.lastTurn ∧ (Dev.masterBack m d).rings = d.rings ∧ (Dev.masterBack m d).comp = d.comp ∧ (Dev.masterBack m d).ports = d.ports ∧ (Dev.masterBack m d).chans = d.chans ∧ (Dev.masterBack m d).timers = d.timers ∧ (Dev.masterBack m d).mrv = d.mrv ∧ (Dev.masterBack m d).engines = d.engines ∧ (Dev.masterBack m d).regions = d.regions ∧ (Dev.masterBack m d).mct = d.mct ∧ (Dev.masterBack m d).cru = d.cru ∧ (Dev.masterBack m d).acc = d.acc ∧ (Dev.masterBack m d).flt = d.flt ∧ (Dev.masterBack m d).svc = d.svc ∧ (Dev.masterBack m d).tb = d.tb ∧ (Dev.masterBack m d).clk = d.clk ∧ (Dev.masterBack m d).rst = d.rst ∧ (Dev.masterBack m d).hif = d.hif ∧ (Dev.masterBack m d).pins = d.pins := by
  simp [Dev.masterBack]

@[simp] theorem Dev.measureLock_frame (c : Nat) (d : Dev) :
    (Dev.measureLock c d).now = d.now ∧ (Dev.measureLock c d).regs = d.regs ∧ (Dev.measureLock c d).luts = d.luts ∧ (Dev.measureLock c d).mem = d.mem ∧ (Dev.measureLock c d).scene = d.scene ∧ (Dev.measureLock c d).ledger = d.ledger ∧ (Dev.measureLock c d).queues = d.queues ∧ (Dev.measureLock c d).turn = d.turn ∧ (Dev.measureLock c d).lastTurn = d.lastTurn ∧ (Dev.measureLock c d).rings = d.rings ∧ (Dev.measureLock c d).comp = d.comp ∧ (Dev.measureLock c d).ports = d.ports ∧ (Dev.measureLock c d).chans = d.chans ∧ (Dev.measureLock c d).timers = d.timers ∧ (Dev.measureLock c d).mrv = d.mrv ∧ (Dev.measureLock c d).engines = d.engines ∧ (Dev.measureLock c d).regions = d.regions ∧ (Dev.measureLock c d).mct = d.mct ∧ (Dev.measureLock c d).cru = d.cru ∧ (Dev.measureLock c d).acc = d.acc ∧ (Dev.measureLock c d).flt = d.flt ∧ (Dev.measureLock c d).svc = d.svc ∧ (Dev.measureLock c d).tb = d.tb ∧ (Dev.measureLock c d).clk = d.clk ∧ (Dev.measureLock c d).rst = d.rst ∧ (Dev.measureLock c d).hif = d.hif ∧ (Dev.measureLock c d).pins = d.pins := by
  unfold Dev.measureLock; try dsimp only
  (repeat' split) <;> simp

@[simp] theorem Dev.applyIdle_frame (c : Nat) (d : Dev) :
    (Dev.applyIdle c d).now = d.now ∧ (Dev.applyIdle c d).luts = d.luts ∧ (Dev.applyIdle c d).mem = d.mem ∧ (Dev.applyIdle c d).scene = d.scene ∧ (Dev.applyIdle c d).ledger = d.ledger ∧ (Dev.applyIdle c d).queues = d.queues ∧ (Dev.applyIdle c d).turn = d.turn ∧ (Dev.applyIdle c d).lastTurn = d.lastTurn ∧ (Dev.applyIdle c d).rings = d.rings ∧ (Dev.applyIdle c d).comp = d.comp ∧ (Dev.applyIdle c d).chans = d.chans ∧ (Dev.applyIdle c d).timers = d.timers ∧ (Dev.applyIdle c d).mrv = d.mrv ∧ (Dev.applyIdle c d).engines = d.engines ∧ (Dev.applyIdle c d).regions = d.regions ∧ (Dev.applyIdle c d).mct = d.mct ∧ (Dev.applyIdle c d).cru = d.cru ∧ (Dev.applyIdle c d).acc = d.acc ∧ (Dev.applyIdle c d).svc = d.svc ∧ (Dev.applyIdle c d).tb = d.tb ∧ (Dev.applyIdle c d).clk = d.clk ∧ (Dev.applyIdle c d).rst = d.rst ∧ (Dev.applyIdle c d).hif = d.hif ∧ (Dev.applyIdle c d).pins = d.pins := by
  simp [Dev.applyIdle]

@[simp] theorem Dev.applyAll_frame (c : Nat) (d : Dev) :
    (Dev.applyAll c d).now = d.now ∧ (Dev.applyAll c d).luts = d.luts ∧ (Dev.applyAll c d).turn = d.turn ∧ (Dev.applyAll c d).lastTurn = d.lastTurn ∧ (Dev.applyAll c d).comp = d.comp ∧ (Dev.applyAll c d).ports = d.ports ∧ (Dev.applyAll c d).chans = d.chans ∧ (Dev.applyAll c d).timers = d.timers ∧ (Dev.applyAll c d).mrv = d.mrv ∧ (Dev.applyAll c d).engines = d.engines ∧ (Dev.applyAll c d).regions = d.regions ∧ (Dev.applyAll c d).svc = d.svc ∧ (Dev.applyAll c d).tb = d.tb ∧ (Dev.applyAll c d).clk = d.clk ∧ (Dev.applyAll c d).rst = d.rst ∧ (Dev.applyAll c d).pins = d.pins := by
  simp [Dev.applyAll]

@[simp] theorem Dev.gateLeft_frame (c : Nat) (d : Dev) :
    (Dev.gateLeft c d).now = d.now ∧ (Dev.gateLeft c d).regs = d.regs ∧ (Dev.gateLeft c d).luts = d.luts ∧ (Dev.gateLeft c d).mem = d.mem ∧ (Dev.gateLeft c d).scene = d.scene ∧ (Dev.gateLeft c d).ledger = d.ledger ∧ (Dev.gateLeft c d).queues = d.queues ∧ (Dev.gateLeft c d).turn = d.turn ∧ (Dev.gateLeft c d).lastTurn = d.lastTurn ∧ (Dev.gateLeft c d).rings = d.rings ∧ (Dev.gateLeft c d).canvases = d.canvases ∧ (Dev.gateLeft c d).comp = d.comp ∧ (Dev.gateLeft c d).ports = d.ports ∧ (Dev.gateLeft c d).chans = d.chans ∧ (Dev.gateLeft c d).timers = d.timers ∧ (Dev.gateLeft c d).engines = d.engines ∧ (Dev.gateLeft c d).regions = d.regions ∧ (Dev.gateLeft c d).mct = d.mct ∧ (Dev.gateLeft c d).cru = d.cru ∧ (Dev.gateLeft c d).acc = d.acc ∧ (Dev.gateLeft c d).flt = d.flt ∧ (Dev.gateLeft c d).svc = d.svc ∧ (Dev.gateLeft c d).tb = d.tb ∧ (Dev.gateLeft c d).clk = d.clk ∧ (Dev.gateLeft c d).rst = d.rst ∧ (Dev.gateLeft c d).hif = d.hif ∧ (Dev.gateLeft c d).pins = d.pins := by
  simp [Dev.gateLeft]

@[simp] theorem Dev.trainPorts_frame (c : Nat) (d : Dev) :
    (Dev.trainPorts c d).now = d.now ∧ (Dev.trainPorts c d).luts = d.luts ∧ (Dev.trainPorts c d).mem = d.mem ∧ (Dev.trainPorts c d).scene = d.scene ∧ (Dev.trainPorts c d).ledger = d.ledger ∧ (Dev.trainPorts c d).queues = d.queues ∧ (Dev.trainPorts c d).turn = d.turn ∧ (Dev.trainPorts c d).lastTurn = d.lastTurn ∧ (Dev.trainPorts c d).rings = d.rings ∧ (Dev.trainPorts c d).canvases = d.canvases ∧ (Dev.trainPorts c d).comp = d.comp ∧ (Dev.trainPorts c d).chans = d.chans ∧ (Dev.trainPorts c d).timers = d.timers ∧ (Dev.trainPorts c d).mrv = d.mrv ∧ (Dev.trainPorts c d).engines = d.engines ∧ (Dev.trainPorts c d).regions = d.regions ∧ (Dev.trainPorts c d).mct = d.mct ∧ (Dev.trainPorts c d).cru = d.cru ∧ (Dev.trainPorts c d).acc = d.acc ∧ (Dev.trainPorts c d).flt = d.flt ∧ (Dev.trainPorts c d).svc = d.svc ∧ (Dev.trainPorts c d).tb = d.tb ∧ (Dev.trainPorts c d).clk = d.clk ∧ (Dev.trainPorts c d).rst = d.rst ∧ (Dev.trainPorts c d).hif = d.hif ∧ (Dev.trainPorts c d).pins = d.pins := by
  simp [Dev.trainPorts]

@[simp] theorem Dev.skipRegion_frame (c : Nat) (i : Nat) (d : Dev) :
    (Dev.skipRegion c i d).now = d.now ∧ (Dev.skipRegion c i d).regs = d.regs ∧ (Dev.skipRegion c i d).luts = d.luts ∧ (Dev.skipRegion c i d).mem = d.mem ∧ (Dev.skipRegion c i d).scene = d.scene ∧ (Dev.skipRegion c i d).ledger = d.ledger ∧ (Dev.skipRegion c i d).queues = d.queues ∧ (Dev.skipRegion c i d).turn = d.turn ∧ (Dev.skipRegion c i d).lastTurn = d.lastTurn ∧ (Dev.skipRegion c i d).rings = d.rings ∧ (Dev.skipRegion c i d).canvases = d.canvases ∧ (Dev.skipRegion c i d).comp = d.comp ∧ (Dev.skipRegion c i d).ports = d.ports ∧ (Dev.skipRegion c i d).chans = d.chans ∧ (Dev.skipRegion c i d).timers = d.timers ∧ (Dev.skipRegion c i d).mrv = d.mrv ∧ (Dev.skipRegion c i d).engines = d.engines ∧ (Dev.skipRegion c i d).mct = d.mct ∧ (Dev.skipRegion c i d).cru = d.cru ∧ (Dev.skipRegion c i d).acc = d.acc ∧ (Dev.skipRegion c i d).flt = d.flt ∧ (Dev.skipRegion c i d).svc = d.svc ∧ (Dev.skipRegion c i d).tb = d.tb ∧ (Dev.skipRegion c i d).clk = d.clk ∧ (Dev.skipRegion c i d).rst = d.rst ∧ (Dev.skipRegion c i d).hif = d.hif ∧ (Dev.skipRegion c i d).pins = d.pins := by
  simp [Dev.skipRegion]

@[simp] theorem Dev.cutRegions_frame (c : Nat) (d : Dev) :
    (Dev.cutRegions c d).now = d.now ∧ (Dev.cutRegions c d).regs = d.regs ∧ (Dev.cutRegions c d).luts = d.luts ∧ (Dev.cutRegions c d).mem = d.mem ∧ (Dev.cutRegions c d).scene = d.scene ∧ (Dev.cutRegions c d).ledger = d.ledger ∧ (Dev.cutRegions c d).queues = d.queues ∧ (Dev.cutRegions c d).turn = d.turn ∧ (Dev.cutRegions c d).lastTurn = d.lastTurn ∧ (Dev.cutRegions c d).rings = d.rings ∧ (Dev.cutRegions c d).canvases = d.canvases ∧ (Dev.cutRegions c d).comp = d.comp ∧ (Dev.cutRegions c d).ports = d.ports ∧ (Dev.cutRegions c d).chans = d.chans ∧ (Dev.cutRegions c d).timers = d.timers ∧ (Dev.cutRegions c d).mrv = d.mrv ∧ (Dev.cutRegions c d).engines = d.engines ∧ (Dev.cutRegions c d).mct = d.mct ∧ (Dev.cutRegions c d).cru = d.cru ∧ (Dev.cutRegions c d).acc = d.acc ∧ (Dev.cutRegions c d).flt = d.flt ∧ (Dev.cutRegions c d).svc = d.svc ∧ (Dev.cutRegions c d).tb = d.tb ∧ (Dev.cutRegions c d).clk = d.clk ∧ (Dev.cutRegions c d).rst = d.rst ∧ (Dev.cutRegions c d).hif = d.hif ∧ (Dev.cutRegions c d).pins = d.pins := by
  simp [Dev.cutRegions]

@[simp] theorem Dev.leaveRunning_frame (c : Nat) (d : Dev) :
    (Dev.leaveRunning c d).now = d.now ∧ (Dev.leaveRunning c d).regs = d.regs ∧ (Dev.leaveRunning c d).luts = d.luts ∧ (Dev.leaveRunning c d).mem = d.mem ∧ (Dev.leaveRunning c d).scene = d.scene ∧ (Dev.leaveRunning c d).ledger = d.ledger ∧ (Dev.leaveRunning c d).queues = d.queues ∧ (Dev.leaveRunning c d).turn = d.turn ∧ (Dev.leaveRunning c d).lastTurn = d.lastTurn ∧ (Dev.leaveRunning c d).rings = d.rings ∧ (Dev.leaveRunning c d).comp = d.comp ∧ (Dev.leaveRunning c d).ports = d.ports ∧ (Dev.leaveRunning c d).chans = d.chans ∧ (Dev.leaveRunning c d).timers = d.timers ∧ (Dev.leaveRunning c d).engines = d.engines ∧ (Dev.leaveRunning c d).mct = d.mct ∧ (Dev.leaveRunning c d).cru = d.cru ∧ (Dev.leaveRunning c d).acc = d.acc ∧ (Dev.leaveRunning c d).svc = d.svc ∧ (Dev.leaveRunning c d).tb = d.tb ∧ (Dev.leaveRunning c d).clk = d.clk ∧ (Dev.leaveRunning c d).rst = d.rst ∧ (Dev.leaveRunning c d).hif = d.hif ∧ (Dev.leaveRunning c d).pins = d.pins := by
  simp [Dev.leaveRunning]

@[simp] theorem Dev.drainCanvas_frame (c : Nat) (d : Dev) :
    (Dev.drainCanvas c d).now = d.now ∧ (Dev.drainCanvas c d).luts = d.luts ∧ (Dev.drainCanvas c d).turn = d.turn ∧ (Dev.drainCanvas c d).lastTurn = d.lastTurn ∧ (Dev.drainCanvas c d).chans = d.chans ∧ (Dev.drainCanvas c d).timers = d.timers ∧ (Dev.drainCanvas c d).engines = d.engines ∧ (Dev.drainCanvas c d).svc = d.svc ∧ (Dev.drainCanvas c d).tb = d.tb ∧ (Dev.drainCanvas c d).clk = d.clk ∧ (Dev.drainCanvas c d).rst = d.rst ∧ (Dev.drainCanvas c d).pins = d.pins := by
  simp [Dev.drainCanvas]

@[simp] theorem Dev.writeCanvasEn_frame (c : Nat) (b : Bool) (d : Dev) :
    (Dev.writeCanvasEn c b d).now = d.now ∧ (Dev.writeCanvasEn c b d).luts = d.luts ∧ (Dev.writeCanvasEn c b d).turn = d.turn ∧ (Dev.writeCanvasEn c b d).lastTurn = d.lastTurn ∧ (Dev.writeCanvasEn c b d).chans = d.chans ∧ (Dev.writeCanvasEn c b d).timers = d.timers ∧ (Dev.writeCanvasEn c b d).engines = d.engines ∧ (Dev.writeCanvasEn c b d).svc = d.svc ∧ (Dev.writeCanvasEn c b d).tb = d.tb ∧ (Dev.writeCanvasEn c b d).clk = d.clk ∧ (Dev.writeCanvasEn c b d).rst = d.rst ∧ (Dev.writeCanvasEn c b d).pins = d.pins := by
  unfold Dev.writeCanvasEn; try dsimp only
  (repeat' split) <;> simp

@[simp] theorem Dev.takeAdmitted_frame (c : Nat) (d : Dev) :
    (Dev.takeAdmitted c d).now = d.now ∧ (Dev.takeAdmitted c d).luts = d.luts ∧ (Dev.takeAdmitted c d).mem = d.mem ∧ (Dev.takeAdmitted c d).scene = d.scene ∧ (Dev.takeAdmitted c d).ledger = d.ledger ∧ (Dev.takeAdmitted c d).queues = d.queues ∧ (Dev.takeAdmitted c d).turn = d.turn ∧ (Dev.takeAdmitted c d).lastTurn = d.lastTurn ∧ (Dev.takeAdmitted c d).rings = d.rings ∧ (Dev.takeAdmitted c d).comp = d.comp ∧ (Dev.takeAdmitted c d).ports = d.ports ∧ (Dev.takeAdmitted c d).chans = d.chans ∧ (Dev.takeAdmitted c d).timers = d.timers ∧ (Dev.takeAdmitted c d).mrv = d.mrv ∧ (Dev.takeAdmitted c d).engines = d.engines ∧ (Dev.takeAdmitted c d).regions = d.regions ∧ (Dev.takeAdmitted c d).mct = d.mct ∧ (Dev.takeAdmitted c d).cru = d.cru ∧ (Dev.takeAdmitted c d).acc = d.acc ∧ (Dev.takeAdmitted c d).svc = d.svc ∧ (Dev.takeAdmitted c d).tb = d.tb ∧ (Dev.takeAdmitted c d).clk = d.clk ∧ (Dev.takeAdmitted c d).rst = d.rst ∧ (Dev.takeAdmitted c d).hif = d.hif ∧ (Dev.takeAdmitted c d).pins = d.pins := by
  simp [Dev.takeAdmitted]

@[simp] theorem Dev.canvasDrained_frame (c : Nat) (d : Dev) :
    (Dev.canvasDrained c d).now = d.now ∧ (Dev.canvasDrained c d).luts = d.luts ∧ (Dev.canvasDrained c d).turn = d.turn ∧ (Dev.canvasDrained c d).lastTurn = d.lastTurn ∧ (Dev.canvasDrained c d).comp = d.comp ∧ (Dev.canvasDrained c d).chans = d.chans ∧ (Dev.canvasDrained c d).timers = d.timers ∧ (Dev.canvasDrained c d).mrv = d.mrv ∧ (Dev.canvasDrained c d).engines = d.engines ∧ (Dev.canvasDrained c d).regions = d.regions ∧ (Dev.canvasDrained c d).svc = d.svc ∧ (Dev.canvasDrained c d).tb = d.tb ∧ (Dev.canvasDrained c d).clk = d.clk ∧ (Dev.canvasDrained c d).rst = d.rst ∧ (Dev.canvasDrained c d).pins = d.pins := by
  simp [Dev.canvasDrained]

@[simp] theorem Dev.startGather_frame (p : Nat) (h : Held) (lo : Nat) (d : Dev) :
    (Dev.startGather p h lo d).now = d.now ∧ (Dev.startGather p h lo d).regs = d.regs ∧ (Dev.startGather p h lo d).luts = d.luts ∧ (Dev.startGather p h lo d).mem = d.mem ∧ (Dev.startGather p h lo d).scene = d.scene ∧ (Dev.startGather p h lo d).ledger = d.ledger ∧ (Dev.startGather p h lo d).queues = d.queues ∧ (Dev.startGather p h lo d).turn = d.turn ∧ (Dev.startGather p h lo d).lastTurn = d.lastTurn ∧ (Dev.startGather p h lo d).rings = d.rings ∧ (Dev.startGather p h lo d).canvases = d.canvases ∧ (Dev.startGather p h lo d).ports = d.ports ∧ (Dev.startGather p h lo d).chans = d.chans ∧ (Dev.startGather p h lo d).timers = d.timers ∧ (Dev.startGather p h lo d).mrv = d.mrv ∧ (Dev.startGather p h lo d).engines = d.engines ∧ (Dev.startGather p h lo d).regions = d.regions ∧ (Dev.startGather p h lo d).mct = d.mct ∧ (Dev.startGather p h lo d).cru = d.cru ∧ (Dev.startGather p h lo d).acc = d.acc ∧ (Dev.startGather p h lo d).flt = d.flt ∧ (Dev.startGather p h lo d).svc = d.svc ∧ (Dev.startGather p h lo d).tb = d.tb ∧ (Dev.startGather p h lo d).clk = d.clk ∧ (Dev.startGather p h lo d).rst = d.rst ∧ (Dev.startGather p h lo d).hif = d.hif ∧ (Dev.startGather p h lo d).pins = d.pins := by
  unfold Dev.startGather
  refine ⟨foldl_now _ (fun d n => ?_) _ _, foldl_regs _ (fun d n => ?_) _ _, foldl_luts _ (fun d n => ?_) _ _, foldl_mem _ (fun d n => ?_) _ _, foldl_scene _ (fun d n => ?_) _ _, foldl_ledger _ (fun d n => ?_) _ _, foldl_queues _ (fun d n => ?_) _ _, foldl_turn _ (fun d n => ?_) _ _, foldl_lastTurn _ (fun d n => ?_) _ _, foldl_rings _ (fun d n => ?_) _ _, foldl_canvases _ (fun d n => ?_) _ _, foldl_ports _ (fun d n => ?_) _ _, foldl_chans _ (fun d n => ?_) _ _, foldl_timers _ (fun d n => ?_) _ _, foldl_mrv _ (fun d n => ?_) _ _, foldl_engines _ (fun d n => ?_) _ _, foldl_regions _ (fun d n => ?_) _ _, foldl_mct _ (fun d n => ?_) _ _, foldl_cru _ (fun d n => ?_) _ _, foldl_acc _ (fun d n => ?_) _ _, foldl_flt _ (fun d n => ?_) _ _, foldl_svc _ (fun d n => ?_) _ _, foldl_tb _ (fun d n => ?_) _ _, foldl_clk _ (fun d n => ?_) _ _, foldl_rst _ (fun d n => ?_) _ _, foldl_hif _ (fun d n => ?_) _ _, foldl_pins _ (fun d n => ?_) _ _⟩ <;> ((try dsimp only); (repeat' split) <;> first | rfl | simp)

@[simp] theorem Dev.stopGather_frame (p : Nat) (d : Dev) :
    (Dev.stopGather p d).now = d.now ∧ (Dev.stopGather p d).regs = d.regs ∧ (Dev.stopGather p d).luts = d.luts ∧ (Dev.stopGather p d).mem = d.mem ∧ (Dev.stopGather p d).scene = d.scene ∧ (Dev.stopGather p d).ledger = d.ledger ∧ (Dev.stopGather p d).queues = d.queues ∧ (Dev.stopGather p d).turn = d.turn ∧ (Dev.stopGather p d).lastTurn = d.lastTurn ∧ (Dev.stopGather p d).rings = d.rings ∧ (Dev.stopGather p d).canvases = d.canvases ∧ (Dev.stopGather p d).ports = d.ports ∧ (Dev.stopGather p d).chans = d.chans ∧ (Dev.stopGather p d).timers = d.timers ∧ (Dev.stopGather p d).mrv = d.mrv ∧ (Dev.stopGather p d).engines = d.engines ∧ (Dev.stopGather p d).regions = d.regions ∧ (Dev.stopGather p d).mct = d.mct ∧ (Dev.stopGather p d).cru = d.cru ∧ (Dev.stopGather p d).acc = d.acc ∧ (Dev.stopGather p d).flt = d.flt ∧ (Dev.stopGather p d).svc = d.svc ∧ (Dev.stopGather p d).tb = d.tb ∧ (Dev.stopGather p d).clk = d.clk ∧ (Dev.stopGather p d).rst = d.rst ∧ (Dev.stopGather p d).hif = d.hif ∧ (Dev.stopGather p d).pins = d.pins := by
  simp [Dev.stopGather]

@[simp] theorem Dev.freeGather_frame (p : Nat) (d : Dev) :
    (Dev.freeGather p d).now = d.now ∧ (Dev.freeGather p d).regs = d.regs ∧ (Dev.freeGather p d).luts = d.luts ∧ (Dev.freeGather p d).mem = d.mem ∧ (Dev.freeGather p d).scene = d.scene ∧ (Dev.freeGather p d).ledger = d.ledger ∧ (Dev.freeGather p d).queues = d.queues ∧ (Dev.freeGather p d).turn = d.turn ∧ (Dev.freeGather p d).lastTurn = d.lastTurn ∧ (Dev.freeGather p d).rings = d.rings ∧ (Dev.freeGather p d).canvases = d.canvases ∧ (Dev.freeGather p d).comp = d.comp ∧ (Dev.freeGather p d).ports = d.ports ∧ (Dev.freeGather p d).chans = d.chans ∧ (Dev.freeGather p d).timers = d.timers ∧ (Dev.freeGather p d).mrv = d.mrv ∧ (Dev.freeGather p d).engines = d.engines ∧ (Dev.freeGather p d).regions = d.regions ∧ (Dev.freeGather p d).cru = d.cru ∧ (Dev.freeGather p d).acc = d.acc ∧ (Dev.freeGather p d).flt = d.flt ∧ (Dev.freeGather p d).svc = d.svc ∧ (Dev.freeGather p d).tb = d.tb ∧ (Dev.freeGather p d).clk = d.clk ∧ (Dev.freeGather p d).rst = d.rst ∧ (Dev.freeGather p d).hif = d.hif ∧ (Dev.freeGather p d).pins = d.pins := by
  simp [Dev.freeGather]

@[simp] theorem Dev.fetchAtom_frame (lost : List Nat) (d : Dev) (t : Nat) :
    (Dev.fetchAtom lost d t).now = d.now ∧ (Dev.fetchAtom lost d t).regs = d.regs ∧ (Dev.fetchAtom lost d t).luts = d.luts ∧ (Dev.fetchAtom lost d t).mem = d.mem ∧ (Dev.fetchAtom lost d t).scene = d.scene ∧ (Dev.fetchAtom lost d t).ledger = d.ledger ∧ (Dev.fetchAtom lost d t).queues = d.queues ∧ (Dev.fetchAtom lost d t).turn = d.turn ∧ (Dev.fetchAtom lost d t).lastTurn = d.lastTurn ∧ (Dev.fetchAtom lost d t).rings = d.rings ∧ (Dev.fetchAtom lost d t).canvases = d.canvases ∧ (Dev.fetchAtom lost d t).comp = d.comp ∧ (Dev.fetchAtom lost d t).ports = d.ports ∧ (Dev.fetchAtom lost d t).chans = d.chans ∧ (Dev.fetchAtom lost d t).timers = d.timers ∧ (Dev.fetchAtom lost d t).mrv = d.mrv ∧ (Dev.fetchAtom lost d t).engines = d.engines ∧ (Dev.fetchAtom lost d t).regions = d.regions ∧ (Dev.fetchAtom lost d t).cru = d.cru ∧ (Dev.fetchAtom lost d t).acc = d.acc ∧ (Dev.fetchAtom lost d t).svc = d.svc ∧ (Dev.fetchAtom lost d t).tb = d.tb ∧ (Dev.fetchAtom lost d t).clk = d.clk ∧ (Dev.fetchAtom lost d t).rst = d.rst ∧ (Dev.fetchAtom lost d t).hif = d.hif ∧ (Dev.fetchAtom lost d t).pins = d.pins := by
  unfold Dev.fetchAtom; (repeat' split) <;> simp

@[simp] theorem Dev.receive_frame (piece : GatherPiece) (bad : Nat) (frit : Option (BitVec 128)) (d : Dev) (g : Nat) :
    (Dev.receive piece bad frit d g).now = d.now ∧ (Dev.receive piece bad frit d g).regs = d.regs ∧ (Dev.receive piece bad frit d g).luts = d.luts ∧ (Dev.receive piece bad frit d g).mem = d.mem ∧ (Dev.receive piece bad frit d g).scene = d.scene ∧ (Dev.receive piece bad frit d g).ledger = d.ledger ∧ (Dev.receive piece bad frit d g).queues = d.queues ∧ (Dev.receive piece bad frit d g).turn = d.turn ∧ (Dev.receive piece bad frit d g).lastTurn = d.lastTurn ∧ (Dev.receive piece bad frit d g).rings = d.rings ∧ (Dev.receive piece bad frit d g).canvases = d.canvases ∧ (Dev.receive piece bad frit d g).ports = d.ports ∧ (Dev.receive piece bad frit d g).chans = d.chans ∧ (Dev.receive piece bad frit d g).timers = d.timers ∧ (Dev.receive piece bad frit d g).mrv = d.mrv ∧ (Dev.receive piece bad frit d g).engines = d.engines ∧ (Dev.receive piece bad frit d g).regions = d.regions ∧ (Dev.receive piece bad frit d g).mct = d.mct ∧ (Dev.receive piece bad frit d g).cru = d.cru ∧ (Dev.receive piece bad frit d g).acc = d.acc ∧ (Dev.receive piece bad frit d g).svc = d.svc ∧ (Dev.receive piece bad frit d g).tb = d.tb ∧ (Dev.receive piece bad frit d g).clk = d.clk ∧ (Dev.receive piece bad frit d g).rst = d.rst ∧ (Dev.receive piece bad frit d g).hif = d.hif ∧ (Dev.receive piece bad frit d g).pins = d.pins := by
  unfold Dev.receive; (repeat' split) <;> simp

@[simp] theorem Dev.pieceArrives_frame (ps : List Nat) (h : Held) (k : Nat) (piece : GatherPiece) (lost : List Nat) (d : Dev) :
    (Dev.pieceArrives ps h k piece lost d).now = d.now ∧ (Dev.pieceArrives ps h k piece lost d).regs = d.regs ∧ (Dev.pieceArrives ps h k piece lost d).luts = d.luts ∧ (Dev.pieceArrives ps h k piece lost d).mem = d.mem ∧ (Dev.pieceArrives ps h k piece lost d).scene = d.scene ∧ (Dev.pieceArrives ps h k piece lost d).ledger = d.ledger ∧ (Dev.pieceArrives ps h k piece lost d).queues = d.queues ∧ (Dev.pieceArrives ps h k piece lost d).turn = d.turn ∧ (Dev.pieceArrives ps h k piece lost d).lastTurn = d.lastTurn ∧ (Dev.pieceArrives ps h k piece lost d).rings = d.rings ∧ (Dev.pieceArrives ps h k piece lost d).canvases = d.canvases ∧ (Dev.pieceArrives ps h k piece lost d).ports = d.ports ∧ (Dev.pieceArrives ps h k piece lost d).chans = d.chans ∧ (Dev.pieceArrives ps h k piece lost d).timers = d.timers ∧ (Dev.pieceArrives ps h k piece lost d).mrv = d.mrv ∧ (Dev.pieceArrives ps h k piece lost d).engines = d.engines ∧ (Dev.pieceArrives ps h k piece lost d).regions = d.regions ∧ (Dev.pieceArrives ps h k piece lost d).cru = d.cru ∧ (Dev.pieceArrives ps h k piece lost d).acc = d.acc ∧ (Dev.pieceArrives ps h k piece lost d).svc = d.svc ∧ (Dev.pieceArrives ps h k piece lost d).tb = d.tb ∧ (Dev.pieceArrives ps h k piece lost d).clk = d.clk ∧ (Dev.pieceArrives ps h k piece lost d).rst = d.rst ∧ (Dev.pieceArrives ps h k piece lost d).hif = d.hif ∧ (Dev.pieceArrives ps h k piece lost d).pins = d.pins := by
  simp [Dev.pieceArrives]

@[simp] theorem Dev.rotate_frame (d : Dev) :
    (Dev.rotate d).now = d.now ∧ (Dev.rotate d).regs = d.regs ∧ (Dev.rotate d).luts = d.luts ∧ (Dev.rotate d).mem = d.mem ∧ (Dev.rotate d).scene = d.scene ∧ (Dev.rotate d).ledger = d.ledger ∧ (Dev.rotate d).queues = d.queues ∧ (Dev.rotate d).turn = d.turn ∧ (Dev.rotate d).lastTurn = d.lastTurn ∧ (Dev.rotate d).rings = d.rings ∧ (Dev.rotate d).canvases = d.canvases ∧ (Dev.rotate d).ports = d.ports ∧ (Dev.rotate d).chans = d.chans ∧ (Dev.rotate d).timers = d.timers ∧ (Dev.rotate d).mrv = d.mrv ∧ (Dev.rotate d).engines = d.engines ∧ (Dev.rotate d).regions = d.regions ∧ (Dev.rotate d).mct = d.mct ∧ (Dev.rotate d).cru = d.cru ∧ (Dev.rotate d).acc = d.acc ∧ (Dev.rotate d).flt = d.flt ∧ (Dev.rotate d).svc = d.svc ∧ (Dev.rotate d).tb = d.tb ∧ (Dev.rotate d).clk = d.clk ∧ (Dev.rotate d).rst = d.rst ∧ (Dev.rotate d).hif = d.hif ∧ (Dev.rotate d).pins = d.pins := by
  simp [Dev.rotate]

@[simp] theorem Dev.restartRotation_frame (d : Dev) :
    (Dev.restartRotation d).now = d.now ∧ (Dev.restartRotation d).regs = d.regs ∧ (Dev.restartRotation d).luts = d.luts ∧ (Dev.restartRotation d).mem = d.mem ∧ (Dev.restartRotation d).scene = d.scene ∧ (Dev.restartRotation d).ledger = d.ledger ∧ (Dev.restartRotation d).queues = d.queues ∧ (Dev.restartRotation d).turn = d.turn ∧ (Dev.restartRotation d).lastTurn = d.lastTurn ∧ (Dev.restartRotation d).rings = d.rings ∧ (Dev.restartRotation d).canvases = d.canvases ∧ (Dev.restartRotation d).ports = d.ports ∧ (Dev.restartRotation d).chans = d.chans ∧ (Dev.restartRotation d).timers = d.timers ∧ (Dev.restartRotation d).mrv = d.mrv ∧ (Dev.restartRotation d).engines = d.engines ∧ (Dev.restartRotation d).regions = d.regions ∧ (Dev.restartRotation d).mct = d.mct ∧ (Dev.restartRotation d).cru = d.cru ∧ (Dev.restartRotation d).acc = d.acc ∧ (Dev.restartRotation d).flt = d.flt ∧ (Dev.restartRotation d).svc = d.svc ∧ (Dev.restartRotation d).tb = d.tb ∧ (Dev.restartRotation d).clk = d.clk ∧ (Dev.restartRotation d).rst = d.rst ∧ (Dev.restartRotation d).hif = d.hif ∧ (Dev.restartRotation d).pins = d.pins := by
  simp [Dev.restartRotation]

@[simp] theorem Dev.checkingSet_frame (begins : Bool) (d : Dev) :
    (Dev.checkingSet begins d).now = d.now ∧ (Dev.checkingSet begins d).regs = d.regs ∧ (Dev.checkingSet begins d).luts = d.luts ∧ (Dev.checkingSet begins d).mem = d.mem ∧ (Dev.checkingSet begins d).scene = d.scene ∧ (Dev.checkingSet begins d).ledger = d.ledger ∧ (Dev.checkingSet begins d).queues = d.queues ∧ (Dev.checkingSet begins d).turn = d.turn ∧ (Dev.checkingSet begins d).lastTurn = d.lastTurn ∧ (Dev.checkingSet begins d).rings = d.rings ∧ (Dev.checkingSet begins d).canvases = d.canvases ∧ (Dev.checkingSet begins d).ports = d.ports ∧ (Dev.checkingSet begins d).chans = d.chans ∧ (Dev.checkingSet begins d).timers = d.timers ∧ (Dev.checkingSet begins d).mrv = d.mrv ∧ (Dev.checkingSet begins d).engines = d.engines ∧ (Dev.checkingSet begins d).regions = d.regions ∧ (Dev.checkingSet begins d).mct = d.mct ∧ (Dev.checkingSet begins d).cru = d.cru ∧ (Dev.checkingSet begins d).acc = d.acc ∧ (Dev.checkingSet begins d).flt = d.flt ∧ (Dev.checkingSet begins d).svc = d.svc ∧ (Dev.checkingSet begins d).tb = d.tb ∧ (Dev.checkingSet begins d).clk = d.clk ∧ (Dev.checkingSet begins d).rst = d.rst ∧ (Dev.checkingSet begins d).hif = d.hif ∧ (Dev.checkingSet begins d).pins = d.pins := by
  simp [Dev.checkingSet]

@[simp] theorem Dev.changeRoles_now (f : Dev → Dev) (d : Dev) (hf : ∀ d, (f d).now = d.now) : (Dev.changeRoles f d).now = d.now := by
  simp [Dev.changeRoles, hf]

@[simp] theorem Dev.changeRoles_regs (f : Dev → Dev) (d : Dev) (hf : ∀ d, (f d).regs = d.regs) : (Dev.changeRoles f d).regs = d.regs := by
  simp [Dev.changeRoles, hf]

@[simp] theorem Dev.changeRoles_luts (f : Dev → Dev) (d : Dev) (hf : ∀ d, (f d).luts = d.luts) : (Dev.changeRoles f d).luts = d.luts := by
  simp [Dev.changeRoles, hf]

@[simp] theorem Dev.changeRoles_mem (f : Dev → Dev) (d : Dev) (hf : ∀ d, (f d).mem = d.mem) : (Dev.changeRoles f d).mem = d.mem := by
  simp [Dev.changeRoles, hf]

@[simp] theorem Dev.changeRoles_ledger (f : Dev → Dev) (d : Dev) (hf : ∀ d, (f d).ledger = d.ledger) : (Dev.changeRoles f d).ledger = d.ledger := by
  simp [Dev.changeRoles, hf]

@[simp] theorem Dev.changeRoles_queues (f : Dev → Dev) (d : Dev) (hf : ∀ d, (f d).queues = d.queues) : (Dev.changeRoles f d).queues = d.queues := by
  simp [Dev.changeRoles, hf]

@[simp] theorem Dev.changeRoles_turn (f : Dev → Dev) (d : Dev) (hf : ∀ d, (f d).turn = d.turn) : (Dev.changeRoles f d).turn = d.turn := by
  simp [Dev.changeRoles, hf]

@[simp] theorem Dev.changeRoles_lastTurn (f : Dev → Dev) (d : Dev) (hf : ∀ d, (f d).lastTurn = d.lastTurn) : (Dev.changeRoles f d).lastTurn = d.lastTurn := by
  simp [Dev.changeRoles, hf]

@[simp] theorem Dev.changeRoles_rings (f : Dev → Dev) (d : Dev) (hf : ∀ d, (f d).rings = d.rings) : (Dev.changeRoles f d).rings = d.rings := by
  simp [Dev.changeRoles, hf]

@[simp] theorem Dev.changeRoles_canvases (f : Dev → Dev) (d : Dev) (hf : ∀ d, (f d).canvases = d.canvases) : (Dev.changeRoles f d).canvases = d.canvases := by
  simp [Dev.changeRoles, hf]

@[simp] theorem Dev.changeRoles_ports (f : Dev → Dev) (d : Dev) (hf : ∀ d, (f d).ports = d.ports) : (Dev.changeRoles f d).ports = d.ports := by
  simp [Dev.changeRoles, hf]

@[simp] theorem Dev.changeRoles_chans (f : Dev → Dev) (d : Dev) (hf : ∀ d, (f d).chans = d.chans) : (Dev.changeRoles f d).chans = d.chans := by
  simp [Dev.changeRoles, hf]

@[simp] theorem Dev.changeRoles_timers (f : Dev → Dev) (d : Dev) (hf : ∀ d, (f d).timers = d.timers) : (Dev.changeRoles f d).timers = d.timers := by
  simp [Dev.changeRoles, hf]

@[simp] theorem Dev.changeRoles_mrv (f : Dev → Dev) (d : Dev) (hf : ∀ d, (f d).mrv = d.mrv) : (Dev.changeRoles f d).mrv = d.mrv := by
  simp [Dev.changeRoles, hf]

@[simp] theorem Dev.changeRoles_engines (f : Dev → Dev) (d : Dev) (hf : ∀ d, (f d).engines = d.engines) : (Dev.changeRoles f d).engines = d.engines := by
  simp [Dev.changeRoles, hf]

@[simp] theorem Dev.changeRoles_regions (f : Dev → Dev) (d : Dev) (hf : ∀ d, (f d).regions = d.regions) : (Dev.changeRoles f d).regions = d.regions := by
  simp [Dev.changeRoles, hf]

@[simp] theorem Dev.changeRoles_mct (f : Dev → Dev) (d : Dev) (hf : ∀ d, (f d).mct = d.mct) : (Dev.changeRoles f d).mct = d.mct := by
  simp [Dev.changeRoles, hf]

@[simp] theorem Dev.changeRoles_cru (f : Dev → Dev) (d : Dev) (hf : ∀ d, (f d).cru = d.cru) : (Dev.changeRoles f d).cru = d.cru := by
  simp [Dev.changeRoles, hf]

@[simp] theorem Dev.changeRoles_acc (f : Dev → Dev) (d : Dev) (hf : ∀ d, (f d).acc = d.acc) : (Dev.changeRoles f d).acc = d.acc := by
  simp [Dev.changeRoles, hf]

@[simp] theorem Dev.changeRoles_svc (f : Dev → Dev) (d : Dev) (hf : ∀ d, (f d).svc = d.svc) : (Dev.changeRoles f d).svc = d.svc := by
  simp [Dev.changeRoles, hf]

@[simp] theorem Dev.changeRoles_tb (f : Dev → Dev) (d : Dev) (hf : ∀ d, (f d).tb = d.tb) : (Dev.changeRoles f d).tb = d.tb := by
  simp [Dev.changeRoles, hf]

@[simp] theorem Dev.changeRoles_clk (f : Dev → Dev) (d : Dev) (hf : ∀ d, (f d).clk = d.clk) : (Dev.changeRoles f d).clk = d.clk := by
  simp [Dev.changeRoles, hf]

@[simp] theorem Dev.changeRoles_rst (f : Dev → Dev) (d : Dev) (hf : ∀ d, (f d).rst = d.rst) : (Dev.changeRoles f d).rst = d.rst := by
  simp [Dev.changeRoles, hf]

@[simp] theorem Dev.changeRoles_hif (f : Dev → Dev) (d : Dev) (hf : ∀ d, (f d).hif = d.hif) : (Dev.changeRoles f d).hif = d.hif := by
  simp [Dev.changeRoles, hf]

@[simp] theorem Dev.changeRoles_pins (f : Dev → Dev) (d : Dev) (hf : ∀ d, (f d).pins = d.pins) : (Dev.changeRoles f d).pins = d.pins := by
  simp [Dev.changeRoles, hf]

@[simp] theorem Dev.setRole_frame (p : Nat) (r : Role) (d : Dev) :
    (Dev.setRole p r d).now = d.now ∧ (Dev.setRole p r d).luts = d.luts ∧ (Dev.setRole p r d).mem = d.mem ∧ (Dev.setRole p r d).scene = d.scene ∧ (Dev.setRole p r d).ledger = d.ledger ∧ (Dev.setRole p r d).queues = d.queues ∧ (Dev.setRole p r d).turn = d.turn ∧ (Dev.setRole p r d).lastTurn = d.lastTurn ∧ (Dev.setRole p r d).rings = d.rings ∧ (Dev.setRole p r d).canvases = d.canvases ∧ (Dev.setRole p r d).ports = d.ports ∧ (Dev.setRole p r d).chans = d.chans ∧ (Dev.setRole p r d).timers = d.timers ∧ (Dev.setRole p r d).mrv = d.mrv ∧ (Dev.setRole p r d).engines = d.engines ∧ (Dev.setRole p r d).regions = d.regions ∧ (Dev.setRole p r d).mct = d.mct ∧ (Dev.setRole p r d).cru = d.cru ∧ (Dev.setRole p r d).acc = d.acc ∧ (Dev.setRole p r d).flt = d.flt ∧ (Dev.setRole p r d).svc = d.svc ∧ (Dev.setRole p r d).tb = d.tb ∧ (Dev.setRole p r d).clk = d.clk ∧ (Dev.setRole p r d).rst = d.rst ∧ (Dev.setRole p r d).hif = d.hif ∧ (Dev.setRole p r d).pins = d.pins := by
  simp [Dev.setRole]

@[simp] theorem Dev.dropShadows_frame (u : Nat) (d : Dev) :
    (Dev.dropShadows u d).now = d.now ∧ (Dev.dropShadows u d).regs = d.regs ∧ (Dev.dropShadows u d).luts = d.luts ∧ (Dev.dropShadows u d).mem = d.mem ∧ (Dev.dropShadows u d).scene = d.scene ∧ (Dev.dropShadows u d).ledger = d.ledger ∧ (Dev.dropShadows u d).queues = d.queues ∧ (Dev.dropShadows u d).turn = d.turn ∧ (Dev.dropShadows u d).lastTurn = d.lastTurn ∧ (Dev.dropShadows u d).rings = d.rings ∧ (Dev.dropShadows u d).canvases = d.canvases ∧ (Dev.dropShadows u d).ports = d.ports ∧ (Dev.dropShadows u d).chans = d.chans ∧ (Dev.dropShadows u d).timers = d.timers ∧ (Dev.dropShadows u d).mrv = d.mrv ∧ (Dev.dropShadows u d).engines = d.engines ∧ (Dev.dropShadows u d).regions = d.regions ∧ (Dev.dropShadows u d).mct = d.mct ∧ (Dev.dropShadows u d).cru = d.cru ∧ (Dev.dropShadows u d).acc = d.acc ∧ (Dev.dropShadows u d).flt = d.flt ∧ (Dev.dropShadows u d).svc = d.svc ∧ (Dev.dropShadows u d).tb = d.tb ∧ (Dev.dropShadows u d).clk = d.clk ∧ (Dev.dropShadows u d).rst = d.rst ∧ (Dev.dropShadows u d).hif = d.hif ∧ (Dev.dropShadows u d).pins = d.pins := by
  simp [Dev.dropShadows]

@[simp] theorem Dev.recordDispute_frame (t : Dispute) (outcome : Nat) (rer : Option Nat) (crcR : Word) (fixed : Nat) (shown : Nat) (d : Dev) :
    (Dev.recordDispute t outcome rer crcR fixed shown d).now = d.now ∧ (Dev.recordDispute t outcome rer crcR fixed shown d).regs = d.regs ∧ (Dev.recordDispute t outcome rer crcR fixed shown d).luts = d.luts ∧ (Dev.recordDispute t outcome rer crcR fixed shown d).mem = d.mem ∧ (Dev.recordDispute t outcome rer crcR fixed shown d).scene = d.scene ∧ (Dev.recordDispute t outcome rer crcR fixed shown d).ledger = d.ledger ∧ (Dev.recordDispute t outcome rer crcR fixed shown d).queues = d.queues ∧ (Dev.recordDispute t outcome rer crcR fixed shown d).turn = d.turn ∧ (Dev.recordDispute t outcome rer crcR fixed shown d).lastTurn = d.lastTurn ∧ (Dev.recordDispute t outcome rer crcR fixed shown d).rings = d.rings ∧ (Dev.recordDispute t outcome rer crcR fixed shown d).canvases = d.canvases ∧ (Dev.recordDispute t outcome rer crcR fixed shown d).ports = d.ports ∧ (Dev.recordDispute t outcome rer crcR fixed shown d).chans = d.chans ∧ (Dev.recordDispute t outcome rer crcR fixed shown d).timers = d.timers ∧ (Dev.recordDispute t outcome rer crcR fixed shown d).mrv = d.mrv ∧ (Dev.recordDispute t outcome rer crcR fixed shown d).engines = d.engines ∧ (Dev.recordDispute t outcome rer crcR fixed shown d).regions = d.regions ∧ (Dev.recordDispute t outcome rer crcR fixed shown d).mct = d.mct ∧ (Dev.recordDispute t outcome rer crcR fixed shown d).cru = d.cru ∧ (Dev.recordDispute t outcome rer crcR fixed shown d).acc = d.acc ∧ (Dev.recordDispute t outcome rer crcR fixed shown d).flt = d.flt ∧ (Dev.recordDispute t outcome rer crcR fixed shown d).svc = d.svc ∧ (Dev.recordDispute t outcome rer crcR fixed shown d).tb = d.tb ∧ (Dev.recordDispute t outcome rer crcR fixed shown d).clk = d.clk ∧ (Dev.recordDispute t outcome rer crcR fixed shown d).rst = d.rst ∧ (Dev.recordDispute t outcome rer crcR fixed shown d).hif = d.hif ∧ (Dev.recordDispute t outcome rer crcR fixed shown d).pins = d.pins := by
  simp [Dev.recordDispute]

@[simp] theorem Dev.unresolved_frame (t : Dispute) (outcome : Nat) (d : Dev) :
    (Dev.unresolved t outcome d).now = d.now ∧ (Dev.unresolved t outcome d).regs = d.regs ∧ (Dev.unresolved t outcome d).luts = d.luts ∧ (Dev.unresolved t outcome d).mem = d.mem ∧ (Dev.unresolved t outcome d).scene = d.scene ∧ (Dev.unresolved t outcome d).ledger = d.ledger ∧ (Dev.unresolved t outcome d).queues = d.queues ∧ (Dev.unresolved t outcome d).turn = d.turn ∧ (Dev.unresolved t outcome d).lastTurn = d.lastTurn ∧ (Dev.unresolved t outcome d).rings = d.rings ∧ (Dev.unresolved t outcome d).canvases = d.canvases ∧ (Dev.unresolved t outcome d).comp = d.comp ∧ (Dev.unresolved t outcome d).ports = d.ports ∧ (Dev.unresolved t outcome d).chans = d.chans ∧ (Dev.unresolved t outcome d).timers = d.timers ∧ (Dev.unresolved t outcome d).mrv = d.mrv ∧ (Dev.unresolved t outcome d).engines = d.engines ∧ (Dev.unresolved t outcome d).regions = d.regions ∧ (Dev.unresolved t outcome d).mct = d.mct ∧ (Dev.unresolved t outcome d).cru = d.cru ∧ (Dev.unresolved t outcome d).acc = d.acc ∧ (Dev.unresolved t outcome d).svc = d.svc ∧ (Dev.unresolved t outcome d).tb = d.tb ∧ (Dev.unresolved t outcome d).clk = d.clk ∧ (Dev.unresolved t outcome d).rst = d.rst ∧ (Dev.unresolved t outcome d).hif = d.hif ∧ (Dev.unresolved t outcome d).pins = d.pins := by
  simp [Dev.unresolved]

@[simp] theorem Dev.popDispute_frame (d : Dev) :
    (Dev.popDispute d).now = d.now ∧ (Dev.popDispute d).regs = d.regs ∧ (Dev.popDispute d).luts = d.luts ∧ (Dev.popDispute d).mem = d.mem ∧ (Dev.popDispute d).scene = d.scene ∧ (Dev.popDispute d).ledger = d.ledger ∧ (Dev.popDispute d).queues = d.queues ∧ (Dev.popDispute d).turn = d.turn ∧ (Dev.popDispute d).lastTurn = d.lastTurn ∧ (Dev.popDispute d).rings = d.rings ∧ (Dev.popDispute d).canvases = d.canvases ∧ (Dev.popDispute d).ports = d.ports ∧ (Dev.popDispute d).chans = d.chans ∧ (Dev.popDispute d).timers = d.timers ∧ (Dev.popDispute d).mrv = d.mrv ∧ (Dev.popDispute d).engines = d.engines ∧ (Dev.popDispute d).regions = d.regions ∧ (Dev.popDispute d).mct = d.mct ∧ (Dev.popDispute d).cru = d.cru ∧ (Dev.popDispute d).acc = d.acc ∧ (Dev.popDispute d).flt = d.flt ∧ (Dev.popDispute d).svc = d.svc ∧ (Dev.popDispute d).tb = d.tb ∧ (Dev.popDispute d).clk = d.clk ∧ (Dev.popDispute d).rst = d.rst ∧ (Dev.popDispute d).hif = d.hif ∧ (Dev.popDispute d).pins = d.pins := by
  simp [Dev.popDispute]

@[simp] theorem Dev.serveDisputes_frame (n : Nat) (d : Dev) :
    (Dev.serveDisputes n d).now = d.now ∧ (Dev.serveDisputes n d).regs = d.regs ∧ (Dev.serveDisputes n d).luts = d.luts ∧ (Dev.serveDisputes n d).mem = d.mem ∧ (Dev.serveDisputes n d).scene = d.scene ∧ (Dev.serveDisputes n d).ledger = d.ledger ∧ (Dev.serveDisputes n d).queues = d.queues ∧ (Dev.serveDisputes n d).turn = d.turn ∧ (Dev.serveDisputes n d).lastTurn = d.lastTurn ∧ (Dev.serveDisputes n d).rings = d.rings ∧ (Dev.serveDisputes n d).canvases = d.canvases ∧ (Dev.serveDisputes n d).ports = d.ports ∧ (Dev.serveDisputes n d).chans = d.chans ∧ (Dev.serveDisputes n d).timers = d.timers ∧ (Dev.serveDisputes n d).mrv = d.mrv ∧ (Dev.serveDisputes n d).engines = d.engines ∧ (Dev.serveDisputes n d).regions = d.regions ∧ (Dev.serveDisputes n d).mct = d.mct ∧ (Dev.serveDisputes n d).cru = d.cru ∧ (Dev.serveDisputes n d).acc = d.acc ∧ (Dev.serveDisputes n d).svc = d.svc ∧ (Dev.serveDisputes n d).tb = d.tb ∧ (Dev.serveDisputes n d).clk = d.clk ∧ (Dev.serveDisputes n d).rst = d.rst ∧ (Dev.serveDisputes n d).hif = d.hif ∧ (Dev.serveDisputes n d).pins = d.pins := by
  induction n generalizing d with
  | zero => simp [Dev.serveDisputes]
  | succ n ih => unfold Dev.serveDisputes; (repeat' split) <;> simp [ih]

@[simp] theorem Dev.abandonRerun_frame (v : Nat) (d : Dev) :
    (Dev.abandonRerun v d).now = d.now ∧ (Dev.abandonRerun v d).regs = d.regs ∧ (Dev.abandonRerun v d).luts = d.luts ∧ (Dev.abandonRerun v d).mem = d.mem ∧ (Dev.abandonRerun v d).scene = d.scene ∧ (Dev.abandonRerun v d).ledger = d.ledger ∧ (Dev.abandonRerun v d).queues = d.queues ∧ (Dev.abandonRerun v d).turn = d.turn ∧ (Dev.abandonRerun v d).lastTurn = d.lastTurn ∧ (Dev.abandonRerun v d).rings = d.rings ∧ (Dev.abandonRerun v d).canvases = d.canvases ∧ (Dev.abandonRerun v d).ports = d.ports ∧ (Dev.abandonRerun v d).chans = d.chans ∧ (Dev.abandonRerun v d).timers = d.timers ∧ (Dev.abandonRerun v d).mrv = d.mrv ∧ (Dev.abandonRerun v d).engines = d.engines ∧ (Dev.abandonRerun v d).regions = d.regions ∧ (Dev.abandonRerun v d).mct = d.mct ∧ (Dev.abandonRerun v d).cru = d.cru ∧ (Dev.abandonRerun v d).acc = d.acc ∧ (Dev.abandonRerun v d).svc = d.svc ∧ (Dev.abandonRerun v d).tb = d.tb ∧ (Dev.abandonRerun v d).clk = d.clk ∧ (Dev.abandonRerun v d).rst = d.rst ∧ (Dev.abandonRerun v d).hif = d.hif ∧ (Dev.abandonRerun v d).pins = d.pins := by
  unfold Dev.abandonRerun; (repeat' split) <;> simp

@[simp] theorem Dev.dropWork_frame (u : Nat) (d : Dev) :
    (Dev.dropWork u d).now = d.now ∧ (Dev.dropWork u d).regs = d.regs ∧ (Dev.dropWork u d).luts = d.luts ∧ (Dev.dropWork u d).mem = d.mem ∧ (Dev.dropWork u d).scene = d.scene ∧ (Dev.dropWork u d).ledger = d.ledger ∧ (Dev.dropWork u d).queues = d.queues ∧ (Dev.dropWork u d).turn = d.turn ∧ (Dev.dropWork u d).lastTurn = d.lastTurn ∧ (Dev.dropWork u d).rings = d.rings ∧ (Dev.dropWork u d).canvases = d.canvases ∧ (Dev.dropWork u d).ports = d.ports ∧ (Dev.dropWork u d).chans = d.chans ∧ (Dev.dropWork u d).timers = d.timers ∧ (Dev.dropWork u d).mrv = d.mrv ∧ (Dev.dropWork u d).engines = d.engines ∧ (Dev.dropWork u d).regions = d.regions ∧ (Dev.dropWork u d).mct = d.mct ∧ (Dev.dropWork u d).cru = d.cru ∧ (Dev.dropWork u d).acc = d.acc ∧ (Dev.dropWork u d).svc = d.svc ∧ (Dev.dropWork u d).tb = d.tb ∧ (Dev.dropWork u d).clk = d.clk ∧ (Dev.dropWork u d).rst = d.rst ∧ (Dev.dropWork u d).hif = d.hif ∧ (Dev.dropWork u d).pins = d.pins := by
  simp [Dev.dropWork]

@[simp] theorem Dev.dropShadowsOf_frame (p : Nat) (d : Dev) :
    (Dev.dropShadowsOf p d).now = d.now ∧ (Dev.dropShadowsOf p d).regs = d.regs ∧ (Dev.dropShadowsOf p d).luts = d.luts ∧ (Dev.dropShadowsOf p d).mem = d.mem ∧ (Dev.dropShadowsOf p d).scene = d.scene ∧ (Dev.dropShadowsOf p d).ledger = d.ledger ∧ (Dev.dropShadowsOf p d).queues = d.queues ∧ (Dev.dropShadowsOf p d).turn = d.turn ∧ (Dev.dropShadowsOf p d).lastTurn = d.lastTurn ∧ (Dev.dropShadowsOf p d).rings = d.rings ∧ (Dev.dropShadowsOf p d).canvases = d.canvases ∧ (Dev.dropShadowsOf p d).ports = d.ports ∧ (Dev.dropShadowsOf p d).chans = d.chans ∧ (Dev.dropShadowsOf p d).timers = d.timers ∧ (Dev.dropShadowsOf p d).mrv = d.mrv ∧ (Dev.dropShadowsOf p d).engines = d.engines ∧ (Dev.dropShadowsOf p d).regions = d.regions ∧ (Dev.dropShadowsOf p d).mct = d.mct ∧ (Dev.dropShadowsOf p d).cru = d.cru ∧ (Dev.dropShadowsOf p d).acc = d.acc ∧ (Dev.dropShadowsOf p d).flt = d.flt ∧ (Dev.dropShadowsOf p d).svc = d.svc ∧ (Dev.dropShadowsOf p d).tb = d.tb ∧ (Dev.dropShadowsOf p d).clk = d.clk ∧ (Dev.dropShadowsOf p d).rst = d.rst ∧ (Dev.dropShadowsOf p d).hif = d.hif ∧ (Dev.dropShadowsOf p d).pins = d.pins := by
  simp [Dev.dropShadowsOf]

@[simp] theorem Dev.assume_frame (p : Nat) (h : Held) (d : Dev) :
    (Dev.assume p h d).now = d.now ∧ (Dev.assume p h d).regs = d.regs ∧ (Dev.assume p h d).luts = d.luts ∧ (Dev.assume p h d).mem = d.mem ∧ (Dev.assume p h d).scene = d.scene ∧ (Dev.assume p h d).ledger = d.ledger ∧ (Dev.assume p h d).queues = d.queues ∧ (Dev.assume p h d).turn = d.turn ∧ (Dev.assume p h d).lastTurn = d.lastTurn ∧ (Dev.assume p h d).rings = d.rings ∧ (Dev.assume p h d).canvases = d.canvases ∧ (Dev.assume p h d).ports = d.ports ∧ (Dev.assume p h d).chans = d.chans ∧ (Dev.assume p h d).timers = d.timers ∧ (Dev.assume p h d).mrv = d.mrv ∧ (Dev.assume p h d).engines = d.engines ∧ (Dev.assume p h d).regions = d.regions ∧ (Dev.assume p h d).mct = d.mct ∧ (Dev.assume p h d).cru = d.cru ∧ (Dev.assume p h d).acc = d.acc ∧ (Dev.assume p h d).flt = d.flt ∧ (Dev.assume p h d).svc = d.svc ∧ (Dev.assume p h d).tb = d.tb ∧ (Dev.assume p h d).clk = d.clk ∧ (Dev.assume p h d).rst = d.rst ∧ (Dev.assume p h d).hif = d.hif ∧ (Dev.assume p h d).pins = d.pins := by
  simp [Dev.assume]

@[simp] theorem Dev.takeover_frame (held : Option Held) (d : Dev) :
    (Dev.takeover held d).now = d.now ∧ (Dev.takeover held d).luts = d.luts ∧ (Dev.takeover held d).mem = d.mem ∧ (Dev.takeover held d).scene = d.scene ∧ (Dev.takeover held d).ledger = d.ledger ∧ (Dev.takeover held d).queues = d.queues ∧ (Dev.takeover held d).turn = d.turn ∧ (Dev.takeover held d).lastTurn = d.lastTurn ∧ (Dev.takeover held d).rings = d.rings ∧ (Dev.takeover held d).canvases = d.canvases ∧ (Dev.takeover held d).ports = d.ports ∧ (Dev.takeover held d).chans = d.chans ∧ (Dev.takeover held d).timers = d.timers ∧ (Dev.takeover held d).mrv = d.mrv ∧ (Dev.takeover held d).engines = d.engines ∧ (Dev.takeover held d).regions = d.regions ∧ (Dev.takeover held d).mct = d.mct ∧ (Dev.takeover held d).cru = d.cru ∧ (Dev.takeover held d).acc = d.acc ∧ (Dev.takeover held d).svc = d.svc ∧ (Dev.takeover held d).tb = d.tb ∧ (Dev.takeover held d).clk = d.clk ∧ (Dev.takeover held d).rst = d.rst ∧ (Dev.takeover held d).hif = d.hif ∧ (Dev.takeover held d).pins = d.pins := by
  unfold Dev.takeover; try dsimp only
  (repeat' split) <;> simp

@[simp] theorem Dev.fencePipe_frame (p : Nat) (cause : Nat) (d : Dev) :
    (Dev.fencePipe p cause d).now = d.now ∧ (Dev.fencePipe p cause d).luts = d.luts ∧ (Dev.fencePipe p cause d).mem = d.mem ∧ (Dev.fencePipe p cause d).ledger = d.ledger ∧ (Dev.fencePipe p cause d).queues = d.queues ∧ (Dev.fencePipe p cause d).turn = d.turn ∧ (Dev.fencePipe p cause d).lastTurn = d.lastTurn ∧ (Dev.fencePipe p cause d).rings = d.rings ∧ (Dev.fencePipe p cause d).canvases = d.canvases ∧ (Dev.fencePipe p cause d).ports = d.ports ∧ (Dev.fencePipe p cause d).chans = d.chans ∧ (Dev.fencePipe p cause d).timers = d.timers ∧ (Dev.fencePipe p cause d).mrv = d.mrv ∧ (Dev.fencePipe p cause d).engines = d.engines ∧ (Dev.fencePipe p cause d).regions = d.regions ∧ (Dev.fencePipe p cause d).cru = d.cru ∧ (Dev.fencePipe p cause d).acc = d.acc ∧ (Dev.fencePipe p cause d).svc = d.svc ∧ (Dev.fencePipe p cause d).tb = d.tb ∧ (Dev.fencePipe p cause d).clk = d.clk ∧ (Dev.fencePipe p cause d).rst = d.rst ∧ (Dev.fencePipe p cause d).hif = d.hif ∧ (Dev.fencePipe p cause d).pins = d.pins := by
  simp [Dev.fencePipe]

@[simp] theorem Dev.grantRole_frame (p : Nat) (r : Role) (d : Dev) :
    (Dev.grantRole p r d).now = d.now ∧ (Dev.grantRole p r d).luts = d.luts ∧ (Dev.grantRole p r d).mem = d.mem ∧ (Dev.grantRole p r d).ledger = d.ledger ∧ (Dev.grantRole p r d).queues = d.queues ∧ (Dev.grantRole p r d).turn = d.turn ∧ (Dev.grantRole p r d).lastTurn = d.lastTurn ∧ (Dev.grantRole p r d).rings = d.rings ∧ (Dev.grantRole p r d).canvases = d.canvases ∧ (Dev.grantRole p r d).ports = d.ports ∧ (Dev.grantRole p r d).chans = d.chans ∧ (Dev.grantRole p r d).timers = d.timers ∧ (Dev.grantRole p r d).mrv = d.mrv ∧ (Dev.grantRole p r d).engines = d.engines ∧ (Dev.grantRole p r d).regions = d.regions ∧ (Dev.grantRole p r d).cru = d.cru ∧ (Dev.grantRole p r d).acc = d.acc ∧ (Dev.grantRole p r d).svc = d.svc ∧ (Dev.grantRole p r d).tb = d.tb ∧ (Dev.grantRole p r d).clk = d.clk ∧ (Dev.grantRole p r d).rst = d.rst ∧ (Dev.grantRole p r d).hif = d.hif ∧ (Dev.grantRole p r d).pins = d.pins := by
  unfold Dev.grantRole; (repeat' split) <;> simp

@[simp] theorem Dev.rejectRole_frame (p : Nat) (d : Dev) :
    (Dev.rejectRole p d).now = d.now ∧ (Dev.rejectRole p d).luts = d.luts ∧ (Dev.rejectRole p d).mem = d.mem ∧ (Dev.rejectRole p d).scene = d.scene ∧ (Dev.rejectRole p d).ledger = d.ledger ∧ (Dev.rejectRole p d).queues = d.queues ∧ (Dev.rejectRole p d).turn = d.turn ∧ (Dev.rejectRole p d).lastTurn = d.lastTurn ∧ (Dev.rejectRole p d).rings = d.rings ∧ (Dev.rejectRole p d).canvases = d.canvases ∧ (Dev.rejectRole p d).ports = d.ports ∧ (Dev.rejectRole p d).chans = d.chans ∧ (Dev.rejectRole p d).timers = d.timers ∧ (Dev.rejectRole p d).mrv = d.mrv ∧ (Dev.rejectRole p d).engines = d.engines ∧ (Dev.rejectRole p d).regions = d.regions ∧ (Dev.rejectRole p d).mct = d.mct ∧ (Dev.rejectRole p d).cru = d.cru ∧ (Dev.rejectRole p d).acc = d.acc ∧ (Dev.rejectRole p d).flt = d.flt ∧ (Dev.rejectRole p d).svc = d.svc ∧ (Dev.rejectRole p d).tb = d.tb ∧ (Dev.rejectRole p d).clk = d.clk ∧ (Dev.rejectRole p d).rst = d.rst ∧ (Dev.rejectRole p d).hif = d.hif ∧ (Dev.rejectRole p d).pins = d.pins := by
  simp [Dev.rejectRole]

@[simp] theorem Dev.atBoundary_frame (p : Nat) (d : Dev) :
    (Dev.atBoundary p d).now = d.now ∧ (Dev.atBoundary p d).luts = d.luts ∧ (Dev.atBoundary p d).mem = d.mem ∧ (Dev.atBoundary p d).ledger = d.ledger ∧ (Dev.atBoundary p d).queues = d.queues ∧ (Dev.atBoundary p d).turn = d.turn ∧ (Dev.atBoundary p d).lastTurn = d.lastTurn ∧ (Dev.atBoundary p d).rings = d.rings ∧ (Dev.atBoundary p d).canvases = d.canvases ∧ (Dev.atBoundary p d).ports = d.ports ∧ (Dev.atBoundary p d).chans = d.chans ∧ (Dev.atBoundary p d).timers = d.timers ∧ (Dev.atBoundary p d).mrv = d.mrv ∧ (Dev.atBoundary p d).engines = d.engines ∧ (Dev.atBoundary p d).regions = d.regions ∧ (Dev.atBoundary p d).cru = d.cru ∧ (Dev.atBoundary p d).acc = d.acc ∧ (Dev.atBoundary p d).svc = d.svc ∧ (Dev.atBoundary p d).tb = d.tb ∧ (Dev.atBoundary p d).clk = d.clk ∧ (Dev.atBoundary p d).rst = d.rst ∧ (Dev.atBoundary p d).hif = d.hif ∧ (Dev.atBoundary p d).pins = d.pins := by
  unfold Dev.atBoundary; (repeat' split) <;> simp

@[simp] theorem Dev.requestAccepted_frame (d : Dev) :
    (Dev.requestAccepted d).now = d.now ∧ (Dev.requestAccepted d).regs = d.regs ∧ (Dev.requestAccepted d).luts = d.luts ∧ (Dev.requestAccepted d).mem = d.mem ∧ (Dev.requestAccepted d).scene = d.scene ∧ (Dev.requestAccepted d).ledger = d.ledger ∧ (Dev.requestAccepted d).queues = d.queues ∧ (Dev.requestAccepted d).turn = d.turn ∧ (Dev.requestAccepted d).lastTurn = d.lastTurn ∧ (Dev.requestAccepted d).rings = d.rings ∧ (Dev.requestAccepted d).canvases = d.canvases ∧ (Dev.requestAccepted d).ports = d.ports ∧ (Dev.requestAccepted d).chans = d.chans ∧ (Dev.requestAccepted d).timers = d.timers ∧ (Dev.requestAccepted d).mrv = d.mrv ∧ (Dev.requestAccepted d).engines = d.engines ∧ (Dev.requestAccepted d).regions = d.regions ∧ (Dev.requestAccepted d).mct = d.mct ∧ (Dev.requestAccepted d).cru = d.cru ∧ (Dev.requestAccepted d).acc = d.acc ∧ (Dev.requestAccepted d).flt = d.flt ∧ (Dev.requestAccepted d).svc = d.svc ∧ (Dev.requestAccepted d).tb = d.tb ∧ (Dev.requestAccepted d).clk = d.clk ∧ (Dev.requestAccepted d).rst = d.rst ∧ (Dev.requestAccepted d).hif = d.hif ∧ (Dev.requestAccepted d).pins = d.pins := by
  simp [Dev.requestAccepted]

@[simp] theorem Dev.requestRole_frame (p req : Nat) (d : Dev) :
    (Dev.requestRole p req d).now = d.now ∧ (Dev.requestRole p req d).luts = d.luts ∧ (Dev.requestRole p req d).mem = d.mem ∧ (Dev.requestRole p req d).ledger = d.ledger ∧ (Dev.requestRole p req d).queues = d.queues ∧ (Dev.requestRole p req d).turn = d.turn ∧ (Dev.requestRole p req d).lastTurn = d.lastTurn ∧ (Dev.requestRole p req d).rings = d.rings ∧ (Dev.requestRole p req d).canvases = d.canvases ∧ (Dev.requestRole p req d).ports = d.ports ∧ (Dev.requestRole p req d).chans = d.chans ∧ (Dev.requestRole p req d).timers = d.timers ∧ (Dev.requestRole p req d).mrv = d.mrv ∧ (Dev.requestRole p req d).engines = d.engines ∧ (Dev.requestRole p req d).regions = d.regions ∧ (Dev.requestRole p req d).cru = d.cru ∧ (Dev.requestRole p req d).acc = d.acc ∧ (Dev.requestRole p req d).svc = d.svc ∧ (Dev.requestRole p req d).tb = d.tb ∧ (Dev.requestRole p req d).clk = d.clk ∧ (Dev.requestRole p req d).rst = d.rst ∧ (Dev.requestRole p req d).hif = d.hif ∧ (Dev.requestRole p req d).pins = d.pins := by
  unfold Dev.requestRole; extract_lets x r e s w
  split
  · simp +zetaDelta
  · split
    · simp
    · split
      · simp +zetaDelta
      · split <;> simp +zetaDelta

@[simp] theorem Dev.take_frame (p : Nat) (h : Held) (d : Dev) :
    (Dev.take p h d).now = d.now ∧ (Dev.take p h d).regs = d.regs ∧ (Dev.take p h d).luts = d.luts ∧ (Dev.take p h d).mem = d.mem ∧ (Dev.take p h d).scene = d.scene ∧ (Dev.take p h d).ledger = d.ledger ∧ (Dev.take p h d).queues = d.queues ∧ (Dev.take p h d).turn = d.turn ∧ (Dev.take p h d).lastTurn = d.lastTurn ∧ (Dev.take p h d).rings = d.rings ∧ (Dev.take p h d).canvases = d.canvases ∧ (Dev.take p h d).ports = d.ports ∧ (Dev.take p h d).chans = d.chans ∧ (Dev.take p h d).timers = d.timers ∧ (Dev.take p h d).mrv = d.mrv ∧ (Dev.take p h d).engines = d.engines ∧ (Dev.take p h d).regions = d.regions ∧ (Dev.take p h d).mct = d.mct ∧ (Dev.take p h d).cru = d.cru ∧ (Dev.take p h d).acc = d.acc ∧ (Dev.take p h d).flt = d.flt ∧ (Dev.take p h d).svc = d.svc ∧ (Dev.take p h d).tb = d.tb ∧ (Dev.take p h d).clk = d.clk ∧ (Dev.take p h d).rst = d.rst ∧ (Dev.take p h d).hif = d.hif ∧ (Dev.take p h d).pins = d.pins := by
  simp [Dev.take]

@[simp] theorem Dev.dealBand_frame (p : Nat) (r : Released) (d : Dev) :
    (Dev.dealBand p r d).now = d.now ∧ (Dev.dealBand p r d).luts = d.luts ∧ (Dev.dealBand p r d).turn = d.turn ∧ (Dev.dealBand p r d).lastTurn = d.lastTurn ∧ (Dev.dealBand p r d).chans = d.chans ∧ (Dev.dealBand p r d).timers = d.timers ∧ (Dev.dealBand p r d).mrv = d.mrv ∧ (Dev.dealBand p r d).engines = d.engines ∧ (Dev.dealBand p r d).regions = d.regions ∧ (Dev.dealBand p r d).svc = d.svc ∧ (Dev.dealBand p r d).tb = d.tb ∧ (Dev.dealBand p r d).clk = d.clk ∧ (Dev.dealBand p r d).rst = d.rst ∧ (Dev.dealBand p r d).pins = d.pins := by
  simp [Dev.dealBand]

@[simp] theorem Dev.takeNext_frame (p : Nat) (d : Dev) :
    (Dev.takeNext p d).now = d.now ∧ (Dev.takeNext p d).luts = d.luts ∧ (Dev.takeNext p d).turn = d.turn ∧ (Dev.takeNext p d).lastTurn = d.lastTurn ∧ (Dev.takeNext p d).chans = d.chans ∧ (Dev.takeNext p d).timers = d.timers ∧ (Dev.takeNext p d).mrv = d.mrv ∧ (Dev.takeNext p d).engines = d.engines ∧ (Dev.takeNext p d).regions = d.regions ∧ (Dev.takeNext p d).svc = d.svc ∧ (Dev.takeNext p d).tb = d.tb ∧ (Dev.takeNext p d).clk = d.clk ∧ (Dev.takeNext p d).rst = d.rst ∧ (Dev.takeNext p d).pins = d.pins := by
  unfold Dev.takeNext; (repeat' split) <;> simp

@[simp] theorem Dev.applyFlip_frame (c : Nat) (a : Admitted) (d : Dev) :
    (Dev.applyFlip c a d).now = d.now ∧ (Dev.applyFlip c a d).luts = d.luts ∧ (Dev.applyFlip c a d).turn = d.turn ∧ (Dev.applyFlip c a d).lastTurn = d.lastTurn ∧ (Dev.applyFlip c a d).ports = d.ports ∧ (Dev.applyFlip c a d).chans = d.chans ∧ (Dev.applyFlip c a d).timers = d.timers ∧ (Dev.applyFlip c a d).mrv = d.mrv ∧ (Dev.applyFlip c a d).engines = d.engines ∧ (Dev.applyFlip c a d).regions = d.regions ∧ (Dev.applyFlip c a d).svc = d.svc ∧ (Dev.applyFlip c a d).tb = d.tb ∧ (Dev.applyFlip c a d).clk = d.clk ∧ (Dev.applyFlip c a d).rst = d.rst ∧ (Dev.applyFlip c a d).pins = d.pins := by
  simp [Dev.applyFlip]

@[simp] theorem Dev.applyFlips_frame (c : Nat) (d : Dev) :
    (Dev.applyFlips c d).now = d.now ∧ (Dev.applyFlips c d).luts = d.luts ∧ (Dev.applyFlips c d).turn = d.turn ∧ (Dev.applyFlips c d).lastTurn = d.lastTurn ∧ (Dev.applyFlips c d).ports = d.ports ∧ (Dev.applyFlips c d).chans = d.chans ∧ (Dev.applyFlips c d).timers = d.timers ∧ (Dev.applyFlips c d).mrv = d.mrv ∧ (Dev.applyFlips c d).engines = d.engines ∧ (Dev.applyFlips c d).regions = d.regions ∧ (Dev.applyFlips c d).svc = d.svc ∧ (Dev.applyFlips c d).tb = d.tb ∧ (Dev.applyFlips c d).clk = d.clk ∧ (Dev.applyFlips c d).rst = d.rst ∧ (Dev.applyFlips c d).pins = d.pins := by
  simp [Dev.applyFlips]

@[simp] theorem Dev.eachHold_frame (h : Held) (f : Held → Held) (d : Dev) :
    (Dev.eachHold h f d).now = d.now ∧ (Dev.eachHold h f d).regs = d.regs ∧ (Dev.eachHold h f d).luts = d.luts ∧ (Dev.eachHold h f d).mem = d.mem ∧ (Dev.eachHold h f d).scene = d.scene ∧ (Dev.eachHold h f d).ledger = d.ledger ∧ (Dev.eachHold h f d).queues = d.queues ∧ (Dev.eachHold h f d).turn = d.turn ∧ (Dev.eachHold h f d).lastTurn = d.lastTurn ∧ (Dev.eachHold h f d).rings = d.rings ∧ (Dev.eachHold h f d).canvases = d.canvases ∧ (Dev.eachHold h f d).ports = d.ports ∧ (Dev.eachHold h f d).chans = d.chans ∧ (Dev.eachHold h f d).timers = d.timers ∧ (Dev.eachHold h f d).mrv = d.mrv ∧ (Dev.eachHold h f d).engines = d.engines ∧ (Dev.eachHold h f d).regions = d.regions ∧ (Dev.eachHold h f d).mct = d.mct ∧ (Dev.eachHold h f d).cru = d.cru ∧ (Dev.eachHold h f d).acc = d.acc ∧ (Dev.eachHold h f d).flt = d.flt ∧ (Dev.eachHold h f d).svc = d.svc ∧ (Dev.eachHold h f d).tb = d.tb ∧ (Dev.eachHold h f d).clk = d.clk ∧ (Dev.eachHold h f d).rst = d.rst ∧ (Dev.eachHold h f d).hif = d.hif ∧ (Dev.eachHold h f d).pins = d.pins := by
  simp [Dev.eachHold]

@[simp] theorem Dev.fetchStart_frame (p : Nat) (h : Held) (d : Dev) :
    (Dev.fetchStart p h d).now = d.now ∧ (Dev.fetchStart p h d).luts = d.luts ∧ (Dev.fetchStart p h d).turn = d.turn ∧ (Dev.fetchStart p h d).lastTurn = d.lastTurn ∧ (Dev.fetchStart p h d).ports = d.ports ∧ (Dev.fetchStart p h d).chans = d.chans ∧ (Dev.fetchStart p h d).timers = d.timers ∧ (Dev.fetchStart p h d).mrv = d.mrv ∧ (Dev.fetchStart p h d).engines = d.engines ∧ (Dev.fetchStart p h d).regions = d.regions ∧ (Dev.fetchStart p h d).svc = d.svc ∧ (Dev.fetchStart p h d).tb = d.tb ∧ (Dev.fetchStart p h d).clk = d.clk ∧ (Dev.fetchStart p h d).rst = d.rst ∧ (Dev.fetchStart p h d).pins = d.pins := by
  simp [Dev.fetchStart]

@[simp] theorem Dev.ownArrives_frame (p : Nat) (k : Nat) (h : Held) (piece : GatherPiece) (lost : List Nat) (d : Dev) :
    (Dev.ownArrives p k h piece lost d).now = d.now ∧ (Dev.ownArrives p k h piece lost d).regs = d.regs ∧ (Dev.ownArrives p k h piece lost d).luts = d.luts ∧ (Dev.ownArrives p k h piece lost d).mem = d.mem ∧ (Dev.ownArrives p k h piece lost d).scene = d.scene ∧ (Dev.ownArrives p k h piece lost d).ledger = d.ledger ∧ (Dev.ownArrives p k h piece lost d).queues = d.queues ∧ (Dev.ownArrives p k h piece lost d).turn = d.turn ∧ (Dev.ownArrives p k h piece lost d).lastTurn = d.lastTurn ∧ (Dev.ownArrives p k h piece lost d).rings = d.rings ∧ (Dev.ownArrives p k h piece lost d).canvases = d.canvases ∧ (Dev.ownArrives p k h piece lost d).ports = d.ports ∧ (Dev.ownArrives p k h piece lost d).chans = d.chans ∧ (Dev.ownArrives p k h piece lost d).timers = d.timers ∧ (Dev.ownArrives p k h piece lost d).mrv = d.mrv ∧ (Dev.ownArrives p k h piece lost d).engines = d.engines ∧ (Dev.ownArrives p k h piece lost d).regions = d.regions ∧ (Dev.ownArrives p k h piece lost d).cru = d.cru ∧ (Dev.ownArrives p k h piece lost d).acc = d.acc ∧ (Dev.ownArrives p k h piece lost d).svc = d.svc ∧ (Dev.ownArrives p k h piece lost d).tb = d.tb ∧ (Dev.ownArrives p k h piece lost d).clk = d.clk ∧ (Dev.ownArrives p k h piece lost d).rst = d.rst ∧ (Dev.ownArrives p k h piece lost d).hif = d.hif ∧ (Dev.ownArrives p k h piece lost d).pins = d.pins := by
  simp [Dev.ownArrives]

@[simp] theorem Dev.rerunArrives_frame (v : Nat) (k : Nat) (piece : GatherPiece) (lost : List Nat) (d : Dev) :
    (Dev.rerunArrives v k piece lost d).now = d.now ∧ (Dev.rerunArrives v k piece lost d).regs = d.regs ∧ (Dev.rerunArrives v k piece lost d).luts = d.luts ∧ (Dev.rerunArrives v k piece lost d).mem = d.mem ∧ (Dev.rerunArrives v k piece lost d).scene = d.scene ∧ (Dev.rerunArrives v k piece lost d).ledger = d.ledger ∧ (Dev.rerunArrives v k piece lost d).queues = d.queues ∧ (Dev.rerunArrives v k piece lost d).turn = d.turn ∧ (Dev.rerunArrives v k piece lost d).lastTurn = d.lastTurn ∧ (Dev.rerunArrives v k piece lost d).rings = d.rings ∧ (Dev.rerunArrives v k piece lost d).canvases = d.canvases ∧ (Dev.rerunArrives v k piece lost d).ports = d.ports ∧ (Dev.rerunArrives v k piece lost d).chans = d.chans ∧ (Dev.rerunArrives v k piece lost d).timers = d.timers ∧ (Dev.rerunArrives v k piece lost d).mrv = d.mrv ∧ (Dev.rerunArrives v k piece lost d).engines = d.engines ∧ (Dev.rerunArrives v k piece lost d).regions = d.regions ∧ (Dev.rerunArrives v k piece lost d).cru = d.cru ∧ (Dev.rerunArrives v k piece lost d).acc = d.acc ∧ (Dev.rerunArrives v k piece lost d).svc = d.svc ∧ (Dev.rerunArrives v k piece lost d).tb = d.tb ∧ (Dev.rerunArrives v k piece lost d).clk = d.clk ∧ (Dev.rerunArrives v k piece lost d).rst = d.rst ∧ (Dev.rerunArrives v k piece lost d).hif = d.hif ∧ (Dev.rerunArrives v k piece lost d).pins = d.pins := by
  unfold Dev.rerunArrives; (repeat' split) <;> simp

@[simp] theorem Dev.storeAtoms_frame (a : Nat) (bs : List Byte) (d : Dev) :
    (Dev.storeAtoms a bs d).now = d.now ∧ (Dev.storeAtoms a bs d).regs = d.regs ∧ (Dev.storeAtoms a bs d).luts = d.luts ∧ (Dev.storeAtoms a bs d).scene = d.scene ∧ (Dev.storeAtoms a bs d).ledger = d.ledger ∧ (Dev.storeAtoms a bs d).queues = d.queues ∧ (Dev.storeAtoms a bs d).turn = d.turn ∧ (Dev.storeAtoms a bs d).lastTurn = d.lastTurn ∧ (Dev.storeAtoms a bs d).rings = d.rings ∧ (Dev.storeAtoms a bs d).canvases = d.canvases ∧ (Dev.storeAtoms a bs d).comp = d.comp ∧ (Dev.storeAtoms a bs d).ports = d.ports ∧ (Dev.storeAtoms a bs d).chans = d.chans ∧ (Dev.storeAtoms a bs d).timers = d.timers ∧ (Dev.storeAtoms a bs d).mrv = d.mrv ∧ (Dev.storeAtoms a bs d).engines = d.engines ∧ (Dev.storeAtoms a bs d).regions = d.regions ∧ (Dev.storeAtoms a bs d).acc = d.acc ∧ (Dev.storeAtoms a bs d).svc = d.svc ∧ (Dev.storeAtoms a bs d).tb = d.tb ∧ (Dev.storeAtoms a bs d).clk = d.clk ∧ (Dev.storeAtoms a bs d).rst = d.rst ∧ (Dev.storeAtoms a bs d).pins = d.pins := by
  unfold Dev.storeAtoms
  refine ⟨foldl_now _ (fun d n => ?_) _ _, foldl_regs _ (fun d n => ?_) _ _, foldl_luts _ (fun d n => ?_) _ _, foldl_scene _ (fun d n => ?_) _ _, foldl_ledger _ (fun d n => ?_) _ _, foldl_queues _ (fun d n => ?_) _ _, foldl_turn _ (fun d n => ?_) _ _, foldl_lastTurn _ (fun d n => ?_) _ _, foldl_rings _ (fun d n => ?_) _ _, foldl_canvases _ (fun d n => ?_) _ _, foldl_comp _ (fun d n => ?_) _ _, foldl_ports _ (fun d n => ?_) _ _, foldl_chans _ (fun d n => ?_) _ _, foldl_timers _ (fun d n => ?_) _ _, foldl_mrv _ (fun d n => ?_) _ _, foldl_engines _ (fun d n => ?_) _ _, foldl_regions _ (fun d n => ?_) _ _, foldl_acc _ (fun d n => ?_) _ _, foldl_svc _ (fun d n => ?_) _ _, foldl_tb _ (fun d n => ?_) _ _, foldl_clk _ (fun d n => ?_) _ _, foldl_rst _ (fun d n => ?_) _ _, foldl_pins _ (fun d n => ?_) _ _⟩ <;> ((try dsimp only); (repeat' split) <;> first | rfl | simp)

@[simp] theorem Dev.putParison_frame (c : Nat) (b : Nat) (y : Nat) (ws : List Word) (d : Dev) :
    (Dev.putParison c b y ws d).now = d.now ∧ (Dev.putParison c b y ws d).regs = d.regs ∧ (Dev.putParison c b y ws d).luts = d.luts ∧ (Dev.putParison c b y ws d).scene = d.scene ∧ (Dev.putParison c b y ws d).ledger = d.ledger ∧ (Dev.putParison c b y ws d).queues = d.queues ∧ (Dev.putParison c b y ws d).turn = d.turn ∧ (Dev.putParison c b y ws d).lastTurn = d.lastTurn ∧ (Dev.putParison c b y ws d).rings = d.rings ∧ (Dev.putParison c b y ws d).canvases = d.canvases ∧ (Dev.putParison c b y ws d).comp = d.comp ∧ (Dev.putParison c b y ws d).ports = d.ports ∧ (Dev.putParison c b y ws d).chans = d.chans ∧ (Dev.putParison c b y ws d).timers = d.timers ∧ (Dev.putParison c b y ws d).mrv = d.mrv ∧ (Dev.putParison c b y ws d).engines = d.engines ∧ (Dev.putParison c b y ws d).regions = d.regions ∧ (Dev.putParison c b y ws d).acc = d.acc ∧ (Dev.putParison c b y ws d).svc = d.svc ∧ (Dev.putParison c b y ws d).tb = d.tb ∧ (Dev.putParison c b y ws d).clk = d.clk ∧ (Dev.putParison c b y ws d).rst = d.rst ∧ (Dev.putParison c b y ws d).pins = d.pins := by
  simp [Dev.putParison]

@[simp] theorem Dev.writeLine_frame (h : Held) (y : Nat) (ws : List Word) (d : Dev) :
    (Dev.writeLine h y ws d).now = d.now ∧ (Dev.writeLine h y ws d).regs = d.regs ∧ (Dev.writeLine h y ws d).luts = d.luts ∧ (Dev.writeLine h y ws d).scene = d.scene ∧ (Dev.writeLine h y ws d).ledger = d.ledger ∧ (Dev.writeLine h y ws d).queues = d.queues ∧ (Dev.writeLine h y ws d).turn = d.turn ∧ (Dev.writeLine h y ws d).lastTurn = d.lastTurn ∧ (Dev.writeLine h y ws d).rings = d.rings ∧ (Dev.writeLine h y ws d).comp = d.comp ∧ (Dev.writeLine h y ws d).ports = d.ports ∧ (Dev.writeLine h y ws d).chans = d.chans ∧ (Dev.writeLine h y ws d).timers = d.timers ∧ (Dev.writeLine h y ws d).mrv = d.mrv ∧ (Dev.writeLine h y ws d).engines = d.engines ∧ (Dev.writeLine h y ws d).regions = d.regions ∧ (Dev.writeLine h y ws d).acc = d.acc ∧ (Dev.writeLine h y ws d).svc = d.svc ∧ (Dev.writeLine h y ws d).tb = d.tb ∧ (Dev.writeLine h y ws d).clk = d.clk ∧ (Dev.writeLine h y ws d).rst = d.rst ∧ (Dev.writeLine h y ws d).pins = d.pins := by
  simp [Dev.writeLine]

@[simp] theorem Dev.shadowLine_frame (p : Nat) (h : Held) (y : Nat) (d : Dev) (u : Nat) :
    (Dev.shadowLine p h y d u).now = d.now ∧ (Dev.shadowLine p h y d u).regs = d.regs ∧ (Dev.shadowLine p h y d u).luts = d.luts ∧ (Dev.shadowLine p h y d u).mem = d.mem ∧ (Dev.shadowLine p h y d u).scene = d.scene ∧ (Dev.shadowLine p h y d u).ledger = d.ledger ∧ (Dev.shadowLine p h y d u).queues = d.queues ∧ (Dev.shadowLine p h y d u).turn = d.turn ∧ (Dev.shadowLine p h y d u).lastTurn = d.lastTurn ∧ (Dev.shadowLine p h y d u).rings = d.rings ∧ (Dev.shadowLine p h y d u).canvases = d.canvases ∧ (Dev.shadowLine p h y d u).ports = d.ports ∧ (Dev.shadowLine p h y d u).chans = d.chans ∧ (Dev.shadowLine p h y d u).timers = d.timers ∧ (Dev.shadowLine p h y d u).mrv = d.mrv ∧ (Dev.shadowLine p h y d u).engines = d.engines ∧ (Dev.shadowLine p h y d u).regions = d.regions ∧ (Dev.shadowLine p h y d u).mct = d.mct ∧ (Dev.shadowLine p h y d u).cru = d.cru ∧ (Dev.shadowLine p h y d u).acc = d.acc ∧ (Dev.shadowLine p h y d u).flt = d.flt ∧ (Dev.shadowLine p h y d u).svc = d.svc ∧ (Dev.shadowLine p h y d u).tb = d.tb ∧ (Dev.shadowLine p h y d u).clk = d.clk ∧ (Dev.shadowLine p h y d u).rst = d.rst ∧ (Dev.shadowLine p h y d u).hif = d.hif ∧ (Dev.shadowLine p h y d u).pins = d.pins := by
  simp [Dev.shadowLine]

@[simp] theorem Dev.finishBand_frame (p : Nat) (h : Held) (d : Dev) :
    (Dev.finishBand p h d).now = d.now ∧ (Dev.finishBand p h d).luts = d.luts ∧ (Dev.finishBand p h d).mem = d.mem ∧ (Dev.finishBand p h d).ledger = d.ledger ∧ (Dev.finishBand p h d).queues = d.queues ∧ (Dev.finishBand p h d).turn = d.turn ∧ (Dev.finishBand p h d).lastTurn = d.lastTurn ∧ (Dev.finishBand p h d).rings = d.rings ∧ (Dev.finishBand p h d).ports = d.ports ∧ (Dev.finishBand p h d).chans = d.chans ∧ (Dev.finishBand p h d).timers = d.timers ∧ (Dev.finishBand p h d).mrv = d.mrv ∧ (Dev.finishBand p h d).engines = d.engines ∧ (Dev.finishBand p h d).regions = d.regions ∧ (Dev.finishBand p h d).cru = d.cru ∧ (Dev.finishBand p h d).acc = d.acc ∧ (Dev.finishBand p h d).svc = d.svc ∧ (Dev.finishBand p h d).tb = d.tb ∧ (Dev.finishBand p h d).clk = d.clk ∧ (Dev.finishBand p h d).rst = d.rst ∧ (Dev.finishBand p h d).hif = d.hif ∧ (Dev.finishBand p h d).pins = d.pins := by
  simp [Dev.finishBand]

@[simp] theorem Dev.addDispute_frame (t : Dispute) (d : Dev) :
    (Dev.addDispute t d).now = d.now ∧ (Dev.addDispute t d).regs = d.regs ∧ (Dev.addDispute t d).luts = d.luts ∧ (Dev.addDispute t d).mem = d.mem ∧ (Dev.addDispute t d).scene = d.scene ∧ (Dev.addDispute t d).ledger = d.ledger ∧ (Dev.addDispute t d).queues = d.queues ∧ (Dev.addDispute t d).turn = d.turn ∧ (Dev.addDispute t d).lastTurn = d.lastTurn ∧ (Dev.addDispute t d).rings = d.rings ∧ (Dev.addDispute t d).canvases = d.canvases ∧ (Dev.addDispute t d).ports = d.ports ∧ (Dev.addDispute t d).chans = d.chans ∧ (Dev.addDispute t d).timers = d.timers ∧ (Dev.addDispute t d).mrv = d.mrv ∧ (Dev.addDispute t d).engines = d.engines ∧ (Dev.addDispute t d).regions = d.regions ∧ (Dev.addDispute t d).mct = d.mct ∧ (Dev.addDispute t d).cru = d.cru ∧ (Dev.addDispute t d).acc = d.acc ∧ (Dev.addDispute t d).svc = d.svc ∧ (Dev.addDispute t d).tb = d.tb ∧ (Dev.addDispute t d).clk = d.clk ∧ (Dev.addDispute t d).rst = d.rst ∧ (Dev.addDispute t d).hif = d.hif ∧ (Dev.addDispute t d).pins = d.pins := by
  simp [Dev.addDispute]

@[simp] theorem Dev.compareBand_frame (u : Nat) (sh : Shadow) (err : Word) (d : Dev) :
    (Dev.compareBand u sh err d).now = d.now ∧ (Dev.compareBand u sh err d).regs = d.regs ∧ (Dev.compareBand u sh err d).luts = d.luts ∧ (Dev.compareBand u sh err d).mem = d.mem ∧ (Dev.compareBand u sh err d).scene = d.scene ∧ (Dev.compareBand u sh err d).ledger = d.ledger ∧ (Dev.compareBand u sh err d).queues = d.queues ∧ (Dev.compareBand u sh err d).turn = d.turn ∧ (Dev.compareBand u sh err d).lastTurn = d.lastTurn ∧ (Dev.compareBand u sh err d).rings = d.rings ∧ (Dev.compareBand u sh err d).canvases = d.canvases ∧ (Dev.compareBand u sh err d).ports = d.ports ∧ (Dev.compareBand u sh err d).chans = d.chans ∧ (Dev.compareBand u sh err d).timers = d.timers ∧ (Dev.compareBand u sh err d).mrv = d.mrv ∧ (Dev.compareBand u sh err d).engines = d.engines ∧ (Dev.compareBand u sh err d).regions = d.regions ∧ (Dev.compareBand u sh err d).mct = d.mct ∧ (Dev.compareBand u sh err d).cru = d.cru ∧ (Dev.compareBand u sh err d).acc = d.acc ∧ (Dev.compareBand u sh err d).svc = d.svc ∧ (Dev.compareBand u sh err d).tb = d.tb ∧ (Dev.compareBand u sh err d).clk = d.clk ∧ (Dev.compareBand u sh err d).rst = d.rst ∧ (Dev.compareBand u sh err d).hif = d.hif ∧ (Dev.compareBand u sh err d).pins = d.pins := by
  simp [Dev.compareBand]

@[simp] theorem Dev.takeDropped_frame (d : Dev) :
    (Dev.takeDropped d).now = d.now ∧ (Dev.takeDropped d).regs = d.regs ∧ (Dev.takeDropped d).luts = d.luts ∧ (Dev.takeDropped d).mem = d.mem ∧ (Dev.takeDropped d).scene = d.scene ∧ (Dev.takeDropped d).ledger = d.ledger ∧ (Dev.takeDropped d).queues = d.queues ∧ (Dev.takeDropped d).turn = d.turn ∧ (Dev.takeDropped d).lastTurn = d.lastTurn ∧ (Dev.takeDropped d).rings = d.rings ∧ (Dev.takeDropped d).canvases = d.canvases ∧ (Dev.takeDropped d).ports = d.ports ∧ (Dev.takeDropped d).chans = d.chans ∧ (Dev.takeDropped d).timers = d.timers ∧ (Dev.takeDropped d).mrv = d.mrv ∧ (Dev.takeDropped d).engines = d.engines ∧ (Dev.takeDropped d).regions = d.regions ∧ (Dev.takeDropped d).mct = d.mct ∧ (Dev.takeDropped d).cru = d.cru ∧ (Dev.takeDropped d).acc = d.acc ∧ (Dev.takeDropped d).flt = d.flt ∧ (Dev.takeDropped d).svc = d.svc ∧ (Dev.takeDropped d).tb = d.tb ∧ (Dev.takeDropped d).clk = d.clk ∧ (Dev.takeDropped d).rst = d.rst ∧ (Dev.takeDropped d).hif = d.hif ∧ (Dev.takeDropped d).pins = d.pins := by
  unfold Dev.takeDropped; (repeat' split) <;> simp

@[simp] theorem Dev.understudyCompares_frame (u : Nat) (err : Word) (d : Dev) :
    (Dev.understudyCompares u err d).now = d.now ∧ (Dev.understudyCompares u err d).regs = d.regs ∧ (Dev.understudyCompares u err d).luts = d.luts ∧ (Dev.understudyCompares u err d).mem = d.mem ∧ (Dev.understudyCompares u err d).scene = d.scene ∧ (Dev.understudyCompares u err d).ledger = d.ledger ∧ (Dev.understudyCompares u err d).queues = d.queues ∧ (Dev.understudyCompares u err d).turn = d.turn ∧ (Dev.understudyCompares u err d).lastTurn = d.lastTurn ∧ (Dev.understudyCompares u err d).rings = d.rings ∧ (Dev.understudyCompares u err d).canvases = d.canvases ∧ (Dev.understudyCompares u err d).ports = d.ports ∧ (Dev.understudyCompares u err d).chans = d.chans ∧ (Dev.understudyCompares u err d).timers = d.timers ∧ (Dev.understudyCompares u err d).mrv = d.mrv ∧ (Dev.understudyCompares u err d).engines = d.engines ∧ (Dev.understudyCompares u err d).regions = d.regions ∧ (Dev.understudyCompares u err d).mct = d.mct ∧ (Dev.understudyCompares u err d).cru = d.cru ∧ (Dev.understudyCompares u err d).acc = d.acc ∧ (Dev.understudyCompares u err d).svc = d.svc ∧ (Dev.understudyCompares u err d).tb = d.tb ∧ (Dev.understudyCompares u err d).clk = d.clk ∧ (Dev.understudyCompares u err d).rst = d.rst ∧ (Dev.understudyCompares u err d).hif = d.hif ∧ (Dev.understudyCompares u err d).pins = d.pins := by
  unfold Dev.understudyCompares; try dsimp only
  (repeat' split) <;> simp

@[simp] theorem Dev.replaceLines_frame (t : Dispute) (ys : List Nat) (d : Dev) :
    (Dev.replaceLines t ys d).now = d.now ∧ (Dev.replaceLines t ys d).regs = d.regs ∧ (Dev.replaceLines t ys d).luts = d.luts ∧ (Dev.replaceLines t ys d).scene = d.scene ∧ (Dev.replaceLines t ys d).ledger = d.ledger ∧ (Dev.replaceLines t ys d).queues = d.queues ∧ (Dev.replaceLines t ys d).turn = d.turn ∧ (Dev.replaceLines t ys d).lastTurn = d.lastTurn ∧ (Dev.replaceLines t ys d).rings = d.rings ∧ (Dev.replaceLines t ys d).comp = d.comp ∧ (Dev.replaceLines t ys d).ports = d.ports ∧ (Dev.replaceLines t ys d).chans = d.chans ∧ (Dev.replaceLines t ys d).timers = d.timers ∧ (Dev.replaceLines t ys d).mrv = d.mrv ∧ (Dev.replaceLines t ys d).engines = d.engines ∧ (Dev.replaceLines t ys d).regions = d.regions ∧ (Dev.replaceLines t ys d).acc = d.acc ∧ (Dev.replaceLines t ys d).svc = d.svc ∧ (Dev.replaceLines t ys d).tb = d.tb ∧ (Dev.replaceLines t ys d).clk = d.clk ∧ (Dev.replaceLines t ys d).rst = d.rst ∧ (Dev.replaceLines t ys d).pins = d.pins := by
  unfold Dev.replaceLines
  refine ⟨foldl_now _ (fun d n => ?_) _ _, foldl_regs _ (fun d n => ?_) _ _, foldl_luts _ (fun d n => ?_) _ _, foldl_scene _ (fun d n => ?_) _ _, foldl_ledger _ (fun d n => ?_) _ _, foldl_queues _ (fun d n => ?_) _ _, foldl_turn _ (fun d n => ?_) _ _, foldl_lastTurn _ (fun d n => ?_) _ _, foldl_rings _ (fun d n => ?_) _ _, foldl_comp _ (fun d n => ?_) _ _, foldl_ports _ (fun d n => ?_) _ _, foldl_chans _ (fun d n => ?_) _ _, foldl_timers _ (fun d n => ?_) _ _, foldl_mrv _ (fun d n => ?_) _ _, foldl_engines _ (fun d n => ?_) _ _, foldl_regions _ (fun d n => ?_) _ _, foldl_acc _ (fun d n => ?_) _ _, foldl_svc _ (fun d n => ?_) _ _, foldl_tb _ (fun d n => ?_) _ _, foldl_clk _ (fun d n => ?_) _ _, foldl_rst _ (fun d n => ?_) _ _, foldl_pins _ (fun d n => ?_) _ _⟩ <;> ((try dsimp only); (repeat' split) <;> first | rfl | simp)

@[simp] theorem Dev.vote_frame (t : Dispute) (v : Nat) (r : List (Nat × Word)) (d : Dev) :
    (Dev.vote t v r d).now = d.now ∧ (Dev.vote t v r d).luts = d.luts ∧ (Dev.vote t v r d).ledger = d.ledger ∧ (Dev.vote t v r d).queues = d.queues ∧ (Dev.vote t v r d).turn = d.turn ∧ (Dev.vote t v r d).lastTurn = d.lastTurn ∧ (Dev.vote t v r d).rings = d.rings ∧ (Dev.vote t v r d).ports = d.ports ∧ (Dev.vote t v r d).chans = d.chans ∧ (Dev.vote t v r d).timers = d.timers ∧ (Dev.vote t v r d).mrv = d.mrv ∧ (Dev.vote t v r d).engines = d.engines ∧ (Dev.vote t v r d).regions = d.regions ∧ (Dev.vote t v r d).acc = d.acc ∧ (Dev.vote t v r d).svc = d.svc ∧ (Dev.vote t v r d).tb = d.tb ∧ (Dev.vote t v r d).clk = d.clk ∧ (Dev.vote t v r d).rst = d.rst ∧ (Dev.vote t v r d).pins = d.pins := by
  simp [Dev.vote]

@[simp] theorem Dev.lateVote_frame (v : Nat) (err : Word) (d : Dev) :
    (Dev.lateVote v err d).now = d.now ∧ (Dev.lateVote v err d).luts = d.luts ∧ (Dev.lateVote v err d).ledger = d.ledger ∧ (Dev.lateVote v err d).queues = d.queues ∧ (Dev.lateVote v err d).turn = d.turn ∧ (Dev.lateVote v err d).lastTurn = d.lastTurn ∧ (Dev.lateVote v err d).rings = d.rings ∧ (Dev.lateVote v err d).ports = d.ports ∧ (Dev.lateVote v err d).chans = d.chans ∧ (Dev.lateVote v err d).timers = d.timers ∧ (Dev.lateVote v err d).mrv = d.mrv ∧ (Dev.lateVote v err d).engines = d.engines ∧ (Dev.lateVote v err d).regions = d.regions ∧ (Dev.lateVote v err d).acc = d.acc ∧ (Dev.lateVote v err d).svc = d.svc ∧ (Dev.lateVote v err d).tb = d.tb ∧ (Dev.lateVote v err d).clk = d.clk ∧ (Dev.lateVote v err d).rst = d.rst ∧ (Dev.lateVote v err d).pins = d.pins := by
  unfold Dev.lateVote; (repeat' split) <;> simp

@[simp] theorem Dev.haltQueue_frame (q : Nat) (addr : Quad) (cause : Nat) (d : Dev) :
    (Dev.haltQueue q addr cause d).now = d.now ∧ (Dev.haltQueue q addr cause d).regs = d.regs ∧ (Dev.haltQueue q addr cause d).luts = d.luts ∧ (Dev.haltQueue q addr cause d).mem = d.mem ∧ (Dev.haltQueue q addr cause d).scene = d.scene ∧ (Dev.haltQueue q addr cause d).ledger = d.ledger ∧ (Dev.haltQueue q addr cause d).turn = d.turn ∧ (Dev.haltQueue q addr cause d).lastTurn = d.lastTurn ∧ (Dev.haltQueue q addr cause d).rings = d.rings ∧ (Dev.haltQueue q addr cause d).canvases = d.canvases ∧ (Dev.haltQueue q addr cause d).comp = d.comp ∧ (Dev.haltQueue q addr cause d).ports = d.ports ∧ (Dev.haltQueue q addr cause d).chans = d.chans ∧ (Dev.haltQueue q addr cause d).timers = d.timers ∧ (Dev.haltQueue q addr cause d).mrv = d.mrv ∧ (Dev.haltQueue q addr cause d).engines = d.engines ∧ (Dev.haltQueue q addr cause d).regions = d.regions ∧ (Dev.haltQueue q addr cause d).mct = d.mct ∧ (Dev.haltQueue q addr cause d).cru = d.cru ∧ (Dev.haltQueue q addr cause d).acc = d.acc ∧ (Dev.haltQueue q addr cause d).svc = d.svc ∧ (Dev.haltQueue q addr cause d).tb = d.tb ∧ (Dev.haltQueue q addr cause d).clk = d.clk ∧ (Dev.haltQueue q addr cause d).rst = d.rst ∧ (Dev.haltQueue q addr cause d).hif = d.hif ∧ (Dev.haltQueue q addr cause d).pins = d.pins := by
  simp [Dev.haltQueue]

@[simp] theorem Dev.startRead_frame (q : Nat) (d : Dev) :
    (Dev.startRead q d).now = d.now ∧ (Dev.startRead q d).regs = d.regs ∧ (Dev.startRead q d).luts = d.luts ∧ (Dev.startRead q d).mem = d.mem ∧ (Dev.startRead q d).scene = d.scene ∧ (Dev.startRead q d).ledger = d.ledger ∧ (Dev.startRead q d).turn = d.turn ∧ (Dev.startRead q d).lastTurn = d.lastTurn ∧ (Dev.startRead q d).rings = d.rings ∧ (Dev.startRead q d).canvases = d.canvases ∧ (Dev.startRead q d).comp = d.comp ∧ (Dev.startRead q d).ports = d.ports ∧ (Dev.startRead q d).chans = d.chans ∧ (Dev.startRead q d).timers = d.timers ∧ (Dev.startRead q d).mrv = d.mrv ∧ (Dev.startRead q d).engines = d.engines ∧ (Dev.startRead q d).regions = d.regions ∧ (Dev.startRead q d).mct = d.mct ∧ (Dev.startRead q d).cru = d.cru ∧ (Dev.startRead q d).acc = d.acc ∧ (Dev.startRead q d).flt = d.flt ∧ (Dev.startRead q d).svc = d.svc ∧ (Dev.startRead q d).tb = d.tb ∧ (Dev.startRead q d).clk = d.clk ∧ (Dev.startRead q d).rst = d.rst ∧ (Dev.startRead q d).hif = d.hif ∧ (Dev.startRead q d).pins = d.pins := by
  simp [Dev.startRead]

@[simp] theorem Dev.snapshot_frame (q : Nat) (d : Dev) :
    (Dev.snapshot q d).now = d.now ∧ (Dev.snapshot q d).regs = d.regs ∧ (Dev.snapshot q d).luts = d.luts ∧ (Dev.snapshot q d).mem = d.mem ∧ (Dev.snapshot q d).scene = d.scene ∧ (Dev.snapshot q d).ledger = d.ledger ∧ (Dev.snapshot q d).turn = d.turn ∧ (Dev.snapshot q d).lastTurn = d.lastTurn ∧ (Dev.snapshot q d).rings = d.rings ∧ (Dev.snapshot q d).canvases = d.canvases ∧ (Dev.snapshot q d).comp = d.comp ∧ (Dev.snapshot q d).ports = d.ports ∧ (Dev.snapshot q d).chans = d.chans ∧ (Dev.snapshot q d).timers = d.timers ∧ (Dev.snapshot q d).mrv = d.mrv ∧ (Dev.snapshot q d).engines = d.engines ∧ (Dev.snapshot q d).regions = d.regions ∧ (Dev.snapshot q d).mct = d.mct ∧ (Dev.snapshot q d).cru = d.cru ∧ (Dev.snapshot q d).acc = d.acc ∧ (Dev.snapshot q d).svc = d.svc ∧ (Dev.snapshot q d).tb = d.tb ∧ (Dev.snapshot q d).clk = d.clk ∧ (Dev.snapshot q d).rst = d.rst ∧ (Dev.snapshot q d).hif = d.hif ∧ (Dev.snapshot q d).pins = d.pins := by
  simp [Dev.snapshot]

@[simp] theorem Dev.settle_frame (q : Nat) (d : Dev) :
    (Dev.settle q d).now = d.now ∧ (Dev.settle q d).regs = d.regs ∧ (Dev.settle q d).luts = d.luts ∧ (Dev.settle q d).mem = d.mem ∧ (Dev.settle q d).scene = d.scene ∧ (Dev.settle q d).ledger = d.ledger ∧ (Dev.settle q d).turn = d.turn ∧ (Dev.settle q d).lastTurn = d.lastTurn ∧ (Dev.settle q d).rings = d.rings ∧ (Dev.settle q d).canvases = d.canvases ∧ (Dev.settle q d).comp = d.comp ∧ (Dev.settle q d).ports = d.ports ∧ (Dev.settle q d).chans = d.chans ∧ (Dev.settle q d).timers = d.timers ∧ (Dev.settle q d).mrv = d.mrv ∧ (Dev.settle q d).engines = d.engines ∧ (Dev.settle q d).regions = d.regions ∧ (Dev.settle q d).mct = d.mct ∧ (Dev.settle q d).cru = d.cru ∧ (Dev.settle q d).acc = d.acc ∧ (Dev.settle q d).svc = d.svc ∧ (Dev.settle q d).tb = d.tb ∧ (Dev.settle q d).clk = d.clk ∧ (Dev.settle q d).rst = d.rst ∧ (Dev.settle q d).hif = d.hif ∧ (Dev.settle q d).pins = d.pins := by
  unfold Dev.settle; (repeat' split) <;> simp

@[simp] theorem Dev.doorbell_frame (q : Nat) (d : Dev) :
    (Dev.doorbell q d).now = d.now ∧ (Dev.doorbell q d).regs = d.regs ∧ (Dev.doorbell q d).luts = d.luts ∧ (Dev.doorbell q d).mem = d.mem ∧ (Dev.doorbell q d).scene = d.scene ∧ (Dev.doorbell q d).ledger = d.ledger ∧ (Dev.doorbell q d).turn = d.turn ∧ (Dev.doorbell q d).lastTurn = d.lastTurn ∧ (Dev.doorbell q d).rings = d.rings ∧ (Dev.doorbell q d).canvases = d.canvases ∧ (Dev.doorbell q d).comp = d.comp ∧ (Dev.doorbell q d).ports = d.ports ∧ (Dev.doorbell q d).chans = d.chans ∧ (Dev.doorbell q d).timers = d.timers ∧ (Dev.doorbell q d).mrv = d.mrv ∧ (Dev.doorbell q d).engines = d.engines ∧ (Dev.doorbell q d).regions = d.regions ∧ (Dev.doorbell q d).mct = d.mct ∧ (Dev.doorbell q d).cru = d.cru ∧ (Dev.doorbell q d).acc = d.acc ∧ (Dev.doorbell q d).svc = d.svc ∧ (Dev.doorbell q d).tb = d.tb ∧ (Dev.doorbell q d).clk = d.clk ∧ (Dev.doorbell q d).rst = d.rst ∧ (Dev.doorbell q d).hif = d.hif ∧ (Dev.doorbell q d).pins = d.pins := by
  simp [Dev.doorbell]

@[simp] theorem Dev.beginTurn_frame (q : Nat) (d : Dev) :
    (Dev.beginTurn q d).now = d.now ∧ (Dev.beginTurn q d).regs = d.regs ∧ (Dev.beginTurn q d).luts = d.luts ∧ (Dev.beginTurn q d).mem = d.mem ∧ (Dev.beginTurn q d).scene = d.scene ∧ (Dev.beginTurn q d).ledger = d.ledger ∧ (Dev.beginTurn q d).rings = d.rings ∧ (Dev.beginTurn q d).canvases = d.canvases ∧ (Dev.beginTurn q d).comp = d.comp ∧ (Dev.beginTurn q d).ports = d.ports ∧ (Dev.beginTurn q d).chans = d.chans ∧ (Dev.beginTurn q d).timers = d.timers ∧ (Dev.beginTurn q d).mrv = d.mrv ∧ (Dev.beginTurn q d).engines = d.engines ∧ (Dev.beginTurn q d).regions = d.regions ∧ (Dev.beginTurn q d).mct = d.mct ∧ (Dev.beginTurn q d).cru = d.cru ∧ (Dev.beginTurn q d).acc = d.acc ∧ (Dev.beginTurn q d).flt = d.flt ∧ (Dev.beginTurn q d).svc = d.svc ∧ (Dev.beginTurn q d).tb = d.tb ∧ (Dev.beginTurn q d).clk = d.clk ∧ (Dev.beginTurn q d).rst = d.rst ∧ (Dev.beginTurn q d).hif = d.hif ∧ (Dev.beginTurn q d).pins = d.pins := by
  simp [Dev.beginTurn]

@[simp] theorem Dev.takeTurn_frame (q : Nat) (d : Dev) :
    (Dev.takeTurn q d).now = d.now ∧ (Dev.takeTurn q d).regs = d.regs ∧ (Dev.takeTurn q d).luts = d.luts ∧ (Dev.takeTurn q d).mem = d.mem ∧ (Dev.takeTurn q d).scene = d.scene ∧ (Dev.takeTurn q d).ledger = d.ledger ∧ (Dev.takeTurn q d).rings = d.rings ∧ (Dev.takeTurn q d).canvases = d.canvases ∧ (Dev.takeTurn q d).comp = d.comp ∧ (Dev.takeTurn q d).ports = d.ports ∧ (Dev.takeTurn q d).chans = d.chans ∧ (Dev.takeTurn q d).timers = d.timers ∧ (Dev.takeTurn q d).mrv = d.mrv ∧ (Dev.takeTurn q d).engines = d.engines ∧ (Dev.takeTurn q d).regions = d.regions ∧ (Dev.takeTurn q d).mct = d.mct ∧ (Dev.takeTurn q d).cru = d.cru ∧ (Dev.takeTurn q d).acc = d.acc ∧ (Dev.takeTurn q d).flt = d.flt ∧ (Dev.takeTurn q d).svc = d.svc ∧ (Dev.takeTurn q d).tb = d.tb ∧ (Dev.takeTurn q d).clk = d.clk ∧ (Dev.takeTurn q d).rst = d.rst ∧ (Dev.takeTurn q d).hif = d.hif ∧ (Dev.takeTurn q d).pins = d.pins := by
  unfold Dev.takeTurn; (repeat' split) <;> simp

@[simp] theorem Dev.closeTurn_frame (q : Nat) (d : Dev) :
    (Dev.closeTurn q d).now = d.now ∧ (Dev.closeTurn q d).regs = d.regs ∧ (Dev.closeTurn q d).luts = d.luts ∧ (Dev.closeTurn q d).mem = d.mem ∧ (Dev.closeTurn q d).scene = d.scene ∧ (Dev.closeTurn q d).ledger = d.ledger ∧ (Dev.closeTurn q d).queues = d.queues ∧ (Dev.closeTurn q d).lastTurn = d.lastTurn ∧ (Dev.closeTurn q d).rings = d.rings ∧ (Dev.closeTurn q d).canvases = d.canvases ∧ (Dev.closeTurn q d).comp = d.comp ∧ (Dev.closeTurn q d).ports = d.ports ∧ (Dev.closeTurn q d).chans = d.chans ∧ (Dev.closeTurn q d).timers = d.timers ∧ (Dev.closeTurn q d).mrv = d.mrv ∧ (Dev.closeTurn q d).engines = d.engines ∧ (Dev.closeTurn q d).regions = d.regions ∧ (Dev.closeTurn q d).mct = d.mct ∧ (Dev.closeTurn q d).cru = d.cru ∧ (Dev.closeTurn q d).acc = d.acc ∧ (Dev.closeTurn q d).flt = d.flt ∧ (Dev.closeTurn q d).svc = d.svc ∧ (Dev.closeTurn q d).tb = d.tb ∧ (Dev.closeTurn q d).clk = d.clk ∧ (Dev.closeTurn q d).rst = d.rst ∧ (Dev.closeTurn q d).hif = d.hif ∧ (Dev.closeTurn q d).pins = d.pins := by
  simp [Dev.closeTurn]

@[simp] theorem Dev.applyArb_frame (d : Dev) (q : Nat) :
    (Dev.applyArb d q).now = d.now ∧ (Dev.applyArb d q).luts = d.luts ∧ (Dev.applyArb d q).mem = d.mem ∧ (Dev.applyArb d q).scene = d.scene ∧ (Dev.applyArb d q).ledger = d.ledger ∧ (Dev.applyArb d q).queues = d.queues ∧ (Dev.applyArb d q).turn = d.turn ∧ (Dev.applyArb d q).lastTurn = d.lastTurn ∧ (Dev.applyArb d q).rings = d.rings ∧ (Dev.applyArb d q).canvases = d.canvases ∧ (Dev.applyArb d q).comp = d.comp ∧ (Dev.applyArb d q).ports = d.ports ∧ (Dev.applyArb d q).chans = d.chans ∧ (Dev.applyArb d q).timers = d.timers ∧ (Dev.applyArb d q).mrv = d.mrv ∧ (Dev.applyArb d q).engines = d.engines ∧ (Dev.applyArb d q).regions = d.regions ∧ (Dev.applyArb d q).mct = d.mct ∧ (Dev.applyArb d q).cru = d.cru ∧ (Dev.applyArb d q).acc = d.acc ∧ (Dev.applyArb d q).flt = d.flt ∧ (Dev.applyArb d q).svc = d.svc ∧ (Dev.applyArb d q).tb = d.tb ∧ (Dev.applyArb d q).clk = d.clk ∧ (Dev.applyArb d q).rst = d.rst ∧ (Dev.applyArb d q).hif = d.hif ∧ (Dev.applyArb d q).pins = d.pins := by
  unfold Dev.applyArb; try dsimp only
  (repeat' split) <;> simp

@[simp] theorem Dev.arrival_now (q : Nat) (op : Nat) (k : Dev → Dev) (d : Dev) (hk : ∀ d, (k d).now = d.now) : (Dev.arrival q op k d).now = d.now := by
  simp [Dev.arrival, hk]

@[simp] theorem Dev.arrival_regs (q : Nat) (op : Nat) (k : Dev → Dev) (d : Dev) (hk : ∀ d, (k d).regs = d.regs) : (Dev.arrival q op k d).regs = d.regs := by
  simp [Dev.arrival, hk]

@[simp] theorem Dev.arrival_luts (q : Nat) (op : Nat) (k : Dev → Dev) (d : Dev) (hk : ∀ d, (k d).luts = d.luts) : (Dev.arrival q op k d).luts = d.luts := by
  simp [Dev.arrival, hk]

@[simp] theorem Dev.arrival_mem (q : Nat) (op : Nat) (k : Dev → Dev) (d : Dev) (hk : ∀ d, (k d).mem = d.mem) : (Dev.arrival q op k d).mem = d.mem := by
  simp [Dev.arrival, hk]

@[simp] theorem Dev.arrival_scene (q : Nat) (op : Nat) (k : Dev → Dev) (d : Dev) (hk : ∀ d, (k d).scene = d.scene) : (Dev.arrival q op k d).scene = d.scene := by
  simp [Dev.arrival, hk]

@[simp] theorem Dev.arrival_ledger (q : Nat) (op : Nat) (k : Dev → Dev) (d : Dev) (hk : ∀ d, (k d).ledger = d.ledger) : (Dev.arrival q op k d).ledger = d.ledger := by
  simp [Dev.arrival, hk]

@[simp] theorem Dev.arrival_queues (q : Nat) (op : Nat) (k : Dev → Dev) (d : Dev) (hk : ∀ d, (k d).queues = d.queues) : (Dev.arrival q op k d).queues = d.queues := by
  simp [Dev.arrival, hk]

@[simp] theorem Dev.arrival_lastTurn (q : Nat) (op : Nat) (k : Dev → Dev) (d : Dev) (hk : ∀ d, (k d).lastTurn = d.lastTurn) : (Dev.arrival q op k d).lastTurn = d.lastTurn := by
  simp [Dev.arrival, hk]

@[simp] theorem Dev.arrival_rings (q : Nat) (op : Nat) (k : Dev → Dev) (d : Dev) (hk : ∀ d, (k d).rings = d.rings) : (Dev.arrival q op k d).rings = d.rings := by
  simp [Dev.arrival, hk]

@[simp] theorem Dev.arrival_canvases (q : Nat) (op : Nat) (k : Dev → Dev) (d : Dev) (hk : ∀ d, (k d).canvases = d.canvases) : (Dev.arrival q op k d).canvases = d.canvases := by
  simp [Dev.arrival, hk]

@[simp] theorem Dev.arrival_comp (q : Nat) (op : Nat) (k : Dev → Dev) (d : Dev) (hk : ∀ d, (k d).comp = d.comp) : (Dev.arrival q op k d).comp = d.comp := by
  simp [Dev.arrival, hk]

@[simp] theorem Dev.arrival_ports (q : Nat) (op : Nat) (k : Dev → Dev) (d : Dev) (hk : ∀ d, (k d).ports = d.ports) : (Dev.arrival q op k d).ports = d.ports := by
  simp [Dev.arrival, hk]

@[simp] theorem Dev.arrival_chans (q : Nat) (op : Nat) (k : Dev → Dev) (d : Dev) (hk : ∀ d, (k d).chans = d.chans) : (Dev.arrival q op k d).chans = d.chans := by
  simp [Dev.arrival, hk]

@[simp] theorem Dev.arrival_timers (q : Nat) (op : Nat) (k : Dev → Dev) (d : Dev) (hk : ∀ d, (k d).timers = d.timers) : (Dev.arrival q op k d).timers = d.timers := by
  simp [Dev.arrival, hk]

@[simp] theorem Dev.arrival_mrv (q : Nat) (op : Nat) (k : Dev → Dev) (d : Dev) (hk : ∀ d, (k d).mrv = d.mrv) : (Dev.arrival q op k d).mrv = d.mrv := by
  simp [Dev.arrival, hk]

@[simp] theorem Dev.arrival_engines (q : Nat) (op : Nat) (k : Dev → Dev) (d : Dev) (hk : ∀ d, (k d).engines = d.engines) : (Dev.arrival q op k d).engines = d.engines := by
  simp [Dev.arrival, hk]

@[simp] theorem Dev.arrival_regions (q : Nat) (op : Nat) (k : Dev → Dev) (d : Dev) (hk : ∀ d, (k d).regions = d.regions) : (Dev.arrival q op k d).regions = d.regions := by
  simp [Dev.arrival, hk]

@[simp] theorem Dev.arrival_mct (q : Nat) (op : Nat) (k : Dev → Dev) (d : Dev) (hk : ∀ d, (k d).mct = d.mct) : (Dev.arrival q op k d).mct = d.mct := by
  simp [Dev.arrival, hk]

@[simp] theorem Dev.arrival_cru (q : Nat) (op : Nat) (k : Dev → Dev) (d : Dev) (hk : ∀ d, (k d).cru = d.cru) : (Dev.arrival q op k d).cru = d.cru := by
  simp [Dev.arrival, hk]

@[simp] theorem Dev.arrival_acc (q : Nat) (op : Nat) (k : Dev → Dev) (d : Dev) (hk : ∀ d, (k d).acc = d.acc) : (Dev.arrival q op k d).acc = d.acc := by
  simp [Dev.arrival, hk]

@[simp] theorem Dev.arrival_flt (q : Nat) (op : Nat) (k : Dev → Dev) (d : Dev) (hk : ∀ d, (k d).flt = d.flt) : (Dev.arrival q op k d).flt = d.flt := by
  simp [Dev.arrival, hk]

@[simp] theorem Dev.arrival_svc (q : Nat) (op : Nat) (k : Dev → Dev) (d : Dev) (hk : ∀ d, (k d).svc = d.svc) : (Dev.arrival q op k d).svc = d.svc := by
  simp [Dev.arrival, hk]

@[simp] theorem Dev.arrival_tb (q : Nat) (op : Nat) (k : Dev → Dev) (d : Dev) (hk : ∀ d, (k d).tb = d.tb) : (Dev.arrival q op k d).tb = d.tb := by
  simp [Dev.arrival, hk]

@[simp] theorem Dev.arrival_clk (q : Nat) (op : Nat) (k : Dev → Dev) (d : Dev) (hk : ∀ d, (k d).clk = d.clk) : (Dev.arrival q op k d).clk = d.clk := by
  simp [Dev.arrival, hk]

@[simp] theorem Dev.arrival_rst (q : Nat) (op : Nat) (k : Dev → Dev) (d : Dev) (hk : ∀ d, (k d).rst = d.rst) : (Dev.arrival q op k d).rst = d.rst := by
  simp [Dev.arrival, hk]

@[simp] theorem Dev.arrival_hif (q : Nat) (op : Nat) (k : Dev → Dev) (d : Dev) (hk : ∀ d, (k d).hif = d.hif) : (Dev.arrival q op k d).hif = d.hif := by
  simp [Dev.arrival, hk]

@[simp] theorem Dev.arrival_pins (q : Nat) (op : Nat) (k : Dev → Dev) (d : Dev) (hk : ∀ d, (k d).pins = d.pins) : (Dev.arrival q op k d).pins = d.pins := by
  simp [Dev.arrival, hk]

@[simp] theorem Dev.consume_frame (q : Nat) (grp : Nat) (started : Bool) (done : Bool) (d : Dev) :
    (Dev.consume q grp started done d).now = d.now ∧ (Dev.consume q grp started done d).regs = d.regs ∧ (Dev.consume q grp started done d).luts = d.luts ∧ (Dev.consume q grp started done d).mem = d.mem ∧ (Dev.consume q grp started done d).scene = d.scene ∧ (Dev.consume q grp started done d).ledger = d.ledger ∧ (Dev.consume q grp started done d).rings = d.rings ∧ (Dev.consume q grp started done d).canvases = d.canvases ∧ (Dev.consume q grp started done d).comp = d.comp ∧ (Dev.consume q grp started done d).ports = d.ports ∧ (Dev.consume q grp started done d).chans = d.chans ∧ (Dev.consume q grp started done d).timers = d.timers ∧ (Dev.consume q grp started done d).mrv = d.mrv ∧ (Dev.consume q grp started done d).engines = d.engines ∧ (Dev.consume q grp started done d).regions = d.regions ∧ (Dev.consume q grp started done d).mct = d.mct ∧ (Dev.consume q grp started done d).cru = d.cru ∧ (Dev.consume q grp started done d).acc = d.acc ∧ (Dev.consume q grp started done d).flt = d.flt ∧ (Dev.consume q grp started done d).svc = d.svc ∧ (Dev.consume q grp started done d).tb = d.tb ∧ (Dev.consume q grp started done d).clk = d.clk ∧ (Dev.consume q grp started done d).rst = d.rst ∧ (Dev.consume q grp started done d).hif = d.hif ∧ (Dev.consume q grp started done d).pins = d.pins := by
  simp [Dev.consume]

@[simp] theorem Dev.useGrp_frame (d : Dev) :
    (Dev.useGrp d).now = d.now ∧ (Dev.useGrp d).regs = d.regs ∧ (Dev.useGrp d).luts = d.luts ∧ (Dev.useGrp d).mem = d.mem ∧ (Dev.useGrp d).ledger = d.ledger ∧ (Dev.useGrp d).queues = d.queues ∧ (Dev.useGrp d).turn = d.turn ∧ (Dev.useGrp d).lastTurn = d.lastTurn ∧ (Dev.useGrp d).rings = d.rings ∧ (Dev.useGrp d).canvases = d.canvases ∧ (Dev.useGrp d).comp = d.comp ∧ (Dev.useGrp d).ports = d.ports ∧ (Dev.useGrp d).chans = d.chans ∧ (Dev.useGrp d).timers = d.timers ∧ (Dev.useGrp d).mrv = d.mrv ∧ (Dev.useGrp d).engines = d.engines ∧ (Dev.useGrp d).regions = d.regions ∧ (Dev.useGrp d).mct = d.mct ∧ (Dev.useGrp d).cru = d.cru ∧ (Dev.useGrp d).acc = d.acc ∧ (Dev.useGrp d).flt = d.flt ∧ (Dev.useGrp d).svc = d.svc ∧ (Dev.useGrp d).tb = d.tb ∧ (Dev.useGrp d).clk = d.clk ∧ (Dev.useGrp d).rst = d.rst ∧ (Dev.useGrp d).hif = d.hif ∧ (Dev.useGrp d).pins = d.pins := by
  simp [Dev.useGrp]

@[simp] theorem Dev.consumeDone_frame (q : Nat) (d : Dev) :
    (Dev.consumeDone q d).now = d.now ∧ (Dev.consumeDone q d).regs = d.regs ∧ (Dev.consumeDone q d).luts = d.luts ∧ (Dev.consumeDone q d).ledger = d.ledger ∧ (Dev.consumeDone q d).rings = d.rings ∧ (Dev.consumeDone q d).canvases = d.canvases ∧ (Dev.consumeDone q d).comp = d.comp ∧ (Dev.consumeDone q d).ports = d.ports ∧ (Dev.consumeDone q d).chans = d.chans ∧ (Dev.consumeDone q d).timers = d.timers ∧ (Dev.consumeDone q d).mrv = d.mrv ∧ (Dev.consumeDone q d).engines = d.engines ∧ (Dev.consumeDone q d).regions = d.regions ∧ (Dev.consumeDone q d).svc = d.svc ∧ (Dev.consumeDone q d).tb = d.tb ∧ (Dev.consumeDone q d).clk = d.clk ∧ (Dev.consumeDone q d).rst = d.rst ∧ (Dev.consumeDone q d).pins = d.pins := by
  simp [Dev.consumeDone]

@[simp] theorem Dev.refuseAlone_frame (q : Nat) (reason : Nat) (kind : Nat) (index : Nat) (d : Dev) :
    (Dev.refuseAlone q reason kind index d).now = d.now ∧ (Dev.refuseAlone q reason kind index d).regs = d.regs ∧ (Dev.refuseAlone q reason kind index d).luts = d.luts ∧ (Dev.refuseAlone q reason kind index d).ledger = d.ledger ∧ (Dev.refuseAlone q reason kind index d).canvases = d.canvases ∧ (Dev.refuseAlone q reason kind index d).comp = d.comp ∧ (Dev.refuseAlone q reason kind index d).ports = d.ports ∧ (Dev.refuseAlone q reason kind index d).chans = d.chans ∧ (Dev.refuseAlone q reason kind index d).timers = d.timers ∧ (Dev.refuseAlone q reason kind index d).mrv = d.mrv ∧ (Dev.refuseAlone q reason kind index d).engines = d.engines ∧ (Dev.refuseAlone q reason kind index d).regions = d.regions ∧ (Dev.refuseAlone q reason kind index d).svc = d.svc ∧ (Dev.refuseAlone q reason kind index d).tb = d.tb ∧ (Dev.refuseAlone q reason kind index d).clk = d.clk ∧ (Dev.refuseAlone q reason kind index d).rst = d.rst ∧ (Dev.refuseAlone q reason kind index d).pins = d.pins := by
  simp [Dev.refuseAlone]

@[simp] theorem Dev.consumeDiscarded_frame (q : Nat) (d : Dev) :
    (Dev.consumeDiscarded q d).now = d.now ∧ (Dev.consumeDiscarded q d).regs = d.regs ∧ (Dev.consumeDiscarded q d).luts = d.luts ∧ (Dev.consumeDiscarded q d).ledger = d.ledger ∧ (Dev.consumeDiscarded q d).rings = d.rings ∧ (Dev.consumeDiscarded q d).canvases = d.canvases ∧ (Dev.consumeDiscarded q d).comp = d.comp ∧ (Dev.consumeDiscarded q d).ports = d.ports ∧ (Dev.consumeDiscarded q d).chans = d.chans ∧ (Dev.consumeDiscarded q d).timers = d.timers ∧ (Dev.consumeDiscarded q d).mrv = d.mrv ∧ (Dev.consumeDiscarded q d).engines = d.engines ∧ (Dev.consumeDiscarded q d).regions = d.regions ∧ (Dev.consumeDiscarded q d).svc = d.svc ∧ (Dev.consumeDiscarded q d).tb = d.tb ∧ (Dev.consumeDiscarded q d).clk = d.clk ∧ (Dev.consumeDiscarded q d).rst = d.rst ∧ (Dev.consumeDiscarded q d).pins = d.pins := by
  simp [Dev.consumeDiscarded]

@[simp] theorem Dev.refuseAt_frame (q : Nat) (reason : Nat) (kind : Nat) (index : Nat) (d : Dev) :
    (Dev.refuseAt q reason kind index d).now = d.now ∧ (Dev.refuseAt q reason kind index d).regs = d.regs ∧ (Dev.refuseAt q reason kind index d).luts = d.luts ∧ (Dev.refuseAt q reason kind index d).ledger = d.ledger ∧ (Dev.refuseAt q reason kind index d).canvases = d.canvases ∧ (Dev.refuseAt q reason kind index d).comp = d.comp ∧ (Dev.refuseAt q reason kind index d).ports = d.ports ∧ (Dev.refuseAt q reason kind index d).chans = d.chans ∧ (Dev.refuseAt q reason kind index d).timers = d.timers ∧ (Dev.refuseAt q reason kind index d).mrv = d.mrv ∧ (Dev.refuseAt q reason kind index d).engines = d.engines ∧ (Dev.refuseAt q reason kind index d).regions = d.regions ∧ (Dev.refuseAt q reason kind index d).svc = d.svc ∧ (Dev.refuseAt q reason kind index d).tb = d.tb ∧ (Dev.refuseAt q reason kind index d).clk = d.clk ∧ (Dev.refuseAt q reason kind index d).rst = d.rst ∧ (Dev.refuseAt q reason kind index d).pins = d.pins := by
  simp [Dev.refuseAt]

@[simp] theorem Dev.stage_frame (q : Nat) (t : Txn) (op : Option TxnOp) (d : Dev) :
    (Dev.stage q t op d).now = d.now ∧ (Dev.stage q t op d).regs = d.regs ∧ (Dev.stage q t op d).luts = d.luts ∧ (Dev.stage q t op d).mem = d.mem ∧ (Dev.stage q t op d).scene = d.scene ∧ (Dev.stage q t op d).ledger = d.ledger ∧ (Dev.stage q t op d).rings = d.rings ∧ (Dev.stage q t op d).canvases = d.canvases ∧ (Dev.stage q t op d).comp = d.comp ∧ (Dev.stage q t op d).ports = d.ports ∧ (Dev.stage q t op d).chans = d.chans ∧ (Dev.stage q t op d).timers = d.timers ∧ (Dev.stage q t op d).mrv = d.mrv ∧ (Dev.stage q t op d).engines = d.engines ∧ (Dev.stage q t op d).regions = d.regions ∧ (Dev.stage q t op d).mct = d.mct ∧ (Dev.stage q t op d).cru = d.cru ∧ (Dev.stage q t op d).acc = d.acc ∧ (Dev.stage q t op d).svc = d.svc ∧ (Dev.stage q t op d).tb = d.tb ∧ (Dev.stage q t op d).clk = d.clk ∧ (Dev.stage q t op d).rst = d.rst ∧ (Dev.stage q t op d).hif = d.hif ∧ (Dev.stage q t op d).pins = d.pins := by
  simp [Dev.stage]

@[simp] theorem Dev.sceneEntry_frame (q : Nat) (op : TxnOp) (d : Dev) :
    (Dev.sceneEntry q op d).now = d.now ∧ (Dev.sceneEntry q op d).regs = d.regs ∧ (Dev.sceneEntry q op d).luts = d.luts ∧ (Dev.sceneEntry q op d).ledger = d.ledger ∧ (Dev.sceneEntry q op d).canvases = d.canvases ∧ (Dev.sceneEntry q op d).comp = d.comp ∧ (Dev.sceneEntry q op d).ports = d.ports ∧ (Dev.sceneEntry q op d).chans = d.chans ∧ (Dev.sceneEntry q op d).timers = d.timers ∧ (Dev.sceneEntry q op d).mrv = d.mrv ∧ (Dev.sceneEntry q op d).engines = d.engines ∧ (Dev.sceneEntry q op d).regions = d.regions ∧ (Dev.sceneEntry q op d).svc = d.svc ∧ (Dev.sceneEntry q op d).tb = d.tb ∧ (Dev.sceneEntry q op d).clk = d.clk ∧ (Dev.sceneEntry q op d).rst = d.rst ∧ (Dev.sceneEntry q op d).pins = d.pins := by
  unfold Dev.sceneEntry; try dsimp only
  (repeat' split) <;> simp

@[simp] theorem Dev.markStarted_frame (q : Nat) (grp : Nat) (d : Dev) :
    (Dev.markStarted q grp d).now = d.now ∧ (Dev.markStarted q grp d).regs = d.regs ∧ (Dev.markStarted q grp d).luts = d.luts ∧ (Dev.markStarted q grp d).mem = d.mem ∧ (Dev.markStarted q grp d).scene = d.scene ∧ (Dev.markStarted q grp d).ledger = d.ledger ∧ (Dev.markStarted q grp d).turn = d.turn ∧ (Dev.markStarted q grp d).lastTurn = d.lastTurn ∧ (Dev.markStarted q grp d).rings = d.rings ∧ (Dev.markStarted q grp d).canvases = d.canvases ∧ (Dev.markStarted q grp d).comp = d.comp ∧ (Dev.markStarted q grp d).ports = d.ports ∧ (Dev.markStarted q grp d).chans = d.chans ∧ (Dev.markStarted q grp d).timers = d.timers ∧ (Dev.markStarted q grp d).mrv = d.mrv ∧ (Dev.markStarted q grp d).engines = d.engines ∧ (Dev.markStarted q grp d).regions = d.regions ∧ (Dev.markStarted q grp d).mct = d.mct ∧ (Dev.markStarted q grp d).cru = d.cru ∧ (Dev.markStarted q grp d).acc = d.acc ∧ (Dev.markStarted q grp d).flt = d.flt ∧ (Dev.markStarted q grp d).svc = d.svc ∧ (Dev.markStarted q grp d).tb = d.tb ∧ (Dev.markStarted q grp d).clk = d.clk ∧ (Dev.markStarted q grp d).rst = d.rst ∧ (Dev.markStarted q grp d).hif = d.hif ∧ (Dev.markStarted q grp d).pins = d.pins := by
  simp [Dev.markStarted]

@[simp] theorem Dev.commitArrives_frame (q : Nat) (d : Dev) :
    (Dev.commitArrives q d).now = d.now ∧ (Dev.commitArrives q d).regs = d.regs ∧ (Dev.commitArrives q d).luts = d.luts ∧ (Dev.commitArrives q d).ledger = d.ledger ∧ (Dev.commitArrives q d).canvases = d.canvases ∧ (Dev.commitArrives q d).comp = d.comp ∧ (Dev.commitArrives q d).ports = d.ports ∧ (Dev.commitArrives q d).chans = d.chans ∧ (Dev.commitArrives q d).timers = d.timers ∧ (Dev.commitArrives q d).mrv = d.mrv ∧ (Dev.commitArrives q d).engines = d.engines ∧ (Dev.commitArrives q d).regions = d.regions ∧ (Dev.commitArrives q d).svc = d.svc ∧ (Dev.commitArrives q d).tb = d.tb ∧ (Dev.commitArrives q d).clk = d.clk ∧ (Dev.commitArrives q d).rst = d.rst ∧ (Dev.commitArrives q d).pins = d.pins := by
  unfold Dev.commitArrives; try dsimp only
  (repeat' split) <;> simp

@[simp] theorem Dev.plainArrives_frame (q : Nat) (d : Dev) :
    (Dev.plainArrives q d).now = d.now ∧ (Dev.plainArrives q d).regs = d.regs ∧ (Dev.plainArrives q d).luts = d.luts ∧ (Dev.plainArrives q d).ledger = d.ledger ∧ (Dev.plainArrives q d).rings = d.rings ∧ (Dev.plainArrives q d).canvases = d.canvases ∧ (Dev.plainArrives q d).comp = d.comp ∧ (Dev.plainArrives q d).ports = d.ports ∧ (Dev.plainArrives q d).chans = d.chans ∧ (Dev.plainArrives q d).timers = d.timers ∧ (Dev.plainArrives q d).mrv = d.mrv ∧ (Dev.plainArrives q d).engines = d.engines ∧ (Dev.plainArrives q d).regions = d.regions ∧ (Dev.plainArrives q d).svc = d.svc ∧ (Dev.plainArrives q d).tb = d.tb ∧ (Dev.plainArrives q d).clk = d.clk ∧ (Dev.plainArrives q d).rst = d.rst ∧ (Dev.plainArrives q d).pins = d.pins := by
  unfold Dev.plainArrives; (repeat' split) <;> simp

@[simp] theorem Dev.noteArrives_frame (q : Nat) (d : Dev) :
    (Dev.noteArrives q d).now = d.now ∧ (Dev.noteArrives q d).regs = d.regs ∧ (Dev.noteArrives q d).luts = d.luts ∧ (Dev.noteArrives q d).ledger = d.ledger ∧ (Dev.noteArrives q d).rings = d.rings ∧ (Dev.noteArrives q d).canvases = d.canvases ∧ (Dev.noteArrives q d).comp = d.comp ∧ (Dev.noteArrives q d).ports = d.ports ∧ (Dev.noteArrives q d).chans = d.chans ∧ (Dev.noteArrives q d).timers = d.timers ∧ (Dev.noteArrives q d).mrv = d.mrv ∧ (Dev.noteArrives q d).engines = d.engines ∧ (Dev.noteArrives q d).regions = d.regions ∧ (Dev.noteArrives q d).svc = d.svc ∧ (Dev.noteArrives q d).tb = d.tb ∧ (Dev.noteArrives q d).clk = d.clk ∧ (Dev.noteArrives q d).rst = d.rst ∧ (Dev.noteArrives q d).pins = d.pins := by
  simp [Dev.noteArrives]

@[simp] theorem Dev.nopArrives_frame (q : Nat) (d : Dev) :
    (Dev.nopArrives q d).now = d.now ∧ (Dev.nopArrives q d).regs = d.regs ∧ (Dev.nopArrives q d).luts = d.luts ∧ (Dev.nopArrives q d).ledger = d.ledger ∧ (Dev.nopArrives q d).rings = d.rings ∧ (Dev.nopArrives q d).canvases = d.canvases ∧ (Dev.nopArrives q d).comp = d.comp ∧ (Dev.nopArrives q d).ports = d.ports ∧ (Dev.nopArrives q d).chans = d.chans ∧ (Dev.nopArrives q d).timers = d.timers ∧ (Dev.nopArrives q d).mrv = d.mrv ∧ (Dev.nopArrives q d).engines = d.engines ∧ (Dev.nopArrives q d).regions = d.regions ∧ (Dev.nopArrives q d).svc = d.svc ∧ (Dev.nopArrives q d).tb = d.tb ∧ (Dev.nopArrives q d).clk = d.clk ∧ (Dev.nopArrives q d).rst = d.rst ∧ (Dev.nopArrives q d).pins = d.pins := by
  simp [Dev.nopArrives]

@[simp] theorem Dev.outsideOnly_now (q : Nat) (k : Dev → Dev) (d : Dev) (hk : ∀ d, (k d).now = d.now) : (Dev.outsideOnly q k d).now = d.now := by
  simp [Dev.outsideOnly, hk]

@[simp] theorem Dev.outsideOnly_regs (q : Nat) (k : Dev → Dev) (d : Dev) (hk : ∀ d, (k d).regs = d.regs) : (Dev.outsideOnly q k d).regs = d.regs := by
  simp [Dev.outsideOnly, hk]

@[simp] theorem Dev.outsideOnly_luts (q : Nat) (k : Dev → Dev) (d : Dev) (hk : ∀ d, (k d).luts = d.luts) : (Dev.outsideOnly q k d).luts = d.luts := by
  simp [Dev.outsideOnly, hk]

@[simp] theorem Dev.outsideOnly_ledger (q : Nat) (k : Dev → Dev) (d : Dev) (hk : ∀ d, (k d).ledger = d.ledger) : (Dev.outsideOnly q k d).ledger = d.ledger := by
  simp [Dev.outsideOnly, hk]

@[simp] theorem Dev.outsideOnly_canvases (q : Nat) (k : Dev → Dev) (d : Dev) (hk : ∀ d, (k d).canvases = d.canvases) : (Dev.outsideOnly q k d).canvases = d.canvases := by
  simp [Dev.outsideOnly, hk]

@[simp] theorem Dev.outsideOnly_comp (q : Nat) (k : Dev → Dev) (d : Dev) (hk : ∀ d, (k d).comp = d.comp) : (Dev.outsideOnly q k d).comp = d.comp := by
  simp [Dev.outsideOnly, hk]

@[simp] theorem Dev.outsideOnly_ports (q : Nat) (k : Dev → Dev) (d : Dev) (hk : ∀ d, (k d).ports = d.ports) : (Dev.outsideOnly q k d).ports = d.ports := by
  simp [Dev.outsideOnly, hk]

@[simp] theorem Dev.outsideOnly_chans (q : Nat) (k : Dev → Dev) (d : Dev) (hk : ∀ d, (k d).chans = d.chans) : (Dev.outsideOnly q k d).chans = d.chans := by
  simp [Dev.outsideOnly, hk]

@[simp] theorem Dev.outsideOnly_timers (q : Nat) (k : Dev → Dev) (d : Dev) (hk : ∀ d, (k d).timers = d.timers) : (Dev.outsideOnly q k d).timers = d.timers := by
  simp [Dev.outsideOnly, hk]

@[simp] theorem Dev.outsideOnly_mrv (q : Nat) (k : Dev → Dev) (d : Dev) (hk : ∀ d, (k d).mrv = d.mrv) : (Dev.outsideOnly q k d).mrv = d.mrv := by
  simp [Dev.outsideOnly, hk]

@[simp] theorem Dev.outsideOnly_engines (q : Nat) (k : Dev → Dev) (d : Dev) (hk : ∀ d, (k d).engines = d.engines) : (Dev.outsideOnly q k d).engines = d.engines := by
  simp [Dev.outsideOnly, hk]

@[simp] theorem Dev.outsideOnly_regions (q : Nat) (k : Dev → Dev) (d : Dev) (hk : ∀ d, (k d).regions = d.regions) : (Dev.outsideOnly q k d).regions = d.regions := by
  simp [Dev.outsideOnly, hk]

@[simp] theorem Dev.outsideOnly_svc (q : Nat) (k : Dev → Dev) (d : Dev) (hk : ∀ d, (k d).svc = d.svc) : (Dev.outsideOnly q k d).svc = d.svc := by
  simp [Dev.outsideOnly, hk]

@[simp] theorem Dev.outsideOnly_tb (q : Nat) (k : Dev → Dev) (d : Dev) (hk : ∀ d, (k d).tb = d.tb) : (Dev.outsideOnly q k d).tb = d.tb := by
  simp [Dev.outsideOnly, hk]

@[simp] theorem Dev.outsideOnly_clk (q : Nat) (k : Dev → Dev) (d : Dev) (hk : ∀ d, (k d).clk = d.clk) : (Dev.outsideOnly q k d).clk = d.clk := by
  simp [Dev.outsideOnly, hk]

@[simp] theorem Dev.outsideOnly_rst (q : Nat) (k : Dev → Dev) (d : Dev) (hk : ∀ d, (k d).rst = d.rst) : (Dev.outsideOnly q k d).rst = d.rst := by
  simp [Dev.outsideOnly, hk]

@[simp] theorem Dev.outsideOnly_pins (q : Nat) (k : Dev → Dev) (d : Dev) (hk : ∀ d, (k d).pins = d.pins) : (Dev.outsideOnly q k d).pins = d.pins := by
  simp [Dev.outsideOnly, hk]

@[simp] theorem Dev.holdForUnit_frame (q : Nat) (d : Dev) :
    (Dev.holdForUnit q d).now = d.now ∧ (Dev.holdForUnit q d).regs = d.regs ∧ (Dev.holdForUnit q d).luts = d.luts ∧ (Dev.holdForUnit q d).mem = d.mem ∧ (Dev.holdForUnit q d).ledger = d.ledger ∧ (Dev.holdForUnit q d).rings = d.rings ∧ (Dev.holdForUnit q d).canvases = d.canvases ∧ (Dev.holdForUnit q d).comp = d.comp ∧ (Dev.holdForUnit q d).ports = d.ports ∧ (Dev.holdForUnit q d).chans = d.chans ∧ (Dev.holdForUnit q d).timers = d.timers ∧ (Dev.holdForUnit q d).mrv = d.mrv ∧ (Dev.holdForUnit q d).engines = d.engines ∧ (Dev.holdForUnit q d).regions = d.regions ∧ (Dev.holdForUnit q d).mct = d.mct ∧ (Dev.holdForUnit q d).cru = d.cru ∧ (Dev.holdForUnit q d).acc = d.acc ∧ (Dev.holdForUnit q d).svc = d.svc ∧ (Dev.holdForUnit q d).tb = d.tb ∧ (Dev.holdForUnit q d).clk = d.clk ∧ (Dev.holdForUnit q d).rst = d.rst ∧ (Dev.holdForUnit q d).hif = d.hif ∧ (Dev.holdForUnit q d).pins = d.pins := by
  simp [Dev.holdForUnit]

@[simp] theorem Dev.refuseHeld_frame (q : Nat) (reason : Nat) (kind : Nat) (index : Nat) (d : Dev) :
    (Dev.refuseHeld q reason kind index d).now = d.now ∧ (Dev.refuseHeld q reason kind index d).regs = d.regs ∧ (Dev.refuseHeld q reason kind index d).luts = d.luts ∧ (Dev.refuseHeld q reason kind index d).scene = d.scene ∧ (Dev.refuseHeld q reason kind index d).ledger = d.ledger ∧ (Dev.refuseHeld q reason kind index d).turn = d.turn ∧ (Dev.refuseHeld q reason kind index d).lastTurn = d.lastTurn ∧ (Dev.refuseHeld q reason kind index d).canvases = d.canvases ∧ (Dev.refuseHeld q reason kind index d).comp = d.comp ∧ (Dev.refuseHeld q reason kind index d).ports = d.ports ∧ (Dev.refuseHeld q reason kind index d).chans = d.chans ∧ (Dev.refuseHeld q reason kind index d).timers = d.timers ∧ (Dev.refuseHeld q reason kind index d).mrv = d.mrv ∧ (Dev.refuseHeld q reason kind index d).engines = d.engines ∧ (Dev.refuseHeld q reason kind index d).regions = d.regions ∧ (Dev.refuseHeld q reason kind index d).svc = d.svc ∧ (Dev.refuseHeld q reason kind index d).tb = d.tb ∧ (Dev.refuseHeld q reason kind index d).clk = d.clk ∧ (Dev.refuseHeld q reason kind index d).rst = d.rst ∧ (Dev.refuseHeld q reason kind index d).pins = d.pins := by
  simp [Dev.refuseHeld]

@[simp] theorem Dev.releaseHeld_frame (q : Nat) (d : Dev) :
    (Dev.releaseHeld q d).now = d.now ∧ (Dev.releaseHeld q d).regs = d.regs ∧ (Dev.releaseHeld q d).luts = d.luts ∧ (Dev.releaseHeld q d).mem = d.mem ∧ (Dev.releaseHeld q d).scene = d.scene ∧ (Dev.releaseHeld q d).ledger = d.ledger ∧ (Dev.releaseHeld q d).turn = d.turn ∧ (Dev.releaseHeld q d).lastTurn = d.lastTurn ∧ (Dev.releaseHeld q d).rings = d.rings ∧ (Dev.releaseHeld q d).canvases = d.canvases ∧ (Dev.releaseHeld q d).comp = d.comp ∧ (Dev.releaseHeld q d).ports = d.ports ∧ (Dev.releaseHeld q d).chans = d.chans ∧ (Dev.releaseHeld q d).timers = d.timers ∧ (Dev.releaseHeld q d).mrv = d.mrv ∧ (Dev.releaseHeld q d).engines = d.engines ∧ (Dev.releaseHeld q d).regions = d.regions ∧ (Dev.releaseHeld q d).mct = d.mct ∧ (Dev.releaseHeld q d).cru = d.cru ∧ (Dev.releaseHeld q d).acc = d.acc ∧ (Dev.releaseHeld q d).svc = d.svc ∧ (Dev.releaseHeld q d).tb = d.tb ∧ (Dev.releaseHeld q d).clk = d.clk ∧ (Dev.releaseHeld q d).rst = d.rst ∧ (Dev.releaseHeld q d).hif = d.hif ∧ (Dev.releaseHeld q d).pins = d.pins := by
  simp [Dev.releaseHeld]

@[simp] theorem Dev.refuseWaiters_frame (op : Nat) (hi : Nat) (kind : Nat) (u : Nat) (d : Dev) :
    (Dev.refuseWaiters op hi kind u d).now = d.now ∧ (Dev.refuseWaiters op hi kind u d).regs = d.regs ∧ (Dev.refuseWaiters op hi kind u d).luts = d.luts ∧ (Dev.refuseWaiters op hi kind u d).scene = d.scene ∧ (Dev.refuseWaiters op hi kind u d).ledger = d.ledger ∧ (Dev.refuseWaiters op hi kind u d).turn = d.turn ∧ (Dev.refuseWaiters op hi kind u d).lastTurn = d.lastTurn ∧ (Dev.refuseWaiters op hi kind u d).canvases = d.canvases ∧ (Dev.refuseWaiters op hi kind u d).comp = d.comp ∧ (Dev.refuseWaiters op hi kind u d).ports = d.ports ∧ (Dev.refuseWaiters op hi kind u d).chans = d.chans ∧ (Dev.refuseWaiters op hi kind u d).timers = d.timers ∧ (Dev.refuseWaiters op hi kind u d).mrv = d.mrv ∧ (Dev.refuseWaiters op hi kind u d).engines = d.engines ∧ (Dev.refuseWaiters op hi kind u d).regions = d.regions ∧ (Dev.refuseWaiters op hi kind u d).svc = d.svc ∧ (Dev.refuseWaiters op hi kind u d).tb = d.tb ∧ (Dev.refuseWaiters op hi kind u d).clk = d.clk ∧ (Dev.refuseWaiters op hi kind u d).rst = d.rst ∧ (Dev.refuseWaiters op hi kind u d).pins = d.pins := by
  simp [Dev.refuseWaiters]

@[simp] theorem Dev.endWait_frame (q : Nat) (w : Wait) (d : Dev) :
    (Dev.endWait q w d).now = d.now ∧ (Dev.endWait q w d).regs = d.regs ∧ (Dev.endWait q w d).luts = d.luts ∧ (Dev.endWait q w d).scene = d.scene ∧ (Dev.endWait q w d).ledger = d.ledger ∧ (Dev.endWait q w d).turn = d.turn ∧ (Dev.endWait q w d).lastTurn = d.lastTurn ∧ (Dev.endWait q w d).rings = d.rings ∧ (Dev.endWait q w d).canvases = d.canvases ∧ (Dev.endWait q w d).comp = d.comp ∧ (Dev.endWait q w d).ports = d.ports ∧ (Dev.endWait q w d).chans = d.chans ∧ (Dev.endWait q w d).timers = d.timers ∧ (Dev.endWait q w d).mrv = d.mrv ∧ (Dev.endWait q w d).engines = d.engines ∧ (Dev.endWait q w d).regions = d.regions ∧ (Dev.endWait q w d).svc = d.svc ∧ (Dev.endWait q w d).tb = d.tb ∧ (Dev.endWait q w d).clk = d.clk ∧ (Dev.endWait q w d).rst = d.rst ∧ (Dev.endWait q w d).pins = d.pins := by
  simp [Dev.endWait]

@[simp] theorem Dev.checkLevels_frame (d : Dev) :
    (Dev.checkLevels d).now = d.now ∧ (Dev.checkLevels d).regs = d.regs ∧ (Dev.checkLevels d).luts = d.luts ∧ (Dev.checkLevels d).scene = d.scene ∧ (Dev.checkLevels d).ledger = d.ledger ∧ (Dev.checkLevels d).turn = d.turn ∧ (Dev.checkLevels d).lastTurn = d.lastTurn ∧ (Dev.checkLevels d).rings = d.rings ∧ (Dev.checkLevels d).canvases = d.canvases ∧ (Dev.checkLevels d).comp = d.comp ∧ (Dev.checkLevels d).ports = d.ports ∧ (Dev.checkLevels d).chans = d.chans ∧ (Dev.checkLevels d).timers = d.timers ∧ (Dev.checkLevels d).mrv = d.mrv ∧ (Dev.checkLevels d).engines = d.engines ∧ (Dev.checkLevels d).regions = d.regions ∧ (Dev.checkLevels d).svc = d.svc ∧ (Dev.checkLevels d).tb = d.tb ∧ (Dev.checkLevels d).clk = d.clk ∧ (Dev.checkLevels d).rst = d.rst ∧ (Dev.checkLevels d).pins = d.pins := by
  unfold Dev.checkLevels
  refine foldl_rel (fun x y => x.now = y.now ∧ x.regs = y.regs ∧ x.luts = y.luts ∧ x.scene = y.scene ∧ x.ledger = y.ledger ∧ x.turn = y.turn ∧ x.lastTurn = y.lastTurn ∧ x.rings = y.rings ∧ x.canvases = y.canvases ∧ x.comp = y.comp ∧ x.ports = y.ports ∧ x.chans = y.chans ∧ x.timers = y.timers ∧ x.mrv = y.mrv ∧ x.engines = y.engines ∧ x.regions = y.regions ∧ x.svc = y.svc ∧ x.tb = y.tb ∧ x.clk = y.clk ∧ x.rst = y.rst ∧ x.pins = y.pins) (by simp) (fun x y z h₁ h₂ => by simp only [h₁, h₂, and_self]) (fun d a => ?_) _ _
  (repeat' split) <;> simp

@[simp] theorem Dev.countEdge_frame (event index : Nat) (d : Dev) :
    (Dev.countEdge event index d).now = d.now ∧ (Dev.countEdge event index d).regs = d.regs ∧ (Dev.countEdge event index d).luts = d.luts ∧ (Dev.countEdge event index d).scene = d.scene ∧ (Dev.countEdge event index d).ledger = d.ledger ∧ (Dev.countEdge event index d).turn = d.turn ∧ (Dev.countEdge event index d).lastTurn = d.lastTurn ∧ (Dev.countEdge event index d).rings = d.rings ∧ (Dev.countEdge event index d).canvases = d.canvases ∧ (Dev.countEdge event index d).comp = d.comp ∧ (Dev.countEdge event index d).ports = d.ports ∧ (Dev.countEdge event index d).chans = d.chans ∧ (Dev.countEdge event index d).timers = d.timers ∧ (Dev.countEdge event index d).mrv = d.mrv ∧ (Dev.countEdge event index d).engines = d.engines ∧ (Dev.countEdge event index d).regions = d.regions ∧ (Dev.countEdge event index d).svc = d.svc ∧ (Dev.countEdge event index d).tb = d.tb ∧ (Dev.countEdge event index d).clk = d.clk ∧ (Dev.countEdge event index d).rst = d.rst ∧ (Dev.countEdge event index d).pins = d.pins := by
  unfold Dev.countEdge
  refine foldl_rel (fun x y => x.now = y.now ∧ x.regs = y.regs ∧ x.luts = y.luts ∧ x.scene = y.scene ∧ x.ledger = y.ledger ∧ x.turn = y.turn ∧ x.lastTurn = y.lastTurn ∧ x.rings = y.rings ∧ x.canvases = y.canvases ∧ x.comp = y.comp ∧ x.ports = y.ports ∧ x.chans = y.chans ∧ x.timers = y.timers ∧ x.mrv = y.mrv ∧ x.engines = y.engines ∧ x.regions = y.regions ∧ x.svc = y.svc ∧ x.tb = y.tb ∧ x.clk = y.clk ∧ x.rst = y.rst ∧ x.pins = y.pins) (by simp) (fun x y z h₁ h₂ => by simp only [h₁, h₂, and_self]) (fun d a => ?_) _ _
  (repeat' split) <;> simp

@[simp] theorem Dev.beginWait_frame (q : Nat) (d : Dev) :
    (Dev.beginWait q d).now = d.now ∧ (Dev.beginWait q d).regs = d.regs ∧ (Dev.beginWait q d).luts = d.luts ∧ (Dev.beginWait q d).ledger = d.ledger ∧ (Dev.beginWait q d).canvases = d.canvases ∧ (Dev.beginWait q d).comp = d.comp ∧ (Dev.beginWait q d).ports = d.ports ∧ (Dev.beginWait q d).chans = d.chans ∧ (Dev.beginWait q d).timers = d.timers ∧ (Dev.beginWait q d).mrv = d.mrv ∧ (Dev.beginWait q d).engines = d.engines ∧ (Dev.beginWait q d).regions = d.regions ∧ (Dev.beginWait q d).svc = d.svc ∧ (Dev.beginWait q d).tb = d.tb ∧ (Dev.beginWait q d).clk = d.clk ∧ (Dev.beginWait q d).rst = d.rst ∧ (Dev.beginWait q d).pins = d.pins := by
  simp [Dev.beginWait]

@[simp] theorem Dev.enableQueue_frame (q : Nat) (d : Dev) :
    (Dev.enableQueue q d).now = d.now ∧ (Dev.enableQueue q d).regs = d.regs ∧ (Dev.enableQueue q d).luts = d.luts ∧ (Dev.enableQueue q d).mem = d.mem ∧ (Dev.enableQueue q d).scene = d.scene ∧ (Dev.enableQueue q d).ledger = d.ledger ∧ (Dev.enableQueue q d).turn = d.turn ∧ (Dev.enableQueue q d).lastTurn = d.lastTurn ∧ (Dev.enableQueue q d).rings = d.rings ∧ (Dev.enableQueue q d).canvases = d.canvases ∧ (Dev.enableQueue q d).comp = d.comp ∧ (Dev.enableQueue q d).ports = d.ports ∧ (Dev.enableQueue q d).chans = d.chans ∧ (Dev.enableQueue q d).timers = d.timers ∧ (Dev.enableQueue q d).mrv = d.mrv ∧ (Dev.enableQueue q d).engines = d.engines ∧ (Dev.enableQueue q d).regions = d.regions ∧ (Dev.enableQueue q d).mct = d.mct ∧ (Dev.enableQueue q d).cru = d.cru ∧ (Dev.enableQueue q d).acc = d.acc ∧ (Dev.enableQueue q d).flt = d.flt ∧ (Dev.enableQueue q d).svc = d.svc ∧ (Dev.enableQueue q d).tb = d.tb ∧ (Dev.enableQueue q d).clk = d.clk ∧ (Dev.enableQueue q d).rst = d.rst ∧ (Dev.enableQueue q d).hif = d.hif ∧ (Dev.enableQueue q d).pins = d.pins := by
  simp [Dev.enableQueue]

@[simp] theorem Dev.drainQueue_frame (q : Nat) (d : Dev) :
    (Dev.drainQueue q d).now = d.now ∧ (Dev.drainQueue q d).regs = d.regs ∧ (Dev.drainQueue q d).luts = d.luts ∧ (Dev.drainQueue q d).scene = d.scene ∧ (Dev.drainQueue q d).ledger = d.ledger ∧ (Dev.drainQueue q d).lastTurn = d.lastTurn ∧ (Dev.drainQueue q d).canvases = d.canvases ∧ (Dev.drainQueue q d).comp = d.comp ∧ (Dev.drainQueue q d).ports = d.ports ∧ (Dev.drainQueue q d).chans = d.chans ∧ (Dev.drainQueue q d).timers = d.timers ∧ (Dev.drainQueue q d).mrv = d.mrv ∧ (Dev.drainQueue q d).engines = d.engines ∧ (Dev.drainQueue q d).regions = d.regions ∧ (Dev.drainQueue q d).svc = d.svc ∧ (Dev.drainQueue q d).tb = d.tb ∧ (Dev.drainQueue q d).clk = d.clk ∧ (Dev.drainQueue q d).rst = d.rst ∧ (Dev.drainQueue q d).pins = d.pins := by
  simp [Dev.drainQueue]

@[simp] theorem Dev.writeQueueEn_frame (q : Nat) (b : Bool) (d : Dev) :
    (Dev.writeQueueEn q b d).now = d.now ∧ (Dev.writeQueueEn q b d).regs = d.regs ∧ (Dev.writeQueueEn q b d).luts = d.luts ∧ (Dev.writeQueueEn q b d).scene = d.scene ∧ (Dev.writeQueueEn q b d).ledger = d.ledger ∧ (Dev.writeQueueEn q b d).lastTurn = d.lastTurn ∧ (Dev.writeQueueEn q b d).canvases = d.canvases ∧ (Dev.writeQueueEn q b d).comp = d.comp ∧ (Dev.writeQueueEn q b d).ports = d.ports ∧ (Dev.writeQueueEn q b d).chans = d.chans ∧ (Dev.writeQueueEn q b d).timers = d.timers ∧ (Dev.writeQueueEn q b d).mrv = d.mrv ∧ (Dev.writeQueueEn q b d).engines = d.engines ∧ (Dev.writeQueueEn q b d).regions = d.regions ∧ (Dev.writeQueueEn q b d).svc = d.svc ∧ (Dev.writeQueueEn q b d).tb = d.tb ∧ (Dev.writeQueueEn q b d).clk = d.clk ∧ (Dev.writeQueueEn q b d).rst = d.rst ∧ (Dev.writeQueueEn q b d).pins = d.pins := by
  unfold Dev.writeQueueEn; try dsimp only
  (repeat' split) <;> simp

@[simp] theorem Dev.flrRing_frame (v : Nat) (d : Dev) :
    (Dev.flrRing v d).now = d.now ∧ (Dev.flrRing v d).regs = d.regs ∧ (Dev.flrRing v d).luts = d.luts ∧ (Dev.flrRing v d).mem = d.mem ∧ (Dev.flrRing v d).scene = d.scene ∧ (Dev.flrRing v d).ledger = d.ledger ∧ (Dev.flrRing v d).queues = d.queues ∧ (Dev.flrRing v d).turn = d.turn ∧ (Dev.flrRing v d).lastTurn = d.lastTurn ∧ (Dev.flrRing v d).canvases = d.canvases ∧ (Dev.flrRing v d).comp = d.comp ∧ (Dev.flrRing v d).ports = d.ports ∧ (Dev.flrRing v d).chans = d.chans ∧ (Dev.flrRing v d).timers = d.timers ∧ (Dev.flrRing v d).mrv = d.mrv ∧ (Dev.flrRing v d).engines = d.engines ∧ (Dev.flrRing v d).regions = d.regions ∧ (Dev.flrRing v d).mct = d.mct ∧ (Dev.flrRing v d).cru = d.cru ∧ (Dev.flrRing v d).acc = d.acc ∧ (Dev.flrRing v d).flt = d.flt ∧ (Dev.flrRing v d).svc = d.svc ∧ (Dev.flrRing v d).tb = d.tb ∧ (Dev.flrRing v d).clk = d.clk ∧ (Dev.flrRing v d).rst = d.rst ∧ (Dev.flrRing v d).hif = d.hif ∧ (Dev.flrRing v d).pins = d.pins := by
  simp [Dev.flrRing]

@[simp] theorem Dev.queueDrained_frame (q : Nat) (d : Dev) :
    (Dev.queueDrained q d).now = d.now ∧ (Dev.queueDrained q d).luts = d.luts ∧ (Dev.queueDrained q d).mem = d.mem ∧ (Dev.queueDrained q d).scene = d.scene ∧ (Dev.queueDrained q d).ledger = d.ledger ∧ (Dev.queueDrained q d).turn = d.turn ∧ (Dev.queueDrained q d).lastTurn = d.lastTurn ∧ (Dev.queueDrained q d).canvases = d.canvases ∧ (Dev.queueDrained q d).comp = d.comp ∧ (Dev.queueDrained q d).ports = d.ports ∧ (Dev.queueDrained q d).chans = d.chans ∧ (Dev.queueDrained q d).timers = d.timers ∧ (Dev.queueDrained q d).mrv = d.mrv ∧ (Dev.queueDrained q d).engines = d.engines ∧ (Dev.queueDrained q d).regions = d.regions ∧ (Dev.queueDrained q d).mct = d.mct ∧ (Dev.queueDrained q d).cru = d.cru ∧ (Dev.queueDrained q d).acc = d.acc ∧ (Dev.queueDrained q d).flt = d.flt ∧ (Dev.queueDrained q d).svc = d.svc ∧ (Dev.queueDrained q d).tb = d.tb ∧ (Dev.queueDrained q d).clk = d.clk ∧ (Dev.queueDrained q d).rst = d.rst ∧ (Dev.queueDrained q d).hif = d.hif ∧ (Dev.queueDrained q d).pins = d.pins := by
  simp [Dev.queueDrained]

@[simp] theorem Dev.writeRingEn_frame (f : Nat) (b : Bool) (d : Dev) :
    (Dev.writeRingEn f b d).now = d.now ∧ (Dev.writeRingEn f b d).regs = d.regs ∧ (Dev.writeRingEn f b d).luts = d.luts ∧ (Dev.writeRingEn f b d).mem = d.mem ∧ (Dev.writeRingEn f b d).scene = d.scene ∧ (Dev.writeRingEn f b d).ledger = d.ledger ∧ (Dev.writeRingEn f b d).queues = d.queues ∧ (Dev.writeRingEn f b d).turn = d.turn ∧ (Dev.writeRingEn f b d).lastTurn = d.lastTurn ∧ (Dev.writeRingEn f b d).canvases = d.canvases ∧ (Dev.writeRingEn f b d).comp = d.comp ∧ (Dev.writeRingEn f b d).ports = d.ports ∧ (Dev.writeRingEn f b d).chans = d.chans ∧ (Dev.writeRingEn f b d).timers = d.timers ∧ (Dev.writeRingEn f b d).mrv = d.mrv ∧ (Dev.writeRingEn f b d).engines = d.engines ∧ (Dev.writeRingEn f b d).regions = d.regions ∧ (Dev.writeRingEn f b d).mct = d.mct ∧ (Dev.writeRingEn f b d).cru = d.cru ∧ (Dev.writeRingEn f b d).acc = d.acc ∧ (Dev.writeRingEn f b d).flt = d.flt ∧ (Dev.writeRingEn f b d).svc = d.svc ∧ (Dev.writeRingEn f b d).tb = d.tb ∧ (Dev.writeRingEn f b d).clk = d.clk ∧ (Dev.writeRingEn f b d).rst = d.rst ∧ (Dev.writeRingEn f b d).hif = d.hif ∧ (Dev.writeRingEn f b d).pins = d.pins := by
  simp [Dev.writeRingEn]

@[simp] theorem Dev.writeNhead_frame (f : Nat) (v : Nat) (d : Dev) :
    (Dev.writeNhead f v d).now = d.now ∧ (Dev.writeNhead f v d).regs = d.regs ∧ (Dev.writeNhead f v d).luts = d.luts ∧ (Dev.writeNhead f v d).mem = d.mem ∧ (Dev.writeNhead f v d).scene = d.scene ∧ (Dev.writeNhead f v d).ledger = d.ledger ∧ (Dev.writeNhead f v d).queues = d.queues ∧ (Dev.writeNhead f v d).turn = d.turn ∧ (Dev.writeNhead f v d).lastTurn = d.lastTurn ∧ (Dev.writeNhead f v d).canvases = d.canvases ∧ (Dev.writeNhead f v d).comp = d.comp ∧ (Dev.writeNhead f v d).ports = d.ports ∧ (Dev.writeNhead f v d).chans = d.chans ∧ (Dev.writeNhead f v d).timers = d.timers ∧ (Dev.writeNhead f v d).mrv = d.mrv ∧ (Dev.writeNhead f v d).engines = d.engines ∧ (Dev.writeNhead f v d).regions = d.regions ∧ (Dev.writeNhead f v d).mct = d.mct ∧ (Dev.writeNhead f v d).cru = d.cru ∧ (Dev.writeNhead f v d).acc = d.acc ∧ (Dev.writeNhead f v d).svc = d.svc ∧ (Dev.writeNhead f v d).tb = d.tb ∧ (Dev.writeNhead f v d).clk = d.clk ∧ (Dev.writeNhead f v d).rst = d.rst ∧ (Dev.writeNhead f v d).hif = d.hif ∧ (Dev.writeNhead f v d).pins = d.pins := by
  simp [Dev.writeNhead]

@[simp] theorem Dev.vsync_frame (c : Nat) (frame : Nat) (d : Dev) :
    (Dev.vsync c frame d).now = d.now ∧ (Dev.vsync c frame d).regs = d.regs ∧ (Dev.vsync c frame d).luts = d.luts ∧ (Dev.vsync c frame d).scene = d.scene ∧ (Dev.vsync c frame d).ledger = d.ledger ∧ (Dev.vsync c frame d).queues = d.queues ∧ (Dev.vsync c frame d).turn = d.turn ∧ (Dev.vsync c frame d).lastTurn = d.lastTurn ∧ (Dev.vsync c frame d).canvases = d.canvases ∧ (Dev.vsync c frame d).comp = d.comp ∧ (Dev.vsync c frame d).ports = d.ports ∧ (Dev.vsync c frame d).chans = d.chans ∧ (Dev.vsync c frame d).timers = d.timers ∧ (Dev.vsync c frame d).mrv = d.mrv ∧ (Dev.vsync c frame d).engines = d.engines ∧ (Dev.vsync c frame d).regions = d.regions ∧ (Dev.vsync c frame d).svc = d.svc ∧ (Dev.vsync c frame d).tb = d.tb ∧ (Dev.vsync c frame d).clk = d.clk ∧ (Dev.vsync c frame d).rst = d.rst ∧ (Dev.vsync c frame d).pins = d.pins := by
  simp [Dev.vsync]

@[simp] theorem Dev.noteFailure_frame (code : Nat) (mid : Nat) (write : Bool) (a : Nat) (len : Nat) (d : Dev) :
    (Dev.noteFailure code mid write a len d).now = d.now ∧ (Dev.noteFailure code mid write a len d).regs = d.regs ∧ (Dev.noteFailure code mid write a len d).luts = d.luts ∧ (Dev.noteFailure code mid write a len d).mem = d.mem ∧ (Dev.noteFailure code mid write a len d).scene = d.scene ∧ (Dev.noteFailure code mid write a len d).ledger = d.ledger ∧ (Dev.noteFailure code mid write a len d).queues = d.queues ∧ (Dev.noteFailure code mid write a len d).turn = d.turn ∧ (Dev.noteFailure code mid write a len d).lastTurn = d.lastTurn ∧ (Dev.noteFailure code mid write a len d).rings = d.rings ∧ (Dev.noteFailure code mid write a len d).canvases = d.canvases ∧ (Dev.noteFailure code mid write a len d).comp = d.comp ∧ (Dev.noteFailure code mid write a len d).ports = d.ports ∧ (Dev.noteFailure code mid write a len d).chans = d.chans ∧ (Dev.noteFailure code mid write a len d).timers = d.timers ∧ (Dev.noteFailure code mid write a len d).mrv = d.mrv ∧ (Dev.noteFailure code mid write a len d).engines = d.engines ∧ (Dev.noteFailure code mid write a len d).regions = d.regions ∧ (Dev.noteFailure code mid write a len d).svc = d.svc ∧ (Dev.noteFailure code mid write a len d).tb = d.tb ∧ (Dev.noteFailure code mid write a len d).clk = d.clk ∧ (Dev.noteFailure code mid write a len d).rst = d.rst ∧ (Dev.noteFailure code mid write a len d).hif = d.hif ∧ (Dev.noteFailure code mid write a len d).pins = d.pins := by
  simp [Dev.noteFailure]

@[simp] theorem Dev.lateWrites_frame (mid : Nat) (l : List (Nat × List Byte)) (d : Dev) :
    (Dev.lateWrites mid l d).now = d.now ∧ (Dev.lateWrites mid l d).regs = d.regs ∧ (Dev.lateWrites mid l d).luts = d.luts ∧ (Dev.lateWrites mid l d).scene = d.scene ∧ (Dev.lateWrites mid l d).ledger = d.ledger ∧ (Dev.lateWrites mid l d).queues = d.queues ∧ (Dev.lateWrites mid l d).turn = d.turn ∧ (Dev.lateWrites mid l d).lastTurn = d.lastTurn ∧ (Dev.lateWrites mid l d).rings = d.rings ∧ (Dev.lateWrites mid l d).canvases = d.canvases ∧ (Dev.lateWrites mid l d).comp = d.comp ∧ (Dev.lateWrites mid l d).ports = d.ports ∧ (Dev.lateWrites mid l d).chans = d.chans ∧ (Dev.lateWrites mid l d).timers = d.timers ∧ (Dev.lateWrites mid l d).mrv = d.mrv ∧ (Dev.lateWrites mid l d).engines = d.engines ∧ (Dev.lateWrites mid l d).regions = d.regions ∧ (Dev.lateWrites mid l d).acc = d.acc ∧ (Dev.lateWrites mid l d).flt = d.flt ∧ (Dev.lateWrites mid l d).svc = d.svc ∧ (Dev.lateWrites mid l d).tb = d.tb ∧ (Dev.lateWrites mid l d).clk = d.clk ∧ (Dev.lateWrites mid l d).rst = d.rst ∧ (Dev.lateWrites mid l d).pins = d.pins := by
  induction l generalizing d with
  | nil => simp [Dev.lateWrites]
  | cons e l ih => obtain ⟨a, bs⟩ := e; unfold Dev.lateWrites; (repeat' split) <;> simp [ih]

@[simp] theorem Dev.lateAccess_frame (k : Nat) (r : Resp) (d : Dev) :
    (Dev.lateAccess k r d).now = d.now ∧ (Dev.lateAccess k r d).regs = d.regs ∧ (Dev.lateAccess k r d).luts = d.luts ∧ (Dev.lateAccess k r d).scene = d.scene ∧ (Dev.lateAccess k r d).ledger = d.ledger ∧ (Dev.lateAccess k r d).queues = d.queues ∧ (Dev.lateAccess k r d).turn = d.turn ∧ (Dev.lateAccess k r d).lastTurn = d.lastTurn ∧ (Dev.lateAccess k r d).rings = d.rings ∧ (Dev.lateAccess k r d).canvases = d.canvases ∧ (Dev.lateAccess k r d).comp = d.comp ∧ (Dev.lateAccess k r d).ports = d.ports ∧ (Dev.lateAccess k r d).chans = d.chans ∧ (Dev.lateAccess k r d).timers = d.timers ∧ (Dev.lateAccess k r d).mrv = d.mrv ∧ (Dev.lateAccess k r d).engines = d.engines ∧ (Dev.lateAccess k r d).regions = d.regions ∧ (Dev.lateAccess k r d).acc = d.acc ∧ (Dev.lateAccess k r d).svc = d.svc ∧ (Dev.lateAccess k r d).tb = d.tb ∧ (Dev.lateAccess k r d).clk = d.clk ∧ (Dev.lateAccess k r d).rst = d.rst ∧ (Dev.lateAccess k r d).pins = d.pins := by
  unfold Dev.lateAccess; (repeat' split) <;> simp

@[simp] theorem Dev.startScan_frame (e : Nat) (q : ScanReq) (d : Dev) :
    (Dev.startScan e q d).now = d.now ∧ (Dev.startScan e q d).regs = d.regs ∧ (Dev.startScan e q d).luts = d.luts ∧ (Dev.startScan e q d).mem = d.mem ∧ (Dev.startScan e q d).scene = d.scene ∧ (Dev.startScan e q d).ledger = d.ledger ∧ (Dev.startScan e q d).queues = d.queues ∧ (Dev.startScan e q d).turn = d.turn ∧ (Dev.startScan e q d).lastTurn = d.lastTurn ∧ (Dev.startScan e q d).rings = d.rings ∧ (Dev.startScan e q d).canvases = d.canvases ∧ (Dev.startScan e q d).comp = d.comp ∧ (Dev.startScan e q d).ports = d.ports ∧ (Dev.startScan e q d).chans = d.chans ∧ (Dev.startScan e q d).timers = d.timers ∧ (Dev.startScan e q d).mrv = d.mrv ∧ (Dev.startScan e q d).regions = d.regions ∧ (Dev.startScan e q d).mct = d.mct ∧ (Dev.startScan e q d).cru = d.cru ∧ (Dev.startScan e q d).acc = d.acc ∧ (Dev.startScan e q d).flt = d.flt ∧ (Dev.startScan e q d).svc = d.svc ∧ (Dev.startScan e q d).tb = d.tb ∧ (Dev.startScan e q d).clk = d.clk ∧ (Dev.startScan e q d).rst = d.rst ∧ (Dev.startScan e q d).hif = d.hif ∧ (Dev.startScan e q d).pins = d.pins := by
  simp [Dev.startScan]

@[simp] theorem Dev.cvuKick_frame (e : Nat) (mid : Nat) (d : Dev) :
    (Dev.cvuKick e mid d).now = d.now ∧ (Dev.cvuKick e mid d).regs = d.regs ∧ (Dev.cvuKick e mid d).luts = d.luts ∧ (Dev.cvuKick e mid d).mem = d.mem ∧ (Dev.cvuKick e mid d).scene = d.scene ∧ (Dev.cvuKick e mid d).ledger = d.ledger ∧ (Dev.cvuKick e mid d).queues = d.queues ∧ (Dev.cvuKick e mid d).turn = d.turn ∧ (Dev.cvuKick e mid d).lastTurn = d.lastTurn ∧ (Dev.cvuKick e mid d).rings = d.rings ∧ (Dev.cvuKick e mid d).canvases = d.canvases ∧ (Dev.cvuKick e mid d).comp = d.comp ∧ (Dev.cvuKick e mid d).ports = d.ports ∧ (Dev.cvuKick e mid d).chans = d.chans ∧ (Dev.cvuKick e mid d).timers = d.timers ∧ (Dev.cvuKick e mid d).mrv = d.mrv ∧ (Dev.cvuKick e mid d).regions = d.regions ∧ (Dev.cvuKick e mid d).mct = d.mct ∧ (Dev.cvuKick e mid d).cru = d.cru ∧ (Dev.cvuKick e mid d).acc = d.acc ∧ (Dev.cvuKick e mid d).flt = d.flt ∧ (Dev.cvuKick e mid d).svc = d.svc ∧ (Dev.cvuKick e mid d).tb = d.tb ∧ (Dev.cvuKick e mid d).clk = d.clk ∧ (Dev.cvuKick e mid d).rst = d.rst ∧ (Dev.cvuKick e mid d).hif = d.hif ∧ (Dev.cvuKick e mid d).pins = d.pins := by
  simp [Dev.cvuKick]

@[simp] theorem Dev.pulseEngines_frame (ch : Nat) (d : Dev) :
    (Dev.pulseEngines ch d).now = d.now ∧ (Dev.pulseEngines ch d).regs = d.regs ∧ (Dev.pulseEngines ch d).luts = d.luts ∧ (Dev.pulseEngines ch d).mem = d.mem ∧ (Dev.pulseEngines ch d).scene = d.scene ∧ (Dev.pulseEngines ch d).ledger = d.ledger ∧ (Dev.pulseEngines ch d).queues = d.queues ∧ (Dev.pulseEngines ch d).turn = d.turn ∧ (Dev.pulseEngines ch d).lastTurn = d.lastTurn ∧ (Dev.pulseEngines ch d).rings = d.rings ∧ (Dev.pulseEngines ch d).canvases = d.canvases ∧ (Dev.pulseEngines ch d).comp = d.comp ∧ (Dev.pulseEngines ch d).ports = d.ports ∧ (Dev.pulseEngines ch d).chans = d.chans ∧ (Dev.pulseEngines ch d).timers = d.timers ∧ (Dev.pulseEngines ch d).mrv = d.mrv ∧ (Dev.pulseEngines ch d).regions = d.regions ∧ (Dev.pulseEngines ch d).mct = d.mct ∧ (Dev.pulseEngines ch d).cru = d.cru ∧ (Dev.pulseEngines ch d).acc = d.acc ∧ (Dev.pulseEngines ch d).flt = d.flt ∧ (Dev.pulseEngines ch d).svc = d.svc ∧ (Dev.pulseEngines ch d).tb = d.tb ∧ (Dev.pulseEngines ch d).clk = d.clk ∧ (Dev.pulseEngines ch d).rst = d.rst ∧ (Dev.pulseEngines ch d).hif = d.hif ∧ (Dev.pulseEngines ch d).pins = d.pins := by
  simp [Dev.pulseEngines]

@[simp] theorem Dev.nextScan_frame (e n : Nat) (d : Dev) :
    (Dev.nextScan e n d).now = d.now ∧ (Dev.nextScan e n d).regs = d.regs ∧ (Dev.nextScan e n d).luts = d.luts ∧ (Dev.nextScan e n d).scene = d.scene ∧ (Dev.nextScan e n d).ledger = d.ledger ∧ (Dev.nextScan e n d).turn = d.turn ∧ (Dev.nextScan e n d).lastTurn = d.lastTurn ∧ (Dev.nextScan e n d).canvases = d.canvases ∧ (Dev.nextScan e n d).comp = d.comp ∧ (Dev.nextScan e n d).ports = d.ports ∧ (Dev.nextScan e n d).chans = d.chans ∧ (Dev.nextScan e n d).timers = d.timers ∧ (Dev.nextScan e n d).mrv = d.mrv ∧ (Dev.nextScan e n d).regions = d.regions ∧ (Dev.nextScan e n d).svc = d.svc ∧ (Dev.nextScan e n d).tb = d.tb ∧ (Dev.nextScan e n d).clk = d.clk ∧ (Dev.nextScan e n d).rst = d.rst ∧ (Dev.nextScan e n d).pins = d.pins := by
  induction n generalizing d with
  | zero => simp [Dev.nextScan]
  | succ n ih => unfold Dev.nextScan; dsimp only; (repeat' split) <;> simp [ih]

@[simp] theorem Dev.engineIdle_frame (e : Nat) (d : Dev) :
    (Dev.engineIdle e d).now = d.now ∧ (Dev.engineIdle e d).regs = d.regs ∧ (Dev.engineIdle e d).luts = d.luts ∧ (Dev.engineIdle e d).scene = d.scene ∧ (Dev.engineIdle e d).ledger = d.ledger ∧ (Dev.engineIdle e d).turn = d.turn ∧ (Dev.engineIdle e d).lastTurn = d.lastTurn ∧ (Dev.engineIdle e d).canvases = d.canvases ∧ (Dev.engineIdle e d).comp = d.comp ∧ (Dev.engineIdle e d).ports = d.ports ∧ (Dev.engineIdle e d).chans = d.chans ∧ (Dev.engineIdle e d).timers = d.timers ∧ (Dev.engineIdle e d).mrv = d.mrv ∧ (Dev.engineIdle e d).regions = d.regions ∧ (Dev.engineIdle e d).svc = d.svc ∧ (Dev.engineIdle e d).tb = d.tb ∧ (Dev.engineIdle e d).clk = d.clk ∧ (Dev.engineIdle e d).rst = d.rst ∧ (Dev.engineIdle e d).pins = d.pins := by
  simp [Dev.engineIdle]

@[simp] theorem Dev.refuseScans_frame (e : Nat) (d : Dev) :
    (Dev.refuseScans e d).now = d.now ∧ (Dev.refuseScans e d).regs = d.regs ∧ (Dev.refuseScans e d).luts = d.luts ∧ (Dev.refuseScans e d).scene = d.scene ∧ (Dev.refuseScans e d).ledger = d.ledger ∧ (Dev.refuseScans e d).turn = d.turn ∧ (Dev.refuseScans e d).lastTurn = d.lastTurn ∧ (Dev.refuseScans e d).canvases = d.canvases ∧ (Dev.refuseScans e d).comp = d.comp ∧ (Dev.refuseScans e d).ports = d.ports ∧ (Dev.refuseScans e d).chans = d.chans ∧ (Dev.refuseScans e d).timers = d.timers ∧ (Dev.refuseScans e d).mrv = d.mrv ∧ (Dev.refuseScans e d).engines = d.engines ∧ (Dev.refuseScans e d).regions = d.regions ∧ (Dev.refuseScans e d).svc = d.svc ∧ (Dev.refuseScans e d).tb = d.tb ∧ (Dev.refuseScans e d).clk = d.clk ∧ (Dev.refuseScans e d).rst = d.rst ∧ (Dev.refuseScans e d).pins = d.pins := by
  simp [Dev.refuseScans]

@[simp] theorem Dev.beginScan_frame (q : Nat) (d : Dev) :
    (Dev.beginScan q d).now = d.now ∧ (Dev.beginScan q d).regs = d.regs ∧ (Dev.beginScan q d).luts = d.luts ∧ (Dev.beginScan q d).ledger = d.ledger ∧ (Dev.beginScan q d).canvases = d.canvases ∧ (Dev.beginScan q d).comp = d.comp ∧ (Dev.beginScan q d).ports = d.ports ∧ (Dev.beginScan q d).chans = d.chans ∧ (Dev.beginScan q d).timers = d.timers ∧ (Dev.beginScan q d).mrv = d.mrv ∧ (Dev.beginScan q d).regions = d.regions ∧ (Dev.beginScan q d).svc = d.svc ∧ (Dev.beginScan q d).tb = d.tb ∧ (Dev.beginScan q d).clk = d.clk ∧ (Dev.beginScan q d).rst = d.rst ∧ (Dev.beginScan q d).pins = d.pins := by
  unfold Dev.beginScan; try dsimp only
  (repeat' split) <;> simp

@[simp] theorem Dev.endScan_frame (e : Nat) (code : Nat) (st : VState) (d : Dev) :
    (Dev.endScan e code st d).now = d.now ∧ (Dev.endScan e code st d).luts = d.luts ∧ (Dev.endScan e code st d).scene = d.scene ∧ (Dev.endScan e code st d).ledger = d.ledger ∧ (Dev.endScan e code st d).turn = d.turn ∧ (Dev.endScan e code st d).lastTurn = d.lastTurn ∧ (Dev.endScan e code st d).rings = d.rings ∧ (Dev.endScan e code st d).canvases = d.canvases ∧ (Dev.endScan e code st d).comp = d.comp ∧ (Dev.endScan e code st d).ports = d.ports ∧ (Dev.endScan e code st d).chans = d.chans ∧ (Dev.endScan e code st d).timers = d.timers ∧ (Dev.endScan e code st d).mrv = d.mrv ∧ (Dev.endScan e code st d).regions = d.regions ∧ (Dev.endScan e code st d).svc = d.svc ∧ (Dev.endScan e code st d).tb = d.tb ∧ (Dev.endScan e code st d).clk = d.clk ∧ (Dev.endScan e code st d).rst = d.rst ∧ (Dev.endScan e code st d).pins = d.pins := by
  unfold Dev.endScan; try dsimp only
  (repeat' split) <;> simp

@[simp] theorem Dev.scanFails_frame (e : Nat) (code : Nat) (d : Dev) :
    (Dev.scanFails e code d).now = d.now ∧ (Dev.scanFails e code d).luts = d.luts ∧ (Dev.scanFails e code d).scene = d.scene ∧ (Dev.scanFails e code d).ledger = d.ledger ∧ (Dev.scanFails e code d).turn = d.turn ∧ (Dev.scanFails e code d).lastTurn = d.lastTurn ∧ (Dev.scanFails e code d).canvases = d.canvases ∧ (Dev.scanFails e code d).comp = d.comp ∧ (Dev.scanFails e code d).ports = d.ports ∧ (Dev.scanFails e code d).chans = d.chans ∧ (Dev.scanFails e code d).timers = d.timers ∧ (Dev.scanFails e code d).mrv = d.mrv ∧ (Dev.scanFails e code d).regions = d.regions ∧ (Dev.scanFails e code d).svc = d.svc ∧ (Dev.scanFails e code d).tb = d.tb ∧ (Dev.scanFails e code d).clk = d.clk ∧ (Dev.scanFails e code d).rst = d.rst ∧ (Dev.scanFails e code d).pins = d.pins := by
  simp [Dev.scanFails]

@[simp] theorem Dev.scanEnds_frame (e : Nat) (d : Dev) :
    (Dev.scanEnds e d).now = d.now ∧ (Dev.scanEnds e d).luts = d.luts ∧ (Dev.scanEnds e d).scene = d.scene ∧ (Dev.scanEnds e d).ledger = d.ledger ∧ (Dev.scanEnds e d).turn = d.turn ∧ (Dev.scanEnds e d).lastTurn = d.lastTurn ∧ (Dev.scanEnds e d).canvases = d.canvases ∧ (Dev.scanEnds e d).comp = d.comp ∧ (Dev.scanEnds e d).ports = d.ports ∧ (Dev.scanEnds e d).chans = d.chans ∧ (Dev.scanEnds e d).timers = d.timers ∧ (Dev.scanEnds e d).mrv = d.mrv ∧ (Dev.scanEnds e d).regions = d.regions ∧ (Dev.scanEnds e d).svc = d.svc ∧ (Dev.scanEnds e d).tb = d.tb ∧ (Dev.scanEnds e d).clk = d.clk ∧ (Dev.scanEnds e d).rst = d.rst ∧ (Dev.scanEnds e d).pins = d.pins := by
  simp [Dev.scanEnds]

@[simp] theorem Dev.stopScan_frame (e : Nat) (d : Dev) :
    (Dev.stopScan e d).now = d.now ∧ (Dev.stopScan e d).luts = d.luts ∧ (Dev.stopScan e d).scene = d.scene ∧ (Dev.stopScan e d).ledger = d.ledger ∧ (Dev.stopScan e d).turn = d.turn ∧ (Dev.stopScan e d).lastTurn = d.lastTurn ∧ (Dev.stopScan e d).canvases = d.canvases ∧ (Dev.stopScan e d).comp = d.comp ∧ (Dev.stopScan e d).ports = d.ports ∧ (Dev.stopScan e d).chans = d.chans ∧ (Dev.stopScan e d).timers = d.timers ∧ (Dev.stopScan e d).mrv = d.mrv ∧ (Dev.stopScan e d).regions = d.regions ∧ (Dev.stopScan e d).svc = d.svc ∧ (Dev.stopScan e d).tb = d.tb ∧ (Dev.stopScan e d).clk = d.clk ∧ (Dev.stopScan e d).rst = d.rst ∧ (Dev.stopScan e d).pins = d.pins := by
  simp [Dev.stopScan]

@[simp] theorem Dev.drainEngine_frame (e : Nat) (d : Dev) :
    (Dev.drainEngine e d).now = d.now ∧ (Dev.drainEngine e d).regs = d.regs ∧ (Dev.drainEngine e d).luts = d.luts ∧ (Dev.drainEngine e d).scene = d.scene ∧ (Dev.drainEngine e d).ledger = d.ledger ∧ (Dev.drainEngine e d).turn = d.turn ∧ (Dev.drainEngine e d).lastTurn = d.lastTurn ∧ (Dev.drainEngine e d).canvases = d.canvases ∧ (Dev.drainEngine e d).comp = d.comp ∧ (Dev.drainEngine e d).ports = d.ports ∧ (Dev.drainEngine e d).chans = d.chans ∧ (Dev.drainEngine e d).timers = d.timers ∧ (Dev.drainEngine e d).mrv = d.mrv ∧ (Dev.drainEngine e d).regions = d.regions ∧ (Dev.drainEngine e d).svc = d.svc ∧ (Dev.drainEngine e d).tb = d.tb ∧ (Dev.drainEngine e d).clk = d.clk ∧ (Dev.drainEngine e d).rst = d.rst ∧ (Dev.drainEngine e d).pins = d.pins := by
  simp [Dev.drainEngine]

@[simp] theorem Dev.writeEngineEn_frame (e : Nat) (b : Bool) (d : Dev) :
    (Dev.writeEngineEn e b d).now = d.now ∧ (Dev.writeEngineEn e b d).regs = d.regs ∧ (Dev.writeEngineEn e b d).luts = d.luts ∧ (Dev.writeEngineEn e b d).scene = d.scene ∧ (Dev.writeEngineEn e b d).ledger = d.ledger ∧ (Dev.writeEngineEn e b d).turn = d.turn ∧ (Dev.writeEngineEn e b d).lastTurn = d.lastTurn ∧ (Dev.writeEngineEn e b d).canvases = d.canvases ∧ (Dev.writeEngineEn e b d).comp = d.comp ∧ (Dev.writeEngineEn e b d).ports = d.ports ∧ (Dev.writeEngineEn e b d).chans = d.chans ∧ (Dev.writeEngineEn e b d).timers = d.timers ∧ (Dev.writeEngineEn e b d).mrv = d.mrv ∧ (Dev.writeEngineEn e b d).regions = d.regions ∧ (Dev.writeEngineEn e b d).svc = d.svc ∧ (Dev.writeEngineEn e b d).tb = d.tb ∧ (Dev.writeEngineEn e b d).clk = d.clk ∧ (Dev.writeEngineEn e b d).rst = d.rst ∧ (Dev.writeEngineEn e b d).pins = d.pins := by
  unfold Dev.writeEngineEn; try dsimp only
  (repeat' split) <;> simp

@[simp] theorem Dev.engineDrained_frame (e : Nat) (d : Dev) :
    (Dev.engineDrained e d).now = d.now ∧ (Dev.engineDrained e d).luts = d.luts ∧ (Dev.engineDrained e d).scene = d.scene ∧ (Dev.engineDrained e d).ledger = d.ledger ∧ (Dev.engineDrained e d).turn = d.turn ∧ (Dev.engineDrained e d).lastTurn = d.lastTurn ∧ (Dev.engineDrained e d).canvases = d.canvases ∧ (Dev.engineDrained e d).comp = d.comp ∧ (Dev.engineDrained e d).ports = d.ports ∧ (Dev.engineDrained e d).chans = d.chans ∧ (Dev.engineDrained e d).timers = d.timers ∧ (Dev.engineDrained e d).mrv = d.mrv ∧ (Dev.engineDrained e d).regions = d.regions ∧ (Dev.engineDrained e d).svc = d.svc ∧ (Dev.engineDrained e d).tb = d.tb ∧ (Dev.engineDrained e d).clk = d.clk ∧ (Dev.engineDrained e d).rst = d.rst ∧ (Dev.engineDrained e d).pins = d.pins := by
  simp [Dev.engineDrained]

@[simp] theorem Dev.releaseEngine_frame (e : Nat) (d : Dev) :
    (Dev.releaseEngine e d).now = d.now ∧ (Dev.releaseEngine e d).regs = d.regs ∧ (Dev.releaseEngine e d).luts = d.luts ∧ (Dev.releaseEngine e d).mem = d.mem ∧ (Dev.releaseEngine e d).scene = d.scene ∧ (Dev.releaseEngine e d).ledger = d.ledger ∧ (Dev.releaseEngine e d).queues = d.queues ∧ (Dev.releaseEngine e d).turn = d.turn ∧ (Dev.releaseEngine e d).lastTurn = d.lastTurn ∧ (Dev.releaseEngine e d).rings = d.rings ∧ (Dev.releaseEngine e d).canvases = d.canvases ∧ (Dev.releaseEngine e d).comp = d.comp ∧ (Dev.releaseEngine e d).ports = d.ports ∧ (Dev.releaseEngine e d).chans = d.chans ∧ (Dev.releaseEngine e d).timers = d.timers ∧ (Dev.releaseEngine e d).mrv = d.mrv ∧ (Dev.releaseEngine e d).regions = d.regions ∧ (Dev.releaseEngine e d).mct = d.mct ∧ (Dev.releaseEngine e d).cru = d.cru ∧ (Dev.releaseEngine e d).acc = d.acc ∧ (Dev.releaseEngine e d).flt = d.flt ∧ (Dev.releaseEngine e d).svc = d.svc ∧ (Dev.releaseEngine e d).tb = d.tb ∧ (Dev.releaseEngine e d).clk = d.clk ∧ (Dev.releaseEngine e d).rst = d.rst ∧ (Dev.releaseEngine e d).hif = d.hif ∧ (Dev.releaseEngine e d).pins = d.pins := by
  simp [Dev.releaseEngine]

@[simp] theorem Dev.writeVal_frame (e : Nat) (hi : Bool) (w : Word) (d : Dev) :
    (Dev.writeVal e hi w d).now = d.now ∧ (Dev.writeVal e hi w d).regs = d.regs ∧ (Dev.writeVal e hi w d).luts = d.luts ∧ (Dev.writeVal e hi w d).mem = d.mem ∧ (Dev.writeVal e hi w d).scene = d.scene ∧ (Dev.writeVal e hi w d).ledger = d.ledger ∧ (Dev.writeVal e hi w d).queues = d.queues ∧ (Dev.writeVal e hi w d).turn = d.turn ∧ (Dev.writeVal e hi w d).lastTurn = d.lastTurn ∧ (Dev.writeVal e hi w d).rings = d.rings ∧ (Dev.writeVal e hi w d).canvases = d.canvases ∧ (Dev.writeVal e hi w d).comp = d.comp ∧ (Dev.writeVal e hi w d).ports = d.ports ∧ (Dev.writeVal e hi w d).chans = d.chans ∧ (Dev.writeVal e hi w d).timers = d.timers ∧ (Dev.writeVal e hi w d).mrv = d.mrv ∧ (Dev.writeVal e hi w d).regions = d.regions ∧ (Dev.writeVal e hi w d).mct = d.mct ∧ (Dev.writeVal e hi w d).cru = d.cru ∧ (Dev.writeVal e hi w d).acc = d.acc ∧ (Dev.writeVal e hi w d).flt = d.flt ∧ (Dev.writeVal e hi w d).svc = d.svc ∧ (Dev.writeVal e hi w d).tb = d.tb ∧ (Dev.writeVal e hi w d).clk = d.clk ∧ (Dev.writeVal e hi w d).rst = d.rst ∧ (Dev.writeVal e hi w d).hif = d.hif ∧ (Dev.writeVal e hi w d).pins = d.pins := by
  simp [Dev.writeVal]

@[simp] theorem Dev.takeChan_frame (ch : Nat) (d : Dev) :
    (Dev.takeChan ch d).now = d.now ∧ (Dev.takeChan ch d).luts = d.luts ∧ (Dev.takeChan ch d).mem = d.mem ∧ (Dev.takeChan ch d).scene = d.scene ∧ (Dev.takeChan ch d).ledger = d.ledger ∧ (Dev.takeChan ch d).queues = d.queues ∧ (Dev.takeChan ch d).turn = d.turn ∧ (Dev.takeChan ch d).lastTurn = d.lastTurn ∧ (Dev.takeChan ch d).rings = d.rings ∧ (Dev.takeChan ch d).canvases = d.canvases ∧ (Dev.takeChan ch d).comp = d.comp ∧ (Dev.takeChan ch d).ports = d.ports ∧ (Dev.takeChan ch d).chans = d.chans ∧ (Dev.takeChan ch d).timers = d.timers ∧ (Dev.takeChan ch d).mrv = d.mrv ∧ (Dev.takeChan ch d).engines = d.engines ∧ (Dev.takeChan ch d).regions = d.regions ∧ (Dev.takeChan ch d).mct = d.mct ∧ (Dev.takeChan ch d).cru = d.cru ∧ (Dev.takeChan ch d).acc = d.acc ∧ (Dev.takeChan ch d).flt = d.flt ∧ (Dev.takeChan ch d).svc = d.svc ∧ (Dev.takeChan ch d).tb = d.tb ∧ (Dev.takeChan ch d).clk = d.clk ∧ (Dev.takeChan ch d).rst = d.rst ∧ (Dev.takeChan ch d).hif = d.hif ∧ (Dev.takeChan ch d).pins = d.pins := by
  simp [Dev.takeChan]

@[simp] theorem Dev.startJob_frame (ch : Nat) (k : DmaStart) (d : Dev) :
    (Dev.startJob ch k d).now = d.now ∧ (Dev.startJob ch k d).luts = d.luts ∧ (Dev.startJob ch k d).mem = d.mem ∧ (Dev.startJob ch k d).scene = d.scene ∧ (Dev.startJob ch k d).ledger = d.ledger ∧ (Dev.startJob ch k d).queues = d.queues ∧ (Dev.startJob ch k d).turn = d.turn ∧ (Dev.startJob ch k d).lastTurn = d.lastTurn ∧ (Dev.startJob ch k d).rings = d.rings ∧ (Dev.startJob ch k d).canvases = d.canvases ∧ (Dev.startJob ch k d).comp = d.comp ∧ (Dev.startJob ch k d).ports = d.ports ∧ (Dev.startJob ch k d).timers = d.timers ∧ (Dev.startJob ch k d).mrv = d.mrv ∧ (Dev.startJob ch k d).engines = d.engines ∧ (Dev.startJob ch k d).regions = d.regions ∧ (Dev.startJob ch k d).mct = d.mct ∧ (Dev.startJob ch k d).cru = d.cru ∧ (Dev.startJob ch k d).acc = d.acc ∧ (Dev.startJob ch k d).flt = d.flt ∧ (Dev.startJob ch k d).svc = d.svc ∧ (Dev.startJob ch k d).tb = d.tb ∧ (Dev.startJob ch k d).clk = d.clk ∧ (Dev.startJob ch k d).rst = d.rst ∧ (Dev.startJob ch k d).hif = d.hif ∧ (Dev.startJob ch k d).pins = d.pins := by
  simp [Dev.startJob]

@[simp] theorem Dev.askStart_frame (ch : Nat) (k : DmaStart) (d : Dev) :
    (Dev.askStart ch k d).now = d.now ∧ (Dev.askStart ch k d).luts = d.luts ∧ (Dev.askStart ch k d).mem = d.mem ∧ (Dev.askStart ch k d).scene = d.scene ∧ (Dev.askStart ch k d).ledger = d.ledger ∧ (Dev.askStart ch k d).queues = d.queues ∧ (Dev.askStart ch k d).turn = d.turn ∧ (Dev.askStart ch k d).lastTurn = d.lastTurn ∧ (Dev.askStart ch k d).rings = d.rings ∧ (Dev.askStart ch k d).canvases = d.canvases ∧ (Dev.askStart ch k d).comp = d.comp ∧ (Dev.askStart ch k d).ports = d.ports ∧ (Dev.askStart ch k d).timers = d.timers ∧ (Dev.askStart ch k d).mrv = d.mrv ∧ (Dev.askStart ch k d).engines = d.engines ∧ (Dev.askStart ch k d).regions = d.regions ∧ (Dev.askStart ch k d).mct = d.mct ∧ (Dev.askStart ch k d).cru = d.cru ∧ (Dev.askStart ch k d).acc = d.acc ∧ (Dev.askStart ch k d).flt = d.flt ∧ (Dev.askStart ch k d).svc = d.svc ∧ (Dev.askStart ch k d).tb = d.tb ∧ (Dev.askStart ch k d).clk = d.clk ∧ (Dev.askStart ch k d).rst = d.rst ∧ (Dev.askStart ch k d).hif = d.hif ∧ (Dev.askStart ch k d).pins = d.pins := by
  unfold Dev.askStart; try dsimp only
  (repeat' split) <;> simp

@[simp] theorem Dev.triggerChans_frame (trig : Nat) (i : Nat) (d : Dev) :
    (Dev.triggerChans trig i d).now = d.now ∧ (Dev.triggerChans trig i d).luts = d.luts ∧ (Dev.triggerChans trig i d).mem = d.mem ∧ (Dev.triggerChans trig i d).scene = d.scene ∧ (Dev.triggerChans trig i d).ledger = d.ledger ∧ (Dev.triggerChans trig i d).queues = d.queues ∧ (Dev.triggerChans trig i d).turn = d.turn ∧ (Dev.triggerChans trig i d).lastTurn = d.lastTurn ∧ (Dev.triggerChans trig i d).rings = d.rings ∧ (Dev.triggerChans trig i d).canvases = d.canvases ∧ (Dev.triggerChans trig i d).comp = d.comp ∧ (Dev.triggerChans trig i d).ports = d.ports ∧ (Dev.triggerChans trig i d).timers = d.timers ∧ (Dev.triggerChans trig i d).mrv = d.mrv ∧ (Dev.triggerChans trig i d).engines = d.engines ∧ (Dev.triggerChans trig i d).regions = d.regions ∧ (Dev.triggerChans trig i d).mct = d.mct ∧ (Dev.triggerChans trig i d).cru = d.cru ∧ (Dev.triggerChans trig i d).acc = d.acc ∧ (Dev.triggerChans trig i d).flt = d.flt ∧ (Dev.triggerChans trig i d).svc = d.svc ∧ (Dev.triggerChans trig i d).tb = d.tb ∧ (Dev.triggerChans trig i d).clk = d.clk ∧ (Dev.triggerChans trig i d).rst = d.rst ∧ (Dev.triggerChans trig i d).hif = d.hif ∧ (Dev.triggerChans trig i d).pins = d.pins := by
  simp [Dev.triggerChans]

@[simp] theorem Dev.chanIdle_frame (ch : Nat) (d : Dev) :
    (Dev.chanIdle ch d).now = d.now ∧ (Dev.chanIdle ch d).luts = d.luts ∧ (Dev.chanIdle ch d).scene = d.scene ∧ (Dev.chanIdle ch d).ledger = d.ledger ∧ (Dev.chanIdle ch d).turn = d.turn ∧ (Dev.chanIdle ch d).lastTurn = d.lastTurn ∧ (Dev.chanIdle ch d).rings = d.rings ∧ (Dev.chanIdle ch d).canvases = d.canvases ∧ (Dev.chanIdle ch d).comp = d.comp ∧ (Dev.chanIdle ch d).ports = d.ports ∧ (Dev.chanIdle ch d).timers = d.timers ∧ (Dev.chanIdle ch d).mrv = d.mrv ∧ (Dev.chanIdle ch d).engines = d.engines ∧ (Dev.chanIdle ch d).regions = d.regions ∧ (Dev.chanIdle ch d).svc = d.svc ∧ (Dev.chanIdle ch d).tb = d.tb ∧ (Dev.chanIdle ch d).clk = d.clk ∧ (Dev.chanIdle ch d).rst = d.rst ∧ (Dev.chanIdle ch d).pins = d.pins := by
  unfold Dev.chanIdle; try dsimp only
  (repeat' split) <;> simp

@[simp] theorem Dev.refuseKicks_frame (ch : Nat) (d : Dev) :
    (Dev.refuseKicks ch d).now = d.now ∧ (Dev.refuseKicks ch d).regs = d.regs ∧ (Dev.refuseKicks ch d).luts = d.luts ∧ (Dev.refuseKicks ch d).scene = d.scene ∧ (Dev.refuseKicks ch d).ledger = d.ledger ∧ (Dev.refuseKicks ch d).turn = d.turn ∧ (Dev.refuseKicks ch d).lastTurn = d.lastTurn ∧ (Dev.refuseKicks ch d).canvases = d.canvases ∧ (Dev.refuseKicks ch d).comp = d.comp ∧ (Dev.refuseKicks ch d).ports = d.ports ∧ (Dev.refuseKicks ch d).chans = d.chans ∧ (Dev.refuseKicks ch d).timers = d.timers ∧ (Dev.refuseKicks ch d).mrv = d.mrv ∧ (Dev.refuseKicks ch d).engines = d.engines ∧ (Dev.refuseKicks ch d).regions = d.regions ∧ (Dev.refuseKicks ch d).svc = d.svc ∧ (Dev.refuseKicks ch d).tb = d.tb ∧ (Dev.refuseKicks ch d).clk = d.clk ∧ (Dev.refuseKicks ch d).rst = d.rst ∧ (Dev.refuseKicks ch d).pins = d.pins := by
  simp [Dev.refuseKicks]

@[simp] theorem Dev.beginKick_frame (q : Nat) (d : Dev) :
    (Dev.beginKick q d).now = d.now ∧ (Dev.beginKick q d).luts = d.luts ∧ (Dev.beginKick q d).ledger = d.ledger ∧ (Dev.beginKick q d).canvases = d.canvases ∧ (Dev.beginKick q d).comp = d.comp ∧ (Dev.beginKick q d).ports = d.ports ∧ (Dev.beginKick q d).timers = d.timers ∧ (Dev.beginKick q d).mrv = d.mrv ∧ (Dev.beginKick q d).engines = d.engines ∧ (Dev.beginKick q d).regions = d.regions ∧ (Dev.beginKick q d).svc = d.svc ∧ (Dev.beginKick q d).tb = d.tb ∧ (Dev.beginKick q d).clk = d.clk ∧ (Dev.beginKick q d).rst = d.rst ∧ (Dev.beginKick q d).pins = d.pins := by
  unfold Dev.beginKick; try dsimp only
  (repeat' split) <;> simp

@[simp] theorem Dev.report_frame (ch : Nat) (b : BitVec 3) (vec : Nat) (d : Dev) :
    (Dev.report ch b vec d).now = d.now ∧ (Dev.report ch b vec d).regs = d.regs ∧ (Dev.report ch b vec d).luts = d.luts ∧ (Dev.report ch b vec d).mem = d.mem ∧ (Dev.report ch b vec d).scene = d.scene ∧ (Dev.report ch b vec d).ledger = d.ledger ∧ (Dev.report ch b vec d).queues = d.queues ∧ (Dev.report ch b vec d).turn = d.turn ∧ (Dev.report ch b vec d).lastTurn = d.lastTurn ∧ (Dev.report ch b vec d).rings = d.rings ∧ (Dev.report ch b vec d).canvases = d.canvases ∧ (Dev.report ch b vec d).comp = d.comp ∧ (Dev.report ch b vec d).ports = d.ports ∧ (Dev.report ch b vec d).timers = d.timers ∧ (Dev.report ch b vec d).mrv = d.mrv ∧ (Dev.report ch b vec d).engines = d.engines ∧ (Dev.report ch b vec d).regions = d.regions ∧ (Dev.report ch b vec d).mct = d.mct ∧ (Dev.report ch b vec d).cru = d.cru ∧ (Dev.report ch b vec d).acc = d.acc ∧ (Dev.report ch b vec d).flt = d.flt ∧ (Dev.report ch b vec d).svc = d.svc ∧ (Dev.report ch b vec d).tb = d.tb ∧ (Dev.report ch b vec d).clk = d.clk ∧ (Dev.report ch b vec d).rst = d.rst ∧ (Dev.report ch b vec d).pins = d.pins := by
  simp [Dev.report]

@[simp] theorem Dev.endJob_frame (ch : Nat) (st : DState) (d : Dev) :
    (Dev.endJob ch st d).now = d.now ∧ (Dev.endJob ch st d).regs = d.regs ∧ (Dev.endJob ch st d).luts = d.luts ∧ (Dev.endJob ch st d).scene = d.scene ∧ (Dev.endJob ch st d).ledger = d.ledger ∧ (Dev.endJob ch st d).turn = d.turn ∧ (Dev.endJob ch st d).lastTurn = d.lastTurn ∧ (Dev.endJob ch st d).rings = d.rings ∧ (Dev.endJob ch st d).canvases = d.canvases ∧ (Dev.endJob ch st d).comp = d.comp ∧ (Dev.endJob ch st d).ports = d.ports ∧ (Dev.endJob ch st d).timers = d.timers ∧ (Dev.endJob ch st d).mrv = d.mrv ∧ (Dev.endJob ch st d).engines = d.engines ∧ (Dev.endJob ch st d).regions = d.regions ∧ (Dev.endJob ch st d).svc = d.svc ∧ (Dev.endJob ch st d).tb = d.tb ∧ (Dev.endJob ch st d).clk = d.clk ∧ (Dev.endJob ch st d).rst = d.rst ∧ (Dev.endJob ch st d).pins = d.pins := by
  unfold Dev.endJob; try dsimp only
  (repeat' split) <;> simp

@[simp] theorem Dev.afterJob_frame (ch : Nat) (d : Dev) :
    (Dev.afterJob ch d).now = d.now ∧ (Dev.afterJob ch d).luts = d.luts ∧ (Dev.afterJob ch d).scene = d.scene ∧ (Dev.afterJob ch d).ledger = d.ledger ∧ (Dev.afterJob ch d).turn = d.turn ∧ (Dev.afterJob ch d).lastTurn = d.lastTurn ∧ (Dev.afterJob ch d).rings = d.rings ∧ (Dev.afterJob ch d).canvases = d.canvases ∧ (Dev.afterJob ch d).comp = d.comp ∧ (Dev.afterJob ch d).ports = d.ports ∧ (Dev.afterJob ch d).timers = d.timers ∧ (Dev.afterJob ch d).mrv = d.mrv ∧ (Dev.afterJob ch d).engines = d.engines ∧ (Dev.afterJob ch d).regions = d.regions ∧ (Dev.afterJob ch d).svc = d.svc ∧ (Dev.afterJob ch d).tb = d.tb ∧ (Dev.afterJob ch d).clk = d.clk ∧ (Dev.afterJob ch d).rst = d.rst ∧ (Dev.afterJob ch d).pins = d.pins := by
  unfold Dev.afterJob; try dsimp only
  (repeat' split) <;> simp

@[simp] theorem Dev.restartTimers_frame (ch : Nat) (d : Dev) :
    (Dev.restartTimers ch d).now = d.now ∧ (Dev.restartTimers ch d).regs = d.regs ∧ (Dev.restartTimers ch d).luts = d.luts ∧ (Dev.restartTimers ch d).mem = d.mem ∧ (Dev.restartTimers ch d).scene = d.scene ∧ (Dev.restartTimers ch d).ledger = d.ledger ∧ (Dev.restartTimers ch d).queues = d.queues ∧ (Dev.restartTimers ch d).turn = d.turn ∧ (Dev.restartTimers ch d).lastTurn = d.lastTurn ∧ (Dev.restartTimers ch d).rings = d.rings ∧ (Dev.restartTimers ch d).canvases = d.canvases ∧ (Dev.restartTimers ch d).comp = d.comp ∧ (Dev.restartTimers ch d).ports = d.ports ∧ (Dev.restartTimers ch d).chans = d.chans ∧ (Dev.restartTimers ch d).mrv = d.mrv ∧ (Dev.restartTimers ch d).engines = d.engines ∧ (Dev.restartTimers ch d).regions = d.regions ∧ (Dev.restartTimers ch d).mct = d.mct ∧ (Dev.restartTimers ch d).cru = d.cru ∧ (Dev.restartTimers ch d).acc = d.acc ∧ (Dev.restartTimers ch d).flt = d.flt ∧ (Dev.restartTimers ch d).svc = d.svc ∧ (Dev.restartTimers ch d).tb = d.tb ∧ (Dev.restartTimers ch d).clk = d.clk ∧ (Dev.restartTimers ch d).rst = d.rst ∧ (Dev.restartTimers ch d).hif = d.hif ∧ (Dev.restartTimers ch d).pins = d.pins := by
  simp [Dev.restartTimers]

@[simp] theorem Dev.pulse_frame (ch : Nat) (d : Dev) :
    (Dev.pulse ch d).now = d.now ∧ (Dev.pulse ch d).luts = d.luts ∧ (Dev.pulse ch d).mem = d.mem ∧ (Dev.pulse ch d).scene = d.scene ∧ (Dev.pulse ch d).ledger = d.ledger ∧ (Dev.pulse ch d).queues = d.queues ∧ (Dev.pulse ch d).turn = d.turn ∧ (Dev.pulse ch d).lastTurn = d.lastTurn ∧ (Dev.pulse ch d).rings = d.rings ∧ (Dev.pulse ch d).canvases = d.canvases ∧ (Dev.pulse ch d).comp = d.comp ∧ (Dev.pulse ch d).ports = d.ports ∧ (Dev.pulse ch d).mrv = d.mrv ∧ (Dev.pulse ch d).regions = d.regions ∧ (Dev.pulse ch d).mct = d.mct ∧ (Dev.pulse ch d).cru = d.cru ∧ (Dev.pulse ch d).acc = d.acc ∧ (Dev.pulse ch d).flt = d.flt ∧ (Dev.pulse ch d).svc = d.svc ∧ (Dev.pulse ch d).tb = d.tb ∧ (Dev.pulse ch d).clk = d.clk ∧ (Dev.pulse ch d).rst = d.rst ∧ (Dev.pulse ch d).hif = d.hif ∧ (Dev.pulse ch d).pins = d.pins := by
  simp [Dev.pulse]

@[simp] theorem Dev.haltChan_frame (ch : Nat) (code : Nat) (a : Quad) (d : Dev) :
    (Dev.haltChan ch code a d).now = d.now ∧ (Dev.haltChan ch code a d).regs = d.regs ∧ (Dev.haltChan ch code a d).luts = d.luts ∧ (Dev.haltChan ch code a d).scene = d.scene ∧ (Dev.haltChan ch code a d).ledger = d.ledger ∧ (Dev.haltChan ch code a d).turn = d.turn ∧ (Dev.haltChan ch code a d).lastTurn = d.lastTurn ∧ (Dev.haltChan ch code a d).canvases = d.canvases ∧ (Dev.haltChan ch code a d).comp = d.comp ∧ (Dev.haltChan ch code a d).ports = d.ports ∧ (Dev.haltChan ch code a d).timers = d.timers ∧ (Dev.haltChan ch code a d).mrv = d.mrv ∧ (Dev.haltChan ch code a d).engines = d.engines ∧ (Dev.haltChan ch code a d).regions = d.regions ∧ (Dev.haltChan ch code a d).svc = d.svc ∧ (Dev.haltChan ch code a d).tb = d.tb ∧ (Dev.haltChan ch code a d).clk = d.clk ∧ (Dev.haltChan ch code a d).rst = d.rst ∧ (Dev.haltChan ch code a d).pins = d.pins := by
  simp [Dev.haltChan]

@[simp] theorem Dev.fenceChan_frame (ch : Nat) (d : Dev) :
    (Dev.fenceChan ch d).now = d.now ∧ (Dev.fenceChan ch d).regs = d.regs ∧ (Dev.fenceChan ch d).luts = d.luts ∧ (Dev.fenceChan ch d).scene = d.scene ∧ (Dev.fenceChan ch d).ledger = d.ledger ∧ (Dev.fenceChan ch d).turn = d.turn ∧ (Dev.fenceChan ch d).lastTurn = d.lastTurn ∧ (Dev.fenceChan ch d).canvases = d.canvases ∧ (Dev.fenceChan ch d).comp = d.comp ∧ (Dev.fenceChan ch d).ports = d.ports ∧ (Dev.fenceChan ch d).timers = d.timers ∧ (Dev.fenceChan ch d).mrv = d.mrv ∧ (Dev.fenceChan ch d).engines = d.engines ∧ (Dev.fenceChan ch d).regions = d.regions ∧ (Dev.fenceChan ch d).svc = d.svc ∧ (Dev.fenceChan ch d).tb = d.tb ∧ (Dev.fenceChan ch d).clk = d.clk ∧ (Dev.fenceChan ch d).rst = d.rst ∧ (Dev.fenceChan ch d).pins = d.pins := by
  simp [Dev.fenceChan]

@[simp] theorem Dev.drainChan_frame (ch : Nat) (d : Dev) :
    (Dev.drainChan ch d).now = d.now ∧ (Dev.drainChan ch d).regs = d.regs ∧ (Dev.drainChan ch d).luts = d.luts ∧ (Dev.drainChan ch d).scene = d.scene ∧ (Dev.drainChan ch d).ledger = d.ledger ∧ (Dev.drainChan ch d).turn = d.turn ∧ (Dev.drainChan ch d).lastTurn = d.lastTurn ∧ (Dev.drainChan ch d).canvases = d.canvases ∧ (Dev.drainChan ch d).comp = d.comp ∧ (Dev.drainChan ch d).ports = d.ports ∧ (Dev.drainChan ch d).timers = d.timers ∧ (Dev.drainChan ch d).mrv = d.mrv ∧ (Dev.drainChan ch d).engines = d.engines ∧ (Dev.drainChan ch d).regions = d.regions ∧ (Dev.drainChan ch d).svc = d.svc ∧ (Dev.drainChan ch d).tb = d.tb ∧ (Dev.drainChan ch d).clk = d.clk ∧ (Dev.drainChan ch d).rst = d.rst ∧ (Dev.drainChan ch d).pins = d.pins := by
  simp [Dev.drainChan]

@[simp] theorem Dev.writeChanEn_frame (ch : Nat) (b : Bool) (d : Dev) :
    (Dev.writeChanEn ch b d).now = d.now ∧ (Dev.writeChanEn ch b d).luts = d.luts ∧ (Dev.writeChanEn ch b d).scene = d.scene ∧ (Dev.writeChanEn ch b d).ledger = d.ledger ∧ (Dev.writeChanEn ch b d).turn = d.turn ∧ (Dev.writeChanEn ch b d).lastTurn = d.lastTurn ∧ (Dev.writeChanEn ch b d).canvases = d.canvases ∧ (Dev.writeChanEn ch b d).comp = d.comp ∧ (Dev.writeChanEn ch b d).ports = d.ports ∧ (Dev.writeChanEn ch b d).timers = d.timers ∧ (Dev.writeChanEn ch b d).mrv = d.mrv ∧ (Dev.writeChanEn ch b d).engines = d.engines ∧ (Dev.writeChanEn ch b d).regions = d.regions ∧ (Dev.writeChanEn ch b d).svc = d.svc ∧ (Dev.writeChanEn ch b d).tb = d.tb ∧ (Dev.writeChanEn ch b d).clk = d.clk ∧ (Dev.writeChanEn ch b d).rst = d.rst ∧ (Dev.writeChanEn ch b d).pins = d.pins := by
  unfold Dev.writeChanEn; try dsimp only
  (repeat' split) <;> simp

@[simp] theorem Dev.chanDrained_frame (ch : Nat) (d : Dev) :
    (Dev.chanDrained ch d).now = d.now ∧ (Dev.chanDrained ch d).luts = d.luts ∧ (Dev.chanDrained ch d).scene = d.scene ∧ (Dev.chanDrained ch d).ledger = d.ledger ∧ (Dev.chanDrained ch d).turn = d.turn ∧ (Dev.chanDrained ch d).lastTurn = d.lastTurn ∧ (Dev.chanDrained ch d).rings = d.rings ∧ (Dev.chanDrained ch d).canvases = d.canvases ∧ (Dev.chanDrained ch d).comp = d.comp ∧ (Dev.chanDrained ch d).ports = d.ports ∧ (Dev.chanDrained ch d).timers = d.timers ∧ (Dev.chanDrained ch d).mrv = d.mrv ∧ (Dev.chanDrained ch d).engines = d.engines ∧ (Dev.chanDrained ch d).regions = d.regions ∧ (Dev.chanDrained ch d).svc = d.svc ∧ (Dev.chanDrained ch d).tb = d.tb ∧ (Dev.chanDrained ch d).clk = d.clk ∧ (Dev.chanDrained ch d).rst = d.rst ∧ (Dev.chanDrained ch d).pins = d.pins := by
  simp [Dev.chanDrained]

@[simp] theorem Dev.releaseChan_frame (ch : Nat) (d : Dev) :
    (Dev.releaseChan ch d).now = d.now ∧ (Dev.releaseChan ch d).regs = d.regs ∧ (Dev.releaseChan ch d).luts = d.luts ∧ (Dev.releaseChan ch d).mem = d.mem ∧ (Dev.releaseChan ch d).scene = d.scene ∧ (Dev.releaseChan ch d).ledger = d.ledger ∧ (Dev.releaseChan ch d).queues = d.queues ∧ (Dev.releaseChan ch d).turn = d.turn ∧ (Dev.releaseChan ch d).lastTurn = d.lastTurn ∧ (Dev.releaseChan ch d).rings = d.rings ∧ (Dev.releaseChan ch d).canvases = d.canvases ∧ (Dev.releaseChan ch d).comp = d.comp ∧ (Dev.releaseChan ch d).ports = d.ports ∧ (Dev.releaseChan ch d).timers = d.timers ∧ (Dev.releaseChan ch d).mrv = d.mrv ∧ (Dev.releaseChan ch d).engines = d.engines ∧ (Dev.releaseChan ch d).regions = d.regions ∧ (Dev.releaseChan ch d).mct = d.mct ∧ (Dev.releaseChan ch d).cru = d.cru ∧ (Dev.releaseChan ch d).acc = d.acc ∧ (Dev.releaseChan ch d).flt = d.flt ∧ (Dev.releaseChan ch d).svc = d.svc ∧ (Dev.releaseChan ch d).tb = d.tb ∧ (Dev.releaseChan ch d).clk = d.clk ∧ (Dev.releaseChan ch d).rst = d.rst ∧ (Dev.releaseChan ch d).hif = d.hif ∧ (Dev.releaseChan ch d).pins = d.pins := by
  simp [Dev.releaseChan]

@[simp] theorem Dev.beginDesc_frame (ch : Nat) (k : Desc) (d : Dev) :
    (Dev.beginDesc ch k d).now = d.now ∧ (Dev.beginDesc ch k d).regs = d.regs ∧ (Dev.beginDesc ch k d).luts = d.luts ∧ (Dev.beginDesc ch k d).mem = d.mem ∧ (Dev.beginDesc ch k d).scene = d.scene ∧ (Dev.beginDesc ch k d).ledger = d.ledger ∧ (Dev.beginDesc ch k d).queues = d.queues ∧ (Dev.beginDesc ch k d).turn = d.turn ∧ (Dev.beginDesc ch k d).lastTurn = d.lastTurn ∧ (Dev.beginDesc ch k d).rings = d.rings ∧ (Dev.beginDesc ch k d).canvases = d.canvases ∧ (Dev.beginDesc ch k d).comp = d.comp ∧ (Dev.beginDesc ch k d).ports = d.ports ∧ (Dev.beginDesc ch k d).timers = d.timers ∧ (Dev.beginDesc ch k d).mrv = d.mrv ∧ (Dev.beginDesc ch k d).engines = d.engines ∧ (Dev.beginDesc ch k d).regions = d.regions ∧ (Dev.beginDesc ch k d).mct = d.mct ∧ (Dev.beginDesc ch k d).cru = d.cru ∧ (Dev.beginDesc ch k d).acc = d.acc ∧ (Dev.beginDesc ch k d).flt = d.flt ∧ (Dev.beginDesc ch k d).svc = d.svc ∧ (Dev.beginDesc ch k d).tb = d.tb ∧ (Dev.beginDesc ch k d).clk = d.clk ∧ (Dev.beginDesc ch k d).rst = d.rst ∧ (Dev.beginDesc ch k d).hif = d.hif ∧ (Dev.beginDesc ch k d).pins = d.pins := by
  simp [Dev.beginDesc]

@[simp] theorem Dev.descBad_frame (ch : Nat) (code : Nat) (d : Dev) :
    (Dev.descBad ch code d).now = d.now ∧ (Dev.descBad ch code d).luts = d.luts ∧ (Dev.descBad ch code d).scene = d.scene ∧ (Dev.descBad ch code d).ledger = d.ledger ∧ (Dev.descBad ch code d).turn = d.turn ∧ (Dev.descBad ch code d).lastTurn = d.lastTurn ∧ (Dev.descBad ch code d).canvases = d.canvases ∧ (Dev.descBad ch code d).comp = d.comp ∧ (Dev.descBad ch code d).ports = d.ports ∧ (Dev.descBad ch code d).timers = d.timers ∧ (Dev.descBad ch code d).mrv = d.mrv ∧ (Dev.descBad ch code d).engines = d.engines ∧ (Dev.descBad ch code d).regions = d.regions ∧ (Dev.descBad ch code d).svc = d.svc ∧ (Dev.descBad ch code d).tb = d.tb ∧ (Dev.descBad ch code d).clk = d.clk ∧ (Dev.descBad ch code d).rst = d.rst ∧ (Dev.descBad ch code d).pins = d.pins := by
  simp [Dev.descBad]

@[simp] theorem Dev.chanResponse_now (ch : Nat) (step : DmaStep) (r : Resp) (k : DmaJob → Dev → Dev) (d : Dev) (hk : ∀ w d, (k w d).now = d.now) : (Dev.chanResponse ch step r k d).now = d.now := by
  unfold Dev.chanResponse; try dsimp only
  (repeat' split) <;> simp [hk]

@[simp] theorem Dev.chanResponse_regs (ch : Nat) (step : DmaStep) (r : Resp) (k : DmaJob → Dev → Dev) (d : Dev) (hk : ∀ w d, (k w d).regs = d.regs) : (Dev.chanResponse ch step r k d).regs = d.regs := by
  unfold Dev.chanResponse; try dsimp only
  (repeat' split) <;> simp [hk]

@[simp] theorem Dev.chanResponse_luts (ch : Nat) (step : DmaStep) (r : Resp) (k : DmaJob → Dev → Dev) (d : Dev) (hk : ∀ w d, (k w d).luts = d.luts) : (Dev.chanResponse ch step r k d).luts = d.luts := by
  unfold Dev.chanResponse; try dsimp only
  (repeat' split) <;> simp [hk]

@[simp] theorem Dev.chanResponse_scene (ch : Nat) (step : DmaStep) (r : Resp) (k : DmaJob → Dev → Dev) (d : Dev) (hk : ∀ w d, (k w d).scene = d.scene) : (Dev.chanResponse ch step r k d).scene = d.scene := by
  unfold Dev.chanResponse; try dsimp only
  (repeat' split) <;> simp [hk]

@[simp] theorem Dev.chanResponse_ledger (ch : Nat) (step : DmaStep) (r : Resp) (k : DmaJob → Dev → Dev) (d : Dev) (hk : ∀ w d, (k w d).ledger = d.ledger) : (Dev.chanResponse ch step r k d).ledger = d.ledger := by
  unfold Dev.chanResponse; try dsimp only
  (repeat' split) <;> simp [hk]

@[simp] theorem Dev.chanResponse_queues (ch : Nat) (step : DmaStep) (r : Resp) (k : DmaJob → Dev → Dev) (d : Dev) (hk : ∀ w d, (k w d).queues = d.queues) : (Dev.chanResponse ch step r k d).queues = d.queues := by
  unfold Dev.chanResponse; try dsimp only
  (repeat' split) <;> simp [hk]

@[simp] theorem Dev.chanResponse_turn (ch : Nat) (step : DmaStep) (r : Resp) (k : DmaJob → Dev → Dev) (d : Dev) (hk : ∀ w d, (k w d).turn = d.turn) : (Dev.chanResponse ch step r k d).turn = d.turn := by
  unfold Dev.chanResponse; try dsimp only
  (repeat' split) <;> simp [hk]

@[simp] theorem Dev.chanResponse_lastTurn (ch : Nat) (step : DmaStep) (r : Resp) (k : DmaJob → Dev → Dev) (d : Dev) (hk : ∀ w d, (k w d).lastTurn = d.lastTurn) : (Dev.chanResponse ch step r k d).lastTurn = d.lastTurn := by
  unfold Dev.chanResponse; try dsimp only
  (repeat' split) <;> simp [hk]

@[simp] theorem Dev.chanResponse_rings (ch : Nat) (step : DmaStep) (r : Resp) (k : DmaJob → Dev → Dev) (d : Dev) (hk : ∀ w d, (k w d).rings = d.rings) : (Dev.chanResponse ch step r k d).rings = d.rings := by
  unfold Dev.chanResponse; try dsimp only
  (repeat' split) <;> simp [hk]

@[simp] theorem Dev.chanResponse_canvases (ch : Nat) (step : DmaStep) (r : Resp) (k : DmaJob → Dev → Dev) (d : Dev) (hk : ∀ w d, (k w d).canvases = d.canvases) : (Dev.chanResponse ch step r k d).canvases = d.canvases := by
  unfold Dev.chanResponse; try dsimp only
  (repeat' split) <;> simp [hk]

@[simp] theorem Dev.chanResponse_comp (ch : Nat) (step : DmaStep) (r : Resp) (k : DmaJob → Dev → Dev) (d : Dev) (hk : ∀ w d, (k w d).comp = d.comp) : (Dev.chanResponse ch step r k d).comp = d.comp := by
  unfold Dev.chanResponse; try dsimp only
  (repeat' split) <;> simp [hk]

@[simp] theorem Dev.chanResponse_ports (ch : Nat) (step : DmaStep) (r : Resp) (k : DmaJob → Dev → Dev) (d : Dev) (hk : ∀ w d, (k w d).ports = d.ports) : (Dev.chanResponse ch step r k d).ports = d.ports := by
  unfold Dev.chanResponse; try dsimp only
  (repeat' split) <;> simp [hk]

@[simp] theorem Dev.chanResponse_timers (ch : Nat) (step : DmaStep) (r : Resp) (k : DmaJob → Dev → Dev) (d : Dev) (hk : ∀ w d, (k w d).timers = d.timers) : (Dev.chanResponse ch step r k d).timers = d.timers := by
  unfold Dev.chanResponse; try dsimp only
  (repeat' split) <;> simp [hk]

@[simp] theorem Dev.chanResponse_mrv (ch : Nat) (step : DmaStep) (r : Resp) (k : DmaJob → Dev → Dev) (d : Dev) (hk : ∀ w d, (k w d).mrv = d.mrv) : (Dev.chanResponse ch step r k d).mrv = d.mrv := by
  unfold Dev.chanResponse; try dsimp only
  (repeat' split) <;> simp [hk]

@[simp] theorem Dev.chanResponse_engines (ch : Nat) (step : DmaStep) (r : Resp) (k : DmaJob → Dev → Dev) (d : Dev) (hk : ∀ w d, (k w d).engines = d.engines) : (Dev.chanResponse ch step r k d).engines = d.engines := by
  unfold Dev.chanResponse; try dsimp only
  (repeat' split) <;> simp [hk]

@[simp] theorem Dev.chanResponse_regions (ch : Nat) (step : DmaStep) (r : Resp) (k : DmaJob → Dev → Dev) (d : Dev) (hk : ∀ w d, (k w d).regions = d.regions) : (Dev.chanResponse ch step r k d).regions = d.regions := by
  unfold Dev.chanResponse; try dsimp only
  (repeat' split) <;> simp [hk]

@[simp] theorem Dev.chanResponse_acc (ch : Nat) (step : DmaStep) (r : Resp) (k : DmaJob → Dev → Dev) (d : Dev) (hk : ∀ w d, (k w d).acc = d.acc) : (Dev.chanResponse ch step r k d).acc = d.acc := by
  unfold Dev.chanResponse; try dsimp only
  (repeat' split) <;> simp [hk]

@[simp] theorem Dev.chanResponse_svc (ch : Nat) (step : DmaStep) (r : Resp) (k : DmaJob → Dev → Dev) (d : Dev) (hk : ∀ w d, (k w d).svc = d.svc) : (Dev.chanResponse ch step r k d).svc = d.svc := by
  unfold Dev.chanResponse; try dsimp only
  (repeat' split) <;> simp [hk]

@[simp] theorem Dev.chanResponse_tb (ch : Nat) (step : DmaStep) (r : Resp) (k : DmaJob → Dev → Dev) (d : Dev) (hk : ∀ w d, (k w d).tb = d.tb) : (Dev.chanResponse ch step r k d).tb = d.tb := by
  unfold Dev.chanResponse; try dsimp only
  (repeat' split) <;> simp [hk]

@[simp] theorem Dev.chanResponse_clk (ch : Nat) (step : DmaStep) (r : Resp) (k : DmaJob → Dev → Dev) (d : Dev) (hk : ∀ w d, (k w d).clk = d.clk) : (Dev.chanResponse ch step r k d).clk = d.clk := by
  unfold Dev.chanResponse; try dsimp only
  (repeat' split) <;> simp [hk]

@[simp] theorem Dev.chanResponse_rst (ch : Nat) (step : DmaStep) (r : Resp) (k : DmaJob → Dev → Dev) (d : Dev) (hk : ∀ w d, (k w d).rst = d.rst) : (Dev.chanResponse ch step r k d).rst = d.rst := by
  unfold Dev.chanResponse; try dsimp only
  (repeat' split) <;> simp [hk]

@[simp] theorem Dev.chanResponse_pins (ch : Nat) (step : DmaStep) (r : Resp) (k : DmaJob → Dev → Dev) (d : Dev) (hk : ∀ w d, (k w d).pins = d.pins) : (Dev.chanResponse ch step r k d).pins = d.pins := by
  unfold Dev.chanResponse; try dsimp only
  (repeat' split) <;> simp [hk]

@[simp] theorem Dev.advance_frame (ch : Nat) (n : Nat) (b : Nat) (d : Dev) :
    (Dev.advance ch n b d).now = d.now ∧ (Dev.advance ch n b d).regs = d.regs ∧ (Dev.advance ch n b d).luts = d.luts ∧ (Dev.advance ch n b d).mem = d.mem ∧ (Dev.advance ch n b d).scene = d.scene ∧ (Dev.advance ch n b d).ledger = d.ledger ∧ (Dev.advance ch n b d).queues = d.queues ∧ (Dev.advance ch n b d).turn = d.turn ∧ (Dev.advance ch n b d).lastTurn = d.lastTurn ∧ (Dev.advance ch n b d).rings = d.rings ∧ (Dev.advance ch n b d).canvases = d.canvases ∧ (Dev.advance ch n b d).comp = d.comp ∧ (Dev.advance ch n b d).ports = d.ports ∧ (Dev.advance ch n b d).timers = d.timers ∧ (Dev.advance ch n b d).mrv = d.mrv ∧ (Dev.advance ch n b d).engines = d.engines ∧ (Dev.advance ch n b d).regions = d.regions ∧ (Dev.advance ch n b d).mct = d.mct ∧ (Dev.advance ch n b d).cru = d.cru ∧ (Dev.advance ch n b d).acc = d.acc ∧ (Dev.advance ch n b d).flt = d.flt ∧ (Dev.advance ch n b d).svc = d.svc ∧ (Dev.advance ch n b d).tb = d.tb ∧ (Dev.advance ch n b d).clk = d.clk ∧ (Dev.advance ch n b d).rst = d.rst ∧ (Dev.advance ch n b d).hif = d.hif ∧ (Dev.advance ch n b d).pins = d.pins := by
  simp [Dev.advance]

@[simp] theorem Dev.moveBytes_frame (ch mid : Nat) (r : Resp) (d : Dev) :
    (Dev.moveBytes ch mid r d).now = d.now ∧ (Dev.moveBytes ch mid r d).regs = d.regs ∧ (Dev.moveBytes ch mid r d).luts = d.luts ∧ (Dev.moveBytes ch mid r d).scene = d.scene ∧ (Dev.moveBytes ch mid r d).ledger = d.ledger ∧ (Dev.moveBytes ch mid r d).turn = d.turn ∧ (Dev.moveBytes ch mid r d).lastTurn = d.lastTurn ∧ (Dev.moveBytes ch mid r d).canvases = d.canvases ∧ (Dev.moveBytes ch mid r d).comp = d.comp ∧ (Dev.moveBytes ch mid r d).ports = d.ports ∧ (Dev.moveBytes ch mid r d).timers = d.timers ∧ (Dev.moveBytes ch mid r d).mrv = d.mrv ∧ (Dev.moveBytes ch mid r d).engines = d.engines ∧ (Dev.moveBytes ch mid r d).regions = d.regions ∧ (Dev.moveBytes ch mid r d).svc = d.svc ∧ (Dev.moveBytes ch mid r d).tb = d.tb ∧ (Dev.moveBytes ch mid r d).clk = d.clk ∧ (Dev.moveBytes ch mid r d).rst = d.rst ∧ (Dev.moveBytes ch mid r d).pins = d.pins := by
  unfold Dev.moveBytes Dev.when; dsimp only; (repeat' split) <;> simp

@[simp] theorem Dev.keepSource_frame (ch : Nat) (out : List (Nat × List Byte)) (d : Dev) :
    (Dev.keepSource ch out d).now = d.now ∧ (Dev.keepSource ch out d).regs = d.regs ∧ (Dev.keepSource ch out d).luts = d.luts ∧ (Dev.keepSource ch out d).mem = d.mem ∧ (Dev.keepSource ch out d).scene = d.scene ∧ (Dev.keepSource ch out d).ledger = d.ledger ∧ (Dev.keepSource ch out d).queues = d.queues ∧ (Dev.keepSource ch out d).turn = d.turn ∧ (Dev.keepSource ch out d).lastTurn = d.lastTurn ∧ (Dev.keepSource ch out d).rings = d.rings ∧ (Dev.keepSource ch out d).canvases = d.canvases ∧ (Dev.keepSource ch out d).comp = d.comp ∧ (Dev.keepSource ch out d).ports = d.ports ∧ (Dev.keepSource ch out d).timers = d.timers ∧ (Dev.keepSource ch out d).mrv = d.mrv ∧ (Dev.keepSource ch out d).engines = d.engines ∧ (Dev.keepSource ch out d).regions = d.regions ∧ (Dev.keepSource ch out d).mct = d.mct ∧ (Dev.keepSource ch out d).cru = d.cru ∧ (Dev.keepSource ch out d).acc = d.acc ∧ (Dev.keepSource ch out d).flt = d.flt ∧ (Dev.keepSource ch out d).svc = d.svc ∧ (Dev.keepSource ch out d).tb = d.tb ∧ (Dev.keepSource ch out d).clk = d.clk ∧ (Dev.keepSource ch out d).rst = d.rst ∧ (Dev.keepSource ch out d).hif = d.hif ∧ (Dev.keepSource ch out d).pins = d.pins := by
  simp [Dev.keepSource]

@[simp] theorem Dev.writeAll_frame (mid : Nat) (l : List (Nat × List Byte)) (d : Dev) :
    (Dev.writeAll mid l d).1.now = d.now ∧ (Dev.writeAll mid l d).1.regs = d.regs ∧ (Dev.writeAll mid l d).1.luts = d.luts ∧ (Dev.writeAll mid l d).1.scene = d.scene ∧ (Dev.writeAll mid l d).1.ledger = d.ledger ∧ (Dev.writeAll mid l d).1.queues = d.queues ∧ (Dev.writeAll mid l d).1.turn = d.turn ∧ (Dev.writeAll mid l d).1.lastTurn = d.lastTurn ∧ (Dev.writeAll mid l d).1.rings = d.rings ∧ (Dev.writeAll mid l d).1.canvases = d.canvases ∧ (Dev.writeAll mid l d).1.comp = d.comp ∧ (Dev.writeAll mid l d).1.ports = d.ports ∧ (Dev.writeAll mid l d).1.chans = d.chans ∧ (Dev.writeAll mid l d).1.timers = d.timers ∧ (Dev.writeAll mid l d).1.mrv = d.mrv ∧ (Dev.writeAll mid l d).1.engines = d.engines ∧ (Dev.writeAll mid l d).1.regions = d.regions ∧ (Dev.writeAll mid l d).1.acc = d.acc ∧ (Dev.writeAll mid l d).1.svc = d.svc ∧ (Dev.writeAll mid l d).1.tb = d.tb ∧ (Dev.writeAll mid l d).1.clk = d.clk ∧ (Dev.writeAll mid l d).1.rst = d.rst ∧ (Dev.writeAll mid l d).1.pins = d.pins := by
  induction l generalizing d with
  | nil => simp [Dev.writeAll]
  | cons e l ih =>
    obtain ⟨a, bs⟩ := e
    unfold Dev.writeAll; split <;> simp [ih]

@[simp] theorem Dev.moveTile_frame (ch mid : Nat) (r : Resp) (d : Dev) :
    (Dev.moveTile ch mid r d).now = d.now ∧ (Dev.moveTile ch mid r d).regs = d.regs ∧ (Dev.moveTile ch mid r d).luts = d.luts ∧ (Dev.moveTile ch mid r d).scene = d.scene ∧ (Dev.moveTile ch mid r d).ledger = d.ledger ∧ (Dev.moveTile ch mid r d).turn = d.turn ∧ (Dev.moveTile ch mid r d).lastTurn = d.lastTurn ∧ (Dev.moveTile ch mid r d).canvases = d.canvases ∧ (Dev.moveTile ch mid r d).comp = d.comp ∧ (Dev.moveTile ch mid r d).ports = d.ports ∧ (Dev.moveTile ch mid r d).timers = d.timers ∧ (Dev.moveTile ch mid r d).mrv = d.mrv ∧ (Dev.moveTile ch mid r d).engines = d.engines ∧ (Dev.moveTile ch mid r d).regions = d.regions ∧ (Dev.moveTile ch mid r d).svc = d.svc ∧ (Dev.moveTile ch mid r d).tb = d.tb ∧ (Dev.moveTile ch mid r d).clk = d.clk ∧ (Dev.moveTile ch mid r d).rst = d.rst ∧ (Dev.moveTile ch mid r d).pins = d.pins := by
  unfold Dev.moveTile Dev.when; dsimp only; split
  · split
    · simp
    · split
      · split
        all_goals
          next heq =>
            have e := (congrArg Prod.fst heq).symm
            dsimp only at e
            subst e
            simp
      · simp
  · simp

@[simp] theorem Dev.requestLost_frame (ch : Nat) (write : Bool) (d : Dev) :
    (Dev.requestLost ch write d).now = d.now ∧ (Dev.requestLost ch write d).regs = d.regs ∧ (Dev.requestLost ch write d).luts = d.luts ∧ (Dev.requestLost ch write d).mem = d.mem ∧ (Dev.requestLost ch write d).scene = d.scene ∧ (Dev.requestLost ch write d).ledger = d.ledger ∧ (Dev.requestLost ch write d).queues = d.queues ∧ (Dev.requestLost ch write d).turn = d.turn ∧ (Dev.requestLost ch write d).lastTurn = d.lastTurn ∧ (Dev.requestLost ch write d).rings = d.rings ∧ (Dev.requestLost ch write d).canvases = d.canvases ∧ (Dev.requestLost ch write d).comp = d.comp ∧ (Dev.requestLost ch write d).ports = d.ports ∧ (Dev.requestLost ch write d).chans = d.chans ∧ (Dev.requestLost ch write d).timers = d.timers ∧ (Dev.requestLost ch write d).mrv = d.mrv ∧ (Dev.requestLost ch write d).engines = d.engines ∧ (Dev.requestLost ch write d).regions = d.regions ∧ (Dev.requestLost ch write d).cru = d.cru ∧ (Dev.requestLost ch write d).acc = d.acc ∧ (Dev.requestLost ch write d).flt = d.flt ∧ (Dev.requestLost ch write d).svc = d.svc ∧ (Dev.requestLost ch write d).tb = d.tb ∧ (Dev.requestLost ch write d).clk = d.clk ∧ (Dev.requestLost ch write d).rst = d.rst ∧ (Dev.requestLost ch write d).hif = d.hif ∧ (Dev.requestLost ch write d).pins = d.pins := by
  simp [Dev.requestLost]

@[simp] theorem Dev.descEnds_frame (ch : Nat) (d : Dev) :
    (Dev.descEnds ch d).now = d.now ∧ (Dev.descEnds ch d).regs = d.regs ∧ (Dev.descEnds ch d).luts = d.luts ∧ (Dev.descEnds ch d).scene = d.scene ∧ (Dev.descEnds ch d).ledger = d.ledger ∧ (Dev.descEnds ch d).turn = d.turn ∧ (Dev.descEnds ch d).lastTurn = d.lastTurn ∧ (Dev.descEnds ch d).canvases = d.canvases ∧ (Dev.descEnds ch d).comp = d.comp ∧ (Dev.descEnds ch d).ports = d.ports ∧ (Dev.descEnds ch d).timers = d.timers ∧ (Dev.descEnds ch d).mrv = d.mrv ∧ (Dev.descEnds ch d).engines = d.engines ∧ (Dev.descEnds ch d).regions = d.regions ∧ (Dev.descEnds ch d).svc = d.svc ∧ (Dev.descEnds ch d).tb = d.tb ∧ (Dev.descEnds ch d).clk = d.clk ∧ (Dev.descEnds ch d).rst = d.rst ∧ (Dev.descEnds ch d).pins = d.pins := by
  simp [Dev.descEnds]

@[simp] theorem Dev.reportBehind_frame (ch : Nat) (q : Nat) (grp : Nat) (d : Dev) :
    (Dev.reportBehind ch q grp d).now = d.now ∧ (Dev.reportBehind ch q grp d).regs = d.regs ∧ (Dev.reportBehind ch q grp d).luts = d.luts ∧ (Dev.reportBehind ch q grp d).mem = d.mem ∧ (Dev.reportBehind ch q grp d).scene = d.scene ∧ (Dev.reportBehind ch q grp d).ledger = d.ledger ∧ (Dev.reportBehind ch q grp d).turn = d.turn ∧ (Dev.reportBehind ch q grp d).lastTurn = d.lastTurn ∧ (Dev.reportBehind ch q grp d).rings = d.rings ∧ (Dev.reportBehind ch q grp d).canvases = d.canvases ∧ (Dev.reportBehind ch q grp d).comp = d.comp ∧ (Dev.reportBehind ch q grp d).ports = d.ports ∧ (Dev.reportBehind ch q grp d).timers = d.timers ∧ (Dev.reportBehind ch q grp d).mrv = d.mrv ∧ (Dev.reportBehind ch q grp d).engines = d.engines ∧ (Dev.reportBehind ch q grp d).regions = d.regions ∧ (Dev.reportBehind ch q grp d).mct = d.mct ∧ (Dev.reportBehind ch q grp d).cru = d.cru ∧ (Dev.reportBehind ch q grp d).acc = d.acc ∧ (Dev.reportBehind ch q grp d).flt = d.flt ∧ (Dev.reportBehind ch q grp d).svc = d.svc ∧ (Dev.reportBehind ch q grp d).tb = d.tb ∧ (Dev.reportBehind ch q grp d).clk = d.clk ∧ (Dev.reportBehind ch q grp d).rst = d.rst ∧ (Dev.reportBehind ch q grp d).hif = d.hif ∧ (Dev.reportBehind ch q grp d).pins = d.pins := by
  simp [Dev.reportBehind]

@[simp] theorem Dev.jobEnds_frame (ch : Nat) (d : Dev) :
    (Dev.jobEnds ch d).now = d.now ∧ (Dev.jobEnds ch d).luts = d.luts ∧ (Dev.jobEnds ch d).scene = d.scene ∧ (Dev.jobEnds ch d).ledger = d.ledger ∧ (Dev.jobEnds ch d).turn = d.turn ∧ (Dev.jobEnds ch d).lastTurn = d.lastTurn ∧ (Dev.jobEnds ch d).rings = d.rings ∧ (Dev.jobEnds ch d).canvases = d.canvases ∧ (Dev.jobEnds ch d).comp = d.comp ∧ (Dev.jobEnds ch d).ports = d.ports ∧ (Dev.jobEnds ch d).mrv = d.mrv ∧ (Dev.jobEnds ch d).regions = d.regions ∧ (Dev.jobEnds ch d).svc = d.svc ∧ (Dev.jobEnds ch d).tb = d.tb ∧ (Dev.jobEnds ch d).clk = d.clk ∧ (Dev.jobEnds ch d).rst = d.rst ∧ (Dev.jobEnds ch d).pins = d.pins := by
  unfold Dev.jobEnds; dsimp only; split <;> simp

@[simp] theorem Dev.timerTicks_frame (t : Nat) (d : Dev) :
    (Dev.timerTicks t d).now = d.now ∧ (Dev.timerTicks t d).luts = d.luts ∧ (Dev.timerTicks t d).scene = d.scene ∧ (Dev.timerTicks t d).ledger = d.ledger ∧ (Dev.timerTicks t d).turn = d.turn ∧ (Dev.timerTicks t d).lastTurn = d.lastTurn ∧ (Dev.timerTicks t d).rings = d.rings ∧ (Dev.timerTicks t d).canvases = d.canvases ∧ (Dev.timerTicks t d).comp = d.comp ∧ (Dev.timerTicks t d).ports = d.ports ∧ (Dev.timerTicks t d).mrv = d.mrv ∧ (Dev.timerTicks t d).engines = d.engines ∧ (Dev.timerTicks t d).regions = d.regions ∧ (Dev.timerTicks t d).svc = d.svc ∧ (Dev.timerTicks t d).tb = d.tb ∧ (Dev.timerTicks t d).clk = d.clk ∧ (Dev.timerTicks t d).rst = d.rst ∧ (Dev.timerTicks t d).pins = d.pins := by
  unfold Dev.timerTicks; (repeat' split) <;> simp

@[simp] theorem Dev.timerWritten_frame (t : Nat) (d : Dev) :
    (Dev.timerWritten t d).now = d.now ∧ (Dev.timerWritten t d).regs = d.regs ∧ (Dev.timerWritten t d).luts = d.luts ∧ (Dev.timerWritten t d).mem = d.mem ∧ (Dev.timerWritten t d).scene = d.scene ∧ (Dev.timerWritten t d).ledger = d.ledger ∧ (Dev.timerWritten t d).queues = d.queues ∧ (Dev.timerWritten t d).turn = d.turn ∧ (Dev.timerWritten t d).lastTurn = d.lastTurn ∧ (Dev.timerWritten t d).rings = d.rings ∧ (Dev.timerWritten t d).canvases = d.canvases ∧ (Dev.timerWritten t d).comp = d.comp ∧ (Dev.timerWritten t d).ports = d.ports ∧ (Dev.timerWritten t d).chans = d.chans ∧ (Dev.timerWritten t d).mrv = d.mrv ∧ (Dev.timerWritten t d).engines = d.engines ∧ (Dev.timerWritten t d).regions = d.regions ∧ (Dev.timerWritten t d).mct = d.mct ∧ (Dev.timerWritten t d).cru = d.cru ∧ (Dev.timerWritten t d).acc = d.acc ∧ (Dev.timerWritten t d).flt = d.flt ∧ (Dev.timerWritten t d).svc = d.svc ∧ (Dev.timerWritten t d).tb = d.tb ∧ (Dev.timerWritten t d).clk = d.clk ∧ (Dev.timerWritten t d).rst = d.rst ∧ (Dev.timerWritten t d).hif = d.hif ∧ (Dev.timerWritten t d).pins = d.pins := by
  simp [Dev.timerWritten]

@[simp] theorem Dev.periodWritten_frame (t : Nat) (d : Dev) :
    (Dev.periodWritten t d).now = d.now ∧ (Dev.periodWritten t d).regs = d.regs ∧ (Dev.periodWritten t d).luts = d.luts ∧ (Dev.periodWritten t d).mem = d.mem ∧ (Dev.periodWritten t d).scene = d.scene ∧ (Dev.periodWritten t d).ledger = d.ledger ∧ (Dev.periodWritten t d).queues = d.queues ∧ (Dev.periodWritten t d).turn = d.turn ∧ (Dev.periodWritten t d).lastTurn = d.lastTurn ∧ (Dev.periodWritten t d).rings = d.rings ∧ (Dev.periodWritten t d).canvases = d.canvases ∧ (Dev.periodWritten t d).comp = d.comp ∧ (Dev.periodWritten t d).ports = d.ports ∧ (Dev.periodWritten t d).chans = d.chans ∧ (Dev.periodWritten t d).mrv = d.mrv ∧ (Dev.periodWritten t d).engines = d.engines ∧ (Dev.periodWritten t d).regions = d.regions ∧ (Dev.periodWritten t d).mct = d.mct ∧ (Dev.periodWritten t d).cru = d.cru ∧ (Dev.periodWritten t d).acc = d.acc ∧ (Dev.periodWritten t d).flt = d.flt ∧ (Dev.periodWritten t d).svc = d.svc ∧ (Dev.periodWritten t d).tb = d.tb ∧ (Dev.periodWritten t d).clk = d.clk ∧ (Dev.periodWritten t d).rst = d.rst ∧ (Dev.periodWritten t d).hif = d.hif ∧ (Dev.periodWritten t d).pins = d.pins := by
  simp [Dev.periodWritten]

@[simp] theorem Dev.timersFrame_frame (c : Nat) (first : Bool) (d : Dev) :
    (Dev.timersFrame c first d).now = d.now ∧ (Dev.timersFrame c first d).regs = d.regs ∧ (Dev.timersFrame c first d).luts = d.luts ∧ (Dev.timersFrame c first d).mem = d.mem ∧ (Dev.timersFrame c first d).scene = d.scene ∧ (Dev.timersFrame c first d).ledger = d.ledger ∧ (Dev.timersFrame c first d).queues = d.queues ∧ (Dev.timersFrame c first d).turn = d.turn ∧ (Dev.timersFrame c first d).lastTurn = d.lastTurn ∧ (Dev.timersFrame c first d).rings = d.rings ∧ (Dev.timersFrame c first d).canvases = d.canvases ∧ (Dev.timersFrame c first d).comp = d.comp ∧ (Dev.timersFrame c first d).ports = d.ports ∧ (Dev.timersFrame c first d).chans = d.chans ∧ (Dev.timersFrame c first d).mrv = d.mrv ∧ (Dev.timersFrame c first d).engines = d.engines ∧ (Dev.timersFrame c first d).regions = d.regions ∧ (Dev.timersFrame c first d).mct = d.mct ∧ (Dev.timersFrame c first d).cru = d.cru ∧ (Dev.timersFrame c first d).acc = d.acc ∧ (Dev.timersFrame c first d).flt = d.flt ∧ (Dev.timersFrame c first d).svc = d.svc ∧ (Dev.timersFrame c first d).tb = d.tb ∧ (Dev.timersFrame c first d).clk = d.clk ∧ (Dev.timersFrame c first d).rst = d.rst ∧ (Dev.timersFrame c first d).hif = d.hif ∧ (Dev.timersFrame c first d).pins = d.pins := by
  simp [Dev.timersFrame]

@[simp] theorem Dev.beginRow_frame (d : Dev) :
    (Dev.beginRow d).now = d.now ∧ (Dev.beginRow d).regs = d.regs ∧ (Dev.beginRow d).luts = d.luts ∧ (Dev.beginRow d).mem = d.mem ∧ (Dev.beginRow d).scene = d.scene ∧ (Dev.beginRow d).ledger = d.ledger ∧ (Dev.beginRow d).queues = d.queues ∧ (Dev.beginRow d).turn = d.turn ∧ (Dev.beginRow d).lastTurn = d.lastTurn ∧ (Dev.beginRow d).rings = d.rings ∧ (Dev.beginRow d).canvases = d.canvases ∧ (Dev.beginRow d).comp = d.comp ∧ (Dev.beginRow d).ports = d.ports ∧ (Dev.beginRow d).chans = d.chans ∧ (Dev.beginRow d).timers = d.timers ∧ (Dev.beginRow d).engines = d.engines ∧ (Dev.beginRow d).regions = d.regions ∧ (Dev.beginRow d).mct = d.mct ∧ (Dev.beginRow d).cru = d.cru ∧ (Dev.beginRow d).acc = d.acc ∧ (Dev.beginRow d).flt = d.flt ∧ (Dev.beginRow d).svc = d.svc ∧ (Dev.beginRow d).tb = d.tb ∧ (Dev.beginRow d).clk = d.clk ∧ (Dev.beginRow d).rst = d.rst ∧ (Dev.beginRow d).hif = d.hif ∧ (Dev.beginRow d).pins = d.pins := by
  simp [Dev.beginRow]

@[simp] theorem Dev.gateFrame_frame (c : Nat) (d : Dev) :
    (Dev.gateFrame c d).now = d.now ∧ (Dev.gateFrame c d).regs = d.regs ∧ (Dev.gateFrame c d).luts = d.luts ∧ (Dev.gateFrame c d).mem = d.mem ∧ (Dev.gateFrame c d).scene = d.scene ∧ (Dev.gateFrame c d).ledger = d.ledger ∧ (Dev.gateFrame c d).queues = d.queues ∧ (Dev.gateFrame c d).turn = d.turn ∧ (Dev.gateFrame c d).lastTurn = d.lastTurn ∧ (Dev.gateFrame c d).rings = d.rings ∧ (Dev.gateFrame c d).canvases = d.canvases ∧ (Dev.gateFrame c d).comp = d.comp ∧ (Dev.gateFrame c d).ports = d.ports ∧ (Dev.gateFrame c d).chans = d.chans ∧ (Dev.gateFrame c d).timers = d.timers ∧ (Dev.gateFrame c d).engines = d.engines ∧ (Dev.gateFrame c d).regions = d.regions ∧ (Dev.gateFrame c d).mct = d.mct ∧ (Dev.gateFrame c d).cru = d.cru ∧ (Dev.gateFrame c d).acc = d.acc ∧ (Dev.gateFrame c d).flt = d.flt ∧ (Dev.gateFrame c d).svc = d.svc ∧ (Dev.gateFrame c d).tb = d.tb ∧ (Dev.gateFrame c d).clk = d.clk ∧ (Dev.gateFrame c d).rst = d.rst ∧ (Dev.gateFrame c d).hif = d.hif ∧ (Dev.gateFrame c d).pins = d.pins := by
  simp [Dev.gateFrame]

@[simp] theorem Dev.mrvEndMessage_frame (d : Dev) :
    (Dev.mrvEndMessage d).now = d.now ∧ (Dev.mrvEndMessage d).regs = d.regs ∧ (Dev.mrvEndMessage d).luts = d.luts ∧ (Dev.mrvEndMessage d).mem = d.mem ∧ (Dev.mrvEndMessage d).scene = d.scene ∧ (Dev.mrvEndMessage d).ledger = d.ledger ∧ (Dev.mrvEndMessage d).queues = d.queues ∧ (Dev.mrvEndMessage d).turn = d.turn ∧ (Dev.mrvEndMessage d).lastTurn = d.lastTurn ∧ (Dev.mrvEndMessage d).rings = d.rings ∧ (Dev.mrvEndMessage d).canvases = d.canvases ∧ (Dev.mrvEndMessage d).comp = d.comp ∧ (Dev.mrvEndMessage d).ports = d.ports ∧ (Dev.mrvEndMessage d).chans = d.chans ∧ (Dev.mrvEndMessage d).timers = d.timers ∧ (Dev.mrvEndMessage d).mrv = d.mrv ∧ (Dev.mrvEndMessage d).engines = d.engines ∧ (Dev.mrvEndMessage d).regions = d.regions ∧ (Dev.mrvEndMessage d).mct = d.mct ∧ (Dev.mrvEndMessage d).cru = d.cru ∧ (Dev.mrvEndMessage d).acc = d.acc ∧ (Dev.mrvEndMessage d).flt = d.flt ∧ (Dev.mrvEndMessage d).svc = d.svc ∧ (Dev.mrvEndMessage d).tb = d.tb ∧ (Dev.mrvEndMessage d).clk = d.clk ∧ (Dev.mrvEndMessage d).rst = d.rst ∧ (Dev.mrvEndMessage d).pins = d.pins := by
  simp [Dev.mrvEndMessage]

@[simp] theorem Dev.mrvEnd_frame (code : Nat) (d : Dev) :
    (Dev.mrvEnd code d).now = d.now ∧ (Dev.mrvEnd code d).regs = d.regs ∧ (Dev.mrvEnd code d).luts = d.luts ∧ (Dev.mrvEnd code d).mem = d.mem ∧ (Dev.mrvEnd code d).scene = d.scene ∧ (Dev.mrvEnd code d).ledger = d.ledger ∧ (Dev.mrvEnd code d).queues = d.queues ∧ (Dev.mrvEnd code d).turn = d.turn ∧ (Dev.mrvEnd code d).lastTurn = d.lastTurn ∧ (Dev.mrvEnd code d).rings = d.rings ∧ (Dev.mrvEnd code d).canvases = d.canvases ∧ (Dev.mrvEnd code d).comp = d.comp ∧ (Dev.mrvEnd code d).ports = d.ports ∧ (Dev.mrvEnd code d).chans = d.chans ∧ (Dev.mrvEnd code d).timers = d.timers ∧ (Dev.mrvEnd code d).engines = d.engines ∧ (Dev.mrvEnd code d).regions = d.regions ∧ (Dev.mrvEnd code d).mct = d.mct ∧ (Dev.mrvEnd code d).cru = d.cru ∧ (Dev.mrvEnd code d).acc = d.acc ∧ (Dev.mrvEnd code d).flt = d.flt ∧ (Dev.mrvEnd code d).svc = d.svc ∧ (Dev.mrvEnd code d).tb = d.tb ∧ (Dev.mrvEnd code d).clk = d.clk ∧ (Dev.mrvEnd code d).rst = d.rst ∧ (Dev.mrvEnd code d).pins = d.pins := by
  simp [Dev.mrvEnd]

@[simp] theorem Dev.mrvFails_frame (code : Nat) (a : Nat) (d : Dev) :
    (Dev.mrvFails code a d).now = d.now ∧ (Dev.mrvFails code a d).regs = d.regs ∧ (Dev.mrvFails code a d).luts = d.luts ∧ (Dev.mrvFails code a d).mem = d.mem ∧ (Dev.mrvFails code a d).scene = d.scene ∧ (Dev.mrvFails code a d).ledger = d.ledger ∧ (Dev.mrvFails code a d).queues = d.queues ∧ (Dev.mrvFails code a d).turn = d.turn ∧ (Dev.mrvFails code a d).lastTurn = d.lastTurn ∧ (Dev.mrvFails code a d).rings = d.rings ∧ (Dev.mrvFails code a d).canvases = d.canvases ∧ (Dev.mrvFails code a d).comp = d.comp ∧ (Dev.mrvFails code a d).ports = d.ports ∧ (Dev.mrvFails code a d).chans = d.chans ∧ (Dev.mrvFails code a d).timers = d.timers ∧ (Dev.mrvFails code a d).engines = d.engines ∧ (Dev.mrvFails code a d).regions = d.regions ∧ (Dev.mrvFails code a d).mct = d.mct ∧ (Dev.mrvFails code a d).cru = d.cru ∧ (Dev.mrvFails code a d).acc = d.acc ∧ (Dev.mrvFails code a d).svc = d.svc ∧ (Dev.mrvFails code a d).tb = d.tb ∧ (Dev.mrvFails code a d).clk = d.clk ∧ (Dev.mrvFails code a d).rst = d.rst ∧ (Dev.mrvFails code a d).pins = d.pins := by
  simp [Dev.mrvFails]

@[simp] theorem Dev.startMarver_frame (d : Dev) :
    (Dev.startMarver d).now = d.now ∧ (Dev.startMarver d).regs = d.regs ∧ (Dev.startMarver d).luts = d.luts ∧ (Dev.startMarver d).mem = d.mem ∧ (Dev.startMarver d).scene = d.scene ∧ (Dev.startMarver d).ledger = d.ledger ∧ (Dev.startMarver d).queues = d.queues ∧ (Dev.startMarver d).turn = d.turn ∧ (Dev.startMarver d).lastTurn = d.lastTurn ∧ (Dev.startMarver d).rings = d.rings ∧ (Dev.startMarver d).canvases = d.canvases ∧ (Dev.startMarver d).comp = d.comp ∧ (Dev.startMarver d).ports = d.ports ∧ (Dev.startMarver d).chans = d.chans ∧ (Dev.startMarver d).timers = d.timers ∧ (Dev.startMarver d).engines = d.engines ∧ (Dev.startMarver d).regions = d.regions ∧ (Dev.startMarver d).mct = d.mct ∧ (Dev.startMarver d).cru = d.cru ∧ (Dev.startMarver d).acc = d.acc ∧ (Dev.startMarver d).flt = d.flt ∧ (Dev.startMarver d).svc = d.svc ∧ (Dev.startMarver d).tb = d.tb ∧ (Dev.startMarver d).clk = d.clk ∧ (Dev.startMarver d).rst = d.rst ∧ (Dev.startMarver d).pins = d.pins := by
  simp [Dev.startMarver]

@[simp] theorem Dev.abortMarver_frame (d : Dev) :
    (Dev.abortMarver d).now = d.now ∧ (Dev.abortMarver d).regs = d.regs ∧ (Dev.abortMarver d).luts = d.luts ∧ (Dev.abortMarver d).mem = d.mem ∧ (Dev.abortMarver d).scene = d.scene ∧ (Dev.abortMarver d).ledger = d.ledger ∧ (Dev.abortMarver d).queues = d.queues ∧ (Dev.abortMarver d).turn = d.turn ∧ (Dev.abortMarver d).lastTurn = d.lastTurn ∧ (Dev.abortMarver d).rings = d.rings ∧ (Dev.abortMarver d).canvases = d.canvases ∧ (Dev.abortMarver d).comp = d.comp ∧ (Dev.abortMarver d).ports = d.ports ∧ (Dev.abortMarver d).chans = d.chans ∧ (Dev.abortMarver d).timers = d.timers ∧ (Dev.abortMarver d).engines = d.engines ∧ (Dev.abortMarver d).regions = d.regions ∧ (Dev.abortMarver d).mct = d.mct ∧ (Dev.abortMarver d).cru = d.cru ∧ (Dev.abortMarver d).acc = d.acc ∧ (Dev.abortMarver d).svc = d.svc ∧ (Dev.abortMarver d).tb = d.tb ∧ (Dev.abortMarver d).clk = d.clk ∧ (Dev.abortMarver d).rst = d.rst ∧ (Dev.abortMarver d).pins = d.pins := by
  unfold Dev.abortMarver; (repeat' split) <;> simp

@[simp] theorem Dev.mrvNotes_frame (d : Dev) :
    (Dev.mrvNotes d).now = d.now ∧ (Dev.mrvNotes d).regs = d.regs ∧ (Dev.mrvNotes d).luts = d.luts ∧ (Dev.mrvNotes d).mem = d.mem ∧ (Dev.mrvNotes d).scene = d.scene ∧ (Dev.mrvNotes d).ledger = d.ledger ∧ (Dev.mrvNotes d).queues = d.queues ∧ (Dev.mrvNotes d).turn = d.turn ∧ (Dev.mrvNotes d).lastTurn = d.lastTurn ∧ (Dev.mrvNotes d).rings = d.rings ∧ (Dev.mrvNotes d).canvases = d.canvases ∧ (Dev.mrvNotes d).comp = d.comp ∧ (Dev.mrvNotes d).ports = d.ports ∧ (Dev.mrvNotes d).chans = d.chans ∧ (Dev.mrvNotes d).timers = d.timers ∧ (Dev.mrvNotes d).mrv = d.mrv ∧ (Dev.mrvNotes d).engines = d.engines ∧ (Dev.mrvNotes d).regions = d.regions ∧ (Dev.mrvNotes d).acc = d.acc ∧ (Dev.mrvNotes d).svc = d.svc ∧ (Dev.mrvNotes d).tb = d.tb ∧ (Dev.mrvNotes d).clk = d.clk ∧ (Dev.mrvNotes d).rst = d.rst ∧ (Dev.mrvNotes d).hif = d.hif ∧ (Dev.mrvNotes d).pins = d.pins := by
  simp [Dev.mrvNotes]

@[simp] theorem Dev.mrvRow_frame (r : Nat) (l : List Nat) (d : Dev) :
    (Dev.mrvRow r l d).1.now = d.now ∧ (Dev.mrvRow r l d).1.regs = d.regs ∧ (Dev.mrvRow r l d).1.luts = d.luts ∧ (Dev.mrvRow r l d).1.scene = d.scene ∧ (Dev.mrvRow r l d).1.ledger = d.ledger ∧ (Dev.mrvRow r l d).1.queues = d.queues ∧ (Dev.mrvRow r l d).1.turn = d.turn ∧ (Dev.mrvRow r l d).1.lastTurn = d.lastTurn ∧ (Dev.mrvRow r l d).1.rings = d.rings ∧ (Dev.mrvRow r l d).1.canvases = d.canvases ∧ (Dev.mrvRow r l d).1.comp = d.comp ∧ (Dev.mrvRow r l d).1.ports = d.ports ∧ (Dev.mrvRow r l d).1.chans = d.chans ∧ (Dev.mrvRow r l d).1.timers = d.timers ∧ (Dev.mrvRow r l d).1.mrv = d.mrv ∧ (Dev.mrvRow r l d).1.engines = d.engines ∧ (Dev.mrvRow r l d).1.regions = d.regions ∧ (Dev.mrvRow r l d).1.acc = d.acc ∧ (Dev.mrvRow r l d).1.svc = d.svc ∧ (Dev.mrvRow r l d).1.tb = d.tb ∧ (Dev.mrvRow r l d).1.clk = d.clk ∧ (Dev.mrvRow r l d).1.rst = d.rst ∧ (Dev.mrvRow r l d).1.pins = d.pins := by
  induction l generalizing d with
  | nil => simp [Dev.mrvRow]
  | cons e l ih => unfold Dev.mrvRow; dsimp only; (repeat' split) <;> simp [ih]

@[simp] theorem Dev.mrvTileRow_frame (d : Dev) :
    (Dev.mrvTileRow d).1.now = d.now ∧ (Dev.mrvTileRow d).1.regs = d.regs ∧ (Dev.mrvTileRow d).1.luts = d.luts ∧ (Dev.mrvTileRow d).1.scene = d.scene ∧ (Dev.mrvTileRow d).1.ledger = d.ledger ∧ (Dev.mrvTileRow d).1.queues = d.queues ∧ (Dev.mrvTileRow d).1.turn = d.turn ∧ (Dev.mrvTileRow d).1.lastTurn = d.lastTurn ∧ (Dev.mrvTileRow d).1.rings = d.rings ∧ (Dev.mrvTileRow d).1.canvases = d.canvases ∧ (Dev.mrvTileRow d).1.comp = d.comp ∧ (Dev.mrvTileRow d).1.ports = d.ports ∧ (Dev.mrvTileRow d).1.chans = d.chans ∧ (Dev.mrvTileRow d).1.timers = d.timers ∧ (Dev.mrvTileRow d).1.mrv = d.mrv ∧ (Dev.mrvTileRow d).1.engines = d.engines ∧ (Dev.mrvTileRow d).1.regions = d.regions ∧ (Dev.mrvTileRow d).1.acc = d.acc ∧ (Dev.mrvTileRow d).1.svc = d.svc ∧ (Dev.mrvTileRow d).1.tb = d.tb ∧ (Dev.mrvTileRow d).1.clk = d.clk ∧ (Dev.mrvTileRow d).1.rst = d.rst ∧ (Dev.mrvTileRow d).1.pins = d.pins := by
  unfold Dev.mrvTileRow; dsimp only; split
  · simp
  · split
    all_goals
      next heq =>
        have e := (congrArg Prod.fst heq).symm
        dsimp only at e
        subst e
        simp

@[simp] theorem mrvRowEnds_frame (m : Dev × Option (Nat × Nat × Nat × Bool)) :
    (mrvRowEnds m).now = m.1.now ∧ (mrvRowEnds m).regs = m.1.regs ∧ (mrvRowEnds m).luts = m.1.luts ∧ (mrvRowEnds m).scene = m.1.scene ∧ (mrvRowEnds m).ledger = m.1.ledger ∧ (mrvRowEnds m).queues = m.1.queues ∧ (mrvRowEnds m).turn = m.1.turn ∧ (mrvRowEnds m).lastTurn = m.1.lastTurn ∧ (mrvRowEnds m).rings = m.1.rings ∧ (mrvRowEnds m).canvases = m.1.canvases ∧ (mrvRowEnds m).comp = m.1.comp ∧ (mrvRowEnds m).ports = m.1.ports ∧ (mrvRowEnds m).chans = m.1.chans ∧ (mrvRowEnds m).timers = m.1.timers ∧ (mrvRowEnds m).engines = m.1.engines ∧ (mrvRowEnds m).regions = m.1.regions ∧ (mrvRowEnds m).svc = m.1.svc ∧ (mrvRowEnds m).tb = m.1.tb ∧ (mrvRowEnds m).clk = m.1.clk ∧ (mrvRowEnds m).rst = m.1.rst ∧ (mrvRowEnds m).pins = m.1.pins := by
  obtain ⟨d, o⟩ := m
  cases o <;> simp [mrvRowEnds]

@[simp] theorem Dev.mrvAnswered_frame (r : Resp) (d : Dev) :
    (Dev.mrvAnswered r d).now = d.now ∧ (Dev.mrvAnswered r d).regs = d.regs ∧ (Dev.mrvAnswered r d).luts = d.luts ∧ (Dev.mrvAnswered r d).scene = d.scene ∧ (Dev.mrvAnswered r d).ledger = d.ledger ∧ (Dev.mrvAnswered r d).queues = d.queues ∧ (Dev.mrvAnswered r d).turn = d.turn ∧ (Dev.mrvAnswered r d).lastTurn = d.lastTurn ∧ (Dev.mrvAnswered r d).rings = d.rings ∧ (Dev.mrvAnswered r d).canvases = d.canvases ∧ (Dev.mrvAnswered r d).comp = d.comp ∧ (Dev.mrvAnswered r d).ports = d.ports ∧ (Dev.mrvAnswered r d).chans = d.chans ∧ (Dev.mrvAnswered r d).timers = d.timers ∧ (Dev.mrvAnswered r d).engines = d.engines ∧ (Dev.mrvAnswered r d).regions = d.regions ∧ (Dev.mrvAnswered r d).svc = d.svc ∧ (Dev.mrvAnswered r d).tb = d.tb ∧ (Dev.mrvAnswered r d).clk = d.clk ∧ (Dev.mrvAnswered r d).rst = d.rst ∧ (Dev.mrvAnswered r d).pins = d.pins := by
  unfold Dev.mrvAnswered
  split
  · simp
  · unfold Dev.when; split
    · cases r
      · dsimp only; split <;> simp
      · simp
    · simp

@[simp] theorem Dev.mrvWatermark_frame (d : Dev) :
    (Dev.mrvWatermark d).now = d.now ∧ (Dev.mrvWatermark d).regs = d.regs ∧ (Dev.mrvWatermark d).luts = d.luts ∧ (Dev.mrvWatermark d).mem = d.mem ∧ (Dev.mrvWatermark d).scene = d.scene ∧ (Dev.mrvWatermark d).ledger = d.ledger ∧ (Dev.mrvWatermark d).queues = d.queues ∧ (Dev.mrvWatermark d).turn = d.turn ∧ (Dev.mrvWatermark d).lastTurn = d.lastTurn ∧ (Dev.mrvWatermark d).rings = d.rings ∧ (Dev.mrvWatermark d).canvases = d.canvases ∧ (Dev.mrvWatermark d).comp = d.comp ∧ (Dev.mrvWatermark d).ports = d.ports ∧ (Dev.mrvWatermark d).chans = d.chans ∧ (Dev.mrvWatermark d).timers = d.timers ∧ (Dev.mrvWatermark d).engines = d.engines ∧ (Dev.mrvWatermark d).regions = d.regions ∧ (Dev.mrvWatermark d).mct = d.mct ∧ (Dev.mrvWatermark d).cru = d.cru ∧ (Dev.mrvWatermark d).acc = d.acc ∧ (Dev.mrvWatermark d).flt = d.flt ∧ (Dev.mrvWatermark d).svc = d.svc ∧ (Dev.mrvWatermark d).tb = d.tb ∧ (Dev.mrvWatermark d).clk = d.clk ∧ (Dev.mrvWatermark d).rst = d.rst ∧ (Dev.mrvWatermark d).pins = d.pins := by
  simp [Dev.mrvWatermark]

@[simp] theorem Dev.mrvGranted_frame (a : Nat) (d : Dev) :
    (Dev.mrvGranted a d).now = d.now ∧ (Dev.mrvGranted a d).regs = d.regs ∧ (Dev.mrvGranted a d).luts = d.luts ∧ (Dev.mrvGranted a d).mem = d.mem ∧ (Dev.mrvGranted a d).scene = d.scene ∧ (Dev.mrvGranted a d).ledger = d.ledger ∧ (Dev.mrvGranted a d).queues = d.queues ∧ (Dev.mrvGranted a d).turn = d.turn ∧ (Dev.mrvGranted a d).lastTurn = d.lastTurn ∧ (Dev.mrvGranted a d).rings = d.rings ∧ (Dev.mrvGranted a d).canvases = d.canvases ∧ (Dev.mrvGranted a d).comp = d.comp ∧ (Dev.mrvGranted a d).ports = d.ports ∧ (Dev.mrvGranted a d).chans = d.chans ∧ (Dev.mrvGranted a d).timers = d.timers ∧ (Dev.mrvGranted a d).engines = d.engines ∧ (Dev.mrvGranted a d).regions = d.regions ∧ (Dev.mrvGranted a d).mct = d.mct ∧ (Dev.mrvGranted a d).cru = d.cru ∧ (Dev.mrvGranted a d).acc = d.acc ∧ (Dev.mrvGranted a d).flt = d.flt ∧ (Dev.mrvGranted a d).svc = d.svc ∧ (Dev.mrvGranted a d).tb = d.tb ∧ (Dev.mrvGranted a d).clk = d.clk ∧ (Dev.mrvGranted a d).rst = d.rst ∧ (Dev.mrvGranted a d).hif = d.hif ∧ (Dev.mrvGranted a d).pins = d.pins := by
  simp [Dev.mrvGranted]

@[simp] theorem Dev.nextRetrain_frame (g : Nat) (d : Dev) :
    (Dev.nextRetrain g d).now = d.now ∧ (Dev.nextRetrain g d).regs = d.regs ∧ (Dev.nextRetrain g d).luts = d.luts ∧ (Dev.nextRetrain g d).mem = d.mem ∧ (Dev.nextRetrain g d).scene = d.scene ∧ (Dev.nextRetrain g d).ledger = d.ledger ∧ (Dev.nextRetrain g d).queues = d.queues ∧ (Dev.nextRetrain g d).turn = d.turn ∧ (Dev.nextRetrain g d).lastTurn = d.lastTurn ∧ (Dev.nextRetrain g d).rings = d.rings ∧ (Dev.nextRetrain g d).canvases = d.canvases ∧ (Dev.nextRetrain g d).comp = d.comp ∧ (Dev.nextRetrain g d).ports = d.ports ∧ (Dev.nextRetrain g d).chans = d.chans ∧ (Dev.nextRetrain g d).timers = d.timers ∧ (Dev.nextRetrain g d).mrv = d.mrv ∧ (Dev.nextRetrain g d).engines = d.engines ∧ (Dev.nextRetrain g d).regions = d.regions ∧ (Dev.nextRetrain g d).cru = d.cru ∧ (Dev.nextRetrain g d).acc = d.acc ∧ (Dev.nextRetrain g d).flt = d.flt ∧ (Dev.nextRetrain g d).svc = d.svc ∧ (Dev.nextRetrain g d).tb = d.tb ∧ (Dev.nextRetrain g d).clk = d.clk ∧ (Dev.nextRetrain g d).rst = d.rst ∧ (Dev.nextRetrain g d).hif = d.hif ∧ (Dev.nextRetrain g d).pins = d.pins := by
  unfold Dev.nextRetrain; (repeat' split) <;> simp

@[simp] theorem Dev.requestRetrain_frame (l : Nat) (cause : Nat) (d : Dev) :
    (Dev.requestRetrain l cause d).now = d.now ∧ (Dev.requestRetrain l cause d).regs = d.regs ∧ (Dev.requestRetrain l cause d).luts = d.luts ∧ (Dev.requestRetrain l cause d).mem = d.mem ∧ (Dev.requestRetrain l cause d).scene = d.scene ∧ (Dev.requestRetrain l cause d).ledger = d.ledger ∧ (Dev.requestRetrain l cause d).queues = d.queues ∧ (Dev.requestRetrain l cause d).turn = d.turn ∧ (Dev.requestRetrain l cause d).lastTurn = d.lastTurn ∧ (Dev.requestRetrain l cause d).rings = d.rings ∧ (Dev.requestRetrain l cause d).canvases = d.canvases ∧ (Dev.requestRetrain l cause d).comp = d.comp ∧ (Dev.requestRetrain l cause d).ports = d.ports ∧ (Dev.requestRetrain l cause d).chans = d.chans ∧ (Dev.requestRetrain l cause d).timers = d.timers ∧ (Dev.requestRetrain l cause d).mrv = d.mrv ∧ (Dev.requestRetrain l cause d).engines = d.engines ∧ (Dev.requestRetrain l cause d).regions = d.regions ∧ (Dev.requestRetrain l cause d).cru = d.cru ∧ (Dev.requestRetrain l cause d).acc = d.acc ∧ (Dev.requestRetrain l cause d).svc = d.svc ∧ (Dev.requestRetrain l cause d).tb = d.tb ∧ (Dev.requestRetrain l cause d).clk = d.clk ∧ (Dev.requestRetrain l cause d).rst = d.rst ∧ (Dev.requestRetrain l cause d).hif = d.hif ∧ (Dev.requestRetrain l cause d).pins = d.pins := by
  simp [Dev.requestRetrain]

@[simp] theorem Dev.autoRetrain_frame (l : Nat) (cause : Nat) (d : Dev) :
    (Dev.autoRetrain l cause d).now = d.now ∧ (Dev.autoRetrain l cause d).regs = d.regs ∧ (Dev.autoRetrain l cause d).luts = d.luts ∧ (Dev.autoRetrain l cause d).mem = d.mem ∧ (Dev.autoRetrain l cause d).scene = d.scene ∧ (Dev.autoRetrain l cause d).ledger = d.ledger ∧ (Dev.autoRetrain l cause d).queues = d.queues ∧ (Dev.autoRetrain l cause d).turn = d.turn ∧ (Dev.autoRetrain l cause d).lastTurn = d.lastTurn ∧ (Dev.autoRetrain l cause d).rings = d.rings ∧ (Dev.autoRetrain l cause d).canvases = d.canvases ∧ (Dev.autoRetrain l cause d).comp = d.comp ∧ (Dev.autoRetrain l cause d).ports = d.ports ∧ (Dev.autoRetrain l cause d).chans = d.chans ∧ (Dev.autoRetrain l cause d).timers = d.timers ∧ (Dev.autoRetrain l cause d).mrv = d.mrv ∧ (Dev.autoRetrain l cause d).engines = d.engines ∧ (Dev.autoRetrain l cause d).regions = d.regions ∧ (Dev.autoRetrain l cause d).cru = d.cru ∧ (Dev.autoRetrain l cause d).acc = d.acc ∧ (Dev.autoRetrain l cause d).svc = d.svc ∧ (Dev.autoRetrain l cause d).tb = d.tb ∧ (Dev.autoRetrain l cause d).clk = d.clk ∧ (Dev.autoRetrain l cause d).rst = d.rst ∧ (Dev.autoRetrain l cause d).hif = d.hif ∧ (Dev.autoRetrain l cause d).pins = d.pins := by
  simp [Dev.autoRetrain]

@[simp] theorem Dev.eyeWindow_frame (l : Nat) (width : Nat) (d : Dev) :
    (Dev.eyeWindow l width d).now = d.now ∧ (Dev.eyeWindow l width d).regs = d.regs ∧ (Dev.eyeWindow l width d).luts = d.luts ∧ (Dev.eyeWindow l width d).mem = d.mem ∧ (Dev.eyeWindow l width d).scene = d.scene ∧ (Dev.eyeWindow l width d).ledger = d.ledger ∧ (Dev.eyeWindow l width d).queues = d.queues ∧ (Dev.eyeWindow l width d).turn = d.turn ∧ (Dev.eyeWindow l width d).lastTurn = d.lastTurn ∧ (Dev.eyeWindow l width d).rings = d.rings ∧ (Dev.eyeWindow l width d).canvases = d.canvases ∧ (Dev.eyeWindow l width d).comp = d.comp ∧ (Dev.eyeWindow l width d).ports = d.ports ∧ (Dev.eyeWindow l width d).chans = d.chans ∧ (Dev.eyeWindow l width d).timers = d.timers ∧ (Dev.eyeWindow l width d).mrv = d.mrv ∧ (Dev.eyeWindow l width d).engines = d.engines ∧ (Dev.eyeWindow l width d).regions = d.regions ∧ (Dev.eyeWindow l width d).cru = d.cru ∧ (Dev.eyeWindow l width d).acc = d.acc ∧ (Dev.eyeWindow l width d).svc = d.svc ∧ (Dev.eyeWindow l width d).tb = d.tb ∧ (Dev.eyeWindow l width d).clk = d.clk ∧ (Dev.eyeWindow l width d).rst = d.rst ∧ (Dev.eyeWindow l width d).hif = d.hif ∧ (Dev.eyeWindow l width d).pins = d.pins := by
  simp [Dev.eyeWindow]

@[simp] theorem Dev.laneBurst_frame (l : Nat) (m : Nat) (d : Dev) :
    (Dev.laneBurst l m d).now = d.now ∧ (Dev.laneBurst l m d).regs = d.regs ∧ (Dev.laneBurst l m d).luts = d.luts ∧ (Dev.laneBurst l m d).mem = d.mem ∧ (Dev.laneBurst l m d).scene = d.scene ∧ (Dev.laneBurst l m d).ledger = d.ledger ∧ (Dev.laneBurst l m d).queues = d.queues ∧ (Dev.laneBurst l m d).turn = d.turn ∧ (Dev.laneBurst l m d).lastTurn = d.lastTurn ∧ (Dev.laneBurst l m d).rings = d.rings ∧ (Dev.laneBurst l m d).canvases = d.canvases ∧ (Dev.laneBurst l m d).comp = d.comp ∧ (Dev.laneBurst l m d).ports = d.ports ∧ (Dev.laneBurst l m d).chans = d.chans ∧ (Dev.laneBurst l m d).timers = d.timers ∧ (Dev.laneBurst l m d).mrv = d.mrv ∧ (Dev.laneBurst l m d).engines = d.engines ∧ (Dev.laneBurst l m d).regions = d.regions ∧ (Dev.laneBurst l m d).cru = d.cru ∧ (Dev.laneBurst l m d).acc = d.acc ∧ (Dev.laneBurst l m d).flt = d.flt ∧ (Dev.laneBurst l m d).svc = d.svc ∧ (Dev.laneBurst l m d).tb = d.tb ∧ (Dev.laneBurst l m d).clk = d.clk ∧ (Dev.laneBurst l m d).rst = d.rst ∧ (Dev.laneBurst l m d).hif = d.hif ∧ (Dev.laneBurst l m d).pins = d.pins := by
  unfold Dev.laneBurst; try dsimp only
  (repeat' split) <;> simp

@[simp] theorem Dev.laneGrants_frame (d : Dev) :
    (Dev.laneGrants d).now = d.now ∧ (Dev.laneGrants d).regs = d.regs ∧ (Dev.laneGrants d).luts = d.luts ∧ (Dev.laneGrants d).mem = d.mem ∧ (Dev.laneGrants d).scene = d.scene ∧ (Dev.laneGrants d).ledger = d.ledger ∧ (Dev.laneGrants d).queues = d.queues ∧ (Dev.laneGrants d).turn = d.turn ∧ (Dev.laneGrants d).lastTurn = d.lastTurn ∧ (Dev.laneGrants d).rings = d.rings ∧ (Dev.laneGrants d).canvases = d.canvases ∧ (Dev.laneGrants d).comp = d.comp ∧ (Dev.laneGrants d).ports = d.ports ∧ (Dev.laneGrants d).chans = d.chans ∧ (Dev.laneGrants d).timers = d.timers ∧ (Dev.laneGrants d).mrv = d.mrv ∧ (Dev.laneGrants d).engines = d.engines ∧ (Dev.laneGrants d).regions = d.regions ∧ (Dev.laneGrants d).cru = d.cru ∧ (Dev.laneGrants d).acc = d.acc ∧ (Dev.laneGrants d).flt = d.flt ∧ (Dev.laneGrants d).svc = d.svc ∧ (Dev.laneGrants d).tb = d.tb ∧ (Dev.laneGrants d).clk = d.clk ∧ (Dev.laneGrants d).rst = d.rst ∧ (Dev.laneGrants d).hif = d.hif ∧ (Dev.laneGrants d).pins = d.pins := by
  simp [Dev.laneGrants]

@[simp] theorem Dev.countMove_frame (d : Dev) :
    (Dev.countMove d).now = d.now ∧ (Dev.countMove d).regs = d.regs ∧ (Dev.countMove d).luts = d.luts ∧ (Dev.countMove d).mem = d.mem ∧ (Dev.countMove d).scene = d.scene ∧ (Dev.countMove d).ledger = d.ledger ∧ (Dev.countMove d).queues = d.queues ∧ (Dev.countMove d).turn = d.turn ∧ (Dev.countMove d).lastTurn = d.lastTurn ∧ (Dev.countMove d).rings = d.rings ∧ (Dev.countMove d).canvases = d.canvases ∧ (Dev.countMove d).comp = d.comp ∧ (Dev.countMove d).ports = d.ports ∧ (Dev.countMove d).chans = d.chans ∧ (Dev.countMove d).timers = d.timers ∧ (Dev.countMove d).mrv = d.mrv ∧ (Dev.countMove d).engines = d.engines ∧ (Dev.countMove d).regions = d.regions ∧ (Dev.countMove d).cru = d.cru ∧ (Dev.countMove d).acc = d.acc ∧ (Dev.countMove d).flt = d.flt ∧ (Dev.countMove d).svc = d.svc ∧ (Dev.countMove d).tb = d.tb ∧ (Dev.countMove d).clk = d.clk ∧ (Dev.countMove d).rst = d.rst ∧ (Dev.countMove d).hif = d.hif ∧ (Dev.countMove d).pins = d.pins := by
  simp [Dev.countMove]

@[simp] theorem Dev.moveLane_frame (l : Nat) (d : Dev) :
    (Dev.moveLane l d).now = d.now ∧ (Dev.moveLane l d).regs = d.regs ∧ (Dev.moveLane l d).luts = d.luts ∧ (Dev.moveLane l d).mem = d.mem ∧ (Dev.moveLane l d).scene = d.scene ∧ (Dev.moveLane l d).ledger = d.ledger ∧ (Dev.moveLane l d).queues = d.queues ∧ (Dev.moveLane l d).turn = d.turn ∧ (Dev.moveLane l d).lastTurn = d.lastTurn ∧ (Dev.moveLane l d).rings = d.rings ∧ (Dev.moveLane l d).canvases = d.canvases ∧ (Dev.moveLane l d).comp = d.comp ∧ (Dev.moveLane l d).ports = d.ports ∧ (Dev.moveLane l d).chans = d.chans ∧ (Dev.moveLane l d).timers = d.timers ∧ (Dev.moveLane l d).mrv = d.mrv ∧ (Dev.moveLane l d).engines = d.engines ∧ (Dev.moveLane l d).regions = d.regions ∧ (Dev.moveLane l d).cru = d.cru ∧ (Dev.moveLane l d).acc = d.acc ∧ (Dev.moveLane l d).svc = d.svc ∧ (Dev.moveLane l d).tb = d.tb ∧ (Dev.moveLane l d).clk = d.clk ∧ (Dev.moveLane l d).rst = d.rst ∧ (Dev.moveLane l d).hif = d.hif ∧ (Dev.moveLane l d).pins = d.pins := by
  unfold Dev.moveLane; try dsimp only
  (repeat' split) <;> simp

@[simp] theorem Dev.overrideLane_frame (l : Nat) (w : Word) (d : Dev) :
    (Dev.overrideLane l w d).now = d.now ∧ (Dev.overrideLane l w d).luts = d.luts ∧ (Dev.overrideLane l w d).mem = d.mem ∧ (Dev.overrideLane l w d).scene = d.scene ∧ (Dev.overrideLane l w d).ledger = d.ledger ∧ (Dev.overrideLane l w d).queues = d.queues ∧ (Dev.overrideLane l w d).turn = d.turn ∧ (Dev.overrideLane l w d).lastTurn = d.lastTurn ∧ (Dev.overrideLane l w d).rings = d.rings ∧ (Dev.overrideLane l w d).canvases = d.canvases ∧ (Dev.overrideLane l w d).comp = d.comp ∧ (Dev.overrideLane l w d).ports = d.ports ∧ (Dev.overrideLane l w d).chans = d.chans ∧ (Dev.overrideLane l w d).timers = d.timers ∧ (Dev.overrideLane l w d).mrv = d.mrv ∧ (Dev.overrideLane l w d).engines = d.engines ∧ (Dev.overrideLane l w d).regions = d.regions ∧ (Dev.overrideLane l w d).cru = d.cru ∧ (Dev.overrideLane l w d).acc = d.acc ∧ (Dev.overrideLane l w d).flt = d.flt ∧ (Dev.overrideLane l w d).svc = d.svc ∧ (Dev.overrideLane l w d).tb = d.tb ∧ (Dev.overrideLane l w d).clk = d.clk ∧ (Dev.overrideLane l w d).rst = d.rst ∧ (Dev.overrideLane l w d).hif = d.hif ∧ (Dev.overrideLane l w d).pins = d.pins := by
  unfold Dev.overrideLane; try dsimp only
  (repeat' split) <;> simp

@[simp] theorem Dev.lanesOff_frame (s : Nat) (d : Dev) :
    (Dev.lanesOff s d).now = d.now ∧ (Dev.lanesOff s d).regs = d.regs ∧ (Dev.lanesOff s d).luts = d.luts ∧ (Dev.lanesOff s d).mem = d.mem ∧ (Dev.lanesOff s d).scene = d.scene ∧ (Dev.lanesOff s d).ledger = d.ledger ∧ (Dev.lanesOff s d).queues = d.queues ∧ (Dev.lanesOff s d).turn = d.turn ∧ (Dev.lanesOff s d).lastTurn = d.lastTurn ∧ (Dev.lanesOff s d).rings = d.rings ∧ (Dev.lanesOff s d).canvases = d.canvases ∧ (Dev.lanesOff s d).comp = d.comp ∧ (Dev.lanesOff s d).ports = d.ports ∧ (Dev.lanesOff s d).chans = d.chans ∧ (Dev.lanesOff s d).timers = d.timers ∧ (Dev.lanesOff s d).mrv = d.mrv ∧ (Dev.lanesOff s d).engines = d.engines ∧ (Dev.lanesOff s d).regions = d.regions ∧ (Dev.lanesOff s d).cru = d.cru ∧ (Dev.lanesOff s d).acc = d.acc ∧ (Dev.lanesOff s d).flt = d.flt ∧ (Dev.lanesOff s d).svc = d.svc ∧ (Dev.lanesOff s d).tb = d.tb ∧ (Dev.lanesOff s d).clk = d.clk ∧ (Dev.lanesOff s d).rst = d.rst ∧ (Dev.lanesOff s d).hif = d.hif ∧ (Dev.lanesOff s d).pins = d.pins := by
  simp [Dev.lanesOff]

@[simp] theorem Dev.setSpare_frame (sp : Spare) (gone : List Nat) (d : Dev) :
    (Dev.setSpare sp gone d).now = d.now ∧ (Dev.setSpare sp gone d).regs = d.regs ∧ (Dev.setSpare sp gone d).luts = d.luts ∧ (Dev.setSpare sp gone d).mem = d.mem ∧ (Dev.setSpare sp gone d).scene = d.scene ∧ (Dev.setSpare sp gone d).ledger = d.ledger ∧ (Dev.setSpare sp gone d).queues = d.queues ∧ (Dev.setSpare sp gone d).turn = d.turn ∧ (Dev.setSpare sp gone d).lastTurn = d.lastTurn ∧ (Dev.setSpare sp gone d).rings = d.rings ∧ (Dev.setSpare sp gone d).canvases = d.canvases ∧ (Dev.setSpare sp gone d).comp = d.comp ∧ (Dev.setSpare sp gone d).ports = d.ports ∧ (Dev.setSpare sp gone d).chans = d.chans ∧ (Dev.setSpare sp gone d).timers = d.timers ∧ (Dev.setSpare sp gone d).mrv = d.mrv ∧ (Dev.setSpare sp gone d).engines = d.engines ∧ (Dev.setSpare sp gone d).regions = d.regions ∧ (Dev.setSpare sp gone d).cru = d.cru ∧ (Dev.setSpare sp gone d).acc = d.acc ∧ (Dev.setSpare sp gone d).flt = d.flt ∧ (Dev.setSpare sp gone d).svc = d.svc ∧ (Dev.setSpare sp gone d).tb = d.tb ∧ (Dev.setSpare sp gone d).clk = d.clk ∧ (Dev.setSpare sp gone d).rst = d.rst ∧ (Dev.setSpare sp gone d).hif = d.hif ∧ (Dev.setSpare sp gone d).pins = d.pins := by
  simp [Dev.setSpare]

@[simp] theorem Dev.spareIsLost_frame (d : Dev) :
    (Dev.spareIsLost d).now = d.now ∧ (Dev.spareIsLost d).regs = d.regs ∧ (Dev.spareIsLost d).luts = d.luts ∧ (Dev.spareIsLost d).mem = d.mem ∧ (Dev.spareIsLost d).scene = d.scene ∧ (Dev.spareIsLost d).ledger = d.ledger ∧ (Dev.spareIsLost d).queues = d.queues ∧ (Dev.spareIsLost d).turn = d.turn ∧ (Dev.spareIsLost d).lastTurn = d.lastTurn ∧ (Dev.spareIsLost d).rings = d.rings ∧ (Dev.spareIsLost d).canvases = d.canvases ∧ (Dev.spareIsLost d).comp = d.comp ∧ (Dev.spareIsLost d).ports = d.ports ∧ (Dev.spareIsLost d).chans = d.chans ∧ (Dev.spareIsLost d).timers = d.timers ∧ (Dev.spareIsLost d).mrv = d.mrv ∧ (Dev.spareIsLost d).engines = d.engines ∧ (Dev.spareIsLost d).regions = d.regions ∧ (Dev.spareIsLost d).cru = d.cru ∧ (Dev.spareIsLost d).acc = d.acc ∧ (Dev.spareIsLost d).svc = d.svc ∧ (Dev.spareIsLost d).tb = d.tb ∧ (Dev.spareIsLost d).clk = d.clk ∧ (Dev.spareIsLost d).rst = d.rst ∧ (Dev.spareIsLost d).hif = d.hif ∧ (Dev.spareIsLost d).pins = d.pins := by
  simp [Dev.spareIsLost]

@[simp] theorem Dev.loseSpare_frame (cause : Nat) (d : Dev) :
    (Dev.loseSpare cause d).now = d.now ∧ (Dev.loseSpare cause d).regs = d.regs ∧ (Dev.loseSpare cause d).luts = d.luts ∧ (Dev.loseSpare cause d).mem = d.mem ∧ (Dev.loseSpare cause d).scene = d.scene ∧ (Dev.loseSpare cause d).ledger = d.ledger ∧ (Dev.loseSpare cause d).queues = d.queues ∧ (Dev.loseSpare cause d).turn = d.turn ∧ (Dev.loseSpare cause d).lastTurn = d.lastTurn ∧ (Dev.loseSpare cause d).rings = d.rings ∧ (Dev.loseSpare cause d).canvases = d.canvases ∧ (Dev.loseSpare cause d).comp = d.comp ∧ (Dev.loseSpare cause d).ports = d.ports ∧ (Dev.loseSpare cause d).chans = d.chans ∧ (Dev.loseSpare cause d).timers = d.timers ∧ (Dev.loseSpare cause d).mrv = d.mrv ∧ (Dev.loseSpare cause d).engines = d.engines ∧ (Dev.loseSpare cause d).regions = d.regions ∧ (Dev.loseSpare cause d).cru = d.cru ∧ (Dev.loseSpare cause d).acc = d.acc ∧ (Dev.loseSpare cause d).svc = d.svc ∧ (Dev.loseSpare cause d).tb = d.tb ∧ (Dev.loseSpare cause d).clk = d.clk ∧ (Dev.loseSpare cause d).rst = d.rst ∧ (Dev.loseSpare cause d).hif = d.hif ∧ (Dev.loseSpare cause d).pins = d.pins := by
  unfold Dev.loseSpare; (repeat' split) <;> simp

@[simp] theorem Dev.losePosition_frame (p : Nat) (cause : Nat) (d : Dev) :
    (Dev.losePosition p cause d).now = d.now ∧ (Dev.losePosition p cause d).regs = d.regs ∧ (Dev.losePosition p cause d).luts = d.luts ∧ (Dev.losePosition p cause d).mem = d.mem ∧ (Dev.losePosition p cause d).scene = d.scene ∧ (Dev.losePosition p cause d).ledger = d.ledger ∧ (Dev.losePosition p cause d).queues = d.queues ∧ (Dev.losePosition p cause d).turn = d.turn ∧ (Dev.losePosition p cause d).lastTurn = d.lastTurn ∧ (Dev.losePosition p cause d).rings = d.rings ∧ (Dev.losePosition p cause d).canvases = d.canvases ∧ (Dev.losePosition p cause d).comp = d.comp ∧ (Dev.losePosition p cause d).ports = d.ports ∧ (Dev.losePosition p cause d).chans = d.chans ∧ (Dev.losePosition p cause d).timers = d.timers ∧ (Dev.losePosition p cause d).mrv = d.mrv ∧ (Dev.losePosition p cause d).engines = d.engines ∧ (Dev.losePosition p cause d).regions = d.regions ∧ (Dev.losePosition p cause d).cru = d.cru ∧ (Dev.losePosition p cause d).acc = d.acc ∧ (Dev.losePosition p cause d).svc = d.svc ∧ (Dev.losePosition p cause d).tb = d.tb ∧ (Dev.losePosition p cause d).clk = d.clk ∧ (Dev.losePosition p cause d).rst = d.rst ∧ (Dev.losePosition p cause d).hif = d.hif ∧ (Dev.losePosition p cause d).pins = d.pins := by
  unfold Dev.losePosition; (repeat' split) <;> simp

@[simp] theorem Dev.fenceSite_frame (s : Nat) (cause : Nat) (d : Dev) :
    (Dev.fenceSite s cause d).now = d.now ∧ (Dev.fenceSite s cause d).regs = d.regs ∧ (Dev.fenceSite s cause d).luts = d.luts ∧ (Dev.fenceSite s cause d).mem = d.mem ∧ (Dev.fenceSite s cause d).ledger = d.ledger ∧ (Dev.fenceSite s cause d).queues = d.queues ∧ (Dev.fenceSite s cause d).turn = d.turn ∧ (Dev.fenceSite s cause d).lastTurn = d.lastTurn ∧ (Dev.fenceSite s cause d).rings = d.rings ∧ (Dev.fenceSite s cause d).canvases = d.canvases ∧ (Dev.fenceSite s cause d).comp = d.comp ∧ (Dev.fenceSite s cause d).ports = d.ports ∧ (Dev.fenceSite s cause d).chans = d.chans ∧ (Dev.fenceSite s cause d).timers = d.timers ∧ (Dev.fenceSite s cause d).mrv = d.mrv ∧ (Dev.fenceSite s cause d).engines = d.engines ∧ (Dev.fenceSite s cause d).regions = d.regions ∧ (Dev.fenceSite s cause d).cru = d.cru ∧ (Dev.fenceSite s cause d).acc = d.acc ∧ (Dev.fenceSite s cause d).svc = d.svc ∧ (Dev.fenceSite s cause d).tb = d.tb ∧ (Dev.fenceSite s cause d).clk = d.clk ∧ (Dev.fenceSite s cause d).rst = d.rst ∧ (Dev.fenceSite s cause d).hif = d.hif ∧ (Dev.fenceSite s cause d).pins = d.pins := by
  simp [Dev.fenceSite]

@[simp] theorem Dev.joinQueue_frame (r : MemReq) (d : Dev) :
    (Dev.joinQueue r d).now = d.now ∧ (Dev.joinQueue r d).regs = d.regs ∧ (Dev.joinQueue r d).luts = d.luts ∧ (Dev.joinQueue r d).mem = d.mem ∧ (Dev.joinQueue r d).scene = d.scene ∧ (Dev.joinQueue r d).ledger = d.ledger ∧ (Dev.joinQueue r d).queues = d.queues ∧ (Dev.joinQueue r d).turn = d.turn ∧ (Dev.joinQueue r d).lastTurn = d.lastTurn ∧ (Dev.joinQueue r d).rings = d.rings ∧ (Dev.joinQueue r d).canvases = d.canvases ∧ (Dev.joinQueue r d).comp = d.comp ∧ (Dev.joinQueue r d).ports = d.ports ∧ (Dev.joinQueue r d).chans = d.chans ∧ (Dev.joinQueue r d).timers = d.timers ∧ (Dev.joinQueue r d).mrv = d.mrv ∧ (Dev.joinQueue r d).engines = d.engines ∧ (Dev.joinQueue r d).regions = d.regions ∧ (Dev.joinQueue r d).cru = d.cru ∧ (Dev.joinQueue r d).acc = d.acc ∧ (Dev.joinQueue r d).flt = d.flt ∧ (Dev.joinQueue r d).svc = d.svc ∧ (Dev.joinQueue r d).tb = d.tb ∧ (Dev.joinQueue r d).clk = d.clk ∧ (Dev.joinQueue r d).rst = d.rst ∧ (Dev.joinQueue r d).hif = d.hif ∧ (Dev.joinQueue r d).pins = d.pins := by
  simp [Dev.joinQueue]

@[simp] theorem Dev.enterQueue_frame (r : MemReq) (d : Dev) :
    (Dev.enterQueue r d).now = d.now ∧ (Dev.enterQueue r d).regs = d.regs ∧ (Dev.enterQueue r d).luts = d.luts ∧ (Dev.enterQueue r d).mem = d.mem ∧ (Dev.enterQueue r d).scene = d.scene ∧ (Dev.enterQueue r d).ledger = d.ledger ∧ (Dev.enterQueue r d).queues = d.queues ∧ (Dev.enterQueue r d).turn = d.turn ∧ (Dev.enterQueue r d).lastTurn = d.lastTurn ∧ (Dev.enterQueue r d).rings = d.rings ∧ (Dev.enterQueue r d).canvases = d.canvases ∧ (Dev.enterQueue r d).comp = d.comp ∧ (Dev.enterQueue r d).ports = d.ports ∧ (Dev.enterQueue r d).chans = d.chans ∧ (Dev.enterQueue r d).timers = d.timers ∧ (Dev.enterQueue r d).mrv = d.mrv ∧ (Dev.enterQueue r d).engines = d.engines ∧ (Dev.enterQueue r d).regions = d.regions ∧ (Dev.enterQueue r d).cru = d.cru ∧ (Dev.enterQueue r d).acc = d.acc ∧ (Dev.enterQueue r d).flt = d.flt ∧ (Dev.enterQueue r d).svc = d.svc ∧ (Dev.enterQueue r d).tb = d.tb ∧ (Dev.enterQueue r d).clk = d.clk ∧ (Dev.enterQueue r d).rst = d.rst ∧ (Dev.enterQueue r d).hif = d.hif ∧ (Dev.enterQueue r d).pins = d.pins := by
  simp [Dev.enterQueue]

@[simp] theorem Dev.admitWaiting_frame (d : Dev) :
    (Dev.admitWaiting d).now = d.now ∧ (Dev.admitWaiting d).regs = d.regs ∧ (Dev.admitWaiting d).luts = d.luts ∧ (Dev.admitWaiting d).mem = d.mem ∧ (Dev.admitWaiting d).scene = d.scene ∧ (Dev.admitWaiting d).ledger = d.ledger ∧ (Dev.admitWaiting d).queues = d.queues ∧ (Dev.admitWaiting d).turn = d.turn ∧ (Dev.admitWaiting d).lastTurn = d.lastTurn ∧ (Dev.admitWaiting d).rings = d.rings ∧ (Dev.admitWaiting d).canvases = d.canvases ∧ (Dev.admitWaiting d).comp = d.comp ∧ (Dev.admitWaiting d).ports = d.ports ∧ (Dev.admitWaiting d).chans = d.chans ∧ (Dev.admitWaiting d).timers = d.timers ∧ (Dev.admitWaiting d).mrv = d.mrv ∧ (Dev.admitWaiting d).engines = d.engines ∧ (Dev.admitWaiting d).regions = d.regions ∧ (Dev.admitWaiting d).cru = d.cru ∧ (Dev.admitWaiting d).acc = d.acc ∧ (Dev.admitWaiting d).flt = d.flt ∧ (Dev.admitWaiting d).svc = d.svc ∧ (Dev.admitWaiting d).tb = d.tb ∧ (Dev.admitWaiting d).clk = d.clk ∧ (Dev.admitWaiting d).rst = d.rst ∧ (Dev.admitWaiting d).hif = d.hif ∧ (Dev.admitWaiting d).pins = d.pins := by
  simp [Dev.admitWaiting]

@[simp] theorem Dev.answer_frame (r : MemReq) (ok : Bool) (data : List Byte) (d : Dev) :
    (Dev.answer r ok data d).now = d.now ∧ (Dev.answer r ok data d).regs = d.regs ∧ (Dev.answer r ok data d).luts = d.luts ∧ (Dev.answer r ok data d).mem = d.mem ∧ (Dev.answer r ok data d).scene = d.scene ∧ (Dev.answer r ok data d).ledger = d.ledger ∧ (Dev.answer r ok data d).queues = d.queues ∧ (Dev.answer r ok data d).turn = d.turn ∧ (Dev.answer r ok data d).lastTurn = d.lastTurn ∧ (Dev.answer r ok data d).rings = d.rings ∧ (Dev.answer r ok data d).canvases = d.canvases ∧ (Dev.answer r ok data d).comp = d.comp ∧ (Dev.answer r ok data d).ports = d.ports ∧ (Dev.answer r ok data d).chans = d.chans ∧ (Dev.answer r ok data d).timers = d.timers ∧ (Dev.answer r ok data d).mrv = d.mrv ∧ (Dev.answer r ok data d).engines = d.engines ∧ (Dev.answer r ok data d).regions = d.regions ∧ (Dev.answer r ok data d).cru = d.cru ∧ (Dev.answer r ok data d).acc = d.acc ∧ (Dev.answer r ok data d).flt = d.flt ∧ (Dev.answer r ok data d).svc = d.svc ∧ (Dev.answer r ok data d).tb = d.tb ∧ (Dev.answer r ok data d).clk = d.clk ∧ (Dev.answer r ok data d).rst = d.rst ∧ (Dev.answer r ok data d).hif = d.hif ∧ (Dev.answer r ok data d).pins = d.pins := by
  simp [Dev.answer]

@[simp] theorem Dev.respond_frame (r : MemReq) (gen : BitVec 8) (ok : Bool) (data : List Byte) (d : Dev) :
    (Dev.respond r gen ok data d).now = d.now ∧ (Dev.respond r gen ok data d).regs = d.regs ∧ (Dev.respond r gen ok data d).luts = d.luts ∧ (Dev.respond r gen ok data d).mem = d.mem ∧ (Dev.respond r gen ok data d).scene = d.scene ∧ (Dev.respond r gen ok data d).ledger = d.ledger ∧ (Dev.respond r gen ok data d).queues = d.queues ∧ (Dev.respond r gen ok data d).turn = d.turn ∧ (Dev.respond r gen ok data d).lastTurn = d.lastTurn ∧ (Dev.respond r gen ok data d).rings = d.rings ∧ (Dev.respond r gen ok data d).canvases = d.canvases ∧ (Dev.respond r gen ok data d).comp = d.comp ∧ (Dev.respond r gen ok data d).ports = d.ports ∧ (Dev.respond r gen ok data d).chans = d.chans ∧ (Dev.respond r gen ok data d).timers = d.timers ∧ (Dev.respond r gen ok data d).mrv = d.mrv ∧ (Dev.respond r gen ok data d).engines = d.engines ∧ (Dev.respond r gen ok data d).regions = d.regions ∧ (Dev.respond r gen ok data d).cru = d.cru ∧ (Dev.respond r gen ok data d).acc = d.acc ∧ (Dev.respond r gen ok data d).svc = d.svc ∧ (Dev.respond r gen ok data d).tb = d.tb ∧ (Dev.respond r gen ok data d).clk = d.clk ∧ (Dev.respond r gen ok data d).rst = d.rst ∧ (Dev.respond r gen ok data d).hif = d.hif ∧ (Dev.respond r gen ok data d).pins = d.pins := by
  simp [Dev.respond]

@[simp] theorem Dev.completeAway_frame (r : MemReq) (d : Dev) :
    (Dev.completeAway r d).now = d.now ∧ (Dev.completeAway r d).regs = d.regs ∧ (Dev.completeAway r d).luts = d.luts ∧ (Dev.completeAway r d).scene = d.scene ∧ (Dev.completeAway r d).ledger = d.ledger ∧ (Dev.completeAway r d).queues = d.queues ∧ (Dev.completeAway r d).turn = d.turn ∧ (Dev.completeAway r d).lastTurn = d.lastTurn ∧ (Dev.completeAway r d).rings = d.rings ∧ (Dev.completeAway r d).canvases = d.canvases ∧ (Dev.completeAway r d).comp = d.comp ∧ (Dev.completeAway r d).ports = d.ports ∧ (Dev.completeAway r d).chans = d.chans ∧ (Dev.completeAway r d).timers = d.timers ∧ (Dev.completeAway r d).engines = d.engines ∧ (Dev.completeAway r d).regions = d.regions ∧ (Dev.completeAway r d).svc = d.svc ∧ (Dev.completeAway r d).tb = d.tb ∧ (Dev.completeAway r d).clk = d.clk ∧ (Dev.completeAway r d).rst = d.rst ∧ (Dev.completeAway r d).pins = d.pins := by
  unfold Dev.completeAway; try dsimp only
  (repeat' split) <;> simp

@[simp] theorem Dev.startBurst_frame (g : Nat) (f : InFlight) (d : Dev) :
    (Dev.startBurst g f d).now = d.now ∧ (Dev.startBurst g f d).regs = d.regs ∧ (Dev.startBurst g f d).luts = d.luts ∧ (Dev.startBurst g f d).mem = d.mem ∧ (Dev.startBurst g f d).scene = d.scene ∧ (Dev.startBurst g f d).ledger = d.ledger ∧ (Dev.startBurst g f d).queues = d.queues ∧ (Dev.startBurst g f d).turn = d.turn ∧ (Dev.startBurst g f d).lastTurn = d.lastTurn ∧ (Dev.startBurst g f d).rings = d.rings ∧ (Dev.startBurst g f d).canvases = d.canvases ∧ (Dev.startBurst g f d).comp = d.comp ∧ (Dev.startBurst g f d).ports = d.ports ∧ (Dev.startBurst g f d).chans = d.chans ∧ (Dev.startBurst g f d).timers = d.timers ∧ (Dev.startBurst g f d).mrv = d.mrv ∧ (Dev.startBurst g f d).engines = d.engines ∧ (Dev.startBurst g f d).regions = d.regions ∧ (Dev.startBurst g f d).cru = d.cru ∧ (Dev.startBurst g f d).acc = d.acc ∧ (Dev.startBurst g f d).flt = d.flt ∧ (Dev.startBurst g f d).svc = d.svc ∧ (Dev.startBurst g f d).tb = d.tb ∧ (Dev.startBurst g f d).clk = d.clk ∧ (Dev.startBurst g f d).rst = d.rst ∧ (Dev.startBurst g f d).hif = d.hif ∧ (Dev.startBurst g f d).pins = d.pins := by
  simp [Dev.startBurst]

@[simp] theorem Dev.issue_frame (g : Nat) (q : BankReq) (d : Dev) :
    (Dev.issue g q d).now = d.now ∧ (Dev.issue g q d).regs = d.regs ∧ (Dev.issue g q d).luts = d.luts ∧ (Dev.issue g q d).scene = d.scene ∧ (Dev.issue g q d).ledger = d.ledger ∧ (Dev.issue g q d).queues = d.queues ∧ (Dev.issue g q d).turn = d.turn ∧ (Dev.issue g q d).lastTurn = d.lastTurn ∧ (Dev.issue g q d).rings = d.rings ∧ (Dev.issue g q d).canvases = d.canvases ∧ (Dev.issue g q d).comp = d.comp ∧ (Dev.issue g q d).ports = d.ports ∧ (Dev.issue g q d).chans = d.chans ∧ (Dev.issue g q d).timers = d.timers ∧ (Dev.issue g q d).engines = d.engines ∧ (Dev.issue g q d).regions = d.regions ∧ (Dev.issue g q d).acc = d.acc ∧ (Dev.issue g q d).svc = d.svc ∧ (Dev.issue g q d).tb = d.tb ∧ (Dev.issue g q d).clk = d.clk ∧ (Dev.issue g q d).rst = d.rst ∧ (Dev.issue g q d).pins = d.pins := by
  unfold Dev.issue; try dsimp only
  (repeat' split) <;> simp

@[simp] theorem Dev.issueNext_frame (g : Nat) (d : Dev) :
    (Dev.issueNext g d).now = d.now ∧ (Dev.issueNext g d).regs = d.regs ∧ (Dev.issueNext g d).luts = d.luts ∧ (Dev.issueNext g d).scene = d.scene ∧ (Dev.issueNext g d).ledger = d.ledger ∧ (Dev.issueNext g d).queues = d.queues ∧ (Dev.issueNext g d).turn = d.turn ∧ (Dev.issueNext g d).lastTurn = d.lastTurn ∧ (Dev.issueNext g d).rings = d.rings ∧ (Dev.issueNext g d).canvases = d.canvases ∧ (Dev.issueNext g d).comp = d.comp ∧ (Dev.issueNext g d).ports = d.ports ∧ (Dev.issueNext g d).chans = d.chans ∧ (Dev.issueNext g d).timers = d.timers ∧ (Dev.issueNext g d).engines = d.engines ∧ (Dev.issueNext g d).regions = d.regions ∧ (Dev.issueNext g d).acc = d.acc ∧ (Dev.issueNext g d).svc = d.svc ∧ (Dev.issueNext g d).tb = d.tb ∧ (Dev.issueNext g d).clk = d.clk ∧ (Dev.issueNext g d).rst = d.rst ∧ (Dev.issueNext g d).pins = d.pins := by
  unfold Dev.issueNext; try dsimp only
  (repeat' split) <;> simp

@[simp] theorem Dev.overRate_frame (s : Nat) (before : Bool) (d : Dev) :
    (Dev.overRate s before d).now = d.now ∧ (Dev.overRate s before d).regs = d.regs ∧ (Dev.overRate s before d).luts = d.luts ∧ (Dev.overRate s before d).mem = d.mem ∧ (Dev.overRate s before d).ledger = d.ledger ∧ (Dev.overRate s before d).queues = d.queues ∧ (Dev.overRate s before d).turn = d.turn ∧ (Dev.overRate s before d).lastTurn = d.lastTurn ∧ (Dev.overRate s before d).rings = d.rings ∧ (Dev.overRate s before d).canvases = d.canvases ∧ (Dev.overRate s before d).comp = d.comp ∧ (Dev.overRate s before d).ports = d.ports ∧ (Dev.overRate s before d).chans = d.chans ∧ (Dev.overRate s before d).timers = d.timers ∧ (Dev.overRate s before d).mrv = d.mrv ∧ (Dev.overRate s before d).engines = d.engines ∧ (Dev.overRate s before d).regions = d.regions ∧ (Dev.overRate s before d).cru = d.cru ∧ (Dev.overRate s before d).acc = d.acc ∧ (Dev.overRate s before d).svc = d.svc ∧ (Dev.overRate s before d).tb = d.tb ∧ (Dev.overRate s before d).clk = d.clk ∧ (Dev.overRate s before d).rst = d.rst ∧ (Dev.overRate s before d).hif = d.hif ∧ (Dev.overRate s before d).pins = d.pins := by
  simp [Dev.overRate]

@[simp] theorem Dev.linkFailed_frame (s : Nat) (d : Dev) :
    (Dev.linkFailed s d).now = d.now ∧ (Dev.linkFailed s d).regs = d.regs ∧ (Dev.linkFailed s d).luts = d.luts ∧ (Dev.linkFailed s d).mem = d.mem ∧ (Dev.linkFailed s d).ledger = d.ledger ∧ (Dev.linkFailed s d).queues = d.queues ∧ (Dev.linkFailed s d).turn = d.turn ∧ (Dev.linkFailed s d).lastTurn = d.lastTurn ∧ (Dev.linkFailed s d).rings = d.rings ∧ (Dev.linkFailed s d).canvases = d.canvases ∧ (Dev.linkFailed s d).comp = d.comp ∧ (Dev.linkFailed s d).ports = d.ports ∧ (Dev.linkFailed s d).chans = d.chans ∧ (Dev.linkFailed s d).timers = d.timers ∧ (Dev.linkFailed s d).mrv = d.mrv ∧ (Dev.linkFailed s d).engines = d.engines ∧ (Dev.linkFailed s d).regions = d.regions ∧ (Dev.linkFailed s d).cru = d.cru ∧ (Dev.linkFailed s d).acc = d.acc ∧ (Dev.linkFailed s d).svc = d.svc ∧ (Dev.linkFailed s d).tb = d.tb ∧ (Dev.linkFailed s d).clk = d.clk ∧ (Dev.linkFailed s d).rst = d.rst ∧ (Dev.linkFailed s d).hif = d.hif ∧ (Dev.linkFailed s d).pins = d.pins := by
  simp [Dev.linkFailed]

@[simp] theorem Dev.references_frame (g : Nat) (i : BurstInput) (bs : List Byte) (beats gone sites : List Nat) (d : Dev) :
    (Dev.references g i bs beats gone sites d).now = d.now ∧ (Dev.references g i bs beats gone sites d).regs = d.regs ∧ (Dev.references g i bs beats gone sites d).luts = d.luts ∧ (Dev.references g i bs beats gone sites d).mem = d.mem ∧ (Dev.references g i bs beats gone sites d).scene = d.scene ∧ (Dev.references g i bs beats gone sites d).ledger = d.ledger ∧ (Dev.references g i bs beats gone sites d).queues = d.queues ∧ (Dev.references g i bs beats gone sites d).turn = d.turn ∧ (Dev.references g i bs beats gone sites d).lastTurn = d.lastTurn ∧ (Dev.references g i bs beats gone sites d).rings = d.rings ∧ (Dev.references g i bs beats gone sites d).canvases = d.canvases ∧ (Dev.references g i bs beats gone sites d).comp = d.comp ∧ (Dev.references g i bs beats gone sites d).ports = d.ports ∧ (Dev.references g i bs beats gone sites d).chans = d.chans ∧ (Dev.references g i bs beats gone sites d).timers = d.timers ∧ (Dev.references g i bs beats gone sites d).mrv = d.mrv ∧ (Dev.references g i bs beats gone sites d).engines = d.engines ∧ (Dev.references g i bs beats gone sites d).regions = d.regions ∧ (Dev.references g i bs beats gone sites d).cru = d.cru ∧ (Dev.references g i bs beats gone sites d).acc = d.acc ∧ (Dev.references g i bs beats gone sites d).flt = d.flt ∧ (Dev.references g i bs beats gone sites d).svc = d.svc ∧ (Dev.references g i bs beats gone sites d).tb = d.tb ∧ (Dev.references g i bs beats gone sites d).clk = d.clk ∧ (Dev.references g i bs beats gone sites d).rst = d.rst ∧ (Dev.references g i bs beats gone sites d).hif = d.hif ∧ (Dev.references g i bs beats gone sites d).pins = d.pins := by
  unfold Dev.references
  refine foldl_rel (fun x y => x.now = y.now ∧ x.regs = y.regs ∧ x.luts = y.luts ∧ x.mem = y.mem ∧ x.scene = y.scene ∧ x.ledger = y.ledger ∧ x.queues = y.queues ∧ x.turn = y.turn ∧ x.lastTurn = y.lastTurn ∧ x.rings = y.rings ∧ x.canvases = y.canvases ∧ x.comp = y.comp ∧ x.ports = y.ports ∧ x.chans = y.chans ∧ x.timers = y.timers ∧ x.mrv = y.mrv ∧ x.engines = y.engines ∧ x.regions = y.regions ∧ x.cru = y.cru ∧ x.acc = y.acc ∧ x.flt = y.flt ∧ x.svc = y.svc ∧ x.tb = y.tb ∧ x.clk = y.clk ∧ x.rst = y.rst ∧ x.hif = y.hif ∧ x.pins = y.pins) (by simp) (fun x y z h₁ h₂ => by simp only [h₁, h₂, and_self]) (fun d a => ?_) _ _
  dsimp only; (repeat' split) <;> simp

@[simp] theorem Dev.burstChecked_frame (g : Nat) (t : Nat) (mid : Nat) (i : BurstInput) (bs : List Byte) (beats : List Nat) (res : BurstRes) (mark : Bool) (d : Dev) :
    (Dev.burstChecked g t mid i bs beats res mark d).now = d.now ∧ (Dev.burstChecked g t mid i bs beats res mark d).regs = d.regs ∧ (Dev.burstChecked g t mid i bs beats res mark d).luts = d.luts ∧ (Dev.burstChecked g t mid i bs beats res mark d).mem = d.mem ∧ (Dev.burstChecked g t mid i bs beats res mark d).ledger = d.ledger ∧ (Dev.burstChecked g t mid i bs beats res mark d).queues = d.queues ∧ (Dev.burstChecked g t mid i bs beats res mark d).turn = d.turn ∧ (Dev.burstChecked g t mid i bs beats res mark d).lastTurn = d.lastTurn ∧ (Dev.burstChecked g t mid i bs beats res mark d).rings = d.rings ∧ (Dev.burstChecked g t mid i bs beats res mark d).canvases = d.canvases ∧ (Dev.burstChecked g t mid i bs beats res mark d).comp = d.comp ∧ (Dev.burstChecked g t mid i bs beats res mark d).ports = d.ports ∧ (Dev.burstChecked g t mid i bs beats res mark d).chans = d.chans ∧ (Dev.burstChecked g t mid i bs beats res mark d).timers = d.timers ∧ (Dev.burstChecked g t mid i bs beats res mark d).mrv = d.mrv ∧ (Dev.burstChecked g t mid i bs beats res mark d).engines = d.engines ∧ (Dev.burstChecked g t mid i bs beats res mark d).regions = d.regions ∧ (Dev.burstChecked g t mid i bs beats res mark d).cru = d.cru ∧ (Dev.burstChecked g t mid i bs beats res mark d).acc = d.acc ∧ (Dev.burstChecked g t mid i bs beats res mark d).svc = d.svc ∧ (Dev.burstChecked g t mid i bs beats res mark d).tb = d.tb ∧ (Dev.burstChecked g t mid i bs beats res mark d).clk = d.clk ∧ (Dev.burstChecked g t mid i bs beats res mark d).rst = d.rst ∧ (Dev.burstChecked g t mid i bs beats res mark d).hif = d.hif ∧ (Dev.burstChecked g t mid i bs beats res mark d).pins = d.pins := by
  unfold Dev.burstChecked; (repeat' split) <;> simp

@[simp] theorem Dev.burstReturns_frame (g : Nat) (f : InFlight) (rest : List InFlight) (i : BurstInput) (d : Dev) :
    (Dev.burstReturns g f rest i d).now = d.now ∧ (Dev.burstReturns g f rest i d).regs = d.regs ∧ (Dev.burstReturns g f rest i d).luts = d.luts ∧ (Dev.burstReturns g f rest i d).ledger = d.ledger ∧ (Dev.burstReturns g f rest i d).queues = d.queues ∧ (Dev.burstReturns g f rest i d).turn = d.turn ∧ (Dev.burstReturns g f rest i d).lastTurn = d.lastTurn ∧ (Dev.burstReturns g f rest i d).rings = d.rings ∧ (Dev.burstReturns g f rest i d).canvases = d.canvases ∧ (Dev.burstReturns g f rest i d).comp = d.comp ∧ (Dev.burstReturns g f rest i d).ports = d.ports ∧ (Dev.burstReturns g f rest i d).chans = d.chans ∧ (Dev.burstReturns g f rest i d).timers = d.timers ∧ (Dev.burstReturns g f rest i d).mrv = d.mrv ∧ (Dev.burstReturns g f rest i d).engines = d.engines ∧ (Dev.burstReturns g f rest i d).regions = d.regions ∧ (Dev.burstReturns g f rest i d).acc = d.acc ∧ (Dev.burstReturns g f rest i d).svc = d.svc ∧ (Dev.burstReturns g f rest i d).tb = d.tb ∧ (Dev.burstReturns g f rest i d).clk = d.clk ∧ (Dev.burstReturns g f rest i d).rst = d.rst ∧ (Dev.burstReturns g f rest i d).pins = d.pins := by
  unfold Dev.burstReturns; try dsimp only
  (repeat' split) <;> simp

@[simp] theorem Dev.retrainOutcome_frame (l : Nat) (d : Dev) :
    (Dev.retrainOutcome l d).now = d.now ∧ (Dev.retrainOutcome l d).regs = d.regs ∧ (Dev.retrainOutcome l d).luts = d.luts ∧ (Dev.retrainOutcome l d).mem = d.mem ∧ (Dev.retrainOutcome l d).ledger = d.ledger ∧ (Dev.retrainOutcome l d).queues = d.queues ∧ (Dev.retrainOutcome l d).turn = d.turn ∧ (Dev.retrainOutcome l d).lastTurn = d.lastTurn ∧ (Dev.retrainOutcome l d).rings = d.rings ∧ (Dev.retrainOutcome l d).canvases = d.canvases ∧ (Dev.retrainOutcome l d).comp = d.comp ∧ (Dev.retrainOutcome l d).ports = d.ports ∧ (Dev.retrainOutcome l d).chans = d.chans ∧ (Dev.retrainOutcome l d).timers = d.timers ∧ (Dev.retrainOutcome l d).mrv = d.mrv ∧ (Dev.retrainOutcome l d).engines = d.engines ∧ (Dev.retrainOutcome l d).regions = d.regions ∧ (Dev.retrainOutcome l d).cru = d.cru ∧ (Dev.retrainOutcome l d).acc = d.acc ∧ (Dev.retrainOutcome l d).svc = d.svc ∧ (Dev.retrainOutcome l d).tb = d.tb ∧ (Dev.retrainOutcome l d).clk = d.clk ∧ (Dev.retrainOutcome l d).rst = d.rst ∧ (Dev.retrainOutcome l d).hif = d.hif ∧ (Dev.retrainOutcome l d).pins = d.pins := by
  unfold Dev.retrainOutcome; try dsimp only
  (repeat' split) <;> simp

@[simp] theorem Dev.laneWindow_frame (l : Nat) (d : Dev) :
    (Dev.laneWindow l d).now = d.now ∧ (Dev.laneWindow l d).luts = d.luts ∧ (Dev.laneWindow l d).mem = d.mem ∧ (Dev.laneWindow l d).ledger = d.ledger ∧ (Dev.laneWindow l d).queues = d.queues ∧ (Dev.laneWindow l d).turn = d.turn ∧ (Dev.laneWindow l d).lastTurn = d.lastTurn ∧ (Dev.laneWindow l d).rings = d.rings ∧ (Dev.laneWindow l d).canvases = d.canvases ∧ (Dev.laneWindow l d).comp = d.comp ∧ (Dev.laneWindow l d).ports = d.ports ∧ (Dev.laneWindow l d).chans = d.chans ∧ (Dev.laneWindow l d).timers = d.timers ∧ (Dev.laneWindow l d).mrv = d.mrv ∧ (Dev.laneWindow l d).engines = d.engines ∧ (Dev.laneWindow l d).regions = d.regions ∧ (Dev.laneWindow l d).cru = d.cru ∧ (Dev.laneWindow l d).acc = d.acc ∧ (Dev.laneWindow l d).svc = d.svc ∧ (Dev.laneWindow l d).tb = d.tb ∧ (Dev.laneWindow l d).clk = d.clk ∧ (Dev.laneWindow l d).rst = d.rst ∧ (Dev.laneWindow l d).hif = d.hif ∧ (Dev.laneWindow l d).pins = d.pins := by
  unfold Dev.laneWindow; (repeat' split) <;> simp

@[simp] theorem Dev.applyRef_frame (g : Nat) (d : Dev) :
    (Dev.applyRef g d).now = d.now ∧ (Dev.applyRef g d).luts = d.luts ∧ (Dev.applyRef g d).mem = d.mem ∧ (Dev.applyRef g d).scene = d.scene ∧ (Dev.applyRef g d).ledger = d.ledger ∧ (Dev.applyRef g d).queues = d.queues ∧ (Dev.applyRef g d).turn = d.turn ∧ (Dev.applyRef g d).lastTurn = d.lastTurn ∧ (Dev.applyRef g d).rings = d.rings ∧ (Dev.applyRef g d).canvases = d.canvases ∧ (Dev.applyRef g d).comp = d.comp ∧ (Dev.applyRef g d).ports = d.ports ∧ (Dev.applyRef g d).chans = d.chans ∧ (Dev.applyRef g d).timers = d.timers ∧ (Dev.applyRef g d).mrv = d.mrv ∧ (Dev.applyRef g d).engines = d.engines ∧ (Dev.applyRef g d).regions = d.regions ∧ (Dev.applyRef g d).cru = d.cru ∧ (Dev.applyRef g d).acc = d.acc ∧ (Dev.applyRef g d).flt = d.flt ∧ (Dev.applyRef g d).svc = d.svc ∧ (Dev.applyRef g d).tb = d.tb ∧ (Dev.applyRef g d).clk = d.clk ∧ (Dev.applyRef g d).rst = d.rst ∧ (Dev.applyRef g d).hif = d.hif ∧ (Dev.applyRef g d).pins = d.pins := by
  unfold Dev.applyRef; try dsimp only
  (repeat' split) <;> simp

@[simp] theorem Dev.switchSpare_frame (g : Nat) (d : Dev) :
    (Dev.switchSpare g d).now = d.now ∧ (Dev.switchSpare g d).regs = d.regs ∧ (Dev.switchSpare g d).luts = d.luts ∧ (Dev.switchSpare g d).mem = d.mem ∧ (Dev.switchSpare g d).ledger = d.ledger ∧ (Dev.switchSpare g d).queues = d.queues ∧ (Dev.switchSpare g d).turn = d.turn ∧ (Dev.switchSpare g d).lastTurn = d.lastTurn ∧ (Dev.switchSpare g d).rings = d.rings ∧ (Dev.switchSpare g d).canvases = d.canvases ∧ (Dev.switchSpare g d).comp = d.comp ∧ (Dev.switchSpare g d).ports = d.ports ∧ (Dev.switchSpare g d).chans = d.chans ∧ (Dev.switchSpare g d).timers = d.timers ∧ (Dev.switchSpare g d).mrv = d.mrv ∧ (Dev.switchSpare g d).engines = d.engines ∧ (Dev.switchSpare g d).regions = d.regions ∧ (Dev.switchSpare g d).cru = d.cru ∧ (Dev.switchSpare g d).acc = d.acc ∧ (Dev.switchSpare g d).flt = d.flt ∧ (Dev.switchSpare g d).svc = d.svc ∧ (Dev.switchSpare g d).tb = d.tb ∧ (Dev.switchSpare g d).clk = d.clk ∧ (Dev.switchSpare g d).rst = d.rst ∧ (Dev.switchSpare g d).hif = d.hif ∧ (Dev.switchSpare g d).pins = d.pins := by
  unfold Dev.switchSpare; (repeat' split) <;> simp

@[simp] theorem Dev.refreshWindow_frame (g : Nat) (d : Dev) :
    (Dev.refreshWindow g d).now = d.now ∧ (Dev.refreshWindow g d).luts = d.luts ∧ (Dev.refreshWindow g d).mem = d.mem ∧ (Dev.refreshWindow g d).ledger = d.ledger ∧ (Dev.refreshWindow g d).queues = d.queues ∧ (Dev.refreshWindow g d).turn = d.turn ∧ (Dev.refreshWindow g d).lastTurn = d.lastTurn ∧ (Dev.refreshWindow g d).rings = d.rings ∧ (Dev.refreshWindow g d).canvases = d.canvases ∧ (Dev.refreshWindow g d).comp = d.comp ∧ (Dev.refreshWindow g d).ports = d.ports ∧ (Dev.refreshWindow g d).chans = d.chans ∧ (Dev.refreshWindow g d).timers = d.timers ∧ (Dev.refreshWindow g d).mrv = d.mrv ∧ (Dev.refreshWindow g d).engines = d.engines ∧ (Dev.refreshWindow g d).regions = d.regions ∧ (Dev.refreshWindow g d).cru = d.cru ∧ (Dev.refreshWindow g d).acc = d.acc ∧ (Dev.refreshWindow g d).svc = d.svc ∧ (Dev.refreshWindow g d).tb = d.tb ∧ (Dev.refreshWindow g d).clk = d.clk ∧ (Dev.refreshWindow g d).rst = d.rst ∧ (Dev.refreshWindow g d).hif = d.hif ∧ (Dev.refreshWindow g d).pins = d.pins := by
  simp [Dev.refreshWindow]

@[simp] theorem Dev.slotRefresh_frame (g : Nat) (b : Nat) (d : Dev) :
    (Dev.slotRefresh g b d).now = d.now ∧ (Dev.slotRefresh g b d).regs = d.regs ∧ (Dev.slotRefresh g b d).luts = d.luts ∧ (Dev.slotRefresh g b d).mem = d.mem ∧ (Dev.slotRefresh g b d).scene = d.scene ∧ (Dev.slotRefresh g b d).ledger = d.ledger ∧ (Dev.slotRefresh g b d).queues = d.queues ∧ (Dev.slotRefresh g b d).turn = d.turn ∧ (Dev.slotRefresh g b d).lastTurn = d.lastTurn ∧ (Dev.slotRefresh g b d).rings = d.rings ∧ (Dev.slotRefresh g b d).canvases = d.canvases ∧ (Dev.slotRefresh g b d).comp = d.comp ∧ (Dev.slotRefresh g b d).ports = d.ports ∧ (Dev.slotRefresh g b d).chans = d.chans ∧ (Dev.slotRefresh g b d).timers = d.timers ∧ (Dev.slotRefresh g b d).mrv = d.mrv ∧ (Dev.slotRefresh g b d).engines = d.engines ∧ (Dev.slotRefresh g b d).regions = d.regions ∧ (Dev.slotRefresh g b d).cru = d.cru ∧ (Dev.slotRefresh g b d).acc = d.acc ∧ (Dev.slotRefresh g b d).flt = d.flt ∧ (Dev.slotRefresh g b d).svc = d.svc ∧ (Dev.slotRefresh g b d).tb = d.tb ∧ (Dev.slotRefresh g b d).clk = d.clk ∧ (Dev.slotRefresh g b d).rst = d.rst ∧ (Dev.slotRefresh g b d).hif = d.hif ∧ (Dev.slotRefresh g b d).pins = d.pins := by
  simp [Dev.slotRefresh]

@[simp] theorem Dev.judgeWrite_frame (l : Nat) (right : Bool) (d : Dev) :
    (Dev.judgeWrite l right d).now = d.now ∧ (Dev.judgeWrite l right d).regs = d.regs ∧ (Dev.judgeWrite l right d).luts = d.luts ∧ (Dev.judgeWrite l right d).mem = d.mem ∧ (Dev.judgeWrite l right d).scene = d.scene ∧ (Dev.judgeWrite l right d).ledger = d.ledger ∧ (Dev.judgeWrite l right d).queues = d.queues ∧ (Dev.judgeWrite l right d).turn = d.turn ∧ (Dev.judgeWrite l right d).lastTurn = d.lastTurn ∧ (Dev.judgeWrite l right d).rings = d.rings ∧ (Dev.judgeWrite l right d).canvases = d.canvases ∧ (Dev.judgeWrite l right d).comp = d.comp ∧ (Dev.judgeWrite l right d).ports = d.ports ∧ (Dev.judgeWrite l right d).chans = d.chans ∧ (Dev.judgeWrite l right d).timers = d.timers ∧ (Dev.judgeWrite l right d).mrv = d.mrv ∧ (Dev.judgeWrite l right d).engines = d.engines ∧ (Dev.judgeWrite l right d).regions = d.regions ∧ (Dev.judgeWrite l right d).cru = d.cru ∧ (Dev.judgeWrite l right d).acc = d.acc ∧ (Dev.judgeWrite l right d).svc = d.svc ∧ (Dev.judgeWrite l right d).tb = d.tb ∧ (Dev.judgeWrite l right d).clk = d.clk ∧ (Dev.judgeWrite l right d).rst = d.rst ∧ (Dev.judgeWrite l right d).hif = d.hif ∧ (Dev.judgeWrite l right d).pins = d.pins := by
  simp [Dev.judgeWrite]

@[simp] theorem Dev.probeLane_frame (right : Bool) (full : Bool) (diffs : List (Nat × Nat)) (d : Dev) (l : Nat) :
    (Dev.probeLane right full diffs d l).now = d.now ∧ (Dev.probeLane right full diffs d l).regs = d.regs ∧ (Dev.probeLane right full diffs d l).luts = d.luts ∧ (Dev.probeLane right full diffs d l).mem = d.mem ∧ (Dev.probeLane right full diffs d l).scene = d.scene ∧ (Dev.probeLane right full diffs d l).ledger = d.ledger ∧ (Dev.probeLane right full diffs d l).queues = d.queues ∧ (Dev.probeLane right full diffs d l).turn = d.turn ∧ (Dev.probeLane right full diffs d l).lastTurn = d.lastTurn ∧ (Dev.probeLane right full diffs d l).rings = d.rings ∧ (Dev.probeLane right full diffs d l).canvases = d.canvases ∧ (Dev.probeLane right full diffs d l).comp = d.comp ∧ (Dev.probeLane right full diffs d l).ports = d.ports ∧ (Dev.probeLane right full diffs d l).chans = d.chans ∧ (Dev.probeLane right full diffs d l).timers = d.timers ∧ (Dev.probeLane right full diffs d l).mrv = d.mrv ∧ (Dev.probeLane right full diffs d l).engines = d.engines ∧ (Dev.probeLane right full diffs d l).regions = d.regions ∧ (Dev.probeLane right full diffs d l).cru = d.cru ∧ (Dev.probeLane right full diffs d l).acc = d.acc ∧ (Dev.probeLane right full diffs d l).svc = d.svc ∧ (Dev.probeLane right full diffs d l).tb = d.tb ∧ (Dev.probeLane right full diffs d l).clk = d.clk ∧ (Dev.probeLane right full diffs d l).rst = d.rst ∧ (Dev.probeLane right full diffs d l).hif = d.hif ∧ (Dev.probeLane right full diffs d l).pins = d.pins := by
  unfold Dev.probeLane; try dsimp only
  (repeat' split) <;> simp

@[simp] theorem Dev.probeSpare_frame (g : Nat) (m : Nat) (d : Dev) :
    (Dev.probeSpare g m d).now = d.now ∧ (Dev.probeSpare g m d).regs = d.regs ∧ (Dev.probeSpare g m d).luts = d.luts ∧ (Dev.probeSpare g m d).mem = d.mem ∧ (Dev.probeSpare g m d).scene = d.scene ∧ (Dev.probeSpare g m d).ledger = d.ledger ∧ (Dev.probeSpare g m d).queues = d.queues ∧ (Dev.probeSpare g m d).turn = d.turn ∧ (Dev.probeSpare g m d).lastTurn = d.lastTurn ∧ (Dev.probeSpare g m d).rings = d.rings ∧ (Dev.probeSpare g m d).canvases = d.canvases ∧ (Dev.probeSpare g m d).comp = d.comp ∧ (Dev.probeSpare g m d).ports = d.ports ∧ (Dev.probeSpare g m d).chans = d.chans ∧ (Dev.probeSpare g m d).timers = d.timers ∧ (Dev.probeSpare g m d).mrv = d.mrv ∧ (Dev.probeSpare g m d).engines = d.engines ∧ (Dev.probeSpare g m d).regions = d.regions ∧ (Dev.probeSpare g m d).cru = d.cru ∧ (Dev.probeSpare g m d).acc = d.acc ∧ (Dev.probeSpare g m d).flt = d.flt ∧ (Dev.probeSpare g m d).svc = d.svc ∧ (Dev.probeSpare g m d).tb = d.tb ∧ (Dev.probeSpare g m d).clk = d.clk ∧ (Dev.probeSpare g m d).rst = d.rst ∧ (Dev.probeSpare g m d).hif = d.hif ∧ (Dev.probeSpare g m d).pins = d.pins := by
  unfold Dev.probeSpare; (repeat' split) <;> simp

@[simp] theorem Dev.probe_frame (g : Nat) (i : ProbeInput) (d : Dev) :
    (Dev.probe g i d).now = d.now ∧ (Dev.probe g i d).regs = d.regs ∧ (Dev.probe g i d).luts = d.luts ∧ (Dev.probe g i d).mem = d.mem ∧ (Dev.probe g i d).scene = d.scene ∧ (Dev.probe g i d).ledger = d.ledger ∧ (Dev.probe g i d).queues = d.queues ∧ (Dev.probe g i d).turn = d.turn ∧ (Dev.probe g i d).lastTurn = d.lastTurn ∧ (Dev.probe g i d).rings = d.rings ∧ (Dev.probe g i d).canvases = d.canvases ∧ (Dev.probe g i d).comp = d.comp ∧ (Dev.probe g i d).ports = d.ports ∧ (Dev.probe g i d).chans = d.chans ∧ (Dev.probe g i d).timers = d.timers ∧ (Dev.probe g i d).mrv = d.mrv ∧ (Dev.probe g i d).engines = d.engines ∧ (Dev.probe g i d).regions = d.regions ∧ (Dev.probe g i d).cru = d.cru ∧ (Dev.probe g i d).acc = d.acc ∧ (Dev.probe g i d).svc = d.svc ∧ (Dev.probe g i d).tb = d.tb ∧ (Dev.probe g i d).clk = d.clk ∧ (Dev.probe g i d).rst = d.rst ∧ (Dev.probe g i d).hif = d.hif ∧ (Dev.probe g i d).pins = d.pins := by
  simp [Dev.probe]

@[simp] theorem Dev.probeAtom_frame (g : Nat) (t : Nat) (i : ProbeInput) (d : Dev) :
    (Dev.probeAtom g t i d).now = d.now ∧ (Dev.probeAtom g t i d).regs = d.regs ∧ (Dev.probeAtom g t i d).luts = d.luts ∧ (Dev.probeAtom g t i d).mem = d.mem ∧ (Dev.probeAtom g t i d).ledger = d.ledger ∧ (Dev.probeAtom g t i d).queues = d.queues ∧ (Dev.probeAtom g t i d).turn = d.turn ∧ (Dev.probeAtom g t i d).lastTurn = d.lastTurn ∧ (Dev.probeAtom g t i d).rings = d.rings ∧ (Dev.probeAtom g t i d).canvases = d.canvases ∧ (Dev.probeAtom g t i d).comp = d.comp ∧ (Dev.probeAtom g t i d).ports = d.ports ∧ (Dev.probeAtom g t i d).chans = d.chans ∧ (Dev.probeAtom g t i d).timers = d.timers ∧ (Dev.probeAtom g t i d).mrv = d.mrv ∧ (Dev.probeAtom g t i d).engines = d.engines ∧ (Dev.probeAtom g t i d).regions = d.regions ∧ (Dev.probeAtom g t i d).cru = d.cru ∧ (Dev.probeAtom g t i d).acc = d.acc ∧ (Dev.probeAtom g t i d).svc = d.svc ∧ (Dev.probeAtom g t i d).tb = d.tb ∧ (Dev.probeAtom g t i d).clk = d.clk ∧ (Dev.probeAtom g t i d).rst = d.rst ∧ (Dev.probeAtom g t i d).hif = d.hif ∧ (Dev.probeAtom g t i d).pins = d.pins := by
  simp [Dev.probeAtom]

@[simp] theorem Dev.rebuildGrant_frame (d : Dev) :
    (Dev.rebuildGrant d).now = d.now ∧ (Dev.rebuildGrant d).regs = d.regs ∧ (Dev.rebuildGrant d).luts = d.luts ∧ (Dev.rebuildGrant d).mem = d.mem ∧ (Dev.rebuildGrant d).scene = d.scene ∧ (Dev.rebuildGrant d).ledger = d.ledger ∧ (Dev.rebuildGrant d).queues = d.queues ∧ (Dev.rebuildGrant d).turn = d.turn ∧ (Dev.rebuildGrant d).lastTurn = d.lastTurn ∧ (Dev.rebuildGrant d).rings = d.rings ∧ (Dev.rebuildGrant d).canvases = d.canvases ∧ (Dev.rebuildGrant d).comp = d.comp ∧ (Dev.rebuildGrant d).ports = d.ports ∧ (Dev.rebuildGrant d).chans = d.chans ∧ (Dev.rebuildGrant d).timers = d.timers ∧ (Dev.rebuildGrant d).mrv = d.mrv ∧ (Dev.rebuildGrant d).engines = d.engines ∧ (Dev.rebuildGrant d).regions = d.regions ∧ (Dev.rebuildGrant d).cru = d.cru ∧ (Dev.rebuildGrant d).acc = d.acc ∧ (Dev.rebuildGrant d).flt = d.flt ∧ (Dev.rebuildGrant d).svc = d.svc ∧ (Dev.rebuildGrant d).tb = d.tb ∧ (Dev.rebuildGrant d).clk = d.clk ∧ (Dev.rebuildGrant d).rst = d.rst ∧ (Dev.rebuildGrant d).hif = d.hif ∧ (Dev.rebuildGrant d).pins = d.pins := by
  unfold Dev.rebuildGrant; (repeat' split) <;> simp

@[simp] theorem Dev.invalidate_frame (i : Nat) (d : Dev) :
    (Dev.invalidate i d).now = d.now ∧ (Dev.invalidate i d).regs = d.regs ∧ (Dev.invalidate i d).luts = d.luts ∧ (Dev.invalidate i d).mem = d.mem ∧ (Dev.invalidate i d).scene = d.scene ∧ (Dev.invalidate i d).ledger = d.ledger ∧ (Dev.invalidate i d).queues = d.queues ∧ (Dev.invalidate i d).turn = d.turn ∧ (Dev.invalidate i d).lastTurn = d.lastTurn ∧ (Dev.invalidate i d).rings = d.rings ∧ (Dev.invalidate i d).canvases = d.canvases ∧ (Dev.invalidate i d).comp = d.comp ∧ (Dev.invalidate i d).ports = d.ports ∧ (Dev.invalidate i d).chans = d.chans ∧ (Dev.invalidate i d).timers = d.timers ∧ (Dev.invalidate i d).mrv = d.mrv ∧ (Dev.invalidate i d).engines = d.engines ∧ (Dev.invalidate i d).mct = d.mct ∧ (Dev.invalidate i d).cru = d.cru ∧ (Dev.invalidate i d).acc = d.acc ∧ (Dev.invalidate i d).svc = d.svc ∧ (Dev.invalidate i d).tb = d.tb ∧ (Dev.invalidate i d).clk = d.clk ∧ (Dev.invalidate i d).rst = d.rst ∧ (Dev.invalidate i d).hif = d.hif ∧ (Dev.invalidate i d).pins = d.pins := by
  simp [Dev.invalidate]

@[simp] theorem Dev.freshen_frame (i : Nat) (w : Nat) (d : Dev) :
    (Dev.freshen i w d).now = d.now ∧ (Dev.freshen i w d).regs = d.regs ∧ (Dev.freshen i w d).luts = d.luts ∧ (Dev.freshen i w d).mem = d.mem ∧ (Dev.freshen i w d).scene = d.scene ∧ (Dev.freshen i w d).ledger = d.ledger ∧ (Dev.freshen i w d).queues = d.queues ∧ (Dev.freshen i w d).turn = d.turn ∧ (Dev.freshen i w d).lastTurn = d.lastTurn ∧ (Dev.freshen i w d).rings = d.rings ∧ (Dev.freshen i w d).canvases = d.canvases ∧ (Dev.freshen i w d).comp = d.comp ∧ (Dev.freshen i w d).ports = d.ports ∧ (Dev.freshen i w d).chans = d.chans ∧ (Dev.freshen i w d).timers = d.timers ∧ (Dev.freshen i w d).mrv = d.mrv ∧ (Dev.freshen i w d).engines = d.engines ∧ (Dev.freshen i w d).mct = d.mct ∧ (Dev.freshen i w d).acc = d.acc ∧ (Dev.freshen i w d).flt = d.flt ∧ (Dev.freshen i w d).svc = d.svc ∧ (Dev.freshen i w d).tb = d.tb ∧ (Dev.freshen i w d).clk = d.clk ∧ (Dev.freshen i w d).rst = d.rst ∧ (Dev.freshen i w d).hif = d.hif ∧ (Dev.freshen i w d).pins = d.pins := by
  simp [Dev.freshen]

@[simp] theorem Dev.writeWitness_frame (i : Nat) (w : Nat) (v : Word) (d : Dev) :
    (Dev.writeWitness i w v d).now = d.now ∧ (Dev.writeWitness i w v d).regs = d.regs ∧ (Dev.writeWitness i w v d).luts = d.luts ∧ (Dev.writeWitness i w v d).mem = d.mem ∧ (Dev.writeWitness i w v d).scene = d.scene ∧ (Dev.writeWitness i w v d).ledger = d.ledger ∧ (Dev.writeWitness i w v d).queues = d.queues ∧ (Dev.writeWitness i w v d).turn = d.turn ∧ (Dev.writeWitness i w v d).lastTurn = d.lastTurn ∧ (Dev.writeWitness i w v d).rings = d.rings ∧ (Dev.writeWitness i w v d).canvases = d.canvases ∧ (Dev.writeWitness i w v d).comp = d.comp ∧ (Dev.writeWitness i w v d).ports = d.ports ∧ (Dev.writeWitness i w v d).chans = d.chans ∧ (Dev.writeWitness i w v d).timers = d.timers ∧ (Dev.writeWitness i w v d).mrv = d.mrv ∧ (Dev.writeWitness i w v d).engines = d.engines ∧ (Dev.writeWitness i w v d).mct = d.mct ∧ (Dev.writeWitness i w v d).acc = d.acc ∧ (Dev.writeWitness i w v d).flt = d.flt ∧ (Dev.writeWitness i w v d).svc = d.svc ∧ (Dev.writeWitness i w v d).tb = d.tb ∧ (Dev.writeWitness i w v d).clk = d.clk ∧ (Dev.writeWitness i w v d).rst = d.rst ∧ (Dev.writeWitness i w v d).hif = d.hif ∧ (Dev.writeWitness i w v d).pins = d.pins := by
  simp [Dev.writeWitness]

@[simp] theorem Dev.noteFail_frame (i : Nat) (before : Bool) (d : Dev) :
    (Dev.noteFail i before d).now = d.now ∧ (Dev.noteFail i before d).regs = d.regs ∧ (Dev.noteFail i before d).luts = d.luts ∧ (Dev.noteFail i before d).mem = d.mem ∧ (Dev.noteFail i before d).scene = d.scene ∧ (Dev.noteFail i before d).ledger = d.ledger ∧ (Dev.noteFail i before d).queues = d.queues ∧ (Dev.noteFail i before d).turn = d.turn ∧ (Dev.noteFail i before d).lastTurn = d.lastTurn ∧ (Dev.noteFail i before d).rings = d.rings ∧ (Dev.noteFail i before d).canvases = d.canvases ∧ (Dev.noteFail i before d).comp = d.comp ∧ (Dev.noteFail i before d).ports = d.ports ∧ (Dev.noteFail i before d).chans = d.chans ∧ (Dev.noteFail i before d).timers = d.timers ∧ (Dev.noteFail i before d).mrv = d.mrv ∧ (Dev.noteFail i before d).engines = d.engines ∧ (Dev.noteFail i before d).regions = d.regions ∧ (Dev.noteFail i before d).mct = d.mct ∧ (Dev.noteFail i before d).cru = d.cru ∧ (Dev.noteFail i before d).acc = d.acc ∧ (Dev.noteFail i before d).svc = d.svc ∧ (Dev.noteFail i before d).tb = d.tb ∧ (Dev.noteFail i before d).clk = d.clk ∧ (Dev.noteFail i before d).rst = d.rst ∧ (Dev.noteFail i before d).hif = d.hif ∧ (Dev.noteFail i before d).pins = d.pins := by
  simp [Dev.noteFail]

@[simp] theorem Dev.regionFrame_frame (c : Nat) (i : Nat) (d : Dev) :
    (Dev.regionFrame c i d).now = d.now ∧ (Dev.regionFrame c i d).regs = d.regs ∧ (Dev.regionFrame c i d).luts = d.luts ∧ (Dev.regionFrame c i d).mem = d.mem ∧ (Dev.regionFrame c i d).scene = d.scene ∧ (Dev.regionFrame c i d).ledger = d.ledger ∧ (Dev.regionFrame c i d).queues = d.queues ∧ (Dev.regionFrame c i d).turn = d.turn ∧ (Dev.regionFrame c i d).lastTurn = d.lastTurn ∧ (Dev.regionFrame c i d).rings = d.rings ∧ (Dev.regionFrame c i d).canvases = d.canvases ∧ (Dev.regionFrame c i d).comp = d.comp ∧ (Dev.regionFrame c i d).ports = d.ports ∧ (Dev.regionFrame c i d).chans = d.chans ∧ (Dev.regionFrame c i d).timers = d.timers ∧ (Dev.regionFrame c i d).mrv = d.mrv ∧ (Dev.regionFrame c i d).engines = d.engines ∧ (Dev.regionFrame c i d).mct = d.mct ∧ (Dev.regionFrame c i d).cru = d.cru ∧ (Dev.regionFrame c i d).acc = d.acc ∧ (Dev.regionFrame c i d).svc = d.svc ∧ (Dev.regionFrame c i d).tb = d.tb ∧ (Dev.regionFrame c i d).clk = d.clk ∧ (Dev.regionFrame c i d).rst = d.rst ∧ (Dev.regionFrame c i d).hif = d.hif ∧ (Dev.regionFrame c i d).pins = d.pins := by
  simp [Dev.regionFrame]

@[simp] theorem Dev.regionsFrame_frame (c : Nat) (d : Dev) :
    (Dev.regionsFrame c d).now = d.now ∧ (Dev.regionsFrame c d).regs = d.regs ∧ (Dev.regionsFrame c d).luts = d.luts ∧ (Dev.regionsFrame c d).mem = d.mem ∧ (Dev.regionsFrame c d).scene = d.scene ∧ (Dev.regionsFrame c d).ledger = d.ledger ∧ (Dev.regionsFrame c d).queues = d.queues ∧ (Dev.regionsFrame c d).turn = d.turn ∧ (Dev.regionsFrame c d).lastTurn = d.lastTurn ∧ (Dev.regionsFrame c d).rings = d.rings ∧ (Dev.regionsFrame c d).canvases = d.canvases ∧ (Dev.regionsFrame c d).comp = d.comp ∧ (Dev.regionsFrame c d).ports = d.ports ∧ (Dev.regionsFrame c d).chans = d.chans ∧ (Dev.regionsFrame c d).timers = d.timers ∧ (Dev.regionsFrame c d).mrv = d.mrv ∧ (Dev.regionsFrame c d).engines = d.engines ∧ (Dev.regionsFrame c d).mct = d.mct ∧ (Dev.regionsFrame c d).cru = d.cru ∧ (Dev.regionsFrame c d).acc = d.acc ∧ (Dev.regionsFrame c d).svc = d.svc ∧ (Dev.regionsFrame c d).tb = d.tb ∧ (Dev.regionsFrame c d).clk = d.clk ∧ (Dev.regionsFrame c d).rst = d.rst ∧ (Dev.regionsFrame c d).hif = d.hif ∧ (Dev.regionsFrame c d).pins = d.pins := by
  simp [Dev.regionsFrame]

@[simp] theorem Dev.compareRegion_frame (c : Nat) (frame : Nat) (lines : List (List Word)) (i : Nat) (d : Dev) :
    (Dev.compareRegion c frame lines i d).now = d.now ∧ (Dev.compareRegion c frame lines i d).regs = d.regs ∧ (Dev.compareRegion c frame lines i d).luts = d.luts ∧ (Dev.compareRegion c frame lines i d).scene = d.scene ∧ (Dev.compareRegion c frame lines i d).ledger = d.ledger ∧ (Dev.compareRegion c frame lines i d).queues = d.queues ∧ (Dev.compareRegion c frame lines i d).turn = d.turn ∧ (Dev.compareRegion c frame lines i d).lastTurn = d.lastTurn ∧ (Dev.compareRegion c frame lines i d).canvases = d.canvases ∧ (Dev.compareRegion c frame lines i d).comp = d.comp ∧ (Dev.compareRegion c frame lines i d).ports = d.ports ∧ (Dev.compareRegion c frame lines i d).chans = d.chans ∧ (Dev.compareRegion c frame lines i d).timers = d.timers ∧ (Dev.compareRegion c frame lines i d).mrv = d.mrv ∧ (Dev.compareRegion c frame lines i d).engines = d.engines ∧ (Dev.compareRegion c frame lines i d).svc = d.svc ∧ (Dev.compareRegion c frame lines i d).tb = d.tb ∧ (Dev.compareRegion c frame lines i d).clk = d.clk ∧ (Dev.compareRegion c frame lines i d).rst = d.rst ∧ (Dev.compareRegion c frame lines i d).pins = d.pins := by
  simp [Dev.compareRegion]

@[simp] theorem Dev.compareRegions_frame (c : Nat) (frame : Nat) (lines : List (List Word)) (d : Dev) :
    (Dev.compareRegions c frame lines d).now = d.now ∧ (Dev.compareRegions c frame lines d).regs = d.regs ∧ (Dev.compareRegions c frame lines d).luts = d.luts ∧ (Dev.compareRegions c frame lines d).scene = d.scene ∧ (Dev.compareRegions c frame lines d).ledger = d.ledger ∧ (Dev.compareRegions c frame lines d).queues = d.queues ∧ (Dev.compareRegions c frame lines d).turn = d.turn ∧ (Dev.compareRegions c frame lines d).lastTurn = d.lastTurn ∧ (Dev.compareRegions c frame lines d).canvases = d.canvases ∧ (Dev.compareRegions c frame lines d).comp = d.comp ∧ (Dev.compareRegions c frame lines d).ports = d.ports ∧ (Dev.compareRegions c frame lines d).chans = d.chans ∧ (Dev.compareRegions c frame lines d).timers = d.timers ∧ (Dev.compareRegions c frame lines d).mrv = d.mrv ∧ (Dev.compareRegions c frame lines d).engines = d.engines ∧ (Dev.compareRegions c frame lines d).svc = d.svc ∧ (Dev.compareRegions c frame lines d).tb = d.tb ∧ (Dev.compareRegions c frame lines d).clk = d.clk ∧ (Dev.compareRegions c frame lines d).rst = d.rst ∧ (Dev.compareRegions c frame lines d).pins = d.pins := by
  simp [Dev.compareRegions]

@[simp] theorem Dev.disarmRegions_frame (d : Dev) :
    (Dev.disarmRegions d).now = d.now ∧ (Dev.disarmRegions d).regs = d.regs ∧ (Dev.disarmRegions d).luts = d.luts ∧ (Dev.disarmRegions d).mem = d.mem ∧ (Dev.disarmRegions d).scene = d.scene ∧ (Dev.disarmRegions d).ledger = d.ledger ∧ (Dev.disarmRegions d).queues = d.queues ∧ (Dev.disarmRegions d).turn = d.turn ∧ (Dev.disarmRegions d).lastTurn = d.lastTurn ∧ (Dev.disarmRegions d).rings = d.rings ∧ (Dev.disarmRegions d).canvases = d.canvases ∧ (Dev.disarmRegions d).comp = d.comp ∧ (Dev.disarmRegions d).ports = d.ports ∧ (Dev.disarmRegions d).chans = d.chans ∧ (Dev.disarmRegions d).timers = d.timers ∧ (Dev.disarmRegions d).mrv = d.mrv ∧ (Dev.disarmRegions d).engines = d.engines ∧ (Dev.disarmRegions d).mct = d.mct ∧ (Dev.disarmRegions d).cru = d.cru ∧ (Dev.disarmRegions d).acc = d.acc ∧ (Dev.disarmRegions d).flt = d.flt ∧ (Dev.disarmRegions d).svc = d.svc ∧ (Dev.disarmRegions d).tb = d.tb ∧ (Dev.disarmRegions d).clk = d.clk ∧ (Dev.disarmRegions d).rst = d.rst ∧ (Dev.disarmRegions d).hif = d.hif ∧ (Dev.disarmRegions d).pins = d.pins := by
  simp [Dev.disarmRegions]

@[simp] theorem Dev.portCrc_frame (n : Nat) (frame : Nat) (width : Nat) (lines : List (Option (List Word))) (d : Dev) :
    (Dev.portCrc n frame width lines d).now = d.now ∧ (Dev.portCrc n frame width lines d).regs = d.regs ∧ (Dev.portCrc n frame width lines d).luts = d.luts ∧ (Dev.portCrc n frame width lines d).mem = d.mem ∧ (Dev.portCrc n frame width lines d).scene = d.scene ∧ (Dev.portCrc n frame width lines d).ledger = d.ledger ∧ (Dev.portCrc n frame width lines d).queues = d.queues ∧ (Dev.portCrc n frame width lines d).turn = d.turn ∧ (Dev.portCrc n frame width lines d).lastTurn = d.lastTurn ∧ (Dev.portCrc n frame width lines d).rings = d.rings ∧ (Dev.portCrc n frame width lines d).canvases = d.canvases ∧ (Dev.portCrc n frame width lines d).comp = d.comp ∧ (Dev.portCrc n frame width lines d).chans = d.chans ∧ (Dev.portCrc n frame width lines d).timers = d.timers ∧ (Dev.portCrc n frame width lines d).mrv = d.mrv ∧ (Dev.portCrc n frame width lines d).engines = d.engines ∧ (Dev.portCrc n frame width lines d).regions = d.regions ∧ (Dev.portCrc n frame width lines d).mct = d.mct ∧ (Dev.portCrc n frame width lines d).cru = d.cru ∧ (Dev.portCrc n frame width lines d).acc = d.acc ∧ (Dev.portCrc n frame width lines d).flt = d.flt ∧ (Dev.portCrc n frame width lines d).svc = d.svc ∧ (Dev.portCrc n frame width lines d).tb = d.tb ∧ (Dev.portCrc n frame width lines d).clk = d.clk ∧ (Dev.portCrc n frame width lines d).rst = d.rst ∧ (Dev.portCrc n frame width lines d).hif = d.hif ∧ (Dev.portCrc n frame width lines d).pins = d.pins := by
  simp [Dev.portCrc]

@[simp] theorem Dev.watchUnderrun_now (c : Nat) (y : Nat) (k : Dev → Dev) (d : Dev) (hk : ∀ d, (k d).now = d.now) : (Dev.watchUnderrun c y k d).now = d.now := by
  simp [Dev.watchUnderrun, hk]

@[simp] theorem Dev.watchUnderrun_regs (c : Nat) (y : Nat) (k : Dev → Dev) (d : Dev) (hk : ∀ d, (k d).regs = d.regs) : (Dev.watchUnderrun c y k d).regs = d.regs := by
  simp [Dev.watchUnderrun, hk]

@[simp] theorem Dev.watchUnderrun_luts (c : Nat) (y : Nat) (k : Dev → Dev) (d : Dev) (hk : ∀ d, (k d).luts = d.luts) : (Dev.watchUnderrun c y k d).luts = d.luts := by
  simp [Dev.watchUnderrun, hk]

@[simp] theorem Dev.watchUnderrun_mem (c : Nat) (y : Nat) (k : Dev → Dev) (d : Dev) (hk : ∀ d, (k d).mem = d.mem) : (Dev.watchUnderrun c y k d).mem = d.mem := by
  simp [Dev.watchUnderrun, hk]

@[simp] theorem Dev.watchUnderrun_scene (c : Nat) (y : Nat) (k : Dev → Dev) (d : Dev) (hk : ∀ d, (k d).scene = d.scene) : (Dev.watchUnderrun c y k d).scene = d.scene := by
  simp [Dev.watchUnderrun, hk]

@[simp] theorem Dev.watchUnderrun_ledger (c : Nat) (y : Nat) (k : Dev → Dev) (d : Dev) (hk : ∀ d, (k d).ledger = d.ledger) : (Dev.watchUnderrun c y k d).ledger = d.ledger := by
  simp [Dev.watchUnderrun, hk]

@[simp] theorem Dev.watchUnderrun_queues (c : Nat) (y : Nat) (k : Dev → Dev) (d : Dev) (hk : ∀ d, (k d).queues = d.queues) : (Dev.watchUnderrun c y k d).queues = d.queues := by
  simp [Dev.watchUnderrun, hk]

@[simp] theorem Dev.watchUnderrun_turn (c : Nat) (y : Nat) (k : Dev → Dev) (d : Dev) (hk : ∀ d, (k d).turn = d.turn) : (Dev.watchUnderrun c y k d).turn = d.turn := by
  simp [Dev.watchUnderrun, hk]

@[simp] theorem Dev.watchUnderrun_lastTurn (c : Nat) (y : Nat) (k : Dev → Dev) (d : Dev) (hk : ∀ d, (k d).lastTurn = d.lastTurn) : (Dev.watchUnderrun c y k d).lastTurn = d.lastTurn := by
  simp [Dev.watchUnderrun, hk]

@[simp] theorem Dev.watchUnderrun_rings (c : Nat) (y : Nat) (k : Dev → Dev) (d : Dev) (hk : ∀ d, (k d).rings = d.rings) : (Dev.watchUnderrun c y k d).rings = d.rings := by
  simp [Dev.watchUnderrun, hk]

@[simp] theorem Dev.watchUnderrun_canvases (c : Nat) (y : Nat) (k : Dev → Dev) (d : Dev) (hk : ∀ d, (k d).canvases = d.canvases) : (Dev.watchUnderrun c y k d).canvases = d.canvases := by
  simp [Dev.watchUnderrun, hk]

@[simp] theorem Dev.watchUnderrun_comp (c : Nat) (y : Nat) (k : Dev → Dev) (d : Dev) (hk : ∀ d, (k d).comp = d.comp) : (Dev.watchUnderrun c y k d).comp = d.comp := by
  simp [Dev.watchUnderrun, hk]

@[simp] theorem Dev.watchUnderrun_ports (c : Nat) (y : Nat) (k : Dev → Dev) (d : Dev) (hk : ∀ d, (k d).ports = d.ports) : (Dev.watchUnderrun c y k d).ports = d.ports := by
  simp [Dev.watchUnderrun, hk]

@[simp] theorem Dev.watchUnderrun_chans (c : Nat) (y : Nat) (k : Dev → Dev) (d : Dev) (hk : ∀ d, (k d).chans = d.chans) : (Dev.watchUnderrun c y k d).chans = d.chans := by
  simp [Dev.watchUnderrun, hk]

@[simp] theorem Dev.watchUnderrun_timers (c : Nat) (y : Nat) (k : Dev → Dev) (d : Dev) (hk : ∀ d, (k d).timers = d.timers) : (Dev.watchUnderrun c y k d).timers = d.timers := by
  simp [Dev.watchUnderrun, hk]

@[simp] theorem Dev.watchUnderrun_mrv (c : Nat) (y : Nat) (k : Dev → Dev) (d : Dev) (hk : ∀ d, (k d).mrv = d.mrv) : (Dev.watchUnderrun c y k d).mrv = d.mrv := by
  simp [Dev.watchUnderrun, hk]

@[simp] theorem Dev.watchUnderrun_engines (c : Nat) (y : Nat) (k : Dev → Dev) (d : Dev) (hk : ∀ d, (k d).engines = d.engines) : (Dev.watchUnderrun c y k d).engines = d.engines := by
  simp [Dev.watchUnderrun, hk]

@[simp] theorem Dev.watchUnderrun_regions (c : Nat) (y : Nat) (k : Dev → Dev) (d : Dev) (hk : ∀ d, (k d).regions = d.regions) : (Dev.watchUnderrun c y k d).regions = d.regions := by
  simp [Dev.watchUnderrun, hk]

@[simp] theorem Dev.watchUnderrun_mct (c : Nat) (y : Nat) (k : Dev → Dev) (d : Dev) (hk : ∀ d, (k d).mct = d.mct) : (Dev.watchUnderrun c y k d).mct = d.mct := by
  simp [Dev.watchUnderrun, hk]

@[simp] theorem Dev.watchUnderrun_cru (c : Nat) (y : Nat) (k : Dev → Dev) (d : Dev) (hk : ∀ d, (k d).cru = d.cru) : (Dev.watchUnderrun c y k d).cru = d.cru := by
  simp [Dev.watchUnderrun, hk]

@[simp] theorem Dev.watchUnderrun_acc (c : Nat) (y : Nat) (k : Dev → Dev) (d : Dev) (hk : ∀ d, (k d).acc = d.acc) : (Dev.watchUnderrun c y k d).acc = d.acc := by
  simp [Dev.watchUnderrun, hk]

@[simp] theorem Dev.watchUnderrun_svc (c : Nat) (y : Nat) (k : Dev → Dev) (d : Dev) (hk : ∀ d, (k d).svc = d.svc) : (Dev.watchUnderrun c y k d).svc = d.svc := by
  simp [Dev.watchUnderrun, hk]

@[simp] theorem Dev.watchUnderrun_tb (c : Nat) (y : Nat) (k : Dev → Dev) (d : Dev) (hk : ∀ d, (k d).tb = d.tb) : (Dev.watchUnderrun c y k d).tb = d.tb := by
  simp [Dev.watchUnderrun, hk]

@[simp] theorem Dev.watchUnderrun_clk (c : Nat) (y : Nat) (k : Dev → Dev) (d : Dev) (hk : ∀ d, (k d).clk = d.clk) : (Dev.watchUnderrun c y k d).clk = d.clk := by
  simp [Dev.watchUnderrun, hk]

@[simp] theorem Dev.watchUnderrun_rst (c : Nat) (y : Nat) (k : Dev → Dev) (d : Dev) (hk : ∀ d, (k d).rst = d.rst) : (Dev.watchUnderrun c y k d).rst = d.rst := by
  simp [Dev.watchUnderrun, hk]

@[simp] theorem Dev.watchUnderrun_hif (c : Nat) (y : Nat) (k : Dev → Dev) (d : Dev) (hk : ∀ d, (k d).hif = d.hif) : (Dev.watchUnderrun c y k d).hif = d.hif := by
  simp [Dev.watchUnderrun, hk]

@[simp] theorem Dev.watchUnderrun_pins (c : Nat) (y : Nat) (k : Dev → Dev) (d : Dev) (hk : ∀ d, (k d).pins = d.pins) : (Dev.watchUnderrun c y k d).pins = d.pins := by
  simp [Dev.watchUnderrun, hk]

@[simp] theorem Dev.countAbsent_frame (ns : List Nat) (d : Dev) :
    (Dev.countAbsent ns d).now = d.now ∧ (Dev.countAbsent ns d).regs = d.regs ∧ (Dev.countAbsent ns d).luts = d.luts ∧ (Dev.countAbsent ns d).mem = d.mem ∧ (Dev.countAbsent ns d).scene = d.scene ∧ (Dev.countAbsent ns d).ledger = d.ledger ∧ (Dev.countAbsent ns d).queues = d.queues ∧ (Dev.countAbsent ns d).turn = d.turn ∧ (Dev.countAbsent ns d).lastTurn = d.lastTurn ∧ (Dev.countAbsent ns d).rings = d.rings ∧ (Dev.countAbsent ns d).canvases = d.canvases ∧ (Dev.countAbsent ns d).comp = d.comp ∧ (Dev.countAbsent ns d).chans = d.chans ∧ (Dev.countAbsent ns d).timers = d.timers ∧ (Dev.countAbsent ns d).mrv = d.mrv ∧ (Dev.countAbsent ns d).engines = d.engines ∧ (Dev.countAbsent ns d).regions = d.regions ∧ (Dev.countAbsent ns d).mct = d.mct ∧ (Dev.countAbsent ns d).cru = d.cru ∧ (Dev.countAbsent ns d).acc = d.acc ∧ (Dev.countAbsent ns d).flt = d.flt ∧ (Dev.countAbsent ns d).svc = d.svc ∧ (Dev.countAbsent ns d).tb = d.tb ∧ (Dev.countAbsent ns d).clk = d.clk ∧ (Dev.countAbsent ns d).rst = d.rst ∧ (Dev.countAbsent ns d).hif = d.hif ∧ (Dev.countAbsent ns d).pins = d.pins := by
  simp [Dev.countAbsent]

@[simp] theorem Dev.lineFalls_frame (c : Nat) (y : Nat) (d : Dev) :
    (Dev.lineFalls c y d).now = d.now ∧ (Dev.lineFalls c y d).regs = d.regs ∧ (Dev.lineFalls c y d).luts = d.luts ∧ (Dev.lineFalls c y d).mem = d.mem ∧ (Dev.lineFalls c y d).scene = d.scene ∧ (Dev.lineFalls c y d).ledger = d.ledger ∧ (Dev.lineFalls c y d).queues = d.queues ∧ (Dev.lineFalls c y d).turn = d.turn ∧ (Dev.lineFalls c y d).lastTurn = d.lastTurn ∧ (Dev.lineFalls c y d).rings = d.rings ∧ (Dev.lineFalls c y d).comp = d.comp ∧ (Dev.lineFalls c y d).chans = d.chans ∧ (Dev.lineFalls c y d).timers = d.timers ∧ (Dev.lineFalls c y d).mrv = d.mrv ∧ (Dev.lineFalls c y d).engines = d.engines ∧ (Dev.lineFalls c y d).regions = d.regions ∧ (Dev.lineFalls c y d).mct = d.mct ∧ (Dev.lineFalls c y d).cru = d.cru ∧ (Dev.lineFalls c y d).acc = d.acc ∧ (Dev.lineFalls c y d).flt = d.flt ∧ (Dev.lineFalls c y d).svc = d.svc ∧ (Dev.lineFalls c y d).tb = d.tb ∧ (Dev.lineFalls c y d).clk = d.clk ∧ (Dev.lineFalls c y d).rst = d.rst ∧ (Dev.lineFalls c y d).hif = d.hif ∧ (Dev.lineFalls c y d).pins = d.pins := by
  simp [Dev.lineFalls]

@[simp] theorem Dev.beginFrame_frame (c : Nat) (d : Dev) :
    (Dev.beginFrame c d).now = d.now ∧ (Dev.beginFrame c d).regs = d.regs ∧ (Dev.beginFrame c d).luts = d.luts ∧ (Dev.beginFrame c d).mem = d.mem ∧ (Dev.beginFrame c d).scene = d.scene ∧ (Dev.beginFrame c d).ledger = d.ledger ∧ (Dev.beginFrame c d).queues = d.queues ∧ (Dev.beginFrame c d).turn = d.turn ∧ (Dev.beginFrame c d).lastTurn = d.lastTurn ∧ (Dev.beginFrame c d).rings = d.rings ∧ (Dev.beginFrame c d).comp = d.comp ∧ (Dev.beginFrame c d).ports = d.ports ∧ (Dev.beginFrame c d).chans = d.chans ∧ (Dev.beginFrame c d).timers = d.timers ∧ (Dev.beginFrame c d).mrv = d.mrv ∧ (Dev.beginFrame c d).engines = d.engines ∧ (Dev.beginFrame c d).regions = d.regions ∧ (Dev.beginFrame c d).mct = d.mct ∧ (Dev.beginFrame c d).cru = d.cru ∧ (Dev.beginFrame c d).acc = d.acc ∧ (Dev.beginFrame c d).flt = d.flt ∧ (Dev.beginFrame c d).svc = d.svc ∧ (Dev.beginFrame c d).tb = d.tb ∧ (Dev.beginFrame c d).clk = d.clk ∧ (Dev.beginFrame c d).rst = d.rst ∧ (Dev.beginFrame c d).hif = d.hif ∧ (Dev.beginFrame c d).pins = d.pins := by
  simp [Dev.beginFrame]

@[simp] theorem Dev.phaseFrame_frame (c : Nat) (d : Dev) :
    (Dev.phaseFrame c d).now = d.now ∧ (Dev.phaseFrame c d).regs = d.regs ∧ (Dev.phaseFrame c d).luts = d.luts ∧ (Dev.phaseFrame c d).mem = d.mem ∧ (Dev.phaseFrame c d).scene = d.scene ∧ (Dev.phaseFrame c d).ledger = d.ledger ∧ (Dev.phaseFrame c d).queues = d.queues ∧ (Dev.phaseFrame c d).turn = d.turn ∧ (Dev.phaseFrame c d).lastTurn = d.lastTurn ∧ (Dev.phaseFrame c d).rings = d.rings ∧ (Dev.phaseFrame c d).comp = d.comp ∧ (Dev.phaseFrame c d).ports = d.ports ∧ (Dev.phaseFrame c d).chans = d.chans ∧ (Dev.phaseFrame c d).timers = d.timers ∧ (Dev.phaseFrame c d).mrv = d.mrv ∧ (Dev.phaseFrame c d).engines = d.engines ∧ (Dev.phaseFrame c d).regions = d.regions ∧ (Dev.phaseFrame c d).mct = d.mct ∧ (Dev.phaseFrame c d).cru = d.cru ∧ (Dev.phaseFrame c d).acc = d.acc ∧ (Dev.phaseFrame c d).flt = d.flt ∧ (Dev.phaseFrame c d).svc = d.svc ∧ (Dev.phaseFrame c d).tb = d.tb ∧ (Dev.phaseFrame c d).clk = d.clk ∧ (Dev.phaseFrame c d).rst = d.rst ∧ (Dev.phaseFrame c d).hif = d.hif ∧ (Dev.phaseFrame c d).pins = d.pins := by
  simp [Dev.phaseFrame]

@[simp] theorem Dev.modeFrame_frame (c : Nat) (first : Bool) (d : Dev) :
    (Dev.modeFrame c first d).now = d.now ∧ (Dev.modeFrame c first d).regs = d.regs ∧ (Dev.modeFrame c first d).luts = d.luts ∧ (Dev.modeFrame c first d).scene = d.scene ∧ (Dev.modeFrame c first d).ledger = d.ledger ∧ (Dev.modeFrame c first d).queues = d.queues ∧ (Dev.modeFrame c first d).turn = d.turn ∧ (Dev.modeFrame c first d).lastTurn = d.lastTurn ∧ (Dev.modeFrame c first d).comp = d.comp ∧ (Dev.modeFrame c first d).ports = d.ports ∧ (Dev.modeFrame c first d).chans = d.chans ∧ (Dev.modeFrame c first d).timers = d.timers ∧ (Dev.modeFrame c first d).mrv = d.mrv ∧ (Dev.modeFrame c first d).engines = d.engines ∧ (Dev.modeFrame c first d).regions = d.regions ∧ (Dev.modeFrame c first d).svc = d.svc ∧ (Dev.modeFrame c first d).tb = d.tb ∧ (Dev.modeFrame c first d).clk = d.clk ∧ (Dev.modeFrame c first d).rst = d.rst ∧ (Dev.modeFrame c first d).pins = d.pins := by
  unfold Dev.modeFrame; try dsimp only
  (repeat' split) <;> simp

@[simp] theorem Dev.portsAtFrame_frame (c : Nat) (first : Bool) (d : Dev) :
    (Dev.portsAtFrame c first d).now = d.now ∧ (Dev.portsAtFrame c first d).luts = d.luts ∧ (Dev.portsAtFrame c first d).mem = d.mem ∧ (Dev.portsAtFrame c first d).scene = d.scene ∧ (Dev.portsAtFrame c first d).ledger = d.ledger ∧ (Dev.portsAtFrame c first d).queues = d.queues ∧ (Dev.portsAtFrame c first d).turn = d.turn ∧ (Dev.portsAtFrame c first d).lastTurn = d.lastTurn ∧ (Dev.portsAtFrame c first d).rings = d.rings ∧ (Dev.portsAtFrame c first d).canvases = d.canvases ∧ (Dev.portsAtFrame c first d).comp = d.comp ∧ (Dev.portsAtFrame c first d).chans = d.chans ∧ (Dev.portsAtFrame c first d).timers = d.timers ∧ (Dev.portsAtFrame c first d).mrv = d.mrv ∧ (Dev.portsAtFrame c first d).engines = d.engines ∧ (Dev.portsAtFrame c first d).regions = d.regions ∧ (Dev.portsAtFrame c first d).mct = d.mct ∧ (Dev.portsAtFrame c first d).cru = d.cru ∧ (Dev.portsAtFrame c first d).acc = d.acc ∧ (Dev.portsAtFrame c first d).flt = d.flt ∧ (Dev.portsAtFrame c first d).svc = d.svc ∧ (Dev.portsAtFrame c first d).tb = d.tb ∧ (Dev.portsAtFrame c first d).clk = d.clk ∧ (Dev.portsAtFrame c first d).rst = d.rst ∧ (Dev.portsAtFrame c first d).hif = d.hif ∧ (Dev.portsAtFrame c first d).pins = d.pins := by
  simp [Dev.portsAtFrame]

@[simp] theorem Dev.fsyncFrame_frame (c : Nat) (d : Dev) :
    (Dev.fsyncFrame c d).now = d.now ∧ (Dev.fsyncFrame c d).regs = d.regs ∧ (Dev.fsyncFrame c d).luts = d.luts ∧ (Dev.fsyncFrame c d).mem = d.mem ∧ (Dev.fsyncFrame c d).scene = d.scene ∧ (Dev.fsyncFrame c d).ledger = d.ledger ∧ (Dev.fsyncFrame c d).queues = d.queues ∧ (Dev.fsyncFrame c d).turn = d.turn ∧ (Dev.fsyncFrame c d).lastTurn = d.lastTurn ∧ (Dev.fsyncFrame c d).rings = d.rings ∧ (Dev.fsyncFrame c d).canvases = d.canvases ∧ (Dev.fsyncFrame c d).comp = d.comp ∧ (Dev.fsyncFrame c d).ports = d.ports ∧ (Dev.fsyncFrame c d).chans = d.chans ∧ (Dev.fsyncFrame c d).timers = d.timers ∧ (Dev.fsyncFrame c d).mrv = d.mrv ∧ (Dev.fsyncFrame c d).engines = d.engines ∧ (Dev.fsyncFrame c d).regions = d.regions ∧ (Dev.fsyncFrame c d).mct = d.mct ∧ (Dev.fsyncFrame c d).cru = d.cru ∧ (Dev.fsyncFrame c d).acc = d.acc ∧ (Dev.fsyncFrame c d).flt = d.flt ∧ (Dev.fsyncFrame c d).svc = d.svc ∧ (Dev.fsyncFrame c d).tb = d.tb ∧ (Dev.fsyncFrame c d).clk = d.clk ∧ (Dev.fsyncFrame c d).rst = d.rst ∧ (Dev.fsyncFrame c d).hif = d.hif := by
  simp [Dev.fsyncFrame]

@[simp] theorem Dev.rotateFrame_frame (c : Nat) (d : Dev) :
    (Dev.rotateFrame c d).now = d.now ∧ (Dev.rotateFrame c d).regs = d.regs ∧ (Dev.rotateFrame c d).luts = d.luts ∧ (Dev.rotateFrame c d).mem = d.mem ∧ (Dev.rotateFrame c d).scene = d.scene ∧ (Dev.rotateFrame c d).ledger = d.ledger ∧ (Dev.rotateFrame c d).queues = d.queues ∧ (Dev.rotateFrame c d).turn = d.turn ∧ (Dev.rotateFrame c d).lastTurn = d.lastTurn ∧ (Dev.rotateFrame c d).rings = d.rings ∧ (Dev.rotateFrame c d).canvases = d.canvases ∧ (Dev.rotateFrame c d).ports = d.ports ∧ (Dev.rotateFrame c d).chans = d.chans ∧ (Dev.rotateFrame c d).timers = d.timers ∧ (Dev.rotateFrame c d).mrv = d.mrv ∧ (Dev.rotateFrame c d).engines = d.engines ∧ (Dev.rotateFrame c d).regions = d.regions ∧ (Dev.rotateFrame c d).mct = d.mct ∧ (Dev.rotateFrame c d).cru = d.cru ∧ (Dev.rotateFrame c d).acc = d.acc ∧ (Dev.rotateFrame c d).flt = d.flt ∧ (Dev.rotateFrame c d).svc = d.svc ∧ (Dev.rotateFrame c d).tb = d.tb ∧ (Dev.rotateFrame c d).clk = d.clk ∧ (Dev.rotateFrame c d).rst = d.rst ∧ (Dev.rotateFrame c d).hif = d.hif ∧ (Dev.rotateFrame c d).pins = d.pins := by
  simp [Dev.rotateFrame]

@[simp] theorem Dev.frameLocks_frame (c : Nat) (first : Bool) (d : Dev) :
    (Dev.frameLocks c first d).now = d.now ∧ (Dev.frameLocks c first d).regs = d.regs ∧ (Dev.frameLocks c first d).luts = d.luts ∧ (Dev.frameLocks c first d).mem = d.mem ∧ (Dev.frameLocks c first d).scene = d.scene ∧ (Dev.frameLocks c first d).ledger = d.ledger ∧ (Dev.frameLocks c first d).queues = d.queues ∧ (Dev.frameLocks c first d).turn = d.turn ∧ (Dev.frameLocks c first d).lastTurn = d.lastTurn ∧ (Dev.frameLocks c first d).rings = d.rings ∧ (Dev.frameLocks c first d).comp = d.comp ∧ (Dev.frameLocks c first d).ports = d.ports ∧ (Dev.frameLocks c first d).chans = d.chans ∧ (Dev.frameLocks c first d).timers = d.timers ∧ (Dev.frameLocks c first d).mrv = d.mrv ∧ (Dev.frameLocks c first d).engines = d.engines ∧ (Dev.frameLocks c first d).regions = d.regions ∧ (Dev.frameLocks c first d).mct = d.mct ∧ (Dev.frameLocks c first d).cru = d.cru ∧ (Dev.frameLocks c first d).acc = d.acc ∧ (Dev.frameLocks c first d).svc = d.svc ∧ (Dev.frameLocks c first d).tb = d.tb ∧ (Dev.frameLocks c first d).clk = d.clk ∧ (Dev.frameLocks c first d).rst = d.rst ∧ (Dev.frameLocks c first d).hif = d.hif ∧ (Dev.frameLocks c first d).pins = d.pins := by
  simp [Dev.frameLocks]

@[simp] theorem Dev.frameShows_frame (c : Nat) (first : Bool) (d : Dev) :
    (Dev.frameShows c first d).now = d.now ∧ (Dev.frameShows c first d).luts = d.luts ∧ (Dev.frameShows c first d).scene = d.scene ∧ (Dev.frameShows c first d).ledger = d.ledger ∧ (Dev.frameShows c first d).queues = d.queues ∧ (Dev.frameShows c first d).turn = d.turn ∧ (Dev.frameShows c first d).lastTurn = d.lastTurn ∧ (Dev.frameShows c first d).comp = d.comp ∧ (Dev.frameShows c first d).chans = d.chans ∧ (Dev.frameShows c first d).timers = d.timers ∧ (Dev.frameShows c first d).mrv = d.mrv ∧ (Dev.frameShows c first d).engines = d.engines ∧ (Dev.frameShows c first d).regions = d.regions ∧ (Dev.frameShows c first d).svc = d.svc ∧ (Dev.frameShows c first d).tb = d.tb ∧ (Dev.frameShows c first d).clk = d.clk ∧ (Dev.frameShows c first d).rst = d.rst ∧ (Dev.frameShows c first d).pins = d.pins := by
  simp [Dev.frameShows]

@[simp] theorem Dev.frameFollows_frame (c : Nat) (first : Bool) (d : Dev) :
    (Dev.frameFollows c first d).now = d.now ∧ (Dev.frameFollows c first d).regs = d.regs ∧ (Dev.frameFollows c first d).luts = d.luts ∧ (Dev.frameFollows c first d).scene = d.scene ∧ (Dev.frameFollows c first d).ledger = d.ledger ∧ (Dev.frameFollows c first d).turn = d.turn ∧ (Dev.frameFollows c first d).lastTurn = d.lastTurn ∧ (Dev.frameFollows c first d).rings = d.rings ∧ (Dev.frameFollows c first d).canvases = d.canvases ∧ (Dev.frameFollows c first d).ports = d.ports ∧ (Dev.frameFollows c first d).chans = d.chans ∧ (Dev.frameFollows c first d).engines = d.engines ∧ (Dev.frameFollows c first d).svc = d.svc ∧ (Dev.frameFollows c first d).tb = d.tb ∧ (Dev.frameFollows c first d).clk = d.clk ∧ (Dev.frameFollows c first d).rst = d.rst := by
  simp [Dev.frameFollows]

@[simp] theorem Dev.frameStarts_frame (c : Nat) (d : Dev) :
    (Dev.frameStarts c d).now = d.now ∧ (Dev.frameStarts c d).luts = d.luts ∧ (Dev.frameStarts c d).scene = d.scene ∧ (Dev.frameStarts c d).ledger = d.ledger ∧ (Dev.frameStarts c d).turn = d.turn ∧ (Dev.frameStarts c d).lastTurn = d.lastTurn ∧ (Dev.frameStarts c d).chans = d.chans ∧ (Dev.frameStarts c d).engines = d.engines ∧ (Dev.frameStarts c d).svc = d.svc ∧ (Dev.frameStarts c d).tb = d.tb ∧ (Dev.frameStarts c d).clk = d.clk ∧ (Dev.frameStarts c d).rst = d.rst := by
  simp [Dev.frameStarts]

@[simp] theorem Dev.enterRelink_frame (c : Nat) (d : Dev) :
    (Dev.enterRelink c d).now = d.now ∧ (Dev.enterRelink c d).luts = d.luts ∧ (Dev.enterRelink c d).scene = d.scene ∧ (Dev.enterRelink c d).ledger = d.ledger ∧ (Dev.enterRelink c d).turn = d.turn ∧ (Dev.enterRelink c d).lastTurn = d.lastTurn ∧ (Dev.enterRelink c d).chans = d.chans ∧ (Dev.enterRelink c d).timers = d.timers ∧ (Dev.enterRelink c d).engines = d.engines ∧ (Dev.enterRelink c d).svc = d.svc ∧ (Dev.enterRelink c d).tb = d.tb ∧ (Dev.enterRelink c d).clk = d.clk ∧ (Dev.enterRelink c d).rst = d.rst ∧ (Dev.enterRelink c d).pins = d.pins := by
  simp [Dev.enterRelink]

@[simp] theorem Dev.videoEnds_frame (c : Nat) (d : Dev) :
    (Dev.videoEnds c d).now = d.now ∧ (Dev.videoEnds c d).luts = d.luts ∧ (Dev.videoEnds c d).scene = d.scene ∧ (Dev.videoEnds c d).ledger = d.ledger ∧ (Dev.videoEnds c d).turn = d.turn ∧ (Dev.videoEnds c d).lastTurn = d.lastTurn ∧ (Dev.videoEnds c d).chans = d.chans ∧ (Dev.videoEnds c d).timers = d.timers ∧ (Dev.videoEnds c d).engines = d.engines ∧ (Dev.videoEnds c d).svc = d.svc ∧ (Dev.videoEnds c d).tb = d.tb ∧ (Dev.videoEnds c d).clk = d.clk ∧ (Dev.videoEnds c d).rst = d.rst ∧ (Dev.videoEnds c d).pins = d.pins := by
  simp [Dev.videoEnds]

@[simp] theorem Dev.markGroup_frame (off : Nat) (d : Dev) :
    (Dev.markGroup off d).now = d.now ∧ (Dev.markGroup off d).regs = d.regs ∧ (Dev.markGroup off d).luts = d.luts ∧ (Dev.markGroup off d).mem = d.mem ∧ (Dev.markGroup off d).scene = d.scene ∧ (Dev.markGroup off d).ledger = d.ledger ∧ (Dev.markGroup off d).queues = d.queues ∧ (Dev.markGroup off d).turn = d.turn ∧ (Dev.markGroup off d).lastTurn = d.lastTurn ∧ (Dev.markGroup off d).rings = d.rings ∧ (Dev.markGroup off d).canvases = d.canvases ∧ (Dev.markGroup off d).comp = d.comp ∧ (Dev.markGroup off d).ports = d.ports ∧ (Dev.markGroup off d).chans = d.chans ∧ (Dev.markGroup off d).timers = d.timers ∧ (Dev.markGroup off d).mrv = d.mrv ∧ (Dev.markGroup off d).engines = d.engines ∧ (Dev.markGroup off d).mct = d.mct ∧ (Dev.markGroup off d).acc = d.acc ∧ (Dev.markGroup off d).svc = d.svc ∧ (Dev.markGroup off d).tb = d.tb ∧ (Dev.markGroup off d).clk = d.clk ∧ (Dev.markGroup off d).rst = d.rst ∧ (Dev.markGroup off d).hif = d.hif ∧ (Dev.markGroup off d).pins = d.pins := by
  simp [Dev.markGroup]

@[simp] theorem Dev.cruCheck_frame (mac : Nat) (row : Nat) (grp : Nat) (f : EccFinding) (d : Dev) :
    (Dev.cruCheck mac row grp f d).now = d.now ∧ (Dev.cruCheck mac row grp f d).regs = d.regs ∧ (Dev.cruCheck mac row grp f d).luts = d.luts ∧ (Dev.cruCheck mac row grp f d).mem = d.mem ∧ (Dev.cruCheck mac row grp f d).scene = d.scene ∧ (Dev.cruCheck mac row grp f d).ledger = d.ledger ∧ (Dev.cruCheck mac row grp f d).queues = d.queues ∧ (Dev.cruCheck mac row grp f d).turn = d.turn ∧ (Dev.cruCheck mac row grp f d).lastTurn = d.lastTurn ∧ (Dev.cruCheck mac row grp f d).rings = d.rings ∧ (Dev.cruCheck mac row grp f d).canvases = d.canvases ∧ (Dev.cruCheck mac row grp f d).comp = d.comp ∧ (Dev.cruCheck mac row grp f d).ports = d.ports ∧ (Dev.cruCheck mac row grp f d).chans = d.chans ∧ (Dev.cruCheck mac row grp f d).timers = d.timers ∧ (Dev.cruCheck mac row grp f d).mrv = d.mrv ∧ (Dev.cruCheck mac row grp f d).engines = d.engines ∧ (Dev.cruCheck mac row grp f d).mct = d.mct ∧ (Dev.cruCheck mac row grp f d).acc = d.acc ∧ (Dev.cruCheck mac row grp f d).svc = d.svc ∧ (Dev.cruCheck mac row grp f d).tb = d.tb ∧ (Dev.cruCheck mac row grp f d).clk = d.clk ∧ (Dev.cruCheck mac row grp f d).rst = d.rst ∧ (Dev.cruCheck mac row grp f d).hif = d.hif ∧ (Dev.cruCheck mac row grp f d).pins = d.pins := by
  unfold Dev.cruCheck; try dsimp only
  (repeat' split) <;> simp

@[simp] theorem Dev.loseLine_frame (c : Nat) (line : Nat) (d : Dev) :
    (Dev.loseLine c line d).now = d.now ∧ (Dev.loseLine c line d).regs = d.regs ∧ (Dev.loseLine c line d).luts = d.luts ∧ (Dev.loseLine c line d).mem = d.mem ∧ (Dev.loseLine c line d).scene = d.scene ∧ (Dev.loseLine c line d).ledger = d.ledger ∧ (Dev.loseLine c line d).queues = d.queues ∧ (Dev.loseLine c line d).turn = d.turn ∧ (Dev.loseLine c line d).lastTurn = d.lastTurn ∧ (Dev.loseLine c line d).rings = d.rings ∧ (Dev.loseLine c line d).comp = d.comp ∧ (Dev.loseLine c line d).ports = d.ports ∧ (Dev.loseLine c line d).chans = d.chans ∧ (Dev.loseLine c line d).timers = d.timers ∧ (Dev.loseLine c line d).mrv = d.mrv ∧ (Dev.loseLine c line d).engines = d.engines ∧ (Dev.loseLine c line d).regions = d.regions ∧ (Dev.loseLine c line d).mct = d.mct ∧ (Dev.loseLine c line d).cru = d.cru ∧ (Dev.loseLine c line d).acc = d.acc ∧ (Dev.loseLine c line d).flt = d.flt ∧ (Dev.loseLine c line d).svc = d.svc ∧ (Dev.loseLine c line d).tb = d.tb ∧ (Dev.loseLine c line d).clk = d.clk ∧ (Dev.loseLine c line d).rst = d.rst ∧ (Dev.loseLine c line d).hif = d.hif ∧ (Dev.loseLine c line d).pins = d.pins := by
  simp [Dev.loseLine]

@[simp] theorem Dev.stagingLost_frame (d : Dev) :
    (Dev.stagingLost d).now = d.now ∧ (Dev.stagingLost d).regs = d.regs ∧ (Dev.stagingLost d).luts = d.luts ∧ (Dev.stagingLost d).mem = d.mem ∧ (Dev.stagingLost d).ledger = d.ledger ∧ (Dev.stagingLost d).queues = d.queues ∧ (Dev.stagingLost d).turn = d.turn ∧ (Dev.stagingLost d).lastTurn = d.lastTurn ∧ (Dev.stagingLost d).rings = d.rings ∧ (Dev.stagingLost d).canvases = d.canvases ∧ (Dev.stagingLost d).comp = d.comp ∧ (Dev.stagingLost d).ports = d.ports ∧ (Dev.stagingLost d).chans = d.chans ∧ (Dev.stagingLost d).timers = d.timers ∧ (Dev.stagingLost d).mrv = d.mrv ∧ (Dev.stagingLost d).engines = d.engines ∧ (Dev.stagingLost d).regions = d.regions ∧ (Dev.stagingLost d).mct = d.mct ∧ (Dev.stagingLost d).cru = d.cru ∧ (Dev.stagingLost d).acc = d.acc ∧ (Dev.stagingLost d).flt = d.flt ∧ (Dev.stagingLost d).svc = d.svc ∧ (Dev.stagingLost d).tb = d.tb ∧ (Dev.stagingLost d).clk = d.clk ∧ (Dev.stagingLost d).rst = d.rst ∧ (Dev.stagingLost d).hif = d.hif ∧ (Dev.stagingLost d).pins = d.pins := by
  unfold Dev.stagingLost; (repeat' split) <;> simp

@[simp] theorem Dev.refuseAtLatch_frame (c : Nat) (d : Dev) :
    (Dev.refuseAtLatch c d).now = d.now ∧ (Dev.refuseAtLatch c d).regs = d.regs ∧ (Dev.refuseAtLatch c d).luts = d.luts ∧ (Dev.refuseAtLatch c d).ledger = d.ledger ∧ (Dev.refuseAtLatch c d).turn = d.turn ∧ (Dev.refuseAtLatch c d).lastTurn = d.lastTurn ∧ (Dev.refuseAtLatch c d).comp = d.comp ∧ (Dev.refuseAtLatch c d).ports = d.ports ∧ (Dev.refuseAtLatch c d).chans = d.chans ∧ (Dev.refuseAtLatch c d).timers = d.timers ∧ (Dev.refuseAtLatch c d).mrv = d.mrv ∧ (Dev.refuseAtLatch c d).engines = d.engines ∧ (Dev.refuseAtLatch c d).regions = d.regions ∧ (Dev.refuseAtLatch c d).svc = d.svc ∧ (Dev.refuseAtLatch c d).tb = d.tb ∧ (Dev.refuseAtLatch c d).clk = d.clk ∧ (Dev.refuseAtLatch c d).rst = d.rst ∧ (Dev.refuseAtLatch c d).pins = d.pins := by
  unfold Dev.refuseAtLatch; (repeat' split) <;> simp

@[simp] theorem Dev.loseWord_frame (mac : Nat) (w : LocalWord) (d : Dev) :
    (Dev.loseWord mac w d).now = d.now ∧ (Dev.loseWord mac w d).regs = d.regs ∧ (Dev.loseWord mac w d).luts = d.luts ∧ (Dev.loseWord mac w d).mem = d.mem ∧ (Dev.loseWord mac w d).scene = d.scene ∧ (Dev.loseWord mac w d).ledger = d.ledger ∧ (Dev.loseWord mac w d).queues = d.queues ∧ (Dev.loseWord mac w d).turn = d.turn ∧ (Dev.loseWord mac w d).lastTurn = d.lastTurn ∧ (Dev.loseWord mac w d).rings = d.rings ∧ (Dev.loseWord mac w d).canvases = d.canvases ∧ (Dev.loseWord mac w d).comp = d.comp ∧ (Dev.loseWord mac w d).ports = d.ports ∧ (Dev.loseWord mac w d).chans = d.chans ∧ (Dev.loseWord mac w d).timers = d.timers ∧ (Dev.loseWord mac w d).mrv = d.mrv ∧ (Dev.loseWord mac w d).engines = d.engines ∧ (Dev.loseWord mac w d).regions = d.regions ∧ (Dev.loseWord mac w d).mct = d.mct ∧ (Dev.loseWord mac w d).acc = d.acc ∧ (Dev.loseWord mac w d).flt = d.flt ∧ (Dev.loseWord mac w d).svc = d.svc ∧ (Dev.loseWord mac w d).tb = d.tb ∧ (Dev.loseWord mac w d).clk = d.clk ∧ (Dev.loseWord mac w d).rst = d.rst ∧ (Dev.loseWord mac w d).hif = d.hif ∧ (Dev.loseWord mac w d).pins = d.pins := by
  simp [Dev.loseWord]

@[simp] theorem Dev.consumed_frame (who : CruConsumer) (mac : Nat) (d : Dev) :
    (Dev.consumed who mac d).now = d.now ∧ (Dev.consumed who mac d).regs = d.regs ∧ (Dev.consumed who mac d).luts = d.luts ∧ (Dev.consumed who mac d).ledger = d.ledger ∧ (Dev.consumed who mac d).turn = d.turn ∧ (Dev.consumed who mac d).lastTurn = d.lastTurn ∧ (Dev.consumed who mac d).comp = d.comp ∧ (Dev.consumed who mac d).ports = d.ports ∧ (Dev.consumed who mac d).chans = d.chans ∧ (Dev.consumed who mac d).timers = d.timers ∧ (Dev.consumed who mac d).mrv = d.mrv ∧ (Dev.consumed who mac d).engines = d.engines ∧ (Dev.consumed who mac d).regions = d.regions ∧ (Dev.consumed who mac d).svc = d.svc ∧ (Dev.consumed who mac d).tb = d.tb ∧ (Dev.consumed who mac d).clk = d.clk ∧ (Dev.consumed who mac d).rst = d.rst ∧ (Dev.consumed who mac d).pins = d.pins := by
  unfold Dev.consumed; (repeat' split) <;> simp

@[simp] theorem Dev.scrubGrant_frame (d : Dev) :
    (Dev.scrubGrant d).now = d.now ∧ (Dev.scrubGrant d).regs = d.regs ∧ (Dev.scrubGrant d).luts = d.luts ∧ (Dev.scrubGrant d).mem = d.mem ∧ (Dev.scrubGrant d).scene = d.scene ∧ (Dev.scrubGrant d).ledger = d.ledger ∧ (Dev.scrubGrant d).queues = d.queues ∧ (Dev.scrubGrant d).turn = d.turn ∧ (Dev.scrubGrant d).lastTurn = d.lastTurn ∧ (Dev.scrubGrant d).rings = d.rings ∧ (Dev.scrubGrant d).canvases = d.canvases ∧ (Dev.scrubGrant d).comp = d.comp ∧ (Dev.scrubGrant d).ports = d.ports ∧ (Dev.scrubGrant d).chans = d.chans ∧ (Dev.scrubGrant d).timers = d.timers ∧ (Dev.scrubGrant d).mrv = d.mrv ∧ (Dev.scrubGrant d).engines = d.engines ∧ (Dev.scrubGrant d).regions = d.regions ∧ (Dev.scrubGrant d).mct = d.mct ∧ (Dev.scrubGrant d).acc = d.acc ∧ (Dev.scrubGrant d).flt = d.flt ∧ (Dev.scrubGrant d).svc = d.svc ∧ (Dev.scrubGrant d).tb = d.tb ∧ (Dev.scrubGrant d).clk = d.clk ∧ (Dev.scrubGrant d).rst = d.rst ∧ (Dev.scrubGrant d).hif = d.hif ∧ (Dev.scrubGrant d).pins = d.pins := by
  simp [Dev.scrubGrant]

@[simp] theorem Dev.bistMacro_frame (mac : Nat) (rows : Nat) (d : Dev) :
    (Dev.bistMacro mac rows d).now = d.now ∧ (Dev.bistMacro mac rows d).luts = d.luts ∧ (Dev.bistMacro mac rows d).mem = d.mem ∧ (Dev.bistMacro mac rows d).ledger = d.ledger ∧ (Dev.bistMacro mac rows d).queues = d.queues ∧ (Dev.bistMacro mac rows d).turn = d.turn ∧ (Dev.bistMacro mac rows d).lastTurn = d.lastTurn ∧ (Dev.bistMacro mac rows d).rings = d.rings ∧ (Dev.bistMacro mac rows d).canvases = d.canvases ∧ (Dev.bistMacro mac rows d).ports = d.ports ∧ (Dev.bistMacro mac rows d).chans = d.chans ∧ (Dev.bistMacro mac rows d).timers = d.timers ∧ (Dev.bistMacro mac rows d).mrv = d.mrv ∧ (Dev.bistMacro mac rows d).engines = d.engines ∧ (Dev.bistMacro mac rows d).regions = d.regions ∧ (Dev.bistMacro mac rows d).acc = d.acc ∧ (Dev.bistMacro mac rows d).svc = d.svc ∧ (Dev.bistMacro mac rows d).tb = d.tb ∧ (Dev.bistMacro mac rows d).clk = d.clk ∧ (Dev.bistMacro mac rows d).rst = d.rst ∧ (Dev.bistMacro mac rows d).hif = d.hif ∧ (Dev.bistMacro mac rows d).pins = d.pins := by
  simp [Dev.bistMacro]

@[simp] theorem Dev.bist_frame (failing : List (Nat × Nat)) (d : Dev) :
    (Dev.bist failing d).now = d.now ∧ (Dev.bist failing d).luts = d.luts ∧ (Dev.bist failing d).mem = d.mem ∧ (Dev.bist failing d).ledger = d.ledger ∧ (Dev.bist failing d).queues = d.queues ∧ (Dev.bist failing d).turn = d.turn ∧ (Dev.bist failing d).lastTurn = d.lastTurn ∧ (Dev.bist failing d).rings = d.rings ∧ (Dev.bist failing d).canvases = d.canvases ∧ (Dev.bist failing d).ports = d.ports ∧ (Dev.bist failing d).chans = d.chans ∧ (Dev.bist failing d).timers = d.timers ∧ (Dev.bist failing d).mrv = d.mrv ∧ (Dev.bist failing d).engines = d.engines ∧ (Dev.bist failing d).regions = d.regions ∧ (Dev.bist failing d).acc = d.acc ∧ (Dev.bist failing d).svc = d.svc ∧ (Dev.bist failing d).tb = d.tb ∧ (Dev.bist failing d).clk = d.clk ∧ (Dev.bist failing d).rst = d.rst ∧ (Dev.bist failing d).hif = d.hif ∧ (Dev.bist failing d).pins = d.pins := by
  simp [Dev.bist]

@[simp] theorem Dev.setSlot_frame (k : Nat) (x : Slot) (d : Dev) :
    (Dev.setSlot k x d).now = d.now ∧ (Dev.setSlot k x d).regs = d.regs ∧ (Dev.setSlot k x d).luts = d.luts ∧ (Dev.setSlot k x d).mem = d.mem ∧ (Dev.setSlot k x d).scene = d.scene ∧ (Dev.setSlot k x d).ledger = d.ledger ∧ (Dev.setSlot k x d).queues = d.queues ∧ (Dev.setSlot k x d).turn = d.turn ∧ (Dev.setSlot k x d).lastTurn = d.lastTurn ∧ (Dev.setSlot k x d).rings = d.rings ∧ (Dev.setSlot k x d).canvases = d.canvases ∧ (Dev.setSlot k x d).comp = d.comp ∧ (Dev.setSlot k x d).ports = d.ports ∧ (Dev.setSlot k x d).chans = d.chans ∧ (Dev.setSlot k x d).timers = d.timers ∧ (Dev.setSlot k x d).mrv = d.mrv ∧ (Dev.setSlot k x d).engines = d.engines ∧ (Dev.setSlot k x d).regions = d.regions ∧ (Dev.setSlot k x d).mct = d.mct ∧ (Dev.setSlot k x d).cru = d.cru ∧ (Dev.setSlot k x d).acc = d.acc ∧ (Dev.setSlot k x d).flt = d.flt ∧ (Dev.setSlot k x d).tb = d.tb ∧ (Dev.setSlot k x d).clk = d.clk ∧ (Dev.setSlot k x d).rst = d.rst ∧ (Dev.setSlot k x d).hif = d.hif ∧ (Dev.setSlot k x d).pins = d.pins := by
  simp [Dev.setSlot]

@[simp] theorem Dev.watchFallback_now (k : Dev → Dev) (d : Dev) (hk : ∀ d, (k d).now = d.now) : (Dev.watchFallback k d).now = d.now := by
  simp [Dev.watchFallback, hk]

@[simp] theorem Dev.watchFallback_regs (k : Dev → Dev) (d : Dev) (hk : ∀ d, (k d).regs = d.regs) : (Dev.watchFallback k d).regs = d.regs := by
  simp [Dev.watchFallback, hk]

@[simp] theorem Dev.watchFallback_luts (k : Dev → Dev) (d : Dev) (hk : ∀ d, (k d).luts = d.luts) : (Dev.watchFallback k d).luts = d.luts := by
  simp [Dev.watchFallback, hk]

@[simp] theorem Dev.watchFallback_mem (k : Dev → Dev) (d : Dev) (hk : ∀ d, (k d).mem = d.mem) : (Dev.watchFallback k d).mem = d.mem := by
  simp [Dev.watchFallback, hk]

@[simp] theorem Dev.watchFallback_scene (k : Dev → Dev) (d : Dev) (hk : ∀ d, (k d).scene = d.scene) : (Dev.watchFallback k d).scene = d.scene := by
  simp [Dev.watchFallback, hk]

@[simp] theorem Dev.watchFallback_ledger (k : Dev → Dev) (d : Dev) (hk : ∀ d, (k d).ledger = d.ledger) : (Dev.watchFallback k d).ledger = d.ledger := by
  simp [Dev.watchFallback, hk]

@[simp] theorem Dev.watchFallback_queues (k : Dev → Dev) (d : Dev) (hk : ∀ d, (k d).queues = d.queues) : (Dev.watchFallback k d).queues = d.queues := by
  simp [Dev.watchFallback, hk]

@[simp] theorem Dev.watchFallback_turn (k : Dev → Dev) (d : Dev) (hk : ∀ d, (k d).turn = d.turn) : (Dev.watchFallback k d).turn = d.turn := by
  simp [Dev.watchFallback, hk]

@[simp] theorem Dev.watchFallback_lastTurn (k : Dev → Dev) (d : Dev) (hk : ∀ d, (k d).lastTurn = d.lastTurn) : (Dev.watchFallback k d).lastTurn = d.lastTurn := by
  simp [Dev.watchFallback, hk]

@[simp] theorem Dev.watchFallback_rings (k : Dev → Dev) (d : Dev) (hk : ∀ d, (k d).rings = d.rings) : (Dev.watchFallback k d).rings = d.rings := by
  simp [Dev.watchFallback, hk]

@[simp] theorem Dev.watchFallback_canvases (k : Dev → Dev) (d : Dev) (hk : ∀ d, (k d).canvases = d.canvases) : (Dev.watchFallback k d).canvases = d.canvases := by
  simp [Dev.watchFallback, hk]

@[simp] theorem Dev.watchFallback_comp (k : Dev → Dev) (d : Dev) (hk : ∀ d, (k d).comp = d.comp) : (Dev.watchFallback k d).comp = d.comp := by
  simp [Dev.watchFallback, hk]

@[simp] theorem Dev.watchFallback_ports (k : Dev → Dev) (d : Dev) (hk : ∀ d, (k d).ports = d.ports) : (Dev.watchFallback k d).ports = d.ports := by
  simp [Dev.watchFallback, hk]

@[simp] theorem Dev.watchFallback_chans (k : Dev → Dev) (d : Dev) (hk : ∀ d, (k d).chans = d.chans) : (Dev.watchFallback k d).chans = d.chans := by
  simp [Dev.watchFallback, hk]

@[simp] theorem Dev.watchFallback_timers (k : Dev → Dev) (d : Dev) (hk : ∀ d, (k d).timers = d.timers) : (Dev.watchFallback k d).timers = d.timers := by
  simp [Dev.watchFallback, hk]

@[simp] theorem Dev.watchFallback_mrv (k : Dev → Dev) (d : Dev) (hk : ∀ d, (k d).mrv = d.mrv) : (Dev.watchFallback k d).mrv = d.mrv := by
  simp [Dev.watchFallback, hk]

@[simp] theorem Dev.watchFallback_engines (k : Dev → Dev) (d : Dev) (hk : ∀ d, (k d).engines = d.engines) : (Dev.watchFallback k d).engines = d.engines := by
  simp [Dev.watchFallback, hk]

@[simp] theorem Dev.watchFallback_regions (k : Dev → Dev) (d : Dev) (hk : ∀ d, (k d).regions = d.regions) : (Dev.watchFallback k d).regions = d.regions := by
  simp [Dev.watchFallback, hk]

@[simp] theorem Dev.watchFallback_mct (k : Dev → Dev) (d : Dev) (hk : ∀ d, (k d).mct = d.mct) : (Dev.watchFallback k d).mct = d.mct := by
  simp [Dev.watchFallback, hk]

@[simp] theorem Dev.watchFallback_cru (k : Dev → Dev) (d : Dev) (hk : ∀ d, (k d).cru = d.cru) : (Dev.watchFallback k d).cru = d.cru := by
  simp [Dev.watchFallback, hk]

@[simp] theorem Dev.watchFallback_acc (k : Dev → Dev) (d : Dev) (hk : ∀ d, (k d).acc = d.acc) : (Dev.watchFallback k d).acc = d.acc := by
  simp [Dev.watchFallback, hk]

@[simp] theorem Dev.watchFallback_svc (k : Dev → Dev) (d : Dev) (hk : ∀ d, (k d).svc = d.svc) : (Dev.watchFallback k d).svc = d.svc := by
  simp [Dev.watchFallback, hk]

@[simp] theorem Dev.watchFallback_tb (k : Dev → Dev) (d : Dev) (hk : ∀ d, (k d).tb = d.tb) : (Dev.watchFallback k d).tb = d.tb := by
  simp [Dev.watchFallback, hk]

@[simp] theorem Dev.watchFallback_clk (k : Dev → Dev) (d : Dev) (hk : ∀ d, (k d).clk = d.clk) : (Dev.watchFallback k d).clk = d.clk := by
  simp [Dev.watchFallback, hk]

@[simp] theorem Dev.watchFallback_rst (k : Dev → Dev) (d : Dev) (hk : ∀ d, (k d).rst = d.rst) : (Dev.watchFallback k d).rst = d.rst := by
  simp [Dev.watchFallback, hk]

@[simp] theorem Dev.watchFallback_hif (k : Dev → Dev) (d : Dev) (hk : ∀ d, (k d).hif = d.hif) : (Dev.watchFallback k d).hif = d.hif := by
  simp [Dev.watchFallback, hk]

@[simp] theorem Dev.watchFallback_pins (k : Dev → Dev) (d : Dev) (hk : ∀ d, (k d).pins = d.pins) : (Dev.watchFallback k d).pins = d.pins := by
  simp [Dev.watchFallback, hk]

@[simp] theorem Dev.mbAnswer_frame (code : Nat) (words : List (Option Word)) (d : Dev) :
    (Dev.mbAnswer code words d).now = d.now ∧ (Dev.mbAnswer code words d).regs = d.regs ∧ (Dev.mbAnswer code words d).luts = d.luts ∧ (Dev.mbAnswer code words d).mem = d.mem ∧ (Dev.mbAnswer code words d).scene = d.scene ∧ (Dev.mbAnswer code words d).ledger = d.ledger ∧ (Dev.mbAnswer code words d).queues = d.queues ∧ (Dev.mbAnswer code words d).turn = d.turn ∧ (Dev.mbAnswer code words d).lastTurn = d.lastTurn ∧ (Dev.mbAnswer code words d).rings = d.rings ∧ (Dev.mbAnswer code words d).canvases = d.canvases ∧ (Dev.mbAnswer code words d).comp = d.comp ∧ (Dev.mbAnswer code words d).ports = d.ports ∧ (Dev.mbAnswer code words d).chans = d.chans ∧ (Dev.mbAnswer code words d).timers = d.timers ∧ (Dev.mbAnswer code words d).mrv = d.mrv ∧ (Dev.mbAnswer code words d).engines = d.engines ∧ (Dev.mbAnswer code words d).regions = d.regions ∧ (Dev.mbAnswer code words d).mct = d.mct ∧ (Dev.mbAnswer code words d).cru = d.cru ∧ (Dev.mbAnswer code words d).acc = d.acc ∧ (Dev.mbAnswer code words d).flt = d.flt ∧ (Dev.mbAnswer code words d).tb = d.tb ∧ (Dev.mbAnswer code words d).clk = d.clk ∧ (Dev.mbAnswer code words d).rst = d.rst ∧ (Dev.mbAnswer code words d).hif = d.hif ∧ (Dev.mbAnswer code words d).pins = d.pins := by
  simp [Dev.mbAnswer]

@[simp] theorem Dev.restartCore_frame (d : Dev) :
    (Dev.restartCore d).now = d.now ∧ (Dev.restartCore d).regs = d.regs ∧ (Dev.restartCore d).luts = d.luts ∧ (Dev.restartCore d).mem = d.mem ∧ (Dev.restartCore d).scene = d.scene ∧ (Dev.restartCore d).ledger = d.ledger ∧ (Dev.restartCore d).queues = d.queues ∧ (Dev.restartCore d).turn = d.turn ∧ (Dev.restartCore d).lastTurn = d.lastTurn ∧ (Dev.restartCore d).rings = d.rings ∧ (Dev.restartCore d).canvases = d.canvases ∧ (Dev.restartCore d).comp = d.comp ∧ (Dev.restartCore d).ports = d.ports ∧ (Dev.restartCore d).chans = d.chans ∧ (Dev.restartCore d).timers = d.timers ∧ (Dev.restartCore d).mrv = d.mrv ∧ (Dev.restartCore d).engines = d.engines ∧ (Dev.restartCore d).regions = d.regions ∧ (Dev.restartCore d).mct = d.mct ∧ (Dev.restartCore d).acc = d.acc ∧ (Dev.restartCore d).flt = d.flt ∧ (Dev.restartCore d).tb = d.tb ∧ (Dev.restartCore d).clk = d.clk ∧ (Dev.restartCore d).rst = d.rst ∧ (Dev.restartCore d).hif = d.hif ∧ (Dev.restartCore d).pins = d.pins := by
  simp [Dev.restartCore]

@[simp] theorem Dev.watchdogRestart_frame (d : Dev) :
    (Dev.watchdogRestart d).now = d.now ∧ (Dev.watchdogRestart d).regs = d.regs ∧ (Dev.watchdogRestart d).luts = d.luts ∧ (Dev.watchdogRestart d).mem = d.mem ∧ (Dev.watchdogRestart d).scene = d.scene ∧ (Dev.watchdogRestart d).ledger = d.ledger ∧ (Dev.watchdogRestart d).queues = d.queues ∧ (Dev.watchdogRestart d).turn = d.turn ∧ (Dev.watchdogRestart d).lastTurn = d.lastTurn ∧ (Dev.watchdogRestart d).rings = d.rings ∧ (Dev.watchdogRestart d).canvases = d.canvases ∧ (Dev.watchdogRestart d).comp = d.comp ∧ (Dev.watchdogRestart d).ports = d.ports ∧ (Dev.watchdogRestart d).chans = d.chans ∧ (Dev.watchdogRestart d).timers = d.timers ∧ (Dev.watchdogRestart d).mrv = d.mrv ∧ (Dev.watchdogRestart d).engines = d.engines ∧ (Dev.watchdogRestart d).regions = d.regions ∧ (Dev.watchdogRestart d).mct = d.mct ∧ (Dev.watchdogRestart d).acc = d.acc ∧ (Dev.watchdogRestart d).tb = d.tb ∧ (Dev.watchdogRestart d).clk = d.clk ∧ (Dev.watchdogRestart d).rst = d.rst ∧ (Dev.watchdogRestart d).hif = d.hif ∧ (Dev.watchdogRestart d).pins = d.pins := by
  simp [Dev.watchdogRestart]

@[simp] theorem Dev.sample_frame (temps : List ℤ) (rails : List Nat) (d : Dev) :
    (Dev.sample temps rails d).now = d.now ∧ (Dev.sample temps rails d).regs = d.regs ∧ (Dev.sample temps rails d).luts = d.luts ∧ (Dev.sample temps rails d).mem = d.mem ∧ (Dev.sample temps rails d).scene = d.scene ∧ (Dev.sample temps rails d).ledger = d.ledger ∧ (Dev.sample temps rails d).queues = d.queues ∧ (Dev.sample temps rails d).turn = d.turn ∧ (Dev.sample temps rails d).lastTurn = d.lastTurn ∧ (Dev.sample temps rails d).rings = d.rings ∧ (Dev.sample temps rails d).canvases = d.canvases ∧ (Dev.sample temps rails d).comp = d.comp ∧ (Dev.sample temps rails d).ports = d.ports ∧ (Dev.sample temps rails d).chans = d.chans ∧ (Dev.sample temps rails d).timers = d.timers ∧ (Dev.sample temps rails d).mrv = d.mrv ∧ (Dev.sample temps rails d).engines = d.engines ∧ (Dev.sample temps rails d).regions = d.regions ∧ (Dev.sample temps rails d).mct = d.mct ∧ (Dev.sample temps rails d).cru = d.cru ∧ (Dev.sample temps rails d).acc = d.acc ∧ (Dev.sample temps rails d).tb = d.tb ∧ (Dev.sample temps rails d).clk = d.clk ∧ (Dev.sample temps rails d).rst = d.rst ∧ (Dev.sample temps rails d).hif = d.hif ∧ (Dev.sample temps rails d).pins = d.pins := by
  simp [Dev.sample]

@[simp] theorem Dev.rewriteRef_frame (d : Dev) :
    (Dev.rewriteRef d).now = d.now ∧ (Dev.rewriteRef d).luts = d.luts ∧ (Dev.rewriteRef d).mem = d.mem ∧ (Dev.rewriteRef d).scene = d.scene ∧ (Dev.rewriteRef d).ledger = d.ledger ∧ (Dev.rewriteRef d).queues = d.queues ∧ (Dev.rewriteRef d).turn = d.turn ∧ (Dev.rewriteRef d).lastTurn = d.lastTurn ∧ (Dev.rewriteRef d).rings = d.rings ∧ (Dev.rewriteRef d).canvases = d.canvases ∧ (Dev.rewriteRef d).comp = d.comp ∧ (Dev.rewriteRef d).ports = d.ports ∧ (Dev.rewriteRef d).chans = d.chans ∧ (Dev.rewriteRef d).timers = d.timers ∧ (Dev.rewriteRef d).mrv = d.mrv ∧ (Dev.rewriteRef d).engines = d.engines ∧ (Dev.rewriteRef d).regions = d.regions ∧ (Dev.rewriteRef d).mct = d.mct ∧ (Dev.rewriteRef d).cru = d.cru ∧ (Dev.rewriteRef d).acc = d.acc ∧ (Dev.rewriteRef d).flt = d.flt ∧ (Dev.rewriteRef d).svc = d.svc ∧ (Dev.rewriteRef d).tb = d.tb ∧ (Dev.rewriteRef d).clk = d.clk ∧ (Dev.rewriteRef d).rst = d.rst ∧ (Dev.rewriteRef d).hif = d.hif ∧ (Dev.rewriteRef d).pins = d.pins := by
  simp [Dev.rewriteRef]

@[simp] theorem Dev.rewriteFr_frame (d : Dev) :
    (Dev.rewriteFr d).now = d.now ∧ (Dev.rewriteFr d).luts = d.luts ∧ (Dev.rewriteFr d).mem = d.mem ∧ (Dev.rewriteFr d).ledger = d.ledger ∧ (Dev.rewriteFr d).queues = d.queues ∧ (Dev.rewriteFr d).turn = d.turn ∧ (Dev.rewriteFr d).lastTurn = d.lastTurn ∧ (Dev.rewriteFr d).rings = d.rings ∧ (Dev.rewriteFr d).canvases = d.canvases ∧ (Dev.rewriteFr d).comp = d.comp ∧ (Dev.rewriteFr d).ports = d.ports ∧ (Dev.rewriteFr d).chans = d.chans ∧ (Dev.rewriteFr d).timers = d.timers ∧ (Dev.rewriteFr d).mrv = d.mrv ∧ (Dev.rewriteFr d).engines = d.engines ∧ (Dev.rewriteFr d).regions = d.regions ∧ (Dev.rewriteFr d).mct = d.mct ∧ (Dev.rewriteFr d).cru = d.cru ∧ (Dev.rewriteFr d).acc = d.acc ∧ (Dev.rewriteFr d).flt = d.flt ∧ (Dev.rewriteFr d).tb = d.tb ∧ (Dev.rewriteFr d).clk = d.clk ∧ (Dev.rewriteFr d).rst = d.rst ∧ (Dev.rewriteFr d).hif = d.hif ∧ (Dev.rewriteFr d).pins = d.pins := by
  simp [Dev.rewriteFr]

@[simp] theorem Dev.tier0_frame (i : TickInput) (d : Dev) :
    (Dev.tier0 i d).now = d.now ∧ (Dev.tier0 i d).luts = d.luts ∧ (Dev.tier0 i d).mem = d.mem ∧ (Dev.tier0 i d).ledger = d.ledger ∧ (Dev.tier0 i d).queues = d.queues ∧ (Dev.tier0 i d).turn = d.turn ∧ (Dev.tier0 i d).lastTurn = d.lastTurn ∧ (Dev.tier0 i d).rings = d.rings ∧ (Dev.tier0 i d).canvases = d.canvases ∧ (Dev.tier0 i d).comp = d.comp ∧ (Dev.tier0 i d).ports = d.ports ∧ (Dev.tier0 i d).chans = d.chans ∧ (Dev.tier0 i d).timers = d.timers ∧ (Dev.tier0 i d).mrv = d.mrv ∧ (Dev.tier0 i d).engines = d.engines ∧ (Dev.tier0 i d).regions = d.regions ∧ (Dev.tier0 i d).acc = d.acc ∧ (Dev.tier0 i d).tb = d.tb ∧ (Dev.tier0 i d).clk = d.clk ∧ (Dev.tier0 i d).rst = d.rst ∧ (Dev.tier0 i d).hif = d.hif ∧ (Dev.tier0 i d).pins = d.pins := by
  simp [Dev.tier0]

@[simp] theorem Dev.tier1_frame (tier0Us : Nat) (d : Dev) :
    (Dev.tier1 tier0Us d).now = d.now ∧ (Dev.tier1 tier0Us d).regs = d.regs ∧ (Dev.tier1 tier0Us d).luts = d.luts ∧ (Dev.tier1 tier0Us d).mem = d.mem ∧ (Dev.tier1 tier0Us d).scene = d.scene ∧ (Dev.tier1 tier0Us d).ledger = d.ledger ∧ (Dev.tier1 tier0Us d).queues = d.queues ∧ (Dev.tier1 tier0Us d).turn = d.turn ∧ (Dev.tier1 tier0Us d).lastTurn = d.lastTurn ∧ (Dev.tier1 tier0Us d).rings = d.rings ∧ (Dev.tier1 tier0Us d).canvases = d.canvases ∧ (Dev.tier1 tier0Us d).comp = d.comp ∧ (Dev.tier1 tier0Us d).ports = d.ports ∧ (Dev.tier1 tier0Us d).chans = d.chans ∧ (Dev.tier1 tier0Us d).timers = d.timers ∧ (Dev.tier1 tier0Us d).mrv = d.mrv ∧ (Dev.tier1 tier0Us d).engines = d.engines ∧ (Dev.tier1 tier0Us d).regions = d.regions ∧ (Dev.tier1 tier0Us d).mct = d.mct ∧ (Dev.tier1 tier0Us d).cru = d.cru ∧ (Dev.tier1 tier0Us d).acc = d.acc ∧ (Dev.tier1 tier0Us d).flt = d.flt ∧ (Dev.tier1 tier0Us d).tb = d.tb ∧ (Dev.tier1 tier0Us d).clk = d.clk ∧ (Dev.tier1 tier0Us d).rst = d.rst ∧ (Dev.tier1 tier0Us d).hif = d.hif ∧ (Dev.tier1 tier0Us d).pins = d.pins := by
  simp [Dev.tier1]

@[simp] theorem Dev.program_frame (flashError : Bool) (d : Dev) :
    (Dev.program flashError d).now = d.now ∧ (Dev.program flashError d).regs = d.regs ∧ (Dev.program flashError d).luts = d.luts ∧ (Dev.program flashError d).mem = d.mem ∧ (Dev.program flashError d).scene = d.scene ∧ (Dev.program flashError d).ledger = d.ledger ∧ (Dev.program flashError d).queues = d.queues ∧ (Dev.program flashError d).turn = d.turn ∧ (Dev.program flashError d).lastTurn = d.lastTurn ∧ (Dev.program flashError d).rings = d.rings ∧ (Dev.program flashError d).canvases = d.canvases ∧ (Dev.program flashError d).comp = d.comp ∧ (Dev.program flashError d).ports = d.ports ∧ (Dev.program flashError d).chans = d.chans ∧ (Dev.program flashError d).timers = d.timers ∧ (Dev.program flashError d).mrv = d.mrv ∧ (Dev.program flashError d).engines = d.engines ∧ (Dev.program flashError d).regions = d.regions ∧ (Dev.program flashError d).mct = d.mct ∧ (Dev.program flashError d).cru = d.cru ∧ (Dev.program flashError d).acc = d.acc ∧ (Dev.program flashError d).tb = d.tb ∧ (Dev.program flashError d).clk = d.clk ∧ (Dev.program flashError d).rst = d.rst ∧ (Dev.program flashError d).hif = d.hif ∧ (Dev.program flashError d).pins = d.pins := by
  unfold Dev.program; try dsimp only
  (repeat' split) <;> simp

@[simp] theorem Dev.exported_frame (s : BitVec 32) (lost : BitVec 32) (d : Dev) :
    (Dev.exported s lost d).now = d.now ∧ (Dev.exported s lost d).regs = d.regs ∧ (Dev.exported s lost d).luts = d.luts ∧ (Dev.exported s lost d).mem = d.mem ∧ (Dev.exported s lost d).scene = d.scene ∧ (Dev.exported s lost d).ledger = d.ledger ∧ (Dev.exported s lost d).queues = d.queues ∧ (Dev.exported s lost d).turn = d.turn ∧ (Dev.exported s lost d).lastTurn = d.lastTurn ∧ (Dev.exported s lost d).rings = d.rings ∧ (Dev.exported s lost d).canvases = d.canvases ∧ (Dev.exported s lost d).comp = d.comp ∧ (Dev.exported s lost d).ports = d.ports ∧ (Dev.exported s lost d).chans = d.chans ∧ (Dev.exported s lost d).timers = d.timers ∧ (Dev.exported s lost d).mrv = d.mrv ∧ (Dev.exported s lost d).engines = d.engines ∧ (Dev.exported s lost d).regions = d.regions ∧ (Dev.exported s lost d).mct = d.mct ∧ (Dev.exported s lost d).cru = d.cru ∧ (Dev.exported s lost d).acc = d.acc ∧ (Dev.exported s lost d).flt = d.flt ∧ (Dev.exported s lost d).tb = d.tb ∧ (Dev.exported s lost d).clk = d.clk ∧ (Dev.exported s lost d).rst = d.rst ∧ (Dev.exported s lost d).hif = d.hif ∧ (Dev.exported s lost d).pins = d.pins := by
  simp [Dev.exported]

@[simp] theorem Dev.exportOne_frame (d : Dev) :
    (Dev.exportOne d).now = d.now ∧ (Dev.exportOne d).regs = d.regs ∧ (Dev.exportOne d).luts = d.luts ∧ (Dev.exportOne d).scene = d.scene ∧ (Dev.exportOne d).ledger = d.ledger ∧ (Dev.exportOne d).queues = d.queues ∧ (Dev.exportOne d).turn = d.turn ∧ (Dev.exportOne d).lastTurn = d.lastTurn ∧ (Dev.exportOne d).rings = d.rings ∧ (Dev.exportOne d).canvases = d.canvases ∧ (Dev.exportOne d).comp = d.comp ∧ (Dev.exportOne d).ports = d.ports ∧ (Dev.exportOne d).chans = d.chans ∧ (Dev.exportOne d).timers = d.timers ∧ (Dev.exportOne d).mrv = d.mrv ∧ (Dev.exportOne d).engines = d.engines ∧ (Dev.exportOne d).regions = d.regions ∧ (Dev.exportOne d).acc = d.acc ∧ (Dev.exportOne d).flt = d.flt ∧ (Dev.exportOne d).tb = d.tb ∧ (Dev.exportOne d).clk = d.clk ∧ (Dev.exportOne d).rst = d.rst ∧ (Dev.exportOne d).pins = d.pins := by
  simp [Dev.exportOne]

@[simp] theorem Dev.exportAll_frame (n : Nat) (d : Dev) :
    (Dev.exportAll n d).now = d.now ∧ (Dev.exportAll n d).regs = d.regs ∧ (Dev.exportAll n d).luts = d.luts ∧ (Dev.exportAll n d).scene = d.scene ∧ (Dev.exportAll n d).ledger = d.ledger ∧ (Dev.exportAll n d).queues = d.queues ∧ (Dev.exportAll n d).turn = d.turn ∧ (Dev.exportAll n d).lastTurn = d.lastTurn ∧ (Dev.exportAll n d).rings = d.rings ∧ (Dev.exportAll n d).canvases = d.canvases ∧ (Dev.exportAll n d).comp = d.comp ∧ (Dev.exportAll n d).ports = d.ports ∧ (Dev.exportAll n d).chans = d.chans ∧ (Dev.exportAll n d).timers = d.timers ∧ (Dev.exportAll n d).mrv = d.mrv ∧ (Dev.exportAll n d).engines = d.engines ∧ (Dev.exportAll n d).regions = d.regions ∧ (Dev.exportAll n d).acc = d.acc ∧ (Dev.exportAll n d).flt = d.flt ∧ (Dev.exportAll n d).tb = d.tb ∧ (Dev.exportAll n d).clk = d.clk ∧ (Dev.exportAll n d).rst = d.rst ∧ (Dev.exportAll n d).pins = d.pins := by
  induction n generalizing d with
  | zero => simp [Dev.exportAll]
  | succ n ih => unfold Dev.exportAll; split <;> simp [ih]

@[simp] theorem Dev.faruoTick_frame (i : TickInput) (d : Dev) :
    (Dev.faruoTick i d).now = d.now ∧ (Dev.faruoTick i d).luts = d.luts ∧ (Dev.faruoTick i d).ledger = d.ledger ∧ (Dev.faruoTick i d).queues = d.queues ∧ (Dev.faruoTick i d).turn = d.turn ∧ (Dev.faruoTick i d).lastTurn = d.lastTurn ∧ (Dev.faruoTick i d).rings = d.rings ∧ (Dev.faruoTick i d).canvases = d.canvases ∧ (Dev.faruoTick i d).comp = d.comp ∧ (Dev.faruoTick i d).ports = d.ports ∧ (Dev.faruoTick i d).chans = d.chans ∧ (Dev.faruoTick i d).timers = d.timers ∧ (Dev.faruoTick i d).mrv = d.mrv ∧ (Dev.faruoTick i d).engines = d.engines ∧ (Dev.faruoTick i d).regions = d.regions ∧ (Dev.faruoTick i d).acc = d.acc ∧ (Dev.faruoTick i d).tb = d.tb ∧ (Dev.faruoTick i d).clk = d.clk ∧ (Dev.faruoTick i d).rst = d.rst ∧ (Dev.faruoTick i d).pins = d.pins := by
  simp [Dev.faruoTick]

@[simp] theorem Dev.mailboxGo_frame (m : Nat) (op : Nat) (d : Dev) :
    (Dev.mailboxGo m op d).now = d.now ∧ (Dev.mailboxGo m op d).regs = d.regs ∧ (Dev.mailboxGo m op d).luts = d.luts ∧ (Dev.mailboxGo m op d).mem = d.mem ∧ (Dev.mailboxGo m op d).scene = d.scene ∧ (Dev.mailboxGo m op d).ledger = d.ledger ∧ (Dev.mailboxGo m op d).queues = d.queues ∧ (Dev.mailboxGo m op d).turn = d.turn ∧ (Dev.mailboxGo m op d).lastTurn = d.lastTurn ∧ (Dev.mailboxGo m op d).rings = d.rings ∧ (Dev.mailboxGo m op d).canvases = d.canvases ∧ (Dev.mailboxGo m op d).comp = d.comp ∧ (Dev.mailboxGo m op d).ports = d.ports ∧ (Dev.mailboxGo m op d).chans = d.chans ∧ (Dev.mailboxGo m op d).timers = d.timers ∧ (Dev.mailboxGo m op d).mrv = d.mrv ∧ (Dev.mailboxGo m op d).engines = d.engines ∧ (Dev.mailboxGo m op d).regions = d.regions ∧ (Dev.mailboxGo m op d).mct = d.mct ∧ (Dev.mailboxGo m op d).cru = d.cru ∧ (Dev.mailboxGo m op d).acc = d.acc ∧ (Dev.mailboxGo m op d).flt = d.flt ∧ (Dev.mailboxGo m op d).tb = d.tb ∧ (Dev.mailboxGo m op d).clk = d.clk ∧ (Dev.mailboxGo m op d).rst = d.rst ∧ (Dev.mailboxGo m op d).hif = d.hif ∧ (Dev.mailboxGo m op d).pins = d.pins := by
  simp [Dev.mailboxGo]

@[simp] theorem Dev.withFlash_now (flashError : Bool) (k : Dev → Dev) (d : Dev) (hk : ∀ d, (k d).now = d.now) : (Dev.withFlash flashError k d).now = d.now := by
  simp [Dev.withFlash, hk]

@[simp] theorem Dev.withFlash_regs (flashError : Bool) (k : Dev → Dev) (d : Dev) (hk : ∀ d, (k d).regs = d.regs) : (Dev.withFlash flashError k d).regs = d.regs := by
  simp [Dev.withFlash, hk]

@[simp] theorem Dev.withFlash_luts (flashError : Bool) (k : Dev → Dev) (d : Dev) (hk : ∀ d, (k d).luts = d.luts) : (Dev.withFlash flashError k d).luts = d.luts := by
  simp [Dev.withFlash, hk]

@[simp] theorem Dev.withFlash_mem (flashError : Bool) (k : Dev → Dev) (d : Dev) (hk : ∀ d, (k d).mem = d.mem) : (Dev.withFlash flashError k d).mem = d.mem := by
  simp [Dev.withFlash, hk]

@[simp] theorem Dev.withFlash_scene (flashError : Bool) (k : Dev → Dev) (d : Dev) (hk : ∀ d, (k d).scene = d.scene) : (Dev.withFlash flashError k d).scene = d.scene := by
  simp [Dev.withFlash, hk]

@[simp] theorem Dev.withFlash_ledger (flashError : Bool) (k : Dev → Dev) (d : Dev) (hk : ∀ d, (k d).ledger = d.ledger) : (Dev.withFlash flashError k d).ledger = d.ledger := by
  simp [Dev.withFlash, hk]

@[simp] theorem Dev.withFlash_queues (flashError : Bool) (k : Dev → Dev) (d : Dev) (hk : ∀ d, (k d).queues = d.queues) : (Dev.withFlash flashError k d).queues = d.queues := by
  simp [Dev.withFlash, hk]

@[simp] theorem Dev.withFlash_turn (flashError : Bool) (k : Dev → Dev) (d : Dev) (hk : ∀ d, (k d).turn = d.turn) : (Dev.withFlash flashError k d).turn = d.turn := by
  simp [Dev.withFlash, hk]

@[simp] theorem Dev.withFlash_lastTurn (flashError : Bool) (k : Dev → Dev) (d : Dev) (hk : ∀ d, (k d).lastTurn = d.lastTurn) : (Dev.withFlash flashError k d).lastTurn = d.lastTurn := by
  simp [Dev.withFlash, hk]

@[simp] theorem Dev.withFlash_rings (flashError : Bool) (k : Dev → Dev) (d : Dev) (hk : ∀ d, (k d).rings = d.rings) : (Dev.withFlash flashError k d).rings = d.rings := by
  simp [Dev.withFlash, hk]

@[simp] theorem Dev.withFlash_canvases (flashError : Bool) (k : Dev → Dev) (d : Dev) (hk : ∀ d, (k d).canvases = d.canvases) : (Dev.withFlash flashError k d).canvases = d.canvases := by
  simp [Dev.withFlash, hk]

@[simp] theorem Dev.withFlash_comp (flashError : Bool) (k : Dev → Dev) (d : Dev) (hk : ∀ d, (k d).comp = d.comp) : (Dev.withFlash flashError k d).comp = d.comp := by
  simp [Dev.withFlash, hk]

@[simp] theorem Dev.withFlash_ports (flashError : Bool) (k : Dev → Dev) (d : Dev) (hk : ∀ d, (k d).ports = d.ports) : (Dev.withFlash flashError k d).ports = d.ports := by
  simp [Dev.withFlash, hk]

@[simp] theorem Dev.withFlash_chans (flashError : Bool) (k : Dev → Dev) (d : Dev) (hk : ∀ d, (k d).chans = d.chans) : (Dev.withFlash flashError k d).chans = d.chans := by
  simp [Dev.withFlash, hk]

@[simp] theorem Dev.withFlash_timers (flashError : Bool) (k : Dev → Dev) (d : Dev) (hk : ∀ d, (k d).timers = d.timers) : (Dev.withFlash flashError k d).timers = d.timers := by
  simp [Dev.withFlash, hk]

@[simp] theorem Dev.withFlash_mrv (flashError : Bool) (k : Dev → Dev) (d : Dev) (hk : ∀ d, (k d).mrv = d.mrv) : (Dev.withFlash flashError k d).mrv = d.mrv := by
  simp [Dev.withFlash, hk]

@[simp] theorem Dev.withFlash_engines (flashError : Bool) (k : Dev → Dev) (d : Dev) (hk : ∀ d, (k d).engines = d.engines) : (Dev.withFlash flashError k d).engines = d.engines := by
  simp [Dev.withFlash, hk]

@[simp] theorem Dev.withFlash_regions (flashError : Bool) (k : Dev → Dev) (d : Dev) (hk : ∀ d, (k d).regions = d.regions) : (Dev.withFlash flashError k d).regions = d.regions := by
  simp [Dev.withFlash, hk]

@[simp] theorem Dev.withFlash_mct (flashError : Bool) (k : Dev → Dev) (d : Dev) (hk : ∀ d, (k d).mct = d.mct) : (Dev.withFlash flashError k d).mct = d.mct := by
  simp [Dev.withFlash, hk]

@[simp] theorem Dev.withFlash_cru (flashError : Bool) (k : Dev → Dev) (d : Dev) (hk : ∀ d, (k d).cru = d.cru) : (Dev.withFlash flashError k d).cru = d.cru := by
  simp [Dev.withFlash, hk]

@[simp] theorem Dev.withFlash_acc (flashError : Bool) (k : Dev → Dev) (d : Dev) (hk : ∀ d, (k d).acc = d.acc) : (Dev.withFlash flashError k d).acc = d.acc := by
  simp [Dev.withFlash, hk]

@[simp] theorem Dev.withFlash_flt (flashError : Bool) (k : Dev → Dev) (d : Dev) (hk : ∀ d, (k d).flt = d.flt) : (Dev.withFlash flashError k d).flt = d.flt := by
  simp [Dev.withFlash, hk]

@[simp] theorem Dev.withFlash_tb (flashError : Bool) (k : Dev → Dev) (d : Dev) (hk : ∀ d, (k d).tb = d.tb) : (Dev.withFlash flashError k d).tb = d.tb := by
  simp [Dev.withFlash, hk]

@[simp] theorem Dev.withFlash_clk (flashError : Bool) (k : Dev → Dev) (d : Dev) (hk : ∀ d, (k d).clk = d.clk) : (Dev.withFlash flashError k d).clk = d.clk := by
  simp [Dev.withFlash, hk]

@[simp] theorem Dev.withFlash_rst (flashError : Bool) (k : Dev → Dev) (d : Dev) (hk : ∀ d, (k d).rst = d.rst) : (Dev.withFlash flashError k d).rst = d.rst := by
  simp [Dev.withFlash, hk]

@[simp] theorem Dev.withFlash_hif (flashError : Bool) (k : Dev → Dev) (d : Dev) (hk : ∀ d, (k d).hif = d.hif) : (Dev.withFlash flashError k d).hif = d.hif := by
  simp [Dev.withFlash, hk]

@[simp] theorem Dev.withFlash_pins (flashError : Bool) (k : Dev → Dev) (d : Dev) (hk : ∀ d, (k d).pins = d.pins) : (Dev.withFlash flashError k d).pins = d.pins := by
  simp [Dev.withFlash, hk]

@[simp] theorem Dev.mailbox_now (op : Nat) (k : Dev → Dev) (d : Dev) (hk : ∀ d, (k d).now = d.now) : (Dev.mailbox op k d).now = d.now := by
  simp [Dev.mailbox, hk]

@[simp] theorem Dev.mailbox_regs (op : Nat) (k : Dev → Dev) (d : Dev) (hk : ∀ d, (k d).regs = d.regs) : (Dev.mailbox op k d).regs = d.regs := by
  simp [Dev.mailbox, hk]

@[simp] theorem Dev.mailbox_luts (op : Nat) (k : Dev → Dev) (d : Dev) (hk : ∀ d, (k d).luts = d.luts) : (Dev.mailbox op k d).luts = d.luts := by
  simp [Dev.mailbox, hk]

@[simp] theorem Dev.mailbox_mem (op : Nat) (k : Dev → Dev) (d : Dev) (hk : ∀ d, (k d).mem = d.mem) : (Dev.mailbox op k d).mem = d.mem := by
  simp [Dev.mailbox, hk]

@[simp] theorem Dev.mailbox_scene (op : Nat) (k : Dev → Dev) (d : Dev) (hk : ∀ d, (k d).scene = d.scene) : (Dev.mailbox op k d).scene = d.scene := by
  simp [Dev.mailbox, hk]

@[simp] theorem Dev.mailbox_ledger (op : Nat) (k : Dev → Dev) (d : Dev) (hk : ∀ d, (k d).ledger = d.ledger) : (Dev.mailbox op k d).ledger = d.ledger := by
  simp [Dev.mailbox, hk]

@[simp] theorem Dev.mailbox_queues (op : Nat) (k : Dev → Dev) (d : Dev) (hk : ∀ d, (k d).queues = d.queues) : (Dev.mailbox op k d).queues = d.queues := by
  simp [Dev.mailbox, hk]

@[simp] theorem Dev.mailbox_turn (op : Nat) (k : Dev → Dev) (d : Dev) (hk : ∀ d, (k d).turn = d.turn) : (Dev.mailbox op k d).turn = d.turn := by
  simp [Dev.mailbox, hk]

@[simp] theorem Dev.mailbox_lastTurn (op : Nat) (k : Dev → Dev) (d : Dev) (hk : ∀ d, (k d).lastTurn = d.lastTurn) : (Dev.mailbox op k d).lastTurn = d.lastTurn := by
  simp [Dev.mailbox, hk]

@[simp] theorem Dev.mailbox_rings (op : Nat) (k : Dev → Dev) (d : Dev) (hk : ∀ d, (k d).rings = d.rings) : (Dev.mailbox op k d).rings = d.rings := by
  simp [Dev.mailbox, hk]

@[simp] theorem Dev.mailbox_canvases (op : Nat) (k : Dev → Dev) (d : Dev) (hk : ∀ d, (k d).canvases = d.canvases) : (Dev.mailbox op k d).canvases = d.canvases := by
  simp [Dev.mailbox, hk]

@[simp] theorem Dev.mailbox_comp (op : Nat) (k : Dev → Dev) (d : Dev) (hk : ∀ d, (k d).comp = d.comp) : (Dev.mailbox op k d).comp = d.comp := by
  simp [Dev.mailbox, hk]

@[simp] theorem Dev.mailbox_ports (op : Nat) (k : Dev → Dev) (d : Dev) (hk : ∀ d, (k d).ports = d.ports) : (Dev.mailbox op k d).ports = d.ports := by
  simp [Dev.mailbox, hk]

@[simp] theorem Dev.mailbox_chans (op : Nat) (k : Dev → Dev) (d : Dev) (hk : ∀ d, (k d).chans = d.chans) : (Dev.mailbox op k d).chans = d.chans := by
  simp [Dev.mailbox, hk]

@[simp] theorem Dev.mailbox_timers (op : Nat) (k : Dev → Dev) (d : Dev) (hk : ∀ d, (k d).timers = d.timers) : (Dev.mailbox op k d).timers = d.timers := by
  simp [Dev.mailbox, hk]

@[simp] theorem Dev.mailbox_mrv (op : Nat) (k : Dev → Dev) (d : Dev) (hk : ∀ d, (k d).mrv = d.mrv) : (Dev.mailbox op k d).mrv = d.mrv := by
  simp [Dev.mailbox, hk]

@[simp] theorem Dev.mailbox_engines (op : Nat) (k : Dev → Dev) (d : Dev) (hk : ∀ d, (k d).engines = d.engines) : (Dev.mailbox op k d).engines = d.engines := by
  simp [Dev.mailbox, hk]

@[simp] theorem Dev.mailbox_regions (op : Nat) (k : Dev → Dev) (d : Dev) (hk : ∀ d, (k d).regions = d.regions) : (Dev.mailbox op k d).regions = d.regions := by
  simp [Dev.mailbox, hk]

@[simp] theorem Dev.mailbox_mct (op : Nat) (k : Dev → Dev) (d : Dev) (hk : ∀ d, (k d).mct = d.mct) : (Dev.mailbox op k d).mct = d.mct := by
  simp [Dev.mailbox, hk]

@[simp] theorem Dev.mailbox_cru (op : Nat) (k : Dev → Dev) (d : Dev) (hk : ∀ d, (k d).cru = d.cru) : (Dev.mailbox op k d).cru = d.cru := by
  simp [Dev.mailbox, hk]

@[simp] theorem Dev.mailbox_acc (op : Nat) (k : Dev → Dev) (d : Dev) (hk : ∀ d, (k d).acc = d.acc) : (Dev.mailbox op k d).acc = d.acc := by
  simp [Dev.mailbox, hk]

@[simp] theorem Dev.mailbox_flt (op : Nat) (k : Dev → Dev) (d : Dev) (hk : ∀ d, (k d).flt = d.flt) : (Dev.mailbox op k d).flt = d.flt := by
  simp [Dev.mailbox, hk]

@[simp] theorem Dev.mailbox_tb (op : Nat) (k : Dev → Dev) (d : Dev) (hk : ∀ d, (k d).tb = d.tb) : (Dev.mailbox op k d).tb = d.tb := by
  simp [Dev.mailbox, hk]

@[simp] theorem Dev.mailbox_clk (op : Nat) (k : Dev → Dev) (d : Dev) (hk : ∀ d, (k d).clk = d.clk) : (Dev.mailbox op k d).clk = d.clk := by
  simp [Dev.mailbox, hk]

@[simp] theorem Dev.mailbox_rst (op : Nat) (k : Dev → Dev) (d : Dev) (hk : ∀ d, (k d).rst = d.rst) : (Dev.mailbox op k d).rst = d.rst := by
  simp [Dev.mailbox, hk]

@[simp] theorem Dev.mailbox_hif (op : Nat) (k : Dev → Dev) (d : Dev) (hk : ∀ d, (k d).hif = d.hif) : (Dev.mailbox op k d).hif = d.hif := by
  simp [Dev.mailbox, hk]

@[simp] theorem Dev.mailbox_pins (op : Nat) (k : Dev → Dev) (d : Dev) (hk : ∀ d, (k d).pins = d.pins) : (Dev.mailbox op k d).pins = d.pins := by
  simp [Dev.mailbox, hk]

@[simp] theorem Dev.setThresholds_frame (d : Dev) :
    (Dev.setThresholds d).now = d.now ∧ (Dev.setThresholds d).regs = d.regs ∧ (Dev.setThresholds d).luts = d.luts ∧ (Dev.setThresholds d).mem = d.mem ∧ (Dev.setThresholds d).scene = d.scene ∧ (Dev.setThresholds d).ledger = d.ledger ∧ (Dev.setThresholds d).queues = d.queues ∧ (Dev.setThresholds d).turn = d.turn ∧ (Dev.setThresholds d).lastTurn = d.lastTurn ∧ (Dev.setThresholds d).rings = d.rings ∧ (Dev.setThresholds d).canvases = d.canvases ∧ (Dev.setThresholds d).comp = d.comp ∧ (Dev.setThresholds d).ports = d.ports ∧ (Dev.setThresholds d).chans = d.chans ∧ (Dev.setThresholds d).timers = d.timers ∧ (Dev.setThresholds d).mrv = d.mrv ∧ (Dev.setThresholds d).engines = d.engines ∧ (Dev.setThresholds d).regions = d.regions ∧ (Dev.setThresholds d).mct = d.mct ∧ (Dev.setThresholds d).cru = d.cru ∧ (Dev.setThresholds d).acc = d.acc ∧ (Dev.setThresholds d).flt = d.flt ∧ (Dev.setThresholds d).tb = d.tb ∧ (Dev.setThresholds d).clk = d.clk ∧ (Dev.setThresholds d).rst = d.rst ∧ (Dev.setThresholds d).hif = d.hif ∧ (Dev.setThresholds d).pins = d.pins := by
  simp [Dev.setThresholds]

@[simp] theorem Dev.stageImage_frame (image : Option ImageHeader) (flashError : Bool) (d : Dev) :
    (Dev.stageImage image flashError d).now = d.now ∧ (Dev.stageImage image flashError d).regs = d.regs ∧ (Dev.stageImage image flashError d).luts = d.luts ∧ (Dev.stageImage image flashError d).mem = d.mem ∧ (Dev.stageImage image flashError d).scene = d.scene ∧ (Dev.stageImage image flashError d).ledger = d.ledger ∧ (Dev.stageImage image flashError d).queues = d.queues ∧ (Dev.stageImage image flashError d).turn = d.turn ∧ (Dev.stageImage image flashError d).lastTurn = d.lastTurn ∧ (Dev.stageImage image flashError d).rings = d.rings ∧ (Dev.stageImage image flashError d).canvases = d.canvases ∧ (Dev.stageImage image flashError d).comp = d.comp ∧ (Dev.stageImage image flashError d).ports = d.ports ∧ (Dev.stageImage image flashError d).chans = d.chans ∧ (Dev.stageImage image flashError d).timers = d.timers ∧ (Dev.stageImage image flashError d).mrv = d.mrv ∧ (Dev.stageImage image flashError d).engines = d.engines ∧ (Dev.stageImage image flashError d).regions = d.regions ∧ (Dev.stageImage image flashError d).acc = d.acc ∧ (Dev.stageImage image flashError d).tb = d.tb ∧ (Dev.stageImage image flashError d).clk = d.clk ∧ (Dev.stageImage image flashError d).rst = d.rst ∧ (Dev.stageImage image flashError d).hif = d.hif ∧ (Dev.stageImage image flashError d).pins = d.pins := by
  unfold Dev.stageImage; try dsimp only
  (repeat' split) <;> simp

@[simp] theorem Dev.cold_frame (d : Dev) : (Dev.cold d).now = d.now := by
  simp [Dev.cold]

@[simp] theorem Dev.rebudget_frame (d : Dev) :
    (Dev.rebudget d).now = d.now ∧ (Dev.rebudget d).regs = d.regs ∧ (Dev.rebudget d).luts = d.luts ∧ (Dev.rebudget d).mem = d.mem ∧ (Dev.rebudget d).scene = d.scene ∧ (Dev.rebudget d).queues = d.queues ∧ (Dev.rebudget d).turn = d.turn ∧ (Dev.rebudget d).lastTurn = d.lastTurn ∧ (Dev.rebudget d).rings = d.rings ∧ (Dev.rebudget d).canvases = d.canvases ∧ (Dev.rebudget d).comp = d.comp ∧ (Dev.rebudget d).ports = d.ports ∧ (Dev.rebudget d).chans = d.chans ∧ (Dev.rebudget d).timers = d.timers ∧ (Dev.rebudget d).mrv = d.mrv ∧ (Dev.rebudget d).engines = d.engines ∧ (Dev.rebudget d).regions = d.regions ∧ (Dev.rebudget d).mct = d.mct ∧ (Dev.rebudget d).cru = d.cru ∧ (Dev.rebudget d).acc = d.acc ∧ (Dev.rebudget d).flt = d.flt ∧ (Dev.rebudget d).svc = d.svc ∧ (Dev.rebudget d).tb = d.tb ∧ (Dev.rebudget d).clk = d.clk ∧ (Dev.rebudget d).rst = d.rst ∧ (Dev.rebudget d).hif = d.hif ∧ (Dev.rebudget d).pins = d.pins := by
  simp [Dev.rebudget]

@[simp] theorem Dev.bootMask_frame (n : Nat) (m : BitVec 40) (d : Dev) :
    (Dev.bootMask n m d).now = d.now ∧ (Dev.bootMask n m d).luts = d.luts ∧ (Dev.bootMask n m d).mem = d.mem ∧ (Dev.bootMask n m d).scene = d.scene ∧ (Dev.bootMask n m d).ledger = d.ledger ∧ (Dev.bootMask n m d).queues = d.queues ∧ (Dev.bootMask n m d).turn = d.turn ∧ (Dev.bootMask n m d).lastTurn = d.lastTurn ∧ (Dev.bootMask n m d).rings = d.rings ∧ (Dev.bootMask n m d).canvases = d.canvases ∧ (Dev.bootMask n m d).comp = d.comp ∧ (Dev.bootMask n m d).ports = d.ports ∧ (Dev.bootMask n m d).chans = d.chans ∧ (Dev.bootMask n m d).timers = d.timers ∧ (Dev.bootMask n m d).mrv = d.mrv ∧ (Dev.bootMask n m d).engines = d.engines ∧ (Dev.bootMask n m d).regions = d.regions ∧ (Dev.bootMask n m d).mct = d.mct ∧ (Dev.bootMask n m d).cru = d.cru ∧ (Dev.bootMask n m d).acc = d.acc ∧ (Dev.bootMask n m d).flt = d.flt ∧ (Dev.bootMask n m d).svc = d.svc ∧ (Dev.bootMask n m d).tb = d.tb ∧ (Dev.bootMask n m d).clk = d.clk ∧ (Dev.bootMask n m d).rst = d.rst ∧ (Dev.bootMask n m d).hif = d.hif ∧ (Dev.bootMask n m d).pins = d.pins := by
  simp [Dev.bootMask]

@[simp] theorem Dev.boot_frame (k : Nat) (h : ImageHeader) (fell : Bool) (d : Dev) :
    (Dev.boot k h fell d).now = d.now ∧ (Dev.boot k h fell d).luts = d.luts ∧ (Dev.boot k h fell d).mem = d.mem ∧ (Dev.boot k h fell d).scene = d.scene ∧ (Dev.boot k h fell d).queues = d.queues ∧ (Dev.boot k h fell d).turn = d.turn ∧ (Dev.boot k h fell d).lastTurn = d.lastTurn ∧ (Dev.boot k h fell d).rings = d.rings ∧ (Dev.boot k h fell d).canvases = d.canvases ∧ (Dev.boot k h fell d).ports = d.ports ∧ (Dev.boot k h fell d).chans = d.chans ∧ (Dev.boot k h fell d).timers = d.timers ∧ (Dev.boot k h fell d).mrv = d.mrv ∧ (Dev.boot k h fell d).engines = d.engines ∧ (Dev.boot k h fell d).regions = d.regions ∧ (Dev.boot k h fell d).mct = d.mct ∧ (Dev.boot k h fell d).cru = d.cru ∧ (Dev.boot k h fell d).acc = d.acc ∧ (Dev.boot k h fell d).tb = d.tb ∧ (Dev.boot k h fell d).hif = d.hif ∧ (Dev.boot k h fell d).pins = d.pins := by
  simp [Dev.boot]

@[simp] theorem Dev.recover_frame (d : Dev) :
    (Dev.recover d).now = d.now ∧ (Dev.recover d).regs = d.regs ∧ (Dev.recover d).luts = d.luts ∧ (Dev.recover d).mem = d.mem ∧ (Dev.recover d).scene = d.scene ∧ (Dev.recover d).ledger = d.ledger ∧ (Dev.recover d).queues = d.queues ∧ (Dev.recover d).turn = d.turn ∧ (Dev.recover d).lastTurn = d.lastTurn ∧ (Dev.recover d).rings = d.rings ∧ (Dev.recover d).canvases = d.canvases ∧ (Dev.recover d).comp = d.comp ∧ (Dev.recover d).ports = d.ports ∧ (Dev.recover d).chans = d.chans ∧ (Dev.recover d).timers = d.timers ∧ (Dev.recover d).mrv = d.mrv ∧ (Dev.recover d).engines = d.engines ∧ (Dev.recover d).regions = d.regions ∧ (Dev.recover d).mct = d.mct ∧ (Dev.recover d).cru = d.cru ∧ (Dev.recover d).acc = d.acc ∧ (Dev.recover d).tb = d.tb ∧ (Dev.recover d).clk = d.clk ∧ (Dev.recover d).hif = d.hif ∧ (Dev.recover d).pins = d.pins := by
  simp [Dev.recover]

@[simp] theorem Dev.trySlots_frame (k : Nat) (d : Dev) :
    (Dev.trySlots k d).now = d.now ∧ (Dev.trySlots k d).luts = d.luts ∧ (Dev.trySlots k d).mem = d.mem ∧ (Dev.trySlots k d).scene = d.scene ∧ (Dev.trySlots k d).queues = d.queues ∧ (Dev.trySlots k d).turn = d.turn ∧ (Dev.trySlots k d).lastTurn = d.lastTurn ∧ (Dev.trySlots k d).rings = d.rings ∧ (Dev.trySlots k d).canvases = d.canvases ∧ (Dev.trySlots k d).ports = d.ports ∧ (Dev.trySlots k d).chans = d.chans ∧ (Dev.trySlots k d).timers = d.timers ∧ (Dev.trySlots k d).mrv = d.mrv ∧ (Dev.trySlots k d).engines = d.engines ∧ (Dev.trySlots k d).regions = d.regions ∧ (Dev.trySlots k d).mct = d.mct ∧ (Dev.trySlots k d).cru = d.cru ∧ (Dev.trySlots k d).acc = d.acc ∧ (Dev.trySlots k d).tb = d.tb ∧ (Dev.trySlots k d).hif = d.hif ∧ (Dev.trySlots k d).pins = d.pins := by
  unfold Dev.trySlots; (repeat' split) <;> simp

@[simp] theorem Dev.boardWrites_frame (k : Nat) (x : Option Slot) (d : Dev) :
    (Dev.boardWrites k x d).now = d.now ∧ (Dev.boardWrites k x d).regs = d.regs ∧ (Dev.boardWrites k x d).luts = d.luts ∧ (Dev.boardWrites k x d).mem = d.mem ∧ (Dev.boardWrites k x d).scene = d.scene ∧ (Dev.boardWrites k x d).ledger = d.ledger ∧ (Dev.boardWrites k x d).queues = d.queues ∧ (Dev.boardWrites k x d).turn = d.turn ∧ (Dev.boardWrites k x d).lastTurn = d.lastTurn ∧ (Dev.boardWrites k x d).rings = d.rings ∧ (Dev.boardWrites k x d).canvases = d.canvases ∧ (Dev.boardWrites k x d).comp = d.comp ∧ (Dev.boardWrites k x d).ports = d.ports ∧ (Dev.boardWrites k x d).chans = d.chans ∧ (Dev.boardWrites k x d).timers = d.timers ∧ (Dev.boardWrites k x d).mrv = d.mrv ∧ (Dev.boardWrites k x d).engines = d.engines ∧ (Dev.boardWrites k x d).regions = d.regions ∧ (Dev.boardWrites k x d).mct = d.mct ∧ (Dev.boardWrites k x d).cru = d.cru ∧ (Dev.boardWrites k x d).acc = d.acc ∧ (Dev.boardWrites k x d).flt = d.flt ∧ (Dev.boardWrites k x d).tb = d.tb ∧ (Dev.boardWrites k x d).clk = d.clk ∧ (Dev.boardWrites k x d).rst = d.rst ∧ (Dev.boardWrites k x d).hif = d.hif ∧ (Dev.boardWrites k x d).pins = d.pins := by
  unfold Dev.boardWrites; (repeat' split) <;> simp

@[simp] theorem Dev.supervise_frame (d : Dev) :
    (Dev.supervise d).now = d.now ∧ (Dev.supervise d).regs = d.regs ∧ (Dev.supervise d).luts = d.luts ∧ (Dev.supervise d).mem = d.mem ∧ (Dev.supervise d).scene = d.scene ∧ (Dev.supervise d).ledger = d.ledger ∧ (Dev.supervise d).queues = d.queues ∧ (Dev.supervise d).turn = d.turn ∧ (Dev.supervise d).lastTurn = d.lastTurn ∧ (Dev.supervise d).rings = d.rings ∧ (Dev.supervise d).canvases = d.canvases ∧ (Dev.supervise d).comp = d.comp ∧ (Dev.supervise d).chans = d.chans ∧ (Dev.supervise d).timers = d.timers ∧ (Dev.supervise d).mrv = d.mrv ∧ (Dev.supervise d).engines = d.engines ∧ (Dev.supervise d).regions = d.regions ∧ (Dev.supervise d).mct = d.mct ∧ (Dev.supervise d).cru = d.cru ∧ (Dev.supervise d).acc = d.acc ∧ (Dev.supervise d).flt = d.flt ∧ (Dev.supervise d).svc = d.svc ∧ (Dev.supervise d).tb = d.tb ∧ (Dev.supervise d).clk = d.clk ∧ (Dev.supervise d).rst = d.rst ∧ (Dev.supervise d).hif = d.hif ∧ (Dev.supervise d).pins = d.pins := by
  simp [Dev.supervise]

@[simp] theorem Dev.trainLane_frame (l : Nat) (p : LanePasses) (d : Dev) :
    (Dev.trainLane l p d).now = d.now ∧ (Dev.trainLane l p d).regs = d.regs ∧ (Dev.trainLane l p d).luts = d.luts ∧ (Dev.trainLane l p d).mem = d.mem ∧ (Dev.trainLane l p d).scene = d.scene ∧ (Dev.trainLane l p d).ledger = d.ledger ∧ (Dev.trainLane l p d).queues = d.queues ∧ (Dev.trainLane l p d).turn = d.turn ∧ (Dev.trainLane l p d).lastTurn = d.lastTurn ∧ (Dev.trainLane l p d).rings = d.rings ∧ (Dev.trainLane l p d).canvases = d.canvases ∧ (Dev.trainLane l p d).comp = d.comp ∧ (Dev.trainLane l p d).ports = d.ports ∧ (Dev.trainLane l p d).chans = d.chans ∧ (Dev.trainLane l p d).timers = d.timers ∧ (Dev.trainLane l p d).mrv = d.mrv ∧ (Dev.trainLane l p d).engines = d.engines ∧ (Dev.trainLane l p d).regions = d.regions ∧ (Dev.trainLane l p d).cru = d.cru ∧ (Dev.trainLane l p d).acc = d.acc ∧ (Dev.trainLane l p d).svc = d.svc ∧ (Dev.trainLane l p d).tb = d.tb ∧ (Dev.trainLane l p d).clk = d.clk ∧ (Dev.trainLane l p d).rst = d.rst ∧ (Dev.trainLane l p d).hif = d.hif ∧ (Dev.trainLane l p d).pins = d.pins := by
  unfold Dev.trainLane; try dsimp only
  (repeat' split) <;> simp

@[simp] theorem Dev.startSites_frame (d : Dev) :
    (Dev.startSites d).now = d.now ∧ (Dev.startSites d).regs = d.regs ∧ (Dev.startSites d).luts = d.luts ∧ (Dev.startSites d).mem = d.mem ∧ (Dev.startSites d).scene = d.scene ∧ (Dev.startSites d).ledger = d.ledger ∧ (Dev.startSites d).queues = d.queues ∧ (Dev.startSites d).turn = d.turn ∧ (Dev.startSites d).lastTurn = d.lastTurn ∧ (Dev.startSites d).rings = d.rings ∧ (Dev.startSites d).canvases = d.canvases ∧ (Dev.startSites d).comp = d.comp ∧ (Dev.startSites d).ports = d.ports ∧ (Dev.startSites d).chans = d.chans ∧ (Dev.startSites d).timers = d.timers ∧ (Dev.startSites d).mrv = d.mrv ∧ (Dev.startSites d).engines = d.engines ∧ (Dev.startSites d).regions = d.regions ∧ (Dev.startSites d).cru = d.cru ∧ (Dev.startSites d).acc = d.acc ∧ (Dev.startSites d).svc = d.svc ∧ (Dev.startSites d).tb = d.tb ∧ (Dev.startSites d).clk = d.clk ∧ (Dev.startSites d).rst = d.rst ∧ (Dev.startSites d).hif = d.hif ∧ (Dev.startSites d).pins = d.pins := by
  unfold Dev.startSites; try dsimp only
  (repeat' split) <;> simp

@[simp] theorem Dev.startLanes_frame (d : Dev) :
    (Dev.startLanes d).now = d.now ∧ (Dev.startLanes d).regs = d.regs ∧ (Dev.startLanes d).luts = d.luts ∧ (Dev.startLanes d).mem = d.mem ∧ (Dev.startLanes d).scene = d.scene ∧ (Dev.startLanes d).ledger = d.ledger ∧ (Dev.startLanes d).queues = d.queues ∧ (Dev.startLanes d).turn = d.turn ∧ (Dev.startLanes d).lastTurn = d.lastTurn ∧ (Dev.startLanes d).rings = d.rings ∧ (Dev.startLanes d).canvases = d.canvases ∧ (Dev.startLanes d).comp = d.comp ∧ (Dev.startLanes d).ports = d.ports ∧ (Dev.startLanes d).chans = d.chans ∧ (Dev.startLanes d).timers = d.timers ∧ (Dev.startLanes d).mrv = d.mrv ∧ (Dev.startLanes d).engines = d.engines ∧ (Dev.startLanes d).regions = d.regions ∧ (Dev.startLanes d).cru = d.cru ∧ (Dev.startLanes d).acc = d.acc ∧ (Dev.startLanes d).flt = d.flt ∧ (Dev.startLanes d).svc = d.svc ∧ (Dev.startLanes d).tb = d.tb ∧ (Dev.startLanes d).clk = d.clk ∧ (Dev.startLanes d).rst = d.rst ∧ (Dev.startLanes d).hif = d.hif ∧ (Dev.startLanes d).pins = d.pins := by
  simp [Dev.startLanes]

@[simp] theorem Dev.writeTiming_frame (t : MemTiming) (d : Dev) :
    (Dev.writeTiming t d).now = d.now ∧ (Dev.writeTiming t d).luts = d.luts ∧ (Dev.writeTiming t d).mem = d.mem ∧ (Dev.writeTiming t d).scene = d.scene ∧ (Dev.writeTiming t d).ledger = d.ledger ∧ (Dev.writeTiming t d).queues = d.queues ∧ (Dev.writeTiming t d).turn = d.turn ∧ (Dev.writeTiming t d).lastTurn = d.lastTurn ∧ (Dev.writeTiming t d).rings = d.rings ∧ (Dev.writeTiming t d).canvases = d.canvases ∧ (Dev.writeTiming t d).comp = d.comp ∧ (Dev.writeTiming t d).ports = d.ports ∧ (Dev.writeTiming t d).chans = d.chans ∧ (Dev.writeTiming t d).timers = d.timers ∧ (Dev.writeTiming t d).mrv = d.mrv ∧ (Dev.writeTiming t d).engines = d.engines ∧ (Dev.writeTiming t d).regions = d.regions ∧ (Dev.writeTiming t d).cru = d.cru ∧ (Dev.writeTiming t d).acc = d.acc ∧ (Dev.writeTiming t d).flt = d.flt ∧ (Dev.writeTiming t d).tb = d.tb ∧ (Dev.writeTiming t d).clk = d.clk ∧ (Dev.writeTiming t d).rst = d.rst ∧ (Dev.writeTiming t d).hif = d.hif ∧ (Dev.writeTiming t d).pins = d.pins := by
  simp [Dev.writeTiming]

@[simp] theorem Dev.warmTrigger_frame (kind : Nat) (d : Dev) :
    (Dev.warmTrigger kind d).now = d.now ∧ (Dev.warmTrigger kind d).regs = d.regs ∧ (Dev.warmTrigger kind d).luts = d.luts ∧ (Dev.warmTrigger kind d).mem = d.mem ∧ (Dev.warmTrigger kind d).ledger = d.ledger ∧ (Dev.warmTrigger kind d).regions = d.regions ∧ (Dev.warmTrigger kind d).mct = d.mct ∧ (Dev.warmTrigger kind d).cru = d.cru ∧ (Dev.warmTrigger kind d).acc = d.acc ∧ (Dev.warmTrigger kind d).flt = d.flt ∧ (Dev.warmTrigger kind d).svc = d.svc ∧ (Dev.warmTrigger kind d).tb = d.tb ∧ (Dev.warmTrigger kind d).hif = d.hif := by
  simp [Dev.warmTrigger]

@[simp] theorem Dev.warmPages_frame (d : Dev) :
    (Dev.warmPages d).now = d.now ∧ (Dev.warmPages d).luts = d.luts ∧ (Dev.warmPages d).mem = d.mem ∧ (Dev.warmPages d).scene = d.scene ∧ (Dev.warmPages d).queues = d.queues ∧ (Dev.warmPages d).turn = d.turn ∧ (Dev.warmPages d).lastTurn = d.lastTurn ∧ (Dev.warmPages d).rings = d.rings ∧ (Dev.warmPages d).canvases = d.canvases ∧ (Dev.warmPages d).comp = d.comp ∧ (Dev.warmPages d).ports = d.ports ∧ (Dev.warmPages d).chans = d.chans ∧ (Dev.warmPages d).timers = d.timers ∧ (Dev.warmPages d).mrv = d.mrv ∧ (Dev.warmPages d).engines = d.engines ∧ (Dev.warmPages d).svc = d.svc ∧ (Dev.warmPages d).tb = d.tb ∧ (Dev.warmPages d).rst = d.rst ∧ (Dev.warmPages d).hif = d.hif ∧ (Dev.warmPages d).pins = d.pins := by
  simp [Dev.warmPages]

@[simp] theorem Dev.landFlight_frame (d : Dev) :
    (Dev.landFlight d).now = d.now ∧ (Dev.landFlight d).regs = d.regs ∧ (Dev.landFlight d).luts = d.luts ∧ (Dev.landFlight d).mem = d.mem ∧ (Dev.landFlight d).ledger = d.ledger ∧ (Dev.landFlight d).queues = d.queues ∧ (Dev.landFlight d).turn = d.turn ∧ (Dev.landFlight d).lastTurn = d.lastTurn ∧ (Dev.landFlight d).rings = d.rings ∧ (Dev.landFlight d).canvases = d.canvases ∧ (Dev.landFlight d).comp = d.comp ∧ (Dev.landFlight d).ports = d.ports ∧ (Dev.landFlight d).chans = d.chans ∧ (Dev.landFlight d).timers = d.timers ∧ (Dev.landFlight d).mrv = d.mrv ∧ (Dev.landFlight d).engines = d.engines ∧ (Dev.landFlight d).regions = d.regions ∧ (Dev.landFlight d).mct = d.mct ∧ (Dev.landFlight d).acc = d.acc ∧ (Dev.landFlight d).flt = d.flt ∧ (Dev.landFlight d).svc = d.svc ∧ (Dev.landFlight d).tb = d.tb ∧ (Dev.landFlight d).clk = d.clk ∧ (Dev.landFlight d).rst = d.rst ∧ (Dev.landFlight d).hif = d.hif ∧ (Dev.landFlight d).pins = d.pins := by
  simp [Dev.landFlight]

@[simp] theorem Dev.warmDone_frame (d : Dev) :
    (Dev.warmDone d).now = d.now ∧ (Dev.warmDone d).luts = d.luts ∧ (Dev.warmDone d).mem = d.mem ∧ (Dev.warmDone d).queues = d.queues ∧ (Dev.warmDone d).turn = d.turn ∧ (Dev.warmDone d).lastTurn = d.lastTurn ∧ (Dev.warmDone d).rings = d.rings ∧ (Dev.warmDone d).canvases = d.canvases ∧ (Dev.warmDone d).chans = d.chans ∧ (Dev.warmDone d).timers = d.timers ∧ (Dev.warmDone d).mrv = d.mrv ∧ (Dev.warmDone d).engines = d.engines ∧ (Dev.warmDone d).tb = d.tb ∧ (Dev.warmDone d).pins = d.pins := by
  unfold Dev.warmDone; try dsimp only
  (repeat' split) <;> simp

@[simp] theorem Dev.setFlr_frame (v : Nat) (x : Flr) (d : Dev) :
    (Dev.setFlr v x d).now = d.now ∧ (Dev.setFlr v x d).regs = d.regs ∧ (Dev.setFlr v x d).luts = d.luts ∧ (Dev.setFlr v x d).mem = d.mem ∧ (Dev.setFlr v x d).scene = d.scene ∧ (Dev.setFlr v x d).ledger = d.ledger ∧ (Dev.setFlr v x d).queues = d.queues ∧ (Dev.setFlr v x d).turn = d.turn ∧ (Dev.setFlr v x d).lastTurn = d.lastTurn ∧ (Dev.setFlr v x d).rings = d.rings ∧ (Dev.setFlr v x d).canvases = d.canvases ∧ (Dev.setFlr v x d).comp = d.comp ∧ (Dev.setFlr v x d).ports = d.ports ∧ (Dev.setFlr v x d).chans = d.chans ∧ (Dev.setFlr v x d).timers = d.timers ∧ (Dev.setFlr v x d).mrv = d.mrv ∧ (Dev.setFlr v x d).engines = d.engines ∧ (Dev.setFlr v x d).regions = d.regions ∧ (Dev.setFlr v x d).mct = d.mct ∧ (Dev.setFlr v x d).cru = d.cru ∧ (Dev.setFlr v x d).acc = d.acc ∧ (Dev.setFlr v x d).flt = d.flt ∧ (Dev.setFlr v x d).svc = d.svc ∧ (Dev.setFlr v x d).tb = d.tb ∧ (Dev.setFlr v x d).clk = d.clk ∧ (Dev.setFlr v x d).hif = d.hif ∧ (Dev.setFlr v x d).pins = d.pins := by
  simp [Dev.setFlr]

@[simp] theorem Dev.flrQueue_frame (q : Nat) (d : Dev) :
    (Dev.flrQueue q d).now = d.now ∧ (Dev.flrQueue q d).luts = d.luts ∧ (Dev.flrQueue q d).scene = d.scene ∧ (Dev.flrQueue q d).ledger = d.ledger ∧ (Dev.flrQueue q d).lastTurn = d.lastTurn ∧ (Dev.flrQueue q d).canvases = d.canvases ∧ (Dev.flrQueue q d).comp = d.comp ∧ (Dev.flrQueue q d).ports = d.ports ∧ (Dev.flrQueue q d).chans = d.chans ∧ (Dev.flrQueue q d).timers = d.timers ∧ (Dev.flrQueue q d).mrv = d.mrv ∧ (Dev.flrQueue q d).engines = d.engines ∧ (Dev.flrQueue q d).regions = d.regions ∧ (Dev.flrQueue q d).svc = d.svc ∧ (Dev.flrQueue q d).tb = d.tb ∧ (Dev.flrQueue q d).clk = d.clk ∧ (Dev.flrQueue q d).rst = d.rst ∧ (Dev.flrQueue q d).pins = d.pins := by
  unfold Dev.flrQueue; try dsimp only
  (repeat' split) <;> simp

@[simp] theorem Dev.flrChan_frame (ch : Nat) (d : Dev) :
    (Dev.flrChan ch d).now = d.now ∧ (Dev.flrChan ch d).regs = d.regs ∧ (Dev.flrChan ch d).luts = d.luts ∧ (Dev.flrChan ch d).scene = d.scene ∧ (Dev.flrChan ch d).ledger = d.ledger ∧ (Dev.flrChan ch d).turn = d.turn ∧ (Dev.flrChan ch d).lastTurn = d.lastTurn ∧ (Dev.flrChan ch d).canvases = d.canvases ∧ (Dev.flrChan ch d).comp = d.comp ∧ (Dev.flrChan ch d).ports = d.ports ∧ (Dev.flrChan ch d).timers = d.timers ∧ (Dev.flrChan ch d).mrv = d.mrv ∧ (Dev.flrChan ch d).engines = d.engines ∧ (Dev.flrChan ch d).regions = d.regions ∧ (Dev.flrChan ch d).svc = d.svc ∧ (Dev.flrChan ch d).tb = d.tb ∧ (Dev.flrChan ch d).clk = d.clk ∧ (Dev.flrChan ch d).rst = d.rst ∧ (Dev.flrChan ch d).pins = d.pins := by
  unfold Dev.flrChan; (repeat' split) <;> simp

@[simp] theorem Dev.flrEngine_frame (e : Nat) (d : Dev) :
    (Dev.flrEngine e d).now = d.now ∧ (Dev.flrEngine e d).regs = d.regs ∧ (Dev.flrEngine e d).luts = d.luts ∧ (Dev.flrEngine e d).scene = d.scene ∧ (Dev.flrEngine e d).ledger = d.ledger ∧ (Dev.flrEngine e d).turn = d.turn ∧ (Dev.flrEngine e d).lastTurn = d.lastTurn ∧ (Dev.flrEngine e d).canvases = d.canvases ∧ (Dev.flrEngine e d).comp = d.comp ∧ (Dev.flrEngine e d).ports = d.ports ∧ (Dev.flrEngine e d).chans = d.chans ∧ (Dev.flrEngine e d).timers = d.timers ∧ (Dev.flrEngine e d).mrv = d.mrv ∧ (Dev.flrEngine e d).regions = d.regions ∧ (Dev.flrEngine e d).svc = d.svc ∧ (Dev.flrEngine e d).tb = d.tb ∧ (Dev.flrEngine e d).clk = d.clk ∧ (Dev.flrEngine e d).rst = d.rst ∧ (Dev.flrEngine e d).pins = d.pins := by
  unfold Dev.flrEngine; (repeat' split) <;> simp

@[simp] theorem Dev.startFlr_frame (v : Nat) (d : Dev) :
    (Dev.startFlr v d).now = d.now ∧ (Dev.startFlr v d).luts = d.luts ∧ (Dev.startFlr v d).scene = d.scene ∧ (Dev.startFlr v d).ledger = d.ledger ∧ (Dev.startFlr v d).lastTurn = d.lastTurn ∧ (Dev.startFlr v d).canvases = d.canvases ∧ (Dev.startFlr v d).comp = d.comp ∧ (Dev.startFlr v d).ports = d.ports ∧ (Dev.startFlr v d).timers = d.timers ∧ (Dev.startFlr v d).regions = d.regions ∧ (Dev.startFlr v d).svc = d.svc ∧ (Dev.startFlr v d).tb = d.tb ∧ (Dev.startFlr v d).clk = d.clk ∧ (Dev.startFlr v d).pins = d.pins := by
  simp [Dev.startFlr]

@[simp] theorem Dev.issueClears_frame (v n : Nat) (d : Dev) :
    (Dev.issueClears v n d).now = d.now ∧ (Dev.issueClears v n d).regs = d.regs ∧ (Dev.issueClears v n d).luts = d.luts ∧ (Dev.issueClears v n d).mem = d.mem ∧ (Dev.issueClears v n d).ledger = d.ledger ∧ (Dev.issueClears v n d).queues = d.queues ∧ (Dev.issueClears v n d).turn = d.turn ∧ (Dev.issueClears v n d).lastTurn = d.lastTurn ∧ (Dev.issueClears v n d).rings = d.rings ∧ (Dev.issueClears v n d).canvases = d.canvases ∧ (Dev.issueClears v n d).comp = d.comp ∧ (Dev.issueClears v n d).ports = d.ports ∧ (Dev.issueClears v n d).chans = d.chans ∧ (Dev.issueClears v n d).timers = d.timers ∧ (Dev.issueClears v n d).mrv = d.mrv ∧ (Dev.issueClears v n d).engines = d.engines ∧ (Dev.issueClears v n d).regions = d.regions ∧ (Dev.issueClears v n d).mct = d.mct ∧ (Dev.issueClears v n d).cru = d.cru ∧ (Dev.issueClears v n d).acc = d.acc ∧ (Dev.issueClears v n d).flt = d.flt ∧ (Dev.issueClears v n d).svc = d.svc ∧ (Dev.issueClears v n d).tb = d.tb ∧ (Dev.issueClears v n d).clk = d.clk ∧ (Dev.issueClears v n d).hif = d.hif ∧ (Dev.issueClears v n d).pins = d.pins := by
  induction n generalizing d with
  | zero => simp [Dev.issueClears]
  | succ n ih => unfold Dev.issueClears; dsimp only; (repeat' split) <;> simp [ih]

@[simp] theorem Dev.sendPending_frame (f : Nat) (v : Nat) (d : Dev) :
    (Dev.sendPending f v d).now = d.now ∧ (Dev.sendPending f v d).regs = d.regs ∧ (Dev.sendPending f v d).luts = d.luts ∧ (Dev.sendPending f v d).mem = d.mem ∧ (Dev.sendPending f v d).scene = d.scene ∧ (Dev.sendPending f v d).ledger = d.ledger ∧ (Dev.sendPending f v d).queues = d.queues ∧ (Dev.sendPending f v d).turn = d.turn ∧ (Dev.sendPending f v d).lastTurn = d.lastTurn ∧ (Dev.sendPending f v d).rings = d.rings ∧ (Dev.sendPending f v d).canvases = d.canvases ∧ (Dev.sendPending f v d).comp = d.comp ∧ (Dev.sendPending f v d).ports = d.ports ∧ (Dev.sendPending f v d).chans = d.chans ∧ (Dev.sendPending f v d).timers = d.timers ∧ (Dev.sendPending f v d).mrv = d.mrv ∧ (Dev.sendPending f v d).engines = d.engines ∧ (Dev.sendPending f v d).regions = d.regions ∧ (Dev.sendPending f v d).mct = d.mct ∧ (Dev.sendPending f v d).cru = d.cru ∧ (Dev.sendPending f v d).acc = d.acc ∧ (Dev.sendPending f v d).flt = d.flt ∧ (Dev.sendPending f v d).svc = d.svc ∧ (Dev.sendPending f v d).tb = d.tb ∧ (Dev.sendPending f v d).clk = d.clk ∧ (Dev.sendPending f v d).rst = d.rst ∧ (Dev.sendPending f v d).pins = d.pins := by
  simp [Dev.sendPending]

@[simp] theorem Dev.writeMsix_frame (f : Nat) (v : Nat) (w : Nat) (data : Word) (d : Dev) :
    (Dev.writeMsix f v w data d).now = d.now ∧ (Dev.writeMsix f v w data d).regs = d.regs ∧ (Dev.writeMsix f v w data d).luts = d.luts ∧ (Dev.writeMsix f v w data d).mem = d.mem ∧ (Dev.writeMsix f v w data d).scene = d.scene ∧ (Dev.writeMsix f v w data d).ledger = d.ledger ∧ (Dev.writeMsix f v w data d).queues = d.queues ∧ (Dev.writeMsix f v w data d).turn = d.turn ∧ (Dev.writeMsix f v w data d).lastTurn = d.lastTurn ∧ (Dev.writeMsix f v w data d).rings = d.rings ∧ (Dev.writeMsix f v w data d).canvases = d.canvases ∧ (Dev.writeMsix f v w data d).comp = d.comp ∧ (Dev.writeMsix f v w data d).ports = d.ports ∧ (Dev.writeMsix f v w data d).chans = d.chans ∧ (Dev.writeMsix f v w data d).timers = d.timers ∧ (Dev.writeMsix f v w data d).mrv = d.mrv ∧ (Dev.writeMsix f v w data d).engines = d.engines ∧ (Dev.writeMsix f v w data d).regions = d.regions ∧ (Dev.writeMsix f v w data d).mct = d.mct ∧ (Dev.writeMsix f v w data d).cru = d.cru ∧ (Dev.writeMsix f v w data d).acc = d.acc ∧ (Dev.writeMsix f v w data d).flt = d.flt ∧ (Dev.writeMsix f v w data d).svc = d.svc ∧ (Dev.writeMsix f v w data d).tb = d.tb ∧ (Dev.writeMsix f v w data d).clk = d.clk ∧ (Dev.writeMsix f v w data d).rst = d.rst ∧ (Dev.writeMsix f v w data d).pins = d.pins := by
  simp [Dev.writeMsix]

@[simp] theorem Dev.tapLoad_frame (i : TapInstr) (tdo : List Bool) (d : Dev) :
    (Dev.tapLoad i tdo d).now = d.now ∧ (Dev.tapLoad i tdo d).regs = d.regs ∧ (Dev.tapLoad i tdo d).luts = d.luts ∧ (Dev.tapLoad i tdo d).mem = d.mem ∧ (Dev.tapLoad i tdo d).scene = d.scene ∧ (Dev.tapLoad i tdo d).ledger = d.ledger ∧ (Dev.tapLoad i tdo d).queues = d.queues ∧ (Dev.tapLoad i tdo d).turn = d.turn ∧ (Dev.tapLoad i tdo d).lastTurn = d.lastTurn ∧ (Dev.tapLoad i tdo d).rings = d.rings ∧ (Dev.tapLoad i tdo d).canvases = d.canvases ∧ (Dev.tapLoad i tdo d).comp = d.comp ∧ (Dev.tapLoad i tdo d).ports = d.ports ∧ (Dev.tapLoad i tdo d).chans = d.chans ∧ (Dev.tapLoad i tdo d).timers = d.timers ∧ (Dev.tapLoad i tdo d).mrv = d.mrv ∧ (Dev.tapLoad i tdo d).engines = d.engines ∧ (Dev.tapLoad i tdo d).regions = d.regions ∧ (Dev.tapLoad i tdo d).mct = d.mct ∧ (Dev.tapLoad i tdo d).cru = d.cru ∧ (Dev.tapLoad i tdo d).acc = d.acc ∧ (Dev.tapLoad i tdo d).flt = d.flt ∧ (Dev.tapLoad i tdo d).svc = d.svc ∧ (Dev.tapLoad i tdo d).tb = d.tb ∧ (Dev.tapLoad i tdo d).clk = d.clk ∧ (Dev.tapLoad i tdo d).rst = d.rst ∧ (Dev.tapLoad i tdo d).hif = d.hif := by
  simp [Dev.tapLoad]

@[simp] theorem Dev.clearSticky_frame (k : Nat) (w : Word) (d : Dev) :
    (Dev.clearSticky k w d).now = d.now ∧ (Dev.clearSticky k w d).regs = d.regs ∧ (Dev.clearSticky k w d).luts = d.luts ∧ (Dev.clearSticky k w d).mem = d.mem ∧ (Dev.clearSticky k w d).scene = d.scene ∧ (Dev.clearSticky k w d).ledger = d.ledger ∧ (Dev.clearSticky k w d).queues = d.queues ∧ (Dev.clearSticky k w d).turn = d.turn ∧ (Dev.clearSticky k w d).lastTurn = d.lastTurn ∧ (Dev.clearSticky k w d).rings = d.rings ∧ (Dev.clearSticky k w d).canvases = d.canvases ∧ (Dev.clearSticky k w d).comp = d.comp ∧ (Dev.clearSticky k w d).ports = d.ports ∧ (Dev.clearSticky k w d).chans = d.chans ∧ (Dev.clearSticky k w d).timers = d.timers ∧ (Dev.clearSticky k w d).mrv = d.mrv ∧ (Dev.clearSticky k w d).engines = d.engines ∧ (Dev.clearSticky k w d).regions = d.regions ∧ (Dev.clearSticky k w d).mct = d.mct ∧ (Dev.clearSticky k w d).cru = d.cru ∧ (Dev.clearSticky k w d).acc = d.acc ∧ (Dev.clearSticky k w d).svc = d.svc ∧ (Dev.clearSticky k w d).tb = d.tb ∧ (Dev.clearSticky k w d).clk = d.clk ∧ (Dev.clearSticky k w d).rst = d.rst ∧ (Dev.clearSticky k w d).hif = d.hif ∧ (Dev.clearSticky k w d).pins = d.pins := by
  simp [Dev.clearSticky]

@[simp] theorem Dev.writeSrcCfg_frame (w : Word) (armed : Bool) (d : Dev) :
    (Dev.writeSrcCfg w armed d).now = d.now ∧ (Dev.writeSrcCfg w armed d).regs = d.regs ∧ (Dev.writeSrcCfg w armed d).luts = d.luts ∧ (Dev.writeSrcCfg w armed d).mem = d.mem ∧ (Dev.writeSrcCfg w armed d).scene = d.scene ∧ (Dev.writeSrcCfg w armed d).ledger = d.ledger ∧ (Dev.writeSrcCfg w armed d).queues = d.queues ∧ (Dev.writeSrcCfg w armed d).turn = d.turn ∧ (Dev.writeSrcCfg w armed d).lastTurn = d.lastTurn ∧ (Dev.writeSrcCfg w armed d).rings = d.rings ∧ (Dev.writeSrcCfg w armed d).canvases = d.canvases ∧ (Dev.writeSrcCfg w armed d).comp = d.comp ∧ (Dev.writeSrcCfg w armed d).ports = d.ports ∧ (Dev.writeSrcCfg w armed d).chans = d.chans ∧ (Dev.writeSrcCfg w armed d).timers = d.timers ∧ (Dev.writeSrcCfg w armed d).mrv = d.mrv ∧ (Dev.writeSrcCfg w armed d).engines = d.engines ∧ (Dev.writeSrcCfg w armed d).regions = d.regions ∧ (Dev.writeSrcCfg w armed d).mct = d.mct ∧ (Dev.writeSrcCfg w armed d).cru = d.cru ∧ (Dev.writeSrcCfg w armed d).acc = d.acc ∧ (Dev.writeSrcCfg w armed d).svc = d.svc ∧ (Dev.writeSrcCfg w armed d).tb = d.tb ∧ (Dev.writeSrcCfg w armed d).clk = d.clk ∧ (Dev.writeSrcCfg w armed d).rst = d.rst ∧ (Dev.writeSrcCfg w armed d).hif = d.hif ∧ (Dev.writeSrcCfg w armed d).pins = d.pins := by
  unfold Dev.writeSrcCfg; (repeat' split) <;> simp

@[simp] theorem Dev.readLog_frame (m : Nat) (seq : Word) (d : Dev) :
    (Dev.readLog m seq d).now = d.now ∧ (Dev.readLog m seq d).regs = d.regs ∧ (Dev.readLog m seq d).luts = d.luts ∧ (Dev.readLog m seq d).mem = d.mem ∧ (Dev.readLog m seq d).scene = d.scene ∧ (Dev.readLog m seq d).ledger = d.ledger ∧ (Dev.readLog m seq d).queues = d.queues ∧ (Dev.readLog m seq d).turn = d.turn ∧ (Dev.readLog m seq d).lastTurn = d.lastTurn ∧ (Dev.readLog m seq d).rings = d.rings ∧ (Dev.readLog m seq d).canvases = d.canvases ∧ (Dev.readLog m seq d).comp = d.comp ∧ (Dev.readLog m seq d).ports = d.ports ∧ (Dev.readLog m seq d).chans = d.chans ∧ (Dev.readLog m seq d).timers = d.timers ∧ (Dev.readLog m seq d).mrv = d.mrv ∧ (Dev.readLog m seq d).engines = d.engines ∧ (Dev.readLog m seq d).regions = d.regions ∧ (Dev.readLog m seq d).mct = d.mct ∧ (Dev.readLog m seq d).cru = d.cru ∧ (Dev.readLog m seq d).acc = d.acc ∧ (Dev.readLog m seq d).svc = d.svc ∧ (Dev.readLog m seq d).tb = d.tb ∧ (Dev.readLog m seq d).clk = d.clk ∧ (Dev.readLog m seq d).rst = d.rst ∧ (Dev.readLog m seq d).hif = d.hif ∧ (Dev.readLog m seq d).pins = d.pins := by
  simp [Dev.readLog]

@[simp] theorem Dev.resetFaultSettings_frame (d : Dev) :
    (Dev.resetFaultSettings d).now = d.now ∧ (Dev.resetFaultSettings d).luts = d.luts ∧ (Dev.resetFaultSettings d).mem = d.mem ∧ (Dev.resetFaultSettings d).scene = d.scene ∧ (Dev.resetFaultSettings d).ledger = d.ledger ∧ (Dev.resetFaultSettings d).queues = d.queues ∧ (Dev.resetFaultSettings d).turn = d.turn ∧ (Dev.resetFaultSettings d).lastTurn = d.lastTurn ∧ (Dev.resetFaultSettings d).rings = d.rings ∧ (Dev.resetFaultSettings d).canvases = d.canvases ∧ (Dev.resetFaultSettings d).comp = d.comp ∧ (Dev.resetFaultSettings d).ports = d.ports ∧ (Dev.resetFaultSettings d).chans = d.chans ∧ (Dev.resetFaultSettings d).timers = d.timers ∧ (Dev.resetFaultSettings d).mrv = d.mrv ∧ (Dev.resetFaultSettings d).engines = d.engines ∧ (Dev.resetFaultSettings d).regions = d.regions ∧ (Dev.resetFaultSettings d).mct = d.mct ∧ (Dev.resetFaultSettings d).cru = d.cru ∧ (Dev.resetFaultSettings d).acc = d.acc ∧ (Dev.resetFaultSettings d).svc = d.svc ∧ (Dev.resetFaultSettings d).tb = d.tb ∧ (Dev.resetFaultSettings d).clk = d.clk ∧ (Dev.resetFaultSettings d).rst = d.rst ∧ (Dev.resetFaultSettings d).hif = d.hif ∧ (Dev.resetFaultSettings d).pins = d.pins := by
  simp [Dev.resetFaultSettings]

@[simp] theorem Dev.resetLog_frame (d : Dev) :
    (Dev.resetLog d).now = d.now ∧ (Dev.resetLog d).luts = d.luts ∧ (Dev.resetLog d).mem = d.mem ∧ (Dev.resetLog d).scene = d.scene ∧ (Dev.resetLog d).ledger = d.ledger ∧ (Dev.resetLog d).queues = d.queues ∧ (Dev.resetLog d).turn = d.turn ∧ (Dev.resetLog d).lastTurn = d.lastTurn ∧ (Dev.resetLog d).rings = d.rings ∧ (Dev.resetLog d).canvases = d.canvases ∧ (Dev.resetLog d).comp = d.comp ∧ (Dev.resetLog d).ports = d.ports ∧ (Dev.resetLog d).chans = d.chans ∧ (Dev.resetLog d).timers = d.timers ∧ (Dev.resetLog d).mrv = d.mrv ∧ (Dev.resetLog d).engines = d.engines ∧ (Dev.resetLog d).regions = d.regions ∧ (Dev.resetLog d).mct = d.mct ∧ (Dev.resetLog d).cru = d.cru ∧ (Dev.resetLog d).acc = d.acc ∧ (Dev.resetLog d).svc = d.svc ∧ (Dev.resetLog d).tb = d.tb ∧ (Dev.resetLog d).clk = d.clk ∧ (Dev.resetLog d).rst = d.rst ∧ (Dev.resetLog d).hif = d.hif ∧ (Dev.resetLog d).pins = d.pins := by
  simp [Dev.resetLog]

@[simp] theorem Dev.loadEntry_frame (d : Dev) :
    (Dev.loadEntry d).now = d.now ∧ (Dev.loadEntry d).luts = d.luts ∧ (Dev.loadEntry d).mem = d.mem ∧ (Dev.loadEntry d).scene = d.scene ∧ (Dev.loadEntry d).ledger = d.ledger ∧ (Dev.loadEntry d).queues = d.queues ∧ (Dev.loadEntry d).turn = d.turn ∧ (Dev.loadEntry d).lastTurn = d.lastTurn ∧ (Dev.loadEntry d).rings = d.rings ∧ (Dev.loadEntry d).canvases = d.canvases ∧ (Dev.loadEntry d).comp = d.comp ∧ (Dev.loadEntry d).ports = d.ports ∧ (Dev.loadEntry d).chans = d.chans ∧ (Dev.loadEntry d).timers = d.timers ∧ (Dev.loadEntry d).mrv = d.mrv ∧ (Dev.loadEntry d).engines = d.engines ∧ (Dev.loadEntry d).regions = d.regions ∧ (Dev.loadEntry d).mct = d.mct ∧ (Dev.loadEntry d).cru = d.cru ∧ (Dev.loadEntry d).acc = d.acc ∧ (Dev.loadEntry d).flt = d.flt ∧ (Dev.loadEntry d).svc = d.svc ∧ (Dev.loadEntry d).tb = d.tb ∧ (Dev.loadEntry d).clk = d.clk ∧ (Dev.loadEntry d).rst = d.rst ∧ (Dev.loadEntry d).hif = d.hif ∧ (Dev.loadEntry d).pins = d.pins := by
  simp [Dev.loadEntry]

@[simp] theorem Dev.selWritten_frame (old : Word) (d : Dev) :
    (Dev.selWritten old d).now = d.now ∧ (Dev.selWritten old d).luts = d.luts ∧ (Dev.selWritten old d).mem = d.mem ∧ (Dev.selWritten old d).scene = d.scene ∧ (Dev.selWritten old d).ledger = d.ledger ∧ (Dev.selWritten old d).queues = d.queues ∧ (Dev.selWritten old d).turn = d.turn ∧ (Dev.selWritten old d).lastTurn = d.lastTurn ∧ (Dev.selWritten old d).rings = d.rings ∧ (Dev.selWritten old d).canvases = d.canvases ∧ (Dev.selWritten old d).comp = d.comp ∧ (Dev.selWritten old d).ports = d.ports ∧ (Dev.selWritten old d).chans = d.chans ∧ (Dev.selWritten old d).timers = d.timers ∧ (Dev.selWritten old d).mrv = d.mrv ∧ (Dev.selWritten old d).engines = d.engines ∧ (Dev.selWritten old d).regions = d.regions ∧ (Dev.selWritten old d).mct = d.mct ∧ (Dev.selWritten old d).cru = d.cru ∧ (Dev.selWritten old d).acc = d.acc ∧ (Dev.selWritten old d).flt = d.flt ∧ (Dev.selWritten old d).svc = d.svc ∧ (Dev.selWritten old d).tb = d.tb ∧ (Dev.selWritten old d).clk = d.clk ∧ (Dev.selWritten old d).rst = d.rst ∧ (Dev.selWritten old d).hif = d.hif ∧ (Dev.selWritten old d).pins = d.pins := by
  simp [Dev.selWritten]

@[simp] theorem Dev.commitEntry_frame (d : Dev) :
    (Dev.commitEntry d).now = d.now ∧ (Dev.commitEntry d).luts = d.luts ∧ (Dev.commitEntry d).mem = d.mem ∧ (Dev.commitEntry d).scene = d.scene ∧ (Dev.commitEntry d).ledger = d.ledger ∧ (Dev.commitEntry d).queues = d.queues ∧ (Dev.commitEntry d).turn = d.turn ∧ (Dev.commitEntry d).lastTurn = d.lastTurn ∧ (Dev.commitEntry d).rings = d.rings ∧ (Dev.commitEntry d).canvases = d.canvases ∧ (Dev.commitEntry d).comp = d.comp ∧ (Dev.commitEntry d).ports = d.ports ∧ (Dev.commitEntry d).chans = d.chans ∧ (Dev.commitEntry d).timers = d.timers ∧ (Dev.commitEntry d).mrv = d.mrv ∧ (Dev.commitEntry d).engines = d.engines ∧ (Dev.commitEntry d).regions = d.regions ∧ (Dev.commitEntry d).mct = d.mct ∧ (Dev.commitEntry d).cru = d.cru ∧ (Dev.commitEntry d).flt = d.flt ∧ (Dev.commitEntry d).svc = d.svc ∧ (Dev.commitEntry d).tb = d.tb ∧ (Dev.commitEntry d).clk = d.clk ∧ (Dev.commitEntry d).rst = d.rst ∧ (Dev.commitEntry d).hif = d.hif ∧ (Dev.commitEntry d).pins = d.pins := by
  simp [Dev.commitEntry]

@[simp] theorem Dev.lockTables_frame (d : Dev) :
    (Dev.lockTables d).now = d.now ∧ (Dev.lockTables d).regs = d.regs ∧ (Dev.lockTables d).luts = d.luts ∧ (Dev.lockTables d).mem = d.mem ∧ (Dev.lockTables d).scene = d.scene ∧ (Dev.lockTables d).ledger = d.ledger ∧ (Dev.lockTables d).queues = d.queues ∧ (Dev.lockTables d).turn = d.turn ∧ (Dev.lockTables d).lastTurn = d.lastTurn ∧ (Dev.lockTables d).rings = d.rings ∧ (Dev.lockTables d).canvases = d.canvases ∧ (Dev.lockTables d).comp = d.comp ∧ (Dev.lockTables d).ports = d.ports ∧ (Dev.lockTables d).chans = d.chans ∧ (Dev.lockTables d).timers = d.timers ∧ (Dev.lockTables d).mrv = d.mrv ∧ (Dev.lockTables d).engines = d.engines ∧ (Dev.lockTables d).regions = d.regions ∧ (Dev.lockTables d).mct = d.mct ∧ (Dev.lockTables d).cru = d.cru ∧ (Dev.lockTables d).flt = d.flt ∧ (Dev.lockTables d).svc = d.svc ∧ (Dev.lockTables d).tb = d.tb ∧ (Dev.lockTables d).clk = d.clk ∧ (Dev.lockTables d).rst = d.rst ∧ (Dev.lockTables d).hif = d.hif ∧ (Dev.lockTables d).pins = d.pins := by
  simp [Dev.lockTables]

@[simp] theorem Dev.setSnap_frame (n : Nat) (x : Snap) (d : Dev) :
    (Dev.setSnap n x d).now = d.now ∧ (Dev.setSnap n x d).luts = d.luts ∧ (Dev.setSnap n x d).mem = d.mem ∧ (Dev.setSnap n x d).scene = d.scene ∧ (Dev.setSnap n x d).ledger = d.ledger ∧ (Dev.setSnap n x d).queues = d.queues ∧ (Dev.setSnap n x d).turn = d.turn ∧ (Dev.setSnap n x d).lastTurn = d.lastTurn ∧ (Dev.setSnap n x d).rings = d.rings ∧ (Dev.setSnap n x d).canvases = d.canvases ∧ (Dev.setSnap n x d).comp = d.comp ∧ (Dev.setSnap n x d).ports = d.ports ∧ (Dev.setSnap n x d).chans = d.chans ∧ (Dev.setSnap n x d).timers = d.timers ∧ (Dev.setSnap n x d).mrv = d.mrv ∧ (Dev.setSnap n x d).engines = d.engines ∧ (Dev.setSnap n x d).regions = d.regions ∧ (Dev.setSnap n x d).mct = d.mct ∧ (Dev.setSnap n x d).cru = d.cru ∧ (Dev.setSnap n x d).acc = d.acc ∧ (Dev.setSnap n x d).flt = d.flt ∧ (Dev.setSnap n x d).svc = d.svc ∧ (Dev.setSnap n x d).tb = d.tb ∧ (Dev.setSnap n x d).clk = d.clk ∧ (Dev.setSnap n x d).rst = d.rst ∧ (Dev.setSnap n x d).hif = d.hif ∧ (Dev.setSnap n x d).pins = d.pins := by
  simp [Dev.setSnap]

@[simp] theorem Dev.landSnap_frame (n : Nat) (d : Dev) :
    (Dev.landSnap n d).now = d.now ∧ (Dev.landSnap n d).luts = d.luts ∧ (Dev.landSnap n d).mem = d.mem ∧ (Dev.landSnap n d).scene = d.scene ∧ (Dev.landSnap n d).ledger = d.ledger ∧ (Dev.landSnap n d).queues = d.queues ∧ (Dev.landSnap n d).turn = d.turn ∧ (Dev.landSnap n d).lastTurn = d.lastTurn ∧ (Dev.landSnap n d).rings = d.rings ∧ (Dev.landSnap n d).canvases = d.canvases ∧ (Dev.landSnap n d).comp = d.comp ∧ (Dev.landSnap n d).ports = d.ports ∧ (Dev.landSnap n d).chans = d.chans ∧ (Dev.landSnap n d).timers = d.timers ∧ (Dev.landSnap n d).mrv = d.mrv ∧ (Dev.landSnap n d).engines = d.engines ∧ (Dev.landSnap n d).regions = d.regions ∧ (Dev.landSnap n d).mct = d.mct ∧ (Dev.landSnap n d).cru = d.cru ∧ (Dev.landSnap n d).acc = d.acc ∧ (Dev.landSnap n d).flt = d.flt ∧ (Dev.landSnap n d).svc = d.svc ∧ (Dev.landSnap n d).tb = d.tb ∧ (Dev.landSnap n d).clk = d.clk ∧ (Dev.landSnap n d).rst = d.rst ∧ (Dev.landSnap n d).hif = d.hif ∧ (Dev.landSnap n d).pins = d.pins := by
  unfold Dev.landSnap; try dsimp only
  (repeat' split) <;> simp

@[simp] theorem Dev.landSnaps_frame (d : Dev) :
    (Dev.landSnaps d).now = d.now ∧ (Dev.landSnaps d).luts = d.luts ∧ (Dev.landSnaps d).mem = d.mem ∧ (Dev.landSnaps d).scene = d.scene ∧ (Dev.landSnaps d).ledger = d.ledger ∧ (Dev.landSnaps d).queues = d.queues ∧ (Dev.landSnaps d).turn = d.turn ∧ (Dev.landSnaps d).lastTurn = d.lastTurn ∧ (Dev.landSnaps d).rings = d.rings ∧ (Dev.landSnaps d).canvases = d.canvases ∧ (Dev.landSnaps d).comp = d.comp ∧ (Dev.landSnaps d).ports = d.ports ∧ (Dev.landSnaps d).chans = d.chans ∧ (Dev.landSnaps d).timers = d.timers ∧ (Dev.landSnaps d).mrv = d.mrv ∧ (Dev.landSnaps d).engines = d.engines ∧ (Dev.landSnaps d).regions = d.regions ∧ (Dev.landSnaps d).mct = d.mct ∧ (Dev.landSnaps d).cru = d.cru ∧ (Dev.landSnaps d).acc = d.acc ∧ (Dev.landSnaps d).flt = d.flt ∧ (Dev.landSnaps d).svc = d.svc ∧ (Dev.landSnaps d).tb = d.tb ∧ (Dev.landSnaps d).clk = d.clk ∧ (Dev.landSnaps d).rst = d.rst ∧ (Dev.landSnaps d).hif = d.hif ∧ (Dev.landSnaps d).pins = d.pins := by
  simp [Dev.landSnaps]

@[simp] theorem Dev.readSide_frame (m : Nat) (off : Nat) (d : Dev) :
    (Dev.readSide m off d).now = d.now ∧ (Dev.readSide m off d).luts = d.luts ∧ (Dev.readSide m off d).mem = d.mem ∧ (Dev.readSide m off d).scene = d.scene ∧ (Dev.readSide m off d).ledger = d.ledger ∧ (Dev.readSide m off d).queues = d.queues ∧ (Dev.readSide m off d).turn = d.turn ∧ (Dev.readSide m off d).lastTurn = d.lastTurn ∧ (Dev.readSide m off d).rings = d.rings ∧ (Dev.readSide m off d).canvases = d.canvases ∧ (Dev.readSide m off d).comp = d.comp ∧ (Dev.readSide m off d).ports = d.ports ∧ (Dev.readSide m off d).chans = d.chans ∧ (Dev.readSide m off d).timers = d.timers ∧ (Dev.readSide m off d).mrv = d.mrv ∧ (Dev.readSide m off d).engines = d.engines ∧ (Dev.readSide m off d).regions = d.regions ∧ (Dev.readSide m off d).mct = d.mct ∧ (Dev.readSide m off d).cru = d.cru ∧ (Dev.readSide m off d).svc = d.svc ∧ (Dev.readSide m off d).tb = d.tb ∧ (Dev.readSide m off d).clk = d.clk ∧ (Dev.readSide m off d).rst = d.rst ∧ (Dev.readSide m off d).hif = d.hif ∧ (Dev.readSide m off d).pins = d.pins := by
  unfold Dev.readSide; (repeat' split) <;> simp

@[simp] theorem Dev.readAnswer_frame (q : Quad) (d : Dev) :
    (Dev.readAnswer q d).now = d.now ∧ (Dev.readAnswer q d).regs = d.regs ∧ (Dev.readAnswer q d).luts = d.luts ∧ (Dev.readAnswer q d).mem = d.mem ∧ (Dev.readAnswer q d).scene = d.scene ∧ (Dev.readAnswer q d).ledger = d.ledger ∧ (Dev.readAnswer q d).queues = d.queues ∧ (Dev.readAnswer q d).turn = d.turn ∧ (Dev.readAnswer q d).lastTurn = d.lastTurn ∧ (Dev.readAnswer q d).rings = d.rings ∧ (Dev.readAnswer q d).canvases = d.canvases ∧ (Dev.readAnswer q d).comp = d.comp ∧ (Dev.readAnswer q d).ports = d.ports ∧ (Dev.readAnswer q d).chans = d.chans ∧ (Dev.readAnswer q d).timers = d.timers ∧ (Dev.readAnswer q d).mrv = d.mrv ∧ (Dev.readAnswer q d).engines = d.engines ∧ (Dev.readAnswer q d).regions = d.regions ∧ (Dev.readAnswer q d).mct = d.mct ∧ (Dev.readAnswer q d).cru = d.cru ∧ (Dev.readAnswer q d).acc = d.acc ∧ (Dev.readAnswer q d).flt = d.flt ∧ (Dev.readAnswer q d).svc = d.svc ∧ (Dev.readAnswer q d).tb = d.tb ∧ (Dev.readAnswer q d).clk = d.clk ∧ (Dev.readAnswer q d).rst = d.rst ∧ (Dev.readAnswer q d).pins = d.pins := by
  simp [Dev.readAnswer]

@[simp] theorem Dev.readBar_frame (m : Nat) (off : Nat) (size : Nat) (d : Dev) :
    (Dev.readBar m off size d).now = d.now ∧ (Dev.readBar m off size d).luts = d.luts ∧ (Dev.readBar m off size d).mem = d.mem ∧ (Dev.readBar m off size d).scene = d.scene ∧ (Dev.readBar m off size d).ledger = d.ledger ∧ (Dev.readBar m off size d).queues = d.queues ∧ (Dev.readBar m off size d).turn = d.turn ∧ (Dev.readBar m off size d).lastTurn = d.lastTurn ∧ (Dev.readBar m off size d).rings = d.rings ∧ (Dev.readBar m off size d).canvases = d.canvases ∧ (Dev.readBar m off size d).comp = d.comp ∧ (Dev.readBar m off size d).ports = d.ports ∧ (Dev.readBar m off size d).chans = d.chans ∧ (Dev.readBar m off size d).timers = d.timers ∧ (Dev.readBar m off size d).mrv = d.mrv ∧ (Dev.readBar m off size d).engines = d.engines ∧ (Dev.readBar m off size d).regions = d.regions ∧ (Dev.readBar m off size d).mct = d.mct ∧ (Dev.readBar m off size d).cru = d.cru ∧ (Dev.readBar m off size d).svc = d.svc ∧ (Dev.readBar m off size d).tb = d.tb ∧ (Dev.readBar m off size d).clk = d.clk ∧ (Dev.readBar m off size d).rst = d.rst ∧ (Dev.readBar m off size d).pins = d.pins := by
  simp [Dev.readBar]

@[simp] theorem RegWrite.hif_frame (x : RegWrite) (d : Dev) :
    (RegWrite.hif x d).now = d.now ∧ (RegWrite.hif x d).regs = d.regs ∧ (RegWrite.hif x d).luts = d.luts ∧ (RegWrite.hif x d).mem = d.mem ∧ (RegWrite.hif x d).ledger = d.ledger ∧ (RegWrite.hif x d).regions = d.regions ∧ (RegWrite.hif x d).mct = d.mct ∧ (RegWrite.hif x d).cru = d.cru ∧ (RegWrite.hif x d).acc = d.acc ∧ (RegWrite.hif x d).flt = d.flt ∧ (RegWrite.hif x d).svc = d.svc ∧ (RegWrite.hif x d).tb = d.tb ∧ (RegWrite.hif x d).hif = d.hif := by
  simp [RegWrite.hif]

@[simp] theorem RegWrite.ckr_frame (x : RegWrite) (d : Dev) :
    (RegWrite.ckr x d).now = d.now ∧ (RegWrite.ckr x d).regs = d.regs ∧ (RegWrite.ckr x d).luts = d.luts ∧ (RegWrite.ckr x d).mem = d.mem ∧ (RegWrite.ckr x d).ledger = d.ledger ∧ (RegWrite.ckr x d).queues = d.queues ∧ (RegWrite.ckr x d).turn = d.turn ∧ (RegWrite.ckr x d).lastTurn = d.lastTurn ∧ (RegWrite.ckr x d).rings = d.rings ∧ (RegWrite.ckr x d).canvases = d.canvases ∧ (RegWrite.ckr x d).comp = d.comp ∧ (RegWrite.ckr x d).ports = d.ports ∧ (RegWrite.ckr x d).chans = d.chans ∧ (RegWrite.ckr x d).timers = d.timers ∧ (RegWrite.ckr x d).mrv = d.mrv ∧ (RegWrite.ckr x d).engines = d.engines ∧ (RegWrite.ckr x d).regions = d.regions ∧ (RegWrite.ckr x d).mct = d.mct ∧ (RegWrite.ckr x d).cru = d.cru ∧ (RegWrite.ckr x d).acc = d.acc ∧ (RegWrite.ckr x d).flt = d.flt ∧ (RegWrite.ckr x d).svc = d.svc ∧ (RegWrite.ckr x d).tb = d.tb ∧ (RegWrite.ckr x d).rst = d.rst ∧ (RegWrite.ckr x d).hif = d.hif ∧ (RegWrite.ckr x d).pins = d.pins := by
  simp [RegWrite.ckr]

@[simp] theorem RegWrite.tmb_frame (x : RegWrite) (d : Dev) :
    (RegWrite.tmb x d).now = d.now ∧ (RegWrite.tmb x d).regs = d.regs ∧ (RegWrite.tmb x d).luts = d.luts ∧ (RegWrite.tmb x d).mem = d.mem ∧ (RegWrite.tmb x d).scene = d.scene ∧ (RegWrite.tmb x d).ledger = d.ledger ∧ (RegWrite.tmb x d).queues = d.queues ∧ (RegWrite.tmb x d).turn = d.turn ∧ (RegWrite.tmb x d).lastTurn = d.lastTurn ∧ (RegWrite.tmb x d).rings = d.rings ∧ (RegWrite.tmb x d).canvases = d.canvases ∧ (RegWrite.tmb x d).comp = d.comp ∧ (RegWrite.tmb x d).ports = d.ports ∧ (RegWrite.tmb x d).chans = d.chans ∧ (RegWrite.tmb x d).timers = d.timers ∧ (RegWrite.tmb x d).mrv = d.mrv ∧ (RegWrite.tmb x d).engines = d.engines ∧ (RegWrite.tmb x d).regions = d.regions ∧ (RegWrite.tmb x d).mct = d.mct ∧ (RegWrite.tmb x d).cru = d.cru ∧ (RegWrite.tmb x d).acc = d.acc ∧ (RegWrite.tmb x d).flt = d.flt ∧ (RegWrite.tmb x d).svc = d.svc ∧ (RegWrite.tmb x d).clk = d.clk ∧ (RegWrite.tmb x d).rst = d.rst ∧ (RegWrite.tmb x d).hif = d.hif ∧ (RegWrite.tmb x d).pins = d.pins := by
  simp [RegWrite.tmb]

@[simp] theorem RegWrite.svc_frame (x : RegWrite) (d : Dev) :
    (RegWrite.svc x d).now = d.now ∧ (RegWrite.svc x d).regs = d.regs ∧ (RegWrite.svc x d).luts = d.luts ∧ (RegWrite.svc x d).mem = d.mem ∧ (RegWrite.svc x d).scene = d.scene ∧ (RegWrite.svc x d).ledger = d.ledger ∧ (RegWrite.svc x d).queues = d.queues ∧ (RegWrite.svc x d).turn = d.turn ∧ (RegWrite.svc x d).lastTurn = d.lastTurn ∧ (RegWrite.svc x d).rings = d.rings ∧ (RegWrite.svc x d).canvases = d.canvases ∧ (RegWrite.svc x d).comp = d.comp ∧ (RegWrite.svc x d).ports = d.ports ∧ (RegWrite.svc x d).chans = d.chans ∧ (RegWrite.svc x d).timers = d.timers ∧ (RegWrite.svc x d).mrv = d.mrv ∧ (RegWrite.svc x d).engines = d.engines ∧ (RegWrite.svc x d).regions = d.regions ∧ (RegWrite.svc x d).mct = d.mct ∧ (RegWrite.svc x d).cru = d.cru ∧ (RegWrite.svc x d).acc = d.acc ∧ (RegWrite.svc x d).flt = d.flt ∧ (RegWrite.svc x d).tb = d.tb ∧ (RegWrite.svc x d).clk = d.clk ∧ (RegWrite.svc x d).rst = d.rst ∧ (RegWrite.svc x d).hif = d.hif ∧ (RegWrite.svc x d).pins = d.pins := by
  simp [RegWrite.svc]

@[simp] theorem RegWrite.acc_frame (x : RegWrite) (d : Dev) :
    (RegWrite.acc x d).now = d.now ∧ (RegWrite.acc x d).luts = d.luts ∧ (RegWrite.acc x d).mem = d.mem ∧ (RegWrite.acc x d).scene = d.scene ∧ (RegWrite.acc x d).ledger = d.ledger ∧ (RegWrite.acc x d).queues = d.queues ∧ (RegWrite.acc x d).turn = d.turn ∧ (RegWrite.acc x d).lastTurn = d.lastTurn ∧ (RegWrite.acc x d).rings = d.rings ∧ (RegWrite.acc x d).canvases = d.canvases ∧ (RegWrite.acc x d).comp = d.comp ∧ (RegWrite.acc x d).ports = d.ports ∧ (RegWrite.acc x d).chans = d.chans ∧ (RegWrite.acc x d).timers = d.timers ∧ (RegWrite.acc x d).mrv = d.mrv ∧ (RegWrite.acc x d).engines = d.engines ∧ (RegWrite.acc x d).regions = d.regions ∧ (RegWrite.acc x d).mct = d.mct ∧ (RegWrite.acc x d).cru = d.cru ∧ (RegWrite.acc x d).flt = d.flt ∧ (RegWrite.acc x d).svc = d.svc ∧ (RegWrite.acc x d).tb = d.tb ∧ (RegWrite.acc x d).clk = d.clk ∧ (RegWrite.acc x d).rst = d.rst ∧ (RegWrite.acc x d).hif = d.hif ∧ (RegWrite.acc x d).pins = d.pins := by
  simp [RegWrite.acc]

@[simp] theorem RegWrite.flt_frame (x : RegWrite) (d : Dev) :
    (RegWrite.flt x d).now = d.now ∧ (RegWrite.flt x d).regs = d.regs ∧ (RegWrite.flt x d).luts = d.luts ∧ (RegWrite.flt x d).mem = d.mem ∧ (RegWrite.flt x d).scene = d.scene ∧ (RegWrite.flt x d).ledger = d.ledger ∧ (RegWrite.flt x d).queues = d.queues ∧ (RegWrite.flt x d).turn = d.turn ∧ (RegWrite.flt x d).lastTurn = d.lastTurn ∧ (RegWrite.flt x d).rings = d.rings ∧ (RegWrite.flt x d).canvases = d.canvases ∧ (RegWrite.flt x d).comp = d.comp ∧ (RegWrite.flt x d).ports = d.ports ∧ (RegWrite.flt x d).chans = d.chans ∧ (RegWrite.flt x d).timers = d.timers ∧ (RegWrite.flt x d).mrv = d.mrv ∧ (RegWrite.flt x d).engines = d.engines ∧ (RegWrite.flt x d).regions = d.regions ∧ (RegWrite.flt x d).mct = d.mct ∧ (RegWrite.flt x d).cru = d.cru ∧ (RegWrite.flt x d).acc = d.acc ∧ (RegWrite.flt x d).svc = d.svc ∧ (RegWrite.flt x d).tb = d.tb ∧ (RegWrite.flt x d).clk = d.clk ∧ (RegWrite.flt x d).rst = d.rst ∧ (RegWrite.flt x d).hif = d.hif ∧ (RegWrite.flt x d).pins = d.pins := by
  simp [RegWrite.flt]

@[simp] theorem RegWrite.log_frame (x : RegWrite) (d : Dev) :
    (RegWrite.log x d).now = d.now ∧ (RegWrite.log x d).regs = d.regs ∧ (RegWrite.log x d).luts = d.luts ∧ (RegWrite.log x d).mem = d.mem ∧ (RegWrite.log x d).scene = d.scene ∧ (RegWrite.log x d).ledger = d.ledger ∧ (RegWrite.log x d).queues = d.queues ∧ (RegWrite.log x d).turn = d.turn ∧ (RegWrite.log x d).lastTurn = d.lastTurn ∧ (RegWrite.log x d).rings = d.rings ∧ (RegWrite.log x d).canvases = d.canvases ∧ (RegWrite.log x d).comp = d.comp ∧ (RegWrite.log x d).ports = d.ports ∧ (RegWrite.log x d).chans = d.chans ∧ (RegWrite.log x d).timers = d.timers ∧ (RegWrite.log x d).mrv = d.mrv ∧ (RegWrite.log x d).engines = d.engines ∧ (RegWrite.log x d).regions = d.regions ∧ (RegWrite.log x d).mct = d.mct ∧ (RegWrite.log x d).cru = d.cru ∧ (RegWrite.log x d).acc = d.acc ∧ (RegWrite.log x d).svc = d.svc ∧ (RegWrite.log x d).tb = d.tb ∧ (RegWrite.log x d).clk = d.clk ∧ (RegWrite.log x d).rst = d.rst ∧ (RegWrite.log x d).hif = d.hif ∧ (RegWrite.log x d).pins = d.pins := by
  simp [RegWrite.log]

@[simp] theorem RegWrite.ldg_frame (x : RegWrite) (d : Dev) :
    (RegWrite.ldg x d).now = d.now ∧ (RegWrite.ldg x d).regs = d.regs ∧ (RegWrite.ldg x d).luts = d.luts ∧ (RegWrite.ldg x d).mem = d.mem ∧ (RegWrite.ldg x d).ledger = d.ledger ∧ (RegWrite.ldg x d).queues = d.queues ∧ (RegWrite.ldg x d).turn = d.turn ∧ (RegWrite.ldg x d).lastTurn = d.lastTurn ∧ (RegWrite.ldg x d).rings = d.rings ∧ (RegWrite.ldg x d).canvases = d.canvases ∧ (RegWrite.ldg x d).comp = d.comp ∧ (RegWrite.ldg x d).ports = d.ports ∧ (RegWrite.ldg x d).chans = d.chans ∧ (RegWrite.ldg x d).timers = d.timers ∧ (RegWrite.ldg x d).mrv = d.mrv ∧ (RegWrite.ldg x d).engines = d.engines ∧ (RegWrite.ldg x d).regions = d.regions ∧ (RegWrite.ldg x d).mct = d.mct ∧ (RegWrite.ldg x d).cru = d.cru ∧ (RegWrite.ldg x d).acc = d.acc ∧ (RegWrite.ldg x d).flt = d.flt ∧ (RegWrite.ldg x d).svc = d.svc ∧ (RegWrite.ldg x d).tb = d.tb ∧ (RegWrite.ldg x d).clk = d.clk ∧ (RegWrite.ldg x d).rst = d.rst ∧ (RegWrite.ldg x d).hif = d.hif ∧ (RegWrite.ldg x d).pins = d.pins := by
  simp [RegWrite.ldg]

@[simp] theorem RegWrite.mrv_frame (x : RegWrite) (d : Dev) :
    (RegWrite.mrv x d).now = d.now ∧ (RegWrite.mrv x d).regs = d.regs ∧ (RegWrite.mrv x d).luts = d.luts ∧ (RegWrite.mrv x d).mem = d.mem ∧ (RegWrite.mrv x d).scene = d.scene ∧ (RegWrite.mrv x d).ledger = d.ledger ∧ (RegWrite.mrv x d).queues = d.queues ∧ (RegWrite.mrv x d).turn = d.turn ∧ (RegWrite.mrv x d).lastTurn = d.lastTurn ∧ (RegWrite.mrv x d).rings = d.rings ∧ (RegWrite.mrv x d).canvases = d.canvases ∧ (RegWrite.mrv x d).comp = d.comp ∧ (RegWrite.mrv x d).ports = d.ports ∧ (RegWrite.mrv x d).chans = d.chans ∧ (RegWrite.mrv x d).timers = d.timers ∧ (RegWrite.mrv x d).engines = d.engines ∧ (RegWrite.mrv x d).regions = d.regions ∧ (RegWrite.mrv x d).mct = d.mct ∧ (RegWrite.mrv x d).cru = d.cru ∧ (RegWrite.mrv x d).acc = d.acc ∧ (RegWrite.mrv x d).svc = d.svc ∧ (RegWrite.mrv x d).tb = d.tb ∧ (RegWrite.mrv x d).clk = d.clk ∧ (RegWrite.mrv x d).rst = d.rst ∧ (RegWrite.mrv x d).pins = d.pins := by
  simp [RegWrite.mrv]

@[simp] theorem Dev.endVsync_frame (f : Nat) (k : Nat) (w : Word) (d : Dev) :
    (Dev.endVsync f k w d).now = d.now ∧ (Dev.endVsync f k w d).regs = d.regs ∧ (Dev.endVsync f k w d).luts = d.luts ∧ (Dev.endVsync f k w d).mem = d.mem ∧ (Dev.endVsync f k w d).scene = d.scene ∧ (Dev.endVsync f k w d).ledger = d.ledger ∧ (Dev.endVsync f k w d).queues = d.queues ∧ (Dev.endVsync f k w d).turn = d.turn ∧ (Dev.endVsync f k w d).lastTurn = d.lastTurn ∧ (Dev.endVsync f k w d).canvases = d.canvases ∧ (Dev.endVsync f k w d).comp = d.comp ∧ (Dev.endVsync f k w d).ports = d.ports ∧ (Dev.endVsync f k w d).chans = d.chans ∧ (Dev.endVsync f k w d).timers = d.timers ∧ (Dev.endVsync f k w d).mrv = d.mrv ∧ (Dev.endVsync f k w d).engines = d.engines ∧ (Dev.endVsync f k w d).regions = d.regions ∧ (Dev.endVsync f k w d).mct = d.mct ∧ (Dev.endVsync f k w d).cru = d.cru ∧ (Dev.endVsync f k w d).acc = d.acc ∧ (Dev.endVsync f k w d).flt = d.flt ∧ (Dev.endVsync f k w d).svc = d.svc ∧ (Dev.endVsync f k w d).tb = d.tb ∧ (Dev.endVsync f k w d).clk = d.clk ∧ (Dev.endVsync f k w d).rst = d.rst ∧ (Dev.endVsync f k w d).hif = d.hif ∧ (Dev.endVsync f k w d).pins = d.pins := by
  simp [Dev.endVsync]

@[simp] theorem RegWrite.cqe_frame (x : RegWrite) (d : Dev) :
    (RegWrite.cqe x d).now = d.now ∧ (RegWrite.cqe x d).regs = d.regs ∧ (RegWrite.cqe x d).luts = d.luts ∧ (RegWrite.cqe x d).mem = d.mem ∧ (RegWrite.cqe x d).scene = d.scene ∧ (RegWrite.cqe x d).ledger = d.ledger ∧ (RegWrite.cqe x d).queues = d.queues ∧ (RegWrite.cqe x d).turn = d.turn ∧ (RegWrite.cqe x d).lastTurn = d.lastTurn ∧ (RegWrite.cqe x d).canvases = d.canvases ∧ (RegWrite.cqe x d).comp = d.comp ∧ (RegWrite.cqe x d).ports = d.ports ∧ (RegWrite.cqe x d).chans = d.chans ∧ (RegWrite.cqe x d).timers = d.timers ∧ (RegWrite.cqe x d).mrv = d.mrv ∧ (RegWrite.cqe x d).engines = d.engines ∧ (RegWrite.cqe x d).regions = d.regions ∧ (RegWrite.cqe x d).mct = d.mct ∧ (RegWrite.cqe x d).cru = d.cru ∧ (RegWrite.cqe x d).acc = d.acc ∧ (RegWrite.cqe x d).svc = d.svc ∧ (RegWrite.cqe x d).tb = d.tb ∧ (RegWrite.cqe x d).clk = d.clk ∧ (RegWrite.cqe x d).rst = d.rst ∧ (RegWrite.cqe x d).hif = d.hif ∧ (RegWrite.cqe x d).pins = d.pins := by
  simp [RegWrite.cqe]

@[simp] theorem Dev.trimQueue_frame (q : Nat) (d : Dev) :
    (Dev.trimQueue q d).now = d.now ∧ (Dev.trimQueue q d).luts = d.luts ∧ (Dev.trimQueue q d).mem = d.mem ∧ (Dev.trimQueue q d).scene = d.scene ∧ (Dev.trimQueue q d).ledger = d.ledger ∧ (Dev.trimQueue q d).turn = d.turn ∧ (Dev.trimQueue q d).lastTurn = d.lastTurn ∧ (Dev.trimQueue q d).rings = d.rings ∧ (Dev.trimQueue q d).canvases = d.canvases ∧ (Dev.trimQueue q d).comp = d.comp ∧ (Dev.trimQueue q d).ports = d.ports ∧ (Dev.trimQueue q d).chans = d.chans ∧ (Dev.trimQueue q d).timers = d.timers ∧ (Dev.trimQueue q d).mrv = d.mrv ∧ (Dev.trimQueue q d).engines = d.engines ∧ (Dev.trimQueue q d).regions = d.regions ∧ (Dev.trimQueue q d).mct = d.mct ∧ (Dev.trimQueue q d).cru = d.cru ∧ (Dev.trimQueue q d).acc = d.acc ∧ (Dev.trimQueue q d).flt = d.flt ∧ (Dev.trimQueue q d).svc = d.svc ∧ (Dev.trimQueue q d).tb = d.tb ∧ (Dev.trimQueue q d).clk = d.clk ∧ (Dev.trimQueue q d).rst = d.rst ∧ (Dev.trimQueue q d).hif = d.hif ∧ (Dev.trimQueue q d).pins = d.pins := by
  simp [Dev.trimQueue]

@[simp] theorem RegWrite.queue_frame (x : RegWrite) (d : Dev) :
    (RegWrite.queue x d).now = d.now ∧ (RegWrite.queue x d).luts = d.luts ∧ (RegWrite.queue x d).scene = d.scene ∧ (RegWrite.queue x d).ledger = d.ledger ∧ (RegWrite.queue x d).lastTurn = d.lastTurn ∧ (RegWrite.queue x d).canvases = d.canvases ∧ (RegWrite.queue x d).comp = d.comp ∧ (RegWrite.queue x d).ports = d.ports ∧ (RegWrite.queue x d).chans = d.chans ∧ (RegWrite.queue x d).timers = d.timers ∧ (RegWrite.queue x d).mrv = d.mrv ∧ (RegWrite.queue x d).engines = d.engines ∧ (RegWrite.queue x d).regions = d.regions ∧ (RegWrite.queue x d).svc = d.svc ∧ (RegWrite.queue x d).tb = d.tb ∧ (RegWrite.queue x d).clk = d.clk ∧ (RegWrite.queue x d).rst = d.rst ∧ (RegWrite.queue x d).pins = d.pins := by
  simp [RegWrite.queue]

@[simp] theorem RegWrite.cru_frame (x : RegWrite) (d : Dev) :
    (RegWrite.cru x d).now = d.now ∧ (RegWrite.cru x d).regs = d.regs ∧ (RegWrite.cru x d).luts = d.luts ∧ (RegWrite.cru x d).scene = d.scene ∧ (RegWrite.cru x d).ledger = d.ledger ∧ (RegWrite.cru x d).turn = d.turn ∧ (RegWrite.cru x d).lastTurn = d.lastTurn ∧ (RegWrite.cru x d).canvases = d.canvases ∧ (RegWrite.cru x d).comp = d.comp ∧ (RegWrite.cru x d).ports = d.ports ∧ (RegWrite.cru x d).chans = d.chans ∧ (RegWrite.cru x d).timers = d.timers ∧ (RegWrite.cru x d).mrv = d.mrv ∧ (RegWrite.cru x d).engines = d.engines ∧ (RegWrite.cru x d).regions = d.regions ∧ (RegWrite.cru x d).svc = d.svc ∧ (RegWrite.cru x d).tb = d.tb ∧ (RegWrite.cru x d).clk = d.clk ∧ (RegWrite.cru x d).rst = d.rst ∧ (RegWrite.cru x d).pins = d.pins := by
  simp [RegWrite.cru]

@[simp] theorem RegWrite.site_frame (x : RegWrite) (wasOver : Bool) (d : Dev) :
    (RegWrite.site x wasOver d).now = d.now ∧ (RegWrite.site x wasOver d).regs = d.regs ∧ (RegWrite.site x wasOver d).luts = d.luts ∧ (RegWrite.site x wasOver d).mem = d.mem ∧ (RegWrite.site x wasOver d).ledger = d.ledger ∧ (RegWrite.site x wasOver d).queues = d.queues ∧ (RegWrite.site x wasOver d).turn = d.turn ∧ (RegWrite.site x wasOver d).lastTurn = d.lastTurn ∧ (RegWrite.site x wasOver d).rings = d.rings ∧ (RegWrite.site x wasOver d).canvases = d.canvases ∧ (RegWrite.site x wasOver d).comp = d.comp ∧ (RegWrite.site x wasOver d).ports = d.ports ∧ (RegWrite.site x wasOver d).chans = d.chans ∧ (RegWrite.site x wasOver d).timers = d.timers ∧ (RegWrite.site x wasOver d).mrv = d.mrv ∧ (RegWrite.site x wasOver d).engines = d.engines ∧ (RegWrite.site x wasOver d).regions = d.regions ∧ (RegWrite.site x wasOver d).cru = d.cru ∧ (RegWrite.site x wasOver d).acc = d.acc ∧ (RegWrite.site x wasOver d).svc = d.svc ∧ (RegWrite.site x wasOver d).tb = d.tb ∧ (RegWrite.site x wasOver d).clk = d.clk ∧ (RegWrite.site x wasOver d).rst = d.rst ∧ (RegWrite.site x wasOver d).hif = d.hif ∧ (RegWrite.site x wasOver d).pins = d.pins := by
  simp [RegWrite.site]

@[simp] theorem RegWrite.cmp_frame (x : RegWrite) (d : Dev) :
    (RegWrite.cmp x d).now = d.now ∧ (RegWrite.cmp x d).luts = d.luts ∧ (RegWrite.cmp x d).mem = d.mem ∧ (RegWrite.cmp x d).ledger = d.ledger ∧ (RegWrite.cmp x d).queues = d.queues ∧ (RegWrite.cmp x d).turn = d.turn ∧ (RegWrite.cmp x d).lastTurn = d.lastTurn ∧ (RegWrite.cmp x d).rings = d.rings ∧ (RegWrite.cmp x d).canvases = d.canvases ∧ (RegWrite.cmp x d).ports = d.ports ∧ (RegWrite.cmp x d).chans = d.chans ∧ (RegWrite.cmp x d).timers = d.timers ∧ (RegWrite.cmp x d).mrv = d.mrv ∧ (RegWrite.cmp x d).engines = d.engines ∧ (RegWrite.cmp x d).regions = d.regions ∧ (RegWrite.cmp x d).cru = d.cru ∧ (RegWrite.cmp x d).acc = d.acc ∧ (RegWrite.cmp x d).svc = d.svc ∧ (RegWrite.cmp x d).tb = d.tb ∧ (RegWrite.cmp x d).clk = d.clk ∧ (RegWrite.cmp x d).rst = d.rst ∧ (RegWrite.cmp x d).hif = d.hif ∧ (RegWrite.cmp x d).pins = d.pins := by
  simp [RegWrite.cmp]

@[simp] theorem Dev.restoreWord_frame (w : LocalWord) (d : Dev) :
    (Dev.restoreWord w d).now = d.now ∧ (Dev.restoreWord w d).regs = d.regs ∧ (Dev.restoreWord w d).luts = d.luts ∧ (Dev.restoreWord w d).mem = d.mem ∧ (Dev.restoreWord w d).scene = d.scene ∧ (Dev.restoreWord w d).ledger = d.ledger ∧ (Dev.restoreWord w d).queues = d.queues ∧ (Dev.restoreWord w d).turn = d.turn ∧ (Dev.restoreWord w d).lastTurn = d.lastTurn ∧ (Dev.restoreWord w d).rings = d.rings ∧ (Dev.restoreWord w d).canvases = d.canvases ∧ (Dev.restoreWord w d).comp = d.comp ∧ (Dev.restoreWord w d).ports = d.ports ∧ (Dev.restoreWord w d).chans = d.chans ∧ (Dev.restoreWord w d).timers = d.timers ∧ (Dev.restoreWord w d).mrv = d.mrv ∧ (Dev.restoreWord w d).engines = d.engines ∧ (Dev.restoreWord w d).regions = d.regions ∧ (Dev.restoreWord w d).mct = d.mct ∧ (Dev.restoreWord w d).acc = d.acc ∧ (Dev.restoreWord w d).flt = d.flt ∧ (Dev.restoreWord w d).svc = d.svc ∧ (Dev.restoreWord w d).tb = d.tb ∧ (Dev.restoreWord w d).clk = d.clk ∧ (Dev.restoreWord w d).rst = d.rst ∧ (Dev.restoreWord w d).hif = d.hif ∧ (Dev.restoreWord w d).pins = d.pins := by
  simp [Dev.restoreWord]

@[simp] theorem Dev.writeClut_frame (w : Word) (d : Dev) :
    (Dev.writeClut w d).now = d.now ∧ (Dev.writeClut w d).mem = d.mem ∧ (Dev.writeClut w d).scene = d.scene ∧ (Dev.writeClut w d).ledger = d.ledger ∧ (Dev.writeClut w d).queues = d.queues ∧ (Dev.writeClut w d).turn = d.turn ∧ (Dev.writeClut w d).lastTurn = d.lastTurn ∧ (Dev.writeClut w d).rings = d.rings ∧ (Dev.writeClut w d).canvases = d.canvases ∧ (Dev.writeClut w d).comp = d.comp ∧ (Dev.writeClut w d).ports = d.ports ∧ (Dev.writeClut w d).chans = d.chans ∧ (Dev.writeClut w d).timers = d.timers ∧ (Dev.writeClut w d).mrv = d.mrv ∧ (Dev.writeClut w d).engines = d.engines ∧ (Dev.writeClut w d).regions = d.regions ∧ (Dev.writeClut w d).mct = d.mct ∧ (Dev.writeClut w d).acc = d.acc ∧ (Dev.writeClut w d).flt = d.flt ∧ (Dev.writeClut w d).svc = d.svc ∧ (Dev.writeClut w d).tb = d.tb ∧ (Dev.writeClut w d).clk = d.clk ∧ (Dev.writeClut w d).rst = d.rst ∧ (Dev.writeClut w d).hif = d.hif ∧ (Dev.writeClut w d).pins = d.pins := by
  simp [Dev.writeClut]

@[simp] theorem Dev.writeCoef_frame (w : Word) (d : Dev) :
    (Dev.writeCoef w d).now = d.now ∧ (Dev.writeCoef w d).mem = d.mem ∧ (Dev.writeCoef w d).scene = d.scene ∧ (Dev.writeCoef w d).ledger = d.ledger ∧ (Dev.writeCoef w d).queues = d.queues ∧ (Dev.writeCoef w d).turn = d.turn ∧ (Dev.writeCoef w d).lastTurn = d.lastTurn ∧ (Dev.writeCoef w d).rings = d.rings ∧ (Dev.writeCoef w d).canvases = d.canvases ∧ (Dev.writeCoef w d).comp = d.comp ∧ (Dev.writeCoef w d).ports = d.ports ∧ (Dev.writeCoef w d).chans = d.chans ∧ (Dev.writeCoef w d).timers = d.timers ∧ (Dev.writeCoef w d).mrv = d.mrv ∧ (Dev.writeCoef w d).engines = d.engines ∧ (Dev.writeCoef w d).regions = d.regions ∧ (Dev.writeCoef w d).mct = d.mct ∧ (Dev.writeCoef w d).acc = d.acc ∧ (Dev.writeCoef w d).flt = d.flt ∧ (Dev.writeCoef w d).svc = d.svc ∧ (Dev.writeCoef w d).tb = d.tb ∧ (Dev.writeCoef w d).clk = d.clk ∧ (Dev.writeCoef w d).rst = d.rst ∧ (Dev.writeCoef w d).hif = d.hif ∧ (Dev.writeCoef w d).pins = d.pins := by
  simp [Dev.writeCoef]

@[simp] theorem Dev.writeIcs_frame (w : Word) (d : Dev) :
    (Dev.writeIcs w d).now = d.now ∧ (Dev.writeIcs w d).mem = d.mem ∧ (Dev.writeIcs w d).scene = d.scene ∧ (Dev.writeIcs w d).ledger = d.ledger ∧ (Dev.writeIcs w d).queues = d.queues ∧ (Dev.writeIcs w d).turn = d.turn ∧ (Dev.writeIcs w d).lastTurn = d.lastTurn ∧ (Dev.writeIcs w d).rings = d.rings ∧ (Dev.writeIcs w d).canvases = d.canvases ∧ (Dev.writeIcs w d).comp = d.comp ∧ (Dev.writeIcs w d).ports = d.ports ∧ (Dev.writeIcs w d).chans = d.chans ∧ (Dev.writeIcs w d).timers = d.timers ∧ (Dev.writeIcs w d).mrv = d.mrv ∧ (Dev.writeIcs w d).engines = d.engines ∧ (Dev.writeIcs w d).regions = d.regions ∧ (Dev.writeIcs w d).mct = d.mct ∧ (Dev.writeIcs w d).acc = d.acc ∧ (Dev.writeIcs w d).flt = d.flt ∧ (Dev.writeIcs w d).svc = d.svc ∧ (Dev.writeIcs w d).tb = d.tb ∧ (Dev.writeIcs w d).clk = d.clk ∧ (Dev.writeIcs w d).rst = d.rst ∧ (Dev.writeIcs w d).hif = d.hif ∧ (Dev.writeIcs w d).pins = d.pins := by
  simp [Dev.writeIcs]

@[simp] theorem Dev.writeLut_frame (c : Nat) (w : Word) (d : Dev) :
    (Dev.writeLut c w d).now = d.now ∧ (Dev.writeLut c w d).mem = d.mem ∧ (Dev.writeLut c w d).scene = d.scene ∧ (Dev.writeLut c w d).ledger = d.ledger ∧ (Dev.writeLut c w d).queues = d.queues ∧ (Dev.writeLut c w d).turn = d.turn ∧ (Dev.writeLut c w d).lastTurn = d.lastTurn ∧ (Dev.writeLut c w d).rings = d.rings ∧ (Dev.writeLut c w d).canvases = d.canvases ∧ (Dev.writeLut c w d).comp = d.comp ∧ (Dev.writeLut c w d).ports = d.ports ∧ (Dev.writeLut c w d).chans = d.chans ∧ (Dev.writeLut c w d).timers = d.timers ∧ (Dev.writeLut c w d).mrv = d.mrv ∧ (Dev.writeLut c w d).engines = d.engines ∧ (Dev.writeLut c w d).regions = d.regions ∧ (Dev.writeLut c w d).mct = d.mct ∧ (Dev.writeLut c w d).acc = d.acc ∧ (Dev.writeLut c w d).flt = d.flt ∧ (Dev.writeLut c w d).svc = d.svc ∧ (Dev.writeLut c w d).tb = d.tb ∧ (Dev.writeLut c w d).clk = d.clk ∧ (Dev.writeLut c w d).rst = d.rst ∧ (Dev.writeLut c w d).hif = d.hif ∧ (Dev.writeLut c w d).pins = d.pins := by
  simp [Dev.writeLut]

@[simp] theorem RegWrite.gth_frame (x : RegWrite) (d : Dev) :
    (RegWrite.gth x d).now = d.now ∧ (RegWrite.gth x d).mem = d.mem ∧ (RegWrite.gth x d).scene = d.scene ∧ (RegWrite.gth x d).ledger = d.ledger ∧ (RegWrite.gth x d).queues = d.queues ∧ (RegWrite.gth x d).turn = d.turn ∧ (RegWrite.gth x d).lastTurn = d.lastTurn ∧ (RegWrite.gth x d).rings = d.rings ∧ (RegWrite.gth x d).canvases = d.canvases ∧ (RegWrite.gth x d).comp = d.comp ∧ (RegWrite.gth x d).ports = d.ports ∧ (RegWrite.gth x d).chans = d.chans ∧ (RegWrite.gth x d).timers = d.timers ∧ (RegWrite.gth x d).mrv = d.mrv ∧ (RegWrite.gth x d).engines = d.engines ∧ (RegWrite.gth x d).regions = d.regions ∧ (RegWrite.gth x d).mct = d.mct ∧ (RegWrite.gth x d).acc = d.acc ∧ (RegWrite.gth x d).flt = d.flt ∧ (RegWrite.gth x d).svc = d.svc ∧ (RegWrite.gth x d).tb = d.tb ∧ (RegWrite.gth x d).clk = d.clk ∧ (RegWrite.gth x d).rst = d.rst ∧ (RegWrite.gth x d).hif = d.hif ∧ (RegWrite.gth x d).pins = d.pins := by
  simp [RegWrite.gth]

@[simp] theorem RegWrite.csp_frame (x : RegWrite) (d : Dev) :
    (RegWrite.csp x d).now = d.now ∧ (RegWrite.csp x d).mem = d.mem ∧ (RegWrite.csp x d).scene = d.scene ∧ (RegWrite.csp x d).ledger = d.ledger ∧ (RegWrite.csp x d).queues = d.queues ∧ (RegWrite.csp x d).turn = d.turn ∧ (RegWrite.csp x d).lastTurn = d.lastTurn ∧ (RegWrite.csp x d).rings = d.rings ∧ (RegWrite.csp x d).canvases = d.canvases ∧ (RegWrite.csp x d).comp = d.comp ∧ (RegWrite.csp x d).ports = d.ports ∧ (RegWrite.csp x d).chans = d.chans ∧ (RegWrite.csp x d).timers = d.timers ∧ (RegWrite.csp x d).mrv = d.mrv ∧ (RegWrite.csp x d).engines = d.engines ∧ (RegWrite.csp x d).regions = d.regions ∧ (RegWrite.csp x d).mct = d.mct ∧ (RegWrite.csp x d).acc = d.acc ∧ (RegWrite.csp x d).flt = d.flt ∧ (RegWrite.csp x d).svc = d.svc ∧ (RegWrite.csp x d).tb = d.tb ∧ (RegWrite.csp x d).clk = d.clk ∧ (RegWrite.csp x d).rst = d.rst ∧ (RegWrite.csp x d).hif = d.hif ∧ (RegWrite.csp x d).pins = d.pins := by
  simp [RegWrite.csp]

@[simp] theorem RegWrite.cnv_frame (x : RegWrite) (d : Dev) :
    (RegWrite.cnv x d).now = d.now ∧ (RegWrite.cnv x d).luts = d.luts ∧ (RegWrite.cnv x d).turn = d.turn ∧ (RegWrite.cnv x d).lastTurn = d.lastTurn ∧ (RegWrite.cnv x d).chans = d.chans ∧ (RegWrite.cnv x d).timers = d.timers ∧ (RegWrite.cnv x d).engines = d.engines ∧ (RegWrite.cnv x d).svc = d.svc ∧ (RegWrite.cnv x d).tb = d.tb ∧ (RegWrite.cnv x d).clk = d.clk ∧ (RegWrite.cnv x d).rst = d.rst := by
  simp [RegWrite.cnv]

@[simp] theorem RegWrite.dpt_frame (x : RegWrite) (d : Dev) :
    (RegWrite.dpt x d).now = d.now ∧ (RegWrite.dpt x d).luts = d.luts ∧ (RegWrite.dpt x d).mem = d.mem ∧ (RegWrite.dpt x d).scene = d.scene ∧ (RegWrite.dpt x d).ledger = d.ledger ∧ (RegWrite.dpt x d).queues = d.queues ∧ (RegWrite.dpt x d).turn = d.turn ∧ (RegWrite.dpt x d).lastTurn = d.lastTurn ∧ (RegWrite.dpt x d).rings = d.rings ∧ (RegWrite.dpt x d).comp = d.comp ∧ (RegWrite.dpt x d).chans = d.chans ∧ (RegWrite.dpt x d).timers = d.timers ∧ (RegWrite.dpt x d).mrv = d.mrv ∧ (RegWrite.dpt x d).engines = d.engines ∧ (RegWrite.dpt x d).regions = d.regions ∧ (RegWrite.dpt x d).mct = d.mct ∧ (RegWrite.dpt x d).cru = d.cru ∧ (RegWrite.dpt x d).acc = d.acc ∧ (RegWrite.dpt x d).svc = d.svc ∧ (RegWrite.dpt x d).tb = d.tb ∧ (RegWrite.dpt x d).clk = d.clk ∧ (RegWrite.dpt x d).rst = d.rst ∧ (RegWrite.dpt x d).hif = d.hif ∧ (RegWrite.dpt x d).pins = d.pins := by
  simp [RegWrite.dpt]

@[simp] theorem RegWrite.dma_frame (x : RegWrite) (d : Dev) :
    (RegWrite.dma x d).now = d.now ∧ (RegWrite.dma x d).regs = d.regs ∧ (RegWrite.dma x d).luts = d.luts ∧ (RegWrite.dma x d).mem = d.mem ∧ (RegWrite.dma x d).scene = d.scene ∧ (RegWrite.dma x d).ledger = d.ledger ∧ (RegWrite.dma x d).queues = d.queues ∧ (RegWrite.dma x d).turn = d.turn ∧ (RegWrite.dma x d).lastTurn = d.lastTurn ∧ (RegWrite.dma x d).rings = d.rings ∧ (RegWrite.dma x d).canvases = d.canvases ∧ (RegWrite.dma x d).comp = d.comp ∧ (RegWrite.dma x d).ports = d.ports ∧ (RegWrite.dma x d).chans = d.chans ∧ (RegWrite.dma x d).mrv = d.mrv ∧ (RegWrite.dma x d).engines = d.engines ∧ (RegWrite.dma x d).regions = d.regions ∧ (RegWrite.dma x d).mct = d.mct ∧ (RegWrite.dma x d).cru = d.cru ∧ (RegWrite.dma x d).acc = d.acc ∧ (RegWrite.dma x d).flt = d.flt ∧ (RegWrite.dma x d).svc = d.svc ∧ (RegWrite.dma x d).tb = d.tb ∧ (RegWrite.dma x d).clk = d.clk ∧ (RegWrite.dma x d).rst = d.rst ∧ (RegWrite.dma x d).hif = d.hif ∧ (RegWrite.dma x d).pins = d.pins := by
  unfold RegWrite.dma; (repeat' split) <;> simp

@[simp] theorem RegWrite.chan_frame (x : RegWrite) (d : Dev) :
    (RegWrite.chan x d).now = d.now ∧ (RegWrite.chan x d).luts = d.luts ∧ (RegWrite.chan x d).scene = d.scene ∧ (RegWrite.chan x d).ledger = d.ledger ∧ (RegWrite.chan x d).turn = d.turn ∧ (RegWrite.chan x d).lastTurn = d.lastTurn ∧ (RegWrite.chan x d).canvases = d.canvases ∧ (RegWrite.chan x d).comp = d.comp ∧ (RegWrite.chan x d).ports = d.ports ∧ (RegWrite.chan x d).timers = d.timers ∧ (RegWrite.chan x d).mrv = d.mrv ∧ (RegWrite.chan x d).engines = d.engines ∧ (RegWrite.chan x d).regions = d.regions ∧ (RegWrite.chan x d).svc = d.svc ∧ (RegWrite.chan x d).tb = d.tb ∧ (RegWrite.chan x d).clk = d.clk ∧ (RegWrite.chan x d).rst = d.rst ∧ (RegWrite.chan x d).pins = d.pins := by
  simp [RegWrite.chan]

@[simp] theorem RegWrite.cvu_frame (x : RegWrite) (d : Dev) :
    (RegWrite.cvu x d).now = d.now ∧ (RegWrite.cvu x d).luts = d.luts ∧ (RegWrite.cvu x d).scene = d.scene ∧ (RegWrite.cvu x d).ledger = d.ledger ∧ (RegWrite.cvu x d).turn = d.turn ∧ (RegWrite.cvu x d).lastTurn = d.lastTurn ∧ (RegWrite.cvu x d).canvases = d.canvases ∧ (RegWrite.cvu x d).comp = d.comp ∧ (RegWrite.cvu x d).ports = d.ports ∧ (RegWrite.cvu x d).chans = d.chans ∧ (RegWrite.cvu x d).timers = d.timers ∧ (RegWrite.cvu x d).mrv = d.mrv ∧ (RegWrite.cvu x d).svc = d.svc ∧ (RegWrite.cvu x d).tb = d.tb ∧ (RegWrite.cvu x d).clk = d.clk ∧ (RegWrite.cvu x d).rst = d.rst ∧ (RegWrite.cvu x d).pins = d.pins := by
  simp [RegWrite.cvu]

@[simp] theorem RegWrite.effect_frame (x : RegWrite) (wasOver : Bool) (d : Dev) : (RegWrite.effect x wasOver d).now = d.now := by
  unfold RegWrite.effect; (repeat' split) <;> simp

@[simp] theorem Dev.dropHeld_frame (n : Nat) (d : Dev) :
    (Dev.dropHeld n d).now = d.now ∧ (Dev.dropHeld n d).luts = d.luts ∧ (Dev.dropHeld n d).mem = d.mem ∧ (Dev.dropHeld n d).scene = d.scene ∧ (Dev.dropHeld n d).ledger = d.ledger ∧ (Dev.dropHeld n d).queues = d.queues ∧ (Dev.dropHeld n d).turn = d.turn ∧ (Dev.dropHeld n d).lastTurn = d.lastTurn ∧ (Dev.dropHeld n d).rings = d.rings ∧ (Dev.dropHeld n d).canvases = d.canvases ∧ (Dev.dropHeld n d).comp = d.comp ∧ (Dev.dropHeld n d).ports = d.ports ∧ (Dev.dropHeld n d).chans = d.chans ∧ (Dev.dropHeld n d).timers = d.timers ∧ (Dev.dropHeld n d).mrv = d.mrv ∧ (Dev.dropHeld n d).engines = d.engines ∧ (Dev.dropHeld n d).regions = d.regions ∧ (Dev.dropHeld n d).mct = d.mct ∧ (Dev.dropHeld n d).cru = d.cru ∧ (Dev.dropHeld n d).acc = d.acc ∧ (Dev.dropHeld n d).flt = d.flt ∧ (Dev.dropHeld n d).svc = d.svc ∧ (Dev.dropHeld n d).tb = d.tb ∧ (Dev.dropHeld n d).clk = d.clk ∧ (Dev.dropHeld n d).rst = d.rst ∧ (Dev.dropHeld n d).hif = d.hif ∧ (Dev.dropHeld n d).pins = d.pins := by
  simp [Dev.dropHeld]

@[simp] theorem Dev.resetCanvas_frame (c : Nat) (d : Dev) :
    (Dev.resetCanvas c d).now = d.now ∧ (Dev.resetCanvas c d).luts = d.luts ∧ (Dev.resetCanvas c d).mem = d.mem ∧ (Dev.resetCanvas c d).ledger = d.ledger ∧ (Dev.resetCanvas c d).queues = d.queues ∧ (Dev.resetCanvas c d).turn = d.turn ∧ (Dev.resetCanvas c d).lastTurn = d.lastTurn ∧ (Dev.resetCanvas c d).rings = d.rings ∧ (Dev.resetCanvas c d).comp = d.comp ∧ (Dev.resetCanvas c d).ports = d.ports ∧ (Dev.resetCanvas c d).chans = d.chans ∧ (Dev.resetCanvas c d).timers = d.timers ∧ (Dev.resetCanvas c d).mrv = d.mrv ∧ (Dev.resetCanvas c d).engines = d.engines ∧ (Dev.resetCanvas c d).regions = d.regions ∧ (Dev.resetCanvas c d).mct = d.mct ∧ (Dev.resetCanvas c d).cru = d.cru ∧ (Dev.resetCanvas c d).acc = d.acc ∧ (Dev.resetCanvas c d).flt = d.flt ∧ (Dev.resetCanvas c d).svc = d.svc ∧ (Dev.resetCanvas c d).tb = d.tb ∧ (Dev.resetCanvas c d).clk = d.clk ∧ (Dev.resetCanvas c d).rst = d.rst ∧ (Dev.resetCanvas c d).hif = d.hif := by
  simp [Dev.resetCanvas]

@[simp] theorem Dev.resetPort_frame (n : Nat) (d : Dev) :
    (Dev.resetPort n d).now = d.now ∧ (Dev.resetPort n d).luts = d.luts ∧ (Dev.resetPort n d).mem = d.mem ∧ (Dev.resetPort n d).scene = d.scene ∧ (Dev.resetPort n d).ledger = d.ledger ∧ (Dev.resetPort n d).queues = d.queues ∧ (Dev.resetPort n d).turn = d.turn ∧ (Dev.resetPort n d).lastTurn = d.lastTurn ∧ (Dev.resetPort n d).rings = d.rings ∧ (Dev.resetPort n d).canvases = d.canvases ∧ (Dev.resetPort n d).comp = d.comp ∧ (Dev.resetPort n d).chans = d.chans ∧ (Dev.resetPort n d).timers = d.timers ∧ (Dev.resetPort n d).mrv = d.mrv ∧ (Dev.resetPort n d).engines = d.engines ∧ (Dev.resetPort n d).regions = d.regions ∧ (Dev.resetPort n d).mct = d.mct ∧ (Dev.resetPort n d).cru = d.cru ∧ (Dev.resetPort n d).acc = d.acc ∧ (Dev.resetPort n d).flt = d.flt ∧ (Dev.resetPort n d).svc = d.svc ∧ (Dev.resetPort n d).tb = d.tb ∧ (Dev.resetPort n d).clk = d.clk ∧ (Dev.resetPort n d).rst = d.rst ∧ (Dev.resetPort n d).hif = d.hif ∧ (Dev.resetPort n d).pins = d.pins := by
  simp [Dev.resetPort]

@[simp] theorem Dev.resetQueue_frame (q : Nat) (d : Dev) :
    (Dev.resetQueue q d).now = d.now ∧ (Dev.resetQueue q d).luts = d.luts ∧ (Dev.resetQueue q d).mem = d.mem ∧ (Dev.resetQueue q d).scene = d.scene ∧ (Dev.resetQueue q d).ledger = d.ledger ∧ (Dev.resetQueue q d).turn = d.turn ∧ (Dev.resetQueue q d).lastTurn = d.lastTurn ∧ (Dev.resetQueue q d).rings = d.rings ∧ (Dev.resetQueue q d).canvases = d.canvases ∧ (Dev.resetQueue q d).comp = d.comp ∧ (Dev.resetQueue q d).ports = d.ports ∧ (Dev.resetQueue q d).chans = d.chans ∧ (Dev.resetQueue q d).timers = d.timers ∧ (Dev.resetQueue q d).mrv = d.mrv ∧ (Dev.resetQueue q d).engines = d.engines ∧ (Dev.resetQueue q d).regions = d.regions ∧ (Dev.resetQueue q d).mct = d.mct ∧ (Dev.resetQueue q d).cru = d.cru ∧ (Dev.resetQueue q d).acc = d.acc ∧ (Dev.resetQueue q d).flt = d.flt ∧ (Dev.resetQueue q d).svc = d.svc ∧ (Dev.resetQueue q d).tb = d.tb ∧ (Dev.resetQueue q d).clk = d.clk ∧ (Dev.resetQueue q d).rst = d.rst ∧ (Dev.resetQueue q d).hif = d.hif ∧ (Dev.resetQueue q d).pins = d.pins := by
  simp [Dev.resetQueue]

@[simp] theorem Dev.resetGather_frame (g : Nat) (d : Dev) :
    (Dev.resetGather g d).now = d.now ∧ (Dev.resetGather g d).regs = d.regs ∧ (Dev.resetGather g d).luts = d.luts ∧ (Dev.resetGather g d).mem = d.mem ∧ (Dev.resetGather g d).scene = d.scene ∧ (Dev.resetGather g d).ledger = d.ledger ∧ (Dev.resetGather g d).queues = d.queues ∧ (Dev.resetGather g d).turn = d.turn ∧ (Dev.resetGather g d).lastTurn = d.lastTurn ∧ (Dev.resetGather g d).rings = d.rings ∧ (Dev.resetGather g d).canvases = d.canvases ∧ (Dev.resetGather g d).ports = d.ports ∧ (Dev.resetGather g d).chans = d.chans ∧ (Dev.resetGather g d).timers = d.timers ∧ (Dev.resetGather g d).mrv = d.mrv ∧ (Dev.resetGather g d).engines = d.engines ∧ (Dev.resetGather g d).regions = d.regions ∧ (Dev.resetGather g d).mct = d.mct ∧ (Dev.resetGather g d).cru = d.cru ∧ (Dev.resetGather g d).acc = d.acc ∧ (Dev.resetGather g d).flt = d.flt ∧ (Dev.resetGather g d).svc = d.svc ∧ (Dev.resetGather g d).tb = d.tb ∧ (Dev.resetGather g d).clk = d.clk ∧ (Dev.resetGather g d).rst = d.rst ∧ (Dev.resetGather g d).hif = d.hif ∧ (Dev.resetGather g d).pins = d.pins := by
  simp [Dev.resetGather]

@[simp] theorem Dev.resetPipe_frame (p : Nat) (d : Dev) :
    (Dev.resetPipe p d).now = d.now ∧ (Dev.resetPipe p d).regs = d.regs ∧ (Dev.resetPipe p d).luts = d.luts ∧ (Dev.resetPipe p d).mem = d.mem ∧ (Dev.resetPipe p d).scene = d.scene ∧ (Dev.resetPipe p d).ledger = d.ledger ∧ (Dev.resetPipe p d).queues = d.queues ∧ (Dev.resetPipe p d).turn = d.turn ∧ (Dev.resetPipe p d).lastTurn = d.lastTurn ∧ (Dev.resetPipe p d).rings = d.rings ∧ (Dev.resetPipe p d).canvases = d.canvases ∧ (Dev.resetPipe p d).ports = d.ports ∧ (Dev.resetPipe p d).chans = d.chans ∧ (Dev.resetPipe p d).timers = d.timers ∧ (Dev.resetPipe p d).mrv = d.mrv ∧ (Dev.resetPipe p d).engines = d.engines ∧ (Dev.resetPipe p d).regions = d.regions ∧ (Dev.resetPipe p d).mct = d.mct ∧ (Dev.resetPipe p d).cru = d.cru ∧ (Dev.resetPipe p d).acc = d.acc ∧ (Dev.resetPipe p d).flt = d.flt ∧ (Dev.resetPipe p d).svc = d.svc ∧ (Dev.resetPipe p d).tb = d.tb ∧ (Dev.resetPipe p d).clk = d.clk ∧ (Dev.resetPipe p d).rst = d.rst ∧ (Dev.resetPipe p d).hif = d.hif ∧ (Dev.resetPipe p d).pins = d.pins := by
  simp [Dev.resetPipe]

@[simp] theorem Dev.resetTimebase_frame (d : Dev) :
    (Dev.resetTimebase d).now = d.now ∧ (Dev.resetTimebase d).luts = d.luts ∧ (Dev.resetTimebase d).mem = d.mem ∧ (Dev.resetTimebase d).scene = d.scene ∧ (Dev.resetTimebase d).ledger = d.ledger ∧ (Dev.resetTimebase d).queues = d.queues ∧ (Dev.resetTimebase d).turn = d.turn ∧ (Dev.resetTimebase d).lastTurn = d.lastTurn ∧ (Dev.resetTimebase d).rings = d.rings ∧ (Dev.resetTimebase d).canvases = d.canvases ∧ (Dev.resetTimebase d).comp = d.comp ∧ (Dev.resetTimebase d).ports = d.ports ∧ (Dev.resetTimebase d).chans = d.chans ∧ (Dev.resetTimebase d).timers = d.timers ∧ (Dev.resetTimebase d).mrv = d.mrv ∧ (Dev.resetTimebase d).engines = d.engines ∧ (Dev.resetTimebase d).regions = d.regions ∧ (Dev.resetTimebase d).mct = d.mct ∧ (Dev.resetTimebase d).cru = d.cru ∧ (Dev.resetTimebase d).acc = d.acc ∧ (Dev.resetTimebase d).flt = d.flt ∧ (Dev.resetTimebase d).svc = d.svc ∧ (Dev.resetTimebase d).clk = d.clk ∧ (Dev.resetTimebase d).rst = d.rst ∧ (Dev.resetTimebase d).hif = d.hif ∧ (Dev.resetTimebase d).pins = d.pins := by
  simp [Dev.resetTimebase]

@[simp] theorem Dev.blockReset_frame (t : PType) (i : Nat) (d : Dev) :
    (Dev.blockReset t i d).now = d.now ∧ (Dev.blockReset t i d).luts = d.luts ∧ (Dev.blockReset t i d).mem = d.mem ∧ (Dev.blockReset t i d).ledger = d.ledger ∧ (Dev.blockReset t i d).turn = d.turn ∧ (Dev.blockReset t i d).lastTurn = d.lastTurn ∧ (Dev.blockReset t i d).rings = d.rings ∧ (Dev.blockReset t i d).timers = d.timers ∧ (Dev.blockReset t i d).regions = d.regions ∧ (Dev.blockReset t i d).mct = d.mct ∧ (Dev.blockReset t i d).cru = d.cru ∧ (Dev.blockReset t i d).acc = d.acc ∧ (Dev.blockReset t i d).svc = d.svc ∧ (Dev.blockReset t i d).clk = d.clk ∧ (Dev.blockReset t i d).rst = d.rst ∧ (Dev.blockReset t i d).hif = d.hif := by
  unfold Dev.blockReset; (repeat' split) <;> simp

@[simp] theorem Dev.releaseSet_frame (c : Nat) (d : Dev) :
    (Dev.releaseSet c d).now = d.now ∧ (Dev.releaseSet c d).regs = d.regs ∧ (Dev.releaseSet c d).luts = d.luts ∧ (Dev.releaseSet c d).mem = d.mem ∧ (Dev.releaseSet c d).ledger = d.ledger ∧ (Dev.releaseSet c d).queues = d.queues ∧ (Dev.releaseSet c d).turn = d.turn ∧ (Dev.releaseSet c d).lastTurn = d.lastTurn ∧ (Dev.releaseSet c d).rings = d.rings ∧ (Dev.releaseSet c d).canvases = d.canvases ∧ (Dev.releaseSet c d).comp = d.comp ∧ (Dev.releaseSet c d).ports = d.ports ∧ (Dev.releaseSet c d).chans = d.chans ∧ (Dev.releaseSet c d).timers = d.timers ∧ (Dev.releaseSet c d).mrv = d.mrv ∧ (Dev.releaseSet c d).engines = d.engines ∧ (Dev.releaseSet c d).regions = d.regions ∧ (Dev.releaseSet c d).mct = d.mct ∧ (Dev.releaseSet c d).cru = d.cru ∧ (Dev.releaseSet c d).acc = d.acc ∧ (Dev.releaseSet c d).flt = d.flt ∧ (Dev.releaseSet c d).svc = d.svc ∧ (Dev.releaseSet c d).tb = d.tb ∧ (Dev.releaseSet c d).clk = d.clk ∧ (Dev.releaseSet c d).rst = d.rst ∧ (Dev.releaseSet c d).hif = d.hif ∧ (Dev.releaseSet c d).pins = d.pins := by
  simp [Dev.releaseSet]

@[simp] theorem Dev.writeHold_frame (t : PType) (i : Nat) (b : Bool) (d : Dev) :
    (Dev.writeHold t i b d).now = d.now ∧ (Dev.writeHold t i b d).luts = d.luts ∧ (Dev.writeHold t i b d).mem = d.mem ∧ (Dev.writeHold t i b d).ledger = d.ledger ∧ (Dev.writeHold t i b d).queues = d.queues ∧ (Dev.writeHold t i b d).turn = d.turn ∧ (Dev.writeHold t i b d).lastTurn = d.lastTurn ∧ (Dev.writeHold t i b d).rings = d.rings ∧ (Dev.writeHold t i b d).canvases = d.canvases ∧ (Dev.writeHold t i b d).comp = d.comp ∧ (Dev.writeHold t i b d).ports = d.ports ∧ (Dev.writeHold t i b d).chans = d.chans ∧ (Dev.writeHold t i b d).timers = d.timers ∧ (Dev.writeHold t i b d).mrv = d.mrv ∧ (Dev.writeHold t i b d).engines = d.engines ∧ (Dev.writeHold t i b d).regions = d.regions ∧ (Dev.writeHold t i b d).mct = d.mct ∧ (Dev.writeHold t i b d).cru = d.cru ∧ (Dev.writeHold t i b d).acc = d.acc ∧ (Dev.writeHold t i b d).flt = d.flt ∧ (Dev.writeHold t i b d).svc = d.svc ∧ (Dev.writeHold t i b d).tb = d.tb ∧ (Dev.writeHold t i b d).clk = d.clk ∧ (Dev.writeHold t i b d).rst = d.rst ∧ (Dev.writeHold t i b d).hif = d.hif ∧ (Dev.writeHold t i b d).pins = d.pins := by
  simp [Dev.writeHold]

@[simp] theorem Dev.keyViolation_frame (t : PType) (i : Nat) (m : Nat) (woff : Nat) (d : Dev) :
    (Dev.keyViolation t i m woff d).now = d.now ∧ (Dev.keyViolation t i m woff d).regs = d.regs ∧ (Dev.keyViolation t i m woff d).luts = d.luts ∧ (Dev.keyViolation t i m woff d).mem = d.mem ∧ (Dev.keyViolation t i m woff d).scene = d.scene ∧ (Dev.keyViolation t i m woff d).ledger = d.ledger ∧ (Dev.keyViolation t i m woff d).queues = d.queues ∧ (Dev.keyViolation t i m woff d).turn = d.turn ∧ (Dev.keyViolation t i m woff d).lastTurn = d.lastTurn ∧ (Dev.keyViolation t i m woff d).rings = d.rings ∧ (Dev.keyViolation t i m woff d).canvases = d.canvases ∧ (Dev.keyViolation t i m woff d).comp = d.comp ∧ (Dev.keyViolation t i m woff d).ports = d.ports ∧ (Dev.keyViolation t i m woff d).chans = d.chans ∧ (Dev.keyViolation t i m woff d).timers = d.timers ∧ (Dev.keyViolation t i m woff d).mrv = d.mrv ∧ (Dev.keyViolation t i m woff d).engines = d.engines ∧ (Dev.keyViolation t i m woff d).regions = d.regions ∧ (Dev.keyViolation t i m woff d).mct = d.mct ∧ (Dev.keyViolation t i m woff d).cru = d.cru ∧ (Dev.keyViolation t i m woff d).acc = d.acc ∧ (Dev.keyViolation t i m woff d).svc = d.svc ∧ (Dev.keyViolation t i m woff d).tb = d.tb ∧ (Dev.keyViolation t i m woff d).clk = d.clk ∧ (Dev.keyViolation t i m woff d).rst = d.rst ∧ (Dev.keyViolation t i m woff d).hif = d.hif ∧ (Dev.keyViolation t i m woff d).pins = d.pins := by
  simp [Dev.keyViolation]

@[simp] theorem Dev.writeKey_frame (t : PType) (i : Nat) (m : Nat) (w : Word) (d : Dev) :
    (Dev.writeKey t i m w d).now = d.now ∧ (Dev.writeKey t i m w d).luts = d.luts ∧ (Dev.writeKey t i m w d).mem = d.mem ∧ (Dev.writeKey t i m w d).scene = d.scene ∧ (Dev.writeKey t i m w d).ledger = d.ledger ∧ (Dev.writeKey t i m w d).queues = d.queues ∧ (Dev.writeKey t i m w d).turn = d.turn ∧ (Dev.writeKey t i m w d).lastTurn = d.lastTurn ∧ (Dev.writeKey t i m w d).rings = d.rings ∧ (Dev.writeKey t i m w d).canvases = d.canvases ∧ (Dev.writeKey t i m w d).comp = d.comp ∧ (Dev.writeKey t i m w d).ports = d.ports ∧ (Dev.writeKey t i m w d).chans = d.chans ∧ (Dev.writeKey t i m w d).timers = d.timers ∧ (Dev.writeKey t i m w d).mrv = d.mrv ∧ (Dev.writeKey t i m w d).engines = d.engines ∧ (Dev.writeKey t i m w d).regions = d.regions ∧ (Dev.writeKey t i m w d).mct = d.mct ∧ (Dev.writeKey t i m w d).cru = d.cru ∧ (Dev.writeKey t i m w d).acc = d.acc ∧ (Dev.writeKey t i m w d).svc = d.svc ∧ (Dev.writeKey t i m w d).tb = d.tb ∧ (Dev.writeKey t i m w d).clk = d.clk ∧ (Dev.writeKey t i m w d).rst = d.rst ∧ (Dev.writeKey t i m w d).hif = d.hif ∧ (Dev.writeKey t i m w d).pins = d.pins := by
  simp [Dev.writeKey]

@[simp] theorem Dev.takeSnap_frame (t : PType) (i : Nat) (m : Nat) (g : BitVec 8) (d : Dev) :
    (Dev.takeSnap t i m g d).now = d.now ∧ (Dev.takeSnap t i m g d).luts = d.luts ∧ (Dev.takeSnap t i m g d).mem = d.mem ∧ (Dev.takeSnap t i m g d).scene = d.scene ∧ (Dev.takeSnap t i m g d).ledger = d.ledger ∧ (Dev.takeSnap t i m g d).queues = d.queues ∧ (Dev.takeSnap t i m g d).turn = d.turn ∧ (Dev.takeSnap t i m g d).lastTurn = d.lastTurn ∧ (Dev.takeSnap t i m g d).rings = d.rings ∧ (Dev.takeSnap t i m g d).canvases = d.canvases ∧ (Dev.takeSnap t i m g d).comp = d.comp ∧ (Dev.takeSnap t i m g d).ports = d.ports ∧ (Dev.takeSnap t i m g d).chans = d.chans ∧ (Dev.takeSnap t i m g d).timers = d.timers ∧ (Dev.takeSnap t i m g d).mrv = d.mrv ∧ (Dev.takeSnap t i m g d).engines = d.engines ∧ (Dev.takeSnap t i m g d).regions = d.regions ∧ (Dev.takeSnap t i m g d).mct = d.mct ∧ (Dev.takeSnap t i m g d).cru = d.cru ∧ (Dev.takeSnap t i m g d).acc = d.acc ∧ (Dev.takeSnap t i m g d).flt = d.flt ∧ (Dev.takeSnap t i m g d).svc = d.svc ∧ (Dev.takeSnap t i m g d).tb = d.tb ∧ (Dev.takeSnap t i m g d).clk = d.clk ∧ (Dev.takeSnap t i m g d).rst = d.rst ∧ (Dev.takeSnap t i m g d).hif = d.hif ∧ (Dev.takeSnap t i m g d).pins = d.pins := by
  simp [Dev.takeSnap]

@[simp] theorem RegWrite.headerEffect_frame (x : RegWrite) (d : Dev) :
    (RegWrite.headerEffect x d).now = d.now ∧ (RegWrite.headerEffect x d).luts = d.luts ∧ (RegWrite.headerEffect x d).mem = d.mem ∧ (RegWrite.headerEffect x d).ledger = d.ledger ∧ (RegWrite.headerEffect x d).turn = d.turn ∧ (RegWrite.headerEffect x d).lastTurn = d.lastTurn ∧ (RegWrite.headerEffect x d).rings = d.rings ∧ (RegWrite.headerEffect x d).timers = d.timers ∧ (RegWrite.headerEffect x d).regions = d.regions ∧ (RegWrite.headerEffect x d).mct = d.mct ∧ (RegWrite.headerEffect x d).cru = d.cru ∧ (RegWrite.headerEffect x d).acc = d.acc ∧ (RegWrite.headerEffect x d).svc = d.svc ∧ (RegWrite.headerEffect x d).clk = d.clk ∧ (RegWrite.headerEffect x d).rst = d.rst ∧ (RegWrite.headerEffect x d).hif = d.hif := by
  unfold RegWrite.headerEffect; (repeat' split) <;> simp

@[simp] theorem Dev.stageWord_frame (t : PType) (i : Nat) (off : Nat) (w : Word) (d : Dev) :
    (Dev.stageWord t i off w d).now = d.now ∧ (Dev.stageWord t i off w d).luts = d.luts ∧ (Dev.stageWord t i off w d).mem = d.mem ∧ (Dev.stageWord t i off w d).ledger = d.ledger ∧ (Dev.stageWord t i off w d).queues = d.queues ∧ (Dev.stageWord t i off w d).turn = d.turn ∧ (Dev.stageWord t i off w d).lastTurn = d.lastTurn ∧ (Dev.stageWord t i off w d).rings = d.rings ∧ (Dev.stageWord t i off w d).canvases = d.canvases ∧ (Dev.stageWord t i off w d).comp = d.comp ∧ (Dev.stageWord t i off w d).ports = d.ports ∧ (Dev.stageWord t i off w d).chans = d.chans ∧ (Dev.stageWord t i off w d).timers = d.timers ∧ (Dev.stageWord t i off w d).mrv = d.mrv ∧ (Dev.stageWord t i off w d).engines = d.engines ∧ (Dev.stageWord t i off w d).regions = d.regions ∧ (Dev.stageWord t i off w d).mct = d.mct ∧ (Dev.stageWord t i off w d).cru = d.cru ∧ (Dev.stageWord t i off w d).acc = d.acc ∧ (Dev.stageWord t i off w d).flt = d.flt ∧ (Dev.stageWord t i off w d).svc = d.svc ∧ (Dev.stageWord t i off w d).tb = d.tb ∧ (Dev.stageWord t i off w d).clk = d.clk ∧ (Dev.stageWord t i off w d).rst = d.rst ∧ (Dev.stageWord t i off w d).hif = d.hif ∧ (Dev.stageWord t i off w d).pins = d.pins := by
  simp [Dev.stageWord]

@[simp] theorem RegWrite.store_frame (x : RegWrite) (r : RegDesc) (d : Dev) :
    (RegWrite.store x r d).now = d.now ∧ (RegWrite.store x r d).luts = d.luts ∧ (RegWrite.store x r d).mem = d.mem ∧ (RegWrite.store x r d).ledger = d.ledger ∧ (RegWrite.store x r d).queues = d.queues ∧ (RegWrite.store x r d).turn = d.turn ∧ (RegWrite.store x r d).lastTurn = d.lastTurn ∧ (RegWrite.store x r d).rings = d.rings ∧ (RegWrite.store x r d).canvases = d.canvases ∧ (RegWrite.store x r d).comp = d.comp ∧ (RegWrite.store x r d).ports = d.ports ∧ (RegWrite.store x r d).chans = d.chans ∧ (RegWrite.store x r d).timers = d.timers ∧ (RegWrite.store x r d).mrv = d.mrv ∧ (RegWrite.store x r d).engines = d.engines ∧ (RegWrite.store x r d).regions = d.regions ∧ (RegWrite.store x r d).mct = d.mct ∧ (RegWrite.store x r d).cru = d.cru ∧ (RegWrite.store x r d).acc = d.acc ∧ (RegWrite.store x r d).flt = d.flt ∧ (RegWrite.store x r d).svc = d.svc ∧ (RegWrite.store x r d).tb = d.tb ∧ (RegWrite.store x r d).clk = d.clk ∧ (RegWrite.store x r d).rst = d.rst ∧ (RegWrite.store x r d).hif = d.hif ∧ (RegWrite.store x r d).pins = d.pins := by
  simp [RegWrite.store]

@[simp] theorem RegWrite.perform_frame (x : RegWrite) (r : RegDesc) (d : Dev) : (RegWrite.perform x r d).now = d.now := by
  simp [RegWrite.perform]

@[simp] theorem Dev.writeReg_frame (m : Nat) (t : PType) (i : Nat) (off : Nat) (woff : Nat) (aliased : Bool) (data : Word) (d : Dev) : (Dev.writeReg m t i off woff aliased data d).now = d.now := by
  unfold Dev.writeReg; (repeat' split) <;> simp

@[simp] theorem Dev.writePage_frame (m : Nat) (t : PType) (i : Nat) (woff : Nat) (w : Word) (d : Dev) : (Dev.writePage m t i woff w d).now = d.now := by
  unfold Dev.writePage; try dsimp only
  (repeat' split) <;> simp

@[simp] theorem Dev.busWrite_frame (m off : Nat) (w : Word) (d : Dev) :
    (Dev.busWrite m off w d).now = d.now := by
  unfold Dev.busWrite; split
  · simp
  · split
    · simp
    · split
      · simp
      · split <;> simp
      · extract_lets o; split <;> simp
      all_goals simp

@[simp] theorem Dev.sizedWrite_frame (m : Nat) (off : Nat) (size : Nat) (data : Quad) (d : Dev) : (Dev.sizedWrite m off size data d).now = d.now := by
  simp [Dev.sizedWrite]

@[simp] theorem Dev.regWrite_frame (m : Nat) (t : PType) (i : Nat) (off : Nat) (w : Word) (d : Dev) : (Dev.regWrite m t i off w d).now = d.now := by
  simp [Dev.regWrite]

@[simp] theorem Dev.fieldWrite_frame (m : Nat) (t : PType) (i : Nat) (off : Nat) (clears : Word) (sets : Word) (d : Dev) : (Dev.fieldWrite m t i off clears sets d).now = d.now := by
  simp [Dev.fieldWrite]

@[simp] theorem Dev.headerWrite_frame (m : Nat) (n : Nat) (off : Nat) (w : Word) (d : Dev) : (Dev.headerWrite m n off w d).now = d.now := by
  simp [Dev.headerWrite]

@[simp] theorem Dev.applyRefs_frame (d : Dev) :
    (Dev.applyRefs d).now = d.now ∧ (Dev.applyRefs d).luts = d.luts ∧ (Dev.applyRefs d).mem = d.mem ∧ (Dev.applyRefs d).scene = d.scene ∧ (Dev.applyRefs d).ledger = d.ledger ∧ (Dev.applyRefs d).queues = d.queues ∧ (Dev.applyRefs d).turn = d.turn ∧ (Dev.applyRefs d).lastTurn = d.lastTurn ∧ (Dev.applyRefs d).rings = d.rings ∧ (Dev.applyRefs d).canvases = d.canvases ∧ (Dev.applyRefs d).comp = d.comp ∧ (Dev.applyRefs d).ports = d.ports ∧ (Dev.applyRefs d).chans = d.chans ∧ (Dev.applyRefs d).timers = d.timers ∧ (Dev.applyRefs d).mrv = d.mrv ∧ (Dev.applyRefs d).engines = d.engines ∧ (Dev.applyRefs d).regions = d.regions ∧ (Dev.applyRefs d).cru = d.cru ∧ (Dev.applyRefs d).acc = d.acc ∧ (Dev.applyRefs d).flt = d.flt ∧ (Dev.applyRefs d).svc = d.svc ∧ (Dev.applyRefs d).tb = d.tb ∧ (Dev.applyRefs d).clk = d.clk ∧ (Dev.applyRefs d).rst = d.rst ∧ (Dev.applyRefs d).hif = d.hif ∧ (Dev.applyRefs d).pins = d.pins := by
  simp [Dev.applyRefs]

@[simp] theorem Dev.applyOverrides_frame (site : Nat) (d : Dev) :
    (Dev.applyOverrides site d).now = d.now ∧ (Dev.applyOverrides site d).luts = d.luts ∧ (Dev.applyOverrides site d).mem = d.mem ∧ (Dev.applyOverrides site d).scene = d.scene ∧ (Dev.applyOverrides site d).ledger = d.ledger ∧ (Dev.applyOverrides site d).queues = d.queues ∧ (Dev.applyOverrides site d).turn = d.turn ∧ (Dev.applyOverrides site d).lastTurn = d.lastTurn ∧ (Dev.applyOverrides site d).rings = d.rings ∧ (Dev.applyOverrides site d).canvases = d.canvases ∧ (Dev.applyOverrides site d).comp = d.comp ∧ (Dev.applyOverrides site d).ports = d.ports ∧ (Dev.applyOverrides site d).chans = d.chans ∧ (Dev.applyOverrides site d).timers = d.timers ∧ (Dev.applyOverrides site d).mrv = d.mrv ∧ (Dev.applyOverrides site d).engines = d.engines ∧ (Dev.applyOverrides site d).regions = d.regions ∧ (Dev.applyOverrides site d).cru = d.cru ∧ (Dev.applyOverrides site d).acc = d.acc ∧ (Dev.applyOverrides site d).flt = d.flt ∧ (Dev.applyOverrides site d).svc = d.svc ∧ (Dev.applyOverrides site d).tb = d.tb ∧ (Dev.applyOverrides site d).clk = d.clk ∧ (Dev.applyOverrides site d).rst = d.rst ∧ (Dev.applyOverrides site d).hif = d.hif ∧ (Dev.applyOverrides site d).pins = d.pins := by
  unfold Dev.applyOverrides
  refine foldl_rel (fun x y => x.now = y.now ∧ x.luts = y.luts ∧ x.mem = y.mem ∧ x.scene = y.scene ∧ x.ledger = y.ledger ∧ x.queues = y.queues ∧ x.turn = y.turn ∧ x.lastTurn = y.lastTurn ∧ x.rings = y.rings ∧ x.canvases = y.canvases ∧ x.comp = y.comp ∧ x.ports = y.ports ∧ x.chans = y.chans ∧ x.timers = y.timers ∧ x.mrv = y.mrv ∧ x.engines = y.engines ∧ x.regions = y.regions ∧ x.cru = y.cru ∧ x.acc = y.acc ∧ x.flt = y.flt ∧ x.svc = y.svc ∧ x.tb = y.tb ∧ x.clk = y.clk ∧ x.rst = y.rst ∧ x.hif = y.hif ∧ x.pins = y.pins) (by simp) (fun x y z h₁ h₂ => by simp only [h₁, h₂, and_self]) (fun d a => ?_) _ _
  (repeat' split) <;> simp

@[simp] theorem Dev.applyStaged_frame (t : PType) (i : Nat) (d : Dev) :
    (Dev.applyStaged t i d).now = d.now ∧ (Dev.applyStaged t i d).luts = d.luts ∧ (Dev.applyStaged t i d).mem = d.mem ∧ (Dev.applyStaged t i d).scene = d.scene ∧ (Dev.applyStaged t i d).ledger = d.ledger ∧ (Dev.applyStaged t i d).queues = d.queues ∧ (Dev.applyStaged t i d).turn = d.turn ∧ (Dev.applyStaged t i d).lastTurn = d.lastTurn ∧ (Dev.applyStaged t i d).rings = d.rings ∧ (Dev.applyStaged t i d).comp = d.comp ∧ (Dev.applyStaged t i d).chans = d.chans ∧ (Dev.applyStaged t i d).timers = d.timers ∧ (Dev.applyStaged t i d).mrv = d.mrv ∧ (Dev.applyStaged t i d).engines = d.engines ∧ (Dev.applyStaged t i d).regions = d.regions ∧ (Dev.applyStaged t i d).cru = d.cru ∧ (Dev.applyStaged t i d).acc = d.acc ∧ (Dev.applyStaged t i d).svc = d.svc ∧ (Dev.applyStaged t i d).tb = d.tb ∧ (Dev.applyStaged t i d).clk = d.clk ∧ (Dev.applyStaged t i d).rst = d.rst ∧ (Dev.applyStaged t i d).hif = d.hif ∧ (Dev.applyStaged t i d).pins = d.pins := by
  unfold Dev.applyStaged; (repeat' split) <;> simp

end Sys2Proof.Machine
end

