-- ==== Sys2Proof/Laws/MemWf.lean ====
section
/-!
SUPPORT. The operations that store to memory keep it in canonical form.
-/
set_option linter.all false
namespace Sys2Proof.Machine
@[simp] theorem foldl_wf {α : Type} (f : Dev → α → Dev) (h : ∀ d a, Memory.wf d.mem = true → Memory.wf (f d a).mem = true)
    (l : List α) (d : Dev) (hd : Memory.wf d.mem = true) : Memory.wf (l.foldl f d).mem = true := by
  induction l generalizing d with
  | nil => exact hd
  | cons a l ih => exact ih _ (h d a hd)
@[simp] theorem Memory.wf_ite (c : Prop) [Decidable c] (a b : FMap Byte) :
    Memory.wf (if c then a else b) = if c then Memory.wf a else Memory.wf b := by
  split <;> rfl
@[simp] theorem Dev.when_wf (b : Bool) (f : Dev → Dev) (d : Dev) (h : Memory.wf d.mem = true)
    (hf : ∀ d, Memory.wf d.mem = true → Memory.wf (f d).mem = true) : Memory.wf (d.when b f).mem = true := by
  unfold Dev.when; split
  · exact hf d h
  · exact h
@[simp] theorem Dev.setByte_wf (a : Nat) (b : Byte) (d : Dev) (h : Memory.wf d.mem = true) :
    Memory.wf (d.setByte a b).mem = true := FMap.wf_put h a b
@[simp] theorem Dev.setBytes_wf (a : Nat) (bs : List Byte) (d : Dev) (h : Memory.wf d.mem = true) :
    Memory.wf (Dev.setBytes a bs d).mem = true := by
  induction bs generalizing a d with
  | nil => exact h
  | cons b bs ih => exact ih _ _ (Dev.setByte_wf a b d h)
@[simp] theorem Dev.store_wf (a : Nat) (bs : List Byte) (d : Dev) (h : Memory.wf d.mem = true) :
    Memory.wf (Dev.store a bs d).mem = true := by
  unfold Dev.store; dsimp only; split <;> simp [h]

@[simp] theorem Dev.masterWrite_wf (mid : Nat) (a : Nat) (ws : List Word) (d : Dev) (h_mem : Memory.wf d.mem = true) :
    Memory.wf (Dev.masterWrite mid a ws d).mem = true := by
  unfold Dev.masterWrite; (repeat' split) <;> simp +contextual [h_mem]

@[simp] theorem Dev.post_wf (f : Nat) (n : Notice) (d : Dev) (h_mem : Memory.wf d.mem = true) :
    Memory.wf (Dev.post f n d).mem = true := by
  simp +contextual [Dev.post, h_mem]

@[simp] theorem Dev.noticeThen_wf (f : Nat) (n : Notice) (k : Dev → Dev) (d : Dev) (hk : ∀ d, Memory.wf d.mem = true → Memory.wf (k d).mem = true) (h_mem : Memory.wf d.mem = true) :
    Memory.wf (Dev.noticeThen f n k d).mem = true := by
  simp +contextual [Dev.noticeThen, h_mem, hk]

@[simp] theorem Dev.notice_wf (f : Nat) (n : Notice) (d : Dev) (h_mem : Memory.wf d.mem = true) :
    Memory.wf (Dev.notice f n d).mem = true := by
  simp +contextual [Dev.notice, h_mem]

@[simp] theorem Dev.headWriteback_wf (q : Nat) (d : Dev) (h_mem : Memory.wf d.mem = true) :
    Memory.wf (Dev.headWriteback q d).mem = true := by
  simp +contextual [Dev.headWriteback, h_mem]

@[simp] theorem Dev.advanceHead_wf (q : Nat) (d : Dev) (h_mem : Memory.wf d.mem = true) :
    Memory.wf (Dev.advanceHead q d).mem = true := by
  simp +contextual [Dev.advanceHead, h_mem]

@[simp] theorem Dev.completeGrp_wf (q : Nat) (grp : Nat) (d : Dev) (h_mem : Memory.wf d.mem = true) :
    Memory.wf (Dev.completeGrp q grp d).mem = true := by
  simp +contextual [Dev.completeGrp, h_mem]

@[simp] theorem writeEntry_wf (f : Firing) (d : Dev) (h_mem : Memory.wf d.mem = true) :
    Memory.wf (writeEntry f d).mem = true := by
  simp +contextual [writeEntry, h_mem]

@[simp] theorem logEntryWrite_wf (d : Dev) (h_mem : Memory.wf d.mem = true) :
    Memory.wf (logEntryWrite d).mem = true := by
  unfold logEntryWrite; (repeat' split) <;> simp +contextual [h_mem]

@[simp] theorem Dev.refuseOpen_wf (q : Nat) (reason : Nat) (slot : Nat) (kind : Nat) (index : Nat) (d : Dev) (h_mem : Memory.wf d.mem = true) :
    Memory.wf (Dev.refuseOpen q reason slot kind index d).mem = true := by
  unfold Dev.refuseOpen; try dsimp only
  (repeat' split) <;> simp +contextual [h_mem]

@[simp] theorem Dev.beginScene_wf (q : Nat) (w : Word) (d : Dev) (h_mem : Memory.wf d.mem = true) :
    Memory.wf (Dev.beginScene q w d).mem = true := by
  unfold Dev.beginScene; try dsimp only
  (repeat' split) <;> simp +contextual [h_mem]

@[simp] theorem Dev.retryScene_wf (q : Nat) (d : Dev) (h_mem : Memory.wf d.mem = true) :
    Memory.wf (Dev.retryScene q d).mem = true := by
  simp +contextual [Dev.retryScene, h_mem]

@[simp] theorem Dev.txnDone_wf (q : Nat) (grp : Nat) (d : Dev) (h_mem : Memory.wf d.mem = true) :
    Memory.wf (Dev.txnDone q grp d).mem = true := by
  simp +contextual [Dev.txnDone, h_mem]

@[simp] theorem Dev.stagingFreed_wf (d : Dev) (h_mem : Memory.wf d.mem = true) :
    Memory.wf (Dev.stagingFreed d).mem = true := by
  simp +contextual [Dev.stagingFreed, h_mem]

@[simp] theorem Dev.completeChange_wf (a : Admitted) (d : Dev) (h_mem : Memory.wf d.mem = true) :
    Memory.wf (Dev.completeChange a d).mem = true := by
  unfold Dev.completeChange; dsimp only
  have hd : ∀ e : Dev, Memory.wf e.mem = true → Memory.wf (match a.queue with
      | some q => Dev.stagingFreed (Dev.txnDone q a.grp e)
      | none => if a.flrOf.isSome then Dev.stagingFreed e else e).mem = true := by
    intro e he; split
    · simp [he]
    · split <;> simp [he]
  split
  · exact hd _ (by simp [h_mem])
  · exact Dev.noticeThen_wf _ _ _ _ hd (by simp [h_mem])

@[simp] theorem Dev.completeAll_wf (nos : List Nat) (d : Dev) (h_mem : Memory.wf d.mem = true) :
    Memory.wf (Dev.completeAll nos d).mem = true := by
  unfold Dev.completeAll; refine foldl_wf _ (fun d a h => ?_) _ _ ?_ <;> (try dsimp only) <;> (repeat' split) <;> simp +contextual [*]

@[simp] theorem Dev.enter_wf (a : Admitted) (d : Dev) (h_mem : Memory.wf d.mem = true) :
    Memory.wf (Dev.enter a d).mem = true := by
  simp +contextual [Dev.enter, h_mem]

@[simp] theorem Dev.discardAdmitted_wf (c : Nat) (a : Admitted) (d : Dev) (h_mem : Memory.wf d.mem = true) :
    Memory.wf (Dev.discardAdmitted c a d).mem = true := by
  simp +contextual [Dev.discardAdmitted, h_mem]

@[simp] theorem Dev.applyChange_wf (c : Nat) (d : Dev) (a : Admitted) (h_mem : Memory.wf d.mem = true) :
    Memory.wf (Dev.applyChange c d a).mem = true := by
  simp +contextual [Dev.applyChange, h_mem]

@[simp] theorem Dev.applyOn_wf (c : Nat) (l : List Admitted) (d : Dev) (h_mem : Memory.wf d.mem = true) :
    Memory.wf (Dev.applyOn c l d).mem = true := by
  unfold Dev.applyOn; refine foldl_wf _ (fun d a h => ?_) _ _ ?_ <;> (try dsimp only) <;> (repeat' split) <;> simp +contextual [*]

@[simp] theorem Dev.refuseTxn_wf (t : Txn) (r : Refuse) (d : Dev) (h_mem : Memory.wf d.mem = true) :
    Memory.wf (Dev.refuseTxn t r d).mem = true := by
  unfold Dev.refuseTxn; split
  · exact h_mem
  · exact Dev.noticeThen_wf _ _ _ _ (fun e he => by simp [he]) h_mem

@[simp] theorem Dev.commitTxn_wf (t : Txn) (d : Dev) (h_mem : Memory.wf d.mem = true) :
    Memory.wf (Dev.commitTxn t d).mem = true := by
  unfold Dev.commitTxn; try dsimp only
  (repeat' split) <;> simp +contextual [h_mem]

@[simp] theorem Dev.refuseRegs_wf (c : Nat) (badView : Bool) (r : Refuse) (d : Dev) (h_mem : Memory.wf d.mem = true) :
    Memory.wf (Dev.refuseRegs c badView r d).mem = true := by
  simp +contextual [Dev.refuseRegs, h_mem]

@[simp] theorem Dev.commitSame_wf (c : Nat) (set : List (Nat × Word)) (d : Dev) (h_mem : Memory.wf d.mem = true) :
    Memory.wf (Dev.commitSame c set d).mem = true := by
  simp +contextual [Dev.commitSame, h_mem]

@[simp] theorem Dev.commitIdle_wf (c : Nat) (set : List (Nat × Word)) (new : CanvasRegs) (d : Dev) (h_mem : Memory.wf d.mem = true) :
    Memory.wf (Dev.commitIdle c set new d).mem = true := by
  simp +contextual [Dev.commitIdle, h_mem]

@[simp] theorem Dev.commitLive_wf (c : Nat) (set : List (Nat × Word)) (old : CanvasRegs) (new : CanvasRegs) (l : List Cand) (d : Dev) (h_mem : Memory.wf d.mem = true) :
    Memory.wf (Dev.commitLive c set old new l d).mem = true := by
  simp +contextual [Dev.commitLive, h_mem]

@[simp] theorem Dev.commitRegs_wf (c : Nat) (set : List (Nat × Word)) (d : Dev) (h_mem : Memory.wf d.mem = true) :
    Memory.wf (Dev.commitRegs c set d).mem = true := by
  unfold Dev.commitRegs; try dsimp only
  (repeat' split) <;> simp +contextual [h_mem]

@[simp] theorem Dev.refuseEnable_wf (c : Nat) (r : Refuse) (d : Dev) (h_mem : Memory.wf d.mem = true) :
    Memory.wf (Dev.refuseEnable c r d).mem = true := by
  simp +contextual [Dev.refuseEnable, h_mem]

@[simp] theorem Dev.commitEnable_wf (c : Nat) (d : Dev) (h_mem : Memory.wf d.mem = true) :
    Memory.wf (Dev.commitEnable c d).mem = true := by
  unfold Dev.commitEnable; try dsimp only
  (repeat' split) <;> simp +contextual [h_mem]

@[simp] theorem Dev.commitFlip_wf (fn : Nat) (win : Nat) (a : Nat) (b : Nat) (d : Dev) (h_mem : Memory.wf d.mem = true) :
    Memory.wf (Dev.commitFlip fn win a b d).mem = true := by
  unfold Dev.commitFlip; try dsimp only
  (repeat' split) <;> simp +contextual [h_mem]

@[simp] theorem Dev.commitClear_wf (v : Nat) (wins : List Nat) (lent : Nat) (d : Dev) (h_mem : Memory.wf d.mem = true) :
    Memory.wf (Dev.commitClear v wins lent d).mem = true := by
  simp +contextual [Dev.commitClear, h_mem]

@[simp] theorem commitPoint_wf (d : Dev) (h_mem : Memory.wf d.mem = true) :
    Memory.wf (commitPoint d).mem = true := by
  unfold commitPoint; (repeat' split) <;> simp +contextual [h_mem]

@[simp] theorem Dev.latch_wf (c : Nat) (f : Nat) (d : Dev) (h_mem : Memory.wf d.mem = true) :
    Memory.wf (Dev.latch c f d).mem = true := by
  unfold Dev.latch; try dsimp only
  (repeat' split) <;> simp +contextual [h_mem]

@[simp] theorem Dev.releaseFirst_wf (c : Nat) (d : Dev) (h_mem : Memory.wf d.mem = true) :
    Memory.wf (Dev.releaseFirst c d).mem = true := by
  simp +contextual [Dev.releaseFirst, h_mem]

@[simp] theorem Dev.applyAll_wf (c : Nat) (d : Dev) (h_mem : Memory.wf d.mem = true) :
    Memory.wf (Dev.applyAll c d).mem = true := by
  simp +contextual [Dev.applyAll, h_mem]

@[simp] theorem Dev.drainCanvas_wf (c : Nat) (d : Dev) (h_mem : Memory.wf d.mem = true) :
    Memory.wf (Dev.drainCanvas c d).mem = true := by
  simp +contextual [Dev.drainCanvas, h_mem]

@[simp] theorem Dev.writeCanvasEn_wf (c : Nat) (b : Bool) (d : Dev) (h_mem : Memory.wf d.mem = true) :
    Memory.wf (Dev.writeCanvasEn c b d).mem = true := by
  unfold Dev.writeCanvasEn; try dsimp only
  (repeat' split) <;> simp +contextual [h_mem]

@[simp] theorem Dev.canvasDrained_wf (c : Nat) (d : Dev) (h_mem : Memory.wf d.mem = true) :
    Memory.wf (Dev.canvasDrained c d).mem = true := by
  simp +contextual [Dev.canvasDrained, h_mem]

@[simp] theorem Dev.dealBand_wf (p : Nat) (r : Released) (d : Dev) (h_mem : Memory.wf d.mem = true) :
    Memory.wf (Dev.dealBand p r d).mem = true := by
  simp +contextual [Dev.dealBand, h_mem]

@[simp] theorem Dev.takeNext_wf (p : Nat) (d : Dev) (h_mem : Memory.wf d.mem = true) :
    Memory.wf (Dev.takeNext p d).mem = true := by
  unfold Dev.takeNext; (repeat' split) <;> simp +contextual [h_mem]

@[simp] theorem Dev.applyFlip_wf (c : Nat) (a : Admitted) (d : Dev) (h_mem : Memory.wf d.mem = true) :
    Memory.wf (Dev.applyFlip c a d).mem = true := by
  simp +contextual [Dev.applyFlip, h_mem]

@[simp] theorem Dev.applyFlips_wf (c : Nat) (d : Dev) (h_mem : Memory.wf d.mem = true) :
    Memory.wf (Dev.applyFlips c d).mem = true := by
  simp +contextual [Dev.applyFlips, h_mem]

@[simp] theorem Dev.fetchStart_wf (p : Nat) (h : Held) (d : Dev) (h_mem : Memory.wf d.mem = true) :
    Memory.wf (Dev.fetchStart p h d).mem = true := by
  simp +contextual [Dev.fetchStart, h_mem]

@[simp] theorem Dev.storeAtoms_wf (a : Nat) (bs : List Byte) (d : Dev) (h_mem : Memory.wf d.mem = true) :
    Memory.wf (Dev.storeAtoms a bs d).mem = true := by
  unfold Dev.storeAtoms
  refine foldl_wf _ (fun d t h => ?_) _ _ h_mem
  dsimp only; split
  · split <;> simp [h]
  all_goals exact h

@[simp] theorem Dev.putParison_wf (c : Nat) (b : Nat) (y : Nat) (ws : List Word) (d : Dev) (h_mem : Memory.wf d.mem = true) :
    Memory.wf (Dev.putParison c b y ws d).mem = true := by
  simp +contextual [Dev.putParison, h_mem]

@[simp] theorem Dev.writeLine_wf (h : Held) (y : Nat) (ws : List Word) (d : Dev) (h_mem : Memory.wf d.mem = true) :
    Memory.wf (Dev.writeLine h y ws d).mem = true := by
  simp +contextual [Dev.writeLine, h_mem]

@[simp] theorem Dev.replaceLines_wf (t : Dispute) (ys : List Nat) (d : Dev) (h_mem : Memory.wf d.mem = true) :
    Memory.wf (Dev.replaceLines t ys d).mem = true := by
  unfold Dev.replaceLines; refine foldl_wf _ (fun d a h => ?_) _ _ ?_ <;> (try dsimp only) <;> (repeat' split) <;> simp +contextual [*]

@[simp] theorem Dev.vote_wf (t : Dispute) (v : Nat) (r : List (Nat × Word)) (d : Dev) (h_mem : Memory.wf d.mem = true) :
    Memory.wf (Dev.vote t v r d).mem = true := by
  simp +contextual [Dev.vote, h_mem]

@[simp] theorem Dev.lateVote_wf (v : Nat) (err : Word) (d : Dev) (h_mem : Memory.wf d.mem = true) :
    Memory.wf (Dev.lateVote v err d).mem = true := by
  unfold Dev.lateVote; (repeat' split) <;> simp +contextual [h_mem]

@[simp] theorem Dev.consumeDone_wf (q : Nat) (d : Dev) (h_mem : Memory.wf d.mem = true) :
    Memory.wf (Dev.consumeDone q d).mem = true := by
  simp +contextual [Dev.consumeDone, h_mem]

@[simp] theorem Dev.refuseAlone_wf (q : Nat) (reason : Nat) (kind : Nat) (index : Nat) (d : Dev) (h_mem : Memory.wf d.mem = true) :
    Memory.wf (Dev.refuseAlone q reason kind index d).mem = true := by
  simp +contextual [Dev.refuseAlone, h_mem]

@[simp] theorem Dev.consumeDiscarded_wf (q : Nat) (d : Dev) (h_mem : Memory.wf d.mem = true) :
    Memory.wf (Dev.consumeDiscarded q d).mem = true := by
  simp +contextual [Dev.consumeDiscarded, h_mem]

@[simp] theorem Dev.refuseAt_wf (q reason kind index : Nat) (d : Dev) (h_mem : Memory.wf d.mem = true) :
    Memory.wf (Dev.refuseAt q reason kind index d).mem = true := by
  unfold Dev.refuseAt; dsimp only
  refine Dev.consumeDiscarded_wf _ _ ?_
  rw [Dev.setQueue_mem]
  exact Dev.stagingFreed_wf _ (Dev.refuseOpen_wf _ _ _ _ _ _ h_mem)

@[simp] theorem Dev.sceneEntry_wf (q : Nat) (op : TxnOp) (d : Dev) (h_mem : Memory.wf d.mem = true) :
    Memory.wf (Dev.sceneEntry q op d).mem = true := by
  unfold Dev.sceneEntry; try dsimp only
  (repeat' split) <;> simp +contextual [h_mem]

@[simp] theorem Dev.commitArrives_wf (q : Nat) (d : Dev) (h_mem : Memory.wf d.mem = true) :
    Memory.wf (Dev.commitArrives q d).mem = true := by
  unfold Dev.commitArrives; try dsimp only
  (repeat' split) <;> simp +contextual [h_mem]

@[simp] theorem Dev.plainArrives_wf (q : Nat) (d : Dev) (h_mem : Memory.wf d.mem = true) :
    Memory.wf (Dev.plainArrives q d).mem = true := by
  unfold Dev.plainArrives; (repeat' split) <;> simp +contextual [h_mem]

@[simp] theorem Dev.noteArrives_wf (q : Nat) (d : Dev) (h_mem : Memory.wf d.mem = true) :
    Memory.wf (Dev.noteArrives q d).mem = true := by
  simp +contextual [Dev.noteArrives, h_mem]

@[simp] theorem Dev.nopArrives_wf (q : Nat) (d : Dev) (h_mem : Memory.wf d.mem = true) :
    Memory.wf (Dev.nopArrives q d).mem = true := by
  simp +contextual [Dev.nopArrives, h_mem]

@[simp] theorem Dev.outsideOnly_wf (q : Nat) (k : Dev → Dev) (d : Dev) (hk : ∀ d, Memory.wf d.mem = true → Memory.wf (k d).mem = true) (h_mem : Memory.wf d.mem = true) :
    Memory.wf (Dev.outsideOnly q k d).mem = true := by
  simp +contextual [Dev.outsideOnly, h_mem, hk]

@[simp] theorem Dev.refuseHeld_wf (q : Nat) (reason : Nat) (kind : Nat) (index : Nat) (d : Dev) (h_mem : Memory.wf d.mem = true) :
    Memory.wf (Dev.refuseHeld q reason kind index d).mem = true := by
  simp +contextual [Dev.refuseHeld, h_mem]

@[simp] theorem Dev.refuseWaiters_wf (op : Nat) (hi : Nat) (kind : Nat) (u : Nat) (d : Dev) (h_mem : Memory.wf d.mem = true) :
    Memory.wf (Dev.refuseWaiters op hi kind u d).mem = true := by
  simp +contextual [Dev.refuseWaiters, h_mem]

@[simp] theorem Dev.endWait_wf (q : Nat) (w : Wait) (d : Dev) (h_mem : Memory.wf d.mem = true) :
    Memory.wf (Dev.endWait q w d).mem = true := by
  simp +contextual [Dev.endWait, h_mem]

@[simp] theorem Dev.checkLevels_wf (d : Dev) (h_mem : Memory.wf d.mem = true) :
    Memory.wf (Dev.checkLevels d).mem = true := by
  unfold Dev.checkLevels; refine foldl_wf _ (fun d a h => ?_) _ _ ?_ <;> (try dsimp only) <;> (repeat' split) <;> simp +contextual [*]

@[simp] theorem Dev.countEdge_wf (event : Nat) (index : Nat) (d : Dev) (h_mem : Memory.wf d.mem = true) :
    Memory.wf (Dev.countEdge event index d).mem = true := by
  unfold Dev.countEdge; refine foldl_wf _ (fun d a h => ?_) _ _ ?_ <;> (try dsimp only) <;> (repeat' split) <;> simp +contextual [*]

@[simp] theorem Dev.beginWait_wf (q : Nat) (d : Dev) (h_mem : Memory.wf d.mem = true) :
    Memory.wf (Dev.beginWait q d).mem = true := by
  simp +contextual [Dev.beginWait, h_mem]

@[simp] theorem Dev.drainQueue_wf (q : Nat) (d : Dev) (h_mem : Memory.wf d.mem = true) :
    Memory.wf (Dev.drainQueue q d).mem = true := by
  simp +contextual [Dev.drainQueue, h_mem]

@[simp] theorem Dev.writeQueueEn_wf (q : Nat) (b : Bool) (d : Dev) (h_mem : Memory.wf d.mem = true) :
    Memory.wf (Dev.writeQueueEn q b d).mem = true := by
  unfold Dev.writeQueueEn; try dsimp only
  (repeat' split) <;> simp +contextual [h_mem]

@[simp] theorem Dev.vsync_wf (c : Nat) (frame : Nat) (d : Dev) (h_mem : Memory.wf d.mem = true) :
    Memory.wf (Dev.vsync c frame d).mem = true := by
  simp +contextual [Dev.vsync, h_mem]

@[simp] theorem Dev.lateWrites_wf (mid : Nat) (l : List (Nat × List Byte)) (d : Dev) (h_mem : Memory.wf d.mem = true) :
    Memory.wf (Dev.lateWrites mid l d).mem = true := by
  induction l generalizing d with
  | nil => exact h_mem
  | cons e l ih => obtain ⟨a, bs⟩ := e; unfold Dev.lateWrites; exact ih _ (by split <;> simp [h_mem])

@[simp] theorem Dev.lateAccess_wf (k : Nat) (r : Resp) (d : Dev) (h_mem : Memory.wf d.mem = true) :
    Memory.wf (Dev.lateAccess k r d).mem = true := by
  unfold Dev.lateAccess; dsimp only
  split <;> simp [h_mem]

@[simp] theorem Dev.nextScan_wf (e n : Nat) (d : Dev) (h_mem : Memory.wf d.mem = true) :
    Memory.wf (Dev.nextScan e n d).mem = true := by
  induction n generalizing d with
  | zero => exact h_mem
  | succ n ih =>
    unfold Dev.nextScan; dsimp only; split
    · exact h_mem
    · split
      · exact h_mem
      · split
        · simp [h_mem]
        · exact ih _ (by simp [h_mem])

@[simp] theorem Dev.engineIdle_wf (e : Nat) (d : Dev) (h_mem : Memory.wf d.mem = true) :
    Memory.wf (Dev.engineIdle e d).mem = true := by
  simp +contextual [Dev.engineIdle, h_mem]

@[simp] theorem Dev.refuseScans_wf (e : Nat) (d : Dev) (h_mem : Memory.wf d.mem = true) :
    Memory.wf (Dev.refuseScans e d).mem = true := by
  simp +contextual [Dev.refuseScans, h_mem]

@[simp] theorem Dev.beginScan_wf (q : Nat) (d : Dev) (h_mem : Memory.wf d.mem = true) :
    Memory.wf (Dev.beginScan q d).mem = true := by
  unfold Dev.beginScan; try dsimp only
  (repeat' split) <;> simp +contextual [h_mem]

@[simp] theorem Dev.endScan_wf (e : Nat) (code : Nat) (st : VState) (d : Dev) (h_mem : Memory.wf d.mem = true) :
    Memory.wf (Dev.endScan e code st d).mem = true := by
  unfold Dev.endScan; try dsimp only
  (repeat' split) <;> simp +contextual [h_mem]

@[simp] theorem Dev.scanFails_wf (e : Nat) (code : Nat) (d : Dev) (h_mem : Memory.wf d.mem = true) :
    Memory.wf (Dev.scanFails e code d).mem = true := by
  simp +contextual [Dev.scanFails, h_mem]

@[simp] theorem Dev.scanEnds_wf (e : Nat) (d : Dev) (h_mem : Memory.wf d.mem = true) :
    Memory.wf (Dev.scanEnds e d).mem = true := by
  unfold Dev.scanEnds; dsimp only
  refine Dev.engineIdle_wf _ _ ?_
  split
  · exact Dev.noticeThen_wf _ _ _ _ (fun d h => Dev.endScan_wf _ _ _ _ h) (by simp [h_mem])
  · exact Dev.endScan_wf _ _ _ _ (by simp [h_mem])

@[simp] theorem Dev.stopScan_wf (e : Nat) (d : Dev) (h_mem : Memory.wf d.mem = true) :
    Memory.wf (Dev.stopScan e d).mem = true := by
  simp +contextual [Dev.stopScan, h_mem]

@[simp] theorem Dev.drainEngine_wf (e : Nat) (d : Dev) (h_mem : Memory.wf d.mem = true) :
    Memory.wf (Dev.drainEngine e d).mem = true := by
  simp +contextual [Dev.drainEngine, h_mem]

@[simp] theorem Dev.writeEngineEn_wf (e : Nat) (b : Bool) (d : Dev) (h_mem : Memory.wf d.mem = true) :
    Memory.wf (Dev.writeEngineEn e b d).mem = true := by
  unfold Dev.writeEngineEn; try dsimp only
  (repeat' split) <;> simp +contextual [h_mem]

@[simp] theorem Dev.engineDrained_wf (e : Nat) (d : Dev) (h_mem : Memory.wf d.mem = true) :
    Memory.wf (Dev.engineDrained e d).mem = true := by
  simp +contextual [Dev.engineDrained, h_mem]

@[simp] theorem Dev.chanIdle_wf (ch : Nat) (d : Dev) (h_mem : Memory.wf d.mem = true) :
    Memory.wf (Dev.chanIdle ch d).mem = true := by
  unfold Dev.chanIdle; try dsimp only
  (repeat' split) <;> simp +contextual [h_mem]

@[simp] theorem Dev.refuseKicks_wf (ch : Nat) (d : Dev) (h_mem : Memory.wf d.mem = true) :
    Memory.wf (Dev.refuseKicks ch d).mem = true := by
  simp +contextual [Dev.refuseKicks, h_mem]

@[simp] theorem Dev.beginKick_wf (q : Nat) (d : Dev) (h_mem : Memory.wf d.mem = true) :
    Memory.wf (Dev.beginKick q d).mem = true := by
  unfold Dev.beginKick; try dsimp only
  (repeat' split) <;> simp +contextual [h_mem]

@[simp] theorem Dev.endJob_wf (ch : Nat) (st : DState) (d : Dev) (h_mem : Memory.wf d.mem = true) :
    Memory.wf (Dev.endJob ch st d).mem = true := by
  unfold Dev.endJob; try dsimp only
  (repeat' split) <;> simp +contextual [h_mem]

@[simp] theorem Dev.afterJob_wf (ch : Nat) (d : Dev) (h_mem : Memory.wf d.mem = true) :
    Memory.wf (Dev.afterJob ch d).mem = true := by
  unfold Dev.afterJob; try dsimp only
  (repeat' split) <;> simp +contextual [h_mem]

@[simp] theorem Dev.haltChan_wf (ch : Nat) (code : Nat) (a : Quad) (d : Dev) (h_mem : Memory.wf d.mem = true) :
    Memory.wf (Dev.haltChan ch code a d).mem = true := by
  simp +contextual [Dev.haltChan, h_mem]

@[simp] theorem Dev.fenceChan_wf (ch : Nat) (d : Dev) (h_mem : Memory.wf d.mem = true) :
    Memory.wf (Dev.fenceChan ch d).mem = true := by
  simp +contextual [Dev.fenceChan, h_mem]

@[simp] theorem Dev.drainChan_wf (ch : Nat) (d : Dev) (h_mem : Memory.wf d.mem = true) :
    Memory.wf (Dev.drainChan ch d).mem = true := by
  simp +contextual [Dev.drainChan, h_mem]

@[simp] theorem Dev.writeChanEn_wf (ch : Nat) (b : Bool) (d : Dev) (h_mem : Memory.wf d.mem = true) :
    Memory.wf (Dev.writeChanEn ch b d).mem = true := by
  unfold Dev.writeChanEn; try dsimp only
  (repeat' split) <;> simp +contextual [h_mem]

@[simp] theorem Dev.chanDrained_wf (ch : Nat) (d : Dev) (h_mem : Memory.wf d.mem = true) :
    Memory.wf (Dev.chanDrained ch d).mem = true := by
  simp +contextual [Dev.chanDrained, h_mem]

@[simp] theorem Dev.descBad_wf (ch : Nat) (code : Nat) (d : Dev) (h_mem : Memory.wf d.mem = true) :
    Memory.wf (Dev.descBad ch code d).mem = true := by
  simp +contextual [Dev.descBad, h_mem]

@[simp] theorem Dev.chanResponse_wf (ch : Nat) (step : DmaStep) (r : Resp) (k : DmaJob → Dev → Dev) (d : Dev)
    (h_mem : Memory.wf d.mem = true) (hk : ∀ j d, Memory.wf d.mem = true → Memory.wf (k j d).mem = true) :
    Memory.wf (Dev.chanResponse ch step r k d).mem = true := by
  unfold Dev.chanResponse; dsimp only
  (repeat' split) <;> first | exact hk _ _ h_mem | simp [h_mem]

@[simp] theorem Dev.moveBytes_wf (ch mid : Nat) (r : Resp) (d : Dev) (h_mem : Memory.wf d.mem = true) :
    Memory.wf (Dev.moveBytes ch mid r d).mem = true := by
  unfold Dev.moveBytes; dsimp only
  refine Dev.when_wf _ _ _ h_mem fun d h => ?_
  (repeat' split) <;> simp [h]

@[simp] theorem Dev.writeAll_wf (mid : Nat) (l : List (Nat × List Byte)) (d : Dev) (h_mem : Memory.wf d.mem = true) :
    Memory.wf (Dev.writeAll mid l d).1.mem = true := by
  induction l generalizing d with
  | nil => exact h_mem
  | cons e l ih =>
    obtain ⟨a, bs⟩ := e
    unfold Dev.writeAll; split
    · exact h_mem
    · exact ih _ (Dev.store_wf _ _ _ (by simp [h_mem]))
@[simp] theorem Dev.moveTile_wf (ch mid : Nat) (r : Resp) (d : Dev) (h_mem : Memory.wf d.mem = true) :
    Memory.wf (Dev.moveTile ch mid r d).mem = true := by
  unfold Dev.moveTile; dsimp only
  refine Dev.when_wf _ _ _ h_mem fun d h => ?_
  split
  · simp [h]
  · refine Dev.when_wf _ _ _ h fun d h => ?_
    split
    all_goals
      next heq =>
        have := (congrArg (fun p => Memory.wf p.1.mem) heq).symm.trans (Dev.writeAll_wf mid _ _ (by simp [h]))
        simp [this]
@[simp] theorem Dev.mrvRow_wf (r : Nat) (l : List Nat) (d : Dev) (h_mem : Memory.wf d.mem = true) :
    Memory.wf (Dev.mrvRow r l d).1.mem = true := by
  induction l generalizing d with
  | nil => exact h_mem
  | cons e l ih =>
    unfold Dev.mrvRow; dsimp only; split
    · exact h_mem
    · split
      · exact h_mem
      · exact ih _ (Dev.store_wf _ _ _ h_mem)
@[simp] theorem Dev.mrvTileRow_wf (d : Dev) (h_mem : Memory.wf d.mem = true) :
    Memory.wf (Dev.mrvTileRow d).1.mem = true := by
  unfold Dev.mrvTileRow; dsimp only; split
  · exact h_mem
  · split
    · next heq => exact (congrArg (fun p => Memory.wf p.1.mem) heq).symm.trans (Dev.writeAll_wf mrvMid _ d h_mem)
    · next heq => exact (congrArg (fun p => Memory.wf p.1.mem) heq).symm.trans (Dev.writeAll_wf mrvMid _ d h_mem)

@[simp] theorem Dev.descEnds_wf (ch : Nat) (d : Dev) (h_mem : Memory.wf d.mem = true) :
    Memory.wf (Dev.descEnds ch d).mem = true := by
  simp +contextual [Dev.descEnds, h_mem]

@[simp] theorem Dev.jobEnds_wf (ch : Nat) (d : Dev) (h_mem : Memory.wf d.mem = true) :
    Memory.wf (Dev.jobEnds ch d).mem = true := by
  unfold Dev.jobEnds; extract_lets d1 d2
  have h1 : Memory.wf d1.mem = true := by simp only [d1]; split <;> simp [h_mem]
  have h2 : Memory.wf d2.mem = true := by simp only [d2]; split <;> simp [h1]
  simp [h2]

@[simp] theorem Dev.timerTicks_wf (t : Nat) (d : Dev) (h_mem : Memory.wf d.mem = true) :
    Memory.wf (Dev.timerTicks t d).mem = true := by
  unfold Dev.timerTicks; (repeat' split) <;> simp +contextual [h_mem]

@[simp] theorem mrvRowEnds_wf (m : Dev × Option (Nat × Nat × Nat × Bool)) (h : Memory.wf m.1.mem = true) :
    Memory.wf (mrvRowEnds m).mem = true := by
  obtain ⟨d, o⟩ := m
  cases o <;> simp_all [mrvRowEnds]

@[simp] theorem Dev.mrvAnswered_wf (r : Resp) (d : Dev) (h_mem : Memory.wf d.mem = true) :
    Memory.wf (Dev.mrvAnswered r d).mem = true := by
  unfold Dev.mrvAnswered; split
  · simp [h_mem]
  · refine Dev.when_wf _ _ _ h_mem fun d h => ?_
    cases r
    · exact mrvRowEnds_wf _ (by split <;> simp [h])
    · simp [h]

@[simp] theorem Dev.completeAway_wf (r : MemReq) (d : Dev) (h_mem : Memory.wf d.mem = true) :
    Memory.wf (Dev.completeAway r d).mem = true := by
  unfold Dev.completeAway; try dsimp only
  (repeat' split) <;> simp +contextual [h_mem]

@[simp] theorem Dev.issue_wf (g : Nat) (q : BankReq) (d : Dev) (h_mem : Memory.wf d.mem = true) :
    Memory.wf (Dev.issue g q d).mem = true := by
  unfold Dev.issue; try dsimp only
  (repeat' split) <;> simp +contextual [h_mem]

@[simp] theorem Dev.issueNext_wf (g : Nat) (d : Dev) (h_mem : Memory.wf d.mem = true) :
    Memory.wf (Dev.issueNext g d).mem = true := by
  unfold Dev.issueNext; try dsimp only
  (repeat' split) <;> simp +contextual [h_mem]

@[simp] theorem Dev.burstReturns_wf (g : Nat) (f : InFlight) (rest : List InFlight) (i : BurstInput) (d : Dev) (h_mem : Memory.wf d.mem = true) :
    Memory.wf (Dev.burstReturns g f rest i d).mem = true := by
  unfold Dev.burstReturns; try dsimp only
  (repeat' split) <;> simp +contextual [h_mem]

@[simp] theorem Dev.compareRegion_wf (c frame : Nat) (lines : List (List Word)) (i : Nat) (d : Dev)
    (h_mem : Memory.wf d.mem = true) : Memory.wf (Dev.compareRegion c frame lines i d).mem = true := by
  unfold Dev.compareRegion; extract_lets
  split
  · exact h_mem
  · split
    · simp [h_mem]
    · split
      · refine Dev.notice_wf _ _ _ ?_
        simp +zetaDelta [h_mem]
      · simp +zetaDelta [h_mem]

@[simp] theorem Dev.compareRegions_wf (c : Nat) (frame : Nat) (lines : List (List Word)) (d : Dev) (h_mem : Memory.wf d.mem = true) :
    Memory.wf (Dev.compareRegions c frame lines d).mem = true := by
  simp +contextual [Dev.compareRegions, h_mem]

@[simp] theorem Dev.modeFrame_wf (c : Nat) (first : Bool) (d : Dev) (h_mem : Memory.wf d.mem = true) :
    Memory.wf (Dev.modeFrame c first d).mem = true := by
  unfold Dev.modeFrame; try dsimp only
  (repeat' split) <;> simp +contextual [h_mem]

@[simp] theorem Dev.frameShows_wf (c : Nat) (first : Bool) (d : Dev) (h_mem : Memory.wf d.mem = true) :
    Memory.wf (Dev.frameShows c first d).mem = true := by
  simp +contextual [Dev.frameShows, h_mem]

@[simp] theorem Dev.frameFollows_wf (c : Nat) (first : Bool) (d : Dev) (h_mem : Memory.wf d.mem = true) :
    Memory.wf (Dev.frameFollows c first d).mem = true := by
  simp +contextual [Dev.frameFollows, h_mem]

@[simp] theorem Dev.frameStarts_wf (c : Nat) (d : Dev) (h_mem : Memory.wf d.mem = true) :
    Memory.wf (Dev.frameStarts c d).mem = true := by
  unfold Dev.frameStarts; refine foldl_wf _ (fun d a h => ?_) _ _ ?_ <;> (try dsimp only) <;> (repeat' split) <;> simp +contextual [*]

@[simp] theorem Dev.enterRelink_wf (c : Nat) (d : Dev) (h_mem : Memory.wf d.mem = true) :
    Memory.wf (Dev.enterRelink c d).mem = true := by
  simp +contextual [Dev.enterRelink, h_mem]

@[simp] theorem Dev.videoEnds_wf (c : Nat) (d : Dev) (h_mem : Memory.wf d.mem = true) :
    Memory.wf (Dev.videoEnds c d).mem = true := by
  unfold Dev.videoEnds; extract_lets x ns d1 lines d2 d3 d4
  have h1 : Memory.wf d1.mem = true := h_mem
  clear_value d1 lines
  have h2 : Memory.wf d2.mem = true := by simp [d2, h1]
  clear_value d2
  have h3 : Memory.wf d3.mem = true := Dev.compareRegions_wf _ _ _ _ h2
  clear_value d3
  have h4 : Memory.wf d4.mem = true := by simp [d4, h3]
  clear_value d4
  split <;> simp [h4]

@[simp] theorem Dev.refuseAtLatch_wf (c : Nat) (d : Dev) (h_mem : Memory.wf d.mem = true) :
    Memory.wf (Dev.refuseAtLatch c d).mem = true := by
  unfold Dev.refuseAtLatch; dsimp only; split
  · exact h_mem
  · exact Dev.noticeThen_wf _ _ _ _ (fun e he => by simp [he]) h_mem

@[simp] theorem Dev.consumed_wf (who : CruConsumer) (mac : Nat) (d : Dev) (h_mem : Memory.wf d.mem = true) :
    Memory.wf (Dev.consumed who mac d).mem = true := by
  unfold Dev.consumed; (repeat' split) <;> simp +contextual [h_mem]

@[simp] theorem Dev.exportOne_wf (d : Dev) (h_mem : Memory.wf d.mem = true) : Memory.wf (Dev.exportOne d).mem = true := by
  simp only [Dev.exportOne, Dev.exported_frame]
  exact Dev.store_wf _ _ _ h_mem

@[simp] theorem Dev.exportAll_wf (n : Nat) (d : Dev) (h_mem : Memory.wf d.mem = true) :
    Memory.wf (Dev.exportAll n d).mem = true := by
  induction n generalizing d with
  | zero => exact h_mem
  | succ n ih =>
    unfold Dev.exportAll
    split
    · exact h_mem
    · exact ih _ (Dev.exportOne_wf _ h_mem)

@[simp] theorem Dev.faruoTick_wf (i : TickInput) (d : Dev) (h_mem : Memory.wf d.mem = true) :
    Memory.wf (Dev.faruoTick i d).mem = true := by
  unfold Dev.faruoTick; dsimp only; split
  · exact Dev.exportAll_wf _ _ (by simp [h_mem])
  · simp [h_mem]

@[simp] theorem Dev.flrQueue_wf (q : Nat) (d : Dev) (h_mem : Memory.wf d.mem = true) :
    Memory.wf (Dev.flrQueue q d).mem = true := by
  unfold Dev.flrQueue; try dsimp only
  (repeat' split) <;> simp +contextual [h_mem]

@[simp] theorem Dev.flrChan_wf (ch : Nat) (d : Dev) (h_mem : Memory.wf d.mem = true) :
    Memory.wf (Dev.flrChan ch d).mem = true := by
  unfold Dev.flrChan; (repeat' split) <;> simp +contextual [h_mem]

@[simp] theorem Dev.flrEngine_wf (e : Nat) (d : Dev) (h_mem : Memory.wf d.mem = true) :
    Memory.wf (Dev.flrEngine e d).mem = true := by
  unfold Dev.flrEngine; (repeat' split) <;> simp +contextual [h_mem]

@[simp] theorem Dev.startFlr_wf (v : Nat) (d : Dev) (h_mem : Memory.wf d.mem = true) :
    Memory.wf (Dev.startFlr v d).mem = true := by
  unfold Dev.startFlr; extract_lets d1 d2 d3 d4 d5
  have h1 : Memory.wf d1.mem = true := foldl_wf _ (fun d q h => Dev.flrQueue_wf q d h) _ _ h_mem
  have h2 : Memory.wf d2.mem = true := by simp [d2, h1]
  have h3 : Memory.wf d3.mem = true := foldl_wf _ (fun d ch h => Dev.flrChan_wf ch d h) _ _ h2
  have h4 : Memory.wf d4.mem = true := foldl_wf _ (fun d e h => Dev.flrEngine_wf e d h) _ _ h3
  have h5 : Memory.wf d5.mem = true := by simp only [d5]; split <;> simp [h4]
  simp [h5]

@[simp] theorem RegWrite.queue_wf (x : RegWrite) (d : Dev) (h_mem : Memory.wf d.mem = true) :
    Memory.wf (RegWrite.queue x d).mem = true := by
  simp +contextual [RegWrite.queue, h_mem]

@[simp] theorem RegWrite.cru_wf (x : RegWrite) (d : Dev) (h_mem : Memory.wf d.mem = true) :
    Memory.wf (RegWrite.cru x d).mem = true := by
  simp +contextual [RegWrite.cru, h_mem]

@[simp] theorem RegWrite.cnv_wf (x : RegWrite) (d : Dev) (h_mem : Memory.wf d.mem = true) :
    Memory.wf (RegWrite.cnv x d).mem = true := by
  simp +contextual [RegWrite.cnv, h_mem]

@[simp] theorem RegWrite.chan_wf (x : RegWrite) (d : Dev) (h_mem : Memory.wf d.mem = true) :
    Memory.wf (RegWrite.chan x d).mem = true := by
  simp +contextual [RegWrite.chan, h_mem]

@[simp] theorem RegWrite.cvu_wf (x : RegWrite) (d : Dev) (h_mem : Memory.wf d.mem = true) :
    Memory.wf (RegWrite.cvu x d).mem = true := by
  simp +contextual [RegWrite.cvu, h_mem]

@[simp] theorem RegWrite.effect_wf (x : RegWrite) (wasOver : Bool) (d : Dev) (h_mem : Memory.wf d.mem = true) :
    Memory.wf (RegWrite.effect x wasOver d).mem = true := by
  unfold RegWrite.effect; (repeat' split) <;> simp +contextual [h_mem]

@[simp] theorem RegWrite.perform_wf (x : RegWrite) (r : RegDesc) (d : Dev) (h_mem : Memory.wf d.mem = true) :
    Memory.wf (RegWrite.perform x r d).mem = true := by
  simp +contextual [RegWrite.perform, h_mem]

@[simp] theorem Dev.writeReg_wf (m : Nat) (t : PType) (i : Nat) (off : Nat) (woff : Nat) (aliased : Bool) (data : Word) (d : Dev) (h_mem : Memory.wf d.mem = true) :
    Memory.wf (Dev.writeReg m t i off woff aliased data d).mem = true := by
  unfold Dev.writeReg; (repeat' split) <;> simp +contextual [h_mem]

@[simp] theorem Dev.writePage_wf (m : Nat) (t : PType) (i : Nat) (woff : Nat) (w : Word) (d : Dev) (h_mem : Memory.wf d.mem = true) :
    Memory.wf (Dev.writePage m t i woff w d).mem = true := by
  unfold Dev.writePage; try dsimp only
  (repeat' split) <;> simp +contextual [h_mem]

@[simp] theorem Dev.busWrite_wf (m off : Nat) (w : Word) (d : Dev) (h_mem : Memory.wf d.mem = true) :
    Memory.wf (Dev.busWrite m off w d).mem = true := by
  unfold Dev.busWrite; split
  · simp only [Dev.deny_frame]; exact h_mem
  · split
    · exact h_mem
    · split
      · exact Dev.writePage_wf _ _ _ _ _ _ h_mem
      · split
        · simp only [Dev.writeWitness_frame]; exact h_mem
        · exact h_mem
      · extract_lets o; split
        · simp only [Dev.writeMsix_frame]; exact h_mem
        · exact h_mem
      all_goals exact h_mem

@[simp] theorem Dev.sizedWrite_wf (m : Nat) (off : Nat) (size : Nat) (data : Quad) (d : Dev) (h_mem : Memory.wf d.mem = true) :
    Memory.wf (Dev.sizedWrite m off size data d).mem = true := by
  simp +contextual [Dev.sizedWrite, h_mem]

@[simp] theorem Dev.regWrite_wf (m : Nat) (t : PType) (i : Nat) (off : Nat) (w : Word) (d : Dev) (h_mem : Memory.wf d.mem = true) :
    Memory.wf (Dev.regWrite m t i off w d).mem = true := by
  simp +contextual [Dev.regWrite, h_mem]

@[simp] theorem Dev.fieldWrite_wf (m : Nat) (t : PType) (i : Nat) (off : Nat) (clears : Word) (sets : Word) (d : Dev) (h_mem : Memory.wf d.mem = true) :
    Memory.wf (Dev.fieldWrite m t i off clears sets d).mem = true := by
  simp +contextual [Dev.fieldWrite, h_mem]

@[simp] theorem Dev.headerWrite_wf (m : Nat) (n : Nat) (off : Nat) (w : Word) (d : Dev) (h_mem : Memory.wf d.mem = true) :
    Memory.wf (Dev.headerWrite m n off w d).mem = true := by
  simp +contextual [Dev.headerWrite, h_mem]

@[simp] theorem Dev.arrival_wf (q op : Nat) (k : Dev → Dev) (d : Dev) (h : Memory.wf d.mem = true)
    (hk : ∀ d, Memory.wf d.mem = true → Memory.wf (k d).mem = true) : Memory.wf (Dev.arrival q op k d).mem = true := by
  unfold Dev.arrival
  exact Dev.when_wf _ _ _ h fun d hd => by simp [hk d hd]

end Sys2Proof.Machine
end

