-- ==== Sys2Proof/Laws/Queues.lean ====
section
/-!
SUPPORT. What the shared operations of queues leave of a queue: fetching and its settling, turns, consumption, completion and
the head; and what the writes of a function's master leave of memory.
-/
set_option linter.all false
namespace Sys2Proof.Machine

/-- A queue is what the table of queues says. -/
theorem Dev.queue_congr {a b : Dev} (h : a.queues = b.queues) (q : Nat) : a.queue q = b.queue q := by
  unfold Dev.queue; rw [h]

/-! ### Fetching -/

/-- `startRead` issues a read and changes nothing else of its queue. -/
theorem Dev.startRead_queue (q : Nat) (d : Dev) : ∃ r, (d.startRead q).queue q = { d.queue q with reading := r } := by
  unfold Dev.startRead
  dsimp only
  split
  · exact ⟨_, Dev.queue_setQueue ..⟩
  · exact ⟨_, rfl⟩

theorem Dev.startRead_ne {q p : Nat} (h : p ≠ q) (d : Dev) : (d.startRead q).queue p = d.queue p := by
  unfold Dev.startRead
  dsimp only
  split
  · exact Dev.queue_setQueue_ne _ _ h
  · rfl

/-- A snapshot changes the owned limit, the reading and the recorded doorbell of its queue and nothing else of it. -/
theorem Dev.snapshot_queue (q : Nat) (d : Dev) :
    ∃ r l b, (d.snapshot q).queue q = { d.queue q with reading := r, limit := l, dbPend := b } := by
  unfold Dev.snapshot
  dsimp only
  split
  · exact ⟨(d.queue q).reading, (d.queue q).limit, false, by rw [Dev.fire_queue, Dev.queue_setQueue]⟩
  · obtain ⟨r, h⟩ := Dev.startRead_queue q (d.setQueue q { d.queue q with limit := d.pidx q, dbPend := false })
    refine ⟨r, d.pidx q, false, ?_⟩
    rw [h, Dev.queue_setQueue]

theorem Dev.snapshot_ne {q p : Nat} (h : p ≠ q) (d : Dev) : (d.snapshot q).queue p = d.queue p := by
  unfold Dev.snapshot
  dsimp only
  split
  · rw [Dev.fire_queue, Dev.queue_setQueue_ne _ _ h]
  · rw [Dev.startRead_ne h, Dev.queue_setQueue_ne _ _ h]

/-- A halt changes the state and what concerns fetching. -/
theorem Dev.haltQueue_queue (q : Nat) (a : Quad) (c : Nat) (d : Dev) : (d.haltQueue q a c).queue q =
    { d.queue q with state := .halted, reading := none, fail := none, buf := [], dbPend := false } := by
  unfold Dev.haltQueue
  dsimp only
  rw [Dev.fire_queue, Dev.queue_setQueue]

theorem Dev.haltQueue_ne {q p : Nat} (h : p ≠ q) (a : Quad) (c : Nat) (d : Dev) : (d.haltQueue q a c).queue p = d.queue p := by
  unfold Dev.haltQueue
  dsimp only
  rw [Dev.fire_queue, Dev.queue_setQueue_ne _ _ h]

/-- Settling changes what concerns fetching, and the state where the queue halts: nothing else of its queue. -/
theorem Dev.settle_queue (q : Nat) (d : Dev) :
    ∃ st r f b l p, (d.settle q).queue q =
      { d.queue q with state := st, reading := r, fail := f, buf := b, limit := l, dbPend := p } := by
  unfold Dev.settle
  dsimp only
  split
  · exact ⟨_, _, _, _, _, _, rfl⟩
  · split
    · exact ⟨_, _, _, _, (d.queue q).limit, _, Dev.haltQueue_queue ..⟩
    · split
      · exact ⟨_, _, _, _, (d.queue q).limit, _, Dev.haltQueue_queue ..⟩
      · obtain ⟨r, h⟩ := Dev.startRead_queue q d
        split
        · obtain ⟨r', l, p, h'⟩ := Dev.snapshot_queue q (d.startRead q)
          exact ⟨(d.queue q).state, r', (d.queue q).fail, (d.queue q).buf, l, p, by rw [h', h]⟩
        · exact ⟨(d.queue q).state, r, (d.queue q).fail, (d.queue q).buf, (d.queue q).limit, (d.queue q).dbPend, h⟩

theorem Dev.settle_ne {q p : Nat} (h : p ≠ q) (d : Dev) : (d.settle q).queue p = d.queue p := by
  unfold Dev.settle
  dsimp only
  split
  · rfl
  · split
    · exact Dev.haltQueue_ne h _ _ _
    · split
      · exact Dev.haltQueue_ne h _ _ _
      · split
        · rw [Dev.snapshot_ne h, Dev.startRead_ne h]
        · exact Dev.startRead_ne h d

/-! ### Turns and consumption -/

/-- A turn changes the credit of its queue and nothing else of it. -/
theorem Dev.takeTurn_queue (q : Nat) (d : Dev) :
    ∃ t c, (d.takeTurn q).queue q = { d.queue q with hadTurn := t, credit := c } := by
  unfold Dev.takeTurn Dev.beginTurn
  dsimp only
  split
  · split
    · exact ⟨_, _, rfl⟩
    · exact ⟨_, _, Dev.queue_setQueue ..⟩
  all_goals exact ⟨_, _, Dev.queue_setQueue ..⟩

theorem Dev.takeTurn_ne {q p : Nat} (h : p ≠ q) (d : Dev) : (d.takeTurn q).queue p = d.queue p := by
  unfold Dev.takeTurn Dev.beginTurn
  dsimp only
  split
  · split
    · rfl
    · exact Dev.queue_setQueue_ne _ _ h
  all_goals exact Dev.queue_setQueue_ne _ _ h

/-- The end of a turn changes no queue. -/
@[simp] theorem Dev.closeTurn_queue (q p : Nat) (d : Dev) : (d.closeTurn q).queue p = d.queue p := by
  unfold Dev.closeTurn; split <;> rfl

/-- Consumption takes the entry at the front out of the buffer and adds it to the entries. -/
theorem Dev.consume_queue (q grp : Nat) (st dn : Bool) (d : Dev) :
    ∃ t c, (d.consume q grp st dn).queue q = { d.queue q with
      hadTurn := t, credit := c, buf := (d.queue q).buf.drop (4 * (d.queue q).frontLen)
      cidx := ((d.queue q).cidx + (d.queue q).frontLen) % d.qmod q
      entries := (d.queue q).entries ++ [{ grp := grp, slots := (d.queue q).frontLen, started := st, done := dn }]
      arrived := d.time } := by
  obtain ⟨t, c, h⟩ := Dev.takeTurn_queue q d
  refine ⟨t, c, ?_⟩
  have hm : (d.takeTurn q).qmod q = d.qmod q := by
    unfold Dev.qmod Dev.qlog Dev.fld Dev.reg Dev.effAt
    rw [show (d.takeTurn q).regs = d.regs by simp]
  have ht : (d.takeTurn q).time = d.time := by unfold Dev.time; rw [show (d.takeTurn q).tb = d.tb by simp]
  unfold Dev.consume
  dsimp only
  rw [Dev.queue_setQueue, h, hm, ht]
  rfl

theorem Dev.consume_ne {q p : Nat} (h : p ≠ q) (grp : Nat) (st dn : Bool) (d : Dev) :
    (d.consume q grp st dn).queue p = d.queue p := by
  unfold Dev.consume
  dsimp only
  rw [Dev.queue_setQueue_ne _ _ h, Dev.takeTurn_ne h]

@[simp] theorem Dev.useGrp_queue (q : Nat) (d : Dev) : d.useGrp.queue q = d.queue q := rfl

/-! ### The head -/

@[simp] theorem Dev.headWriteback_queue (q p : Nat) (d : Dev) : (d.headWriteback q).queue p = d.queue p :=
  Dev.queue_congr (by simp) p

/-- Messages change no queue. -/
@[simp] theorem Dev.sendAll_queue (l : List (Nat × Nat)) (p : Nat) (d : Dev) :
    (l.foldl (fun d e => d.msix e.1 e.2) d).queue p = d.queue p := Dev.queue_congr (by simp) p

/-- The head passes the complete entries at the front. -/
theorem Dev.advanceHead_queue (q : Nat) (d : Dev) :
    (d.advanceHead q).queue q = { d.queue q with
      entries := (dropDone (d.queue q).entries).1
      head := if (dropDone (d.queue q).entries).2 = 0 then (d.queue q).head
        else ((d.queue q).head + (dropDone (d.queue q).entries).2) % d.qmod q } ∨
    (d.advanceHead q).queue q = d.queue q := by
  unfold Dev.advanceHead
  dsimp only
  split
  · next h => right; rfl
  · next h =>
    left
    rw [Dev.sendAll_queue, Dev.headWriteback_queue, Dev.queue_setQueue]

/-- The advance of the head changes the entries and the head of its queue and nothing else of it. -/
theorem Dev.advanceHead_frame' (q : Nat) (d : Dev) :
    ∃ es hd, (d.advanceHead q).queue q = { d.queue q with entries := es, head := hd } := by
  rcases Dev.advanceHead_queue q d with h | h
  · exact ⟨_, _, h⟩
  · exact ⟨(d.queue q).entries, (d.queue q).head, h⟩

theorem Dev.advanceHead_ne {q p : Nat} (h : p ≠ q) (d : Dev) : (d.advanceHead q).queue p = d.queue p := by
  unfold Dev.advanceHead
  dsimp only
  split
  · rfl
  · rw [Dev.sendAll_queue, Dev.headWriteback_queue, Dev.queue_setQueue_ne _ _ h]

theorem Dev.completeGrp_queue (q g : Nat) (d : Dev) :
    ∃ es hd, (d.completeGrp q g).queue q = { d.queue q with entries := es, head := hd } := by
  unfold Dev.completeGrp
  dsimp only
  obtain ⟨es, hd, h⟩ := Dev.advanceHead_frame' q (d.setQueue q { d.queue q with
    entries := (d.queue q).entries.map fun e => if e.grp = g then { e with done := true } else e })
  refine ⟨es, hd, ?_⟩
  rw [h, Dev.queue_setQueue]

theorem Dev.completeGrp_ne {q p : Nat} (h : p ≠ q) (g : Nat) (d : Dev) : (d.completeGrp q g).queue p = d.queue p := by
  unfold Dev.completeGrp
  dsimp only
  rw [Dev.advanceHead_ne h, Dev.queue_setQueue_ne _ _ h]

/-! ### Notices -/

@[simp] theorem Dev.post_queue (f : Nat) (n : Notice) (q : Nat) (d : Dev) : (d.post f n).queue q = d.queue q :=
  Dev.queue_congr (by simp) q
@[simp] theorem Dev.noticeIrq_queue (f q : Nat) (d : Dev) : (d.noticeIrq f).queue q = d.queue q :=
  Dev.queue_congr (by simp) q

/-- A notice leaves queues to what follows it. -/
theorem Dev.noticeThen_queue (f : Nat) (n : Notice) (k : Dev → Dev) (q : Nat) (d : Dev) :
    (d.noticeThen f n k).queue q = (k (d.post f n)).queue q := by
  unfold Dev.noticeThen
  dsimp only
  split
  · simp
  · rfl

/-! ### Memory -/

theorem Dev.memSameBut_refl (d : Dev) (a n : Nat) : d.memSameBut d a n := fun _ _ => rfl

theorem Dev.memSameBut_of_mem {x y : Dev} (h : y.mem = x.mem) (a n : Nat) : x.memSameBut y a n := by
  intro k _; unfold Dev.memByte; rw [h]

theorem Dev.memSameBut_trans {x y z : Dev} {a n : Nat} (h : x.memSameBut y a n) (h' : y.memSameBut z a n) :
    x.memSameBut z a n := fun k hk => (h' k hk).trans (h k hk)

/-- Bytes written from an address on leave every other byte. -/
theorem Dev.setBytes_memSameBut (bs : List Byte) : ∀ (a : Nat) (d : Dev), d.memSameBut (d.setBytes a bs) a bs.length := by
  induction bs with
  | nil => intro a d; exact Dev.memSameBut_refl d a 0
  | cons b bs ih =>
    intro a d k hk
    simp only [List.length_cons] at hk
    unfold Dev.setBytes
    rw [ih (a + 1) (d.setByte a b) k (by omega)]
    unfold Dev.memByte Dev.setByte
    exact FMap.get_put_ne _ _ _ (by omega)

/-- Bytes written are the bytes read there. -/
theorem Dev.setBytes_memByte (bs : List Byte) : ∀ (a : Nat) (d : Dev) (k : Nat), k < bs.length →
    (d.setBytes a bs).memByte (a + k) = bs.getD k 0 := by
  induction bs with
  | nil => intro a d k hk; simp at hk
  | cons b bs ih =>
    intro a d k hk
    unfold Dev.setBytes
    cases k with
    | zero =>
      rw [Dev.setBytes_memSameBut bs (a + 1) (d.setByte a b) (a + 0) (by omega)]
      unfold Dev.memByte Dev.setByte
      simp
    | succ k =>
      rw [show a + (k + 1) = a + 1 + k by omega, ih (a + 1) _ k (by simpa using hk)]
      simp

theorem Dev.store_memSameBut (a : Nat) (bs : List Byte) (d : Dev) : d.memSameBut (d.store a bs) a bs.length := by
  have h := Dev.setBytes_memSameBut bs a d
  intro k hk
  rw [← h k hk]
  unfold Dev.store Dev.memByte
  dsimp only
  split <;> rfl

theorem wordsBytes_length (ws : List Word) : (wordsBytes ws).length = 4 * ws.length := by
  unfold wordsBytes
  induction ws with
  | nil => rfl
  | cons w ws ih =>
    rw [List.flatMap_cons, List.length_append, ih]
    have : (leBytes 4 w.toNat).length = 4 := rfl
    simp only [List.length_cons]; omega

/-- A master's write leaves every byte outside its words. -/
theorem Dev.masterWrite_memSameBut (mid a : Nat) (ws : List Word) (d : Dev) :
    d.memSameBut (d.masterWrite mid a ws) a (4 * ws.length) := by
  unfold Dev.masterWrite
  split
  · have h := Dev.store_memSameBut a (wordsBytes ws) (d.noteRead mid true a (4 * ws.length))
    rw [wordsBytes_length] at h
    exact Dev.memSameBut_trans (Dev.memSameBut_of_mem (by simp) _ _) h
  · exact Dev.memSameBut_of_mem rfl _ _
  · exact Dev.memSameBut_of_mem (by simp) _ _

end Sys2Proof.Machine
end

