-- ==== Sys2Proof/Laws/Writes.lean ====
section
/-!
SUPPORT. How a write of BAR0 reaches a register: the page of an offset, and the write of a page's register without the
decoding of its address.
-/
set_option linter.all false
namespace Sys2Proof.Machine

/-- The page of instance `i` of a type is that instance's page. -/
theorem pageOf_page (t : PType) (i : Nat) (h : i < t.count) : pageOf (t.page + i) = some (t, i) := by
  have k : ∀ t : PType, ∀ i : Fin t.count, pageOf (t.page + i) = some (t, i.val) := by
    intro t
    cases t <;> decide +kernel
  exact k t ⟨i, h⟩

/-- The page number of a register's offset. -/
theorem regAt_page (t : PType) (i off : Nat) (h : off < 0x4000) : regAt t i off / 0x4000 = t.page + i := by
  unfold regAt; omega

/-- The page offset of a register's offset. -/
theorem regAt_off (t : PType) (i off : Nat) (h : off < 0x4000) : regAt t i off % 0x4000 = off := by
  unfold regAt; omega

/-- Distinct registers have distinct offsets. -/
theorem regAt_inj {t : PType} {i j a b : Nat} (ha : a < 0x4000) (hb : b < 0x4000) (h : regAt t i a = regAt t j b) :
    i = j ∧ a = b := by
  unfold regAt at h; omega

/-- The area of a register's page. -/
theorem areaOf_page (t : PType) (i : Nat) (h : i < t.count) : areaOf (t.page + i) = .page t i := by
  simp [areaOf, pageOf_page t i h]

/-- A register write that reaches its register is the write of the register. -/
theorem Dev.regWrite_eq {d : Dev} {m : Nat} {t : PType} {i off : Nat} {w : Word} (hi : i < t.count) (ho : off < 0x1000)
    (h : d.mayWriteReg m t i off) : d.regWrite m t i off w = d.writeReg m t i off off false w := by
  obtain ⟨h₁, h₂⟩ := h
  have p := regAt_page t i off (by omega)
  have q := regAt_off t i off (by omega)
  have a := areaOf_page t i hi
  have den : d.writeDenied m (regAt t i off) = false := by
    unfold Dev.writeDenied
    rw [p, a, h₂]
    simp
  unfold Dev.regWrite Dev.busWrite
  rw [if_neg (by simp [den]), if_neg (by simpa using h₁), p, a, q]
  unfold Dev.writePage
  rw [show off / 0x1000 = 0 by omega, Nat.mod_eq_of_lt ho]
  simp

/-- What a register write can be: a denial, nothing, or the write of the register. -/
theorem Dev.regWrite_cases (d : Dev) (m : Nat) (t : PType) (i off : Nat) (w : Word) (hi : i < t.count)
    (ho : off < 0x1000) :
    d.regWrite m t i off w = d.deny m 3 true (regAt t i off) ∨ d.regWrite m t i off w = d ∨
      d.regWrite m t i off w = d.writeReg m t i off off false w := by
  have p := regAt_page t i off (by omega)
  have q := regAt_off t i off (by omega)
  have a := areaOf_page t i hi
  unfold Dev.regWrite Dev.busWrite
  split
  · exact .inl rfl
  · split
    · exact .inr (.inl rfl)
    · refine .inr (.inr ?_)
      rw [p, a, q]
      unfold Dev.writePage
      rw [show off / 0x1000 = 0 by omega, Nat.mod_eq_of_lt ho]
      simp

/-! ### What a write leaves alone -/

theorem Dev.busWrite_cases (m off : Nat) (w : Word) (d : Dev) :
    d.busWrite m off w = d.deny m 3 true off ∨ d.busWrite m off w = d ∨
    (∃ t i, pageOf (off / 0x4000) = some (t, i) ∧ d.busWrite m off w = d.writePage m t i (off % 0x4000) w) ∨
    (areaOf (off / 0x4000) = .witness ∧ d.busWrite m off w = d.writeWitness ((off - 0x1500000) / 64) (off % 64 / 4) w) ∨
    (areaOf (off / 0x4000) = .msix ∧ ∃ a b, d.busWrite m off w = d.writeMsix m a b w) := by
  unfold Dev.busWrite
  split
  · exact .inl rfl
  · split
    · exact .inr (.inl rfl)
    · split
      · next t i h =>
        refine .inr (.inr (.inl ⟨t, i, ?_, rfl⟩))
        unfold areaOf at h
        split at h
        · injection h with h1 h2; subst h1 h2; assumption
        · (repeat' split at h) <;> cases h
      · next h =>
        split
        · exact .inr (.inr (.inr (.inl ⟨h, rfl⟩)))
        · exact .inr (.inl rfl)
      · next h =>
        extract_lets o
        split
        · exact .inr (.inr (.inr (.inr ⟨h, _, _, rfl⟩)))
        · exact .inr (.inl rfl)
      all_goals exact .inr (.inl rfl)

theorem regMap_sub (t : PType) (i : Nat) (r : RegDesc) (h : r ∈ regMap t i) : r ∈ regMap t 0 := by
  cases t <;> simp only [regMap, if_true] at h ⊢ <;> try exact h
  all_goals
    split at h
    · exact h
    · exact List.mem_of_mem_filter h

/-- A register is not staged where no register of its type at that offset is. -/
theorem anyDesc_unstaged {t : PType} {off : Nat} (i : Nat) (h : ∀ r ∈ regMap t 0, r.off = off → r.staged = false) :
    ∀ r, anyDesc t i off = some r → r.staged = false := by
  intro r hr
  unfold anyDesc at hr
  split at hr
  · unfold headerDesc at hr
    split at hr <;> first | (injection hr with hr; subst hr; rfl) | simp at hr
  · unfold regDesc at hr
    split at hr
    · simp only [Option.map_eq_some_iff] at hr
      obtain ⟨a, ha, rfl⟩ := hr
      have k : ∀ a ∈ noticeMap, a.staged = false := by decide
      exact k a (List.mem_of_find?_eq_some ha)
    · have h₁ := List.find?_some hr
      exact h r (regMap_sub t i r (List.mem_of_find?_eq_some hr)) (by simpa using h₁)

theorem Dev.writeReg_now (m : Nat) (t : PType) (i off woff : Nat) (al : Bool) (w : Word) (d : Dev) (ho : 0x40 ≤ off)
    (hs : ∀ r, anyDesc t i off = some r → r.staged = false)
    (h : ∀ x : RegWrite, x.t = t → x.i = i → x.off = off → ∀ v d, (x.effect v d).now = d.now) :
    (d.writeReg m t i off woff al w).now = d.now := by
  unfold Dev.writeReg
  split
  · rfl
  · next r hr =>
    extract_lets n armed ok bad mask old new d₁ d₂
    have e₁ : d₁.now = d.now := by simp only [d₁]; split <;> simp
    have e₂ : d₂.now = d.now := by simp only [d₂]; split <;> simp [e₁]
    split
    · exact e₂
    · unfold RegWrite.perform RegWrite.store
      dsimp only
      rw [if_neg (by omega), hs r hr]
      simp only [Bool.false_eq_true, if_false]
      split
      · rw [h _ rfl rfl rfl]; exact e₂
      · rw [h _ rfl rfl rfl]; simp [e₂]

theorem Dev.regWrite_now (m : Nat) (t : PType) (i off : Nat) (w : Word) (d : Dev) (hi : i < t.count) (ho : 0x40 ≤ off)
    (ho' : off < 0x1000) (hs : ∀ r, anyDesc t i off = some r → r.staged = false)
    (h : ∀ x : RegWrite, x.t = t → x.i = i → x.off = off → ∀ v d, (x.effect v d).now = d.now) :
    (d.regWrite m t i off w).now = d.now := by
  rcases d.regWrite_cases m t i off w hi ho' with e | e | e <;> rw [e]
  · simp
  · exact d.writeReg_now m t i off off false w ho hs h

theorem Dev.writeReg_luts (m : Nat) (t : PType) (i off woff : Nat) (al : Bool) (w : Word) (d : Dev) (ho : 0x40 ≤ off)
    (hs : ∀ r, anyDesc t i off = some r → r.staged = false)
    (h : ∀ x : RegWrite, x.t = t → x.i = i → x.off = off → ∀ v d, (x.effect v d).luts = d.luts) :
    (d.writeReg m t i off woff al w).luts = d.luts := by
  unfold Dev.writeReg
  split
  · rfl
  · next r hr =>
    extract_lets n armed ok bad mask old new d₁ d₂
    have e₁ : d₁.luts = d.luts := by simp only [d₁]; split <;> simp
    have e₂ : d₂.luts = d.luts := by simp only [d₂]; split <;> simp [e₁]
    split
    · exact e₂
    · unfold RegWrite.perform RegWrite.store
      dsimp only
      rw [if_neg (by omega), hs r hr]
      simp only [Bool.false_eq_true, if_false]
      split
      · rw [h _ rfl rfl rfl]; exact e₂
      · rw [h _ rfl rfl rfl]; simp [e₂]

theorem Dev.regWrite_luts (m : Nat) (t : PType) (i off : Nat) (w : Word) (d : Dev) (hi : i < t.count) (ho : 0x40 ≤ off)
    (ho' : off < 0x1000) (hs : ∀ r, anyDesc t i off = some r → r.staged = false)
    (h : ∀ x : RegWrite, x.t = t → x.i = i → x.off = off → ∀ v d, (x.effect v d).luts = d.luts) :
    (d.regWrite m t i off w).luts = d.luts := by
  rcases d.regWrite_cases m t i off w hi ho' with e | e | e <;> rw [e]
  · simp
  · exact d.writeReg_luts m t i off off false w ho hs h

theorem Dev.writeReg_mem (m : Nat) (t : PType) (i off woff : Nat) (al : Bool) (w : Word) (d : Dev) (ho : 0x40 ≤ off)
    (hs : ∀ r, anyDesc t i off = some r → r.staged = false)
    (h : ∀ x : RegWrite, x.t = t → x.i = i → x.off = off → ∀ v d, (x.effect v d).mem = d.mem) :
    (d.writeReg m t i off woff al w).mem = d.mem := by
  unfold Dev.writeReg
  split
  · rfl
  · next r hr =>
    extract_lets n armed ok bad mask old new d₁ d₂
    have e₁ : d₁.mem = d.mem := by simp only [d₁]; split <;> simp
    have e₂ : d₂.mem = d.mem := by simp only [d₂]; split <;> simp [e₁]
    split
    · exact e₂
    · unfold RegWrite.perform RegWrite.store
      dsimp only
      rw [if_neg (by omega), hs r hr]
      simp only [Bool.false_eq_true, if_false]
      split
      · rw [h _ rfl rfl rfl]; exact e₂
      · rw [h _ rfl rfl rfl]; simp [e₂]

theorem Dev.regWrite_mem (m : Nat) (t : PType) (i off : Nat) (w : Word) (d : Dev) (hi : i < t.count) (ho : 0x40 ≤ off)
    (ho' : off < 0x1000) (hs : ∀ r, anyDesc t i off = some r → r.staged = false)
    (h : ∀ x : RegWrite, x.t = t → x.i = i → x.off = off → ∀ v d, (x.effect v d).mem = d.mem) :
    (d.regWrite m t i off w).mem = d.mem := by
  rcases d.regWrite_cases m t i off w hi ho' with e | e | e <;> rw [e]
  · simp
  · exact d.writeReg_mem m t i off off false w ho hs h

theorem Dev.writeReg_scene (m : Nat) (t : PType) (i off woff : Nat) (al : Bool) (w : Word) (d : Dev) (ho : 0x40 ≤ off)
    (hs : ∀ r, anyDesc t i off = some r → r.staged = false)
    (h : ∀ x : RegWrite, x.t = t → x.i = i → x.off = off → ∀ v d, (x.effect v d).scene = d.scene) :
    (d.writeReg m t i off woff al w).scene = d.scene := by
  unfold Dev.writeReg
  split
  · rfl
  · next r hr =>
    extract_lets n armed ok bad mask old new d₁ d₂
    have e₁ : d₁.scene = d.scene := by simp only [d₁]; split <;> simp
    have e₂ : d₂.scene = d.scene := by simp only [d₂]; split <;> simp [e₁]
    split
    · exact e₂
    · unfold RegWrite.perform RegWrite.store
      dsimp only
      rw [if_neg (by omega), hs r hr]
      simp only [Bool.false_eq_true, if_false]
      split
      · rw [h _ rfl rfl rfl]; exact e₂
      · rw [h _ rfl rfl rfl]; simp [e₂]

theorem Dev.regWrite_scene (m : Nat) (t : PType) (i off : Nat) (w : Word) (d : Dev) (hi : i < t.count) (ho : 0x40 ≤ off)
    (ho' : off < 0x1000) (hs : ∀ r, anyDesc t i off = some r → r.staged = false)
    (h : ∀ x : RegWrite, x.t = t → x.i = i → x.off = off → ∀ v d, (x.effect v d).scene = d.scene) :
    (d.regWrite m t i off w).scene = d.scene := by
  rcases d.regWrite_cases m t i off w hi ho' with e | e | e <;> rw [e]
  · simp
  · exact d.writeReg_scene m t i off off false w ho hs h

theorem Dev.writeReg_ledger (m : Nat) (t : PType) (i off woff : Nat) (al : Bool) (w : Word) (d : Dev) (ho : 0x40 ≤ off)
    (hs : ∀ r, anyDesc t i off = some r → r.staged = false)
    (h : ∀ x : RegWrite, x.t = t → x.i = i → x.off = off → ∀ v d, (x.effect v d).ledger = d.ledger) :
    (d.writeReg m t i off woff al w).ledger = d.ledger := by
  unfold Dev.writeReg
  split
  · rfl
  · next r hr =>
    extract_lets n armed ok bad mask old new d₁ d₂
    have e₁ : d₁.ledger = d.ledger := by simp only [d₁]; split <;> simp
    have e₂ : d₂.ledger = d.ledger := by simp only [d₂]; split <;> simp [e₁]
    split
    · exact e₂
    · unfold RegWrite.perform RegWrite.store
      dsimp only
      rw [if_neg (by omega), hs r hr]
      simp only [Bool.false_eq_true, if_false]
      split
      · rw [h _ rfl rfl rfl]; exact e₂
      · rw [h _ rfl rfl rfl]; simp [e₂]

theorem Dev.regWrite_ledger (m : Nat) (t : PType) (i off : Nat) (w : Word) (d : Dev) (hi : i < t.count) (ho : 0x40 ≤ off)
    (ho' : off < 0x1000) (hs : ∀ r, anyDesc t i off = some r → r.staged = false)
    (h : ∀ x : RegWrite, x.t = t → x.i = i → x.off = off → ∀ v d, (x.effect v d).ledger = d.ledger) :
    (d.regWrite m t i off w).ledger = d.ledger := by
  rcases d.regWrite_cases m t i off w hi ho' with e | e | e <;> rw [e]
  · simp
  · exact d.writeReg_ledger m t i off off false w ho hs h

theorem Dev.writeReg_queues (m : Nat) (t : PType) (i off woff : Nat) (al : Bool) (w : Word) (d : Dev) (ho : 0x40 ≤ off)
    (hs : ∀ r, anyDesc t i off = some r → r.staged = false)
    (h : ∀ x : RegWrite, x.t = t → x.i = i → x.off = off → ∀ v d, (x.effect v d).queues = d.queues) :
    (d.writeReg m t i off woff al w).queues = d.queues := by
  unfold Dev.writeReg
  split
  · rfl
  · next r hr =>
    extract_lets n armed ok bad mask old new d₁ d₂
    have e₁ : d₁.queues = d.queues := by simp only [d₁]; split <;> simp
    have e₂ : d₂.queues = d.queues := by simp only [d₂]; split <;> simp [e₁]
    split
    · exact e₂
    · unfold RegWrite.perform RegWrite.store
      dsimp only
      rw [if_neg (by omega), hs r hr]
      simp only [Bool.false_eq_true, if_false]
      split
      · rw [h _ rfl rfl rfl]; exact e₂
      · rw [h _ rfl rfl rfl]; simp [e₂]

theorem Dev.regWrite_queues (m : Nat) (t : PType) (i off : Nat) (w : Word) (d : Dev) (hi : i < t.count) (ho : 0x40 ≤ off)
    (ho' : off < 0x1000) (hs : ∀ r, anyDesc t i off = some r → r.staged = false)
    (h : ∀ x : RegWrite, x.t = t → x.i = i → x.off = off → ∀ v d, (x.effect v d).queues = d.queues) :
    (d.regWrite m t i off w).queues = d.queues := by
  rcases d.regWrite_cases m t i off w hi ho' with e | e | e <;> rw [e]
  · simp
  · exact d.writeReg_queues m t i off off false w ho hs h

theorem Dev.writeReg_turn (m : Nat) (t : PType) (i off woff : Nat) (al : Bool) (w : Word) (d : Dev) (ho : 0x40 ≤ off)
    (hs : ∀ r, anyDesc t i off = some r → r.staged = false)
    (h : ∀ x : RegWrite, x.t = t → x.i = i → x.off = off → ∀ v d, (x.effect v d).turn = d.turn) :
    (d.writeReg m t i off woff al w).turn = d.turn := by
  unfold Dev.writeReg
  split
  · rfl
  · next r hr =>
    extract_lets n armed ok bad mask old new d₁ d₂
    have e₁ : d₁.turn = d.turn := by simp only [d₁]; split <;> simp
    have e₂ : d₂.turn = d.turn := by simp only [d₂]; split <;> simp [e₁]
    split
    · exact e₂
    · unfold RegWrite.perform RegWrite.store
      dsimp only
      rw [if_neg (by omega), hs r hr]
      simp only [Bool.false_eq_true, if_false]
      split
      · rw [h _ rfl rfl rfl]; exact e₂
      · rw [h _ rfl rfl rfl]; simp [e₂]

theorem Dev.regWrite_turn (m : Nat) (t : PType) (i off : Nat) (w : Word) (d : Dev) (hi : i < t.count) (ho : 0x40 ≤ off)
    (ho' : off < 0x1000) (hs : ∀ r, anyDesc t i off = some r → r.staged = false)
    (h : ∀ x : RegWrite, x.t = t → x.i = i → x.off = off → ∀ v d, (x.effect v d).turn = d.turn) :
    (d.regWrite m t i off w).turn = d.turn := by
  rcases d.regWrite_cases m t i off w hi ho' with e | e | e <;> rw [e]
  · simp
  · exact d.writeReg_turn m t i off off false w ho hs h

theorem Dev.writeReg_lastTurn (m : Nat) (t : PType) (i off woff : Nat) (al : Bool) (w : Word) (d : Dev) (ho : 0x40 ≤ off)
    (hs : ∀ r, anyDesc t i off = some r → r.staged = false)
    (h : ∀ x : RegWrite, x.t = t → x.i = i → x.off = off → ∀ v d, (x.effect v d).lastTurn = d.lastTurn) :
    (d.writeReg m t i off woff al w).lastTurn = d.lastTurn := by
  unfold Dev.writeReg
  split
  · rfl
  · next r hr =>
    extract_lets n armed ok bad mask old new d₁ d₂
    have e₁ : d₁.lastTurn = d.lastTurn := by simp only [d₁]; split <;> simp
    have e₂ : d₂.lastTurn = d.lastTurn := by simp only [d₂]; split <;> simp [e₁]
    split
    · exact e₂
    · unfold RegWrite.perform RegWrite.store
      dsimp only
      rw [if_neg (by omega), hs r hr]
      simp only [Bool.false_eq_true, if_false]
      split
      · rw [h _ rfl rfl rfl]; exact e₂
      · rw [h _ rfl rfl rfl]; simp [e₂]

theorem Dev.regWrite_lastTurn (m : Nat) (t : PType) (i off : Nat) (w : Word) (d : Dev) (hi : i < t.count) (ho : 0x40 ≤ off)
    (ho' : off < 0x1000) (hs : ∀ r, anyDesc t i off = some r → r.staged = false)
    (h : ∀ x : RegWrite, x.t = t → x.i = i → x.off = off → ∀ v d, (x.effect v d).lastTurn = d.lastTurn) :
    (d.regWrite m t i off w).lastTurn = d.lastTurn := by
  rcases d.regWrite_cases m t i off w hi ho' with e | e | e <;> rw [e]
  · simp
  · exact d.writeReg_lastTurn m t i off off false w ho hs h

theorem Dev.writeReg_rings (m : Nat) (t : PType) (i off woff : Nat) (al : Bool) (w : Word) (d : Dev) (ho : 0x40 ≤ off)
    (hs : ∀ r, anyDesc t i off = some r → r.staged = false)
    (h : ∀ x : RegWrite, x.t = t → x.i = i → x.off = off → ∀ v d, (x.effect v d).rings = d.rings) :
    (d.writeReg m t i off woff al w).rings = d.rings := by
  unfold Dev.writeReg
  split
  · rfl
  · next r hr =>
    extract_lets n armed ok bad mask old new d₁ d₂
    have e₁ : d₁.rings = d.rings := by simp only [d₁]; split <;> simp
    have e₂ : d₂.rings = d.rings := by simp only [d₂]; split <;> simp [e₁]
    split
    · exact e₂
    · unfold RegWrite.perform RegWrite.store
      dsimp only
      rw [if_neg (by omega), hs r hr]
      simp only [Bool.false_eq_true, if_false]
      split
      · rw [h _ rfl rfl rfl]; exact e₂
      · rw [h _ rfl rfl rfl]; simp [e₂]

theorem Dev.regWrite_rings (m : Nat) (t : PType) (i off : Nat) (w : Word) (d : Dev) (hi : i < t.count) (ho : 0x40 ≤ off)
    (ho' : off < 0x1000) (hs : ∀ r, anyDesc t i off = some r → r.staged = false)
    (h : ∀ x : RegWrite, x.t = t → x.i = i → x.off = off → ∀ v d, (x.effect v d).rings = d.rings) :
    (d.regWrite m t i off w).rings = d.rings := by
  rcases d.regWrite_cases m t i off w hi ho' with e | e | e <;> rw [e]
  · simp
  · exact d.writeReg_rings m t i off off false w ho hs h

theorem Dev.writeReg_canvases (m : Nat) (t : PType) (i off woff : Nat) (al : Bool) (w : Word) (d : Dev) (ho : 0x40 ≤ off)
    (hs : ∀ r, anyDesc t i off = some r → r.staged = false)
    (h : ∀ x : RegWrite, x.t = t → x.i = i → x.off = off → ∀ v d, (x.effect v d).canvases = d.canvases) :
    (d.writeReg m t i off woff al w).canvases = d.canvases := by
  unfold Dev.writeReg
  split
  · rfl
  · next r hr =>
    extract_lets n armed ok bad mask old new d₁ d₂
    have e₁ : d₁.canvases = d.canvases := by simp only [d₁]; split <;> simp
    have e₂ : d₂.canvases = d.canvases := by simp only [d₂]; split <;> simp [e₁]
    split
    · exact e₂
    · unfold RegWrite.perform RegWrite.store
      dsimp only
      rw [if_neg (by omega), hs r hr]
      simp only [Bool.false_eq_true, if_false]
      split
      · rw [h _ rfl rfl rfl]; exact e₂
      · rw [h _ rfl rfl rfl]; simp [e₂]

theorem Dev.regWrite_canvases (m : Nat) (t : PType) (i off : Nat) (w : Word) (d : Dev) (hi : i < t.count) (ho : 0x40 ≤ off)
    (ho' : off < 0x1000) (hs : ∀ r, anyDesc t i off = some r → r.staged = false)
    (h : ∀ x : RegWrite, x.t = t → x.i = i → x.off = off → ∀ v d, (x.effect v d).canvases = d.canvases) :
    (d.regWrite m t i off w).canvases = d.canvases := by
  rcases d.regWrite_cases m t i off w hi ho' with e | e | e <;> rw [e]
  · simp
  · exact d.writeReg_canvases m t i off off false w ho hs h

theorem Dev.writeReg_comp (m : Nat) (t : PType) (i off woff : Nat) (al : Bool) (w : Word) (d : Dev) (ho : 0x40 ≤ off)
    (hs : ∀ r, anyDesc t i off = some r → r.staged = false)
    (h : ∀ x : RegWrite, x.t = t → x.i = i → x.off = off → ∀ v d, (x.effect v d).comp = d.comp) :
    (d.writeReg m t i off woff al w).comp = d.comp := by
  unfold Dev.writeReg
  split
  · rfl
  · next r hr =>
    extract_lets n armed ok bad mask old new d₁ d₂
    have e₁ : d₁.comp = d.comp := by simp only [d₁]; split <;> simp
    have e₂ : d₂.comp = d.comp := by simp only [d₂]; split <;> simp [e₁]
    split
    · exact e₂
    · unfold RegWrite.perform RegWrite.store
      dsimp only
      rw [if_neg (by omega), hs r hr]
      simp only [Bool.false_eq_true, if_false]
      split
      · rw [h _ rfl rfl rfl]; exact e₂
      · rw [h _ rfl rfl rfl]; simp [e₂]

theorem Dev.regWrite_comp (m : Nat) (t : PType) (i off : Nat) (w : Word) (d : Dev) (hi : i < t.count) (ho : 0x40 ≤ off)
    (ho' : off < 0x1000) (hs : ∀ r, anyDesc t i off = some r → r.staged = false)
    (h : ∀ x : RegWrite, x.t = t → x.i = i → x.off = off → ∀ v d, (x.effect v d).comp = d.comp) :
    (d.regWrite m t i off w).comp = d.comp := by
  rcases d.regWrite_cases m t i off w hi ho' with e | e | e <;> rw [e]
  · simp
  · exact d.writeReg_comp m t i off off false w ho hs h

theorem Dev.writeReg_ports (m : Nat) (t : PType) (i off woff : Nat) (al : Bool) (w : Word) (d : Dev) (ho : 0x40 ≤ off)
    (hs : ∀ r, anyDesc t i off = some r → r.staged = false)
    (h : ∀ x : RegWrite, x.t = t → x.i = i → x.off = off → ∀ v d, (x.effect v d).ports = d.ports) :
    (d.writeReg m t i off woff al w).ports = d.ports := by
  unfold Dev.writeReg
  split
  · rfl
  · next r hr =>
    extract_lets n armed ok bad mask old new d₁ d₂
    have e₁ : d₁.ports = d.ports := by simp only [d₁]; split <;> simp
    have e₂ : d₂.ports = d.ports := by simp only [d₂]; split <;> simp [e₁]
    split
    · exact e₂
    · unfold RegWrite.perform RegWrite.store
      dsimp only
      rw [if_neg (by omega), hs r hr]
      simp only [Bool.false_eq_true, if_false]
      split
      · rw [h _ rfl rfl rfl]; exact e₂
      · rw [h _ rfl rfl rfl]; simp [e₂]

theorem Dev.regWrite_ports (m : Nat) (t : PType) (i off : Nat) (w : Word) (d : Dev) (hi : i < t.count) (ho : 0x40 ≤ off)
    (ho' : off < 0x1000) (hs : ∀ r, anyDesc t i off = some r → r.staged = false)
    (h : ∀ x : RegWrite, x.t = t → x.i = i → x.off = off → ∀ v d, (x.effect v d).ports = d.ports) :
    (d.regWrite m t i off w).ports = d.ports := by
  rcases d.regWrite_cases m t i off w hi ho' with e | e | e <;> rw [e]
  · simp
  · exact d.writeReg_ports m t i off off false w ho hs h

theorem Dev.writeReg_chans (m : Nat) (t : PType) (i off woff : Nat) (al : Bool) (w : Word) (d : Dev) (ho : 0x40 ≤ off)
    (hs : ∀ r, anyDesc t i off = some r → r.staged = false)
    (h : ∀ x : RegWrite, x.t = t → x.i = i → x.off = off → ∀ v d, (x.effect v d).chans = d.chans) :
    (d.writeReg m t i off woff al w).chans = d.chans := by
  unfold Dev.writeReg
  split
  · rfl
  · next r hr =>
    extract_lets n armed ok bad mask old new d₁ d₂
    have e₁ : d₁.chans = d.chans := by simp only [d₁]; split <;> simp
    have e₂ : d₂.chans = d.chans := by simp only [d₂]; split <;> simp [e₁]
    split
    · exact e₂
    · unfold RegWrite.perform RegWrite.store
      dsimp only
      rw [if_neg (by omega), hs r hr]
      simp only [Bool.false_eq_true, if_false]
      split
      · rw [h _ rfl rfl rfl]; exact e₂
      · rw [h _ rfl rfl rfl]; simp [e₂]

theorem Dev.regWrite_chans (m : Nat) (t : PType) (i off : Nat) (w : Word) (d : Dev) (hi : i < t.count) (ho : 0x40 ≤ off)
    (ho' : off < 0x1000) (hs : ∀ r, anyDesc t i off = some r → r.staged = false)
    (h : ∀ x : RegWrite, x.t = t → x.i = i → x.off = off → ∀ v d, (x.effect v d).chans = d.chans) :
    (d.regWrite m t i off w).chans = d.chans := by
  rcases d.regWrite_cases m t i off w hi ho' with e | e | e <;> rw [e]
  · simp
  · exact d.writeReg_chans m t i off off false w ho hs h

theorem Dev.writeReg_timers (m : Nat) (t : PType) (i off woff : Nat) (al : Bool) (w : Word) (d : Dev) (ho : 0x40 ≤ off)
    (hs : ∀ r, anyDesc t i off = some r → r.staged = false)
    (h : ∀ x : RegWrite, x.t = t → x.i = i → x.off = off → ∀ v d, (x.effect v d).timers = d.timers) :
    (d.writeReg m t i off woff al w).timers = d.timers := by
  unfold Dev.writeReg
  split
  · rfl
  · next r hr =>
    extract_lets n armed ok bad mask old new d₁ d₂
    have e₁ : d₁.timers = d.timers := by simp only [d₁]; split <;> simp
    have e₂ : d₂.timers = d.timers := by simp only [d₂]; split <;> simp [e₁]
    split
    · exact e₂
    · unfold RegWrite.perform RegWrite.store
      dsimp only
      rw [if_neg (by omega), hs r hr]
      simp only [Bool.false_eq_true, if_false]
      split
      · rw [h _ rfl rfl rfl]; exact e₂
      · rw [h _ rfl rfl rfl]; simp [e₂]

theorem Dev.regWrite_timers (m : Nat) (t : PType) (i off : Nat) (w : Word) (d : Dev) (hi : i < t.count) (ho : 0x40 ≤ off)
    (ho' : off < 0x1000) (hs : ∀ r, anyDesc t i off = some r → r.staged = false)
    (h : ∀ x : RegWrite, x.t = t → x.i = i → x.off = off → ∀ v d, (x.effect v d).timers = d.timers) :
    (d.regWrite m t i off w).timers = d.timers := by
  rcases d.regWrite_cases m t i off w hi ho' with e | e | e <;> rw [e]
  · simp
  · exact d.writeReg_timers m t i off off false w ho hs h

theorem Dev.writeReg_mrv (m : Nat) (t : PType) (i off woff : Nat) (al : Bool) (w : Word) (d : Dev) (ho : 0x40 ≤ off)
    (hs : ∀ r, anyDesc t i off = some r → r.staged = false)
    (h : ∀ x : RegWrite, x.t = t → x.i = i → x.off = off → ∀ v d, (x.effect v d).mrv = d.mrv) :
    (d.writeReg m t i off woff al w).mrv = d.mrv := by
  unfold Dev.writeReg
  split
  · rfl
  · next r hr =>
    extract_lets n armed ok bad mask old new d₁ d₂
    have e₁ : d₁.mrv = d.mrv := by simp only [d₁]; split <;> simp
    have e₂ : d₂.mrv = d.mrv := by simp only [d₂]; split <;> simp [e₁]
    split
    · exact e₂
    · unfold RegWrite.perform RegWrite.store
      dsimp only
      rw [if_neg (by omega), hs r hr]
      simp only [Bool.false_eq_true, if_false]
      split
      · rw [h _ rfl rfl rfl]; exact e₂
      · rw [h _ rfl rfl rfl]; simp [e₂]

theorem Dev.regWrite_mrv (m : Nat) (t : PType) (i off : Nat) (w : Word) (d : Dev) (hi : i < t.count) (ho : 0x40 ≤ off)
    (ho' : off < 0x1000) (hs : ∀ r, anyDesc t i off = some r → r.staged = false)
    (h : ∀ x : RegWrite, x.t = t → x.i = i → x.off = off → ∀ v d, (x.effect v d).mrv = d.mrv) :
    (d.regWrite m t i off w).mrv = d.mrv := by
  rcases d.regWrite_cases m t i off w hi ho' with e | e | e <;> rw [e]
  · simp
  · exact d.writeReg_mrv m t i off off false w ho hs h

theorem Dev.writeReg_engines (m : Nat) (t : PType) (i off woff : Nat) (al : Bool) (w : Word) (d : Dev) (ho : 0x40 ≤ off)
    (hs : ∀ r, anyDesc t i off = some r → r.staged = false)
    (h : ∀ x : RegWrite, x.t = t → x.i = i → x.off = off → ∀ v d, (x.effect v d).engines = d.engines) :
    (d.writeReg m t i off woff al w).engines = d.engines := by
  unfold Dev.writeReg
  split
  · rfl
  · next r hr =>
    extract_lets n armed ok bad mask old new d₁ d₂
    have e₁ : d₁.engines = d.engines := by simp only [d₁]; split <;> simp
    have e₂ : d₂.engines = d.engines := by simp only [d₂]; split <;> simp [e₁]
    split
    · exact e₂
    · unfold RegWrite.perform RegWrite.store
      dsimp only
      rw [if_neg (by omega), hs r hr]
      simp only [Bool.false_eq_true, if_false]
      split
      · rw [h _ rfl rfl rfl]; exact e₂
      · rw [h _ rfl rfl rfl]; simp [e₂]

theorem Dev.regWrite_engines (m : Nat) (t : PType) (i off : Nat) (w : Word) (d : Dev) (hi : i < t.count) (ho : 0x40 ≤ off)
    (ho' : off < 0x1000) (hs : ∀ r, anyDesc t i off = some r → r.staged = false)
    (h : ∀ x : RegWrite, x.t = t → x.i = i → x.off = off → ∀ v d, (x.effect v d).engines = d.engines) :
    (d.regWrite m t i off w).engines = d.engines := by
  rcases d.regWrite_cases m t i off w hi ho' with e | e | e <;> rw [e]
  · simp
  · exact d.writeReg_engines m t i off off false w ho hs h

theorem Dev.writeReg_regions (m : Nat) (t : PType) (i off woff : Nat) (al : Bool) (w : Word) (d : Dev) (ho : 0x40 ≤ off)
    (hs : ∀ r, anyDesc t i off = some r → r.staged = false)
    (h : ∀ x : RegWrite, x.t = t → x.i = i → x.off = off → ∀ v d, (x.effect v d).regions = d.regions) :
    (d.writeReg m t i off woff al w).regions = d.regions := by
  unfold Dev.writeReg
  split
  · rfl
  · next r hr =>
    extract_lets n armed ok bad mask old new d₁ d₂
    have e₁ : d₁.regions = d.regions := by simp only [d₁]; split <;> simp
    have e₂ : d₂.regions = d.regions := by simp only [d₂]; split <;> simp [e₁]
    split
    · exact e₂
    · unfold RegWrite.perform RegWrite.store
      dsimp only
      rw [if_neg (by omega), hs r hr]
      simp only [Bool.false_eq_true, if_false]
      split
      · rw [h _ rfl rfl rfl]; exact e₂
      · rw [h _ rfl rfl rfl]; simp [e₂]

theorem Dev.regWrite_regions (m : Nat) (t : PType) (i off : Nat) (w : Word) (d : Dev) (hi : i < t.count) (ho : 0x40 ≤ off)
    (ho' : off < 0x1000) (hs : ∀ r, anyDesc t i off = some r → r.staged = false)
    (h : ∀ x : RegWrite, x.t = t → x.i = i → x.off = off → ∀ v d, (x.effect v d).regions = d.regions) :
    (d.regWrite m t i off w).regions = d.regions := by
  rcases d.regWrite_cases m t i off w hi ho' with e | e | e <;> rw [e]
  · simp
  · exact d.writeReg_regions m t i off off false w ho hs h

theorem Dev.writeReg_mct (m : Nat) (t : PType) (i off woff : Nat) (al : Bool) (w : Word) (d : Dev) (ho : 0x40 ≤ off)
    (hs : ∀ r, anyDesc t i off = some r → r.staged = false)
    (h : ∀ x : RegWrite, x.t = t → x.i = i → x.off = off → ∀ v d, (x.effect v d).mct = d.mct) :
    (d.writeReg m t i off woff al w).mct = d.mct := by
  unfold Dev.writeReg
  split
  · rfl
  · next r hr =>
    extract_lets n armed ok bad mask old new d₁ d₂
    have e₁ : d₁.mct = d.mct := by simp only [d₁]; split <;> simp
    have e₂ : d₂.mct = d.mct := by simp only [d₂]; split <;> simp [e₁]
    split
    · exact e₂
    · unfold RegWrite.perform RegWrite.store
      dsimp only
      rw [if_neg (by omega), hs r hr]
      simp only [Bool.false_eq_true, if_false]
      split
      · rw [h _ rfl rfl rfl]; exact e₂
      · rw [h _ rfl rfl rfl]; simp [e₂]

theorem Dev.regWrite_mct (m : Nat) (t : PType) (i off : Nat) (w : Word) (d : Dev) (hi : i < t.count) (ho : 0x40 ≤ off)
    (ho' : off < 0x1000) (hs : ∀ r, anyDesc t i off = some r → r.staged = false)
    (h : ∀ x : RegWrite, x.t = t → x.i = i → x.off = off → ∀ v d, (x.effect v d).mct = d.mct) :
    (d.regWrite m t i off w).mct = d.mct := by
  rcases d.regWrite_cases m t i off w hi ho' with e | e | e <;> rw [e]
  · simp
  · exact d.writeReg_mct m t i off off false w ho hs h

theorem Dev.writeReg_cru (m : Nat) (t : PType) (i off woff : Nat) (al : Bool) (w : Word) (d : Dev) (ho : 0x40 ≤ off)
    (hs : ∀ r, anyDesc t i off = some r → r.staged = false)
    (h : ∀ x : RegWrite, x.t = t → x.i = i → x.off = off → ∀ v d, (x.effect v d).cru = d.cru) :
    (d.writeReg m t i off woff al w).cru = d.cru := by
  unfold Dev.writeReg
  split
  · rfl
  · next r hr =>
    extract_lets n armed ok bad mask old new d₁ d₂
    have e₁ : d₁.cru = d.cru := by simp only [d₁]; split <;> simp
    have e₂ : d₂.cru = d.cru := by simp only [d₂]; split <;> simp [e₁]
    split
    · exact e₂
    · unfold RegWrite.perform RegWrite.store
      dsimp only
      rw [if_neg (by omega), hs r hr]
      simp only [Bool.false_eq_true, if_false]
      split
      · rw [h _ rfl rfl rfl]; exact e₂
      · rw [h _ rfl rfl rfl]; simp [e₂]

theorem Dev.regWrite_cru (m : Nat) (t : PType) (i off : Nat) (w : Word) (d : Dev) (hi : i < t.count) (ho : 0x40 ≤ off)
    (ho' : off < 0x1000) (hs : ∀ r, anyDesc t i off = some r → r.staged = false)
    (h : ∀ x : RegWrite, x.t = t → x.i = i → x.off = off → ∀ v d, (x.effect v d).cru = d.cru) :
    (d.regWrite m t i off w).cru = d.cru := by
  rcases d.regWrite_cases m t i off w hi ho' with e | e | e <;> rw [e]
  · simp
  · exact d.writeReg_cru m t i off off false w ho hs h

theorem Dev.writeReg_svc (m : Nat) (t : PType) (i off woff : Nat) (al : Bool) (w : Word) (d : Dev) (ho : 0x40 ≤ off)
    (hs : ∀ r, anyDesc t i off = some r → r.staged = false)
    (h : ∀ x : RegWrite, x.t = t → x.i = i → x.off = off → ∀ v d, (x.effect v d).svc = d.svc) :
    (d.writeReg m t i off woff al w).svc = d.svc := by
  unfold Dev.writeReg
  split
  · rfl
  · next r hr =>
    extract_lets n armed ok bad mask old new d₁ d₂
    have e₁ : d₁.svc = d.svc := by simp only [d₁]; split <;> simp
    have e₂ : d₂.svc = d.svc := by simp only [d₂]; split <;> simp [e₁]
    split
    · exact e₂
    · unfold RegWrite.perform RegWrite.store
      dsimp only
      rw [if_neg (by omega), hs r hr]
      simp only [Bool.false_eq_true, if_false]
      split
      · rw [h _ rfl rfl rfl]; exact e₂
      · rw [h _ rfl rfl rfl]; simp [e₂]

theorem Dev.regWrite_svc (m : Nat) (t : PType) (i off : Nat) (w : Word) (d : Dev) (hi : i < t.count) (ho : 0x40 ≤ off)
    (ho' : off < 0x1000) (hs : ∀ r, anyDesc t i off = some r → r.staged = false)
    (h : ∀ x : RegWrite, x.t = t → x.i = i → x.off = off → ∀ v d, (x.effect v d).svc = d.svc) :
    (d.regWrite m t i off w).svc = d.svc := by
  rcases d.regWrite_cases m t i off w hi ho' with e | e | e <;> rw [e]
  · simp
  · exact d.writeReg_svc m t i off off false w ho hs h

theorem Dev.writeReg_tb (m : Nat) (t : PType) (i off woff : Nat) (al : Bool) (w : Word) (d : Dev) (ho : 0x40 ≤ off)
    (hs : ∀ r, anyDesc t i off = some r → r.staged = false)
    (h : ∀ x : RegWrite, x.t = t → x.i = i → x.off = off → ∀ v d, (x.effect v d).tb = d.tb) :
    (d.writeReg m t i off woff al w).tb = d.tb := by
  unfold Dev.writeReg
  split
  · rfl
  · next r hr =>
    extract_lets n armed ok bad mask old new d₁ d₂
    have e₁ : d₁.tb = d.tb := by simp only [d₁]; split <;> simp
    have e₂ : d₂.tb = d.tb := by simp only [d₂]; split <;> simp [e₁]
    split
    · exact e₂
    · unfold RegWrite.perform RegWrite.store
      dsimp only
      rw [if_neg (by omega), hs r hr]
      simp only [Bool.false_eq_true, if_false]
      split
      · rw [h _ rfl rfl rfl]; exact e₂
      · rw [h _ rfl rfl rfl]; simp [e₂]

theorem Dev.regWrite_tb (m : Nat) (t : PType) (i off : Nat) (w : Word) (d : Dev) (hi : i < t.count) (ho : 0x40 ≤ off)
    (ho' : off < 0x1000) (hs : ∀ r, anyDesc t i off = some r → r.staged = false)
    (h : ∀ x : RegWrite, x.t = t → x.i = i → x.off = off → ∀ v d, (x.effect v d).tb = d.tb) :
    (d.regWrite m t i off w).tb = d.tb := by
  rcases d.regWrite_cases m t i off w hi ho' with e | e | e <;> rw [e]
  · simp
  · exact d.writeReg_tb m t i off off false w ho hs h

theorem Dev.writeReg_clk (m : Nat) (t : PType) (i off woff : Nat) (al : Bool) (w : Word) (d : Dev) (ho : 0x40 ≤ off)
    (hs : ∀ r, anyDesc t i off = some r → r.staged = false)
    (h : ∀ x : RegWrite, x.t = t → x.i = i → x.off = off → ∀ v d, (x.effect v d).clk = d.clk) :
    (d.writeReg m t i off woff al w).clk = d.clk := by
  unfold Dev.writeReg
  split
  · rfl
  · next r hr =>
    extract_lets n armed ok bad mask old new d₁ d₂
    have e₁ : d₁.clk = d.clk := by simp only [d₁]; split <;> simp
    have e₂ : d₂.clk = d.clk := by simp only [d₂]; split <;> simp [e₁]
    split
    · exact e₂
    · unfold RegWrite.perform RegWrite.store
      dsimp only
      rw [if_neg (by omega), hs r hr]
      simp only [Bool.false_eq_true, if_false]
      split
      · rw [h _ rfl rfl rfl]; exact e₂
      · rw [h _ rfl rfl rfl]; simp [e₂]

theorem Dev.regWrite_clk (m : Nat) (t : PType) (i off : Nat) (w : Word) (d : Dev) (hi : i < t.count) (ho : 0x40 ≤ off)
    (ho' : off < 0x1000) (hs : ∀ r, anyDesc t i off = some r → r.staged = false)
    (h : ∀ x : RegWrite, x.t = t → x.i = i → x.off = off → ∀ v d, (x.effect v d).clk = d.clk) :
    (d.regWrite m t i off w).clk = d.clk := by
  rcases d.regWrite_cases m t i off w hi ho' with e | e | e <;> rw [e]
  · simp
  · exact d.writeReg_clk m t i off off false w ho hs h

theorem Dev.writeReg_rst (m : Nat) (t : PType) (i off woff : Nat) (al : Bool) (w : Word) (d : Dev) (ho : 0x40 ≤ off)
    (hs : ∀ r, anyDesc t i off = some r → r.staged = false)
    (h : ∀ x : RegWrite, x.t = t → x.i = i → x.off = off → ∀ v d, (x.effect v d).rst = d.rst) :
    (d.writeReg m t i off woff al w).rst = d.rst := by
  unfold Dev.writeReg
  split
  · rfl
  · next r hr =>
    extract_lets n armed ok bad mask old new d₁ d₂
    have e₁ : d₁.rst = d.rst := by simp only [d₁]; split <;> simp
    have e₂ : d₂.rst = d.rst := by simp only [d₂]; split <;> simp [e₁]
    split
    · exact e₂
    · unfold RegWrite.perform RegWrite.store
      dsimp only
      rw [if_neg (by omega), hs r hr]
      simp only [Bool.false_eq_true, if_false]
      split
      · rw [h _ rfl rfl rfl]; exact e₂
      · rw [h _ rfl rfl rfl]; simp [e₂]

theorem Dev.regWrite_rst (m : Nat) (t : PType) (i off : Nat) (w : Word) (d : Dev) (hi : i < t.count) (ho : 0x40 ≤ off)
    (ho' : off < 0x1000) (hs : ∀ r, anyDesc t i off = some r → r.staged = false)
    (h : ∀ x : RegWrite, x.t = t → x.i = i → x.off = off → ∀ v d, (x.effect v d).rst = d.rst) :
    (d.regWrite m t i off w).rst = d.rst := by
  rcases d.regWrite_cases m t i off w hi ho' with e | e | e <;> rw [e]
  · simp
  · exact d.writeReg_rst m t i off off false w ho hs h

theorem Dev.writeReg_hif (m : Nat) (t : PType) (i off woff : Nat) (al : Bool) (w : Word) (d : Dev) (ho : 0x40 ≤ off)
    (hs : ∀ r, anyDesc t i off = some r → r.staged = false)
    (h : ∀ x : RegWrite, x.t = t → x.i = i → x.off = off → ∀ v d, (x.effect v d).hif = d.hif) :
    (d.writeReg m t i off woff al w).hif = d.hif := by
  unfold Dev.writeReg
  split
  · rfl
  · next r hr =>
    extract_lets n armed ok bad mask old new d₁ d₂
    have e₁ : d₁.hif = d.hif := by simp only [d₁]; split <;> simp
    have e₂ : d₂.hif = d.hif := by simp only [d₂]; split <;> simp [e₁]
    split
    · exact e₂
    · unfold RegWrite.perform RegWrite.store
      dsimp only
      rw [if_neg (by omega), hs r hr]
      simp only [Bool.false_eq_true, if_false]
      split
      · rw [h _ rfl rfl rfl]; exact e₂
      · rw [h _ rfl rfl rfl]; simp [e₂]

theorem Dev.regWrite_hif (m : Nat) (t : PType) (i off : Nat) (w : Word) (d : Dev) (hi : i < t.count) (ho : 0x40 ≤ off)
    (ho' : off < 0x1000) (hs : ∀ r, anyDesc t i off = some r → r.staged = false)
    (h : ∀ x : RegWrite, x.t = t → x.i = i → x.off = off → ∀ v d, (x.effect v d).hif = d.hif) :
    (d.regWrite m t i off w).hif = d.hif := by
  rcases d.regWrite_cases m t i off w hi ho' with e | e | e <;> rw [e]
  · simp
  · exact d.writeReg_hif m t i off off false w ho hs h

theorem Dev.writeReg_pins (m : Nat) (t : PType) (i off woff : Nat) (al : Bool) (w : Word) (d : Dev) (ho : 0x40 ≤ off)
    (hs : ∀ r, anyDesc t i off = some r → r.staged = false)
    (h : ∀ x : RegWrite, x.t = t → x.i = i → x.off = off → ∀ v d, (x.effect v d).pins = d.pins) :
    (d.writeReg m t i off woff al w).pins = d.pins := by
  unfold Dev.writeReg
  split
  · rfl
  · next r hr =>
    extract_lets n armed ok bad mask old new d₁ d₂
    have e₁ : d₁.pins = d.pins := by simp only [d₁]; split <;> simp
    have e₂ : d₂.pins = d.pins := by simp only [d₂]; split <;> simp [e₁]
    split
    · exact e₂
    · unfold RegWrite.perform RegWrite.store
      dsimp only
      rw [if_neg (by omega), hs r hr]
      simp only [Bool.false_eq_true, if_false]
      split
      · rw [h _ rfl rfl rfl]; exact e₂
      · rw [h _ rfl rfl rfl]; simp [e₂]

theorem Dev.regWrite_pins (m : Nat) (t : PType) (i off : Nat) (w : Word) (d : Dev) (hi : i < t.count) (ho : 0x40 ≤ off)
    (ho' : off < 0x1000) (hs : ∀ r, anyDesc t i off = some r → r.staged = false)
    (h : ∀ x : RegWrite, x.t = t → x.i = i → x.off = off → ∀ v d, (x.effect v d).pins = d.pins) :
    (d.regWrite m t i off w).pins = d.pins := by
  rcases d.regWrite_cases m t i off w hi ho' with e | e | e <;> rw [e]
  · simp
  · exact d.writeReg_pins m t i off off false w ho hs h

end Sys2Proof.Machine
end

