-- ==== Sys2Proof/Laws/RegLaws.lean ====
section
/-!
SUPPORT. What each command that writes a register does, once the write reaches its register: one law for each.
-/
set_option linter.all false
namespace Sys2Proof.Machine

/-- A write of a register that is not staged, whose unit accepts it and which violates no key: the fields that take it are
stored, and the register's effect follows. -/
theorem Dev.regWrite_reg {d : Dev} {m : Nat} {t : PType} {i off : Nat} {w : Word} {r : RegDesc} {mask : Word}
    (hi : i < t.count) (ho : off < 0x1000) (h : d.mayWriteReg m t i off)
    (hd : anyDesc t i off = some r) (h₀ : ¬ off < 0x40) (hs : r.staged = false) (ha : d.accepts t i off w = true)
    (hm : r.takenMask (d.armed (t.page + i) m) d.acc.lock false w = mask) (hne : mask ≠ 0)
    (hb : (r.keyed && !d.armed (t.page + i) m && r.violates (d.readPage t i off) w) = false) :
    ∃ x : RegWrite, x.m = m ∧ x.t = t ∧ x.i = i ∧ x.off = off ∧ x.armed = d.armed (t.page + i) m ∧ x.data = w ∧ x.mask = mask ∧
      x.old = d.view t i off &&& r.storedMask ∧
      x.new = ((d.view t i off &&& r.storedMask &&& ~~~mask) ||| (w &&& mask)) &&& r.storedMask ∧
      d.regWrite m t i off w = (let D := if r.keyed then d.setArm (t.page + i) m false else d
        x.effect (D.siteOverRate i) (x.store r D)) := by
  refine ⟨⟨m, t, i, off, d.armed (t.page + i) m, w, mask, _, _⟩, rfl, rfl, rfl, rfl, rfl, rfl, rfl, rfl, rfl, ?_⟩
  rw [Dev.regWrite_eq hi ho h]
  unfold Dev.writeReg
  rw [hd]
  simp only [ha, if_true, hm, Bool.and_true]
  rw [if_neg hne, hb]
  simp only [Bool.false_and, Bool.false_eq_true, if_false]
  unfold RegWrite.perform
  dsimp only
  rw [if_neg h₀, hs]
  simp



@[simp] theorem wAll (w : Word) : w &&& 4294967295#32 = w := by
  rw [show (4294967295#32 : Word) = BitVec.allOnes 32 from rfl, BitVec.and_allOnes]
theorem w16 (v : Word) (w : BitVec 16) : (v &&& 65535#32 &&& 4294901760#32 ||| BitVec.setWidth 32 w &&& 65535#32) &&& 65535#32 = BitVec.setWidth 32 w := by
  apply BitVec.eq_of_getLsbD_eq
  intro k hk
  interval_cases k <;> simp

theorem Dev.regWrite_doorbell {d : Dev} {m : Fn} {q : QueueNo} (h : d.mayWriteReg m .queue q CQE_DB)  :
    d.regWrite m .queue q CQE_DB 0 = d.doorbell q := by
  obtain ⟨x, hm', ht, hi, ho, har, hw, hm, hold, hnew, e⟩ := Dev.regWrite_reg (w := 0) (r := ⟨0x040, 0, false, [⟨31, 0, .wo, .any⟩]⟩)
    (mask := 0xFFFFFFFF) (by simp [PType.count] <;> omega) (by first | decide | (simp only [FLT_STICKY, DMA_TMR_CTL]; omega)) h (by unfold anyDesc regDesc regMap; first | rfl | (rw [if_neg (by decide), if_neg (by simp)]; dsimp only; split <;> rfl) | (revert k; decide)) (by first | decide | (simp only [FLT_STICKY, DMA_TMR_CTL]; omega)) rfl (by simp [Dev.accepts])
    (by generalize d.armed _ _ = a; generalize d.acc.lock = l; revert a l; decide) (by decide)
    (by first | rfl | simp [RegDesc.violates, RegDesc.keyed, AccCode.keyed, FieldDesc.val, bits, Legal.ok, PType.page])
  rw [e]
  simp [RegWrite.effect, RegWrite.store, ht, ho, hi, RegDesc.keyed, AccCode.keyed, RegDesc.storedMask, AccCode.stored, RegWrite.on, RegWrite.takes, hw, hm, hnew, hold, hm', PType.page, maskOf, RegWrite.queue]
  try (split <;> simp [bit])
  try (congr 2; exact w16 _ _)
  try (congr 1; simp [bits]; omega)
  try simp [bit]

theorem Dev.regWrite_queueEnable {d : Dev} {m : Fn} {q : QueueNo} (h : d.mayWriteReg m .queue q CQE_CTL)  :
    d.regWrite m .queue q CQE_CTL 1 = d.writeQueueEn q true := by
  obtain ⟨x, hm', ht, hi, ho, har, hw, hm, hold, hnew, e⟩ := Dev.regWrite_reg (w := 1) (r := ⟨0x050, 0, false, [⟨0, 0, .dev, .any⟩]⟩)
    (mask := 1) (by simp [PType.count] <;> omega) (by first | decide | (simp only [FLT_STICKY, DMA_TMR_CTL]; omega)) h (by unfold anyDesc regDesc regMap; first | rfl | (rw [if_neg (by decide), if_neg (by simp)]; dsimp only; split <;> rfl) | (revert k; decide)) (by first | decide | (simp only [FLT_STICKY, DMA_TMR_CTL]; omega)) rfl (by simp [Dev.accepts])
    (by generalize d.armed _ _ = a; generalize d.acc.lock = l; revert a l; decide) (by decide)
    (by first | rfl | simp [RegDesc.violates, RegDesc.keyed, AccCode.keyed, FieldDesc.val, bits, Legal.ok, PType.page])
  rw [e]
  simp [RegWrite.effect, RegWrite.store, ht, ho, hi, RegDesc.keyed, AccCode.keyed, RegDesc.storedMask, AccCode.stored, RegWrite.on, RegWrite.takes, hw, hm, hnew, hold, hm', PType.page, maskOf, RegWrite.queue]
  try (split <;> simp [bit])
  try (congr 2; exact w16 _ _)
  try (congr 1; simp [bits]; omega)
  try simp [bit]

theorem Dev.regWrite_queueDisable {d : Dev} {m : Fn} {q : QueueNo} (h : d.mayWriteReg m .queue q CQE_CTL)  :
    d.regWrite m .queue q CQE_CTL 0 = d.writeQueueEn q false := by
  obtain ⟨x, hm', ht, hi, ho, har, hw, hm, hold, hnew, e⟩ := Dev.regWrite_reg (w := 0) (r := ⟨0x050, 0, false, [⟨0, 0, .dev, .any⟩]⟩)
    (mask := 1) (by simp [PType.count] <;> omega) (by first | decide | (simp only [FLT_STICKY, DMA_TMR_CTL]; omega)) h (by unfold anyDesc regDesc regMap; first | rfl | (rw [if_neg (by decide), if_neg (by simp)]; dsimp only; split <;> rfl) | (revert k; decide)) (by first | decide | (simp only [FLT_STICKY, DMA_TMR_CTL]; omega)) rfl (by simp [Dev.accepts])
    (by generalize d.armed _ _ = a; generalize d.acc.lock = l; revert a l; decide) (by decide)
    (by first | rfl | simp [RegDesc.violates, RegDesc.keyed, AccCode.keyed, FieldDesc.val, bits, Legal.ok, PType.page])
  rw [e]
  simp [RegWrite.effect, RegWrite.store, ht, ho, hi, RegDesc.keyed, AccCode.keyed, RegDesc.storedMask, AccCode.stored, RegWrite.on, RegWrite.takes, hw, hm, hnew, hold, hm', PType.page, maskOf, RegWrite.queue]
  try (split <;> simp [bit])
  try (congr 2; exact w16 _ _)
  try (congr 1; simp [bits]; omega)
  try simp [bit]

theorem Dev.regWrite_reeval {d : Dev} {m : Fn}  (h : d.mayWriteReg m .ldg 0 LDG_CTL)  :
    d.regWrite m .ldg 0 LDG_CTL 1 = askReeval 5 d := by
  obtain ⟨x, hm', ht, hi, ho, har, hw, hm, hold, hnew, e⟩ := Dev.regWrite_reg (w := 1) (r := ⟨0x040, 0, false, [⟨0, 0, .wo, .any⟩]⟩)
    (mask := 1) (by simp [PType.count] <;> omega) (by first | decide | (simp only [FLT_STICKY, DMA_TMR_CTL]; omega)) h (by unfold anyDesc regDesc regMap; first | rfl | (rw [if_neg (by decide), if_neg (by simp)]; dsimp only; split <;> rfl) | (revert k; decide)) (by first | decide | (simp only [FLT_STICKY, DMA_TMR_CTL]; omega)) rfl (by simp [Dev.accepts])
    (by generalize d.armed _ _ = a; generalize d.acc.lock = l; revert a l; decide) (by decide)
    (by first | rfl | simp [RegDesc.violates, RegDesc.keyed, AccCode.keyed, FieldDesc.val, bits, Legal.ok, PType.page])
  rw [e]
  simp [RegWrite.effect, RegWrite.store, ht, ho, hi, RegDesc.keyed, AccCode.keyed, RegDesc.storedMask, AccCode.stored, RegWrite.on, RegWrite.takes, hw, hm, hnew, hold, hm', PType.page, maskOf, RegWrite.ldg]
  try (split <;> simp [bit])
  try (congr 2; exact w16 _ _)
  try (congr 1; simp [bits]; omega)
  try simp [bit]

theorem Dev.regWrite_derate {d : Dev} {m : Fn} {w : BitVec 16} (h : d.mayWriteReg m .ldg 0 LDG_DERATE) (ha : d.armed (8) m = true) :
    d.regWrite m .ldg 0 LDG_DERATE (w.setWidth 32) = askReeval 4 ((d.setArm 8 m false).setReg .ldg 0 LDG_DERATE (w.setWidth 32)) := by
  obtain ⟨x, hm', ht, hi, ho, har, hw, hm, hold, hnew, e⟩ := Dev.regWrite_reg (w := (w.setWidth 32)) (r := ⟨0x048, 0x000003C0, false, [⟨15, 0, .rk, .any⟩]⟩)
    (mask := 0xFFFF) (by simp [PType.count] <;> omega) (by first | decide | (simp only [FLT_STICKY, DMA_TMR_CTL]; omega)) h (by unfold anyDesc regDesc regMap; first | rfl | (rw [if_neg (by decide), if_neg (by simp)]; dsimp only; split <;> rfl) | (revert k; decide)) (by first | decide | (simp only [FLT_STICKY, DMA_TMR_CTL]; omega)) rfl (by simp [Dev.accepts])
    (by simp only [PType.page, show d.armed _ m = true from ha]; generalize d.acc.lock = l; cases l <;> rfl) (by decide)
    (by first | rfl | simp [RegDesc.violates, RegDesc.keyed, AccCode.keyed, FieldDesc.val, bits, Legal.ok, PType.page, ha])
  rw [e]
  simp [RegWrite.effect, RegWrite.store, ht, ho, hi, RegDesc.keyed, AccCode.keyed, RegDesc.storedMask, AccCode.stored, RegWrite.on, RegWrite.takes, hw, hm, hnew, hold, hm', PType.page, maskOf, RegWrite.ldg, ha]
  try (split <;> simp [bit])
  try (congr 2; exact w16 _ _)
  try (congr 1; simp [bits]; omega)
  try simp [bit]

theorem Dev.regWrite_role {d : Dev} {m : Fn} {p : PipeNo} {r : BitVec 2} (h : d.mayWriteReg m .cmp p CMP_CTL) (ha : d.armed (40 + p) m = true) (hr : r.toNat ≤ 2) :
    d.regWrite m .cmp p CMP_CTL (r.setWidth 32) = (d.setArm (40 + p) m false).requestRole p r.toNat := by
  obtain ⟨x, hm', ht, hi, ho, har, hw, hm, hold, hnew, e⟩ := Dev.regWrite_reg (w := (r.setWidth 32)) (r := ⟨0x040, 0, false, [⟨1, 0, .rk, .le 2⟩]⟩)
    (mask := 3) (by simp [PType.count] <;> omega) (by first | decide | (simp only [FLT_STICKY, DMA_TMR_CTL]; omega)) h (by unfold anyDesc regDesc regMap; first | rfl | (rw [if_neg (by decide), if_neg (by simp)]; dsimp only; split <;> rfl) | (revert k; decide)) (by first | decide | (simp only [FLT_STICKY, DMA_TMR_CTL]; omega)) rfl (by simp [Dev.accepts])
    (by simp only [PType.page, show d.armed _ m = true from ha]; generalize d.acc.lock = l; revert l; simp [RegDesc.takenMask, FieldDesc.takes, Legal.ok, AccCode.keyed, AccCode.locked, maskOf, FieldDesc.val, bits]; omega) (by decide)
    (by first | rfl | simp [RegDesc.violates, RegDesc.keyed, AccCode.keyed, FieldDesc.val, bits, Legal.ok, PType.page, ha])
  rw [e]
  simp [RegWrite.effect, RegWrite.store, ht, ho, hi, RegDesc.keyed, AccCode.keyed, RegDesc.storedMask, AccCode.stored, RegWrite.on, RegWrite.takes, hw, hm, hnew, hold, hm', PType.page, maskOf, RegWrite.cmp, ha, hr]
  try (split <;> simp [bit])
  try (congr 2; exact w16 _ _)
  try (congr 1; simp [bits]; omega)
  try simp [bit]

theorem Dev.regWrite_canvasEnable {d : Dev} {m : Fn} {c : CanvasNo} (h : d.mayWriteReg m .cnv c CNV_CTL)  :
    d.regWrite m .cnv c CNV_CTL 1 = d.writeCanvasEn c true := by
  obtain ⟨x, hm', ht, hi, ho, har, hw, hm, hold, hnew, e⟩ := Dev.regWrite_reg (w := 1) (r := ⟨0x080, 0, false, [⟨0, 0, .dev, .any⟩]⟩)
    (mask := 1) (by simp [PType.count] <;> omega) (by first | decide | (simp only [FLT_STICKY, DMA_TMR_CTL]; omega)) h (by unfold anyDesc regDesc regMap; first | rfl | (rw [if_neg (by decide), if_neg (by simp)]; dsimp only; split <;> rfl) | (revert k; decide)) (by first | decide | (simp only [FLT_STICKY, DMA_TMR_CTL]; omega)) rfl (by simp [Dev.accepts])
    (by generalize d.armed _ _ = a; generalize d.acc.lock = l; revert a l; decide) (by decide)
    (by first | rfl | simp [RegDesc.violates, RegDesc.keyed, AccCode.keyed, FieldDesc.val, bits, Legal.ok, PType.page])
  rw [e]
  simp [RegWrite.effect, RegWrite.store, ht, ho, hi, RegDesc.keyed, AccCode.keyed, RegDesc.storedMask, AccCode.stored, RegWrite.on, RegWrite.takes, hw, hm, hnew, hold, hm', PType.page, maskOf, RegWrite.cnv]
  try (split <;> simp [bit])
  try (congr 2; exact w16 _ _)
  try (congr 1; simp [bits]; omega)
  try simp [bit]

theorem Dev.regWrite_canvasDisable {d : Dev} {m : Fn} {c : CanvasNo} (h : d.mayWriteReg m .cnv c CNV_CTL)  :
    d.regWrite m .cnv c CNV_CTL 0 = d.writeCanvasEn c false := by
  obtain ⟨x, hm', ht, hi, ho, har, hw, hm, hold, hnew, e⟩ := Dev.regWrite_reg (w := 0) (r := ⟨0x080, 0, false, [⟨0, 0, .dev, .any⟩]⟩)
    (mask := 1) (by simp [PType.count] <;> omega) (by first | decide | (simp only [FLT_STICKY, DMA_TMR_CTL]; omega)) h (by unfold anyDesc regDesc regMap; first | rfl | (rw [if_neg (by decide), if_neg (by simp)]; dsimp only; split <;> rfl) | (revert k; decide)) (by first | decide | (simp only [FLT_STICKY, DMA_TMR_CTL]; omega)) rfl (by simp [Dev.accepts])
    (by generalize d.armed _ _ = a; generalize d.acc.lock = l; revert a l; decide) (by decide)
    (by first | rfl | simp [RegDesc.violates, RegDesc.keyed, AccCode.keyed, FieldDesc.val, bits, Legal.ok, PType.page])
  rw [e]
  simp [RegWrite.effect, RegWrite.store, ht, ho, hi, RegDesc.keyed, AccCode.keyed, RegDesc.storedMask, AccCode.stored, RegWrite.on, RegWrite.takes, hw, hm, hnew, hold, hm', PType.page, maskOf, RegWrite.cnv]
  try (split <;> simp [bit])
  try (congr 2; exact w16 _ _)
  try (congr 1; simp [bits]; omega)
  try simp [bit]

theorem Dev.regWrite_portEnable {d : Dev} {m : Fn} {n : PortNo} (h : d.mayWriteReg m .dpt n DPT_CTL)  :
    d.regWrite m .dpt n DPT_CTL 1 = (d.setArm (448 + n) m false).writePortEn n true := by
  obtain ⟨x, hm', ht, hi, ho, har, hw, hm, hold, hnew, e⟩ := Dev.regWrite_reg (w := 1) (r := ⟨0x040, 0, false, [⟨2, 2, .wok, .any⟩, ⟨1, 1, .wo, .any⟩, ⟨0, 0, .dev, .any⟩]⟩)
    (mask := if d.armed (448 + n) m then 7 else 3) (by simp [PType.count] <;> omega) (by first | decide | (simp only [FLT_STICKY, DMA_TMR_CTL]; omega)) h (by unfold anyDesc regDesc regMap; first | rfl | (rw [if_neg (by decide), if_neg (by simp)]; dsimp only; split <;> rfl) | (revert k; decide)) (by first | decide | (simp only [FLT_STICKY, DMA_TMR_CTL]; omega)) rfl (by simp [Dev.accepts])
    (by simp only [PType.page]; generalize d.armed _ _ = a; generalize d.acc.lock = l; revert a l; decide) (by split <;> decide)
    (by first | rfl | simp [RegDesc.violates, RegDesc.keyed, AccCode.keyed, FieldDesc.val, bits, Legal.ok, PType.page])
  rw [e]
  simp [RegWrite.effect, RegWrite.store, ht, ho, hi, RegDesc.keyed, AccCode.keyed, RegDesc.storedMask, AccCode.stored, RegWrite.on, RegWrite.takes, hw, hm, hnew, hold, hm', PType.page, maskOf, RegWrite.dpt]
  all_goals (cases h2 : d.armed (448 + n) m <;> simp [bit, h2])
  try (congr 2; exact w16 _ _)
  try (congr 1; simp [bits]; omega)
  try simp [bit]

theorem Dev.regWrite_portDisable {d : Dev} {m : Fn} {n : PortNo} (h : d.mayWriteReg m .dpt n DPT_CTL)  :
    d.regWrite m .dpt n DPT_CTL 0 = (d.setArm (448 + n) m false).writePortEn n false := by
  obtain ⟨x, hm', ht, hi, ho, har, hw, hm, hold, hnew, e⟩ := Dev.regWrite_reg (w := 0) (r := ⟨0x040, 0, false, [⟨2, 2, .wok, .any⟩, ⟨1, 1, .wo, .any⟩, ⟨0, 0, .dev, .any⟩]⟩)
    (mask := if d.armed (448 + n) m then 7 else 3) (by simp [PType.count] <;> omega) (by first | decide | (simp only [FLT_STICKY, DMA_TMR_CTL]; omega)) h (by unfold anyDesc regDesc regMap; first | rfl | (rw [if_neg (by decide), if_neg (by simp)]; dsimp only; split <;> rfl) | (revert k; decide)) (by first | decide | (simp only [FLT_STICKY, DMA_TMR_CTL]; omega)) rfl (by simp [Dev.accepts])
    (by simp only [PType.page]; generalize d.armed _ _ = a; generalize d.acc.lock = l; revert a l; decide) (by split <;> decide)
    (by first | rfl | simp [RegDesc.violates, RegDesc.keyed, AccCode.keyed, FieldDesc.val, bits, Legal.ok, PType.page])
  rw [e]
  simp [RegWrite.effect, RegWrite.store, ht, ho, hi, RegDesc.keyed, AccCode.keyed, RegDesc.storedMask, AccCode.stored, RegWrite.on, RegWrite.takes, hw, hm, hnew, hold, hm', PType.page, maskOf, RegWrite.dpt]
  all_goals (cases h2 : d.armed (448 + n) m <;> simp [bit, h2])
  try (congr 2; exact w16 _ _)
  try (congr 1; simp [bits]; omega)
  try simp [bit]

theorem Dev.regWrite_swap {d : Dev} {m : Fn} {n : PortNo} (h : d.mayWriteReg m .dpt n DPT_PAIR_CMD) (ha : d.armed (448 + n) m = true) :
    d.regWrite m .dpt n DPT_PAIR_CMD 1 = (d.setArm (448 + n) m false).askSwap n := by
  obtain ⟨x, hm', ht, hi, ho, har, hw, hm, hold, hnew, e⟩ := Dev.regWrite_reg (w := 1) (r := ⟨0x08C, 0, false, [⟨0, 0, .wok, .any⟩]⟩)
    (mask := 1) (by simp [PType.count] <;> omega) (by first | decide | (simp only [FLT_STICKY, DMA_TMR_CTL]; omega)) h (by unfold anyDesc regDesc regMap; first | rfl | (rw [if_neg (by decide), if_neg (by simp)]; dsimp only; split <;> rfl) | (revert k; decide)) (by first | decide | (simp only [FLT_STICKY, DMA_TMR_CTL]; omega)) rfl (by simp [Dev.accepts])
    (by simp only [PType.page, show d.armed _ m = true from ha]; generalize d.acc.lock = l; revert l; decide) (by decide)
    (by first | rfl | simp [RegDesc.violates, RegDesc.keyed, AccCode.keyed, FieldDesc.val, bits, Legal.ok, PType.page, ha])
  rw [e]
  simp [RegWrite.effect, RegWrite.store, ht, ho, hi, RegDesc.keyed, AccCode.keyed, RegDesc.storedMask, AccCode.stored, RegWrite.on, RegWrite.takes, hw, hm, hnew, hold, hm', PType.page, maskOf, RegWrite.dpt, ha]
  try (split <;> simp [bit])
  try (congr 2; exact w16 _ _)
  try (congr 1; simp [bits]; omega)
  try simp [bit]

theorem Dev.regWrite_channelEnable {d : Dev} {m : Fn} {ch : ChanNo} (h : d.mayWriteReg m .chan ch DMA_CH_CTL)  :
    d.regWrite m .chan ch DMA_CH_CTL 1 = (d.setArm (640 + ch) m false).writeChanEn ch true := by
  obtain ⟨x, hm', ht, hi, ho, har, hw, hm, hold, hnew, e⟩ := Dev.regWrite_reg (w := 1) (r := ⟨0x040, 0, false, [⟨2, 2, .wok, .any⟩, ⟨1, 1, .wo, .any⟩, ⟨0, 0, .dev, .any⟩]⟩)
    (mask := if d.armed (640 + ch) m then 7 else 3) (by simp [PType.count] <;> omega) (by first | decide | (simp only [FLT_STICKY, DMA_TMR_CTL]; omega)) h (by unfold anyDesc regDesc regMap; first | rfl | (rw [if_neg (by decide), if_neg (by simp)]; dsimp only; split <;> rfl) | (revert k; decide)) (by first | decide | (simp only [FLT_STICKY, DMA_TMR_CTL]; omega)) rfl (by simp [Dev.accepts])
    (by simp only [PType.page]; generalize d.armed _ _ = a; generalize d.acc.lock = l; revert a l; decide) (by split <;> decide)
    (by first | rfl | simp [RegDesc.violates, RegDesc.keyed, AccCode.keyed, FieldDesc.val, bits, Legal.ok, PType.page])
  rw [e]
  simp [RegWrite.effect, RegWrite.store, ht, ho, hi, RegDesc.keyed, AccCode.keyed, RegDesc.storedMask, AccCode.stored, RegWrite.on, RegWrite.takes, hw, hm, hnew, hold, hm', PType.page, maskOf, RegWrite.chan]
  all_goals (cases h2 : d.armed (640 + ch) m <;> simp [bit, h2])
  try (congr 2; exact w16 _ _)
  try (congr 1; simp [bits]; omega)
  try simp [bit]

theorem Dev.regWrite_channelDisable {d : Dev} {m : Fn} {ch : ChanNo} (h : d.mayWriteReg m .chan ch DMA_CH_CTL)  :
    d.regWrite m .chan ch DMA_CH_CTL 0 = (d.setArm (640 + ch) m false).writeChanEn ch false := by
  obtain ⟨x, hm', ht, hi, ho, har, hw, hm, hold, hnew, e⟩ := Dev.regWrite_reg (w := 0) (r := ⟨0x040, 0, false, [⟨2, 2, .wok, .any⟩, ⟨1, 1, .wo, .any⟩, ⟨0, 0, .dev, .any⟩]⟩)
    (mask := if d.armed (640 + ch) m then 7 else 3) (by simp [PType.count] <;> omega) (by first | decide | (simp only [FLT_STICKY, DMA_TMR_CTL]; omega)) h (by unfold anyDesc regDesc regMap; first | rfl | (rw [if_neg (by decide), if_neg (by simp)]; dsimp only; split <;> rfl) | (revert k; decide)) (by first | decide | (simp only [FLT_STICKY, DMA_TMR_CTL]; omega)) rfl (by simp [Dev.accepts])
    (by simp only [PType.page]; generalize d.armed _ _ = a; generalize d.acc.lock = l; revert a l; decide) (by split <;> decide)
    (by first | rfl | simp [RegDesc.violates, RegDesc.keyed, AccCode.keyed, FieldDesc.val, bits, Legal.ok, PType.page])
  rw [e]
  simp [RegWrite.effect, RegWrite.store, ht, ho, hi, RegDesc.keyed, AccCode.keyed, RegDesc.storedMask, AccCode.stored, RegWrite.on, RegWrite.takes, hw, hm, hnew, hold, hm', PType.page, maskOf, RegWrite.chan]
  all_goals (cases h2 : d.armed (640 + ch) m <;> simp [bit, h2])
  try (congr 2; exact w16 _ _)
  try (congr 1; simp [bits]; omega)
  try simp [bit]

theorem Dev.regWrite_clut {d : Dev} {m : Fn} {w : Word} (h : d.mayWriteReg m .gth 0 GTH_CLUT_DATA)  :
    d.regWrite m .gth 0 GTH_CLUT_DATA w = d.writeClut w := by
  obtain ⟨x, hm', ht, hi, ho, har, hw, hm, hold, hnew, e⟩ := Dev.regWrite_reg (w := w) (r := ⟨0x064, 0, false, [⟨31, 0, .dev, .any⟩]⟩)
    (mask := 0xFFFFFFFF) (by simp [PType.count] <;> omega) (by first | decide | (simp only [FLT_STICKY, DMA_TMR_CTL]; omega)) h (by unfold anyDesc regDesc regMap; first | rfl | (rw [if_neg (by decide), if_neg (by simp)]; dsimp only; split <;> rfl) | (revert k; decide)) (by first | decide | (simp only [FLT_STICKY, DMA_TMR_CTL]; omega)) rfl (by simp [Dev.accepts])
    (by generalize d.armed _ _ = a; generalize d.acc.lock = l; cases a <;> cases l <;> first | rfl | (simp [RegDesc.takenMask, FieldDesc.takes, Legal.ok, AccCode.keyed, AccCode.locked]; done) | (simp [RegDesc.takenMask, FieldDesc.takes, Legal.ok, AccCode.keyed, AccCode.locked]; decide)) (by decide)
    (by first | rfl | simp [RegDesc.violates, RegDesc.keyed, AccCode.keyed, FieldDesc.val, bits, Legal.ok, PType.page])
  rw [e]
  simp [RegWrite.effect, RegWrite.store, ht, ho, hi, RegDesc.keyed, AccCode.keyed, RegDesc.storedMask, AccCode.stored, RegWrite.on, RegWrite.takes, hw, hm, hnew, hold, hm', PType.page, maskOf, RegWrite.gth]
  try (split <;> simp [bit])
  try (congr 2; exact w16 _ _)
  try (congr 1; simp [bits]; omega)
  try simp [bit]

theorem Dev.regWrite_coef {d : Dev} {m : Fn} {w : Word} (h : d.mayWriteReg m .gth 0 GTH_COEF_DATA)  :
    d.regWrite m .gth 0 GTH_COEF_DATA w = d.writeCoef w := by
  obtain ⟨x, hm', ht, hi, ho, har, hw, hm, hold, hnew, e⟩ := Dev.regWrite_reg (w := w) (r := ⟨0x06C, 0, false, [⟨15, 0, .dev, .any⟩]⟩)
    (mask := 0xFFFF) (by simp [PType.count] <;> omega) (by first | decide | (simp only [FLT_STICKY, DMA_TMR_CTL]; omega)) h (by unfold anyDesc regDesc regMap; first | rfl | (rw [if_neg (by decide), if_neg (by simp)]; dsimp only; split <;> rfl) | (revert k; decide)) (by first | decide | (simp only [FLT_STICKY, DMA_TMR_CTL]; omega)) rfl (by simp [Dev.accepts])
    (by generalize d.armed _ _ = a; generalize d.acc.lock = l; cases a <;> cases l <;> first | rfl | (simp [RegDesc.takenMask, FieldDesc.takes, Legal.ok, AccCode.keyed, AccCode.locked]; done) | (simp [RegDesc.takenMask, FieldDesc.takes, Legal.ok, AccCode.keyed, AccCode.locked]; decide)) (by decide)
    (by first | rfl | simp [RegDesc.violates, RegDesc.keyed, AccCode.keyed, FieldDesc.val, bits, Legal.ok, PType.page])
  rw [e]
  simp [RegWrite.effect, RegWrite.store, ht, ho, hi, RegDesc.keyed, AccCode.keyed, RegDesc.storedMask, AccCode.stored, RegWrite.on, RegWrite.takes, hw, hm, hnew, hold, hm', PType.page, maskOf, RegWrite.gth]
  try (split <;> simp [bit])
  try (congr 2; exact w16 _ _)
  try (congr 1; simp [bits]; omega)
  try simp [bit]

theorem Dev.regWrite_ics {d : Dev} {m : Fn} {w : Word} (h : d.mayWriteReg m .csp 0 CSP_ICS_DATA)  :
    d.regWrite m .csp 0 CSP_ICS_DATA w = d.writeIcs w := by
  obtain ⟨x, hm', ht, hi, ho, har, hw, hm, hold, hnew, e⟩ := Dev.regWrite_reg (w := w) (r := ⟨0x084, 0, false, [⟨31, 0, .dev, .any⟩]⟩)
    (mask := 0xFFFFFFFF) (by simp [PType.count] <;> omega) (by first | decide | (simp only [FLT_STICKY, DMA_TMR_CTL]; omega)) h (by unfold anyDesc regDesc regMap; first | rfl | (rw [if_neg (by decide), if_neg (by simp)]; dsimp only; split <;> rfl) | (revert k; decide)) (by first | decide | (simp only [FLT_STICKY, DMA_TMR_CTL]; omega)) rfl (by simp [Dev.accepts])
    (by generalize d.armed _ _ = a; generalize d.acc.lock = l; cases a <;> cases l <;> first | rfl | (simp [RegDesc.takenMask, FieldDesc.takes, Legal.ok, AccCode.keyed, AccCode.locked]; done) | (simp [RegDesc.takenMask, FieldDesc.takes, Legal.ok, AccCode.keyed, AccCode.locked]; decide)) (by decide)
    (by first | rfl | simp [RegDesc.violates, RegDesc.keyed, AccCode.keyed, FieldDesc.val, bits, Legal.ok, PType.page])
  rw [e]
  simp [RegWrite.effect, RegWrite.store, ht, ho, hi, RegDesc.keyed, AccCode.keyed, RegDesc.storedMask, AccCode.stored, RegWrite.on, RegWrite.takes, hw, hm, hnew, hold, hm', PType.page, maskOf, RegWrite.csp]
  try (split <;> simp [bit])
  try (congr 2; exact w16 _ _)
  try (congr 1; simp [bits]; omega)
  try simp [bit]

theorem Dev.regWrite_lut {d : Dev} {m : Fn} {c : CanvasNo} {w : Word} (h : d.mayWriteReg m .csp c CSP_LUT_DATA)  :
    d.regWrite m .csp c CSP_LUT_DATA w = d.writeLut c w := by
  obtain ⟨x, hm', ht, hi, ho, har, hw, hm, hold, hnew, e⟩ := Dev.regWrite_reg (w := w) (r := ⟨0x074, 0, false, [⟨31, 16, .dev, .any⟩, ⟨15, 0, .dev, .any⟩]⟩)
    (mask := 0xFFFFFFFF) (by simp [PType.count] <;> omega) (by first | decide | (simp only [FLT_STICKY, DMA_TMR_CTL]; omega)) h (by unfold anyDesc regDesc regMap; first | rfl | (rw [if_neg (by decide), if_neg (by simp)]; dsimp only; split <;> rfl) | (revert k; decide)) (by first | decide | (simp only [FLT_STICKY, DMA_TMR_CTL]; omega)) rfl (by simp [Dev.accepts])
    (by generalize d.armed _ _ = a; generalize d.acc.lock = l; cases a <;> cases l <;> first | rfl | (simp [RegDesc.takenMask, FieldDesc.takes, Legal.ok, AccCode.keyed, AccCode.locked]; done) | (simp [RegDesc.takenMask, FieldDesc.takes, Legal.ok, AccCode.keyed, AccCode.locked]; decide)) (by decide)
    (by first | rfl | simp [RegDesc.violates, RegDesc.keyed, AccCode.keyed, FieldDesc.val, bits, Legal.ok, PType.page])
  rw [e]
  simp [RegWrite.effect, RegWrite.store, ht, ho, hi, RegDesc.keyed, AccCode.keyed, RegDesc.storedMask, AccCode.stored, RegWrite.on, RegWrite.takes, hw, hm, hnew, hold, hm', PType.page, maskOf, RegWrite.csp]
  try (split <;> simp [bit])
  try (congr 2; exact w16 _ _)
  try (congr 1; simp [bits]; omega)
  try simp [bit]

theorem Dev.regWrite_mrvStart {d : Dev} {m : Fn}  (h : d.mayWriteReg m .mrv 0 MRV_CTL)  :
    d.regWrite m .mrv 0 MRV_CTL 1 = d.startMarver := by
  obtain ⟨x, hm', ht, hi, ho, har, hw, hm, hold, hnew, e⟩ := Dev.regWrite_reg (w := 1) (r := ⟨0x040, 0, false, [⟨1, 1, .wo, .any⟩, ⟨0, 0, .wo, .any⟩]⟩)
    (mask := 3) (by simp [PType.count] <;> omega) (by first | decide | (simp only [FLT_STICKY, DMA_TMR_CTL]; omega)) h (by unfold anyDesc regDesc regMap; first | rfl | (rw [if_neg (by decide), if_neg (by simp)]; dsimp only; split <;> rfl) | (revert k; decide)) (by first | decide | (simp only [FLT_STICKY, DMA_TMR_CTL]; omega)) rfl (by simp [Dev.accepts])
    (by generalize d.armed _ _ = a; generalize d.acc.lock = l; revert a l; decide) (by decide)
    (by first | rfl | simp [RegDesc.violates, RegDesc.keyed, AccCode.keyed, FieldDesc.val, bits, Legal.ok, PType.page])
  rw [e]
  simp [RegWrite.effect, RegWrite.store, ht, ho, hi, RegDesc.keyed, AccCode.keyed, RegDesc.storedMask, AccCode.stored, RegWrite.on, RegWrite.takes, hw, hm, hnew, hold, hm', PType.page, maskOf, RegWrite.mrv]
  try (split <;> simp [bit])
  try (congr 2; exact w16 _ _)
  try (congr 1; simp [bits]; omega)
  try simp [bit]

theorem Dev.regWrite_mrvAbort {d : Dev} {m : Fn}  (h : d.mayWriteReg m .mrv 0 MRV_CTL)  :
    d.regWrite m .mrv 0 MRV_CTL 2 = d.abortMarver := by
  obtain ⟨x, hm', ht, hi, ho, har, hw, hm, hold, hnew, e⟩ := Dev.regWrite_reg (w := 2) (r := ⟨0x040, 0, false, [⟨1, 1, .wo, .any⟩, ⟨0, 0, .wo, .any⟩]⟩)
    (mask := 3) (by simp [PType.count] <;> omega) (by first | decide | (simp only [FLT_STICKY, DMA_TMR_CTL]; omega)) h (by unfold anyDesc regDesc regMap; first | rfl | (rw [if_neg (by decide), if_neg (by simp)]; dsimp only; split <;> rfl) | (revert k; decide)) (by first | decide | (simp only [FLT_STICKY, DMA_TMR_CTL]; omega)) rfl (by simp [Dev.accepts])
    (by generalize d.armed _ _ = a; generalize d.acc.lock = l; revert a l; decide) (by decide)
    (by first | rfl | simp [RegDesc.violates, RegDesc.keyed, AccCode.keyed, FieldDesc.val, bits, Legal.ok, PType.page])
  rw [e]
  simp [RegWrite.effect, RegWrite.store, ht, ho, hi, RegDesc.keyed, AccCode.keyed, RegDesc.storedMask, AccCode.stored, RegWrite.on, RegWrite.takes, hw, hm, hnew, hold, hm', PType.page, maskOf, RegWrite.mrv]
  try (split <;> simp [bit])
  try (congr 2; exact w16 _ _)
  try (congr 1; simp [bits]; omega)
  try simp [bit]

theorem Dev.regWrite_siteFence {d : Dev} {m : Fn} {k : SiteNo} (h : d.mayWriteReg m .site k MCT_SITE_CTL) (ha : d.armed (17 + k) m = true) :
    d.regWrite m .site k MCT_SITE_CTL 1 = (d.setArm (17 + k) m false).fenceSite k 3 := by
  obtain ⟨x, hm', ht, hi, ho, har, hw, hm, hold, hnew, e⟩ := Dev.regWrite_reg (w := 1) (r := ⟨0x040, 0, false, [⟨0, 0, .wok, .any⟩]⟩)
    (mask := 1) (by simp [PType.count] <;> omega) (by first | decide | (simp only [FLT_STICKY, DMA_TMR_CTL]; omega)) h (by unfold anyDesc regDesc regMap; first | rfl | (rw [if_neg (by decide), if_neg (by simp)]; dsimp only; split <;> rfl) | (revert k; decide)) (by first | decide | (simp only [FLT_STICKY, DMA_TMR_CTL]; omega)) rfl (by simp [Dev.accepts])
    (by simp only [PType.page, show d.armed _ m = true from ha]; generalize d.acc.lock = l; revert l; decide) (by decide)
    (by first | rfl | simp [RegDesc.violates, RegDesc.keyed, AccCode.keyed, FieldDesc.val, bits, Legal.ok, PType.page, ha])
  rw [e]
  simp [RegWrite.effect, RegWrite.store, ht, ho, hi, RegDesc.keyed, AccCode.keyed, RegDesc.storedMask, AccCode.stored, RegWrite.on, RegWrite.takes, hw, hm, hnew, hold, hm', PType.page, maskOf, RegWrite.site, ha]
  try (split <;> simp [bit])
  try (congr 2; exact w16 _ _)
  try (congr 1; simp [bits]; omega)
  try simp [bit]

theorem Dev.regWrite_accData3 {d : Dev} {m : Fn} {w : Word} (h : d.mayWriteReg m .acc 0 (ACC_DATA + 12)) (hl : d.acc.lock = false) :
    d.regWrite m .acc 0 (ACC_DATA + 12) w = (d.setReg .acc 0 (ACC_DATA + 12) w).commitEntry := by
  obtain ⟨x, hm', ht, hi, ho, har, hw, hm, hold, hnew, e⟩ := Dev.regWrite_reg (w := w) (r := ⟨0x058, 0, false, [⟨31, 0, .rl, .any⟩]⟩)
    (mask := 0xFFFFFFFF) (by simp [PType.count] <;> omega) (by first | decide | (simp only [FLT_STICKY, DMA_TMR_CTL]; omega)) h (by unfold anyDesc regDesc regMap; first | rfl | (rw [if_neg (by decide), if_neg (by simp)]; dsimp only; split <;> rfl) | (revert k; decide)) (by first | decide | (simp only [FLT_STICKY, DMA_TMR_CTL]; omega)) rfl (by simp [Dev.accepts])
    (by rw [hl]; generalize d.armed _ _ = a; cases a <;> rfl) (by decide)
    (by first | rfl | simp [RegDesc.violates, RegDesc.keyed, AccCode.keyed, FieldDesc.val, bits, Legal.ok, PType.page])
  rw [e]
  simp [RegWrite.effect, RegWrite.store, ht, ho, hi, RegDesc.keyed, AccCode.keyed, RegDesc.storedMask, AccCode.stored, RegWrite.on, RegWrite.takes, hw, hm, hnew, hold, hm', PType.page, maskOf, show ¬ ACC_DATA + 12 = ACC_CTL by decide, show ¬ ACC_DATA + 12 = ACC_SEL by decide, RegWrite.acc]
  try (split <;> simp [bit])
  try (congr 2; exact w16 _ _)
  try (congr 1; simp [bits]; omega)
  try simp [bit]

theorem Dev.regWrite_lock {d : Dev} {m : Fn}  (h : d.mayWriteReg m .acc 0 ACC_CTL) (hl : d.acc.lock = false) :
    d.regWrite m .acc 0 ACC_CTL 1 = d.lockTables := by
  obtain ⟨x, hm', ht, hi, ho, har, hw, hm, hold, hnew, e⟩ := Dev.regWrite_reg (w := 1) (r := ⟨0x040, 0, false, [⟨0, 0, .devl, .any⟩]⟩)
    (mask := 1) (by simp [PType.count] <;> omega) (by first | decide | (simp only [FLT_STICKY, DMA_TMR_CTL]; omega)) h (by unfold anyDesc regDesc regMap; first | rfl | (rw [if_neg (by decide), if_neg (by simp)]; dsimp only; split <;> rfl) | (revert k; decide)) (by first | decide | (simp only [FLT_STICKY, DMA_TMR_CTL]; omega)) rfl (by simp [Dev.accepts])
    (by rw [hl]; generalize d.armed _ _ = a; revert a; decide) (by decide)
    (by first | rfl | simp [RegDesc.violates, RegDesc.keyed, AccCode.keyed, FieldDesc.val, bits, Legal.ok, PType.page])
  rw [e]
  simp [RegWrite.effect, RegWrite.store, ht, ho, hi, RegDesc.keyed, AccCode.keyed, RegDesc.storedMask, AccCode.stored, RegWrite.on, RegWrite.takes, hw, hm, hnew, hold, hm', PType.page, maskOf, show ¬ ACC_DATA + 12 = ACC_CTL by decide, show ¬ ACC_DATA + 12 = ACC_SEL by decide, RegWrite.acc]
  try (split <;> simp [bit])
  try (congr 2; exact w16 _ _)
  try (congr 1; simp [bits]; omega)
  try simp [bit]

theorem Dev.regWrite_logRead {d : Dev} {m : Fn} {w : Word} (h : d.mayWriteReg m .log 0 LOG_RD_SEQ)  :
    d.regWrite m .log 0 LOG_RD_SEQ w = (d.setReg .log 0 LOG_RD_SEQ w).readLog m w := by
  obtain ⟨x, hm', ht, hi, ho, har, hw, hm, hold, hnew, e⟩ := Dev.regWrite_reg (w := w) (r := ⟨0x044, 0, false, [⟨31, 0, .rw, .any⟩]⟩)
    (mask := 0xFFFFFFFF) (by simp [PType.count] <;> omega) (by first | decide | (simp only [FLT_STICKY, DMA_TMR_CTL]; omega)) h (by unfold anyDesc regDesc regMap; first | rfl | (rw [if_neg (by decide), if_neg (by simp)]; dsimp only; split <;> rfl) | (revert k; decide)) (by first | decide | (simp only [FLT_STICKY, DMA_TMR_CTL]; omega)) rfl (by simp [Dev.accepts])
    (by generalize d.armed _ _ = a; generalize d.acc.lock = l; cases a <;> cases l <;> first | rfl | (simp [RegDesc.takenMask, FieldDesc.takes, Legal.ok, AccCode.keyed, AccCode.locked]; done) | (simp [RegDesc.takenMask, FieldDesc.takes, Legal.ok, AccCode.keyed, AccCode.locked]; decide)) (by decide)
    (by first | rfl | simp [RegDesc.violates, RegDesc.keyed, AccCode.keyed, FieldDesc.val, bits, Legal.ok, PType.page])
  rw [e]
  simp [RegWrite.effect, RegWrite.store, ht, ho, hi, RegDesc.keyed, AccCode.keyed, RegDesc.storedMask, AccCode.stored, RegWrite.on, RegWrite.takes, hw, hm, hnew, hold, hm', PType.page, maskOf, RegWrite.log]
  try (split <;> simp [bit])
  try (congr 2; exact w16 _ _)
  try (congr 1; simp [bits]; omega)
  try simp [bit]


/-! ### Writes that give one field a value -/

/-- A read of a register: its stored fields as last written, and its status fields. -/
theorem Dev.fields_reg {d : Dev} {t : PType} {i off : Nat} {r : RegDesc} {k a st : Word} (ho : off % 0x1000 / 4 * 4 = off)
    (h₀ : ¬ off < 0x40) (hr : regDesc t i off = some r) (hk : r.storedMask = k) (ha : r.aliasMask = a)
    (hs : d.status t i off = st) : d.fields t i off = ((d.view t i off &&& k) ||| st) &&& a := by
  unfold Dev.fields Dev.readPage
  rw [ho]
  simp only [if_neg h₀, hr, hk, hs, Option.map_some, Option.getD_some, ha]

theorem Dev.fields_dpt (d : Dev) (n : Nat) : d.fields .dpt n DPT_CTL = flag 0 (d.port n).en := by
  rw [Dev.fields_reg (by decide) (by decide) (r := ⟨0x040, 0, false, [⟨2, 2, .wok, .any⟩, ⟨1, 1, .wo, .any⟩, ⟨0, 0, .dev, .any⟩]⟩) (k := 0) (a := 1) (st := flag 0 (d.port n).en) rfl rfl rfl rfl]
  cases (d.port n).en <;> simp [flag]

theorem Dev.fields_chan (d : Dev) (n : Nat) : d.fields .chan n DMA_CH_CTL = flag 0 (d.chan n).en := by
  rw [Dev.fields_reg (by decide) (by decide) (r := ⟨0x040, 0, false, [⟨2, 2, .wok, .any⟩, ⟨1, 1, .wo, .any⟩, ⟨0, 0, .dev, .any⟩]⟩) (k := 0) (a := 1) (st := flag 0 (d.chan n).en) rfl rfl rfl rfl]
  cases (d.chan n).en <;> simp [flag]

theorem cvuDesc (e : Nat) : regDesc .cvu e CVU_CTL = some ⟨0x040, 0, false, [⟨6, 6, .rw, .any⟩, ⟨5, 5, .rw, .any⟩, ⟨4, 4, .rw, .any⟩, ⟨3, 3, .wok, .any⟩, ⟨2, 2, .wo, .any⟩, ⟨1, 1, .wo, .any⟩, ⟨0, 0, .dev, .any⟩]⟩ := by
  unfold regDesc regMap
  rw [if_neg (by simp)]; dsimp only; split <;> rfl

theorem Dev.fields_cvu (d : Dev) (e : Nat) :
    d.fields .cvu e CVU_CTL = ((d.view .cvu e CVU_CTL &&& 0x70) ||| flag 0 (d.engine e).en) &&& 0x71 :=
  Dev.fields_reg (by decide) (by decide) (cvuDesc e) rfl rfl rfl

theorem tmbFields (d : Dev) :
    d.fields .tmb 0 TMB_CTL = d.view .tmb 0 TMB_CTL &&& 0xC00003FF := by
  rw [Dev.fields_reg (by decide) (by decide) (r := ⟨0x040, 0x00000064, false, [⟨31, 31, .rw, .any⟩, ⟨30, 30, .rw, .any⟩, ⟨29, 29, .wok, .any⟩, ⟨9, 0, .rw, .range 1 1000⟩]⟩) (k := 0xC00003FF) (a := 0xC00003FF) (st := 0) rfl rfl rfl rfl]
  simp [BitVec.and_assoc]

theorem Dev.regWrite_field {d : Dev} {m : Nat} {t : PType} {i off : Nat} {c s w : Word}
    (h : (d.fields t i off &&& ~~~c) ||| s = w) : d.fieldWrite m t i off c s = d.regWrite m t i off w := by
  unfold Dev.fieldWrite; rw [h]


theorem Dev.fieldWrite_retrain {d : Dev} {m : Fn} {n : PortNo} (h : d.mayWriteReg m .dpt n DPT_CTL)  :
    d.fieldWrite m .dpt n DPT_CTL 0 2 = ((d.setArm (448 + n) m false).writePortEn n (d.port n).en).retrainPort n := by
  rw [Dev.regWrite_field (w := flag 0 (d.port n).en ||| 2) (by rw [Dev.fields_dpt]; simp [wAll])]
  obtain ⟨x, hm', ht, hi, ho, har, hw, hm, hold, hnew, e⟩ := Dev.regWrite_reg (w := flag 0 (d.port n).en ||| 2) (r := ⟨0x040, 0, false, [⟨2, 2, .wok, .any⟩, ⟨1, 1, .wo, .any⟩, ⟨0, 0, .dev, .any⟩]⟩)
    (mask := if d.armed (448 + n) m then 7 else 3) (by simp [PType.count]) (by decide) h rfl (by decide) rfl (by simp [Dev.accepts])
    (by simp only [PType.page]; generalize d.armed _ _ = a; generalize d.acc.lock = l; generalize (d.port n).en = e; revert a l e; decide) (by split <;> decide)
    (by simp only [PType.page]; simp [RegDesc.violates, RegDesc.keyed, AccCode.keyed, FieldDesc.val, bits, Legal.ok]; cases (d.port n).en <;> simp [flag])
  rw [e]
  cases h2 : d.armed (448 + n) m <;> cases h3 : (d.port n).en <;>
    simp [RegWrite.effect, RegWrite.store, ht, ho, hi, RegDesc.keyed, AccCode.keyed, RegDesc.storedMask, AccCode.stored, RegWrite.on, RegWrite.takes, hw, hm, hnew, hold, hm', PType.page, maskOf, RegWrite.dpt, h2, h3, flag, bit] 

theorem Dev.fieldWrite_portFrel {d : Dev} {m : Fn} {n : PortNo} (h : d.mayWriteReg m .dpt n DPT_CTL) (ha : d.armed (448 + n) m = true) :
    d.fieldWrite m .dpt n DPT_CTL 0 4 = ((d.setArm (448 + n) m false).writePortEn n (d.port n).en).releasePort n := by
  rw [Dev.regWrite_field (w := flag 0 (d.port n).en ||| 4) (by rw [Dev.fields_dpt]; simp [wAll])]
  obtain ⟨x, hm', ht, hi, ho, har, hw, hm, hold, hnew, e⟩ := Dev.regWrite_reg (w := flag 0 (d.port n).en ||| 4) (r := ⟨0x040, 0, false, [⟨2, 2, .wok, .any⟩, ⟨1, 1, .wo, .any⟩, ⟨0, 0, .dev, .any⟩]⟩)
    (mask := if d.armed (448 + n) m then 7 else 3) (by simp [PType.count]) (by decide) h rfl (by decide) rfl (by simp [Dev.accepts])
    (by simp only [PType.page]; generalize d.armed _ _ = a; generalize d.acc.lock = l; generalize (d.port n).en = e; revert a l e; decide) (by split <;> decide)
    (by simp [PType.page, ha])
  rw [e]
  cases h2 : d.armed (448 + n) m <;> cases h3 : (d.port n).en <;>
    simp [RegWrite.effect, RegWrite.store, ht, ho, hi, RegDesc.keyed, AccCode.keyed, RegDesc.storedMask, AccCode.stored, RegWrite.on, RegWrite.takes, hw, hm, hnew, hold, hm', PType.page, maskOf, RegWrite.dpt, h2, h3, flag, bit] <;> simp [ha] at h2

theorem Dev.fieldWrite_kick {d : Dev} {m : Fn} {ch : ChanNo} (h : d.mayWriteReg m .chan ch DMA_CH_CTL)  :
    d.fieldWrite m .chan ch DMA_CH_CTL 0 2 = ((d.setArm (640 + ch) m false).writeChanEn ch (d.chan ch).en).askStart ch (.kick m) := by
  rw [Dev.regWrite_field (w := flag 0 (d.chan ch).en ||| 2) (by rw [Dev.fields_chan]; simp [wAll])]
  obtain ⟨x, hm', ht, hi, ho, har, hw, hm, hold, hnew, e⟩ := Dev.regWrite_reg (w := flag 0 (d.chan ch).en ||| 2) (r := ⟨0x040, 0, false, [⟨2, 2, .wok, .any⟩, ⟨1, 1, .wo, .any⟩, ⟨0, 0, .dev, .any⟩]⟩)
    (mask := if d.armed (640 + ch) m then 7 else 3) (by simp [PType.count]) (by decide) h rfl (by decide) rfl (by simp [Dev.accepts])
    (by simp only [PType.page]; generalize d.armed _ _ = a; generalize d.acc.lock = l; generalize (d.chan ch).en = e; revert a l e; decide) (by split <;> decide)
    (by simp only [PType.page]; simp [RegDesc.violates, RegDesc.keyed, AccCode.keyed, FieldDesc.val, bits, Legal.ok]; cases (d.chan ch).en <;> simp [flag])
  rw [e]
  cases h2 : d.armed (640 + ch) m <;> cases h3 : (d.chan ch).en <;>
    simp [RegWrite.effect, RegWrite.store, ht, ho, hi, RegDesc.keyed, AccCode.keyed, RegDesc.storedMask, AccCode.stored, RegWrite.on, RegWrite.takes, hw, hm, hnew, hold, hm', PType.page, maskOf, RegWrite.chan, h2, h3, flag, bit] 

theorem Dev.fieldWrite_dmaFrel {d : Dev} {m : Fn} {ch : ChanNo} (h : d.mayWriteReg m .chan ch DMA_CH_CTL) (ha : d.armed (640 + ch) m = true) :
    d.fieldWrite m .chan ch DMA_CH_CTL 0 4 = ((d.setArm (640 + ch) m false).writeChanEn ch (d.chan ch).en).releaseChan ch := by
  rw [Dev.regWrite_field (w := flag 0 (d.chan ch).en ||| 4) (by rw [Dev.fields_chan]; simp [wAll])]
  obtain ⟨x, hm', ht, hi, ho, har, hw, hm, hold, hnew, e⟩ := Dev.regWrite_reg (w := flag 0 (d.chan ch).en ||| 4) (r := ⟨0x040, 0, false, [⟨2, 2, .wok, .any⟩, ⟨1, 1, .wo, .any⟩, ⟨0, 0, .dev, .any⟩]⟩)
    (mask := if d.armed (640 + ch) m then 7 else 3) (by simp [PType.count]) (by decide) h rfl (by decide) rfl (by simp [Dev.accepts])
    (by simp only [PType.page]; generalize d.armed _ _ = a; generalize d.acc.lock = l; generalize (d.chan ch).en = e; revert a l e; decide) (by split <;> decide)
    (by simp [PType.page, ha])
  rw [e]
  cases h2 : d.armed (640 + ch) m <;> cases h3 : (d.chan ch).en <;>
    simp [RegWrite.effect, RegWrite.store, ht, ho, hi, RegDesc.keyed, AccCode.keyed, RegDesc.storedMask, AccCode.stored, RegWrite.on, RegWrite.takes, hw, hm, hnew, hold, hm', PType.page, maskOf, RegWrite.chan, h2, h3, flag, bit] <;> simp [ha] at h2

theorem bit_and (a b : Word) (n : Nat) : bit (a &&& b) n = (bit a n && bit b n) := by simp [bit]
theorem bit_or (a b : Word) (n : Nat) : bit (a ||| b) n = (bit a n || bit b n) := by simp [bit]
theorem bit_not (a : Word) (n : Nat) (h : n < 32) : bit (~~~a) n = !bit a n := by simp [bit, h]

theorem bits_bit {w : Word} {n : Nat} (h : bit w n = false) : bits w n n = 0 := by
  unfold bits; unfold bit BitVec.getLsbD at h
  rw [Nat.testBit_eq_decide_div_mod_eq] at h
  rw [Nat.shiftRight_eq_div_pow, show n + 1 - n = 1 by omega]
  have := of_decide_eq_false h
  omega

/-- A write of `CVU_CTL`: the options, then `EN`, `FREL`, `STOP` and `START`. -/
theorem Dev.regWrite_cvuCtl {d : Dev} {m : Fn} {e : EngineNo} {w : Word} (h : d.mayWriteReg m .cvu e CVU_CTL)
    (h3 : d.armed (704 + e) m = false → bit w 3 = false) :
    d.regWrite m .cvu e CVU_CTL w =
      (let d := (d.setArm (704 + e) m false).setReg .cvu e CVU_CTL (w &&& 0x70)
       let d := d.writeEngineEn e (bit w 0)
       let d := if bit w 3 then d.releaseEngine e else d
       let d := if bit w 2 then d.stopScan e else d
       if bit w 1 then d.cvuKick e m else d) := by
  obtain ⟨x, hm', ht, hi, ho, har, hw, hm, hold, hnew, e'⟩ := Dev.regWrite_reg (w := w) (r := (⟨0x040, 0, false, [⟨6, 6, .rw, .any⟩, ⟨5, 5, .rw, .any⟩, ⟨4, 4, .rw, .any⟩, ⟨3, 3, .wok, .any⟩, ⟨2, 2, .wo, .any⟩, ⟨1, 1, .wo, .any⟩, ⟨0, 0, .dev, .any⟩]⟩ : RegDesc))
    (mask := if d.armed (704 + e) m then 0x7F else 0x77) (by simp [PType.count]) (by decide) h (by unfold anyDesc; rw [if_neg (by decide)]; exact cvuDesc e) (by decide) rfl (by simp [Dev.accepts])
    (by simp only [PType.page]; generalize d.armed _ _ = a; generalize d.acc.lock = l; cases a <;> cases l <;> simp [RegDesc.takenMask, FieldDesc.takes, Legal.ok, AccCode.keyed, AccCode.locked] <;> rfl) (by split <;> decide)
    (by
      simp only [PType.page]
      cases h2 : d.armed (704 + e) m
      · have := h3 h2
        have hv : FieldDesc.val ⟨3, 3, .wok, .any⟩ w = 0 := bits_bit this
        simp [RegDesc.violates, RegDesc.keyed, AccCode.keyed, hv]
      · simp)
  rw [e']
  have hn : x.new = w &&& 0x70 := by
    rw [hnew, show RegDesc.storedMask (⟨0x040, 0, false, [⟨6, 6, .rw, .any⟩, ⟨5, 5, .rw, .any⟩, ⟨4, 4, .rw, .any⟩, ⟨3, 3, .wok, .any⟩, ⟨2, 2, .wo, .any⟩, ⟨1, 1, .wo, .any⟩, ⟨0, 0, .dev, .any⟩]⟩ : RegDesc) = 0x70 from rfl]
    generalize d.view _ _ _ = v
    cases d.armed (704 + e) m
    all_goals
      simp only [Bool.false_eq_true, if_false, if_true]
      apply BitVec.eq_of_getLsbD_eq
      intro k hk
      interval_cases k <;> simp
  have hs : ∀ n, n < 8 → x.on n = (bit w n && bit (if d.armed (704 + e) m then (0x7F : Word) else 0x77) n) := by
    intro n _; unfold RegWrite.on; rw [hw, hm, bit_and]
  have ht0 : x.takes 0 = true := by unfold RegWrite.takes; rw [hm]; split <;> decide
  have e0 := hs 0 (by omega); have e1 := hs 1 (by omega); have e2 := hs 2 (by omega); have e3 := hs 3 (by omega)
  have k0 : x.on 0 = bit w 0 := by rw [e0]; split <;> simp [bit]
  have k1 : x.on 1 = bit w 1 := by rw [e1]; split <;> simp [bit]
  have k2 : x.on 2 = bit w 2 := by rw [e2]; split <;> simp [bit]
  have k3 : x.on 3 = bit w 3 := by
    rw [e3]; cases h2 : d.armed (704 + e) m
    · rw [h3 h2]; rfl
    · simp [bit]
  unfold RegWrite.effect RegWrite.store RegWrite.cvu
  simp only [ht, ho, hi, hm', k0, k1, k2, k3, ht0, hn]
  rfl

theorem Dev.fieldWrite_cvuEnable {d : Dev} {m : Fn} {e : EngineNo} (h : d.mayWriteReg m .cvu e CVU_CTL)  :
    d.fieldWrite m .cvu e CVU_CTL 1 1 =
      ((d.setArm (704 + e) m false).setReg .cvu e CVU_CTL (d.view .cvu e CVU_CTL &&& 0x70)).writeEngineEn e true := by
  have hf := Dev.fields_cvu d e
  generalize hv : d.view .cvu e CVU_CTL = v at hf ⊢
  generalize hen : (d.engine e).en = en at hf ⊢
  rw [Dev.regWrite_field (by rw [hf]), Dev.regWrite_cvuCtl h]
  · have hn : (((((v &&& 0x70) ||| flag 0 en) &&& 0x71) &&& ~~~1) ||| 1) &&& 0x70 = v &&& 0x70 := by
      apply BitVec.eq_of_getLsbD_eq
      intro k hk
      cases en <;> interval_cases k <;> simp [flag]
    rw [hn]
    cases en <;> simp [bit_and, bit_or, bit_not] <;> simp [bit, flag]
  · intro h2
    cases en <;> simp [bit_and, bit_or, bit_not] <;> simp [bit, flag]

theorem Dev.fieldWrite_cvuDisable {d : Dev} {m : Fn} {e : EngineNo} (h : d.mayWriteReg m .cvu e CVU_CTL)  :
    d.fieldWrite m .cvu e CVU_CTL 1 0 =
      ((d.setArm (704 + e) m false).setReg .cvu e CVU_CTL (d.view .cvu e CVU_CTL &&& 0x70)).writeEngineEn e false := by
  have hf := Dev.fields_cvu d e
  generalize hv : d.view .cvu e CVU_CTL = v at hf ⊢
  generalize hen : (d.engine e).en = en at hf ⊢
  rw [Dev.regWrite_field (by rw [hf]), Dev.regWrite_cvuCtl h]
  · have hn : (((((v &&& 0x70) ||| flag 0 en) &&& 0x71) &&& ~~~1) ||| 0) &&& 0x70 = v &&& 0x70 := by
      apply BitVec.eq_of_getLsbD_eq
      intro k hk
      cases en <;> interval_cases k <;> simp [flag]
    rw [hn]
    cases en <;> simp [bit_and, bit_or, bit_not] <;> simp [bit, flag]
  · intro h2
    cases en <;> simp [bit_and, bit_or, bit_not] <;> simp [bit, flag]

theorem Dev.fieldWrite_cvuStart {d : Dev} {m : Fn} {e : EngineNo} (h : d.mayWriteReg m .cvu e CVU_CTL)  :
    d.fieldWrite m .cvu e CVU_CTL 0 2 =
      (((d.setArm (704 + e) m false).setReg .cvu e CVU_CTL (d.view .cvu e CVU_CTL &&& 0x70)).writeEngineEn e (d.engine e).en).cvuKick e m := by
  have hf := Dev.fields_cvu d e
  generalize hv : d.view .cvu e CVU_CTL = v at hf ⊢
  generalize hen : (d.engine e).en = en at hf ⊢
  rw [Dev.regWrite_field (by rw [hf]), Dev.regWrite_cvuCtl h]
  · have hn : (((((v &&& 0x70) ||| flag 0 en) &&& 0x71) &&& ~~~0) ||| 2) &&& 0x70 = v &&& 0x70 := by
      apply BitVec.eq_of_getLsbD_eq
      intro k hk
      cases en <;> interval_cases k <;> simp [flag]
    rw [hn]
    cases en <;> simp [bit_and, bit_or, bit_not] <;> simp [bit, flag]
  · intro h2
    cases en <;> simp [bit_and, bit_or, bit_not] <;> simp [bit, flag]

theorem Dev.fieldWrite_cvuStop {d : Dev} {m : Fn} {e : EngineNo} (h : d.mayWriteReg m .cvu e CVU_CTL)  :
    d.fieldWrite m .cvu e CVU_CTL 0 4 =
      (((d.setArm (704 + e) m false).setReg .cvu e CVU_CTL (d.view .cvu e CVU_CTL &&& 0x70)).writeEngineEn e (d.engine e).en).stopScan e := by
  have hf := Dev.fields_cvu d e
  generalize hv : d.view .cvu e CVU_CTL = v at hf ⊢
  generalize hen : (d.engine e).en = en at hf ⊢
  rw [Dev.regWrite_field (by rw [hf]), Dev.regWrite_cvuCtl h]
  · have hn : (((((v &&& 0x70) ||| flag 0 en) &&& 0x71) &&& ~~~0) ||| 4) &&& 0x70 = v &&& 0x70 := by
      apply BitVec.eq_of_getLsbD_eq
      intro k hk
      cases en <;> interval_cases k <;> simp [flag]
    rw [hn]
    cases en <;> simp [bit_and, bit_or, bit_not] <;> simp [bit, flag]
  · intro h2
    cases en <;> simp [bit_and, bit_or, bit_not] <;> simp [bit, flag]

theorem Dev.fieldWrite_cvuFrel {d : Dev} {m : Fn} {e : EngineNo} (h : d.mayWriteReg m .cvu e CVU_CTL) (ha : d.armed (704 + e) m = true) :
    d.fieldWrite m .cvu e CVU_CTL 0 8 =
      (((d.setArm (704 + e) m false).setReg .cvu e CVU_CTL (d.view .cvu e CVU_CTL &&& 0x70)).writeEngineEn e (d.engine e).en).releaseEngine e := by
  have hf := Dev.fields_cvu d e
  generalize hv : d.view .cvu e CVU_CTL = v at hf ⊢
  generalize hen : (d.engine e).en = en at hf ⊢
  rw [Dev.regWrite_field (by rw [hf]), Dev.regWrite_cvuCtl h]
  · have hn : (((((v &&& 0x70) ||| flag 0 en) &&& 0x71) &&& ~~~0) ||| 8) &&& 0x70 = v &&& 0x70 := by
      apply BitVec.eq_of_getLsbD_eq
      intro k hk
      cases en <;> interval_cases k <;> simp [flag]
    rw [hn]
    cases en <;> simp [bit_and, bit_or, bit_not] <;> simp [bit, flag]
  · intro h2
    simp [ha] at h2

/-- Stored bits under a register's mask. -/
theorem storedBits (v w k : Word) : ((v &&& k &&& ~~~k) ||| (w &&& k)) &&& k = w &&& k := by
  apply BitVec.eq_of_getLsbD_eq
  intro n hn
  simp only [BitVec.getLsbD_and, BitVec.getLsbD_or, BitVec.getLsbD_not, hn, decide_true, Bool.true_and]
  cases v.getLsbD n <;> cases w.getLsbD n <;> cases k.getLsbD n <;> rfl

theorem storedBits' (v w k j : Word) (h : ∀ n, n < 32 → bit k n = true → bit j n = true) : ((v &&& k &&& ~~~j) ||| (w &&& j)) &&& k = w &&& k := by
  apply BitVec.eq_of_getLsbD_eq
  intro n hn
  have := h n hn
  unfold bit at this
  simp only [BitVec.getLsbD_and, BitVec.getLsbD_or, BitVec.getLsbD_not, hn, decide_true, Bool.true_and]
  cases v.getLsbD n <;> cases w.getLsbD n <;> cases hk : k.getLsbD n <;> cases hj : j.getLsbD n <;> simp_all

theorem Dev.regWrite_accSel {d : Dev} {m : Fn} {w : Word} (h : d.mayWriteReg m .acc 0 ACC_SEL) :
    d.regWrite m .acc 0 ACC_SEL w =
      (d.setReg .acc 0 ACC_SEL (w &&& 0xB00007FF)).selWritten (d.view .acc 0 ACC_SEL &&& 0xB00007FF) := by
  obtain ⟨x, hm', ht, hi, ho, har, hw, hm, hold, hnew, e⟩ := Dev.regWrite_reg (w := w)
    (r := ⟨0x048, 0, false, [⟨31, 31, .rw, .any⟩, ⟨29, 28, .rw, .any⟩, ⟨10, 0, .rw, .any⟩]⟩)
    (mask := 0xB00007FF) (by simp [PType.count]) (by decide) h rfl (by decide) rfl (by simp [Dev.accepts])
    (by generalize d.armed _ _ = a; generalize d.acc.lock = l; cases a <;> cases l <;> simp [RegDesc.takenMask, FieldDesc.takes, Legal.ok, AccCode.keyed, AccCode.locked] <;> rfl) (by decide) rfl
  rw [show RegDesc.storedMask _ = 0xB00007FF from rfl] at hnew hold
  rw [e, storedBits] at *
  unfold RegWrite.effect RegWrite.store RegWrite.acc
  simp only [ht, ho, hi, hnew, hold]
  rfl

theorem Dev.regWrite_sticky {d : Dev} {m : Fn} {k : Fin 32} {w : Word} (h : d.mayWriteReg m .flt 0 (FLT_STICKY + 4 * k)) :
    d.regWrite m .flt 0 (FLT_STICKY + 4 * k) w = d.clearSticky k w := by
  have hd : ∀ k : Fin 32, anyDesc .flt 0 (FLT_STICKY + 4 * k) = some ⟨0x040 + 4 * k, 0, false, [⟨31, 0, .w1c, .any⟩]⟩ := by decide
  obtain ⟨x, hm', ht, hi, ho, har, hw, hm, hold, hnew, e⟩ := Dev.regWrite_reg (w := w)
    (r := ⟨0x040 + 4 * k, 0, false, [⟨31, 0, .w1c, .any⟩]⟩)
    (mask := 0xFFFFFFFF) (by simp [PType.count]) (by simp only [FLT_STICKY]; omega) h (hd k) (by simp only [FLT_STICKY]; omega) rfl (by simp [Dev.accepts])
    (by generalize d.armed _ _ = a; generalize d.acc.lock = l; cases a <;> cases l <;> simp [RegDesc.takenMask, FieldDesc.takes, Legal.ok, AccCode.keyed, AccCode.locked] <;> rfl) (by decide) rfl
  rw [e]
  unfold RegWrite.effect RegWrite.store RegWrite.flt
  simp only [ht, ho, hi, hw, hm]
  rw [if_pos (show FLT_STICKY + 4 * k.val < FLT_LIVE by simp only [FLT_STICKY, FLT_LIVE]; omega),
    show (FLT_STICKY + 4 * k.val - FLT_STICKY) / 4 = k by omega]
  simp [RegDesc.keyed, AccCode.keyed, RegDesc.storedMask, AccCode.stored]

theorem Dev.regWrite_warm {d : Dev} {m : Fn} (h : d.mayWriteReg m .hif 0 HIF_RST) (ha : d.armed 0 m = true) :
    d.regWrite m .hif 0 HIF_RST 1 = if m.val = 0 then (d.setArm 0 m false).warmTrigger 2 else d.setArm 0 m false := by
  obtain ⟨x, hm', ht, hi, ho, har, hw, hm, hold, hnew, e⟩ := Dev.regWrite_reg (w := 1) (r := ⟨0x044, 0, false, [⟨0, 0, .wok, .any⟩]⟩)
    (mask := 1) (by simp [PType.count]) (by decide) h rfl (by decide) rfl (by simp [Dev.accepts])
    (by simp only [PType.page, show d.armed _ m = true from ha]; generalize d.acc.lock = l; revert l; decide) (by decide)
    (by simp [PType.page, ha])
  rw [e]
  unfold RegWrite.effect RegWrite.store RegWrite.hif RegWrite.on
  simp only [ht, ho, hi, hw, hm, hm']
  by_cases h0 : m.val = 0 <;> simp [h0, RegDesc.keyed, AccCode.keyed, RegDesc.storedMask, AccCode.stored, bit, PType.page]

theorem Dev.fieldWrite_tmbLoad {d : Dev} {m : Fn} (h : d.mayWriteReg m .tmb 0 TMB_CTL) (ha : d.armed 2 m = true) :
    d.fieldWrite m .tmb 0 TMB_CTL 0 (flag 29 true) =
      timebaseControl (d.view .tmb 0 TMB_CTL &&& 0xC00003FF) (d.view .tmb 0 TMB_CTL &&& 0xC00003FF) true
        ((d.setArm 2 m false).setReg .tmb 0 TMB_CTL (d.view .tmb 0 TMB_CTL &&& 0xC00003FF)) := by
  have hf := tmbFields d
  generalize hv : d.view .tmb 0 TMB_CTL = v at hf ⊢
  rw [Dev.regWrite_field (w := (v &&& 0xC00003FF) ||| 0x20000000) (by rw [hf]; simp [flag])]
  obtain ⟨x, hm', ht, hi, ho, har, hw, hm, hold, hnew, e⟩ := Dev.regWrite_reg (w := (v &&& 0xC00003FF) ||| 0x20000000)
    (r := ⟨0x040, 0x00000064, false, [⟨31, 31, .rw, .any⟩, ⟨30, 30, .rw, .any⟩, ⟨29, 29, .wok, .any⟩, ⟨9, 0, .rw, .range 1 1000⟩]⟩)
    (mask := if Legal.ok (bits ((v &&& 0xC00003FF) ||| 0x20000000) 9 0) (.range 1 1000) then 0xE00003FF else 0xE0000000)
    (by simp [PType.count]) (by decide) h rfl (by decide) rfl (by simp [Dev.accepts])
    (by
      simp only [PType.page, show d.armed (2 + 0) m = true from ha]
      generalize (v &&& 0xC00003FF) ||| 0x20000000 = w
      cases hb : Legal.ok (bits w 9 0) (.range 1 1000) <;> cases d.acc.lock <;>
        simp [RegDesc.takenMask, FieldDesc.takes, AccCode.keyed, AccCode.locked, FieldDesc.val, hb,
          show ∀ v, Legal.ok v .any = true from fun _ => rfl] <;> rfl)
    (by split <;> decide) (by simp [PType.page, ha])
  have hn : x.new = v &&& 0xC00003FF := by
    rw [hnew, hv, show RegDesc.storedMask _ = 0xC00003FF from rfl]
    split
    all_goals
      apply BitVec.eq_of_getLsbD_eq
      intro k hk
      interval_cases k <;> simp
  have ho' : x.old = v &&& 0xC00003FF := by rw [hold, hv]; rfl
  have h29 : x.on 29 = true := by
    unfold RegWrite.on; rw [hw, hm, bit_and, bit_or]; split <;> simp [bit]
  rw [e]
  unfold RegWrite.effect RegWrite.store RegWrite.tmb
  simp only [ht, ho, hi, hn, ho', h29]
  rfl

theorem Dev.fieldWrite_laneRetrain {d : Dev} {m : Fn} {l : LaneNo}
    (h : d.mayWriteReg m .site (l / 4) (MCT_LANE_CTL + 0x20 * (l % 4))) (ha : d.armed (17 + l / 4) m = true) :
    d.fieldWrite m .site (l / 4) (MCT_LANE_CTL + 0x20 * (l % 4)) 0 2 =
      ((d.setArm (17 + l / 4) m false).setReg .site (l / 4) (MCT_LANE_CTL + 0x20 * (l % 4))
        (d.view .site (l / 4) (MCT_LANE_CTL + 0x20 * (l % 4)) &&& 1)).requestRetrain l 3 := by
  have hl : (l : Nat) % 4 < 4 := Nat.mod_lt _ (by omega)
  have hq : (l : Nat) = 4 * (l / 4) + l % 4 := by omega
  have hj : (l : Nat) / 4 < 18 := by omega
  generalize (l : Nat) / 4 = j at *
  generalize (l : Nat) % 4 = k at *
  rw [hq]
  have hr : regDesc .site j (MCT_LANE_CTL + 0x20 * k) = some ⟨MCT_LANE_CTL + 0x20 * k, 0, false, [⟨1, 1, .wok, .any⟩, ⟨0, 0, .rw, .any⟩]⟩ := by
    interval_cases k <;> rfl
  have hf : d.fields .site j (MCT_LANE_CTL + 0x20 * k) = d.view .site j (MCT_LANE_CTL + 0x20 * k) &&& 1 := by
    rw [Dev.fields_reg (by simp only [MCT_LANE_CTL]; omega) (by simp only [MCT_LANE_CTL]; omega) hr (k := 1) (a := 1) (st := 0) rfl rfl
      (by interval_cases k <;> rfl)]
    simp [BitVec.and_assoc]
  generalize hv : d.view .site j (MCT_LANE_CTL + 0x20 * k) = v at hf ⊢
  rw [Dev.regWrite_field (w := (v &&& 1) ||| 2) (by rw [hf]; simp)]
  obtain ⟨x, hm', ht, hi, ho, har, hw, hm, hold, hnew, e⟩ := Dev.regWrite_reg (w := (v &&& 1) ||| 2)
    (r := ⟨MCT_LANE_CTL + 0x20 * k, 0, false, [⟨1, 1, .wok, .any⟩, ⟨0, 0, .rw, .any⟩]⟩) (mask := 3)
    (by simp only [PType.count]; omega) (by simp only [MCT_LANE_CTL]; omega) h
    (by unfold anyDesc; rw [if_neg (by simp only [MCT_LANE_CTL]; omega), hr]) (by simp only [MCT_LANE_CTL]; omega) rfl (by simp [Dev.accepts])
    (by
      simp only [PType.page, show d.armed (17 + j) m = true from ha]
      cases d.acc.lock <;> simp [RegDesc.takenMask, FieldDesc.takes, Legal.ok, AccCode.keyed, AccCode.locked] <;> rfl)
    (by decide) (by simp [PType.page, ha])
  have hn : x.new = v &&& 1 := by
    rw [hnew, hv, show RegDesc.storedMask _ = 1 from rfl]
    apply BitVec.eq_of_getLsbD_eq
    intro k hk
    interval_cases k <;> simp
  have h1 : x.on 1 = true := by unfold RegWrite.on; rw [hw, hm, bit_and, bit_or]; simp [bit]
  rw [e]
  unfold RegWrite.effect RegWrite.store RegWrite.site
  simp only [ht, ho, hi, hn, h1]
  interval_cases k <;> rfl

theorem Dev.fieldWrite_ringEnable {d : Dev} {m f : Fn} (h : d.mayWriteReg m .cqe 0 (0x300 + 0x30 * f)) :
    d.fieldWrite m .cqe 0 (0x300 + 0x30 * f) 1 1 =
      (d.setReg .cqe 0 (0x300 + 0x30 * f) (d.view .cqe 0 (0x300 + 0x30 * f) &&& 0xFFFF3F02)).writeRingEn f true := by
  have hf64 := f.isLt
  generalize (f : Nat) = f at *
  have hr : regDesc .cqe 0 (0x300 + 0x30 * f) =
      some ⟨0x300 + 0x30 * f, 0, false, [⟨31, 16, .rw, .any⟩, ⟨13, 8, .rw, .any⟩, ⟨1, 1, .rw, .any⟩, ⟨0, 0, .dev, .any⟩]⟩ := by
    unfold regDesc
    rw [if_pos ⟨rfl, by omega, by omega⟩, show (0x300 + 0x30 * f - 0x300) % 0x30 = 0 by omega]; rfl
  have hf : d.fields .cqe 0 (0x300 + 0x30 * f) =
      ((d.view .cqe 0 (0x300 + 0x30 * f) &&& 0xFFFF3F02) ||| d.status .cqe 0 (0x300 + 0x30 * f)) &&& 0xFFFF3F03 :=
    Dev.fields_reg (by omega) (by omega) hr rfl rfl rfl
  generalize hv : d.view .cqe 0 (0x300 + 0x30 * f) = v at hf ⊢
  generalize hst' : d.status .cqe 0 (0x300 + 0x30 * f) = st at hf
  rw [Dev.regWrite_field (w := ((((v &&& 0xFFFF3F02) ||| st) &&& 0xFFFF3F03) &&& ~~~1) ||| 1) (by rw [hf])]
  have hst : st &&& 0xFFFF3F02 = 0 := by
    rw [← hst']
    unfold Dev.status
    simp only [show ¬ 0x300 + 0x30 * f = CQE_GSTAT by simp only [CQE_GSTAT]; omega, if_false]
    rw [if_pos (by omega)]
    unfold Dev.noticeStatus
    rw [show (0x300 + 0x30 * f - 0x300) % 0x30 = 0 by omega]
    simp only [if_true]
    unfold flag; split <;> rfl
  obtain ⟨x, hm', ht, hi, ho, har, hw, hm, hold, hnew, e⟩ := Dev.regWrite_reg (w := ((((v &&& 0xFFFF3F02) ||| st) &&& 0xFFFF3F03) &&& ~~~1) ||| 1)
    (r := ⟨0x300 + 0x30 * f, 0, false, [⟨31, 16, .rw, .any⟩, ⟨13, 8, .rw, .any⟩, ⟨1, 1, .rw, .any⟩, ⟨0, 0, .dev, .any⟩]⟩) (mask := 0xFFFF3F03)
    (by simp [PType.count]) (by omega) h
    (by unfold anyDesc; rw [if_neg (by omega), hr]) (by omega) rfl
    (by unfold Dev.accepts; simp [show (0x300 + 0x30 * f - 0x300) % 0x30 = 0 by omega])
    (by generalize d.armed _ _ = a; generalize d.acc.lock = l; cases a <;> cases l <;> simp [RegDesc.takenMask, FieldDesc.takes, Legal.ok, AccCode.keyed, AccCode.locked] <;> rfl) (by decide) rfl
  have hn : x.new = v &&& 0xFFFF3F02 := by
    rw [hnew, hv, show RegDesc.storedMask _ = 0xFFFF3F02 from rfl,
      storedBits' _ _ _ _ (by intro n hn; interval_cases n <;> decide)]
    apply BitVec.eq_of_getLsbD_eq
    intro n hn
    have := congrArg (fun w => BitVec.getLsbD w n) hst
    simp only [BitVec.getLsbD_and, BitVec.getLsbD_or, BitVec.getLsbD_not] at this ⊢
    interval_cases n <;> simp at this ⊢ <;> simp [this]
  have h0 : x.on 0 = true := by unfold RegWrite.on; rw [hw, hm, bit_and, bit_or]; simp [bit]
  rw [e]
  unfold RegWrite.effect RegWrite.store RegWrite.cqe
  simp only [ht, ho, hi, hn, h0, show (0x300 + 0x30 * f - 0x300) % 0x30 = 0 by omega, show (0x300 + 0x30 * f - 0x300) / 0x30 = f by omega]
  rw [if_neg (by omega)]
  rfl

theorem Dev.regWrite_nhead {d : Dev} {m f : Fn} {w : Word} (h : d.mayWriteReg m .cqe 0 (0x314 + 0x30 * f)) :
    d.regWrite m .cqe 0 (0x314 + 0x30 * f) w = d.writeNhead f w.toNat := by
  have hf64 := f.isLt
  generalize (f : Nat) = f at *
  have hr : regDesc .cqe 0 (0x314 + 0x30 * f) = some ⟨0x314 + 0x30 * f, 0, false, [⟨31, 0, .dev, .any⟩]⟩ := by
    unfold regDesc
    rw [if_pos ⟨rfl, by omega, by omega⟩, show (0x314 + 0x30 * f - 0x300) % 0x30 = 0x14 by omega]; rfl
  obtain ⟨x, hm', ht, hi, ho, har, hw, hm, hold, hnew, e⟩ := Dev.regWrite_reg (w := w)
    (r := ⟨0x314 + 0x30 * f, 0, false, [⟨31, 0, .dev, .any⟩]⟩) (mask := 0xFFFFFFFF)
    (by simp [PType.count]) (by omega) h
    (by unfold anyDesc; rw [if_neg (by omega), hr]) (by omega) rfl
    (by unfold Dev.accepts; simp [show (0x314 + 0x30 * f - 0x300) % 0x30 = 0x14 by omega])
    (by generalize d.armed _ _ = a; generalize d.acc.lock = l; cases a <;> cases l <;> simp [RegDesc.takenMask, FieldDesc.takes, Legal.ok, AccCode.keyed, AccCode.locked] <;> rfl) (by decide) rfl
  rw [e]
  unfold RegWrite.effect RegWrite.store RegWrite.cqe
  simp only [ht, ho, hi, hw, show (0x314 + 0x30 * f - 0x300) % 0x30 = 0x14 by omega, show (0x314 + 0x30 * f - 0x300) / 0x30 = f by omega]
  rw [if_neg (by omega)]
  simp [RegDesc.keyed, AccCode.keyed, RegDesc.storedMask, AccCode.stored]

theorem Dev.regWrite_auxGo {d : Dev} {m : Fn} {n : PortNo} {w : Word} (h : d.mayWriteReg m .dpt n DPT_AUX_CMD)
    (hb : (d.port n).aux.busy = false) :
    d.regWrite m .dpt n DPT_AUX_CMD (w ||| flag 31 true) =
      (d.setReg .dpt n DPT_AUX_CMD (w &&& 0x0FFFFFFF)).auxGo n (w &&& 0x0FFFFFFF) := by
  obtain ⟨x, hm', ht, hi, ho, har, hw, hm, hold, hnew, e⟩ := Dev.regWrite_reg (w := w ||| flag 31 true)
    (r := ⟨0x060, 0, false, [⟨31, 31, .wo, .any⟩, ⟨27, 24, .rw, .any⟩, ⟨23, 20, .rw, .any⟩, ⟨19, 0, .rw, .any⟩]⟩) (mask := 0x8FFFFFFF)
    (by simp [PType.count]) (by decide) h rfl (by decide) rfl (by simp [Dev.accepts, hb])
    (by generalize d.armed _ _ = a; generalize d.acc.lock = l; cases a <;> cases l <;> simp [RegDesc.takenMask, FieldDesc.takes, Legal.ok, AccCode.keyed, AccCode.locked] <;> rfl) (by decide) rfl
  have hn : x.new = w &&& 0x0FFFFFFF := by
    rw [hnew, show RegDesc.storedMask _ = 0x0FFFFFFF from rfl]
    apply BitVec.eq_of_getLsbD_eq
    intro k hk
    interval_cases k <;> simp [flag]
  have h31 : x.on 31 = true := by unfold RegWrite.on; rw [hw, hm, bit_and, bit_or]; simp [bit, flag]
  rw [e]
  unfold RegWrite.effect RegWrite.store RegWrite.dpt
  simp only [ht, ho, hi, hn, h31]
  rfl

theorem Dev.regWrite_cclk {d : Dev} {m : Fn} {w : BitVec 11} (h : d.mayWriteReg m .ckr 0 CKR_CCLK) (ha : d.armed 1 m = true)
    (hc : d.clk.change = 0) (hl : 800 ≤ w.toNat ∧ w.toNat ≤ 1600 ∧ w.toNat % 50 = 0) :
    d.regWrite m .ckr 0 CKR_CCLK (w.setWidth 32) =
      cclkWritten ((d.setArm 1 m false).setReg .ckr 0 CKR_CCLK (w.setWidth 32)) := by
  have hb : bits (w.setWidth 32) 10 0 = w.toNat := by
    unfold bits
    simp only [Nat.shiftRight_zero, BitVec.toNat_setWidth]
    have := w.isLt
    omega
  obtain ⟨x, hm', ht, hi, ho, har, hw, hm, hold, hnew, e⟩ := Dev.regWrite_reg (w := w.setWidth 32)
    (r := ⟨0x060, 0x00000640, false, [⟨10, 0, .rk, .step 800 1600 50⟩]⟩) (mask := 0x7FF)
    (by simp [PType.count]) (by decide) h rfl (by decide) rfl (by simp [Dev.accepts, hc])
    (by
      simp only [PType.page, show d.armed (1 + 0) m = true from ha]
      have : Legal.ok (FieldDesc.val ⟨10, 0, .rk, .step 800 1600 50⟩ (w.setWidth 32)) (.step 800 1600 50) = true := by
        simp [FieldDesc.val, hb, Legal.ok]; omega
      simp [RegDesc.takenMask, FieldDesc.takes, AccCode.keyed, AccCode.locked, this]; rfl) (by decide) (by simp [PType.page, ha])
  have hn : x.new = w.setWidth 32 := by
    rw [hnew, show RegDesc.storedMask _ = 0x7FF from rfl]
    apply BitVec.eq_of_getLsbD_eq
    intro k hk
    interval_cases k <;> simp
  rw [e]
  unfold RegWrite.effect RegWrite.store RegWrite.ckr
  simp only [ht, ho, hi, hn]
  rfl

theorem Dev.regWrite_timerCtl {d : Dev} {m : Fn} {k : TimerNo} {w : Word} (h : d.mayWriteReg m .dma 0 (DMA_TMR_CTL + 16 * k)) :
    d.regWrite m .dma 0 (DMA_TMR_CTL + 16 * k) w =
      (d.setReg .dma 0 (DMA_TMR_CTL + 16 * k) (w &&& 0xE03F007F)).timerWritten k := by
  have hr : ∀ k : TimerNo, regDesc .dma 0 (DMA_TMR_CTL + 16 * k) = some ⟨0x080 + 16 * k, 0, false, [⟨31, 31, .rw, .any⟩, ⟨30, 30, .rw, .any⟩, ⟨29, 29, .rw, .any⟩, ⟨21, 16, .rw, .any⟩, ⟨6, 0, .rw, .any⟩]⟩ := by decide
  have hr := hr k
  have hk16 := k.isLt
  generalize (k : Nat) = k at *
  obtain ⟨x, hm', ht, hi, ho, har, hw, hm, hold, hnew, e⟩ := Dev.regWrite_reg (w := w)
    (r := ⟨0x080 + 16 * k, 0, false, [⟨31, 31, .rw, .any⟩, ⟨30, 30, .rw, .any⟩, ⟨29, 29, .rw, .any⟩, ⟨21, 16, .rw, .any⟩, ⟨6, 0, .rw, .any⟩]⟩) (mask := 0xE03F007F)
    (by simp [PType.count]) (by simp only [DMA_TMR_CTL]; omega) h
    (by unfold anyDesc; rw [if_neg (by simp only [DMA_TMR_CTL]; omega), hr]) (by simp only [DMA_TMR_CTL]; omega) rfl
    (by unfold Dev.accepts; simp [show (DMA_TMR_CTL + 16 * k - DMA_TMR_CTL) % 16 = 0 by omega])
    (by generalize d.armed _ _ = a; generalize d.acc.lock = l; cases a <;> cases l <;> simp [RegDesc.takenMask, FieldDesc.takes, Legal.ok, AccCode.keyed, AccCode.locked] <;> rfl) (by decide) rfl
  have hn : x.new = w &&& 0xE03F007F := by
    rw [hnew, show RegDesc.storedMask _ = 0xE03F007F from rfl, storedBits]
  rw [e]
  unfold RegWrite.effect RegWrite.store RegWrite.dma
  simp only [ht, ho, hi, hn, show (DMA_TMR_CTL + 16 * k - DMA_TMR_CTL) % 16 = 0 by omega, show (DMA_TMR_CTL + 16 * k - DMA_TMR_CTL) / 16 = k by omega]
  rw [if_neg (show ¬ DMA_TMR_CTL + 16 * k < DMA_TMR_CTL by omega)]
  rfl

theorem Dev.regWrite_timerPer {d : Dev} {m : Fn} {k : TimerNo} {w : Word} (h : d.mayWriteReg m .dma 0 (DMA_TMR_PER + 16 * k))
    (hw : 1000 ≤ w.toNat ∨ (w = 0 ∧ bit (d.timerCtl k) 30 = true)) :
    d.regWrite m .dma 0 (DMA_TMR_PER + 16 * k) w =
      (d.setReg .dma 0 (DMA_TMR_PER + 16 * k) w).periodWritten k := by
  have hr : ∀ k : TimerNo, regDesc .dma 0 (DMA_TMR_PER + 16 * k) = some ⟨0x084 + 16 * k, 0, false, [⟨31, 0, .rw, .zeroOr 1000⟩]⟩ := by decide
  have hr := hr k
  have hk16 := k.isLt
  generalize (k : Nat) = k at *
  have e4 : (DMA_TMR_PER + 16 * k - DMA_TMR_CTL) % 16 = 4 := by simp only [DMA_TMR_PER, DMA_TMR_CTL]; omega
  have ek : (DMA_TMR_PER + 16 * k - DMA_TMR_CTL) / 16 = k := by simp only [DMA_TMR_PER, DMA_TMR_CTL]; omega
  have hb : bits w 31 0 = w.toNat := by
    unfold bits
    have := w.isLt
    rw [Nat.shiftRight_zero]
    omega
  obtain ⟨x, hm', ht, hi, ho, har, hw', hm, hold, hnew, e⟩ := Dev.regWrite_reg (w := w)
    (r := ⟨0x084 + 16 * k, 0, false, [⟨31, 0, .rw, .zeroOr 1000⟩]⟩) (mask := 0xFFFFFFFF)
    (by simp [PType.count]) (by simp only [DMA_TMR_PER]; omega) h
    (by unfold anyDesc; rw [if_neg (by simp only [DMA_TMR_PER]; omega), hr]) (by simp only [DMA_TMR_PER]; omega) rfl
    (by
      unfold Dev.accepts
      simp only [e4, ek]
      rcases hw with hw | ⟨hw, hbit⟩
      · have : w ≠ 0 := by intro h0; rw [h0] at hw; simp at hw
        have : ¬ w = 0#32 := this
        simp [this]
      · simp [hbit])
    (by
      have : Legal.ok (FieldDesc.val ⟨31, 0, .rw, .zeroOr 1000⟩ w) (.zeroOr 1000) = true := by
        simp only [FieldDesc.val, hb, Legal.ok]
        rcases hw with hw | ⟨hw, -⟩
        · simp [hw]
        · simp [hw]
      generalize d.armed _ _ = a
      generalize d.acc.lock = l
      cases a <;> cases l <;> simp [RegDesc.takenMask, FieldDesc.takes, AccCode.keyed, AccCode.locked, this] <;> rfl) (by decide) rfl
  have hn : x.new = w := by
    rw [hnew, show RegDesc.storedMask _ = 0xFFFFFFFF from rfl, storedBits]; exact wAll w
  rw [e]
  unfold RegWrite.effect RegWrite.store RegWrite.dma
  simp only [ht, ho, hi, hn, e4, ek]
  rw [if_neg (by simp only [DMA_TMR_PER, DMA_TMR_CTL]; omega)]
  rfl

/-- A write of the witness table by the PF. -/
theorem Dev.busWrite_witness {d : Dev} {r : RegionNo} {k : Fin 16} {w : Word} (h : d.mayWrite 0 (0x1500000 + 64 * r + 4 * k)) :
    d.busWrite 0 (0x1500000 + 64 * r + 4 * k) w = d.writeWitness r k w := by
  obtain ⟨h₁, h₂⟩ := h
  have ha : ∀ n, 1344 ≤ n → n < 1360 → areaOf n = .witness := by decide +kernel
  have hp : areaOf ((0x1500000 + 64 * r.val + 4 * k.val) / 0x4000) = .witness := ha _ (by omega) (by omega)
  unfold Dev.busWrite
  have den : d.writeDenied 0 (0x1500000 + 64 * r + 4 * k) = false := by
    unfold Dev.writeDenied; rw [hp, h₂]; simp
  rw [if_neg (by simp [den]), if_neg (by simpa using h₁), hp]
  simp only [if_true]
  congr 1 <;> omega

/-- A write of a vector's control word. -/
theorem Dev.busWrite_msix {d : Dev} {m : Nat} {v : Fin 64} {w : Word} (h : d.responds 2044 = true) :
    d.busWrite m (0x1FF0000 + 16 * v + 12) w = d.writeMsix m v 3 w := by
  have hp : (0x1FF0000 + 16 * v.val + 12) / 0x4000 = 2044 := by omega
  have ha : areaOf 2044 = .msix := by decide +kernel
  have den : d.writeDenied m (0x1FF0000 + 16 * v.val + 12) = false := by
    unfold Dev.writeDenied; rw [hp, ha]; simp
  unfold Dev.busWrite
  rw [if_neg (by simp [den]), hp, ha, if_neg (by simp [h])]
  dsimp only
  rw [if_pos (by omega), show (0x1FF0000 + 16 * v.val + 12 - 0x1FF0000) / 16 = v.val by omega,
    show (0x1FF0000 + 16 * v.val + 12 - 0x1FF0000) % 16 / 4 = 3 by omega]

/-- A header register of a page: the write reaches it. -/
theorem Dev.headerWrite_eq {d : Dev} {m : Nat} {t : PType} {i off : Nat} {w : Word} (hi : i < t.count) (ho : off < 0x1000)
    (h : d.mayWriteReg m t i off) : d.headerWrite m (t.page + i) off w = d.writeReg m t i off off false w := by
  unfold Dev.headerWrite Dev.when
  rw [pageOf_page t i hi]
  exact Dev.regWrite_eq hi ho h

theorem Dev.headerWrite_key {d : Dev} {m : Nat} {t : PType} {i : Nat} {w : Word} (hi : i < t.count)
    (h : d.mayWriteReg m t i 0x00C) : d.headerWrite m (t.page + i) 0x00C w = d.writeKey t i m w := by
  rw [Dev.headerWrite_eq hi (by decide) h]
  unfold Dev.writeReg
  rw [show anyDesc t i 0x00C = some ⟨0x00C, 0, false, [⟨31, 0, .wo, .any⟩]⟩ from rfl]
  have hm : RegDesc.takenMask ⟨0x00C, 0, false, [⟨31, 0, .wo, .any⟩]⟩ (d.armed (t.page + i) m) d.acc.lock false w = 0xFFFFFFFF := by
    generalize d.armed _ _ = a; generalize d.acc.lock = l
    cases a <;> cases l <;> rfl
  simp only [show d.accepts t i 0x00C w = true by simp [Dev.accepts], hm, if_true]
  rw [if_neg (by decide)]
  simp [RegWrite.perform, RegWrite.headerEffect, RegDesc.keyed, AccCode.keyed]

theorem Dev.headerWrite_hold {d : Dev} {m : Nat} {t : PType} {i : Nat} {b : Bool} (hi : i < t.count)
    (h : d.mayWriteReg m t i 0x014) : d.headerWrite m (t.page + i) 0x014 (flag 0 b) = d.writeHold t i b := by
  rw [Dev.headerWrite_eq hi (by decide) h]
  unfold Dev.writeReg
  rw [show anyDesc t i 0x014 = some ⟨0x014, 0, false, [⟨0, 0, .dev, .any⟩]⟩ from rfl]
  have hm : RegDesc.takenMask ⟨0x014, 0, false, [⟨0, 0, .dev, .any⟩]⟩ (d.armed (t.page + i) m) d.acc.lock false (flag 0 b) = 1 := by
    generalize d.armed _ _ = a; generalize d.acc.lock = l
    cases a <;> cases l <;> rfl
  simp only [show d.accepts t i 0x014 (flag 0 b) = true by simp [Dev.accepts], hm, if_true]
  rw [if_neg (by decide)]
  cases b <;> simp [RegWrite.perform, RegWrite.headerEffect, RegDesc.keyed, AccCode.keyed, RegWrite.on, bit, flag]

theorem Dev.headerWrite_snap {d : Dev} {m : Nat} {t : PType} {i : Nat} {g : BitVec 8} (hi : i < t.count)
    (h : d.mayWriteReg m t i 0x020) : d.headerWrite m (t.page + i) 0x020 (g.setWidth 32) = d.takeSnap t i m g := by
  rw [Dev.headerWrite_eq hi (by decide) h]
  unfold Dev.writeReg
  rw [show anyDesc t i 0x020 = some ⟨0x020, 0, false, [⟨7, 0, .wo, .any⟩]⟩ from rfl]
  have hm : RegDesc.takenMask ⟨0x020, 0, false, [⟨7, 0, .wo, .any⟩]⟩ (d.armed (t.page + i) m) d.acc.lock false (g.setWidth 32) = 0xFF := by
    generalize d.armed _ _ = a; generalize d.acc.lock = l
    cases a <;> cases l <;> rfl
  simp only [show d.accepts t i 0x020 (g.setWidth 32) = true by simp [Dev.accepts], hm, if_true]
  rw [if_neg (by decide)]
  simp [RegWrite.perform, RegWrite.headerEffect, RegDesc.keyed, AccCode.keyed]

theorem Dev.headerWrite_reset {d : Dev} {m : Nat} {t : PType} {i : Nat} (hi : i < t.count)
    (h : d.mayWriteReg m t i 0x010) (ha : d.armed (t.page + i) m = true) :
    d.headerWrite m (t.page + i) 0x010 1 = (d.setArm (t.page + i) m false).blockReset t i := by
  rw [Dev.headerWrite_eq hi (by decide) h]
  unfold Dev.writeReg
  rw [show anyDesc t i 0x010 = some ⟨0x010, 0, false, [⟨0, 0, .wok, .any⟩]⟩ from rfl]
  have hm : RegDesc.takenMask ⟨0x010, 0, false, [⟨0, 0, .wok, .any⟩]⟩ true d.acc.lock false 1 = 1 := by
    generalize d.acc.lock = l
    cases l <;> rfl
  simp only [show d.accepts t i 0x010 1 = true by simp [Dev.accepts], ha, hm, if_true]
  rw [if_neg (by decide)]
  simp [RegWrite.perform, RegWrite.headerEffect, RegDesc.keyed, AccCode.keyed, RegWrite.on, bit]

end Sys2Proof.Machine
end

