-- ==== Sys2Proof/Laws/Units.lean ====
section
/-!
SUPPORT. What the shared operations of the units do, said once each: congruences, register writes by offset, notices and
head write-backs, queue entries, and the starts of DMA channels.
-/
namespace Sys2Proof.Machine

/-! ## Congruences: what depends on one part -/

theorem Dev.chan_congr {a b : Dev} (h : a.chans = b.chans) (k : Nat) : a.chan k = b.chan k := by unfold Dev.chan; rw [h]

theorem Dev.timer_congr {a b : Dev} (h : a.timers = b.timers) (k : Nat) : a.timer k = b.timer k := by unfold Dev.timer; rw [h]

theorem Dev.port_congr {a b : Dev} (h : a.ports = b.ports) (k : Nat) : a.port k = b.port k := by unfold Dev.port; rw [h]

theorem Dev.canvas_congr {a b : Dev} (h : a.canvases = b.canvases) (k : Nat) : a.canvas k = b.canvas k := by unfold Dev.canvas; rw [h]

theorem Dev.engine_congr {a b : Dev} (h : a.engines = b.engines) (k : Nat) : a.engine k = b.engine k := by unfold Dev.engine; rw [h]

theorem Dev.reg_congr {a b : Dev} (h : a.regs = b.regs) (t i o) : a.reg t i o = b.reg t i o := by unfold Dev.reg Dev.effAt; rw [h]

theorem Dev.fld_congr {a b : Dev} (h : a.regs = b.regs) (t i o x y) : a.fld t i o x y = b.fld t i o x y := by unfold Dev.fld; rw [Dev.reg_congr h]

theorem Dev.owner_congr {a b : Dev} (h : a.regs = b.regs) (q : Nat) : a.owner q = b.owner q := by
  unfold Dev.owner Dev.fld Dev.reg Dev.effAt; rw [h]

theorem Dev.memByte_congr {a b : Dev} (h : a.mem = b.mem) (k : Nat) : a.memByte k = b.memByte k := by unfold Dev.memByte; rw [h]

theorem Dev.hwbAddr_congr {a b : Dev} (h : a.regs = b.regs) (q : Nat) : a.hwbAddr q = b.hwbAddr q := by
  unfold Dev.hwbAddr Dev.reg Dev.effAt; rw [h]

theorem Dev.qmod_congr {a b : Dev} (h : a.regs = b.regs) (q : Nat) : a.qmod q = b.qmod q := by
  unfold Dev.qmod Dev.qlog Dev.fld Dev.reg Dev.effAt; rw [h]

theorem Dev.noticeAddr_congr {a b : Dev} (h : a.regs = b.regs) (h' : a.rings = b.rings) (f : Nat) : a.noticeAddr f = b.noticeAddr f := by
  unfold Dev.noticeAddr Dev.ring Dev.nlog Dev.effAt; rw [h, h']

theorem Dev.posted_congr {x y y' : Dev} {f : Nat} (h : x.posted y f) (e : y'.rings = y.rings) : x.posted y' f := by
  have e' : ∀ g, y'.ring g = y.ring g := fun g => by unfold Dev.ring; rw [e]
  unfold Dev.posted; simp only [e']; exact h

theorem Dev.posted_of_congr {x x' y : Dev} {f : Nat} (h : x'.posted y f) (e : x'.rings = x.rings) (er : x'.regs = x.regs) : x.posted y f := by
  have e' : ∀ g, x'.ring g = x.ring g := fun g => by unfold Dev.ring; rw [e]
  have eN : ∀ f, x'.nlog f = x.nlog f := fun f => by unfold Dev.nlog Dev.effAt; rw [er]
  have eC : x'.canPost f = x.canPost f := by unfold Dev.canPost Dev.nfull Dev.nfill; rw [e', eN]
  unfold Dev.posted at *; simp only [e', eN, eC] at h; exact h

theorem Dev.viewAt_congr {a b : Dev} {x : Nat} (h1 : a.stagedAt x = b.stagedAt x) (h2 : a.admittedAt x = b.admittedAt x) (h3 : a.effAt x = b.effAt x) : a.viewAt x = b.viewAt x := by
  unfold Dev.viewAt; rw [h1, h2, h3]

/-! ## Maps -/

theorem FMap.mem_insert_of_mem {k : Nat} {v : α} {m : FMap α} {e : Nat × α} (h : e ∈ m) : e ∈ FMap.insert k v m := by
  induction m with
  | nil => simp at h
  | cons a m ih =>
    unfold FMap.insert
    split
    · exact List.mem_cons_of_mem _ h
    · rcases List.mem_cons.1 h with rfl | h
      · exact List.mem_cons_self
      · exact List.mem_cons_of_mem _ (ih h)

theorem FMap.any_put_ne [DecidableEq α] (f : Nat → α) (m : FMap α) (k : Nat) (v : α) (p : Nat × α → Bool) :
    ((FMap.put f m k v).any fun e => e.1 != k && p e) = (m.any fun e => e.1 != k && p e) := by
  rw [Bool.eq_iff_iff, List.any_eq_true, List.any_eq_true]
  unfold FMap.put
  constructor
  · rintro ⟨e, he, hp⟩
    refine ⟨e, ?_, hp⟩
    split at he
    · exact List.mem_of_mem_filter he
    · rcases FMap.mem_insert he with rfl | h
      · simp at hp
      · exact List.mem_of_mem_filter h
  · rintro ⟨e, he, hp⟩
    refine ⟨e, ?_, hp⟩
    have hk : e.1 ≠ k := by intro h; simp [h] at hp
    have : e ∈ FMap.erase m k := List.mem_filter.2 ⟨he, by simpa using hk⟩
    split
    · exact this
    · exact FMap.mem_insert_of_mem this

theorem FMap.get_map {α β : Type} (d : Nat → α) (d' : Nat → β) (g : α → β) (hg : ∀ k, g (d k) = d' k) (m : FMap α) (k : Nat) :
    FMap.get d' (m.map fun e => (e.1, g e.2)) k = g (FMap.get d m k) := by
  unfold FMap.get
  induction m with
  | nil => simp [hg]
  | cons e m ih =>
    simp only [List.map_cons, List.find?_cons]
    by_cases h : e.1 == k
    · simp [h]
    · simp only [h]; exact ih

/-! ## Register writes -/

theorem regAt_lt {t : PType} {i off : Nat} (hi : i < t.count) (ho : off < 0x4000) : regAt t i off < 2 ^ 25 := by
  have k : ∀ t : PType, t.page + t.count ≤ 2048 := by intro t; cases t <;> decide
  have := k t
  unfold regAt; omega

theorem toNat_regAt {t : PType} {i off : Nat} (hi : i < t.count) (ho : off < 0x4000) : (BitVec.ofNat 25 (regAt t i off)).toNat = regAt t i off := by
  rw [BitVec.toNat_ofNat, Nat.mod_eq_of_lt (regAt_lt hi ho)]

theorem exec_registerWrite (m : Fn) {t : PType} {i off : Nat} (data : Quad) (s : State) (hi : i < t.count) (ho : off < 0x4000) (h4 : off % 4 = 0) :
    exec (.registerWrite m (BitVec.ofNat 25 (regAt t i off)) 4 data) s = .next ⟨s.dev.regWrite m t i off (lo32 data), s.pending⟩ := by
  show execRegisterWrite _ _ _ _ _ = _
  unfold execRegisterWrite State.dev! Dev.sizedWrite
  rw [toNat_regAt hi ho, if_pos ⟨rfl, by unfold regAt; omega⟩]
  rfl

theorem Dev.armed_setArm_eq {d : Dev} {n m n' m' : Nat} {b : Bool} : (d.setArm n m b).armed n' m' = if n' * 128 + m' = n * 128 + m then b else d.armed n' m' := by
  unfold Dev.setArm Dev.armed
  rw [FMap.get_put]

theorem Dev.resetPage_facts {d u : Dev} {t : PType} {i : Nat} (hi : i < t.count) (h : u.regs = (d.resetPage (t.page + i)).regs) :
    u.readPage t i 0x014 = 0 ∧ u.stagedOf t i = [] ∧ (∀ off, off < 0x4000 → u.reg t i off = regReset t i off) ∧
    (∀ a, a / 0x4000 ≠ t.page + i → u.effAt a = d.effAt a ∧ u.stagedAt a = d.stagedAt a) := by
  have hst : u.stagedOf t i = [] := by
    unfold Dev.stagedOf
    rw [h]
    simp only [Dev.resetPage, List.filterMap_eq_nil_iff, List.mem_filter]
    rintro ⟨a, x⟩ ⟨-, h⟩
    simp at h
    simp [h]
  have had : u.admittedOf t i = [] := by
    unfold Dev.admittedOf
    rw [h]
    simp only [Dev.resetPage, List.filterMap_eq_nil_iff, List.mem_filter]
    rintro ⟨a, x⟩ ⟨-, h⟩
    simp at h
    simp [h]
  have her : ∀ (α : Type) (m : FMap α) (df : Nat → α) k, FMap.get df (FMap.erase m k) k = df k := by
    intro α m df k; unfold FMap.get; rw [FMap.find_erase_same]
  have hfil : ∀ (α : Type) (m : FMap α) (df : Nat → α) (a n : Nat), a / 0x4000 = n → FMap.get df (m.filter fun e => e.1 / 0x4000 ≠ n) a = df a := by
    intro α m df a n ha
    unfold FMap.get
    rw [show (m.filter fun e => e.1 / 0x4000 ≠ n).find? (fun e => e.1 == a) = none from ?_]
    rw [List.find?_eq_none]
    intro e he
    simp only [List.mem_filter] at he
    have := he.2
    simp at this
    simp
    rintro rfl
    exact this ha
  have hfil2 : ∀ (α : Type) (m : FMap α) (df : Nat → α) (a n : Nat), a / 0x4000 ≠ n → FMap.get df (m.filter fun e => e.1 / 0x4000 ≠ n) a = FMap.get df m a := by
    intro α m df a n ha
    unfold FMap.get
    rw [show (m.filter fun e => e.1 / 0x4000 ≠ n).find? (fun e => e.1 == a) = m.find? (fun e => e.1 == a) from ?_]
    induction m with
    | nil => rfl
    | cons e m ih =>
      by_cases he : e.1 / 0x4000 = n
      · have : e.1 ≠ a := by rintro rfl; exact ha he
        rw [List.filter_cons_of_neg (by simp [he]), ih]; simp [this]
      · rw [List.filter_cons_of_pos (by simp [he])]
        simp only [List.find?_cons, ih]
  refine ⟨?_, hst, fun off ho => ?_, fun a ha => ⟨?_, ?_⟩⟩
  · unfold Dev.readPage Dev.header Dev.pageStage
    simp only [hst, had]
    unfold Dev.held
    rw [h]
    simp [Dev.resetPage, her, flag]
  · unfold Dev.reg Dev.effAt
    rw [h]
    show FMap.get resetAt (d.regs.eff.filter fun e => e.1 / 0x4000 ≠ t.page + i) (regAt t i off) = _
    rw [hfil _ _ _ _ _ (regAt_page t i off ho)]
    unfold resetAt
    rw [regAt_page t i off ho, pageOf_page t i hi, regAt_off t i off ho]
  · unfold Dev.effAt; rw [h]; exact hfil2 _ _ _ _ _ ha
  · unfold Dev.stagedAt; rw [h]; exact hfil2 _ _ _ _ _ ha

/-! ## Notices and head write-backs -/

theorem Dev.headWriteback_outside (q : Nat) (d : Dev) (k : Nat) (h : outside k (d.hwbAddr q) 4) : (d.headWriteback q).memByte k = d.memByte k := by
  unfold Dev.headWriteback
  dsimp only
  split
  · exact Dev.masterWrite_memSameBut _ _ _ _ k (by simpa [outside, Dev.hwbAddr] using h)
  · rfl

theorem Dev.headWriteback_off (q : Nat) (d : Dev) (h : bit (d.reg .queue q CQE_HWB_LO) 0 = false) : (d.headWriteback q).mem = d.mem := by
  unfold Dev.headWriteback; simp [h]

theorem Dev.post_ring (f : Nat) (n : Notice) (d : Dev) : ((d.post f n).ring f).nseq = (d.ring f).nseq + 1 ∧
    (if d.canPost f then ((d.post f n).ring f).tail = ((d.ring f).tail + 1) % 2 ^ (d.nlog f + 1)
     else ((d.post f n).ring f).lost = (d.ring f).lost + 1 ∧ ((d.post f n).ring f).tail = (d.ring f).tail) := by
  have e : ∀ x : Dev, ∀ a b c, (x.fire a b c).ring f = x.ring f := fun x a b c => by unfold Dev.ring; simp
  by_cases h : d.canPost f
  · simp only [Dev.post, h, not_true, if_false, if_true]
    split
    · simp [e]
    · simp
  · simp [Dev.post, h]

theorem Dev.post_ring_ne {f g : Nat} (h : g ≠ f) (n : Notice) (d : Dev) : (d.post f n).ring g = d.ring g := by
  have e : ∀ x : Dev, ∀ a b c, (x.fire a b c).ring g = x.ring g := fun x a b c => by unfold Dev.ring; simp
  have em : ∀ x : Dev, ∀ a b c, (x.masterWrite a b c).ring g = x.ring g := fun x a b c => by unfold Dev.ring; simp
  unfold Dev.post
  dsimp only
  split
  · exact Dev.ring_setRing_ne _ _ h
  · split
    · rw [e, Dev.ring_setRing_ne _ _ h, em]
    · rw [Dev.ring_setRing_ne _ _ h, em]

theorem Dev.post_outside (f : Nat) (n : Notice) (d : Dev) (k : Nat) (h : outside k (d.noticeAddr f) 32) : (d.post f n).memByte k = d.memByte k := by
  have e : ∀ x : Dev, ∀ a b c, (x.fire a b c).memByte k = x.memByte k := fun x a b c => by unfold Dev.memByte; simp
  have es : ∀ x : Dev, ∀ a b, (x.setRing a b).memByte k = x.memByte k := fun x a b => rfl
  unfold Dev.post
  dsimp only
  split
  · rfl
  · have hh := Dev.masterWrite_memSameBut f (d.noticeAddr f) (n.words (d.ring f).nseq (d.ring f).tail (d.nlog f)) d k (by simpa [outside, Notice.words] using h)
    split
    · rw [e, es]; exact hh
    · rw [es]; exact hh

theorem Dev.noticeIrq_ring (f g : Nat) (d : Dev) : ((d.noticeIrq f).ring g).nseq = (d.ring g).nseq ∧ ((d.noticeIrq f).ring g).tail = (d.ring g).tail ∧ 
    ((d.noticeIrq f).ring g).lost = (d.ring g).lost ∧ (g ≠ f → (d.noticeIrq f).ring g = d.ring g) := by
  have e : ∀ x : Dev, ∀ a b, (x.msix a b).ring g = x.ring g := fun x a b => by unfold Dev.ring; simp
  have e2 : ∀ r : NRing, r.nseq = (d.ring f).nseq → r.tail = (d.ring f).tail → r.lost = (d.ring f).lost → 
     ((d.setRing f r).ring g).nseq = (d.ring g).nseq ∧ ((d.setRing f r).ring g).tail = (d.ring g).tail ∧ 
    ((d.setRing f r).ring g).lost = (d.ring g).lost ∧ (g ≠ f → (d.setRing f r).ring g = d.ring g) := by
    intro r h1 h2 h3
    by_cases h : g = f
    · subst h; simp [h1, h2, h3]
    · rw [Dev.ring_setRing_ne _ _ h]; simp
  unfold Dev.noticeIrq
  dsimp only
  split
  · simp
  · (repeat' split) <;> first | (rw [e]; exact e2 _ rfl rfl rfl) | exact e2 _ rfl rfl rfl

theorem Dev.noticeThen_posted {f : Nat} {n : Notice} {k : Dev → Dev} {d : Dev} (hk : ∀ x, (k x).rings = x.rings) :
    d.posted (d.noticeThen f n k) f := by
  have ea : ∀ g, ∀ x : Dev, (k x).ring g = x.ring g := fun g x => by unfold Dev.ring; rw [hk]
  have hring : ∀ g, ((d.noticeThen f n k).ring g).nseq = ((d.post f n).ring g).nseq ∧
      ((d.noticeThen f n k).ring g).tail = ((d.post f n).ring g).tail ∧
      ((d.noticeThen f n k).ring g).lost = ((d.post f n).ring g).lost ∧ (g ≠ f → 
      (d.noticeThen f n k).ring g = ((d.post f n).ring g)) := by
    intro g
    unfold Dev.noticeThen
    dsimp only
    split
    · obtain ⟨a, b, c, d⟩ := Dev.noticeIrq_ring f g (k (d.post f n))
      rw [ea] at *
      exact ⟨a, b, c, d⟩
    · rw [ea]; simp
  obtain ⟨p1, p2⟩ := Dev.post_ring f n d
  refine ⟨?_, ?_, ?_⟩
  · rw [(hring f).1, p1]
  · split
    · next hcp => rw [(hring f).2.1]; rw [if_pos hcp] at p2; rw [p2]
    · next hcp => rw [(hring f).2.2.1, (hring f).2.1]; rw [if_neg hcp] at p2; exact p2
  · intro g hg; rw [(hring g).2.2.2 hg, Dev.post_ring_ne hg]

theorem Dev.noticeThen_outside {f : Nat} {n : Notice} {k : Dev → Dev} {d : Dev} {a : Nat}
    (hk : ∀ x, x.regs = d.regs → (k x).memByte a = x.memByte a) (ha : outside a (d.noticeAddr f) 32) :
    (d.noticeThen f n k).memByte a = d.memByte a := by
  have e2 : ∀ d : Dev, (d.noticeIrq f).memByte a = d.memByte a := fun d => by unfold Dev.memByte; simp
  unfold Dev.noticeThen
  dsimp only
  split
  · rw [e2, hk _ (by simp), Dev.post_outside _ _ _ _ ha]
  · rw [hk _ (by simp), Dev.post_outside _ _ _ _ ha]

/-! ## Queue entries -/

theorem State.dev_arrival {q op : Nat} {k : Dev → Dev} {s : State} (h : s.dev.arrives q op = true) :
    s.dev! (Dev.arrival q op k) = .next { s with dev := (k s.dev).closeTurn q } := by
  unfold State.dev! Dev.arrival Dev.when; simp [h]

theorem Dev.outsideOnly_alone {q : Nat} {k : Dev → Dev} {s : State} (hd : (s.dev.queue q).discard = false) (ht : (s.dev.queue q).txn = none) :
    Dev.outsideOnly q k s.dev = k s.dev := by unfold Dev.outsideOnly; simp [hd, ht]

theorem Dev.settle_queue_of (q p : Nat) (d : Dev) : ∃ st r f b l pd, (d.settle q).queue p =
      { d.queue p with state := st, reading := r, fail := f, buf := b, limit := l, dbPend := pd } := by
  by_cases h : p = q
  · subst h; exact Dev.settle_queue p d
  · exact ⟨_, _, _, _, _, _, Dev.settle_ne h d⟩

theorem Dev.consume_any_ne (q g : Nat) (a b : Bool) (d : Dev) (p : Nat × Queue → Bool) :
   ((d.consume q g a b).queues.any fun e => e.1 != q && p e) = (d.queues.any fun e => e.1 != q && p e) := by
  unfold Dev.consume Dev.setQueue
  dsimp only
  rw [FMap.any_put_ne]
  unfold Dev.takeTurn Dev.beginTurn Dev.setQueue
  dsimp only
  split
  · split
    · rfl
    · exact FMap.any_put_ne (fun _ => ({} : Queue)) d.queues q _ p
  · exact FMap.any_put_ne (fun _ => ({} : Queue)) d.queues q _ p
  · exact FMap.any_put_ne (fun _ => ({} : Queue)) d.queues q _ p

theorem Dev.closeTurn_memByte (q k : Nat) (d : Dev) : (d.closeTurn q).memByte k = d.memByte k := by
  unfold Dev.memByte; simp

theorem Dev.foldl_msix_memByte (k : Nat) (l : List (Nat × Nat)) (d : Dev) : (l.foldl (fun d e => d.msix e.1 e.2) d).memByte k = d.memByte k := by
  induction l generalizing d with
  | nil => rfl
  | cons a l ih => rw [List.foldl_cons, ih]; unfold Dev.memByte; simp

theorem Dev.advanceHead_outside (q : Nat) (d : Dev) (k : Nat) (h : outside k (d.hwbAddr q) 4) : (d.advanceHead q).memByte k = d.memByte k := by
  unfold Dev.advanceHead
  dsimp only
  split
  · rfl
  · rw [Dev.foldl_msix_memByte, Dev.headWriteback_outside]
    · rfl
    · exact h

theorem Dev.completeGrp_outside (q g : Nat) (d : Dev) (k : Nat) (h : outside k (d.hwbAddr q) 4) : (d.completeGrp q g).memByte k = d.memByte k := by
  unfold Dev.completeGrp
  dsimp only
  rw [Dev.advanceHead_outside]
  · rfl
  · exact h

theorem dropDone_mem {e : QEntry} : ∀ {l : List QEntry}, e ∈ (dropDone l).1 → e ∈ l
  | a :: l, h => by
    unfold dropDone at h
    split at h
    · exact List.mem_cons_of_mem _ (dropDone_mem h)
    · exact h

theorem Dev.completeGrp_done (q g : Nat) (d : Dev) : ∀ e ∈ ((d.completeGrp q g).queue q).entries, e.grp = g → e.done = true := by
  unfold Dev.completeGrp
  dsimp only
  have key : ∀ x : Dev, (∀ e ∈ (x.queue q).entries, e.grp = g → e.done = true) → ∀ e ∈ ((x.advanceHead q).queue q).entries, e.grp = g → e.done = true := by
    intro x hx e he
    rcases Dev.advanceHead_queue q x with h | h
    · rw [h] at he; exact hx e (dropDone_mem he)
    · rw [h] at he; exact hx e he
  apply key
  rw [Dev.queue_setQueue]
  intro e he hg
  simp only [List.mem_map] at he
  obtain ⟨a, -, rfl⟩ := he
  by_cases h : a.grp = g
  · simp [h]
  · simp [h] at hg

theorem Dev.refuseAlone_spec (q r kd ix : Nat) (d : Dev) :
    (((d.refuseAlone q r kd ix).queue q).cidx = ((d.queue q).cidx + (d.queue q).frontLen) % d.qmod q ∧
      ((d.refuseAlone q r kd ix).queue q).note = (d.queue q).note ∧ ((d.refuseAlone q r kd ix).queue q).txn = (d.queue q).txn ∧
      ((d.refuseAlone q r kd ix).queue q).pause = (d.queue q).pause) ∧
    d.posted (d.refuseAlone q r kd ix) (d.owner q) ∧ (∀ p, p ≠ q → (d.refuseAlone q r kd ix).queue p = d.queue p) ∧
    ∀ k, outside k (d.noticeAddr (d.owner q)) 32 → outside k (d.hwbAddr q) 4 → (d.refuseAlone q r kd ix).memByte k = d.memByte k := by
  unfold Dev.refuseAlone
  dsimp only
  generalize d.arrivalRefusal q 0 r 0 kd ix = n
  obtain ⟨tc, cc, hc⟩ := Dev.consume_queue q d.newGrp true true d
  have hreg : (d.consume q d.newGrp true true).useGrp.regs = d.regs := by simp [Dev.useGrp]
  have hmem : (d.consume q d.newGrp true true).useGrp.mem = d.mem := by simp [Dev.useGrp]
  have hrings : (d.consume q d.newGrp true true).useGrp.rings = d.rings := by simp [Dev.useGrp]
  have hne : ∀ p, p ≠ q → (d.consume q d.newGrp true true).useGrp.queue p = d.queue p := fun p hp => by
      rw [Dev.useGrp_queue, Dev.consume_ne hp]
  have hyq := (Dev.useGrp_queue q (d.consume q d.newGrp true true)).trans hc
  have how : (d.consume q d.newGrp true true).owner q = d.owner q := Dev.owner_congr (by simp) q
  clear how
  generalize (d.consume q d.newGrp true true).useGrp = y at *
  set f := d.owner q with hf
  obtain ⟨es, hd', hnq⟩ : ∃ es hd, (y.noticeThen f n (Dev.advanceHead q)).queue q = { y.queue q with entries := es, head := hd } := by
    rw [Dev.noticeThen_queue]
    obtain ⟨es, hd, e⟩ := Dev.advanceHead_frame' q (y.post f n)
    exact ⟨es, hd, by rw [e, Dev.post_queue]⟩
  obtain ⟨st, r, f', bb, l, pd, hss⟩ := Dev.settle_queue_of q q (y.noticeThen f n (Dev.advanceHead q))
  rw [hnq, hyq] at hss
  have hp : y.posted (y.noticeThen f n (Dev.advanceHead q)) f := Dev.noticeThen_posted (fun x => by simp)
  refine ⟨⟨by rw [hss], by rw [hss], by rw [hss], by rw [hss]⟩, ?_, ?_, ?_⟩
  · exact Dev.posted_congr (Dev.posted_of_congr hp hrings hreg) (by simp)
  · intro p hp; rw [Dev.settle_ne hp, Dev.noticeThen_queue, Dev.advanceHead_ne hp, Dev.post_queue, hne p hp]
  · intro k h1 h2
    have e1 : ∀ d : Dev, (d.settle q).memByte k = d.memByte k := fun d => by unfold Dev.memByte; simp
    rw [e1, Dev.noticeThen_outside , Dev.memByte_congr hmem]
    · intro x hx; rw [Dev.advanceHead_outside]; rwa [Dev.hwbAddr_congr (hx.trans hreg)]
    · rwa [Dev.noticeAddr_congr hreg hrings]

theorem Dev.consumeDone_spec (q : Nat) (d : Dev) :
    (((d.consumeDone q).queue q).cidx = ((d.queue q).cidx + (d.queue q).frontLen) % d.qmod q ∧
      ((d.consumeDone q).queue q).note = (d.queue q).note ∧ ((d.consumeDone q).queue q).txn = (d.queue q).txn ∧
      ((d.consumeDone q).queue q).pause = (d.queue q).pause) ∧
    (∀ p, p ≠ q → (d.consumeDone q).queue p = d.queue p) ∧
    ∀ k, outside k (d.hwbAddr q) 4 → (d.consumeDone q).memByte k = d.memByte k := by
  unfold Dev.consumeDone
  obtain ⟨tc, cc, hc⟩ := Dev.consume_queue q d.newGrp true true d
  have hreg : (d.consume q d.newGrp true true).useGrp.regs = d.regs := by simp [Dev.useGrp]
  have hmem : (d.consume q d.newGrp true true).useGrp.mem = d.mem := by simp [Dev.useGrp]
  have hne : ∀ p, p ≠ q → (d.consume q d.newGrp true true).useGrp.queue p = d.queue p := fun p hp => by
      rw [Dev.useGrp_queue, Dev.consume_ne hp]
  have hyq := (Dev.useGrp_queue q (d.consume q d.newGrp true true)).trans hc
  generalize (d.consume q d.newGrp true true).useGrp = y at *
  obtain ⟨es, hd', hnq⟩ := Dev.advanceHead_frame' q y
  obtain ⟨st, r, f', bb, l, pd, hss⟩ := Dev.settle_queue_of q q (y.advanceHead q)
  rw [hnq, hyq] at hss
  refine ⟨⟨by rw [hss], by rw [hss], by rw [hss], by rw [hss]⟩, ?_, ?_⟩
  · intro p hp; rw [Dev.settle_ne hp, Dev.advanceHead_ne hp, hne p hp]
  · intro k h2
    have e1 : ∀ d : Dev, (d.settle q).memByte k = d.memByte k := fun d => by unfold Dev.memByte; simp
    rw [e1, Dev.advanceHead_outside, Dev.memByte_congr hmem]
    rwa [Dev.hwbAddr_congr hreg]

theorem Dev.holdForUnit_spec (q : Nat) (d : Dev) : d.consumedFront (d.holdForUnit q) q d.scene.nextGrp false ∧
    ((d.holdForUnit q).queue q).pause = some .unit := by
  unfold Dev.holdForUnit
  dsimp only
  obtain ⟨tc, cc, hc⟩ := Dev.consume_queue q d.newGrp false false d
  have hne : ∀ p, p ≠ q → (d.consume q d.newGrp false false).useGrp.queue p = d.queue p := fun p hp => by
    rw [Dev.useGrp_queue, Dev.consume_ne hp]
  have hyq := (Dev.useGrp_queue q (d.consume q d.newGrp false false)).trans hc
  generalize (d.consume q d.newGrp false false).useGrp = y at *
  have hz := Dev.queue_setQueue q { y.queue q with pause := some .unit, heldWords := List.take (4 * (d.queue q).frontLen) (d.queue q).buf } y
  have hzn : ∀ p, p ≠ q → (y.setQueue q { y.queue q with pause := some .unit, heldWords := List.take (4 * (d.queue q).frontLen) (d.queue q).buf }).queue p = d.queue p := fun p hp => by
    rw [Dev.queue_setQueue_ne _ _ hp, hne p hp]
  generalize y.setQueue q { y.queue q with pause := some .unit, heldWords := List.take (4 * (d.queue q).frontLen) (d.queue q).buf } = z at *
  obtain ⟨st, r, f', bb, l, pd, hss⟩ := Dev.settle_queue_of q q z
  rw [hz, hyq] at hss
  exact ⟨⟨by rw [hss], by rw [hss]; rfl, by rw [hss], fun p hp => by rw [Dev.settle_ne hp, hzn p hp]⟩, by rw [hss]⟩

theorem Dev.consume_then_spec (q : Nat) (d : Dev) (k : Dev → Dev) (hk : ∀ x, (k x).queues = x.queues) :
    d.consumedFront ((k (d.consume q d.newGrp true false).useGrp).settle q) q d.scene.nextGrp true := by
  obtain ⟨tc, cc, hc⟩ := Dev.consume_queue q d.newGrp true false d
  have hne : ∀ p, p ≠ q → (k (d.consume q d.newGrp true false).useGrp).queue p = d.queue p := fun p hp => by
    rw [Dev.queue_congr (hk _), Dev.useGrp_queue, Dev.consume_ne hp]
  have hyq := (Dev.queue_congr (hk (d.consume q d.newGrp true false).useGrp) q).trans ((Dev.useGrp_queue q (d.consume q d.newGrp true false)).trans hc)
  generalize k (d.consume q d.newGrp true false).useGrp = z at *
  obtain ⟨st, r, f', bb, l, pd, hss⟩ := Dev.settle_queue_of q q z
  rw [hyq] at hss
  exact ⟨by rw [hss], by rw [hss]; rfl, by rw [hss], fun p hp => by rw [Dev.settle_ne hp, hne p hp]⟩

theorem Dev.consumedFront_closeTurn {x y : Dev} {q g : Nat} {b : Bool} (h : x.consumedFront y q g b) : x.consumedFront (y.closeTurn q) q g b := by
  unfold Dev.consumedFront at *; simpa only [Dev.closeTurn_queue] using h

theorem Dev.settle_keeps {q : Nat} {d : Dev} (hs : (d.queue q).state = .running) (hf : (d.queue q).fail = none) (hl : (d.queue q).frontLen ≤ 2 ^ d.qlog q) :
    ((d.settle q).queue q).state = .running ∧ ((d.settle q).queue q).buf = (d.queue q).buf := by
  unfold Dev.settle
  dsimp only
  rw [if_neg (by rw [hs]; simp), if_neg (by omega)]
  have : d.failsNow q = none := by unfold Dev.failsNow; split <;> simp [hf]
  rw [this]
  dsimp only
  obtain ⟨r, h⟩ := Dev.startRead_queue q d
  split
  · obtain ⟨r', l, b, h'⟩ := Dev.snapshot_queue q (d.startRead q)
    rw [h', h]; exact ⟨hs, rfl⟩
  · rw [h]; exact ⟨hs, rfl⟩

theorem Dev.readSlots_ok (d : Dev) (q : Nat) (n : Nat) : ∀ i, (∀ k, k < n → d.readRes (d.owner q) (d.slotAddr q (i + k)).toNat 16 = .ok) →
    d.readSlots q .ok i n = (d.ringWords q i n, none) := by
  induction n with
  | zero => intro i _; simp [Dev.readSlots, Dev.ringWords]
  | succ n ih =>
    intro i h
    have ih := ih (i + 1) (fun k hk => by have := h (k + 1) (by omega); rwa [show i + (k + 1) = i + 1 + k by omega] at this)
    have h0 := h 0 (by omega)
    rw [show i + 0 = i by omega] at h0
    have hw : d.ringWords q i (n + 1) = bytesWords 4 (d.bytes (d.slotAddr q i).toNat 16) ++ d.ringWords q (i + 1) n := by
      unfold Dev.ringWords
      generalize hf : (fun k => bytesWords 4 (d.bytes (d.slotAddr q k).toNat 16)) = f
      have e1 : ∀ j, (fun k => bytesWords 4 (d.bytes (d.slotAddr q (j + k)).toNat 16)) = fun k => f (j + k) := by intro j; rw [← hf]
      have e2 : bytesWords 4 (d.bytes (d.slotAddr q i).toNat 16) = f i := by rw [← hf]
      rw [e1, e1, e2, List.range_succ_eq_map, List.flatMap_cons, List.flatMap_map]
      simp only [Nat.add_zero, Nat.add_assoc, Nat.add_comm 1]
    rw [hw]
    unfold Dev.readSlots
    simp only [h0, ih]

/-! ## DMA channels -/

theorem Dev.chan_setChan_other {n k : Nat} (h : k ≠ n) (x : Chan) (d : Dev) : (d.setChan n x).chan k = d.chan k := Dev.chan_setChan_ne x d h

theorem Dev.foldl_chans {α} (f : Dev → α → Dev) (hf : ∀ d a, (f d a).chans = d.chans) (l : List α) (d : Dev) : (l.foldl f d).chans = d.chans := by
  induction l generalizing d with
  | nil => rfl
  | cons a l ih => rw [List.foldl_cons, ih, hf]

theorem Dev.startJob_ne {n k : Nat} (h : k ≠ n) (j : DmaStart) (d : Dev) : (d.startJob n j).chan k = d.chan k := by
  have e : (d.takeChan n).chans = d.chans := by
    unfold Dev.takeChan; split
    · rfl
    · unfold Dev.setRegs; dsimp only; rw [Dev.foldl_chans]
      · simp
      · intros; rfl
  unfold Dev.startJob; dsimp only; split <;> rw [Dev.chan_setChan_other h, Dev.chan_congr e]

theorem Dev.startJob_self (n : Nat) (j : DmaStart) (d : Dev) : ∃ jb a ch, (d.startJob n j).chan n = { d.chan n with
    state := .running, job := some jb, step := .fetch, addr := a, moved := 0, hops := 0, chained := ch, kept := [],
    bytes := 0, err := 0, errHop := 0, issued := d.now } := by
  have e : (d.takeChan n).chans = d.chans ∧ (d.takeChan n).now = d.now := by
    unfold Dev.takeChan; split
    · exact ⟨rfl, rfl⟩
    · refine ⟨?_, by simp⟩
      unfold Dev.setRegs; dsimp only; rw [Dev.foldl_chans]
      · simp
      · intros; rfl
  unfold Dev.startJob; dsimp only; split <;> exact ⟨_, _, _, by rw [Dev.chan_setChan, Dev.chan_congr e.1, e.2]⟩

theorem Dev.chanIdle_ne {n k : Nat} (h : k ≠ n) (d : Dev) : (d.chanIdle n).chan k = d.chan k := by
  unfold Dev.chanIdle; dsimp only
  split
  · exact Dev.chan_congr (by simp) k
  · split
    · exact Dev.chan_congr (by simp) k
    · rw [Dev.startJob_ne h]; exact Dev.chan_congr (by simp) k

end Sys2Proof.Machine
end

