-- ==== Sys2Proof/Tests/Slice0.lean ====
section
/-!
SUPPORT. Tests: well-formedness, examples worked by hand from the spec, and for each statement with hypotheses one witness
that shows them met. A witness has one group for each clause of its statement, and all the hypotheses of the clause hold of
the one state that the group names.
-/
namespace Sys2Proof.Machine
set_option Elab.async false

/-! ## Small states -/

/-- A ready device. -/
def rdy : Dev := { rst := { phase := .ready } }
/-- A state with a device made from a ready one. -/
def ready (f : Dev → Dev) : State := ⟨f rdy, []⟩
/-- A device at `n` nanoseconds of device time and of the timebase. -/
def Dev.atTime (n : Nat) (d : Dev) : Dev := { d with now := n, tb := { count := BitVec.ofNat 64 n } }
/-- Function 0 holds an arm on the first page of a type. -/
def Dev.arm (t : PType) (d : Dev) : Dev := d.setArm t.page 0 true
/-- Queue 0 runs with 16 slots, and these words of its ring fetched; it has the turn. -/
def fetched (ws : List Word) (d : Dev) : Dev :=
  ({ d with turn := some (0, 1) }.setQueue 0 { state := .running, buf := ws, limit := ws.length / 4 }).setReg .queue 0
    CQE_SIZE 4
/-- Queue 0 with an open transaction. -/
def opened (ws : List Word) (d : Dev) : Dev := (fetched ws d).setQueue 0 { (fetched ws d).queue 0 with txn := some {} }
/-- Queue 0 as `x`, with 16 slots. -/
def onQueue (x : Queue) : Dev := (rdy.setQueue 0 x).setReg .queue 0 CQE_SIZE 4

/-- Canvas 0 as `x`, at 512 × 1080 with bands of 16 lines and a distance of 96 lines. -/
def lit (x : Canvas) : Dev :=
  ((((rdy.setCanvas 0 x).setReg .cnv 0 CNV_SCLK 4000000).setReg .cnv 0 CNV_TIM_H 0x07D00200).setReg .cnv 0 CNV_TIM_V
    0x044C0438).setReg .cnv 0 CNV_BUF 0x10C
/-- Pipe 0 as `x`. -/
def onPipe (x : Pipe) : Dev := (lit { state := .running, raster := { h := 1080, w := 512, d := 96 } }).setPipe 0 x
/-- Port 0 as `x`. -/
def onPort (x : Port) : Dev := (rdy.arm .dpt).setPort 0 x
/-- Channel 0 as `x`. -/
def onChan (x : Chan) : Dev := (rdy.arm .chan).setChan 0 x
/-- Engine 0 as `x`, at a width of 32 bits. -/
def onEngine (x : Engine) : Dev := ((rdy.arm .cvu).setEngine 0 x).setReg .cvu 0 CVU_CFG 32
/-- Marver as `x`. -/
def onMarver (x : Marver) : Dev := { rdy with mrv := x }
/-- The memory controller in service as `x`. -/
def onMct (x : Mct) : Dev := { rdy with mct := { x with state := 2 } }
/-- Lane 0 as `x`, with tracking on. -/
def onLane (x : Lane) : Dev := { (rdy.arm .site).setReg .lhr 0 LHR_CTL 7 with mct := { state := 2, lanes := [(0, x)] } }
/-- The management core as `x`. -/
def onSvc (x : Svc) : Dev := ({ rdy with svc := x } : Dev).atTime 130000000

/-! ## Well-formedness -/

/-- An access whose offset is not aligned to its size, and one with data beyond its size. -/
theorem test_wf_access : accessWf 2 4 0 = false ∧ accessWf 0 3 0 = false ∧ accessWf 0 4 0x100000000 = false ∧
    accessWf 4 4 0xFFFFFFFF = true := by decide

/-- An alias write at a base offset. -/
theorem test_wf_alias : aliasWf 0x0040 = false ∧ aliasWf 0x1042 = false ∧ aliasWf 0x1040 = true := by decide

/-- One ill-formed command for each other check. -/
theorem test_wf_refused :
    Instr.wf (.ringFetchComplete 0 65 .ok) = false ∧ Instr.wf (.auxReply 0 (.ack (List.replicate 17 0))) = false ∧
    Instr.wf (.memoryRequest ⟨0, 3, 0, 0, none, 0⟩) = false ∧ Instr.wf (.memoryRequest ⟨0, 2, 0, 4, none, 0⟩) = false ∧
    Instr.wf (.atomReadReturn 0 { linkFail := [(17, 0)] }) = false ∧
    Instr.wf (.rebuildCopy { flips := [(0, 16, 1)] }) = false ∧
    Instr.wf (.atomReadReturn 0 { shadow := [⟨18, 0, 0, 0, []⟩] }) = false ∧
    Instr.wf (.writeProbe 0 { diffs := [(18, 0)] }) = false ∧ Instr.wf (.writeProbe 0 { spare := 129 }) = false ∧
    Instr.wf (.faruoTick ⟨0, 0, 0, [], [], 0, false⟩) = false ∧
    Instr.wf (.fwStage (some ⟨0, 1, 33, 1600, []⟩) false) = false ∧
    Instr.wf (.bootAuthentication (some ⟨0, some ⟨0, 1, 32, 825, []⟩⟩) none) = false ∧
    Instr.wf (.bistComplete [(0, 0), (0, 0)]) = false ∧ Instr.wf (.memoryTrainingComplete [] ⟨300, 118⟩) = false ∧
    Instr.wf (.memoryTrainingComplete (List.replicate 72 ⟨0, 0, 0, 0, 0, 0⟩) ⟨99, 118⟩) = false ∧
    Instr.wf (.cspLutDataRead 0 0 1 4) = false ∧ Instr.wf (.configurationRequest 0 1) = false := by decide

/-! ## Witnesses: the hypotheses of the statements can be met -/

theorem wit_step : (∃ t, exec .tapReset (ready id) = .next t) ∧ Memory.wf State.reset.dev.mem = true ∧
    ∃ t, step State.reset = .next t := ⟨⟨_, rfl⟩, by decide, ⟨_, rfl⟩⟩

theorem wit_IdleStepIsOneClockCycle :
    (∀ d ∈ [{ rdy with tb := { run := true } }], d.tb.run = true ∧ d.tb.err = 0 ∧ d.tb.rate = 0 ∧
      (d.snapOf 36).asked = none) ∧
    rdy.tb.run = false := by decide

theorem wit_PlainRegisterTakesItsFields :
    plainReg .tmb TMB_SET_LO = true ∧ (regDesc .tmb 0 TMB_SET_LO).isSome = true ∧ rdy.mayWriteReg 0 .tmb 0 TMB_SET_LO ∧
      rdy.mayWriteReg 0 .tmb 0 (TMB_SET_LO + 0x3000) := by
  simp only [Dev.mayWriteReg, Dev.mayWrite]; decide +kernel

theorem wit_StagedWriteWaits :
    rdy.mayWriteReg 0 .csp 0 CSP_MAT ∧
    rdy.mayWriteReg 0 .csp 127 (CSP_MAT + 20) := by
  simp only [Dev.mayWriteReg, Dev.mayWrite]; decide +kernel

theorem wit_AccessSizes : areaOf (0x0040 / 0x4000) ≠ .witness ∧ isDoorbell 0x0044 = false ∧ rdy.mayWrite 0 0x0044 ∧
    ∃ v, exec (.registerWrite 0 0x0040 4 5) (ready id) = .next v := by
  refine ⟨by decide, by decide, ?_, ⟨_, rfl⟩⟩; simp only [Dev.mayWrite]; decide

theorem wit_WriteWithoutRightIsDenied :
    rdy.responds PType.acc.page = true ∧ rdy.offRight 1 (regAt .acc 0 ACC_CTL) ≠ 2 := by
  decide

theorem wit_ReservedOffsets :
    areaOf (0x1610000 / 0x4000) = .reserved ∧
    areaOf (0x1FF0400 / 0x4000) = .msix := by
  decide

theorem wit_KeysArmPages :
    rdy.mayWriteReg 0 .lhr 0 0x00C ∧
    (rdy.mayWriteReg 0 .chan 31 0x00C ∧ PType.chan.page + 31 < 2048) := by
  simp only [Dev.mayWriteReg, Dev.mayWrite]; decide +kernel

theorem wit_KeyedRegisterNeedsAnArm :
    (∀ d ∈ [rdy.arm .lhr], d.mayWriteReg 0 .lhr 0 LHR_CTL ∧ d.armed 36 0 = true) ∧
    (rdy.mayWriteReg 0 .lhr 0 LHR_CTL ∧ rdy.armed 36 0 = false ∧
      bit (lo32 0) 0 ≠ bit ((rdy.setReg .lhr 0 LHR_CTL 1).readPage .lhr 0 LHR_CTL) 0) := by
  simp only [Dev.mayWriteReg, Dev.mayWrite]; decide +kernel

theorem wit_ReservedValueKeepsItsField :
    ∀ d ∈ [rdy.arm .lhr], d.mayWriteReg 0 .lhr 0 LHR_CFG ∧ d.armed 36 0 = true ∧ bits (lo32 0x01020107) 3 0 < 8 ∧
      1 ≤ bits (lo32 0x01020107) 29 24 ∧ 2 ≤ bits (lo32 0x01020107) 21 16 ∧ 1 ≤ bits (lo32 0x01020107) 15 8 := by
  simp only [Dev.mayWriteReg, Dev.mayWrite]; decide +kernel

theorem wit_StagedWordsApplyUnlessHeld :
    (rdy.mayWriteReg 0 .csp 0 0x014 ∧ rdy.mayWriteReg 0 .chan 31 0x014) ∧
    (∀ d ∈ [rdy.setStagedAt (regAt .csp 0 CSP_MAT) (some 5)], (d.canvas 0).state = .off ∧ d.held PType.csp.page = false ∧
      d.stagedOf .csp 0 = [(CSP_MAT, 5)]) ∧
    (∀ d ∈ [rdy.setStagedAt (regAt .chan 0 DMA_CH_CFG) (some 5)], (d.chan 0).state = .off ∧
      d.stagedOf .chan 0 = [(DMA_CH_CFG, 5)]) := by
  simp only [Dev.mayWriteReg, Dev.mayWrite]; decide +kernel

theorem wit_SnapshotHoldsItsGroup :
    rdy.mayWriteReg 0 .lhr 0 0x020 ∧
    (∀ x ∈ [({ asked := some 0, group := 1 } : Snap), { asked := some 0, taken := some none }],
      ∀ d ∈ [({ rdy with regs := { snaps := [(36, x)] } } : Dev)], (d.regs.snaps.map (·.1)).Nodup ∧ d.snapOf 36 = x ∧
      x.asked = some 0) := by
  simp only [Dev.mayWriteReg, Dev.mayWrite]; decide +kernel

theorem wit_BlockResetDiscardsStagedValues :
    ∀ t ∈ [PType.cnv, .csp, .dpt, .queue, .chan, .cvu, .mrv, .gth, .cmp, .flt, .log, .tmb],
      (rdy.arm t).mayWriteReg 0 t 0 0x010 ∧ (rdy.arm t).armed (t.page + 0) 0 = true ∧ (rdy.canvas 0).state = .off ∧
      (rdy.port 0).state = .off ∧ (rdy.queue 0).state = .off ∧ (rdy.chan 0).state = .off ∧ (rdy.engine 0).state = .off ∧
      rdy.mrv.state = .idle := by
  simp only [Dev.mayWriteReg, Dev.mayWrite]; decide +kernel

theorem wit_SceneBeginOpensOrPauses :
    (∀ d ∈ [fetched [0xABCD0001, 0, 0, 0] rdy], d.arrives 0 0x01 = true ∧ (d.queue 0).txn = none ∧ (d.queue 0).outst < 4 ∧
      d.minInUse 0 = false) ∧
    (∀ d ∈ [(fetched [1, 0, 0, 0] rdy).setQueue 0 { (fetched [1, 0, 0, 0] rdy).queue 0 with outst := 4 }],
      d.arrives 0 0x01 = true ∧ (d.queue 0).txn = none ∧ 4 ≤ (d.queue 0).outst) := by
  decide +kernel

theorem wit_SceneEntriesAreStaged :
    (∀ d ∈ [opened (0x803 :: 0x7FFF :: List.replicate 34 0) rdy], (d.queue 0).txn = some {} ∧ (d.queue 0).discard = false ∧
      d.arrives 0 0x03 = true ∧ ({} : Txn).exceeds (.window 0x7FFF {}) = false) ∧
    (∀ d ∈ [opened [4, 0, 0, 0] rdy], (d.queue 0).txn = some {} ∧ (d.queue 0).discard = false ∧ d.arrives 0 0x04 = true ∧
      ({} : Txn).exceeds (.window 0 {}) = false) ∧
    (∀ d ∈ [opened (0x405 :: 0x3FFF :: List.replicate 18 0) rdy], (d.queue 0).txn = some {} ∧ (d.queue 0).discard = false ∧
      d.arrives 0 0x05 = true ∧ ({} : Txn).exceeds (.surface 0x3FFF {}) = false) ∧
    (∀ d ∈ [opened (0x106 :: 127 :: 7 :: 5 :: 6 :: 8 :: List.replicate 2 0) rdy], (d.queue 0).txn = some {} ∧
      (d.queue 0).discard = false ∧ d.arrives 0 0x06 = true ∧ ({} : Txn).exceeds (.canvas 127 ⟨7, 5, 6, 8⟩) = false ∧
      (7 : BitVec 3).toNat = bits (wordAt (d.queue 0).buf 2) 2 0 ∧ wordAt (d.queue 0).buf 3 = 5 ∧
      wordAt (d.queue 0).buf 4 = 6 ∧ (8 : BitVec 30).toNat = bits (wordAt (d.queue 0).buf 5) 29 0) := by
  decide +kernel

theorem wit_CommitSendsTheTransaction :
    ∀ d ∈ [opened [2, 0, 0, 0] rdy], d.arrives 0 0x02 = true ∧ (d.queue 0).txn = some {} ∧ (d.queue 0).discard = false := by
  decide +kernel

theorem wit_NotesAndNopsCompleteOnArrival :
    (∀ d ∈ [fetched [0xABCD001E, 0, 0, 0] rdy], (d.queue 0).discard = false ∧ (d.queue 0).txn = none ∧
      (d.queue 0).entries = [] ∧ (d.queue 0).frontLen ≠ 0 ∧ d.arrives 0 0x1E = true) ∧
    (∀ d ∈ [fetched [0x1F, 0, 0, 0] rdy], (d.queue 0).discard = false ∧ (d.queue 0).txn = none ∧ (d.queue 0).entries = [] ∧
      (d.queue 0).frontLen ≠ 0 ∧ d.arrives 0 0x1F = true) := by
  decide +kernel

theorem wit_ReservedOpcodeIsRefused :
    ∀ d ∈ [fetched [0, 0, 0, 0] rdy], d.arrives 0 0 = true ∧ (d.queue 0).discard = false ∧ (d.queue 0).txn = none := by
  decide +kernel

theorem wit_WaitsBeginAndEnd :
    (∀ d ∈ [fetched (0x70112 :: List.replicate 7 0) rdy], d.arrives 0 0x12 = true ∧ (d.queue 0).discard = false ∧
      (d.queue 0).txn = none ∧ 5 ≤ (d.waitAsked 0).event) ∧
    (∀ d ∈ [fetched (0x30112 :: List.replicate 7 0) rdy], d.arrives 0 0x12 = true ∧ (d.queue 0).discard = false ∧
      (d.queue 0).txn = none ∧ (d.waitAsked 0).event < 5 ∧ d.levelMet (d.waitAsked 0) = true) ∧
    (∀ d ∈ [fetched (0x112 :: List.replicate 7 0) rdy], d.arrives 0 0x12 = true ∧ (d.queue 0).discard = false ∧
      (d.queue 0).txn = none ∧ (d.waitAsked 0).event < 5 ∧ d.levelMet (d.waitAsked 0) = false) ∧
    (∀ w ∈ [(⟨3, 0, 0, 1000, 0, 0, 0⟩ : Wait)], ∀ d ∈ [(onQueue { pause := some (.wait w) }).atTime 1000],
      (d.queue 0).pause = some (.wait w) ∧ w.event = 3 ∧ w.time.toNat ≤ d.time.toNat) ∧
    (∀ w ∈ [(⟨0, 0, 0, 0, 1, 0, 0⟩ : Wait)], ∀ d ∈ [(onQueue { pause := some (.wait w) }).atTime 1000],
      (d.queue 0).pause = some (.wait w) ∧ w.timeoutUs ≠ 0 ∧ w.since + 1000 * w.timeoutUs ≤ d.now) := by
  decide +kernel

theorem wit_UnitEntriesStartOrWait :
    (∀ x ∈ [({ state := .idle, en := true } : Chan), { state := .running, en := true }, {}],
      ∀ d ∈ [(fetched [0x10, 0, 64, 0] rdy).setChan 0 x], d.arrives 0 0x10 = true ∧ (d.queue 0).discard = false ∧
      (d.queue 0).txn = none ∧ bits (wordAt (d.queue 0).buf 0) 21 16 = 0 ∧ d.right (d.owner 0) PType.chan.page = 2 ∧
      d.chan 0 = x) ∧
    (∀ x ∈ [({ state := .idle, en := true } : Engine), { state := .running, en := true }],
      ∀ d ∈ [((fetched [0x111, 0, 0x100, 0, 64, 0, 0, 0] rdy).setEngine 0 x).setReg .cvu 0 CVU_CFG 32],
      d.arrives 0 0x11 = true ∧ (d.queue 0).discard = false ∧ (d.queue 0).txn = none ∧
      bits (wordAt (d.queue 0).buf 0) 19 16 = 0 ∧ d.right (d.owner 0) PType.cvu.page = 2 ∧
      (wordAt (d.queue 0).buf 4).toNat + 2 ^ 32 * bits (wordAt (d.queue 0).buf 5) 7 0 ≠ 0 ∧ d.engine 0 = x ∧
      d.startOk 0 0x100 64 = true) := by
  decide +kernel

theorem wit_DoorbellsAndRingReads :
    (rdy.mayWriteReg 0 .queue 0 CQE_DB ∧ (rdy.queue 0).state ≠ .running) ∧
    (∀ d ∈ [fetched [0x1F, 0, 0, 0] rdy], d.mayWriteReg 0 .queue 0 CQE_DB ∧ (d.queue 0).state = .running ∧
      d.scanning 0 = true) ∧
    (∀ d ∈ [fetched [] rdy], d.mayWriteReg 0 .queue 0 CQE_DB ∧ (d.queue 0).state = .running ∧ d.scanning 0 = false ∧
      d.pidxBad 0 = false) ∧
    (∀ d ∈ [(onQueue { state := .running, reading := some 0, limit := 1 }).setByte 0 0x1F], (d.queue 0).state = .running ∧
      (d.queue 0).reading = some 0 ∧ min 64 (d.wants 0) = 1 ∧ d.ringServed 0 1 = true ∧
      d.readRes (d.owner 0) (d.slotAddr 0 (d.nextSlot 0)).toNat 16 = .ok ∧
      bits (wordAt ((d.queue 0).buf ++ d.ringWords 0 (d.nextSlot 0) 1) 0) 13 8 + 1 ≤ 2 ^ d.qlog 0) ∧
    (∀ d ∈ [(onQueue { state := .running, reading := some 0, limit := 1 }).setReg .queue 0 CQE_OWN 1],
      (d.queue 0).state = .running ∧ (d.queue 0).reading = some 0 ∧ min 64 (d.wants 0) = 1 ∧ d.ringServed 0 1 = true ∧
      (d.queue 0).buf = [] ∧ d.readRes (d.owner 0) (d.slotAddr 0 (d.nextSlot 0)).toNat 16 ≠ .ok) ∧
    (∀ d ∈ [(onQueue { state := .running, reading := some 0, limit := 1 }).atTime 100000], (d.queue 0).state = .running ∧
      (d.queue 0).reading = some 0 ∧ (d.queue 0).buf = [] ∧ 0 + 100000 ≤ d.now) := by
  simp only [Dev.mayWriteReg, Dev.mayWrite]; decide +kernel

theorem wit_ArbitrationRoundsRefill :
    ∀ d ∈ [rdy.setStagedAt (regAt .queue 0 CQE_ARB) (some 7)], d.whoseTurn = none ∧
      d.stagedAt (regAt .queue 0 CQE_ARB) = some 7 ∧ d.held (PType.queue.page + 0) = false ∧
      d.stagedAt (regAt .queue 255 CQE_ARB) = none := by
  decide +kernel

theorem wit_QueuesEnableDrainAndStop :
    (∀ d ∈ [onQueue {}], d.mayWriteReg 0 .queue 0 CQE_CTL ∧ (d.queue 0).state = .off ∧ d.queueOk 0 = true) ∧
    (∀ d ∈ [(onQueue {}).setReg .queue 0 CQE_SIZE 3], d.mayWriteReg 0 .queue 0 CQE_CTL ∧ (d.queue 0).state = .off ∧
      d.queueOk 0 = false) ∧
    (∀ d ∈ [fetched [] rdy], d.mayWriteReg 0 .queue 0 CQE_CTL ∧ (d.queue 0).state = .running ∧ (d.queue 0).txn = none) ∧
    (∀ x ∈ [({ state := .draining } : Queue), { state := .draining, flr := true },
      { state := .draining, enPending := true }], ∀ d ∈ [onQueue x], d.mayWriteReg 0 .queue 0 CQE_CTL ∧ d.queue 0 = x ∧
      x.state = .draining ∧ x.entries = []) := by
  simp only [Dev.mayWriteReg, Dev.mayWrite]; decide +kernel

theorem wit_NoticeRingsFillAndSignal :
    (∀ d ∈ [(rdy.setReg .cqe 0 0x304 6).setReg .cqe 0 0x30C 0x80000000], d.mayWriteReg 0 .cqe 0 0x300 ∧
      (d.ring 0).en = false ∧ 6 ≤ d.nlog 0 ∧ d.nlog 0 ≤ 16 ∧
      0x8000000000000000 ≤ (quad (d.effAt (noticeAt 0 0x08)) (d.effAt (noticeAt 0 0x0C))).toNat) ∧
    rdy.mayWriteReg 0 .cqe 0 (0x314 + 0x30 * 31) ∧
    (∀ d ∈ [((rdy.setReg .cqe 0 0x300 0x10002).setRing 0
      { en := true, tail := 9, head := 3, msgDue := true, lastMsg := some 0 }).atTime 1000], (d.ring 0).msgDue = true ∧
      (d.ring 0).lastMsg = some 0 ∧ 0 + bits (d.effAt (noticeAt 0 0)) 31 16 * 1000 ≤ d.now ∧
      bit (d.effAt (noticeAt 0 0)) 1 = true ∧ (d.ring 0).tail ≠ (d.ring 0).head ∧
      bit (d.msixWord 0 (bits (d.effAt (noticeAt 0 0)) 13 8) 3) 0 = true) := by
  simp only [Dev.mayWriteReg, Dev.mayWrite]; decide +kernel

/-- A transaction that gives canvas 0 another origin. -/
def moved : Txn := { entries := [⟨1, .canvas 0 ⟨1, 5, 6, 7⟩⟩] }
/-- A transaction that sets a window that no check lets pass. -/
def wrong : Txn := { entries := [⟨1, .window 0 { valid := true }⟩] }
/-- Canvas 0 runs, and a transaction is at the head of admission. -/
def asked (t : Txn) : Dev := { lit { state := .running, mode := .direct } with scene := { admQ := [.txn t] } }

theorem wit_CommitPointAdmitsOrRefuses :
    (∀ d ∈ [asked wrong], d.scene.admQ = [.txn wrong] ∧ wrong.ecc = false ∧
      lowestRefuse (d.txnFails wrong d.admTables (d.admTables.putWins wrong.change.wins)) ≠ none) ∧
    (∀ d ∈ [asked moved], d.scene.admQ = [.txn moved] ∧ moved.ecc = false ∧
      d.affected d.admTables d.admTables (d.realChange d.admTables moved.change) [] = [0] ∧
      lowestRefuse (d.txnFails moved d.admTables d.admTables) = none ∧
      (match d.decideOver d.admTables 0 (fun _ => false) [d.cand d.admTables (d.regsAfter (d.realChange d.admTables
      moved.change) [] 0) 0] with | .ok _ => true | .error _ => false) = true) := by
  decide +kernel

theorem wit_ReevaluationsAreAskedAndDecided :
    (∀ d ∈ [rdy.arm .ldg], d.mayWriteReg 0 .ldg 0 LDG_CTL ∧ d.mayWriteReg 0 .ldg 0 LDG_DERATE ∧
      d.armed PType.ldg.page 0 = true) ∧
    ∀ d ∈ [({ rdy with scene := { admQ := [.reeval 4] } } : Dev)], d.scene.admQ = [.reeval 4] := by
  simp only [Dev.mayWriteReg, Dev.mayWrite]; decide +kernel

theorem wit_FramesRunLineByLine :
    (∀ d ∈ [lit { state := .starting }], (d.canvas 0).state = .starting ∧ (d.canvas 0).gen = false ∧
      (d.canvas 0).lock.lstate = .none) ∧
    ({ lit { state := .starting, gen := true, raster := { h := 8 } } with now := 1000000000 }).lineToCome 0 = some 0 ∧
    (lit { state := .running, started := true, nextDue := 7, raster := { h := 8 } }).lineToCome 0 = some 7 ∧
    (lit { state := .running, nextDue := 1 }).frameDue 0 = true ∧
    ({ lit { state := .starting, gen := true, nextDue := 1 } with now := 1000000000 }).frameDue 0 = true ∧
    (∀ b ∈ [false, true],
      ∀ x ∈ [({ state := .running, started := true, nextDue := 8, raster := { h := 8 }, relinkAt := b } : Canvas)],
      (lit x).canvas 0 = x ∧ x.nextDue = x.raster.h ∧ x.relinkAt = b) ∧
    (∀ x ∈ [({ par := { writing := some 1 } } : Canvas)], (lit x).canvas 0 = x ∧ x.par.writing = some 1 ∧ x.par.left = 0) := by
  decide +kernel

/-- A band of 16 lines with one window on a surface of 64 × 16 pixels. -/
def band : Held :=
  { width := 512, lineCount := 16, scene := { wins := [(3,
      { valid := true, dstW := 64, dstH := 16, srcW := 1024, srcH := 256 },
      { valid := true, width := 64, height := 16, pitch0 := 256, addr0 := 0x10000 })] } }
/-- The same band, its data fetched. -/
def ripe : Held := { band with fetched := true }
/-- The same band, composed. -/
def spent : Held := { ripe with nextLine := 16 }
/-- The same band, interrupted after its third line. -/
def cut : Held := { ripe with wait := true, nextLine := 3 }
/-- Pipe 0 has the band, and scan-out is at line 500. -/
def late : Dev :=
  let x : Canvas := { state := .running, started := true, nextDue := 500, raster := { h := 1080, w := 512, d := 96 } }
  { (onPipe { held := some band }).setCanvas 0 x with now := 100000000000 }
/-- A piece of the band. -/
def part : GatherPiece := .atom 3 0x10000

theorem wit_BandsAreDealtAndFetched :
    (∀ d ∈ [{ lit { state := .starting, gen := true } with now := 1000000000 }], d.releaseDue 0 = true ∧
      (d.canvas 0).nextSrc = .direct ∧ (d.canvas 0).old = none) ∧
    (∀ r ∈ [(⟨0, 0, 1, false, 0, false⟩ : Released), ⟨0, 0, 0, false, 0, true⟩],
      ∀ d ∈ [{ onPipe {} with comp := { deal := [r] } }], (d.pipe 0).role = .active ∧ (d.pipe 0).held = none ∧
      d.comp.resumed = [] ∧ d.nextDeal = some r ∧ (r.band ≠ 0 ∨ r.par = true ∨ r.latched = true) ∧
      (d.canvas r.canvas).relinkAt = false) ∧
    (∀ d ∈ [{ onPipe {} with comp := { resumed := [cut] } }], (d.pipe 0).role = .active ∧ (d.pipe 0).held = none ∧
      d.comp.resumed = [cut] ∧ cut.wait = true) ∧
    (((onPipe { held := some band }).pipe 0).held = some band ∧ band.fetched = false) ∧
    (∀ d ∈ [late], (d.pipe 0).held = some band ∧ band.par = false ∧ band.urgent = false ∧ d.fetching 0 band 0 = true ∧
      d.lineEnded 0 0 (d.cregs 0) (((0 * cB (d.cregs 0) : Nat) : Int) -
        (((cD (d.cregs 0) - cB (d.cregs 0)) / 2 + 1 : Nat) : Int)) = true) ∧
    (∀ d ∈ [(onPipe { held := some ripe }).setGather 0 { todo := [part], busy := true }], (d.pipe 0).role = .active ∧
      (d.pipe 0).held = some ripe ∧ (d.gather 0).todo.contains part = true ∧ d.pieceServed ripe 0 part = true) := by
  decide +kernel

/-- A shadow of one line, and the check values of the pipe it shadows. -/
def shadow : Shadow := ⟨0, { spent with firstLine := 15, lineCount := 1, width := 2 }, [(15, [7])], some [(15, lineCrc [7])]⟩
/-- The disagreement of pipe 12 about it, which pipe 0 re-runs; its own check values are `u` and the other pipe's `a`. -/
def dispute (u : List (Nat × Word)) (a : Word) : Dispute :=
  { shadow := { shadow with pipe := 5, actCrcs := some [(15, a)] }, und := 12, undCrcs := u, rerun := some 0 }
/-- Pipe 0 re-runs it. -/
def voting (t : Dispute) : Dev :=
  let d := onPipe { role := .spare }
  { d with comp := { d.comp with disputes := [t] } }
/-- What the re-run composes. -/
def again : List (Nat × Word) := (voting (dispute [] 0)).rerunCrcs 0 (dispute [] 0) 0

theorem wit_PipesComposeAndCheck :
    (((onPipe { held := some ripe }).pipe 0).held = some ripe ∧ ripe.fetched = true ∧ ripe.wait = false ∧ ripe.done = false ∧
      ripe.dead = false ∧ ripe.par = false ∧ ((onPipe {}).canvas 0).isDue 1 0 = false ∧
      ((onPipe {}).canvas 0).isDue 0 0 = true) ∧
    (((onPipe { held := some spent }).pipe 0).held = some spent ∧ spent.done = true ∧ spent.wait = false ∧
      ((onPipe { held := some spent }).pipe 0).request = none) ∧
    (∀ d ∈ [onPipe { role := .spare, shadows := [shadow] }], (d.pipe 0).shadows = [shadow] ∧ (d.pipe 0).role = .spare ∧
      shadow.actCrcs = some [(15, lineCrc [7])] ∧
      differing shadow.held [(15, lineCrc [7])] (crcsOf (shadow.delivers 0)) = [] ∧
      differing shadow.held [(15, lineCrc [7])] (crcsOf (shadow.delivers 1)) ≠ []) ∧
    (∀ t ∈ [dispute again 5, dispute [(15, 5)] (again.headD (0, 0)).2, dispute [(15, 5)] 6], ∀ d ∈ [voting t],
      d.comp.disputes = [t] ∧ t.rerun = some 0 ∧ (d.pipe 0).role = .spare ∧ t.shadow.actCrcs.isSome = true ∧ t.und ≠ 0 ∧
      t.shadow.pipe ≠ 0 ∧ t.und ≠ t.shadow.pipe ∧ (d.pipe t.und).role ≠ .fenced ∧ (d.pipe t.shadow.pipe).role ≠ .fenced ∧
      d.rerunCrcs 0 t 0 = again) ∧
    differing (dispute again 5).shadow.held again (dispute again 5).undCrcs = [] ∧
    (differing (dispute [] 0).shadow.held again [(15, 5)] ≠ [] ∧
      differing (dispute [] 0).shadow.held again [(15, (again.headD (0, 0)).2)] = [] ∧
      differing (dispute [] 0).shadow.held again [(15, 6)] ≠ []) ∧
    (∀ d ∈ [((rdy.setPipe 13 { role := .spare }).setReg .cmp 0 CMP_UND_CTL 0x80000000).atTime 16666667], d.checking = true ∧
      (d.canvas (d.fld .cmp 0 CMP_UND_CTL 6 0)).state ≠ .running ∧ d.comp.stepAt.toNat + 16666667 ≤ d.time.toNat) := by
  decide +kernel

theorem wit_PipesAreFencedAndChangeRoles :
    (∀ d ∈ [(onPipe { held := some ripe }).atTime 8192], d.idleSince 0 = some 0 ∧
      (0 : Quad).toNat + d.fld .cmp 0 CMP_WD 12 0 ≤ d.time.toNat) ∧
    (((onPipe { held := some cut }).pipe 0).held = some cut ∧ cut.wait = true ∧ cut.done = false) ∧
    (∀ x ∈ [({} : Pipe), { role := .spare, claimed := true }, { role := .fenced }], ∀ d ∈ [(onPipe x).arm .cmp],
      d.mayWriteReg 0 .cmp 0 CMP_CTL ∧ d.armed (PType.cmp.page + 0) 0 = true ∧ (d.pipe 0).claimed = x.claimed) ∧
    (onPipe {}).roleLegal 0 .spare = false ∧
    ((onPipe {}).setPipe 13 {}).roleLegal 0 .spare = true := by
  simp only [Dev.mayWriteReg, Dev.mayWrite]; decide +kernel

theorem wit_CanvasesEnableDrainAndRelink :
    (rdy.mayWriteReg 0 .cnv 0 CNV_CTL ∧ (rdy.canvas 0).state = .off ∧ rdy.scene.admQ.contains (.enable 0) = false) ∧
    (∀ x ∈ [({ state := .draining } : Canvas), { state := .running }, { state := .starting }, { state := .relink }],
      (lit x).mayWriteReg 0 .cnv 0 CNV_CTL ∧ (lit x).canvas 0 = x) ∧
    (((lit { state := .draining }).canvas 0).state = .draining ∧ (lit { state := .draining }).bandsDone 0 = true) ∧
    (∀ d ∈ [((lit { state := .relink }).setPort 0 { state := .idle, en := true }).atTime 5000],
      (d.canvas 0).state = .relink ∧ (d.canvas 0).allocated = false ∧ (d.canvas 0).fsNow + 5000 ≤ d.now ∧ 0 ∈ d.portsOf 0 ∧
      (d.port 0).state = .idle) ∧
    (∀ d ∈ [((rdy.setCanvas 5 { state := .relink }).setReg .dpt 5 DPT_SRC 0).atTime 5000], (d.canvas 5).state = .relink ∧
      (d.canvas 5).fsNow + 5000 ≤ d.now ∧ d.portsOf 5 = []) := by
  simp only [Dev.mayWriteReg, Dev.mayWrite]; decide +kernel

theorem wit_FrameLocksFollowTheirReference :
    true ≠ rdy.flg .cnv 0 CNV_SYNC 30 ∧
    false = rdy.flg .cnv 0 CNV_SYNC 30 ∧
    true ≠ rdy.flg .cnv 0 CNV_SYNC 29 ∧
    false = rdy.flg .cnv 0 CNV_SYNC 29 ∧
    (∀ k ∈ [1, 2], ∀ d ∈ [(lit { state := .running, lock := { lstate := .locked } }).setReg .cnv 0 CNV_LOCK (BitVec.ofNat 32
      (k * 2 ^ 30))], (d.canvas 0).lock.lstate ≠ .none ∧ d.fld .cnv 0 CNV_LOCK 31 30 = k) ∧
    (∀ d ∈ [(lit { lock := { lstate := .locked, ref := some 0, period := some 100 } }).atTime 225],
      (d.canvas 0).lock.ref = some 0 ∧ (d.canvas 0).lock.period = some 100 ∧ (d.canvas 0).lock.lstate = .locked ∧
      4 * ((0 : Quad).toNat + 100) + 5 * 100 ≤ 4 * d.time.toNat) ∧
    (∀ d ∈ [({ rdy with pins := { fsyncOut := true } } : Dev).atTime 1024], d.pins.fsyncOut = true ∧
      d.pins.fsyncAt + 1024 ≤ d.now) := by
  decide +kernel

theorem wit_PortsEnableDrainAndTrain :
    (∀ x ∈ [({} : Port), { state := .active, en := true }, { state := .idle, en := true },
      { state := .linkLost, en := true }, { state := .fenced, en := true, fenced := true }, { fenced := true }],
      (onPort x).mayWriteReg 0 .dpt 0 DPT_CTL ∧ (onPort x).mayWriteReg 0 .dpt 0 DPT_PAIR_CMD ∧
      (onPort x).armed (PType.dpt.page + 0) 0 = true ∧ (onPort x).port 0 = x) ∧
    (∀ b ∈ [false, true], ∀ x ∈ [({ state := .draining, enPending := b } : Port)], (onPort x).port 0 = x ∧ x.step = .none ∧
      x.aux.busy = false ∧ x.lineEnd ≤ (onPort x).now) := by
  simp only [Dev.mayWriteReg, Dev.mayWrite]; decide +kernel

theorem wit_HotPlugIsTimed :
    ((onPort { hpdPin := true }).port 0).hpdPin = true ∧
    (∀ d ∈ [(onPort { lossDone := false, state := .active, hpd := true }).atTime 250000], (d.port 0).hpdPin = false ∧
      d.supervises = true ∧ (d.port 0).lossDone = false ∧ 250000 ≤ d.now - (d.port 0).edgeAt ∧
      d.now - (d.port 0).edgeAt < 2000000) ∧
    (∀ d ∈ [(onPort { lossDone := false, state := .active, hpd := true }).atTime 2000000], (d.port 0).hpdPin = false ∧
      d.supervises = true ∧ (d.port 0).lossDone = false ∧ (d.port 0).edgeAt + 2000000 ≤ d.now) ∧
    (∀ d ∈ [(onPort { hpdPin := true, state := .noSink }).atTime 2000000], (d.port 0).hpdPin = true ∧ d.supervises = true ∧
      (d.port 0).hpd = false ∧ (d.port 0).edgeAt + 2000000 ≤ d.now) := by
  decide +kernel

/-- A sink that offers every rate and four lanes, one that offers none, and the candidates of the first. -/
def sink : SinkCaps := ⟨0x7F, 2, 0, 0x7F, 2, true, true⟩
def mute : SinkCaps := { sink with rates := 0 }
def tries : List (Nat × Nat) := rdy.candidates 0 sink
/-- Port 0 trains, at step `s`. -/
def trains (s : TrainStep) (b : Bool) (n : Nat) : Dev :=
  onPort { state := .training, step := s, en := true, hpd := true, caps := some sink, statusDue := b, attempts := n }
/-- Ports 0 and 1 are a cold pair whose standby is port 0. -/
def paired : Dev :=
  ((((rdy.setPort 0 { en := true, state := .idle, standby := true }).setPort 1 { en := true, state := .idle }).setReg .dpt 0
    DPT_PAIR 0x201).setReg .dpt 1 DPT_PAIR 0x200).setReg .dpt 1 DPT_SRC 0

theorem wit_LinksTrainAndFail :
    (((trains .caps false 0).port 0).step = .caps ∧ (trains .caps false 0).candidates 0 sink = tries ∧ tries ≠ [] ∧
      (trains .caps false 0).candidates 0 mute = []) ∧
    (∀ r ∈ [[], [(2, 1)]], ∀ n ∈ [0, 7], ∀ b ∈ [false, true],
      ((trains (.candidate 4 3 r) b n).port 0).step = .candidate 4 3 r ∧
      ((trains (.candidate 4 3 r) b n).port 0).state = .training) ∧
    (∀ d ∈ [(trains (.retryWait 0) false 1).atTime 10000000], (d.port 0).step = .retryWait 0 ∧ 0 + 10000000 ≤ d.now ∧
      (d.port 0).caps = some sink ∧ d.candidates 0 sink = tries) ∧
    (∀ s ∈ [PState.idle, .active], ((onPort { state := s, statusDue := true }).port 0).statusDue = true ∧
      ((onPort { state := s, statusDue := true }).port 0).state = s) ∧
    (∀ d ∈ [paired.atTime 100000000], d.coldPair 0 = true ∧ (d.port 0).standby = true ∧ (d.port 0).state = .idle ∧
      (d.port 0).pollAt + 100000000 ≤ d.now) ∧
    ((onPort { state := .idle, pllBad := true, laneBad := 15 }).port 0).powered = true ∧
    (((onPort { state := .idle }).port 0).powered = true ∧ (onPort { state := .idle }).quadBad 0 = false) := by
  decide +kernel

theorem wit_AuxTransactionsRunToAReply :
    ((onPort {}).mayWriteReg 0 .dpt 0 DPT_AUX_CMD ∧ ((onPort {}).port 0).aux.busy = false) ∧
    (∀ d ∈ [(onPort { aux := { busy := true } }).atTime 3200000], d.mayWriteReg 0 .dpt 0 DPT_AUX_CMD ∧
      (d.port 0).aux.busy = true ∧ (d.port 0).ownsAux = false ∧ (d.port 0).aux.since + 3200000 ≤ d.now) := by
  simp only [Dev.mayWriteReg, Dev.mayWrite]; decide +kernel

theorem wit_TablesLoadByIndex :
    rdy.mayWriteReg 0 .gth 0 GTH_CLUT_DATA ∧
    rdy.mayWriteReg 0 .gth 0 GTH_COEF_DATA ∧
    rdy.mayWriteReg 0 .csp 0 CSP_ICS_DATA ∧
    (∀ e ∈ [(rdy, 0), (rdy.setReg .csp 0 CSP_LUT_IDX 0x20000000, 2)], e.1.mayWriteReg 0 .csp 0 CSP_LUT_DATA ∧
      e.1.lutSel 0 = (false, e.2, 0) ∧ 0 < lutSize e.2 ∧ e.1.responds (PType.csp.page + 0) = true ∧
      e.1.right 0 (PType.csp.page + 0) ≠ 0) := by
  simp only [Dev.mayWriteReg, Dev.mayWrite]; decide +kernel

theorem wit_ChannelsEnableStartAndDrain :
    (∀ x ∈ [({} : Chan), { state := .idle, en := true }, { state := .running, en := true }, { state := .halted, en := true },
      { state := .fenced }, { state := .draining }], (onChan x).mayWriteReg 0 .chan 0 DMA_CH_CTL ∧ (onChan x).chan 0 = x ∧
      (onChan x).waiters 0x10 21 0 = [] ∧ (onChan x).armed (PType.chan.page + 0) 0 = true) ∧
    (∀ x ∈ [({ state := .draining, due := true } : Chan), { state := .draining, enPending := true },
      { state := .draining, job := some {} }], (onChan x).chan 0 = x ∧ (onChan x).waiters 0x10 21 0 = []) := by
  simp only [Dev.mayWriteReg, Dev.mayWrite]; decide +kernel

/-- A copy of 64 bytes from 0 to 4096, the last of its job. -/
def copy : Desc := ⟨[1, 64, 0, 0, 0, 0, 4096, 0, 0, 0, 0, 0, 0, 0, 0, 0]⟩
/-- Channel 0 runs a job at step `s`, and its descriptor `k` stands at address 0. -/
def runs (s : DmaStep) (k : Desc) : Dev :=
  (((onChan { state := .running, en := true, job := some {}, step := s, desc := k, hops := 1 }).setByte 0 1).setByte 4
    64).setByte 25 16

theorem wit_DmaJobsMoveTheirBytes :
    (∀ d ∈ [runs .fetch {}], (d.chan 0).state = .running ∧ (d.chan 0).job = some {} ∧ (d.chan 0).step = .fetch ∧
      d.served 3 0 64 = true ∧ d.readRes 0 0 64 = .ok ∧ (⟨bytesWords 16 (d.bytes 0 64)⟩ : Desc) = copy ∧ copy.check = 0) ∧
    (∀ d ∈ [(runs .fetch {}).setByte 0 0xFF], d.served 3 0 64 = true ∧ d.readRes 0 0 64 = .ok ∧
      (⟨bytesWords 16 (d.bytes 0 64)⟩ : Desc).check ≠ 0 ∧ (d.chan 0).hops ≠ 0) ∧
    (∀ d ∈ [runs .move copy], (d.chan 0).step = .move ∧ copy.enc = false ∧ copy.piece 0 = (0, 4096, 64) ∧
      d.served 3 0 64 = true ∧ d.served 3 4096 64 = true ∧ d.readRes 0 0 64 = .ok ∧ d.writeRes 0 4096 64 = .ok) ∧
    (((runs .encWait {}).chan 0).step = .encWait ∧ (runs .encWait {}).encoderFree = true) ∧
    (∀ d ∈ [(runs .move copy).atTime 70000000], (d.chan 0).issued + d.requestTimeout ≤ d.now ∧
      (runs .move copy).now < (d.chan 0).issued + (runs .move copy).requestTimeout) ∧
    (∀ d ∈ [(onChan { state := .draining, due := true }).atTime 70000000], (d.chan 0).state = .draining ∧
      (d.chan 0).due = true ∧ (d.chan 0).issued + d.requestTimeout ≤ d.now) ∧
    (((runs .descDone copy).chan 0).step = .descDone ∧ ((runs .descDone copy).chan 0).hops < 4096) ∧
    (∀ d ∈ [runs .jobDone copy], (d.chan 0).step = .jobDone ∧ (d.chan 0).pend = none ∧ d.chanRep 0 ≠ 2 ∧
      d.waiters 0x10 21 0 = []) ∧
    ((onChan { flips := [(0, 1, 2, 3)] }).chan 0).flips = [(0, 1, 2, 3)] := by
  decide +kernel

/-- Timer 0 has this control word and this period, and 5,000 ns have passed. -/
def timed (ctl per : Word) : Dev := ((rdy.setReg .dma 0 DMA_TMR_CTL ctl).setReg .dma 0 DMA_TMR_PER per).atTime 5000

theorem wit_TimersCountTheirPeriods :
    rdy.mayWriteReg 0 .dma 0 (DMA_TMR_CTL + 16 * 0) ∧
    (∀ d ∈ [timed 0x80000000 10000], d.mayWriteReg 0 .dma 0 (DMA_TMR_PER + 16 * 0) ∧ 1000 ≤ (1000 : Word).toNat ∧
      bit (d.timerCtl 0) 31 = true ∧ bit (d.timerCtl 0) 30 = false ∧
      ((d.timer 0).base + (1000 : Word).setWidth 64).toNat < d.time.toNat ∧ d.timerNext 0 = some ({}, 10000) ∧
      d.time.toNat < (10000 : Quad).toNat) ∧
    bit ((timed 0xC0000000 0).timerCtl 0) 30 = true ∧
    (timed 0 1000).timerNext 0 = none ∧
    ((timed 0x80000000 1000).timerNext 0 = some ({}, 1000) ∧ (1000 : Quad).toNat ≤ (timed 0x80000000 1000).time.toNat) := by
  simp only [Dev.mayWriteReg, Dev.mayWrite]; decide +kernel

/-- A fill of four pixels, begun. -/
def fill : Marver := { state := .running, op := [(MRV_SIZE, 0x10004)] }
/-- Marver fills, and its master may write. -/
def fills (x : Marver) : Dev := { onMarver x with acc := { windows := [(1024, (7, 0, 0xFFFFF000, 0xFFFFFFFF))] } }

theorem wit_MarverRunsItsRows :
    (∀ x ∈ [({} : Marver), fill, { fill with state := .gated }], (onMarver x).mayWriteReg 0 .mrv 0 MRV_CTL ∧
      (onMarver x).mrv = x) ∧
    ((onMarver { fill with wrote := true }).mrv.state = .running ∧ (onMarver { fill with wrote := true }).mrv.wrote = true) ∧
    ((onMarver { fill with state := .gated }).mrv.state = .gated ∧ (onMarver { fill with state := .gated }).gateOpen = true) ∧
    (∀ d ∈ [fills fill], d.mrv = fill ∧ fill.waits = true ∧ d.mrvServed = true ∧ fill.enc = false ∧ fill.kind = 0 ∧
      fill.dfmt ≠ 3 ∧ ∀ c, c < fill.w → d.writeRes mrvMid (fill.dstAddr c fill.line) (pixelSize fill.dfmt) = .ok) ∧
    (∀ d ∈ [(onMarver { fill with issued := some (0, 64) }).atTime 70000000], d.mrv.waits = true ∧
      d.mrv.waitSince + 10000 ≤ d.now ∧ d.mrv.issued = some (0, 64) ∧ 0 + d.requestTimeout ≤ d.now) ∧
    (fill.issued = none ∧ ({} : Marver).waits = false) := by
  simp only [Dev.mayWriteReg, Dev.mayWrite]; decide +kernel

/-- A scan of 100 bytes from an address within a granule. -/
def scan : Engine := { state := .running, en := true, busy := true, scan := { addr := 0x1234, left := 100, width := 32 } }

theorem wit_EnginesEnableStartAndStop :
    (∀ x ∈ [({} : Engine), { state := .idle, en := true }, scan, { state := .fenced }],
      (onEngine x).mayWriteReg 0 .cvu 0 CVU_CTL ∧ (onEngine x).engine 0 = x ∧ (onEngine x).waiters 0x11 19 0 = [] ∧
      (onEngine x).armed (PType.cvu.page + 0) 0 = true) ∧
    (∀ d ∈ [(onEngine { state := .idle, en := true }).setReg .cvu 0 CVU_LEN_LO 64], d.pair .cvu 0 CVU_ADDR_LO = 0 ∧
      (d.pair .cvu 0 CVU_LEN_LO).toNat % 2 ^ 40 = 64 ∧ d.startOk 0 0 64 = true) ∧
    (∀ d ∈ [(onEngine { scan with state := .draining, due := true }).atTime 70000000], (d.engine 0).state = .draining ∧
      (d.engine 0).due = true ∧ 0 < (d.engine 0).scan.left ∧ (d.engine 0).scan.issued + d.requestTimeout ≤ d.now) ∧
    (∀ b ∈ [false, true], ∀ x ∈ [({ scan with state := .draining, enPending := b } : Engine)], (onEngine x).engine 0 = x ∧
      x.due = false ∧ x.busy = true ∧ (onEngine x).waiters 0x11 19 0 = []) := by
  simp only [Dev.mayWriteReg, Dev.mayWrite]; decide +kernel

theorem wit_ScansFeedCompareAndFail :
    (∀ d ∈ [onEngine scan], (d.engine 0).state = .running ∧ scan.scan.left ≠ 0 ∧
      min scan.scan.left (64 - scan.scan.addr.toNat % 64) = 12 ∧ d.served 3 0x1234 12 = true ∧ d.readRes 0 0x1234 12 = .ok) ∧
    (∀ d ∈ [(onEngine scan).atTime 70000000], (d.engine 0).state = .running ∧
      (d.engine 0).scan.issued + d.requestTimeout ≤ d.now ∧ d.waiters 0x11 19 0 = []) ∧
    (∀ e ∈ [0, 1], ∀ x ∈ [({ state := .running, scan := { compare := true, exp := BitVec.ofNat 64 e } } : Engine)],
      (onEngine x).engine 0 = x ∧ x.scan.left = 0 ∧
      ((BitVec.ofNat 64 (x.scan.params.result x.scan.v.toNat)).toNat = x.scan.exp.toNat % 2 ^ x.scan.width ↔ e = 0)) ∧
    ((onEngine { state := .fenced }).engine 0).state = .fenced ∧
    (((onEngine scan).engine 0).state ≠ .fenced ∧ ((onEngine scan).engine 0).parity = false) ∧
    (∀ d ∈ [(rdy.setRegion 0 { words := [(0, 1)] }).setReg .cvu 0 CVU_WCTL 2], d.mayWrite 0 (0x1500000 + 64 * 0 + 4 * 0) ∧
      d.flg .cvu 0 CVU_WCTL 1 = true ∧ bit ((d.region 0).asRead 0) 0 = true) ∧
    rdy.mayWrite 0 (0x1500000 + 64 * 4095 + 4 * 15) := by
  simp only [Dev.mayWrite]; decide +kernel

/-- A read of 32 bytes, a write of four and a whole atom of zeros, by function 0. -/
def ask : MemReq := ⟨0, 3, 0x100, 32, none, 7⟩
def put : MemReq := ⟨0, 3, 0x120, 4, some [1, 2, 3, 4], 7⟩
def whole : MemReq := ⟨0, 3, 0x100, 256, some (List.replicate 256 0), 7⟩
/-- A gang whose bank 3 has the request waiting, and one that reads for it. -/
def queued (r : MemReq) : Gang := { queues := [(3, [{ req := r, gen := 0 }])] }
def flying (r : MemReq) : InFlight := { req := r, bytes := List.replicate 256 0 }
def reads (r : MemReq) : Dev := onMct { gangs := [(0, { inflight := [flying r] })] }

theorem wit_RequestsQueueIssueAndReturn :
    (onMct { waiting := [ask] }).mayRequest ask = false ∧
    (ask.wf = true ∧ rdy.mayRequest ask = true ∧ rdy.allowed 0 0x100 32 false = true ∧ rdy.span 0x100 32 = .gddr ∧
      hasRoom 3 ((rdy.gang (rdy.gangOf 1)).bankQueue (rdy.bankOf 1)) = true) ∧
    (∀ r ∈ [({ ask with mid := 5 } : MemReq)], rdy.mayRequest r = true ∧ rdy.allowed 5 0x100 32 false = false) ∧
    (∀ w ∈ [none, some (List.replicate 32 9)], ∀ r ∈ [({ ask with addr := 0x8000000000000000, data := w } : MemReq)],
      rdy.mayRequest r = true ∧ rdy.span r.addr.toNat 32 ≠ .gddr ∧ rdy.readRes 0 r.addr.toNat 32 = .ok ∧
      rdy.writeRes 0 r.addr.toNat 32 = .ok) ∧
    ((onMct {}).mct.state = 2 ∧ (onMct {}).pick ((onMct {}).gang 0) = none) ∧
    (∀ r ∈ [ask, put, whole], ∀ d ∈ [onMct { gangs := [(0, queued r)] }], d.mct.state = 2 ∧ d.gang 0 = queued r ∧
      d.pick (queued r) = some (3, { req := r, gen := 0 })) ∧
    (∀ r ∈ [ask, put], ((reads r).gang 0).inflight = [flying r] ∧ (reads r).unavailable (atomOf r) = [] ∧
      (flying r).bad = false ∧ (flying r).bytes.length = 256 ∧ ((reads r).tag 7).gen = (flying r).gen ∧ 2 ∈ beatsOf put ∧
      0 ∈ beatsOf ask) := by
  decide +kernel

/-- A gang with bank 5 next for refresh. -/
def slotAt : Gang := { slot := 5 }
/-- A gang whose class 1 requests stand in the way of that refresh, with a debt of `n`. -/
def pressed (n : Nat) : Gang :=
  { slot := 5, queues := [(5, [{ req := ⟨68, 1, 0, 32, none, 7⟩, gen := 0 }])], debt := [(5, n)] }
/-- Gang 2 as `x`, with write probes on. -/
def onGang (x : Gang) : Dev := { rdy.setReg .lhr 0 LHR_CTL 7 with mct := { state := 2, gangs := [(2, x)] } }
/-- A lane whose windows are full. -/
def full : Lane := { state := .tracking, rdCntR := 4096, rdCntL := 4096, rdR := 30, rdL := 30 }
/-- A lane whose sweeps are done. -/
def swept : Lane :=
  let s : Sweep := ⟨List.replicate 128 true, List.replicate 64 true, List.replicate 64 true, List.replicate 128 true, 0, true⟩
  { state := .retraining, sweep := s }

theorem wit_RefreshesProbesAndRetrains :
    (∀ x ∈ [slotAt, pressed 0, pressed 8], (onGang x).gang 2 = x ∧ (onGang x).mct.state = 2 ∧ x.slot % 16 = 5) ∧
    (slotAt.urgent = false ∧ (pressed 0).urgent = true ∧ (pressed 0).debtOf 5 < (pressed 0).debtMax ∧
      ¬ (pressed 8).debtOf 5 < (pressed 8).debtMax) ∧
    (∀ x ∈ [({ debt := [(5, 2)] } : Gang)], (onGang x).gang 2 = x ∧ 0 < x.debtOf 5 ∧ x.holdsClass 5 2 = false ∧
      (onGang x).bankReady x 5 = true ∧ FMap.get (fun _ => false) x.extra 5 = false) ∧
    (∀ x ∈ [({ probeDue := [5] } : Gang), { pressed 0 with probeDue := [5] }], ∀ d ∈ [onGang x], d.gang 2 = x ∧
      x.probeDue = [5] ∧ d.flg .lhr 0 LHR_CTL 1 = true ∧ d.bankReady x 5 = true ∧ d.retrainingLane 2 = none ∧
      (x.holdsClass 5 2 = true ↔ x.queues ≠ []) ∧ d.unavailable (trainingAtom 2 5) = [] ∧
      d.mct.poison.contains (trainingAtom 2 5) = false) ∧
    (∀ d ∈ [onLane {}], d.lane 0 = {} ∧ (d.lane 0).rdCntR < 2 ^ d.fld .lhr 0 LHR_CFG 3 0 ∧
      (d.lane 0).rdCntL < 2 ^ d.fld .lhr 0 LHR_CFG 3 0) ∧
    (∀ d ∈ [onLane full], d.mct.state = 2 ∧ d.flg .lhr 0 LHR_CTL 0 = true ∧ (d.lane 0).state = .tracking ∧
      2 ^ d.fld .lhr 0 LHR_CFG 3 0 ≤ (d.lane 0).rdCntR ∧ 2 ^ d.fld .lhr 0 LHR_CFG 3 0 ≤ (d.lane 0).rdCntL ∧
      d.mayWriteReg 0 .site 0 (MCT_LANE_CTL + 0x20 * 0) ∧ d.armed (PType.site.page + 0) 0 = true) ∧
    (((onLane swept).lane 0).state = .retraining ∧ swept.found = none ∧ swept.sweep.rd.length = 128 ∧
      swept.sweep.lo.length = 64 ∧ swept.sweep.hi.length = 64) ∧
    (∀ x ∈ [({ swept with found := some ⟨⟨0, 0, 0, 0⟩, 0, 0⟩ } : Lane)], (onLane x).lane 0 = x ∧ x.foundWr = false ∧
      x.sweep.wr.length = 128) := by
  simp only [Dev.mayWriteReg, Dev.mayWrite]; decide +kernel

theorem wit_SitesAreFencedAndRebuilt :
    (∀ k ∈ [0, 17], ∀ d ∈ [(onMct {}).setArm (PType.site.page + k) 0 true], d.mayWriteReg 0 .site k MCT_SITE_CTL ∧
      d.armed (PType.site.page + k) 0 = true ∧ (d.site k).fenced = false ∧ d.mct.spare = .idle ∧ d.mct.gone = []) ∧
    ((onMct { spare := .substituted 3 }).mct.spare = .substituted 3 ∧
      ((onMct { sites := [(0, { fenced := true })] }).site 0).fenced = true) ∧
    (∀ d ∈ [onMct { spare := .pending 3 }], d.mct.spare = .pending 3 ∧ d.mct.state = 2 ∧ d.reevalBusy = false ∧
      d.modePend = false ∧ d.rst.warm = 0 ∧ d.svc.mode = .normal) ∧
    (∀ d ∈ [onMct { spare := .rebuilding 3, grant := 1 }], d.mct.spare = .rebuilding 3 ∧ d.mct.state = 2 ∧ 0 < d.mct.grant ∧
      d.mct.ptr < d.atomCount ∧ d.bankServes 2 (d.atomAtIndex d.mct.ptr) = true) := by
  simp only [Dev.mayWriteReg, Dev.mayWrite]; decide +kernel

theorem wit_CrucibleChecksScrubsAndSpares :
    rdy.reads (.localMem none) (rdy.cruOffset 1535 0 0) = true ∧
    rdy.reads (.localMem (some (.clut 9))) (rdy.cruOffset 1535 0 0) = true ∧
    rdy.reads (.windowEntry 0) (rdy.cruOffset 0 0 0) = true ∧
    0 < ({ rdy with cru := { scrubGrant := 1 } } : Dev).cru.scrubGrant ∧
    (∀ n ∈ [1, 2], ∀ d ∈ [({ rdy with cru := { due := [rowKey 5 6], spares := [(5, n)] } } : Dev)],
      d.cru.due.contains (rowKey (5 : Fin 1536) (6 : Fin 512)) = true ∧ FMap.get (fun _ => 0) d.cru.spares (5 : Fin 1536) = n) := by
  decide +kernel

theorem wit_AccessTablesCommitOneEntry :
    (rdy.mayWriteReg 0 .acc 0 ACC_SEL ∧ selOk (selTable 0) (selIdx 0) = true ∧ selOk 0 1040 = false ∧ selOk 1 0 = false ∧
      selOk 3 32 = true) ∧
    (∀ d ∈ [rdy], d.mayWriteReg 0 .acc 0 (ACC_DATA + 12) ∧ d.acc.lock = false ∧
      selOk (selTable (d.reg .acc 0 ACC_SEL)) (selIdx (d.reg .acc 0 ACC_SEL)) = true ∧
      entryOk (selTable (d.reg .acc 0 ACC_SEL)) (d.reg .acc 0 ACC_DATA, d.reg .acc 0 (ACC_DATA + 4), d.reg .acc 0 (ACC_DATA +
      8), 0) = true) ∧
    (rdy.mayWriteReg 0 .acc 0 ACC_CTL ∧ rdy.acc.lock = false) := by
  simp only [Dev.mayWriteReg, Dev.mayWrite]; decide +kernel

theorem wit_LockStandsUntilAReset : (ready fun d => { d with acc := { lock := true } }).dev.acc.lock = true ∧
    ∃ u, exec .tapReset (ready fun d => { d with acc := { lock := true } }) = .next u := ⟨rfl, _, rfl⟩

theorem wit_FaultsBecomeLogEntries :
    (∀ d ∈ [({ rdy with flt := { arrivals := [{ src := 513 }] } } : Dev)], d.collects = true ∧
      d.flt.arrivals = [{ src := 513 }] ∧ (d.srcCfg 513).react ≠ 0 ∧ 2 ≤ srcSev 513) ∧
    (∀ d ∈ [({ rdy with flt := { queue := [{ src := 353 }] } } : Dev)], d.collects = true ∧ d.flt.queue = [{ src := 353 }] ∧
      d.flt.overflow = none) ∧
    (∀ d ∈ [({ rdy with flt := { coal := [(5, { suppressed := 3, last := some { src := 5 } })] } } : Dev).atTime 1000000],
      d.collects = true ∧ d.flt.window < d.time.toNat / 1000000 ∧ (∀ e ∈ d.flt.coal, e.2.suppressed ≠ 0 ∧ e.2.last ≠ none)) ∧
    rdy.mayWriteReg 0 .flt 0 (FLT_STICKY + 4 * 31) ∧
    rdy.mayWriteReg 0 .log 0 LOG_RD_SEQ := by
  simp only [Dev.mayWriteReg, Dev.mayWrite]; decide +kernel

/-- A command in hand, with arguments that a staging accepts. -/
def told (op : Nat) (m : SvcMode) (g : Stage) : Svc :=
  { mb := 1, taken := true, op := op, mode := m, stage := g, args := [0, 0, 0x100000, 0] }

theorem wit_FaruoTicksAndAnswers :
    (∀ v ∈ [({ mb := 1, op := 1 } : Svc), { mb := 1, op := 9, mode := .restarting }], (onSvc v).svc = v ∧
      (onSvc v).collects = true ∧ v.tickNo < (onSvc v).time.toNat / 1000000 ∧ v.taken = false) ∧
    (∀ v ∈ [({ mb := 1, restartTimes := [129000000, 128000000], slots := [(1, { image := some ⟨0, 1, 32, 1000, []⟩ })] } :
      Svc)], ∀ d ∈ [onSvc v], d.svc = v ∧ d.collects = true ∧ v.mode = .normal ∧
      v.lastKick + 1000000 * d.fld .svc 0 SVC_WD 6 0 ≤ d.now ∧
      2 ≤ (v.restartTimes.filter fun t => d.now < t + 10000000000).length ∧ (d.slot (1 - v.slot)).image.isSome = true) ∧
    (∀ d ∈ [(onSvc { trial := some (0, 0) }).atTime 500000000], d.svc.trial = some (0, 0) ∧ 0 + 500000000 ≤ d.now) ∧
    (onSvc {}).svc.taken = false ∧
    (∀ op ∈ [1, 2, 3, 4, 5, 6, 7], ∀ m ∈ [SvcMode.normal, .recovery],
      ∀ g ∈ [({} : Stage), { verified := true }, { image := some ⟨0, 1, 32, 1000, []⟩ }], ∀ d ∈ [onSvc (told op m g)],
      d.svc.taken = true ∧ d.svc.op = op ∧ d.svc.mode = m ∧ d.svc.stage = g ∧ d.svc.fellBack = false ∧
      0x100000 ≤ (d.mbArg 2).toNat ∧ (d.mbArg 2).toNat ≤ 0x800000 ∧ bit (d.mbArg 0) 4 = false) ∧
    ∀ g ∈ [({} : Stage), { verified := true }], g.busy = false ∧
    ({ image := some ⟨0, 1, 32, 1000, []⟩ } : Stage).busy = true ∧
    (onSvc (told 4 .normal {})).readRes 64 (quad ((onSvc (told 4 .normal {})).mbArg 0) ((onSvc (told 4 .normal {})).mbArg
      1)).toNat 0x100000 = .ok := by
  decide +kernel

theorem wit_ClocksStepLockAndAlign :
    (∀ d ∈ [rdy.arm .ckr], d.mayWriteReg 0 .ckr 0 CKR_CCLK ∧ d.armed PType.ckr.page 0 = true ∧ d.clk.change = 0 ∧
      800 ≤ (1600 : BitVec 11).toNat ∧ (1600 : BitVec 11).toNat ≤ 1600 ∧ (1600 : BitVec 11).toNat % 50 = 0) ∧
    (∀ k ∈ [1, 2, 3], ∀ d ∈ [({ rdy with clk := { change := k } } : Dev)], d.clk.change = k ∧ d.reevalBusy = false ∧
      d.modePend = false) ∧
    (rdy.setReg .ckr 0 CKR_PLL 0x80000000).flg .ckr 0 (CKR_PLL + 4 * 0) 31 = true ∧
    ({ rdy with clk := { locked := [(0, true)] } } : Dev).pllLocked 0 = true ∧
    (∀ d ∈ [({ rdy.setReg .tmb 0 TMB_CTL 0x80000000 with tb := { run := true } } : Dev)], d.tb.run = true ∧
      d.flg .tmb 0 TMB_CTL 31 = true ∧ true ≠ d.flg .tmb 0 TMB_CTL 30 ∧ d.tb.accepted = none) ∧
    (∀ d ∈ [(rdy.setReg .tmb 0 TMB_CTL 0x80000000).atTime 1500000000], d.flg .tmb 0 TMB_CTL 31 = true ∧ d.tb.lost = false ∧
      d.tb.since + 1500000000 ≤ d.now) ∧
    ((rdy.arm .tmb).mayWriteReg 0 .tmb 0 TMB_CTL ∧ (rdy.arm .tmb).armed PType.tmb.page 0 = true) := by
  simp only [Dev.mayWriteReg, Dev.mayWrite]; decide +kernel

/-- A device in a phase of its start-up, and lanes that pass everywhere. -/
def inPhase (p : Phase) (m : SvcMode) : Dev := { rst := { phase := p }, svc := { mode := m } }
def lanes : List LanePasses :=
  List.replicate 72 ⟨BitVec.allOnes 64, BitVec.allOnes 64, BitVec.allOnes 128, BitVec.allOnes 64, BitVec.allOnes 64,
    BitVec.allOnes 128⟩
/-- A reset of function 1 is at its clears, and it owns a window. -/
def clears : Dev :=
  { rst := { phase := .ready, flr := [(1, { active := true })] }, acc := { scene := [(2, 0x10000)] }
    scene := { baseWins := [(0, { valid := true })] } }

theorem wit_ResetsAndStartUpGoInOrder :
    ({} : Dev).rst.phase = .reset ∧
    ((inPhase .rom .normal).rst.phase = .rom ∧ (inPhase .rom .normal).svc.activated = false ∧
      (({} : Slot), (⟨1, none⟩ : Slot)) = (if 1 = 1 then (({} : Slot), (⟨1, none⟩ : Slot)) else ((⟨1, none⟩ : Slot), {}))) ∧
    ((inPhase .booted .normal).rst.phase = .booted ∧ (inPhase .booted .normal).svc.mode ≠ .recovery) ∧
    ((inPhase .tested .normal).rst.phase = .tested ∧ 72 ≤ lanes.length ∧
      (∀ j, j < 18 → ((inPhase .tested .normal).site j).fenced = false) ∧
      (∀ p ∈ lanes.take 1, (inPhase .tested .normal).minEye ≤ (trainedLane p ((inPhase .tested .normal).lane 0).cur).rdRun ∧
      (inPhase .tested .normal).minEye ≤ (trainedLane p ((inPhase .tested .normal).lane 0).cur).wrRun)) ∧
    (inPhase .trained .normal).rst.phase = .trained ∧
    ((inPhase .booted .recovery).rst.phase = .booted ∧ (inPhase .booted .recovery).svc.mode = .recovery) ∧
    (inPhase .trained .normal).rst.phase ≠ .ready ∧
    (∀ d ∈ [rdy.arm .hif], d.rst.phase = .ready ∧ d.rst.warm = 0 ∧ d.mayWriteReg 0 .hif 0 HIF_RST ∧
      d.armed PType.hif.page 0 = true ∧ d.queues = [] ∧ (d.queue 5).state = .off) ∧
    ({ rdy with rst := { phase := .ready, warm := 2 } } : Dev).rst.warm ≠ 0 ∧
    (∀ d ∈ [({ clears with scene := {} } : Dev), clears], (d.flrOf 1).active = true ∧ d.flrDrained 1 = true ∧
      (d.flrOf 1).clearing = false) ∧
    ({ clears with scene := {} } : Dev).flrWindows 1 = [] ∧
    (clears.flrWindows 1 = [0] ∧ clears.stagingFor 256 0 = some 0) := by
  simp only [Dev.mayWriteReg, Dev.mayWrite]; decide +kernel

theorem wit_HostAndPinsAnswer :
    rdy.responds 2044 = true ∧
    rdy.rst.phase ≠ .reset ∧
    FMap.get (fun _ => false) ({ rdy with hif := { msixPend := [(0, true)] } } : Dev).hif.msixPend (0 * 64 + 0) = true := by
  decide

/-! ## The spec's worked examples -/

/-- 13_check_value_units, after R242: three settings fed "123456789". -/
theorem test_check_values :
    CrcParams.crc ⟨16, 0x1021, 0xFFFF, 0, false, false⟩ (leBytes 9 0x393837363534333231) = 0x29B1 ∧
    crc32.crc (leBytes 9 0x393837363534333231) = 0xCBF43926 ∧
    CrcParams.crc ⟨64, 0x42F0E1EBA9EA3693, 2 ^ 64 - 1, 2 ^ 64 - 1, true, true⟩ (leBytes 9 0x393837363534333231) =
      0x995DC9BBDF1939FA := by decide +kernel

/-- The tile coded by hand in 05_gather_and_frit. -/
def handTile : List Nat := (List.range 64).map fun i => 0xFF302010 + i % 8

/-- 05_gather_and_frit: its header, its two sectors, and the tile back from them. -/
theorem test_frit_tile : (fritEncode handTile).1 = 0x29 ∧ (fritEncode handTile).2.length = 64 ∧
    fritDecode 0x29 (leNat (fritEncode handTile).2) = some handTile := by decide +kernel

/-- 07_compose_pipes, one pixel through two layers: 0.7509765625. -/
theorem test_blend_two_layers :
    blend { blend := 2, galpha := 65535 } Fx.one (Fx.half (Fx.ofCode 8 128)) 0 (2 ^ 148) = 769 * 2 ^ 139 := by decide +kernel

/-- 06_scaler_and_colour, a regamma step and both dither results. -/
theorem test_regamma : chainEntry (1638 * 2 ^ 136) = 6552 ∧
    lut1 (fun i => if i = 818 then 15758 else 15767) 6552 = 15765 ∧ dither 1 0 0 0 0 15765 = 493 ∧
    ((List.range 16).map fun i => dither 1 1 (i % 4) (i / 4) 0 15765).count 493 = 11 ∧
    ((List.range 16).map fun i => dither 1 1 (i % 4) (i / 4) 0 15765).count 489 = 5 := by decide +kernel

/-- 14_gddr7_controller, the address example: ganged channel 3, bank 0; the next atom lies in channel 2. -/
theorem test_address_hash : rdy.gangOf (0x24A6D8200 / 256) = 3 ∧ rdy.bankOf (0x24A6D8200 / 256) = 0 ∧
    rdy.gangOf (0x24A6D8300 / 256) = 2 ∧ rdy.gangOf (0x24A6D8400 / 256) = 1 ∧ rdy.gangOf (0x24A6D8500 / 256) = 0 ∧
    rdy.atomCount = 268435456 := by decide +kernel

/-- 18_register_conventions, canvas 17: its page, its identification, its key. -/
theorem test_page_of_canvas_17 : regAt .cnv 17 CNV_TIM_H = 0x544088 ∧ rdy.readPage .cnv 17 0 = 0x1411 ∧
    rdy.readPage .cnv 17 CNV_SCLK = 0x010295FB := by decide +kernel

/-- 23_page_index and 17_access_control: places of pages, and a key write that arms. -/
theorem test_places : regAt .chan 10 DMA_CH_CTL = 0x0A28040 ∧ regAt .cnv 20 0x060 = 0x550060 ∧
    regAt .queue 40 CQE_DB = 0x0CA0040 ∧ PType.chan.page + 10 = 650 ∧ PType.cnv.page + 20 = 340 := by
  decide +kernel

/-- R262: the check symbol of a beat is the XOR of its sixteen bytes, and beat 1 carries bytes 16 to 31. -/
theorem test_check_symbol : checkSymbol (List.range 256 |>.map (BitVec.ofNat 8)) 1 = 0 ∧
    checkSymbol ((1 : Byte) :: List.replicate 255 0) 0 = 1 ∧ atomSymbol (List.range 256 |>.map (BitVec.ofNat 8)) 3 1 = 19 ∧
    atomSymbol ((7 : Byte) :: List.replicate 255 0) 16 0 = 7 := by decide +kernel

/-- R282: of runs of equal length the lowest is taken, and of two middle values the lower. -/
theorem test_sweep_centre : sweepCentre 9 [true, false, true, true, false, true, true] = 2 ∧
    sweepCentre 9 [false, true, true, true, false] = 2 ∧ sweepCentre 9 [false, false] = 9 := by decide

end Sys2Proof.Machine
end

section
/-!
PROOF of O19 (R332): a block reset of a page discards its staged values and clears `HOLD`, `PENDING` and `DISCARDED`. The pages
fall into two kinds: those whose registers all return to their reset values (`Dev.resetPage`), where R376 asks for the unit to be
stopped, and those that keep their configuration and drop what was held alone (`Dev.dropHeld`).
-/
namespace Sys2Proof.Machine

/-- The page of instance `i` of type `t` is one whose registers all return to their reset values in a block reset, and the state of
its unit allows one (R332, R376). -/
def Dev.resetsRegs (d : Dev) (t : PType) (i : Nat) : Prop :=
  match t with
  | .cnv | .csp => (d.canvas i).state = .off
  | .dpt => (d.port i).state = .off
  | .queue => (d.queue i).state = .off
  | .chan => (d.chan i).state = .off
  | .cvu => (d.engine i).state = .off
  | .mrv => d.mrv.state = .idle
  | .flt | .log => True
  | _ => False

/-- `u` is `d` with nothing staged, held or discarded on a page, and with the words of every other page as they were. -/
def Dev.pageCleared (d u : Dev) (t : PType) (i : Nat) : Prop :=
  u.readPage t i 0x014 = 0 ∧ u.stagedOf t i = [] ∧
    ∀ a, a / 0x4000 ≠ t.page + i → u.effAt a = d.effAt a ∧ u.stagedAt a = d.stagedAt a

/-! ## What the registers are after a block reset -/

theorem Dev.blockReset_regs {d : Dev} {t : PType} {i : Nat} (hi : i < t.count) (h : d.resetsRegs t i) :
    (d.blockReset t i).regs = (d.resetPage (t.page + i)).regs := by
  cases t with
  | cnv | csp | dpt | queue | chan | cvu | mrv =>
    simp only [Dev.resetsRegs] at h
    simp [Dev.blockReset, h, Dev.resetCanvas, Dev.resetPort, Dev.resetQueue]
  | flt | log =>
    obtain rfl : i = 0 := Nat.lt_one_iff.1 hi
    rfl
  | hif | ckr | tmb | svc | acc | cru | ldg | scn | cqe | mct | site | lhr | cmp | gth | dma => exact h.elim

/-! ## What the pages show after a block reset -/

@[simp] theorem Dev.readPage_pageStage (d : Dev) (t : PType) (i : Nat) : d.readPage t i 0x014 = d.pageStage t i := by
  simp [Dev.readPage, Dev.header]

/-- Of the registers, `dropHeld` and `resetPage` differ in the words in effect alone. -/
theorem Dev.pageCleared_dropHeld {d e : Dev} {t : PType} {i : Nat} (hi : i < t.count)
    (he : ∀ a, a / 0x4000 ≠ t.page + i → e.effAt a = d.effAt a ∧ e.stagedAt a = d.stagedAt a) :
    d.pageCleared (e.dropHeld (t.page + i)) t i := by
  obtain ⟨hstage, hstaged, -, hother⟩ := Dev.resetPage_facts (d := e) hi rfl
  have hsame : (e.dropHeld (t.page + i)).pageStage t i = (e.resetPage (t.page + i)).pageStage t i := rfl
  refine ⟨?_, hstaged, fun a ha => ⟨(he a ha).1, (hother a ha).2.trans (he a ha).2⟩⟩
  rw [Dev.readPage_pageStage, hsame, ← Dev.readPage_pageStage, hstage]

/-- The timebase's block reset writes `TMB_CTL`, on its own page. -/
theorem Dev.resetTimebase_effAt_ne (d : Dev) {a : Nat} (h : a / 0x4000 ≠ PType.tmb.page) :
    d.resetTimebase.effAt a = d.effAt a := by
  have hne : a ≠ regAt .tmb 0 TMB_CTL := by
    rintro rfl
    exact h (regAt_page .tmb 0 TMB_CTL (by decide))
  exact Dev.effAt_setEffAt_ne _ d hne

/-- The block reset of a page that keeps its configuration. -/
theorem Dev.blockReset_pageCleared_of_keepsRegs {t : PType} {i : Nat} (d : Dev) (hi : i < t.count)
    (ht : t ∈ [PType.gth, .cmp, .tmb]) : d.pageCleared (d.blockReset t i) t i := by
  simp only [List.mem_cons, List.not_mem_nil, or_false] at ht
  obtain rfl | rfl | rfl := ht
  · exact Dev.pageCleared_dropHeld (e := d.resetGather i) hi fun a _ => ⟨rfl, rfl⟩
  · have hregs : (d.resetPipe i).regs = d.regs := by simp
    exact Dev.pageCleared_dropHeld hi fun a _ => by simp only [Dev.effAt, Dev.stagedAt, hregs, and_self]
  · obtain rfl : i = 0 := Nat.lt_one_iff.1 hi
    exact Dev.pageCleared_dropHeld hi fun a ha => ⟨d.resetTimebase_effAt_ne ha, rfl⟩

/-- The block reset of a page whose registers all return to their reset values. -/
theorem Dev.blockReset_pageCleared_of_resetsRegs {d : Dev} {t : PType} {i : Nat} (hi : i < t.count) (h : d.resetsRegs t i) :
    d.pageCleared (d.blockReset t i) t i ∧ ∀ off, off < 0x4000 → (d.blockReset t i).reg t i off = regReset t i off := by
  obtain ⟨hstage, hstaged, hreset, hother⟩ := Dev.resetPage_facts hi (Dev.blockReset_regs hi h)
  exact ⟨⟨hstage, hstaged, hother⟩, hreset⟩

/-- The epoch of a queue is no register, and its block reset keeps it. -/
theorem Dev.blockReset_epoch {d : Dev} {q : Nat} : ((d.blockReset .queue q).queue q).epoch = (d.queue q).epoch := by
  unfold Dev.blockReset Dev.when Dev.resetQueue
  dsimp only
  split
  · rw [Dev.queue_setQueue]
  · rfl

/-! ## The command -/

/-- A block reset by a master that holds the page's arm spends the arm and resets the block. -/
theorem exec_blockReset {m : Fn} {p : PageNo} {t : PType} {i : Nat} {s : State} (hi : i < t.count) (hp : p.val = t.page + i)
    (hw : s.dev.mayWriteReg m t i 0x010) (ha : s.dev.armed p m = true) :
    exec (.blockReset m p) s = .next ⟨(s.dev.setArm (t.page + i) m false).blockReset t i, s.pending⟩ := by
  show Host.Outcome.next (⟨s.dev.headerWrite m p 0x010 1, s.pending⟩ : State) = _
  rw [hp] at ha ⊢
  rw [Dev.headerWrite_reset hi hw ha]

/-- Settles O19: a block reset returns every register of the page to its reset value, or drops what the page held alone; after
both, nothing is staged, held or discarded there, and no other page has changed. -/
theorem blockResetDiscardsStagedValues : Obligations.BlockResetDiscardsStagedValues := by
  unfold Obligations.BlockResetDiscardsStagedValues
  intro m p t i s hi hp hw ha hstop
  refine ⟨_, exec_blockReset hi hp hw ha, ?_⟩
  rw [hp]
  have hkind : (s.dev.setArm (t.page + i) m false).resetsRegs t i ∨ t ∈ [PType.gth, .cmp, .tmb] := by
    cases t with
    | gth | cmp | tmb => exact .inr (by decide)
    | cnv | csp | dpt | queue | chan | cvu | mrv | flt | log => exact .inl hstop
    | hif | ckr | svc | acc | cru | ldg | scn | cqe | mct | site | lhr | dma => exact hstop.elim
  have hepoch : t = .queue →
      (((s.dev.setArm (t.page + i) m false).blockReset t i).queue i).epoch = (s.dev.queue i).epoch := by
    rintro rfl
    exact Dev.blockReset_epoch
  rcases hkind with hwhole | hkept
  · obtain ⟨⟨hstage, hstaged, hother⟩, hreset⟩ := Dev.blockReset_pageCleared_of_resetsRegs hi hwhole
    exact ⟨hstage, hstaged, fun _ => hreset, hother, hepoch⟩
  · obtain ⟨hstage, hstaged, hother⟩ :=
      Dev.blockReset_pageCleared_of_keepsRegs (s.dev.setArm (t.page + i) m false) hi hkept
    have hsub : [PType.gth, .cmp, .tmb] ⊆ [PType.gth, .cmp, .flt, .log, .tmb] := by decide
    exact ⟨hstage, hstaged, fun hne => absurd (hsub hkept) hne, hother, hepoch⟩

end Sys2Proof.Machine
end

section
/-!
PROOF of O12 (R403): the pages that hold nothing, and what an access of a reserved offset does. The offsets are reserved in three
areas of BAR0 (`ReservedAt`): a page of its own, the rest of the ledger's second page, and the rest of the MSI-X page. No right
applies in any of them, no word is there to read, and no write reaches a register.
-/
namespace Sys2Proof.Machine

/-! ## The reserved pages -/

/-- A page number outside the pages of every type is no register page. -/
theorem pageOf_eq_none {n : Nat} (h : ∀ t : PType, n < t.page ∨ t.page + t.count ≤ n) : pageOf n = none := by
  simp only [pageOf, Option.map_eq_none_iff, List.find?_eq_none, Bool.and_eq_true, decide_eq_true_eq]
  rintro t - ⟨hge, hlt⟩
  have := h t
  omega

/-- A page that is neither a register page nor within an aperture or the MSI-X structures is reserved. -/
theorem areaOf_eq_reserved {n : Nat} (hpage : ∀ t : PType, n < t.page ∨ t.page + t.count ≤ n)
    (haper : n < 1024 ∨ (1360 ≤ n ∧ n < 1408) ∨ (1410 ≤ n ∧ n ≠ 2044)) : areaOf n = .reserved := by
  rw [areaOf, pageOf_eq_none hpage]
  dsimp only
  rw [if_neg (by omega), if_neg (by omega), if_neg (by omega), if_neg (by omega), if_neg (by omega)]

/-- The band readout of the ledger ends on this page, and the rest of it is reserved (R402, R403). -/
theorem areaOf_page1409_eq_ledger : areaOf 1409 = .ledger := by decide

/-! ## Reserved offsets -/

/-- An offset of BAR0 that no register, aperture or MSI-X structure takes, by the area it lies in. -/
def ReservedAt (off : Nat) : Prop :=
  areaOf (off / 0x4000) = .reserved ∨ (areaOf (off / 0x4000) = .ledger ∧ 0x1606000 ≤ off) ∨
    (areaOf (off / 0x4000) = .msix ∧ 0x1FF0400 ≤ off ∧ ¬ (0x1FF0800 ≤ off ∧ off < 0x1FF0808))

section
variable {off : Nat} (h : ReservedAt off)
include h

/-- A reserved byte lies in a reserved word. -/
theorem ReservedAt.word : ReservedAt (off / 4 * 4) := by
  unfold ReservedAt at h ⊢
  rw [show off / 4 * 4 / 0x4000 = off / 0x4000 by omega]
  rcases h with h | ⟨h, hge⟩ | ⟨h, hge, hpba⟩
  · exact .inl h
  · exact .inr (.inl ⟨h, by omega⟩)
  · exact .inr (.inr ⟨h, by omega, by omega⟩)

/-- Of 64 aligned bits the second word is reserved where the first is. -/
theorem ReservedAt.add_four (h8 : off % 8 = 0) : ReservedAt (off + 4) := by
  unfold ReservedAt at h ⊢
  rw [show (off + 4) / 0x4000 = off / 0x4000 by omega]
  rcases h with h | ⟨h, hge⟩ | ⟨h, hge, hpba⟩
  · exact .inl h
  · exact .inr (.inl ⟨h, by omega⟩)
  · exact .inr (.inr ⟨h, by omega, by omega⟩)

/-- No page right applies to a reserved offset. -/
theorem ReservedAt.offRight (d : Dev) (m : Nat) : d.offRight m off = 2 := by
  dsimp only [Dev.offRight]
  rcases h with h | ⟨h, hge⟩ | ⟨h, -, -⟩ <;> rw [h]
  exact if_neg (by omega)

/-! ### Reads -/

theorem ReservedAt.barWord (d : Dev) (m : Nat) : d.barWord m off = 0 := by
  unfold Dev.barWord
  rcases h with h | ⟨h, hge⟩ | ⟨h, hge, hpba⟩ <;> rw [h]
  · dsimp only
    rw [if_neg (by omega), if_neg (by omega)]
  · dsimp only [Dev.msixRead]
    rw [if_neg (by omega), if_neg (by omega)]

theorem ReservedAt.busRead (d : Dev) (m : Nat) : d.busRead m off = 0 := by
  rw [Dev.busRead, h.word.barWord, ite_self]

theorem ReservedAt.readSide (d : Dev) (m : Nat) : d.readSide m off = d := by
  have hden : d.readDenied m off = false := by simp [Dev.readDenied, h.offRight]
  unfold Dev.readSide
  rw [hden, if_neg Bool.false_ne_true]
  rcases h with h | ⟨h, -⟩ | ⟨h, -, -⟩ <;> rw [h] <;> exact ite_self d

/-! ### Writes -/

theorem ReservedAt.writeDenied (d : Dev) (m : Nat) : d.writeDenied m off = false := by
  have hright := h.offRight d m
  unfold Dev.writeDenied
  rcases h with h | ⟨h, -⟩ | ⟨h, -, -⟩ <;> simp [h, hright]

theorem ReservedAt.busWrite (d : Dev) (m : Nat) (w : Word) : d.busWrite m off w = d := by
  unfold Dev.busWrite
  rw [h.writeDenied, if_neg Bool.false_ne_true]
  rcases h with h | ⟨h, -⟩ | ⟨h, hge, -⟩ <;> rw [h]
  · exact ite_self d
  · exact ite_self d
  · dsimp only
    rw [if_neg (show ¬ off - 0x1FF0000 < 0x400 by omega), ite_self]

theorem ReservedAt.isDoorbell : isDoorbell off = false := by
  unfold Machine.isDoorbell
  rcases h with h | ⟨h, -⟩ | ⟨h, -, -⟩ <;> rw [h]

theorem ReservedAt.ne_witness : areaOf (off / 0x4000) ≠ .witness := by
  rcases h with h | ⟨h, -⟩ | ⟨h, -, -⟩ <;> simp [h]

/-- An aligned write of a reserved offset is ignored, whatever its size: 32 bits do nothing at the bus, 64 bits are two such
writes, and a narrower write is no doorbell. -/
theorem ReservedAt.sizedWrite (d : Dev) (m : Nat) {size : Nat} (data : Quad) (hsize : size = 1 ∨ size = 2 ∨ size = 4 ∨ size = 8)
    (halign : off % size = 0) : d.sizedWrite m off size data = d := by
  unfold Dev.sizedWrite
  rcases hsize with rfl | rfl | rfl | rfl
  · simp [h.isDoorbell, h.writeDenied]
  · simp [h.isDoorbell, h.writeDenied]
  · simp [halign, h.busWrite]
  · have h4 : off % 4 = 0 := by omega
    simp [h4, h.ne_witness, h.busWrite, (h.add_four halign).busWrite]

end

/-- Settles O12: the pages named hold no register, aperture or MSI-X structure; at a reserved offset a read finds no word and has no
side, and a write of any size ends with the same state. -/
theorem reservedOffsets : Obligations.ReservedOffsets := by
  unfold Obligations.ReservedOffsets
  refine ⟨fun n hn => areaOf_eq_reserved (fun t => ?_) (by omega), fun m off s hoff => ?_⟩
  · cases t <;> simp only [PType.page, PType.count] <;> omega
  · have h : ReservedAt off.toNat := by
      rcases hoff with hres | ⟨hge, hlt⟩ | hmsix
      · exact .inl hres
      · have hpage : off.toNat / 0x4000 = 1409 := by omega
        exact .inr (.inl ⟨by rw [hpage, areaOf_page1409_eq_ledger], hge⟩)
      · exact .inr (.inr hmsix)
    refine ⟨h.busRead s.dev m, h.readSide s.dev m, fun size data hsize halign => ?_⟩
    calc exec (.registerWrite m off size data) s
        = s.dev! (Dev.sizedWrite m off.toNat size data) := rfl
      _ = .next s := by rw [State.dev!_next, h.sizedWrite s.dev m data hsize halign]

end Sys2Proof.Machine
end

section
/-!
PROOF of O5: the frame of every command. The frame is a relation on devices that composes (`Dev.onlyChanges_trans`), a write of
a register is framed by the register's own effect (`Dev.regWrite_onlyChanges`), and the rest is one case for each command, in the
families of `family`.
-/
namespace Sys2Proof.Machine
set_option Elab.async false

/-! ## The frame as a relation -/

theorem Dev.onlyChanges_iff {a b : Dev} {l : List Part} : a.onlyChanges b l ↔
    (.now ∉ l → b.now = a.now) ∧ (.regs ∉ l → b.regs = a.regs) ∧ (.luts ∉ l → b.luts = a.luts) ∧ (.mem ∉ l → b.mem = a.mem) ∧
    (.scene ∉ l → b.scene = a.scene) ∧ (.ledger ∉ l → b.ledger = a.ledger) ∧ (.queues ∉ l → b.queues = a.queues) ∧
    (.turn ∉ l → b.turn = a.turn) ∧ (.lastTurn ∉ l → b.lastTurn = a.lastTurn) ∧ (.rings ∉ l → b.rings = a.rings) ∧
    (.canvases ∉ l → b.canvases = a.canvases) ∧ (.comp ∉ l → b.comp = a.comp) ∧ (.ports ∉ l → b.ports = a.ports) ∧
    (.chans ∉ l → b.chans = a.chans) ∧ (.timers ∉ l → b.timers = a.timers) ∧ (.mrv ∉ l → b.mrv = a.mrv) ∧
    (.engines ∉ l → b.engines = a.engines) ∧ (.regions ∉ l → b.regions = a.regions) ∧ (.mct ∉ l → b.mct = a.mct) ∧
    (.cru ∉ l → b.cru = a.cru) ∧ (.acc ∉ l → b.acc = a.acc) ∧ (.flt ∉ l → b.flt = a.flt) ∧ (.svc ∉ l → b.svc = a.svc) ∧
    (.tb ∉ l → b.tb = a.tb) ∧ (.clk ∉ l → b.clk = a.clk) ∧ (.rst ∉ l → b.rst = a.rst) ∧ (.hif ∉ l → b.hif = a.hif) ∧
    (.pins ∉ l → b.pins = a.pins) := by
  constructor
  · intro h
    refine ⟨?_, ?_, ?_, ?_, ?_, ?_, ?_, ?_, ?_, ?_, ?_, ?_, ?_, ?_, ?_, ?_, ?_, ?_, ?_, ?_, ?_, ?_, ?_, ?_, ?_, ?_, ?_, ?_⟩ <;>
      exact fun hp => (h _ hp).symm
  · intro h p hp
    cases p <;> simp_all [Part.same]

theorem Dev.onlyChanges_refl (d : Dev) (l : List Part) : d.onlyChanges d l := fun p _ => by cases p <;> rfl

theorem Dev.onlyChanges_trans {a b c : Dev} {l : List Part} (h : a.onlyChanges b l) (h' : b.onlyChanges c l) :
    a.onlyChanges c l := by
  intro p hp
  have e := h p hp
  have e' := h' p hp
  cases p <;> exact e.trans e'

theorem Dev.onlyChanges_mono {a b : Dev} {l l' : List Part} (h : a.onlyChanges b l) (hl : l ⊆ l') : a.onlyChanges b l' :=
  fun p hp => h p fun hp' => hp (hl hp')


/-! ### The frame of a combinator -/

theorem Dev.when_onlyChanges {b : Bool} {f : Dev → Dev} {d : Dev} {l : List Part} (h : ∀ e : Dev, e.onlyChanges (f e) l) :
    d.onlyChanges (d.when b f) l := by
  cases b
  · exact d.onlyChanges_refl l
  · exact h d

theorem Dev.chanResponse_onlyChanges {ch : Nat} {step : DmaStep} {r : Resp} {k : DmaJob → Dev → Dev} {d : Dev} {l : List Part}
    (h : ∀ j (e : Dev), e.onlyChanges (k j e) l) (hl : [Part.chans, .mem, .mct, .cru, .flt, .hif] ⊆ l) :
    d.onlyChanges (d.chanResponse ch step r k) l := by
  have hlate : d.onlyChanges (d.lateAccess (chanTag ch) r) l := Dev.onlyChanges_mono (by simp [Dev.onlyChanges_iff]) hl
  unfold Dev.chanResponse
  dsimp only
  split
  · exact Dev.onlyChanges_mono (by simp [Dev.onlyChanges_iff]) hl
  · split
    · split
      · exact h _ d
      · exact hlate
    · exact hlate

/-! ## Register writes -/

/-- What a write of a register changes beyond the registers and the faults is what its performance changes. -/
theorem Dev.writeReg_onlyChanges {t : PType} {i off : Nat} {l : List Part} (m woff : Nat) (al : Bool) (w : Word) (d : Dev)
    (hl : [Part.regs, .flt] ⊆ l)
    (h : ∀ (x : RegWrite) r, x.t = t → x.i = i → x.off = off → anyDesc t i off = some r →
      ∀ e : Dev, e.onlyChanges (x.perform r e) l) :
    d.onlyChanges (d.writeReg m t i off woff al w) l := by
  unfold Dev.writeReg
  split
  · exact d.onlyChanges_refl l
  · next r hr =>
    extract_lets n armed ok bad mask old new d₁ d₂
    have e₁ : d.onlyChanges d₁ [.regs, .flt] := by simp only [d₁]; split <;> simp [Dev.onlyChanges_iff]
    have e₂ : d₁.onlyChanges d₂ [.regs, .flt] := by simp only [d₂]; split <;> simp [Dev.onlyChanges_iff]
    have e₁₂ := Dev.onlyChanges_mono (Dev.onlyChanges_trans e₁ e₂) hl
    split
    · exact e₁₂
    · exact Dev.onlyChanges_trans e₁₂ (h _ r rfl rfl rfl hr d₂)

/-- A register outside the page header, with no staging: its write is framed by its own effect. -/
theorem Dev.regWrite_onlyChanges {t : PType} {i off : Nat} {l : List Part} (m : Nat) (w : Word) (d : Dev) (hi : i < t.count)
    (hlo : 0x40 ≤ off) (hhi : off < 0x1000) (hs : ∀ r ∈ regMap t 0, r.off = off → r.staged = false)
    (hl : [Part.regs, .acc, .flt] ⊆ l)
    (h : ∀ x : RegWrite, x.t = t → x.i = i → x.off = off → ∀ v (e : Dev), e.onlyChanges (x.effect v e) l) :
    d.onlyChanges (d.regWrite m t i off w) l := by
  have haf : [Part.acc, .flt] ⊆ l := fun p hp => hl (by simp at hp ⊢; tauto)
  have hrf : [Part.regs, .flt] ⊆ l := fun p hp => hl (by simp at hp ⊢; tauto)
  rcases d.regWrite_cases m t i off w hi hhi with e | e | e <;> rw [e]
  · exact Dev.onlyChanges_mono (by simp [Dev.onlyChanges_iff]) haf
  · exact d.onlyChanges_refl l
  · refine Dev.writeReg_onlyChanges _ _ _ _ _ hrf fun x r ht hi' ho hr e => ?_
    have hst : r.staged = false := anyDesc_unstaged i hs r hr
    unfold RegWrite.perform
    rw [if_neg (by omega), if_neg (by simp [hst])]
    refine Dev.onlyChanges_trans (Dev.onlyChanges_mono ?_ hrf) (h x ht hi' ho _ _)
    unfold RegWrite.store
    rw [if_neg (by simp [hst])]
    split <;> simp [Dev.onlyChanges_iff]

/-- A write of a header register is framed by what the header register does. -/
theorem Dev.headerWrite_onlyChanges {off : Nat} {l : List Part} (m n : Nat) (w : Word) (d : Dev) (ho : off < 0x40)
    (hl : [Part.regs, .acc, .flt] ⊆ l) (h : ∀ x : RegWrite, x.off = off → ∀ e : Dev, e.onlyChanges (x.headerEffect e) l) :
    d.onlyChanges (d.headerWrite m n off w) l := by
  have haf : [Part.acc, .flt] ⊆ l := fun p hp => hl (by simp at hp ⊢; tauto)
  have hrf : [Part.regs, .flt] ⊆ l := fun p hp => hl (by simp at hp ⊢; tauto)
  unfold Dev.headerWrite
  cases hn : pageOf n with
  | none => exact d.onlyChanges_refl l
  | some p =>
    have hpage : (0x4000 * n + off) / 0x4000 = n := by omega
    have hoff : (0x4000 * n + off) % 0x4000 = off := by omega
    have harea : areaOf n = .page p.1 p.2 := by simp [areaOf, hn]
    rw [Option.isSome_some, Dev.when_true]
    unfold Dev.busWrite
    rw [hpage, hoff, harea]
    split
    · exact Dev.onlyChanges_mono (by simp [Dev.onlyChanges_iff]) haf
    · split
      · exact d.onlyChanges_refl l
      · dsimp only [Dev.writePage]
        rw [show off / 0x1000 = 0 by omega, Nat.mod_eq_of_lt (show off < 0x1000 by omega), if_pos rfl]
        refine Dev.writeReg_onlyChanges _ _ _ _ _ hrf fun x r _ _ hx _ e => ?_
        unfold RegWrite.perform
        rw [if_pos (by omega)]
        exact h x hx e

/-! ## The families of commands -/

/-- The families in which the commands are taken: writes of the registers of scene, queues, canvases and ports, writes of other
registers, what the queues do, what canvases, pipes and ports do, what DMA, Marver and the scan engines do, what memory, the Crucible
and the fault collector do, and what Faruo, clocks, resets and pins do. -/
inductive Family where
  | showWrite | unitWrite | queue | display | unit | memory | device
  deriving DecidableEq

/-- The family of a command. -/
def family : Instr → Family
  | .pageKey .. | .pageStageHold .. | .snapReq .. | .blockReset .. | .doorbell .. | .queueEnable .. | .queueDisable .. |
    .noticeRingEnable .. | .cqeNhead .. | .ldgReeval .. | .ldgDerateWrite .. | .cmpRoleRequest .. | .canvasEnable .. |
    .canvasDisable .. | .portEnable .. | .portDisable .. | .retrain .. | .portFrel .. | .swap .. | .dptAuxGo .. |
    .gthClutDataWrite .. | .gthCoefDataWrite .. | .cspIcsDataWrite .. | .cspLutDataWrite .. => .showWrite
  | .channelEnable .. | .channelDisable .. | .kick .. | .dmaFrel .. | .timerEnable .. | .timerPeriodWrite .. | .mrvStart
    .. | .mrvAbort .. | .cvuEnable .. | .cvuDisable .. | .cvuStart .. | .cvuStop .. | .cvuFrel .. | .mctSiteFence .. |
    .laneRetrain .. | .accSelWrite .. | .accData3Commit .. | .lock .. | .stickyClear .. | .logRdSeq .. | .cclkChange .. |
    .tmbLoad .. | .warm .. | .witnessWrite .. | .msixUnmask .. => .unitWrite
  | .registerWrite .. | .aliasWrite .. | .stagedApplyIdle .. | .sceneBegin .. | .windowSet .. | .windowClear .. |
    .surfaceSet .. | .canvasSet .. | .commit .. | .note .. | .nop .. | .reservedOpcode .. | .dmaKick .. | .crcScan .. |
    .waitEvent .. | .waitTimeout .. | .waitTimebaseReached .. | .ringFetchComplete .. | .ringReadTimeout .. |
    .arbitrationRound | .queueDrainComplete .. | .interruptModerationEnd .. | .commitPoint | .reevaluation => .queue
  | .frameStart .. | .bandRelease .. | .gatherEscalation .. | .bandFetchStart .. | .bandDeal .. | .lineWrite .. |
    .bandComplete .. | .understudyBandCompare .. | .rerunComplete .. | .rotationStep | .pipeWatchdog .. | .takeoverRestart
    .. | .parisonFrameComplete .. | .lineDue .. | .activeVideoEnd .. | .canvasDrainComplete .. | .relinkSettled .. |
    .generatorStart .. | .genlockEdge .. | .fsyncInEdge .. | .lockReferenceMissing .. | .fsyncOutEnd | .portDrainComplete
    .. | .hpdRise .. | .hpdFall .. | .hpdLoss .. | .hpdDebounced .. | .linkStatusRead .. | .standbyStatusPoll .. |
    .trainingCandidateDone .. | .trainingRetry .. | .portQuadFault .. | .auxReply .. | .auxTimeout .. |
    .sinkCapabilitiesRead .. | .gatherResponse .. | .cspLutDataRead .. => .display
  | .dmaDrainComplete .. | .descriptorFetch .. | .encoderAcquire .. | .dmaResponse .. | .dmaTimeout .. |
    .descriptorComplete .. | .jobEnd .. | .dmaFlip .. | .timerTick .. | .mrvRowComplete | .gateRelease | .mrvStarved |
    .mrvResponse .. | .mrvTimeout | .cvuDrainComplete .. | .scanResponse .. | .scanTimeout .. | .scanEnd .. |
    .cvuEngineParity .. => .unit
  | .memoryRequest .. | .atomReadReturn .. | .commandSlot .. | .refreshSlot .. | .extraRefresh .. | .writeProbe .. |
    .readWindowEnd .. | .rebuildStart | .rebuildCopy .. | .retrainReadDone .. | .retrainWriteDone .. | .crucibleRead .. |
    .scrubRead .. | .rowSpare .. | .faultArrival | .logEntryWrite | .coalWindowEnd => .memory
  | _ => .device

/-- Pages 1344 to 1359 of BAR0 hold the witness table. -/
theorem areaOf_witness {n : Nat} (h : 1344 ≤ n) (h' : n < 1360) : areaOf n = .witness := by
  have ha : ∀ n, 1344 ≤ n → n < 1360 → areaOf n = .witness := by decide +kernel
  exact ha n h h'

/-- The re-evaluations that the end of training asks for change the scene's requests alone. -/
theorem Dev.askTrained_onlyChanges (d e : Dev) : e.onlyChanges (d.askTrained e) [.scene] := by
  unfold Dev.askTrained
  dsimp only
  repeat' split
  all_goals simp [Dev.onlyChanges_iff]

/-! ### Register writes -/

/-- The frame of a write of a register of scene, queues, canvases and ports. -/
theorem exec_onlyChanges_of_showWrite {i : Instr} {s t : State} (h : exec i s = .next t) (hf : family i = .showWrite) :
    s.dev.onlyChanges t.dev (touches i) := by
  cases i <;> cases hf <;> cases h
  case pageKey | pageStageHold | snapReq | blockReset =>
    refine Dev.headerWrite_onlyChanges _ _ _ _ (by decide) (by simp [touches]) fun x hx e => ?_
    simp only [RegWrite.headerEffect, hx]
    simp [Dev.onlyChanges_iff, touches]
  case noticeRingEnable | cqeNhead =>
    have hs : ∀ r ∈ regMap .cqe 0, r.staged = false := by decide
    refine Dev.regWrite_onlyChanges _ _ _ (by decide) (by omega) (by omega) (fun r hr _ => hs r hr) (by simp [touches])
      fun x ht _ ho v e => ?_
    simp [Dev.onlyChanges_iff, touches, RegWrite.effect, ht]
  all_goals
    refine Dev.regWrite_onlyChanges _ _ _ (by simp only [PType.count]; omega) (by decide) (by decide) (by decide)
      (by simp [touches]) fun x ht _ ho v e => ?_
    simp [Dev.onlyChanges_iff, touches, RegWrite.effect, RegWrite.queue, RegWrite.ldg, RegWrite.cmp, RegWrite.cnv, RegWrite.dpt,
      RegWrite.gth, RegWrite.csp, ht, ho]

/-- The frame of a write of any other register. -/
theorem exec_onlyChanges_of_unitWrite {i : Instr} {s t : State} (h : exec i s = .next t) (hf : family i = .unitWrite) :
    s.dev.onlyChanges t.dev (touches i) := by
  cases i <;> cases hf <;> cases h
  case timerEnable | timerPeriodWrite =>
    have hs : ∀ r ∈ regMap .dma 0, r.staged = false := by decide
    refine Dev.regWrite_onlyChanges _ _ _ (by decide) (by simp only [DMA_TMR_CTL, DMA_TMR_PER]; omega)
      (by simp only [DMA_TMR_CTL, DMA_TMR_PER]; omega) (fun r hr _ => hs r hr) (by simp [touches]) fun x ht _ ho v e => ?_
    simp [Dev.onlyChanges_iff, touches, RegWrite.effect, ht]
  case stickyClear =>
    have hs : ∀ r ∈ regMap .flt 0, r.staged = false := by decide
    refine Dev.regWrite_onlyChanges _ _ _ (by decide) (by simp only [FLT_STICKY]; omega)
      (by simp only [FLT_STICKY]; omega) (fun r hr _ => hs r hr) (by simp [touches]) fun x ht _ ho v e => ?_
    simp [Dev.onlyChanges_iff, touches, RegWrite.effect, ht]
  case laneRetrain m l =>
    have hs : ∀ k : Fin 4, ∀ r ∈ regMap .site 0, r.off = MCT_LANE_CTL + 0x20 * k → r.staged = false := by decide
    refine Dev.regWrite_onlyChanges _ _ _ (by simp only [PType.count]; omega) (by simp only [MCT_LANE_CTL]; omega)
      (by simp only [MCT_LANE_CTL]; omega) (hs ⟨l % 4, by omega⟩) (by simp [touches]) fun x ht _ ho v e => ?_
    have hne : x.off ≠ MCT_SITE_THR ∧ x.off ≠ MCT_SITE_CTL := by
      simp only [ho, MCT_LANE_CTL, MCT_SITE_THR, MCT_SITE_CTL]; omega
    simp [Dev.onlyChanges_iff, touches, RegWrite.effect, RegWrite.site, ht, hne]
  case witnessWrite m r k w =>
    have ha : areaOf ((0x1500000 + 64 * r.val + 4 * k.val) / 0x4000) = .witness := areaOf_witness (by omega) (by omega)
    show s.dev.onlyChanges (s.dev.busWrite m (0x1500000 + 64 * r + 4 * k) w) _
    unfold Dev.busWrite
    rw [ha]
    simp [Dev.onlyChanges_iff, touches]
  case msixUnmask m v =>
    have ha : areaOf ((0x1FF0000 + 16 * v.val + 12) / 0x4000) = .msix := by
      rw [show (0x1FF0000 + 16 * v.val + 12) / 0x4000 = 2044 by omega]
      decide +kernel
    show s.dev.onlyChanges (s.dev.busWrite m (0x1FF0000 + 16 * v + 12) 0) _
    unfold Dev.busWrite
    rw [ha]
    simp [Dev.onlyChanges_iff, touches]
  all_goals
    refine Dev.regWrite_onlyChanges _ _ _ (by simp only [PType.count]; omega) (by decide) (by decide) (by decide)
      (by simp [touches]) fun x ht _ ho v e => ?_
    simp [Dev.onlyChanges_iff, touches, RegWrite.effect, RegWrite.site, RegWrite.ckr, RegWrite.cvu, ht, ho]

/-- The frame of what a queue, an entry or a commit point does, and of the writes of any register. -/
theorem exec_onlyChanges_of_queue {i : Instr} {s t : State} (h : exec i s = .next t) (hf : family i = .queue) :
    s.dev.onlyChanges t.dev (touches i) := by
  cases i <;> cases hf <;> cases h
  case ringFetchComplete q n r =>
    show s.dev.onlyChanges (if _ then _ else _) _
    split
    · simp [Dev.onlyChanges_iff, touches]
    · refine Dev.when_onlyChanges fun e => ?_
      dsimp only
      repeat' split
      all_goals simp [Dev.onlyChanges_iff, touches]
  all_goals
    simp only [Dev.onlyChanges_iff, touches]
    repeat' split
  all_goals simp

/-- The frame of what canvases, pipes, ports and frame locks do. -/
theorem exec_onlyChanges_of_display {i : Instr} {s t : State} (h : exec i s = .next t) (hf : family i = .display) :
    s.dev.onlyChanges t.dev (touches i) := by
  cases i <;> cases hf <;> cases h
  all_goals
    simp only [Dev.onlyChanges_iff, touches]
    repeat' split
  all_goals simp

/-- The frame of what DMA channels, timers, Marver and the scan engines do. -/
theorem exec_onlyChanges_of_unit {i : Instr} {s t : State} (h : exec i s = .next t) (hf : family i = .unit) :
    s.dev.onlyChanges t.dev (touches i) := by
  cases i <;> cases hf <;> cases h
  case descriptorFetch ch r =>
    refine Dev.chanResponse_onlyChanges (fun j e => Dev.when_onlyChanges fun e => ?_) (by simp [touches])
    repeat' split
    all_goals simp [Dev.onlyChanges_iff, touches]
  case scanResponse n r =>
    show s.dev.onlyChanges (if _ then _ else if _ then _ else _) _
    split
    · simp [Dev.onlyChanges_iff, touches]
    · split
      · simp [Dev.onlyChanges_iff, touches]
      · refine Dev.when_onlyChanges fun e => ?_
        repeat' split
        all_goals simp [Dev.onlyChanges_iff, touches]
  all_goals
    simp only [Dev.onlyChanges_iff, touches]
    repeat' split
  all_goals simp

/-- The frame of what the memory controller, the Crucible and the fault collector do. -/
theorem exec_onlyChanges_of_memory {i : Instr} {s t : State} (h : exec i s = .next t) (hf : family i = .memory) :
    s.dev.onlyChanges t.dev (touches i) := by
  cases i <;> cases hf <;> cases h
  all_goals
    simp only [Dev.onlyChanges_iff, touches]
    repeat' split
  all_goals simp

/-- The frame of what Faruo, the clocks, the resets and the pins do. -/
theorem exec_onlyChanges_of_device {i : Instr} {s t : State} (h : exec i s = .next t) (hf : family i = .device) :
    s.dev.onlyChanges t.dev (touches i) := by
  cases i <;> cases hf
  case resetNRise ok straps =>
    simp only [exec, execResetNRise] at h
    repeat' split at h
    all_goals cases h
    all_goals simp [Dev.onlyChanges_iff, touches]
  all_goals cases h
  case memoryTrainingComplete lanes timing =>
    refine Dev.when_onlyChanges fun e => ?_
    dsimp only
    refine Dev.onlyChanges_trans ?_ (Dev.onlyChanges_mono (s.dev.askTrained_onlyChanges _) (by simp [touches]))
    repeat' split
    all_goals simp [Dev.onlyChanges_iff, touches]
  all_goals
    simp only [Dev.onlyChanges_iff, touches]
    repeat' split
  all_goals simp

/-! ## O5 -/

theorem exec_onlyChanges {i : Instr} {s t : State} (h : exec i s = .next t) : s.dev.onlyChanges t.dev (touches i) := by
  cases hf : family i with
  | showWrite => exact exec_onlyChanges_of_showWrite h hf
  | unitWrite => exact exec_onlyChanges_of_unitWrite h hf
  | queue => exact exec_onlyChanges_of_queue h hf
  | display => exact exec_onlyChanges_of_display h hf
  | unit => exact exec_onlyChanges_of_unit h hf
  | memory => exact exec_onlyChanges_of_memory h hf
  | device => exact exec_onlyChanges_of_device h hf

/-- Settles O5, by the frame of each family of commands. -/
theorem commandChangesOnlyItsParts : Obligations.CommandChangesOnlyItsParts := by
  unfold Obligations.CommandChangesOnlyItsParts
  exact fun _ _ _ h => exec_onlyChanges h

end Sys2Proof.Machine
end

section
/-!
PROOF of O7: every step keeps memory in canonical form. A command whose frame leaves memory alone (O5) keeps it; every other stores
through operations that keep the form.
-/
namespace Sys2Proof.Machine
set_option Elab.async false

/-- A command that does not touch memory leaves it as it was. -/
theorem exec_mem {i : Instr} {s t : State} (h : exec i s = .next t) (hm : Part.mem ∉ touches i) : t.dev.mem = s.dev.mem :=
  (exec_onlyChanges h .mem hm).symm

/-- A command that stores keeps memory in canonical form. -/
theorem exec_wf_of_touches {i : Instr} {s t : State} (h : exec i s = .next t) (hm : Part.mem ∈ touches i)
    (hw : Memory.wf s.dev.mem = true) : Memory.wf t.dev.mem = true := by
  cases i <;> simp [touches] at hm
  all_goals cases h
  case reservedOpcode | dmaKick | crcScan | waitEvent =>
    exact Dev.arrival_wf _ _ _ _ hw fun d hd => by simp +contextual [hd]
  case waitTimeout | waitTimebaseReached | bandFetchStart | atomReadReturn =>
    dsimp only
    split <;> simp +contextual [hw]
  case lineWrite p err =>
    dsimp only
    split
    · exact Dev.when_wf _ _ _ hw fun d hd => Dev.writeLine_wf _ _ _ _ (by simp [hd])
    · exact hw
  case rerunComplete =>
    dsimp only
    repeat' split

    all_goals simp [hw]
  case scanResponse e r =>
    show Memory.wf (if _ then _ else if _ then _ else _ : Dev).mem = true
    split
    · simp [hw]
    · split
      · simp [hw]
      · refine Dev.when_wf _ _ _ hw fun d hd => ?_
        split <;> simp [hd]
  case cvuEngineParity e =>
    refine Dev.when_wf _ _ _ hw fun d hd => ?_
    dsimp only
    repeat' split
    all_goals simp [hd]
  case descriptorFetch ch r =>
    refine Dev.chanResponse_wf _ _ _ _ _ hw fun j d hd => Dev.when_wf _ _ _ hd fun d hd => ?_
    repeat' split
    all_goals simp [hd]
  case coldReset => exact FMap.wf_filter _ _ hw
  all_goals simp +contextual [hw]

/-- Settles O7: an idle step leaves memory, a command that does not touch it too, and one that stores keeps the form. -/
theorem memoryStaysCanonical : Obligations.MemoryStaysCanonical := by
  unfold Obligations.MemoryStaysCanonical
  intro s t hw h
  unfold step at h
  split at h
  · cases h
    simpa [idle, tick] using hw
  · next i rest _ =>
    have hs : Memory.wf ({ s with pending := rest } : State).dev.mem = true := hw
    by_cases hm : Part.mem ∈ touches i
    · exact exec_wf_of_touches h hm hs
    · rw [exec_mem h hm]
      exact hs

end Sys2Proof.Machine
end

section
/-!
PROOF of O55, first part: the operations that deny an access, and those that use them, keep `LOCK` and the access tables.
-/
namespace Sys2Proof.Machine
set_option Elab.async false

/-- `LOCK` and the access tables: what stands while `LOCK` reads 1. -/
def Acc.tables (a : Acc) :
    Bool × FMap (Word × Word × Word × Word) × FMap Word × FMap Word × FMap (Word × Word × Word × Word) :=
  (a.lock, a.windows, a.scene, a.surface, a.rights)

@[simp] theorem Acc.tables_ite (c : Prop) [Decidable c] (a b : Acc) :
    (if c then a else b).tables = if c then a.tables else b.tables := by split <;> rfl

@[simp] theorem foldl_tables {α : Type} (f : Dev → α → Dev) (h : ∀ d a, (f d a).acc.tables = d.acc.tables) (l : List α) (d : Dev) :
    (l.foldl f d).acc.tables = d.acc.tables := by
  induction l generalizing d with
  | nil => rfl
  | cons a l ih => rw [List.foldl_cons, ih, h]

@[simp] theorem Dev.when_tables (b : Bool) (f : Dev → Dev) (d : Dev) (h : ∀ d, (f d).acc.tables = d.acc.tables) :
    (d.when b f).acc.tables = d.acc.tables := by
  cases b
  · rfl
  · exact h d

@[simp] theorem Dev.deny_tables (mid target : Nat) (write : Bool) (addr : Nat) (d : Dev) :
    (d.deny mid target write addr).acc.tables = d.acc.tables := by
  simp [Dev.deny, Acc.tables]
@[simp] theorem Dev.masterWrite_tables (mid : Nat) (a : Nat) (ws : List Word) (d : Dev) :
    (Dev.masterWrite mid a ws d).acc.tables = d.acc.tables := by
  unfold Dev.masterWrite
  repeat' split
  all_goals simp

@[simp] theorem Dev.post_tables (f : Nat) (n : Notice) (d : Dev) :
    (Dev.post f n d).acc.tables = d.acc.tables := by
  simp [Dev.post]

@[simp] theorem Dev.noticeThen_tables (f : Nat) (n : Notice) (k : Dev → Dev) (d : Dev) (hk : ∀ d, (k d).acc.tables = d.acc.tables) :
    (Dev.noticeThen f n k d).acc.tables = d.acc.tables := by
  unfold Dev.noticeThen; dsimp only; repeat' split
  all_goals simp [hk]

@[simp] theorem Dev.notice_tables (f : Nat) (n : Notice) (d : Dev) :
    (Dev.notice f n d).acc.tables = d.acc.tables := by
  simp [Dev.notice]

@[simp] theorem Dev.headWriteback_tables (q : Nat) (d : Dev) :
    (Dev.headWriteback q d).acc.tables = d.acc.tables := by
  simp [Dev.headWriteback]

@[simp] theorem Dev.advanceHead_tables (q : Nat) (d : Dev) :
    (Dev.advanceHead q d).acc.tables = d.acc.tables := by
  simp [Dev.advanceHead]

@[simp] theorem Dev.completeGrp_tables (q : Nat) (grp : Nat) (d : Dev) :
    (Dev.completeGrp q grp d).acc.tables = d.acc.tables := by
  simp [Dev.completeGrp]

@[simp] theorem writeEntry_tables (f : Firing) (d : Dev) :
    (writeEntry f d).acc.tables = d.acc.tables := by
  simp [writeEntry]

@[simp] theorem logEntryWrite_tables (d : Dev) :
    (logEntryWrite d).acc.tables = d.acc.tables := by
  unfold logEntryWrite
  repeat' split
  all_goals simp

@[simp] theorem Dev.refuseOpen_tables (q : Nat) (reason : Nat) (slot : Nat) (kind : Nat) (index : Nat) (d : Dev) :
    (Dev.refuseOpen q reason slot kind index d).acc.tables = d.acc.tables := by
  unfold Dev.refuseOpen
  dsimp only
  repeat' split
  all_goals simp

@[simp] theorem Dev.beginScene_tables (q : Nat) (w : Word) (d : Dev) :
    (Dev.beginScene q w d).acc.tables = d.acc.tables := by
  unfold Dev.beginScene
  dsimp only
  repeat' split
  all_goals simp

@[simp] theorem Dev.retryScene_tables (q : Nat) (d : Dev) :
    (Dev.retryScene q d).acc.tables = d.acc.tables := by
  simp [Dev.retryScene]

@[simp] theorem Dev.txnDone_tables (q : Nat) (grp : Nat) (d : Dev) :
    (Dev.txnDone q grp d).acc.tables = d.acc.tables := by
  simp [Dev.txnDone]

@[simp] theorem Dev.stagingFreed_tables (d : Dev) :
    (Dev.stagingFreed d).acc.tables = d.acc.tables := by
  simp [Dev.stagingFreed]

@[simp] theorem Dev.completeChange_tables (a : Admitted) (d : Dev) :
    (Dev.completeChange a d).acc.tables = d.acc.tables := by
  unfold Dev.completeChange
  repeat' split
  all_goals simp

@[simp] theorem Dev.completeAll_tables (nos : List Nat) (d : Dev) :
    (Dev.completeAll nos d).acc.tables = d.acc.tables := by
  unfold Dev.completeAll
  refine foldl_tables _ (fun d a => ?_) _ _
  repeat' split
  all_goals simp

@[simp] theorem Dev.enter_tables (a : Admitted) (d : Dev) :
    (Dev.enter a d).acc.tables = d.acc.tables := by
  simp [Dev.enter]

@[simp] theorem Dev.discardAdmitted_tables (c : Nat) (a : Admitted) (d : Dev) :
    (Dev.discardAdmitted c a d).acc.tables = d.acc.tables := by
  simp [Dev.discardAdmitted]

@[simp] theorem Dev.applyChange_tables (c : Nat) (d : Dev) (a : Admitted) :
    (Dev.applyChange c d a).acc.tables = d.acc.tables := by
  simp [Dev.applyChange]

@[simp] theorem Dev.applyOn_tables (c : Nat) (l : List Admitted) (d : Dev) :
    (Dev.applyOn c l d).acc.tables = d.acc.tables := by
  simp [Dev.applyOn]

@[simp] theorem Dev.refuseTxn_tables (t : Txn) (r : Refuse) (d : Dev) :
    (Dev.refuseTxn t r d).acc.tables = d.acc.tables := by
  unfold Dev.refuseTxn
  repeat' split
  all_goals simp

@[simp] theorem Dev.commitTxn_tables (t : Txn) (d : Dev) :
    (Dev.commitTxn t d).acc.tables = d.acc.tables := by
  unfold Dev.commitTxn
  dsimp only
  repeat' split
  all_goals simp

@[simp] theorem Dev.refuseRegs_tables (c : Nat) (badView : Bool) (r : Refuse) (d : Dev) :
    (Dev.refuseRegs c badView r d).acc.tables = d.acc.tables := by
  simp [Dev.refuseRegs]

@[simp] theorem Dev.commitSame_tables (c : Nat) (set : List (Nat × Word)) (d : Dev) :
    (Dev.commitSame c set d).acc.tables = d.acc.tables := by
  simp [Dev.commitSame]

@[simp] theorem Dev.commitIdle_tables (c : Nat) (set : List (Nat × Word)) (new : CanvasRegs) (d : Dev) :
    (Dev.commitIdle c set new d).acc.tables = d.acc.tables := by
  simp [Dev.commitIdle]

@[simp] theorem Dev.commitLive_tables (c : Nat) (set : List (Nat × Word)) (old : CanvasRegs) (new : CanvasRegs) (l : List Cand) (d : Dev) :
    (Dev.commitLive c set old new l d).acc.tables = d.acc.tables := by
  simp [Dev.commitLive]

@[simp] theorem Dev.commitRegs_tables (c : Nat) (set : List (Nat × Word)) (d : Dev) :
    (Dev.commitRegs c set d).acc.tables = d.acc.tables := by
  unfold Dev.commitRegs
  dsimp only
  repeat' split
  all_goals simp

@[simp] theorem Dev.refuseEnable_tables (c : Nat) (r : Refuse) (d : Dev) :
    (Dev.refuseEnable c r d).acc.tables = d.acc.tables := by
  simp [Dev.refuseEnable]

@[simp] theorem Dev.commitEnable_tables (c : Nat) (d : Dev) :
    (Dev.commitEnable c d).acc.tables = d.acc.tables := by
  unfold Dev.commitEnable
  dsimp only
  repeat' split
  all_goals simp

@[simp] theorem Dev.commitFlip_tables (fn : Nat) (win : Nat) (a : Nat) (b : Nat) (d : Dev) :
    (Dev.commitFlip fn win a b d).acc.tables = d.acc.tables := by
  unfold Dev.commitFlip
  dsimp only
  repeat' split
  all_goals simp

@[simp] theorem Dev.commitClear_tables (v : Nat) (wins : List Nat) (lent : Nat) (d : Dev) :
    (Dev.commitClear v wins lent d).acc.tables = d.acc.tables := by
  simp [Dev.commitClear]

@[simp] theorem commitPoint_tables (d : Dev) :
    (commitPoint d).acc.tables = d.acc.tables := by
  unfold commitPoint
  repeat' split
  all_goals simp

@[simp] theorem Dev.latch_tables (c : Nat) (f : Nat) (d : Dev) :
    (Dev.latch c f d).acc.tables = d.acc.tables := by
  unfold Dev.latch
  dsimp only
  repeat' split
  all_goals simp

@[simp] theorem Dev.releaseFirst_tables (c : Nat) (d : Dev) :
    (Dev.releaseFirst c d).acc.tables = d.acc.tables := by
  simp [Dev.releaseFirst]

@[simp] theorem Dev.applyAll_tables (c : Nat) (d : Dev) :
    (Dev.applyAll c d).acc.tables = d.acc.tables := by
  simp [Dev.applyAll]

@[simp] theorem Dev.drainCanvas_tables (c : Nat) (d : Dev) :
    (Dev.drainCanvas c d).acc.tables = d.acc.tables := by
  simp [Dev.drainCanvas]

@[simp] theorem Dev.writeCanvasEn_tables (c : Nat) (b : Bool) (d : Dev) :
    (Dev.writeCanvasEn c b d).acc.tables = d.acc.tables := by
  unfold Dev.writeCanvasEn
  dsimp only
  repeat' split
  all_goals simp

@[simp] theorem Dev.canvasDrained_tables (c : Nat) (d : Dev) :
    (Dev.canvasDrained c d).acc.tables = d.acc.tables := by
  simp [Dev.canvasDrained]

@[simp] theorem Dev.dealBand_tables (p : Nat) (r : Released) (d : Dev) :
    (Dev.dealBand p r d).acc.tables = d.acc.tables := by
  simp [Dev.dealBand]

@[simp] theorem Dev.takeNext_tables (p : Nat) (d : Dev) :
    (Dev.takeNext p d).acc.tables = d.acc.tables := by
  unfold Dev.takeNext
  repeat' split
  all_goals simp

@[simp] theorem Dev.applyFlip_tables (c : Nat) (a : Admitted) (d : Dev) :
    (Dev.applyFlip c a d).acc.tables = d.acc.tables := by
  simp [Dev.applyFlip]

@[simp] theorem Dev.applyFlips_tables (c : Nat) (d : Dev) :
    (Dev.applyFlips c d).acc.tables = d.acc.tables := by
  simp [Dev.applyFlips]

@[simp] theorem Dev.fetchStart_tables (p : Nat) (h : Held) (d : Dev) :
    (Dev.fetchStart p h d).acc.tables = d.acc.tables := by
  simp [Dev.fetchStart]

@[simp] theorem Dev.arrival_tables (q : Nat) (op : Nat) (k : Dev → Dev) (d : Dev) (hk : ∀ d, (k d).acc.tables = d.acc.tables) :
    (Dev.arrival q op k d).acc.tables = d.acc.tables := by
  simp [Dev.arrival, hk]

@[simp] theorem Dev.consumeDone_tables (q : Nat) (d : Dev) :
    (Dev.consumeDone q d).acc.tables = d.acc.tables := by
  simp [Dev.consumeDone]

@[simp] theorem Dev.refuseAlone_tables (q : Nat) (reason : Nat) (kind : Nat) (index : Nat) (d : Dev) :
    (Dev.refuseAlone q reason kind index d).acc.tables = d.acc.tables := by
  simp [Dev.refuseAlone]

@[simp] theorem Dev.consumeDiscarded_tables (q : Nat) (d : Dev) :
    (Dev.consumeDiscarded q d).acc.tables = d.acc.tables := by
  simp [Dev.consumeDiscarded]

@[simp] theorem Dev.refuseAt_tables (q : Nat) (reason : Nat) (kind : Nat) (index : Nat) (d : Dev) :
    (Dev.refuseAt q reason kind index d).acc.tables = d.acc.tables := by
  simp [Dev.refuseAt]

@[simp] theorem Dev.sceneEntry_tables (q : Nat) (op : TxnOp) (d : Dev) :
    (Dev.sceneEntry q op d).acc.tables = d.acc.tables := by
  unfold Dev.sceneEntry
  dsimp only
  repeat' split
  all_goals simp

@[simp] theorem Dev.commitArrives_tables (q : Nat) (d : Dev) :
    (Dev.commitArrives q d).acc.tables = d.acc.tables := by
  unfold Dev.commitArrives
  dsimp only
  repeat' split
  all_goals simp

@[simp] theorem Dev.plainArrives_tables (q : Nat) (d : Dev) :
    (Dev.plainArrives q d).acc.tables = d.acc.tables := by
  unfold Dev.plainArrives
  repeat' split
  all_goals simp

@[simp] theorem Dev.noteArrives_tables (q : Nat) (d : Dev) :
    (Dev.noteArrives q d).acc.tables = d.acc.tables := by
  simp [Dev.noteArrives]

@[simp] theorem Dev.nopArrives_tables (q : Nat) (d : Dev) :
    (Dev.nopArrives q d).acc.tables = d.acc.tables := by
  simp [Dev.nopArrives]

@[simp] theorem Dev.outsideOnly_tables (q : Nat) (k : Dev → Dev) (d : Dev) (hk : ∀ d, (k d).acc.tables = d.acc.tables) :
    (Dev.outsideOnly q k d).acc.tables = d.acc.tables := by
  unfold Dev.outsideOnly; dsimp only; repeat' split
  all_goals simp [hk]

@[simp] theorem Dev.refuseHeld_tables (q : Nat) (reason : Nat) (kind : Nat) (index : Nat) (d : Dev) :
    (Dev.refuseHeld q reason kind index d).acc.tables = d.acc.tables := by
  simp [Dev.refuseHeld]

@[simp] theorem Dev.refuseWaiters_tables (op : Nat) (hi : Nat) (kind : Nat) (u : Nat) (d : Dev) :
    (Dev.refuseWaiters op hi kind u d).acc.tables = d.acc.tables := by
  simp [Dev.refuseWaiters]

@[simp] theorem Dev.endWait_tables (q : Nat) (w : Wait) (d : Dev) :
    (Dev.endWait q w d).acc.tables = d.acc.tables := by
  simp [Dev.endWait]

@[simp] theorem Dev.checkLevels_tables (d : Dev) :
    (Dev.checkLevels d).acc.tables = d.acc.tables := by
  unfold Dev.checkLevels
  refine foldl_tables _ (fun d a => ?_) _ _
  repeat' split
  all_goals simp

@[simp] theorem Dev.countEdge_tables (event index : Nat) (d : Dev) :
    (Dev.countEdge event index d).acc.tables = d.acc.tables := by
  unfold Dev.countEdge
  refine foldl_tables _ (fun d a => ?_) _ _
  dsimp only
  repeat' split
  all_goals simp

@[simp] theorem Dev.beginWait_tables (q : Nat) (d : Dev) :
    (Dev.beginWait q d).acc.tables = d.acc.tables := by
  simp [Dev.beginWait]

@[simp] theorem Dev.drainQueue_tables (q : Nat) (d : Dev) :
    (Dev.drainQueue q d).acc.tables = d.acc.tables := by
  simp [Dev.drainQueue]

@[simp] theorem Dev.writeQueueEn_tables (q : Nat) (b : Bool) (d : Dev) :
    (Dev.writeQueueEn q b d).acc.tables = d.acc.tables := by
  unfold Dev.writeQueueEn
  dsimp only
  repeat' split
  all_goals simp

@[simp] theorem Dev.vsync_tables (c : Nat) (frame : Nat) (d : Dev) :
    (Dev.vsync c frame d).acc.tables = d.acc.tables := by
  simp [Dev.vsync]

@[simp] theorem Dev.noteFailure_tables (code : Nat) (mid : Nat) (write : Bool) (a : Nat) (len : Nat) (d : Dev) :
    (Dev.noteFailure code mid write a len d).acc.tables = d.acc.tables := by
  simp [Dev.noteFailure]

@[simp] theorem Dev.nextScan_tables (e n : Nat) (d : Dev) :
    (Dev.nextScan e n d).acc.tables = d.acc.tables := by
  induction n generalizing d with
  | zero => rfl
  | succ n ih =>
    unfold Dev.nextScan
    dsimp only
    repeat' split
    all_goals simp [ih]

@[simp] theorem Dev.engineIdle_tables (e : Nat) (d : Dev) :
    (Dev.engineIdle e d).acc.tables = d.acc.tables := by
  simp [Dev.engineIdle]

@[simp] theorem Dev.refuseScans_tables (e : Nat) (d : Dev) :
    (Dev.refuseScans e d).acc.tables = d.acc.tables := by
  simp [Dev.refuseScans]

@[simp] theorem Dev.beginScan_tables (q : Nat) (d : Dev) :
    (Dev.beginScan q d).acc.tables = d.acc.tables := by
  unfold Dev.beginScan
  dsimp only
  repeat' split
  all_goals simp

@[simp] theorem Dev.endScan_tables (e : Nat) (code : Nat) (st : VState) (d : Dev) :
    (Dev.endScan e code st d).acc.tables = d.acc.tables := by
  unfold Dev.endScan
  dsimp only
  repeat' split
  all_goals simp

@[simp] theorem Dev.scanFails_tables (e : Nat) (code : Nat) (d : Dev) :
    (Dev.scanFails e code d).acc.tables = d.acc.tables := by
  simp [Dev.scanFails]

@[simp] theorem Dev.scanEnds_tables (e : Nat) (d : Dev) :
    (Dev.scanEnds e d).acc.tables = d.acc.tables := by
  simp [Dev.scanEnds]

@[simp] theorem Dev.stopScan_tables (e : Nat) (d : Dev) :
    (Dev.stopScan e d).acc.tables = d.acc.tables := by
  simp [Dev.stopScan]

@[simp] theorem Dev.drainEngine_tables (e : Nat) (d : Dev) :
    (Dev.drainEngine e d).acc.tables = d.acc.tables := by
  simp [Dev.drainEngine]

@[simp] theorem Dev.writeEngineEn_tables (e : Nat) (b : Bool) (d : Dev) :
    (Dev.writeEngineEn e b d).acc.tables = d.acc.tables := by
  unfold Dev.writeEngineEn
  dsimp only
  repeat' split
  all_goals simp

@[simp] theorem Dev.engineDrained_tables (e : Nat) (d : Dev) :
    (Dev.engineDrained e d).acc.tables = d.acc.tables := by
  simp [Dev.engineDrained]

@[simp] theorem Dev.chanIdle_tables (ch : Nat) (d : Dev) :
    (Dev.chanIdle ch d).acc.tables = d.acc.tables := by
  unfold Dev.chanIdle
  dsimp only
  repeat' split
  all_goals simp

@[simp] theorem Dev.refuseKicks_tables (ch : Nat) (d : Dev) :
    (Dev.refuseKicks ch d).acc.tables = d.acc.tables := by
  simp [Dev.refuseKicks]

@[simp] theorem Dev.beginKick_tables (q : Nat) (d : Dev) :
    (Dev.beginKick q d).acc.tables = d.acc.tables := by
  unfold Dev.beginKick
  dsimp only
  repeat' split
  all_goals simp

@[simp] theorem Dev.endJob_tables (ch : Nat) (st : DState) (d : Dev) :
    (Dev.endJob ch st d).acc.tables = d.acc.tables := by
  unfold Dev.endJob
  dsimp only
  repeat' split
  all_goals simp

@[simp] theorem Dev.afterJob_tables (ch : Nat) (d : Dev) :
    (Dev.afterJob ch d).acc.tables = d.acc.tables := by
  unfold Dev.afterJob
  dsimp only
  repeat' split
  all_goals simp

@[simp] theorem Dev.haltChan_tables (ch : Nat) (code : Nat) (a : Quad) (d : Dev) :
    (Dev.haltChan ch code a d).acc.tables = d.acc.tables := by
  simp [Dev.haltChan]

@[simp] theorem Dev.fenceChan_tables (ch : Nat) (d : Dev) :
    (Dev.fenceChan ch d).acc.tables = d.acc.tables := by
  simp [Dev.fenceChan]

@[simp] theorem Dev.drainChan_tables (ch : Nat) (d : Dev) :
    (Dev.drainChan ch d).acc.tables = d.acc.tables := by
  simp [Dev.drainChan]

@[simp] theorem Dev.writeChanEn_tables (ch : Nat) (b : Bool) (d : Dev) :
    (Dev.writeChanEn ch b d).acc.tables = d.acc.tables := by
  unfold Dev.writeChanEn
  dsimp only
  repeat' split
  all_goals simp

@[simp] theorem Dev.chanDrained_tables (ch : Nat) (d : Dev) :
    (Dev.chanDrained ch d).acc.tables = d.acc.tables := by
  simp [Dev.chanDrained]

@[simp] theorem Dev.descBad_tables (ch : Nat) (code : Nat) (d : Dev) :
    (Dev.descBad ch code d).acc.tables = d.acc.tables := by
  simp [Dev.descBad]

@[simp] theorem Dev.chanResponse_tables (ch : Nat) (step : DmaStep) (r : Resp) (k : DmaJob → Dev → Dev) (d : Dev) (hk : ∀ w d, (k w d).acc.tables = d.acc.tables) :
    (Dev.chanResponse ch step r k d).acc.tables = d.acc.tables := by
  unfold Dev.chanResponse; dsimp only; repeat' split
  all_goals simp [hk]

@[simp] theorem Dev.moveBytes_tables (ch mid : Nat) (r : Resp) (d : Dev) :
    (Dev.moveBytes ch mid r d).acc.tables = d.acc.tables := by
  unfold Dev.moveBytes
  refine Dev.when_tables _ _ _ fun d => ?_
  repeat' split
  all_goals simp

@[simp] theorem Dev.moveTile_tables (ch mid : Nat) (r : Resp) (d : Dev) :
    (Dev.moveTile ch mid r d).acc.tables = d.acc.tables := by
  unfold Dev.moveTile
  refine Dev.when_tables _ _ _ fun d => ?_
  split
  · simp
  · refine Dev.when_tables _ _ _ fun d => ?_
    dsimp only
    split
    all_goals
      next heq =>
        have h := congrArg (fun p => p.1.acc.tables) heq
        simp at h
        simp [← h]

@[simp] theorem Dev.descEnds_tables (ch : Nat) (d : Dev) :
    (Dev.descEnds ch d).acc.tables = d.acc.tables := by
  simp [Dev.descEnds]

@[simp] theorem Dev.jobEnds_tables (ch : Nat) (d : Dev) :
    (Dev.jobEnds ch d).acc.tables = d.acc.tables := by
  unfold Dev.jobEnds
  extract_lets d1 d2
  have h1 : d1.acc.tables = d.acc.tables := by simp only [d1]; split <;> simp
  have h2 : d2.acc.tables = d1.acc.tables := by simp only [d2]; split <;> simp
  rw [Dev.afterJob_tables, h2, h1]

@[simp] theorem Dev.timerTicks_tables (t : Nat) (d : Dev) :
    (Dev.timerTicks t d).acc.tables = d.acc.tables := by
  unfold Dev.timerTicks
  repeat' split
  all_goals simp

@[simp] theorem mrvRowEnds_tables (m : Dev × Option (Nat × Nat × Nat × Bool)) :
    (mrvRowEnds m).acc.tables = m.1.acc.tables := by
  unfold mrvRowEnds
  repeat' split
  all_goals simp

@[simp] theorem Dev.mrvAnswered_tables (r : Resp) (d : Dev) :
    (Dev.mrvAnswered r d).acc.tables = d.acc.tables := by
  unfold Dev.mrvAnswered
  split
  · simp
  · refine Dev.when_tables _ _ _ fun d => ?_
    cases r
    · simp only [mrvRowEnds_tables]
      split <;> simp
    · simp

@[simp] theorem Dev.completeAway_tables (r : MemReq) (d : Dev) :
    (Dev.completeAway r d).acc.tables = d.acc.tables := by
  unfold Dev.completeAway
  dsimp only
  repeat' split
  all_goals simp

@[simp] theorem Dev.compareRegion_tables (c : Nat) (frame : Nat) (lines : List (List Word)) (i : Nat) (d : Dev) :
    (Dev.compareRegion c frame lines i d).acc.tables = d.acc.tables := by
  simp [Dev.compareRegion]

@[simp] theorem Dev.compareRegions_tables (c : Nat) (frame : Nat) (lines : List (List Word)) (d : Dev) :
    (Dev.compareRegions c frame lines d).acc.tables = d.acc.tables := by
  simp [Dev.compareRegions]

@[simp] theorem Dev.modeFrame_tables (c : Nat) (first : Bool) (d : Dev) :
    (Dev.modeFrame c first d).acc.tables = d.acc.tables := by
  unfold Dev.modeFrame
  dsimp only
  repeat' split
  all_goals simp

@[simp] theorem Dev.frameShows_tables (c : Nat) (first : Bool) (d : Dev) :
    (Dev.frameShows c first d).acc.tables = d.acc.tables := by
  simp [Dev.frameShows]

@[simp] theorem Dev.frameFollows_tables (c : Nat) (first : Bool) (d : Dev) :
    (Dev.frameFollows c first d).acc.tables = d.acc.tables := by
  simp [Dev.frameFollows]

@[simp] theorem Dev.frameStarts_tables (c : Nat) (d : Dev) :
    (Dev.frameStarts c d).acc.tables = d.acc.tables := by
  simp [Dev.frameStarts]

@[simp] theorem Dev.enterRelink_tables (c : Nat) (d : Dev) :
    (Dev.enterRelink c d).acc.tables = d.acc.tables := by
  simp [Dev.enterRelink]

@[simp] theorem Dev.videoEnds_tables (c : Nat) (d : Dev) :
    (Dev.videoEnds c d).acc.tables = d.acc.tables := by
  simp [Dev.videoEnds]

@[simp] theorem Dev.refuseAtLatch_tables (c : Nat) (d : Dev) :
    (Dev.refuseAtLatch c d).acc.tables = d.acc.tables := by
  unfold Dev.refuseAtLatch
  repeat' split
  all_goals simp

@[simp] theorem Dev.consumed_tables (who : CruConsumer) (mac : Nat) (d : Dev) :
    (Dev.consumed who mac d).acc.tables = d.acc.tables := by
  unfold Dev.consumed
  repeat' split
  all_goals simp

@[simp] theorem Dev.flrQueue_tables (q : Nat) (d : Dev) :
    (Dev.flrQueue q d).acc.tables = d.acc.tables := by
  unfold Dev.flrQueue
  dsimp only
  repeat' split
  all_goals simp

@[simp] theorem Dev.flrChan_tables (ch : Nat) (d : Dev) :
    (Dev.flrChan ch d).acc.tables = d.acc.tables := by
  unfold Dev.flrChan
  repeat' split
  all_goals simp

@[simp] theorem Dev.flrEngine_tables (e : Nat) (d : Dev) :
    (Dev.flrEngine e d).acc.tables = d.acc.tables := by
  unfold Dev.flrEngine
  repeat' split
  all_goals simp

@[simp] theorem Dev.startFlr_tables (v : Nat) (d : Dev) :
    (Dev.startFlr v d).acc.tables = d.acc.tables := by
  simp [Dev.startFlr]

@[simp] theorem RegWrite.queue_tables (x : RegWrite) (d : Dev) :
    (RegWrite.queue x d).acc.tables = d.acc.tables := by
  simp [RegWrite.queue]

@[simp] theorem RegWrite.cru_tables (x : RegWrite) (d : Dev) :
    (RegWrite.cru x d).acc.tables = d.acc.tables := by
  simp [RegWrite.cru]

@[simp] theorem RegWrite.cnv_tables (x : RegWrite) (d : Dev) :
    (RegWrite.cnv x d).acc.tables = d.acc.tables := by
  simp [RegWrite.cnv]

@[simp] theorem RegWrite.chan_tables (x : RegWrite) (d : Dev) :
    (RegWrite.chan x d).acc.tables = d.acc.tables := by
  simp [RegWrite.chan]

@[simp] theorem RegWrite.cvu_tables (x : RegWrite) (d : Dev) :
    (RegWrite.cvu x d).acc.tables = d.acc.tables := by
  simp [RegWrite.cvu]

end Sys2Proof.Machine
end

section
/-!
PROOF of O55, second part: while `LOCK` reads 1, no write of a register and no other command changes `LOCK` or an access table.
-/
namespace Sys2Proof.Machine
set_option Elab.async false

theorem Acc.tables_eq_iff {a b : Acc} : a.tables = b.tables ↔
    a.lock = b.lock ∧ a.windows = b.windows ∧ a.scene = b.scene ∧ a.surface = b.surface ∧ a.rights = b.rights := by
  simp [Acc.tables]

/-- A register all of whose fields `LOCK` guards takes no write while `LOCK` reads 1. -/
theorem RegDesc.takenMask_locked {r : RegDesc} (h : ∀ f ∈ r.fields, f.acc.locked = true) (armed al : Bool) (w : Word) :
    r.takenMask armed true al w = 0 := by
  unfold RegDesc.takenMask
  generalize (0 : Word) = m
  revert h
  induction r.fields generalizing m with
  | nil => intro _; rfl
  | cons f fs ih =>
    intro h
    have hf : f.takes armed true w = false := by simp [FieldDesc.takes, h f (by simp)]
    rw [List.foldl_cons, hf]
    exact ih m fun g hg => h g (List.mem_cons_of_mem _ hg)

/-- `LOCK` guards every field of `ACC_DATA3`. -/
theorem accData3_locked {i : Nat} {r : RegDesc} (h : anyDesc .acc i (ACC_DATA + 12) = some r) :
    ∀ f ∈ r.fields, f.acc.locked = true := by
  have key : ∀ r ∈ anyDesc .acc 0 (ACC_DATA + 12), ∀ f ∈ r.fields, f.acc.locked = true := by decide
  exact key r h

theorem Dev.lockTables_tables {d : Dev} (hl : d.acc.lock = true) : d.lockTables.acc.tables = d.acc.tables := by
  simp [Dev.lockTables, Acc.tables, hl]

/-- While `LOCK` reads 1, what a register's write does beyond the register keeps the tables, the write of `ACC_DATA3` apart. -/
theorem RegWrite.effect_tables {x : RegWrite} {d : Dev} (b : Bool) (hl : d.acc.lock = true)
    (h : ¬ (x.t = .acc ∧ x.off = ACC_DATA + 12)) : (x.effect b d).acc.tables = d.acc.tables := by
  unfold RegWrite.effect
  split
  case h_5 ht =>
    have ho : x.off ≠ ACC_DATA + 12 := fun ho => h ⟨ht, ho⟩
    unfold RegWrite.acc
    simp [ho, Dev.lockTables_tables hl]
  all_goals simp

theorem RegWrite.perform_tables {x : RegWrite} {r : RegDesc} {d : Dev} (hl : d.acc.lock = true)
    (h : ¬ (x.t = .acc ∧ x.off = ACC_DATA + 12)) : (x.perform r d).acc.tables = d.acc.tables := by
  have hs : (x.store r d).acc = d.acc := by simp
  unfold RegWrite.perform
  split
  · simp
  · dsimp only
    split
    · rw [hs]
    · rw [RegWrite.effect_tables _ (hs ▸ hl) h, hs]

/-- While `LOCK` reads 1, no write of a register changes an access table. -/
theorem Dev.writeReg_tables {d : Dev} (m : Nat) (t : PType) (i off woff : Nat) (al : Bool) (w : Word) (hl : d.acc.lock = true) :
    (d.writeReg m t i off woff al w).acc.tables = d.acc.tables := by
  unfold Dev.writeReg
  split
  · rfl
  · next r hr =>
    extract_lets n armed ok bad mask old new d₁ d₂
    have h₁ : d₁.acc = d.acc := by simp only [d₁]; split <;> simp
    have h₂ : d₂.acc = d.acc := by simp only [d₂]; split <;> simp [h₁]
    split
    · rw [h₂]
    · next hm =>
      have h3 : ¬ (t = .acc ∧ off = ACC_DATA + 12) := by
        rintro ⟨rfl, rfl⟩
        refine hm ?_
        simp only [mask, hl, RegDesc.takenMask_locked (accData3_locked hr)]
        exact ite_self _
      rw [RegWrite.perform_tables (by rw [h₂, hl]) h3, h₂]

theorem Dev.writePage_tables {d : Dev} (m : Nat) (t : PType) (i woff : Nat) (w : Word) (hl : d.acc.lock = true) :
    (d.writePage m t i woff w).acc.tables = d.acc.tables := by
  unfold Dev.writePage
  dsimp only
  repeat' split
  all_goals simp [Dev.writeReg_tables, hl]

theorem Dev.busWrite_tables {d : Dev} (m off : Nat) (w : Word) (hl : d.acc.lock = true) :
    (d.busWrite m off w).acc.tables = d.acc.tables := by
  rcases d.busWrite_cases m off w with h | h | ⟨t, i, -, h⟩ | ⟨-, h⟩ | ⟨-, a, b, h⟩ <;> rw [h]
  · simp
  · exact Dev.writePage_tables _ _ _ _ _ hl
  · simp
  · simp

theorem Acc.lock_of_tables {a b : Acc} (h : a.tables = b.tables) (hl : b.lock = true) : a.lock = true :=
  (Acc.tables_eq_iff.mp h).1.trans hl

theorem Dev.when_busWrite_tables {d : Dev} (b : Bool) (m off : Nat) (w : Word) (hl : d.acc.lock = true) :
    (d.when b (Dev.busWrite m off w)).acc.tables = d.acc.tables := by
  cases b
  · rfl
  · exact Dev.busWrite_tables m off w hl

theorem Dev.sizedWrite_tables {d : Dev} (m off size : Nat) (q : Quad) (hl : d.acc.lock = true) :
    (d.sizedWrite m off size q).acc.tables = d.acc.tables := by
  unfold Dev.sizedWrite
  have h1 := Dev.busWrite_tables m off (lo32 q) hl
  have h2 := Dev.busWrite_tables m (off + 4) (hi32 q) (Acc.lock_of_tables h1 hl)
  repeat' split
  all_goals simp [h1, h2]

@[simp] theorem Dev.readSide_tables (m off : Nat) (d : Dev) : (d.readSide m off).acc.tables = d.acc.tables := by
  unfold Dev.readSide
  repeat' split
  all_goals simp

@[simp] theorem Dev.readBar_tables (m off size : Nat) (d : Dev) : (d.readBar m off size).acc.tables = d.acc.tables := by
  simp [Dev.readBar]

/-- While `LOCK` reads 1, a command that touches the access control page keeps what `Acc.tables` names, the two resets apart. -/
theorem exec_tables_of_touches {i : Instr} {s t : State} (h : exec i s = .next t) (hc : i ≠ .coldReset)
    (hw : i ≠ .warmResetComplete) (hl : s.dev.acc.lock = true) (ha : Part.acc ∈ touches i) :
    t.dev.acc.tables = s.dev.acc.tables := by
  cases i <;> simp [touches] at ha
  all_goals cases h
  case aliasWrite | pageKey | pageStageHold | snapReq | blockReset => exact Dev.when_busWrite_tables _ _ _ _ hl
  case waitTimeout | waitTimebaseReached | bandFetchStart =>
    dsimp only
    split <;> simp
  case ringFetchComplete q n r =>
    show (if _ then _ else _ : Dev).acc.tables = _
    split
    · simp
    · refine Dev.when_tables _ _ _ fun d => ?_
      dsimp only
      repeat' split
      all_goals simp
  case descriptorFetch ch r =>
    refine Dev.chanResponse_tables _ _ _ _ _ fun j d => Dev.when_tables _ _ _ fun d => ?_
    repeat' split
    all_goals simp
  case scanResponse e r =>
    show (if _ then _ else if _ then _ else _ : Dev).acc.tables = _
    split
    · simp
    · split
      · simp
      · refine Dev.when_tables _ _ _ fun d => ?_
        split <;> simp
  all_goals simp_all [Dev.sizedWrite_tables, Dev.regWrite, Dev.fieldWrite, Dev.busWrite_tables]

/-- While `LOCK` reads 1, no command but the two resets changes what `Acc.tables` names. -/
theorem exec_tables {i : Instr} {s t : State} (h : exec i s = .next t) (hc : i ≠ .coldReset) (hw : i ≠ .warmResetComplete)
    (hl : s.dev.acc.lock = true) : t.dev.acc.tables = s.dev.acc.tables := by
  by_cases ha : Part.acc ∈ touches i
  · exact exec_tables_of_touches h hc hw hl ha
  · rw [← show s.dev.acc = t.dev.acc from exec_onlyChanges h .acc ha]

/-- Settles O55: while `LOCK` reads 1, no command but the two resets changes `LOCK` or a table. -/
theorem lockStandsUntilAReset : Obligations.LockStandsUntilAReset := by
  unfold Obligations.LockStandsUntilAReset
  intro i s u h hc hw hl
  obtain ⟨hlock, hwin, hscene, hsurf, hright⟩ := Acc.tables_eq_iff.mp (exec_tables h hc hw hl)
  exact ⟨hlock.trans hl, hwin, hscene, hsurf, hright⟩

end Sys2Proof.Machine
end

section
/-!
PROOF of O1, O3, O4 and O6.
-/
namespace Sys2Proof.Machine
set_option Elab.async false

/-- Settles O1: `step` takes the queue apart. -/
theorem stepRunsTheFrontCommand : Obligations.StepRunsTheFrontCommand := by
  unfold Obligations.StepRunsTheFrontCommand
  exact fun _ _ _ => rfl

/-- Every command but a rise of `RESET_N` makes a new device and leaves the queue. -/
theorem exec_eq_next {i : Instr} (h : ∀ ok k, i ≠ .resetNRise ok k) (s : State) : ∃ d, exec i s = .next ⟨d, s.pending⟩ := by
  cases i
  case resetNRise ok k => exact absurd rfl (h ok k)
  all_goals exact ⟨_, rfl⟩

/-- A rise of `RESET_N` is ignored out of reset, starts the device, or is not defined, without stable clocks. -/
theorem exec_resetNRise (ok : Bool) (k : BitVec 2) (s : State) :
    (∃ d, exec (.resetNRise ok k) s = .next ⟨d, s.pending⟩) ∨
      ok = false ∧ s.dev.rst.phase = .reset ∧ exec (.resetNRise ok k) s = .fault .startUpUndefined := by
  simp only [exec, execResetNRise]
  by_cases hp : s.dev.rst.phase = .reset
  · cases ok
    · exact .inr ⟨rfl, hp, by simp [hp]⟩
    · exact .inl ⟨_, by simp [hp]; rfl⟩
  · exact .inl ⟨s.dev, by simp [hp]⟩

/-- Every command makes a new device and leaves the queue, but for the start-up that R377 leaves undefined. -/
theorem exec_cases (i : Instr) (s : State) : (∃ d, exec i s = .next ⟨d, s.pending⟩) ∨
    ∃ k, i = .resetNRise false k ∧ s.dev.rst.phase = .reset ∧ exec i s = .fault .startUpUndefined := by
  by_cases h : ∃ ok k, i = .resetNRise ok k
  · obtain ⟨ok, k, rfl⟩ := h
    rcases exec_resetNRise ok k s with he | ⟨rfl, hp, e⟩
    · exact .inl he
    · exact .inr ⟨k, rfl, hp, e⟩
  · exact .inl (exec_eq_next (fun ok k hi => h ⟨ok, k, hi⟩) s)

/-- Settles O3, by the two outcomes of a command. -/
theorem everyCommandCompletesOrStartUpIsUndefined : Obligations.EveryCommandCompletesOrStartUpIsUndefined := by
  unfold Obligations.EveryCommandCompletesOrStartUpIsUndefined
  intro i s
  exact (exec_cases i s).imp_left fun ⟨_, e⟩ => ⟨_, e⟩

/-- Settles O4, by the two outcomes of a command. -/
theorem commandsLeaveTheWaitingQueue : Obligations.CommandsLeaveTheWaitingQueue := by
  unfold Obligations.CommandsLeaveTheWaitingQueue
  intro i s t h
  rcases exec_cases i s with ⟨d, e⟩ | ⟨-, -, -, e⟩ <;> rw [e] at h <;> cases h
  rfl

/-- Settles O6: memory lists no byte after a cold reset. -/
theorem memoryCanonicalAtReset : Obligations.MemoryCanonicalAtReset := by
  unfold Obligations.MemoryCanonicalAtReset
  rfl

end Sys2Proof.Machine
end

section
/-!
PROOF of O2 and O18: what a cycle of the clock does to the snapshot mailboxes. `Dev.snapStep` is one mailbox's step; the cycle takes it
in every mailbox (`Dev.landSnaps_snapOf`), because no mailbox's step depends on another's.
-/
namespace Sys2Proof.Machine
set_option Elab.async false

@[simp] theorem Dev.setSnap_snapOf_same (n : Nat) (x : Snap) (d : Dev) : (d.setSnap n x).snapOf n = x :=
  FMap.get_put_same _ _ _ _

theorem Dev.setSnap_snapOf_ne {n k : Nat} (h : k ≠ n) (x : Snap) (d : Dev) : (d.setSnap n x).snapOf k = d.snapOf k :=
  FMap.get_put_ne _ _ _ h

/-- The words of a group are not in the mailboxes. -/
@[simp] theorem Dev.setSnap_snapWords (n : Nat) (x : Snap) (d : Dev) (t : PType) (i g : Nat) :
    (d.setSnap n x).snapWords t i g = d.snapWords t i g := by
  unfold Dev.snapWords
  split <;> rfl

/-- The mailbox of page `n` after a cycle. -/
def Dev.snapStep (d : Dev) (n : Nat) : Snap := (d.landSnap n).snapOf n

/-- A mailbox's step is no change, or a new value of the mailbox. -/
theorem Dev.landSnap_cases (n : Nat) (d : Dev) : d.landSnap n = d ∨ ∃ x, d.landSnap n = d.setSnap n x := by
  unfold Dev.landSnap
  dsimp only
  split
  · next a t i _ _ _ =>
    cases decide (a + 10 ≤ d.now)
    · exact .inl rfl
    · exact .inr ⟨_, rfl⟩
  · next a ws _ _ =>
    cases decide (a + 15 ≤ d.now)
    · exact .inl rfl
    · exact .inr ⟨_, rfl⟩
  · exact .inl rfl

theorem Dev.landSnap_snapOf_ne {n k : Nat} (h : k ≠ n) (d : Dev) : (d.landSnap n).snapOf k = d.snapOf k := by
  rcases d.landSnap_cases n with e | ⟨x, e⟩ <;> rw [e]
  exact Dev.setSnap_snapOf_ne h x d

/-- A mailbox with no request under way keeps still. -/
theorem Dev.landSnap_idle {n : Nat} {d : Dev} (h : (d.snapOf n).asked = none) : d.landSnap n = d := by
  unfold Dev.landSnap
  simp [h]

/-- What a mailbox's step reads: the mailbox, the time, and the group's words. -/
theorem Dev.snapStep_setSnap_ne {n k : Nat} (h : n ≠ k) (x : Snap) (d : Dev) : (d.setSnap k x).snapStep n = d.snapStep n := by
  unfold Dev.snapStep Dev.landSnap
  simp only [Dev.setSnap_snapOf_ne h, Dev.setSnap_snapWords, Dev.setSnap_frame]
  split
  · next a t i _ _ _ => cases decide (a + 10 ≤ d.now) <;> simp [Dev.setSnap_snapOf_ne h]
  · next a ws _ _ => cases decide (a + 15 ≤ d.now) <;> simp [Dev.setSnap_snapOf_ne h]
  · exact Dev.setSnap_snapOf_ne h x d

theorem Dev.snapStep_landSnap_ne {n k : Nat} (h : n ≠ k) (d : Dev) : (d.landSnap k).snapStep n = d.snapStep n := by
  rcases d.landSnap_cases k with e | ⟨x, e⟩ <;> rw [e]
  exact Dev.snapStep_setSnap_ne h x d

/-- The steps of some pages' mailboxes, in turn. -/
def Dev.landOn (ns : List Nat) (d : Dev) : Dev := ns.foldl (fun d n => d.landSnap n) d

theorem Dev.landSnaps_eq (d : Dev) : d.landSnaps = d.landOn (d.regs.snaps.map (·.1)) := by
  simp [Dev.landSnaps, Dev.landOn, List.foldl_map]

theorem Dev.landOn_snapOf_notMem {n : Nat} {ns : List Nat} (h : n ∉ ns) (d : Dev) : (d.landOn ns).snapOf n = d.snapOf n := by
  induction ns generalizing d with
  | nil => rfl
  | cons k ns ih =>
    obtain ⟨hk, hns⟩ := not_or.mp (mt List.mem_cons.mpr h)
    exact (ih hns (d.landSnap k)).trans (Dev.landSnap_snapOf_ne hk d)

theorem Dev.landOn_snapOf_idle {n : Nat} (ns : List Nat) {d : Dev} (h : (d.snapOf n).asked = none) :
    (d.landOn ns).snapOf n = d.snapOf n := by
  induction ns generalizing d with
  | nil => rfl
  | cons k ns ih =>
    have hk : (d.landSnap k).snapOf n = d.snapOf n := by
      by_cases e : n = k
      · subst e
        rw [Dev.landSnap_idle h]
      · exact Dev.landSnap_snapOf_ne e d
    exact (ih (by rw [hk, h])).trans hk

theorem Dev.landOn_snapOf {n : Nat} {ns : List Nat} (hd : ns.Nodup) (h : n ∈ ns) (d : Dev) :
    (d.landOn ns).snapOf n = d.snapStep n := by
  induction ns generalizing d with
  | nil => cases h
  | cons k ns ih =>
    obtain ⟨hk, hd'⟩ := List.nodup_cons.mp hd
    rcases List.mem_cons.mp h with rfl | hn
    · exact Dev.landOn_snapOf_notMem hk (d.landSnap n)
    · have hne : n ≠ k := fun e => hk (e ▸ hn)
      exact (ih hd' hn (d.landSnap k)).trans (Dev.snapStep_landSnap_ne hne d)

/-- Nothing of the register file but the mailboxes changes. -/
theorem Dev.landOn_regs (ns : List Nat) (d : Dev) : { (d.landOn ns).regs with snaps := d.regs.snaps } = d.regs := by
  induction ns generalizing d with
  | nil => rfl
  | cons k ns ih =>
    have hk : { (d.landSnap k).regs with snaps := d.regs.snaps } = d.regs := by
      rcases d.landSnap_cases k with e | ⟨x, e⟩ <;> rw [e]
      rfl
    have hl := congrArg (fun r : Regs => { r with snaps := d.regs.snaps }) (ih (d.landSnap k))
    exact hl.trans hk

/-- A mailbox with a request under way is listed. -/
theorem Dev.mem_snaps_of_asked {d : Dev} {n a : Nat} (h : (d.snapOf n).asked = some a) : n ∈ d.regs.snaps.map (·.1) := by
  unfold Dev.snapOf FMap.get at h
  split at h
  · next e he =>
    have hn : e.1 = n := by simpa using List.find?_some he
    exact List.mem_map.mpr ⟨e, List.mem_of_find?_eq_some he, hn⟩
  · cases h

/-! ## O2 -/

theorem spreadAt_zero (k : Nat) : spreadAt 0 k = 0 := by simp [spreadAt]

/-- A cycle of a running timebase with no correction counts one. -/
theorem Timebase.cycle_count {t : Timebase} (hr : t.run = true) (he : t.err = 0) (h0 : t.rate = 0) :
    t.cycle.count = t.count + 1 ∧ t.cycle.err = 0 := by
  simp [Timebase.cycle, hr, he, h0, spreadAt_zero]

/-- The device after the tick of an idle step. -/
def Dev.ticked (d : Dev) : Dev := { d with now := d.now + 1, tb := d.tb.cycle }

theorem step_idle (d : Dev) : step ⟨d, []⟩ = .next ⟨d.ticked.landSnaps, []⟩ := rfl

/-- Settles O2, by the step of each mailbox. -/
theorem idleStepIsOneClockCycle : Obligations.IdleStepIsOneClockCycle := by
  unfold Obligations.IdleStepIsOneClockCycle
  intro d
  refine ⟨d.ticked.landSnaps, step_idle d, by simp [Dev.ticked], by simp [Dev.ticked], ?_, ?_, fun n hn => ?_,
    fun hr he h0 => Timebase.cycle_count hr he h0, fun hr => by simp [Timebase.cycle, hr]⟩
  · simp [Dev.onlyChanges_iff, Dev.ticked]
  · rw [Dev.landSnaps_eq]
    exact Dev.landOn_regs _ d.ticked
  · rw [Dev.landSnaps_eq]
    exact Dev.landOn_snapOf_idle _ (show (d.ticked.snapOf n).asked = none from hn)

/-! ## O18 -/

/-- A read of a word of the page header. -/
theorem Dev.readPage_header (d : Dev) (t : PType) (i : Nat) {off : Nat} (h : off < 0x40) (h4 : off % 4 = 0) :
    d.readPage t i off = d.header t i off := by
  have ho : off % 0x1000 / 4 * 4 = off := by omega
  unfold Dev.readPage
  simp only [ho, if_pos h]

theorem Dev.readPage_snapStat (d : Dev) (t : PType) (i : Nat) : d.readPage t i 0x024 = (d.snapOf (t.page + i)).stat :=
  d.readPage_header t i (by decide) (by decide)

theorem Dev.readPage_snapWord (d : Dev) (t : PType) (i : Nat) (k : Fin 6) :
    d.readPage t i (0x028 + 4 * k) = wordAt (d.snapOf (t.page + i)).words k := by
  rw [d.readPage_header t i (by omega) (by omega)]
  fin_cases k <;> rfl

theorem wordAt_sixWords (ws : List Word) (k : Fin 6) : wordAt (sixWords ws) k = wordAt ws k := by
  simp [wordAt, sixWords]

theorem bit_flag_same {n : Nat} (h : n < 32) (b : Bool) : bit (flag n b) n = b := by
  cases b
  · simp [bit, flag]
  · simp only [bit, flag, if_true, BitVec.getLsbD_ofNat, Nat.one_shiftLeft, Nat.testBit_two_pow_self, h]
    rfl

theorem bit_flag_ne {n k : Nat} (h : k ≠ n) (b : Bool) : bit (flag n b) k = false := by
  cases b
  · simp [bit, flag]
  · simp only [bit, flag, if_true, BitVec.getLsbD_ofNat, Nat.one_shiftLeft, Nat.testBit_two_pow_of_ne h.symm, Bool.and_false]

/-- A bit above a field. -/
theorem bit_place_above {hi lo k : Nat} (v : Nat) (hk : hi < k) (hl : lo ≤ hi) : bit (place hi lo v) k = false := by
  have hlt : v % 2 ^ (hi + 1 - lo) < 2 ^ (k - lo) :=
    (Nat.mod_lt _ (by positivity)).trans_le (Nat.pow_le_pow_right (by decide) (by omega))
  simp only [bit, place, BitVec.getLsbD_ofNat, Nat.testBit_shiftLeft, Nat.testBit_lt_two_pow hlt, Bool.and_false]

theorem Snap.stat_bit (x : Snap) : bit x.stat 31 = x.valid := by
  unfold Snap.stat
  rw [bit_or, bit_or, bit_or, bit_flag_same (by decide), bit_flag_ne (by decide), bit_place_above _ (by decide) (by decide),
    bit_place_above _ (by decide) (by decide)]
  simp

/-- Before its time a mailbox with no copy waits; then the copy is taken. -/
theorem Dev.snapStep_asked {d : Dev} {t : PType} {i a : Nat} (hi : i < t.count) (h : (d.snapOf (t.page + i)).asked = some a)
    (ht : (d.snapOf (t.page + i)).taken = none) : d.snapStep (t.page + i) = if a + 10 ≤ d.now then
      { d.snapOf (t.page + i) with taken := some (d.snapWords t i (d.snapOf (t.page + i)).group.toNat) }
      else d.snapOf (t.page + i) := by
  unfold Dev.snapStep Dev.landSnap
  simp only [h, ht, pageOf_page t i hi]
  split_ifs with hn <;> simp [hn]

/-- A copy lands in its time. -/
theorem Dev.snapStep_taken {d : Dev} {n a : Nat} {ws : Option (List Word)} (h : (d.snapOf n).asked = some a)
    (ht : (d.snapOf n).taken = some ws) : d.snapStep n = if a + 15 ≤ d.now then
      { d.snapOf n with valid := true, grpErr := ws.isNone, words := sixWords (ws.getD []), asked := none, taken := none }
      else d.snapOf n := by
  unfold Dev.snapStep Dev.landSnap
  simp only [h, ht]
  split_ifs with hn <;> simp [hn]

/-- Settles O18: a request starts the mailbox afresh, and a cycle takes the mailbox's step. -/
theorem snapshotHoldsItsGroup : Obligations.SnapshotHoldsItsGroup := by
  unfold Obligations.SnapshotHoldsItsGroup
  refine ⟨fun m p t i g s hi hp hm => ?_, fun p t i x t₀ d hi hp hd hx ha => ?_⟩
  · have he : exec (.snapReq m p g) s = .next { s with dev := s.dev.takeSnap t i m g } := by
      show s.dev! (Dev.headerWrite m p 0x020 (g.setWidth 32)) = _
      rw [State.dev!_next, hp, Dev.headerWrite_snap hi hm]
    refine ⟨_, he, ?_⟩
    simp only [Dev.readPage_snapStat, Snap.stat_bit, hp, Dev.takeSnap, Dev.setSnap_snapOf_same]
    refine ⟨trivial, trivial, trivial, trivial, trivial, fun n hn => Dev.setSnap_snapOf_ne hn _ _, fun a => ⟨rfl, rfl⟩, ?_⟩
    simp [Dev.onlyChanges_iff]
  · rw [hp] at hx
    subst hx
    have hx : (d.ticked.landSnaps).snapOf (t.page + i) = d.ticked.snapStep (t.page + i) := by
      rw [Dev.landSnaps_eq]
      exact Dev.landOn_snapOf hd (Dev.mem_snaps_of_asked ha) _
    have ha' : (d.ticked.snapOf (t.page + i)).asked = some t₀ := ha
    refine ⟨d.ticked.landSnaps, step_idle d, fun ht hn => ?_, fun ht hn => ?_, fun ws ht => ⟨fun hn => ?_, fun hn => ?_⟩⟩
    · rw [hp, hx, Dev.snapStep_asked hi ha' ht, if_neg (show ¬ t₀ + 10 ≤ d.ticked.now from Nat.not_le.mpr hn)]
      rfl
    · rw [hp, hx, Dev.snapStep_asked hi ha' ht, if_pos (show t₀ + 10 ≤ d.ticked.now from hn)]
      rfl
    · rw [hp, hx, Dev.snapStep_taken ha' ht, if_neg (show ¬ t₀ + 15 ≤ d.ticked.now from Nat.not_le.mpr hn)]
      rfl
    · rw [hp]
      simp only [Dev.readPage_snapStat, Dev.readPage_snapWord, hx, Dev.snapStep_taken ha' ht, if_pos (show t₀ + 15 ≤ d.ticked.now from hn)]
      refine ⟨trivial, fun k => ?_, rfl⟩
      rw [wordAt_sixWords]
      cases ws <;> simp [wordAt]

end Sys2Proof.Machine
end

section
/-!
PROOF of O8 and O13: writes of plain registers. What `plainReg` says of an offset is said of the register there once
(`regDesc_plain`); a write of such a register, at its own offset or at one of its set, clear and toggle offsets, is `Dev.writeReg_plain`.
-/
namespace Sys2Proof.Machine
set_option Elab.async false

/-- A register whose every field is RW and takes any value. -/
structure RegDesc.Plain (r : RegDesc) : Prop where
  unstaged : r.staged = false
  stores : r.storedMask ≠ 0
  acts : r.actionOnly = false
  fields : ∀ f ∈ r.fields, f.acc = .rw ∧ f.legal = .any

theorem regDesc_mem {t : PType} {i off : Nat} {r : RegDesc} (ht : t ≠ .cqe) (h : regDesc t i off = some r) :
    r ∈ regMap t 0 ∧ r.off = off := by
  unfold regDesc at h
  rw [if_neg (fun hc => ht hc.1)] at h
  exact ⟨regMap_sub t i r (List.mem_of_find?_eq_some h), by simpa using List.find?_some h⟩

/-- The registers at the offsets that `plainReg` names are plain. -/
theorem regDesc_plain {t : PType} {i off : Nat} {r : RegDesc} (h : plainReg t off = true) (hr : regDesc t i off = some r) :
    r.Plain := by
  have key : ∀ t, ∀ r ∈ regMap t 0, plainReg t r.off = true →
      r.staged = false ∧ r.storedMask ≠ 0 ∧ r.actionOnly = false ∧ ∀ f ∈ r.fields, f.acc = .rw ∧ f.legal = .any := by
    intro t
    cases t <;> decide +kernel
  have ht : t ≠ .cqe := by
    rintro rfl
    simp [plainReg] at h
  obtain ⟨hm, rfl⟩ := regDesc_mem ht hr
  obtain ⟨hs, h0, ha, hf⟩ := key t r hm h
  exact ⟨hs, h0, ha, hf⟩

/-- The offsets that `plainReg` names. -/
theorem plainReg_cases {t : PType} {off : Nat} (h : plainReg t off = true) : off % 4 = 0 ∧
    (t = .tmb ∧ (off = 0x48 ∨ off = 0x4C) ∨ t = .svc ∧ 0x54 ≤ off ∧ off ≤ 0x60 ∨ t = .flt ∧ 0x140 ≤ off ∧ off < 0x188 ∨
      t = .mrv ∧ 0x48 ≤ off ∧ off ≤ 0x7C ∨ t = .cvu ∧ 0x4C ≤ off ∧ off ≤ 0x7C ∨ t = .dpt ∧ 0x68 ≤ off ∧ off ≤ 0x74) := by
  cases t <;>
    simp [plainReg, TMB_SET_LO, TMB_SET_HI, SVC_MB_ARG, FLT_MASK, CVU_POLY_LO, CVU_SEQ, DPT_AUX_DATA] at h ⊢ <;> omega

/-- A plain register's offset is a word's, past the header and in the page's first quarter. -/
theorem plainReg_off {t : PType} {off : Nat} (h : plainReg t off = true) : 0x40 ≤ off ∧ off < 0x1000 ∧ off % 4 = 0 := by
  have := plainReg_cases h
  omega

section
variable {r : RegDesc} (hp : r.Plain)
include hp

/-- Every field of a plain register takes every write. -/
theorem RegDesc.plain_takenMask (armed locked al : Bool) (w : Word) : r.takenMask armed locked al w = r.storedMask := by
  unfold RegDesc.takenMask RegDesc.storedMask
  refine List.foldl_ext _ _ _ fun m f hm => ?_
  obtain ⟨ha, hl⟩ := hp.fields f hm
  cases armed <;> cases locked <;> simp [FieldDesc.takes, ha, hl, AccCode.keyed, AccCode.locked, AccCode.aliased, AccCode.stored, Legal.ok]

theorem RegDesc.plain_aliasMask : r.aliasMask = r.storedMask := by
  unfold RegDesc.aliasMask RegDesc.storedMask
  refine List.foldl_ext _ _ _ fun m f hm => ?_
  rw [(hp.fields f hm).1]
  rfl

theorem RegDesc.plain_keyed : r.keyed = false := by
  unfold RegDesc.keyed
  rw [List.any_eq_false]
  intro f hm
  rw [(hp.fields f hm).1]
  decide

end

/-- A write of a plain register has no effect beyond the register. -/
theorem RegWrite.effect_plain {x : RegWrite} (h : plainReg x.t x.off = true) (b : Bool) (d : Dev) : x.effect b d = d := by
  unfold RegWrite.effect
  obtain ⟨-, ⟨ht, ho⟩ | ⟨ht, ho⟩ | ⟨ht, ho⟩ | ⟨ht, ho⟩ | ⟨ht, ho⟩ | ⟨ht, ho⟩⟩ := plainReg_cases h <;> rw [ht] <;> dsimp only
  · exact if_neg (show x.off ≠ 0x40 by omega)
  · exact if_neg (fun hc => absurd hc.1 (show x.off ≠ 0x4C by omega))
  · exact (if_neg (show ¬ x.off < 0x0C0 by omega)).trans (if_neg (show x.off ≠ 0x1CC by omega))
  · exact (if_neg (show x.off ≠ 0x40 by omega)).trans (if_neg (show x.off ≠ 0x8C by omega))
  · exact (if_neg (show x.off ≠ 0x40 by omega)).trans ((if_neg (show x.off ≠ 0x80 by omega)).trans
      ((if_neg (show x.off ≠ 0x84 by omega)).trans (if_neg (fun hc => absurd hc.1 (show x.off ≠ 0xC0 by omega)))))
  · exact (if_neg (show x.off ≠ 0x40 by omega)).trans ((if_neg (fun hc => absurd hc.1 (show x.off ≠ 0x60 by omega))).trans
      (if_neg (fun hc => absurd hc.1 (show x.off ≠ 0x8C by omega))))

/-- A write of a plain register stores the data's bits of its fields. -/
theorem Dev.writeReg_plain {t : PType} {i off : Nat} {r : RegDesc} (h : plainReg t off = true) (hr : regDesc t i off = some r)
    (m woff : Nat) (al : Bool) (w : Word) (d : Dev) :
    d.writeReg m t i off woff al w = d.setReg t i off (w &&& r.storedMask) := by
  have hp := regDesc_plain h hr
  obtain ⟨hlo, -, -⟩ := plainReg_off h
  have hc : t ≠ .cmp := by
    rintro rfl
    simp [plainReg] at h
  have hd : anyDesc t i off = some r := by rw [anyDesc, if_neg (by omega), hr]
  have ha : d.accepts t i off w = true := by
    unfold plainReg at h
    cases t <;> simp at h <;> simp [Dev.accepts]
  have hnew (v : Word) : ((v &&& r.storedMask &&& ~~~r.storedMask) ||| (w &&& r.storedMask)) &&& r.storedMask
      = w &&& r.storedMask := by
    ext k hk
    simp
    cases r.storedMask[k] <;> simp
  unfold Dev.writeReg
  simp only [hd, RegDesc.plain_takenMask hp, RegDesc.plain_keyed hp, ha, if_true, hp.stores, if_false, Bool.false_and,
    Bool.false_eq_true, RegWrite.perform, RegWrite.store, hp.unstaged, show ¬ off < 0x040 by omega, hnew, hc, false_and, false_or]
  exact RegWrite.effect_plain (x := ⟨m, t, i, off, _, w, _, _, _⟩) h _ _

/-- Settles O8: the write reaches its register, which is plain. -/
theorem plainRegisterTakesItsFields : Obligations.PlainRegisterTakesItsFields := by
  unfold Obligations.PlainRegisterTakesItsFields
  intro m t i off r data s hi hp hr hm
  obtain ⟨-, hhi, h4⟩ := plainReg_off hp
  rw [exec_registerWrite m data s hi (by omega) h4, Dev.regWrite_eq hi hhi hm, Dev.writeReg_plain hp hr]

/-- A write with the page right at an offset of a page reaches the page. -/
theorem Dev.busWrite_page {d : Dev} {m : Nat} {t : PType} {i off : Nat} {w : Word} (hi : i < t.count) (ho : off < 0x4000)
    (h : d.mayWriteReg m t i off) : d.busWrite m (regAt t i off) w = d.writePage m t i off w := by
  obtain ⟨hresp, hright⟩ := h
  have p := regAt_page t i off ho
  have a := areaOf_page t i hi
  have hden : d.writeDenied m (regAt t i off) = false := by
    unfold Dev.writeDenied
    rw [p, a, hright]
    simp
  unfold Dev.busWrite
  rw [if_neg (by simp [hden]), if_neg (by simpa using hresp), p, a, regAt_off t i off ho]

/-- A write of a plain register at its set, clear or toggle offset. -/
theorem Dev.writePage_plain {t : PType} {i off : Nat} {r : RegDesc} (h : plainReg t off = true) (hr : regDesc t i off = some r)
    (m : Nat) (k : Fin 3) (w : Word) (d : Dev) : d.writePage m t i (off + 0x1000 * (k + 1)) w =
      d.setReg t i off (aliasValue (k + 1) (d.readPage t i off) w &&& r.storedMask) := by
  have hp := regDesc_plain h hr
  obtain ⟨hlo, hhi, -⟩ := plainReg_off h
  have hd : anyDesc t i off = some r := by rw [anyDesc, if_neg (by omega), hr]
  have hoff : (off + 0x1000 * (k + 1)) % 0x1000 = off := by omega
  have hk : (off + 0x1000 * (k + 1)) / 0x1000 = k + 1 := by omega
  have hread : d.readPage t i (off + 0x1000 * (k + 1)) = d.readPage t i off := by
    unfold Dev.readPage
    rw [hoff, Nat.mod_eq_of_lt hhi]
  unfold Dev.writePage
  simp only [hoff, hk, Nat.add_eq_zero_iff, one_ne_zero, and_false, if_false, hd, hp.acts, Bool.false_eq_true,
    Dev.writeReg_plain h hr, RegDesc.plain_aliasMask hp, BitVec.and_assoc, BitVec.and_self]

/-- Settles O13: the write reaches the set, clear or toggle offset of a plain register. -/
theorem aliasesSetClearAndToggle : Obligations.AliasesSetClearAndToggle := by
  unfold Obligations.AliasesSetClearAndToggle
  intro m t i off k r data s hi hp hr hm
  obtain ⟨hlo, hhi, h4⟩ := plainReg_off hp
  have ho : off + 0x1000 * (k + 1) < 0x4000 := by omega
  have hpage := regAt_page t i _ ho
  have h4' : regAt t i (off + 0x1000 * (k + 1)) % 4 = 0 := by unfold regAt; omega
  show execAliasWrite _ _ _ _ = _
  unfold execAliasWrite
  rw [State.dev!_next, toNat_regAt hi ho, hpage, pageOf_page t i hi, regAt_off t i _ ho, h4']
  rw [show (decide (0 = 0) && decide (0x1000 ≤ off + 0x1000 * (k + 1)) && (some (t, i)).isSome) = true by simp; omega]
  rw [Dev.when_true, Dev.busWrite_page hi ho hm, Dev.writePage_plain hp hr]
  fin_cases k <;> rfl

end Sys2Proof.Machine
end

section
/-!
PROOF of O9, O10, O11, O14, O15, O16 and O17: what a write of a staged, a denied, a key's, a guarded and a held register does.
-/
namespace Sys2Proof.Machine
set_option Elab.async false

/-! ## O9: a staged register -/

theorem Dev.stagedAt_setStagedAt_ne (w : Option Word) (d : Dev) {a b : Nat} (h : b ≠ a) :
    (d.setStagedAt a w).stagedAt b = d.stagedAt b := FMap.get_put_ne _ _ _ h

/-- The matrix registers of a canvas's page: two fields, staged, any value. -/
theorem cspDesc_matrix (c : CanvasNo) (k : Fin 6) : ∃ v : Word, regDesc .csp c (CSP_MAT + 4 * k) =
    some ⟨CSP_MAT + 4 * k, v, true, [⟨31, 16, .rs, .any⟩, ⟨15, 0, .rs, .any⟩]⟩ := by
  have key : ∀ k : Fin 6, ∃ r ∈ cspMap, (regDesc .csp 0 (CSP_MAT + 4 * k) = some r ∧ regDesc .csp 1 (CSP_MAT + 4 * k) = some r) ∧
      r = ⟨CSP_MAT + 4 * k, r.reset, true, [⟨31, 16, .rs, .any⟩, ⟨15, 0, .rs, .any⟩]⟩ := by decide
  obtain ⟨r, -, ⟨h0, h1⟩, hr⟩ := key k
  refine ⟨r.reset, ?_⟩
  rw [← hr]
  by_cases hc : c.val = 0
  · rw [hc, h0]
  · rw [← h1]
    simp [regDesc, regMap, hc]

/-- A write of a matrix register with the page right stages its word. -/
theorem Dev.regWrite_matrix {d : Dev} {m : Nat} {c : CanvasNo} {k : Fin 6} {w : Word}
    (h : d.mayWriteReg m .csp c (CSP_MAT + 4 * k)) : d.regWrite m .csp c (CSP_MAT + 4 * k) w =
      (d.setStagedAt (regAt .csp c (CSP_MAT + 4 * k)) (some w)).setDiscarded (PType.csp.page + c) false := by
  obtain ⟨v, hr⟩ := cspDesc_matrix c k
  have hoff : ¬ CSP_MAT + 4 * k.val < 0x040 := by simp only [CSP_MAT]; omega
  have hd : anyDesc .csp c (CSP_MAT + 4 * k) =
      some ⟨CSP_MAT + 4 * k, v, true, [⟨31, 16, .rs, .any⟩, ⟨15, 0, .rs, .any⟩]⟩ := by rw [anyDesc, if_neg hoff, hr]
  have hm (a l : Bool) : RegDesc.takenMask ⟨CSP_MAT + 4 * k, v, true, [⟨31, 16, .rs, .any⟩, ⟨15, 0, .rs, .any⟩]⟩ a l false w =
      0xFFFFFFFF := by
    simp [RegDesc.takenMask, FieldDesc.takes, AccCode.keyed, AccCode.locked, Legal.ok, maskOf]
  have hs : RegDesc.storedMask ⟨CSP_MAT + 4 * k, v, true, [⟨31, 16, .rs, .any⟩, ⟨15, 0, .rs, .any⟩]⟩ = 0xFFFFFFFF := rfl
  rw [Dev.regWrite_eq c.isLt (by simp only [CSP_MAT]; omega) h]
  unfold Dev.writeReg
  simp only [hd, show d.accepts .csp c (CSP_MAT + 4 * k) w = true by simp [Dev.accepts], hm, hs, if_true]
  simp [RegWrite.perform, RegWrite.store, Dev.stageWord, RegDesc.keyed, AccCode.keyed, hoff]

/-- Settles O9, by the law of a write of a matrix register. -/
theorem stagedWriteWaits : Obligations.StagedWriteWaits := by
  unfold Obligations.StagedWriteWaits
  intro m c k data s h
  have ho : CSP_MAT + 4 * k.val < 0x4000 := by simp only [CSP_MAT]; omega
  have h4 : (CSP_MAT + 4 * k.val) % 4 = 0 := by simp only [CSP_MAT]; omega
  refine ⟨_, exec_registerWrite m data s c.isLt ho h4, ?_⟩
  rw [Dev.regWrite_matrix h]
  refine ⟨?_, fun a => rfl, fun a ha => ?_, by simp [Dev.onlyChanges_iff, Dev.setDiscarded]⟩
  · simp [Dev.view, Dev.viewAt]
  · exact Dev.viewAt_congr (Dev.stagedAt_setStagedAt_ne (some (lo32 data)) s.dev ha) rfl rfl

/-! ## O10: sizes -/

/-- A write with the right is not denied. -/
theorem Dev.writeDenied_of_mayWrite {d : Dev} {m off : Nat} (h : d.mayWrite m off) : d.writeDenied m off = false := by
  obtain ⟨-, hr⟩ := h
  unfold Dev.writeDenied
  rw [hr]
  split <;> simp

theorem exec_registerWrite_word {m : Fn} {off : Offset} (data : Quad) (s : State) (h4 : off.toNat % 4 = 0) :
    exec (.registerWrite m off 4 data) s = .next ⟨s.dev.busWrite m off.toNat (lo32 data), s.pending⟩ := by
  show s.dev! (Dev.sizedWrite m off.toNat 4 data) = _
  rw [State.dev!_next, Dev.sizedWrite, if_pos ⟨rfl, h4⟩]

/-- Settles O10: `sizedWrite`'s case of two words, and its case of a narrow write that is not denied. -/
theorem accessSizes : Obligations.AccessSizes := by
  unfold Obligations.AccessSizes
  refine ⟨fun m off data s v u h4 hlt hw hv hu => ?_, fun m off size data s hsize hdb hm => ?_⟩
  · have hnext : (off + 4).toNat = off.toNat + 4 := by bv_omega
    rw [exec_registerWrite_word _ _ h4] at hv
    rw [exec_registerWrite_word _ _ (by rw [hnext]; omega)] at hu
    cases hv
    cases hu
    show s.dev! (Dev.sizedWrite m off.toNat 8 data) = _
    have hhi : lo32 (data >>> 32) = hi32 data := by
      unfold lo32 hi32
      rfl
    rw [State.dev!_next, Dev.sizedWrite, if_neg (by simp), if_pos ⟨rfl, h4⟩, if_neg hw, hnext, hhi]
  · show s.dev! (Dev.sizedWrite m off.toNat size data) = _
    have h4 : size ≠ 4 ∧ size ≠ 8 := by omega
    rw [State.dev!_next, Dev.sizedWrite, if_neg (by simp [h4.1]), if_neg (by simp [h4.2]), if_neg (by simp [hdb]),
      if_neg (by simp [Dev.writeDenied_of_mayWrite hm])]

/-! ## O11: no right -/

/-- A write of a page without the right is denied. -/
theorem Dev.regWrite_denied {d : Dev} {m : Nat} {t : PType} {i off : Nat} {w : Word} (hi : i < t.count) (ho : off < 0x4000)
    (hr : d.responds (t.page + i) = true) (h : d.offRight m (regAt t i off) ≠ 2) :
    d.regWrite m t i off w = d.deny m 3 true (regAt t i off) := by
  have hden : d.writeDenied m (regAt t i off) = true := by
    unfold Dev.writeDenied
    rw [regAt_page t i off ho, hr, areaOf_page t i hi]
    simpa using h
  unfold Dev.regWrite Dev.busWrite
  rw [if_pos hden]

/-- The fields of the record of a denied write. -/
theorem denyInfo_fields (m : Fn) : bits (place 6 0 m ||| place 9 8 3 ||| flag 12 true) 6 0 = m.val ∧
    bits (place 6 0 m ||| place 9 8 3 ||| flag 12 true) 9 8 = 3 ∧ bit (place 6 0 m ||| place 9 8 3 ||| flag 12 true) 12 = true := by
  revert m
  decide

/-- Settles O11: the write is a denial. -/
theorem writeWithoutRightIsDenied : Obligations.WriteWithoutRightIsDenied := by
  unfold Obligations.WriteWithoutRightIsDenied
  intro m t i off data s hi ho h4 hr h
  refine ⟨_, exec_registerWrite m data s hi ho h4, ?_⟩
  rw [Dev.regWrite_denied hi ho hr h]
  obtain ⟨hm, htarget, hwrite⟩ := denyInfo_fields m
  exact ⟨rfl, rfl, hm, htarget, hwrite, rfl, ⟨_, rfl, rfl, rfl⟩, by simp [Dev.onlyChanges_iff]⟩

/-! ## O14: keys -/

/-- Arms of distinct pages or masters are distinct. -/
theorem Dev.armed_setArm_ne {d : Dev} {n m k j : Nat} {b : Bool} (hm : m < 128) (hj : j < 128) (h : k ≠ n ∨ j ≠ m) :
    (d.setArm n m b).armed k j = d.armed k j := by
  rw [Dev.armed_setArm_eq, if_neg (by omega)]

/-- Settles O14, by the two cases of a key. -/
theorem keysArmPages : Obligations.KeysArmPages := by
  unfold Obligations.KeysArmPages
  intro m t i p key s hi hp hm
  have he : exec (.pageKey m p key) s = .next { s with dev := s.dev.writeKey t i m key } := by
    show s.dev! (Dev.headerWrite m p 0x00C key) = _
    rw [State.dev!_next, hp, Dev.headerWrite_key hi hm]
  refine ⟨_, he, ?_⟩
  have hm' : m.val < 128 := by omega
  by_cases hk : key = BitVec.ofNat 32 (0xCA5F0000 + pageId t i)
  · simp only [Dev.writeKey, if_pos hk, hp]
    exact ⟨by simp [hk], fun n j hj h => Dev.armed_setArm_ne hm' (by omega) h, fun a => ⟨rfl, rfl⟩, rfl, by simp [Dev.onlyChanges_iff]⟩
  · simp only [Dev.writeKey, if_neg hk, hp]
    refine ⟨?_, fun n j hj h => ?_, fun a => ⟨rfl, rfl⟩, rfl, by simp [Dev.onlyChanges_iff]⟩
    · exact (Dev.armed_setArm ..).trans (by simp [hk])
    · exact Dev.armed_setArm_ne (d := s.dev) hm' (by omega) h

/-! ## O15 and O16: guarded registers -/

/-- A one-bit field's value is its bit. -/
theorem bits_eq_bit (w : Word) (n : Nat) : bits w n n = (bit w n).toNat := by
  unfold bits bit
  rw [show n + 1 - n = 1 by omega, pow_one, BitVec.getLsbD, Nat.testBit, Nat.one_and_eq_mod_two]
  cases Nat.mod_two_eq_zero_or_one (w.toNat >>> n) with
  | inl e => simp [e]
  | inr e => simp [e]

/-- The register `LHR_CTL`. -/
def lhrCtl : RegDesc := ⟨0x040, 0x00000007, false, [⟨2, 2, .rk, .any⟩, ⟨1, 1, .rk, .any⟩, ⟨0, 0, .rk, .any⟩]⟩

theorem anyDesc_lhrCtl : anyDesc .lhr 0 LHR_CTL = some lhrCtl := by rfl

theorem lhrCtl_takenMask (armed locked : Bool) (w : Word) : lhrCtl.takenMask armed locked false w = if armed then 7 else 0 := by
  cases armed <;> simp [lhrCtl, RegDesc.takenMask, FieldDesc.takes, AccCode.keyed, AccCode.locked, Legal.ok, maskOf]

/-- A write that changes a bit of `LHR_CTL` changes a guarded field. -/
theorem lhrCtl_violates {now w : Word} (h : ∃ k : Fin 3, bit w k ≠ bit now k) : lhrCtl.violates now w = true := by
  obtain ⟨k, hk⟩ := h
  have hne (a b : Bool) (hab : a ≠ b) : a.toNat ≠ b.toNat := by cases a <;> cases b <;> simp at hab ⊢
  have hv := hne _ _ hk
  fin_cases k <;>
    simp [lhrCtl, RegDesc.violates, FieldDesc.val, AccCode.keyed, Legal.ok, bits_eq_bit] <;> simp at hv <;> tauto

/-- With an arm, a write of `LHR_CTL` takes effect and consumes the arm. -/
theorem Dev.regWrite_lhrCtl_armed {d : Dev} {m : Nat} {w : Word} (h : d.mayWriteReg m .lhr 0 LHR_CTL) (ha : d.armed 36 m = true) :
    d.regWrite m .lhr 0 LHR_CTL w = (d.setArm 36 m false).setReg .lhr 0 LHR_CTL (w &&& 7) := by
  obtain ⟨x, -, ht, hi, ho, -, -, -, -, hnew, e⟩ := Dev.regWrite_reg (w := w) (mask := 7) (by decide) (by decide) h anyDesc_lhrCtl
    (by decide) rfl (by simp [Dev.accepts]) (by rw [lhrCtl_takenMask]; simp [PType.page, ha]) (by decide) (by simp [PType.page, ha])
  have hnew' : x.new = w &&& 7 := by
    rw [hnew, show lhrCtl.storedMask = 7 from rfl]
    ext k hk
    interval_cases k <;> simp
  rw [e]
  simp [RegWrite.effect, RegWrite.store, ht, hi, ho, hnew', show lhrCtl.keyed = true from rfl, show lhrCtl.staged = false from rfl,
    show lhrCtl.storedMask = 7 from rfl, PType.page]

/-- Without an arm, a write that would change `LHR_CTL` fires key-violation and does no more. -/
theorem Dev.regWrite_lhrCtl_unarmed {d : Dev} {m : Nat} {w : Word} (h : d.mayWriteReg m .lhr 0 LHR_CTL)
    (ha : d.armed 36 m = false) (hb : ∃ k : Fin 3, bit w k ≠ bit (d.readPage .lhr 0 LHR_CTL) k) :
    d.regWrite m .lhr 0 LHR_CTL w = (d.setArm 36 m false).keyViolation .lhr 0 m LHR_CTL := by
  rw [Dev.regWrite_eq (by decide) (by decide) h]
  unfold Dev.writeReg
  simp [anyDesc_lhrCtl, show d.accepts .lhr 0 LHR_CTL w = true by simp [Dev.accepts], lhrCtl_takenMask, lhrCtl_violates hb,
    show d.keyedLegal .lhr LHR_CTL w = true by simp [Dev.keyedLegal], show lhrCtl.keyed = true from rfl, PType.page, ha]

/-- Settles O15, by the two laws of a write of `LHR_CTL`. -/
theorem keyedRegisterNeedsAnArm : Obligations.KeyedRegisterNeedsAnArm := by
  unfold Obligations.KeyedRegisterNeedsAnArm
  intro m data s h
  have he := exec_registerWrite m (off := LHR_CTL) data s (t := .lhr) (i := 0) (by decide) (by decide) (by decide)
  refine ⟨fun ha => ?_, fun ha hb => ⟨_, he, ?_⟩⟩
  · rw [he, Dev.regWrite_lhrCtl_armed h ha]
  · rw [Dev.regWrite_lhrCtl_unarmed h ha hb]
    refine ⟨fun a => ⟨rfl, rfl⟩, fun n j => ?_, rfl, by simp [Dev.onlyChanges_iff]⟩
    show (s.dev.setArm 36 m false).armed n j = _
    rw [Dev.armed_setArm_eq]
    split
    · next e =>
      rw [← ha]
      unfold Dev.armed
      rw [e]
    · rfl

/-- The register `LHR_CFG`. -/
def lhrCfg : RegDesc := ⟨0x044, 0x1010040C, false, [⟨29, 24, .rk, .range 1 63⟩, ⟨21, 16, .rk, .range 2 63⟩,
  ⟨15, 8, .rk, .range 1 255⟩, ⟨3, 0, .rk, .range 8 15⟩]⟩

theorem bits_le (w : Word) (hi lo : Nat) : bits w hi lo ≤ 2 ^ (hi + 1 - lo) - 1 :=
  Nat.le_sub_one_of_lt (Nat.mod_lt _ (by positivity))

/-- Settles O16: the mask of the write leaves out `WIN_LOG2`, whose value is reserved. -/
theorem reservedValueKeepsItsField : Obligations.ReservedValueKeepsItsField := by
  unfold Obligations.ReservedValueKeepsItsField
  intro m data s h ha hwin hf₁ hf₂ hf₃
  generalize hw : lo32 data = w at *
  have hmask (l : Bool) : lhrCfg.takenMask (s.dev.armed (PType.lhr.page + 0) m) l false w = 0x3F3FFF00 := by
    have h₁ := bits_le w 29 24
    have h₂ := bits_le w 21 16
    have h₃ := bits_le w 15 8
    simp only [Nat.reduceAdd, Nat.reduceSub, Nat.reducePow] at h₁ h₂ h₃
    simp [lhrCfg, RegDesc.takenMask, FieldDesc.takes, FieldDesc.val, AccCode.locked, Legal.ok, maskOf, PType.page, ha, hf₁, hf₂, hf₃,
      h₁, h₂, h₃, Nat.not_le.mpr hwin]
  obtain ⟨x, -, ht, hi, ho, -, -, -, -, hnew, e⟩ := Dev.regWrite_reg (w := w) (r := lhrCfg) (by decide) (by decide) h rfl
    (by decide) rfl (by simp [Dev.accepts]) (hmask _) (by decide) (by simp [PType.page, ha])
  have hnew' : x.new = (s.dev.view .lhr 0 LHR_CFG &&& 0xF) ||| (w &&& 0x3F3FFF00) := by
    rw [hnew, show lhrCfg.storedMask = 0x3F3FFF0F from rfl]
    ext k hk
    interval_cases k <;> simp
  rw [exec_registerWrite m data s (by decide) (by decide) (by decide), hw, e]
  simp [RegWrite.effect, RegWrite.store, ht, hi, ho, hnew', show lhrCfg.keyed = true from rfl, show lhrCfg.staged = false from rfl,
    show lhrCfg.storedMask = 0x3F3FFF0F from rfl, PType.page]

/-! ## O17: `HOLD` and staged words -/

/-- `HOLD` of a page other than a canvas's. -/
theorem Dev.writeHold_eq {t : PType} (ht : t ≠ .cnv) (i : Nat) (b : Bool) (d : Dev) : d.writeHold t i b =
    { d with regs := { d.regs with hold := FMap.put (fun _ => false) d.regs.hold (t.page + i) b } } := by
  simp [Dev.writeHold, ht]

/-- A page's staged words, dropped, are none. -/
theorem Dev.stagedOf_dropStaged (t : PType) (i : Nat) (d : Dev) : (d.dropStaged t i).stagedOf t i = [] := by
  simp only [Dev.stagedOf, Dev.dropStaged, List.filterMap_eq_nil_iff, List.mem_filter]
  rintro ⟨a, x⟩ ⟨-, ha⟩
  exact if_neg (by simpa using ha)

theorem Dev.stagedOf_setReg (t t' : PType) (i j off : Nat) (w : Word) (d : Dev) :
    (d.setReg t i off w).stagedOf t' j = d.stagedOf t' j := rfl

/-- What the application of a stopped unit's one staged word is: `u` holds the word in effect, and nothing else is new. -/
theorem Dev.oneApplied {d : Dev} {t : PType} {i off : Nat} {w : Word} :
    ((d.dropStaged t i).setReg t i off w).reg t i off = w ∧ ((d.dropStaged t i).setReg t i off w).stagedOf t i = [] ∧
      (∀ a, a ≠ regAt t i off → ((d.dropStaged t i).setReg t i off w).effAt a = d.effAt a) ∧
      d.onlyChanges ((d.dropStaged t i).setReg t i off w) [.regs] := by
  refine ⟨Dev.reg_setReg .., d.stagedOf_dropStaged t i, fun a ha => Dev.effAt_setEffAt_ne _ _ ha, by simp [Dev.onlyChanges_iff]⟩

/-- Settles O17: `writeHold`, and the application of a stopped unit's one word. -/
theorem stagedWordsApplyUnlessHeld : Obligations.StagedWordsApplyUnlessHeld := by
  unfold Obligations.StagedWordsApplyUnlessHeld
  refine ⟨fun m p t i b s hi hp ht hm => ?_, fun p t i off w s hi hp ho hstop hst => ?_⟩
  · have he : exec (.pageStageHold m p b) s = .next { s with dev := s.dev.writeHold t i b } := by
      show s.dev! (Dev.headerWrite m p 0x014 (flag 0 b)) = _
      rw [State.dev!_next, hp, Dev.headerWrite_hold hi hm]
    refine ⟨_, he, ?_⟩
    rw [Dev.writeHold_eq ht, hp]
    exact ⟨FMap.get_put_same .., fun n hn => FMap.get_put_ne _ _ _ hn, fun a => ⟨rfl, rfl⟩, by simp [Dev.onlyChanges_iff]⟩
  · have he : exec (.stagedApplyIdle p) s = .next { s with dev := s.dev.applyStaged t i } := by
      show execStagedApplyIdle p s = _
      unfold execStagedApplyIdle
      rw [State.dev!_next, hp, pageOf_page t i hi]
    have happ : s.dev.applyStaged t i = if s.dev.held p then s.dev else (s.dev.dropStaged t i).setReg t i off w := by
      rw [hp]
      rcases hstop with ⟨rfl, hx⟩ | ⟨rfl, hx⟩ <;> simp [Dev.applyStaged, hx, Dev.takeCsp, Dev.takeChan, hst, Dev.setRegs]
    rw [he, happ]
    split
    · rfl
    · exact ⟨_, rfl, Dev.oneApplied⟩

end Sys2Proof.Machine
end

section
/-!
PROOF of O20 to O26: the entries of a command queue on their arrival. Each command is its entry's action and the end of the turn
(`State.dev_arrival`); what an action leaves of the queue is said once for consumption (`Dev.consumeUse_queue`), settling
(`Dev.settle_queue_of`) and completion.
-/
namespace Sys2Proof.Machine
set_option Elab.async false

/-! ## Consumption -/

/-- An entry is consumed under a new group. -/
theorem Dev.consumeUse_queue (q g : Nat) (st dn : Bool) (d : Dev) :
    ∃ t c, (d.consume q g st dn).useGrp.queue q = { d.queue q with
      hadTurn := t, credit := c, buf := (d.queue q).buf.drop (4 * (d.queue q).frontLen)
      cidx := ((d.queue q).cidx + (d.queue q).frontLen) % d.qmod q
      entries := (d.queue q).entries ++ [{ grp := g, slots := (d.queue q).frontLen, started := st, done := dn }]
      arrived := d.time } := Dev.consume_queue q g st dn d

theorem Dev.consumeUse_ne {q p : Nat} (h : p ≠ q) (g : Nat) (st dn : Bool) (d : Dev) :
    (d.consume q g st dn).useGrp.queue p = d.queue p := (Dev.useGrp_queue ..).trans (Dev.consume_ne h g st dn d)

/-! ## What settling leaves of a queue -/

@[simp] theorem Dev.settle_epoch (q p : Nat) (d : Dev) : ((d.settle q).queue p).epoch = (d.queue p).epoch := by
  obtain ⟨st, r, f, b, l, pd, h⟩ := Dev.settle_queue_of q p d
  rw [h]

@[simp] theorem Dev.settle_head (q p : Nat) (d : Dev) : ((d.settle q).queue p).head = (d.queue p).head := by
  obtain ⟨st, r, f, b, l, pd, h⟩ := Dev.settle_queue_of q p d
  rw [h]

@[simp] theorem Dev.settle_cidx (q p : Nat) (d : Dev) : ((d.settle q).queue p).cidx = (d.queue p).cidx := by
  obtain ⟨st, r, f, b, l, pd, h⟩ := Dev.settle_queue_of q p d
  rw [h]

@[simp] theorem Dev.settle_txn (q p : Nat) (d : Dev) : ((d.settle q).queue p).txn = (d.queue p).txn := by
  obtain ⟨st, r, f, b, l, pd, h⟩ := Dev.settle_queue_of q p d
  rw [h]

@[simp] theorem Dev.settle_discard (q p : Nat) (d : Dev) : ((d.settle q).queue p).discard = (d.queue p).discard := by
  obtain ⟨st, r, f, b, l, pd, h⟩ := Dev.settle_queue_of q p d
  rw [h]

@[simp] theorem Dev.settle_outst (q p : Nat) (d : Dev) : ((d.settle q).queue p).outst = (d.queue p).outst := by
  obtain ⟨st, r, f, b, l, pd, h⟩ := Dev.settle_queue_of q p d
  rw [h]

@[simp] theorem Dev.settle_entries (q p : Nat) (d : Dev) : ((d.settle q).queue p).entries = (d.queue p).entries := by
  obtain ⟨st, r, f, b, l, pd, h⟩ := Dev.settle_queue_of q p d
  rw [h]

@[simp] theorem Dev.settle_pause (q p : Nat) (d : Dev) : ((d.settle q).queue p).pause = (d.queue p).pause := by
  obtain ⟨st, r, f, b, l, pd, h⟩ := Dev.settle_queue_of q p d
  rw [h]

@[simp] theorem Dev.settle_heldWords (q p : Nat) (d : Dev) : ((d.settle q).queue p).heldWords = (d.queue p).heldWords := by
  obtain ⟨st, r, f, b, l, pd, h⟩ := Dev.settle_queue_of q p d
  rw [h]

@[simp] theorem Dev.settle_arrived (q p : Nat) (d : Dev) : ((d.settle q).queue p).arrived = (d.queue p).arrived := by
  obtain ⟨st, r, f, b, l, pd, h⟩ := Dev.settle_queue_of q p d
  rw [h]

@[simp] theorem Dev.settle_note (q p : Nat) (d : Dev) : ((d.settle q).queue p).note = (d.queue p).note := by
  obtain ⟨st, r, f, b, l, pd, h⟩ := Dev.settle_queue_of q p d
  rw [h]

/-! ## O20 -/

/-- A `SCENE_BEGIN` with no transaction open changes its queue alone: it pauses it, or opens a transaction. -/
theorem Dev.beginScene_of_noTxn {d : Dev} {q : Nat} (w : Word) (h : (d.queue q).txn = none) :
    ∃ p hw di tx, d.beginScene q w =
        d.setQueue q { d.queue q with pause := p, heldWords := hw, discard := di, txn := tx } ∧
      (4 ≤ (d.queue q).outst → p = some .txn ∧ tx = none) ∧
      ((d.queue q).outst < 4 → d.minInUse q = false → p = none ∧ di = false ∧ tx = some
        { queue := some q, grp := (d.queue q).lastGrp, owner := d.owner q, epoch := (d.queue q).epoch,
          id := w.extractLsb' 16 16, slots := 1 }) := by
  unfold Dev.beginScene
  by_cases h4 : 4 ≤ (d.queue q).outst
  · rw [if_pos h4]
    refine ⟨some .txn, [w], (d.queue q).discard, none, ?_, fun _ => ⟨rfl, rfl⟩, fun hlt => absurd h4 (by omega)⟩
    rw [← h]
  · simp only [if_neg h4, h]
    cases hs : d.stagingFor q (w.extractLsb' 16 16) with
    | none =>
      refine ⟨some .stage, [w], (d.queue q).discard, none, ?_, fun hlt => absurd hlt h4, fun _ hm => ?_⟩
      · rw [← h]
      · simp [Dev.stagingFor, hm] at hs
    | some n =>
      refine ⟨none, [], false, _, rfl, fun hlt => absurd hlt h4, fun _ hm => ⟨rfl, rfl, ?_⟩⟩
      simp [Dev.stagingFor, hm] at hs
      simp [hs]

theorem Dev.minInUse_consumeUse (q g : Nat) (a b : Bool) (d : Dev) : (d.consume q g a b).useGrp.minInUse q = d.minInUse q := by
  have hq := Dev.consume_any_ne q g a b d fun e => e.2.txn.any fun t => t.lent = 0
  have hadm : (d.consume q g a b).useGrp.scene.admQ = d.scene.admQ := by simp [Dev.useGrp]
  have hfl : (d.consume q g a b).useGrp.scene.flight = d.scene.flight := by simp [Dev.useGrp]
  unfold Dev.minInUse
  rw [show (d.consume q g a b).useGrp.queues = (d.consume q g a b).queues from rfl, hq, hadm, hfl]

/-- Settles O20, by the three cases of `beginScene`. -/
theorem sceneBeginOpensOrPauses : Obligations.SceneBeginOpensOrPauses := by
  unfold Obligations.SceneBeginOpensOrPauses
  intro q s ha ht
  refine ⟨_, State.dev_arrival ha, ?_⟩
  dsimp only
  obtain ⟨tc, cc, hy⟩ := Dev.consumeUse_queue q s.dev.newGrp false false s.dev
  have hne : ∀ p, p ≠ q.val → _ = s.dev.queue p := fun p hp => Dev.consumeUse_ne hp s.dev.newGrp false false s.dev
  have hmin := Dev.minInUse_consumeUse q s.dev.newGrp false false s.dev
  have hown : (s.dev.consume q s.dev.newGrp false false).useGrp.owner q = s.dev.owner q := Dev.owner_congr (by simp [Dev.useGrp]) q
  have hmem : (s.dev.consume q s.dev.newGrp false false).useGrp.mem = s.dev.mem := by simp [Dev.useGrp]
  have hwins : (s.dev.consume q s.dev.newGrp false false).useGrp.scene.wins = s.dev.scene.wins := by simp [Dev.useGrp]
  have hsurfs : (s.dev.consume q s.dev.newGrp false false).useGrp.scene.surfs = s.dev.scene.surfs := by simp [Dev.useGrp]
  generalize (s.dev.consume q s.dev.newGrp false false).useGrp = y at *
  obtain ⟨p, hw, di, tx, hb, h4, hlt⟩ := Dev.beginScene_of_noTxn (d := y) (q := q) (wordAt (s.dev.queue q).buf 0) (by rw [hy]; exact ht)
  rw [hb]
  refine ⟨Dev.consumedFront_closeTurn ⟨by simp [hy], by simp [hy]; rfl, by simp [hy], fun k hk => ?_⟩, by simpa using hmem,
    by simpa using hwins, by simpa using hsurfs, by simp [hy], by simp [hy], fun hge => ?_, fun hl hm => ?_⟩
  · rw [Dev.settle_ne hk, Dev.queue_setQueue_ne _ _ hk, hne k hk]
  · obtain ⟨rfl, rfl⟩ := h4 (by rwa [hy])
    simp
  · obtain ⟨rfl, rfl, rfl⟩ := hlt (by rwa [hy]) (hmin.trans hm)
    have hlast : (y.queue q).lastGrp = s.dev.scene.nextGrp := by
      rw [hy]
      simp [Queue.lastGrp, Dev.newGrp]
    have hepoch : (y.queue q).epoch = (s.dev.queue q).epoch := by rw [hy]
    simp [hlast, hepoch, hown]

/-! ## O21 -/

/-- An entry that its transaction has room for joins it. -/
theorem Dev.stage_joins {d : Dev} {q : Nat} {t : Txn} (op : TxnOp) (ht : (d.queue q).txn = some t) :
    d.joins ((d.stage q t (some op)).closeTurn q) q t op := by
  unfold Dev.stage
  dsimp only
  obtain ⟨tc, cc, hy⟩ := Dev.consume_queue q t.grp false false d
  have hne : ∀ p, p ≠ q → _ = d.queue p := fun p hp => Dev.consume_ne hp t.grp false false d
  have hmem : (d.consume q t.grp false false).mem = d.mem := by simp
  have hscene : (d.consume q t.grp false false).scene = d.scene := by simp
  have hrings : (d.consume q t.grp false false).rings = d.rings := by simp
  generalize d.consume q t.grp false false = y at *
  refine ⟨by simp, by simp [hy], Dev.consumedFront_closeTurn ⟨by simp [hy], by simp [hy], by simp [hy], fun p hp => ?_⟩,
    by simpa using hmem, by simpa using hscene, by simpa using hrings⟩
  rw [Dev.settle_ne hp, Dev.queue_setQueue_ne _ _ hp, hne p hp]

/-- A scene entry inside an open transaction that has room for it is staged. -/
theorem Dev.sceneEntry_open {d : Dev} {q : Nat} {t : Txn} {op : TxnOp} (hd : (d.queue q).discard = false)
    (ht : (d.queue q).txn = some t) (he : t.exceeds op = false) : d.sceneEntry q op = d.stage q t (some op) := by
  simp [Dev.sceneEntry, hd, ht, he]

/-- Settles O21: each of the four entries is staged. -/
theorem sceneEntriesAreStaged : Obligations.SceneEntriesAreStaged := by
  unfold Obligations.SceneEntriesAreStaged
  rintro q t b s rfl ht hd
  have key {op : TxnOp} (he : t.exceeds op = false) : s.dev.joins ((s.dev.sceneEntry q op).closeTurn q) q t op := by
    rw [Dev.sceneEntry_open hd ht he]
    exact Dev.stage_joins op ht
  refine ⟨fun ha he => ⟨_, State.dev_arrival ha, key he⟩, fun ha he => ⟨_, State.dev_arrival ha, key he⟩,
    fun ha he => ⟨_, State.dev_arrival ha, key he⟩, fun v ha he hwall hx hy hbg => ⟨_, State.dev_arrival ha, ?_⟩⟩
  have hv : v = ⟨(wordAt (s.dev.queue q).buf 2).extractLsb' 0 3, wordAt (s.dev.queue q).buf 3,
      wordAt (s.dev.queue q).buf 4, (wordAt (s.dev.queue q).buf 5).extractLsb' 0 30⟩ := by
    obtain ⟨wall, x0, y0, bg⟩ := v
    simp only at hwall hx hy hbg
    subst hx hy
    congr 1
    · exact BitVec.eq_of_toNat_eq (by rw [hwall]; simp [bits])
    · exact BitVec.eq_of_toNat_eq (by rw [hbg]; simp [bits])
  subst hv
  exact key he

/-! ## O22 -/

/-- Settles O22: `commitArrives` with a transaction open. -/
theorem commitSendsTheTransaction : Obligations.CommitSendsTheTransaction := by
  unfold Obligations.CommitSendsTheTransaction
  intro q t s ha ht hd
  refine ⟨_, State.dev_arrival ha, ?_⟩
  simp only [Dev.commitArrives, hd, ht, Bool.false_eq_true, if_false]
  obtain ⟨tc, cc, hy⟩ := Dev.consume_queue q t.grp true false s.dev
  have hne : ∀ p, p ≠ q.val → _ = s.dev.queue p := fun p hp => Dev.consume_ne hp t.grp true false s.dev
  have hmem : (s.dev.consume q t.grp true false).mem = s.dev.mem := by simp
  have hscene : (s.dev.consume q t.grp true false).scene = s.dev.scene := by simp
  have hrings : (s.dev.consume q t.grp true false).rings = s.dev.rings := by simp
  generalize s.dev.consume q t.grp true false = y at *
  have hmark : (y.markStarted q t.grp).queue q =
      { y.queue q with entries := (y.queue q).entries.map fun e => if e.grp = t.grp then { e with started := true } else e } :=
    Dev.queue_setQueue ..
  have hmark' : ∀ p, p ≠ q.val → (y.markStarted q t.grp).queue p = y.queue p := fun p hp => Dev.queue_setQueue_ne _ _ hp
  have hs : (y.markStarted q t.grp).scene = y.scene ∧ (y.markStarted q t.grp).mem = y.mem ∧
      (y.markStarted q t.grp).rings = y.rings := ⟨rfl, rfl, rfl⟩
  rw [hscene, hmem, hrings] at hs
  generalize y.markStarted q t.grp = z at *
  obtain ⟨hzs, hzm, hzr⟩ := hs
  have hsent (w : Dev) (hw : w.queue q = { z.queue q with txn := none, outst := (s.dev.queue q).outst + 1 }) :
      (((w.settle q).closeTurn q).queue q).txn = none ∧
      (((w.settle q).closeTurn q).queue q).outst = (s.dev.queue q).outst + 1 ∧
      (((w.settle q).closeTurn q).queue q).head = (s.dev.queue q).head ∧
      (((w.settle q).closeTurn q).queue q).entries = (z.queue q).entries := by
    simp [hw, hmark, hy]
  obtain ⟨htxn, houtst, hhead, hentries⟩ := hsent { z.setQueue q { z.queue q with txn := none, outst := (s.dev.queue q).outst + 1 } with
    scene := { z.scene with admQ := z.scene.admQ ++ [AdmReq.txn t] } } (Dev.queue_setQueue ..)
  refine ⟨by simp [hzs], by simp [hzs], by simp [hzs], by simp [hzs], htxn, houtst, hhead, fun e he hg => ?_,
    by simp [hzm], by simp [hzr], fun p hp => ?_⟩
  · have he' : e ∈ (z.queue q).entries := hentries ▸ he
    rw [hmark] at he'
    obtain ⟨a, -, rfl⟩ := List.mem_map.mp he'
    by_cases h : a.grp = t.grp
    · simp [h]
    · simp [h] at hg
  · rw [Dev.closeTurn_queue, Dev.settle_ne hp]
    exact (Dev.queue_setQueue_ne _ _ hp).trans ((hmark' p hp).trans (hne p hp))

/-! ## O23 -/

/-- An entry has arrived: the buffer holds its slots. -/
theorem frontLen_ne_zero {x : Queue} {op : Nat} (h : entryOp x = op) (h0 : op ≠ 0) : x.frontLen ≠ 0 := by
  intro hl
  have hb : x.buf = [] := by
    unfold Queue.frontLen at hl
    split at hl
    · next e => exact List.isEmpty_iff.mp e
    · omega
  refine h0 (h.symm.trans ?_)
  unfold entryOp
  rw [hb]
  rfl

theorem entryOp_of_arrives {d : Dev} {q op : Nat} (h : d.arrives q op = true) : entryOp (d.queue q) = op := by
  simp only [Dev.arrives, Bool.and_eq_true, decide_eq_true_eq] at h
  exact h.2

/-- The head passes the one entry there is, which is complete. -/
theorem Dev.advanceHead_one {d : Dev} {q : Nat} {e : QEntry} (he : (d.queue q).entries = [e]) (hd : e.done = true)
    (hs : e.slots ≠ 0) : ((d.advanceHead q).queue q).entries = [] ∧
      ((d.advanceHead q).queue q).head = ((d.queue q).head + e.slots) % d.qmod q ∧
      (bit (d.reg .queue q CQE_HWB_LO) 0 = false → (d.advanceHead q).mem = d.mem) := by
  have hdrop : dropDone (d.queue q).entries = ([], e.slots) := by simp [he, dropDone, hd]
  unfold Dev.advanceHead
  simp only [hdrop, if_neg hs, Dev.sendAll_queue, Dev.headWriteback_queue, Dev.queue_setQueue]
  refine ⟨trivial, trivial, fun hb => ?_⟩
  rw [show (List.foldl _ _ _ : Dev).mem = _ from foldl_mem _ (by simp) _ _]
  exact Dev.headWriteback_off q _ hb

/-- An entry that is complete on arrival, with none before it, leaves the head behind it. -/
theorem Dev.consumeDone_first {d : Dev} {q : Nat} (he : (d.queue q).entries = []) (hl : (d.queue q).frontLen ≠ 0) :
    ((d.consumeDone q).queue q).entries = [] ∧
      ((d.consumeDone q).queue q).head = ((d.queue q).head + (d.queue q).frontLen) % d.qmod q ∧
      (bit (d.reg .queue q CQE_HWB_LO) 0 = false → (d.consumeDone q).mem = d.mem) := by
  obtain ⟨tc, cc, hy⟩ := Dev.consumeUse_queue q d.newGrp true true d
  have hregs : (d.consume q d.newGrp true true).useGrp.regs = d.regs := by simp [Dev.useGrp]
  have hmem : (d.consume q d.newGrp true true).useGrp.mem = d.mem := by simp [Dev.useGrp]
  unfold Dev.consumeDone
  generalize (d.consume q d.newGrp true true).useGrp = y at *
  have hone : (y.queue q).entries = [{ grp := d.newGrp, slots := (d.queue q).frontLen, started := true, done := true }] := by
    rw [hy, he]
    rfl
  obtain ⟨hent, hhead, hmem'⟩ := Dev.advanceHead_one hone rfl hl
  refine ⟨by rw [Dev.settle_entries, hent], ?_, fun hb => ?_⟩
  · rw [Dev.settle_head, hhead, hy, Dev.qmod_congr hregs]
  · rw [← hmem, ← hmem' (by rwa [Dev.reg_congr hregs])]
    simp

theorem Dev.consumeDone_admQ (q : Nat) (d : Dev) : (d.consumeDone q).scene.admQ = d.scene.admQ := by
  simp [Dev.consumeDone, Dev.useGrp]

/-- What O23 says of the queue and memory after a `NOTE` or `NOP` that leaves `v` in `CQE_NOTE`. -/
def Dev.passes (x y : Dev) (q : Nat) (v : BitVec 16) : Prop :=
  (y.queue q).note = v ∧ (y.queue q).entries = [] ∧
    (y.queue q).head = ((x.queue q).head + (x.queue q).frontLen) % x.qmod q ∧
    (y.queue q).cidx = ((x.queue q).cidx + (x.queue q).frontLen) % x.qmod q ∧
    (y.queue q).txn = none ∧ y.scene.admQ = x.scene.admQ ∧ (∀ p, p ≠ q → y.queue p = x.queue p) ∧
    (bit (x.reg .queue q CQE_HWB_LO) 0 = false → y.mem = x.mem) ∧
    ∀ k, outside k (x.hwbAddr q) 4 → y.memByte k = x.memByte k

theorem Dev.consumeDone_passes {d : Dev} {q : Nat} (ht : (d.queue q).txn = none) (he : (d.queue q).entries = [])
    (hl : (d.queue q).frontLen ≠ 0) : d.passes ((d.consumeDone q).closeTurn q) q (d.queue q).note := by
  obtain ⟨⟨hcidx, hnote, htxn, -⟩, hne, hmem⟩ := Dev.consumeDone_spec q d
  obtain ⟨hent, hhead, hoff⟩ := Dev.consumeDone_first he hl
  unfold Dev.passes
  simp only [Dev.closeTurn_queue, Dev.closeTurn_memByte, Dev.closeTurn_frame]
  exact ⟨hnote, hent, hhead, hcidx, htxn.trans ht, d.consumeDone_admQ q, hne, hoff, hmem⟩

/-- Settles O23: a `NOTE` is a `NOP` after its `TAG` is copied. -/
theorem notesAndNopsCompleteOnArrival : Obligations.NotesAndNopsCompleteOnArrival := by
  unfold Obligations.NotesAndNopsCompleteOnArrival
  intro q s hd ht he hl c v hc
  rcases hc with ⟨rfl, ha, rfl⟩ | ⟨rfl, ha, rfl⟩
  · refine ⟨_, State.dev_arrival ha, ?_⟩
    have hnote : s.dev.noteArrives q = (s.dev.setQueue q { s.dev.queue q with
        note := (wordAt (s.dev.queue q).buf 0).extractLsb' 16 16 }).consumeDone q := by
      simp [Dev.noteArrives, hd, Dev.plainArrives, ht]
    rw [hnote]
    generalize (wordAt (s.dev.queue q).buf 0).extractLsb' 16 16 = v
    have hq : (s.dev.setQueue q { s.dev.queue q with note := v }).queue q = { s.dev.queue q with note := v } :=
      Dev.queue_setQueue ..
    have hne : ∀ p, p ≠ q.val → (s.dev.setQueue q { s.dev.queue q with note := v }).queue p = s.dev.queue p :=
      fun p hp => Dev.queue_setQueue_ne _ _ hp
    have hregs : (s.dev.setQueue q { s.dev.queue q with note := v }).regs = s.dev.regs := rfl
    have hmem : (s.dev.setQueue q { s.dev.queue q with note := v }).mem = s.dev.mem := rfl
    have hscene : (s.dev.setQueue q { s.dev.queue q with note := v }).scene = s.dev.scene := rfl
    generalize s.dev.setQueue q { s.dev.queue q with note := v } = y at *
    have hfront : (y.queue q).frontLen = (s.dev.queue q).frontLen := by rw [hq]; rfl
    have hnote' : (y.queue q).note = v := by rw [hq]
    have hhead : (y.queue q).head = (s.dev.queue q).head := by rw [hq]
    have hcidx : (y.queue q).cidx = (s.dev.queue q).cidx := by rw [hq]
    have h := Dev.consumeDone_passes (d := y) (q := q) (by rw [hq]; exact ht) (by rw [hq]; exact he) (by rwa [hfront])
    unfold Dev.passes at h
    rw [hfront, hscene, hmem, Dev.qmod_congr hregs, Dev.reg_congr hregs, Dev.hwbAddr_congr hregs] at h
    simp only [Dev.memByte_congr hmem, hnote', hhead, hcidx] at h
    obtain ⟨h₁, h₂, h₃, h₄, h₅, h₆, h₇, h₈, h₉⟩ := h
    dsimp only
    exact ⟨h₁, h₂, h₃, h₄, h₅, h₆, fun p hp => (h₇ p hp).trans (hne p hp), h₈, h₉⟩
  · refine ⟨_, State.dev_arrival ha, ?_⟩
    have hnop : s.dev.nopArrives q = s.dev.consumeDone q := by
      simp only [Dev.nopArrives, hd, Bool.false_eq_true, if_false, Dev.plainArrives, ht]
    have h := Dev.consumeDone_passes ht he hl
    unfold Dev.passes at h
    rw [hnop]
    dsimp only
    exact h

/-! ## O24 -/

/-- Settles O24: the entry is refused on its own. -/
theorem reservedOpcodeIsRefused : Obligations.ReservedOpcodeIsRefused := by
  unfold Obligations.ReservedOpcodeIsRefused
  intro q s ha hd ht
  refine ⟨_, State.dev_arrival ha, ?_⟩
  rw [Dev.outsideOnly_alone hd ht]
  obtain ⟨⟨hcidx, hnote, htxn, -⟩, hpost, hne, hmem⟩ := Dev.refuseAlone_spec q 0x03 0 0 s.dev
  simp only [Dev.closeTurn_queue, Dev.closeTurn_memByte]
  exact ⟨hcidx, hnote, htxn.trans ht, Dev.posted_congr hpost (by simp), hne, hmem⟩

/-! ## O25 -/

/-- The end of a wait completes its entry. -/
theorem Dev.endWait_spec (q : Nat) (w : Wait) (d : Dev) : ((d.endWait q w).queue q).pause = none ∧
    (∀ e ∈ ((d.endWait q w).queue q).entries, e.grp = w.grp → e.done = true) ∧
    (∀ p, p ≠ q → (d.endWait q w).queue p = d.queue p) ∧ (d.endWait q w).rings = d.rings ∧
    ∀ k, outside k (d.hwbAddr q) 4 → (d.endWait q w).memByte k = d.memByte k := by
  unfold Dev.endWait
  dsimp only
  obtain ⟨es, hd, hq⟩ := Dev.completeGrp_queue q w.grp (d.setQueue q { d.queue q with pause := none })
  refine ⟨?_, ?_, fun p hp => ?_, by simp, fun k hk => ?_⟩
  · rw [Dev.settle_pause, hq, Dev.queue_setQueue]
  · rw [Dev.settle_entries]
    exact Dev.completeGrp_done q w.grp _
  · rw [Dev.settle_ne hp, Dev.completeGrp_ne hp, Dev.queue_setQueue_ne _ _ hp]
  · rw [show ∀ d : Dev, (d.settle q).memByte k = d.memByte k from fun d => Dev.memByte_congr (by simp) k]
    exact Dev.completeGrp_outside q w.grp _ k hk

/-- The refusal of a held entry. -/
theorem Dev.refuseHeld_spec (q r kd ix : Nat) (d : Dev) : ((d.refuseHeld q r kd ix).queue q).pause = none ∧
    d.posted (d.refuseHeld q r kd ix) (d.owner q) ∧ (∀ p, p ≠ q → (d.refuseHeld q r kd ix).queue p = d.queue p) ∧
    ∀ k, outside k (d.noticeAddr (d.owner q)) 32 → outside k (d.hwbAddr q) 4 →
      (d.refuseHeld q r kd ix).memByte k = d.memByte k := by
  unfold Dev.refuseHeld
  dsimp only
  generalize ({ d.arrivalRefusal q 0 r 0 kd ix with tb := (d.queue q).arrived } : Notice) = n
  have hy : (d.setQueue q { d.queue q with pause := none, heldWords := [] }).queue q =
      { d.queue q with pause := none, heldWords := [] } := Dev.queue_setQueue ..
  have hne : ∀ p, p ≠ q → (d.setQueue q { d.queue q with pause := none, heldWords := [] }).queue p = d.queue p :=
    fun p hp => Dev.queue_setQueue_ne _ _ hp
  have hregs : (d.setQueue q { d.queue q with pause := none, heldWords := [] }).regs = d.regs := rfl
  have hrings : (d.setQueue q { d.queue q with pause := none, heldWords := [] }).rings = d.rings := rfl
  have hmem : (d.setQueue q { d.queue q with pause := none, heldWords := [] }).mem = d.mem := rfl
  generalize d.setQueue q { d.queue q with pause := none, heldWords := [] } = y at *
  refine ⟨?_, ?_, fun p hp => ?_, fun k hn hh => ?_⟩
  · obtain ⟨es, hd, hq⟩ := Dev.completeGrp_queue q (d.queue q).lastGrp (y.post (d.owner q) n)
    rw [Dev.settle_pause, Dev.noticeThen_queue, hq, Dev.post_queue, hy]
  · have hp : y.posted (y.noticeThen (d.owner q) n (Dev.completeGrp q (d.queue q).lastGrp)) (d.owner q) :=
      Dev.noticeThen_posted fun x => by simp
    exact Dev.posted_congr (Dev.posted_of_congr hp hrings hregs) (by simp)
  · rw [Dev.settle_ne hp, Dev.noticeThen_queue, Dev.completeGrp_ne hp, Dev.post_queue, hne p hp]
  · rw [show ∀ d : Dev, (d.settle q).memByte k = d.memByte k from fun d => Dev.memByte_congr (by simp) k,
      Dev.noticeThen_outside, Dev.memByte_congr hmem]
    · intro x hx
      exact Dev.completeGrp_outside q _ x k (by rwa [Dev.hwbAddr_congr (hx.trans hregs)])
    · rwa [Dev.noticeAddr_congr hregs hrings]

/-- A wait that is not met pauses its queue. -/
theorem Dev.beginWait_pauses {d : Dev} {q : Nat} (h5 : (d.waitAsked q).event < 5) (hm : d.levelMet (d.waitAsked q) = false) :
    ((d.beginWait q).queue q).pause = some (.wait (d.waitAsked q)) ∧ (d.beginWait q).mem = d.mem ∧
      (d.beginWait q).rings = d.rings ∧ d.consumedFront (d.beginWait q) q d.scene.nextGrp false := by
  have hb : d.beginWait q = (((d.consume q d.newGrp false false).useGrp).setQueue q
      { ((d.consume q d.newGrp false false).useGrp).queue q with pause := some (.wait (d.waitAsked q)) }).settle q := by
    unfold Dev.beginWait
    exact (if_neg (Nat.not_le.mpr h5)).trans (if_neg (show ¬ d.levelMet (d.waitAsked q) = true by simp [hm]))
  rw [hb]
  obtain ⟨tc, cc, hy⟩ := Dev.consumeUse_queue q d.newGrp false false d
  have hne : ∀ p, p ≠ q → _ = d.queue p := fun p hp => Dev.consumeUse_ne hp d.newGrp false false d
  have hmem : (d.consume q d.newGrp false false).useGrp.mem = d.mem := by simp [Dev.useGrp]
  have hrings : (d.consume q d.newGrp false false).useGrp.rings = d.rings := by simp [Dev.useGrp]
  generalize (d.consume q d.newGrp false false).useGrp = y at *
  refine ⟨by simp, by simpa using hmem, by simpa using hrings, by simp [hy], by simp [hy, Dev.newGrp], by simp [hy], fun p hp => ?_⟩
  rw [Dev.settle_ne hp, Dev.queue_setQueue_ne _ _ hp, hne p hp]

theorem Dev.beginWait_refused {d : Dev} {q : Nat} (h5 : 5 ≤ (d.waitAsked q).event) : d.beginWait q = d.refuseAlone q 0x06 0 0 := by
  unfold Dev.beginWait
  exact if_pos h5

theorem Dev.beginWait_met {d : Dev} {q : Nat} (h5 : (d.waitAsked q).event < 5) (hm : d.levelMet (d.waitAsked q) = true) :
    d.beginWait q = d.consumeDone q := by
  unfold Dev.beginWait
  exact (if_neg (Nat.not_le.mpr h5)).trans (if_pos hm)

/-- The first part of O25: the arrival of a `WAIT_EVENT`. -/
theorem waitEvent_arrives {q : QueueNo} {s : State} (ha : s.dev.arrives q 0x12 = true) (hd : (s.dev.queue q).discard = false)
    (ht : (s.dev.queue q).txn = none) :
    ∃ u, exec (.waitEvent q) s = .next u ∧ (∀ p, p ≠ q.val → u.dev.queue p = s.dev.queue p) ∧
      (u.dev.queue q).cidx = ((s.dev.queue q).cidx + (s.dev.queue q).frontLen) % s.dev.qmod q ∧
      (if 5 ≤ (s.dev.waitAsked q).event then
        (u.dev.queue q).pause = (s.dev.queue q).pause ∧ s.dev.posted u.dev (s.dev.owner q)
       else if s.dev.levelMet (s.dev.waitAsked q) then
        (u.dev.queue q).pause = (s.dev.queue q).pause ∧ u.dev.rings = s.dev.rings ∧
        ((s.dev.queue q).entries = [] → (u.dev.queue q).entries = [] ∧
          (u.dev.queue q).head = ((s.dev.queue q).head + (s.dev.queue q).frontLen) % s.dev.qmod q)
       else (u.dev.queue q).pause = some (.wait (s.dev.waitAsked q)) ∧ u.dev.mem = s.dev.mem ∧
         u.dev.rings = s.dev.rings ∧ s.dev.consumedFront u.dev q s.dev.scene.nextGrp false) := by
  refine ⟨_, State.dev_arrival ha, ?_⟩
  rw [Dev.outsideOnly_alone hd ht]
  simp only [Dev.closeTurn_queue]
  by_cases h5 : 5 ≤ (s.dev.waitAsked q).event
  · rw [if_pos h5, Dev.beginWait_refused h5]
    obtain ⟨⟨hcidx, -, -, hpause⟩, hpost, hne, -⟩ := Dev.refuseAlone_spec q 0x06 0 0 s.dev
    exact ⟨hne, hcidx, hpause, Dev.posted_congr hpost (by simp)⟩
  · rw [if_neg h5]
    cases hm : s.dev.levelMet (s.dev.waitAsked q) with
    | true =>
      rw [if_pos rfl, Dev.beginWait_met (Nat.not_le.mp h5) hm]
      obtain ⟨⟨hcidx, -, -, hpause⟩, hne, -⟩ := Dev.consumeDone_spec q s.dev
      refine ⟨hne, hcidx, hpause, by simp [Dev.consumeDone, Dev.useGrp], fun he => ?_⟩
      obtain ⟨hent, hhead, -⟩ := Dev.consumeDone_first he (frontLen_ne_zero (entryOp_of_arrives ha) (by decide))
      exact ⟨hent, hhead⟩
    | false =>
      rw [if_neg (by simp)]
      obtain ⟨hpause, hmem, hrings, hfront⟩ := Dev.beginWait_pauses (Nat.not_le.mp h5) hm
      exact ⟨hfront.2.2.2, hfront.1, hpause, by simpa using hmem, by simpa using hrings, Dev.consumedFront_closeTurn hfront⟩

/-- A wait for the timebase that is not over goes on. -/
theorem exec_waitTimebaseReached {q : QueueNo} {s : State} {w : Wait} (hw : (s.dev.queue q).pause = some (.wait w)) :
    exec (.waitTimebaseReached q) s =
      .next ⟨if w.event = 3 ∧ w.time.toNat ≤ s.dev.time.toNat then s.dev.endWait q w else s.dev, s.pending⟩ := by
  have hlevel (h : w.event = 3) : s.dev.levelMet w = decide (w.time.toNat ≤ s.dev.time.toNat) := by simp [Dev.levelMet, h]
  show execWaitTimebaseReached q s = _
  rw [execWaitTimebaseReached, State.dev!_next, hw]
  by_cases h3 : w.event = 3
  · simp [h3, hlevel h3, Dev.when]
  · simp [h3]

/-- A wait that has timed out ends, or is refused; one that has not goes on. -/
theorem exec_waitTimeout {q : QueueNo} {s : State} {w : Wait} (hw : (s.dev.queue q).pause = some (.wait w)) :
    exec (.waitTimeout q) s = .next ⟨if w.timeoutUs ≠ 0 ∧ w.since + 1000 * w.timeoutUs ≤ s.dev.now then
      if s.dev.levelMet w then s.dev.endWait q w else s.dev.refuseHeld q 0x22 0 0 else s.dev, s.pending⟩ := by
  show execWaitTimeout q s = _
  rw [execWaitTimeout, State.dev!_next, hw]
  simp [Dev.when]

/-- Settles O25: the arrival, and the two ends of a wait. -/
theorem waitsBeginAndEnd : Obligations.WaitsBeginAndEnd := by
  unfold Obligations.WaitsBeginAndEnd
  refine fun q s => ⟨waitEvent_arrives, fun w hw => ⟨?_, ?_⟩⟩
  · rw [exec_waitTimebaseReached hw]
    by_cases hc : w.event = 3 ∧ w.time.toNat ≤ s.dev.time.toNat
    · obtain ⟨hpause, hdone, hne, -, hmem⟩ := Dev.endWait_spec q w s.dev
      simp only [if_pos hc]
      refine ⟨_, rfl, ?_⟩
      dsimp only
      exact ⟨hpause, hdone, hne, hmem⟩
    · simp only [if_neg hc]
  · rw [exec_waitTimeout hw]
    by_cases hc : w.timeoutUs ≠ 0 ∧ w.since + 1000 * w.timeoutUs ≤ s.dev.now
    · simp only [if_pos hc]
      refine ⟨_, rfl, ?_⟩
      by_cases hm : s.dev.levelMet w = true
      · simp only [if_pos hm]
        obtain ⟨hpause, hdone, hne, hrings, hmem⟩ := Dev.endWait_spec q w s.dev
        exact ⟨hpause, ⟨hrings, hdone, hmem⟩, hne⟩
      · simp only [if_neg hm]
        obtain ⟨hpause, hpost, hne, hmem⟩ := Dev.refuseHeld_spec q 0x22 0 0 s.dev
        exact ⟨hpause, ⟨hpost, hmem⟩, hne⟩
    · simp only [if_neg hc]

end Sys2Proof.Machine
end

section
/-!
PROOF of O26: a `DMA_KICK` and a `CRC_SCAN`, by the state of the unit they name.
-/
namespace Sys2Proof.Machine
set_option Elab.async false

/-! ## `DMA_KICK` -/

/-- A job that a queue's entry starts. -/
theorem Dev.startJob_queued (ch q g mid : Nat) (a : Quad) (d : Dev) : let x := (d.startJob ch (.queued q g mid a)).chan ch
    x.state = .running ∧ x.step = .fetch ∧ x.bytes = 0 ∧ x.addr = a &&& 0xFFFFFFFFFFFFFFC0 ∧
      x.job = some { mid := mid, entry := some (q, g) } := by
  simp [Dev.startJob]

theorem Dev.beginKick_idle {d : Dev} {q ch : Nat} (hch : kickChan (d.queue q).buf = ch)
    (hr : d.right (d.owner q) (PType.chan.page + ch) = 2) (hs : (d.chan ch).state = .idle) : d.beginKick q =
      ((d.consume q d.newGrp true false).useGrp.startJob ch (kickStart q d.newGrp (d.owner q) (d.queue q).buf)).settle q := by
  simp [Dev.beginKick, hch, hr, hs]

theorem Dev.beginKick_running {d : Dev} {q ch : Nat} (hch : kickChan (d.queue q).buf = ch)
    (hr : d.right (d.owner q) (PType.chan.page + ch) = 2) (hs : (d.chan ch).state = .running) : d.beginKick q = d.holdForUnit q := by
  simp [Dev.beginKick, hch, hr, hs]

theorem Dev.beginKick_refused {d : Dev} {q ch : Nat} (hch : kickChan (d.queue q).buf = ch)
    (hr : d.right (d.owner q) (PType.chan.page + ch) = 2) (hi : (d.chan ch).state ≠ .idle) (hn : (d.chan ch).state ≠ .running) :
    d.beginKick q = d.refuseAlone q 0x21 4 ch := by
  unfold Dev.beginKick
  simp only [hch, hr]
  cases hs : (d.chan ch).state <;> simp_all

/-- A kick of an idle channel starts it. -/
theorem Dev.beginKick_starts {d : Dev} {q ch : Nat} (hch : kickChan (d.queue q).buf = ch)
    (hr : d.right (d.owner q) (PType.chan.page + ch) = 2) (hs : (d.chan ch).state = .idle) :
    (∀ x, x ≠ ch → (d.beginKick q).chan x = d.chan x) ∧ d.consumedFront (d.beginKick q) q d.scene.nextGrp true ∧
      (d.beginKick q).mem = d.mem ∧ (d.beginKick q).rings = d.rings ∧
      ((d.beginKick q).chan ch).state = .running ∧ ((d.beginKick q).chan ch).step = .fetch ∧ ((d.beginKick q).chan ch).bytes = 0 ∧
      ((d.beginKick q).chan ch).addr = quad (wordAt (d.queue q).buf 2) (wordAt (d.queue q).buf 3) &&& 0xFFFFFFFFFFFFFFC0 ∧
      ((d.beginKick q).chan ch).job = some { mid := d.owner q, entry := some (q, d.scene.nextGrp) } := by
  have hchan (y : Dev) (k : Nat) : (y.settle q).chan k = y.chan k := Dev.chan_congr (by simp) k
  have hcons : (d.consume q d.newGrp true false).useGrp.chans = d.chans := by simp [Dev.useGrp]
  rw [Dev.beginKick_idle hch hr hs]
  obtain ⟨h₁, h₂, h₃, h₄, h₅⟩ := Dev.startJob_queued ch q d.newGrp (d.owner q)
    (quad (wordAt (d.queue q).buf 2) (wordAt (d.queue q).buf 3)) (d.consume q d.newGrp true false).useGrp
  refine ⟨fun x hx => ?_, Dev.consume_then_spec q d _ fun y => by simp, by simp [Dev.useGrp], by simp [Dev.useGrp], ?_⟩
  · rw [hchan, Dev.startJob_ne hx, Dev.chan_congr hcons]
  · rw [hchan]
    exact ⟨h₁, h₂, h₃, h₄, h₅⟩

/-! ## `CRC_SCAN` -/

theorem Dev.startScan_self (e : Nat) (r : ScanReq) (d : Dev) : ((d.startScan e r).engine e).state = .running ∧
    ((d.startScan e r).engine e).scan.addr = r.addr ∧ ((d.startScan e r).engine e).scan.left = r.len ∧
    ((d.startScan e r).engine e).scan.entry = r.entry := by
  simp [Dev.startScan]

theorem Dev.startScan_ne {e k : Nat} (h : k ≠ e) (r : ScanReq) (d : Dev) : (d.startScan e r).engine k = d.engine k :=
  Dev.engine_setEngine_ne _ _ h

/-- What a `CRC_SCAN` that may start asks for. -/
def Dev.scanAsked (d : Dev) (q : Nat) : ScanReq := scanReq (d.owner q) (d.queue q).buf (some (q, d.newGrp))

section
variable {d : Dev} {q e : Nat} (he : scanEngine (d.queue q).buf = e) (hr : d.right (d.owner q) (PType.cvu.page + e) = 2)
  (hl : (d.scanAsked q).len ≠ 0)
include he hr hl

theorem Dev.beginScan_eq : d.beginScan q = match (d.engine e).state with
    | .idle =>
      if d.startOk e (d.scanAsked q).addr.toNat (d.scanAsked q).len then
        ((d.consume q d.newGrp true false).useGrp.startScan e (d.scanAsked q)).settle q
      else d.refuseAlone q 0x06 5 e
    | .running => d.holdForUnit q
    | .off | .fenced | .draining => d.refuseAlone q 0x21 5 e := by
  unfold Dev.scanAsked at hl ⊢
  unfold Dev.beginScan
  simp only [he, hr, hl, if_false]
  rfl

/-- A scan of an idle engine that may start it starts it. -/
theorem Dev.beginScan_starts (hs : (d.engine e).state = .idle)
    (hok : d.startOk e (d.scanAsked q).addr.toNat (d.scanAsked q).len = true) :
    d.consumedFront (d.beginScan q) q d.scene.nextGrp true ∧ (d.beginScan q).mem = d.mem ∧ (d.beginScan q).rings = d.rings ∧
      ((d.beginScan q).engine e).state = .running ∧ ((d.beginScan q).engine e).scan.addr = (d.scanAsked q).addr ∧
      ((d.beginScan q).engine e).scan.left = (d.scanAsked q).len ∧
      ((d.beginScan q).engine e).scan.entry = (d.scanAsked q).entry := by
  have heng (y : Dev) (k : Nat) : (y.settle q).engine k = y.engine k := Dev.engine_congr (by simp) k
  have hb : d.beginScan q = ((d.consume q d.newGrp true false).useGrp.startScan e (d.scanAsked q)).settle q := by
    rw [Dev.beginScan_eq he hr hl, hs]
    exact if_pos hok
  rw [hb]
  refine ⟨Dev.consume_then_spec q d _ fun y => by simp, by simp [Dev.useGrp], by simp [Dev.useGrp], ?_⟩
  rw [heng]
  exact Dev.startScan_self e _ _

/-- A scan leaves the other engines. -/
theorem Dev.beginScan_ne {x : Nat} (hx : x ≠ e) : (d.beginScan q).engine x = d.engine x := by
  have heng (y : Dev) (k : Nat) : (y.settle q).engine k = y.engine k := Dev.engine_congr (by simp) k
  have hcons : (d.consume q d.newGrp true false).useGrp.engines = d.engines := by simp [Dev.useGrp]
  rw [Dev.beginScan_eq he hr hl]
  split
  · split
    · rw [heng, Dev.startScan_ne hx, Dev.engine_congr hcons]
    · exact Dev.engine_congr (by simp) x
  · exact Dev.engine_congr (by simp) x
  all_goals exact Dev.engine_congr (by simp) x

end

/-- Settles O26, by the state of the unit. -/
theorem unitEntriesStartOrWait : Obligations.UnitEntriesStartOrWait := by
  unfold Obligations.UnitEntriesStartOrWait
  rintro q b s rfl hd ht
  have hmemHold : (s.dev.holdForUnit q).mem = s.dev.mem := by simp
  obtain ⟨hfront, hpause⟩ := Dev.holdForUnit_spec q s.dev
  refine ⟨fun ch ha hch hr => ?_, fun e ha he hr hl => ?_⟩
  · refine ⟨_, State.dev_arrival ha, ?_⟩
    rw [Dev.outsideOnly_alone hd ht]
    have hturn (y : Dev) (k : Nat) : (y.closeTurn q).chan k = y.chan k := Dev.chan_congr (by simp) k
    simp only [hturn, Dev.closeTurn_queue, Dev.closeTurn_frame]
    have hhold (k : Nat) : (s.dev.holdForUnit q).chan k = s.dev.chan k := Dev.chan_congr (by simp) k
    have href (k : Nat) : (s.dev.refuseAlone q 0x21 4 ch).chan k = s.dev.chan k := Dev.chan_congr (by simp) k
    by_cases hi : (s.dev.chan ch).state = .idle
    · obtain ⟨hne, hc, hmem, hrings, h₁, h₂, h₃, h₄, h₅⟩ := Dev.beginKick_starts hch hr hi
      exact ⟨hne, fun _ => ⟨Dev.consumedFront_closeTurn hc, hmem, hrings, h₁, h₂, h₃, h₄, h₅⟩,
        fun h => absurd (hi.symm.trans h) (by decide), fun h => absurd hi h⟩
    by_cases hn : (s.dev.chan ch).state = .running
    · rw [Dev.beginKick_running hch hr hn]
      exact ⟨fun x _ => hhold x, fun h => absurd h hi, fun _ => ⟨Dev.consumedFront_closeTurn hfront, hpause, hhold ch, hmemHold⟩,
        fun _ h => absurd hn h⟩
    · rw [Dev.beginKick_refused hch hr hi hn]
      obtain ⟨-, hpost, -, -⟩ := Dev.refuseAlone_spec q 0x21 4 ch s.dev
      exact ⟨fun x _ => href x, fun h => absurd h hi, fun h => absurd h hn,
        fun _ _ => ⟨Dev.posted_congr hpost (by simp), href ch⟩⟩
  · refine ⟨_, State.dev_arrival ha, ?_⟩
    rw [Dev.outsideOnly_alone hd ht]
    have hturn (y : Dev) (k : Nat) : (y.closeTurn q).engine k = y.engine k := Dev.engine_congr (by simp) k
    simp only [hturn, Dev.closeTurn_queue, Dev.closeTurn_frame]
    have hhold : (s.dev.holdForUnit q).engine e = s.dev.engine e := Dev.engine_congr (by simp) e
    refine ⟨fun x hx => Dev.beginScan_ne he hr hl hx, fun hi hok => ?_, fun hn => ?_⟩
    · obtain ⟨hc, hmem, hrings, h₁, h₂, h₃, h₄⟩ := Dev.beginScan_starts he hr hl hi hok
      exact ⟨Dev.consumedFront_closeTurn hc, hmem, hrings, h₁, h₂, h₃, h₄⟩
    · rw [Dev.beginScan_eq he hr hl, hn]
      exact ⟨Dev.consumedFront_closeTurn hfront, hpause, hhold, hmemHold⟩

end Sys2Proof.Machine
end

section
/-!
PROOF of O27 to O30: doorbells, ring reads, arbitration rounds, the life of a queue, and notice rings.
-/
namespace Sys2Proof.Machine
set_option Elab.async false

/-! ## O27: doorbells -/

theorem Dev.snapshot_taken {d : Dev} {q : Nat} : ((d.snapshot q).queue q).dbPend = false ∧
    ((d.snapshot q).queue q).buf = (d.queue q).buf ∧ ((d.snapshot q).queue q).head = (d.queue q).head ∧
    (if d.pidxBad q then ((d.snapshot q).queue q).limit = (d.queue q).limit ∧
      ∃ f, (d.snapshot q).flt.arrivals = d.flt.arrivals ++ [f] ∧ f.src = 257 ∧ f.inst = q
     else ((d.snapshot q).queue q).limit = d.pidx q) := by
  unfold Dev.snapshot
  dsimp only
  by_cases hb : d.pidxBad q = true
  · simp only [if_pos hb, Dev.fire_queue, Dev.queue_setQueue]
    exact ⟨trivial, trivial, trivial, trivial, _, rfl, rfl, rfl⟩
  · obtain ⟨r, hr⟩ := Dev.startRead_queue q (d.setQueue q { d.queue q with dbPend := false, limit := d.pidx q })
    rw [Dev.queue_setQueue] at hr
    simp only [if_neg hb, hr]
    exact ⟨trivial, trivial, trivial, trivial⟩

/-- The first part of O27. -/
theorem doorbell_spec {q : QueueNo} {s : State} {m : Fn} (h : s.dev.mayWriteReg m .queue q CQE_DB) :
    ((s.dev.queue q).state ≠ .running → exec (.doorbell m q) s = .next s) ∧
    ((s.dev.queue q).state = .running →
      ∃ u, exec (.doorbell m q) s = .next u ∧ (∀ p, p ≠ q.val → u.dev.queue p = s.dev.queue p) ∧
        (u.dev.queue q).buf = (s.dev.queue q).buf ∧ (u.dev.queue q).head = (s.dev.queue q).head ∧
        (s.dev.scanning q = true → (u.dev.queue q).dbPend = true ∧ (u.dev.queue q).limit = (s.dev.queue q).limit) ∧
        (s.dev.scanning q = false → (u.dev.queue q).dbPend = false ∧
          (if s.dev.pidxBad q then (u.dev.queue q).limit = (s.dev.queue q).limit ∧
            ∃ f, u.dev.flt.arrivals = s.dev.flt.arrivals ++ [f] ∧ f.src = 257 ∧ f.inst = q.val
           else (u.dev.queue q).limit = s.dev.pidx q))) := by
  have he : exec (.doorbell m q) s = .next ⟨s.dev.doorbell q, s.pending⟩ := by
    show s.dev! (Dev.regWrite m .queue q CQE_DB 0) = _
    rw [State.dev!_next, Dev.regWrite_doorbell h]
  rw [he]
  refine ⟨fun hs => by rw [Dev.doorbell, if_pos hs], fun hs => ⟨_, rfl, ?_⟩⟩
  dsimp only
  unfold Dev.doorbell
  dsimp only
  rw [if_neg (by simp [hs])]
  cases hsc : s.dev.scanning q with
  | true =>
    rw [if_pos rfl]
    exact ⟨fun p hp => Dev.queue_setQueue_ne _ _ hp, by simp, by simp, by simp, by simp⟩
  | false =>
    rw [if_neg (by simp)]
    obtain ⟨hdb, hbuf, hhead, hlimit⟩ := Dev.snapshot_taken (d := s.dev) (q := q)
    exact ⟨fun p hp => Dev.snapshot_ne hp s.dev, hbuf, hhead, by simp, fun _ => ⟨hdb, hlimit⟩⟩

/-! ## O27: ring reads -/

/-- A queue halts: its buffer is dropped, the head stays, and queue-fetch fires. -/
theorem Dev.haltQueue_spec (q : Nat) (a : Quad) (c : Nat) (d : Dev) : ((d.haltQueue q a c).queue q).state = .halted ∧
    ((d.haltQueue q a c).queue q).buf = [] ∧
    ∃ f, (d.haltQueue q a c).flt.arrivals = d.flt.arrivals ++ [f] ∧ f.src = 256 ∧ f.inst = q := by
  rw [Dev.haltQueue_queue]
  exact ⟨rfl, rfl, _, rfl, rfl, rfl⟩

/-- A running queue with a failure and nothing fetched halts as it settles. -/
theorem Dev.settle_fails {d : Dev} {q : Nat} (hs : (d.queue q).state = .running) (hb : (d.queue q).buf = [])
    (hf : (d.queue q).fail.isSome = true) : ∃ a c, d.settle q = d.haltQueue q a c := by
  obtain ⟨x, hx⟩ := Option.isSome_iff_exists.mp hf
  have hlen : (d.queue q).frontLen = 0 := by simp [Queue.frontLen, hb]
  refine ⟨x.1, x.2, ?_⟩
  unfold Dev.settle
  simp [hs, hlen, Dev.failsNow, Dev.frontWhole, hx]

/-- An entry at the front that is longer than the ring halts its queue. -/
theorem Dev.settle_tooLong {d : Dev} {q : Nat} (hs : (d.queue q).state = .running) (hl : 2 ^ d.qlog q < (d.queue q).frontLen) :
    ∃ a c, d.settle q = d.haltQueue q a c := by
  refine ⟨d.slotAddr q (d.queue q).cidx, 4, ?_⟩
  unfold Dev.settle
  simp [hs, hl]

/-- What a ring read that brought `ws` and ended with `bad` leaves before the queue settles. -/
def Dev.ringRead (q : Nat) (n : Nat) (ws : List Word) (bad : Option (Quad × Nat)) (d : Dev) : Dev :=
  let e := (d.fetchedSlots q n ws bad).foldl (fun e a => e.noteRead (d.owner q) false a 16) d
  let e := match bad with
    | some (a, 1) => e.deny (d.owner q) 0 false a.toNat
    | some _ | none => e
  e.setQueue q { d.queue q with buf := (d.queue q).buf ++ ws, reading := none, fail := bad }

theorem Dev.ringRead_frame' (q n : Nat) (ws : List Word) (bad : Option (Quad × Nat)) (d : Dev) :
    (d.ringRead q n ws bad).queue q = { d.queue q with buf := (d.queue q).buf ++ ws, reading := none, fail := bad } ∧
    (∀ p, p ≠ q → (d.ringRead q n ws bad).queue p = d.queue p) ∧ (d.ringRead q n ws bad).regs = d.regs := by
  unfold Dev.ringRead
  refine ⟨Dev.queue_setQueue .., fun p hp => (Dev.queue_setQueue_ne _ _ hp).trans (Dev.queue_congr ?_ p), ?_⟩
  · split <;> simp
  · dsimp only
    rw [Dev.setQueue_regs]
    split <;> simp

/-- A ring read that is due and served is `ringRead`, and the queue settles. -/
theorem exec_ringFetch {q : QueueNo} {s : State} {slots n t : Nat} {r : Resp} (hs : (s.dev.queue q).state = .running)
    (hr : (s.dev.queue q).reading = some t) (hn : n = min slots (s.dev.wants q)) (h0 : n ≠ 0) (hsv : s.dev.ringServed q n = true) :
    exec (.ringFetchComplete q slots r) s = .next ⟨(s.dev.ringRead q n (s.dev.readSlots q r (s.dev.nextSlot q) n).1
      (s.dev.readSlots q r (s.dev.nextSlot q) n).2).settle q, s.pending⟩ := by
  subst hn
  show execRingFetchComplete q slots r s = _
  rw [execRingFetchComplete, State.dev!_next]
  dsimp only
  rw [if_neg (by simp [hs, hr, h0]), hsv, Dev.when_true]
  rfl

theorem bytesWords_length (n : Nat) (bs : List Byte) : (bytesWords n bs).length = n := by
  induction n generalizing bs with
  | zero => rfl
  | succ n ih => simp [bytesWords, ih]

theorem Dev.ringWords_ne_nil {d : Dev} {q i n : Nat} (h : n ≠ 0) : d.ringWords q i n ≠ [] := by
  obtain ⟨k, rfl⟩ := Nat.exists_eq_succ_of_ne_zero h
  intro hnil
  have h0 := List.flatMap_eq_nil_iff.mp hnil 0 (List.mem_range.mpr (Nat.succ_pos k))
  simpa [bytesWords_length] using congrArg List.length h0

/-- The slots of a read that is answered join the buffer; an entry longer than the ring halts the queue. -/
theorem ringFetch_ok {q : QueueNo} {s : State} {slots n t : Nat} (hs : (s.dev.queue q).state = .running)
    (hr : (s.dev.queue q).reading = some t) (hn : n = min slots (s.dev.wants q)) (h0 : n ≠ 0) (hsv : s.dev.ringServed q n = true)
    (hok : ∀ k, k < n → s.dev.readRes (s.dev.owner q) (s.dev.slotAddr q (s.dev.nextSlot q + k)).toNat 16 = .ok) :
    ∃ u, exec (.ringFetchComplete q slots .ok) s = .next u ∧ (u.dev.queue q).cidx = (s.dev.queue q).cidx ∧
      (u.dev.queue q).head = (s.dev.queue q).head ∧ (∀ p, p ≠ q.val → u.dev.queue p = s.dev.queue p) ∧
      if bits (wordAt ((s.dev.queue q).buf ++ s.dev.ringWords q (s.dev.nextSlot q) n) 0) 13 8 + 1 ≤ 2 ^ s.dev.qlog q then
        (u.dev.queue q).state = .running ∧
        (u.dev.queue q).buf = (s.dev.queue q).buf ++ s.dev.ringWords q (s.dev.nextSlot q) n
      else (u.dev.queue q).state = .halted ∧ (u.dev.queue q).buf = [] ∧
        ∃ f ∈ u.dev.flt.arrivals, f.src = 256 ∧ f.inst = q.val := by
  refine ⟨_, exec_ringFetch hs hr hn h0 hsv, ?_⟩
  rw [Dev.readSlots_ok s.dev q n _ hok]
  dsimp only
  obtain ⟨hy, hne, hregs⟩ := s.dev.ringRead_frame' q n (s.dev.ringWords q (s.dev.nextSlot q) n) none
  generalize s.dev.ringRead q n (s.dev.ringWords q (s.dev.nextSlot q) n) none = y at *
  have hlen : (y.queue q).frontLen = bits (wordAt ((s.dev.queue q).buf ++ s.dev.ringWords q (s.dev.nextSlot q) n) 0) 13 8 + 1 := by
    rw [hy]
    simp [Queue.frontLen, Dev.ringWords_ne_nil h0]
  have hlog : y.qlog q = s.dev.qlog q := by rw [Dev.qlog, Dev.fld_congr hregs]; rfl
  have hrun : (y.queue q).state = .running := by rw [hy]; exact hs
  refine ⟨by simp [hy], by simp [hy], fun p hp => (Dev.settle_ne hp y).trans (hne p hp), ?_⟩
  by_cases hl : (y.queue q).frontLen ≤ 2 ^ y.qlog q
  · rw [if_pos (by rwa [← hlen, ← hlog])]
    obtain ⟨hst, hbuf⟩ := Dev.settle_keeps hrun (by rw [hy]) hl
    exact ⟨hst, by rw [hbuf, hy]⟩
  · rw [if_neg (by rwa [← hlen, ← hlog])]
    obtain ⟨a, c, hhalt⟩ := Dev.settle_tooLong hrun (Nat.not_le.mp hl)
    rw [hhalt]
    obtain ⟨hst, hbuf, f, hf, hsrc, hinst⟩ := Dev.haltQueue_spec q a c y
    exact ⟨hst, hbuf, f, by rw [hf]; simp, hsrc, hinst⟩

/-- A read whose first slot is denied or answered with an error brings nothing. -/
theorem Dev.readSlots_bad {d : Dev} {q i n : Nat} {r : Resp} (h0 : n ≠ 0)
    (h : r = .error ∨ d.readRes (d.owner q) (d.slotAddr q i).toNat 16 ≠ .ok) :
    (d.readSlots q r i n).1 = [] ∧ (d.readSlots q r i n).2.isSome = true := by
  obtain ⟨k, rfl⟩ := Nat.exists_eq_succ_of_ne_zero h0
  unfold Dev.readSlots
  cases hres : d.readRes (d.owner q) (d.slotAddr q i).toNat 16 with
  | denied => simp [hres]
  | error => simp [hres]
  | ok =>
    cases r with
    | error => simp [hres]
    | ok => simp [hres] at h

/-- With nothing fetched before it, a read that fails halts the queue. -/
theorem ringFetch_fails {q : QueueNo} {s : State} {slots n t : Nat} {r : Resp} (hs : (s.dev.queue q).state = .running)
    (hr : (s.dev.queue q).reading = some t) (hn : n = min slots (s.dev.wants q)) (h0 : n ≠ 0) (hsv : s.dev.ringServed q n = true)
    (hb : (s.dev.queue q).buf = [])
    (h : r = .error ∨ s.dev.readRes (s.dev.owner q) (s.dev.slotAddr q (s.dev.nextSlot q)).toNat 16 ≠ .ok) :
    ∃ u, exec (.ringFetchComplete q slots r) s = .next u ∧ (u.dev.queue q).state = .halted ∧
      (u.dev.queue q).buf = [] ∧ (u.dev.queue q).head = (s.dev.queue q).head ∧
      (∀ p, p ≠ q.val → u.dev.queue p = s.dev.queue p) ∧ ∃ f ∈ u.dev.flt.arrivals, f.src = 256 ∧ f.inst = q.val := by
  refine ⟨_, exec_ringFetch hs hr hn h0 hsv, ?_⟩
  obtain ⟨hws, hbad⟩ := Dev.readSlots_bad h0 h
  rw [hws]
  dsimp only
  generalize (s.dev.readSlots q r (s.dev.nextSlot q) n).2 = bad at *
  obtain ⟨hy, hne, -⟩ := s.dev.ringRead_frame' q n [] bad
  generalize s.dev.ringRead q n [] bad = y at *
  obtain ⟨a, c, hhalt⟩ := Dev.settle_fails (d := y) (q := q) (by rw [hy]; exact hs) (by rw [hy, hb]; rfl) (by rw [hy]; exact hbad)
  obtain ⟨hst, hbuf, f, hf, hsrc, hinst⟩ := Dev.haltQueue_spec q a c y
  refine ⟨by rw [hhalt, hst], by rw [hhalt, hbuf], by rw [Dev.settle_head, hy], fun p hp => (Dev.settle_ne hp y).trans (hne p hp),
    f, ?_, hsrc, hinst⟩
  rw [hhalt, hf]
  simp

/-- A read with no answer in 100 µs halts a queue that has fetched nothing. -/
theorem ringReadTimeout_halts {q : QueueNo} {s : State} {t : Nat} (hs : (s.dev.queue q).state = .running)
    (hr : (s.dev.queue q).reading = some t) (hb : (s.dev.queue q).buf = []) (ht : t + 100000 ≤ s.dev.now) :
    ∃ u, exec (.ringReadTimeout q) s = .next u ∧ (u.dev.queue q).state = .halted ∧ (u.dev.queue q).buf = [] ∧
      (u.dev.queue q).head = (s.dev.queue q).head ∧ (∀ p, p ≠ q.val → u.dev.queue p = s.dev.queue p) ∧
      ∃ f, u.dev.flt.arrivals = s.dev.flt.arrivals ++ [f] ∧ f.src = 256 ∧ f.inst = q.val := by
  have he : exec (.ringReadTimeout q) s = .next ⟨((s.dev.freeTag q (s.dev.owner q)).setQueue q
      { s.dev.queue q with reading := none, fail := some (s.dev.slotAddr q (s.dev.nextSlot q), 3) }).settle q, s.pending⟩ := by
    show execRingReadTimeout q s = _
    rw [execRingReadTimeout, State.dev!_next, hr]
    simp [hs, ht]
  refine ⟨_, he, ?_⟩
  dsimp only
  have hne : ∀ p, p ≠ q.val → ((s.dev.freeTag q (s.dev.owner q)).setQueue q
      { s.dev.queue q with reading := none, fail := some (s.dev.slotAddr q (s.dev.nextSlot q), 3) }).queue p = s.dev.queue p :=
    fun p hp => (Dev.queue_setQueue_ne _ _ hp).trans (Dev.queue_congr (by simp) p)
  have hflt : ((s.dev.freeTag q (s.dev.owner q)).setQueue q
      { s.dev.queue q with reading := none, fail := some (s.dev.slotAddr q (s.dev.nextSlot q), 3) }).flt = s.dev.flt := by simp
  have hy := Dev.queue_setQueue q { s.dev.queue q with reading := none, fail := some (s.dev.slotAddr q (s.dev.nextSlot q), 3) }
    (s.dev.freeTag q (s.dev.owner q))
  generalize (s.dev.freeTag q (s.dev.owner q)).setQueue q
    { s.dev.queue q with reading := none, fail := some (s.dev.slotAddr q (s.dev.nextSlot q), 3) } = y at *
  obtain ⟨a, c, hhalt⟩ := Dev.settle_fails (d := y) (q := q) (by rw [hy]; exact hs) (by rw [hy]; exact hb) (by rw [hy]; rfl)
  obtain ⟨hst, hbuf, f, hf, hsrc, hinst⟩ := Dev.haltQueue_spec q a c y
  exact ⟨by rw [hhalt, hst], by rw [hhalt, hbuf], by rw [Dev.settle_head, hy], fun p hp => (Dev.settle_ne hp y).trans (hne p hp),
    f, by rw [hhalt, hf, hflt], hsrc, hinst⟩

/-- Settles O27: doorbells, and the three ends of a ring read. -/
theorem doorbellsAndRingReads : Obligations.DoorbellsAndRingReads := by
  unfold Obligations.DoorbellsAndRingReads
  exact fun q s => ⟨fun m hm => doorbell_spec hm,
    fun slots n t hs hr hn h0 hsv => ⟨ringFetch_ok hs hr hn h0 hsv, fun r hb h => ringFetch_fails hs hr hn h0 hsv hb h⟩,
    fun t hs hr hb ht => ringReadTimeout_halts hs hr hb ht⟩

/-! ## O28 -/

/-- Staged weights apply on queue `q`'s page alone. -/
theorem Dev.applyArb_ne {p q : QueueNo} (h : p ≠ q) (d : Dev) :
    (d.applyArb q).effAt (regAt .queue p CQE_ARB) = d.effAt (regAt .queue p CQE_ARB) ∧
      (d.applyArb q).stagedAt (regAt .queue p CQE_ARB) = d.stagedAt (regAt .queue p CQE_ARB) := by
  have hne : regAt .queue p CQE_ARB ≠ regAt .queue q CQE_ARB := fun e =>
    h (Fin.ext (regAt_inj (by decide) (by decide) e).1)
  unfold Dev.applyArb
  dsimp only
  split
  · split
    · exact ⟨rfl, rfl⟩
    · exact ⟨Dev.effAt_setEffAt_ne _ _ hne, Dev.stagedAt_setStagedAt_ne _ _ hne⟩
  · exact ⟨rfl, rfl⟩

@[simp] theorem Dev.applyArb_held (q n : Nat) (d : Dev) : (d.applyArb q).held n = d.held n := by
  unfold Dev.applyArb
  dsimp only
  split
  · split <;> rfl
  · rfl

theorem Dev.applyArb_queues (q : Nat) (d : Dev) : (d.applyArb q).queues = d.queues := by
  unfold Dev.applyArb
  dsimp only
  split
  · split <;> rfl
  · rfl

/-- What applying leaves in effect and staged on queue `q`'s page, from `w` in effect, `st` staged and `HOLD`. -/
def arbAfter (w : Word) (st : Option Word) (held : Bool) : Word × Option Word :=
  match st with
  | some v => if held then (w, st) else (v, none)
  | none => (w, st)

theorem arbAfter_stays {w : Word} {st : Option Word} {held : Bool} (h : st = none ∨ held = true) : arbAfter w st held = (w, st) := by
  unfold arbAfter
  rcases h with rfl | rfl
  · rfl
  · cases st <;> rfl

theorem Dev.applyArb_self (q : Nat) (d : Dev) :
    ((d.applyArb q).effAt (regAt .queue q CQE_ARB), (d.applyArb q).stagedAt (regAt .queue q CQE_ARB)) =
      arbAfter (d.effAt (regAt .queue q CQE_ARB)) (d.stagedAt (regAt .queue q CQE_ARB)) (d.held (PType.queue.page + q)) := by
  unfold Dev.applyArb arbAfter
  dsimp only
  cases hst : d.stagedAt (regAt .queue q CQE_ARB) with
  | none =>
    dsimp only
    rw [hst]
  | some w =>
    dsimp only
    by_cases hh : d.held (PType.queue.page + q) = true
    · rw [if_pos hh, if_pos hh, hst]
    · rw [if_neg hh, if_neg hh, Dev.setStagedAt_effAt, Dev.effAt_setEffAt, Dev.stagedAt_setStagedAt]

/-- The staged weights of some queues apply, in turn. -/
def Dev.applyArbs (qs : List QueueNo) (d : Dev) : Dev := qs.foldl (fun d q => d.applyArb q) d

theorem Dev.foldl_applyArb_map (qs : List QueueNo) (d : Dev) : (qs.map Fin.val).foldl (fun d q => d.applyArb q) d = d.applyArbs qs := by
  induction qs generalizing d with
  | nil => rfl
  | cons q qs ih => exact ih (d.applyArb q)

theorem Dev.applyArbs_queues (qs : List QueueNo) (d : Dev) : (d.applyArbs qs).queues = d.queues := by
  induction qs generalizing d with
  | nil => rfl
  | cons q qs ih => exact (ih (d.applyArb q)).trans (Dev.applyArb_queues q d)

theorem Dev.applyArbs_notMem {p : QueueNo} {qs : List QueueNo} (h : p ∉ qs) (d : Dev) :
    (d.applyArbs qs).effAt (regAt .queue p CQE_ARB) = d.effAt (regAt .queue p CQE_ARB) ∧
      (d.applyArbs qs).stagedAt (regAt .queue p CQE_ARB) = d.stagedAt (regAt .queue p CQE_ARB) := by
  induction qs generalizing d with
  | nil => exact ⟨rfl, rfl⟩
  | cons q qs ih =>
    obtain ⟨hq, hqs⟩ := not_or.mp (mt List.mem_cons.mpr h)
    obtain ⟨he, hs⟩ := ih hqs (d.applyArb q)
    obtain ⟨he', hs'⟩ := Dev.applyArb_ne hq d
    exact ⟨he.trans he', hs.trans hs'⟩

/-- Among distinct queues, each page's staged weights apply as if alone. -/
theorem Dev.applyArbs_mem {p : QueueNo} {qs : List QueueNo} (hd : qs.Nodup) (h : p ∈ qs) (d : Dev) :
    ((d.applyArbs qs).effAt (regAt .queue p CQE_ARB), (d.applyArbs qs).stagedAt (regAt .queue p CQE_ARB)) =
      arbAfter (d.effAt (regAt .queue p CQE_ARB)) (d.stagedAt (regAt .queue p CQE_ARB)) (d.held (PType.queue.page + p)) := by
  induction qs generalizing d with
  | nil => cases h
  | cons q qs ih =>
    obtain ⟨hq, hd'⟩ := List.nodup_cons.mp hd
    rcases List.mem_cons.mp h with rfl | hp
    · obtain ⟨he, hs⟩ := Dev.applyArbs_notMem hq (d.applyArb p)
      exact (Prod.ext he hs).trans (Dev.applyArb_self p d)
    · obtain ⟨he, hs⟩ := Dev.applyArb_ne (fun e : p = q => hq (e ▸ hp)) d
      refine (ih hd' hp (d.applyArb q)).trans ?_
      rw [he, hs, Dev.applyArb_held]

/-- A new round applies every queue's staged weights, once each, and clears the credits. -/
theorem exec_arbitrationRound {s : State} (h : s.dev.whoseTurn = none) : ∃ qs : List QueueNo, qs.Nodup ∧ (∀ q, q ∈ qs) ∧
    exec .arbitrationRound s = .next ⟨{ s.dev.applyArbs qs with
      turn := none, queues := s.dev.queues.map fun e => (e.1, { e.2 with hadTurn := false, credit := 0 }) }, s.pending⟩ := by
  refine ⟨List.finRange 256, List.nodup_finRange 256, List.mem_finRange, ?_⟩
  have hf : (List.range 256).foldl Dev.applyArb s.dev = s.dev.applyArbs (List.finRange 256) := by
    rw [← Dev.foldl_applyArb_map, show (List.finRange 256).map Fin.val = List.range 256 from List.map_coe_finRange_eq_range]
  show execArbitrationRound s = _
  rw [execArbitrationRound, State.dev!_next, h, Option.isNone_none, Dev.when_true, hf]
  dsimp only
  rw [Dev.applyArbs_queues]

/-- A queue with its credits unspent. -/
def Queue.newRound (x : Queue) : Queue := { x with hadTurn := false, credit := 0 }

theorem Queue.newRound_get (m : FMap Queue) (q : Nat) :
    FMap.get (fun _ => ({} : Queue)) (m.map fun e => (e.1, e.2.newRound)) q = (FMap.get (fun _ => {}) m q).newRound :=
  FMap.get_map (fun _ => {}) (fun _ => {}) Queue.newRound (fun _ => rfl) m q

/-- Settles O28: every queue's page takes its staged weights, and no queue has spent its credits. -/
theorem arbitrationRoundsRefill : Obligations.ArbitrationRoundsRefill := by
  unfold Obligations.ArbitrationRoundsRefill
  intro s h
  obtain ⟨qs, hnd, hall, he⟩ := exec_arbitrationRound h
  refine ⟨_, he, rfl, fun q => ?_⟩
  have hq := Dev.applyArbs_mem hnd (hall q) s.dev
  dsimp only
  refine ⟨Queue.newRound_get s.dev.queues q, fun w hw hh => ?_, fun hw => ?_⟩
  · rw [hw, hh] at hq
    exact Prod.mk.inj hq
  · rw [arbAfter_stays hw] at hq
    exact Prod.mk.inj hq

/-! ## O29: enable, disable, and the end of a drain -/

theorem Dev.queueOk_setQueue {d : Dev} {q : Nat} {x : Queue} (h : x.head = (d.queue q).head) : (d.setQueue q x).queueOk q = d.queueOk q := by
  have hbad : (d.setQueue q x).pidxBad q = d.pidxBad q := by
    unfold Dev.pidxBad
    rw [Dev.queue_setQueue, h]
    rfl
  unfold Dev.queueOk
  rw [hbad]
  rfl

theorem Dev.enableQueue_ne {q p : Nat} (hp : p ≠ q) (d : Dev) : (d.enableQueue q).queue p = d.queue p := by
  unfold Dev.enableQueue
  dsimp only
  split <;> exact Dev.queue_setQueue_ne _ _ hp

theorem Dev.enableQueue_mem (q : Nat) (d : Dev) : (d.enableQueue q).mem = d.mem := by
  unfold Dev.enableQueue
  dsimp only
  split <;> rfl

theorem Dev.enableQueue_ok {d : Dev} {q : Nat} (h : d.queueOk q = true) : (d.enableQueue q).queue q = { d.queue q with
    state := .running, en := true, enPending := false, cfgErr := false, epoch := (d.queue q).epoch + 1, cidx := (d.queue q).head,
    limit := (d.queue q).head, buf := [], reading := none, fail := none, dbPend := false, entries := [], txn := none,
    discard := false, pause := none, heldWords := [], outst := 0 } := by
  unfold Dev.enableQueue
  simp only [h, if_true]
  exact Dev.queue_setQueue ..

theorem Dev.enableQueue_bad {d : Dev} {q : Nat} (h : d.queueOk q = false) :
    (d.enableQueue q).queue q = { d.queue q with en := false, enPending := false, cfgErr := true } := by
  unfold Dev.enableQueue
  simp only [h, Bool.false_eq_true, if_false]
  exact Dev.queue_setQueue ..

theorem queueEnable_spec {q : QueueNo} {s : State} {m : Fn} (hm : s.dev.mayWriteReg m .queue q CQE_CTL) :
    ∃ u, exec (.queueEnable m q) s = .next u ∧ (∀ p, p ≠ q.val → u.dev.queue p = s.dev.queue p) ∧ u.dev.mem = s.dev.mem ∧
      ((s.dev.queue q).state = .off → s.dev.queueOk q = true → (u.dev.queue q).state = .running ∧
        (u.dev.queue q).en = true ∧ (u.dev.queue q).cfgErr = false ∧
        (u.dev.queue q).epoch = (s.dev.queue q).epoch + 1 ∧ (u.dev.queue q).head = (s.dev.queue q).head ∧
        (u.dev.queue q).cidx = (s.dev.queue q).head ∧ (u.dev.queue q).limit = (s.dev.queue q).head ∧
        (u.dev.queue q).entries = [] ∧ (u.dev.queue q).txn = none ∧ (u.dev.queue q).pause = none) ∧
      ((s.dev.queue q).state = .off → s.dev.queueOk q = false → (u.dev.queue q).state = .off ∧
        (u.dev.queue q).en = false ∧ (u.dev.queue q).cfgErr = true ∧ (u.dev.queue q).epoch = (s.dev.queue q).epoch) ∧
      ((s.dev.queue q).state = .draining → (u.dev.queue q).state = .draining ∧ (u.dev.queue q).enPending = true) := by
  have he : exec (.queueEnable m q) s = .next ⟨s.dev.writeQueueEn q true, s.pending⟩ := by
    show s.dev! (Dev.regWrite m .queue q CQE_CTL 1) = _
    rw [State.dev!_next, Dev.regWrite_queueEnable hm]
  refine ⟨_, he, ?_⟩
  dsimp only
  unfold Dev.writeQueueEn
  have hok := Dev.queueOk_setQueue (d := s.dev) (q := q) (x := { s.dev.queue q with en := true, cfgErr := false }) rfl
  have hset := Dev.queue_setQueue q { s.dev.queue q with en := true, cfgErr := false } s.dev
  have hne : ∀ p, p ≠ q.val → (s.dev.setQueue q { s.dev.queue q with en := true, cfgErr := false }).queue p = s.dev.queue p :=
    fun p hp => Dev.queue_setQueue_ne _ _ hp
  have hmem : (s.dev.setQueue q { s.dev.queue q with en := true, cfgErr := false }).mem = s.dev.mem := rfl
  dsimp only
  generalize s.dev.setQueue q { s.dev.queue q with en := true, cfgErr := false } = y at *
  cases hst : (s.dev.queue q).state with
  | off =>
    refine ⟨fun p hp => (Dev.enableQueue_ne hp y).trans (hne p hp), (Dev.enableQueue_mem ..).trans hmem, fun _ hq => ?_, fun _ hq => ?_, nofun⟩
    · rw [Dev.enableQueue_ok (hok.trans hq), hset]
      exact ⟨rfl, rfl, rfl, rfl, rfl, rfl, rfl, rfl, rfl, rfl⟩
    · rw [Dev.enableQueue_bad (hok.trans hq), hset]
      exact ⟨hst, rfl, rfl, rfl⟩
  | running => exact ⟨hne, hmem, nofun, nofun, nofun⟩
  | halted => exact ⟨hne, hmem, nofun, nofun, nofun⟩
  | draining =>
    refine ⟨fun p hp => (Dev.queue_setQueue_ne _ _ hp).trans (hne p hp), hmem, nofun, nofun, fun _ => ?_⟩
    dsimp only
    rw [Dev.queue_setQueue]
    exact ⟨rfl, rfl⟩

/-- A drain without an open transaction discards what has not started. -/
theorem Dev.drainQueue_spec {d : Dev} {q : Nat} (ht : (d.queue q).txn = none) :
    ((d.drainQueue q).queue q).state = .draining ∧ ((d.drainQueue q).queue q).en = (d.queue q).en ∧
    ((d.drainQueue q).queue q).head = (d.queue q).head ∧ ((d.drainQueue q).queue q).buf = [] ∧
    ((d.drainQueue q).queue q).pause = none ∧ (d.drainQueue q).mem = d.mem ∧
    ((d.drainQueue q).queue q).entries = ((d.queue q).entries.takeWhile fun e => e.started || e.done) ∧
    ∀ p, p ≠ q → (d.drainQueue q).queue p = d.queue p := by
  unfold Dev.drainQueue
  dsimp only
  rw [ht, if_neg (by simp), Dev.closeTurn_queue, Dev.queue_setQueue]
  refine ⟨rfl, rfl, rfl, rfl, rfl, by simp, rfl, fun p hp => ?_⟩
  rw [Dev.closeTurn_queue]
  exact Dev.queue_setQueue_ne _ _ hp

theorem queueDisable_spec {q : QueueNo} {s : State} {m : Fn} (hm : s.dev.mayWriteReg m .queue q CQE_CTL) :
    ∃ u, exec (.queueDisable m q) s = .next u ∧
      ((s.dev.queue q).state = .running ∨ (s.dev.queue q).state = .halted → (s.dev.queue q).txn = none →
        (u.dev.queue q).state = .draining ∧
        (u.dev.queue q).en = false ∧ (u.dev.queue q).head = (s.dev.queue q).head ∧ (u.dev.queue q).buf = [] ∧
        (u.dev.queue q).pause = none ∧ u.dev.mem = s.dev.mem ∧
        (u.dev.queue q).entries = ((s.dev.queue q).entries.takeWhile fun e => e.started || e.done) ∧
        ∀ p, p ≠ q.val → u.dev.queue p = s.dev.queue p) ∧
      ((s.dev.queue q).state = .draining → u.dev.queue q = { s.dev.queue q with en := false, cfgErr := false, enPending := false }) := by
  have he : exec (.queueDisable m q) s = .next ⟨s.dev.writeQueueEn q false, s.pending⟩ := by
    show s.dev! (Dev.regWrite m .queue q CQE_CTL 0) = _
    rw [State.dev!_next, Dev.regWrite_queueDisable hm]
  refine ⟨_, he, ?_⟩
  dsimp only
  unfold Dev.writeQueueEn
  have hset := Dev.queue_setQueue q { s.dev.queue q with en := false, cfgErr := false } s.dev
  have hne : ∀ p, p ≠ q.val → (s.dev.setQueue q { s.dev.queue q with en := false, cfgErr := false }).queue p = s.dev.queue p :=
    fun p hp => Dev.queue_setQueue_ne _ _ hp
  have hmem : (s.dev.setQueue q { s.dev.queue q with en := false, cfgErr := false }).mem = s.dev.mem := rfl
  dsimp only
  generalize s.dev.setQueue q { s.dev.queue q with en := false, cfgErr := false } = y at *
  have hdrain (ht : (s.dev.queue q).txn = none) := Dev.drainQueue_spec (d := y) (q := q) (by rw [hset]; exact ht)
  rw [hset, hmem] at hdrain
  cases hst : (s.dev.queue q).state with
  | off => exact ⟨nofun, nofun⟩
  | running | halted =>
    refine ⟨fun _ ht => ?_, nofun⟩
    obtain ⟨hs, hen, hhead, hbuf, hpause, hm', hent, hp⟩ := hdrain ht
    exact ⟨hs, hen, hhead, hbuf, hpause, hm', hent, fun p hpq => (hp p hpq).trans (hne p hpq)⟩
  | draining => exact ⟨by simp, fun _ => Dev.queue_setQueue ..⟩

/-- A drained queue before the enable that may wait: OFF, and at index 0 where a function-level reset asked for it. -/
def Dev.drained (q : Nat) (d : Dev) : Dev :=
  if (d.queue q).flr then
    ((d.setQueue q { d.queue q with state := .off, enPending := false, outst := 0, head := 0, cidx := 0, flr := false }).setReg
      .queue q CQE_PIDX 0).flrRing (d.owner q)
  else d.setQueue q { d.queue q with state := .off, enPending := false, outst := 0 }

theorem Dev.queueDrained_eq (q : Nat) (d : Dev) :
    d.queueDrained q = if (d.queue q).enPending then (d.drained q).enableQueue q else d.drained q := rfl

theorem Dev.drained_spec (q : Nat) (d : Dev) : (∀ p, p ≠ q → (d.drained q).queue p = d.queue p) ∧
    ((d.drained q).queue q).state = .off ∧ ((d.drained q).queue q).epoch = (d.queue q).epoch ∧
    ((d.drained q).queue q).outst = 0 ∧
    ((d.drained q).queue q).head = (if (d.queue q).flr then 0 else (d.queue q).head) ∧
    ((d.queue q).flr = false → (d.drained q).regs = d.regs ∧ (d.drained q).queueOk q = d.queueOk q) ∧
    ((d.queue q).flr = true → (d.drained q).reg .queue q CQE_PIDX = 0) := by
  unfold Dev.drained
  by_cases hflr : (d.queue q).flr = true
  · simp only [if_pos hflr]
    generalize hz : Dev.setQueue q _ d = z
    have hself : ((z.setReg .queue q CQE_PIDX 0).flrRing (d.owner q)).queue q = z.queue q := Dev.queue_congr (by simp) q
    rw [hself, ← hz, Dev.queue_setQueue, hz]
    refine ⟨fun p hp => ?_, rfl, rfl, rfl, rfl, fun h => by simp [hflr] at h, fun _ => ?_⟩
    · exact (Dev.queue_congr (b := z) (by simp) p).trans (hz ▸ Dev.queue_setQueue_ne _ _ hp)
    · rw [Dev.reg_congr (b := z.setReg .queue q CQE_PIDX 0) (by simp), Dev.reg_setReg]
  · simp only [if_neg hflr]
    rw [Dev.queue_setQueue]
    exact ⟨fun p hp => Dev.queue_setQueue_ne _ _ hp, rfl, rfl, rfl, rfl, fun _ => ⟨rfl, Dev.queueOk_setQueue rfl⟩, fun h => absurd h hflr⟩

theorem queueDrained_spec {q : QueueNo} {s : State} (hs : (s.dev.queue q).state = .draining) (hent : (s.dev.queue q).entries = []) :
    ∃ u, exec (.queueDrainComplete q) s = .next u ∧ (∀ p, p ≠ q.val → u.dev.queue p = s.dev.queue p) ∧
      ((s.dev.queue q).enPending = false → (u.dev.queue q).state = .off ∧ (u.dev.queue q).epoch = (s.dev.queue q).epoch ∧
        (u.dev.queue q).outst = 0 ∧
        (u.dev.queue q).head = (if (s.dev.queue q).flr then 0 else (s.dev.queue q).head) ∧
        ((s.dev.queue q).flr = false → u.dev.regs = s.dev.regs) ∧
        ((s.dev.queue q).flr = true → u.dev.reg .queue q CQE_PIDX = 0)) ∧
      ((s.dev.queue q).enPending = true → (s.dev.queue q).flr = false →
        if s.dev.queueOk q then (u.dev.queue q).state = .running ∧ (u.dev.queue q).en = true ∧
          (u.dev.queue q).epoch = (s.dev.queue q).epoch + 1 ∧ (u.dev.queue q).cidx = (s.dev.queue q).head ∧
          (u.dev.queue q).limit = (s.dev.queue q).head
        else (u.dev.queue q).state = .off ∧ (u.dev.queue q).en = false ∧ (u.dev.queue q).cfgErr = true) := by
  have he : exec (.queueDrainComplete q) s = .next ⟨s.dev.queueDrained q, s.pending⟩ := by
    show execQueueDrainComplete q s = _
    rw [execQueueDrainComplete, State.dev!_next, hs, hent]
    rfl
  refine ⟨_, he, ?_⟩
  dsimp only
  rw [Dev.queueDrained_eq]
  obtain ⟨hne, hst, hep, ho, hhead, hkeep, hpidx⟩ := s.dev.drained_spec q
  generalize s.dev.drained q = y at *
  by_cases hen : (s.dev.queue q).enPending = true
  · rw [if_pos hen]
    refine ⟨fun p hp => (Dev.enableQueue_ne hp y).trans (hne p hp), fun h => by simp [hen] at h, fun _ hflr => ?_⟩
    obtain ⟨-, hok⟩ := hkeep hflr
    rw [hflr, if_neg (by decide)] at hhead
    by_cases hq : s.dev.queueOk q = true
    · rw [if_pos hq, Dev.enableQueue_ok (hok.trans hq)]
      exact ⟨rfl, rfl, congrArg (· + 1) hep, hhead, hhead⟩
    · rw [if_neg hq, Dev.enableQueue_bad (hok.trans (Bool.eq_false_iff.mpr hq))]
      exact ⟨hst, rfl, rfl⟩
  · rw [if_neg hen]
    exact ⟨hne, fun _ => ⟨hst, hep, ho, hhead, fun hf => (hkeep hf).1, hpidx⟩, fun h => absurd h hen⟩

/-- Settles O29: the writes of `EN` by the queue's state, and the end of a drain. -/
theorem queuesEnableDrainAndStop : Obligations.QueuesEnableDrainAndStop := by
  unfold Obligations.QueuesEnableDrainAndStop
  exact fun q s => ⟨fun m hm => ⟨queueEnable_spec hm, queueDisable_spec hm⟩, fun hs he => queueDrained_spec hs he⟩

/-! ## O30: notice rings -/

theorem Dev.ring_congr {a b : Dev} (h : a.rings = b.rings) (f : Nat) : a.ring f = b.ring f := by unfold Dev.ring; rw [h]

theorem Dev.writeRingEn_spec {f : Nat} {d : Dev} (h : (d.ring f).en = false) :
    (∀ g, g ≠ f → (d.writeRingEn f true).ring g = d.ring g) ∧
    (if 6 ≤ d.nlog f ∧ d.nlog f ≤ 16 ∧
        0x8000000000000000 ≤ (quad (d.effAt (noticeAt f 0x08)) (d.effAt (noticeAt f 0x0C))).toNat then
      ((d.writeRingEn f true).ring f).en = true ∧ ((d.writeRingEn f true).ring f).tail = 0 ∧
      ((d.writeRingEn f true).ring f).head = 0 ∧ ((d.writeRingEn f true).ring f).nseq = 0 ∧
      ((d.writeRingEn f true).ring f).cfgErr = false
     else ((d.writeRingEn f true).ring f).en = false ∧ ((d.writeRingEn f true).ring f).cfgErr = true ∧
      ((d.writeRingEn f true).ring f).tail = (d.ring f).tail) := by
  unfold Dev.writeRingEn
  simp only [not_true_eq_false, if_false, h, Bool.false_eq_true]
  split
  · exact ⟨fun g hg => Dev.ring_setRing_ne _ _ hg, by simp⟩
  · exact ⟨fun g hg => Dev.ring_setRing_ne _ _ hg, by simp⟩

/-- The enable of a ring is the bit's write over a CTL that keeps its other fields. -/
theorem ringEnable_spec {m f : Fn} {s : State} (hm : s.dev.mayWriteReg m .cqe 0 (0x300 + 0x30 * f)) (h : (s.dev.ring f).en = false) :
    ∃ u, exec (.noticeRingEnable m f) s = .next u ∧ (∀ g, g ≠ f.val → u.dev.ring g = s.dev.ring g) ∧
      (if 6 ≤ s.dev.nlog f ∧ s.dev.nlog f ≤ 16 ∧
          0x8000000000000000 ≤ (quad (s.dev.effAt (noticeAt f 0x08)) (s.dev.effAt (noticeAt f 0x0C))).toNat then
        (u.dev.ring f).en = true ∧ (u.dev.ring f).tail = 0 ∧ (u.dev.ring f).head = 0 ∧ (u.dev.ring f).nseq = 0 ∧
        (u.dev.ring f).cfgErr = false
       else (u.dev.ring f).en = false ∧ (u.dev.ring f).cfgErr = true ∧ (u.dev.ring f).tail = (s.dev.ring f).tail) := by
  have he : exec (.noticeRingEnable m f) s = .next ⟨(s.dev.setReg .cqe 0 (0x300 + 0x30 * f)
      (s.dev.view .cqe 0 (0x300 + 0x30 * f) &&& 0xFFFF3F02)).writeRingEn f true, s.pending⟩ := by
    show s.dev! (Dev.fieldWrite m .cqe 0 (0x300 + 0x30 * f) 1 1) = _
    rw [State.dev!_next, Dev.fieldWrite_ringEnable hm]
  refine ⟨_, he, ?_⟩
  dsimp only
  generalize hw : s.dev.view .cqe 0 (0x300 + 0x30 * f) &&& 0xFFFF3F02 = w
  have hoff : ∀ o, o ≠ 0 → o < 0x30 → (s.dev.setReg .cqe 0 (0x300 + 0x30 * f) w).effAt (noticeAt f o) = s.dev.effAt (noticeAt f o) := by
    intro o h0 ho
    exact Dev.effAt_setEffAt_ne _ _ (by unfold noticeAt regAt; omega)
  have hlog : (s.dev.setReg .cqe 0 (0x300 + 0x30 * f) w).nlog f = s.dev.nlog f := by
    unfold Dev.nlog
    rw [hoff 4 (by decide) (by decide)]
  obtain ⟨hne, hself⟩ := Dev.writeRingEn_spec (f := f) (d := s.dev.setReg .cqe 0 (0x300 + 0x30 * f) w) h
  rw [hlog, hoff 8 (by decide) (by decide), hoff 12 (by decide) (by decide)] at hself
  exact ⟨hne, hself⟩

theorem Dev.writeNhead_spec (f v : Nat) (d : Dev) : (∀ g, g ≠ f → (d.writeNhead f v).ring g = d.ring g) ∧
    ((d.writeNhead f v).ring f).tail = (d.ring f).tail ∧
    (if ((d.ring f).tail + 2 ^ (d.nlog f + 1) - v % 2 ^ 17 % 2 ^ (d.nlog f + 1)) % 2 ^ (d.nlog f + 1) ≤ 2 ^ d.nlog f then
      ((d.writeNhead f v).ring f).head = v % 2 ^ 17 % 2 ^ (d.nlog f + 1) ∧ ((d.writeNhead f v).ring f).nheadErr = false
     else ((d.writeNhead f v).ring f).head = (d.ring f).head ∧ ((d.writeNhead f v).ring f).nheadErr = true) := by
  unfold Dev.writeNhead
  dsimp only
  by_cases hv : ((d.ring f).tail + 2 ^ (d.nlog f + 1) - v % 2 ^ 17 % 2 ^ (d.nlog f + 1)) % 2 ^ (d.nlog f + 1) ≤ 2 ^ d.nlog f
  · simp only [if_pos hv]
    split
    · exact ⟨fun g hg => Dev.ring_setRing_ne _ _ hg, by simp⟩
    · exact ⟨fun g hg => Dev.ring_setRing_ne _ _ hg, by simp⟩
  · simp only [if_neg hv]
    exact ⟨fun g hg => Dev.ring_setRing_ne _ _ hg, by simp⟩

/-- A due message goes out where notices are unread, and the interval is over either way. -/
theorem moderationEnd_spec {f : Fn} {s : State} {t : Nat} (hd : (s.dev.ring f).msgDue = true) (hl : (s.dev.ring f).lastMsg = some t)
    (ht : t + bits (s.dev.effAt (noticeAt f 0)) 31 16 * 1000 ≤ s.dev.now) :
    ∃ u, exec (.interruptModerationEnd f) s = .next u ∧ (u.dev.ring f).msgDue = false ∧
      (∀ g, g ≠ f.val → u.dev.ring g = s.dev.ring g) ∧ (u.dev.ring f).tail = (s.dev.ring f).tail ∧
      (if bit (s.dev.effAt (noticeAt f 0)) 1 = true ∧ (s.dev.ring f).tail ≠ (s.dev.ring f).head then
        (u.dev.ring f).lastMsg = some s.dev.now ∧
        (bit (s.dev.msixWord f (bits (s.dev.effAt (noticeAt f 0)) 13 8) 3) 0 = false →
          u.dev.hif.out = s.dev.hif.out ++ [.msix f (bits (s.dev.effAt (noticeAt f 0)) 13 8)])
       else (u.dev.ring f).lastMsg = some t ∧ u.dev.hif = s.dev.hif) := by
  have he : exec (.interruptModerationEnd f) s = .next ⟨if bit (s.dev.effAt (noticeAt f 0)) 1 = true ∧ (s.dev.ring f).tail ≠ (s.dev.ring f).head then
      (s.dev.setRing f { s.dev.ring f with msgDue := false, lastMsg := some s.dev.now }).msix f (bits (s.dev.effAt (noticeAt f 0)) 13 8)
      else s.dev.setRing f { s.dev.ring f with msgDue := false }, s.pending⟩ := by
    show execInterruptModerationEnd f s = _
    rw [execInterruptModerationEnd, State.dev!_next]
    dsimp only
    rw [hd, hl]
    simp [ht]
  refine ⟨_, he, ?_⟩
  dsimp only
  by_cases hc : bit (s.dev.effAt (noticeAt f 0)) 1 = true ∧ (s.dev.ring f).tail ≠ (s.dev.ring f).head
  · simp only [if_pos hc]
    generalize bits (s.dev.effAt (noticeAt f 0)) 13 8 = v
    have hring : ∀ g, ((s.dev.setRing f { s.dev.ring f with msgDue := false, lastMsg := some s.dev.now }).msix f v).ring g =
        (s.dev.setRing f { s.dev.ring f with msgDue := false, lastMsg := some s.dev.now }).ring g :=
      fun g => Dev.ring_congr (by simp) g
    rw [hring, Dev.ring_setRing]
    refine ⟨rfl, fun g hg => (hring g).trans (Dev.ring_setRing_ne _ _ hg), rfl, rfl, fun hm => ?_⟩
    unfold Dev.msix
    rw [if_neg (by rw [show Dev.msixWord (s.dev.setRing f _) f v 3 = s.dev.msixWord f v 3 from rfl, hm]; decide)]
    rfl
  · simp only [if_neg hc]
    exact ⟨by simp, fun g hg => Dev.ring_setRing_ne _ _ hg, by simp, by simp [hl], by simp⟩

/-- Settles O30: the enable of a ring, a write of its head, and the end of its moderation interval. -/
theorem noticeRingsFillAndSignal : Obligations.NoticeRingsFillAndSignal := by
  unfold Obligations.NoticeRingsFillAndSignal
  refine fun f s => ⟨fun m hm h => ringEnable_spec hm h, fun m w hm => ⟨⟨s.dev.writeNhead f w.toNat, s.pending⟩, ?_, s.dev.writeNhead_spec f w.toNat⟩,
    fun t hd hl ht => moderationEnd_spec hd hl ht⟩
  show s.dev! (Dev.regWrite m .cqe 0 (0x314 + 0x30 * f) w) = _
  rw [State.dev!_next, Dev.regWrite_nhead hm]

end Sys2Proof.Machine
end

section
/-!
PROOF of O31 and O32: commit points and re-evaluations.
-/
namespace Sys2Proof.Machine
set_option Elab.async false

/-! ## O31: a flip at a canvas that already shows too many layers -/

theorem lowestRefuse_eq_none {l : List Refuse} (h : lowestRefuse l = none) : l = [] := by
  cases l with
  | nil => rfl
  | cons a l => cases h

/-- A canvas of a change that has more than 64 layers at some pixel is a finding. -/
theorem lowestRefuse_depth {fs : List Refuse} {slot : Nat} {cands : List Cand} {x : Cand} (hx : x ∈ cands) (h : 64 < x.fig.layers) :
    ∃ r, lowestRefuse (fs ++ depthFails slot cands) = some r := by
  rw [← Option.ne_none_iff_exists']
  intro hnone
  have hdepth := (List.append_eq_nil_iff.mp (lowestRefuse_eq_none hnone)).2
  simp only [depthFails, List.map_eq_nil_iff, List.filter_eq_nil_iff, decide_eq_true_eq] at hdepth
  exact hdepth x hx h

/-- A transaction with a finding at its commit point leaves the flight as it is. -/
theorem Dev.commitTxn_depth {d : Dev} {t : Txn} {c : Nat} (hecc : t.ecc = false)
    (hc : c ∈ d.affected d.admTables ((d.admTables.putWins t.change.wins).putSurfs t.change.surfs) (d.realChange d.admTables t.change) [])
    (h : 64 < (d.cand ((d.admTables.putWins t.change.wins).putSurfs t.change.surfs)
      (d.regsAfter (d.realChange d.admTables t.change) [] c) c).fig.layers) :
    (d.commitTxn t).scene = d.scene := by
  unfold Dev.commitTxn
  rw [hecc, if_neg (by decide)]
  dsimp only
  obtain ⟨r, hr⟩ := lowestRefuse_depth (fs := d.txnFails t d.admTables ((d.admTables.putWins t.change.wins).putSurfs t.change.surfs))
    (slot := t.slots) (List.mem_map_of_mem (f := fun c => d.cand ((d.admTables.putWins t.change.wins).putSurfs t.change.surfs)
      (d.regsAfter (d.realChange d.admTables t.change) [] c) c) hc) h
  rw [hr]
  simp

theorem exec_commitPoint_depth {s u : State} {t : Txn} {rest : List AdmReq} {c : Nat} (hq : s.dev.scene.admQ = .txn t :: rest)
    (hecc : t.ecc = false) {new : Tables} (hnew : new = (s.dev.admTables.putWins t.change.wins).putSurfs t.change.surfs)
    (hc : c ∈ s.dev.affected s.dev.admTables new (s.dev.realChange s.dev.admTables t.change) [])
    (h : 64 < (s.dev.cand new (s.dev.regsAfter (s.dev.realChange s.dev.admTables t.change) [] c) c).fig.layers)
    (he : exec .commitPoint s = .next u) : u.dev.scene.flight = s.dev.scene.flight := by
  have hu : exec .commitPoint s = .next
      ⟨({ s.dev with scene := { s.dev.scene with admQ := rest } }.commitTxn t).closeDecision, s.pending⟩ := by
    show s.dev! commitPoint = _
    rw [State.dev!_next]
    unfold commitPoint
    rw [hq]
  subst hnew
  rw [hu] at he
  rw [← Host.Outcome.next.inj he]
  simp only [Dev.closeDecision_frame]
  rw [Dev.commitTxn_depth (d := { s.dev with scene := { s.dev.scene with admQ := rest } }) hecc hc h]

theorem le_foldl_max {l : List Nat} {i : Nat} : i ≤ l.foldl max i := by
  induction l generalizing i with
  | nil => exact Nat.le_refl i
  | cons a l ih => exact (Nat.le_max_left i a).trans ih

theorem le_foldl_max_of_mem {l : List Nat} {i n : Nat} (h : n ∈ l) : n ≤ l.foldl max i := by
  induction l generalizing i with
  | nil => cases h
  | cons a l ih =>
    rcases List.mem_cons.mp h with rfl | h
    · exact (Nat.le_max_right i n).trans le_foldl_max
    · exact ih h

/-- A canvas has at least the layers of each of its bands. -/
theorem maxLayers_le_layers {d : Dev} {t : Tables} {r : CanvasRegs} {b : Nat} (hb : b < cBands r) :
    maxLayers ((t.placed r).filterMap (Placed.clip (b * cB r) (min (b * cB r + cB r) (cH r)))) ≤ (d.fig t r).layers :=
  le_foldl_max_of_mem (List.mem_map.mpr ⟨d.bandFig r (t.placed r) b, List.mem_map.mpr ⟨b, List.mem_range.mpr hb, rfl⟩, rfl⟩)

/-- A surface of 64 by 64 pixels at address `a`. -/
def flipSurf (a : Quad) : SurfImg := { valid := true, width := 64, height := 64, pitch0 := 256, addr0 := a }
/-- A window of 16 by 16 pixels at the wall's origin, latched. -/
def stackedWin : WinImg := { valid := true, latch := true, dstW := 16, dstH := 16, srcW := 256, srcH := 256 }
/-- A transaction that moves the plane of surface 0. -/
def flipTxn : Txn := { entries := [⟨1, .surface 0 (flipSurf 256)⟩] }
/-- Canvas 0 runs with 65 windows over one another, and `flipTxn` is at the head of admission. -/
def flipAtDepth : Dev := { asked flipTxn with scene :=
  { admQ := [.txn flipTxn], baseWins := (List.range 65).map fun i => (i, stackedWin), baseSurfs := [(0, flipSurf 0)] } }
/-- The tables that `flipTxn` would leave. -/
def flipTables : Tables := (flipAtDepth.admTables.putWins flipTxn.change.wins).putSurfs flipTxn.change.surfs

theorem flipAtDepth_flips : isFlip flipAtDepth.admTables flipTables (flipAtDepth.realChange flipAtDepth.admTables flipTxn.change) = true := by
  decide +kernel

theorem flipAtDepth_passes : lowestRefuse (flipAtDepth.txnFails flipTxn flipAtDepth.admTables flipTables) = none := by
  decide +kernel

theorem flipAtDepth_affects :
    flipAtDepth.affected flipAtDepth.admTables flipTables (flipAtDepth.realChange flipAtDepth.admTables flipTxn.change) [] = [0] := by
  decide +kernel

/-- The parts of the 65 windows in the canvas's first band. -/
def flipBand : List Placed :=
  let r := flipAtDepth.regsAfter (flipAtDepth.realChange flipAtDepth.admTables flipTxn.change) [] 0
  (flipTables.placed r).filterMap (Placed.clip (0 * cB r) (min (0 * cB r + cB r) (cH r)))

theorem flipBand_stacked : flipBand.all (fun p => decide (p.l = 0) && decide (p.rr = 16) && decide (p.t = 0) && decide (p.bb = 16)) = true := by
  decide +kernel

theorem flipBand_length : flipBand.length = 65 := by
  decide +kernel

/-- Placed windows that share their first pixel are layers there, all of them. -/
theorem length_le_maxLayers {ps : List Placed} {a : Placed} (ha : a ∈ ps)
    (h : ∀ p ∈ ps, p.l ≤ a.l ∧ a.l < p.rr ∧ p.t ≤ a.t ∧ a.t < p.bb) : ps.length ≤ maxLayers ps := by
  refine le_foldl_max_of_mem (List.mem_flatMap.mpr ⟨a, ha, List.mem_map.mpr ⟨a, ha, ?_⟩⟩)
  rw [List.filter_eq_self.mpr]
  intro p hp
  obtain ⟨hl, hrr, ht, hbb⟩ := h p hp
  simp [hl, hrr, ht, hbb]

theorem flipAtDepth_layers : 64 < (flipAtDepth.cand flipTables
    (flipAtDepth.regsAfter (flipAtDepth.realChange flipAtDepth.admTables flipTxn.change) [] 0) 0).fig.layers := by
  have hpix : ∀ p ∈ flipBand, p.l = 0 ∧ p.rr = 16 ∧ p.t = 0 ∧ p.bb = 16 := by
    simpa [and_assoc] using flipBand_stacked
  obtain ⟨a, ha⟩ := List.exists_mem_of_length_pos (l := flipBand) (by rw [flipBand_length]; decide)
  have hband : flipBand.length ≤ maxLayers flipBand := by
    refine length_le_maxLayers ha fun p hp => ?_
    obtain ⟨hl, -, ht, -⟩ := hpix a ha
    obtain ⟨hl', hrr', ht', hbb'⟩ := hpix p hp
    omega
  rw [flipBand_length] at hband
  exact Nat.lt_of_lt_of_le hband (maxLayers_le_layers (d := flipAtDepth) (b := 0) (by decide +kernel))

/-- Refutes O31: a flip that passes R51's checks is refused all the same where a canvas that it affects has more than 64 layers
at a pixel, which the statement's premises do not exclude. -/
theorem not_commitPointAdmitsOrRefuses : ¬ Obligations.CommitPointAdmitsOrRefuses := by
  unfold Obligations.CommitPointAdmitsOrRefuses
  intro h
  obtain ⟨u, he, -, -, -, hadmit⟩ := h flipTxn [] flipTables ⟨flipAtDepth, []⟩ rfl rfl rfl
  obtain ⟨-, -, -, -, a, hflight, -⟩ := hadmit _ _ rfl rfl (by rw [flipAtDepth_affects]; simp) flipAtDepth_passes (.inl flipAtDepth_flips)
  have hstay := exec_commitPoint_depth (s := ⟨flipAtDepth, []⟩) (t := flipTxn) (rest := []) (c := 0) (new := flipTables) rfl rfl rfl
    (by rw [flipAtDepth_affects]; exact List.mem_singleton_self 0) flipAtDepth_layers he
  rw [hstay] at hflight
  exact absurd hflight.symm (List.append_right_eq_self.not.mpr (List.cons_ne_nil a []))

/-! ## O32: which canvases a re-evaluation records -/

theorem markCand_c (c : Nat) (l : List Cand) : (markCand c l).map (·.c) = l.map (·.c) := by
  simp only [markCand, List.map_map]
  refine List.map_congr_left fun x _ => ?_
  dsimp only [Function.comp]
  split <;> rfl

theorem demoteUntil_c (s : Sums) (n : Nat) (l : List Cand) : (demoteUntil s n l).map (·.c) = l.map (·.c) := by
  induction n generalizing l with
  | zero => rfl
  | succ n ih =>
    unfold demoteUntil
    split
    · split
      · exact (ih _).trans (markCand_c _ l)
      · rfl
    · rfl

/-- Testing one promotion keeps the canvases. -/
theorem promote_c (s : Sums) (l : List Cand) : (promote s l).map (·.c) = l.map (·.c) := by
  unfold promote
  generalize List.foldl (fun o x => insertCand x o) [] _ = order
  dsimp only
  induction order generalizing l with
  | nil => rfl
  | cons x order ih =>
    refine (ih _).trans ?_
    dsimp only
    split
    · rw [List.map_map]
      refine List.map_congr_left fun y _ => ?_
      dsimp only [Function.comp]
      split <;> rfl
    · rfl

theorem Cand.record_txn (x : Cand) (old : LdgRec) : (x.record none old).txn = old.txn := by
  unfold Cand.record
  exact (apply_ite LdgRec.txn ..).trans (ite_self _)

/-- A decision under no transaction leaves a canvas's state, mode and `TXN`, and every other canvas. -/
theorem Dev.recordCand_none (w : Decider) (x : Cand) (d : Dev) (c : Nat) :
    (c ≠ x.c → (d.recordCand w none x).canvas c = d.canvas c) ∧
    ((d.recordCand w none x).canvas c).state = (d.canvas c).state ∧ ((d.recordCand w none x).canvas c).mode = (d.canvas c).mode ∧
    ((d.recordCand w none x).canvas c).ldg.txn = (d.canvas c).ldg.txn := by
  unfold Dev.recordCand
  by_cases hc : c = x.c
  · subst hc
    refine ⟨fun h => absurd rfl h, by simp, by simp, ?_⟩
    rw [Dev.canvas_setCanvas]
    exact x.record_txn _
  · simp [Dev.canvas_setCanvas_ne _ _ hc]

/-- As of one decision, of the decisions over a list of canvases. -/
theorem Dev.recordCands_none (w : Decider) (l : List Cand) (d : Dev) (c : Nat) :
    (c ∉ l.map (·.c) → (l.foldl (Dev.recordCand w none) d).canvas c = d.canvas c) ∧
    ((l.foldl (Dev.recordCand w none) d).canvas c).state = (d.canvas c).state ∧
    ((l.foldl (Dev.recordCand w none) d).canvas c).mode = (d.canvas c).mode ∧
    ((l.foldl (Dev.recordCand w none) d).canvas c).ldg.txn = (d.canvas c).ldg.txn := by
  induction l generalizing d with
  | nil => exact ⟨fun _ => rfl, rfl, rfl, rfl⟩
  | cons x l ih =>
    obtain ⟨hne, hst, hmode, htxn⟩ := Dev.recordCand_none w x d c
    obtain ⟨hne', hst', hmode', htxn'⟩ := ih (d.recordCand w none x)
    refine ⟨fun h => ?_, hst'.trans hst, hmode'.trans hmode, htxn'.trans htxn⟩
    obtain ⟨hx, hl⟩ := not_or.mp (mt List.mem_cons.mpr h)
    exact (hne' hl).trans (hne hx)

theorem Dev.closeDecision_seq (d : Dev) : d.closeDecision.ledger.seq = d.ledger.seq + 1 := by
  unfold Dev.closeDecision
  dsimp only
  split <;> rfl

/-- What a re-evaluation leaves as it is. -/
theorem Dev.reevaluate_spec (cause : Nat) {d y : Dev} (hc : y.canvases = d.canvases) (hl : y.ledger = d.ledger) :
    (y.reevaluate cause).scene = y.scene ∧
    (y.reevaluate cause).ledger.seq = d.ledger.seq + 1 ∧ (∀ c, c ∉ d.live → (y.reevaluate cause).canvas c = d.canvas c) ∧
    ∀ c, ((y.reevaluate cause).canvas c).state = (d.canvas c).state ∧ ((y.reevaluate cause).canvas c).mode = (d.canvas c).mode ∧
      ((y.reevaluate cause).canvas c).ldg.txn = (d.canvas c).ldg.txn := by
  unfold Dev.reevaluate
  generalize he : (if y.clk.change = 4 then { y with clk := { y.clk with ledger := y.cclkTarget, change := 0 } } else y) = e
  have hcanv : e.canvases = d.canvases := by rw [← he, ← hc]; split <;> rfl
  have hscene : e.scene = y.scene := by rw [← he]; split <;> rfl
  have hledger : e.ledger = d.ledger := by rw [← he, ← hl]; split <;> rfl
  have hlive : e.live = d.live := by unfold Dev.live; rw [hcanv]
  dsimp only
  generalize hl : promote _ _ = l
  have hcs : l.map (·.c) = d.live := by
    rw [← hl, promote_c, demoteUntil_c, List.map_map, ← hlive]
    exact List.map_id _
  have hk (c : Nat) : ((l.foldl (Dev.recordCand { cause := cause } none) e).closeDecision).canvas c =
      (l.foldl (Dev.recordCand { cause := cause } none) e).canvas c := Dev.canvas_congr (by simp) c
  have hspec := Dev.recordCands_none { cause := cause } l e
  refine ⟨by simp [hscene], ?_, fun c hc => ?_, fun c => ?_⟩
  · rw [Dev.closeDecision_seq]
    simp [hledger]
  · obtain ⟨hne, -⟩ := hspec c
    rw [hk, hne (hcs ▸ hc), Dev.canvas_congr hcanv]
  · obtain ⟨-, hrest⟩ := hspec c
    rw [hk, ← Dev.canvas_congr hcanv]
    exact hrest

/-- The re-evaluation at the head of admission leaves it, and is decided. -/
theorem exec_reevaluation {s : State} {cause : Nat} {rest : List AdmReq} (h : s.dev.scene.admQ = .reeval cause :: rest) :
    ∃ e : Dev, e.canvases = s.dev.canvases ∧ e.ledger = s.dev.ledger ∧ e.scene = { s.dev.scene with admQ := rest } ∧
      exec .reevaluation s = .next ⟨e.reevaluate cause, s.pending⟩ := by
  refine ⟨{ s.dev with scene := { s.dev.scene with admQ := rest } }, rfl, rfl, rfl, ?_⟩
  show s.dev! reevaluation = _
  rw [State.dev!_next]
  unfold reevaluation
  rw [h]

/-- Settles O32: the two writes that ask, and the decision at the head of admission. -/
theorem reevaluationsAreAskedAndDecided : Obligations.ReevaluationsAreAskedAndDecided := by
  unfold Obligations.ReevaluationsAreAskedAndDecided
  refine fun s => ⟨fun m hm => ?_, fun m w hm ha => ?_, fun cause rest hq => ?_⟩
  · refine ⟨⟨askReeval 5 s.dev, s.pending⟩, ?_, rfl, by simp [Dev.onlyChanges_iff, askReeval]⟩
    show s.dev! (Dev.regWrite m .ldg 0 LDG_CTL 1) = _
    rw [State.dev!_next, Dev.regWrite_reeval hm]
  · refine ⟨⟨askReeval 4 ((s.dev.setArm 8 m false).setReg .ldg 0 LDG_DERATE (w.setWidth 32)), s.pending⟩, ?_, rfl, ?_, ?_, ?_, ?_⟩
    · show s.dev! (Dev.regWrite m .ldg 0 LDG_DERATE (w.setWidth 32)) = _
      rw [State.dev!_next, Dev.regWrite_derate hm ha]
    · exact Dev.reg_setReg ..
    · exact Dev.armed_setArm 8 m false s.dev
    · exact fun a hne => Dev.effAt_setEffAt_ne _ _ hne
    · simp [Dev.onlyChanges_iff, askReeval]
  · obtain ⟨e, hcanv, hledger, hscene, he⟩ := exec_reevaluation hq
    obtain ⟨hsc, hrest⟩ := Dev.reevaluate_spec cause hcanv hledger
    refine ⟨_, he, ?_⟩
    dsimp only
    exact ⟨hsc.trans hscene, hrest⟩

end Sys2Proof.Machine
end

section
/-!
PROOF of O33: a frame, line by line.
-/
namespace Sys2Proof.Machine
set_option Elab.async false

/-- What a map that keeps its keys makes of a value looked up, where it may leave the value as it is. -/
theorem FMap.get_map_rel {α : Type} {R : α → α → Prop} (hrefl : ∀ a, R a a) (g : Nat → α → α) (hg : ∀ k a, R a (g k a)) (d : Nat → α)
    (m : FMap α) (k : Nat) : R (FMap.get d m k) (FMap.get d (m.map fun e => (e.1, g e.1 e.2)) k) := by
  unfold FMap.get
  induction m with
  | nil => exact hrefl _
  | cons e m ih =>
    simp only [List.map_cons, List.find?_cons]
    by_cases h : e.1 == k
    · simpa only [h] using hg e.1 e.2
    · simpa only [h] using ih

/-! ## What a watch for underruns leaves -/

theorem Dev.canvases_watchUnderrun (c y : Nat) (k : Dev → Dev) (d : Dev) : (d.watchUnderrun c y k).canvases = (k d).canvases := by
  unfold Dev.watchUnderrun
  dsimp only
  split <;> rfl

theorem Dev.ports_watchUnderrun (c y : Nat) (k : Dev → Dev) (d : Dev) : (d.watchUnderrun c y k).ports = (k d).ports := by
  unfold Dev.watchUnderrun
  dsimp only
  split <;> rfl

/-! ## The generator and the lines -/

/-- The generator of a STARTING canvas without frame lock starts. -/
theorem generatorStart_spec {c : CanvasNo} {s : State} (hs : (s.dev.canvas c).state = .starting) (hg : (s.dev.canvas c).gen = false)
    (hl : (s.dev.canvas c).lock.lstate = .none) :
    ∃ u, exec (.generatorStart c) s = .next u ∧ (u.dev.canvas c).gen = true ∧ (u.dev.canvas c).fsNow = s.dev.now ∧
      (u.dev.canvas c).state = .starting ∧ (u.dev.canvas c).raster.h = cH (s.dev.cregs c) ∧
      ∀ k, k ≠ c.val → u.dev.canvas k = s.dev.canvas k := by
  have he : exec (.generatorStart c) s = .next ⟨s.dev.setCanvas c { s.dev.canvas c with
      gen := true, fsNow := s.dev.now, fsTb := s.dev.time, raster := s.dev.rasterOf (s.dev.cregs c),
      period := (s.dev.rasterOf (s.dev.cregs c)).period }, s.pending⟩ := by
    show execGeneratorStart c s = _
    rw [execGeneratorStart, State.dev!_next]
    dsimp only
    rw [hs, hg, hl]
    rfl
  refine ⟨_, he, ?_⟩
  dsimp only
  rw [Dev.canvas_setCanvas]
  exact ⟨rfl, rfl, hs, rfl, fun k hk => Dev.canvas_setCanvas_ne _ _ hk⟩

/-- A line that falls due is taken from the scan buffer, or found absent. -/
theorem Dev.lineFalls_spec {c y : Nat} {d : Dev} {k : Canvas}
    (hk : k = if (d.canvas c).state = .running ∧ y = 0 then { d.canvas c with started := false, lines := [] } else d.canvas c) :
    ((d.lineFalls c y).canvas c).lines = k.lines ++ [k.lineAt k.dueFrame y] ∧
      ((d.lineFalls c y).canvas c).nextDue = y + 1 ∧ ((d.lineFalls c y).canvas c).state = (d.canvas c).state ∧
      ((d.lineFalls c y).canvas c).scan = (d.canvas c).scan ∧
      ((k.lineAt k.dueFrame y).isSome → (d.lineFalls c y).ports = d.ports) ∧
      ∀ j, j ≠ c → (d.lineFalls c y).canvas j = d.canvas j := by
  have hst : k.state = (d.canvas c).state := by rw [hk]; split <;> rfl
  have hsc : k.scan = (d.canvas c).scan := by rw [hk]; split <;> rfl
  unfold Dev.lineFalls
  simp only [Bool.and_eq_true, decide_eq_true_eq]
  rw [← hk]
  have hcanv (e : Dev) (ns : List Nat) (j : Nat) : (e.countAbsent ns).canvas j = e.canvas j := Dev.canvas_congr (by simp) j
  cases k.lineAt k.dueFrame y with
  | some ws =>
    simp only [Option.isNone_some, Bool.false_eq_true, if_false, Dev.canvas_setCanvas]
    exact ⟨trivial, trivial, hst, hsc, fun _ => rfl, fun j hj => Dev.canvas_setCanvas_ne _ _ hj⟩
  | none =>
    simp only [Option.isNone_none, if_true, hcanv, Dev.canvas_setCanvas]
    exact ⟨trivial, trivial, hst, hsc, nofun, fun j hj => Dev.canvas_setCanvas_ne _ _ hj⟩

theorem exec_lineDue {c : CanvasNo} {s : State} {y : Nat} (hy : s.dev.lineToCome c = some y) :
    exec (.lineDue c) s = .next ⟨s.dev.watchUnderrun c y (Dev.lineFalls c y), s.pending⟩ := by
  show execLineDue c s = _
  rw [execLineDue, State.dev!_next, hy]

/-! ## The start of a frame -/

/-- The frame that a canvas is in, and what it has sent of it, stay. -/
def Canvas.sameFrame (x y : Canvas) : Prop :=
  y.state = x.state ∧ y.started = x.started ∧ y.fsNow = x.fsNow ∧ y.fsTb = x.fsTb ∧ y.lines = x.lines ∧ y.scanFrame = x.scanFrame

theorem Canvas.sameFrame_refl (x : Canvas) : x.sameFrame x := ⟨rfl, rfl, rfl, rfl, rfl, rfl⟩

theorem Canvas.sameFrame_trans {x y z : Canvas} (h : x.sameFrame y) (h' : y.sameFrame z) : x.sameFrame z := by
  obtain ⟨h₁, h₂, h₃, h₄, h₅, h₆⟩ := h
  obtain ⟨h₁', h₂', h₃', h₄', h₅', h₆'⟩ := h'
  exact ⟨h₁'.trans h₁, h₂'.trans h₂, h₃'.trans h₃, h₄'.trans h₄, h₅'.trans h₅, h₆'.trans h₆⟩

/-- A canvas whose record is replaced by one in the same frame stays in its frame, whichever canvas that is. -/
theorem Dev.setCanvas_sameFrame {d : Dev} {c j : Nat} {x : Canvas} (h : (d.canvas j).sameFrame x) :
    (d.canvas c).sameFrame ((d.setCanvas j x).canvas c) := by
  by_cases hc : c = j
  · subst hc
    rwa [Dev.canvas_setCanvas]
  · rw [Dev.canvas_setCanvas_ne _ _ hc]
    exact Canvas.sameFrame_refl _

theorem Dev.masterBack_sameFrame (m c : Nat) (d : Dev) : (d.canvas c).sameFrame ((d.masterBack m).canvas c) := by
  unfold Dev.masterBack
  generalize d.slaves m = l
  induction l generalizing d with
  | nil => exact Canvas.sameFrame_refl _
  | cons j l ih =>
    refine Canvas.sameFrame_trans ?_ (ih _)
    dsimp only
    split
    · exact Dev.setCanvas_sameFrame ⟨rfl, rfl, rfl, rfl, rfl, rfl⟩
    · exact Canvas.sameFrame_refl _

theorem Dev.measureLock_sameFrame (j c : Nat) (d : Dev) : (d.canvas c).sameFrame ((d.measureLock j).canvas c) := by
  unfold Dev.measureLock
  dsimp only
  split
  · exact Canvas.sameFrame_refl _
  · exact Canvas.sameFrame_refl _
  · exact Canvas.sameFrame_refl _
  · exact Dev.setCanvas_sameFrame ⟨rfl, rfl, rfl, rfl, rfl, rfl⟩

theorem Dev.phaseFrame_sameFrame (j c : Nat) (d : Dev) : (d.canvas c).sameFrame ((d.phaseFrame j).canvas c) := by
  unfold Dev.phaseFrame
  exact Canvas.sameFrame_trans (Dev.measureLock_sameFrame j c d) (Dev.setCanvas_sameFrame ⟨rfl, rfl, rfl, rfl, rfl, rfl⟩)

theorem Dev.reference_sameFrame (src m c : Nat) (d : Dev) : (d.canvas c).sameFrame ((d.reference src m).canvas c) := by
  have hmap : (d.reference src m).canvases = d.canvases.map fun e => (e.1,
      if bits (d.reg .cnv e.1 CNV_LOCK) 31 30 = src ∧ (src ≠ 3 ∨ bits (d.reg .cnv e.1 CNV_LOCK) 22 16 = m) then
        { e.2 with lock := e.2.lock.event (bits (d.reg .cnv e.1 CNV_LOCK) 9 0) d.time } else e.2) := by
    unfold Dev.reference
    refine List.map_congr_left fun e _ => ?_
    dsimp only
    split <;> rfl
  unfold Dev.canvas
  rw [hmap]
  refine FMap.get_map_rel Canvas.sameFrame_refl (fun k x => if bits (d.reg .cnv k CNV_LOCK) 31 30 = src ∧
    (src ≠ 3 ∨ bits (d.reg .cnv k CNV_LOCK) 22 16 = m) then
      { x with lock := x.lock.event (bits (d.reg .cnv k CNV_LOCK) 9 0) d.time } else x) (fun k x => ?_) _ _ c
  split
  · exact ⟨rfl, rfl, rfl, rfl, rfl, rfl⟩
  · exact Canvas.sameFrame_refl _

theorem Dev.modeFrame_sameFrame (j c : Nat) (b : Bool) (d : Dev) : (d.canvas c).sameFrame ((d.modeFrame j b).canvas c) := by
  unfold Dev.modeFrame
  dsimp only
  split
  · exact Canvas.sameFrame_refl _
  · split
    · exact Canvas.sameFrame_refl _
    · split
      · have hn (e : Dev) (n : Notice) : (e.notice 0 n).canvas c = e.canvas c := Dev.canvas_congr (by simp) c
        rw [hn]
        exact Dev.setCanvas_sameFrame ⟨rfl, rfl, rfl, rfl, rfl, rfl⟩
      · exact Dev.setCanvas_sameFrame ⟨rfl, rfl, rfl, rfl, rfl, rfl⟩

/-- The record of a canvas whose frame begins. -/
theorem Dev.beginFrame_canvas (c : Nat) (d : Dev) : ((d.beginFrame c).canvas c).state = .running ∧
    ((d.beginFrame c).canvas c).started = true ∧ ((d.beginFrame c).canvas c).fsNow = d.now ∧
    ((d.beginFrame c).canvas c).fsTb = d.time ∧ ((d.beginFrame c).canvas c).lines = (d.canvas c).lines ∧
    ((d.beginFrame c).canvas c).scanFrame = (if (d.canvas c).state = .starting then 0 else (d.canvas c).scanFrame + 1) := by
  unfold Dev.beginFrame
  simp only [Dev.canvas_setCanvas]
  exact ⟨trivial, trivial, trivial, trivial, trivial, trivial⟩

/-- All that follows the beginning of a frame leaves the frame as it began. -/
theorem Dev.frameStarts_sameFrame (c : Nat) (d : Dev) : ((d.beginFrame c).canvas c).sameFrame ((d.frameStarts c).canvas c) := by
  have hlocks (b : Bool) (e : Dev) : ((e.beginFrame c).canvas c).sameFrame ((e.frameLocks c b).canvas c) := by
    unfold Dev.frameLocks
    refine Canvas.sameFrame_trans ?_ (Canvas.sameFrame_trans (Dev.phaseFrame_sameFrame c c _) (Dev.reference_sameFrame 3 c c _))
    rw [← Dev.canvas_congr (Dev.canvases_watchUnderrun c 0 (Dev.beginFrame c) e)]
    cases b with
    | true => exact Dev.masterBack_sameFrame c c _
    | false => exact Canvas.sameFrame_refl _
  have hrest (b : Bool) (e : Dev) (n : Nat) : (((e.frameShows c b).frameFollows c b).vsync c n).canvas c = (e.modeFrame c b).canvas c :=
    Dev.canvas_congr (by simp [Dev.frameShows, Dev.frameFollows]) c
  unfold Dev.frameStarts
  dsimp only
  rw [hrest]
  exact Canvas.sameFrame_trans (hlocks _ d) (Dev.modeFrame_sameFrame ..)

theorem frameStart_spec {c : CanvasNo} {s : State} (h : s.dev.frameDue c = true) :
    ∃ u, exec (.frameStart c) s = .next u ∧ (u.dev.canvas c).state = .running ∧ (u.dev.canvas c).started = true ∧
      (u.dev.canvas c).fsNow = s.dev.now ∧ (u.dev.canvas c).fsTb = s.dev.time ∧ (u.dev.canvas c).lines = (s.dev.canvas c).lines ∧
      (u.dev.canvas c).scanFrame = (if (s.dev.canvas c).state = .starting then 0 else (s.dev.canvas c).scanFrame + 1) := by
  have he : exec (.frameStart c) s = .next ⟨s.dev.frameStarts c, s.pending⟩ := by
    show execFrameStart c s = _
    rw [execFrameStart, State.dev!_next, h, Dev.when_true]
  refine ⟨_, he, ?_⟩
  obtain ⟨h₁, h₂, h₃, h₄, h₅, h₆⟩ := Dev.frameStarts_sameFrame c s.dev
  obtain ⟨h₁', h₂', h₃', h₄', h₅', h₆'⟩ := Dev.beginFrame_canvas c s.dev
  exact ⟨h₁.trans h₁', h₂.trans h₂', h₃.trans h₃', h₄.trans h₄', h₅.trans h₅', h₆.trans h₆'⟩

/-! ## The end of active video -/

/-- A canvas that enters RELINK returns its scan buffer. -/
theorem Dev.enterRelink_canvas (c : Nat) (d : Dev) : ((d.enterRelink c).canvas c).state = .relink ∧
    ((d.enterRelink c).canvas c).allocated = false ∧ ((d.enterRelink c).canvas c).blocks = 0 ∧
    ((d.enterRelink c).canvas c).scan = [] := by
  unfold Dev.enterRelink
  dsimp only
  have hcanv (e : Dev) (l : List Nat) :
      (((l.foldl (fun d n => d.awaitSettle n) e).idlePorts c).killBands c none).stagingFreed.canvas c = e.canvas c :=
    Dev.canvas_congr (by simp) c
  rw [hcanv, Dev.canvas_setCanvas]
  exact ⟨rfl, rfl, rfl, rfl⟩

theorem Dev.videoEnds_spec (c : Nat) (d : Dev) :
    ((d.canvas c).relinkAt = false → (d.videoEnds c).canvases = (d.setCanvas c { d.canvas c with nextDue := (d.canvas c).raster.h + 1 }).canvases) ∧
    ((d.canvas c).relinkAt = true → ∃ e : Dev, d.videoEnds c = e.enterRelink c) := by
  unfold Dev.videoEnds
  dsimp only
  cases (d.canvas c).relinkAt with
  | false => exact ⟨fun _ => by simp, nofun⟩
  | true => exact ⟨nofun, fun _ => ⟨_, rfl⟩⟩

theorem activeVideoEnd_spec {c : CanvasNo} {s : State} (hs : (s.dev.canvas c).state = .running) (hst : (s.dev.canvas c).started = true)
    (hn : (s.dev.canvas c).nextDue = (s.dev.canvas c).raster.h) :
    ∃ u, exec (.activeVideoEnd c) s = .next u ∧
      ((s.dev.canvas c).relinkAt = false → (u.dev.canvas c).nextDue = (s.dev.canvas c).raster.h + 1 ∧
        (u.dev.canvas c).state = .running ∧
        (u.dev.canvas c).scanFrame = (s.dev.canvas c).scanFrame ∧ ∀ k, k ≠ c.val → u.dev.canvas k = s.dev.canvas k) ∧
      ((s.dev.canvas c).relinkAt = true → (u.dev.canvas c).state = .relink ∧ (u.dev.canvas c).allocated = false ∧
        (u.dev.canvas c).blocks = 0 ∧ (u.dev.canvas c).scan = []) := by
  have he : exec (.activeVideoEnd c) s = .next ⟨s.dev.videoEnds c, s.pending⟩ := by
    show execActiveVideoEnd c s = _
    rw [execActiveVideoEnd, State.dev!_next]
    dsimp only
    rw [if_neg (by simp [Dev.relinksEarly, hs]), hs, hst, hn]
    simp
  refine ⟨_, he, ?_⟩
  obtain ⟨hstay, hrelink⟩ := Dev.videoEnds_spec c s.dev
  dsimp only
  refine ⟨fun hr => ?_, fun hr => ?_⟩
  · have hc := Dev.canvas_congr (hstay hr)
    rw [hc, Dev.canvas_setCanvas]
    exact ⟨rfl, hs, rfl, fun k hk => (hc k).trans (Dev.canvas_setCanvas_ne _ _ hk)⟩
  · obtain ⟨e, hend⟩ := hrelink hr
    rw [hend]
    exact e.enterRelink_canvas c

/-- A Parison buffer that is whole waits to be shown. -/
theorem parisonFrameComplete_spec {c : CanvasNo} {s : State} {b : Nat} (hw : (s.dev.canvas c).par.writing = some b)
    (hl : (s.dev.canvas c).par.left = 0) :
    ∃ u, exec (.parisonFrameComplete c) s = .next u ∧ (u.dev.canvas c).par.ready = some b ∧
      (u.dev.canvas c).par.writing = none ∧ (u.dev.canvas c).par.shown = (s.dev.canvas c).par.shown ∧
      ∀ k, k ≠ c.val → u.dev.canvas k = s.dev.canvas k := by
  have he : exec (.parisonFrameComplete c) s = .next ⟨s.dev.setCanvas c { s.dev.canvas c with
      par := { (s.dev.canvas c).par with ready := some b, writing := none } }, s.pending⟩ := by
    show execParisonFrameComplete c s = _
    rw [execParisonFrameComplete, State.dev!_next]
    dsimp only
    rw [hw, hl]
    rfl
  refine ⟨_, he, ?_⟩
  dsimp only
  rw [Dev.canvas_setCanvas]
  exact ⟨rfl, rfl, rfl, fun k hk => Dev.canvas_setCanvas_ne _ _ hk⟩

/-- Settles O33: each event of a frame, by the canvas's state. -/
theorem framesRunLineByLine : Obligations.FramesRunLineByLine := by
  unfold Obligations.FramesRunLineByLine
  rintro c _ s rfl
  refine ⟨fun hs hg hl => generatorStart_spec hs hg hl, fun y k hy hk => ⟨_, exec_lineDue hy, ?_⟩, fun h => frameStart_spec h,
    fun hs hst hn => activeVideoEnd_spec hs hst hn, fun b hw hl => parisonFrameComplete_spec hw hl⟩
  dsimp only
  obtain ⟨hlines, hdue, hst, hscan, hports, hne⟩ := Dev.lineFalls_spec hk
  have hc (j : Nat) := Dev.canvas_congr (Dev.canvases_watchUnderrun c y (Dev.lineFalls c y) s.dev) j
  rw [hc]
  exact ⟨hlines, hdue, hst, hscan, fun h => (Dev.ports_watchUnderrun ..).trans (hports h), fun j hj => (hc j).trans (hne j hj)⟩

end Sys2Proof.Machine
end

section
/-!
PROOF of O34: bands are released, dealt, fetched and escalated.
-/
namespace Sys2Proof.Machine
set_option Elab.async false

/-! ## Folds that update one unit after another -/

/-- A fold whose steps update distinct units: each listed unit is updated once, and the others stay. -/
theorem foldl_each {σ ι β : Type} {get : σ → Nat → β} {step : σ → ι → σ} {idx : ι → Nat} {F : ι → β → β}
    (hself : ∀ d k, get (step d k) (idx k) = F k (get d (idx k))) (hne : ∀ d k j, j ≠ idx k → get (step d k) j = get d j)
    {l : List ι} (hl : (l.map idx).Nodup) (d : σ) :
    (∀ k ∈ l, get (l.foldl step d) (idx k) = F k (get d (idx k))) ∧ ∀ j, j ∉ l.map idx → get (l.foldl step d) j = get d j := by
  induction l generalizing d with
  | nil => exact ⟨nofun, fun _ _ => rfl⟩
  | cons a l ih =>
    obtain ⟨ha, hl⟩ := List.nodup_cons.mp hl
    obtain ⟨hin, hout⟩ := ih hl (step d a)
    refine ⟨fun k hk => ?_, fun j hj => ?_⟩
    · rcases List.mem_cons.mp hk with rfl | hk
      · exact (hout _ ha).trans (hself d k)
      · have hka : idx k ≠ idx a := fun e => ha (e ▸ List.mem_map_of_mem hk)
        rw [List.foldl_cons, hin k hk, hne d a _ hka]
    · obtain ⟨hja, hjl⟩ := not_or.mp (mt List.mem_cons.mpr hj)
      exact (hout j hjl).trans (hne d a j hja)

theorem Dev.pipe_congr {a b : Dev} (h : a.comp.pipes = b.comp.pipes) (p : Nat) : a.pipe p = b.pipe p := by
  unfold Dev.pipe
  rw [h]

/-- A change of every pipe changes the pipes alone. -/
theorem Dev.mapPipes_eq (f : Pipe → Pipe) (d : Dev) : ∃ ps, d.mapPipes f = { d with comp := { d.comp with pipes := ps } } := by
  unfold Dev.mapPipes
  generalize List.range 14 = l
  induction l generalizing d with
  | nil => exact ⟨_, rfl⟩
  | cons p l ih =>
    obtain ⟨ps, hps⟩ := ih (d.setPipe p (f (d.pipe p)))
    exact ⟨ps, hps⟩

theorem Dev.eachHold_eq (h : Held) (f : Held → Held) (d : Dev) :
    ∃ ps, d.eachHold h f = { d with comp := { d.comp with pipes := ps } } := by
  unfold Dev.eachHold
  exact Dev.mapPipes_eq _ d

theorem Dev.pipe_mapPipes {p : Nat} (hp : p < 14) (f : Pipe → Pipe) (d : Dev) : (d.mapPipes f).pipe p = f (d.pipe p) := by
  refine (foldl_each (get := Dev.pipe) (idx := id) (F := fun _ => f) (fun d k => Dev.pipe_setPipe ..)
    (fun d k j hj => Dev.pipe_setPipe_ne _ _ hj) ?_ d).1 p (List.mem_range.mpr hp)
  rw [List.map_id]
  exact List.nodup_range

/-! ## The units of a pipe -/

theorem unit_inj {p q k j : Nat} (hk : k < 8) (hj : j < 8) (h : 8 * p + k = 8 * q + j) : p = q ∧ k = j := by omega

theorem nodup_units (p : Nat) {l : List Nat} (hl : l.Nodup) : (l.map (8 * p + ·)).Nodup :=
  hl.map fun _ _ h => Nat.add_left_cancel h

/-- The units of pipe `p` start to fetch; those of the other pipes stay. -/
theorem Dev.startGather_spec (p : Nat) (h : Held) (lo : Nat) (d : Dev) :
    (∀ k, k < 8 → ((d.startGather p h lo).gather (8 * p + k)).todo = h.pieces k lo h.endLine) ∧
    (∀ g, g / 8 ≠ p → (d.startGather p h lo).gather g = d.gather g) ∧ (d.startGather p h lo).comp.pipes = d.comp.pipes ∧
    (d.startGather p h lo).comp.deal = d.comp.deal ∧ (d.startGather p h lo).comp.resumed = d.comp.resumed := by
  have hfold := foldl_each (get := Dev.gather) (idx := fun k => 8 * p + k) (F := fun k u => u.await (h.pieces k lo h.endLine))
    (step := fun d k => d.setGather (8 * p + k) ((d.gather (8 * p + k)).await (h.pieces k lo h.endLine)))
    (fun d k => Dev.gather_setGather ..) (fun d k j hj => Dev.gather_setGather_ne _ _ hj) (nodup_units p (List.nodup_range (n := 8))) d
  obtain ⟨hin, hout⟩ := hfold
  refine ⟨fun k hk => ?_, fun g hg => ?_, ?_⟩
  · exact congrArg Gather.todo (hin k (List.mem_range.mpr hk))
  · refine hout g fun hmem => ?_
    obtain ⟨k, hk, rfl⟩ := List.mem_map.mp hmem
    have := List.mem_range.mp hk
    omega
  · unfold Dev.startGather
    clear hin hout
    generalize List.range 8 = l
    induction l generalizing d with
    | nil => exact ⟨rfl, rfl, rfl⟩
    | cons k l ih => exact ih _

/-! ## Releases -/

/-- A direct band that is released joins the dealing queue. -/
theorem Dev.releaseBand_direct {c b : Nat} {latched : Bool} {d : Dev} (h : (d.canvas c).nextSrc = .direct) :
    (d.releaseBand c b latched).mem = d.mem ∧
    (∃ r, (d.releaseBand c b latched).comp.deal = d.comp.deal ++ [r] ∧ r.canvas = c ∧ r.frame = (d.canvas c).compFrame ∧ r.band = b ∧
      r.par = false) ∧
    ((d.releaseBand c b latched).canvas c).nextBand = (if b + 1 < cBands (d.cregs c) then b + 1 else 0) ∧
    ∀ k, k ≠ c → (d.releaseBand c b latched).canvas k = d.canvas k := by
  unfold Dev.releaseBand
  dsimp only
  rw [h, if_pos rfl]
  refine ⟨rfl, ⟨_, rfl, rfl, rfl, rfl, rfl⟩, ?_, fun k hk => Dev.canvas_setCanvas_ne _ _ hk⟩
  rw [Dev.canvas_setCanvas]
  split <;> rfl

theorem exec_bandRelease {c : CanvasNo} {s : State} (h : s.dev.releaseDue c = true) (hsrc : (s.dev.canvas c).nextSrc = .direct)
    (hold : (s.dev.canvas c).old = none) :
    exec (.bandRelease c) s = .next ⟨s.dev.releaseBand c (s.dev.canvas c).nextBand false, s.pending⟩ := by
  show execBandRelease c s = _
  rw [execBandRelease, State.dev!_next, h, Dev.when_true]
  dsimp only
  split
  · rename_i hb
    rw [hb, Dev.releaseFirst]
    simp [hsrc, hold]
  · rfl

/-! ## Deals -/

theorem Dev.mem_inRole {d : Dev} {r : Role} {p : Nat} : p ∈ d.inRole r ↔ p < 14 ∧ (d.pipe p).role = r := by
  simp [Dev.inRole]

/-- A pipe that takes a band holds it, whatever the spares that shadow it do. -/
theorem Dev.take_spec {p : Nat} {d : Dev} (h : Held) (hrole : (d.pipe p).role = .active) :
    ((d.take p h).pipe p).held = some h ∧ (d.take p h).comp.deal = d.comp.deal ∧ (d.take p h).comp.resumed = d.comp.resumed ∧
    (d.take p h).mem = d.mem := by
  unfold Dev.take
  generalize hy : d.setPipe p { d.pipe p with held := some h } = y
  have hheld : (y.pipe p).held = some h := by rw [← hy, Dev.pipe_setPipe]
  have hact : (y.pipe p).role = .active := by rw [← hy, Dev.pipe_setPipe]; exact hrole
  have hrest : y.comp.deal = d.comp.deal ∧ y.comp.resumed = d.comp.resumed ∧ y.mem = d.mem := by rw [← hy]; exact ⟨rfl, rfl, rfl⟩
  obtain ⟨hdeal, hres, hmem⟩ := hrest
  dsimp only
  have hnot : p ∉ (y.inRole .spare).filter fun u => y.targetOf u = some p && !y.voting u := by
    intro hin
    have hspare := (Dev.mem_inRole.mp (List.mem_filter.mp hin).1).2
    rw [hact] at hspare
    cases hspare
  generalize (y.inRole .spare).filter _ = l at hnot
  clear hy
  induction l generalizing y with
  | nil => exact ⟨hheld, hdeal, hres, hmem⟩
  | cons u l ih =>
    obtain ⟨hu, hl⟩ := not_or.mp (mt List.mem_cons.mpr hnot)
    refine ih _ ?_ ?_ hdeal hres hmem hl
    · rw [Dev.pipe_setPipe_ne _ _ hu, hheld]
    · rw [Dev.pipe_setPipe_ne _ _ hu, hact]

theorem exec_bandDeal {p : PipeNo} {s : State} (hr : (s.dev.pipe p).role = .active) (hh : (s.dev.pipe p).held = none) :
    exec (.bandDeal p) s = .next ⟨s.dev.takeNext p, s.pending⟩ := by
  show execBandDeal p s = _
  rw [execBandDeal, State.dev!_next, hr, hh]
  rfl

/-- The band dealt next leaves the queue, and where it brings no latch point and no relink applies it is taken. -/
theorem Dev.takeNext_deal {p : Nat} {d : Dev} {r : Released} (hres : d.comp.resumed = []) (hn : d.nextDeal = some r)
    (hb : r.band ≠ 0 ∨ r.par = true ∨ r.latched = true) (hrel : (d.canvas r.canvas).relinkAt = false ∨ r.par = true) :
    ∃ (e : Dev) (h : Held), d.takeNext p = e.take p h ∧ e.pipe p = d.pipe p ∧ e.comp.deal = d.comp.deal.erase r ∧ e.mem = d.mem ∧
      h.canvas = r.canvas ∧ h.frame = r.frame ∧ h.band = r.band ∧ h.par = r.par ∧ h.fetched = false := by
  refine ⟨{ d with comp := { d.comp with deal := d.comp.deal.erase r } },
    ({ d with comp := { d.comp with deal := d.comp.deal.erase r } } : Dev).newHeld r, ?_, rfl, rfl, rfl, rfl, rfl, rfl, rfl, rfl⟩
  have hnolatch : ¬ (r.band = 0 ∧ ¬ r.par = true ∧ ¬ r.latched = true) := by
    rintro ⟨h₁, h₂, h₃⟩
    rcases hb with hb | hb | hb
    · exact hb h₁
    · exact h₂ hb
    · exact h₃ hb
  unfold Dev.takeNext
  rw [hres, hn]
  dsimp only [Dev.dealBand]
  rw [if_neg hnolatch, if_neg]
  rintro ⟨h₁, h₂, -⟩
  rcases hrel with hrel | hrel
  · exact absurd (hrel.symm.trans h₁) (by decide)
  · exact h₂ hrel

theorem bandDeal_next {p : PipeNo} {s : State} {r : Released} (hr : (s.dev.pipe p).role = .active) (hh : (s.dev.pipe p).held = none)
    (hres : s.dev.comp.resumed = []) (hn : s.dev.nextDeal = some r) (hb : r.band ≠ 0 ∨ r.par = true ∨ r.latched = true)
    (hrel : (s.dev.canvas r.canvas).relinkAt = false ∨ r.par = true) :
    ∃ u, exec (.bandDeal p) s = .next u ∧ u.dev.comp.deal = s.dev.comp.deal.erase r ∧ u.dev.mem = s.dev.mem ∧
      ∃ h, (u.dev.pipe p).held = some h ∧ h.canvas = r.canvas ∧ h.frame = r.frame ∧ h.band = r.band ∧ h.par = r.par ∧
        h.fetched = false := by
  obtain ⟨e, h, htake, hpipe, hdeal, hmem, hkeep⟩ := Dev.takeNext_deal (p := p) hres hn hb hrel
  obtain ⟨hheld, hdeal', -, hmem'⟩ := Dev.take_spec (p := p) (d := e) h (by rw [hpipe]; exact hr)
  refine ⟨_, exec_bandDeal hr hh, ?_⟩
  dsimp only
  rw [htake]
  exact ⟨hdeal'.trans hdeal, hmem'.trans hmem, h, hheld, hkeep⟩

/-- An interrupted band leaves the head of the queue, and is taken first. -/
theorem Dev.takeNext_resumed {p : Nat} {d : Dev} {h : Held} {rest : List Held} (hres : d.comp.resumed = h :: rest) :
    ∃ e : Dev, d.takeNext p = (if h.wait then (e.take p { h with alive := d.time }).startGather p h h.nextLine
        else e.take p { h with alive := d.time }) ∧
      e.pipe p = d.pipe p ∧ e.comp.deal = d.comp.deal ∧ e.comp.resumed = rest := by
  refine ⟨{ d with comp := { d.comp with resumed := rest } }, ?_, rfl, rfl, rfl⟩
  unfold Dev.takeNext
  rw [hres]

theorem bandDeal_resumed {p : PipeNo} {s : State} {h : Held} {rest : List Held} (hr : (s.dev.pipe p).role = .active)
    (hh : (s.dev.pipe p).held = none) (hres : s.dev.comp.resumed = h :: rest) :
    ∃ u, exec (.bandDeal p) s = .next u ∧ u.dev.comp.resumed = rest ∧ u.dev.comp.deal = s.dev.comp.deal ∧
      (u.dev.pipe p).held = some { h with alive := s.dev.time } ∧
      (h.wait = true → ∀ k : Fin 8, (u.dev.gather (8 * p + k)).todo = h.pieces k h.nextLine h.endLine) := by
  obtain ⟨e, htake, hpipe, hdeal, hrest⟩ := Dev.takeNext_resumed (p := p) hres
  obtain ⟨hheld, hdeal', hrest', -⟩ := Dev.take_spec (p := p) (d := e) { h with alive := s.dev.time } (by rw [hpipe]; exact hr)
  refine ⟨_, exec_bandDeal hr hh, ?_⟩
  dsimp only
  rw [htake]
  generalize e.take p { h with alive := s.dev.time } = y at *
  by_cases hw : h.wait = true
  · obtain ⟨hto, -, hpipes, hdeal'', hrest''⟩ := y.startGather_spec p h h.nextLine
    rw [if_pos hw]
    refine ⟨hrest''.trans (hrest'.trans hrest), hdeal''.trans (hdeal'.trans hdeal), ?_, fun _ k => hto k k.isLt⟩
    rw [Dev.pipe_congr hpipes]
    exact hheld
  · rw [if_neg hw]
    exact ⟨hrest'.trans hrest, hdeal'.trans hdeal, hheld, fun h => absurd h hw⟩

/-! ## Fetches -/

/-- The band in hand, whatever scene it shows. -/
def Held.sameWork (a b : Held) : Prop := b.canvas = a.canvas ∧ b.frame = a.frame ∧ b.band = a.band ∧ b.par = a.par

theorem Held.sameWork_flip (c : Nat) (t : Tables) (a : Admitted) {h k : Held} (hk : h.sameWork k) : h.sameWork (k.flip c t a) := by
  unfold Held.flip
  split <;> exact hk

theorem Dev.applyFlip_held {p c : Nat} {a : Admitted} {k : Held} {d : Dev} (hp : p < 14) (hk : (d.pipe p).held = some k) :
    ∃ t, ((d.applyFlip c a).pipe p).held = some (k.flip c t a) := by
  unfold Dev.applyFlip
  dsimp only
  have happ (e : Dev) : (e.applyOn c [a]).pipe p = e.pipe p := Dev.pipe_congr (by simp) p
  rw [happ, Dev.setCanvas_pipe, Dev.pipe_mapPipes hp, hk]
  exact ⟨_, rfl⟩

/-- Flips change the scene of a band in hand at most. -/
theorem Dev.applyFlips_held {p c : Nat} {h : Held} {d : Dev} (hp : p < 14) (hh : (d.pipe p).held = some h) :
    ∃ k, ((d.applyFlips c).pipe p).held = some k ∧ h.sameWork k := by
  unfold Dev.applyFlips
  generalize List.takeWhile _ _ = l
  suffices hgen : ∀ (d : Dev) (k : Held), (d.pipe p).held = some k → h.sameWork k →
      ∃ k, ((l.foldl (fun d a => d.applyFlip c a) d).pipe p).held = some k ∧ h.sameWork k from
    hgen d h hh ⟨rfl, rfl, rfl, rfl⟩
  induction l with
  | nil => exact fun d k hk hw => ⟨k, hk, hw⟩
  | cons a l ih =>
    intro d k hk hw
    obtain ⟨t, ht⟩ := Dev.applyFlip_held (c := c) (a := a) hp hk
    exact ih _ _ ht (Held.sameWork_flip c t a hw)

theorem Held.pieces_fetched (h : Held) (k : Nat) : ({ h with fetched := true } : Held).pieces k h.firstLine
    ({ h with fetched := true } : Held).endLine = h.pieces k h.firstLine h.endLine := by
  unfold Held.pieces
  rfl

/-- A unit that has a band's pieces to fetch has them still after the fetch of that band starts at other pipes. -/
theorem Dev.startGathers_todo {p j lo : Nat} (hj : j < 8) (h : Held) (l : List Nat) {d : Dev}
    (hd : (d.gather (8 * p + j)).todo = h.pieces j lo h.endLine) :
    ((l.foldl (fun d q => d.startGather q h lo) d).gather (8 * p + j)).todo = h.pieces j lo h.endLine := by
  induction l generalizing d with
  | nil => exact hd
  | cons q l ih =>
    obtain ⟨hq, hqne, -⟩ := d.startGather_spec q h lo
    rw [List.foldl_cons]
    refine ih (d := d.startGather q h lo) ?_
    by_cases hpq : q = p
    · subst hpq
      exact hq j hj
    · have hunit : (8 * p + j) / 8 ≠ q := by omega
      rw [hqne _ hunit]
      exact hd

theorem Dev.startGathers_pipes (lo : Nat) (h : Held) (l : List Nat) (d : Dev) :
    (l.foldl (fun d q => d.startGather q h lo) d).comp.pipes = d.comp.pipes := by
  induction l generalizing d with
  | nil => rfl
  | cons q l ih =>
    obtain ⟨-, -, hpipes, -⟩ := d.startGather_spec q h lo
    rw [List.foldl_cons, ih, hpipes]

/-- The fetch of a band starts at every unit of its pipe. -/
theorem Dev.fetchStart_spec {p : Nat} {h : Held} {d : Dev} (hp : p < 14) (hh : (d.pipe p).held = some h) :
    ∃ k, ((d.fetchStart p h).pipe p).held = some k ∧ k.fetched = true ∧ h.sameWork k ∧
      ∀ j, j < 8 → ((d.fetchStart p h).gather (8 * p + j)).todo = k.pieces j k.firstLine k.endLine := by
  obtain ⟨k, hk, hw⟩ := d.applyFlips_held (c := h.canvas) hp hh
  unfold Dev.fetchStart
  dsimp only
  rw [hk, Option.getD_some]
  have hheld : (((d.applyFlips h.canvas).eachHold h fun k => { k with fetched := true }).pipe p).held = some { k with fetched := true } := by
    obtain ⟨h₁, h₂, h₃, h₄⟩ := hw
    unfold Dev.eachHold
    rw [Dev.pipe_mapPipes hp, hk]
    simp [Held.sameBand, h₁, h₂, h₃, h₄]
  generalize (d.applyFlips h.canvas).eachHold h _ = y at *
  refine ⟨{ k with fetched := true }, ?_, rfl, hw, ?_⟩
  · rw [Dev.pipe_congr (Dev.startGathers_pipes ..)]
    exact hheld
  · intro j hj
    rw [List.foldl_cons, Held.pieces_fetched]
    obtain ⟨hto, -⟩ := y.startGather_spec p k k.firstLine
    exact Dev.startGathers_todo hj k _ (hto j hj)

theorem exec_bandFetchStart {p : PipeNo} {s : State} {h : Held} (hh : (s.dev.pipe p).held = some h) (hf : h.fetched = false) :
    exec (.bandFetchStart p) s = .next ⟨s.dev.fetchStart p h, s.pending⟩ := by
  show execBandFetchStart p s = _
  rw [execBandFetchStart, State.dev!_next, hh]
  dsimp only
  rw [hf, Bool.not_false, Dev.when_true]

/-! ## Escalations -/

/-- The units of a pipe that are late, counted. -/
theorem Dev.escalate_gather (p : Nat) (f : Nat → Bool) (d : Dev) :
    (∀ k, k < 8 → (((List.range 8).filter f).foldl (fun d k => d.setGather (8 * p + k)
      { d.gather (8 * p + k) with urgent := (d.gather (8 * p + k)).urgent + 1 }) d).gather (8 * p + k) =
        if f k then { d.gather (8 * p + k) with urgent := (d.gather (8 * p + k)).urgent + 1 } else d.gather (8 * p + k)) ∧
    (∀ g, g / 8 ≠ p → (((List.range 8).filter f).foldl (fun d k => d.setGather (8 * p + k)
      { d.gather (8 * p + k) with urgent := (d.gather (8 * p + k)).urgent + 1 }) d).gather g = d.gather g) ∧
    (((List.range 8).filter f).foldl (fun d k => d.setGather (8 * p + k)
      { d.gather (8 * p + k) with urgent := (d.gather (8 * p + k)).urgent + 1 }) d).comp.pipes = d.comp.pipes := by
  obtain ⟨hin, hout⟩ := foldl_each (get := Dev.gather) (idx := fun k => 8 * p + k) (F := fun _ u => { u with urgent := u.urgent + 1 })
    (step := fun d k => d.setGather (8 * p + k) { d.gather (8 * p + k) with urgent := (d.gather (8 * p + k)).urgent + 1 })
    (fun d k => Dev.gather_setGather ..) (fun d k j hj => Dev.gather_setGather_ne _ _ hj)
    (nodup_units p ((List.nodup_range (n := 8)).filter f)) d
  refine ⟨fun k hk => ?_, fun g hg => hout g fun hmem => ?_, ?_⟩
  · by_cases hf : f k = true
    · rw [if_pos hf]
      exact hin k (List.mem_filter.mpr ⟨List.mem_range.mpr hk, hf⟩)
    · rw [if_neg hf]
      refine hout _ fun hmem => hf ?_
      obtain ⟨j, hj, he⟩ := List.mem_map.mp hmem
      obtain rfl : j = k := Nat.add_left_cancel he
      exact (List.mem_filter.mp hj).2
  · obtain ⟨k, hk, rfl⟩ := List.mem_map.mp hmem
    have := List.mem_range.mp (List.mem_filter.mp hk).1
    omega
  · generalize (List.range 8).filter f = l
    clear hin hout
    induction l generalizing d with
    | nil => rfl
    | cons k l ih => exact ih _

theorem gatherEscalation_spec {p : PipeNo} {s : State} {h : Held} (hh : (s.dev.pipe p).held = some h) (hpar : h.par = false)
    (hurg : h.urgent = false) (hlate : ∃ k : Fin 8, s.dev.fetching p h k = true)
    (hline : s.dev.lineEnded h.canvas h.frame (s.dev.cregs h.canvas) (((h.band * cB (s.dev.cregs h.canvas) : Nat) : Int) -
      (((cD (s.dev.cregs h.canvas) - cB (s.dev.cregs h.canvas)) / 2 + 1 : Nat) : Int)) = true) :
    ∃ u, exec (.gatherEscalation p) s = .next u ∧ (u.dev.pipe p).held = some { h with urgent := true } ∧
      (∀ k : Fin 8, u.dev.gather (8 * p + k) = (if s.dev.fetching p h k then
          { s.dev.gather (8 * p + k) with urgent := (s.dev.gather (8 * p + k)).urgent + 1 }
        else s.dev.gather (8 * p + k))) ∧
      ∀ g, g / 8 ≠ p.val → u.dev.gather g = s.dev.gather g := by
  obtain ⟨j, hj⟩ := hlate
  have hsome : ((List.range 8).filter (s.dev.fetching p h)).isEmpty = false := by
    rw [List.isEmpty_eq_false_iff]
    exact List.ne_nil_of_mem (List.mem_filter.mpr ⟨List.mem_range.mpr j.isLt, hj⟩)
  have he : exec (.gatherEscalation p) s = .next ⟨((List.range 8).filter (s.dev.fetching p h)).foldl
      (fun d k => d.setGather (8 * p + k) { d.gather (8 * p + k) with urgent := (d.gather (8 * p + k)).urgent + 1 })
      ((s.dev.setPipe p { s.dev.pipe p with held := some { h with urgent := true } }).raiseGather p), s.pending⟩ := by
    show execGatherEscalation p s = _
    rw [execGatherEscalation, State.dev!_next, hh]
    dsimp only
    rw [hpar, hurg, hsome, hline]
    rfl
  refine ⟨_, he, ?_⟩
  dsimp only
  obtain ⟨hin, hout, hpipes⟩ := Dev.escalate_gather p (s.dev.fetching p h)
    ((s.dev.setPipe p { s.dev.pipe p with held := some { h with urgent := true } }).raiseGather p)
  exact ⟨(congrArg Pipe.held (Dev.pipe_congr hpipes p)).trans (congrArg Pipe.held (Dev.pipe_setPipe p _ s.dev)), fun k => hin k k.isLt, hout⟩

/-! ## Responses -/

/-- What a unit is after a piece arrived with `bad` unusable atoms. -/
def Gather.received (piece : GatherPiece) (bad : Nat) (frit : Option (BitVec 128)) (u : Gather) : Gather :=
  let u := { u.await (u.todo.erase piece) with poison := u.poison + BitVec.ofNat 32 bad }
  match frit with
  | some _ => { u with fritErr := u.fritErr + 1 }
  | none => u

theorem Gather.received_spec (piece : GatherPiece) (bad : Nat) (frit : Option (BitVec 128)) (u : Gather) :
    (u.received piece bad frit).todo = u.todo.erase piece ∧ (u.received piece bad frit).poison = u.poison + BitVec.ofNat 32 bad := by
  unfold Gather.received
  cases frit <;> exact ⟨rfl, rfl⟩

theorem Dev.receive_gather (piece : GatherPiece) (bad : Nat) (frit : Option (BitVec 128)) (d : Dev) (g : Nat) :
    (d.receive piece bad frit g).gather g = (d.gather g).received piece bad frit := by
  unfold Dev.receive Gather.received
  cases frit with
  | some x => exact Dev.gather_setGather ..
  | none => exact Dev.gather_setGather ..

theorem Dev.receive_gather_ne (piece : GatherPiece) (bad : Nat) (frit : Option (BitVec 128)) (d : Dev) {g j : Nat} (h : j ≠ g) :
    (d.receive piece bad frit g).gather j = d.gather j := by
  unfold Dev.receive
  cases frit with
  | some x => exact Dev.gather_setGather_ne _ _ h
  | none => exact Dev.gather_setGather_ne _ _ h

theorem Dev.gather_congr {a b : Dev} (h : a.comp.gather = b.comp.gather) (g : Nat) : a.gather g = b.gather g := by
  unfold Dev.gather
  rw [h]

/-- The unusable atoms and those that this read alone lost are counted once each. -/
theorem length_lost (f g : Nat → Bool) (l : List Nat) :
    (l.filter f ++ l.filter fun t => g t && !f t).length = l.countP fun t => f t || g t := by
  rw [List.length_append, ← List.countP_eq_length_filter, ← List.countP_eq_length_filter]
  induction l with
  | nil => rfl
  | cons a l ih =>
    simp only [List.countP_cons]
    cases f a <;> cases g a <;> simp <;> omega

/-- A piece arrives at layer slot `k` of distinct pipes. -/
theorem Dev.pieceArrives_gather {ps : List Nat} (hps : ps.Nodup) (h : Held) {k : Nat} (hk : k < 8) (piece : GatherPiece) (lost : List Nat) (d : Dev) :
    (∀ v ∈ ps, ((d.pieceArrives ps h k piece lost).gather (8 * v + k)).todo = (d.gather (8 * v + k)).todo.erase piece ∧
      ((d.pieceArrives ps h k piece lost).gather (8 * v + k)).poison = (d.gather (8 * v + k)).poison +
        BitVec.ofNat 32 ((d.pieceAtoms h k piece).countP fun t => d.unusable (256 * t) || lost.contains t)) ∧
    ∀ g, g / 8 ∉ ps → (d.pieceArrives ps h k piece lost).gather g = d.gather g := by
  unfold Dev.pieceArrives
  dsimp only
  generalize Dev.tileFails _ h k piece = frit
  generalize hgone : (d.pieceAtoms h k piece).filter (fun t => lost.contains t && !d.unusable (256 * t)) = gone
  have hbad : ((d.pieceAtoms h k piece).filter (fun t => d.unusable (256 * t)) ++ gone).length =
      (d.pieceAtoms h k piece).countP fun t => d.unusable (256 * t) || lost.contains t := by
    rw [← hgone]
    exact length_lost (fun t => d.unusable (256 * t)) (fun t => lost.contains t) _
  rw [hbad]
  generalize List.countP _ _ = bad
  have hbase (g : Nat) : ((d.pieceAtoms h k piece).foldl (Dev.fetchAtom gone) d).gather g = d.gather g := Dev.gather_congr (by simp) g
  generalize (d.pieceAtoms h k piece).foldl (Dev.fetchAtom gone) d = y at *
  rw [List.foldl_map]
  have hnodup : (ps.map (8 * · + k)).Nodup := hps.map fun a b hab => by omega
  obtain ⟨hin, hout⟩ := foldl_each (get := Dev.gather) (idx := (8 * · + k)) (F := fun _ => Gather.received piece bad frit)
    (step := fun d v => Dev.receive piece bad frit d (8 * v + k)) (fun d v => Dev.receive_gather ..)
    (fun d v j hj => Dev.receive_gather_ne piece bad frit d hj) hnodup y
  refine ⟨fun v hv => ?_, fun g hg => ?_⟩
  · rw [hin v hv, hbase]
    exact Gather.received_spec ..
  · rw [hout g, hbase]
    intro hmem
    obtain ⟨v, hv, rfl⟩ := List.mem_map.mp hmem
    exact hg (by rwa [show (8 * v + k) / 8 = v by omega])

theorem Held.sameBand_lost (k h : Held) (lost : List Nat) :
    (if k.sameBand h then { k with lost := k.lost ++ lost } else k).sameBand h = k.sameBand h := by
  split <;> rfl

theorem Dev.fetchNat_pipes (ps : FMap Pipe) (d : Dev) (a n : Nat) :
    ({ d with comp := { d.comp with pipes := ps } } : Dev).fetchNat a n = d.fetchNat a n := by
  have hspan : ({ d with comp := { d.comp with pipes := ps } } : Dev).span a n = d.span a n := rfl
  have hbad : ({ d with comp := { d.comp with pipes := ps } } : Dev).atomBad = d.atomBad := rfl
  have hbytes : ({ d with comp := { d.comp with pipes := ps } } : Dev).bytes a n = d.bytes a n := by
    induction n generalizing a with
    | zero => rfl
    | succ n ih =>
      simp only [Dev.bytes, ih (a + 1) rfl]
      rfl
  have hbyte (k : Nat) : ({ d with comp := { d.comp with pipes := ps } } : Dev).byte k = d.byte k := rfl
  simp only [Dev.fetchNat, hspan, hbad, hbytes, hbyte]

/-- What atoms a piece is made of does not rest on the pipes. -/
theorem Dev.pieceAtoms_pipes (d : Dev) (ps : FMap Pipe) (h : Held) (k : Nat) (piece : GatherPiece) :
    ({ d with comp := { d.comp with pipes := ps } } : Dev).pieceAtoms h k piece = d.pieceAtoms h k piece := by
  cases piece with
  | atom i a => rfl
  | tile i tx ty => simp only [Dev.pieceAtoms, Dev.fetchNat_pipes]

/-- The spares that shadow a pipe's band, once the band's lost atoms are noted, are the same. -/
theorem Dev.followers_eachHold (p : Nat) (h : Held) (lost : List Nat) (d : Dev) :
    (d.eachHold h fun x => { x with lost := x.lost ++ lost }).followers p h = d.followers p h := by
  have hpipe (u : Nat) (hu : u < 14) := Dev.pipe_mapPipes hu (fun y => { y with
    held := y.held.map fun k => if k.sameBand h then { k with lost := k.lost ++ lost } else k
    shadows := y.shadows.map fun s => { s with held := if s.held.sameBand h then { s.held with lost := s.held.lost ++ lost } else s.held } }) d
  unfold Dev.followers Dev.inRole
  rw [List.filter_filter, List.filter_filter]
  refine List.filter_congr fun u hu => ?_
  rw [show (d.eachHold h fun x => { x with lost := x.lost ++ lost }).pipe u = _ from hpipe u (List.mem_range.mp hu)]
  dsimp only
  rw [List.any_map]
  congr 1
  induction (d.pipe u).shadows with
  | nil => rfl
  | cons x l ih =>
    simp only [List.any_cons, ih, Function.comp]
    rw [Held.sameBand_lost]

theorem gatherResponse_spec {p : PipeNo} {s : State} {g : UnitNo} {piece : GatherPiece} {lost : List Nat} {h : Held} (hg : g.val / 8 = p.val)
    (hrole : (s.dev.pipe p).role = .active) (hh : (s.dev.pipe p).held = some h) (htodo : (s.dev.gather g).todo.contains piece = true)
    (hserved : s.dev.pieceServed h (g % 8) piece = true) :
    ∃ u, exec (.gatherResponse g piece lost) s = .next u ∧ (u.dev.gather g).todo = (s.dev.gather g).todo.erase piece ∧
      (u.dev.gather g).poison = (s.dev.gather g).poison + BitVec.ofNat 32
        ((s.dev.pieceAtoms h (g % 8) piece).countP fun t => s.dev.unusable (256 * t) || lost.contains t) ∧
      (∀ v ∈ s.dev.followers p h, (u.dev.gather (8 * v + g % 8)).todo = (s.dev.gather (8 * v + g % 8)).todo.erase piece) ∧
      ∀ k, k / 8 ≠ p.val → k / 8 ∉ s.dev.followers p h → u.dev.gather k = s.dev.gather k := by
  have he : exec (.gatherResponse g piece lost) s = .next ⟨s.dev.ownArrives p (g % 8) h piece lost, s.pending⟩ := by
    show execGatherResponse g piece lost s = _
    rw [execGatherResponse, State.dev!_next]
    dsimp only
    rw [htodo, if_neg (by simp), hg, hrole, hh]
  refine ⟨_, he, ?_⟩
  dsimp only
  have hunit : 8 * p.val + g.val % 8 = g.val := by omega
  have hfollow := s.dev.followers_eachHold p h lost
  obtain ⟨ps, hps⟩ : ∃ ps, (s.dev.eachHold h fun x => { x with lost := x.lost ++ lost }) =
      { s.dev with comp := { s.dev.comp with pipes := ps } } := Dev.eachHold_eq h _ s.dev
  have hbase (j : Nat) : (s.dev.eachHold h fun x => { x with lost := x.lost ++ lost }).gather j = s.dev.gather j := by rw [hps]; rfl
  have hatoms : (s.dev.eachHold h fun x => { x with lost := x.lost ++ lost }).pieceAtoms h (g % 8) piece = s.dev.pieceAtoms h (g % 8) piece := by
    rw [hps]
    exact s.dev.pieceAtoms_pipes ps h (g % 8) piece
  have hbad (a : Nat) : (s.dev.eachHold h fun x => { x with lost := x.lost ++ lost }).unusable a = s.dev.unusable a := by rw [hps]; rfl
  clear hps
  have hnodup : (p.val :: s.dev.followers p h).Nodup := by
    refine List.nodup_cons.mpr ⟨fun hin => ?_, (List.nodup_range.filter _).filter _⟩
    have hspare := (Dev.mem_inRole.mp (List.mem_filter.mp hin).1).2
    rw [hrole] at hspare
    cases hspare
  have hlast (x : Dev) : ∀ j, (if x.lineFetched p h h.nextLine && !s.dev.lineFetched p h h.nextLine then
      x.setPipe p { x.pipe p with held := (x.pipe p).held.map fun y => { y with alive := x.time } } else x).gather j = x.gather j := by
    intro j
    split <;> rfl
  unfold Dev.ownArrives
  rw [hserved, Dev.when_true]
  dsimp only
  rw [hfollow]
  generalize s.dev.eachHold h _ = y at *
  obtain ⟨hin, hout⟩ := y.pieceArrives_gather hnodup h (Nat.mod_lt g (by decide)) piece lost
  simp only [hlast, hbase, hatoms, hbad] at hin hout ⊢
  obtain ⟨htodo', hpoison⟩ := hin p (List.mem_cons_self ..)
  rw [hunit] at htodo' hpoison
  exact ⟨htodo', hpoison, fun v hv => (hin v (List.mem_cons_of_mem _ hv)).1, fun k hk hk' => hout k (by simp [hk, hk'])⟩

/-- Settles O34: releases, deals, fetches, escalations and responses. -/
theorem bandsAreDealtAndFetched : Obligations.BandsAreDealtAndFetched := by
  unfold Obligations.BandsAreDealtAndFetched
  refine fun p s => ⟨fun c hd hsrc hold => ?_,
    fun hr hh => ⟨fun r hres hn hb hrel => bandDeal_next hr hh hres hn hb hrel, fun h rest hres => bandDeal_resumed hr hh hres⟩,
    fun h hh hf => ?_,
    fun h hh hpar hurg hlate hline => gatherEscalation_spec hh hpar hurg hlate hline,
    fun g piece lost h hg hrole hh ht hs => gatherResponse_spec hg hrole hh ht hs⟩
  · refine ⟨_, exec_bandRelease hd hsrc hold, ?_⟩
    dsimp only
    exact Dev.releaseBand_direct hsrc
  · refine ⟨_, exec_bandFetchStart hh hf, ?_⟩
    dsimp only
    obtain ⟨k, hk, hf, ⟨hc, hfr, hb, -⟩, hto⟩ := Dev.fetchStart_spec p.isLt hh
    exact ⟨k, hk, hf, hc, hfr, hb, fun j => hto j j.isLt⟩

end Sys2Proof.Machine
end

section
/-!
PROOF of O35 and O36: pipes compose lines, check one another, are fenced, and change roles.
-/
namespace Sys2Proof.Machine
set_option Elab.async false

/-! ## What is composed does not rest on the pipes -/

/-- The device with other pipes. -/
def Dev.withPipes (ps : FMap Pipe) (d : Dev) : Dev := { d with comp := { d.comp with pipes := ps } }

theorem Dev.fetchNat_withPipes (ps : FMap Pipe) (d : Dev) : (d.withPipes ps).fetchNat = d.fetchNat :=
  funext₂ fun a n => Dev.fetchNat_pipes ps d a n

theorem Dev.fetchUnit_withPipes (ps : FMap Pipe) (d : Dev) : (d.withPipes ps).fetchUnit = d.fetchUnit := by
  funext s x y
  unfold Dev.fetchUnit Dev.fritTile
  rw [Dev.fetchNat_withPipes]

theorem Dev.fetchChroma_withPipes (ps : FMap Pipe) (d : Dev) : (d.withPipes ps).fetchChroma = d.fetchChroma := by
  funext s m l
  unfold Dev.fetchChroma
  rw [Dev.fetchNat_withPipes]

theorem Dev.codes_withPipes (ps : FMap Pipe) (d : Dev) : (d.withPipes ps).codes = d.codes := by
  funext s x y
  unfold Dev.codes
  rw [Dev.fetchUnit_withPipes]
  rfl

theorem Dev.chroma_withPipes (ps : FMap Pipe) (d : Dev) : (d.withPipes ps).chroma = d.chroma := by
  funext w s cr u v
  unfold Dev.chroma
  rw [Dev.fetchChroma_withPipes]
  rfl

theorem Dev.sourcePixel_withPipes (ps : FMap Pipe) (d : Dev) : (d.withPipes ps).sourcePixel = d.sourcePixel := by
  funext w s u v
  unfold Dev.sourcePixel
  rw [Dev.codes_withPipes, Dev.chroma_withPipes, Dev.fetchChroma_withPipes]
  rfl

theorem Dev.scaledPixel_withPipes (ps : FMap Pipe) (d : Dev) : (d.withPipes ps).scaledPixel = d.scaledPixel := by
  funext w s x y
  unfold Dev.scaledPixel
  rw [Dev.sourcePixel_withPipes]
  rfl

theorem Dev.composeLine_withPipes (ps : FMap Pipe) (d : Dev) : (d.withPipes ps).composeLine = d.composeLine := by
  funext c sc w k y
  unfold Dev.composeLine Dev.blendPixel
  rw [Dev.scaledPixel_withPipes]
  rfl

theorem Dev.lineOn_withPipes (ps : FMap Pipe) (d : Dev) (p : Nat) (h : Held) (y : Nat) : (d.withPipes ps).lineOn p h y = d.lineOn p h y :=
  congrFun (congrFun (congrFun (congrFun (congrFun (Dev.composeLine_withPipes ps (d.asUsed p h.lost)) h.canvas) h.scene) h.width) h.dither) y

theorem Dev.compose_length (d : Dev) (p : Nat) (h : Held) (err : Word) (y : Nat) : (d.compose p h err y).length = h.width := by
  simp [Dev.compose, faulty, Dev.lineOn, Dev.composeLine]

/-! ## Where a line is written -/

/-- The atoms of a run of bytes are stored inside the run. -/
theorem Dev.storeAtoms_memSameBut (a : Nat) (bs : List Byte) (d : Dev) : d.memSameBut (d.storeAtoms a bs) a bs.length := by
  unfold Dev.storeAtoms
  generalize atomsOf a bs.length = l
  induction l generalizing d with
  | nil => exact Dev.memSameBut_refl d a bs.length
  | cons t l ih =>
    refine Dev.memSameBut_trans ?_ (ih _)
    dsimp only
    have hnote (lo n : Nat) : d.memSameBut (d.noteRead 66 true lo n) a bs.length := Dev.memSameBut_of_mem (by simp) a bs.length
    cases d.span (max a (256 * t)) ((bs.drop (max a (256 * t) - a)).take (256 * t + 256 - max a (256 * t))).length with
    | gddr =>
      dsimp only
      split
      · exact hnote _ _
      · refine Dev.memSameBut_trans (hnote _ _) fun k hk => Dev.store_memSameBut _ _ _ k ?_
        have hlen : ((bs.drop (max a (256 * t) - a)).take (256 * t + 256 - max a (256 * t))).length ≤ bs.length - (max a (256 * t) - a) := by
          rw [List.length_take, List.length_drop]
          exact Nat.min_le_right ..
        by_cases hempty : max a (256 * t) - a ≤ bs.length
        · omega
        · omega
    | cru o => exact Dev.memSameBut_refl d a bs.length
    | host => exact Dev.memSameBut_refl d a bs.length
    | unmapped => exact Dev.memSameBut_refl d a bs.length

theorem Dev.putParison_memByte {c b y a k : Nat} {ws : List Word} {d : Dev}
    (ha : a = if b = 0 then (d.canvas c).par.addr0.toNat + y * (d.canvas c).par.pitch0
      else (d.canvas c).par.addr1.toNat + y * (d.canvas c).par.pitch1) (hk : outside k a (4 * ws.length)) :
    (d.putParison c b y ws).memByte k = d.memByte k := by
  unfold Dev.putParison
  have hlen : (wordsBytes (ws.map fun w => swapRB w ||| 0xC0000000)).length = 4 * ws.length := by
    rw [wordsBytes_length, List.length_map]
  by_cases hb : b = 0
  · simp only [hb, if_true] at ha ⊢
    exact Dev.storeAtoms_memSameBut _ _ d k (by rw [hlen, ← ha]; exact hk)
  · simp only [hb, if_false] at ha ⊢
    exact Dev.storeAtoms_memSameBut _ _ d k (by rw [hlen, ← ha]; exact hk)

/-- A line that is not yet due is found in the scan buffer. -/
theorem Dev.putLine_lineAt {c f y : Nat} {ws : List Word} {d : Dev} (h : (d.canvas c).isDue f y = false) :
    ((d.putLine c f y ws).canvas c).lineAt f y = some ws := by
  unfold Dev.putLine
  dsimp only
  rw [if_neg (by simp [h]), Dev.canvas_setCanvas]
  unfold Canvas.lineAt
  dsimp only
  rw [FMap.get_put_same]
  simp

theorem Dev.putLine_due {c f y : Nat} {ws : List Word} {d : Dev} (h : (d.canvas c).isDue f y = true) : d.putLine c f y ws = d := by
  unfold Dev.putLine
  dsimp only
  rw [if_pos h]

theorem Dev.putLine_canvas_ne {c f y k : Nat} {ws : List Word} {d : Dev} (h : k ≠ c) : (d.putLine c f y ws).canvas k = d.canvas k := by
  unfold Dev.putLine
  dsimp only
  split
  · rfl
  · exact Dev.canvas_setCanvas_ne _ _ h

/-! ## Lines -/

/-- Line `y` composed beside an active pipe. -/
def Shadow.withLine (p : Nat) (h : Held) (t : Quad) (y : Nat) (ws : List Word) (s : Shadow) : Shadow :=
  if s.pipe = p ∧ s.actCrcs.isNone ∧ s.held.sameBand h then
    { s with held := { s.held with alive := t }, lines := s.lines ++ [(y, ws)] }
  else s

/-- The spares that shadow a band compose the line beside it, and nothing else of the device changes. -/
theorem Dev.shadowLines_spec (p : Nat) (h : Held) (y : Nat) {l : List Nat} (hl : l.Nodup) (d : Dev) :
    ∃ ps, l.foldl (Dev.shadowLine p h y) d = d.withPipes ps ∧
      (∀ v ∈ l, (d.withPipes ps).pipe v = { d.pipe v with
        shadows := (d.pipe v).shadows.map (Shadow.withLine p h d.time y (d.lineOn v h y)) }) ∧
      ∀ k, k ∉ l → (d.withPipes ps).pipe k = d.pipe k := by
  suffices hgen : ∀ ps₀, ∃ ps, l.foldl (Dev.shadowLine p h y) (d.withPipes ps₀) = d.withPipes ps ∧
      (∀ v ∈ l, (d.withPipes ps).pipe v = { (d.withPipes ps₀).pipe v with
        shadows := ((d.withPipes ps₀).pipe v).shadows.map (Shadow.withLine p h d.time y (d.lineOn v h y)) }) ∧
      ∀ k, k ∉ l → (d.withPipes ps).pipe k = (d.withPipes ps₀).pipe k from hgen d.comp.pipes
  induction l with
  | nil => exact fun ps₀ => ⟨ps₀, rfl, nofun, fun _ _ => rfl⟩
  | cons u l ih =>
    intro ps₀
    obtain ⟨hu, hl⟩ := List.nodup_cons.mp hl
    obtain ⟨ps₁, hps₁⟩ : ∃ ps₁, Dev.shadowLine p h y (d.withPipes ps₀) u = d.withPipes ps₁ := ⟨_, rfl⟩
    have hself : (d.withPipes ps₁).pipe u = { (d.withPipes ps₀).pipe u with
        shadows := ((d.withPipes ps₀).pipe u).shadows.map (Shadow.withLine p h d.time y (d.lineOn u h y)) } := by
      rw [← hps₁, ← Dev.lineOn_withPipes ps₀ d u h y]
      exact Dev.pipe_setPipe ..
    have hne (k : Nat) (hk : k ≠ u) : (d.withPipes ps₁).pipe k = (d.withPipes ps₀).pipe k := by
      rw [← hps₁]
      exact Dev.pipe_setPipe_ne _ _ hk
    obtain ⟨ps, hps, hin, hout⟩ := ih hl ps₁
    refine ⟨ps, by rw [List.foldl_cons, hps₁, hps], fun v hv => ?_, fun k hk => ?_⟩
    · rcases List.mem_cons.mp hv with rfl | hv
      · rw [hout v hu, hself]
      · rw [hin v hv, hne v fun e => hu (e ▸ hv)]
    · obtain ⟨hku, hkl⟩ := not_or.mp (mt List.mem_cons.mpr hk)
      rw [hout k hkl, hne k hku]

theorem Dev.followers_nodup (d : Dev) (p : Nat) (h : Held) : (d.followers p h).Nodup := (List.nodup_range.filter _).filter _

/-- What a line's write leaves before the line goes to its buffer. -/
def Dev.lineWritten (p : Nat) (h : Held) (ws : List Word) (d : Dev) : Dev :=
  ((d.followers p h).foldl (Dev.shadowLine p h h.nextLine) d).setPipe p
    { ((d.followers p h).foldl (Dev.shadowLine p h h.nextLine) d).pipe p with
      held := some { h with nextLine := h.nextLine + 1, alive := d.time, crcs := h.crcs ++ [(h.nextLine, lineCrc ws)] } }

theorem exec_lineWrite {p : PipeNo} {err : Word} {s : State} {h : Held} (hh : (s.dev.pipe p).held = some h) (hf : h.fetched = true)
    (hw : h.wait = false) (hd : h.done = false) : exec (.lineWrite p err) s = .next ⟨(s.dev.lineWritten p h
      (s.dev.compose p h err h.nextLine)).writeLine h h.nextLine (s.dev.compose p h err h.nextLine), s.pending⟩ := by
  show execLineWrite p err s = _
  rw [execLineWrite, State.dev!_next, hh]
  dsimp only
  rw [show (h.fetched && !h.wait && !h.done) = true by simp [hf, hw, hd], Dev.when_true]
  rfl

theorem Dev.lineWritten_spec (p : Nat) (h : Held) (ws : List Word) (d : Dev) :
    (∃ ps, d.lineWritten p h ws = d.withPipes ps) ∧
    ((d.lineWritten p h ws).pipe p).held = some { h with
      nextLine := h.nextLine + 1, alive := d.time, crcs := h.crcs ++ [(h.nextLine, lineCrc ws)] } ∧
    (∀ v ∈ d.followers p h, v ≠ p → (d.lineWritten p h ws).pipe v = { d.pipe v with
      shadows := (d.pipe v).shadows.map (Shadow.withLine p h d.time h.nextLine (d.lineOn v h h.nextLine)) }) ∧
    ∀ k, k ≠ p → k ∉ d.followers p h → (d.lineWritten p h ws).pipe k = d.pipe k := by
  obtain ⟨ps, hps, hin, hout⟩ := Dev.shadowLines_spec p h h.nextLine (d.followers_nodup p h) d
  unfold Dev.lineWritten
  rw [hps]
  refine ⟨⟨_, rfl⟩, ?_, fun v hv hne => ?_, fun k hk hkf => ?_⟩
  · rw [Dev.pipe_setPipe]
  · rw [Dev.pipe_setPipe_ne _ _ hne, hin v hv]
  · rw [Dev.pipe_setPipe_ne _ _ hk, hout k hkf]

theorem Dev.writeLine_pipe (h : Held) (y : Nat) (ws : List Word) (d : Dev) (k : Nat) : (d.writeLine h y ws).pipe k = d.pipe k :=
  Dev.pipe_congr (by simp) k

theorem lineWrite_spec {p : PipeNo} {err : Word} {s : State} {h : Held} (hh : (s.dev.pipe p).held = some h) (hf : h.fetched = true)
    (hw : h.wait = false) (hd : h.done = false) (hdead : h.dead = false) :
    ∃ u, exec (.lineWrite p err) s = .next u ∧
      (∃ k, (u.dev.pipe p).held = some k ∧ k.nextLine = h.nextLine + 1 ∧
        k.crcs = h.crcs ++ [(h.nextLine, lineCrc (s.dev.compose p h err h.nextLine))]) ∧
      (∀ v ∈ s.dev.followers p h, v ≠ p.val → ∀ sh ∈ (u.dev.pipe v).shadows, sh.pipe = p.val → sh.actCrcs = none →
        sh.held.sameBand h = true → (h.nextLine, s.dev.lineOn v h h.nextLine) ∈ sh.lines) ∧
      (∀ k, k ≠ p.val → k ∉ s.dev.followers p h → u.dev.pipe k = s.dev.pipe k) ∧
      (h.par = false → u.dev.mem = s.dev.mem ∧ (∀ k, k ≠ h.canvas → u.dev.canvas k = s.dev.canvas k) ∧
        ((s.dev.canvas h.canvas).isDue h.frame h.nextLine = false →
          (u.dev.canvas h.canvas).lineAt h.frame h.nextLine = some (s.dev.compose p h err h.nextLine)) ∧
        ((s.dev.canvas h.canvas).isDue h.frame h.nextLine = true → u.dev.canvases = s.dev.canvases)) ∧
      (h.par = true → u.dev.canvases = s.dev.canvases ∧
        ∀ a, a = (if h.buf = 0 then
            (s.dev.canvas h.canvas).par.addr0.toNat + h.nextLine * (s.dev.canvas h.canvas).par.pitch0
          else (s.dev.canvas h.canvas).par.addr1.toNat + h.nextLine * (s.dev.canvas h.canvas).par.pitch1) →
          ∀ k, outside k a (4 * h.width) → u.dev.memByte k = s.dev.memByte k) := by
  refine ⟨_, exec_lineWrite hh hf hw hd, ?_⟩
  dsimp only
  have hlen := s.dev.compose_length p h err h.nextLine
  generalize s.dev.compose p h err h.nextLine = ws at *
  obtain ⟨⟨ps, hps⟩, hheld, hshadow, hrest⟩ := s.dev.lineWritten_spec p h ws
  have hcanvas (k : Nat) : (s.dev.lineWritten p h ws).canvas k = s.dev.canvas k := by rw [hps]; rfl
  have hcanvases : (s.dev.lineWritten p h ws).canvases = s.dev.canvases := by rw [hps]; rfl
  have hmem : (s.dev.lineWritten p h ws).mem = s.dev.mem := by rw [hps]; rfl
  generalize s.dev.lineWritten p h ws = y at *
  have hpipe := y.writeLine_pipe h h.nextLine ws
  refine ⟨?_, fun v hv hne => ?_, fun k hk hkf => ?_, fun hpar => ?_, fun hpar => ?_⟩
  · rw [hpipe]
    exact ⟨_, hheld, rfl, rfl⟩
  · rw [hpipe, hshadow v hv hne]
    simp only [List.mem_map, Shadow.withLine]
    rintro _ ⟨s', hs', rfl⟩
    split
    · intros
      simp
    · rename_i hnot
      exact fun h₁ h₂ h₃ => absurd ⟨h₁, by rw [h₂]; rfl, h₃⟩ hnot
  · rw [hpipe]
    exact hrest k hk hkf
  · have hline : y.writeLine h h.nextLine ws = y.putLine h.canvas h.frame h.nextLine ws := by simp [Dev.writeLine, hdead, hpar]
    rw [hline]
    refine ⟨by simp [hmem], fun k hk => (Dev.putLine_canvas_ne hk).trans (hcanvas k), fun hdue => ?_, fun hdue => ?_⟩
    · exact Dev.putLine_lineAt (by rw [hcanvas]; exact hdue)
    · rw [Dev.putLine_due (by rw [hcanvas]; exact hdue), hcanvases]
  · have hline : y.writeLine h h.nextLine ws = y.putParison h.canvas h.buf h.nextLine ws := by simp [Dev.writeLine, hdead, hpar]
    rw [hline]
    refine ⟨by simp [hcanvases], fun a ha k hk => ?_⟩
    rw [Dev.putParison_memByte (a := a) (by rw [hcanvas]; exact ha) (by rw [hlen]; exact hk)]
    exact Dev.memByte_congr hmem k

/-! ## What the work of understudies leaves alone -/

/-- The error bits and the counts of every pipe stay, as do the arms, and no firing is lost. -/
structure Dev.Aside (d e : Dev) : Prop where
  pipes : ∀ k, (e.pipe k).reqErr = (d.pipe k).reqErr ∧ (e.pipe k).checks = (d.pipe k).checks ∧ (e.pipe k).mismatch = (d.pipe k).mismatch
  arms : e.regs.arms = d.regs.arms
  arrivals : ∀ f ∈ d.flt.arrivals, f ∈ e.flt.arrivals

theorem Dev.Aside.refl (d : Dev) : d.Aside d := ⟨fun _ => ⟨rfl, rfl, rfl⟩, rfl, fun _ h => h⟩

theorem Dev.Aside.trans {a b c : Dev} (h : a.Aside b) (h' : b.Aside c) : a.Aside c := by
  refine ⟨fun k => ?_, h'.arms.trans h.arms, fun f hf => h'.arrivals f (h.arrivals f hf)⟩
  obtain ⟨h₁, h₂, h₃⟩ := h.pipes k
  obtain ⟨h₁', h₂', h₃'⟩ := h'.pipes k
  exact ⟨h₁'.trans h₁, h₂'.trans h₂, h₃'.trans h₃⟩

theorem Dev.Aside.of_pipes {d e : Dev} (hp : e.comp.pipes = d.comp.pipes) (ha : e.regs.arms = d.regs.arms)
    (hf : ∀ f ∈ d.flt.arrivals, f ∈ e.flt.arrivals) : d.Aside e :=
  ⟨fun k => by rw [Dev.pipe_congr hp k]; exact ⟨rfl, rfl, rfl⟩, ha, hf⟩

theorem Dev.Aside.setPipe {d : Dev} {p : Nat} {x : Pipe} (h₁ : x.reqErr = (d.pipe p).reqErr) (h₂ : x.checks = (d.pipe p).checks)
    (h₃ : x.mismatch = (d.pipe p).mismatch) : d.Aside (d.setPipe p x) := by
  refine ⟨fun k => ?_, rfl, fun _ h => h⟩
  by_cases hk : k = p
  · subst hk
    rw [Dev.pipe_setPipe]
    exact ⟨h₁, h₂, h₃⟩
  · rw [Dev.pipe_setPipe_ne _ _ hk]
    exact ⟨rfl, rfl, rfl⟩

/-- As `Dev.Aside`, and none but spares change. -/
structure Dev.SparesOnly (d e : Dev) : Prop extends Dev.Aside d e where
  others : ∀ k, (d.pipe k).role ≠ .spare → e.pipe k = d.pipe k

/-- As `Dev.SparesOnly`, and the roles stay. -/
structure Dev.ShadowsOnly (d e : Dev) : Prop extends Dev.SparesOnly d e where
  roles : ∀ k, (e.pipe k).role = (d.pipe k).role

theorem Dev.ShadowsOnly.of_pipes {d e : Dev} (hp : e.comp.pipes = d.comp.pipes) (ha : e.regs.arms = d.regs.arms)
    (hf : ∀ f ∈ d.flt.arrivals, f ∈ e.flt.arrivals) : d.ShadowsOnly e :=
  ⟨⟨.of_pipes hp ha hf, fun k _ => Dev.pipe_congr hp k⟩, fun k => congrArg Pipe.role (Dev.pipe_congr hp k)⟩

theorem Dev.ShadowsOnly.refl (d : Dev) : d.ShadowsOnly d := .of_pipes rfl rfl fun _ h => h

theorem Dev.ShadowsOnly.trans {a b c : Dev} (h : a.ShadowsOnly b) (h' : b.ShadowsOnly c) : a.ShadowsOnly c :=
  ⟨⟨h.toAside.trans h'.toAside, fun k hk => (h'.others k (by rwa [h.roles])).trans (h.others k hk)⟩,
    fun k => (h'.roles k).trans (h.roles k)⟩

theorem Dev.ShadowsOnly.setPipe {d : Dev} {p : Nat} {x : Pipe} (hp : (d.pipe p).role = .spare) (hr : x.role = .spare)
    (h₁ : x.reqErr = (d.pipe p).reqErr) (h₂ : x.checks = (d.pipe p).checks)
    (h₃ : x.mismatch = (d.pipe p).mismatch) : d.ShadowsOnly (d.setPipe p x) := by
  refine ⟨⟨.setPipe h₁ h₂ h₃, fun k hk => Dev.pipe_setPipe_ne _ _ fun e => hk (e ▸ hp)⟩, fun k => ?_⟩
  by_cases hk : k = p
  · subst hk
    rw [Dev.pipe_setPipe, hr, hp]
  · rw [Dev.pipe_setPipe_ne _ _ hk]

theorem Dev.stopGather_pipes (p : Nat) (d : Dev) : (d.stopGather p).comp.pipes = d.comp.pipes := by
  unfold Dev.stopGather
  generalize List.range 8 = l
  induction l generalizing d with
  | nil => rfl
  | cons k l ih => rw [List.foldl_cons, ih]; rfl

theorem Dev.fire_arrivals {src inst : Nat} {x : BitVec 128} {d : Dev} : ∀ f ∈ d.flt.arrivals, f ∈ (d.fire src inst x).flt.arrivals :=
  fun _ h => List.mem_append_left _ h

theorem Dev.recordDispute_pipes (t : Dispute) (o : Nat) (r : Option Nat) (c : Word) (a b : Nat) (d : Dev) :
    (d.recordDispute t o r c a b).comp.pipes = d.comp.pipes := by
  unfold Dev.recordDispute
  split <;> rfl

theorem Dev.recordDispute_shadowsOnly (t : Dispute) (o : Nat) (r : Option Nat) (c : Word) (a b : Nat) (d : Dev) :
    d.ShadowsOnly (d.recordDispute t o r c a b) :=
  .of_pipes (Dev.recordDispute_pipes ..) (by simp) (by simp)

theorem Dev.unresolved_shadowsOnly (t : Dispute) (o : Nat) (d : Dev) : d.ShadowsOnly (d.unresolved t o) :=
  .of_pipes rfl rfl Dev.fire_arrivals

theorem Dev.popDispute_shadowsOnly (d : Dev) : d.ShadowsOnly d.popDispute := .of_pipes rfl rfl fun _ h => h

theorem Dev.stopGather_shadowsOnly (p : Nat) (d : Dev) : d.ShadowsOnly (d.stopGather p) :=
  .of_pipes (Dev.stopGather_pipes p d) (by simp) (by simp)

theorem Dev.startGather_shadowsOnly (p : Nat) (h : Held) (lo : Nat) (d : Dev) : d.ShadowsOnly (d.startGather p h lo) := by
  obtain ⟨-, -, hp, -⟩ := d.startGather_spec p h lo
  exact .of_pipes hp (by simp) (by simp)

theorem Dev.freeGather_shadowsOnly (p : Nat) (d : Dev) : d.ShadowsOnly (d.freeGather p) :=
  .of_pipes (by simp) (by simp) (by simp)

theorem Dev.dropShadows_shadowsOnly {u : Nat} {d : Dev} (hu : (d.pipe u).role = .spare) : d.ShadowsOnly (d.dropShadows u) := by
  unfold Dev.dropShadows
  refine .trans ?_ (Dev.stopGather_shadowsOnly u _)
  exact .setPipe hu hu rfl rfl rfl

/-- The disagreement at the front is served at the cost of spares' shadows alone. -/
theorem Dev.serveDisputes_shadowsOnly (n : Nat) (d : Dev) : d.ShadowsOnly (d.serveDisputes n) := by
  induction n generalizing d with
  | zero => exact .refl d
  | succ n ih =>
    unfold Dev.serveDisputes
    cases hd : d.comp.disputes with
    | nil => exact .refl d
    | cons t rest =>
      dsimp only
      by_cases ht : t.rerun.isSome = true
      · rw [if_pos ht]
        exact .refl d
      · rw [if_neg ht]
        cases hv : (d.inRole .spare).find? (· ≠ t.und) with
        | none =>
          dsimp only
          exact .trans (.trans (.trans (Dev.recordDispute_shadowsOnly ..) (Dev.unresolved_shadowsOnly ..)) (Dev.popDispute_shadowsOnly _)) (ih _)
        | some v =>
          dsimp only
          have hspare := (Dev.mem_inRole.mp (List.mem_of_find?_eq_some hv)).2
          refine .trans (b := (d.dropShadows v).startGather v t.shadow.held t.shadow.held.firstLine)
            (.trans (Dev.dropShadows_shadowsOnly hspare) (Dev.startGather_shadowsOnly ..)) ?_
          exact .of_pipes rfl rfl fun _ h => h

theorem Dev.abandonRerun_shadowsOnly (v : Nat) (d : Dev) : d.ShadowsOnly (d.abandonRerun v) := by
  unfold Dev.abandonRerun
  cases d.comp.disputes with
  | nil => exact .refl d
  | cons t l =>
    dsimp only
    split
    · refine .trans (.trans (.trans (.trans ?_ (Dev.recordDispute_shadowsOnly ..)) (Dev.unresolved_shadowsOnly ..))
        (Dev.popDispute_shadowsOnly _)) (Dev.stopGather_shadowsOnly ..)
      exact .of_pipes rfl rfl fun _ h => h
    · exact .refl d

theorem Dev.dropWork_shadowsOnly {u : Nat} {d : Dev} (hu : (d.pipe u).role = .spare) : d.ShadowsOnly (d.dropWork u) :=
  .trans (Dev.abandonRerun_shadowsOnly u d) (Dev.dropShadows_shadowsOnly (by rw [(Dev.abandonRerun_shadowsOnly u d).roles, hu]))

/-- A pipe that drops its work keeps its role, error bit and counts. -/
theorem Dev.dropWork_aside (p : Nat) (d : Dev) : d.Aside (d.dropWork p) := by
  unfold Dev.dropWork Dev.dropShadows
  refine .trans ?_ (Dev.stopGather_shadowsOnly p _).toAside
  refine .trans (Dev.abandonRerun_shadowsOnly p d).toAside ?_
  exact .setPipe rfl rfl rfl

theorem Dev.setRole_aside (p : Nat) (r : Role) (d : Dev) : d.Aside (d.setRole p r) := by
  unfold Dev.setRole
  refine .trans (b := d.setPipe p { d.pipe p with role := r, cause := 0, request := none, reqHeld := false, claimed := false })
    (.setPipe rfl rfl rfl) ?_
  exact .of_pipes rfl rfl fun _ h => h

theorem Dev.setRole_pipe (p : Nat) (r : Role) (d : Dev) : ((d.setRole p r).pipe p).role = r := by
  unfold Dev.setRole
  exact congrArg Pipe.role (Dev.pipe_setPipe p _ d)

theorem Dev.setRole_pipe_ne {p k : Nat} (r : Role) (d : Dev) (h : k ≠ p) : (d.setRole p r).pipe k = d.pipe k :=
  Dev.pipe_setPipe_ne _ _ h

theorem Dev.dropShadowsOf_shadowsOnly (p : Nat) (d : Dev) : d.ShadowsOnly (d.dropShadowsOf p) := by
  unfold Dev.dropShadowsOf
  have hl : ∀ u ∈ d.inRole .spare, (d.pipe u).role = .spare := fun u hu => (Dev.mem_inRole.mp hu).2
  generalize d.inRole .spare = l at hl
  induction l generalizing d with
  | nil => exact .refl d
  | cons u l ih =>
    rw [List.foldl_cons]
    have hu := hl u (List.mem_cons_self ..)
    have hstep := Dev.ShadowsOnly.setPipe (d := d) (p := u) (x := { d.pipe u with
      shadows := (d.pipe u).shadows.filter fun s => s.pipe ≠ p ∨ s.actCrcs.isSome
      skip := (d.pipe u).skip + BitVec.ofNat 32 ((d.pipe u).shadows.length -
        ((d.pipe u).shadows.filter fun s => s.pipe ≠ p ∨ s.actCrcs.isSome).length) }) hu hu rfl rfl rfl
    exact .trans hstep (ih _ fun v hv => (hstep.roles v).trans (hl v (List.mem_cons_of_mem _ hv)))

theorem Dev.assume_aside (p : Nat) (h : Held) (d : Dev) : d.Aside (d.assume p h) := by
  unfold Dev.assume
  dsimp only
  split
  · refine .trans ?_ (Dev.startGather_shadowsOnly ..).toAside
    exact .setPipe rfl rfl rfl
  · exact .setPipe rfl rfl rfl

theorem Dev.assume_pipe_ne {p k : Nat} (h : Held) (d : Dev) (hk : k ≠ p) : (d.assume p h).pipe k = d.pipe k := by
  unfold Dev.assume
  dsimp only
  split
  · obtain ⟨-, -, hp, -⟩ := (d.setPipe p { d.pipe p with held := some { h with alive := d.time }, claimed := h.wait }).startGather_spec p h h.nextLine
    exact (Dev.pipe_congr hp k).trans (Dev.pipe_setPipe_ne _ _ hk)
  · exact Dev.pipe_setPipe_ne _ _ hk

/-- A takeover changes spares alone. -/
theorem Dev.takeover_sparesOnly (held : Option Held) (d : Dev) : d.SparesOnly (d.takeover held) := by
  unfold Dev.takeover
  dsimp only
  generalize (held.filter fun h => !h.dead).map Held.handOver = band
  cases hl : d.inRole .spare with
  | nil =>
    cases band with
    | some h =>
      dsimp only
      exact Dev.ShadowsOnly.toSparesOnly (.of_pipes rfl rfl fun _ h => h)
    | none => exact (Dev.ShadowsOnly.refl d).toSparesOnly
  | cons v l =>
    have hv : (d.pipe v).role = .spare := (Dev.mem_inRole.mp (hl ▸ List.mem_cons_self ..)).2
    have hdrop := Dev.dropWork_shadowsOnly hv
    have hne (k : Nat) (hk : (d.pipe k).role ≠ .spare) : k ≠ v := fun e => hk (e ▸ hv)
    cases band with
    | some h =>
      exact ⟨.trans (.trans hdrop.toAside (Dev.setRole_aside ..)) (Dev.assume_aside ..), fun k hk =>
        (Dev.assume_pipe_ne _ _ (hne k hk)).trans ((Dev.setRole_pipe_ne _ _ (hne k hk)).trans (hdrop.others k hk))⟩
    | none =>
      exact ⟨.trans hdrop.toAside (Dev.setRole_aside ..), fun k hk => (Dev.setRole_pipe_ne _ _ (hne k hk)).trans (hdrop.others k hk)⟩

theorem Dev.restartRotation_shadowsOnly (d : Dev) : d.ShadowsOnly d.restartRotation := .of_pipes rfl rfl fun _ h => h

theorem askReeval_shadowsOnly (n : Nat) (d : Dev) : d.ShadowsOnly (askReeval n d) := .of_pipes rfl rfl fun _ h => h

theorem Dev.fire_shadowsOnly (src inst : Nat) (x : BitVec 128) (d : Dev) : d.ShadowsOnly (d.fire src inst x) :=
  .of_pipes rfl rfl Dev.fire_arrivals

/-- What a branch does either way. -/
theorem Dev.ShadowsOnly.ite {c : Prop} [Decidable c] {d a b : Dev} (ha : d.ShadowsOnly a) (hb : d.ShadowsOnly b) :
    d.ShadowsOnly (if c then a else b) := by
  split
  · exact ha
  · exact hb

/-- What follows a change of roles leaves the pipes as the change made them. -/
theorem Dev.changeRoles_shadowsOnly (f : Dev → Dev) (d : Dev) : (f d).ShadowsOnly (d.changeRoles f) := by
  unfold Dev.changeRoles
  dsimp only
  generalize f d = e
  have h₁ : e.ShadowsOnly (if e.inRole .active = d.inRole .active ∧ e.inRole .spare = d.inRole .spare then e else e.restartRotation) :=
    .ite (.refl e) (Dev.restartRotation_shadowsOnly e)
  generalize (if e.inRole .active = d.inRole .active ∧ e.inRole .spare = d.inRole .spare then e else e.restartRotation) = x at h₁
  have h₂ : e.ShadowsOnly (if x.nAct = d.nAct then x else askReeval 3 x) := h₁.trans (.ite (.refl x) (askReeval_shadowsOnly 3 x))
  generalize (if x.nAct = d.nAct then x else askReeval 3 x) = y at h₂
  exact h₂.trans (.ite (Dev.fire_shadowsOnly ..) (.refl y))

/-- A pipe that is fenced is FENCED with its cause, and holds nothing. -/
theorem Dev.fencePipe_spec (p cause : Nat) (d : Dev) : d.Aside (d.fencePipe p cause) ∧ ((d.fencePipe p cause).pipe p).role = .fenced ∧
    ((d.fencePipe p cause).pipe p).cause = BitVec.ofNat 2 cause ∧ ((d.fencePipe p cause).pipe p).held = none := by
  unfold Dev.fencePipe
  generalize hf : (fun d : Dev => _) = f
  have hwrap := Dev.changeRoles_shadowsOnly f d
  suffices hfd : d.Aside (f d) ∧ ((f d).pipe p).role = .fenced ∧ ((f d).pipe p).cause = BitVec.ofNat 2 cause ∧ ((f d).pipe p).held = none by
    obtain ⟨haside, hrole, hcause, hheld⟩ := hfd
    rw [hwrap.others p (by simp [hrole])]
    exact ⟨haside.trans hwrap.toAside, hrole, hcause, hheld⟩
  rw [← hf]
  dsimp only
  generalize (d.idleSince p).map _ = idle
  have h₁ : d.Aside ((((d.dropWork p).freeGather p).stopGather p).setRole p .fenced) :=
    .trans (.trans (.trans (Dev.dropWork_aside p d) (Dev.freeGather_shadowsOnly p _).toAside) (Dev.stopGather_shadowsOnly p _).toAside)
      (Dev.setRole_aside ..)
  have hrole := Dev.setRole_pipe p .fenced (((d.dropWork p).freeGather p).stopGather p)
  generalize (((d.dropWork p).freeGather p).stopGather p).setRole p .fenced = y at h₁ hrole
  have h₂ : d.Aside (y.setPipe p { y.pipe p with held := none, cause := BitVec.ofNat 2 cause, fencedAt := y.time, idle := idle }) :=
    h₁.trans (.setPipe rfl rfl rfl)
  have hz := Dev.pipe_setPipe p { y.pipe p with held := none, cause := BitVec.ofNat 2 cause, fencedAt := y.time, idle := idle } y
  generalize y.setPipe p { y.pipe p with held := none, cause := BitVec.ofNat 2 cause, fencedAt := y.time, idle := idle } = z at h₂ hz
  have hzrole : (z.pipe p).role = .fenced := by rw [hz]; exact hrole
  have h₃ := z.dropShadowsOf_shadowsOnly p
  have h₃p := h₃.others p (by simp [hzrole])
  generalize z.dropShadowsOf p = z' at h₃ h₃p
  have h₄ : z'.SparesOnly (if (d.pipe p).role = .active then z'.takeover (d.pipe p).held else z') := by
    split
    · exact Dev.takeover_sparesOnly ..
    · exact (Dev.ShadowsOnly.refl z').toSparesOnly
  have h₄p := h₄.others p (by simp [h₃p, hzrole])
  generalize (if (d.pipe p).role = .active then z'.takeover (d.pipe p).held else z') = w at h₄ h₄p
  have h₅ := w.serveDisputes_shadowsOnly 2
  have h₅p := h₅.others p (by simp [h₄p, h₃p, hzrole])
  rw [h₅p, h₄p, h₃p]
  refine ⟨((h₂.trans h₃.toAside).trans h₄.toAside).trans h₅.toAside, hzrole, ?_, ?_⟩ <;> rw [hz]

/-! ## O35: completed bands -/

theorem Dev.stopGather_busy (p : Nat) (d : Dev) : (∀ k, k < 8 → ((d.stopGather p).gather (8 * p + k)).busy = false) ∧
    ∀ g, g / 8 ≠ p → (d.stopGather p).gather g = d.gather g := by
  obtain ⟨hin, hout⟩ := foldl_each (get := Dev.gather) (idx := fun k => 8 * p + k) (F := fun _ u => u.await [])
    (step := fun d k => d.setGather (8 * p + k) ((d.gather (8 * p + k)).await []))
    (fun d k => Dev.gather_setGather ..) (fun d k j hj => Dev.gather_setGather_ne _ _ hj) (nodup_units p (List.nodup_range (n := 8))) d
  refine ⟨fun k hk => congrArg Gather.busy (hin k (List.mem_range.mpr hk)), fun g hg => hout g fun hmem => ?_⟩
  obtain ⟨k, hk, rfl⟩ := List.mem_map.mp hmem
  have := List.mem_range.mp hk
  omega

/-- The units of a list of pipes stop, and the pipes stay. -/
theorem Dev.stopGathers_spec (l : List Nat) (d : Dev) : (l.foldl (fun d q => d.stopGather q) d).comp.pipes = d.comp.pipes ∧
    ∀ g, ((d.gather g).busy = false ∨ g / 8 ∈ l) → ((l.foldl (fun d q => d.stopGather q) d).gather g).busy = false := by
  induction l generalizing d with
  | nil => exact ⟨rfl, fun g hg => hg.resolve_right (by simp)⟩
  | cons q l ih =>
    obtain ⟨hp, hb⟩ := ih (d.stopGather q)
    obtain ⟨hq, hne⟩ := d.stopGather_busy q
    rw [List.foldl_cons]
    refine ⟨hp.trans (Dev.stopGather_pipes q d), fun g hg => hb g ?_⟩
    by_cases hgq : g / 8 = q
    · have hunit : 8 * q + g % 8 = g := by omega
      exact .inl (hunit ▸ hq (g % 8) (Nat.mod_lt _ (by decide)))
    · rw [hne g hgq]
      exact hg.imp_right fun h => (List.mem_cons.mp h).resolve_left hgq

/-- The shadows of pipe `p`'s finished band learn its check values. -/
def Pipe.compareWith (p : Nat) (h : Held) (y : Pipe) : Pipe :=
  { y with shadows := y.shadows.map fun s => if s.pipe = p ∧ s.held.sameBand h then { s with actCrcs := some h.crcs } else s }

theorem Dev.compareWith_pipe (p k : Nat) (h : Held) (l : List Nat) (d : Dev) :
    let e := l.foldl (fun d u => d.setPipe u ((d.pipe u).compareWith p h)) d
    (e.pipe k).held = (d.pipe k).held ∧ (e.pipe k).role = (d.pipe k).role ∧ (e.pipe k).bands = (d.pipe k).bands ∧
      (e.pipe k).request = (d.pipe k).request ∧ e.comp.gather = d.comp.gather := by
  dsimp only
  induction l generalizing d with
  | nil => exact ⟨rfl, rfl, rfl, rfl, rfl⟩
  | cons u l ih =>
    rw [List.foldl_cons]
    obtain ⟨h₁, h₂, h₃, h₄, h₅⟩ := ih (d.setPipe u ((d.pipe u).compareWith p h))
    rw [h₁, h₂, h₃, h₄, h₅]
    by_cases hk : k = u
    · subst hk
      rw [Dev.pipe_setPipe]
      exact ⟨rfl, rfl, rfl, rfl, rfl⟩
    · rw [Dev.pipe_setPipe_ne _ _ hk]
      exact ⟨rfl, rfl, rfl, rfl, rfl⟩

/-- What the end of a band leaves before the boundary. -/
def Dev.bandEnded (p : Nat) (h : Held) (d : Dev) : Dev :=
  let d := (p :: d.followers p h).foldl (fun d q => d.stopGather q) d
  let d := d.setPipe p { d.pipe p with held := none, bands := (d.pipe p).bands + 1 }
  let d := (d.inRole .spare).foldl (fun d u => d.setPipe u ((d.pipe u).compareWith p h)) d
  if h.par && !h.dead then
    d.setCanvas h.canvas { d.canvas h.canvas with
      par := { (d.canvas h.canvas).par with left := (d.canvas h.canvas).par.left - 1 } }
  else d

theorem Dev.finishBand_eq (p : Nat) (h : Held) (d : Dev) : d.finishBand p h = (d.bandEnded p h).atBoundary p := by
  unfold Dev.finishBand Dev.bandEnded
  dsimp only
  generalize (p :: d.followers p h).foldl (fun d q => d.stopGather q) d = y
  generalize y.setPipe p _ = z
  generalize z.inRole .spare = l
  unfold Pipe.compareWith
  rfl

theorem Dev.bandEnded_spec (p : Nat) (h : Held) (d : Dev) : ((d.bandEnded p h).pipe p).held = none ∧
    ((d.bandEnded p h).pipe p).role = (d.pipe p).role ∧ ((d.bandEnded p h).pipe p).bands = (d.pipe p).bands + 1 ∧
    ((d.bandEnded p h).pipe p).request = (d.pipe p).request ∧
    ∀ k : Fin 8, ((d.bandEnded p h).gather (8 * p + k)).busy = false := by
  unfold Dev.bandEnded
  dsimp only
  obtain ⟨hpipes, hbusy⟩ := Dev.stopGathers_spec (p :: d.followers p h) d
  have hstop (k : Fin 8) := hbusy (8 * p + k) (.inr (List.mem_cons.mpr (.inl (by omega))))
  have hp := Dev.pipe_congr hpipes p
  generalize (p :: d.followers p h).foldl (fun d q => d.stopGather q) d = y at *
  have hset := Dev.pipe_setPipe p { y.pipe p with held := none, bands := (y.pipe p).bands + 1 } y
  have hgath (g : Nat) : (y.setPipe p { y.pipe p with held := none, bands := (y.pipe p).bands + 1 }).gather g = y.gather g := rfl
  generalize y.setPipe p { y.pipe p with held := none, bands := (y.pipe p).bands + 1 } = z at *
  obtain ⟨h₁, h₂, h₃, h₄, h₅⟩ := z.compareWith_pipe p p h (z.inRole .spare)
  have hg := Dev.gather_congr h₅
  generalize (z.inRole .spare).foldl _ z = w at *
  rw [hset] at h₁ h₂ h₃ h₄
  rw [hp] at h₂ h₃ h₄
  have hcanv (x : Canvas) : (w.setCanvas h.canvas x).pipe p = w.pipe p := rfl
  split
  · rw [hcanv]
    exact ⟨h₁, h₂, h₃, h₄, fun k => by rw [Dev.setCanvas_gather, hg, hgath]; exact hstop k⟩
  · exact ⟨h₁, h₂, h₃, h₄, fun k => by rw [hg, hgath]; exact hstop k⟩

theorem bandComplete_spec {p : PipeNo} {s : State} {h : Held} (hh : (s.dev.pipe p).held = some h) (hd : h.done = true)
    (hw : h.wait = false) (hr : (s.dev.pipe p).request = none) :
    ∃ u, exec (.bandComplete p) s = .next u ∧ (u.dev.pipe p).held = none ∧ (u.dev.pipe p).role = (s.dev.pipe p).role ∧
      (u.dev.pipe p).bands = (s.dev.pipe p).bands + 1 ∧ ∀ k : Fin 8, (u.dev.gather (8 * p + k)).busy = false := by
  obtain ⟨h₁, h₂, h₃, h₄, h₅⟩ := s.dev.bandEnded_spec p h
  have he : exec (.bandComplete p) s = .next ⟨s.dev.bandEnded p h, s.pending⟩ := by
    have hend : s.dev.finishBand p h = s.dev.bandEnded p h := by
      rw [Dev.finishBand_eq, Dev.atBoundary, h₄, hr]
    show execBandComplete p s = _
    rw [execBandComplete, State.dev!_next, hh]
    dsimp only
    rw [hd, hw, ← hend]
    rfl
  refine ⟨_, he, ?_⟩
  dsimp only
  exact ⟨h₁, h₂, h₃, h₅⟩

/-! ## O35: understudies and votes -/

theorem Dev.addDispute_aside (t : Dispute) (d : Dev) : d.Aside (d.addDispute t) := by
  unfold Dev.addDispute
  refine .trans ?_ (Dev.serveDisputes_shadowsOnly 2 _).toAside
  exact .of_pipes rfl rfl fun _ h => h

theorem understudyCompare_spec {p : PipeNo} {err : Word} {s : State} {sh : Shadow} {rest : List Shadow} {a : List (Nat × Word)}
    (hsh : (s.dev.pipe p).shadows = sh :: rest) (hr : (s.dev.pipe p).role = .spare) (ha : sh.actCrcs = some a) :
    ∃ u, exec (.understudyBandCompare p err) s = .next u ∧ (u.dev.pipe p).checks = (s.dev.pipe p).checks + 1 ∧
      (differing sh.held a (crcsOf (sh.delivers err)) = [] → u.dev.flt = s.dev.flt ∧
        u.dev.pipe p = { s.dev.pipe p with shadows := rest, checks := (s.dev.pipe p).checks + 1 } ∧
        ∀ k, k ≠ p.val → u.dev.pipe k = s.dev.pipe k) ∧
      (differing sh.held a (crcsOf (sh.delivers err)) ≠ [] →
        (u.dev.pipe p).mismatch = (s.dev.pipe p).mismatch + 1) := by
  have he : exec (.understudyBandCompare p err) s =
      .next ⟨(s.dev.setPipe p { s.dev.pipe p with shadows := rest }).compareBand p sh err, s.pending⟩ := by
    show s.dev! (Dev.understudyCompares p err) = _
    rw [State.dev!_next, Dev.understudyCompares]
    dsimp only
    rw [hsh]
    simp [hr, ha]
  refine ⟨_, he, ?_⟩
  dsimp only
  have hy := Dev.pipe_setPipe p { s.dev.pipe p with shadows := rest } s.dev
  have hyne (k : Nat) (hk : k ≠ p.val) := Dev.pipe_setPipe_ne { s.dev.pipe p with shadows := rest } s.dev hk
  have hflt : (s.dev.setPipe p { s.dev.pipe p with shadows := rest }).flt = s.dev.flt := rfl
  generalize s.dev.setPipe p { s.dev.pipe p with shadows := rest } = y at *
  unfold Dev.compareBand
  dsimp only
  rw [ha, Option.getD_some, hy]
  dsimp only
  by_cases hdiff : differing sh.held a (crcsOf (sh.delivers err)) = []
  · rw [hdiff, List.isEmpty_nil, if_pos rfl, Dev.pipe_setPipe]
    exact ⟨rfl, fun _ => ⟨hflt, rfl, fun k hk => (Dev.pipe_setPipe_ne _ _ hk).trans (hyne k hk)⟩, fun h => absurd rfl h⟩
  · rw [if_neg (by simpa using hdiff)]
    have hcounts := Dev.pipe_setPipe p { s.dev.pipe p with shadows := rest, checks := (s.dev.pipe p).checks + 1,
                                                           mismatch := (s.dev.pipe p).mismatch + 1 } y
    generalize y.setPipe p { s.dev.pipe p with shadows := rest, checks := (s.dev.pipe p).checks + 1,
                                               mismatch := (s.dev.pipe p).mismatch + 1 } = z at *
    obtain ⟨-, hchecks, hmm⟩ := (Dev.addDispute_aside { shadow := sh, und := p, undLines := sh.delivers err,
                                                        undCrcs := crcsOf (sh.delivers err), since := y.time } z).pipes p
    rw [hcounts] at hchecks hmm
    exact ⟨hchecks, fun h => absurd h hdiff, fun _ => hmm⟩

/-- A pipe that loses the vote is fenced, and check-mismatch has fired for it. -/
theorem Dev.fence_lost (p : Nat) (x : BitVec 128) (d : Dev) :
    (((d.fire 289 p x).fencePipe p 2).pipe p).role = .fenced ∧
    ∃ f ∈ ((d.fire 289 p x).fencePipe p 2).flt.arrivals, f.src = 289 ∧ f.inst = p := by
  obtain ⟨haside, hrole, -⟩ := (d.fire 289 p x).fencePipe_spec p 2
  exact ⟨hrole, _, haside.arrivals _ (List.mem_append_right _ (List.mem_singleton_self _)), rfl, rfl⟩

theorem Dev.replaceLines_pipes (t : Dispute) (ys : List Nat) (d : Dev) : (d.replaceLines t ys).comp.pipes = d.comp.pipes := by simp

/-- The three ends of a vote. -/
theorem Dev.vote_spec {t : Dispute} {v : Nat} {r a : List (Nat × Word)} {d : Dev} (ha : t.shadow.actCrcs = some a) :
    (differing t.shadow.held r t.undCrcs = [] → (d.pipe t.shadow.pipe).role ≠ .fenced →
      ((d.vote t v r).pipe t.shadow.pipe).role = .fenced ∧ ∃ f ∈ (d.vote t v r).flt.arrivals, f.src = 289 ∧ f.inst = t.shadow.pipe) ∧
    (differing t.shadow.held r t.undCrcs ≠ [] → differing t.shadow.held r a = [] → (d.pipe t.und).role ≠ .fenced →
      ((d.vote t v r).pipe t.und).role = .fenced ∧ ∃ f ∈ (d.vote t v r).flt.arrivals, f.src = 289 ∧ f.inst = t.und) ∧
    (differing t.shadow.held r t.undCrcs ≠ [] → differing t.shadow.held r a ≠ [] →
      (∀ k, ((d.vote t v r).pipe k).role = (d.pipe k).role) ∧ ∃ f ∈ (d.vote t v r).flt.arrivals, f.src = 291 ∧ f.inst = t.und) := by
  unfold Dev.vote
  dsimp only
  rw [ha, Option.getD_some]
  refine ⟨fun hu hrole => ?_, fun hu hact hrole => ?_, fun hu hact => ?_⟩
  · rw [hu, List.isEmpty_nil, if_pos rfl]
    generalize differing t.shadow.held a t.undCrcs = ys
    generalize List.filter (d.begun t.shadow.held) ys = shown
    have hp := (Dev.pipe_congr (Dev.recordDispute_pipes t 0 (some v) (crcOf r (ys.headD 0)) (ys.length - shown.length) shown.length
      (d.replaceLines t ys)) t.shadow.pipe).trans (Dev.pipe_congr (Dev.replaceLines_pipes t ys d) t.shadow.pipe)
    rw [if_neg (by rw [hp]; exact hrole)]
    exact Dev.fence_lost ..
  · rw [if_neg (by simpa using hu), hact, List.isEmpty_nil, if_pos rfl]
    generalize crcOf r _ = c
    have hp := Dev.pipe_congr (Dev.recordDispute_pipes t 1 (some v) c 0 0 d) t.und
    rw [if_neg (by rw [hp]; exact hrole)]
    exact Dev.fence_lost ..
  · rw [if_neg (by simpa using hu), if_neg (by simpa using hact)]
    generalize crcOf r _ = c
    refine ⟨((Dev.recordDispute_shadowsOnly t 2 (some v) c 0 0 d).trans (Dev.unresolved_shadowsOnly t 2 _)).roles, _,
      List.mem_append_right _ (List.mem_singleton_self _), rfl, rfl⟩

theorem rerunComplete_spec {p : PipeNo} {err : Word} {s : State} {t : Dispute} {rest : List Dispute} {a r : List (Nat × Word)}
    (hd : s.dev.comp.disputes = t :: rest) (ht : t.rerun = some p.val) (hr : (s.dev.pipe p).role = .spare)
    (ha : t.shadow.actCrcs = some a) (hrr : r = s.dev.rerunCrcs p t err) :
    ∃ u, exec (.rerunComplete p err) s = .next u ∧
      (differing t.shadow.held r t.undCrcs = [] → (s.dev.pipe t.shadow.pipe).role ≠ .fenced →
        (u.dev.pipe t.shadow.pipe).role = .fenced ∧ ∃ f ∈ u.dev.flt.arrivals, f.src = 289 ∧ f.inst = t.shadow.pipe) ∧
      (differing t.shadow.held r t.undCrcs ≠ [] → differing t.shadow.held r a = [] →
        (s.dev.pipe t.und).role ≠ .fenced →
        (u.dev.pipe t.und).role = .fenced ∧ ∃ f ∈ u.dev.flt.arrivals, f.src = 289 ∧ f.inst = t.und) ∧
      (differing t.shadow.held r t.undCrcs ≠ [] → differing t.shadow.held r a ≠ [] →
        (∀ k, (u.dev.pipe k).role = (s.dev.pipe k).role) ∧ ∃ f ∈ u.dev.flt.arrivals, f.src = 291 ∧ f.inst = t.und) := by
  have he : exec (.rerunComplete p err) s = .next ⟨((s.dev.popDispute.stopGather p).vote t p r).serveDisputes 2, s.pending⟩ := by
    show execRerunComplete p err s = _
    rw [execRerunComplete, State.dev!_next, hd]
    dsimp only
    rw [if_pos ⟨ht, hr⟩, hrr]
  refine ⟨_, he, ?_⟩
  dsimp only
  have hpop := (Dev.popDispute_shadowsOnly s.dev).trans (Dev.stopGather_shadowsOnly p s.dev.popDispute)
  obtain ⟨h₁, h₂, h₃⟩ := Dev.vote_spec (t := t) (v := p) (r := r) (d := s.dev.popDispute.stopGather p) ha
  generalize (s.dev.popDispute.stopGather p).vote t p r = y at *
  have hserve := y.serveDisputes_shadowsOnly 2
  simp only [hserve.roles, ← hpop.roles] at *
  refine ⟨fun hu hrole => ?_, fun hu hact hrole => ?_, fun hu hact => ?_⟩
  · obtain ⟨hfen, f, hf, hsrc⟩ := h₁ hu hrole
    exact ⟨hfen, f, hserve.arrivals f hf, hsrc⟩
  · obtain ⟨hfen, f, hf, hsrc⟩ := h₂ hu hact hrole
    exact ⟨hfen, f, hserve.arrivals f hf, hsrc⟩
  · obtain ⟨hroles, f, hf, hsrc⟩ := h₃ hu hact
    exact ⟨hroles, f, hserve.arrivals f hf, hsrc⟩

/-- Settles O35: lines, completed bands, compares, votes and the rotation. -/
theorem pipesComposeAndCheck : Obligations.PipesComposeAndCheck := by
  unfold Obligations.PipesComposeAndCheck
  refine fun p err s => ⟨fun h hh hf hw hd hdead => lineWrite_spec hh hf hw hd hdead, fun h hh hd hw hr => bandComplete_spec hh hd hw hr,
    fun sh rest a hsh hr ha => understudyCompare_spec hsh hr ha,
    fun t rest a r hd ht hr ha _ _ _ hrr => rerunComplete_spec hd ht hr ha hrr, fun hc hst hat => ⟨⟨s.dev.rotate, s.pending⟩, ?_, rfl, rfl, rfl, ?_⟩⟩
  · show execRotationStep s = _
    rw [execRotationStep, State.dev!_next, hc]
    simp [hst, hat]
  · simp [Dev.onlyChanges_iff, Dev.rotate]

/-! ## O36: fences and roles -/

theorem pipeWatchdog_due {p : PipeNo} {s : State} {t : Quad} (hi : s.dev.idleSince p = some t)
    (hd : t.toNat + s.dev.fld .cmp 0 CMP_WD 12 0 ≤ s.dev.time.toNat) :
    ∃ u, exec (.pipeWatchdog p) s = .next u ∧ (u.dev.pipe p).role = .fenced ∧ (u.dev.pipe p).cause = 1 ∧
      (u.dev.pipe p).held = none ∧ ∃ f, f ∈ u.dev.flt.arrivals ∧ f.src = 288 ∧ f.inst = p.val := by
  have he : exec (.pipeWatchdog p) s =
      .next ⟨(s.dev.fire 288 p (s.dev.fenceDetail p (s.dev.spareBand p))).fencePipe p 1, s.pending⟩ := by
    show execPipeWatchdog p s = _
    rw [execPipeWatchdog, State.dev!_next]
    dsimp only
    rw [hi]
    simp [Dev.watchdogDue, hd]
  refine ⟨_, he, ?_⟩
  dsimp only
  obtain ⟨haside, hrole, hcause, hheld⟩ := (s.dev.fire 288 p (s.dev.fenceDetail p (s.dev.spareBand p))).fencePipe_spec p 1
  exact ⟨hrole, hcause, hheld, _, haside.arrivals _ (List.mem_append_right _ (List.mem_singleton_self _)), rfl, rfl⟩

theorem pipeWatchdog_notDue {p : PipeNo} {s : State} {t : Quad} (hi : s.dev.idleSince p = some t)
    (hd : ¬ t.toNat + s.dev.fld .cmp 0 CMP_WD 12 0 ≤ s.dev.time.toNat) : exec (.pipeWatchdog p) s = .next s := by
  show execPipeWatchdog p s = _
  rw [execPipeWatchdog, State.dev!_next]
  dsimp only
  rw [hi]
  simp [Dev.watchdogDue, hd]

theorem takeoverRestart_spec {p : PipeNo} {s : State} {h : Held} (hh : (s.dev.pipe p).held = some h) (hw : h.wait = true) (hd : h.done = false) :
    ∃ u, exec (.takeoverRestart p) s = .next u ∧ (u.dev.pipe p).claimed = false ∧
      (u.dev.pipe p).held = some { h with wait := false, fetched := true, alive := s.dev.time } ∧
      ∀ k, k ≠ p.val → u.dev.pipe k = s.dev.pipe k := by
  have he : exec (.takeoverRestart p) s = .next ⟨s.dev.setPipe p { s.dev.pipe p with
      held := some { h with wait := false, fetched := true, alive := s.dev.time }, claimed := false }, s.pending⟩ := by
    have hd' : ({ h with wait := false, fetched := true, alive := s.dev.time } : Held).done = false := hd
    show execTakeoverRestart p s = _
    rw [execTakeoverRestart, State.dev!_next, hh]
    dsimp only
    rw [hw, Dev.when_true, if_neg (by rw [hd']; decide)]
  refine ⟨_, he, ?_⟩
  dsimp only
  rw [Dev.pipe_setPipe]
  exact ⟨rfl, rfl, fun k hk => Dev.pipe_setPipe_ne _ _ hk⟩

/-- An accepted request clears `REQ_ERR` in every pipe and changes nothing else of it. -/
theorem Dev.requestAccepted_spec (d : Dev) : (∀ k, k < 14 → d.requestAccepted.pipe k = { d.pipe k with reqErr := false }) ∧
    ∀ k, ¬ k < 14 → d.requestAccepted.pipe k = d.pipe k := by
  obtain ⟨hin, hout⟩ := foldl_each (get := Dev.pipe) (idx := id) (F := fun _ x => { x with reqErr := false })
    (step := fun d k => d.setPipe k { d.pipe k with reqErr := false }) (fun d k => Dev.pipe_setPipe ..)
    (fun d k j hj => Dev.pipe_setPipe_ne _ _ hj) (by rw [List.map_id]; exact List.nodup_range (n := 14)) d
  exact ⟨fun k hk => hin k (List.mem_range.mpr hk), fun k hk => hout k (by simpa using hk)⟩

/-- A pipe that is granted a role other than its own has it, and no error bit sets. -/
theorem Dev.grantRole_spec {p : Nat} {r : Role} {d : Dev} (hr : (d.pipe p).role ≠ r) : d.Aside (d.grantRole p r) ∧
    ((d.grantRole p r).pipe p).role = r := by
  unfold Dev.grantRole
  have hgrant (r : Role) (hr : r ≠ .fenced) : d.Aside (d.changeRoles fun d => ((d.dropWork p).setRole p r).serveDisputes 2) ∧
      ((d.changeRoles fun d => ((d.dropWork p).setRole p r).serveDisputes 2).pipe p).role = r := by
    have hserve := ((d.dropWork p).setRole p r).serveDisputes_shadowsOnly 2
    have hwrap := Dev.changeRoles_shadowsOnly (fun d => ((d.dropWork p).setRole p r).serveDisputes 2) d
    refine ⟨.trans (.trans (.trans (Dev.dropWork_aside p d) (Dev.setRole_aside ..)) hserve.toAside) hwrap.toAside, ?_⟩
    rw [hwrap.roles, hserve.roles, Dev.setRole_pipe]
  cases r with
  | fenced =>
    dsimp only
    rw [if_neg hr]
    obtain ⟨haside, hrole, -⟩ := (d.fire 290 p (dbits 0 (d.pipe p).role.code)).fencePipe_spec p 3
    exact ⟨(Dev.fire_shadowsOnly ..).toAside.trans haside, hrole⟩
  | active => exact hgrant .active (by decide)
  | spare => exact hgrant .spare (by decide)

/-- A request of a role, as `Dev.requestRole` takes up its code `n`. -/
def Dev.askRole (p n : Nat) (r : Role) (d : Dev) : Dev :=
  if (d.pipe p).claimed then
    (d.requestAccepted.setPipe p { d.requestAccepted.pipe p with request := some r, reqHeld := true }).setReg .cmp p CMP_CTL (BitVec.ofNat 32 n)
  else if ¬ d.roleLegal p r then d.setPipe p { d.pipe p with reqErr := true }
  else if (d.pipe p).role = .active && (d.pipe p).held.isSome && r = .spare then
    (d.requestAccepted.setPipe p { d.requestAccepted.pipe p with request := some r }).setReg .cmp p CMP_CTL (BitVec.ofNat 32 n)
  else if (d.pipe p).role = r then
    (d.requestAccepted.setPipe p { d.requestAccepted.pipe p with request := none, reqHeld := false }).setReg .cmp p CMP_CTL (BitVec.ofNat 32 n)
  else d.requestAccepted.grantRole p r

theorem Dev.requestRole_eq {p : Nat} {r : BitVec 2} {role : Role} (d : Dev)
    (hr : r = 0 ∧ role = .active ∨ r = 1 ∧ role = .spare ∨ r = 2 ∧ role = .fenced) :
    d.requestRole p r.toNat = d.askRole p r.toNat role := by
  rcases hr with ⟨rfl, rfl⟩ | ⟨rfl, rfl⟩ | ⟨rfl, rfl⟩ <;> rfl

/-- A role request of a pipe that a takeover claims, of one whose role would not be legal, and of any other. -/
theorem Dev.askRole_spec {p n : Nat} {role : Role} {d : Dev} (hp : p < 14) :
    (d.askRole p n role).regs.arms = d.regs.arms ∧
    ((d.pipe p).claimed = true → ((d.askRole p n role).pipe p).role = (d.pipe p).role ∧
      ((d.askRole p n role).pipe p).request = some role ∧ ((d.askRole p n role).pipe p).reqHeld = true) ∧
    ((d.pipe p).claimed = false → d.roleLegal p role = true → (∀ k, k < 14 → ((d.askRole p n role).pipe k).reqErr = false) ∧
      (((d.pipe p).role = .active ∧ (d.pipe p).held.isSome ∧ role = .spare) →
        ((d.askRole p n role).pipe p).role = .active ∧ ((d.askRole p n role).pipe p).request = some .spare) ∧
      (¬ ((d.pipe p).role = .active ∧ (d.pipe p).held.isSome ∧ role = .spare) → ((d.askRole p n role).pipe p).role = role)) ∧
    ((d.pipe p).claimed = false → d.roleLegal p role = false → ((d.askRole p n role).pipe p).reqErr = true ∧
      ((d.askRole p n role).pipe p).role = (d.pipe p).role ∧ ∀ k, k ≠ p → (d.askRole p n role).pipe k = d.pipe k) := by
  obtain ⟨hacc, -⟩ := d.requestAccepted_spec
  have harms : d.requestAccepted.regs.arms = d.regs.arms := by simp
  have hx := hacc p hp
  have hshown (x : Pipe) (e : Dev) (k : Nat) (hk : k < 14) (hxe : x.reqErr = false) (h : ∀ k, k < 14 → (e.pipe k).reqErr = false) :
      ((e.setPipe p x).pipe k).reqErr = false := by
    by_cases hkp : k = p
    · rw [hkp, Dev.pipe_setPipe, hxe]
    · rw [Dev.pipe_setPipe_ne _ _ hkp]; exact h k hk
  have hclear (k : Nat) (hk : k < 14) : (d.requestAccepted.pipe k).reqErr = false := by rw [hacc k hk]
  have hreg (e : Dev) (w : Word) (k : Nat) : (e.setReg .cmp p CMP_CTL w).pipe k = e.pipe k := rfl
  have hregArms (e : Dev) (w : Word) : (e.setReg .cmp p CMP_CTL w).regs.arms = e.regs.arms := rfl
  unfold Dev.askRole
  generalize d.requestAccepted = y at *
  by_cases hc : (d.pipe p).claimed = true
  · rw [if_pos hc, hregArms, hreg, Dev.pipe_setPipe]
    exact ⟨harms, fun _ => ⟨by rw [hx], rfl, rfl⟩, fun h => absurd hc (by rw [h]; decide), fun h => absurd hc (by rw [h]; decide)⟩
  rw [if_neg hc]
  cases hl : d.roleLegal p role with
  | false =>
    rw [if_pos (by decide), Dev.pipe_setPipe]
    exact ⟨rfl, fun h => absurd h hc, fun _ h => absurd h (by decide), fun _ _ => ⟨rfl, rfl, fun k hk => Dev.pipe_setPipe_ne _ _ hk⟩⟩
  | true =>
    rw [if_neg (by decide)]
    by_cases hw : (d.pipe p).role = .active ∧ (d.pipe p).held.isSome ∧ role = .spare
    · obtain ⟨hact, hheld, hspare⟩ := hw
      rw [if_pos (by simp [hact, hheld, hspare]), hregArms, hspare]
      refine ⟨harms, fun h => absurd h hc, fun _ _ => ⟨fun k hk => ?_, fun _ => ?_, fun h => absurd ⟨hact, hheld, rfl⟩ h⟩, fun _ h => absurd h (by decide)⟩
      · rw [hreg]; exact hshown _ y k hk (hclear p hp) hclear
      · rw [hreg, Dev.pipe_setPipe]
        exact ⟨by rw [hx]; exact hact, rfl⟩
    · rw [if_neg (by simpa [and_assoc] using hw)]
      by_cases hsame : (d.pipe p).role = role
      · rw [if_pos hsame, hregArms]
        refine ⟨harms, fun h => absurd h hc, fun _ _ => ⟨fun k hk => ?_, fun h => absurd h hw, fun _ => ?_⟩, fun _ h => absurd h (by decide)⟩
        · rw [hreg]; exact hshown _ y k hk (hclear p hp) hclear
        · rw [hreg, Dev.pipe_setPipe, hx]; exact hsame
      · rw [if_neg hsame]
        obtain ⟨haside, hgot⟩ := Dev.grantRole_spec (p := p) (r := role) (d := y) (by rw [hx]; exact hsame)
        exact ⟨haside.arms.trans harms, fun h => absurd h hc, fun _ _ => ⟨fun k hk => (haside.pipes k).1.trans (hclear k hk),
          fun h => absurd h hw, fun _ => hgot⟩, fun _ h => absurd h (by decide)⟩

theorem cmpRoleRequest_spec {m : Fn} {p : PipeNo} {r : BitVec 2} {role : Role} {s : State} (h : s.dev.mayWriteReg m .cmp p CMP_CTL)
    (ha : s.dev.armed (PType.cmp.page + p) m = true) (hr : r = 0 ∧ role = .active ∨ r = 1 ∧ role = .spare ∨ r = 2 ∧ role = .fenced) :
    ∃ u, exec (.cmpRoleRequest m p r) s = .next u ∧ u.dev.armed (PType.cmp.page + p) m = false ∧
      (if (s.dev.pipe p).claimed then (u.dev.pipe p).role = (s.dev.pipe p).role ∧ (u.dev.pipe p).request = some role ∧
        (u.dev.pipe p).reqHeld = true
       else if s.dev.roleLegal p role then
        (∀ k, k < 14 → (u.dev.pipe k).reqErr = false) ∧
        (if (s.dev.pipe p).role = .active ∧ (s.dev.pipe p).held.isSome ∧ role = .spare then
          (u.dev.pipe p).role = .active ∧ (u.dev.pipe p).request = some .spare
         else (u.dev.pipe p).role = role)
       else (u.dev.pipe p).reqErr = true ∧ (u.dev.pipe p).role = (s.dev.pipe p).role ∧
         ∀ k, k ≠ p.val → u.dev.pipe k = s.dev.pipe k) := by
  have hle : r.toNat ≤ 2 := by rcases hr with ⟨rfl, -⟩ | ⟨rfl, -⟩ | ⟨rfl, -⟩ <;> decide
  have he : exec (.cmpRoleRequest m p r) s = .next ⟨(s.dev.setArm (40 + p) m false).askRole p r.toNat role, s.pending⟩ := by
    show s.dev! (Dev.regWrite m .cmp p CMP_CTL (r.setWidth 32)) = _
    rw [State.dev!_next, Dev.regWrite_role h ha hle, Dev.requestRole_eq _ hr]
  refine ⟨_, he, ?_⟩
  dsimp only
  have harmed := Dev.armed_setArm (40 + p) m false s.dev
  have hlegal : (s.dev.setArm (40 + p) m false).roleLegal p role = s.dev.roleLegal p role := rfl
  have hpipe (k : Nat) : (s.dev.setArm (40 + p) m false).pipe k = s.dev.pipe k := rfl
  generalize s.dev.setArm (40 + p) m false = y at *
  obtain ⟨harms, hclaimed, hok, hbad⟩ := Dev.askRole_spec (p := p) (n := r.toNat) (role := role) (d := y) p.isLt
  simp only [hlegal, hpipe] at hclaimed hok hbad
  refine ⟨by rw [Dev.armed, harms]; exact harmed, ?_⟩
  by_cases hc : (s.dev.pipe p).claimed = true
  · rw [if_pos hc]; exact hclaimed hc
  · rw [if_neg hc]
    have hc' : (s.dev.pipe p).claimed = false := by simpa using hc
    by_cases hl : s.dev.roleLegal p role = true
    · rw [if_pos hl]
      obtain ⟨herr, hwait, hnow⟩ := hok hc' hl
      refine ⟨herr, ?_⟩
      by_cases hw : (s.dev.pipe p).role = .active ∧ (s.dev.pipe p).held.isSome ∧ role = .spare
      · rw [if_pos hw]; exact hwait hw
      · rw [if_neg hw]; exact hnow hw
    · rw [if_neg hl]; exact hbad hc' (by simpa using hl)

/-- Settles O36: the watchdog, the restart after a takeover, and the role request by case. -/
theorem pipesAreFencedAndChangeRoles : Obligations.PipesAreFencedAndChangeRoles := by
  unfold Obligations.PipesAreFencedAndChangeRoles
  refine fun p s => ⟨fun t hi => ?_, fun h hh hw hd => takeoverRestart_spec hh hw hd, fun m r role h ha hr => cmpRoleRequest_spec h ha hr⟩
  by_cases hd : t.toNat + s.dev.fld .cmp 0 CMP_WD 12 0 ≤ s.dev.time.toNat
  · rw [if_pos hd]; exact pipeWatchdog_due hi hd
  · rw [if_neg hd]; exact pipeWatchdog_notDue hi hd

end Sys2Proof.Machine
end

section
/-!
PROOF of O37 and O38: canvases are enabled, drained and relinked, and frame locks follow their reference.
-/
namespace Sys2Proof.Machine
set_option Elab.async false

/-! ## What a canvas keeps while words are applied -/

/-- The state, the mode and the scan buffer of a canvas stay. -/
def Canvas.stands (x y : Canvas) : Prop :=
  y.state = x.state ∧ y.en = x.en ∧ y.mode = x.mode ∧ y.blocks = x.blocks ∧ y.scan = x.scan

theorem Canvas.stands_refl (x : Canvas) : x.stands x := ⟨rfl, rfl, rfl, rfl, rfl⟩

theorem Canvas.stands_trans {x y z : Canvas} (h : x.stands y) (h' : y.stands z) : x.stands z := by
  obtain ⟨h₁, h₂, h₃, h₄, h₅⟩ := h
  obtain ⟨h₁', h₂', h₃', h₄', h₅'⟩ := h'
  exact ⟨h₁'.trans h₁, h₂'.trans h₂, h₃'.trans h₃, h₄'.trans h₄, h₅'.trans h₅⟩

/-- Every canvas stands between two devices. -/
structure Dev.Stands (d e : Dev) : Prop where
  canvas : ∀ k, (d.canvas k).stands (e.canvas k)

theorem Dev.Stands.trans {a b c : Dev} (h : a.Stands b) (h' : b.Stands c) : a.Stands c :=
  ⟨fun k => Canvas.stands_trans (h.canvas k) (h'.canvas k)⟩

theorem Dev.Stands.of_canvases {d e : Dev} (h : e.canvases = d.canvases) : d.Stands e := ⟨fun k => by
  rw [Dev.canvas_congr h k]; exact Canvas.stands_refl _⟩

theorem Dev.setCanvas_stands {d : Dev} {j : Nat} {x : Canvas} (h : (d.canvas j).stands x) : d.Stands (d.setCanvas j x) := ⟨fun k => by
  by_cases hk : k = j
  · subst hk
    rwa [Dev.canvas_setCanvas]
  · rw [Dev.canvas_setCanvas_ne _ _ hk]
    exact Canvas.stands_refl _⟩

theorem Dev.Stands.of_set {d e : Dev} {j : Nat} {x : Canvas} (he : e.canvases = (d.setCanvas j x).canvases)
    (h : (d.canvas j).stands x) : d.Stands e := (Dev.setCanvas_stands h).trans (.of_canvases he)

theorem Dev.foldl_stands {β : Type} {step : Dev → β → Dev} (h : ∀ (d : Dev) b, d.Stands (step d b)) (l : List β) (d : Dev) :
    d.Stands (l.foldl step d) := by
  induction l generalizing d with
  | nil => exact Dev.Stands.of_canvases rfl
  | cons b l ih => exact Dev.Stands.trans (h d b) (ih _)

theorem Dev.enterHoldover_stands (c : Nat) (d : Dev) : d.Stands (d.enterHoldover c) := by
  unfold Dev.enterHoldover
  refine .trans (Dev.setCanvas_stands (j := c) ?_) (.of_canvases rfl)
  exact ⟨rfl, rfl, rfl, rfl, rfl⟩

theorem Dev.masterLeft_stands (m : Nat) (d : Dev) : d.Stands (d.masterLeft m) := by
  unfold Dev.masterLeft
  refine Dev.foldl_stands (fun d c => ?_) _ d
  dsimp only
  split
  · exact Dev.enterHoldover_stands c d
  · exact Dev.Stands.of_canvases rfl

theorem Dev.leaveRunning_stands (c : Nat) (d : Dev) : d.Stands (d.leaveRunning c) :=
  Dev.Stands.trans (Dev.Stands.of_canvases (by simp)) (Dev.masterLeft_stands c _)

theorem Dev.applyWord_stands (c : Nat) (e : Nat × Word) (d : Dev) : d.Stands (d.applyWord c e) := by
  unfold Dev.applyWord Dev.applyLock
  dsimp only
  split
  · exact .of_set (j := c) rfl ⟨rfl, rfl, rfl, rfl, rfl⟩
  · exact .of_set (j := c) rfl ⟨rfl, rfl, rfl, rfl, rfl⟩

theorem Dev.canvases_watchPll (c : Nat) (f : Dev → Dev) (d : Dev) : (d.watchPll c f).canvases = (f d).canvases := by
  unfold Dev.watchPll
  dsimp only
  split <;> rfl

theorem Dev.applyWords_stands (c : Nat) (l : List (Nat × Word)) (d : Dev) : d.Stands (d.applyWords c l) := by
  unfold Dev.applyWords
  dsimp only
  refine Dev.Stands.trans (Dev.Stands.of_canvases (e := d.unadmit c l) (by simp)) ?_
  generalize d.unadmit c l = d
  split
  · refine .trans (Dev.setCanvas_stands (j := c) ?_) (.of_canvases rfl)
    exact ⟨rfl, rfl, rfl, rfl, rfl⟩
  · exact .trans (Dev.foldl_stands (fun d e => Dev.applyWord_stands c e d) l d) (.of_canvases (Dev.canvases_watchPll ..))

theorem Dev.recordPrio_stands (c : Nat) (r : CanvasRegs) (d : Dev) : d.Stands (d.recordPrio c r) := by
  unfold Dev.recordPrio
  dsimp only
  split
  · exact Dev.Stands.of_canvases rfl
  · exact Dev.setCanvas_stands ⟨rfl, rfl, rfl, rfl, rfl⟩

theorem Dev.recordCand_stands (w : Decider) (txn : Option (BitVec 16)) (d : Dev) (x : Cand) : d.Stands (d.recordCand w txn x) := by
  unfold Dev.recordCand
  exact .of_set (j := x.c) rfl ⟨rfl, rfl, rfl, rfl, rfl⟩

theorem Dev.refigure_stands (c : Nat) (d : Dev) : d.Stands (d.refigure c) := by
  unfold Dev.refigure
  dsimp only
  have hcand := Dev.recordCand_stands { cause := 1 } none d { d.cand d.admTables (d.admRegs c) c with
    mode := match (d.canvas c).change with | some m => m.mode | none => (d.canvas c).mode }
  generalize d.recordCand _ none _ = y at *
  exact hcand.trans (.of_canvases (by simp))

theorem Dev.discardAdmitted_stands (c : Nat) (a : Admitted) (d : Dev) : d.Stands (d.discardAdmitted c a) := by
  unfold Dev.discardAdmitted
  dsimp only
  have hchange : d.Stands (d.setCanvas c { d.canvas c with
      change := (d.canvas c).change.filter fun k => k.latched || k.withNo ≠ some a.no }) :=
    Dev.setCanvas_stands ⟨rfl, rfl, rfl, rfl, rfl⟩
  generalize d.setCanvas c _ = y at *
  have hflight : d.Stands (y.setFlight (y.scene.flight.filter (·.no ≠ a.no))) := hchange.trans (.of_canvases rfl)
  generalize y.setFlight _ = z at *
  exact hflight.trans ((Dev.refigure_stands c z).trans (.of_canvases (by simp)))

theorem Dev.applyAll_stands (c : Nat) (d : Dev) : d.Stands (d.applyAll c) := by
  have hone (d : Dev) (a : Admitted) : d.Stands (Dev.applyChange c d a) := by
    unfold Dev.applyChange
    dsimp only
    split
    · exact Dev.Stands.trans (Dev.applyWords_stands ..) (Dev.discardAdmitted_stands ..)
    · exact Dev.applyWords_stands ..
  unfold Dev.applyAll Dev.applyOn
  dsimp only
  have hfold := Dev.foldl_stands hone (registersFirst (d.scene.flight.filter fun a => a.pend.contains c)) d
  generalize (registersFirst _).foldl _ d = y at *
  exact hfold.trans (.of_canvases (by simp))

/-! ## Ports one at a time -/

theorem Dev.reg_setReg_ne {t t' : PType} {i i' off off' : Nat} (w : Word) (d : Dev) (h : regAt t' i' off' ≠ regAt t i off) :
    (d.setReg t i off w).reg t' i' off' = d.reg t' i' off' := Dev.effAt_setEffAt_ne w d h

/-- What a step of port `n` leaves: the canvases, the other ports, and the canvas of every port. -/
structure Dev.PortStep (n : Nat) (d e : Dev) : Prop where
  canvases : e.canvases = d.canvases
  others : ∀ m, m ≠ n → e.port m = d.port m
  source : ∀ m, e.portCanvas m = d.portCanvas m

theorem Dev.PortStep.refl (n : Nat) (d : Dev) : Dev.PortStep n d d := ⟨rfl, fun _ _ => rfl, fun _ => rfl⟩

theorem Dev.PortStep.trans {n : Nat} {a b c : Dev} (h : Dev.PortStep n a b) (h' : Dev.PortStep n b c) : Dev.PortStep n a c :=
  ⟨h'.canvases.trans h.canvases, fun m hm => (h'.others m hm).trans (h.others m hm), fun m => (h'.source m).trans (h.source m)⟩

theorem Dev.PortStep.setPort (n : Nat) (x : Port) (d : Dev) : Dev.PortStep n d (d.setPort n x) :=
  ⟨rfl, fun _ hm => Dev.port_setPort_ne _ _ hm, fun _ => rfl⟩

theorem Dev.PortStep.setReg {n : Nat} (k off : Nat) (w : Word) (d : Dev) (ho : off < 0x4000) (hne : off ≠ DPT_SRC) :
    Dev.PortStep n d (d.setReg .dpt k off w) := by
  refine ⟨rfl, fun _ _ => rfl, fun m => ?_⟩
  unfold Dev.portCanvas Dev.fld
  rw [Dev.reg_setReg_ne]
  simp only [regAt, DPT_SRC] at hne ⊢
  omega

theorem Dev.takeFmt_step (n : Nat) (d : Dev) : Dev.PortStep n d (d.takeFmt n) := by
  unfold Dev.takeFmt
  split
  next w _ =>
    have hset := Dev.PortStep.setReg (n := n) n DPT_FMT w d (by decide) (by decide)
    generalize d.setReg .dpt n DPT_FMT w = y at *
    have hadm : Dev.PortStep n y (y.setAdmittedAt (regAt .dpt n DPT_FMT) none) := ⟨rfl, fun _ _ => rfl, fun _ => rfl⟩
    exact (hset.trans hadm).trans (.setPort ..)
  · exact .refl n d

/-- A port whose training begins. -/
def Port.training (x : Port) : Port :=
  { x with fmtNext := none, state := .training, step := .caps, attempts := 0, relinkAt := false, finishing := none }

theorem Dev.startTraining_step (n : Nat) (d : Dev) : Dev.PortStep n d (d.startTraining n) := (Dev.takeFmt_step n d).trans (.setPort ..)

theorem Dev.takeFmt_port (n : Nat) (d : Dev) : (d.takeFmt n).port n = { d.port n with fmtNext := none } := by
  unfold Dev.takeFmt
  cases h : (d.port n).fmtNext with
  | some w => dsimp only; rw [Dev.port_setPort]
  | none => dsimp only; rw [← h]

theorem Dev.startTraining_port (n : Nat) (d : Dev) : (d.startTraining n).port n = (d.port n).training := by
  unfold Dev.startTraining
  dsimp only
  rw [Dev.port_setPort, Dev.takeFmt_port]
  rfl

theorem Dev.stopVideo_step (n : Nat) (d : Dev) : Dev.PortStep n d (d.stopVideo n) := by
  unfold Dev.stopVideo
  dsimp only
  split
  · exact Dev.startTraining_step n d
  · exact .setPort ..

theorem Dev.stopVideo_port (n : Nat) (d : Dev) : (d.stopVideo n).port n =
    if (d.port n).relinkAt then (d.port n).training else { d.port n with state := .idle, finishing := none } := by
  unfold Dev.stopVideo
  dsimp only
  by_cases h : (d.port n).relinkAt = true
  · rw [if_pos h, if_pos h, Dev.startTraining_port]
  · rw [if_neg h, if_neg h, Dev.port_setPort]

theorem Dev.endVideo_step (n : Nat) (d : Dev) : Dev.PortStep n d (d.endVideo n) := by
  unfold Dev.endVideo Dev.when
  split
  · exact Dev.stopVideo_step n d
  · exact .refl n d

theorem Dev.relinkPort_step (n : Nat) (d : Dev) : Dev.PortStep n d (d.relinkPort n) := by
  unfold Dev.relinkPort
  dsimp only
  split
  · exact .trans (.setPort ..) (Dev.endVideo_step n _)
  · exact Dev.startTraining_step n d
  · exact Dev.startTraining_step n d
  all_goals exact .refl n d

/-- What a step of port `n` leaves where the port may move to another canvas. -/
structure Dev.SourceStep (n : Nat) (d e : Dev) : Prop where
  canvases : e.canvases = d.canvases
  source : ∀ m, m ≠ n → e.portCanvas m = d.portCanvas m

theorem Dev.PortStep.toSource {n : Nat} {d e : Dev} (h : Dev.PortStep n d e) : Dev.SourceStep n d e := ⟨h.canvases, fun m _ => h.source m⟩

theorem Dev.SourceStep.trans {n : Nat} {a b c : Dev} (h : Dev.SourceStep n a b) (h' : Dev.SourceStep n b c) : Dev.SourceStep n a c :=
  ⟨h'.canvases.trans h.canvases, fun m hm => (h'.source m hm).trans (h.source m hm)⟩

theorem Dev.SourceStep.of_regs {n : Nat} {d e : Dev} (hc : e.canvases = d.canvases) (hr : e.regs = d.regs) : Dev.SourceStep n d e :=
  ⟨hc, fun m _ => by unfold Dev.portCanvas; rw [Dev.fld_congr hr]⟩

/-- A port that moves off a canvas which is not in RELINK changes no canvas. -/
theorem Dev.takeSrc_step (n : Nat) (w : Word) (d : Dev) (h : (d.canvas (d.portCanvas n)).state ≠ .relink) :
    Dev.SourceStep n d (d.takeSrc n w) := by
  have hsrc : Dev.SourceStep n d (d.setReg .dpt n DPT_SRC w) := by
    refine ⟨rfl, fun m hm => ?_⟩
    unfold Dev.portCanvas Dev.fld
    rw [Dev.reg_setReg_ne]
    simp only [regAt]
    omega
  unfold Dev.takeSrc
  dsimp only
  generalize d.portCanvas n = old at *
  generalize d.setReg .dpt n DPT_SRC w = y at *
  split
  · exact hsrc
  · have hfin (k : Dev → Dev) (hk : ∀ e, Dev.PortStep n e (k e)) (e : Dev) (he : Dev.SourceStep n d e) :
        Dev.SourceStep n d ((k e).updatePairs.relinkProgress old) := by
      have hp : Dev.SourceStep n d (k e).updatePairs := (he.trans (hk e).toSource).trans (.of_regs (by simp) (by simp))
      unfold Dev.relinkProgress
      dsimp only
      rw [if_neg fun hx => h ((congrArg Canvas.state (Dev.canvas_congr hp.canvases old)).symm.trans hx.1)]
      exact hp
    have hkept : Dev.SourceStep n d (if (d.port n).state = .active then
        y.setPort n { d.port n with finishing := some (((d.port n).finishing).getD old) } else y) := by
      split
      · exact hsrc.trans (Dev.PortStep.setPort ..).toSource
      · exact hsrc
    split
    · exact hfin (Dev.endVideo n) (Dev.endVideo_step n) _ hkept
    · exact hfin (Dev.relinkPort n) (Dev.relinkPort_step n) _ hkept

theorem Dev.PortStep.setAdmittedAt (n a : Nat) (w : Option Word) (d : Dev) : Dev.PortStep n d (d.setAdmittedAt a w) :=
  ⟨rfl, fun _ _ => rfl, fun _ => rfl⟩

theorem Dev.takeFormat_step (n : Nat) (w : Word) (d : Dev) : Dev.SourceStep n d (d.takeFormat n w) := by
  refine Dev.PortStep.toSource ?_
  unfold Dev.takeFormat
  dsimp only
  have hclear := Dev.PortStep.setPort n { d.port n with fmtErr := false } d
  generalize d.setPort n _ = y at *
  split
  · exact hclear
  split
  · have hset := (hclear.trans (.setReg n DPT_FMT w y (by decide) (by decide))).trans ((Dev.PortStep.setAdmittedAt n (regAt .dpt n DPT_FMT) none _).trans
      (.setPort n { d.port n with fmtErr := false, fmtNext := none } _))
    unfold Dev.when
    split
    · exact hset.trans (Dev.relinkPort_step n _)
    · exact hset
  · have hset := hclear.trans ((Dev.PortStep.setAdmittedAt n (regAt .dpt n DPT_FMT) (some w) y).trans
      (.setPort n { d.port n with fmtErr := false, fmtNext := some w } _))
    split
    · exact hset.trans (Dev.relinkPort_step n _)
    · exact hset

theorem Dev.takeDsc_step (n : Nat) (w : Word) (d : Dev) : Dev.SourceStep n d (d.takeDsc n w) := by
  have hset := (Dev.PortStep.setReg (n := n) n DPT_DSC w d (by decide) (by decide)).trans (.setPort n
    { (d.setReg .dpt n DPT_DSC w).port n with dscErr := false } _)
  refine Dev.PortStep.toSource ?_
  unfold Dev.takeDsc
  dsimp only
  split
  · exact hset
  · exact hset.trans (Dev.relinkPort_step n _)

theorem Dev.takeLane_step (n : Nat) (w : Word) (d : Dev) : Dev.SourceStep n d (d.takeLane n w) :=
  (((Dev.PortStep.setReg n DPT_LANE w d (by decide) (by decide)).trans (.setPort ..)).trans (Dev.relinkPort_step n _)).toSource

theorem Dev.takeLink_step (n : Nat) (w : Word) (d : Dev) : Dev.SourceStep n d (d.takeLink n w) := by
  have hset := Dev.PortStep.setReg (n := n) n DPT_LINK w d (by decide) (by decide)
  refine Dev.PortStep.toSource ?_
  unfold Dev.takeLink
  dsimp only
  split
  · exact hset
  · exact hset.trans (Dev.relinkPort_step n _)

theorem Dev.takeStaged_step {n off : Nat} {k : Word → Dev → Dev} {d : Dev}
    (hk : ∀ w e, e.canvases = d.canvases → (∀ m, e.portCanvas m = d.portCanvas m) → Dev.SourceStep n e (k w e)) :
    Dev.SourceStep n d (d.takeStaged n off k) := by
  unfold Dev.takeStaged
  dsimp only
  have hset (a : Nat) : Dev.SourceStep n d (d.setStagedAt a none) := ⟨rfl, fun _ _ => rfl⟩
  split
  · exact (hset _).trans (hk _ _ rfl fun _ => rfl)
  · exact ⟨rfl, fun _ _ => rfl⟩

/-- The staged words of a port whose canvas is not in RELINK change no canvas, and no other port's source. -/
theorem Dev.applyPort_step (n : Nat) (d : Dev) (h : (d.canvas (d.portCanvas n)).state ≠ .relink) :
    Dev.SourceStep n d (d.applyPort n) := by
  unfold Dev.applyPort
  dsimp only
  split
  · exact ⟨rfl, fun _ _ => rfl⟩
  split
  · exact ⟨rfl, fun _ _ => rfl⟩
  · refine .trans (.trans (.trans (.trans (.trans (Dev.takeStaged_step fun w e hc hp => ?_) (Dev.takeStaged_step fun w e _ _ => ?_))
      (Dev.takeStaged_step fun w e _ _ => Dev.takeFormat_step n w e)) (Dev.takeStaged_step fun w e _ _ => Dev.takeDsc_step n w e))
      (Dev.takeStaged_step fun w e _ _ => Dev.takeLane_step n w e)) (Dev.takeStaged_step fun w e _ _ => Dev.takeLink_step n w e)
    · exact Dev.takeSrc_step n w e (by rw [hp, Dev.canvas_congr hc]; exact h)
    · exact (Dev.PortStep.setReg n DPT_PAIR w e (by decide) (by decide)).toSource.trans (.of_regs (by simp) (by simp))

/-- The staged words of ports of a canvas that is not in RELINK change no canvas. -/
theorem Dev.applyPorts_canvases {c : Nat} {l : List Nat} (hl : l.Nodup) (d : Dev) (hc : (d.canvas c).state ≠ .relink)
    (hp : ∀ n ∈ l, d.portCanvas n = c) : (l.foldl (fun d n => d.applyPort n) d).canvases = d.canvases := by
  induction l generalizing d with
  | nil => rfl
  | cons n l ih =>
    obtain ⟨hn, hl⟩ := List.nodup_cons.mp hl
    have hstep := d.applyPort_step n (by rw [hp n (List.mem_cons_self ..)]; exact hc)
    rw [List.foldl_cons, ih hl _ (by rw [Dev.canvas_congr hstep.canvases]; exact hc) fun m hm => ?_, hstep.canvases]
    rw [hstep.source m fun e => hn (e ▸ hm)]
    exact hp m (List.mem_cons_of_mem _ hm)

/-! ## O37: enable and disable -/

theorem canvasEnable_off {m : Fn} {c : CanvasNo} {s : State} (h : s.dev.mayWriteReg m .cnv c CNV_CTL)
    (hst : (s.dev.canvas c).state = .off) (hq : s.dev.scene.admQ.contains (.enable c) = false) :
    ∃ u, exec (.canvasEnable m c) s = .next u ∧ u.dev.canvas c = { s.dev.canvas c with en := true } ∧
      u.dev.scene.admQ = s.dev.scene.admQ ++ [.enable c] ∧ ∀ k, k ≠ c.val → u.dev.canvas k = s.dev.canvas k := by
  have he : exec (.canvasEnable m c) s = .next ⟨(fun d => { d with scene := { d.scene with admQ := d.scene.admQ ++ [.enable c] } })
      (s.dev.setCanvas c { s.dev.canvas c with en := true }), s.pending⟩ := by
    show s.dev! (Dev.regWrite m .cnv c CNV_CTL 1) = _
    rw [State.dev!_next, Dev.regWrite_canvasEnable h]
    unfold Dev.writeCanvasEn
    dsimp only
    rw [hst]
    dsimp only
    rw [Dev.setCanvas_scene, hq]
    rfl
  refine ⟨_, he, ?_⟩
  exact ⟨Dev.canvas_setCanvas .., rfl, fun k hk => Dev.canvas_setCanvas_ne _ _ hk⟩

theorem canvasEnable_draining {m : Fn} {c : CanvasNo} {s : State} (h : s.dev.mayWriteReg m .cnv c CNV_CTL)
    (hst : (s.dev.canvas c).state = .draining) :
    ∃ u, exec (.canvasEnable m c) s = .next u ∧ u.dev.canvas c = { s.dev.canvas c with en := true, enPending := true } ∧
      s.dev.onlyChanges u.dev [.canvases] := by
  have he : exec (.canvasEnable m c) s = .next ⟨(s.dev.setCanvas c { s.dev.canvas c with en := true }).setCanvas c
      { s.dev.canvas c with en := true, enPending := true }, s.pending⟩ := by
    show s.dev! (Dev.regWrite m .cnv c CNV_CTL 1) = _
    rw [State.dev!_next, Dev.regWrite_canvasEnable h]
    unfold Dev.writeCanvasEn
    dsimp only
    rw [hst]
  refine ⟨_, he, Dev.canvas_setCanvas .., ?_⟩
  simp [Dev.onlyChanges_iff]

theorem Dev.mem_senders {d : Dev} {c n : Nat} : n ∈ d.senders c ↔ n < 128 ∧ (d.port n).state = .active ∧ d.videoCanvas n = c := by
  simp [Dev.senders]

theorem Dev.mem_portsOf {d : Dev} {c n : Nat} : n ∈ d.portsOf c ↔ n < 128 ∧ d.portCanvas n = c := by
  simp [Dev.portsOf]

theorem Dev.portsOf_nodup (d : Dev) (c : Nat) : (d.portsOf c).Nodup := List.nodup_range.filter _

/-- A port whose training begins as its canvas's relink asks. -/
def Port.relinked (x : Port) : Port :=
  if x.state = .idle ∨ (x.state = .training ∧ x.step = .none) then x.training else x

theorem Dev.trainPorts_spec (c : Nat) (d : Dev) : (d.trainPorts c).canvases = d.canvases ∧
    (∀ m, (d.trainPorts c).portCanvas m = d.portCanvas m) ∧ (∀ n ∈ d.portsOf c, (d.trainPorts c).port n = (d.port n).relinked) ∧
    ∀ n, n ∉ d.portsOf c → (d.trainPorts c).port n = d.port n := by
  have hself (d : Dev) (n : Nat) : (if (d.port n).state = .idle ∨ ((d.port n).state = .training ∧ (d.port n).step = .none)
      then d.startTraining n else d).port n = (d.port n).relinked := by
    unfold Port.relinked
    split
    · exact Dev.startTraining_port n d
    · rfl
  have hstep (d : Dev) (n : Nat) : Dev.PortStep n d (if (d.port n).state = .idle ∨ ((d.port n).state = .training ∧ (d.port n).step = .none)
      then d.startTraining n else d) := by
    split
    · exact Dev.startTraining_step n d
    · exact .refl n d
  obtain ⟨hin, hout⟩ := foldl_each (get := Dev.port) (idx := id) (F := fun _ x => x.relinked)
    (step := fun d n => if (d.port n).state = .idle ∨ ((d.port n).state = .training ∧ (d.port n).step = .none)
      then d.startTraining n else d) hself (fun d n k hk => (hstep d n).others k hk) (l := d.portsOf c)
    (by rw [List.map_id]; exact d.portsOf_nodup c) d
  have hall (l : List Nat) (d : Dev) : (l.foldl (fun d n => if (d.port n).state = .idle ∨ ((d.port n).state = .training ∧ (d.port n).step = .none)
      then d.startTraining n else d) d).canvases = d.canvases ∧ ∀ m, (l.foldl (fun d n => if (d.port n).state = .idle ∨
      ((d.port n).state = .training ∧ (d.port n).step = .none) then d.startTraining n else d) d).portCanvas m = d.portCanvas m := by
    induction l generalizing d with
    | nil => exact ⟨rfl, fun _ => rfl⟩
    | cons n l ih =>
      rw [List.foldl_cons, (ih _).1, (hstep d n).canvases]
      exact ⟨rfl, fun m => by rw [(ih _).2, (hstep d n).source]⟩
  unfold Dev.trainPorts
  exact ⟨(hall _ d).1, (hall _ d).2, hin, fun n hn => hout n (by rwa [List.map_id])⟩

/-- A port that sends leaves video for IDLE or training, as its canvas's video ends. -/
theorem Dev.idlePorts_state {c n : Nat} {d : Dev} (hn : n ∈ d.senders c) :
    ((d.idlePorts c).port n).state = .idle ∨ ((d.idlePorts c).port n).state = .training := by
  obtain ⟨hin, -⟩ := foldl_each (get := Dev.port) (idx := id)
    (F := fun _ x => if x.relinkAt then x.training else { x with state := .idle, finishing := none })
    (step := fun d n => d.stopVideo n) (fun d n => Dev.stopVideo_port n d) (fun d n k hk => (Dev.stopVideo_step n d).others k hk)
    (l := d.senders c) (by rw [List.map_id]; exact List.nodup_range.filter _) d
  unfold Dev.idlePorts
  rw [show (List.foldl _ d (d.senders c)).port n = _ from hin n hn]
  split
  · exact .inr rfl
  · exact .inl rfl

theorem Dev.videoCanvas_congr {d e : Dev} {n : Nat} (hp : e.port n = d.port n) (hs : e.portCanvas n = d.portCanvas n) :
    e.videoCanvas n = d.videoCanvas n := by
  unfold Dev.videoCanvas
  rw [hp, hs]

theorem Dev.killBands_deal (c : Nat) (d : Dev) : ∀ r ∈ (d.killBands c none).comp.deal, r.canvas ≠ c := by
  intro r hr
  have hdeal : (d.killBands c none).comp.deal = d.comp.deal.filter fun r => !bandOf c none r.canvas r.par := rfl
  rw [hdeal] at hr
  simpa [bandOf] using (List.mem_filter.mp hr).2

theorem Dev.drainCanvas_spec (c : Nat) (d : Dev) : ((d.drainCanvas c).canvas c).state = .draining ∧
    ((d.drainCanvas c).canvas c).en = (d.canvas c).en ∧ (∀ r ∈ (d.drainCanvas c).comp.deal, r.canvas ≠ c) ∧
    ∀ n ∈ d.senders c, ((d.drainCanvas c).port n).state = .idle ∨ ((d.drainCanvas c).port n).state = .training := by
  unfold Dev.drainCanvas
  dsimp only
  obtain ⟨hen, hports, hregs⟩ : ((if (d.canvas c).state = .running then d.leaveRunning c else d).canvas c).en = (d.canvas c).en ∧
      (if (d.canvas c).state = .running then d.leaveRunning c else d).ports = d.ports ∧
      (if (d.canvas c).state = .running then d.leaveRunning c else d).regs = d.regs := by
    split
    · obtain ⟨-, hen, -⟩ := (Dev.leaveRunning_stands c d).canvas c
      exact ⟨hen, by simp [Dev.leaveRunning], by simp [Dev.leaveRunning]⟩
    · exact ⟨rfl, rfl, rfl⟩
  generalize (if (d.canvas c).state = .running then d.leaveRunning c else d) = a at *
  have hport (n : Nat) : a.port n = d.port n := Dev.port_congr hports n
  have hsrc (n : Nat) : a.portCanvas n = d.portCanvas n := Dev.fld_congr hregs ..
  obtain ⟨hst, hen, hport, hsrc⟩ : let b := a.setCanvas c { a.canvas c with state := .draining, gen := false, relinkAt := false, change := none }
      (b.canvas c).state = .draining ∧ (b.canvas c).en = (d.canvas c).en ∧ (∀ n, b.port n = d.port n) ∧ ∀ n, b.portCanvas n = d.portCanvas n := by
    dsimp only
    rw [Dev.canvas_setCanvas]
    exact ⟨rfl, hen, hport, hsrc⟩
  generalize a.setCanvas c _ = b at *
  obtain ⟨hcanv, hsend⟩ : (if (d.canvas c).state = .relink ∧ ¬ (d.canvas c).allocated then b.trainPorts c else b).canvases = b.canvases ∧
      ∀ n ∈ d.senders c, n ∈ (if (d.canvas c).state = .relink ∧ ¬ (d.canvas c).allocated then b.trainPorts c else b).senders c := by
    split
    · obtain ⟨hc, hs, hin, hout⟩ := Dev.trainPorts_spec c b
      refine ⟨hc, fun n hn => ?_⟩
      obtain ⟨hlt, hact, hv⟩ := Dev.mem_senders.mp hn
      have hp : (b.trainPorts c).port n = d.port n := by
        by_cases hmem : n ∈ b.portsOf c
        · rw [hin n hmem, hport, Port.relinked, if_neg (by simp [hact])]
        · rw [hout n hmem, hport]
      exact Dev.mem_senders.mpr ⟨hlt, by rw [hp]; exact hact, by rw [Dev.videoCanvas_congr hp ((hs n).trans (hsrc n))]; exact hv⟩
    · refine ⟨rfl, fun n hn => ?_⟩
      obtain ⟨hlt, hact, hv⟩ := Dev.mem_senders.mp hn
      exact Dev.mem_senders.mpr ⟨hlt, by rw [hport]; exact hact, by rw [Dev.videoCanvas_congr (hport n) (hsrc n)]; exact hv⟩
  generalize (if (d.canvas c).state = .relink ∧ ¬ (d.canvas c).allocated then b.trainPorts c else b) = e at *
  have hdeal := (e.idlePorts c).killBands_deal c
  have hcanv' : ((e.idlePorts c).killBands c none).canvases = b.canvases := by simp [hcanv]
  have hports : ((e.idlePorts c).killBands c none).ports = (e.idlePorts c).ports := by simp
  have hidle (n : Nat) (hn : n ∈ e.senders c) := Dev.idlePorts_state hn
  simp only [← Dev.port_congr hports] at hidle
  generalize (e.idlePorts c).killBands c none = f at *
  obtain ⟨hst', hen', -⟩ := (Dev.applyAll_stands c f).canvas c
  rw [Dev.canvas_congr hcanv'] at hst' hen'
  refine ⟨hst'.trans hst, hen'.trans hen, ?_, fun n hn => ?_⟩
  · rw [show (f.applyAll c).comp = f.comp by simp]; exact hdeal
  · rw [Dev.port_congr (show (f.applyAll c).ports = f.ports by simp)]; exact hidle n (hsend n hn)

theorem canvasDisable_spec {m : Fn} {c : CanvasNo} {s : State} (h : s.dev.mayWriteReg m .cnv c CNV_CTL)
    (hst : (s.dev.canvas c).state = .starting ∨ (s.dev.canvas c).state = .running ∨ (s.dev.canvas c).state = .relink) :
    ∃ u, exec (.canvasDisable m c) s = .next u ∧ (u.dev.canvas c).state = .draining ∧ (u.dev.canvas c).en = false ∧
      (∀ r ∈ u.dev.comp.deal, r.canvas ≠ c.val) ∧
      ∀ n ∈ s.dev.senders c, (u.dev.port n).state = .idle ∨ (u.dev.port n).state = .training := by
  have he : exec (.canvasDisable m c) s = .next ⟨(s.dev.setCanvas c { s.dev.canvas c with en := false }).drainCanvas c, s.pending⟩ := by
    show s.dev! (Dev.regWrite m .cnv c CNV_CTL 0) = _
    rw [State.dev!_next, Dev.regWrite_canvasDisable h]
    unfold Dev.writeCanvasEn
    dsimp only
    rcases hst with hst | hst | hst <;> rw [hst]
  refine ⟨_, he, ?_⟩
  dsimp only
  have hcanv := Dev.canvas_setCanvas c { s.dev.canvas c with en := false } s.dev
  have hsend : (s.dev.setCanvas c { s.dev.canvas c with en := false }).senders c = s.dev.senders c := rfl
  generalize s.dev.setCanvas c { s.dev.canvas c with en := false } = d at *
  obtain ⟨h₁, h₂, h₃, h₄⟩ := d.drainCanvas_spec c
  rw [hcanv] at h₂
  rw [hsend] at h₄
  exact ⟨h₁, h₂, h₃, h₄⟩

/-! ## O37: the drain's end and the relink -/

theorem Dev.applyWords_portCanvas {c : Nat} {l : List (Nat × Word)} (d : Dev) (hc : c < 128) (hl : ∀ e ∈ l, e.1 < 0x4000) (n : Nat) :
    (d.applyWords c l).portCanvas n = d.portCanvas n := by
  have hreg (e : Nat × Word) (he : e ∈ l) (w : Word) (d : Dev) (n : Nat) : (d.setReg .cnv c e.1 w).portCanvas n = d.portCanvas n := by
    unfold Dev.portCanvas Dev.fld
    rw [Dev.reg_setReg_ne]
    have := hl e he
    simp only [regAt, PType.page, DPT_SRC]
    omega
  have hword (e : Nat × Word) (he : e ∈ l) (d : Dev) : (d.applyWord c e).portCanvas n = d.portCanvas n := by
    unfold Dev.applyWord Dev.applyLock
    dsimp only
    split
    · next hlock => rw [← hlock]; exact hreg e he e.2 d n
    · exact hreg e he e.2 d n
  have hfold (l' : List (Nat × Word)) (hsub : ∀ e ∈ l', e ∈ l) (d : Dev) :
      (l'.foldl (fun d e => d.applyWord c e) d).portCanvas n = d.portCanvas n := by
    induction l' generalizing d with
    | nil => rfl
    | cons e l' ih =>
      rw [List.foldl_cons, ih (fun e he => hsub e (List.mem_cons_of_mem _ he)), hword e (hsub e (List.mem_cons_self ..))]
  have hunadmit : (d.unadmit c l).portCanvas n = d.portCanvas n := by
    unfold Dev.unadmit
    clear hfold hword hreg hl
    induction l generalizing d with
    | nil => rfl
    | cons e l ih =>
      rw [List.foldl_cons, ih]
      dsimp only
      split <;> rfl
  have hwatch (f : Dev → Dev) (d : Dev) : (d.watchPll c f).portCanvas n = (f d).portCanvas n := by
    unfold Dev.watchPll
    dsimp only
    split <;> rfl
  unfold Dev.applyWords
  dsimp only
  split
  · exact hunadmit
  · rw [hwatch, hfold l (fun _ h => h), hunadmit]

theorem Dev.stagedOf_offset {d : Dev} {t : PType} {i : Nat} : ∀ e ∈ d.stagedOf t i, e.1 < 0x4000 := by
  intro e he
  obtain ⟨⟨a, w⟩, -, h⟩ := List.mem_filterMap.mp he
  dsimp only at h
  split at h
  · obtain ⟨v, -, rfl⟩ := Option.map_eq_some_iff.mp h
    exact Nat.mod_lt _ (by decide)
  · exact absurd h (by simp)

theorem Dev.plainStaged_offset {d : Dev} {c : Nat} : ∀ e ∈ d.plainStaged c, e.1 < 0x4000 := by
  unfold Dev.plainStaged
  split
  · exact nofun
  · exact fun e he => Dev.stagedOf_offset e (List.mem_filter.mp he).1

theorem Dev.takeCsp_portCanvas {c : Nat} (hc : c < 128) (d : Dev) (n : Nat) : (d.takeCsp c).portCanvas n = d.portCanvas n := by
  unfold Dev.takeCsp Dev.setRegs
  dsimp only
  split
  · rfl
  · have hl : ∀ e ∈ d.stagedOf .csp c, e.1 < 0x4000 := Dev.stagedOf_offset
    have hdrop : (d.dropStaged .csp c).portCanvas n = d.portCanvas n := rfl
    rw [← hdrop]
    generalize d.stagedOf .csp c = l at *
    generalize d.dropStaged .csp c = d
    induction l generalizing d with
    | nil => rfl
    | cons e l ih =>
      rw [List.foldl_cons, ih fun e he => hl e (List.mem_cons_of_mem _ he)]
      unfold Dev.portCanvas Dev.fld
      rw [Dev.reg_setReg_ne]
      have := hl e (List.mem_cons_self ..)
      simp only [regAt, PType.page, DPT_SRC]
      omega

theorem Dev.takePlain_portCanvas {c : Nat} (hc : c < 128) (d : Dev) (n : Nat) : (d.takePlain c).portCanvas n = d.portCanvas n := by
  unfold Dev.takePlain
  dsimp only
  rw [Dev.applyWords_portCanvas _ hc Dev.plainStaged_offset]
  unfold Dev.unstage
  generalize d.plainStaged c = l
  induction l generalizing d with
  | nil => rfl
  | cons e l ih =>
    rw [List.foldl_cons, ih]
    dsimp only
    split <;> rfl

theorem Dev.applyIdle_stands {c : Nat} (hc : c < 128) (d : Dev) (hst : (d.canvas c).state ≠ .relink) : d.Stands (d.applyIdle c) := by
  unfold Dev.applyIdle
  dsimp only
  have hplain : d.Stands (d.takePlain c) := by
    unfold Dev.takePlain
    exact .trans (.of_canvases (by simp)) (Dev.applyWords_stands ..)
  have htaken : d.Stands ((d.takePlain c).takeCsp c) := hplain.trans (.of_canvases (by simp))
  have hsrc (n : Nat) : ((d.takePlain c).takeCsp c).portCanvas n = d.portCanvas n := by
    rw [Dev.takeCsp_portCanvas hc, Dev.takePlain_portCanvas hc]
  generalize (d.takePlain c).takeCsp c = e at *
  obtain ⟨hstate, -⟩ := htaken.canvas c
  refine htaken.trans (.of_canvases (Dev.applyPorts_canvases (d.portsOf_nodup c) e (by rw [hstate]; exact hst) fun n hn => ?_))
  rw [hsrc]
  exact (Dev.mem_portsOf.mp hn).2

/-- A canvas whose drain has ended. -/
def Canvas.drained (x : Canvas) : Canvas :=
  { x with state := .off, enPending := false, blocks := 0, allocated := false, scan := [], lines := [], mode := .disabled,
           src := .direct, nextSrc := .direct, par := {}, old := none, absentNow := false, absentPrev := false,
           ldg := { x.ldg with seq := x.ldg.seq + 1, mode := .disabled, needMem := 0, needPipe := 0, res := 0, fMax := 0,
                               cMax := 0, bandF := 0, bandC := 0, dl := 0 } }

theorem Dev.canvasDrained_eq (c : Nat) (d : Dev) : d.canvasDrained c =
    let e := (((d.setCanvas c (d.canvas c).drained).takeAdmitted c).applyIdle c).resum.stagingFreed
    if (d.canvas c).enPending then { e with scene := { e.scene with admQ := e.scene.admQ ++ [.enable c] } } else e := by
  unfold Dev.canvasDrained Canvas.drained
  dsimp only

theorem canvasDrainComplete_spec {c : CanvasNo} {s : State} (hst : (s.dev.canvas c).state = .draining) (hb : s.dev.bandsDone c = true) :
    ∃ u, exec (.canvasDrainComplete c) s = .next u ∧ (u.dev.canvas c).state = .off ∧
      (u.dev.canvas c).mode = .disabled ∧ (u.dev.canvas c).blocks = 0 ∧ (u.dev.canvas c).scan = [] ∧
      u.dev.scene.admQ = s.dev.scene.admQ ++ (if (s.dev.canvas c).enPending then [.enable c] else []) ∧
      ∀ k, k ≠ c.val → (u.dev.canvas k).state = (s.dev.canvas k).state := by
  have he : exec (.canvasDrainComplete c) s = .next ⟨s.dev.canvasDrained c, s.pending⟩ := by
    show execCanvasDrainComplete c s = _
    rw [execCanvasDrainComplete, State.dev!_next, show (decide ((s.dev.canvas c).state = .draining) && s.dev.bandsDone c) = true by simp [hst, hb],
      Dev.when_true]
  refine ⟨_, he, ?_⟩
  dsimp only
  rw [Dev.canvasDrained_eq]
  dsimp only
  have hx' : (s.dev.canvas c).drained.state = .off ∧ (s.dev.canvas c).drained.mode = .disabled ∧
    (s.dev.canvas c).drained.blocks = 0 ∧ (s.dev.canvas c).drained.scan = [] := ⟨rfl, rfl, rfl, rfl⟩
  generalize (s.dev.canvas c).drained = x at *
  have hself : (s.dev.setCanvas c x).canvas c = x := Dev.canvas_setCanvas ..
  have hne (k : Nat) (hk : k ≠ c.val) : (s.dev.setCanvas c x).canvas k = s.dev.canvas k := Dev.canvas_setCanvas_ne _ _ hk
  have hq : (s.dev.setCanvas c x).scene = s.dev.scene := rfl
  generalize s.dev.setCanvas c x = y at *
  have hadm : y.Stands (y.takeAdmitted c) := by
    unfold Dev.takeAdmitted
    exact (Dev.applyWords_stands c (y.admittedOf .cnv c) y).trans (Dev.recordPrio_stands ..)
  have hscene : (((y.takeAdmitted c).applyIdle c).resum.stagingFreed).scene = y.scene := by simp
  have hall : y.Stands (((y.takeAdmitted c).applyIdle c).resum.stagingFreed) := by
    obtain ⟨hstate, -⟩ := hadm.canvas c
    refine (hadm.trans (Dev.applyIdle_stands (c := c) (by omega) _ ?_)).trans (.of_canvases (by simp))
    rw [hstate, hself, hx'.1]
    decide
  generalize ((y.takeAdmitted c).applyIdle c).resum.stagingFreed = z at *
  obtain ⟨h₁, h₂, h₃, h₄⟩ := hx'
  obtain ⟨h₁', -, h₂', h₃', h₄'⟩ := hall.canvas c
  rw [hself] at h₁' h₂' h₃' h₄'
  have hothers (k : Nat) (hk : k ≠ c.val) : (z.canvas k).state = (s.dev.canvas k).state := by
    rw [← hne k hk]; exact (hall.canvas k).1
  cases (s.dev.canvas c).enPending with
  | true =>
    refine ⟨h₁'.trans h₁, h₂'.trans h₂, h₃'.trans h₃, h₄'.trans h₄, ?_, hothers⟩
    show z.scene.admQ ++ _ = _
    rw [hscene, hq]
    rfl
  | false =>
    refine ⟨h₁'.trans h₁, h₂'.trans h₂, h₃'.trans h₃, h₄'.trans h₄, ?_, hothers⟩
    show z.scene.admQ = _
    rw [hscene, hq]
    simp

theorem Dev.relinkProgress_canvas (c : Nat) (d : Dev) : ((d.canvas c).allocated = true → ((d.relinkProgress c).canvas c).allocated = true) ∧
    ((d.canvas c).state = .relink → (d.canvas c).allocated = true → d.portsOf c = [] → ((d.relinkProgress c).canvas c).state = .starting) ∧
    ∀ k, k ≠ c → (d.relinkProgress c).canvas k = d.canvas k := by
  unfold Dev.relinkProgress
  dsimp only
  by_cases h : (d.canvas c).state = .relink ∧ (d.canvas c).allocated ∧ ¬ ((d.portsOf c).any fun n => (d.port n).state = .training)
  · rw [if_pos h, Dev.startCanvas, Dev.canvas_setCanvas]
    exact ⟨fun _ => rfl, fun _ _ _ => rfl, fun k hk => Dev.canvas_setCanvas_ne _ _ hk⟩
  · rw [if_neg h]
    exact ⟨id, fun hst ha hp => absurd ⟨hst, ha, by simp [hp]⟩ h, fun _ _ => rfl⟩

theorem relinkSettled_spec {c : CanvasNo} {s : State} (hst : (s.dev.canvas c).state = .relink) (ha : (s.dev.canvas c).allocated = false)
    (hd : (s.dev.canvas c).fsNow + 5000 ≤ s.dev.now) :
    ∃ u, exec (.relinkSettled c) s = .next u ∧ (u.dev.canvas c).allocated = true ∧
      (s.dev.portsOf c = [] → (u.dev.canvas c).state = .starting) ∧
      (∀ n ∈ s.dev.portsOf c, (s.dev.port n).state = .idle ∨ (s.dev.port n).state = .training ∧ (s.dev.port n).step = .none →
        (u.dev.port n).state = .training ∧ (u.dev.port n).step = .caps) ∧
      ∀ k, k ≠ c.val → u.dev.canvas k = s.dev.canvas k := by
  obtain ⟨e, hst', ha', hports, hportsOf, hne, he⟩ : ∃ e : Dev, (e.canvas c).state = .relink ∧ (e.canvas c).allocated = true ∧
      (∀ n, e.port n = s.dev.port n) ∧ e.portsOf c = s.dev.portsOf c ∧ (∀ k, k ≠ c.val → e.canvas k = s.dev.canvas k) ∧
      exec (.relinkSettled c) s = .next ⟨(e.trainPorts c).relinkProgress c, s.pending⟩ := by
    refine ⟨s.dev.setCanvas c { s.dev.canvas c with allocated := true, blocks := scanBlocks (s.dev.cregs c) }, ?_, ?_, fun _ => rfl, rfl,
      fun k hk => Dev.canvas_setCanvas_ne _ _ hk, ?_⟩
    · rw [Dev.canvas_setCanvas]; exact hst
    · rw [Dev.canvas_setCanvas]
    · show execRelinkSettled c s = _
      rw [execRelinkSettled, State.dev!_next]
      dsimp only
      rw [show (decide ((s.dev.canvas c).state = .relink) && !(s.dev.canvas c).allocated && decide ((s.dev.canvas c).fsNow + 5000 ≤ s.dev.now)) = true by
        simp [hst, ha, hd], Dev.when_true]
  refine ⟨_, he, ?_⟩
  dsimp only
  obtain ⟨hcanv, hsrc, hin, -⟩ := Dev.trainPorts_spec c e
  have hof : (e.trainPorts c).portsOf c = s.dev.portsOf c := by
    rw [← hportsOf]
    unfold Dev.portsOf
    simp only [hsrc]
  generalize e.trainPorts c = y at *
  obtain ⟨h₁, h₂, h₃⟩ := y.relinkProgress_canvas c
  rw [Dev.canvas_congr hcanv] at h₁ h₂
  have hp : (y.relinkProgress c).ports = y.ports := by simp
  refine ⟨h₁ ha', fun hnone => h₂ hst' ha' (hof.trans hnone), fun n hn hready => ?_, fun k hk => ?_⟩
  · rw [Dev.port_congr hp, hin n (by rw [hportsOf]; exact hn), hports, Port.relinked, if_pos hready]
    exact ⟨rfl, rfl⟩
  · rw [h₃ k hk, Dev.canvas_congr hcanv, hne k hk]

/-- Settles O37: enable and disable by the canvas's state, the drain's end, and the settled relink. -/
theorem canvasesEnableDrainAndRelink : Obligations.CanvasesEnableDrainAndRelink := by
  unfold Obligations.CanvasesEnableDrainAndRelink
  rintro c x s rfl
  exact ⟨fun m h => ⟨canvasEnable_off h, canvasEnable_draining h, canvasDisable_spec h⟩, canvasDrainComplete_spec, relinkSettled_spec⟩

/-! ## O38: frame locks -/

/-- A reference event is one of each locked canvas whose source it is, and leaves every other canvas. -/
theorem Dev.reference_canvas {src : Nat} (hsrc : src ≠ 3) {c : Nat} {d : Dev} (h : (d.canvas c).lock.lstate ≠ .none) :
    (d.reference src 0).canvas c = if d.fld .cnv c CNV_LOCK 31 30 = src then
      { d.canvas c with lock := (d.canvas c).lock.event (d.fld .cnv c CNV_LOCK 9 0) d.time } else d.canvas c := by
  have hfind (l : FMap Canvas) (hl : (FMap.get (fun _ => ({} : Canvas)) l c).lock.lstate ≠ .none) :
      FMap.get (fun _ => ({} : Canvas)) (l.map fun e : Nat × Canvas => (e.1, if d.fld .cnv e.1 CNV_LOCK 31 30 = src then
        { e.2 with lock := e.2.lock.event (d.fld .cnv e.1 CNV_LOCK 9 0) d.time } else e.2)) c =
      if d.fld .cnv c CNV_LOCK 31 30 = src then
        { FMap.get (fun _ => ({} : Canvas)) l c with
          lock := (FMap.get (fun _ => ({} : Canvas)) l c).lock.event (d.fld .cnv c CNV_LOCK 9 0) d.time }
      else FMap.get (fun _ => ({} : Canvas)) l c := by
    unfold FMap.get at *
    rw [List.find?_map]
    have hcomp : ((fun e : Nat × Canvas => e.1 == c) ∘ fun e : Nat × Canvas => (e.1, if d.fld .cnv e.1 CNV_LOCK 31 30 = src then
        { e.2 with lock := e.2.lock.event (d.fld .cnv e.1 CNV_LOCK 9 0) d.time } else e.2)) = fun e => e.1 == c := rfl
    rw [hcomp]
    cases hf : l.find? (fun e => e.1 == c) with
    | none => rw [hf] at hl; exact absurd rfl hl
    | some e =>
      have hkey : e.1 = c := by simpa using List.find?_some hf
      simp only [Option.map_some, hkey]
  have hmap : (d.reference src 0).canvases = d.canvases.map fun e => (e.1, if d.fld .cnv e.1 CNV_LOCK 31 30 = src then
      { e.2 with lock := e.2.lock.event (d.fld .cnv e.1 CNV_LOCK 9 0) d.time } else e.2) := by
    unfold Dev.reference Dev.fld
    refine List.map_congr_left fun e _ => ?_
    dsimp only
    by_cases hs : bits (d.reg .cnv e.1 CNV_LOCK) 31 30 = src
    · rw [if_pos ⟨hs, .inl hsrc⟩, if_pos hs]
    · rw [if_neg fun h => hs h.1, if_neg hs]
  unfold Dev.canvas at *
  rw [hmap]
  exact hfind _ h

theorem lockReferenceMissing_spec {c : CanvasNo} {s : State} {t : Quad} {p : Nat} (ht : (s.dev.canvas c).lock.ref = some t)
    (hp : (s.dev.canvas c).lock.period = some p)
    (hl : (s.dev.canvas c).lock.lstate = .acquiring ∨ (s.dev.canvas c).lock.lstate = .locked)
    (hd : 4 * (t.toNat + p) + 5 * p ≤ 4 * s.dev.time.toNat) :
    ∃ u, exec (.lockReferenceMissing c) s = .next u ∧ (u.dev.canvas c).lock.lstate = .holdover ∧
      (u.dev.canvas c).lock.phase = (s.dev.canvas c).lock.phase ∧ (∀ k, k ≠ c.val → u.dev.canvas k = s.dev.canvas k) ∧
      ∃ f, u.dev.flt.arrivals = s.dev.flt.arrivals ++ [f] ∧ f.src = 353 ∧ f.inst = c.val := by
  have he : exec (.lockReferenceMissing c) s = .next ⟨s.dev.enterHoldover c, s.pending⟩ := by
    show execLockReferenceMissing c s = _
    rw [execLockReferenceMissing, State.dev!_next]
    dsimp only
    rw [ht, hp]
    dsimp only
    rw [show ((decide ((s.dev.canvas c).lock.lstate = .acquiring) || decide ((s.dev.canvas c).lock.lstate = .locked)) &&
        decide (4 * (t.toNat + p) + 5 * p ≤ 4 * s.dev.time.toNat)) = true by simp [hl, hd], Dev.when_true]
  refine ⟨_, he, ?_⟩
  dsimp only
  unfold Dev.enterHoldover
  dsimp only
  rw [Dev.fire_canvas, Dev.canvas_setCanvas]
  exact ⟨rfl, rfl, fun k hk => Dev.canvas_setCanvas_ne _ _ hk, _, rfl, rfl, rfl⟩

/-- Settles O38: edges of the references, a missing reference, and the end of the `FSYNC_OUT` pulse. -/
theorem frameLocksFollowTheirReference : Obligations.FrameLocksFollowTheirReference := by
  unfold Obligations.FrameLocksFollowTheirReference
  refine fun c e s => ⟨fun h => ⟨⟨s.dev.reference 1 0, s.pending⟩, ?_, Dev.reference_canvas (by decide)⟩, fun h => ?_,
    fun h => ⟨⟨s.dev.reference 2 0, s.pending⟩, ?_, Dev.reference_canvas (by decide)⟩, fun h => ?_,
    fun t p ht hp hl hd => lockReferenceMissing_spec ht hp hl hd,
    fun ho hat => ⟨⟨{ s.dev with pins := { s.dev.pins with fsyncOut := false } }, s.pending⟩, ?_, rfl, ?_⟩⟩
  · show execGenlockEdge e s = _
    rw [execGenlockEdge, State.dev!_next, show (e != s.dev.flg .cnv 0 CNV_SYNC 30) = true by simpa using h, Dev.when_true]
  · show execGenlockEdge e s = _
    rw [execGenlockEdge, State.dev!_next, show (e != s.dev.flg .cnv 0 CNV_SYNC 30) = false by simpa using h, Dev.when_false]
  · show execFsyncInEdge e s = _
    rw [execFsyncInEdge, State.dev!_next, show (e != s.dev.flg .cnv 0 CNV_SYNC 29) = true by simpa using h, Dev.when_true]
  · show execFsyncInEdge e s = _
    rw [execFsyncInEdge, State.dev!_next, show (e != s.dev.flg .cnv 0 CNV_SYNC 29) = false by simpa using h, Dev.when_false]
  · show execFsyncOutEnd s = _
    rw [execFsyncOutEnd, State.dev!_next, show (s.dev.pins.fsyncOut && decide (s.dev.pins.fsyncAt + 1024 ≤ s.dev.now)) = true by simp [ho, hat],
      Dev.when_true]
  · simp [Dev.onlyChanges_iff]

end Sys2Proof.Machine
end

section
/-!
PROOF of O39 and O40: ports are enabled, drained, retrained, released and swapped, and their hot-plug detect is timed.
-/
namespace Sys2Proof.Machine
set_option Elab.async false

/-! ## What the bookkeeping of pairs leaves of a port -/

/-- A port without its state and what pairs and AUX record of it. -/
def Port.core (x : Port) : Port :=
  { x with failed := 0, standby := false, wasPaired := false, swapAt := false, pollAt := 0, aux := {}, state := .off }

/-- The bookkeeping of pairs leaves a port's core, and its state but for the end of ACTIVE. -/
def Port.paired (x y : Port) : Prop := y.core = x.core ∧ (x.state ≠ .active → y.state = x.state)

theorem Port.paired_refl (x : Port) : x.paired x := ⟨rfl, fun _ => rfl⟩

theorem Port.paired_trans {x y z : Port} (h : x.paired y) (h' : y.paired z) : x.paired z :=
  ⟨h'.1.trans h.1, fun hx => (h'.2 (by rw [h.2 hx]; exact hx)).trans (h.2 hx)⟩

theorem Port.paired_fields {x y : Port} (h : x.paired y) : y.en = x.en ∧ y.fails = x.fails ∧ y.fenced = x.fenced ∧ y.hpd = x.hpd ∧
    y.lossCnt = x.lossCnt ∧ y.lossDone = x.lossDone ∧ y.step = x.step ∧ y.lanes = x.lanes ∧ y.rate = x.rate ∧ y.capErr = x.capErr ∧
    y.attempts = x.attempts ∧ y.statusDue = x.statusDue ∧ y.pllBad = x.pllBad := by
  obtain ⟨hcore, -⟩ := h
  have hfield {β : Type} (f : Port → β) : f y.core = f x.core := congrArg f hcore
  exact ⟨hfield Port.en, hfield Port.fails, hfield Port.fenced, hfield Port.hpd, hfield Port.lossCnt, hfield Port.lossDone, hfield Port.step,
    hfield Port.lanes, hfield Port.rate, hfield Port.capErr, hfield Port.attempts, hfield Port.statusDue, hfield Port.pllBad⟩

/-- Every port is paired between two devices. -/
structure Dev.Paired (d e : Dev) : Prop where
  port : ∀ k, (d.port k).paired (e.port k)

theorem Dev.Paired.refl (d : Dev) : d.Paired d := ⟨fun _ => Port.paired_refl _⟩

theorem Dev.Paired.trans {a b c : Dev} (h : a.Paired b) (h' : b.Paired c) : a.Paired c := ⟨fun k => Port.paired_trans (h.port k) (h'.port k)⟩

theorem Dev.Paired.of_ports {d e : Dev} (h : e.ports = d.ports) : d.Paired e := ⟨fun k => by rw [Dev.port_congr h k]; exact Port.paired_refl _⟩

theorem Dev.Paired.setPort {d : Dev} {n : Nat} {x : Port} (h : (d.port n).paired x) : d.Paired (d.setPort n x) := ⟨fun k => by
  by_cases hk : k = n
  · subst hk
    rwa [Dev.port_setPort]
  · rw [Dev.port_setPort_ne _ _ hk]
    exact Port.paired_refl _⟩

theorem Dev.Paired.of_set {d e : Dev} {n : Nat} {x : Port} (he : e.ports = (d.setPort n x).ports) (h : (d.port n).paired x) : d.Paired e :=
  (Dev.Paired.setPort h).trans (.of_ports he)

theorem Dev.updatePair_paired (d : Dev) (n : Nat) : d.Paired (d.updatePair n) := by
  unfold Dev.updatePair
  dsimp only
  split
  · split
    · exact .refl d
    · exact .setPort ⟨rfl, fun hx => by simp [hx]⟩
  · split
    · exact .setPort ⟨rfl, fun _ => rfl⟩
    · exact .refl d

theorem Dev.updatePairs_paired (d : Dev) : d.Paired d.updatePairs := by
  unfold Dev.updatePairs
  generalize List.range 128 = l
  induction l generalizing d with
  | nil => exact .refl d
  | cons n l ih => exact (d.updatePair_paired n).trans (ih _)

theorem Dev.fire_paired (src inst : Nat) (x : BitVec 128) (d : Dev) : d.Paired (d.fire src inst x) := .of_ports rfl

theorem Dev.trigger_paired (n kind : Nat) (d : Dev) : d.Paired (d.trigger n kind) := by
  unfold Dev.trigger
  dsimp only
  generalize (decide (kind = 1) || _ || _) = on
  split
  · exact .refl d
  have hfailed : d.Paired ((d.setPort n { d.port n with failed := kind }).fire 387 n (dbits 0 (d.partner n) ||| dbits 8 kind)) :=
    .of_set (n := n) rfl ⟨rfl, fun _ => rfl⟩
  generalize (d.setPort n { d.port n with failed := kind }).fire 387 n (dbits 0 (d.partner n) ||| dbits 8 kind) = e at *
  split
  · exact hfailed
  split
  · exact hfailed
  split
  · have hswap : d.Paired (e.setPort n { e.port n with standby := true }) := hfailed.trans (.setPort ⟨rfl, fun _ => rfl⟩)
    refine hswap.trans (.setPort ?_)
    by_cases hm : d.partner n = n
    · rw [hm, Dev.port_setPort]
      exact ⟨rfl, fun _ => rfl⟩
    · rw [Dev.port_setPort_ne _ _ hm]
      exact ⟨rfl, fun _ => rfl⟩
  · exact hfailed.trans (Dev.fire_paired ..)

theorem Dev.auxFree_paired (n : Nat) (d : Dev) : d.Paired (d.auxFree n) := .setPort ⟨rfl, fun _ => rfl⟩

theorem Dev.relinkProgress_paired (c : Nat) (d : Dev) : d.Paired (d.relinkProgress c) := .of_ports (by simp)

/-- The state that an enable of a port leads to. -/
def Port.enabledState (x : Port) : PState := if x.fenced then .fenced else if x.hpd then .training else .noSink

theorem Dev.enterNoSink_port (n : Nat) (d : Dev) : (d.enterNoSink n).port n =
    { (d.port n).unpower with state := .noSink, step := .none, relinkAt := false, finishing := none, statusDue := false } := by
  unfold Dev.enterNoSink
  rw [Dev.fire_port, Dev.port_setPort]

theorem Dev.enterNoSink_others (n k : Nat) (d : Dev) (hk : k ≠ n) : (d.enterNoSink n).port k = d.port k := by
  unfold Dev.enterNoSink
  rw [Dev.fire_port, Dev.port_setPort_ne _ _ hk]

theorem Dev.enablePort_spec (n : Nat) (d : Dev) : ((d.enablePort n).port n).en = true ∧ ((d.enablePort n).port n).fails = 0 ∧
    ((d.enablePort n).port n).fenced = (d.port n).fenced ∧ ((d.enablePort n).port n).state = (d.port n).enabledState := by
  have hend (e : Dev) (hen : (e.port n).en = true) (hfails : (e.port n).fails = 0) (hfen : (e.port n).fenced = (d.port n).fenced)
      (hst : (e.port n).state = (d.port n).enabledState) :
      (e.updatePairs.port n).en = true ∧ (e.updatePairs.port n).fails = 0 ∧ (e.updatePairs.port n).fenced = (d.port n).fenced ∧
        (e.updatePairs.port n).state = (d.port n).enabledState := by
    have hp := e.updatePairs_paired.port n
    obtain ⟨h₁, h₂, h₃, -⟩ := Port.paired_fields hp
    refine ⟨h₁.trans hen, h₂.trans hfails, h₃.trans hfen, (hp.2 ?_).trans hst⟩
    rw [hst, Port.enabledState]
    split
    · decide
    split <;> decide
  unfold Dev.enablePort
  dsimp only
  split
  · next hf =>
    refine hend _ ?_ ?_ ?_ ?_ <;> rw [Dev.port_setPort]
    rw [Port.enabledState, if_pos hf]
  next hf =>
  split
  · next hh =>
    refine hend _ ?_ ?_ ?_ ?_ <;> rw [Dev.startTraining_port, Dev.port_setPort]
    · rfl
    · rfl
    · rfl
    · rw [Port.enabledState, if_neg hf, if_pos hh]; rfl
  · next hh =>
    refine hend _ ?_ ?_ ?_ ?_ <;> rw [Dev.enterNoSink_port, Dev.port_setPort]
    · rfl
    · rfl
    · rfl
    · rw [Port.enabledState, if_neg hf, if_neg hh]

/-! ## O39 -/

theorem portEnable_spec {m : Fn} {n : PortNo} {s : State} (h : s.dev.mayWriteReg m .dpt n DPT_CTL) (hst : (s.dev.port n).state = .off) :
    ∃ u, exec (.portEnable m n) s = .next u ∧ (u.dev.port n).en = true ∧ (u.dev.port n).fails = 0 ∧
      (u.dev.port n).state = (s.dev.port n).enabledState := by
  obtain ⟨d, hd, he⟩ : ∃ d : Dev, d.port n = { s.dev.port n with en := true } ∧ exec (.portEnable m n) s = .next ⟨d.enablePort n, s.pending⟩ := by
    refine ⟨(s.dev.setArm (448 + n) m false).setPort n { s.dev.port n with en := true }, Dev.port_setPort .., ?_⟩
    show s.dev! (Dev.regWrite m .dpt n DPT_CTL 1) = _
    rw [State.dev!_next, Dev.regWrite_portEnable h]
    unfold Dev.writePortEn
    dsimp only
    rw [Dev.setArm_port, hst]
  refine ⟨_, he, ?_⟩
  dsimp only
  obtain ⟨h₁, h₂, -, h₃⟩ := d.enablePort_spec n
  rw [hd] at h₃
  exact ⟨h₁, h₂, h₃⟩

theorem portDisable_spec {m : Fn} {n : PortNo} {s : State} (h : s.dev.mayWriteReg m .dpt n DPT_CTL)
    (hst : (s.dev.port n).state = .noSink ∨ (s.dev.port n).state = .training ∨ (s.dev.port n).state = .idle ∨
      (s.dev.port n).state = .active ∨ (s.dev.port n).state = .linkLost) :
    ∃ u, exec (.portDisable m n) s = .next u ∧ (u.dev.port n).en = false ∧ (u.dev.port n).state = .draining := by
  obtain ⟨d, c, hen, hd, he⟩ : ∃ (d : Dev) (c : Nat), (d.port n).en = false ∧ (d.port n).state = .draining ∧
      exec (.portDisable m n) s = .next ⟨d.updatePairs.relinkProgress c, s.pending⟩ := by
    have he : exec (.portDisable m n) s = .next ⟨(s.dev.setArm (448 + n) m false).writePortEn n false, s.pending⟩ := by
      show s.dev! (Dev.regWrite m .dpt n DPT_CTL 0) = _
      rw [State.dev!_next, Dev.regWrite_portDisable h]
    rw [he]
    unfold Dev.writePortEn
    dsimp only
    rw [Dev.setArm_port]
    rcases hst with hst | hst | hst | hst | hst <;>
    · rw [hst]
      dsimp only
      refine ⟨_, _, ?_, ?_, rfl⟩ <;> rw [Dev.port_setPort]
  refine ⟨_, he, ?_⟩
  dsimp only
  have hp := (d.updatePairs_paired.trans (Dev.relinkProgress_paired c _)).port n
  exact ⟨(Port.paired_fields hp).1.trans hen, (hp.2 (by rw [hd]; decide)).trans hd⟩

theorem Dev.writePortEn_same {n : Nat} {d : Dev} (hen : (d.port n).en = true) (hst : (d.port n).state ≠ .off) (hdr : (d.port n).state ≠ .draining) :
    d.writePortEn n true = d.setPort n (d.port n) := by
  have hx : ({ d.port n with en := true } : Port) = d.port n := by rw [← hen]
  unfold Dev.writePortEn
  rw [hx]
  dsimp only
  cases h : (d.port n).state with
  | off => exact absurd h hst
  | draining => exact absurd h hdr
  | noSink | training | idle | active | linkLost | fenced => rfl

theorem exec_retrain {m : Fn} {n : PortNo} {s : State} (h : s.dev.mayWriteReg m .dpt n DPT_CTL) (hen : (s.dev.port n).en = true)
    (hst : (s.dev.port n).state ≠ .off) (hdr : (s.dev.port n).state ≠ .draining) :
    ∃ d : Dev, (∀ k, d.port k = s.dev.port k) ∧ exec (.retrain m n) s = .next ⟨d.retrainPort n, s.pending⟩ := by
  have he : exec (.retrain m n) s = .next ⟨((s.dev.setArm (448 + n) m false).writePortEn n (s.dev.port n).en).retrainPort n, s.pending⟩ := by
    show s.dev! (Dev.fieldWrite m .dpt n DPT_CTL 0 2) = _
    rw [State.dev!_next, Dev.fieldWrite_retrain h]
  have hport (k : Nat) : (s.dev.setArm (448 + n) m false).port k = s.dev.port k := Dev.setArm_port ..
  generalize s.dev.setArm (448 + n) m false = y at *
  rw [hen, Dev.writePortEn_same (by rw [hport]; exact hen) (by rw [hport]; exact hst) (by rw [hport]; exact hdr)] at he
  refine ⟨y.setPort n (y.port n), fun k => ?_, he⟩
  by_cases hk : k = n.val
  · rw [hk, Dev.port_setPort, hport]
  · rw [Dev.port_setPort_ne _ _ hk, hport]

theorem retrain_active {m : Fn} {n : PortNo} {s : State} (h : s.dev.mayWriteReg m .dpt n DPT_CTL) (hen : (s.dev.port n).en = true)
    (hst : (s.dev.port n).state = .active) :
    ∃ u, exec (.retrain m n) s = .next u ∧ u.dev.port n = { s.dev.port n with relinkAt := true } ∧
      ∀ k, k ≠ n.val → u.dev.port k = s.dev.port k := by
  obtain ⟨d, hport, he⟩ := exec_retrain h hen (by rw [hst]; decide) (by rw [hst]; decide)
  refine ⟨_, he, ?_⟩
  dsimp only
  unfold Dev.retrainPort
  dsimp only
  rw [hport, hst]
  dsimp only
  rw [Dev.port_setPort]
  exact ⟨rfl, fun k hk => (Dev.port_setPort_ne _ _ hk).trans (hport k)⟩

theorem retrain_idle {m : Fn} {n : PortNo} {s : State} (h : s.dev.mayWriteReg m .dpt n DPT_CTL) (hen : (s.dev.port n).en = true)
    (hst : (s.dev.port n).state = .idle ∨ (s.dev.port n).state = .linkLost) :
    ∃ u, exec (.retrain m n) s = .next u ∧ (u.dev.port n).state = .training ∧ (u.dev.port n).step = .caps ∧
      ∀ k, k ≠ n.val → u.dev.port k = s.dev.port k := by
  obtain ⟨d, hport, he⟩ := exec_retrain h hen (by rcases hst with hst | hst <;> rw [hst] <;> decide) (by rcases hst with hst | hst <;> rw [hst] <;> decide)
  refine ⟨_, he, ?_⟩
  dsimp only
  have ht : d.retrainPort n = d.startTraining n := by
    unfold Dev.retrainPort
    dsimp only
    rw [hport]
    rcases hst with hst | hst <;> rw [hst]
  rw [ht, Dev.startTraining_port]
  exact ⟨rfl, rfl, fun k hk => ((Dev.startTraining_step n d).others k hk).trans (hport k)⟩

theorem exec_portFrel {m : Fn} {n : PortNo} {s : State} (h : s.dev.mayWriteReg m .dpt n DPT_CTL)
    (ha : s.dev.armed (PType.dpt.page + n) m = true) : exec (.portFrel m n) s =
      .next ⟨((s.dev.setArm (448 + n) m false).writePortEn n (s.dev.port n).en).releasePort n, s.pending⟩ := by
  show s.dev! (Dev.fieldWrite m .dpt n DPT_CTL 0 4) = _
  rw [State.dev!_next, Dev.fieldWrite_portFrel h ha]

theorem portFrel_fenced {m : Fn} {n : PortNo} {s : State} (h : s.dev.mayWriteReg m .dpt n DPT_CTL)
    (hen : (s.dev.port n).en = true) (hst : (s.dev.port n).state = .fenced) (hf : (s.dev.port n).fenced = true)
    (ha : s.dev.armed (PType.dpt.page + n) m = true) :
    ∃ u, exec (.portFrel m n) s = .next u ∧ (u.dev.port n).fenced = false ∧
      (u.dev.port n).state = (if (s.dev.port n).hpd then .training else .noSink) ∧ ∀ k, k ≠ n.val → u.dev.port k = s.dev.port k := by
  refine ⟨_, exec_portFrel h ha, ?_⟩
  dsimp only
  have hport (k : Nat) : (s.dev.setArm (448 + n) m false).port k = s.dev.port k := Dev.setArm_port ..
  generalize s.dev.setArm (448 + n) m false = y at *
  rw [hen, Dev.writePortEn_same (by rw [hport]; exact hen) (by rw [hport, hst]; decide) (by rw [hport, hst]; decide)]
  have hself : (y.setPort n (y.port n)).port n = s.dev.port n := by rw [Dev.port_setPort, hport]
  have hne (k : Nat) (hk : k ≠ n.val) : (y.setPort n (y.port n)).port k = s.dev.port k := by rw [Dev.port_setPort_ne _ _ hk, hport]
  generalize y.setPort n (y.port n) = z at *
  unfold Dev.releasePort
  dsimp only
  rw [hself, if_neg (by simp [hf]), if_pos hst]
  have hset := Dev.port_setPort n { s.dev.port n with fenced := false } z
  have hsetne (k : Nat) (hk : k ≠ n.val) := (Dev.port_setPort_ne { s.dev.port n with fenced := false } z hk).trans (hne k hk)
  generalize z.setPort n { s.dev.port n with fenced := false } = w at *
  by_cases hh : (s.dev.port n).hpd = true
  · rw [if_pos hh, if_pos hh, Dev.startTraining_port, hset]
    exact ⟨rfl, rfl, fun k hk => ((Dev.startTraining_step n w).others k hk).trans (hsetne k hk)⟩
  · rw [if_neg hh, if_neg hh, Dev.enterNoSink_port, hset]
    exact ⟨rfl, rfl, fun k hk => (Dev.enterNoSink_others n k w hk).trans (hsetne k hk)⟩

theorem portFrel_off {m : Fn} {n : PortNo} {s : State} (h : s.dev.mayWriteReg m .dpt n DPT_CTL)
    (hst : (s.dev.port n).state = .off) (hen : (s.dev.port n).en = false) (hf : (s.dev.port n).fenced = true)
    (ha : s.dev.armed (PType.dpt.page + n) m = true) :
    ∃ u, exec (.portFrel m n) s = .next u ∧ u.dev.port n = { s.dev.port n with fenced := false } ∧
      ∀ k, k ≠ n.val → u.dev.port k = s.dev.port k := by
  refine ⟨_, exec_portFrel h ha, ?_⟩
  dsimp only
  have hport (k : Nat) : (s.dev.setArm (448 + n) m false).port k = s.dev.port k := Dev.setArm_port ..
  generalize s.dev.setArm (448 + n) m false = y at *
  have hw : y.writePortEn n (s.dev.port n).en = y.setPort n (s.dev.port n) := by
    have hx : ({ s.dev.port n with en := false } : Port) = s.dev.port n := by rw [← hen]
    unfold Dev.writePortEn
    rw [hen, hport, hx]
    dsimp only
    rw [hst]
  rw [hw]
  have hself : (y.setPort n (s.dev.port n)).port n = s.dev.port n := Dev.port_setPort ..
  have hne (k : Nat) (hk : k ≠ n.val) : (y.setPort n (s.dev.port n)).port k = s.dev.port k := by rw [Dev.port_setPort_ne _ _ hk, hport]
  generalize y.setPort n (s.dev.port n) = z at *
  unfold Dev.releasePort
  dsimp only
  rw [hself, if_neg (by simp [hf]), if_neg (by rw [hst]; decide), Dev.port_setPort]
  exact ⟨rfl, fun k hk => (Dev.port_setPort_ne _ _ hk).trans (hne k hk)⟩

theorem swap_spec {m : Fn} {n : PortNo} {s : State} (h : s.dev.mayWriteReg m .dpt n DPT_PAIR_CMD)
    (ha : s.dev.armed (PType.dpt.page + n) m = true) :
    ∃ u, exec (.swap m n) s = .next u ∧ u.dev.port n = (if s.dev.coldPair n then { s.dev.port n with swapAt := true } else s.dev.port n) ∧
      ∀ k, k ≠ n.val → u.dev.port k = s.dev.port k := by
  have he : exec (.swap m n) s = .next ⟨(s.dev.setArm (448 + n) m false).askSwap n, s.pending⟩ := by
    show s.dev! (Dev.regWrite m .dpt n DPT_PAIR_CMD 1) = _
    rw [State.dev!_next, Dev.regWrite_swap h ha]
  refine ⟨_, he, ?_⟩
  dsimp only
  have hcold : (s.dev.setArm (448 + n) m false).coldPair n = s.dev.coldPair n := rfl
  have hport (k : Nat) : (s.dev.setArm (448 + n) m false).port k = s.dev.port k := Dev.setArm_port ..
  generalize s.dev.setArm (448 + n) m false = y at *
  unfold Dev.askSwap
  rw [hcold]
  cases s.dev.coldPair n with
  | true =>
    rw [Dev.when_true, Dev.port_setPort, hport]
    exact ⟨rfl, fun k hk => (Dev.port_setPort_ne _ _ hk).trans (hport k)⟩
  | false => exact ⟨hport n, fun k _ => hport k⟩

theorem portDrainComplete_spec {n : PortNo} {s : State} (hst : (s.dev.port n).state = .draining) (hstep : (s.dev.port n).step = .none)
    (haux : (s.dev.port n).aux.busy = false) (hline : (s.dev.port n).lineEnd ≤ s.dev.now) :
    ∃ u, exec (.portDrainComplete n) s = .next u ∧ (u.dev.port n).fenced = (s.dev.port n).fenced ∧
      ((s.dev.port n).enPending = false → (u.dev.port n).state = .off ∧ ∀ k, k ≠ n.val → u.dev.port k = s.dev.port k) ∧
      ((s.dev.port n).enPending = true → (u.dev.port n).en = true ∧ (u.dev.port n).state = (s.dev.port n).enabledState) := by
  have he : exec (.portDrainComplete n) s = .next ⟨s.dev.portDrained n, s.pending⟩ := by
    show execPortDrainComplete n s = _
    rw [execPortDrainComplete, State.dev!_next, show (s.dev.port n).drained s.dev.now = true by simp [Port.drained, hst, hstep, haux, hline],
      Dev.when_true]
  refine ⟨_, he, ?_⟩
  dsimp only
  unfold Dev.portDrained
  dsimp only
  obtain ⟨e, he', hfen, hhpd, hoff, hne⟩ : ∃ e, e = (s.dev.takeFmt n).setPort n { (s.dev.port n).unpower with
      state := .off, enPending := false, fmtNext := none } ∧ (e.port n).fenced = (s.dev.port n).fenced ∧ (e.port n).hpd = (s.dev.port n).hpd ∧
      (e.port n).state = .off ∧ ∀ k, k ≠ n.val → e.port k = s.dev.port k := by
    refine ⟨_, rfl, ?_, ?_, ?_, fun k hk => (Dev.port_setPort_ne _ _ hk).trans ((Dev.takeFmt_step n s.dev).others k hk)⟩ <;>
    · rw [Dev.port_setPort]
      try rfl
  rw [← he']
  cases hp : (s.dev.port n).enPending with
  | true =>
    rw [if_pos rfl]
    obtain ⟨hen, -, hf, hs⟩ := e.enablePort_spec n
    refine ⟨hf.trans hfen, fun h => absurd h (by decide), fun _ => ⟨hen, hs.trans ?_⟩⟩
    rw [Port.enabledState, Port.enabledState, hfen, hhpd]
  | false =>
    rw [if_neg (by decide)]
    exact ⟨hfen, fun _ => ⟨hoff, hne⟩, fun h => absurd h (by decide)⟩

/-- Settles O39: a port's enable, disable, retrain, release, swap and drain, each by the state it is in. -/
theorem portsEnableDrainAndTrain : Obligations.PortsEnableDrainAndTrain := by
  unfold Obligations.PortsEnableDrainAndTrain
  rintro m n x s rfl
  exact ⟨fun h => ⟨portEnable_spec h, portDisable_spec h, retrain_active h, retrain_idle h, portFrel_fenced h, portFrel_off h⟩,
    swap_spec, portDrainComplete_spec⟩

/-! ## O40 -/

theorem hpdFall_spec {n : PortNo} {s : State} (hp : (s.dev.port n).hpdPin = true) :
    ∃ u, exec (.hpdFall n) s = .next u ∧ u.dev.port n = { s.dev.port n with hpdPin := false, edgeAt := s.dev.now, lossDone := false } ∧
      ∀ k, k ≠ n.val → u.dev.port k = s.dev.port k := by
  have he : exec (.hpdFall n) s = .next ⟨s.dev.setPort n { s.dev.port n with hpdPin := false, edgeAt := s.dev.now, lossDone := false }, s.pending⟩ := by
    show execHpdFall n s = _
    rw [execHpdFall, State.dev!_next]
    rw [hp, Dev.when_true]
  exact ⟨_, he, Dev.port_setPort .., fun k hk => Dev.port_setPort_ne _ _ hk⟩

/-- An IRQ_HPD is counted, and asks for the link status or for another training. -/
theorem Dev.irqHpd_spec (n : Nat) (d : Dev) : ((d.irqHpd n).port n).hpdPin = (d.port n).hpdPin ∧ ((d.irqHpd n).port n).edgeAt = (d.port n).edgeAt ∧
    ((d.irqHpd n).port n).irqCnt = (d.port n).irqCnt + 1 ∧
    ((d.port n).state = .training ∨ (d.port n).state = .idle ∨ (d.port n).state = .active → ((d.irqHpd n).port n).statusDue = true) ∧
    ((d.port n).state = .linkLost → ((d.irqHpd n).port n).state = .training) ∧ ∀ k, k ≠ n → (d.irqHpd n).port k = d.port k := by
  unfold Dev.irqHpd
  dsimp only
  obtain ⟨x, hx, h₁, h₂, h₃, h₄⟩ : ∃ x : Port, { d.port n with irqCnt := (d.port n).irqCnt + 1 } = x ∧ x.hpdPin = (d.port n).hpdPin ∧
    x.edgeAt = (d.port n).edgeAt ∧ x.irqCnt = (d.port n).irqCnt + 1 ∧ x.state = (d.port n).state := ⟨_, rfl, rfl, rfl, rfl, rfl⟩
  rw [hx, ← h₄]
  have hset := Dev.port_setPort n x d
  have hne (k : Nat) (hk : k ≠ n) := Dev.port_setPort_ne x d hk
  cases hst : x.state with
  | idle | active | training =>
    dsimp only
    rw [Dev.port_setPort]
    exact ⟨rfl, rfl, rfl, fun _ => rfl, fun h => absurd h (by decide), fun k hk => Dev.port_setPort_ne _ _ hk⟩
  | linkLost =>
    dsimp only
    generalize d.setPort n x = e at *
    rw [Dev.startTraining_port, hset]
    exact ⟨h₁, h₂, h₃, fun h => absurd h (by decide), fun _ => rfl, fun k hk => ((Dev.startTraining_step n e).others k hk).trans (hne k hk)⟩
  | off | noSink | fenced | draining =>
    dsimp only
    rw [hset]
    exact ⟨h₁, h₂, h₃, fun h => absurd h (by decide), fun h => absurd h (by decide), hne⟩

theorem hpdRise_spec {n : PortNo} {s : State} (hp : (s.dev.port n).hpdPin = false) :
    ∃ u, exec (.hpdRise n) s = .next u ∧ (u.dev.port n).hpdPin = true ∧ (u.dev.port n).edgeAt = s.dev.now ∧
      (if s.dev.supervises = true ∧ (s.dev.port n).lossDone = false ∧ 250000 ≤ s.dev.now - (s.dev.port n).edgeAt ∧
          s.dev.now - (s.dev.port n).edgeAt < 2000000 then
        (u.dev.port n).irqCnt = (s.dev.port n).irqCnt + 1 ∧
        ((s.dev.port n).state = .training ∨ (s.dev.port n).state = .idle ∨ (s.dev.port n).state = .active → (u.dev.port n).statusDue = true) ∧
        ((s.dev.port n).state = .linkLost → (u.dev.port n).state = .training)
       else u.dev.port n = { s.dev.port n with hpdPin := true, edgeAt := s.dev.now }) ∧
      ∀ k, k ≠ n.val → u.dev.port k = s.dev.port k := by
  have he : exec (.hpdRise n) s = .next ⟨(s.dev.setPort n { s.dev.port n with hpdPin := true, edgeAt := s.dev.now }).when
      (s.dev.supervises && !(s.dev.port n).lossDone && decide (250000 ≤ s.dev.now - (s.dev.port n).edgeAt) &&
        decide (s.dev.now - (s.dev.port n).edgeAt < 2000000)) (Dev.irqHpd n), s.pending⟩ := by
    show execHpdRise n s = _
    rw [execHpdRise, State.dev!_next, show (!(s.dev.port n).hpdPin) = true by rw [hp]; rfl, Dev.when_true]
    rfl
  refine ⟨_, he, ?_⟩
  dsimp only
  have hset := Dev.port_setPort n { s.dev.port n with hpdPin := true, edgeAt := s.dev.now } s.dev
  have hne (k : Nat) (hk : k ≠ n.val) := Dev.port_setPort_ne { s.dev.port n with hpdPin := true, edgeAt := s.dev.now } s.dev hk
  generalize s.dev.setPort n { s.dev.port n with hpdPin := true, edgeAt := s.dev.now } = e at *
  by_cases h : s.dev.supervises = true ∧ (s.dev.port n).lossDone = false ∧ 250000 ≤ s.dev.now - (s.dev.port n).edgeAt ∧
      s.dev.now - (s.dev.port n).edgeAt < 2000000
  · rw [if_pos h, show (s.dev.supervises && !(s.dev.port n).lossDone && decide (250000 ≤ s.dev.now - (s.dev.port n).edgeAt) &&
        decide (s.dev.now - (s.dev.port n).edgeAt < 2000000)) = true by simp [h], Dev.when_true]
    obtain ⟨h₁, h₂, h₃, h₄, h₅, h₆⟩ := e.irqHpd_spec n
    rw [hset] at h₁ h₂ h₃ h₄ h₅
    exact ⟨h₁, h₂, ⟨h₃, h₄, h₅⟩, fun k hk => (h₆ k hk).trans (hne k hk)⟩
  · rw [if_neg h, show (s.dev.supervises && !(s.dev.port n).lossDone && decide (250000 ≤ s.dev.now - (s.dev.port n).edgeAt) &&
        decide (s.dev.now - (s.dev.port n).edgeAt < 2000000)) = false by simpa using h, Dev.when_false, hset]
    exact ⟨rfl, rfl, rfl, hne⟩

theorem hpdLoss_spec {n : PortNo} {s : State} (hs : s.dev.supervises = true) (hp : (s.dev.port n).hpdPin = false)
    (hl : (s.dev.port n).lossDone = false) (hd : (s.dev.port n).edgeAt + 2000000 ≤ s.dev.now) :
    ∃ u, exec (.hpdLoss n) s = .next u ∧ (u.dev.port n).hpd = false ∧ (u.dev.port n).lossCnt = (s.dev.port n).lossCnt + 1 ∧
      (u.dev.port n).lossDone = true ∧
      (u.dev.port n).state = (if (s.dev.port n).state = .training ∨ (s.dev.port n).state = .idle ∨ (s.dev.port n).state = .active ∨
        (s.dev.port n).state = .linkLost then .noSink else (s.dev.port n).state) := by
  have he : exec (.hpdLoss n) s = .next ⟨s.dev.declareLoss n, s.pending⟩ := by
    show execHpdLoss n s = _
    rw [execHpdLoss, State.dev!_next]
    dsimp only
    rw [show (s.dev.supervises && !(s.dev.port n).hpdPin && !(s.dev.port n).lossDone && decide ((s.dev.port n).edgeAt + 2000000 ≤ s.dev.now)) = true by
      simp [hs, hp, hl, hd], Dev.when_true]
  refine ⟨_, he, ?_⟩
  dsimp only
  unfold Dev.declareLoss
  dsimp only
  have hset := Dev.port_setPort n { s.dev.port n with lossDone := true, hpd := false, lossCnt := (s.dev.port n).lossCnt + 1 } s.dev
  generalize s.dev.setPort n { s.dev.port n with lossDone := true, hpd := false, lossCnt := (s.dev.port n).lossCnt + 1 } = e at *
  have hlost : let f := (((e.enterNoSink n).trigger n 2).auxFree n).relinkProgress (s.dev.portCanvas n)
      (f.port n).hpd = false ∧ (f.port n).lossCnt = (s.dev.port n).lossCnt + 1 ∧ (f.port n).lossDone = true ∧ (f.port n).state = .noSink := by
    dsimp only
    have hns := e.enterNoSink_port n
    rw [hset] at hns
    generalize e.enterNoSink n = f at *
    have hp := ((Dev.trigger_paired n 2 f).trans ((Dev.auxFree_paired n _).trans (Dev.relinkProgress_paired (s.dev.portCanvas n) _))).port n
    obtain ⟨-, -, -, h₁, h₂, h₃, -⟩ := Port.paired_fields hp
    have h₄ := hp.2 (by rw [hns]; exact (by decide : PState.noSink ≠ .active))
    rw [hns] at h₁ h₂ h₃ h₄
    exact ⟨h₁, h₂, h₃, h₄⟩
  cases hst : (s.dev.port n).state with
  | training | idle | active | linkLost => exact hlost
  | off | noSink | fenced | draining =>
    dsimp only
    rw [hset]
    exact ⟨rfl, rfl, rfl, hst⟩

theorem hpdDebounced_spec {n : PortNo} {s : State} (hs : s.dev.supervises = true) (hp : (s.dev.port n).hpdPin = true)
    (hh : (s.dev.port n).hpd = false) (hd : (s.dev.port n).edgeAt + 2000000 ≤ s.dev.now) :
    ∃ u, exec (.hpdDebounced n) s = .next u ∧ (u.dev.port n).hpd = true ∧
      (u.dev.port n).state = (if (s.dev.port n).state = .noSink then .training else (s.dev.port n).state) ∧
      ∀ k, k ≠ n.val → u.dev.port k = s.dev.port k := by
  have he : exec (.hpdDebounced n) s = .next ⟨if (s.dev.port n).state = .noSink then
      (s.dev.setPort n { s.dev.port n with hpd := true }).startTraining n else s.dev.setPort n { s.dev.port n with hpd := true }, s.pending⟩ := by
    show execHpdDebounced n s = _
    rw [execHpdDebounced, State.dev!_next]
    dsimp only
    rw [show (s.dev.supervises && (s.dev.port n).hpdPin && !(s.dev.port n).hpd && decide ((s.dev.port n).edgeAt + 2000000 ≤ s.dev.now)) = true by
      simp [hs, hp, hh, hd], Dev.when_true]
  refine ⟨_, he, ?_⟩
  dsimp only
  have hset := Dev.port_setPort n { s.dev.port n with hpd := true } s.dev
  have hne (k : Nat) (hk : k ≠ n.val) := Dev.port_setPort_ne { s.dev.port n with hpd := true } s.dev hk
  generalize s.dev.setPort n { s.dev.port n with hpd := true } = e at *
  by_cases hst : (s.dev.port n).state = .noSink
  · rw [if_pos hst, if_pos hst, Dev.startTraining_port, hset]
    exact ⟨rfl, rfl, fun k hk => ((Dev.startTraining_step n e).others k hk).trans (hne k hk)⟩
  · rw [if_neg hst, if_neg hst, hset]
    exact ⟨rfl, rfl, hne⟩

/-- Settles O40: the edges of `HPD`, the loss and the debounce. -/
theorem hotPlugIsTimed : Obligations.HotPlugIsTimed := by
  unfold Obligations.HotPlugIsTimed
  rintro n x s rfl
  exact ⟨hpdFall_spec, hpdRise_spec, hpdLoss_spec, hpdDebounced_spec⟩

end Sys2Proof.Machine
end

section
/-!
PROOF of O41 and O42: links train, retry, fail and are supervised, and AUX transactions run to a reply.
-/
namespace Sys2Proof.Machine
set_option Elab.async false

/-! ## O41: training -/

theorem Dev.trigger_arrivals (n kind : Nat) (d : Dev) : ∀ f ∈ d.flt.arrivals, f ∈ (d.trigger n kind).flt.arrivals := by
  have hfire (src inst : Nat) (x : BitVec 128) (e : Dev) : ∀ f ∈ e.flt.arrivals, f ∈ (e.fire src inst x).flt.arrivals :=
    fun f hf => List.mem_append_left _ hf
  intro f hf
  unfold Dev.trigger
  dsimp only
  generalize (decide (kind = 1) || _ || _) = on
  split
  · exact hf
  have hfired : f ∈ ((d.setPort n { d.port n with failed := kind }).fire 387 n (dbits 0 (d.partner n) ||| dbits 8 kind)).flt.arrivals :=
    hfire _ _ _ _ f hf
  generalize (d.setPort n { d.port n with failed := kind }).fire 387 n (dbits 0 (d.partner n) ||| dbits 8 kind) = e at *
  split
  · exact hfired
  split
  · exact hfired
  split
  · exact hfired
  · exact hfire _ _ _ _ f hfired

/-- The end of an attempt that failed: another follows, or the link is lost, or an IRQ_HPD that came is answered. -/
theorem Dev.attemptFailed_spec (n : Nat) (cap : Bool) (d : Dev) :
    ((d.attemptFailed n cap).port n).fails = min 255 ((d.port n).fails + 1) ∧ ((d.attemptFailed n cap).port n).capErr = cap ∧
    ((d.port n).state = .training → (d.port n).attempts < d.fld .dpt n DPT_LINK 5 3 →
      ((d.attemptFailed n cap).port n).state = .training ∧ ((d.attemptFailed n cap).port n).step = .retryWait d.now ∧
      ((d.attemptFailed n cap).port n).attempts = (d.port n).attempts + 1) ∧
    ((d.port n).state = .training → ¬ (d.port n).attempts < d.fld .dpt n DPT_LINK 5 3 →
      ((d.attemptFailed n cap).port n).state = (if (d.port n).statusDue then .training else .linkLost) ∧
      ∃ f ∈ (d.attemptFailed n cap).flt.arrivals, f.src = 385 ∧ f.inst = n) := by
  unfold Dev.attemptFailed
  dsimp only
  by_cases hdr : (d.port n).state = .draining
  · rw [if_pos hdr]
    have hset := Dev.port_setPort n { d.port n with fails := min 255 ((d.port n).fails + 1), capErr := cap, step := .none } d
    generalize d.setPort n { d.port n with fails := min 255 ((d.port n).fails + 1), capErr := cap, step := .none } = e at *
    obtain ⟨-, hfails, -, -, -, -, -, -, -, hcap, -⟩ := Port.paired_fields ((e.auxFree_paired n).port n)
    rw [hset] at hfails hcap
    exact ⟨hfails, hcap, fun h => absurd (hdr.symm.trans h) (by decide), fun h => absurd (hdr.symm.trans h) (by decide)⟩
  rw [if_neg hdr]
  by_cases ha : (d.port n).attempts < d.fld .dpt n DPT_LINK 5 3
  · rw [if_pos ha, Dev.port_setPort]
    exact ⟨rfl, rfl, fun h _ => ⟨h, rfl, rfl⟩, fun _ h => absurd ha h⟩
  rw [if_neg ha]
  obtain ⟨x, hx, hfails, hcap, hst⟩ : ∃ x : Port, x = { ({ d.port n with fails := min 255 ((d.port n).fails + 1), capErr := cap } : Port).unpower with
    state := .linkLost, step := .none, statusDue := false } ∧ x.fails = min 255 ((d.port n).fails + 1) ∧ x.capErr = cap ∧ x.state = .linkLost :=
    ⟨_, rfl, rfl, rfl, rfl⟩
  rw [← hx]
  generalize hdet : (dbits 0 (min 255 ((d.port n).fails + 1)) ||| dbits 8 (if cap then 1 else 0) : BitVec 128) = det
  have hset : ((d.setPort n x).fire 385 n det).port n = x := by rw [Dev.fire_port, Dev.port_setPort]
  have harr : ∃ f ∈ ((d.setPort n x).fire 385 n det).flt.arrivals, f.src = 385 ∧ f.inst = n :=
    ⟨_, List.mem_append_right _ (List.mem_singleton_self _), rfl, rfl⟩
  generalize (d.setPort n x).fire 385 n det = e at *
  have hp := ((e.trigger_paired n 3).trans ((Dev.auxFree_paired n _).trans (Dev.relinkProgress_paired ((e.trigger n 3).auxFree n |>.portCanvas n) _))).port n
  have hpc : ((e.trigger n 3).auxFree n).portCanvas n = e.portCanvas n := Dev.fld_congr (by simp) ..
  rw [hpc] at hp
  have harr' : ∃ f ∈ (((e.trigger n 3).auxFree n).relinkProgress (e.portCanvas n)).flt.arrivals, f.src = 385 ∧ f.inst = n := by
    obtain ⟨f, hf, hsrc⟩ := harr
    refine ⟨f, ?_, hsrc⟩
    rw [show (((e.trigger n 3).auxFree n).relinkProgress (e.portCanvas n)).flt = (e.trigger n 3).flt by simp]
    exact Dev.trigger_arrivals n 3 e f hf
  generalize ((e.trigger n 3).auxFree n).relinkProgress (e.portCanvas n) = z at *
  obtain ⟨-, hfails', -, -, -, -, -, -, -, hcap', -⟩ := Port.paired_fields hp
  have hst' := hp.2 (by rw [hset, hst]; decide)
  rw [hset] at hfails' hcap' hst'
  cases (d.port n).statusDue with
  | true =>
    rw [if_pos rfl, Dev.startTraining_port]
    refine ⟨hfails'.trans hfails, hcap'.trans hcap, fun _ h => absurd h ha, fun _ _ => ⟨rfl, ?_⟩⟩
    rw [show (z.startTraining n).flt = z.flt by simp]
    exact harr'
  | false =>
    rw [if_neg (by decide)]
    exact ⟨hfails'.trans hfails, hcap'.trans hcap, fun _ h => absurd h ha, fun _ _ => ⟨hst'.trans hst, harr'⟩⟩

theorem Dev.beginAttempt_some {n l r : Nat} {k : SinkCaps} {rest : List (Nat × Nat)} {d : Dev} (hk : (d.port n).caps = some k)
    (hc : d.candidates n k = (l, r) :: rest) : d.beginAttempt n = d.setPort n { d.port n with step := .candidate l r rest } := by
  unfold Dev.beginAttempt
  dsimp only
  rw [hk]
  dsimp only
  rw [hc]

theorem Dev.beginAttempt_none {n : Nat} {k : SinkCaps} {d : Dev} (hk : (d.port n).caps = some k)
    (hc : d.candidates n k = []) : d.beginAttempt n = d.attemptFailed n true := by
  unfold Dev.beginAttempt
  dsimp only
  rw [hk]
  dsimp only
  rw [hc]

theorem exec_sinkCapabilitiesRead {n : PortNo} {caps : SinkCaps} {s : State} (hst : (s.dev.port n).step = .caps) :
    exec (.sinkCapabilitiesRead n caps) s = .next ⟨(s.dev.setPort n { s.dev.port n with caps := some caps }).beginAttempt n, s.pending⟩ := by
  show execSinkCapabilitiesRead n caps s = _
  rw [execSinkCapabilitiesRead, State.dev!_next, show decide ((s.dev.port n).step = .caps) = true by simp [hst], Dev.when_true]

theorem sinkCapabilitiesRead_some {n : PortNo} {caps : SinkCaps} {l r : Nat} {rest : List (Nat × Nat)} {s : State}
    (hst : (s.dev.port n).step = .caps) (hc : s.dev.candidates n caps = (l, r) :: rest) :
    ∃ u, exec (.sinkCapabilitiesRead n caps) s = .next u ∧
      u.dev.port n = { s.dev.port n with caps := some caps, step := .candidate l r rest } ∧ s.dev.onlyChanges u.dev [.ports] := by
  refine ⟨_, exec_sinkCapabilitiesRead hst, ?_⟩
  dsimp only
  rw [Dev.beginAttempt_some (d := s.dev.setPort n { s.dev.port n with caps := some caps }) (by rw [Dev.port_setPort]) hc,
    Dev.port_setPort, Dev.port_setPort]
  exact ⟨rfl, by simp [Dev.onlyChanges_iff]⟩

theorem sinkCapabilitiesRead_none {n : PortNo} {caps : SinkCaps} {s : State}
    (hst : (s.dev.port n).step = .caps) (hc : s.dev.candidates n caps = []) :
    ∃ u, exec (.sinkCapabilitiesRead n caps) s = .next u ∧ (u.dev.port n).fails = min 255 ((s.dev.port n).fails + 1) ∧
      (u.dev.port n).capErr = true := by
  refine ⟨_, exec_sinkCapabilitiesRead hst, ?_⟩
  dsimp only
  have hset := Dev.port_setPort n { s.dev.port n with caps := some caps } s.dev
  rw [Dev.beginAttempt_none (k := caps) (d := s.dev.setPort n { s.dev.port n with caps := some caps }) (by rw [hset]) hc]
  generalize s.dev.setPort n { s.dev.port n with caps := some caps } = d at *
  obtain ⟨hfails, hcap, -⟩ := d.attemptFailed_spec n true
  rw [hset] at hfails
  exact ⟨hfails, hcap⟩

theorem Dev.recovered_paired (n : Nat) (d : Dev) : d.Paired (d.recovered n) := by
  unfold Dev.recovered
  dsimp only
  split
  · have hself : d.Paired (d.setPort n { d.port n with failed := 0, standby := false }) := .setPort ⟨rfl, fun _ => rfl⟩
    refine hself.trans (.setPort ?_)
    by_cases hm : d.partner n = n
    · rw [hm, Dev.port_setPort]
      exact ⟨rfl, fun _ => rfl⟩
    · rw [Dev.port_setPort_ne _ _ hm]
      exact ⟨rfl, fun _ => rfl⟩
  · exact .setPort ⟨rfl, fun _ => rfl⟩

/-- A port whose candidate has trained. -/
def Port.linked (l r : Nat) (fec : Bool) (now : Nat) (x : Port) : Port :=
  { x with step := .none, rate := r, lanes := l, fec := fec, capErr := false, pollAt := now,
           state := if x.state = .draining then .draining else .idle }

theorem Dev.trained_eq (n l r : Nat) (d : Dev) : d.trained n l r =
    let x := (d.port n).linked l r (decide (4 ≤ r) || d.flg .dpt n DPT_DSC 30) d.now
    (((d.setPort n x).when (x.state = .idle) (Dev.recovered n)).auxFree n).relinkProgress (d.portCanvas n) := rfl

/-- A candidate that trains is the link. -/
theorem Dev.trained_spec (n l r : Nat) (d : Dev) (hst : (d.port n).state = .training) : ((d.trained n l r).port n).state = .idle ∧
    ((d.trained n l r).port n).step = .none ∧ ((d.trained n l r).port n).lanes = l ∧ ((d.trained n l r).port n).rate = r ∧
    ((d.trained n l r).port n).capErr = false := by
  rw [Dev.trained_eq]
  dsimp only
  obtain ⟨x, hx, h₁, h₂, h₃, h₄, h₅⟩ : ∃ x, (d.port n).linked l r (decide (4 ≤ r) || d.flg .dpt n DPT_DSC 30) d.now = x ∧ x.state = .idle ∧
    x.step = .none ∧ x.lanes = l ∧ x.rate = r ∧ x.capErr = false := ⟨_, rfl, by rw [Port.linked, hst]; rfl, rfl, rfl, rfl, rfl⟩
  rw [hx]
  have hset := Dev.port_setPort n x d
  generalize d.setPort n x = e at *
  have hrec : e.Paired (e.when (x.state = .idle) (Dev.recovered n)) := by
    unfold Dev.when
    split
    · exact e.recovered_paired n
    · exact .refl e
  generalize e.when _ (Dev.recovered n) = f at *
  have hp := (hrec.trans ((f.auxFree_paired n).trans (Dev.relinkProgress_paired (d.portCanvas n) _))).port n
  obtain ⟨-, -, -, -, -, -, hstep, hlanes, hrate, hcap, -⟩ := Port.paired_fields hp
  have hst' := hp.2 (by rw [hset, h₁]; decide)
  rw [hset] at hstep hlanes hrate hcap hst'
  exact ⟨hst'.trans h₁, hstep.trans h₂, hlanes.trans h₃, hrate.trans h₄, hcap.trans h₅⟩

theorem trainingCandidateDone_trained {n : PortNo} {l r : Nat} {rest : List (Nat × Nat)} {s : State}
    (hs : (s.dev.port n).step = .candidate l r rest) (hst : (s.dev.port n).state = .training) :
    ∃ u, exec (.trainingCandidateDone n true) s = .next u ∧ (u.dev.port n).state = .idle ∧ (u.dev.port n).step = .none ∧
      (u.dev.port n).lanes = l ∧ (u.dev.port n).rate = r ∧ (u.dev.port n).capErr = false := by
  have he : exec (.trainingCandidateDone n true) s = .next ⟨s.dev.trained n l r, s.pending⟩ := by
    show execTrainingCandidateDone n true s = _
    rw [execTrainingCandidateDone, State.dev!_next, hs]
    rfl
  exact ⟨_, he, s.dev.trained_spec n l r hst⟩

theorem trainingCandidateDone_next {n : PortNo} {l r l' r' : Nat} {rest rest' : List (Nat × Nat)} {s : State}
    (hs : (s.dev.port n).step = .candidate l r rest) (hr : rest = (l', r') :: rest') :
    ∃ u, exec (.trainingCandidateDone n false) s = .next u ∧ u.dev.port n = { s.dev.port n with step := .candidate l' r' rest' } ∧
      s.dev.onlyChanges u.dev [.ports] := by
  have he : exec (.trainingCandidateDone n false) s = .next ⟨s.dev.setPort n { s.dev.port n with step := .candidate l' r' rest' }, s.pending⟩ := by
    show execTrainingCandidateDone n false s = _
    rw [execTrainingCandidateDone, State.dev!_next, hs, hr]
    rfl
  exact ⟨_, he, Dev.port_setPort .., by simp [Dev.onlyChanges_iff]⟩

theorem trainingCandidateDone_failed {n : PortNo} {l r : Nat} {rest : List (Nat × Nat)} {s : State}
    (hs : (s.dev.port n).step = .candidate l r rest) (hst : (s.dev.port n).state = .training) (hr : rest = []) :
    ∃ u, exec (.trainingCandidateDone n false) s = .next u ∧ (u.dev.port n).fails = min 255 ((s.dev.port n).fails + 1) ∧
      (if (s.dev.port n).attempts < s.dev.fld .dpt n DPT_LINK 5 3 then (u.dev.port n).state = .training ∧
        (u.dev.port n).step = .retryWait s.dev.now ∧ (u.dev.port n).attempts = (s.dev.port n).attempts + 1
       else (u.dev.port n).state = (if (s.dev.port n).statusDue then .training else .linkLost) ∧
        ∃ f, f ∈ u.dev.flt.arrivals ∧ f.src = 385 ∧ f.inst = n.val) := by
  have he : exec (.trainingCandidateDone n false) s = .next ⟨s.dev.attemptFailed n false, s.pending⟩ := by
    show execTrainingCandidateDone n false s = _
    rw [execTrainingCandidateDone, State.dev!_next, hs, hr]
    rfl
  refine ⟨_, he, ?_⟩
  dsimp only
  obtain ⟨hfails, -, hagain, hlost⟩ := s.dev.attemptFailed_spec n false
  refine ⟨hfails, ?_⟩
  by_cases ha : (s.dev.port n).attempts < s.dev.fld .dpt n DPT_LINK 5 3
  · rw [if_pos ha]; exact hagain hst ha
  · rw [if_neg ha]; exact hlost hst ha

theorem trainingRetry_spec {n : PortNo} {t : Nat} {caps : SinkCaps} {l r : Nat} {rest : List (Nat × Nat)} {s : State}
    (hs : (s.dev.port n).step = .retryWait t) (hd : t + 10000000 ≤ s.dev.now) (hk : (s.dev.port n).caps = some caps)
    (hc : s.dev.candidates n caps = (l, r) :: rest) :
    ∃ u, exec (.trainingRetry n) s = .next u ∧ u.dev.port n = { s.dev.port n with step := .candidate l r rest } := by
  have he : exec (.trainingRetry n) s = .next ⟨s.dev.setPort n { s.dev.port n with step := .candidate l r rest }, s.pending⟩ := by
    show execTrainingRetry n s = _
    rw [execTrainingRetry, State.dev!_next, hs]
    dsimp only
    rw [show decide (t + 10000000 ≤ s.dev.now) = true by simp [hd], Dev.when_true, Dev.beginAttempt_some hk hc]
  exact ⟨_, he, Dev.port_setPort ..⟩

/-! ## O41: supervision -/

theorem linkStatusRead_spec {n : PortNo} {loss : Bool} {s : State} (hdue : (s.dev.port n).statusDue = true)
    (hst : (s.dev.port n).state = .idle ∨ (s.dev.port n).state = .active) :
    ∃ u, exec (.linkStatusRead n loss) s = .next u ∧ (u.dev.port n).statusDue = false ∧
      (u.dev.port n).state = (if loss = true ∧ (s.dev.port n).state = .idle then .training else (s.dev.port n).state) ∧
      (loss = true → (s.dev.port n).state = .active → (u.dev.port n).relinkAt = true) ∧
      ∀ k, k ≠ n.val → u.dev.port k = s.dev.port k := by
  obtain ⟨d, hdue', hst', hne, he⟩ : ∃ d : Dev, (d.port n).statusDue = false ∧ (d.port n).state = (s.dev.port n).state ∧
      (∀ k, k ≠ n.val → d.port k = s.dev.port k) ∧
      exec (.linkStatusRead n loss) s = .next ⟨if loss then d.retrainPort n else d, s.pending⟩ := by
    refine ⟨(s.dev.setPort n { s.dev.port n with statusDue := false, pollAt := s.dev.now }).auxFree n, ?_, ?_, fun k hk => ?_, ?_⟩
    · rw [Dev.auxFree, Dev.port_setPort, Dev.port_setPort]
    · rw [Dev.auxFree, Dev.port_setPort, Dev.port_setPort]
    · exact (Dev.port_setPort_ne _ _ hk).trans (Dev.port_setPort_ne _ _ hk)
    · show execLinkStatusRead n loss s = _
      rw [execLinkStatusRead, State.dev!_next]
      dsimp only
      rw [show ((s.dev.port n).statusDue && (decide ((s.dev.port n).state = .idle) || decide ((s.dev.port n).state = .active))) = true by
        simp [hdue, hst], Dev.when_true]
  refine ⟨_, he, ?_⟩
  dsimp only
  cases loss with
  | false => exact ⟨hdue', by simpa using hst', nofun, hne⟩
  | true =>
    rw [if_pos rfl]
    unfold Dev.retrainPort
    dsimp only
    rcases hst with h | h
    · rw [hst', h]
      dsimp only
      rw [Dev.startTraining_port]
      exact ⟨hdue', by simp [Port.training], fun _ h => absurd h (by decide), fun k hk => ((Dev.startTraining_step n d).others k hk).trans (hne k hk)⟩
    · rw [hst', h]
      dsimp only
      rw [Dev.port_setPort]
      exact ⟨hdue', by simp, fun _ _ => rfl, fun k hk => (Dev.port_setPort_ne _ _ hk).trans (hne k hk)⟩

theorem standbyStatusPoll_spec {n : PortNo} {s : State} (hc : s.dev.coldPair n = true) (hsb : (s.dev.port n).standby = true)
    (hst : (s.dev.port n).state = .idle) (hd : (s.dev.port n).pollAt + 100000000 ≤ s.dev.now) :
    ∃ u, exec (.standbyStatusPoll n) s = .next u ∧ u.dev.port n = { s.dev.port n with statusDue := true, pollAt := s.dev.now } ∧
      s.dev.onlyChanges u.dev [.ports] := by
  have he : exec (.standbyStatusPoll n) s = .next ⟨s.dev.setPort n { s.dev.port n with statusDue := true, pollAt := s.dev.now }, s.pending⟩ := by
    show execStandbyStatusPoll n s = _
    rw [execStandbyStatusPoll, State.dev!_next]
    dsimp only
    rw [show (s.dev.coldPair n && (s.dev.port n).standby && decide ((s.dev.port n).state = .idle) &&
      decide ((s.dev.port n).pollAt + 100000000 ≤ s.dev.now)) = true by simp [hc, hsb, hst, hd], Dev.when_true]
  exact ⟨_, he, Dev.port_setPort .., by simp [Dev.onlyChanges_iff]⟩

/-- Whether a powered quad of a port shows a fault at time `now`. -/
def Port.bad (x : Port) (now : Nat) : Bool := x.powered && (x.pllBad || x.laneBad != 0 || x.slipAt.any fun t => decide (now < t + 1000000))

theorem exec_portQuadFault {n : PortNo} {k : QuadFault} {s : State} (hp : (s.dev.port n).powered = true) :
    exec (.portQuadFault n k) s = .next ⟨
      if (s.dev.port n).bad s.dev.now ∨ ¬ ((s.dev.port n).monitor s.dev.now k).bad s.dev.now then s.dev.setPort n ((s.dev.port n).monitor s.dev.now k)
      else
        let e := (s.dev.setPort n ((s.dev.port n).monitor s.dev.now k)).fire 384 n
          (dbits 0 ((s.dev.setPort n ((s.dev.port n).monitor s.dev.now k)).txmon n).toNat)
        if s.dev.fences 384 then e.fencePort n else e, s.pending⟩ := by
  show execPortQuadFault n k s = _
  rw [execPortQuadFault, State.dev!_next, hp, Dev.when_true]
  have hafter : (s.dev.setPort n ((s.dev.port n).monitor s.dev.now k)).quadBad n = ((s.dev.port n).monitor s.dev.now k).bad s.dev.now := by
    unfold Dev.quadBad
    rw [Dev.port_setPort]
    rfl
  dsimp only
  rw [hafter]
  rfl

/-- A condition that ends leaves a quad no worse. -/
theorem Port.monitor_clear_bad {x : Port} {now : Nat} {k : QuadFault} (h : k = .pllLock ∨ ∃ l, k = .laneRight l)
    (hb : x.bad now = false) : (x.monitor now k).bad now = false := by
  unfold Port.bad at hb
  rcases h with rfl | ⟨l, rfl⟩
  · show (x.powered && (false || x.laneBad != 0 || x.slipAt.any fun t => decide (now < t + 1000000))) = false
    revert hb
    cases x.powered <;> cases x.pllBad <;> simp
  · show (x.powered && (x.pllBad || (x.laneBad &&& ~~~((1 : BitVec 4) <<< l.val)) != 0 || x.slipAt.any fun t => decide (now < t + 1000000))) = false
    by_cases hz : x.laneBad = 0
    · rw [hz] at hb ⊢
      rw [show (0 : BitVec 4) &&& ~~~((1 : BitVec 4) <<< l.val) = 0 from BitVec.zero_and]
      exact hb
    · rw [bne_iff_ne.mpr hz, Bool.or_true, Bool.true_or, Bool.and_true] at hb
      rw [hb, Bool.false_and]

/-- A condition that begins shows on a powered quad. -/
theorem Port.monitor_set_bad {x : Port} {now : Nat} {k : QuadFault} (h : k = .pllUnlock ∨ (∃ l, k = .laneCurrent l) ∨ k = .fifoSlip)
    (hp : x.powered = true) : (x.monitor now k).bad now = true := by
  have hpow : (x.monitor now k).powered = true := by rcases h with rfl | ⟨l, rfl⟩ | rfl <;> exact hp
  unfold Port.bad
  rw [hpow, Bool.true_and]
  rcases h with rfl | ⟨l, rfl⟩ | rfl
  · simp [Port.monitor]
  · have hne : x.laneBad ||| (1 : BitVec 4) <<< l.val ≠ 0 := by
      intro h
      have hbit := congrArg (·.getLsbD l.val) h
      simp [l.isLt] at hbit
    show (x.pllBad || (x.laneBad ||| (1 : BitVec 4) <<< l.val) != 0 || x.slipAt.any fun t => decide (now < t + 1000000)) = true
    rw [bne_iff_ne.mpr hne, Bool.or_true, Bool.true_or]
  · have hslip : (x.monitor now .fifoSlip).slipAt = some now := rfl
    have hlt : now < now + 1000000 := by omega
    rw [hslip, Option.any_some, decide_eq_true hlt, Bool.or_true]

theorem portQuadFault_ends {n : PortNo} {k : QuadFault} {s : State} (hp : (s.dev.port n).powered = true) (hk : k = .pllLock ∨ ∃ l, k = .laneRight l) :
    ∃ u, exec (.portQuadFault n k) s = .next u ∧ s.dev.onlyChanges u.dev [.ports] ∧
      (k = .pllLock → u.dev.port n = { s.dev.port n with pllBad := false }) ∧
      (∀ l, k = .laneRight l → u.dev.port n = { s.dev.port n with laneBad := (s.dev.port n).laneBad &&& ~~~((1 : BitVec 4) <<< l.val) }) := by
  have hquiet : (s.dev.port n).bad s.dev.now ∨ ¬ ((s.dev.port n).monitor s.dev.now k).bad s.dev.now := by
    cases hb : (s.dev.port n).bad s.dev.now with
    | true => exact .inl rfl
    | false => exact .inr (by rw [Port.monitor_clear_bad hk hb]; decide)
  refine ⟨_, exec_portQuadFault hp, ?_⟩
  dsimp only
  rw [if_pos hquiet, Dev.port_setPort]
  exact ⟨by simp [Dev.onlyChanges_iff], fun h => by rw [h]; rfl, fun l h => by rw [h]; rfl⟩

theorem Dev.fencePort_spec (n : Nat) (d : Dev) : ((d.fencePort n).port n).fenced = true ∧
    ((d.fencePort n).port n).state = (if (d.port n).state = .draining then .draining else .fenced) ∧
    ∀ f ∈ d.flt.arrivals, f ∈ (d.fencePort n).flt.arrivals := by
  unfold Dev.fencePort
  dsimp only
  obtain ⟨y, hy, hf, hst⟩ : ∃ y : Port, y = { (d.port n).unpower with
      fenced := true, step := .none, relinkAt := false, finishing := none, statusDue := false,
      state := if (d.port n).state = .draining then .draining else .fenced } ∧ y.fenced = true ∧
      y.state = (if (d.port n).state = .draining then .draining else .fenced) := ⟨_, rfl, rfl, rfl⟩
  rw [← hy]
  have hset := Dev.port_setPort n y d
  have harr : (d.setPort n y).flt = d.flt := rfl
  generalize d.setPort n y = e at *
  have htrig : e.Paired (e.when ((d.port n).state ≠ .draining) (Dev.trigger n 1)) ∧
      ∀ f ∈ e.flt.arrivals, f ∈ (e.when ((d.port n).state ≠ .draining) (Dev.trigger n 1)).flt.arrivals := by
    unfold Dev.when
    split
    · exact ⟨e.trigger_paired n 1, e.trigger_arrivals n 1⟩
    · exact ⟨.refl e, fun _ h => h⟩
  generalize e.when _ (Dev.trigger n 1) = z at *
  obtain ⟨hpair, hkept⟩ := htrig
  have hp := (hpair.trans ((z.auxFree_paired n).trans (Dev.relinkProgress_paired (d.portCanvas n) _))).port n
  obtain ⟨-, -, hfen, -⟩ := Port.paired_fields hp
  have hst' := hp.2 (by rw [hset, hst]; split <;> decide)
  rw [hset] at hfen hst'
  refine ⟨hfen.trans hf, hst'.trans hst, fun f h => ?_⟩
  rw [show ((z.auxFree n).relinkProgress (d.portCanvas n)).flt = z.flt by simp]
  exact hkept f (by rw [harr]; exact h)

theorem portQuadFault_begins {n : PortNo} {k : QuadFault} {s : State} (hp : (s.dev.port n).powered = true) (hb : s.dev.quadBad n = false)
    (hk : k = .pllUnlock ∨ (∃ l, k = .laneCurrent l) ∨ k = .fifoSlip) :
    ∃ u, exec (.portQuadFault n k) s = .next u ∧ (∃ f, f ∈ u.dev.flt.arrivals ∧ f.src = 384 ∧ f.inst = n.val) ∧
      (if s.dev.fences 384 then (u.dev.port n).fenced = true ∧
        (u.dev.port n).state = (if (s.dev.port n).state = .draining then .draining else .fenced)
       else (u.dev.port n).state = (s.dev.port n).state ∧ (u.dev.port n).fenced = (s.dev.port n).fenced ∧
         (k = .pllUnlock → (u.dev.port n).pllBad = true)) := by
  have hloud : ¬ ((s.dev.port n).bad s.dev.now ∨ ¬ ((s.dev.port n).monitor s.dev.now k).bad s.dev.now) := by
    rw [Port.monitor_set_bad hk hp, show (s.dev.port n).bad s.dev.now = false from hb]
    decide
  obtain ⟨e, hport, harr, he⟩ : ∃ e : Dev, e.port n = (s.dev.port n).monitor s.dev.now k ∧ (∃ f ∈ e.flt.arrivals, f.src = 384 ∧ f.inst = n.val) ∧
      exec (.portQuadFault n k) s = .next ⟨if s.dev.fences 384 then e.fencePort n else e, s.pending⟩ := by
    refine ⟨_, ?_, ?_, (exec_portQuadFault hp).trans (by rw [if_neg hloud])⟩
    · rw [Dev.fire_port, Dev.port_setPort]
    · exact ⟨_, List.mem_append_right _ (List.mem_singleton_self _), rfl, rfl⟩
  have hst : ((s.dev.port n).monitor s.dev.now k).state = (s.dev.port n).state ∧
      ((s.dev.port n).monitor s.dev.now k).fenced = (s.dev.port n).fenced := by
    rcases hk with rfl | ⟨l, rfl⟩ | rfl <;> exact ⟨rfl, rfl⟩
  refine ⟨_, he, ?_⟩
  dsimp only
  by_cases hfen : s.dev.fences 384 = true
  · rw [if_pos hfen, if_pos hfen]
    obtain ⟨h₁, h₂, h₃⟩ := e.fencePort_spec n
    obtain ⟨f, hf, hsrc⟩ := harr
    rw [hport, hst.1] at h₂
    exact ⟨⟨f, h₃ f hf, hsrc⟩, h₁, h₂⟩
  · rw [if_neg hfen, if_neg hfen, hport]
    obtain ⟨f, hf, hsrc⟩ := harr
    exact ⟨⟨f, hf, hsrc⟩, hst.1, hst.2, fun h => by rw [h]; rfl⟩

/-- Settles O41: the candidates of a training, its failures, and the supervision of link and quad. -/
theorem linksTrainAndFail : Obligations.LinksTrainAndFail := by
  unfold Obligations.LinksTrainAndFail
  rintro n x s rfl
  exact ⟨fun caps l r rest => sinkCapabilitiesRead_some, fun caps => sinkCapabilitiesRead_none,
    fun l r rest hs hst => ⟨trainingCandidateDone_trained hs hst, fun l' r' rest' => trainingCandidateDone_next hs, trainingCandidateDone_failed hs hst⟩,
    fun t caps l r rest => trainingRetry_spec, fun loss => linkStatusRead_spec, standbyStatusPoll_spec,
    fun k => portQuadFault_ends, fun k => portQuadFault_begins⟩

/-! ## O42: AUX -/

theorem Dev.regWrite_auxCmd {d : Dev} {m : Fn} {n : PortNo} {w : Word} (h : d.mayWriteReg m .dpt n DPT_AUX_CMD) :
    d.regWrite m .dpt n DPT_AUX_CMD (w ||| flag 31 true) =
      (d.setReg .dpt n DPT_AUX_CMD (w &&& 0x0FFFFFFF)).auxGo n (w &&& 0x0FFFFFFF) := by
  have hmask (a l : Bool) : RegDesc.takenMask ⟨0x060, 0, false, [⟨31, 31, .wo, .any⟩, ⟨27, 24, .rw, .any⟩, ⟨23, 20, .rw, .any⟩, ⟨19, 0, .rw, .any⟩]⟩
      a l false (w ||| flag 31 true) = 0x8FFFFFFF := by
    cases a <;> cases l <;> simp [RegDesc.takenMask, FieldDesc.takes, Legal.ok, AccCode.keyed, AccCode.locked] <;> rfl
  obtain ⟨x, -, ht, hi, ho, -, hw, hm, -, hnew, e⟩ := Dev.regWrite_reg (w := w ||| flag 31 true) (by simp [PType.count]) (by decide) h rfl
    (by decide) rfl (by simp [Dev.accepts]) (hmask _ _) (by decide) rfl
  have hn : x.new = w &&& 0x0FFFFFFF := by
    rw [hnew, show RegDesc.storedMask _ = 0x0FFFFFFF from rfl]
    apply BitVec.eq_of_getLsbD_eq
    intro k hk
    interval_cases k <;> simp [flag]
  have h31 : x.on 31 = true := by rw [RegWrite.on, hw, hm, bit_and, bit_or]; simp [bit, flag]
  rw [e]
  unfold RegWrite.effect RegWrite.store RegWrite.dpt
  simp only [ht, ho, hi, hn, h31]
  rfl

theorem bits_and_low (w : Word) : bits (w &&& 0x0FFFFFFF) 27 0 = bits w 27 0 := by
  unfold bits
  simp only [BitVec.toNat_and, Nat.shiftRight_zero]
  have hmask : (0x0FFFFFFF : Word).toNat = 2 ^ 28 - 1 := by decide
  rw [hmask, Nat.and_two_pow_sub_one_eq_mod]
  omega

theorem exec_dptAuxGo {m : Fn} {n : PortNo} {cmd : Word} {s : State} (h : s.dev.mayWriteReg m .dpt n DPT_AUX_CMD) :
    exec (.dptAuxGo m n cmd) s = .next ⟨(s.dev.setReg .dpt n DPT_AUX_CMD (cmd &&& 0x0FFFFFFF)).auxGo n (cmd &&& 0x0FFFFFFF), s.pending⟩ := by
  show s.dev! (Dev.regWrite m .dpt n DPT_AUX_CMD (cmd ||| flag 31 true)) = _
  rw [State.dev!_next, Dev.regWrite_auxCmd h]

theorem dptAuxGo_idle {m : Fn} {n : PortNo} {cmd : Word} {s : State} (h : s.dev.mayWriteReg m .dpt n DPT_AUX_CMD)
    (hb : (s.dev.port n).aux.busy = false) :
    ∃ u, exec (.dptAuxGo m n cmd) s = .next u ∧ u.dev.reg .dpt n DPT_AUX_CMD = cmd &&& 0x0FFFFFFF ∧
      (u.dev.port n).aux.busy = true ∧ (u.dev.port n).aux.done = false ∧ (u.dev.port n).aux.since = s.dev.now ∧
      (u.dev.port n).aux.defers = 0 ∧ bits (u.dev.port n).aux.cmd 27 0 = bits cmd 27 0 ∧
      (∀ k, k ≠ n.val → u.dev.port k = s.dev.port k) ∧ s.dev.onlyChanges u.dev [.regs, .ports] := by
  refine ⟨_, exec_dptAuxGo h, ?_⟩
  dsimp only
  unfold Dev.auxGo
  dsimp only
  rw [Dev.setReg_port, if_neg (by rw [hb]; decide), Dev.port_setPort]
  exact ⟨Dev.reg_setReg .., rfl, rfl, rfl, rfl, bits_and_low cmd, fun k hk => Dev.port_setPort_ne _ _ hk, by simp [Dev.onlyChanges_iff]⟩

theorem dptAuxGo_busy {m : Fn} {n : PortNo} {cmd : Word} {s : State} (h : s.dev.mayWriteReg m .dpt n DPT_AUX_CMD)
    (hb : (s.dev.port n).aux.busy = true) :
    ∃ u, exec (.dptAuxGo m n cmd) s = .next u ∧ u.dev.reg .dpt n DPT_AUX_CMD = cmd &&& 0x0FFFFFFF ∧
      s.dev.onlyChanges u.dev [.regs] := by
  refine ⟨_, exec_dptAuxGo h, ?_⟩
  dsimp only
  unfold Dev.auxGo
  dsimp only
  rw [Dev.setReg_port, if_pos hb]
  exact ⟨Dev.reg_setReg .., by simp [Dev.onlyChanges_iff]⟩

theorem auxReply_none {n : PortNo} {a : AuxAnswer} {s : State} (h : (s.dev.port n).aux.busy = false ∨ (s.dev.port n).ownsAux = true) :
    exec (.auxReply n a) s = .next s := by
  show execAuxReply n a s = _
  rw [execAuxReply, State.dev!_next]
  dsimp only
  rw [show ((s.dev.port n).aux.busy && !(s.dev.port n).ownsAux) = false by rcases h with h | h <;> simp [h], Dev.when_false]

theorem auxTimeout_none {n : PortNo} {s : State} (h : (s.dev.port n).aux.busy = false ∨ (s.dev.port n).ownsAux = true) :
    exec (.auxTimeout n) s = .next s := by
  show execAuxTimeout n s = _
  rw [execAuxTimeout, State.dev!_next]
  dsimp only
  rw [show ((s.dev.port n).aux.busy && !(s.dev.port n).ownsAux && decide ((s.dev.port n).aux.since + 3200000 ≤ s.dev.now)) = false by
    rcases h with h | h <;> simp [h], Dev.when_false]

section
variable {n : PortNo} {s : State} (hb : (s.dev.port n).aux.busy = true) (ho : (s.dev.port n).ownsAux = false)
include hb ho

theorem auxReply_busy : ((s.dev.port n).aux.busy && !(s.dev.port n).ownsAux) = true := by simp [hb, ho]

theorem auxReply_nack : ∃ u, exec (.auxReply n .nack) s = .next u ∧ s.dev.onlyChanges u.dev [.ports] ∧
    u.dev.port n = { s.dev.port n with aux := { (s.dev.port n).aux with busy := false, done := true, reply := 1, count := 0 } } := by
  have he : exec (.auxReply n .nack) s = .next ⟨s.dev.auxEnd n 1 0, s.pending⟩ := by
    show execAuxReply n .nack s = _
    rw [execAuxReply, State.dev!_next]
    dsimp only
    rw [auxReply_busy hb ho, Dev.when_true]
  refine ⟨_, he, ?_⟩
  dsimp only
  exact ⟨by simp [Dev.onlyChanges_iff], Dev.port_setPort ..⟩

theorem auxReply_defer : ∃ u, exec (.auxReply n .defer) s = .next u ∧ s.dev.onlyChanges u.dev [.ports] ∧
    (u.dev.port n).aux = (if (s.dev.port n).aux.defers < 7 then
      { (s.dev.port n).aux with defers := (s.dev.port n).aux.defers + 1, since := s.dev.now }
      else { (s.dev.port n).aux with busy := false, done := true, reply := 2, count := 0 }) := by
  have he : exec (.auxReply n .defer) s = .next ⟨if (s.dev.port n).aux.defers < 7 then
      s.dev.setPort n { s.dev.port n with aux := { (s.dev.port n).aux with defers := (s.dev.port n).aux.defers + 1, since := s.dev.now } }
      else s.dev.auxEnd n 2 0, s.pending⟩ := by
    show execAuxReply n .defer s = _
    rw [execAuxReply, State.dev!_next]
    dsimp only
    rw [auxReply_busy hb ho, Dev.when_true]
  refine ⟨_, he, ?_⟩
  dsimp only
  by_cases hd : (s.dev.port n).aux.defers < 7
  · rw [if_pos hd, if_pos hd]
    exact ⟨by simp [Dev.onlyChanges_iff], by rw [Dev.port_setPort]⟩
  · rw [if_neg hd, if_neg hd]
    exact ⟨by simp [Dev.onlyChanges_iff], by rw [Dev.auxEnd, Dev.port_setPort]⟩

theorem auxTimeout_spec (hd : (s.dev.port n).aux.since + 3200000 ≤ s.dev.now) :
    ∃ u, exec (.auxTimeout n) s = .next u ∧ s.dev.onlyChanges u.dev [.ports] ∧
      u.dev.port n = { s.dev.port n with aux := { (s.dev.port n).aux with busy := false, done := true, reply := 3, count := 0 } } := by
  have he : exec (.auxTimeout n) s = .next ⟨s.dev.auxEnd n 3 0, s.pending⟩ := by
    show execAuxTimeout n s = _
    rw [execAuxTimeout, State.dev!_next]
    dsimp only
    rw [auxReply_busy hb ho, Bool.true_and, decide_eq_true hd, Dev.when_true]
  refine ⟨_, he, ?_⟩
  dsimp only
  exact ⟨by simp [Dev.onlyChanges_iff], Dev.port_setPort ..⟩

end

theorem leNat_lt (l : List Byte) : leNat l < 256 ^ l.length := by
  induction l with
  | nil => simp [leNat]
  | cons b l ih =>
    rw [leNat, List.length_cons, Nat.pow_succ]
    have := b.isLt
    omega

/-- The bytes of a list's value are the list. -/
theorem leBytes_leNat (l : List Byte) : leBytes l.length (leNat l) = l := by
  induction l with
  | nil => rfl
  | cons b l ih =>
    have hb := b.isLt
    rw [List.length_cons, leBytes, leNat, show (b.toNat + 256 * leNat l) / 256 = leNat l by omega, ih]
    congr 1
    apply BitVec.eq_of_toNat_eq
    rw [BitVec.toNat_ofNat]
    omega

/-- The word that `part` leaves in a register that reads `w`. -/
def auxWord (part : List Byte) (w : Word) : Word :=
  if part.isEmpty then w else BitVec.ofNat 32 (leNat (part ++ (leBytes 4 w.toNat).drop part.length))

theorem leBytes_length (n v : Nat) : (leBytes n v).length = n := by
  induction n generalizing v with
  | zero => rfl
  | succ n ih => rw [leBytes, List.length_cons, ih]

theorem auxWord_byte {part : List Byte} {w : Word} {j : Nat} (hp : part.length ≤ 4) (hj : j < part.length) :
    (leBytes 4 (auxWord part w).toNat)[j]? = some part[j] := by
  have hne : part.isEmpty = false := by cases part <;> simp_all
  have hlen : (part ++ (leBytes 4 w.toNat).drop part.length).length = 4 := by
    rw [List.length_append, List.length_drop, leBytes_length]; omega
  have hlt := leNat_lt (part ++ (leBytes 4 w.toNat).drop part.length)
  rw [hlen] at hlt
  have hval : (auxWord part w).toNat = leNat (part ++ (leBytes 4 w.toNat).drop part.length) := by
    rw [auxWord, hne, if_neg (by decide), BitVec.toNat_ofNat]
    omega
  have hbytes := leBytes_leNat (part ++ (leBytes 4 w.toNat).drop part.length)
  rw [hlen] at hbytes
  rw [hval, hbytes, List.getElem?_append_left hj, List.getElem?_eq_getElem hj]

theorem Dev.auxBytes_reg {n m : Nat} (hm : m < 4) (bs : List Byte) (d : Dev) : (d.auxBytes n bs).reg .dpt n (DPT_AUX_DATA + 4 * m) =
    auxWord ((bs.drop (4 * m)).take 4) (d.reg .dpt n (DPT_AUX_DATA + 4 * m)) := by
  have hself (d : Dev) (m : Nat) : (if ((bs.drop (4 * m)).take 4).isEmpty then d else d.setReg .dpt n (DPT_AUX_DATA + 4 * m)
      (BitVec.ofNat 32 (leNat ((bs.drop (4 * m)).take 4 ++ (leBytes 4 (d.reg .dpt n (DPT_AUX_DATA + 4 * m)).toNat).drop
        ((bs.drop (4 * m)).take 4).length)))).reg .dpt n (DPT_AUX_DATA + 4 * m) =
      auxWord ((bs.drop (4 * m)).take 4) (d.reg .dpt n (DPT_AUX_DATA + 4 * m)) := by
    unfold auxWord
    split
    · rfl
    · rw [Dev.reg_setReg]
  have hne (d : Dev) (m j : Nat) (hj : j ≠ m) : (if ((bs.drop (4 * m)).take 4).isEmpty then d else d.setReg .dpt n (DPT_AUX_DATA + 4 * m)
      (BitVec.ofNat 32 (leNat ((bs.drop (4 * m)).take 4 ++ (leBytes 4 (d.reg .dpt n (DPT_AUX_DATA + 4 * m)).toNat).drop
        ((bs.drop (4 * m)).take 4).length)))).reg .dpt n (DPT_AUX_DATA + 4 * j) = d.reg .dpt n (DPT_AUX_DATA + 4 * j) := by
    split
    · rfl
    · rw [Dev.reg_setReg_ne]
      simp only [regAt]
      omega
  obtain ⟨hin, -⟩ := foldl_each (get := fun d m => Dev.reg d .dpt n (DPT_AUX_DATA + 4 * m)) (idx := id)
    (F := fun m w => auxWord ((bs.drop (4 * m)).take 4) w) hself hne (by rw [List.map_id]; exact List.nodup_range (n := 4)) d
  exact hin m (List.mem_range.mpr hm)

theorem auxReply_ack {n : PortNo} {s : State} (hb : (s.dev.port n).aux.busy = true) (ho : (s.dev.port n).ownsAux = false) (bytes : List Byte) :
    ∃ u, exec (.auxReply n (.ack bytes)) s = .next u ∧ (u.dev.port n).aux.busy = false ∧
      (u.dev.port n).aux.done = true ∧ (u.dev.port n).aux.reply = 0 ∧
      (u.dev.port n).aux.count = (if bit (s.dev.port n).aux.cmd 24 then min 16 bytes.length
        else bits (s.dev.port n).aux.cmd 23 20 + 1) ∧
      ∀ j (h : j < bytes.length), j < 16 → bit (s.dev.port n).aux.cmd 24 = true →
        (leBytes 4 (u.dev.reg .dpt n (DPT_AUX_DATA + 4 * (j / 4))).toNat)[j % 4]? = some bytes[j] := by
  have he : exec (.auxReply n (.ack bytes)) s = .next ⟨if bit (s.dev.port n).aux.cmd 24 then
      (s.dev.auxBytes n (bytes.take 16)).auxEnd n 0 (bytes.take 16).length else s.dev.auxEnd n 0 (bits (s.dev.port n).aux.cmd 23 20 + 1), s.pending⟩ := by
    show execAuxReply n (.ack bytes) s = _
    rw [execAuxReply, State.dev!_next]
    dsimp only
    rw [auxReply_busy hb ho, Dev.when_true]
  refine ⟨_, he, ?_⟩
  dsimp only
  cases hr : bit (s.dev.port n).aux.cmd 24 with
  | false =>
    rw [if_neg (by decide), if_neg (by decide), Dev.auxEnd, Dev.port_setPort]
    exact ⟨rfl, rfl, rfl, rfl, fun _ _ _ h => absurd h (by decide)⟩
  | true =>
    rw [if_pos rfl, if_pos rfl, Dev.auxEnd, Dev.port_setPort]
    refine ⟨rfl, rfl, rfl, List.length_take .., fun j hj h16 _ => ?_⟩
    rw [Dev.setPort_reg, Dev.auxBytes_reg (by omega)]
    have hpart : (((bytes.take 16).drop (4 * (j / 4))).take 4).length ≤ 4 := List.length_take_le ..
    have hlt : j % 4 < (((bytes.take 16).drop (4 * (j / 4))).take 4).length := by
      rw [List.length_take, List.length_drop, List.length_take]
      omega
    rw [auxWord_byte hpart hlt]
    congr 1
    rw [List.getElem_take, List.getElem_drop, List.getElem_take]
    congr 1
    omega

/-- Settles O42: the start, each kind of reply, and the timeout. -/
theorem auxTransactionsRunToAReply : Obligations.AuxTransactionsRunToAReply := by
  unfold Obligations.AuxTransactionsRunToAReply
  rintro n x s rfl
  exact ⟨fun m cmd => dptAuxGo_idle, fun m cmd => dptAuxGo_busy, fun h => ⟨fun a => auxReply_none h, auxTimeout_none h⟩,
    fun hb ho => ⟨auxReply_ack hb ho, auxReply_nack hb ho, auxReply_defer hb ho, auxTimeout_spec hb ho⟩⟩

end Sys2Proof.Machine
end

section
/-!
PROOF of O44 and O46: DMA channels are enabled, started, drained and released, and DMA timers count their periods.
-/
namespace Sys2Proof.Machine
set_option Elab.async false

/-! ## No step of a queue makes an entry wait for a unit -/

theorem FMap.mem_put {α : Type} [DecidableEq α] {f : Nat → α} {l : FMap α} {k : Nat} {v : α} {e : Nat × α} (h : e ∈ FMap.put f l k v) :
    e = (k, v) ∨ e ∈ l := by
  unfold FMap.put at h
  split at h
  · exact .inr (List.mem_filter.mp h).1
  · exact (FMap.mem_insert h).imp_right fun h => (List.mem_filter.mp h).1

/-- Each queue of `e` that holds an entry for a unit holds it in `d`. -/
structure Dev.HoldsFrom (d e : Dev) : Prop where
  held : ∀ p ∈ e.queues, p.2.pause = some .unit → ∃ o ∈ d.queues, o.1 = p.1 ∧ o.2.pause = some .unit ∧ o.2.heldWords = p.2.heldWords

theorem Dev.HoldsFrom.refl (d : Dev) : d.HoldsFrom d := ⟨fun p hp h => ⟨p, hp, rfl, h, rfl⟩⟩

theorem Dev.HoldsFrom.trans {a b c : Dev} (h : a.HoldsFrom b) (h' : b.HoldsFrom c) : a.HoldsFrom c := ⟨fun p hp hu => by
  obtain ⟨o, ho, hk, hou, how⟩ := h'.held p hp hu
  obtain ⟨o', ho', hk', hou', how'⟩ := h.held o ho hou
  exact ⟨o', ho', hk'.trans hk, hou', how'.trans how⟩⟩

theorem Dev.HoldsFrom.of_queues {d e : Dev} (h : e.queues = d.queues) : d.HoldsFrom e :=
  ⟨fun p hp hu => ⟨p, h ▸ hp, rfl, hu, rfl⟩⟩

theorem Dev.HoldsFrom.of_set {d e : Dev} {q : Nat} {x : Queue} (he : e.queues = (d.setQueue q x).queues)
    (hx : x.pause = some .unit → (d.queue q).pause = some .unit ∧ (d.queue q).heldWords = x.heldWords) : d.HoldsFrom e := ⟨fun p hp hu => by
  rw [he] at hp
  have hp : p ∈ FMap.put (fun _ => ({} : Queue)) d.queues q x := hp
  rcases FMap.mem_put hp with rfl | hp
  · obtain ⟨hpause, hwords⟩ := hx hu
    unfold Dev.queue FMap.get at hpause hwords
    cases hf : d.queues.find? (fun e => e.1 == q) with
    | none => rw [hf] at hpause; exact absurd (show (none : Option Pause) = some .unit from hpause) nofun
    | some o =>
      rw [hf] at hpause hwords
      have hkey := List.find?_some hf
      exact ⟨o, List.mem_of_find?_eq_some hf, by simpa using hkey, hpause, hwords⟩
  · exact ⟨p, hp, rfl, hu, rfl⟩⟩

theorem Dev.HoldsFrom.waiters {d e : Dev} (h : d.HoldsFrom e) {op hi u : Nat} (hw : d.waiters op hi u = []) : e.waiters op hi u = [] := by
  unfold Dev.waiters at *
  rw [List.map_eq_nil_iff, List.filter_eq_nil_iff] at *
  intro p hp hcond
  simp only [Bool.and_eq_true, decide_eq_true_eq] at hcond
  obtain ⟨⟨hu, hop⟩, hunit⟩ := hcond
  obtain ⟨o, ho, -, hou, how⟩ := h.held p hp hu
  exact hw o ho (by simp only [Bool.and_eq_true, decide_eq_true_eq]; rw [how]; exact ⟨⟨hou, hop⟩, hunit⟩)

theorem Dev.foldl_holdsFrom {β : Type} {step : Dev → β → Dev} (h : ∀ (d : Dev) b, d.HoldsFrom (step d b)) (l : List β) (d : Dev) :
    d.HoldsFrom (l.foldl step d) := by
  induction l generalizing d with
  | nil => exact .refl d
  | cons b l ih => exact (h d b).trans (ih _)

theorem Dev.advanceHead_holdsFrom (q : Nat) (d : Dev) : d.HoldsFrom (d.advanceHead q) := by
  have hmsgs (l : List (Nat × Nat)) (e : Dev) : (l.foldl (fun d e => d.msix e.1 e.2) e).queues = e.queues := by
    induction l generalizing e with
    | nil => rfl
    | cons p l ih => rw [List.foldl_cons, ih]; simp
  unfold Dev.advanceHead
  dsimp only
  split
  · exact .refl d
  · refine .of_set (q := q) (x := { d.queue q with
      entries := (dropDone (d.queue q).entries).1, head := ((d.queue q).head + (dropDone (d.queue q).entries).2) % d.qmod q }) ?_ fun h => ⟨h, rfl⟩
    rw [hmsgs]
    simp

theorem Dev.completeGrp_holdsFrom (q grp : Nat) (d : Dev) : d.HoldsFrom (d.completeGrp q grp) := by
  unfold Dev.completeGrp
  dsimp only
  refine .trans ?_ (Dev.advanceHead_holdsFrom q _)
  exact .of_set (q := q) rfl fun h => ⟨h, rfl⟩

theorem Dev.haltQueue_holdsFrom (q : Nat) (a : Quad) (c : Nat) (d : Dev) : d.HoldsFrom (d.haltQueue q a c) := by
  unfold Dev.haltQueue
  dsimp only
  have hset : d.HoldsFrom (d.setQueue q { d.queue q with state := .halted, reading := none, fail := none, buf := [], dbPend := false }) :=
    .of_set (q := q) rfl fun h => ⟨h, rfl⟩
  exact hset.trans (.of_queues rfl)

theorem Dev.startRead_holdsFrom (q : Nat) (d : Dev) : d.HoldsFrom (d.startRead q) := by
  unfold Dev.startRead
  dsimp only
  split
  · exact .of_set (q := q) rfl fun h => ⟨h, rfl⟩
  · exact .refl d

theorem Dev.snapshot_holdsFrom (q : Nat) (d : Dev) : d.HoldsFrom (d.snapshot q) := by
  unfold Dev.snapshot
  dsimp only
  split
  · exact .of_set (q := q) rfl fun h => ⟨h, rfl⟩
  · refine .trans ?_ (Dev.startRead_holdsFrom q _)
    exact .of_set (q := q) rfl fun h => ⟨h, rfl⟩

theorem Dev.settle_holdsFrom (q : Nat) (d : Dev) : d.HoldsFrom (d.settle q) := by
  unfold Dev.settle
  dsimp only
  split
  · exact .refl d
  split
  · exact Dev.haltQueue_holdsFrom ..
  split
  · exact Dev.haltQueue_holdsFrom ..
  · split
    · exact (Dev.startRead_holdsFrom q d).trans (Dev.snapshot_holdsFrom q _)
    · exact Dev.startRead_holdsFrom q d

theorem Dev.endWait_holdsFrom (q : Nat) (w : Wait) (d : Dev) : d.HoldsFrom (d.endWait q w) := by
  unfold Dev.endWait
  dsimp only
  have hset : d.HoldsFrom (d.setQueue q { d.queue q with pause := none }) :=
    .of_set (q := q) rfl fun h => absurd (show (none : Option Pause) = some .unit from h) nofun
  generalize d.setQueue q { d.queue q with pause := none } = e at *
  exact hset.trans ((Dev.completeGrp_holdsFrom q w.grp e).trans (Dev.settle_holdsFrom q _))

theorem Dev.checkLevels_holdsFrom (d : Dev) : d.HoldsFrom d.checkLevels := by
  unfold Dev.checkLevels
  refine Dev.foldl_holdsFrom (fun d e => ?_) _ d
  split
  · split
    · exact Dev.endWait_holdsFrom ..
    · exact .refl d
  · exact .refl d

theorem Dev.endJob_holdsFrom (ch : Nat) (st : DState) (d : Dev) : d.HoldsFrom (d.endJob ch st) := by
  unfold Dev.endJob
  dsimp only
  split
  · refine .trans ?_ (Dev.completeGrp_holdsFrom ..)
    exact .of_queues rfl
  · exact .of_queues rfl

/-! ## O44: the state of a channel -/

theorem Dev.chan_endJob (ch : Nat) (st : DState) (d : Dev) : (d.endJob ch st).chans =
    (d.setChan ch { d.chan ch with state := st, job := none, encoder := false, jobs := (d.chan ch).jobs + 1 }).chans := by
  unfold Dev.endJob
  dsimp only
  split
  · simp
  · rfl

/-- A channel that becomes idle stays so where nothing waits for it. -/
theorem Dev.chanIdle_quiet {ch : Nat} {d : Dev} (h : d.waiters 0x10 21 ch = []) : (d.chanIdle ch).chan ch = d.chan ch := by
  have hchans (k : Nat) : d.checkLevels.chan k = d.chan k := Dev.chan_congr (by simp) k
  have hwaits := (Dev.checkLevels_holdsFrom d).waiters h
  unfold Dev.chanIdle
  dsimp only
  generalize d.checkLevels = e at *
  split
  · exact hchans ch
  · rw [hwaits]
    exact hchans ch

theorem Dev.startJob_enabled (ch : Nat) (r : DmaStart) (d : Dev) : ((d.startJob ch r).chan ch).en = (d.chan ch).en := by
  obtain ⟨_, _, _, h⟩ := Dev.startJob_self ch r d
  rw [h]

theorem Dev.chanIdle_enabled (ch : Nat) (d : Dev) : ((d.chanIdle ch).chan ch).en = (d.chan ch).en := by
  have hchans : d.checkLevels.chan ch = d.chan ch := Dev.chan_congr (by simp) ch
  unfold Dev.chanIdle
  dsimp only
  generalize d.checkLevels = e at *
  split
  · rw [hchans]
  · split
    · rw [hchans]
    · rw [Dev.startJob_enabled, Dev.chan_congr (show (e.releaseHeld _).chans = e.chans by simp), hchans]

theorem channelEnable_spec {m : Fn} {ch : ChanNo} {s : State} (h : s.dev.mayWriteReg m .chan ch DMA_CH_CTL) (hst : (s.dev.chan ch).state = .off) :
    ∃ u, exec (.channelEnable m ch) s = .next u ∧ (u.dev.chan ch).en = true ∧
      (s.dev.waiters 0x10 21 ch = [] → (u.dev.chan ch).state = .idle ∧ (u.dev.chan ch).chained = false) ∧
      (∀ k, k ≠ ch.val → u.dev.chan k = s.dev.chan k) := by
  obtain ⟨d, hen, hidle, hch, hq, hne, he⟩ : ∃ d : Dev, (d.chan ch).en = true ∧ (d.chan ch).state = .idle ∧ (d.chan ch).chained = false ∧
      d.queues = s.dev.queues ∧ (∀ k, k ≠ ch.val → d.chan k = s.dev.chan k) ∧
      exec (.channelEnable m ch) s = .next ⟨d.chanIdle ch, s.pending⟩ := by
    have he : exec (.channelEnable m ch) s = .next ⟨((s.dev.setArm (640 + ch) m false).setChan ch { s.dev.chan ch with
        state := .idle, en := true, cont := none, chained := false }).chanIdle ch, s.pending⟩ := by
      show s.dev! (Dev.regWrite m .chan ch DMA_CH_CTL 1) = _
      rw [State.dev!_next, Dev.regWrite_channelEnable h]
      unfold Dev.writeChanEn
      dsimp only
      rw [Dev.setArm_chan, hst]
    refine ⟨(s.dev.setArm (640 + ch) m false).setChan ch { s.dev.chan ch with
      state := .idle, en := true, cont := none, chained := false }, ?_, ?_, ?_, ?_, fun k hk => Dev.chan_setChan_ne _ _ hk, he⟩
    · rw [Dev.chan_setChan]
    · rw [Dev.chan_setChan]
    · rw [Dev.chan_setChan]
    · rfl
  refine ⟨_, he, ?_⟩
  dsimp only
  refine ⟨(d.chanIdle_enabled ch).trans hen, fun hw => ?_, fun k hk => (Dev.chanIdle_ne hk d).trans (hne k hk)⟩
  rw [Dev.chanIdle_quiet (by rw [Dev.waiters, hq]; exact hw)]
  exact ⟨hidle, hch⟩

theorem channelDisable_spec {m : Fn} {ch : ChanNo} {s : State} (h : s.dev.mayWriteReg m .chan ch DMA_CH_CTL)
    (hst : (s.dev.chan ch).state = .idle ∨ (s.dev.chan ch).state = .running ∨ (s.dev.chan ch).state = .halted) :
    ∃ u, exec (.channelDisable m ch) s = .next u ∧ (u.dev.chan ch).state = .draining ∧ (u.dev.chan ch).en = false ∧
      (u.dev.chan ch).pend = none ∧ (u.dev.chan ch).job = (s.dev.chan ch).job ∧ (u.dev.chan ch).due = (s.dev.chan ch).asks ∧
      ∀ k, k ≠ ch.val → u.dev.chan k = s.dev.chan k := by
  have he : exec (.channelDisable m ch) s = .next ⟨(s.dev.setArm (640 + ch) m false).drainChan ch, s.pending⟩ := by
    show s.dev! (Dev.regWrite m .chan ch DMA_CH_CTL 0) = _
    rw [State.dev!_next, Dev.regWrite_channelDisable h]
    unfold Dev.writeChanEn
    dsimp only
    rw [Dev.setArm_chan]
    rcases hst with hst | hst | hst <;> rw [hst]
  refine ⟨_, he, ?_⟩
  dsimp only
  unfold Dev.drainChan
  dsimp only
  have hchans (e : Dev) (k : Nat) : (e.refuseKicks ch).chan k = e.chan k := Dev.chan_congr (by simp) k
  rw [hchans, Dev.chan_setChan]
  exact ⟨rfl, rfl, rfl, rfl, rfl, fun k hk => (hchans _ k).trans (Dev.chan_setChan_ne _ _ hk)⟩

theorem exec_kick {m : Fn} {ch : ChanNo} {s : State} (h : s.dev.mayWriteReg m .chan ch DMA_CH_CTL) :
    exec (.kick m ch) s = .next ⟨((s.dev.setArm (640 + ch) m false).writeChanEn ch (s.dev.chan ch).en).askStart ch (.kick m), s.pending⟩ := by
  show s.dev! (Dev.fieldWrite m .chan ch DMA_CH_CTL 0 2) = _
  rw [State.dev!_next, Dev.fieldWrite_kick h]

theorem Dev.writeChanEn_same {ch : Nat} {d : Dev} {b : Bool} (hb : b = true)
    (hst : (d.chan ch).state = .idle ∨ (d.chan ch).state = .running ∨ (d.chan ch).state = .halted) : d.writeChanEn ch b = d := by
  unfold Dev.writeChanEn
  dsimp only
  rcases hst with hst | hst | hst <;> rw [hst, hb]

/-- The address at which a kick starts a channel. -/
def Dev.kickAddr (ch : Nat) (d : Dev) : Quad :=
  (if d.flg .chan ch DMA_CH_CFG 25 ∧ (d.chan ch).chained then (d.chan ch).cont.getD (d.pair .chan ch DMA_CH_DESC_LO)
    else d.pair .chan ch DMA_CH_DESC_LO) &&& 0xFFFFFFFFFFFFFFC0

theorem Dev.startJob_kick (ch m : Nat) (d : Dev) : let x := (d.startJob ch (.kick m)).chan ch
    x.state = .running ∧ x.step = .fetch ∧ x.job = some { mid := m } ∧ x.bytes = 0 ∧ x.issued = d.now ∧
    (d.stagedOf .chan ch = [] → x.addr = d.kickAddr ch) := by
  have hnow : (d.takeChan ch).now = d.now := by simp
  have hchan : (d.takeChan ch).chan ch = d.chan ch := Dev.chan_congr (by simp) ch
  have hreg (hs : d.stagedOf .chan ch = []) (off : Nat) : (d.takeChan ch).reg .chan ch off = d.reg .chan ch off := by
    unfold Dev.takeChan
    dsimp only
    rw [hs]
    split <;> rfl
  have haddr (hs : d.stagedOf .chan ch = []) : (d.takeChan ch).kickAddr ch = d.kickAddr ch := by
    unfold Dev.kickAddr Dev.flg Dev.pair
    rw [hchan]
    simp only [hreg hs]
  unfold Dev.startJob
  dsimp only
  generalize d.takeChan ch = e at *
  rw [Dev.chan_setChan]
  exact ⟨rfl, rfl, rfl, rfl, hnow, haddr⟩

theorem kick_idle {m : Fn} {ch : ChanNo} {s : State} (h : s.dev.mayWriteReg m .chan ch DMA_CH_CTL)
    (hst : (s.dev.chan ch).state = .idle) (hen : (s.dev.chan ch).en = true) :
    ∃ u, exec (.kick m ch) s = .next u ∧ (u.dev.chan ch).state = .running ∧ (u.dev.chan ch).step = .fetch ∧
      (u.dev.chan ch).job = some { mid := m } ∧ (u.dev.chan ch).bytes = 0 ∧ (u.dev.chan ch).issued = s.dev.now ∧
      (s.dev.stagedOf .chan ch = [] → (u.dev.chan ch).addr = s.dev.kickAddr ch) ∧
      ∀ k, k ≠ ch.val → u.dev.chan k = s.dev.chan k := by
  have he : exec (.kick m ch) s = .next ⟨(s.dev.setArm (640 + ch) m false).startJob ch (.kick m), s.pending⟩ := by
    rw [exec_kick h, Dev.writeChanEn_same hen (by rw [Dev.setArm_chan]; exact .inl hst), Dev.askStart, Dev.setArm_chan, hst]
  refine ⟨_, he, ?_⟩
  dsimp only
  obtain ⟨h₁, h₂, h₃, h₄, h₅, h₆⟩ := (s.dev.setArm (640 + ch) m false).startJob_kick ch m
  exact ⟨h₁, h₂, h₃, h₄, h₅, h₆, fun k hk => Dev.startJob_ne hk _ _⟩

theorem kick_running {m : Fn} {ch : ChanNo} {s : State} (h : s.dev.mayWriteReg m .chan ch DMA_CH_CTL)
    (hst : (s.dev.chan ch).state = .running) (hen : (s.dev.chan ch).en = true) :
    ∃ u, exec (.kick m ch) s = .next u ∧ u.dev.chan ch = (if (s.dev.chan ch).pend.isNone then
        { s.dev.chan ch with pend := some (.kick m) } else { s.dev.chan ch with ovr := (s.dev.chan ch).ovr + 1 }) ∧
      ∀ k, k ≠ ch.val → u.dev.chan k = s.dev.chan k := by
  have hchan (k : Nat) : (s.dev.setArm (640 + ch) m false).chan k = s.dev.chan k := Dev.setArm_chan ..
  refine ⟨_, exec_kick h, ?_⟩
  dsimp only
  rw [Dev.writeChanEn_same hen (by rw [hchan]; exact .inr (.inl hst)), Dev.askStart, hchan, hst]
  dsimp only
  generalize s.dev.setArm (640 + ch) m false = d at *
  by_cases hp : (s.dev.chan ch).pend.isNone = true
  · rw [if_pos hp, if_pos hp, Dev.chan_setChan]
    exact ⟨by rw [← hst], fun k hk => (Dev.chan_setChan_ne _ _ hk).trans (hchan k)⟩
  · rw [if_neg hp, if_neg hp, Dev.chan_setChan]
    exact ⟨by rw [← hst], fun k hk => (Dev.chan_setChan_ne _ _ hk).trans (hchan k)⟩

theorem kick_missed {m : Fn} {ch : ChanNo} {s : State} (h : s.dev.mayWriteReg m .chan ch DMA_CH_CTL)
    (hst : (s.dev.chan ch).state = .halted ∧ (s.dev.chan ch).en = true ∨
      (s.dev.chan ch).state = .draining ∧ (s.dev.chan ch).en = (s.dev.chan ch).enPending) :
    ∃ u, exec (.kick m ch) s = .next u ∧ u.dev.chan ch = { s.dev.chan ch with ovr := (s.dev.chan ch).ovr + 1 } ∧
      ∀ k, k ≠ ch.val → u.dev.chan k = s.dev.chan k := by
  obtain ⟨d, hchan, he⟩ : ∃ d : Dev, (∀ k, d.chan k = s.dev.chan k) ∧ exec (.kick m ch) s = .next ⟨d.askStart ch (.kick m), s.pending⟩ := by
    have hchan (k : Nat) : (s.dev.setArm (640 + ch) m false).chan k = s.dev.chan k := Dev.setArm_chan ..
    refine ⟨_, fun k => ?_, exec_kick h⟩
    generalize s.dev.setArm (640 + ch) m false = d at *
    rcases hst with ⟨hst, hen⟩ | ⟨hst, hen⟩
    · rw [Dev.writeChanEn_same hen (by rw [hchan]; exact .inr (.inr hst)), hchan]
    · have hw : d.writeChanEn ch (s.dev.chan ch).en = d.setChan ch (s.dev.chan ch) := by
        unfold Dev.writeChanEn
        rw [hchan]
        generalize s.dev.chan ch = x at *
        obtain ⟨⟩ := x
        dsimp only at hst hen ⊢
        rw [hst, hen]
      rw [hw]
      by_cases hk : k = ch.val
      · rw [hk, Dev.chan_setChan]
      · rw [Dev.chan_setChan_ne _ _ hk, hchan]
  refine ⟨_, he, ?_⟩
  dsimp only
  have hask : d.askStart ch (.kick m) = d.setChan ch { s.dev.chan ch with ovr := (s.dev.chan ch).ovr + 1 } := by
    unfold Dev.askStart
    dsimp only
    rw [hchan]
    rcases hst with ⟨hst, -⟩ | ⟨hst, -⟩
    · cases hc : (s.dev.chan ch).state with
      | halted => rfl
      | off | idle | running | draining | fenced => exact absurd (hst.symm.trans hc) (by decide)
    · cases hc : (s.dev.chan ch).state with
      | draining => rfl
      | off | idle | running | halted | fenced => exact absurd (hst.symm.trans hc) (by decide)
  rw [hask, Dev.chan_setChan]
  exact ⟨rfl, fun k hk => (Dev.chan_setChan_ne _ _ hk).trans (hchan k)⟩

theorem dmaFrel_spec {m : Fn} {ch : ChanNo} {s : State} (h : s.dev.mayWriteReg m .chan ch DMA_CH_CTL)
    (hst : (s.dev.chan ch).state = .fenced) (ha : s.dev.armed (PType.chan.page + ch) m = true) :
    ∃ u, exec (.dmaFrel m ch) s = .next u ∧ u.dev.chan ch = { s.dev.chan ch with state := .off, en := false } ∧
      ∀ k, k ≠ ch.val → u.dev.chan k = s.dev.chan k := by
  have hchan (k : Nat) : (s.dev.setArm (640 + ch) m false).chan k = s.dev.chan k := Dev.setArm_chan ..
  have he : exec (.dmaFrel m ch) s = .next ⟨(s.dev.setArm (640 + ch) m false).releaseChan ch, s.pending⟩ := by
    show s.dev! (Dev.fieldWrite m .chan ch DMA_CH_CTL 0 4) = _
    rw [State.dev!_next, Dev.fieldWrite_dmaFrel h ha]
    congr 2
    unfold Dev.writeChanEn
    dsimp only
    rw [hchan, hst]
  refine ⟨_, he, ?_⟩
  dsimp only
  generalize s.dev.setArm (640 + ch) m false = d at *
  unfold Dev.releaseChan
  dsimp only
  rw [hchan, if_pos hst, Dev.chan_setChan]
  exact ⟨rfl, fun k hk => (Dev.chan_setChan_ne _ _ hk).trans (hchan k)⟩

/-! ## O44: the end of a drain -/

theorem exec_dmaDrainComplete {ch : ChanNo} {s : State} (hst : (s.dev.chan ch).state = .draining) (hd : (s.dev.chan ch).due = false) :
    exec (.dmaDrainComplete ch) s = .next ⟨s.dev.chanDrained ch, s.pending⟩ := by
  show execDmaDrainComplete ch s = _
  rw [execDmaDrainComplete, State.dev!_next, show (decide ((s.dev.chan ch).state = .draining) && !(s.dev.chan ch).due) = true by simp [hst, hd],
    Dev.when_true]

theorem dmaDrainComplete_due {ch : ChanNo} {s : State} (hd : (s.dev.chan ch).due = true) : exec (.dmaDrainComplete ch) s = .next s := by
  show execDmaDrainComplete ch s = _
  rw [execDmaDrainComplete, State.dev!_next, show (decide ((s.dev.chan ch).state = .draining) && !(s.dev.chan ch).due) = false by simp [hd],
    Dev.when_false]

/-- A channel whose drain has ended, before an enable that waits takes effect. -/
def Dev.chanEnded (ch : Nat) (d : Dev) : Dev :=
  let d := d.renewTag (256 + ch)
  if (d.chan ch).job.isSome then d.endJob ch .off else d.setChan ch { d.chan ch with state := .off }

theorem Dev.chanEnded_spec (ch : Nat) (d : Dev) : ((d.chanEnded ch).chan ch).state = .off ∧ ((d.chanEnded ch).chan ch).job = none ∧
    ((d.chanEnded ch).chan ch).jobs = (if (d.chan ch).job.isSome then (d.chan ch).jobs + 1 else (d.chan ch).jobs) ∧
    (∀ k, k ≠ ch → (d.chanEnded ch).chan k = d.chan k) ∧ d.HoldsFrom (d.chanEnded ch) := by
  have hchan (k : Nat) : (d.renewTag (256 + ch)).chan k = d.chan k := Dev.chan_congr rfl k
  have hq : d.HoldsFrom (d.renewTag (256 + ch)) := .of_queues rfl
  unfold Dev.chanEnded
  dsimp only
  generalize d.renewTag (256 + ch) = e at *
  rw [hchan]
  by_cases hj : (d.chan ch).job.isSome = true
  · rw [if_pos hj, if_pos hj]
    have hend (k : Nat) := Dev.chan_congr (Dev.chan_endJob ch .off e) k
    rw [hend, Dev.chan_setChan]
    exact ⟨rfl, rfl, by rw [hchan], fun k hk => by rw [hend, Dev.chan_setChan_ne _ _ hk, hchan], hq.trans (Dev.endJob_holdsFrom ..)⟩
  · rw [if_neg hj, if_neg hj, Dev.chan_setChan]
    exact ⟨rfl, by simpa using hj, rfl, fun k hk => (Dev.chan_setChan_ne _ _ hk).trans (hchan k), hq.trans (.of_queues rfl)⟩

theorem Dev.chanDrained_eq (ch : Nat) (d : Dev) : d.chanDrained ch =
    if (d.chan ch).enPending then ((d.chanEnded ch).setChan ch { (d.chanEnded ch).chan ch with
      enPending := false, flr := false, state := .idle, cont := none, chained := false }).chanIdle ch
    else (d.chanEnded ch).setChan ch { (d.chanEnded ch).chan ch with enPending := false, flr := false } := rfl

theorem dmaDrainComplete_enable {ch : ChanNo} {s : State} (hst : (s.dev.chan ch).state = .draining) (hd : (s.dev.chan ch).due = false)
    (hp : (s.dev.chan ch).enPending = true) (hw : s.dev.waiters 0x10 21 ch = []) :
    ∃ u, exec (.dmaDrainComplete ch) s = .next u ∧ (u.dev.chan ch).state = .idle ∧ (u.dev.chan ch).job = none ∧
      ∀ k, k ≠ ch.val → u.dev.chan k = s.dev.chan k := by
  refine ⟨_, exec_dmaDrainComplete hst hd, ?_⟩
  dsimp only
  rw [Dev.chanDrained_eq, if_pos hp]
  obtain ⟨-, hjob, -, hne, hholds⟩ := s.dev.chanEnded_spec ch
  generalize s.dev.chanEnded ch = e at *
  obtain ⟨x, hx, hxst, hxjob⟩ : ∃ x : Chan, { e.chan ch with enPending := false, flr := false, state := .idle, cont := none, chained := false } = x ∧
    x.state = .idle ∧ x.job = none := ⟨_, rfl, rfl, hjob⟩
  rw [hx]
  rw [Dev.chanIdle_quiet (d := e.setChan ch x) (show e.waiters 0x10 21 ch = [] from hholds.waiters hw), Dev.chan_setChan]
  exact ⟨hxst, hxjob, fun k hk => (Dev.chanIdle_ne hk _).trans ((Dev.chan_setChan_ne _ _ hk).trans (hne k hk))⟩

theorem dmaDrainComplete_off {ch : ChanNo} {s : State} (hst : (s.dev.chan ch).state = .draining) (hd : (s.dev.chan ch).due = false)
    (hp : (s.dev.chan ch).enPending = false) :
    ∃ u, exec (.dmaDrainComplete ch) s = .next u ∧ (u.dev.chan ch).state = .off ∧ (u.dev.chan ch).job = none ∧
      (u.dev.chan ch).jobs = (if (s.dev.chan ch).job.isSome then (s.dev.chan ch).jobs + 1 else (s.dev.chan ch).jobs) ∧
      ∀ k, k ≠ ch.val → u.dev.chan k = s.dev.chan k := by
  refine ⟨_, exec_dmaDrainComplete hst hd, ?_⟩
  dsimp only
  rw [Dev.chanDrained_eq, if_neg (by rw [hp]; decide)]
  obtain ⟨hoff, hjob, hjobs, hne, -⟩ := s.dev.chanEnded_spec ch
  generalize s.dev.chanEnded ch = e at *
  rw [Dev.chan_setChan]
  exact ⟨hoff, hjob, hjobs, fun k hk => (Dev.chan_setChan_ne _ _ hk).trans (hne k hk)⟩

/-- Settles O44: enable, disable, kick and release by the channel's state, and the end of a drain. -/
theorem channelsEnableStartAndDrain : Obligations.ChannelsEnableStartAndDrain := by
  unfold Obligations.ChannelsEnableStartAndDrain
  rintro m ch x s rfl
  exact ⟨fun h => ⟨channelEnable_spec h, channelDisable_spec h, kick_idle h, kick_running h, kick_missed h, dmaFrel_spec h⟩,
    fun _ => dmaDrainComplete_due, dmaDrainComplete_enable, dmaDrainComplete_off⟩

/-! ## O46: timers -/

theorem timerEnable_spec {m : Fn} {t : TimerNo} {w : Word} {s : State} (h : s.dev.mayWriteReg m .dma 0 (DMA_TMR_CTL + 16 * t)) :
    ∃ u, exec (.timerEnable m t w) s = .next u ∧
      (if bit w 30 then u.dev.timer t = s.dev.timer t else (u.dev.timer t).base = s.dev.time ∧ (u.dev.timer t).cnt = (s.dev.timer t).cnt) ∧
      u.dev.timerCtl t = (w ||| 0x80000000) &&& 0xE03F007F ∧ (∀ k, k ≠ t.val → u.dev.timer k = s.dev.timer k) ∧
      s.dev.onlyChanges u.dev [.regs, .timers] := by
  have he : exec (.timerEnable m t w) s = .next ⟨(s.dev.setReg .dma 0 (DMA_TMR_CTL + 16 * t) ((w ||| flag 31 true) &&& 0xE03F007F)).timerWritten t,
      s.pending⟩ := by
    show s.dev! (Dev.regWrite m .dma 0 (DMA_TMR_CTL + 16 * t) (w ||| flag 31 true)) = _
    rw [State.dev!_next, Dev.regWrite_timerCtl h]
  refine ⟨_, he, ?_⟩
  dsimp only
  rw [show flag 31 true = 0x80000000 from rfl]
  have hctl : (s.dev.setReg .dma 0 (DMA_TMR_CTL + 16 * t) ((w ||| 0x80000000) &&& 0xE03F007F)).timerCtl t = (w ||| 0x80000000) &&& 0xE03F007F :=
    Dev.reg_setReg ..
  have hbit31 : bit ((w ||| 0x80000000) &&& 0xE03F007F) 31 = true := by simp [bit]
  have hbit30 : bit ((w ||| 0x80000000) &&& 0xE03F007F) 30 = bit w 30 := by simp [bit]
  have hset (x : Timer) (e : Dev) : (e.setTimer t x).timerCtl t = e.timerCtl t := rfl
  unfold Dev.timerWritten
  dsimp only
  rw [hctl]
  rw [hbit31, hbit30]
  cases bit w 30 with
  | true =>
    rw [if_pos rfl, if_neg (by decide), if_pos rfl]
    exact ⟨rfl, hctl, fun _ _ => rfl, by simp [Dev.onlyChanges_iff]⟩
  | false =>
    rw [if_neg (by decide), if_pos (by decide), Dev.timer_setTimer, hset, hctl]
    exact ⟨⟨rfl, rfl⟩, rfl, fun k hk => Dev.timer_setTimer_ne _ _ hk, by simp [Dev.onlyChanges_iff]⟩

theorem timerPeriodWrite_spec {m : Fn} {t : TimerNo} {w : Word} {s : State} (h : s.dev.mayWriteReg m .dma 0 (DMA_TMR_PER + 16 * t))
    (hw : 1000 ≤ w.toNat ∨ (w = 0 ∧ bit (s.dev.timerCtl t) 30 = true)) :
    ∃ u, exec (.timerPeriodWrite m t w) s = .next u ∧ u.dev.timerPer t = w.toNat ∧ (u.dev.timer t).cnt = (s.dev.timer t).cnt ∧
      (bit (s.dev.timerCtl t) 31 = true → bit (s.dev.timerCtl t) 30 = false →
        ((s.dev.timer t).base + w.setWidth 64).toNat < s.dev.time.toNat → (u.dev.timer t).base = s.dev.time - w.setWidth 64) ∧
      (∀ k, k ≠ t.val → u.dev.timer k = s.dev.timer k) ∧ s.dev.onlyChanges u.dev [.regs, .timers] := by
  have he : exec (.timerPeriodWrite m t w) s = .next ⟨(s.dev.setReg .dma 0 (DMA_TMR_PER + 16 * t) w).periodWritten t, s.pending⟩ := by
    show s.dev! (Dev.regWrite m .dma 0 (DMA_TMR_PER + 16 * t) w) = _
    rw [State.dev!_next, Dev.regWrite_timerPer h hw]
  refine ⟨_, he, ?_⟩
  dsimp only
  have hctl : (s.dev.setReg .dma 0 (DMA_TMR_PER + 16 * t) w).timerCtl t = s.dev.timerCtl t := by
    unfold Dev.timerCtl
    rw [Dev.reg_setReg_ne]
    simp only [regAt, DMA_TMR_CTL, DMA_TMR_PER]
    omega
  have hper : (s.dev.setReg .dma 0 (DMA_TMR_PER + 16 * t) w).timerPer t = w.toNat := by
    unfold Dev.timerPer
    rw [Dev.reg_setReg]
  have hquad : BitVec.ofNat 64 w.toNat = w.setWidth 64 := by
    apply BitVec.eq_of_toNat_eq
    simp
  have hset (x : Timer) (e : Dev) : (e.setTimer t x).timerPer t = e.timerPer t := rfl
  have htimer (k : Nat) : (s.dev.setReg .dma 0 (DMA_TMR_PER + 16 * t) w).timer k = s.dev.timer k := rfl
  have htime : (s.dev.setReg .dma 0 (DMA_TMR_PER + 16 * t) w).time = s.dev.time := rfl
  unfold Dev.periodWritten
  dsimp only
  rw [hctl, hper, hquad, htimer, htime]
  by_cases hlate : bit (s.dev.timerCtl t) 31 ∧ ¬ bit (s.dev.timerCtl t) 30 ∧ ((s.dev.timer t).base + w.setWidth 64).toNat < s.dev.time.toNat
  · rw [if_pos hlate, hset, hper, Dev.timer_setTimer]
    exact ⟨rfl, rfl, fun _ _ _ => rfl, fun k hk => Dev.timer_setTimer_ne _ _ hk, by simp [Dev.onlyChanges_iff]⟩
  · rw [if_neg hlate, hper]
    exact ⟨rfl, rfl, fun h₁ h₂ h₃ => absurd ⟨h₁, by rw [h₂]; decide, h₃⟩ hlate, fun _ _ => rfl, by simp [Dev.onlyChanges_iff]⟩

theorem timerTick_due {t : TimerNo} {s : State} {y : Timer} {due : Quad} (hn : s.dev.timerNext t = some (y, due))
    (hd : due.toNat ≤ s.dev.time.toNat) :
    ∃ u, exec (.timerTick t) s = .next u ∧ (u.dev.timer t).cnt = y.cnt + 1 ∧
      (bit (s.dev.timerCtl t) 30 = false → (u.dev.timer t).base = due) ∧
      (bit (s.dev.timerCtl t) 30 = true → (u.dev.timer t).k = y.k + 1) ∧
      ∀ k, k ≠ t.val → u.dev.timer k = s.dev.timer k := by
  obtain ⟨x, hcnt, hbase, hk, he⟩ : ∃ x : Timer, x.cnt = y.cnt + 1 ∧ (bit (s.dev.timerCtl t) 30 = false → x.base = due) ∧
      (bit (s.dev.timerCtl t) 30 = true → x.k = y.k + 1) ∧
      exec (.timerTick t) s = .next ⟨((s.dev.setTimer t x).countEdge 4 t).triggerChans 1 t, s.pending⟩ := by
    have he : exec (.timerTick t) s = .next ⟨((s.dev.setTimer t { (if bit (s.dev.timerCtl t) 30 then { y with k := y.k + 1 }
        else { y with base := due }) with cnt := (if bit (s.dev.timerCtl t) 30 then { y with k := y.k + 1 } else { y with base := due }).cnt + 1 }).countEdge
          4 t).triggerChans 1 t, s.pending⟩ := by
      show s.dev! (Dev.timerTicks t) = _
      rw [State.dev!_next, Dev.timerTicks, hn]
      dsimp only
      rw [if_pos hd]
    refine ⟨_, ?_, fun h => ?_, fun h => ?_, he⟩
    · split <;> rfl
    · dsimp only; rw [h]; rfl
    · dsimp only; rw [h]; rfl
  refine ⟨_, he, ?_⟩
  dsimp only
  have htimers (k : Nat) : (((s.dev.setTimer t x).countEdge 4 t).triggerChans 1 t).timer k = (s.dev.setTimer t x).timer k :=
    Dev.timer_congr (by simp) k
  simp only [htimers, Dev.timer_setTimer]
  exact ⟨hcnt, hbase, hk, fun k hk => Dev.timer_setTimer_ne _ _ hk⟩

/-- Settles O46: the writes of a timer's registers, and its ticks. -/
theorem timersCountTheirPeriods : Obligations.TimersCountTheirPeriods := by
  unfold Obligations.TimersCountTheirPeriods
  rintro m t x s rfl
  refine ⟨fun w => timerEnable_spec, fun w => timerPeriodWrite_spec, fun y due hn hd => ?_, fun hn => ?_, fun y due => timerTick_due⟩
  · show s.dev! (Dev.timerTicks t) = _
    rw [State.dev!_next, Dev.timerTicks, hn]
    dsimp only
    rw [if_neg (by omega)]
  · show s.dev! (Dev.timerTicks t) = _
    rw [State.dev!_next, Dev.timerTicks, hn]

end Sys2Proof.Machine
end

section
/-!
PROOF of O45: DMA jobs fetch descriptors, move bytes, end, halt and flip.
-/
namespace Sys2Proof.Machine
set_option Elab.async false

/-! ## Reports, halts and bytes -/

/-- A report changes no more of a channel than the events it shows. -/
theorem Dev.report_chan (ch : Nat) (b : BitVec 3) (v : Nat) (d : Dev) :
    (∃ e, (d.report ch b v).chan ch = { d.chan ch with evt := e }) ∧ ∀ k, k ≠ ch → (d.report ch b v).chan k = d.chan k := by
  have hmsix (f v : Nat) (e : Dev) (k : Nat) : (e.msix f v).chan k = e.chan k := Dev.chan_congr (by simp) k
  unfold Dev.report
  dsimp only
  split
  · exact ⟨⟨_, by rw [hmsix, Dev.chan_setChan]⟩, fun k hk => by rw [hmsix, Dev.chan_setChan_ne _ _ hk]⟩
  · exact ⟨⟨_, rfl⟩, fun _ _ => rfl⟩

/-- A channel that halts shows the code and the address, and no other channel changes. -/
theorem Dev.haltChan_spec (ch code : Nat) (a : Quad) (d : Dev) : ((d.haltChan ch code a).chan ch).state = .halted ∧
    ((d.haltChan ch code a).chan ch).err = BitVec.ofNat 8 code ∧ ((d.haltChan ch code a).chan ch).failAddr = a ∧
    ((d.haltChan ch code a).chan ch).jobs = (d.chan ch).jobs ∧
    (d.waiters 0x10 21 ch = [] → (d.haltChan ch code a).mem = d.mem) := by
  unfold Dev.haltChan
  dsimp only
  have hset := Dev.chan_setChan ch { d.chan ch with
    state := .halted, err := BitVec.ofNat 8 code, errHop := min 31 (d.chan ch).hops, failAddr := a } d
  have hq : (d.setChan ch { d.chan ch with
    state := .halted, err := BitVec.ofNat 8 code, errHop := min 31 (d.chan ch).hops, failAddr := a }).queues = d.queues := rfl
  have hm : (d.setChan ch { d.chan ch with
    state := .halted, err := BitVec.ofNat 8 code, errHop := min 31 (d.chan ch).hops, failAddr := a }).mem = d.mem := rfl
  generalize d.setChan ch _ = e at *
  have hfq : (e.fire 417 ch (dbits 0 a.toNat ||| dbits 64 code)).queues = d.queues := hq
  have hfm : (e.fire 417 ch (dbits 0 a.toNat ||| dbits 64 code)).mem = d.mem := hm
  have hfc : (e.fire 417 ch (dbits 0 a.toNat ||| dbits 64 code)).chan ch = e.chan ch := rfl
  generalize e.fire 417 ch (dbits 0 a.toNat ||| dbits 64 code) = f at *
  generalize e.fld .chan ch DMA_CH_IRQ 13 8 = v at *
  obtain ⟨⟨evt, hevt⟩, -⟩ := f.report_chan ch 4 v
  have hrq : (f.report ch 4 v).queues = f.queues := by simp
  have hrm : (f.report ch 4 v).mem = f.mem := by simp
  generalize f.report ch 4 v = g at *
  have hg : (g.refuseKicks ch).chan ch = { e.chan ch with evt := evt } := by
    rw [Dev.chan_congr (show (g.refuseKicks ch).chans = g.chans by simp), hevt, hfc]
  rw [hg, hset]
  refine ⟨rfl, rfl, rfl, rfl, fun hw => ?_⟩
  have hnone : g.waiters 0x10 21 ch = [] := by rw [Dev.waiters, hrq, hfq]; exact hw
  rw [Dev.refuseKicks, Dev.refuseWaiters, hnone]
  exact hrm.trans hfm

theorem Dev.bytes_length (d : Dev) (n a : Nat) : (d.bytes a n).length = n := by
  induction n generalizing a with
  | zero => rfl
  | succ n ih => rw [Dev.bytes, List.length_cons, ih]

theorem Dev.bytes_getD (d : Dev) {n i : Nat} (a : Nat) (h : i < n) : (d.bytes a n).getD i 0 = d.byte (a + i) := by
  induction n generalizing a i with
  | zero => exact absurd h (Nat.not_lt_zero _)
  | succ n ih =>
    cases i with
    | zero => rfl
    | succ i =>
      rw [Dev.bytes, List.getD_cons_succ, ih (a + 1) (Nat.lt_of_succ_lt_succ h), Nat.add_assoc, Nat.add_comm 1]

theorem Dev.store_memByte (a : Nat) (bs : List Byte) (d : Dev) {k : Nat} (h : k < bs.length) :
    (d.store a bs).memByte (a + k) = bs.getD k 0 := by
  rw [← Dev.setBytes_memByte bs a d k h]
  unfold Dev.store Dev.memByte
  dsimp only
  split <;> rfl

theorem Dev.readFor_ok {d : Dev} {mid a n : Nat} (h : d.readRes mid a n = .ok) : d.readFor mid a n .ok = .ok (d.bytes a n) := by
  unfold Dev.readFor
  rw [h]

theorem Dev.writeErr_ok {d : Dev} {mid a n : Nat} (h : d.writeRes mid a n = .ok) : d.writeErr mid a n = none := by
  unfold Dev.writeErr
  rw [h]

/-! ## The fetch of a descriptor, and the move of a piece -/

section
variable {ch : ChanNo} {s : State} {j : DmaJob} (hst : (s.dev.chan ch).state = .running) (hj : (s.dev.chan ch).job = some j)
include hst hj

theorem Dev.chanResponse_taken {step : DmaStep} {r : Resp} {k : DmaJob → Dev → Dev} (hs : (s.dev.chan ch).step = step) :
    s.dev.chanResponse ch step r k = k j s.dev := by
  unfold Dev.chanResponse
  dsimp only
  rw [if_neg (by rw [hst]; exact fun h => absurd h.1 (by decide)), hj]
  dsimp only
  rw [if_pos ⟨hst, hs⟩]

theorem exec_descriptorFetch (hs : (s.dev.chan ch).step = .fetch) (hsv : s.dev.served 3 (s.dev.chan ch).addr.toNat 64 = true)
    (hr : s.dev.readRes j.mid (s.dev.chan ch).addr.toNat 64 = .ok) {k : Desc}
    (hk : k = { words := bytesWords 16 (s.dev.bytes (s.dev.chan ch).addr.toNat 64) }) :
    exec (.descriptorFetch ch .ok) s = .next ⟨if k.check ≠ 0 then
      (s.dev.noteRead j.mid false (s.dev.chan ch).addr.toNat 64).descBad ch k.check
      else (s.dev.noteRead j.mid false (s.dev.chan ch).addr.toNat 64).beginDesc ch k, s.pending⟩ := by
  show execDescriptorFetch ch .ok s = _
  rw [execDescriptorFetch, State.dev!_next, Dev.chanResponse_taken hst hj hs]
  dsimp only
  rw [hsv, Dev.when_true, Dev.readFor_ok hr]
  dsimp only
  rw [← hk]

theorem descriptorFetch_bad (hs : (s.dev.chan ch).step = .fetch) (hsv : s.dev.served 3 (s.dev.chan ch).addr.toNat 64 = true)
    (hr : s.dev.readRes j.mid (s.dev.chan ch).addr.toNat 64 = .ok) (k : Desc)
    (hk : k = { words := bytesWords 16 (s.dev.bytes (s.dev.chan ch).addr.toNat 64) }) (hc : k.check ≠ 0)
    (hh : (s.dev.chan ch).hops ≠ 0) :
    ∃ u, exec (.descriptorFetch ch .ok) s = .next u ∧ (u.dev.chan ch).state = .halted ∧
      (u.dev.chan ch).err = BitVec.ofNat 8 k.check ∧ (u.dev.chan ch).failAddr = (s.dev.chan ch).addr := by
  refine ⟨_, exec_descriptorFetch hst hj hs hsv hr hk, ?_⟩
  dsimp only
  rw [if_pos hc]
  have hchan : (s.dev.noteRead j.mid false (s.dev.chan ch).addr.toNat 64).chan ch = s.dev.chan ch := Dev.chan_congr (by simp) ch
  generalize s.dev.noteRead j.mid false (s.dev.chan ch).addr.toNat 64 = d at *
  unfold Dev.descBad
  dsimp only
  rw [hchan, if_pos hh]
  obtain ⟨h₁, h₂, h₃, -⟩ := (d.fire 416 ch (dbits 0 (s.dev.chan ch).addr.toNat ||| dbits 64 k.check)).haltChan_spec ch k.check (s.dev.chan ch).addr
  exact ⟨h₁, h₂, h₃⟩

theorem descriptorFetch_begins (hs : (s.dev.chan ch).step = .fetch) (hsv : s.dev.served 3 (s.dev.chan ch).addr.toNat 64 = true)
    (hr : s.dev.readRes j.mid (s.dev.chan ch).addr.toNat 64 = .ok) (k : Desc)
    (hk : k = { words := bytesWords 16 (s.dev.bytes (s.dev.chan ch).addr.toNat 64) }) (hc : k.check = 0) :
    ∃ u, exec (.descriptorFetch ch .ok) s = .next u ∧ (u.dev.chan ch).desc = k ∧ (u.dev.chan ch).moved = 0 ∧
      (u.dev.chan ch).step = (if k.enc = true ∧ s.dev.encoderFree = false then .encWait else .move) ∧
      s.dev.onlyChanges u.dev [.chans, .mct, .cru, .flt] ∧ ∀ k, k ≠ ch.val → u.dev.chan k = s.dev.chan k := by
  refine ⟨_, exec_descriptorFetch hst hj hs hsv hr hk, ?_⟩
  dsimp only
  rw [if_neg (by rw [hc]; decide)]
  have hchans : (s.dev.noteRead j.mid false (s.dev.chan ch).addr.toNat 64).chans = s.dev.chans := by simp
  have honly : s.dev.onlyChanges (s.dev.noteRead j.mid false (s.dev.chan ch).addr.toNat 64) [.mct, .cru, .flt] := by simp [Dev.onlyChanges_iff]
  generalize s.dev.noteRead j.mid false (s.dev.chan ch).addr.toNat 64 = d at *
  have hfree : d.encoderFree = s.dev.encoderFree := by rw [Dev.encoderFree, hchans]; rfl
  unfold Dev.beginDesc
  dsimp only
  rw [hfree]
  refine ⟨?_, ?_, ?_, ?_, fun i hi => (Dev.chan_setChan_ne _ _ hi).trans (Dev.chan_congr hchans i)⟩
  · rw [Dev.chan_setChan]; split <;> rfl
  · rw [Dev.chan_setChan]; split <;> rfl
  · rw [Dev.chan_setChan]
    cases k.enc <;> cases s.dev.encoderFree <;> rfl
  · exact Dev.onlyChanges_trans (Dev.onlyChanges_mono (l' := [.chans, .mct, .cru, .flt]) honly (by decide)) (by simp [Dev.onlyChanges_iff])

theorem dmaResponse_moves (a b n : Nat) (hs : (s.dev.chan ch).step = .move) (hne : (s.dev.chan ch).desc.enc = false)
    (hp : (s.dev.chan ch).desc.piece (s.dev.chan ch).moved = (a, b, n)) (ha : s.dev.served 3 a n = true) (hb : s.dev.served 3 b n = true)
    (hr : s.dev.readRes j.mid a n = .ok) (hw : s.dev.writeRes j.mid b n = .ok) :
    ∃ u, exec (.dmaResponse ch .ok) s = .next u ∧ (u.dev.chan ch).moved = (s.dev.chan ch).moved + n ∧
      (u.dev.chan ch).bytes = (s.dev.chan ch).bytes + BitVec.ofNat 64 n ∧
      (u.dev.chan ch).step = (if (s.dev.chan ch).desc.total ≤ (s.dev.chan ch).moved + n then .descDone else .move) ∧
      (∀ i, i < n → u.dev.memByte (b + i) = s.dev.byte (a + i)) ∧
      (∀ k, outside k b n → u.dev.memByte k = s.dev.memByte k) ∧ ∀ k, k ≠ ch.val → u.dev.chan k = s.dev.chan k := by
  have he : exec (.dmaResponse ch .ok) s = .next ⟨(((s.dev.noteRead j.mid false a n).noteRead j.mid true b n).store b (s.dev.bytes a n)).advance ch n n,
      s.pending⟩ := by
    show execDmaResponse ch .ok s = _
    rw [execDmaResponse, State.dev!_next, Dev.chanResponse_taken hst hj hs, if_neg (by rw [hne]; decide), Dev.moveBytes, hp]
    dsimp only
    rw [ha, hb, Bool.and_self, Dev.when_true, Dev.readFor_ok hr]
    dsimp only
    rw [Dev.writeErr_ok hw]
  refine ⟨_, he, ?_⟩
  dsimp only
  have hchans : ((s.dev.noteRead j.mid false a n).noteRead j.mid true b n).chans = s.dev.chans := by simp
  have hmem : ((s.dev.noteRead j.mid false a n).noteRead j.mid true b n).mem = s.dev.mem := by simp
  generalize (s.dev.noteRead j.mid false a n).noteRead j.mid true b n = d at *
  have hlen := s.dev.bytes_length n a
  have hin (i : Nat) (hi : i < n) : (d.store b (s.dev.bytes a n)).memByte (b + i) = s.dev.byte (a + i) := by
    rw [Dev.store_memByte b _ d (by rw [hlen]; exact hi), Dev.bytes_getD _ a hi]
  have hout (k : Nat) (hk : outside k b n) : (d.store b (s.dev.bytes a n)).memByte k = s.dev.memByte k := by
    rw [Dev.store_memSameBut b _ d k (by rw [hlen]; exact hk), Dev.memByte_congr hmem]
  have hchan (k : Nat) : (d.store b (s.dev.bytes a n)).chan k = s.dev.chan k :=
    (Dev.chan_congr (by simp) k).trans (Dev.chan_congr hchans k)
  generalize d.store b (s.dev.bytes a n) = e at *
  unfold Dev.advance
  dsimp only
  rw [hchan, Dev.chan_setChan]
  exact ⟨rfl, rfl, by rw [hs], hin, hout, fun k hk => (Dev.chan_setChan_ne _ _ hk).trans (hchan k)⟩

end

/-! ## Time-outs -/

theorem encoderAcquire_spec {ch : ChanNo} {s : State} (hst : (s.dev.chan ch).state = .running) (hs : (s.dev.chan ch).step = .encWait)
    (hf : s.dev.encoderFree = true) :
    ∃ u, exec (.encoderAcquire ch) s = .next u ∧ s.dev.onlyChanges u.dev [.chans] ∧
      u.dev.chan ch = { s.dev.chan ch with step := .move, encoder := true, issued := s.dev.now } := by
  have he : exec (.encoderAcquire ch) s = .next ⟨s.dev.setChan ch { s.dev.chan ch with step := .move, encoder := true, issued := s.dev.now },
      s.pending⟩ := by
    show execEncoderAcquire ch s = _
    rw [execEncoderAcquire, State.dev!_next]
    dsimp only
    rw [show (decide ((s.dev.chan ch).state = .running) && decide ((s.dev.chan ch).step = .encWait) && s.dev.encoderFree) = true by
      simp [hst, hs, hf], Dev.when_true]
  exact ⟨_, he, by simp [Dev.onlyChanges_iff], Dev.chan_setChan ..⟩

theorem dmaTimeout_halts {ch : ChanNo} {s : State} (hst : (s.dev.chan ch).state = .running)
    (hs : (s.dev.chan ch).step = .fetch ∨ (s.dev.chan ch).step = .move) (hd : (s.dev.chan ch).issued + s.dev.requestTimeout ≤ s.dev.now) (write : Bool) :
    ∃ u, exec (.dmaTimeout ch write) s = .next u ∧ (u.dev.chan ch).state = .halted ∧ (u.dev.chan ch).err = 5 ∧
      (u.dev.chan ch).failAddr = s.dev.openRequest ch write ∧ (u.dev.chan ch).jobs = (s.dev.chan ch).jobs ∧
      (s.dev.waiters 0x10 21 ch = [] → u.dev.mem = s.dev.mem) := by
  have he : exec (.dmaTimeout ch write) s = .next ⟨(s.dev.requestLost ch write).haltChan ch 5 (s.dev.openRequest ch write), s.pending⟩ := by
    show execDmaTimeout ch write s = _
    rw [execDmaTimeout, State.dev!_next]
    dsimp only
    rw [decide_eq_true hd, Dev.when_true, if_pos (by rcases hs with hs | hs <;> simp [Chan.asks, hst, hs])]
  refine ⟨_, he, ?_⟩
  dsimp only
  have hq : (s.dev.requestLost ch write).queues = s.dev.queues := by simp
  have hm : (s.dev.requestLost ch write).mem = s.dev.mem := by simp
  have hchan : (s.dev.requestLost ch write).chan ch = s.dev.chan ch := Dev.chan_congr (by simp) ch
  generalize s.dev.requestLost ch write = d at *
  obtain ⟨h₁, h₂, h₃, h₄, h₅⟩ := d.haltChan_spec ch 5 (s.dev.openRequest ch write)
  rw [hchan] at h₄
  exact ⟨h₁, h₂, h₃, h₄, fun hw => (h₅ (by rw [Dev.waiters, hq]; exact hw)).trans hm⟩

theorem dmaTimeout_draining {ch : ChanNo} {s : State} (hst : (s.dev.chan ch).state = .draining) (hdue : (s.dev.chan ch).due = true)
    (hd : (s.dev.chan ch).issued + s.dev.requestTimeout ≤ s.dev.now) (write : Bool) :
    ∃ u, exec (.dmaTimeout ch write) s = .next u ∧ u.dev.chan ch = { s.dev.chan ch with due := false } ∧
      s.dev.onlyChanges u.dev [.chans, .mct] := by
  have he : exec (.dmaTimeout ch write) s = .next ⟨(s.dev.requestLost ch write).setChan ch
      { (s.dev.requestLost ch write).chan ch with due := false }, s.pending⟩ := by
    show execDmaTimeout ch write s = _
    rw [execDmaTimeout, State.dev!_next]
    dsimp only
    rw [decide_eq_true hd, Dev.when_true, if_neg (by simp [Chan.asks, hst]), if_pos ⟨hst, hdue⟩]
  refine ⟨_, he, ?_⟩
  dsimp only
  have honly : s.dev.onlyChanges (s.dev.requestLost ch write) [.chans, .mct] := by simp [Dev.onlyChanges_iff]
  have hchan : (s.dev.requestLost ch write).chan ch = s.dev.chan ch := Dev.chan_congr (by simp) ch
  generalize s.dev.requestLost ch write = d at *
  rw [Dev.chan_setChan, hchan]
  exact ⟨rfl, Dev.onlyChanges_trans honly (by simp [Dev.onlyChanges_iff])⟩

theorem dmaTimeout_early {ch : ChanNo} {s : State} (hd : s.dev.now < (s.dev.chan ch).issued + s.dev.requestTimeout) (write : Bool) :
    exec (.dmaTimeout ch write) s = .next s := by
  show execDmaTimeout ch write s = _
  rw [execDmaTimeout, State.dev!_next]
  dsimp only
  rw [decide_eq_false (by omega), Dev.when_false]

/-! ## The ends of descriptors and jobs -/

theorem descriptorComplete_spec {ch : ChanNo} {s : State} (hst : (s.dev.chan ch).state = .running) (hs : (s.dev.chan ch).step = .descDone)
    (hh : (s.dev.chan ch).hops < 4096) :
    ∃ u, exec (.descriptorComplete ch) s = .next u ∧ (u.dev.chan ch).encoder = false ∧
      (if (s.dev.chan ch).desc.last then (u.dev.chan ch).step = .jobDone ∧ (u.dev.chan ch).cont = some (s.dev.chan ch).desc.next
       else (u.dev.chan ch).step = .fetch ∧ (u.dev.chan ch).addr = (s.dev.chan ch).desc.next ∧ (u.dev.chan ch).hops = (s.dev.chan ch).hops + 1) ∧
      ∀ k, k ≠ ch.val → u.dev.chan k = s.dev.chan k := by
  have he : exec (.descriptorComplete ch) s = .next ⟨s.dev.descEnds ch, s.pending⟩ := by
    show execDescriptorComplete ch s = _
    rw [execDescriptorComplete, State.dev!_next, show (decide ((s.dev.chan ch).state = .running) && decide ((s.dev.chan ch).step = .descDone)) = true by
      simp [hst, hs], Dev.when_true]
  refine ⟨_, he, ?_⟩
  dsimp only
  unfold Dev.descEnds
  dsimp only
  have hset := Dev.chan_setChan ch { s.dev.chan ch with encoder := false } s.dev
  have hne (k : Nat) (hk : k ≠ ch.val) := Dev.chan_setChan_ne { s.dev.chan ch with encoder := false } s.dev hk
  generalize s.dev.setChan ch { s.dev.chan ch with encoder := false } = d at *
  obtain ⟨⟨evt, hevt⟩, hothers⟩ : (∃ e, (if (d.chan ch).desc.half then d.report ch 1 (d.fld .chan ch DMA_CH_IRQ 5 0) else d).chan ch =
      { d.chan ch with evt := e }) ∧
      ∀ k, k ≠ ch.val → (if (d.chan ch).desc.half then d.report ch 1 (d.fld .chan ch DMA_CH_IRQ 5 0) else d).chan k = d.chan k := by
    split
    · exact d.report_chan ch 1 _
    · exact ⟨⟨_, rfl⟩, fun _ _ => rfl⟩
  generalize (if (d.chan ch).desc.half then d.report ch 1 (d.fld .chan ch DMA_CH_IRQ 5 0) else d) = e at *
  have hrest (k : Nat) (hk : k ≠ ch.val) (x : Chan) : (e.setChan ch x).chan k = s.dev.chan k :=
    (Dev.chan_setChan_ne _ _ hk).trans ((hothers k hk).trans (hne k hk))
  rw [hevt, hset]
  dsimp only
  by_cases hl : (s.dev.chan ch).desc.last = true
  · rw [if_pos hl, if_pos hl, Dev.chan_setChan]
    exact ⟨rfl, ⟨rfl, rfl⟩, fun k hk => hrest k hk _⟩
  · rw [if_neg hl, if_neg hl, if_neg (by omega), Dev.chan_setChan]
    exact ⟨rfl, ⟨rfl, rfl, rfl⟩, fun k hk => hrest k hk _⟩

theorem Dev.chanIdle_jobs (ch : Nat) (d : Dev) : ((d.chanIdle ch).chan ch).jobs = (d.chan ch).jobs := by
  have hchans : d.checkLevels.chan ch = d.chan ch := Dev.chan_congr (by simp) ch
  unfold Dev.chanIdle
  dsimp only
  generalize d.checkLevels = e at *
  split
  · rw [hchans]
  · split
    · rw [hchans]
    · obtain ⟨_, _, _, hstart⟩ := Dev.startJob_self ch _ (e.releaseHeld _)
      rw [hstart]
      dsimp only
      rw [Dev.chan_congr (show (e.releaseHeld _).chans = e.chans by simp), hchans]

/-- What a pulse leaves of the channel that sends it: it runs on, and a pending start stays. -/
def Chan.pulsed (x y : Chan) : Prop := y.state = x.state ∧ y.jobs = x.jobs ∧ (x.pend.isSome = true → y.pend.isSome = true)

theorem Chan.pulsed_refl (x : Chan) : x.pulsed x := ⟨rfl, rfl, id⟩

theorem Chan.pulsed_trans {x y z : Chan} (h : x.pulsed y) (h' : y.pulsed z) : x.pulsed z :=
  ⟨h'.1.trans h.1, h'.2.1.trans h.2.1, fun hp => h'.2.2 (h.2.2 hp)⟩

theorem Dev.askStart_pulsed (ch k : Nat) (r : DmaStart) (d : Dev) (hst : (d.chan ch).state = .running) :
    (d.chan ch).pulsed ((d.askStart k r).chan ch) := by
  by_cases hk : k = ch
  · subst hk
    unfold Dev.askStart
    dsimp only
    rw [hst]
    dsimp only
    split
    · rw [Dev.chan_setChan]; exact ⟨hst.symm, rfl, fun _ => rfl⟩
    · rw [Dev.chan_setChan]; exact ⟨hst.symm, rfl, id⟩
  · have hne : (d.askStart k r).chan ch = d.chan ch := by
      have hk : ch ≠ k := fun h => hk h.symm
      unfold Dev.askStart
      dsimp only
      split
      · exact Dev.startJob_ne hk r d
      · split <;> exact Dev.chan_setChan_ne _ _ hk
      · exact Dev.chan_setChan_ne _ _ hk
      · exact Dev.chan_setChan_ne _ _ hk
      · rfl
      · rfl
    rw [hne]
    exact Chan.pulsed_refl _

theorem Dev.triggerChans_pulsed (ch trig i : Nat) (d : Dev) (hst : (d.chan ch).state = .running) :
    (d.chan ch).pulsed ((d.triggerChans trig i).chan ch) := by
  unfold Dev.triggerChans
  generalize List.range 64 = l
  induction l generalizing d with
  | nil => exact Chan.pulsed_refl _
  | cons k l ih =>
    have hone : (d.chan ch).pulsed ((if d.fld .chan k DMA_CH_CFG 22 21 = trig ∧ d.fld .chan k DMA_CH_CFG 20 15 = i then d.askStart k .trigger
        else d).chan ch) := by
      split
      · exact Dev.askStart_pulsed ch k .trigger d hst
      · exact Chan.pulsed_refl _
    rw [List.foldl_cons]
    exact Chan.pulsed_trans hone (ih _ (hone.1.trans hst))

theorem Dev.pulse_pulsed (ch : Nat) (d : Dev) (hst : (d.chan ch).state = .running) : (d.chan ch).pulsed ((d.pulse ch).chan ch) := by
  unfold Dev.pulse
  dsimp only
  have hflip : (d.chan ch).pulsed ((if bit (d.reg .chan ch DMA_CH_FLIP) 31 then d.setChan ch { d.chan ch with
      flips := (d.chan ch).flips ++ [(d.chanFn ch, bits (d.reg .chan ch DMA_CH_FLIP) 14 0, bits (d.reg .chan ch DMA_CH_FLIP_S) 13 0,
        bits (d.reg .chan ch DMA_CH_FLIP_S) 29 16)] } else d).chan ch) := by
    split
    · rw [Dev.chan_setChan]; exact ⟨rfl, rfl, id⟩
    · exact Chan.pulsed_refl _
  generalize (if bit (d.reg .chan ch DMA_CH_FLIP) 31 then _ else d) = e at *
  have hchan : ((e.restartTimers ch).pulseEngines ch).chan ch = e.chan ch := Dev.chan_congr (by simp) ch
  have htrig := ((e.restartTimers ch).pulseEngines ch).triggerChans_pulsed ch 2 ch (by rw [hchan]; exact hflip.1.trans hst)
  rw [hchan] at htrig
  exact Chan.pulsed_trans hflip htrig

theorem Dev.afterJob_some {ch : Nat} {k : DmaStart} {d : Dev} (h : (d.chan ch).pend = some k) :
    d.afterJob ch = (d.setChan ch { d.chan ch with pend := none }).startJob ch k := by
  unfold Dev.afterJob
  dsimp only
  rw [h]

theorem Dev.afterJob_none {ch : Nat} {d : Dev} (h : (d.chan ch).pend = none) :
    d.afterJob ch = (d.setChan ch { d.chan ch with state := .idle }).chanIdle ch := by
  unfold Dev.afterJob
  dsimp only
  rw [h]

/-- What the end of a job leaves where the channel runs on: the job is counted, and nothing new waits. -/
structure Dev.JobEnded (ch : Nat) (d e : Dev) : Prop where
  state : (e.chan ch).state = .running
  jobs : (e.chan ch).jobs = (d.chan ch).jobs + 1
  job : (e.chan ch).job = none
  pend : (e.chan ch).pend = (d.chan ch).pend
  regs : e.regs = d.regs
  holds : d.HoldsFrom e

theorem Dev.endJob_ended {ch : Nat} {d f : Dev} {v : BitVec 3} (hf : f.chan ch = { d.chan ch with evt := v }) (hr : f.regs = d.regs)
    (hh : d.HoldsFrom f) : Dev.JobEnded ch d (f.endJob ch .running) := by
  have hend : (f.endJob ch .running).chan ch = { f.chan ch with state := .running, job := none, encoder := false, jobs := (f.chan ch).jobs + 1 } := by
    rw [Dev.chan_congr (Dev.chan_endJob ch .running f) ch, Dev.chan_setChan]
  rw [hf] at hend
  refine ⟨?_, ?_, ?_, ?_, ?_, hh.trans (Dev.endJob_holdsFrom ..)⟩
  · rw [hend]
  · rw [hend]
  · rw [hend]
  · rw [hend]
  · rw [← hr]; simp

theorem Dev.reportBehind_spec (ch q grp : Nat) (d : Dev) : (∃ v, (d.reportBehind ch q grp).chan ch = { d.chan ch with evt := v }) ∧
    d.HoldsFrom (d.reportBehind ch q grp) := by
  unfold Dev.reportBehind
  dsimp only
  split
  · refine ⟨⟨_, Dev.chan_setChan ..⟩, ?_⟩
    unfold Dev.messageBehind
    exact .of_set (q := q) rfl fun h => ⟨h, rfl⟩
  · exact ⟨⟨_, rfl⟩, .refl d⟩

theorem Dev.jobEnds_eq (ch : Nat) (d : Dev) : ∃ e : Dev, Dev.JobEnded ch d e ∧
    d.jobEnds ch = Dev.afterJob ch (if e.chanRep ch = 2 then e.pulse ch else e) := by
  unfold Dev.jobEnds
  dsimp only
  cases hj : (d.chan ch).job.bind DmaJob.entry with
  | none =>
    have hend := Dev.endJob_ended (ch := ch) (d := d) (f := d) rfl rfl (.refl d)
    generalize d.endJob ch .running = f at *
    obtain ⟨⟨evt, hevt⟩, -⟩ := f.report_chan ch 2 (d.fld .chan ch DMA_CH_IRQ 13 8)
    refine ⟨_, ⟨?_, ?_, ?_, ?_, ?_, hend.holds.trans (.of_queues (by simp))⟩, rfl⟩
    · rw [hevt]; exact hend.state
    · rw [hevt]; exact hend.jobs
    · rw [hevt]; exact hend.job
    · rw [hevt]; exact hend.pend
    · rw [← hend.regs]; simp
  | some p =>
    obtain ⟨⟨v, hv⟩, hholds⟩ := d.reportBehind_spec ch p.1 p.2
    exact ⟨_, Dev.endJob_ended hv (by simp) hholds, rfl⟩

theorem jobEnd_spec {ch : ChanNo} {s : State} (hst : (s.dev.chan ch).state = .running) (hs : (s.dev.chan ch).step = .jobDone) :
    ∃ u, exec (.jobEnd ch) s = .next u ∧ (u.dev.chan ch).jobs = (s.dev.chan ch).jobs + 1 ∧
      ((s.dev.chan ch).pend.isSome = true → (u.dev.chan ch).state = .running ∧ (u.dev.chan ch).step = .fetch) ∧
      ((s.dev.chan ch).pend = none → s.dev.chanRep ch ≠ 2 → s.dev.waiters 0x10 21 ch = [] →
        (u.dev.chan ch).state = .idle ∧ (u.dev.chan ch).job = none) := by
  have he : exec (.jobEnd ch) s = .next ⟨s.dev.jobEnds ch, s.pending⟩ := by
    show execJobEnd ch s = _
    rw [execJobEnd, State.dev!_next, show (decide ((s.dev.chan ch).state = .running) && decide ((s.dev.chan ch).step = .jobDone)) = true by
      simp [hst, hs], Dev.when_true]
  refine ⟨_, he, ?_⟩
  dsimp only
  obtain ⟨e, ⟨hrun, hjobs, hjob, hpend, hregs, hholds⟩, heq⟩ := s.dev.jobEnds_eq ch
  rw [heq]
  have hrep : e.chanRep ch = s.dev.chanRep ch := Dev.fld_congr hregs ..
  have hpulse : (e.chan ch).pulsed ((if e.chanRep ch = 2 then e.pulse ch else e).chan ch) := by
    split
    · exact e.pulse_pulsed ch hrun
    · exact Chan.pulsed_refl _
  have hquiet : s.dev.chanRep ch ≠ 2 → (if e.chanRep ch = 2 then e.pulse ch else e) = e := fun h => if_neg (by rw [hrep]; exact h)
  generalize (if e.chanRep ch = 2 then e.pulse ch else e) = f at *
  obtain ⟨-, hpjobs, hppend⟩ := hpulse
  cases hp : (f.chan ch).pend with
  | some k =>
    rw [Dev.afterJob_some hp]
    obtain ⟨_, _, _, hstart⟩ := Dev.startJob_self ch k (f.setChan ch { f.chan ch with pend := none })
    rw [hstart, Dev.chan_setChan]
    refine ⟨hpjobs.trans hjobs, fun _ => ⟨rfl, rfl⟩, fun hnone hr _ => ?_⟩
    rw [hquiet hr, hpend, hnone] at hp
    exact absurd hp nofun
  | none =>
    rw [Dev.afterJob_none hp]
    have hset := Dev.chan_setChan ch { f.chan ch with state := .idle } f
    have hq : (f.setChan ch { f.chan ch with state := .idle }).waiters 0x10 21 ch = f.waiters 0x10 21 ch := rfl
    generalize f.setChan ch { f.chan ch with state := .idle } = g at *
    refine ⟨?_, fun h => ?_, fun _ hr hw => ?_⟩
    · rw [Dev.chanIdle_jobs, hset]
      exact hpjobs.trans hjobs
    · have := hppend (by rw [hpend]; exact h)
      rw [hp] at this
      exact absurd this (by decide)
    · rw [Dev.chanIdle_quiet (by rw [hq, hquiet hr]; exact hholds.waiters hw), hset]
      exact ⟨rfl, by rw [hquiet hr]; exact hjob⟩

/-- Settles O45: the fetch and its checks, the move of a piece, the time-outs, the ends of descriptor and job, and the flip. -/
theorem dmaJobsMoveTheirBytes : Obligations.DmaJobsMoveTheirBytes := by
  unfold Obligations.DmaJobsMoveTheirBytes
  rintro ch x s rfl
  refine ⟨fun j hst hj => ⟨descriptorFetch_bad hst hj, descriptorFetch_begins hst hj, dmaResponse_moves hst hj⟩, encoderAcquire_spec,
    dmaTimeout_halts, dmaTimeout_draining, dmaTimeout_early, descriptorComplete_spec, jobEnd_spec, fun fn win a b rest hf => ?_⟩
  refine ⟨⟨(fun d => { d with scene := { d.scene with admQ := d.scene.admQ ++ [.flip fn win a b] } })
    (s.dev.setChan ch { s.dev.chan ch with flips := rest }), s.pending⟩, ?_, Dev.chan_setChan .., rfl⟩
  show execDmaFlip ch s = _
  rw [execDmaFlip, State.dev!_next]
  dsimp only
  rw [hf]

end Sys2Proof.Machine
end

section
/-!
PROOF of O48 and O49: check-value engines are enabled, started, stopped and drained; scans feed, compare and fail.
-/
namespace Sys2Proof.Machine
set_option Elab.async false

/-! ## No step of a queue takes back a firing -/

/-- Each firing under way in `d` is under way in `e`. -/
structure Dev.KeepsFirings (d e : Dev) : Prop where
  kept : ∀ f ∈ d.flt.arrivals, f ∈ e.flt.arrivals

theorem Dev.KeepsFirings.refl (d : Dev) : d.KeepsFirings d := ⟨fun _ h => h⟩

theorem Dev.KeepsFirings.trans {a b c : Dev} (h : a.KeepsFirings b) (h' : b.KeepsFirings c) : a.KeepsFirings c :=
  ⟨fun f hf => h'.kept f (h.kept f hf)⟩

theorem Dev.KeepsFirings.of_flt {d e : Dev} (h : e.flt = d.flt) : d.KeepsFirings e := ⟨fun _ hf => h ▸ hf⟩

theorem Dev.KeepsFirings.of_fire {d e : Dev} {src inst : Nat} {x : BitVec 128} (h : e.flt = d.flt) : d.KeepsFirings (e.fire src inst x) :=
  .trans (.of_flt h) ⟨Dev.fire_arrivals⟩

theorem Dev.KeepsFirings.ite {c : Prop} [Decidable c] {d a b : Dev} (ha : d.KeepsFirings a) (hb : d.KeepsFirings b) :
    d.KeepsFirings (if c then a else b) := by
  split
  · exact ha
  · exact hb

theorem Dev.foldl_keepsFirings {β : Type} {step : Dev → β → Dev} (h : ∀ (d : Dev) b, d.KeepsFirings (step d b)) (l : List β) (d : Dev) :
    d.KeepsFirings (l.foldl step d) := by
  induction l generalizing d with
  | nil => exact .refl d
  | cons b l ih => exact (h d b).trans (ih _)

theorem Dev.sparingDue_keepsFirings (mac row : Nat) (d : Dev) : d.KeepsFirings (d.sparingDue mac row) := .of_flt (by simp)

theorem Dev.store_keepsFirings (a : Nat) (bs : List Byte) (d : Dev) : d.KeepsFirings (d.store a bs) := .of_flt (by simp)

theorem Dev.startRead_keepsFirings (q : Nat) (d : Dev) : d.KeepsFirings (d.startRead q) := .of_flt (by simp)

theorem Dev.noticeIrq_keepsFirings (f : Nat) (d : Dev) : d.KeepsFirings (d.noticeIrq f) := .of_flt (by simp)

theorem Dev.rebuiltByte_keepsFirings (t mid s p : Nat) (d : Dev) : d.KeepsFirings (d.rebuiltByte t mid s p) := by
  unfold Dev.rebuiltByte
  dsimp only
  exact .of_fire rfl

theorem Dev.readAtom_keepsFirings (mid : Nat) (d : Dev) (t : Nat) : d.KeepsFirings (d.readAtom mid t) := by
  unfold Dev.readAtom
  refine .ite ?_ ?_
  · unfold Dev.uncorrectable
    exact .of_fire (show (d.markBad t).flt = d.flt by simp)
  · unfold Dev.rebuilt
    dsimp only
    refine .ite (.refl d) (.trans ?_ (Dev.foldl_keepsFirings (fun e p => Dev.rebuiltByte_keepsFirings t mid (d.servingSite t p) p e) _ _))
    exact .of_flt rfl

theorem Dev.groupAtFails_keepsFirings (d : Dev) (t : Nat) : d.KeepsFirings (d.groupAtFails t) := by
  unfold Dev.groupAtFails Dev.groupFails
  dsimp only
  refine .trans ?_ (Dev.sparingDue_keepsFirings ..)
  exact .of_fire rfl

theorem Dev.noteRead_keepsFirings (mid : Nat) (write : Bool) (a len : Nat) (d : Dev) : d.KeepsFirings (d.noteRead mid write a len) := by
  unfold Dev.noteRead
  split
  · exact Dev.foldl_keepsFirings (fun e t => Dev.readAtom_keepsFirings mid e t) _ d
  · exact Dev.foldl_keepsFirings Dev.groupAtFails_keepsFirings _ d
  · exact .refl d
  · exact .refl d

theorem Dev.masterWrite_keepsFirings (mid a : Nat) (ws : List Word) (d : Dev) : d.KeepsFirings (d.masterWrite mid a ws) := by
  unfold Dev.masterWrite
  split
  · exact .trans (d.noteRead_keepsFirings mid true a (4 * ws.length)) (Dev.store_keepsFirings ..)
  · unfold Dev.deny
    dsimp only
    exact .of_fire rfl
  · exact d.noteRead_keepsFirings ..

theorem Dev.completeGrp_keepsFirings (q grp : Nat) (d : Dev) : d.KeepsFirings (d.completeGrp q grp) := by
  unfold Dev.completeGrp Dev.advanceHead
  dsimp only
  obtain ⟨e, he, hde⟩ : ∃ e : Dev, e = d.setQueue q { d.queue q with
      entries := (d.queue q).entries.map fun e => if e.grp = grp then { e with done := true } else e } ∧ d.KeepsFirings e :=
    ⟨_, rfl, .of_flt rfl⟩
  rw [← he]
  refine .ite hde (hde.trans ?_)
  have hset (x : Queue) : e.KeepsFirings (e.setQueue q x) := .of_flt rfl
  have hback (f : Dev) : f.KeepsFirings (f.headWriteback q) := by
    unfold Dev.headWriteback
    exact .ite (Dev.masterWrite_keepsFirings ..) (.refl f)
  exact ((hset _).trans (hback _)).trans (Dev.foldl_keepsFirings (fun f p => .of_flt (by simp)) _ _)

theorem Dev.snapshot_keepsFirings (q : Nat) (d : Dev) : d.KeepsFirings (d.snapshot q) := by
  unfold Dev.snapshot
  dsimp only
  refine .ite (.of_fire rfl) (.trans ?_ (Dev.startRead_keepsFirings ..))
  exact .of_flt rfl

theorem Dev.settle_keepsFirings (q : Nat) (d : Dev) : d.KeepsFirings (d.settle q) := by
  have hhalt (a : Quad) (c : Nat) : d.KeepsFirings (d.haltQueue q a c) := by
    unfold Dev.haltQueue
    exact .of_fire rfl
  have hread := Dev.startRead_keepsFirings q d
  unfold Dev.settle
  dsimp only
  refine .ite (.refl d) (.ite (hhalt ..) ?_)
  split
  · exact hhalt ..
  · exact .ite (hread.trans (Dev.snapshot_keepsFirings q _)) hread

theorem Dev.checkLevels_keepsFirings (d : Dev) : d.KeepsFirings d.checkLevels := by
  unfold Dev.checkLevels
  refine Dev.foldl_keepsFirings (fun d e => ?_) _ d
  have hend (w : Wait) : d.KeepsFirings (d.endWait e.1 w) := by
    unfold Dev.endWait
    dsimp only
    refine .trans ?_ (Dev.settle_keepsFirings ..)
    refine .trans ?_ (Dev.completeGrp_keepsFirings ..)
    exact .of_flt rfl
  split
  · exact .ite (hend _) (.refl d)
  · exact .refl d

theorem Dev.noticeThen_keepsFirings {k : Dev → Dev} (hk : ∀ d : Dev, d.KeepsFirings (k d)) (f : Nat) (n : Notice) (d : Dev) :
    d.KeepsFirings (d.noticeThen f n k) := by
  have hpost : d.KeepsFirings (d.post f n) := by
    unfold Dev.post
    dsimp only
    refine .ite (.of_flt rfl) ?_
    refine .ite (.trans (d.masterWrite_keepsFirings ..) (.of_fire rfl)) (.trans (d.masterWrite_keepsFirings ..) (.of_flt rfl))
  unfold Dev.noticeThen
  dsimp only
  exact .ite ((hpost.trans (hk _)).trans (Dev.noticeIrq_keepsFirings ..)) (hpost.trans (hk _))

theorem Dev.refuseHeld_keepsFirings (q reason kind index : Nat) (d : Dev) : d.KeepsFirings (d.refuseHeld q reason kind index) := by
  unfold Dev.refuseHeld
  dsimp only
  refine .trans ?_ (Dev.settle_keepsFirings q _)
  refine .trans ?_ (Dev.noticeThen_keepsFirings (Dev.completeGrp_keepsFirings q _) _ _ _)
  exact .of_flt rfl

theorem Dev.releaseHeld_keepsFirings (q : Nat) (d : Dev) : d.KeepsFirings (d.releaseHeld q) := by
  unfold Dev.releaseHeld
  dsimp only
  refine .trans ?_ (Dev.settle_keepsFirings q _)
  exact .of_flt rfl

/-! ## An engine that becomes idle, and the end of a scan -/

/-- What a start leaves of an engine's last result, and its enable. -/
structure Engine.sameResult (x y : Engine) : Prop where
  result : y.result = x.result
  scans : y.scans = x.scans
  hit : y.hit = x.hit
  en : y.en = x.en

theorem Engine.sameResult_refl (x : Engine) : x.sameResult x := ⟨rfl, rfl, rfl, rfl⟩

theorem Engine.sameResult_trans {x y z : Engine} (h : x.sameResult y) (h' : y.sameResult z) : x.sameResult z :=
  ⟨h'.result.trans h.result, h'.scans.trans h.scans, h'.hit.trans h.hit, h'.en.trans h.en⟩

/-- What the starts of an engine that becomes idle leave alone. -/
structure Dev.StartsOnly (e : Nat) (d f : Dev) : Prop where
  result : (d.engine e).sameResult (f.engine e)
  others : ∀ k, k ≠ e → f.engine k = d.engine k
  firings : d.KeepsFirings f

theorem Dev.StartsOnly.trans {e : Nat} {a b c : Dev} (h : a.StartsOnly e b) (h' : b.StartsOnly e c) : a.StartsOnly e c :=
  ⟨Engine.sameResult_trans h.result h'.result, fun k hk => (h'.others k hk).trans (h.others k hk), h.firings.trans h'.firings⟩

theorem Dev.StartsOnly.of_engines {e : Nat} {d f : Dev} (h : f.engines = d.engines) (hf : d.KeepsFirings f) : d.StartsOnly e f :=
  ⟨by rw [Dev.engine_congr h]; exact Engine.sameResult_refl _, fun k _ => Dev.engine_congr h k, hf⟩

theorem Dev.startScan_startsOnly (e : Nat) (r : ScanReq) (d : Dev) : d.StartsOnly e (d.startScan e r) := by
  refine ⟨?_, fun k hk => Dev.startScan_ne hk r d, .of_flt rfl⟩
  unfold Dev.startScan
  dsimp only
  rw [Dev.engine_setEngine]
  exact ⟨rfl, rfl, rfl, rfl⟩

theorem Dev.nextScan_startsOnly (e n : Nat) (d : Dev) : d.StartsOnly e (d.nextScan e n) := by
  induction n generalizing d with
  | zero => exact .of_engines rfl (.refl d)
  | succ n ih =>
    unfold Dev.nextScan
    split
    · exact .of_engines rfl (.refl d)
    split
    · exact .of_engines rfl (.refl d)
    · dsimp only
      split
      · exact (Dev.StartsOnly.of_engines (by simp) (Dev.releaseHeld_keepsFirings ..)).trans (Dev.startScan_startsOnly ..)
      · exact (Dev.StartsOnly.of_engines (by simp) (Dev.refuseHeld_keepsFirings ..)).trans (ih _)

theorem Dev.engineIdle_startsOnly (e : Nat) (d : Dev) : d.StartsOnly e (d.engineIdle e) := by
  unfold Dev.engineIdle
  exact (Dev.StartsOnly.of_engines (by simp) d.checkLevels_keepsFirings).trans (Dev.nextScan_startsOnly ..)

/-- An engine that becomes idle stays so where nothing waits for it. -/
theorem Dev.engineIdle_quiet {e : Nat} {d : Dev} (h : d.waiters 0x11 19 e = []) : (d.engineIdle e).engine e = d.engine e := by
  have heng : d.checkLevels.engine e = d.engine e := Dev.engine_congr (by simp) e
  have hwaits := (Dev.checkLevels_holdsFrom d).waiters h
  unfold Dev.engineIdle
  generalize d.checkLevels = f at *
  unfold Dev.nextScan
  split
  · exact heng
  · rw [hwaits]
    exact heng

/-- What the end of a scan leaves in its engine. -/
def Engine.ended (x : Engine) (code : Nat) (st : VState) : Engine :=
  { x with state := st, err := BitVec.ofNat 8 code, parity := false, busy := false, scan := { x.scan with entry := none, inc := false } }

theorem Dev.endScan_spec (e code : Nat) (st : VState) (d : Dev) : (d.endScan e code st).engine e = (d.engine e).ended code st ∧
    (∀ k, k ≠ e → (d.endScan e code st).engine k = d.engine k) ∧ d.HoldsFrom (d.endScan e code st) ∧ d.KeepsFirings (d.endScan e code st) := by
  unfold Dev.endScan
  dsimp only
  obtain ⟨y, hy⟩ : ∃ y, y = (d.engine e).ended code st := ⟨_, rfl⟩
  rw [← Engine.ended, ← hy]
  have hself := Dev.engine_setEngine e y d
  have hne (k : Nat) (hk : k ≠ e) := Dev.engine_setEngine_ne y d hk
  have hq : d.HoldsFrom (d.setEngine e y) := .of_queues rfl
  have hf : d.KeepsFirings (d.setEngine e y) := .of_flt rfl
  generalize d.setEngine e y = f at *
  obtain ⟨g, hg, hgq, hgf, heng⟩ : ∃ g : Dev, (if (d.engine e).scan.inc then f.setReg .cvu e CVU_SEQ (f.reg .cvu e CVU_SEQ + 1) else f) = g ∧
      f.HoldsFrom g ∧ f.KeepsFirings g ∧ g.engines = f.engines :=
    ⟨_, rfl, by split; exact .of_queues rfl; exact .refl f, .ite (.of_flt rfl) (.refl f), by split <;> rfl⟩
  rw [hg]
  have hgeng (k : Nat) : g.engine k = f.engine k := Dev.engine_congr heng k
  split
  · next q grp _ =>
    have hcomp (k : Nat) : (g.completeGrp q grp).engine k = g.engine k := Dev.engine_congr (by simp) k
    exact ⟨by rw [hcomp, hgeng, hself], fun k hk => by rw [hcomp, hgeng, hne k hk],
      (hq.trans hgq).trans (g.completeGrp_holdsFrom ..), (hf.trans hgf).trans (g.completeGrp_keepsFirings ..)⟩
  · exact ⟨by rw [hgeng, hself], fun k hk => by rw [hgeng, hne k hk], hq.trans hgq, hf.trans hgf⟩

/-! ## O48: the state of an engine -/

/-- The device as a write of `CVU_CTL` finds it: the master's arm is spent and the options are stored. -/
def Dev.ctlWritten (d : Dev) (m : Fn) (e : EngineNo) : Dev :=
  (d.setArm (704 + e) m false).setReg .cvu e CVU_CTL (d.view .cvu e CVU_CTL &&& 0x70)

theorem Dev.ctlWritten_spec (d : Dev) (m : Fn) (e : EngineNo) : (∀ k, (d.ctlWritten m e).engine k = d.engine k) ∧
    (d.ctlWritten m e).queues = d.queues ∧ d.HoldsFrom (d.ctlWritten m e) := ⟨fun _ => rfl, rfl, .of_queues rfl⟩

theorem Dev.ctlWritten_reg (d : Dev) (m : Fn) (e : EngineNo) {off : Nat} (h : off ≠ CVU_CTL) (ho : off < 0x1000) :
    (d.ctlWritten m e).reg .cvu e off = d.reg .cvu e off := by
  unfold Dev.ctlWritten
  rw [Dev.reg_setReg_ne]
  · rfl
  · unfold regAt
    unfold CVU_CTL at *
    omega

section
variable {m : Fn} {e : EngineNo} {s : State}

theorem cvuEnable_spec (h : s.dev.mayWriteReg m .cvu e CVU_CTL) (hst : (s.dev.engine e).state = .off) :
    ∃ u, exec (.cvuEnable m e) s = .next u ∧ (u.dev.engine e).en = true ∧
      (s.dev.waiters 0x11 19 e = [] → (u.dev.engine e).state = .idle) ∧
      ∀ k, k ≠ e.val → u.dev.engine k = s.dev.engine k := by
  have he : exec (.cvuEnable m e) s = .next ⟨((s.dev.ctlWritten m e).setEngine e { s.dev.engine e with state := .idle, en := true }).engineIdle e,
      s.pending⟩ := by
    show s.dev! (Dev.fieldWrite m .cvu e CVU_CTL 1 1) = _
    rw [State.dev!_next, Dev.fieldWrite_cvuEnable h, ← Dev.ctlWritten]
    unfold Dev.writeEngineEn
    dsimp only
    rw [(s.dev.ctlWritten_spec m e).1, hst]
  refine ⟨_, he, ?_⟩
  dsimp only
  obtain ⟨heng, -, hholds⟩ := s.dev.ctlWritten_spec m e
  generalize s.dev.ctlWritten m e = d at *
  obtain ⟨x, hx, hxen, hxst⟩ : ∃ x : Engine, { s.dev.engine e with state := .idle, en := true } = x ∧ x.en = true ∧ x.state = .idle :=
    ⟨_, rfl, rfl, rfl⟩
  rw [hx]
  refine ⟨?_, fun hw => ?_, fun k hk => ?_⟩
  · rw [(Dev.engineIdle_startsOnly e _).result.en, Dev.engine_setEngine]
    exact hxen
  · rw [Dev.engineIdle_quiet (d := d.setEngine e x) (show d.waiters 0x11 19 e = [] from hholds.waiters hw), Dev.engine_setEngine]
    exact hxst
  · exact ((Dev.engineIdle_startsOnly e _).others k hk).trans ((Dev.engine_setEngine_ne _ _ hk).trans (heng k))

theorem cvuDisable_spec (h : s.dev.mayWriteReg m .cvu e CVU_CTL)
    (hst : (s.dev.engine e).state = .idle ∨ (s.dev.engine e).state = .running) :
    ∃ u, exec (.cvuDisable m e) s = .next u ∧ (u.dev.engine e).state = .draining ∧ (u.dev.engine e).en = false ∧
      (u.dev.engine e).scan = (s.dev.engine e).scan ∧
      (u.dev.engine e).due = decide ((s.dev.engine e).state = .running ∧ 0 < (s.dev.engine e).scan.left) ∧
      ∀ k, k ≠ e.val → u.dev.engine k = s.dev.engine k := by
  have he : exec (.cvuDisable m e) s = .next ⟨(s.dev.ctlWritten m e).drainEngine e, s.pending⟩ := by
    show s.dev! (Dev.fieldWrite m .cvu e CVU_CTL 1 0) = _
    rw [State.dev!_next, Dev.fieldWrite_cvuDisable h, ← Dev.ctlWritten]
    unfold Dev.writeEngineEn
    dsimp only
    rw [(s.dev.ctlWritten_spec m e).1]
    rcases hst with hst | hst <;> rw [hst]
  refine ⟨_, he, ?_⟩
  dsimp only
  obtain ⟨heng, -, -⟩ := s.dev.ctlWritten_spec m e
  generalize s.dev.ctlWritten m e = d at *
  have hkept (f : Dev) (k : Nat) : (f.refuseScans e).engine k = f.engine k := Dev.engine_congr (by simp) k
  unfold Dev.drainEngine
  dsimp only
  rw [hkept, Dev.engine_setEngine, heng]
  refine ⟨rfl, rfl, rfl, by rw [Bool.decide_and], fun k hk => ?_⟩
  rw [hkept, Dev.engine_setEngine_ne _ _ hk, heng]

/-- A write of `CVU_CTL` that leaves `EN` as it reads leaves the engine in its state. -/
theorem Dev.writeEngineEn_same {d : Dev} {b : Bool} {n : Nat} (hb : b = true) (hst : (d.engine n).state = .idle ∨ (d.engine n).state = .running) :
    d.writeEngineEn n b = d := by
  unfold Dev.writeEngineEn
  dsimp only
  rcases hst with hst | hst <;> rw [hst, hb]

theorem exec_cvuStart (h : s.dev.mayWriteReg m .cvu e CVU_CTL) (hst : (s.dev.engine e).state = .idle ∨ (s.dev.engine e).state = .running)
    (hen : (s.dev.engine e).en = true) : exec (.cvuStart m e) s = .next ⟨(s.dev.ctlWritten m e).cvuKick e m, s.pending⟩ := by
  show s.dev! (Dev.fieldWrite m .cvu e CVU_CTL 0 2) = _
  rw [State.dev!_next, Dev.fieldWrite_cvuStart h, ← Dev.ctlWritten, Dev.writeEngineEn_same hen (by rw [(s.dev.ctlWritten_spec m e).1]; exact hst)]

theorem cvuStart_idle (h : s.dev.mayWriteReg m .cvu e CVU_CTL) (a : Quad) (len : Nat) (ha : s.dev.pair .cvu e CVU_ADDR_LO = a)
    (hlen : (s.dev.pair .cvu e CVU_LEN_LO).toNat % 2 ^ 40 = len) (hst : (s.dev.engine e).state = .idle) (hen : (s.dev.engine e).en = true) :
    ∃ u, exec (.cvuStart m e) s = .next u ∧ (∀ k, k ≠ e.val → u.dev.engine k = s.dev.engine k) ∧
      if s.dev.startOk e a.toNat len then
        (u.dev.engine e).state = .running ∧ (u.dev.engine e).busy = true ∧ (u.dev.engine e).err = 0 ∧
          (u.dev.engine e).scan.addr = a ∧ (u.dev.engine e).scan.left = len ∧
          (u.dev.engine e).scan.seq = s.dev.reg .cvu e CVU_SEQ ∧ (u.dev.engine e).scan.mid = m.val ∧
          (u.dev.engine e).scan.width = s.dev.cvuWidth e
      else u.dev.engine e = { s.dev.engine e with err := 1 } := by
  refine ⟨_, exec_cvuStart h (.inl hst) hen, ?_⟩
  dsimp only
  have hpair (off : Nat) (hoff : off ≠ CVU_CTL ∧ off + 4 ≠ CVU_CTL ∧ off + 4 < 0x1000) :
      (s.dev.ctlWritten m e).pair .cvu e off = s.dev.pair .cvu e off := by
    unfold Dev.pair
    rw [Dev.ctlWritten_reg _ _ _ hoff.1 (by omega), Dev.ctlWritten_reg _ _ _ hoff.2.1 hoff.2.2]
  have haddr := (hpair CVU_ADDR_LO (by decide)).trans ha
  have hl : ((s.dev.ctlWritten m e).pair .cvu e CVU_LEN_LO).toNat % 2 ^ 40 = len := by rw [hpair CVU_LEN_LO (by decide), hlen]
  have hseq := s.dev.ctlWritten_reg m e (off := CVU_SEQ) (by decide) (by decide)
  have hcfg := s.dev.ctlWritten_reg m e (off := CVU_CFG) (by decide) (by decide)
  have hwidth : (s.dev.ctlWritten m e).cvuWidth e = s.dev.cvuWidth e := by unfold Dev.cvuWidth Dev.fld; rw [hcfg]
  have hok : (s.dev.ctlWritten m e).startOk e a.toNat len = s.dev.startOk e a.toNat len := by
    unfold Dev.startOk
    rw [hwidth]
    rfl
  obtain ⟨heng, -, -⟩ := s.dev.ctlWritten_spec m e
  generalize s.dev.ctlWritten m e = d at *
  unfold Dev.cvuKick
  dsimp only
  rw [heng, if_neg (by rw [hst]; decide), haddr, hl, hok]
  by_cases hs : s.dev.startOk e a.toNat len = true
  · rw [if_neg (not_not_intro hs), if_pos hs]
    refine ⟨fun k hk => (Dev.startScan_ne hk _ _).trans (heng k), ?_⟩
    unfold Dev.startScan
    dsimp only
    rw [Dev.engine_setEngine]
    exact ⟨rfl, rfl, rfl, rfl, rfl, hseq, rfl, hwidth⟩
  · rw [if_pos hs, if_neg hs, Dev.engine_setEngine]
    exact ⟨fun k hk => (Dev.engine_setEngine_ne _ _ hk).trans (heng k), rfl⟩

theorem cvuStart_running (h : s.dev.mayWriteReg m .cvu e CVU_CTL) (hst : (s.dev.engine e).state = .running) (hen : (s.dev.engine e).en = true) :
    ∃ u, exec (.cvuStart m e) s = .next u ∧ u.dev.engine e = { s.dev.engine e with ovr := (s.dev.engine e).ovr + 1 } ∧
      ∀ k, k ≠ e.val → u.dev.engine k = s.dev.engine k := by
  refine ⟨_, exec_cvuStart h (.inr hst) hen, ?_⟩
  dsimp only
  obtain ⟨heng, -, -⟩ := s.dev.ctlWritten_spec m e
  generalize s.dev.ctlWritten m e = d at *
  unfold Dev.cvuKick
  dsimp only
  rw [heng, if_pos (by rw [hst]; decide), Dev.engine_setEngine]
  exact ⟨rfl, fun k hk => (Dev.engine_setEngine_ne _ _ hk).trans (heng k)⟩

theorem cvuStop_spec (h : s.dev.mayWriteReg m .cvu e CVU_CTL) (hst : (s.dev.engine e).state = .running) (hen : (s.dev.engine e).en = true)
    (hl : (s.dev.engine e).scan.left ≠ 0) (hw : s.dev.waiters 0x11 19 e = []) :
    ∃ u, exec (.cvuStop m e) s = .next u ∧ (u.dev.engine e).state = .idle ∧ (u.dev.engine e).err = 8 ∧
      (u.dev.engine e).scans = (s.dev.engine e).scans ∧ ∀ k, k ≠ e.val → u.dev.engine k = s.dev.engine k := by
  have he : exec (.cvuStop m e) s = .next ⟨((s.dev.ctlWritten m e).endScan e 8 .idle).engineIdle e, s.pending⟩ := by
    show s.dev! (Dev.fieldWrite m .cvu e CVU_CTL 0 4) = _
    rw [State.dev!_next, Dev.fieldWrite_cvuStop h, ← Dev.ctlWritten,
      Dev.writeEngineEn_same hen (by rw [(s.dev.ctlWritten_spec m e).1]; exact .inr hst), Dev.stopScan, (s.dev.ctlWritten_spec m e).1,
      if_pos ⟨hst, hl⟩]
  refine ⟨_, he, ?_⟩
  dsimp only
  obtain ⟨heng, -, hholds⟩ := s.dev.ctlWritten_spec m e
  generalize s.dev.ctlWritten m e = d at *
  obtain ⟨hself, hne, hend, -⟩ := d.endScan_spec e 8 .idle
  generalize d.endScan e 8 .idle = f at *
  rw [Dev.engineIdle_quiet ((hholds.trans hend).waiters hw), hself, heng]
  exact ⟨rfl, rfl, rfl, fun k hk => ((f.engineIdle_startsOnly e).others k hk).trans ((hne k hk).trans (heng k))⟩

theorem cvuFrel_spec (h : s.dev.mayWriteReg m .cvu e CVU_CTL) (hst : (s.dev.engine e).state = .fenced)
    (ha : s.dev.armed (PType.cvu.page + e) m = true) :
    ∃ u, exec (.cvuFrel m e) s = .next u ∧ u.dev.engine e = { s.dev.engine e with state := .off, en := false } ∧
      ∀ k, k ≠ e.val → u.dev.engine k = s.dev.engine k := by
  have he : exec (.cvuFrel m e) s = .next ⟨(s.dev.ctlWritten m e).releaseEngine e, s.pending⟩ := by
    show s.dev! (Dev.fieldWrite m .cvu e CVU_CTL 0 8) = _
    rw [State.dev!_next, Dev.fieldWrite_cvuFrel h ha, ← Dev.ctlWritten]
    congr 2
    unfold Dev.writeEngineEn
    dsimp only
    rw [(s.dev.ctlWritten_spec m e).1, hst]
  refine ⟨_, he, ?_⟩
  dsimp only
  obtain ⟨heng, -, -⟩ := s.dev.ctlWritten_spec m e
  generalize s.dev.ctlWritten m e = d at *
  unfold Dev.releaseEngine
  dsimp only
  rw [heng, if_pos hst, Dev.engine_setEngine]
  exact ⟨rfl, fun k hk => (Dev.engine_setEngine_ne _ _ hk).trans (heng k)⟩

end

/-! ## O48: the drain of an engine -/

theorem cvuDrainComplete_due {e : EngineNo} {s : State} (hd : (s.dev.engine e).due = true) : exec (.cvuDrainComplete e) s = .next s := by
  show execCvuDrainComplete e s = _
  rw [execCvuDrainComplete, State.dev!_next, show (decide ((s.dev.engine e).state = .draining) && !(s.dev.engine e).due) = false by simp [hd],
    Dev.when_false]

section
variable {e : EngineNo} {s : State} (hst : (s.dev.engine e).state = .draining)
include hst

theorem scanResponse_draining (hd : (s.dev.engine e).due = true) (r : Resp) :
    ∃ u, exec (.scanResponse e r) s = .next u ∧ u.dev.engine e = { s.dev.engine e with due := false } ∧ s.dev.onlyChanges u.dev [.engines] := by
  have he : exec (.scanResponse e r) s = .next ⟨s.dev.setEngine e { s.dev.engine e with due := false }, s.pending⟩ := by
    show execScanResponse e r s = _
    rw [execScanResponse, State.dev!_next]
    dsimp only
    rw [if_pos ⟨hst, hd⟩]
  exact ⟨_, he, Dev.engine_setEngine .., by simp [Dev.onlyChanges_iff]⟩

theorem scanTimeout_draining (hd : (s.dev.engine e).due = true) (hl : 0 < (s.dev.engine e).scan.left)
    (ht : (s.dev.engine e).scan.issued + s.dev.requestTimeout ≤ s.dev.now) :
    ∃ u, exec (.scanTimeout e) s = .next u ∧ u.dev.engine e = { s.dev.engine e with due := false } ∧
      s.dev.onlyChanges u.dev [.engines, .mct] := by
  have he : exec (.scanTimeout e) s = .next ⟨(s.dev.freeTag (384 + e) (s.dev.engine e).scan.mid).setEngine e { s.dev.engine e with due := false },
      s.pending⟩ := by
    show execScanTimeout e s = _
    rw [execScanTimeout, State.dev!_next]
    dsimp only
    rw [decide_eq_true hl, decide_eq_true ht, Bool.and_self, Dev.when_true, if_neg (by rw [hst]; decide), if_pos ⟨hst, hd⟩]
  exact ⟨_, he, Dev.engine_setEngine .., by simp [Dev.onlyChanges_iff]⟩

theorem exec_cvuDrainComplete (hd : (s.dev.engine e).due = false) : exec (.cvuDrainComplete e) s = .next ⟨s.dev.engineDrained e, s.pending⟩ := by
  show execCvuDrainComplete e s = _
  rw [execCvuDrainComplete, State.dev!_next, show (decide ((s.dev.engine e).state = .draining) && !(s.dev.engine e).due) = true by simp [hst, hd],
    Dev.when_true]

end

/-- An engine whose drain has ended, before an enable that waits takes effect. -/
def Dev.engineEnded (e : Nat) (d : Dev) : Dev :=
  let d := d.renewTag (384 + e)
  if (d.engine e).busy then d.endScan e 8 .off else d.setEngine e { d.engine e with state := .off }

theorem Dev.engineEnded_spec (e : Nat) (d : Dev) : ((d.engineEnded e).engine e).state = .off ∧
    ((d.engineEnded e).engine e).scans = (d.engine e).scans ∧ ((d.engine e).busy = true → ((d.engineEnded e).engine e).err = 8) ∧
    (∀ k, k ≠ e → (d.engineEnded e).engine k = d.engine k) ∧ d.HoldsFrom (d.engineEnded e) := by
  have heng (k : Nat) : (d.renewTag (384 + e)).engine k = d.engine k := Dev.engine_congr rfl k
  have hq : d.HoldsFrom (d.renewTag (384 + e)) := .of_queues rfl
  unfold Dev.engineEnded
  dsimp only
  generalize d.renewTag (384 + e) = f at *
  rw [heng]
  by_cases hb : (d.engine e).busy = true
  · rw [if_pos hb]
    obtain ⟨hself, hne, hend, -⟩ := f.endScan_spec e 8 .off
    rw [hself, heng]
    exact ⟨rfl, rfl, fun _ => rfl, fun k hk => (hne k hk).trans (heng k), hq.trans hend⟩
  · rw [if_neg hb, Dev.engine_setEngine]
    exact ⟨rfl, rfl, fun h => absurd h hb, fun k hk => (Dev.engine_setEngine_ne _ _ hk).trans (heng k), hq.trans (.of_queues rfl)⟩

theorem Dev.engineDrained_eq (e : Nat) (d : Dev) : d.engineDrained e =
    if (d.engine e).enPending then ((d.engineEnded e).setEngine e { (d.engineEnded e).engine e with
      enPending := false, flr := false, state := .idle }).engineIdle e
    else (d.engineEnded e).setEngine e { (d.engineEnded e).engine e with enPending := false, flr := false } := rfl

theorem cvuDrainComplete_enable {e : EngineNo} {s : State} (hst : (s.dev.engine e).state = .draining) (hd : (s.dev.engine e).due = false)
    (hp : (s.dev.engine e).enPending = true) (hw : s.dev.waiters 0x11 19 e = []) :
    ∃ u, exec (.cvuDrainComplete e) s = .next u ∧ (u.dev.engine e).state = .idle ∧ (u.dev.engine e).scans = (s.dev.engine e).scans ∧
      ∀ k, k ≠ e.val → u.dev.engine k = s.dev.engine k := by
  refine ⟨_, exec_cvuDrainComplete hst hd, ?_⟩
  dsimp only
  rw [Dev.engineDrained_eq, if_pos hp]
  obtain ⟨-, hscans, -, hne, hholds⟩ := s.dev.engineEnded_spec e
  generalize s.dev.engineEnded e = f at *
  obtain ⟨x, hx, hxst, hxscans⟩ : ∃ x : Engine, { f.engine e with enPending := false, flr := false, state := .idle } = x ∧
    x.state = .idle ∧ x.scans = (s.dev.engine e).scans := ⟨_, rfl, rfl, hscans⟩
  rw [hx, Dev.engineIdle_quiet (d := f.setEngine e x) (show f.waiters 0x11 19 e = [] from hholds.waiters hw), Dev.engine_setEngine]
  exact ⟨hxst, hxscans, fun k hk => ((Dev.engineIdle_startsOnly e _).others k hk).trans ((Dev.engine_setEngine_ne _ _ hk).trans (hne k hk))⟩

theorem cvuDrainComplete_off {e : EngineNo} {s : State} (hst : (s.dev.engine e).state = .draining) (hd : (s.dev.engine e).due = false)
    (hp : (s.dev.engine e).enPending = false) :
    ∃ u, exec (.cvuDrainComplete e) s = .next u ∧ (u.dev.engine e).state = .off ∧ (u.dev.engine e).scans = (s.dev.engine e).scans ∧
      ((s.dev.engine e).busy = true → (u.dev.engine e).err = 8) ∧ ∀ k, k ≠ e.val → u.dev.engine k = s.dev.engine k := by
  refine ⟨_, exec_cvuDrainComplete hst hd, ?_⟩
  dsimp only
  rw [Dev.engineDrained_eq, if_neg (by rw [hp]; decide)]
  obtain ⟨hoff, hscans, herr, hne, -⟩ := s.dev.engineEnded_spec e
  generalize s.dev.engineEnded e = f at *
  rw [Dev.engine_setEngine]
  exact ⟨hoff, hscans, herr, fun k hk => (Dev.engine_setEngine_ne _ _ hk).trans (hne k hk)⟩

/-- Settles O48: enable, disable, start, stop and release by the engine's state, and the end of a drain. -/
theorem enginesEnableStartAndStop : Obligations.EnginesEnableStartAndStop := by
  unfold Obligations.EnginesEnableStartAndStop
  rintro m e x s rfl
  exact ⟨fun h => ⟨cvuEnable_spec h, cvuDisable_spec h, cvuStart_idle h, fun hst hen => ⟨cvuStart_running h hst hen, cvuStop_spec h hst hen⟩,
      cvuFrel_spec h⟩,
    fun hst hd => ⟨cvuDrainComplete_due hd, scanResponse_draining hst hd, scanTimeout_draining hst hd⟩,
    cvuDrainComplete_enable, cvuDrainComplete_off⟩

/-! ## O49: the scan and its end -/

section
variable {e : EngineNo} {s : State}

theorem scanResponse_feeds (hst : (s.dev.engine e).state = .running) (hl : (s.dev.engine e).scan.left ≠ 0) (n : Nat)
    (hn : n = min (s.dev.engine e).scan.left (64 - (s.dev.engine e).scan.addr.toNat % 64))
    (hsv : s.dev.served 3 (s.dev.engine e).scan.addr.toNat n = true)
    (hr : s.dev.readRes (s.dev.engine e).scan.mid (s.dev.engine e).scan.addr.toNat n = .ok) :
    ∃ u, exec (.scanResponse e .ok) s = .next u ∧ s.dev.onlyChanges u.dev [.engines, .mct, .cru, .flt] ∧
      (u.dev.engine e).scan.left = (s.dev.engine e).scan.left - n ∧
      (u.dev.engine e).scan.addr = (s.dev.engine e).scan.addr + BitVec.ofNat 64 n ∧
      (u.dev.engine e).scan.v = BitVec.ofNat 64 (crcFeed (s.dev.engine e).scan.params (s.dev.engine e).scan.v.toNat
        (s.dev.bytes (s.dev.engine e).scan.addr.toNat n)) ∧
      ∀ k, k ≠ e.val → u.dev.engine k = s.dev.engine k := by
  obtain ⟨y, hleft, haddr, hv, he⟩ : ∃ y : Engine, y.scan.left = (s.dev.engine e).scan.left - n ∧
      y.scan.addr = (s.dev.engine e).scan.addr + BitVec.ofNat 64 n ∧
      y.scan.v = BitVec.ofNat 64 (crcFeed (s.dev.engine e).scan.params (s.dev.engine e).scan.v.toNat
        (s.dev.bytes (s.dev.engine e).scan.addr.toNat n)) ∧
      exec (.scanResponse e .ok) s = .next ⟨(s.dev.noteRead (s.dev.engine e).scan.mid false (s.dev.engine e).scan.addr.toNat n).setEngine e y,
        s.pending⟩ := by
    refine ⟨{ s.dev.engine e with scan := { (s.dev.engine e).scan with
      v := BitVec.ofNat 64 (crcFeed (s.dev.engine e).scan.params (s.dev.engine e).scan.v.toNat (s.dev.bytes (s.dev.engine e).scan.addr.toNat n)),
      addr := (s.dev.engine e).scan.addr + BitVec.ofNat 64 n, left := (s.dev.engine e).scan.left - n, issued := s.dev.now } }, ?_, ?_, ?_, ?he⟩
    case he =>
      show execScanResponse e .ok s = _
      rw [execScanResponse, State.dev!_next]
      dsimp only
      rw [show (s.dev.engine e).scan.next = n from hn.symm, if_neg (by rw [hst]; exact fun h => absurd h.1 (by decide)),
        if_neg (by rw [hst]; exact fun h => h.elim (fun h => h rfl) (by omega)), hsv, Dev.when_true, Dev.readFor_ok hr]
    all_goals rfl
  refine ⟨_, he, ?_⟩
  dsimp only
  have heng (k : Nat) : (s.dev.noteRead (s.dev.engine e).scan.mid false (s.dev.engine e).scan.addr.toNat n).engine k = s.dev.engine k :=
    Dev.engine_congr (by simp) k
  refine ⟨by simp [Dev.onlyChanges_iff], ?_, ?_, ?_, fun k hk => (Dev.engine_setEngine_ne _ _ hk).trans (heng k)⟩
  all_goals rw [Dev.engine_setEngine]; assumption

theorem scanTimeout_fails (hst : (s.dev.engine e).state = .running) (hl : (s.dev.engine e).scan.left ≠ 0)
    (ht : (s.dev.engine e).scan.issued + s.dev.requestTimeout ≤ s.dev.now) (hw : s.dev.waiters 0x11 19 e = []) :
    ∃ u, exec (.scanTimeout e) s = .next u ∧ (u.dev.engine e).state = .idle ∧ (u.dev.engine e).err = 5 ∧
      (u.dev.engine e).failAddr = some ((s.dev.engine e).scan.addr &&& 0xFFFFFFFFFFFFFFC0) ∧ (u.dev.engine e).scans = (s.dev.engine e).scans ∧
      (∃ f ∈ u.dev.flt.arrivals, f.src = 481 ∧ f.inst = e.val) ∧ ∀ k, k ≠ e.val → u.dev.engine k = s.dev.engine k := by
  have he : exec (.scanTimeout e) s = .next ⟨(s.dev.freeTag (384 + e) (s.dev.engine e).scan.mid).scanFails e 5, s.pending⟩ := by
    show execScanTimeout e s = _
    rw [execScanTimeout, State.dev!_next]
    dsimp only
    rw [decide_eq_true (by omega), decide_eq_true ht, Bool.and_self, Dev.when_true, if_pos hst]
  refine ⟨_, he, ?_⟩
  dsimp only
  have heng (k : Nat) : (s.dev.freeTag (384 + e) (s.dev.engine e).scan.mid).engine k = s.dev.engine k := Dev.engine_congr rfl k
  have hq : s.dev.HoldsFrom (s.dev.freeTag (384 + e) (s.dev.engine e).scan.mid) := .of_queues rfl
  generalize s.dev.freeTag (384 + e) (s.dev.engine e).scan.mid = d at *
  obtain ⟨f, hself, hne, hqf, hfire, heq⟩ : ∃ f : Dev, f.engine e = { s.dev.engine e with failAddr := some ((s.dev.engine e).scan.addr &&& 0xFFFFFFFFFFFFFFC0) } ∧
      (∀ k, k ≠ e.val → f.engine k = s.dev.engine k) ∧ d.HoldsFrom f ∧ (∃ a ∈ f.flt.arrivals, a.src = 481 ∧ a.inst = e.val) ∧
      d.scanFails e 5 = (f.endScan e 5 .idle).engineIdle e := by
    refine ⟨_, ?_, fun k hk => ?_, ?_, ?_, rfl⟩
    · rw [show ∀ (y : Dev) a b c k, (y.fire a b c).engine k = y.engine k from fun _ _ _ _ _ => rfl, Dev.engine_setEngine, heng]
    · exact (Dev.engine_setEngine_ne _ _ hk).trans (heng k)
    · exact .of_queues rfl
    · exact ⟨_, List.mem_append_right _ (List.mem_singleton_self _), rfl, rfl⟩
  rw [heq]
  obtain ⟨hend, hendne, hqend, hkept⟩ := f.endScan_spec e 5 .idle
  generalize f.endScan e 5 .idle = g at *
  rw [Dev.engineIdle_quiet (((hq.trans hqf).trans hqend).waiters hw), hend, hself]
  obtain ⟨a, ha, hsrc⟩ := hfire
  have hstarts := g.engineIdle_startsOnly e
  exact ⟨rfl, rfl, rfl, rfl, ⟨a, hstarts.firings.kept a (hkept.kept a ha), hsrc⟩, fun k hk => (hstarts.others k hk).trans ((hendne k hk).trans (hne k hk))⟩

theorem Dev.endScan_noticed (n mid : Nat) (x : Notice) (d : Dev) :
    (d.noticeThen mid x (Dev.endScan n 0 .idle)).engine n = (d.engine n).ended 0 .idle ∧
    (∀ k, k ≠ n → (d.noticeThen mid x (Dev.endScan n 0 .idle)).engine k = d.engine k) ∧
    d.KeepsFirings (d.noticeThen mid x (Dev.endScan n 0 .idle)) := by
  have hpost (k : Nat) : (d.post mid x).engine k = d.engine k := Dev.engine_congr (by simp) k
  have hirq (k : Nat) (f : Dev) : (f.noticeIrq mid).engine k = f.engine k := Dev.engine_congr (by simp) k
  have hkept := Dev.noticeThen_keepsFirings (k := Dev.endScan n 0 .idle) (fun d => (d.endScan_spec n 0 .idle).2.2.2) mid x d
  obtain ⟨hself, hne, -, -⟩ := (d.post mid x).endScan_spec n 0 .idle
  have heng : ∀ k, (d.noticeThen mid x (Dev.endScan n 0 .idle)).engine k = ((d.post mid x).endScan n 0 .idle).engine k := fun k => by
    unfold Dev.noticeThen
    dsimp only
    split
    · exact hirq k _
    · rfl
  exact ⟨by rw [heng, hself, hpost], fun k hk => by rw [heng, hne k hk, hpost], hkept⟩

/-- A scan that ends leaves its result, and the mismatch fires, before the next scan starts. -/
theorem Dev.scanEnds_eq (n : Nat) (d : Dev) {res : Quad} {x : Engine} (hx : x = d.engine n)
    (hres : res = BitVec.ofNat 64 (x.scan.params.result x.scan.v.toNat)) :
    ∃ f : Dev, d.scanEnds n = f.engineIdle n ∧ (f.engine n).result = res ∧ (f.engine n).scans = x.scans + 1 ∧
      (x.scan.compare = true → (f.engine n).hit = decide (res = BitVec.ofNat 64 (x.scan.exp.toNat % 2 ^ x.scan.width))) ∧
      (x.scan.compare = true → res ≠ BitVec.ofNat 64 (x.scan.exp.toNat % 2 ^ x.scan.width) →
        ∃ a ∈ f.flt.arrivals, a.src = 480 ∧ a.inst = n) ∧
      ∀ k, k ≠ n → f.engine k = d.engine k := by
  obtain ⟨y, hy⟩ : ∃ y : Engine, y = { x with
      result := res, expUsed := x.scan.exp, seqUsed := x.scan.seq, scans := x.scans + 1,
      hit := if x.scan.compare then res = BitVec.ofNat 64 (x.scan.exp.toNat % 2 ^ x.scan.width) else x.hit } := ⟨_, rfl⟩
  have hyr : y.result = res ∧ y.scans = x.scans + 1 ∧
      (x.scan.compare = true → y.hit = decide (res = BitVec.ofNat 64 (x.scan.exp.toNat % 2 ^ x.scan.width))) := by
    rw [hy]
    exact ⟨rfl, rfl, fun h => by simp [h]⟩
  obtain ⟨hyres, hyscans, hyhit⟩ := hyr
  unfold Dev.scanEnds
  dsimp only
  rw [← hx, ← hres, ← hy]
  have hself := Dev.engine_setEngine n y d
  have hne (k : Nat) (hk : k ≠ n) := Dev.engine_setEngine_ne y d hk
  generalize d.setEngine n y = g at *
  by_cases hbad : (x.scan.compare && res != BitVec.ofNat 64 (x.scan.exp.toNat % 2 ^ x.scan.width)) = true
  · rw [if_pos hbad]
    refine ⟨_, rfl, ?_⟩
    have hfired (b : BitVec 128) : (∀ k, (g.fire 480 n b).engine k = g.engine k) ∧ ∃ a ∈ (g.fire 480 n b).flt.arrivals, a.src = 480 ∧ a.inst = n :=
      ⟨fun _ => rfl, _, List.mem_append_right _ (List.mem_singleton_self _), rfl, rfl⟩
    split
    all_goals
      obtain ⟨heng, a, ha, hsrc⟩ := hfired (dbits 0 res.toNat ||| dbits 64 (BitVec.ofNat 64 (x.scan.exp.toNat % 2 ^ x.scan.width)).toNat)
      generalize g.fire 480 n (dbits 0 res.toNat ||| dbits 64 (BitVec.ofNat 64 (x.scan.exp.toNat % 2 ^ x.scan.width)).toNat) = f at *
      obtain ⟨hend, hendne, hkept⟩ := f.endScan_noticed n x.scan.mid _
      rw [hend, heng, hself]
      exact ⟨hyres, hyscans, hyhit, fun _ _ => ⟨a, hkept.kept a ha, hsrc⟩, fun k hk => (hendne k hk).trans ((heng k).trans (hne k hk))⟩
  · rw [if_neg hbad]
    obtain ⟨hend, hendne, -, -⟩ := g.endScan_spec n 0 .idle
    refine ⟨_, rfl, ?_⟩
    rw [hend, hself]
    exact ⟨hyres, hyscans, hyhit, fun h h' => absurd (by simp [h, h']) hbad, fun k hk => (hendne k hk).trans (hne k hk)⟩

theorem scanEnd_spec (res : Quad) (hst : (s.dev.engine e).state = .running) (hl : (s.dev.engine e).scan.left = 0)
    (hres : res = BitVec.ofNat 64 ((s.dev.engine e).scan.params.result (s.dev.engine e).scan.v.toNat)) :
    ∃ u, exec (.scanEnd e) s = .next u ∧ (u.dev.engine e).result = res ∧ (u.dev.engine e).scans = (s.dev.engine e).scans + 1 ∧
      ((s.dev.engine e).scan.compare = true →
        ((u.dev.engine e).hit = true ↔ res.toNat = (s.dev.engine e).scan.exp.toNat % 2 ^ (s.dev.engine e).scan.width)) ∧
      ((s.dev.engine e).scan.compare = true → res.toNat ≠ (s.dev.engine e).scan.exp.toNat % 2 ^ (s.dev.engine e).scan.width →
        ∃ f ∈ u.dev.flt.arrivals, f.src = 480 ∧ f.inst = e.val) ∧
      ∀ k, k ≠ e.val → u.dev.engine k = s.dev.engine k := by
  have he : exec (.scanEnd e) s = .next ⟨s.dev.scanEnds e, s.pending⟩ := by
    show execScanEnd e s = _
    rw [execScanEnd, State.dev!_next, show (decide ((s.dev.engine e).state = .running) && decide ((s.dev.engine e).scan.left = 0)) = true by
      simp [hst, hl], Dev.when_true]
  refine ⟨_, he, ?_⟩
  dsimp only
  obtain ⟨f, heq, hresult, hscans, hhit, hfire, hne⟩ := s.dev.scanEnds_eq e rfl hres
  have hlt : (s.dev.engine e).scan.exp.toNat % 2 ^ (s.dev.engine e).scan.width < 2 ^ 64 :=
    lt_of_le_of_lt (Nat.mod_le _ _) (s.dev.engine e).scan.exp.isLt
  have hsame : res = BitVec.ofNat 64 ((s.dev.engine e).scan.exp.toNat % 2 ^ (s.dev.engine e).scan.width) ↔
      res.toNat = (s.dev.engine e).scan.exp.toNat % 2 ^ (s.dev.engine e).scan.width := by
    rw [← BitVec.toNat_inj, BitVec.toNat_ofNat, Nat.mod_eq_of_lt hlt]
  have hstarts := f.engineIdle_startsOnly e
  rw [heq, hstarts.result.result, hstarts.result.scans, hstarts.result.hit]
  refine ⟨hresult, hscans, fun h => ?_, fun h h' => ?_, fun k hk => (hstarts.others k hk).trans (hne k hk)⟩
  · rw [hhit h, decide_eq_true_iff, hsame]
  · obtain ⟨a, ha, hsrc⟩ := hfire h (fun hr => h' (hsame.mp hr))
    exact ⟨a, hstarts.firings.kept a ha, hsrc⟩

theorem cvuEngineParity_none (h : (s.dev.engine e).state = .fenced ∨ (s.dev.engine e).parity = true) : exec (.cvuEngineParity e) s = .next s := by
  show execCvuEngineParity e s = _
  rw [execCvuEngineParity, State.dev!_next]
  dsimp only
  rw [show (decide ((s.dev.engine e).state ≠ .fenced) && !(s.dev.engine e).parity) = false by rcases h with h | h <;> simp [h], Dev.when_false]

theorem Dev.refuseWaiters_keepsFirings (op hi kind u : Nat) (d : Dev) : d.KeepsFirings (d.refuseWaiters op hi kind u) :=
  Dev.foldl_keepsFirings (fun d q => d.refuseHeld_keepsFirings q 0x21 kind u) _ d

theorem cvuEngineParity_fires (hst : (s.dev.engine e).state ≠ .fenced) (hp : (s.dev.engine e).parity = false) :
    ∃ u, exec (.cvuEngineParity e) s = .next u ∧ (∃ f ∈ u.dev.flt.arrivals, f.src = 482 ∧ f.inst = e.val) ∧
      (u.dev.engine e).state = (if s.dev.fences 482 = true ∧ (s.dev.engine e).state ≠ .off then .fenced else (s.dev.engine e).state) ∧
      ∀ k, k ≠ e.val → u.dev.engine k = s.dev.engine k := by
  obtain ⟨d, heng, ⟨a, ha, hsrc⟩, he⟩ : ∃ d : Dev, (∀ k, d.engine k = s.dev.engine k) ∧ (∃ f ∈ d.flt.arrivals, f.src = 482 ∧ f.inst = e.val) ∧
      exec (.cvuEngineParity e) s = .next ⟨if s.dev.fences 482 = true ∧ (s.dev.engine e).state ≠ .off then
        let f := if (s.dev.engine e).busy then (d.freeTag (384 + e) (s.dev.engine e).scan.mid).endScan e 8 .fenced
          else d.setEngine e { s.dev.engine e with state := .fenced }
        (f.setEngine e { f.engine e with enPending := false, due := false }).refuseScans e
        else d.setEngine e { s.dev.engine e with parity := true }, s.pending⟩ := by
    refine ⟨s.dev.fire 482 e 0, ?_, ?_, ?he⟩
    case he =>
      show execCvuEngineParity e s = _
      rw [execCvuEngineParity, State.dev!_next]
      dsimp only
      rw [show (decide ((s.dev.engine e).state ≠ .fenced) && !(s.dev.engine e).parity) = true by simp [hst, hp], Dev.when_true]
      rfl
    · exact fun _ => rfl
    · exact ⟨_, List.mem_append_right _ (List.mem_singleton_self _), rfl, rfl⟩
  refine ⟨_, he, ?_⟩
  dsimp only
  by_cases hfen : s.dev.fences 482 = true ∧ (s.dev.engine e).state ≠ .off
  · rw [if_pos hfen, if_pos hfen]
    obtain ⟨f, hf, hfst, hfne, hkept⟩ : ∃ f : Dev, (if (s.dev.engine e).busy then (d.freeTag (384 + e) (s.dev.engine e).scan.mid).endScan e 8 .fenced
        else d.setEngine e { s.dev.engine e with state := .fenced }) = f ∧ (f.engine e).state = .fenced ∧
        (∀ k, k ≠ e.val → f.engine k = s.dev.engine k) ∧ d.KeepsFirings f := by
      refine ⟨_, rfl, ?_⟩
      split
      · have hfree (k : Nat) : (d.freeTag (384 + e) (s.dev.engine e).scan.mid).engine k = d.engine k := rfl
        have hkept : d.KeepsFirings (d.freeTag (384 + e) (s.dev.engine e).scan.mid) := .of_flt rfl
        generalize d.freeTag (384 + e) (s.dev.engine e).scan.mid = g at *
        obtain ⟨hself, hne, -, hend⟩ := g.endScan_spec e 8 .fenced
        rw [hself]
        exact ⟨rfl, fun k hk => (hne k hk).trans ((hfree k).trans (heng k)), hkept.trans hend⟩
      · rw [Dev.engine_setEngine]
        exact ⟨rfl, fun k hk => (Dev.engine_setEngine_ne _ _ hk).trans (heng k), .of_flt rfl⟩
    rw [hf]
    have hrefuse (g : Dev) (k : Nat) : (g.refuseScans e).engine k = g.engine k := Dev.engine_congr (by simp) k
    rw [hrefuse, Dev.engine_setEngine]
    refine ⟨⟨a, ?_, hsrc⟩, hfst, fun k hk => (hrefuse _ k).trans ((Dev.engine_setEngine_ne _ _ hk).trans (hfne k hk))⟩
    exact (Dev.refuseWaiters_keepsFirings ..).kept a (hkept.kept a ha)
  · rw [if_neg hfen, if_neg hfen, Dev.engine_setEngine]
    exact ⟨⟨a, ha, hsrc⟩, rfl, fun k hk => (Dev.engine_setEngine_ne _ _ hk).trans (heng k)⟩

end

/-! ## O49: the witness table -/

/-- A write of the witness table changes no more of a region before the write than the words that wait to be written with it. -/
theorem Dev.freshen_spec (i w : Nat) (d : Dev) : (∃ l, (d.freshen i w).region i = { d.region i with fresh := l }) ∧
    ∀ n, n ≠ i → (d.freshen i w).region n = d.region n := by
  unfold Dev.freshen
  dsimp only
  split
  · exact ⟨⟨_, rfl⟩, fun _ _ => rfl⟩
  split
  · exact ⟨⟨_, FMap.get_put_same ..⟩, fun n hn => FMap.get_put_ne _ _ _ hn⟩
  · exact ⟨⟨_, FMap.get_put_same ..⟩, fun n hn => FMap.get_put_ne _ _ _ hn⟩

theorem witnessWrite_spec (r : RegionNo) (k : Fin 16) (w : Word) (x : Region) (s : State) (hx : s.dev.region r = x)
    (h : s.dev.mayWrite 0 (0x1500000 + 64 * r + 4 * k)) :
    ∃ u, exec (.witnessWrite 0 r k w) s = .next u ∧
      (∀ n, n ≠ r.val → u.dev.region n = s.dev.region n) ∧
      (u.dev.region r).words = x.words ∧
      if s.dev.flg .cvu 0 CVU_WCTL 1 = true ∧ bit (x.asRead 0) 0 = true ∧ k.val ≠ 10 ∧ k.val ≠ 11 then u.dev.region r = x
      else if k.val ≤ 9 then
        (u.dev.region r).asRead k = w &&& regionMask k ∧ (∀ j, j ≠ k.val → (u.dev.region r).asRead j = x.asRead j) ∧
          (u.dev.region r).expect = x.expect
      else if k.val = 10 then (u.dev.region r).heldLo = some w ∧ (u.dev.region r).expect = x.expect
      else if k.val = 11 then (u.dev.region r).expect = quad (x.heldLo.getD (lo32 x.expect)) w
      else (u.dev.region r).expect = x.expect ∧ ∀ j, (u.dev.region r).asRead j = x.asRead j := by
  have he : exec (.witnessWrite 0 r k w) s = .next ⟨s.dev.writeWitness r k w, s.pending⟩ := by
    show s.dev! (Dev.busWrite 0 (0x1500000 + 64 * r + 4 * k) w) = _
    rw [State.dev!_next, Dev.busWrite_witness h]
  refine ⟨_, he, ?_⟩
  dsimp only
  unfold Dev.writeWitness
  dsimp only
  rw [hx]
  by_cases hlock : s.dev.flg .cvu 0 CVU_WCTL 1 = true ∧ bit (x.asRead 0) 0 = true ∧ k.val ≠ 10 ∧ k.val ≠ 11
  · obtain ⟨h₁, h₂, h₃⟩ := hlock
    rw [if_pos ⟨by rw [h₁, h₂]; rfl, h₃⟩, hx, if_pos ⟨h₁, h₂, h₃⟩]
    exact ⟨fun _ _ => rfl, rfl, rfl⟩
  rw [if_neg hlock, if_neg fun h => hlock ⟨(Bool.and_eq_true _ _ ▸ h.1).1, (Bool.and_eq_true _ _ ▸ h.1).2, h.2⟩]
  obtain ⟨⟨l, hself⟩, hne⟩ := s.dev.freshen_spec r k
  rw [hx] at hself
  generalize s.dev.freshen r k = d at *
  have hset (y : Region) : (d.setRegion r y).region r = y := FMap.get_put_same ..
  have hsetne (y : Region) (n : Nat) (hn : n ≠ r.val) : (d.setRegion r y).region n = s.dev.region n :=
    (FMap.get_put_ne _ _ _ hn).trans (hne n hn)
  rw [hself]
  by_cases h9 : k.val ≤ 9
  · rw [if_pos h9, if_pos h9, hset]
    refine ⟨hsetne _, rfl, ?_, fun j hj => ?_, rfl⟩
    · unfold Region.asRead
      dsimp only
      rw [FMap.get_put_same]
      rfl
    · unfold Region.asRead
      dsimp only
      rw [FMap.get_put_ne _ _ _ hj]
      rfl
  rw [if_neg h9, if_neg h9]
  by_cases h10 : k.val = 10
  · rw [if_pos h10, if_pos h10, hset]
    exact ⟨hsetne _, rfl, rfl, rfl⟩
  rw [if_neg h10, if_neg h10]
  by_cases h11 : k.val = 11
  · rw [if_pos h11, if_pos h11, hset]
    exact ⟨hsetne _, rfl, rfl⟩
  · rw [if_neg h11, if_neg h11, hself]
    exact ⟨hne, rfl, rfl, fun _ => rfl⟩

/-- Settles O49: the feeding of a granule, the time-out, the end of a scan, the parity error, and the witness table. -/
theorem scansFeedCompareAndFail : Obligations.ScansFeedCompareAndFail := by
  unfold Obligations.ScansFeedCompareAndFail
  refine ⟨?_, witnessWrite_spec⟩
  rintro e x s rfl
  exact ⟨fun hst hl => ⟨scanResponse_feeds hst hl, scanTimeout_fails hst hl⟩, scanEnd_spec, cvuEngineParity_none, cvuEngineParity_fires⟩

end Sys2Proof.Machine
end

section
/-!
PROOF of O47: Marver starts, writes rows, waits at the beam gate, and ends.
-/
namespace Sys2Proof.Machine
set_option Elab.async false

/-! ## The start and the end of an operation -/

theorem FMap.get_foldl_put {α : Type} [DecidableEq α] (z : Nat → α) (f : Nat → α) (l : List Nat) (m : FMap α) (k : Nat) :
    FMap.get z (l.foldl (fun m o => FMap.put z m o (f o)) m) k = if k ∈ l then f k else FMap.get z m k := by
  induction l generalizing m with
  | nil => rfl
  | cons o l ih =>
    rw [List.foldl_cons, ih]
    by_cases hk : k ∈ l
    · rw [if_pos hk, if_pos (List.mem_cons_of_mem _ hk)]
    · rw [if_neg hk]
      by_cases ho : k = o
      · rw [if_pos (by simp [ho]), ho, FMap.get_put_same]
      · rw [if_neg (by simp [ho, hk]), FMap.get_put_ne _ _ _ ho]

/-- What the end of an operation leaves in Marver. -/
def Marver.ended (m : Marver) (code : Nat) : Marver :=
  { m with state := .idle, err := BitVec.ofNat 8 code, starved := false, evt := m.evt ||| (if code = 0 then 1 else 5), ops := if code = 0 then m.ops + 1 else m.ops }

theorem Dev.mrvEnd_spec (code : Nat) (d : Dev) : (d.mrvEnd code).mrv = d.mrv.ended code ∧ (d.mrvEnd code).mem = d.mem := by
  refine ⟨?_, by simp⟩
  unfold Dev.mrvEnd
  dsimp only
  rw [show ∀ e : Dev, e.mrvEndMessage.mrv = e.mrv from fun e => by simp]
  rfl

theorem Dev.mrvFails_spec (code a : Nat) (d : Dev) : (d.mrvFails code a).mrv = { d.mrv with failAddr := BitVec.ofNat 64 a }.ended code ∧
    (d.mrvFails code a).mem = d.mem := by
  unfold Dev.mrvFails
  obtain ⟨h, hm⟩ := Dev.mrvEnd_spec code (({ d with mrv := { d.mrv with failAddr := BitVec.ofNat 64 a } } : Dev).fire 448 0
    (dbits 0 (a % 2 ^ 64) ||| dbits 64 code))
  exact ⟨h, hm⟩

/-- What the beginning of a row leaves alone, and whether the row is held. -/
theorem Dev.beginRow_spec (d : Dev) : d.beginRow.mrv.op = d.mrv.op ∧ d.beginRow.mrv.ops = d.mrv.ops ∧ d.beginRow.mrv.rows = d.mrv.rows ∧
    d.beginRow.mrv.err = d.mrv.err ∧ d.beginRow.mrv.wrote = false ∧ d.beginRow.mem = d.mem ∧
    d.beginRow.mrv.state = (if d.beginRow.gateOpen then .running else .gated) := ⟨rfl, rfl, rfl, rfl, rfl, rfl, rfl⟩

/-- Marver as START loads its operation registers. -/
def Dev.mrvLoaded (d : Dev) : Marver :=
  { d.mrv with err := 0, startErr := false, op := mrvOpRegs.foldl (fun l o => FMap.put (fun _ => 0) l o (d.reg .mrv 0 o)) [] }

theorem Dev.mrvLoaded_reg (d : Dev) {o : Nat} (h : o ∈ mrvOpRegs) : d.mrvLoaded.reg o = d.reg .mrv 0 o := by
  unfold Dev.mrvLoaded Marver.reg
  dsimp only
  rw [FMap.get_foldl_put, if_pos h]

/-- An idle Marver that has loaded its operation: the checks, and the first row. -/
def Dev.mrvChecked (d : Dev) (m : Marver) : Dev :=
  if m.fieldBad then Dev.mrvEnd 1 { d with mrv := m }
  else if m.alignBad then Dev.mrvEnd 2 { d with mrv := m }
  else Dev.beginRow { d with mrv := { m with
    rows := 0, wmarked := false, gate := Dev.gateStart { d with mrv := m } (bits (m.reg MRV_GATE) 6 0) } }

theorem Dev.startMarver_idle {d : Dev} (h : d.mrv.state = .idle) : d.startMarver = d.mrvChecked d.mrvLoaded := if_neg (not_not_intro h)

theorem Marver.fieldBad_congr {m m' : Marver} (h : m'.op = m.op) : m'.fieldBad = m.fieldBad ∧ m'.alignBad = m.alignBad := by
  have hreg : m'.reg = m.reg := by unfold Marver.reg; rw [h]
  constructor
  · unfold Marver.fieldBad Marver.formatsOk Marver.w Marver.h Marver.enc Marver.kind Marver.xdir Marver.ydir Marver.reads Marver.pitch Marver.sfmt
      Marver.dfmt Marver.kind
    rw [hreg]
  · unfold Marver.alignBad Marver.enc Marver.reads Marver.pitch Marver.sfmt Marver.addr Marver.dfmt Marver.kind
    rw [hreg]

/-- What a START of an idle Marver leaves. -/
def Dev.MrvStarted (d u : Dev) : Prop :=
  (∀ o ∈ mrvOpRegs, u.mrv.reg o = d.reg .mrv 0 o) ∧ u.mrv.ops = d.mrv.ops ∧
    if u.mrv.fieldBad then u.mrv.state = .idle ∧ u.mrv.err = 1
    else if u.mrv.alignBad then u.mrv.state = .idle ∧ u.mrv.err = 2
    else u.mrv.rows = 0 ∧ u.mrv.err = 0 ∧ u.mrv.state = (if u.gateOpen then .running else .gated)

section
variable {d u : Dev} {x : Marver} (hreg : ∀ o ∈ mrvOpRegs, x.reg o = d.reg .mrv 0 o) (hops : x.ops = d.mrv.ops)
include hreg hops

theorem Dev.MrvStarted.of_field (hm : u.mrv = x.ended 1) (hf : x.fieldBad = true) : d.MrvStarted u := by
  unfold Dev.MrvStarted
  rw [hm, (Marver.fieldBad_congr (show (x.ended 1).op = x.op from rfl)).1, if_pos hf]
  exact ⟨hreg, hops, rfl, rfl⟩

theorem Dev.MrvStarted.of_align (hm : u.mrv = x.ended 2) (hf : ¬ x.fieldBad = true) (ha : x.alignBad = true) : d.MrvStarted u := by
  unfold Dev.MrvStarted
  obtain ⟨hfield, halign⟩ := Marver.fieldBad_congr (show (x.ended 2).op = x.op from rfl)
  rw [hm, hfield, halign, if_neg hf, if_pos ha]
  exact ⟨hreg, hops, rfl, rfl⟩

theorem Dev.MrvStarted.of_row (hop : u.mrv.op = x.op) (hops' : u.mrv.ops = x.ops) (hrows : u.mrv.rows = 0) (herr : u.mrv.err = 0)
    (hst : u.mrv.state = (if u.gateOpen then .running else .gated)) (hf : ¬ x.fieldBad = true) (ha : ¬ x.alignBad = true) : d.MrvStarted u := by
  unfold Dev.MrvStarted
  obtain ⟨hfield, halign⟩ := Marver.fieldBad_congr hop
  rw [hfield, halign, if_neg hf, if_neg ha]
  exact ⟨fun o ho => by rw [← hreg o ho, Marver.reg, Marver.reg, hop], hops'.trans hops, hrows, herr, hst⟩

end

section
variable {m : Fn} {s : State} (h : s.dev.mayWriteReg m .mrv 0 MRV_CTL)
include h

theorem exec_mrvStart : exec (.mrvStart m) s = .next ⟨s.dev.startMarver, s.pending⟩ := by
  show s.dev! (Dev.regWrite m .mrv 0 MRV_CTL 1) = _
  rw [State.dev!_next, Dev.regWrite_mrvStart h]

theorem exec_mrvAbort : exec (.mrvAbort m) s = .next ⟨s.dev.abortMarver, s.pending⟩ := by
  show s.dev! (Dev.regWrite m .mrv 0 MRV_CTL 2) = _
  rw [State.dev!_next, Dev.regWrite_mrvAbort h]

theorem mrvStart_busy (hst : s.dev.mrv.state ≠ .idle) :
    ∃ u, exec (.mrvStart m) s = .next u ∧ u.dev.mrv = { s.dev.mrv with startErr := true } ∧ s.dev.onlyChanges u.dev [.mrv] := by
  have hs : s.dev.startMarver = { s.dev with mrv := { s.dev.mrv with startErr := true } } := by
    unfold Dev.startMarver
    dsimp only
    rw [if_pos hst]
  exact ⟨_, (exec_mrvStart h).trans (by rw [hs]), rfl, by simp [Dev.onlyChanges_iff]⟩

theorem mrvStart_idle (hst : s.dev.mrv.state = .idle) :
    ∃ u, exec (.mrvStart m) s = .next u ∧ (∀ o ∈ mrvOpRegs, u.dev.mrv.reg o = s.dev.reg .mrv 0 o) ∧ u.dev.mrv.ops = s.dev.mrv.ops ∧
      if u.dev.mrv.fieldBad then u.dev.mrv.state = .idle ∧ u.dev.mrv.err = 1
      else if u.dev.mrv.alignBad then u.dev.mrv.state = .idle ∧ u.dev.mrv.err = 2
      else u.dev.mrv.rows = 0 ∧ u.dev.mrv.err = 0 ∧ u.dev.mrv.state = (if u.dev.gateOpen then .running else .gated) := by
  have hreg : ∀ o ∈ mrvOpRegs, s.dev.mrvLoaded.reg o = s.dev.reg .mrv 0 o := fun o => s.dev.mrvLoaded_reg
  have hops : s.dev.mrvLoaded.ops = s.dev.mrv.ops := rfl
  have herr : s.dev.mrvLoaded.err = 0 := rfl
  refine ⟨_, exec_mrvStart h, ?_⟩
  show s.dev.MrvStarted s.dev.startMarver
  rw [Dev.startMarver_idle hst]
  generalize s.dev.mrvLoaded = x at *
  unfold Dev.mrvChecked
  by_cases hf : x.fieldBad = true
  · rw [if_pos hf]
    exact .of_field hreg hops (Dev.mrvEnd_spec 1 { s.dev with mrv := x }).1 hf
  rw [if_neg hf]
  by_cases ha : x.alignBad = true
  · rw [if_pos ha]
    exact .of_align hreg hops (Dev.mrvEnd_spec 2 { s.dev with mrv := x }).1 hf ha
  · rw [if_neg ha]
    generalize Dev.gateStart _ _ = g
    obtain ⟨hop, hops', hrows, herr', -, -, hstate⟩ := Dev.beginRow_spec { s.dev with mrv := { x with rows := 0, wmarked := false, gate := g } }
    exact .of_row hreg hops hop hops' hrows (herr'.trans herr) hstate hf ha

theorem mrvAbort_running (hst : s.dev.mrv.state = .running) :
    ∃ u, exec (.mrvAbort m) s = .next u ∧ u.dev.mrv = { s.dev.mrv with state := .aborting } ∧ s.dev.onlyChanges u.dev [.mrv] := by
  have hs : s.dev.abortMarver = { s.dev with mrv := { s.dev.mrv with state := .aborting } } := by
    unfold Dev.abortMarver
    rw [hst]
  exact ⟨_, (exec_mrvAbort h).trans (by rw [hs]), rfl, by simp [Dev.onlyChanges_iff]⟩

theorem mrvAbort_gated (hst : s.dev.mrv.state = .gated) :
    ∃ u, exec (.mrvAbort m) s = .next u ∧ u.dev.mrv.state = .idle ∧ u.dev.mrv.err = 8 ∧ u.dev.mem = s.dev.mem := by
  have hs : s.dev.abortMarver = s.dev.mrvFails 8 (s.dev.mrv.dstAddr 0 s.dev.mrv.line) := by
    unfold Dev.abortMarver
    rw [hst]
  refine ⟨_, (exec_mrvAbort h).trans (by rw [hs]), ?_⟩
  dsimp only
  obtain ⟨hm, hmem⟩ := s.dev.mrvFails_spec 8 (s.dev.mrv.dstAddr 0 s.dev.mrv.line)
  rw [hm]
  exact ⟨rfl, rfl, hmem⟩

end

/-! ## The end of a row -/

theorem Dev.mrvWatermark_spec (d : Dev) : (∃ w e, d.mrvWatermark.mrv = { d.mrv with wmarked := w, evt := e }) ∧ d.mrvWatermark.mem = d.mem := by
  refine ⟨?_, by simp⟩
  unfold Dev.mrvWatermark
  dsimp only
  split
  · exact ⟨_, _, rfl⟩
  · have hmsix (f v : Nat) (e : Dev) : (e.msix f v).mrv = e.mrv := by simp
    split
    · exact ⟨_, _, hmsix ..⟩
    · exact ⟨_, _, rfl⟩

/-- A row is complete, and Marver as it then stands: the operation ends, or the next row begins. -/
def Dev.rowCompleted (d : Dev) (m : Marver) : Dev :=
  if m.h ≤ m.rows then
    if d.mrv.state = .aborting then Dev.mrvFails 8 (m.dstAddr 0 (m.h - 1)) ({ d with mrv := m } : Dev).mrvWatermark
    else Dev.mrvEnd 0 ({ d with mrv := m } : Dev).mrvWatermark
  else if d.mrv.state = .aborting then Dev.mrvFails 8 (m.dstAddr 0 m.line) ({ d with mrv := m } : Dev).mrvWatermark
  else Dev.beginRow ({ d with mrv := m } : Dev).mrvWatermark

/-- What the end of a row of `m` leaves: the operation ended, or its next row begun. -/
def Marver.RowDone (m : Marver) (u : Dev) : Prop :=
  if m.h ≤ m.rows then u.mrv.state = .idle ∧ u.mrv.err = 0 ∧ u.mrv.ops = m.ops + 1
  else u.mrv.wrote = false ∧ u.mrv.ops = m.ops ∧ u.mrv.state = (if u.gateOpen then .running else .gated)

theorem Marver.RowDone.of_ended {m y : Marver} {u : Dev} (h : u.mrv = y.ended 0) (hops : y.ops = m.ops) (hl : m.h ≤ m.rows) : m.RowDone u := by
  unfold Marver.RowDone
  rw [if_pos hl, h]
  exact ⟨rfl, rfl, by rw [← hops]; rfl⟩

/-- A row of a running operation is complete: Marver holds the count of rows, memory stands, and the operation ends or goes on. -/
theorem Dev.rowCompleted_spec (d : Dev) (m : Marver) (hst : d.mrv.state = .running) : (d.rowCompleted m).mrv.rows = m.rows ∧
    (d.rowCompleted m).mem = d.mem ∧ m.RowDone (d.rowCompleted m) := by
  obtain ⟨⟨w, e, hmrv⟩, hmem⟩ := Dev.mrvWatermark_spec { d with mrv := m }
  have hrows : (Dev.mrvWatermark { d with mrv := m }).mrv.rows = m.rows := by rw [hmrv]
  have hops : (Dev.mrvWatermark { d with mrv := m }).mrv.ops = m.ops := by rw [hmrv]
  have hrun : ¬ d.mrv.state = .aborting := by rw [hst]; decide
  unfold Dev.rowCompleted
  rw [if_neg hrun, if_neg hrun]
  generalize Dev.mrvWatermark { d with mrv := m } = f at *
  split
  · next hl =>
    obtain ⟨hend, hmem'⟩ := f.mrvEnd_spec 0
    exact ⟨(congrArg Marver.rows hend).trans hrows, hmem'.trans hmem, .of_ended hend hops hl⟩
  · next hl =>
    obtain ⟨-, hops', hrows', -, hwrote, hmem', hstate⟩ := f.beginRow_spec
    refine ⟨hrows'.trans hrows, hmem'.trans hmem, ?_⟩
    unfold Marver.RowDone
    rw [if_neg hl]
    exact ⟨hwrote, hops'.trans hops, hstate⟩

theorem mrvRowComplete_spec {s : State} (hst : s.dev.mrv.state = .running) (hw : s.dev.mrv.wrote = true) :
    ∃ u, exec .mrvRowComplete s = .next u ∧ u.dev.mrv.rows = s.dev.mrv.rows + s.dev.mrv.unit ∧ u.dev.mem = s.dev.mem ∧
      if s.dev.mrv.h ≤ s.dev.mrv.rows + s.dev.mrv.unit then u.dev.mrv.state = .idle ∧ u.dev.mrv.err = 0 ∧ u.dev.mrv.ops = s.dev.mrv.ops + 1
      else u.dev.mrv.wrote = false ∧ u.dev.mrv.ops = s.dev.mrv.ops ∧ u.dev.mrv.state = (if u.dev.gateOpen then .running else .gated) := by
  have he : exec .mrvRowComplete s = .next ⟨s.dev.rowCompleted { s.dev.mrv with rows := s.dev.mrv.rows + s.dev.mrv.unit, wrote := false },
      s.pending⟩ := by
    show s.dev! (fun d => d.when ((d.mrv.state = .running || d.mrv.state = .aborting) && d.mrv.wrote) fun d =>
      d.rowCompleted { d.mrv with rows := d.mrv.rows + d.mrv.unit, wrote := false }) = _
    rw [State.dev!_next]
    dsimp only
    rw [show ((decide (s.dev.mrv.state = .running) || decide (s.dev.mrv.state = .aborting)) && s.dev.mrv.wrote) = true by simp [hst, hw],
      Dev.when_true]
  obtain ⟨hrows, hmem, hdone⟩ := s.dev.rowCompleted_spec { s.dev.mrv with rows := s.dev.mrv.rows + s.dev.mrv.unit, wrote := false } hst
  exact ⟨_, he, hrows, hmem, hdone⟩

theorem gateRelease_spec {s : State} (hst : s.dev.mrv.state = .gated) (ho : s.dev.gateOpen = true) :
    ∃ u, exec .gateRelease s = .next u ∧ u.dev.mrv = { s.dev.mrv with state := .running, waitSince := s.dev.now } ∧ s.dev.onlyChanges u.dev [.mrv] := by
  have he : exec .gateRelease s = .next ⟨{ s.dev with mrv := { s.dev.mrv with state := .running, waitSince := s.dev.now } }, s.pending⟩ := by
    show execGateRelease s = _
    rw [execGateRelease, State.dev!_next, show (decide (s.dev.mrv.state = .gated) && s.dev.gateOpen) = true by simp [hst, ho], Dev.when_true]
  exact ⟨_, he, rfl, by simp [Dev.onlyChanges_iff]⟩

/-! ## A row's pixels -/

theorem Dev.setBytes_eq (a : Nat) (bs : List Byte) (d : Dev) : ∃ m, d.setBytes a bs = { d with mem := m } := by
  induction bs generalizing a d with
  | nil => exact ⟨_, rfl⟩
  | cons b bs ih =>
    obtain ⟨m, h⟩ := ih (a + 1) (d.setByte a b)
    exact ⟨m, h⟩

/-- A store changes of what decides a later write no more than marks that it clears. -/
theorem Dev.store_marks (a : Nat) (bs : List Byte) (d : Dev) : ∃ m p g o, d.store a bs = { d with
    mem := m, mct := { d.mct with poison := p }, cru := { d.cru with badGroups := g }, hif := { d.hif with out := o } } ∧
    (∀ t ∈ p, t ∈ d.mct.poison) ∧ (∀ t ∈ g, t ∈ d.cru.badGroups) := by
  obtain ⟨m, hm⟩ := d.setBytes_eq a bs
  unfold Dev.store
  dsimp only
  rw [hm]
  split
  · exact ⟨_, _, _, _, rfl, fun t ht => (List.mem_filter.mp ht).1, fun _ h => h⟩
  · exact ⟨_, _, _, _, rfl, fun _ h => h, fun t ht => (List.mem_filter.mp ht).1⟩
  · exact ⟨_, _, _, _, rfl, fun _ h => h, fun _ h => h⟩
  · exact ⟨_, _, _, _, rfl, fun _ h => h, fun _ h => h⟩

/-- A write that may be made may still be made after a store. -/
theorem Dev.writeRes_store {mid b n : Nat} {d : Dev} (h : d.writeRes mid b n = .ok) (a : Nat) (bs : List Byte) :
    (d.store a bs).writeRes mid b n = .ok := by
  obtain ⟨m, p, g, o, he, hp, hg⟩ := d.store_marks a bs
  rw [he]
  have hbad {t : Nat} (ht : Dev.atomBad { d with
      mem := m, mct := { d.mct with poison := p }, cru := { d.cru with badGroups := g }, hif := { d.hif with out := o } } t = true) :
      d.atomBad t = true := by
    have ht : (p.contains t || decide (2 ≤ (d.unavailable t).length)) = true := ht
    unfold Dev.atomBad
    simp only [Bool.or_eq_true, List.contains_iff_mem] at ht ⊢
    exact ht.imp_left (hp t)
  have hall : Dev.allowed { d with
      mem := m, mct := { d.mct with poison := p }, cru := { d.cru with badGroups := g }, hif := { d.hif with out := o } } mid b n true =
      d.allowed mid b n true := rfl
  have hspan : Dev.span { d with
      mem := m, mct := { d.mct with poison := p }, cru := { d.cru with badGroups := g }, hif := { d.hif with out := o } } b n = d.span b n := rfl
  have hwr (k : Nat) : Dev.cruWritable { d with
      mem := m, mct := { d.mct with poison := p }, cru := { d.cru with badGroups := g }, hif := { d.hif with out := o } } k = d.cruWritable k := rfl
  have hgroups : (Dev.cru { d with
      mem := m, mct := { d.mct with poison := p }, cru := { d.cru with badGroups := g }, hif := { d.hif with out := o } }).badGroups = g := rfl
  generalize ({ d with
    mem := m, mct := { d.mct with poison := p }, cru := { d.cru with badGroups := g }, hif := { d.hif with out := o } } : Dev) = e at *
  unfold Dev.writeRes at h ⊢
  rw [hall, hspan]
  simp only [hwr, hgroups]
  split at h
  · exact absurd h (by decide)
  next hperm =>
  rw [if_neg hperm]
  cases hs : d.span b n with
  | host => rfl
  | unmapped => rw [hs] at h; exact absurd (show MemRes.error = .ok from h) (by decide)
  | gddr =>
    rw [hs] at h
    dsimp only at h ⊢
    split at h
    · exact absurd h (by decide)
    next hnone =>
    rw [if_neg]
    intro hany
    obtain ⟨t, ht, hcond⟩ := List.any_eq_true.mp hany
    obtain ⟨hb, hpart⟩ := Bool.and_eq_true_iff.mp hcond
    exact hnone (List.any_eq_true.mpr ⟨t, ht, Bool.and_eq_true_iff.mpr ⟨hbad hb, hpart⟩⟩)
  | cru off =>
    rw [hs] at h
    dsimp only at h ⊢
    split at h
    · exact absurd h (by decide)
    next hin =>
    rw [if_neg hin]
    split at h
    · exact absurd h (by decide)
    next hnone =>
    rw [if_neg]
    intro hany
    obtain ⟨t, ht, hcond⟩ := List.any_eq_true.mp hany
    obtain ⟨hb, hpart⟩ := Bool.and_eq_true_iff.mp hcond
    exact hnone (List.any_eq_true.mpr ⟨t, ht, Bool.and_eq_true_iff.mpr
      ⟨List.contains_iff_mem.mpr (hg t (List.contains_iff_mem.mp hb)), hpart⟩⟩)

theorem Dev.readFor_error {d : Dev} {mid a n e : Nat} {r : Resp} (h : d.readFor mid a n r = .error e) : e = 6 ∨ e = 7 := by
  unfold Dev.readFor at h
  split at h
  · exact .inl (Except.error.inj h).symm
  · exact .inr (Except.error.inj h).symm
  · exact .inr (Except.error.inj h).symm
  · exact absurd h nofun

theorem Dev.writeErr_some {d : Dev} {mid a n e : Nat} (h : d.writeErr mid a n = some e) : e = 6 ∨ e = 7 := by
  unfold Dev.writeErr at h
  split at h
  · exact absurd h nofun
  · exact .inl (Option.some.inj h).symm
  · exact .inr (Option.some.inj h).symm

theorem Dev.mrvPixel_error {d : Dev} {c r : Nat} {x : Nat × Nat × Nat} (h : d.mrvPixel c r = .error x) : x.1 = 6 ∨ x.1 = 7 := by
  unfold Dev.mrvPixel at h
  dsimp only at h
  split at h
  · exact absurd h nofun
  split at h
  · next e hr =>
    rw [← Except.error.inj h]
    exact Dev.readFor_error hr
  split at h
  · exact absurd h nofun
  split at h
  · exact absurd h nofun
  split at h
  · next e hr =>
    rw [← Except.error.inj h]
    exact Dev.readFor_error hr
  · exact absurd h nofun

theorem Dev.mrvRow_cons (r c : Nat) (cs : List Nat) (d : Dev) : Dev.mrvRow r (c :: cs) d =
    match d.mrvPixel c r with
    | .error (e, a, k) => (d, some (e, a, k, false))
    | .ok v =>
      match d.writeErr mrvMid (d.mrv.dstAddr c r) (pixelSize d.mrv.dfmt) with
      | some e => (d, some (e, d.mrv.dstAddr c r, pixelSize d.mrv.dfmt, true))
      | none => Dev.mrvRow r cs (d.store (d.mrv.dstAddr c r) (leBytes (pixelSize d.mrv.dfmt) v)) := rfl

theorem Dev.store_mrv (a : Nat) (bs : List Byte) (d : Dev) : (d.store a bs).mrv = d.mrv := by simp

theorem Dev.store_memOutside {a n k v : Nat} {d : Dev} (h : outside k a n) : (d.store a (leBytes n v)).memByte k = d.memByte k :=
  Dev.store_memSameBut a _ d k (by rw [leBytes_length]; exact h)

/-- A row changes no byte outside its pixels, and an error that ends it is a denial or an error status. -/
theorem Dev.mrvRow_spec (r : Nat) (cs : List Nat) (d : Dev) : (Dev.mrvRow r cs d).1.mrv = d.mrv ∧
    (∀ k, (∀ c ∈ cs, outside k (d.mrv.dstAddr c r) (pixelSize d.mrv.dfmt)) → (Dev.mrvRow r cs d).1.memByte k = d.memByte k) ∧
    ∀ e a n w, (Dev.mrvRow r cs d).2 = some (e, a, n, w) → e = 6 ∨ e = 7 := by
  induction cs generalizing d with
  | nil => exact ⟨rfl, fun _ _ => rfl, fun _ _ _ _ h => absurd (show none = some _ from h) nofun⟩
  | cons c cs ih =>
    rw [Dev.mrvRow_cons]
    cases hp : d.mrvPixel c r with
    | error x =>
      have hx := Dev.mrvPixel_error hp
      exact ⟨rfl, fun _ _ => rfl, fun e a n w h => by rw [← (Prod.mk.inj (Option.some.inj (show some (x.1, _) = some _ from h))).1]; exact hx⟩
    | ok v =>
      dsimp only
      cases hw : d.writeErr mrvMid (d.mrv.dstAddr c r) (pixelSize d.mrv.dfmt) with
      | some e =>
        have he := Dev.writeErr_some hw
        exact ⟨rfl, fun _ _ => rfl, fun e' a n w h => by rw [← (Prod.mk.inj (Option.some.inj (show some (e, _) = some _ from h))).1]; exact he⟩
      | none =>
        dsimp only
        obtain ⟨hmrv, hmem, herr⟩ := ih (d.store (d.mrv.dstAddr c r) (leBytes (pixelSize d.mrv.dfmt) v))
        rw [Dev.store_mrv] at hmrv hmem
        refine ⟨hmrv, fun k hk => ?_, herr⟩
        rw [hmem k fun c' hc' => hk c' (List.mem_cons_of_mem _ hc'), Dev.store_memOutside (hk c List.mem_cons_self)]

/-- The value that a fill writes into each pixel. -/
theorem Dev.mrvPixel_fill {d : Dev} (hk : d.mrv.kind = 0) (hf : d.mrv.dfmt ≠ 3) (c r : Nat) :
    d.mrvPixel c r = .ok ((d.mrv.reg MRV_FILL).toNat % 256 ^ pixelSize d.mrv.dfmt) := by
  unfold Dev.mrvPixel
  dsimp only
  rw [if_pos (by unfold Marver.reads; rw [hk]; decide), if_neg hf]

theorem leBytes_getD (n i v : Nat) (h : i < n) : (leBytes n v).getD i 0 = BitVec.ofNat 8 (v / 256 ^ i) := by
  induction n generalizing i v with
  | zero => exact absurd h (Nat.not_lt_zero _)
  | succ n ih =>
    cases i with
    | zero => rw [leBytes, List.getD_cons_zero, pow_zero, Nat.div_one]
    | succ i => rw [leBytes, List.getD_cons_succ, ih i _ (by omega), Nat.div_div_eq_div_mul, pow_succ, mul_comm]

theorem pixelSize_cases {f : Nat} (h : f ≠ 3) : pixelSize f = 2 ∨ pixelSize f = 4 := by
  unfold pixelSize
  split
  · exact absurd rfl h
  · exact .inl rfl
  · exact .inr rfl

/-- A byte of a fill value. -/
theorem fillByte (w : Word) {n i : Nat} (hn : n = 2 ∨ n = 4) (hi : i < n) :
    (leBytes n (w.toNat % 256 ^ n)).getD i 0 = w.extractLsb' (8 * i) 8 := by
  rw [leBytes_getD _ _ _ hi]
  apply BitVec.eq_of_toNat_eq
  rw [BitVec.toNat_ofNat, BitVec.extractLsb'_toNat, Nat.shiftRight_eq_div_pow]
  rcases hn with rfl | rfl
  · interval_cases i <;> omega
  · interval_cases i <;> omega

/-- The pixels of a row that is not encoded lie apart. -/
theorem Marver.dstAddr_apart {x : Marver} (he : x.enc = false) (r : Nat) {c i c' : Nat} (hi : i < pixelSize x.dfmt) (hc : c' ≠ c) :
    outside (x.dstAddr c r + i) (x.dstAddr c' r) (pixelSize x.dfmt) := by
  have haddr (c : Nat) : x.dstAddr c r = x.addr MRV_DST_LO + r * x.pitch MRV_DPITCH + c * pixelSize x.dfmt := by
    unfold Marver.dstAddr
    rw [if_neg (by rw [he]; decide)]
  rw [haddr, haddr]
  unfold outside
  rcases Nat.lt_or_gt_of_ne hc with hlt | hlt
  all_goals
    have := Nat.mul_le_mul_right (pixelSize x.dfmt) (Nat.succ_le_of_lt hlt)
    rw [Nat.succ_mul] at this
    omega

/-- A fill that may write all its pixels writes them. -/
theorem Dev.mrvRow_fill (r : Nat) (cs : List Nat) (d : Dev) {x : Marver} (hx : d.mrv = x) (hk : x.kind = 0) (hf : x.dfmt ≠ 3)
    (he : x.enc = false) (hw : ∀ c ∈ cs, d.writeRes mrvMid (x.dstAddr c r) (pixelSize x.dfmt) = .ok) : (Dev.mrvRow r cs d).2 = none ∧
    ∀ c ∈ cs, ∀ i, i < pixelSize x.dfmt →
      (Dev.mrvRow r cs d).1.memByte (x.dstAddr c r + i) = (x.reg MRV_FILL).extractLsb' (8 * i) 8 := by
  induction cs generalizing d with
  | nil => exact ⟨rfl, fun _ h => absurd h List.not_mem_nil⟩
  | cons c cs ih =>
    have hok := hw c List.mem_cons_self
    rw [Dev.mrvRow_cons, Dev.mrvPixel_fill (by rw [hx]; exact hk) (by rw [hx]; exact hf), hx]
    dsimp only
    rw [Dev.writeErr_ok hok]
    dsimp only
    have hmrv : (d.store (x.dstAddr c r) (leBytes (pixelSize x.dfmt) ((x.reg MRV_FILL).toNat % 256 ^ pixelSize x.dfmt))).mrv = x :=
      (Dev.store_mrv ..).trans hx
    obtain ⟨hnone, hmem⟩ := ih _ hmrv (fun c' hc' => Dev.writeRes_store (hw c' (List.mem_cons_of_mem _ hc')) ..)
    refine ⟨hnone, fun c' hc' i hi => ?_⟩
    by_cases hin : c' ∈ cs
    · exact hmem c' hin i hi
    · obtain rfl : c' = c := (List.mem_cons.mp hc').resolve_right hin
      obtain ⟨-, hkept, -⟩ := Dev.mrvRow_spec r cs (d.store (x.dstAddr c' r)
        (leBytes (pixelSize x.dfmt) ((x.reg MRV_FILL).toNat % 256 ^ pixelSize x.dfmt)))
      rw [hmrv] at hkept
      rw [hkept _ fun c'' hc'' => Marver.dstAddr_apart he r hi (ne_of_mem_of_not_mem hc'' hin), Dev.store_memByte _ _ _ (by rw [leBytes_length]; exact hi), fillByte _ (pixelSize_cases hf) hi]

/-! ## The answers for a row -/

theorem mrvRowEnds_written (d : Dev) : (mrvRowEnds (d, none)).mrv = { d.mrv with wrote := true, starved := false } ∧
    (mrvRowEnds (d, none)).mem = d.mem := by
  refine ⟨rfl, ?_⟩
  unfold mrvRowEnds
  simp

theorem mrvRowEnds_failed (d : Dev) (e a n : Nat) (w : Bool) :
    (mrvRowEnds (d, some (e, a, n, w))).mrv.state = .idle ∧ (mrvRowEnds (d, some (e, a, n, w))).mrv.err = BitVec.ofNat 8 e ∧
    (mrvRowEnds (d, some (e, a, n, w))).mem = d.mem := by
  obtain ⟨hm, hmem⟩ := (d.noteFailure e mrvMid w a n).mrvFails_spec e a
  have hnote : (d.noteFailure e mrvMid w a n).mem = d.mem := by simp
  exact ⟨congrArg Marver.state hm, congrArg Marver.err hm, hmem.trans hnote⟩

theorem Marver.mem_cols {m : Marver} {c : Nat} : c ∈ m.cols ↔ c < m.w := by
  unfold Marver.cols
  split
  · rw [List.mem_reverse, List.mem_range]
  · rw [List.mem_range]

section
variable {s : State} (hw : s.dev.mrv.waits = true)
include hw

theorem exec_mrvResponse_error (hs : s.dev.mrvServed = true) :
    exec (.mrvResponse .error) s = .next ⟨s.dev.mrvFails 7 s.dev.mrv.requestAddr, s.pending⟩ := by
  show s.dev! (Dev.mrvAnswered .error) = _
  rw [State.dev!_next, Dev.mrvAnswered, if_neg (not_not_intro hw), hs, Dev.when_true]

theorem exec_mrvResponse_ok (hs : s.dev.mrvServed = true) (he : s.dev.mrv.enc = false) :
    exec (.mrvResponse .ok) s = .next ⟨mrvRowEnds (Dev.mrvRow s.dev.mrv.line s.dev.mrv.cols s.dev), s.pending⟩ := by
  show s.dev! (Dev.mrvAnswered .ok) = _
  rw [State.dev!_next, Dev.mrvAnswered, if_neg (not_not_intro hw), hs, Dev.when_true]
  dsimp only
  rw [if_neg (by rw [he]; decide)]

theorem mrvResponse_error (hs : s.dev.mrvServed = true) :
    ∃ u, exec (.mrvResponse .error) s = .next u ∧ u.dev.mrv.state = .idle ∧ u.dev.mrv.err = 7 ∧
      u.dev.mrv.failAddr = BitVec.ofNat 64 s.dev.mrv.requestAddr ∧ u.dev.mem = s.dev.mem := by
  refine ⟨_, exec_mrvResponse_error hw hs, ?_⟩
  dsimp only
  obtain ⟨hm, hmem⟩ := s.dev.mrvFails_spec 7 s.dev.mrv.requestAddr
  rw [hm]
  exact ⟨rfl, rfl, rfl, hmem⟩

theorem mrvResponse_row (hs : s.dev.mrvServed = true) (he : s.dev.mrv.enc = false) :
    ∃ u, exec (.mrvResponse .ok) s = .next u ∧
      (u.dev.mrv.wrote = true ∧ u.dev.mrv.state = s.dev.mrv.state ∨ u.dev.mrv.state = .idle ∧ u.dev.mrv.err ≠ 0) ∧
      ∀ k, (∀ c, c < s.dev.mrv.w → outside k (s.dev.mrv.dstAddr c s.dev.mrv.line) (pixelSize s.dev.mrv.dfmt)) →
        u.dev.memByte k = s.dev.memByte k := by
  refine ⟨_, exec_mrvResponse_ok hw hs he, ?_⟩
  dsimp only
  obtain ⟨hmrv, hmem, herr⟩ := Dev.mrvRow_spec s.dev.mrv.line s.dev.mrv.cols s.dev
  have hout (k : Nat) (hk : ∀ c, c < s.dev.mrv.w → outside k (s.dev.mrv.dstAddr c s.dev.mrv.line) (pixelSize s.dev.mrv.dfmt)) :=
    hmem k fun c hc => hk c (Marver.mem_cols.mp hc)
  generalize Dev.mrvRow s.dev.mrv.line s.dev.mrv.cols s.dev = x at *
  obtain ⟨d, o⟩ := x
  dsimp only at hmrv hmem herr hout
  match o with
  | none =>
    obtain ⟨hm, hmem'⟩ := mrvRowEnds_written d
    exact ⟨.inl ⟨congrArg Marver.wrote hm, (congrArg Marver.state hm).trans (show d.mrv.state = _ from congrArg Marver.state hmrv)⟩,
      fun k hk => (Dev.memByte_congr hmem' k).trans (hout k hk)⟩
  | some (e, a, n, w) =>
    obtain ⟨hstate, hcode, hmem'⟩ := mrvRowEnds_failed d e a n w
    refine ⟨.inr ⟨hstate, fun h => ?_⟩, fun k hk => (Dev.memByte_congr hmem' k).trans (hout k hk)⟩
    have hz : BitVec.ofNat 8 e = 0 := hcode.symm.trans h
    rcases herr e a n w rfl with rfl | rfl <;> exact absurd hz (by decide)

theorem mrvResponse_fill (hs : s.dev.mrvServed = true) (he : s.dev.mrv.enc = false) (hk : s.dev.mrv.kind = 0) (hf : s.dev.mrv.dfmt ≠ 3)
    (hok : ∀ c, c < s.dev.mrv.w → s.dev.writeRes mrvMid (s.dev.mrv.dstAddr c s.dev.mrv.line) (pixelSize s.dev.mrv.dfmt) = .ok) :
    ∃ u, exec (.mrvResponse .ok) s = .next u ∧ u.dev.mrv = { s.dev.mrv with wrote := true, starved := false } ∧
      ∀ c i, c < s.dev.mrv.w → i < pixelSize s.dev.mrv.dfmt →
        u.dev.memByte (s.dev.mrv.dstAddr c s.dev.mrv.line + i) = (s.dev.mrv.reg MRV_FILL).extractLsb' (8 * i) 8 := by
  refine ⟨_, exec_mrvResponse_ok hw hs he, ?_⟩
  dsimp only
  obtain ⟨hmrv, -, -⟩ := Dev.mrvRow_spec s.dev.mrv.line s.dev.mrv.cols s.dev
  obtain ⟨hnone, hmem⟩ := Dev.mrvRow_fill s.dev.mrv.line s.dev.mrv.cols s.dev rfl hk hf he fun c hc => hok c (Marver.mem_cols.mp hc)
  generalize Dev.mrvRow s.dev.mrv.line s.dev.mrv.cols s.dev = x at *
  obtain ⟨d, o⟩ := x
  dsimp only at hmrv hnone hmem
  subst hnone
  obtain ⟨hm, hmem'⟩ := mrvRowEnds_written d
  rw [hmrv] at hm
  exact ⟨hm, fun c i hc hi => (Dev.memByte_congr hmem' _).trans (hmem c (Marver.mem_cols.mpr hc) i hi)⟩

theorem mrvStarved_spec (ht : s.dev.mrv.waitSince + 10000 ≤ s.dev.now) :
    ∃ u, exec .mrvStarved s = .next u ∧ u.dev.mrv = { s.dev.mrv with starved := true } ∧ s.dev.onlyChanges u.dev [.mrv] := by
  have he : exec .mrvStarved s = .next ⟨{ s.dev with mrv := { s.dev.mrv with starved := true } }, s.pending⟩ := by
    show execMrvStarved s = _
    rw [execMrvStarved, State.dev!_next, hw, decide_eq_true ht, Bool.and_self, Dev.when_true]
  exact ⟨_, he, rfl, by simp [Dev.onlyChanges_iff]⟩

theorem mrvTimeout_spec (t a : Nat) (hi : s.dev.mrv.issued = some (t, a)) (ht : t + s.dev.requestTimeout ≤ s.dev.now) :
    ∃ u, exec .mrvTimeout s = .next u ∧ u.dev.mrv.state = .idle ∧ u.dev.mrv.err = 5 ∧
      u.dev.mrv.failAddr = BitVec.ofNat 64 a ∧ u.dev.mem = s.dev.mem := by
  have he : exec .mrvTimeout s = .next ⟨(s.dev.freeTag 320 mrvMid).mrvFails 5 a, s.pending⟩ := by
    show execMrvTimeout s = _
    rw [execMrvTimeout, State.dev!_next, hi]
    dsimp only
    rw [hw, decide_eq_true ht, Bool.and_self, Dev.when_true]
  refine ⟨_, he, ?_⟩
  dsimp only
  obtain ⟨hm, hmem⟩ := (s.dev.freeTag 320 mrvMid).mrvFails_spec 5 a
  exact ⟨congrArg Marver.state hm, congrArg Marver.err hm, congrArg Marver.failAddr hm, hmem⟩

end

theorem mrvTimeout_unissued {s : State} (h : s.dev.mrv.issued = none) : exec .mrvTimeout s = .next s := by
  show execMrvTimeout s = _
  rw [execMrvTimeout, State.dev!_next, h]

theorem mrv_notWaiting {s : State} (h : s.dev.mrv.waits = false) : exec .mrvTimeout s = .next s ∧ exec .mrvStarved s = .next s := by
  constructor
  · show execMrvTimeout s = _
    rw [execMrvTimeout, State.dev!_next]
    cases s.dev.mrv.issued with
    | none => rfl
    | some p => dsimp only; rw [h, Bool.false_and, Dev.when_false]
  · show execMrvStarved s = _
    rw [execMrvStarved, State.dev!_next, h, Bool.false_and, Dev.when_false]

/-- Settles O47: the start, the abort, the rows and their ends. -/
theorem marverRunsItsRows : Obligations.MarverRunsItsRows := by
  unfold Obligations.MarverRunsItsRows
  rintro x s rfl
  exact ⟨fun m h => ⟨mrvStart_busy h, mrvStart_idle h, mrvAbort_running h, mrvAbort_gated h⟩, mrvRowComplete_spec, gateRelease_spec,
    fun hw => ⟨mrvResponse_error hw, fun hs he => ⟨mrvResponse_row hw hs he, mrvResponse_fill hw hs he⟩, mrvStarved_spec hw, mrvTimeout_spec hw⟩,
    mrvTimeout_unissued, mrv_notWaiting⟩

end Sys2Proof.Machine
end

section
/-!
PROOF of O50: memory requests queue, issue and return, checked.
-/
namespace Sys2Proof.Machine
set_option Elab.async false

/-! ## What leaves the banks alone -/

theorem Dev.gang_congr {d e : Dev} (h : e.mct.gangs = d.mct.gangs) (k : Nat) : e.gang k = d.gang k := by
  unfold Dev.gang
  rw [h]

theorem Dev.bytes_congr {d e : Dev} (h : ∀ a, e.byte a = d.byte a) (a n : Nat) : e.bytes a n = d.bytes a n := by
  induction n generalizing a with
  | zero => rfl
  | succ n ih => rw [Dev.bytes, Dev.bytes, h, ih]

/-- The fences of sites change of the controller no more than its sites, its lanes and the use of the spare. -/
structure Dev.SitesOnly (d e : Dev) : Prop where
  mem : e.mem = d.mem
  gangs : e.mct.gangs = d.mct.gangs
  returned : e.mct.returned = d.mct.returned
  uncorr : e.mct.uncorr = d.mct.uncorr
  poison : e.mct.poison = d.mct.poison
  ptr : e.mct.ptr = d.mct.ptr
  grant : e.mct.grant = d.mct.grant
  copied : e.mct.copied = d.mct.copied
  firings : d.KeepsFirings e

theorem Dev.SitesOnly.refl (d : Dev) : d.SitesOnly d := ⟨rfl, rfl, rfl, rfl, rfl, rfl, rfl, rfl, .refl d⟩

theorem Dev.SitesOnly.trans {a b c : Dev} (h : a.SitesOnly b) (h' : b.SitesOnly c) : a.SitesOnly c :=
  ⟨h'.mem.trans h.mem, h'.gangs.trans h.gangs, h'.returned.trans h.returned, h'.uncorr.trans h.uncorr, h'.poison.trans h.poison,
    h'.ptr.trans h.ptr, h'.grant.trans h.grant, h'.copied.trans h.copied, h.firings.trans h'.firings⟩

theorem Dev.SitesOnly.ite {c : Prop} [Decidable c] {d a b : Dev} (ha : d.SitesOnly a) (hb : d.SitesOnly b) : d.SitesOnly (if c then a else b) := by
  split
  · exact ha
  · exact hb

theorem Dev.fire_sitesOnly (src inst : Nat) (x : BitVec 128) (d : Dev) : d.SitesOnly (d.fire src inst x) :=
  ⟨rfl, rfl, rfl, rfl, rfl, rfl, rfl, rfl, .of_fire rfl⟩

theorem Dev.setLane_sitesOnly (l : Nat) (x : Lane) (d : Dev) : d.SitesOnly (d.setLane l x) := ⟨rfl, rfl, rfl, rfl, rfl, rfl, rfl, rfl, .of_flt rfl⟩

theorem Dev.setSite_sitesOnly (n : Nat) (x : Site) (d : Dev) : d.SitesOnly (d.setSite n x) := ⟨rfl, rfl, rfl, rfl, rfl, rfl, rfl, rfl, .of_flt rfl⟩

theorem Dev.setSpare_sitesOnly (sp : Spare) (l : List Nat) (d : Dev) : d.SitesOnly (d.setSpare sp l) := ⟨rfl, rfl, rfl, rfl, rfl, rfl, rfl, rfl, .of_flt rfl⟩

theorem Dev.foldl_sitesOnly {β : Type} {step : Dev → β → Dev} (h : ∀ (d : Dev) b, d.SitesOnly (step d b)) (l : List β) (d : Dev) :
    d.SitesOnly (l.foldl step d) := by
  induction l generalizing d with
  | nil => exact .refl d
  | cons b l ih => exact (h d b).trans (ih _)

theorem Dev.nextRetrain_sitesOnly (g : Nat) (d : Dev) : d.SitesOnly (d.nextRetrain g) := by
  unfold Dev.nextRetrain
  split
  · exact Dev.setLane_sitesOnly ..
  · exact .refl d
  · exact .refl d

theorem Dev.lanesOff_sitesOnly (n : Nat) (d : Dev) : d.SitesOnly (d.lanesOff n) := by
  unfold Dev.lanesOff
  refine Dev.foldl_sitesOnly (fun d k => ?_) _ d
  dsimp only
  exact .trans (.ite (.refl d) (Dev.setLane_sitesOnly ..)) (Dev.nextRetrain_sitesOnly k _)

theorem Dev.loseSpare_sitesOnly (c : Nat) (d : Dev) : d.SitesOnly (d.loseSpare c) := by
  have hlost (sp : Spare) (l : List Nat) : d.SitesOnly (d.setSpare sp l).spareIsLost := by
    unfold Dev.spareIsLost
    refine .trans ?_ (Dev.fire_sitesOnly ..)
    exact ⟨rfl, rfl, rfl, rfl, rfl, rfl, rfl, rfl, .of_flt rfl⟩
  unfold Dev.loseSpare
  dsimp only
  split
  · exact hlost ..
  · exact hlost ..
  · exact Dev.setSpare_sitesOnly ..
  · exact Dev.setSpare_sitesOnly ..
  · exact (Dev.setSpare_sitesOnly ..).trans (Dev.fire_sitesOnly ..)
  · exact .refl d

theorem Dev.losePosition_sitesOnly (p c : Nat) (d : Dev) : d.SitesOnly (d.losePosition p c) := by
  unfold Dev.losePosition
  dsimp only
  refine .trans ?_ (Dev.fire_sitesOnly ..)
  split
  · exact .ite (Dev.setSpare_sitesOnly ..) (Dev.setSpare_sitesOnly ..)
  all_goals exact Dev.setSpare_sitesOnly ..

theorem Dev.fenceSite_sitesOnly (n c : Nat) (d : Dev) : d.SitesOnly (d.fenceSite n c) := by
  unfold Dev.fenceSite
  dsimp only
  refine .ite (.refl d) ?_
  have hoff := (Dev.setSite_sitesOnly n { d.site n with fenced := true, cause := BitVec.ofNat 2 c } d).trans (Dev.lanesOff_sitesOnly n _)
  generalize Dev.lanesOff n _ = e at *
  have hlose : d.SitesOnly (if n = 17 then e.loseSpare c else e.losePosition n c) :=
    .ite (hoff.trans (Dev.loseSpare_sitesOnly ..)) (hoff.trans (Dev.losePosition_sitesOnly ..))
  generalize (if n = 17 then e.loseSpare c else e.losePosition n c) = f at *
  have hlost (x : BitVec 128) : d.SitesOnly (if f.memLost = true ∧ ¬ d.memLost = true then f.fire 517 0 x else f) :=
    .ite (hlose.trans (Dev.fire_sitesOnly ..)) hlose
  have hlost := hlost (f.lostPositions.foldl (fun m p => m ||| dbits p 1) 0)
  generalize (if f.memLost = true ∧ ¬ d.memLost = true then f.fire 517 0 _ else f) = g at *
  exact .ite (hlost.trans ⟨rfl, rfl, rfl, rfl, rfl, rfl, rfl, rfl, .of_flt rfl⟩) hlost

theorem Dev.overRate_sitesOnly (n : Nat) (b : Bool) (d : Dev) : d.SitesOnly (d.overRate n b) := by
  unfold Dev.overRate
  exact .ite (.ite ((Dev.fire_sitesOnly ..).trans (Dev.fenceSite_sitesOnly ..)) (Dev.fire_sitesOnly ..)) (.refl d)

theorem Dev.linkFailed_sitesOnly (n : Nat) (d : Dev) : d.SitesOnly (d.linkFailed n) := by
  unfold Dev.linkFailed
  dsimp only
  exact .ite (.refl d) (.trans (Dev.setSite_sitesOnly ..) (Dev.overRate_sitesOnly ..))

/-- What a burst tells the shadow samplers changes lanes alone. -/
def Dev.LanesOnly (d e : Dev) : Prop := ∃ l, e = { d with mct := { d.mct with lanes := l } }

theorem Dev.LanesOnly.refl (d : Dev) : d.LanesOnly d := ⟨_, rfl⟩

theorem Dev.LanesOnly.trans {a b c : Dev} (h : a.LanesOnly b) (h' : b.LanesOnly c) : a.LanesOnly c := by
  obtain ⟨l, rfl⟩ := h
  obtain ⟨l', rfl⟩ := h'
  exact ⟨l', rfl⟩

theorem Dev.setLane_lanesOnly (l : Nat) (x : Lane) (d : Dev) : d.LanesOnly (d.setLane l x) := ⟨_, rfl⟩

theorem Dev.foldl_lanesOnly {β : Type} {step : Dev → β → Dev} (h : ∀ (d : Dev) b, d.LanesOnly (step d b)) (l : List β) (d : Dev) :
    d.LanesOnly (l.foldl step d) := by
  induction l generalizing d with
  | nil => exact .refl d
  | cons b l ih => exact (h d b).trans (ih _)

theorem Dev.laneBurst_lanesOnly (l m : Nat) (d : Dev) : d.LanesOnly (d.laneBurst l m) := by
  unfold Dev.laneBurst
  dsimp only
  split
  · split
    · exact Dev.setLane_lanesOnly ..
    · exact .refl d
  · exact Dev.setLane_lanesOnly ..
  all_goals exact .refl d

theorem Dev.references_lanesOnly (g : Nat) (i : BurstInput) (bs : List Byte) (beats gone sites : List Nat) (d : Dev) :
    d.LanesOnly (d.references g i bs beats gone sites) := by
  unfold Dev.references
  refine Dev.foldl_lanesOnly (fun d e => ?_) _ d
  dsimp only
  split
  · split
    · exact Dev.laneBurst_lanesOnly ..
    · exact .refl d
  · exact .refl d

/-! ## Requests that arrive -/

theorem memoryRequest_idle {r : MemReq} {s : State} (h : s.dev.mayRequest r = false) : exec (.memoryRequest r) s = .next s := by
  show execMemoryRequest r s = _
  rw [execMemoryRequest, State.dev!_next, h, Dev.when_false]

section
variable {r : MemReq} {s : State} (hm : s.dev.mayRequest r = true)
include hm

theorem exec_memoryRequest : exec (.memoryRequest r) s = .next ⟨if (s.dev.allowed r.mid r.addr.toNat r.len r.data.isSome &&
    decide (s.dev.span r.addr.toNat r.len = .gddr)) = true then s.dev.enterQueue r else s.dev.completeAway r, s.pending⟩ := by
  show execMemoryRequest r s = _
  rw [execMemoryRequest, State.dev!_next, hm, Dev.when_true]

theorem memoryRequest_queues {x : Gang} {b : Nat} (hx : x = s.dev.gang (s.dev.gangOf (atomOf r))) (hb : b = s.dev.bankOf (atomOf r))
    (ha : s.dev.allowed r.mid r.addr.toNat r.len r.data.isSome = true) (hs : s.dev.span r.addr.toNat r.len = .gddr) :
    ∃ u, exec (.memoryRequest r) s = .next u ∧ s.dev.onlyChanges u.dev [.mct] ∧
      (∀ g, g ≠ s.dev.gangOf (atomOf r) → u.dev.gang g = s.dev.gang g) ∧
      if hasRoom r.cls.val (x.bankQueue b) = true ∧ (∀ o ∈ s.dev.mct.waiting, o.mid ≠ r.mid) then
        u.dev.mct.waiting = s.dev.mct.waiting ∧ u.dev.gang (s.dev.gangOf (atomOf r)) =
          x.setBankQueue b (raiseOlder r (x.bankQueue b) ++ [{ req := r, gen := (s.dev.tag r.tag).gen }])
      else u.dev.mct.waiting = s.dev.mct.waiting ++ [r] ∧ u.dev.gang (s.dev.gangOf (atomOf r)) = x := by
  refine ⟨_, exec_memoryRequest hm, ?_⟩
  dsimp only
  rw [if_pos (by rw [ha, hs]; rfl)]
  have hroom : (s.dev.roomFor r && !(s.dev.mct.waiting.any fun o => o.mid = r.mid)) = true ↔
      hasRoom r.cls.val (x.bankQueue b) = true ∧ (∀ o ∈ s.dev.mct.waiting, o.mid ≠ r.mid) := by
    rw [hx, hb]
    simp only [Bool.and_eq_true, Bool.not_eq_true', List.any_eq_false, decide_eq_true_eq]
    rfl
  refine ⟨by simp [Dev.onlyChanges_iff], ?_⟩
  unfold Dev.enterQueue
  by_cases h : hasRoom r.cls.val (x.bankQueue b) = true ∧ (∀ o ∈ s.dev.mct.waiting, o.mid ≠ r.mid)
  · rw [if_pos (hroom.mpr h), if_pos h]
    unfold Dev.joinQueue
    dsimp only
    rw [Dev.gang_setGang, ← hx, ← hb]
    exact ⟨fun g hg => Dev.gang_setGang_ne _ _ hg, rfl, rfl⟩
  · rw [if_neg (fun hr => h (hroom.mp hr)), if_neg h]
    exact ⟨fun _ _ => rfl, rfl, hx.symm⟩

end

/-- A request of Marver that is granted leaves memory, the controller and what accesses come to. -/
theorem Dev.granted_spec (c : Prop) [Decidable c] (a : Nat) (d : Dev) : ∃ e : Dev, (if c then d.mrvGranted a else d) = e ∧ e.mem = d.mem ∧
    e.mct = d.mct ∧ (∀ k, e.byte k = d.byte k) ∧ (∀ m a n, e.readRes m a n = d.readRes m a n) ∧ (∀ m a n, e.writeRes m a n = d.writeRes m a n) := by
  refine ⟨_, rfl, ?_⟩
  split
  · exact ⟨rfl, rfl, fun _ => rfl, fun _ _ _ => rfl, fun _ _ _ => rfl⟩
  · exact ⟨rfl, rfl, fun _ => rfl, fun _ _ _ => rfl, fun _ _ _ => rfl⟩

theorem Dev.completeAway_denied {r : MemReq} {d : Dev} (ha : d.allowed r.mid r.addr.toNat r.len r.data.isSome = false) :
    (d.completeAway r).mem = d.mem ∧ ∃ a ∈ (d.completeAway r).mct.returned, a.mid = r.mid.val ∧ a.tag = r.tag ∧ a.ok = false ∧
      ∀ y ∈ a.data, y = 0 := by
  unfold Dev.completeAway
  dsimp only
  obtain ⟨e, he, hmem, -, -, hread, hwrite⟩ := d.granted_spec (r.mid.val = 65) r.addr.toNat
  rw [he]
  have hlast {f : Dev} {data : List Byte} (hz : ∀ y ∈ data, y = 0) : ∃ a ∈ (f.answer r false data).mct.returned,
      a.mid = r.mid.val ∧ a.tag = r.tag ∧ a.ok = false ∧ ∀ y ∈ a.data, y = 0 :=
    ⟨_, List.mem_append_right _ (List.mem_singleton_self _), rfl, rfl, rfl, hz⟩
  cases hd : r.data with
  | none =>
    dsimp only
    rw [hread, show d.readRes r.mid r.addr.toNat r.len = .denied by
      unfold Dev.readRes; rw [hd] at ha; rw [if_pos (by rw [show d.allowed r.mid r.addr.toNat r.len false = false from ha]; decide)]]
    exact ⟨hmem, hlast fun y hy => (List.mem_replicate.mp hy).2⟩
  | some bs =>
    dsimp only
    rw [hwrite, show d.writeRes r.mid r.addr.toNat r.len = .denied by
      unfold Dev.writeRes; rw [hd] at ha; rw [if_pos (by rw [show d.allowed r.mid r.addr.toNat r.len true = false from ha]; decide)]]
    exact ⟨hmem, hlast fun y hy => absurd hy List.not_mem_nil⟩

theorem Dev.store_returned (a : Nat) (bs : List Byte) (d : Dev) : (d.store a bs).mct.returned = d.mct.returned := by
  obtain ⟨m, p, g, o, he, -, -⟩ := d.store_marks a bs
  rw [he]

section
variable {r : MemReq} {s : State} (hm : s.dev.mayRequest r = true)
include hm

theorem memoryRequest_denied (ha : s.dev.allowed r.mid r.addr.toNat r.len r.data.isSome = false) :
    ∃ u, exec (.memoryRequest r) s = .next u ∧ u.dev.mem = s.dev.mem ∧
      ∃ a ∈ u.dev.mct.returned, a.mid = r.mid.val ∧ a.tag = r.tag ∧ a.ok = false ∧ ∀ y ∈ a.data, y = 0 := by
  refine ⟨_, exec_memoryRequest hm, ?_⟩
  dsimp only
  rw [if_neg (by rw [ha]; exact Bool.false_ne_true)]
  exact Dev.completeAway_denied ha

theorem memoryRequest_away (hs : s.dev.span r.addr.toNat r.len ≠ .gddr) :
    exec (.memoryRequest r) s = .next ⟨s.dev.completeAway r, s.pending⟩ := by
  rw [exec_memoryRequest hm, if_neg (by rw [decide_eq_false hs, Bool.and_false]; exact Bool.false_ne_true)]

theorem memoryRequest_writes (hs : s.dev.span r.addr.toNat r.len ≠ .gddr) (bs : List Byte) (hd : r.data = some bs)
    (hw : s.dev.writeRes r.mid r.addr.toNat r.len = .ok) :
    ∃ u, exec (.memoryRequest r) s = .next u ∧ (∀ k, outside k r.addr.toNat bs.length → u.dev.memByte k = s.dev.memByte k) ∧
      u.dev.mct.returned = s.dev.mct.returned ++ [{ mid := r.mid, tag := r.tag, ok := true, data := [] }] := by
  refine ⟨_, memoryRequest_away hm hs, ?_⟩
  unfold Dev.completeAway
  dsimp only
  obtain ⟨e, he, hmem, hmct, -, -, hwrite⟩ := s.dev.granted_spec (r.mid.val = 65) r.addr.toNat
  rw [he, hd]
  dsimp only
  rw [hwrite, hw]
  dsimp only
  refine ⟨fun k hk => ?_, ?_⟩
  · exact ((Dev.memByte_congr rfl k).trans (Dev.store_memSameBut _ bs e k hk)).trans (Dev.memByte_congr hmem k)
  · unfold Dev.answer
    dsimp only
    rw [Dev.store_returned, hmct]

theorem memoryRequest_reads (hs : s.dev.span r.addr.toNat r.len ≠ .gddr) (hd : r.data = none)
    (hr : s.dev.readRes r.mid r.addr.toNat r.len = .ok) :
    ∃ u, exec (.memoryRequest r) s = .next u ∧ u.dev.mem = s.dev.mem ∧ u.dev.mct.returned = s.dev.mct.returned ++
      [{ mid := r.mid, tag := r.tag, ok := true, data := s.dev.bytes r.addr.toNat r.len }] := by
  refine ⟨_, memoryRequest_away hm hs, ?_⟩
  unfold Dev.completeAway
  dsimp only
  obtain ⟨e, he, hmem, hmct, hbyte, hread, -⟩ := s.dev.granted_spec (r.mid.val = 65) r.addr.toNat
  rw [he, hd]
  dsimp only
  rw [hread, hr]
  dsimp only
  refine ⟨hmem, ?_⟩
  unfold Dev.answer
  dsimp only
  rw [hmct, Dev.bytes_congr hbyte]

end

/-! ## Requests that are issued -/

theorem commandSlot_none {g : GangNo} {s : State} (hst : s.dev.mct.state = 2) (hp : s.dev.pick (s.dev.gang g) = none) :
    exec (.commandSlot g) s = .next s := by
  show execCommandSlot g s = _
  rw [execCommandSlot, State.dev!_next, decide_eq_true hst, Dev.when_true, Dev.issueNext]
  dsimp only
  rw [hp]

/-- A request that is answered, or whose answer is dropped, leaves memory, the gangs and what the checks count. -/
theorem Dev.respond_spec (r : MemReq) (gen : BitVec 8) (ok : Bool) (data : List Byte) (d : Dev) :
    (d.respond r gen ok data).mem = d.mem ∧ (d.respond r gen ok data).mct.gangs = d.mct.gangs ∧
    (d.respond r gen ok data).mct.waiting = d.mct.waiting ∧ (d.respond r gen ok data).mct.corrected = d.mct.corrected ∧
    (d.respond r gen ok data).mct.uncorr = d.mct.uncorr ∧ (∀ t, (d.respond r gen ok data).unavailable t = d.unavailable t) ∧
    (if (d.tag r.tag).gen = gen then (d.respond r gen ok data).mct.late = d.mct.late ∧ (d.respond r gen ok data).mct.returned =
        d.mct.returned ++ [{ mid := r.mid, tag := r.tag, ok := ok, data := data }]
      else (d.respond r gen ok data).mct.late = d.mct.late + 1 ∧ (d.respond r gen ok data).mct.returned = d.mct.returned ∧
        ∃ e ∈ (d.respond r gen ok data).flt.arrivals, e.src = 518) := by
  unfold Dev.respond
  by_cases h : (d.tag r.tag).gen = gen
  · rw [if_pos h, if_pos h]
    exact ⟨rfl, rfl, rfl, rfl, rfl, fun _ => rfl, rfl, rfl⟩
  · rw [if_neg h, if_neg h]
    exact ⟨rfl, rfl, rfl, rfl, rfl, fun _ => rfl, rfl, rfl, _, List.mem_append_right _ (List.mem_singleton_self _), rfl⟩

theorem Dev.store_controller (a : Nat) (bs : List Byte) (d : Dev) : (d.store a bs).mct.gangs = d.mct.gangs ∧
    (d.store a bs).mct.waiting = d.mct.waiting ∧ (d.store a bs).mct.corrected = d.mct.corrected ∧ (d.store a bs).mct.late = d.mct.late ∧
    (∀ t, (d.store a bs).unavailable t = d.unavailable t) ∧ ∀ t, (d.store a bs).tag t = d.tag t := by
  obtain ⟨m, p, g, o, he, -, -⟩ := d.store_marks a bs
  rw [he]
  exact ⟨rfl, rfl, rfl, rfl, fun _ => rfl, fun _ => rfl⟩

/-- What the issue of a request leaves of its gang and of the rest. -/
structure Dev.Issued (g : Nat) (d e : Dev) : Prop where
  queues : (e.gang g).queues = (d.gang g).queues
  ptr : (e.gang g).ptr = (d.gang g).ptr
  others : ∀ k, k ≠ g → e.gang k = d.gang k
  waiting : e.mct.waiting = d.mct.waiting

theorem Dev.startBurst_issued (g : Nat) (f : InFlight) (d : Dev) : d.Issued g (d.startBurst g f) ∧ (d.startBurst g f).mem = d.mem ∧
    ((d.startBurst g f).gang g).inflight = (d.gang g).inflight ++ [f] := by
  unfold Dev.startBurst
  dsimp only
  refine ⟨⟨?_, ?_, fun k hk => Dev.gang_setGang_ne _ _ hk, rfl⟩, rfl, ?_⟩
  all_goals rw [Dev.gang_setGang]

theorem Gang.coverAtom_reqs (t : Nat) (x : Gang) : (x.coverAtom t).inflight.map (·.req) = x.inflight.map (·.req) := by
  unfold Gang.coverAtom
  rw [List.map_map]
  refine List.map_congr_left fun f _ => ?_
  dsimp only [Function.comp]
  split <;> rfl

section
variable {g : Nat} {q : BankReq} {d : Dev}

theorem Dev.issue_read (h : q.req.data = none ∨ q.req.len ≠ 256) : d.Issued g (d.issue g q) ∧ (d.issue g q).mem = d.mem ∧
    ∃ f, ((d.issue g q).gang g).inflight = (d.gang g).inflight ++ [f] ∧ f.req = q.req ∧ f.gen = q.gen ∧
      f.bytes = d.bytes (256 * atomOf q.req) 256 := by
  unfold Dev.issue
  dsimp only
  obtain ⟨e, he, hmem, hmct, hbyte, -, -⟩ := d.granted_spec (q.req.mid.val = 65) q.req.addr.toNat
  rw [he]
  have hgang (k : Nat) : e.gang k = d.gang k := Dev.gang_congr (by rw [hmct]) k
  obtain ⟨⟨hqueues, hptr, hothers, hwaiting⟩, hm, hin⟩ := e.startBurst_issued g
    { req := q.req, gen := q.gen, bytes := e.bytes (256 * atomOf q.req) 256, bad := e.mct.poison.contains (atomOf q.req) }
  have hgo : d.Issued g (e.startBurst g { req := q.req, gen := q.gen, bytes := e.bytes (256 * atomOf q.req) 256, bad := e.mct.poison.contains (atomOf q.req) }) ∧
      (e.startBurst g { req := q.req, gen := q.gen, bytes := e.bytes (256 * atomOf q.req) 256, bad := e.mct.poison.contains (atomOf q.req) }).mem = d.mem ∧
      ∃ f, ((e.startBurst g { req := q.req, gen := q.gen, bytes := e.bytes (256 * atomOf q.req) 256, bad := e.mct.poison.contains (atomOf q.req) }).gang g).inflight =
        (d.gang g).inflight ++ [f] ∧ f.req = q.req ∧ f.gen = q.gen ∧ f.bytes = d.bytes (256 * atomOf q.req) 256 :=
    ⟨⟨hqueues.trans (by rw [hgang]), hptr.trans (by rw [hgang]), fun k hk => (hothers k hk).trans (hgang k), hwaiting.trans (by rw [hmct])⟩,
      hm.trans hmem, _, hin.trans (by rw [hgang]), rfl, rfl, Dev.bytes_congr hbyte ..⟩
  cases hd : q.req.data with
  | none => exact hgo
  | some bs =>
    dsimp only
    rw [if_neg (h.resolve_left (by rw [hd]; exact nofun))]
    exact hgo

theorem Dev.issue_write {bs : List Byte} (hd : q.req.data = some bs) (hl : q.req.len = 256) : d.Issued g (d.issue g q) ∧
    ((d.issue g q).gang g).inflight.map (·.req) = (d.gang g).inflight.map (·.req) ∧
    (∀ i (h : i < bs.length), (d.issue g q).memByte (q.req.addr.toNat + i) = bs[i]) ∧
    ∀ k, outside k q.req.addr.toNat bs.length → (d.issue g q).memByte k = d.memByte k := by
  unfold Dev.issue
  dsimp only
  obtain ⟨e, he, hmem, hmct, -, -, -⟩ := d.granted_spec (q.req.mid.val = 65) q.req.addr.toNat
  rw [he, hd]
  dsimp only
  rw [if_pos hl]
  obtain ⟨hgangs, hwaiting, -, -, -, -⟩ := e.store_controller q.req.addr.toNat bs
  have hgang (k : Nat) : (e.store q.req.addr.toNat bs).gang k = d.gang k := Dev.gang_congr (by rw [hgangs, hmct]) k
  have hin (i : Nat) (hi : i < bs.length) : (e.store q.req.addr.toNat bs).memByte (q.req.addr.toNat + i) = bs[i] := by
    rw [Dev.store_memByte _ _ _ hi, List.getD_eq_getElem _ _ hi]
  have hout (k : Nat) (hk : outside k q.req.addr.toNat bs.length) : (e.store q.req.addr.toNat bs).memByte k = d.memByte k :=
    (Dev.store_memSameBut _ bs e k hk).trans (Dev.memByte_congr hmem k)
  generalize e.store q.req.addr.toNat bs = f at *
  obtain ⟨hm, hg, hw, -⟩ := Dev.respond_spec q.req q.gen true [] (f.setGang g ((f.gang g).coverAtom (atomOf q.req)))
  have hgang' (k : Nat) := Dev.gang_congr hg k
  refine ⟨⟨?_, ?_, fun k hk => ?_, hw.trans (hwaiting.trans (by rw [hmct]))⟩, ?_, fun i hi => (Dev.memByte_congr hm _).trans (hin i hi),
    fun k hk => (Dev.memByte_congr hm _).trans (hout k hk)⟩
  · rw [hgang', Dev.gang_setGang, hgang]
    rfl
  · rw [hgang', Dev.gang_setGang, hgang]
    rfl
  · rw [hgang', Dev.gang_setGang_ne _ _ hk, hgang]
  · rw [hgang', Dev.gang_setGang, Gang.coverAtom_reqs, hgang]

end

theorem Dev.admitWaiting_mem (d : Dev) : d.admitWaiting.mem = d.mem := by simp

theorem Dev.admitWaiting_none {d : Dev} (h : d.mct.waiting = []) (k : Nat) : d.admitWaiting.gang k = d.gang k := by
  unfold Dev.admitWaiting
  rw [h]
  rfl

/-- The slot's choice leaves its bank's queue, and the pointer moves on. -/
theorem commandSlot_issues {g : GangNo} {b : Nat} {q : BankReq} {s : State} (hst : s.dev.mct.state = 2)
    (hp : s.dev.pick (s.dev.gang g) = some (b, q)) : ∃ (u : State) (d v : Dev), exec (.commandSlot g) s = .next u ∧ u.dev = v.admitWaiting ∧
      v = d.issue g q ∧ d = s.dev.setGang g { ((s.dev.gang g).setBankQueue b (((s.dev.gang g).bankQueue b).erase q)) with ptr := (b + 1) % 16 } := by
  refine ⟨⟨_, s.pending⟩, _, _, ?_, rfl, rfl, rfl⟩
  show execCommandSlot g s = _
  rw [execCommandSlot, State.dev!_next, decide_eq_true hst, Dev.when_true, Dev.issueNext]
  dsimp only
  rw [hp]
  rfl

/-! ## Bursts that return -/

theorem receivedSymbol_clean (bs : List Byte) (p t : Nat) : receivedSymbol {} bs p t = atomSymbol bs p t := rfl

/-- The seventeen symbols of a beat as it was written sum to 0. -/
theorem sumBut_clean (bs : List Byte) (t : Nat) : sumBut {} bs [] t = 0 := by
  unfold sumBut
  have hall : ((List.range 17).filter fun p => !([] : List Nat).contains p) = List.range 16 ++ [16] := by decide
  have hdata (l : List Nat) (x : Byte) (h : ∀ p ∈ l, p < 16) :
      l.foldl (fun x p => x ^^^ receivedSymbol {} bs p t) x = l.foldl (fun x p => x ^^^ bs.getD (16 * t + p) 0) x := by
    induction l generalizing x with
    | nil => rfl
    | cons p l ih =>
      rw [List.foldl_cons, List.foldl_cons, ih _ fun p' hp' => h p' (List.mem_cons_of_mem _ hp'), receivedSymbol_clean, atomSymbol,
        if_pos (h p List.mem_cons_self)]
  rw [hall, List.foldl_append, hdata _ _ fun p hp => List.mem_range.mp hp]
  show checkSymbol bs t ^^^ receivedSymbol {} bs 16 t = 0
  rw [receivedSymbol_clean, atomSymbol, if_neg (by decide), BitVec.xor_self]
  rfl

theorem erasedIn_clean (t : Nat) : erasedIn [] [] t = [] := by
  unfold erasedIn
  exact List.filter_eq_nil_iff.mpr fun p _ => by simp

theorem burstRes_clean (bs : List Byte) (beats : List Nat) (again : Bool) : burstRes {} bs beats [] false again = .good [] := by
  have herased : beats.map (erasedIn [] ({} : BurstInput).linkFail) = beats.map fun _ => [] := List.map_congr_left fun t _ => erasedIn_clean t
  unfold burstRes
  dsimp only
  rw [if_neg, if_neg]
  · rw [herased]
    simp
  · simp [sumBut_clean]
  · rw [herased]
    simp

theorem finalBytes_clean {bs : List Byte} (h : bs.length = 256) : finalBytes {} bs [] = bs := by
  unfold finalBytes
  apply List.ext_getElem
  · rw [List.length_map, List.length_range, h]
  · intro n h₁ h₂
    rw [List.getElem_map, List.getElem_range, correctedByte, if_neg (by rw [erasedIn_clean]; exact Bool.false_ne_true), receivedSymbol_clean, atomSymbol,
      if_pos (Nat.mod_lt _ (by decide)), Nat.div_add_mod, List.getD_eq_getElem _ _ h₂]

theorem burstChecked_clean {g t mid : Nat} {bs : List Byte} {beats : List Nat} {mark : Bool} {d : Dev} (h : d.unavailable t = []) :
    d.LanesOnly (d.burstChecked g t mid {} bs beats (.good []) mark) := by
  have hnone : failedPositions {} beats [] = [] := List.filter_eq_nil_iff.mpr fun p _ => by simp
  unfold Dev.burstChecked
  dsimp only
  rw [h, hnone, List.foldl_nil, show d.rebuilt t mid [] = d from rfl]
  exact Dev.references_lanesOnly ..

theorem mergeBytes_length {atom bs : List Byte} {o : Nat} (ha : atom.length = 256) (h : o + bs.length ≤ 256) : (mergeBytes atom o bs).length = 256 := by
  unfold mergeBytes
  rw [List.length_append, List.length_append, List.length_take, List.length_drop]
  omega

/-- What a burst that returns leaves in its gang's list of bursts. -/
def Dev.burstTaken (g : Nat) (rest : List InFlight) (d : Dev) : Dev := d.setGang g { d.gang g with inflight := rest }

theorem Dev.burstTaken_spec (g : Nat) (rest : List InFlight) (d : Dev) : ((d.burstTaken g rest).gang g).inflight = rest ∧
    (∀ k, k ≠ g → (d.burstTaken g rest).gang k = d.gang k) ∧ ∀ t, (d.burstTaken g rest).unavailable t = d.unavailable t := by
  unfold Dev.burstTaken
  refine ⟨by rw [Dev.gang_setGang], fun k hk => Dev.gang_setGang_ne _ _ hk, fun t => ?_⟩
  have hswitched (k : Nat) : ((d.setGang g { d.gang g with inflight := rest }).gang k).switched = (d.gang k).switched := by
    by_cases hk : k = g
    · rw [hk, Dev.gang_setGang]
    · rw [Dev.gang_setGang_ne _ _ hk]
  unfold Dev.unavailable
  rw [hswitched]
  rfl

section
variable {g : GangNo} {f : InFlight} {rest : List InFlight} {s : State} (hf : (s.dev.gang g).inflight = f :: rest)
include hf

theorem exec_atomReadReturn (i : BurstInput) : exec (.atomReadReturn g i) s = .next ⟨s.dev.burstReturns g f rest i, s.pending⟩ := by
  show execAtomReadReturn g i s = _
  rw [execAtomReadReturn, State.dev!_next, hf]

/-- A clean burst: the answer, the merge of a partial write, and what the shadow samplers count. -/
theorem atomReadReturn_clean (hu : s.dev.unavailable (atomOf f.req) = []) (hb : f.bad = false) (hl : f.bytes.length = 256) :
    ∃ (u : State) (d e : Dev), exec (.atomReadReturn g {}) s = .next u ∧ e.LanesOnly u.dev ∧
      (match f.req.data with
        | none => d = s.dev.burstTaken g rest ∧ e = d.respond f.req f.gen true ((f.bytes.drop (f.req.addr.toNat % 256)).take f.req.len)
        | some bs => d = (s.dev.burstTaken g rest).store (256 * atomOf f.req) (mergeBytes f.bytes (f.req.addr.toNat % 256) bs) ∧
          e = d.respond f.req f.gen true []) := by
  have hres : burstRes {} f.bytes (beatsOf f.req) (s.dev.unavailable (atomOf f.req)) f.bad f.again = .good [] := by
    rw [hu, hb, burstRes_clean]
  have hfinal : finalBytes {} f.bytes (s.dev.unavailable (atomOf f.req)) = f.bytes := by rw [hu, finalBytes_clean hl]
  have htaken := (s.dev.burstTaken_spec g rest).2.2 (atomOf f.req)
  have hgo : s.dev.burstReturns g f rest {} = Dev.burstChecked g (atomOf f.req) f.req.mid {} f.bytes (beatsOf f.req) (.good []) (!f.covered)
      (match f.req.data with
        | some bs => ((s.dev.burstTaken g rest).store (256 * atomOf f.req) (mergeBytes f.bytes (f.req.addr.toNat % 256) bs)).respond f.req f.gen true []
        | none => (s.dev.burstTaken g rest).respond f.req f.gen true ((f.bytes.drop (f.req.addr.toNat % 256)).take f.req.len)) := by
    unfold Dev.burstReturns
    dsimp only
    rw [hres, hfinal] <;> rfl
  have hanswered (d : Dev) (h : d.unavailable (atomOf f.req) = []) (data : List Byte) :
      (d.respond f.req f.gen true data).LanesOnly ((d.respond f.req f.gen true data).burstChecked g (atomOf f.req) f.req.mid {} f.bytes
        (beatsOf f.req) (.good []) (!f.covered)) := by
    obtain ⟨-, -, -, -, -, hun, -⟩ := d.respond_spec f.req f.gen true data
    exact burstChecked_clean ((hun _).trans h)
  rw [exec_atomReadReturn hf, hgo]
  cases hd : f.req.data with
  | none => exact ⟨⟨_, s.pending⟩, _, _, rfl, hanswered _ (htaken.trans hu) _, rfl, rfl⟩
  | some bs =>
    refine ⟨⟨_, s.pending⟩, _, _, rfl, hanswered _ ?_ _, rfl, rfl⟩
    obtain ⟨-, -, -, -, hun, -⟩ := (s.dev.burstTaken g rest).store_controller (256 * atomOf f.req) (mergeBytes f.bytes (f.req.addr.toNat % 256) bs)
    exact (hun _).trans (htaken.trans hu)

/-- Two positions erased in one beat make a burst uncorrectable. -/
theorem atomReadReturn_lost (p q t : Nat) (flips : List (Nat × Nat × Byte)) (shadow : List ShadowSample) (hpq : p < q) (hq : q < 17)
    (ht : t ∈ beatsOf f.req) : ∃ u, exec (.atomReadReturn g { linkFail := [(p, t), (q, t)], flips := flips, shadow := shadow }) s = .next u ∧
      u.dev.mem = s.dev.mem ∧ (u.dev.gang g).inflight = rest ∧
      u.dev.mct.uncorr = s.dev.mct.uncorr + 1 ∧ (∃ e ∈ u.dev.flt.arrivals, e.src = 513) ∧
      (f.covered = false → u.dev.mct.poison.contains (atomOf f.req) = true) ∧
      if (s.dev.tag f.req.tag).gen = f.gen then
        ∃ a ∈ u.dev.mct.returned, a.mid = f.req.mid.val ∧ a.tag = f.req.tag ∧ a.ok = false
      else u.dev.mct.returned = s.dev.mct.returned := by
  obtain ⟨i, hi, hfail⟩ : ∃ i : BurstInput, i = { linkFail := [(p, t), (q, t)], flips := flips, shadow := shadow } ∧
    i.linkFail = [(p, t), (q, t)] := ⟨_, rfl, rfl⟩
  rw [← hi]
  have hres : burstRes i f.bytes (beatsOf f.req) (s.dev.unavailable (atomOf f.req)) f.bad f.again = .bad := by
    have herased : 2 ≤ (erasedIn (s.dev.unavailable (atomOf f.req)) i.linkFail t).length := by
      refine (List.subperm_of_subset (l₁ := [p, q]) (by simp; omega) fun x hx => ?_).length_le
      unfold erasedIn
      rw [hfail, List.mem_filter, List.mem_range]
      simp only [List.mem_cons, List.not_mem_nil, or_false] at hx
      rcases hx with rfl | rfl
      · exact ⟨by omega, by simp⟩
      · exact ⟨by omega, by simp⟩
    unfold burstRes
    dsimp only
    rw [if_pos]
    rw [Bool.or_eq_true, List.any_eq_true]
    exact .inr ⟨_, List.mem_map_of_mem ht, decide_eq_true herased⟩
  have hgo : s.dev.burstReturns g f rest i = Dev.burstChecked g (atomOf f.req) f.req.mid i f.bytes (beatsOf f.req) .bad (!f.covered)
      ((s.dev.burstTaken g rest).respond f.req f.gen false []) := by
    unfold Dev.burstReturns
    dsimp only
    rw [hres] <;> rfl
  refine ⟨_, exec_atomReadReturn hf i, ?_⟩
  dsimp only
  rw [hgo]
  obtain ⟨hin, -, -⟩ := s.dev.burstTaken_spec g rest
  have htaken : (s.dev.burstTaken g rest).mem = s.dev.mem ∧ (s.dev.burstTaken g rest).mct.uncorr = s.dev.mct.uncorr ∧
    (s.dev.burstTaken g rest).mct.returned = s.dev.mct.returned ∧ ∀ k, (s.dev.burstTaken g rest).tag k = s.dev.tag k := ⟨rfl, rfl, rfl, fun _ => rfl⟩
  obtain ⟨htm, htu, htr, htt⟩ := htaken
  obtain ⟨hm, hgangs, -, -, hun, -, hif⟩ := (s.dev.burstTaken g rest).respond_spec f.req f.gen false []
  have hback : if (s.dev.tag f.req.tag).gen = f.gen then
      ∃ a ∈ ((s.dev.burstTaken g rest).respond f.req f.gen false []).mct.returned, a.mid = f.req.mid.val ∧ a.tag = f.req.tag ∧ a.ok = false
      else ((s.dev.burstTaken g rest).respond f.req f.gen false []).mct.returned = s.dev.mct.returned := by
    rw [htt] at hif
    split at hif
    · next h => rw [if_pos h, hif.2]; exact ⟨_, List.mem_append_right _ (List.mem_singleton_self _), rfl, rfl, rfl⟩
    · next h => rw [if_neg h]; exact hif.2.1.trans htr
  generalize (s.dev.burstTaken g rest).respond f.req f.gen false [] = d at *
  unfold Dev.burstChecked
  dsimp only
  have hmark : ∃ e : Dev, (if (!f.covered) = true then d.markBad (atomOf f.req) else d) = e ∧ e.mem = d.mem ∧ e.mct.gangs = d.mct.gangs ∧
      e.mct.uncorr = d.mct.uncorr ∧ e.mct.returned = d.mct.returned ∧ (f.covered = false → e.mct.poison.contains (atomOf f.req) = true) := by
    refine ⟨_, rfl, ?_⟩
    unfold Dev.markBad
    cases f.covered with
    | true => exact ⟨rfl, rfl, rfl, rfl, fun h => absurd h (by decide)⟩
    | false =>
      rw [if_pos (by decide)]
      split
      · next h => exact ⟨rfl, rfl, rfl, rfl, fun _ => List.contains_iff_mem.mpr h⟩
      · exact ⟨rfl, rfl, rfl, rfl, fun _ => List.contains_iff_mem.mpr List.mem_cons_self⟩
  obtain ⟨e, he, hem, heg, heu, her, hep⟩ := hmark
  rw [he]
  obtain ⟨y, hy, hym, hyg, hyu, hyr, hyp, hyf⟩ : ∃ y : Dev, e.uncorrectable (atomOf f.req) f.req.mid = y ∧ y.mem = e.mem ∧
      y.mct.gangs = e.mct.gangs ∧ y.mct.uncorr = e.mct.uncorr + 1 ∧ y.mct.returned = e.mct.returned ∧ y.mct.poison = e.mct.poison ∧
      ∃ a ∈ y.flt.arrivals, a.src = 513 :=
    ⟨_, rfl, rfl, rfl, rfl, rfl, rfl, _, List.mem_append_right _ (List.mem_singleton_self _), rfl⟩
  rw [hy]
  obtain ⟨hzm, hzg, hzr, hzu, hzp, -, -, -, hzf⟩ := Dev.foldl_sitesOnly
    (fun e p => Dev.linkFailed_sitesOnly (((List.range 17).map (d.servingSite (atomOf f.req))).getD p p) e)
    (failedPositions i (beatsOf f.req) (d.unavailable (atomOf f.req))) y
  generalize List.foldl _ y _ = z at *
  obtain ⟨a, ha, hsrc⟩ := hyf
  refine ⟨hzm.trans (hym.trans (hem.trans (hm.trans htm))), ?_, ?_, ⟨a, hzf.kept a ha, hsrc⟩, fun h => ?_, ?_⟩
  · rw [Dev.gang_congr (hzg.trans (hyg.trans (heg.trans hgangs))), hin]
  · rw [hzu, hyu, heu, hun, htu]
  · rw [hzp, hyp]
    exact hep h
  · rw [hzr, hyr, her]
    exact hback

end

/-- Settles O50: requests that arrive, that are issued, and bursts that return. -/
theorem requestsQueueIssueAndReturn : Obligations.RequestsQueueIssueAndReturn := by
  unfold Obligations.RequestsQueueIssueAndReturn
  refine ⟨fun r s => memoryRequest_idle, fun r x b s hm hx hb => ⟨memoryRequest_queues hm hx hb, memoryRequest_denied hm,
    fun hs => ⟨memoryRequest_writes hm hs, memoryRequest_reads hm hs⟩⟩, ?slot, fun g f rest s hf => ⟨?clean, fun p q t flips shadow =>
      atomReadReturn_lost hf p q t flips shadow⟩⟩
  case slot =>
    rintro g b q x s hst rfl
    refine ⟨commandSlot_none hst, fun hp => ?_⟩
    obtain ⟨u, d, v, he, hu, hv, hd⟩ := commandSlot_issues hst hp
    have hgang : d.gang g = { ((s.dev.gang g).setBankQueue b (((s.dev.gang g).bankQueue b).erase q)) with ptr := (b + 1) % 16 } := by
      rw [hd, Dev.gang_setGang]
    have hne (k : Nat) (hk : k ≠ g.val) : d.gang k = s.dev.gang k := by rw [hd, Dev.gang_setGang_ne _ _ hk]
    have hsame : d.mem = s.dev.mem ∧ d.mct.waiting = s.dev.mct.waiting ∧ ∀ a, d.byte a = s.dev.byte a := by
      rw [hd]
      exact ⟨rfl, rfl, fun _ => rfl⟩
    obtain ⟨hmem, hwaiting, hbyte⟩ := hsame
    have hrest (hi : d.Issued g v) : u.dev.mem = v.mem ∧ (v.gang g).bankQueue b = ((s.dev.gang g).bankQueue b).erase q ∧
        (v.gang g).ptr = (b + 1) % 16 ∧ (∀ k, k ≠ g.val → v.gang k = s.dev.gang k) ∧ v.mct.waiting = s.dev.mct.waiting ∧
        (s.dev.mct.waiting = [] → u.dev.gang g = v.gang g) := by
      obtain ⟨hqueues, hptr, hothers, hwait⟩ := hi
      refine ⟨by rw [hu, Dev.admitWaiting_mem], ?_, by rw [hptr, hgang], fun k hk => (hothers k hk).trans (hne k hk), hwait.trans hwaiting,
        fun h => by rw [hu, Dev.admitWaiting_none ((hwait.trans hwaiting).trans h)]⟩
      unfold Gang.bankQueue
      rw [hqueues, hgang]
      exact FMap.get_put_same ..
    have hin : (d.gang g).inflight = (s.dev.gang g).inflight := by rw [hgang]; rfl
    refine ⟨u, v, he, hu, ?_⟩
    cases hdata : q.req.data with
    | none =>
      obtain ⟨hi, hm, f, hfl, hreq, hgen, hbytes⟩ := Dev.issue_read (g := g) (d := d) (.inl hdata)
      rw [← hv] at hi hm hfl
      obtain ⟨h₁, h₂, h₃, h₄, h₅, h₆⟩ := hrest hi
      exact ⟨h₁, h₂, h₃, h₄, h₅, h₆, hm.trans hmem, f, by rw [hfl, hin], hreq, hgen, by rw [hbytes, Dev.bytes_congr hbyte]⟩
    | some bs =>
      dsimp only
      by_cases hl : q.req.len = 256
      · obtain ⟨hi, hreqs, hinside, hout⟩ := Dev.issue_write (g := g) (d := d) hdata hl
        rw [← hv] at hi hreqs hinside hout
        obtain ⟨h₁, h₂, h₃, h₄, h₅, h₆⟩ := hrest hi
        rw [if_pos hl]
        exact ⟨h₁, h₂, h₃, h₄, h₅, h₆, by rw [hreqs, hin], hinside, fun k hk => (hout k hk).trans (Dev.memByte_congr hmem k)⟩
      · obtain ⟨hi, hm, f, hfl, hreq, hgen, hbytes⟩ := Dev.issue_read (g := g) (d := d) (.inr hl)
        rw [← hv] at hi hm hfl
        obtain ⟨h₁, h₂, h₃, h₄, h₅, h₆⟩ := hrest hi
        rw [if_neg hl]
        exact ⟨h₁, h₂, h₃, h₄, h₅, h₆, hm.trans hmem, f, by rw [hfl, hin], hreq, hgen, by rw [hbytes, Dev.bytes_congr hbyte]⟩
  case clean =>
    intro hu hb hl
    obtain ⟨u, d, e, he, ⟨l, hlanes⟩, hcase⟩ := atomReadReturn_clean hf hu hb hl
    obtain ⟨hin, hne, -⟩ := s.dev.burstTaken_spec g rest
    have hue : u.dev.mem = e.mem ∧ u.dev.mct.gangs = e.mct.gangs ∧ u.dev.mct.corrected = e.mct.corrected ∧ u.dev.mct.late = e.mct.late ∧
        u.dev.mct.returned = e.mct.returned ∧ u.dev.flt = e.flt := by
      rw [hlanes]
      exact ⟨rfl, rfl, rfl, rfl, rfl, rfl⟩
    obtain ⟨hum, hug, huc, hul, hur, huf⟩ := hue
    have hanswer (data : List Byte) (hed : e = d.respond f.req f.gen true data) (hg : d.mct.gangs = (s.dev.burstTaken g rest).mct.gangs)
        (hc : d.mct.corrected = s.dev.mct.corrected) (hlate : d.mct.late = s.dev.mct.late) (hret : d.mct.returned = s.dev.mct.returned)
        (htag : d.tag f.req.tag = s.dev.tag f.req.tag)
        (hdata : f.req.data = none → data = (f.bytes.drop (f.req.addr.toNat % 256)).take f.req.len) :
        (u.dev.gang g).inflight = rest ∧ (∀ k, k ≠ g.val → u.dev.gang k = s.dev.gang k) ∧ u.dev.mct.corrected = s.dev.mct.corrected ∧
        (if (s.dev.tag f.req.tag).gen = f.gen then u.dev.mct.late = s.dev.mct.late ∧
          ∃ a, u.dev.mct.returned = s.dev.mct.returned ++ [a] ∧ a.mid = f.req.mid.val ∧ a.tag = f.req.tag ∧ a.ok = true ∧
            (f.req.data = none → a.data = (f.bytes.drop (f.req.addr.toNat % 256)).take f.req.len)
         else u.dev.mct.late = s.dev.mct.late + 1 ∧ u.dev.mct.returned = s.dev.mct.returned ∧ ∃ a ∈ u.dev.flt.arrivals, a.src = 518) ∧
        u.dev.mem = d.mem := by
      obtain ⟨hm, hgangs, -, hcorr, -, -, hif⟩ := d.respond_spec f.req f.gen true data
      rw [← hed] at hm hgangs hcorr hif
      have hgang (k : Nat) := Dev.gang_congr (hug.trans (hgangs.trans hg)) k
      refine ⟨by rw [hgang, hin], fun k hk => by rw [hgang, hne k hk], huc.trans (hcorr.trans hc), ?_, hum.trans hm⟩
      rw [htag] at hif
      rw [hul, hur, huf]
      by_cases hgen : (s.dev.tag f.req.tag).gen = f.gen
      · rw [if_pos hgen] at hif ⊢
        exact ⟨hif.1.trans hlate, _, by rw [hif.2, hret], rfl, rfl, rfl, hdata⟩
      · rw [if_neg hgen] at hif ⊢
        exact ⟨by rw [hif.1, hlate], hif.2.1.trans hret, hif.2.2⟩
    refine ⟨u, he, ?_⟩
    cases hdata : f.req.data with
    | none =>
      rw [hdata] at hcase
      obtain ⟨hd, hed⟩ := hcase
      obtain ⟨h₁, h₂, h₃, h₄, h₅⟩ := hanswer _ hed (by rw [hd]) (by rw [hd]; rfl) (by rw [hd]; rfl) (by rw [hd]; rfl) (by rw [hd]; rfl) fun _ => rfl
      rw [hdata] at h₄
      exact ⟨h₁, h₂, h₃, h₄, h₅.trans (by rw [hd]; rfl)⟩
    | some bs =>
      rw [hdata] at hcase
      obtain ⟨hd, hed⟩ := hcase
      obtain ⟨hg, -, hc, hlate, -, htag⟩ := (s.dev.burstTaken g rest).store_controller (256 * atomOf f.req) (mergeBytes f.bytes (f.req.addr.toNat % 256) bs)
      have hret := (s.dev.burstTaken g rest).store_returned (256 * atomOf f.req) (mergeBytes f.bytes (f.req.addr.toNat % 256) bs)
      rw [← hd] at hg hc hlate htag hret
      obtain ⟨h₁, h₂, h₃, h₄, h₅⟩ := hanswer _ hed hg hc hlate hret (htag _) fun h => absurd (hdata.symm.trans h) nofun
      rw [hdata] at h₄
      refine ⟨h₁, h₂, h₃, h₄, fun hfit => ?_⟩
      have hlen := mergeBytes_length hl hfit
      refine ⟨fun k hk => ?_, fun k hk => ?_⟩
      · rw [Dev.memByte_congr h₅, hd, Dev.store_memByte _ _ _ (by rw [hlen]; exact hk)]
      · rw [Dev.memByte_congr h₅, hd, Dev.store_memSameBut _ _ _ k (by rw [hlen]; exact hk)]
        rfl

end Sys2Proof.Machine
end

section
/-!
PROOF of O51: refresh slots, write probes, read windows and lane retrains.
-/
namespace Sys2Proof.Machine
set_option Elab.async false

/-! ## Refresh -/

theorem Dev.refreshWindow_mem (g : Nat) (d : Dev) : (d.refreshWindow g).mem = d.mem := by simp

theorem Dev.slotRefresh_mem (g b : Nat) (d : Dev) : (d.slotRefresh g b).mem = d.mem := by simp

/-- A slot of a bank refreshes it, or postpones or forces the refresh. -/
theorem Dev.slotRefresh_spec (g b : Nat) (d : Dev) {x : Gang} (hx : d.gang g = x) : ((d.slotRefresh g b).gang g).slot = x.slot ∧
    (∀ k, k ≠ g → (d.slotRefresh g b).gang k = d.gang k) ∧
    if x.urgent = false then FMap.get (fun _ => 0) ((d.slotRefresh g b).gang g).refreshing b = d.now + x.rfc ∧
      ((d.slotRefresh g b).gang g).probeDue = x.probeDue.filter (· ≠ b) ++ [b] ∧ ((d.slotRefresh g b).gang g).debt = x.debt
    else if x.debtOf b < x.debtMax then ((d.slotRefresh g b).gang g).debtOf b = x.debtOf b + 1 ∧
      ((d.slotRefresh g b).gang g).refreshing = x.refreshing ∧ (d.slotRefresh g b).mct.postponed = d.mct.postponed + 1
    else FMap.get (fun _ => 0) ((d.slotRefresh g b).gang g).refreshing b = d.now + x.rfc ∧ ((d.slotRefresh g b).gang g).debt = x.debt ∧
      (d.slotRefresh g b).mct.forced = d.mct.forced + 1 := by
  have hbump (y : Gang) (f : Mct → Mct) (hf : ∀ m, (f m).gangs = m.gangs) (k : Nat) :
      Dev.gang { d.setGang g y with mct := f (d.setGang g y).mct } k = (d.setGang g y).gang k := Dev.gang_congr (hf _) k
  unfold Dev.slotRefresh
  dsimp only
  rw [hx]
  by_cases hu : x.urgent = false
  · rw [if_pos (by rw [hu]; decide), if_pos hu, Dev.gang_setGang]
    exact ⟨rfl, fun k hk => Dev.gang_setGang_ne _ _ hk, FMap.get_put_same .., rfl, rfl⟩
  rw [if_neg (not_not_intro (by simpa using hu)), if_neg hu]
  by_cases hdebt : x.debtOf b < x.debtMax
  · rw [if_pos hdebt, if_pos hdebt, hbump _ (fun m => { m with postponed := m.postponed + 1 }) fun _ => rfl, Dev.gang_setGang]
    exact ⟨rfl, fun k hk => (hbump _ (fun m => { m with postponed := m.postponed + 1 }) (fun _ => rfl) k).trans (Dev.gang_setGang_ne _ _ hk),
      by unfold Gang.debtOf; rw [FMap.get_put_same], rfl, rfl⟩
  · rw [if_neg hdebt, if_neg hdebt, hbump _ (fun m => { m with forced := m.forced + 1 }) fun _ => rfl, Dev.gang_setGang]
    exact ⟨rfl, fun k hk => (hbump _ (fun m => { m with forced := m.forced + 1 }) (fun _ => rfl) k).trans (Dev.gang_setGang_ne _ _ hk),
      FMap.get_put_same .., rfl, rfl⟩

theorem refreshSlot_spec {g : GangNo} {b : BankNo} {s : State} (hst : s.dev.mct.state = 2) {x : Gang} (hx : s.dev.gang g = x) :
    ∃ u, exec (.refreshSlot g) s = .next u ∧ (u.dev.gang g).slot = (x.slot % 16 + 1) % 16 ∧ u.dev.mem = s.dev.mem ∧
      (x.slot % 16 = b.val → b.val ≠ 0 → (∀ k, k ≠ g.val → u.dev.gang k = s.dev.gang k) ∧
        if x.urgent = false then FMap.get (fun _ => 0) (u.dev.gang g).refreshing b = s.dev.now + x.rfc ∧
          (u.dev.gang g).probeDue = x.probeDue.filter (· ≠ b.val) ++ [b.val] ∧ (u.dev.gang g).debt = x.debt
        else if x.debtOf b < x.debtMax then (u.dev.gang g).debtOf b = x.debtOf b + 1 ∧
          (u.dev.gang g).refreshing = x.refreshing ∧ u.dev.mct.postponed = s.dev.mct.postponed + 1
        else FMap.get (fun _ => 0) (u.dev.gang g).refreshing b = s.dev.now + x.rfc ∧ (u.dev.gang g).debt = x.debt ∧
          u.dev.mct.forced = s.dev.mct.forced + 1) := by
  obtain ⟨d, hmem, hsame, he⟩ : ∃ d : Dev, d.mem = s.dev.mem ∧ (x.slot % 16 ≠ 0 → d = s.dev) ∧ exec (.refreshSlot g) s =
      .next ⟨(d.setGang g { d.gang g with slot := (x.slot % 16 + 1) % 16, extra := [] }).slotRefresh g (x.slot % 16), s.pending⟩ := by
    refine ⟨if x.slot % 16 = 0 then s.dev.refreshWindow g else s.dev, ?_, fun h => if_neg h, ?_⟩
    · split
      · exact Dev.refreshWindow_mem ..
      · rfl
    · show execRefreshSlot g s = _
      rw [execRefreshSlot, State.dev!_next, decide_eq_true hst, Dev.when_true]
      dsimp only
      rw [hx]
  refine ⟨_, he, ?_⟩
  dsimp only
  obtain ⟨hslot, hne, hcase⟩ := Dev.slotRefresh_spec g (x.slot % 16) (d.setGang g { d.gang g with slot := (x.slot % 16 + 1) % 16, extra := [] })
    (Dev.gang_setGang ..)
  refine ⟨hslot, (Dev.slotRefresh_mem ..).trans hmem, fun hb hb0 => ?_⟩
  obtain rfl := hsame (by rw [hb]; exact hb0)
  rw [hb] at hne hcase ⊢
  rw [hx] at hne hcase ⊢
  exact ⟨fun k hk => (hne k hk).trans (Dev.gang_setGang_ne _ _ hk), hcase⟩

theorem extraRefresh_spec {g : GangNo} {b : BankNo} {s : State} (hst : s.dev.mct.state = 2) {x : Gang} (hx : s.dev.gang g = x)
    (hd : 0 < x.debtOf b) (hc : x.holdsClass b 2 = false) (hr : s.dev.bankReady x b = true) (hex : FMap.get (fun _ => false) x.extra b = false) :
    ∃ u, exec (.extraRefresh g b) s = .next u ∧ (u.dev.gang g).debtOf b = x.debtOf b - 1 ∧
      FMap.get (fun _ => 0) (u.dev.gang g).refreshing b = s.dev.now + x.rfc ∧
      (∀ k, k ≠ g.val → u.dev.gang k = s.dev.gang k) ∧ s.dev.onlyChanges u.dev [.mct] := by
  obtain ⟨y, hdebt, href, he⟩ : ∃ y : Gang, y.debtOf b = x.debtOf b - 1 ∧ FMap.get (fun _ => 0) y.refreshing b = s.dev.now + x.rfc ∧
      exec (.extraRefresh g b) s = .next ⟨s.dev.setGang g y, s.pending⟩ := by
    refine ⟨{ x.refresh b s.dev.now with
      debt := FMap.put (fun _ => 0) (x.refresh b s.dev.now).debt b (x.debtOf b - 1), extra := FMap.put (fun _ => false) (x.refresh b s.dev.now).extra b true },
      FMap.get_put_same .., FMap.get_put_same .., ?_⟩
    show execExtraRefresh g b s = _
    rw [execExtraRefresh, State.dev!_next]
    dsimp only
    rw [hx, show (decide (s.dev.mct.state = 2) && decide (0 < x.debtOf b) && !x.holdsClass b 2 && s.dev.bankReady x b &&
      !FMap.get (fun _ => false) x.extra b) = true by simp [hst, hd, hc, hr, hex], Dev.when_true]
    rfl
  refine ⟨_, he, ?_⟩
  dsimp only
  rw [Dev.gang_setGang]
  exact ⟨hdebt, href, fun k hk => Dev.gang_setGang_ne _ _ hk, by simp [Dev.onlyChanges_iff]⟩

/-! ## Lanes -/

theorem Dev.LanesOnly.sitesOnly {d e : Dev} (h : d.LanesOnly e) : d.SitesOnly e := by
  obtain ⟨l, rfl⟩ := h
  exact ⟨rfl, rfl, rfl, rfl, rfl, rfl, rfl, rfl, .of_flt rfl⟩

/-- What the lowest waiting lane's start leaves of a lane: all but its state, which stays but for the lane that starts. -/
theorem Dev.nextRetrain_lane (g l : Nat) (d : Dev) : (∃ st, (d.nextRetrain g).lane l = { d.lane l with state := st }) ∧
    ((d.lane l).state = .waiting → ((d.nextRetrain g).lane l).state = .waiting ∨ ((d.nextRetrain g).lane l).state = .retraining) := by
  unfold Dev.nextRetrain
  split
  · next w _ _ =>
    by_cases hl : l = w
    · rw [hl, Dev.lane_setLane]
      exact ⟨⟨_, rfl⟩, fun _ => .inr rfl⟩
    · rw [Dev.lane_setLane_ne _ _ hl]
      exact ⟨⟨_, rfl⟩, .inl⟩
  · exact ⟨⟨_, rfl⟩, .inl⟩
  · exact ⟨⟨_, rfl⟩, .inl⟩

/-- A retrain of a TRACKING lane is asked for, begins or waits, and its settings and its eyes stay. -/
theorem Dev.requestRetrain_spec (l c : Nat) (d : Dev) (h : (d.lane l).state = .tracking) :
    (∃ st, (d.requestRetrain l c).lane l = { d.lane l with state := st, cause := BitVec.ofNat 2 c, sweep := {}, found := none, foundWr := false, grantRd := 0, grantWr := 0 } ∧
      (st = .waiting ∨ st = .retraining)) ∧
    (∃ f ∈ (d.requestRetrain l c).flt.arrivals, f.src = 544 ∧ f.inst = l) ∧ d.SitesOnly (d.requestRetrain l c) := by
  unfold Dev.requestRetrain
  dsimp only
  rw [if_neg (not_not_intro h)]
  obtain ⟨x, hx, hst⟩ : ∃ x : Lane, x = { d.lane l with state := .waiting, cause := BitVec.ofNat 2 c, sweep := {}, found := none, foundWr := false, grantRd := 0, grantWr := 0 } ∧ x.state = .waiting := ⟨_, rfl, rfl⟩
  rw [← hx]
  obtain ⟨e, he, hlane, hfire, hsites⟩ : ∃ e : Dev, (d.setLane l x).fire 544 l (dbits 0 c) = e ∧ e.lane l = x ∧
      (∃ f ∈ e.flt.arrivals, f.src = 544 ∧ f.inst = l) ∧ d.SitesOnly e :=
    ⟨_, rfl, Dev.lane_setLane .., ⟨_, List.mem_append_right _ (List.mem_singleton_self _), rfl, rfl⟩,
      (Dev.setLane_sitesOnly ..).trans (Dev.fire_sitesOnly ..)⟩
  rw [he]
  obtain ⟨⟨st, hl⟩, hstate⟩ := e.nextRetrain_lane (l % 4) l
  have hnext := e.nextRetrain_sitesOnly (l % 4)
  rw [hl] at hstate
  rw [hlane] at hl hstate
  obtain ⟨f, hf, hsrc⟩ := hfire
  refine ⟨⟨st, ?_, hstate hst⟩, ⟨f, hnext.firings.kept f hf, hsrc⟩, hsites.trans hnext⟩
  rw [hl, hx]

theorem Dev.eyeWindow_spec (l w : Nat) (d : Dev) : (∃ y : Lane, (d.eyeWindow l w).lane l = y ∧ y.cur = (d.lane l).cur ∧ y.rdL = (d.lane l).rdL ∧
      y.rdR = (d.lane l).rdR ∧ y.rdCntL = (d.lane l).rdCntL ∧ y.rdCntR = (d.lane l).rdCntR) ∧
    (d.minEye ≤ w → (d.eyeWindow l w).lane l = d.lane l) ∧ d.SitesOnly (d.eyeWindow l w) := by
  have hrefl : ∃ y : Lane, d.lane l = y ∧ y.cur = (d.lane l).cur ∧ y.rdL = (d.lane l).rdL ∧ y.rdR = (d.lane l).rdR ∧
    y.rdCntL = (d.lane l).rdCntL ∧ y.rdCntR = (d.lane l).rdCntR := ⟨_, rfl, rfl, rfl, rfl, rfl, rfl⟩
  unfold Dev.eyeWindow
  split
  · next hlt =>
    refine ⟨?_, fun h => absurd hlt (Nat.not_lt.mpr h), ?_⟩
    all_goals
      unfold Dev.autoRetrain
      split
    · by_cases h : (d.lane l).state = .tracking
      · obtain ⟨⟨st, hl, -⟩, -, -⟩ := d.requestRetrain_spec l 1 h
        exact ⟨_, hl, rfl, rfl, rfl, rfl, rfl⟩
      · unfold Dev.requestRetrain
        dsimp only
        rw [if_pos h]
        exact hrefl
    · exact hrefl
    · by_cases h : (d.lane l).state = .tracking
      · exact (d.requestRetrain_spec l 1 h).2.2
      · unfold Dev.requestRetrain
        dsimp only
        rw [if_pos h]
        exact .refl d
    · exact .refl d
  · exact ⟨hrefl, fun _ => rfl, .refl d⟩

/-! ## Read windows and retrains -/

section
variable {l : LaneNo} {x : Lane} {s : State} (hx : s.dev.lane l = x)
include hx

theorem readWindowEnd_open (right : Bool) (h : (if right then x.rdCntR else x.rdCntL) < 2 ^ s.dev.fld .lhr 0 LHR_CFG 3 0) :
    exec (.readWindowEnd l right) s = .next s := by
  show execReadWindowEnd l right s = _
  rw [execReadWindowEnd, State.dev!_next]
  dsimp only
  rw [hx, show decide (s.dev.readWindow ≤ if right = true then x.rdCntR else x.rdCntL) = false from decide_eq_false (Nat.not_le.mpr h),
    Bool.and_false, Dev.when_false]

theorem readWindowEnd_full (right : Bool) (hst : s.dev.mct.state = 2) (hctl : s.dev.flg .lhr 0 LHR_CTL 0 = true) (ht : x.state = .tracking)
    (h : 2 ^ s.dev.fld .lhr 0 LHR_CFG 3 0 ≤ (if right then x.rdCntR else x.rdCntL)) :
    ∃ u, exec (.readWindowEnd l right) s = .next u ∧
      (u.dev.lane l).rdR = (if right then s.dev.judge x.rdR x.rdMisR else x.rdR) ∧
      (u.dev.lane l).rdL = (if right then x.rdL else s.dev.judge x.rdL x.rdMisL) ∧ (u.dev.lane l).cur = x.cur ∧
      (u.dev.lane l).rdCntR = (if right then 0 else x.rdCntR) ∧ (u.dev.lane l).rdCntL = (if right then x.rdCntL else 0) ∧
      (s.dev.minEye ≤ (u.dev.lane l).rdL + (u.dev.lane l).rdR → (u.dev.lane l).state = .tracking) := by
  obtain ⟨y, hR, hL, hcur, hcR, hcL, hyst, he⟩ : ∃ y : Lane, y.rdR = (if right then s.dev.judge x.rdR x.rdMisR else x.rdR) ∧
      y.rdL = (if right then x.rdL else s.dev.judge x.rdL x.rdMisL) ∧ y.cur = x.cur ∧
      y.rdCntR = (if right then 0 else x.rdCntR) ∧ y.rdCntL = (if right then x.rdCntL else 0) ∧ y.state = .tracking ∧
      exec (.readWindowEnd l right) s = .next ⟨(s.dev.setLane l y).eyeWindow l (y.rdL + y.rdR), s.pending⟩ := by
    refine ⟨if right then { x with rdR := s.dev.judge x.rdR x.rdMisR, rdCntR := 0, rdMisR := 0 }
      else { x with rdL := s.dev.judge x.rdL x.rdMisL, rdCntL := 0, rdMisL := 0 }, ?_, ?_, ?_, ?_, ?_, ?_, ?he⟩
    case he =>
      show execReadWindowEnd l right s = _
      rw [execReadWindowEnd, State.dev!_next]
      dsimp only
      rw [hx, show decide (s.dev.readWindow ≤ if right = true then x.rdCntR else x.rdCntL) = true from decide_eq_true h, hctl,
        decide_eq_true hst, decide_eq_true ht, Bool.and_self, Bool.and_self, Bool.and_self, Dev.when_true]
    all_goals cases right <;> first | rfl | exact ht
  refine ⟨_, he, ?_⟩
  dsimp only
  obtain ⟨⟨z, hz, hzcur, hzL, hzR, hzcL, hzcR⟩, hkept, -⟩ := (s.dev.setLane l y).eyeWindow_spec l (y.rdL + y.rdR)
  rw [Dev.lane_setLane] at hzcur hzL hzR hzcL hzcR hkept
  refine ⟨by rw [hz, hzR, hR], by rw [hz, hzL, hL], by rw [hz, hzcur, hcur], by rw [hz, hzcR, hcR], by rw [hz, hzcL, hcL], fun hmin => ?_⟩
  rw [hz, hzL, hzR] at hmin
  rw [hkept hmin, hyst]

theorem laneRetrain_spec {m : Fn} (h : s.dev.mayWriteReg m .site (l / 4) (MCT_LANE_CTL + 0x20 * (l % 4)))
    (ha : s.dev.armed (PType.site.page + l / 4) m = true) (ht : x.state = .tracking) :
    ∃ u, exec (.laneRetrain m l) s = .next u ∧ (u.dev.lane l).cause = 3 ∧ (u.dev.lane l).cur = x.cur ∧
      ((u.dev.lane l).state = .waiting ∨ (u.dev.lane l).state = .retraining) ∧ ∃ f ∈ u.dev.flt.arrivals, f.src = 544 ∧ f.inst = l.val := by
  obtain ⟨d, hlane, he⟩ : ∃ d : Dev, d.lane l = x ∧ exec (.laneRetrain m l) s = .next ⟨d.requestRetrain l 3, s.pending⟩ := by
    have he : exec (.laneRetrain m l) s = .next ⟨((s.dev.setArm (17 + l / 4) m false).setReg .site (l / 4) (MCT_LANE_CTL + 0x20 * (l % 4))
        (s.dev.view .site (l / 4) (MCT_LANE_CTL + 0x20 * (l % 4)) &&& 1)).requestRetrain l 3, s.pending⟩ := by
      show s.dev! (Dev.fieldWrite m .site (l / 4) (MCT_LANE_CTL + 0x20 * (l % 4)) 0 2) = _
      rw [State.dev!_next, Dev.fieldWrite_laneRetrain h ha]
    exact ⟨(s.dev.setArm (17 + l / 4) m false).setReg .site (l / 4) (MCT_LANE_CTL + 0x20 * (l % 4))
      (s.dev.view .site (l / 4) (MCT_LANE_CTL + 0x20 * (l % 4)) &&& 1), hx, he⟩
  refine ⟨_, he, ?_⟩
  dsimp only
  obtain ⟨⟨st, hl, hst⟩, hfire, -⟩ := d.requestRetrain_spec l 3 (by rw [hlane]; exact ht)
  rw [hl, hlane]
  exact ⟨rfl, rfl, hst, hfire⟩

theorem retrainReadDone_spec (ht : x.state = .retraining) (hf : x.found = none) (hrd : x.sweep.rd.length = 128) (hlo : x.sweep.lo.length = 64)
    (hhi : x.sweep.hi.length = 64) :
    ∃ u, exec (.retrainReadDone l) s = .next u ∧ s.dev.onlyChanges u.dev [.mct] ∧
      ∃ f, u.dev.lane l = { x with found := some f } ∧
        f.set.rdDly = BitVec.ofNat 7 (sweepCentre x.cur.rdDly.toNat x.sweep.rd) ∧ f.set.wrDly = x.cur.wrDly ∧
        f.set.thrLo = BitVec.ofNat 6 (sweepCentre x.cur.thrLo.toNat x.sweep.lo) ∧
        f.set.thrHi = BitVec.ofNat 6 (sweepCentre x.cur.thrHi.toNat x.sweep.hi) ∧ f.rdRun = (widestRun x.sweep.rd).2 := by
  have hswept : x.swept = none := by
    unfold Lane.swept
    dsimp only
    rw [hrd, hlo, hhi, if_neg (by decide), if_neg (by decide), if_neg (by decide)]
  obtain ⟨f, h₁, h₂, h₃, h₄, h₅, he⟩ : ∃ f : LaneResult, f.set.rdDly = BitVec.ofNat 7 (sweepCentre x.cur.rdDly.toNat x.sweep.rd) ∧
      f.set.wrDly = x.cur.wrDly ∧ f.set.thrLo = BitVec.ofNat 6 (sweepCentre x.cur.thrLo.toNat x.sweep.lo) ∧
      f.set.thrHi = BitVec.ofNat 6 (sweepCentre x.cur.thrHi.toNat x.sweep.hi) ∧ f.rdRun = (widestRun x.sweep.rd).2 ∧
      exec (.retrainReadDone l) s = .next ⟨s.dev.setLane l { x with found := some f }, s.pending⟩ := by
    refine ⟨{ set := { rdDly := BitVec.ofNat 7 x.sweptRd, wrDly := x.cur.wrDly, thrLo := BitVec.ofNat 6 x.sweptLo,
                       thrHi := BitVec.ofNat 6 (sweepCentre x.cur.thrHi.toNat x.sweep.hi) },
              rdRun := (widestRun x.sweep.rd).2, wrRun := 0 }, rfl, rfl, rfl, rfl, rfl, ?_⟩
    show execRetrainReadDone l s = _
    rw [execRetrainReadDone, State.dev!_next]
    dsimp only
    rw [hx, show (decide (x.state = .retraining) && x.found.isNone && x.swept.isNone) = true by simp [ht, hf, hswept], Dev.when_true]
  refine ⟨_, he, by simp [Dev.onlyChanges_iff], f, ?_, h₁, h₂, h₃, h₄, h₅⟩
  exact Dev.lane_setLane ..

theorem retrainWriteDone_spec (f : LaneResult) (ht : x.state = .retraining) (hf : x.found = some f) (hw : x.foundWr = false)
    (hl : x.sweep.wr.length = 128) :
    ∃ u, exec (.retrainWriteDone l) s = .next u ∧ s.dev.onlyChanges u.dev [.mct] ∧
      ∃ f', u.dev.lane l = { x with found := some f', foundWr := true } ∧
        f'.set = { f.set with wrDly := BitVec.ofNat 7 (sweepCentre x.cur.wrDly.toNat x.sweep.wr) } ∧
        f'.rdRun = f.rdRun ∧ f'.wrRun = (widestRun x.sweep.wr).2 := by
  have he : exec (.retrainWriteDone l) s = .next ⟨s.dev.setLane l { x with
      found := some { f with set := { f.set with wrDly := BitVec.ofNat 7 (sweepCentre x.cur.wrDly.toNat x.sweep.wr) }, wrRun := (widestRun x.sweep.wr).2 },
      foundWr := true }, s.pending⟩ := by
    show execRetrainWriteDone l s = _
    rw [execRetrainWriteDone, State.dev!_next]
    dsimp only
    rw [hx, hf]
    dsimp only
    rw [show (decide (x.state = .retraining) && !x.foundWr && decide (x.sweep.wr.length = 128)) = true by simp [ht, hw, hl], Dev.when_true]
  exact ⟨_, he, by simp [Dev.onlyChanges_iff], _, Dev.lane_setLane .., rfl, rfl, rfl⟩

end

/-! ## Write probes -/

/-- What a reference burst leaves of a lane: its settings, and what its write probes have counted. -/
structure Lane.sameWrite (x y : Lane) : Prop where
  state : y.state = x.state
  cur : y.cur = x.cur
  wrL : y.wrL = x.wrL
  wrR : y.wrR = x.wrR
  wrMisL : y.wrMisL = x.wrMisL
  wrMisR : y.wrMisR = x.wrMisR

theorem Lane.sameWrite_refl (x : Lane) : x.sameWrite x := ⟨rfl, rfl, rfl, rfl, rfl, rfl⟩

theorem Lane.sameWrite_trans {x y z : Lane} (h : x.sameWrite y) (h' : y.sameWrite z) : x.sameWrite z :=
  ⟨h'.state.trans h.state, h'.cur.trans h.cur, h'.wrL.trans h.wrL, h'.wrR.trans h.wrR, h'.wrMisL.trans h.wrMisL, h'.wrMisR.trans h.wrMisR⟩

theorem Dev.trackBurst_sameWrite (d : Dev) (m : Nat) (x : Lane) : x.sameWrite (d.trackBurst m x) := by
  unfold Dev.trackBurst
  dsimp only
  split
  · split <;> exact ⟨rfl, rfl, rfl, rfl, rfl, rfl⟩
  · split <;> exact ⟨rfl, rfl, rfl, rfl, rfl, rfl⟩

theorem Dev.setLane_sameWrite {k : Nat} {x : Lane} {d : Dev} (h : (d.lane k).sameWrite x) (l : Nat) : (d.lane l).sameWrite ((d.setLane k x).lane l) := by
  by_cases hl : l = k
  · rw [hl, Dev.lane_setLane]
    exact h
  · rw [Dev.lane_setLane_ne _ _ hl]
    exact Lane.sameWrite_refl _

theorem Dev.laneBurst_sameWrite (k m : Nat) (d : Dev) (l : Nat) : (d.lane l).sameWrite ((d.laneBurst k m).lane l) := by
  unfold Dev.laneBurst
  dsimp only
  split
  · split
    · exact Dev.setLane_sameWrite (d.trackBurst_sameWrite m _) l
    · exact Lane.sameWrite_refl _
  · refine Dev.setLane_sameWrite ?_ l
    exact ⟨rfl, rfl, rfl, rfl, rfl, rfl⟩
  all_goals exact Lane.sameWrite_refl _

theorem Dev.references_sameWrite (g : Nat) (i : BurstInput) (bs : List Byte) (beats gone sites : List Nat) (d : Dev) (l : Nat) :
    (d.lane l).sameWrite ((d.references g i bs beats gone sites).lane l) := by
  unfold Dev.references
  generalize sites.zipIdx = es
  induction es generalizing d with
  | nil => exact Lane.sameWrite_refl _
  | cons e es ih =>
    refine Lane.sameWrite_trans ?_ (ih _)
    dsimp only
    split
    · split
      · exact Dev.laneBurst_sameWrite ..
      · exact Lane.sameWrite_refl _
    · exact Lane.sameWrite_refl _

theorem Dev.probeSpare_spec (g m : Nat) (d : Dev) : d.LanesOnly (d.probeSpare g m) ∧ ∀ l, (d.lane l).sameWrite ((d.probeSpare g m).lane l) := by
  unfold Dev.probeSpare
  split
  · split
    · exact ⟨Dev.laneBurst_lanesOnly .., Dev.laneBurst_sameWrite _ _ d⟩
    · exact ⟨.refl d, fun _ => Lane.sameWrite_refl _⟩
  · split
    · exact ⟨Dev.laneBurst_lanesOnly .., Dev.laneBurst_sameWrite _ _ d⟩
    · exact ⟨.refl d, fun _ => Lane.sameWrite_refl _⟩
  all_goals exact ⟨.refl d, fun _ => Lane.sameWrite_refl _⟩

theorem Dev.probeLane_sitesOnly (right full : Bool) (diffs : List (Nat × Nat)) (d : Dev) (l : Nat) : d.SitesOnly (d.probeLane right full diffs l) := by
  have hset (x : Lane) : d.SitesOnly (d.setLane l x) := Dev.setLane_sitesOnly ..
  have hjudge (e : Dev) : e.SitesOnly (e.judgeWrite l right) := by
    unfold Dev.judgeWrite
    dsimp only
    exact .trans (Dev.setLane_sitesOnly ..) (Dev.eyeWindow_spec ..).2.2
  unfold Dev.probeLane
  dsimp only
  split
  · exact .ite ((hset _).trans (hjudge _)) (hset _)
  · exact .ite (hset _) (.refl d)
  all_goals exact .refl d

/-- A lane that a probe told its mismatches, while its side is not yet to be judged. -/
def Lane.probed (right : Bool) (m : Nat) (x : Lane) : Lane :=
  match x.state with
  | .tracking => if right then { x with wrMisR := x.wrMisR + m } else { x with wrMisL := x.wrMisL + m }
  | .retraining => if x.found.isSome then { x with sweep := x.sweep.writeProbe m } else x
  | .off | .waiting | .dead => x

theorem Lane.probed_tracking {right : Bool} {m : Nat} {x : Lane} (h : x.state = .tracking) : (x.probed right m).cur = x.cur ∧
    (x.probed right m).wrL = x.wrL ∧ (x.probed right m).wrR = x.wrR ∧
    (x.probed right m).wrMisR = x.wrMisR + (if right then m else 0) ∧ (x.probed right m).wrMisL = x.wrMisL + if right then 0 else m := by
  unfold Lane.probed
  rw [h]
  cases right <;> exact ⟨rfl, rfl, rfl, rfl, rfl⟩

theorem Dev.probeLane_open (right : Bool) (diffs : List (Nat × Nat)) (d : Dev) (l : Nat) :
    (d.probeLane right false diffs l).lane l = (d.lane l).probed right (diffOf diffs (l / 4)) ∧
    ∀ k, k ≠ l → (d.probeLane right false diffs l).lane k = d.lane k := by
  unfold Dev.probeLane Lane.probed
  dsimp only
  cases (d.lane l).state with
  | tracking => exact ⟨Dev.lane_setLane .., fun k hk => Dev.lane_setLane_ne _ _ hk⟩
  | retraining =>
    dsimp only
    split
    · exact ⟨Dev.lane_setLane .., fun k hk => Dev.lane_setLane_ne _ _ hk⟩
    · exact ⟨rfl, fun _ _ => rfl⟩
  | off | waiting | dead => exact ⟨rfl, fun _ _ => rfl⟩

theorem gangLanes_nodup (g : Nat) : (gangLanes g).Nodup :=
  List.Nodup.map_on (fun a _ b _ h => by omega) List.nodup_range

theorem burstChecked_sameWrite {g t mid : Nat} {bs : List Byte} {beats : List Nat} {mark : Bool} {d : Dev} (h : d.unavailable t = []) (l : Nat) :
    (d.lane l).sameWrite ((d.burstChecked g t mid {} bs beats (.good []) mark).lane l) := by
  have hnone : failedPositions {} beats [] = [] := List.filter_eq_nil_iff.mpr fun p _ => by simp
  unfold Dev.burstChecked
  dsimp only
  rw [h, hnone, List.foldl_nil, show d.rebuilt t mid [] = d from rfl]
  exact Dev.references_sameWrite ..

theorem Dev.setGang_unavailable {g : Nat} {y : Gang} {d : Dev} (h : y.switched = (d.gang g).switched) (t : Nat) :
    (d.setGang g y).unavailable t = d.unavailable t := by
  have hswitched (k : Nat) : ((d.setGang g y).gang k).switched = (d.gang k).switched := by
    by_cases hk : k = g
    · rw [hk, Dev.gang_setGang, h]
    · rw [Dev.gang_setGang_ne _ _ hk]
  unfold Dev.unavailable
  rw [hswitched]
  rfl

/-- A probe turns to the other side, and where its side is not yet full its lanes count its mismatches. -/
theorem Dev.probe_spec (g : Nat) (i : ProbeInput) (d : Dev) {x : Gang} (hx : d.gang g = x) : ((d.probe g i).gang g).probeDue = x.probeDue ∧
    ((d.probe g i).gang g).probeRight = !x.probeRight ∧ (d.probe g i).mem = d.mem ∧
    ((if x.probeRight then x.probeR else x.probeL) < 63 → ∀ l ∈ gangLanes g,
      ((d.lane l).probed x.probeRight (diffOf i.diffs (l / 4))).sameWrite ((d.probe g i).lane l)) := by
  unfold Dev.probe
  dsimp only
  rw [hx]
  obtain ⟨y, hy, hdue, hright⟩ : ∃ y : Gang, y = { x with
      probeRight := !x.probeRight,
      probeL := if x.probeRight = true then x.probeL else if decide (64 ≤ (if x.probeRight = true then x.probeR else x.probeL) + 1) = true then 0
        else (if x.probeRight = true then x.probeR else x.probeL) + 1,
      probeR := if x.probeRight = true then if decide (64 ≤ (if x.probeRight = true then x.probeR else x.probeL) + 1) = true then 0
        else (if x.probeRight = true then x.probeR else x.probeL) + 1 else x.probeR } ∧ y.probeDue = x.probeDue ∧ y.probeRight = !x.probeRight :=
    ⟨_, rfl, rfl, rfl⟩
  rw [← hy]
  obtain ⟨e, he, hgang, hmem, hlane⟩ : ∃ e : Dev, d.setGang g y = e ∧ e.gang g = y ∧ e.mem = d.mem ∧ ∀ l, e.lane l = d.lane l :=
    ⟨_, rfl, Dev.gang_setGang .., rfl, fun _ => rfl⟩
  rw [he]
  have hfold := Dev.foldl_sitesOnly (Dev.probeLane_sitesOnly x.probeRight
    (decide (64 ≤ (if x.probeRight = true then x.probeR else x.probeL) + 1)) i.diffs) (gangLanes g) e
  have hopen : (if x.probeRight = true then x.probeR else x.probeL) < 63 → ∀ l ∈ gangLanes g,
      ((gangLanes g).foldl (Dev.probeLane x.probeRight (decide (64 ≤ (if x.probeRight = true then x.probeR else x.probeL) + 1)) i.diffs) e).lane l =
        (d.lane l).probed x.probeRight (diffOf i.diffs (l / 4)) := fun h l hl => by
    rw [decide_eq_false (by omega)]
    obtain ⟨hin, -⟩ := foldl_each (get := Dev.lane) (idx := id) (F := fun l x' => Lane.probed x.probeRight (diffOf i.diffs (l / 4)) x')
      (fun d k => (Dev.probeLane_open x.probeRight i.diffs d k).1) (fun d k j hj => (Dev.probeLane_open x.probeRight i.diffs d k).2 j hj)
      (by rw [List.map_id]; exact gangLanes_nodup g) e
    rw [← hlane l]
    exact hin l hl
  generalize (gangLanes g).foldl _ e = f at *
  obtain ⟨hspare, hsame⟩ := f.probeSpare_spec g i.spare
  have hgang' : (f.probeSpare g i.spare).gang g = y :=
    (Dev.gang_congr hspare.sitesOnly.gangs g).trans ((Dev.gang_congr hfold.gangs g).trans hgang)
  refine ⟨by rw [hgang', hdue], by rw [hgang', hright], hspare.sitesOnly.mem.trans (hfold.mem.trans hmem), fun h l hl => ?_⟩
  rw [← hopen h l hl]
  exact hsame l

section
variable {g : GangNo} {b : BankNo} {x : Gang} {s : State} (hst : s.dev.mct.state = 2) (hx : s.dev.gang g = x)
include hst hx

theorem exec_writeProbe {rest : List Nat} (i : ProbeInput) (hd : x.probeDue = b.val :: rest) (hctl : s.dev.flg .lhr 0 LHR_CTL 1 = true)
    (hr : s.dev.bankReady x b = true) {quiet : Bool} (hq : quiet = !x.holdsClass b (if (s.dev.retrainingLane g).isSome then 1 else 2)) :
    exec (.writeProbe g i) s = .next ⟨if quiet then (s.dev.setGang g { x with probeDue := rest }).probeAtom g (trainingAtom g b) i
      else s.dev.setGang g { x with probeDue := rest }, s.pending⟩ := by
  show execWriteProbe g i s = _
  rw [execWriteProbe, State.dev!_next]
  dsimp only
  rw [hx, hd]
  dsimp only
  rw [hr, decide_eq_true hst, Bool.and_self, Dev.when_true, ← hq, show (s.dev.setGang g { x with probeDue := rest }).flg .lhr 0 LHR_CTL 1 = true from hctl,
    Bool.true_and]

theorem writeProbe_loud {rest : List Nat} (i : ProbeInput) (hd : x.probeDue = b.val :: rest) (hctl : s.dev.flg .lhr 0 LHR_CTL 1 = true)
    (hr : s.dev.bankReady x b = true) (quiet : Bool) (hq : quiet = !x.holdsClass b (if (s.dev.retrainingLane g).isSome then 1 else 2))
    (hf : quiet = false) :
    ∃ u, exec (.writeProbe g i) s = .next u ∧ u.dev.gang g = { x with probeDue := rest } ∧ s.dev.onlyChanges u.dev [.mct] := by
  refine ⟨_, exec_writeProbe hst hx i hd hctl hr hq, ?_⟩
  dsimp only
  rw [hf, if_neg (by decide)]
  exact ⟨Dev.gang_setGang .., by simp [Dev.onlyChanges_iff]⟩

theorem writeProbe_quiet {rest : List Nat} (i : ProbeInput) (hd : x.probeDue = b.val :: rest) (hctl : s.dev.flg .lhr 0 LHR_CTL 1 = true)
    (hr : s.dev.bankReady x b = true) (quiet : Bool) (hq : quiet = !x.holdsClass b (if (s.dev.retrainingLane g).isSome then 1 else 2))
    (hquiet : quiet = true) (hsave : i.save = {}) (hcut : i.cut = false) (hu : s.dev.unavailable (trainingAtom g b) = [])
    (hp : s.dev.mct.poison.contains (trainingAtom g b) = false) :
    ∃ u, exec (.writeProbe g i) s = .next u ∧ (u.dev.gang g).probeDue = rest ∧
      (u.dev.gang g).probeRight = !x.probeRight ∧ u.dev.mem = s.dev.mem ∧
      ((if x.probeRight then x.probeR else x.probeL) < 63 → ∀ l ∈ gangLanes g,
        (s.dev.lane l).state = .tracking → (u.dev.lane l).cur = (s.dev.lane l).cur ∧
          (u.dev.lane l).wrL = (s.dev.lane l).wrL ∧ (u.dev.lane l).wrR = (s.dev.lane l).wrR ∧
          (u.dev.lane l).wrMisR = (s.dev.lane l).wrMisR + (if x.probeRight then diffOf i.diffs (l / 4) else 0) ∧
          (u.dev.lane l).wrMisL = (s.dev.lane l).wrMisL + if x.probeRight then 0 else diffOf i.diffs (l / 4)) := by
  refine ⟨_, exec_writeProbe hst hx i hd hctl hr hq, ?_⟩
  dsimp only
  rw [hquiet, if_pos rfl]
  obtain ⟨y, hy, hyright, hyR, hyL, hydue, hysw⟩ : ∃ y : Gang, { x with probeDue := rest } = y ∧ y.probeRight = x.probeRight ∧ y.probeR = x.probeR ∧
    y.probeL = x.probeL ∧ y.probeDue = rest ∧ y.switched = x.switched := ⟨_, rfl, rfl, rfl, rfl, rfl, rfl⟩
  rw [hy]
  have hun := (Dev.setGang_unavailable (d := s.dev) (g := g) (y := y) (by rw [hysw, hx]) (trainingAtom g b)).trans hu
  obtain ⟨d, hd, hgang, hmem, hlane, hpoison⟩ : ∃ d : Dev, s.dev.setGang g y = d ∧ d.gang g = y ∧ d.mem = s.dev.mem ∧
    (∀ l, d.lane l = s.dev.lane l) ∧ d.mct.poison = s.dev.mct.poison := ⟨_, rfl, Dev.gang_setGang .., rfl, fun _ => rfl, rfl⟩
  rw [hd] at hun ⊢
  unfold Dev.probeAtom
  dsimp only
  rw [hsave, hcut, hpoison, hun, hp, burstRes_clean, if_neg (by rintro (h | h) <;> exact absurd h nofun)]
  have hsites := (burstChecked_clean (g := g) (mid := 67) (bs := d.bytes (256 * trainingAtom g b) 256) (beats := List.range 16) (mark := true) hun).sitesOnly
  have hsame := burstChecked_sameWrite (g := g) (mid := 67) (bs := d.bytes (256 * trainingAtom g b) 256) (beats := List.range 16) (mark := true) hun
  generalize Dev.burstChecked g (trainingAtom g b) 67 {} (d.bytes (256 * trainingAtom g b) 256) (List.range 16) (.good []) true d = f at *
  obtain ⟨hdue, hright, hm, hlanes⟩ := f.probe_spec g i ((Dev.gang_congr hsites.gangs g).trans hgang)
  refine ⟨hdue.trans hydue, by rw [hright, hyright], hm.trans (hsites.mem.trans hmem), fun h l hl ht => ?_⟩
  have hl' := hlanes (by rw [hyright, hyR, hyL]; exact h) l hl
  have hs := hsame l
  rw [hlane] at hs
  obtain ⟨h₁, h₂, h₃, h₄, h₅⟩ := Lane.probed_tracking (right := y.probeRight) (m := diffOf i.diffs (l / 4)) (hs.state.trans ht)
  rw [hl'.cur, hl'.wrL, hl'.wrR, hl'.wrMisR, hl'.wrMisL, h₁, h₂, h₃, h₄, h₅, hs.cur, hs.wrL, hs.wrR, hs.wrMisR, hs.wrMisL, hyright]
  exact ⟨rfl, rfl, rfl, rfl, rfl⟩

end

/-- Settles O51: refresh slots, extra refreshes, write probes, read windows, and the retrain of a lane with its two results. -/
theorem refreshesProbesAndRetrains : Obligations.RefreshesProbesAndRetrains := by
  unfold Obligations.RefreshesProbesAndRetrains
  exact ⟨fun g b x s hx hst => ⟨refreshSlot_spec hst hx, extraRefresh_spec hst hx, fun rest i hd hctl hr quiet hq =>
      ⟨writeProbe_loud hst hx i hd hctl hr quiet hq, writeProbe_quiet hst hx i hd hctl hr quiet hq⟩⟩,
    fun l x s hx => ⟨readWindowEnd_open hx, readWindowEnd_full hx, fun m => laneRetrain_spec hx, retrainReadDone_spec hx, retrainWriteDone_spec hx⟩⟩

end Sys2Proof.Machine
end

section
/-!
PROOF of O52: memory sites are fenced and rebuilt onto the spare.
-/
namespace Sys2Proof.Machine
set_option Elab.async false

/-! ## The fence of a site -/

theorem Dev.nextRetrain_sites (g : Nat) (d : Dev) : (d.nextRetrain g).mct.sites = d.mct.sites ∧ (d.nextRetrain g).mct.spare = d.mct.spare ∧
    (d.nextRetrain g).mct.gone = d.mct.gone := by
  unfold Dev.nextRetrain
  split <;> exact ⟨rfl, rfl, rfl⟩

/-- The start of a lane that waits leaves the lanes that do not wait. -/
theorem Dev.nextRetrain_other {g l : Nat} {d : Dev} (h : (d.lane l).state ≠ .waiting ∨ l % 4 ≠ g % 4) : (d.nextRetrain g).lane l = d.lane l := by
  unfold Dev.nextRetrain
  split
  · next w _ hw =>
    refine Dev.lane_setLane_ne _ _ fun hl => ?_
    unfold Dev.waitingLane at hw
    obtain ⟨n, -, hn⟩ := List.mem_map.mp (List.mem_of_find?_eq_some hw)
    have hwait := List.find?_some hw
    rcases h with h | h
    · exact h (by rw [hl]; simpa using hwait)
    · exact h (by rw [hl, ← hn]; omega)
  · rfl
  · rfl

/-- One lane of a fenced site leaves its work, and the next in its channel starts. -/
def Dev.laneOff (s : Nat) (d : Dev) (k : Nat) : Dev :=
  Dev.nextRetrain k (if (d.lane (4 * s + k)).state = .dead then d
    else d.setLane (4 * s + k) { d.lane (4 * s + k) with
      state := .off, sweep := {}, found := none, foundWr := false, grantRd := 0, grantWr := 0 })

theorem Dev.lanesOff_eq (s : Nat) (d : Dev) : d.lanesOff s = (List.range 4).foldl (Dev.laneOff s) d := rfl

theorem Dev.laneOff_spec (s : Nat) (d : Dev) (k : Nat) (hk : k < 4) :
    ((d.laneOff s k).lane (4 * s + k)).state = (if (d.lane (4 * s + k)).state = .dead then .dead else .off) ∧
    (∀ j, j < 4 → j ≠ k → (d.laneOff s k).lane (4 * s + j) = d.lane (4 * s + j)) ∧
    (d.laneOff s k).mct.sites = d.mct.sites ∧ (d.laneOff s k).mct.spare = d.mct.spare ∧ (d.laneOff s k).mct.gone = d.mct.gone := by
  unfold Dev.laneOff
  have hrest (e : Dev) (hs : e.mct.sites = d.mct.sites ∧ e.mct.spare = d.mct.spare ∧ e.mct.gone = d.mct.gone)
      (hl : ∀ j, j < 4 → j ≠ k → e.lane (4 * s + j) = d.lane (4 * s + j)) :
      (∀ j, j < 4 → j ≠ k → (e.nextRetrain k).lane (4 * s + j) = d.lane (4 * s + j)) ∧ (e.nextRetrain k).mct.sites = d.mct.sites ∧
      (e.nextRetrain k).mct.spare = d.mct.spare ∧ (e.nextRetrain k).mct.gone = d.mct.gone := by
    obtain ⟨h₁, h₂, h₃⟩ := e.nextRetrain_sites k
    exact ⟨fun j hj hjk => (Dev.nextRetrain_other (.inr (by omega))).trans (hl j hj hjk), h₁.trans hs.1, h₂.trans hs.2.1, h₃.trans hs.2.2⟩
  by_cases hd : (d.lane (4 * s + k)).state = .dead
  · rw [if_pos hd, if_pos hd]
    exact ⟨by rw [Dev.nextRetrain_other (.inl (by rw [hd]; decide)), hd], hrest d ⟨rfl, rfl, rfl⟩ fun _ _ _ => rfl⟩
  · rw [if_neg hd, if_neg hd]
    refine ⟨?_, hrest _ ⟨rfl, rfl, rfl⟩ fun j _ hjk => Dev.lane_setLane_ne _ _ (by omega)⟩
    rw [Dev.nextRetrain_other (.inl (by rw [Dev.lane_setLane]; exact (by decide : LnState.off ≠ .waiting))), Dev.lane_setLane]

/-- Listed lanes of a fenced site leave their work. -/
theorem Dev.foldl_laneOff (s : Nat) (l : List Nat) (hl : ∀ k ∈ l, k < 4) (hn : l.Nodup) (e : Dev) :
    (∀ j, j < 4 → ((l.foldl (Dev.laneOff s) e).lane (4 * s + j)).state =
      if j ∈ l then (if (e.lane (4 * s + j)).state = .dead then .dead else .off) else (e.lane (4 * s + j)).state) ∧
    (l.foldl (Dev.laneOff s) e).mct.sites = e.mct.sites ∧ (l.foldl (Dev.laneOff s) e).mct.spare = e.mct.spare ∧
    (l.foldl (Dev.laneOff s) e).mct.gone = e.mct.gone := by
  induction l generalizing e with
  | nil => exact ⟨fun _ _ => rfl, rfl, rfl, rfl⟩
  | cons k l ih =>
    obtain ⟨hself, hne, h₁, h₂, h₃⟩ := e.laneOff_spec s k (hl k List.mem_cons_self)
    obtain ⟨hlanes, i₁, i₂, i₃⟩ := ih (fun j hj => hl j (List.mem_cons_of_mem _ hj)) (List.nodup_cons.mp hn).2 (e.laneOff s k)
    refine ⟨fun j hj => ?_, i₁.trans h₁, i₂.trans h₂, i₃.trans h₃⟩
    rw [List.foldl_cons, hlanes j hj]
    by_cases hjk : j = k
    · rw [hjk, if_neg (List.nodup_cons.mp hn).1, if_pos List.mem_cons_self, hself]
    · rw [hne j hj hjk]
      simp [hjk]

theorem Dev.lanesOff_spec (s : Nat) (d : Dev) :
    (∀ j, j < 4 → ((d.lanesOff s).lane (4 * s + j)).state = (if (d.lane (4 * s + j)).state = .dead then .dead else .off)) ∧
    (d.lanesOff s).mct.sites = d.mct.sites ∧ (d.lanesOff s).mct.spare = d.mct.spare ∧ (d.lanesOff s).mct.gone = d.mct.gone := by
  obtain ⟨hlanes, hrest⟩ := Dev.foldl_laneOff s (List.range 4) (fun k hk => List.mem_range.mp hk) List.nodup_range d
  rw [Dev.lanesOff_eq]
  exact ⟨fun j hj => by rw [hlanes j hj, if_pos (List.mem_range.mpr hj)], hrest⟩

/-- The loss of a position or of the spare changes the use of the spare alone, and fires. -/
structure Dev.SpareOnly (d e : Dev) : Prop where
  sites : e.mct.sites = d.mct.sites
  lanes : e.mct.lanes = d.mct.lanes
  firings : d.KeepsFirings e

theorem Dev.losePosition_spec (p c : Nat) (d : Dev) : d.SpareOnly (d.losePosition p c) ∧
    (∃ f ∈ (d.losePosition p c).flt.arrivals, f.src = 515 ∧ f.inst = p) ∧
    (d.mct.spare = .idle → d.mct.gone = [] → (d.losePosition p c).mct.spare = .pending p ∧ (d.losePosition p c).mct.gone = []) ∧
    ∀ q, d.mct.spare = .substituted q → (d.losePosition p c).mct.gone = d.mct.gone ++ [p] := by
  have hkept (sp : Spare) (l : List Nat) (x : BitVec 128) : d.SpareOnly ((d.setSpare sp l).fire 515 p x) := ⟨rfl, rfl, .of_fire rfl⟩
  have hfired (e : Dev) (x : BitVec 128) : ∃ f ∈ (e.fire 515 p x).flt.arrivals, f.src = 515 ∧ f.inst = p :=
    ⟨_, List.mem_append_right _ (List.mem_singleton_self _), rfl, rfl⟩
  unfold Dev.losePosition
  dsimp only
  refine ⟨?_, hfired _ _, fun hs hg => ?_, fun q hs => ?_⟩
  · split
    · split
      · exact hkept ..
      · exact hkept ..
    all_goals exact hkept ..
  · rw [hs, hg]
    exact ⟨rfl, rfl⟩
  · rw [hs]
    rfl

theorem Dev.loseSpare_spec (c : Nat) (d : Dev) : d.SpareOnly (d.loseSpare c) ∧
    (d.mct.spare = .idle → (d.loseSpare c).mct.spare = .none ∧ ∃ f ∈ (d.loseSpare c).flt.arrivals, f.src = 516 ∧ f.inst = 17) := by
  have hlost (sp : Spare) (l : List Nat) : d.SpareOnly (d.setSpare sp l).spareIsLost := ⟨rfl, rfl, .of_fire rfl⟩
  have hset (sp : Spare) (l : List Nat) : d.SpareOnly (d.setSpare sp l) := ⟨rfl, rfl, .of_flt rfl⟩
  unfold Dev.loseSpare
  dsimp only
  refine ⟨?_, fun hs => ?_⟩
  · split
    · exact hlost ..
    · exact hlost ..
    · exact hset ..
    · exact hset ..
    · exact ⟨rfl, rfl, .of_fire rfl⟩
    · exact ⟨rfl, rfl, .refl d⟩
  · rw [hs]
    exact ⟨rfl, _, List.mem_append_right _ (List.mem_singleton_self _), rfl, rfl⟩

/-- The fence of a site that is not fenced: the site and its lanes change, then a position or the spare is lost, and what the loss
means is told. -/
theorem Dev.fenceSite_steps {n c : Nat} {d : Dev} (h : (d.site n).fenced = false) : ∃ e f : Dev,
    e = (d.setSite n { d.site n with fenced := true, cause := BitVec.ofNat 2 c }).lanesOff n ∧
    f = (if n = 17 then e.loseSpare c else e.losePosition n c) ∧ (d.fenceSite n c).mct = f.mct ∧ f.KeepsFirings (d.fenceSite n c) := by
  refine ⟨_, _, rfl, rfl, ?_⟩
  unfold Dev.fenceSite
  dsimp only
  rw [if_neg (by rw [h]; decide)]
  generalize Dev.lanesOff n _ = e
  generalize (if n = 17 then e.loseSpare c else e.losePosition n c) = f
  have hlost (x : BitVec 128) : (if f.memLost = true ∧ ¬ d.memLost = true then f.fire 517 0 x else f).mct = f.mct ∧
      f.KeepsFirings (if f.memLost = true ∧ ¬ d.memLost = true then f.fire 517 0 x else f) := by
    split
    · exact ⟨rfl, .of_fire rfl⟩
    · exact ⟨rfl, .refl f⟩
  obtain ⟨hmct, hkept⟩ := hlost (f.lostPositions.foldl (fun m p => m ||| dbits p 1) 0)
  generalize (if f.memLost = true ∧ ¬ d.memLost = true then f.fire 517 0 _ else f) = g at *
  split
  · exact ⟨hmct, hkept.trans (.of_flt rfl)⟩
  · exact ⟨hmct, hkept⟩

theorem Dev.site_congr {d e : Dev} (h : e.mct.sites = d.mct.sites) (k : Nat) : e.site k = d.site k := by
  unfold Dev.site
  rw [h]

theorem Dev.lane_congr {d e : Dev} (h : e.mct.lanes = d.mct.lanes) (k : Nat) : e.lane k = d.lane k := by
  unfold Dev.lane
  rw [h]

theorem mctSiteFence_spec (m : Fn) (k : SiteNo) (x : Site) (s : State) (hx : s.dev.site k = x) (h : s.dev.mayWriteReg m .site k MCT_SITE_CTL)
    (ha : s.dev.armed (PType.site.page + k) m = true) :
    ∃ u, exec (.mctSiteFence m k) s = .next u ∧ u.dev.mem = s.dev.mem ∧
      if x.fenced then u.dev.mct = s.dev.mct
      else (u.dev.site k).fenced = true ∧ (u.dev.site k).cause = 3 ∧ (u.dev.site k).errs = x.errs ∧
        (∀ n, n ≠ k.val → u.dev.site n = s.dev.site n) ∧
        (∀ j, j < 4 → (u.dev.lane (4 * k + j)).state =
          (if (s.dev.lane (4 * k + j)).state = .dead then .dead else .off)) ∧
        (k.val ≠ 17 → (∃ f ∈ u.dev.flt.arrivals, f.src = 515 ∧ f.inst = k.val) ∧
          (s.dev.mct.spare = .idle → s.dev.mct.gone = [] → u.dev.mct.spare = .pending k ∧ u.dev.mct.gone = []) ∧
          (∀ p, s.dev.mct.spare = .substituted p → u.dev.mct.gone = s.dev.mct.gone ++ [k.val])) ∧
        (k.val = 17 → s.dev.mct.spare = .idle → u.dev.mct.spare = .none ∧
          ∃ f ∈ u.dev.flt.arrivals, f.src = 516 ∧ f.inst = 17) := by
  have he : exec (.mctSiteFence m k) s = .next ⟨(s.dev.setArm (17 + k) m false).fenceSite k 3, s.pending⟩ := by
    show s.dev! (Dev.regWrite m .site k MCT_SITE_CTL 1) = _
    rw [State.dev!_next, Dev.regWrite_siteFence h ha]
  refine ⟨_, he, ?_⟩
  dsimp only
  have hmct : (s.dev.setArm (17 + k) m false).mct = s.dev.mct := rfl
  have hmem : (s.dev.setArm (17 + k) m false).mem = s.dev.mem := rfl
  generalize s.dev.setArm (17 + k) m false = d at *
  have hsite (n : Nat) : d.site n = s.dev.site n := Dev.site_congr (by rw [hmct]) n
  have hlane (n : Nat) : d.lane n = s.dev.lane n := Dev.lane_congr (by rw [hmct]) n
  refine ⟨(d.fenceSite_sitesOnly k 3).mem.trans hmem, ?_⟩
  by_cases hf : x.fenced = true
  · rw [if_pos hf]
    unfold Dev.fenceSite
    dsimp only
    rw [hsite, hx, if_pos hf]
    exact hmct
  rw [if_neg hf]
  obtain ⟨e, f, hee, hfe, hfm, hkept⟩ := Dev.fenceSite_steps (d := d) (n := k.val) (c := 3) (by rw [hsite, hx]; simpa using hf)
  obtain ⟨y, hy, hfen, hcause, herrs⟩ : ∃ y : Site, y = { d.site k with fenced := true, cause := BitVec.ofNat 2 3 } ∧
      y.fenced = true ∧ y.cause = 3 ∧ y.errs = x.errs := ⟨_, rfl, rfl, rfl, by rw [hsite, hx]⟩
  rw [← hy] at hee
  have hlanes := (Dev.lanesOff_spec k (d.setSite k y)).1
  have hsites : e.mct.sites = (d.setSite k y).mct.sites := by rw [hee]; exact (Dev.lanesOff_spec k _).2.1
  have hspare : e.mct.spare = (d.setSite k y).mct.spare := by rw [hee]; exact (Dev.lanesOff_spec k _).2.2.1
  have hgone : e.mct.gone = (d.setSite k y).mct.gone := by rw [hee]; exact (Dev.lanesOff_spec k _).2.2.2
  rw [← hee] at hlanes
  have hspare : e.mct.spare = s.dev.mct.spare := hspare.trans (show d.mct.spare = _ by rw [hmct])
  have hgone : e.mct.gone = s.dev.mct.gone := hgone.trans (show d.mct.gone = _ by rw [hmct])
  have honly : e.SpareOnly f := by
    rw [hfe]
    split
    · exact (e.loseSpare_spec 3).1
    · exact (e.losePosition_spec k 3).1
  have hsiteU (n : Nat) : (d.fenceSite k 3).site n = (d.setSite k y).site n :=
    (Dev.site_congr (by rw [hfm]; exact honly.sites) n).trans (Dev.site_congr hsites n)
  have hlaneU (n : Nat) : (d.fenceSite k 3).lane n = e.lane n := Dev.lane_congr (by rw [hfm]; exact honly.lanes) n
  rw [hsiteU, Dev.site_setSite]
  refine ⟨hfen, hcause, herrs, fun n hn => ?_, fun j hj => ?_, fun hk => ?_, fun hk hs => ?_⟩
  · rw [hsiteU, Dev.site_setSite_ne _ _ hn, hsite]
  · rw [hlaneU, hlanes j hj]
    rw [show (d.setSite k y).lane (4 * k + j) = s.dev.lane (4 * k + j) from hlane _]
  · rw [if_neg hk] at hfe
    obtain ⟨-, ⟨a, ha, hsrc⟩, hidle, hsub⟩ := e.losePosition_spec k 3
    rw [← hfe] at ha hidle hsub
    rw [hfm]
    exact ⟨⟨a, hkept.kept a ha, hsrc⟩, fun hs hg => hidle (hspare.trans hs) (hgone.trans hg), fun p hs => (hsub p (hspare.trans hs)).trans (by rw [hgone])⟩
  · rw [if_pos hk] at hfe
    obtain ⟨hnone, a, ha, hsrc⟩ := (e.loseSpare_spec 3).2 (hspare.trans hs)
    rw [← hfe] at ha hnone
    rw [hfm]
    exact ⟨hnone, a, hkept.kept a ha, hsrc⟩

/-! ## The rebuild -/

theorem Dev.foldl_unswitched (l : List Nat) (d : Dev) : d.onlyChanges (l.foldl (fun d g => d.setGang g { d.gang g with switched := false }) d) [.mct] ∧
    ∀ g, g ∈ l → ((l.foldl (fun d g => d.setGang g { d.gang g with switched := false }) d).gang g).switched = false := by
  have hkeeps (l : List Nat) (d : Dev) (g : Nat) (h : (d.gang g).switched = false) :
      ((l.foldl (fun d g => d.setGang g { d.gang g with switched := false }) d).gang g).switched = false := by
    induction l generalizing d with
    | nil => exact h
    | cons k l ih =>
      refine ih _ ?_
      by_cases hg : g = k
      · rw [hg, Dev.gang_setGang]
      · rw [Dev.gang_setGang_ne _ _ hg, h]
  refine ⟨?_, ?_⟩
  · induction l generalizing d with
    | nil => exact fun p _ => Dev.onlyChanges_refl d [] p List.not_mem_nil
    | cons k l ih => exact Dev.onlyChanges_trans (by simp [Dev.onlyChanges_iff]) (ih _)
  · induction l generalizing d with
    | nil => exact fun g h => absurd h List.not_mem_nil
    | cons k l ih =>
      intro g hg
      rcases List.mem_cons.mp hg with rfl | hg
      · exact hkeeps l _ g (by rw [Dev.gang_setGang])
      · exact ih _ g hg

/-- The rebuild of a position at its start, before the tick's grant. -/
def Dev.rebuildBegun (d : Dev) (p : Nat) : Dev :=
  { d with mct := { d.mct with spare := .rebuilding p, ptr := 0, copied := 0, grant := 0 } }

theorem rebuildStart_spec (p : Nat) (s : State) (hs : s.dev.mct.spare = .pending p) (hst : s.dev.mct.state = 2) (hr : s.dev.reevalBusy = false)
    (hm : s.dev.modePend = false) (hw : s.dev.rst.warm = 0) :
    ∃ u, exec .rebuildStart s = .next u ∧ u.dev.mct.spare = .rebuilding p ∧ u.dev.mct.ptr = 0 ∧ u.dev.mct.copied = 0 ∧
      u.dev.mct.grant = (if s.dev.svc.mode = .normal then 4096 * s.dev.fld .mct 0 MCT_RBLD 11 0 else 0) ∧
      (∀ g, g < 4 → (u.dev.gang g).switched = false) ∧ s.dev.onlyChanges u.dev [.mct] := by
  obtain ⟨hfold, hswitched⟩ := s.dev.foldl_unswitched (List.range 4)
  obtain ⟨d, hd, he⟩ : ∃ d : Dev, d = (List.range 4).foldl (fun d g => d.setGang g { d.gang g with switched := false }) s.dev ∧
      exec .rebuildStart s = .next ⟨if (d.rebuildBegun p).svc.mode = .normal then (d.rebuildBegun p).rebuildGrant else d.rebuildBegun p, s.pending⟩ := by
    refine ⟨_, rfl, ?_⟩
    show execRebuildStart s = _
    rw [execRebuildStart, State.dev!_next, hs]
    dsimp only
    rw [show (decide (s.dev.mct.state = 2) && !s.dev.reevalBusy && !s.dev.modePend && decide (s.dev.rst.warm = 0)) = true by
      simp [hst, hr, hm, hw], Dev.when_true]
    rfl
  refine ⟨_, he, ?_⟩
  dsimp only
  rw [← hd] at hfold hswitched
  have hfold : s.dev.onlyChanges d [.mct] := hfold
  have hmode : d.svc.mode = s.dev.svc.mode := congrArg Svc.mode (show s.dev.svc = d.svc from hfold .svc (by decide)).symm
  have hfld : (d.rebuildBegun p).fld .mct 0 MCT_RBLD 11 0 = s.dev.fld .mct 0 MCT_RBLD 11 0 :=
    Dev.fld_congr (show s.dev.regs = d.regs from hfold .regs (by decide)).symm ..
  by_cases hn : s.dev.svc.mode = .normal
  · rw [if_pos (show (d.rebuildBegun p).svc.mode = .normal from hmode.trans hn), if_pos hn]
    refine ⟨rfl, rfl, rfl, congrArg (4096 * ·) hfld, fun g hg => hswitched g (List.mem_range.mpr hg), ?_⟩
    exact Dev.onlyChanges_trans hfold (by simp [Dev.onlyChanges_iff, Dev.rebuildBegun])
  · rw [if_neg (show ¬ (d.rebuildBegun p).svc.mode = .normal from fun h => hn (hmode.symm.trans h)), if_neg hn]
    refine ⟨rfl, rfl, rfl, rfl, fun g hg => hswitched g (List.mem_range.mpr hg), ?_⟩
    exact Dev.onlyChanges_trans hfold (by simp [Dev.onlyChanges_iff, Dev.rebuildBegun])

/-- The memory and the state of the rebuild are those of the other device. -/
structure Dev.SameRebuild (d e : Dev) : Prop where
  mem : e.mem = d.mem
  spare : e.mct.spare = d.mct.spare
  ptr : e.mct.ptr = d.mct.ptr
  grant : e.mct.grant = d.mct.grant
  copied : e.mct.copied = d.mct.copied

theorem Dev.SameRebuild.refl (d : Dev) : d.SameRebuild d := ⟨rfl, rfl, rfl, rfl, rfl⟩

theorem Dev.SameRebuild.trans {a b c : Dev} (h : a.SameRebuild b) (h' : b.SameRebuild c) : a.SameRebuild c :=
  ⟨h'.mem.trans h.mem, h'.spare.trans h.spare, h'.ptr.trans h.ptr, h'.grant.trans h.grant, h'.copied.trans h.copied⟩

theorem Dev.LanesOnly.sameRebuild {d e : Dev} (h : d.LanesOnly e) : d.SameRebuild e := by
  obtain ⟨l, rfl⟩ := h
  exact ⟨rfl, rfl, rfl, rfl, rfl⟩

theorem Dev.rebuilt_sameRebuild (t mid : Nat) (ps : List Nat) (d : Dev) : d.SameRebuild (d.rebuilt t mid ps) := by
  have hfold (ps : List Nat) (site : Nat → Nat) (d : Dev) : d.SameRebuild (ps.foldl (fun d p => d.rebuiltByte t mid (site p) p) d) := by
    induction ps generalizing d with
    | nil => exact .refl d
    | cons p ps ih => exact .trans (b := d.rebuiltByte t mid (site p) p) ⟨rfl, rfl, rfl, rfl, rfl⟩ (ih _)
  unfold Dev.rebuilt
  split
  · exact .refl d
  · exact .trans (b := { d with mct := { d.mct with corrected := d.mct.corrected + 1 } }) ⟨rfl, rfl, rfl, rfl, rfl⟩
      (hfold ps (d.servingSite t) _)

theorem Dev.uncorrectable_sameRebuild (t mid : Nat) (d : Dev) : d.SameRebuild ((d.markBad t).uncorrectable t mid) := by
  refine .trans (b := d.markBad t) ?_ ⟨rfl, rfl, rfl, rfl, rfl⟩
  unfold Dev.markBad
  split
  · exact .refl d
  · exact ⟨rfl, rfl, rfl, rfl, rfl⟩

/-- The check of a burst keeps memory, the rebuild's pointer and counts, and the spare where no write link failed. -/
theorem Dev.burstChecked_rebuild (g t mid : Nat) (i : BurstInput) (bs : List Byte) (beats : List Nat) (res : BurstRes) (d : Dev) :
    ∃ e, d.SameRebuild e ∧ e.SitesOnly (d.burstChecked g t mid i bs beats res true) ∧
      (i.linkFail = [] → d.burstChecked g t mid i bs beats res true = e) := by
  have hlinks (e : Dev) (sites gone : List Nat) :
      e.SitesOnly ((failedPositions i beats gone).foldl (fun d p => d.linkFailed (sites.getD p p)) e) ∧
        (i.linkFail = [] → (failedPositions i beats gone).foldl (fun d p => d.linkFailed (sites.getD p p)) e = e) :=
    ⟨Dev.foldl_sitesOnly (fun d p => d.linkFailed_sitesOnly _) _ _,
      fun hl => by rw [show failedPositions i beats gone = [] by simp [failedPositions, hl], List.foldl_nil]⟩
  unfold Dev.burstChecked
  dsimp only
  cases res with
  | again => exact ⟨d, .refl d, hlinks d _ _⟩
  | bad =>
    dsimp only
    rw [if_pos rfl]
    obtain ⟨e, he, hsame⟩ : ∃ e, (d.markBad t).uncorrectable t mid = e ∧ d.SameRebuild e := ⟨_, rfl, d.uncorrectable_sameRebuild t mid⟩
    rw [he]
    exact ⟨e, hsame, hlinks e _ _⟩
  | good ps => exact ⟨_, (d.rebuilt_sameRebuild t mid ps).trans (Dev.references_lanesOnly ..).sameRebuild, hlinks _ _ _⟩

/-- The counters of the rebuild once the copy of an atom is made. -/
def Dev.atomCopied (d : Dev) : Dev :=
  { d with mct := { d.mct with grant := d.mct.grant - 1, ptr := d.mct.ptr + 1, copied := d.mct.copied + 1 } }

theorem rebuildCopy_spec (p : Nat) (s : State) (hs : s.dev.mct.spare = .rebuilding p) (hst : s.dev.mct.state = 2) (hg : 0 < s.dev.mct.grant)
    (hp : s.dev.mct.ptr < s.dev.atomCount) (hb : s.dev.bankServes 2 (s.dev.atomAtIndex s.dev.mct.ptr) = true) (burst : BurstInput) :
    ∃ u, exec (.rebuildCopy burst) s = .next u ∧ u.dev.mct.ptr = s.dev.mct.ptr + 1 ∧
      u.dev.mct.grant = s.dev.mct.grant - 1 ∧ u.dev.mct.copied = s.dev.mct.copied + 1 ∧
      (burst.linkFail = [] → u.dev.mct.spare = .rebuilding p) ∧ u.dev.mem = s.dev.mem := by
  obtain ⟨g, t, bs, beats, res, he⟩ : ∃ g t bs beats res, exec (.rebuildCopy burst) s =
      .next ⟨s.dev.atomCopied.burstChecked g t 69 burst bs beats res true, s.pending⟩ := by
    refine ⟨s.dev.atomCopied.gangOf (s.dev.atomAtIndex s.dev.mct.ptr), s.dev.atomAtIndex s.dev.mct.ptr,
      s.dev.bytes (256 * s.dev.atomAtIndex s.dev.mct.ptr) 256, List.range 16,
      burstRes burst (s.dev.bytes (256 * s.dev.atomAtIndex s.dev.mct.ptr) 256) (List.range 16)
        (s.dev.unavailable (s.dev.atomAtIndex s.dev.mct.ptr)) (s.dev.mct.poison.contains (s.dev.atomAtIndex s.dev.mct.ptr)) true, ?_⟩
    show execRebuildCopy burst s = _
    rw [execRebuildCopy, State.dev!_next, hs]
    dsimp only
    rw [show (decide (s.dev.mct.state = 2) && decide (0 < s.dev.mct.grant) && decide (s.dev.mct.ptr < s.dev.atomCount) &&
      s.dev.bankServes 2 (s.dev.atomAtIndex s.dev.mct.ptr)) = true by simp [hst, hg, hp, hb], Dev.when_true]
    rfl
  refine ⟨_, he, ?_⟩
  dsimp only
  obtain ⟨e, hsame, honly, heq⟩ := s.dev.atomCopied.burstChecked_rebuild g t 69 burst bs beats res
  exact ⟨honly.ptr.trans hsame.ptr, honly.grant.trans hsame.grant, honly.copied.trans hsame.copied,
    fun h => by rw [heq h]; exact hsame.spare.trans hs, honly.mem.trans hsame.mem⟩

/-- Settles O52: a fence changes the site, its lanes and what they lost; a rebuild begins at the first atom, and each copy advances it. -/
theorem sitesAreFencedAndRebuilt : Obligations.SitesAreFencedAndRebuilt :=
  ⟨mctSiteFence_spec, rebuildStart_spec, rebuildCopy_spec⟩

end Sys2Proof.Machine
end

section
/-!
PROOF of O53: the Crucible checks its groups, scrubs them and spares rows.
-/
namespace Sys2Proof.Machine
set_option Elab.async false

/-! ## What the refusal of a transaction leaves of the Crucible -/

/-- The count of corrections and the lost words stand; each row due for sparing is still due, each firing still under way. -/
structure Dev.CruKept (d e : Dev) : Prop where
  corrected : e.cru.corrected = d.cru.corrected
  badLocal : e.cru.badLocal = d.cru.badLocal
  due : ∀ k ∈ d.cru.due, k ∈ e.cru.due
  firings : d.KeepsFirings e

theorem Dev.CruKept.of_cru {d e : Dev} (h : e.cru = d.cru) (hf : d.KeepsFirings e) : d.CruKept e :=
  ⟨by rw [h], by rw [h], fun k hk => by rw [h]; exact hk, hf⟩

theorem Dev.CruKept.refl (d : Dev) : d.CruKept d := .of_cru rfl (.refl d)

theorem Dev.CruKept.trans {a b c : Dev} (h : a.CruKept b) (h' : b.CruKept c) : a.CruKept c :=
  ⟨h'.corrected.trans h.corrected, h'.badLocal.trans h.badLocal, fun k hk => h'.due k (h.due k hk), h.firings.trans h'.firings⟩

theorem Dev.CruKept.ite {c : Prop} [Decidable c] {d a b : Dev} (ha : d.CruKept a) (hb : d.CruKept b) : d.CruKept (if c then a else b) := by
  split
  · exact ha
  · exact hb

theorem Dev.foldl_cruKept {β : Type} {step : Dev → β → Dev} (h : ∀ (d : Dev) b, d.CruKept (step d b)) (l : List β) (d : Dev) :
    d.CruKept (l.foldl step d) := by
  induction l generalizing d with
  | nil => exact .refl d
  | cons b l ih => exact (h d b).trans (ih _)

theorem Dev.sparingDue_cruKept (mac row : Nat) (d : Dev) : d.CruKept (d.sparingDue mac row) := by
  refine ⟨?_, ?_, ?_, d.sparingDue_keepsFirings mac row⟩ <;> unfold Dev.sparingDue <;> dsimp only <;> split
  · rfl
  · rfl
  · rfl
  · rfl
  · exact fun _ h => h
  · exact fun _ h => List.mem_append_left _ h

theorem Dev.sparingDue_uncorr (mac row : Nat) (d : Dev) : (d.sparingDue mac row).cru.uncorr = d.cru.uncorr := by
  unfold Dev.sparingDue
  dsimp only
  split <;> rfl

/-- A row in which a group was lost is due for sparing, or has no spare left. -/
theorem Dev.sparingDue_due (mac row : Nat) (d : Dev) :
    (d.sparingDue mac row).cru.due.contains (rowKey mac row) = true ∨ d.cru.stuck.contains (rowKey mac row) = true := by
  unfold Dev.sparingDue
  dsimp only
  split
  · next h => exact h
  · exact .inl (List.contains_iff_mem.mpr (List.mem_append_right _ (List.mem_singleton_self _)))

theorem Dev.groupFails_cruKept (mac row grp : Nat) (d : Dev) : d.CruKept (d.groupFails mac row grp) := by
  unfold Dev.groupFails
  dsimp only
  refine .trans ?_ (Dev.sparingDue_cruKept ..)
  exact ⟨rfl, rfl, fun _ h => h, .of_fire rfl⟩

theorem Dev.store_cruKept (a : Nat) (bs : List Byte) (d : Dev) : d.CruKept (d.store a bs) := by
  obtain ⟨m, p, g, o, he, -, -⟩ := d.store_marks a bs
  rw [he]
  exact ⟨rfl, rfl, fun _ h => h, .of_flt rfl⟩

theorem Dev.masterWrite_cruKept (mid a : Nat) (ws : List Word) (d : Dev) : d.CruKept (d.masterWrite mid a ws) := by
  have hread : d.CruKept (d.noteRead mid true a (4 * ws.length)) := by
    unfold Dev.noteRead
    split
    · exact Dev.foldl_cruKept (fun e t => .of_cru (by simp) (e.readAtom_keepsFirings mid t)) _ d
    · exact Dev.foldl_cruKept (fun e t => e.groupFails_cruKept ..) _ d
    · exact .refl d
    · exact .refl d
  unfold Dev.masterWrite
  split
  · exact hread.trans (Dev.store_cruKept ..)
  · exact .of_cru (by simp) (by unfold Dev.deny; exact .of_fire rfl)
  · exact hread

theorem Dev.completeGrp_cruKept (q grp : Nat) (d : Dev) : d.CruKept (d.completeGrp q grp) := by
  unfold Dev.completeGrp Dev.advanceHead
  dsimp only
  obtain ⟨e, he, hde⟩ : ∃ e : Dev, e = d.setQueue q { d.queue q with
      entries := (d.queue q).entries.map fun e => if e.grp = grp then { e with done := true } else e } ∧ d.CruKept e :=
    ⟨_, rfl, .of_cru rfl (.of_flt rfl)⟩
  rw [← he]
  refine .ite hde (hde.trans ?_)
  have hset (x : Queue) : e.CruKept (e.setQueue q x) := .of_cru rfl (.of_flt rfl)
  have hback (f : Dev) : f.CruKept (f.headWriteback q) := by
    unfold Dev.headWriteback
    exact .ite (Dev.masterWrite_cruKept ..) (.refl f)
  exact ((hset _).trans (hback _)).trans (Dev.foldl_cruKept (fun f p => .of_cru (by simp) (.of_flt (by simp))) _ _)

theorem Dev.noticeThen_cruKept {k : Dev → Dev} (hk : ∀ d : Dev, d.CruKept (k d)) (f : Nat) (n : Notice) (d : Dev) :
    d.CruKept (d.noticeThen f n k) := by
  have hpost : d.CruKept (d.post f n) := by
    unfold Dev.post
    dsimp only
    refine .ite (.of_cru rfl (.of_flt rfl)) ?_
    refine .ite (.trans (d.masterWrite_cruKept ..) (.of_cru rfl (.of_fire rfl))) (.trans (d.masterWrite_cruKept ..) (.of_cru rfl (.of_flt rfl)))
  unfold Dev.noticeThen
  dsimp only
  exact .ite ((hpost.trans (hk _)).trans (.of_cru (by simp) (Dev.noticeIrq_keepsFirings ..))) (hpost.trans (hk _))

theorem Dev.retryScene_cruKept (q : Nat) (d : Dev) : d.CruKept (d.retryScene q) := by
  have hset (e : Dev) (x : Queue) : e.CruKept (e.setQueue q x) := .of_cru rfl (.of_flt rfl)
  have hopen (w : Word) : d.CruKept (d.beginScene q w) := by
    unfold Dev.beginScene
    refine .ite (hset d _) ?_
    split
    · exact hset d _
    · refine .trans ?_ (hset _ _)
      split
      · unfold Dev.refuseOpen
        dsimp only
        split
        · exact .refl d
        · exact (hset d _).trans (Dev.noticeThen_cruKept (Dev.completeGrp_cruKept q _) ..)
      · exact .refl d
  unfold Dev.retryScene
  exact .ite (hopen _) (.refl d)

theorem Dev.txnDone_cruKept (q grp : Nat) (d : Dev) : d.CruKept (d.txnDone q grp) := by
  unfold Dev.txnDone
  dsimp only
  obtain ⟨e, he, hkept⟩ : ∃ e : Dev, e = d.setQueue q { d.queue q with outst := (d.queue q).outst - 1 } ∧ d.CruKept e :=
    ⟨_, rfl, .of_cru rfl (.of_flt rfl)⟩
  rw [← he]
  exact (hkept.trans (e.completeGrp_cruKept q grp)).trans (Dev.retryScene_cruKept ..)

theorem Dev.stagingFreed_cruKept (d : Dev) : d.CruKept d.stagingFreed := by
  unfold Dev.stagingFreed
  exact Dev.foldl_cruKept (fun f q => f.retryScene_cruKept q) _ _

theorem Dev.refuseAtLatch_cruKept (c : Nat) (d : Dev) : d.CruKept (d.refuseAtLatch c) := by
  unfold Dev.refuseAtLatch
  split
  · exact .refl d
  · next a _ =>
    obtain ⟨e, he, hkept⟩ : ∃ e : Dev, e = { d.setFlight (d.scene.flight.filter fun b => b.no ≠ a.no) with
        canvases := d.canvases.map fun (e : Nat × Canvas) => (e.1, e.2.unbind a.no) } ∧ d.CruKept e := ⟨_, rfl, .of_cru rfl (.of_flt rfl)⟩
    dsimp only
    rw [← he]
    refine hkept.trans (Dev.noticeThen_cruKept (fun f => ?_) _ _ _)
    exact (f.txnDone_cruKept _ _).trans (f.txnDone _ _).stagingFreed_cruKept

/-! ## The check of a group -/

/-- What becomes of a lost group's contents leaves the Crucible's counts. -/
theorem Dev.markGroup_cruKept (off : Nat) (d : Dev) : d.CruKept (d.markGroup off) ∧ (d.markGroup off).cru.uncorr = d.cru.uncorr := by
  have hinv (e : Dev) (i : Nat) : (e.invalidate i).cru = e.cru ∧ e.KeepsFirings (e.invalidate i) := by
    unfold Dev.invalidate
    dsimp only
    split
    · exact ⟨rfl, .refl e⟩
    · exact ⟨rfl, .of_fire rfl⟩
  unfold Dev.markGroup
  dsimp only
  obtain ⟨e, he, hkept, hun⟩ : ∃ e : Dev, e = (if d.cruReadable off ∧ ¬ d.cru.badGroups.contains (off / 8) then
      { d with cru := { d.cru with badGroups := off / 8 :: d.cru.badGroups } } else d) ∧ d.CruKept e ∧ e.cru.uncorr = d.cru.uncorr := by
    refine ⟨_, rfl, ?_⟩
    split
    · exact ⟨⟨rfl, rfl, fun _ h => h, .of_flt rfl⟩, rfl⟩
    · exact ⟨.refl d, rfl⟩
  rw [← he]
  split
  · split
    · exact ⟨hkept, hun⟩
    · exact ⟨hkept.trans ⟨rfl, rfl, fun _ h => h, .of_flt rfl⟩, hun⟩
  split
  · split
    · exact ⟨hkept, hun⟩
    · exact ⟨hkept.trans ⟨rfl, rfl, fun _ h => h, .of_flt rfl⟩, hun⟩
  split
  · obtain ⟨hcru, hf⟩ := hinv e ((off - 0x500000) / 64)
    exact ⟨hkept.trans (.of_cru hcru hf), (congrArg Crucible.uncorr hcru).trans hun⟩
  · exact ⟨hkept, hun⟩

/-- An uncorrectable group is counted and fires, and its row is due for sparing. -/
theorem Dev.cruCheck_uncorrectable (mac row grp : Nat) (d : Dev) : ∃ e, d.cruCheck mac row grp .uncorrectable = e ∧
    e.cru.corrected = d.cru.corrected ∧ e.cru.badLocal = d.cru.badLocal ∧ e.cru.uncorr = d.cru.uncorr + 1 ∧
    (∃ f ∈ e.flt.arrivals, f.src = 193 ∧ f.inst = mac) ∧
    (rowKey mac row ∈ e.cru.due ∨ d.cru.stuck.contains (rowKey mac row) = true) := by
  obtain ⟨x, hx, hkept, hun, hfire, hdue⟩ : ∃ x, d.groupFails mac row grp = x ∧ d.CruKept x ∧ x.cru.uncorr = d.cru.uncorr + 1 ∧
      (∃ f ∈ x.flt.arrivals, f.src = 193 ∧ f.inst = mac) ∧ (rowKey mac row ∈ x.cru.due ∨ d.cru.stuck.contains (rowKey mac row) = true) := by
    refine ⟨_, rfl, d.groupFails_cruKept mac row grp, ?_, ?_, ?_⟩ <;> unfold Dev.groupFails <;> dsimp only
    · exact Dev.sparingDue_uncorr ..
    · exact ⟨_, (Dev.sparingDue_keepsFirings ..).kept _ (List.mem_append_right _ (List.mem_singleton_self _)), rfl, rfl⟩
    · exact (Dev.sparingDue_due mac row _).imp_left List.contains_iff_mem.mp
  refine ⟨_, rfl, ?_⟩
  unfold Dev.cruCheck
  dsimp only
  rw [hx]
  obtain ⟨f, hf, hsrc⟩ := hfire
  split
  · next o _ =>
    obtain ⟨hmark, hmarkUn⟩ := x.markGroup_cruKept o
    exact ⟨hmark.corrected.trans hkept.corrected, hmark.badLocal.trans hkept.badLocal, hmarkUn.trans hun,
      ⟨f, hmark.firings.kept f hf, hsrc⟩, hdue.imp_left (hmark.due _)⟩
  · exact ⟨hkept.corrected, hkept.badLocal, hun, ⟨f, hf, hsrc⟩, hdue⟩

/-- What the consumer of a lost group does leaves the Crucible's counts, but for the words it can lose. -/
theorem Dev.consumed_counts (who : CruConsumer) (mac : Nat) (d : Dev) : (d.consumed who mac).cru.corrected = d.cru.corrected ∧
    (∀ k ∈ d.cru.due, k ∈ (d.consumed who mac).cru.due) ∧ d.KeepsFirings (d.consumed who mac) ∧
    ((∀ c, who ≠ .stagingAtLatch c) → (d.consumed who mac).cru.uncorr = d.cru.uncorr) := by
  have hsame {e : Dev} (h : e.cru = d.cru) (hf : e.flt = d.flt) : e.cru.corrected = d.cru.corrected ∧ (∀ k ∈ d.cru.due, k ∈ e.cru.due) ∧
      d.KeepsFirings e ∧ ((∀ c, who ≠ .stagingAtLatch c) → e.cru.uncorr = d.cru.uncorr) :=
    ⟨by rw [h], fun k hk => by rw [h]; exact hk, .of_flt hf, fun _ => by rw [h]⟩
  unfold Dev.consumed
  split
  · unfold Dev.loseWord
    dsimp only
    split
    · exact hsame rfl rfl
    · exact ⟨rfl, fun _ h => h, .of_flt rfl, fun _ => rfl⟩
  · exact hsame rfl rfl
  · exact hsame (by simp) (by simp)
  · next c =>
    have hkept := d.refuseAtLatch_cruKept c
    exact ⟨hkept.corrected, hkept.due, hkept.firings, fun h => absurd rfl (h c)⟩
  all_goals exact hsame rfl rfl

theorem Dev.loseWord_bad (mac : Nat) (w : LocalWord) (d : Dev) : ((Config.macroOwner mac).val, w) ∈ (d.loseWord mac w).cru.badLocal ∧
    ∀ e ∈ d.cru.badLocal, e ∈ (d.loseWord mac w).cru.badLocal := by
  unfold Dev.loseWord
  dsimp only
  split
  · next h => exact ⟨List.contains_iff_mem.mp h, fun _ h => h⟩
  · exact ⟨List.mem_append_right _ (List.mem_singleton_self _), fun _ h => List.mem_append_left _ h⟩

theorem crucibleRead_spec (g : CruGroup) (who : CruConsumer) (s : State) (h : s.dev.reads who (s.dev.cruOffset g.mac g.row g.grp) = true) :
    exec (.crucibleRead g .clean who) s = .next s ∧
    (∀ w, who = .localMem (some w) → ∃ u, exec (.crucibleRead g .uncorrectable who) s = .next u ∧
      ((Config.macroOwner g.mac).val, w) ∈ u.dev.cru.badLocal ∧ ∀ e ∈ s.dev.cru.badLocal, e ∈ u.dev.cru.badLocal) ∧
    (∃ u, exec (.crucibleRead g .single who) s = .next u ∧ u.dev.cru.corrected = s.dev.cru.corrected + 1 ∧
      u.dev.cru.uncorr = s.dev.cru.uncorr ∧ (∃ f ∈ u.dev.flt.arrivals, f.src = 192 ∧ f.inst = g.mac.val) ∧
      s.dev.onlyChanges u.dev [.cru, .flt]) ∧
    ∃ u, exec (.crucibleRead g .uncorrectable who) s = .next u ∧ u.dev.cru.corrected = s.dev.cru.corrected ∧
      ((∀ c, who ≠ .stagingAtLatch c) → u.dev.cru.uncorr = s.dev.cru.uncorr + 1) ∧ (∃ f ∈ u.dev.flt.arrivals, f.src = 193 ∧ f.inst = g.mac.val) ∧
      (u.dev.cru.due.contains (rowKey g.mac g.row) = true ∨ s.dev.cru.stuck.contains (rowKey g.mac g.row) = true) := by
  have hexec (f : EccFinding) : exec (.crucibleRead g f who) s = .next ⟨if f = .uncorrectable then
      (s.dev.cruCheck g.mac g.row g.grp f).consumed who g.mac else s.dev.cruCheck g.mac g.row g.grp f, s.pending⟩ := by
    show execCrucibleRead g f who s = _
    rw [execCrucibleRead, State.dev!_next, h, Dev.when_true]
  obtain ⟨e, he, hcorr, hlocal, hun, ⟨f, hf, hsrc⟩, hdue⟩ := s.dev.cruCheck_uncorrectable g.mac g.row g.grp
  have hlost : exec (.crucibleRead g .uncorrectable who) s = .next ⟨e.consumed who g.mac, s.pending⟩ := by
    rw [hexec, if_pos rfl, he]
  refine ⟨?_, ?_, ?_, ?_⟩
  · rw [hexec, if_neg (by decide)]
    rfl
  · rintro w rfl
    obtain ⟨hbad, hkept⟩ := e.loseWord_bad g.mac w
    exact ⟨_, hlost, hbad, fun x hx => hkept x (by rw [hlocal]; exact hx)⟩
  · refine ⟨_, hexec .single, ?_⟩
    dsimp only
    rw [if_neg (by decide)]
    exact ⟨rfl, rfl, ⟨_, List.mem_append_right _ (List.mem_singleton_self _), rfl, rfl⟩, by simp [Dev.onlyChanges_iff, Dev.cruCheck]⟩
  · obtain ⟨hcorr', hdue', hkept, hun'⟩ := e.consumed_counts who g.mac
    exact ⟨_, hlost, hcorr'.trans hcorr, fun hw => (hun' hw).trans hun, ⟨f, hkept.kept f hf, hsrc⟩,
      hdue.imp_left fun hd => List.contains_iff_mem.mpr (hdue' _ hd)⟩

/-! ## Scrubbing and sparing -/

theorem scrubRead_spec (s : State) (h : 0 < s.dev.cru.scrubGrant) :
    ∃ u, exec (.scrubRead .clean) s = .next u ∧ u.dev.cru.scrubGrant = s.dev.cru.scrubGrant - 1 ∧
      (if s.dev.cru.scrubPtr + 1 = scrubGroups then u.dev.cru.scrubPtr = 0 ∧ u.dev.cru.passes = s.dev.cru.passes + 1
       else u.dev.cru.scrubPtr = s.dev.cru.scrubPtr + 1 ∧ u.dev.cru.passes = s.dev.cru.passes) ∧
      s.dev.onlyChanges u.dev [.cru] := by
  obtain ⟨d, hd, hgrant, hptr, honly⟩ : ∃ d : Dev, d = { s.dev with cru := { s.dev.cru with
        scrubGrant := s.dev.cru.scrubGrant - 1
        scrubPtr := if decide (s.dev.cru.scrubPtr + 1 = scrubGroups) then 0 else s.dev.cru.scrubPtr + 1
        passes := if decide (s.dev.cru.scrubPtr + 1 = scrubGroups) then s.dev.cru.passes + 1 else s.dev.cru.passes
        fixed := if decide (s.dev.cru.scrubPtr + 1 = scrubGroups) then [] else FMap.put (fun _ => 0) s.dev.cru.fixed
          (rowKey (s.dev.cru.scrubPtr / 8192) (s.dev.cru.scrubPtr / 16 % 512))
          (FMap.get (fun _ => 0) s.dev.cru.fixed (rowKey (s.dev.cru.scrubPtr / 8192) (s.dev.cru.scrubPtr / 16 % 512)) + 0) } } ∧
      d.cru.scrubGrant = s.dev.cru.scrubGrant - 1 ∧
      (if s.dev.cru.scrubPtr + 1 = scrubGroups then d.cru.scrubPtr = 0 ∧ d.cru.passes = s.dev.cru.passes + 1
       else d.cru.scrubPtr = s.dev.cru.scrubPtr + 1 ∧ d.cru.passes = s.dev.cru.passes) ∧ s.dev.onlyChanges d [.cru] := by
    refine ⟨_, rfl, rfl, ?_, by simp [Dev.onlyChanges_iff]⟩
    split
    · next hl => exact ⟨if_pos (decide_eq_true hl), if_pos (decide_eq_true hl)⟩
    · next hl => exact ⟨if_neg (by simpa using hl), if_neg (by simpa using hl)⟩
  obtain ⟨n, mac, row, he⟩ : ∃ n mac row, exec (.scrubRead .clean) s =
      .next ⟨if 0 < n ∧ d.fld .cru 0 CRU_SCRUB 23 16 ≤ n then d.sparingDue mac row else d, s.pending⟩ := by
    refine ⟨FMap.get (fun _ => 0) s.dev.cru.fixed (rowKey (s.dev.cru.scrubPtr / 8192) (s.dev.cru.scrubPtr / 16 % 512)) + 0,
      s.dev.cru.scrubPtr / 8192, s.dev.cru.scrubPtr / 16 % 512, ?_⟩
    show execScrubRead .clean s = _
    rw [execScrubRead, State.dev!_next, decide_eq_true h, Dev.when_true, hd]
    rfl
  refine ⟨_, he, ?_⟩
  dsimp only
  split
  · have hspared : (d.sparingDue mac row).cru.scrubGrant = d.cru.scrubGrant ∧ (d.sparingDue mac row).cru.scrubPtr = d.cru.scrubPtr ∧
        (d.sparingDue mac row).cru.passes = d.cru.passes := by
      unfold Dev.sparingDue
      dsimp only
      split <;> exact ⟨rfl, rfl, rfl⟩
    obtain ⟨hg, hp, hs⟩ := hspared
    rw [hg, hp, hs]
    exact ⟨hgrant, hptr, Dev.onlyChanges_trans honly (by simp [Dev.onlyChanges_iff])⟩
  · exact ⟨hgrant, hptr, honly⟩

theorem rowSpare_spec (mac : Fin 1536) (row : Fin 512) (s : State) (h : s.dev.cru.due.contains (rowKey mac row) = true) :
    ∃ u, exec (.rowSpare mac row) s = .next u ∧ u.dev.cru.due = s.dev.cru.due.filter (· ≠ rowKey mac row) ∧
      if FMap.get (fun _ => 0) s.dev.cru.spares mac < 2 then
        FMap.get (fun _ => 0) u.dev.cru.spares mac = FMap.get (fun _ => 0) s.dev.cru.spares mac + 1 ∧
          u.dev.cru.stuck = s.dev.cru.stuck
      else u.dev.cru.stuck = s.dev.cru.stuck ++ [rowKey mac row] ∧ u.dev.cru.spares = s.dev.cru.spares := by
  rw [show exec (.rowSpare mac row) s = execRowSpare mac row s from rfl, execRowSpare, State.dev!_next]
  dsimp only
  rw [h, Dev.when_true]
  refine ⟨_, rfl, ?_⟩
  dsimp only
  split
  · have hput := FMap.get_put_same (fun _ => 0) s.dev.cru.spares mac (FMap.get (fun _ => 0) s.dev.cru.spares mac + 1)
    exact ⟨rfl, hput, rfl⟩
  · split
    · exact ⟨rfl, rfl, rfl⟩
    · exact ⟨rfl, rfl, rfl⟩

/-- Settles O53: the check of a group by its finding, a granted scrub read, and the sparing of a row that is due. -/
theorem crucibleChecksScrubsAndSpares : Obligations.CrucibleChecksScrubsAndSpares :=
  ⟨crucibleRead_spec, scrubRead_spec, rowSpare_spec⟩

end Sys2Proof.Machine
end

section
/-!
PROOF of O54: the access tables commit one entry at a time; LOCK sets.
-/
namespace Sys2Proof.Machine
set_option Elab.async false

/-! ## The entry that ACC_SEL selects -/

theorem bits_and (w k : Word) (hi lo : Nat) (hk : ∀ n < 32, lo ≤ n → n ≤ hi → bit k n = true) (hh : hi < 32) (hl : lo ≤ hi) :
    bits (w &&& k) hi lo = bits w hi lo := by
  unfold bits
  refine Nat.eq_of_testBit_eq fun j => ?_
  by_cases hj : j < hi + 1 - lo
  · have hbit : k.toNat.testBit (lo + j) = true := by
      have := hk (lo + j) (by omega) (by omega) (by omega)
      rwa [bit, BitVec.getLsbD] at this
    simp [Nat.testBit_mod_two_pow, Nat.testBit_shiftRight, hbit]
  · simp [Nat.testBit_mod_two_pow, hj]

theorem selTable_masked (w : Word) : selTable (w &&& 0xB00007FF) = selTable w := bits_and w _ 29 28 (by decide) (by decide) (by decide)

theorem selIdx_masked (w : Word) : selIdx (w &&& 0xB00007FF) = selIdx w := bits_and w _ 10 0 (by decide) (by decide) (by decide)

/-- A load of the selected entry changes the four data words alone. -/
theorem Dev.loadEntry_spec (d : Dev) : d.onlyChanges d.loadEntry [.regs] ∧ d.loadEntry.reg .acc 0 ACC_SEL = d.reg .acc 0 ACC_SEL ∧
    (d.loadEntry.reg .acc 0 ACC_DATA, d.loadEntry.reg .acc 0 (ACC_DATA + 4), d.loadEntry.reg .acc 0 (ACC_DATA + 8),
      d.loadEntry.reg .acc 0 (ACC_DATA + 12)) = d.acc.entry (selTable (d.reg .acc 0 ACC_SEL)) (selIdx (d.reg .acc 0 ACC_SEL)) := by
  obtain ⟨w0, w1, w2, w3, he⟩ : ∃ w0 w1 w2 w3, d.acc.entry (selTable (d.reg .acc 0 ACC_SEL)) (selIdx (d.reg .acc 0 ACC_SEL)) = (w0, w1, w2, w3) :=
    ⟨_, _, _, _, rfl⟩
  have hload : d.loadEntry = (((d.setReg .acc 0 ACC_DATA w0).setReg .acc 0 (ACC_DATA + 4) w1).setReg .acc 0 (ACC_DATA + 8) w2).setReg
      .acc 0 (ACC_DATA + 12) w3 := by
    unfold Dev.loadEntry
    dsimp only
    rw [he]
    rfl
  rw [hload, he]
  have hne {a b : Nat} (h : a ≠ b) : regAt .acc 0 a ≠ regAt .acc 0 b := fun heq => h (Nat.add_left_cancel heq)
  refine ⟨by simp [Dev.onlyChanges_iff], ?_, ?_⟩
  · rw [Dev.reg_setReg_ne _ _ (hne (by decide)), Dev.reg_setReg_ne _ _ (hne (by decide)), Dev.reg_setReg_ne _ _ (hne (by decide)),
      Dev.reg_setReg_ne _ _ (hne (by decide))]
  · refine Prod.ext ?_ (Prod.ext ?_ (Prod.ext ?_ ?_))
    · show Dev.reg _ _ _ ACC_DATA = _
      rw [Dev.reg_setReg_ne _ _ (hne (by decide)), Dev.reg_setReg_ne _ _ (hne (by decide)), Dev.reg_setReg_ne _ _ (hne (by decide)), Dev.reg_setReg]
    · show Dev.reg _ _ _ (ACC_DATA + 4) = _
      rw [Dev.reg_setReg_ne _ _ (hne (by decide)), Dev.reg_setReg_ne _ _ (hne (by decide)), Dev.reg_setReg]
    · show Dev.reg _ _ _ (ACC_DATA + 8) = _
      rw [Dev.reg_setReg_ne _ _ (hne (by decide)), Dev.reg_setReg]
    · show Dev.reg _ _ _ (ACC_DATA + 12) = _
      rw [Dev.reg_setReg]

theorem accSelWrite_spec (m : Fn) (w : Word) (s : State) (h : s.dev.mayWriteReg m .acc 0 ACC_SEL) :
    ∃ u, exec (.accSelWrite m w) s = .next u ∧ s.dev.onlyChanges u.dev [.regs] ∧
      (if selOk (selTable w) (selIdx w) then u.dev.reg .acc 0 ACC_SEL = w &&& 0xB00007FF
       else u.dev.reg .acc 0 ACC_SEL = (w &&& 0xB0000000) ||| (s.dev.view .acc 0 ACC_SEL &&& 0x7FF)) ∧
      (selOk (selTable w) (selIdx w) = true →
        (u.dev.reg .acc 0 ACC_DATA, u.dev.reg .acc 0 (ACC_DATA + 4), u.dev.reg .acc 0 (ACC_DATA + 8),
          u.dev.reg .acc 0 (ACC_DATA + 12)) = s.dev.acc.entry (selTable w) (selIdx w)) := by
  have hmask (v : Word) : (w &&& 0xB00007FF &&& 0xFFFFF800) ||| (v &&& 0xB00007FF &&& 0x7FF) = (w &&& 0xB0000000) ||| (v &&& 0x7FF) := by
    rw [BitVec.and_assoc, BitVec.and_assoc]
    rfl
  obtain ⟨x, d, hx, hd, he⟩ : ∃ (x : Word) (d : Dev), x = (if selOk (selTable w) (selIdx w) then w &&& 0xB00007FF
      else (w &&& 0xB0000000) ||| (s.dev.view .acc 0 ACC_SEL &&& 0x7FF)) ∧
      d = (s.dev.setReg .acc 0 ACC_SEL (w &&& 0xB00007FF)).setReg .acc 0 ACC_SEL x ∧
      exec (.accSelWrite m w) s = .next ⟨d.loadEntry, s.pending⟩ := by
    refine ⟨_, _, rfl, rfl, ?_⟩
    show s.dev! (Dev.regWrite m .acc 0 ACC_SEL w) = _
    rw [State.dev!_next, Dev.regWrite_accSel h]
    unfold Dev.selWritten
    dsimp only
    rw [Dev.reg_setReg, selTable_masked, selIdx_masked, hmask]
  obtain ⟨honly, hsel, hdata⟩ := d.loadEntry_spec
  have hreg : d.reg .acc 0 ACC_SEL = x := by rw [hd, Dev.reg_setReg]
  refine ⟨_, he, Dev.onlyChanges_trans (b := d) (by rw [hd]; simp [Dev.onlyChanges_iff]) honly, ?_, fun hok => ?_⟩
  · show if _ then d.loadEntry.reg .acc 0 ACC_SEL = _ else d.loadEntry.reg .acc 0 ACC_SEL = _
    rw [hsel, hreg, hx]
    split
    · rfl
    · rfl
  · rw [if_pos hok] at hx
    refine hdata.trans ?_
    rw [hreg, hx, selTable_masked, selIdx_masked, hd]
    rfl

/-! ## The commit of an entry -/

/-- An entry that is put reads back; the table's other entries and the other tables read as before. -/
theorem Acc.entry_put (a : Acc) (e : AccEntry) {t i : Nat} (ht : t < 4) (hok : selOk t i = true) :
    (a.put t i (entryKept t e)).entry t i = entryKept t e ∧ (∀ j, j ≠ i → (a.put t i (entryKept t e)).entry t j = a.entry t j) ∧
      ∀ k j, k < 4 → k ≠ t → (a.put t i (entryKept t e)).entry k j = a.entry k j := by
  have hif (j : Nat) {x y : AccEntry} (h : x = y) : (if ¬ selOk t j then (0, 0, 0, 0) else x) = if ¬ selOk t j then (0, 0, 0, 0) else y := by rw [h]
  have hof (x : AccEntry) : (if ¬ selOk t i then (0, 0, 0, 0) else x) = x := if_neg (by simpa using hok)
  obtain ⟨w0, w1, w2, w3⟩ := e
  match t, ht with
  | 0, _ =>
    refine ⟨(hof _).trans (FMap.get_put_same ..), fun j hj => hif j (FMap.get_put_ne _ _ _ hj), fun k j _ hk => ?_⟩
    match k with
    | 0 => exact absurd rfl hk
    | 1 => rfl
    | 2 => rfl
    | k + 3 => rfl
  | 1, _ =>
    refine ⟨(hof _).trans (congrArg (·, 0, 0, 0) (FMap.get_put_same ..)),
      fun j hj => hif j (congrArg (·, 0, 0, 0) (FMap.get_put_ne _ _ _ hj)), fun k j _ hk => ?_⟩
    match k with
    | 0 => rfl
    | 1 => exact absurd rfl hk
    | 2 => rfl
    | k + 3 => rfl
  | 2, _ =>
    refine ⟨(hof _).trans (congrArg (·, 0, 0, 0) (FMap.get_put_same ..)),
      fun j hj => hif j (congrArg (·, 0, 0, 0) (FMap.get_put_ne _ _ _ hj)), fun k j _ hk => ?_⟩
    match k with
    | 0 => rfl
    | 1 => rfl
    | 2 => exact absurd rfl hk
    | k + 3 => rfl
  | 3, _ =>
    refine ⟨(hof _).trans (FMap.get_put_same ..), fun j hj => hif j (FMap.get_put_ne _ _ _ hj), fun k j hk3 hk => ?_⟩
    match k with
    | 0 => rfl
    | 1 => rfl
    | 2 => rfl
    | k + 3 => omega

/-- The commit of the entry that ACC_SEL selects. -/
theorem Dev.commitEntry_spec {d : Dev} {e : AccEntry} {t i : Nat} (he : e = (d.reg .acc 0 ACC_DATA, d.reg .acc 0 (ACC_DATA + 4),
      d.reg .acc 0 (ACC_DATA + 8), d.reg .acc 0 (ACC_DATA + 12))) (ht : t = selTable (d.reg .acc 0 ACC_SEL)) (hi : i = selIdx (d.reg .acc 0 ACC_SEL)) :
    d.onlyChanges d.commitEntry [.regs, .acc] ∧ d.commitEntry.acc = if selOk t i = true ∧ entryOk t e = true then
      { d.acc.put t i (entryKept t e) with selErr := false } else { d.acc with selErr := true } := by
  have hcommit : d.commitEntry = if ¬ (selOk t i ∧ entryOk t e) then { d with acc := { d.acc with selErr := true } } else
      if bit (d.reg .acc 0 ACC_SEL) 31 then
        (({ d with acc := { d.acc.put t i (entryKept t e) with selErr := false } } : Dev).setReg .acc 0 ACC_SEL
          ((d.reg .acc 0 ACC_SEL &&& 0xFFFFF800) ||| place 10 0 (i + 1))).loadEntry
      else { d with acc := { d.acc.put t i (entryKept t e) with selErr := false } } := by
    rw [he, ht, hi]
    rfl
  rw [hcommit]
  by_cases hok : selOk t i = true ∧ entryOk t e = true
  · rw [if_neg (not_not.mpr hok), if_pos hok]
    split
    · obtain ⟨x, hx, hacc, honly⟩ : ∃ x : Dev, x = ({ d with acc := { d.acc.put t i (entryKept t e) with selErr := false } } : Dev).setReg
          .acc 0 ACC_SEL ((d.reg .acc 0 ACC_SEL &&& 0xFFFFF800) ||| place 10 0 (i + 1)) ∧
          x.acc = { d.acc.put t i (entryKept t e) with selErr := false } ∧ d.onlyChanges x [.regs, .acc] :=
        ⟨_, rfl, rfl, by simp [Dev.onlyChanges_iff]⟩
      rw [← hx]
      obtain ⟨hload, -, -⟩ := x.loadEntry_spec
      exact ⟨Dev.onlyChanges_trans honly (Dev.onlyChanges_mono hload (by simp)),
        (show x.acc = x.loadEntry.acc from hload .acc (by decide)).symm.trans hacc⟩
    · exact ⟨by simp [Dev.onlyChanges_iff], rfl⟩
  · rw [if_pos hok, if_neg hok]
    exact ⟨by simp [Dev.onlyChanges_iff], rfl⟩

theorem accData3Commit_spec (m : Fn) (w : Word) (s : State) (e : AccEntry) (t i : Nat) (h : s.dev.mayWriteReg m .acc 0 (ACC_DATA + 12))
    (hl : s.dev.acc.lock = false) (he : e = (s.dev.reg .acc 0 ACC_DATA, s.dev.reg .acc 0 (ACC_DATA + 4), s.dev.reg .acc 0 (ACC_DATA + 8), w))
    (ht : t = selTable (s.dev.reg .acc 0 ACC_SEL)) (hi : i = selIdx (s.dev.reg .acc 0 ACC_SEL)) :
    ∃ u, exec (.accData3Commit m w) s = .next u ∧ s.dev.onlyChanges u.dev [.regs, .acc] ∧ u.dev.acc.lock = false ∧
      if selOk t i = true ∧ entryOk t e = true then
        u.dev.acc.selErr = false ∧ u.dev.acc.entry t i = entryKept t e ∧
          (∀ j, j ≠ i → u.dev.acc.entry t j = s.dev.acc.entry t j) ∧
          ∀ k j, k < 4 → k ≠ t → u.dev.acc.entry k j = s.dev.acc.entry k j
      else u.dev.acc = { s.dev.acc with selErr := true } := by
  obtain ⟨d, hd, hacc, honly⟩ : ∃ d : Dev, d = s.dev.setReg .acc 0 (ACC_DATA + 12) w ∧ d.acc = s.dev.acc ∧ s.dev.onlyChanges d [.regs, .acc] :=
    ⟨_, rfl, rfl, by simp [Dev.onlyChanges_iff]⟩
  have hexec : exec (.accData3Commit m w) s = .next ⟨d.commitEntry, s.pending⟩ := by
    show s.dev! (Dev.regWrite m .acc 0 (ACC_DATA + 12) w) = _
    rw [State.dev!_next, Dev.regWrite_accData3 h hl, hd]
  have hne {a b : Nat} (h : a ≠ b) : regAt .acc 0 a ≠ regAt .acc 0 b := fun heq => h (Nat.add_left_cancel heq)
  have hsel : d.reg .acc 0 ACC_SEL = s.dev.reg .acc 0 ACC_SEL := by rw [hd, Dev.reg_setReg_ne _ _ (hne (by decide))]
  obtain ⟨hchanged, hput⟩ := Dev.commitEntry_spec (d := d) (e := e) (t := t) (i := i) (by
    rw [he, hd, Dev.reg_setReg, Dev.reg_setReg_ne _ _ (hne (by decide)), Dev.reg_setReg_ne _ _ (hne (by decide)),
      Dev.reg_setReg_ne _ _ (hne (by decide))]) (by rw [hsel, ht]) (by rw [hsel, hi])
  rw [hacc] at hput
  refine ⟨_, hexec, Dev.onlyChanges_trans honly hchanged, ?_⟩
  dsimp only
  rw [hput]
  by_cases hok : selOk t i = true ∧ entryOk t e = true
  · rw [if_pos hok, if_pos hok]
    have hlock : (s.dev.acc.put t i (entryKept t e)).lock = s.dev.acc.lock := by
      unfold Acc.put
      split <;> rfl
    obtain ⟨hsame, hother, htables⟩ := s.dev.acc.entry_put e (show t < 4 by rw [ht]; exact Nat.mod_lt _ (by decide)) hok.1
    exact ⟨hlock.trans hl, rfl, hsame, hother, htables⟩
  · rw [if_neg hok, if_neg hok]
    exact ⟨hl, rfl⟩

/-- Settles O54: ACC_SEL loads the entry it selects, ACC_DATA3 commits it alone, and a write of 1 sets LOCK. -/
theorem accessTablesCommitOneEntry : Obligations.AccessTablesCommitOneEntry := by
  refine fun m w s => ⟨accSelWrite_spec m w s, fun e t i => accData3Commit_spec m w s e t i, fun h hl => ?_⟩
  refine ⟨⟨s.dev.lockTables, s.pending⟩, ?_, rfl, by simp [Dev.onlyChanges_iff]⟩
  show s.dev! (Dev.regWrite m .acc 0 ACC_CTL 1) = _
  rw [State.dev!_next, Dev.regWrite_lock h hl]

end Sys2Proof.Machine
end

section
/-!
PROOF of O56: fault firings become sticky bits, counts and log entries.
-/
namespace Sys2Proof.Machine
set_option Elab.async false

/-! ## Arrivals -/

theorem mem_enqueueFiring (f g : Firing) (l : List Firing) : g ∈ enqueueFiring f l ↔ g = f ∨ g ∈ l := by
  induction l with
  | nil => simp [enqueueFiring]
  | cons h l ih =>
    unfold enqueueFiring
    split
    · simp
    · simp [ih, or_left_comm]

/-- What the entry side of an arrival leaves of the collector: all but event-overflow's own sticky bit and count. -/
structure Collector.Entered (c e : Collector) : Prop where
  arrivals : e.arrivals = c.arrivals
  log : e.log = c.log
  wseq : e.wseq = c.wseq
  set : ∀ n, FMap.get (fun _ => false) c.sticky n = true → FMap.get (fun _ => false) e.sticky n = true
  sticky : ∀ n, n ≠ 1 → FMap.get (fun _ => false) e.sticky n = FMap.get (fun _ => false) c.sticky n
  count : ∀ n, n ≠ 1 → FMap.get (fun _ => 0) e.count n = FMap.get (fun _ => 0) c.count n

theorem Collector.overflowFires_entered (ts : Quad) (c : Collector) : c.Entered (c.overflowFires ts) := by
  have hset (n : Nat) (h : FMap.get (fun _ => false) c.sticky n = true) :
      FMap.get (fun _ => false) (FMap.put (fun _ => false) c.sticky 1 true) n = true := by
    rw [FMap.get_put]
    split
    · rfl
    · exact h
  have hother (n : Nat) (h : n ≠ 1) := FMap.get_put_ne (fun _ => false) c.sticky true h
  have hcount (n : Nat) (h : n ≠ 1) := FMap.get_put_ne (fun _ => 0) c.count (FMap.get (fun _ => 0) c.count 1 + 1) h
  unfold Collector.overflowFires
  dsimp only
  split
  · exact ⟨rfl, rfl, rfl, hset, hother, hcount⟩
  · exact ⟨rfl, rfl, rfl, hset, hother, hcount⟩

theorem Collector.enter_entered (cfg : SrcCfg) (f : Firing) (c : Collector) : c.Entered (c.enter cfg f) := by
  unfold Collector.enter
  dsimp only
  split
  · exact ⟨rfl, rfl, rfl, fun _ h => h, fun _ _ => rfl, fun _ _ => rfl⟩
  split
  · exact ⟨rfl, rfl, rfl, fun _ h => h, fun _ _ => rfl, fun _ _ => rfl⟩
  split
  · obtain ⟨harr, hlog, hseq, hset, hst, hc⟩ := Collector.overflowFires_entered f.ts { c with
      coal := FMap.put (fun _ => {}) c.coal f.src { FMap.get (fun _ => {}) c.coal f.src with
        suppressed := (FMap.get (fun _ => {}) c.coal f.src).suppressed + 1, last := some f } }
    exact ⟨harr, hlog, hseq, hset, hst, hc⟩
  · exact ⟨rfl, rfl, rfl, fun _ h => h, fun _ _ => rfl, fun _ _ => rfl⟩

theorem Collector.enter_severe {cfg : SrcCfg} {f : Firing} {c : Collector} (h : 2 ≤ srcSev f.src) :
    f ∈ (c.enter cfg f).queue := by
  unfold Collector.enter
  rw [if_pos h]
  exact (mem_enqueueFiring f f _).mpr (.inl rfl)

theorem faultArrival_spec (f : Firing) (rest : List Firing) (s : State) (hc : s.dev.collects = true) (hf : s.dev.flt.arrivals = f :: rest) :
    ∃ u, exec .faultArrival s = .next u ∧ s.dev.onlyChanges u.dev [.flt] ∧ u.dev.flt.arrivals = rest ∧
      FMap.get (fun _ => false) u.dev.flt.sticky f.src = true ∧
      (f.src ≠ 1 → FMap.get (fun _ => 0) u.dev.flt.count f.src = FMap.get (fun _ => 0) s.dev.flt.count f.src + 1) ∧
      (∀ n, n ≠ f.src → n ≠ 1 →
        FMap.get (fun _ => false) u.dev.flt.sticky n = FMap.get (fun _ => false) s.dev.flt.sticky n) ∧
      ((s.dev.srcCfg f.src).react = 0 → u.dev.flt.queue = s.dev.flt.queue) ∧
      ((s.dev.srcCfg f.src).react ≠ 0 → 2 ≤ srcSev f.src → { f with ts := s.dev.time } ∈ u.dev.flt.queue) ∧
      u.dev.flt.log = s.dev.flt.log ∧ u.dev.flt.wseq = s.dev.flt.wseq := by
  have hput := FMap.get_put_same (fun _ => false) s.dev.flt.sticky f.src true
  have hputNe (n : Nat) (h : n ≠ f.src) := FMap.get_put_ne (fun _ => false) s.dev.flt.sticky true h
  have hnum := FMap.get_put_same (fun _ => 0) s.dev.flt.count f.src (FMap.get (fun _ => 0) s.dev.flt.count f.src + 1)
  obtain ⟨c, hcc, harr, hset, hcount, hother, hq, hlog, hseq⟩ : ∃ c : Collector, c = { s.dev.flt with
        arrivals := rest,
        sticky := FMap.put (fun _ => false) s.dev.flt.sticky f.src true,
        count := FMap.put (fun _ => 0) s.dev.flt.count f.src (FMap.get (fun _ => 0) s.dev.flt.count f.src + 1) } ∧
      c.arrivals = rest ∧ FMap.get (fun _ => false) c.sticky f.src = true ∧
      FMap.get (fun _ => 0) c.count f.src = FMap.get (fun _ => 0) s.dev.flt.count f.src + 1 ∧
      (∀ n, n ≠ f.src → FMap.get (fun _ => false) c.sticky n = FMap.get (fun _ => false) s.dev.flt.sticky n) ∧
      c.queue = s.dev.flt.queue ∧ c.log = s.dev.flt.log ∧ c.wseq = s.dev.flt.wseq :=
    ⟨_, rfl, rfl, hput, hnum, hputNe, rfl, rfl, rfl⟩
  have hexec : exec .faultArrival s = .next ⟨{ s.dev with
      flt := if (s.dev.srcCfg f.src).react = 0 then c else c.enter (s.dev.srcCfg f.src) { f with ts := s.dev.time } }, s.pending⟩ := by
    show execFaultArrival s = _
    rw [execFaultArrival, State.dev!_next, hc, Dev.when_true]
    unfold Sys2Proof.Machine.faultArrival
    rw [hf, hcc]
  refine ⟨_, hexec, by simp [Dev.onlyChanges_iff], ?_⟩
  dsimp only
  by_cases hr : (s.dev.srcCfg f.src).react = 0
  · rw [if_pos hr]
    exact ⟨harr, hset, fun _ => hcount, fun n hn _ => hother n hn, fun _ => hq, fun h => absurd hr h, hlog, hseq⟩
  · rw [if_neg hr]
    have he := c.enter_entered (s.dev.srcCfg f.src) { f with ts := s.dev.time }
    exact ⟨he.arrivals.trans harr, he.set _ hset, fun h1 => (he.count _ h1).trans hcount,
      fun n hn h1 => (he.sticky n h1).trans (hother n hn), fun h => absurd h hr, fun _ hs => Collector.enter_severe hs,
      he.log.trans hlog, he.wseq.trans hseq⟩

/-! ## Log entries -/

/-- The collector but for the firings under way is as it was. -/
def Dev.LogKept (d e : Dev) : Prop := ∃ l, e.flt = { d.flt with arrivals := l }

theorem Dev.LogKept.of_flt {d e : Dev} (h : e.flt = d.flt) : d.LogKept e := ⟨d.flt.arrivals, h⟩

theorem Dev.LogKept.refl (d : Dev) : d.LogKept d := .of_flt rfl

theorem Dev.LogKept.trans {a b c : Dev} (h : a.LogKept b) (h' : b.LogKept c) : a.LogKept c := by
  obtain ⟨l, hl⟩ := h
  obtain ⟨k, hk⟩ := h'
  exact ⟨k, by rw [hk, hl]⟩

theorem Dev.LogKept.of_fire {d e : Dev} {src inst : Nat} {x : BitVec 128} (h : d.LogKept e) : d.LogKept (e.fire src inst x) :=
  h.trans ⟨_, rfl⟩

theorem Dev.LogKept.ite {c : Prop} [Decidable c] {d a b : Dev} (ha : d.LogKept a) (hb : d.LogKept b) : d.LogKept (if c then a else b) := by
  split
  · exact ha
  · exact hb

theorem Dev.foldl_logKept {β : Type} {step : Dev → β → Dev} (h : ∀ (d : Dev) b, d.LogKept (step d b)) (l : List β) (d : Dev) :
    d.LogKept (l.foldl step d) := by
  induction l generalizing d with
  | nil => exact .refl d
  | cons b l ih => exact (h d b).trans (ih _)

theorem Dev.noteRead_logKept (mid : Nat) (write : Bool) (a len : Nat) (d : Dev) : d.LogKept (d.noteRead mid write a len) := by
  have hatom (e : Dev) (t : Nat) : e.LogKept (e.readAtom mid t) := by
    unfold Dev.readAtom
    refine .ite ?_ ?_
    · unfold Dev.uncorrectable
      exact .of_fire (.of_flt (show (e.markBad t).flt = e.flt by simp))
    · unfold Dev.rebuilt
      dsimp only
      refine .ite (.refl e) (.trans (.of_flt ?_) (Dev.foldl_logKept (fun x p => ?_) _ { e with mct := { e.mct with corrected := e.mct.corrected + 1 } }))
      · rfl
      · unfold Dev.rebuiltByte
        exact .of_fire (.of_flt rfl)
  have hgroup (e : Dev) (t : Nat) : e.LogKept (e.groupAtFails t) := by
    unfold Dev.groupAtFails Dev.groupFails
    dsimp only
    have hdue (x : Dev) (mac row : Nat) : x.LogKept (x.sparingDue mac row) := .of_flt (by simp)
    refine .trans ?_ (hdue ..)
    exact .of_fire (.of_flt rfl)
  unfold Dev.noteRead
  split
  · exact Dev.foldl_logKept hatom _ d
  · exact Dev.foldl_logKept hgroup _ d
  · exact .refl d
  · exact .refl d

theorem Dev.masterWrite_logKept (mid a : Nat) (ws : List Word) (d : Dev) : d.LogKept (d.masterWrite mid a ws) := by
  unfold Dev.masterWrite
  split
  · exact .trans (d.noteRead_logKept mid true a (4 * ws.length)) (.of_flt (by simp))
  · unfold Dev.deny
    exact .of_fire (.of_flt rfl)
  · exact d.noteRead_logKept ..

theorem Dev.notice_logKept (f : Nat) (n : Notice) (d : Dev) : d.LogKept (d.notice f n) := by
  have hset (e : Dev) (x : NRing) : e.LogKept (e.setRing f x) := .of_flt rfl
  have hpost : d.LogKept (d.post f n) := by
    unfold Dev.post
    dsimp only
    refine .ite (hset ..) (.ite ?_ ?_)
    · exact .trans (d.masterWrite_logKept ..) (.of_fire (hset ..))
    · exact .trans (d.masterWrite_logKept ..) (hset ..)
  unfold Dev.notice Dev.noticeThen
  dsimp only
  exact .ite (hpost.trans (.of_flt (by simp))) hpost

/-- A log entry takes the next sequence number and its slot. -/
theorem writeEntry_spec (f : Firing) (d : Dev) : ∃ l, (writeEntry f d).flt = { d.flt with
    arrivals := l, log := FMap.put (fun _ => none) d.flt.log (d.flt.wseq.toNat % 4096) (some (d.flt.wseq, f)), wseq := d.flt.wseq + 1 } := by
  unfold writeEntry
  dsimp only
  obtain ⟨e, he, hflt⟩ : ∃ e : Dev, e = { d with
      flt := { d.flt with log := FMap.put (fun _ => none) d.flt.log (d.flt.wseq.toNat % 4096) (some (d.flt.wseq, f)), wseq := d.flt.wseq + 1 },
      cru := { d.cru with badGroups := d.cru.badGroups.filter fun k => k / 4 ≠ 0x540000 / 32 + d.flt.wseq.toNat % 4096 } } ∧
      e.flt = { d.flt with log := FMap.put (fun _ => none) d.flt.log (d.flt.wseq.toNat % 4096) (some (d.flt.wseq, f)), wseq := d.flt.wseq + 1 } :=
    ⟨_, rfl, rfl⟩
  rw [← he]
  split
  · obtain ⟨l, hl⟩ := e.notice_logKept 0 (faultNotice d.flt.wseq f)
    exact ⟨l, by rw [hl, hflt]⟩
  · exact ⟨d.flt.arrivals, hflt⟩

theorem logEntryWrite_spec (f : Firing) (rest : List Firing) (s : State) (hc : s.dev.collects = true) (hf : s.dev.flt.queue = f :: rest) :
    ∃ u, exec .logEntryWrite s = .next u ∧ u.dev.flt.wseq = s.dev.flt.wseq + 1 ∧
      (∀ k, FMap.get (fun _ => none) u.dev.flt.log k = if k = s.dev.flt.wseq.toNat % 4096 then some (s.dev.flt.wseq, f)
        else FMap.get (fun _ => none) s.dev.flt.log k) ∧
      (s.dev.flt.overflow = none → u.dev.flt.queue = rest) ∧ u.dev.flt.sticky = s.dev.flt.sticky := by
  obtain ⟨c, hcc, hwseq, hlog, hqueue, hsticky⟩ : ∃ c : Collector, c = ({ s.dev.flt with queue := rest } : Collector).takeOverflow ∧
      c.wseq = s.dev.flt.wseq ∧ c.log = s.dev.flt.log ∧ (s.dev.flt.overflow = none → c.queue = rest) ∧ c.sticky = s.dev.flt.sticky := by
    refine ⟨_, rfl, ?_⟩
    unfold Collector.takeOverflow
    split
    · next ho =>
      have hno (h : s.dev.flt.overflow = none) : False := absurd (h.symm.trans ho) nofun
      split
      · exact ⟨rfl, rfl, fun h => (hno h).elim, rfl⟩
      · exact ⟨rfl, rfl, fun h => (hno h).elim, rfl⟩
    · exact ⟨rfl, rfl, fun _ => rfl, rfl⟩
  have hexec : exec .logEntryWrite s = .next ⟨writeEntry f { s.dev with flt := c }, s.pending⟩ := by
    show execLogEntryWrite s = _
    rw [execLogEntryWrite, State.dev!_next, hc, Dev.when_true]
    unfold Sys2Proof.Machine.logEntryWrite
    rw [hf, hcc]
  obtain ⟨l, hl⟩ := writeEntry_spec f { s.dev with flt := c }
  refine ⟨_, hexec, ?_⟩
  dsimp only at hl ⊢
  have hput (k : Nat) := FMap.get_put (fun _ => none) s.dev.flt.log (s.dev.flt.wseq.toNat % 4096) k (some (s.dev.flt.wseq, f))
  rw [hl, hwseq, hlog]
  exact ⟨rfl, hput, hqueue, hsticky⟩

/-! ## The end of a window -/

theorem mem_foldl_enqueueFiring (g : Firing) (l q : List Firing) : g ∈ l.foldl (fun q f => enqueueFiring f q) q ↔ g ∈ l ∨ g ∈ q := by
  induction l generalizing q with
  | nil => simp
  | cons f l ih =>
    rw [List.foldl_cons, ih, mem_enqueueFiring, List.mem_cons]
    tauto

/-- A source that suppressed firings in the window has a summary. -/
theorem summary_of_suppressed (ts : Quad) (src : Nat) {k : Coal} (hs : k.suppressed ≠ 0) (hl : k.last ≠ none) :
    ∃ g, summary ts src k = some g ∧ g.src = src ∧ g.coal = true := by
  obtain ⟨f, hf⟩ := Option.ne_none_iff_exists'.mp hl
  unfold summary
  rw [if_neg hs, hf]
  exact ⟨_, rfl, rfl, rfl⟩

theorem coalWindowEnd_spec (s : State) (hc : s.dev.collects = true) (hw : s.dev.flt.window < s.dev.time.toNat / 1000000) :
    ∃ u, exec .coalWindowEnd s = .next u ∧ s.dev.onlyChanges u.dev [.flt] ∧
      u.dev.flt.window = s.dev.time.toNat / 1000000 ∧ u.dev.flt.coal = [] ∧ u.dev.flt.log = s.dev.flt.log ∧
      u.dev.flt.sticky = s.dev.flt.sticky ∧
      (∀ e ∈ s.dev.flt.coal, e.2.suppressed ≠ 0 → e.2.last ≠ none →
        ∃ g ∈ u.dev.flt.queue, g.src = e.1 ∧ g.coal = true) ∧
      ∀ g ∈ s.dev.flt.queue, g ∈ u.dev.flt.queue := by
  have hexec : exec .coalWindowEnd s = .next ⟨Sys2Proof.Machine.coalWindowEnd s.dev, s.pending⟩ := by
    show execCoalWindowEnd s = _
    rw [execCoalWindowEnd, State.dev!_next, show (s.dev.collects && decide (s.dev.flt.window < s.dev.time.toNat / 1000000)) = true by
      rw [hc, decide_eq_true hw]; rfl, Dev.when_true]
  refine ⟨_, hexec, by simp [Dev.onlyChanges_iff, Sys2Proof.Machine.coalWindowEnd], rfl, rfl, rfl, rfl, fun e he hs hl => ?_,
    fun g hg => (mem_foldl_enqueueFiring g _ _).mpr (.inr hg)⟩
  obtain ⟨g, hg, hsrc⟩ := summary_of_suppressed (BitVec.ofNat 64 (1000000 * (s.dev.flt.window + 1))) e.1 hs hl
  exact ⟨g, (mem_foldl_enqueueFiring g _ _).mpr (.inl (List.mem_filterMap.mpr ⟨e, he, hg⟩)), hsrc⟩

/-! ## Sticky bits cleared, and reads of the log -/

/-- A map without the keys that a test drops reads as the default at those and as before at others. -/
theorem FMap.get_filter_key {α : Type} (d : Nat → α) (p : Nat → Bool) (m : FMap α) (k : Nat) :
    FMap.get d (m.filter fun e => p e.1) k = if p k then FMap.get d m k else d k := by
  unfold FMap.get
  by_cases hp : p k = true
  · rw [if_pos hp, List.find?_filter, show (fun e : Nat × α => decide (p e.1 = true ∧ (e.1 == k) = true)) = fun e => e.1 == k by
      funext e
      by_cases he : e.1 = k
      · simp [he, hp]
      · simp [he]]
  · have hnone : (m.filter fun e => p e.1).find? (fun e => e.1 == k) = none := List.find?_eq_none.mpr fun e he hk =>
      hp ((show e.1 = k from eq_of_beq hk) ▸ (List.mem_filter.mp he).2)
    rw [if_neg hp, hnone]

theorem stickyClear_spec (m : Fn) (k : Fin 32) (w : Word) (s : State) (h : s.dev.mayWriteReg m .flt 0 (FLT_STICKY + 4 * k)) :
    ∃ u, exec (.stickyClear m k w) s = .next u ∧ s.dev.onlyChanges u.dev [.flt] ∧
      (∀ n, FMap.get (fun _ => false) u.dev.flt.sticky n = (FMap.get (fun _ => false) s.dev.flt.sticky n &&
        !(n / 32 = k && bit w (n % 32) && !s.dev.liveCause n))) ∧
      u.dev.flt.count = s.dev.flt.count ∧ u.dev.flt.log = s.dev.flt.log := by
  have hexec : exec (.stickyClear m k w) s = .next ⟨s.dev.clearSticky k w, s.pending⟩ := by
    show s.dev! (Dev.regWrite m .flt 0 (FLT_STICKY + 4 * k) w) = _
    rw [State.dev!_next, Dev.regWrite_sticky h]
  refine ⟨_, hexec, by simp [Dev.onlyChanges_iff], fun n => ?_, rfl, rfl⟩
  have hget := FMap.get_filter_key (fun _ => false) (fun n => !(n / 32 = k && bit w (n % 32) && !s.dev.liveCause n)) s.dev.flt.sticky n
  refine hget.trans ?_
  cases (!(decide (n / 32 = k) && bit w (n % 32) && !s.dev.liveCause n))
  · rw [Bool.and_false]
    rfl
  · rw [Bool.and_true]
    rfl

theorem logRdSeq_spec (m : Fn) (q : Word) (s : State) (h : s.dev.mayWriteReg m .log 0 LOG_RD_SEQ) :
    ∃ u, exec (.logRdSeq m q) s = .next u ∧ s.dev.onlyChanges u.dev [.regs, .flt] ∧ u.dev.flt.rdDone = true ∧
      u.dev.flt.rdMid = m.val ∧ u.dev.flt.log = s.dev.flt.log ∧
      u.dev.flt.rdWords = logWords srcSev (FMap.get (fun _ => none) s.dev.flt.log (q.toNat % 4096)) ∧
      (u.dev.flt.rdMatch = true ↔ ∃ f, FMap.get (fun _ => none) s.dev.flt.log (q.toNat % 4096) = some (q, f)) := by
  have hexec : exec (.logRdSeq m q) s = .next ⟨(s.dev.setReg .log 0 LOG_RD_SEQ q).readLog m q, s.pending⟩ := by
    show s.dev! (Dev.regWrite m .log 0 LOG_RD_SEQ q) = _
    rw [State.dev!_next, Dev.regWrite_logRead h]
  refine ⟨_, hexec, by simp [Dev.onlyChanges_iff], rfl, rfl, rfl, rfl, ?_⟩
  have hread (d : Dev) : (d.readLog m q).flt.rdMatch = true ↔ ∃ f, FMap.get (fun _ => none) d.flt.log (q.toNat % 4096) = some (q, f) := by
    unfold Dev.readLog
    dsimp only
    split
    · next n f hf => simp [hf]
    · next hf => simp [hf]
  exact hread _

/-- Settles O56: an arrival, a log entry, the end of a window, a cleared sticky bit, and a read of the log. -/
theorem faultsBecomeLogEntries : Obligations.FaultsBecomeLogEntries :=
  ⟨faultArrival_spec, logEntryWrite_spec, coalWindowEnd_spec, stickyClear_spec, logRdSeq_spec⟩

end Sys2Proof.Machine
end

section
/-!
PROOF of O57: Faruo ticks, is watched, and answers its mailbox commands.
-/
namespace Sys2Proof.Machine
set_option Elab.async false

/-! ## The tick -/

/-- The mailbox, the mode and the watchdog's times of Faruo, the time, and the mailbox's arguments are as they were. -/
structure Dev.CoreKept (d e : Dev) : Prop where
  now : e.now = d.now
  tb : e.tb = d.tb
  mode : e.svc.mode = d.svc.mode
  lastKick : e.svc.lastKick = d.svc.lastKick
  trial : e.svc.trial = d.svc.trial
  mb : e.svc.mb = d.svc.mb
  op : e.svc.op = d.svc.op
  taken : e.svc.taken = d.svc.taken
  result : e.svc.result = d.svc.result
  args : e.svc.args = d.svc.args
  arg : ∀ m, m < 4 → e.reg .svc 0 (SVC_MB_ARG + 4 * m) = d.reg .svc 0 (SVC_MB_ARG + 4 * m)

theorem Dev.CoreKept.refl (d : Dev) : d.CoreKept d := ⟨rfl, rfl, rfl, rfl, rfl, rfl, rfl, rfl, rfl, rfl, fun _ _ => rfl⟩

theorem Dev.CoreKept.trans {a b c : Dev} (h : a.CoreKept b) (h' : b.CoreKept c) : a.CoreKept c :=
  ⟨h'.now.trans h.now, h'.tb.trans h.tb, h'.mode.trans h.mode, h'.lastKick.trans h.lastKick, h'.trial.trans h.trial, h'.mb.trans h.mb,
    h'.op.trans h.op, h'.taken.trans h.taken, h'.result.trans h.result, h'.args.trans h.args, fun m hm => (h'.arg m hm).trans (h.arg m hm)⟩

theorem Dev.CoreKept.of_parts {d e : Dev} (hn : e.now = d.now) (ht : e.tb = d.tb) (hs : e.svc = d.svc) (hr : e.regs = d.regs) : d.CoreKept e :=
  ⟨hn, ht, by rw [hs], by rw [hs], by rw [hs], by rw [hs], by rw [hs], by rw [hs], by rw [hs], by rw [hs], fun _ _ => Dev.reg_congr hr ..⟩

theorem Dev.CoreKept.ite {c : Prop} [Decidable c] {d a b : Dev} (ha : d.CoreKept a) (hb : d.CoreKept b) : d.CoreKept (if c then a else b) := by
  split
  · exact ha
  · exact hb

theorem Dev.foldl_coreKept {β : Type} {step : Dev → β → Dev} (h : ∀ (d : Dev) b, d.CoreKept (step d b)) (l : List β) (d : Dev) :
    d.CoreKept (l.foldl step d) := by
  induction l generalizing d with
  | nil => exact .refl d
  | cons b l ih => exact (h d b).trans (ih _)

theorem Dev.fire_coreKept (src inst : Nat) (x : BitVec 128) (d : Dev) : d.CoreKept (d.fire src inst x) := .of_parts rfl rfl rfl rfl

theorem Dev.watchFallback_coreKept {k : Dev → Dev} {d : Dev} (h : d.CoreKept (k d)) : d.CoreKept (d.watchFallback k) := by
  unfold Dev.watchFallback
  exact .ite (h.trans (Dev.fire_coreKept ..)) h

theorem Dev.sample_coreKept (temps : List Int) (rails : List Nat) (d : Dev) : d.CoreKept (d.sample temps rails) := by
  unfold Dev.sample
  dsimp only
  refine .trans (.trans (.trans ?_ (Dev.foldl_coreKept (fun e i => Dev.fire_coreKept ..) _ _)) (Dev.foldl_coreKept (fun e i => Dev.fire_coreKept ..) _ _))
    (Dev.foldl_coreKept (fun e i => Dev.fire_coreKept ..) _ _)
  exact ⟨rfl, rfl, rfl, rfl, rfl, rfl, rfl, rfl, rfl, rfl, fun _ _ => rfl⟩

theorem Dev.rewriteFr_coreKept (d : Dev) : d.CoreKept d.rewriteFr := by
  have hset (e : Dev) (w : Word) : e.CoreKept (e.setReg .ldg 0 LDG_DERATE w) := by
    refine ⟨rfl, rfl, rfl, rfl, rfl, rfl, rfl, rfl, rfl, rfl, fun m hm => Dev.reg_setReg_ne _ _ ?_⟩
    simp [regAt, PType.page, SVC_MB_ARG, LDG_DERATE]
    omega
  have hask (e : Dev) : e.CoreKept (askReeval 4 e) := .of_parts (by simp) (by simp) (by simp) (by simp)
  have href : d.CoreKept d.rewriteRef := by
    unfold Dev.rewriteRef
    exact .ite (.refl d) ⟨rfl, rfl, rfl, rfl, rfl, rfl, rfl, rfl, rfl, rfl, fun _ _ => rfl⟩
  unfold Dev.rewriteFr
  dsimp only
  refine .ite (.refl d) ?_
  obtain ⟨e, he, hkept⟩ : ∃ e : Dev, e = (if d.svc.frFor.2 = d.clk.cclk then d else d.rewriteRef) ∧ d.CoreKept e := ⟨_, rfl, .ite (.refl d) href⟩
  rw [← he]
  obtain ⟨f, hf, hkept'⟩ : ∃ f : Dev, f = { e with svc := { e.svc with frFor := (d.fld .mct 0 MCT_REF 25 16, d.clk.cclk) } } ∧ e.CoreKept f :=
    ⟨_, rfl, rfl, rfl, rfl, rfl, rfl, rfl, rfl, rfl, rfl, rfl, fun _ _ => rfl⟩
  rw [← hf]
  exact (hkept.trans hkept').trans (.ite (.refl f) ((hset f _).trans (hask _)))

theorem Dev.program_coreKept (b : Bool) (d : Dev) : d.CoreKept (d.program b) := by
  have hslot (e : Dev) (k : Nat) (x : Slot) : e.CoreKept (e.setSlot k x) := ⟨rfl, rfl, rfl, rfl, rfl, rfl, rfl, rfl, rfl, rfl, fun _ _ => rfl⟩
  have hstage (e : Dev) (x : Stage) : e.CoreKept { e with svc := { e.svc with stage := x } } :=
    ⟨rfl, rfl, rfl, rfl, rfl, rfl, rfl, rfl, rfl, rfl, fun _ _ => rfl⟩
  unfold Dev.program
  dsimp only
  split
  · exact .refl d
  · refine .ite (.refl d) ?_
    obtain ⟨e, he, hkept⟩ : ∃ e, e = d.setSlot d.otherSlot { d.slot d.otherSlot with image := none } ∧ d.CoreKept e := ⟨_, rfl, hslot ..⟩
    rw [← he]
    have hend (x : Stage) := hkept.trans (hstage e x)
    exact .ite (hend _) (.ite ((hend _).trans (Dev.watchFallback_coreKept (hslot ..))) (hend _))

theorem Dev.exportAll_coreKept (n : Nat) (d : Dev) : d.CoreKept (d.exportAll n) := by
  induction n generalizing d with
  | zero => exact .refl d
  | succ n ih =>
    have hone : d.CoreKept d.exportOne := by
      unfold Dev.exportOne
      dsimp only
      have hstore (e : Dev) (k : Nat) (bs : List Byte) : e.CoreKept (e.store k bs) := .of_parts (by simp) (by simp) (by simp) (by simp)
      have hsent (e : Dev) (n l : BitVec 32) : e.CoreKept (e.exported n l) := ⟨rfl, rfl, rfl, rfl, rfl, rfl, rfl, rfl, rfl, rfl, fun _ _ => rfl⟩
      exact (hstore d _ _).trans (hsent _ _ _)
    unfold Dev.exportAll
    exact .ite (.refl d) (hone.trans (ih _))

/-- Tier 0 kicks the watchdog, and ends a restart and a trial. -/
theorem Dev.tier0_spec (i : TickInput) (d : Dev) : ({ d with svc := { d.svc with
    lastKick := d.now, trial := none, mode := if d.svc.mode = .restarting then .normal else d.svc.mode } } : Dev).CoreKept (d.tier0 i) := by
  have hgrant (e : Dev) : e.CoreKept (((e.rebuildGrant).scrubGrant).laneGrants) := .of_parts (by simp) (by simp) (by simp) (by simp)
  unfold Dev.tier0
  dsimp only
  exact ((Dev.sample_coreKept ..).trans (hgrant _)).trans (Dev.rewriteFr_coreKept _)

/-- Tier 1 takes up or answers the command that waits, and leaves the mode and the watchdog's times. -/
theorem Dev.tier1_spec (us : Nat) (d : Dev) : (d.tier1 us).svc.lastKick = d.svc.lastKick ∧ (d.tier1 us).svc.trial = d.svc.trial ∧
    (d.tier1 us).svc.mode = d.svc.mode ∧ (d.tier1 us).tb = d.tb ∧
    (d.svc.mb = 1 → d.svc.taken = false → (d.tier1 us).svc.op = d.svc.op ∧
      if 700 < us then (d.tier1 us).svc.mb = 2 ∧ (d.tier1 us).svc.result = 1
      else if d.svc.op = 0 ∨ 7 < d.svc.op then (d.tier1 us).svc.mb = 2 ∧ (d.tier1 us).svc.result = 2
      else (d.tier1 us).svc.mb = 1 ∧ (d.tier1 us).svc.taken = true ∧
        (d.tier1 us).svc.args = (List.range 4).map fun m => d.reg .svc 0 (SVC_MB_ARG + 4 * m)) := by
  unfold Dev.tier1
  dsimp only
  split
  · next h => exact ⟨rfl, rfl, rfl, rfl, fun hm ht => absurd h (by simp [hm, ht])⟩
  split
  · exact ⟨rfl, rfl, rfl, rfl, fun _ _ => ⟨rfl, rfl, rfl⟩⟩
  split
  · exact ⟨rfl, rfl, rfl, rfl, fun _ _ => ⟨rfl, rfl, rfl⟩⟩
  · exact ⟨rfl, rfl, rfl, rfl, fun hm _ => ⟨rfl, hm, rfl, rfl⟩⟩

theorem faruoTick_spec (i : TickInput) (s : State) (hc : s.dev.collects = true) (ht : s.dev.svc.tickNo < s.dev.time.toNat / 1000000) :
    ∃ u, exec (.faruoTick i) s = .next u ∧ u.dev.svc.lastKick = s.dev.now ∧ u.dev.svc.trial = none ∧
      u.dev.svc.mode = (if s.dev.svc.mode = .restarting then .normal else s.dev.svc.mode) ∧
      u.dev.svc.tickNo = s.dev.time.toNat / 1000000 + (ceilDiv i.tier0Us 1000 - 1) ∧
      (s.dev.svc.mb = 1 → s.dev.svc.taken = false → u.dev.svc.op = s.dev.svc.op ∧
        if 700 < i.tier0Us then u.dev.svc.mb = 2 ∧ u.dev.svc.result = 1
        else if s.dev.svc.op = 0 ∨ 7 < s.dev.svc.op then u.dev.svc.mb = 2 ∧ u.dev.svc.result = 2
        else u.dev.svc.mb = 1 ∧ u.dev.svc.taken = true ∧
          u.dev.svc.args = (List.range 4).map fun m => s.dev.reg .svc 0 (SVC_MB_ARG + 4 * m)) := by
  have hexec : exec (.faruoTick i) s = .next ⟨s.dev.faruoTick i, s.pending⟩ := by
    show execFaruoTick i s = _
    rw [execFaruoTick, State.dev!_next, hc, decide_eq_true ht, Bool.and_true, Dev.when_true]
  refine ⟨_, hexec, ?_⟩
  dsimp only
  obtain ⟨a, ha, h0⟩ : ∃ a, a = s.dev.tier0 i ∧ Dev.CoreKept { s.dev with svc := { s.dev.svc with
      lastKick := s.dev.now, trial := none, mode := if s.dev.svc.mode = .restarting then .normal else s.dev.svc.mode } } a :=
    ⟨_, rfl, s.dev.tier0_spec i⟩
  have htier1 := a.tier1_spec i.tier0Us
  obtain ⟨b, hb⟩ : ∃ b, b = a.tier1 i.tier0Us := ⟨_, rfl⟩
  rw [← hb] at htier1
  obtain ⟨hkick, htrial, hmode, htb, hcmd⟩ := htier1
  obtain ⟨c, hcc, hkept⟩ : ∃ c, c = (if decide (i.tier0Us + i.tier1Us < 800) && !(b.svc.taken && b.svc.op = 5 && b.svc.stage.verified) then
      (b.program i.flashError).exportAll i.exports else b) ∧ b.CoreKept c :=
    ⟨_, rfl, .ite ((b.program_coreKept _).trans (Dev.exportAll_coreKept ..)) (.refl b)⟩
  have htick : s.dev.faruoTick i = { c with svc := { c.svc with
      tickNo := c.time.toNat / 1000000 + (ceilDiv i.tier0Us 1000 - 1), load := min 255 ((i.tier0Us + i.tier1Us + i.tier2Us) / 10),
      peak := max c.svc.peak (min 255 ((i.tier0Us + i.tier1Us + i.tier2Us) / 10)),
      overruns := if 1000 < i.tier0Us then c.svc.overruns + 1 else c.svc.overruns } } := by
    rw [hcc, hb, ha]
    rfl
  rw [htick]
  have htime : c.time = s.dev.time := congrArg Timebase.count (hkept.tb.trans (htb.trans h0.tb))
  refine ⟨hkept.lastKick.trans (hkick.trans h0.lastKick), hkept.trial.trans (htrial.trans h0.trial), hkept.mode.trans (hmode.trans h0.mode),
    by rw [← htime], fun hm hta => ?_⟩
  obtain ⟨hop, hcmd⟩ := hcmd (h0.mb.trans hm) (h0.taken.trans hta)
  refine ⟨hkept.op.trans (hop.trans h0.op), ?_⟩
  show if 700 < i.tier0Us then c.svc.mb = 2 ∧ c.svc.result = 1 else if s.dev.svc.op = 0 ∨ 7 < s.dev.svc.op then c.svc.mb = 2 ∧ c.svc.result = 2
    else c.svc.mb = 1 ∧ c.svc.taken = true ∧ c.svc.args = _
  have hargs : ((List.range 4).map fun m => a.reg .svc 0 (SVC_MB_ARG + 4 * m)) = (List.range 4).map fun m => s.dev.reg .svc 0 (SVC_MB_ARG + 4 * m) :=
    List.map_congr_left fun m hm => h0.arg m (List.mem_range.mp hm)
  rw [hkept.mb, hkept.result, hkept.taken, hkept.args, ← hargs]
  rw [show a.svc.op = s.dev.svc.op from h0.op] at hcmd
  exact hcmd

/-! ## The watchdogs -/

/-- A restart of the core answers a command in hand, and stops the scrub. -/
theorem Dev.restartCore_spec (d : Dev) : d.restartCore.svc.mode = .restarting ∧ d.restartCore.svc.lastKick = d.now ∧
    d.restartCore.cru.scrubGrant = 0 ∧ d.restartCore.svc.slot = d.svc.slot ∧ d.restartCore.svc.fellBack = d.svc.fellBack ∧
    d.restartCore.svc.stage = d.svc.stage ∧ d.restartCore.svc.trial = d.svc.trial ∧ d.restartCore.svc.restarts = d.svc.restarts ∧
    d.restartCore.svc.slots = d.svc.slots ∧ d.restartCore.flt = d.flt ∧
    (d.svc.mb = 1 → d.svc.mode ≠ .restarting → d.restartCore.svc.mb = 2 ∧ d.restartCore.svc.result = 6) ∧
    (d.svc.mb ≠ 1 → d.restartCore.svc.mb = d.svc.mb ∧ d.restartCore.svc.result = d.svc.result) := by
  unfold Dev.restartCore
  dsimp only
  split
  · next h => exact ⟨rfl, rfl, rfl, rfl, rfl, rfl, rfl, rfl, rfl, rfl, fun _ _ => ⟨rfl, rfl⟩, fun hm => absurd h.1 hm⟩
  · next h => exact ⟨rfl, rfl, rfl, rfl, rfl, rfl, rfl, rfl, rfl, rfl, fun hm hr => absurd ⟨hm, hr⟩ h, fun _ => ⟨rfl, rfl⟩⟩

/-- Firmware-fallback, where it fires, changes the collector alone. -/
theorem Dev.watchFallback_spec (k : Dev → Dev) (d : Dev) : (k d).onlyChanges (d.watchFallback k) [.flt] ∧
    (k d).KeepsFirings (d.watchFallback k) := by
  unfold Dev.watchFallback
  dsimp only
  split
  · exact ⟨by simp [Dev.onlyChanges_iff], .of_fire rfl⟩
  · exact ⟨fun _ _ => Dev.onlyChanges_refl _ [] _ List.not_mem_nil, .refl _⟩

theorem Dev.svc_watchFallback (k : Dev → Dev) (d : Dev) : (d.watchFallback k).svc = (k d).svc :=
  (show (k d).svc = (d.watchFallback k).svc from (d.watchFallback_spec k).1 .svc (by decide)).symm

theorem serviceWatchdog_spec (s : State) (hc : s.dev.collects = true) (hm : s.dev.svc.mode = .normal)
    (ht : s.dev.svc.lastKick + 1000000 * s.dev.fld .svc 0 SVC_WD 6 0 ≤ s.dev.now) :
    ∃ u, exec .serviceWatchdog s = .next u ∧ u.dev.svc.mode = .restarting ∧ u.dev.svc.restarts = s.dev.svc.restarts + 1 ∧
      u.dev.svc.lastKick = s.dev.now ∧ u.dev.cru.scrubGrant = 0 ∧ (∃ f ∈ u.dev.flt.arrivals, f.src = 128) ∧
      (s.dev.svc.mb = 1 → u.dev.svc.mb = 2 ∧ u.dev.svc.result = 6) ∧
      if 2 ≤ (s.dev.svc.restartTimes.filter fun t => s.dev.now < t + 10000000000).length ∧
          (s.dev.slot (1 - s.dev.svc.slot)).image.isSome = true then
        u.dev.svc.slot = 1 - s.dev.svc.slot ∧ u.dev.svc.fellBack = true ∧ u.dev.svc.stage = {}
      else u.dev.svc.slot = s.dev.svc.slot ∧ u.dev.svc.fellBack = s.dev.svc.fellBack ∧ u.dev.svc.stage = s.dev.svc.stage := by
  have hexec : exec .serviceWatchdog s = .next ⟨s.dev.watchdogRestart, s.pending⟩ := by
    show execServiceWatchdog s = _
    rw [execServiceWatchdog, State.dev!_next, show (s.dev.collects && decide (s.dev.svc.mode = .normal) &&
      decide (s.dev.svc.lastKick + 1000000 * s.dev.fld .svc 0 SVC_WD 6 0 ≤ s.dev.now)) = true by simp [hc, hm, ht], Dev.when_true]
  refine ⟨_, hexec, ?_⟩
  dsimp only
  obtain ⟨b, hb⟩ : ∃ b, b = (decide (3 ≤ ((s.dev.svc.restartTimes.filter fun t => decide (s.dev.now < t + 10000000000)) ++ [s.dev.now]).length) &&
      (s.dev.slot s.dev.otherSlot).image.isSome) := ⟨_, rfl⟩
  have hswap : (2 ≤ (s.dev.svc.restartTimes.filter fun t => s.dev.now < t + 10000000000).length ∧
      (s.dev.slot (1 - s.dev.svc.slot)).image.isSome = true) ↔ b = true := by
    rw [hb, Bool.and_eq_true, decide_eq_true_iff, List.length_append]
    exact and_congr_left' (by simp)
  obtain ⟨l, hl⟩ : ∃ l, l = if b then [] else
      (s.dev.svc.restartTimes.filter fun t => decide (s.dev.now < t + 10000000000)) ++ [s.dev.now] := ⟨_, rfl⟩
  obtain ⟨a, ha, hasvc, hnow⟩ : ∃ a : Dev, a = { s.dev with svc := { s.dev.svc with restarts := s.dev.svc.restarts + 1, restartTimes := l } } ∧
      a.svc = { s.dev.svc with restarts := s.dev.svc.restarts + 1, restartTimes := l } ∧ a.now = s.dev.now := ⟨_, rfl, rfl, rfl⟩
  obtain ⟨hmode, hkick, hgrant, hslot, hfell, hstage, -, hrestarts, -, -, hmb, -⟩ := a.restartCore_spec
  obtain ⟨e, he, hsvc, hcru, hfire⟩ : ∃ e : Dev, e = a.restartCore.fire 128 0 (dbits 0 (s.dev.svc.restarts + 1).toNat) ∧
      e.svc = a.restartCore.svc ∧ e.cru = a.restartCore.cru ∧ ∃ f ∈ e.flt.arrivals, f.src = 128 :=
    ⟨_, rfl, rfl, rfl, _, List.mem_append_right _ (List.mem_singleton_self _), rfl⟩
  have hrun : s.dev.watchdogRestart = if b then
      e.watchFallback fun d => { d with svc := { d.svc with slot := d.otherSlot, fellBack := true, stage := {} } } else e := by
    rw [he, ha, hl, hb]
    rfl
  rw [hasvc] at hslot hfell hstage hrestarts hmb
  rw [hnow] at hkick
  have hmb' : s.dev.svc.mb = 1 → e.svc.mb = 2 ∧ e.svc.result = 6 := fun h => by
    rw [hsvc]
    exact hmb h (by rw [hm]; exact nofun)
  rw [hrun]
  by_cases hbt : b = true
  · rw [if_pos hbt, if_pos (hswap.mpr hbt), Dev.svc_watchFallback]
    obtain ⟨honly, hkept⟩ := e.watchFallback_spec fun d => { d with svc := { d.svc with slot := d.otherSlot, fellBack := true, stage := {} } }
    obtain ⟨f, hf, hsrc⟩ := hfire
    have hcru' : (e.watchFallback fun d => { d with svc := { d.svc with slot := d.otherSlot, fellBack := true, stage := {} } }).cru = e.cru :=
      (show e.cru = _ from honly .cru (by decide)).symm
    rw [hcru', hcru]
    refine ⟨(congrArg Svc.mode hsvc).trans hmode, (congrArg Svc.restarts hsvc).trans hrestarts, (congrArg Svc.lastKick hsvc).trans hkick, hgrant,
      ⟨f, hkept.kept f hf, hsrc⟩, hmb', ?_, rfl, rfl⟩
    show 1 - e.svc.slot = _
    rw [hsvc, hslot]
  · rw [if_neg hbt, if_neg fun h => hbt (hswap.mp h), hcru]
    refine ⟨(congrArg Svc.mode hsvc).trans hmode, (congrArg Svc.restarts hsvc).trans hrestarts, (congrArg Svc.lastKick hsvc).trans hkick, hgrant,
      hfire, hmb', (congrArg Svc.slot hsvc).trans hslot, (congrArg Svc.fellBack hsvc).trans hfell, (congrArg Svc.stage hsvc).trans hstage⟩

theorem activationWatchdog_spec (s : State) (t p : Nat) (ht : s.dev.svc.trial = some (t, p)) (hn : t + 500000000 ≤ s.dev.now) :
    ∃ u, exec .activationWatchdog s = .next u ∧ u.dev.svc.slot = p ∧ u.dev.svc.trial = none ∧
      u.dev.svc.mode = .restarting ∧ (u.dev.slot s.dev.svc.slot).image = none ∧ s.dev.onlyChanges u.dev [.svc, .flt, .cru] := by
  obtain ⟨a, ha, himage, honly⟩ : ∃ a : Dev, a = s.dev.setSlot s.dev.svc.slot { s.dev.slot s.dev.svc.slot with image := none } ∧
      (a.slot s.dev.svc.slot).image = none ∧ s.dev.onlyChanges a [.svc, .flt, .cru] :=
    ⟨_, rfl, congrArg Slot.image (FMap.get_put_same ..), by simp [Dev.onlyChanges_iff]⟩
  obtain ⟨k, hk⟩ : ∃ k : Dev → Dev, k = fun d => { d with svc := { d.svc with slot := p, trial := none, fellBack := true, stage := {} } } := ⟨_, rfl⟩
  obtain ⟨b, hb, hbsvc, hbonly⟩ : ∃ b, b = k a ∧ b.svc = { a.svc with slot := p, trial := none, fellBack := true, stage := {} } ∧
      a.onlyChanges b [.svc, .flt, .cru] := by
    rw [hk]
    exact ⟨_, rfl, rfl, by simp [Dev.onlyChanges_iff]⟩
  obtain ⟨e, he⟩ : ∃ e : Dev, e = a.watchFallback k := ⟨_, rfl⟩
  have hexec : exec .activationWatchdog s = .next ⟨e.restartCore, s.pending⟩ := by
    show execActivationWatchdog s = _
    rw [execActivationWatchdog, State.dev!_next, ht]
    dsimp only
    rw [decide_eq_true hn, Dev.when_true, he, ha, hk]
  have hsvc : e.svc = { a.svc with slot := p, trial := none, fellBack := true, stage := {} } := by rw [he, Dev.svc_watchFallback, ← hb, hbsvc]
  have hfired : b.onlyChanges e [.flt] := by
    rw [he, hb]
    exact (Dev.watchFallback_spec k a).1
  have hchanged : a.onlyChanges e [.svc, .flt, .cru] := Dev.onlyChanges_trans hbonly (Dev.onlyChanges_mono hfired (by simp))
  obtain ⟨hmode, -, -, hslot, -, -, htrial, -, hslots, -, -, -⟩ := e.restartCore_spec
  rw [hsvc] at hslot htrial hslots
  refine ⟨_, hexec, hslot, htrial, hmode, ?_, Dev.onlyChanges_trans honly (Dev.onlyChanges_trans hchanged (by simp [Dev.onlyChanges_iff]))⟩
  show (FMap.get _ e.restartCore.svc.slots _).image = none
  rw [hslots]
  exact himage

/-! ## The mailbox -/

theorem Dev.mailbox_untaken {op : Nat} {k : Dev → Dev} {d : Dev} (h : d.svc.taken = false) : d.mailbox op k = d := by
  unfold Dev.mailbox
  rw [if_pos (by simp [h])]

theorem Dev.mailbox_recovery {op : Nat} {k : Dev → Dev} {d : Dev} (h : d.svc.taken = true) (ho : d.svc.op = op) (hm : d.svc.mode = .recovery)
    (hop : [1, 4, 5, 7].contains op = false) : d.mailbox op k = d.mbAnswer 7 [] := by
  unfold Dev.mailbox
  rw [if_neg (not_not.mpr ⟨h, ho⟩), if_pos ⟨hm, by rw [hop]; decide⟩]

theorem Dev.mailbox_runs {op : Nat} {k : Dev → Dev} {d : Dev} (h : d.svc.taken = true) (ho : d.svc.op = op)
    (hm : d.svc.mode ≠ .recovery ∨ [1, 4, 5, 7].contains op = true) : d.mailbox op k = k d := by
  unfold Dev.mailbox
  rw [if_neg (not_not.mpr ⟨h, ho⟩), if_neg fun hr => hm.elim (fun hn => hn hr.1) hr.2]

theorem mailbox_not_taken (s : State) (h : s.dev.svc.taken = false) : exec .getSensor s = .next s ∧ exec .setThresh s = .next s ∧
    exec .logExport s = .next s ∧ exec .getStatus s = .next s ∧ (∀ e, exec (.getVersion e) s = .next s ∧ exec (.fwActivate e) s = .next s) ∧
    ∀ h e, exec (.fwStage h e) s = .next s := by
  have hrun (op : Nat) (k : Dev → Dev) : s.dev! (Dev.mailbox op k) = .next s := by
    rw [State.dev!_next, Dev.mailbox_untaken h]
  exact ⟨hrun 2 _, hrun 3 _, hrun 6 _, hrun 7 _, fun e => ⟨hrun 1 _, hrun 5 _⟩, fun h e => hrun 4 _⟩

theorem mailbox_in_recovery (s : State) (h : s.dev.svc.taken = true) (hm : s.dev.svc.mode = .recovery) :
    (s.dev.svc.op = 2 → ∃ u, exec .getSensor s = .next u ∧ u.dev.svc.mb = 2 ∧ u.dev.svc.result = 7) ∧
    (s.dev.svc.op = 3 → ∃ u, exec .setThresh s = .next u ∧ u.dev.svc.mb = 2 ∧ u.dev.svc.result = 7) ∧
    (s.dev.svc.op = 6 → ∃ u, exec .logExport s = .next u ∧ u.dev.svc.mb = 2 ∧ u.dev.svc.result = 7) := by
  have hrun (op : Nat) (k : Dev → Dev) (ho : s.dev.svc.op = op) (hop : [1, 4, 5, 7].contains op = false) :
      s.dev! (Dev.mailbox op k) = .next ⟨s.dev.mbAnswer 7 [], s.pending⟩ := by
    rw [State.dev!_next, Dev.mailbox_recovery h ho hm hop]
  exact ⟨fun ho => ⟨_, hrun 2 _ ho rfl, rfl, rfl⟩, fun ho => ⟨_, hrun 3 _ ho rfl, rfl, rfl⟩, fun ho => ⟨_, hrun 6 _ ho rfl, rfl, rfl⟩⟩

section
variable {s : State} (h : s.dev.svc.taken = true)
include h

theorem mailbox_exec {op : Nat} {k : Dev → Dev} (ho : s.dev.svc.op = op) (hm : s.dev.svc.mode ≠ .recovery ∨ [1, 4, 5, 7].contains op = true) :
    s.dev! (Dev.mailbox op k) = .next ⟨k s.dev, s.pending⟩ := by
  rw [State.dev!_next, Dev.mailbox_runs h ho hm]

theorem getVersion_flashError (ho : s.dev.svc.op = 1) : ∃ u, exec (.getVersion true) s = .next u ∧ u.dev.svc.mb = 2 ∧ u.dev.svc.result = 5 :=
  ⟨_, mailbox_exec h ho (.inr rfl), rfl, rfl⟩

theorem getVersion_answer (ho : s.dev.svc.op = 1) : ∃ u, exec (.getVersion false) s = .next u ∧ u.dev.svc.mb = 2 ∧ u.dev.svc.result = 0 ∧
    u.dev.svc.rsp = [slotVersion (s.dev.slot s.dev.svc.slot), slotVersion (s.dev.slot (1 - s.dev.svc.slot)), place 0 0 s.dev.svc.slot,
      (s.dev.slot s.dev.svc.slot).generation] ∧ s.dev.onlyChanges u.dev [.svc] :=
  ⟨_, mailbox_exec h ho (.inr rfl), rfl, rfl, rfl, by simp [Dev.onlyChanges_iff, Dev.withFlash]⟩

theorem getSensor_answer (ho : s.dev.svc.op = 2) (hm : s.dev.svc.mode ≠ .recovery) (hb : bit (s.dev.mbArg 0) 4 = false) :
    ∃ u, exec .getSensor s = .next u ∧ u.dev.svc.mb = 2 ∧ u.dev.svc.result = 0 ∧
      u.dev.svc.rsp[0]? = some (ofInt 32 (s.dev.svc.temps.getD (bits (s.dev.mbArg 0) 3 0) {}).now) ∧ s.dev.onlyChanges u.dev [.svc] := by
  refine ⟨_, mailbox_exec h ho (.inl hm), ?_⟩
  dsimp only
  rw [hb, Bool.false_and, if_neg Bool.false_ne_true, if_neg Bool.false_ne_true]
  exact ⟨rfl, rfl, rfl, by simp [Dev.onlyChanges_iff]⟩

theorem setThresh_answer (ho : s.dev.svc.op = 3) (hm : s.dev.svc.mode ≠ .recovery) :
    ∃ u, exec .setThresh s = .next u ∧ u.dev.svc.mb = 2 ∧ s.dev.onlyChanges u.dev [.svc] ∧
      ∀ a b c, a = ((s.dev.mbArg 0).extractLsb' 0 16).toInt → b = ((s.dev.mbArg 1).extractLsb' 0 16).toInt → c = bits (s.dev.mbArg 2) 7 0 →
        if 960 ≤ a ∧ a < b ∧ b ≤ 2000 ∧ 1 ≤ c ∧ c ≤ 20 then u.dev.svc.result = 0 ∧ u.dev.svc.warnT = a ∧ u.dev.svc.critT = b ∧ u.dev.svc.tol = c
        else u.dev.svc.result = 3 ∧ u.dev.svc.warnT = s.dev.svc.warnT ∧ u.dev.svc.critT = s.dev.svc.critT ∧ u.dev.svc.tol = s.dev.svc.tol := by
  refine ⟨_, mailbox_exec h ho (.inl hm), ?_⟩
  dsimp only
  have hmb : s.dev.setThresholds.svc.mb = 2 := by
    unfold Dev.setThresholds
    dsimp only
    split <;> rfl
  refine ⟨hmb, by simp [Dev.onlyChanges_iff], fun a b c ha hb hc => ?_⟩
  have hset : s.dev.setThresholds = if decide (960 ≤ a) && decide (a < b) && decide (b ≤ 2000) && decide (1 ≤ c) && decide (c ≤ 20) then
      ({ s.dev with svc := { s.dev.svc with warnT := a, critT := b, tol := c } } : Dev).mbAnswer 0 [] else s.dev.mbAnswer 3 [] := by
    rw [ha, hb, hc]
    rfl
  rw [hset]
  by_cases hok : 960 ≤ a ∧ a < b ∧ b ≤ 2000 ∧ 1 ≤ c ∧ c ≤ 20
  · rw [if_pos hok, if_pos (by simpa [and_assoc] using hok)]
    exact ⟨rfl, rfl, rfl, rfl⟩
  · rw [if_neg hok, if_neg (by simpa [and_assoc] using hok)]
    exact ⟨rfl, rfl, rfl, rfl⟩

theorem logExport_answer (ho : s.dev.svc.op = 6) (hm : s.dev.svc.mode ≠ .recovery) :
    ∃ u, exec .logExport s = .next u ∧ u.dev.svc.mb = 2 ∧ s.dev.onlyChanges u.dev [.svc] ∧
      ∀ n a, n = bits (s.dev.mbArg 2) 4 0 → a = quad (s.dev.mbArg 0) (s.dev.mbArg 1) →
        (n = 0 → u.dev.svc.result = 0 ∧ u.dev.svc.exportOn = false) ∧
        (6 ≤ n → n ≤ 16 → a.toNat % 64 = 0 → 0x8000000000000000 ≤ a.toNat →
          u.dev.svc.result = 0 ∧ u.dev.svc.exportOn = true ∧ u.dev.svc.exportAddr = a ∧ u.dev.svc.exportLog2 = n) := by
  refine ⟨_, mailbox_exec h ho (.inl hm), ?_⟩
  dsimp only
  generalize bits (s.dev.mbArg 2) 4 0 = n
  generalize quad (s.dev.mbArg 0) (s.dev.mbArg 1) = a
  split
  · next hn =>
    refine ⟨rfl, by simp [Dev.onlyChanges_iff], ?_⟩
    rintro _ _ rfl rfl
    exact ⟨fun _ => ⟨rfl, rfl⟩, fun h6 => by omega⟩
  next hn =>
  split
  · next hbad =>
    refine ⟨rfl, by simp [Dev.onlyChanges_iff], ?_⟩
    rintro _ _ rfl rfl
    exact ⟨fun h0 => absurd h0 hn, fun h6 h16 ha hlo => by omega⟩
  · refine ⟨rfl, by simp [Dev.onlyChanges_iff], ?_⟩
    rintro _ _ rfl rfl
    exact ⟨fun h0 => absurd h0 hn, fun _ _ _ _ => ⟨rfl, rfl, rfl, rfl⟩⟩

theorem getStatus_answer (ho : s.dev.svc.op = 7) : ∃ u, exec .getStatus s = .next u ∧ u.dev.svc.mb = 2 ∧ u.dev.svc.result = 0 ∧
    u.dev.svc.rsp = [flag 9 s.dev.svc.stage.failed ||| flag 8 s.dev.svc.stage.verified ||| place 7 0 s.dev.svc.stage.progress,
      s.dev.svc.exportNext, s.dev.svc.exportSkip, place 7 0 s.dev.svc.peak] ∧ u.dev.svc.peak = 0 ∧ s.dev.onlyChanges u.dev [.svc] :=
  ⟨_, mailbox_exec h ho (.inr rfl), rfl, rfl, rfl, rfl, by simp [Dev.onlyChanges_iff]⟩

/-! ## Images -/

theorem fwStage_refused (ho : s.dev.svc.op = 4) (hb : (s.dev.svc.stage.busy || s.dev.svc.fellBack) = true) (i : Option ImageHeader) (e : Bool) :
    ∃ u, exec (.fwStage i e) s = .next u ∧ u.dev.svc.mb = 2 ∧ u.dev.svc.result = 7 ∧ u.dev.svc.stage = s.dev.svc.stage := by
  refine ⟨_, mailbox_exec h ho (.inr rfl), ?_⟩
  unfold Dev.stageImage
  dsimp only
  rw [if_pos hb]
  exact ⟨rfl, rfl, rfl⟩

section
variable (ho : s.dev.svc.op = 4) (hb : s.dev.svc.stage.busy = false) (hf : s.dev.svc.fellBack = false)
  (hlo : 0x100000 ≤ (s.dev.mbArg 2).toNat) (hhi : (s.dev.mbArg 2).toNat ≤ 0x800000)
include ho hb hf hlo hhi

theorem fwStage_flashError (i : Option ImageHeader) : ∃ u, exec (.fwStage i true) s = .next u ∧ u.dev.svc.mb = 2 ∧ u.dev.svc.result = 5 ∧
    u.dev.svc.stage = s.dev.svc.stage := by
  refine ⟨_, mailbox_exec h ho (.inr rfl), ?_⟩
  unfold Dev.stageImage
  dsimp only
  rw [if_neg (by rw [hb, hf]; decide), if_neg (by omega), if_pos rfl]
  exact ⟨rfl, rfl, rfl⟩

theorem fwStage_unauthentic : ∃ u, exec (.fwStage none false) s = .next u ∧ u.dev.svc.mb = 2 ∧ u.dev.svc.result = 4 ∧
    u.dev.svc.stage = s.dev.svc.stage := by
  refine ⟨_, mailbox_exec h ho (.inr rfl), ?_⟩
  unfold Dev.stageImage
  dsimp only
  rw [if_neg (by rw [hb, hf]; decide), if_neg (by omega), if_neg Bool.false_ne_true]
  split
  · next hi => exact absurd hi nofun
  · exact ⟨rfl, rfl, by simp [Dev.mbAnswer]⟩

theorem fwStage_starts (i : ImageHeader) (hr : s.dev.readRes 64 (quad (s.dev.mbArg 0) (s.dev.mbArg 1)).toNat (s.dev.mbArg 2).toNat = .ok) :
    ∃ u, exec (.fwStage (some i) false) s = .next u ∧ u.dev.svc.mb = 2 ∧ u.dev.svc.result = 0 ∧ u.dev.svc.stage = { image := some i } ∧
      s.dev.onlyChanges u.dev [.svc] := by
  refine ⟨_, mailbox_exec h ho (.inr rfl), ?_⟩
  unfold Dev.stageImage
  dsimp only
  rw [if_neg (by rw [hb, hf]; decide), if_neg (by omega), if_neg Bool.false_ne_true, hr]
  exact ⟨rfl, rfl, rfl, by simp [Dev.onlyChanges_iff]⟩

end

theorem fwActivate_unverified (ho : s.dev.svc.op = 5) (hv : s.dev.svc.stage.verified = false) (e : Bool) :
    ∃ u, exec (.fwActivate e) s = .next u ∧ u.dev.svc.mb = 2 ∧ u.dev.svc.result = 7 ∧ u.dev.svc.slot = s.dev.svc.slot := by
  refine ⟨_, mailbox_exec h ho (.inr rfl), ?_⟩
  dsimp only
  rw [if_pos (by simp [hv])]
  exact ⟨rfl, rfl, rfl⟩

theorem fwActivate_flashError (ho : s.dev.svc.op = 5) (hv : s.dev.svc.stage.verified = true) :
    ∃ u, exec (.fwActivate true) s = .next u ∧ u.dev.svc.mb = 2 ∧ u.dev.svc.result = 5 ∧ u.dev.svc.slot = s.dev.svc.slot := by
  refine ⟨_, mailbox_exec h ho (.inr rfl), ?_⟩
  dsimp only
  rw [if_neg (by simp [hv]), if_pos rfl]
  exact ⟨rfl, rfl, rfl⟩

theorem fwActivate_recovery (ho : s.dev.svc.op = 5) (hv : s.dev.svc.stage.verified = true) (hm : s.dev.svc.mode = .recovery) :
    ∃ u, exec (.fwActivate false) s = .next u ∧ u.dev.svc.mb = 2 ∧ u.dev.svc.result = 0 ∧ u.dev.svc.slot = s.dev.svc.slot ∧
      u.dev.svc.activated = true ∧ s.dev.onlyChanges u.dev [.svc] := by
  refine ⟨_, mailbox_exec h ho (.inr rfl), ?_⟩
  dsimp only
  rw [if_neg (by simp [hv]), if_neg Bool.false_ne_true, if_pos (show (s.dev.mbAnswer 0 []).svc.mode = .recovery from hm)]
  exact ⟨rfl, rfl, rfl, rfl, by simp [Dev.onlyChanges_iff]⟩

theorem fwActivate_starts (ho : s.dev.svc.op = 5) (hv : s.dev.svc.stage.verified = true) (hm : s.dev.svc.mode ≠ .recovery) :
    ∃ u, exec (.fwActivate false) s = .next u ∧ u.dev.svc.mb = 2 ∧ u.dev.svc.result = 0 ∧ u.dev.svc.slot = 1 - s.dev.svc.slot ∧
      u.dev.svc.mode = .restarting ∧ u.dev.svc.trial = some (s.dev.now, s.dev.svc.slot) ∧ s.dev.onlyChanges u.dev [.svc, .cru] := by
  obtain ⟨d, hd, hmb, hresult, hslot, htrial, honly⟩ : ∃ d : Dev, d = { s.dev.mbAnswer 0 [] with svc := { (s.dev.mbAnswer 0 []).svc with
      slot := (s.dev.mbAnswer 0 []).otherSlot, stage := {}, trial := some ((s.dev.mbAnswer 0 []).now, (s.dev.mbAnswer 0 []).svc.slot) } } ∧
      d.svc.mb = 2 ∧ d.svc.result = 0 ∧ d.svc.slot = 1 - s.dev.svc.slot ∧ d.svc.trial = some (s.dev.now, s.dev.svc.slot) ∧
      s.dev.onlyChanges d [.svc, .cru] := ⟨_, rfl, rfl, rfl, rfl, rfl, by simp [Dev.onlyChanges_iff]⟩
  have hexec : exec (.fwActivate false) s = .next ⟨d.restartCore, s.pending⟩ := by
    refine (mailbox_exec h ho (.inr rfl)).trans ?_
    dsimp only
    rw [if_neg (by simp [hv]), if_neg Bool.false_ne_true, if_neg (show ¬ (s.dev.mbAnswer 0 []).svc.mode = .recovery from hm), hd]
  obtain ⟨hmode, -, -, hslot', -, -, htrial', -, -, -, -, hkept⟩ := d.restartCore_spec
  obtain ⟨hmb', hresult'⟩ := hkept (by rw [hmb]; decide)
  exact ⟨_, hexec, hmb'.trans hmb, hresult'.trans hresult, hslot'.trans hslot, hmode, htrial'.trans htrial,
    Dev.onlyChanges_trans honly (by simp [Dev.onlyChanges_iff])⟩

end

/-- Settles O57: the tick and its two watchdogs, and each mailbox command that was taken up, was not, or is not allowed. -/
theorem faruoTicksAndAnswers : Obligations.FaruoTicksAndAnswers := by
  rintro v s rfl
  exact ⟨fun i => faruoTick_spec i s, serviceWatchdog_spec s, fun t p => activationWatchdog_spec s t p, mailbox_not_taken s, mailbox_in_recovery s,
    fun h => ⟨getVersion_flashError h, fwStage_refused h,
      fun ho hb hf hlo hhi => ⟨fwStage_flashError h ho hb hf hlo hhi, fwStage_unauthentic h ho hb hf hlo hhi⟩,
      fwActivate_unverified h, fun ho hv => ⟨fwActivate_flashError h ho hv, fwActivate_recovery h ho hv⟩⟩,
    fun h => ⟨getVersion_answer h, getSensor_answer h, setThresh_answer h, fun i ho hb hf hlo hhi => fwStage_starts h ho hb hf hlo hhi i,
      fwActivate_starts h, logExport_answer h, getStatus_answer h⟩⟩

end Sys2Proof.Machine
end

section
/-!
PROOF of O58: CCLK steps, PLLs lock, and the timebase aligns to PPS.
-/
namespace Sys2Proof.Machine
set_option Elab.async false

/-! ## The compose clock -/

theorem cclkChange_spec (s : State) (m : Fn) (w : BitVec 11) (h : s.dev.mayWriteReg m .ckr 0 CKR_CCLK)
    (ha : s.dev.armed PType.ckr.page m = true) (hc : s.dev.clk.change = 0) (hlo : 800 ≤ w.toNat) (hhi : w.toNat ≤ 1600) (h50 : w.toNat % 50 = 0) :
    ∃ u, exec (.cclkChange m w) s = .next u ∧ u.dev.cclkTarget = w.toNat ∧ u.dev.clk.cclk = s.dev.clk.cclk ∧
      u.dev.clk.change = (if w.toNat < s.dev.clk.cclk then 1 else if s.dev.clk.cclk < w.toNat then 3 else 0) := by
  obtain ⟨d, hd, hclk, htarget⟩ : ∃ d : Dev, d = (s.dev.setArm 1 m false).setReg .ckr 0 CKR_CCLK (w.setWidth 32) ∧ d.clk = s.dev.clk ∧
      d.cclkTarget = w.toNat := by
    refine ⟨_, rfl, rfl, ?_⟩
    unfold Dev.cclkTarget Dev.fld bits
    rw [Dev.reg_setReg, Nat.shiftRight_zero, BitVec.toNat_setWidth]
    have := w.isLt
    omega
  have hexec : exec (.cclkChange m w) s = .next ⟨cclkWritten d, s.pending⟩ := by
    show s.dev! (Dev.regWrite m .ckr 0 CKR_CCLK (w.setWidth 32)) = _
    rw [State.dev!_next, Dev.regWrite_cclk h ha hc ⟨hlo, hhi, h50⟩, hd]
  refine ⟨_, hexec, ?_⟩
  dsimp only
  unfold cclkWritten
  dsimp only
  rw [htarget, hclk]
  split
  · exact ⟨htarget, rfl, rfl⟩
  split
  · exact ⟨htarget, rfl, rfl⟩
  · exact ⟨htarget, congrArg Clocks.cclk hclk, (congrArg Clocks.change hclk).trans hc⟩

theorem cclkStep_up (s : State) (h : s.dev.clk.change = 3) :
    ∃ u, exec .cclkStep s = .next u ∧ u.dev.clk.cclk = min s.dev.cclkTarget (s.dev.clk.cclk + 50) ∧
      (u.dev.clk.change = 4 ↔ u.dev.clk.cclk = s.dev.cclkTarget) ∧ s.dev.onlyChanges u.dev [.clk, .scene] := by
  have hexec : exec .cclkStep s = .next ⟨cclkStep s.dev, s.pending⟩ := rfl
  refine ⟨_, hexec, ?_⟩
  dsimp only
  unfold cclkStep
  dsimp only
  rw [h]
  by_cases hf : min s.dev.cclkTarget (s.dev.clk.cclk + 50) = s.dev.cclkTarget
  · rw [if_pos hf]
    exact ⟨rfl, ⟨fun _ => hf, fun _ => if_pos hf⟩, by simp [Dev.onlyChanges_iff]⟩
  · rw [if_neg hf]
    refine ⟨rfl, ⟨fun h4 => ?_, fun h4 => absurd h4 hf⟩, by simp [Dev.onlyChanges_iff]⟩
    exact absurd ((if_neg hf).symm.trans h4) (by decide)

theorem cclkStep_down (s : State) (h : s.dev.clk.change = 2 ∨ s.dev.clk.change = 1 ∧ s.dev.reevalBusy = false ∧ s.dev.modePend = false) :
    ∃ u, exec .cclkStep s = .next u ∧ u.dev.clk.cclk = max s.dev.cclkTarget (s.dev.clk.cclk - 50) ∧
      (u.dev.clk.change = 0 ↔ u.dev.clk.cclk = s.dev.cclkTarget) ∧ s.dev.onlyChanges u.dev [.clk] := by
  obtain ⟨d, hd⟩ : ∃ d : Dev, d = { s.dev with clk := { s.dev.clk with
      cclk := max s.dev.cclkTarget (s.dev.clk.cclk - 50)
      change := if max s.dev.cclkTarget (s.dev.clk.cclk - 50) = s.dev.cclkTarget then 0 else 2 } } := ⟨_, rfl⟩
  have hexec : exec .cclkStep s = .next ⟨d, s.pending⟩ := by
    show execCclkStep s = _
    rw [execCclkStep, State.dev!_next, hd]
    unfold cclkStep
    dsimp only
    rcases h with h | ⟨h, hr, hm⟩
    · rw [h]
      rw [if_neg fun hc => absurd hc.1 (by decide)] <;> rfl
    · rw [h]
      rw [if_neg fun hc => hc.2.elim (by simp [hr]) (by simp [hm])] <;> rfl
  refine ⟨_, hexec, ?_⟩
  rw [hd]
  refine ⟨rfl, ?_, by simp [Dev.onlyChanges_iff]⟩
  show (if max s.dev.cclkTarget (s.dev.clk.cclk - 50) = s.dev.cclkTarget then 0 else 2) = 0 ↔ max s.dev.cclkTarget (s.dev.clk.cclk - 50) = _
  split
  · next hf => exact ⟨fun _ => hf, fun _ => rfl⟩
  · next hf => exact ⟨fun h2 => absurd h2 (by decide), fun h2 => absurd h2 hf⟩

/-! ## The reference PLLs -/

theorem Dev.pllLocked_setPllLocked (k : Nat) (b : Bool) (d : Dev) (j : Nat) :
    (d.setPllLocked k b).pllLocked j = if j = k then b else d.pllLocked j := FMap.get_put ..

theorem pllLocked_spec (s : State) (k : PllNo) (h : s.dev.flg .ckr 0 (CKR_PLL + 4 * k) 31 = true) :
    ∃ u, exec (.pllLocked k) s = .next u ∧ s.dev.onlyChanges u.dev [.clk] ∧ ∀ j, u.dev.pllLocked j = (j = k.val || s.dev.pllLocked j) := by
  have hexec : exec (.pllLocked k) s = .next ⟨s.dev.setPllLocked k true, s.pending⟩ := by
    show execPllLocked k s = _
    rw [execPllLocked, State.dev!_next, h, Dev.when_true]
  refine ⟨_, hexec, by simp [Dev.onlyChanges_iff], fun j => ?_⟩
  rw [Dev.pllLocked_setPllLocked]
  split
  · next hj => simp [hj]
  · next hj => simp [hj]

theorem pllUnlock_spec (s : State) (k : PllNo) (h : s.dev.pllLocked k = true) :
    ∃ u, exec (.pllUnlock k) s = .next u ∧ (∀ j, u.dev.pllLocked j = (j ≠ k.val && s.dev.pllLocked j)) ∧
      s.dev.onlyChanges u.dev [.clk, .flt] ∧ (s.dev.pllBusy k = true → ∃ f ∈ u.dev.flt.arrivals, f.src = 64 ∧ f.inst = k.val) := by
  have hlock (j : Nat) : (s.dev.setPllLocked k false).pllLocked j = (j ≠ k.val && s.dev.pllLocked j) := by
    rw [Dev.pllLocked_setPllLocked]
    split
    · next hj => simp [hj]
    · next hj => simp [hj]
  have hexec : exec (.pllUnlock k) s = .next ⟨if s.dev.pllBusy k then (s.dev.setPllLocked k false).fire 64 k
      (((s.dev.setPllLocked k false).pllUsers k).foldl (fun m c => m ||| dbits c 1) 0) else s.dev.setPllLocked k false, s.pending⟩ := by
    show execPllUnlock k s = _
    rw [execPllUnlock, State.dev!_next, h, Dev.when_true]
    rfl
  refine ⟨_, hexec, ?_⟩
  dsimp only
  by_cases hb : s.dev.pllBusy k = true
  · rw [if_pos hb]
    exact ⟨hlock, by simp [Dev.onlyChanges_iff], fun _ => ⟨_, List.mem_append_right _ (List.mem_singleton_self _), rfl, rfl⟩⟩
  · rw [if_neg hb]
    exact ⟨hlock, by simp [Dev.onlyChanges_iff], fun hb' => absurd hb' hb⟩

/-! ## The timebase -/

/-- An active edge that is not ignored: the pending load is made where it moves the timebase forward. -/
theorem ppsAccept_spec (d : Dev) : d.onlyChanges (ppsAccept d) [.tb] ∧ (ppsAccept d).tb.since = d.now ∧ (ppsAccept d).tb.accepted = some d.now ∧
    (ppsAccept d).tb.edge = (ppsAccept d).tb.count ∧ (ppsAccept d).tb.edgeErr = ppsError (ppsAccept d).tb.count ∧
    (ppsAccept d).tb.loadPend = false ∧ (ppsAccept d).tb.count =
      (if d.tb.loadPend = true ∧ d.tb.count.toNat ≤ (d.pair .tmb 0 TMB_SET_LO).toNat then d.pair .tmb 0 TMB_SET_LO else d.tb.count) := by
  obtain ⟨t, ht, hpend, hcount⟩ : ∃ t : Timebase, t = (if d.tb.loadPend then
      if d.tb.count.toNat ≤ (d.pair .tmb 0 TMB_SET_LO).toNat then { d.tb with count := d.pair .tmb 0 TMB_SET_LO, loadPend := false }
      else { d.tb with loadErr := true, loadPend := false } else d.tb) ∧ t.loadPend = false ∧ t.count =
      (if d.tb.loadPend = true ∧ d.tb.count.toNat ≤ (d.pair .tmb 0 TMB_SET_LO).toNat then d.pair .tmb 0 TMB_SET_LO else d.tb.count) := by
    refine ⟨_, rfl, ?_⟩
    by_cases hp : d.tb.loadPend = true
    · rw [if_pos hp]
      by_cases hle : d.tb.count.toNat ≤ (d.pair .tmb 0 TMB_SET_LO).toNat
      · rw [if_pos hle, if_pos ⟨hp, hle⟩]
        exact ⟨rfl, rfl⟩
      · rw [if_neg hle, if_neg fun hc => hle hc.2]
        exact ⟨rfl, rfl⟩
    · rw [if_neg hp, if_neg fun hc => hp hc.1]
      exact ⟨by simpa using hp, rfl⟩
  obtain ⟨e, he⟩ : ∃ e, e = ppsError t.count := ⟨_, rfl⟩
  obtain ⟨y, hy⟩ : ∃ y, y = clampAbs ((d.fld .tmb 0 TMB_CTL 9 0 * 1000 : Nat) : Int) e := ⟨_, rfl⟩
  have hacc : ppsAccept d = { d with tb := { t with
      err := e, rate := y, phase := 0, edge := t.count, edgeErr := e, since := d.now, accepted := some d.now, lost := false } } := by
    unfold ppsAccept
    dsimp only
    rw [hy, he, ht]
  rw [hacc]
  exact ⟨by simp [Dev.onlyChanges_iff], rfl, rfl, rfl, he, hpend, hcount⟩

theorem ppsEdge_spec (s : State) (e : Bool) (hr : s.dev.tb.run = true) (hen : s.dev.flg .tmb 0 TMB_CTL 31 = true)
    (he : e ≠ s.dev.flg .tmb 0 TMB_CTL 30) (ha : ∀ a ∈ s.dev.tb.accepted, a + 500000000 ≤ s.dev.now) :
    ∃ u, exec (.ppsEdge e) s = .next u ∧ s.dev.onlyChanges u.dev [.tb] ∧ u.dev.tb.since = s.dev.now ∧ u.dev.tb.accepted = some s.dev.now ∧
      u.dev.tb.edge = u.dev.tb.count ∧ u.dev.tb.edgeErr = ppsError u.dev.tb.count ∧ u.dev.tb.loadPend = false ∧
      u.dev.tb.count = (if s.dev.tb.loadPend = true ∧ s.dev.tb.count.toNat ≤ (s.dev.pair .tmb 0 TMB_SET_LO).toNat then
        s.dev.pair .tmb 0 TMB_SET_LO else s.dev.tb.count) := by
  have hall : (s.dev.tb.accepted.all fun a => decide (a + 500000000 ≤ s.dev.now)) = true :=
    Option.all_eq_true_iff_get _ _ |>.mpr fun h => decide_eq_true (ha _ (Option.get_mem h))
  have hexec : exec (.ppsEdge e) s = .next ⟨ppsAccept s.dev, s.pending⟩ := by
    show execPpsEdge e s = _
    rw [execPpsEdge, State.dev!_next, hr, hen, hall, show (e != s.dev.flg .tmb 0 TMB_CTL 30) = true from bne_iff_ne.mpr he]
    rfl
  exact ⟨_, hexec, ppsAccept_spec s.dev⟩

theorem ppsLost_spec (s : State) (hen : s.dev.flg .tmb 0 TMB_CTL 31 = true) (hl : s.dev.tb.lost = false)
    (ht : s.dev.tb.since + 1500000000 ≤ s.dev.now) : ∃ u, exec .ppsLost s = .next u ∧ u.dev.tb = { s.dev.tb with lost := true } ∧
      (∃ f ∈ u.dev.flt.arrivals, f.src = 96) ∧ s.dev.onlyChanges u.dev [.tb, .flt] := by
  have hexec : exec .ppsLost s = .next ⟨({ s.dev with tb := { s.dev.tb with lost := true } } : Dev).fire 96 0 0, s.pending⟩ := by
    show execPpsLost s = _
    rw [execPpsLost, State.dev!_next, hen, hl, decide_eq_true ht]
    rfl
  exact ⟨_, hexec, rfl, ⟨_, List.mem_append_right _ (List.mem_singleton_self _), rfl⟩, by simp [Dev.onlyChanges_iff]⟩

theorem tmbLoad_spec (s : State) (m : Fn) (h : s.dev.mayWriteReg m .tmb 0 TMB_CTL) (ha : s.dev.armed PType.tmb.page m = true) :
    ∃ u, exec (.tmbLoad m) s = .next u ∧ u.dev.tb.loadPend = true ∧ u.dev.tb.loadErr = false ∧
      u.dev.tb.count = s.dev.tb.count ∧ s.dev.onlyChanges u.dev [.regs, .tb] := by
  obtain ⟨v, d, hd, htb, honly⟩ : ∃ (v : Word) (d : Dev), exec (.tmbLoad m) s = .next ⟨timebaseControl v v true d, s.pending⟩ ∧ d.tb = s.dev.tb ∧
      s.dev.onlyChanges d [.regs, .tb] := by
    refine ⟨s.dev.view .tmb 0 TMB_CTL &&& 0xC00003FF, (s.dev.setArm 2 m false).setReg .tmb 0 TMB_CTL (s.dev.view .tmb 0 TMB_CTL &&& 0xC00003FF), ?_,
      rfl, by simp [Dev.onlyChanges_iff]⟩
    show s.dev! (Dev.fieldWrite m .tmb 0 TMB_CTL 0 (flag 29 true)) = _
    rw [State.dev!_next, Dev.fieldWrite_tmbLoad h ha]
  refine ⟨_, hd, rfl, rfl, ?_, Dev.onlyChanges_trans honly (by simp [Dev.onlyChanges_iff])⟩
  unfold timebaseControl
  dsimp only
  rw [if_pos rfl, Bool.and_not_self, if_neg Bool.false_ne_true]
  split
  · show d.tb.count = _
    rw [htb]
  · show d.tb.count = _
    rw [htb]

/-- Settles O58: the steps of CCLK, the lock of a PLL, and the edges of the pulse-per-second input. -/
theorem clocksStepLockAndAlign : Obligations.ClocksStepLockAndAlign :=
  fun s => ⟨cclkChange_spec s, cclkStep_up s, cclkStep_down s, fun k => ⟨pllLocked_spec s k, pllUnlock_spec s k⟩, ppsEdge_spec s, ppsLost_spec s,
    tmbLoad_spec s⟩

end Sys2Proof.Machine
end

section
/-!
PROOF of O59, first part: cold reset, boot, the warm triggers and the end of a warm reset, and the windows of a reset function.
-/
namespace Sys2Proof.Machine
set_option Elab.async false

/-! ## Start-up up to the test -/

theorem coldReset_spec (s : State) : ∃ u, exec .coldReset s = .next u ∧ u.dev.rst.phase = .reset ∧ u.dev.svc.slots = s.dev.svc.slots ∧
    u.dev.svc.activated = s.dev.svc.activated ∧ u.dev.acc = {} ∧ u.dev.regs = {} ∧ u.dev.queues = [] ∧ u.dev.canvases = [] ∧
    u.dev.mem = s.dev.mem.filter fun e => decide (0x8000000000000000 ≤ e.1) :=
  ⟨⟨s.dev.cold, s.pending⟩, rfl, rfl, rfl, rfl, rfl, rfl, rfl, rfl, rfl⟩

theorem resetNRise_spec (s : State) (straps : BitVec 2) (h : s.dev.rst.phase = .reset) :
    exec (.resetNRise false straps) s = .fault .startUpUndefined ∧
    ∃ u, exec (.resetNRise true straps) s = .next u ∧ u.dev.rst.phase = .rom ∧ u.dev.tb.run = true ∧ u.dev.tb.count = 0 ∧ u.dev.pins.straps = straps := by
  have hnot : ¬ s.dev.rst.phase ≠ .reset := not_not.mpr h
  refine ⟨?_, ⟨{ s.dev with rst := { phase := .rom }, tb := { run := true }, pins := { s.dev.pins with straps := straps } }, s.pending⟩, ?_,
    rfl, rfl, rfl, rfl⟩
  · show execResetNRise false straps s = _
    unfold execResetNRise
    rw [if_neg hnot, if_pos (by decide)]
  · show execResetNRise true straps s = _
    unfold execResetNRise
    rw [if_neg hnot, if_neg (by decide)]
    rfl

/-- The image of a slot boots. -/
theorem Dev.boot_spec (k : Nat) (h : ImageHeader) (fell : Bool) (d : Dev) : (d.boot k h fell).rst.phase = .booted ∧
    (d.boot k h fell).svc.mode = .normal ∧ (d.boot k h fell).svc.slot = k ∧ (d.boot k h fell).svc.fellBack = fell ∧
    (d.boot k h fell).clk.cclk = h.cclk ∧ (d.boot k h fell).rst.warm = d.rst.warm ∧ d.KeepsFirings (d.boot k h fell) := by
  obtain ⟨a, ha, hrst, hflt⟩ : ∃ a, a = (List.range 6).foldl (fun d n => d.bootMask n (h.hash.getD n 0)) (d.setReg .ckr 0 CKR_CCLK (place 10 0 h.cclk)) ∧
      a.rst = d.rst ∧ a.flt.arrivals = d.flt.arrivals := by
    refine ⟨_, rfl, ?_⟩
    have hfold (l : List Nat) (e : Dev) : (l.foldl (fun d n => d.bootMask n (h.hash.getD n 0)) e).rst = e.rst ∧
        (l.foldl (fun d n => d.bootMask n (h.hash.getD n 0)) e).flt.arrivals = e.flt.arrivals := by
      induction l generalizing e with
      | nil => exact ⟨rfl, rfl⟩
      | cons n l ih =>
        obtain ⟨h1, h2⟩ := ih (e.bootMask n (h.hash.getD n 0))
        exact ⟨h1.trans (by simp), h2.trans (by simp)⟩
    exact hfold _ _
  have hawarm : a.rst.warm = d.rst.warm := congrArg Resets.warm hrst
  obtain ⟨b, hb, hphase, hmode, hslot, hfell, hclk, hwarm, harr⟩ : ∃ b : Dev, b = { a with
      comp := { a.comp with stepAt := a.time }
      clk := { a.clk with cclk := h.cclk, ledger := h.cclk, change := 0 }
      svc := { a.svc with mode := SvcMode.normal, slot := k, fellBack := fell, activated := false, trial := none,
                          lastKick := a.now, tickNo := a.time.toNat / 1000000 }
      flt := { a.flt with window := a.time.toNat / 1000000 }
      rst := { a.rst with phase := .booted } } ∧ b.rst.phase = .booted ∧ b.svc.mode = .normal ∧ b.svc.slot = k ∧ b.svc.fellBack = fell ∧
      b.clk.cclk = h.cclk ∧ b.rst.warm = d.rst.warm ∧ b.flt.arrivals = d.flt.arrivals :=
    ⟨_, rfl, rfl, rfl, rfl, rfl, rfl, hawarm, hflt⟩
  obtain ⟨e, he, hers, hesvc, heclk, hefire⟩ : ∃ e : Dev, e = (if b.liveCause 32 then b.fire 32 0 (dbits 0 b.hif.gen ||| dbits 4 b.hif.width) else b) ∧
      e.rst = b.rst ∧ e.svc = b.svc ∧ e.clk = b.clk ∧ b.KeepsFirings e := by
    refine ⟨_, rfl, ?_⟩
    split
    · exact ⟨rfl, rfl, rfl, .of_fire rfl⟩
    · exact ⟨rfl, rfl, rfl, .refl b⟩
  obtain ⟨f, hf, hfrs, hfsvc, hfclk, hffire⟩ : ∃ f : Dev, f = (if e.liveCause 129 then e.fire 129 0 (dbits 0 k) else e) ∧
      f.rst = e.rst ∧ f.svc = e.svc ∧ f.clk = e.clk ∧ e.KeepsFirings f := by
    refine ⟨_, rfl, ?_⟩
    split
    · exact ⟨rfl, rfl, rfl, .of_fire rfl⟩
    · exact ⟨rfl, rfl, rfl, .refl e⟩
  have hboot : d.boot k h fell = f.rebudget := by
    rw [hf, he, hb, ha]
    rfl
  rw [hboot]
  have hrst' : f.rebudget.rst = b.rst := hfrs.trans hers
  have hsvc' : f.rebudget.svc = b.svc := hfsvc.trans hesvc
  have hclk' : f.rebudget.clk = b.clk := hfclk.trans heclk
  rw [hrst', hsvc', hclk']
  exact ⟨hphase, hmode, hslot, hfell, hclk, hwarm,
    .trans ⟨fun x hx => by rw [harr]; exact hx⟩ (.trans hefire (.trans hffire (.of_flt rfl)))⟩

theorem Dev.trySlots_spec (k : Nat) (d : Dev) : (d.trySlots k).rst.phase = .booted ∧
    ((d.slot k).image = none → (d.slot (1 - k)).image = none → (d.trySlots k).svc.mode = .recovery) ∧
    (∀ h, (d.slot k).image = some h → (d.trySlots k).svc.mode = .normal ∧ (d.trySlots k).svc.slot = k ∧ (d.trySlots k).svc.fellBack = false ∧
      (d.trySlots k).clk.cclk = h.cclk) ∧
    ∀ h, (d.slot k).image = none → (d.slot (1 - k)).image = some h → (d.trySlots k).svc.mode = .normal ∧ (d.trySlots k).svc.slot = 1 - k ∧
      (d.trySlots k).svc.fellBack = true ∧ (d.trySlots k).clk.cclk = h.cclk := by
  cases hx : (d.slot k).image with
  | some h =>
    have hrun : d.trySlots k = d.boot k h false := by
      unfold Dev.trySlots
      rw [hx]
    obtain ⟨hphase, hmode, hslot, hfell, hclk, -, -⟩ := d.boot_spec k h false
    rw [hrun]
    refine ⟨hphase, nofun, fun h' heq => ?_, nofun⟩
    obtain rfl : h = h' := Option.some.inj heq
    exact ⟨hmode, hslot, hfell, hclk⟩
  | none =>
    cases hy : (d.slot (1 - k)).image with
    | some h =>
      have hrun : d.trySlots k = d.boot (1 - k) h true := by
        unfold Dev.trySlots
        rw [hx, hy]
      obtain ⟨hphase, hmode, hslot, hfell, hclk, -, -⟩ := d.boot_spec (1 - k) h true
      rw [hrun]
      refine ⟨hphase, fun _ => nofun, nofun, fun h' _ heq => ?_⟩
      obtain rfl : h = h' := Option.some.inj heq
      exact ⟨hmode, hslot, hfell, hclk⟩
    | none =>
      have hrun : d.trySlots k = d.recover := by
        unfold Dev.trySlots
        rw [hx, hy]
      rw [hrun]
      exact ⟨rfl, fun _ _ => rfl, nofun, fun _ _ => nofun⟩

/-- What the board writes to the flash stands in the slots. -/
theorem Dev.boardWrites_spec (a b : Option Slot) (d : Dev) : ((d.boardWrites 0 a).boardWrites 1 b).slot 0 = a.getD (d.slot 0) ∧
    ((d.boardWrites 0 a).boardWrites 1 b).slot 1 = b.getD (d.slot 1) ∧
    ((d.boardWrites 0 a).boardWrites 1 b).svc.activated = d.svc.activated ∧ ((d.boardWrites 0 a).boardWrites 1 b).svc.slot = d.svc.slot := by
  have hslot (e : Dev) (k j : Nat) (x : Slot) : (e.setSlot k x).slot j = if j = k then x else e.slot j := FMap.get_put ..
  cases a <;> cases b <;> simp [Dev.boardWrites, hslot] <;> exact ⟨rfl, rfl⟩

theorem bootAuthentication_spec (s : State) (a b : Option Slot) (x0 x1 x y : Slot) (k : Nat) (h : s.dev.rst.phase = .rom)
    (h0 : x0 = a.getD (s.dev.slot 0)) (h1 : x1 = b.getD (s.dev.slot 1))
    (hk : k = (if s.dev.svc.activated then 1 - s.dev.svc.slot else if x0.generation.toNat < x1.generation.toNat then 1 else 0))
    (hxy : (x, y) = (if k = 1 then (x1, x0) else (x0, x1))) :
    ∃ u, exec (.bootAuthentication a b) s = .next u ∧ u.dev.rst.phase = .booted ∧
      (x.image = none → y.image = none → u.dev.svc.mode = .recovery) ∧
      (∀ h, x.image = some h → u.dev.svc.mode = .normal ∧ u.dev.svc.slot = k ∧ u.dev.svc.fellBack = false ∧ u.dev.clk.cclk = h.cclk) ∧
      ∀ h, x.image = none → y.image = some h → u.dev.svc.mode = .normal ∧ u.dev.svc.slot = 1 - k ∧ u.dev.svc.fellBack = true ∧ u.dev.clk.cclk = h.cclk := by
  obtain ⟨hs0, hs1, hact, hslot⟩ := s.dev.boardWrites_spec a b
  obtain ⟨d, hd⟩ : ∃ d, d = (s.dev.boardWrites 0 a).boardWrites 1 b := ⟨_, rfl⟩
  rw [← hd, ← h0] at hs0
  rw [← hd, ← h1] at hs1
  rw [← hd] at hact hslot
  have hexec : exec (.bootAuthentication a b) s = .next ⟨d.trySlots k, s.pending⟩ := by
    show execBootAuthentication a b s = _
    rw [execBootAuthentication, State.dev!_next, decide_eq_true h, Dev.when_true, ← hd]
    dsimp only
    unfold firstSlot Dev.otherSlot
    rw [hs0, hs1, hact, hslot, ← hk]
  have hpair : d.slot k = x ∧ d.slot (1 - k) = y := by
    have hk1 : k = 0 ∨ k = 1 := by
      rw [hk]
      split
      · omega
      · split <;> simp
    rcases hk1 with h | h <;> subst h
    · obtain ⟨rfl, rfl⟩ := Prod.mk.inj hxy
      exact ⟨hs0, hs1⟩
    · obtain ⟨rfl, rfl⟩ := Prod.mk.inj hxy
      exact ⟨hs1, hs0⟩
  have htry := d.trySlots_spec k
  rw [hpair.1, hpair.2] at htry
  exact ⟨_, hexec, htry⟩

theorem bistComplete_spec (s : State) (h : s.dev.rst.phase = .booted) (hm : s.dev.svc.mode ≠ .recovery) :
    ∃ u, exec (.bistComplete []) s = .next u ∧ u.dev.rst.phase = .tested ∧ u.dev.mct.state = 1 ∧ u.dev.cru = s.dev.cru ∧
      s.dev.onlyChanges u.dev [.rst, .mct] := by
  refine ⟨⟨{ s.dev with rst := { s.dev.rst with phase := .tested }, mct := { s.dev.mct with state := 1 } }, s.pending⟩, ?_, rfl, rfl, rfl,
    by simp [Dev.onlyChanges_iff]⟩
  show execBistComplete [] s = _
  rw [execBistComplete, State.dev!_next, show (decide (s.dev.rst.phase = .booted) && decide (s.dev.svc.mode ≠ .recovery)) = true by simp [h, hm],
    Dev.when_true]
  rfl

theorem deviceReady_trained (s : State) (h : s.dev.rst.phase = .trained) :
    ∃ u, exec .deviceReady s = .next u ∧ u.dev.rst.phase = .ready ∧ s.dev.onlyChanges u.dev [.rst] := by
  refine ⟨⟨{ s.dev with rst := { s.dev.rst with phase := .ready } }, s.pending⟩, ?_, rfl, by simp [Dev.onlyChanges_iff]⟩
  show execDeviceReady s = _
  rw [execDeviceReady, State.dev!_next]
  dsimp only
  rw [h]

theorem deviceReady_recovery (s : State) (h : s.dev.rst.phase = .booted) (hm : s.dev.svc.mode = .recovery) :
    ∃ u, exec .deviceReady s = .next u ∧ u.dev.rst.phase = .ready ∧ s.dev.onlyChanges u.dev [.rst, .ports] := by
  obtain ⟨d, hd, hphase, honly⟩ : ∃ d : Dev, d = { s.dev with rst := { s.dev.rst with phase := .ready } } ∧ d.rst.phase = .ready ∧
      s.dev.onlyChanges d [.rst, .ports] := ⟨_, rfl, rfl, by simp [Dev.onlyChanges_iff]⟩
  refine ⟨⟨d.supervise, s.pending⟩, ?_, (congrArg Resets.phase (show d.supervise.rst = d.rst by simp)).trans hphase,
    Dev.onlyChanges_trans honly (by simp [Dev.onlyChanges_iff])⟩
  show execDeviceReady s = _
  rw [execDeviceReady, State.dev!_next, hd]
  dsimp only
  rw [h]
  dsimp only
  rw [if_pos hm]

/-! ## Warm resets -/

theorem Dev.warmTrigger_ignored (kind : Nat) {d : Dev} (h : d.rst.phase ≠ .ready ∨ d.rst.warm ≠ 0) : d.warmTrigger kind = d := by
  unfold Dev.warmTrigger
  rw [if_pos h]

theorem triggers_ignored (s : State) (h : s.dev.rst.phase ≠ .ready ∨ s.dev.rst.warm ≠ 0) : exec .hotReset s = .next s ∧
    exec .pfFunctionLevelReset s = .next s ∧ ∀ v, exec (.functionLevelReset v) s = .next s := by
  refine ⟨?_, ?_, fun v => ?_⟩
  · show s.dev! (Dev.warmTrigger 1) = _
    rw [State.dev!_next, Dev.warmTrigger_ignored 1 h]
  · show s.dev! (Dev.warmTrigger 3) = _
    rw [State.dev!_next, Dev.warmTrigger_ignored 3 h]
  · show execFunctionLevelReset v s = _
    rw [execFunctionLevelReset, State.dev!_next, show (decide (v.val ≠ 0) && decide (s.dev.rst.phase = .ready) && decide (s.dev.rst.warm = 0)) = false by
      rcases h with h | h <;> simp [h]]
    rfl

theorem Dev.warmTrigger_spec (kind : Nat) {d : Dev} (h : d.rst.phase = .ready) (hw : d.rst.warm = 0) : (d.warmTrigger kind).rst.warm = kind ∧
    (d.warmTrigger kind).canvases = [] ∧ (d.warmTrigger kind).chans = [] ∧ (d.warmTrigger kind).engines = [] ∧
    (d.warmTrigger kind).scene.admQ = [] ∧ (d.warmTrigger kind).mem = d.mem := by
  unfold Dev.warmTrigger
  rw [if_neg (by simp [h, hw])]
  exact ⟨rfl, rfl, rfl, rfl, rfl, rfl⟩

theorem warm_spec (s : State) (h : s.dev.rst.phase = .ready) (hw : s.dev.rst.warm = 0) (hm : s.dev.mayWriteReg 0 .hif 0 HIF_RST)
    (ha : s.dev.armed PType.hif.page 0 = true) : ∃ u, exec (.warm 0) s = .next u ∧ u.dev.rst.warm = 2 ∧ u.dev.canvases = [] ∧ u.dev.chans = [] ∧
      u.dev.engines = [] ∧ u.dev.scene.admQ = [] ∧ u.dev.mem = s.dev.mem := by
  have hexec : exec (.warm 0) s = .next ⟨(s.dev.setArm 0 0 false).warmTrigger 2, s.pending⟩ := by
    show s.dev! (Dev.regWrite (0 : Fn) .hif 0 HIF_RST 1) = _
    rw [State.dev!_next, Dev.regWrite_warm hm ha, if_pos (by rfl)] <;> rfl
  exact ⟨_, hexec, Dev.warmTrigger_spec 2 (d := s.dev.setArm 0 0 false) h hw⟩

theorem Dev.warmPages_spec (d : Dev) : d.warmPages.acc = {} ∧ d.warmPages.tb = d.tb ∧ d.warmPages.scene = d.scene ∧ d.warmPages.rst = d.rst := by
  have hfold (l : List Nat) (a e : Dev) : (l.foldl (fun e k => pllControl k (a.reg .ckr 0 (CKR_PLL + 4 * k)) (e.reg .ckr 0 (CKR_PLL + 4 * k)) e) e).acc = e.acc ∧
      (l.foldl (fun e k => pllControl k (a.reg .ckr 0 (CKR_PLL + 4 * k)) (e.reg .ckr 0 (CKR_PLL + 4 * k)) e) e).tb = e.tb ∧
      (l.foldl (fun e k => pllControl k (a.reg .ckr 0 (CKR_PLL + 4 * k)) (e.reg .ckr 0 (CKR_PLL + 4 * k)) e) e).scene = e.scene ∧
      (l.foldl (fun e k => pllControl k (a.reg .ckr 0 (CKR_PLL + 4 * k)) (e.reg .ckr 0 (CKR_PLL + 4 * k)) e) e).rst = e.rst := by
    induction l generalizing e with
    | nil => exact ⟨rfl, rfl, rfl, rfl⟩
    | cons k l ih =>
      obtain ⟨h1, h2, h3, h4⟩ := ih (pllControl k (a.reg .ckr 0 (CKR_PLL + 4 * k)) (e.reg .ckr 0 (CKR_PLL + 4 * k)) e)
      exact ⟨h1.trans (by simp), h2.trans (by simp), h3.trans (by simp), h4.trans (by simp)⟩
  obtain ⟨h1, h2, h3, h4⟩ := hfold (List.range 8) d { d with
    regs := d.regs.warm, acc := {}, ledger := {}
    regions := d.regions.map fun (e : Nat × Region) => (e.1, e.2.warm)
    cru := { d.cru with corrected := 0, uncorr := 0, lastOff := 0, passes := 0 }
    mct := { d.mct with moves := 0 }
    flt := { d.flt with cfg := [], rdDone := false, rdMatch := false, rdMid := 0, rdWords := [] } }
  exact ⟨h1, h2, h3, h4⟩

theorem warmResetComplete_spec (s : State) (h : s.dev.rst.warm ≠ 0) :
    ∃ u, exec .warmResetComplete s = .next u ∧ u.dev.rst.warm = 0 ∧ u.dev.acc = {} ∧ u.dev.tb = s.dev.tb ∧ u.dev.scene.flight = [] ∧
      ∃ f ∈ u.dev.flt.arrivals, f.src = 0 := by
  have hexec : exec .warmResetComplete s = .next ⟨s.dev.warmDone, s.pending⟩ := by
    show execWarmResetComplete s = _
    rw [execWarmResetComplete, State.dev!_next, decide_eq_true h, Dev.when_true]
  refine ⟨_, hexec, ?_⟩
  dsimp only
  obtain ⟨a, ha, hacc, htb, hflight⟩ : ∃ a, a = s.dev.landFlight.warmPages ∧ a.acc = {} ∧ a.tb = s.dev.tb ∧ a.scene.flight = [] := by
    obtain ⟨h1, h2, h3, -⟩ := s.dev.landFlight.warmPages_spec
    exact ⟨_, rfl, h1, h2.trans (by simp), congrArg Scene.flight h3⟩
  obtain ⟨b, hb, hbacc, hbtb, hbscene, hbwarm⟩ : ∃ b : Dev, b = { a with
      hif := if s.dev.rst.warm = 2 then a.hif else { a.hif with msix := [], msixPend := [] }, rst := { a.rst with warm := 0 },
      comp := { a.comp with stepAt := a.time } } ∧ b.acc = a.acc ∧ b.tb = a.tb ∧ b.scene = a.scene ∧ b.rst.warm = 0 := ⟨_, rfl, rfl, rfl, rfl, rfl⟩
  obtain ⟨c, hc, hcacc, hctb, hcflight, hcwarm, x, hx, hsrc⟩ : ∃ c : Dev, c = (b.supervise.rebudget).fire 0 0 (dbits 0 s.dev.rst.warm) ∧ c.acc = {} ∧
      c.tb = s.dev.tb ∧ c.scene.flight = [] ∧ c.rst.warm = 0 ∧ ∃ f ∈ c.flt.arrivals, f.src = 0 := by
    refine ⟨_, rfl, ?_, ?_, ?_, ?_, _, List.mem_append_right _ (List.mem_singleton_self _), rfl⟩
    · exact (show _ = b.acc by simp).trans (hbacc.trans hacc)
    · exact (show _ = b.tb by simp).trans (hbtb.trans htb)
    · exact (congrArg Scene.flight (show _ = b.scene by simp)).trans ((congrArg Scene.flight hbscene).trans hflight)
    · exact (congrArg Resets.warm (show _ = b.rst by simp)).trans hbwarm
  have hdone : s.dev.warmDone = c ∨ ∃ h, s.dev.warmDone = c.boot c.otherSlot h false := by
    unfold Dev.warmDone
    dsimp only
    rw [← ha, ← hb, ← hc]
    split
    · exact .inr ⟨_, rfl⟩
    · exact .inl rfl
  rcases hdone with hdone | ⟨i, hdone⟩ <;> rw [hdone]
  · exact ⟨hcwarm, hcacc, hctb, hcflight, x, hx, hsrc⟩
  · obtain ⟨-, -, -, -, -, hwarm, hkept⟩ := c.boot_spec c.otherSlot i false
    exact ⟨hwarm.trans hcwarm, (show _ = c.acc by simp).trans hcacc, (show _ = c.tb by simp).trans hctb,
      (congrArg Scene.flight (show _ = c.scene by simp)).trans hcflight, x, hkept.kept x hx, hsrc⟩

/-! ## The windows of a function that is reset -/

theorem Dev.flrOf_setFlr (v : Nat) (x : Flr) (d : Dev) : (d.setFlr v x).flrOf v = x := FMap.get_put_same ..

/-- With nothing left to clear the reset of a function is over. -/
theorem Dev.issueClears_done (v n : Nat) {d : Dev} (h : (d.flrOf v).todo = []) : d.issueClears v (n + 1) = d.setFlr v {} := by
  unfold Dev.issueClears
  dsimp only
  rw [h]

section
variable {s : State} {v : Fn} (ha : (s.dev.flrOf v).active = true) (hd : s.dev.flrDrained v = true) (hc : (s.dev.flrOf v).clearing = false)
include ha hd hc

theorem flrWindowClear_exec : exec (.flrWindowClear v) s = .next ⟨(s.dev.setFlr v { active := true, clearing := true, todo := s.dev.flrWindows v }).issueClears v 17,
    s.pending⟩ := by
  show execFlrWindowClear v s = _
  rw [execFlrWindowClear, State.dev!_next]
  dsimp only
  rw [ha, hd, Bool.and_true, Dev.when_true, if_neg (by rw [hc]; decide)]

theorem flrWindowClear_empty (h : s.dev.flrWindows v = []) : ∃ u, exec (.flrWindowClear v) s = .next u ∧ u.dev.flrOf v = {} ∧
    s.dev.onlyChanges u.dev [.rst] := by
  refine ⟨_, flrWindowClear_exec ha hd hc, ?_⟩
  dsimp only
  rw [Dev.issueClears_done v 16 (by rw [Dev.flrOf_setFlr]; exact h)]
  exact ⟨Dev.flrOf_setFlr .., by simp [Dev.onlyChanges_iff]⟩

theorem flrWindowClear_issues (lent : Nat) (h : s.dev.flrWindows v ≠ []) (hlen : (s.dev.flrWindows v).length ≤ 2048)
    (hst : s.dev.stagingFor 256 0 = some lent) : ∃ u, exec (.flrWindowClear v) s = .next u ∧ u.dev.flrOf v = {} ∧
      s.dev.onlyChanges u.dev [.rst, .scene] ∧ u.dev.scene.admQ = s.dev.scene.admQ ++ [AdmReq.clear v (s.dev.flrWindows v) lent] := by
  refine ⟨_, flrWindowClear_exec ha hd hc, ?_⟩
  dsimp only
  generalize s.dev.flrWindows v = ws at *
  obtain ⟨d, hdd, htodo, hstaging, hadm, honly⟩ : ∃ d, d = s.dev.setFlr v { active := true, clearing := true, todo := ws } ∧
      d.flrOf v = { active := true, clearing := true, todo := ws } ∧ d.stagingFor 256 0 = some lent ∧ d.scene = s.dev.scene ∧
      s.dev.onlyChanges d [.rst, .scene] := ⟨_, rfl, Dev.flrOf_setFlr .., hst, rfl, by simp [Dev.onlyChanges_iff]⟩
  rw [← hdd]
  obtain ⟨e, he, heq⟩ : ∃ e : Dev, e = ({ d with scene := { d.scene with admQ := d.scene.admQ ++ [AdmReq.clear v ws lent] } } : Dev).setFlr v
      { active := true, clearing := true, todo := [] } ∧ d.issueClears v 17 = e.setFlr v {} := by
    refine ⟨_, rfl, ?_⟩
    rw [← Dev.issueClears_done v 15 (by rw [Dev.flrOf_setFlr])]
    rw [Dev.issueClears]
    dsimp only
    rw [htodo, hstaging]
    dsimp only
    cases ws with
    | nil => exact absurd rfl h
    | cons w ws => rw [List.take_of_length_le hlen, List.drop_of_length_le hlen]
  rw [heq]
  refine ⟨Dev.flrOf_setFlr .., Dev.onlyChanges_trans honly (by rw [he]; simp [Dev.onlyChanges_iff]), ?_⟩
  rw [he]
  show d.scene.admQ ++ _ = _
  rw [hadm]

end

end Sys2Proof.Machine
end

section
/-!
PROOF of O59, second part: what start-up training finds on the lanes, and what Faruo writes from it.
-/
namespace Sys2Proof.Machine
set_option Elab.async false

/-! ## The lanes -/

/-- A lane's settings are kept, and a dead lane stays dead; the sites and the registers are as they were. -/
structure Dev.LanesHold (d e : Dev) : Prop where
  cur : ∀ l, (e.lane l).cur = (d.lane l).cur
  dead : ∀ l, (d.lane l).state = .dead → (e.lane l).state = .dead
  sites : e.mct.sites = d.mct.sites
  regs : e.regs = d.regs

theorem Dev.LanesHold.of_mct {d e : Dev} (hl : e.mct.lanes = d.mct.lanes) (hs : e.mct.sites = d.mct.sites) (hr : e.regs = d.regs) : d.LanesHold e :=
  ⟨fun l => by rw [Dev.lane_congr hl], fun l h => by rw [Dev.lane_congr hl, h], hs, hr⟩

theorem Dev.LanesHold.refl (d : Dev) : d.LanesHold d := .of_mct rfl rfl rfl

theorem Dev.LanesHold.trans {a b c : Dev} (h : a.LanesHold b) (h' : b.LanesHold c) : a.LanesHold c :=
  ⟨fun l => (h'.cur l).trans (h.cur l), fun l hl => h'.dead l (h.dead l hl), h'.sites.trans h.sites, h'.regs.trans h.regs⟩

theorem Dev.LanesHold.setLane {d : Dev} {l : Nat} {x : Lane} (hc : x.cur = (d.lane l).cur) (hs : (d.lane l).state ≠ .dead) :
    d.LanesHold (d.setLane l x) := by
  refine ⟨fun k => ?_, fun k hk => ?_, rfl, rfl⟩
  · by_cases h : k = l
    · rw [h, Dev.lane_setLane, hc]
    · rw [Dev.lane_setLane_ne _ _ h]
  · by_cases h : k = l
    · exact absurd (h ▸ hk) hs
    · rw [Dev.lane_setLane_ne _ _ h, hk]

theorem Dev.foldl_lanesHold {β : Type} {step : Dev → β → Dev} (h : ∀ (d : Dev) b, d.LanesHold (step d b)) (l : List β) (d : Dev) :
    d.LanesHold (l.foldl step d) := by
  induction l generalizing d with
  | nil => exact .refl d
  | cons b l ih => exact (h d b).trans (ih _)

theorem Dev.nextRetrain_lanesHold (g : Nat) (d : Dev) : d.LanesHold (d.nextRetrain g) := by
  unfold Dev.nextRetrain
  split
  · next l _ hw =>
    refine .setLane rfl fun hd => ?_
    unfold Dev.waitingLane at hw
    have hwait : (d.lane l).state = .waiting := by simpa using List.find?_some hw
    exact absurd (hwait.symm.trans hd) (by decide)
  · exact .refl d
  · exact .refl d

theorem Dev.laneOff_lanesHold (s : Nat) (d : Dev) (k : Nat) : d.LanesHold (d.laneOff s k) := by
  unfold Dev.laneOff
  dsimp only
  refine .trans ?_ (Dev.nextRetrain_lanesHold ..)
  split
  · exact .refl d
  · next hd => exact .setLane rfl hd

theorem Dev.startLanes_lanesHold (d : Dev) : d.LanesHold d.startLanes := by
  unfold Dev.startLanes
  refine Dev.foldl_lanesHold (fun e s => ?_) _ d
  rw [Dev.lanesOff_eq]
  exact Dev.foldl_lanesHold (fun f k => f.laneOff_lanesHold s k) _ e

/-- With no site fenced no lane leaves its work. -/
theorem Dev.startLanes_none {d : Dev} (h : ∀ j, j < 18 → (d.site j).fenced = false) : d.startLanes = d := by
  unfold Dev.startLanes
  rw [List.filter_eq_nil_iff.mpr fun j hj => by rw [h j (List.mem_range.mp hj)]; decide, List.foldl_nil]

theorem Dev.startSites_kept (d : Dev) : d.startSites.mct.lanes = d.mct.lanes ∧ d.startSites.mct.sites = d.mct.sites := by
  have hfires (l : List Nat) (e : Dev) (x : Nat → BitVec 128) : (l.foldl (fun d p => d.fire 515 p (x p)) e).mct = e.mct := by
    induction l generalizing e with
    | nil => rfl
    | cons p l ih => exact ih _
  have hend (e : Dev) (b : Prop) [Decidable b] (x : BitVec 128) : (if b then e.fire 517 0 x else e).mct = e.mct := by
    split <;> rfl
  unfold Dev.startSites
  dsimp only
  rw [hend, hfires]
  split
  · exact ⟨rfl, rfl⟩
  · exact ⟨rfl, rfl⟩
  · exact ⟨rfl, rfl⟩

/-! ## What training finds -/

/-- Training of one lane: the settings chosen are its own, a lane with too small an eye is dead and its site fenced, and no other lane changes. -/
theorem Dev.trainLane_spec (l : Nat) (p : LanePasses) (d : Dev) : (d.trainLane l p).regs = d.regs ∧
    (∀ k, k ≠ l → (d.trainLane l p).lane k = d.lane k) ∧ ((d.trainLane l p).lane l).cur = (trainedLane p (d.lane l).cur).set ∧
    (∀ j, (d.site j).fenced = true → ((d.trainLane l p).site j).fenced = true) ∧
    (if d.minEye ≤ (trainedLane p (d.lane l).cur).rdRun ∧ d.minEye ≤ (trainedLane p (d.lane l).cur).wrRun then
      ((d.trainLane l p).lane l).state = .tracking ∧ (d.trainLane l p).mct.sites = d.mct.sites
    else ((d.trainLane l p).lane l).state = .dead ∧ ((d.trainLane l p).site (l / 4)).fenced = true) := by
  unfold Dev.trainLane
  dsimp only
  generalize trainedLane p (d.lane l).cur = r
  by_cases h : d.minEye ≤ r.rdRun ∧ d.minEye ≤ r.wrRun
  · rw [if_pos h, if_pos h]
    refine ⟨rfl, fun k hk => Dev.lane_setLane_ne _ _ hk, ?_, fun j hj => hj, ?_, rfl⟩
    · rw [Dev.lane_setLane]
    · rw [Dev.lane_setLane]
  · rw [if_neg h, if_neg h]
    obtain ⟨x, hx, hcur, hdead⟩ : ∃ x : Lane, x = { d.lane l with cur := r.set, trn := r.set, state := .dead } ∧ x.cur = r.set ∧ x.state = .dead :=
      ⟨_, rfl, rfl, rfl⟩
    obtain ⟨y, hy, hfen⟩ : ∃ y : Site, y = { d.site (l / 4) with fenced := true, cause := 1 } ∧ y.fenced = true := ⟨_, rfl, rfl⟩
    rw [← hx, ← hy]
    obtain ⟨e, he, hlanes, hsites⟩ : ∃ e : Dev, e = ((d.setLane l x).setSite (l / 4) y).fire 545 l (dbits 0 1) ∧
        e.mct.lanes = (d.setLane l x).mct.lanes ∧ e.mct.sites = (d.setSite (l / 4) y).mct.sites := ⟨_, rfl, rfl, rfl⟩
    have hregs : e.regs = d.regs := by rw [he]; rfl
    rw [← he]
    refine ⟨hregs, fun k hk => ?_, ?_, fun j hj => ?_, ?_, ?_⟩
    · rw [Dev.lane_congr hlanes, Dev.lane_setLane_ne _ _ hk]
    · rw [Dev.lane_congr hlanes, Dev.lane_setLane, hcur]
    · rw [Dev.site_congr hsites]
      by_cases hjl : j = l / 4
      · rw [hjl, Dev.site_setSite, hfen]
      · rw [Dev.site_setSite_ne _ _ hjl, hj]
    · rw [Dev.lane_congr hlanes, Dev.lane_setLane, hdead]
    · rw [Dev.site_congr hsites, Dev.site_setSite, hfen]

/-- The eye that training found on a lane with settings `x` is large enough. -/
def eyeOpens (p : LanePasses) (minEye : Nat) (x : LaneSet) : Prop :=
  minEye ≤ (trainedLane p x).rdRun ∧ minEye ≤ (trainedLane p x).wrRun

/-- What training of the lanes of a list has found on them. -/
structure Dev.Trained (d e : Dev) (t : List (LanePasses × Nat)) : Prop where
  regs : e.regs = d.regs
  others : ∀ k, (∀ x ∈ t, x.2 ≠ k) → e.lane k = d.lane k
  cur : ∀ x ∈ t, (e.lane x.2).cur = (trainedLane x.1 (d.lane x.2).cur).set
  fenced : ∀ j, (d.site j).fenced = true → (e.site j).fenced = true
  fails : ∀ x ∈ t, ¬ eyeOpens x.1 d.minEye (d.lane x.2).cur → (e.lane x.2).state = .dead ∧ (e.site (x.2 / 4)).fenced = true
  passes : ∀ x ∈ t, eyeOpens x.1 d.minEye (d.lane x.2).cur → (e.lane x.2).state = .tracking
  sites : (∀ x ∈ t, eyeOpens x.1 d.minEye (d.lane x.2).cur) → e.mct.sites = d.mct.sites

theorem Dev.foldl_trainLane {t : List (LanePasses × Nat)} (hn : (t.map Prod.snd).Nodup) (d : Dev) :
    d.Trained (t.foldl (fun d x => d.trainLane x.2 x.1) d) t := by
  induction t generalizing d with
  | nil => exact ⟨rfl, fun _ _ => rfl, nofun, fun _ h => h, nofun, nofun, fun _ => rfl⟩
  | cons x t ih =>
    rw [List.map_cons, List.nodup_cons] at hn
    obtain ⟨hx, hn⟩ := hn
    have hfresh : ∀ y ∈ t, y.2 ≠ x.2 := fun y hy h => hx (h ▸ List.mem_map_of_mem hy)
    obtain ⟨hregs, hothers, hcur, hfenced, hjudge⟩ := d.trainLane_spec x.2 x.1
    have ht := ih hn (d.trainLane x.2 x.1)
    rw [List.foldl_cons]
    generalize d.trainLane x.2 x.1 = b at *
    generalize t.foldl (fun d x => d.trainLane x.2 x.1) b = e at *
    have heye : b.minEye = d.minEye := Dev.fld_congr hregs ..
    have hlane (y) (hy : y ∈ t) : b.lane y.2 = d.lane y.2 := hothers _ (hfresh y hy)
    have hlast : e.lane x.2 = b.lane x.2 := ht.others _ hfresh
    refine ⟨ht.regs.trans hregs, fun k hk => ?_, fun y hy => ?_, fun j hj => ht.fenced j (hfenced j hj), fun y hy hbad => ?_, fun y hy hok => ?_,
      fun hall => ?_⟩
    · rw [ht.others k fun y hy => hk y (List.mem_cons_of_mem _ hy), hothers k fun h => hk x List.mem_cons_self h.symm]
    · rcases List.mem_cons.mp hy with rfl | hy
      · rw [hlast, hcur]
      · rw [ht.cur y hy, hlane y hy]
    · rcases List.mem_cons.mp hy with rfl | hy
      · unfold eyeOpens at hbad
        rw [if_neg hbad] at hjudge
        rw [hlast]
        exact ⟨hjudge.1, ht.fenced _ hjudge.2⟩
      · exact ht.fails y hy (by rw [heye, hlane y hy]; exact hbad)
    · rcases List.mem_cons.mp hy with rfl | hy
      · unfold eyeOpens at hok
        rw [if_pos hok] at hjudge
        rw [hlast]
        exact hjudge.1
      · exact ht.passes y hy (by rw [heye, hlane y hy]; exact hok)
    · have hhead := hall x List.mem_cons_self
      unfold eyeOpens at hhead
      rw [if_pos hhead] at hjudge
      refine (ht.sites fun y hy => ?_).trans hjudge.2
      rw [heye, hlane y hy]
      exact hall y (List.mem_cons_of_mem _ hy)

/-- The lanes that training goes through are distinct, and lane `l` is among them with what its sweeps gave. -/
theorem trained_list (lanes : List LanePasses) : ((lanes.zipIdx.take 72).map Prod.snd).Nodup ∧
    (∀ x ∈ lanes.zipIdx.take 72, lanes[x.2]? = some x.1) ∧ ∀ l p, l < 72 → lanes[l]? = some p → (p, l) ∈ lanes.zipIdx.take 72 := by
  refine ⟨?_, fun x hx => ?_, fun l p hl hp => ?_⟩
  · rw [List.map_take, List.zipIdx_map_snd]
    exact (List.nodup_range' ..).sublist (List.take_sublist ..)
  · have := List.mem_zipIdx_iff_getElem?.mp (List.mem_of_mem_take hx)
    simpa using this
  · refine List.mem_iff_getElem?.mpr ⟨l, ?_⟩
    rw [List.getElem?_take_of_lt hl, List.getElem?_zipIdx, hp]
    simp

/-! ## What Faruo writes from it -/

theorem bits_testBit (w : Word) (hi lo j : Nat) : (bits w hi lo).testBit j = (decide (j < hi + 1 - lo) && w.getLsbD (lo + j)) := by
  unfold bits
  rw [Nat.testBit_mod_two_pow, Nat.testBit_shiftRight]
  rfl

/-- The two fields of MCT_REF that Faruo writes hold the timing. -/
theorem refWord_fields (w : Word) (a b : Nat) : bits ((w &&& 0xF0000000) ||| place 25 16 a ||| place 9 0 b) 25 16 = a % 1024 ∧
    bits ((w &&& 0xF0000000) ||| place 25 16 a ||| place 9 0 b) 9 0 = b % 1024 := by
  have hplace (hi lo v n : Nat) (hn : n < 32) : (place hi lo v).getLsbD n = (decide (lo ≤ n) && (v % 2 ^ (hi + 1 - lo)).testBit (n - lo)) := by
    unfold place
    rw [BitVec.getLsbD_ofNat, decide_eq_true hn, Bool.true_and, Nat.testBit_shiftLeft]
  have hmask : ∀ n < 28, (0xF0000000 : Word).getLsbD n = false := by decide
  refine ⟨Nat.eq_of_testBit_eq fun j => ?_, Nat.eq_of_testBit_eq fun j => ?_⟩
  · rw [bits_testBit]
    have hhigh : (b % 2 ^ (9 + 1 - 0)).testBit (16 + j - 0) = false :=
      Nat.testBit_lt_two_pow ((Nat.mod_lt b (by decide)).trans_le (Nat.pow_le_pow_right (by decide) (by omega)))
    by_cases hj : j < 10
    · rw [BitVec.getLsbD_or, BitVec.getLsbD_or, BitVec.getLsbD_and, hmask (16 + j) (by omega), hplace _ _ _ _ (by omega), hplace _ _ _ _ (by omega),
        hhigh]
      simp [hj]
    · rw [show decide (j < 25 + 1 - 16) = false by simpa using hj, Bool.false_and]
      exact (Nat.testBit_lt_two_pow ((Nat.mod_lt a (show 0 < 1024 by decide)).trans_le (Nat.pow_le_pow_right (n := 2) (i := 10) (by decide) (by omega)))).symm
  · rw [bits_testBit]
    by_cases hj : j < 10
    · rw [BitVec.getLsbD_or, BitVec.getLsbD_or, BitVec.getLsbD_and, hmask (0 + j) (by omega), hplace _ _ _ _ (by omega), hplace _ _ _ _ (by omega),
        show decide (16 ≤ 0 + j) = false from decide_eq_false (by omega)]
      simp [hj]
    · rw [show decide (j < 9 + 1 - 0) = false by simpa using hj, Bool.false_and]
      exact (Nat.testBit_lt_two_pow ((Nat.mod_lt b (show 0 < 1024 by decide)).trans_le (Nat.pow_le_pow_right (n := 2) (i := 10) (by decide) (by omega)))).symm

/-- The timing that training arrived at stands in MCT_REF; lanes, sites and the controller's state are as they were. -/
theorem Dev.writeTiming_spec (t : MemTiming) (d : Dev) : (d.writeTiming t).mct.state = d.mct.state ∧ (d.writeTiming t).mct.lanes = d.mct.lanes ∧
    (d.writeTiming t).mct.sites = d.mct.sites ∧
    bits ((d.writeTiming t).reg .mct 0 MCT_REF) 25 16 = t.rfc.toNat % 1024 ∧ bits ((d.writeTiming t).reg .mct 0 MCT_REF) 9 0 = t.int.toNat % 1024 := by
  have hgangs (w : Word) (l : List Nat) (e : Dev) : (l.foldl (fun d g => d.setGang g { d.gang g with ref := w }) e).mct.state = e.mct.state ∧
      (l.foldl (fun d g => d.setGang g { d.gang g with ref := w }) e).mct.lanes = e.mct.lanes ∧
      (l.foldl (fun d g => d.setGang g { d.gang g with ref := w }) e).mct.sites = e.mct.sites ∧
      (l.foldl (fun d g => d.setGang g { d.gang g with ref := w }) e).regs = e.regs := by
    induction l generalizing e with
    | nil => exact ⟨rfl, rfl, rfl, rfl⟩
    | cons g l ih => exact ih _
  obtain ⟨a, w, ha, hw, hstate, hlanes, hsites⟩ : ∃ (a : Dev) (w : Word), a = { d with mct := { d.mct with timing := t } } ∧
      w = (d.reg .mct 0 MCT_REF &&& 0xF0000000) ||| place 25 16 t.rfc.toNat ||| place 9 0 t.int.toNat ∧ a.mct.state = d.mct.state ∧
      a.mct.lanes = d.mct.lanes ∧ a.mct.sites = d.mct.sites := ⟨_, _, rfl, rfl, rfl, rfl, rfl⟩
  obtain ⟨b, hb, hbmct, hbreg⟩ : ∃ b : Dev, b = a.setReg .mct 0 MCT_REF w ∧ b.mct = a.mct ∧ b.reg .mct 0 MCT_REF = w := ⟨_, rfl, rfl, Dev.reg_setReg ..⟩
  obtain ⟨h1, h2, h3, h4⟩ := hgangs w (List.range 4) b
  obtain ⟨c, hc⟩ : ∃ c : Dev, c = (List.range 4).foldl (fun d g => d.setGang g { d.gang g with ref := w }) b := ⟨_, rfl⟩
  rw [← hc] at h1 h2 h3 h4
  obtain ⟨e, he, hemct, heregs⟩ : ∃ e : Dev, e = { c with svc := { c.svc with frFor := (t.rfc.toNat, c.clk.cclk) } } ∧ e.mct = c.mct ∧ e.regs = c.regs :=
    ⟨_, rfl, rfl, rfl⟩
  have hrun : d.writeTiming t = e.setReg .ldg 0 LDG_DERATE (place 15 0 (frCycles t.rfc.toNat e.clk.cclk)) := by
    rw [he, hc, hb, hw, ha]
    rfl
  have href : (d.writeTiming t).reg .mct 0 MCT_REF = w := by
    rw [hrun, Dev.reg_setReg_ne _ _ (by decide), Dev.reg_congr (heregs.trans h4), hbreg]
  have hmct : (d.writeTiming t).mct = c.mct := by rw [hrun]; exact hemct
  rw [href, hmct, h1, h2, h3, hbmct, hw]
  exact ⟨hstate, hlanes, hsites, refWord_fields ..⟩

theorem memoryTrainingComplete_spec (s : State) (lanes : List LanePasses) (timing : MemTiming) (h : s.dev.rst.phase = .tested) :
    ∃ u, exec (.memoryTrainingComplete lanes timing) s = .next u ∧ u.dev.rst.phase = .trained ∧ u.dev.mct.state = 2 ∧
      (s.dev.flg .ckr 0 CKR_PLL 31 = true → u.dev.pllLocked 0 = true) ∧
      bits (u.dev.reg .mct 0 MCT_REF) 25 16 = timing.rfc.toNat % 1024 ∧
      bits (u.dev.reg .mct 0 MCT_REF) 9 0 = timing.int.toNat % 1024 ∧
      (∀ (l : Nat) (p : LanePasses) (r : LaneResult), l < 72 → lanes[l]? = some p →
        r = trainedLane p (s.dev.lane l).cur → (u.dev.lane l).cur = r.set ∧
          (r.rdRun < s.dev.minEye ∨ r.wrRun < s.dev.minEye →
            (u.dev.lane l).state = .dead ∧ (u.dev.site (l / 4)).fenced = true)) ∧
      (72 ≤ lanes.length → (∀ j, j < 18 → (s.dev.site j).fenced = false) →
        (∀ (l : Nat) (p : LanePasses), lanes[l]? = some p → s.dev.minEye ≤ (trainedLane p (s.dev.lane l).cur).rdRun ∧
          s.dev.minEye ≤ (trainedLane p (s.dev.lane l).cur).wrRun) →
        ∀ l, l < 72 → (u.dev.lane l).state = .tracking) := by
  obtain ⟨hnodup, hlist, hin⟩ := trained_list lanes
  obtain ⟨a, ha, htr⟩ : ∃ a, a = (lanes.zipIdx.take 72).foldl (fun d x => d.trainLane x.2 x.1) s.dev ∧ s.dev.Trained a (lanes.zipIdx.take 72) :=
    ⟨_, rfl, Dev.foldl_trainLane hnodup s.dev⟩
  obtain ⟨hslanes, hssites⟩ := a.startSites_kept
  have hsregs : a.startSites.regs = a.regs := by simp
  obtain ⟨b, hb, hhold, hnone⟩ : ∃ b, b = a.startSites.startLanes ∧ a.LanesHold b ∧ ((∀ j, j < 18 → (a.site j).fenced = false) → b.mct.lanes = a.mct.lanes) :=
    ⟨_, rfl, (Dev.LanesHold.of_mct hslanes hssites hsregs).trans (Dev.startLanes_lanesHold _), fun hf => by
      rw [Dev.startLanes_none fun j hj => by rw [Dev.site_congr hssites, hf j hj], hslanes]⟩
  obtain ⟨rate, hrate⟩ : ∃ rate, rate = (match (b.slot b.svc.slot).image with | some h => h.pinRate | none => 0) := ⟨_, rfl⟩
  obtain ⟨c, hc, hcstate, hcphase, hclanes, hcsites, hcregs⟩ : ∃ c : Dev, c = { b with
      mct := { b.mct with state := 2, rate := rate }, rst := { b.rst with phase := .trained } } ∧ c.mct.state = 2 ∧ c.rst.phase = .trained ∧
      c.mct.lanes = b.mct.lanes ∧ c.mct.sites = b.mct.sites ∧ c.regs = b.regs := ⟨_, rfl, rfl, rfl, rfl, rfl, rfl⟩
  obtain ⟨e, he, hemct, hephase, helock⟩ : ∃ e : Dev, e = (if c.flg .ckr 0 CKR_PLL 31 then c.setPllLocked 0 true else c) ∧ e.mct = c.mct ∧
      e.rst.phase = c.rst.phase ∧ (c.flg .ckr 0 CKR_PLL 31 = true → e.pllLocked 0 = true) := by
    refine ⟨_, rfl, ?_⟩
    split
    · exact ⟨rfl, rfl, fun _ => by rw [Dev.pllLocked_setPllLocked, if_pos rfl]⟩
    · next hn => exact ⟨rfl, rfl, fun hy => absurd hy hn⟩
  obtain ⟨f, hf⟩ : ∃ f, f = (e.writeTiming timing).supervise.rebudget := ⟨_, rfl⟩
  have hexec : exec (.memoryTrainingComplete lanes timing) s = .next ⟨s.dev.askTrained f, s.pending⟩ := by
    show execMemoryTrainingComplete lanes timing s = _
    rw [execMemoryTrainingComplete, State.dev!_next, decide_eq_true h, Dev.when_true, hf, he, hc, hrate, hb, ha] <;> rfl
  have hparts := s.dev.askTrained_onlyChanges f
  have humct : (s.dev.askTrained f).mct = (e.writeTiming timing).mct := (show f.mct = _ from hparts .mct (by decide)).symm.trans (by rw [hf]; simp)
  have huregs : (s.dev.askTrained f).regs = (e.writeTiming timing).regs := (show f.regs = _ from hparts .regs (by decide)).symm.trans (by rw [hf]; simp)
  have hurst : (s.dev.askTrained f).rst = e.rst := (show f.rst = _ from hparts .rst (by decide)).symm.trans (by rw [hf]; simp)
  have huclk : (s.dev.askTrained f).clk = e.clk := (show f.clk = _ from hparts .clk (by decide)).symm.trans (by rw [hf]; simp)
  obtain ⟨htstate, htlanes, htsites, hrfc, hint⟩ := e.writeTiming_spec timing
  rw [← humct] at htstate htlanes htsites
  rw [← Dev.reg_congr huregs] at hrfc hint
  rw [hemct] at htstate htlanes htsites
  have hlane (l : Nat) : (s.dev.askTrained f).lane l = b.lane l := Dev.lane_congr (htlanes.trans hclanes) l
  have hsite (j : Nat) : (s.dev.askTrained f).site j = a.site j := (Dev.site_congr (htsites.trans hcsites) j).trans (Dev.site_congr hhold.sites j)
  have hregs : c.regs = s.dev.regs := hcregs.trans (hhold.regs.trans htr.regs)
  refine ⟨_, hexec, (congrArg Resets.phase hurst).trans (hephase.trans hcphase), htstate.trans hcstate, fun hen => ?_, hrfc, hint, fun l p r hl hp hr => ?_,
    fun hlen hfen hpass l hl => ?_⟩
  · refine (show (s.dev.askTrained f).pllLocked 0 = e.pllLocked 0 by unfold Dev.pllLocked; rw [huclk]).trans (helock ?_)
    unfold Dev.flg
    rw [Dev.reg_congr hregs]
    exact hen
  · have hmem := hin l p hl hp
    refine ⟨(congrArg Lane.cur (hlane l)).trans ((hhold.cur l).trans ((htr.cur _ hmem).trans (by rw [hr]))), fun hbad => ?_⟩
    obtain ⟨hdead, hfenced⟩ := htr.fails _ hmem fun hok => by
      rw [hr] at hbad
      exact hbad.elim (fun hlt => absurd hok.1 (Nat.not_le.mpr hlt)) fun hlt => absurd hok.2 (Nat.not_le.mpr hlt)
    exact ⟨(congrArg Lane.state (hlane l)).trans (hhold.dead l hdead), (congrArg Site.fenced (hsite _)).trans hfenced⟩
  · obtain ⟨p, hp⟩ : ∃ p, lanes[l]? = some p := ⟨_, List.getElem?_eq_getElem (by omega)⟩
    have hall : ∀ x ∈ lanes.zipIdx.take 72, eyeOpens x.1 s.dev.minEye (s.dev.lane x.2).cur := fun x hx => hpass x.2 x.1 (hlist x hx)
    have hmem := hin l p hl hp
    have hlanes := hnone fun j hj => by rw [Dev.site_congr (htr.sites hall), hfen j hj]
    exact (congrArg Lane.state ((hlane l).trans (Dev.lane_congr hlanes l))).trans (htr.passes _ hmem (hall _ hmem))

end Sys2Proof.Machine
end

section
/-!
PROOF of O59, last part: a function-level reset disables and drains the queues of its function, and its ring.
-/
namespace Sys2Proof.Machine
set_option Elab.async false

/-! ## What the other steps leave of a queue and of a ring -/

/-- A queue runs on: its enable and its reset stand, and its state is as it was unless it ran and has halted. -/
structure Queue.RunsOn (x y : Queue) : Prop where
  en : y.en = x.en
  flr : y.flr = x.flr
  state : y.state = x.state ∨ x.state = .running ∧ y.state = .halted

theorem Queue.RunsOn.refl (x : Queue) : x.RunsOn x := ⟨rfl, rfl, .inl rfl⟩

theorem Queue.RunsOn.trans {x y z : Queue} (h : x.RunsOn y) (h' : y.RunsOn z) : x.RunsOn z := by
  refine ⟨h'.en.trans h.en, h'.flr.trans h.flr, ?_⟩
  rcases h.state with h1 | ⟨h1, h2⟩ <;> rcases h'.state with h3 | ⟨h3, h4⟩
  · exact .inl (h3.trans h1)
  · exact .inr ⟨h1.symm.trans h3, h4⟩
  · exact .inr ⟨h1, h3.trans h2⟩
  · exact absurd (h2.symm.trans h3) (by decide)

/-- Every queue runs on, and every ring's enable stands. -/
structure Dev.RunKept (d e : Dev) : Prop where
  queues : ∀ q, (d.queue q).RunsOn (e.queue q)
  rings : ∀ v, (e.ring v).en = (d.ring v).en

theorem Dev.RunKept.of_parts {d e : Dev} (hq : e.queues = d.queues) (hr : e.rings = d.rings) : d.RunKept e :=
  ⟨fun q => by unfold Dev.queue; rw [hq]; exact .refl _, fun v => by unfold Dev.ring; rw [hr]⟩

theorem Dev.RunKept.refl (d : Dev) : d.RunKept d := .of_parts rfl rfl

theorem Dev.RunKept.trans {a b c : Dev} (h : a.RunKept b) (h' : b.RunKept c) : a.RunKept c :=
  ⟨fun q => (h.queues q).trans (h'.queues q), fun v => (h'.rings v).trans (h.rings v)⟩

theorem Dev.RunKept.ite {c : Prop} [Decidable c] {d a b : Dev} (ha : d.RunKept a) (hb : d.RunKept b) : d.RunKept (if c then a else b) := by
  split
  · exact ha
  · exact hb

theorem Dev.foldl_runKept {β : Type} {step : Dev → β → Dev} (h : ∀ (d : Dev) b, d.RunKept (step d b)) (l : List β) (d : Dev) :
    d.RunKept (l.foldl step d) := by
  induction l generalizing d with
  | nil => exact .refl d
  | cons b l ih => exact (h d b).trans (ih _)

theorem Dev.setQueue_runKept {d : Dev} {q : Nat} {x : Queue} (h : (d.queue q).RunsOn x) : d.RunKept (d.setQueue q x) := by
  refine ⟨fun p => ?_, fun v => rfl⟩
  by_cases hp : p = q
  · rw [hp, Dev.queue_setQueue]
    exact h
  · rw [Dev.queue_setQueue_ne _ _ hp]
    exact .refl _

theorem Dev.setRing_runKept {d : Dev} {v : Nat} {x : NRing} (h : x.en = (d.ring v).en) : d.RunKept (d.setRing v x) := by
  refine ⟨fun q => .refl _, fun u => ?_⟩
  by_cases hu : u = v
  · rw [hu, Dev.ring_setRing, h]
  · rw [Dev.ring_setRing_ne _ _ hu]

theorem Dev.masterWrite_runKept (mid a : Nat) (ws : List Word) (d : Dev) : d.RunKept (d.masterWrite mid a ws) := .of_parts (by simp) (by simp)

theorem Dev.fire_runKept (src inst : Nat) (x : BitVec 128) (d : Dev) : d.RunKept (d.fire src inst x) := .of_parts rfl rfl

theorem Dev.startRead_runKept (q : Nat) (d : Dev) : d.RunKept (d.startRead q) := by
  unfold Dev.startRead
  dsimp only
  exact .ite (Dev.setQueue_runKept ⟨rfl, rfl, .inl rfl⟩) (.refl d)

theorem Dev.completeGrp_runKept (q grp : Nat) (d : Dev) : d.RunKept (d.completeGrp q grp) := by
  unfold Dev.completeGrp Dev.advanceHead
  dsimp only
  obtain ⟨e, he, hde⟩ : ∃ e : Dev, e = d.setQueue q { d.queue q with
      entries := (d.queue q).entries.map fun e => if e.grp = grp then { e with done := true } else e } ∧ d.RunKept e :=
    ⟨_, rfl, Dev.setQueue_runKept ⟨rfl, rfl, .inl rfl⟩⟩
  rw [← he]
  refine .ite hde (hde.trans ?_)
  have hback (f : Dev) : f.RunKept (f.headWriteback q) := .of_parts (by simp) (by simp)
  refine ((Dev.setQueue_runKept ?_).trans (hback _)).trans (Dev.foldl_runKept (fun f p => .of_parts (by simp) (by simp)) _ _)
  exact ⟨rfl, rfl, .inl rfl⟩

theorem Dev.noticeThen_runKept {k : Dev → Dev} (hk : ∀ d : Dev, d.RunKept (k d)) (f : Nat) (n : Notice) (d : Dev) :
    d.RunKept (d.noticeThen f n k) := by
  have hirq (e : Dev) : e.RunKept (e.noticeIrq f) := by
    unfold Dev.noticeIrq
    dsimp only
    refine .ite (.refl e) ?_
    refine .ite ?_ (Dev.setRing_runKept rfl)
    have hmsix (x : Dev) (a b : Nat) : x.RunKept (x.msix a b) := .of_parts (by simp) (by simp)
    refine .trans (Dev.setRing_runKept ?_) (hmsix ..)
    rfl
  have hpost : d.RunKept (d.post f n) := by
    unfold Dev.post
    dsimp only
    refine .ite (Dev.setRing_runKept rfl) ?_
    have hw (a : Nat) (ws : List Word) := d.masterWrite_runKept f a ws
    refine .ite ((hw _ _).trans (.trans (Dev.setRing_runKept ?_) (Dev.fire_runKept ..))) ((hw _ _).trans (Dev.setRing_runKept ?_))
    · exact ((hw _ _).rings f).symm
    · exact ((hw _ _).rings f).symm
  unfold Dev.noticeThen
  dsimp only
  exact .ite ((hpost.trans (hk _)).trans (hirq _)) (hpost.trans (hk _))

theorem Dev.settle_runKept (q : Nat) (d : Dev) : d.RunKept (d.settle q) := by
  have hsnap (e : Dev) : e.RunKept (e.snapshot q) := by
    unfold Dev.snapshot
    dsimp only
    refine .ite ((Dev.setQueue_runKept ?_).trans (Dev.fire_runKept ..)) ((Dev.setQueue_runKept ?_).trans (Dev.startRead_runKept ..))
    · exact ⟨rfl, rfl, .inl rfl⟩
    · exact ⟨rfl, rfl, .inl rfl⟩
  have hread := Dev.startRead_runKept q d
  unfold Dev.settle
  dsimp only
  by_cases hs : (d.queue q).state = .running
  · have hhalt (a : Quad) (c : Nat) : d.RunKept (d.haltQueue q a c) := by
      unfold Dev.haltQueue
      dsimp only
      refine .trans (Dev.setQueue_runKept ?_) (Dev.fire_runKept ..)
      exact ⟨rfl, rfl, .inr ⟨hs, rfl⟩⟩
    refine .ite (.refl d) (.ite (hhalt ..) ?_)
    split
    · exact hhalt ..
    · exact .ite (hread.trans (hsnap _)) hread
  · rw [if_pos hs]
    exact .refl d

theorem Dev.refuseHeld_runKept (q reason kind index : Nat) (d : Dev) : d.RunKept (d.refuseHeld q reason kind index) := by
  unfold Dev.refuseHeld
  dsimp only
  refine .trans ?_ (Dev.settle_runKept q _)
  refine .trans (Dev.setQueue_runKept ?_) (Dev.noticeThen_runKept (Dev.completeGrp_runKept q _) _ _ _)
  exact ⟨rfl, rfl, .inl rfl⟩

theorem Dev.refuseWaiters_runKept (op hi kind u : Nat) (d : Dev) : d.RunKept (d.refuseWaiters op hi kind u) :=
  Dev.foldl_runKept (fun e q => e.refuseHeld_runKept q _ _ _) _ d

theorem Dev.refuseOpen_runKept (q reason slot kind index : Nat) (d : Dev) : d.RunKept (d.refuseOpen q reason slot kind index) := by
  unfold Dev.refuseOpen
  dsimp only
  split
  · exact .refl d
  · refine .trans (Dev.setQueue_runKept ?_) (Dev.noticeThen_runKept (Dev.completeGrp_runKept q _) ..)
    exact ⟨rfl, rfl, .inl rfl⟩

theorem Dev.beginScene_runKept (q : Nat) (w : Word) (d : Dev) : d.RunKept (d.beginScene q w) := by
  unfold Dev.beginScene
  refine .ite (Dev.setQueue_runKept ⟨rfl, rfl, .inl rfl⟩) ?_
  split
  · exact Dev.setQueue_runKept ⟨rfl, rfl, .inl rfl⟩
  · refine .trans ?_ (Dev.setQueue_runKept ?_)
    · split
      · exact Dev.refuseOpen_runKept ..
      · exact .refl d
    · exact ⟨rfl, rfl, .inl rfl⟩

theorem Dev.retryScene_runKept (q : Nat) (d : Dev) : d.RunKept (d.retryScene q) := by
  unfold Dev.retryScene
  exact .ite (d.beginScene_runKept ..) (.refl d)

theorem Dev.stagingFreed_runKept (d : Dev) : d.RunKept d.stagingFreed := by
  unfold Dev.stagingFreed
  exact Dev.foldl_runKept (fun f q => f.retryScene_runKept q) _ _

/-! ## The queues of the function -/

/-- A drain takes the queue to DRAINING with its enable and its reset as they were; the other queues run on. -/
theorem Dev.drainQueue_runs (q : Nat) (d : Dev) : ∃ x : Queue, x.en = (d.queue q).en ∧ x.state = .draining ∧
    (d.setQueue q x).RunKept (d.drainQueue q) := by
  obtain ⟨x, hx, hen, hst⟩ : ∃ x : Queue, x = { d.queue q with
      state := .draining, entries := (d.queue q).entries.takeWhile fun e => e.started || e.done,
      cidx := ((d.queue q).head + (((d.queue q).entries.takeWhile fun e => e.started || e.done).map (·.slots)).sum) % d.qmod q, buf := [],
      reading := none, fail := none, dbPend := false, txn := none, discard := false, pause := none, heldWords := [] } ∧
      x.en = (d.queue q).en ∧ x.state = .draining := ⟨_, rfl, rfl, rfl⟩
  refine ⟨x, hen, hst, ?_⟩
  unfold Dev.drainQueue
  dsimp only
  rw [← hx]
  have hclose (e : Dev) : e.RunKept (e.closeTurn q) := .of_parts (by simp) (by simp)
  exact .ite ((hclose _).trans (Dev.stagingFreed_runKept _)) (hclose _)

/-- A reset queue is disabled and drains where it is not OFF; the other queues run on, and the rings stand. -/
theorem Dev.flrQueue_spec (q : Nat) (d : Dev) : (∀ v, ((d.flrQueue q).ring v).en = (d.ring v).en) ∧
    (∀ p, p ≠ q → (d.queue p).RunsOn ((d.flrQueue q).queue p)) ∧ ((d.flrQueue q).queue q).en = false ∧
    ((d.queue q).state ≠ .off → ((d.flrQueue q).queue q).state = .draining ∧ ((d.flrQueue q).queue q).flr = true) := by
  obtain ⟨x, hx, hen, hst⟩ : ∃ x : Queue, x = { d.queue q with en := false, enPending := false, cfgErr := false } ∧ x.en = false ∧
      x.state = (d.queue q).state := ⟨_, rfl, rfl, rfl⟩
  have hset (y : Queue) (p : Nat) (hp : p ≠ q) : (d.queue p).RunsOn ((d.setQueue q y).queue p) := by
    rw [Dev.queue_setQueue_ne _ _ hp]
    exact .refl _
  have hdrain : (∀ v, (((d.setQueue q x).drainQueue q).ring v).en = (d.ring v).en) ∧
      (∀ p, p ≠ q → (d.queue p).RunsOn (((d.setQueue q x).drainQueue q).queue p)) ∧ (((d.setQueue q x).drainQueue q).queue q).en = false ∧
      (((d.setQueue q x).drainQueue q).queue q).state = .draining := by
    obtain ⟨y, hyen, hyst, hkept⟩ := (d.setQueue q x).drainQueue_runs q
    rw [Dev.queue_setQueue] at hyen
    have hq := hkept.queues q
    rw [Dev.queue_setQueue] at hq
    refine ⟨fun v => hkept.rings v, fun p hp => .trans ?_ (hkept.queues p), hq.en.trans (hyen.trans hen), ?_⟩
    · rw [Dev.queue_setQueue_ne _ _ hp, Dev.queue_setQueue_ne _ _ hp]
      exact .refl _
    · rcases hq.state with h | ⟨h, -⟩
      · exact h.trans hyst
      · exact absurd (hyst.symm.trans h) (by decide)
  have hrun (h : (d.queue q).state = .running ∨ (d.queue q).state = .halted) : d.flrQueue q =
      ((d.setQueue q x).drainQueue q).setQueue q { ((d.setQueue q x).drainQueue q).queue q with flr := true } := by
    unfold Dev.flrQueue
    dsimp only
    split
    · next ho => exact absurd h (by rw [ho]; decide)
    · rw [hx]
    · rw [hx]
    · next ho => exact absurd h (by rw [ho]; decide)
  cases hs : (d.queue q).state with
  | off =>
    have hoff : d.flrQueue q = (d.setQueue q { x with head := 0, cidx := 0 }).setReg .queue q CQE_PIDX 0 := by
      unfold Dev.flrQueue
      dsimp only
      split
      · rw [hx]
      all_goals next ho => exact absurd (hs.symm.trans ho) (by decide)
    rw [hoff]
    refine ⟨fun v => rfl, hset _, ?_, fun h => absurd rfl h⟩
    show ((d.setQueue q { x with head := 0, cidx := 0 }).queue q).en = false
    rw [Dev.queue_setQueue, hen]
  | draining =>
    have hdr : d.flrQueue q = d.setQueue q { x with flr := true } := by
      unfold Dev.flrQueue
      dsimp only
      split
      · next ho => exact absurd (hs.symm.trans ho) (by decide)
      · next ho => exact absurd (hs.symm.trans ho) (by decide)
      · next ho => exact absurd (hs.symm.trans ho) (by decide)
      · rw [hx]
    rw [hdr, Dev.queue_setQueue]
    exact ⟨fun v => rfl, hset _, hen, fun _ => ⟨hst.trans hs, rfl⟩⟩
  | running =>
    rw [hrun (.inl hs)]
    obtain ⟨hrings, hothers, hqen, hqst⟩ := hdrain
    refine ⟨hrings, fun p hp => ?_, ?_, fun _ => ?_⟩
    · rw [Dev.queue_setQueue_ne _ _ hp]
      exact hothers p hp
    · rw [Dev.queue_setQueue, hqen]
    · rw [Dev.queue_setQueue]
      exact ⟨hqst, rfl⟩
  | halted =>
    rw [hrun (.inr hs)]
    obtain ⟨hrings, hothers, hqen, hqst⟩ := hdrain
    refine ⟨hrings, fun p hp => ?_, ?_, fun _ => ?_⟩
    · rw [Dev.queue_setQueue_ne _ _ hp]
      exact hothers p hp
    · rw [Dev.queue_setQueue, hqen]
    · rw [Dev.queue_setQueue]
      exact ⟨hqst, rfl⟩

/-- What a function-level reset makes of a queue of its function. -/
def Queue.resets (x y : Queue) : Prop := y.en = false ∧ (x.state ≠ .off → y.state = .draining ∧ y.flr = true)

theorem Queue.RunsOn.resets_before {x y z : Queue} (h : x.RunsOn y) (h' : y.resets z) : x.resets z := by
  refine ⟨h'.1, fun hx => h'.2 fun hy => ?_⟩
  rcases h.state with h1 | ⟨-, h2⟩
  · exact hx (h1.symm.trans hy)
  · exact absurd (h2.symm.trans hy) (by decide)

theorem Queue.RunsOn.resets_after {x y z : Queue} (h : x.resets y) (h' : y.RunsOn z) : x.resets z := by
  refine ⟨h'.en.trans h.1, fun hx => ?_⟩
  obtain ⟨hst, hflr⟩ := h.2 hx
  refine ⟨?_, h'.flr.trans hflr⟩
  rcases h'.state with h1 | ⟨h1, -⟩
  · exact h1.trans hst
  · exact absurd (hst.symm.trans h1) (by decide)

theorem Dev.foldl_flrQueue {l : List Nat} (hn : l.Nodup) (d : Dev) :
    (∀ v, ((l.foldl (fun d q => d.flrQueue q) d).ring v).en = (d.ring v).en) ∧
    (∀ q, q ∉ l → (d.queue q).RunsOn ((l.foldl (fun d q => d.flrQueue q) d).queue q)) ∧
    ∀ q ∈ l, (d.queue q).resets ((l.foldl (fun d q => d.flrQueue q) d).queue q) := by
  induction l generalizing d with
  | nil => exact ⟨fun _ => rfl, fun _ _ => .refl _, nofun⟩
  | cons k l ih =>
    obtain ⟨hk, hn⟩ := List.nodup_cons.mp hn
    obtain ⟨hrings, hothers, hreset⟩ := d.flrQueue_spec k
    obtain ⟨irings, iothers, ireset⟩ := ih hn (d.flrQueue k)
    rw [List.foldl_cons]
    refine ⟨fun v => (irings v).trans (hrings v), fun q hq => ?_, fun q hq => ?_⟩
    · obtain ⟨hqk, hql⟩ := not_or.mp (fun h => hq (List.mem_cons.mpr h))
      exact (hothers q hqk).trans (iothers q hql)
    · rcases List.mem_cons.mp hq with rfl | hq
      · exact Queue.RunsOn.resets_after hreset (iothers q hk)
      · exact (hothers q fun h => hk (h ▸ hq)).resets_before (ireset q hq)

/-- No queue's reset waits for its drain. -/
def Dev.noFlr (d : Dev) : Prop := ∀ e ∈ d.queues, e.2.flr = false

/-- A queue that is OFF resets at once. -/
theorem Dev.foldl_flrQueue_off {l : List Nat} {d : Dev} (hoff : ∀ q ∈ l, (d.queue q).state = .off) (hn : d.noFlr) :
    (l.foldl (fun d q => d.flrQueue q) d).noFlr := by
  induction l generalizing d with
  | nil => exact hn
  | cons k l ih =>
    obtain ⟨x, hx, hst, hflr⟩ : ∃ x : Queue, x = { d.queue k with en := false, enPending := false, cfgErr := false, head := 0, cidx := 0 } ∧
        x.state = .off ∧ x.flr = false := by
      refine ⟨_, rfl, hoff k List.mem_cons_self, ?_⟩
      show (FMap.get _ d.queues k).flr = false
      unfold FMap.get
      split
      · next e he => exact hn e (List.mem_of_find?_eq_some he)
      · rfl
    have hrun : d.flrQueue k = (d.setQueue k x).setReg .queue k CQE_PIDX 0 := by
      unfold Dev.flrQueue
      dsimp only
      split
      · rw [hx]
      all_goals next ho => exact absurd ((hoff k List.mem_cons_self).symm.trans ho) (by decide)
    rw [List.foldl_cons, hrun]
    refine ih (fun q hq => ?_) fun e he => ?_
    · show ((d.setQueue k x).queue q).state = .off
      by_cases hqk : q = k
      · rw [hqk, Dev.queue_setQueue, hst]
      · rw [Dev.queue_setQueue_ne _ _ hqk, hoff q (List.mem_cons_of_mem _ hq)]
    · rcases FMap.mem_put (f := fun _ => ({} : Queue)) (l := d.queues) (k := k) (v := x) he with rfl | he
      · exact hflr
      · exact hn e he

/-! ## The rest of the reset -/

theorem Dev.flrChan_runKept (ch : Nat) (d : Dev) : d.RunKept (d.flrChan ch) := by
  have hset (e : Dev) (x : Chan) : e.RunKept (e.setChan ch x) := .of_parts rfl rfl
  have hdrain : d.RunKept (d.drainChan ch) := by
    unfold Dev.drainChan
    exact (hset d _).trans (Dev.refuseWaiters_runKept ..)
  unfold Dev.flrChan
  split
  · exact hdrain.trans (hset _ _)
  · exact hdrain.trans (hset _ _)
  · exact hdrain.trans (hset _ _)
  · exact hset _ _
  · exact .refl d
  · exact .refl d

theorem Dev.flrEngine_runKept (n : Nat) (d : Dev) : d.RunKept (d.flrEngine n) := by
  have hset (e : Dev) (x : Engine) : e.RunKept (e.setEngine n x) := .of_parts rfl rfl
  have hdrain : d.RunKept (d.drainEngine n) := by
    unfold Dev.drainEngine
    exact (hset d _).trans (Dev.refuseWaiters_runKept ..)
  unfold Dev.flrEngine
  split
  · exact hdrain.trans (hset _ _)
  · exact hdrain.trans (hset _ _)
  · exact hset _ _
  · exact .refl d
  · exact .refl d

theorem functionLevelReset_spec (s : State) (h : s.dev.rst.phase = .ready) (hw : s.dev.rst.warm = 0) (v : Fn) (hv : v.val ≠ 0) :
    ∃ u, exec (.functionLevelReset v) s = .next u ∧ (u.dev.flrOf v).active = true ∧
      ((∀ e ∈ s.dev.queues, e.2.flr = false) →
        (∀ q, q < 256 → s.dev.owner q = v.val → (s.dev.queue q).state = .off) → (u.dev.ring v).en = false) ∧
      ∀ q, q < 256 → s.dev.owner q = v.val → (u.dev.queue q).en = false ∧
        ((s.dev.queue q).state ≠ .off → (u.dev.queue q).state = .draining ∧ (u.dev.queue q).flr = true) := by
  have hexec : exec (.functionLevelReset v) s = .next ⟨s.dev.startFlr v, s.pending⟩ := by
    show execFunctionLevelReset v s = _
    rw [execFunctionLevelReset, State.dev!_next, show (decide (v.val ≠ 0) && decide (s.dev.rst.phase = .ready) && decide (s.dev.rst.warm = 0)) = true by
      simp [hv, h, hw], Dev.when_true]
  have hactive (e : Dev) : ((e.setFlr v { active := true }).flrOf v).active = true := by rw [Dev.flrOf_setFlr]
  refine ⟨_, hexec, hactive _, ?_⟩
  dsimp only
  have hmem (q : Nat) : q ∈ s.dev.queuesOf v ↔ q < 256 ∧ s.dev.owner q = v.val := by simp [Dev.queuesOf]
  obtain ⟨-, -, hreset⟩ := Dev.foldl_flrQueue (l := s.dev.queuesOf v) (List.nodup_range.filter _) s.dev
  have hnone := fun hn => Dev.foldl_flrQueue_off (l := s.dev.queuesOf v) (d := s.dev) (hn := hn)
  obtain ⟨a, ha⟩ : ∃ a, a = (s.dev.queuesOf v).foldl (fun d q => d.flrQueue q) s.dev := ⟨_, rfl⟩
  rw [← ha] at hreset hnone
  obtain ⟨b, hb, hbq, hbr⟩ : ∃ b, b = a.flrRing v ∧ b.queues = a.queues ∧ (a.noFlr → (b.ring v).en = false) := by
    refine ⟨_, rfl, ?_⟩
    unfold Dev.flrRing
    split
    · next hany =>
      refine ⟨rfl, fun hn => ?_⟩
      obtain ⟨e, he, hflr⟩ := List.any_eq_true.mp hany
      exact absurd ((Bool.and_eq_true ..).mp hflr).1 (by rw [hn e he]; decide)
    · exact ⟨rfl, fun _ => by rw [Dev.ring_setRing]⟩
  obtain ⟨c, hc, hkept⟩ : ∃ c, c = (let d := ((List.range 64).filter fun ch => b.chanFn ch = v).foldl (fun d ch => d.flrChan ch) b
      let d := ((List.range 16).filter fun e => d.engineFn e = v).foldl (fun d e => d.flrEngine e) d
      if d.mrvFn = v then d.abortMarver else d) ∧ b.RunKept c := by
    have hmrv (d : Dev) : d.RunKept (if d.mrvFn = v then d.abortMarver else d) := .ite (.of_parts (by simp) (by simp)) (.refl d)
    exact ⟨_, rfl, ((Dev.foldl_runKept (fun d ch => d.flrChan_runKept ch) _ b).trans (Dev.foldl_runKept (fun d e => d.flrEngine_runKept e) _ _)).trans (hmrv _)⟩
  have hstart : s.dev.startFlr v = ({ c with hif := { c.hif with
      msix := c.hif.msix.filter fun e => e.1 / 256 ≠ v, msixPend := c.hif.msixPend.filter fun e => e.1 / 64 ≠ v } } : Dev).setFlr v { active := true } := by
    rw [hc, hb, ha]
    rfl
  rw [hstart]
  refine ⟨fun hn hoff => ?_, fun q hq ho => ?_⟩
  · exact (hkept.rings v).trans (hbr (hnone hn fun q hq => hoff q ((hmem q).mp hq).1 ((hmem q).mp hq).2))
  · have hrun := hkept.queues q
    have hbqueue : b.queue q = a.queue q := by unfold Dev.queue; rw [hbq]
    rw [hbqueue] at hrun
    exact Queue.RunsOn.resets_after (hreset q ((hmem q).mpr ⟨hq, ho⟩)) hrun

/-- Settles O59: a cold reset, start-up in its order, the warm triggers and their end, and a function-level reset with its windows. -/
theorem resetsAndStartUpGoInOrder : Obligations.ResetsAndStartUpGoInOrder :=
  fun s => ⟨coldReset_spec s, resetNRise_spec s, bootAuthentication_spec s, bistComplete_spec s, memoryTrainingComplete_spec s,
    deviceReady_trained s, deviceReady_recovery s, triggers_ignored s,
    fun h hw => ⟨⟨_, rfl, Dev.warmTrigger_spec 1 h hw⟩, ⟨_, rfl, Dev.warmTrigger_spec 3 h hw⟩, warm_spec s h hw, functionLevelReset_spec s h hw⟩,
    warmResetComplete_spec s,
    fun _ ha hd hc => ⟨flrWindowClear_empty ha hd hc, fun lent => flrWindowClear_issues ha hd hc lent⟩⟩

end Sys2Proof.Machine
end

section
/-!
PROOF of O60: MSI-X, the host link, configuration space, the SMBus and the test access port.
-/
namespace Sys2Proof.Machine
set_option Elab.async false

/-! ## MSI-X and the host link -/

/-- A pending message of an unmasked vector goes out, and the vector's word stands. -/
theorem Dev.sendPending_spec {f v : Nat} {d : Dev} (hm : bit (d.msixWord f v 3) 0 = false) : (d.sendPending f v).hif.msix = d.hif.msix ∧
    if FMap.get (fun _ => false) d.hif.msixPend (f * 64 + v) then (d.sendPending f v).hif.out = d.hif.out ++ [.msix f v] ∧
      FMap.get (fun _ => false) (d.sendPending f v).hif.msixPend (f * 64 + v) = false
    else (d.sendPending f v).hif.out = d.hif.out := by
  have hput := FMap.get_put_same (fun _ => false) d.hif.msixPend (f * 64 + v) false
  unfold Dev.sendPending
  dsimp only
  rw [hm, Bool.not_false, Bool.and_true]
  split
  · exact ⟨rfl, rfl, hput⟩
  · exact ⟨rfl, rfl⟩

theorem msixUnmask_spec (s : State) (m : Fn) (v : Fin 64) (h : s.dev.responds 2044 = true) :
    ∃ u, exec (.msixUnmask m v) s = .next u ∧ s.dev.onlyChanges u.dev [.hif] ∧ bit (u.dev.msixWord m v 3) 0 = false ∧
      (if FMap.get (fun _ => false) s.dev.hif.msixPend (m * 64 + v) then
        u.dev.hif.out = s.dev.hif.out ++ [.msix m v] ∧ FMap.get (fun _ => false) u.dev.hif.msixPend (m * 64 + v) = false
       else u.dev.hif.out = s.dev.hif.out) := by
  obtain ⟨d, hd, hout, hpend, hword⟩ : ∃ d : Dev, d = { s.dev with hif := { s.dev.hif with
      msix := FMap.put (fun k => if k % 4 = 3 then 1 else 0) s.dev.hif.msix ((m * 64 + v) * 4 + 3) (0 &&& 1) } } ∧ d.hif.out = s.dev.hif.out ∧
      d.hif.msixPend = s.dev.hif.msixPend ∧ bit (d.msixWord m v 3) 0 = false := by
    refine ⟨_, rfl, rfl, rfl, ?_⟩
    have hput := FMap.get_put_same (fun k => if k % 4 = 3 then (1 : Word) else 0) s.dev.hif.msix ((m * 64 + v) * 4 + 3) (0 &&& 1)
    exact (congrArg (bit · 0) hput).trans (by decide)
  have hexec : exec (.msixUnmask m v) s = .next ⟨d.sendPending m v, s.pending⟩ := by
    show s.dev! (Dev.busWrite m (0x1FF0000 + 16 * v + 12) 0) = _
    rw [State.dev!_next, Dev.busWrite_msix h, hd]
    rfl
  obtain ⟨hmsix, hsent⟩ := Dev.sendPending_spec hword
  rw [hpend, hout] at hsent
  refine ⟨_, hexec, ?_, ?_, hsent⟩
  · exact Dev.onlyChanges_trans (b := d) (by rw [hd]; simp [Dev.onlyChanges_iff]) (by simp [Dev.onlyChanges_iff])
  · unfold Dev.msixWord at hword ⊢
    rw [hmsix]
    exact hword

theorem hostLinkChange_spec (s : State) (g : Fin 7) (w : Fin 17) : ∃ u, exec (.hostLinkChange g w) s = .next u ∧ u.dev.hif.gen = g.val ∧
    u.dev.hif.width = w.val ∧ s.dev.onlyChanges u.dev [.hif, .flt] := by
  rw [show exec (.hostLinkChange g w) s = execHostLinkChange g w s from rfl, execHostLinkChange, State.dev!_next]
  refine ⟨_, rfl, ?_⟩
  dsimp only
  split
  · exact ⟨rfl, rfl, by simp [Dev.onlyChanges_iff]⟩
  · exact ⟨rfl, rfl, by simp [Dev.onlyChanges_iff]⟩

theorem configurationRequest_spec (s : State) (f : Fn) (r : BitVec 12) :
    ∃ u, exec (.configurationRequest f r) s = .next u ∧ s.dev.onlyChanges u.dev [.hif] ∧
      if s.dev.rst.phase ≠ .ready ∨ s.dev.rst.warm = 1 then u.dev.hif.cfgRetry = true ∧ u.dev.hif.cfgData = s.dev.hif.cfgData
      else u.dev.hif.cfgRetry = false ∧
        (r.toNat / 4 = 2 → u.dev.hif.cfgData = (Config.cfgSpace f 8 &&& 0xFFFFFF00) ||| 0xB0) ∧
        (r.toNat / 4 ≠ 2 → u.dev.hif.cfgData = Config.cfgSpace f (r.toNat / 4 * 4)) := by
  obtain ⟨b, hb⟩ : ∃ b, b = (decide (s.dev.rst.phase ≠ .ready) || decide (s.dev.rst.warm = 1)) := ⟨_, rfl⟩
  obtain ⟨w, hw, hrev, hother⟩ : ∃ w : Word, w = (if r.toNat / 4 * 4 = 0x008 then (Config.cfgSpace f (r.toNat / 4 * 4) &&& 0xFFFFFF00) ||| 0xB0
      else Config.cfgSpace f (r.toNat / 4 * 4)) ∧ (r.toNat / 4 = 2 → w = (Config.cfgSpace f 8 &&& 0xFFFFFF00) ||| 0xB0) ∧
      (r.toNat / 4 ≠ 2 → w = Config.cfgSpace f (r.toNat / 4 * 4)) :=
    ⟨_, rfl, fun h => by rw [h, if_pos rfl], fun h => if_neg (by omega)⟩
  have hexec : exec (.configurationRequest f r) s = .next ⟨{ s.dev with
      hif := { s.dev.hif with cfgRetry := b, cfgData := if b then s.dev.hif.cfgData else w } }, s.pending⟩ := by
    rw [hb, hw]
    rfl
  refine ⟨_, hexec, by simp [Dev.onlyChanges_iff], ?_⟩
  by_cases hr : s.dev.rst.phase ≠ .ready ∨ s.dev.rst.warm = 1
  · rw [if_pos hr]
    have hbt : b = true := by rw [hb]; simpa using hr
    exact ⟨hbt, if_pos hbt⟩
  · rw [if_neg hr]
    have hbf : b = false := by rw [hb]; simpa using hr
    have hdata : (if b then s.dev.hif.cfgData else w) = w := if_neg (by rw [hbf]; decide)
    exact ⟨hbf, fun h => hdata.trans (hrev h), fun h => hdata.trans (hother h)⟩

/-! ## The SMBus -/

theorem smbus_spec (s : State) (c x : Byte) (h : s.dev.rst.phase ≠ .reset) :
    (∃ u, exec (.smbusReadByte c) s = .next u ∧ u.dev.pins.smbAck = true ∧ s.dev.onlyChanges u.dev [.pins] ∧
      u.dev.pins.smbData = s.dev.smbByte c ∧ (c = 4 → u.dev.pins.smbCopy = s.dev.flt.wseq)) ∧
    ∃ u, exec (.smbusWrite c x) s = .next u ∧ u.dev.pins = { s.dev.pins with smbAck := true } ∧ s.dev.onlyChanges u.dev [.pins] := by
  have hans : s.dev.smbAnswers = true := decide_eq_true h
  refine ⟨?_, ?_⟩
  · rw [show exec (.smbusReadByte c) s = execSmbusReadByte c s from rfl, execSmbusReadByte, State.dev!_next]
    refine ⟨_, rfl, ?_⟩
    dsimp only
    rw [if_pos hans]
    exact ⟨rfl, by simp [Dev.onlyChanges_iff], rfl, fun hc => if_pos hc⟩
  · rw [show exec (.smbusWrite c x) s = execSmbusWrite c x s from rfl, execSmbusWrite, State.dev!_next, hans]
    exact ⟨_, rfl, rfl, by simp [Dev.onlyChanges_iff]⟩

/-! ## The test access port -/

/-- The bits of IDCODE, the least significant first. -/
theorem idcodeBits_spec : idcodeBits.length = 32 ∧ ∀ k, k < 32 → idcodeBits[k]? = some (Nat.testBit 0xB1280F6F k) :=
  ⟨rfl, fun k hk => by simp [idcodeBits, hk]⟩

theorem tap_spec (s : State) (i : Instr) (hi : i ∈ [Instr.tapReset, .bypass, .idcode, .extest, .extestPulse, .extestTrain, .clamp, .highz]) :
    ∃ u, exec i s = .next u ∧ s.dev.onlyChanges u.dev [.pins] ∧ u.dev.pins.boundary = s.dev.pins.boundary ∧
      u.dev.pins.tapReset = decide (i = .tapReset) ∧
      (i = .bypass ∨ i = .clamp ∨ i = .highz → u.dev.pins.tdo = [false]) ∧
      (i = .idcode → u.dev.pins.tdo.length = 32 ∧ ∀ k, k < 32 → u.dev.pins.tdo[k]? = some (Nat.testBit 0xB1280F6F k)) ∧
      (i = .extest ∨ i = .extestPulse ∨ i = .extestTrain ∨ i = .clamp → u.dev.pins.outputs = .boundary) ∧
      (i = .highz → u.dev.pins.outputs = .highImpedance) ∧
      (i = .tapReset ∨ i = .bypass ∨ i = .idcode → u.dev.pins.outputs = .device) := by
  have hload (tap : TapInstr) (tdo : List Bool) : s.dev.onlyChanges (s.dev.tapLoad tap tdo) [.pins] := by simp [Dev.onlyChanges_iff]
  simp only [List.mem_cons, List.not_mem_nil, or_false] at hi
  rcases hi with rfl | rfl | rfl | rfl | rfl | rfl | rfl | rfl
  · exact ⟨_, rfl, by simp [Dev.onlyChanges_iff], rfl, rfl, by simp, by simp, by simp, by simp, fun _ => rfl⟩
  · exact ⟨_, rfl, hload .bypass [false], rfl, rfl, fun _ => rfl, by simp, by simp, by simp, fun _ => rfl⟩
  · exact ⟨_, rfl, hload .idcode idcodeBits, rfl, rfl, by simp, fun _ => idcodeBits_spec, by simp, by simp, fun _ => rfl⟩
  · exact ⟨_, rfl, hload .extest _, rfl, rfl, by simp, by simp, fun _ => rfl, by simp, by simp⟩
  · exact ⟨_, rfl, hload .extestPulse _, rfl, rfl, by simp, by simp, fun _ => rfl, by simp, by simp⟩
  · exact ⟨_, rfl, hload .extestTrain _, rfl, rfl, by simp, by simp, fun _ => rfl, by simp, by simp⟩
  · exact ⟨_, rfl, hload .clamp [false], rfl, rfl, fun _ => rfl, by simp, fun _ => rfl, by simp, by simp⟩
  · exact ⟨_, rfl, hload .highz [false], rfl, rfl, fun _ => rfl, by simp, by simp, fun _ => rfl, by simp⟩

/-- Settles O60: an unmasked vector, the host link, a configuration read, the SMBus and the instructions of the test access port. -/
theorem hostAndPinsAnswer : Obligations.HostAndPinsAnswer :=
  fun s => ⟨msixUnmask_spec s, hostLinkChange_spec s, configurationRequest_spec s, smbus_spec s, tap_spec s,
    fun _ => ⟨_, rfl, rfl, rfl, rfl, by simp [Dev.onlyChanges_iff]⟩⟩

end Sys2Proof.Machine
end
